-- ==== Sys2Proof/Word.lean ====
section
/-! DEFINITION. The word types of the XS262 block model and their plainest readings (00, R7: little-endian, bit 0 least
significant). -/
namespace Sys2Proof

/-- A byte. -/
abbrev Byte := BitVec 8
/-- A 16-bit value. -/
abbrev U16 := BitVec 16
/-- A 32-bit value. -/
abbrev U32 := BitVec 32
/-- A 64-bit value. -/
abbrev U64 := BitVec 64
/-- A web count or fire position: 48 bits, compared by signed difference (06, R133). -/
abbrev Pos48 := BitVec 48

/-- The byte whose value is `n` modulo 256. -/
abbrev toByte (n : Nat) : Byte := BitVec.ofNat 8 n

end Sys2Proof
end

