-- ==== Sys2Proof/Syntax.lean ====
section
/-! DEFINITION. The commands of the XS262 block: one constructor of `Instr` per row of spec/opcode_table.json. The table
gives rows no operands; an operand here is what arrives from outside with the event the row describes: a message's fields, a
write's value and privilege level, a frame's fields, a measured value, or the outcome of a physical check that the module
cannot choose itself (assumption 18). -/
namespace Sys2Proof

/-- The header and transport fields of one XPP message that R330, R331 and R334 use (14, Tables 14-1 and 14-2). -/
structure XppHdr where
  source : U32
  ip : U32
  seq : U32
  retx : Bool
  port : Fin 3
  udp : U16
  deriving DecidableEq, Repr

/-- The requests of Table 14-3 and Table 16-6 with their payloads. -/
inductive XppReq where
  | hello
  | heartbeat
  | noteResend (seq : U32)
  | start (jn : U32) (mode : Byte) (origin : BitVec 80)
  | stop
  | hold
  | resume
  | speedLimit (v : U32)
  | enterSafe
  | restart
  | shutdownAck
  | rkRelease (mask : U16)
  | headClear (mask : U64)
  | axisTarget (axis : Byte) (target : U32)
  | axisHome (axis : Byte)
  | heatSet (slot : Byte) (sp : U16) (enable : Byte)
  | jobCancel (jn : U32) (mode : Byte)
  | queueOrder (jns : List U32)
  | jobQuery (jn : U32)
  | regRead (addrs : List U32)
  | nvmOpen (span : Byte)
  | nvmErase (ofs : U32) (sectors : U16)
  | nvmWrite (ofs : U32) (data : List Byte)
  | nvmCrc (ofs len : U32)
  | nvmClose
  | debugEnable
  | debugDisable
  | lockSet (lock : Byte)
  | logRead (index : U32) (count : Byte)
  | logErase
  | malformed (type : U16)
  deriving DecidableEq, Repr

/-- A request of an arbitration window, in `TARR` order (14, R340). -/
structure XppIn where
  hdr : XppHdr
  req : XppReq
  deriving DecidableEq, Repr

/-- A discrete input of the encoder (06, ENC_LINE data). -/
inductive EncInput where
  | a | b | z
  deriving DecidableEq, Repr

/-- Causes of `XPP_BAD` (14, Table 14-8). -/
inductive BadCause where
  | crc | identity | sequence | header
  deriving DecidableEq, Repr

/-- What the checks of one dosed line find (04, R86, R102 to R105): for each of the two passes the check that failed, if
any (1 address, 2 residue, 3 duplicate), and the source of poison consumed, if any (1 tile, 2 TRC, 3 threshold). -/
structure DoseChecks where
  first : Option (Fin 4)
  second : Option (Fin 4)
  poison : Option (Fin 4)
  deriving DecidableEq, Repr

/-- One sample of a tile: plane, band line, column pixel, value (03, R59). -/
structure Sample where
  plane : Fin 16
  line : Fin 16
  x : Fin 2048
  v : BitVec 12
  deriving DecidableEq, Repr, Inhabited

/-- A finished band-column as the Reckoner left it: the samples that differ from the correct rendering and the samples
that carry poison (03, R56, R67). -/
structure TileOut where
  diff : List Sample
  poison : List Sample
  deriving DecidableEq, Repr, Inhabited

/-- One attempt of a compressor at a slot: the lines stored plain and the stream it wrote, with what its own decode
comparison reports is decided by decoding the stream (05, R117, R118, R121). -/
structure XdcStream where
  stored : U16
  bytes : List Byte
  deriving DecidableEq, Repr

/-- What reading a slot back meets beyond what memory holds (05, R127, R128; 08, R210): a header, `SSEQ`, `CRCV` or descriptor read wrong,
the first line whose stream data comes with poison, and the head-lines whose second decode differs, with what it put out. -/
structure SlotChecks where
  headerOk : Bool
  sseqOk : Bool
  crcOk : Bool
  descOk : Bool
  poisonLine : Option (Fin 16)
  second : List (Fin 16 × Fin 8 × List Byte)
  deriving DecidableEq, Repr

/-- The STATUS frame of a head driver board (07, Tables 7-2 and 7-3) with its arrival time t4 on the link counter. -/
structure StatusFrame where
  t2 : U64
  t3 : U64
  t4 : U64
  beacon : U32
  therm : U16
  lastGood : Byte
  flags : Byte
  frameErrs : U16
  duty : U16
  faults : U32
  deriving DecidableEq, Repr

/-- The ECHO frame (07, Tables 7-2 and 7-3), with the poison of the Tally table entry it is compared with (08, R211). -/
structure EchoFrame where
  jnLow : Byte
  line : U32
  et : U32
  bead : Byte
  result : Byte
  hc : U64
  entryPoisoned : Bool
  deriving DecidableEq, Repr

/-- Responses of the head driver (07, Table 7-7): IDENT, or head memory bytes at an offset. -/
inductive MgmtResp where
  | ident (gens : Byte) (present : Bool) (fw : U16) (serial : U64)
  | eeRead (ofs : U16) (data : List Byte)
  deriving DecidableEq, Repr

/-- A bar of `press.geometry`: number, first head slot, heads, cuff width (04, R81 to R83). -/
structure BarGeom where
  bar : Nat
  slot0 : Nat
  heads : Nat
  cuff : Nat
  deriving DecidableEq, Repr, Inhabited

/-- A head slot of `press.heads` (16, Table 16-5): `gen1` is Zanlink-1; `tref` is t_ref in 1/16 degree. -/
structure HeadCfg where
  slot : Nat
  enable : Bool
  gen1 : Bool
  rank : Nat
  levels : Nat
  curve : Nat
  tref : Int
  disabled : List Nat
  deriving DecidableEq, Repr, Inhabited

/-- One bar's tiles of a screen set: threshold tile of TW x TH cells with 7 thresholds each, 64 x 64 stitch tile (04, R95,
R97). -/
structure ScreenTile where
  bar : Nat
  tw : Nat
  th : Nat
  thr : List Nat
  stitch : List Nat
  deriving DecidableEq, Repr, Inhabited

/-- The Brim plan of `press.geometry` (10, Table 10-1): per bar the ladder row (offset, lines), window, phase offset and matrix
output; `camOfs` per port; `gclass` by 3 times n1 plus n2. -/
structure BrimPlan where
  ladder : List (Nat × Nat)
  lcode : Nat
  win : List Nat
  sigma : List Nat
  qsel : List Nat
  markOfs : Nat
  markLines : Nat
  markX0 : List Nat
  markStep : Nat
  mcode : Nat
  refBar : Nat
  camOfs : List Nat
  gclass : List Nat
  hstep : Nat
  hguard : Nat
  deriving DecidableEq, Repr, Inhabited

/-- The contents of the records of a Crown image whose byte layout the spec does not give (16, Table 16-5; assumption 19).
Records whose content is register settings (`net`, `cam.profile`, `axes`, `abacus`, `ring`) are lists of register address
and value. The scale of the encoder is `umNum`/`umDen` um per count. -/
structure CrownContent where
  bars : List BarGeom
  barOfs : List Nat
  headOfs : List Nat
  cpm : Nat
  umNum : Nat
  umDen : Nat
  lpis : List Nat
  wasteOfs : Nat
  plan : BrimPlan
  heads : List HeadCfg
  curves : List (Nat × List (List Nat))
  screens : List (Nat × List ScreenTile)
  store : Nat
  cache : Nat
  recvTimeout : Nat
  net : List (Nat × Nat)
  cams : List (Nat × List (Nat × Nat))
  axisBar : List (Nat × Nat)
  groups : List (Nat × List Nat)
  axes : List (Nat × Nat)
  abacus : List (Nat × Nat)
  chainReserve : Nat
  ring : List (Nat × Nat)
  logSect : Nat
  logCount : Nat
  deriving DecidableEq, Repr, Inhabited

/-- A privilege level (16, R384). -/
abbrev Lvl := Fin 4
/-- A dose pipeline, and a bar. -/
abbrev Pipe := Fin 16
/-- A lane, and a head slot. -/
abbrev LaneNo := Fin 64
/-- A camera port. -/
abbrev Port := Fin 4
/-- An axis. -/
abbrev AxisNo := Fin 16
/-- A Reckoner. -/
abbrev RkNo := Fin 16
/-- A DMA ring. -/
abbrev RingNo := Fin 48
/-- A memory channel: 0 A, 1 B. -/
abbrev Chan := Fin 2
/-- A ring ID. -/
abbrev RingId := Fin 8

/-- Causes of a Reckoner trap in the order of `RK_TRAP` (03). -/
inductive TrapCause where
  | fetch | illegal | bus | address
  deriving DecidableEq, Repr

/-- A CSI-2 packet (09, R221, R222): header errors (0 none, 1 corrected, 2 larger), virtual channel, data type (0x00 frame
start, 0x01 frame end), pixels of a long packet, CRC-16 good, flat-field words of the line read with poison (R232); `full`: the
port's input buffer still holds 4 whole lines (R235). -/
structure CsiPkt where
  hdrErr : Fin 3
  vc : Fin 16
  dtype : BitVec 6
  pixels : List (BitVec 14)
  crcOk : Bool
  mapPoison : List (Fin 8192)
  full : Bool
  deriving DecidableEq, Repr

/-- A register mark of a bar as VS measured it (10, R256): group, centre column and leading edge in 1/256 pixel, height in
1/256 pixel. -/
structure Mark where
  group : Fin 4
  centre : U32
  edge : U32
  height : U16
  deriving DecidableEq, Repr

/-- What VS measures of one bar in a gap (10, R245 to R256). -/
structure GapBar where
  bar : Pipe
  marks : List Mark
  deriving DecidableEq, Repr

/-- A change on a homing input (11, Table 11-1): the filtered HOME level, or an index edge. -/
inductive HomeEdge where
  | active | inactive | index
  deriving DecidableEq, Repr

/-- A feedback change (11, R264): Hall state H3 H2 H1, or quadrature inputs A and B. -/
inductive Feedback where
  | hall (h : BitVec 3)
  | quad (a b : Bool)
  deriving DecidableEq, Repr

/-- A return frame of an axis port (11, Table 11-3). -/
structure ReturnFrame where
  fcnt : Byte
  s0 : U16
  s1 : U16
  s2 : U16
  s3 : U16
  crc : U16
  deriving DecidableEq, Repr

/-- Outcome of a scrub read (13, R309 to R314). -/
inductive ScrubOutcome where
  | clean
  | corrected (die : Fin 10)
  | uncorrectable
  deriving DecidableEq, Repr

/-- What the best master selection answers on an Announce (15, R356): the own clock, or the master named by its identity. -/
inductive BestMaster where
  | own
  | external (id : U64)
  deriving DecidableEq, Repr

/-- The commands of the block: one constructor per row of spec/opcode_table.json. -/
inductive Instr where
  /-- POWER_GOOD (R407) -/
  | powerGood
  /-- POWER_ON_RESET (R371) -/
  | powerOnReset
  /-- INPUT_RESET_9V8 (R303) -/
  | inputReset9v8
  /-- OVERVOLTAGE_DISCONNECT (R408) -/
  | overvoltageDisconnect
  /-- SUPPLY_WARNING (R301) -/
  | supplyWarning (mv : U16)
  /-- SUPPLY_WARNING_CLEAR (R302) -/
  | supplyWarningClear (lowest : U16)
  /-- DEBUG_RESET (R371) -/
  | debugReset
  /-- CR_RESTART (R371) -/
  | crRestart (lvl : Lvl)
  /-- CROWN_HEADER_READ (R377) -/
  | crownHeaderRead (sfdpMode sfdpSck : Byte)
  /-- CROWN_FIRST_PASS (R377) -/
  | crownFirstPass (primary backup : CrownContent)
  /-- DRAM_TRAINING (R320) -/
  | dramTraining (eyes : List (Byte × Byte))
  /-- SECOND_PASS (R379) -/
  | secondPass (bad : List U16)
  /-- CONTENT_CHECK (R378) -/
  | contentCheck
  /-- ENGINE_RELEASE (R381) -/
  | engineRelease
  /-- ROD_BUILD (R382) -/
  | rodBuild
  /-- BOOT_COMPLETE (R21) -/
  | bootComplete
  /-- HELLO (R335) -/
  | hello (h : XppHdr)
  /-- HEARTBEAT (R335) -/
  | heartbeat (h : XppHdr)
  /-- NOTE_RESEND (R333) -/
  | noteResend (h : XppHdr) (seq : U32)
  /-- START (R151) -/
  | start (h : XppHdr) (jn : U32) (mode : Byte) (origin : BitVec 80)
  /-- STOP (R424) -/
  | stop (h : XppHdr)
  /-- HOLD (R338) -/
  | hold (h : XppHdr)
  /-- RESUME (R163) -/
  | resume (h : XppHdr)
  /-- SPEED_LIMIT (R338) -/
  | speedLimit (h : XppHdr) (v : U32)
  /-- ENTER_SAFE (R21) -/
  | enterSafe (h : XppHdr)
  /-- RESTART (R21) -/
  | restart (h : XppHdr)
  /-- SHUTDOWN_ACK (R306) -/
  | shutdownAck (h : XppHdr)
  /-- RK_RELEASE (R78) -/
  | rkRelease (h : XppHdr) (mask : U16)
  /-- HEAD_CLEAR (R287) -/
  | headClear (h : XppHdr) (mask : U64)
  /-- AXIS_TARGET (R273) -/
  | axisTarget (h : XppHdr) (axis : Byte) (target : U32)
  /-- AXIS_HOME (R272) -/
  | axisHome (h : XppHdr) (axis : Byte)
  /-- HEAT_SET (R281) -/
  | heatSet (h : XppHdr) (slot : Byte) (sp : U16) (enable : Byte)
  /-- JOB_CANCEL_FINISH (R46) -/
  | jobCancelFinish (h : XppHdr) (jn : U32)
  /-- JOB_CANCEL_ABORT (R46) -/
  | jobCancelAbort (h : XppHdr) (jn : U32)
  /-- QUEUE_ORDER (R44) -/
  | queueOrder (h : XppHdr) (jns : List U32)
  /-- JOB_QUERY (R338) -/
  | jobQuery (h : XppHdr) (jn : U32)
  /-- REG_READ (R338) -/
  | regRead (h : XppHdr) (addrs : List U32)
  /-- NVM_OPEN (R390) -/
  | nvmOpen (h : XppHdr) (span : Byte)
  /-- NVM_ERASE (R389) -/
  | nvmErase (h : XppHdr) (ofs : U32) (sectors : U16)
  /-- NVM_WRITE (R389) -/
  | nvmWrite (h : XppHdr) (ofs : U32) (data : List Byte)
  /-- NVM_CRC (R389) -/
  | nvmCrc (h : XppHdr) (ofs len : U32)
  /-- NVM_CLOSE (R392) -/
  | nvmClose (h : XppHdr)
  /-- DEBUG_ENABLE (R393) -/
  | debugEnable (h : XppHdr)
  /-- DEBUG_DISABLE (R393) -/
  | debugDisable (h : XppHdr)
  /-- LOCK_SET (R392) -/
  | lockSet (h : XppHdr) (lock : Byte)
  /-- LOG_READ (R389) -/
  | logRead (h : XppHdr) (index : U32) (count : Byte)
  /-- LOG_ERASE (R389) -/
  | logErase (h : XppHdr)
  /-- EVALUATION_PERIOD_END (R24) -/
  | evaluationPeriodEnd (atSend : Bool) (reqs : List XppIn)
  /-- XPP_PEER_LOST (R335) -/
  | xppPeerLost (role : Fin 3)
  /-- STATUS_PERIOD (R337) -/
  | statusPeriod
  /-- HOLD_PIN_ASSERT (R343) -/
  | holdPinAssert
  /-- HOLD_PIN_RELEASE (R343) -/
  | holdPinRelease
  /-- INHIBIT_ASSERT (R343) -/
  | inhibitAssert
  /-- INHIBIT_RELEASE (R343) -/
  | inhibitRelease
  /-- PRESENCE_ASSERT (R388) -/
  | presenceAssert
  /-- PRESENCE_LOST (R391) -/
  | presenceLost
  /-- BULK_CONNECTION (R41) -/
  | bulkConnection (conn : Fin 8) (hdr : List Byte)
  /-- BULK_CONNECTION_CLOSE (R42) -/
  | bulkConnectionClose (conn : Fin 8)
  /-- AHNUS_RECORD (R27) -/
  | ahnusRecord (conn : Fin 8) (bytes : List Byte) (poison : Bool)
  /-- JOB_RECV_TIMEOUT (R42) -/
  | jobRecvTimeout (jn : U32)
  /-- COMMITMENT_POINT (R50) -/
  | commitmentPoint
  /-- AUTO_PLACEMENT (R51) -/
  | autoPlacement
  /-- WORK_POST (R61) -/
  | workPost (seeds : List U32)
  /-- WORK_STEAL (R62) -/
  | workSteal (rk : RkNo)
  /-- BAND_COLUMN_RENDERED (R60) -/
  | bandColumnRendered (rk : RkNo) (tile : TileOut)
  /-- WITNESS_DONE (R72) -/
  | witnessDone (rk : RkNo) (wrong : List Sample)
  /-- THIRD_RENDER_DONE (R74) -/
  | thirdRenderDone (rk : RkNo) (tile : TileOut)
  /-- CACHE_BUILD_DONE (R67) -/
  | cacheBuildDone (rk : RkNo) (tile : TileOut)
  /-- RECKONER_TRAP (R57) -/
  | reckonerTrap (rk : RkNo) (cause : TrapCause) (poisoned : Bool)
  /-- RENDER_WATCHDOG (R76) -/
  | renderWatchdog (rk : RkNo)
  /-- STRIKE_EXPIRY (R77) -/
  | strikeExpiry (rk : RkNo)
  /-- RKC_MITTEN_WRITE (R78) -/
  | rkcMittenWrite (lvl : Lvl) (val : U32)
  /-- DOSE_BAND_START (R126) -/
  | doseBandStart
  /-- DOSE_LINE (R104) -/
  | doseLine (i : Pipe) (checks : DoseChecks)
  /-- ROD_REFETCH (R106) -/
  | rodRefetch (ch : BitVec 18) (masterPoisoned : Bool)
  /-- TABLE_RELOAD (R110) -/
  | tableReload
  /-- ROD_ENQUEUE (R108) -/
  | rodEnqueue (lvl : Lvl) (i : Pipe) (rod : U32)
  /-- ROD_COMMIT (R109) -/
  | rodCommit (lvl : Lvl) (i : Pipe)
  /-- ROD_RELEASE (R109) -/
  | rodRelease (lvl : Lvl) (i : Pipe)
  /-- ROD_WINDOW_WRITE (R107) -/
  | rodWindowWrite (lvl : Lvl) (ch : BitVec 18) (rod : U32)
  /-- PL_TAIL_WRITE (R123); `pages` are the entries that SV1 appends from the old tail on. -/
  | plTailWrite (lvl : Lvl) (i : Pipe) (idx : BitVec 19) (pages : List U32)
  /-- SLOT_START (R124) -/
  | slotStart (i : Pipe)
  /-- SLOT_READY (R121) -/
  | slotReady (i : Pipe) (streams : List XdcStream)
  /-- SLOT_READ_START (R127) -/
  | slotReadStart (i : Pipe) (checks : SlotChecks)
  /-- SKIP_ARM (R129) -/
  | skipArm (lvl : Lvl) (i : Pipe)
  /-- DMA_TAIL_WRITE (R16); `descs` are the descriptors that firmware wrote from the old tail on. -/
  | dmaTailWrite (lvl : Lvl) (r : RingNo) (idx : BitVec 19) (descs : List (List Byte))
  /-- DMA_DESCRIPTOR_DONE (R16) -/
  | dmaDescriptorDone (r : RingNo) (spec12 data : List Byte) (tries : Fin 16) (poison : Bool)
  /-- DMA_HALT (R17) -/
  | dmaHalt (r : RingNo)
  /-- DMA_HALT_CLEAR (R17) -/
  | dmaHaltClear (lvl : Lvl) (hi : Bool) (val : U32)
  /-- ENCODER_COUNT (R131) -/
  | encoderCount (a b : Bool)
  /-- ENCODER_INDEX (R143) -/
  | encoderIndex (level : Bool)
  /-- ENC_NOINDEX (R146) -/
  | encNoindex
  /-- ENC_LINE (R133) -/
  | encLine (which : EncInput)
  /-- ENC_STANDSTILL (R141) -/
  | encStandstill
  /-- SEND_POINT (R155) -/
  | sendPoint (bar : Pipe)
  /-- FIRE_REPREDICT (R157) -/
  | fireRepredict
  /-- PLACEMENT_LINES_LOWER (R423) -/
  | placementLinesLower (lvl : Lvl) (e : Fin 4) (lines : U32)
  /-- LANE_ENABLE (R175) -/
  | laneEnable (n : LaneNo)
  /-- BLOCK_LOCK (R171) -/
  | blockLock (n : LaneNo)
  /-- LOCK_LOST (R171) -/
  | lockLost (n : LaneNo)
  /-- LANE_UP (R175) -/
  | laneUp (n : LaneNo) (farGen : Fin 4)
  /-- BEACON_PERIOD (R183) -/
  | beaconPeriod (n : LaneNo)
  /-- STATUS_FRAME (R185) -/
  | statusFrame (n : LaneNo) (f : StatusFrame)
  /-- STATUS_TIMEOUT (R175) -/
  | statusTimeout (n : LaneNo)
  /-- ZL_RECOV_STOP (R198) -/
  | zlRecovStop (n : LaneNo)
  /-- DOSE_FRAME_SEND (R177); `poison`: the head-line is read from its output FIFO with poison. -/
  | doseFrameSend (n : LaneNo) (poison : Bool)
  /-- HEAT_PERIOD (R189) -/
  | heatPeriod
  /-- ECHO_FRAME (R182) -/
  | echoFrame (n : LaneNo) (f : EchoFrame)
  /-- ECHO_TIMEOUT (R182) -/
  | echoTimeout (n : LaneNo) (jn line : U32)
  /-- RX_FRAME_ERROR (R191) -/
  | rxFrameError (n : LaneNo)
  /-- MGMT_RESPONSE (R192) -/
  | mgmtResponse (n : LaneNo) (r : MgmtResp)
  /-- TX_SLEEP_REQUEST (R195) -/
  | txSleepRequest (lvl : Lvl) (n : LaneNo)
  /-- RX_SLEEP_REQUEST (R195) -/
  | rxSleepRequest (lvl : Lvl) (n : LaneNo)
  /-- PARK_REQUEST (R196) -/
  | parkRequest (lvl : Lvl) (n : LaneNo)
  /-- LANE_WAKE (R196) -/
  | laneWake (n : LaneNo)
  /-- LOOP_MODE_WRITE (R194) -/
  | loopModeWrite (lvl : Lvl) (n : LaneNo) (mode : Fin 4)
  /-- LOOP_TEST (R194); `errors`: the payload bit errors of the test frames. -/
  | loopTest (lvl : Lvl) (n : LaneNo) (errors : U32)
  /-- MARK_POINT (R215); `poison`: the product table entry is read with poison. -/
  | markPoint (jn pn : U32) (poison : Bool)
  /-- WASTE_MARK_END (R215) -/
  | wasteMarkEnd
  /-- SPR_FLUSH (R214) -/
  | sprFlush
  /-- TALLY_FOLD (R209) -/
  | tallyFold (lvl : Lvl) (v : U32)
  /-- TALLY_IN_B (R209) -/
  | tallyInB (lvl : Lvl) (v : Byte)
  /-- TALLY_IN_H (R209) -/
  | tallyInH (lvl : Lvl) (v : U16)
  /-- TALLY_IN_W (R209) -/
  | tallyInW (lvl : Lvl) (v : U32)
  /-- TALLY_VAL_WRITE (R212) -/
  | tallyValWrite (lvl : Lvl) (c : LaneNo) (v : U32)
  /-- TRIGGER_ENQUEUE (R223) -/
  | triggerEnqueue (lvl : Lvl) (p : Port) (hi : U16)
  /-- CAMERA_TRIGGER (R223) -/
  | cameraTrigger (p : Port)
  /-- TRIGGER_PULSE_END (R223) -/
  | triggerPulseEnd (p : Port)
  /-- STROBE_START (R225) -/
  | strobeStart (p : Port)
  /-- STROBE_END (R225) -/
  | strobeEnd (p : Port)
  /-- CSI_PACKET (R222) -/
  | csiPacket (p : Port) (pkt : CsiPkt)
  /-- FRAME_END (R230) -/
  | frameEnd (p : Port)
  /-- FRAME_WATCHDOG_TIMEOUT (R237) -/
  | frameWatchdogTimeout (p : Port)
  /-- CAM_RESET_DONE (R237) -/
  | camResetDone (p : Port)
  /-- EXPOSURE_COMMIT (R226) -/
  | exposureCommit (lvl : Lvl) (p : Port)
  /-- I2C_LIST_COMPLETE (R226) -/
  | i2cListComplete (p : Port)
  /-- CAM_I2C_FAIL (R228) -/
  | camI2cFail (p : Port) (entry : Fin 256)
  /-- CAL_START (R238) -/
  | calStart (lvl : Lvl) (p : Port)
  /-- FFBASE_WRITE (R238) -/
  | ffbaseWrite (lvl : Lvl) (p : Port) (v : U32)
  /-- GAP_MEASUREMENT (R245) -/
  | gapMeasurement (p : Port) (jn pn frame : U32) (bars : List GapBar)
  /-- HANDOVER_STEP (R259) -/
  | handoverStep (bar : Pipe)
  /-- AXSYNC_PERIOD (R276) -/
  | axsyncPeriod
  /-- AXIS_SAMPLE (R273) -/
  | axisSample
  /-- RETURN_FRAME (R277) -/
  | returnFrame (p : Port) (f : ReturnFrame)
  /-- FOLLOWING_ERROR_FAULT (R266) -/
  | followingErrorFault (a : AxisNo)
  /-- LIMIT_TRIP (R270) -/
  | limitTrip (a : AxisNo) (high : Bool)
  /-- LIMIT_LATCH_CLEAR (R269) -/
  | limitLatchClear (a : AxisNo) (high : Bool)
  /-- HOME_INPUT_CHANGE (R272) -/
  | homeInputChange (a : AxisNo) (edge : HomeEdge)
  /-- HOMING_TIMEOUT (R272) -/
  | homingTimeout (a : AxisNo)
  /-- AX_TGT_WRITE (R273) -/
  | axTgtWrite (lvl : Lvl) (a : AxisNo) (v : U32)
  /-- AX_HOME (R272) -/
  | axHome (lvl : Lvl) (a : AxisNo)
  /-- AX_STOP (R272) -/
  | axStop (lvl : Lvl) (a : AxisNo)
  /-- AX_FCLR (R267) -/
  | axFclr (lvl : Lvl) (a : AxisNo)
  /-- AX_CCOMMIT (R280) -/
  | axCcommit (lvl : Lvl) (a : AxisNo)
  /-- HT_CCOMMIT (R280) -/
  | htCcommit (lvl : Lvl) (h : LaneNo)
  /-- HEATER_SAMPLE (R281) -/
  | heaterSample
  /-- HEAD_TEMP_SAMPLE (R283) -/
  | headTempSample (h : LaneNo)
  /-- HEAD_PLAUS (R287) -/
  | headPlaus (h : LaneNo)
  /-- TRACE_ARM (R288) -/
  | traceArm (lvl : Lvl) (c : Fin 4)
  /-- EPOCH_END (R289) -/
  | epochEnd (pwr vin : U16)
  /-- HK_TEMP_DEMAND (R299) -/
  | hkTempDemand
  /-- TEMP_DEMAND (R299) -/
  | tempDemand (lvl : Lvl) (mask : BitVec 10)
  /-- TEMP_CONVERSION_DONE (R299) -/
  | tempConversionDone (readings : List U16)
  /-- SHUTDOWN_RECORD_WRITTEN (R305) -/
  | shutdownRecordWritten
  /-- SHUTDOWN_POWER_DOWN (R304) -/
  | shutdownPowerDown
  /-- SPEED_CEIL_PERIOD (R345) -/
  | speedCeilPeriod
  /-- REFRESH_INTERVAL (R317) -/
  | refreshInterval (c : Chan) (idle : Bool)
  /-- MR4_POLL (R318) -/
  | mr4Poll (c : Chan) (td : U16)
  /-- CAL_WINDOW_OPEN (R322) -/
  | calWindowOpen
  /-- CAL_WINDOW_END (R322) -/
  | calWindowEnd (rd wr : Byte) (done : Bool)
  /-- MEM_CAL_LATE (R322) -/
  | memCalLate
  /-- CHANNEL_B_RETRAIN (R324) -/
  | channelBRetrain (eyes : List (Byte × Byte))
  /-- FREQ_CHANGE (R326) -/
  | freqChange (us : Byte)
  /-- SCRUB_READ (R314) -/
  | scrubRead (addr : BitVec 36) (outcome : ScrubOutcome)
  /-- WRITE_DRAIN (R316) -/
  | writeDrain (c : Chan)
  /-- PTP_SYNC (R356) -/
  | ptpSync (port : Fin 3) (offset : U64) (delay : U32)
  /-- ANNOUNCE_TIMEOUT (R356) -/
  | announceTimeout
  /-- TB_FALLBACK (R349) -/
  | tbFallback
  /-- TB_MAIN (R350) -/
  | tbMain
  /-- MGMT_PTP_FALLBACK (R357) -/
  | mgmtPtpFallback
  /-- MGMT_PTP_RETURN (R357) -/
  | mgmtPtpReturn
  /-- RING_HOLD_FRAME (R361) -/
  | ringHoldFrame (src hops : RingId) (rel : Bool) (cause : Byte) (seq : U16)
  /-- RING_START_FRAME (R365) -/
  | ringStartFrame (src hops : RingId) (group : RingId) (sec ns : U32)
  /-- RING_PULSE_FRAME (R363) -/
  | ringPulseFrame (src hops : RingId) (second rt : U32)
  /-- RING_STATUS_FRAME (R360) -/
  | ringStatusFrame (src hops : RingId) (foreign : Bool) (state holdc flags present requests : Byte) (sec : U32)
  /-- RING_STATUS_SEND (R360) -/
  | ringStatusSend
  /-- RING_HOLD_SEND (R361) -/
  | ringHoldSend
  /-- RING_MEMBER_LOST (R362) -/
  | ringMemberLost (id : RingId)
  /-- RING_DOWN (R362) -/
  | ringDown
  /-- PULSE_SEND (R363) -/
  | pulseSend
  /-- COUNT_LATCH (R364) -/
  | countLatch
  /-- GROUP_START_TIMEOUT (R366) -/
  | groupStartTimeout (g : RingId)
  /-- EVR_BUFFER_CLOSE (R404) -/
  | evrBufferClose
  /-- REGISTER_WRITE (R398) -/
  | registerWrite (lvl : Lvl) (addr val : U32)
  /-- INVALID_REGISTER_ACCESS (R397) -/
  | invalidRegisterAccess (lvl : Lvl) (addr : U32) (width : Byte) (write : Bool)
  /-- FIRE_CNT_LO_READ (R400) -/
  | fireCntLoRead (lvl : Lvl)
  /-- FIRE_POS_LO_READ (R400) -/
  | firePosLoRead (lvl : Lvl)
  /-- TB_NOW_S_READ (R400) -/
  | tbNowSRead (lvl : Lvl)
  /-- RING_CL_S_READ (R400) -/
  | ringClSRead (lvl : Lvl)
  /-- RING_HOLD_ORIGINATOR_TIMEOUT (R361) -/
  | ringHoldOriginatorTimeout (id : RingId)
  /-- AXIS_FEEDBACK_CHANGE (R264) -/
  | axisFeedbackChange (a : AxisNo) (f : Feedback)
  /-- PTP_ANNOUNCE (R356) -/
  | ptpAnnounce (port : Fin 3) (best : BestMaster)
  /-- PTP_SYNC_INTERVAL (R354) -/
  | ptpSyncInterval
  /-- XPP_MESSAGE_DISCARD (R329) -/
  | xppMessageDiscard (port : Fin 3) (cause : BadCause)
  /-- RING_FRAME_CRC_FAIL (R359) -/
  | ringFrameCrcFail
  deriving DecidableEq, Repr

end Sys2Proof
end

