-- ==== Sys2Proof/Machine/Events.lean ====
section
/-! DEFINITION. The event codes of the XS262 (17, R403): one constant per row of the event tables of the home chapters. -/
namespace Sys2Proof.Machine

/-- Event classes; the class nibble is 1, 2, 4 or 8 (17, R403). -/
inductive EvClass where
  | info | warning | fault | fatal
  deriving DecidableEq, Repr

/-- Index c of a class in `AON_EVPEND[c]`. -/
def EvClass.idx : EvClass → Nat
  | .info => 0 | .warning => 1 | .fault => 2 | .fatal => 3

/-- Class nibble k of R403. -/
def EvClass.nibble : EvClass → Nat
  | .info => 1 | .warning => 2 | .fault => 4 | .fatal => 8

/-- An event's class, sub-range index (Table 17-1) and low byte. -/
structure EvCode where
  cls : EvClass
  sub : Nat
  low : Nat
  deriving DecidableEq, Repr

/-- The 16-bit code of R403: high byte 16·k + i, low byte as given. -/
def EvCode.code (e : EvCode) : Nat := (16 * e.cls.nibble + e.sub) * 256 + e.low


namespace Ev

/-- 03: data Reckoner -/
def RK_RELEASED : EvCode := ⟨.info, 2, 0x1⟩
/-- 03: data JN, band, column, renderer, witness -/
def RENDER_MISMATCH : EvCode := ⟨.warning, 2, 0x10⟩
/-- 03: data Reckoner, cause: 1 witness loss, 2 trap, 3 watchdog -/
def RK_STRIKE : EvCode := ⟨.warning, 2, 0x11⟩
/-- 03: data Reckoner; trap cause: 1 instruction fetch, 2 illegal or privileged instruction, 3 bus error on a data access, 4 data memory address out of range; poisoned: 1 only when cause 1 fetched a poisoned instruction (R57), else 0 -/
def RK_TRAP : EvCode := ⟨.warning, 2, 0x12⟩
/-- 03: data active count, when it falls below 3 -/
def RENDER_FEW : EvCode := ⟨.warning, 2, 0x13⟩
/-- 03: data Reckoner, times of both strikes -/
def RK_MITTEN : EvCode := ⟨.fault, 2, 0x20⟩
/-- 03: data JN, band, column, the three Reckoners -/
def RENDER_NOMAJ : EvCode := ⟨.fault, 2, 0x21⟩
/-- 03: data active count -/
def RENDER_STOPPED : EvCode := ⟨.fault, 2, 0x22⟩
/-- 04: data channel, source: 0 master, 1 retained -/
def ROD_REFETCH : EvCode := ⟨.info, 3, 0x1⟩
/-- 04: data bar, version, entries, JN, PN -/
def ROD_APPLIED : EvCode := ⟨.info, 3, 0x2⟩
/-- 04: data bar, JN, PN, `DP_SHORT` value -/
def GLOVE_SHORT : EvCode := ⟨.info, 3, 0x3⟩
/-- 04: data pipeline, JN, line, check: 1 address, 2 residue, 3 duplicate -/
def DP_REDOSE : EvCode := ⟨.warning, 3, 0x10⟩
/-- 04: data pipeline -/
def RODQ_OVF : EvCode := ⟨.warning, 3, 0x11⟩
/-- 04: data channel -/
def ROD_WINDOW_IGNORED : EvCode := ⟨.warning, 3, 0x12⟩
/-- 04: data pipeline, entries queued -/
def RODQ_COMMIT_REFUSED : EvCode := ⟨.warning, 3, 0x13⟩
/-- 04: data pipeline, JN, line, check -/
def DP_CHECK_FAIL : EvCode := ⟨.fault, 3, 0x20⟩
/-- 04: data pipeline, JN, line, source: 1 tile, 2 TRC, 3 threshold -/
def DP_POISON : EvCode := ⟨.fault, 3, 0x21⟩
/-- 04: data channel -/
def ROD_LOST : EvCode := ⟨.fault, 3, 0x22⟩
/-- 05: data new effective level, `RW_LEAD` -/
def XDC_LEVEL : EvCode := ⟨.info, 5, 0x1⟩
/-- 05: data pipeline, `RW_XIN`, `RW_XOUT` -/
def RW_PAGE_WAIT : EvCode := ⟨.warning, 5, 0x10⟩
/-- 05: data pipeline -/
def RW_NO_SLOT : EvCode := ⟨.warning, 5, 0x11⟩
/-- 05: data held pages -/
def RW_POOL_EMPTY : EvCode := ⟨.warning, 5, 0x12⟩
/-- 05: data pipeline, JN, line -/
def XDC_REVERIFY : EvCode := ⟨.warning, 5, 0x13⟩
/-- 05: data pipeline, JN, line -/
def XDC_FAIL : EvCode := ⟨.fault, 5, 0x20⟩
/-- 05: data bar, JN, line, check: 1 header, 2 `SSEQ`, 3 `CRCV`, 4 header disagrees with descriptor, 5 `BAD` -/
def RW_SLOT_BAD : EvCode := ⟨.fault, 5, 0x21⟩
/-- 05: data pipeline, page number -/
def RW_PAGE_BAD : EvCode := ⟨.fault, 5, 0x22⟩
/-- 06: data C, F -/
def ENC_STANDSTILL : EvCode := ⟨.info, 6, 0x1⟩
/-- 06: data bar, JN, line, change in ns -/
def FIRE_AMEND : EvCode := ⟨.info, 6, 0x2⟩
/-- 06: data C -/
def ENC_ILLEGAL : EvCode := ⟨.warning, 6, 0x10⟩
/-- 06: data d, X, products spoiled -/
def ENC_SLIP : EvCode := ⟨.warning, 6, 0x11⟩
/-- 06: data C, X_ref -/
def ENC_NOINDEX : EvCode := ⟨.warning, 6, 0x12⟩
/-- 06: data bar, JN, line -/
def FIRE_AMEND_LATE : EvCode := ⟨.warning, 6, 0x13⟩
/-- 06: data C, F -/
def WEB_REVERSAL : EvCode := ⟨.fault, 6, 0x20⟩
/-- 06: data events in window -/
def ENC_SLIP_STOP : EvCode := ⟨.fault, 6, 0x21⟩
/-- 06: data input: 0 A, 1 B, 2 Z -/
def ENC_LINE : EvCode := ⟨.fault, 6, 0x22⟩
/-- 07: data lane -/
def ZL_UP : EvCode := ⟨.info, 7, 0x1⟩
/-- 07: data lane, δ, θ -/
def ZL_TIMED : EvCode := ⟨.info, 7, 0x2⟩
/-- 07: data lane, new serial -/
def ZL_HEAD_CHANGED : EvCode := ⟨.info, 7, 0x3⟩
/-- 07: data lane, direction, `FSEQ` -/
def ZL_FRAME_ERR : EvCode := ⟨.warning, 7, 0x10⟩
/-- 07: data lane, frames resent -/
def ZL_RESEND : EvCode := ⟨.warning, 7, 0x11⟩
/-- 07: data lane -/
def ZL_HEAT_TIMEOUT : EvCode := ⟨.warning, 7, 0x12⟩
/-- 07: data lane, JN, line, `RESULT` or 0xFF for timeout -/
def ZL_ECHO_FAIL : EvCode := ⟨.warning, 7, 0x13⟩
/-- 07: data lane, cause: 1 lock, 2 STATUS timeout, 3 offset, 4 HREF -/
def ZL_LANE_DOWN : EvCode := ⟨.fault, 7, 0x20⟩
/-- 07: data lane, far generation -/
def ZL_GEN_MISMATCH : EvCode := ⟨.fault, 7, 0x21⟩
/-- 07: data lane; check failed, the first of R192 in this order: 1 `EE_CRC`, 2 `FMT`, 3 `NOZ`, 4 `RANK` or `LEVELS` disagrees with `press.heads`, 5 `LEVELS` does not match the lane's generation -/
def ZL_HEAD_BAD : EvCode := ⟨.fault, 7, 0x22⟩
/-- 07: data lane -/
def ZL_RECOV_STOP : EvCode := ⟨.fault, 7, 0x23⟩
/-- 08: data JN, PN, reason -/
def PRODUCT_SPOILED : EvCode := ⟨.info, 8, 0x1⟩
/-- 08: data records lost -/
def SPR_OVF : EvCode := ⟨.warning, 8, 0x10⟩
/-- 08: data JN, W, least W under R217 -/
def WASTE_EARLY : EvCode := ⟨.warning, 8, 0x11⟩
/-- 08: data JN, PN, reason -/
def WASTE_LATE : EvCode := ⟨.warning, 8, 0x12⟩
/-- 08: data context -/
def TALLY_OWNED : EvCode := ⟨.warning, 8, 0x13⟩
/-- 08: data bar, JN, line, head slot -/
def OUT_DECODE_MISMATCH : EvCode := ⟨.fault, 8, 0x20⟩
/-- 08: data entry, JN, PN when readable -/
def PTAB_POISON : EvCode := ⟨.fault, 8, 0x21⟩
/-- 09: data port, `VER` -/
def CAM_CAL_DONE : EvCode := ⟨.info, 9, 0x1⟩
/-- 09: data port, frame ID, line -/
def CAM_FRAME_DROP : EvCode := ⟨.warning, 9, 0x10⟩
/-- 09: data port, frame ID, cause: 1 frame start, 2 line gap, 3 frame end -/
def CAM_TIMEOUT : EvCode := ⟨.warning, 9, 0x11⟩
/-- 09: data port, position -/
def CAM_TRIG_SKIP : EvCode := ⟨.warning, 9, 0x12⟩
/-- 09: data port, frame ID -/
def CAM_CRC : EvCode := ⟨.warning, 9, 0x13⟩
/-- 09: data port, stream, frame ID -/
def CAM_NOBUF : EvCode := ⟨.warning, 9, 0x14⟩
/-- 09: data port, frame ID, lines received -/
def CAM_GEOM : EvCode := ⟨.warning, 9, 0x15⟩
/-- 09: data port, slot, list entry -/
def CAM_I2C_FAIL : EvCode := ⟨.fault, 9, 0x20⟩
/-- 09: data port -/
def CAM_LINK : EvCode := ⟨.fault, 9, 0x21⟩
/-- 10: data channel, cause: 1 ABSENT, 2 LATERAL, 3 WEAK_LIMIT -/
def NZ_DEAD : EvCode := ⟨.info, 9, 0x2⟩
/-- 10: data channel, new state -/
def NZ_RECOVERED : EvCode := ⟨.info, 9, 0x3⟩
/-- 10: data bar, s, PN -/
def REG_STEP : EvCode := ⟨.info, 9, 0x4⟩
/-- 10: data head slot, absent share -/
def NZ_HEAD_SUSPECT : EvCode := ⟨.warning, 9, 0x16⟩
/-- 10: data bar, T_k -/
def REG_LAT_RANGE : EvCode := ⟨.warning, 9, 0x17⟩
/-- 10: data bar, D_k -/
def REG_DW_RANGE : EvCode := ⟨.warning, 9, 0x18⟩
/-- 10: data bar, PN, lateness in µs -/
def REG_MOVE_LATE : EvCode := ⟨.warning, 9, 0x19⟩
/-- 11: data axis, position of the edge -/
def AX_HOMED : EvCode := ⟨.info, 10, 0x1⟩
/-- 11: data head slot, cause cleared: 1 hard, 2 plausibility -/
def HEAD_CLEAR : EvCode := ⟨.info, 10, 0x2⟩
/-- 11: data channel -/
def TR_TRIGGERED : EvCode := ⟨.info, 10, 0x3⟩
/-- 11: data axis, side: 0 LIM−, 1 LIM+ -/
def AX_LIMIT : EvCode := ⟨.warning, 10, 0x10⟩
/-- 11: data axis, cause: 1 limit, 2 timeout, 3 stop, 4 fault -/
def AX_HOME_ABORT : EvCode := ⟨.warning, 10, 0x11⟩
/-- 11: data head slot, temperature -/
def HEAD_SOFT : EvCode := ⟨.warning, 10, 0x12⟩
/-- 11: data port, frames failed -/
def AXP_CRC : EvCode := ⟨.warning, 10, 0x13⟩
/-- 11: data axis, cause: 1 following error, 2 drive, 3 frames -/
def AX_FAULT : EvCode := ⟨.fault, 10, 0x20⟩
/-- 11: data head slot, temperature -/
def HEAD_HOT : EvCode := ⟨.fault, 10, 0x21⟩
/-- 11: data head slot, T, tm -/
def HEAD_PLAUS : EvCode := ⟨.fault, 10, 0x22⟩
/-- 12: data ladder step, P_meas, P_lim -/
def AB_STEP : EvCode := ⟨.info, 11, 0x1⟩
/-- 12: data bar, `CUR` -/
def HEAD_PWR_STEP : EvCode := ⟨.info, 11, 0x2⟩
/-- 12: data speed, c[0] -/
def AB_CEIL_IGNORED : EvCode := ⟨.warning, 11, 0x10⟩
/-- 12: data limit, bar, epoch window -/
def AB_SHORT : EvCode := ⟨.warning, 11, 0x11⟩
/-- 12: data bar, JN, line -/
def AB_UNDERRUN : EvCode := ⟨.fault, 11, 0x20⟩
/-- 12: data lowest mV, duration in µs -/
def PWR_CLEAR : EvCode := ⟨.info, 0, 0x1⟩
/-- 12: data sensor, T_J -/
def TJ_WARN : EvCode := ⟨.warning, 0, 0x10⟩
/-- 12: data T_J, P_lim -/
def TJ_THROTTLE : EvCode := ⟨.warning, 0, 0x11⟩
/-- 12: data input in mV -/
def PWR_WARN : EvCode := ⟨.warning, 0, 0x12⟩
/-- 12: data cause, T_J, T_D -/
def SHUTDOWN_TEMP : EvCode := ⟨.fatal, 0, 0x1⟩
/-- 13: data channel, smallest eye in taps, `TCAL` -/
def MEM_CAL_DONE : EvCode := ⟨.info, 12, 0x1⟩
/-- 13: data channel, 1 entered or 0 left, owed count after doubling -/
def MEM_REF2X : EvCode := ⟨.info, 12, 0x2⟩
/-- 13: data new point: 0 DDR5-6400, 1 DDR5-3200; duration in µs -/
def MEM_FREQ : EvCode := ⟨.info, 12, 0x3⟩
/-- 13: data channel, address, die, `MEM_CE` count -/
def MEM_CE : EvCode := ⟨.info, 12, 0x4⟩
/-- 13: data channel, address, die or 15 when unknown -/
def MEM_UE : EvCode := ⟨.warning, 12, 0x10⟩
/-- 13: data channel, lane, read eye, write eye -/
def MEM_EYE_LOW : EvCode := ⟨.warning, 12, 0x11⟩
/-- 13: data lane, time pending in ms -/
def MEM_CAL_LATE : EvCode := ⟨.warning, 12, 0x12⟩
/-- 13: data lane -/
def MEM_CAL_ABANDON : EvCode := ⟨.warning, 12, 0x13⟩
/-- 13: data channel, lane, point -/
def MEM_TRAIN_FAIL : EvCode := ⟨.fatal, 12, 0x1⟩
/-- 14: data role, IPv4 address, port -/
def XPP_PEER_UP : EvCode := ⟨.info, 13, 0x1⟩
/-- 14: data `STOPREQ` bits -/
def XPP_STOPREQ : EvCode := ⟨.info, 13, 0x2⟩
/-- 14: data winner `SOURCE`, `SEQ`, `TYPE`; loser `SOURCE`, `SEQ`, `TYPE` -/
def XPP_CONFLICT : EvCode := ⟨.warning, 13, 0x10⟩
/-- 14: data role -/
def XPP_PEER_LOST : EvCode := ⟨.warning, 13, 0x11⟩
/-- 14: data port, cause: 1 CRC, 2 identity, 3 sequence, 4 header -/
def XPP_BAD : EvCode := ⟨.warning, 13, 0x12⟩
/-- 14: data 1 asserted, 0 released -/
def DIN_HOLD : EvCode := ⟨.warning, 13, 0x13⟩
/-- 14: data 1 asserted, 0 released -/
def DIN_INHIBIT : EvCode := ⟨.warning, 13, 0x14⟩
/-- 15: data port, offset in ns -/
def PTP_LOCK : EvCode := ⟨.info, 13, 0x3⟩
/-- 15: data Δ in ns -/
def TB_MAIN : EvCode := ⟨.info, 13, 0x4⟩
/-- 15: data step in ns, s64 -/
def TB_STEP : EvCode := ⟨.info, 13, 0x5⟩
/-- 15: data cause: 1 offset, 2 master change, 3 timeout -/
def PTP_UNLOCK : EvCode := ⟨.warning, 13, 0x15⟩
/-- 15: data last r in ppb -/
def TB_FALLBACK : EvCode := ⟨.warning, 13, 0x16⟩
/-- 15: data members -/
def RING_UP : EvCode := ⟨.info, 14, 0x1⟩
/-- 15: data new master ID -/
def RING_MASTER : EvCode := ⟨.info, 14, 0x2⟩
/-- 15: data none -/
def RING_DOWN : EvCode := ⟨.warning, 14, 0x10⟩
/-- 15: data member ID -/
def RING_MEMBER_LOST : EvCode := ⟨.warning, 14, 0x11⟩
/-- 15: data o in ns -/
def RING_TIME : EvCode := ⟨.warning, 14, 0x12⟩
/-- 15: data group, cause: 1 late, 2 INHIBIT#, 3 timeout -/
def RING_START_REFUSED : EvCode := ⟨.warning, 14, 0x13⟩
/-- 15: data ring ID -/
def RING_DUP : EvCode := ⟨.fault, 14, 0x20⟩
/-- 16: data image, `IMGVER`, boot count -/
def CROWN_BOOT : EvCode := ⟨.info, 4, 0x1⟩
/-- 16: data span, 1 opened or 0 closed -/
def NVM_SESSION : EvCode := ⟨.info, 4, 0x2⟩
/-- 16: data new `LOCK` -/
def LOCK_CHANGED : EvCode := ⟨.info, 4, 0x3⟩
/-- 16: data record `TYPE`, check as `FAILCHK` -/
def CROWN_FALLBACK : EvCode := ⟨.warning, 4, 0x10⟩
/-- 16: data operation `TYPE` -/
def PRESENCE_LOST : EvCode := ⟨.warning, 4, 0x11⟩
/-- 16: data none -/
def DEBUG_ENABLED : EvCode := ⟨.warning, 4, 0x12⟩
/-- 16: data record `TYPE`, check -/
def CROWN_INVALID : EvCode := ⟨.fault, 4, 0x20⟩
/-- 16: data address, level, write -/
def NOC_PROT : EvCode := ⟨.warning, 1, 0x10⟩
/-- 17: data ring, descriptor index -/
def DMA_HALT : EvCode := ⟨.fault, 15, 0x20⟩
/-- 17: data JN, PN awaited -/
def JOB_STARVED : EvCode := ⟨.warning, 13, 0x17⟩
/-- 17: data JN, PN, `SLOT_ID` -/
def VDATA_BAD : EvCode := ⟨.warning, 13, 0x18⟩
/-- 17: data JN, `SEQ` of `END` -/
def JOB_INCONSISTENT : EvCode := ⟨.fault, 13, 0x20⟩
/-- 17: data connection, JN, cause: 1 `HCRC`, 2 `SOURCE`, 3 `JN` differs, 4 `CONT` 0 with `JN` held, 5 `CONT` 1 with `JN` not held (R41) -/
def BULK_CLOSED : EvCode := ⟨.warning, 13, 0x19⟩
/-- 17: data JN, `SEQ`, reason of Table 2-13 (R425) -/
def JOB_RECORD_BAD : EvCode := ⟨.warning, 13, 0x1a⟩

end Ev

end Sys2Proof.Machine
end

