-- ==== Sys2Proof/Machine/Fields.lean ====
section
/-! DEFINITION. The register fields of the XS262 by name (one constructor per non-reserved field of the register tables
of spec/01 to 17; an array is one constructor, its indices are given beside it) and, for every register, its address,
strides, domain and fields. Written out from the field tables of the home chapters and Table 17-7. -/
namespace Sys2Proof.Machine

/-- One constructor per register field: BLOCK_REGISTER_FIELD, as the spec names it. -/
inductive Fld where
  | AON_ID_VARIANT | AON_ID_STEP | AON_ID_DEVID   -- 17: identification
  | AON_STATE_STATE | AON_STATE_HOLDC | AON_STATE_STOPREQ   -- 17: device state
  | AON_EVPEND_PEND   -- 17: events pending
  | AON_RIRQ_LO_RING   -- 17: ring interrupts 0–31
  | AON_RIRQ_HI_RING   -- 17: ring interrupts 32–47
  | AON_IRQ_EV | AON_IRQ_RING | AON_IRQ_HALT | AON_IRQ_PV | AON_IRQ_BUS   -- 17: interrupt summary
  | AON_IMASK_EN   -- 17: interrupt enables
  | AON_EVLOST_N   -- 17: lost event entries
  | AON_BUSERR_LVL | AON_BUSERR_WR | AON_BUSERR_CAUSE | AON_BUSERR_VALID   -- 17: bus error latch
  | AON_BUSERR_ADDR_ADDR   -- 17: bus error address
  | AON_PDSTAT_ON   -- 17: power domains
  | AON_TDEM_DEM | AON_TDEM_BUSY   -- 12: conversion demand
  | AON_TEMP_T | AON_TEMP_VALID   -- 12: sensor reading
  | AON_PWR_WARN | AON_PWR_SEEN | AON_PWR_VMIN   -- 12: supply status
  | CR_STAT_IMG | CR_STAT_FAILREC | CR_STAT_FAILCHK | CR_STAT_RSTCAUSE   -- 16: boot status
  | CR_IMGVER_VER   -- 16: image version
  | CR_BOOTCNT_N   -- 16: boot count
  | CR_XSPI_MODE | CR_XSPI_SCK   -- 16: read mode
  | CR_BOOTSEL_BACKUP | CR_BOOTSEL_RESTART   -- 16: boot selection
  | CR_PRES_PRES | CR_PRES_SESSION | CR_PRES_SPAN | CR_PRES_LOCK | CR_PRES_DBG   -- 16: presence and session
  | CR_LOG_BASE_SECT | CR_LOG_BASE_COUNT   -- 16: event log area
  | CR_LOG_WP_OFS   -- 16: log write point
  | CR_FWBASE_ADDR   -- 16: firmware copies
  | NOC_PR_BASE_BASE   -- 16: region base
  | NOC_PR_LIM_LIM   -- 16: region limit
  | NOC_PR_ATTR_EN | NOC_PR_ATTR_SPACE | NOC_PR_ATTR_RLVL | NOC_PR_ATTR_WLVL   -- 16: region attributes
  | NOC_PV_LVL | NOC_PV_WR | NOC_PV_SPACE | NOC_PV_REGION | NOC_PV_VALID   -- 16: protection violation
  | NOC_PV_ADDR_ADDR   -- 16: violation address
  | RKC_CTL_STEAL_EN | RKC_CTL_WDOG   -- 03: Reckoner control
  | RKC_ACTIVE_ACT | RKC_ACTIVE_COUNT   -- 03: active Reckoners
  | RKC_MITTEN_MIT   -- 03: mittened Reckoners
  | RKC_SHED_QUAD   -- 03: shed quads
  | RKC_COSTCFG_BASE | RKC_COSTCFG_CACHE   -- 03: cost estimate constants
  | RKC_DEFCOST_COST   -- 03: default layer cost
  | RKC_CMP_MISMATCH | RKC_CMP_NOMAJ   -- 03: comparison counters
  | RKC_STRIKE_TOTAL | RKC_STRIKE_LAST | RKC_STRIKE_PENDING   -- 03: strike status of RKi
  | RKC_BUSY_CYC   -- 03: busy cycles of RKi
  | DP_CFG_EN | DP_CFG_GANG | DP_CFG_LEVELS | DP_CFG_LATCOMP   -- 04: pipeline configuration
  | DP_GEOM_HEADS | DP_GEOM_SLOT0 | DP_GEOM_CUFF   -- 04: bar geometry
  | DP_SHIFT_NEXT | DP_SHIFT_CUR   -- 04: lateral shift
  | DP_SCREEN_XOFS | DP_SCREEN_YOFS | DP_SCREEN_TW | DP_SCREEN_TH   -- 04: screen placement
  | DP_SPIT_CODE | DP_SPIT_DIV | DP_SPIT_LINES | DP_SPIT_OFS   -- 04: Brim spit lines
  | DP_SPIT_IMG_EN | DP_SPIT_IMG_PERIOD | DP_SPIT_IMG_STEP   -- 04: in-image spits
  | DP_RODQ_COUNT | DP_RODQ_COMMIT | DP_RODQ_RELEASE | DP_RODQ_RETAINED   -- 04: Rod update queue control
  | DP_RODQ_IDX_CH   -- 04: update channel
  | DP_RODQ_DATA_ROD   -- 04: update rod
  | DP_RODV_VER   -- 04: Rod version
  | DP_RODM_ADDR   -- 04: master copy base
  | DP_CHECK_REDOSE | DP_CHECK_FAIL | DP_CHECK_POISON   -- 04: check counters
  | DP_SHORT_SUM   -- 04: glove shortfall
  | DP_ERR_WWRITE | DP_ERR_QOVF | DP_ERR_CREF   -- 04: pipeline errors
  | DP_BRIM_PHASE_NEXT | DP_BRIM_PHASE_CUR   -- 04: ladder phase
  | DP_GLOVE_W1 | DP_GLOVE_W2   -- 04: glove class weights
  | DP_BRIM_A_KIND | DP_BRIM_A_CODE | DP_BRIM_A_HEADS | DP_BRIM_A_OFS   -- 04: Brim row r, 0–7
  | DP_BRIM_B_X0 | DP_BRIM_B_LINES | DP_BRIM_B_X1D   -- 04: Brim row extent
  | ROD_ROD   -- 04: rod of channel ch
  | RW_POOL_COUNT   -- 05: page pool
  | RW_LEAD_COUNTS   -- 05: runway lead
  | RW_LEADBAR_BAR   -- 05: pipeline of smallest lead
  | RW_LEADREQ_COUNTS   -- 05: lead requirement
  | RW_LEADTGT_COUNTS   -- 05: lead target
  | RW_XCFG_LEVEL | RW_XCFG_AUTO | RW_XCFG_EFF | RW_XCFG_DMARGIN   -- 05: codec configuration
  | RW_RATIO_RATIO   -- 05: compression ratio
  | RW_XCNT_REVERIFY | RW_XCNT_FAIL   -- 05: codec counters
  | RW_PL_BASE_ADDR   -- 05: page list base
  | RW_PL_TAIL_IDX   -- 05: page list tail
  | RW_PL_WR_IDX   -- 05: page being written
  | RW_PL_RD_IDX   -- 05: oldest page in use
  | RW_XSTAT_STOPPED | RW_XSTAT_WAITSLOT | RW_XSTAT_WAITTGT | RW_XSTAT_STOPS   -- 05: compressor status
  | RW_XIN_BYTES   -- 05: input consumed
  | RW_XOUT_BYTES   -- 05: output produced
  | RW_BLEAD_COUNTS   -- 05: bar lead
  | RW_CFG_START_PAGES   -- 05: slot start
  | RW_SKIP_JN_JN   -- 05: skip job
  | RW_SKIP_LINE_LINE   -- 05: skip bound
  | RW_SKIP_CTL_ARM   -- 05: skip control
  | FIRE_CTL_EN | FIRE_CTL_DIR | FIRE_CTL_BACKLASH   -- 06: fire control
  | FIRE_ENC_MODE | FIRE_ENC_IDXEN | FIRE_ENC_LINECHK | FIRE_ENC_FILT | FIRE_ENC_IFILT   -- 06: encoder inputs
  | FIRE_CPR_CPR   -- 06: counts per revolution
  | FIRE_IDXCFG_TOL | FIRE_IDXCFG_SLIPN | FIRE_IDXCFG_SLIPREV   -- 06: index checking
  | FIRE_SPDCFG_WIN | FIRE_SPDCFG_STILL   -- 06: speed measurement
  | FIRE_VMIN_COUNTS   -- 06: predictive threshold
  | FIRE_LEAD_NS   -- 06: FIRE lead
  | FIRE_GAP_COUNTS   -- 06: placement gap
  | FIRE_CPM_CPM   -- 06: counts per metre
  | FIRE_CNT_LO_C   -- 06: web count, low
  | FIRE_CNT_HI_C   -- 06: web count, high
  | FIRE_POS_LO_F   -- 06: fire position, low
  | FIRE_POS_HI_F   -- 06: fire position, high
  | FIRE_SPEED_V   -- 06: web speed
  | FIRE_SPDSTAT_STATUS | FIRE_SPDSTAT_DIR | FIRE_SPDSTAT_DECAY | FIRE_SPDSTAT_MODE   -- 06: speed status
  | FIRE_ACCEL_A   -- 06: acceleration
  | FIRE_IDXREF_LO_X   -- 06: index reference, low
  | FIRE_IDXREF_HI_X | FIRE_IDXREF_HI_SET   -- 06: index reference, high
  | FIRE_IDXDEV_DEV | FIRE_IDXDEV_WINEV   -- 06: last deviation
  | FIRE_SLIPSUM_SUM   -- 06: slip statistic
  | FIRE_SLIPCNT_SLIPS | FIRE_SLIPCNT_ILLEGAL   -- 06: slip counters
  | FIRE_STAT_REV | FIRE_STAT_SLIP | FIRE_STAT_NOIDX | FIRE_STAT_ILLEGAL | FIRE_STAT_LINE | FIRE_STAT_LATE | FIRE_STAT_SLIPSTOP   -- 06: firing status
  | FIRE_AMCNT_AMEND | FIRE_AMCNT_LATE   -- 06: amendment counters
  | FIRE_BAROFS_OFS   -- 06: bar offset
  | FIRE_TRIM_NEXT | FIRE_TRIM_CUR   -- 06: down-web trim
  | FIRE_HOFS_OFS   -- 06: head offset
  | FIRE_PL_JN_JN   -- 06: placed job
  | FIRE_PL_ORGF_FRAC   -- 06: origin fraction
  | FIRE_PL_ORGL_INT   -- 06: origin, low
  | FIRE_PL_ORGH_INT | FIRE_PL_ORGH_VALID   -- 06: origin, high
  | FIRE_PL_PITF_FRAC   -- 06: pitch fraction
  | FIRE_PL_PITI_INT   -- 06: pitch integer
  | FIRE_PL_LINES_L   -- 06: job lines
  | FIRE_DUE_JN_JN   -- 06: due job
  | FIRE_DUE_LINE_LINE   -- 06: due line
  | ZL_CFG_EN | ZL_CFG_GEN | ZL_CFG_AHEAD | ZL_CFG_ECHOTO | ZL_CFG_STTO   -- 07: lane configuration
  | ZL_STAT_STATE | ZL_STAT_LOCK | ZL_STAT_FARLOCK | ZL_STAT_FARGEN | ZL_STAT_LOOP | ZL_STAT_HDPRES | ZL_STAT_EEOK | ZL_STAT_LOSSES   -- 07: lane status
  | ZL_LAT_DELAY | ZL_LAT_LAT   -- 07: lane delay
  | ZL_OFS_THETA | ZL_OFS_BEACON   -- 07: time offset
  | ZL_LPCTL_TXS | ZL_LPCTL_RXS | ZL_LPCTL_PARK | ZL_LPCTL_CUR   -- 07: low-power control
  | ZL_LOOP_MODE | ZL_LOOP_TEST   -- 07: loop control
  | ZL_LOOPERR_BITS   -- 07: loop errors
  | ZL_FERR_RXBAD | ZL_FERR_RESENT   -- 07: frame counters
  | ZL_ECHO_MISMATCH | ZL_ECHO_TIMEOUT | ZL_ECHO_NODATA | ZL_ECHO_LATE   -- 07: echo counters
  | ZL_HEAD_THERM | ZL_HEAD_FLAGS   -- 07: head status
  | ZL_EE_DONE | ZL_EE_CRCOK | ZL_EE_MATCH | ZL_EE_RANK | ZL_EE_NDEAD   -- 07: head memory status
  | ZL_CTL_HREF_EN | ZL_CTL_SPREAD | ZL_CTL_RECOV   -- 07: Zanlink control
  | ZL_TIMED_LO_TIMED   -- 07: TIMED lanes 0–31
  | ZL_TIMED_HI_TIMED   -- 07: TIMED lanes 32–63
  | ZL_INC_LO_FRAC   -- 07: link increment, fraction
  | ZL_INC_HI_INT   -- 07: link increment, integer
  | SP_WASTE_OFS_COUNTS   -- 08: waste station offset
  | SP_WASTE_CTL_MODE | SP_WASTE_CTL_POL | SP_WASTE_CTL_WIDTH | SP_WASTE_CTL_ADV   -- 08: waste mark control
  | SP_SPRCFG_FLUSH   -- 08: spoil ring flush
  | SP_STAT_OVF | SP_STAT_EARLY | SP_STAT_LATE | SP_STAT_TOWN | SP_STAT_DEC | SP_STAT_PTPOI   -- 08: integrity status
  | SP_PTAB_USED | SP_PTAB_HIGH   -- 08: product table use
  | SP_GOOD_N   -- 08: good products
  | SP_SPOILED_N   -- 08: spoiled products
  | SP_RECLOST_N   -- 08: lost records
  | TALLY_CTX_CTX | TALLY_CTX_BUSY | TALLY_CTX_OWNED   -- 08: context select
  | TALLY_FOLD_V   -- 08: fold values
  | TALLY_IN_B_D   -- 08: byte feed
  | TALLY_IN_H_D   -- 08: half-word feed
  | TALLY_IN_W_D   -- 08: word feed
  | TALLY_RES_CRC   -- 08: result
  | SP_RCNT_N   -- 08: products per reason
  | TALLY_VAL_STATE   -- 08: context state
  | VIS_CFG_EN | VIS_CFG_LANES | VIS_CFG_FMT | VIS_CFG_MERGE | VIS_CFG_LAT | VIS_CFG_OVERLAP | VIS_CFG_VC0 | VIS_CFG_VC1 | VIS_CFG_SEN | VIS_CFG_S0SRC | VIS_CFG_I2CSPD   -- 09: port configuration
  | VIS_GEOM_WIDTH | VIS_GEOM_HEIGHT   -- 09: frame geometry
  | VIS_TRIG_LO_POS   -- 09: trigger position, low
  | VIS_TRIG_HI_POS | VIS_TRIG_HI_DEPTH   -- 09: trigger position, high
  | VIS_STROBE_DLY | VIS_STROBE_TRIGW | VIS_STROBE_TPOL | VIS_STROBE_SPOL   -- 09: trigger and strobe
  | VIS_ESCTL_SLOT | VIS_ESCTL_COMMIT | VIS_ESCTL_CURSTR | VIS_ESCTL_CURSEN   -- 09: exposure commit
  | VIS_ESA_ESID | VIS_ESA_WIDTH   -- 09: exposure set, strobe
  | VIS_ESB_RATIO | VIS_ESB_I2C0 | VIS_ESB_I2CN   -- 09: exposure set, merge and list
  | VIS_I2CDEV_ADDR | VIS_I2CDEV_AW16 | VIS_I2CDEV_DW16 | VIS_I2CDEV_RETRY   -- 09: sensor I2C device
  | VIS_TO_FTO | VIS_TO_LGTO   -- 09: frame watchdog
  | VIS_WIN_Y0 | VIS_WIN_Y1 | VIS_WIN_EN   -- 09: S1 window
  | VIS_FFBASE_ADDR   -- 09: flat-field maps
  | VIS_CAL_START | VIS_CAL_ACTIVE | VIS_CAL_VER   -- 09: calibration
  | VIS_STAT_STATE | VIS_STAT_DROP | VIS_STAT_TIMEOUT | VIS_STAT_SKIP | VIS_STAT_CRC | VIS_STAT_I2C | VIS_STAT_NOBUF | VIS_STAT_GEOM   -- 09: port status
  | VIS_FRAME_FRAMEID   -- 09: last frame
  | VIS_CNT_DROPS | VIS_CNT_TIMEOUTS   -- 09: port counters
  | VIS_PARM_W   -- 09: parameter memory (Table 9-7)
  | VIS_ARB_W   -- 09: pipeline weights
  | VL_CTL_NZEN | VL_CTL_REGEN | VL_CTL_HANDEN | VL_CTL_FREEZE   -- 10: loop control
  | VL_DEAD_N   -- 10: DEAD nozzles
  | VL_WEAK_N   -- 10: WEAK nozzles
  | VL_CYCLE_PHASE | VL_CYCLE_CYCLES   -- 10: stripe cycle
  | VL_HAND_HSTEP | VL_HAND_HCUR | VL_HAND_HGUARD   -- 10: hand-over settings
  | VL_LAT_SH | VL_LAT_ACT   -- 10: lateral register of bar k
  | VL_DW_D   -- 10: down-web register of bar k
  | AX_CFG_EN | AX_CFG_FB | AX_CFG_DRV | AX_CFG_COMP | AX_CFG_HOMELIM | AX_CFG_HDIR | AX_CFG_INV | AX_CFG_CCOMMIT | AX_CFG_EOFS   -- 11: axis configuration
  | AX_SCALE_PM   -- 11: step length
  | AX_KIN_LIM   -- 11: kinematic limits
  | AX_SOFT_POS   -- 11: soft limits
  | AX_SW_POS   -- 11: nominal switch positions
  | AX_TGT_POS   -- 11: target
  | AX_CMDPOS_POS   -- 11: profile position
  | AX_EST_POS   -- 11: estimate
  | AX_PLAUS_FELIM | AX_PLAUS_FETIME | AX_PLAUS_SETTLE   -- 11: plausibility and settling
  | AX_DRIVE_IHOLD | AX_DRIVE_IRUN | AX_DRIVE_OLIM   -- 11: drive output
  | AX_HOMECFG_VHOME | AX_HOMECFG_VLATCH | AX_HOMECFG_HTO   -- 11: homing
  | AX_HOMEPOS_POS   -- 11: home position
  | AX_QSCALE_SPC   -- 11: quadrature scale
  | AX_CTL_HOME | AX_CTL_STOP | AX_CTL_FCLR   -- 11: axis commands
  | AX_STAT_STATE | AX_STAT_MOVING | AX_STAT_SETTLED | AX_STAT_LATLO | AX_STAT_LATHI | AX_STAT_HOMESW | AX_STAT_FE   -- 11: axis status
  | AX_COEF_C   -- 11: coefficient shadow
  | HT_CFG_EN | HT_CFG_PLEN | HT_CFG_CCOMMIT | HT_CFG_TREF   -- 11: heater configuration
  | HT_SP_SP   -- 11: set-point
  | HT_TEMP_T | HT_TEMP_TM   -- 11: temperatures
  | HT_STAT_SOFT | HT_STAT_HARD | HT_STAT_PLAUS | HT_STAT_DARK | HT_STAT_STALE | HT_STAT_DUTY   -- 11: heater status
  | HT_COEF_C   -- 11: coefficient shadow
  | TR_CFG_LOOP | TR_CFG_NODE | TR_CFG_DEC | TR_CFG_PRE   -- 11: trace source
  | TR_TRIG_MODE | TR_TRIG_EVT   -- 11: trace trigger
  | TR_THR_THR   -- 11: trace threshold
  | TR_STAT_ARM | TR_STAT_STATE | TR_STAT_TIDX   -- 11: trace status
  | AXP_ERR_RCRC | AXP_ERR_FAULT   -- 11: axis port errors
  | TR_DATA_S   -- 11: trace samples
  | AB_CTL_EN | AB_CTL_MARGIN | AB_CTL_TGT   -- 12: planner control
  | AB_HORIZON_EPOCHS   -- 12: planning horizon
  | AB_AMAX_A   -- 12: web acceleration
  | AB_JMAX_J   -- 12: web jerk
  | AB_VCFG_V   -- 12: configured speed
  | AB_MSLOPE_MSLOPE | AB_MSLOPE_PHYST   -- 12: module power slope
  | AB_PLIM_CFG | AB_PLIM_FLOOR | AB_PLIM_CUR   -- 12: module power limit
  | AB_PIN_PWR | AB_PIN_VIN   -- 12: input power
  | AB_CEIL_C   -- 12: ceiling in force
  | AB_BIND_SRC | AB_BIND_BAR | AB_BIND_WIN   -- 12: binding limit
  | AB_LADDER_STEP | AB_LADDER_RCK   -- 12: power ladder
  | AB_STAT_PWRWARN | AB_STAT_THROTTLE | AB_STAT_TWARN | AB_STAT_OVER | AB_STAT_SHORT | AB_STAT_UNDERRUN | AB_STAT_MODLIM   -- 12: planner status
  | AB_EPOCH_N   -- 12: epoch count
  | AB_EBASE_ADDR   -- 12: energy records
  | AB_HPLIM_MAX | AB_HPLIM_CUR | AB_HPLIM_STEP   -- 12: head-power limit of bar k
  | AB_DROP_E   -- 12: drop energy
  | MEM_CTL_REQ | MEM_CTL_CUR | MEM_CTL_BUSY   -- 13: memory control
  | MEM_SCRUB_EN | MEM_SCRUB_HOURS   -- 13: channel-B scrubber
  | MEM_EYEMIN_TAPS   -- 13: eye minimum
  | MEM_CALCFG_LATE   -- 13: calibration lateness
  | MEM_SRAM_CE | MEM_SRAM_UE   -- 13: SRAM error counters
  | MEM_CH_STAT_STATE | MEM_CH_STAT_BAND2X | MEM_CH_STAT_OWED | MEM_CH_STAT_CALPEND | MEM_CH_STAT_STEP   -- 13: channel status
  | MEM_TEMP_TD | MEM_TEMP_TCAL   -- 13: channel temperature
  | MEM_WQ_LEVEL | MEM_WQ_HIGH | MEM_WQ_DRAINS   -- 13: write queue
  | MEM_CE_N   -- 13: corrected errors
  | MEM_UE_N | MEM_UE_PPW   -- 13: uncorrectable errors
  | MEM_ELOG_LO_ADDR   -- 13: last error address, low
  | MEM_ELOG_HI_ADDR | MEM_ELOG_HI_DIE | MEM_ELOG_HI_UE | MEM_ELOG_HI_VALID   -- 13: last error address, high
  | MEM_RMW_N   -- 13: read-modify-writes
  | MEM_CALCNT_RUNS | MEM_CALCNT_ABANDON   -- 13: calibration counters
  | MEM_EYE_RD | MEM_EYE_WR | MEM_EYE_STALE   -- 13: eye width of byte lane l
  | NET_PCFG_EN | NET_PCFG_MODE | NET_PCFG_FEC | NET_PCFG_LINK   -- 17: Ethernet port
  | XPP_CTL_HBTO | XPP_CTL_HBTX | XPP_CTL_SCEN   -- 14: XPP control
  | XPP_ID_ID   -- 14: peer identity
  | XPP_IP_IP   -- 14: peer address
  | XPP_PEER_UP   -- 14: peer status
  | XPP_VLIM_V   -- 14: speed limit in force
  | XPP_EVMASK_MASK   -- 14: event forwarding
  | XPP_CNT_BAD | XPP_CNT_DUP   -- 14: message counters
  | XPP_NCNT_NACK | XPP_NCNT_CONFLICT   -- 14: refusal counters
  | XPP_DIN_FILT | XPP_DIN_HOLD | XPP_DIN_INH   -- 14: discrete inputs
  | XPP_SCEIL_PERIOD | XPP_SCEIL_POL   -- 14: SPEED_CEIL output
  | XPP_SCFS_FS   -- 14: SPEED_CEIL full scale
  | TB_CTL_SRC | TB_CTL_HOLDOVER | TB_CTL_RELOCK   -- 15: timebase control
  | TB_NOW_S_S   -- 15: timebase seconds
  | TB_NOW_NS_NS   -- 15: timebase nanoseconds
  | TB_NOW_SH_S   -- 15: timebase seconds, high
  | TB_RATE_PPB   -- 15: timebase rate
  | TB_FBINC_LO_FRAC   -- 15: fallback increment, fraction
  | TB_FBINC_HI_INT   -- 15: fallback increment, integer
  | TB_XTAL_PPB   -- 15: crystal table
  | PTP_CFG_EN | PTP_CFG_ROLE | PTP_CFG_PORT | PTP_CFG_MGFB | PTP_CFG_TRANS | PTP_CFG_DELAY | PTP_CFG_DOMAIN   -- 15: PTP configuration
  | PTP_PRIO_PRIO1 | PTP_PRIO_PRIO2 | PTP_PRIO_CLASS | PTP_PRIO_ACC   -- 15: clock attributes
  | PTP_INTV_SYNC | PTP_INTV_ANN | PTP_INTV_DREQ | PTP_INTV_ARTO   -- 15: message intervals
  | PTP_LAT_TX | PTP_LAT_RX   -- 15: external PHY latency
  | PTP_STAT_PSTATE | PTP_STAT_LOCK | PTP_STAT_SRCPORT | PTP_STAT_GMCHG   -- 15: PTP status
  | PTP_OFS_NS   -- 15: offset from master
  | PTP_MPD_NS   -- 15: mean path delay
  | RING_CFG_EN | RING_CFG_ID | RING_CFG_DOWNHOLD | RING_CFG_LOSTHOLD | RING_CFG_DOWNTO | RING_CFG_SLEAD | RING_CFG_TTOL   -- 15: ring configuration
  | RING_STAT_UP | RING_STAT_MASTER | RING_STAT_MID | RING_STAT_RELAY | RING_STAT_MEMBERS | RING_STAT_HOLDSRC | RING_STAT_DUP   -- 15: ring status
  | RING_PLS_O   -- 15: pulse offset
  | RING_RT_NS   -- 15: ring round trip
  | RING_CL_S_S   -- 15: latch second
  | RING_CL_LO_C   -- 15: latched count, low
  | RING_CL_HI_C   -- 15: latched count, high
  | RING_CNT_CRC | RING_CNT_GAPS   -- 15: ring counters
  | DMA_CTL_RETRY   -- 01: DMA control
  | DMA_HALT_LO_HALT   -- 01: halted rings 0–31
  | DMA_HALT_HI_HALT   -- 01: halted rings 32–47
  | DMA_RBASE_LO_ADDR   -- 01: ring base, low
  | DMA_RBASE_HI_ADDR   -- 01: ring base, high
  | DMA_RCFG_EN | DMA_RCFG_IRQEN | DMA_RCFG_SIZE   -- 01: ring configuration
  | DMA_RHEAD_IDX   -- 01: hardware index
  | DMA_RTAIL_IDX   -- 01: firmware index
  deriving DecidableEq, Repr

end Sys2Proof.Machine
end

