-- ==== Sys2Proof/Machine/Registers.lean ====
section
/-! DEFINITION. What the field tables of spec/01 to 17 give each register field: its place in the word, its access type
(Table 17-2) and its reset value, and the registers with their addresses (Tables 17-1 and 17-7). -/
namespace Sys2Proof.Machine



/-- Access types of Table 17-2 (17, R398). -/
inductive Acc where
  | ro | rw | w1c | wo | rwp
  deriving DecidableEq, Repr

/-- Power domains by their bit in `AON_PDSTAT.ON` (17, AON_PDSTAT; Table 1-5). -/
inductive Dom where
  | aon | sup | rq0 | rq1 | rq2 | rq3 | dose | za | zb | mem | net | vis
  deriving DecidableEq, Repr

/-- The bit number of a domain in `AON_PDSTAT.ON`. -/
def Dom.bit : Dom → Nat
  | .aon => 0 | .sup => 1 | .rq0 => 2 | .rq1 => 3 | .rq2 => 4 | .rq3 => 5 | .dose => 6 | .za => 7 | .zb => 8
  | .mem => 9 | .net => 10 | .vis => 11

/-- Place, access and reset value of a field. -/
structure FldSpec where
  lo : Nat
  width : Nat
  acc : Acc
  reset : Nat
  dom : Dom
  deriving DecidableEq, Repr

/-- The row of the field tables for each field. -/
def fldSpec : Fld → FldSpec
  | .AON_ID_VARIANT => ⟨0, 4, .ro, 0x1, .aon⟩
  | .AON_ID_STEP => ⟨8, 8, .ro, 0x1, .aon⟩
  | .AON_ID_DEVID => ⟨16, 16, .ro, 0x262, .aon⟩
  | .AON_STATE_STATE => ⟨0, 4, .ro, 0x1, .aon⟩
  | .AON_STATE_HOLDC => ⟨8, 8, .ro, 0x0, .aon⟩
  | .AON_STATE_STOPREQ => ⟨16, 8, .ro, 0x0, .aon⟩
  | .AON_EVPEND_PEND => ⟨0, 16, .w1c, 0x0, .aon⟩
  | .AON_RIRQ_LO_RING => ⟨0, 32, .w1c, 0x0, .aon⟩
  | .AON_RIRQ_HI_RING => ⟨0, 16, .w1c, 0x0, .aon⟩
  | .AON_IRQ_EV => ⟨0, 4, .ro, 0x0, .aon⟩
  | .AON_IRQ_RING => ⟨4, 1, .ro, 0x0, .aon⟩
  | .AON_IRQ_HALT => ⟨5, 1, .ro, 0x0, .aon⟩
  | .AON_IRQ_PV => ⟨6, 1, .ro, 0x0, .aon⟩
  | .AON_IRQ_BUS => ⟨7, 1, .ro, 0x0, .aon⟩
  | .AON_IMASK_EN => ⟨0, 8, .rw, 0x0, .aon⟩
  | .AON_EVLOST_N => ⟨0, 32, .ro, 0x0, .aon⟩
  | .AON_BUSERR_LVL => ⟨0, 2, .ro, 0x0, .aon⟩
  | .AON_BUSERR_WR => ⟨2, 1, .ro, 0x0, .aon⟩
  | .AON_BUSERR_CAUSE => ⟨3, 2, .ro, 0x0, .aon⟩
  | .AON_BUSERR_VALID => ⟨31, 1, .w1c, 0x0, .aon⟩
  | .AON_BUSERR_ADDR_ADDR => ⟨0, 32, .ro, 0x0, .aon⟩
  | .AON_PDSTAT_ON => ⟨0, 12, .ro, 0x1, .aon⟩
  | .AON_TDEM_DEM => ⟨0, 10, .wo, 0x0, .aon⟩
  | .AON_TDEM_BUSY => ⟨16, 10, .ro, 0x0, .aon⟩
  | .AON_TEMP_T => ⟨0, 16, .ro, 0x0, .aon⟩
  | .AON_TEMP_VALID => ⟨16, 1, .ro, 0x0, .aon⟩
  | .AON_PWR_WARN => ⟨0, 1, .ro, 0x0, .aon⟩
  | .AON_PWR_SEEN => ⟨1, 1, .w1c, 0x0, .aon⟩
  | .AON_PWR_VMIN => ⟨16, 16, .ro, 0xffff, .aon⟩
  | .CR_STAT_IMG => ⟨0, 2, .ro, 0x2, .aon⟩
  | .CR_STAT_FAILREC => ⟨8, 8, .ro, 0x0, .aon⟩
  | .CR_STAT_FAILCHK => ⟨16, 4, .ro, 0x0, .aon⟩
  | .CR_STAT_RSTCAUSE => ⟨20, 4, .ro, 0x0, .aon⟩
  | .CR_IMGVER_VER => ⟨0, 32, .ro, 0x0, .aon⟩
  | .CR_BOOTCNT_N => ⟨0, 32, .ro, 0xffffffff, .aon⟩
  | .CR_XSPI_MODE => ⟨0, 2, .ro, 0x0, .aon⟩
  | .CR_XSPI_SCK => ⟨8, 8, .ro, 0x19, .aon⟩
  | .CR_BOOTSEL_BACKUP => ⟨0, 1, .rwp, 0x0, .aon⟩
  | .CR_BOOTSEL_RESTART => ⟨1, 1, .wo, 0x0, .aon⟩
  | .CR_PRES_PRES => ⟨0, 1, .ro, 0x0, .aon⟩
  | .CR_PRES_SESSION => ⟨1, 1, .ro, 0x0, .aon⟩
  | .CR_PRES_SPAN => ⟨2, 1, .ro, 0x0, .aon⟩
  | .CR_PRES_LOCK => ⟨3, 1, .ro, 0x0, .aon⟩
  | .CR_PRES_DBG => ⟨4, 1, .ro, 0x0, .aon⟩
  | .CR_LOG_BASE_SECT => ⟨0, 13, .ro, 0x0, .aon⟩
  | .CR_LOG_BASE_COUNT => ⟨16, 9, .ro, 0x0, .aon⟩
  | .CR_LOG_WP_OFS => ⟨0, 32, .ro, 0x0, .aon⟩
  | .CR_FWBASE_ADDR => ⟨0, 28, .rwp, 0x0, .aon⟩
  | .NOC_PR_BASE_BASE => ⟨0, 24, .rwp, 0x0, .sup⟩
  | .NOC_PR_LIM_LIM => ⟨0, 24, .rwp, 0x0, .sup⟩
  | .NOC_PR_ATTR_EN => ⟨0, 1, .rwp, 0x0, .sup⟩
  | .NOC_PR_ATTR_SPACE => ⟨1, 1, .rwp, 0x0, .sup⟩
  | .NOC_PR_ATTR_RLVL => ⟨2, 2, .rwp, 0x3, .sup⟩
  | .NOC_PR_ATTR_WLVL => ⟨4, 2, .rwp, 0x3, .sup⟩
  | .NOC_PV_LVL => ⟨0, 2, .ro, 0x0, .sup⟩
  | .NOC_PV_WR => ⟨2, 1, .ro, 0x0, .sup⟩
  | .NOC_PV_SPACE => ⟨3, 1, .ro, 0x0, .sup⟩
  | .NOC_PV_REGION => ⟨4, 6, .ro, 0x0, .sup⟩
  | .NOC_PV_VALID => ⟨31, 1, .w1c, 0x0, .sup⟩
  | .NOC_PV_ADDR_ADDR => ⟨0, 32, .ro, 0x0, .sup⟩
  | .RKC_CTL_STEAL_EN => ⟨0, 1, .rwp, 0x1, .sup⟩
  | .RKC_CTL_WDOG => ⟨8, 16, .rwp, 0x1388, .sup⟩
  | .RKC_ACTIVE_ACT => ⟨0, 16, .ro, 0x0, .sup⟩
  | .RKC_ACTIVE_COUNT => ⟨16, 5, .ro, 0x0, .sup⟩
  | .RKC_MITTEN_MIT => ⟨0, 16, .w1c, 0x0, .sup⟩
  | .RKC_SHED_QUAD => ⟨0, 4, .ro, 0x0, .sup⟩
  | .RKC_COSTCFG_BASE => ⟨0, 16, .rwp, 0x1770, .sup⟩
  | .RKC_COSTCFG_CACHE => ⟨16, 16, .rwp, 0x190, .sup⟩
  | .RKC_DEFCOST_COST => ⟨0, 32, .rwp, 0x100000, .sup⟩
  | .RKC_CMP_MISMATCH => ⟨0, 16, .ro, 0x0, .sup⟩
  | .RKC_CMP_NOMAJ => ⟨16, 16, .ro, 0x0, .sup⟩
  | .RKC_STRIKE_TOTAL => ⟨0, 4, .ro, 0x0, .sup⟩
  | .RKC_STRIKE_LAST => ⟨4, 2, .ro, 0x0, .sup⟩
  | .RKC_STRIKE_PENDING => ⟨6, 1, .ro, 0x0, .sup⟩
  | .RKC_BUSY_CYC => ⟨0, 32, .ro, 0x0, .sup⟩
  | .DP_CFG_EN => ⟨0, 1, .rwp, 0x0, .dose⟩
  | .DP_CFG_GANG => ⟨1, 2, .rwp, 0x0, .dose⟩
  | .DP_CFG_LEVELS => ⟨3, 1, .rwp, 0x0, .dose⟩
  | .DP_CFG_LATCOMP => ⟨4, 1, .rw, 0x0, .dose⟩
  | .DP_GEOM_HEADS => ⟨0, 4, .rwp, 0x0, .dose⟩
  | .DP_GEOM_SLOT0 => ⟨4, 6, .rwp, 0x0, .dose⟩
  | .DP_GEOM_CUFF => ⟨16, 9, .rwp, 0x0, .dose⟩
  | .DP_SHIFT_NEXT => ⟨0, 12, .rw, 0x0, .dose⟩
  | .DP_SHIFT_CUR => ⟨16, 12, .ro, 0x0, .dose⟩
  | .DP_SCREEN_XOFS => ⟨0, 7, .rwp, 0x0, .dose⟩
  | .DP_SCREEN_YOFS => ⟨8, 7, .rwp, 0x0, .dose⟩
  | .DP_SCREEN_TW => ⟨16, 7, .ro, 0x70, .dose⟩
  | .DP_SCREEN_TH => ⟨24, 7, .ro, 0x70, .dose⟩
  | .DP_SPIT_CODE => ⟨0, 3, .rwp, 0x1, .dose⟩
  | .DP_SPIT_DIV => ⟨4, 4, .rwp, 0x4, .dose⟩
  | .DP_SPIT_LINES => ⟨8, 8, .rwp, 0x10, .dose⟩
  | .DP_SPIT_OFS => ⟨16, 13, .rwp, 0xa0, .dose⟩
  | .DP_SPIT_IMG_EN => ⟨0, 1, .rw, 0x0, .dose⟩
  | .DP_SPIT_IMG_PERIOD => ⟨8, 12, .rw, 0x400, .dose⟩
  | .DP_SPIT_IMG_STEP => ⟨20, 12, .rw, 0x1d3, .dose⟩
  | .DP_RODQ_COUNT => ⟨0, 13, .ro, 0x0, .dose⟩
  | .DP_RODQ_COMMIT => ⟨16, 1, .rw, 0x0, .dose⟩
  | .DP_RODQ_RELEASE => ⟨17, 1, .wo, 0x0, .dose⟩
  | .DP_RODQ_RETAINED => ⟨18, 1, .ro, 0x0, .dose⟩
  | .DP_RODQ_IDX_CH => ⟨0, 15, .wo, 0x0, .dose⟩
  | .DP_RODQ_DATA_ROD => ⟨0, 32, .wo, 0x0, .dose⟩
  | .DP_RODV_VER => ⟨0, 16, .ro, 0x0, .dose⟩
  | .DP_RODM_ADDR => ⟨0, 28, .rwp, 0x0, .dose⟩
  | .DP_CHECK_REDOSE => ⟨0, 16, .ro, 0x0, .dose⟩
  | .DP_CHECK_FAIL => ⟨16, 8, .ro, 0x0, .dose⟩
  | .DP_CHECK_POISON => ⟨24, 8, .ro, 0x0, .dose⟩
  | .DP_SHORT_SUM => ⟨0, 32, .ro, 0x0, .dose⟩
  | .DP_ERR_WWRITE => ⟨0, 1, .w1c, 0x0, .dose⟩
  | .DP_ERR_QOVF => ⟨1, 1, .w1c, 0x0, .dose⟩
  | .DP_ERR_CREF => ⟨2, 1, .w1c, 0x0, .dose⟩
  | .DP_BRIM_PHASE_NEXT => ⟨0, 4, .rw, 0x0, .dose⟩
  | .DP_BRIM_PHASE_CUR => ⟨8, 4, .ro, 0x0, .dose⟩
  | .DP_GLOVE_W1 => ⟨0, 8, .rwp, 0x0, .dose⟩
  | .DP_GLOVE_W2 => ⟨8, 8, .rwp, 0x0, .dose⟩
  | .DP_BRIM_A_KIND => ⟨0, 2, .rw, 0x0, .dose⟩
  | .DP_BRIM_A_CODE => ⟨2, 3, .rw, 0x0, .dose⟩
  | .DP_BRIM_A_HEADS => ⟨8, 8, .rw, 0x0, .dose⟩
  | .DP_BRIM_A_OFS => ⟨16, 13, .rw, 0x0, .dose⟩
  | .DP_BRIM_B_X0 => ⟨0, 16, .rw, 0x0, .dose⟩
  | .DP_BRIM_B_LINES => ⟨16, 8, .rw, 0x0, .dose⟩
  | .DP_BRIM_B_X1D => ⟨24, 8, .rw, 0x0, .dose⟩
  | .ROD_ROD => ⟨0, 32, .rwp, 0xc0000000, .dose⟩
  | .RW_POOL_COUNT => ⟨0, 20, .ro, 0x78000, .dose⟩
  | .RW_LEAD_COUNTS => ⟨0, 32, .ro, 0x0, .dose⟩
  | .RW_LEADBAR_BAR => ⟨0, 4, .ro, 0x0, .dose⟩
  | .RW_LEADREQ_COUNTS => ⟨0, 32, .rwp, 0x0, .dose⟩
  | .RW_LEADTGT_COUNTS => ⟨0, 32, .rwp, 0xffffffff, .dose⟩
  | .RW_XCFG_LEVEL => ⟨0, 3, .rwp, 0x2, .dose⟩
  | .RW_XCFG_AUTO => ⟨3, 1, .rwp, 0x1, .dose⟩
  | .RW_XCFG_EFF => ⟨4, 3, .ro, 0x2, .dose⟩
  | .RW_XCFG_DMARGIN => ⟨8, 16, .rwp, 0x100, .dose⟩
  | .RW_RATIO_RATIO => ⟨0, 16, .ro, 0x100, .dose⟩
  | .RW_XCNT_REVERIFY => ⟨0, 16, .ro, 0x0, .dose⟩
  | .RW_XCNT_FAIL => ⟨16, 16, .ro, 0x0, .dose⟩
  | .RW_PL_BASE_ADDR => ⟨0, 15, .rwp, 0x0, .dose⟩
  | .RW_PL_TAIL_IDX => ⟨0, 19, .rw, 0x0, .dose⟩
  | .RW_PL_WR_IDX => ⟨0, 19, .ro, 0x0, .dose⟩
  | .RW_PL_RD_IDX => ⟨0, 19, .ro, 0x0, .dose⟩
  | .RW_XSTAT_STOPPED => ⟨0, 1, .ro, 0x0, .dose⟩
  | .RW_XSTAT_WAITSLOT => ⟨1, 1, .ro, 0x0, .dose⟩
  | .RW_XSTAT_WAITTGT => ⟨2, 1, .ro, 0x0, .dose⟩
  | .RW_XSTAT_STOPS => ⟨8, 8, .ro, 0x0, .dose⟩
  | .RW_XIN_BYTES => ⟨0, 18, .ro, 0x0, .dose⟩
  | .RW_XOUT_BYTES => ⟨0, 18, .ro, 0x0, .dose⟩
  | .RW_BLEAD_COUNTS => ⟨0, 32, .ro, 0x0, .dose⟩
  | .RW_CFG_START_PAGES => ⟨0, 3, .rwp, 0x1, .dose⟩
  | .RW_SKIP_JN_JN => ⟨0, 32, .rw, 0x0, .dose⟩
  | .RW_SKIP_LINE_LINE => ⟨0, 32, .rw, 0x0, .dose⟩
  | .RW_SKIP_CTL_ARM => ⟨0, 1, .rw, 0x0, .dose⟩
  | .FIRE_CTL_EN => ⟨0, 1, .rwp, 0x0, .sup⟩
  | .FIRE_CTL_DIR => ⟨1, 1, .rwp, 0x0, .sup⟩
  | .FIRE_CTL_BACKLASH => ⟨4, 4, .rwp, 0x2, .sup⟩
  | .FIRE_ENC_MODE => ⟨0, 1, .rwp, 0x0, .sup⟩
  | .FIRE_ENC_IDXEN => ⟨1, 1, .rwp, 0x1, .sup⟩
  | .FIRE_ENC_LINECHK => ⟨2, 1, .rwp, 0x1, .sup⟩
  | .FIRE_ENC_FILT => ⟨4, 9, .rwp, 0x32, .sup⟩
  | .FIRE_ENC_IFILT => ⟨16, 9, .rwp, 0x32, .sup⟩
  | .FIRE_CPR_CPR => ⟨0, 25, .rwp, 0x20000, .sup⟩
  | .FIRE_IDXCFG_TOL => ⟨0, 4, .rwp, 0x2, .sup⟩
  | .FIRE_IDXCFG_SLIPN => ⟨4, 4, .rwp, 0x3, .sup⟩
  | .FIRE_IDXCFG_SLIPREV => ⟨8, 8, .rwp, 0xa, .sup⟩
  | .FIRE_SPDCFG_WIN => ⟨0, 7, .rwp, 0x10, .sup⟩
  | .FIRE_SPDCFG_STILL => ⟨8, 8, .rwp, 0x14, .sup⟩
  | .FIRE_VMIN_COUNTS => ⟨0, 24, .rwp, 0x4000, .sup⟩
  | .FIRE_LEAD_NS => ⟨0, 20, .rwp, 0x4e20, .sup⟩
  | .FIRE_GAP_COUNTS => ⟨0, 24, .rwp, 0x4000, .sup⟩
  | .FIRE_CPM_CPM => ⟨0, 32, .rwp, 0x0, .sup⟩
  | .FIRE_CNT_LO_C => ⟨0, 32, .ro, 0x0, .sup⟩
  | .FIRE_CNT_HI_C => ⟨0, 16, .ro, 0x0, .sup⟩
  | .FIRE_POS_LO_F => ⟨0, 32, .ro, 0x0, .sup⟩
  | .FIRE_POS_HI_F => ⟨0, 16, .ro, 0x0, .sup⟩
  | .FIRE_SPEED_V => ⟨0, 32, .ro, 0x0, .sup⟩
  | .FIRE_SPDSTAT_STATUS => ⟨0, 3, .ro, 0x0, .sup⟩
  | .FIRE_SPDSTAT_DIR => ⟨3, 1, .ro, 0x0, .sup⟩
  | .FIRE_SPDSTAT_DECAY => ⟨4, 1, .ro, 0x0, .sup⟩
  | .FIRE_SPDSTAT_MODE => ⟨5, 1, .ro, 0x0, .sup⟩
  | .FIRE_ACCEL_A => ⟨0, 32, .ro, 0x0, .sup⟩
  | .FIRE_IDXREF_LO_X => ⟨0, 32, .ro, 0x0, .sup⟩
  | .FIRE_IDXREF_HI_X => ⟨0, 16, .ro, 0x0, .sup⟩
  | .FIRE_IDXREF_HI_SET => ⟨16, 1, .ro, 0x0, .sup⟩
  | .FIRE_IDXDEV_DEV => ⟨0, 16, .ro, 0x0, .sup⟩
  | .FIRE_IDXDEV_WINEV => ⟨16, 4, .ro, 0x0, .sup⟩
  | .FIRE_SLIPSUM_SUM => ⟨0, 32, .ro, 0x0, .sup⟩
  | .FIRE_SLIPCNT_SLIPS => ⟨0, 16, .ro, 0x0, .sup⟩
  | .FIRE_SLIPCNT_ILLEGAL => ⟨16, 16, .ro, 0x0, .sup⟩
  | .FIRE_STAT_REV => ⟨0, 1, .w1c, 0x0, .sup⟩
  | .FIRE_STAT_SLIP => ⟨1, 1, .w1c, 0x0, .sup⟩
  | .FIRE_STAT_NOIDX => ⟨2, 1, .w1c, 0x0, .sup⟩
  | .FIRE_STAT_ILLEGAL => ⟨3, 1, .w1c, 0x0, .sup⟩
  | .FIRE_STAT_LINE => ⟨4, 1, .w1c, 0x0, .sup⟩
  | .FIRE_STAT_LATE => ⟨5, 1, .w1c, 0x0, .sup⟩
  | .FIRE_STAT_SLIPSTOP => ⟨6, 1, .w1c, 0x0, .sup⟩
  | .FIRE_AMCNT_AMEND => ⟨0, 16, .ro, 0x0, .sup⟩
  | .FIRE_AMCNT_LATE => ⟨16, 16, .ro, 0x0, .sup⟩
  | .FIRE_BAROFS_OFS => ⟨0, 32, .rwp, 0x0, .sup⟩
  | .FIRE_TRIM_NEXT => ⟨0, 10, .rw, 0x0, .sup⟩
  | .FIRE_TRIM_CUR => ⟨16, 10, .ro, 0x0, .sup⟩
  | .FIRE_HOFS_OFS => ⟨0, 24, .rwp, 0x0, .sup⟩
  | .FIRE_PL_JN_JN => ⟨0, 32, .rwp, 0x0, .sup⟩
  | .FIRE_PL_ORGF_FRAC => ⟨0, 32, .rwp, 0x0, .sup⟩
  | .FIRE_PL_ORGL_INT => ⟨0, 32, .rwp, 0x0, .sup⟩
  | .FIRE_PL_ORGH_INT => ⟨0, 16, .rwp, 0x0, .sup⟩
  | .FIRE_PL_ORGH_VALID => ⟨31, 1, .rwp, 0x0, .sup⟩
  | .FIRE_PL_PITF_FRAC => ⟨0, 32, .rwp, 0x0, .sup⟩
  | .FIRE_PL_PITI_INT => ⟨0, 8, .rwp, 0x0, .sup⟩
  | .FIRE_PL_LINES_L => ⟨0, 32, .rwp, 0x0, .sup⟩
  | .FIRE_DUE_JN_JN => ⟨0, 32, .ro, 0x0, .sup⟩
  | .FIRE_DUE_LINE_LINE => ⟨0, 32, .ro, 0x0, .sup⟩
  | .ZL_CFG_EN => ⟨0, 1, .rwp, 0x0, .za⟩
  | .ZL_CFG_GEN => ⟨1, 1, .rwp, 0x0, .za⟩
  | .ZL_CFG_AHEAD => ⟨4, 4, .rwp, 0x4, .za⟩
  | .ZL_CFG_ECHOTO => ⟨8, 8, .rwp, 0x19, .za⟩
  | .ZL_CFG_STTO => ⟨16, 8, .rwp, 0xa, .za⟩
  | .ZL_STAT_STATE => ⟨0, 3, .ro, 0x0, .za⟩
  | .ZL_STAT_LOCK => ⟨3, 1, .ro, 0x0, .za⟩
  | .ZL_STAT_FARLOCK => ⟨4, 1, .ro, 0x0, .za⟩
  | .ZL_STAT_FARGEN => ⟨5, 2, .ro, 0x0, .za⟩
  | .ZL_STAT_LOOP => ⟨7, 1, .ro, 0x0, .za⟩
  | .ZL_STAT_HDPRES => ⟨8, 1, .ro, 0x0, .za⟩
  | .ZL_STAT_EEOK => ⟨9, 1, .ro, 0x0, .za⟩
  | .ZL_STAT_LOSSES => ⟨16, 8, .ro, 0x0, .za⟩
  | .ZL_LAT_DELAY => ⟨0, 16, .ro, 0x0, .za⟩
  | .ZL_LAT_LAT => ⟨16, 16, .ro, 0x0, .za⟩
  | .ZL_OFS_THETA => ⟨0, 16, .ro, 0x0, .za⟩
  | .ZL_OFS_BEACON => ⟨16, 16, .ro, 0x0, .za⟩
  | .ZL_LPCTL_TXS => ⟨0, 1, .rw, 0x0, .za⟩
  | .ZL_LPCTL_RXS => ⟨1, 1, .rw, 0x0, .za⟩
  | .ZL_LPCTL_PARK => ⟨2, 1, .rw, 0x0, .za⟩
  | .ZL_LPCTL_CUR => ⟨8, 3, .ro, 0x0, .za⟩
  | .ZL_LOOP_MODE => ⟨0, 2, .rw, 0x0, .za⟩
  | .ZL_LOOP_TEST => ⟨2, 1, .rw, 0x0, .za⟩
  | .ZL_LOOPERR_BITS => ⟨0, 32, .ro, 0x0, .za⟩
  | .ZL_FERR_RXBAD => ⟨0, 16, .ro, 0x0, .za⟩
  | .ZL_FERR_RESENT => ⟨16, 16, .ro, 0x0, .za⟩
  | .ZL_ECHO_MISMATCH => ⟨0, 8, .ro, 0x0, .za⟩
  | .ZL_ECHO_TIMEOUT => ⟨8, 8, .ro, 0x0, .za⟩
  | .ZL_ECHO_NODATA => ⟨16, 8, .ro, 0x0, .za⟩
  | .ZL_ECHO_LATE => ⟨24, 8, .ro, 0x0, .za⟩
  | .ZL_HEAD_THERM => ⟨0, 16, .ro, 0x0, .za⟩
  | .ZL_HEAD_FLAGS => ⟨16, 8, .ro, 0x0, .za⟩
  | .ZL_EE_DONE => ⟨0, 1, .ro, 0x0, .za⟩
  | .ZL_EE_CRCOK => ⟨1, 1, .ro, 0x0, .za⟩
  | .ZL_EE_MATCH => ⟨2, 1, .ro, 0x0, .za⟩
  | .ZL_EE_RANK => ⟨8, 3, .ro, 0x0, .za⟩
  | .ZL_EE_NDEAD => ⟨16, 7, .ro, 0x0, .za⟩
  | .ZL_CTL_HREF_EN => ⟨0, 1, .rwp, 0x1, .za⟩
  | .ZL_CTL_SPREAD => ⟨1, 1, .ro, 0x0, .za⟩
  | .ZL_CTL_RECOV => ⟨8, 8, .rwp, 0x64, .za⟩
  | .ZL_TIMED_LO_TIMED => ⟨0, 32, .ro, 0x0, .za⟩
  | .ZL_TIMED_HI_TIMED => ⟨0, 32, .ro, 0x0, .za⟩
  | .ZL_INC_LO_FRAC => ⟨0, 32, .ro, 0x66666666, .za⟩
  | .ZL_INC_HI_INT => ⟨0, 32, .ro, 0x6, .za⟩
  | .SP_WASTE_OFS_COUNTS => ⟨0, 32, .rwp, 0x0, .sup⟩
  | .SP_WASTE_CTL_MODE => ⟨0, 2, .rwp, 0x0, .sup⟩
  | .SP_WASTE_CTL_POL => ⟨2, 1, .rwp, 0x0, .sup⟩
  | .SP_WASTE_CTL_WIDTH => ⟨8, 8, .rwp, 0xa, .sup⟩
  | .SP_WASTE_CTL_ADV => ⟨16, 16, .rwp, 0x0, .sup⟩
  | .SP_SPRCFG_FLUSH => ⟨0, 16, .rwp, 0x3e8, .sup⟩
  | .SP_STAT_OVF => ⟨0, 1, .w1c, 0x0, .sup⟩
  | .SP_STAT_EARLY => ⟨1, 1, .w1c, 0x0, .sup⟩
  | .SP_STAT_LATE => ⟨2, 1, .w1c, 0x0, .sup⟩
  | .SP_STAT_TOWN => ⟨3, 1, .w1c, 0x0, .sup⟩
  | .SP_STAT_DEC => ⟨4, 1, .w1c, 0x0, .sup⟩
  | .SP_STAT_PTPOI => ⟨5, 1, .w1c, 0x0, .sup⟩
  | .SP_PTAB_USED => ⟨0, 11, .ro, 0x0, .sup⟩
  | .SP_PTAB_HIGH => ⟨16, 11, .ro, 0x0, .sup⟩
  | .SP_GOOD_N => ⟨0, 32, .ro, 0x0, .sup⟩
  | .SP_SPOILED_N => ⟨0, 32, .ro, 0x0, .sup⟩
  | .SP_RECLOST_N => ⟨0, 32, .ro, 0x0, .sup⟩
  | .TALLY_CTX_CTX => ⟨0, 6, .rw, 0x0, .za⟩
  | .TALLY_CTX_BUSY => ⟨8, 1, .ro, 0x0, .za⟩
  | .TALLY_CTX_OWNED => ⟨9, 1, .ro, 0x0, .za⟩
  | .TALLY_FOLD_V => ⟨0, 32, .wo, 0x0, .za⟩
  | .TALLY_IN_B_D => ⟨0, 8, .wo, 0x0, .za⟩
  | .TALLY_IN_H_D => ⟨0, 16, .wo, 0x0, .za⟩
  | .TALLY_IN_W_D => ⟨0, 32, .wo, 0x0, .za⟩
  | .TALLY_RES_CRC => ⟨0, 32, .ro, 0x0, .za⟩
  | .SP_RCNT_N => ⟨0, 32, .ro, 0x0, .sup⟩
  | .TALLY_VAL_STATE => ⟨0, 32, .rw, 0xffffffff, .za⟩
  | .VIS_CFG_EN => ⟨0, 1, .rwp, 0x0, .vis⟩
  | .VIS_CFG_LANES => ⟨1, 2, .rwp, 0x0, .vis⟩
  | .VIS_CFG_FMT => ⟨3, 2, .rwp, 0x0, .vis⟩
  | .VIS_CFG_MERGE => ⟨5, 1, .rwp, 0x0, .vis⟩
  | .VIS_CFG_LAT => ⟨6, 1, .rwp, 0x0, .vis⟩
  | .VIS_CFG_OVERLAP => ⟨7, 1, .rwp, 0x0, .vis⟩
  | .VIS_CFG_VC0 => ⟨8, 4, .rwp, 0x0, .vis⟩
  | .VIS_CFG_VC1 => ⟨12, 4, .rwp, 0x1, .vis⟩
  | .VIS_CFG_SEN => ⟨16, 4, .rw, 0x0, .vis⟩
  | .VIS_CFG_S0SRC => ⟨20, 1, .rw, 0x0, .vis⟩
  | .VIS_CFG_I2CSPD => ⟨21, 2, .rwp, 0x2, .vis⟩
  | .VIS_GEOM_WIDTH => ⟨0, 14, .rwp, 0x1400, .vis⟩
  | .VIS_GEOM_HEIGHT => ⟨16, 13, .rwp, 0x400, .vis⟩
  | .VIS_TRIG_LO_POS => ⟨0, 32, .wo, 0x0, .vis⟩
  | .VIS_TRIG_HI_POS => ⟨0, 16, .wo, 0x0, .vis⟩
  | .VIS_TRIG_HI_DEPTH => ⟨16, 4, .ro, 0x0, .vis⟩
  | .VIS_STROBE_DLY => ⟨0, 16, .rw, 0x0, .vis⟩
  | .VIS_STROBE_TRIGW => ⟨16, 8, .rwp, 0xa, .vis⟩
  | .VIS_STROBE_TPOL => ⟨24, 1, .rwp, 0x0, .vis⟩
  | .VIS_STROBE_SPOL => ⟨25, 1, .rwp, 0x0, .vis⟩
  | .VIS_ESCTL_SLOT => ⟨0, 3, .rw, 0x0, .vis⟩
  | .VIS_ESCTL_COMMIT => ⟨3, 1, .rw, 0x0, .vis⟩
  | .VIS_ESCTL_CURSTR => ⟨8, 8, .ro, 0xff, .vis⟩
  | .VIS_ESCTL_CURSEN => ⟨16, 8, .ro, 0xff, .vis⟩
  | .VIS_ESA_ESID => ⟨0, 8, .rw, 0x0, .vis⟩
  | .VIS_ESA_WIDTH => ⟨8, 16, .rw, 0x12c, .vis⟩
  | .VIS_ESB_RATIO => ⟨0, 16, .rw, 0x100, .vis⟩
  | .VIS_ESB_I2C0 => ⟨16, 8, .rw, 0x0, .vis⟩
  | .VIS_ESB_I2CN => ⟨24, 8, .rw, 0x0, .vis⟩
  | .VIS_I2CDEV_ADDR => ⟨0, 7, .rwp, 0x0, .vis⟩
  | .VIS_I2CDEV_AW16 => ⟨7, 1, .rwp, 0x1, .vis⟩
  | .VIS_I2CDEV_DW16 => ⟨8, 1, .rwp, 0x0, .vis⟩
  | .VIS_I2CDEV_RETRY => ⟨9, 2, .rwp, 0x2, .vis⟩
  | .VIS_TO_FTO => ⟨0, 8, .rwp, 0x32, .vis⟩
  | .VIS_TO_LGTO => ⟨8, 16, .rwp, 0xc8, .vis⟩
  | .VIS_WIN_Y0 => ⟨0, 13, .rw, 0x0, .vis⟩
  | .VIS_WIN_Y1 => ⟨16, 13, .rw, 0x0, .vis⟩
  | .VIS_WIN_EN => ⟨31, 1, .rw, 0x0, .vis⟩
  | .VIS_FFBASE_ADDR => ⟨0, 28, .rw, 0x0, .vis⟩
  | .VIS_CAL_START => ⟨0, 1, .wo, 0x0, .vis⟩
  | .VIS_CAL_ACTIVE => ⟨1, 1, .ro, 0x0, .vis⟩
  | .VIS_CAL_VER => ⟨16, 16, .ro, 0x0, .vis⟩
  | .VIS_STAT_STATE => ⟨0, 3, .ro, 0x0, .vis⟩
  | .VIS_STAT_DROP => ⟨8, 1, .w1c, 0x0, .vis⟩
  | .VIS_STAT_TIMEOUT => ⟨9, 1, .w1c, 0x0, .vis⟩
  | .VIS_STAT_SKIP => ⟨10, 1, .w1c, 0x0, .vis⟩
  | .VIS_STAT_CRC => ⟨11, 1, .w1c, 0x0, .vis⟩
  | .VIS_STAT_I2C => ⟨12, 1, .w1c, 0x0, .vis⟩
  | .VIS_STAT_NOBUF => ⟨13, 1, .w1c, 0x0, .vis⟩
  | .VIS_STAT_GEOM => ⟨14, 1, .w1c, 0x0, .vis⟩
  | .VIS_FRAME_FRAMEID => ⟨0, 32, .ro, 0x0, .vis⟩
  | .VIS_CNT_DROPS => ⟨0, 16, .ro, 0x0, .vis⟩
  | .VIS_CNT_TIMEOUTS => ⟨16, 16, .ro, 0x0, .vis⟩
  | .VIS_PARM_W => ⟨0, 32, .rw, 0x0, .vis⟩
  | .VIS_ARB_W => ⟨0, 16, .rwp, 0x1111, .vis⟩
  | .VL_CTL_NZEN => ⟨0, 1, .rwp, 0x1, .sup⟩
  | .VL_CTL_REGEN => ⟨1, 1, .rwp, 0x1, .sup⟩
  | .VL_CTL_HANDEN => ⟨2, 1, .rwp, 0x1, .sup⟩
  | .VL_CTL_FREEZE => ⟨3, 1, .ro, 0x0, .sup⟩
  | .VL_DEAD_N => ⟨0, 19, .ro, 0x0, .sup⟩
  | .VL_WEAK_N => ⟨0, 19, .ro, 0x0, .sup⟩
  | .VL_CYCLE_PHASE => ⟨0, 4, .ro, 0x0, .sup⟩
  | .VL_CYCLE_CYCLES => ⟨16, 16, .ro, 0x0, .sup⟩
  | .VL_HAND_HSTEP => ⟨0, 10, .rwp, 0x40, .sup⟩
  | .VL_HAND_HCUR => ⟨10, 10, .ro, 0x40, .sup⟩
  | .VL_HAND_HGUARD => ⟨20, 8, .rwp, 0x10, .sup⟩
  | .VL_LAT_SH => ⟨0, 16, .ro, 0x0, .sup⟩
  | .VL_LAT_ACT => ⟨16, 16, .ro, 0x0, .sup⟩
  | .VL_DW_D => ⟨0, 16, .ro, 0x0, .sup⟩
  | .AX_CFG_EN => ⟨0, 1, .rwp, 0x0, .sup⟩
  | .AX_CFG_FB => ⟨1, 2, .rwp, 0x0, .sup⟩
  | .AX_CFG_DRV => ⟨3, 1, .rwp, 0x0, .sup⟩
  | .AX_CFG_COMP => ⟨4, 1, .rwp, 0x0, .sup⟩
  | .AX_CFG_HOMELIM => ⟨5, 2, .rwp, 0x0, .sup⟩
  | .AX_CFG_HDIR => ⟨7, 1, .rwp, 0x0, .sup⟩
  | .AX_CFG_INV => ⟨8, 3, .rwp, 0x0, .sup⟩
  | .AX_CFG_CCOMMIT => ⟨11, 1, .rw, 0x0, .sup⟩
  | .AX_CFG_EOFS => ⟨16, 10, .rwp, 0x0, .sup⟩
  | .AX_SCALE_PM => ⟨0, 32, .rwp, 0x0, .sup⟩
  | .AX_KIN_LIM => ⟨0, 32, .rwp, 0x0, .sup⟩
  | .AX_SOFT_POS => ⟨0, 32, .rwp, 0x0, .sup⟩
  | .AX_SW_POS => ⟨0, 32, .rwp, 0x0, .sup⟩
  | .AX_TGT_POS => ⟨0, 32, .rw, 0x0, .sup⟩
  | .AX_CMDPOS_POS => ⟨0, 32, .ro, 0x0, .sup⟩
  | .AX_EST_POS => ⟨0, 32, .ro, 0x0, .sup⟩
  | .AX_PLAUS_FELIM => ⟨0, 16, .rwp, 0x154, .sup⟩
  | .AX_PLAUS_FETIME => ⟨16, 8, .rwp, 0xa, .sup⟩
  | .AX_PLAUS_SETTLE => ⟨24, 8, .rwp, 0x10, .sup⟩
  | .AX_DRIVE_IHOLD => ⟨0, 12, .rwp, 0x0, .sup⟩
  | .AX_DRIVE_IRUN => ⟨12, 12, .rwp, 0x0, .sup⟩
  | .AX_DRIVE_OLIM => ⟨24, 8, .rwp, 0x40, .sup⟩
  | .AX_HOMECFG_VHOME => ⟨0, 12, .rwp, 0x0, .sup⟩
  | .AX_HOMECFG_VLATCH => ⟨12, 12, .rwp, 0x0, .sup⟩
  | .AX_HOMECFG_HTO => ⟨24, 8, .rwp, 0x1e, .sup⟩
  | .AX_HOMEPOS_POS => ⟨0, 32, .rwp, 0x0, .sup⟩
  | .AX_QSCALE_SPC => ⟨0, 16, .rwp, 0x100, .sup⟩
  | .AX_CTL_HOME => ⟨0, 1, .wo, 0x0, .sup⟩
  | .AX_CTL_STOP => ⟨1, 1, .wo, 0x0, .sup⟩
  | .AX_CTL_FCLR => ⟨2, 1, .wo, 0x0, .sup⟩
  | .AX_STAT_STATE => ⟨0, 3, .ro, 0x0, .sup⟩
  | .AX_STAT_MOVING => ⟨3, 1, .ro, 0x0, .sup⟩
  | .AX_STAT_SETTLED => ⟨4, 1, .ro, 0x0, .sup⟩
  | .AX_STAT_LATLO => ⟨5, 1, .ro, 0x0, .sup⟩
  | .AX_STAT_LATHI => ⟨6, 1, .ro, 0x0, .sup⟩
  | .AX_STAT_HOMESW => ⟨7, 1, .ro, 0x0, .sup⟩
  | .AX_STAT_FE => ⟨16, 16, .ro, 0x0, .sup⟩
  | .AX_COEF_C => ⟨0, 32, .rwp, 0x0, .sup⟩
  | .HT_CFG_EN => ⟨0, 1, .rwp, 0x0, .sup⟩
  | .HT_CFG_PLEN => ⟨1, 1, .rwp, 0x1, .sup⟩
  | .HT_CFG_CCOMMIT => ⟨2, 1, .rw, 0x0, .sup⟩
  | .HT_CFG_TREF => ⟨16, 16, .rwp, 0x190, .sup⟩
  | .HT_SP_SP => ⟨0, 16, .rw, 0x0, .sup⟩
  | .HT_TEMP_T => ⟨0, 16, .ro, 0x0, .sup⟩
  | .HT_TEMP_TM => ⟨16, 16, .ro, 0x0, .sup⟩
  | .HT_STAT_SOFT => ⟨0, 1, .ro, 0x0, .sup⟩
  | .HT_STAT_HARD => ⟨1, 1, .ro, 0x0, .sup⟩
  | .HT_STAT_PLAUS => ⟨2, 1, .ro, 0x0, .sup⟩
  | .HT_STAT_DARK => ⟨3, 1, .ro, 0x0, .sup⟩
  | .HT_STAT_STALE => ⟨4, 1, .ro, 0x0, .sup⟩
  | .HT_STAT_DUTY => ⟨16, 16, .ro, 0x0, .sup⟩
  | .HT_COEF_C => ⟨0, 32, .rwp, 0x0, .sup⟩
  | .TR_CFG_LOOP => ⟨0, 7, .rw, 0x0, .sup⟩
  | .TR_CFG_NODE => ⟨8, 4, .rw, 0x0, .sup⟩
  | .TR_CFG_DEC => ⟨16, 8, .rw, 0x1, .sup⟩
  | .TR_CFG_PRE => ⟨24, 8, .rw, 0x0, .sup⟩
  | .TR_TRIG_MODE => ⟨0, 2, .rw, 0x0, .sup⟩
  | .TR_TRIG_EVT => ⟨16, 16, .rw, 0x0, .sup⟩
  | .TR_THR_THR => ⟨0, 32, .rw, 0x0, .sup⟩
  | .TR_STAT_ARM => ⟨0, 1, .wo, 0x0, .sup⟩
  | .TR_STAT_STATE => ⟨1, 2, .ro, 0x0, .sup⟩
  | .TR_STAT_TIDX => ⟨4, 12, .ro, 0x0, .sup⟩
  | .AXP_ERR_RCRC => ⟨0, 16, .ro, 0x0, .sup⟩
  | .AXP_ERR_FAULT => ⟨16, 4, .ro, 0x0, .sup⟩
  | .TR_DATA_S => ⟨0, 32, .ro, 0x0, .sup⟩
  | .AB_CTL_EN => ⟨0, 1, .rwp, 0x1, .sup⟩
  | .AB_CTL_MARGIN => ⟨8, 8, .rwp, 0x14, .sup⟩
  | .AB_CTL_TGT => ⟨16, 8, .rwp, 0x50, .sup⟩
  | .AB_HORIZON_EPOCHS => ⟨0, 12, .rwp, 0x280, .sup⟩
  | .AB_AMAX_A => ⟨0, 32, .rwp, 0x0, .sup⟩
  | .AB_JMAX_J => ⟨0, 32, .rwp, 0x0, .sup⟩
  | .AB_VCFG_V => ⟨0, 32, .rwp, 0x0, .sup⟩
  | .AB_MSLOPE_MSLOPE => ⟨0, 16, .rwp, 0x233, .sup⟩
  | .AB_MSLOPE_PHYST => ⟨16, 16, .rwp, 0x300, .sup⟩
  | .AB_PLIM_CFG => ⟨0, 10, .rwp, 0x190, .sup⟩
  | .AB_PLIM_FLOOR => ⟨10, 10, .rwp, 0xc8, .sup⟩
  | .AB_PLIM_CUR => ⟨20, 10, .ro, 0x190, .sup⟩
  | .AB_PIN_PWR => ⟨0, 16, .ro, 0x0, .sup⟩
  | .AB_PIN_VIN => ⟨16, 16, .ro, 0x0, .sup⟩
  | .AB_CEIL_C => ⟨0, 32, .ro, 0x0, .sup⟩
  | .AB_BIND_SRC => ⟨0, 3, .ro, 0x0, .sup⟩
  | .AB_BIND_BAR => ⟨8, 4, .ro, 0x0, .sup⟩
  | .AB_BIND_WIN => ⟨16, 12, .ro, 0x0, .sup⟩
  | .AB_LADDER_STEP => ⟨0, 3, .ro, 0x0, .sup⟩
  | .AB_LADDER_RCK => ⟨4, 2, .ro, 0x0, .sup⟩
  | .AB_STAT_PWRWARN => ⟨0, 1, .ro, 0x0, .sup⟩
  | .AB_STAT_THROTTLE => ⟨1, 1, .ro, 0x0, .sup⟩
  | .AB_STAT_TWARN => ⟨2, 1, .ro, 0x0, .sup⟩
  | .AB_STAT_OVER => ⟨3, 1, .w1c, 0x0, .sup⟩
  | .AB_STAT_SHORT => ⟨4, 1, .w1c, 0x0, .sup⟩
  | .AB_STAT_UNDERRUN => ⟨5, 1, .w1c, 0x0, .sup⟩
  | .AB_STAT_MODLIM => ⟨6, 1, .ro, 0x0, .sup⟩
  | .AB_EPOCH_N => ⟨0, 32, .ro, 0x0, .sup⟩
  | .AB_EBASE_ADDR => ⟨0, 28, .rwp, 0x0, .sup⟩
  | .AB_HPLIM_MAX => ⟨0, 10, .rwp, 0x3ff, .sup⟩
  | .AB_HPLIM_CUR => ⟨10, 10, .ro, 0x3ff, .sup⟩
  | .AB_HPLIM_STEP => ⟨20, 10, .rwp, 0x1e, .sup⟩
  | .AB_DROP_E => ⟨0, 16, .ro, 0x0, .sup⟩
  | .MEM_CTL_REQ => ⟨0, 1, .rwp, 0x0, .mem⟩
  | .MEM_CTL_CUR => ⟨1, 1, .ro, 0x0, .mem⟩
  | .MEM_CTL_BUSY => ⟨2, 1, .ro, 0x0, .mem⟩
  | .MEM_SCRUB_EN => ⟨0, 1, .rwp, 0x1, .mem⟩
  | .MEM_SCRUB_HOURS => ⟨8, 8, .rwp, 0x18, .mem⟩
  | .MEM_EYEMIN_TAPS => ⟨0, 8, .rwp, 0x18, .mem⟩
  | .MEM_CALCFG_LATE => ⟨0, 16, .rwp, 0x3e8, .mem⟩
  | .MEM_SRAM_CE => ⟨0, 16, .ro, 0x0, .mem⟩
  | .MEM_SRAM_UE => ⟨16, 16, .ro, 0x0, .mem⟩
  | .MEM_CH_STAT_STATE => ⟨0, 3, .ro, 0x0, .mem⟩
  | .MEM_CH_STAT_BAND2X => ⟨3, 1, .ro, 0x0, .mem⟩
  | .MEM_CH_STAT_OWED => ⟨4, 4, .ro, 0x0, .mem⟩
  | .MEM_CH_STAT_CALPEND => ⟨8, 1, .ro, 0x0, .mem⟩
  | .MEM_CH_STAT_STEP => ⟨9, 4, .ro, 0x0, .mem⟩
  | .MEM_TEMP_TD => ⟨0, 16, .ro, 0x0, .mem⟩
  | .MEM_TEMP_TCAL => ⟨16, 16, .ro, 0x0, .mem⟩
  | .MEM_WQ_LEVEL => ⟨0, 7, .ro, 0x0, .mem⟩
  | .MEM_WQ_HIGH => ⟨8, 7, .ro, 0x0, .mem⟩
  | .MEM_WQ_DRAINS => ⟨16, 16, .ro, 0x0, .mem⟩
  | .MEM_CE_N => ⟨0, 32, .ro, 0x0, .mem⟩
  | .MEM_UE_N => ⟨0, 16, .ro, 0x0, .mem⟩
  | .MEM_UE_PPW => ⟨16, 16, .ro, 0x0, .mem⟩
  | .MEM_ELOG_LO_ADDR => ⟨7, 25, .ro, 0x0, .mem⟩
  | .MEM_ELOG_HI_ADDR => ⟨0, 4, .ro, 0x0, .mem⟩
  | .MEM_ELOG_HI_DIE => ⟨4, 4, .ro, 0x0, .mem⟩
  | .MEM_ELOG_HI_UE => ⟨8, 1, .ro, 0x0, .mem⟩
  | .MEM_ELOG_HI_VALID => ⟨31, 1, .w1c, 0x0, .mem⟩
  | .MEM_RMW_N => ⟨0, 32, .ro, 0x0, .mem⟩
  | .MEM_CALCNT_RUNS => ⟨0, 16, .ro, 0x0, .mem⟩
  | .MEM_CALCNT_ABANDON => ⟨16, 16, .ro, 0x0, .mem⟩
  | .MEM_EYE_RD => ⟨0, 8, .ro, 0x0, .mem⟩
  | .MEM_EYE_WR => ⟨8, 8, .ro, 0x0, .mem⟩
  | .MEM_EYE_STALE => ⟨16, 1, .ro, 0x0, .mem⟩
  | .NET_PCFG_EN => ⟨0, 1, .rwp, 0x0, .net⟩
  | .NET_PCFG_MODE => ⟨1, 2, .rwp, 0x0, .net⟩
  | .NET_PCFG_FEC => ⟨3, 2, .rwp, 0x0, .net⟩
  | .NET_PCFG_LINK => ⟨8, 1, .ro, 0x0, .net⟩
  | .XPP_CTL_HBTO => ⟨0, 12, .rwp, 0xfa, .net⟩
  | .XPP_CTL_HBTX => ⟨12, 8, .rwp, 0x32, .net⟩
  | .XPP_CTL_SCEN => ⟨20, 1, .rwp, 0x0, .net⟩
  | .XPP_ID_ID => ⟨0, 32, .rwp, 0x0, .net⟩
  | .XPP_IP_IP => ⟨0, 32, .rwp, 0x0, .net⟩
  | .XPP_PEER_UP => ⟨0, 3, .ro, 0x0, .net⟩
  | .XPP_VLIM_V => ⟨0, 32, .ro, 0xffffffff, .net⟩
  | .XPP_EVMASK_MASK => ⟨0, 12, .rw, 0xeee, .net⟩
  | .XPP_CNT_BAD => ⟨0, 16, .ro, 0x0, .net⟩
  | .XPP_CNT_DUP => ⟨16, 16, .ro, 0x0, .net⟩
  | .XPP_NCNT_NACK => ⟨0, 16, .ro, 0x0, .net⟩
  | .XPP_NCNT_CONFLICT => ⟨16, 16, .ro, 0x0, .net⟩
  | .XPP_DIN_FILT => ⟨0, 8, .rwp, 0xa, .net⟩
  | .XPP_DIN_HOLD => ⟨8, 1, .ro, 0x0, .net⟩
  | .XPP_DIN_INH => ⟨9, 1, .ro, 0x0, .net⟩
  | .XPP_SCEIL_PERIOD => ⟨0, 14, .rwp, 0x3e8, .net⟩
  | .XPP_SCEIL_POL => ⟨14, 1, .rwp, 0x0, .net⟩
  | .XPP_SCFS_FS => ⟨0, 32, .rwp, 0x100000, .net⟩
  | .TB_CTL_SRC => ⟨0, 1, .ro, 0x1, .net⟩
  | .TB_CTL_HOLDOVER => ⟨1, 1, .ro, 0x0, .net⟩
  | .TB_CTL_RELOCK => ⟨8, 8, .rwp, 0xa, .net⟩
  | .TB_NOW_S_S => ⟨0, 32, .ro, 0x0, .net⟩
  | .TB_NOW_NS_NS => ⟨0, 30, .ro, 0x0, .net⟩
  | .TB_NOW_SH_S => ⟨0, 16, .ro, 0x0, .net⟩
  | .TB_RATE_PPB => ⟨0, 32, .ro, 0x0, .net⟩
  | .TB_FBINC_LO_FRAC => ⟨0, 32, .ro, 0x0, .net⟩
  | .TB_FBINC_HI_INT => ⟨0, 32, .ro, 0x4, .net⟩
  | .TB_XTAL_PPB => ⟨0, 16, .rwp, 0x0, .net⟩
  | .PTP_CFG_EN => ⟨0, 1, .rwp, 0x0, .net⟩
  | .PTP_CFG_ROLE => ⟨1, 2, .rwp, 0x0, .net⟩
  | .PTP_CFG_PORT => ⟨3, 1, .rwp, 0x0, .net⟩
  | .PTP_CFG_MGFB => ⟨4, 1, .rwp, 0x0, .net⟩
  | .PTP_CFG_TRANS => ⟨5, 1, .rwp, 0x0, .net⟩
  | .PTP_CFG_DELAY => ⟨6, 1, .rwp, 0x0, .net⟩
  | .PTP_CFG_DOMAIN => ⟨8, 7, .rwp, 0x0, .net⟩
  | .PTP_PRIO_PRIO1 => ⟨0, 8, .rwp, 0x80, .net⟩
  | .PTP_PRIO_PRIO2 => ⟨8, 8, .rwp, 0x80, .net⟩
  | .PTP_PRIO_CLASS => ⟨16, 8, .rwp, 0xf8, .net⟩
  | .PTP_PRIO_ACC => ⟨24, 8, .rwp, 0xfe, .net⟩
  | .PTP_INTV_SYNC => ⟨0, 4, .rwp, 0x0, .net⟩
  | .PTP_INTV_ANN => ⟨4, 4, .rwp, 0x1, .net⟩
  | .PTP_INTV_DREQ => ⟨8, 4, .rwp, 0x0, .net⟩
  | .PTP_INTV_ARTO => ⟨12, 4, .rwp, 0x3, .net⟩
  | .PTP_LAT_TX => ⟨0, 16, .rwp, 0x0, .net⟩
  | .PTP_LAT_RX => ⟨16, 16, .rwp, 0x0, .net⟩
  | .PTP_STAT_PSTATE => ⟨0, 4, .ro, 0x1, .net⟩
  | .PTP_STAT_LOCK => ⟨4, 1, .ro, 0x0, .net⟩
  | .PTP_STAT_SRCPORT => ⟨5, 2, .ro, 0x0, .net⟩
  | .PTP_STAT_GMCHG => ⟨16, 16, .ro, 0x0, .net⟩
  | .PTP_OFS_NS => ⟨0, 32, .ro, 0x0, .net⟩
  | .PTP_MPD_NS => ⟨0, 32, .ro, 0x0, .net⟩
  | .RING_CFG_EN => ⟨0, 1, .rwp, 0x0, .sup⟩
  | .RING_CFG_ID => ⟨1, 3, .rwp, 0x0, .sup⟩
  | .RING_CFG_DOWNHOLD => ⟨4, 1, .rwp, 0x1, .sup⟩
  | .RING_CFG_LOSTHOLD => ⟨5, 1, .rwp, 0x1, .sup⟩
  | .RING_CFG_DOWNTO => ⟨8, 8, .rwp, 0x19, .sup⟩
  | .RING_CFG_SLEAD => ⟨16, 4, .rwp, 0x2, .sup⟩
  | .RING_CFG_TTOL => ⟨24, 4, .rwp, 0x2, .sup⟩
  | .RING_STAT_UP => ⟨0, 1, .ro, 0x0, .sup⟩
  | .RING_STAT_MASTER => ⟨1, 1, .ro, 0x0, .sup⟩
  | .RING_STAT_MID => ⟨4, 3, .ro, 0x0, .sup⟩
  | .RING_STAT_RELAY => ⟨7, 1, .ro, 0x0, .sup⟩
  | .RING_STAT_MEMBERS => ⟨8, 8, .ro, 0x0, .sup⟩
  | .RING_STAT_HOLDSRC => ⟨16, 8, .ro, 0x0, .sup⟩
  | .RING_STAT_DUP => ⟨24, 1, .w1c, 0x0, .sup⟩
  | .RING_PLS_O => ⟨0, 32, .ro, 0x0, .sup⟩
  | .RING_RT_NS => ⟨0, 32, .ro, 0x0, .sup⟩
  | .RING_CL_S_S => ⟨0, 32, .ro, 0x0, .sup⟩
  | .RING_CL_LO_C => ⟨0, 32, .ro, 0x0, .sup⟩
  | .RING_CL_HI_C => ⟨0, 16, .ro, 0x0, .sup⟩
  | .RING_CNT_CRC => ⟨0, 16, .ro, 0x0, .sup⟩
  | .RING_CNT_GAPS => ⟨16, 16, .ro, 0x0, .sup⟩
  | .DMA_CTL_RETRY => ⟨0, 3, .rwp, 0x3, .sup⟩
  | .DMA_HALT_LO_HALT => ⟨0, 32, .w1c, 0x0, .sup⟩
  | .DMA_HALT_HI_HALT => ⟨0, 16, .w1c, 0x0, .sup⟩
  | .DMA_RBASE_LO_ADDR => ⟨6, 26, .rwp, 0x0, .sup⟩
  | .DMA_RBASE_HI_ADDR => ⟨0, 4, .rwp, 0x0, .sup⟩
  | .DMA_RCFG_EN => ⟨0, 1, .rwp, 0x0, .sup⟩
  | .DMA_RCFG_IRQEN => ⟨1, 1, .rw, 0x0, .sup⟩
  | .DMA_RCFG_SIZE => ⟨4, 4, .rwp, 0x0, .sup⟩
  | .DMA_RHEAD_IDX => ⟨0, 19, .ro, 0x0, .sup⟩
  | .DMA_RTAIL_IDX => ⟨0, 19, .rw, 0x0, .sup⟩

/-- A register or register array: base byte address, counts, first indices and strides of its (at most two) indices, its
domain and its fields in ascending place. A count of 1 with stride 0 is no index. -/
structure RegInfo where
  addr : Nat
  ic : Nat
  ilo : Nat
  istr : Nat
  jc : Nat
  jlo : Nat
  jstr : Nat
  dom : Dom
  fields : List Fld
  deriving DecidableEq, Repr

/-- Registers of block Aon (Table 17-7). -/
def regsAon : List RegInfo :=
  [ ⟨0x0, 1, 0, 0, 1, 0, 0, .aon, [.AON_ID_VARIANT, .AON_ID_STEP, .AON_ID_DEVID]⟩,
    ⟨0x4, 1, 0, 0, 1, 0, 0, .aon, [.AON_STATE_STATE, .AON_STATE_HOLDC, .AON_STATE_STOPREQ]⟩,
    ⟨0x100, 4, 0, 4, 1, 0, 0, .aon, [.AON_EVPEND_PEND]⟩,
    ⟨0x110, 1, 0, 0, 1, 0, 0, .aon, [.AON_RIRQ_LO_RING]⟩,
    ⟨0x114, 1, 0, 0, 1, 0, 0, .aon, [.AON_RIRQ_HI_RING]⟩,
    ⟨0x118, 1, 0, 0, 1, 0, 0, .aon, [.AON_IRQ_EV, .AON_IRQ_RING, .AON_IRQ_HALT, .AON_IRQ_PV, .AON_IRQ_BUS]⟩,
    ⟨0x120, 2, 0, 4, 1, 0, 0, .aon, [.AON_IMASK_EN]⟩,
    ⟨0x128, 1, 0, 0, 1, 0, 0, .aon, [.AON_EVLOST_N]⟩,
    ⟨0x130, 1, 0, 0, 1, 0, 0, .aon, [.AON_BUSERR_LVL, .AON_BUSERR_WR, .AON_BUSERR_CAUSE, .AON_BUSERR_VALID]⟩,
    ⟨0x134, 1, 0, 0, 1, 0, 0, .aon, [.AON_BUSERR_ADDR_ADDR]⟩,
    ⟨0x200, 1, 0, 0, 1, 0, 0, .aon, [.AON_PDSTAT_ON]⟩,
    ⟨0x400, 1, 0, 0, 1, 0, 0, .aon, [.AON_TDEM_DEM, .AON_TDEM_BUSY]⟩,
    ⟨0x404, 10, 0, 4, 1, 0, 0, .aon, [.AON_TEMP_T, .AON_TEMP_VALID]⟩,
    ⟨0x440, 1, 0, 0, 1, 0, 0, .aon, [.AON_PWR_WARN, .AON_PWR_SEEN, .AON_PWR_VMIN]⟩ ]

/-- Registers of block Crown (Table 17-7). -/
def regsCrown : List RegInfo :=
  [ ⟨0x10000, 1, 0, 0, 1, 0, 0, .aon, [.CR_STAT_IMG, .CR_STAT_FAILREC, .CR_STAT_FAILCHK, .CR_STAT_RSTCAUSE]⟩,
    ⟨0x10004, 1, 0, 0, 1, 0, 0, .aon, [.CR_IMGVER_VER]⟩,
    ⟨0x10008, 1, 0, 0, 1, 0, 0, .aon, [.CR_BOOTCNT_N]⟩,
    ⟨0x1000c, 1, 0, 0, 1, 0, 0, .aon, [.CR_XSPI_MODE, .CR_XSPI_SCK]⟩,
    ⟨0x10010, 1, 0, 0, 1, 0, 0, .aon, [.CR_BOOTSEL_BACKUP, .CR_BOOTSEL_RESTART]⟩,
    ⟨0x10014, 1, 0, 0, 1, 0, 0, .aon, [.CR_PRES_PRES, .CR_PRES_SESSION, .CR_PRES_SPAN, .CR_PRES_LOCK, .CR_PRES_DBG]⟩,
    ⟨0x10018, 1, 0, 0, 1, 0, 0, .aon, [.CR_LOG_BASE_SECT, .CR_LOG_BASE_COUNT]⟩,
    ⟨0x1001c, 1, 0, 0, 1, 0, 0, .aon, [.CR_LOG_WP_OFS]⟩,
    ⟨0x10020, 1, 0, 0, 1, 0, 0, .aon, [.CR_FWBASE_ADDR]⟩ ]

/-- Registers of block Noc (Table 17-7). -/
def regsNoc : List RegInfo :=
  [ ⟨0x100000, 32, 0, 16, 1, 0, 0, .sup, [.NOC_PR_BASE_BASE]⟩,
    ⟨0x100004, 32, 0, 16, 1, 0, 0, .sup, [.NOC_PR_LIM_LIM]⟩,
    ⟨0x100008, 32, 0, 16, 1, 0, 0, .sup, [.NOC_PR_ATTR_EN, .NOC_PR_ATTR_SPACE, .NOC_PR_ATTR_RLVL, .NOC_PR_ATTR_WLVL]⟩,
    ⟨0x100200, 1, 0, 0, 1, 0, 0, .sup, [.NOC_PV_LVL, .NOC_PV_WR, .NOC_PV_SPACE, .NOC_PV_REGION, .NOC_PV_VALID]⟩,
    ⟨0x100204, 1, 0, 0, 1, 0, 0, .sup, [.NOC_PV_ADDR_ADDR]⟩ ]

/-- Registers of block Rkc (Table 17-7). -/
def regsRkc : List RegInfo :=
  [ ⟨0x200000, 1, 0, 0, 1, 0, 0, .sup, [.RKC_CTL_STEAL_EN, .RKC_CTL_WDOG]⟩,
    ⟨0x200004, 1, 0, 0, 1, 0, 0, .sup, [.RKC_ACTIVE_ACT, .RKC_ACTIVE_COUNT]⟩,
    ⟨0x200008, 1, 0, 0, 1, 0, 0, .sup, [.RKC_MITTEN_MIT]⟩,
    ⟨0x20000c, 1, 0, 0, 1, 0, 0, .sup, [.RKC_SHED_QUAD]⟩,
    ⟨0x200010, 1, 0, 0, 1, 0, 0, .sup, [.RKC_COSTCFG_BASE, .RKC_COSTCFG_CACHE]⟩,
    ⟨0x200014, 1, 0, 0, 1, 0, 0, .sup, [.RKC_DEFCOST_COST]⟩,
    ⟨0x200020, 1, 0, 0, 1, 0, 0, .sup, [.RKC_CMP_MISMATCH, .RKC_CMP_NOMAJ]⟩,
    ⟨0x200100, 16, 0, 4, 1, 0, 0, .sup, [.RKC_STRIKE_TOTAL, .RKC_STRIKE_LAST, .RKC_STRIKE_PENDING]⟩,
    ⟨0x200200, 16, 0, 4, 1, 0, 0, .sup, [.RKC_BUSY_CYC]⟩ ]

/-- Registers of block Dose (Table 17-7). -/
def regsDose : List RegInfo :=
  [ ⟨0x300000, 16, 0, 4096, 1, 0, 0, .dose, [.DP_CFG_EN, .DP_CFG_GANG, .DP_CFG_LEVELS, .DP_CFG_LATCOMP]⟩,
    ⟨0x300004, 16, 0, 4096, 1, 0, 0, .dose, [.DP_GEOM_HEADS, .DP_GEOM_SLOT0, .DP_GEOM_CUFF]⟩,
    ⟨0x300008, 16, 0, 4096, 1, 0, 0, .dose, [.DP_SHIFT_NEXT, .DP_SHIFT_CUR]⟩,
    ⟨0x30000c, 16, 0, 4096, 1, 0, 0, .dose, [.DP_SCREEN_XOFS, .DP_SCREEN_YOFS, .DP_SCREEN_TW, .DP_SCREEN_TH]⟩,
    ⟨0x300010, 16, 0, 4096, 1, 0, 0, .dose, [.DP_SPIT_CODE, .DP_SPIT_DIV, .DP_SPIT_LINES, .DP_SPIT_OFS]⟩,
    ⟨0x300014, 16, 0, 4096, 1, 0, 0, .dose, [.DP_SPIT_IMG_EN, .DP_SPIT_IMG_PERIOD, .DP_SPIT_IMG_STEP]⟩,
    ⟨0x300018, 16, 0, 4096, 1, 0, 0, .dose, [.DP_RODQ_COUNT, .DP_RODQ_COMMIT, .DP_RODQ_RELEASE, .DP_RODQ_RETAINED]⟩,
    ⟨0x30001c, 16, 0, 4096, 1, 0, 0, .dose, [.DP_RODQ_IDX_CH]⟩,
    ⟨0x300020, 16, 0, 4096, 1, 0, 0, .dose, [.DP_RODQ_DATA_ROD]⟩,
    ⟨0x300024, 16, 0, 4096, 1, 0, 0, .dose, [.DP_RODV_VER]⟩,
    ⟨0x300028, 16, 0, 4096, 1, 0, 0, .dose, [.DP_RODM_ADDR]⟩,
    ⟨0x300030, 16, 0, 4096, 1, 0, 0, .dose, [.DP_CHECK_REDOSE, .DP_CHECK_FAIL, .DP_CHECK_POISON]⟩,
    ⟨0x300034, 16, 0, 4096, 1, 0, 0, .dose, [.DP_SHORT_SUM]⟩,
    ⟨0x300038, 16, 0, 4096, 1, 0, 0, .dose, [.DP_ERR_WWRITE, .DP_ERR_QOVF, .DP_ERR_CREF]⟩,
    ⟨0x30003c, 16, 0, 4096, 1, 0, 0, .dose, [.DP_BRIM_PHASE_NEXT, .DP_BRIM_PHASE_CUR]⟩,
    ⟨0x300100, 16, 0, 4096, 16, 0, 4, .dose, [.DP_GLOVE_W1, .DP_GLOVE_W2]⟩,
    ⟨0x300200, 16, 0, 4096, 8, 0, 8, .dose, [.DP_BRIM_A_KIND, .DP_BRIM_A_CODE, .DP_BRIM_A_HEADS, .DP_BRIM_A_OFS]⟩,
    ⟨0x300204, 16, 0, 4096, 8, 0, 8, .dose, [.DP_BRIM_B_X0, .DP_BRIM_B_LINES, .DP_BRIM_B_X1D]⟩ ]

/-- Registers of block RodWindow (Table 17-7). -/
def regsRodWindow : List RegInfo :=
  [ ⟨0x400000, 262144, 0, 4, 1, 0, 0, .dose, [.ROD_ROD]⟩ ]

/-- Registers of block Runway (Table 17-7). -/
def regsRunway : List RegInfo :=
  [ ⟨0x500000, 1, 0, 0, 1, 0, 0, .dose, [.RW_POOL_COUNT]⟩,
    ⟨0x500004, 1, 0, 0, 1, 0, 0, .dose, [.RW_LEAD_COUNTS]⟩,
    ⟨0x500008, 1, 0, 0, 1, 0, 0, .dose, [.RW_LEADBAR_BAR]⟩,
    ⟨0x50000c, 1, 0, 0, 1, 0, 0, .dose, [.RW_LEADREQ_COUNTS]⟩,
    ⟨0x500010, 1, 0, 0, 1, 0, 0, .dose, [.RW_LEADTGT_COUNTS]⟩,
    ⟨0x500014, 1, 0, 0, 1, 0, 0, .dose, [.RW_XCFG_LEVEL, .RW_XCFG_AUTO, .RW_XCFG_EFF, .RW_XCFG_DMARGIN]⟩,
    ⟨0x500018, 1, 0, 0, 1, 0, 0, .dose, [.RW_RATIO_RATIO]⟩,
    ⟨0x50001c, 1, 0, 0, 1, 0, 0, .dose, [.RW_XCNT_REVERIFY, .RW_XCNT_FAIL]⟩,
    ⟨0x501000, 16, 0, 64, 1, 0, 0, .dose, [.RW_PL_BASE_ADDR]⟩,
    ⟨0x501004, 16, 0, 64, 1, 0, 0, .dose, [.RW_PL_TAIL_IDX]⟩,
    ⟨0x501008, 16, 0, 64, 1, 0, 0, .dose, [.RW_PL_WR_IDX]⟩,
    ⟨0x50100c, 16, 0, 64, 1, 0, 0, .dose, [.RW_PL_RD_IDX]⟩,
    ⟨0x501010, 16, 0, 64, 1, 0, 0, .dose, [.RW_XSTAT_STOPPED, .RW_XSTAT_WAITSLOT, .RW_XSTAT_WAITTGT, .RW_XSTAT_STOPS]⟩,
    ⟨0x501014, 16, 0, 64, 1, 0, 0, .dose, [.RW_XIN_BYTES]⟩,
    ⟨0x501018, 16, 0, 64, 1, 0, 0, .dose, [.RW_XOUT_BYTES]⟩,
    ⟨0x50101c, 16, 0, 64, 1, 0, 0, .dose, [.RW_BLEAD_COUNTS]⟩,
    ⟨0x501020, 16, 0, 64, 1, 0, 0, .dose, [.RW_CFG_START_PAGES]⟩,
    ⟨0x501024, 16, 0, 64, 1, 0, 0, .dose, [.RW_SKIP_JN_JN]⟩,
    ⟨0x501028, 16, 0, 64, 1, 0, 0, .dose, [.RW_SKIP_LINE_LINE]⟩,
    ⟨0x50102c, 16, 0, 64, 1, 0, 0, .dose, [.RW_SKIP_CTL_ARM]⟩ ]

/-- Registers of block Fire (Table 17-7). -/
def regsFire : List RegInfo :=
  [ ⟨0x600000, 1, 0, 0, 1, 0, 0, .sup, [.FIRE_CTL_EN, .FIRE_CTL_DIR, .FIRE_CTL_BACKLASH]⟩,
    ⟨0x600004, 1, 0, 0, 1, 0, 0, .sup, [.FIRE_ENC_MODE, .FIRE_ENC_IDXEN, .FIRE_ENC_LINECHK, .FIRE_ENC_FILT, .FIRE_ENC_IFILT]⟩,
    ⟨0x600008, 1, 0, 0, 1, 0, 0, .sup, [.FIRE_CPR_CPR]⟩,
    ⟨0x60000c, 1, 0, 0, 1, 0, 0, .sup, [.FIRE_IDXCFG_TOL, .FIRE_IDXCFG_SLIPN, .FIRE_IDXCFG_SLIPREV]⟩,
    ⟨0x600010, 1, 0, 0, 1, 0, 0, .sup, [.FIRE_SPDCFG_WIN, .FIRE_SPDCFG_STILL]⟩,
    ⟨0x600014, 1, 0, 0, 1, 0, 0, .sup, [.FIRE_VMIN_COUNTS]⟩,
    ⟨0x600018, 1, 0, 0, 1, 0, 0, .sup, [.FIRE_LEAD_NS]⟩,
    ⟨0x60001c, 1, 0, 0, 1, 0, 0, .sup, [.FIRE_GAP_COUNTS]⟩,
    ⟨0x600020, 1, 0, 0, 1, 0, 0, .sup, [.FIRE_CPM_CPM]⟩,
    ⟨0x600028, 1, 0, 0, 1, 0, 0, .sup, [.FIRE_CNT_LO_C]⟩,
    ⟨0x60002c, 1, 0, 0, 1, 0, 0, .sup, [.FIRE_CNT_HI_C]⟩,
    ⟨0x600030, 1, 0, 0, 1, 0, 0, .sup, [.FIRE_POS_LO_F]⟩,
    ⟨0x600034, 1, 0, 0, 1, 0, 0, .sup, [.FIRE_POS_HI_F]⟩,
    ⟨0x600038, 1, 0, 0, 1, 0, 0, .sup, [.FIRE_SPEED_V]⟩,
    ⟨0x60003c, 1, 0, 0, 1, 0, 0, .sup, [.FIRE_SPDSTAT_STATUS, .FIRE_SPDSTAT_DIR, .FIRE_SPDSTAT_DECAY, .FIRE_SPDSTAT_MODE]⟩,
    ⟨0x600040, 1, 0, 0, 1, 0, 0, .sup, [.FIRE_ACCEL_A]⟩,
    ⟨0x600044, 1, 0, 0, 1, 0, 0, .sup, [.FIRE_IDXREF_LO_X]⟩,
    ⟨0x600048, 1, 0, 0, 1, 0, 0, .sup, [.FIRE_IDXREF_HI_X, .FIRE_IDXREF_HI_SET]⟩,
    ⟨0x60004c, 1, 0, 0, 1, 0, 0, .sup, [.FIRE_IDXDEV_DEV, .FIRE_IDXDEV_WINEV]⟩,
    ⟨0x600050, 1, 0, 0, 1, 0, 0, .sup, [.FIRE_SLIPSUM_SUM]⟩,
    ⟨0x600054, 1, 0, 0, 1, 0, 0, .sup, [.FIRE_SLIPCNT_SLIPS, .FIRE_SLIPCNT_ILLEGAL]⟩,
    ⟨0x600058, 1, 0, 0, 1, 0, 0, .sup, [.FIRE_STAT_REV, .FIRE_STAT_SLIP, .FIRE_STAT_NOIDX, .FIRE_STAT_ILLEGAL, .FIRE_STAT_LINE, .FIRE_STAT_LATE, .FIRE_STAT_SLIPSTOP]⟩,
    ⟨0x60005c, 1, 0, 0, 1, 0, 0, .sup, [.FIRE_AMCNT_AMEND, .FIRE_AMCNT_LATE]⟩,
    ⟨0x600100, 16, 0, 4, 1, 0, 0, .sup, [.FIRE_BAROFS_OFS]⟩,
    ⟨0x600140, 16, 0, 4, 1, 0, 0, .sup, [.FIRE_TRIM_NEXT, .FIRE_TRIM_CUR]⟩,
    ⟨0x600200, 64, 0, 4, 1, 0, 0, .sup, [.FIRE_HOFS_OFS]⟩,
    ⟨0x600400, 4, 0, 32, 1, 0, 0, .sup, [.FIRE_PL_JN_JN]⟩,
    ⟨0x600404, 4, 0, 32, 1, 0, 0, .sup, [.FIRE_PL_ORGF_FRAC]⟩,
    ⟨0x600408, 4, 0, 32, 1, 0, 0, .sup, [.FIRE_PL_ORGL_INT]⟩,
    ⟨0x60040c, 4, 0, 32, 1, 0, 0, .sup, [.FIRE_PL_ORGH_INT, .FIRE_PL_ORGH_VALID]⟩,
    ⟨0x600410, 4, 0, 32, 1, 0, 0, .sup, [.FIRE_PL_PITF_FRAC]⟩,
    ⟨0x600414, 4, 0, 32, 1, 0, 0, .sup, [.FIRE_PL_PITI_INT]⟩,
    ⟨0x600418, 4, 0, 32, 1, 0, 0, .sup, [.FIRE_PL_LINES_L]⟩,
    ⟨0x600600, 16, 0, 8, 1, 0, 0, .sup, [.FIRE_DUE_JN_JN]⟩,
    ⟨0x600604, 16, 0, 8, 1, 0, 0, .sup, [.FIRE_DUE_LINE_LINE]⟩ ]

/-- Registers of block Zanlink (Table 17-7). -/
def regsZanlink : List RegInfo :=
  [ ⟨0x700000, 64, 0, 1024, 1, 0, 0, .za, [.ZL_CFG_EN, .ZL_CFG_GEN, .ZL_CFG_AHEAD, .ZL_CFG_ECHOTO, .ZL_CFG_STTO]⟩,
    ⟨0x700004, 64, 0, 1024, 1, 0, 0, .za, [.ZL_STAT_STATE, .ZL_STAT_LOCK, .ZL_STAT_FARLOCK, .ZL_STAT_FARGEN, .ZL_STAT_LOOP, .ZL_STAT_HDPRES, .ZL_STAT_EEOK, .ZL_STAT_LOSSES]⟩,
    ⟨0x700008, 64, 0, 1024, 1, 0, 0, .za, [.ZL_LAT_DELAY, .ZL_LAT_LAT]⟩,
    ⟨0x70000c, 64, 0, 1024, 1, 0, 0, .za, [.ZL_OFS_THETA, .ZL_OFS_BEACON]⟩,
    ⟨0x700010, 64, 0, 1024, 1, 0, 0, .za, [.ZL_LPCTL_TXS, .ZL_LPCTL_RXS, .ZL_LPCTL_PARK, .ZL_LPCTL_CUR]⟩,
    ⟨0x700014, 64, 0, 1024, 1, 0, 0, .za, [.ZL_LOOP_MODE, .ZL_LOOP_TEST]⟩,
    ⟨0x700018, 64, 0, 1024, 1, 0, 0, .za, [.ZL_LOOPERR_BITS]⟩,
    ⟨0x70001c, 64, 0, 1024, 1, 0, 0, .za, [.ZL_FERR_RXBAD, .ZL_FERR_RESENT]⟩,
    ⟨0x700020, 64, 0, 1024, 1, 0, 0, .za, [.ZL_ECHO_MISMATCH, .ZL_ECHO_TIMEOUT, .ZL_ECHO_NODATA, .ZL_ECHO_LATE]⟩,
    ⟨0x700024, 64, 0, 1024, 1, 0, 0, .za, [.ZL_HEAD_THERM, .ZL_HEAD_FLAGS]⟩,
    ⟨0x700028, 64, 0, 1024, 1, 0, 0, .za, [.ZL_EE_DONE, .ZL_EE_CRCOK, .ZL_EE_MATCH, .ZL_EE_RANK, .ZL_EE_NDEAD]⟩,
    ⟨0x710000, 1, 0, 0, 1, 0, 0, .za, [.ZL_CTL_HREF_EN, .ZL_CTL_SPREAD, .ZL_CTL_RECOV]⟩,
    ⟨0x710004, 1, 0, 0, 1, 0, 0, .za, [.ZL_TIMED_LO_TIMED]⟩,
    ⟨0x710008, 1, 0, 0, 1, 0, 0, .za, [.ZL_TIMED_HI_TIMED]⟩,
    ⟨0x71000c, 1, 0, 0, 1, 0, 0, .za, [.ZL_INC_LO_FRAC]⟩,
    ⟨0x710010, 1, 0, 0, 1, 0, 0, .za, [.ZL_INC_HI_INT]⟩ ]

/-- Registers of block Tally (Table 17-7). -/
def regsTally : List RegInfo :=
  [ ⟨0x800010, 1, 0, 0, 1, 0, 0, .sup, [.SP_WASTE_OFS_COUNTS]⟩,
    ⟨0x800014, 1, 0, 0, 1, 0, 0, .sup, [.SP_WASTE_CTL_MODE, .SP_WASTE_CTL_POL, .SP_WASTE_CTL_WIDTH, .SP_WASTE_CTL_ADV]⟩,
    ⟨0x800018, 1, 0, 0, 1, 0, 0, .sup, [.SP_SPRCFG_FLUSH]⟩,
    ⟨0x800020, 1, 0, 0, 1, 0, 0, .sup, [.SP_STAT_OVF, .SP_STAT_EARLY, .SP_STAT_LATE, .SP_STAT_TOWN, .SP_STAT_DEC, .SP_STAT_PTPOI]⟩,
    ⟨0x800024, 1, 0, 0, 1, 0, 0, .sup, [.SP_PTAB_USED, .SP_PTAB_HIGH]⟩,
    ⟨0x800028, 1, 0, 0, 1, 0, 0, .sup, [.SP_GOOD_N]⟩,
    ⟨0x80002c, 1, 0, 0, 1, 0, 0, .sup, [.SP_SPOILED_N]⟩,
    ⟨0x800030, 1, 0, 0, 1, 0, 0, .sup, [.SP_RECLOST_N]⟩,
    ⟨0x800040, 1, 0, 0, 1, 0, 0, .za, [.TALLY_CTX_CTX, .TALLY_CTX_BUSY, .TALLY_CTX_OWNED]⟩,
    ⟨0x800044, 3, 0, 4, 1, 0, 0, .za, [.TALLY_FOLD_V]⟩,
    ⟨0x800050, 1, 0, 0, 1, 0, 0, .za, [.TALLY_IN_B_D]⟩,
    ⟨0x800054, 1, 0, 0, 1, 0, 0, .za, [.TALLY_IN_H_D]⟩,
    ⟨0x800058, 1, 0, 0, 1, 0, 0, .za, [.TALLY_IN_W_D]⟩,
    ⟨0x80005c, 1, 0, 0, 1, 0, 0, .za, [.TALLY_RES_CRC]⟩,
    ⟨0x800104, 15, 1, 4, 1, 0, 0, .sup, [.SP_RCNT_N]⟩,
    ⟨0x800200, 64, 0, 4, 1, 0, 0, .za, [.TALLY_VAL_STATE]⟩ ]

/-- Registers of block Vision (Table 17-7). -/
def regsVision : List RegInfo :=
  [ ⟨0x900000, 4, 0, 4096, 1, 0, 0, .vis, [.VIS_CFG_EN, .VIS_CFG_LANES, .VIS_CFG_FMT, .VIS_CFG_MERGE, .VIS_CFG_LAT, .VIS_CFG_OVERLAP, .VIS_CFG_VC0, .VIS_CFG_VC1, .VIS_CFG_SEN, .VIS_CFG_S0SRC, .VIS_CFG_I2CSPD]⟩,
    ⟨0x900004, 4, 0, 4096, 1, 0, 0, .vis, [.VIS_GEOM_WIDTH, .VIS_GEOM_HEIGHT]⟩,
    ⟨0x900008, 4, 0, 4096, 1, 0, 0, .vis, [.VIS_TRIG_LO_POS]⟩,
    ⟨0x90000c, 4, 0, 4096, 1, 0, 0, .vis, [.VIS_TRIG_HI_POS, .VIS_TRIG_HI_DEPTH]⟩,
    ⟨0x900010, 4, 0, 4096, 1, 0, 0, .vis, [.VIS_STROBE_DLY, .VIS_STROBE_TRIGW, .VIS_STROBE_TPOL, .VIS_STROBE_SPOL]⟩,
    ⟨0x900014, 4, 0, 4096, 1, 0, 0, .vis, [.VIS_ESCTL_SLOT, .VIS_ESCTL_COMMIT, .VIS_ESCTL_CURSTR, .VIS_ESCTL_CURSEN]⟩,
    ⟨0x900020, 4, 0, 4096, 8, 0, 8, .vis, [.VIS_ESA_ESID, .VIS_ESA_WIDTH]⟩,
    ⟨0x900024, 4, 0, 4096, 8, 0, 8, .vis, [.VIS_ESB_RATIO, .VIS_ESB_I2C0, .VIS_ESB_I2CN]⟩,
    ⟨0x900060, 4, 0, 4096, 1, 0, 0, .vis, [.VIS_I2CDEV_ADDR, .VIS_I2CDEV_AW16, .VIS_I2CDEV_DW16, .VIS_I2CDEV_RETRY]⟩,
    ⟨0x900064, 4, 0, 4096, 1, 0, 0, .vis, [.VIS_TO_FTO, .VIS_TO_LGTO]⟩,
    ⟨0x900070, 4, 0, 4096, 4, 0, 4, .vis, [.VIS_WIN_Y0, .VIS_WIN_Y1, .VIS_WIN_EN]⟩,
    ⟨0x900080, 4, 0, 4096, 1, 0, 0, .vis, [.VIS_FFBASE_ADDR]⟩,
    ⟨0x900084, 4, 0, 4096, 1, 0, 0, .vis, [.VIS_CAL_START, .VIS_CAL_ACTIVE, .VIS_CAL_VER]⟩,
    ⟨0x900090, 4, 0, 4096, 1, 0, 0, .vis, [.VIS_STAT_STATE, .VIS_STAT_DROP, .VIS_STAT_TIMEOUT, .VIS_STAT_SKIP, .VIS_STAT_CRC, .VIS_STAT_I2C, .VIS_STAT_NOBUF, .VIS_STAT_GEOM]⟩,
    ⟨0x900094, 4, 0, 4096, 1, 0, 0, .vis, [.VIS_FRAME_FRAMEID]⟩,
    ⟨0x900098, 4, 0, 4096, 1, 0, 0, .vis, [.VIS_CNT_DROPS, .VIS_CNT_TIMEOUTS]⟩,
    ⟨0x900400, 4, 0, 4096, 768, 0, 4, .vis, [.VIS_PARM_W]⟩,
    ⟨0x908000, 1, 0, 0, 1, 0, 0, .vis, [.VIS_ARB_W]⟩,
    ⟨0x909000, 1, 0, 0, 1, 0, 0, .sup, [.VL_CTL_NZEN, .VL_CTL_REGEN, .VL_CTL_HANDEN, .VL_CTL_FREEZE]⟩,
    ⟨0x909004, 1, 0, 0, 1, 0, 0, .sup, [.VL_DEAD_N]⟩,
    ⟨0x909008, 1, 0, 0, 1, 0, 0, .sup, [.VL_WEAK_N]⟩,
    ⟨0x90900c, 1, 0, 0, 1, 0, 0, .sup, [.VL_CYCLE_PHASE, .VL_CYCLE_CYCLES]⟩,
    ⟨0x909010, 1, 0, 0, 1, 0, 0, .sup, [.VL_HAND_HSTEP, .VL_HAND_HCUR, .VL_HAND_HGUARD]⟩,
    ⟨0x909100, 16, 0, 4, 1, 0, 0, .sup, [.VL_LAT_SH, .VL_LAT_ACT]⟩,
    ⟨0x909140, 16, 0, 4, 1, 0, 0, .sup, [.VL_DW_D]⟩ ]

/-- Registers of block Axes (Table 17-7). -/
def regsAxes : List RegInfo :=
  [ ⟨0xa00000, 16, 0, 128, 1, 0, 0, .sup, [.AX_CFG_EN, .AX_CFG_FB, .AX_CFG_DRV, .AX_CFG_COMP, .AX_CFG_HOMELIM, .AX_CFG_HDIR, .AX_CFG_INV, .AX_CFG_CCOMMIT, .AX_CFG_EOFS]⟩,
    ⟨0xa00004, 16, 0, 128, 1, 0, 0, .sup, [.AX_SCALE_PM]⟩,
    ⟨0xa00008, 16, 0, 128, 4, 0, 4, .sup, [.AX_KIN_LIM]⟩,
    ⟨0xa00018, 16, 0, 128, 2, 0, 4, .sup, [.AX_SOFT_POS]⟩,
    ⟨0xa00020, 16, 0, 128, 2, 0, 4, .sup, [.AX_SW_POS]⟩,
    ⟨0xa00028, 16, 0, 128, 1, 0, 0, .sup, [.AX_TGT_POS]⟩,
    ⟨0xa0002c, 16, 0, 128, 1, 0, 0, .sup, [.AX_CMDPOS_POS]⟩,
    ⟨0xa00030, 16, 0, 128, 1, 0, 0, .sup, [.AX_EST_POS]⟩,
    ⟨0xa00034, 16, 0, 128, 1, 0, 0, .sup, [.AX_PLAUS_FELIM, .AX_PLAUS_FETIME, .AX_PLAUS_SETTLE]⟩,
    ⟨0xa00038, 16, 0, 128, 1, 0, 0, .sup, [.AX_DRIVE_IHOLD, .AX_DRIVE_IRUN, .AX_DRIVE_OLIM]⟩,
    ⟨0xa0003c, 16, 0, 128, 1, 0, 0, .sup, [.AX_HOMECFG_VHOME, .AX_HOMECFG_VLATCH, .AX_HOMECFG_HTO]⟩,
    ⟨0xa00040, 16, 0, 128, 1, 0, 0, .sup, [.AX_HOMEPOS_POS]⟩,
    ⟨0xa00044, 16, 0, 128, 1, 0, 0, .sup, [.AX_QSCALE_SPC]⟩,
    ⟨0xa00048, 16, 0, 128, 1, 0, 0, .sup, [.AX_CTL_HOME, .AX_CTL_STOP, .AX_CTL_FCLR]⟩,
    ⟨0xa0004c, 16, 0, 128, 1, 0, 0, .sup, [.AX_STAT_STATE, .AX_STAT_MOVING, .AX_STAT_SETTLED, .AX_STAT_LATLO, .AX_STAT_LATHI, .AX_STAT_HOMESW, .AX_STAT_FE]⟩,
    ⟨0xa00060, 16, 0, 128, 7, 0, 4, .sup, [.AX_COEF_C]⟩,
    ⟨0xa01000, 64, 0, 64, 1, 0, 0, .sup, [.HT_CFG_EN, .HT_CFG_PLEN, .HT_CFG_CCOMMIT, .HT_CFG_TREF]⟩,
    ⟨0xa01004, 64, 0, 64, 1, 0, 0, .sup, [.HT_SP_SP]⟩,
    ⟨0xa01008, 64, 0, 64, 1, 0, 0, .sup, [.HT_TEMP_T, .HT_TEMP_TM]⟩,
    ⟨0xa0100c, 64, 0, 64, 1, 0, 0, .sup, [.HT_STAT_SOFT, .HT_STAT_HARD, .HT_STAT_PLAUS, .HT_STAT_DARK, .HT_STAT_STALE, .HT_STAT_DUTY]⟩,
    ⟨0xa01010, 64, 0, 64, 7, 0, 4, .sup, [.HT_COEF_C]⟩,
    ⟨0xa02000, 4, 0, 16, 1, 0, 0, .sup, [.TR_CFG_LOOP, .TR_CFG_NODE, .TR_CFG_DEC, .TR_CFG_PRE]⟩,
    ⟨0xa02004, 4, 0, 16, 1, 0, 0, .sup, [.TR_TRIG_MODE, .TR_TRIG_EVT]⟩,
    ⟨0xa02008, 4, 0, 16, 1, 0, 0, .sup, [.TR_THR_THR]⟩,
    ⟨0xa0200c, 4, 0, 16, 1, 0, 0, .sup, [.TR_STAT_ARM, .TR_STAT_STATE, .TR_STAT_TIDX]⟩,
    ⟨0xa03000, 4, 0, 4, 1, 0, 0, .sup, [.AXP_ERR_RCRC, .AXP_ERR_FAULT]⟩,
    ⟨0xa04000, 4, 0, 16384, 4096, 0, 4, .sup, [.TR_DATA_S]⟩ ]

/-- Registers of block Abacus (Table 17-7). -/
def regsAbacus : List RegInfo :=
  [ ⟨0xb00000, 1, 0, 0, 1, 0, 0, .sup, [.AB_CTL_EN, .AB_CTL_MARGIN, .AB_CTL_TGT]⟩,
    ⟨0xb00004, 1, 0, 0, 1, 0, 0, .sup, [.AB_HORIZON_EPOCHS]⟩,
    ⟨0xb00008, 1, 0, 0, 1, 0, 0, .sup, [.AB_AMAX_A]⟩,
    ⟨0xb0000c, 1, 0, 0, 1, 0, 0, .sup, [.AB_JMAX_J]⟩,
    ⟨0xb00010, 1, 0, 0, 1, 0, 0, .sup, [.AB_VCFG_V]⟩,
    ⟨0xb00014, 1, 0, 0, 1, 0, 0, .sup, [.AB_MSLOPE_MSLOPE, .AB_MSLOPE_PHYST]⟩,
    ⟨0xb00018, 1, 0, 0, 1, 0, 0, .sup, [.AB_PLIM_CFG, .AB_PLIM_FLOOR, .AB_PLIM_CUR]⟩,
    ⟨0xb0001c, 1, 0, 0, 1, 0, 0, .sup, [.AB_PIN_PWR, .AB_PIN_VIN]⟩,
    ⟨0xb00020, 1, 0, 0, 1, 0, 0, .sup, [.AB_CEIL_C]⟩,
    ⟨0xb00024, 1, 0, 0, 1, 0, 0, .sup, [.AB_BIND_SRC, .AB_BIND_BAR, .AB_BIND_WIN]⟩,
    ⟨0xb00028, 1, 0, 0, 1, 0, 0, .sup, [.AB_LADDER_STEP, .AB_LADDER_RCK]⟩,
    ⟨0xb0002c, 1, 0, 0, 1, 0, 0, .sup, [.AB_STAT_PWRWARN, .AB_STAT_THROTTLE, .AB_STAT_TWARN, .AB_STAT_OVER, .AB_STAT_SHORT, .AB_STAT_UNDERRUN, .AB_STAT_MODLIM]⟩,
    ⟨0xb00030, 1, 0, 0, 1, 0, 0, .sup, [.AB_EPOCH_N]⟩,
    ⟨0xb00034, 1, 0, 0, 1, 0, 0, .sup, [.AB_EBASE_ADDR]⟩,
    ⟨0xb00100, 16, 0, 4, 1, 0, 0, .sup, [.AB_HPLIM_MAX, .AB_HPLIM_CUR, .AB_HPLIM_STEP]⟩,
    ⟨0xb01000, 64, 0, 32, 7, 1, 4, .sup, [.AB_DROP_E]⟩ ]

/-- Registers of block Mem (Table 17-7). -/
def regsMem : List RegInfo :=
  [ ⟨0xc00000, 1, 0, 0, 1, 0, 0, .mem, [.MEM_CTL_REQ, .MEM_CTL_CUR, .MEM_CTL_BUSY]⟩,
    ⟨0xc00004, 1, 0, 0, 1, 0, 0, .mem, [.MEM_SCRUB_EN, .MEM_SCRUB_HOURS]⟩,
    ⟨0xc00008, 1, 0, 0, 1, 0, 0, .mem, [.MEM_EYEMIN_TAPS]⟩,
    ⟨0xc0000c, 1, 0, 0, 1, 0, 0, .mem, [.MEM_CALCFG_LATE]⟩,
    ⟨0xc00010, 1, 0, 0, 1, 0, 0, .mem, [.MEM_SRAM_CE, .MEM_SRAM_UE]⟩,
    ⟨0xc01000, 2, 0, 256, 1, 0, 0, .mem, [.MEM_CH_STAT_STATE, .MEM_CH_STAT_BAND2X, .MEM_CH_STAT_OWED, .MEM_CH_STAT_CALPEND, .MEM_CH_STAT_STEP]⟩,
    ⟨0xc01004, 2, 0, 256, 1, 0, 0, .mem, [.MEM_TEMP_TD, .MEM_TEMP_TCAL]⟩,
    ⟨0xc01008, 2, 0, 256, 1, 0, 0, .mem, [.MEM_WQ_LEVEL, .MEM_WQ_HIGH, .MEM_WQ_DRAINS]⟩,
    ⟨0xc0100c, 2, 0, 256, 1, 0, 0, .mem, [.MEM_CE_N]⟩,
    ⟨0xc01010, 2, 0, 256, 1, 0, 0, .mem, [.MEM_UE_N, .MEM_UE_PPW]⟩,
    ⟨0xc01014, 2, 0, 256, 1, 0, 0, .mem, [.MEM_ELOG_LO_ADDR]⟩,
    ⟨0xc01018, 2, 0, 256, 1, 0, 0, .mem, [.MEM_ELOG_HI_ADDR, .MEM_ELOG_HI_DIE, .MEM_ELOG_HI_UE, .MEM_ELOG_HI_VALID]⟩,
    ⟨0xc0101c, 2, 0, 256, 1, 0, 0, .mem, [.MEM_RMW_N]⟩,
    ⟨0xc01020, 2, 0, 256, 1, 0, 0, .mem, [.MEM_CALCNT_RUNS, .MEM_CALCNT_ABANDON]⟩,
    ⟨0xc01040, 2, 0, 256, 10, 0, 4, .mem, [.MEM_EYE_RD, .MEM_EYE_WR, .MEM_EYE_STALE]⟩ ]

/-- Registers of block Net (Table 17-7). -/
def regsNet : List RegInfo :=
  [ ⟨0xd00000, 3, 0, 256, 1, 0, 0, .net, [.NET_PCFG_EN, .NET_PCFG_MODE, .NET_PCFG_FEC, .NET_PCFG_LINK]⟩,
    ⟨0xd02000, 1, 0, 0, 1, 0, 0, .net, [.XPP_CTL_HBTO, .XPP_CTL_HBTX, .XPP_CTL_SCEN]⟩,
    ⟨0xd02004, 3, 0, 4, 1, 0, 0, .net, [.XPP_ID_ID]⟩,
    ⟨0xd02010, 3, 0, 4, 1, 0, 0, .net, [.XPP_IP_IP]⟩,
    ⟨0xd02020, 1, 0, 0, 1, 0, 0, .net, [.XPP_PEER_UP]⟩,
    ⟨0xd02024, 1, 0, 0, 1, 0, 0, .net, [.XPP_VLIM_V]⟩,
    ⟨0xd02028, 1, 0, 0, 1, 0, 0, .net, [.XPP_EVMASK_MASK]⟩,
    ⟨0xd0202c, 1, 0, 0, 1, 0, 0, .net, [.XPP_CNT_BAD, .XPP_CNT_DUP]⟩,
    ⟨0xd02030, 1, 0, 0, 1, 0, 0, .net, [.XPP_NCNT_NACK, .XPP_NCNT_CONFLICT]⟩,
    ⟨0xd02034, 1, 0, 0, 1, 0, 0, .net, [.XPP_DIN_FILT, .XPP_DIN_HOLD, .XPP_DIN_INH]⟩,
    ⟨0xd02038, 1, 0, 0, 1, 0, 0, .net, [.XPP_SCEIL_PERIOD, .XPP_SCEIL_POL]⟩,
    ⟨0xd0203c, 1, 0, 0, 1, 0, 0, .net, [.XPP_SCFS_FS]⟩,
    ⟨0xd03000, 1, 0, 0, 1, 0, 0, .net, [.TB_CTL_SRC, .TB_CTL_HOLDOVER, .TB_CTL_RELOCK]⟩,
    ⟨0xd03004, 1, 0, 0, 1, 0, 0, .net, [.TB_NOW_S_S]⟩,
    ⟨0xd03008, 1, 0, 0, 1, 0, 0, .net, [.TB_NOW_NS_NS]⟩,
    ⟨0xd0300c, 1, 0, 0, 1, 0, 0, .net, [.TB_NOW_SH_S]⟩,
    ⟨0xd03010, 1, 0, 0, 1, 0, 0, .net, [.TB_RATE_PPB]⟩,
    ⟨0xd03014, 1, 0, 0, 1, 0, 0, .net, [.TB_FBINC_LO_FRAC]⟩,
    ⟨0xd03018, 1, 0, 0, 1, 0, 0, .net, [.TB_FBINC_HI_INT]⟩,
    ⟨0xd03040, 24, 0, 4, 1, 0, 0, .net, [.TB_XTAL_PPB]⟩,
    ⟨0xd03100, 1, 0, 0, 1, 0, 0, .net, [.PTP_CFG_EN, .PTP_CFG_ROLE, .PTP_CFG_PORT, .PTP_CFG_MGFB, .PTP_CFG_TRANS, .PTP_CFG_DELAY, .PTP_CFG_DOMAIN]⟩,
    ⟨0xd03104, 1, 0, 0, 1, 0, 0, .net, [.PTP_PRIO_PRIO1, .PTP_PRIO_PRIO2, .PTP_PRIO_CLASS, .PTP_PRIO_ACC]⟩,
    ⟨0xd03108, 1, 0, 0, 1, 0, 0, .net, [.PTP_INTV_SYNC, .PTP_INTV_ANN, .PTP_INTV_DREQ, .PTP_INTV_ARTO]⟩,
    ⟨0xd0310c, 2, 0, 4, 1, 0, 0, .net, [.PTP_LAT_TX, .PTP_LAT_RX]⟩,
    ⟨0xd03120, 1, 0, 0, 1, 0, 0, .net, [.PTP_STAT_PSTATE, .PTP_STAT_LOCK, .PTP_STAT_SRCPORT, .PTP_STAT_GMCHG]⟩,
    ⟨0xd03124, 1, 0, 0, 1, 0, 0, .net, [.PTP_OFS_NS]⟩,
    ⟨0xd03128, 1, 0, 0, 1, 0, 0, .net, [.PTP_MPD_NS]⟩ ]

/-- Registers of block Sync (Table 17-7). -/
def regsSync : List RegInfo :=
  [ ⟨0xe00000, 1, 0, 0, 1, 0, 0, .sup, [.RING_CFG_EN, .RING_CFG_ID, .RING_CFG_DOWNHOLD, .RING_CFG_LOSTHOLD, .RING_CFG_DOWNTO, .RING_CFG_SLEAD, .RING_CFG_TTOL]⟩,
    ⟨0xe00004, 1, 0, 0, 1, 0, 0, .sup, [.RING_STAT_UP, .RING_STAT_MASTER, .RING_STAT_MID, .RING_STAT_RELAY, .RING_STAT_MEMBERS, .RING_STAT_HOLDSRC, .RING_STAT_DUP]⟩,
    ⟨0xe00008, 1, 0, 0, 1, 0, 0, .sup, [.RING_PLS_O]⟩,
    ⟨0xe0000c, 1, 0, 0, 1, 0, 0, .sup, [.RING_RT_NS]⟩,
    ⟨0xe00010, 1, 0, 0, 1, 0, 0, .sup, [.RING_CL_S_S]⟩,
    ⟨0xe00014, 1, 0, 0, 1, 0, 0, .sup, [.RING_CL_LO_C]⟩,
    ⟨0xe00018, 1, 0, 0, 1, 0, 0, .sup, [.RING_CL_HI_C]⟩,
    ⟨0xe0001c, 1, 0, 0, 1, 0, 0, .sup, [.RING_CNT_CRC, .RING_CNT_GAPS]⟩ ]

/-- Registers of block Dma (Table 17-7). -/
def regsDma : List RegInfo :=
  [ ⟨0xf00000, 1, 0, 0, 1, 0, 0, .sup, [.DMA_CTL_RETRY]⟩,
    ⟨0xf00008, 1, 0, 0, 1, 0, 0, .sup, [.DMA_HALT_LO_HALT]⟩,
    ⟨0xf0000c, 1, 0, 0, 1, 0, 0, .sup, [.DMA_HALT_HI_HALT]⟩,
    ⟨0xf01000, 48, 0, 32, 1, 0, 0, .sup, [.DMA_RBASE_LO_ADDR]⟩,
    ⟨0xf01004, 48, 0, 32, 1, 0, 0, .sup, [.DMA_RBASE_HI_ADDR]⟩,
    ⟨0xf01008, 48, 0, 32, 1, 0, 0, .sup, [.DMA_RCFG_EN, .DMA_RCFG_IRQEN, .DMA_RCFG_SIZE]⟩,
    ⟨0xf0100c, 48, 0, 32, 1, 0, 0, .sup, [.DMA_RHEAD_IDX]⟩,
    ⟨0xf01010, 48, 0, 32, 1, 0, 0, .sup, [.DMA_RTAIL_IDX]⟩ ]

/-- The blocks of Table 17-1: base, last address and registers. -/
def blocks : List (Nat × Nat × List RegInfo) :=
  [ (0x0, 0xffff, regsAon),
    (0x10000, 0xfffff, regsCrown),
    (0x100000, 0x1fffff, regsNoc),
    (0x200000, 0x2fffff, regsRkc),
    (0x300000, 0x3fffff, regsDose),
    (0x400000, 0x4fffff, regsRodWindow),
    (0x500000, 0x5fffff, regsRunway),
    (0x600000, 0x6fffff, regsFire),
    (0x700000, 0x7fffff, regsZanlink),
    (0x800000, 0x8fffff, regsTally),
    (0x900000, 0x9fffff, regsVision),
    (0xa00000, 0xafffff, regsAxes),
    (0xb00000, 0xbfffff, regsAbacus),
    (0xc00000, 0xcfffff, regsMem),
    (0xd00000, 0xdfffff, regsNet),
    (0xe00000, 0xefffff, regsSync),
    (0xf00000, 0xffffff, regsDma) ]

end Sys2Proof.Machine
end

