-- ==== Sys2Proof/Machine/Tab.lean ====
section
/-! DEFINITION. Sparse tables: a list of key and value pairs in one canonical form (keys strictly rising, no value equal
to the default), with reading and writing. Registers, memory bytes and the arrays of the block's units are held so. -/
namespace Sys2Proof.Machine

/-- A sparse table. -/
abbrev Tab (κ α : Type) := List (κ × α)

/-- The value at `k`, or the default `dflt` where the table lists nothing. -/
def Tab.get {κ α : Type} [DecidableEq κ] (dflt : α) : Tab κ α → κ → α
  | [], _ => dflt
  | (k', v) :: t, k => if k' = k then v else Tab.get dflt t k

/-- The table without entries at `k`. -/
def Tab.erase {κ α : Type} [DecidableEq κ] : Tab κ α → κ → Tab κ α
  | [], _ => []
  | (k', v) :: t, k => if k' = k then Tab.erase t k else (k', v) :: Tab.erase t k

/-- Put a pair before the first entry whose key does not lie below it. -/
def Tab.place {κ α : Type} (lt : κ → κ → Bool) (k : κ) (v : α) : Tab κ α → Tab κ α
  | [] => [(k, v)]
  | (k', v') :: t => if lt k' k then (k', v') :: Tab.place lt k v t else (k, v) :: (k', v') :: t

/-- Write `v` at `k`; a value equal to the default removes the entry. -/
def Tab.set {κ α : Type} [DecidableEq κ] [DecidableEq α] (lt : κ → κ → Bool) (dflt : α) (t : Tab κ α) (k : κ) (v : α) :
    Tab κ α :=
  if v = dflt then Tab.erase t k else Tab.place lt k v (Tab.erase t k)

/-- Order of Nat keys. -/
def natLt (a b : Nat) : Bool := decide (a < b)

/-- Keys strictly rising under `lt`. -/
def Tab.rising {κ α : Type} (lt : κ → κ → Bool) : Tab κ α → Bool
  | [] => true
  | [_] => true
  | (k, _) :: (k', v') :: t => lt k k' && Tab.rising lt ((k', v') :: t)

/-- No entry holds the default of its key. -/
def Tab.noDefault {κ α : Type} [DecidableEq α] (dflt : κ → α) : Tab κ α → Bool
  | [] => true
  | (k, v) :: t => (v != dflt k) && Tab.noDefault dflt t

/-- The canonical form. -/
def Tab.wf {κ α : Type} [DecidableEq α] (lt : κ → κ → Bool) (dflt : κ → α) (t : Tab κ α) : Bool :=
  Tab.rising lt t && Tab.noDefault dflt t

/-- A table of a unit's arrays, indexed from 0, with the default `dflt` for entries not listed. -/
def Tab.at {α : Type} [Inhabited α] (t : Tab Nat α) (n : Nat) : α := Tab.get default t n

/-- Write an array entry. -/
def Tab.put {α : Type} [Inhabited α] [DecidableEq α] (t : Tab Nat α) (n : Nat) (v : α) : Tab Nat α :=
  Tab.set natLt default t n v

/-- Change an array entry by `f`. -/
def Tab.upd {α : Type} [Inhabited α] [DecidableEq α] (t : Tab Nat α) (n : Nat) (f : α → α) : Tab Nat α :=
  Tab.put t n (f (Tab.at t n))

end Sys2Proof.Machine
end

