-- ==== Sys2Proof/Machine/Types.lean ====
section
/-! DEFINITION. The types of the state that the spec gives the block beside its registers: jobs, rendering, dosing, runway,
firing, lanes, integrity, press protocol, boot. Numbers that the spec counts are Nat; signed ones Int; positions 48 bits. -/
namespace Sys2Proof.Machine

/-- Device states in the order of Table 1-8 (01; 17, AON_STATE). -/
inductive DState where
  | off | boot | safe | idle | armed | printing | draining | hold | shutdown
  deriving DecidableEq, Repr, Inhabited

/-- The number of a device state in `AON_STATE.STATE`. -/
def DState.code : DState → Nat
  | .off => 0 | .boot => 1 | .safe => 2 | .idle => 3 | .armed => 4 | .printing => 5 | .draining => 6 | .hold => 7
  | .shutdown => 8

/-- The device state that a value of `AON_STATE.STATE` names; values above 8 occur in no state of the module. -/
def DState.ofCode : Nat → DState
  | 0 => .off | 1 => .boot | 2 => .safe | 3 => .idle | 4 => .armed | 5 => .printing | 6 => .draining | 7 => .hold
  | _ => .shutdown

/-- Ordering variants (00, Table 0-1). -/
inductive Variant where
  | a64 | a32
  deriving DecidableEq, Repr, Inhabited

/-- Roles of XPP peers (14, R330). -/
inductive Role where
  | pc | js | mt
  deriving DecidableEq, Repr, Inhabited

/-- Index i of a role in `XPP_ID[i]`. -/
def Role.idx : Role → Nat
  | .pc => 0 | .js => 1 | .mt => 2

/-! ### Jobs (02) -/

/-- Job states of Table 2-14. -/
inductive JobState where
  | receiving | loaded | placed | active | done | cancelled | rejected
  deriving DecidableEq, Repr, Inhabited

/-- Position of a job state in Table 2-14, as `JOB_STATUS` reports it (14, Table 14-3). -/
def JobState.code : JobState → Nat
  | .receiving => 0 | .loaded => 1 | .placed => 2 | .active => 3 | .done => 4 | .cancelled => 5 | .rejected => 6

/-- `JOB` payload (02, Table 2-3). -/
structure JobRec where
  firstPn : Nat
  products : Nat
  preload : Nat
  lpi : Nat
  planes : Nat
  chain : Bool
  prodLines : Nat
  brimLines : Nat
  width : Nat
  x0 : Nat
  barMap : List Nat
  curveSet : Nat
  screenSet : Nat
  runs : Nat
  name : List Byte
  deriving DecidableEq, Repr, Inhabited

/-- Slot table entry (02, Table 2-7). -/
structure SlotEnt where
  id : Nat
  type : Nat
  sx0 : Nat
  sx1 : Nat
  sy0 : Nat
  sy1 : Nat
  deriving DecidableEq, Repr, Inhabited

/-- `RUN` payload (02, Table 2-6). -/
structure RunRec where
  idx : Nat
  pn : Nat
  count : Nat
  cached : Bool
  layers : List Nat
  slots : List SlotEnt
  deriving DecidableEq, Repr, Inhabited

/-- A span of a `SPANS` primitive (02, Table 2-9). -/
structure Span where
  sx : Nat
  ex : Nat
  ca : Nat
  cb : Nat
  deriving DecidableEq, Repr, Inhabited

/-- Display-list primitives (02, Table 2-9); `bl` is the blend mode of Table 2-10. -/
inductive Prim where
  | rect (bl pal x0 x1 y0 y1 : Nat)
  | spans (bl pal y0 : Nat) (lines : List (List Span))
  | image (bl id x y : Nat)
  | textSlot (bl slot glyphset pal x y : Nat)
  | imageSlot (bl slot x y : Nat)
  | codeSlot (bl slot x mw y mh pal : Nat)
  | clipPush (x0 x1 y0 y1 : Nat)
  | clipPop
  deriving DecidableEq, Repr

/-- `LAYER` payload (02, Table 2-8). -/
structure Layer where
  id : Nat
  varying : Bool
  lx0 : Nat
  lx1 : Nat
  ly0 : Nat
  ly1 : Nat
  cost : Nat
  prims : List Prim
  deriving DecidableEq, Repr, Inhabited

/-- `IMAGE` payload (02, "Images and glyphs"). -/
structure ImageRec where
  id : Nat
  width : Nat
  height : Nat
  channels : Nat
  bits : Nat
  sep : Nat
  deriving DecidableEq, Repr, Inhabited

/-- `TILE` payload with its samples decoded to bytes (02, "Images and glyphs"). -/
structure ImageTile where
  image : Nat
  tx : Nat
  ty : Nat
  raw : List Byte
  deriving DecidableEq, Repr, Inhabited

/-- A glyph (02, "Images and glyphs"). -/
structure Glyph where
  code : Nat
  width : Nat
  height : Nat
  left : Int
  base : Int
  advance : Nat
  bitmap : List Byte
  deriving DecidableEq, Repr, Inhabited

/-- `GLYPHS` payload. -/
structure GlyphSet where
  id : Nat
  glyphs : List Glyph
  deriving DecidableEq, Repr, Inhabited

/-- `SEP` payload (02, Table 2-5). -/
structure SepRec where
  id : Nat
  inputs : Nat
  grid : Nat
  out : Nat
  table : List Nat
  deriving DecidableEq, Repr, Inhabited

/-- A value of a `PRODUCT` record (02, "Variable data"). -/
structure SlotVal where
  id : Nat
  type : Nat
  bytes : List Byte
  deriving DecidableEq, Repr, Inhabited

/-- `PRODUCT` payload. -/
structure ProdRec where
  pn : Nat
  run : Nat
  vals : List SlotVal
  deriving DecidableEq, Repr, Inhabited

/-- A record held: `SEQ`, `TYPE`, `CRC`, length of the whole record in bytes, `PN` of a `PRODUCT`. -/
structure Held where
  seq : Nat
  type : Nat
  crc : Nat
  len : Nat
  pn : Nat
  deriving DecidableEq, Repr, Inhabited

/-- A job of the queue (02, R44 to R46). `palette` has its entry count and values,
`endRec?` the `SEQ`, `RECORDS` and `SETCRC` of `END`, `ended` tells that `END` was checked. `limit` is the product index from which
on nothing is rendered (cancel FINISH, STOP, `END` failure); `finishing`: a cancel FINISH is in progress; `aborted`: a cancel ABORT is,
until the products already fired are closed (08, R218); `rendered` and `started` count products. -/
structure Job where
  jn : Nat
  st : JobState
  held : List Held
  rec? : Option JobRec
  palette : Option (Nat × List Nat)
  seps : List SepRec
  images : List ImageRec
  tiles : List ImageTile
  glyphs : List GlyphSet
  layers : List Layer
  runs : List RunRec
  prods : List ProdRec
  endRec? : Option (Nat × Nat × Nat)
  ended : Bool
  limit : Option Nat
  finishing : Bool
  aborted : Bool
  rendered : Nat
  started : Nat
  reason : Nat
  recvAt : Nat
  deriving DecidableEq, Repr, Inhabited

/-- An open bulk connection (02, R41). `holes` are the TCP sequence numbers of payload that came in buffers with `CSUM_OK` 0 and has not
come again (R43), `poison` tells that payload not yet parsed stands in a buffer moved with poison (01, R18). -/
structure Conn where
  idx : Nat
  jn : Nat
  cont : Bool
  holes : List Nat
  poison : Bool
  deriving DecidableEq, Repr, Inhabited

/-! ### Rendering (03) -/

/-- Kinds of render work (03, Table 3-3). -/
inductive WorkKind where
  | render | witness | third | cache
  deriving DecidableEq, Repr, Inhabited

/-- A band-column of a job: its band and column; of a cache build, the run, line group and column. -/
structure ColId where
  jn : Nat
  run : Option Nat
  band : Nat
  col : Nat
  deriving DecidableEq, Repr, Inhabited

/-- A descriptor of a ring WQ with its work block: `ring` is the Reckoner that holds it, `wit` the witness or, for witness
work, the renderer; `seed` the witness seed, in witness work only (R71); `exec` the executing Reckoner once started, with its start
time; `cached` tells that it reads a cache entry. -/
structure Work where
  id : ColId
  ring : Nat
  kind : WorkKind
  wit : Nat
  seed : Nat
  cached : Bool
  exec : Option Nat
  since : Nat
  deriving DecidableEq, Repr, Inhabited

/-- A finished tile: by whom, samples that differ from the correct ones, poisoned samples; its witness; whether it passed its
comparison. -/
structure TileRec where
  id : ColId
  renderer : Nat
  witness : Nat
  cached : Bool
  out : TileOut
  passed : Bool
  deriving DecidableEq, Repr, Inhabited

/-- A witness record: the witness samples that differ from the correct ones (03, R71, R72). -/
structure WitRec where
  id : ColId
  witness : Nat
  wrong : List Sample
  deriving DecidableEq, Repr, Inhabited

/-- A valid cache entry: run, line group, column, and the samples of it that differ or are poisoned (03, R66, R67). -/
structure CacheEnt where
  jn : Nat
  run : Nat
  group : Nat
  col : Nat
  out : TileOut
  deriving DecidableEq, Repr, Inhabited

/-- A band handed to the dose pipelines (03, R60), with the pipelines that have dosed it. -/
structure BandTiles where
  jn : Nat
  band : Nat
  tiles : List TileRec
  dosed : List Nat
  deriving DecidableEq, Repr, Inhabited

/-- The render front and the Reckoner control block (03). `front` is the next band to post (JN, band), `ahead` the bands posted
and not yet handed over, `finished` the jobs whose last band has been rendered, `committed` those past their commitment point (02,
R50), `starved` the product the front waits for; `seeds` the seed drawn for each band-column posted (R71); `done` the descriptors
executed and not yet completed by the DMA, oldest first, as ring and executing Reckoner (R62); `stuck` the descriptors that no Reckoner
qualifies for, with the Reckoner they were taken from (R421); `k` is k of R70 in 2^-16, `busy` the sum of `RKC_BUSY` at the last hand-over. -/
structure Rk where
  front : Option (Nat × Nat)
  ahead : List (Nat × Nat)
  finished : List Nat
  committed : List Nat
  starved : Option (Nat × Nat)
  work : List Work
  tiles : List TileRec
  wits : List WitRec
  handed : List BandTiles
  strikes : Tab Nat (Option Nat)
  cache : List CacheEnt
  seeds : List (ColId × Nat)
  done : List (Nat × Nat)
  stuck : List (Work × Nat)
  k : Nat
  busy : Nat
  deriving DecidableEq, Repr, Inhabited

/-! ### Dosing and runway (04, 05) -/

/-- A dose band in a pipeline or a slot: JN, band's first line, lines dosed so far (bytes of the line in the layout of
R100), Rod versions (04, R101). -/
structure DoseBand where
  jn : Nat
  line : Nat
  count : Nat
  lines : List (List Byte)
  ver : Nat
  vch : Nat
  ver2 : Nat
  deriving DecidableEq, Repr, Inhabited

/-- Working copies of one row of `DP_BRIM_A` and `DP_BRIM_B` (04, R99). -/
structure BrimRow where
  kind : Nat
  code : Nat
  heads : Nat
  ofs : Nat
  x0 : Nat
  lines : Nat
  x1d : Nat
  deriving DecidableEq, Repr, Inhabited

/-- A dose pipeline (04): update queue and retained entries (channel within the pipeline, rod), the channel of `DP_RODQ_IDX`, the
band being dosed, the working Brim rows, the shortfall of the product so far. -/
structure Dose where
  queue : List (Nat × Nat)
  retained : List (Nat × Nat)
  idx : Nat
  band : Option DoseBand
  brim : List BrimRow
  short : Nat
  deriving DecidableEq, Repr, Inhabited

/-- Slot states after POSTED (05, Table 5-4); the output stage reads a slot in one command, so that READING is passed within it; a
RETIRED slot leaves the list once it is the oldest. -/
inductive SlotSt where
  | filling | stopped | ready | retired
  deriving DecidableEq, Repr, Inhabited

/-- A slot of the runway with its header's fields (05, Tables 5-2 and 5-3). `page` and `ofs` are the list index and the
byte offset at which it starts, `desc` its descriptor of ring RQ, `lines` the band's lines, `stream` the stream that a stop has
interrupted (R123); `gone`: its job has given it up, so that it is retired unread (02, Table 2-14; R129; 06, R423). -/
structure RSlot where
  st : SlotSt
  level : Nat
  bad : Bool
  jn : Nat
  line : Nat
  count : Nat
  heads : Nat
  width2 : Bool
  vch : Nat
  ver : Nat
  ver2 : Nat
  stored : Nat
  clen : Nat
  sseq : Nat
  page : Nat
  ofs : Nat
  desc : Nat
  stops : Nat
  lines : List (List Byte)
  stream : Option (List Byte)
  gone : Bool
  deriving DecidableEq, Repr, Inhabited

/-- The runway of one pipeline (05). `band` is the dosed band in the compressor's input buffer, `ofs` the write point in the
page `RW_PL_WR`, `readSeq` the `SSEQ` that the output stage expects; `tries` and `bad` the retries of the writes of the slot being
filled and whether they moved poison (01, R16 to R18). -/
structure Rwy where
  slots : List RSlot
  band : Option DoseBand
  sseq : Nat
  readSeq : Nat
  ofs : Nat
  tries : Nat
  bad : Bool
  deriving DecidableEq, Repr, Inhabited

/-! ### Web position and firing (06) -/

/-- A head's part of a sent bar-line: slot, fire time in ns, bead (06, R155), its position in 2^-38 counts (R149). -/
structure SentHead where
  slot : Nat
  tfire : Nat
  bead : Nat
  pos : Int
  deriving DecidableEq, Repr, Inhabited

/-- A bar-line whose FIRE frames were sent, with the trim it was placed with (06, R150); `late`: an amendment could not arrive, the
times stand (06, R155 to R158). -/
structure SentLine where
  bar : Nat
  jn : Nat
  line : Nat
  trim : Int
  heads : List SentHead
  late : Bool
  deriving DecidableEq, Repr, Inhabited

/-- A bar-line withdrawn, named by bar, job and line, with the trim it was placed with. -/
structure LineId where
  bar : Nat
  jn : Nat
  line : Nat
  trim : Int
  deriving DecidableEq, Repr, Inhabited

/-- The FIRE block (06). `times` are timestamps of the last counts in one direction, newest first; `sentSince` the products (JN, PN)
with a line sent since the last good index; `travel` counts the counts, `slips` its values at the slip events; `barPitch` is the
pitch of the job last due on a bar, in 2^-32 counts; `order` the placement entries in placement order; `dropped` the line ranges (bar or
255 for all, JN, first, end) that are not fired any more (R152); `skips` the skips still to be armed (pipeline, JN, bound); `first` the position on bar 0 of the first line sent in ARMED, in 2^-38 counts. -/
structure Fire where
  a : Bool
  b : Bool
  cnt : Pos48
  pos : Pos48
  disarmed : Bool
  times : List Nat
  revDir : Bool
  vSince : Nat
  speedN : Nat
  speedD : Nat
  lastT : Nat
  lastIdx : Pos48
  sentSince : List (Nat × Nat)
  travel : Nat
  slips : List Nat
  due : Tab Nat (Option (Nat × Nat))
  barPitch : Tab Nat Nat
  sent : List SentLine
  again : List LineId
  order : List Nat
  dropped : List (Nat × Nat × Nat × Nat)
  skips : List (Nat × Nat × Nat)
  first : Option Int
  latchCnt : Nat
  latchPos : Nat
  deriving DecidableEq, Repr, Inhabited

/-! ### Zanlink (07) -/

/-- A head-line in an output FIFO with its identity tag of job, line, bar and Rod version (01, R11): bytes, Tally, the reason for
which it is withheld, DOSE sent. -/
structure FifoLine where
  jn : Nat
  line : Nat
  bar : Nat
  ver : Nat
  bytes : List Byte
  tv : Nat
  withheld : Nat
  doseSent : Bool
  deriving DecidableEq, Repr, Inhabited

/-- Frames toward the head, and `IDLE` blocks (07, Tables 7-1 to 7-3 and 7-7). -/
inductive ZlFrame where
  | dose (jn line : Nat) (bytes : List Byte)
  | tally (jn line tv : Nat)
  | fire (jn line tfire bead : Nat) (amend withdraw : Bool)
  | beacon (t1 inc : Nat) (corr : Int) (num : Nat)
  | heat (seq duty : Nat) (hen : Bool)
  | mgmt (op tag res p16 : Nat) (data : List Byte)
  | idle (lstate cap : Nat)
  deriving DecidableEq, Repr

/-- A frame sent and kept for R190, with its `FSEQ`. -/
structure ZlSent where
  fseq : Nat
  frame : ZlFrame
  deriving DecidableEq, Repr

/-- A lane (07). `asked`: a MGMT `RESEND` is out and no good frame has come since (R191). `beacons` are the BEACON frames not yet answered (number, t1 on the link counter), `lastGoodEx` the number of the last
exchange if it was within the tolerance, `corr` the correction for the next BEACON; `mem` the head memory read with the offsets
`got`, `reread` after a sleep, `serialBoot` the serial read first; `sent` the frames kept for R190, newest first; `rxSeq`, `rxGood` the
`FSEQ` of the next frame from the head and of the last good one; `lossAt` since when the lane is lost with its bar placed. `dark` has
the causes for which its head is dark, `darkBy` those it has been dark for since it went dark; `darkEnd`: no cause is left and the head waits for a
product start (08, R207). `statusAt` is the time of the last STATUS frame, or of the entry to LOCKED or UP (R175). -/
structure Lane where
  fifo : List FifoLine
  beaconNum : Nat
  beacons : List (Nat × Nat)
  lastGoodEx : Option Nat
  corr : Int
  mem : List Byte
  got : List Nat
  reread : Bool
  serialBoot : List Byte
  serial : List Byte
  ident : Option (Nat × Nat × Nat)
  memValid : Bool
  sent : List ZlSent
  fseq : Nat
  tag : Nat
  rxSeq : Nat
  rxGood : Nat
  asked : Bool
  unmatched : Nat
  lossAt : Option Nat
  stopAsked : Bool
  dark : Nat
  darkBy : Nat
  darkEnd : Bool
  heatSeq : Nat
  statusAt : Nat
  deriving DecidableEq, Repr, Inhabited

/-! ### Integrity (08) -/

/-- A Tally table entry: job, line, `TV` sent, fire time as sent, in link time (08, R211). -/
structure TallyEnt where
  jn : Nat
  line : Nat
  tv : Nat
  tfire : Nat
  deriving DecidableEq, Repr, Inhabited

/-- Product states of Table 8-2; a FREE entry is not in the table. -/
inductive ProdSt where
  | opened | closed | marked
  deriving DecidableEq, Repr, Inhabited

/-- A product table entry (08, R202, R203). `from38` and `to38` are S and E in 2^-38 counts; `settled` lists settled
(bar, line) pairs, `spoilt` those covered by a spoil; `whole` tells a product-wide spoil; `fired`: a line of it has been fired (01, R20);
`lastSp` is 1 plus the 4 ns tick of its last spoil, 0 without one (R204). -/
structure Prod where
  jn : Nat
  pn : Nat
  first : Nat
  last : Nat
  from38 : Int
  to38 : Int
  st : ProdSt
  spoil : Bool
  reason : Nat
  bar : Nat
  spoilAt : Nat
  settled : List (Nat × Nat)
  spoilt : List (Nat × Nat)
  whole : Bool
  closureWritten : Bool
  markEnded : Bool
  unclosed : Bool
  lateCounted : Bool
  fired : Bool
  lastSp : Nat
  deriving DecidableEq, Repr, Inhabited

/-- One spoil: reason, bar and slot (255 for all), lines, count, time of detection in ns, product-wide or not. -/
structure Spoil where
  reason : Nat
  bar : Nat
  slot : Nat
  first : Nat
  last : Nat
  lines : List (Nat × Nat)
  n : Nat
  time : Nat
  whole : Bool
  deriving DecidableEq, Repr, Inhabited

/-- A product of the held-spoil store (08, R422). -/
structure HeldSpoil where
  jn : Nat
  pn : Nat
  spoils : List Spoil
  deriving DecidableEq, Repr, Inhabited

/-- A spoil, closure or mark record of Table 8-6 (`KIND` 0, 1, 2); `lines` are the bar-lines that an open spoil record counts. -/
structure SpRec where
  jn : Nat
  pn : Nat
  first : Nat
  last : Nat
  n : Nat
  time : Nat
  kind : Nat
  reason : Nat
  bar : Nat
  slot : Nat
  firstSp : Bool
  late : Bool
  unclosed : Bool
  lostB : Bool
  lines : List (Nat × Nat)
  deriving DecidableEq, Repr, Inhabited

/-- A buffer ring that the hardware fills (EVR, SPR): capacities, in records, of the descriptors handed over and not
completed; the records in buffers with the time each was written; those waiting; the sequence number of the first record in
buffers; records were lost; the retries that the writes of the buffer being filled have used, and whether they moved poison (01, R16
to R18). -/
structure BufRing (α : Type) where
  caps : List Nat
  inBufs : List (Nat × α)
  wait : List (Nat × α)
  seq : Nat
  lost : Bool
  tries : Nat
  bad : Bool
  deriving DecidableEq, Repr, Inhabited

/-- The integrity block (08). `checks` are the check contexts of the output stage by head slot (R210). `mark` is WASTE_MARK: asserted, end of the pulse in ns, end of the gate in 2^-38 counts. -/
structure Integ where
  prods : List Prod
  heldSpoils : List HeldSpoil
  tally : Tab Nat (List TallyEnt)
  recs : List SpRec
  checks : Tab Nat Nat
  spr : BufRing SpRec
  mark : Bool
  pulseEnd : Option Nat
  gateEnd : Option Int
  deriving DecidableEq, Repr, Inhabited

/-- A job's account (08, Table 8-7). -/
structure Account where
  planned : Nat
  good : Nat
  spoiled : Tab Nat Nat
  notPrinted : Nat
  marked : Nat
  unclosed : Nat
  late : Nat
  short : Nat
  rodLo : Tab Nat (Option Nat)
  rodHi : Tab Nat (Option Nat)
  lines : Nat
  lost : Nat
  deriving DecidableEq, Repr, Inhabited

/-! ### Press protocol (14) and events (17) -/

/-- Messages the module sends (14, Table 14-3), with what each carries. -/
inductive XppMsg where
  | ack (rseq : Nat) (data : List Byte)
  | ackJob (rseq : Nat) (data : List Nat)
  | nack (rseq code : Nat)
  | status (payload : List Byte)
  | ceil (payload : List Byte)
  | event (code tsec tns : Nat) (data : List Byte)
  | jobStatus (data : List Nat)
  | stopReq (bits : Nat)
  | spoiled (jn pn reason bar : Nat)
  deriving DecidableEq, Repr

/-- The response kept for a duplicate (14, R331); HEARTBEAT has none. -/
structure Answered where
  seq : Nat
  resp : Option XppMsg
  deriving DecidableEq, Repr

/-- A peer (14, R331, R333, R335): when its last accepted message came (`heard`), last accepted `SEQ` since its HELLO, the last 64 accepted with their responses, the
module's own `SEQ`, the last 1,024 kept notifications, the `SEQ` of the newest notification no longer kept. -/
structure Peer where
  ref : Option Nat
  accepted : List Answered
  seq : Nat
  kept : List (Nat × XppMsg)
  gone : Option Nat
  heard : Nat
  deriving DecidableEq, Repr, Inhabited

/-- An event entry of Table 17-5 without its sequence number and `LOSTB`. -/
structure EvEntry where
  code : Nat
  ns : Nat
  data : List Byte
  lostB : Bool
  deriving DecidableEq, Repr, Inhabited

/-- What is written to ring XCP or XCJ for an accepted message (14, R334, Table 14-2). -/
structure XcDesc where
  ring : Nat
  ip : Nat
  udp : Nat
  port : Nat
  mt : Bool
  tarr : Nat
  deriving DecidableEq, Repr, Inhabited

/-- Press protocol state (14). -/
structure Xpp where
  peers : Tab Nat Peer
  badAt : Tab Nat (Option Nat)
  rings : List XcDesc
  deriving DecidableEq, Repr, Inhabited

end Sys2Proof.Machine
end

