-- ==== Sys2Proof/Machine/TypesB.lean ====
section
/-! DEFINITION. The types of the state of the camera ports, loops, axes, heat, Abacus, memory, time and ring. -/
namespace Sys2Proof.Machine

/-! ### Vision (09) -/

/-- Flags of the frame header as bits (09, Table 9-4). -/
structure FrameFlags where
  mixed : Bool
  stale : Bool
  crcErr : Bool
  geom : Bool
  poison : Bool
  cal : Bool
  abort : Bool
  deriving DecidableEq, Repr, Inhabited

/-- The committed values of an exposure set (09, R226): number of the commit, slot, `ESID`, strobe width, merge ratio, list. -/
structure ExpSet where
  n : Nat
  slot : Nat
  esid : Nat
  width : Nat
  ratio : Nat
  i2c0 : Nat
  i2cn : Nat
  deriving DecidableEq, Repr, Inhabited

/-- Progress of a committed set's I2C list (09, R226). -/
inductive ListSt where
  | waiting | issuing | ended
  deriving DecidableEq, Repr, Inhabited

/-- A commit that has not taken full effect: its set, whether its strobe part is in force, its list. -/
structure Commit where
  set : ExpSet
  strobeIn : Bool
  list : ListSt
  deriving DecidableEq, Repr, Inhabited

/-- A frame: ID, trigger time in ns on the main timebase and position, exposure set, what is latched at the trigger (merge
ratio, pipeline parameter words, S1 windows as (window, Y0, Y1), maps), lines received of the main and the low-gain readout and
their pixels, whether the frame start has come, whether it was dropped, the next S0 row and whether its S0 output was lost, the map words read with poison, the time of the frame start or of
the last line (R237). -/
structure Cap where
  id : Nat
  time : Nat
  pos : Nat
  esid : Nat
  ratio : Nat
  flags : FrameFlags
  parm : List Nat
  wins : List (Nat × Nat × Nat)
  ffbase : Nat
  ffver : Nat
  started : Bool
  dropped : Bool
  n0 : Nat
  lines0 : List (List Nat)
  lines1 : List (List Nat)
  s0Next : Nat
  s0Lost : Bool
  badWords : List Nat
  seenAt : Nat
  deriving DecidableEq, Repr, Inhabited

/-- A stream buffer written to ring CR of a port: header and data bytes (09, Tables 9-3 to 9-5). -/
structure CamBuf where
  stream : Nat
  frame : Nat
  esid : Nat
  flags : FrameFlags
  win : Nat
  lines : Nat
  first : Nat
  width : Nat
  pos : Nat
  time : Nat
  ffver : Nat
  data : List Byte
  deriving DecidableEq, Repr, Inhabited

/-- A camera port (09): trigger positions queued and whether F had passed the first one when it came first; the frame being
received and one triggered during its readout; the parts of exposure sets in force (none before the first), those that take force
from a frame on, the frames up to which and whether the sensor part is unknown; a commit in progress; calibration start and maps
waiting for a trigger; S1 and S3 buffers of the last usable frame and the streams of it that were lost; outputs; timeouts in a row; worst-case times in 1/12 ns at
which the lines in the input buffer have been drained; the retries of the writes of the buffer being filled and whether they moved
poison (01, R16 to R18). -/
structure Vis where
  trigQ : List Nat
  headPast : Bool
  trigLo : Nat
  nextId : Nat
  cap : Option Cap
  nextCap : Option Cap
  commits : Nat
  strobe : Option ExpSet
  sensor : Option ExpSet
  sensorAt : List (Nat × ExpSet)
  unknownTo : Option Nat
  sensorLost : Bool
  pend : Option Commit
  calPend : Bool
  ffPend : Option Nat
  ffbase : Nat
  lastUsable : List CamBuf
  lost : List Nat
  trig : Bool
  strbPend : Bool
  strb : Bool
  timeouts : Nat
  drain : List Nat
  tries : Nat
  bad : Bool
  deriving DecidableEq, Repr, Inhabited

/-! ### Nozzle and register loops (10) -/

/-- DEAD causes (10, Table 10-3). -/
inductive DeadCause where
  | absent | lateral | weakLimit
  deriving DecidableEq, Repr, Inhabited

/-- Code of a DEAD cause in `NZ_DEAD` (10, Table 10-6). -/
def DeadCause.code : DeadCause → Nat
  | .absent => 1 | .lateral => 2 | .weakLimit => 3

/-- State record of a nozzle channel (10, "Nozzle states"): filtered ratio and deviation in 2^-16 and 2^-16 pitch, counts,
DEAD cause, age; gain, lateral field and glove class as the loops have them. -/
structure Nozzle where
  st : Nat
  ratio : Int
  dev : Int
  present : Nat
  absent : Nat
  cause : DeadCause
  age : Nat
  gain : Nat
  lat : Int
  cls : Nat
  deriving DecidableEq, Repr, Inhabited

/-- A product-start report (10, R242) with the working Brim rows, and the actuator's position in 1/64 pitch while the product is printed (R257). -/
structure StartReport where
  jn : Nat
  pn : Nat
  bar : Nat
  shift : Int
  phase : Nat
  rows : List BrimRow
  ver : Nat
  act : Int
  deriving DecidableEq, Repr, Inhabited

/-- An expected ladder dash as measured (10, R246): nozzle channel, printable position in pitches, density, centroid column in 1/256
pixel. -/
structure Dash where
  ch : BitVec 18
  pos : U16
  d : Nat
  xc : Int
  deriving DecidableEq, Repr, Inhabited

/-- Sums of a least-squares fit x(P) = alpha + beta P (10, R246). -/
structure Fit where
  n : Int
  sp : Int
  sx : Int
  spp : Int
  spx : Int
  deriving DecidableEq, Repr, Inhabited

/-- A hand-over step (10, R259): s and the actuator position after it in 1/64 pitch, the product reported with its first line,
whether the move has begun, since when it is late. -/
structure HandStep where
  s : Int
  target : Int
  prod : Option (Nat × Nat × Nat)
  moving : Bool
  lateAt : Option Nat
  deriving DecidableEq, Repr, Inhabited

/-- Register loop of one bar (10, R257 to R259): E and D in 2^-16 pitch and 2^-16 lines; a in 1/64 pitch while steps are under
way; whether shift is being handed over; the steps, first to last; products (JN, PN) whose gaps' measurements are discarded. -/
structure BarLoop where
  e : Int
  d : Int
  a : Int
  handing : Bool
  steps : List HandStep
  discard : List (Nat × Nat)
  deriving DecidableEq, Repr, Inhabited

/-- The loops of VS (10). `nozzles` is keyed by channel (4,096 times head slot plus nozzle), `dref` by head slot in 2^-8 of
the density unit, `trims` the trims that the FIRE block reported by (JN, PN, bar) (06, R150), `pend` lists update entries
(pipeline, channel, rod) oldest first; `closed` the products closed and not measured with the bars on which they were spoiled
(255 for all); `count` is c of R243, `since` the products since the last measured one, `last` the last product started, `numbered` the products started with
the c of those whose gap is measured; `fits` the last fit of a stripe by 16 times port plus bar. -/
structure Loops where
  nozzles : Tab Nat (Option Nozzle)
  dref : Tab Nat (Option Nat)
  pend : List (Nat × Nat × Nat)
  bars : Tab Nat BarLoop
  reports : List StartReport
  trims : List ((Nat × Nat × Nat) × Int)
  closed : List (Nat × Nat × List Nat)
  count : Nat
  since : Nat
  last : Option (Nat × Nat)
  numbered : List (Nat × Nat × Option Nat)
  fits : Tab Nat (Option Fit)
  deriving DecidableEq, Repr, Inhabited

/-! ### Axes and heat (11) -/

/-- A segment of a profile: duration in ns and jerk in steps/s^3 (constant over it); an acceleration that the segment sets
at its start, if any (a maximum-deceleration stop has no jerk limit, R270). -/
structure Seg where
  dur : Nat
  jerk : Int
  acc? : Option Int
  deriving DecidableEq, Repr, Inhabited

/-- What a profile does: at rest, runs to a target, runs at a speed without end (homing), stops at a_max, stops at `ASTOP`. -/
inductive Run where
  | rest | toTarget | speed | stop | maxStop
  deriving DecidableEq, Repr, Inhabited

/-- A profile (11, R273): position, velocity and acceleration in 2^-32 steps and per s, the segments to come, its end. -/
structure Prof where
  p : Int
  v : Int
  a : Int
  run : Run
  segs : List Seg
  goal : Int
  waiting : Option Int
  deriving DecidableEq, Repr, Inhabited

/-- Coefficients in force and histories of a compensator (11, R279, R280): coefficients s3.28, e and y s16.16. -/
structure Comp where
  coef : List Int
  e : List Int
  y : List Int
  yraw : Int
  deriving DecidableEq, Repr, Inhabited

/-- A latched limit (11, R269): position at which it tripped, in 2^-32 steps. -/
structure Latch where
  at? : Option Int
  deriving DecidableEq, Repr, Inhabited

/-- A pending group target (15, R365): target and time of the request. -/
structure GroupTgt where
  tgt : Int
  since : Nat
  deriving DecidableEq, Repr, Inhabited

/-- An axis (11). `est` is the estimate in 2^-32 steps, as of the time `estAt`, with the bounds of its Hall sector (none known while they are equal);
`hall` the last Hall state, `qa`, `qb`
the quadrature inputs; `edge` tells that the HOME edge of the latch move was seen; `settled` counts samples settled in homing;
`feSince` since when FE has exceeded its limit, `homeSince` the time of the homing command; `fails` consecutive failed frames; `addr` the last commutation address. -/
structure Axis where
  prof : Prof
  est : Int
  estAt : Nat
  estLo : Int
  estHi : Int
  hall : Nat
  qa : Bool
  qb : Bool
  comp : Comp
  low : Latch
  high : Latch
  homeIn : Bool
  edge : Bool
  settled : Nat
  pend : Option GroupTgt
  feSince : Option Nat
  homeSince : Option Nat
  fails : Nat
  addr : Nat
  deriving DecidableEq, Repr, Inhabited

/-- An axis port (11, R276). -/
structure AxPort where
  fcnt : Nat
  deriving DecidableEq, Repr, Inhabited

/-- Threshold counting of R284: samples at or above, samples at or below less the hysteresis, crossed. -/
structure Thr where
  up : Nat
  down : Nat
  on : Bool
  deriving DecidableEq, Repr, Inhabited

/-- A heater loop with its model (11, R281 to R287): t and tm in 2^-16 degree, arrival of the last reading in ns, firing power
in mW; `plausAt`: since when every fresh sample has differed from the model by more than 3 degrees, `plausHeld` for how many ns of it
the reading was stale (R287). -/
structure Heat where
  comp : Comp
  t : Int
  tm : Int
  readAt : Option Nat
  pfire : Nat
  soft : Thr
  hard : Thr
  plausAt : Option Nat
  plausHeld : Nat
  enabled : Bool
  deriving DecidableEq, Repr, Inhabited

/-- A trace channel (11, R288): samples of its loop since it was armed, samples recorded newest first, samples still to come,
the node's last value, whether its event was raised since it was armed. -/
structure Trace where
  tick : Nat
  samples : List Nat
  left : Nat
  last : Int
  hit : Bool
  deriving DecidableEq, Repr, Inhabited

/-! ### Abacus and sensing (12) -/

/-- An energy record (12, Table 12-1). -/
structure ERec where
  bar : Nat
  jn : Nat
  line : Nat
  count : Nat
  sseq : Nat
  e : List Nat
  deriving DecidableEq, Repr, Inhabited

/-- The planner (12): time of the last epoch end, bar-0 lines sent since, energy sent per head slot in 0.01 nJ, energy
records held, ceiling profile, v_mod; epochs in a row under P_lim less PHYST and over the ceiling; epochs since the last rise
of P_lim and of each bar's limit; by how many 0.1 W the throttle has lowered P_lim; whether the ceiling is out of reach. -/
structure Aba where
  since : Nat
  lines : Nat
  fired : Tab Nat Nat
  recs : List ERec
  prof : List Nat
  vmod : Option Nat
  under : Nat
  exceeded : Nat
  plimRise : Nat
  barRise : Tab Nat Nat
  cut : Nat
  short : Bool
  deriving DecidableEq, Repr, Inhabited

/-- Temperature sensing (12, R299, R300): a demand of the Abacus or of HK is being converted, so that it counts as a sample;
threshold counters of T_J and T_D. -/
structure Temp where
  sample : Bool
  warn : Thr
  throttle : Thr
  tjShut : Thr
  tdShut : Thr
  deriving DecidableEq, Repr, Inhabited

/-! ### Memory (13) -/

/-- A memory channel (13): threshold of the 2x band, samples off `TCAL`, a run in
progress, another run pending, open window, end of the last window, since when a step waits, lateness raised, `TCAL` of the
other operating point, time `MEM_CE` was last raised. -/
structure MemCh where
  band : Thr
  leave2x : Bool
  moved : Nat
  run : Bool
  again : Option Nat
  window : Option Nat
  winEnd : Nat
  waitSince : Nat
  late : Bool
  tcalOther : Nat
  ceAt : Option Nat
  deriving DecidableEq, Repr, Inhabited

/-! ### Time and ring (15) -/

/-- PTP (15, R353 to R357): master in use, Syncs within and beyond the thresholds, time of the last Sync, number of the next
own Sync; time of the last rate change; whether the selected port has a master, and since when (R357). -/
structure Ptp where
  master : Option Nat
  good : Nat
  bad : Nat
  syncAt : Nat
  own : Bool
  seq : Nat
  rateAt : Nat
  served : Bool
  servedAt : Nat
  deriving DecidableEq, Repr, Inhabited

/-- Why an originator is in force (15, R361, R362): HOLD frames, the loss of the member, the ring down; when its last HOLD frame came. -/
structure Orig where
  frames : Bool
  lost : Bool
  down : Bool
  heard : Nat
  deriving DecidableEq, Repr, Inhabited

/-- Another member as its STATUS frames show it (15, Table 15-2). -/
structure Member where
  present : Nat
  requests : Nat
  hops : Nat
  at' : Nat
  deriving DecidableEq, Repr, Inhabited

/-- Payloads of Table 15-2. -/
inductive RingPay where
  | hold (rel : Bool) (cause seq : Nat)
  | start (group sec ns : Nat)
  | pulse (second rt : Nat)
  | status (state holdc flags present requests sec : Nat)
  deriving DecidableEq, Repr

/-- A ring frame: originator, hop count, payload. -/
structure RingFrame where
  src : Nat
  hops : Nat
  pay : RingPay
  deriving DecidableEq, Repr

/-- The ring port (15): members by ID, originators by ID, HOLD sequence, a local hold was announced, start epoch of each
group in ns with the targets that wait for it, time of the last PULSE sent and its second, time of the last good frame. -/
structure Ring where
  members : Tab Nat (Option Member)
  orig : Tab Nat Orig
  holdSeq : Nat
  announced : Bool
  epochs : Tab Nat (Option Nat)
  startSent : List Nat
  pulseAt : Option Nat
  frameAt : Nat
  lastMaster : Nat
  latchLo : Nat
  latchHi : Nat
  running : Bool
  deriving DecidableEq, Repr, Inhabited

/-- A frame of an axis port toward the drives (11, Table 11-2). -/
structure AxisFrame where
  fcnt : Nat
  words : List Nat
  crc : Nat
  deriving DecidableEq, Repr, Inhabited

/-- PTP messages sent (15, R354, R356): a Sync with its originTimestamp in ns. -/
structure PtpOut where
  port : Nat
  seq : Nat
  origin : Nat
  deriving DecidableEq, Repr, Inhabited

end Sys2Proof.Machine
end

