-- ==== Sys2Proof/Machine/Arith.lean ====
section
/-! DEFINITION. Arithmetic that several chapters use: rounding, square roots, logarithms, thresholds. The spec's formulas are
over real numbers; a real is held as a scaled integer, rounded down where no rounding is stated (assumption 21). -/
namespace Sys2Proof.Machine

/-- Nearest integer of a quotient, halves upward; 0 for a divisor of 0. -/
def roundDiv (a : Int) (b : Nat) : Int := (2 * a + b) / (2 * b : Int)

/-- `x` limited to the range `lo` to `hi`. -/
def clampInt (lo hi x : Int) : Int := max lo (min hi x)

/-- Bits `k - 1` to 0 of the root of `n`, `r` holding the bits above. -/
def isqrtBits : Nat → Nat → Nat → Nat
  | 0, _, r => r
  | k + 1, n, r => if (r + 2 ^ k) * (r + 2 ^ k) ≤ n then isqrtBits k n (r + 2 ^ k) else isqrtBits k n r

/-- Integer square root, rounded down, of a number below 2^256. -/
def isqrt (n : Nat) : Nat := isqrtBits 128 n 0

/-- Fraction bits of logarithms. -/
def lnBits : Nat := 80

/-- Sum of z^(2i+1)/(2i+1) from i on, for z in 2^-80 with power `zp`. -/
def atanhSum : Nat → Nat → Int → Int → Int
  | 0, _, _, _ => 0
  | fuel + 1, i, z2, zp => zp / (2 * i + 1 : Int) + atanhSum fuel (i + 1) z2 (zp * z2 / 2 ^ lnBits)

/-- Natural logarithm of `m` in 2^-80, for m in 1 to 2 given in 2^-80. -/
def lnMant (m : Int) : Int :=
  let z := (m - 2 ^ lnBits) * 2 ^ lnBits / (m + 2 ^ lnBits)
  2 * atanhSum 40 0 (z * z / 2 ^ lnBits) z

/-- Position of the highest 1 bit among the lowest `k` bits, 0 when none is set. -/
def topBit : Nat → Nat → Nat
  | 0, _ => 0
  | k + 1, n => if n.testBit k then k else topBit k n

/-- Natural logarithm of a/b in 2^-80, for 0 < a < 2^64 and b a power of 2 given by its exponent. -/
def lnQuot (a e : Nat) : Int :=
  let t := topBit 64 a
  ((t : Int) - e) * lnMant (2 ^ (lnBits + 1)) + lnMant (a * 2 ^ lnBits / 2 ^ t)

/-- One sample of a threshold under R284 (11): crossed upward after 3 consecutive samples at or above `hi`, crossed back after
3 consecutive samples at or below `lo`. -/
def Thr.sample (t : Thr) (v hi lo : Int) : Thr :=
  let up := if hi ≤ v then t.up + 1 else 0
  let down := if v ≤ lo then t.down + 1 else 0
  if t.on then { up := 0, down := if 3 ≤ down then 0 else down, on := decide (down < 3) }
  else { up := if 3 ≤ up then 0 else up, down := 0, on := decide (3 ≤ up) }

end Sys2Proof.Machine
end

