-- ==== Sys2Proof/Config.lean ====
section
/-! DEFINITION. What one implementation fixes, and the free values of the model. A free value is an opaque constant: no
proof can see what it is (assumption 3). -/
namespace Sys2Proof.Config

/-- The `n`-th value that the spec leaves open, as 64 bits. The state counts the values drawn (`freeCtr`); assumption 3. -/
opaque freeValue : Nat → BitVec 64

/-- The module identity `MODID` (14, Table 14-1): the spec states no value; assumption 3. -/
opaque modid : BitVec 32

/-- First line of a glyph's bitmap, from the baseline's line and the glyph's baseline offset: the spec does not say on which side
of the baseline the offset lies (02, "Images and glyphs"); assumption 25. -/
opaque glyphTop : Int → Int → Int

/-- A sample that the pipeline stages have no rule for: by frame ID and pixel, outside the frame or with no neighbour (09, R231);
assumption 26. -/
opaque pixelFree : Nat → Int → Int → BitVec 20

/-- Low byte of the events that report missing glyphs (0), clipped text (1) and empty slots (2): no event table has them (02, R39);
assumption 47. -/
opaque contentLow : Nat → BitVec 8

/-- Frame interval of the slowest enabled camera in ns: no register holds it (10, R243); assumption 28. -/
opaque frameInterval : BitVec 32

/-- The frame row of a camera port at which a line of a Brim gap stands: no field gives the camera's scale (10, R245); assumption 64. -/
opaque frameRow : Nat → Nat → BitVec 13

/-- The column of a camera port, in 1/256 pixel, at which a bar's printable position is expected before a stripe has been fitted (10,
R246); assumption 65. -/
opaque firstColumn : Nat → Nat → Int → BitVec 22

/-- What a byte of DRAM reads as that nothing has written (assumption 4, DESIGN CHOICE). -/
def dramUnlisted : Byte := 0

/-- What a byte of the NOR flash reads as that nothing has programmed: the erased value (assumption 6, PRESUMED). -/
def norUnlisted : Byte := 0xFF

/-- `CHAIN_RESERVE` before an `abacus` record is held: the default of 02, R50. -/
def chainReserveDefault : Nat := 4096

/-- `JOB_RECV_TIMEOUT` in ns before a `limits` record is held: the default of 02, R42. -/
def jobRecvTimeoutDefault : Nat := 10000000000

/-- Bytes of the store region before a `limits` record is held: the default 8 GiB of 02, "The job queue". -/
def storeRegionDefault : Nat := 8589934592

/-- Bytes of the cache region before a `limits` record is held: the default 16 GiB of 02, "The job queue". -/
def cacheRegionDefault : Nat := 17179869184

end Sys2Proof.Config
end

