-- ==== Sys2Proof/Machine/Block.lean ====
section
/-! DEFINITION. `Dev`: everything the spec gives the block but DRAM and the queue of waiting commands. -/
namespace Sys2Proof.Machine

/-- Timebase (15, R347 to R351): both counters in 2^-32 ns, last servo rate in ppb, since when PTP is unlocked or locked,
whether the fallback counter is being slewed to the main clock and its slew rate in 2^-48 ns per tick, last crystal error in
ppb. -/
structure Tb where
  main : Nat
  fb : Nat
  rate : Int
  unlockedAt : Option Nat
  lockedAt : Option Nat
  slewing : Bool
  slew : Int
  xtalErr : Int
  deriving DecidableEq, Repr, Inhabited

/-- Steps of the boot timeline already completed (16, Table 16-1). -/
inductive BootStage where
  | powerGood | headerRead | firstPass | dramTrained | secondPass | contentChecked | released | rodsBuilt | done
  deriving DecidableEq, Repr, Inhabited

/-- Order of the steps of Table 16-1. -/
def BootStage.num : BootStage → Nat
  | .powerGood => 0 | .headerRead => 1 | .firstPass => 2 | .dramTrained => 3 | .secondPass => 4 | .contentChecked => 5
  | .released => 6 | .rodsBuilt => 7 | .done => 8

/-- Crown header (16, Table 16-4). -/
structure CrownHdr where
  lock : Bool
  xmode : Nat
  spread : Bool
  imgver : Nat
  varmask : Nat
  nrec : Nat
  recofs : Nat
  reclen : Nat
  setcrc : Nat
  xsck : Nat
  deriving DecidableEq, Repr, Inhabited

/-- Why the device is in SAFE (01, Table 1-9). -/
inductive SafeCause where
  | enterSafe | record | invalid
  deriving DecidableEq, Repr, Inhabited

/-- Engines of Table 1-2 by name; a Reckoner carries its index. -/
inductive Engine where
  | sv0 | sv1 | cc0 | cc1 | vs | hk | rk (i : Nat)
  deriving DecidableEq, Repr, Inhabited

/-- A program loaded into an engine: entry and segments written to its local memory (16, R381). -/
structure Program where
  entry : Nat
  segs : List (Nat × List Byte)
  deriving DecidableEq, Repr, Inhabited

/-- The boot (16): step, header and contents of the image in use, causes of SAFE, engines running and their programs. -/
structure Boot where
  stage : BootStage
  hdr : Option CrownHdr
  content : Option CrownContent
  safeBy : List SafeCause
  running : List Engine
  programs : List (Engine × Program)
  deriving DecidableEq, Repr, Inhabited

/-- A 64-byte record of the event log at its NOR offset (16, R394, R395). -/
structure LogRec where
  ofs : Nat
  bytes : List Byte
  deriving DecidableEq, Repr, Inhabited

/-- The NOR flash: bytes as programmed, and the event log area's records, newest first (16, R374, R394). -/
structure Nor where
  cells : Tab Nat Byte
  log : List LogRec
  deriving DecidableEq, Repr, Inhabited

/-- Writes to the NOR: a log record at the write point, an erase of whole sectors, a program, the erase of the log area (16, Table
16-6, R394). -/
inductive NorOp where
  | log (rec : List Byte)
  | erase (ofs sectors : Nat)
  | program (ofs : Nat) (data : List Byte)
  | logErase
  deriving DecidableEq, Repr

/-- Supply (12, R301 to R303): input in mV, since when the warning holds in ns of the timebase (below 0 after a reset of the
timebase), the writes deferred while it holds. -/
structure Pwr where
  vin : Nat
  warnSince : Option Int
  deferred : List NorOp
  deriving DecidableEq, Repr, Inhabited

/-- A shutdown (12, R304, R305): its record, when it was confirmed, whether the record is written; `due`: confirmed with this cause and
event, and taken at the end of the evaluation period (01, R24). -/
structure Shut where
  due : Option (Nat × Nat)
  record : List Byte
  since : Nat
  written : Bool
  deriving DecidableEq, Repr, Inhabited

/-- Output pins (01, Table 1-8; 07, R166; 14, R345; 11, R276). SPEED_CEIL: high time in 4 ns ticks, none when inactive.
AXSYNC: time of its last rising edge; it is high for 1 us. -/
structure Pins where
  ready : Bool
  href : Bool
  relaysOpen : Bool
  sceil : Option Nat
  axsyncAt : Option Nat
  deriving DecidableEq, Repr, Inhabited

/-- What leaves the module, in the model's own record. -/
inductive Output where
  | xpp (role : Role) (seq : Nat) (m : XppMsg)
  | zl (lane fseq : Nat) (f : ZlFrame) (fcrc nblk : Nat)
  | nor (erase : Bool) (ofs len : Nat)
  | ring (f : RingFrame)
  | axis (port : Nat) (f : AxisFrame)
  | camI2c (port dev reg regBytes data dataBytes : Nat)
  | ptp (m : PtpOut)
  | bulkClosed (conn : Nat)
  deriving DecidableEq, Repr

/-- The block. `lc` is the link counter LC in 2^-32 ns (07, "Time alignment"). -/
structure Dev where
  variant : Variant
  rf : Tab (Fld × Nat × Nat) Nat
  nor : Nor
  tb : Tb
  lc : Nat
  boot : Boot
  pwr : Pwr
  shut : Option Shut
  holdSeen : Nat
  xpp : Xpp
  jobs : List Job
  ended : List Nat
  conns : List Conn
  suppressAuto : Bool
  rk : Rk
  dose : Tab Nat Dose
  curveSet : Option Nat
  screenSet : Option Nat
  reload : Bool
  rodMaster : Tab Nat Nat
  rwy : Tab Nat Rwy
  lvSince : Nat
  ratioHist : List (Nat × Nat)
  fire : Fire
  lanes : Tab Nat Lane
  integ : Integ
  accounts : Tab Nat (Option Account)
  vis : Tab Nat Vis
  loops : Loops
  axes : Tab Nat Axis
  axp : Tab Nat AxPort
  heat : Tab Nat Heat
  trace : Tab Nat Trace
  aba : Aba
  temp : Temp
  msub : Tab Nat MemCh
  freqWait : Bool
  ptp : Ptp
  ring : Ring
  evr : BufRing EvEntry
  pins : Pins
  out : List Output
  freeCtr : Nat
  deriving DecidableEq, Repr

end Sys2Proof.Machine
end

