-- ==== Sys2Proof/Machine/Bytes.lean ====
section
/-! DEFINITION. Byte strings: little-endian fields (00, R7), CRC-32C (02, R26), signed readings. -/
namespace Sys2Proof.Machine

/-- The `n` low bytes of `v`, low byte first. -/
def le : Nat → Nat → List Byte
  | 0, _ => []
  | n + 1, v => toByte (v % 256) :: le n (v / 256)

/-- A byte string as a field of `n` bytes: zeros fill it up, bytes beyond it are no part of it. -/
def fit (n : Nat) (bs : List Byte) : List Byte := (bs ++ List.replicate n 0).take n

/-- The value of a little-endian byte string. -/
def leVal : List Byte → Nat
  | [] => 0
  | b :: t => b.toNat + 256 * leVal t

/-- The `n`-byte field at offset `ofs`; bytes beyond the end read 0. -/
def fieldAt (bs : List Byte) (ofs n : Nat) : Nat := leVal ((bs.drop ofs).take n)

/-- One bit step of CRC-32C in reflected form (polynomial 0x1EDC_6F41). -/
def crcBit (s : U32) : U32 := if s.getLsbD 0 then (s >>> 1) ^^^ 0x82F63B78#32 else s >>> 1

/-- Advance a CRC-32C state by one byte (08, R209). -/
def crcByte (s : U32) (b : Byte) : U32 :=
  crcBit (crcBit (crcBit (crcBit (crcBit (crcBit (crcBit (crcBit (s ^^^ b.zeroExtend 32))))))))

/-- Advance a CRC-32C state by a byte string. -/
def crcFeed (s : U32) : List Byte → U32
  | [] => s
  | b :: t => crcFeed (crcByte s b) t

/-- CRC-32C of a byte string (02, R26). -/
def crc32c (bs : List Byte) : U32 := crcFeed 0xFFFFFFFF#32 bs ^^^ 0xFFFFFFFF#32

/-- The signed reading of the low `w` bits of `n`. -/
def signed (w n : Nat) : Int := (BitVec.ofNat w n).toInt

/-- The low `w` bits of a signed number. -/
def unsign (w : Nat) (x : Int) : Nat := (BitVec.ofInt w x).toNat

/-- Saturate a signed number to `w` bits and give its bits. -/
def satSigned (w : Nat) (x : Int) : Nat :=
  unsign w (min (max x (-(2 ^ (w - 1) : Nat))) ((2 ^ (w - 1) : Nat) - 1))

/-- Bit `b` of a number. -/
def bitOf (n b : Nat) : Bool := n.testBit b

/-- Bits `lo` to `lo + w - 1` of a number. -/
def bitsOf (n lo w : Nat) : Nat := n / 2 ^ lo % 2 ^ w

/-- `n` with bit `b` set to 1. -/
def withBit (n b : Nat) : Nat := n ||| 2 ^ b

/-- `n` with bit `b` set to 0. -/
def withoutBit (n b : Nat) : Nat := if n.testBit b then n - 2 ^ b else n

/-- Number of 1 bits among the lowest `w`. -/
def popcount : Nat → Nat → Nat
  | 0, _ => 0
  | w + 1, n => n % 2 + popcount w (n / 2)

/-- Ceiling of a quotient; 0 for a divisor of 0. -/
def ceilDiv (a b : Nat) : Nat := (a + b - 1) / b

/-- A Bool as 0 or 1. -/
def bit (b : Bool) : Nat := if b then 1 else 0

/-- Element `n` of a list of numbers, 0 beyond its end. -/
def nth (l : List Nat) (n : Nat) : Nat := (l[n]?).getD 0

/-- Insert or replace element `n`. -/
def setNth {α : Type} (l : List α) (n : Nat) (v : α) : List α := l.set n v

end Sys2Proof.Machine
end

