-- ==== Sys2Proof/Machine/Ops.lean ====
section
/-! DEFINITION. The named operations over the block's state that the meanings share: registers, time, free values, power
domains, events, messages, device state, hold causes and stop requests, the event log, positions and placements. -/
namespace Sys2Proof.Machine

/-! ### Registers -/

/-- Order of register keys: field, then first index, then second. -/
def regLt (a b : Fld × Nat × Nat) : Bool :=
  decide (a.1.ctorIdx < b.1.ctorIdx) ||
    (decide (a.1.ctorIdx = b.1.ctorIdx) && (decide (a.2.1 < b.2.1) || (decide (a.2.1 = b.2.1) && decide (a.2.2 < b.2.2))))

/-- The value of a register field; `i` and `j` are its indices in an array. -/
def Dev.rd (d : Dev) (f : Fld) (i : Nat := 0) (j : Nat := 0) : Nat := Tab.get (fldSpec f).reset d.rf (f, i, j)

/-- Write a register field; the value is taken modulo the field's width. -/
def Dev.wr (d : Dev) (f : Fld) (v : Nat) (i : Nat := 0) (j : Nat := 0) : Dev :=
  { d with rf := Tab.set regLt (fldSpec f).reset d.rf (f, i, j) (v % 2 ^ (fldSpec f).width) }

/-- A field read as a flag. -/
def Dev.flag (d : Dev) (f : Fld) (i : Nat := 0) (j : Nat := 0) : Bool := d.rd f i j != 0

/-- A field read as a signed number of its width. -/
def Dev.srd (d : Dev) (f : Fld) (i : Nat := 0) (j : Nat := 0) : Int := signed (fldSpec f).width (d.rd f i j)

/-- Add `n` to a counter, saturating at its width. -/
def Dev.addSat (d : Dev) (f : Fld) (n : Nat) (i : Nat := 0) (j : Nat := 0) : Dev :=
  d.wr f (min (d.rd f i j + n) (2 ^ (fldSpec f).width - 1)) i j

/-- Increment a saturating counter. -/
def Dev.inc (d : Dev) (f : Fld) (i : Nat := 0) (j : Nat := 0) : Dev := d.addSat f 1 i j

/-- Increment a wrapping counter. -/
def Dev.incWrap (d : Dev) (f : Fld) (i : Nat := 0) (j : Nat := 0) : Dev := d.wr f (d.rd f i j + 1) i j

/-- Set bit `b` of a field. -/
def Dev.setBit (d : Dev) (f : Fld) (b : Nat) (i : Nat := 0) (j : Nat := 0) : Dev := d.wr f (withBit (d.rd f i j) b) i j

/-- Clear bit `b` of a field. -/
def Dev.clrBit (d : Dev) (f : Fld) (b : Nat) (i : Nat := 0) (j : Nat := 0) : Dev := d.wr f (withoutBit (d.rd f i j) b) i j

/-! ### Free values, time, power -/

/-- The next free value of the model (assumption 3), as a number of `w` bits, and the state with it drawn. -/
def Dev.free (d : Dev) (w : Nat) : Nat × Dev :=
  ((Config.freeValue d.freeCtr).toNat % 2 ^ w, { d with freeCtr := d.freeCtr + 1 })

/-- The timebase in force in 2^-32 ns: `TB_CTL.SRC` names the counter (15, R347). -/
def Dev.nowFrac (d : Dev) : Nat := if d.flag .TB_CTL_SRC then d.tb.fb else d.tb.main

/-- The timebase in force in ns. -/
def Dev.now (d : Dev) : Nat := d.nowFrac / 2 ^ 32

/-- `ns` of the timebase in force have passed since a time. -/
def Dev.passed (d : Dev) (since ns : Nat) : Bool := decide (since + ns ≤ d.now)

/-- Seconds [31:0] of a time in ns. -/
def tsec (ns : Nat) : Nat := ns / 1000000000 % 2 ^ 32

/-- Nanoseconds within the second. -/
def tns (ns : Nat) : Nat := ns % 1000000000

/-- The power domain is on (17, AON_PDSTAT). -/
def Dev.domOn (d : Dev) (p : Dom) : Bool := bitOf (d.rd .AON_PDSTAT_ON) p.bit

/-- Switch a domain on. -/
def Dev.domUp (d : Dev) (p : Dom) : Dev := d.setBit .AON_PDSTAT_ON p.bit

/-- The device is the A32 (00, R3, R4). -/
def Dev.isA32 (d : Dev) : Bool := d.variant = .a32

/-- The variant code that AON_ID.VARIANT, STATUS and the ACK of HELLO report (00, Table 0-1, R3; 17, AON_ID). -/
def Dev.variantCode (d : Dev) : Nat := if d.isA32 then 0x2 else 0x1

/-- RW_POOL.COUNT: pages in the pool of the variant (05, RW_POOL). -/
def Dev.poolCount (d : Dev) : Nat := if d.isA32 then 0x38000 else 0x78000

/-- Lanes, camera ports and axes of the variant (00, Table 0-1). -/
def Dev.nLanes (d : Dev) : Nat := if d.isA32 then 32 else 64
/-- Camera ports of the variant. -/
def Dev.nPorts (d : Dev) : Nat := if d.isA32 then 2 else 4
/-- Axes of the variant. -/
def Dev.nAxes (d : Dev) : Nat := if d.isA32 then 8 else 16

/-- The device state (17, AON_STATE). -/
def Dev.st (d : Dev) : DState := DState.ofCode (d.rd .AON_STATE_STATE)

/-- ARMED, PRINTING, DRAINING (01, Table 1-9). -/
def DState.running : DState → Bool
  | .armed | .printing | .draining => true
  | _ => false

/-- IDLE to HOLD. -/
def DState.idleToHold : DState → Bool
  | .idle | .armed | .printing | .draining | .hold => true
  | _ => false

/-- The engine runs its program (16, R381). -/
def Dev.runs (d : Dev) (e : Engine) : Bool := d.boot.running.elem e

/-! ### Output and messages (14) -/

/-- Append to the model's output record (newest first). -/
def Dev.emit (d : Dev) (o : Output) : Dev := { d with out := o :: d.out }

/-- The peer of a role. -/
def Dev.peer (d : Dev) (r : Role) : Peer := Tab.at d.xpp.peers r.idx

/-- Change a peer. -/
def Dev.setPeer (d : Dev) (r : Role) (p : Peer) : Dev :=
  { d with xpp := { d.xpp with peers := Tab.put d.xpp.peers r.idx p } }

/-- The role is UP (14, R335). -/
def Dev.up (d : Dev) (r : Role) : Bool := bitOf (d.rd .XPP_PEER_UP) r.idx

/-- Messages kept for NOTE_RESEND (14, R333). -/
def XppMsg.kept : XppMsg → Bool
  | .event .. | .jobStatus .. | .stopReq .. | .spoiled .. => true
  | _ => false

/-- Send a message to a peer: nothing while it is DOWN (14, R335); numbered and, by kind, kept (R333). -/
def Dev.send (d : Dev) (r : Role) (m : XppMsg) : Dev :=
  if d.up r then
    let p := d.peer r
    let kept := if m.kept then (p.seq, m) :: p.kept else p.kept
    let gone := match kept[1024]? with
      | some x => some x.1
      | none => p.gone
    let p' : Peer := { p with seq := (p.seq + 1) % 2 ^ 32, kept := kept.take 1024, gone := gone }
    (d.setPeer r p').emit (.xpp r p.seq m)
  else d

/-- Send to every peer that is UP. -/
def Dev.sendAll (d : Dev) (m : XppMsg) : Dev := ((d.send .pc m).send .js m).send .mt m

/-- T_J: the highest reading of sensors 0 to 7, in 1/16 degree (12, R299). -/
def Dev.tj (d : Dev) : Int :=
  [1, 2, 3, 4, 5, 6, 7].foldl (fun m s => max m (d.srd .AON_TEMP_T s)) (d.srd .AON_TEMP_T 0)

/-- T_D: the highest die temperature that the memory subsystem reads (12, R299). -/
def Dev.td (d : Dev) : Int := max (d.srd .MEM_TEMP_TD 0) (d.srd .MEM_TEMP_TD 1)

/-- Little-endian `MAGIC` values of the event log (16, Table 16-7). -/
def magicBoot : Nat := 0x4E445442
/-- Shutdown record. -/
def magicShutdown : Nat := 0x4E444853
/-- Clear record. -/
def magicClear : Nat := 0x4E444C43
/-- Supply record. -/
def magicSupply : Nat := 0x4E445053
/-- Fatal record. -/
def magicFatal : Nat := 0x4E444146

/-- The newest shutdown record with no later clear record, if any (12, R306; 16, R395). -/
def unclearedRec : List LogRec → Option LogRec
  | [] => none
  | r :: t =>
    if fieldAt r.bytes 0 4 = magicShutdown then some r
    else if fieldAt r.bytes 0 4 = magicClear then none
    else unclearedRec t

/-- First byte of the event log area, and its length; length 0 while no `eventlog` record is held. -/
def Dev.logArea (d : Dev) : Nat × Nat := (d.rd .CR_LOG_BASE_SECT * 65536, d.rd .CR_LOG_BASE_COUNT * 65536)

/-- The records of the area, newest first. -/
def Dev.logRecs (d : Dev) : List LogRec :=
  d.nor.log.filter (fun r => decide (d.logArea.1 ≤ r.ofs) && decide (r.ofs < d.logArea.1 + d.logArea.2))

/-- The shutdown record held uncleared. -/
def Dev.uncleared (d : Dev) : Option LogRec := unclearedRec d.logRecs

/-- STATUS payload (14, Table 14-5). -/
def Dev.statusPayload (d : Dev) : List Byte :=
  le 4 (Config.modid.toNat) ++ le 1 d.variantCode ++ le 1 d.st.code ++ le 1 (d.rd .AON_STATE_HOLDC)
    ++ le 1 (d.rd .AON_STATE_STOPREQ) ++ le 8 d.fire.pos.toNat ++ le 4 (d.rd .FIRE_SPEED_V)
    ++ le 1 (d.rd .FIRE_SPDSTAT_STATUS) ++ le 1 (d.rd .XPP_PEER_UP) ++ le 2 0 ++ le 4 (d.rd .AB_CEIL_C)
    ++ le 4 (d.rd .RW_LEAD_COUNTS) ++ le 4 (d.rd .FIRE_DUE_JN_JN) ++ le 4 (d.rd .FIRE_DUE_LINE_LINE)
    ++ le 4 (tsec d.now) ++ le 4 (tns d.now) ++ le 2 (unsign 16 d.tj) ++ le 2 (unsign 16 d.td) ++ le 2 d.pwr.vin
    ++ le 1 (d.rd .AB_LADDER_STEP)
    ++ le 1 (d.rd .AON_PWR_WARN + 2 * d.rd .AB_STAT_THROTTLE + 4 * d.rd .PTP_STAT_LOCK + 8 * bit d.uncleared.isSome)
    ++ le 4 (d.rd .CR_BOOTCNT_N) ++ le 4 0

/-- Send STATUS to each peer that is UP (14, R337). -/
def Dev.sendStatus (d : Dev) : Dev := d.sendAll (.status d.statusPayload)

/-! ### Events (17, R403 to R405) -/

/-- Put a record into a filled ring: into a buffer while one has room, else into the waiting queue of `cap` records; when
that is full the record is lost. Answers the ring and whether the record was lost. -/
def BufRing.push {α : Type} (r : BufRing α) (cap now : Nat) (x : α) : BufRing α × Bool :=
  if r.inBufs.length < r.caps.foldl (· + ·) 0 then ({ r with inBufs := r.inBufs ++ [(now, x)], lost := false }, false)
  else if r.wait.length < cap then ({ r with wait := r.wait ++ [(now, x)], lost := false }, false)
  else ({ r with lost := true }, true)

/-- Move waiting records into buffers that have room. -/
def BufRing.refill {α : Type} (r : BufRing α) : BufRing α :=
  let room := r.caps.foldl (· + ·) 0 - r.inBufs.length
  { r with inBufs := r.inBufs ++ r.wait.take room, wait := r.wait.drop room }

/-- The newest record of a filled ring takes its place among those of its 4 ns tick, ahead of those it precedes (17, R404). -/
def BufRing.inOrder {α : Type} (r : BufRing α) (precedes : α → α → Bool) : BufRing α :=
  match (r.inBufs ++ r.wait).reverse with
  | [] => r
  | x :: older =>
    let after := older.takeWhile (fun y => decide (y.1 / 4 = x.1 / 4) && precedes x.2 y.2)
    let all := (after ++ x :: older.drop after.length).reverse
    { r with inBufs := all.take r.inBufs.length, wait := all.drop r.inBufs.length }

/-- The order of events raised in the same tick: by class, fatal first, then by ascending sub-range index and low byte (17, R404). -/
def EvEntry.precedes (a b : EvEntry) : Bool :=
  decide (b.code / 4096 < a.code / 4096) || (decide (a.code / 4096 = b.code / 4096) && decide (a.code % 4096 < b.code % 4096))

/-- Forward an event to a peer when its class bit is set in `XPP_EVMASK` (14, Table 14-3). -/
def Dev.forwardEvent (d : Dev) (e : EvCode) (data : List Byte) (r : Role) : Dev :=
  if bitOf (d.rd .XPP_EVMASK_MASK) (4 * r.idx + e.cls.idx) then
    d.send r (.event e.code (tsec d.now) (tns d.now) data)
  else d

/-- Armed trace channels that trigger on an event take note of it (11, R288). -/
def Dev.traceNote (d : Dev) (code : Nat) : Dev :=
  [0, 1, 2, 3].foldl (fun (d : Dev) c =>
    if d.rd .TR_STAT_STATE c = 1 && d.rd .TR_TRIG_MODE c = 1 && d.rd .TR_TRIG_EVT c = code then
      { d with trace := Tab.upd d.trace c (fun t => { t with hit := true }) }
    else d) d

/-- Raise an event: pending bit, entry for ring EVR (a lost entry is counted and still sets its bit), EVENT messages. -/
def Dev.raise (d : Dev) (e : EvCode) (data : List Byte := []) : Dev :=
  let d := (d.setBit .AON_EVPEND_PEND e.sub e.cls.idx).traceNote e.code
  let (ring, lost) := d.evr.push 64 d.now ⟨e.code, d.now, data, d.evr.lost⟩
  let d := { d with evr := ring.inOrder EvEntry.precedes }
  let d := if lost then d.inc .AON_EVLOST_N else d
  ((d.forwardEvent e data .pc).forwardEvent e data .js).forwardEvent e data .mt

/-! ### Event log (16, R394, R395) -/

/-- A record body padded to 60 bytes with its CRC in bytes 60 to 63. -/
def sealRec (body : List Byte) : List Byte :=
  let b := (body ++ List.replicate 60 (toByte 0)).take 60
  b ++ le 4 (crc32c b).toNat

/-- Erase sectors of the NOR: every byte reads 0xFF. -/
def Dev.norErase (d : Dev) (ofs sectors : Nat) : Dev :=
  let keep := fun (a : Nat) => decide (a < ofs) || decide (ofs + sectors * 65536 ≤ a)
  let nor : Nor := { cells := d.nor.cells.filter (fun c => keep c.1), log := d.nor.log.filter (fun r => keep r.ofs) }
  ({ d with nor := nor }).emit (.nor true ofs (sectors * 65536))

/-- Write a 64-byte record at the write point: on entering a sector the next sector is erased; the area wraps. With no valid
`eventlog` record nothing is written. -/
def Dev.logPut (d : Dev) (rec : List Byte) : Dev :=
  let count := d.rd .CR_LOG_BASE_COUNT
  if count = 0 then d
  else
    let base := d.logArea.1
    let ofs := d.rd .CR_LOG_WP_OFS
    let d := if ofs % 65536 = 0 then d.norErase (base + (ofs / 65536 + 1) % count * 65536) 1 else d
    let d := { d with nor := { d.nor with log := ⟨base + ofs, rec⟩ :: d.nor.log.filter (fun r => r.ofs != base + ofs) } }
    (d.emit (.nor false (base + ofs) 64)).wr .CR_LOG_WP_OFS ((ofs + 64) % (count * 65536))

/-- Program bytes of the NOR: a program clears bits of the erased value and sets none (PRESUMED, assumption 29). -/
def norProgram (cells : Tab Nat Byte) (a : Nat) : List Byte → Tab Nat Byte
  | [] => cells
  | b :: t => norProgram (Tab.set natLt Config.norUnlisted cells a (Tab.get Config.norUnlisted cells a &&& b)) (a + 1) t

/-- Carry out a NOR operation (16, R389, R394). -/
def Dev.norDo (d : Dev) (o : NorOp) : Dev :=
  match o with
  | .log rec => d.logPut rec
  | .erase ofs n => d.norErase ofs n
  | .program ofs data =>
    ({ d with nor := { d.nor with cells := norProgram d.nor.cells ofs data } }).emit (.nor false ofs data.length)
  | .logErase => (d.norErase d.logArea.1 (d.rd .CR_LOG_BASE_COUNT)).wr .CR_LOG_WP_OFS 0

/-- Start a NOR operation, or defer it while the supply warning holds (12, R301; 16, R395). -/
def Dev.norStart (d : Dev) (o : NorOp) : Dev :=
  if d.flag .AON_PWR_WARN then { d with pwr := { d.pwr with deferred := d.pwr.deferred ++ [o] } } else d.norDo o

/-- Write a log record, deferred while the supply warning holds. -/
def Dev.logWrite (d : Dev) (rec : List Byte) : Dev := d.norStart (.log rec)

/-- The fatal record of Table 16-7. -/
def Dev.fatalRec (d : Dev) (code : Nat) (data : List Byte) : List Byte :=
  sealRec (le 4 magicFatal ++ le 2 1 ++ le 2 code ++ le 4 (tsec d.now) ++ le 4 (tns d.now) ++ data)

/-! ### Device state, hold causes, stop requests -/

/-- READY is high in IDLE, ARMED, PRINTING and DRAINING (01, Table 1-8). -/
def DState.readyHigh : DState → Bool
  | .idle | .armed | .printing | .draining => true
  | _ => false

/-- Enter a device state: READY follows, STATUS is sent at once on a change (14, R337); outside IDLE to HOLD no start or resume waits
for the memory any longer (13, R327). -/
def Dev.enter (d : Dev) (s : DState) : Dev :=
  let changed := d.st != s
  let d := d.wr .AON_STATE_STATE s.code
  let d := { d with pins := { d.pins with ready := s.readyHigh }, fire := { d.fire with first := none } }
  let d := match s with
    | .off | .boot | .safe | .shutdown =>
    let d := { d with pins := { d.pins with sceil := none } }
    { d with freqWait := false }
    | _ => d
  if changed then d.sendStatus else d

/-- Bits of `HOLDC` (14, Table 14-5). -/
inductive HoldBit where
  | pin | inhibit | xpp | ring | reversal | underrun | pcLost
  deriving DecidableEq, Repr

/-- Bit number of a hold cause. -/
def HoldBit.num : HoldBit → Nat
  | .pin => 0 | .inhibit => 1 | .xpp => 2 | .ring => 3 | .reversal => 4 | .underrun => 5 | .pcLost => 6

/-- The hold cause is set. -/
def Dev.held (d : Dev) (h : HoldBit) : Bool := bitOf (d.rd .AON_STATE_HOLDC) h.num

/-- Set or clear a hold cause; STATUS is sent at once on a change (14, R337). -/
def Dev.setHold (d : Dev) (h : HoldBit) (v : Bool) : Dev :=
  if d.held h = v then d
  else
    let d := if v then d.setBit .AON_STATE_HOLDC h.num else d.clrBit .AON_STATE_HOLDC h.num
    d.sendStatus

/-- Bits of `STOPREQ` (14, Table 14-5). -/
inductive StopBit where
  | reversal | slip | laneRecovery | headHard | headPlaus
  deriving DecidableEq, Repr

/-- Bit number of a stop request. -/
def StopBit.num : StopBit → Nat
  | .reversal => 0 | .slip => 1 | .laneRecovery => 2 | .headHard => 3 | .headPlaus => 4

/-- Request a stop of the press controller (14, R339): set the bit, send STOP_REQ at once, raise `XPP_STOPREQ`; STATUS on a
change. -/
def Dev.requestStop (d : Dev) (b : StopBit) : Dev :=
  let was := bitOf (d.rd .AON_STATE_STOPREQ) b.num
  let d := d.setBit .AON_STATE_STOPREQ b.num
  let d := d.send .pc (.stopReq (d.rd .AON_STATE_STOPREQ))
  let d := d.raise Ev.XPP_STOPREQ (le 1 (d.rd .AON_STATE_STOPREQ))
  if was then d else d.sendStatus

/-! ### Jobs -/

/-- The job held under a JN. -/
def Dev.job (d : Dev) (jn : Nat) : Option Job := d.jobs.find? (fun j => j.jn = jn)

/-- Change the job held under a JN. -/
def Dev.updJob (d : Dev) (jn : Nat) (f : Job → Job) : Dev :=
  { d with jobs := d.jobs.map (fun j => if j.jn = jn then f j else j) }

/-- The account of a job. -/
def Dev.account (d : Dev) (jn : Nat) : Account := (Tab.at d.accounts jn).getD default

/-- Change the account of a job; a job has one from its loading on. -/
def Dev.updAccount (d : Dev) (jn : Nat) (f : Account → Account) : Dev :=
  { d with accounts := Tab.put d.accounts jn (some (f (d.account jn))) }

/-- The figures of Table 8-7 in its order. -/
def Account.figures (a : Account) : List Nat :=
  [a.planned, a.good] ++ (List.range 15).map (fun r => Tab.at a.spoiled (r + 1))
    ++ [a.notPrinted, a.marked, a.unclosed, a.late, a.short]
    ++ (List.range 16).map (fun k => (Tab.at a.rodLo k).getD 0) ++ (List.range 16).map (fun k => (Tab.at a.rodHi k).getD 0)
    ++ [a.lines, a.lost]

/-- JOB_STATUS payload (14, Table 14-3): the account is carried at DONE and CANCELLED. -/
def Dev.jobStatusData (d : Dev) (j : Job) : List Nat :=
  [j.jn, j.st.code, j.reason, j.rendered, j.started]
    ++ (match j.st with
        | .done | .cancelled => (d.account j.jn).figures
        | _ => [])

/-- Send JOB_STATUS of a job to the job server and the press controller. -/
def Dev.sendJobStatus (d : Dev) (jn : Nat) : Dev :=
  match d.job jn with
  | some j => (d.send .js (.jobStatus (d.jobStatusData j))).send .pc (.jobStatus (d.jobStatusData j))
  | none => d

/-- Put a job into a state and report it (02, R46). -/
def Dev.setJobSt (d : Dev) (jn : Nat) (st : JobState) : Dev :=
  (d.updJob jn (fun j => { j with st := st })).sendJobStatus jn

/-- Lines of one product with its Brim gap (02, R30). -/
def JobRec.pitch (r : JobRec) : Nat := r.prodLines + r.brimLines

/-- Lines of the job (02, R30). -/
def JobRec.lines (r : JobRec) : Nat := r.products * r.pitch

/-- Product pitch in lines of a held job; 0 when its `JOB` record is not held. -/
def Dev.pitchOf (d : Dev) (jn : Nat) : Nat := ((d.job jn).bind (·.rec?)).elim 0 JobRec.pitch

/-! ### Bars, placements and positions (06) -/

/-- The bars of `press.geometry`. -/
def Dev.bars (d : Dev) : List BarGeom := (d.boot.content.map (·.bars)).getD []

/-- Head slots of a bar. -/
def Dev.slotsOf (d : Dev) (bar : Nat) : List Nat :=
  match d.bars.find? (fun b => b.bar = bar) with
  | some b => (List.range b.heads).map (· + b.slot0)
  | none => []

/-- The bar of a head slot. -/
def Dev.barOf (d : Dev) (slot : Nat) : Option Nat :=
  (d.bars.find? (fun b => decide (b.slot0 ≤ slot) && decide (slot < b.slot0 + b.heads))).map (·.bar)

/-- A placed job: its `FIRE_PL` entry, JN, origin in 2^-32 counts, pitch in 2^-32 counts, lines. -/
structure Pl where
  e : Nat
  jn : Nat
  org : Int
  pitch : Nat
  lines : Nat
  deriving DecidableEq, Repr

/-- A valid placement entry (06, FIRE_PL registers). -/
def Dev.pl (d : Dev) (e : Nat) : Option Pl :=
  if d.flag .FIRE_PL_ORGH_VALID e then
    some ⟨e, d.rd .FIRE_PL_JN_JN e,
      signed 80 (d.rd .FIRE_PL_ORGF_FRAC e + 2 ^ 32 * d.rd .FIRE_PL_ORGL_INT e + 2 ^ 64 * d.rd .FIRE_PL_ORGH_INT e),
      d.rd .FIRE_PL_PITF_FRAC e + 2 ^ 32 * d.rd .FIRE_PL_PITI_INT e, d.rd .FIRE_PL_LINES_L e⟩
  else none

/-- The placed jobs in placement order. -/
def Dev.placements (d : Dev) : List Pl := d.fire.order.filterMap d.pl

/-- The placement of a job. -/
def Dev.plOf (d : Dev) (jn : Nat) : Option Pl := d.placements.find? (fun p => p.jn = jn)

/-- A placement entry that is free. -/
def Dev.freeEntry (d : Dev) : Option Nat := [0, 1, 2, 3].find? (fun e => !d.flag .FIRE_PL_ORGH_VALID e)

/-- End of a placed job in 2^-32 counts: O + L · p. -/
def Pl.end' (p : Pl) : Int := p.org + p.lines * p.pitch

/-- q of R149 for an offset `bs` (B_k + S_s) in 2^-8 counts, line `n` and trim `t` in beads. -/
def Pl.q (p : Pl) (bs : Int) (n : Nat) (t : Int) : Int :=
  (64 * bs * 2 ^ 25 + p.pitch) / (2 * p.pitch : Int) + 64 * n + t

/-- pos of R149 in 2^-38 counts. -/
def Pl.pos38 (p : Pl) (bs : Int) (n : Nat) (t : Int) : Int := p.org * 64 + p.q bs n t * p.pitch

/-- B_k in 2^-8 counts. -/
def Dev.barOfs (d : Dev) (k : Nat) : Int := d.rd .FIRE_BAROFS_OFS k

/-- S_s in 2^-8 counts. -/
def Dev.headOfs (d : Dev) (s : Nat) : Int := d.srd .FIRE_HOFS_OFS s

/-- t_k in beads. -/
def Dev.trim (d : Dev) (k : Nat) : Int := d.srd .FIRE_TRIM_CUR k

/-- D(n, k) in 2^-38 counts (06, R149). -/
def Dev.duePos (d : Dev) (p : Pl) (n k : Nat) : Int := p.pos38 (d.barOfs k) n (d.trim k)

/-- Ceiling of a position in 2^-38 counts, as a 48-bit count. -/
def ceil38 (x : Int) : Pos48 := BitVec.ofInt 48 (-((-x) / 2 ^ 38))

/-- Signed difference of two positions (06, R133). -/
def pdiff (a b : Pos48) : Int := (a - b).toInt

/-- F has reached a position in 2^-38 counts. -/
def Dev.reached (d : Dev) (x : Int) : Bool := decide (0 ≤ pdiff d.fire.pos (ceil38 x))

/-- F in 2^-38 counts, read near a position: the signed difference of R133 added to it. -/
def Dev.lead38 (d : Dev) (x : Int) : Int := pdiff (ceil38 x) d.fire.pos

/-- The due pointer of a bar (06, R152). -/
def Dev.due (d : Dev) (bar : Nat) : Option (Nat × Nat) := Tab.at d.fire.due bar

/-- Write the due pointer of a bar, its registers with it. -/
def Dev.setDue (d : Dev) (bar : Nat) (x : Option (Nat × Nat)) : Dev :=
  let d := { d with fire := { d.fire with due := Tab.put d.fire.due bar x } }
  match x with
  | some (jn, n) => (d.wr .FIRE_DUE_JN_JN jn bar).wr .FIRE_DUE_LINE_LINE n bar
  | none => d

/-- A bar has placed lines: a line is due on it or a sent line awaits its fire time or a send after withdrawal. -/
def Dev.barPlaced (d : Dev) (bar : Nat) : Bool :=
  (d.due bar).isSome || d.fire.sent.any (fun l => l.bar = bar) || d.fire.again.any (fun l => l.bar = bar)

/-- Any line is placed on any bar. -/
def Dev.anyPlaced (d : Dev) : Bool := d.bars.any (fun b => d.barPlaced b.bar)

/-- The bar that an axis serves (11, R262). -/
def Dev.axisBar (d : Dev) (a : Nat) : Nat :=
  ((d.boot.content.bind (fun c => c.axisBar.find? (fun x => x.1 = a))).map (·.2)).getD a

/-- The lane of a head slot. -/
def Dev.lane (d : Dev) (n : Nat) : Lane := Tab.at d.lanes n

/-- Change a lane. -/
def Dev.updLane (d : Dev) (n : Nat) (f : Lane → Lane) : Dev := { d with lanes := Tab.upd d.lanes n f }

/-- An `n`-byte field of the head memory that a lane read (07, Table 7-8). -/
def Dev.headField (d : Dev) (h ofs n : Nat) : Nat := fieldAt (d.lane h).mem ofs n

/-- The pipelines that serve a bar: its own, and the next one when ganged (04, R83). -/
def Dev.pipesOf (d : Dev) (bar : Nat) : List Nat :=
  if d.rd .DP_CFG_GANG bar = 1 then [bar, bar + 1] else [bar]

/-- The runway of a pipeline. -/
def Dev.rw (d : Dev) (i : Nat) : Rwy := Tab.at d.rwy i

/-- Change the runway of a pipeline. -/
def Dev.updRw (d : Dev) (i : Nat) (f : Rwy → Rwy) : Dev := { d with rwy := Tab.upd d.rwy i f }

/-- The dose pipeline i. -/
def Dev.dp (d : Dev) (i : Nat) : Dose := Tab.at d.dose i

/-- Change a dose pipeline. -/
def Dev.updDp (d : Dev) (i : Nat) (f : Dose → Dose) : Dev := { d with dose := Tab.upd d.dose i f }

/-- The rods of the master copy that nothing has written: MASKED (assumption 10). -/
def rodMasked : Nat := 0xC0000000

/-- The master copy of a rod. -/
def Dev.masterRod (d : Dev) (ch : Nat) : Nat := Tab.get rodMasked d.rodMaster ch

/-- Write the master copy of a rod. -/
def Dev.setMasterRod (d : Dev) (ch rod : Nat) : Dev := { d with rodMaster := Tab.set natLt rodMasked d.rodMaster ch rod }

/-- Pipelines in use. -/
def Dev.pipes (d : Dev) : List Nat := (List.range 16).filter (fun i => d.flag .DP_CFG_EN i)

/-- Fold a step of the block over a list. -/
def Dev.forEach {α : Type} (d : Dev) (l : List α) (f : Dev → α → Dev) : Dev := l.foldl f d

end Sys2Proof.Machine
end

