-- ==== Sys2Proof/Machine/Spoil.lean ====
section
/-! DEFINITION. Spoils, products and closure (08): the shared operations of the integrity block. -/
namespace Sys2Proof.Machine

/-- Spoil reasons (08, Table 8-3). -/
inductive SpReason where
  | renderMismatch | residue | codec | poison | tally | echo | laneDown | underrun | encSlip | reversal | headHot
  | headPlaus | power | hold | operator
  deriving DecidableEq, Repr

/-- Code of a spoil reason. -/
def SpReason.code : SpReason → Nat
  | .renderMismatch => 1 | .residue => 2 | .codec => 3 | .poison => 4 | .tally => 5 | .echo => 6 | .laneDown => 7
  | .underrun => 8 | .encSlip => 9 | .reversal => 10 | .headHot => 11 | .headPlaus => 12 | .power => 13 | .hold => 14
  | .operator => 15

/-- The product of a line: PN and its first and last line (08, R202), from the product table or the held job. -/
def Dev.productOf (d : Dev) (jn line : Nat) : Option (Nat × Nat × Nat) :=
  match d.integ.prods.find? (fun p => decide (p.jn = jn) && decide (p.first ≤ line) && decide (line ≤ p.last)) with
  | some p => some (p.pn, p.first, p.last)
  | none =>
    match (d.job jn).bind (·.rec?) with
    | some r =>
      if r.pitch = 0 then none
      else some (r.firstPn + line / r.pitch, line / r.pitch * r.pitch, line / r.pitch * r.pitch + r.pitch - 1)
    | none => none

/-- The product table entry of a product. -/
def Dev.prod (d : Dev) (jn pn : Nat) : Option Prod :=
  d.integ.prods.find? (fun p => decide (p.jn = jn) && decide (p.pn = pn))

/-- Change the entry of a product. -/
def Dev.updProd (d : Dev) (jn pn : Nat) (f : Prod → Prod) : Dev :=
  { d with integ := { d.integ with prods := d.integ.prods.map (fun p => if p.jn = jn ∧ p.pn = pn then f p else p) } }

/-- `SP_PTAB` follows the table. -/
def Dev.countPtab (d : Dev) : Dev :=
  let n := d.integ.prods.length
  (d.wr .SP_PTAB_USED n).wr .SP_PTAB_HIGH (max n (d.rd .SP_PTAB_HIGH))

/-- Free an entry. -/
def Dev.freeProd (d : Dev) (jn pn : Nat) : Dev :=
  Dev.countPtab
    { d with integ := { d.integ with prods := d.integ.prods.filter (fun p => !(decide (p.jn = jn) && decide (p.pn = pn))) } }

/-- Write a record toward ring SPR (08, R214): a lost record is counted, in the account of every job active then (Table 8-7), and the
next one carries `LOSTB`. -/
def Dev.writeRec (d : Dev) (r : SpRec) : Dev :=
  let (ring, lost) := d.integ.spr.push 256 d.now { r with lostB := d.integ.spr.lost }
  let d := { d with integ := { d.integ with spr := ring } }
  if lost then
    let d := (d.wr .SP_STAT_OVF 1).inc .SP_RECLOST_N
    let d := d.forEach (d.jobs.filter (fun j => j.st = .active)) (fun d j => d.updAccount j.jn (fun a => { a with lost := a.lost + 1 }))
    d.raise Ev.SPR_OVF (le 4 (d.rd .SP_RECLOST_N))
  else d

/-- Write the open records of a product (08, R213). -/
def Dev.writeRecsOf (d : Dev) (jn pn : Nat) : Dev :=
  let mine := d.integ.recs.filter (fun r => decide (r.jn = jn) && decide (r.pn = pn))
  let d := { d with integ := { d.integ with recs := d.integ.recs.filter (fun r => !(decide (r.jn = jn) && decide (r.pn = pn))) } }
  d.forEach mine Dev.writeRec

/-- Members of `xs` not in `ys`, appended. -/
def addNew (ys xs : List (Nat × Nat)) : List (Nat × Nat) :=
  xs.foldl (fun acc x => if acc.elem x then acc else acc ++ [x]) ys

/-- Extend an open record by a spoil: a bar-line counts in it once (08, R213). -/
def SpRec.extend (r : SpRec) (s : Spoil) (firstSp late : Bool) : SpRec :=
  let lines := addNew r.lines s.lines
  { r with first := min r.first s.first, last := max r.last s.last, n := lines.length, lines := lines,
           firstSp := r.firstSp || firstSp, late := r.late || late }

/-- Another spoil sets the product's reason in its place, at the same tick (08, R204): no open record of the product keeps `FIRSTSP`. -/
def Dev.unFirst (d : Dev) (jn pn : Nat) (firstSp : Bool) : Dev :=
  if firstSp then
    { d with integ := { d.integ with recs := d.integ.recs.map (fun r =>
        if r.jn = jn ∧ r.pn = pn then { r with firstSp := false } else r) } }
  else d

/-- Gather a spoil into the open record with the same product, bar, slot and reason, or open one; a 33rd record writes the
oldest first (08, R213). -/
def Dev.openRec (d : Dev) (jn pn : Nat) (s : Spoil) (firstSp late : Bool) : Dev :=
  let d := d.unFirst jn pn firstSp
  let same := fun (r : SpRec) => decide (r.jn = jn) && decide (r.pn = pn) && decide (r.bar = s.bar) && decide (r.slot = s.slot)
    && decide (r.reason = s.reason)
  if d.integ.recs.any same then
    { d with integ := { d.integ with recs := d.integ.recs.map (fun r => if same r then r.extend s firstSp late else r) } }
  else
    let d := match d.integ.recs with
      | oldest :: rest => if rest.length < 31 then d else Dev.writeRec { d with integ := { d.integ with recs := rest } } oldest
      | [] => d
    let r : SpRec := { jn := jn, pn := pn, first := s.first, last := s.last, n := s.lines.length, time := s.time, kind := 0,
                       reason := s.reason, bar := s.bar, slot := s.slot, firstSp := firstSp, late := late,
                       unclosed := false, lostB := false, lines := s.lines }
    { d with integ := { d.integ with recs := d.integ.recs ++ [r] } }

/-- Every line of the product is settled on every bar of the job (08, R203). -/
def Dev.allSettled (d : Dev) (p : Prod) : Bool :=
  p.whole || decide ((p.last - p.first + 1) * d.bars.length ≤ p.settled.length)

/-- Distinct spoiled bar-lines of a product (08, R213). -/
def Dev.spoiltLines (d : Dev) (p : Prod) : Nat :=
  if p.whole then (p.last - p.first + 1) * d.bars.length else p.spoilt.length

/-- VS is told that a product has closed, and on which bars it was spoiled (10, R245). -/
def Dev.tellClosed (d : Dev) (p : Prod) : Dev :=
  let bars := if p.whole then [255] else (p.spoilt.map (·.1)).eraseDups
  { d with loops := { d.loops with closed := d.loops.closed ++ [(p.jn, p.pn, bars)] } }

/-- A spoil of the product was detected at this 4 ns tick: others of the same tick may follow, and the product's closure waits for the next
one (08, R204; assumption 55). -/
def Dev.spoilsNow (d : Dev) (p : Prod) : Bool := decide (p.lastSp = d.now / 4 + 1)

/-- Close a product whose lines are all settled (08, Table 8-2): spoil records, closure record, counters, account, and for a
spoiled product `PRODUCT_SPOILED` and the SPOILED message. -/
def Dev.closeProd (d : Dev) (jn pn : Nat) : Dev :=
  match d.prod jn pn with
  | none => d
  | some p =>
    if !d.allSettled p || p.st = .closed || d.spoilsNow p then d
    else
      let reason := if p.spoil then p.reason else 0
      let d :=
        if p.closureWritten then d
        else
          let d := (d.writeRecsOf jn pn).tellClosed p
          let n := d.spoiltLines p
          let d := d.writeRec { jn := jn, pn := pn, first := p.first, last := p.last, n := n, time := d.now, kind := 1,
                                reason := reason, bar := 255, slot := 255, firstSp := false, late := false,
                                unclosed := false, lostB := false, lines := [] }
          let d := d.updAccount jn (fun a => { a with lines := a.lines + n })
          if p.spoil then
            let d := (d.incWrap .SP_SPOILED_N).inc .SP_RCNT_N reason
            let d := d.updAccount jn (fun a => { a with spoiled := Tab.upd a.spoiled reason (· + 1) })
            let d := d.raise Ev.PRODUCT_SPOILED (le 4 jn ++ le 4 pn ++ le 1 reason)
            d.sendAll (.spoiled jn pn reason p.bar)
          else (d.incWrap .SP_GOOD_N).updAccount jn (fun a => { a with good := a.good + 1 })
      match p.st with
      | .opened =>
        if d.rd .SP_WASTE_CTL_MODE = 0 then d.freeProd jn pn
        else d.updProd jn pn (fun p => { p with st := .closed, closureWritten := true })
      | _ => if p.markEnded then d.freeProd jn pn else d.updProd jn pn (fun p => { p with closureWritten := true })

/-- Release the Tally table entries of a product's lines (08, R203). -/
def Dev.releaseTally (d : Dev) (jn first last : Nat) : Dev :=
  { d with integ := { d.integ with tally := d.integ.tally.map (fun e =>
      (e.1, e.2.filter (fun t => !(decide (t.jn = jn) && decide (first ≤ t.line) && decide (t.line ≤ last))))) |>.filter (fun e => e.2 != []) } }

/-- The closures that the end of a 4 ns tick brings (08, R203, R204). -/
def Dev.closeDue (d : Dev) : Dev := d.forEach d.integ.prods (fun d p => d.closeProd p.jn p.pn)

/-- The product has been closed: nothing spoils it any more (08, R219). -/
def Prod.isClosed (p : Prod) : Bool := decide (p.st = .closed) || p.closureWritten

/-- Apply a spoil to an allocated product that is not closed (08, R203, R204, R213); after the mark point of one marked `UNCLOSED` it is
late (R216). -/
def Dev.applySpoil (d : Dev) (p : Prod) (s : Spoil) : Dev :=
  if p.isClosed then d
  else
    let isFirst := !p.spoil
    let earlier := p.spoil && decide (p.spoilAt / 4 = s.time / 4) && decide (s.reason < p.reason)
    let late := decide (p.st = .marked) && p.unclosed
    let d := d.updProd p.jn p.pn (fun p =>
      let p := if isFirst || earlier then { p with spoil := true, reason := s.reason, bar := s.bar, spoilAt := s.time } else p
      let p := { p with settled := addNew p.settled s.lines, spoilt := addNew p.spoilt s.lines, whole := p.whole || s.whole,
                        lastSp := s.time / 4 + 1 }
      if late then { p with lateCounted := true } else p)
    let d := if s.whole then d.releaseTally p.jn p.first p.last else d
    let d := d.openRec p.jn p.pn s (isFirst || earlier) late
    if late then
      let d := d.wr .SP_STAT_LATE 1
      let d := if p.lateCounted then d else d.updAccount p.jn (fun a => { a with late := a.late + 1 })
      d.raise Ev.WASTE_LATE (le 4 p.jn ++ le 4 p.pn ++ le 1 s.reason)
    else d

/-- Apply a spoil to an allocated product, and close it where nothing of it is left to settle. -/
def Dev.spoilEntry (d : Dev) (p : Prod) (s : Spoil) : Dev := (d.applySpoil p s).closeProd p.jn p.pn

/-- Keep a spoil of a product that bar 0 has not started (08, R422). -/
def Dev.holdSpoil (d : Dev) (jn pn : Nat) (s : Spoil) : Dev :=
  let isIt := fun (h : HeldSpoil) => decide (h.jn = jn) && decide (h.pn = pn)
  let l := d.integ.heldSpoils
  let l' := if l.any isIt then l.map (fun h => if isIt h then { h with spoils := h.spoils ++ [s] } else h)
    else l ++ [{ jn := jn, pn := pn, spoils := [s] }]
  { d with integ := { d.integ with heldSpoils := l' } }

/-- Spoil a product: its entry, or the held-spoil store while bar 0 has not sent its first line. -/
def Dev.spoilProduct (d : Dev) (jn pn : Nat) (s : Spoil) : Dev :=
  match d.prod jn pn with
  | some p => d.spoilEntry p s
  | none =>
    match d.job jn with
    | some j =>
      match j.rec? with
      | some r => if r.firstPn + j.started ≤ pn then d.holdSpoil jn pn s else d
      | none => d
    | none => d

/-- The distinct products of a job's lines, ascending, each with those of the lines that it holds. -/
def Dev.byProduct (d : Dev) (jn : Nat) (lines : List Nat) : List (Nat × List Nat) :=
  lines.foldl (fun acc n =>
    match d.productOf jn n with
    | some (pn, _, _) =>
      if acc.any (fun x => x.1 = pn) then acc.map (fun x => if x.1 = pn then (x.1, x.2 ++ [n]) else x) else acc ++ [(pn, [n])]
    | none => acc) []

/-- Spoil lines of a job on the bars given: `slot` 255 for whole bar-lines; `barField` is the record's `BAR`. -/
def Dev.spoilLines (d : Dev) (reason : SpReason) (barField slot jn : Nat) (bars lines : List Nat) : Dev :=
  d.forEach (d.byProduct jn lines) (fun d x =>
    d.spoilProduct jn x.1
      { reason := reason.code, bar := barField, slot := slot, first := x.2.headD 0, last := x.2.getLastD 0,
        lines := (bars.map (fun b => x.2.map (fun n => (b, n)))).flatten, n := bars.length * x.2.length, time := d.now,
        whole := false })

/-- Spoil one bar-line. -/
def Dev.spoilBarLine (d : Dev) (reason : SpReason) (bar jn line : Nat) : Dev :=
  d.spoilLines reason bar 255 jn [bar] [line]

/-- Spoil one head-line. -/
def Dev.spoilHeadLine (d : Dev) (reason : SpReason) (bar slot jn line : Nat) : Dev :=
  d.spoilLines reason bar slot jn [bar] [line]

/-- Spoil a whole product (08, R213, product-wide spoils). -/
def Dev.spoilWhole (d : Dev) (reason : SpReason) (jn pn first last : Nat) : Dev :=
  d.spoilProduct jn pn
    { reason := reason.code, bar := 255, slot := 255, first := first, last := last, lines := [], n := 0, time := d.now,
      whole := true }

/-- Settle a bar-line without a spoil (confirmed, or dropped under R129), and close its product when it was the last. -/
def Dev.settleLine (d : Dev) (bar jn line : Nat) : Dev :=
  match d.productOf jn line with
  | some (pn, _, _) =>
    (d.updProd jn pn (fun p => { p with settled := addNew p.settled [(bar, line)] })).closeProd jn pn
  | none => d

/-- Bar 0 sends a product's first line: allocate its entry, with the held spoils applied in order of detection and reason
(08, R202, R422), every one of them before the product may close. -/
def Dev.allocProd (d : Dev) (jn pn first last : Nat) (from38 to38 : Int) : Dev :=
  let p : Prod := { jn := jn, pn := pn, first := first, last := last, from38 := from38, to38 := to38, st := .opened,
                    spoil := false, reason := 0, bar := 255, spoilAt := 0, settled := [], spoilt := [], whole := false,
                    closureWritten := false, markEnded := false, unclosed := false, lateCounted := false, fired := false,
                    lastSp := 0 }
  let isIt := fun (h : HeldSpoil) => decide (h.jn = jn) && decide (h.pn = pn)
  let held := (d.integ.heldSpoils.filter isIt).flatMap (·.spoils)
  let d := Dev.countPtab { d with integ := { d.integ with prods := d.integ.prods ++ [p],
                                                          heldSpoils := d.integ.heldSpoils.filter (fun h => !isIt h) } }
  let d := d.updJob jn (fun j => { j with started := j.started + 1 })
  let d := d.forEach held (fun d s =>
    match d.prod jn pn with
    | some p => d.applySpoil p s
    | none => d)
  d.closeProd jn pn

/-! ### Products in flight (01, R20) -/

/-- A head has fired its part of a sent line. -/
def Dev.hasFired (d : Dev) (l : SentLine) : Bool := l.heads.any (fun h => decide (h.tfire ≤ d.now))

/-- Sent lines whose fire times have all passed leave the list: they were fired, and so were lines of their products (01, R20). -/
def Dev.retireSent (d : Dev) : Dev :=
  let fired := d.fire.sent.filter d.hasFired
  let mark := fun (p : Prod) =>
    if fired.any (fun l => decide (l.jn = p.jn) && decide (p.first ≤ l.line) && decide (l.line ≤ p.last)) then { p with fired := true } else p
  { d with fire := { d.fire with sent := d.fire.sent.filter (fun l => !l.heads.all (fun h => decide (h.tfire ≤ d.now))) }
           integ := { d.integ with prods := d.integ.prods.map mark } }

/-- Place of a job among the placements; none when it is not placed. -/
def Dev.placeIdx (d : Dev) (jn : Nat) : Option Nat := (d.placements.map (·.jn)).findIdx? (· = jn)

/-- The first line of a job from line `n` on that no skip and no lowering of L has taken away from a bar; `fuel` bounds the ranges. -/
def nextKept (ranges : List (Nat × Nat × Nat × Nat)) (bar jn : Nat) : Nat → Nat → Nat
  | 0, n => n
  | fuel + 1, n =>
    match ranges.find? (fun x => (decide (x.1 = bar) || decide (x.1 = 255)) && decide (x.2.1 = jn) && decide (x.2.2.1 ≤ n)
        && decide (n < x.2.2.2)) with
    | some x => nextKept ranges bar jn fuel x.2.2.2
    | none => n

/-- A line of a job is dropped on a bar (05, R129; 06, R423). -/
def Dev.lineDropped (d : Dev) (bar jn n : Nat) : Bool :=
  d.fire.dropped.any (fun x => (decide (x.1 = bar) || decide (x.1 = 255)) && decide (x.2.1 = jn) && decide (x.2.2.1 ≤ n)
    && decide (n < x.2.2.2))

/-- The bar's due pointer has passed line `last` of the job. -/
def Dev.duePast (d : Dev) (bar jn last : Nat) : Bool :=
  match d.due bar with
  | none => true
  | some (jn', n) =>
    if jn' = jn then decide (last < n)
    else
      match d.placeIdx jn, d.placeIdx jn' with
      | some i, some i' => decide (i < i')
      | none, _ => true
      | some _, none => false

/-- A product is in flight: a line of it has been fired on some bar and not yet every line has been fired on every bar (01, R20; 06,
R162; assumption 20). -/
def Dev.inFlight (d : Dev) (p : Prod) : Bool :=
  p.fired && !(d.bars.all (fun b =>
    d.duePast b.bar p.jn p.last
      && !d.fire.sent.any (fun l => decide (l.bar = b.bar) && decide (l.jn = p.jn) && decide (p.first ≤ l.line) && decide (l.line ≤ p.last))
      && !d.fire.again.any (fun l => decide (l.bar = b.bar) && decide (l.jn = p.jn) && decide (p.first ≤ l.line) && decide (l.line ≤ p.last))))

/-- Spoil every product in flight, of one job or of all (08, R208). -/
def Dev.spoilInFlight (d : Dev) (reason : SpReason) (jn : Option Nat) : Dev :=
  let d := d.retireSent
  d.forEach (d.integ.prods.filter (fun p => d.inFlight p && (match jn with | some n => decide (p.jn = n) | none => true)))
    (fun d p => d.spoilWhole reason p.jn p.pn p.first p.last)

end Sys2Proof.Machine
end

