-- ==== Sys2Proof/Machine/Handover.lean ====
section
/-! DEFINITION. What the register loop knows of a bar's actuator, and the moves of hand-over steps (10, R257, R259). -/
namespace Sys2Proof.Machine

/-- The register loop of a bar. -/
def Dev.barLoop (d : Dev) (bar : Nat) : BarLoop := Tab.at d.loops.bars bar

/-- Change it. -/
def Dev.updBar (d : Dev) (bar : Nat) (f : BarLoop → BarLoop) : Dev :=
  { d with loops := { d.loops with bars := Tab.upd d.loops.bars bar f } }

/-- The axis that serves a bar (11, R262). -/
def Dev.axisOf (d : Dev) (bar : Nat) : Option Nat := (List.range d.nAxes).find? (fun a => d.axisBar a = bar)

/-- 1,200 nozzle pitches in pm. -/
def inchPm : Nat := 25400000000

/-- Commanded position of a bar's actuator from its home position, in 1/64 pitch (R257); 0 without one. -/
def Dev.commanded (d : Dev) (bar : Nat) : Int :=
  match d.axisOf bar with
  | some a =>
    let x : Axis := Tab.at d.axes a
    roundDiv ((x.prof.p - d.srd .AX_HOMEPOS_POS a * 2 ^ 32) * (d.rd .AX_SCALE_PM a * 64 * 1200 : Nat)) (2 ^ 32 * inchPm)
  | none => 0

/-- a_k in 1/64 pitch for the next product to be dosed: while steps are under way, the position that they lead to. -/
def Dev.actOf (d : Dev) (bar : Nat) : Int :=
  let l := d.barLoop bar
  if l.steps = [] then d.commanded bar else l.a

/-- A position from home in 1/64 pitch as an axis target in steps. -/
def Dev.stepTarget (d : Dev) (axis : Nat) (x : Int) : Int :=
  d.srd .AX_HOMEPOS_POS axis + roundDiv (x * inchPm) (64 * 1200 * d.rd .AX_SCALE_PM axis)

/-- The product of a bar's due line; none while no line is due. -/
def Dev.dueProduct (d : Dev) (bar : Nat) : Option (Nat × Nat) :=
  (d.due bar).bind (fun x => (d.productOf x.1 x.2).map (fun p => (x.1, p.1)))

/-- Products of a late move: from P to the one being printed (R259). -/
def Dev.lateProducts (d : Dev) (bar jn pn : Nat) : List (Nat × Nat) :=
  match d.dueProduct bar with
  | some (jn', pn') => if jn' = jn then (List.range (pn' + 1 - pn)).map (fun k => (jn, pn + k)) else [(jn, pn)]
  | none => [(jn, pn)]

/-- A step has settled: a late one is reported, discards measurements and halves the step in use. -/
def Dev.handDone (d : Dev) (bar : Nat) (st : HandStep) : Dev :=
  let d := d.updBar bar (fun l => { l with steps := l.steps.drop 1 })
  match st.lateAt, st.prod with
  | some t, some (jn, pn, _) =>
    let d := d.updBar bar (fun l => { l with discard := l.discard ++ d.lateProducts bar jn pn })
    let d := d.wr .VL_HAND_HCUR (max 16 (d.rd .VL_HAND_HCUR / 2))
    d.raise Ev.REG_MOVE_LATE (le 1 bar ++ le 4 pn ++ le 4 ((d.now - t) / 1000))
  | _, _ => d

/-- The reports of a bar from a product on take a position of the actuator. -/
def reportsFrom (bar jn pn : Nat) (act : Int) : List StartReport → List StartReport
  | [] => []
  | r :: t =>
    if r.bar = bar && r.jn = jn && r.pn = pn then (r :: t).map (fun x => if x.bar = bar then { x with act := act } else x)
    else r :: reportsFrom bar jn pn act t

/-- The steps of a bar end where the actuator stands: its axis has gone into FAULT, and the shift alone absorbs the error (11, R267). The
products reported since the first of them had another position in view; those printed in its move are not measured. -/
def Dev.dropSteps (d : Dev) (bar : Nat) : Dev :=
  let act := d.commanded bar
  match (d.barLoop bar).steps with
  | [] => d
  | st :: _ =>
    let d := d.updBar bar (fun l => { l with steps := [] })
    match st.prod with
    | some (jn, pn, _) =>
      let d : Dev := { d with loops := { d.loops with reports := reportsFrom bar jn pn act d.loops.reports } }
      if st.moving then d.updBar bar (fun l => { l with discard := l.discard ++ d.lateProducts bar jn pn }) else d
    | none => d

/-- The fire position has come within `HGUARD` lines of the step's product. -/
def Dev.stepLate (d : Dev) (bar : Nat) (st : HandStep) : Bool :=
  match st.prod with
  | some (jn, _, line) =>
    match d.plOf jn with
    | some p => d.reached (d.duePos p (line - d.rd .VL_HAND_HGUARD) bar)
    | none => true
  | none => false

/-- A sample of a bar's axis while a step's move runs (R259). -/
def Dev.stepSample (d : Dev) (bar : Nat) : Dev :=
  match (d.barLoop bar).steps, d.axisOf bar with
  | st :: rest, some a =>
    if !st.moving then d
    else if d.flag .AX_STAT_SETTLED a && !d.flag .AX_STAT_MOVING a then d.handDone bar st
    else if st.lateAt.isNone && d.stepLate bar st then
      d.updBar bar (fun l => { l with steps := { st with lateAt := some d.now } :: rest })
    else d
  | _, _ => d

end Sys2Proof.Machine
end

