-- ==== Sys2Proof/Machine/Profile.lean ====
section
/-! DEFINITION. Axis profiles (11, R270, R273 to R275) and the compensators' difference equation (R279). Where R273 to R275
leave the shape of a replanned profile open, the model takes the quickest change of speed from the present motion, a cruise and one change
to rest, at the highest speed that fits (assumption 23). -/
namespace Sys2Proof.Machine

/-- Kinematic limits: v_max, a_max, stop deceleration in 2^-32 steps/s and /s^2, j_max in steps/s^3. -/
structure Kin where
  v : Int
  a : Int
  j : Int
  stop : Int
  deriving DecidableEq, Repr

/-- Position, velocity, acceleration after `dt` ns at jerk `j`. -/
def moveBy (p v a j : Int) (dt : Nat) : Int × Int × Int :=
  (p + v * dt / 1000000000 + a * dt * dt / (2 * 10 ^ 18) + j * 2 ^ 32 * dt * dt * dt / (6 * 10 ^ 27),
   v + a * dt / 1000000000 + j * 2 ^ 32 * dt * dt / (2 * 10 ^ 18),
   a + j * 2 ^ 32 * dt / 1000000000)

/-- Duration in ns of a change of speed by `dv` from and to acceleration 0 (11, R275: tp). -/
def phaseTime (k : Kin) (dv : Nat) : Nat :=
  if dv * k.j.toNat * 2 ^ 32 ≤ k.a.toNat * k.a.toNat then 2 * isqrt (dv * 10 ^ 18 / (k.j.toNat * 2 ^ 32))
  else dv * 1000000000 / k.a.toNat + k.a.toNat * 1000000000 / (k.j.toNat * 2 ^ 32)

/-- Distance in 2^-32 steps of a change between two speeds of one sign (11, R275: dp for one of them 0). -/
def phaseDist (k : Kin) (v1 v2 : Nat) : Nat := (v1 + v2) * phaseTime k (max v1 v2 - min v1 v2) / 2000000000

/-- d_stop (11, R275). -/
def dStop (k : Kin) (v : Nat) : Nat := phaseDist k v 0

/-- The quickest segments from velocity `v` at acceleration `a` to velocity `w` at acceleration 0: the acceleration goes to a peak within
a_max at j_max, stays there as long as needed, and goes to 0. -/
def changeSegs (k : Kin) (v a w : Int) : List Seg :=
  let jj := k.j * 2 ^ 32
  let s : Int := if v + a * a.natAbs / (2 * jj) ≤ w then 1 else -1
  let dv := s * (w - v)
  let a' := s * a
  let peak : Int := max a' (min k.a (isqrt (jj * dv + a' * a' / 2).toNat))
  let hold := if peak ≤ 0 then 0 else (2 * jj * dv - (2 * peak * peak - a' * a')) * 1000000000 / (2 * jj * peak)
  [⟨((peak - a') * 1000000000 / jj).toNat, s * k.j, none⟩, ⟨hold.toNat, 0, some (s * peak)⟩,
   ⟨(peak * 1000000000 / jj).toNat, -(s * k.j), none⟩]

/-- Run segments for `dt` ns; answers the segments left and the motion. -/
def runSegs : List Seg → Nat → Int → Int → Int → List Seg × Int × Int × Int
  | [], _, p, v, a => ([], p, v, a)
  | s :: t, dt, p, v, a =>
    let a := s.acc?.getD a
    if dt < s.dur then
      let r := moveBy p v a s.jerk dt
      (⟨s.dur - dt, s.jerk, none⟩ :: t, r)
    else
      let r := moveBy p v a s.jerk s.dur
      runSegs t (dt - s.dur) r.1 r.2.1 r.2.2

/-- Where segments lead that end. -/
def endOf (p v a : Int) (segs : List Seg) : Int := (runSegs segs (2 ^ 63) p v a).2.1

/-- From a motion to a speed and from there to rest. -/
def overSegs (k : Kin) (v a w : Int) : List Seg := changeSegs k v a w ++ changeSegs k w 0 0

/-- The highest speed within v_max, built from bit `n - 1` down, over which the motion still comes to rest no farther than `goal`. -/
def peakBits (k : Kin) (p v a goal : Int) : Nat → Int → Int
  | 0, w => w
  | n + 1, w =>
    if w + 2 ^ n ≤ k.v && endOf p v a (overSegs k v a (w + 2 ^ n)) ≤ goal then peakBits k p v a goal n (w + 2 ^ n)
    else peakBits k p v a goal n w

/-- Upward to a target that the motion can come to rest at: to the highest speed that fits, a cruise, and to rest (11, R274, R275). -/
def upSegs (k : Kin) (p v a goal : Int) : List Seg :=
  let w := peakBits k p v a goal 64 0
  let left := goal - endOf p v a (overSegs k v a w)
  changeSegs k v a w ++ (if w = 0 then [] else [⟨(left * 1000000000 / w).toNat, 0, some 0⟩]) ++ changeSegs k w 0 0

/-- Segments with the other direction. -/
def mirror (segs : List Seg) : List Seg := segs.map (fun s => ⟨s.dur, -s.jerk, s.acc?.map (fun a => -a)⟩)

/-- From rest to a target. -/
def restSegs (k : Kin) (p goal : Int) : List Seg := if p ≤ goal then upSegs k p 0 0 goal else mirror (upSegs k (-p) 0 0 (-goal))

/-- The kinematic limits allow motion. -/
def Kin.ok (k : Kin) : Bool := decide (0 < k.v) && decide (0 < k.a) && decide (0 < k.j)

/-- Replan to a target (11, R273, R274): ahead without reversing when the present state allows, else to rest first and then to it. -/
def Prof.planTo (x : Prof) (k : Kin) (goal : Int) : Prof :=
  if !k.ok then x
  else
    let stop := changeSegs k x.v x.a 0
    let rest := endOf x.p x.v x.a stop
    let segs :=
      if 0 ≤ x.v && rest ≤ goal then upSegs k x.p x.v x.a goal
      else if x.v ≤ 0 && goal ≤ rest then mirror (upSegs k (-x.p) (-x.v) (-x.a) (-goal))
      else stop ++ restSegs k rest goal
    { x with run := .toTarget, segs := segs, goal := goal, waiting := none }

/-- Run at a speed without end (homing). -/
def Prof.planSpeed (x : Prof) (k : Kin) (speed : Int) : Prof :=
  if !k.ok then x
  else { x with run := .speed, segs := changeSegs k x.v x.a speed ++ [⟨2 ^ 63, 0, some 0⟩], waiting := none }

/-- Stop at a_max and j_max. -/
def Prof.planStop (x : Prof) (k : Kin) : Prof :=
  if !k.ok || x.run = .rest then { x with waiting := none }
  else { x with run := .stop, segs := changeSegs k x.v x.a 0, waiting := none }

/-- Maximum-deceleration stop: at `ASTOP`, with no jerk limit (11, R270); one in progress goes on, and a target that waits for its end
stays (R274). -/
def Prof.planMaxStop (x : Prof) (k : Kin) : Prof :=
  if x.run = .rest || x.run = .maxStop then x
  else if k.stop ≤ 0 then { x with run := .rest, v := 0, a := 0, segs := [], waiting := none }
  else
    { x with run := .maxStop, waiting := none,
             segs := [⟨x.v.natAbs * 1000000000 / k.stop.toNat, 0, some (if 0 ≤ x.v then -k.stop else k.stop)⟩] }

/-- At rest where it is, with no target. -/
def Prof.freeze (x : Prof) : Prof := { x with run := .rest, v := 0, a := 0, segs := [], waiting := none }

/-- Advance a profile by `dt` ns; at its end it rests, on the target when it ran to one. A target that waits for the end of a
maximum-deceleration stop waits on, for `Dev.axResume`. -/
def Prof.advance (x : Prof) (dt : Nat) : Prof :=
  match x.run with
  | .rest => x
  | _ =>
    let r := runSegs x.segs dt x.p x.v x.a
    match r.1 with
    | _ :: _ => { x with segs := r.1, p := r.2.1, v := r.2.2.1, a := r.2.2.2 }
    | [] =>
      let p := match x.run with
        | .toTarget => x.goal
        | _ => r.2.1
      { x with run := .rest, segs := [], p := p, v := 0, a := 0 }

/-- One step of R279: coefficients b0 to b3, a1 to a3 in s3.28, e and y in s16.16, limited to `lo` to `hi`; the 2p2z form takes
b3 and a3 as 0. -/
def Comp.step (c : Comp) (e lo hi : Int) (form2 : Bool) : Comp :=
  let k := fun (i : Nat) => if form2 && (i = 3 || i = 6) then 0 else c.coef.getD i 0
  let raw := (k 0 * e + k 1 * c.e.getD 0 0 + k 2 * c.e.getD 1 0 + k 3 * c.e.getD 2 0
    - k 4 * c.y.getD 0 0 - k 5 * c.y.getD 1 0 - k 6 * c.y.getD 2 0) / 2 ^ 28
  { c with e := (e :: c.e).take 3, y := (clampInt lo hi raw :: c.y).take 3, yraw := raw }

/-- The output in force: the last clipped y. -/
def Comp.out (c : Comp) : Int := c.y.getD 0 0

end Sys2Proof.Machine
end

