-- ==== Sys2Proof/Machine/Frames.lean ====
section
/-! DEFINITION. The frames toward the head as they stand on the lane (07, R172, Tables 7-2 and 7-3). -/
namespace Sys2Proof.Machine

/-- Frame type of a frame (07, Table 7-2); `IDLE` blocks are no frame. -/
def ZlFrame.ft : ZlFrame → Nat
  | .dose .. => 0x01 | .tally .. => 0x02 | .fire .. => 0x03 | .beacon .. => 0x04 | .heat .. => 0x05 | .mgmt .. => 0x06 | .idle .. => 0

/-- Header bytes 3 to 7 of the `SOF` block (07, Table 7-2). -/
def ZlFrame.header : ZlFrame → List Byte
  | .dose jn line _ | .tally jn line _ => le 1 jn ++ le 4 line
  | .fire _ line _ bead amend withdraw => le 1 (bead % 64 + 64 * bit amend + 128 * bit withdraw) ++ le 4 line
  | .beacon .. | .idle .. => le 5 0
  | .heat seq _ _ => le 4 seq ++ le 1 0
  | .mgmt op tag res p16 _ => le 1 op ++ le 1 tag ++ le 1 res ++ le 2 p16

/-- Bytes of the data blocks (07, Tables 7-3 and 7-7). -/
def ZlFrame.data : ZlFrame → List Byte
  | .dose _ _ bytes => bytes
  | .tally jn _ tv => le 4 tv ++ le 4 jn
  | .fire jn _ tfire _ _ _ => le 8 tfire ++ le 4 jn ++ le 4 0
  | .beacon t1 inc corr num => le 8 t1 ++ le 8 inc ++ le 4 (unsign 32 corr) ++ le 4 num
  | .heat _ duty hen => le 2 duty ++ le 1 (bit hen) ++ le 5 0
  | .mgmt _ _ _ _ data => data
  | .idle .. => []

/-- `NBLK`: data blocks of a frame (R172). -/
def ZlFrame.nblk (f : ZlFrame) : Nat := f.data.length / 8

/-- `FCRC`: CRC-32C over bytes 1 to 7 of the `SOF` block and the data blocks (R172). -/
def ZlFrame.fcrc (f : ZlFrame) (fseq : Nat) : Nat := (crc32c (le 1 f.ft ++ le 1 fseq ++ f.header ++ f.data)).toNat

/-- One bit of the PRBS31 sequence x^31 + x^28 + 1. -/
def prbsBit (s : Nat) : Nat := s * 2 % 2 ^ 31 + bit (bitOf s 30 != bitOf s 27)

/-- Eight bits of PRBS31, first bit lowest: the state after them and the byte. -/
def prbsByte (s : Nat) : Nat × Byte :=
  (List.range 8).foldl (fun a k => let t := prbsBit a.1; (t, a.2 ||| toByte (t % 2 * 2 ^ k))) (s, 0)

/-- `n` bytes of PRBS31 (07, Table 7-7). -/
def prbs31 : Nat → Nat → List Byte
  | 0, _ => []
  | n + 1, s => (prbsByte s).2 :: prbs31 n (prbsByte s).1

end Sys2Proof.Machine
end

