-- ==== Sys2Proof/Machine/Hold.lean ====
section
/-! DEFINITION. Stopping: the stop of firing (06, R161), skips (R162), entering HOLD and SHUTDOWN (01, Table 1-9; 12, R304,
R305), hold causes that clear, and what the sync ring is told of them (15, R361). -/
namespace Sys2Proof.Machine

/-! ### The sync ring's frames -/

/-- The ring port sends: `RING_CFG.EN` 1 and the port started (15, R367). -/
def Dev.ringOn (d : Dev) : Bool := d.flag .RING_CFG_EN && d.ring.running

/-- Send a frame of its own on the ring (15, R358). -/
def Dev.ringSend (d : Dev) (pay : RingPay) : Dev :=
  if d.ringOn then d.emit (.ring { src := d.rd .RING_CFG_ID, hops := 0, pay := pay }) else d

/-- The local hold causes: every cause but ring HOLD (15, R361). -/
def Dev.localHold (d : Dev) : Nat := withoutBit (d.rd .AON_STATE_HOLDC) HoldBit.ring.num

/-- Send a HOLD frame, with `REL` as given (15, R361, Table 15-2). -/
def Dev.ringHold (d : Dev) (rel : Bool) : Dev :=
  if d.ringOn then
    let d := d.ringSend (.hold rel d.localHold d.ring.holdSeq)
    { d with ring := { d.ring with holdSeq := (d.ring.holdSeq + 1) % 65536, announced := !rel } }
  else d

/-- A hold cause arises: it holds from this evaluation period on, even when it clears within it (14, R343). -/
def Dev.holdCause (d : Dev) (h : HoldBit) : Dev :=
  let d := d.setHold h true
  { d with holdSeen := withBit d.holdSeen h.num }

/-- A hold cause clears; when the last local one has cleared, one HOLD frame with `REL` 1 is sent (15, R361). -/
def Dev.clearHold (d : Dev) (h : HoldBit) : Dev :=
  let had := d.localHold != 0
  let d := d.setHold h false
  if had && d.localHold = 0 && d.ring.announced then d.ringHold true else d

/-! ### Withdrawal (06, R157, R158, R161) -/

/-- A frame to the head slots of a sent line can arrive at least 2 us before the earliest of the times given. -/
def Dev.canArrive (d : Dev) (l : SentLine) (times : List Nat) : Bool :=
  l.heads.all (fun h => times.all (fun t => decide (d.now + d.rd .ZL_LAT_LAT h.slot + 2000 ≤ t)))

/-- Send a frame on a lane; the last 255 are kept for R190. -/
def Dev.zlSend (d : Dev) (n : Nat) (f : ZlFrame) : Dev :=
  (d.emit (.zl n (d.lane n).fseq f (f.fcrc (d.lane n).fseq) f.nblk)).updLane n (fun l =>
    { l with fseq := (l.fseq + 1) % 256, sent := (⟨l.fseq, f⟩ :: l.sent).take 255 })

/-- A main-timebase time in link time, by LC and the timebase at this tick (07, "Time alignment"). -/
def Dev.linkTime (d : Dev) (t : Nat) : Nat := ((t : Int) + d.lc / 2 ^ 32 - d.now).toNat

/-- Send a FIRE frame to one head (07, Table 7-3); t_fire is carried in link time. -/
def Dev.sendFire (d : Dev) (jn line : Nat) (h : SentHead) (amend withdraw : Bool) : Dev :=
  d.zlSend h.slot (.fire jn line (d.linkTime h.tfire) h.bead amend withdraw)

/-- Withdraw a sent line: frames with the withdraw flag to every head; the line waits to be sent again. -/
def Dev.withdraw (d : Dev) (l : SentLine) : Dev :=
  let d := d.forEach l.heads (fun d h => d.sendFire l.jn l.line h true true)
  { d with fire := { d.fire with sent := d.fire.sent.filter (· != l), again := d.fire.again ++ [⟨l.bar, l.jn, l.line, l.trim⟩] } }

/-- Stop firing: every sent line whose withdrawal can arrive is withdrawn, with all or none of its heads; the others fire as
sent (06, R161). -/
def Dev.stopFiring (d : Dev) : Dev :=
  let d := d.retireSent
  d.forEach d.fire.sent (fun d l => if d.canArrive l (l.heads.map (·.tfire)) then d.withdraw l else d)

/-! ### Skips (06, R162; 05, R129) -/

/-- The product entries of a job of which no line has been fired and no line is spoiled: a stop has withdrawn what bar 0 sent of them, and
they are placed again like products not started (01, R20; R163; assumption 20). -/
def Dev.unfired (d : Dev) (jn : Nat) : List Prod := d.integ.prods.filter (fun p => decide (p.jn = jn) && !p.fired && !p.spoil)

/-- Products of a job that bar 0 has started: their first lines sent and, as far as a stop withdrew them, fired. -/
def Dev.startedOf (d : Dev) (jn : Nat) : Nat := ((d.job jn).map (·.started)).getD 0 - (d.unfired jn).length

/-- First line of a job's first product not started on bar 0, or 0xFFFF_FFFF when every product has started. -/
def Dev.skipBound (d : Dev) (jn : Nat) : Nat :=
  match d.job jn with
  | some j =>
    match j.rec? with
    | some r => if r.products ≤ d.startedOf jn then 0xFFFFFFFF else d.startedOf jn * r.pitch
    | none => 0xFFFFFFFF
  | none => 0xFFFFFFFF

/-- Write the first waiting skip of a pipeline into its `RW_SKIP` registers while `ARM` is 0; SV1's write of `ARM` is the row
SKIP_ARM. -/
def Dev.loadSkip (d : Dev) (i : Nat) : Dev :=
  match d.fire.skips.find? (fun x => x.1 = i) with
  | some (_, jn, line) => (d.wr .RW_SKIP_JN_JN jn i).wr .RW_SKIP_LINE_LINE line i
  | none => d

/-- Order the skips of a HOLD: for each pipeline and each placed job with a started product, oldest job first. -/
def Dev.orderSkips (d : Dev) : Dev :=
  let one := fun (i : Nat) => d.placements.filterMap (fun p =>
    if d.skipBound p.jn = 0 then none else some (i, p.jn, d.skipBound p.jn))
  let d := { d with fire := { d.fire with skips := d.fire.skips ++ d.pipes.flatMap one } }
  d.forEach d.pipes Dev.loadSkip

/-! ### HOLD -/

/-- The spoil reason of a HOLD by its causes (08, R208). -/
def holdReason (causes : Nat) : SpReason :=
  if bitOf causes HoldBit.reversal.num then .reversal
  else if bitOf causes HoldBit.underrun.num then .underrun
  else .hold

/-- Enter HOLD from ARMED, PRINTING or DRAINING (01, Table 1-9). -/
def Dev.enterHold (d : Dev) : Dev :=
  let causes := d.rd .AON_STATE_HOLDC ||| d.holdSeen
  let d := d.stopFiring
  let d := d.spoilInFlight (holdReason causes) none
  let d := d.orderSkips
  let d := if d.localHold != 0 then d.ringHold false else d
  Dev.enter { d with holdSeen := 0 } .hold

/-! ### SHUTDOWN -/

/-- The jobs, oldest first, with products between bar 0 and the waste station that have not reached their mark points (or,
with WASTE_MARK off, that are still OPEN), each with its lowest and highest such PN (12, R305). -/
def Dev.unverified (d : Dev) : List (Nat × Nat × Nat) :=
  let open' := d.integ.prods.filter (fun p =>
    match p.st with
    | .opened => true
    | .closed => d.rd .SP_WASTE_CTL_MODE != 0
    | .marked => false)
  open'.foldl (fun acc p =>
    if acc.any (fun x => x.1 = p.jn) then
      acc.map (fun x => if x.1 = p.jn then (x.1, min x.2.1 p.pn, max x.2.2 p.pn) else x)
    else acc ++ [(p.jn, p.pn, p.pn)]) []

/-- The shutdown record (12, Table 12-6). -/
def Dev.shutdownRec (d : Dev) (cause event : Nat) : List Byte :=
  let js := d.unverified
  let job := fun (n : Nat) => match js[n]? with
    | some (jn, lo, hi) => le 4 jn ++ le 4 lo ++ le 4 hi
    | none => le 12 0
  let more := decide (2 < js.length)
  let last := js.getLastD (0, 0, 0)
  sealRec (le 4 magicShutdown ++ le 1 1 ++ le 1 cause ++ le 1 d.st.code
    ++ le 1 (d.rd .AON_PWR_WARN + 2 * bit js[0]?.isSome + 4 * bit js[1]?.isSome + 8 * bit more)
    ++ le 4 (tsec d.now) ++ le 4 (tns d.now) ++ le 2 event ++ le 2 (unsign 16 d.tj) ++ le 2 (unsign 16 d.td) ++ le 2 d.pwr.vin
    ++ job 0 ++ job 1 ++ le 4 (d.fire.pos.toNat % 2 ^ 32)
    ++ le 4 (if more then last.1 else 0) ++ le 4 (if more then last.2.2 else 0))

/-- A shutdown cause is confirmed, in every state but OFF and SHUTDOWN: the sequence of Table 12-5 begins, and the state event is taken at
the end of the evaluation period (01, R24). The first cause of a period stands. -/
def Dev.shutdown (d : Dev) (cause event : Nat) : Dev :=
  match d.st with
  | .off | .shutdown => d
  | _ =>
    if d.shut.isSome then d
    else { d with shut := some { due := some (cause, event), record := [], since := d.now, written := false } }

/-- The shutdown sequence up to HK's record (12, R304, Table 12-5). -/
def Dev.enterShutdown (d : Dev) (x : Shut) (cause event : Nat) : Dev :=
  let rec' := d.shutdownRec cause event
  let d := d.stopFiring
  let d := d.spoilInFlight .power none
  let d := d.ringHold false
  let d := { d with shut := some { x with due := none, record := rec' } }
  d.enter .shutdown

/-- Raise a fatal event and run the shutdown sequence (17, R403; 12, R304; 16, Table 16-7: its fatal record). The shutdown record
names the event with cause 3 only (12, Table 12-6). -/
def Dev.raiseFatal (d : Dev) (cause : Nat) (e : EvCode) (data : List Byte) : Dev :=
  ((d.raise e data).logWrite (d.fatalRec e.code data)).shutdown cause (if cause = 3 then e.code else 0)

end Sys2Proof.Machine
end

