-- ==== Sys2Proof/Machine/State.lean ====
section
/-! DEFINITION. The state of the model: the block, its DRAM and the queue of waiting commands; the reasons a step can stop;
the state right after reset. -/
namespace Sys2Proof.Machine

/-- The DRAM of both channels (13, R307): bytes as (address, byte) in canonical form, an unlisted address reading
`Config.dramUnlisted`, and the numbers of the 128-byte code words that are poisoned (R311, R313), without repeats. -/
structure Dram where
  mem : Tab Nat Byte
  poison : List Nat
  deriving DecidableEq, Repr

/-- The whole state. -/
structure State where
  dev : Dev
  dram : Dram
  pending : List Instr
  deriving DecidableEq, Repr

/-- Reasons for which a step stops: none. The spec gives every command of the table an effect on every operand and state (assumption 57
says what an operand of a wrong length stands for). -/
inductive Fault where
  deriving DecidableEq, Repr

/-- Reasons for which a command has no meaning. -/
inductive Refusal where
  /-- The command has no meaning yet; raised by an arm of `exec`. Safe. -/
  | notModelled (mnemonic : String)
  deriving DecidableEq, Repr

/-- The outcome of a step. -/
abbrev Out := Host.Outcome State Fault Refusal

/-- The step answers a next state in which the block has changed by `f` and the DRAM and the queue have not. -/
def State.act (s : State) (f : Dev → Dev) : Out := .next { s with dev := f s.dev }

/-- A channel of the block before anything has happened: the lanes, ports, axes and counters of Dev's tables list nothing. -/
def Dev.reset : Dev :=
  { variant := .a64, rf := [], nor := ⟨[], []⟩
    tb := { main := 0, fb := 0, rate := 0, unlockedAt := none, lockedAt := none, slewing := false, slew := 0, xtalErr := 0 }
    lc := 0
    boot := { stage := .powerGood, hdr := none, content := none, safeBy := [], running := [.hk], programs := [] }
    pwr := { vin := 0, warnSince := none, deferred := [] }
    shut := none, holdSeen := 0
    xpp := { peers := [], badAt := [], rings := [] }
    jobs := [], ended := [], conns := [], suppressAuto := false
    rk := { front := none, ahead := [], finished := [], committed := [], starved := none, work := [], tiles := [], wits := [],
            handed := [], strikes := [], cache := [], seeds := [], done := [], stuck := [], k := 65536, busy := 0 }
    dose := [], curveSet := none, screenSet := none, reload := false, rodMaster := [], rwy := [], lvSince := 0, ratioHist := []
    fire := { a := false, b := false, cnt := 0, pos := 0, disarmed := false, times := [], revDir := false, vSince := 0,
              speedN := 0, speedD := 0, lastT := 0, lastIdx := 0, sentSince := [], travel := 0, slips := [], due := [], barPitch := [],
              sent := [], again := [], order := [], dropped := [], skips := [], first := none, latchCnt := 0, latchPos := 0 }
    lanes := []
    integ := { prods := [], heldSpoils := [], tally := [], recs := [], checks := [], spr := ⟨[], [], [], 0, false, 0, false⟩, mark := false,
               pulseEnd := none, gateEnd := none }
    accounts := [], vis := [], loops := default, axes := [], axp := [], heat := [], trace := [], aba := default, temp := default
    msub := [], freqWait := false, ptp := default, ring := default, evr := ⟨[], [], [], 0, false, 0, false⟩
    pins := { ready := false, href := false, relaysOpen := false, sceil := none, axsyncAt := none }
    out := [], freeCtr := 0 }

/-- The machine right after reset (16, R371; 17, R401): every register at its Reset column, the boot at power-good, nothing in
DRAM, no command waiting (assumption 1). -/
def State.reset : State := { dev := Dev.reset, dram := ⟨[], []⟩, pending := [] }

end Sys2Proof.Machine
end

