-- ==== Sys2Proof/Machine/Bus.lean ====
section
/-! DEFINITION. Register accesses: protection regions (16, R384 to R386), bus errors (17, R397), where a register stands
(Tables 17-1 and 17-7), reading registers with their access types and latches (R398, R400). -/
namespace Sys2Proof.Machine

/-! ### Protection -/

/-- Region r is enabled, of the space given, and holds the address (16, R385). -/
def Dev.regionHolds (d : Dev) (space a r : Nat) : Bool :=
  d.flag .NOC_PR_ATTR_EN r && decide (d.rd .NOC_PR_ATTR_SPACE r = space)
    && decide (d.rd .NOC_PR_BASE_BASE r ≤ a / 4096) && decide (a / 4096 ≤ d.rd .NOC_PR_LIM_LIM r)

/-- The deciding region: the first that holds the address. -/
def Dev.region (d : Dev) (space a : Nat) : Option Nat := (List.range 32).find? (d.regionHolds space a)

/-- The access is allowed: by the deciding region's level, or at level 3 where no region holds it. -/
def Dev.allowed (d : Dev) (space a lvl : Nat) (write : Bool) : Bool :=
  match d.region space a with
  | some r => decide ((if write then d.rd .NOC_PR_ATTR_WLVL r else d.rd .NOC_PR_ATTR_RLVL r) ≤ lvl)
  | none => decide (lvl = 3)

/-- A refused access (16, R386): the first is latched, `NOC_PROT` is raised. -/
def Dev.protRefuse (d : Dev) (space a lvl : Nat) (write : Bool) : Dev :=
  let d :=
    if d.flag .NOC_PV_VALID then d
    else
      let d := (((d.wr .NOC_PV_LVL lvl).wr .NOC_PV_WR (bit write)).wr .NOC_PV_SPACE space).wr .NOC_PV_REGION
        ((d.region space a).getD 63)
      (d.wr .NOC_PV_VALID 1).wr .NOC_PV_ADDR_ADDR (a / 16)
  d.raise Ev.NOC_PROT (le 8 a ++ le 1 lvl ++ le 1 (bit write))

/-! ### Bus errors -/

/-- A bus error of R397: the first is latched. -/
def Dev.busError (d : Dev) (a lvl cause : Nat) (write : Bool) : Dev :=
  if d.flag .AON_BUSERR_VALID then d
  else
    ((((d.wr .AON_BUSERR_LVL lvl).wr .AON_BUSERR_WR (bit write)).wr .AON_BUSERR_CAUSE cause).wr .AON_BUSERR_VALID 1).wr
      .AON_BUSERR_ADDR_ADDR a

/-! ### Where a register stands -/

/-- Indices of the register of a row that stands `delta` bytes above the row's first. -/
def RegInfo.index (r : RegInfo) (delta : Nat) : Option (Nat × Nat) :=
  let i := if r.istr = 0 then 0 else delta / r.istr
  let rest := if r.istr = 0 then delta else delta % r.istr
  let j := if r.jstr = 0 then 0 else rest / r.jstr
  let left := if r.jstr = 0 then rest else rest % r.jstr
  if left = 0 && decide (i < r.ic) && decide (j < r.jc) then some (r.ilo + i, r.jlo + j) else none

/-- The register at an address, among those of a block. -/
def findIn (a : Nat) : List RegInfo → Option (RegInfo × Nat × Nat)
  | [] => none
  | r :: t =>
    if r.addr ≤ a then
      match r.index (a - r.addr) with
      | some ij => some (r, ij)
      | none => findIn a t
    else findIn a t

/-- The register at an address. -/
def findReg (a : Nat) : Option (RegInfo × Nat × Nat) :=
  match blocks.find? (fun b => decide (b.1 ≤ a) && decide (a ≤ b.2.1)) with
  | some (_, _, regs) => findIn a regs
  | none => none

/-- The register belongs to one lane of ZANLINK. -/
def RegInfo.ofLane (r : RegInfo) : Bool := decide (0x700000 ≤ r.addr) && decide (r.addr < 0x710000)

/-- The domain of a register: lanes 32 to 63 lie in PD_ZB (17, Table 17-1). -/
def domOf (r : RegInfo) (i : Nat) : Dom := if r.ofLane && decide (32 ≤ i) then .zb else r.dom

/-- A register that the A32 lacks: those of lanes 32 to 63, camera ports 2 and 3, axes 8 to 15 (00, R4), `ZL_TIMED_HI`,
`FIRE_HOFS` from 32 on, rods from channel 131,072 on. -/
def Dev.absent (d : Dev) (r : RegInfo) (i : Nat) : Bool :=
  d.isA32 &&
    ((r.ofLane && decide (32 ≤ i)) || decide (r.addr = 0x710008)
      || (r.dom = .vis && decide (2 ≤ i))
      || (decide (0xA00000 ≤ r.addr) && decide (r.addr < 0xA01000) && decide (8 ≤ i))
      || (decide (r.addr = 0x600200) && decide (32 ≤ i))
      || (decide (r.addr = 0x400000) && decide (131072 ≤ i)))

/-- An access of a register under R385, R386 and R397; `k` is done where it is allowed, its register present and powered. -/
def Dev.access (d : Dev) (lvl a : Nat) (write : Bool) (k : RegInfo → Nat → Nat → Dev → Dev) : Dev :=
  if !d.allowed 0 a lvl write then d.protRefuse 0 a lvl write
  else
    match findReg a with
    | none => d.busError a lvl 0 write
    | some (r, i, j) =>
      if d.absent r i then d
      else if !d.domOn (domOf r i) then d.busError a lvl 2 write
      else k r i j d

/-- A write that has a row of its own: `k` where the access is allowed and the register powered. -/
def Dev.ownWrite (d : Dev) (lvl : Lvl) (a : Nat) (k : Dev → Dev) : Dev := d.access lvl a true (fun _ _ _ => k)

/-- As `ownWrite`, for an RWP field: the write takes effect at level 3 only (17, R398, Table 17-2). -/
def Dev.ownWriteP (d : Dev) (lvl : Lvl) (a : Nat) (k : Dev → Dev) : Dev :=
  d.ownWrite lvl a (fun d => if lvl.val = 3 then k d else d)

/-! ### Reading -/

/-- The value that a read of a field gives (17, R398): fields that follow other state are computed. -/
def Dev.fieldValue (d : Dev) (f : Fld) (i j : Nat) : Nat :=
  match f with
  | .AON_ID_VARIANT => d.variantCode
  | .RW_POOL_COUNT => d.poolCount
  | .AON_IRQ_EV => (List.range 4).foldl (fun acc c => if d.rd .AON_EVPEND_PEND c = 0 then acc else acc + 2 ^ c) 0
  | .AON_IRQ_RING => bit (d.rd .AON_RIRQ_LO_RING != 0 || d.rd .AON_RIRQ_HI_RING != 0)
  | .AON_IRQ_HALT => bit (d.rd .DMA_HALT_LO_HALT != 0 || d.rd .DMA_HALT_HI_HALT != 0)
  | .AON_IRQ_PV => d.rd .NOC_PV_VALID
  | .AON_IRQ_BUS => d.rd .AON_BUSERR_VALID
  | .FIRE_CNT_LO_C => d.fire.cnt.toNat % 2 ^ 32
  | .FIRE_POS_LO_F => d.fire.pos.toNat % 2 ^ 32
  | .FIRE_CNT_HI_C => d.fire.latchCnt
  | .FIRE_POS_HI_F => d.fire.latchPos
  | .TB_NOW_S_S => tsec d.now
  | .FIRE_IDXDEV_WINEV =>
    let reach := d.rd .FIRE_IDXCFG_SLIPREV * d.rd .FIRE_CPR_CPR
    min 15 (d.fire.slips.filter (fun t => decide (d.fire.travel ≤ t + reach))).length
  | .PTP_STAT_SRCPORT => if d.rd .PTP_STAT_SRCPORT = 2 then 2 else d.rd .PTP_CFG_PORT
  | .VIS_TRIG_HI_DEPTH => (Tab.at d.vis i).trigQ.length
  | .TALLY_RES_CRC => (BitVec.ofNat 32 (d.rd .TALLY_VAL_STATE (d.rd .TALLY_CTX_CTX)) ^^^ 0xFFFFFFFF#32).toNat
  | .RING_STAT_RELAY => bit d.pins.relaysOpen
  | .TALLY_CTX_OWNED =>
    bit (d.flag .ZL_CFG_EN (d.rd .TALLY_CTX_CTX) && (d.st.running || d.st = .hold))
  | .TR_DATA_S =>
    let xs := (Tab.at d.trace i).samples
    if j < xs.length then nth xs (xs.length - 1 - j) else 0
  | .HT_STAT_STALE =>
    match (Tab.at d.heat i).readAt with
    | some t => bit (decide (t + 1000000 < d.now))
    | none => 0
  | _ => d.rd f i j

/-- The fields of a register as a word: write-only fields read 0, bits of no field 0 (`readWord` frees these). -/
def Dev.wordValue (d : Dev) (r : RegInfo) (i j : Nat) : Nat :=
  r.fields.foldl (fun acc f =>
    match (fldSpec f).acc with
    | .wo => acc
    | _ => acc + d.fieldValue f i j * 2 ^ (fldSpec f).lo) 0

/-- The latches of R400 that a read of a register takes. -/
def Dev.readLatch (d : Dev) (a : Nat) : Dev :=
  if a = 0x600028 then { d with fire := { d.fire with latchCnt := d.fire.cnt.toNat / 2 ^ 32 } }
  else if a = 0x600030 then { d with fire := { d.fire with latchPos := d.fire.pos.toNat / 2 ^ 32 } }
  else if a = 0xD03004 then (d.wr .TB_NOW_NS_NS (tns d.now)).wr .TB_NOW_SH_S (d.now / 1000000000 / 2 ^ 32)
  else if a = 0xE00010 then (d.wr .RING_CL_LO_C d.ring.latchLo).wr .RING_CL_HI_C d.ring.latchHi
  else d

/-- Read a register at a level: its value, 0 with a bus error where the access is refused or invalid, 0 without one where the
register is absent on the A32; and the state with the read's latches and errors. -/
def Dev.readReg (d : Dev) (lvl a : Nat) : Nat × Dev :=
  if !d.allowed 0 a lvl false then (0, d.protRefuse 0 a lvl false)
  else if a % 4 != 0 then (0, d.busError a lvl 1 false)
  else
    match findReg a with
    | none => (0, d.busError a lvl 0 false)
    | some (r, i, j) =>
      if d.absent r i then (0, d)
      else if !d.domOn (domOf r i) then (0, d.busError a lvl 2 false)
      else (d.wordValue r i j, d.readLatch a)

/-- The bits of a number that stand in no field of a register. -/
def RegInfo.reserved (r : RegInfo) (bits : Nat) : Nat :=
  bits &&& (2 ^ 32 - 1 - r.fields.foldl (fun acc f => acc + (2 ^ (fldSpec f).width - 1) * 2 ^ (fldSpec f).lo) 0)

/-- A register whose read at a level is carried out: no region refuses it, it stands there, the variant has it and its domain is
powered (16, R385; 17, R397). -/
def Dev.readable (d : Dev) (lvl a : Nat) : Option RegInfo :=
  if !d.allowed 0 a lvl false || a % 4 != 0 then none
  else
    match findReg a with
    | none => none
    | some (r, i, _) => if d.absent r i || !d.domOn (domOf r i) then none else some r

/-- Read a whole word: a read that is carried out gives a free value in the reserved bits of the register (00, R8; assumption 22). -/
def Dev.readWord (d : Dev) (lvl a : Nat) : Nat × Dev :=
  match d.readable lvl a with
  | none => d.readReg lvl a
  | some r => ((d.readReg lvl a).1 + r.reserved ((d.readReg lvl a).2.free 32).1, ((d.readReg lvl a).2.free 32).2)

/-- FIRE_CNT_LO_READ (17, R400): a read of FIRE_CNT_LO latches FIRE_CNT_HI. -/
def execFireCntLoRead (lvl : Lvl) (s : State) : Out := s.act fun d => (d.readReg lvl 0x600028).2

/-- FIRE_POS_LO_READ (17, R400): a read of FIRE_POS_LO latches FIRE_POS_HI. -/
def execFirePosLoRead (lvl : Lvl) (s : State) : Out := s.act fun d => (d.readReg lvl 0x600030).2

/-- TB_NOW_S_READ (17, R400): a read of TB_NOW_S latches TB_NOW_NS and TB_NOW_SH. -/
def execTbNowSRead (lvl : Lvl) (s : State) : Out := s.act fun d => (d.readReg lvl 0xD03004).2

/-- RING_CL_S_READ (17, R400): a read of RING_CL_S latches RING_CL_LO and RING_CL_HI. -/
def execRingClSRead (lvl : Lvl) (s : State) : Out := s.act fun d => (d.readReg lvl 0xE00010).2

end Sys2Proof.Machine
end

