-- ==== Sys2Proof/Machine/Trace.lean ====
section
/-! DEFINITION. Trace buffers (11, R288). -/
namespace Sys2Proof.Machine

/-- The trace channel c. -/
def Dev.tr (d : Dev) (c : Nat) : Trace := Tab.at d.trace c

/-- Change it. -/
def Dev.updTr (d : Dev) (c : Nat) (f : Trace → Trace) : Dev := { d with trace := Tab.upd d.trace c f }

/-- Samples kept from before the trigger. -/
def Dev.trPre (d : Dev) (c : Nat) : Nat := 16 * d.rd .TR_CFG_PRE c

/-- A channel triggers: it will record 4,096 - 16 PRE samples more. -/
def Dev.trTrigger (d : Dev) (c : Nat) : Dev :=
  let d := (d.wr .TR_STAT_STATE 2 c).wr .TR_STAT_TIDX (min (d.trPre c) (d.tr c).samples.length) c
  let d := d.updTr c (fun t => { t with left := 4096 - d.trPre c })
  d.raise Ev.TR_TRIGGERED (le 1 c)

/-- The trigger condition of an armed channel holds with the value `v` of its node: at once, its event was raised, or the node
rises above or falls below the threshold. -/
def Dev.trHits (d : Dev) (c : Nat) (v : Int) : Bool :=
  let t := d.tr c
  let thr := d.srd .TR_THR_THR c
  match d.rd .TR_TRIG_MODE c with
  | 0 => true
  | 1 => t.hit
  | 2 => decide (t.tick ≠ 0) && decide (t.last ≤ thr) && decide (thr < v)
  | _ => decide (t.tick ≠ 0) && decide (thr ≤ t.last) && decide (v < thr)

/-- One sample of a channel's loop: it may trigger, and every `DEC`-th sample is recorded; after the last one it stops. -/
def Dev.trSample (d : Dev) (c : Nat) (v : Int) : Dev :=
  let d := if d.rd .TR_STAT_STATE c = 1 && d.trHits c v then d.trTrigger c else d
  let t := d.tr c
  let takes := decide (t.tick % max 1 (d.rd .TR_CFG_DEC c) = 0)
  let d := d.updTr c (fun t => { t with tick := t.tick + 1, last := v })
  if !takes then d
  else if d.rd .TR_STAT_STATE c = 1 then
    d.updTr c (fun t => { t with samples := (unsign 32 v :: t.samples).take (d.trPre c) })
  else
    let d := d.updTr c (fun t => { t with samples := unsign 32 v :: t.samples, left := t.left - 1 })
    if (d.tr c).left = 0 then d.wr .TR_STAT_STATE 3 c else d

/-- Sample every armed or triggered channel whose source is the loop; `node` gives the value of each node of Table 11-4, none
for a reserved one, whose value is free. -/
def Dev.traceLoop (d : Dev) (loop : Nat) (node : Nat → Option Int) : Dev :=
  d.forEach (List.range 4) (fun d c =>
    if d.rd .TR_CFG_LOOP c = loop && (d.rd .TR_STAT_STATE c = 1 || d.rd .TR_STAT_STATE c = 2) then
      match node (d.rd .TR_CFG_NODE c) with
      | some v => d.trSample c v
      | none => let (f, d) := d.free 32; d.trSample c (signed 32 f)
    else d)

/-- Arm a channel; with the immediate trigger it triggers at once. -/
def Dev.trArm (d : Dev) (c : Nat) : Dev :=
  let d := (d.wr .TR_STAT_STATE 1 c).updTr c (fun _ => default)
  if d.rd .TR_TRIG_MODE c = 0 then d.trTrigger c else d

/-- TRACE_ARM (R288): a write of 1 to `TR_STAT.ARM`. -/
def execTraceArm (lvl : Lvl) (c : Fin 4) (s : State) : Out :=
  s.act (·.ownWrite lvl (0xA0200C + 0x10 * c.val) (·.trArm c))

end Sys2Proof.Machine
end

