-- ==== Sys2Proof/Machine/Axes.lean ====
section
/-! DEFINITION. Bar axes (11, R262 to R280): profiles, estimates, position loops, limits, homing, the axis ports. -/
namespace Sys2Proof.Machine

/-! ### An axis -/

/-- The axis a. -/
def Dev.ax (d : Dev) (a : Nat) : Axis := Tab.at d.axes a

/-- Change it. -/
def Dev.updAx (d : Dev) (a : Nat) (f : Axis → Axis) : Dev := { d with axes := Tab.upd d.axes a f }

/-- Change its profile; `MOVING` follows. -/
def Dev.updProf (d : Dev) (a : Nat) (f : Prof → Prof) : Dev :=
  let d := d.updAx a (fun x => { x with prof := f x.prof })
  d.wr .AX_STAT_MOVING (bit ((d.ax a).prof.run != .rest)) a

/-- The axis is in use: present, enabled, its engines running. -/
def Dev.axOn (d : Dev) (a : Nat) : Bool :=
  decide (a < d.nAxes) && d.flag .AX_CFG_EN a && d.runs .cc0 && d.runs .cc1

/-- Axis states (11, AX_STAT). -/
inductive AxState where
  | unhomed | seek | backoff | latch | homingSettle | homed | fault
  deriving DecidableEq, Repr

/-- Value of an axis state in `AX_STAT.STATE`. -/
def AxState.code : AxState → Nat
  | .unhomed => 0 | .seek => 1 | .backoff => 2 | .latch => 3 | .homingSettle => 4 | .homed => 5 | .fault => 6

/-- The axis is in a state. -/
def Dev.axIs (d : Dev) (a : Nat) (x : AxState) : Bool := d.rd .AX_STAT_STATE a = x.code

/-- Put the axis into a state. -/
def Dev.axTo (d : Dev) (a : Nat) (x : AxState) : Dev := d.wr .AX_STAT_STATE x.code a

/-- The axis is homing. -/
def Dev.homing (d : Dev) (a : Nat) : Bool :=
  d.axIs a .seek || d.axIs a .backoff || d.axIs a .latch || d.axIs a .homingSettle

/-- Its kinematic limits: `VMAX`, `AMAX` and `ASTOP` in 2^-32 steps, `JMAX` in units of 65,536 steps/s^3. -/
def Dev.kin (d : Dev) (a : Nat) : Kin :=
  { v := d.rd .AX_KIN_LIM a 0 * 2 ^ 32, a := d.rd .AX_KIN_LIM a 1 * 2 ^ 32, j := d.rd .AX_KIN_LIM a 2 * 65536,
    stop := d.rd .AX_KIN_LIM a 3 * 2 ^ 32 }

/-- FE in 2^-32 steps (R266); without feedback the estimate is the profile position. -/
def Dev.axFe (d : Dev) (a : Nat) : Int :=
  if d.rd .AX_CFG_FB a = 0 then 0 else (d.ax a).prof.p - (d.ax a).est

/-- |FE| lies within `SETTLE`. -/
def Dev.axNear (d : Dev) (a : Nat) : Bool := decide ((d.axFe a).natAbs ≤ d.rd .AX_PLAUS_SETTLE a * 2 ^ 32)

/-! ### Limits -/

/-- `HOMELIM` makes this limit switch the home switch. -/
def Dev.limIsHome (d : Dev) (a : Nat) (high : Bool) : Bool := d.rd .AX_CFG_HOMELIM a = (if high then 2 else 1)

/-- The limit of a side is latched. -/
def Dev.latched (d : Dev) (a : Nat) (high : Bool) : Bool :=
  if high then d.flag .AX_STAT_LATHI a else d.flag .AX_STAT_LATLO a

/-- Motion in a direction is barred by a latched limit (R269); the home switch is no limit while the axis is homing (R272). -/
def Dev.barred (d : Dev) (a : Nat) (up : Bool) : Bool := d.latched a up && !(d.homing a && d.limIsHome a up)

/-- Latch or unlatch a limit, with the position at which it tripped. -/
def Dev.setLatch (d : Dev) (a : Nat) (high : Bool) (pos : Option Int) : Dev :=
  if high then (d.wr .AX_STAT_LATHI (bit pos.isSome) a).updAx a (fun x => { x with high := ⟨pos⟩ })
  else (d.wr .AX_STAT_LATLO (bit pos.isSome) a).updAx a (fun x => { x with low := ⟨pos⟩ })

/-! ### Moves -/

/-- Homing move in a direction at a speed in steps/s. -/
def Dev.homeMove (d : Dev) (a : Nat) (up : Bool) (speed : Nat) : Dev :=
  if d.barred a up then d.updProf a (·.planStop (d.kin a))
  else d.updProf a (·.planSpeed (d.kin a) ((if up then 1 else -1) * (speed * 2 ^ 32 : Nat)))

/-- A target within the soft limits (R271), in 2^-32 steps. -/
def Dev.clipTarget (d : Dev) (a : Nat) (t : Int) : Int :=
  clampInt (d.srd .AX_SOFT_POS a 0) (d.srd .AX_SOFT_POS a 1) t * 2 ^ 32

/-- Run to a target in steps (R273, R274): not toward a latched limit; during a maximum-deceleration stop it waits. -/
def Dev.axRun (d : Dev) (a : Nat) (t : Int) : Dev :=
  let goal := d.clipTarget a t
  if d.barred a (decide ((d.ax a).prof.p < goal)) && decide ((d.ax a).prof.p ≠ goal) then d
  else if (d.ax a).prof.run = .maxStop then d.updAx a (fun x => { x with prof := { x.prof with waiting := some goal } })
  else d.updProf a (·.planTo (d.kin a) goal)

/-- The axis accepts a target: HOMED, or UNHOMED and the target is the press controller's (R267, Table 11-1). -/
def Dev.axAccepts (d : Dev) (a : Nat) (fromPc : Bool) : Bool :=
  d.axOn a && (d.axIs a .homed || (d.axIs a .unhomed && fromPc))

/-- A target is written: `AX_TGT` holds it as written; an axis that accepts it replans. -/
def Dev.axTarget (d : Dev) (a : Nat) (t : Int) (fromPc : Bool) : Dev :=
  let d := d.wr .AX_TGT_POS (unsign 32 t) a
  if d.axAccepts a fromPc then d.axRun a t else d

/-! ### Faults and homing -/

/-- Causes of `AX_HOME_ABORT`. -/
inductive AbortCause where
  | limit | timeout | stop | fault
  deriving DecidableEq, Repr

/-- Code of an abort cause. -/
def AbortCause.code : AbortCause → Nat
  | .limit => 1 | .timeout => 2 | .stop => 3 | .fault => 4

/-- Homing ends without success (Table 11-1). -/
def Dev.homeAbort (d : Dev) (a : Nat) (c : AbortCause) : Dev :=
  let d := d.updProf a (fun p => if c = .limit then p.planMaxStop (d.kin a) else p.planStop (d.kin a))
  let d := d.updAx a (fun x => { x with homeSince := none })
  (d.axTo a .unhomed).raise Ev.AX_HOME_ABORT (le 1 a ++ le 1 c.code)

/-- The axis enters FAULT (R266, R267): cause 1 following error, 2 drive, 3 frames. It holds where it is, and no hand-over step goes on. A
homing axis stops and is UNHOMED instead (Table 11-1; assumption 67). -/
def Dev.axFault (d : Dev) (a cause : Nat) : Dev :=
  if !d.axOn a || d.axIs a .fault then d
  else
    let d :=
      if d.homing a then (d.homeAbort a .fault).updAx a (fun x => { x with feSince := none, fails := 0 })
      else ((d.updProf a Prof.freeze).axTo a .fault).dropSteps (d.axisBar a)
    d.raise Ev.AX_FAULT (le 1 a ++ le 1 cause)

/-- FOLLOWING_ERROR_FAULT (R266): |FE| has exceeded `FELIM` on every sample for `FETIME` ms. -/
def execFollowingErrorFault (a : AxisNo) (s : State) : Out :=
  s.act fun d =>
    if (d.ax a).feSince.any (fun t => decide (t + 1000000 * d.rd .AX_PLAUS_FETIME a ≤ d.now)) then d.axFault a 1 else d

/-- Direction `HDIR`. -/
def Dev.hdir (d : Dev) (a : Nat) : Bool := d.flag .AX_CFG_HDIR a

/-- Enter BACKOFF: move against `HDIR` at `VHOME`. -/
def Dev.toBackoff (d : Dev) (a : Nat) : Dev :=
  let d := d.axTo a .backoff
  d.homeMove a (!d.hdir a) (d.rd .AX_HOMECFG_VHOME a * 64)

/-- The event of LATCH: the estimate takes `HOMEPOS` at the edge, the profile position follows, and the axis stops. -/
def Dev.homeEdge (d : Dev) (a : Nat) : Dev :=
  let pos := d.srd .AX_HOMEPOS_POS a * 2 ^ 32
  let now := d.now
  let d := d.updAx a (fun x =>
    { x with est := pos, estAt := now, estLo := 0, estHi := 0, settled := 0, prof := { x.prof with p := pos } })
  (d.updProf a (·.planStop (d.kin a))).axTo a .homingSettle

/-- HOME becomes active. -/
def Dev.homeActive (d : Dev) (a : Nat) : Dev :=
  let d := (d.updAx a (fun x => { x with homeIn := true })).wr .AX_STAT_HOMESW 1 a
  if d.axIs a .seek then d.toBackoff a
  else if d.axIs a .latch then
    if d.rd .AX_CFG_FB a = 2 then d.updAx a (fun x => { x with edge := true }) else d.homeEdge a
  else d

/-- HOME has been inactive for 8 samples. -/
def Dev.homeInactive (d : Dev) (a : Nat) : Dev :=
  let d := (d.updAx a (fun x => { x with homeIn := false })).wr .AX_STAT_HOMESW 0 a
  if d.axIs a .backoff then
    let d := (d.updAx a (fun x => { x with edge := false })).axTo a .latch
    d.homeMove a (d.hdir a) (d.rd .AX_HOMECFG_VLATCH a * 16)
  else d

/-- An index edge: the first after the HOME edge ends LATCH with quadrature feedback. -/
def Dev.homeIndex (d : Dev) (a : Nat) : Dev :=
  if d.axIs a .latch && d.rd .AX_CFG_FB a = 2 && (d.ax a).edge then d.homeEdge a else d

/-- HOME_INPUT_CHANGE (R272, Table 11-1). -/
def execHomeInputChange (a : AxisNo) (edge : HomeEdge) (s : State) : Out :=
  s.act fun d =>
    if !d.axOn a then d
    else match edge with
      | .active => d.homeActive a
      | .inactive => d.homeInactive a
      | .index => d.homeIndex a

/-- Homing may begin: UNHOMED or HOMED, with no line of the axis's bar placed (R272), and no latched limit in its way. -/
def Dev.mayHome (d : Dev) (a : Nat) : Bool :=
  d.axOn a && (d.axIs a .unhomed || d.axIs a .homed) && !d.barPlaced (d.axisBar a)
    && !(let up := if (d.ax a).homeIn then !d.hdir a else d.hdir a
         d.latched a up && !d.limIsHome a up)

/-- A homing command (Table 11-1). -/
def Dev.axHome (d : Dev) (a : Nat) : Dev :=
  if !d.mayHome a then d
  else
    let now := d.now
    let d := d.updAx a (fun x => { x with homeSince := some now })
    if (d.ax a).homeIn then d.toBackoff a
    else (d.axTo a .seek).homeMove a (d.hdir a) (d.rd .AX_HOMECFG_VHOME a * 64)

/-- AX_HOME (R272). -/
def execAxHome (lvl : Lvl) (a : AxisNo) (s : State) : Out :=
  s.act (·.ownWrite lvl (0xA00048 + 0x80 * a.val) (·.axHome a))

/-- A stop at a_max and j_max; it ends homing. -/
def Dev.axStop (d : Dev) (a : Nat) : Dev :=
  if !d.axOn a || d.axIs a .fault then d
  else if d.homing a then d.homeAbort a .stop
  else if (d.ax a).prof.run = .maxStop then d
  else d.updProf a (·.planStop (d.kin a))

/-- AX_STOP (R272; 11, AX_CTL). -/
def execAxStop (lvl : Lvl) (a : AxisNo) (s : State) : Out :=
  s.act (·.ownWrite lvl (0xA00048 + 0x80 * a.val) (·.axStop a))

/-- FAULT is left for UNHOMED (R267). -/
def Dev.axFclr (d : Dev) (a : Nat) : Dev :=
  if d.axIs a .fault then (d.axTo a .unhomed).updAx a (fun x => { x with feSince := none, fails := 0 }) else d

/-- AX_FCLR (R267). -/
def execAxFclr (lvl : Lvl) (a : AxisNo) (s : State) : Out :=
  s.act (·.ownWrite lvl (0xA00048 + 0x80 * a.val) (·.axFclr a))

/-- HOMING_TIMEOUT (R272): `HTO` seconds since the command. -/
def execHomingTimeout (a : AxisNo) (s : State) : Out :=
  s.act fun d =>
    let due := (d.ax a).homeSince.any (fun t => decide (t + 1000000000 * d.rd .AX_HOMECFG_HTO a ≤ d.now))
    if d.axOn a && d.homing a && due then d.homeAbort a .timeout else d

/-- AX_TGT_WRITE (R273): a target that does not come from the press controller. -/
def execAxTgtWrite (lvl : Lvl) (a : AxisNo) (v : U32) (s : State) : Out :=
  s.act (·.ownWrite lvl (0xA00028 + 0x80 * a.val) (·.axTarget a v.toInt false))

/-! ### Limit inputs (R269, R270) -/

/-- The profile moves toward a side. -/
def Prof.toward (x : Prof) (high : Bool) : Bool :=
  let up := decide (0 < x.v) || (decide (x.v = 0) && decide (0 < x.a))
  let down := decide (x.v < 0) || (decide (x.v = 0) && decide (x.a < 0))
  x.run != .rest && (if high then up else down)

/-- A filtered limit input becomes active. -/
def Dev.limitTrip (d : Dev) (a : Nat) (high : Bool) : Dev :=
  if !d.axOn a then d
  else if d.homing a && d.limIsHome a high then d.homeActive a
  else
    let d := if d.limIsHome a high then (d.updAx a (fun x => { x with homeIn := true })).wr .AX_STAT_HOMESW 1 a else d
    let d := d.setLatch a high (some (d.ax a).prof.p)
    if d.homing a then d.homeAbort a .limit
    else if (d.ax a).prof.toward high then
      (d.updProf a (·.planMaxStop (d.kin a))).raise Ev.AX_LIMIT (le 1 a ++ le 1 (bit high))
    else d

/-- LIMIT_TRIP (R270). -/
def execLimitTrip (a : AxisNo) (high : Bool) (s : State) : Out := s.act (·.limitTrip a high)

/-- The profile has carried the axis at least 50 um away from where the limit tripped (R269). -/
def Dev.awayFrom (d : Dev) (a : Nat) (high : Bool) (trip : Int) : Bool :=
  let way := if high then trip - (d.ax a).prof.p else (d.ax a).prof.p - trip
  decide (50000000 * 2 ^ 32 ≤ way * d.rd .AX_SCALE_PM a)

/-- LIMIT_LATCH_CLEAR (R269): the input has been inactive for 10 ms. -/
def execLimitLatchClear (a : AxisNo) (high : Bool) (s : State) : Out :=
  s.act fun d =>
    match (if high then (d.ax a).high.at? else (d.ax a).low.at?) with
    | some trip => if d.axOn a && d.awayFrom a high trip then d.setLatch a high none else d
    | none => d

/-! ### Feedback (R264) -/

/-- Sector of a Hall state H3 H2 H1; none for 0b000 and 0b111. -/
def hallSector : Nat → Option Nat
  | 1 => some 0 | 3 => some 1 | 2 => some 2 | 6 => some 3 | 4 => some 4 | 5 => some 5
  | _ => none

/-- Width of a Hall sector in 2^-32 steps. -/
def sectorWidth : Int := 1024 * 2 ^ 32 / 6

/-- The position of a sector's start in the electrical cycle nearest to `p`. -/
def sectorStart (s : Nat) (p : Int) : Int :=
  let b := 1024 * 2 ^ 32 * (s : Int) / 6
  b + 1024 * 2 ^ 32 * roundDiv (p - b) (1024 * 2 ^ 32)

/-- A Hall state arrives: a transition to an adjacent sector sets the estimate to the boundary between them, as of its timestamp (R263). -/
def Dev.hallChange (d : Dev) (a h : Nat) : Dev :=
  let x := d.ax a
  let now := d.now
  match hallSector x.hall, hallSector h with
  | some s, some s' =>
    if s' = (s + 1) % 6 then
      let b := sectorStart s' x.prof.p
      d.updAx a (fun x => { x with hall := h, est := b, estAt := now, estLo := b, estHi := b + sectorWidth })
    else if s = (s' + 1) % 6 then
      let b := sectorStart s x.prof.p
      d.updAx a (fun x => { x with hall := h, est := b, estAt := now, estLo := b - sectorWidth, estHi := b })
    else d.updAx a (fun x => { x with hall := h })
  | none, some _ => d.updAx a (fun x => { x with hall := h })
  | _, none => d

/-- Counts of a change of quadrature inputs, decoded x4: up while A leads B (06, R131 for the encoder; assumption 24). -/
def quadCount (a b a' b' : Bool) : Int :=
  let pos := fun (a b : Bool) => if a then (if b then 2 else 1) else (if b then 3 else 0)
  match (pos a' b' + 4 - pos a b) % 4 with
  | 1 => 1
  | 3 => -1
  | _ => 0

/-- Quadrature inputs change: each count moves the estimate by `AX_QSCALE` steps. -/
def Dev.quadChange (d : Dev) (n : Nat) (a b : Bool) : Dev :=
  let x := d.ax n
  let step := quadCount x.qa x.qb a b * (d.rd .AX_QSCALE_SPC n * 2 ^ 24 : Nat)
  d.updAx n (fun x => { x with qa := a, qb := b, est := x.est + step })

/-- AXIS_FEEDBACK_CHANGE (R264): a change that the selected feedback does not use is not decoded. -/
def execAxisFeedbackChange (a : AxisNo) (f : Feedback) (s : State) : Out :=
  s.act fun d =>
    if !d.axOn a then d
    else match f, d.rd .AX_CFG_FB a with
      | .hall h, 1 => d.hallChange a h.toNat
      | .quad qa qb, 2 => d.quadChange a qa qb
      | _, _ => d

/-! ### The 20 kHz sample (R268, R273, R280) -/

/-- AX_CCOMMIT (R280): `CCOMMIT` reads 1 until the next sample. -/
def execAxCcommit (lvl : Lvl) (a : AxisNo) (s : State) : Out :=
  s.act (·.ownWrite lvl (0xA00000 + 0x80 * a.val) (fun d => d.wr .AX_CFG_CCOMMIT 1 a))

/-- The shadow coefficients of an axis. -/
def Dev.axShadow (d : Dev) (a : Nat) : List Int := (List.range 7).map (fun i => d.srd .AX_COEF_C a i)

/-- A committed shadow set moves into force. -/
def Dev.axCoefs (d : Dev) (a : Nat) : Dev :=
  if d.flag .AX_CFG_CCOMMIT a then
    (d.wr .AX_CFG_CCOMMIT 0 a).updAx a (fun x => { x with comp := { x.comp with coef := d.axShadow a } })
  else d

/-- The time of the coming AXSYNC, for which a sample is taken (R268, R276). -/
def Dev.nextSync (d : Dev) : Nat := (d.now / 50000 + 1) * 50000

/-- The estimate between transitions: extrapolated with the profile velocity from the last one to the coming AXSYNC, and held inside the
Hall sector (R264; assumption 68). -/
def Dev.axEstimate (d : Dev) (a : Nat) : Dev :=
  match d.rd .AX_CFG_FB a with
  | 0 => d.updAx a (fun x => { x with est := x.prof.p })
  | 1 =>
    let t := d.nextSync
    d.updAx a (fun x =>
      let e := x.est + x.prof.v * ((t : Int) - x.estAt) / 1000000000
      { x with est := if x.estLo < x.estHi then clampInt x.estLo x.estHi e else e, estAt := t })
  | _ => d

/-- A target that waited for the end of a maximum-deceleration stop (R274) is run to, unless a limit bars the way by then (R269). -/
def Dev.axResume (d : Dev) (a : Nat) : Dev :=
  match (d.ax a).prof.run, (d.ax a).prof.waiting with
  | .rest, some goal =>
    let d := d.updAx a (fun x => { x with prof := { x.prof with waiting := none } })
    if d.barred a (decide ((d.ax a).prof.p < goal)) && decide ((d.ax a).prof.p ≠ goal) then d
    else d.updProf a (·.planTo (d.kin a) goal)
  | _, _ => d

/-- Output limit of the loop in s16.16: `OLIM` steps under STEP, 16 `OLIM` under SERVO. -/
def Dev.axOlim (d : Dev) (a : Nat) : Int :=
  d.rd .AX_DRIVE_OLIM a * 65536 * (if d.flag .AX_CFG_DRV a then 16 else 1)

/-- e of the loop in s16.16. -/
def Dev.axErr (d : Dev) (a : Nat) : Int := signed 32 (satSigned 32 (d.axFe a / 2 ^ 16))

/-- The commutation address of the drive mode. -/
def Dev.axAddr (d : Dev) (a : Nat) : Nat :=
  let x := d.ax a
  let y := x.comp.out
  let pos : Int :=
    if d.flag .AX_CFG_DRV a then x.est / 2 ^ 32 + 256 * y.sign
    else (x.prof.p + y * 2 ^ 16) / 2 ^ 32
  ((pos + d.rd .AX_CFG_EOFS a) % 1024).toNat

/-- The current magnitude: `IHOLD` in FAULT (R267), else by the drive mode (R268). -/
def Dev.axMag (d : Dev) (a : Nat) : Nat :=
  if d.axIs a .fault then d.rd .AX_DRIVE_IHOLD a
  else if d.flag .AX_CFG_DRV a then min 4095 ((d.ax a).comp.out.natAbs / 65536)
  else if (d.ax a).prof.run != .rest || !d.axNear a then d.rd .AX_DRIVE_IRUN a
  else d.rd .AX_DRIVE_IHOLD a

/-- The status registers follow the sample; `feSince` follows FE (R266, not without feedback). -/
def Dev.axStatus (d : Dev) (a : Nat) : Dev :=
  let x := d.ax a
  let d := (d.wr .AX_CMDPOS_POS (unsign 32 (x.prof.p / 2 ^ 32)) a).wr .AX_EST_POS (unsign 32 (x.est / 2 ^ 32)) a
  let d := d.wr .AX_STAT_FE (satSigned 16 (d.axFe a / 2 ^ 32)) a
  let d := (d.wr .AX_STAT_MOVING (bit (x.prof.run != .rest)) a).wr .AX_STAT_SETTLED
    (bit (x.prof.run = .rest && d.axNear a)) a
  let exceeds := decide (d.rd .AX_PLAUS_FELIM a * 2 ^ 32 < (d.axFe a).natAbs) && d.rd .AX_CFG_FB a != 0
  d.updAx a (fun x => { x with feSince := if exceeds then some (x.feSince.getD d.now) else none })

/-- HOMING_SETTLE: the profile ended and |FE| within `SETTLE` for 4 samples. -/
def Dev.axSettle (d : Dev) (a : Nat) : Dev :=
  if !d.axIs a .homingSettle then d
  else if (d.ax a).prof.run != .rest || !d.axNear a then d.updAx a (fun x => { x with settled := 0 })
  else
    let d := d.updAx a (fun x => { x with settled := x.settled + 1 })
    if (d.ax a).settled < 4 then d
    else (d.axTo a .homed).raise Ev.AX_HOMED (le 1 a ++ le 4 (d.rd .AX_HOMEPOS_POS a))

/-- Values of the trace nodes of an axis loop (Table 11-4); `y` are the outputs before this sample. -/
def Dev.axNode (d : Dev) (a : Nat) (y : List Int) (n : Nat) : Option Int :=
  let x := d.ax a
  match n with
  | 0 => some (d.srd .AX_TGT_POS a)
  | 1 => some (x.prof.p / 2 ^ 24)
  | 2 => some (x.est / 2 ^ 24)
  | 3 => some (x.comp.e.getD 0 0)
  | 4 => some (y.getD 0 0)
  | 5 => some (y.getD 1 0)
  | 6 => some (y.getD 2 0)
  | 7 => some x.comp.yraw
  | 8 => some x.comp.out
  | 9 => some (x.prof.v / 2 ^ 32)
  | 10 => some (x.prof.a / 2 ^ 36)
  | _ => none

/-- One sample of an axis: the profile for the coming AXSYNC, the estimate, the position loop, status, homing, traces. In
FAULT the axis holds its last address. -/
def Dev.axSample (d : Dev) (a : Nat) : Dev :=
  let d := ((d.axCoefs a).updProf a (·.advance 50000)).axResume a
  let d := d.axEstimate a
  let y := (d.ax a).comp.y
  let d :=
    if d.axIs a .fault then d
    else
      let d := d.updAx a (fun x =>
        { x with comp := x.comp.step (d.axErr a) (-(d.axOlim a)) (d.axOlim a) (d.flag .AX_CFG_COMP a) })
      d.updAx a (fun x => { x with addr := d.axAddr a })
  let d := (d.axStatus a).axSettle a
  d.traceLoop a (d.axNode a y)

/-- The axes in use. -/
def Dev.axesOn (d : Dev) : List Nat := (List.range 16).filter d.axOn

/-- AXIS_SAMPLE (R273, R268; 10, R259). -/
def execAxisSample (s : State) : Out :=
  s.act fun d => (d.forEach d.axesOn Dev.axSample).forEach (d.bars.map (·.bar)) Dev.stepSample

/-! ### Axis ports (R276 to R278) -/

/-- One bit of the CRC-16 of Table 11-2 (polynomial 0x1021). -/
def crc16Bit (s : Nat) (b : Bool) : Nat :=
  let x := s * 2 % 65536
  if s.testBit 15 != b then x ^^^ 0x1021 else x

/-- CRC-16 over the `w` low bits of `v`, bit 0 first. -/
def crc16Bits (s v : Nat) : Nat → Nat
  | 0 => s
  | w + 1 => crc16Bits (crc16Bit s (v.testBit 0)) (v / 2) w

/-- CRC-16 over fields of given widths, each sent bit 0 first. -/
def crc16 (fields : List (Nat × Nat)) : Nat := fields.foldl (fun s x => crc16Bits s x.1 x.2) 0xFFFF

/-- The word of an axis in the frame of its port (Table 11-2): a drive that is absent gets `MODE` 0. -/
def Dev.axWord (d : Dev) (a : Nat) : Nat :=
  if d.axOn a then (d.ax a).addr + 2 ^ 10 * d.axMag a + 2 ^ 22 * 1 + 2 ^ 24 * (a % 4) else 2 ^ 24 * (a % 4)

/-- The frame of a port with the counter `fcnt`. -/
def Dev.axFrame (d : Dev) (port fcnt : Nat) : AxisFrame :=
  let words := (List.range 4).map (fun c => d.axWord (4 * port + c))
  { fcnt := fcnt, words := words, crc := crc16 ([(0xA5, 8), (fcnt, 8)] ++ words.map (fun w => (w, 32))) }

/-- Send the frame of a port. -/
def Dev.sendAxFrame (d : Dev) (port : Nat) : Dev :=
  let p : AxPort := Tab.at d.axp port
  let d := d.emit (.axis port (d.axFrame port p.fcnt))
  { d with axp := Tab.put d.axp port { p with fcnt := (p.fcnt + 1) % 256 } }

/-- The axes of a group of the `ring` record (15, R365). -/
def Dev.groupAxes (d : Dev) (g : Nat) : List Nat :=
  ((d.boot.content.bind (fun c => c.groups.find? (fun x => x.1 = g))).map (·.2)).getD []

/-- Every axis of a group begins the profile of its waiting target. -/
def Dev.startGroup (d : Dev) (g : Nat) : Dev :=
  let d := d.forEach (d.groupAxes g) (fun d a =>
    match (d.ax a).pend with
    | some t =>
      let d := d.updAx a (fun x => { x with pend := none })
      d.axTarget a t.tgt true
    | none => d)
  { d with ring := { d.ring with epochs := Tab.put d.ring.epochs g none } }

/-- Coordinated moves whose start epoch has come begin (R278). -/
def Dev.startDue (d : Dev) : Dev :=
  d.forEach (List.range 8) (fun d g =>
    match (Tab.at d.ring.epochs g : Option Nat) with
    | some t => if t ≤ d.now then d.startGroup g else d
    | none => d)

/-- AXSYNC_PERIOD (R276, R278): the edge, the moves due at it, one frame per port. -/
def execAxsyncPeriod (s : State) : Out :=
  s.act fun d =>
    if !d.domOn .sup then d
    else
      let d := { d with pins := { d.pins with axsyncAt := some d.now } }
      (d.startDue).forEach (List.range (d.nAxes / 4)) Dev.sendAxFrame

/-- Status words of a return frame. -/
def retStatus (f : ReturnFrame) : List U16 := [f.s0, f.s1, f.s2, f.s3]

/-- A return frame passes `RCRC`. -/
def retCrcOk (f : ReturnFrame) : Bool :=
  crc16 ((f.fcnt.toNat, 8) :: (retStatus f).map (fun w => (w.toNat, 16))) = f.crc.toNat

/-- A return frame that fails counts for every axis of its port; the third in a row is a fault (R266). -/
def Dev.returnBad (d : Dev) (p : Nat) : Dev :=
  let d := d.inc .AXP_ERR_RCRC p
  let d := d.raise Ev.AXP_CRC (le 1 p ++ le 2 (d.rd .AXP_ERR_RCRC p))
  d.forEach ((List.range 4).map (· + 4 * p)) (fun d a =>
    let d := d.updAx a (fun x => { x with fails := x.fails + 1 })
    if 3 ≤ (d.ax a).fails then d.axFault a 3 else d)

/-- A return frame that passes: a drive that reports fault or undervoltage puts its axis in FAULT (R277). -/
def Dev.returnGood (d : Dev) (p : Nat) (f : ReturnFrame) : Dev :=
  let bad := fun (w : U16) => w.getLsbD 1 || w.getLsbD 3
  let d := d.wr .AXP_ERR_FAULT ((retStatus f).zipIdx.foldl (fun n x => if bad x.1 then n + 2 ^ x.2 else n) 0) p
  d.forEach (retStatus f).zipIdx (fun d x =>
    let a := 4 * p + x.2
    let d := d.updAx a (fun y => { y with fails := 0 })
    if bad x.1 then d.axFault a 2 else d)

/-- RETURN_FRAME (R277): checked against `RCRC` and the counter of the frame last sent. -/
def execReturnFrame (p : Port) (f : ReturnFrame) (s : State) : Out :=
  s.act fun d =>
    if !d.domOn .sup || d.nAxes / 4 ≤ p.val then d
    else if retCrcOk f && f.fcnt.toNat = ((Tab.at d.axp p.val : AxPort).fcnt + 255) % 256 then d.returnGood p f
    else d.returnBad p

end Sys2Proof.Machine
end

