-- ==== Sys2Proof/Machine/Mem.lean ====
section
/-! DEFINITION. Reading and writing DRAM (13, R307 to R313): bytes, code words and their poison, error counters. -/
namespace Sys2Proof.Machine

/-! ### Bytes -/

/-- The byte at an address. -/
def memRead (m : Tab Nat Byte) (a : Nat) : Byte := Tab.get Config.dramUnlisted m a

/-- Write a byte. -/
def memWrite (m : Tab Nat Byte) (a : Nat) (b : Byte) : Tab Nat Byte := Tab.set natLt Config.dramUnlisted m a b

/-- Write bytes from an address on. -/
def memWriteAll (m : Tab Nat Byte) (a : Nat) : List Byte → Tab Nat Byte
  | [] => m
  | b :: t => memWriteAll (memWrite m a b) (a + 1) t

/-- `n` bytes from an address on. -/
def memReadAll (m : Tab Nat Byte) (a : Nat) : Nat → List Byte
  | 0 => []
  | n + 1 => memRead m a :: memReadAll m (a + 1) n

/-- The canonical form of the memory: addresses strictly rising, no entry equal to what an unlisted address reads as. -/
def Dram.wf (m : Dram) : Bool := Tab.wf natLt (fun _ => Config.dramUnlisted) m.mem

/-- The address exists: 32 GiB of each channel, on the A32 the lower half of each (13, R307). -/
def Dev.addrOk (d : Dev) (a : Nat) : Bool :=
  decide (a < 2 ^ 36) && (!d.isA32 || decide (a % 2 ^ 35 < 2 ^ 34))

/-- A span of `n` bytes exists. -/
def Dev.spanOk (d : Dev) (a n : Nat) : Bool := d.addrOk a && d.addrOk (a + n - 1) && decide (a / 2 ^ 35 = (a + n - 1) / 2 ^ 35)

/-- The channel of an address: 0 A, 1 B. -/
def chanOf (a : Nat) : Nat := a / 2 ^ 35 % 2

/-! ### Errors (13, R310, R311) -/

/-- Record an error's address and die in `MEM_ELOG`. -/
def Dev.memLog (d : Dev) (a die : Nat) (ue : Bool) : Dev :=
  let c := chanOf a
  (((((d.wr .MEM_ELOG_LO_ADDR (bitsOf a 7 25) c).wr .MEM_ELOG_HI_ADDR (bitsOf a 32 4) c).wr .MEM_ELOG_HI_DIE die c).wr
    .MEM_ELOG_HI_UE (bit ue) c).wr .MEM_ELOG_HI_VALID 1 c)

/-- A corrected read (13, R310): counted, logged, raised at most once per second per channel. -/
def Dev.memCe (d : Dev) (a die : Nat) : Dev :=
  let c := chanOf a
  let d := (d.inc .MEM_CE_N c).memLog a die false
  let ch : MemCh := Tab.at d.msub c
  let quiet := match ch.ceAt with
    | some t => decide (d.now < t + 1000000000)
    | none => false
  if quiet then d
  else
    let d := { d with msub := Tab.put d.msub c { ch with ceAt := some d.now } }
    d.raise Ev.MEM_CE (le 1 c ++ le 8 a ++ le 1 die ++ le 4 (d.rd .MEM_CE_N c))

/-- An uncorrectable read (13, R311). -/
def Dev.memUe (d : Dev) (a die : Nat) : Dev :=
  let c := chanOf a
  ((d.inc .MEM_UE_N c).memLog a die true).raise Ev.MEM_UE (le 1 c ++ le 8 a ++ le 1 die)

/-! ### Writes of the DMA and other clients (13, R312, R313) -/

/-- Numbers of the code words that a span touches. -/
def wordsOf (a n : Nat) : List Nat := if n = 0 then [] else (List.range ((a + n - 1) / 128 - a / 128 + 1)).map (· + a / 128)

/-- A span covers a code word. -/
def covers (a n w : Nat) : Bool := decide (a ≤ w * 128) && decide (w * 128 + 128 ≤ a + n)

/-- Poison of one code word after a write: a full write clears it or carries the data's poison; a partial write is a
read-modify-write, which keeps it. -/
def poisonWord (a n : Nat) (bad : Bool) (p : List Nat) (w : Nat) : List Nat :=
  if bad then (if p.elem w then p else w :: p)
  else if covers a n w then p.filter (· != w) else p

/-- Count a write's read-modify-writes, and those of poisoned words. -/
def Dev.countRmw (d : Dev) (p : List Nat) (a n : Nat) : Dev :=
  d.forEach ((wordsOf a n).filter (fun w => !covers a n w)) (fun d w =>
    let d := d.incWrap .MEM_RMW_N (chanOf a)
    if p.elem w then d.inc .MEM_UE_PPW (chanOf a) else d)

/-- Write bytes to DRAM; a write to an absent address changes nothing (its client sees a bus error, R307). -/
def State.dramWrite (s : State) (a : Nat) (bs : List Byte) (bad : Bool := false) : State :=
  if bs = [] || !s.dev.spanOk a bs.length then s
  else
    { s with dev := s.dev.countRmw s.dram.poison a bs.length
             dram := { mem := memWriteAll s.dram.mem a bs
                       poison := (wordsOf a bs.length).foldl (poisonWord a bs.length bad) s.dram.poison } }

/-- A span holds a poisoned code word. -/
def Dram.poisoned (m : Dram) (a n : Nat) : Bool := (wordsOf a n).any m.poison.elem

end Sys2Proof.Machine
end

