-- ==== Sys2Proof/Machine/Predict.lean ====
section
/-! DEFINITION. Speed and fire times (06, R138 to R142, R149, R153 to R156). -/
namespace Sys2Proof.Machine

/-- Speed status VALID (06, Table 6-1). -/
def Dev.valid (d : Dev) : Bool := d.rd .FIRE_SPDSTAT_STATUS = 2

/-- Measured speed of R138 in 2^-20 counts/s, a magnitude: k over t0 - tk. -/
def Dev.vRaw20 (d : Dev) : Nat := if d.fire.speedD = 0 then 0 else d.fire.speedN * 1000000000 * 2 ^ 20 / d.fire.speedD

/-- The bound 1/(now - t0) of R140 in 2^-20 counts/s; none at the count itself. -/
def Dev.vBound20 (d : Dev) : Option Nat :=
  if d.now ≤ d.fire.lastT then none else some (1000000000 * 2 ^ 20 / (d.now - d.fire.lastT))

/-- Reported magnitude of R140 in 2^-20 counts/s; 0 unless VALID. -/
def Dev.v20 (d : Dev) : Nat :=
  if d.valid then
    match d.vBound20 with
    | some b => min d.vRaw20 b
    | none => d.vRaw20
  else 0

/-- The second term of R140 is the smaller. -/
def Dev.decays (d : Dev) : Bool :=
  d.valid && (match d.vBound20 with | some b => decide (b < d.vRaw20) | none => false)

/-- The threshold of R153 in counts/s; 0 acts as 1. -/
def Dev.vmin (d : Dev) : Nat := max 1 (d.rd .FIRE_VMIN_COUNTS)

/-- Predictive mode (06, R153). -/
def Dev.predictive (d : Dev) : Bool := d.valid && decide (d.vmin * 2 ^ 20 ≤ d.v20)

/-- Bring the speed registers up to date: reported speed in 2^-4 counts/s with its sign, `DECAY`, `MODE`. -/
def Dev.refreshSpeed (d : Dev) : Dev :=
  let v : Int := d.v20 / 2 ^ 16
  let d := d.wr .FIRE_SPEED_V (satSigned 32 (if d.fire.revDir then -v else v))
  (d.wr .FIRE_SPDSTAT_DECAY (bit d.decays)).wr .FIRE_SPDSTAT_MODE (bit d.predictive)

/-- A position in 2^-38 counts, seen from the count `c`: signed difference modulo 2^48 counts (06, R133). -/
def rel38 (x : Int) (c : Pos48) : Int := (x - c.toNat * 2 ^ 38 + 2 ^ 85) % 2 ^ 86 - 2 ^ 85

/-- Fire time of R154 for a position, in ns; none when the web is predicted to stop before it, or moves away from it. -/
def Dev.tfirePred (d : Dev) (pos38 : Int) : Option Nat :=
  let dx := rel38 pos38 d.fire.cnt
  let v : Int := if d.fire.revDir then 0 else d.v20
  let disc := v * v + 2 * d.srd .FIRE_ACCEL_A * dx * 4
  if v ≤ 0 || disc < 0 then none
  else
    let s := v + isqrt disc.toNat
    some (d.fire.lastT + roundDiv (2 * dx * 1000000000 * 2 ^ 20) (2 ^ 38 * s.toNat)).toNat

/-- Position of line n of a placement on a head slot of a bar (06, R149), in 2^-38 counts, with the trim of its product. -/
def Dev.headPos (d : Dev) (p : Pl) (l : LineId) (slot : Nat) : Int := p.pos38 (d.barOfs l.bar + d.headOfs slot) l.line l.trim

/-- Bead of a head-line: q mod 64. -/
def Dev.headBead (d : Dev) (p : Pl) (l : LineId) (slot : Nat) : Nat :=
  ((p.q (d.barOfs l.bar + d.headOfs slot) l.line l.trim) % 64).toNat

/-- The due position of a line with the trim of its product. -/
def Dev.linePos (d : Dev) (p : Pl) (l : LineId) : Int := p.pos38 (d.barOfs l.bar) l.line l.trim

/-- Predicted fire time of a line on the bar itself, at its due position; none while the web is not predicted to reach it. -/
def Dev.dueTime (d : Dev) (p : Pl) (n bar : Nat) : Option Nat := d.tfirePred (d.duePos p n bar)

end Sys2Proof.Machine
end

