-- ==== Sys2Proof/Machine/Place.lean ====
section
/-! DEFINITION. Placement (06, R149 to R152, R163, R165, R423), due pointers, and the states of jobs that follow from them (02,
Table 2-14). -/
namespace Sys2Proof.Machine

/-! ### Due pointers (R150, R152) -/

/-- The first line of a placed job from line `n` on that is left to fire on a bar. -/
def Dev.keptFrom (d : Dev) (bar : Nat) (p : Pl) (n : Nat) : Option (Nat × Nat) :=
  let m := nextKept d.fire.dropped bar p.jn d.fire.dropped.length n
  if m < p.lines then some (p.jn, m) else none

/-- The first placed line at or after line n of a job that is left to fire on a bar, in placement order (R152). -/
def Dev.seek (d : Dev) (bar jn n : Nat) : Option (Nat × Nat) :=
  match d.placements.dropWhile (fun p => p.jn != jn) with
  | [] => none
  | p :: rest => (d.keptFrom bar p n).or (rest.findSome? (fun q => d.keptFrom bar q 0))

/-- A signed 10-bit trim after rescaling by p_old / p_new (R150). -/
def rescaleTrim (t : Int) (old new : Nat) : Int := clampInt (-512) 511 (roundDiv (t * old) new)

/-- The due pointer of a bar reaches the first line of a product: the trims are rescaled at a change of pitch, then `NEXT` is
copied to `CUR` by at most 32 beads, and VS is told (R150). -/
def Dev.trimCopy (d : Dev) (bar : Nat) (p : Pl) (pn : Nat) : Dev :=
  let old := Tab.at d.fire.barPitch bar
  let d :=
    if old = 0 || old = p.pitch then d
    else
      (d.wr .FIRE_TRIM_CUR (unsign 10 (rescaleTrim (d.trim bar) old p.pitch)) bar).wr .FIRE_TRIM_NEXT
        (unsign 10 (rescaleTrim (d.srd .FIRE_TRIM_NEXT bar) old p.pitch)) bar
  let cur := d.trim bar + clampInt (-32) 32 (d.srd .FIRE_TRIM_NEXT bar - d.trim bar)
  let d := d.wr .FIRE_TRIM_CUR (unsign 10 cur) bar
  { d with fire := { d.fire with barPitch := Tab.put d.fire.barPitch bar p.pitch }
           loops := { d.loops with trims := ((p.jn, pn, bar), cur) :: d.loops.trims.filter (fun t => t.1 != (p.jn, pn, bar)) } }

/-- Set the due pointer of a bar; at a product's first line the trim is copied. -/
def Dev.moveDue (d : Dev) (bar : Nat) (x : Option (Nat × Nat)) : Dev :=
  let d := d.setDue bar x
  match x with
  | some (jn, n) =>
    match d.plOf jn, (d.job jn).bind (·.rec?) with
    | some p, some r => if r.pitch != 0 && n % r.pitch = 0 then d.trimCopy bar p (r.firstPn + n / r.pitch) else d
    | _, _ => d
  | none => d

/-- Move every due pointer that stands on line `lo` or a later one of the job and below `hi` to line `hi`, or beyond the job. -/
def Dev.passLines (d : Dev) (jn lo hi : Nat) : Dev :=
  d.forEach d.bars (fun d b =>
    match d.due b.bar with
    | some (jn', n) => if jn' = jn && decide (lo ≤ n) && decide (n < hi) then d.moveDue b.bar (d.seek b.bar jn hi) else d
    | none => d)

/-! ### Placement entries -/

/-- Write the origin of an entry, in 2^-32 counts. -/
def Dev.wrOrigin (d : Dev) (e : Nat) (org : Int) : Dev :=
  let v := unsign 80 org
  ((d.wr .FIRE_PL_ORGF_FRAC v e).wr .FIRE_PL_ORGL_INT (v / 2 ^ 32) e).wr .FIRE_PL_ORGH_INT (v / 2 ^ 64) e

/-- p_J in 2^-32 counts (Table 6-2, R149). -/
def Dev.jobPitch (d : Dev) (lpi : Nat) : Nat :=
  match d.boot.content with
  | some c => (roundDiv (25400 * c.umDen * 2 ^ 32 : Nat) (lpi * c.umNum)).toNat
  | none => 0

/-- F in 2^-32 counts. -/
def Dev.f32 (d : Dev) : Int := d.fire.pos.toInt * 2 ^ 32

/-- F + `FIRE_GAP` in 2^-32 counts. -/
def Dev.leastOrigin (d : Dev) : Int := d.f32 + d.rd .FIRE_GAP_COUNTS * 2 ^ 32

/-- The end of the last placed job. -/
def Dev.prevEnd (d : Dev) : Option Int := d.placements.getLast?.map Pl.end'

/-- Put a LOADED job at the head of the LOADED jobs. -/
def Dev.jobFirst (d : Dev) (jn : Nat) : Dev :=
  { d with jobs := d.jobs.filter (fun j => j.jn = jn) ++ d.jobs.filter (fun j => j.jn != jn) }

/-- The LOADED jobs in queue order (02, R44). -/
def Dev.loaded (d : Dev) : List Job := d.jobs.filter (fun j => j.st = .loaded)

/-- Place a job: a free entry takes it, it joins the placement order, the bars with nothing due point to its line 0, and the
render front takes it up when it has nothing else; without a free entry it stays LOADED (R151). -/
def Dev.place (d : Dev) (jn : Nat) (org : Int) : Dev :=
  match d.freeEntry, (d.job jn).bind (·.rec?) with
  | some e, some r =>
    let pit := d.jobPitch r.lpi
    let d := ((d.wr .FIRE_PL_JN_JN jn e).wrOrigin e org).wr .FIRE_PL_PITF_FRAC pit e
    let d := ((d.wr .FIRE_PL_PITI_INT (pit / 2 ^ 32) e).wr .FIRE_PL_LINES_L r.lines e).wr .FIRE_PL_ORGH_VALID 1 e
    let d := { d with fire := { d.fire with order := d.fire.order ++ [e], skips := d.fire.skips.filter (fun x => x.2.1 != jn),
                                            dropped := d.fire.dropped.filter (fun x => x.2.1 != jn) } }
    let d := { d with rk := { d.rk with front := some (d.rk.front.getD (jn, 0)) } }
    let d := d.forEach d.bars (fun d b => if (d.due b.bar).isNone then d.moveDue b.bar (d.seek b.bar jn 0) else d)
    d.setJobSt jn .placed
  | _, _ => d

/-! ### The end of jobs (Table 2-14) -/

/-- The job is PLACED or ACTIVE. -/
def Job.onWeb (j : Job) : Bool := decide (j.st = .placed) || decide (j.st = .active)

/-- The render work of a job is given up, with its tiles, bands and, where `cache` says so, its caches: a job that returns to LOADED
keeps them (02, R49). The front passes to the next job that is still placed. -/
def Dev.purgeRender (d : Dev) (jn : Nat) (cache : Bool) : Dev :=
  let rk := d.rk
  let next := ((d.placements.dropWhile (fun p => p.jn != jn)).drop 1).filter (fun p => (d.job p.jn).any Job.onWeb)
  let drop := fun (id : ColId) => decide (id.jn = jn) && (cache || id.run.isNone)
  let front := match rk.front with
    | some (j, b) => if j = jn then next.head?.map (fun p => (p.jn, 0)) else some (j, b)
    | none => none
  let rk : Rk := { rk with front := front, ahead := rk.ahead.filter (fun x => x.1 != jn), finished := rk.finished.filter (· != jn),
                           committed := rk.committed.filter (· != jn),
                           starved := rk.starved.filter (fun x => x.1 != jn),
                           work := rk.work.filter (fun w => !drop w.id), tiles := rk.tiles.filter (fun t => !drop t.id),
                           wits := rk.wits.filter (fun w => !drop w.id), stuck := rk.stuck.filter (fun x => !drop x.1.id),
                           seeds := rk.seeds.filter (fun x => !drop x.1), handed := rk.handed.filter (fun b => b.jn != jn),
                           cache := rk.cache.filter (fun c => !(cache && decide (c.jn = jn))) }
  { d with rk := rk }

/-- Slots that the output stage is to retire unread. -/
def Rwy.giveUp (r : Rwy) (p : RSlot → Bool) : Rwy := { r with slots := r.slots.map (fun s => if p s then { s with gone := true } else s) }

/-- Everything rendered or held of a job is given up: work, tiles, bands, slots, which the output stage retires unread, output FIFOs, and
the caches where `cache` says so. -/
def Dev.purge (d : Dev) (jn : Nat) (cache : Bool := true) : Dev :=
  let d := d.purgeRender jn cache
  let keep := fun (b : Option DoseBand) => b.filter (fun x => x.jn != jn)
  let d := d.forEach (List.range 16) (fun d i =>
    (d.updDp i (fun p => { p with band := keep p.band })).updRw i (fun r => r.giveUp (fun s => decide (s.jn = jn))))
  d.forEach (List.range 64) (fun d n => d.updLane n (fun l => { l with fifo := l.fifo.filter (fun f => f.jn != jn) }))

/-- A job ends: reported with its account, its store freed; of those ended DONE or CANCELLED the last 16 are remembered (R45);
the render front passes it. -/
def Dev.endJob (d : Dev) (jn : Nat) (st : JobState) (reason : Nat := 0) : Dev :=
  let d := (d.updJob jn (fun j => { j with reason := reason })).setJobSt jn st
  let ended := match st with
    | .rejected => d.ended
    | _ => (jn :: d.ended).take 16
  let front := match d.rk.front with
    | some (j, b) => if j = jn then (d.placements.find? (fun p => p.jn != jn)).map (fun p => (p.jn, 0)) else some (j, b)
    | none => none
  { d with jobs := d.jobs.filter (fun j => j.jn != jn), ended := ended
           rk := { d.rk with front := front, finished := d.rk.finished.filter (· != jn), committed := d.rk.committed.filter (· != jn),
                             cache := d.rk.cache.filter (fun c => c.jn != jn) } }

/-- A placed job is DONE, or an aborted one CANCELLED, when its entry is free, every echo tally has been compared and every product of it
in the table is closed (08, R218); in HOLD a job is closed on resume (R163). -/
def Dev.maybeDone (d : Dev) (jn : Nat) : Dev :=
  match d.job jn with
  | some j =>
    let tallies := d.integ.tally.any (fun e => e.2.any (fun t => t.jn = jn)) || d.integ.prods.any (fun p => decide (p.jn = jn) && !p.isClosed)
    if (j.st = .placed || j.st = .active) && (d.plOf jn).isNone && !tallies then
      if j.aborted then d.endJob jn .cancelled else if d.st = .hold then d else d.endJob jn .done
    else d
  | none => d

/-- No bar's due pointer can reach a line of the placement any more: it has passed the placement, or it stands before it and no line
of it is left (R165). -/
def Dev.unreachable (d : Dev) (p : Pl) : Bool :=
  d.bars.all (fun b =>
    match d.due b.bar with
    | none => true
    | some (jn, _) => (d.placements.takeWhile (fun q => q.jn != jn)).any (fun q => q.jn = p.jn)
        || (decide (jn ≠ p.jn) && (d.keptFrom b.bar p 0).isNone))

/-- R165: free the entries that nothing can fire from any more. -/
def Dev.freeEntries (d : Dev) : Dev :=
  let d := d.retireSent
  d.forEach d.placements (fun d p =>
    if d.unreachable p && !d.fire.sent.any (fun l => l.jn = p.jn) && !d.fire.again.any (fun l => l.jn = p.jn) then
      let d := d.wr .FIRE_PL_ORGH_VALID 0 p.e
      Dev.maybeDone { d with fire := { d.fire with order := d.fire.order.filter (· != p.e),
                                                   dropped := d.fire.dropped.filter (fun x => x.2.1 != p.jn) } } p.jn
    else d)

/-- The bars' lines of a job from `lo` on and below `hi` pass unfired: lines waiting to be sent again, and due pointers, those that
stand on them now as well as those that would reach them later. -/
def Dev.dropLines (d : Dev) (jn lo hi : Nat) : Dev :=
  let d := { d with fire := { d.fire with again := d.fire.again.filter (fun l => !(l.jn = jn && decide (lo ≤ l.line) && decide (l.line < hi))),
                                          dropped := d.fire.dropped ++ [(255, jn, lo, hi)] } }
  (d.passLines jn lo hi).freeEntries

/-- Count the products of a job from product index `n` on as not printed (08, Table 8-7). -/
def Dev.notPrinted (d : Dev) (jn n : Nat) : Dev :=
  match (d.job jn).bind (·.rec?) with
  | some r => d.updAccount jn (fun a => { a with notPrinted := max a.notPrinted (r.products - n) })
  | none => d

/-- R423: lower L of a placed job to a product boundary not before the first product not started on bar 0; a write that breaks
this is ignored. Lines from it on are neither named nor due: those in the output FIFOs leave them, and slots of nothing else are retired
unread. -/
def Dev.lowerLines (d : Dev) (e lines : Nat) : Dev :=
  match d.pl e with
  | none => d
  | some p =>
    match d.job p.jn with
    | none => d
    | some j =>
      match j.rec? with
      | none => d
      | some r =>
        if r.pitch = 0 || lines % r.pitch != 0 || decide (p.lines ≤ lines) || decide (lines < j.started * r.pitch) then d
        else
          let d := d.wr .FIRE_PL_LINES_L lines e
          let d := (d.updJob p.jn (fun j => { j with limit := some (min (lines / r.pitch) (j.limit.getD (lines / r.pitch))) })).notPrinted p.jn (lines / r.pitch)
          let d := d.forEach (List.range 16) (fun d i =>
            d.updRw i (fun w => w.giveUp (fun s => decide (s.jn = p.jn) && decide (lines ≤ s.line))))
          let d := d.forEach (List.range 64) (fun d n =>
            d.updLane n (fun l => { l with fifo := l.fifo.filter (fun f => !(decide (f.jn = p.jn) && decide (lines ≤ f.line))) }))
          d.dropLines p.jn lines (2 ^ 32)

/-- The bands of a job posted and not handed over that begin at line `lines` or beyond are given up; the job's rendering is finished
where none is left and the front has passed it. -/
def Dev.cutFront (d : Dev) (jn lines : Nat) : Dev :=
  let beyond := fun (id : ColId) => decide (id.jn = jn) && id.run.isNone && decide (lines ≤ 16 * id.band)
  let ahead := d.rk.ahead.filter (fun x => !(decide (x.1 = jn) && decide (lines ≤ 16 * x.2)))
  let passed := d.rk.front.all (fun f => f.1 != jn) && d.rk.ahead.any (fun x => x.1 = jn) && !ahead.any (fun x => x.1 = jn)
  { d with rk := { d.rk with ahead := ahead, finished := if passed && !d.rk.finished.elem jn then d.rk.finished ++ [jn] else d.rk.finished,
                             work := d.rk.work.filter (fun w => !beyond w.id), tiles := d.rk.tiles.filter (fun t => !beyond t.id),
                             wits := d.rk.wits.filter (fun w => !beyond w.id), stuck := d.rk.stuck.filter (fun x => !beyond x.1.id),
                             seeds := d.rk.seeds.filter (fun x => !beyond x.1) } }

/-- SV1 ends a job's placement after `n` products, and nothing is rendered beyond them. -/
def Dev.endAfter (d : Dev) (jn n : Nat) : Dev :=
  let d := d.updJob jn (fun j => { j with limit := some (min n (j.limit.getD n)) })
  let d := d.cutFront jn (n * d.pitchOf jn)
  match d.plOf jn with
  | some p => d.lowerLines p.e (n * d.pitchOf jn)
  | none => d.notPrinted jn n

end Sys2Proof.Machine
end

