-- ==== Sys2Proof/Machine/Jobs.lean ====
section
/-! DEFINITION. The job queue (02, R44 to R51, R424): start, commitment, automatic placement, cancel, STOP, and the early end of
a placement (R423). -/
namespace Sys2Proof.Machine

/-! ### Start and placement -/

/-- An origin in 2^-32 counts as its distance from F: positions are compared by their signed difference modulo 2^48 counts (06, R133). -/
def Dev.fromF (d : Dev) (x : Int) : Int := (x - d.fire.pos.toNat * 2 ^ 32 + 2 ^ 79) % 2 ^ 80 - 2 ^ 79

/-- The later of two origins. -/
def Dev.later (d : Dev) (x y : Int) : Int := if d.fromF x < d.fromF y then y else x

/-- The origin that a start command gives: the one named, refused when it lies below F + `FIRE_GAP` or before the end of the
last placed job; or the earliest such one (R151; 14, Table 14-3). -/
def Dev.startOrigin (d : Dev) (mode : Nat) (origin : Int) : Option Int :=
  let least := d.later d.leastOrigin (d.prevEnd.getD d.leastOrigin)
  if mode = 1 then some least
  else if mode = 0 && decide (d.fromF least ≤ d.fromF origin) then some origin
  else none

/-- `CHAIN_RESERVE` in lines (02, R50). -/
def Dev.chainReserve (d : Dev) : Nat := (d.boot.content.map (·.chainReserve)).getD Config.chainReserveDefault

/-- F + `RW_LEADREQ` + `CHAIN_RESERVE` · p in 2^-32 counts. -/
def Dev.reserveOrigin (d : Dev) (pitch : Nat) : Int :=
  d.f32 + d.rd .RW_LEADREQ_COUNTS * 2 ^ 32 + d.chainReserve * pitch

/-- The head of the LOADED jobs, when it has `CHAIN` 1 and automatic placement is not suppressed (R424). -/
def Dev.chainHead (d : Dev) : Option (Nat × JobRec) :=
  if d.suppressAuto then none
  else
    match d.loaded with
    | j :: _ =>
      match j.rec? with
      | some r => if r.chain then some (j.jn, r) else none
      | none => none
    | [] => none

/-- Automatic placement (R51): at the third origin of R151, while a placement entry is free. -/
def Dev.autoPlace (d : Dev) : Dev :=
  match d.chainHead with
  | some (jn, r) =>
    if d.freeEntry.isNone then d
    else
      let o := d.later d.leastOrigin (d.reserveOrigin (d.jobPitch r.lpi))
      d.place jn (d.later o (d.prevEnd.getD o))
  | none => d

/-- The last placed job and whether it is past its commitment point. -/
def Dev.lastPlaced (d : Dev) : Option Pl := d.placements.getLast?

/-- The commitment point of the last placed job (R50). -/
def Dev.commit (d : Dev) : Dev :=
  match d.lastPlaced with
  | none => d
  | some p =>
    if d.rk.committed.elem p.jn then d
    else
      let mark := fun (d : Dev) => { d with rk := { d.rk with committed := p.jn :: d.rk.committed } }
      match d.chainHead, d.freeEntry with
      | some (jn, _), some _ =>
        if d.rk.finished.elem p.jn then (mark d).place jn p.end'
        else if d.fromF p.end' ≤ d.fromF (d.reserveOrigin p.pitch) then (mark d).autoPlace
        else d
      | _, _ => if d.fromF p.end' ≤ d.fromF (d.reserveOrigin p.pitch) then mark d else d

/-- COMMITMENT_POINT (R50). -/
def execCommitmentPoint (s : State) : Out := s.act fun d => if d.st.idleToHold then d.commit else d

/-- AUTO_PLACEMENT (R51): with no predecessor before its commitment point. The device state stays: Table 1-9 has a row for it in
DRAINING only, which bar 0's progress takes; a job placed in IDLE waits there for a START (DESIGN CHOICE, assumption 48). -/
def execAutoPlacement (s : State) : Out :=
  s.act fun d =>
    let open' := match d.lastPlaced with
      | some p => !d.rk.committed.elem p.jn
      | none => false
    if d.st.idleToHold && !open' then d.autoPlace else d

/-- PLACEMENT_LINES_LOWER (R423): SV1's write of `FIRE_PL_LINES`. -/
def execPlacementLinesLower (lvl : Lvl) (e : Fin 4) (lines : U32) (s : State) : Out :=
  s.act (·.ownWriteP lvl (0x600418 + 0x20 * e.val) (·.lowerLines e lines.toNat))

/-! ### Early ends -/

/-- Render no further product and end the placement after the last one rendered (R40, cancel FINISH), or, where bar 0 has started a
product whose last bands are not rendered yet, after that one, as R423 asks. -/
def Dev.finishJob (d : Dev) (jn : Nat) : Dev :=
  d.endAfter jn (((d.job jn).map (fun j => max j.rendered j.started)).getD 0)

/-- `END` fails its check on a PLACED or ACTIVE job (R40): with nothing rendered of a PLACED job it is DONE at once. -/
def Dev.endFailed (d : Dev) (jn seq : Nat) : Dev :=
  let d := d.raise Ev.JOB_INCONSISTENT (le 4 jn ++ le 4 seq)
  match d.job jn with
  | some j =>
    if j.st = .placed && j.rendered = 0 then
      let d := (d.endAfter jn 0).purge jn
      if (d.job jn).isSome then d.endJob jn .done else d
    else d.finishJob jn
  | none => d

/-- Order a skip of a whole job on every pipeline (05, R129). -/
def Dev.skipJob (d : Dev) (jn : Nat) : Dev :=
  let d := { d with fire := { d.fire with skips := d.fire.skips ++ d.pipes.map (fun i => (i, jn, 0xFFFFFFFF)) } }
  d.forEach d.pipes Dev.loadSkip

/-- The spoils held for products of a job that bar 0 never starts are dropped with them. -/
def Dev.dropHeld (d : Dev) (jn : Nat) : Dev :=
  { d with integ := { d.integ with heldSpoils := d.integ.heldSpoils.filter (fun h => h.jn != jn) } }

/-- Cancel ABORT of an ACTIVE job: each bar stops it at its line boundary (06, R161), its products in flight are spoiled, its
slots are discarded; it is CANCELLED once its products already fired are closed (08, R218). -/
def Dev.abortJob (d : Dev) (jn started : Nat) : Dev :=
  let d := d.retireSent
  let d := d.forEach (d.fire.sent.filter (fun l => l.jn = jn)) (fun d l =>
    if d.canArrive l (l.heads.map (·.tfire)) then d.withdraw l else d)
  let d := d.spoilInFlight .operator (some jn)
  let d := (d.notPrinted jn started).purge jn
  let d := d.updJob jn (fun j => { j with aborted := true, limit := some 0 })
  (((d.skipJob jn).dropLines jn 0 (2 ^ 32)).dropHeld jn).maybeDone jn

/-- JOB_CANCEL of a held job (Table 2-14). -/
def Dev.cancelJob (d : Dev) (jn : Nat) (abort : Bool) : Dev :=
  match d.job jn with
  | none => d
  | some j =>
    match j.st with
    | .loaded => ((d.notPrinted jn 0).purge jn).endJob jn .cancelled
    | .placed =>
      let d := ((d.notPrinted jn 0).purge jn).endJob jn .cancelled
      ((d.skipJob jn).dropLines jn 0 (2 ^ 32)).dropHeld jn
    | .active => if abort then d.abortJob jn j.started else d.finishJob jn
    | _ => d

/-- An accepted STOP acts on the queue (R424): the ACTIVE jobs end after the last product started on bar 0, PLACED jobs return
to LOADED ahead of the others, automatic placement is suppressed. -/
def Dev.stopQueue (d : Dev) : Dev :=
  let active := d.placements.filter (fun p => (d.job p.jn).any (fun j => j.st = .active))
  let placed := d.placements.filter (fun p => (d.job p.jn).any (fun j => j.st = .placed))
  let d := { d with suppressAuto := true }
  let d := d.forEach active (fun d p => d.endAfter p.jn ((d.job p.jn).map (·.started) |>.getD 0))
  let d := d.forEach placed.reverse (fun d p =>
    ((d.updJob p.jn (fun j => { j with st := .loaded, rendered := 0 })).jobFirst p.jn).purge p.jn false)
  let d := d.forEach placed (fun d p => ((d.skipJob p.jn).dropLines p.jn 0 (2 ^ 32)).dropHeld p.jn)
  d.forEach placed (fun d p => d.sendJobStatus p.jn)

/-! ### Resume (06, R163) -/

/-- The first product not started on bar 0: the first placement with one, and that product's first line. -/
def Dev.firstUnstarted (d : Dev) : Option (Pl × Nat) :=
  (d.placements.filterMap (fun p =>
    match d.job p.jn with
    | some j =>
      let n := d.startedOf p.jn * d.pitchOf p.jn
      if j.onWeb && !j.aborted && decide (n < p.lines) then some (p, n) else none
    | none => none)).head?

/-- Products of a job that are placed again move with it: their positions on bar 0 follow (08, R202). -/
def Dev.shiftProds (d : Dev) (jn : Nat) (by38 : Int) : Dev :=
  let move := fun (p : Prod) =>
    if p.jn = jn ∧ p.fired = false ∧ p.spoil = false then { p with from38 := p.from38 + by38, to38 := p.to38 + by38 } else p
  { d with integ := { d.integ with prods := d.integ.prods.map move } }

/-- Re-placement: jobs from J on move by the least amount that puts the product at or beyond F + `FIRE_GAP`; jobs with nothing
left are closed. Answers whether a product remains. -/
def Dev.rePlace (d : Dev) : Dev × Bool :=
  match d.firstUnstarted with
  | some (p, n) =>
    let ahead := rel38 (d.duePos p n 0) d.fire.pos - d.rd .FIRE_GAP_COUNTS * 2 ^ 38
    let delta := max 0 (-(ahead / 64))
    let moved := d.placements.dropWhile (fun q => q.jn != p.jn)
    let d := d.forEach moved (fun d q => (d.wrOrigin q.e (q.org + delta)).shiftProds q.jn (delta * 64))
    (d, true)
  | none => (d, false)

/-- Jobs whose placement has ended are closed. -/
def Dev.closeJobs (d : Dev) : Dev := d.forEach d.jobs (fun d j => d.maybeDone j.jn)

end Sys2Proof.Machine
end

