-- ==== Sys2Proof/Machine/AhnusRec.lean ====
section
/-! DEFINITION. The records of an Ahnus container read from their bytes (02, Tables 2-1 to 2-9, "Images and glyphs", "Variable
data", "End record"): each reader answers none where a field lies outside its range or the payload ends before its fields. -/
namespace Sys2Proof.Machine

/-- Record types (02, Table 2-2). -/
inductive RecType where
  | job | palette | sep | image | tile | glyphs | layer | run | product | endRec
  deriving DecidableEq, Repr

/-- `TYPE` codes. -/
def RecType.code : RecType → Nat
  | .job => 1 | .palette => 2 | .sep => 3 | .image => 4 | .tile => 5 | .glyphs => 6 | .layer => 7 | .run => 8
  | .product => 9 | .endRec => 15

/-- The type that a code names. -/
def recTypeOf : Nat → Option RecType
  | 1 => some .job | 2 => some .palette | 3 => some .sep | 4 => some .image | 5 => some .tile | 6 => some .glyphs
  | 7 => some .layer | 8 => some .run | 9 => some .product | 15 => some .endRec
  | _ => none

/-- Bytes of an operand padded to a multiple of 4. -/
def pad4 (n : Nat) : Nat := (n + 3) / 4 * 4

/-- `n` two-byte numbers. -/
def words16 : Nat → List Byte → List Nat
  | 0, _ => []
  | n + 1, bs => fieldAt bs 0 2 :: words16 n (bs.drop 2)

/-- `x` where the condition holds. -/
def when? {α : Type} (c : Bool) (x : α) : Option α := if c then some x else none

/-- `JOB` (02, Table 2-3): the fields and the ranges that need no configuration. Table 2-3 gives `PRELOAD` no range of its own; a
`PRELOAD` above `PRODUCTS`, which no job can meet, is taken as out of range (DESIGN CHOICE, assumption 41). -/
def readJob (p : List Byte) : Option JobRec :=
  let r : JobRec :=
    { firstPn := fieldAt p 4 4, products := fieldAt p 8 4, preload := fieldAt p 12 4, lpi := fieldAt p 16 2
      planes := fieldAt p 18 1, chain := bitOf (fieldAt p 19 1) 0, prodLines := fieldAt p 20 4, brimLines := fieldAt p 24 2
      width := fieldAt p 28 4, x0 := fieldAt p 32 4, barMap := (List.range 16).map (fun k => fieldAt p (36 + k) 1)
      curveSet := fieldAt p 52 1, screenSet := fieldAt p 53 1, runs := fieldAt p 56 4, name := (p.drop 60).take 32 }
  when? (decide (92 ≤ p.length) && decide (fieldAt p 0 2 = 1) && decide (fieldAt p 2 2 = 0)
    && decide (1 ≤ r.products) && decide (r.products ≤ 0xFFFFFFFF - r.firstPn + 1) && decide (r.preload ≤ r.products)
    && decide (1 ≤ r.planes) && decide (r.planes ≤ 16) && decide (64 ≤ r.prodLines) && decide (r.prodLines ≤ 262143)
    && decide (192 ≤ r.brimLines) && decide (r.brimLines ≤ 8191)
    && decide (r.products * (r.prodLines + r.brimLines) ≤ 4294967280) && decide (1 ≤ r.runs) && decide (r.runs ≤ 65536)) r

/-- `PALETTE` (02, Table 2-4): its entry count and all values that follow. -/
def readPalette (p : List Byte) : Option (Nat × List Nat) :=
  let vs := words16 ((p.length - 4) / 2) (p.drop 4)
  when? (decide (4 ≤ p.length) && decide (1 ≤ fieldAt p 0 2) && vs.all (fun v => decide (v ≤ 4095))) (fieldAt p 0 2, vs)

/-- `SEP` (02, Table 2-5). -/
def readSep (p : List Byte) : Option SepRec :=
  let s : SepRec := { id := fieldAt p 0 1, inputs := fieldAt p 1 1, grid := fieldAt p 2 1, out := fieldAt p 4 2, table := [] }
  if decide (8 ≤ p.length) && decide (s.id ≤ 7) && decide (1 ≤ s.inputs) && decide (s.inputs ≤ 4)
      && (decide (s.grid = 9) || decide (s.grid = 17) || (decide (s.grid = 33) && decide (s.inputs ≤ 3))) then
    let n := s.grid ^ s.inputs * popcount 16 s.out
    let t := words16 n (p.drop 8)
    when? (decide (8 + 2 * n ≤ p.length) && t.all (fun v => decide (v ≤ 4095))) { s with table := t }
  else none

/-- `IMAGE` (02, "Images and glyphs"). -/
def readImage (p : List Byte) : Option ImageRec :=
  let i : ImageRec :=
    { id := fieldAt p 0 4, width := fieldAt p 4 2, height := fieldAt p 8 4, channels := fieldAt p 12 1, bits := fieldAt p 13 1
      sep := fieldAt p 14 1 }
  when? (decide (16 ≤ p.length) && decide (1 ≤ i.width) && decide (i.width ≤ 32768) && decide (1 ≤ i.height)
    && (decide (i.bits = 8) || decide (i.bits = 16)) && (decide (i.sep ≤ 7) || decide (i.sep = 0xFF))
    && decide (1 ≤ i.channels) && (decide (i.sep = 0xFF) || decide (i.channels ≤ 4))) i

/-- Byte-run decoding (02, `COMP` 1) of at most `left` bytes, in the order decoded; `fuel` bounds the control bytes. -/
def runDecode : Nat → Nat → List Byte → List Byte
  | 0, _, _ => []
  | fuel + 1, left, bs =>
    match left, bs with
    | 0, _ => []
    | _, [] => []
    | left, c :: t =>
      if c.toNat < 128 then t.take (min left (c.toNat + 1)) ++ runDecode fuel (left - (c.toNat + 1)) (t.drop (c.toNat + 1))
      else
        match t with
        | [] => []
        | b :: t => List.replicate (min left (c.toNat - 125)) b ++ runDecode fuel (left - (c.toNat - 125)) t

/-- `TILE` (02, "Images and glyphs") with its samples decoded. -/
def readTile (p : List Byte) : Option ImageTile :=
  let comp := fieldAt p 8 1
  let n := fieldAt p 12 4
  let data := p.drop 16
  let raw := if comp = 0 then data.take n else runDecode data.length n data
  when? (decide (16 ≤ p.length) && decide (comp ≤ 1) && decide (raw.length = n))
    { image := fieldAt p 0 4, tx := fieldAt p 4 2, ty := fieldAt p 6 2, raw := raw }

/-- `n` glyphs of a set. -/
def readGlyphList : Nat → List Byte → Option (List Glyph)
  | 0, _ => some []
  | n + 1, p =>
    let w := fieldAt p 4 2
    let h := fieldAt p 6 2
    let g : Glyph := { code := fieldAt p 0 4, width := w, height := h, left := signed 16 (fieldAt p 8 2),
                       base := signed 16 (fieldAt p 10 2), advance := fieldAt p 12 2, bitmap := (p.drop 16).take (w * h) }
    if p.length < 16 + w * h then none
    else (readGlyphList n (p.drop (16 + pad4 (w * h)))).map (fun t => g :: t)

/-- `GLYPHS`. -/
def readGlyphs (p : List Byte) : Option GlyphSet :=
  if p.length < 4 then none
  else (readGlyphList (fieldAt p 2 2) (p.drop 4)).map (fun gs => { id := fieldAt p 0 2, glyphs := gs })

/-! ### Display lists (02, Table 2-9) -/

/-- `n` spans. -/
def readSpans : Nat → List Byte → List Span
  | 0, _ => []
  | n + 1, p =>
    { sx := fieldAt p 0 2, ex := fieldAt p 2 2, ca := fieldAt p 4 1, cb := fieldAt p 5 1 } :: readSpans n (p.drop 6)

/-- The lines of a `SPANS` primitive, with the bytes they take. -/
def readSpanLines : Nat → List Byte → Option (List (List Span) × Nat)
  | 0, _ => some ([], 0)
  | n + 1, p =>
    let k := 2 + 6 * fieldAt p 0 2
    if p.length < k then none
    else (readSpanLines n (p.drop k)).map (fun x => (readSpans (fieldAt p 0 2) (p.drop 2) :: x.1, k + x.2))

/-- A primitive and its length in bytes; `BLEND` above 3 and undefined `OP` values have none. -/
def readPrim (p : List Byte) : Option (Prim × Nat) :=
  let op := fieldAt p 0 1
  let bl := fieldAt p 1 1 % 8
  let arg := fieldAt p 2 2
  let sized := fun (n : Nat) (x : Prim) => when? (decide (n ≤ p.length)) (x, n)
  if p.length < 4 || 3 < bl then none
  else
    match op with
    | 1 => sized 16 (.rect bl arg (fieldAt p 4 2) (fieldAt p 6 2) (fieldAt p 8 4) (fieldAt p 12 4))
    | 2 =>
      if p.length < 12 then none
      else (readSpanLines (fieldAt p 8 4) (p.drop 12)).map (fun x => (.spans bl arg (fieldAt p 4 4) x.1, pad4 (12 + x.2)))
    | 3 => sized 16 (.image bl (fieldAt p 4 4) (fieldAt p 8 2) (fieldAt p 12 4))
    | 4 => sized 16 (.textSlot bl arg (fieldAt p 4 2) (fieldAt p 6 2) (fieldAt p 8 2) (fieldAt p 12 4))
    | 5 => sized 12 (.imageSlot bl arg (fieldAt p 4 2) (fieldAt p 8 4))
    | 6 => sized 16 (.codeSlot bl arg (fieldAt p 4 2) (fieldAt p 6 2) (fieldAt p 8 4) (fieldAt p 12 2) (fieldAt p 14 2))
    | 7 => sized 16 (.clipPush (fieldAt p 4 2) (fieldAt p 6 2) (fieldAt p 8 4) (fieldAt p 12 4))
    | 8 => sized 4 .clipPop
    | _ => none

/-- `n` primitives. -/
def readPrims : Nat → List Byte → Option (List Prim)
  | 0, _ => some []
  | n + 1, p =>
    match readPrim p with
    | none => none
    | some (x, k) => (readPrims n (p.drop k)).map (fun t => x :: t)

/-- A slot primitive. -/
def Prim.isSlot : Prim → Bool
  | .textSlot .. | .imageSlot .. | .codeSlot .. => true
  | _ => false

/-- R35: the clip stack never exceeds 8 rectangles nor is popped while empty. -/
def clipOk : Nat → List Prim → Bool
  | _, [] => true
  | depth, .clipPush .. :: t => decide (depth < 8) && clipOk (depth + 1) t
  | depth, .clipPop :: t => decide (0 < depth) && clipOk (depth - 1) t
  | depth, _ :: t => clipOk depth t

/-- `LAYER` (02, Table 2-8, R34, R35). -/
def readLayer (p : List Byte) : Option Layer :=
  match readPrims (fieldAt p 24 4) (p.drop 28) with
  | none => none
  | some ps =>
    let var := decide (fieldAt p 4 1 = 1)
    when? (decide (28 ≤ p.length) && decide (fieldAt p 4 1 ≤ 1) && decide (ps.any Prim.isSlot = var) && clipOk 0 ps)
      { id := fieldAt p 0 4, varying := var, lx0 := fieldAt p 8 2, lx1 := fieldAt p 10 2, ly0 := fieldAt p 12 4
        ly1 := fieldAt p 16 4, cost := fieldAt p 20 4, prims := ps }

/-! ### Runs, products, end -/

/-- `n` entries of a slot table (02, Table 2-7). -/
def readSlots : Nat → List Byte → List SlotEnt
  | 0, _ => []
  | n + 1, p =>
    { id := fieldAt p 0 1, type := fieldAt p 1 1, sx0 := fieldAt p 2 2, sx1 := fieldAt p 4 2, sy0 := fieldAt p 8 4
      sy1 := fieldAt p 12 4 } :: readSlots n (p.drop 16)

/-- `n` four-byte numbers. -/
def words32 : Nat → List Byte → List Nat
  | 0, _ => []
  | n + 1, bs => fieldAt bs 0 4 :: words32 n (bs.drop 4)

/-- No number occurs twice. -/
def distinct : List Nat → Bool
  | [] => true
  | x :: t => !t.elem x && distinct t

/-- `RUN` (02, Table 2-6). -/
def readRun (p : List Byte) : Option RunRec :=
  let ls := fieldAt p 13 1
  let ss := fieldAt p 14 1
  let slots := readSlots ss (p.drop (16 + 4 * ls))
  when? (decide (16 + 4 * ls + 16 * ss ≤ p.length) && decide (1 ≤ fieldAt p 8 4) && decide (fieldAt p 12 1 ≤ 1)
    && decide (1 ≤ ls) && decide (ls ≤ 32) && decide (ss ≤ 64)
    && slots.all (fun s => decide (s.id ≤ 63) && decide (s.type ≤ 3)) && distinct (slots.map (·.id)))
    { idx := fieldAt p 0 4, pn := fieldAt p 4 4, count := fieldAt p 8 4, cached := decide (fieldAt p 12 1 = 1)
      layers := words32 ls (p.drop 16), slots := slots }

/-- `n` values of a product. -/
def readVals : Nat → List Byte → Option (List SlotVal)
  | 0, _ => some []
  | n + 1, p =>
    let len := fieldAt p 2 2
    if p.length < 4 + len then none
    else (readVals n (p.drop (4 + pad4 len))).map
      (fun t => { id := fieldAt p 0 1, type := fieldAt p 1 1, bytes := (p.drop 4).take len } :: t)

/-- `PRODUCT` (02, "Variable data"). -/
def readProduct (p : List Byte) : Option ProdRec :=
  if p.length < 12 then none
  else (readVals (fieldAt p 8 1) (p.drop 12)).map (fun vs => { pn := fieldAt p 0 4, run := fieldAt p 4 4, vals := vs })

/-- A whole record as it arrived: its header fields, payload and `CRC` (02, Table 2-1). -/
structure RawRec where
  type : RecType
  jn : Nat
  seq : Nat
  crc : Nat
  len : Nat
  payload : List Byte
  deriving DecidableEq, Repr

/-- R27: the `CRC` is checked first, then `VER`, `LEN` and `TYPE` are defined ones. -/
def readRecord (bs : List Byte) : Option RawRec :=
  let len := fieldAt bs 4 4
  if bs.length != 20 + len || (crc32c (bs.take (16 + len))).toNat != fieldAt bs (16 + len) 4 then none
  else if fieldAt bs 2 1 != 1 || len % 4 != 0 || 67108864 < len then none
  else
    (recTypeOf (fieldAt bs 0 2)).map (fun t =>
      { type := t, jn := fieldAt bs 8 4, seq := fieldAt bs 12 4, crc := fieldAt bs (16 + len) 4, len := bs.length
        payload := (bs.drop 16).take len })

/-! ### Held jobs -/

/-- N of a bar: its printable positions (04, R81). -/
def barPrintable (b : BarGeom) : Nat := b.heads * 4096 - (b.heads - 1) * b.cuff

/-- Layers of a run, bottom first. -/
def Job.layersOf (j : Job) (r : RunRec) : List Layer := r.layers.filterMap (fun id => j.layers.find? (fun l => l.id = id))

/-- Layers of a run that its cache holds: those below the lowest variable layer (R47). -/
def Job.staticLayers (j : Job) (r : RunRec) : List Layer := (j.layersOf r).takeWhile (fun l => !l.varying)

/-- Layers that are composed for every product: with a cache those from the lowest variable layer upward. -/
def Job.liveLayers (j : Job) (r : RunRec) (cached : Bool) : List Layer :=
  if cached then (j.layersOf r).dropWhile (fun l => !l.varying) else j.layersOf r

/-- The run of a job line's product. -/
def Job.runAt (j : Job) (r : JobRec) (n : Nat) : Option RunRec :=
  j.runs.find? (fun u => decide (u.pn ≤ r.firstPn + n / r.pitch) && decide (r.firstPn + n / r.pitch < u.pn + u.count))

end Sys2Proof.Machine
end

