-- ==== Sys2Proof/Machine/Render.lean ====
section
/-! DEFINITION. What rendering computes (02, R35 to R39, R47; 03, R58 to R66): the correct sample of a job at a plane, a job line
and a pixel, which every Reckoner produces (R56). -/
namespace Sys2Proof.Machine

/-! ### Blending (R64, Table 3-4) -/

/-- `OVER` and `KNOCKOUT`. -/
def blendOver (s d a : Nat) : Nat := (s * a + d * (255 - a) + 127) / 255

/-- The result of a blend mode for one plane. -/
def blend (mode s d a : Nat) : Nat :=
  match mode with
  | 1 => min 4095 (d + (a * (s - (s * d + 2047) / 4095) + 127) / 255)
  | 3 => if s = 0 then d else blendOver s d a
  | _ => blendOver s d a

/-! ### Separation (R36, R65) -/

/-- R36: an 8-bit sample as 12 bits. -/
def widen8 (v : Nat) : Nat := (v * 4095 + 127) / 255

/-- Rank of a plane among those set in `OUT`. -/
def planeRank (out plane : Nat) : Nat := popcount plane out

/-- The grid node of cell indices `is` for an output plane. -/
def SepRec.node (s : SepRec) (rank : Nat) (is : List Nat) : Nat :=
  nth s.table ((is.reverse.foldl (fun acc i => acc * s.grid + i) 0) * popcount 16 s.out + rank)

/-- The indices one step further along channel k. -/
def stepAlong (is : List Nat) (k : Nat) : List Nat := is.set k (nth is k + 1)

/-- Insert a channel before the first one with a smaller fraction. -/
def insertFrac (rs : List Nat) (k : Nat) : List Nat → List Nat
  | [] => [k]
  | m :: t => if nth rs m < nth rs k then k :: m :: t else m :: insertFrac rs k t

/-- Channels 0 to 2 by falling fraction, equal ones by ascending number. -/
def sortFracs (rs : List Nat) : List Nat := [0, 1, 2].foldl (fun acc k => insertFrac rs k acc) []

/-- The tetrahedral sum over channels 0 to 2. -/
def SepRec.tetra (s : SepRec) (rank : Nat) (is rs : List Nat) : Nat :=
  let o := sortFracs rs
  let a := nth o 0
  let b := nth o 1
  let c := nth o 2
  let ia := stepAlong is a
  let iab := stepAlong ia b
  s.node rank is * (4095 - nth rs a) + s.node rank ia * (nth rs a - nth rs b) + s.node rank iab * (nth rs b - nth rs c)
    + s.node rank (stepAlong iab c) * nth rs c

/-- A `SEP` table's value of one plane for the source values `vs` (R65); 0 for a plane not in `OUT`. -/
def SepRec.value (s : SepRec) (plane : Nat) (vs : List Nat) : Nat :=
  let g := s.grid
  let is := vs.map (fun v => min (g - 2) (v * (g - 1) / 4095))
  let rs := (vs.zip is).map (fun x => x.1 * (g - 1) - 4095 * x.2)
  let rank := planeRank s.out plane
  let n := s.node rank
  if !bitOf s.out plane then 0
  else
    match s.inputs with
    | 1 => (n is * (4095 - nth rs 0) + n (stepAlong is 0) * nth rs 0 + 2047) / 4095
    | 2 =>
      let r0 := nth rs 0
      let r1 := nth rs 1
      (n is * ((4095 - r0) * (4095 - r1)) + n (stepAlong is 0) * (r0 * (4095 - r1)) + n (stepAlong is 1) * ((4095 - r0) * r1)
        + n (stepAlong (stepAlong is 0) 1) * (r0 * r1) + 8384512) / 16769025
    | 3 => (s.tetra rank is rs + 2047) / 4095
    | _ => (s.tetra rank is rs * (4095 - nth rs 3) + s.tetra rank (stepAlong is 3) rs * nth rs 3 + 8384512) / 16769025

/-! ### Images -/

/-- Source channel c of image pixel (x, y), as 12 bits (R36). -/
def Job.imageSample (j : Job) (i : ImageRec) (x y c : Nat) : Nat :=
  match j.tiles.find? (fun t => decide (t.image = i.id) && decide (t.tx = x / 256) && decide (t.ty = y / 256)) with
  | none => 0
  | some t =>
    let k := ((y % 256) * min 256 (i.width - 256 * (x / 256)) + x % 256) * i.channels + c
    if i.bits = 8 then widen8 (fieldAt t.raw k 1) else fieldAt t.raw (2 * k) 2 % 4096

/-- s of an image pixel for a plane: separated, or the plane value directly. -/
def Job.imagePlane (j : Job) (i : ImageRec) (plane x y : Nat) : Nat :=
  if i.sep = 0xFF then j.imageSample i x y plane
  else
    match j.seps.find? (fun s => s.id = i.sep) with
    | some s => s.value plane ((List.range i.channels).map (j.imageSample i x y))
    | none => 0

/-! ### Text -/

/-- The continuation bytes that follow the lead byte `n` of a UTF-8 sequence; none for a byte that leads no sequence. -/
def utf8Len (n : Nat) : Option Nat :=
  if n < 0x80 then some 0 else if n < 0xC2 then none else if n < 0xE0 then some 1 else if n < 0xF0 then some 2
  else if n < 0xF5 then some 3 else none

/-- What stands in a text for a byte that fits no UTF-8 sequence: no code point, so that no glyph set has it (assumption 42). -/
def malformedCp : Nat := 2 ^ 32

/-- A UTF-8 text's code points. The spec says nothing of a text that is not UTF-8: each byte that fits no sequence stands for one
missing code point (DESIGN CHOICE, assumption 42). -/
def utf8 : Nat → List Byte → List Nat
  | 0, _ => []
  | _, [] => []
  | fuel + 1, b :: t =>
    match utf8Len b.toNat with
    | none => malformedCp :: utf8 fuel t
    | some k =>
      let tail := (t.take k).map (·.toNat)
      if tail.length = k && tail.all (fun c => decide (0x80 ≤ c) && decide (c < 0xC0)) then
        tail.foldl (fun acc c => acc * 64 + c % 64) (if k = 0 then b.toNat else b.toNat % 2 ^ (6 - k)) :: utf8 fuel (t.drop k)
      else malformedCp :: utf8 fuel t

/-- The glyph of a code point; glyph 0 where the set lacks it (R39). -/
def GlyphSet.glyph (g : GlyphSet) (code : Nat) : Option Glyph :=
  match g.glyphs.find? (fun x => x.code = code) with
  | some x => some x
  | none => g.glyphs.head?

/-- Coverages with which a text's glyphs, set from `pen` on, draw the pixel (x, y), in order (R39). -/
def textCover (g : GlyphSet) (base x y : Int) : List Nat → Int → List Nat
  | [], _ => []
  | c :: t, pen =>
    match g.glyph c with
    | none => textCover g base x y t pen
    | some gl =>
      let dx := x - (pen + gl.left)
      let dy := y - Config.glyphTop base gl.base
      let rest := textCover g base x y t (pen + gl.advance)
      if 0 ≤ dx && dx < gl.width && 0 ≤ dy && dy < gl.height then fieldAt gl.bitmap (dy.toNat * gl.width + dx.toNat) 1 :: rest
      else rest

/-! ### Primitives -/

/-- A rectangle: first and last + 1 of pixels and lines. -/
structure Rect where
  x0 : Nat
  x1 : Nat
  y0 : Nat
  y1 : Nat
  deriving DecidableEq, Repr

/-- The rectangle holds a pixel. -/
def Rect.holds (r : Rect) (x y : Nat) : Bool := decide (r.x0 ≤ x) && decide (x < r.x1) && decide (r.y0 ≤ y) && decide (y < r.y1)

/-- The common part of two rectangles. -/
def Rect.meet (a b : Rect) : Rect := ⟨max a.x0 b.x0, min a.x1 b.x1, max a.y0 b.y0, min a.y1 b.y1⟩

/-- Coverages with which a line's spans draw pixel x (02, Table 2-9). -/
def spanCover (x : Nat) (ss : List Span) : List Nat :=
  ss.filterMap (fun s =>
    if s.sx ≤ x && decide (x < s.ex) then some (if x = s.sx then s.ca else if x + 1 = s.ex then s.cb else 255) else none)

/-- What is drawn of one product: its job, run and record. -/
structure DrawCtx where
  job : Job
  planes : Nat
  run : RunRec
  prod : Option ProdRec
  deriving DecidableEq, Repr

/-- A palette entry's value of a plane. -/
def DrawCtx.colour (c : DrawCtx) (e plane : Nat) : Nat :=
  match c.job.palette with
  | some (_, vs) => nth vs (e * c.planes + plane)
  | none => 0

/-- The value of a slot in the product, when the pixel lies in the slot's bounding box (R38, R39). -/
def DrawCtx.slot (c : DrawCtx) (id x y : Nat) : Option SlotVal :=
  match c.run.slots.find? (fun s => s.id = id), c.prod with
  | some s, some p => if (Rect.mk s.sx0 s.sx1 s.sy0 s.sy1).holds x y then p.vals.find? (fun v => v.id = id) else none
  | _, _ => none

/-- An image drawn at (X, Y). -/
def DrawCtx.imageAt (c : DrawCtx) (id X Y plane x y : Nat) : List (Nat × Nat) :=
  match c.job.images.find? (fun i => i.id = id) with
  | some i =>
    if X ≤ x && Y ≤ y && decide (x < X + i.width) && decide (y < Y + i.height) then [(255, c.job.imagePlane i plane (x - X) (y - Y))]
    else []
  | none => []

/-- Module (m, n) of a code value is a mark. -/
def codeMark (v : List Byte) (m n : Nat) : Bool :=
  let cols := fieldAt v 0 2
  decide (m < cols) && decide (n < fieldAt v 2 2) && bitOf (fieldAt v (4 + n * ((cols + 7) / 8) + m / 8) 1) (m % 8)

/-- The coverages and source values with which a primitive draws a pixel of a plane, in order, before clipping. -/
def DrawCtx.draw (c : DrawCtx) (plane x y : Nat) : Prim → List (Nat × Nat)
  | .rect _ pal x0 x1 y0 y1 => if (Rect.mk x0 x1 y0 y1).holds x y then [(255, c.colour pal plane)] else []
  | .spans _ pal y0 lines =>
    if y < y0 then [] else (spanCover x ((lines[y - y0]?).getD [])).map (fun a => (a, c.colour pal plane))
  | .image _ id X Y => c.imageAt id X Y plane x y
  | .textSlot _ slot gs pal X Y =>
    match c.slot slot x y, c.job.glyphs.find? (fun g => g.id = gs) with
    | some v, some g => (textCover g Y x y (utf8 v.bytes.length v.bytes) X).map (fun a => (a, c.colour pal plane))
    | _, _ => []
  | .imageSlot _ slot X Y =>
    match c.slot slot x y with
    | some v => c.imageAt (leVal v.bytes) X Y plane x y
    | none => []
  | .codeSlot _ slot X mw Y mh pal =>
    match c.slot slot x y with
    | some v =>
      if X ≤ x && Y ≤ y && decide (0 < mw) && decide (0 < mh) && codeMark v.bytes ((x - X) / mw) ((y - Y) / mh) then
        [(255, c.colour pal plane)]
      else []
    | none => []
  | _ => []

/-- Blend mode of a primitive. -/
def Prim.mode : Prim → Nat
  | .rect bl .. | .spans bl .. | .image bl .. | .textSlot bl .. | .imageSlot bl .. | .codeSlot bl .. => bl
  | _ => 0

/-- Compose a display list over d with the clip stack `clip` (R35, R64). -/
def DrawCtx.compose (c : DrawCtx) (plane x y : Nat) : List Rect → Nat → List Prim → Nat
  | _, d, [] => d
  | clip, d, .clipPush x0 x1 y0 y1 :: t =>
    let r : Rect := ⟨x0, x1, y0, y1⟩
    c.compose plane x y ((match clip with | top :: _ => r.meet top | [] => r) :: clip) d t
  | clip, d, .clipPop :: t => c.compose plane x y (clip.drop 1) d t
  | clip, d, p :: t =>
    let inside := match clip with | top :: _ => top.holds x y | [] => true
    let d := if inside then (c.draw plane x y p).foldl (fun d as => blend p.mode as.2 d as.1) d else d
    c.compose plane x y clip d t

/-- Compose the layers of a stack, each within its bounding box. -/
def DrawCtx.layers (c : DrawCtx) (plane x y : Nat) (ls : List Layer) : Nat :=
  ls.foldl (fun d l => if (Rect.mk l.lx0 l.lx1 l.ly0 l.ly1).holds x y then c.compose plane x y [] d l.prims else d) 0

/-- What is drawn at job line n. -/
def Job.ctxAt (j : Job) (r : JobRec) (n : Nat) (u : RunRec) : DrawCtx :=
  { job := j, planes := r.planes, run := u, prod := j.prods.find? (fun p => p.pn = r.firstPn + n / r.pitch) }

/-- The correct sample of a plane at job line n and pixel x of the product (R59): 0 outside the printed product. -/
def Job.sampleAt (j : Job) (r : JobRec) (plane n x : Nat) : Nat :=
  let y := n % r.pitch
  if r.lines ≤ n || r.prodLines ≤ y || r.width ≤ x || r.planes ≤ plane then 0
  else
    match j.runAt r n with
    | none => 0
    | some u => (j.ctxAt r n u).layers plane x y (j.layersOf u)

/-- The correct sample of a run's cache at product line y and pixel x (R47, R66). -/
def Job.cacheAt (j : Job) (r : JobRec) (run plane y x : Nat) : Nat :=
  if r.prodLines ≤ y || r.width ≤ x || r.planes ≤ plane then 0
  else
    match j.runs.find? (fun u => u.idx = run) with
    | none => 0
    | some u => ({ job := j, planes := r.planes, run := u, prod := none } : DrawCtx).layers plane x y (j.staticLayers u)

/-! ### Tiles (R58, R59) -/

/-- Column width W of a job. -/
def JobRec.colWidth (r : JobRec) : Nat := if r.planes ≤ 8 then 2048 else 1024

/-- Byte offset of a sample in a tile: plane, band line, column pixel (R59). -/
def JobRec.tileOfs (r : JobRec) (plane l x : Nat) : Nat := 2 * ((plane * 16 + l) * r.colWidth + x)

/-- The correct value of a tile's sample: plane, band line, column pixel. -/
def Job.tileSample (j : Job) (r : JobRec) (id : ColId) (plane l x : Nat) : Nat :=
  let pos := id.col * r.colWidth + x
  if pos < r.x0 then 0
  else
    match id.run with
    | none => j.sampleAt r plane (16 * id.band + l) (pos - r.x0)
    | some u => j.cacheAt r u plane (16 * id.band + l) (pos - r.x0)

/-- The value of a sample as computed: the one listed as different, else the correct one. -/
def Job.valueOf (j : Job) (r : JobRec) (id : ColId) (diff : List Sample) (plane l x : Nat) : Nat :=
  match diff.find? (fun s => decide (s.plane.val = plane) && decide (s.line.val = l) && decide (s.x.val = x)) with
  | some s => s.v.toNat
  | none => j.tileSample r id plane l x

/-- The 16-bit word at a byte offset of a tile: the sample in bits [11:0], bits [15:12] 0 (R59). -/
def Job.tileWord (j : Job) (r : JobRec) (id : ColId) (diff : List Sample) (ofs : Nat) : Nat :=
  let n := ofs / 2
  j.valueOf r id diff (n / r.colWidth / 16) (n / r.colWidth % 16) (n % r.colWidth) % 2 ^ 12

/-! ### Cache entries (R66, R67) -/

/-- The 64 pixels by 16 lines of a block of a cache entry, pixel by pixel within a line, lines in order. -/
def Job.cacheBlock (j : Job) (r : JobRec) (id : ColId) (diff : List Sample) (plane blk : Nat) : List Nat :=
  (List.range 16).flatMap (fun l => (List.range 64).map (fun x => j.tileWord r id diff (r.tileOfs plane l (64 * blk + x))))

/-- The values of a list in the order of their first occurrence. -/
def firstSeen : List Nat → List Nat → List Nat
  | seen, [] => seen.reverse
  | seen, v :: t => if seen.elem v then firstSeen seen t else firstSeen (v :: seen) t

/-- Pack numbers of `w` bits, the first in the lowest bits. -/
def packBits (w : Nat) : List Nat → Nat
  | [] => 0
  | v :: t => v % 2 ^ w + 2 ^ w * packBits w t

/-- The code of a block in the block map: the smallest form that holds its values (DESIGN CHOICE, assumption 43). -/
def blockCode (vs : List Nat) : Nat :=
  let pal := firstSeen [] vs
  if pal.length ≤ 1 then 0 else if pal.length ≤ 4 then 1 else 2

/-- The bytes of a block: one value padded to 4; four palette values and two-bit indices; 12 bits packed. -/
def blockBytes (vs : List Nat) : List Byte :=
  let pal := firstSeen [] vs
  match blockCode vs with
  | 0 => le 2 (nth pal 0) ++ le 2 0
  | 1 => (List.range 4).flatMap (fun k => le 2 (nth pal k)) ++ le 256 (packBits 2 (vs.map (fun v => pal.idxOf v)))
  | _ => le 1536 (packBits 12 vs)

/-- The bytes of a cache entry: for each plane an 8-byte block map and its blocks (R67). -/
def Job.cacheBytes (j : Job) (r : JobRec) (id : ColId) (diff : List Sample) : List Byte :=
  (List.range r.planes).flatMap (fun p =>
    let blocks := (List.range (r.colWidth / 64)).map (j.cacheBlock r id diff p)
    le 8 (packBits 2 (blocks.map blockCode)) ++ blocks.flatMap blockBytes)

/-- Size in bytes of a run's cache of correct samples: its line groups, `cols` columns. -/
def Job.cacheSize (j : Job) (r : JobRec) (u cols : Nat) : Nat :=
  (((List.range ((r.prodLines + 15) / 16)).flatMap (fun g => (List.range cols).map (fun c =>
    (j.cacheBytes r ⟨j.jn, some u, g, c⟩ []).length)))).foldl (· + ·) 0

/-- Two results agree at every sample that the condition takes: they can differ only where one of them lists a difference. -/
def Job.agree (j : Job) (r : JobRec) (id : ColId) (a b : List Sample) (at' : Sample → Bool) : Bool :=
  (a ++ b).all (fun s => !at' s
    || decide (j.valueOf r id a s.plane s.line s.x = j.valueOf r id b s.plane s.line s.x))

/-! ### Witness pixels (R71) -/

/-- Position of the witness pixel in a group of `len` pixels. -/
def witnessPos (seed l j len : Nat) : Nat := (crc32c (le 4 seed ++ le 2 l ++ le 2 j)).toNat % 65536 % len

/-- A column pixel of a band line is a witness pixel, in a column of `width` pixels. -/
def isWitness (seed width l x : Nat) : Bool :=
  let j := x / 32
  decide (x < width) && decide (x % 32 = witnessPos seed l j (min 32 (width - 32 * j)))

end Sys2Proof.Machine
end

