-- ==== Sys2Proof/WellFormed.lean ====
section
/-! DEFINITION. Well-formed commands: the lengths that an operand given as a list must have to be the thing it stands for. A
well-formed command stands for one thing that the hardware can meet. A meaning runs on every command: it takes of a list of another length
the field that it stands for, and a request that no XPP payload holds is discarded (assumption 57). -/
namespace Sys2Proof

/-- Bytes that an XPP payload can hold beside its fields (14, Table 14-1: a payload has at most 1,440 bytes). -/
def xppRoom (fixed each count : Nat) : Bool := decide (fixed + each * count ≤ 1440)

/-- A request fits in one XPP payload (14, R328, Table 14-3). -/
def XppReq.wf : XppReq → Bool
  | .queueOrder jns => xppRoom 4 4 jns.length
  | .regRead addrs => xppRoom 4 4 addrs.length
  | .nvmWrite _ data => xppRoom 4 1 data.length
  | _ => true

/-- The requests of an evaluation period fit in their messages. -/
def wfReqs (reqs : List XppIn) : Bool := reqs.all (fun r => r.req.wf)

/-- Eye widths of a training: 2 channels, 2 operating points, 10 lanes (13, R320). -/
def wfTraining (eyes : List (Byte × Byte)) : Bool := eyes.length == 40

/-- Eye widths of one channel: 10 lanes (13, R308). -/
def wfEyes (eyes : List (Byte × Byte)) : Bool := eyes.length == 10

/-- A bulk connection header has 32 bytes (02, Table 2-1). -/
def wfBulk (hdr : List Byte) : Bool := hdr.length == 32

/-- Bytes 12 to 23 of a descriptor (01, Table 1-6). -/
def wfSpec12 (bytes : List Byte) : Bool := bytes.length == 12

/-- Readings of the 10 sensors (12, R299). -/
def wfReadings (t : List U16) : Bool := t.length == 10

/-- A line of a camera has at most 8,192 pixels in a packet that the port accepts (09, Table 9-1). -/
def wfPacket (p : CsiPkt) : Bool := decide (p.pixels.length ≤ 32767)

/-- A seed for each column of a band: at most 64 (03, R58, R71). -/
def wfSeeds (seeds : List U32) : Bool := seeds.length == 64

/-- A descriptor has 32 bytes (01, Table 1-7). -/
def wfDescs (descs : List (List Byte)) : Bool := descs.all (fun x => x.length == 32)

/-- The well-formed commands. -/
def Instr.wf : Instr → Bool
  | .dramTraining eyes => wfTraining eyes
  | .channelBRetrain eyes => wfEyes eyes
  | .bulkConnection _ hdr => wfBulk hdr
  | .dmaDescriptorDone _ spec12 _ _ _ => wfSpec12 spec12
  | .tempConversionDone readings => wfReadings readings
  | .csiPacket _ pkt => wfPacket pkt
  | .dmaTailWrite _ _ _ descs => wfDescs descs
  | .workPost seeds => wfSeeds seeds
  | .queueOrder _ jns => (XppReq.queueOrder jns).wf
  | .regRead _ addrs => (XppReq.regRead addrs).wf
  | .nvmWrite _ ofs data => (XppReq.nvmWrite ofs data).wf
  | .evaluationPeriodEnd _ reqs => wfReqs reqs
  | _ => true

end Sys2Proof
end

