-- ==== Sys2Proof/Machine/Reckoners.lean ====
section
/-! DEFINITION. The Reckoner control block (03, R57 to R79, R421; 01, R15): the active set, work rings and stealing, witness and
majority, strikes and mittens, caches, the render front. -/
namespace Sys2Proof.Machine

/-! ### The active set (R61, R75, R77 to R79) -/

/-- RKi is active. -/
def Dev.rkActive (d : Dev) (i : Nat) : Bool := bitOf (d.rd .RKC_ACTIVE_ACT) i

/-- A: the number of active Reckoners. -/
def Dev.rkCount (d : Dev) : Nat := d.rd .RKC_ACTIVE_COUNT

/-- Set the active Reckoners; a fall below 3 or 2 is reported. -/
def Dev.setActive (d : Dev) (mask : Nat) : Dev :=
  let was := d.rkCount
  let n := popcount 16 mask
  let d := (d.wr .RKC_ACTIVE_ACT mask).wr .RKC_ACTIVE_COUNT n
  let d := if n < 3 && decide (3 ≤ was) then d.raise Ev.RENDER_FEW (le 1 n) else d
  if n < 2 && decide (2 ≤ was) then d.raise Ev.RENDER_STOPPED (le 1 n) else d

/-- RKi is mittened. -/
def Dev.mittened (d : Dev) (i : Nat) : Bool := bitOf (d.rd .RKC_MITTEN_MIT) i

/-- RKi stands in a shed quad. -/
def Dev.inShed (d : Dev) (i : Nat) : Bool := bitOf (d.rd .RKC_SHED_QUAD) (i / 4)

/-- The Reckoners that are neither mittened nor in a shed quad. -/
def Dev.ableMask (d : Dev) : Nat :=
  (List.range 16).foldl (fun acc i => if d.mittened i || d.inShed i then acc else acc + 2 ^ i) 0

/-- The domain of quad q. -/
def quadDom : Nat → Dom
  | 0 => .rq0 | 1 => .rq1 | 2 => .rq2 | _ => .rq3

/-- A quad's domain is down while it is shed or all four of its Reckoners are mittened (R77; 01, Table 1-5). -/
def Dev.powerQuad (d : Dev) (q : Nat) : Dev :=
  let down := bitOf (d.rd .RKC_SHED_QUAD) q || (List.range 4).all (fun k => d.mittened (4 * q + k))
  if down then d.clrBit .AON_PDSTAT_ON (quadDom q).bit else d.domUp (quadDom q)

/-- The first active Reckoner in ascending index order from `start` on that is not skipped. -/
def Dev.pickRk (d : Dev) (start : Nat) (skip : List Nat) : Option Nat :=
  ((List.range 16).map (fun k => (start + k) % 16)).find? (fun i => d.rkActive i && !skip.elem i)

/-- The witness of a renderer (R72). -/
def Dev.pickWitness (d : Dev) (r : Nat) (skip : List Nat) : Option Nat := d.pickRk (r + 4) (r :: skip)

/-- The default renderer of column c (R61). -/
def Dev.defaultRk (d : Dev) (c : Nat) : Option Nat :=
  let act := (List.range 16).filter d.rkActive
  if act = [] then none else act[c % act.length]?

/-! ### Cost (R68 to R70) -/

/-- Columns of a job: N over W, rounded up (R58). -/
def Dev.printableOf (d : Dev) (r : JobRec) : Nat :=
  ((d.bars.filter (fun b => nth r.barMap b.bar != 0xFF)).map barPrintable).foldl max 0

/-- C of R58. -/
def Dev.columns (d : Dev) (r : JobRec) : Nat := ceilDiv (d.printableOf r) r.colWidth

/-- Pixels of column c, the last one clipped to N. -/
def Dev.colPixels (d : Dev) (r : JobRec) (c : Nat) : Nat := min r.colWidth (d.printableOf r - c * r.colWidth)

/-- Overlap of two half-open ranges. -/
def overlap (a0 a1 b0 b1 : Nat) : Nat := min a1 b1 - max a0 b0

/-- Lines of a band: of the job, from 16b on. -/
def bandLines (r : JobRec) (b : Nat) : List Nat := (List.range 16).map (· + 16 * b) |>.filter (· < r.lines)

/-- e(b, c) of R69 in 2^-8 cycles. -/
def Dev.estimate (d : Dev) (j : Job) (r : JobRec) (b c : Nat) (cached : Bool) : Nat :=
  let x0 := c * r.colWidth
  let w := d.colPixels r c
  let area := (bandLines r b).foldl (fun acc n =>
    match j.runAt r n with
    | none => acc
    | some u =>
      (j.liveLayers u cached).foldl (fun acc l =>
        let y := n % r.pitch
        let cost := if l.cost = 0 then d.rd .RKC_DEFCOST_COST else l.cost
        if l.ly0 ≤ y && decide (y < l.ly1) && decide (y < r.prodLines) then
          acc + cost * overlap (l.lx0 + r.x0) (min l.lx1 r.width + r.x0) x0 (x0 + w)
        else acc) acc) 0
  256 * d.rd .RKC_COSTCFG_BASE + area / 1024
    + (if cached then 256 * d.rd .RKC_COSTCFG_CACHE * (w * (bandLines r b).length) / 1024 else 0)

/-- E(b) of R69 in 2^-8 cycles. -/
def Dev.bandCost (d : Dev) (j : Job) (r : JobRec) (b : Nat) (cached : Nat → Bool) : Nat :=
  9 * ((List.range (d.columns r)).map (fun c => d.estimate j r b c (cached c))).foldl (· + ·) 0 / 8

/-- Estimated cycles of a descriptor: a witness works 4 times as long on 1 pixel in 32. R69 gives e for band-columns of the job only; a
cache build is taken as the band-column of the same number with every layer live (DESIGN CHOICE, assumption 44). -/
def Dev.workCost (d : Dev) (w : Work) : Nat :=
  match d.job w.id.jn with
  | some j =>
    match j.rec? with
    | some r =>
      let e := d.estimate j r w.id.band w.id.col w.cached
      if w.kind = .witness then e / 8 else e
    | none => 0
  | none => 0

/-! ### Starting and stealing (R62, R63) -/

/-- Change the render state. -/
def Dev.updRk (d : Dev) (f : Rk → Rk) : Dev := { d with rk := f d.rk }

/-- The ring is halted (01, R17). -/
def Dev.ringHalted (d : Dev) (r : Nat) : Bool :=
  if r < 32 then bitOf (d.rd .DMA_HALT_LO_HALT) r else bitOf (d.rd .DMA_HALT_HI_HALT) (r - 32)

/-- Printable positions of its bar that pipeline i serves: from its first head's first nozzle on, up to the end of its last head
(04, R81, R83). -/
def Dev.pipeSpan (d : Dev) (i : Nat) : Nat × Nat :=
  let h0 := if d.rd .DP_CFG_GANG i = 2 then 8 else 0
  let step := 4096 - d.rd .DP_GEOM_CUFF i
  (h0 * step, h0 * step + (d.rd .DP_GEOM_HEADS i - 1) * step + 4096)

/-- The bar of pipeline i is mapped by the job, and its heads lie in the column: the pipeline reads its plane of the tile (R60). -/
def Dev.pipeReads (d : Dev) (i : Nat) (id : ColId) : Bool :=
  match (d.job id.jn).bind (·.rec?) with
  | some r =>
    let bar := if d.rd .DP_CFG_GANG i = 2 then i - 1 else i
    decide (nth r.barMap bar ≠ 0xFF)
      && decide (0 < overlap (id.col * r.colWidth) ((id.col + 1) * r.colWidth) (d.pipeSpan i).1 (d.pipeSpan i).2)
  | none => false

/-- A tile is freed once every pipeline that reads it has read its plane (R60). -/
def Dev.tileFree (d : Dev) (b : BandTiles) (t : TileRec) : Bool := d.pipes.all (fun i => !d.pipeReads i t.id || b.dosed.elem i)

/-- The tiles handed over that still stand in their halves. -/
def Dev.heldTiles (d : Dev) : List TileRec := d.rk.handed.flatMap (fun b => b.tiles.filter (fun t => !d.tileFree b t))

/-- Tile halves of RKi that hold a finished tile (R60). -/
def Dev.halves (d : Dev) (i : Nat) : Nat :=
  (d.rk.tiles.filter (fun t => t.id.run.isNone && decide (t.renderer = i))).length
    + (d.heldTiles.filter (fun t => t.renderer = i)).length

/-- RKi executes a descriptor. -/
def Dev.busyRk (d : Dev) (i : Nat) : Bool := d.rk.work.any (fun w => w.exec = some i)

/-- RKi can start a descriptor: a render needs a free tile half, a cache build a ring without other work (R60, R63). -/
def Dev.canStart (d : Dev) (i : Nat) (w : Work) : Bool :=
  w.exec.isNone
    && (match w.kind with
        | .render | .third => decide (d.halves i < 2)
        | .witness => true
        | .cache => !d.rk.work.any (fun x => decide (x.ring = i) && decide (x.kind ≠ .cache)
            && (x.exec.isNone || decide (x.exec = some i))))

/-- Mark a descriptor as executed by RKi from now on. -/
def Dev.startWork (d : Dev) (i : Nat) (w : Work) : Dev :=
  d.updRk (fun k => { k with work := k.work.map (fun x => if x = w then { x with exec := some i, since := d.now } else x) })

/-- RKi, when it is active and executes nothing, starts the oldest descriptor of its ring that it can. -/
def Dev.startNext (d : Dev) (i : Nat) : Dev :=
  if !d.rkActive i || d.busyRk i || d.ringHalted (8 + i) then d
  else
    match d.rk.work.find? (fun w => decide (w.ring = i) && d.canStart i w) with
    | some w => d.startWork i w
    | none => d

/-- Every Reckoner starts what it can. -/
def Dev.startAll (d : Dev) : Dev := d.forEach (List.range 16) Dev.startNext

/-- Estimated pending cycles of a ring: those of its unstarted descriptors (DESIGN CHOICE, assumption 45). -/
def Dev.pending (d : Dev) (ring : Nat) : Nat :=
  ((d.rk.work.filter (fun w => decide (w.ring = ring) && w.exec.isNone)).map d.workCost).foldl (· + ·) 0

/-- The descriptor that RKi may take from a ring: its oldest unstarted render of which RKi is not the witness. -/
def Dev.stealable (d : Dev) (i ring : Nat) : Option Work :=
  if ring = i || d.ringHalted (8 + ring) then none
  else d.rk.work.find? (fun w => decide (w.ring = ring) && w.exec.isNone && decide (w.kind = .render) && decide (w.wit ≠ i))

/-- The ring with the largest estimated pending cycles among those given; of equal ones the first, on which R62 gives no order (DESIGN
CHOICE, assumption 45). -/
def Dev.fullest (d : Dev) : List Nat → Option Nat
  | [] => none
  | r :: t =>
    match d.fullest t with
    | some q => if d.pending r < d.pending q then some q else some r
    | none => some r

/-- The witness work of a band-column, and a tile's record of it, name their renderer and witness. -/
def Dev.nameRenderer (d : Dev) (id : ColId) (r : Nat) : Dev :=
  d.updRk (fun k => { k with work := k.work.map (fun x => if x.kind = .witness ∧ x.id = id then { x with wit := r } else x) })

/-- Stealing by an idle Reckoner (R62). The ring is chosen among those that hold a descriptor it may take; R62 does not say what
happens when the fullest ring holds none (DESIGN CHOICE, assumption 45). -/
def Dev.steal (d : Dev) (i : Nat) : Dev :=
  if !d.flag .RKC_CTL_STEAL_EN || !d.rkActive i || d.busyRk i || 2 ≤ d.halves i
      || d.rk.work.any (fun w => decide (w.ring = i) && d.canStart i w) then d
  else
    match d.fullest ((List.range 16).filter (fun r => (d.stealable i r).isSome)) with
    | none => d
    | some ring =>
      match d.stealable i ring with
      | some w => (d.startWork i w).nameRenderer w.id i
      | none => d

/-- WORK_STEAL (R62). -/
def execWorkSteal (rk : RkNo) (s : State) : Out := s.act (·.steal rk)

end Sys2Proof.Machine
end

