-- ==== Sys2Proof/Machine/Witness.lean ====
section
/-! DEFINITION. Render work from posting to hand-over (03, R57, R60 to R63, R66, R70 to R79, R421; 02, R47 to R49). -/
namespace Sys2Proof.Machine

/-! ### Posting -/

/-- Append a descriptor to its ring. -/
def Dev.postWork (d : Dev) (w : Work) : Dev := d.updRk (fun k => { k with work := k.work ++ [w] })

/-- The seed drawn for a band-column (R71). -/
def Dev.seedOf (d : Dev) (id : ColId) : Nat := ((d.rk.seeds.find? (fun x => x.1 = id)).map (·.2)).getD 0

/-- Keep the seed drawn for a band-column. -/
def Dev.setSeed (d : Dev) (id : ColId) (seed : Nat) : Dev :=
  d.updRk (fun k => { k with seeds := (id, seed) :: k.seeds.filter (fun x => x.1 ≠ id) })

/-- Post a band-column, of which nothing else is left then: its render or cache build to the default Reckoner (R61), and its
witness work, which alone carries the seed (R71, R72). -/
def Dev.postColumn (d : Dev) (id : ColId) (cached : Bool) : Dev :=
  match d.defaultRk id.col with
  | none => d
  | some r =>
    match d.pickWitness r [] with
    | none => d
    | some w =>
      let one := fun (ring wit seed : Nat) (kind : WorkKind) =>
        ({ id := id, ring := ring, kind := kind, wit := wit, seed := seed, cached := cached, exec := none, since := 0 } : Work)
      let d := d.updRk (fun k => { k with tiles := k.tiles.filter (fun x => x.id ≠ id), wits := k.wits.filter (fun x => x.id ≠ id),
                                          work := k.work.filter (fun x => x.id ≠ id) })
      (d.postWork (one r w 0 (if id.run.isSome then .cache else .render))).postWork (one w r (d.seedOf id) .witness)

/-- Post a band-column for the first time: its seed is the next one that the random generator gives (R71), or a free value once the
command's draws are used up. -/
def Dev.drawColumn (x : Dev × List Nat) (id : ColId) (cached : Bool) : Dev × List Nat :=
  match x.2 with
  | s :: rest => ((x.1.setSeed id s).postColumn id cached, rest)
  | [] => (((x.1.free 32).2.setSeed id (x.1.free 32).1).postColumn id cached, [])

/-- No Reckoner qualifies for a descriptor taken from Reckoner `failed` (R421): R75 applies, and the descriptor waits for one. -/
def Dev.noneLeft (d : Dev) (failed : Nat) (w : Work) : Dev :=
  (d.updRk (fun k => { k with stuck := k.stuck ++ [(w, failed)] })).raise Ev.RENDER_STOPPED (le 1 d.rkCount)

/-- Assign the witness of a band-column again (R72) and post its work anew; a record of the former witness is given up. -/
def Dev.assignWitness (d : Dev) (id : ColId) (r failed : Nat) (cached : Bool) (skip : List Nat) : Dev :=
  let d := d.updRk (fun k => { k with work := k.work.filter (fun x => !(x.kind = .witness ∧ x.id = id)),
                                      wits := k.wits.filter (fun x => x.id ≠ id) })
  let work : Work := { id := id, ring := failed, kind := .witness, wit := r, seed := d.seedOf id, cached := cached, exec := none, since := 0 }
  match d.pickWitness r skip with
  | none => d.noneLeft failed work
  | some w =>
    let d := d.updRk (fun k => { k with
      work := k.work.map (fun x => if x.id = id ∧ (x.kind = .render ∨ x.kind = .cache) then { x with wit := w } else x),
      tiles := k.tiles.map (fun t => if t.id = id then { t with witness := w } else t) })
    d.postWork { work with ring := w }

/-! ### Majority (R73 to R75, Table 3-5) -/

/-- The finished tile of a band-column. -/
def Dev.tileOf (d : Dev) (id : ColId) : Option TileRec := d.rk.tiles.find? (fun t => t.id = id)

/-- The run has products that the front has not rendered. -/
def Job.runAhead (j : Job) (r : JobRec) (u : RunRec) : Bool := decide (j.rendered < u.pn + u.count - r.firstPn)

/-- The run's cache has not been released: its job is held and has products of the run ahead (02, R49). -/
def Dev.runLives (d : Dev) (jn u : Nat) : Bool :=
  (d.job jn).any (fun j => j.rec?.any (fun r => j.runs.any (fun x => decide (x.idx = u) && j.runAhead r x)))

/-- A tile passes: a rendered one waits for its band, a cache entry becomes valid unless the run's cache has been released. -/
def Dev.passTile (d : Dev) (id : ColId) : Dev :=
  match id.run, d.tileOf id with
  | some u, some t =>
    d.updRk (fun k => { k with tiles := k.tiles.filter (fun x => x.id ≠ id), wits := k.wits.filter (fun x => x.id ≠ id),
                               seeds := k.seeds.filter (fun x => x.1 ≠ id),
                               cache := if d.runLives id.jn u then
                                   k.cache ++ [{ jn := id.jn, run := u, group := id.band, col := id.col, out := t.out }] else k.cache })
  | _, _ => d.updRk (fun k => { k with tiles := k.tiles.map (fun x => if x.id = id then { x with passed := true } else x) })

/-- No majority: the renderer's tile is handed over, the lines of the band spoil on every bar; a cache entry is not marked
valid. -/
def Dev.noMajority (d : Dev) (t : TileRec) (third : Nat) : Dev :=
  let d := (d.inc .RKC_CMP_NOMAJ).raise Ev.RENDER_NOMAJ
    (le 4 t.id.jn ++ le 4 t.id.band ++ le 1 t.id.col ++ le 1 t.renderer ++ le 1 t.witness ++ le 1 third)
  if t.id.run.isSome then
    d.updRk (fun k => { k with tiles := k.tiles.filter (fun x => x.id ≠ t.id), wits := k.wits.filter (fun x => x.id ≠ t.id) })
  else
    let d := d.passTile t.id
    match (d.job t.id.jn).bind (·.rec?) with
    | some r => d.spoilLines .renderMismatch 255 255 t.id.jn (d.bars.map (·.bar)) (bandLines r t.id.band)
    | none => d

/-- What stands for the third Reckoner in the data of `RENDER_NOMAJ` when no third render ran: Table 3-6 does not say (DESIGN CHOICE,
assumption 46). -/
def noThird : Nat := 255

/-- A mismatch (R73): reported, and a third render posted where a Reckoner is left for it. A Reckoner that has been mittened counts
neither as renderer nor as witness: the band-column is rendered and witnessed again from the start ("When a mitten and a mismatch fall
on the same band-column"). -/
def Dev.mismatch (d : Dev) (t : TileRec) : Dev :=
  let d := (d.inc .RKC_CMP_MISMATCH).raise Ev.RENDER_MISMATCH
    (le 4 t.id.jn ++ le 4 t.id.band ++ le 1 t.id.col ++ le 1 t.renderer ++ le 1 t.witness)
  if d.mittened t.renderer || d.mittened t.witness then d.postColumn t.id t.cached
  else
    match if d.rkCount < 3 then none else d.pickRk (t.renderer + 8) [t.renderer, t.witness] with
    | some k =>
      d.postWork { id := t.id, ring := k, kind := .third, wit := t.witness, seed := 0, cached := t.cached, exec := none, since := 0 }
    | none => d.noMajority t noThird

/-- A third render of the band-column is posted. -/
def Dev.thirdPosted (d : Dev) (id : ColId) : Bool := d.rk.work.any (fun w => decide (w.kind = .third) && decide (w.id = id))

/-- A sample of the job's planes is a witness sample of the tile. -/
def Dev.atWitness (d : Dev) (r : JobRec) (t : TileRec) (s : Sample) : Bool :=
  decide (s.plane.val < r.planes) && isWitness (d.seedOf t.id) (d.colPixels r t.id.col) s.line s.x

/-- A sample lies in the tile. -/
def Dev.inTile (d : Dev) (r : JobRec) (t : TileRec) (s : Sample) : Bool :=
  decide (s.plane.val < r.planes) && decide (s.x.val < d.colPixels r t.id.col)

/-- Compare a tile with its witness record once both are there (R72, R73). -/
def Dev.compareTile (d : Dev) (id : ColId) : Dev :=
  match d.tileOf id, d.rk.wits.find? (fun x => x.id = id), d.job id.jn with
  | some t, some w, some j =>
    match j.rec? with
    | none => d
    | some r =>
      if t.passed || d.thirdPosted id then d
      else if j.agree r id t.out.diff w.wrong (d.atWitness r t) then d.passTile id
      else d.mismatch t
  | _, _, _ => d

/-! ### Requeueing (R421) -/

/-- A Reckoner qualifies for a descriptor taken from a failed one. -/
def Dev.canRequeue (d : Dev) (failed : Nat) (w : Work) : Bool :=
  match w.kind with
  | .render | .cache => (d.pickRk (failed + 1) [failed, w.wit]).isSome
  | .witness => (d.pickWitness w.wit [failed]).isSome
  | .third => true

/-- Post a descriptor taken from a failed Reckoner again, by its `KIND`. -/
def Dev.requeue (d : Dev) (failed : Nat) (w : Work) : Dev :=
  let w : Work := { w with exec := none, since := 0 }
  match w.kind with
  | .render | .cache =>
    match d.pickRk (failed + 1) [failed, w.wit] with
    | none => d.noneLeft failed w
    | some n =>
      let d := (d.postWork { w with ring := n }).nameRenderer w.id n
      if d.rkActive w.wit then d else d.assignWitness w.id n failed w.cached []
  | .witness => d.assignWitness w.id w.wit failed w.cached [failed]
  | .third =>
    match d.tileOf w.id with
    | none => d
    | some t =>
      match d.pickRk (t.renderer + 8) [t.renderer, t.witness, failed] with
      | some n => d.postWork { w with ring := n }
      | none => d.noMajority t noThird

/-- Count the RCK cycles that RKi has spent on a descriptor (RKC_BUSY). -/
def Dev.addBusy (d : Dev) (i : Nat) (w : Work) : Dev :=
  let cycles := (d.now - w.since) * (12 - 2 * d.rd .AB_LADDER_RCK) / 10
  d.wr .RKC_BUSY_CYC (d.rd .RKC_BUSY_CYC i + cycles) i

/-- The unfinished descriptors of a Reckoner: those it executes and those of its ring that no other executes. -/
def Dev.workOf (d : Dev) (i : Nat) : List Work :=
  d.rk.work.filter (fun w => decide (w.exec = some i) || (w.exec.isNone && decide (w.ring = i)))

/-- Take them all from it and post them again; the cycles spent on the one that it executed count. -/
def Dev.requeueAll (d : Dev) (i : Nat) : Dev :=
  let ws := d.workOf i
  let d := d.forEach (ws.filter (fun w => w.exec = some i)) (fun d w => d.addBusy i w)
  let d := d.updRk (fun k => { k with work := k.work.filter (fun w => !ws.elem w) })
  d.forEach ws (fun d w => d.requeue i w)

/-- Render and witness a band-column again from the start. -/
def Dev.restartColumn (d : Dev) (t : TileRec) : Dev := d.postColumn t.id t.cached

/-! ### Strikes and mittens (R76 to R78) -/

/-- Mitten a Reckoner (R77): it leaves the active set, its descriptors are posted again; a third render that it takes part in
starts over. -/
def Dev.mitten (d : Dev) (i t0 : Nat) : Dev :=
  let d := (d.setBit .RKC_MITTEN_MIT i).raise Ev.RK_MITTEN (le 1 i ++ le 4 (tsec t0) ++ le 4 (tns t0) ++ le 4 (tsec d.now) ++ le 4 (tns d.now))
  let d := d.setActive (withoutBit (d.rd .RKC_ACTIVE_ACT) i)
  let open' := d.rk.tiles.filter (fun t => !t.passed && d.thirdPosted t.id && (decide (t.renderer = i) || decide (t.witness = i)))
  let d := (d.forEach open' Dev.restartColumn).requeueAll i
  d.powerQuad (i / 4)

/-- A strike (R76, R77): causes 1 witness loss, 2 trap, 3 watchdog. -/
def Dev.strike (d : Dev) (i cause : Nat) : Dev :=
  let d := (d.wr .RKC_STRIKE_TOTAL (min 15 (d.rd .RKC_STRIKE_TOTAL i + 1)) i).wr .RKC_STRIKE_LAST cause i
  let d := d.raise Ev.RK_STRIKE (le 1 i ++ le 1 cause)
  let old := Tab.at d.rk.strikes i
  let d := d.updRk (fun k => { k with strikes := Tab.put k.strikes i (some d.now) })
  match old with
  | some t =>
    if d.now < t + 3600000000000 then (d.wr .RKC_STRIKE_PENDING 0 i).mitten i t else d.wr .RKC_STRIKE_PENDING 1 i
  | none => d.wr .RKC_STRIKE_PENDING 1 i

/-- STRIKE_EXPIRY (R77): the strike has become 3,600 s old. -/
def execStrikeExpiry (rk : RkNo) (s : State) : Out :=
  s.act fun d =>
    if (Tab.at d.rk.strikes rk : Option Nat).any (fun t => d.passed t 3600000000000) then
      (d.updRk (fun k => { k with strikes := Tab.put k.strikes rk none })).wr .RKC_STRIKE_PENDING 0 rk
    else d

/-- Release mittened Reckoners (R78): they return to the active set at the next band. -/
def Dev.releaseRk (d : Dev) (mask : Nat) : Dev :=
  d.forEach ((List.range 16).filter (fun i => bitOf mask i && d.mittened i)) (fun d i =>
    let d := (d.clrBit .RKC_MITTEN_MIT i).updRk (fun k => { k with strikes := Tab.put k.strikes i none })
    ((d.wr .RKC_STRIKE_PENDING 0 i).powerQuad (i / 4)).raise Ev.RK_RELEASED (le 1 i))

/-! ### The code of the Reckoners (R57, R78; 16, R381) -/

/-- The segments of a `fw.*` payload that stands in DRAM from an address on. -/
def fwSegsAt (m : Tab Nat Byte) : Nat → Nat → List (Nat × List Byte)
  | 0, _ => []
  | n + 1, a =>
    let len := leVal (memReadAll m (a + 4) 4)
    (leVal (memReadAll m a 4), memReadAll m (a + 8) len) :: fwSegsAt m n (a + 8 + pad4 len)

/-- Channel-B address of the `fw.rk` copy (16, R381). -/
def Dev.rkCopy (d : Dev) : Nat := d.rd .CR_FWBASE_ADDR * 256 + 0x2000000

/-- RKi loads its code from the `fw.rk` copy again. -/
def State.reloadRk (s : State) (i : Nat) : State :=
  let a := s.dev.rkCopy
  let p : Program := { entry := leVal (memReadAll s.dram.mem a 4), segs := fwSegsAt s.dram.mem (leVal (memReadAll s.dram.mem (a + 4) 4)) (a + 8) }
  { s with dev := { s.dev with boot := { s.dev.boot with
      programs := s.dev.boot.programs.map (fun x => if x.1 = .rk i then (x.1, p) else x) } } }

/-- The Reckoners mittened before and released since load their code again (R78). -/
def State.reloadFreed (s : State) (was : Dev) : State :=
  ((List.range 16).filter (fun i => was.mittened i && !s.dev.mittened i)).foldl State.reloadRk s

/-- RKC_MITTEN_WRITE (R78): SV0's write on an accepted XPP release. -/
def execRkcMittenWrite (lvl : Lvl) (val : U32) (s : State) : Out :=
  .next (State.reloadFreed { s with dev := s.dev.ownWrite lvl 0x200008 (·.releaseRk val.toNat) } s.dev)

/-! ### Shed quads (R79; 01, R15) -/

/-- A finished tile of a shed Reckoner in a band not handed over is rendered again from its start by another. -/
def Dev.rerender (d : Dev) (i : Nat) (t : TileRec) : Dev :=
  let d := d.updRk (fun k => { k with tiles := k.tiles.filter (fun x => x.id ≠ t.id),
                                      work := k.work.filter (fun w => !(w.id = t.id ∧ w.kind = .third)) })
  d.requeue i { id := t.id, ring := i, kind := if t.id.run.isSome then .cache else .render, wit := t.witness, seed := 0,
                cached := t.cached, exec := none, since := 0 }

/-- Shed a quad: its columns move to the remaining Reckoners. -/
def Dev.shedQuad (d : Dev) (q : Nat) : Dev :=
  if bitOf (d.rd .RKC_SHED_QUAD) q then d
  else
    let d := d.setBit .RKC_SHED_QUAD q
    let rks := (List.range 4).map (· + 4 * q)
    let d := d.setActive (rks.foldl withoutBit (d.rd .RKC_ACTIVE_ACT))
    let d := d.forEach rks (fun d i =>
      (d.forEach (d.rk.tiles.filter (fun t => t.renderer = i)) (fun d t => d.rerender i t)).requeueAll i)
    (d.powerQuad q).startAll

/-- Restore a quad: its Reckoners that are not mittened are active again (R79). -/
def Dev.restoreQuad (d : Dev) (q : Nat) : Dev :=
  if bitOf (d.rd .RKC_SHED_QUAD) q then
    let d := (d.clrBit .RKC_SHED_QUAD q).powerQuad q
    let able := ((List.range 4).map (· + 4 * q)).filter (fun i => !d.mittened i)
    (d.setActive (able.foldl withBit (d.rd .RKC_ACTIVE_ACT))).startAll
  else d

/-! ### The render front -/

/-- Lines of a job that the front renders: up to its limit. -/
def Job.frontLines (j : Job) (r : JobRec) : Nat :=
  match j.limit with
  | some n => min r.lines (n * r.pitch)
  | none => r.lines

/-- The placed job behind a job. -/
def Dev.nextPlaced (d : Dev) (jn : Nat) : Option Nat := (((d.placements.dropWhile (fun p => p.jn != jn)).drop 1).head?).map (·.jn)

/-- The front passes the jobs that have no band left to post; `fuel` bounds their number. -/
def Dev.normFront : Nat → Dev → Dev
  | 0, d => d
  | fuel + 1, d =>
    match d.rk.front with
    | none => d
    | some (jn, b) =>
      match d.job jn with
      | none => d
      | some j =>
        match j.rec? with
        | none => d
        | some r =>
          if j.frontLines r ≤ 16 * b then
            let done := !d.rk.ahead.any (fun x => x.1 = jn) && !d.rk.finished.elem jn
            Dev.normFront fuel
              (d.updRk (fun k => { k with front := (d.nextPlaced jn).map (fun n => (n, 0)), finished := if done then k.finished ++ [jn] else k.finished }))
          else d

/-- The first product of a band whose record is awaited (R44; 02, "When a product's record has not arrived"). -/
def Job.awaited (j : Job) (r : JobRec) (b : Nat) : Option Nat :=
  ((bandLines r b).find? (fun n => decide (n % r.pitch < r.prodLines) && decide (n < j.frontLines r)
    && !j.prods.any (fun p => p.pn = r.firstPn + n / r.pitch))).map (fun n => r.firstPn + n / r.pitch)

/-- A cache entry of the run is valid for a product line's group, in the column. -/
def Dev.hasEntry (d : Dev) (jn : Nat) (u g c : Nat) : Bool :=
  d.rk.cache.any (fun e => decide (e.jn = jn) && decide (e.run = u) && decide (e.group = g) && decide (e.col = c))

/-- A valid entry that is read without poison: one read with poison is not used (R67). -/
def Dev.soundEntry (d : Dev) (jn : Nat) (u g c : Nat) : Bool :=
  d.rk.cache.any (fun e => decide (e.jn = jn) && decide (e.run = u) && decide (e.group = g) && decide (e.col = c) && decide (e.out.poison = []))

/-- The band-column reads cache entries: every printed line's run is cached and its group's entry is valid and without poison; any
other band-column is rendered live (R47, R48, R66, R67). -/
def Dev.readsCache (d : Dev) (j : Job) (r : JobRec) (b c : Nat) : Bool :=
  (bandLines r b).all (fun n =>
    decide (r.prodLines ≤ n % r.pitch)
      || (match j.runAt r n with
          | some u => u.cached && d.soundEntry j.jn u.idx (n % r.pitch / 16) c
          | none => false))

/-- Some of a band-column is posted, finished or waits for a Reckoner. -/
def Dev.columnUp (d : Dev) (id : ColId) : Bool :=
  (d.tileOf id).isSome || d.rk.work.any (fun w => w.id = id ∧ w.kind = .render) || d.rk.stuck.any (fun x => x.1.id = id)

/-- Post the columns of a band that are not yet posted, each with a draw of its own (R71). -/
def Dev.postBand (x : Dev × List Nat) (j : Job) (r : JobRec) (b : Nat) : Dev × List Nat :=
  (List.range (x.1.columns r)).foldl (fun (x : Dev × List Nat) c =>
    let id : ColId := ⟨j.jn, none, b, c⟩
    if x.1.columnUp id then x else Dev.drawColumn x id (x.1.readsCache j r b c)) x

/-- Post columns of bands ahead that found no Reckoner before. -/
def Dev.repost (x : Dev × List Nat) : Dev × List Nat :=
  x.1.rk.ahead.foldl (fun (x : Dev × List Nat) b =>
    match x.1.job b.1 with
    | some j =>
      match j.rec? with
      | some r => Dev.postBand x j r b.2
      | none => x
    | none => x) x

/-- Post the descriptors that waited for a Reckoner and have one now (R72, R421). -/
def Dev.postStuck (d : Dev) : Dev :=
  d.forEach (d.rk.stuck.filter (fun x => d.canRequeue x.2 x.1)) (fun d x =>
    (d.updRk (fun k => { k with stuck := k.stuck.filter (· ≠ x) })).requeue x.2 x.1)

/-- Size in bytes of a run's cache (R67). -/
def Dev.cacheNeed (d : Dev) (jn u : Nat) : Nat :=
  match d.job jn with
  | some j => (j.rec?.map (fun r => j.cacheSize r u (d.columns r))).getD 0
  | none => 0

/-- Bytes of the cache region. -/
def Dev.cacheSize (d : Dev) : Nat := (d.boot.content.map (·.cache)).getD Config.cacheRegionDefault

/-- The runs, by job and index, with cache entries or cache work. -/
def Dev.cachedRuns (d : Dev) : List (Nat × Nat) :=
  addNew [] (d.rk.cache.map (fun e => (e.jn, e.run)) ++ d.rk.work.filterMap (fun w => w.id.run.map (fun u => (w.id.jn, u))))

/-- The cache region holds the runs with caches and another one (R49). -/
def Dev.cacheFits (d : Dev) (jn u : Nat) : Bool :=
  decide ((((d.cachedRuns.filter (fun x => x ≠ (jn, u))).map (fun x => d.cacheNeed x.1 x.2)).foldl (· + ·) 0) + d.cacheNeed jn u ≤ d.cacheSize)

/-- Line groups and columns of a run that are neither built nor being built. -/
def Dev.unbuilt (d : Dev) (jn : Nat) (r : JobRec) (u : RunRec) : Option ColId :=
  let groups := List.range (ceilDiv r.prodLines 16)
  groups.findSome? (fun g => ((List.range (d.columns r)).map (fun c => (⟨jn, some u.idx, g, c⟩ : ColId))).find? (fun id =>
    !d.hasEntry jn u.idx g id.col && !d.rk.work.any (fun w => w.id = id) && (d.tileOf id).isNone))

/-- Post one cache build, of the first job and run that want one (R48, R63). -/
def Dev.postCache (x : Dev × List Nat) : Dev :=
  let cand := x.1.jobs.findSome? (fun j =>
    match j.st, j.rec? with
    | .loaded, some r | .placed, some r | .active, some r =>
      (j.runs.filter (fun u => u.cached && j.runAhead r u && x.1.cacheFits j.jn u.idx)).findSome? (x.1.unbuilt j.jn r)
    | _, _ => none)
  match cand with
  | some id => (Dev.drawColumn x id false).1
  | none => x.1

/-- Contents of a product that are reported and spoil nothing (02, R39). -/
inductive ContentKind where
  | glyph | clipped | empty
  deriving DecidableEq, Repr

/-- The content events of a product, whose codes no table gives (assumption 47). -/
def contentEvent : ContentKind → EvCode
  | .glyph => ⟨.info, 13, (Config.contentLow 0).toNat⟩
  | .clipped => ⟨.info, 13, (Config.contentLow 1).toNat⟩
  | .empty => ⟨.info, 13, (Config.contentLow 2).toNat⟩

/-- A text set from `pen` on has a glyph that leaves the slot's bounding box. -/
def textLeaves (g : GlyphSet) (s : SlotEnt) (base : Int) : List Nat → Int → Bool
  | [], _ => false
  | c :: t, pen =>
    match g.glyph c with
    | none => textLeaves g s base t pen
    | some gl =>
      let x := pen + gl.left
      let y := Config.glyphTop base gl.base
      (decide (0 < gl.width) && decide (0 < gl.height)
        && (decide (x < s.sx0) || decide ((s.sx1 : Int) < x + gl.width) || decide (y < s.sy0) || decide ((s.sy1 : Int) < y + gl.height)))
        || textLeaves g s base t (pen + gl.advance)

/-- What a product's slot primitives find (R38, R39): by slot, in order. -/
def Job.contents (j : Job) (u : RunRec) (p : ProdRec) : List (Nat × ContentKind) :=
  (u.slots.filter (fun s => !p.vals.any (fun v => v.id = s.id))).map (fun s => (s.id, .empty))
    ++ ((j.layersOf u).flatMap (·.prims)).flatMap (fun x =>
      match x with
      | .textSlot _ slot gs _ X Y =>
        match p.vals.find? (fun v => v.id = slot), j.glyphs.find? (fun g => g.id = gs), u.slots.find? (fun s => s.id = slot) with
        | some v, some g, some s =>
          let codes := utf8 v.bytes.length v.bytes
          (if codes.any (fun c => !g.glyphs.any (fun y => y.code = c)) then [(slot, ContentKind.glyph)] else [])
            ++ (if textLeaves g s Y codes X then [(slot, ContentKind.clipped)] else [])
        | _, _, _ => []
      | _ => [])

/-- The products whose first line lies in a band report their contents when the band is posted (R39; assumption 47). -/
def Dev.reportContents (d : Dev) (j : Job) (r : JobRec) (b : Nat) : Dev :=
  d.forEach ((bandLines r b).filter (fun n => decide (n % r.pitch = 0))) (fun d n =>
    match j.runAt r n, j.prods.find? (fun p => p.pn = r.firstPn + n / r.pitch) with
    | some u, some p => d.forEach (j.contents u p) (fun d x => d.raise (contentEvent x.2) (le 4 j.jn ++ le 4 p.pn ++ le 1 x.1))
    | _, _ => d)

/-- WORK_POST: Reckoners released since the last band join the active set (R78); descriptors that waited for a Reckoner are posted
(R421); the front posts its next band, at most 8 ahead of the oldest one not handed over (R61), or waits for a product's record or for
a Reckoner (R75); with no band to post a cache column is. -/
def Dev.workPost (d : Dev) (seeds : List Nat) : Dev :=
  let d := d.setActive d.ableMask
  if d.rkCount < 2 then d
  else
    let x := Dev.repost (d.postStuck, seeds)
    let d := Dev.normFront 5 x.1
    match d.rk.front with
    | none => (Dev.postCache (d, x.2)).startAll
    | some (jn, b) =>
      match d.job jn with
      | none => d
      | some j =>
        match j.rec? with
        | none => d
        | some r =>
          if 8 < d.rk.ahead.length || d.rk.stuck != [] then (Dev.postCache (d, x.2)).startAll
          else
            match j.awaited r b with
            | some pn =>
              let d := if d.rk.starved = some (jn, pn) then d else d.raise Ev.JOB_STARVED (le 4 jn ++ le 4 pn)
              (Dev.postCache (d.updRk (fun k => { k with starved := some (jn, pn) }), x.2)).startAll
            | none =>
              let d := (Dev.postBand (d.reportContents j r b, x.2) j r b).1
              let d := d.updRk (fun k => { k with ahead := k.ahead ++ [(jn, b)], front := some (jn, b + 1), starved := none })
              (Dev.normFront 5 d).startAll

/-- WORK_POST (R61): the seeds that the random generator gives, one for each band-column posted (R71). -/
def execWorkPost (seeds : List U32) (s : State) : Out :=
  s.act fun d => if d.st.idleToHold && d.runs .sv0 then d.workPost (seeds.map (·.toNat)) else d

/-! ### Hand-over (R60, R70) -/

/-- Sum of `RKC_BUSY`. -/
def Dev.busySum (d : Dev) : Nat := ((List.range 16).map (fun i => d.rd .RKC_BUSY_CYC i)).foldl (· + ·) 0

/-- k of R70 after a band: first-order filter of 64 bands over measured to estimated cycles. -/
def Dev.updateK (d : Dev) (est : Nat) : Dev :=
  let busy := d.busySum
  let cycles := (busy + 2 ^ 36 - d.rk.busy) % 2 ^ 32
  let ratio : Nat := if est = 0 then d.rk.k else cycles * 2 ^ 24 / est
  d.updRk (fun k => { k with busy := busy, k := ((k.k : Int) + ((ratio : Int) - k.k) / 64).toNat })

/-- The oldest band is handed over when every column of it has passed. -/
def Dev.handOne (d : Dev) : Option Dev :=
  match d.rk.ahead with
  | [] => none
  | (jn, b) :: rest =>
    match d.job jn with
    | none => none
    | some j =>
      match j.rec? with
      | none => none
      | some r =>
        let mine := d.rk.tiles.filter (fun t => decide (t.id.jn = jn) && t.id.run.isNone && decide (t.id.band = b))
        if (List.range (d.columns r)).all (fun c => mine.any (fun t => t.passed && decide (t.id.col = c))) then
          let cached := fun (c : Nat) => mine.any (fun t => decide (t.id.col = c) && t.cached)
          let last := decide (j.frontLines r ≤ 16 * (b + 1))
          let n := if last then (j.limit.getD r.products) else 16 * (b + 1) / r.pitch
          let done := last && !d.rk.finished.elem jn
          let d := d.updateK (d.bandCost j r b cached)
          let d := d.updJob jn (fun j => { j with rendered := max j.rendered (min n r.products) })
          let gone := fun (e : CacheEnt) => decide (e.jn = jn) && j.runs.any (fun u => decide (u.idx = e.run)
            && decide ((u.pn + u.count - r.firstPn) * r.pitch ≤ 16 * (b + 1)))
          some (d.updRk (fun k => { k with
            ahead := rest, tiles := k.tiles.filter (fun t => !mine.elem t),
            handed := k.handed ++ [{ jn := jn, band := b, tiles := mine, dosed := [] }],
            seeds := k.seeds.filter (fun x => !(x.1.jn = jn ∧ x.1.run = none ∧ x.1.band = b)),
            wits := k.wits.filter (fun w => !(w.id.jn = jn ∧ w.id.run = none ∧ w.id.band = b)),
            finished := if done then k.finished ++ [jn] else k.finished, cache := k.cache.filter (fun e => !gone e) }))
        else none

/-- Hand over every band that is complete. -/
def Dev.handOver : Nat → Dev → Dev
  | 0, d => d
  | fuel + 1, d =>
    match d.handOne with
    | some d' => Dev.handOver fuel d'
    | none => d

/-! ### Finished work -/

/-- The descriptor that RKi executes. -/
def Dev.execOf (d : Dev) (i : Nat) (kind : WorkKind) : Option Work :=
  d.rk.work.find? (fun w => decide (w.exec = some i) && decide (w.kind = kind))

/-- A descriptor is finished: it leaves its ring, whose next completion names RKi in `BY` (R62), and its RCK cycles are counted. -/
def Dev.finishWork (d : Dev) (i : Nat) (w : Work) : Dev :=
  (d.updRk (fun k => { k with work := k.work.filter (· ≠ w), done := k.done ++ [(w.ring, i)] })).addBusy i w

/-- What follows a finished descriptor: bands are handed over, Reckoners start their next work. -/
def Dev.settleRk (d : Dev) : Dev := (Dev.handOver 9 d).startAll

/-- A render or cache build is finished. -/
def Dev.tileDone (d : Dev) (i : Nat) (kind : WorkKind) (out : TileOut) : Dev :=
  match d.execOf i kind with
  | none => d
  | some w =>
    let d := d.finishWork i w
    let t : TileRec := { id := w.id, renderer := i, witness := w.wit, cached := w.cached, out := out, passed := false }
    ((d.updRk (fun k => { k with tiles := k.tiles ++ [t] })).compareTile w.id).settleRk

/-- BAND_COLUMN_RENDERED (R60). -/
def execBandColumnRendered (rk : RkNo) (tile : TileOut) (s : State) : Out := s.act (·.tileDone rk .render tile)

/-- CACHE_BUILD_DONE (R67). -/
def execCacheBuildDone (rk : RkNo) (tile : TileOut) (s : State) : Out := s.act (·.tileDone rk .cache tile)

/-- WITNESS_DONE (R72). -/
def execWitnessDone (rk : RkNo) (wrong : List Sample) (s : State) : Out :=
  s.act fun d =>
    match d.execOf rk .witness with
    | none => d
    | some w =>
      let d := d.finishWork rk w
      ((d.updRk (fun k => { k with wits := k.wits ++ [{ id := w.id, witness := rk, wrong := wrong }] })).compareTile w.id).settleRk

/-- The outcome of a third render (Table 3-5). -/
def Dev.majority (d : Dev) (t : TileRec) (third : Nat) (out : TileOut) : Dev :=
  match d.job t.id.jn, d.rk.wits.find? (fun x => x.id = t.id) with
  | some j, some w =>
    match j.rec? with
    | none => d
    | some r =>
      if j.agree r t.id t.out.diff out.diff (d.inTile r t) then (d.passTile t.id).strike t.witness 1
      else if j.agree r t.id out.diff w.wrong (d.atWitness r t) then
        let d := d.updRk (fun k => { k with tiles := k.tiles.map (fun x => if x.id = t.id then { x with out := out, renderer := third } else x) })
        (d.passTile t.id).strike t.renderer 1
      else d.noMajority t third
  | _, _ => d

/-- THIRD_RENDER_DONE (R74). -/
def execThirdRenderDone (rk : RkNo) (tile : TileOut) (s : State) : Out :=
  s.act fun d =>
    match d.execOf rk .third with
    | none => d
    | some w =>
      let d := d.finishWork rk w
      match d.tileOf w.id with
      | some t => (d.majority t rk tile).settleRk
      | none => d.startAll

/-- The descriptor that RKi executes, of any `KIND`. -/
def Dev.anyExec (d : Dev) (i : Nat) : Option Work := d.rk.work.find? (fun w => w.exec = some i)

/-- A Reckoner fails at a descriptor: strike, and the descriptor goes to another under R421. -/
def Dev.failWork (d : Dev) (i cause : Nat) (w : Work) : Dev :=
  let d := ((d.updRk (fun k => { k with work := k.work.filter (· ≠ w) })).addBusy i w).strike i cause
  (d.requeue i w).settleRk

/-- Code of a trap cause in `RK_TRAP`. -/
def trapCode : TrapCause → Nat
  | .fetch => 1 | .illegal => 2 | .bus => 3 | .address => 4

/-- The trap is one on a poisoned instruction (R57). -/
def ownTrap (cause : TrapCause) (poisoned : Bool) : Bool := poisoned && decide (cause = .fetch)

/-- A Reckoner traps (R57, R76): on a poisoned instruction it starts its descriptor again; any other trap is a strike, and the
descriptor in progress, if any, goes to another Reckoner. -/
def Dev.rkTrap (d : Dev) (i : Nat) (cause : TrapCause) (poisoned : Bool) : Dev :=
  let d := d.raise Ev.RK_TRAP (le 1 i ++ le 1 (trapCode cause) ++ le 1 (bit (ownTrap cause poisoned)))
  match d.anyExec i with
  | none => if ownTrap cause poisoned then d else (d.strike i 2).settleRk
  | some w =>
    if ownTrap cause poisoned then
      (d.addBusy i w).updRk (fun k => { k with work := k.work.map (fun x => if x = w then { x with since := d.now } else x) })
    else d.failWork i 2 w

/-- RECKONER_TRAP (R57): a Reckoner that is held in reset or unpowered executes nothing and does not trap; a trap on a poisoned
instruction reloads its code. -/
def execReckonerTrap (rk : RkNo) (cause : TrapCause) (poisoned : Bool) (s : State) : Out :=
  if s.dev.rkActive rk then
    let s := if ownTrap cause poisoned then s.reloadRk rk else s
    s.act (·.rkTrap rk cause poisoned)
  else .next s

/-- RENDER_WATCHDOG (R76). -/
def execRenderWatchdog (rk : RkNo) (s : State) : Out :=
  s.act fun d =>
    match d.anyExec rk with
    | some w => if d.passed w.since (1000 * d.rd .RKC_CTL_WDOG) then d.failWork rk 3 w else d
    | none => d

end Sys2Proof.Machine
end

