-- ==== Sys2Proof/Machine/DoseLine.lean ====
section
/-! DEFINITION. The arithmetic of a dose pipeline on one line (04, R80 to R100, Tables 4-1 to 4-4): stages 0 to 6. -/
namespace Sys2Proof.Machine

/-! ### Geometry (R81, R83, R84) -/

/-- What a pipeline needs of its bar: pipeline, bar, index in the bar of its first head, its heads, all heads of the bar, cuff
width, first head slot. -/
structure PipeGeom where
  pipe : Nat
  bar : Nat
  head0 : Nat
  heads : Nat
  all : Nat
  cuff : Nat
  slot0 : Nat
  deriving DecidableEq, Repr

/-- The geometry of pipeline i. -/
def Dev.pipeGeom (d : Dev) (i : Nat) : PipeGeom :=
  let h := d.rd .DP_GEOM_HEADS i
  let c := d.rd .DP_GEOM_CUFF i
  let s := d.rd .DP_GEOM_SLOT0 i
  match d.rd .DP_CFG_GANG i with
  | 1 => ⟨i, i, 0, h, h + d.rd .DP_GEOM_HEADS (i + 1), c, s⟩
  | 2 => ⟨i, i - 1, 8, h, d.rd .DP_GEOM_HEADS (i - 1) + h, c, s⟩
  | _ => ⟨i, i, 0, h, h, c, s⟩

/-- N of the bar. -/
def PipeGeom.printable (g : PipeGeom) : Nat := g.all * 4096 - (g.all - 1) * g.cuff

/-- P of nozzle j of head h (index within the pipeline). -/
def PipeGeom.pos (g : PipeGeom) (h j : Nat) : Nat := (g.head0 + h) * (4096 - g.cuff) + j

/-- Channel of nozzle j of head h. -/
def PipeGeom.chan (g : PipeGeom) (h j : Nat) : Nat := (g.slot0 + h) * 4096 + j

/-! ### Rods (Table 4-4) -/

/-- OK or WEAK. -/
def rodWorks (rod : Nat) : Bool := decide (rod / 2 ^ 30 < 2)

/-- MASKED. -/
def rodIsMasked (rod : Nat) : Bool := decide (rod / 2 ^ 30 = 3)

/-- The rod of a channel in the Rod table. -/
def Dev.rod (d : Dev) (ch : Nat) : Nat := d.rd .ROD_ROD ch

/-! ### The line -/

/-- A line to be dosed: geometry, job and its record, line, plane of the bar (none on an unmapped bar), the tiles of its band. -/
structure LineCtx where
  g : PipeGeom
  job : Job
  jr : JobRec
  n : Nat
  plane : Option Nat
  tiles : List TileRec
  deriving DecidableEq, Repr

/-- The tile that holds a printable position, with its pixel. -/
def LineCtx.tileAt (c : LineCtx) (x : Nat) : Option (TileRec × Nat) :=
  (c.tiles.find? (fun t => t.id.col = x / c.jr.colWidth)).map (fun t => (t, x % c.jr.colWidth))

/-- The contone at a source position (R85), from the tile's word (03, R59); 0 off the bar and on an unmapped bar. -/
def LineCtx.contone (c : LineCtx) (x : Int) : Nat :=
  match c.plane with
  | none => 0
  | some p =>
    if x < 0 || (c.g.printable : Int) ≤ x then 0
    else
      match c.tileAt x.toNat with
      | some (t, px) => c.job.tileWord c.jr t.id t.out.diff (c.jr.tileOfs p (c.n % 16) px)
      | none => 0

/-- A poisoned sample stands at a source position (R105). -/
def LineCtx.poisoned (c : LineCtx) (x : Int) : Bool :=
  match c.plane with
  | none => false
  | some p =>
    if x < 0 || (c.g.printable : Int) ≤ x then false
    else
      match c.tileAt x.toNat with
      | some (t, px) => t.out.poison.any (fun s => decide (s.plane.val = p) && decide (s.line.val = c.n % 16) && decide (s.x.val = px))
      | none => false

/-- q of R85 for nozzle j of head h. -/
def Dev.gatherPos (d : Dev) (c : LineCtx) (h j : Nat) : Int :=
  let lat := if d.flag .DP_CFG_LATCOMP c.g.pipe then signed 8 (d.rod (c.g.chan h j) / 256) else 0
  64 * (c.g.pos h j : Int) - d.srd .DP_SHIFT_CUR c.g.pipe + lat

/-- The line consumes a poisoned sample. -/
def Dev.linePoisoned (d : Dev) (c : LineCtx) : Bool :=
  (List.range c.g.heads).any (fun h => (List.range 4096).any (fun j =>
    let x0 := d.gatherPos c h j / 64
    c.poisoned x0 || c.poisoned (x0 + 1)))

/-- trc[curve][c] of the curve set in force (R88). -/
def Dev.trc (d : Dev) (curve v : Nat) : Nat :=
  match d.curveSet, d.boot.content with
  | some s, some c => nth (((c.curves.find? (fun x => x.1 = s)).bind (fun x => x.2[curve]?)).getD []) v
  | _, _ => 0

/-- Stage 1 (R87): a sample corrected with the rod of the destination nozzle. -/
def Dev.correct (d : Dev) (rod v : Nat) : Nat :=
  min 65535 ((d.trc (bitsOf rod 24 6) v * bitsOf rod 16 8 + 64) / 128)

/-- Stages 0 to 2 (R85, R87, R89): the tone of a channel. -/
def Dev.shiftTone (d : Dev) (c : LineCtx) (h j : Nat) : Nat :=
  let q := d.gatherPos c h j
  let x0 := q / 64
  let f := (q % 64).toNat
  let rod := d.rod (c.g.chan h j)
  (d.correct rod (c.contone x0) * (64 - f) + d.correct rod (c.contone (x0 + 1)) * f + 32) / 64

/-- The partner of nozzle j of head h: its rod's channel, the cuff offset, whether j lies on the lower head (R81). -/
def PipeGeom.partner (g : PipeGeom) (h j : Nat) : Option (Nat × Nat × Bool) :=
  if 0 < g.head0 + h && decide (j < g.cuff) then some (g.chan h j - 4096 + (4096 - g.cuff), j, false)
  else if decide (g.head0 + h + 1 < g.all) && decide (4096 - g.cuff ≤ j) then
    some (g.chan h j + 4096 - (4096 - g.cuff), j - (4096 - g.cuff), true)
  else none

/-- The screen of a bar in the screen set in force. -/
def Dev.screen (d : Dev) (bar : Nat) : Option ScreenTile :=
  match d.screenSet, d.boot.content with
  | some s, some c => (c.screens.find? (fun x => x.1 = s)).bind (fun x => x.2.find? (fun t => t.bar = bar))
  | _, _ => none

/-- The stitch mask selects the lower head at cuff offset i of line n (R95). -/
def Dev.lowerSelected (d : Dev) (g : PipeGeom) (n i : Nat) : Bool :=
  let s := ((d.screen g.bar).map (fun t => nth t.stitch ((n + d.rd .DP_SCREEN_YOFS g.pipe) % 64 * 64 + i % 64))).getD 0
  decide (s < (2 * (g.cuff - i) - 1) * 256 / (2 * g.cuff))

/-- Stage 4's choice of nozzle j of head h (R93, R95). -/
def Dev.selected (d : Dev) (c : LineCtx) (h j : Nat) : Bool :=
  match c.g.partner h j with
  | none => true
  | some (ch, i, lower) =>
    let me := rodWorks (d.rod (c.g.chan h j))
    let it := rodWorks (d.rod ch)
    if me != it then me else decide (d.lowerSelected c.g c.n i = lower)

/-! ### Stage 3: glove (R91 to R93) -/

/-- The nozzle is gloved: DEAD or MASKED, and no working partner prints its position. -/
def Dev.gloved (d : Dev) (c : LineCtx) (h j : Nat) : Bool :=
  !rodWorks (d.rod (c.g.chan h j))
    && (match c.g.partner h j with
        | some (ch, _, _) => !rodWorks (d.rod ch)
        | none => true)

/-- Offer a contribution to a neighbour; answers the tones and the shortfall. -/
def Dev.offer (d : Dev) (c : LineCtx) (h : Nat) (v w : Nat) (acc : List Nat × Nat) (nb : Int) : List Nat × Nat :=
  let q := (v * w + 128) / 256
  let k := nb.toNat
  if nb < 0 || 4096 ≤ nb || !rodWorks (d.rod (c.g.chan h k)) || !d.selected c h k then (acc.1, acc.2 + q)
  else
    let room := 65535 - nth acc.1 k
    (acc.1.set k (nth acc.1 k + min q room), acc.2 + (q - min q room))

/-- The four contributions of a gloved nozzle with its tone of stage 2. -/
def Dev.gloveOne (d : Dev) (c : LineCtx) (h : Nat) (tones : List Nat) (acc : List Nat × Nat) (j : Nat) : List Nat × Nat :=
  let cls := bitsOf (d.rod (c.g.chan h j)) 4 4
  let w1 := d.rd .DP_GLOVE_W1 c.g.pipe cls
  let w2 := d.rd .DP_GLOVE_W2 c.g.pipe cls
  let v := nth tones j
  [((j : Int) - 1, w1), ((j : Int) + 1, w1), ((j : Int) - 2, w2), ((j : Int) + 2, w2)].foldl
    (fun acc x => d.offer c h v x.2 acc x.1) acc

/-- Stages 3 and 4 of a head: tones and shortfall. -/
def Dev.glove (d : Dev) (c : LineCtx) (h : Nat) (tones : List Nat) : List Nat × Nat :=
  let out := ((List.range 4096).filter (d.gloved c h)).foldl (d.gloveOne c h tones) (tones, 0)
  ((List.range 4096).map (fun j =>
    if !rodWorks (d.rod (c.g.chan h j)) || !d.selected c h j then 0 else nth out.1 j), out.2)

/-! ### Stages 5 and 6 (R96 to R99) -/

/-- Stage 5: the number of thresholds that a tone exceeds (R96). -/
def Dev.screenCode (d : Dev) (c : LineCtx) (p v : Nat) : Nat :=
  match d.screen c.g.bar with
  | none => 0
  | some t =>
    let cell := (c.n + d.rd .DP_SCREEN_YOFS c.g.pipe) % t.th * t.tw + (p + d.rd .DP_SCREEN_XOFS c.g.pipe) % t.tw
    let m := if d.flag .DP_CFG_LEVELS c.g.pipe then 3 else 7
    ((List.range m).filter (fun k => nth t.thr (7 * cell + k) < v)).length

/-- The `CODE` of the lowest working Brim row that covers the channel at offset u of the gap (R98). -/
def Dev.brimCode (d : Dev) (c : LineCtx) (u h j : Nat) : Option Nat :=
  let p := c.g.pos h j
  ((d.dp c.g.pipe).brim.find? (fun r =>
    (decide (r.kind = 1) || decide (r.kind = 2)) && decide (r.ofs ≤ u) && decide (u < r.ofs + r.lines) && bitOf r.heads h
      && decide (r.x0 ≤ p) && (decide (r.x1d = 0) || decide (p < r.x0 + 256 * r.x1d))
      && (decide (r.kind = 2) || decide (j % 16 = d.rd .DP_BRIM_PHASE_CUR c.g.pipe)))).map (·.code)

/-- A channel of a Brim line spits (rule 3 of Table 4-3). -/
def Dev.spits (d : Dev) (c : LineCtx) (u j : Nat) : Bool :=
  let i := c.g.pipe
  let o := d.rd .DP_SPIT_OFS i
  let div := if d.rd .DP_SPIT_DIV i = 0 then 16 else d.rd .DP_SPIT_DIV i
  decide (o ≤ u) && decide (u < o + d.rd .DP_SPIT_LINES i) && decide (j % div = (u - o) % div)

/-- The final code of a channel by Table 4-3, from its code of stage 5; an unmapped bar has its spit lines and no other code (02, R33). -/
def Dev.insertCode (d : Dev) (c : LineCtx) (h j code : Nat) : Nat :=
  let y := c.n % c.jr.pitch
  let brim := decide (c.jr.prodLines ≤ y)
  let u := y - c.jr.prodLines
  let p := c.g.pos h j
  let i := c.g.pipe
  if rodIsMasked (d.rod (c.g.chan h j)) then 0
  else
    match if brim && c.plane.isSome then d.brimCode c u h j else none with
    | some k => k
    | none =>
      if brim && d.spits c u j then d.rd .DP_SPIT_CODE i
      else if !brim && c.plane.isSome && d.flag .DP_SPIT_IMG_EN i && decide (code = 0)
          && decide ((p + c.n * d.rd .DP_SPIT_IMG_STEP i) % d.rd .DP_SPIT_IMG_PERIOD i = 0) then 1
      else code

/-- Codes of one head and its shortfall. -/
def Dev.headCodes (d : Dev) (c : LineCtx) (h : Nat) : List Nat × Nat :=
  let (tones, short) := d.glove c h ((List.range 4096).map (d.shiftTone c h))
  (tones.zipIdx.map (fun x => d.insertCode c h x.2 (d.screenCode c (c.g.pos h x.2) x.1)), short)

/-! ### Output (R100) -/

/-- Bits of a code. -/
def Dev.codeBits (d : Dev) (i : Nat) : Nat := if d.flag .DP_CFG_LEVELS i then 2 else 3

/-- Bytes of a head-line. -/
def headLineSize (bits : Nat) : Nat := 512 * bits

/-- A head-line: the code of nozzle j at bit `bits` · j of a little-endian bit string; a register's code of 3 bits gives its lowest 2
where codes have 2 (assumption 54). -/
def packCodes (bits : Nat) (codes : List Nat) : List Byte :=
  le (headLineSize bits) (codes.reverse.foldl (fun acc k => acc * 2 ^ bits + k % 2 ^ bits) 0)

/-- The line's head-lines in ascending h, and its shortfall. -/
def Dev.dosedLine (d : Dev) (c : LineCtx) : List Byte × Nat :=
  let hs := (List.range c.g.heads).map (d.headCodes c)
  (hs.flatMap (fun x => packCodes (d.codeBits c.g.pipe) x.1), (hs.map (·.2)).foldl (· + ·) 0)

/-- A line with every code 0. -/
def Dev.zeroLine (d : Dev) (g : PipeGeom) : List Byte := List.replicate (g.heads * headLineSize (d.codeBits g.pipe)) (toByte 0)

end Sys2Proof.Machine
end

