-- ==== Sys2Proof/Machine/Lead.lean ====
section
/-! DEFINITION. The lead of the runway (05, R125, R126), the level of the codec (R120), the descriptors of the RQ rings and the page
budget (R112, R116). -/
namespace Sys2Proof.Machine

/-! ### Rings (01, Tables 1-6 and 1-7) -/

/-- Descriptors that a ring holds. -/
def Dev.ringSize (d : Dev) (r : Nat) : Nat := 2 ^ (d.rd .DMA_RCFG_SIZE r + 4)

/-- Descriptors between the hardware's index and the firmware's: handed over and not processed. -/
def Dev.ringLeft (d : Dev) (r : Nat) : Nat :=
  if d.flag .DMA_RCFG_EN r then (d.rd .DMA_RTAIL_IDX r + d.ringSize r - d.rd .DMA_RHEAD_IDX r % d.ringSize r) % d.ringSize r else 0

/-- Ring RQi. -/
def rq (i : Nat) : Nat := 24 + i

/-- POSTED descriptors of RQi that no slot uses (R116). -/
def Dev.posted (d : Dev) (i : Nat) : Nat :=
  d.ringLeft (rq i) - ((d.rw i).slots.filter (fun s => decide (s.st = .filling) || decide (s.st = .stopped))).length

/-! ### Page budget (R112, R124) -/

/-- Entries of a page list. -/
def plSize : Nat := 524288

/-- Pages between `WR` and `TAIL`: the page being written and the budget. -/
def Dev.pagesLeft (d : Dev) (i : Nat) : Nat := (d.rd .RW_PL_TAIL_IDX i + plSize - d.rd .RW_PL_WR_IDX i) % plSize

/-- The page budget: entries from `WR` + 1 up to `TAIL` - 1. -/
def Dev.budget (d : Dev) (i : Nat) : Nat := d.pagesLeft i - 1

/-- Bytes that the compressor can still write from its write point on. -/
def Dev.space (d : Dev) (i : Nat) : Nat := if d.pagesLeft i = 0 then 0 else 65536 * d.pagesLeft i - (d.rw i).ofs

/-- The space that R124 asks for. -/
def Dev.startSpace (d : Dev) (i : Nat) : Nat := min 4 (d.rd .RW_CFG_START_PAGES i) * 65536

/-! ### Lead (R125) -/

/-- The bar that a pipeline serves. -/
def Dev.pipeBar (d : Dev) (i : Nat) : Nat := if d.rd .DP_CFG_GANG i = 2 then i - 1 else i

/-- The first line of a job at or after n that pipeline i holds neither in its FIFOs nor in a READY slot; lines that an armed
skip covers count as held (R129). -/
def Dev.heldEnd (d : Dev) (i jn n : Nat) : Nat :=
  let fifo := (((d.lane (d.rd .DP_GEOM_SLOT0 i)).fifo.filter (fun f => f.jn = jn)).map (·.line + 1))
  let slots := (((d.rw i).slots.filter (fun s => decide (s.jn = jn) && decide (s.st = .ready) && !s.gone)).map (fun s => s.line + s.count))
  let skip := if d.flag .RW_SKIP_CTL_ARM i && decide (d.rd .RW_SKIP_JN_JN i = jn) then [d.rd .RW_SKIP_LINE_LINE i] else []
  nextKept d.fire.dropped (d.pipeBar i) jn d.fire.dropped.length ((fifo ++ slots ++ skip).foldl max n)

/-- The first line that bar i's pipeline must still supply. -/
def Dev.missing (d : Dev) (i bar : Nat) : Option (Pl × Nat) :=
  match d.due bar with
  | none => none
  | some (jn, n) =>
    (d.placements.dropWhile (fun p => p.jn != jn)).findSome? (fun p =>
      let m := d.heldEnd i p.jn (if p.jn = jn then n else 0)
      if m < p.lines then some (p, m) else none)

/-- `RW_BLEAD[i]`. -/
def Dev.barLead (d : Dev) (i : Nat) : Nat :=
  match d.missing i (d.pipeBar i) with
  | none => 0xFFFFFFFF
  | some (p, m) => min 0xFFFFFFFE (rel38 (d.duePos p m (d.pipeBar i)) d.fire.pos / 2 ^ 38).toNat

/-- Bring `RW_BLEAD`, `RW_LEAD` and `RW_LEADBAR` up to date. -/
def Dev.refreshLead (d : Dev) : Dev :=
  let d := d.forEach d.pipes (fun d i => d.wr .RW_BLEAD_COUNTS (d.barLead i) i)
  let least := (d.pipes.map (fun i => d.rd .RW_BLEAD_COUNTS i)).foldl min 0xFFFFFFFF
  let bar := (d.pipes.find? (fun i => d.rd .RW_BLEAD_COUNTS i = least)).getD 0
  (d.wr .RW_LEAD_COUNTS least).wr .RW_LEADBAR_BAR bar

/-! ### Level (R120) -/

/-- The decision at the start of a band: the new effective level and `since`. -/
def levelStep (auto : Bool) (cfg eff since lead req m : Nat) : Nat × Nat :=
  if !auto then (cfg, since)
  else if lead < req + m then (eff - 1, 0)
  else if req + 2 * m ≤ lead && decide (64 ≤ since) && decide (eff < cfg) then (eff + 1, 0)
  else (eff, since + 1)

/-- Decide the effective level; a change is reported. -/
def Dev.decideLevel (d : Dev) : Dev :=
  let lead := d.rd .RW_LEAD_COUNTS
  let (eff, since) := levelStep (d.flag .RW_XCFG_AUTO) (d.rd .RW_XCFG_LEVEL) (d.rd .RW_XCFG_EFF) d.lvSince lead
    (d.rd .RW_LEADREQ_COUNTS) (256 * d.rd .RW_XCFG_DMARGIN)
  let was := d.rd .RW_XCFG_EFF
  let d : Dev := { d with lvSince := since }
  let d := d.wr .RW_XCFG_EFF eff
  if eff = was then d else d.raise Ev.XDC_LEVEL (le 1 eff ++ le 4 lead)

end Sys2Proof.Machine
end

