-- ==== Sys2Proof/Machine/Plan.lean ====
section
/-! DEFINITION. What VS plans at a product start: the shift target and hand-over steps (10, R258, R259), the Brim rows and the
stripe phase (R241, R243). -/
namespace Sys2Proof.Machine

/-- The Brim plan (10, Table 10-1). -/
def Dev.plan (d : Dev) : Option BrimPlan := d.boot.content.map (·.plan)

/-- Time in ns that `n` lines of a job take at the speed ceiling; none while the ceiling is 0. -/
def Dev.linesNs (d : Dev) (jn n : Nat) : Option Nat :=
  let v := d.rd .AB_CEIL_C
  match d.plOf jn with
  | some p => if v = 0 then none else some (n * p.pitch * 1000000000 / (2 ^ 32 * v))
  | none => none

/-! ### Hand-over steps (R258, R259) -/

/-- Duration in ns of an axis move of `n` steps from rest. -/
def Dev.moveNs (d : Dev) (axis : Nat) (n : Int) : Nat :=
  let x : Prof := default
  ((x.planTo (d.kin axis) (n * 2 ^ 32)).segs.map (·.dur)).foldl (· + ·) 0

/-- A step of `s` fits in the Brim gap of a product of the job. -/
def Dev.stepFits (d : Dev) (axis jn : Nat) (s : Int) : Bool :=
  match (d.job jn).bind (·.rec?) with
  | some r =>
    match d.linesNs jn r.brimLines, d.linesNs jn (2 * d.rd .VL_HAND_HGUARD) with
    | some gap, some guard =>
      decide (d.moveNs axis (roundDiv (s * inchPm) (64 * 1200 * d.rd .AX_SCALE_PM axis)) + 50000 + guard ≤ gap)
    | _, _ => true
  | none => false

/-- The largest of s, s/2, s/4, ... that fits, down to 16; 0 when none does. -/
def Dev.fitStep (d : Dev) (axis jn : Nat) : Nat → Int → Int
  | 0, _ => 0
  | fuel + 1, s => if s.natAbs < 16 then 0 else if d.stepFits axis jn s then s else d.fitStep axis jn fuel (s / 2)

/-- T_k in 1/64 pitch. -/
def BarLoop.target (l : BarLoop) : Int := roundDiv (-l.e * 64) 65536

/-- A step waits for its product-start report. -/
def BarLoop.waiting (l : BarLoop) : Option HandStep := l.steps.find? (fun s => s.prod.isNone)

/-- Write `DP_SHIFT.NEXT` of a bar: within its range, and the event beyond it. -/
def Dev.putShift (d : Dev) (bar : Nat) (sh : Int) : Dev :=
  let d :=
    if 2047 < sh.natAbs then d.raise Ev.REG_LAT_RANGE (le 1 bar ++ le 4 (unsign 32 (d.barLoop bar).target)) else d
  let v := clampInt (-2047) 2047 sh
  if 4 ≤ (v - d.srd .DP_SHIFT_CUR bar).natAbs then d.wr .DP_SHIFT_NEXT (unsign 12 v) bar else d

/-- The shift target of a bar (R258): SH_k, less the part of a step that waits for its product. -/
def Dev.latUpdate (d : Dev) (bar : Nat) : Dev :=
  let l := d.barLoop bar
  let a := d.actOf bar
  let sh := l.target - a
  let d := (d.wr .VL_LAT_SH (satSigned 16 sh) bar).wr .VL_LAT_ACT (satSigned 16 a) bar
  let d := d.updBar bar (fun l =>
    { l with handing := if 512 < sh.natAbs then true else if sh.natAbs ≤ 64 then false else l.handing })
  d.putShift bar (sh - (l.waiting.map (·.s)).getD 0)

/-- The next product of a bar belongs to the job of the last one reported. -/
def Dev.sameJobNext (d : Dev) (bar : Nat) : Option Nat :=
  match d.loops.reports.reverse.find? (fun r => r.bar = bar) with
  | some r =>
    match (d.job r.jn).bind (·.rec?) with
    | some j => if r.pn + 1 < j.firstPn + j.products then some r.jn else none
    | none => none
  | none => none

/-- Plan a hand-over step (R259): one waits at a time, and none for the first product of a job. -/
def Dev.planStep (d : Dev) (bar : Nat) : Dev :=
  let l := d.barLoop bar
  match d.axisOf bar, d.sameJobNext bar with
  | some a, some jn =>
    if !d.flag .VL_CTL_HANDEN || !l.handing || l.waiting.isSome || !d.axAccepts a false || d.rd .AX_SCALE_PM a = 0 then d
    else
      let act := d.actOf bar
      let lim : Int := d.rd .VL_HAND_HCUR
      let s := d.fitStep a jn 10 (clampInt (-lim) lim (l.target - act))
      if s = 0 then d
      else
        let st : HandStep := { s := s, target := act + s, prod := none, moving := false, lateAt := none }
        let d := d.updBar bar (fun l => { l with a := act, steps := l.steps ++ [st] })
        d.wr .DP_SHIFT_NEXT (unsign 12 (clampInt (-2047) 2047 (l.target - act - s))) bar
  | _, _ => d

/-- The register loop acts on the bar: it is in use, and the bar is not the reference (R257). -/
def Dev.registers (d : Dev) (bar : Nat) : Bool :=
  d.flag .VL_CTL_REGEN && (match d.plan with | some p => decide (bar ≠ p.refBar) | none => false)

/-- A step that waits takes the product reported. -/
def HandStep.take (s : HandStep) (jn pn line : Nat) : HandStep :=
  if s.prod.isNone then { s with prod := some (jn, pn, line) } else s

/-- The product-start report reaches VS: a step that waits takes the product; at the first product of a job the step in use
returns to `HSTEP` (R259). -/
def Dev.stepTake (d : Dev) (bar jn pn line : Nat) : Dev :=
  let d := if line = 0 then d.wr .VL_HAND_HCUR (d.rd .VL_HAND_HSTEP) else d
  match (d.barLoop bar).waiting with
  | some w => d.updBar bar (fun l => { l with a := w.target, steps := l.steps.map (·.take jn pn line) })
  | none => d

/-- The next step of a bar is planned; hand-over ends once |SH_k| is 64 or less (R259). -/
def Dev.planBar (d : Dev) (bar : Nat) : Dev :=
  if !d.registers bar || !(d.barLoop bar).handing then d
  else if ((d.barLoop bar).target - d.actOf bar).natAbs ≤ 64 then d.updBar bar (fun l => { l with handing := false })
  else d.planStep bar

/-! ### Brim rows and phases (R241, R243) -/

/-- M: one gap in every M is measured (R243). -/
def Dev.measureEvery (d : Dev) (jn : Nat) : Nat :=
  match d.linesNs jn (d.pitchOf jn) with
  | some ns => max 1 (ceilDiv Config.frameInterval.toNat ns)
  | none => 1

/-- The number of a product that has started: none while it has not started, `none` inside for a gap that is not measured. -/
def Dev.numberOf (d : Dev) (jn pn : Nat) : Option (Option Nat) :=
  (d.loops.numbered.find? (fun x => decide (x.1 = jn) && decide (x.2.1 = pn))).map (·.2.2)

/-- A product starts to be dosed, on the first bar that does: whether its gap is to be measured, and its number among those (R243). -/
def Dev.countStart (d : Dev) (jn pn : Nat) : Dev :=
  if (d.numberOf jn pn).isSome then d
  else
    let l := d.loops
    let measured := decide (l.since = 0)
    let c := if measured && l.last.isSome then l.count + 1 else l.count
    let since := (l.since + 1) % d.measureEvery jn
    let d : Dev := { d with loops := { d.loops with last := some (jn, pn), since := since, count := c
                                                    numbered := l.numbered ++ [(jn, pn, if measured then some c else none)] } }
    (d.wr .VL_CYCLE_PHASE c).wr .VL_CYCLE_CYCLES ((c + 1) / 16)

/-- e_k in pitches for the stripe phase: relative to the other bar of the same window; 0 without one. -/
def Dev.phaseShift (d : Dev) (p : BrimPlan) (bar : Nat) : Int :=
  match d.bars.find? (fun b => decide (b.bar ≠ bar) && decide (nth p.win b.bar = nth p.win bar)) with
  | some b => roundDiv ((d.barLoop bar).e - (d.barLoop b.bar).e) 65536
  | none => 0

/-- Write a Brim row of a pipeline; a row that would reach the gap's end is disabled (R241). -/
def Dev.brimRow (d : Dev) (i r kind code ofs lines x0 x1d brim : Nat) : Dev :=
  let d := ((d.wr .DP_BRIM_A_KIND (if ofs + lines ≤ brim then kind else 0) i r).wr .DP_BRIM_A_CODE code i r).wr .DP_BRIM_A_HEADS 0xFF i r
  (((d.wr .DP_BRIM_A_OFS ofs i r).wr .DP_BRIM_B_X0 x0 i r).wr .DP_BRIM_B_LINES lines i r).wr .DP_BRIM_B_X1D x1d i r

/-- VS writes the Brim rows and the phase of a product before it starts to be dosed on pipeline i of a bar; a product whose gap is not
measured repeats the phase that stands (R241, R243). -/
def Dev.visRows (d : Dev) (i bar jn pn : Nat) : Dev :=
  match d.plan, (d.job jn).bind (·.rec?) with
  | some p, some r =>
    match p.ladder[bar]? with
    | none => d
    | some (ofs, lines) =>
      let d := d.countStart jn pn
      let d := d.brimRow i 0 1 p.lcode ofs lines 0 0 r.brimLines
      let d := d.forEach (List.range (min 4 p.markX0.length)) (fun d g =>
        d.brimRow i (g + 1) 2 p.mcode p.markOfs p.markLines (nth p.markX0 g + p.markStep * bar) 1 r.brimLines)
      match d.numberOf jn pn with
      | some (some c) => d.wr .DP_BRIM_PHASE_NEXT ((((c + nth p.sigma bar : Nat) : Int) - d.phaseShift p bar) % 16).toNat i
      | _ => d
  | _, _ => d

end Sys2Proof.Machine
end

