-- ==== Sys2Proof/Machine/Dose.lean ====
section
/-! DEFINITION. The dose pipelines (04, R80 to R110; 05, R126; 08, R422): bands, lines with their checks, rods and their update
queues, product starts, table reloads. -/
namespace Sys2Proof.Machine

/-! ### Rods (R106 to R109) -/

/-- The pipeline that owns a channel: the one in use whose heads hold its slot. -/
def Dev.ownerOf (d : Dev) (ch : Nat) : Option Nat :=
  d.pipes.find? (fun i => decide (d.rd .DP_GEOM_SLOT0 i ≤ ch / 4096) && decide (ch / 4096 < d.rd .DP_GEOM_SLOT0 i + d.rd .DP_GEOM_HEADS i))

/-- Address of a channel's rod in the master copy of pipeline i in channel B: `DP_RODM` + 4 · (channel - 4,096 · `SLOT0`) (R106). -/
def Dev.rodAddr (d : Dev) (i ch : Nat) : Nat := d.rd .DP_RODM_ADDR i * 256 + 4 * (ch - 4096 * d.rd .DP_GEOM_SLOT0 i)

/-- A poisoned rod of pipeline i comes from the retained entries or the master copy, or is lost (R106): `word` is what the master copy
holds, none where it is poisoned as well. -/
def Dev.rodRefetch (d : Dev) (i ch : Nat) (word : Option Nat) : Dev :=
  match (d.dp i).retained.reverse.find? (fun e => e.1 = ch - 4096 * d.rd .DP_GEOM_SLOT0 i), word with
  | some e, _ => (d.wr .ROD_ROD e.2 ch).raise Ev.ROD_REFETCH (le 4 ch ++ le 1 1)
  | none, none => (d.wr .ROD_ROD rodMasked ch).raise Ev.ROD_LOST (le 4 ch)
  | none, some w => (d.wr .ROD_ROD w ch).raise Ev.ROD_REFETCH (le 4 ch ++ le 1 0)

/-- What the master copy returns for a channel of pipeline i: none where the word is poisoned in the DRAM or by the read. -/
def State.masterWord (s : State) (i ch : Nat) (poison : Bool) : Option Nat :=
  let a := s.dev.rodAddr i ch
  if poison || s.dram.poisoned a 4 then none else some (leVal (memReadAll s.dram.mem a 4))

/-- ROD_REFETCH (R106): `masterPoisoned` tells that the read of the master copy itself returns poison. -/
def execRodRefetch (ch : BitVec 18) (masterPoisoned : Bool) (s : State) : Out :=
  match s.dev.ownerOf ch.toNat with
  | none => .next s
  | some i => s.act (·.rodRefetch i ch.toNat (s.masterWord i ch.toNat masterPoisoned))

/-- R107: a write through the window while the owning pipeline is in use is ignored and reported. -/
def Dev.rodWindow (d : Dev) (ch rod : Nat) : Dev :=
  match d.ownerOf ch with
  | some i => (d.wr .DP_ERR_WWRITE 1 i).raise Ev.ROD_WINDOW_IGNORED (le 4 ch)
  | none => d.wr .ROD_ROD rod ch

/-- ROD_WINDOW_WRITE (R107). -/
def execRodWindowWrite (lvl : Lvl) (ch : BitVec 18) (rod : U32) (s : State) : Out :=
  s.act (·.ownWriteP lvl (0x400000 + 4 * ch.toNat) (·.rodWindow ch.toNat rod.toNat))

/-- R108: the write to `DATA` enqueues the pair; a full or closed queue refuses it. -/
def Dev.rodEnqueue (d : Dev) (i rod : Nat) : Dev :=
  let q := (d.dp i).queue
  if d.flag .DP_RODQ_COMMIT i || 4096 ≤ q.length then (d.wr .DP_ERR_QOVF 1 i).raise Ev.RODQ_OVF (le 1 i)
  else
    let ch := (d.dp i).idx
    let d := (d.updDp i (fun p => { p with queue := p.queue ++ [(ch, rod)] })).wr .DP_RODQ_COUNT (q.length + 1) i
    { d with loops := { d.loops with pend := d.loops.pend.filter (fun e => e ≠ (i, ch, rod)) } }

/-- ROD_ENQUEUE (R108). -/
def execRodEnqueue (lvl : Lvl) (i : Pipe) (rod : U32) (s : State) : Out :=
  s.act (·.ownWrite lvl (0x300020 + 0x1000 * i.val) (·.rodEnqueue i rod.toNat))

/-- A write of 1 to `COMMIT`: closes the queue, or is refused while entries are retained (R109). -/
def Dev.rodCommit (d : Dev) (i : Nat) : Dev :=
  if d.flag .DP_RODQ_RETAINED i then
    (d.wr .DP_ERR_CREF 1 i).raise Ev.RODQ_COMMIT_REFUSED (le 1 i ++ le 2 (d.dp i).queue.length)
  else d.wr .DP_RODQ_COMMIT 1 i

/-- SV1 commits the oldest update entries that VS has formed for pipeline i, as many as its queue takes: not while a queue waits to be
applied or released, so that a product takes one queue at most, and not while PWR_WARN is in force (10, R253, R254; assumption 66). -/
def Dev.sv1Commit (d : Dev) (i : Nat) : Dev :=
  let es := (d.loops.pend.filter (fun e => e.1 = i)).take (4096 - (d.dp i).queue.length)
  if d.flag .AON_PWR_WARN || d.flag .DP_RODQ_COMMIT i || d.flag .DP_RODQ_RETAINED i || !d.runs .sv1 || !d.domOn .dose || es = [] then d
  else (d.forEach es (fun d e => (d.updDp i (fun p => { p with idx := e.2.1 })).rodEnqueue i e.2.2)).rodCommit i

/-- ROD_COMMIT (R109). -/
def execRodCommit (lvl : Lvl) (i : Pipe) (s : State) : Out :=
  s.act (·.ownWrite lvl (0x300018 + 0x1000 * i.val) (·.rodCommit i))

/-- A write of 1 to `RELEASE`: SV1 has written the retained entries into the master copy and frees them (R109); its next queue can follow
(10, R253). -/
def Dev.rodRelease (d : Dev) (i : Nat) : Dev :=
  let base := 4096 * d.rd .DP_GEOM_SLOT0 i
  let d := d.forEach (d.dp i).retained (fun d e => d.setMasterRod (base + e.1) e.2)
  ((d.updDp i (fun p => { p with retained := [] })).wr .DP_RODQ_RETAINED 0 i).sv1Commit i

/-- SV1 writes the retained entries of pipeline i into the master copy in channel B (R109). -/
def State.storeRods (s : State) (i : Nat) : State :=
  (s.dev.dp i).retained.foldl (fun s e => s.dramWrite (s.dev.rodAddr i (4096 * s.dev.rd .DP_GEOM_SLOT0 i + e.1)) (le 4 e.2)) s

/-- ROD_RELEASE (R109). -/
def execRodRelease (lvl : Lvl) (i : Pipe) (s : State) : Out :=
  let a := 0x300018 + 0x1000 * i.val
  let s := if s.dev.allowed 0 a lvl.val true && s.dev.domOn .dose then s.storeRods i else s
  s.act (·.ownWrite lvl a (·.rodRelease i))

/-- Apply a pipeline's queue (R108); an open queue is left as it is. -/
def Dev.applyQueue (d : Dev) (i jn pn : Nat) : Dev :=
  let base := 4096 * d.rd .DP_GEOM_SLOT0 i
  let q := if d.flag .DP_RODQ_COMMIT i then (d.dp i).queue else []
  let d := d.forEach q (fun d e => d.wr .ROD_ROD e.2 (base + e.1))
  let d :=
    if d.flag .DP_RODQ_COMMIT i then
      ((d.updDp i (fun p => { p with queue := [], retained := q })).wr .DP_RODQ_COUNT 0 i).wr .DP_RODQ_COMMIT 0 i
    else d
  let d := if q = [] then d else d.wr .DP_RODQ_RETAINED 1 i
  let d := d.incWrap .DP_RODV_VER i
  d.raise Ev.ROD_APPLIED (le 1 (d.pipeBar i) ++ le 2 (d.rd .DP_RODV_VER i) ++ le 2 q.length ++ le 4 jn ++ le 4 pn)

/-- Apply committed queues at a product start; those of a gang pair together at the master's (R109). -/
def Dev.applyRods (d : Dev) (i jn pn : Nat) : Dev :=
  match d.rd .DP_CFG_GANG i with
  | 2 => d
  | 1 =>
    if d.flag .DP_RODQ_COMMIT i || d.flag .DP_RODQ_COMMIT (i + 1) then (d.applyQueue i jn pn).applyQueue (i + 1) jn pn else d
  | _ => if d.flag .DP_RODQ_COMMIT i then d.applyQueue i jn pn else d

/-! ### Product starts (R84, R90, R99; 10, R242) -/

/-- The rows of `DP_BRIM_A` and `DP_BRIM_B`. -/
def Dev.brimRows (d : Dev) (i : Nat) : List BrimRow :=
  (List.range 8).map (fun r =>
    { kind := d.rd .DP_BRIM_A_KIND i r, code := d.rd .DP_BRIM_A_CODE i r, heads := d.rd .DP_BRIM_A_HEADS i r
      ofs := d.rd .DP_BRIM_A_OFS i r, x0 := d.rd .DP_BRIM_B_X0 i r, lines := d.rd .DP_BRIM_B_LINES i r
      x1d := d.rd .DP_BRIM_B_X1D i r })

/-- The lowest and highest Rod version of the product account (08, Table 8-7). -/
def Dev.countVer (d : Dev) (jn bar ver : Nat) : Dev :=
  d.updAccount jn (fun a =>
    let lo := match Tab.at a.rodLo bar with | some v => min v ver | none => ver
    let hi := match Tab.at a.rodHi bar with | some v => max v ver | none => ver
    { a with rodLo := Tab.put a.rodLo bar (some lo), rodHi := Tab.put a.rodHi bar (some hi) })

/-- A product starts on pipeline i with line `line` of the job. -/
def Dev.productStart (d : Dev) (i jn pn line : Nat) : Dev :=
  let bar := d.pipeBar i
  let d := d.visRows i bar jn pn
  let m := if d.rd .DP_CFG_GANG i = 2 then i - 1 else i
  let shift := if m = i then d.rd .DP_SHIFT_NEXT i else d.rd .DP_SHIFT_CUR m
  let phase := if m = i then d.rd .DP_BRIM_PHASE_NEXT i else d.rd .DP_BRIM_PHASE_CUR m
  let d := (d.wr .DP_SHIFT_CUR shift i).wr .DP_BRIM_PHASE_CUR phase i
  let d := d.updDp i (fun p => { p with brim := d.brimRows i, short := 0 })
  let d := d.applyRods i jn pn
  let ver := d.rd .DP_RODV_VER i
  if m = i then
    let d := d.stepTake bar jn pn line
    let r : StartReport := { jn := jn, pn := pn, bar := bar, shift := d.srd .DP_SHIFT_CUR i, phase := phase,
                             rows := (d.dp i).brim, ver := ver,
                             act := d.actOf bar }
    (Dev.countVer { d with loops := { d.loops with reports := d.loops.reports ++ [r] } } jn bar ver).planBar bar
  else d

/-! ### Bands (R101, R110, R126) -/

/-- Every line of the band is dosed. -/
def DoseBand.full (b : DoseBand) : Bool := decide (b.count ≤ b.lines.length)

/-- A bar's threshold or stitch tile differs between two screen sets. -/
def screensDiffer (c : CrownContent) (a b : Nat) : Bool :=
  let tiles := fun (s : Nat) => ((c.screens.find? (fun x => x.1 = s)).map (·.2)).getD []
  decide (tiles a ≠ tiles b)

/-- The tables in force are not those of the job (R110). -/
def Dev.needsReload (d : Dev) (r : JobRec) : Bool :=
  match d.curveSet, d.screenSet, d.boot.content with
  | some c, some s, some k => decide (c ≠ r.curveSet) || screensDiffer k s r.screenSet
  | _, _, _ => true

/-- The band handed over first; bands of lines that no placement fires any more leave unread. -/
def Dev.dropStale (d : Dev) : Dev :=
  { d with rk := { d.rk with handed := d.rk.handed.dropWhile (fun b =>
      match d.plOf b.jn with
      | some p => decide (p.lines ≤ 16 * b.band)
      | none => true) } }

/-- Every pipeline starts the band (R101, R120). -/
def Dev.startBand (d : Dev) (b : BandTiles) (r : JobRec) : Dev :=
  let d := d.decideLevel
  d.forEach d.pipes (fun d i =>
    let bd : DoseBand := { jn := b.jn, line := 16 * b.band, count := min 16 (r.lines - 16 * b.band), lines := [],
                           ver := d.rd .DP_RODV_VER i, vch := 0, ver2 := 0 }
    (((d.updDp i (fun p => { p with band := some bd })).wr .RW_XSTAT_WAITSLOT 0 i).wr .RW_XSTAT_WAITTGT 0 i))

/-- The pipelines of a band without a POSTED descriptor wait (05, R116). -/
def Dev.waitSlots (d : Dev) (ps : List Nat) : Dev :=
  d.forEach ps (fun d i =>
    let d := if d.flag .RW_XSTAT_WAITSLOT i then d else d.raise Ev.RW_NO_SLOT (le 1 i)
    d.wr .RW_XSTAT_WAITSLOT 1 i)

/-- DOSE_BAND_START: the next band starts in all pipelines, unless the lead has reached its target (R126), 224 products have
held spoils (R422), a pipeline has no POSTED descriptor, or tables are to be reloaded (R110). -/
def Dev.doseBandStart (d : Dev) : Dev :=
  if d.pipes = [] || d.pipes.any (fun i => (d.dp i).band.isSome) || d.reload then d
  else
    let d := d.dropStale
    match d.rk.handed with
    | [] => d
    | b :: _ =>
      match (d.job b.jn).bind (·.rec?) with
      | none => d
      | some r =>
        let d := d.refreshLead
        if d.rd .RW_LEADTGT_COUNTS ≤ d.rd .RW_LEAD_COUNTS then d.forEach d.pipes (fun d i => d.wr .RW_XSTAT_WAITTGT 1 i)
        else
          let d := d.forEach d.pipes (fun d i => d.wr .RW_XSTAT_WAITTGT 0 i)
          let none' := d.pipes.filter (fun i => d.posted i = 0)
          if 224 ≤ d.integ.heldSpoils.length then d
          else if none' ≠ [] then d.waitSlots none'
          else if d.needsReload r then { d with reload := true }
          else d.startBand b r

/-- DOSE_BAND_START (R126). -/
def execDoseBandStart (s : State) : Out := s.act fun d => if d.domOn .dose && d.st.idleToHold then d.doseBandStart else d

/-- Load the curve set and screen set of a job; `TW` and `TH` follow the tile headers (R97, R110). -/
def Dev.loadTables (d : Dev) (curves screens : Nat) : Dev :=
  let d : Dev := { d with curveSet := some curves, screenSet := some screens, reload := false }
  d.forEach d.pipes (fun d i =>
    match d.screen (d.pipeBar i) with
    | some t => (d.wr .DP_SCREEN_TW t.tw i).wr .DP_SCREEN_TH t.th i
    | none => d)

/-- TABLE_RELOAD (R110): the tables of the next band's job are loaded. -/
def execTableReload (s : State) : Out :=
  s.act fun d =>
    if !d.reload then d
    else
      match (d.rk.handed.head?).bind (fun b => (d.job b.jn).bind (·.rec?)) with
      | some r => d.loadTables r.curveSet r.screenSet
      | none => { d with reload := false }

/-! ### Lines (R104, R105) -/

/-- A check that failed: 1 address, 2 residue, 3 duplicate. -/
def failedCheck : Option (Fin 4) → Option Nat
  | some c => if c.val = 0 then none else some c.val
  | none => none

/-- What a line comes to: its bytes and shortfall, and the state with its events, counters and spoils; a line that fails both passes and
consumes poison is reported for both. -/
def Dev.doseOut (d : Dev) (c : LineCtx) (jn : Nat) (k : DoseChecks) : List Byte × Nat × Dev :=
  let i := c.g.pipe
  let src := if d.linePoisoned c then some 1 else failedCheck k.poison
  let where' := le 1 i ++ le 4 jn ++ le 4 c.n
  let d := match failedCheck k.first with
    | some x => (d.inc .DP_CHECK_REDOSE i).raise Ev.DP_REDOSE (where' ++ le 1 x)
    | none => d
  let twice := if (failedCheck k.first).isSome then failedCheck k.second else none
  let d := match twice with
    | some x => ((d.inc .DP_CHECK_FAIL i).raise Ev.DP_CHECK_FAIL (where' ++ le 1 x)).spoilBarLine .residue c.g.bar jn c.n
    | none => d
  let d := match src with
    | some p => ((d.inc .DP_CHECK_POISON i).raise Ev.DP_POISON (where' ++ le 1 p)).spoilBarLine .poison c.g.bar jn c.n
    | none => d
  if twice.isSome || src.isSome then (d.zeroLine c.g, 0, d)
  else
    let (bs, short) := d.dosedLine c
    (bs, short, d)

/-- The product's last line: `DP_SHORT`, `GLOVE_SHORT`, the account (R94). -/
def Dev.shortEnd (d : Dev) (i jn pn : Nat) : Dev :=
  let v := (d.dp i).short / 65536
  let d := d.wr .DP_SHORT_SUM v i
  if v = 0 then d
  else (d.raise Ev.GLOVE_SHORT (le 1 (d.pipeBar i) ++ le 4 jn ++ le 4 pn ++ le 4 v)).updAccount jn (fun a => { a with short := a.short + v })

/-- Pipeline i has dosed the band in front: its tile halves are freed once every pipeline that reads them has, and the band leaves the
tile buffers once every pipeline has (03, R60). -/
def Dev.freeTiles (d : Dev) (i : Nat) : Dev :=
  match d.rk.handed with
  | [] => d
  | b :: rest =>
    let dosed := if b.dosed.elem i then b.dosed else b.dosed ++ [i]
    let handed := if d.pipes.all dosed.elem then rest else { b with dosed := dosed } :: rest
    Dev.startAll { d with rk := { d.rk with handed := handed } }

/-- The tag of a band after a product start at line n (R101). -/
def DoseBand.tagged (b : DoseBand) (n ver : Nat) : DoseBand :=
  if n = b.line then { b with ver := ver } else if ver = b.ver then b else { b with vch := n - b.line, ver2 := ver }

/-- Pipeline i may dose its next line: it is not stalled behind its compressor, and at a product start a gang member waits for
its master (R84, R122). -/
def Dev.mayDose (d : Dev) (i : Nat) (b : DoseBand) (start : Bool) : Bool :=
  !b.full && !d.flag .RW_XSTAT_STOPPED i
    && (!start || decide (d.rd .DP_CFG_GANG i ≠ 2) || ((d.dp (i - 1)).band.all (fun m => decide (b.lines.length < m.lines.length))))

/-- Pipeline i doses the next line of its band. -/
def Dev.doseLine (d : Dev) (i : Nat) (k : DoseChecks) : Dev :=
  match (d.dp i).band, d.rk.handed with
  | some b, t :: _ =>
    match d.job b.jn with
    | none => d
    | some j =>
      match j.rec? with
      | none => d
      | some r =>
        let n := b.line + b.lines.length
        let pn := r.firstPn + n / r.pitch
        let start := decide (n % r.pitch = 0)
        if !d.mayDose i b start then d
        else
          let d := if start then d.productStart i b.jn pn n else d
          let b := if start then b.tagged n (d.rd .DP_RODV_VER i) else b
          let plane := nth r.barMap (d.pipeBar i)
          let c : LineCtx := { g := d.pipeGeom i, job := j, jr := r, n := n, plane := if plane = 0xFF then none else some plane,
                               tiles := t.tiles }
          let (bs, short, d) := d.doseOut c b.jn k
          let d := d.updDp i (fun p => { p with band := some { b with lines := b.lines ++ [bs] }, short := p.short + short })
          let d := if (n + 1) % r.pitch = 0 then d.shortEnd i b.jn pn else d
          if b.count ≤ b.lines.length + 1 then d.freeTiles i else d
  | _, _ => d

/-- DOSE_LINE (R104, R105): one line of pipeline i, with what its checks find. -/
def execDoseLine (i : Pipe) (checks : DoseChecks) (s : State) : Out := s.act (·.doseLine i checks)

end Sys2Proof.Machine
end

