-- ==== Sys2Proof/Machine/Heat.lean ====
section
/-! DEFINITION. Head heaters and head temperature limits (11, R281 to R287). -/
namespace Sys2Proof.Machine

/-! ### A heater loop -/

/-- The heater loop of head slot h. -/
def Dev.ht (d : Dev) (h : Nat) : Heat := Tab.at d.heat h

/-- Change it. -/
def Dev.updHt (d : Dev) (h : Nat) (f : Heat → Heat) : Dev := { d with heat := Tab.upd d.heat h f }

/-- A reading is there and not stale (R282): its STATUS frame arrived at most 1 ms ago. -/
def Dev.fresh (d : Dev) (h : Nat) : Bool :=
  match (d.ht h).readAt with
  | some t => decide (d.now ≤ t + 1000000)
  | none => false

/-- T in 1/16 degree of a ratio in u4.12 with the B constant `beta` (R282); none where the formula has no value. -/
def thermTemp (ratio beta : Nat) : Option Int :=
  if beta = 0 then none
  else
    let d80 : Int := 20 * 2 ^ 80 / 5963 + lnQuot (min 65535 (max 1 ratio)) 12 / beta
    if d80 ≤ 0 then none else some ((5 * 2 ^ 84 - 21852 * d80) / (5 * d80))

/-- How long the reading of a head has been stale, in ns. -/
def Dev.staleFor (d : Dev) (h : Nat) : Nat :=
  match (d.ht h).readAt with
  | some t => d.now - (t + 1000000)
  | none => 0

/-- A STATUS frame brings a thermistor ratio (R282): it is converted and dated; without a value of the formula T is free. A count of R287
pauses while the reading was stale. -/
def Dev.thermReading (d : Dev) (h ratio : Nat) : Dev :=
  let (t, d) : Int × Dev :=
    match thermTemp ratio (d.headField h 188 2) with
    | some t => (signed 16 (satSigned 16 t), d)
    | none => let (f, d) := d.free 16; (signed 16 f, d)
  let d := d.wr .HT_TEMP_T (unsign 16 t) h
  let stale := d.staleFor h
  d.updHt h (fun x => { x with t := t * 2 ^ 12, readAt := some d.now
                               plausHeld := if x.plausAt.isSome then x.plausHeld + stale else 0 })

/-- The heater of head slot h may be on: `HEN` of its HEAT frames (R281, R287). -/
def Dev.hen (d : Dev) (h : Nat) : Bool := d.flag .HT_CFG_EN h && !d.flag .HT_STAT_PLAUS h

/-- `DUTY` = round(65,535 y). -/
def Dev.htDuty (d : Dev) (h : Nat) : Nat := (roundDiv (65535 * (d.ht h).comp.out) 65536).toNat

/-! ### The 1 kHz sample (R281, R286) -/

/-- HT_CCOMMIT (R280). -/
def execHtCcommit (lvl : Lvl) (h : LaneNo) (s : State) : Out :=
  s.act (·.ownWrite lvl (0xA01000 + 0x40 * h.val) (fun d => d.wr .HT_CFG_CCOMMIT 1 h))

/-- A committed shadow set moves into force. -/
def Dev.htCoefs (d : Dev) (h : Nat) : Dev :=
  if d.flag .HT_CFG_CCOMMIT h then
    (d.wr .HT_CFG_CCOMMIT 0 h).updHt h
      (fun x => { x with comp := { x.comp with coef := (List.range 7).map (fun i => d.srd .HT_COEF_C h i) } })
  else d

/-- tm after one step of R286 in 2^-16 degree; none where the head memory's time constant is 0. -/
def Dev.modelStep (d : Dev) (h : Nat) : Option Int :=
  let x := d.ht h
  let tau := d.headField h 198 2
  if tau = 0 then none
  else
    let p : Int := x.comp.out * d.headField h 200 2 + x.pfire * 2 ^ 24 / 1000
    let goal := d.srd .HT_CFG_TREF h * 2 ^ 12 + p * d.headField h 196 2 / 2 ^ 16
    some (x.tm + (goal - x.tm) / (10 * tau : Int))

/-- The thermal model takes its step; without a time constant its value is free. -/
def Dev.htModel (d : Dev) (h : Nat) : Dev :=
  let (tm, d) : Int × Dev :=
    match d.modelStep h with
    | some tm => (tm, d)
    | none => let (f, d) := d.free 32; (signed 32 f, d)
  (d.updHt h (fun x => { x with tm := tm })).wr .HT_TEMP_TM (satSigned 16 (tm / 2 ^ 12)) h

/-- Set tm to the measured temperature (R286). -/
def Dev.htModelSet (d : Dev) (h : Nat) : Dev :=
  let t := (d.ht h).t
  (d.updHt h (fun x => { x with tm := t, enabled := true })).wr .HT_TEMP_TM (satSigned 16 (t / 2 ^ 12)) h

/-- e of the loop in s16.16: set-point less head temperature. -/
def Dev.htErr (d : Dev) (h : Nat) : Int := d.srd .HT_SP_SP h * 2 ^ 12 - (d.ht h).t

/-- Values of the trace nodes of a heater loop (Table 11-4); `y` are the outputs before this sample. -/
def Dev.htNode (d : Dev) (h : Nat) (y : List Int) (n : Nat) : Option Int :=
  let x := d.ht h
  match n with
  | 0 => some (d.srd .HT_SP_SP h)
  | 1 => some (x.t / 2 ^ 8)
  | 2 => some (x.tm / 2 ^ 8)
  | 3 => some (x.comp.e.getD 0 0)
  | 4 => some (y.getD 0 0)
  | 5 => some (y.getD 1 0)
  | 6 => some (y.getD 2 0)
  | 7 => some x.comp.yraw
  | 8 => some (d.htDuty h)
  | 9 => some ((x.t - x.tm) / 2 ^ 8)
  | 10 => some x.pfire
  | _ => none

/-- One sample of an enabled heater loop: it holds while the reading is stale; the model runs. -/
def Dev.htSample (d : Dev) (h : Nat) : Dev :=
  let d := d.htCoefs h
  let d := if (d.ht h).enabled then d else d.htModelSet h
  let y := (d.ht h).comp.y
  let d := if d.fresh h then d.updHt h (fun x => { x with comp := x.comp.step (d.htErr h) 0 65536 false }) else d
  let d := d.htModel h
  d.traceLoop (16 + h) (d.htNode h y)

/-- HEATER_SAMPLE (R281, R286): every enabled head slot. -/
def execHeaterSample (s : State) : Out :=
  s.act fun d =>
    if !d.runs .cc0 then d
    else d.forEach (List.range d.nLanes) (fun d h =>
      if d.flag .HT_CFG_EN h then d.htSample h else d.updHt h (fun x => { x with enabled := false }))

/-! ### Dark heads (08, R207) -/

/-- Causes for which a head is dark: bits of `dark`. -/
inductive DarkBit where
  | hard | plaus
  deriving DecidableEq, Repr

/-- Bit of a cause. -/
def DarkBit.num : DarkBit → Nat
  | .hard => 0 | .plaus => 1

/-- Spoil reason of a cause. -/
def DarkBit.reason : DarkBit → SpReason
  | .hard => .headHot | .plaus => .headPlaus

/-- The head goes dark. -/
def Dev.darken (d : Dev) (h : Nat) (c : DarkBit) : Dev :=
  (d.updLane h (fun l => { l with dark := withBit l.dark c.num, darkEnd := false,
                                  darkBy := withBit (if l.dark ≠ 0 || l.darkEnd then l.darkBy else 0) c.num })).wr .HT_STAT_DARK 1 h

/-- A cause clears; when none is left the head resumes with the next product that starts on its bar. -/
def Dev.lighten (d : Dev) (h : Nat) (c : DarkBit) : Dev :=
  d.updLane h (fun l =>
    let dark := withoutBit l.dark c.num
    { l with dark := dark, darkEnd := l.darkEnd || (decide (l.dark ≠ 0) && decide (dark = 0)) })

/-- The spoil reasons of a dark head's lines: one for each cause since it went dark (08, R206). -/
def Lane.darkReasons (l : Lane) : List SpReason := [DarkBit.hard, .plaus].filterMap (fun c => if bitOf l.darkBy c.num then some c.reason else none)

/-- The head is dark. -/
def Lane.isDark (l : Lane) : Bool := decide (l.dark ≠ 0) || l.darkEnd

/-! ### Limits (R283 to R287) -/

/-- A limit of the head memory in 1/16 degree. -/
def Dev.headLimit (d : Dev) (h ofs : Nat) : Int := signed 16 (d.headField h ofs 2)

/-- T in 1/16 degree. -/
def Dev.headT (d : Dev) (h : Nat) : Int := (d.ht h).t / 2 ^ 12

/-- The soft limit: crossed upward `HEAD_SOFT` is raised (R285). -/
def Dev.softSample (d : Dev) (h : Nat) : Dev :=
  let was := (d.ht h).soft
  let now := was.sample (d.headT h) (d.headLimit h 192) (d.headLimit h 192 - 32)
  let d := (d.updHt h (fun x => { x with soft := now })).wr .HT_STAT_SOFT (bit now.on) h
  if !was.on && now.on then d.raise Ev.HEAD_SOFT (le 1 h ++ le 2 (unsign 16 (d.headT h))) else d

/-- The hard limit: crossed upward the head goes dark and a stop is requested; crossed back the cause clears (R285). -/
def Dev.hardSample (d : Dev) (h : Nat) : Dev :=
  let was := (d.ht h).hard
  let now := was.sample (d.headT h) (d.headLimit h 194) (d.headLimit h 194 - 32)
  let d := (d.updHt h (fun x => { x with hard := now })).wr .HT_STAT_HARD (bit now.on) h
  if !was.on && now.on then
    ((d.darken h .hard).raise Ev.HEAD_HOT (le 1 h ++ le 2 (unsign 16 (d.headT h)))).requestStop .headHard
  else if was.on && !now.on then (d.lighten h .hard).raise Ev.HEAD_CLEAR (le 1 h ++ le 1 1)
  else d

/-- |T - tm| exceeds 3 degrees. -/
def Dev.implausible (d : Dev) (h : Nat) : Bool := decide (3 * 65536 < ((d.ht h).t - (d.ht h).tm).natAbs)

/-- The plausibility check of a sample. -/
def Dev.plausSample (d : Dev) (h : Nat) : Dev :=
  let bad := d.flag .HT_CFG_EN h && d.implausible h
  d.updHt h (fun x => { x with plausAt := if bad then some (x.plausAt.getD d.now) else none
                               plausHeld := if bad && x.plausAt.isSome then x.plausHeld else 0 })

/-- The heads whose limits are guarded: enabled lane, head memory valid, CC0 running. -/
def Dev.guarded (d : Dev) (h : Nat) : Bool :=
  decide (h < d.nLanes) && d.flag .ZL_CFG_EN h && (d.lane h).memValid && d.runs .cc0

/-- HEAD_TEMP_SAMPLE (R283 to R285): no sample is taken while the reading is stale (R282). -/
def execHeadTempSample (h : LaneNo) (s : State) : Out :=
  s.act fun d =>
    if d.guarded h && d.fresh h then ((d.softSample h).hardSample h).plausSample h else d

/-- Every fresh sample of a head over 2 s, stale time left out, has differed from the model by more than 3 degrees. -/
def Dev.plausDue (d : Dev) (h : Nat) : Bool :=
  (d.ht h).plausAt.any (fun t => d.passed (t + (d.ht h).plausHeld + d.staleFor h) 2000000000)

/-- HEAD_PLAUS (R287): every fresh sample over 2 s has differed from the model by more than 3 degrees. -/
def execHeadPlaus (h : LaneNo) (s : State) : Out :=
  s.act fun d =>
    if d.guarded h && d.flag .HT_CFG_PLEN h && d.plausDue h && !d.flag .HT_STAT_PLAUS h then
      let d := (d.wr .HT_STAT_PLAUS 1 h).darken h .plaus
      let d := d.raise Ev.HEAD_PLAUS (le 1 h ++ le 2 (unsign 16 (d.headT h)) ++ le 2 (satSigned 16 ((d.ht h).tm / 2 ^ 12)))
      d.requestStop .headPlaus
    else d

/-- A latched plausibility fault is cleared (R287): tm is set to the measured temperature. -/
def Dev.clearPlaus (d : Dev) (h : Nat) : Dev :=
  if d.flag .HT_STAT_PLAUS h then
    let d := ((d.wr .HT_STAT_PLAUS 0 h).updHt h (fun x => { x with plausAt := none, plausHeld := 0 })).htModelSet h
    (d.lighten h .plaus).raise Ev.HEAD_CLEAR (le 1 h ++ le 1 2)
  else d

end Sys2Proof.Machine
end

