-- ==== Sys2Proof/Machine/Encoder.lean ====
section
/-! DEFINITION. The web encoder (06, R130 to R147): counts, fire position, reversal, speed status, acceleration, index and slip; the
prediction of sent lines (R157, R158). -/
namespace Sys2Proof.Machine

/-! ### Prediction of sent lines (R157, R158) -/

/-- The times at which the heads of a sent line are predicted to fire at their positions; none when a head has no fire time. -/
def Dev.newTimes (d : Dev) (l : SentLine) : Option (List Nat) :=
  let ts := l.heads.map (fun h => d.tfirePred h.pos)
  if ts.all Option.isSome then some (ts.map (·.getD 0)) else none

/-- The change with the largest magnitude. -/
def maxChange (old new : List Nat) : Int :=
  (old.zip new).foldl (fun m x => if m.natAbs < ((x.2 : Int) - x.1).natAbs then (x.2 : Int) - x.1 else m) 0

/-- The change exceeds LT/8 at the reported speed, for a pitch in 2^-32 counts. -/
def Dev.overEighth (d : Dev) (pitch : Nat) (change : Int) : Bool :=
  decide (pitch * 1000000000 * 2 ^ 20 < change.natAbs * 8 * d.v20 * 2 ^ 32)

/-- Replace a sent line. -/
def Dev.putSent (d : Dev) (l l' : SentLine) : Dev :=
  { d with fire := { d.fire with sent := d.fire.sent.map (fun x => if x = l then l' else x) } }

/-- Give a line's entries in the Tally tables their fire times (08, R211). -/
def Dev.tallyTimes (d : Dev) (l : SentLine) : Dev :=
  d.forEach l.heads (fun d h =>
    let es := (Tab.at d.integ.tally h.slot).map (fun t => if t.jn = l.jn ∧ t.line = l.line then { t with tfire := d.linkTime h.tfire } else t)
    { d with integ := { d.integ with tally := Tab.put d.integ.tally h.slot es } })

/-- No amendment or withdrawal can arrive: the line fires as sent and is spoiled (R158). -/
def Dev.amendLate (d : Dev) (l : SentLine) : Dev :=
  let d := ((d.putSent l { l with late := true }).wr .FIRE_STAT_LATE 1).inc .FIRE_AMCNT_LATE
  (d.raise Ev.FIRE_AMEND_LATE (le 1 l.bar ++ le 4 l.jn ++ le 4 l.line)).spoilBarLine .encSlip l.bar l.jn l.line

/-- Withdraw a line that has lost its fire time (R158). -/
def Dev.withdrawOrLate (d : Dev) (l : SentLine) : Dev :=
  if d.canArrive l (l.heads.map (·.tfire)) then d.withdraw l else d.amendLate l

/-- Send amended FIRE frames with new times (R157). -/
def Dev.amend (d : Dev) (l : SentLine) (ts : List Nat) (change : Int) : Dev :=
  let heads := (l.heads.zip ts).map (fun x => { x.1 with tfire := x.2 })
  let d := d.forEach heads (fun d h => d.sendFire l.jn l.line h true false)
  let d := ((d.putSent l { l with heads := heads }).tallyTimes { l with heads := heads }).inc .FIRE_AMCNT_AMEND
  d.raise Ev.FIRE_AMEND (le 1 l.bar ++ le 4 l.jn ++ le 4 l.line ++ le 4 (unsign 32 change))

/-- Predict one sent line again. -/
def Dev.predictLine (d : Dev) (l : SentLine) : Dev :=
  match d.plOf l.jn with
  | none => d
  | some p =>
    match d.newTimes l with
    | none => d.withdrawOrLate l
    | some ts =>
      let old := l.heads.map (·.tfire)
      let change := maxChange old ts
      if !d.overEighth p.pitch change then d
      else if d.canArrive l (old ++ ts) then d.amend l ts change
      else d.amendLate l

/-- Predict every sent line again (R157). -/
def Dev.repredict (d : Dev) : Dev :=
  let d := d.retireSent.refreshSpeed
  if d.valid then d.forEach (d.fire.sent.filter (fun l => !l.late)) Dev.predictLine else d

/-- FIRE_REPREDICT (R157). -/
def execFireRepredict (s : State) : Out := s.act Dev.repredict

/-- The status leaves VALID for STANDSTILL or REVERSED: every sent line is withdrawn (R157). -/
def Dev.loseTimes (d : Dev) : Dev :=
  let d := d.retireSent
  d.forEach (d.fire.sent.filter (fun l => !l.late)) Dev.withdrawOrLate

/-! ### Speed (R138 to R142) -/

/-- The speed status. -/
def Dev.spd (d : Dev) : Nat := d.rd .FIRE_SPDSTAT_STATUS

/-- `FIRE_SPDCFG.WIN`; 0 acts as 1. -/
def Dev.win (d : Dev) : Nat := max 1 (d.rd .FIRE_SPDCFG_WIN)

/-- R142 from the timestamps of the last counts, newest first, for windows of `k` counts; the magnitude's slope in counts/s^2. -/
def accelOf (k : Nat) (times : List Nat) : Int :=
  if times.length ≤ 2 * k then 0
  else
    let d1 : Int := nth times 0 - nth times k
    let d2 : Int := nth times k - nth times (2 * k)
    if d1 ≤ 0 || d2 ≤ 0 then 0 else 2 * k * 1000000000000000000 * (d2 - d1) / (d1 * d2 * (d1 + d2))

/-- The speed status and timestamps after a count in a direction (R139). -/
def Dev.countStatus (d : Dev) (back : Bool) : Nat × List Nat :=
  if d.spd != 0 && d.flag .FIRE_SPDSTAT_DIR = back then (2, (d.now :: d.fire.times).take 129)
  else if d.spd = 2 then (3, [d.now])
  else (1, [d.now])

/-- Measure at a count (R138, R139, R142). -/
def Dev.measure (d : Dev) (back : Bool) : Dev :=
  let (st, times) := d.countStatus back
  let k := min d.win (times.length - 1)
  let d := { d with fire := { d.fire with times := times, revDir := back, lastT := d.now
                                          speedN := k, speedD := nth times 0 - nth times k
                                          vSince := if st = 2 && d.spd != 2 then d.now else d.fire.vSince } }
  let a := if st = 2 then accelOf d.win times else 0
  let d := (d.wr .FIRE_SPDSTAT_STATUS st).wr .FIRE_SPDSTAT_DIR (bit back)
  (d.wr .FIRE_ACCEL_A (satSigned 32 (if back then -a else a))).refreshSpeed

/-! ### Position and reversal (R134 to R137) -/

/-- C and F as event data. -/
def Dev.cAndF (d : Dev) : List Byte := le 8 d.fire.cnt.toNat ++ le 8 d.fire.pos.toNat

/-- A reversal (R137). -/
def Dev.reversal (d : Dev) : Dev :=
  let d := (d.wr .FIRE_STAT_REV 1).raise Ev.WEB_REVERSAL d.cAndF
  let d := if d.st.running then d.stopFiring.spoilInFlight .reversal none else d
  (d.requestStop .reversal).holdCause .reversal

/-- F follows C upward; a reversal is detected once while armed (R134 to R136). -/
def Dev.followCount (d : Dev) : Dev :=
  let d := if 0 < pdiff d.fire.cnt d.fire.pos then { d with fire := { d.fire with pos := d.fire.cnt } } else d
  if -(d.rd .FIRE_CTL_BACKLASH : Int) ≤ pdiff d.fire.cnt d.fire.pos then { d with fire := { d.fire with disarmed := false } }
  else if d.fire.disarmed then d
  else Dev.reversal { d with fire := { d.fire with disarmed := true } }

/-- The place of an (A, B) state in the forward sequence (R131). -/
def quadIndex (a b : Bool) : Nat := if a then (if b then 2 else 1) else (if b then 3 else 0)

/-- One count, forward or backward. -/
def Dev.count (d : Dev) (back : Bool) : Dev :=
  let was := d.spd
  let cnt := if back then d.fire.cnt - 1 else d.fire.cnt + 1
  let d : Dev := { d with fire := { d.fire with cnt := cnt, travel := d.fire.travel + 1 } }
  let d := d.measure back
  let d := if was = 2 && d.spd = 3 then d.loseTimes else d
  d.followCount.repredict

/-- An illegal transition (R131). -/
def Dev.illegalCount (d : Dev) : Dev :=
  let d := ((d.addSat .FIRE_SLIPSUM_SUM 2).inc .FIRE_SLIPCNT_ILLEGAL).wr .FIRE_STAT_ILLEGAL 1
  d.raise Ev.ENC_ILLEGAL (le 8 d.fire.cnt.toNat)

/-- The filtered inputs change to (a, b). -/
def Dev.encoder (d : Dev) (a b : Bool) : Dev :=
  let step := (quadIndex a b + 4 - quadIndex d.fire.a d.fire.b) % 4
  let d : Dev := { d with fire := { d.fire with a := a, b := b } }
  match step with
  | 0 => d
  | 2 => d.illegalCount
  | n => d.count ((n = 3) != d.flag .FIRE_CTL_DIR)

/-- ENCODER_COUNT (R131): a filtered state change of A and B. -/
def execEncoderCount (a b : Bool) (s : State) : Out := s.act (·.encoder a b)

/-- ENC_STANDSTILL (R141): the status becomes STANDSTILL; a reversal cause clears (R23), and so do the stop requests made (14,
R339). -/
def Dev.standstill (d : Dev) : Dev :=
  if d.spd = 0 then d
  else
    let was := d.spd
    let d := ((d.wr .FIRE_SPDSTAT_STATUS 0).wr .FIRE_ACCEL_A 0).refreshSpeed
    let d : Dev := { d with fire := { d.fire with times := [] } }
    let d := d.raise Ev.ENC_STANDSTILL d.cAndF
    let d := if was = 2 then d.loseTimes else d
    let d := d.clearHold .reversal
    if d.rd .AON_STATE_STOPREQ = 0 then d else (d.wr .AON_STATE_STOPREQ 0).sendStatus

/-- ENC_STANDSTILL (R141): no count for `STILL` ms. -/
def execEncStandstill (s : State) : Out :=
  s.act fun d => if d.passed d.fire.lastT (1000000 * d.rd .FIRE_SPDCFG_STILL) then d.standstill else d

/-! ### Index and slip (R143 to R147) -/

/-- X_ref. -/
def Dev.xref (d : Dev) : Pos48 := BitVec.ofNat 48 (d.rd .FIRE_IDXREF_LO_X + 2 ^ 32 * d.rd .FIRE_IDXREF_HI_X)

/-- Write X_ref. -/
def Dev.setXref (d : Dev) (x : Pos48) : Dev := (d.wr .FIRE_IDXREF_LO_X x.toNat).wr .FIRE_IDXREF_HI_X (x.toNat / 2 ^ 32)

/-- round(a / b) with halves away from zero. -/
def roundAway (a : Int) (b : Nat) : Int := if 0 ≤ a then roundDiv a b else -roundDiv (-a) b

/-- Products spoiled by a slip: those with a line sent since the last good index that are not closed. While `IDXEN` is 0 the position C = 0 at
reset stands as that index, since which a line of every product in the table has been sent (R143). -/
def Dev.slipProducts (d : Dev) : List Prod :=
  d.integ.prods.filter (fun p => (!d.flag .FIRE_ENC_IDXEN || d.fire.sentSince.elem (p.jn, p.pn)) && !p.isClosed)

/-- Spoil them (R145). -/
def Dev.spoilSlip (d : Dev) : Dev := d.forEach d.slipProducts (fun d p => d.spoilWhole .encSlip p.jn p.pn p.first p.last)

/-- An event of the slip window: with `SLIPN` or more of them within the last `SLIPREV` revolutions of travel, or by force, a stop is
requested (R133, R147). -/
def Dev.slipWindow (d : Dev) (force : Bool) : Dev :=
  let reach := d.rd .FIRE_IDXCFG_SLIPREV * d.rd .FIRE_CPR_CPR
  let evs := d.fire.travel :: d.fire.slips.filter (fun t => decide (d.fire.travel ≤ t + reach))
  let d : Dev := { d with fire := { d.fire with slips := evs } }
  if force || max 1 (d.rd .FIRE_IDXCFG_SLIPN) ≤ evs.length then
    ((d.wr .FIRE_STAT_SLIPSTOP 1).raise Ev.ENC_SLIP_STOP (le 1 evs.length)).requestStop .slip
  else d

/-- An index becomes the last good index. -/
def Dev.goodIndex (d : Dev) : Dev := { d with fire := { d.fire with sentSince := [] } }

/-- d of R143 for an index at count C. -/
def Dev.indexDev (d : Dev) : Int :=
  let diff := pdiff d.fire.cnt d.xref
  diff - roundAway diff (d.rd .FIRE_CPR_CPR) * d.rd .FIRE_CPR_CPR

/-- An index with |d| above `TOL` at count C (R145), X_ref apart. -/
def Dev.slip (d : Dev) (dev : Int) : Dev :=
  let d := (d.wr .FIRE_STAT_SLIP 1).inc .FIRE_SLIPCNT_SLIPS
  let d := d.raise Ev.ENC_SLIP (le 4 (unsign 32 dev) ++ le 8 d.fire.cnt.toNat ++ le 2 d.slipProducts.length)
  (d.spoilSlip.goodIndex).slipWindow false

/-- An index at count C (R143 to R145). -/
def Dev.index (d : Dev) : Dev :=
  let x := d.fire.cnt
  let d := { d with fire := { d.fire with lastIdx := x } }
  if !d.flag .FIRE_IDXREF_HI_SET then ((d.setXref x).wr .FIRE_IDXREF_HI_SET 1).goodIndex
  else
    let dev := d.indexDev
    let d := (d.setXref x).wr .FIRE_IDXDEV_DEV (satSigned 16 dev)
    if dev.natAbs ≤ d.rd .FIRE_IDXCFG_TOL then (d.addSat .FIRE_SLIPSUM_SUM dev.natAbs).goodIndex
    else d.slip dev

/-- ENCODER_INDEX (R143): a filtered edge of Z, to `level`; the edge that counts follows the last count's direction. -/
def execEncoderIndex (level : Bool) (s : State) : Out :=
  s.act fun d => if d.flag .FIRE_ENC_IDXEN && level != d.flag .FIRE_SPDSTAT_DIR then d.index else d

/-- ENC_NOINDEX (R146): C has moved CPR + 16 TOL + 16 counts beyond the last index; a slip, with d as R143 forms it for an index there. -/
def execEncNoindex (s : State) : Out :=
  s.act fun d =>
    let far := d.rd .FIRE_CPR_CPR + 16 * d.rd .FIRE_IDXCFG_TOL + 16
    if d.flag .FIRE_ENC_IDXEN && decide (far ≤ (pdiff d.fire.cnt d.fire.lastIdx).natAbs) then
      let d : Dev := { d with fire := { d.fire with lastIdx := d.fire.cnt } }
      let d := (d.wr .FIRE_STAT_NOIDX 1).raise Ev.ENC_NOINDEX (le 8 d.fire.cnt.toNat ++ le 8 d.xref.toNat)
      d.slip d.indexDev
    else d

/-- ENC_LINE (R133): a line fault of an RS-422 input. -/
def execEncLine (which : EncInput) (s : State) : Out :=
  s.act fun d =>
    if d.flag .FIRE_ENC_MODE || !d.flag .FIRE_ENC_LINECHK then d
    else
      let code := match which with | .a => 0 | .b => 1 | .z => 2
      (((d.wr .FIRE_STAT_LINE 1).raise Ev.ENC_LINE (le 1 code)).spoilSlip).slipWindow true

end Sys2Proof.Machine
end

