-- ==== Sys2Proof/Machine/Dma.lean ====
section
/-! DEFINITION. The DMA rings (01, R16 to R19, Tables 1-6 and 1-7): descriptors in DRAM, their completion, halts; the buffers of the
rings EVR (17, R404) and SPR (08, R214). -/
namespace Sys2Proof.Machine

/-! ### Descriptors -/

/-- Address of descriptor `idx` of a ring. -/
def Dev.descAddr (d : Dev) (r idx : Nat) : Nat :=
  d.rd .DMA_RBASE_HI_ADDR r * 2 ^ 32 + d.rd .DMA_RBASE_LO_ADDR r * 64 + 32 * (idx % d.ringSize r)

/-- The ring is halted (R17). -/
def Dev.halted (d : Dev) (r : Nat) : Bool :=
  if r < 32 then bitOf (d.rd .DMA_HALT_LO_HALT) r else bitOf (d.rd .DMA_HALT_HI_HALT) (r - 32)

/-- Halt a ring (R17). -/
def Dev.haltRing (d : Dev) (r : Nat) : Dev :=
  let d := if r < 32 then d.setBit .DMA_HALT_LO_HALT r else d.setBit .DMA_HALT_HI_HALT (r - 32)
  d.raise Ev.DMA_HALT (le 1 r ++ le 4 (d.rd .DMA_RHEAD_IDX r))

/-- The descriptor that the hardware processes next: its address and bytes; none on a disabled, halted or empty ring, or while
`OWN` is 0. -/
def State.ringDesc (s : State) (r : Nat) : Option (Nat × List Byte) :=
  if s.dev.ringLeft r = 0 || s.dev.halted r then none
  else
    let a := s.dev.descAddr r (s.dev.rd .DMA_RHEAD_IDX r)
    let bs := memReadAll s.dram.mem a 32
    if bitOf (fieldAt bs 0 4) 31 then some (a, bs) else none

/-- `CRC` of a descriptor. -/
def descCrc (bs : List Byte) : Bool := bitOf (fieldAt bs 0 4) 30
/-- `IRQ` of a descriptor. -/
def descIrq (bs : List Byte) : Bool := bitOf (fieldAt bs 0 4) 29
/-- `LEN` of a descriptor. -/
def descLen (bs : List Byte) : Nat := bitsOf (fieldAt bs 0 4) 0 24
/-- `ADDR` of a descriptor. -/
def descBuf (bs : List Byte) : Nat := fieldAt bs 4 8

/-- The word of bytes 24 to 27. -/
def doneWord (status tries moved : Nat) : Nat := 2 ^ 31 + status % 8 * 2 ^ 28 + tries % 16 * 2 ^ 24 + moved % 2 ^ 24

/-- The ring interrupt (17, AON_RIRQ). -/
def Dev.ringIrq (d : Dev) (r : Nat) (irq : Bool) : Dev :=
  if irq && d.flag .DMA_RCFG_IRQEN r then
    (if r < 32 then d.setBit .AON_RIRQ_LO_RING r else d.setBit .AON_RIRQ_HI_RING (r - 32))
  else d

/-- Complete a descriptor: the completion words, then `OWN` 0, the ring's index and interrupt (R16). -/
def State.descDone (s : State) (r a : Nat) (bs spec12 : List Byte) (status tries moved crcv : Nat) : State :=
  let s := s.dramWrite (a + 12) (spec12 ++ le 4 (doneWord status tries moved) ++ le 4 crcv)
  let s := s.dramWrite a (le 4 (withoutBit (fieldAt bs 0 4) 31))
  { s with dev := (s.dev.wr .DMA_RHEAD_IDX ((s.dev.rd .DMA_RHEAD_IDX r + 1) % s.dev.ringSize r) r).ringIrq r (descIrq bs) }

/-- `STATUS` of a completed descriptor: 3 for poisoned data, 1 after a retry (Table 1-7, R18). -/
def doneStatus (bad : Bool) (tries : Nat) : Nat := if bad then 3 else if tries = 0 then 0 else 1

/-- A descriptor that every retry failed on: `STATUS` 2, the ring halts (R17). R17 names `STATUS` alone; the word that holds it is
written with `DONE` 1, the retries used and `MOVED` 0, bytes 12 to 23 and `CRCV` stay as they were, and `OWN` stays 1, since the ring
restarts at this descriptor (DESIGN CHOICE, assumption 51). -/
def State.descFail (s : State) (r a : Nat) : State :=
  let s := s.dramWrite (a + 24) (le 4 (doneWord 2 (s.dev.rd .DMA_CTL_RETRY) 0))
  { s with dev := s.dev.haltRing r }

/-- Rings whose descriptors are completed by rows of their own: RQ0 to RQ15, CR0 to CR3, EVR, SPR. For them DMA_DESCRIPTOR_DONE tells what
retries and poison the writes of the descriptor's buffer have met so far; the row that completes it reports them. -/
def ownRow (r : Nat) : Bool := (decide (24 ≤ r) && decide (r < 46))

/-- Rings RQ0 to RQ15, whose descriptors the compressor gives their addresses (05, R115). -/
def ownRq (r : Nat) : Bool := decide (24 ≤ r) && decide (r < 40)

/-- Rings whose hardware reads: WQ0 to WQ15. -/
def readsRing (r : Nat) : Bool := decide (8 ≤ r) && decide (r < 24)

/-- The data moved through a descriptor: into the buffer, or, for a ring that the hardware reads, what the buffer holds; and
whether it is poisoned (R18). -/
def State.descMove (s : State) (r : Nat) (bs data : List Byte) (poison : Bool) : State × List Byte × Bool :=
  let n := descLen bs
  if readsRing r then (s, memReadAll s.dram.mem (descBuf bs) n, poison || s.dram.poisoned (descBuf bs) n)
  else (s.dramWrite (descBuf bs) (data.take n) poison, data.take n, poison)

/-- The Reckoner that executed the oldest descriptor of WQi not yet completed (03, R62): one that has finished it, else the one at
work on it, else RKi itself. -/
def Dev.workBy (d : Dev) (i : Nat) : Nat :=
  match d.rk.done.find? (fun x => x.1 = i) with
  | some x => x.2
  | none => ((d.rk.work.find? (fun w => decide (w.ring = i) && w.exec.isSome)).bind (·.exec)).getD i

/-- Bytes 12 to 23 of a descriptor as completed: of WQ those that SV0 wrote, with `BY` in byte 23 (03, Table 3-3, R62); of another ring
what its hardware writes. -/
def Dev.doneBytes (d : Dev) (r : Nat) (bs spec12 : List Byte) : List Byte :=
  if readsRing r then (bs.drop 12).take 11 ++ le 1 (d.workBy (r - 8)) else spec12

/-- A descriptor of WQi is completed: its Reckoner's report is used up. -/
def Dev.workReported (d : Dev) (r : Nat) : Dev :=
  if readsRing r then
    match d.rk.done.find? (fun x => x.1 = r - 8) with
    | some x => { d with rk := { d.rk with done := d.rk.done.erase x } }
    | none => d
  else d

/-- A buffer of an ingest ring has been filled (02, Table 2-12): a `CSUM_OK` of 0 leaves a hole in its connection's payload, which
TCP sends again (02, R43); poison stands in what the connection's records are parsed from (R18). -/
def Dev.ingest (d : Dev) (r : Nat) (spec12 : List Byte) (bad : Bool) : Dev :=
  if r < 8 then
    let seq := fieldAt spec12 0 4
    { d with conns := d.conns.map (fun c =>
        if c.idx = fieldAt spec12 4 2 then
          { c with holes := if bitOf (fieldAt spec12 8 4) 1 then c.holes.filter (· != seq) else c.holes ++ [seq]
                   poison := c.poison || (bad && bitOf (fieldAt spec12 8 4) 1) }
        else c) }
  else d

/-- Retries and poison of a buffer that a row of its own completes. -/
def Dev.noteTries (d : Dev) (r tries : Nat) (bad : Bool) : Dev :=
  if r = 44 then { d with evr := { d.evr with tries := tries, bad := bad } }
  else if r = 45 then { d with integ := { d.integ with spr := { d.integ.spr with tries := tries, bad := bad } } }
  else if r < 40 then d.updRw (r - 24) (fun w => { w with tries := tries, bad := bad })
  else { d with vis := Tab.upd d.vis (r - 40) (fun v => { v with tries := tries, bad := bad }) }

/-- The buffer of a descriptor lies where the DMA may move data: an address that exists, and for a ring whose hardware writes one of
channel B, since no block but those of 05, R111 writes to channel A; an access elsewhere ends as a bus error does (assumption 52). -/
def State.bufferOk (s : State) (r a n : Nat) : Bool := s.dev.spanOk a (max 1 n) && (readsRing r || ownRq r || decide (chanOf a = 1))

/-- The hardware processes the next descriptor of a ring, having used `tries` retries. -/
def State.descProcess (s : State) (r : Nat) (spec12 data : List Byte) (tries : Nat) (poison : Bool) : State :=
  match s.ringDesc r with
  | none => s
  | some (a, bs) =>
    if s.dev.rd .DMA_CTL_RETRY < tries || s.dram.poisoned a 32 || !s.bufferOk r (descBuf bs) (descLen bs) then s.descFail r a
    else if ownRow r then { s with dev := s.dev.noteTries r tries poison }
    else
      let out := s.dev.doneBytes r bs spec12
      let (s, moved, bad) := s.descMove r bs data poison
      let s := s.descDone r a bs out (doneStatus bad tries) tries moved.length (if descCrc bs then (crc32c moved).toNat else 0)
      { s with dev := (s.dev.workReported r).ingest r out bad }

/-- Bytes 12 to 23 of a descriptor of XCP or XCJ (14, Table 14-2). -/
def XcDesc.bytes (x : XcDesc) : List Byte := le 4 x.ip ++ le 2 x.udp ++ le 1 x.port ++ le 1 (1 + 2 * bit x.mt) ++ le 4 x.tarr

/-- A descriptor of XCP or XCJ takes the oldest message that waits for the ring; without one nothing is written (14, R334). -/
def State.xcProcess (s : State) (r : Nat) (data : List Byte) (tries : Nat) (poison : Bool) : State :=
  match s.dev.xpp.rings.find? (fun x => x.ring = r) with
  | none => s
  | some x =>
    let t := s.descProcess r x.bytes data tries poison
    if t.dev.rd .DMA_RHEAD_IDX r = s.dev.rd .DMA_RHEAD_IDX r then t
    else { t with dev := { t.dev with xpp := { t.dev.xpp with rings := t.dev.xpp.rings.erase x } } }

/-- DMA_DESCRIPTOR_DONE (R16 to R18): `spec12` are the 12 ring-specific bytes of a ring that has its own hardware fill them in. -/
def execDmaDescriptorDone (r : RingNo) (spec12 data : List Byte) (tries : Fin 16) (poison : Bool) (s : State) : Out :=
  .next (if 46 ≤ r.val then s.xcProcess r.val data tries.val poison else s.descProcess r.val (fit 12 spec12) data tries.val poison)

/-- DMA_HALT (R17): every retry of the access of the next descriptor failed. -/
def execDmaHalt (r : RingNo) (s : State) : Out :=
  match s.ringDesc r.val with
  | some (a, _) => .next (s.descFail r.val a)
  | none => .next s

/-- DMA_HALT_CLEAR (R17): a 1 restarts the ring at the descriptor that failed. -/
def execDmaHaltClear (lvl : Lvl) (hi : Bool) (val : U32) (s : State) : Out :=
  s.act fun d =>
    if hi then
      d.ownWrite lvl 0xF0000C (fun d => d.wr .DMA_HALT_HI_HALT (d.rd .DMA_HALT_HI_HALT &&& (0xFFFF - val.toNat % 65536)))
    else d.ownWrite lvl 0xF00008 (fun d => d.wr .DMA_HALT_LO_HALT (d.rd .DMA_HALT_LO_HALT &&& (0xFFFFFFFF - val.toNat)))

/-! ### Buffers of EVR and SPR -/

/-- A buffer of EVR or SPR is handed over: its capacity in records, and the waiting records that now find room. -/
def Dev.addBuffers (d : Dev) (r : Nat) (lens : List Nat) : Dev :=
  if r = 44 then { d with evr := BufRing.refill { d.evr with caps := d.evr.caps ++ lens.map (· / 48) } }
  else if r = 45 then
    let ring := BufRing.refill { d.integ.spr with caps := d.integ.spr.caps ++ lens.map (· / 32) }
    { d with integ := { d.integ with spr := ring } }
  else d

/-- Firmware writes memory at its level (16, R385). -/
def State.fwWrite (s : State) (lvl a : Nat) (bs : List Byte) : State :=
  if s.dev.allowed 1 a lvl true then s.dramWrite a bs else { s with dev := s.dev.protRefuse 1 a lvl true }

/-- Firmware writes descriptors from index `idx` on. -/
def State.fwDescs (s : State) (lvl r idx : Nat) : List (List Byte) → State
  | [] => s
  | x :: t => State.fwDescs (s.fwWrite lvl (s.dev.descAddr r idx) x) lvl r (idx + 1) t

/-- DMA_TAIL_WRITE (R16): firmware has written descriptors and advances the ring's `TAIL`. -/
def execDmaTailWrite (lvl : Lvl) (r : RingNo) (idx : BitVec 19) (descs : List (List Byte)) (s : State) : Out :=
  let descs := descs.map (fit 32)
  let s := s.fwDescs lvl.val r.val (s.dev.rd .DMA_RTAIL_IDX r.val) descs
  s.act fun d => d.ownWrite lvl (0xF01010 + 32 * r.val) fun d =>
    (d.wr .DMA_RTAIL_IDX idx.toNat r.val).addBuffers r.val (descs.map descLen)

/-- Bytes of an event entry (17, Table 17-5). -/
def EvEntry.bytes (e : EvEntry) (eseq : Nat) : List Byte :=
  le 2 e.code ++ le 1 e.data.length ++ le 1 (bit e.lostB) ++ le 4 eseq ++ le 4 (tsec e.ns) ++ le 4 (tns e.ns)
    ++ (e.data ++ List.replicate 24 (toByte 0)).take 24 ++ le 8 0

/-- Bytes of a spoil, closure or mark record (08, Table 8-6). -/
def SpRec.bytes (r : SpRec) : List Byte :=
  le 4 r.jn ++ le 4 r.pn ++ le 4 r.first ++ le 4 r.last ++ le 4 r.n ++ le 4 (tsec r.time)
    ++ le 4 (tns r.time + 2 ^ 30 * r.kind) ++ le 1 r.reason ++ le 1 r.bar ++ le 1 r.slot
    ++ le 1 (bit r.firstSp + 2 * bit r.late + 4 * bit r.unclosed + 8 * bit r.lostB)

/-- Close the buffer being filled: its records, as bytes, are written and its descriptor completed; nothing while the buffer is
empty or the ring has none. -/
def State.closeBuf {α : Type} (s : State) (r : Nat) (ring : BufRing α) (enc : Nat → α → List Byte) (head : Nat → List Byte)
    (put : BufRing α → Dev → Dev) : State :=
  match s.ringDesc r, ring.caps with
  | some (a, bs), cap :: caps =>
    let now := ring.inBufs.take cap
    if now.length = 0 then s
    else if s.dram.poisoned a 32 || !s.bufferOk r (descBuf bs) (descLen bs) then s.descFail r a
    else
      let data := ((now.zip (List.range now.length)).map (fun x => enc (ring.seq + x.2) x.1.2)).flatten
      let s := s.dramWrite (descBuf bs) data ring.bad
      let s := s.descDone r a bs (head now.length) (doneStatus ring.bad ring.tries) ring.tries data.length
        (if descCrc bs then (crc32c data).toNat else 0)
      let ring := BufRing.refill { ring with caps := caps, inBufs := ring.inBufs.drop cap, seq := (ring.seq + now.length) % 2 ^ 32,
                                             tries := 0, bad := false }
      { s with dev := put ring s.dev }
  | _, _ => s

/-- Close the EVR buffer (17, R404, Table 17-6). -/
def State.closeEvr (s : State) : State :=
  s.closeBuf 44 s.dev.evr (fun n e => e.bytes (n % 2 ^ 32)) (fun n => le 4 s.dev.evr.seq ++ le 2 n ++ le 6 0)
    (fun ring d => { d with evr := ring })

/-- Close the SPR buffer (08, R214, Table 8-5). -/
def State.closeSpr (s : State) : State :=
  s.closeBuf 45 s.dev.integ.spr (fun _ r => r.bytes) (fun n => le 4 s.dev.integ.spr.seq ++ le 2 n ++ le 6 0)
    (fun ring d => { d with integ := { d.integ with spr := ring } })

/-- The buffer being filled is full. -/
def BufRing.isFull {α : Type} (ring : BufRing α) : Bool := ring.caps.head?.any (fun cap => decide (cap ≤ ring.inBufs.length))

/-- The oldest entry in a buffer is `age` ns old. -/
def BufRing.isOld {α : Type} (ring : BufRing α) (now age : Nat) : Bool := ring.inBufs.head?.any (fun x => decide (x.1 + age ≤ now))

/-- EVR_BUFFER_CLOSE (R404): the buffer is full, or its oldest entry is 1 ms old. -/
def execEvrBufferClose (s : State) : Out :=
  .next (if s.dev.evr.isFull || s.dev.evr.isOld s.dev.now 1000000 then s.closeEvr else s)

/-- SPR_FLUSH (08, R214): the buffer is full, or its oldest record has reached the age of `SP_SPRCFG.FLUSH`. -/
def execSprFlush (s : State) : Out :=
  .next (if s.dev.integ.spr.isFull || s.dev.integ.spr.isOld s.dev.now (1000 * s.dev.rd .SP_SPRCFG_FLUSH) then s.closeSpr else s)

/-- The buffers of EVR and SPR that are full close of themselves. -/
def State.closeFull (s : State) : State :=
  let s := if s.dev.evr.isFull then s.closeEvr else s
  if s.dev.integ.spr.isFull then s.closeSpr else s

end Sys2Proof.Machine
end

