-- ==== Sys2Proof/Machine/Isp.lean ====
section
/-! DEFINITION. The stages of the image pipeline (09, Tables 9-2 and 9-7, R230 to R232) over rows of samples, and the contents of the
streams S0 to S3 (Table 9-3). -/
namespace Sys2Proof.Machine

/-- clip(v, m) of R231. -/
def clip (v : Int) (m : Nat) : Nat := (min (m : Int) (max 0 v)).toNat

/-- The word of the latched parameter memory at an offset of Table 9-7. -/
def Cap.parm32 (c : Cap) (ofs : Nat) : Nat := nth c.parm ((ofs - 0x400) / 4)

/-- The signed half-word at an offset of Table 9-7. -/
def Cap.parmS16 (c : Cap) (ofs : Nat) : Int := signed 16 (c.parm32 ofs / 2 ^ (8 * (ofs % 4)) % 65536)

/-- Sample (x, y) of rows of samples, none outside them. -/
def at2 (rows : List (List Nat)) (x y : Int) : Option Nat :=
  if x < 0 || y < 0 then none else (rows[y.toNat]?).bind (fun r => r[x.toNat]?)

/-- Change every sample of rows by a function of its column, its row and itself. -/
def mapRows (rows : List (List Nat)) (f : Int → Int → Nat → Nat) : List (List Nat) :=
  rows.zipIdx.map (fun r => r.1.zipIdx.map (fun p => f p.2 r.2 p.1))

/-- Stage 1, linearise. -/
def Cap.linearise (c : Cap) (bits raw : Nat) : Nat :=
  let b := raw * 2 ^ (14 - bits) - c.parm32 0x488 % 2 ^ 14
  let i := b / 512
  let k0 : Int := c.parm32 (0x400 + 4 * i) % 2 ^ 20
  let k1 : Int := c.parm32 (0x404 + 4 * i) % 2 ^ 20
  clip (k0 + ((k1 - k0) * ((b - 512 * i : Nat) : Int) + 256) / 512) (2 ^ 20 - 1)

/-- Stage 2, merge of the linearised readouts `h` and `l`. -/
def Cap.merge (c : Cap) (h l : Nat) : Nat :=
  let lo := c.parm32 0x48C % 2 ^ 20
  let hi := c.parm32 0x490 % 2 ^ 20
  let l' := clip ((l * c.ratio + 128) / 256 : Nat) (2 ^ 20 - 1)
  if h < lo then h
  else if hi ≤ h then l'
  else
    let α := (h - lo) * 256 / (hi - lo)
    (h * (256 - α) + l' * α + 128) / 256

/-- The mosaic code of a pixel: 0 R, 1 G, 2 B, 3 C, 4 IR. -/
def Cap.mosaic (c : Cap) (x y : Int) : Nat :=
  let cell := 4 * (y % 4) + x % 4
  (c.parm32 0x498 + 2 ^ 32 * c.parm32 0x49C) / 2 ^ (4 * cell.toNat) % 16

/-- The offsets -2 to 2 of a 5 x 5 window. -/
def winOfs : List (Int × Int) :=
  ([-2, -1, 0, 1, 2] : List Int).flatMap (fun dy => ([-2, -1, 0, 1, 2] : List Int).map (fun dx => (dx, dy)))

/-- Samples of a channel in the 5 x 5 window of a pixel, the pixel itself left out, each with its offsets. -/
def Cap.channelWin (c : Cap) (rows : List (List Nat)) (code : Nat) (x y : Int) : List (Int × Int × Nat) :=
  winOfs.filterMap (fun o =>
    if o.1 = 0 && o.2 = 0 || c.mosaic (x + o.1) (y + o.2) != code then none
    else (at2 rows (x + o.1) (y + o.2)).map (fun v => (o.1, o.2, v)))

/-- Insert into an ascending list. -/
def insertAsc (v : Nat) : List Nat → List Nat
  | [] => [v]
  | a :: t => if v ≤ a then v :: a :: t else a :: insertAsc v t

/-- The median of numbers, rounded down; `other` of none. -/
def median (other : Nat) (xs : List Nat) : Nat :=
  let s := xs.foldr insertAsc []
  if s = [] then other else (nth s ((s.length - 1) / 2) + nth s (s.length / 2)) / 2

/-- A pixel is listed in `DEFECT`. -/
def Cap.listed (c : Cap) (x y : Int) : Bool :=
  (List.range 256).any (fun k =>
    let w := c.parm32 (0x500 + 4 * k)
    bitOf w 31 && decide ((bitsOf w 0 13 : Int) = x) && decide ((bitsOf w 16 13 : Int) = y))

/-- Stage 3, defects. -/
def Cap.defects (c : Cap) (rows : List (List Nat)) : List (List Nat) :=
  let dt := c.parm32 0x494 % 2 ^ 20
  mapRows rows (fun x y v =>
    let near := (c.channelWin rows (c.mosaic x y) x y).map (·.2.2)
    let mid := median (Config.pixelFree c.id x y).toNat near
    if c.listed x y then mid
    else if dt = 0 || near = [] then v
    else
      let hi := near.foldl max 0
      let lo := near.foldl min (2 ^ 20)
      if hi + dt < v || v + dt < lo then mid else v)

/-- Stage 4, flat-field, with the maps given by column and by column and row. -/
def flatField (rows : List (List Nat)) (dark : Int → Nat) (gain : Int → Int → Nat) : List (List Nat) :=
  mapRows rows (fun x y v => clip ((((v : Int) - dark x) * gain x y + 2 ^ 17) / 2 ^ 18) 65535)

/-- Stage 5's view of a sample: free outside the frame (assumption 26). -/
def Cap.edgeAt (c : Cap) (rows : List (List Nat)) (x y : Int) : Int :=
  (((at2 rows x y).getD ((Config.pixelFree c.id x y).toNat % 65536) : Nat) : Int)

/-- Nearest of some samples, by squared distance, and their rounded mean; `other` of none. -/
def nearestMean (other : Nat) (xs : List (Int × Int × Nat)) : Nat :=
  let d2 := fun (p : Int × Int × Nat) => p.1 * p.1 + p.2.1 * p.2.1
  let least := xs.foldl (fun m p => min m (d2 p)) 100
  let near := (xs.filter (fun p => d2 p = least)).map (·.2.2)
  if near = [] then other else (near.foldl (· + ·) 0 + near.length / 2) / near.length

/-- One channel at one pixel after stage 5, demosaic (assumption 27). -/
def Cap.channel (c : Cap) (rows : List (List Nat)) (code : Nat) (x y : Int) (v : Nat) : Nat :=
  if c.mosaic x y = code then v
  else if !(List.range 16).any (fun k => c.mosaic (k % 4 : Nat) (k / 4 : Nat) = code) then 0
  else
    let m := c.edgeAt rows
    let gh := (m (x - 2) y - m (x + 2) y).natAbs + (m (x - 1) y - m (x + 1) y).natAbs
    let gv := (m x (y - 2) - m x (y + 2)).natAbs + (m x (y - 1) - m x (y + 1)).natAbs
    let edge := 256 - c.parm32 0x4C8 % 256
    let all := c.channelWin rows code x y
    let pick := if gh * 256 < gv * edge then all.filter (fun p => p.2.1 = 0)
      else if gv * 256 < gh * edge then all.filter (fun p => p.1 = 0) else all
    nearestMean ((Config.pixelFree c.id x y).toNat % 65536) (if pick = [] then all else pick)

/-- Stage 6, colour matrix: output k of the five channels. -/
def Cap.colour (c : Cap) (k : Nat) (ch : List Nat) : Nat :=
  let sum := (ch.zipIdx).foldl (fun acc p => acc + c.parmS16 (0x4A0 + 2 * (5 * k + p.2)) * (p.1 : Int)) 0
  clip ((sum + 2 ^ 11) / 2 ^ 12 + c.parmS16 (0x4C0 + 2 * k)) 65535

/-- The outputs of stage 3 and of stage 6 (Q0, Q1, Q2 per pixel). -/
structure Frame3 where
  pre : List (List Nat)
  q : List (List (List Nat))

/-- The whole pipeline over the lines received (R230): `bits` per raw sample, `mergeOn` the exposure merge, the maps. -/
def Cap.pipeline (c : Cap) (bits : Nat) (mergeOn : Bool) (dark : Int → Nat) (gain : Int → Int → Nat) : Frame3 :=
  let lin := fun (rows : List (List Nat)) => mapRows rows (fun _ _ v => c.linearise bits v)
  let low := lin c.lines1
  let merged := mapRows (lin c.lines0) (fun x y h => if mergeOn then c.merge h ((at2 low x y).getD 0) else h)
  let pre := c.defects merged
  let flat := flatField pre dark gain
  { pre := pre
    q := flat.zipIdx.map (fun r => r.1.zipIdx.map (fun p =>
      let ch := (List.range 5).map (fun code => c.channel flat code p.2 r.2 p.1)
      (List.range 3).map (fun k => c.colour k ch))) }

/-- A row of S0: `src` is `S0SRC`. -/
def Frame3.s0Row (f : Frame3) (src y : Nat) : List Byte :=
  if src = 0 then ((f.pre[y]?).getD []).flatMap (fun v => le 2 (v / 16))
  else ((f.q[y]?).getD []).flatMap (fun p => p.flatMap (le 2))

/-- Pixels of a box of the frame, clipped to it. -/
def Frame3.box (f : Frame3) (x0 x1 y0 y1 : Nat) : List (List Nat) :=
  ((f.q.drop y0).take (y1 - y0)).flatMap (fun r => (r.drop x0).take (x1 - x0))

/-- The mean of output k over some pixels, rounded down; 0 of none. -/
def meanOf (ps : List (List Nat)) (k : Nat) : Nat := (ps.foldl (fun s p => s + nth p k) 0) / max 1 ps.length

/-- S1 data of a window. -/
def Frame3.s1 (f : Frame3) (width y0 y1 : Nat) : List Byte :=
  (List.range width).flatMap (fun x =>
    let ps := f.box x (x + 1) y0 y1
    (List.range 3).flatMap (fun k => le 4 (ps.foldl (fun s p => s + nth p k) 0)))

/-- S2 data: blocks of 8 x 8, the last ones with the pixels they have. -/
def Frame3.s2 (f : Frame3) (width height : Nat) : List Byte :=
  (List.range (ceilDiv height 8)).flatMap (fun by' => (List.range (ceilDiv width 8)).flatMap (fun bx =>
    let ps := f.box (8 * bx) (8 * bx + 8) (8 * by') (8 * by' + 8)
    (List.range 3).flatMap (fun k => le 1 (meanOf ps k / 256))))

/-- S3 data; `full` is the count of raw samples at full scale. -/
def Frame3.s3 (f : Frame3) (width height full : Nat) : List Byte :=
  let q1 := f.q.flatMap (fun r => r.map (fun p => nth p 1))
  (List.range 4).flatMap (fun zy => (List.range 16).flatMap (fun zx =>
    let ps := f.box (zx * width / 16) ((zx + 1) * width / 16) (zy * height / 4) ((zy + 1) * height / 4)
    (List.range 3).flatMap (fun k => le 2 (meanOf ps k))))
  ++ (List.range 256).flatMap (fun b => le 4 (q1.filter (fun v => v / 256 = b)).length)
  ++ le 4 full ++ le 2 (q1.foldl min 65535) ++ le 2 (q1.foldl max 0)

/-- Raw samples at full scale. -/
def Cap.fullScale (c : Cap) (bits : Nat) : Nat :=
  ((c.lines0 ++ c.lines1).flatMap (fun r => r.filter (· = 2 ^ bits - 1))).length

/-- `FLAGS` of Table 9-4. -/
def FrameFlags.bits (f : FrameFlags) : Nat :=
  bit f.mixed + 2 * bit f.stale + 4 * bit f.crcErr + 8 * bit f.geom + 16 * bit f.poison + 32 * bit f.cal + 64 * bit f.abort

/-- The frame header of Table 9-4. -/
def CamBuf.header (b : CamBuf) (port : Nat) : List Byte :=
  let h := le 4 b.frame ++ le 1 port ++ le 1 b.stream ++ le 1 b.esid ++ le 1 b.win ++ le 2 b.flags.bits ++ le 2 b.lines
    ++ le 2 b.first ++ le 2 b.width ++ le 8 b.pos ++ le 4 (b.time / 1000000000) ++ le 4 (b.time % 1000000000) ++ le 4 b.ffver
    ++ List.replicate 24 (toByte 0)
  h ++ le 4 (crc32c h).toNat

/-- Descriptor bytes 12 to 23 of Table 9-5. -/
def CamBuf.spec12 (b : CamBuf) : List Byte := le 4 b.frame ++ le 1 b.stream ++ le 1 b.esid ++ le 2 b.flags.bits ++ le 4 0

end Sys2Proof.Machine
end

