-- ==== Sys2Proof/Machine/Vision.lean ====
section
/-! DEFINITION. Camera ports (09): triggers and strobes, exposure sets, frames and their streams, watchdog, calibration. -/
namespace Sys2Proof.Machine

/-- The camera port p. -/
def Dev.vp (d : Dev) (p : Nat) : Vis := Tab.at d.vis p

/-- Change it. -/
def Dev.updVp (d : Dev) (p : Nat) (f : Vis → Vis) : Dev := { d with vis := Tab.upd d.vis p f }

/-- Address of a register of port p. -/
def visReg (p : Port) (ofs : Nat) : Nat := 0x900000 + 0x1000 * p.val + ofs

/-- The port is in use and powered. -/
def Dev.visOn (d : Dev) (p : Nat) : Bool := d.flag .VIS_CFG_EN p && d.domOn .vis

/-- L, the sensor latency in frames (R226). -/
def Dev.visLat (d : Dev) (p : Nat) : Nat := d.rd .VIS_CFG_LAT p + 1

/-! ### Trigger queue -/

/-- The queue has a new first position: whether F has passed it already (R224). -/
def Dev.visHead (d : Dev) (p : Nat) : Dev :=
  d.updVp p (fun v =>
    match v.trigQ with
    | x :: _ => { v with headPast := decide (0 < pdiff d.fire.pos (BitVec.ofNat 48 x)) }
    | [] => { v with headPast := false })

/-- Take the first position off the queue. -/
def Dev.visPop (d : Dev) (p : Nat) : Dev := (d.updVp p (fun v => { v with trigQ := v.trigQ.drop 1 })).visHead p

/-- Enqueue a position (R223); a full queue ignores it. -/
def Dev.visEnqueue (d : Dev) (p hi : Nat) : Dev :=
  let v := d.vp p
  if 8 ≤ v.trigQ.length then d.wr .VIS_STAT_SKIP 1 p
  else
    let d := d.updVp p (fun v => { v with trigQ := v.trigQ ++ [v.trigLo + 2 ^ 32 * hi] })
    if v.trigQ = [] then d.visHead p else d

/-- TRIGGER_ENQUEUE (R223): a write to VIS_TRIG_HI. -/
def execTriggerEnqueue (lvl : Lvl) (p : Port) (hi : U16) (s : State) : Out :=
  s.act (·.ownWrite lvl (visReg p 0x00C) (·.visEnqueue p.val hi.toNat))

/-! ### Exposure sets -/

/-- `COMMIT` reads 1 until the strobe part is in force and the list has ended (R226, R228). -/
def Dev.visCommitEnd (d : Dev) (p : Nat) : Dev :=
  match (d.vp p).pend with
  | some c => if c.strobeIn && c.list = .ended then (d.updVp p (fun v => { v with pend := none })).wr .VIS_ESCTL_COMMIT 0 p else d
  | none => d

/-- Flag a frame MIXED. -/
def Cap.mix (c : Cap) : Cap := { c with esid := 255, flags := { c.flags with mixed := true } }

/-- Frame `a` is `b` or one of the 2^31 before it, as 32-bit frame IDs go. -/
def idLe (a b : Nat) : Bool := decide ((b + 2 ^ 32 - a) % 2 ^ 32 < 2 ^ 31)

/-- Vertical blanking begins: a waiting list is issued (R226). A frame triggered during the readout has its sensor part
unknown with those up to L (R227). -/
def Dev.visBlank (d : Dev) (p : Nat) : Dev :=
  match (d.vp p).pend with
  | some c =>
    if c.list = .waiting then
      let d := d.updVp p (fun v => { v with pend := some { c with list := .issuing } })
      if (d.vp p).nextCap.isSome || (d.vp p).cap.isSome then
        d.updVp p (fun v => { v with cap := v.cap.map Cap.mix, nextCap := v.nextCap.map Cap.mix,
                                     unknownTo := some ((v.nextId + d.visLat p + 2 ^ 32 - 2) % 2 ^ 32) })
      else d
    else d
  | none => d

/-- Commit a slot (R226); ignored while a commit is in progress. -/
def Dev.visCommit (d : Dev) (p : Nat) : Dev :=
  if d.flag .VIS_ESCTL_COMMIT p then d
  else
    let s := d.rd .VIS_ESCTL_SLOT p
    let v := d.vp p
    let set : ExpSet := { n := v.commits + 1, slot := s, esid := d.rd .VIS_ESA_ESID p s, width := d.rd .VIS_ESA_WIDTH p s,
                          ratio := d.rd .VIS_ESB_RATIO p s, i2c0 := d.rd .VIS_ESB_I2C0 p s, i2cn := d.rd .VIS_ESB_I2CN p s }
    let d := (d.wr .VIS_ESCTL_COMMIT 1 p).updVp p (fun v =>
      { v with commits := v.commits + 1, pend := some ⟨set, false, .waiting⟩ })
    if d.rd .VIS_STAT_STATE p = 1 then d.visBlank p else d

/-- EXPOSURE_COMMIT (R226): a write of 1 to VIS_ESCTL.COMMIT. -/
def execExposureCommit (lvl : Lvl) (p : Port) (s : State) : Out :=
  s.act (·.ownWrite lvl (visReg p 0x014) (·.visCommit p.val))

/-- The I2C write of an entry of the list memory: register address and data, of one or two bytes each, to the sensor (`VIS_I2CDEV`, R239). -/
def Dev.i2cWrite (d : Dev) (p e : Nat) : Output :=
  let w := d.rd .VIS_PARM_W p (512 + e)
  let a := d.rd .VIS_I2CDEV_AW16 p + 1
  let b := d.rd .VIS_I2CDEV_DW16 p + 1
  .camI2c p (d.rd .VIS_I2CDEV_ADDR p) (w / 65536 % 2 ^ (8 * a)) a (w % 2 ^ (8 * b)) b

/-- Issue entries of the I2C list memory, first to last. -/
def Dev.visI2c (d : Dev) (p : Nat) (entries : List Nat) : Dev := d.forEach entries (fun d e => d.emit (d.i2cWrite p e))

/-- The entries of a set's list. -/
def ExpSet.entries (x : ExpSet) : List Nat := (List.range x.i2cn).map (fun k => (x.i2c0 + k) % 256)

/-- I2C_LIST_COMPLETE (R226, R227): the sensor part takes force L frames after the last frame triggered. -/
def execI2cListComplete (p : Port) (s : State) : Out :=
  s.act fun d =>
    match (d.vp p.val).pend with
    | some c =>
      if c.list = .issuing then
        let d := d.visI2c p.val c.set.entries
        let d := d.updVp p.val (fun v => { v with pend := some { c with list := .ended },
                                                  sensorAt := v.sensorAt ++ [((v.nextId + d.visLat p.val - 1) % 2 ^ 32, c.set)] })
        d.visCommitEnd p.val
      else d
    | none => d

/-- CAM_I2C_FAIL (R228): a write of the list fails with all its `VIS_I2CDEV.RETRY` repeats, and the list stops there; the sensor part is
unknown until a later one takes force. -/
def execCamI2cFail (p : Port) (entry : Fin 256) (s : State) : Out :=
  s.act fun d =>
    match (d.vp p.val).pend with
    | some c =>
      if c.list = .issuing && c.set.entries.elem entry.val then
        let tried := List.replicate (d.rd .VIS_I2CDEV_RETRY p.val + 1) entry.val
        let d := d.visI2c p.val (c.set.entries.takeWhile (· != entry.val) ++ tried)
        let d := d.updVp p.val (fun v => { v with pend := some { c with list := .ended }, sensorAt := [], sensorLost := true })
        let d := (d.wr .VIS_STAT_I2C 1 p.val).raise Ev.CAM_I2C_FAIL (le 1 p.val ++ le 1 c.set.slot ++ le 1 entry.val)
        d.visCommitEnd p.val
      else d
    | none => d

/-- The exposure set's parts at the trigger of frame `id` (R226 to R229): the strobe part of a commit takes force, sensor parts
due at this frame take force; a list still running leaves the sensor part unknown. -/
def Dev.visParts (d : Dev) (p id : Nat) : Dev :=
  let d := d.updVp p (fun v =>
    let v : Vis := match v.pend with
      | some c => { v with strobe := some c.set, pend := some { c with strobeIn := true },
                           unknownTo := if c.list = ListSt.issuing then some ((id + d.visLat p - 1) % 2 ^ 32) else v.unknownTo }
      | none => v
    let v : Vis := if v.unknownTo.any (idLe id) then v else { v with unknownTo := none }
    match (v.sensorAt.filter (fun (x : Nat × ExpSet) => idLe x.1 id)).getLast? with
    | some x => { v with sensor := some x.2, sensorLost := false, sensorAt := v.sensorAt.filter (fun (x : Nat × ExpSet) => !idLe x.1 id) }
    | none => v)
  d.visCommitEnd p

/-- The sensor part in force for frame `id`, none while it is unknown. -/
def Vis.sensorFor (v : Vis) (id : Nat) : Option ExpSet :=
  if v.unknownTo.any (idLe id) || v.sensorLost then none else v.sensor

/-- `ESID` of frame `id` (R229). -/
def Vis.esidFor (v : Vis) (id : Nat) : Nat :=
  match v.strobe, v.sensorFor id with
  | some a, some b => if a.n = b.n then a.esid else 255
  | _, _ => 255

/-! ### Calibration -/

/-- What calibration does at a trigger (R238): new maps take effect, `ACTIVE` ends or begins. -/
def Dev.visCal (d : Dev) (p : Nat) : Dev :=
  let d := match (d.vp p).ffPend with
    | some a =>
      let d := (d.updVp p (fun v => { v with ffPend := none, ffbase := a })).incWrap .VIS_CAL_VER p
      if d.flag .VIS_CAL_ACTIVE p then
        (d.wr .VIS_CAL_ACTIVE 0 p).raise Ev.CAM_CAL_DONE (le 1 p ++ le 2 (d.rd .VIS_CAL_VER p))
      else d
    | none => d
  if (d.vp p).calPend then (d.updVp p (fun v => { v with calPend := false })).wr .VIS_CAL_ACTIVE 1 p else d

/-- CAL_START (R238): a write of 1 to VIS_CAL.START. -/
def execCalStart (lvl : Lvl) (p : Port) (s : State) : Out :=
  s.act (·.ownWrite lvl (visReg p 0x084) (·.updVp p.val (fun v => { v with calPend := true })))

/-- A write to VIS_FFBASE (R238). -/
def Dev.visFfbase (d : Dev) (p v : Nat) : Dev :=
  (d.wr .VIS_FFBASE_ADDR v p).updVp p (fun x => { x with ffPend := some (v % 2 ^ 28) })

/-- FFBASE_WRITE (R238). -/
def execFfbaseWrite (lvl : Lvl) (p : Port) (v : U32) (s : State) : Out :=
  s.act (·.ownWrite lvl (visReg p 0x080) (·.visFfbase p.val v.toNat))

/-! ### Trigger -/

/-- A skipped trigger (R224). -/
def Dev.visSkip (d : Dev) (p pos : Nat) : Dev :=
  ((d.visPop p).wr .VIS_STAT_SKIP 1 p).raise Ev.CAM_TRIG_SKIP (le 1 p ++ le 8 pos)

/-- The S1 windows in use: window, first row, last row plus 1. -/
def Dev.visWins (d : Dev) (p : Nat) : List (Nat × Nat × Nat) :=
  ((List.range 4).filter (fun w => d.flag .VIS_WIN_EN p w)).map (fun w => (w, d.rd .VIS_WIN_Y0 p w, d.rd .VIS_WIN_Y1 p w))

/-- The merge ratio for a frame; free while no exposure set has come into force. -/
def Dev.visRatio (d : Dev) (p : Nat) : Nat × Dev :=
  match (d.vp p).strobe with
  | some s => (s.ratio, d)
  | none => if d.flag .VIS_CFG_MERGE p then d.free 16 else (0, d)

/-- The frame that a trigger begins, with what is latched (R223, R229, R230). -/
def Dev.visFrame (d : Dev) (p id pos ratio : Nat) : Cap :=
  let v := d.vp p
  let esid := v.esidFor id
  { id := id, time := d.now, pos := pos, esid := esid, ratio := ratio
    flags := { mixed := esid = 255, stale := false, crcErr := false, geom := false, poison := false,
               cal := d.flag .VIS_CAL_ACTIVE p, abort := false }
    parm := (List.range 320).map (fun k => d.rd .VIS_PARM_W p k), wins := d.visWins p
    ffbase := v.ffbase, ffver := d.rd .VIS_CAL_VER p, started := false, dropped := false, n0 := 0, lines0 := [], lines1 := []
    s0Next := 0, s0Lost := false, badWords := [], seenAt := d.now }

/-- The trigger is asserted (R223). -/
def Dev.visTrigger (d : Dev) (p : Nat) : Dev :=
  let id := (d.vp p).nextId
  let d := ((d.visPop p).visParts p id).visCal p
  let (ratio, d) := d.visRatio p
  let f := d.visFrame p id d.fire.pos.toNat ratio
  let d := d.updVp p (fun v =>
    let v := { v with nextId := (id + 1) % 2 ^ 32, trig := true, strbPend := true }
    if v.cap.isSome then { v with nextCap := some f } else { v with cap := some f })
  let v := d.vp p
  let d := (d.wr .VIS_FRAME_FRAMEID id p).wr .VIS_STAT_STATE 2 p
  (d.wr .VIS_ESCTL_CURSTR ((v.strobe.map (·.esid)).getD 255) p).wr .VIS_ESCTL_CURSEN (((v.sensorFor id).map (·.esid)).getD 255) p

/-- The port's state does not let a trigger through (R224). -/
def Dev.visBusy (d : Dev) (p : Nat) : Bool :=
  if d.flag .VIS_CFG_OVERLAP p then decide (d.rd .VIS_STAT_STATE p = 2) || decide (d.rd .VIS_STAT_STATE p = 4)
  else decide (d.rd .VIS_STAT_STATE p ≠ 1)

/-- CAMERA_TRIGGER (R223, R224): F has reached the first position of the queue. -/
def execCameraTrigger (p : Port) (s : State) : Out :=
  s.act fun d =>
    let v := d.vp p.val
    match v.trigQ with
    | pos :: _ =>
      if !d.visOn p.val || pdiff d.fire.pos (BitVec.ofNat 48 pos) < 0 then d
      else if v.headPast || d.visBusy p.val then d.visSkip p.val pos
      else d.visTrigger p.val
    | [] => d

/-- TRIGGER_PULSE_END (R223). -/
def execTriggerPulseEnd (p : Port) (s : State) : Out := s.act (·.updVp p.val (fun v => { v with trig := false }))

/-- STROBE_START (R225): `DLY` after a trigger. -/
def execStrobeStart (p : Port) (s : State) : Out :=
  s.act (·.updVp p.val (fun v => if v.strbPend then { v with strbPend := false, strb := true } else v))

/-- STROBE_END (R225). -/
def execStrobeEnd (p : Port) (s : State) : Out := s.act (·.updVp p.val (fun v => { v with strb := false }))

/-! ### Streams -/

/-- Write a stream buffer to the port's ring; answers whether a descriptor took it (R233). -/
def State.camPut (s : State) (p : Nat) (b : CamBuf) : Bool × State :=
  match s.ringDesc (40 + p) with
  | none => (false, s)
  | some (a, bs) =>
    if s.dram.poisoned a 32 || !s.bufferOk (40 + p) (descBuf bs) (descLen bs) then (false, s.descFail (40 + p) a)
    else
      let v := s.dev.vp p
      let data := (b.header p ++ b.data).take (descLen bs)
      let s := s.dramWrite (descBuf bs) data v.bad
      let s := s.descDone (40 + p) a bs b.spec12 (doneStatus v.bad v.tries) v.tries data.length
        (if descCrc bs then (crc32c data).toNat else 0)
      (true, { s with dev := s.dev.updVp p (fun v => { v with tries := 0, bad := false }) })

/-- A stream's output of a frame is lost (R233). -/
def Dev.camNobuf (d : Dev) (p stream frame : Nat) : Dev :=
  (d.wr .VIS_STAT_NOBUF 1 p).raise Ev.CAM_NOBUF (le 1 p ++ le 1 stream ++ le 4 frame)

/-- Change the state's port p. -/
def State.updVp (s : State) (p : Nat) (f : Vis → Vis) : State := { s with dev := s.dev.updVp p f }

/-- Write the buffers of one stream of a frame; the rest is lost with the first that finds no descriptor, and the loops use nothing of a
stream so lost (10, R261). -/
def State.camPutAll (s : State) (p : Nat) : List CamBuf → State
  | [] => s
  | b :: t =>
    match s.camPut p b with
    | (true, s) => State.camPutAll s p t
    | (false, s) => { s with dev := (s.dev.camNobuf p b.stream b.frame).updVp p (fun v => { v with lost := v.lost ++ [b.stream] }) }

/-- A 16-bit word of DRAM. -/
def Dram.half (m : Dram) (a : Nat) : Nat := leVal (memReadAll m.mem a 2)

/-- Bits per raw sample. -/
def Dev.visBits (d : Dev) (p : Nat) : Nat := min 14 (10 + 2 * d.rd .VIS_CFG_FMT p)

/-- The pipeline over what has been received of a frame: calibration and map words read with poison use gain 1.0 and dark 0 (R232,
R238). -/
def State.isp (s : State) (p : Nat) (c : Cap) : Frame3 :=
  let w := s.dev.rd .VIS_GEOM_WIDTH p
  let base := c.ffbase * 256
  let word := fun (k other : Nat) =>
    if c.flags.cal || c.badWords.elem k || s.dram.poisoned (base + 2 * k) 2 then other else s.dram.half (base + 2 * k)
  c.pipeline (s.dev.visBits p) (s.dev.flag .VIS_CFG_MERGE p) (fun x => word x.toNat 0)
    (fun x y => word (w * (y.toNat + 1) + x.toNat) 0x4000)

/-- A word of the maps that the first `n` rows use is poisoned. -/
def State.mapBad (s : State) (p n : Nat) (c : Cap) : Bool :=
  !c.flags.cal && decide (n ≠ 0) && s.dram.poisoned (c.ffbase * 256) (2 * s.dev.rd .VIS_GEOM_WIDTH p * (n + 1))

/-- A stream buffer of a frame with its data. -/
def Cap.buf (c : Cap) (stream win lines first width : Nat) (data : List Byte) : CamBuf :=
  { stream := stream, frame := c.id, esid := c.esid, flags := c.flags, win := win, lines := lines, first := first, width := width
    pos := c.pos, time := c.time, ffver := c.ffver, data := data }

/-- Write S0 from row `s0Next` on (Table 9-3): as many rows as a buffer holds; a part of a buffer only at the frame's end
(`all`). `avail` rows are final. -/
def State.s0Write (s : State) (p : Nat) (f : Frame3) (avail : Nat) (all : Bool) : Nat → Cap → State × Cap
  | 0, c => (s, c)
  | fuel + 1, c =>
    if c.s0Lost || decide (avail ≤ c.s0Next) then (s, c)
    else
      let row := (f.s0Row (s.dev.rd .VIS_CFG_S0SRC p) c.s0Next).length
      let room := ((s.ringDesc (40 + p)).map (fun x => (descLen x.2 - 64) / max 1 row)).getD 0
      let n := min room (avail - c.s0Next)
      if room = 0 then ({ s with dev := s.dev.camNobuf p 0 c.id }, { c with s0Lost := true })
      else if decide (n < room) && !all then (s, c)
      else
        let data := (List.range n).flatMap (fun k => f.s0Row (s.dev.rd .VIS_CFG_S0SRC p) (c.s0Next + k))
        match s.camPut p (c.buf 0 0 n c.s0Next (s.dev.rd .VIS_GEOM_WIDTH p) data) with
        | (true, s) => State.s0Write s p f avail all fuel { c with s0Next := c.s0Next + n }
        | (false, s) => ({ s with dev := s.dev.camNobuf p 0 c.id }, { c with s0Lost := true })

/-- Stream Ss is enabled. -/
def Dev.visStream (d : Dev) (p n : Nat) : Bool := bitOf (d.rd .VIS_CFG_SEN p) n

/-- The S0 header with no data and `ABORT` (R235, R237). -/
def State.s0Abort (s : State) (p : Nat) (c : Cap) : State :=
  if s.dev.visStream p 0 then
    let c := { c with flags := { c.flags with abort := true } }
    s.camPutAll p [c.buf 0 0 0 c.s0Next (s.dev.rd .VIS_GEOM_WIDTH p) []]
  else s

/-- A readout is filled up to the frame's height with lines of 0 (R222). -/
def fillLines (h w : Nat) (rows : List (List Nat)) : List (List Nat) :=
  rows ++ List.replicate (h - rows.length) (List.replicate w 0)

/-! ### Packets -/

/-- The bursts of a line into the port's buffer have overrun it: the outcome says so, and at the least rate G_p of R235 four
lines are still there. -/
def Dev.visFull (d : Dev) (p : Nat) (full : Bool) : Bool :=
  full && decide (4 ≤ ((d.vp p).drain.filter (fun t => decide (d.now * 12 < t))).length)

/-- Weight of port p in `VIS_ARB`. -/
def Dev.visWeight (d : Dev) (p : Nat) : Nat := max 1 (bitsOf (d.rd .VIS_ARB_W) (4 * p) 4)

/-- A line enters the buffer: it is drained at the latest at G_p after those before it, in 1/12 ns. -/
def Dev.visFill (d : Dev) (p : Nat) : Dev :=
  let sum := (((List.range d.nPorts).filter (fun q => d.flag .VIS_CFG_EN q)).map d.visWeight).foldl (· + ·) 0
  d.updVp p (fun v =>
    let q := v.drain.filter (fun t => decide (d.now * 12 < t))
    let last := max (d.now * 12) (q.getLastD 0)
    { v with drain := q ++ [last + ceilDiv (d.rd .VIS_GEOM_WIDTH p * sum * 5) (d.visWeight p)] })

/-- The port is set to a format, a line length and a frame height of Table 9-1; set to another, it accepts nothing (R221; assumption 63). -/
def Dev.visAccepts (d : Dev) (p : Nat) : Bool :=
  let w := d.rd .VIS_GEOM_WIDTH p
  let h := d.rd .VIS_GEOM_HEIGHT p
  decide (d.rd .VIS_CFG_FMT p ≠ 3) && decide (64 ≤ w) && decide (w ≤ 8192) && decide (1 ≤ h) && decide (h ≤ 4096)

/-- The CSI-2 data type of the port's format (Table 9-1). -/
def Dev.visType (d : Dev) (p : Nat) : Nat := 0x2B + d.rd .VIS_CFG_FMT p

/-- A line of the frame: its pixels cut or filled to the width; a surplus line is discarded (R222). The map words read with poison for it are
a gain word of its row each (R232). -/
def Dev.visLine (d : Dev) (p : Nat) (low : Bool) (pkt : CsiPkt) (c : Cap) : Cap :=
  let w := d.rd .VIS_GEOM_WIDTH p
  let h := d.rd .VIS_GEOM_HEIGHT p
  let row := ((pkt.pixels.map BitVec.toNat) ++ List.replicate w 0).take w
  let bad := decide (pkt.pixels.length ≠ w)
  let words := if low || c.flags.cal then [] else pkt.mapPoison.map (fun x => w * (c.lines0.length + 1) + x.val)
  let c := { c with badWords := c.badWords ++ words, seenAt := d.now
                    flags := { c.flags with crcErr := c.flags.crcErr || !pkt.crcOk, geom := c.flags.geom || bad,
                                            poison := c.flags.poison || words != [] } }
  if low then { c with lines1 := (c.lines1 ++ [row]).take h, flags := { c.flags with geom := c.flags.geom || decide (h ≤ c.lines1.length) } }
  else { c with n0 := c.n0 + 1, lines0 := (c.lines0 ++ [row]).take h }

/-- Change the frame being received. -/
def Dev.setCap (d : Dev) (p : Nat) (c : Option Cap) : Dev := d.updVp p (fun v => { v with cap := c })

/-- The frame is dropped whole (R235). -/
def State.visDrop (s : State) (p : Nat) (c : Cap) : State :=
  let s := s.s0Abort p c
  let d := ((s.dev.wr .VIS_STAT_DROP 1 p).inc .VIS_CNT_DROPS p).setCap p (some { c with dropped := true })
  { s with dev := d.raise Ev.CAM_FRAME_DROP (le 1 p ++ le 4 c.id ++ le 2 c.n0) }

/-- Rows of S0 that no later line changes: stage 2 takes a row of each readout, stage 3 reaches 2 rows on, stage 5 two more. -/
def Dev.s0Avail (d : Dev) (p : Nat) (c : Cap) : Nat :=
  let rows := if d.flag .VIS_CFG_MERGE p then min c.lines0.length c.lines1.length else c.lines0.length
  rows - (if d.rd .VIS_CFG_S0SRC p = 0 then 2 else 4)

/-- A line is processed: poison in the maps that it reads flags the frame (R232), S0 buffers that it fills are written (Table 9-3). -/
def State.visS0 (s : State) (p : Nat) (c : Cap) : State :=
  let c := { c with flags := { c.flags with poison := c.flags.poison || s.mapBad p c.lines0.length c } }
  if !s.dev.visStream p 0 then { s with dev := s.dev.setCap p (some c) }
  else
    let (s, c) := s.s0Write p (s.isp p c) (s.dev.s0Avail p c) false 8192 c
    { s with dev := s.dev.setCap p (some c) }

/-- A packet of the frame being received (R222). -/
def State.visPacket (s : State) (p : Nat) (pkt : CsiPkt) (c : Cap) : State :=
  let main := decide (pkt.vc.val = s.dev.rd .VIS_CFG_VC0 p)
  let low := s.dev.flag .VIS_CFG_MERGE p && decide (pkt.vc.val = s.dev.rd .VIS_CFG_VC1 p)
  if pkt.hdrErr.val = 2 || !(main || low) then s
  else if pkt.dtype.toNat = 0 then
    if main && !c.started then
      let d := s.dev.setCap p (some { c with started := true, seenAt := s.dev.now })
      { s with dev := if (d.vp p).nextCap.isSome then d else d.wr .VIS_STAT_STATE 3 p }
    else s
  else if !s.dev.visAccepts p || pkt.dtype.toNat != s.dev.visType p || !c.started || c.dropped then s
  else if s.dev.visFull p pkt.full then s.visDrop p c
  else
    let s := { s with dev := s.dev.visFill p }
    s.visS0 p (s.dev.visLine p (!main) pkt c)

/-- CSI_PACKET (R221, R222, R235). -/
def execCsiPacket (p : Port) (pkt : CsiPkt) (s : State) : Out :=
  match (s.dev.vp p.val).cap with
  | some c => .next (if s.dev.visOn p.val && s.dev.rd .VIS_STAT_STATE p.val != 4 then s.visPacket p.val pkt c else s)
  | none => .next s

/-! ### Frame end and watchdog -/

/-- The frame being received is over: one triggered during its readout follows, else the port waits for a trigger; blanking
begins. -/
def Dev.visNext (d : Dev) (p : Nat) : Dev :=
  let v := d.vp p
  let d := d.updVp p (fun v => { v with cap := v.nextCap, nextCap := none })
  (d.wr .VIS_STAT_STATE (if v.nextCap.isSome then 2 else 1) p).visBlank p

/-- Buffers S1 of a frame. -/
def State.s1Bufs (s : State) (p : Nat) (f : Frame3) (c : Cap) : List CamBuf :=
  let w := s.dev.rd .VIS_GEOM_WIDTH p
  if s.dev.visStream p 1 then c.wins.map (fun x => c.buf 1 x.1 1 x.2.1 w (f.s1 w x.2.1 x.2.2)) else []

/-- Buffer S2 of a frame. -/
def State.s2Buf (s : State) (p : Nat) (f : Frame3) (c : Cap) : List CamBuf :=
  let w := s.dev.rd .VIS_GEOM_WIDTH p
  let h := s.dev.rd .VIS_GEOM_HEIGHT p
  if s.dev.visStream p 2 then [c.buf 2 0 (ceilDiv h 8) 0 (ceilDiv w 8) (f.s2 w h)] else []

/-- Buffer S3 of a frame: `LINES` and `WIDTH` are free, the spec gives S3 none. -/
def State.s3Buf (s : State) (p : Nat) (f : Frame3) (c : Cap) : List CamBuf × State :=
  let w := s.dev.rd .VIS_GEOM_WIDTH p
  let h := s.dev.rd .VIS_GEOM_HEIGHT p
  if s.dev.visStream p 3 then
    let (lines, d) := s.dev.free 16
    let (width, d) := d.free 16
    ([c.buf 3 0 lines 0 width (f.s3 w h (c.fullScale (s.dev.visBits p)))], { s with dev := d })
  else ([], s)

/-- A buffer of the last usable frame with `STALE` (R238). -/
def CamBuf.stale (b : CamBuf) : CamBuf := { b with flags := { b.flags with stale := true } }

/-- `CRCERR` and `GEOM` of an ended frame are reported (Table 9-6). -/
def Dev.visFlags (d : Dev) (p : Nat) (c : Cap) : Dev :=
  let d := if c.flags.crcErr then (d.wr .VIS_STAT_CRC 1 p).raise Ev.CAM_CRC (le 1 p ++ le 4 c.id) else d
  if c.flags.geom then (d.wr .VIS_STAT_GEOM 1 p).raise Ev.CAM_GEOM (le 1 p ++ le 4 c.id ++ le 2 c.n0) else d

/-- The streams of an ended frame (R233, R234, R238). -/
def State.visOutputs (s : State) (p : Nat) (c : Cap) : State :=
  let f := s.isp p c
  let (s, c) := if s.dev.visStream p 0 then s.s0Write p f (s.dev.rd .VIS_GEOM_HEIGHT p) true 8192 c else (s, { c with s0Lost := true })
  if c.flags.cal then
    let v := s.dev.vp p
    let old := v.lastUsable.map CamBuf.stale
    ((s.camPutAll p (old.filter (·.stream = 1))).camPutAll p (old.filter (·.stream = 3))).updVp p (fun x => { x with lost := v.lost })
  else
    let s1 := s.s1Bufs p f c
    let (s3, s) := s.s3Buf p f c
    if c.flags.bits = 0 then
      let s := s.updVp p (fun v => { v with lastUsable := s1 ++ s3, lost := if c.s0Lost then [0] else [] })
      ((s.camPutAll p s1).camPutAll p (s.s2Buf p f c)).camPutAll p s3
    else
      let was := (s.dev.vp p).lost
      (((s.camPutAll p s1).camPutAll p (s.s2Buf p f c)).camPutAll p s3).updVp p (fun v => { v with lost := was })

/-- A frame ends (R222, R230, R233). -/
def State.visEnd (s : State) (p : Nat) (c : Cap) : State :=
  let w := s.dev.rd .VIS_GEOM_WIDTH p
  let h := s.dev.rd .VIS_GEOM_HEIGHT p
  let low := s.dev.flag .VIS_CFG_MERGE p
  let c := { c with
    flags := { c.flags with geom := c.flags.geom || decide (c.n0 ≠ h) || (low && decide (c.lines1.length ≠ h)),
                            poison := c.flags.poison || s.mapBad p h c }
    lines0 := fillLines h w c.lines0, lines1 := if low then fillLines h w c.lines1 else [] }
  let s := { s with dev := s.dev.visFlags p c }
  (s.visOutputs p c).updVp p (fun v => { v with timeouts := 0 })

/-- FRAME_END (R230, R233): the frame end of the frame being received has come. -/
def execFrameEnd (p : Port) (s : State) : Out :=
  match (s.dev.vp p.val).cap with
  | some c =>
    if s.dev.visOn p.val && c.started && s.dev.rd .VIS_STAT_STATE p.val != 4 then
      let s := if c.dropped then s.updVp p.val (fun v => { v with timeouts := 0 }) else s.visEnd p.val c
      .next { s with dev := s.dev.visNext p.val }
    else .next s
  | none => .next s

/-- The watchdog's cause (Table 9-6): 1 frame start, 2 line gap, 3 frame end. -/
def Dev.visCause (d : Dev) (p : Nat) (c : Cap) : Nat :=
  if !c.started then 1 else if c.n0 < d.rd .VIS_GEOM_HEIGHT p then 2 else 3

/-- A timer of the watchdog expires: the frame is aborted and the port resets; the third timeout in a row raises
`CAM_LINK` (R237). -/
def State.visTimeout (s : State) (p : Nat) (c : Cap) : State :=
  let s := s.s0Abort p c
  let n := (s.dev.vp p).timeouts + 1
  let d := ((s.dev.wr .VIS_STAT_TIMEOUT 1 p).inc .VIS_CNT_TIMEOUTS p).wr .VIS_STAT_STATE 4 p
  let d := d.updVp p (fun v => { v with cap := none, timeouts := n % 3 })
  let d := d.raise Ev.CAM_TIMEOUT (le 1 p ++ le 4 c.id ++ le 1 (s.dev.visCause p c))
  { s with dev := if n = 3 then d.raise Ev.CAM_LINK (le 1 p) else d }

/-- A timer of the watchdog has run out: `FTO` from the trigger to the frame start, `LGTO` from then or a line to the next line or the end. -/
def Dev.visOver (d : Dev) (p : Nat) (c : Cap) : Bool :=
  if c.started then d.passed c.seenAt (1000 * d.rd .VIS_TO_LGTO p) else d.passed c.time (100000 * d.rd .VIS_TO_FTO p)

/-- FRAME_WATCHDOG_TIMEOUT (R237); a frame already dropped is not aborted again. -/
def execFrameWatchdogTimeout (p : Port) (s : State) : Out :=
  match (s.dev.vp p.val).cap with
  | some c =>
    if !s.dev.visOn p.val || s.dev.rd .VIS_STAT_STATE p.val = 4 || !s.dev.visOver p.val c then .next s
    else if c.dropped then .next { s with dev := s.dev.visNext p.val }
    else .next (s.visTimeout p.val c)
  | none => .next s

/-- CAM_RESET_DONE (R237): the port leaves RESET. -/
def execCamResetDone (p : Port) (s : State) : Out :=
  s.act fun d => if d.rd .VIS_STAT_STATE p.val = 4 then d.visNext p.val else d

/-- `VIS_CFG.EN` has changed: the port waits for triggers, or is off with what it had in progress gone. -/
def Dev.visEnable (d : Dev) (p : Nat) : Dev :=
  if d.flag .VIS_CFG_EN p then (d.wr .VIS_STAT_STATE 1 p).visBlank p
  else (d.updVp p (fun v => { v with cap := none, nextCap := none, trig := false, strb := false, strbPend := false })).wr
    .VIS_STAT_STATE 0 p

end Sys2Proof.Machine
end

