-- ==== Sys2Proof/Machine/Firing.lean ====
section
/-! DEFINITION. Send points (06, R152 to R156; 08, R202, R207; 12, R291, R297): which line of a bar is next, whether it is ready, its
FIRE frames, and the camera's trigger for a product's gap (10, R245). -/
namespace Sys2Proof.Machine

/-! ### Energy of lines (12, R291) -/

/-- Energy of a line on a head slot, from the record of its band: in 0.01 nJ. -/
def Dev.lineEnergy (d : Dev) (slot jn line : Nat) : Nat :=
  match d.pipes.find? (fun i => decide (d.rd .DP_GEOM_SLOT0 i ≤ slot) && decide (slot < d.rd .DP_GEOM_SLOT0 i + d.rd .DP_GEOM_HEADS i)) with
  | none => 0
  | some i =>
    match d.aba.recs.find? (fun r => decide (r.bar = i) && decide (r.jn = jn) && decide (r.line ≤ line) && decide (line < r.line + r.count)) with
    | none => 0
    | some r =>
      let e := nth r.e (slot - d.rd .DP_GEOM_SLOT0 i)
      e / max 1 r.count + (if line = r.line then e % max 1 r.count else 0)

/-- A line's FIRE frames were sent: its energy counts for the epoch. -/
def Dev.countEnergy (d : Dev) (bar jn line : Nat) (slots : List Nat) : Dev :=
  let fired := slots.foldl (fun t s => Tab.upd t s (· + d.lineEnergy s jn line)) d.aba.fired
  { d with aba := { d.aba with fired := fired, lines := d.aba.lines + (if bar = 0 then 1 else 0) } }

/-! ### Lane loss (07, R196, R197) -/

/-- The bar of a lane has placed lines. -/
def Dev.lanePlaced (d : Dev) (n : Nat) : Bool := (d.barOf n).any d.barPlaced

/-- Spoil every head-line sent on the lane and not confirmed. -/
def Dev.spoilUnconfirmed (d : Dev) (n : Nat) : Dev :=
  let es := Tab.at d.integ.tally n
  let d : Dev := { d with integ := { d.integ with tally := Tab.put d.integ.tally n [] } }
  let d := d.forEach es (fun d e => d.spoilHeadLine .laneDown ((d.barOf n).getD 0) n e.jn e.line)
  d.forEach (es.map (·.jn)) Dev.maybeDone

/-- A lane leaves TIMED with its bar placed: cause 1 lock, 2 STATUS timeout, 3 offset, 4 HREF. -/
def Dev.laneLoss (d : Dev) (n cause : Nat) : Dev :=
  if d.lanePlaced n then
    let d := (d.spoilUnconfirmed n).updLane n (fun l => { l with lossAt := some d.now, stopAsked := false })
    d.raise Ev.ZL_LANE_DOWN (le 1 n ++ le 1 cause)
  else d

/-- A send point passes before an enabled lane is TIMED, with no loss reported since it was: that is handled as a lane loss (R196). The
event's cause is 1: Table 7-10 names none for a wake, and the lane has no lock to use yet (DESIGN CHOICE, assumption 61). -/
def Dev.lateLane (d : Dev) (n : Nat) : Dev :=
  if d.flag .ZL_CFG_EN n && (d.lane n).lossAt.isNone then d.laneLoss n 1 else d

/-! ### Readiness (R155) -/

/-- Why a head-line is not ready at its send point. -/
inductive NotReady where
  | laneDown
  | missing
  | mismatch
  | withheld
  deriving DecidableEq, Repr

/-- The lane is TIMED. -/
def Dev.timed (d : Dev) (n : Nat) : Bool := decide (d.rd .ZL_STAT_STATE n = 4)

/-- The entry of an output FIFO whose tag of JN, line and bar is that of a line. -/
def Dev.fifoLine (d : Dev) (slot : Nat) (l : LineId) : Option FifoLine :=
  (d.lane slot).fifo.find? (fun f => decide (f.jn = l.jn) && decide (f.line = l.line) && decide (f.bar = l.bar))

/-- A head-line is ready: its lane TIMED, its data in the output FIFO under its tag (01, R11) and not withheld. The data of a line that was
withdrawn stands at the head (R158). A dark head fires nothing, and only its lane counts (07, R197). -/
def Dev.notReady (d : Dev) (slot : Nat) (l : LineId) (again : Bool) : Option NotReady :=
  if !d.timed slot then some .laneDown
  else if again || (d.lane slot).isDark then none
  else
    match d.fifoLine slot l with
    | some f => if f.withheld = 0 then none else some .withheld
    | none => if (d.lane slot).fifo = [] then some .missing else some .mismatch

/-- The next line of a bar: the earliest that was withdrawn, else the one due; and whether it is sent again. -/
def Dev.nextLine (d : Dev) (bar : Nat) : Option (LineId × Bool) :=
  let key := fun (l : LineId) => (d.placeIdx l.jn).getD 0 * 2 ^ 40 + l.line
  match d.fire.again.filter (fun l => l.bar = bar) with
  | l :: rest => some (rest.foldl (fun m x => if key x < key m then x else m) l, true)
  | [] => (d.due bar).map (fun x => (⟨bar, x.1, x.2, d.trim bar⟩, false))

/-! ### Fire times (R154, R156) -/

/-- The timestamp of the count at which F reached a position, as far back as timestamps are kept; for a line that is sent again, that of the
latest count, at which its send point recurs (R156; assumption 62). -/
def Dev.reachTime (d : Dev) (x : Int) (again : Bool) : Nat :=
  let back := (pdiff d.fire.pos (ceil38 x)).toNat
  if !again && d.fire.cnt = d.fire.pos && !d.fire.revDir then (d.fire.times[back]?).getD d.fire.lastT else d.fire.lastT

/-- Fire time of a head in position mode: the timestamp of that count plus `FIRE_LEAD` plus (pos - D) / max(|v|, `FIRE_VMIN`). -/
def Dev.tfirePos (d : Dev) (p : Pl) (l : LineId) (slot : Nat) (again : Bool) : Nat :=
  let dx := d.headPos p l slot - d.linePos p l
  let v := max d.v20 (d.vmin * 2 ^ 20)
  ((d.reachTime (d.linePos p l) again + d.rd .FIRE_LEAD_NS : Nat) + roundDiv (dx * 1000000000 * 2 ^ 20) (2 ^ 38 * v)).toNat

/-- What each head of a line is sent; none when a head has no fire time. -/
def Dev.sendHeads (d : Dev) (p : Pl) (l : LineId) (again : Bool) (slots : List Nat) : Option (List SentHead) :=
  let one := fun (s : Nat) =>
    let t := if d.predictive then d.tfirePred (d.headPos p l s) else some (d.tfirePos p l s again)
    t.map (fun t => { slot := s, tfire := t, bead := d.headBead p l s, pos := d.headPos p l s : SentHead })
  let hs := slots.map one
  if hs.all Option.isSome then some (hs.filterMap id) else none

/-- The send point of a line has come: in predictive mode the earliest fire time of its heads less `FIRE_LEAD` (R155; of a bar all of whose
heads are dark, that of its due position), in position mode the count at which F reaches its due position (R156). -/
def Dev.sendDue (d : Dev) (p : Pl) (l : LineId) (heads : List SentHead) : Bool :=
  let soon := fun (t : Nat) => decide (t ≤ d.now + d.rd .FIRE_LEAD_NS)
  if !d.predictive then d.reached (d.linePos p l)
  else if heads.isEmpty then (d.tfirePred (d.linePos p l)).any soon
  else heads.any (fun h => soon h.tfire)

/-! ### Dark heads (08, R207) -/

/-- A product starts on the bar: heads whose causes have cleared resume. -/
def Dev.resumeHeads (d : Dev) (bar : Nat) : Dev :=
  d.forEach (d.slotsOf bar) (fun d s =>
    if (d.lane s).dark = 0 && (d.lane s).darkEnd then
      (d.updLane s (fun l => { l with darkEnd := false, darkBy := 0 })).wr .HT_STAT_DARK 0 s
    else d)

/-- Spoil the head-lines of the bar's dark heads, with every reason that they have. -/
def Dev.spoilDark (d : Dev) (bar jn line : Nat) : Dev :=
  d.forEach ((d.slotsOf bar).filter (fun s => (d.lane s).isDark)) (fun d s =>
    d.forEach (d.lane s).darkReasons (fun d r => d.spoilHeadLine r bar s jn line))

/-! ### The camera's view of a gap (10, R245) -/

/-- The position of F at which a port's field centre sees the middle of lines 0 to 215 of a gap that begins with line `g0` (10,
`CAMOFS`; assumption 64). -/
def Dev.gapPos (d : Dev) (plan : BrimPlan) (p : Pl) (port g0 : Nat) : Pos48 :=
  ceil38 (d.duePos p (g0 + 108) 0 + (nth plan.camOfs port : Nat) * 2 ^ 38)

/-- S1 window `w` of a port spans the ladders of the bars it reads, with 2 lines of margin. -/
def Dev.setWindow (d : Dev) (plan : BrimPlan) (port w : Nat) : Dev :=
  let rows := ((d.bars.map (·.bar)).filter (fun b => nth plan.win b = w)).filterMap (fun b => plan.ladder[b]?)
  match rows with
  | [] => d.wr .VIS_WIN_EN 0 port w
  | x :: rest =>
    let lo := rest.foldl (fun m y => min m y.1) x.1
    let hi := rest.foldl (fun m y => max m (y.1 + y.2)) (x.1 + x.2)
    ((d.wr .VIS_WIN_Y0 (Config.frameRow port (lo - 2)).toNat port w).wr .VIS_WIN_Y1 ((Config.frameRow port (hi + 1)).toNat + 1) port w).wr
      .VIS_WIN_EN 1 port w

/-- VS sets a port for the gap of a product: its windows, and the position in its trigger queue. -/
def Dev.aimPort (d : Dev) (plan : BrimPlan) (p : Pl) (g0 port : Nat) : Dev :=
  let d := d.forEach (List.range 4) (fun d w => d.setWindow plan port w)
  let x := (d.gapPos plan p port g0).toNat
  (d.updVp port (fun v => { v with trigLo := x % 2 ^ 32 })).visEnqueue port (x / 2 ^ 32)

/-- Bar 0 starts a product whose gap is measured: every port in use is set for it. Starting then, a queue holds the gaps between bar 0 and
the camera (assumption 64). -/
def Dev.aimGap (d : Dev) (p : Pl) (r : JobRec) (line : Nat) : Dev :=
  match d.plan, d.numberOf p.jn (r.firstPn + line / r.pitch) with
  | some plan, some (some _) =>
    if d.runs .vs then d.forEach ((List.range d.nPorts).filter d.visOn) (fun d q => d.aimPort plan p (line + r.pitch - r.brimLines) q) else d
  | _, _ => d

/-! ### Sending -/

/-- Bar 0 starts a product (08, R202; 02, Table 2-14): its entry is allocated, its job becomes ACTIVE. -/
def Dev.startProduct (d : Dev) (p : Pl) (r : JobRec) (line : Nat) : Dev :=
  let pn := r.firstPn + line / r.pitch
  if (d.prod p.jn pn).isSome then d
  else
    let at0 := d.duePos p line 0
    let d := d.allocProd p.jn pn line (line + r.pitch - 1) at0 (d.duePos p (line + r.pitch) 0)
    let d := if (d.job p.jn).any (fun j => j.st = .placed) then d.setJobSt p.jn .active else d
    d.aimGap p r line

/-- The line is settled on its bar: its product is spoiled whole, or the line is confirmed, spoiled or dropped there (08, R203). -/
def Dev.lineSettled (d : Dev) (l : LineId) : Bool :=
  match d.integ.prods.find? (fun p => decide (p.jn = l.jn) && decide (p.first ≤ l.line) && decide (l.line ≤ p.last)) with
  | some p => p.whole || p.isClosed || p.settled.elem (l.bar, l.line)
  | none => true

/-- A Tally table of 64 entries that is full gives up its oldest head-line, whose ECHO frame then settles nothing (R211; DESIGN CHOICE,
assumption 56). -/
def Dev.tallyRoom (d : Dev) (bar slot : Nat) : Dev :=
  match Tab.at d.integ.tally slot with
  | e :: rest =>
    if rest.length < 63 then d
    else Dev.spoilHeadLine { d with integ := { d.integ with tally := Tab.put d.integ.tally slot rest } } .echo bar slot e.jn e.line
  | [] => d

/-- Record a head-line sent and not yet settled in the Tally table of its lane (08, R211). -/
def Dev.tallyEntry (d : Dev) (l : LineId) (h : SentHead) : Dev :=
  if d.lineSettled l then d
  else
    let old := Tab.at d.integ.tally h.slot
    let same := fun (t : TallyEnt) => decide (t.jn = l.jn) && decide (t.line = l.line)
    let tv := match d.fifoLine h.slot l with
      | some f => f.tv
      | none => ((old.find? same).map (·.tv)).getD 0
    let d := Dev.tallyRoom { d with integ := { d.integ with tally := Tab.put d.integ.tally h.slot (old.filter (fun t => !same t)) } } l.bar h.slot
    let e : TallyEnt := ⟨l.jn, l.line, tv, d.linkTime h.tfire⟩
    { d with integ := { d.integ with tally := Tab.put d.integ.tally h.slot (Tab.at d.integ.tally h.slot ++ [e]) } }

/-- Send FIRE frames to the heads of a line. -/
def Dev.fireLine (d : Dev) (l : LineId) (heads : List SentHead) : Dev :=
  let d := d.forEach heads (fun d h => (d.sendFire l.jn l.line h false false).tallyEntry l h)
  let since := match d.productOf l.jn l.line with
    | some (pn, _, _) => addNew d.fire.sentSince [(l.jn, pn)]
    | none => d.fire.sentSince
  let x : SentLine := { bar := l.bar, jn := l.jn, line := l.line, trim := l.trim, heads := heads, late := false }
  let d : Dev := { d with fire := { d.fire with sent := d.fire.sent ++ [x], sentSince := since } }
  d.countEnergy l.bar l.jn l.line (heads.map (·.slot))

/-- The runway has run out under the web (12, R297). -/
def Dev.underrun (d : Dev) (bar jn line : Nat) : Dev :=
  if d.st = .printing || d.st = .draining then
    let d := d.wr .AB_STAT_UNDERRUN 1
    if d.held .underrun then d else (d.raise Ev.AB_UNDERRUN (le 1 bar ++ le 4 jn ++ le 4 line)).holdCause .underrun
  else d

/-- A line that is not ready: no head fires it; it is spoiled with the reason of each failure (R155; 07, R196, R197). A withheld head-line was
spoiled when it was withheld. -/
def Dev.spoilUnready (d : Dev) (l : LineId) (why : List NotReady) : Dev :=
  let d :=
    if why.elem .laneDown then
      (d.forEach ((d.slotsOf l.bar).filter (fun s => !d.timed s)) Dev.lateLane).spoilBarLine .laneDown l.bar l.jn l.line
    else d
  let d := if why.elem .missing || why.elem .mismatch then d.spoilBarLine .underrun l.bar l.jn l.line else d
  if why.elem .missing then d.underrun l.bar l.jn l.line else d

/-- The line leaves the bar's output FIFOs, and the pointer or the list of withdrawn lines. -/
def Dev.pastLine (d : Dev) (l : LineId) (again : Bool) : Dev :=
  let d := d.forEach (d.slotsOf l.bar) (fun d s =>
    d.updLane s (fun x => { x with fifo := x.fifo.filter (fun f => !(decide (f.jn = l.jn) && decide (f.line = l.line))) }))
  if again then { d with fire := { d.fire with again := d.fire.again.filter (fun x => x != l) } }
  else d.moveDue l.bar (d.seek l.bar l.jn (l.line + 1))

/-- The first line that bar 0 is due to send in ARMED sets the position at which PRINTING begins (01, Table 1-9; R163). -/
def Dev.noteFirst (d : Dev) (p : Pl) (l : LineId) : Dev :=
  if d.st = .armed && l.bar = 0 && d.fire.first.isNone then { d with fire := { d.fire with first := some (d.linePos p l) } } else d

/-- A line at its send point: sent to every head of the bar that is not dark, or spoiled. -/
def Dev.sendLine (d : Dev) (l : LineId) (again : Bool) (heads : List SentHead) : Dev :=
  let d := d.spoilDark l.bar l.jn l.line
  let why := (d.slotsOf l.bar).filterMap (fun s => d.notReady s l again)
  let d := if why = [] then d.fireLine l heads else d.spoilUnready l why
  let d := (d.pastLine l again).freeEntries
  if l.bar = 0 then d.refreshLead else d

/-- The send point of a bar's next line; nothing happens before it (R134, R155, R156). The lead is brought up to date once per line of
bar 0 (05, R125). -/
def Dev.sendPoint (d : Dev) (bar : Nat) : Dev :=
  match d.nextLine bar with
  | none => d
  | some (l, again) =>
    match d.plOf l.jn, (d.job l.jn).bind (·.rec?) with
    | some p, some r =>
      let d := d.refreshSpeed
      let start := r.pitch != 0 && decide (l.line % r.pitch = 0) && !again
      let d' := if start then d.resumeHeads bar else d
      let slots := (d'.slotsOf bar).filter (fun s => !(d'.lane s).isDark)
      match d'.sendHeads p l again slots with
      | none => d
      | some heads =>
        if !d.sendDue p l heads then d
        else
          let d := if start && decide (bar = 0) then d'.startProduct p r l.line else d'
          (d.noteFirst p l).sendLine l again heads
    | _, _ => d

/-- SEND_POINT (R155): only while lines may fire (01, Table 1-8) and `FIRE_CTL.EN` is 1. -/
def execSendPoint (bar : Pipe) (s : State) : Out :=
  s.act fun d => if d.st.running && d.flag .FIRE_CTL_EN then d.sendPoint bar.val else d

end Sys2Proof.Machine
end

