-- ==== Sys2Proof/Machine/Abacus.lean ====
section
/-! DEFINITION. The Abacus (12, R289 to R298; 03, R70): power ladder, limits, lead requirement, ceiling profile. -/
namespace Sys2Proof.Machine

/-- Change the planner's state. -/
def Dev.updAba (d : Dev) (f : Aba → Aba) : Dev := { d with aba := f d.aba }

/-- |v| in counts/s. -/
def Dev.vAbs (d : Dev) : Nat := d.v20 / 2 ^ 20

/-- v_cfg of Table 12-3, under the SPEED_LIMIT in force (14, Table 14-3). -/
def Dev.vCfg (d : Dev) : Nat := min (d.rd .AB_VCFG_V) (d.rd .XPP_VLIM_V)

/-! ### Module power (R292, R293, R300, R301) -/

/-- P_lim in 0.1 W by the warning and the throttle. -/
def Dev.plim (d : Dev) : Nat :=
  if d.flag .AON_PWR_WARN then d.rd .AB_PLIM_FLOOR else max (d.rd .AB_PLIM_FLOOR) (d.rd .AB_PLIM_CFG - d.aba.cut)

/-- `AB_PLIM.CUR` follows. -/
def Dev.setPlim (d : Dev) : Dev := d.wr .AB_PLIM_CUR d.plim

/-- The throttle at an epoch end (Table 12-4): 2 W down while set, 2 W up every 16 epochs while not. -/
def Dev.throttleStep (d : Dev) : Dev :=
  let d :=
    if d.flag .AB_STAT_THROTTLE then
      d.updAba (fun a => { a with cut := min (d.rd .AB_PLIM_CFG - d.rd .AB_PLIM_FLOOR) (a.cut + 20), plimRise := 0 })
    else if d.aba.cut = 0 then d
    else if 15 ≤ d.aba.plimRise then d.updAba (fun a => { a with cut := a.cut - 20, plimRise := 0 })
    else d.updAba (fun a => { a with plimRise := a.plimRise + 1 })
  d.setPlim

/-- Quads of Table 12-2 that are shed on a step. -/
def shedOn (step : Nat) : List Nat := (List.range (min 3 step)).map (fun k => 3 - k)

/-- The next step of the ladder and the count of epochs in a row under P_lim less `PHYST`: powers in 10 mW, 0.1 W and u8.8 W. -/
def ladderNext (step under pwr plim physt : Nat) : Nat × Nat :=
  if 10 * plim < pwr then (min 6 (step + 1), 0)
  else if pwr * 256 + 100 * physt ≤ plim * 2560 then (if 15 ≤ under then (step - 1, 0) else (step, under + 1))
  else (step, 0)

/-- v_mod at a later epoch end on step 6. -/
def Dev.vmodNext (d : Dev) (v pwr : Nat) : Nat :=
  let gain : Int := (10 * d.rd .AB_PLIM_CUR : Nat) - pwr
  let slope := d.rd .AB_MSLOPE_MSLOPE
  if slope = 0 then (if 0 < gain then d.vCfg else if gain < 0 then 0 else v)
  else (clampInt 0 d.vCfg (v + gain * d.rd .FIRE_CPM_CPM / (100 * slope : Int))).toNat

/-- Bring the quads to those of a step. -/
def Dev.shedTo (d : Dev) (step : Nat) : Dev :=
  d.forEach [3, 2, 1] (fun d q => if (shedOn step).elem q then d.shedQuad q else d.restoreQuad q)

/-- One epoch of the ladder (R293). -/
def Dev.ladder (d : Dev) (pwr : Nat) : Dev :=
  let old := d.rd .AB_LADDER_STEP
  let (step, under) := ladderNext old d.aba.under pwr (d.rd .AB_PLIM_CUR) (d.rd .AB_MSLOPE_PHYST)
  let vmod := if step ≠ 6 then none
    else if old ≠ 6 then some d.vAbs else some (d.vmodNext (d.aba.vmod.getD 0) pwr)
  let d := (d.updAba (fun a => { a with under := under, vmod := vmod })).wr .AB_STAT_MODLIM (bit vmod.isSome)
  if step = old then d
  else
    let d := ((d.wr .AB_LADDER_STEP step).wr .AB_LADDER_RCK (step - 3)).shedTo step
    d.raise Ev.AB_STEP (le 1 step ++ le 2 pwr ++ le 2 (d.rd .AB_PLIM_CUR))

/-! ### Head power (R291, R298) -/

/-- The energy sent to each head during the epoch becomes its p_fire in mW; the sums begin anew. -/
def Dev.firePower (d : Dev) : Dev :=
  let dur := max 1 (d.now - d.aba.since)
  let d := d.forEach (List.range d.nLanes) (fun d h => d.updHt h (fun x => { x with pfire := Tab.at d.aba.fired h * 10 / dur }))
  d.updAba (fun a => { a with fired := [], lines := 0, since := d.now })

/-- The head-power limit of a bar at an epoch end. -/
def Dev.hpStep (d : Dev) (k : Nat) : Dev :=
  let cur := d.rd .AB_HPLIM_CUR k
  let step := d.rd .AB_HPLIM_STEP k
  let top := d.rd .AB_HPLIM_MAX k
  if (d.slotsOf k).any (fun h => d.flag .HT_STAT_SOFT h) then
    let d := (d.wr .AB_HPLIM_CUR (max (top / 4) (cur - step)) k).updAba (fun a => { a with barRise := Tab.put a.barRise k 0 })
    d.raise Ev.HEAD_PWR_STEP (le 1 k ++ le 2 (d.rd .AB_HPLIM_CUR k))
  else if 15 ≤ Tab.at d.aba.barRise k then
    (d.wr .AB_HPLIM_CUR (min top (cur + step)) k).updAba (fun a => { a with barRise := Tab.put a.barRise k 0 })
  else d.updAba (fun a => { a with barRise := Tab.upd a.barRise k (· + 1) })

/-! ### Kinematics of the web (R275, R294) -/

/-- a and j of the web as kinematic limits in counts. -/
def Dev.webKin (d : Dev) : Kin :=
  { v := 2 ^ 64, a := d.rd .AB_AMAX_A * 2 ^ 32, j := d.rd .AB_JMAX_J, stop := 0 }

/-- (1 + m/100) d_stop(v) in counts. -/
def Dev.leadFor (d : Dev) (v : Nat) : Nat := (100 + d.rd .AB_CTL_MARGIN) * dStop d.webKin (v * 2 ^ 32) / (100 * 2 ^ 32)

/-- The largest v, built from bit n - 1 down, whose lead requirement is at most `lead`. -/
def Dev.vLeadBits (d : Dev) (lead : Nat) : Nat → Nat → Nat
  | 0, v => v
  | n + 1, v => if d.leadFor (v + 2 ^ n) ≤ lead then d.vLeadBits lead n (v + 2 ^ n) else d.vLeadBits lead n v

/-- dv(t) of R295 in counts/s, t in ns. -/
def Dev.dv (d : Dev) (t : Nat) : Nat :=
  let a := d.rd .AB_AMAX_A
  let j := d.rd .AB_JMAX_J
  if t * j ≤ 2 * a * 1000000000 then j * t * t / (4 * 10 ^ 18) else a * (t - a * 1000000000 / j) / 1000000000

/-! ### Limits (Table 12-3) -/

/-- A limit in counts/s with its number in `AB_BIND.SRC` and its bar. -/
structure Lim where
  v : Nat
  src : Nat
  bar : Nat
  deriving DecidableEq, Repr, Inhabited

/-- The smallest of some limits, the first of equal ones. -/
def leastLim (l : Lim) (ls : List Lim) : Lim := ls.foldl (fun m x => if x.v < m.v then x else m) l

/-- Lines that follow a bar's due pointer: JN, first line, lines, pitch of each placed job in turn. -/
def Dev.ahead (d : Dev) (bar : Nat) : List (Nat × Nat × Nat × Nat) :=
  match d.due bar with
  | some (jn, n) =>
    (d.placements.dropWhile (fun p => p.jn != jn)).map (fun p =>
      let first := if p.jn = jn then n else 0
      (p.jn, first, p.lines - first, p.pitch))
  | none => []

/-- Line `i` of those: JN, line, pitch. -/
def lineAt : List (Nat × Nat × Nat × Nat) → Nat → Option (Nat × Nat × Nat)
  | [], _ => none
  | (jn, first, n, p) :: t, i => if i < n then some (jn, first + i, p) else lineAt t (i - n)

/-- An energy record of the pipeline is held for a line. -/
def Dev.recHeld (d : Dev) (pipe jn line : Nat) : Bool :=
  d.aba.recs.any (fun r => decide (r.bar = pipe) && decide (r.jn = jn) && decide (r.line ≤ line) && decide (line < r.line + r.count))

/-- An epoch window of a bar: E_max in 0.01 nJ, smallest pitch, whether records are held for all its lines. -/
structure Window where
  e : Nat
  pitch : Nat
  held : Bool
  deriving DecidableEq, Repr, Inhabited

/-- Epoch window e of bar k. -/
def Dev.window (d : Dev) (k : Nat) (segs : List (Nat × Nat × Nat × Nat)) (e : Nat) : Window :=
  let ls := (List.range 1024).map (fun i => lineAt segs (1024 * e + i))
  let lines := ls.filterMap id
  let energy := fun (s : Nat) =>
    if (d.lane s).isDark then 0 else (lines.map (fun l => d.lineEnergy s l.1 l.2.1)).foldl (· + ·) 0
  { e := ((d.slotsOf k).map energy).foldl max 0
    pitch := (lines.map (·.2.2)).foldl min ((lines.head?).elim ((segs.head?).elim 0 (·.2.2.2)) (·.2.2))
    held := ls.all (fun l => match l with
      | some x => (d.pipesOf k).all (fun i => d.recHeld i x.1 x.2.1)
      | none => false) }

/-- v_head of a bar over the horizon; no limit where no energy is fired. -/
def Dev.vHead (d : Dev) (k h : Nat) : List (Option Lim) :=
  let segs := d.ahead k
  let ws := (List.range h).map (d.window k segs)
  let worst := ((ws.filter (·.held)).map (·.e)).foldl max 0
  ws.map (fun w =>
    let e := if w.held then w.e else worst
    if segs = [] || e = 0 then none
    else some { v := d.rd .AB_HPLIM_CUR k * 1024 * 1000000000 * w.pitch / (e * 2 ^ 32), src := 1, bar := k })

/-- RCK in MHz. -/
def Dev.rckMhz (d : Dev) : Nat := 1200 - 200 * d.rd .AB_LADDER_RCK

/-- The render rate of a band in counts/s (03, R70). -/
def Dev.bandRate (d : Dev) (j : Job) (r : JobRec) (b pitch : Nat) : Option Nat :=
  let e := d.rk.k * d.bandCost j r b (d.readsCache j r b)
  if e = 0 then none
  else some (16 * d.rd .RKC_ACTIVE_COUNT * d.rckMhz * 1000000 * 2 ^ 24 * pitch / (e * 2 ^ 32))

/-- The bands between the render front and the end of the horizon: job, band, pitch. -/
def Dev.frontBands (d : Dev) (h : Nat) : List (Nat × Nat × Nat) :=
  match d.rk.front with
  | none => []
  | some (jn, b) =>
    let last := 1024 * h
    let starts := (d.ahead 0).foldl (fun (acc : Nat × List (Nat × Int)) x => (acc.1 + x.2.2.1, acc.2 ++ [(x.1, (acc.1 : Int) - x.2.1)])) (0, [])
    (d.placements.dropWhile (fun p => p.jn != jn)).flatMap (fun p =>
      let at0 : Int := ((starts.2.find? (fun x => x.1 = p.jn)).map (·.2)).getD 0
      let from' := if p.jn = jn then b else 0
      ((List.range (ceilDiv p.lines 16 - from')).map (· + from')).filterMap (fun (x : Nat) =>
        if at0 + 16 * x < last then some (p.jn, x, p.pitch) else none))

/-- v_render: the smallest rate of those bands. -/
def Dev.vRender (d : Dev) (h : Nat) : Option Lim :=
  let rates := (d.frontBands h).filterMap (fun x =>
    (d.job x.1).bind (fun j => j.rec?.bind (fun r => d.bandRate j r x.2.1 x.2.2)))
  match rates with
  | [] => none
  | v :: t => some { v := t.foldl min v, src := 3, bar := 0 }

/-- v_lead. -/
def Dev.vLead (d : Dev) : Option Lim :=
  let lead := d.rd .RW_LEAD_COUNTS
  if lead = 0xFFFFFFFF then none else some { v := d.vLeadBits lead 32 0, src := 4, bar := 0 }

/-- The horizon in epochs. -/
def Dev.horizon (d : Dev) : Nat := d.rd .AB_HORIZON_EPOCHS

/-- lim[e] over the horizon, each with its source. -/
def Dev.limits (d : Dev) : List Lim :=
  let h := d.horizon
  let heads := (d.bars.map (·.bar)).map (fun k => d.vHead k h)
  let rest := ((d.aba.vmod.map (fun v => ({ v := v, src := 2, bar := 0 } : Lim))).toList ++ (d.vRender h).toList ++ d.vLead.toList)
  (List.range h).map (fun e =>
    leastLim { v := d.vCfg, src := 0, bar := 0 } (heads.filterMap (fun (l : List (Option Lim)) => (l[e]?).bind id) ++ rest))

/-- v_top of R294. -/
def Dev.vTop (d : Dev) : Nat :=
  let h := d.horizon
  let heads := (d.bars.map (·.bar)).flatMap (fun k => (d.vHead k h).filterMap id)
  let rest := ((d.aba.vmod.map (fun v => ({ v := v, src := 2, bar := 0 } : Lim))).toList ++ (d.vRender h).toList)
  (leastLim { v := d.vCfg, src := 0, bar := 0 } (heads ++ rest)).v

/-- `RW_LEADREQ` and `RW_LEADTGT` (R294). -/
def Dev.setLeads (d : Dev) : Dev :=
  let req := min 0xFFFFFFFF (d.leadFor d.vAbs)
  let tgt := min 0xFFFFFFFF (d.rd .AB_CTL_TGT * d.leadFor d.vTop / 64)
  (d.wr .RW_LEADREQ_COUNTS req).wr .RW_LEADTGT_COUNTS tgt

/-! ### The ceiling (R295 to R297) -/

/-- tep in ns. -/
def Dev.tep (d : Dev) : Nat :=
  let v := max d.vAbs (d.rd .AB_CEIL_C)
  match (d.due 0).bind (fun x => d.plOf x.1) with
  | some p => if v = 0 then 10000000 else min 10000000 (1024 * p.pitch * 1000000000 / (2 ^ 32 * v))
  | none => 10000000

/-- c[e]: the limits from e on, what binds it, and at which window. -/
def Dev.ceilAt (d : Dev) (lims : List Lim) (tep e : Nat) : Lim × Nat :=
  let own := (lims[e]?).getD default
  let rise : Lim := { v := d.rd .AB_CEIL_C + d.dv ((e + 1) * tep), src := 5, bar := 0 }
  let first : Lim × Nat := if rise.v < own.v then (rise, e) else (own, e)
  ((lims.drop (e + 1)).zipIdx 1).foldl (fun m x =>
    let l : Lim := { x.1 with v := x.1.v + d.dv (x.2 * tep) }
    if l.v < m.1.v then (l, e + x.2) else m) first

/-- The CEIL payload (14, Table 14-7). -/
def Dev.ceilPayload (d : Dev) (tep : Nat) : List Byte :=
  let h := d.aba.prof.length
  let step := ceilDiv h 256
  let k := if step = 0 then 0 else ceilDiv h step
  le 4 (d.rd .AB_EPOCH_N) ++ le 4 tep ++ le 2 step ++ le 2 k ++ le 1 (d.rd .AB_BIND_SRC) ++ le 1 (d.rd .AB_BIND_BAR) ++ le 2 0
    ++ (List.range k).flatMap (fun i => le 4 (min 0xFFFFFFFF (nth d.aba.prof (i * step))))

/-- The speed exceeds c[0] by more than 2 % for 16 epochs (R297). -/
def Dev.overCheck (d : Dev) : Dev :=
  if 102 * d.rd .AB_CEIL_C < 100 * d.vAbs then
    let d := d.updAba (fun a => { a with exceeded := min 17 (a.exceeded + 1) })
    if d.aba.exceeded = 16 then (d.wr .AB_STAT_OVER 1).raise Ev.AB_CEIL_IGNORED (le 4 d.vAbs ++ le 4 (d.rd .AB_CEIL_C)) else d
  else d.updAba (fun a => { a with exceeded := 0 })

/-- c[0] lies further below the speed than the press can shed before the first limit that the speed violates (R297). -/
def Dev.shortCheck (d : Dev) (lims : List Lim) (tep : Nat) : Dev :=
  match (lims.zipIdx).find? (fun x => decide (x.1.v < d.vAbs)) with
  | some (l, e) =>
    let short := decide (d.dv (e * tep) + d.rd .AB_CEIL_C < d.vAbs)
    let was := d.aba.short
    let d := d.updAba (fun a => { a with short := short })
    if short && !was then (d.wr .AB_STAT_SHORT 1).raise Ev.AB_SHORT (le 1 l.src ++ le 1 l.bar ++ le 2 e) else d
  | none => d.updAba (fun a => { a with short := false })

/-- The ceiling profile of an epoch end: into force, and to the press controller (R295, R296; 14, R344). -/
def Dev.ceiling (d : Dev) : Dev :=
  if !d.flag .AB_CTL_EN then d
  else
    let tep := d.tep
    let lims := d.limits
    let prof := (List.range lims.length).map (d.ceilAt lims tep)
    match prof with
    | [] => d
    | (l, w) :: _ =>
      let d := d.updAba (fun a => { a with prof := prof.map (·.1.v) })
      let d := (((d.wr .AB_CEIL_C (min 0xFFFFFFFF l.v)).wr .AB_BIND_SRC l.src).wr .AB_BIND_BAR l.bar).wr .AB_BIND_WIN w
      let d := d.send .pc (.ceil (d.ceilPayload tep))
      (d.overCheck).shortCheck lims tep

/-! ### The epoch end -/

/-- The underrun cause clears when the lead meets the requirement again (01, R23). -/
def Dev.clearUnderrun (d : Dev) : Dev :=
  let d := d.refreshLead
  if d.held .underrun && decide (d.rd .RW_LEADREQ_COUNTS ≤ d.rd .RW_LEAD_COUNTS) then d.clearHold .underrun else d

/-- Demand the sensors of a mask (R299). -/
def Dev.demand (d : Dev) (mask : Nat) : Dev := d.wr .AON_TDEM_BUSY (d.rd .AON_TDEM_BUSY ||| mask)

/-- A demand of the Abacus or of HK: all 10 sensors, and the conversion counts as a sample (R299). -/
def Dev.demandAll (d : Dev) : Dev := { d.demand 0x3FF with temp := { d.temp with sample := true } }

/-- Everything the Abacus does at an epoch end. -/
def Dev.epoch (d : Dev) (pwr vin : Nat) : Dev :=
  let d := ((d.incWrap .AB_EPOCH_N).wr .AB_PIN_PWR pwr).wr .AB_PIN_VIN vin
  let d := d.refreshSpeed.refreshLead.firePower.throttleStep.ladder pwr
  let d := (d.forEach (d.bars.map (·.bar)) Dev.hpStep).setLeads.ceiling
  d.clearUnderrun.demandAll

/-- The epoch is over: bar 0 has sent 1,024 lines in it, or 10 ms have passed. -/
def Dev.epochOver (d : Dev) : Bool := decide (1024 ≤ d.aba.lines) || d.passed d.aba.since 10000000

/-- EPOCH_END (R289): `pwr` in 10 mW and `vin` in mV are the means over the epoch (R292). -/
def execEpochEnd (pwr vin : U16) (s : State) : Out :=
  s.act fun d => if d.st.idleToHold && d.runs .sv1 && d.epochOver then d.epoch pwr.toNat vin.toNat else d

end Sys2Proof.Machine
end

