-- ==== Sys2Proof/Machine/Ahnus.lean ====
section
/-! DEFINITION. Job reception (02, R26 to R46, R425; 08, R205, R217): bulk connections, the checks of records, loading. -/
namespace Sys2Proof.Machine

/-- Records of a type that a job holds. -/
def Job.countOf (j : Job) (t : RecType) : Nat := (j.held.filter (fun h => h.type = t.code)).length

/-- The held record with a `SEQ`. -/
def Job.heldAt (j : Job) (seq : Nat) : Option Held := j.held.find? (fun h => h.seq = seq)

/-- The number of records held without a gap from `SEQ` 0 on. -/
def Job.prefixLen (j : Job) : Nat := ((List.range j.held.length).takeWhile (fun s => (j.heldAt s).isSome)).length

/-! ### The rules of Table 2-13 -/

/-- The reason of the first check that fails, 0 when none does. -/
def firstBad : List (Bool × Nat) → Nat
  | [] => 0
  | (ok, r) :: t => if ok then firstBad t else r

/-- Bars that a job maps. -/
def JobRec.mapped (r : JobRec) : List Nat := (List.range 16).filter (fun k => nth r.barMap k != 0xFF)

/-- R205: the product table holds the products between bar 0 and the waste station. -/
def Dev.tableFits (d : Dev) (r : JobRec) : Bool :=
  let bmax := (r.mapped.map (fun k => d.rd .FIRE_BAROFS_OFS k)).foldl max 0
  let p := r.pitch * d.jobPitch r.lpi
  decide (ceilDiv ((bmax + d.rd .SP_WASTE_OFS_COUNTS * 256) * 2 ^ 24) p + 4 ≤ 1024)

/-- The checks of a `JOB` record against the configuration (R33, Table 2-3, R88, R97, R205). -/
def Dev.jobReason (d : Dev) (r : JobRec) : Nat :=
  match d.boot.content with
  | none => 4
  | some c =>
    firstBad
      [(c.lpis.elem r.lpi, 4),
       (r.mapped != [] && r.mapped.all (fun k => c.bars.any (fun b => b.bar = k) && decide (nth r.barMap k < r.planes)), 4),
       (decide (1 ≤ r.width) && (c.bars.filter (fun b => r.mapped.elem b.bar)).all (fun b => decide (r.width ≤ barPrintable b)), 4),
       (c.curves.any (fun x => x.1 = r.curveSet) && c.screens.any (fun x => x.1 = r.screenSet), 5),
       (d.tableFits r, 4)]

/-- Tiles across and down an image. -/
def ImageRec.grid (i : ImageRec) : Nat × Nat := (ceilDiv i.width 256, ceilDiv i.height 256)

/-- Bytes of a decoded tile. -/
def ImageRec.tileLen (i : ImageRec) (tx ty : Nat) : Nat :=
  min 256 (i.width - 256 * tx) * min 256 (i.height - 256 * ty) * i.channels * (i.bits / 8)

/-- Every tile of an image is held (R37). -/
def Job.complete (j : Job) (i : ImageRec) : Bool :=
  (List.range i.grid.1).all (fun x => (List.range i.grid.2).all (fun y =>
    j.tiles.any (fun t => decide (t.image = i.id) && decide (t.tx = x) && decide (t.ty = y))))

/-- An image that a reference may name. -/
def Job.hasImage (j : Job) (id : Nat) : Bool := j.images.any (fun i => decide (i.id = id) && j.complete i)

/-- Palette entries held. -/
def Job.entries (j : Job) : Nat := (j.palette.map (·.1)).getD 0

/-- The tile fits its image: within the grid, its decoded length, 16-bit samples below 4,096 (R36). -/
def Job.tileOk (j : Job) (t : ImageTile) : Bool :=
  match j.images.find? (fun i => i.id = t.image) with
  | none => false
  | some i =>
    decide (t.tx < i.grid.1) && decide (t.ty < i.grid.2) && decide (t.raw.length = i.tileLen t.tx t.ty)
      && (decide (i.bits = 8) || (words16 (t.raw.length / 2) t.raw).all (fun v => decide (v ≤ 4095)))

/-- The references of a primitive resolve: 0, or the reason. -/
def Job.primReason (j : Job) : Prim → Nat
  | .rect _ pal .. => if pal < j.entries then 0 else 5
  | .spans _ pal .. => if pal < j.entries then 0 else 5
  | .image _ id .. => if j.hasImage id then 0 else 5
  | .textSlot _ _ gs pal _ _ => if j.glyphs.any (fun g => g.id = gs) && decide (pal < j.entries) then 0 else 5
  | .codeSlot _ _ _ _ _ _ pal => if pal < j.entries then 0 else 5
  | _ => 0

/-- The first reason other than 0. -/
def firstReason : List Nat → Nat
  | [] => 0
  | r :: t => if r = 0 then firstReason t else r

/-- The slot type that a slot primitive needs. -/
def Prim.slot? : Prim → Option (Nat × Nat)
  | .textSlot _ s .. => some (s, 0)
  | .imageSlot _ s .. => some (s, 1)
  | .codeSlot _ s .. => some (s, 2)
  | _ => none

/-- The runs in order cover the products, and name layers and slots that are there (Table 2-6, 02). -/
def Job.runsReason (j : Job) : List RunRec → Nat → Nat → Nat → Nat
  | [], _, pn, stop => if pn = stop then 0 else 4
  | r :: t, i, pn, stop =>
    if r.idx != i || r.pn != pn then 4
    else if r.layers.any (fun id => !j.layers.any (fun l => l.id = id)) then 5
    else if (j.layersOf r).any (fun l => l.prims.any (fun p =>
        match p.slot? with
        | some (s, ty) => !r.slots.any (fun e => decide (e.id = s) && decide (e.type = ty))
        | none => false)) then 4
    else j.runsReason t (i + 1) (pn + r.count) stop

/-- The run that covers a product. -/
def Job.runOf (j : Job) (pn : Nat) : Option RunRec := j.runs.find? (fun r => decide (r.pn ≤ pn) && decide (pn < r.pn + r.count))

/-- A value of a product has the form of its type: 0, or the reason that rejects it (R37, R38). -/
def Job.valReason (j : Job) (r : RunRec) (v : SlotVal) : Nat :=
  if !r.slots.any (fun e => decide (e.id = v.id) && decide (e.type = v.type)) then 4
  else
    match v.type with
    | 1 => if v.bytes.length != 4 then 4 else if j.hasImage (leVal v.bytes) then 0 else 5
    | 2 => if v.bytes.length = 4 + fieldAt v.bytes 2 2 * ((fieldAt v.bytes 0 2 + 7) / 8) then 0 else 4
    | 3 => if v.bytes.length != 2 then 4 else if leVal v.bytes < j.entries then 0 else 5
    | _ => 0

/-- The run of a product as its record must name it (R425). -/
def Job.namesRun (j : Job) (r : JobRec) (p : ProdRec) : Bool :=
  decide (r.firstPn ≤ p.pn) && decide (p.pn < r.firstPn + r.products)
    && (match j.runOf p.pn with
        | some x => decide (x.idx = p.run)
        | none => false)

/-- A `PRODUCT` record of a job whose definitions are held. -/
def Job.prodReason (j : Job) (r : JobRec) (p : ProdRec) : Nat :=
  if !j.namesRun r p then 4
  else
    match j.runOf p.pn with
    | some x => firstReason (p.vals.map (j.valReason x))
    | none => 4

/-- Every rule of Table 2-13 over the records held, once `JOB`, the definitions and the first products are (R44). -/
def Job.loadReason (j : Job) (r : JobRec) : Nat :=
  let runs := (List.range r.runs).filterMap (fun i => j.runs.find? (fun x => x.idx = i))
  firstBad
    [(decide (j.countOf .palette ≤ 1) && decide (j.countOf .sep ≤ 8) && decide (j.countOf .image ≤ 65535)
        && decide (j.countOf .glyphs ≤ 16) && decide (1 ≤ j.countOf .layer) && decide (j.countOf .layer ≤ 4096)
        && decide (j.countOf .run = r.runs), 4),
     (distinct (j.seps.map (·.id)) && distinct (j.images.map (·.id)) && distinct (j.glyphs.map (·.id))
        && distinct (j.layers.map (·.id)) && distinct (j.runs.map (·.idx)), 4),
     (match j.palette with | some (n, vs) => decide (n * r.planes ≤ vs.length) | none => true, 4),
     (j.images.all (fun i => decide (i.sep ≠ 0xFF) || decide (i.channels = r.planes)), 4),
     (j.images.all (fun i => decide (i.sep = 0xFF) || j.seps.any (fun s => s.id = i.sep)), 5),
     (j.images.all (fun i => (j.seps.filter (fun s => s.id = i.sep)).all (fun s => s.inputs = i.channels)), 4),
     (j.tiles.all (fun t => j.images.any (fun i => i.id = t.image)), 5),
     (j.tiles.all j.tileOk, 4),
     (j.glyphs.all (fun g => g.glyphs != []), 4)]
  |> fun a => firstReason
    [a, firstReason (j.layers.flatMap (fun l => l.prims.map j.primReason)),
     j.runsReason runs 0 r.firstPn (r.firstPn + r.products),
     firstReason (j.prods.map (j.prodReason r))]

/-- R44: the definitions are all held, since the records without a gap reach a `PRODUCT`, and so are the first `PRELOAD`
products. -/
def Job.loadable (j : Job) (r : JobRec) : Bool :=
  let n := j.prefixLen
  j.held.any (fun h => decide (h.seq < n) && decide (h.type = RecType.product.code))
    && (List.range (if r.preload = 0 then r.products else min r.preload j.prods.length)).all
        (fun i => j.prods.any (fun p => p.pn = r.firstPn + i))
    && decide (r.preload ≤ j.prods.length)

/-! ### Reports -/

/-- JOB_STATUS of a submission or job that is rejected without being in the queue. -/
def Dev.sendRejected (d : Dev) (jn reason : Nat) : Dev :=
  let m := XppMsg.jobStatus [jn, JobState.rejected.code, reason, 0, 0]
  (d.send .js m).send .pc m

/-- A discarded record is reported in the job status with its `SEQ` (R27). -/
def Dev.reportRecord (d : Dev) (jn seq : Nat) : Dev :=
  match d.job jn with
  | some j =>
    let m := XppMsg.jobStatus (d.jobStatusData j ++ [seq])
    (d.send .js m).send .pc m
  | none => d

/-- A job is rejected: its store and caches are freed, the reason reported (Table 2-14). -/
def Dev.rejectJob (d : Dev) (jn reason : Nat) : Dev := (d.purge jn).endJob jn .rejected reason

/-- R425: a record that breaks a rule rejects a RECEIVING or LOADED job and is discarded in a PLACED or ACTIVE one. -/
def Dev.badRecord (d : Dev) (j : Job) (seq reason : Nat) : Dev :=
  if j.onWeb then (d.raise Ev.JOB_RECORD_BAD (le 4 j.jn ++ le 4 seq ++ le 1 reason)).reportRecord j.jn seq
  else d.rejectJob j.jn reason

/-! ### Loading -/

/-- Least W under R217 in counts for a job: B_max + P + `ADV` + v_max · T_echo, the sum rounded up. -/
def Dev.leastWaste (d : Dev) (r : JobRec) : Nat :=
  let bmax := (d.bars.map (fun b => d.rd .FIRE_BAROFS_OFS b.bar)).foldl max 0
  let echo := (((List.range d.nLanes).filter (fun n => d.flag .ZL_CFG_EN n)).map (fun n => d.rd .ZL_CFG_ECHOTO n)).foldl max 0
  d.rd .SP_WASTE_CTL_ADV
    + ceilDiv (1000000 * (bmax * 2 ^ 24 + r.pitch * d.jobPitch r.lpi) + d.rd .AB_VCFG_V * echo * 4 * 2 ^ 32) (1000000 * 2 ^ 32)

/-- R217: `WASTE_EARLY` when the waste station lies too near. -/
def Dev.checkWaste (d : Dev) (jn : Nat) (r : JobRec) : Dev :=
  if (decide (d.rd .SP_WASTE_CTL_MODE = 1) || decide (d.rd .SP_WASTE_CTL_MODE = 2)) && decide (d.rd .SP_WASTE_OFS_COUNTS < d.leastWaste r) then
    d.raise Ev.WASTE_EARLY (le 4 jn ++ le 4 (d.rd .SP_WASTE_OFS_COUNTS) ++ le 4 (d.leastWaste r))
  else d

/-- The job is LOADED behind the jobs already loaded, with a new account (R44). -/
def Dev.loadJob (d : Dev) (jn : Nat) (r : JobRec) : Dev :=
  let queue := d.jobs.filter (fun j => j.jn != jn) ++ d.jobs.filter (fun j => j.jn = jn)
  let d : Dev := { d with jobs := queue, accounts := Tab.put d.accounts jn (some { (default : Account) with planned := r.products }) }
  (d.setJobSt jn .loaded).checkWaste jn r

/-- Load a RECEIVING job whose records allow it, or reject it. -/
def Dev.tryLoad (d : Dev) (jn : Nat) : Dev :=
  match d.job jn with
  | none => d
  | some j =>
    match j.rec? with
    | none => d
    | some r =>
      if j.st = .receiving && j.loadable r then
        let reason := j.loadReason r
        if reason = 0 then d.loadJob jn r else d.rejectJob jn reason
      else d

/-! ### END (R40) -/

/-- The `CRC` fields of the records below `n` in `SEQ` order. -/
def Job.crcs (j : Job) (n : Nat) : List Byte := (List.range n).flatMap (fun s => ((j.heldAt s).map (fun h => le 4 h.crc)).getD [])

/-- The outcome of the `END` check: none while records before it are missing. -/
def Job.endCheck (j : Job) : Option Bool :=
  match j.endRec? with
  | none => none
  | some (seq, records, setcrc) =>
    if records != seq + 1 then some false
    else if j.prefixLen ≤ seq then none
    else some (decide ((crc32c (j.crcs seq)).toNat = setcrc))

/-- Check `END` once its records are held. -/
def Dev.checkEnd (d : Dev) (jn : Nat) : Dev :=
  match d.job jn with
  | none => d
  | some j =>
    if j.ended then d
    else
      match j.endCheck with
      | none => d
      | some ok =>
        let d := d.updJob jn (fun j => { j with ended := true })
        if ok then d
        else if j.onWeb then d.endFailed jn ((j.endRec?.map (·.1)).getD 0)
        else d.rejectJob jn 8

/-! ### Records -/

/-- R28: where a record stands among those held. -/
def Job.orderOk (j : Job) (r : RawRec) (pn : Nat) : Bool :=
  let isProd := fun (h : Held) => decide (h.type = RecType.product.code)
  let isEnd := fun (h : Held) => decide (h.type = RecType.endRec.code)
  decide ((r.seq = 0) ↔ (r.type = .job))
    && j.held.all (fun h => !isEnd h || decide (r.seq < h.seq))
    && (match r.type with
        | .endRec => j.held.all (fun h => decide (h.seq < r.seq))
        | .product => j.held.all (fun h =>
            if isProd h then (if h.seq < r.seq then decide (h.pn < pn) else decide (pn < h.pn))
            else isEnd h || decide (h.seq < r.seq))
        | _ => j.held.all (fun h => !isProd h || decide (r.seq < h.seq)))

/-- The job with a record's content, or none where a field of the record lies outside its range. -/
def Job.withContent (j : Job) (r : RawRec) : Option Job :=
  match r.type with
  | .job => (readJob r.payload).map (fun x => { j with rec? := some x })
  | .palette => (readPalette r.payload).map (fun x => { j with palette := some x })
  | .sep => (readSep r.payload).map (fun x => { j with seps := j.seps ++ [x] })
  | .image => (readImage r.payload).map (fun x => { j with images := j.images ++ [x] })
  | .tile => (readTile r.payload).map (fun x => { j with tiles := j.tiles ++ [x] })
  | .glyphs => (readGlyphs r.payload).map (fun x => { j with glyphs := j.glyphs ++ [x] })
  | .layer => (readLayer r.payload).map (fun x => { j with layers := j.layers ++ [x] })
  | .run => (readRun r.payload).map (fun x => { j with runs := j.runs ++ [x] })
  | .product => (readProduct r.payload).map (fun x => { j with prods := j.prods ++ [x] })
  | .endRec => if r.payload.length < 8 then none else some { j with endRec? := some (r.seq, fieldAt r.payload 0 4, fieldAt r.payload 4 4) }

/-- Bytes of the store region in use. -/
def Dev.storeUsed (d : Dev) : Nat := (d.jobs.map (fun j => (j.held.map (·.len)).foldl (· + ·) 0)).foldl (· + ·) 0

/-- Bytes of the store region. -/
def Dev.storeSize (d : Dev) : Nat := (d.boot.content.map (·.store)).getD Config.storeRegionDefault

/-- Keep a record: the job takes its content, its `END` is checked, it is loaded when it can be. -/
def Dev.keepRecord (d : Dev) (j : Job) (r : RawRec) (pn : Nat) : Dev :=
  let h : Held := { seq := r.seq, type := r.type.code, crc := r.crc, len := r.len, pn := pn }
  let d := d.updJob j.jn (fun _ => { j with held := j.held ++ [h] })
  (d.checkEnd j.jn).tryLoad j.jn

/-- A `PRODUCT` record of a LOADED, PLACED or ACTIVE job (R37, R38, R425); `j'` is the job with the record in it. R38 names a wrong
`SLOT_TYPE` and an absent `SLOT_ID`; a value of a job on the web that names no complete image or palette entry, or whose bytes do not
have its type's form, is left out in the same way (DESIGN CHOICE, assumption 49). -/
def Dev.lateProduct (d : Dev) (j j' : Job) (jr : JobRec) (r : RawRec) (p : ProdRec) : Dev :=
  if !j.namesRun jr p then d.badRecord j r.seq 4
  else
    match j.runOf p.pn with
    | none => d.badRecord j r.seq 4
    | some x =>
      let bad := p.vals.filter (fun v => j.valReason x v != 0)
      if bad = [] then d.keepRecord j' r p.pn
      else if j.onWeb then
        let d := d.forEach bad (fun d v => d.raise Ev.VDATA_BAD (le 4 j.jn ++ le 4 p.pn ++ le 1 v.id))
        let good := { p with vals := p.vals.filter (fun v => j.valReason x v = 0) }
        d.keepRecord { j' with prods := j'.prods.map (fun q => if q = p then good else q) } r p.pn
      else d.rejectJob j.jn (firstReason (bad.map (j.valReason x)))

/-- A `PRODUCT` of a RECEIVING job contradicts the `JOB` and `RUN` records held (R425); `j` holds the record in question. -/
def Job.stray (j : Job) : Bool :=
  match j.rec? with
  | none => false
  | some r =>
    j.prods.any (fun p =>
      decide (p.pn < r.firstPn) || decide (r.firstPn + r.products ≤ p.pn) || decide (r.runs ≤ p.run)
        || (match j.runs.find? (fun x => x.idx = p.run) with
            | some x => decide (p.pn < x.pn) || decide (x.pn + x.count ≤ p.pn)
            | none => false))

/-- A record with good order and no copy held. -/
def Dev.newRecord (d : Dev) (j : Job) (r : RawRec) : Dev :=
  if d.storeSize < d.storeUsed + r.len then
    if j.st = .receiving then d.rejectJob j.jn 6 else d.reportRecord j.jn r.seq
  else
    match j.withContent r with
    | none => d.badRecord j r.seq 4
    | some j' =>
      let pn := if r.type = .product then fieldAt r.payload 0 4 else 0
      if j.st = .receiving then
        let reason := if r.type = .job then (j'.rec?.map d.jobReason).getD 4 else 0
        if reason != 0 then d.rejectJob j.jn reason
        else if j'.stray then d.rejectJob j.jn 4
        else d.keepRecord j' r pn
      else
        match r.type, j.rec?, j'.prods.getLast? with
        | .product, some jr, some p => d.lateProduct j j' jr r p
        | _, _, _ => d.keepRecord j' r pn

/-- A record that passed R27 and belongs to the connection's job: it restarts the reception timeout (R42). -/
def Dev.takeRecord (d : Dev) (j : Job) (r : RawRec) : Dev :=
  let j := { j with recvAt := d.now }
  let d := d.updJob j.jn (fun _ => j)
  match j.heldAt r.seq with
  | some h => if h.crc = r.crc then d else d.badRecord j r.seq 3
  | none => if j.orderOk r (fieldAt r.payload 0 4) then d.newRecord j r else d.badRecord j r.seq 2

/-- Close a connection (R41). -/
def Dev.closeConn (d : Dev) (conn : Nat) : Dev :=
  { d with conns := d.conns.filter (fun c => c.idx != conn) }.emit (.bulkClosed conn)

/-- Close a connection for a cause of R41. -/
def Dev.closeBulk (d : Dev) (conn jn cause : Nat) : Dev :=
  (d.closeConn conn).raise Ev.BULK_CLOSED (le 1 conn ++ le 4 jn ++ le 1 cause)

/-- A record has arrived whole on a connection: nothing of it is used while payload that came with `CSUM_OK` 0 is missing (R43); a
record read with poison fails its check. -/
def Dev.ahnusRecord (d : Dev) (conn : Nat) (bytes : List Byte) (poison : Bool) : Dev :=
  match d.conns.find? (fun c => c.idx = conn) with
  | none => d
  | some c =>
    if c.holes != [] then d
    else
    let d := { d with conns := d.conns.map (fun x => if x = c then { x with poison := false } else x) }
    match if poison || c.poison then none else readRecord bytes with
    | none => d.reportRecord c.jn (fieldAt bytes 12 4)
    | some r =>
      if r.jn != c.jn then d.closeBulk conn c.jn 3
      else
        match d.job c.jn with
        | some j => d.takeRecord j r
        | none => d

/-- AHNUS_RECORD (R27 to R29, R425). -/
def execAhnusRecord (conn : Fin 8) (bytes : List Byte) (poison : Bool) (s : State) : Out :=
  s.act fun d => if d.st.idleToHold then d.ahnusRecord conn bytes poison else d

/-! ### Connections -/

/-- A job with nothing held, RECEIVING from a time on. -/
def Job.fresh (jn now : Nat) : Job :=
  { jn := jn, st := .receiving, held := [], rec? := none, palette := none, seps := [], images := [], tiles := [], glyphs := []
    layers := [], runs := [], prods := [], endRec? := none, ended := false, limit := none, finishing := false, aborted := false, rendered := 0, started := 0, reason := 0, recvAt := now }

/-- A bulk header has arrived on a connection (R41, R45). A submission rejected with reason 1 or 9 opens no connection; R41 does not
list it among the closures that `BULK_CLOSED` reports, and `JOB_STATUS` reports it (DESIGN CHOICE, assumption 50). -/
def Dev.bulkHeader (d : Dev) (conn : Nat) (h : List Byte) : Dev :=
  let jn := fieldAt h 8 4
  let cont := bitOf (fieldAt h 6 2) 0
  let js := d.rd .XPP_ID_ID Role.js.idx
  let opened := { d with conns := d.conns ++ [{ idx := conn, jn := jn, cont := cont, holes := [], poison := false }] }
  if (crc32c (h.take 28)).toNat != fieldAt h 28 4 then d.closeBulk conn jn 1
  else if js = 0 || fieldAt h 12 4 != js then d.closeBulk conn jn 2
  else if (d.job jn).isSome then (if cont then opened else d.closeBulk conn jn 4)
  else if cont then d.closeBulk conn jn 5
  else if d.ended.elem jn then (d.closeConn conn).sendRejected jn 1
  else if 16 ≤ d.jobs.length then (d.closeConn conn).sendRejected jn 9
  else Dev.sendJobStatus { opened with jobs := d.jobs ++ [Job.fresh jn d.now] } jn

/-- BULK_CONNECTION (R41): at most 4 at a time on each of ports 0 and 1; the index names port and place. -/
def execBulkConnection (conn : Fin 8) (hdr : List Byte) (s : State) : Out :=
  s.act fun d => if d.st.idleToHold && !d.conns.any (fun c => c.idx = conn.val) then d.bulkHeader conn (fit 32 hdr) else d

/-- BULK_CONNECTION_CLOSE (R42): completed records are kept. -/
def execBulkConnectionClose (conn : Fin 8) (s : State) : Out :=
  s.act fun d => { d with conns := d.conns.filter (fun c => c.idx != conn.val) }

/-- `JOB_RECV_TIMEOUT` in ns: of the `limits` record, 10 s without one (R42). -/
def Dev.recvTimeout (d : Dev) : Nat := (d.boot.content.map (·.recvTimeout)).getD Config.jobRecvTimeoutDefault

/-- JOB_RECV_TIMEOUT (R42): a job RECEIVING for that long without a record that passed R27 is rejected with reason 7. -/
def execJobRecvTimeout (jn : U32) (s : State) : Out :=
  s.act fun d =>
    match d.job jn.toNat with
    | some j => if j.st = .receiving && d.st.idleToHold && d.passed j.recvAt d.recvTimeout then d.rejectJob jn.toNat 7 else d
    | none => d

end Sys2Proof.Machine
end

