-- ==== Sys2Proof/Machine/Header.lean ====
section
/-! DEFINITION. Reading the NOR and the Crown header (16, R374, R375, R377), and HREF, which starts with it (07, R166). -/
namespace Sys2Proof.Machine

/-! ### Reading the NOR -/

/-- A byte of the NOR: of a log record that holds it, else as programmed. -/
def Dev.norByte (d : Dev) (a : Nat) : Byte :=
  match d.nor.log.find? (fun r => decide (r.ofs ≤ a) && decide (a < r.ofs + 64)) with
  | some r => (r.bytes[a - r.ofs]?).getD Config.norUnlisted
  | none => Tab.get Config.norUnlisted d.nor.cells a

/-- `n` bytes of the NOR. -/
def Dev.norRead (d : Dev) (a n : Nat) : List Byte := (List.range n).map (fun k => d.norByte (a + k))

/-- First byte of a span: 0 primary, 1 backup (R374). -/
def spanBase (img : Nat) : Nat := if img = 0 then 0 else 33554432

/-- Bytes of a span: 30 MiB. -/
def spanLen : Nat := 31457280

/-! ### Header (R375, Table 16-4) -/

/-- Checks of R377 by their code in `CR_STAT.FAILCHK`. -/
inductive CrownChk where
  | ok | header | variant | record | setcrc | content | second
  deriving DecidableEq, Repr

/-- Code of a check. -/
def CrownChk.code : CrownChk → Nat
  | .ok => 0 | .header => 1 | .variant => 2 | .record => 3 | .setcrc => 4 | .content => 5 | .second => 6

/-- The fields of a header. -/
def hdrOf (b : List Byte) : CrownHdr :=
  { lock := bitOf (fieldAt b 6 2) 0, xmode := bitsOf (fieldAt b 6 2) 1 2, spread := bitOf (fieldAt b 6 2) 3, imgver := fieldAt b 8 4,
    varmask := fieldAt b 12 2, nrec := fieldAt b 14 2, recofs := fieldAt b 16 4, reclen := fieldAt b 20 4,
    setcrc := fieldAt b 24 4, xsck := fieldAt b 28 2 }

/-- The header checks of R377. -/
def Dev.hdrCheck (d : Dev) (img : Nat) : CrownChk :=
  let b := d.norRead (spanBase img) 64
  if fieldAt b 0 4 != 0x4E575243 || fieldAt b 4 2 != 1 || fieldAt b 60 4 != (crc32c (b.take 60)).toNat then .header
  else if bitOf (hdrOf b).varmask d.variantCode then .ok
  else .variant

/-- The header of an image. -/
def Dev.hdr (d : Dev) (img : Nat) : CrownHdr := hdrOf (d.norRead (spanBase img) 64)

/-! ### HREF (07, R166) -/

/-- HREF starts where it does not run yet, with the spread of the primary header, of the backup header where the primary one fails, or
without (R166). -/
def Dev.startHref (d : Dev) : Dev :=
  if d.pins.href then d
  else
    let spread := if d.hdrCheck 0 = .ok then (d.hdr 0).spread else d.hdrCheck 1 = .ok && (d.hdr 1).spread
    ({ d with pins := { d.pins with href := true } }).wr .ZL_CTL_SPREAD (bit spread)

end Sys2Proof.Machine
end

