-- ==== Sys2Proof/Machine/Tick.lean ====
section
/-! DEFINITION. The timebase (15, R347 to R350): its two counters, one tick, the conditions under which it is not stepped. -/
namespace Sys2Proof.Machine

/-- The increment of the fallback counter in 2^-32 ns (15, `TB_FBINC`). -/
def Dev.fbInc (d : Dev) : Nat := d.rd .TB_FBINC_HI_INT * 2 ^ 32 + d.rd .TB_FBINC_LO_FRAC

/-- The increment of the main clock in 2^-32 ns: 4 ns times 1 plus r ppb (15, R347). -/
def Dev.mainInc (d : Dev) : Nat := (4 * 2 ^ 32 + 4 * 2 ^ 32 * d.tb.rate / 1000000000 : Int).toNat

/-- A condition of R348 holds: a line is placed, an axis profile runs, or a ring START epoch is pending. -/
def Dev.noStep (d : Dev) : Bool :=
  d.anyPlaced || (List.range 16).any (fun a => d.flag .AX_STAT_MOVING a) || d.ring.epochs != []

/-- Main clock less fallback counter, in ns. -/
def Dev.tbDelta (d : Dev) : Int := (d.tb.main : Int) / 2 ^ 32 - (d.tb.fb : Int) / 2 ^ 32

/-- The main clock comes into force (15, R350). -/
def Dev.toMain (d : Dev) (delta : Int) : Dev :=
  let d := { d with tb := { d.tb with slewing := false, slew := 0 } }
  let d := (d.wr .TB_CTL_SRC 0).wr .TB_RATE_PPB (unsign 32 d.tb.rate)
  d.raise Ev.TB_MAIN (le 8 (unsign 64 delta))

/-- 100 ppm of a tick, in 2^-48 ns. -/
def slewMax : Int := 4 * 2 ^ 48 / 10000

/-- The change of rate that R348 allows in one tick, 1 ppm per ms, in 2^-48 ns. -/
def slewStep : Int := 4 * 2 ^ 48 / 1000000 / 250000

/-- The next slew rate: toward the main clock at up to 100 ppm, reduced in time to end at 0 (15, R348, R350). -/
def Dev.nextSlew (d : Dev) : Int :=
  let delta := ((d.tb.main : Int) - d.tb.fb) * 2 ^ 16
  let r := d.tb.slew
  let brake := decide (2 * slewStep * delta.natAbs ≤ r * r)
  let toward := if 0 ≤ delta then slewStep else -slewStep
  let r' := if brake then (if 0 ≤ r then r - slewStep else r + slewStep) else r + toward
  max (-slewMax) (min slewMax r')

/-- The slew of one tick, and the switch once the counters lie within 50 ns. -/
def Dev.slewTick (d : Dev) : Dev :=
  if !d.tb.slewing then d
  else
    let r := d.nextSlew
    let d : Dev := { d with tb := { d.tb with slew := r, fb := ((d.tb.fb : Int) + r / 2 ^ 16).toNat } }
    if d.tbDelta.natAbs ≤ 50 then d.toMain d.tbDelta else d

/-- I in 2^-32 ns per HREF cycle of 6.4 ns (07, `ZL_INC`). -/
def Dev.linkInc (d : Dev) : Nat := d.rd .ZL_INC_HI_INT * 2 ^ 32 + d.rd .ZL_INC_LO_FRAC

/-- The link counter's advance in one tick of 4 ns: it stands while HREF does, and while the lanes are unpowered. -/
def Dev.linkTick (d : Dev) : Dev := if d.pins.href && d.domOn .za then { d with lc := (d.lc + d.linkInc * 5 / 8) % 2 ^ 96 } else d

/-- Both counters advance by one tick: the main clock's 48 bits of seconds and the accumulator's 64 bits of ns wrap (15,
R347); a slew in progress goes on. -/
def Dev.timeTick (d : Dev) : Dev :=
  let tb := { d.tb with main := (d.tb.main + d.mainInc) % (2 ^ 48 * 1000000000 * 2 ^ 32), fb := (d.tb.fb + d.fbInc) % 2 ^ 96 }
  Dev.slewTick { d with tb := tb }

/-- One tick: the timebase stands while its domain is unpowered (17, Table 17-1). -/
def Dev.tick (d : Dev) : Dev := (if d.domOn .net then d.timeTick else d).linkTick

end Sys2Proof.Machine
end

