-- ==== Sys2Proof/Machine/Time.lean ====
section
/-! DEFINITION. PTP and the switches of the timebase (15, R347 to R357). -/
namespace Sys2Proof.Machine

/-- The port in use: the selected one, or 2 for management (15, PTP_STAT). -/
def Dev.ptpPort (d : Dev) : Nat := if d.rd .PTP_STAT_SRCPORT = 2 then 2 else d.rd .PTP_CFG_PORT

/-- PTP runs and its domain is powered. -/
def Dev.ptpOn (d : Dev) : Bool := d.flag .PTP_CFG_EN && d.domOn .net

/-- Change the PTP state. -/
def Dev.updPtp (d : Dev) (f : Ptp → Ptp) : Dev := { d with ptp := f d.ptp }

/-- The servo unlocks (15, R356), with the cause of `PTP_UNLOCK`; nothing while it is not locked. -/
def Dev.ptpUnlock (d : Dev) (cause : Nat) : Dev :=
  if !d.flag .PTP_STAT_LOCK then d
  else
    let d := (d.wr .PTP_STAT_LOCK 0).updPtp (fun p => { p with good := 0, bad := 0 })
    let d := { d with tb := { d.tb with unlockedAt := some d.now, lockedAt := none, slewing := false, slew := 0 } }
    let d := if d.flag .TB_CTL_SRC then d else d.wr .TB_CTL_HOLDOVER 1
    d.raise Ev.PTP_UNLOCK (le 1 cause)

/-- The servo locks (15, R356). -/
def Dev.ptpLock (d : Dev) (offset : Int) : Dev :=
  let d := ((d.wr .PTP_STAT_LOCK 1).wr .TB_CTL_HOLDOVER 0).wr .PTP_STAT_PSTATE 9
  let d := { d with tb := { d.tb with unlockedAt := none, lockedAt := some d.now } }
  d.raise Ev.PTP_LOCK (le 1 d.ptpPort ++ le 4 (satSigned 32 offset))

/-- A new rate r of the servo: a free value, within 100 ppm and 1 ppm per ms of the last one while a condition of R348 holds. -/
def Dev.servoRate (d : Dev) : Dev :=
  let (f, d) := d.free 32
  let raw := signed 32 f
  let ms : Int := (d.now - d.ptp.rateAt) / 1000000
  let r := if d.noStep then clampInt (-100000) 100000 (clampInt (d.tb.rate - 1000 * ms) (d.tb.rate + 1000 * ms) raw) else raw
  let d := { d with tb := { d.tb with rate := r } }
  let d := d.updPtp (fun p => { p with rateAt := d.now })
  if d.flag .TB_CTL_SRC then d else d.wr .TB_RATE_PPB (unsign 32 r)

/-- Step the main clock to the master's time while it is not in force (15, R350). -/
def Dev.stepMain (d : Dev) (offset : Int) : Dev :=
  if d.flag .TB_CTL_SRC && !d.tb.slewing then
    { d with tb := { d.tb with main := ((d.tb.main : Int) - offset * 2 ^ 32).toNat } }
  else d

/-- A Sync message on the port in use (15, R356): thresholds 100 ns and 1 us, on the management port 5 us and 20 us. -/
def Dev.ptpSync (d : Dev) (port : Nat) (offset : Int) (delay : Nat) : Dev :=
  if !d.ptpOn || d.rd .PTP_CFG_ROLE = 2 || port != d.ptpPort then d
  else
    let d := (d.wr .PTP_OFS_NS (satSigned 32 offset)).wr .PTP_MPD_NS delay
    let near := offset.natAbs ≤ (if port = 2 then 5000 else 100)
    let far := (if port = 2 then 20000 else 1000) < offset.natAbs
    let d := d.updPtp (fun p => { p with good := if near then min 16 (p.good + 1) else 0,
                                         bad := if far then min 4 (p.bad + 1) else 0, syncAt := d.now })
    let d := (d.servoRate).stepMain offset
    if !d.flag .PTP_STAT_LOCK && decide (16 ≤ d.ptp.good) then d.ptpLock offset
    else if d.flag .PTP_STAT_LOCK && decide (4 ≤ d.ptp.bad) then d.ptpUnlock 1
    else d

/-- PTP_SYNC (R356). -/
def execPtpSync (port : Fin 3) (offset : U64) (delay : U32) (s : State) : Out :=
  s.act (·.ptpSync port offset.toInt delay.toNat)

/-- The announce receipt timeout in ns: `ARTO` Announce intervals (`PTP_INTV`). -/
def Dev.announceTime (d : Dev) : Nat := d.rd .PTP_INTV_ARTO * 2 ^ d.rd .PTP_INTV_ANN * 1000000000

/-- Whether the selected port has a master changes (R357). -/
def Dev.setServed (d : Dev) (on : Bool) : Dev :=
  if d.ptp.served = on then d else d.updPtp (fun p => { p with served := on, servedAt := d.now })

/-- The port in use is the selected one. -/
def Dev.onSelected (d : Dev) : Bool := d.rd .PTP_STAT_SRCPORT != 2

/-- ANNOUNCE_TIMEOUT (R356): no Sync for the announce receipt timeout: the servo unlocks; no master is left. -/
def execAnnounceTimeout (s : State) : Out :=
  s.act fun d =>
    if d.ptpOn && d.passed d.ptp.syncAt d.announceTime then
      let d := (d.ptpUnlock 3).updPtp (fun p => { p with master := none })
      let d := if d.onSelected then d.setServed false else d
      if d.ptp.own then d else d.wr .PTP_STAT_PSTATE 4
    else d

/-- A change of master (15, R356): counted, and the servo unlocks. -/
def Dev.setMaster (d : Dev) (m : Option Nat) : Dev :=
  if d.ptp.master = m then d
  else ((d.updPtp (fun p => { p with master := m, good := 0, bad := 0 })).inc .PTP_STAT_GMCHG).ptpUnlock 2

/-- An external master is the best. -/
def bestExternal : BestMaster → Bool
  | .external _ => true
  | .own => false

/-- An Announce, with what the best master selection answers (15, R353, R356): on the port in use it sets the master; on the selected port it
shows whether that port has one (R357). -/
def Dev.ptpAnnounce (d : Dev) (port : Nat) (best : BestMaster) : Dev :=
  let d := if d.ptpOn && port = d.rd .PTP_CFG_PORT then d.setServed (bestExternal best) else d
  if !d.ptpOn || d.rd .PTP_CFG_ROLE = 2 || port != d.ptpPort then d
  else
    match best with
    | .external id =>
      let d := (d.setMaster (some id.toNat)).updPtp (fun p => { p with own := false })
      if d.flag .PTP_STAT_LOCK then d else d.wr .PTP_STAT_PSTATE 8
    | .own =>
      let d := d.setMaster none
      let master := decide (d.rd .PTP_CFG_ROLE = 1)
      (d.updPtp (fun p => { p with own := master })).wr .PTP_STAT_PSTATE (if master then 6 else 4)

/-- PTP_ANNOUNCE (R356). -/
def execPtpAnnounce (port : Fin 3) (best : BestMaster) (s : State) : Out := s.act (·.ptpAnnounce port best)

/-- PTP_SYNC_INTERVAL (R354): as master, a Sync with its originTimestamp leaves. -/
def execPtpSyncInterval (s : State) : Out :=
  s.act fun d =>
    if d.ptpOn && (decide (d.rd .PTP_CFG_ROLE = 2) || d.ptp.own) then
      let d := (d.emit (.ptp ⟨d.ptpPort, d.ptp.seq, d.now⟩)).wr .PTP_STAT_PSTATE 6
      d.updPtp (fun p => { p with seq := (p.seq + 1) % 65536 })
    else d

/-- TB_FALLBACK (R349): PTP has been unlocked for 2 s without a break; the fallback counter goes on from the main clock without a step. -/
def execTbFallback (s : State) : Out :=
  s.act fun d =>
    if d.flag .TB_CTL_SRC || d.flag .PTP_STAT_LOCK || !d.tb.unlockedAt.any (fun t => d.passed t 2000000000) then d
    else
      let inc := d.mainInc
      let d := { d with tb := { d.tb with fb := d.tb.main } }
      let d := (d.wr .TB_FBINC_HI_INT (inc / 2 ^ 32)).wr .TB_FBINC_LO_FRAC (inc % 2 ^ 32)
      let d := (d.wr .TB_CTL_SRC 1).wr .TB_CTL_HOLDOVER 0
      d.raise Ev.TB_FALLBACK (le 4 (unsign 32 d.tb.rate))

/-- The return of the main clock (15, R350). -/
def Dev.tbMain (d : Dev) : Dev :=
  if !d.flag .TB_CTL_SRC || !d.flag .PTP_STAT_LOCK then d
  else
    let delta := d.tbDelta
    if !d.noStep then
      let d := d.toMain delta
      if delta = 0 then d else d.raise Ev.TB_STEP (le 8 (unsign 64 delta))
    else if delta.natAbs ≤ 50 then d.toMain delta
    else if delta.natAbs ≤ 1000000 then { d with tb := { d.tb with slewing := true } }
    else d

/-- TB_MAIN (R350): after `RELOCK` seconds of lock. -/
def execTbMain (s : State) : Out :=
  s.act fun d => if d.tb.lockedAt.any (fun t => d.passed t (1000000000 * d.rd .TB_CTL_RELOCK)) then d.tbMain else d

/-- MGMT_PTP_FALLBACK (R357): the selected port has had no master for 2 s: the management port becomes the PTP port. -/
def execMgmtPtpFallback (s : State) : Out :=
  s.act fun d =>
    if d.ptpOn && d.flag .PTP_CFG_MGFB && d.ptpPort != 2 && !d.ptp.served && d.passed d.ptp.servedAt 2000000000 then
      (d.setMaster none).wr .PTP_STAT_SRCPORT 2
    else d

/-- MGMT_PTP_RETURN (R357): the selected port has had a master for 10 s: PTP returns to it. -/
def execMgmtPtpReturn (s : State) : Out :=
  s.act fun d =>
    if d.ptpOn && decide (d.ptpPort = 2) && d.ptp.served && d.passed d.ptp.servedAt 10000000000 then
      (d.setMaster none).wr .PTP_STAT_SRCPORT 0
    else d

/-- The crystal error interpolated at a temperature in 1/16 degree (15, R351): the table has 5-degree steps from -10 degrees. -/
def Dev.xtalAt (d : Dev) (t : Int) : Int :=
  let x := clampInt 0 (23 * 80) (t + 160)
  let i := min 22 (x / 80).toNat
  let lo := d.srd .TB_XTAL_PPB i
  let hi := d.srd .TB_XTAL_PPB (i + 1)
  lo + (hi - lo) * (x - 80 * i) / 80

/-- A new reading of sensor 8 applies the change of the interpolated error to the fallback increment (15, R351). -/
def Dev.compensate (d : Dev) : Dev :=
  let e := d.xtalAt (d.srd .AON_TEMP_T 8)
  let change := e - d.tb.xtalErr
  let inc := ((d.fbInc : Int) - 4 * 2 ^ 32 * change / 1000000000).toNat
  let d := { d with tb := { d.tb with xtalErr := e } }
  if change = 0 then d else (d.wr .TB_FBINC_HI_INT (inc / 2 ^ 32)).wr .TB_FBINC_LO_FRAC (inc % 2 ^ 32)

end Sys2Proof.Machine
end

