-- ==== Sys2Proof/Machine/Rods.lean ====
section
/-! DEFINITION. Rods from the head memory (16, R382, R383; 10, R251), and what the head memory gives the other units. -/
namespace Sys2Proof.Machine

/-- The `press.heads` entry of a slot. -/
def Dev.headCfg (d : Dev) (slot : Nat) : Option HeadCfg := (d.boot.content.map (·.heads)).bind (fun hs => hs.find? (fun h => h.slot = slot))

/-- The factory dead nozzles of a head (07, Table 7-8). -/
def Dev.deadList (d : Dev) (slot : Nat) : List Nat :=
  (List.range (min 64 (d.headField slot 54 1))).map (fun k => d.headField slot (56 + 2 * k) 2)

/-- The glove class by working neighbours at distance 1 and 2 on the head (10, R251). -/
def Dev.gloveClass (d : Dev) (works : Nat → Bool) (j : Nat) : Nat :=
  let w := fun (k : Int) => bit (decide (0 ≤ k) && decide (k < 4096) && works k.toNat)
  let n1 := w (j - 1) + w (j + 1)
  let n2 := w (j - 2) + w (j + 2)
  nth ((d.boot.content.map (·.plan.gclass)).getD []) (3 * n1 + n2)

/-- The rods of a slot built from its head memory and its record: nozzle by nozzle. -/
def Dev.builtRods (d : Dev) (h : HeadCfg) : List Nat :=
  let masked := d.deadList h.slot ++ h.disabled
  (List.range 4096).map (fun j =>
    if masked.elem j then rodMasked + 16 * d.gloveClass (fun k => !masked.elem k) j
    else h.curve * 2 ^ 24 + 128 * 2 ^ 16)

/-- The slot's rods are to be built: it is enabled and its head memory is valid. -/
def Dev.rodsDue (d : Dev) (slot : Nat) : Option HeadCfg :=
  (d.headCfg slot).filter (fun h => h.enable && (d.lane slot).memValid)

/-- Build a slot's rods into VS's and SV1's copy and the Rod table (R382). -/
def Dev.buildRods (d : Dev) (slot : Nat) : Dev :=
  match d.rodsDue slot with
  | none => d
  | some h =>
    d.forEach ((d.builtRods h).zipIdx) (fun d x =>
      (d.setMasterRod (4096 * slot + x.2) x.1).wr .ROD_ROD x.1 (4096 * slot + x.2))

/-- SV1 writes a slot's built rods into the master copy in channel B (04, R106; R382). -/
def State.storeBuilt (s : State) (slot : Nat) : State :=
  match s.dev.rodsDue slot, (List.range 16).find? (fun i => decide (s.dev.rd .DP_GEOM_SLOT0 i ≤ slot)
      && decide (slot < s.dev.rd .DP_GEOM_SLOT0 i + s.dev.rd .DP_GEOM_HEADS i)) with
  | some h, some i => s.dramWrite (s.dev.rodAddr i (4096 * slot)) ((s.dev.builtRods h).flatMap (le 4))
  | _, _ => s

/-- The nozzle records of a slot are cleared (R383). -/
def Dev.clearNozzles (d : Dev) (slot : Nat) : Dev :=
  { d with loops := { d.loops with nozzles := d.loops.nozzles.filter (fun e => e.1 / 4096 != slot) } }

/-- An update entry among those pending: it replaces that of its channel in its place, or comes last (10, R253). -/
def pendOne (old : List (Nat × Nat × Nat)) (e : Nat × Nat × Nat) : List (Nat × Nat × Nat) :=
  let same := fun (x : Nat × Nat × Nat) => decide (x.1 = e.1) && decide (x.2.1 = e.2.1)
  if old.any same then old.map (fun x => if same x then e else x) else old ++ [e]

/-- SV1 collects update entries (10, R253). -/
def Dev.pendRods (d : Dev) (es : List (Nat × Nat × Nat)) : Dev :=
  { d with loops := { d.loops with pend := es.foldl pendOne d.loops.pend } }

/-- Rebuild a slot's rods through the update queue (R383). -/
def Dev.rebuildRods (d : Dev) (slot : Nat) : Dev :=
  match d.rodsDue slot, d.ownerOf (4096 * slot) with
  | some h, some i =>
    let base := 4096 * (slot - d.rd .DP_GEOM_SLOT0 i)
    ((d.pendRods ((d.builtRods h).zipIdx.map (fun x => (i, base + x.2, x.1)))).clearNozzles slot).sv1Commit i
  | _, _ => d

/-- Drop energies of a head for the energy accounting (07, R193). -/
def Dev.loadDrops (d : Dev) (slot : Nat) : Dev :=
  d.forEach (List.range 7) (fun d c => d.wr .AB_DROP_E (d.headField slot (40 + 2 * c) 2) slot (c + 1))

end Sys2Proof.Machine
end

