-- ==== Sys2Proof/Machine/Zanlink.lean ====
section
/-! DEFINITION. The head links (07, R166 to R199): lane states, beacons, status, dose and echo frames, head memory, loops, low power,
lane loss. -/
namespace Sys2Proof.Machine

/-- Lane states (07, ZL_STAT). -/
inductive LaneSt where
  | off | locking | locked | up | timed | sleep | park | fault
  deriving DecidableEq, Repr

/-- Code of a lane state. -/
def LaneSt.code : LaneSt → Nat
  | .off => 0 | .locking => 1 | .locked => 2 | .up => 3 | .timed => 4 | .sleep => 5 | .park => 6 | .fault => 7

/-- The lane is in a state. -/
def Dev.laneIs (d : Dev) (n : Nat) (s : LaneSt) : Bool := decide (d.rd .ZL_STAT_STATE n = s.code)

/-- UP or TIMED: the states in which frames flow. -/
def Dev.laneRuns (d : Dev) (n : Nat) : Bool := d.laneIs n .up || d.laneIs n .timed

/-- The bit of a lane in `ZL_TIMED`. -/
def Dev.setTimed (d : Dev) (n : Nat) (v : Bool) : Dev :=
  let f := if n < 32 then Fld.ZL_TIMED_LO_TIMED else Fld.ZL_TIMED_HI_TIMED
  if v then d.setBit f (n % 32) else d.clrBit f (n % 32)

/-- Move a lane to a state; an exit from TIMED is counted and clears its `ZL_TIMED` bit. -/
def Dev.laneTo (d : Dev) (n : Nat) (s : LaneSt) : Dev :=
  let d := if d.laneIs n .timed && s != .timed then (d.inc .ZL_STAT_LOSSES n).setTimed n false else d
  d.wr .ZL_STAT_STATE s.code n

/-- The generation of a lane as `CAP` spells it: 1 Zanlink-1, 2 Zanlink-2 (R170). -/
def Dev.capGen (d : Dev) (n : Nat) : Nat := if d.flag .ZL_CFG_GEN n then 1 else 2

/-- `IDLE` blocks with an `LSTATE`, and a `CAP` of the module's generation and its far-end loop (R170, Table 7-1). -/
def Dev.sendIdle (d : Dev) (n lstate : Nat) : Dev :=
  d.emit (.zl n 0 (.idle lstate (d.capGen n + 4 * bit (d.rd .ZL_LOOP_MODE n = 3))) 0 0)

/-- Send a MGMT request with the next `TAG` and its data blocks. -/
def Dev.sendMgmt (d : Dev) (n op p16 : Nat) (data : List Byte) : Dev :=
  (d.zlSend n (.mgmt op (d.lane n).tag 0 p16 data)).updLane n (fun l => { l with tag := (l.tag + 1) % 256 })

/-- Read `blocks` of the head memory from an offset: MGMT `EE_READ` (Table 7-7). -/
def Dev.sendEeRead (d : Dev) (n ofs blocks : Nat) : Dev := d.sendMgmt n 2 ofs (le 1 blocks ++ le 7 0)

/-- The direction toward the module sleeps, or the lane is parked (R195, R196). -/
def Dev.rxSleeps (d : Dev) (n : Nat) : Bool := (d.laneIs n .sleep && bitOf (d.rd .ZL_LPCTL_CUR n) 1) || d.laneIs n .park

/-- Frames from the head reach the module: from UP on, in a SLEEP only while that direction is awake (R175, R195). -/
def Dev.laneHears (d : Dev) (n : Nat) : Bool := d.laneRuns n || (d.laneIs n .sleep && !d.rxSleeps n)

/-- The receiver has no lock. -/
def Dev.dropLock (d : Dev) (n : Nat) : Dev := (d.wr .ZL_STAT_LOCK 0 n).wr .ZL_STAT_FARLOCK 0 n

/-! ### Lane loss (R197, R198) -/

/-- Leave the state for another by a loss: R197 applies in TIMED. -/
def Dev.loseLane (d : Dev) (n cause : Nat) (s : LaneSt) : Dev :=
  let was := d.laneIs n .timed
  let d := d.laneTo n s
  let d := if s = .locking || s = .off then d.dropLock n else d
  let d := d.updLane n (fun l => { l with lastGoodEx := none })
  if was then d.laneLoss n cause else d

/-- LOCK_LOST (R171): in FAULT and SLEEP the state stays. -/
def execLockLost (n : LaneNo) (s : State) : Out :=
  s.act fun d => if d.laneIs n.val .locked || d.laneRuns n.val then d.loseLane n.val 1 .locking else d.dropLock n.val

/-- STATUS_TIMEOUT (R175): no STATUS for `STTO`; suspended during a loop (R194). -/
def execStatusTimeout (n : LaneNo) (s : State) : Out :=
  s.act fun d =>
    if (d.laneIs n.val .locked || d.laneRuns n.val) && !d.flag .ZL_STAT_LOOP n.val
        && d.passed (d.lane n.val).statusAt (100000 * d.rd .ZL_CFG_STTO n.val) then d.loseLane n.val 2 .locking
    else d

/-- HREF stops: every lane is lost (R166, R167). -/
def Dev.hrefOff (d : Dev) : Dev :=
  if !d.pins.href then d
  else
    let d : Dev := { d with pins := { d.pins with href := false } }
    d.forEach (List.range d.nLanes) (fun d n =>
      if d.laneIs n .locked || d.laneRuns n then d.loseLane n 4 .locking else d)

/-- ZL_RECOV_STOP (R198): the lane is not TIMED within `ZL_CTL.RECOV` of its loss while its bar has placed lines. -/
def execZlRecovStop (n : LaneNo) (s : State) : Out :=
  s.act fun d =>
    let l := d.lane n.val
    if l.lossAt.any (fun t => d.passed t (1000000 * d.rd .ZL_CTL_RECOV)) && !l.stopAsked && !d.laneIs n.val .timed && d.lanePlaced n.val then
      ((d.updLane n.val (fun l => { l with stopAsked := true })).raise Ev.ZL_RECOV_STOP (le 1 n.val)).requestStop .laneRecovery
    else d

/-! ### Bring-up (R175, R183) -/

/-- Send a BEACON frame: departure time, I, and the correction found last, which is sent once (R183, R185). -/
def Dev.sendBeacon (d : Dev) (n : Nat) : Dev :=
  let l := d.lane n
  let num := (l.beaconNum + 1) % 2 ^ 32
  let t1 := d.lc / 2 ^ 32
  let d := d.zlSend n (.beacon t1 d.linkInc l.corr num)
  d.updLane n (fun l => { l with beaconNum := num, beacons := ((num, t1) :: l.beacons).take 8, corr := 0 })

/-- What the timebase in force advances in a tick, a slew in progress included, in 2^-32 ns (15, R347, R350). -/
def Dev.baseInc (d : Dev) : Nat :=
  if d.flag .TB_CTL_SRC then ((d.fbInc : Int) + (if d.tb.slewing then d.tb.slew / 2 ^ 16 else 0)).toNat else d.mainInc

/-- I follows the timebase in force, 6.4 ns to its 4 ns (R183; 15, R352). -/
def Dev.setLinkInc (d : Dev) : Dev :=
  let inc := d.baseInc * 8 / 5
  (d.wr .ZL_INC_LO_FRAC inc).wr .ZL_INC_HI_INT (inc / 2 ^ 32)

/-- BEACON_PERIOD (R183). -/
def execBeaconPeriod (n : LaneNo) (s : State) : Out :=
  s.act fun d => if d.laneRuns n.val then d.setLinkInc.sendBeacon n.val else d

/-- LANE_ENABLE (R175): `EN` is 1 and the lane's domain is powered. -/
def execLaneEnable (n : LaneNo) (s : State) : Out :=
  s.act fun d =>
    if d.laneIs n.val .off && d.flag .ZL_CFG_EN n.val && d.domOn (if n.val < 32 then .za else .zb) && decide (n.val < d.nLanes) then
      (d.laneTo n.val .locking).sendIdle n.val 0
    else d

/-- BLOCK_LOCK (R171): an enabled lane's receiver has lock; in LOCKING it moves the lane on. -/
def execBlockLock (n : LaneNo) (s : State) : Out :=
  s.act fun d =>
    if d.laneIs n.val .locking then
      (((d.laneTo n.val .locked).wr .ZL_STAT_LOCK 1 n.val).updLane n.val (fun l => { l with statusAt := d.now })).sendIdle n.val 1
    else if d.laneIs n.val .off || d.laneIs n.val .park then d
    else d.wr .ZL_STAT_LOCK 1 n.val

/-- Read the whole head memory, 256 bytes a request (R192). -/
def Dev.readHead (d : Dev) (n : Nat) : Dev :=
  let d := d.updLane n (fun l => { l with got := [], reread := false, memValid := false, mem := List.replicate 2048 (toByte 0) })
  let d := ((d.wr .ZL_EE_DONE 0 n).wr .ZL_STAT_EEOK 0 n)
  d.forEach (List.range 8) (fun d k => d.sendEeRead n (256 * k) 32)

/-- Entry to UP: from LOCKED, or (`wake`) from SLEEP or PARK (R192). -/
def Dev.enterUp (d : Dev) (n : Nat) (wake : Bool) : Dev :=
  let d := ((d.laneTo n .up).sendIdle n 2).updLane n (fun l => { l with lastGoodEx := none, ident := none, statusAt := d.now })
  let d := d.raise Ev.ZL_UP (le 1 n)
  let d := (d.setLinkInc.sendBeacon n).sendMgmt n 1 0 []
  if wake && (d.lane n).memValid then (d.updLane n (fun l => { l with got := [], reread := true })).sendEeRead n 16 3
  else d.readHead n

/-- LANE_UP (R175): 1,024 good blocks with far `LSTATE` 1 or more; a far `CAP` generation that differs from `GEN` is a fault. -/
def execLaneUp (n : LaneNo) (farGen : Fin 4) (s : State) : Out :=
  s.act fun d =>
    let n := n.val
    if !d.laneIs n .locked then d
    else
      let d := (d.wr .ZL_STAT_FARGEN farGen.val n).wr .ZL_STAT_FARLOCK 1 n
      if farGen.val = d.capGen n then d.enterUp n false
      else (d.laneTo n .fault).raise Ev.ZL_GEN_MISMATCH (le 1 n ++ le 1 farGen.val)

/-! ### Head memory (R192, R193) -/

/-- The head memory's `EE_CRC` matches (R192, Table 7-8). -/
def Dev.headCrcOk (d : Dev) (n : Nat) : Bool :=
  fieldAt (d.lane n).mem 2044 4 = (crc32c ((d.lane n).mem.take 2044)).toNat

/-- The first check of R192 after `EE_CRC` that a head memory fails, in the order of `ZL_HEAD_BAD`. -/
def Dev.headMismatch (d : Dev) (n : Nat) : Option Nat :=
  let agrees := (d.headCfg n).any (fun h => decide (h.rank = d.headField n 36 1) && decide (h.levels = d.headField n 37 1))
  if d.headField n 0 2 != 1 then some 2
  else if d.headField n 2 2 != 4096 then some 3
  else if !agrees then some 4
  else if d.headField n 37 1 != (if d.flag .ZL_CFG_GEN n then 3 else 7) then some 5
  else none

/-- The serial in a head memory. -/
def headSerial (m : List Byte) : List Byte := (m.drop 20).take 16

/-- The head memory is valid: it feeds the other units; a serial other than that read at boot is reported, and then, or when the memory
first becomes valid after the rods were built, the slot's rods are rebuilt (R192; 16, R383). -/
def Dev.headValid (d : Dev) (n : Nat) : Dev :=
  let l := d.lane n
  let serial := headSerial l.mem
  let changed := decide (l.serialBoot ≠ []) && decide (l.serialBoot ≠ serial)
  let late := decide (l.serialBoot = []) && decide (BootStage.rodsBuilt.num ≤ d.boot.stage.num)
  let d := d.updLane n (fun l =>
    { l with memValid := true, serial := serial, serialBoot := if l.serialBoot = [] then serial else l.serialBoot })
  let d := (d.wr .ZL_STAT_EEOK 1 n).loadDrops n
  let d := if changed then d.raise Ev.ZL_HEAD_CHANGED (le 1 n ++ serial) else d
  if changed || late then d.rebuildRods n else d

/-- The whole head memory has been read. -/
def Dev.headRead (d : Dev) (n : Nat) : Dev :=
  let crc := d.headCrcOk n
  let match' := d.headMismatch n
  let c := if crc then match' else some 1
  let d := ((d.wr .ZL_EE_DONE 1 n).wr .ZL_EE_CRCOK (bit crc) n).wr .ZL_EE_MATCH (bit match'.isNone) n
  let d := (d.wr .ZL_EE_RANK (d.headField n 36 1) n).wr .ZL_EE_NDEAD (d.headField n 54 1) n
  match c with
  | none => d.headValid n
  | some k =>
    let d := (d.updLane n (fun l => { l with memValid := false })).wr .ZL_STAT_EEOK 0 n
    (d.loseLane n 3 .fault).raise Ev.ZL_HEAD_BAD (le 1 n ++ le 1 k)

/-- Put bytes into the head memory read so far. -/
def patch (m : List Byte) (ofs : Nat) (data : List Byte) : List Byte := m.take ofs ++ data ++ m.drop (ofs + data.length)

/-- An `EE_READ` response. -/
def Dev.eeRead (d : Dev) (n ofs : Nat) (data : List Byte) : Dev :=
  let l := d.lane n
  if l.reread then
    if ofs != 16 then d
    else if (data.drop 4).take 16 = l.serial then d.updLane n (fun l => { l with reread := false })
    else d.readHead n
  else if ofs % 256 != 0 || 2048 ≤ ofs || data.length != 256 || l.got.elem ofs then d
  else
    let d := d.updLane n (fun l => { l with got := ofs :: l.got, mem := patch l.mem ofs data })
    if (d.lane n).got.length = 8 then d.headRead n else d

/-- A good frame from the head; it answers a `RESEND` (R191). -/
def Dev.rxFrame (d : Dev) (n : Nat) : Dev :=
  d.updLane n (fun l => { l with rxGood := l.rxSeq, rxSeq := (l.rxSeq + 1) % 256, asked := false })

/-- MGMT_RESPONSE (R192). -/
def execMgmtResponse (n : LaneNo) (r : MgmtResp) (s : State) : Out :=
  s.act fun d =>
    if !d.laneHears n.val then d
    else
      let d := d.rxFrame n.val
      match r with
      | .ident gens present fw serial =>
        d.updLane n.val (fun l => { l with ident := some (gens.toNat + 256 * bit present, fw.toNat, serial.toNat) })
      | .eeRead ofs data => d.eeRead n.val ofs.toNat data

/-! ### STATUS frames (R185, R188, R190) -/

/-- Five block times in ns (R185). -/
def Dev.fiveBlocks (d : Dev) (n : Nat) : Nat := if d.flag .ZL_CFG_GEN n then 128 else 64

/-- A beacon exchange is complete: delay and offset; the lane becomes TIMED, or is lost (Table 7-4). -/
def Dev.exchange (d : Dev) (n num : Nat) (theta delta : Int) : Dev :=
  let delay := (clampInt 0 65535 delta).toNat
  let d := (d.wr .ZL_LAT_DELAY delay n).wr .ZL_LAT_LAT (min 65535 (delay + d.fiveBlocks n)) n
  let d := (d.wr .ZL_OFS_THETA (satSigned 16 theta) n).wr .ZL_OFS_BEACON num n
  let l := d.lane n
  let good := decide (theta.natAbs ≤ 8)
  let second := good && decide (l.lastGoodEx = some ((num + (2 ^ 32 - 1)) % 2 ^ 32))
  let d := d.updLane n (fun l => { l with corr := theta, lastGoodEx := if good then some num else none })
  if d.laneIs n .up && second && l.memValid then
    let d := ((d.laneTo n .timed).setTimed n true).updLane n (fun l => { l with lossAt := none, stopAsked := false })
    d.raise Ev.ZL_TIMED (le 1 n ++ le 2 delay ++ le 2 (satSigned 16 theta))
  else if d.laneIs n .timed && decide (50 < theta.natAbs) then d.loseLane n 3 .up
  else d

/-- The exchange that a STATUS frame completes, once per beacon (R183, R185). -/
def Dev.answerBeacon (d : Dev) (n : Nat) (f : StatusFrame) : Dev :=
  match (d.lane n).beacons.find? (fun b => b.1 = f.beacon.toNat) with
  | none => d
  | some (num, t1) =>
    let up : Int := (f.t2.toNat : Int) - t1
    let down : Int := (f.t4.toNat : Int) - f.t3.toNat
    let d := d.updLane n (fun l => { l with beacons := l.beacons.filter (fun b => b.1 != num) })
    d.exchange n num ((up - down) / 2) ((((f.t4.toNat : Int) - t1) - ((f.t3.toNat : Int) - f.t2.toNat)) / 2)

/-- A frame sent is still of use (R190); `newer` are the frames sent after it. -/
def Dev.ofUse (d : Dev) (n : Nat) (f : ZlFrame) (newer : List ZlFrame) : Bool :=
  let l := d.lane n
  match f with
  | .dose jn line _ | .tally jn line _ => l.fifo.any (fun x => decide (x.jn = jn) && decide (x.line = line))
  | .fire jn line tfire _ _ _ =>
    !newer.any (fun g => match g with | .fire jn' line' _ _ _ _ => decide (jn' = jn) && decide (line' = line) | _ => false)
      && decide (d.linkTime (d.now + d.rd .ZL_LAT_LAT n + 2000) ≤ tfire)
  | .heat .. => !newer.any (fun g => match g with | .heat .. => true | _ => false)
  | .mgmt op _ _ p16 _ =>
    (decide (op = 1) && l.ident.isNone)
      || (decide (op = 2) && (if l.reread then decide (p16 = 16) else !l.memValid && !l.got.elem p16))
      || (decide (op = 7) && l.asked)
  | .beacon .. | .idle .. => false

/-- The frames to resend, oldest first, of those sent after `LASTGOOD`, newest first. -/
def Dev.toResend (d : Dev) (n : Nat) : List ZlFrame → List ZlFrame → List ZlFrame
  | [], _ => []
  | f :: older, newer => d.toResend n older (f :: newer) ++ (if d.ofUse n f newer then [f] else [])

/-- Resend after a frame error at the head (R190). -/
def Dev.resend (d : Dev) (n lastGood : Nat) : Dev :=
  let after := ((d.lane n).sent.takeWhile (fun x => x.fseq != lastGood)).map (·.frame)
  let fs := d.toResend n after []
  let d := d.raise Ev.ZL_FRAME_ERR (le 1 n ++ le 1 0 ++ le 1 lastGood)
  if fs = [] then d
  else
    let d := d.forEach fs (fun d f => d.zlSend n f)
    (d.addSat .ZL_FERR_RESENT fs.length n).raise Ev.ZL_RESEND (le 1 n ++ le 1 fs.length)

/-- A STATUS frame. -/
def Dev.statusFrame (d : Dev) (n : Nat) (f : StatusFrame) : Dev :=
  let flags := f.flags.toNat
  let was := bitOf (d.rd .ZL_HEAD_FLAGS n) 1
  let d := d.updLane n (fun l => { l with statusAt := d.now })
  let d := ((d.rxFrame n).wr .ZL_HEAD_THERM f.therm.toNat n).wr .ZL_HEAD_FLAGS flags n
  let d := (d.wr .ZL_STAT_HDPRES (bit (bitOf flags 3)) n).thermReading n f.therm.toNat
  let d := if bitOf flags 1 && !was then d.raise Ev.ZL_HEAT_TIMEOUT (le 1 n) else d
  let d := if bitOf flags 2 && d.laneRuns n then d.resend n f.lastGood.toNat else d
  d.answerBeacon n f

/-- STATUS_FRAME (R185). -/
def execStatusFrame (n : LaneNo) (f : StatusFrame) (s : State) : Out :=
  s.act fun d => if d.laneHears n.val then d.statusFrame n.val f else d

/-- RX_FRAME_ERROR (R173, R191): a received frame is discarded and counted in every state with a lock; from UP on, the head is asked to
resend what it sent after the last good frame. -/
def execRxFrameError (n : LaneNo) (s : State) : Out :=
  s.act fun d =>
    if !d.laneHears n.val && !d.laneIs n.val .locked then d
    else
      let l := d.lane n.val
      let d := (d.inc .ZL_FERR_RXBAD n.val).updLane n.val (fun l => { l with rxSeq := (l.rxSeq + 1) % 256 })
      let d := d.raise Ev.ZL_FRAME_ERR (le 1 n.val ++ le 1 1 ++ le 1 l.rxSeq)
      if d.laneRuns n.val then (d.updLane n.val (fun l => { l with asked := true })).sendMgmt n.val 7 l.rxGood [] else d

/-! ### Dose, heat and echo frames (R177, R182, R189) -/

/-- Lines between a bar's due line and a later placed line; none when the line is not placed. -/
def Dev.linesAhead (d : Dev) (bar jn line : Nat) : Option Nat :=
  match d.due bar with
  | none => none
  | some (j, n) =>
    if j = jn then some (line - n)
    else
      let rest := d.placements.dropWhile (fun p => p.jn != j)
      let between := (rest.takeWhile (fun p => p.jn != jn)).map (·.lines)
      if rest.any (fun p => p.jn = jn) then some (between.foldl (· + ·) 0 - n + line) else none

/-- The next head-line of a lane to send: the first in its output FIFO that is neither sent nor withheld, within `AHEAD` lines. -/
def Dev.nextDose (d : Dev) (n : Nat) : Option FifoLine :=
  match (d.lane n).fifo.find? (fun f => !f.doseSent && decide (f.withheld = 0)), d.barOf n with
  | some f, some bar => if (d.linesAhead bar f.jn f.line).any (fun k => decide (k < d.rd .ZL_CFG_AHEAD n)) then some f else none
  | _, _ => none

/-- Mark an entry of the output FIFO. -/
def Dev.markFifo (d : Dev) (n : Nat) (f : FifoLine) (g : FifoLine → FifoLine) : Dev :=
  d.updLane n (fun l => { l with fifo := l.fifo.map (fun x => if x.jn = f.jn ∧ x.line = f.line then g x else x) })

/-- DOSE_FRAME_SEND (R177): a DOSE frame and its TALLY frame; a head-line read with poison is withheld (08, Table 8-4). -/
def execDoseFrameSend (n : LaneNo) (poison : Bool) (s : State) : Out :=
  s.act fun d =>
    let n := n.val
    match if d.laneIs n .timed then d.nextDose n else none with
    | none => d
    | some f =>
      if poison then
        (d.markFifo n f (fun x => { x with withheld := SpReason.poison.code })).spoilBarLine .poison ((d.barOf n).getD 0) f.jn f.line
      else
        ((d.zlSend n (.dose f.jn f.line f.bytes)).zlSend n (.tally f.jn f.line f.tv)).markFifo n f
          (fun x => { x with doseSent := true })

/-- The HEAT frame of one lane. -/
def Dev.sendHeat (d : Dev) (n : Nat) : Dev :=
  let duty := if d.hen n then d.htDuty n else 0
  let d := (d.wr .HT_STAT_DUTY duty n).zlSend n (.heat (d.lane n).heatSeq duty (d.hen n))
  d.updLane n (fun l => { l with heatSeq := (l.heatSeq + 1) % 2 ^ 32 })

/-- HEAT_PERIOD (R189): CC0 sends each lane that is UP or TIMED its HEAT frame. -/
def execHeatPeriod (s : State) : Out :=
  s.act fun d => if d.runs .cc0 then d.forEach ((List.range d.nLanes).filter d.laneRuns) Dev.sendHeat else d

/-- Take a head-line out of the Tally table of its lane. -/
def Dev.dropTally (d : Dev) (n : Nat) (e : TallyEnt) : Dev :=
  { d with integ := { d.integ with tally := Tab.put d.integ.tally n ((Tab.at d.integ.tally n).filter (fun x => x != e)) } }

/-- The head-line is confirmed: its bar-line is settled once no head of the bar has it outstanding (08, R203). -/
def Dev.confirm (d : Dev) (n : Nat) (e : TallyEnt) : Dev :=
  match d.barOf n with
  | none => d
  | some bar =>
    let open' := (d.slotsOf bar).any (fun s => (Tab.at d.integ.tally s).any (fun x => decide (x.jn = e.jn) && decide (x.line = e.line)))
    if open' then d else d.settleLine bar e.jn e.line

/-- A head-line fails: its counter, `ZL_ECHO_FAIL`, its spoil. -/
def Dev.echoFail (d : Dev) (n : Nat) (e : TallyEnt) (result : Nat) (c : Fld) (r : SpReason) : Dev :=
  ((d.inc c n).raise Ev.ZL_ECHO_FAIL (le 1 n ++ le 4 e.jn ++ le 4 e.line ++ le 1 result)).spoilHeadLine r ((d.barOf n).getD 0) n e.jn e.line

/-- Settle a head-line by its ECHO frame (Table 7-6). -/
def Dev.settleEcho (d : Dev) (n : Nat) (e : TallyEnt) (f : EchoFrame) : Dev :=
  let near := decide (((f.hc.toNat : Int) - e.tfire).natAbs ≤ 20)
  if f.entryPoisoned then d.spoilHeadLine .poison ((d.barOf n).getD 0) n e.jn e.line
  else
    match f.result.toNat with
    | 0 => if f.et.toNat = e.tv && near then d.confirm n e else d.echoFail n e 0 .ZL_ECHO_MISMATCH .echo
    | 1 => d.echoFail n e 1 .ZL_ECHO_NODATA .tally
    | 2 => d.echoFail n e 2 .ZL_ECHO_NODATA .tally
    | 3 => d.echoFail n e 3 .ZL_ECHO_LATE .encSlip
    | r => d.echoFail n e r .ZL_ECHO_MISMATCH .echo

/-- ECHO_FRAME (R182): one that matches no outstanding head-line is counted. -/
def execEchoFrame (n : LaneNo) (f : EchoFrame) (s : State) : Out :=
  s.act fun d =>
    let n := n.val
    if !d.laneHears n then d
    else
      let d := d.rxFrame n
      match (Tab.at d.integ.tally n).find? (fun e => decide (e.jn % 256 = f.jnLow.toNat) && decide (e.line = f.line.toNat)) with
      | none => d.updLane n (fun l => { l with unmatched := l.unmatched + 1 })
      | some e => ((d.dropTally n e).settleEcho n e f).maybeDone e.jn

/-- `ECHOTO` has passed in link time since a head-line's t_fire (R182). -/
def Dev.echoOver (d : Dev) (n : Nat) (e : TallyEnt) : Bool := decide (e.tfire + 4000 * d.rd .ZL_CFG_ECHOTO n ≤ d.lc / 2 ^ 32)

/-- ECHO_TIMEOUT (R182): it does not run while the direction toward the module sleeps (R195). -/
def execEchoTimeout (n : LaneNo) (jn line : U32) (s : State) : Out :=
  s.act fun d =>
    let n := n.val
    match if d.rxSleeps n then none else (Tab.at d.integ.tally n).find? (fun e => decide (e.jn = jn.toNat) && decide (e.line = line.toNat)) with
    | none => d
    | some e => if d.echoOver n e then ((d.dropTally n e).echoFail n e 0xFF .ZL_ECHO_TIMEOUT .echo).maybeDone e.jn else d

/-! ### Low power (R195, R196) -/

/-- What R194 and R195 ask of a lane's bar and heater loop. -/
def Dev.laneIdle (d : Dev) (n : Nat) : Bool := !d.lanePlaced n && !d.flag .HT_CFG_EN n

/-- Enter SLEEP in the directions given: the transmitter that falls asleep sends `LSTATE` 3, the head's own for RX_SLEEP (R195). -/
def Dev.enterSleep (d : Dev) (n : Nat) (tx rx : Bool) : Dev :=
  let d := d.sendMgmt n 4 (bit tx + 2 * bit rx) []
  let d := if tx then d.sendIdle n 3 else d
  (((d.laneTo n .sleep).wr .ZL_LPCTL_TXS (bit tx) n).wr .ZL_LPCTL_RXS (bit rx) n).wr .ZL_LPCTL_CUR (bit tx + 2 * bit rx) n

/-- Enter PARK: with the CDR off there is no lock. -/
def Dev.enterPark (d : Dev) (n : Nat) : Dev :=
  let d := ((d.sendMgmt n 6 0 []).sendIdle n 3).dropLock n
  ((d.laneTo n .park).wr .ZL_LPCTL_PARK 1 n).wr .ZL_LPCTL_CUR 4 n

/-- A request for a low-power state; one that R195 does not allow reads back 0. -/
def Dev.lpRequest (d : Dev) (n : Nat) (tx rx park : Bool) : Dev :=
  if !d.laneRuns n || !d.laneIdle n then d
  else if park then d.enterPark n
  else if tx || rx then d.enterSleep n tx rx
  else d

/-- Address of `ZL_LPCTL`. -/
def lpctl (n : LaneNo) : Nat := 0x700010 + 0x400 * n.val

/-- TX_SLEEP_REQUEST (R195). -/
def execTxSleepRequest (lvl : Lvl) (n : LaneNo) (s : State) : Out :=
  s.act (·.ownWrite lvl (lpctl n) (·.lpRequest n.val true false false))

/-- RX_SLEEP_REQUEST (R195). -/
def execRxSleepRequest (lvl : Lvl) (n : LaneNo) (s : State) : Out :=
  s.act (·.ownWrite lvl (lpctl n) (·.lpRequest n.val false true false))

/-- PARK_REQUEST (R196). -/
def execParkRequest (lvl : Lvl) (n : LaneNo) (s : State) : Out :=
  s.act (·.ownWrite lvl (lpctl n) (·.lpRequest n.val false false true))

/-- The lane is asked to wake: a TX_SLEEP ends as the module transmits again, then an RX_SLEEP on MGMT `WAKE` (R195); a PARK on `IDLE`
blocks (R196). -/
def Dev.askWake (d : Dev) (n : Nat) : Dev :=
  if d.laneIs n .sleep then
    let d := if bitOf (d.rd .ZL_LPCTL_CUR n) 0 then d.sendIdle n 2 else d
    if bitOf (d.rd .ZL_LPCTL_CUR n) 1 then d.sendMgmt n 5 2 [] else d
  else if d.laneIs n .park then d.sendIdle n 0
  else d

/-- LANE_WAKE (R196): the wake from SLEEP or PARK has completed. -/
def execLaneWake (n : LaneNo) (s : State) : Out :=
  s.act fun d =>
    let n := n.val
    if d.laneIs n .sleep || d.laneIs n .park then
      let d := ((d.wr .ZL_LPCTL_TXS 0 n).wr .ZL_LPCTL_RXS 0 n).wr .ZL_LPCTL_PARK 0 n
      (((d.wr .ZL_LPCTL_CUR 0 n).wr .ZL_STAT_LOCK 1 n).wr .ZL_STAT_FARLOCK 1 n).enterUp n true
    else d

/-! ### Loops (R194) -/

/-- The lane leaves its loop through LOCKING; one that is OFF or in FAULT stays so (R175). -/
def Dev.leaveLoop (d : Dev) (n : Nat) : Dev :=
  if d.rd .ZL_LOOP_MODE n = 0 then d
  else
    let d := if d.rd .ZL_LOOP_MODE n = 3 && d.laneRuns n then d.sendMgmt n 3 0 [] else d
    let d := (d.wr .ZL_LOOP_MODE 0 n).wr .ZL_STAT_LOOP 0 n
    if d.laneIs n .off || d.laneIs n .fault then d else d.loseLane n 1 .locking

/-- The lane enters a loop; a far-end loop takes a MGMT frame, which flows from UP on (R175). -/
def Dev.enterLoop (d : Dev) (n mode : Nat) : Dev :=
  if mode = 3 && !d.laneRuns n then d
  else
    let d := if mode = 3 then d.sendMgmt n 3 1 [] else d
    (d.wr .ZL_LOOP_MODE mode n).wr .ZL_STAT_LOOP 1 n

/-- A write of `ZL_LOOP.MODE`: a lane enters a loop only while its bar has no placed line and its heater loop is off; it leaves one, for
another too, through LOCKING. -/
def Dev.loopMode (d : Dev) (n mode : Nat) : Dev :=
  if mode = d.rd .ZL_LOOP_MODE n then d
  else if mode = 0 then d.leaveLoop n
  else if d.laneIdle n then (d.leaveLoop n).enterLoop n mode
  else d

/-- LOOP_MODE_WRITE (R194). -/
def execLoopModeWrite (lvl : Lvl) (n : LaneNo) (mode : Fin 4) (s : State) : Out :=
  s.act (·.ownWrite lvl (0x700014 + 0x400 * n.val) (·.loopMode n.val mode.val))

/-- `TEST` is written 1: the error count clears; in a loop test frames of 32 blocks of PRBS31 are sent and their bit errors counted. The
spec gives the sequence no start: it is a free value (assumption 32). -/
def Dev.loopTest (d : Dev) (n errors : Nat) : Dev :=
  let d := (d.wr .ZL_LOOP_TEST 1 n).wr .ZL_LOOPERR_BITS 0 n
  if d.flag .ZL_STAT_LOOP n then
    let (start, d) := d.free 31
    (d.sendMgmt n 8 0 (prbs31 256 (max 1 start))).addSat .ZL_LOOPERR_BITS errors n
  else d

/-- LOOP_TEST (R194). -/
def execLoopTest (lvl : Lvl) (n : LaneNo) (errors : U32) (s : State) : Out :=
  s.act (·.ownWrite lvl (0x700014 + 0x400 * n.val) (·.loopTest n.val errors.toNat))

end Sys2Proof.Machine
end

