-- ==== Sys2Proof/Machine/Power.lean ====
section
/-! DEFINITION. Supply, resets, temperature sensing and shutdown (12, R299 to R305; 16, R371, R372; 18, R407, R408), and the SPEED_CEIL output
(14, R345). -/
namespace Sys2Proof.Machine

/-! ### Resets (16, R371) -/

/-- A register field that keeps its value in a reset: those of PD_AON, and `ZL_CTL.SPREAD`, which shows how HREF was started
(07, R166). -/
def keptInReset (f : Fld) : Bool := decide ((fldSpec f).dom = .aon) || decide (f = .ZL_CTL_SPREAD)

/-- Every domain but PD_AON at its reset state (assumption 30): HK, the NOR, the supply, PD_AON's registers and its queue of event
entries stay. -/
def Dev.resetDomains (d : Dev) : Dev :=
  let rf := d.rf.filter (fun e => keptInReset e.1.1)
  let since := d.pwr.warnSince.map (fun (t : Int) => t - (d.now : Int))
  let r := Dev.reset
  let r := { r with variant := d.variant, rf := rf, nor := d.nor, pwr := { d.pwr with warnSince := since } }
  let r := { r with boot := { r.boot with stage := d.boot.stage }, evr := { d.evr with caps := [], inBufs := [] }, out := d.out,
                    freeCtr := d.freeCtr, pins := { r.pins with href := d.pins.href } }
  (r.wr .AON_PDSTAT_ON 1).wr .AON_TDEM_BUSY 0

/-- The filtered HOLD# and INHIBIT# follow their inputs across a reset. -/
def Dev.keepInputs (d old : Dev) : Dev :=
  let causes := old.rd .AON_STATE_HOLDC &&& 3
  ((d.wr .XPP_DIN_HOLD (old.rd .XPP_DIN_HOLD)).wr .XPP_DIN_INH (old.rd .XPP_DIN_INH)).wr .AON_STATE_HOLDC causes

/-- What PD_AON counts or shows of one boot begins anew. -/
def Dev.newBoot (d : Dev) : Dev :=
  let d := d.forEach (List.range 10) (fun d s => d.wr .AON_TEMP_VALID 0 s)
  let d := ((((d.wr .AON_STATE_STOPREQ 0).wr .AON_EVLOST_N 0).wr .CR_STAT_IMG 2).wr .CR_PRES_SESSION 0).wr .CR_PRES_SPAN 0
  let d := d.wr .CR_PRES_DBG 0
  { d with evr := { d.evr with seq := 0 }, boot := { d.boot with stage := .powerGood } }

/-- A reset of every domain but PD_AON with its cause; the device state is `st`, BOOT or OFF. -/
def Dev.moduleReset (d : Dev) (cause : Nat) (st : DState) : Dev :=
  let r := (d.resetDomains.newBoot.keepInputs d).wr .CR_STAT_RSTCAUSE cause
  (r.wr .AON_STATE_STATE st.code)

/-- The DRAM loses its contents with a reset (assumption 4). -/
def State.moduleReset (s : State) (cause : Nat) (st : DState) : State :=
  { s with dev := s.dev.moduleReset cause st, dram := ⟨[], []⟩ }

/-- A restart is possible: in every state but OFF and SHUTDOWN, which only the supply leaves (18, R407; 12, R304). -/
def Dev.mayRestart (d : Dev) : Bool := d.st != .off && d.st != .shutdown

/-- DEBUG_RESET (R371): the debug port resets the module while it is enabled (R393). -/
def execDebugReset (s : State) : Out :=
  .next (if s.dev.flag .CR_PRES_DBG && s.dev.mayRestart then s.moduleReset 4 .boot else s)

/-- A write of 1 to `CR_BOOTSEL.RESTART` (16, CR_BOOTSEL). -/
def State.restartWrite (s : State) : State :=
  if s.dev.mayRestart then s.moduleReset (if s.dev.flag .CR_BOOTSEL_BACKUP then 3 else 2) .boot else s

/-- CR_RESTART (R371). -/
def execCrRestart (lvl : Lvl) (s : State) : Out :=
  .next (if s.dev.allowed 0 0x10010 lvl true then s.restartWrite else { s with dev := s.dev.protRefuse 0 0x10010 lvl true })

/-- POWER_GOOD (R407): from OFF, HK starts the boot timeline. -/
def execPowerGood (s : State) : Out := s.act fun d => if d.st = .off then d.wr .AON_STATE_STATE DState.boot.code else d

/-- The shutdown record whose writing the supply cuts off: its CRC bytes stay erased (12, R303; assumption 31). -/
def Dev.cutRecord (d : Dev) : Dev :=
  match d.shut with
  | some x => if x.written || x.due.isSome then d else d.logPut (x.record.take 60 ++ List.replicate 4 Config.norUnlisted)
  | none => d

/-- POWER_ON_RESET (R371): the input rises from below 6.0 V: PD_AON too is reset; the module stays OFF until power-good. -/
def execPowerOnReset (s : State) : Out :=
  let d := s.dev.cutRecord
  let r : Dev := { Dev.reset with variant := d.variant, nor := d.nor, out := d.out, freeCtr := d.freeCtr }
  .next { s with dev := r.wr .AON_STATE_STATE DState.off.code, dram := ⟨[], []⟩ }

/-- The main rails fail (12, R303; 18, R408): firing stops, products in flight are spoiled, a record being written is cut off, the relays
are released, HREF stops and the module resets with cause 1. -/
def State.railsOff (s : State) : State :=
  if s.dev.st = .off then s
  else
    let d := (s.dev.stopFiring.spoilInFlight .power none).cutRecord
    let d : Dev := ({ d with pwr := { d.pwr with warnSince := none, deferred := [] } }).wr .AON_PWR_WARN 0
    let d : Dev := { d with pins := { d.pins with href := false, relaysOpen := false } }
    ({ s with dev := d }).moduleReset 1 .off

/-- INPUT_RESET_9V8 (R303). -/
def execInputReset9v8 (s : State) : Out :=
  .next (State.railsOff { s with dev := s.dev.wr .AON_PWR_VMIN (min (s.dev.rd .AON_PWR_VMIN) 9800) })

/-- OVERVOLTAGE_DISCONNECT (R408). -/
def execOvervoltageDisconnect (s : State) : Out := .next s.railsOff

/-! ### Supply warning (12, R301, R302) -/

/-- SUPPLY_WARNING (R301): `mv` is the filtered input. -/
def execSupplyWarning (mv : U16) (s : State) : Out :=
  s.act fun d =>
    if d.st = .off || d.flag .AON_PWR_WARN then d
    else
      let d := ((d.wr .AON_PWR_WARN 1).wr .AON_PWR_SEEN 1).wr .AON_PWR_VMIN (min (d.rd .AON_PWR_VMIN) mv.toNat)
      let d := { d with pwr := { d.pwr with vin := mv.toNat, warnSince := some d.now } }
      (d.setPlim.wr .VL_CTL_FREEZE 1).raise Ev.PWR_WARN (le 2 mv.toNat)

/-- The supply record (16, Table 16-7). -/
def Dev.supplyRec (d : Dev) (lowest us : Nat) : List Byte :=
  sealRec (le 4 magicSupply ++ le 4 1 ++ le 4 (tsec d.now) ++ le 4 (tns d.now) ++ le 2 lowest ++ le 2 0 ++ le 4 us)

/-- The warning clears: P_lim returns, the supply record is written, the deferred writes start in their order, SV1 commits again (10, R254). -/
def Dev.clearWarning (d : Dev) (lowest : Nat) : Dev :=
  let us := ((d.now - d.pwr.warnSince.getD d.now : Int) / 1000).toNat
  let later := d.pwr.deferred
  let d := (d.wr .AON_PWR_WARN 0).wr .AON_PWR_VMIN (min (d.rd .AON_PWR_VMIN) lowest)
  let d := { d with pwr := { d.pwr with warnSince := none, deferred := [] } }
  let d := if d.flag .AB_STAT_THROTTLE then d else d.updAba (fun a => { a with cut := 0, plimRise := 0 })
  let d := (d.setPlim.wr .VL_CTL_FREEZE 0).raise Ev.PWR_CLEAR (le 2 lowest ++ le 4 us)
  ((d.logPut (d.supplyRec lowest us)).forEach later Dev.norDo).forEach d.pipes Dev.sv1Commit

/-- SUPPLY_WARNING_CLEAR (R302): `lowest` is the lowest input in mV during the warning. -/
def execSupplyWarningClear (lowest : U16) (s : State) : Out :=
  s.act fun d => if d.flag .AON_PWR_WARN then d.clearWarning lowest.toNat else d

/-! ### Temperature sensing (12, R299, R300) -/

/-- HK demands the sensors: in SAFE and SHUTDOWN, and in BOOT from the Crown read on. -/
def Dev.hkDemands (d : Dev) : Bool :=
  match d.st with
  | .safe | .shutdown => true
  | .boot => decide (BootStage.firstPass.num ≤ d.boot.stage.num)
  | _ => false

/-- HK_TEMP_DEMAND (R299). -/
def execHkTempDemand (s : State) : Out := s.act fun d => if d.hkDemands then d.demandAll else d

/-- TEMP_DEMAND (R299). -/
def execTempDemand (lvl : Lvl) (mask : BitVec 10) (s : State) : Out :=
  s.act fun d => d.ownWrite lvl 0x400 (fun d => d.demand mask.toNat)

/-- The first of sensors 0 to 7 that reads T_J. -/
def Dev.hottest (d : Dev) : Nat := ((List.range 8).find? (fun s => d.srd .AON_TEMP_T s = d.tj)).getD 0

/-- One sample of T_J for the warning and the throttle (Table 12-4). -/
def Dev.sampleTj (d : Dev) : Dev :=
  let w := d.temp.warn.sample d.tj 1520 1488
  let t := d.temp.throttle.sample d.tj 1600 1568
  let wasW := d.temp.warn.on
  let wasT := d.temp.throttle.on
  let d := { d with temp := { d.temp with warn := w, throttle := t } }
  let d := if wasW = w.on then d else d.wr .AB_STAT_TWARN (bit w.on)
  let d := if !wasW && w.on then d.raise Ev.TJ_WARN (le 1 d.hottest ++ le 2 (unsign 16 d.tj)) else d
  let d := if wasT = t.on then d else d.wr .AB_STAT_THROTTLE (bit t.on)
  if !wasT && t.on then d.raise Ev.TJ_THROTTLE (le 2 (unsign 16 d.tj) ++ le 2 (d.rd .AB_PLIM_CUR)) else d

/-- A threshold of Table 12-4 that shuts the module down. -/
def Dev.heatShutdown (d : Dev) (cause : Nat) (was now : Thr) : Dev :=
  if !was.on && now.on && d.mayRestart then
    d.raiseFatal cause Ev.SHUTDOWN_TEMP (le 1 cause ++ le 2 (unsign 16 d.tj) ++ le 2 (unsign 16 d.td))
  else d

/-- One sample of T_J and T_D (R300). -/
def Dev.sampleTemp (d : Dev) : Dev :=
  let d := { d with temp := { d.temp with sample := false } }
  let was := d.temp
  let d := d.sampleTj
  let tj := was.tjShut.sample d.tj 1760 1728
  let td := was.tdShut.sample d.td 1520 1488
  let d := { d with temp := { d.temp with tjShut := tj, tdShut := td } }
  (d.heatShutdown 1 was.tjShut tj).heatShutdown 2 was.tdShut td

/-- A conversion completes: the sensors that were converting take their readings. -/
def Dev.converted (d : Dev) (readings : List U16) : Dev :=
  let busy := d.rd .AON_TDEM_BUSY
  let d := d.forEach (readings.zipIdx) (fun d r =>
    if bitOf busy r.2 then (d.wr .AON_TEMP_T r.1.toNat r.2).wr .AON_TEMP_VALID 1 r.2 else d)
  let d := d.wr .AON_TDEM_BUSY 0
  let d := if bitOf busy 8 && d.domOn .net then d.compensate else d
  if d.temp.sample then d.sampleTemp else d

/-- TEMP_CONVERSION_DONE (R299): `readings` of the 10 sensors in 1/16 degree. -/
def execTempConversionDone (readings : List U16) (s : State) : Out :=
  s.act (·.converted (readings.take 10))

/-! ### Shutdown (12, R304, R305) -/

/-- SHUTDOWN_RECORD_WRITTEN (R305). -/
def execShutdownRecordWritten (s : State) : Out :=
  s.act fun d =>
    match d.shut with
    | some x => if x.written || x.due.isSome then d else ({ d with shut := some { x with written := true } }).logPut x.record
    | none => d

/-- The record is written and the last sent fire time has passed. -/
def Dev.mayPowerDown (d : Dev) : Bool :=
  d.st = .shutdown && (d.shut.map (·.written)).getD false && d.retireSent.fire.sent.isEmpty

/-- SHUTDOWN_POWER_DOWN (R304): every domain but PD_AON powers down, HREF stops, the relays close. -/
def execShutdownPowerDown (s : State) : Out :=
  if s.dev.mayPowerDown then
    let d := s.dev.resetDomains
    .next { s with dev := { d with pins := { d.pins with href := false } }, dram := ⟨[], []⟩ }
  else .next s

/-! ### SPEED_CEIL (14, R345) -/

/-- High time in ticks of a period that starts now: the duty of R345, cut at the next whole second. -/
def Dev.ceilHigh (d : Dev) : Nat :=
  let fs := d.rd .XPP_SCFS_FS
  let full := d.rd .XPP_SCEIL_PERIOD * 250 * (5 * fs + 90 * min (d.rd .AB_CEIL_C) fs) / (100 * fs)
  min full ((1000000000 - tns d.now) / 4)

/-- SPEED_CEIL_PERIOD (R345). -/
def execSpeedCeilPeriod (s : State) : Out :=
  s.act fun d =>
    if d.flag .XPP_CTL_SCEN && d.st.idleToHold then { d with pins := { d.pins with sceil := some d.ceilHigh } } else d

end Sys2Proof.Machine
end

