-- ==== Sys2Proof/Machine/Tally.lean ====
section
/-! DEFINITION. The Tally unit (08, R209, R210, R212): contexts, folds, feeds. -/
namespace Sys2Proof.Machine

/-- The state after a fold with three values (R209). -/
def foldState (a b c : Nat) : U32 := crcFeed 0xFFFFFFFF#32 (le 4 a ++ le 4 b ++ le 4 c)

/-- The result of a context state. -/
def tallyResult (st : U32) : Nat := (st ^^^ 0xFFFFFFFF#32).toNat

/-- Context c is owned by the output stage (R212). -/
def Dev.tallyOwned (d : Dev) (c : Nat) : Bool := d.flag .ZL_CFG_EN c && (d.st.running || d.st = .hold)

/-- A firmware write that leads context c to the state `f` of its state; ignored on an owned context (R212). -/
def Dev.tallyPut (d : Dev) (c : Nat) (f : U32 → U32) : Dev :=
  if d.tallyOwned c then (d.wr .SP_STAT_TOWN 1).raise Ev.TALLY_OWNED (le 1 c)
  else d.wr .TALLY_VAL_STATE (f (BitVec.ofNat 32 (d.rd .TALLY_VAL_STATE c))).toNat c

/-- The context of `TALLY_CTX`. -/
def Dev.tallyCtx (d : Dev) : Nat := d.rd .TALLY_CTX_CTX

/-- A write to `TALLY_FOLD[2]`: folds the three values into the context selected. -/
def Dev.tallyFold (d : Dev) (v : Nat) : Dev :=
  let d := d.wr .TALLY_FOLD_V v 2
  d.tallyPut d.tallyCtx (fun _ => foldState (d.rd .TALLY_FOLD_V 0) (d.rd .TALLY_FOLD_V 1) v)

/-- Feed bytes into the context selected. -/
def Dev.tallyFeed (d : Dev) (bs : List Byte) : Dev := d.tallyPut d.tallyCtx (fun st => crcFeed st bs)

/-- TALLY_FOLD (R209). -/
def execTallyFold (lvl : Lvl) (v : U32) (s : State) : Out := s.act (·.ownWrite lvl 0x80004C (·.tallyFold v.toNat))

/-- TALLY_IN_B (R209). -/
def execTallyInB (lvl : Lvl) (v : Byte) (s : State) : Out := s.act (·.ownWrite lvl 0x800050 (·.tallyFeed [v]))

/-- TALLY_IN_H (R209): two bytes, low byte first. -/
def execTallyInH (lvl : Lvl) (v : U16) (s : State) : Out := s.act (·.ownWrite lvl 0x800054 (·.tallyFeed (le 2 v.toNat)))

/-- TALLY_IN_W (R209): four bytes, low byte first. -/
def execTallyInW (lvl : Lvl) (v : U32) (s : State) : Out := s.act (·.ownWrite lvl 0x800058 (·.tallyFeed (le 4 v.toNat)))

/-- TALLY_VAL_WRITE (R212). -/
def execTallyValWrite (lvl : Lvl) (c : LaneNo) (v : U32) (s : State) : Out :=
  s.act (·.ownWrite lvl (0x800200 + 4 * c.val) (·.tallyPut c.val (fun _ => v)))

end Sys2Proof.Machine
end

