-- ==== Sys2Proof/Machine/Xdc.lean ====
section
/-! DEFINITION. The dose codec (05, R117 to R119): decoding a stream. -/
namespace Sys2Proof.Machine

/-- Copy `n` bytes from `dist` bytes back; the output so far has its last byte first. -/
def matchCopy (dist : Nat) : Nat → List Byte → Option (List Byte)
  | 0, out => some out
  | n + 1, out =>
    match out[dist - 1]? with
    | some b => matchCopy dist n (b :: out)
    | none => none

/-- Stream bytes of the token that starts with control byte `t`, and bytes that it puts out (R117). -/
def tokenSize (t : Nat) : Nat × Nat :=
  if t < 0x80 then (t + 2, t + 1) else if t < 0xC0 then (2, t % 64 + 3) else (3, t % 64 + 4)

/-- Put out one whole token; `reach` is how far back a match may go (R118). -/
def tokenOut (reach t : Nat) (rest out : List Byte) : Option (List Byte) :=
  if t < 0x80 then some ((rest.take (t + 1)).reverse ++ out)
  else if t < 0xC0 then some (List.replicate (t % 64 + 3) (rest.headD 0) ++ out)
  else
    let dist := leVal (rest.take 2)
    if dist = 0 || reach < dist then none else matchCopy dist (t % 64 + 4) out

/-- Decode the rest of a line of `len` bytes of which `done` are out. `back` is what a match may reach beyond the line's start. -/
def decodeLine (len back : Nat) : Nat → Nat → List Byte → List Byte → Option (List Byte × List Byte)
  | 0, _, _, _ => none
  | fuel + 1, done, out, bs =>
    if done = len then some (out, bs)
    else
      match bs with
      | [] => none
      | t :: rest =>
        let (k, n) := tokenSize t.toNat
        if len < done + n || rest.length + 1 < k then none
        else
          match tokenOut (back + done) t.toNat rest out with
          | some out => decodeLine len back fuel (done + n) out (rest.drop (k - 1))
          | none => none

/-- Decode `left` lines of `len` bytes from line `l` on; `stored` marks the lines that are stored plain. The stream must end with the
last line. -/
def decodeLines (len stored : Nat) : Nat → Nat → List Byte → List Byte → Option (List (List Byte))
  | 0, _, _, bs => if bs = [] then some [] else none
  | left + 1, l, out, bs =>
    if bitOf stored l then
      if bs.length < len then none
      else (decodeLines len stored left (l + 1) ((bs.take len).reverse ++ out) (bs.drop len)).map (fun t => bs.take len :: t)
    else
      match decodeLine len (if l = 0 then 0 else len) (len + 1) 0 out bs with
      | some (out, rest) => (decodeLines len stored left (l + 1) out rest).map (fun t => (out.take len).reverse :: t)
      | none => none

/-- Stream bytes of the tokens of a line from its byte `done` on, and whether a match is among them. -/
def lineTokens (len : Nat) : Nat → Nat → List Byte → Nat × Bool
  | 0, _, _ => (0, false)
  | fuel + 1, done, bs =>
    if len ≤ done then (0, false)
    else
      match bs with
      | [] => (0, false)
      | t :: rest =>
        let (k, n) := tokenSize t.toNat
        let (m, hit) := lineTokens len fuel (done + n) (rest.drop (k - 1))
        (k + m, decide (0xC0 ≤ t.toNat) || hit)

/-- Stream bytes of each of `left` lines from line `l` on, with whether a match is among its tokens. -/
def lineParts (len stored : Nat) : Nat → Nat → List Byte → List (Nat × Bool)
  | 0, _, _ => []
  | left + 1, l, bs =>
    let x := if bitOf stored l then (len, false) else lineTokens len (len + 1) 0 bs
    x :: lineParts len stored left (l + 1) (bs.drop x.1)

/-- The lines that are not stored take fewer bytes as tokens than plain (R118), and at level 0 have no match (R120, Table 5-5). -/
def partsOk (len stored level : Nat) (parts : List (Nat × Bool)) : Bool :=
  parts.zipIdx.all (fun x => bitOf stored x.2 || (decide (x.1.1 < len) && !(x.1.2 && decide (level = 0))))

/-- Input bytes that the whole tokens and stored bytes of a stream's prefix stand for; `done` are out of line `l`. -/
def prefixInput (len stored : Nat) : Nat → Nat → Nat → List Byte → Nat
  | 0, _, done, _ => done
  | fuel + 1, l, done, bs =>
    match bs with
    | [] => done
    | t :: rest =>
      if done = len then len + prefixInput len stored fuel (l + 1) 0 (t :: rest)
      else if bitOf stored l then
        if rest.length + 1 < len then rest.length + 1 else len + prefixInput len stored fuel (l + 1) 0 ((t :: rest).drop len)
      else
        let (k, n) := tokenSize t.toNat
        if rest.length + 1 < k then done else prefixInput len stored fuel l (done + n) (rest.drop (k - 1))

end Sys2Proof.Machine
end

