-- ==== Sys2Proof/Machine/Runway.lean ====
section
/-! DEFINITION. The runway (05, R111 to R129): page lists, slots from POSTED to RETIRED, the compressor with its decode comparison and
its stops, the output stage that reads slots into the output FIFOs, skips; energy records (12, R290). -/
namespace Sys2Proof.Machine

/-! ### Pages -/

/-- Address of an entry of a page list. -/
def Dev.plAddr (d : Dev) (i idx : Nat) : Nat := d.rd .RW_PL_BASE_ADDR i * 2 ^ 21 + 4 * (idx % plSize)

/-- The page number of a page list entry. -/
def State.pageNo (s : State) (i idx : Nat) : Nat := bitsOf (leVal (memReadAll s.dram.mem (s.dev.plAddr i idx) 4)) 0 19

/-- Channel-A address of a byte of a slot that starts at offset `ofs` of the page of entry `page`. -/
def State.slotAddr (s : State) (i page ofs : Nat) : Nat := 65536 * s.pageNo i (page + ofs / 65536) + ofs % 65536

/-- The bytes of a slot in whole code words: the last one is padded with zeros (13, R313). -/
def padWord (bs : List Byte) : List Byte := bs ++ List.replicate ((128 - bs.length % 128) % 128) (toByte 0)

/-- Write bytes of a slot page by page, with poison where `bad` says so; stops at a page number outside the pool, which it answers
(R113). -/
def State.slotWrite : Nat → State → (i page ofs : Nat) → Bool → List Byte → State × Option Nat
  | 0, s, _, _, _, _, _ => (s, none)
  | fuel + 1, s, i, page, ofs, bad, bs =>
    if bs = [] then (s, none)
    else if ofs = 65536 then State.slotWrite fuel s i (page + 1) 0 bad bs
    else if s.dev.poolCount ≤ s.pageNo i page then (s, some (s.pageNo i page))
    else
      let room := 65536 - ofs
      State.slotWrite fuel (s.dramWrite (s.slotAddr i page ofs) (bs.take room) bad) i (page + 1) 0 bad (bs.drop room)

/-- The first `n` bytes of a slot as they stand in memory. -/
def State.slotBytes (s : State) (i page ofs n : Nat) : List Byte :=
  (List.range n).map (fun k => memRead s.dram.mem (s.slotAddr i page (ofs + k)))

/-- A code word under bytes `o` to `o + n - 1` of a slot is poisoned. -/
def State.slotPoisoned (s : State) (i page ofs o n : Nat) : Bool :=
  (wordsOf o n).any (fun w => s.dram.poison.elem (s.slotAddr i page (ofs + 128 * w) / 128))

/-- The write point after `n` bytes from offset `ofs` of entry `page` on: a page is left only for the next byte (R112). -/
def writePoint (page ofs n : Nat) : Nat × Nat :=
  if n = 0 then (page, ofs) else ((page + (ofs + n - 1) / 65536) % plSize, (ofs + n - 1) % 65536 + 1)

/-- The first 128-byte boundary at or after the write point, as entry and offset (R112). -/
def Dev.nextStart (d : Dev) (i : Nat) : Nat × Nat :=
  let ofs := ((d.rw i).ofs + 127) / 128 * 128
  if ofs = 65536 then ((d.rd .RW_PL_WR_IDX i + 1) % plSize, 0) else (d.rd .RW_PL_WR_IDX i, ofs)

/-- Bytes from a start on to the end of the pages supplied. -/
def Dev.spaceFrom (d : Dev) (i : Nat) (start : Nat × Nat) : Nat :=
  (d.rd .RW_PL_TAIL_IDX i + plSize - start.1) % plSize * 65536 - start.2

/-- `n` bytes have been written from a start on: the write point follows them; where no page was left for any it stands. -/
def Dev.setWrite (d : Dev) (i : Nat) (start : Nat × Nat) (n : Nat) : Dev :=
  if n = 0 then d
  else
    let p := writePoint start.1 start.2 n
    (d.wr .RW_PL_WR_IDX p.1 i).updRw i (fun r => { r with ofs := p.2 })

/-- Pages held by all pipelines. -/
def Dev.heldPages (d : Dev) : Nat :=
  (d.pipes.map (fun i => (d.rd .RW_PL_TAIL_IDX i + plSize - d.rd .RW_PL_RD_IDX i) % plSize)).foldl (· + ·) 0

/-! ### Slots -/

/-- `ULEN` of a slot. -/
def RSlot.ulen (s : RSlot) : Nat := s.count * s.heads * headLineSize (if s.width2 then 2 else 3)

/-- Bytes of a line of a slot. -/
def RSlot.lineLen (s : RSlot) : Nat := s.heads * headLineSize (if s.width2 then 2 else 3)

/-- The slot header (Table 5-2). -/
def RSlot.header (s : RSlot) (i : Nat) : List Byte :=
  let b := le 2 0x5844 ++ le 1 1 ++ le 1 (s.level + 8 * bit s.bad) ++ le 4 s.jn ++ le 4 s.line ++ le 1 s.count ++ le 1 i
    ++ le 1 (s.heads + 16 * bit s.width2) ++ le 1 s.vch ++ le 2 s.ver ++ le 2 s.ver2 ++ le 2 s.stored ++ le 2 0 ++ le 4 s.clen
    ++ le 4 s.ulen ++ le 4 s.sseq ++ le 24 0
  b ++ le 4 (crc32c b).toNat

/-- Bytes 12 to 23 of the slot's descriptor (Table 5-3). -/
def RSlot.spec12 (s : RSlot) (i : Nat) : List Byte :=
  le 4 s.jn ++ le 4 s.line
    ++ le 4 (s.count + 2 ^ 5 * i + 2 ^ 9 * s.level + 2 ^ 12 * min 15 s.stops + 2 ^ 16 * bit (s.stored != 0) + 2 ^ 17 * bit s.bad)

/-- Job lines of a slot. -/
def RSlot.jobLines (s : RSlot) : List Nat := (List.range s.count).map (· + s.line)

/-- The slot that pipeline i is filling. -/
def Dev.openSlot (d : Dev) (i : Nat) : Option RSlot :=
  (d.rw i).slots.find? (fun s => decide (s.st = .filling) || decide (s.st = .stopped))

/-- Replace the slot with the sequence number of `s`. -/
def Dev.putSlot (d : Dev) (i : Nat) (s : RSlot) : Dev :=
  d.updRw i (fun r => { r with slots := r.slots.map (fun x => if x.sseq = s.sseq then s else x) })

/-- Energy of one head over a band's lines: the drop energy of every code (12, R290). -/
def Dev.headEnergy (d : Dev) (i h : Nat) (lines : List (List Byte)) : Nat :=
  let w := d.codeBits i
  let size := headLineSize w
  let drop := (List.range 8).map (fun c => if c = 0 then 0 else d.rd .AB_DROP_E (d.rd .DP_GEOM_SLOT0 i + h) c)
  (lines.map (fun l =>
    let v := leVal ((l.drop (h * size)).take size)
    ((List.range 4096).map (fun j => nth drop (bitsOf v (w * j) w))).foldl (· + ·) 0)).foldl (· + ·) 0

/-- The energy record of a band (12, Table 12-1): to channel B, where alone it may be written (05, R111), and to the planner. -/
def State.energyRecord (s : State) (i : Nat) (x : RSlot) : State :=
  let d := s.dev
  let e := (List.range 8).map (fun h => if h < x.heads then d.headEnergy i h x.lines else 0)
  let bytes := le 4 x.jn ++ le 4 x.line ++ le 1 x.count ++ le 1 i ++ le 1 x.heads ++ le 1 0 ++ le 4 x.sseq
    ++ e.flatMap (le 4) ++ le 16 0
  let a := d.rd .AB_EBASE_ADDR * 256 + 2 ^ 22 * i + 64 * (x.sseq % 65536)
  let s := if chanOf a = 1 then s.dramWrite a bytes else s
  let r : ERec := { bar := i, jn := x.jn, line := x.line, count := x.count, sseq := x.sseq, e := e }
  let keep := s.dev.aba.recs.filter (fun y => !(decide (y.bar = i) && decide (y.sseq % 65536 = x.sseq % 65536)))
  { s with dev := { s.dev with aba := { s.dev.aba with recs := keep ++ [r] } } }

/-! ### POSTED to FILLING (R116, R124) -/

/-- The slot of a band. -/
def Dev.newSlot (d : Dev) (i : Nat) (b : DoseBand) (start : Nat × Nat) : RSlot :=
  { st := .filling, level := d.rd .RW_XCFG_EFF, bad := false, jn := b.jn, line := b.line, count := b.count
    heads := d.rd .DP_GEOM_HEADS i, width2 := d.flag .DP_CFG_LEVELS i, vch := b.vch, ver := b.ver, ver2 := b.ver2
    stored := 0, clen := 0, sseq := (d.rw i).sseq, page := start.1, ofs := start.2, desc := d.rd .DMA_RHEAD_IDX (rq i)
    stops := 0, lines := b.lines, stream := none, gone := false }

/-- The ring has reached a page number outside the pool: it halts (R113, R17). -/
def State.pageBad (s : State) (i desc page : Nat) : State :=
  let s := s.descFail (rq i) (s.dev.descAddr (rq i) desc)
  { s with dev := s.dev.raise Ev.RW_PAGE_BAD (le 1 i ++ le 4 page) }

/-- A slot's header has been written, `w` the state after it and the page outside the pool that it met, if one: the slot's energy record follows (12, R290). -/
def State.slotBegun (w : State × Option Nat) (i : Nat) (x : RSlot) : State :=
  let s := w.1.energyRecord i x
  match w.2 with
  | some p => s.pageBad i x.desc p
  | none => s

/-- SLOT_START: pipeline i's band goes into the compressor's input buffer, and its slot's header is written at the write point. -/
def State.slotStart (s : State) (i : Nat) : State :=
  match (s.dev.dp i).band, s.ringDesc (rq i) with
  | some b, some (a, _) =>
    let start := s.dev.nextStart i
    if !b.full || (s.dev.rw i).band.isSome || decide (s.dev.spaceFrom i start < s.dev.startSpace i) then s
    else if s.dram.poisoned a 32 then s.descFail (rq i) a
    else
      let x := s.dev.newSlot i b start
      let d := s.dev.updDp i (fun p => { p with band := none })
      let d := d.updRw i (fun r => { r with band := some b, sseq := (r.sseq + 1) % 2 ^ 32, slots := r.slots ++ [x] })
      let n := min 64 (s.dev.spaceFrom i start)
      let d := (d.wr .RW_XIN_BYTES 0 i).wr .RW_XOUT_BYTES n i
      let s : State := { s with dev := d.setWrite i start n }
      .slotBegun (s.slotWrite 6 i start.1 start.2 false ((padWord (x.header i)).take (s.dev.spaceFrom i start))) i x
  | _, _ => s

/-- SLOT_START (R124). -/
def execSlotStart (i : Pipe) (s : State) : Out := .next (s.slotStart i.val)

/-! ### RETIRED (R116, R129) -/

/-- RETIRED slots at the front of the list leave it; `SSEQ` goes on from the last of them. -/
def dropRetired : List RSlot → Nat → List RSlot × Nat
  | [], q => ([], q)
  | x :: t, q => if x.st = .retired then dropRetired t ((x.sseq + 1) % 2 ^ 32) else (x :: t, q)

/-- Retire a slot: `OWN` of its descriptor clears, `RW_PL_RD` advances to the page of the oldest slot that is not RETIRED (Table 5-4). -/
def State.retire (s : State) (i : Nat) (x : RSlot) : State :=
  let a := s.dev.descAddr (rq i) x.desc
  let s := s.dramWrite a (le 4 (withoutBit (leVal (memReadAll s.dram.mem a 4)) 31))
  let d := s.dev.putSlot i { x with st := .retired }
  let d := d.updRw i (fun r => { r with slots := (dropRetired r.slots r.readSeq).1, readSeq := (dropRetired r.slots r.readSeq).2 })
  let rd := match (d.rw i).slots with
    | y :: _ => y.page
    | [] => d.rd .RW_PL_WR_IDX i
  { s with dev := d.wr .RW_PL_RD_IDX rd i }

/-- The bound of the skip in `RW_SKIP` of pipeline i: 0xFFFF_FFFF covers every line. -/
def Dev.skipHi (d : Dev) (i : Nat) : Nat :=
  if d.rd .RW_SKIP_LINE_LINE i = 0xFFFFFFFF then 2 ^ 32 else d.rd .RW_SKIP_LINE_LINE i

/-- The READY slots of pipeline i that a skip covers wholly are retired unread. -/
def State.retireCovered (s : State) (i jn hi : Nat) : State :=
  ((s.dev.rw i).slots.filter (fun x => decide (x.st = .ready) && decide (x.jn = jn) && decide (x.line + x.count ≤ hi))).foldl
    (fun s x => s.retire i x) s

/-- While a skip of pipeline i is armed: slots that it covers are retired; when no held line of its job is left below its bound, `ARM`
clears, and the next skip is written (R129; 06, R162). -/
def State.skipStep (s : State) (i : Nat) : State :=
  if !s.dev.flag .RW_SKIP_CTL_ARM i then s
  else
    let jn := s.dev.rd .RW_SKIP_JN_JN i
    let hi := s.dev.skipHi i
    let s := s.retireCovered i jn hi
    if (s.dev.rw i).slots.any (fun x => decide (x.st ≠ .retired) && decide (x.jn = jn) && decide (x.line < hi)) then s
    else
      let line := s.dev.rd .RW_SKIP_LINE_LINE i
      let d := s.dev.wr .RW_SKIP_CTL_ARM 0 i
      let d : Dev := { d with fire := { d.fire with skips := d.fire.skips.filter (fun x => x != (i, jn, line)) } }
      { s with dev := d.loadSkip i }

/-! ### FILLING to READY or STOPPED (R121, R122) -/

/-- A stream that the comparison accepts: it decodes to the band's lines, is no longer than they are, stores every line that tokens would
not shorten, and at level 0 has runs and literals only (R118 to R121). -/
def RSlot.accepts (x : RSlot) (st : XdcStream) : Bool :=
  decide (st.bytes.length ≤ x.ulen) && decide (decodeLines x.lineLen st.stored.toNat x.count 0 [] st.bytes = some x.lines)
    && partsOk x.lineLen st.stored.toNat x.level (lineParts x.lineLen st.stored.toNat x.count 0 st.bytes)

/-- Both attempts have failed: the slot goes out with `BAD` 1, and its lines are spoiled (R121). -/
def Dev.giveUpSlot (d : Dev) (i : Nat) (x : RSlot) (where' : List Byte) : RSlot × List Byte × Dev :=
  ({ x with bad := true, stored := 0 }, [],
   ((d.inc .RW_XCNT_FAIL).raise Ev.XDC_FAIL where').spoilLines .codec (d.pipeBar i) 255 x.jn [d.pipeBar i] x.jobLines)

/-- What the compressor's attempts come to: the slot with level, `STORED`, `BAD`, the stream, and the block with the events and
spoils of R121. -/
def Dev.compress (d : Dev) (i : Nat) (x : RSlot) (streams : List XdcStream) : RSlot × List Byte × Dev :=
  let first := streams.head?
  if first.any x.accepts then
    let st := first.getD ⟨0, []⟩
    ({ x with stored := st.stored.toNat }, st.bytes, d)
  else
    let where' := le 1 i ++ le 4 x.jn ++ le 4 x.line
    let d := (d.inc .RW_XCNT_REVERIFY).raise Ev.XDC_REVERIFY where'
    let x := { x with level := 0 }
    match (streams.drop 1).find? (fun _ => true) with
    | some st =>
      if x.accepts st then ({ x with stored := st.stored.toNat }, st.bytes, d) else d.giveUpSlot i x where'
    | none => d.giveUpSlot i x where'

/-- The compressor stops at the end of its page budget (R122); with every page held the pool is empty. -/
def Dev.stopXdc (d : Dev) (i : Nat) (x : RSlot) (stream : List Byte) (avail : Nat) : Dev :=
  let xin := prefixInput x.lineLen x.stored (stream.length + 32) 0 0 (stream.take (avail - 64))
  let d := d.putSlot i { x with st := .stopped, stops := x.stops + 1, clen := 0 }
  let d := ((d.wr .RW_XIN_BYTES xin i).wr .RW_XOUT_BYTES avail i).wr .RW_XSTAT_STOPPED 1 i
  let d := (d.inc .RW_XSTAT_STOPS i).raise Ev.RW_PAGE_WAIT (le 1 i ++ le 4 xin ++ le 4 avail)
  if d.poolCount ≤ d.heldPages then d.raise Ev.RW_POOL_EMPTY (le 4 d.heldPages) else d

/-- `RW_RATIO` over the last 1,024 slots. -/
def Dev.countRatio (d : Dev) (ulen out : Nat) : Dev :=
  let h := ((ulen, out) :: d.ratioHist).take 1024
  let num := (h.map (·.1)).foldl (· + ·) 0
  let den := (h.map (·.2)).foldl (· + ·) 0
  let d : Dev := { d with ratioHist := h }
  d.wr .RW_RATIO_RATIO (min 65535 (256 * num / max 1 den))

/-- The slot is complete: header and stream stand in memory, the descriptor is written, the slot is READY (Table 5-4). The writes of its
data tell the descriptor's `STATUS` and `TRIES` (01, R17, R18). -/
def State.slotComplete (s : State) (i : Nat) (x : RSlot) (bytes : List Byte) : State :=
  let a := s.dev.descAddr (rq i) x.desc
  let bs := memReadAll s.dram.mem a 32
  let w := s.dev.rw i
  let s := s.dramWrite (a + 4) (le 8 (s.slotAddr i x.page x.ofs) ++ x.spec12 i
    ++ le 4 (doneWord (doneStatus w.bad w.tries) w.tries bytes.length) ++ le 4 (if descCrc bs then (crc32c bytes).toNat else 0))
  let d := s.dev.setWrite i (x.page, x.ofs) bytes.length
  let d := (d.putSlot i { x with st := .ready, stream := none }).updRw i (fun r => { r with band := none, tries := 0, bad := false })
  let d := ((d.wr .RW_XOUT_BYTES bytes.length i).wr .RW_XIN_BYTES x.ulen i).countRatio x.ulen bytes.length
  let d := (d.wr .DMA_RHEAD_IDX ((x.desc + 1) % d.ringSize (rq i)) (rq i)).ringIrq (rq i) (descIrq bs)
  { s with dev := d.refreshLead }

/-- A slot has been written as far as its pages go, `avail` bytes, `w` the state after it and the page outside the pool that it met, if
one: it is complete, or the compressor stops. -/
def State.slotWritten (w : State × Option Nat) (i : Nat) (x : RSlot) (stream : List Byte) (avail : Nat) : State :=
  let s := w.1
  let bytes := x.header i ++ stream
  match w.2 with
  | some p => { s with dev := s.dev.putSlot i { x with clen := 0 } }.pageBad i x.desc p
  | none =>
    if avail < bytes.length then { s with dev := (s.dev.setWrite i (x.page, x.ofs) avail).stopXdc i x stream avail }
    else s.slotComplete i x bytes

/-- A slot's bytes are written, as far as its pages go: a page number outside the pool is a bus error, pages that run out stop the
compressor. The stream stays held until the slot is complete, so that what a stop or a halt has interrupted goes on with it (R123). -/
def State.slotStore (s : State) (i : Nat) (x : RSlot) (stream : List Byte) : State :=
  let x := { x with clen := stream.length, stream := some stream }
  let avail := s.dev.spaceFrom i (x.page, x.ofs)
  let bytes := x.header i ++ stream
  .slotWritten (s.slotWrite 6 i x.page x.ofs (s.dev.rw i).bad ((padWord bytes).take avail)) i x stream avail

/-- Pipeline i's band is compressed and compared and its slot written, unless its pages run out first; a slot resumed goes on with the
stream that it had. -/
def State.slotReady (s : State) (i : Nat) (streams : List XdcStream) : State :=
  match s.dev.openSlot i with
  | none => s
  | some x =>
    if x.st = .stopped || s.dev.halted (rq i) then s
    else
      match x.stream with
      | some stream => s.slotStore i x stream
      | none =>
        let (x, stream, d) := s.dev.compress i x streams
        State.slotStore { s with dev := d } i x stream

/-- SLOT_READY (R121, R122): a slot that an armed skip covers does not stay. -/
def execSlotReady (i : Pipe) (streams : List XdcStream) (s : State) : Out := .next ((s.slotReady i.val streams).skipStep i.val)

/-! ### Page supply (R123) -/

/-- A write of the page list's tail: a stopped compressor with a page budget resumes. -/
def Dev.plTail (d : Dev) (i idx : Nat) : Dev :=
  let d := d.wr .RW_PL_TAIL_IDX idx i
  match d.openSlot i with
  | some x =>
    if x.st = .stopped && d.budget i != 0 then (d.putSlot i { x with st := .filling }).wr .RW_XSTAT_STOPPED 0 i else d
  | none => d

/-- Write page list entries from an index on. -/
def State.plWrite (s : State) (i idx : Nat) : List U32 → State
  | [] => s
  | p :: t => State.plWrite (s.dramWrite (s.dev.plAddr i idx) (le 4 (p.toNat % plSize))) i (idx + 1) t

/-- The page numbers between `RD` and `TAIL` of all lists. -/
def State.listed (s : State) : List Nat :=
  (List.range 16).flatMap (fun i =>
    let rd := s.dev.rd .RW_PL_RD_IDX i
    (List.range ((s.dev.rd .RW_PL_TAIL_IDX i + plSize - rd) % plSize)).map (fun k => s.pageNo i (rd + k)))

/-- SV1 may append the pages: each is in no list and comes once (R113). -/
def State.pagesFree (s : State) (pages : List U32) : Bool :=
  let ps := pages.map (fun p => p.toNat % plSize)
  decide (ps.eraseDups.length = ps.length) && !ps.any s.listed.elem

/-- PL_TAIL_WRITE (R123): SV1 appends pages to the list and advances its tail. Pages that R113 keeps out of the list SV1 does not append:
the command then does nothing (assumption 60). -/
def execPlTailWrite (lvl : Lvl) (i : Pipe) (idx : BitVec 19) (pages : List U32) (s : State) : Out :=
  if !s.pagesFree pages then .next s else
  let s := if s.dev.allowed 0 (0x501004 + 64 * i.val) lvl.val true then s.plWrite i.val (s.dev.rd .RW_PL_TAIL_IDX i.val) pages else s
  s.act (·.ownWrite lvl (0x501004 + 64 * i.val) (·.plTail i.val idx.toNat))

/-! ### READY to RETIRED (R127, R128) -/

/-- A line of a slot is dropped: a skip covers it, the bar's due pointer has passed it, or its placement ends before it (R129; 06,
R423). -/
def Dev.dropped (d : Dev) (bar jn n : Nat) : Bool :=
  d.lineDropped bar jn n || d.duePast bar jn n || (match d.plOf jn with | some p => decide (p.lines ≤ n) | none => true)

/-- A slot as the header read from memory describes it (Table 5-2). -/
def RSlot.ofHeader (x : RSlot) (h : List Byte) : RSlot :=
  { x with level := bitsOf (fieldAt h 3 1) 0 3, bad := bitOf (fieldAt h 3 1) 3, jn := fieldAt h 4 4, line := fieldAt h 8 4
           count := fieldAt h 12 1, heads := bitsOf (fieldAt h 14 1) 0 4, width2 := bitOf (fieldAt h 14 1) 4, vch := fieldAt h 15 1
           ver := fieldAt h 16 2, ver2 := fieldAt h 18 2, stored := fieldAt h 20 2, clen := fieldAt h 24 4, sseq := fieldAt h 32 4 }

/-- The header `h` of a slot agrees with its descriptor `ds`, whose `STOPS` alone the header does not carry (R127, Tables 5-2, 5-3). -/
def RSlot.agrees (y : RSlot) (h ds : List Byte) : Bool :=
  decide ({ y with stops := bitsOf (fieldAt ds 20 4) 12 4 }.spec12 (fieldAt h 13 1) = (ds.drop 12).take 12)
    && decide (bitsOf (fieldAt ds 24 4) 0 24 = 64 + y.clen)

/-- The check of R127 that a slot fails, by its header `h`, its bytes and its descriptor as they stand in memory and by what the reading
itself reports: 1 header, 2 `SSEQ`, 3 `CRCV`, 4 descriptor, 5 `BAD`. -/
def Dev.slotCheck (d : Dev) (i : Nat) (y : RSlot) (h bytes ds : List Byte) (k : SlotChecks) : Option Nat :=
  if !k.headerOk || fieldAt h 0 2 != 0x5844 || fieldAt h 2 1 != 1 || (crc32c (h.take 60)).toNat != fieldAt h 60 4 then some 1
  else if !k.sseqOk || decide (y.sseq ≠ (d.rw i).readSeq) then some 2
  else if descCrc ds && (!k.crcOk || (crc32c bytes).toNat != fieldAt ds 28 4) then some 3
  else if !k.descOk || !y.agrees h ds then some 4
  else if y.bad then some 5
  else none

/-- The first line of a slot that consumes poisoned stream data (R128): the code word of the header counts to line 0. -/
def State.poisonedLine (s : State) (i : Nat) (y : RSlot) (stream : List Byte) : Option Nat :=
  let sizes := (lineParts y.lineLen y.stored y.count 0 stream).map (·.1)
  (List.range y.count).find? (fun l =>
    let o := (sizes.take l).foldl (· + ·) 64
    s.slotPoisoned i y.page y.ofs (if l = 0 then 0 else o) (nth sizes l + (if l = 0 then 64 else 0)))

/-- What the output stage has read of a slot: the slot by its header, the failed check, the decoded lines (none where the stream decodes to
no lines, which leaves nothing to send: DESIGN CHOICE, assumption 59), the first line with poison, the lines whose second decode differs. -/
structure SlotRead where
  slot : RSlot
  fail : Option Nat
  lines : Option (List (List Byte))
  poison : Option Nat
  second : List (Fin 16 × Fin 8 × List Byte)
  deriving DecidableEq, Repr

/-- Read a slot (R127). -/
def State.readSlot (s : State) (i : Nat) (x : RSlot) (k : SlotChecks) : SlotRead :=
  let ds := memReadAll s.dram.mem (s.dev.descAddr (rq i) x.desc) 32
  let h := s.slotBytes i x.page x.ofs 64
  let y := x.ofHeader h
  let bytes := s.slotBytes i x.page x.ofs (64 + y.clen)
  let stream := bytes.drop 64
  let held := s.poisonedLine i y stream
  { slot := y, fail := s.dev.slotCheck i y h bytes ds k, lines := decodeLines y.lineLen y.stored y.count 0 [] stream
    poison := match k.poisonLine, held with
      | some p, some q => some (min p.val q)
      | some p, none => some p.val
      | none, q => q
    second := k.second }

/-- Feed both decodes of a head-line under the fold of its lane: its `TV` in the lane's context, the second decoder's value in the check
context (08, R210). Answers whether the two differ. -/
def Dev.foldBoth (d : Dev) (lane jn line : Nat) (bytes other : List Byte) : Dev × Bool :=
  let st := crcFeed (foldState jn line lane) bytes
  let st2 := crcFeed (foldState jn line lane) other
  let d := d.wr .TALLY_VAL_STATE st.toNat lane
  ({ d with integ := { d.integ with checks := Tab.put d.integ.checks lane st2.toNat } }, decide (st ≠ st2))

/-- Put a head-line into the output FIFO of its lane, with its tag and its Tally (01, R11; 08, R210). -/
def Dev.fifoPut (d : Dev) (lane : Nat) (f : FifoLine) : Dev :=
  d.updLane lane (fun l => { l with fifo := l.fifo ++ [{ f with tv := tallyResult (BitVec.ofNat 32 (d.rd .TALLY_VAL_STATE lane)) }] })

/-- Pass one head-line of a line on; `code` is the reason for which its line is withheld. -/
def Dev.passHead (d : Dev) (bar lane jn n ver code : Nat) (bytes other : List Byte) : Dev :=
  let (d, differs) := d.foldBoth lane jn n bytes other
  let d :=
    if code = 0 && differs then
      ((d.wr .SP_STAT_DEC 1).raise Ev.OUT_DECODE_MISMATCH (le 1 bar ++ le 4 jn ++ le 4 n ++ le 1 lane)).spoilBarLine .codec bar jn n
    else d
  d.fifoPut lane { jn := jn, line := n, bar := bar, ver := ver, bytes := bytes, tv := 0, doseSent := false
                   withheld := if code = 0 && differs then SpReason.codec.code else code }

/-- Pass one line of a slot on: dropped, withheld with the slot or from poisoned data on, or into the FIFOs. -/
def Dev.passLine (d : Dev) (i : Nat) (x : RSlot) (r : SlotRead) (l : Nat) : Dev :=
  let bar := d.pipeBar i
  let y := if r.fail.isSome then x else r.slot
  let n := y.line + l
  if d.dropped bar y.jn n then d
  else
    let slot0 := d.rd .DP_GEOM_SLOT0 i
    let size := y.lineLen / max 1 y.heads
    let part := fun (h : Nat) => ((((r.lines.getD [])[l]?).getD []).drop (h * size)).take size
    let other := fun (h : Nat) =>
      match r.second.find? (fun m => decide (m.1.val = l) && decide (m.2.1.val = h)) with
      | some m => m.2.2
      | none => part h
    let bad := r.fail.isSome || r.lines.isNone
    let poisoned := r.poison.any (fun p => decide (p ≤ l))
    let code := if bad then SpReason.codec.code else if poisoned then SpReason.poison.code else 0
    let ver := if y.vch != 0 && decide (y.vch ≤ l) then y.ver2 else y.ver
    let d :=
      if bad then (if r.fail = some 5 then d else d.spoilBarLine .codec bar y.jn n)
      else if poisoned then d.spoilBarLine .poison bar y.jn n
      else d
    d.forEach (List.range y.heads) (fun d h => d.passHead bar (slot0 + h) y.jn n ver code (part h) (other h))

/-- The FIFOs of pipeline i's heads have room for a slot's lines: at most 32 lines ahead of the due line (R127). -/
def Dev.fifoRoom (d : Dev) (i : Nat) (x : RSlot) : Bool :=
  (List.range x.heads).all (fun h => decide ((d.lane (d.rd .DP_GEOM_SLOT0 i + h)).fifo.length + x.count ≤ 32))

/-- Nothing of a slot is to be sent: its job has given it up, or every line of it is dropped. -/
def Dev.slotDropped (d : Dev) (i : Nat) (x : RSlot) : Bool :=
  x.gone || (List.range x.count).all (fun l => d.dropped (d.pipeBar i) x.jn (x.line + l))

/-- The output stage reads the oldest slot of pipeline i, if it is READY. -/
def State.slotRead (s : State) (i : Nat) (k : SlotChecks) : State :=
  match (s.dev.rw i).slots with
  | [] => s
  | x :: _ =>
    if x.st ≠ .ready then s
    else if s.dev.slotDropped i x then s.retire i x
    else if !s.dev.fifoRoom i x then s
    else
      let r := s.readSlot i x k
      let d := match r.fail with
        | some c => s.dev.raise Ev.RW_SLOT_BAD (le 1 (s.dev.pipeBar i) ++ le 4 x.jn ++ le 4 x.line ++ le 1 c)
        | none => s.dev
      let d := d.forEach (List.range x.count) (fun d l => d.passLine i x r l)
      { s with dev := d }.retire i x

/-- SLOT_READ_START (R127). -/
def execSlotReadStart (i : Pipe) (checks : SlotChecks) (s : State) : Out := .next ((s.slotRead i.val checks).skipStep i.val)

/-! ### Skips (R129; 06, R162) -/

/-- Lines of a product that a skip from line `lo` to below `hi` covers. -/
def Prod.covered (p : Prod) (lo hi : Nat) : List Nat :=
  (List.range (min (p.last + 1) hi - max p.first lo)).map (· + max p.first lo)

/-- Settle, without a spoil, the lines of a job on a bar that a skip drops (08, R203). -/
def Dev.settleDropped (d : Dev) (bar jn lo hi : Nat) : Dev :=
  d.forEach (d.integ.prods.filter (fun p => p.jn = jn)) (fun d p =>
    (d.updProd jn p.pn (fun p => { p with settled := addNew p.settled ((p.covered lo hi).map (fun n => (bar, n))) })).closeProd jn p.pn)

/-- While firing is stopped, lines in the bar's output FIFOs that a skip covers leave them; otherwise they are unaffected (R129). -/
def Dev.dropFifo (d : Dev) (bar jn hi : Nat) : Dev :=
  if d.st.running then d
  else
    d.forEach (d.slotsOf bar) (fun d s =>
      d.updLane s (fun l => { l with fifo := l.fifo.filter (fun f => !(decide (f.jn = jn) && decide (f.line < hi))) }))

/-- The first line of a job that is still to be due on a bar and is in no output FIFO of it; `hi` when the bar has passed the job. -/
def Dev.leftFrom (d : Dev) (bar jn hi : Nat) : Nat :=
  let fifo := (d.slotsOf bar).flatMap (fun s => ((d.lane s).fifo.filter (fun f => f.jn = jn)).map (·.line + 1))
  match d.due bar with
  | some (jn', n) => if jn' = jn then fifo.foldl max n else if d.duePast bar jn 0 then hi else fifo.foldl max 0
  | none => hi

/-- Drop what the bar of pipeline i has of the lines of a job below `hi`: lines to be sent again, and the lines not yet due, which the due
pointer skips (06, R152). -/
def Dev.dropBarLines (d : Dev) (i jn hi : Nat) : Dev :=
  let bar := d.pipeBar i
  let d := d.dropFifo bar jn hi
  let again := d.fire.again.filter (fun l => decide (l.bar = bar) && decide (l.jn = jn) && decide (l.line < hi))
  let d : Dev := { d with fire := { d.fire with again := d.fire.again.filter (fun l => !again.elem l) } }
  let d := d.forEach again (fun d l => d.settleLine bar jn l.line)
  let lo := d.leftFrom bar jn hi
  if hi ≤ lo then d
  else
    let d := { d with fire := { d.fire with dropped := d.fire.dropped ++ [(bar, jn, lo, hi)] } }
    let d := d.settleDropped bar jn lo hi
    match d.due bar with
    | some (jn', n) => if jn' = jn && d.lineDropped bar jn n then d.moveDue bar (d.seek bar jn n) else d
    | none => d

/-- A skip armed in `RW_SKIP` of pipeline i. -/
def State.skip (s : State) (i : Nat) : State :=
  State.skipStep { s with dev := (s.dev.wr .RW_SKIP_CTL_ARM 1 i).dropBarLines i (s.dev.rd .RW_SKIP_JN_JN i) (s.dev.skipHi i) } i

/-- SKIP_ARM (R129): SV1 writes `ARM` 1. -/
def execSkipArm (lvl : Lvl) (i : Pipe) (s : State) : Out :=
  let a := 0x50102C + 64 * i.val
  if s.dev.allowed 0 a lvl.val true && s.dev.domOn .dose then .next (s.skip i.val) else s.act (·.ownWrite lvl a id)

end Sys2Proof.Machine
end

