-- ==== Sys2Proof/Machine/Regs.lean ====
section
/-! DEFINITION. Writing a register (17, R397, R398): what each field's write does, by its access type and its home chapter. -/
namespace Sys2Proof.Machine

/-! ### Fields of access RW and RWP -/

/-- A field of a placement entry: a write to a valid entry outside HOLD is ignored, except a lowering of its lines (06, R165,
R423); `VALID` is never cleared by a write, and setting it puts the entry last in the placement order. -/
def Dev.storePl (d : Dev) (f : Fld) (e x : Nat) : Dev :=
  let valid := d.flag .FIRE_PL_ORGH_VALID e
  if valid && decide (f = .FIRE_PL_LINES_L) && decide (x < d.rd .FIRE_PL_LINES_L e) then d.lowerLines e x
  else if valid && d.st != .hold then d
  else if f = .FIRE_PL_ORGH_VALID then
    if valid || x = 0 then d
    else
      let d := { d.wr .FIRE_PL_ORGH_VALID 1 e with fire := { d.fire with order := d.fire.order ++ [e] } }
      d.forEach d.bars (fun d b => if (d.due b.bar).isNone then d.moveDue b.bar (d.seek b.bar (d.rd .FIRE_PL_JN_JN e) 0) else d)
  else d.wr f x e

/-- Leave a lane out of use: its `EN` is written 0 (07, R175); its receiver has no lock any more. -/
def Dev.laneDisable (d : Dev) (n : Nat) : Dev := d.loseLane n 1 .off

/-- HREF follows `ZL_CTL.HREF_EN` from the Crown header read on; whenever it starts, its spread is taken anew (07, R166). -/
def Dev.hrefEnable (d : Dev) : Dev := if d.flag .ZL_CTL_HREF_EN then d.startHref else d.hrefOff

/-- The relays follow the ring port (15, R367): open while it runs. -/
def Dev.relays (d : Dev) : Dev := { d with pins := { d.pins with relaysOpen := d.ringOn } }

/-- A `ZL_LOOP.TEST` of 1 written with the generic access: the bit errors found are a free value (assumption 32). -/
def Dev.loopTestFree (d : Dev) (n : Nat) : Dev :=
  let (errors, d) := d.free 32
  d.loopTest n errors

/-- A field of access RW or RWP takes `x`. -/
def Dev.storeField (d : Dev) (f : Fld) (i j x : Nat) : Dev :=
  match f with
  | .SP_WASTE_CTL_MODE => if x = 3 then d else d.wr f x
  | .XPP_SCFS_FS => if x = 0 then d else d.wr f x
  | .FIRE_ENC_FILT | .FIRE_ENC_IFILT => d.wr f (min 320 (max 5 x))
  | .DMA_RBASE_LO_ADDR | .DMA_RBASE_HI_ADDR | .DMA_RCFG_SIZE => if d.flag .DMA_RCFG_EN i then d else d.wr f x i
  | .FIRE_PL_JN_JN | .FIRE_PL_ORGF_FRAC | .FIRE_PL_ORGL_INT | .FIRE_PL_ORGH_INT | .FIRE_PL_ORGH_VALID | .FIRE_PL_PITF_FRAC
  | .FIRE_PL_PITI_INT | .FIRE_PL_LINES_L => d.storePl f i x
  | .ROD_ROD => d.rodWindow i x
  | .AX_TGT_POS => d.axTarget i (signed 32 x) false
  | .TALLY_VAL_STATE => d.tallyPut i (fun _ => BitVec.ofNat 32 x)
  | .RW_PL_TAIL_IDX => d.plTail i x
  | .RW_SKIP_CTL_ARM => if x = 0 then d.wr f 0 i else d
  | .DP_RODQ_COMMIT => if x = 1 then d.rodCommit i else d
  | .VIS_ESCTL_COMMIT => if x = 1 then d.visCommit i else d
  | .AX_CFG_CCOMMIT | .HT_CFG_CCOMMIT => if x = 1 then d.wr f 1 i else d
  | .VIS_FFBASE_ADDR => d.visFfbase i x
  | .ZL_LPCTL_TXS | .ZL_LPCTL_RXS | .ZL_LPCTL_PARK => d
  | .ZL_LOOP_MODE => d.loopMode i x
  | .ZL_LOOP_TEST => if x = 1 then d.loopTestFree i else d.wr f 0 i
  | .ZL_CFG_EN =>
    let was := d.flag f i
    let d := d.wr f x i
    if was && x = 0 then d.laneDisable i else d
  | .ZL_CTL_HREF_EN => (d.wr f x).hrefEnable
  | .VIS_CFG_EN => if d.rd f i = x then d else (d.wr f x i).visEnable i
  | .AB_PLIM_CFG | .AB_PLIM_FLOOR => (d.wr f x).setPlim
  | .AB_HPLIM_MAX => (d.wr f x i).wr .AB_HPLIM_CUR x i
  | .RING_CFG_EN => (d.wr f x).relays
  | _ => d.wr f x i j

/-! ### Fields of access W1C and WO -/

/-- Ones written to a W1C field: they clear the bits, or release Reckoners (03, R78). -/
def Dev.clearField (d : Dev) (f : Fld) (i x : Nat) : Dev :=
  match f with
  | .RKC_MITTEN_MIT => d.releaseRk x
  | _ => d.wr f (d.rd f i - (d.rd f i &&& x)) i

/-- A write to a WO field acts as its meaning states. -/
def Dev.actField (d : Dev) (f : Fld) (i x : Nat) : Dev :=
  match f with
  | .AON_TDEM_DEM => d.demand x
  | .DP_RODQ_RELEASE => if x = 1 then d.rodRelease i else d
  | .DP_RODQ_IDX_CH => d.updDp i (fun p => { p with idx := x })
  | .DP_RODQ_DATA_ROD => d.rodEnqueue i x
  | .TALLY_FOLD_V => if i = 2 then d.tallyFold x else d.wr f x i
  | .TALLY_IN_B_D => d.tallyFeed (le 1 x)
  | .TALLY_IN_H_D => d.tallyFeed (le 2 x)
  | .TALLY_IN_W_D => d.tallyFeed (le 4 x)
  | .VIS_TRIG_LO_POS => d.updVp i (fun v => { v with trigLo := x })
  | .VIS_TRIG_HI_POS => d.visEnqueue i x
  | .VIS_CAL_START => if x = 1 then d.updVp i (fun v => { v with calPend := true }) else d
  | .AX_CTL_HOME => if x = 1 then d.axHome i else d
  | .AX_CTL_STOP => if x = 1 then d.axStop i else d
  | .AX_CTL_FCLR => if x = 1 then d.axFclr i else d
  | .TR_STAT_ARM => if x = 1 then d.trArm i else d
  | _ => d

/-! ### Words -/

/-- One field of a written word, by its access type (R398, Table 17-2). -/
def Dev.writeField (d : Dev) (lvl v : Nat) (f : Fld) (i j : Nat) : Dev :=
  let spec := fldSpec f
  let x := bitsOf v spec.lo spec.width
  match spec.acc with
  | .ro => d
  | .rw => d.storeField f i j x
  | .rwp => if lvl = 3 then d.storeField f i j x else d
  | .w1c => if x = 0 then d else d.clearField f i x
  | .wo => d.actField f i x

/-- A write of `ZL_LPCTL`: a new request, or with every bit 0 the wake of the lane (07, R195, R196); `PARK` takes precedence. -/
def Dev.lpWrite (d : Dev) (n v : Nat) : Dev :=
  if v % 8 = 0 then d.askWake n else d.lpRequest n (bitOf v 0) (bitOf v 1) (bitOf v 2)

/-- Every field of a written word, lowest first. -/
def Dev.writeWord (d : Dev) (lvl v : Nat) (r : RegInfo) (i j : Nat) : Dev :=
  let d := d.forEach r.fields (fun d f => d.writeField lvl v f i j)
  if r.fields.elem .ZL_LPCTL_PARK then d.lpWrite i v else d

/-- Buffer lengths of the descriptors of a ring from its old tail to its new one, as they stand in DRAM. -/
def State.newDescs (s : State) (r old new : Nat) : List Nat :=
  let size := s.dev.ringSize r
  (List.range ((new + size - old % size) % size)).map (fun k => descLen (memReadAll s.dram.mem (s.dev.descAddr r (old + k)) 32))

/-- What a write does beyond the block's own state, which was `was`: buffers handed over, skips, the code of Reckoners released (03, R78), a
restart. -/
def State.writeActs (s : State) (was : Dev) (v : Nat) (r : RegInfo) (i : Nat) : State :=
  if r.fields.elem .DMA_RTAIL_IDX then
    { s with dev := s.dev.addBuffers i (s.newDescs i (was.rd .DMA_RTAIL_IDX i) (s.dev.rd .DMA_RTAIL_IDX i)) }
  else if r.fields.elem .RKC_MITTEN_MIT then s.reloadFreed was
  else if r.fields.elem .RW_SKIP_CTL_ARM && bitOf v 0 then s.skip i
  else if r.fields.elem .CR_BOOTSEL_RESTART && bitOf v 1 then s.restartWrite
  else s

/-- Write a register at a level. -/
def State.regWrite (s : State) (lvl a v : Nat) : State :=
  let d := s.dev
  if !d.allowed 0 a lvl true then { s with dev := d.protRefuse 0 a lvl true }
  else if a % 4 != 0 then { s with dev := d.busError a lvl 1 true }
  else
    match findReg a with
    | none => { s with dev := d.busError a lvl 0 true }
    | some (r, i, j) =>
      if d.absent r i then s
      else if !d.domOn (domOf r i) then { s with dev := d.busError a lvl 2 true }
      else ({ s with dev := d.writeWord lvl v r i j }).writeActs d v r i

/-- REGISTER_WRITE (R398). -/
def execRegisterWrite (lvl : Lvl) (addr val : U32) (s : State) : Out := .next (s.regWrite lvl.val addr.toNat val.toNat)

/-- An access that R397 refuses; one that it does not is no such access. -/
def Dev.invalidAccess (d : Dev) (lvl a width : Nat) (write : Bool) : Dev :=
  if !d.allowed 0 a lvl write then d.protRefuse 0 a lvl write
  else if width != 4 || a % 4 != 0 then d.busError a lvl 1 write
  else
    match findReg a with
    | none => d.busError a lvl 0 write
    | some (r, i, _) => if d.absent r i || d.domOn (domOf r i) then d else d.busError a lvl 2 write

/-- INVALID_REGISTER_ACCESS (R397): `width` in bytes. -/
def execInvalidRegisterAccess (lvl : Lvl) (addr : U32) (width : Byte) (write : Bool) (s : State) : Out :=
  s.act (·.invalidAccess lvl.val addr.toNat width.toNat write)

end Sys2Proof.Machine
end

