-- ==== Sys2Proof/Machine/Crown.lean ====
section
/-! DEFINITION. The Crown image (16, R374 to R379): the framing of the records, their register settings,
and the rules that invalidate an image. -/
namespace Sys2Proof.Machine

/-! ### Records (R376, Table 16-5) -/

/-- A record: `TYPE`, `INST`, payload, `CRC`, and where it stands from the start of the span with its whole length. -/
structure CrownRec where
  type : Nat
  inst : Nat
  payload : List Byte
  crc : Nat
  ofs : Nat
  len : Nat
  deriving DecidableEq, Repr

/-- Read the record at `ofs` of a span with `left` bytes to the end of the records; whether its framing and `CRC` are good. -/
def Dev.readRec (d : Dev) (img ofs left : Nat) : CrownRec × Bool :=
  let h := d.norRead (spanBase img + ofs) 16
  let len := fieldAt h 4 4
  let sane := decide (fieldAt h 2 1 = 1) && decide (fieldAt h 3 1 = 0) && decide (len % 4 = 0) && decide (20 + len ≤ left)
  let body := if sane then d.norRead (spanBase img + ofs + 16) (len + 4) else []
  let crc := fieldAt body len 4
  ({ type := fieldAt h 0 2, inst := fieldAt h 8 4, payload := body.take len, crc := crc, ofs := ofs, len := 20 + len },
    sane && decide (crc = (crc32c (h ++ body.take len)).toNat))

/-- The records of a span, up to the first that fails: those read, and the type of the one that failed. -/
def Dev.readRecs (d : Dev) (img : Nat) : Nat → Nat → Nat → List CrownRec × Option Nat
  | 0, _, left => ([], if left = 0 then none else some 0)
  | n + 1, ofs, left =>
    let (r, good) := d.readRec img ofs left
    if good then
      let (rs, bad) := d.readRecs img n (ofs + r.len) (left - r.len)
      (r :: rs, bad)
    else ([], some r.type)

/-- Count and largest `INST` of each record type (Table 16-5): type, fewest, most, largest instance. -/
def recCounts : List (Nat × Nat × Nat × Nat) :=
  [(1, 1, 64, 0), (2, 1, 1, 0), (3, 1, 1, 0), (4, 1, 1, 0), (5, 1, 1, 0), (6, 1, 1, 0), (7, 1, 1, 0), (8, 1, 8, 7), (9, 1, 4, 3),
   (10, 1, 1, 0), (11, 1, 1, 0), (12, 0, 4, 3), (13, 0, 1, 0), (14, 1, 1, 0), (15, 0, 1, 0), (16, 1, 1, 0)]

/-- The instances of a type are distinct; those of `regs` all read 0 (Table 16-5; assumption 33). -/
def instsOk (type most : Nat) (insts : List Nat) : Bool :=
  insts.all (fun i => decide (i ≤ most)) && (type = 1 || insts.eraseDups.length = insts.length)

/-- The first type whose count or instances break Table 16-5, or that is none of the table's. -/
def countsBad (rs : List CrownRec) : Option Nat :=
  match rs.find? (fun r => !recCounts.any (fun c => c.1 = r.type)) with
  | some r => some r.type
  | none =>
    (recCounts.find? (fun c =>
      let insts := (rs.filter (fun r => r.type = c.1)).map (·.inst)
      !(decide (c.2.1 ≤ insts.length) && decide (insts.length ≤ c.2.2.1) && instsOk c.1 c.2.2.2 insts))).map (·.1)

/-- The records of an image, without their checks. -/
def Dev.recs (d : Dev) (img : Nat) : List CrownRec :=
  (d.readRecs img (d.hdr img).nrec (d.hdr img).recofs (d.hdr img).reclen).1

/-- The record checks of R377 (framing, counts, `CRC`, `SETCRC`): the check failed and the record's type. -/
def Dev.recCheck (d : Dev) (img : Nat) : CrownChk × Nat :=
  let h := d.hdr img
  if h.nrec < 16 || 1024 < h.nrec || h.recofs % 65536 != 0 || decide (spanLen < h.recofs + h.reclen) then (.record, 0)
  else
    let (rs, bad) := d.readRecs img h.nrec h.recofs h.reclen
    match bad with
    | some t => (.record, t)
    | none =>
      match countsBad rs with
      | some t => (.record, t)
      | none =>
        if (crc32c (rs.flatMap (fun r => le 4 r.crc))).toNat = h.setcrc then (.ok, 0) else (.setcrc, 0)

/-- All checks of R377 on an image. -/
def Dev.imgCheck (d : Dev) (img : Nat) : CrownChk × Nat :=
  match d.hdrCheck img with
  | .ok => d.recCheck img
  | c => (c, 0)

/-! ### Register settings -/

/-- The entries of a `regs` payload: address and value. -/
def regEntries : Nat → List Byte → List (Nat × Nat)
  | 0, _ => []
  | n + 1, bs => (fieldAt bs 0 4, fieldAt bs 4 4) :: regEntries n (bs.drop 8)

/-- Every entry of the image's `regs` records, in record order and entry order. -/
def Dev.regsOf (d : Dev) (img : Nat) : List (Nat × Nat) :=
  ((d.recs img).filter (fun r => r.type = 1)).flatMap (fun r => regEntries (r.payload.length / 8) r.payload)

/-- An entry of the 300 ms step: the AON, CROWN, NOC, MEM and NET blocks. -/
def early (e : Nat × Nat) : Bool := decide (e.1 < 0x200000) || (decide (0xC00000 ≤ e.1) && decide (e.1 < 0xE00000))

/-- An entry for `DP_CFG[i]`. -/
def forDpCfg (e : Nat × Nat) : Bool := decide (0x300000 ≤ e.1) && decide (e.1 < 0x310000) && decide (e.1 % 0x1000 = 0)

/-- An entry of the 1.2 s step. -/
def later (e : Nat × Nat) : Bool := !early e && !forDpCfg e

/-- Apply entries in order, at level 3; an entry that restarts the module is the last one applied. -/
def State.applyRegs (s : State) (es : List (Nat × Nat)) : State :=
  es.foldl (fun x e => if x.dev.boot.stage = s.dev.boot.stage then x.regWrite 3 e.1 e.2 else x) s

/-- The value that an entry gives a field, if it names the field's register. -/
def entryValue (f : Fld) (i j : Nat) (e : Nat × Nat) : Option Nat :=
  match findReg e.1 with
  | some (r, i', j') =>
    if r.fields.elem f && decide (i' = i) && decide (j' = j) then some (bitsOf e.2 (fldSpec f).lo (fldSpec f).width) else none
  | none => none

/-- The value that a list of entries leaves in a field: its last, or the reset value. -/
def settled (es : List (Nat × Nat)) (f : Fld) (i : Nat := 0) (j : Nat := 0) : Nat :=
  ((es.filterMap (entryValue f i j)).getLast?).getD (fldSpec f).reset

/-- Some entry sets the field to a value that `bad` rejects. -/
def anySets (es : List (Nat × Nat)) (f : Fld) (i : Nat) (bad : Nat → Bool) : Bool := (es.filterMap (entryValue f i 0)).any bad

/-- The last value that the entries give a field, where they give one, is `v`. -/
def leaves (es : List (Nat × Nat)) (f : Fld) (i v : Nat) : Bool := ((es.filterMap (entryValue f i 0)).getLast?).all (· == v)

/-! ### Content (R378) -/

/-- What the content checks look at: the variant, the image's contents, its `regs` entries and every register setting. -/
structure Checked where
  a32 : Bool
  c : CrownContent
  regs : List (Nat × Nat)
  all : List (Nat × Nat)

/-- R5 for the entries of one record: one of them enables an absent lane, port or axis, selects quadrature feedback, or configures a
head slot above 31, whatever later entries set. -/
def badA32Regs (es : List (Nat × Nat)) : Bool :=
  (List.range 32).any (fun n => anySets es .ZL_CFG_EN (n + 32) (· != 0) || anySets es .FIRE_HOFS_OFS (n + 32) (· != 0))
    || [2, 3].any (fun p => anySets es .VIS_CFG_EN p (· != 0))
    || (List.range 8).any (fun a => anySets es .AX_CFG_EN (a + 8) (· != 0))
    || (List.range 16).any (fun a => anySets es .AX_CFG_FB a (· == 2))
    || (List.range 16).any (fun i => anySets es .DP_GEOM_SLOT0 i (fun s => decide (31 < s)))

/-- R5 for `press.geometry`: a bar's slots or a head offset above slot 31. -/
def badA32Geom (c : CrownContent) : Bool :=
  c.bars.any (fun b => decide (32 < b.slot0 + b.heads)) || (c.headOfs.drop 32).any (· != 0)

/-- R5 for `press.heads`: a head slot above 31. -/
def badA32Heads (c : CrownContent) : Bool := c.heads.any (fun h => decide (31 < h.slot))

/-- R5: the records of an A32's image that break it, by `TYPE`. -/
def badA32 (k : Checked) : List (Bool × Nat) :=
  [(badA32Regs k.regs, 1), (badA32Geom k.c, 6), (badA32Heads k.c, 7), (badA32Regs k.c.net, 11),
   (badA32Regs (k.c.cams.flatMap (·.2)), 12), (badA32Regs k.c.axes, 13), (badA32Regs k.c.abacus, 14),
   (badA32Regs k.c.ring, 15)].map (fun x => (k.a32 && x.1, x.2))

/-- R82: C is 0 to 256 and leaves every head 2 C nozzles of its own. -/
def badCuff (k : Checked) : Bool :=
  k.c.bars.any (fun b => decide (256 < b.cuff) || decide (4096 < (if b.heads < 2 then 0 else if b.heads = 2 then 3 else 4) * b.cuff))

/-- `DP_CFG.GANG` that R83 asks of pipeline i. -/
def gangOf (bars : List BarGeom) (i : Nat) : Nat :=
  if bars.any (fun b => decide (b.bar = i) && decide (8 < b.heads)) then 1
  else if bars.any (fun b => decide (b.bar + 1 = i) && decide (8 < b.heads)) then 2 else 0

/-- R83: a bar of 9 to 16 heads has an even number and the next one is absent. -/
def badBars (k : Checked) : Bool :=
  k.c.bars.any (fun b => decide (16 < b.heads)
    || (decide (8 < b.heads) && (b.bar % 2 != 0 || k.c.bars.any (fun x => x.bar = b.bar + 1))))

/-- Pipeline i is in use and serves the heads given, as far as register entries go. -/
def serves (k : Checked) (i slot0 heads cuff : Nat) : Bool :=
  settled k.all .DP_CFG_EN i = 1 && leaves k.all .DP_GEOM_SLOT0 i slot0 && leaves k.all .DP_GEOM_HEADS i heads
    && leaves k.all .DP_GEOM_CUFF i cuff

/-- R83: the pipelines are ganged so and no otherwise, and the two of a pair serve heads 0 to 7 and the others of their bar. -/
def badGang (k : Checked) : Bool :=
  (List.range 16).any (fun i => settled k.all .DP_CFG_GANG i != gangOf k.c.bars i)
    || k.c.bars.any (fun b => decide (8 < b.heads)
      && !(serves k b.bar b.slot0 8 b.cuff && serves k (b.bar + 1) (b.slot0 + 8) (b.heads - 8) b.cuff))

/-- R148: bar 0 has B 0 and fires every line first. -/
def badOffsets (k : Checked) : Bool :=
  let s := fun (h : Nat) => signed (fldSpec .FIRE_HOFS_OFS).width (nth k.c.headOfs h)
  let slots := fun (b : BarGeom) => (List.range b.heads).map (· + b.slot0)
  match k.c.bars.find? (fun b => b.bar = 0) with
  | none => true
  | some b0 =>
    let top := ((slots b0).map s).foldl max (s b0.slot0)
    nth k.c.barOfs 0 != 0
      || k.c.bars.any (fun b => b.bar != 0 && (slots b).any (fun h => decide ((nth k.c.barOfs b.bar : Int) + s h < top)))

/-- R168: one generation for the lanes of a bar, and that of `DP_CFG.LEVELS` of its pipelines. -/
def badGens (k : Checked) : Bool :=
  k.c.bars.any (fun b =>
    let pipes := if 8 < b.heads then [b.bar, b.bar + 1] else [b.bar]
    (k.c.heads.filter (fun h => h.enable && decide (b.slot0 ≤ h.slot) && decide (h.slot < b.slot0 + b.heads))).any (fun h =>
      pipes.any (fun i => settled k.all .DP_CFG_LEVELS i != bit h.gen1)))

/-- R88: every curve maps contone 0 to tone 0. -/
def badCurves (k : Checked) : Bool := k.c.curves.any (fun s => s.2.any (fun t => nth t 0 != 0))

/-- Some cell's thresholds fall: T_k > T_k+1. -/
def falls : List Nat → Bool
  | a :: b :: t => decide (b < a) || falls (b :: t)
  | _ => false

/-- A tile lacks thresholds of its threshold tile or cells of its stitch tile. -/
def tileLacks (t : ScreenTile) : Bool := decide (t.thr.length < 7 * t.tw * t.th) || decide (t.stitch.length < 4096)

/-- R97: a threshold tile and a stitch tile for every bar, with ascending thresholds in each cell. -/
def badScreens (k : Checked) : Bool :=
  k.c.screens.any (fun s =>
    k.c.bars.any (fun b => !s.2.any (fun t => decide (t.bar = b.bar) && !tileLacks t))
      || s.2.any (fun t =>
        t.tw = 0 || t.th = 0 || decide (112 < t.tw) || decide (112 < t.th)
          || (List.range (t.tw * t.th)).any (fun c => falls ((t.thr.drop (7 * c)).take 7))))

/-- Two residues lie at least 4 apart modulo 16. -/
def apart16 (a b : Nat) : Bool := decide (4 ≤ (a + 16 - b % 16) % 16) && decide (4 ≤ (b + 16 - a % 16) % 16)

/-- Every two residues of a list lie apart. -/
def allApart : List Nat → Bool
  | [] => true
  | a :: t => t.all (apart16 a) && allApart t

/-- R244 for one window: the residues of its bars; a bar without cuffs has one. -/
def windowApart (k : Checked) (w : Nat) : Bool :=
  allApart ((k.c.bars.filter (fun b => nth k.c.plan.win b.bar = w)).flatMap (fun b =>
    let s := nth k.c.plan.sigma b.bar
    if b.cuff = 0 || b.heads < 2 then [s] else [s, s + b.cuff]))

/-- R240: the ranges of Table 10-1 and R244. -/
def badPlan (k : Checked) : Bool :=
  let p := k.c.plan
  let out := fun (lo hi n : Nat) => decide (n < lo) || decide (hi < n)
  p.ladder.any (fun l => out 0 8191 l.1 || out 1 255 l.2) || out 1 7 p.lcode || p.win.any (out 0 3) || p.sigma.any (out 0 15)
    || p.qsel.any (out 0 2) || out 0 8191 p.markOfs || out 1 255 p.markLines || p.markX0.any (out 0 32767)
    || out 256 4096 p.markStep || out 1 7 p.mcode || out 0 15 p.refBar || p.gclass.any (out 0 15) || out 16 512 p.hstep
    || out 0 255 p.hguard || (List.range 4).any (fun w => !windowApart k w)

/-- `FILT`, `IFILT` (R130), `SP_WASTE_CTL.MODE` (08), `XPP_SCFS` (R345) as entries of `regs`. -/
def badEntries (k : Checked) : Bool :=
  let narrow := fun (n : Nat) => decide (n < 5) || decide (320 < n)
  anySets k.regs .FIRE_ENC_FILT 0 narrow || anySets k.regs .FIRE_ENC_IFILT 0 narrow
    || anySets k.regs .SP_WASTE_CTL_MODE 0 (· == 3) || anySets k.regs .XPP_SCFS_FS 0 (· == 0)

/-- `NET_PCFG.FEC` with a `MODE` other than 0 (17), `XPP_SCFS` 0 in the `net` record (R345). -/
def badNet (k : Checked) : Bool :=
  [0, 1].any (fun p => settled k.all .NET_PCFG_FEC p != 0 && settled k.all .NET_PCFG_MODE p != 0)
    || anySets k.c.net .XPP_SCFS_FS 0 (· == 0)

/-- R265, R268, R271 for an axis, in use or not. -/
def badAxis (k : Checked) (a : Nat) : Bool :=
  let v := fun (f : Fld) (j : Nat) => settled k.all f a j
  let s := fun (f : Fld) (j : Nat) => signed 32 (settled k.all f a j)
  let kin : Kin := { v := v .AX_KIN_LIM 0 * 2 ^ 32, a := v .AX_KIN_LIM 1 * 2 ^ 32, j := v .AX_KIN_LIM 2 * 65536,
                     stop := v .AX_KIN_LIM 3 * 2 ^ 32 }
  let stop : Int := dStop kin kin.v.toNat
  (v .AX_CFG_FB 0 = 1 && decide (340 < v .AX_PLAUS_FELIM 0)) || (v .AX_CFG_DRV 0 = 1 && v .AX_CFG_FB 0 = 0)
    || decide ((s .AX_SOFT_POS 0 - s .AX_SW_POS 0) * 2 ^ 32 < stop)
    || decide ((s .AX_SW_POS 1 - s .AX_SOFT_POS 1) * 2 ^ 32 < stop)

/-- R294: `AB_AMAX` and `AB_JMAX` are not 0. -/
def badAbacus (k : Checked) : Bool := settled k.all .AB_AMAX_A = 0 || settled k.all .AB_JMAX_J = 0

/-- R368: `RING_CFG.DOWNTO` is at least 12. -/
def badRing (k : Checked) : Bool := anySets k.c.ring .RING_CFG_DOWNTO 0 (fun n => decide (n < 12))

/-- The first content rule that an image breaks, by the `TYPE` of its record, lowest first. -/
def contentBad (k : Checked) : Option Nat :=
  let a32 := fun (t : Nat) => (badA32 k).any (fun x => x.1 && decide (x.2 = t))
  ([(badEntries k || badGang k || a32 1, 1), (badBars k || badCuff k || badOffsets k || badPlan k || a32 6, 6),
    (badGens k || a32 7, 7), (badCurves k, 8), (badScreens k, 9), (badNet k || a32 11, 11), (a32 12, 12),
    ((List.range 16).any (badAxis k) || a32 13, 13), (badAbacus k || a32 14, 14), (badRing k || a32 15, 15)].find? (·.1)).map (·.2)

/-- Every register setting of an image in the order in which the boot applies them. -/
def settings (c : CrownContent) (regs : List (Nat × Nat)) : List (Nat × Nat) :=
  regs.filter early ++ c.net ++ regs.filter later ++ c.ring ++ regs.filter forDpCfg ++ c.cams.flatMap (·.2) ++ c.axes ++ c.abacus

end Sys2Proof.Machine
end

