-- ==== Sys2Proof/Machine/Memory.lean ====
section
/-! DEFINITION. Memory subsystem (13): refresh, die temperature, calibration, operating points, scrubbing. -/
namespace Sys2Proof.Machine

/-- A memory channel's state beside its registers. -/
def Dev.mch (d : Dev) (c : Nat) : MemCh := Tab.at d.msub c

/-- Change it. -/
def Dev.updMch (d : Dev) (c : Nat) (f : MemCh → MemCh) : Dev := { d with msub := Tab.upd d.msub c f }

/-- The channel is trained: its `STATE` is active, in a calibration window or in a retraining pause. -/
def Dev.trained (d : Dev) (c : Nat) : Bool := decide (2 ≤ d.rd .MEM_CH_STAT_STATE c)

/-! ### Refresh (13, R317) -/

/-- A refresh interval of a channel ends. -/
def Dev.refreshInterval (d : Dev) (c : Nat) (idle : Bool) : Dev :=
  if !d.trained c then d
  else if (d.mch c).leave2x then d.updMch c (fun m => { m with leave2x := false })
  else if d.flag .MEM_CH_STAT_BAND2X c then d
  else
    let owed := d.rd .MEM_CH_STAT_OWED c + 1
    d.wr .MEM_CH_STAT_OWED (if idle || decide (5 ≤ owed) then 0 else owed) c

/-- REFRESH_INTERVAL (R317): in the 1x band a refresh is owed, issued when the channel is idle, and a fifth owed one issues all
at once; in the 2x band the interval's refresh is issued. -/
def execRefreshInterval (c : Chan) (idle : Bool) (s : State) : Out := s.act (·.refreshInterval c idle)

/-! ### Die temperature (13, R318 to R321) -/

/-- Start a recalibration run of channel A (13, R321, R323). -/
def Dev.startRun (d : Dev) : Dev :=
  let d := (d.wr .MEM_CH_STAT_CALPEND 1 0).wr .MEM_CH_STAT_STEP 0 0
  let d := d.updMch 0 (fun m => { m with run := true, waitSince := d.now, late := false })
  d.forEach (List.range 10) (fun d l => d.wr .MEM_EYE_STALE 1 0 l)

/-- A run becomes pending with the sample that made it pending (13, R321, R323). -/
def Dev.pendRun (d : Dev) (td : Nat) : Dev :=
  let d := (d.wr .MEM_TEMP_TCAL td 0).updMch 0 (fun m => { m with moved := 0 })
  if d.flag .MEM_CH_STAT_CALPEND 0 then d.updMch 0 (fun m => { m with again := some td }) else d.startRun

/-- The latest reading of channel A lies more than 6 degrees from `TCAL`. -/
def Dev.movedFar (d : Dev) : Bool := decide (96 < (d.srd .MEM_TEMP_TD 0 - d.srd .MEM_TEMP_TCAL 0).natAbs)

/-- A poll's sample for the 2x band (13, R318, R319). -/
def Dev.sampleBand (d : Dev) (c : Nat) : Dev :=
  let was := (d.mch c).band
  let now := was.sample (d.srd .MEM_TEMP_TD c) 1360 1328
  let d := d.updMch c (fun m => { m with band := now })
  if !was.on && now.on then
    let owed := min 8 (2 * d.rd .MEM_CH_STAT_OWED c)
    let d := (d.wr .MEM_CH_STAT_BAND2X 1 c).raise Ev.MEM_REF2X (le 1 c ++ le 1 1 ++ le 1 owed)
    d.wr .MEM_CH_STAT_OWED 0 c
  else if was.on && !now.on then
    let d := (d.wr .MEM_CH_STAT_BAND2X 0 c).updMch c (fun m => { m with leave2x := true })
    d.raise Ev.MEM_REF2X (le 1 c ++ le 1 0 ++ le 1 (d.rd .MEM_CH_STAT_OWED c))
  else d

/-- A poll's sample for the recalibration trigger of channel A (13, R321). -/
def Dev.sampleMoved (d : Dev) (td : Nat) : Dev :=
  if d.movedFar then
    if 2 ≤ (d.mch 0).moved then d.pendRun td else d.updMch 0 (fun m => { m with moved := m.moved + 1 })
  else d.updMch 0 (fun m => { m with moved := 0 })

/-- The 1 ms poll of a channel. -/
def Dev.mr4Poll (d : Dev) (c td : Nat) : Dev :=
  if !d.trained c then d
  else
    let d := (d.wr .MEM_TEMP_TD td c).sampleBand c
    if c = 0 then d.sampleMoved td else d

/-- MR4_POLL (R318). -/
def execMr4Poll (c : Chan) (td : U16) (s : State) : Out := s.act (·.mr4Poll c td.toNat)

/-! ### Calibration windows (13, R322, R323, R325) -/

/-- The output FIFO of a lane holds a line whose fire time lies at least 100 us ahead (13, R322). -/
def Dev.fifoAhead (d : Dev) (n : Nat) : Bool :=
  match (d.lane n).fifo.getLast?, d.barOf n with
  | some l, some bar =>
    match d.plOf l.jn with
    | some p =>
      match d.dueTime p l.line bar with
      | some t => decide (d.now + 100000 ≤ t)
      | none => true
    | none => false
  | _, _ => false

/-- The conditions for a window of channel A (13, R322). -/
def Dev.windowMayOpen (d : Dev) : Bool :=
  d.flag .MEM_CH_STAT_CALPEND 0 && decide (d.rd .MEM_CH_STAT_STATE 0 = 2) && decide (d.rd .MEM_CH_STAT_OWED 0 = 0)
    && !d.flag .MEM_CTL_BUSY
    && (!(d.st.running || d.st = .hold) || ((List.range d.nLanes).filter (fun n => d.flag .ZL_CFG_EN n)).all d.fifoAhead)
    && (!d.anyPlaced || decide ((d.mch 0).winEnd + 1000000 ≤ d.now))

/-- CAL_WINDOW_OPEN (R322): the window of the run's next lane opens. -/
def execCalWindowOpen (s : State) : Out :=
  s.act fun d =>
    if d.windowMayOpen then
      (d.wr .MEM_CH_STAT_STATE 3 0).updMch 0 (fun m => { m with window := some (d.rd .MEM_CH_STAT_STEP 0) })
    else d

/-- Eyes of a lane after a step or a pause; below `MEM_EYEMIN` they raise `MEM_EYE_LOW` (13, R325). -/
def Dev.setEye (d : Dev) (c l rd wr : Nat) : Dev :=
  let d := ((d.wr .MEM_EYE_RD rd c l).wr .MEM_EYE_WR wr c l).wr .MEM_EYE_STALE 0 c l
  if min rd wr < d.rd .MEM_EYEMIN_TAPS then d.raise Ev.MEM_EYE_LOW (le 1 c ++ le 1 l ++ le 1 rd ++ le 1 wr) else d

/-- The smallest eye of channel A. -/
def Dev.leastEye (d : Dev) : Nat :=
  ((List.range 10).map (fun l => min (d.rd .MEM_EYE_RD 0 l) (d.rd .MEM_EYE_WR 0 l))).foldl min 255

/-- A step of the run has ended well: the next lane, or the end of the run. -/
def Dev.stepDone (d : Dev) (l : Nat) : Dev :=
  if l < 9 then d.wr .MEM_CH_STAT_STEP (l + 1) 0
  else
    let d := ((d.wr .MEM_CH_STAT_CALPEND 0 0).wr .MEM_CH_STAT_STEP 0 0).incWrap .MEM_CALCNT_RUNS 0
    let d := d.raise Ev.MEM_CAL_DONE (le 1 0 ++ le 1 d.leastEye ++ le 2 (d.rd .MEM_TEMP_TCAL 0))
    let again := (d.mch 0).again
    let d := d.updMch 0 (fun m => { m with run := false, again := none })
    if again.isSome then d.startRun else d

/-- A window ends. -/
def Dev.calWindowEnd (d : Dev) (rd wr : Nat) (done : Bool) : Dev :=
  match (d.mch 0).window with
  | none => d
  | some l =>
    let d := (d.wr .MEM_CH_STAT_STATE 2 0).updMch 0
      (fun m => { m with window := none, winEnd := d.now, waitSince := d.now })
    if done then (d.setEye 0 l rd wr).stepDone l
    else (d.inc .MEM_CALCNT_ABANDON 0).raise Ev.MEM_CAL_ABANDON (le 1 l)

/-- CAL_WINDOW_END (R322): the step completes, or is abandoned and repeated in the next window. -/
def execCalWindowEnd (rd wr : Byte) (done : Bool) (s : State) : Out := s.act (·.calWindowEnd rd.toNat wr.toNat done)

/-- MEM_CAL_LATE (R322): a step has waited for more than `LATE` ms; raised once for the run. -/
def execMemCalLate (s : State) : Out :=
  s.act fun d =>
    let m := d.mch 0
    if d.flag .MEM_CH_STAT_CALPEND 0 && m.window.isNone && !m.late
        && d.passed (m.waitSince + 1) (1000000 * d.rd .MEM_CALCFG_LATE) then
      (d.updMch 0 (fun m => { m with late := true })).raise Ev.MEM_CAL_LATE
        (le 1 (d.rd .MEM_CH_STAT_STEP 0) ++ le 4 ((d.now - m.waitSince) / 1000000))
    else d

/-- A retraining pause of channel B (13, R324): owed refreshes first, then eyes and `TCAL` are updated. -/
def Dev.retrainB (d : Dev) (eyes : List (Byte × Byte)) : Dev :=
  if !d.trained 1 then d
  else
    let d := ((d.wr .MEM_CH_STAT_OWED 0 1).wr .MEM_TEMP_TCAL (d.rd .MEM_TEMP_TD 1) 1).incWrap .MEM_CALCNT_RUNS 1
    d.forEach (eyes.zipIdx) (fun d e => d.setEye 1 e.2 e.1.1.toNat e.1.2.toNat)

/-- CHANNEL_B_RETRAIN (R324). -/
def execChannelBRetrain (eyes : List (Byte × Byte)) (s : State) : Out :=
  s.act (·.retrainB (eyes.take 10))

/-! ### Operating points (13, R326, R327) -/

/-- The states in which the operating point changes. -/
def DState.freqStates : DState → Bool
  | .safe | .idle | .hold => true
  | _ => false

/-- Change the operating point to `REQ` (13, R326), `us` being its duration; a start or resume that waited for it enters ARMED
(R327). -/
def Dev.freqChange (d : Dev) (us : Nat) : Dev :=
  if d.rd .MEM_CTL_REQ = d.rd .MEM_CTL_CUR || !d.st.freqStates || (d.mch 0).window.isSome || !d.trained 0 then d
  else
    let old := d.rd .MEM_TEMP_TCAL 0
    let d := (d.wr .MEM_CH_STAT_OWED 0 0).wr .MEM_CH_STAT_OWED 0 1
    let d := d.wr .MEM_CTL_CUR (d.rd .MEM_CTL_REQ)
    let d := (d.wr .MEM_TEMP_TCAL (d.mch 0).tcalOther 0).updMch 0 (fun m => { m with tcalOther := old, moved := 0 })
    let d := d.raise Ev.MEM_FREQ (le 1 (d.rd .MEM_CTL_CUR) ++ le 1 us)
    let d := if d.movedFar then d.pendRun (d.rd .MEM_TEMP_TD 0) else d
    if d.freqWait && d.rd .MEM_CTL_CUR = 0 then Dev.enter { d with freqWait := false } .armed else d

/-- FREQ_CHANGE (R326). -/
def execFreqChange (us : Byte) (s : State) : Out := s.act (·.freqChange us.toNat)

/-! ### Scrubbing and the write queue (13, R314, R316) -/

/-- SCRUB_READ (R314): a code word of channel B is read; a corrected word is written back, an uncorrectable one is left and
reported. -/
def execScrubRead (addr : BitVec 36) (outcome : ScrubOutcome) (s : State) : Out :=
  let a := addr.toNat
  let d := s.dev
  if !d.flag .MEM_SCRUB_EN || chanOf a = 0 || !d.addrOk a || !d.trained 1 then .next s
  else if s.dram.poison.elem (a / 128) then .next { s with dev := d.memUe (a / 128 * 128) 15 }
  else
    match outcome with
    | .clean => .next s
    | .corrected die => .next { s with dev := d.memCe (a / 128 * 128) die }
    | .uncorrectable =>
      .next { s with dev := d.memUe (a / 128 * 128) 15, dram := { s.dram with poison := (a / 128) :: s.dram.poison } }

/-- WRITE_DRAIN (R316): a drain runs from 48 entries to 16. -/
def execWriteDrain (c : Chan) (s : State) : Out :=
  s.act fun d =>
    if d.trained c then
      ((d.wr .MEM_WQ_LEVEL 16 c).wr .MEM_WQ_HIGH (max 48 (d.rd .MEM_WQ_HIGH c)) c).incWrap .MEM_WQ_DRAINS c
    else d

end Sys2Proof.Machine
end

