-- ==== Sys2Proof/Machine/Ring.lean ====
section
/-! DEFINITION. The sync ring (15, R358 to R368): frames received and forwarded, members and the master, originators of the
ring hold, the PULSE, the count latch, shared start epochs. -/
namespace Sys2Proof.Machine

/-! ### Members and the master (R360) -/

/-- Change the ring's state. -/
def Dev.updRing (d : Dev) (f : Ring → Ring) : Dev := { d with ring := f d.ring }

/-- The module's ring ID. -/
def Dev.ringId (d : Dev) : Nat := d.rd .RING_CFG_ID

/-- The other members by ID, with what their STATUS frames show. -/
def Dev.ringOthers (d : Dev) : List (Nat × Member) :=
  (List.range 8).filterMap (fun i => (Tab.at d.ring.members i : Option Member).map (fun m => (i, m)))

/-- Members and master follow the table: the lowest ID, the module's own but while `DUP` is 1; `RING_MASTER` on a change. -/
def Dev.ringMaster (d : Dev) : Dev :=
  if !d.ringOn then d
  else
    let ids := d.ringOthers.map (·.1)
    let all := (List.range 8).filter (fun i => ids.elem i || decide (i = d.ringId))
    let d := d.wr .RING_STAT_MEMBERS (all.foldl (fun n i => n + 2 ^ i) 0)
    match (all.filter (fun i => !(d.flag .RING_STAT_DUP && decide (i = d.ringId)))).head? with
    | some m =>
      let d := (d.wr .RING_STAT_MID m).wr .RING_STAT_MASTER (bit (m = d.ringId))
      if d.ring.lastMaster = m + 1 then d
      else (d.updRing (fun r => { r with lastMaster := m + 1 })).raise Ev.RING_MASTER (le 1 m)
    | none => d.wr .RING_STAT_MASTER 0

/-! ### Originators (R361, R362) -/

/-- Change an originator: `HOLDSRC` follows, and the ring hold cause with it. -/
def Dev.updOrig (d : Dev) (id : Nat) (f : Orig → Orig) : Dev :=
  let o := f (Tab.at d.ring.orig id)
  let d := d.updRing (fun r => { r with orig := Tab.put r.orig id o })
  let src := d.rd .RING_STAT_HOLDSRC
  let src := if o.frames || o.lost || o.down then withBit src id else withoutBit src id
  let d := d.wr .RING_STAT_HOLDSRC src
  if src = 0 then d.setHold .ring false else if d.held .ring then d else d.holdCause .ring

/-- The ring carries a good frame: UP, and the originators that stand for the ring being down end. -/
def Dev.ringAlive (d : Dev) : Dev :=
  let d := if d.flag .RING_STAT_UP && decide (d.ring.frameAt + 1000000 < d.now) then d.inc .RING_CNT_GAPS else d
  let d := d.updRing (fun r => { r with frameAt := d.now })
  let d := d.forEach (List.range 8) (fun d i =>
    if (Tab.at d.ring.orig i : Orig).down then d.updOrig i (fun o => { o with down := false }) else d)
  if d.flag .RING_STAT_UP then d
  else
    let d := (d.wr .RING_STAT_UP 1).ringMaster
    d.raise Ev.RING_UP (le 1 (d.rd .RING_STAT_MEMBERS))

/-- A good frame (R359): forwarded with its hop count incremented, unless it is the module's own or the count would reach 8; then
it is acted on. -/
def Dev.ringFrame (d : Dev) (src hops : Nat) (pay : RingPay) (k : Dev → Dev) : Dev :=
  if !d.ringOn then d
  else
    let d := d.ringAlive
    let d := if src = d.ringId || decide (8 ≤ hops + 1) then d else d.emit (.ring ⟨src, hops + 1, pay⟩)
    k d

/-- RING_HOLD_FRAME (R361): an originator's frames are in force from the first until its `REL`. -/
def execRingHoldFrame (src hops : RingId) (rel : Bool) (cause : Byte) (seq : U16) (s : State) : Out :=
  s.act (·.ringFrame src.val hops.val (.hold rel cause.toNat seq.toNat) (fun d =>
    if src.val = d.ringId then d else d.updOrig src.val (fun o => { o with frames := !rel, heard := d.now })))

/-- `DOWNTO` has passed since a time. -/
def Dev.downPassed (d : Dev) (since : Nat) : Bool := d.passed since (1000000 * d.rd .RING_CFG_DOWNTO)

/-- RING_HOLD_ORIGINATOR_TIMEOUT (R361): `DOWNTO` without a HOLD frame from it. -/
def execRingHoldOriginatorTimeout (id : RingId) (s : State) : Out :=
  s.act fun d =>
    if d.ringOn && d.downPassed (Tab.at d.ring.orig id.val : Orig).heard then d.updOrig id.val (fun o => { o with frames := false })
    else d

/-- RING_HOLD_SEND (R361). -/
def execRingHoldSend (s : State) : Out := s.act fun d => if d.localHold != 0 then d.ringHold false else d

/-- RING_MEMBER_LOST (R360, R362): `DOWNTO` without a STATUS frame: the member leaves; with `LOSTHOLD`, in ARMED, PRINTING and DRAINING, it stands as an
originator. -/
def execRingMemberLost (id : RingId) (s : State) : Out :=
  s.act fun d =>
    if !d.ringOn || !(Tab.at d.ring.members id.val : Option Member).any (fun m => d.downPassed m.at') then d
    else
      let d := (d.updRing (fun r => { r with members := Tab.put r.members id.val none })).ringMaster
      if d.flag .RING_CFG_LOSTHOLD && d.st.running then
        (d.updOrig id.val (fun o => { o with lost := true })).raise Ev.RING_MEMBER_LOST (le 1 id.val)
      else d

/-- RING_DOWN (R362): the input has carried no good frame for `DOWNTO`. -/
def execRingDown (s : State) : Out :=
  s.act fun d =>
    if !d.ringOn || !d.flag .RING_STAT_UP || !d.downPassed d.ring.frameAt then d
    else
      let d := (d.wr .RING_STAT_UP 0).inc .RING_CNT_GAPS
      if d.flag .RING_CFG_DOWNHOLD then
        (d.forEach (d.ringOthers.map (·.1)) (fun d i => d.updOrig i (fun o => { o with down := true }))).raise Ev.RING_DOWN
      else d

/-- RING_FRAME_CRC_FAIL (R359). -/
def execRingFrameCrcFail (s : State) : Out := s.act fun d => if d.ringOn then d.inc .RING_CNT_CRC else d

/-! ### Time (R363, R364) -/

/-- A time in ns whose seconds are given modulo 2^32, nearest to now. -/
def Dev.fullTime (d : Dev) (sec ns : Nat) : Int :=
  let now := d.now / 1000000000
  ((now : Int) + signed 32 (unsign 32 ((sec : Int) - now))) * 1000000000 + ns

/-- Members of the ring. -/
def Dev.ringModules (d : Dev) : Nat := ((List.range 8).filter (bitOf (d.rd .RING_STAT_MEMBERS))).length

/-- A PULSE: the module's own measures the round trip; another's gives o = arrival - second - k R / N. -/
def Dev.ringPulse (d : Dev) (src hops second rt : Nat) : Dev :=
  if src = d.ringId then
    match d.ring.pulseAt with
    | some t => (d.wr .RING_RT_NS (d.now - t)).updRing (fun r => { r with pulseAt := none })
    | none => d
  else
    let o := (d.now : Int) - d.fullTime second 0 - (hops * rt / max 1 d.ringModules : Nat)
    let d := (d.wr .RING_RT_NS rt).wr .RING_PLS_O (satSigned 32 o)
    if d.rd .RING_CFG_TTOL * 1000 < o.natAbs then d.raise Ev.RING_TIME (le 4 (satSigned 32 o)) else d

/-- RING_PULSE_FRAME (R363). -/
def execRingPulseFrame (src hops : RingId) (second rt : U32) (s : State) : Out :=
  s.act (·.ringFrame src.val hops.val (.pulse second.toNat rt.toNat) (·.ringPulse src.val hops.val second.toNat rt.toNat))

/-- PULSE_SEND (R363): the master marks a whole second. -/
def execPulseSend (s : State) : Out :=
  s.act fun d =>
    if d.ringOn && d.flag .RING_STAT_MASTER then
      (d.ringSend (.pulse (tsec d.now) (d.rd .RING_RT_NS))).updRing (fun r => { r with pulseAt := some d.now })
    else d

/-- COUNT_LATCH (R364): whether or not the ring is enabled. -/
def execCountLatch (s : State) : Out :=
  s.act fun d =>
    if d.domOn .sup then
      (d.updRing (fun r => { r with latchLo := d.fire.cnt.toNat % 2 ^ 32, latchHi := d.fire.cnt.toNat / 2 ^ 32 })).wr .RING_CL_S_S
        (tsec d.now)
    else d

/-! ### Shared start epochs (R365, R366) -/

/-- Bit mask of the groups that satisfy a predicate. -/
def groupMask (p : Nat → Bool) : Nat := ((List.range 8).filter (fun g => decide (0 < g) && p g)).foldl (fun n g => n + 2 ^ g) 0

/-- The module has axes of the group. -/
def Dev.hasGroup (d : Dev) (g : Nat) : Bool := !(d.groupAxes g).isEmpty

/-- Every local axis of the group holds a pending target. -/
def Dev.requests (d : Dev) (g : Nat) : Bool := d.hasGroup g && (d.groupAxes g).all (fun a => (d.ax a).pend.isSome)

/-- Some local axis of the group holds a pending target. -/
def Dev.anyPend (d : Dev) (g : Nat) : Bool := (d.groupAxes g).any (fun a => (d.ax a).pend.isSome)

/-- The pending targets of a group are dropped and `RING_START_REFUSED` is raised: cause 1 late, 2 INHIBIT#, 3 timeout. -/
def Dev.dropGroup (d : Dev) (g cause : Nat) : Dev :=
  let d := d.forEach (d.groupAxes g) (fun d a => d.updAx a (fun x => { x with pend := none }))
  let d := d.updRing (fun r => { r with epochs := Tab.put r.epochs g none })
  d.raise Ev.RING_START_REFUSED (le 1 g ++ le 1 cause)

/-- The epoch of a START in ns reaches the module (R278, R366); a module without a pending target of the group has nothing to start. -/
def Dev.groupStart (d : Dev) (g : Nat) (epoch : Int) : Dev :=
  if !d.anyPend g then d
  else if d.held .inhibit then d.dropGroup g 2
  else if epoch < (d.now : Int) + 100000 then d.dropGroup g 1
  else d.updRing (fun r => { r with epochs := Tab.put r.epochs g (some epoch.toNat) })

/-- The first AXSYNC at least `SLEAD` ms from now. -/
def Dev.leadEpoch (d : Dev) : Nat := (d.now + d.rd .RING_CFG_SLEAD * 1000000 + 49999) / 50000 * 50000

/-- Every member that has a group requests it. -/
def Dev.groupReady (d : Dev) (g : Nat) : Bool :=
  let others := d.ringOthers.map (·.2)
  (d.hasGroup g || others.any (fun m => bitOf m.present g)) && (!d.hasGroup g || d.requests g)
    && others.all (fun m => !bitOf m.present g || bitOf m.requests g)

/-- As master, send START once for each group that every member with it requests. -/
def Dev.masterGroups (d : Dev) : Dev :=
  if !d.ringOn || !d.flag .RING_STAT_MASTER then d
  else
    d.forEach [1, 2, 3, 4, 5, 6, 7] (fun d g =>
      if !d.groupReady g then d.updRing (fun r => { r with startSent := r.startSent.filter (· != g) })
      else if d.ring.startSent.elem g then d
      else
        let t := d.leadEpoch
        let d := d.updRing (fun r => { r with startSent := r.startSent ++ [g] })
        (d.ringSend (.start g (tsec t) (tns t))).groupStart g t)

/-- After a target of a group was taken: a module with the ring disabled starts its group alone (R366). -/
def Dev.groupTarget (d : Dev) (g : Nat) : Dev :=
  if !d.requests g then d
  else if d.flag .RING_CFG_EN then d.masterGroups
  else d.updRing (fun r => { r with epochs := Tab.put r.epochs g (some d.leadEpoch) })

/-- RING_START_FRAME (R365, R366). -/
def execRingStartFrame (src hops group : RingId) (sec ns : U32) (s : State) : Out :=
  s.act (·.ringFrame src.val hops.val (.start group.val sec.toNat ns.toNat) (fun d =>
    if src.val = d.ringId then d else d.groupStart group.val (d.fullTime sec.toNat ns.toNat)))

/-- 1 s has passed since the first request of a group (R366). -/
def Dev.groupLate (d : Dev) (g : Nat) : Bool :=
  (d.groupAxes g).any (fun a => (d.ax a).pend.any (fun p => d.passed p.since 1000000000))

/-- GROUP_START_TIMEOUT (R366): 1 s since the first request. -/
def execGroupStartTimeout (g : RingId) (s : State) : Out :=
  s.act fun d => if d.groupLate g.val then d.dropGroup g.val 3 else d

/-- Another member's STATUS: it is a member, its loss ends, its groups are seen. -/
def Dev.ringStatus (d : Dev) (src hops present requests : Nat) : Dev :=
  let m : Member := { present := present, requests := requests, hops := hops, at' := d.now }
  let d := d.updRing (fun r => { r with members := Tab.put r.members src (some m) })
  let d := if (Tab.at d.ring.orig src : Orig).lost then d.updOrig src (fun o => { o with lost := false }) else d
  d.ringMaster.masterGroups

/-- RING_STATUS_FRAME (R360, R365): one with the module's own ID comes back, or comes from another module (`foreign`). -/
def execRingStatusFrame (src hops : RingId) (foreign : Bool) (state holdc flags present requests : Byte) (sec : U32)
    (s : State) : Out :=
  s.act (·.ringFrame src.val hops.val
    (.status state.toNat holdc.toNat flags.toNat present.toNat requests.toNat sec.toNat) (fun d =>
      if src.val = d.ringId then
        if foreign then ((d.wr .RING_STAT_DUP 1).ringMaster).raise Ev.RING_DUP (le 1 d.ringId) else d
      else d.ringStatus src.val hops.val present.toNat requests.toNat))

/-- RING_STATUS_SEND (R360, Table 15-2). -/
def execRingStatusSend (s : State) : Out :=
  s.act fun d =>
    d.ringMaster.ringSend (.status d.st.code d.localHold (d.rd .PTP_STAT_LOCK + 2 * (1 - d.rd .TB_CTL_SRC))
      (groupMask d.hasGroup) (groupMask d.requests) (tsec d.now))

end Sys2Proof.Machine
end

