-- ==== Sys2Proof/Machine/Boot.lean ====
section
/-! DEFINITION. The boot timeline (16, R370 to R383, R394, R395, R402; 13, R320; 12, R306). -/
namespace Sys2Proof.Machine

/-- The boot has completed exactly the steps up to one. -/
def Dev.bootAt (d : Dev) (b : BootStage) : Bool := d.st = .boot && d.boot.stage = b

/-- A step of the timeline completes. -/
def Dev.stepTo (d : Dev) (b : BootStage) : Dev := { d with boot := { d.boot with stage := b } }

/-- Stop the timeline in SAFE: HK alone serves it (01, Table 1-9; R380). -/
def Dev.bootSafe (d : Dev) (why : SafeCause) : Dev :=
  let d := { d with boot := { d.boot with safeBy := why :: d.boot.safeBy, running := [.hk] } }
  d.enter .safe

/-- Report a failed check in `CR_STAT`. -/
def Dev.bootFail (d : Dev) (chk type : Nat) : Dev := (d.wr .CR_STAT_FAILREC type).wr .CR_STAT_FAILCHK chk

/-- The image is invalid and no other is left: SAFE and `CROWN_INVALID`. -/
def Dev.crownInvalid (d : Dev) (chk type : Nat) : Dev :=
  ((d.bootFail chk type).raise Ev.CROWN_INVALID (le 2 type ++ le 1 chk)).bootSafe .invalid

/-! ### Crown header read (R373, R377; 07, R166) -/

/-- The image whose header is used: none where no header passes. `CR_BOOTSEL.BACKUP` is cleared by the boot that it leads to the
backup image. -/
def Dev.pickImage (d : Dev) : Nat × Dev :=
  let backup := d.flag .CR_BOOTSEL_BACKUP
  let d := d.wr .CR_BOOTSEL_BACKUP 0
  let (first, d) := if backup then (1, d) else
    match d.hdrCheck 0 with
    | .ok => (0, d)
    | c => (1, d.bootFail c.code 0)
  if first = 0 then (0, d)
  else
    match d.hdrCheck 1 with
    | .ok => (1, d)
    | c => (2, d.bootFail c.code 0)

/-- Largest SCK of a read mode in MHz (Table 16-3). -/
def modeSck : Nat → Nat
  | 0 => 50 | 1 => 100 | _ => 200

/-- HK reads and checks the Crown header. -/
def Dev.headerRead (d : Dev) (sfdpMode sfdpSck : Nat) : Dev :=
  let (img, d) := d.pickImage
  let d := (d.wr .CR_STAT_IMG img).startHref
  if img = 2 then { d with boot := { d.boot with hdr := none } }
  else
    let h := d.hdr img
    let mode := min (min sfdpMode h.xmode) 2
    let d := (d.wr .CR_XSPI_MODE mode).wr .CR_XSPI_SCK (min (modeSck mode) (min sfdpSck h.xsck))
    { d with boot := { d.boot with hdr := some h } }

/-- CROWN_HEADER_READ (R377): `sfdpMode` and `sfdpSck` in MHz are what the SFDP tables of the NOR allow (R373). -/
def execCrownHeaderRead (sfdpMode sfdpSck : Byte) (s : State) : Out :=
  s.act fun d => if d.bootAt .powerGood then (d.headerRead sfdpMode.toNat sfdpSck.toNat).stepTo .headerRead else d

/-! ### First pass (R377, R394, R395; 12, R306) -/

/-- The image that passes every check of R377, from the one whose header was used on. -/
def Dev.firstPass (d : Dev) : Nat × Dev :=
  let img := d.rd .CR_STAT_IMG
  if 2 ≤ img then (2, d)
  else
    match d.imgCheck img with
    | (.ok, _) => (img, d)
    | (c, t) =>
      let d := d.bootFail c.code t
      if img = 1 then (2, d)
      else
        match d.imgCheck 1 with
        | (.ok, _) => (1, d)
        | (c, t) => (2, d.bootFail c.code t)

/-- The event log area of the `eventlog` record, where it is a valid one (R394): 4 to 256 sectors outside both spans. -/
def logAreaOk (sect count : Nat) : Bool :=
  let clear := fun (img : Nat) => decide ((sect + count) * 65536 ≤ spanBase img) || decide (spanBase img + spanLen ≤ sect * 65536)
  decide (4 ≤ count) && decide (count ≤ 256) && clear 0 && clear 1

/-- Set the event log area and find its write point after the newest record. -/
def Dev.openLog (d : Dev) (c : CrownContent) : Dev :=
  let ok := logAreaOk c.logSect c.logCount
  let d := (d.wr .CR_LOG_BASE_SECT (if ok then c.logSect else 0)).wr .CR_LOG_BASE_COUNT (if ok then c.logCount else 0)
  match d.logRecs with
  | r :: _ => d.wr .CR_LOG_WP_OFS ((r.ofs - d.logArea.1 + 64) % d.logArea.2)
  | [] => d.wr .CR_LOG_WP_OFS 0

/-- The boot count: that of the newest boot record plus 1, or 1. -/
def Dev.bootCount (d : Dev) : Nat :=
  match d.logRecs.find? (fun r => fieldAt r.bytes 0 4 = magicBoot) with
  | some r => fieldAt r.bytes 8 4 + 1
  | none => 1

/-- The boot record and `CROWN_BOOT` (Table 16-7, Table 16-8). -/
def Dev.bootRecord (d : Dev) (img imgver : Nat) : Dev :=
  let n := if d.rd .CR_LOG_BASE_COUNT = 0 then 0xFFFFFFFF else d.bootCount
  let rec' := sealRec (le 4 magicBoot ++ le 1 1 ++ le 1 img ++ le 1 (d.rd .CR_STAT_RSTCAUSE) ++ le 1 0 ++ le 4 n ++ le 4 imgver)
  ((d.wr .CR_BOOTCNT_N n).logWrite rec').raise Ev.CROWN_BOOT (le 1 img ++ le 4 imgver ++ le 4 n)

/-- The domains of the 300 ms step power up. -/
def Dev.powerEarly (d : Dev) : Dev := ((d.domUp .sup).domUp .mem).domUp .net

/-- The Ethernet links of the ports in use come up (Table 16-1). -/
def Dev.linksUp (d : Dev) : Dev :=
  d.forEach [0, 1, 2] (fun d p => if d.flag .NET_PCFG_EN p then d.wr .NET_PCFG_LINK 1 p else d)

/-- The image is in use: its header's fields, its contents, the log area. -/
def Dev.useImage (d : Dev) (img : Nat) (c : CrownContent) : Dev :=
  let h := d.hdr img
  let d := { d with boot := { d.boot with hdr := some h, content := some c } }
  let d := (((d.wr .CR_STAT_IMG img).wr .CR_IMGVER_VER h.imgver).wr .CR_PRES_LOCK (bit h.lock)).openLog c
  d.bootRecord img h.imgver

/-- The 300 ms step with an image that passed. -/
def State.firstPassOk (s : State) (img : Nat) (c : CrownContent) : State :=
  let es := (s.dev.regsOf img).filter early ++ c.net
  let s := ({ s with dev := s.dev.useImage img c }).applyRegs es
  let s := { s with dev := s.dev.linksUp }
  if s.dev.boot.stage = .firstPass && s.dev.uncleared.isSome then { s with dev := s.dev.bootSafe .record } else s

/-- The 300 ms step: the image is chosen and used, or the module enters SAFE. -/
def State.crownFirstPass (s : State) (primary backup : CrownContent) : State :=
  let (img, d) := s.dev.firstPass
  let d := (d.wr .CR_STAT_IMG img).powerEarly.stepTo .firstPass
  if img = 2 then
    let d := (((d.wr .CR_LOG_BASE_COUNT 0).wr .CR_LOG_BASE_SECT 0).wr .CR_BOOTCNT_N 0xFFFFFFFF).wr .CR_PRES_LOCK 0
    { s with dev := d.crownInvalid (d.rd .CR_STAT_FAILCHK) (d.rd .CR_STAT_FAILREC) }
  else ({ s with dev := d }).firstPassOk img (if img = 0 then primary else backup)

/-- CROWN_FIRST_PASS (R377): `primary` and `backup` are the contents of the images' records whose byte layout the spec does not give
(assumption 19). -/
def execCrownFirstPass (primary backup : CrownContent) (s : State) : Out :=
  .next (if s.dev.bootAt .headerRead then s.crownFirstPass primary backup else s)

/-! ### DRAM training (13, R320) -/

/-- Channel, point and lane of an eye of the training. -/
def eyePlace (n : Nat) : Nat × Nat × Nat := (n / 20, n / 10 % 2, n % 10)

/-- Training of both channels at both points: the eyes of the point in force are shown. -/
def Dev.train (d : Dev) (eyes : List (Byte × Byte)) : Dev :=
  let d := d.forEach (eyes.zipIdx) (fun d e =>
    let (c, point, l) := eyePlace e.2
    if point = d.rd .MEM_CTL_CUR then ((d.wr .MEM_EYE_RD e.1.1.toNat c l).wr .MEM_EYE_WR e.1.2.toNat c l).wr .MEM_EYE_STALE 0 c l
    else d)
  match eyes.zipIdx.find? (fun e => decide (min e.1.1.toNat e.1.2.toNat < d.rd .MEM_EYEMIN_TAPS)) with
  | some e =>
    let (c, point, l) := eyePlace e.2
    d.raiseFatal 3 Ev.MEM_TRAIN_FAIL (le 1 c ++ le 1 l ++ le 1 point)
  | none => ((d.wr .MEM_CH_STAT_STATE 2 0).wr .MEM_CH_STAT_STATE 2 1).stepTo .dramTrained

/-- DRAM_TRAINING (R320): `eyes` are the read and write eyes by channel, point and lane. -/
def execDramTraining (eyes : List (Byte × Byte)) (s : State) : Out :=
  s.act fun d => if d.bootAt .firstPass then d.train (eyes.take 40) else d

/-! ### Second pass (R379, R381) -/

/-- A segment list of a `fw.*` payload. -/
def fwSegs : Nat → List Byte → List (Nat × List Byte)
  | 0, _ => []
  | n + 1, bs =>
    let len := fieldAt bs 4 4
    (fieldAt bs 0 4, (bs.drop 8).take len) :: fwSegs n (bs.drop (8 + pad4 len))

/-- The program of a `fw.*` payload. -/
def fwProgram (p : List Byte) : Program := { entry := fieldAt p 0 4, segs := fwSegs (fieldAt p 4 4) (p.drop 8) }

/-- The engines whose program a record type holds; the Reckoners fetch theirs from the copy. -/
def fwEngines : Nat → List Engine
  | 2 => [.sv0, .sv1] | 3 => [.cc0, .cc1] | 4 => (List.range 16).map Engine.rk | 5 => [.vs] | _ => []

/-- The records that the second pass reads. -/
def secondPassReads (t : Nat) : Bool := [2, 3, 4, 5, 8, 9, 12].elem t

/-- Copy one `fw.*` record to channel B and its segments to the engines. -/
def State.loadFw (s : State) (img : Nat) (r : CrownRec) : State :=
  let bytes := s.dev.norRead (spanBase img + r.ofs) r.len
  let s := s.dramWrite (s.dev.rd .CR_FWBASE_ADDR * 256 + 0x1000000 * (r.type - 2)) bytes
  let d := s.dev
  { s with dev := { d with boot := { d.boot with
      programs := d.boot.programs ++ (fwEngines r.type).map (fun e => (e, fwProgram r.payload)) } } }

/-- The second pass: `bad` are the types of the records that fail their second check. What Table 1-9 logs for an engine's record (R14) is
`CROWN_INVALID`, as for any other record (DESIGN CHOICE, assumption 53). -/
def State.secondPass (s : State) (bad : List Nat) : State :=
  let img := s.dev.rd .CR_STAT_IMG
  let rs := (s.dev.recs img).filter (fun r => secondPassReads r.type)
  match rs.find? (fun r => bad.elem r.type) with
  | some r =>
    let d := s.dev
    { s with dev := d.crownInvalid CrownChk.second.code r.type }
  | none =>
    let s := (rs.filter (fun r => decide (r.type ≤ 5))).foldl (fun s r => s.loadFw img r) s
    { s with dev := s.dev.stepTo .secondPass }

/-- SECOND_PASS (R379). -/
def execSecondPass (bad : List U16) (s : State) : Out :=
  .next (if s.dev.bootAt .dramTrained then s.secondPass (bad.map (·.toNat)) else s)

/-! ### Content check (R378, R402) -/

/-- The default regions of Table 17-3: region, first and last page, `RLVL`, `WLVL`. -/
def defaultRegions : List (Nat × Nat × Nat × Nat × Nat) :=
  [(31, 0x000, 0x0FF, 1, 3), (30, 0x100, 0x1FF, 2, 3), (29, 0x200, 0x3FF, 1, 0), (28, 0x400, 0x4FF, 1, 3), (27, 0x500, 0x7FF, 1, 0),
   (26, 0x800, 0x8FF, 1, 2), (25, 0x900, 0xAFF, 1, 0), (24, 0xB00, 0xCFF, 1, 3), (23, 0xD00, 0xDFF, 1, 2), (22, 0xE00, 0xEFF, 1, 3),
   (21, 0xF00, 0xFFF, 1, 0)]

/-- SV0 writes the default regions that the image has left disabled (R402). -/
def Dev.setRegions (d : Dev) : Dev :=
  d.forEach defaultRegions (fun d x =>
    let (r, lo, hi, rl, wl) := x
    if d.flag .NOC_PR_ATTR_EN r then d
    else
      let d := ((d.wr .NOC_PR_BASE_BASE lo r).wr .NOC_PR_LIM_LIM hi r).wr .NOC_PR_ATTR_SPACE 0 r
      ((d.wr .NOC_PR_ATTR_RLVL rl r).wr .NOC_PR_ATTR_WLVL wl r).wr .NOC_PR_ATTR_EN 1 r)

/-- SV0 and SV1 are released; a content rule that the image breaks leads to the backup image, or to SAFE. -/
def State.contentCheck (s : State) : State :=
  let img := s.dev.rd .CR_STAT_IMG
  let regs := s.dev.regsOf img
  let d := { s.dev with boot := { s.dev.boot with running := [.hk, .sv0, .sv1] } }
  match d.boot.content with
  | none => s
  | some c =>
    match contentBad { a32 := d.isA32, c := c, regs := regs, all := settings c regs } with
    | none => { s with dev := d.setRegions.stepTo .contentChecked }
    | some t =>
      if img = 0 then
        let d := ((d.bootFail CrownChk.content.code t).raise Ev.CROWN_FALLBACK (le 2 t ++ le 1 CrownChk.content.code)).wr .CR_BOOTSEL_BACKUP 1
        ({ s with dev := d }).moduleReset 3 .boot
      else { s with dev := d.crownInvalid CrownChk.content.code t }

/-- CONTENT_CHECK (R378). -/
def execContentCheck (s : State) : Out := .next (if s.dev.bootAt .secondPass then s.contentCheck else s)

/-! ### Release of the engines (R381; 15, R367) -/

/-- The domains of the 1.2 s step power up: PD_ZB on the A64 only, PD_VIS when the image enables a camera port. -/
def Dev.powerLate (d : Dev) (all : List (Nat × Nat)) : Dev :=
  let cams := [0, 1, 2, 3].any (fun p => decide (p < d.nPorts) && settled all .VIS_CFG_EN p != 0)
  let d := (((d.domUp .rq0).domUp .rq1).domUp .rq2).domUp .rq3
  let d := (d.domUp .dose).domUp .za
  let d := if d.isA32 then d else d.domUp .zb
  if cams then d.domUp .vis else d

/-- `press.geometry` into its registers (04, DP_GEOM; 06, R148; 08, R217; 10, Table 10-1). -/
def Dev.putGeometry (d : Dev) (c : CrownContent) : Dev :=
  let d := d.forEach c.bars (fun d b =>
    let one := fun (d : Dev) (i slot0 heads : Nat) =>
      ((d.wr .DP_GEOM_HEADS heads i).wr .DP_GEOM_SLOT0 slot0 i).wr .DP_GEOM_CUFF b.cuff i
    if 8 < b.heads then one (one d b.bar b.slot0 8) (b.bar + 1) (b.slot0 + 8) (b.heads - 8) else one d b.bar b.slot0 b.heads)
  let d := d.forEach (c.barOfs.zipIdx) (fun d x => d.wr .FIRE_BAROFS_OFS x.1 x.2)
  let d := d.forEach (c.headOfs.zipIdx) (fun d x => d.wr .FIRE_HOFS_OFS x.1 x.2)
  let d := (d.wr .FIRE_CPM_CPM c.cpm).wr .SP_WASTE_OFS_COUNTS c.wasteOfs
  (d.wr .VL_HAND_HSTEP c.plan.hstep).wr .VL_HAND_HGUARD c.plan.hguard

/-- `press.heads` into its registers: lanes, generations, t_ref (07, R168; 11, R286). -/
def Dev.putHeads (d : Dev) (c : CrownContent) : Dev :=
  d.forEach c.heads (fun d h =>
    if d.nLanes ≤ h.slot then d
    else ((d.wr .ZL_CFG_EN (bit h.enable) h.slot).wr .ZL_CFG_GEN (bit h.gen1) h.slot).wr .HT_CFG_TREF (unsign 16 h.tref) h.slot)

/-- Every engine runs its program, every Reckoner is active, the ring port has started. -/
def Dev.release (d : Dev) : Dev :=
  let all : List Engine := [.hk, .sv0, .sv1, .cc0, .cc1, .vs] ++ (List.range 16).map Engine.rk
  let d := { d with boot := { d.boot with running := all } }
  let d := d.setActive 0xFFFF
  let d := { d with ring := { d.ring with running := true } }
  (d.wr .VL_CTL_FREEZE (d.rd .AON_PWR_WARN)).relays.ringMaster

/-- The 1.2 s step after its entries; where one of them has restarted the module, the boot begins anew. -/
def State.afterRelease (s : State) : State :=
  if s.dev.boot.stage = .contentChecked then { s with dev := s.dev.release.stepTo .released } else s

/-- The 1.2 s step. -/
def State.engineRelease (s : State) : State :=
  let regs := s.dev.regsOf (s.dev.rd .CR_STAT_IMG)
  match s.dev.boot.content with
  | none => s
  | some c =>
    let d := ((s.dev.powerLate (settings c regs)).putGeometry c).putHeads c
    let s := ({ s with dev := d }).applyRegs (regs.filter later ++ c.ring)
    s.afterRelease

/-- ENGINE_RELEASE (R381). -/
def execEngineRelease (s : State) : Out := .next (if s.dev.bootAt .contentChecked then s.engineRelease else s)

/-! ### Rods and completion (R382; 01, R21) -/

/-- The 1.8 s step after its entries. -/
def State.afterRods (s : State) : State :=
  if s.dev.boot.stage = .released then { s with dev := s.dev.stepTo .rodsBuilt } else s

/-- The 1.8 s step: the rods of every enabled slot with a valid head memory, then the `DP_CFG[i]` entries. -/
def State.rodBuild (s : State) : State :=
  let heads := (s.dev.boot.content.map (·.heads)).getD []
  let d := s.dev.forEach heads (fun d (h : HeadCfg) => d.buildRods h.slot)
  let s := heads.foldl (fun s h => s.storeBuilt h.slot) { s with dev := d }
  let s := s.applyRegs ((s.dev.regsOf (s.dev.rd .CR_STAT_IMG)).filter forDpCfg)
  s.afterRods

/-- ROD_BUILD (R382). -/
def execRodBuild (s : State) : Out := .next (if s.dev.bootAt .released then s.rodBuild else s)

/-- The lowest set of a kind that the image holds. -/
def leastSet {α : Type} (sets : List (Nat × α)) : Nat :=
  match sets with
  | [] => 0
  | x :: t => (t.map Prod.fst).foldl min x.1

/-- The 2.5 s step after its entries: IDLE with READY high. -/
def State.afterBoot (s : State) : State :=
  if s.dev.boot.stage = .rodsBuilt then { s with dev := (s.dev.setPlim.stepTo .done).enter .idle } else s

/-- The 2.5 s step: tables loaded (assumption 34), planner, axes and cameras configured, then IDLE with READY high. -/
def State.bootComplete (s : State) : State :=
  match s.dev.boot.content with
  | none => s
  | some c =>
    let cams := c.cams.flatMap (fun x => x.2)
    let s := ({ s with dev := s.dev.loadTables (leastSet c.curves) (leastSet c.screens) }).applyRegs (cams ++ c.axes ++ c.abacus)
    s.afterBoot

/-- BOOT_COMPLETE (R21). -/
def execBootComplete (s : State) : Out := .next (if s.dev.bootAt .rodsBuilt then s.bootComplete else s)

end Sys2Proof.Machine
end

