-- ==== Sys2Proof/Machine/Loops.lean ====
section
/-! DEFINITION. The loops of VS (10): measuring a gap (R245 to R247), nozzle states and rod updates (R248 to R253), register marks
(R256 to R260), the start of a hand-over move (R259). -/
namespace Sys2Proof.Machine

/-! ### The fit of a stripe (R246) -/

/-- The fit over pairs (P, x). -/
def fitOf (l : List (Int × Int)) : Fit :=
  l.foldl (fun f p => ⟨f.n + 1, f.sp + p.1, f.sx + p.2, f.spp + p.1 * p.1, f.spx + p.1 * p.2⟩) ⟨0, 0, 0, 0, 0⟩

/-- Numerator of beta. -/
def Fit.num (f : Fit) : Int := f.n * f.spx - f.sp * f.sx
/-- Denominator of beta. -/
def Fit.den (f : Fit) : Int := f.n * f.spp - f.sp * f.sp
/-- beta exists and is positive. -/
def Fit.ok (f : Fit) : Bool := decide (0 < f.num) && decide (0 < f.den)

/-- delta of a dash in 2^-16 pitch. -/
def Fit.delta (f : Fit) (p x : Int) : Int := ((f.n * x - f.sx) * f.den - f.num * (f.n * p - f.sp)) * 65536 / (f.n * f.num)

/-- A distance in 1/256 pixel in 2^-16 pitch. -/
def Fit.pitches (f : Fit) (x : Int) : Int := x * 65536 * f.den / f.num

/-- Column of a printable position in 1/256 pixel. -/
def Fit.column (f : Fit) (p : Int) : Int := (f.sx * f.den + f.num * (f.n * p - f.sp)) / (f.n * f.den)

/-- A dash as a pair (P, x). -/
def dashPair (x : Dash) : Int × Int := (((x.pos.toNat : Nat) : Int), x.xc)

/-- The fit of a bar by one camera: over the dashes present, without those more than 1 pitch from the first fit. -/
def fitDashes (present : List Dash) : Fit :=
  let first := fitOf (present.map dashPair)
  if first.ok then fitOf ((present.map dashPair).filter (fun q => decide ((first.delta q.1 q.2).natAbs ≤ 65536))) else first

/-! ### Densities (R247) -/

/-- Density of a dash in 2^-8. -/
def dashDensity (x : Dash) : Nat := x.d * 256

/-- The reference density of a head with a stripe's median taken in; the first stripe's median where none is held. -/
def Dev.drefNext (d : Dev) (slot : Nat) (xs : List Dash) : Nat :=
  let m := median 0 (xs.map dashDensity)
  match (Tab.at d.loops.dref slot : Option Nat) with
  | some r => ((r : Int) + ((m : Int) - r) / 8).toNat
  | none => m

/-- A dash is present. -/
def dashPresent (x : Dash) (dref : Nat) : Bool := decide (dref ≤ 4 * dashDensity x)

/-- Head slot of a dash's channel. -/
def dashSlot (x : Dash) : Nat := x.ch.toNat / 4096

/-! ### Nozzle states (R248) -/

/-- The record of a nozzle whose rod has just been built: the rod's fields, nothing measured. -/
def nozzleOfRod (rod : Nat) : Nozzle :=
  { st := rod / 2 ^ 30, ratio := 65536, dev := 0, present := 0, absent := 0, cause := .absent, age := rod % 16
    gain := bitsOf rod 16 8, lat := signed 8 (bitsOf rod 8 8), cls := bitsOf rod 4 4 }

/-- The record of a nozzle channel. -/
def Dev.nozzle (d : Dev) (ch : Nat) : Nozzle := (Tab.at d.loops.nozzles ch).getD (nozzleOfRod (d.masterRod ch))

/-- Write it. -/
def Dev.setNozzle (d : Dev) (ch : Nat) (n : Nozzle) : Dev :=
  { d with loops := { d.loops with nozzles := Tab.put d.loops.nozzles ch (some n) } }

/-- The gain for a filtered ratio in 2^-16. -/
def gainFor (ratio : Int) : Nat := min 255 (roundDiv (128 * 65536) ratio.toNat).toNat

/-- Counts and filters of a check. -/
def Nozzle.measure (n : Nozzle) (present : Bool) (rho delta : Int) : Nozzle :=
  if present then
    { n with ratio := n.ratio + (rho - n.ratio) / 8, dev := n.dev + (delta - n.dev) / 4, present := n.present + 1, absent := 0 }
  else { n with absent := n.absent + 1, present := 0 }

/-- DEAD with a cause. -/
def Nozzle.dead (n : Nozzle) (c : DeadCause) : Nozzle := { n with st := 2, cause := c }

/-- WEAK with its gain. -/
def Nozzle.weak (n : Nozzle) : Nozzle := { n with st := 1, gain := gainFor n.ratio }

/-- OK. -/
def Nozzle.fine (n : Nozzle) : Nozzle := { n with st := 0, gain := 128 }

/-- A DEAD nozzle recovers with the ratio of the check. -/
def Nozzle.recover (n : Nozzle) (rho : Int) : Nozzle :=
  let n := { n with ratio := rho }
  if 10 * n.ratio < 9 * 65536 then n.weak else n.fine

/-- A transition of Table 10-3: the first row that applies. -/
def Nozzle.next (n : Nozzle) (present : Bool) (rho : Int) : Nozzle :=
  match n.st with
  | 3 => n
  | 2 =>
    if !present || n.present < 3 then n
    else match n.cause with
      | .absent => n.recover rho
      | .lateral => if n.dev.natAbs * 8 ≤ 3 * 65536 then n.recover rho else n
      | .weakLimit => if 55 * 65536 ≤ 100 * n.ratio then ({ n with ratio := rho }).weak else n
  | st =>
    if !present then (if 2 ≤ n.absent then n.dead .absent else n)
    else if 65536 < 2 * n.dev.natAbs then n.dead .lateral
    else if 2 * n.ratio < 65536 then n.dead .weakLimit
    else if st = 0 then (if 10 * n.ratio < 9 * 65536 then n.weak else n)
    else if 95 * 65536 ≤ 100 * n.ratio then n.fine else n.weak

/-- The lateral field follows the filtered deviation (R250). -/
def Nozzle.lateral (n : Nozzle) : Nozzle :=
  let v := clampInt (-128) 127 (roundDiv (64 * n.dev) 65536)
  if 2 ≤ (v - n.lat).natAbs then { n with lat := v } else n

/-- A check of a nozzle (R248, R250); a MASKED one keeps its record. -/
def Nozzle.check (n : Nozzle) (present : Bool) (rho delta : Int) : Nozzle :=
  if n.st = 3 then n else ((n.measure present rho delta).next present rho).lateral

/-- A field of the rod has changed. -/
def Nozzle.differs (a b : Nozzle) : Bool := a.st != b.st || a.gain != b.gain || a.lat != b.lat || a.cls != b.cls

/-- Age after a check (R252). -/
def Nozzle.aged (n old : Nozzle) : Nozzle := { n with age := if n.differs old then 0 else min 15 (old.age + 1) }

/-- The rod of a nozzle (Table 4-4): its curve field is the master copy's. -/
def Nozzle.rod (n : Nozzle) (master : Nat) : Nat :=
  n.st * 2 ^ 30 + bitsOf master 24 6 * 2 ^ 24 + n.gain * 2 ^ 16 + unsign 8 n.lat * 2 ^ 8 + n.cls * 16 + n.age

/-- An update entry of a nozzle (R252, R253). -/
def Dev.rodEntry (d : Dev) (ch : Nat) (n : Nozzle) : Dev :=
  match d.ownerOf ch with
  | some i => d.pendRods [(i, ch - 4096 * d.rd .DP_GEOM_SLOT0 i, n.rod (d.masterRod ch))]
  | none => d

/-- A change of state is reported (Table 10-6). -/
def Dev.nozzleEvent (d : Dev) (ch : Nat) (old n : Nozzle) : Dev :=
  if n.st = old.st then d
  else if n.st = 2 then d.raise Ev.NZ_DEAD (le 4 ch ++ le 1 n.cause.code)
  else if old.st = 2 then d.raise Ev.NZ_RECOVERED (le 4 ch ++ le 1 n.st)
  else d

/-- A nozzle works: OK or WEAK. -/
def Dev.works (d : Dev) (slot j : Nat) : Bool := decide ((d.nozzle (4096 * slot + j)).st < 2)

/-- The glove class of a DEAD nozzle follows its neighbours (R251). -/
def Dev.reclass (d : Dev) (slot j : Nat) : Dev :=
  let ch := 4096 * slot + j
  let n := d.nozzle ch
  let c := d.gloveClass (d.works slot) j
  if n.st != 2 || n.cls = c then d
  else
    let n := { n with cls := c, age := 0 }
    (d.setNozzle ch n).rodEntry ch n

/-- One dash is checked: its record, its event, its update entry. -/
def Dev.checkDash (d : Dev) (f : Fit) (dref : Nat) (x : Dash) : Dev :=
  let ch := x.ch.toNat
  let old := d.nozzle ch
  if old.st = 3 then d
  else
    let rho : Int := if dref = 0 then 65536 else (dashDensity x * 65536 / dref : Nat)
    let n := (old.check (dashPresent x dref) rho (f.delta (dashPair x).1 (dashPair x).2)).aged old
    let d := (d.setNozzle ch n).nozzleEvent ch old n
    if n.differs old || decide (old.age < 15) then d.rodEntry ch n else d

/-- The dashes of one head (R247 to R252): a stripe of which more than a quarter is absent is discarded. -/
def Dev.checkHead (d : Dev) (f : Fit) (slot : Nat) (xs : List Dash) : Dev :=
  let dref := d.drefNext slot xs
  let absent := (xs.filter (fun x => !dashPresent x dref)).length
  if xs.length < 4 * absent then d.raise Ev.NZ_HEAD_SUSPECT (le 1 slot ++ le 1 (100 * absent / xs.length))
  else
    let d : Dev := { d with loops := { d.loops with dref := Tab.put d.loops.dref slot (some dref) } }
    let before := xs.map (fun x => (x.ch.toNat % 4096, (d.nozzle x.ch.toNat).st))
    let d := d.forEach xs (fun d x => d.checkDash f dref x)
    let changed := (before.filter (fun b => (d.nozzle (4096 * slot + b.1)).st != b.2)).map (·.1)
    let near := (changed.flatMap (fun j => [j - 2, j - 1, j, j + 1, j + 2])).eraseDups.filter (· < 4096)
    d.forEach near (fun d j => d.reclass slot j)

/-- Channels in a state. -/
def Dev.countState (d : Dev) (st : Nat) : Nat :=
  (d.loops.nozzles.filter (fun e => match e.2 with | some n => decide (n.st = st) | none => false)).length

/-- The dashes of a stripe on one head. -/
def dashesOf (xs : List Dash) (slot : Nat) : List Dash := xs.filter (fun x => dashSlot x = slot)

/-- The fit of a stripe, over its dashes present (R246, R247). -/
def Dev.stripeFit (d : Dev) (xs : List Dash) : Fit :=
  fitDashes (xs.filter (fun x => dashPresent x (d.drefNext (dashSlot x) (dashesOf xs (dashSlot x)))))

/-- The nozzle loop over one bar's dashes (R246 to R252). -/
def Dev.nozzleLoop (d : Dev) (f : Fit) (xs : List Dash) : Dev :=
  if !f.ok then d
  else
    let d := d.forEach (xs.map dashSlot).eraseDups (fun d h => d.checkHead f h (dashesOf xs h))
    (d.wr .VL_DEAD_N (d.countState 2)).wr .VL_WEAK_N (d.countState 1)

/-! ### Register marks (R256 to R260) -/

/-- The mean of some numbers; none of an empty list. -/
def meanInt (l : List Int) : Option Int := if l = [] then none else some (l.foldl (· + ·) 0 / l.length)

/-- The mark of a group. -/
def markOf (ms : List Mark) (g : Nat) : Option Mark := ms.find? (fun m => m.group.val = g)

/-- e_k in 2^-16 pitch and d_k in 2^-16 lines from the groups seen on the bar and on the reference bar (R256). -/
def offsets (p : BrimPlan) (f : Fit) (bar : Nat) (mine refs : List Mark) : Option (Int × Int) :=
  let both := (List.range 4).filterMap (fun g => (markOf mine g).bind (fun m => (markOf refs g).map (fun r => (m, r))))
  let es := both.map (fun x =>
    f.pitches ((x.1.centre.toNat : Int) - x.2.centre.toNat) - (p.markStep : Int) * ((bar : Int) - p.refBar) * 65536)
  let ds := both.map (fun x =>
    ((x.1.edge.toNat : Int) - x.2.edge.toNat) * p.markLines * 65536 / (max 1 x.2.height.toNat : Nat))
  match meanInt es, meanInt ds with
  | some e, some d => some (e, d)
  | _, _ => none

/-- The down-web target of a bar (R260). -/
def Dev.trimTarget (d : Dev) (bar : Nat) : Dev :=
  let dk := (d.barLoop bar).d
  let want := roundDiv (-64 * dk) 65536
  let d := d.wr .VL_DW_D (satSigned 16 (roundDiv (64 * dk) 65536)) bar
  let d := if want < -512 || 511 < want then d.raise Ev.REG_DW_RANGE (le 1 bar ++ le 4 (unsign 32 (roundDiv (64 * dk) 65536))) else d
  let v := clampInt (-512) 511 want
  if 2 ≤ (v - d.trim bar).natAbs then d.wr .FIRE_TRIM_NEXT (unsign 10 v) bar else d

/-- The register loop over one bar's marks (R257, R258, R260); `act` and `trim` were in force for the gap. -/
def Dev.registerLoop (d : Dev) (bar : Nat) (e dw act trim : Int) : Dev :=
  let d := d.updBar bar (fun l =>
    { l with e := l.e + (e - act * 1024 - l.e) / 4, d := l.d + (dw - l.d - trim * 1024) / 4 })
  ((d.latUpdate bar).planBar bar).trimTarget bar

/-! ### A gap -/

/-- The report of a product on a bar (R242). -/
def Dev.reportOf (d : Dev) (jn pn bar : Nat) : Option StartReport :=
  d.loops.reports.find? (fun r => decide (r.jn = jn) && decide (r.pn = pn) && decide (r.bar = bar))

/-- The results for a bar may be used (R245, R261): the product closed with no spoil on the bar, and no hand-over step or late
move there. -/
def Dev.gapGood (d : Dev) (jn pn bar : Nat) : Bool :=
  (match d.loops.closed.find? (fun c => decide (c.1 = jn) && decide (c.2.1 = pn)) with
   | some c => !c.2.2.elem bar && !c.2.2.elem 255
   | none => false)
  && !(d.barLoop bar).discard.elem (jn, pn)

/-- A port holds the buffer of a usable frame, and the frame's stream has been delivered (R234, R261). -/
def Dev.usableBuf (d : Dev) (p frame stream win : Nat) : Option CamBuf :=
  let v : Vis := Tab.at d.vis p
  if v.lost.elem stream then none
  else v.lastUsable.find? (fun b => decide (b.frame = frame) && decide (b.stream = stream) && decide (b.win = win))

/-- The S0 and S3 streams of a usable frame have been delivered (R256). -/
def Dev.marksSeen (d : Dev) (p frame : Nat) : Bool := (d.usableBuf p frame 3 0).isSome && !(Tab.at d.vis p : Vis).lost.elem 0

/-- The S1 sums of an output of the colour matrix, column by column (09, Table 9-3). -/
def CamBuf.columns (b : CamBuf) (q : Nat) : List Nat := (List.range b.width).map (fun x => fieldAt b.data (12 * x + 4 * q) 4)

/-- The column at which a port expects a printable position of a bar, in 1/256 pixel: by the last fit, or before one by the camera's
mounting (assumption 65). -/
def Dev.columnOf (d : Dev) (p bar : Nat) (pos : Int) : Int :=
  match (Tab.at d.loops.fits (16 * p + bar) : Option Fit) with
  | some f => f.column pos
  | none => (Config.firstColumn p bar pos).toNat

/-- Density and centroid of a dash: the integral over ±2 pitches less the background, and its centre (R246). -/
def dashAt (cols : List Nat) (bg : Nat) (lo hi : Int) : Nat × Int :=
  let near := cols.zipIdx.filter (fun c => decide (lo ≤ 256 * (c.2 : Int)) && decide (256 * (c.2 : Int) ≤ hi))
  let sum := near.foldl (fun (s : Int) c => s + ((c.1 : Int) - bg)) 0
  let moment := near.foldl (fun (s : Int) c => s + ((c.1 : Int) - bg) * (256 * c.2)) 0
  (sum.toNat, if sum ≤ 0 then (lo + hi) / 2 else moment / sum)

/-- The ladder of the product fired the heads' dashes: channel and printable position of every nozzle of its phase that is not MASKED
(R241 to R243; 04, Table 4-3). -/
def Dev.firedLadder (d : Dev) (r : StartReport) : List (Nat × Nat) :=
  match r.rows.head? with
  | some row =>
    if row.kind != 1 then []
    else
      (d.pipes.filter (fun i => d.pipeBar i = r.bar)).flatMap (fun i =>
        let g := d.pipeGeom i
        ((List.range g.heads).filter (bitOf row.heads)).flatMap (fun h =>
          ((List.range 256).map (fun k => 16 * k + r.phase)).filterMap (fun j =>
            if (d.nozzle (g.chan h j)).st = 3 then none else some (g.chan h j, g.pos h j))))
  | none => []

/-- The dashes of a bar as a port sees them: those expected within its field, measured in the bar's window (R246). -/
def Dev.measureDashes (d : Dev) (p : Nat) (plan : BrimPlan) (r : StartReport) (b : CamBuf) : List Dash :=
  let cols := b.columns (nth plan.qsel r.bar)
  let bg := median 0 cols
  (d.firedLadder r).filterMap (fun x =>
    let lo := d.columnOf p r.bar ((x.2 : Int) - 2)
    let hi := d.columnOf p r.bar ((x.2 : Int) + 2)
    if lo < 0 || 256 * (b.width : Int) ≤ hi then none
    else
      let (dens, xc) := dashAt cols bg lo hi
      some { ch := BitVec.ofNat 18 x.1, pos := BitVec.ofNat 16 x.2, d := dens, xc := xc })

/-- The stripe of a bar is measured: its nozzles are checked, its fit is kept. -/
def Dev.measureStripe (d : Dev) (p bar : Nat) (f : Fit) (xs : List Dash) : Dev :=
  let d := if d.flag .VL_CTL_NZEN then d.nozzleLoop f xs else d
  if f.ok then { d with loops := { d.loops with fits := Tab.put d.loops.fits (16 * p + bar) (some f) } } else d

/-- The bar's part of a measurement (R245, R256). -/
def Dev.gapBar (d : Dev) (p jn pn frame : Nat) (plan : BrimPlan) (refs mine : List Mark) (bar : Nat) : Dev :=
  match d.reportOf jn pn bar, d.usableBuf p frame 1 (nth plan.win bar) with
  | some r, some b =>
    if !d.gapGood jn pn bar then d
    else
      let xs := d.measureDashes p plan r b
      let f := d.stripeFit xs
      let d := d.measureStripe p bar f xs
      let marks := decide (plan.markOfs + plan.markLines ≤ ((d.job jn).bind (·.rec?)).elim 0 (·.brimLines))
      match offsets plan f bar mine refs with
      | some (e, dw) =>
        if d.registers bar && d.marksSeen p frame && f.ok && marks then
          d.registerLoop bar e dw r.act (((d.loops.trims.find? (fun t => t.1 = (jn, pn, bar))).map (·.2)).getD 0)
        else d
      | none => d
  | _, _ => d

/-- What VS keeps of products before the one measured is no longer needed (R242). -/
def Dev.trimReports (d : Dev) (jn pn : Nat) : Dev :=
  let reports := d.loops.reports.dropWhile (fun r => !(decide (r.jn = jn) && decide (r.pn = pn)))
  let kept := fun (j q : Nat) => reports.any (fun r => decide (r.jn = j) && decide (r.pn = q))
  { d with loops := { d.loops with
      reports := reports, closed := d.loops.closed.filter (fun c => kept c.1 c.2.1)
      numbered := d.loops.numbered.filter (fun x => kept x.1 x.2.1)
      trims := d.loops.trims.filter (fun t => kept t.1.1 t.1.2.1)
      bars := d.loops.bars.map (fun b => (b.1, { b.2 with discard := b.2.discard.filter (fun x => kept x.1 x.2) })) } }

/-- VS measures the gap of a product in a frame, bar by bar (R245 to R261), and SV1 commits what the checks have changed (R253): `marks`
are the marks found in the frame's S0 stream. The reference bar's count only where its product is good too. -/
def Dev.measureGap (d : Dev) (p jn pn frame : Nat) (plan : BrimPlan) (marks : List GapBar) : Dev :=
  let of := fun (bar : Nat) => ((marks.find? (fun b => b.bar.val = bar)).map (·.marks)).getD []
  let refs := if d.gapGood jn pn plan.refBar then of plan.refBar else []
  let d := d.forEach (d.bars.map (·.bar)) (fun d bar => d.gapBar p jn pn frame plan refs (of bar) bar)
  (d.trimReports jn pn).forEach d.pipes Dev.sv1Commit

/-- GAP_MEASUREMENT (R245): of a product whose gap is one of those measured (R243). -/
def execGapMeasurement (p : Port) (jn pn frame : U32) (marks : List GapBar) (s : State) : Out :=
  s.act fun d =>
    match d.plan, d.numberOf jn.toNat pn.toNat with
    | some plan, some (some _) => if d.runs .vs then d.measureGap p.val jn.toNat pn.toNat frame.toNat plan marks else d
    | _, _ => d

/-! ### The move of a hand-over step (R259) -/

/-- F has passed the last image line of the product before P plus `HGUARD` lines. -/
def Dev.mayMove (d : Dev) (bar jn line : Nat) : Bool :=
  match d.plOf jn, (d.job jn).bind (·.rec?) with
  | some p, some r => d.reached (d.duePos p (line - r.brimLines - 1 + d.rd .VL_HAND_HGUARD) bar)
  | _, _ => false

/-- The move of the first step that has its product begins. -/
def Dev.handStep (d : Dev) (bar : Nat) : Dev :=
  match (d.barLoop bar).steps, d.axisOf bar with
  | st :: rest, some a =>
    match st.prod with
    | some (jn, pn, line) =>
      if st.moving || !d.axAccepts a false || !d.mayMove bar jn line then d
      else
        let d := d.updBar bar (fun l => { l with steps := { st with moving := true } :: rest, discard := l.discard ++ [(jn, pn - 1)] })
        let d := d.axTarget a (d.stepTarget a st.target) false
        d.raise Ev.REG_STEP (le 1 bar ++ le 2 (unsign 16 st.s) ++ le 4 pn)
    | none => d
  | _, _ => d

/-- HANDOVER_STEP (R259): the first AXSYNC after the guard past the previous product's printed lines. -/
def execHandoverStep (bar : Pipe) (s : State) : Out := s.act (·.handStep bar.val)

end Sys2Proof.Machine
end

