-- ==== Sys2Proof/Machine/Mark.lean ====
section
/-! DEFINITION. WASTE_MARK (08, R215, R216, Table 8-2). -/
namespace Sys2Proof.Machine

/-- Width of a pulse in ns. -/
def Dev.markWidth (d : Dev) : Nat := d.rd .SP_WASTE_CTL_WIDTH * 100000

/-- Assert WASTE_MARK for a product; an output in progress is extended (R215). -/
def Dev.assertMark (d : Dev) (p : Prod) : Dev :=
  let i := d.integ
  if d.rd .SP_WASTE_CTL_MODE = 1 then
    { d with integ := { i with mark := true, pulseEnd := some (max (i.pulseEnd.getD 0) (d.now + d.markWidth)) } }
  else
    let e := p.to38 + d.rd .SP_WASTE_OFS_COUNTS * 2 ^ 38
    { d with integ := { i with mark := true, gateEnd := some (max (i.gateEnd.getD e) e) } }

/-- Mark a product that is spoiled or OPEN: the output, the mark record, the account; OPEN at its mark point it is marked
`UNCLOSED` (R216). -/
def Dev.markProduct (d : Dev) (p : Prod) : Dev :=
  let isOpen := decide (p.st = .opened)
  let d := d.assertMark p
  let d := d.writeRec { jn := p.jn, pn := p.pn, first := p.first, last := p.last, n := 0, time := d.now, kind := 2,
                        reason := if p.spoil then p.reason else 0, bar := 255, slot := 255, firstSp := false, late := false,
                        unclosed := isOpen, lostB := false, lines := [] }
  let d := d.updAccount p.jn (fun a => { a with marked := a.marked + 1, unclosed := a.unclosed + bit isOpen })
  let d := if isOpen then d.wr .SP_STAT_EARLY 1 else d
  d.updProd p.jn p.pn (fun p => { p with st := .marked, unclosed := isOpen })

/-- A product table entry read with poison: the product is treated as spoiled (08, Table 8-4). One that has closed keeps its account
(R219), and is marked with this reason. -/
def Dev.poisonEntry (d : Dev) (p : Prod) : Dev :=
  let entry := (d.integ.prods.findIdx? (fun q => decide (q.jn = p.jn) && decide (q.pn = p.pn))).getD 0
  let d := (d.wr .SP_STAT_PTPOI 1).raise Ev.PTAB_POISON (le 2 entry ++ le 4 p.jn ++ le 4 p.pn)
  if p.isClosed then
    d.updProd p.jn p.pn (fun p => if p.spoil then p else { p with spoil := true, reason := SpReason.poison.code, spoilAt := d.now })
  else d.spoilWhole .poison p.jn p.pn p.first p.last

/-- F has reached a product's mark point, S + W - `ADV` (R215). -/
def Dev.atMark (d : Dev) (p : Prod) : Bool :=
  d.reached (p.from38 + ((d.rd .SP_WASTE_OFS_COUNTS : Int) - d.rd .SP_WASTE_CTL_ADV) * 2 ^ 38)

/-- The entry of a product is read, with poison or not, and at its mark point the product is marked or its entry freed (Table 8-2). -/
def Dev.markPoint (d : Dev) (jn pn : Nat) (poison : Bool) : Dev :=
  match d.prod jn pn with
  | none => d
  | some p =>
    if p.st = .marked then d
    else
      let d := if poison then d.poisonEntry p else d
      if d.rd .SP_WASTE_CTL_MODE = 0 || !d.atMark p then d
      else
        match d.prod jn pn with
        | none => d
        | some p => if p.spoil || p.st = .opened then d.markProduct p else d.freeProd jn pn

/-- MARK_POINT (R215). -/
def execMarkPoint (jn pn : U32) (poison : Bool) (s : State) : Out := s.act (·.markPoint jn.toNat pn.toNat poison)

/-- The pulse and the gate of WASTE_MARK, as far as there are any, have ended (R215). -/
def Dev.markOver (d : Dev) : Bool :=
  d.integ.pulseEnd.all (fun t => decide (t ≤ d.now)) && d.integ.gateEnd.all d.reached

/-- The level of the WASTE_MARK pin, by the polarity of `SP_WASTE_CTL.POL`. -/
def Dev.wastePin (d : Dev) : Bool := d.integ.mark != d.flag .SP_WASTE_CTL_POL

/-- WASTE_MARK is released: the mark output of every marked product has ended, and those closed are freed. -/
def Dev.markEnd (d : Dev) : Dev :=
  if !d.integ.mark || !d.markOver then d
  else
    let prods := d.integ.prods.map (fun p => if p.st = .marked then { p with markEnded := true } else p)
    Dev.countPtab { d with integ := { d.integ with
      mark := false, pulseEnd := none, gateEnd := none, prods := prods.filter (fun p => !(p.st = .marked && p.closureWritten)) } }

/-- WASTE_MARK_END (R215). -/
def execWasteMarkEnd (s : State) : Out := s.act Dev.markEnd

end Sys2Proof.Machine
end

