-- ==== Sys2Proof/Machine/Xpp.lean ====
section
/-! DEFINITION. Press protocol: what the requests of Table 14-3 and Table 16-6 are, who may send them and when, reception (14, R328 to
R331, R334, R335), answers (R332), kept messages (R333). -/
namespace Sys2Proof.Machine

/-! ### The catalogue (14, Table 14-3; 16, Table 16-6) -/

/-- `TYPE` of a request. -/
def reqType : XppReq → Nat
  | .hello => 0x01 | .heartbeat => 0x02 | .noteResend _ => 0x16 | .start .. => 0x20 | .stop => 0x21 | .hold => 0x22
  | .resume => 0x23 | .speedLimit _ => 0x24 | .enterSafe => 0x25 | .restart => 0x26 | .shutdownAck => 0x27
  | .rkRelease _ => 0x28 | .headClear _ => 0x29 | .axisTarget .. => 0x2A | .axisHome _ => 0x2B | .heatSet .. => 0x2C
  | .jobCancel .. => 0x40 | .queueOrder _ => 0x41 | .jobQuery _ => 0x42 | .regRead _ => 0x43 | .nvmOpen _ => 0x60
  | .nvmErase .. => 0x61 | .nvmWrite .. => 0x62 | .nvmCrc .. => 0x63 | .nvmClose => 0x64 | .debugEnable => 0x65
  | .debugDisable => 0x66 | .lockSet _ => 0x67 | .logRead .. => 0x68 | .logErase => 0x69 | .malformed t => t.toNat

/-- NACK codes (14, Table 14-4). -/
inductive Nack where
  | malformed | source | state | range | conflict | inhibited | precedence | temp | presence | unknownJob | busy
  deriving DecidableEq, Repr

/-- Value of a NACK code. -/
def Nack.code : Nack → Nat
  | .malformed => 1 | .source => 2 | .state => 3 | .range => 4 | .conflict => 5 | .inhibited => 6 | .precedence => 7
  | .temp => 8 | .presence => 9 | .unknownJob => 10 | .busy => 11

/-- Types that only the module sends. -/
def moduleTypes : List Nat := [0x03, 0x04, 0x10, 0x11, 0x12, 0x13, 0x14, 0x15]

/-- The roles that may send a request. -/
def reqFrom (q : XppReq) (r : Role) : Bool :=
  match q with
  | .hello | .heartbeat | .noteResend _ | .regRead _ | .malformed _ => true
  | .start .. | .stop | .hold | .resume | .rkRelease _ | .headClear _ | .axisTarget .. | .axisHome _ | .heatSet .. => r = .pc
  | .speedLimit _ | .enterSafe | .restart | .shutdownAck => r = .pc || r = .mt
  | .jobCancel .. | .queueOrder _ => r = .js
  | .jobQuery _ => r = .pc || r = .js
  | .nvmOpen _ | .nvmErase .. | .nvmWrite .. | .nvmCrc .. | .nvmClose | .debugEnable | .debugDisable | .lockSet _ | .logRead ..
  | .logErase => r = .mt

/-- The device states in which a request is accepted. -/
def reqState (q : XppReq) (s : DState) : Bool :=
  match q with
  | .heartbeat | .noteResend _ | .regRead _ | .malformed _ | .jobCancel .. | .nvmCrc .. | .logRead .. => true
  | .hello => decide (DState.safe.code ≤ s.code)
  | .start .. => s = .idle || s.running
  | .stop => s.running
  | .hold => s.running || s = .hold
  | .resume => s = .hold
  | .speedLimit _ | .rkRelease _ | .headClear _ | .axisTarget .. | .axisHome _ | .heatSet .. => s.idleToHold
  | .enterSafe => s = .idle
  | .restart | .shutdownAck => s = .safe
  | .queueOrder _ | .jobQuery _ => decide (DState.idle.code ≤ s.code)
  | .nvmOpen _ | .nvmErase .. | .nvmWrite .. | .nvmClose | .debugEnable | .debugDisable | .lockSet _ | .logErase =>
    s = .safe || s = .idle

/-- The requests that the HK server handles (16, R380). -/
def hkHandles : XppReq → Bool
  | .hello | .heartbeat | .regRead _ | .noteResend _ | .restart | .shutdownAck | .nvmOpen _ | .nvmErase .. | .nvmWrite ..
  | .nvmCrc .. | .nvmClose | .debugEnable | .debugDisable | .lockSet _ | .logRead .. | .logErase | .malformed _ => true
  | .start .. | .stop | .hold | .resume | .speedLimit _ | .enterSafe | .rkRelease _ | .headClear _ | .axisTarget ..
  | .axisHome _ | .heatSet .. | .jobCancel .. | .queueOrder _ | .jobQuery _ => false

/-- Requests that would change the device state (14, R340, step 2). -/
def reqOrdersState : XppReq → Bool
  | .start .. | .stop | .hold | .resume | .enterSafe | .restart | .shutdownAck => true
  | _ => false

/-- A field of a request lies in its range (14, R338; 16, Table 16-6); `lanes` and `axes` are those of the variant (00, R6). -/
def Dev.reqRange (d : Dev) (q : XppReq) : Bool :=
  match q with
  | .start _ mode _ => decide (mode.toNat ≤ 1)
  | .headClear mask => decide (mask.toNat < 2 ^ d.nLanes)
  | .axisTarget a _ | .axisHome a => decide (a.toNat < d.nAxes)
  | .heatSet slot _ en => decide (slot.toNat < d.nLanes) && decide (en.toNat ≤ 1)
  | .jobCancel _ mode => decide (mode.toNat ≤ 1)
  | .nvmOpen span => decide (span.toNat ≤ 1)
  | .nvmWrite _ data => decide (4 ≤ data.length) && decide (data.length ≤ 1024) && decide (data.length % 4 = 0)
  | .lockSet l => decide (l.toNat ≤ 1)
  | .logRead _ n => decide (1 ≤ n.toNat) && decide (n.toNat ≤ 16)
  | _ => true

/-- The message is whole for its type: no unknown `TYPE`, no payload length that is wrong for it. -/
def reqWhole : XppReq → Bool
  | .malformed t => moduleTypes.elem t.toNat
  | .regRead addrs => decide (addrs.length ≤ 64)
  | _ => true

/-- A type that only the module sends. -/
def reqModule : XppReq → Bool
  | .malformed t => moduleTypes.elem t.toNat
  | _ => false

/-- R330 and R338: the code with which a request is refused in the state `was` of its window, if any. Which code a request gets that
breaks several checks the spec does not say; here `MALFORMED` goes before `SOURCE`, `STATE` and `RANGE` (DESIGN CHOICE, assumption 58). -/
def Dev.refusal (d : Dev) (was : DState) (r : Role) (q : XppReq) : Option Nack :=
  if !reqWhole q then some .malformed
  else if !reqFrom q r || reqModule q then some .source
  else if !reqState q was || (!d.runs .sv0 && !hkHandles q) then some .state
  else if !d.reqRange q then some .range
  else none

/-- R340, step 3: while HOLD# or INHIBIT# is asserted. -/
def Dev.inhibited (d : Dev) (q : XppReq) : Bool :=
  match q with
  | .start .. | .resume => d.held .pin || d.held .inhibit
  | .axisTarget .. | .axisHome _ => d.held .inhibit
  | _ => false

/-! ### Reception (14, R329 to R331, R334) -/

/-- Causes of `XPP_BAD` (14, Table 14-8). -/
def badCode : BadCause → Nat
  | .crc => 1 | .identity => 2 | .sequence => 3 | .header => 4

/-- A message is discarded: counted, and reported at most once per second per cause. -/
def Dev.discard (d : Dev) (port : Nat) (c : BadCause) : Dev :=
  let d := d.inc .XPP_CNT_BAD
  let report (d : Dev) : Dev :=
    Dev.raise { d with xpp := { d.xpp with badAt := Tab.put d.xpp.badAt (badCode c) (some d.now) } } Ev.XPP_BAD
      (le 1 port ++ le 1 (badCode c))
  match (Tab.at d.xpp.badAt (badCode c) : Option Nat) with
  | some t => if d.now < t + 1000000000 then d else report d
  | none => report d

/-- XPP_MESSAGE_DISCARD (R329): `MAGIC`, `VER`, `CRC`, `LEN`, the UDP checksum or a fragment. -/
def execXppMessageDiscard (port : Fin 3) (cause : BadCause) (s : State) : Out :=
  s.act fun d => if d.domOn .net then d.discard port.val cause else d

/-- No valid `net` record is held: the HK server listens on the management port alone, to any sender (16, R380). -/
def Dev.noNet (d : Dev) : Bool := d.boot.content.isNone

/-- The role of a sender (14, R330). -/
def Dev.roleOf (d : Dev) (h : XppHdr) : Option Role :=
  if d.noNet then some .mt
  else [Role.pc, Role.js, Role.mt].find? (fun r => d.rd .XPP_ID_ID r.idx != 0 && d.rd .XPP_ID_ID r.idx = h.source.toNat
    && d.rd .XPP_IP_IP r.idx = h.ip.toNat)

/-- What reception makes of a message: nothing to do, a duplicate of a role, a request of a role. -/
inductive Recv where
  | none
  | dup (r : Role)
  | got (r : Role)
  deriving DecidableEq, Repr

/-- The descriptor bytes of an accepted message, for XCP or XCJ, while SV0 serves (R334). -/
def Dev.toRing (d : Dev) (r : Role) (h : XppHdr) : Dev :=
  if !d.runs .sv0 then d
  else
    let x : XcDesc := { ring := if r = .js then 47 else 46, ip := h.ip.toNat, udp := h.udp.toNat, port := h.port.val,
                        mt := decide (r = .mt), tarr := tns d.now + 2 ^ 30 * (tsec d.now % 4) }
    { d with xpp := { d.xpp with rings := d.xpp.rings ++ [x] } }

/-- A message is accepted: its `SEQ` is the reference, and one of the last 64. -/
def Dev.taken (d : Dev) (r : Role) (h : XppHdr) (fresh : Bool) : Dev :=
  let p := d.peer r
  let old := if fresh then [] else p.accepted
  (d.setPeer r { p with ref := some h.seq.toNat, accepted := (⟨h.seq.toNat, .none⟩ :: old).take 64, heard := d.now }).toRing r h

/-- Sequence rule of R331 for a message of a role. -/
def Dev.sequence (d : Dev) (r : Role) (x : XppIn) : Dev × Recv :=
  let seq := x.hdr.seq.toNat
  if x.req = .hello then (if reqState .hello d.st then d.taken r x.hdr true else d, .got r)
  else
    match (d.peer r).ref with
    | some ref =>
      let step := unsign 32 ((seq : Int) - ref)
      if 1 ≤ step ∧ step < 2 ^ 31 then (d.taken r x.hdr false, .got r)
      else if (d.peer r).accepted.any (fun a => a.seq = seq) then (d.inc .XPP_CNT_DUP, .dup r)
      else (d.discard x.hdr.port.val .sequence, .none)
    | none => (d.discard x.hdr.port.val .sequence, .none)

/-- Receive a message whose framing is good (R329 to R331). A request that no payload of 1,440 bytes holds comes as no whole datagram, and
is discarded (R328). -/
def Dev.receive (d : Dev) (x : XppIn) : Dev × Recv :=
  if !d.domOn .net || (d.noNet && x.hdr.port.val != 2) then (d, .none)
  else if !x.req.wf then (d.discard x.hdr.port.val .header, .none)
  else
    match d.roleOf x.hdr with
    | some r => d.sequence r x
    | none => (d.discard x.hdr.port.val .identity, .none)

/-! ### Answers (R332, R333, R335) -/

/-- Send the answer to a request and keep it for a duplicate; a NACK sent is counted. -/
def Dev.answer (d : Dev) (r : Role) (seq : Nat) (m : XppMsg) : Dev :=
  let p := d.peer r
  let keep := fun (a : Answered) => if a.seq = seq then { a with resp := some m } else a
  let d := d.setPeer r { p with accepted := p.accepted.map keep }
  let d := match m with
    | .nack .. => if d.up r then d.inc .XPP_NCNT_NACK else d
    | _ => d
  d.send r m

/-- Answer a request with a NACK. -/
def Dev.refuse (d : Dev) (r : Role) (x : XppIn) (n : Nack) : Dev := d.answer r x.hdr.seq.toNat (.nack x.hdr.seq.toNat n.code)

/-- Answer a duplicate again with the response that it had. -/
def Dev.answerDup (d : Dev) (r : Role) (seq : Nat) : Dev :=
  match (d.peer r).accepted.find? (fun a => a.seq = seq) with
  | some a =>
    match a.resp with
    | some m => d.send r m
    | none => d
  | none => d

/-- Send again the kept messages from `seq` on, oldest first (R333). -/
def Dev.resendKept (d : Dev) (r : Role) (seq : Nat) : Dev :=
  if d.up r then
    d.forEach ((d.peer r).kept.reverse.filter (fun x => decide (seq ≤ x.1))) (fun d x => d.emit (.xpp r x.1 x.2))
  else d

/-- The oldest message asked for is no longer kept. -/
def Dev.keptGone (d : Dev) (r : Role) (seq : Nat) : Bool :=
  match (d.peer r).gone with
  | some g => decide (seq ≤ g)
  | none => false

/-- HELLO is carried out (R335, R336): the peer is UP; the hold for a lost press controller clears. Answers the data of its ACK. -/
def Dev.helloFrom (d : Dev) (r : Role) (h : XppHdr) : Dev × List Byte :=
  let d := if d.up r then d else (d.setBit .XPP_PEER_UP r.idx).raise Ev.XPP_PEER_UP (le 1 r.idx ++ le 4 h.ip.toNat ++ le 1 h.port.val)
  let d := if r = .pc && d.held .pcLost then d.clearHold .pcLost else d
  (d, le 4 Config.modid.toNat ++ le 4 d.variantCode ++ le 4 (d.rd .CR_BOOTCNT_N) ++ le 4 (d.rd .FIRE_CPM_CPM)
    ++ le 4 (d.rd .XPP_CTL_HBTO))

/-- No message of the peer has been accepted for `HBTO` (R335). -/
def Dev.silent (d : Dev) (role : Nat) : Bool := d.passed (Tab.at d.xpp.peers role : Peer).heard (1000000 * d.rd .XPP_CTL_HBTO)

/-- XPP_PEER_LOST (R335, R336). -/
def execXppPeerLost (role : Fin 3) (s : State) : Out :=
  s.act fun d =>
    if !bitOf (d.rd .XPP_PEER_UP) role.val || !d.silent role.val then d
    else
      let d := (d.clrBit .XPP_PEER_UP role.val).raise Ev.XPP_PEER_LOST (le 1 role.val)
      if role.val = 0 && d.st.running then d.holdCause .pcLost else d

/-- STATUS_PERIOD (R337). -/
def execStatusPeriod (s : State) : Out := s.act fun d => if d.domOn .net then d.sendStatus else d

end Sys2Proof.Machine
end

