-- ==== Sys2Proof/Machine/Nvm.lean ====
section
/-! DEFINITION. Crown and NVM operations (16, R388 to R393, Table 16-6): sessions, the lock, the debug port, PRESENCE#. -/
namespace Sys2Proof.Machine

/-- The session is open. -/
def Dev.session (d : Dev) : Bool := d.flag .CR_PRES_SESSION

/-- PRESENCE# is held low. -/
def Dev.present (d : Dev) : Bool := d.flag .CR_PRES_PRES

/-- The gate of an operation of a session (R389, R391). -/
def Dev.sessionGate (d : Dev) (k : Dev → Dev × Option Nack) : Dev × Option Nack :=
  if !d.present then (d, some .presence) else if !d.session then (d, some .state) else k d

/-- The gate of an operation that needs PRESENCE#. -/
def Dev.presenceGate (d : Dev) (k : Dev → Dev × Option Nack) : Dev × Option Nack :=
  if !d.present then (d, some .presence) else k d

/-- Bytes from `ofs` on lie inside the span of the session. -/
def Dev.inSpan (d : Dev) (ofs len : Nat) : Bool :=
  decide (spanBase (d.rd .CR_PRES_SPAN) ≤ ofs) && decide (ofs + len ≤ spanBase (d.rd .CR_PRES_SPAN) + spanLen)

/-- NVM_OPEN (R390): only while the other span's image passes R377. -/
def Dev.nvmOpen (d : Dev) (span : Nat) : Dev × Option Nack :=
  d.presenceGate fun d =>
    if d.session then (d, some .state)
    else if (d.imgCheck (1 - span)).1 != .ok then (d, some .state)
    else (((d.wr .CR_PRES_SESSION 1).wr .CR_PRES_SPAN span).raise Ev.NVM_SESSION (le 1 span ++ le 1 1), none)

/-- NVM_ERASE: whole sectors of the span. -/
def Dev.nvmErase (d : Dev) (ofs sectors : Nat) : Dev × Option Nack :=
  d.sessionGate fun d =>
    if ofs % 65536 != 0 || !d.inSpan ofs (sectors * 65536) then (d, some .range) else (d.norStart (.erase ofs sectors), none)

/-- NVM_WRITE: bytes of the span. -/
def Dev.nvmWrite (d : Dev) (ofs : Nat) (data : List Byte) : Dev × Option Nack :=
  d.sessionGate fun d => if d.inSpan ofs data.length then (d.norStart (.program ofs data), none) else (d, some .range)

/-- NVM_CLOSE (R392): with the lock in force, a header without `LOCK` or with a lower `IMGVER` is erased and the close refused. -/
def Dev.nvmClose (d : Dev) : Dev × Option Nack :=
  d.sessionGate fun d =>
    let span := d.rd .CR_PRES_SPAN
    let h := d.hdr span
    if d.flag .CR_PRES_LOCK && (!h.lock || decide (h.imgver < d.rd .CR_IMGVER_VER)) then
      (d.norStart (.erase (spanBase span) 1), some .range)
    else (((d.wr .CR_PRES_SESSION 0).wr .CR_PRES_SPAN 0).raise Ev.NVM_SESSION (le 1 span ++ le 1 0), none)

/-- DEBUG_ENABLE (R392, R393). -/
def Dev.debugEnable (d : Dev) : Dev × Option Nack :=
  d.presenceGate fun d =>
    if d.flag .CR_PRES_LOCK then (d, some .state)
    else if d.flag .CR_PRES_DBG then (d, none)
    else ((d.wr .CR_PRES_DBG 1).raise Ev.DEBUG_ENABLED, none)

/-- A header with another `LOCK` and its `HCRC` (Table 16-4). -/
def relock (b : List Byte) (lock : Nat) : List Byte :=
  let w := fieldAt b 6 2
  let b := b.take 6 ++ le 2 (w / 2 * 2 + lock) ++ (b.take 60).drop 8
  b ++ le 4 (crc32c b).toNat

/-- Rewrite the header of an image with another `LOCK`. -/
def Dev.rewriteHeader (d : Dev) (img lock : Nat) : Dev :=
  let b := relock (d.norRead (spanBase img) 64) lock
  (d.norStart (.erase (spanBase img) 1)).norStart (.program (spanBase img) b)

/-- LOCK_SET (R392): the backup header, then the primary; the lock in force follows the header in use. -/
def Dev.lockSet (d : Dev) (lock : Nat) : Dev × Option Nack :=
  d.presenceGate fun d =>
    let d := (d.rewriteHeader 1 lock).rewriteHeader 0 lock
    let d := match d.boot.hdr with
      | some h => ({ d with boot := { d.boot with hdr := some { h with lock := decide (lock = 1) } } }).wr .CR_PRES_LOCK lock
      | none => d
    (d.raise Ev.LOCK_CHANGED (le 1 lock), none)

/-- LOG_ERASE: refused while an uncleared shutdown record is held. -/
def Dev.logErase (d : Dev) : Dev × Option Nack :=
  d.presenceGate fun d => if d.uncleared.isSome then (d, some .state) else (d.norStart .logErase, none)

/-- The records that LOG_READ asks for, newest first; none when the index names no record. -/
def Dev.logRead (d : Dev) (index count : Nat) : Option (List Byte) :=
  if index < d.logRecs.length then some (((d.logRecs.drop index).take count).flatMap (·.bytes)) else none

/-- NVM_CRC over the NOR's address range; none where the bytes lie outside its 512 MiB. -/
def Dev.nvmCrc (d : Dev) (ofs len : Nat) : Option (List Byte) :=
  if ofs + len ≤ 536870912 then some (le 4 (crc32c (d.norRead ofs len)).toNat) else none

/-! ### PRESENCE# (R388, R391) -/

/-- PRESENCE_ASSERT (R388): the filtered input goes low. -/
def execPresenceAssert (s : State) : Out := s.act (·.wr .CR_PRES_PRES 1)

/-- `TYPE` of the operation that PRESENCE# interrupts: the session, or writes deferred by a supply warning. -/
def Dev.interrupted (d : Dev) : Option Nat :=
  if d.session then some 0x60
  else
    d.pwr.deferred.findSome? (fun o => match o with
      | .log _ => none
      | .erase .. | .program .. => some 0x67
      | .logErase => some 0x69)

/-- A write of the event log, which PRESENCE# does not gate. -/
def NorOp.isLog : NorOp → Bool
  | .log _ => true
  | _ => false

/-- PRESENCE_LOST (R391): the session or operation ends, what it has not issued is not issued. -/
def execPresenceLost (s : State) : Out :=
  s.act fun d =>
    let op := d.interrupted
    let d := ((d.wr .CR_PRES_PRES 0).wr .CR_PRES_SESSION 0).wr .CR_PRES_SPAN 0
    let d : Dev := { d with pwr := { d.pwr with deferred := d.pwr.deferred.filter NorOp.isLog } }
    match op with
    | some t => d.raise Ev.PRESENCE_LOST (le 2 t)
    | none => d

end Sys2Proof.Machine
end

