-- ==== Sys2Proof/Machine/Orders.lean ====
section
/-! DEFINITION. What an accepted request does when it is carried out at the end of its arbitration window (14, Table 14-3; 01,
Table 1-9; 16, Table 16-6). -/
namespace Sys2Proof.Machine

/-- Outcome of a request that is carried out: an ACK with bytes, an ACK with the data of JOB_STATUS, a NACK, or no answer. -/
inductive Done where
  | ack (data : List Byte)
  | ackJob (data : List Nat)
  | nack (n : Nack)
  | silent
  deriving DecidableEq, Repr

/-- An ACK without data. -/
def Done.ok : Done := .ack []

/-- The outcome of an operation that answers a refusal or none. -/
def Done.of (x : Dev × Option Nack) : Dev × Done :=
  match x.2 with
  | some n => (x.1, .nack n)
  | none => (x.1, .ok)

/-! ### Start, stop, hold, resume (01, Table 1-9; 02, R424; 06, R151, R163; 13, R327) -/

/-- Sleeping and parked lanes of the bars are woken for lines to come (07, R196). -/
def Dev.wakeLanes (d : Dev) : Dev := d.forEach (d.bars.flatMap (fun b => d.slotsOf b.bar)) Dev.askWake

/-- ARMED, or first the change to DDR5-6400 (13, R327). -/
def Dev.arm (d : Dev) : Dev :=
  if d.rd .MEM_CTL_CUR = 0 then d.enter .armed else { d.wr .MEM_CTL_REQ 0 with freqWait := true }

/-- START (R151): places a LOADED job at the head of the LOADED jobs. -/
def Dev.orderStart (d : Dev) (jn mode : Nat) (origin : Int) : Dev × Done :=
  match d.job jn with
  | none => (d, .nack .unknownJob)
  | some j =>
    if j.st != .loaded || d.freeEntry.isNone then (d, .nack .state)
    else
      match d.startOrigin mode origin with
      | none => (d, .nack .range)
      | some o =>
        let d : Dev := { (d.jobFirst jn).place jn o with suppressAuto := false }
        let d := d.wakeLanes
        (if d.st = .idle then d.arm else d, .ok)

/-- STOP (R424): in DRAINING without effect. -/
def Dev.orderStop (d : Dev) : Dev × Done :=
  match d.st with
  | .armed =>
    let d := d.stopQueue
    (if d.anyPlaced then d else d.enter .idle, .ok)
  | .printing => (d.stopQueue.enter .draining, .ok)
  | _ => (d, .ok)

/-- HOLD: an XPP hold cause until RESUME. -/
def Dev.orderHold (d : Dev) : Dev × Done := (d.holdCause .xpp, .ok)

/-- Every hold cause but the XPP hold has cleared. -/
def Dev.onlyXpp (d : Dev) : Bool := withoutBit (d.rd .AON_STATE_HOLDC) HoldBit.xpp.num = 0

/-- A skip is armed or still to be armed (06, R162). -/
def Dev.skipping (d : Dev) : Bool := d.fire.skips != [] || (List.range 16).any (fun i => d.flag .RW_SKIP_CTL_ARM i)

/-- RESUME (R163): refused while another hold cause holds or skips are still to be armed; BUSY while an earlier resume waits for the
memory. -/
def Dev.orderResume (d : Dev) : Dev × Done :=
  if d.freqWait then (d, .nack .busy)
  else if !d.onlyXpp || d.skipping then (d, .nack .state)
  else
    let d := Dev.clearHold { d with holdSeen := 0 } .xpp
    let (d, remains) := d.rePlace
    let d := d.wakeLanes
    ((if remains then d.arm else d.enter .idle).closeJobs, .ok)

/-! ### SAFE (01, Tables 1-5 and 1-9) -/

/-- The domains that SAFE powers down. -/
def safeDown : List Dom := [.rq0, .rq1, .rq2, .rq3, .dose, .za, .zb, .vis]

/-- Power down domains: their registers and what their units hold are lost. -/
def Dev.powerDown (d : Dev) (ds : List Dom) : Dev :=
  let d := { d with rf := d.rf.filter (fun e => !ds.elem (fldSpec e.1.1).dom || keptInReset e.1.1) }
  let d := d.forEach ds (fun d p => d.clrBit .AON_PDSTAT_ON p.bit)
  { d with lanes := [], dose := [], rwy := [], vis := [], curveSet := none, screenSet := none, reload := false }

/-- ENTER_SAFE: every engine stops but SV0 and HK. -/
def Dev.orderSafe (d : Dev) : Dev × Done :=
  let d := d.powerDown safeDown
  let d := { d with boot := { d.boot with running := [.hk, .sv0], safeBy := [.enterSafe] } }
  (d.enter .safe, .ok)

/-- The clear record of Table 16-7; `r` is the record cleared. -/
def Dev.clearRec (d : Dev) (source : Nat) (r : LogRec) : List Byte :=
  sealRec (le 4 magicClear ++ le 1 1 ++ le 1 source ++ le 2 0 ++ le 4 (tsec d.now) ++ le 4 (tns d.now)
    ++ le 4 (r.ofs - d.logArea.1))

/-- SHUTDOWN_ACK (12, R306): the clear record; the boot continues from the step after the Crown read when the record was the only
cause of SAFE. -/
def Dev.orderShutdownAck (d : Dev) (role : Role) : Dev × Done :=
  match d.uncleared with
  | none => (d, .nack .state)
  | some r =>
    if 98 * 16 < d.tj || 93 * 16 < d.td then (d, .nack .temp)
    else
      let d := d.logWrite (d.clearRec (if role = .pc then 0 else 1) r)
      let left := d.boot.safeBy.filter (· != .record)
      let d := { d with boot := { d.boot with safeBy := left } }
      (if left = [] then d.enter .boot else d, .ok)

/-! ### Axes and heads (11, R272, R273, R281, R287; 15, R365) -/

/-- The move group of an axis. -/
def Dev.groupOf (d : Dev) (a : Nat) : Option Nat :=
  (d.boot.content.bind (fun c => c.groups.find? (fun x => x.2.elem a))).map (·.1)

/-- AXIS_TARGET: an axis of a group holds it pending (R365). -/
def Dev.orderTarget (d : Dev) (a : Nat) (t : Int) : Dev × Done :=
  if !d.axAccepts a true then (d, .nack .state)
  else
    match d.groupOf a with
    | some g =>
      let since := ((d.ax a).pend.map (·.since)).getD d.now
      ((d.updAx a (fun x => { x with pend := some ⟨t, since⟩ })).groupTarget g, .ok)
    | none => (d.axTarget a t true, .ok)

/-- AXIS_HOME (R272). -/
def Dev.orderHome (d : Dev) (a : Nat) : Dev × Done :=
  if d.homing a then (d, .nack .busy) else if d.mayHome a then (d.axHome a, .ok) else (d, .nack .state)

/-- HEAT_SET: `HT_SP` and `HT_CFG.EN`. -/
def Dev.orderHeat (d : Dev) (h sp en : Nat) : Dev × Done := ((d.wr .HT_SP_SP sp h).wr .HT_CFG_EN en h, .ok)

/-- HEAD_CLEAR (R287): the heads of the mask. -/
def Dev.orderHeadClear (d : Dev) (mask : Nat) : Dev × Done :=
  (d.forEach ((List.range 64).filter (bitOf mask)) Dev.clearPlaus, .ok)

/-! ### The queue (02, Table 2-14, R44) -/

/-- JOB_CANCEL: BUSY while a cancel of the job is in progress. -/
def Dev.orderCancel (d : Dev) (jn : Nat) (abort : Bool) : Dev × Done :=
  match d.job jn with
  | none => (d, .nack .unknownJob)
  | some j =>
    match j.st with
    | .loaded | .placed => (d.cancelJob jn abort, .ok)
    | .active =>
      if j.finishing || j.aborted then (d, .nack .busy)
      else ((if abort then d else d.updJob jn (fun j => { j with finishing := true })).cancelJob jn abort, .ok)
    | _ => (d, .nack .state)

/-- QUEUE_ORDER: exactly the LOADED jobs, each once. -/
def Dev.orderQueue (d : Dev) (jns : List Nat) : Dev × Done :=
  if jns.any (fun n => (d.job n).isNone) then (d, .nack .unknownJob)
  else if decide (jns.eraseDups.length ≠ jns.length) || jns.length != d.loaded.length
      || !jns.all (fun n => d.loaded.any (fun j => j.jn = n)) then (d, .nack .range)
  else
    let rest := d.jobs.filter (fun j => j.st != .loaded)
    ({ d with jobs := rest ++ jns.filterMap d.job }, .ok)

/-- JOB_QUERY. -/
def Dev.orderQuery (d : Dev) (jn : Nat) : Dev × Done :=
  match d.job jn with
  | some j => (d, .ackJob (d.jobStatusData j))
  | none => (d, .nack .unknownJob)

/-- REG_READ: reads at level 1. -/
def Dev.orderRead (d : Dev) : List Nat → Dev × List Byte
  | [] => (d, [])
  | a :: t =>
    let (v, d) := d.readWord 1 a
    let (d, bs) := d.orderRead t
    (d, le 4 v ++ bs)

/-! ### Carrying out -/

/-- The answer of an operation that gives data or is out of range. -/
def dataOr (d : Dev) (x : Option (List Byte)) : Dev × Done :=
  match x with
  | some bs => (d, .ack bs)
  | none => (d, .nack .range)

/-- What a request of a role does; RESTART resets the module after its ACK (`State.carryOut`). -/
def Dev.carry (d : Dev) (r : Role) (x : XppIn) : Dev × Done :=
  match x.req with
  | .hello =>
    let (d, data) := d.helloFrom r x.hdr
    (d, .ack data)
  | .heartbeat => (d, .silent)
  | .noteResend seq => if d.keptGone r seq.toNat then (d, .nack .range) else (d, .ok)
  | .start jn mode origin => d.orderStart jn.toNat mode.toNat origin.toInt
  | .stop => d.orderStop
  | .hold => d.orderHold
  | .resume => d.orderResume
  | .speedLimit v => (d.wr .XPP_VLIM_V v.toNat, .ok)
  | .enterSafe => d.orderSafe
  | .restart => (d, .ok)
  | .shutdownAck => d.orderShutdownAck r
  | .rkRelease mask => (d.releaseRk mask.toNat, .ok)
  | .headClear mask => d.orderHeadClear mask.toNat
  | .axisTarget a t => d.orderTarget a.toNat t.toInt
  | .axisHome a => d.orderHome a.toNat
  | .heatSet h sp en => d.orderHeat h.toNat sp.toNat en.toNat
  | .jobCancel jn mode => d.orderCancel jn.toNat (mode.toNat = 1)
  | .queueOrder jns => d.orderQueue (jns.map (·.toNat))
  | .jobQuery jn => d.orderQuery jn.toNat
  | .regRead addrs =>
    let (d, bs) := d.orderRead (addrs.map (·.toNat))
    (d, .ack bs)
  | .nvmOpen span => Done.of (d.nvmOpen span.toNat)
  | .nvmErase ofs n => Done.of (d.nvmErase ofs.toNat n.toNat)
  | .nvmWrite ofs data => Done.of (d.nvmWrite ofs.toNat data)
  | .nvmCrc ofs len => dataOr d (d.nvmCrc ofs.toNat len.toNat)
  | .nvmClose => Done.of d.nvmClose
  | .debugEnable => Done.of d.debugEnable
  | .debugDisable => (d.wr .CR_PRES_DBG 0, .ok)
  | .lockSet l => Done.of (d.lockSet l.toNat)
  | .logRead index n => dataOr d (d.logRead index.toNat n.toNat)
  | .logErase => Done.of d.logErase
  | .malformed _ => (d, .nack .malformed)

/-- The answer that an outcome gives. -/
def Dev.reply (d : Dev) (r : Role) (seq : Nat) (o : Done) : Dev :=
  match o with
  | .ack data => d.answer r seq (.ack seq data)
  | .ackJob data => d.answer r seq (.ackJob seq data)
  | .nack n => d.answer r seq (.nack seq n.code)
  | .silent => d

/-- Carry out a request and answer it. -/
def Dev.carryOut (d : Dev) (r : Role) (x : XppIn) : Dev :=
  let (d, o) := d.carry r x
  let d := d.reply r x.hdr.seq.toNat o
  match x.req, o with
  | .noteResend seq, .ack _ => d.resendKept r seq.toNat
  | _, _ => d

/-- As `Dev.carryOut`; RESTART then resets every domain but PD_AON, and the code of the Reckoners that RK_RELEASE returns is loaded again
(03, R78). -/
def State.carryOut (s : State) (r : Role) (x : XppIn) : State :=
  let was := s.dev
  let s := { s with dev := s.dev.carryOut r x }
  match x.req with
  | .restart => s.moduleReset 2 .boot
  | .rkRelease _ => s.reloadFreed was
  | _ => s

end Sys2Proof.Machine
end

