-- ==== Sys2Proof/Machine/Press.lean ====
section
/-! DEFINITION. Arbitration windows and state events (14, R340 to R342; 01, R22 to R24, Table 1-9), the requests one by one, the discrete
inputs HOLD# and INHIBIT# (14, R343). -/
namespace Sys2Proof.Machine

/-! ### State events at the end of a period (01, R24, Table 1-9) -/

/-- The fire position has reached the first line of the first product on bar 0. -/
def Dev.reachedFirst (d : Dev) : Bool :=
  match d.fire.first with
  | some x => d.reached x
  | none =>
    match d.firstUnstarted with
    | some (p, n) => d.reached (d.duePos p n 0)
    | none => false

/-- Bar 0 still has lines to fire. -/
def Dev.bar0Busy (d : Dev) : Bool := d.barPlaced 0

/-- Every bar has fired its last line and every echo tally has been compared. -/
def Dev.allFired (d : Dev) : Bool := !d.anyPlaced && !d.integ.tally.any (fun e => !e.2.isEmpty)

/-- The transitions that follow from placement and firing. -/
def Dev.progress (d : Dev) : Dev :=
  let d := d.retireSent
  match d.st with
  | .armed =>
    if d.reachedFirst then d.enter .printing
    else if d.firstUnstarted.isNone && d.fire.first.isNone && !d.anyPlaced then d.enter .idle
    else d
  | .printing => if d.bar0Busy then d else d.enter .draining
  | .draining =>
    if d.firstUnstarted.isSome then d.enter .printing
    else if d.allFired then (d.enter .idle).closeJobs
    else d
  | _ => d

/-- A shutdown confirmed in the period, not taken yet, with its cause and the event it names. -/
def Dev.shutDue (d : Dev) : Option (Shut × Nat × Nat) := d.shut.bind (fun x => x.due.map (fun e => (x, e)))

/-- A HOLD that is due: a hold cause held in the period (R343). -/
def Dev.holdDue (d : Dev) : Bool := d.st.running && (d.rd .AON_STATE_HOLDC ||| d.holdSeen) != 0

/-- The state event of highest precedence that is not an order (01, R24): SHUTDOWN, then HOLD for any cause that held in the period.
Answers whether one of them was taken. -/
def Dev.stateEvents (d : Dev) : Dev × Bool :=
  match d.shutDue with
  | some (x, cause, event) => (d.enterShutdown x cause event, true)
  | none => if d.holdDue then (d.enterHold, true) else (d.progress, false)

/-- An XPP hold that has been carried out takes the device to HOLD. -/
def Dev.holdOrdered (d : Dev) : Dev := if d.st.running && d.held .xpp then d.enterHold else d

/-! ### Conflicts (14, R341, R342, Table 14-6) -/

/-- A request of a window with the role that sent it. -/
abbrev Live := Role × XppIn

/-- Two requests form a pair of Table 14-6, the first standing in its first column. -/
def conflictRow (a b : Live) : Bool :=
  match a.2.req, b.2.req with
  | .start jn .., .jobCancel jn' _ => jn = jn'
  | .start jn .., .queueOrder (j :: _) => j != jn
  | .start .., .enterSafe | .resume, .enterSafe => a.1 = .pc && b.1 = .mt
  | .speedLimit v, .speedLimit v' => v != v'
  | .shutdownAck, .restart => a.1 = .pc && b.1 = .mt
  | _, _ => false

/-- Two requests from different sources conflict. -/
def conflicting (a b : Live) : Bool := decide (a.1 ≠ b.1) && (conflictRow a b || conflictRow b a)

/-- Drop rank of a request (Table 14-3). -/
def Dev.rank (d : Dev) (q : XppReq) : Nat :=
  match q with
  | .hold | .enterSafe | .restart => 0
  | .stop => 1
  | .jobCancel _ mode => if mode.toNat = 1 then 0 else 1
  | .speedLimit v => if v.toNat < d.vCfg then 1 else 3
  | .rkRelease _ | .headClear _ | .axisTarget .. | .axisHome _ | .heatSet .. | .queueOrder _ => 2
  | _ => 3

/-- The role with the authority for a request's matter. -/
def authority : XppReq → Role
  | .jobCancel .. | .queueOrder _ => .js
  | _ => .pc

/-- The first of two conflicting requests wins. -/
def Dev.wins (d : Dev) (a b : Live) : Bool :=
  match a.2.req, b.2.req with
  | .speedLimit v, .speedLimit v' => decide (v.toNat < v'.toNat)
  | _, _ =>
    let ra := d.rank a.2.req
    let rb := d.rank b.2.req
    if ra = rb then a.1 = authority a.2.req else decide (ra < rb)

/-- `SOURCE`, `SEQ`, `TYPE` of a request. -/
def reqName (x : XppIn) : List Byte := le 4 x.hdr.source.toNat ++ le 4 x.hdr.seq.toNat ++ le 2 (reqType x.req)

/-- Log a conflict (R342). -/
def Dev.logConflict (d : Dev) (winner loser : Live) : Dev :=
  (d.inc .XPP_NCNT_CONFLICT).raise Ev.XPP_CONFLICT (reqName winner.2 ++ reqName loser.2)

/-- The conflicting pairs of a window, winner first, each pair once. -/
def Dev.conflicts (d : Dev) : List Live → List (Live × Live)
  | [] => []
  | a :: t => (t.filter (conflicting a)).map (fun b => if d.wins a b then (a, b) else (b, a)) ++ d.conflicts t

/-- Settle the conflicts of a window: the losers are answered CONFLICT; answers those that remain. -/
def Dev.settle (d : Dev) (live : List Live) : Dev × List Live :=
  let pairs := d.conflicts live
  let d := d.forEach pairs (fun d p => d.logConflict p.1 p.2)
  let lost := live.filter (fun a => pairs.any (fun p => p.2 = a))
  (d.forEach lost (fun d a => d.refuse a.1 a.2 .conflict), live.filter (fun a => !lost.elem a))

/-! ### The window (14, R340) -/

/-- Refuse the requests of a window for which `why` gives a code; answers those that remain. -/
def Dev.refuseBy (d : Dev) (why : Dev → Live → Option Nack) : List Live → Dev × List Live
  | [] => (d, [])
  | a :: t =>
    match why d a with
    | some n => (d.refuse a.1 a.2 n).refuseBy why t
    | none =>
      let (d, rest) := d.refuseBy why t
      (d, a :: rest)

/-- Receive the messages of a window: the requests accepted, and the duplicates by role and `SEQ`. -/
def Dev.receiveAll (d : Dev) : List XppIn → Dev × List Live × List (Role × Nat)
  | [] => (d, [], [])
  | x :: t =>
    let (d, got) := d.receive x
    let (d, live, dups) := d.receiveAll t
    match got with
    | .none => (d, live, dups)
    | .dup r => (d, live, (r, x.hdr.seq.toNat) :: dups)
    | .got r => (d, (r, x) :: live, dups)

/-- A request that the orders carried out before it have taken out of its states is refused. -/
def State.carryLive (s : State) (a : Live) : State :=
  if !s.dev.domOn .net then s
  else if reqState a.2.req s.dev.st then s.carryOut a.1 a.2
  else { s with dev := s.dev.refuse a.1 a.2 .state }

/-- The end of an evaluation period with the messages of its window in `TARR` order. -/
def State.window (s : State) (reqs : List XppIn) : State :=
  let was := s.dev.st
  let d := if was.idleToHold then s.dev.clearUnderrun else s.dev
  let (d, live, dups) := d.receiveAll reqs
  let (d, live) := d.refuseBy (fun d a => d.refusal was a.1 a.2.req) live
  let (d, taken) := d.stateEvents
  let (d, live) := d.refuseBy (fun _ a => if taken && reqOrdersState a.2.req then some .precedence else none) live
  let (d, live) := d.refuseBy (fun d a => if d.inhibited a.2.req then some .inhibited else none) live
  let (d, live) := d.settle live
  let s := live.foldl State.carryLive { s with dev := d }
  let d := s.dev.holdOrdered.freeEntries
  let d := d.forEach dups (fun d x => d.answerDup x.1 x.2)
  { s with dev := { d with holdSeen := 0 } }

/-- EVALUATION_PERIOD_END (R24, R340): `atSend` tells that a send point of bar 0 ended the period, whose SEND_POINT row follows. -/
def execEvaluationPeriodEnd (_atSend : Bool) (reqs : List XppIn) (s : State) : Out :=
  .next (if s.dev.st = .off then s else s.window reqs)

/-! ### One request alone in its window -/

/-- A request that is alone in its window: received, refused or carried out and answered. Its period is the one that is running: an order
of a state loses to a state event of higher precedence that the period already has (R24, R340). -/
def State.request (s : State) (x : XppIn) : State :=
  let (d, got) := s.dev.receive x
  match got with
  | .none => { s with dev := d }
  | .dup r => { s with dev := d.answerDup r x.hdr.seq.toNat }
  | .got r =>
    match d.refusal d.st r x.req with
    | some n => { s with dev := d.refuse r x n }
    | none =>
      if (d.shutDue.isSome || d.holdDue) && reqOrdersState x.req then { s with dev := d.refuse r x .precedence }
      else if d.inhibited x.req then { s with dev := d.refuse r x .inhibited }
      else
        let s := ({ s with dev := d }).carryOut r x
        if x.req = .hold then { s with dev := s.dev.holdOrdered } else s

/-- The outcome of a request alone in its window. -/
def State.req (s : State) (h : XppHdr) (q : XppReq) : Out := .next (s.request ⟨h, q⟩)

/-- HELLO (R335). -/
def execHello (h : XppHdr) (s : State) : Out := s.req h .hello
/-- HEARTBEAT (R335). -/
def execHeartbeat (h : XppHdr) (s : State) : Out := s.req h .heartbeat
/-- NOTE_RESEND (R333). -/
def execNoteResend (h : XppHdr) (seq : U32) (s : State) : Out := s.req h (.noteResend seq)
/-- START (R151). -/
def execStart (h : XppHdr) (jn : U32) (mode : Byte) (origin : BitVec 80) (s : State) : Out := s.req h (.start jn mode origin)
/-- STOP (R424). -/
def execStop (h : XppHdr) (s : State) : Out := s.req h .stop
/-- HOLD (R338). -/
def execHold (h : XppHdr) (s : State) : Out := s.req h .hold
/-- RESUME (R163). -/
def execResume (h : XppHdr) (s : State) : Out := s.req h .resume
/-- SPEED_LIMIT (R338). -/
def execSpeedLimit (h : XppHdr) (v : U32) (s : State) : Out := s.req h (.speedLimit v)
/-- ENTER_SAFE (R21). -/
def execEnterSafe (h : XppHdr) (s : State) : Out := s.req h .enterSafe
/-- RESTART (R21). -/
def execRestart (h : XppHdr) (s : State) : Out := s.req h .restart
/-- SHUTDOWN_ACK (R306). -/
def execShutdownAck (h : XppHdr) (s : State) : Out := s.req h .shutdownAck
/-- RK_RELEASE (R78). -/
def execRkRelease (h : XppHdr) (mask : U16) (s : State) : Out := s.req h (.rkRelease mask)
/-- HEAD_CLEAR (R287). -/
def execHeadClear (h : XppHdr) (mask : U64) (s : State) : Out := s.req h (.headClear mask)
/-- AXIS_TARGET (R273). -/
def execAxisTarget (h : XppHdr) (axis : Byte) (target : U32) (s : State) : Out := s.req h (.axisTarget axis target)
/-- AXIS_HOME (R272). -/
def execAxisHome (h : XppHdr) (axis : Byte) (s : State) : Out := s.req h (.axisHome axis)
/-- HEAT_SET (R281). -/
def execHeatSet (h : XppHdr) (slot : Byte) (sp : U16) (enable : Byte) (s : State) : Out := s.req h (.heatSet slot sp enable)
/-- JOB_CANCEL_FINISH (R46). -/
def execJobCancelFinish (h : XppHdr) (jn : U32) (s : State) : Out := s.req h (.jobCancel jn 0)
/-- JOB_CANCEL_ABORT (R46). -/
def execJobCancelAbort (h : XppHdr) (jn : U32) (s : State) : Out := s.req h (.jobCancel jn 1)
/-- QUEUE_ORDER (R44). -/
def execQueueOrder (h : XppHdr) (jns : List U32) (s : State) : Out := s.req h (.queueOrder jns)
/-- JOB_QUERY (R338). -/
def execJobQuery (h : XppHdr) (jn : U32) (s : State) : Out := s.req h (.jobQuery jn)
/-- REG_READ (R338). -/
def execRegRead (h : XppHdr) (addrs : List U32) (s : State) : Out := s.req h (.regRead addrs)
/-- NVM_OPEN (R390). -/
def execNvmOpen (h : XppHdr) (span : Byte) (s : State) : Out := s.req h (.nvmOpen span)
/-- NVM_ERASE (R389). -/
def execNvmErase (h : XppHdr) (ofs : U32) (sectors : U16) (s : State) : Out := s.req h (.nvmErase ofs sectors)
/-- NVM_WRITE (R389). -/
def execNvmWrite (h : XppHdr) (ofs : U32) (data : List Byte) (s : State) : Out := s.req h (.nvmWrite ofs data)
/-- NVM_CRC (R389). -/
def execNvmCrc (h : XppHdr) (ofs len : U32) (s : State) : Out := s.req h (.nvmCrc ofs len)
/-- NVM_CLOSE (R392). -/
def execNvmClose (h : XppHdr) (s : State) : Out := s.req h .nvmClose
/-- DEBUG_ENABLE (R393). -/
def execDebugEnable (h : XppHdr) (s : State) : Out := s.req h .debugEnable
/-- DEBUG_DISABLE (R393). -/
def execDebugDisable (h : XppHdr) (s : State) : Out := s.req h .debugDisable
/-- LOCK_SET (R392). -/
def execLockSet (h : XppHdr) (lock : Byte) (s : State) : Out := s.req h (.lockSet lock)
/-- LOG_READ (R389). -/
def execLogRead (h : XppHdr) (index : U32) (count : Byte) (s : State) : Out := s.req h (.logRead index count)
/-- LOG_ERASE (R389). -/
def execLogErase (h : XppHdr) (s : State) : Out := s.req h .logErase

/-! ### HOLD# and INHIBIT# (R343) -/

/-- A filtered input changes: its field of `XPP_DIN` and its event. -/
def Dev.dinChange (d : Dev) (f : Fld) (e : EvCode) (on : Bool) : Dev :=
  if d.flag f = on then d
  else
    let d := d.wr f (bit on)
    if d.st = .off then d else d.raise e (le 1 (bit on))

/-- HOLD_PIN_ASSERT (R343). -/
def execHoldPinAssert (s : State) : Out := s.act fun d => (d.dinChange .XPP_DIN_HOLD Ev.DIN_HOLD true).holdCause .pin

/-- HOLD_PIN_RELEASE (R343). -/
def execHoldPinRelease (s : State) : Out := s.act fun d => (d.dinChange .XPP_DIN_HOLD Ev.DIN_HOLD false).clearHold .pin

/-- The axes whose profiles run. -/
def Dev.movingAxes (d : Dev) : List Nat := (List.range 16).filter (fun a => (d.ax a).prof.run != .rest)

/-- INHIBIT_ASSERT (R343): also stops every moving axis. -/
def execInhibitAssert (s : State) : Out :=
  s.act fun d =>
    let d := (d.dinChange .XPP_DIN_INH Ev.DIN_INHIBIT true).holdCause .inhibit
    d.forEach d.movingAxes Dev.axStop

/-- INHIBIT_RELEASE (R343). -/
def execInhibitRelease (s : State) : Out := s.act fun d => (d.dinChange .XPP_DIN_INH Ev.DIN_INHIBIT false).clearHold .inhibit

end Sys2Proof.Machine
end

