-- ==== Sys2Proof/Machine/Dispatch.lean ====
section
/-! DEFINITION. One arm per command: its meaning, or its rejection by name. -/
namespace Sys2Proof.Machine

def exec (i : Instr) (s : State) : Host.Outcome State Fault Refusal :=
  match i with
  | .powerGood => Sys2Proof.Machine.execPowerGood s
  | .powerOnReset => Sys2Proof.Machine.execPowerOnReset s
  | .inputReset9v8 => Sys2Proof.Machine.execInputReset9v8 s
  | .overvoltageDisconnect => Sys2Proof.Machine.execOvervoltageDisconnect s
  | .supplyWarning mv => Sys2Proof.Machine.execSupplyWarning mv s
  | .supplyWarningClear lowest => Sys2Proof.Machine.execSupplyWarningClear lowest s
  | .debugReset => Sys2Proof.Machine.execDebugReset s
  | .crRestart lvl => Sys2Proof.Machine.execCrRestart lvl s
  | .crownHeaderRead sfdpMode sfdpSck => Sys2Proof.Machine.execCrownHeaderRead sfdpMode sfdpSck s
  | .crownFirstPass primary backup => Sys2Proof.Machine.execCrownFirstPass primary backup s
  | .dramTraining eyes => Sys2Proof.Machine.execDramTraining eyes s
  | .secondPass bad => Sys2Proof.Machine.execSecondPass bad s
  | .contentCheck => Sys2Proof.Machine.execContentCheck s
  | .engineRelease => Sys2Proof.Machine.execEngineRelease s
  | .rodBuild => Sys2Proof.Machine.execRodBuild s
  | .bootComplete => Sys2Proof.Machine.execBootComplete s
  | .hello h => Sys2Proof.Machine.execHello h s
  | .heartbeat h => Sys2Proof.Machine.execHeartbeat h s
  | .noteResend h seq => Sys2Proof.Machine.execNoteResend h seq s
  | .start h jn mode origin => Sys2Proof.Machine.execStart h jn mode origin s
  | .stop h => Sys2Proof.Machine.execStop h s
  | .hold h => Sys2Proof.Machine.execHold h s
  | .resume h => Sys2Proof.Machine.execResume h s
  | .speedLimit h v => Sys2Proof.Machine.execSpeedLimit h v s
  | .enterSafe h => Sys2Proof.Machine.execEnterSafe h s
  | .restart h => Sys2Proof.Machine.execRestart h s
  | .shutdownAck h => Sys2Proof.Machine.execShutdownAck h s
  | .rkRelease h mask => Sys2Proof.Machine.execRkRelease h mask s
  | .headClear h mask => Sys2Proof.Machine.execHeadClear h mask s
  | .axisTarget h axis target => Sys2Proof.Machine.execAxisTarget h axis target s
  | .axisHome h axis => Sys2Proof.Machine.execAxisHome h axis s
  | .heatSet h slot sp enable => Sys2Proof.Machine.execHeatSet h slot sp enable s
  | .jobCancelFinish h jn => Sys2Proof.Machine.execJobCancelFinish h jn s
  | .jobCancelAbort h jn => Sys2Proof.Machine.execJobCancelAbort h jn s
  | .queueOrder h jns => Sys2Proof.Machine.execQueueOrder h jns s
  | .jobQuery h jn => Sys2Proof.Machine.execJobQuery h jn s
  | .regRead h addrs => Sys2Proof.Machine.execRegRead h addrs s
  | .nvmOpen h span => Sys2Proof.Machine.execNvmOpen h span s
  | .nvmErase h ofs sectors => Sys2Proof.Machine.execNvmErase h ofs sectors s
  | .nvmWrite h ofs data => Sys2Proof.Machine.execNvmWrite h ofs data s
  | .nvmCrc h ofs len => Sys2Proof.Machine.execNvmCrc h ofs len s
  | .nvmClose h => Sys2Proof.Machine.execNvmClose h s
  | .debugEnable h => Sys2Proof.Machine.execDebugEnable h s
  | .debugDisable h => Sys2Proof.Machine.execDebugDisable h s
  | .lockSet h lock => Sys2Proof.Machine.execLockSet h lock s
  | .logRead h index count => Sys2Proof.Machine.execLogRead h index count s
  | .logErase h => Sys2Proof.Machine.execLogErase h s
  | .evaluationPeriodEnd atSend reqs => Sys2Proof.Machine.execEvaluationPeriodEnd atSend reqs s
  | .xppPeerLost role => Sys2Proof.Machine.execXppPeerLost role s
  | .statusPeriod => Sys2Proof.Machine.execStatusPeriod s
  | .holdPinAssert => Sys2Proof.Machine.execHoldPinAssert s
  | .holdPinRelease => Sys2Proof.Machine.execHoldPinRelease s
  | .inhibitAssert => Sys2Proof.Machine.execInhibitAssert s
  | .inhibitRelease => Sys2Proof.Machine.execInhibitRelease s
  | .presenceAssert => Sys2Proof.Machine.execPresenceAssert s
  | .presenceLost => Sys2Proof.Machine.execPresenceLost s
  | .bulkConnection conn hdr => Sys2Proof.Machine.execBulkConnection conn hdr s
  | .bulkConnectionClose conn => Sys2Proof.Machine.execBulkConnectionClose conn s
  | .ahnusRecord conn bytes poison => Sys2Proof.Machine.execAhnusRecord conn bytes poison s
  | .jobRecvTimeout jn => Sys2Proof.Machine.execJobRecvTimeout jn s
  | .commitmentPoint => Sys2Proof.Machine.execCommitmentPoint s
  | .autoPlacement => Sys2Proof.Machine.execAutoPlacement s
  | .workPost seeds => Sys2Proof.Machine.execWorkPost seeds s
  | .workSteal rk => Sys2Proof.Machine.execWorkSteal rk s
  | .bandColumnRendered rk tile => Sys2Proof.Machine.execBandColumnRendered rk tile s
  | .witnessDone rk wrong => Sys2Proof.Machine.execWitnessDone rk wrong s
  | .thirdRenderDone rk tile => Sys2Proof.Machine.execThirdRenderDone rk tile s
  | .cacheBuildDone rk tile => Sys2Proof.Machine.execCacheBuildDone rk tile s
  | .reckonerTrap rk cause poisoned => Sys2Proof.Machine.execReckonerTrap rk cause poisoned s
  | .renderWatchdog rk => Sys2Proof.Machine.execRenderWatchdog rk s
  | .strikeExpiry rk => Sys2Proof.Machine.execStrikeExpiry rk s
  | .rkcMittenWrite lvl val => Sys2Proof.Machine.execRkcMittenWrite lvl val s
  | .doseBandStart => Sys2Proof.Machine.execDoseBandStart s
  | .doseLine pipe checks => Sys2Proof.Machine.execDoseLine pipe checks s
  | .rodRefetch ch masterPoisoned => Sys2Proof.Machine.execRodRefetch ch masterPoisoned s
  | .tableReload => Sys2Proof.Machine.execTableReload s
  | .rodEnqueue lvl pipe rod => Sys2Proof.Machine.execRodEnqueue lvl pipe rod s
  | .rodCommit lvl pipe => Sys2Proof.Machine.execRodCommit lvl pipe s
  | .rodRelease lvl pipe => Sys2Proof.Machine.execRodRelease lvl pipe s
  | .rodWindowWrite lvl ch rod => Sys2Proof.Machine.execRodWindowWrite lvl ch rod s
  | .plTailWrite lvl pipe idx pages => Sys2Proof.Machine.execPlTailWrite lvl pipe idx pages s
  | .slotStart pipe => Sys2Proof.Machine.execSlotStart pipe s
  | .slotReady pipe streams => Sys2Proof.Machine.execSlotReady pipe streams s
  | .slotReadStart pipe checks => Sys2Proof.Machine.execSlotReadStart pipe checks s
  | .skipArm lvl pipe => Sys2Proof.Machine.execSkipArm lvl pipe s
  | .dmaTailWrite lvl r idx descs => Sys2Proof.Machine.execDmaTailWrite lvl r idx descs s
  | .dmaDescriptorDone r spec12 data tries poison => Sys2Proof.Machine.execDmaDescriptorDone r spec12 data tries poison s
  | .dmaHalt r => Sys2Proof.Machine.execDmaHalt r s
  | .dmaHaltClear lvl hi val => Sys2Proof.Machine.execDmaHaltClear lvl hi val s
  | .encoderCount a b => Sys2Proof.Machine.execEncoderCount a b s
  | .encoderIndex level => Sys2Proof.Machine.execEncoderIndex level s
  | .encNoindex => Sys2Proof.Machine.execEncNoindex s
  | .encLine which => Sys2Proof.Machine.execEncLine which s
  | .encStandstill => Sys2Proof.Machine.execEncStandstill s
  | .sendPoint bar => Sys2Proof.Machine.execSendPoint bar s
  | .fireRepredict => Sys2Proof.Machine.execFireRepredict s
  | .placementLinesLower lvl e lines => Sys2Proof.Machine.execPlacementLinesLower lvl e lines s
  | .laneEnable n => Sys2Proof.Machine.execLaneEnable n s
  | .blockLock n => Sys2Proof.Machine.execBlockLock n s
  | .lockLost n => Sys2Proof.Machine.execLockLost n s
  | .laneUp n farGen => Sys2Proof.Machine.execLaneUp n farGen s
  | .beaconPeriod n => Sys2Proof.Machine.execBeaconPeriod n s
  | .statusFrame n f => Sys2Proof.Machine.execStatusFrame n f s
  | .statusTimeout n => Sys2Proof.Machine.execStatusTimeout n s
  | .zlRecovStop n => Sys2Proof.Machine.execZlRecovStop n s
  | .doseFrameSend n poison => Sys2Proof.Machine.execDoseFrameSend n poison s
  | .heatPeriod => Sys2Proof.Machine.execHeatPeriod s
  | .echoFrame n f => Sys2Proof.Machine.execEchoFrame n f s
  | .echoTimeout n jn line => Sys2Proof.Machine.execEchoTimeout n jn line s
  | .rxFrameError n => Sys2Proof.Machine.execRxFrameError n s
  | .mgmtResponse n r => Sys2Proof.Machine.execMgmtResponse n r s
  | .txSleepRequest lvl n => Sys2Proof.Machine.execTxSleepRequest lvl n s
  | .rxSleepRequest lvl n => Sys2Proof.Machine.execRxSleepRequest lvl n s
  | .parkRequest lvl n => Sys2Proof.Machine.execParkRequest lvl n s
  | .laneWake n => Sys2Proof.Machine.execLaneWake n s
  | .loopModeWrite lvl n mode => Sys2Proof.Machine.execLoopModeWrite lvl n mode s
  | .loopTest lvl n errors => Sys2Proof.Machine.execLoopTest lvl n errors s
  | .markPoint jn pn poison => Sys2Proof.Machine.execMarkPoint jn pn poison s
  | .wasteMarkEnd => Sys2Proof.Machine.execWasteMarkEnd s
  | .sprFlush => Sys2Proof.Machine.execSprFlush s
  | .tallyFold lvl v => Sys2Proof.Machine.execTallyFold lvl v s
  | .tallyInB lvl v => Sys2Proof.Machine.execTallyInB lvl v s
  | .tallyInH lvl v => Sys2Proof.Machine.execTallyInH lvl v s
  | .tallyInW lvl v => Sys2Proof.Machine.execTallyInW lvl v s
  | .tallyValWrite lvl c v => Sys2Proof.Machine.execTallyValWrite lvl c v s
  | .triggerEnqueue lvl p hi => Sys2Proof.Machine.execTriggerEnqueue lvl p hi s
  | .cameraTrigger p => Sys2Proof.Machine.execCameraTrigger p s
  | .triggerPulseEnd p => Sys2Proof.Machine.execTriggerPulseEnd p s
  | .strobeStart p => Sys2Proof.Machine.execStrobeStart p s
  | .strobeEnd p => Sys2Proof.Machine.execStrobeEnd p s
  | .csiPacket p pkt => Sys2Proof.Machine.execCsiPacket p pkt s
  | .frameEnd p => Sys2Proof.Machine.execFrameEnd p s
  | .frameWatchdogTimeout p => Sys2Proof.Machine.execFrameWatchdogTimeout p s
  | .camResetDone p => Sys2Proof.Machine.execCamResetDone p s
  | .exposureCommit lvl p => Sys2Proof.Machine.execExposureCommit lvl p s
  | .i2cListComplete p => Sys2Proof.Machine.execI2cListComplete p s
  | .camI2cFail p entry => Sys2Proof.Machine.execCamI2cFail p entry s
  | .calStart lvl p => Sys2Proof.Machine.execCalStart lvl p s
  | .ffbaseWrite lvl p v => Sys2Proof.Machine.execFfbaseWrite lvl p v s
  | .gapMeasurement p jn pn frame bars => Sys2Proof.Machine.execGapMeasurement p jn pn frame bars s
  | .handoverStep bar => Sys2Proof.Machine.execHandoverStep bar s
  | .axsyncPeriod => Sys2Proof.Machine.execAxsyncPeriod s
  | .axisSample => Sys2Proof.Machine.execAxisSample s
  | .returnFrame p f => Sys2Proof.Machine.execReturnFrame p f s
  | .followingErrorFault a => Sys2Proof.Machine.execFollowingErrorFault a s
  | .limitTrip a high => Sys2Proof.Machine.execLimitTrip a high s
  | .limitLatchClear a high => Sys2Proof.Machine.execLimitLatchClear a high s
  | .homeInputChange a edge => Sys2Proof.Machine.execHomeInputChange a edge s
  | .homingTimeout a => Sys2Proof.Machine.execHomingTimeout a s
  | .axTgtWrite lvl a v => Sys2Proof.Machine.execAxTgtWrite lvl a v s
  | .axHome lvl a => Sys2Proof.Machine.execAxHome lvl a s
  | .axStop lvl a => Sys2Proof.Machine.execAxStop lvl a s
  | .axFclr lvl a => Sys2Proof.Machine.execAxFclr lvl a s
  | .axCcommit lvl a => Sys2Proof.Machine.execAxCcommit lvl a s
  | .htCcommit lvl h => Sys2Proof.Machine.execHtCcommit lvl h s
  | .heaterSample => Sys2Proof.Machine.execHeaterSample s
  | .headTempSample h => Sys2Proof.Machine.execHeadTempSample h s
  | .headPlaus h => Sys2Proof.Machine.execHeadPlaus h s
  | .traceArm lvl c => Sys2Proof.Machine.execTraceArm lvl c s
  | .epochEnd pwr vin => Sys2Proof.Machine.execEpochEnd pwr vin s
  | .hkTempDemand => Sys2Proof.Machine.execHkTempDemand s
  | .tempDemand lvl mask => Sys2Proof.Machine.execTempDemand lvl mask s
  | .tempConversionDone readings => Sys2Proof.Machine.execTempConversionDone readings s
  | .shutdownRecordWritten => Sys2Proof.Machine.execShutdownRecordWritten s
  | .shutdownPowerDown => Sys2Proof.Machine.execShutdownPowerDown s
  | .speedCeilPeriod => Sys2Proof.Machine.execSpeedCeilPeriod s
  | .refreshInterval c idle => Sys2Proof.Machine.execRefreshInterval c idle s
  | .mr4Poll c td => Sys2Proof.Machine.execMr4Poll c td s
  | .calWindowOpen => Sys2Proof.Machine.execCalWindowOpen s
  | .calWindowEnd rd wr done => Sys2Proof.Machine.execCalWindowEnd rd wr done s
  | .memCalLate => Sys2Proof.Machine.execMemCalLate s
  | .channelBRetrain eyes => Sys2Proof.Machine.execChannelBRetrain eyes s
  | .freqChange us => Sys2Proof.Machine.execFreqChange us s
  | .scrubRead addr outcome => Sys2Proof.Machine.execScrubRead addr outcome s
  | .writeDrain c => Sys2Proof.Machine.execWriteDrain c s
  | .ptpSync port offset delay => Sys2Proof.Machine.execPtpSync port offset delay s
  | .announceTimeout => Sys2Proof.Machine.execAnnounceTimeout s
  | .tbFallback => Sys2Proof.Machine.execTbFallback s
  | .tbMain => Sys2Proof.Machine.execTbMain s
  | .mgmtPtpFallback => Sys2Proof.Machine.execMgmtPtpFallback s
  | .mgmtPtpReturn => Sys2Proof.Machine.execMgmtPtpReturn s
  | .ringHoldFrame src hops rel cause seq => Sys2Proof.Machine.execRingHoldFrame src hops rel cause seq s
  | .ringStartFrame src hops group sec ns => Sys2Proof.Machine.execRingStartFrame src hops group sec ns s
  | .ringPulseFrame src hops second rt => Sys2Proof.Machine.execRingPulseFrame src hops second rt s
  | .ringStatusFrame src hops foreign state holdc flags present requests sec => Sys2Proof.Machine.execRingStatusFrame src hops foreign state holdc flags present requests sec s
  | .ringStatusSend => Sys2Proof.Machine.execRingStatusSend s
  | .ringHoldSend => Sys2Proof.Machine.execRingHoldSend s
  | .ringMemberLost id => Sys2Proof.Machine.execRingMemberLost id s
  | .ringDown => Sys2Proof.Machine.execRingDown s
  | .pulseSend => Sys2Proof.Machine.execPulseSend s
  | .countLatch => Sys2Proof.Machine.execCountLatch s
  | .groupStartTimeout g => Sys2Proof.Machine.execGroupStartTimeout g s
  | .evrBufferClose => Sys2Proof.Machine.execEvrBufferClose s
  | .registerWrite lvl addr val => Sys2Proof.Machine.execRegisterWrite lvl addr val s
  | .invalidRegisterAccess lvl addr width write => Sys2Proof.Machine.execInvalidRegisterAccess lvl addr width write s
  | .fireCntLoRead lvl => Sys2Proof.Machine.execFireCntLoRead lvl s
  | .firePosLoRead lvl => Sys2Proof.Machine.execFirePosLoRead lvl s
  | .tbNowSRead lvl => Sys2Proof.Machine.execTbNowSRead lvl s
  | .ringClSRead lvl => Sys2Proof.Machine.execRingClSRead lvl s
  | .ringHoldOriginatorTimeout id => Sys2Proof.Machine.execRingHoldOriginatorTimeout id s
  | .axisFeedbackChange a f => Sys2Proof.Machine.execAxisFeedbackChange a f s
  | .ptpAnnounce port best => Sys2Proof.Machine.execPtpAnnounce port best s
  | .ptpSyncInterval => Sys2Proof.Machine.execPtpSyncInterval s
  | .xppMessageDiscard port cause => Sys2Proof.Machine.execXppMessageDiscard port cause s
  | .ringFrameCrcFail => Sys2Proof.Machine.execRingFrameCrcFail s

end Sys2Proof.Machine
end

