-- ==== Sys2Proof/Machine/Idle.lean ====
section
/-! DEFINITION. What a step does while no command waits: one tick of the TIME domain passes. -/
namespace Sys2Proof.Machine

/-- A tick ends: products all of whose lines are settled close, now that no spoil of the tick can follow (08, R204), and the jobs that
waited for them end (02, Table 2-14). -/
def Dev.tickEnd (d : Dev) : Dev := d.tick.closeDue.closeJobs

/-- One tick of the block (assumption 2); buffers of EVR and SPR that are full close at its end (17, R404; 08, R214). -/
def State.tick (s : State) : State := State.closeFull { s with dev := s.dev.tickEnd }

end Sys2Proof.Machine
end

