-- ==== Sys2Proof/Safety.lean ====
section
/-! DEFINITION. What the statements about the machine say: which parts of the state a command leaves as they were, when a command
completes, the forms that every step keeps, and the conditions under which a register access or a request reaches its effect. -/
namespace Sys2Proof.Machine

/-! ### Parts of the state -/

/-- The parts of the state beside the register fields and the queue. -/
inductive Part where
  | variant | nor | tb | lc | boot | pwr | shut | holdSeen | xpp
  | jobs | ended | conns | suppressAuto | rk | dose | curveSet | screenSet | reload
  | rodMaster | rwy | lvSince | ratioHist | fire | lanes | integ | accounts | vis
  | loops | axes | axp | heat | trace | aba | temp | msub | freqWait
  | ptp | ring | evr | pins | out | freeCtr
  | dram
  deriving DecidableEq, Repr

/-- A part of the block is the same in two blocks; DRAM is no part of the block. -/
def Part.sameDev (p : Part) (d e : Dev) : Prop :=
  match p with
  | .variant => e.variant = d.variant
  | .nor => e.nor = d.nor
  | .tb => e.tb = d.tb
  | .lc => e.lc = d.lc
  | .boot => e.boot = d.boot
  | .pwr => e.pwr = d.pwr
  | .shut => e.shut = d.shut
  | .holdSeen => e.holdSeen = d.holdSeen
  | .xpp => e.xpp = d.xpp
  | .jobs => e.jobs = d.jobs
  | .ended => e.ended = d.ended
  | .conns => e.conns = d.conns
  | .suppressAuto => e.suppressAuto = d.suppressAuto
  | .rk => e.rk = d.rk
  | .dose => e.dose = d.dose
  | .curveSet => e.curveSet = d.curveSet
  | .screenSet => e.screenSet = d.screenSet
  | .reload => e.reload = d.reload
  | .rodMaster => e.rodMaster = d.rodMaster
  | .rwy => e.rwy = d.rwy
  | .lvSince => e.lvSince = d.lvSince
  | .ratioHist => e.ratioHist = d.ratioHist
  | .fire => e.fire = d.fire
  | .lanes => e.lanes = d.lanes
  | .integ => e.integ = d.integ
  | .accounts => e.accounts = d.accounts
  | .vis => e.vis = d.vis
  | .loops => e.loops = d.loops
  | .axes => e.axes = d.axes
  | .axp => e.axp = d.axp
  | .heat => e.heat = d.heat
  | .trace => e.trace = d.trace
  | .aba => e.aba = d.aba
  | .temp => e.temp = d.temp
  | .msub => e.msub = d.msub
  | .freqWait => e.freqWait = d.freqWait
  | .ptp => e.ptp = d.ptp
  | .ring => e.ring = d.ring
  | .evr => e.evr = d.evr
  | .pins => e.pins = d.pins
  | .out => e.out = d.out
  | .freeCtr => e.freeCtr = d.freeCtr
  | .dram => True

/-- A part is the same in two states. -/
def Part.same (p : Part) (s t : State) : Prop := if p = .dram then t.dram = s.dram else p.sameDev s.dev t.dev

/-- Between two states nothing has changed but the parts `ps` and the register fields `fs`; every element of a field's array
counts to the field. The queue has not changed. -/
def Unchanged (ps : List Part) (fs : List Fld) (s t : State) : Prop :=
  (∀ p, p ∉ ps → p.same s t) ∧ (∀ f, f ∉ fs → ∀ i j, t.dev.rd f i j = s.dev.rd f i j) ∧ t.pending = s.pending

/-! ### Forms that every step keeps -/

/-- The register table lists keys strictly rising, no entry at its Reset column, every value within its field's width. -/
def Dev.regsWf (d : Dev) : Prop :=
  Tab.wf regLt (fun k => (fldSpec k.1).reset) d.rf = true ∧ ∀ x ∈ d.rf, x.2 < 2 ^ (fldSpec x.1.1).width

/-- The bytes of the NOR stand in their canonical form. -/
def Dev.norWf (d : Dev) : Prop := Tab.wf natLt (fun _ => Config.norUnlisted) d.nor.cells = true

/-- DRAM stands in its canonical form, within the address space of 64 GiB; no code word is listed as poisoned twice. -/
def Dram.ok (m : Dram) : Prop := m.wf = true ∧ (∀ x ∈ m.mem, x.1 < 2 ^ 36) ∧ m.poison.Nodup ∧ ∀ w ∈ m.poison, w < 2 ^ 29

/-- The forms of registers, NOR and DRAM. -/
def Inv (s : State) : Prop := s.dev.regsWf ∧ s.dev.norWf ∧ s.dram.ok

/-! ### Events -/

/-- An event is pending: its bit of `AON_EVPEND` of its class is 1 (17, R403, R405). -/
def Dev.evPending (d : Dev) (e : EvCode) : Prop := bitOf (d.rd .AON_EVPEND_PEND e.cls.idx) e.sub = true

/-! ### Completion -/

/-- A command answers a next state, and that state has a property. -/
def Gives (c : Instr) (s : State) (p : State → Prop) : Prop := ∃ t, exec c s = .next t ∧ p t

/-! ### Resets -/

/-- What a reset of every domain but PD_AON leaves (16, R371): the state and the cause; every register of another domain at its Reset
column (the filtered inputs HOLD# and INHIBIT# as they were); PD_AON's registers as before but for those in `fs`; no sensor value,
session or debug port of the boot before; DRAM without its contents (assumption 4). -/
def ResetTo (st : DState) (cause : Nat) (fs : List Fld) (s t : State) : Prop :=
  t.dev.st = st ∧ t.dev.rd .CR_STAT_RSTCAUSE = cause ∧
  (∀ f i j, keptInReset f = false → f ≠ .XPP_DIN_HOLD → f ≠ .XPP_DIN_INH → t.dev.rd f i j = (fldSpec f).reset) ∧
  t.dev.rd .XPP_DIN_HOLD = s.dev.rd .XPP_DIN_HOLD % 2 ∧ t.dev.rd .XPP_DIN_INH = s.dev.rd .XPP_DIN_INH % 2 ∧
  (∀ f i j, keptInReset f = true → f ∉ fs →
    f ∉ [.AON_STATE_STATE, .AON_STATE_HOLDC, .AON_STATE_STOPREQ, .AON_EVLOST_N, .AON_PDSTAT_ON, .AON_TDEM_BUSY, .AON_TEMP_VALID,
      .CR_STAT_IMG, .CR_STAT_RSTCAUSE, .CR_PRES_SESSION, .CR_PRES_SPAN, .CR_PRES_DBG] → t.dev.rd f i j = s.dev.rd f i j) ∧
  (∀ k, k < 10 → t.dev.rd .AON_TEMP_VALID k = 0) ∧
  t.dev.rd .AON_PDSTAT_ON = 1 ∧ t.dev.rd .AON_STATE_STOPREQ = 0 ∧ t.dev.rd .CR_PRES_SESSION = 0 ∧ t.dev.rd .CR_PRES_DBG = 0 ∧
  t.dev.boot.stage = .powerGood ∧ t.dev.jobs = [] ∧ t.dev.lanes = [] ∧ t.dram = ⟨[], []⟩ ∧ t.pending = s.pending

/-! ### Register accesses -/

/-- A write of the register at `a` at level `lvl` takes effect: no region refuses it, a register stands there, the variant has it and
its domain is powered (16, R385; 17, R397). -/
def Dev.Reaches (d : Dev) (lvl : Lvl) (a : Nat) : Prop :=
  d.allowed 0 a lvl true = true ∧
    ∃ r i j, findReg a = some (r, i, j) ∧ d.absent r i = false ∧ d.domOn (domOf r i) = true

/-! ### The boot timeline -/

/-- No entry of a list names the register that restarts the module. -/
def NoRestart (es : List (Nat × Nat)) : Prop :=
  ∀ e ∈ es, ∀ r i j, findReg e.1 = some (r, i, j) → r.fields.elem .CR_BOOTSEL_RESTART = false

/-! ### Requests -/

/-- A request of header `h` reaches its effect: it is received from a role as a new message (14, R329 to R331), the role may send it, the
device state and its fields allow it (R330, R338), no input inhibits it (R340), and its period has no state event that goes before it
(01, R24). -/
def Dev.Takes (d : Dev) (h : XppHdr) (q : XppReq) (r : Role) : Prop :=
  (d.receive ⟨h, q⟩).2 = .got r ∧ d.refusal d.st r q = none ∧ d.inhibited q = false ∧
    ((d.shutDue.isSome || d.holdDue) && reqOrdersState q) = false

/-- The newest output is an answer `m` to a role that is UP (14, R332, R335). -/
def Sent (r : Role) (m : XppMsg) (s t : State) : Prop := s.dev.up r = true → ∃ n, t.dev.out.head? = some (.xpp r n m)

/-- The newest output is the ACK to a request. -/
def Acked (r : Role) (h : XppHdr) (data : List Byte) (s t : State) : Prop := Sent r (.ack h.seq.toNat data) s t

/-- The newest output is the NACK to a request, with its code. -/
def Refused (r : Role) (h : XppHdr) (n : Nack) (s t : State) : Prop := Sent r (.nack h.seq.toNat n.code) s t

/-- The message that a row of one request brings. -/
def requestOf : Instr → Option XppIn
  | .hello h => some ⟨h, .hello⟩
  | .heartbeat h => some ⟨h, .heartbeat⟩
  | .noteResend h seq => some ⟨h, .noteResend seq⟩
  | .start h jn mode origin => some ⟨h, .start jn mode origin⟩
  | .stop h => some ⟨h, .stop⟩
  | .hold h => some ⟨h, .hold⟩
  | .resume h => some ⟨h, .resume⟩
  | .speedLimit h v => some ⟨h, .speedLimit v⟩
  | .enterSafe h => some ⟨h, .enterSafe⟩
  | .restart h => some ⟨h, .restart⟩
  | .shutdownAck h => some ⟨h, .shutdownAck⟩
  | .rkRelease h mask => some ⟨h, .rkRelease mask⟩
  | .headClear h mask => some ⟨h, .headClear mask⟩
  | .axisTarget h axis target => some ⟨h, .axisTarget axis target⟩
  | .axisHome h axis => some ⟨h, .axisHome axis⟩
  | .heatSet h slot sp enable => some ⟨h, .heatSet slot sp enable⟩
  | .jobCancelFinish h jn => some ⟨h, .jobCancel jn 0⟩
  | .jobCancelAbort h jn => some ⟨h, .jobCancel jn 1⟩
  | .queueOrder h jns => some ⟨h, .queueOrder jns⟩
  | .jobQuery h jn => some ⟨h, .jobQuery jn⟩
  | .regRead h addrs => some ⟨h, .regRead addrs⟩
  | .nvmOpen h span => some ⟨h, .nvmOpen span⟩
  | .nvmErase h ofs sectors => some ⟨h, .nvmErase ofs sectors⟩
  | .nvmWrite h ofs data => some ⟨h, .nvmWrite ofs data⟩
  | .nvmCrc h ofs len => some ⟨h, .nvmCrc ofs len⟩
  | .nvmClose h => some ⟨h, .nvmClose⟩
  | .debugEnable h => some ⟨h, .debugEnable⟩
  | .debugDisable h => some ⟨h, .debugDisable⟩
  | .lockSet h lock => some ⟨h, .lockSet lock⟩
  | .logRead h index count => some ⟨h, .logRead index count⟩
  | .logErase h => some ⟨h, .logErase⟩
  | _ => none

/-! ### Bytes of DRAM that a command stores to -/

/-- The `n` bytes from `a` on. -/
def InBytes (a n k : Nat) : Prop := a ≤ k ∧ k < a + n

/-- Every byte of DRAM outside `P` reads as before. -/
def KeepsOutside (P : Nat → Prop) (s t : State) : Prop := ∀ a, ¬ P a → memRead t.dram.mem a = memRead s.dram.mem a

/-- The fields that say where descriptors and pages lie. -/
def placeFields : List Fld :=
  [.DMA_RBASE_LO_ADDR, .DMA_RBASE_HI_ADDR, .DMA_RCFG_SIZE, .RW_PL_BASE_ADDR]

/-- Stores one after another, each of them only to bytes that `P` allows in the state in which it is made. -/
inductive Stores (P : State → Nat → Prop) : State → State → Prop
  | none {s t : State} : KeepsOutside (fun _ => False) s t → (∀ f ∈ placeFields, ∀ i, t.dev.rd f i = s.dev.rd f i) → Stores P s t
  | more {s u t : State} : KeepsOutside (P s) s u → (∀ f ∈ placeFields, ∀ i, u.dev.rd f i = s.dev.rd f i) → Stores P u t → Stores P s t

/-- The descriptor that ring `r` is at and the buffer that it names. -/
def AtDesc (r : Nat) (s : State) (k : Nat) : Prop :=
  ∃ a bs, s.ringDesc r = some (a, bs) ∧ (InBytes a 32 k ∨ InBytes (descBuf bs) (descLen bs) k)

/-- Pages of pipeline `i` from the page-list entry `page` on: at most 6, each of a pool of `pool` pages. -/
def InPages (pool i page : Nat) (s : State) (k : Nat) : Prop :=
  ∃ n, n < 6 ∧ s.pageNo i (page + n) < pool ∧ k / 65536 = s.pageNo i (page + n)

/-- No entry of a list arms a skip of the runway. -/
def NoSkip (es : List (Nat × Nat)) : Prop :=
  ∀ e ∈ es, ∀ r i j, findReg e.1 = some (r, i, j) → r.fields.elem .RW_SKIP_CTL_ARM = false

/-- DRAM is as before, or a reset of the module has lost it (assumption 4). -/
def DramKeptOrLost (s t : State) : Prop := t.dram = s.dram ∨ t.dram = ⟨[], []⟩

/-- A list of entries neither restarts the module nor arms a skip. -/
def Quiet (es : List (Nat × Nat)) : Prop := NoRestart es ∧ NoSkip es

/-- The command stores nothing in DRAM: every command but those named here. -/
def storesNothing : Instr → Bool
  | .dmaDescriptorDone .. | .dmaHalt .. | .dmaTailWrite .. | .evrBufferClose | .sprFlush | .csiPacket .. | .frameEnd .. | .frameWatchdogTimeout ..
  | .plTailWrite .. | .slotStart .. | .slotReady .. | .slotReadStart .. | .skipArm .. | .secondPass .. | .scrubRead .. | .registerWrite .. => false
  | .rodRelease .. => false
  | .powerOnReset | .inputReset9v8 | .overvoltageDisconnect | .debugReset | .crRestart .. | .restart .. | .contentCheck | .shutdownPowerDown
  | .evaluationPeriodEnd .. | .crownFirstPass .. | .engineRelease | .rodBuild | .bootComplete => false
  | _ => true

/-! ### Names for what many commands may change -/

/-- What raising an event may change beside its own bits: messages to the peers, armed trace channels, ring EVR. -/
def eventParts : List Part := [.xpp, .trace, .evr, .out]

/-- The fields of the event bits and of lost entries. -/
def eventFields : List Fld := [.AON_EVPEND_PEND, .AON_EVLOST_N]

/-- What a request may change beside its effect: counts of messages and of NACKs. -/
def requestFields : List Fld := eventFields ++ [.XPP_CNT_BAD, .XPP_CNT_DUP, .XPP_NCNT_NACK]

/-- What a register access may change beside its effect: the latches of refusals and bus errors. -/
def accessFields : List Fld :=
  eventFields ++ [.AON_BUSERR_LVL, .AON_BUSERR_WR, .AON_BUSERR_CAUSE, .AON_BUSERR_VALID, .AON_BUSERR_ADDR_ADDR, .NOC_PV_LVL, .NOC_PV_WR,
    .NOC_PV_SPACE, .NOC_PV_REGION, .NOC_PV_VALID, .NOC_PV_ADDR_ADDR]

/-- The parts that spoiling and closing products may change. -/
def spoilParts : List Part := [.xpp, .integ, .accounts, .loops, .trace, .evr, .out]

/-- The fields of product accounting. -/
def spoilFields : List Fld :=
  [.SP_STAT_OVF, .SP_STAT_LATE, .SP_PTAB_USED, .SP_PTAB_HIGH, .SP_GOOD_N, .SP_SPOILED_N, .SP_RECLOST_N, .SP_RCNT_N]

/-- The fields of a bar's due line and its trim. -/
def dueFields : List Fld := [.FIRE_TRIM_NEXT, .FIRE_TRIM_CUR, .FIRE_DUE_JN_JN, .FIRE_DUE_LINE_LINE]

/-- The counters of partial writes of DRAM. -/
def rmwFields : List Fld := [.MEM_UE_PPW, .MEM_RMW_N]

/-! ### Absent resources -/

/-- A request names an axis, a head slot or a lane that the variant does not have (00, R6; 14, R338). -/
def Dev.namesAbsent (d : Dev) : XppReq → Bool
  | .axisTarget a _ | .axisHome a => decide (d.nAxes ≤ a.toNat)
  | .heatSet slot _ _ => decide (d.nLanes ≤ slot.toNat)
  | .headClear mask => decide (2 ^ d.nLanes ≤ mask.toNat)
  | _ => false

end Sys2Proof.Machine
end

