-- ==== Sys2Proof/Certificates/Slice0/Obligations.lean ====
section
/-! DEFINITION. The statements for the provers, one definition each; OBLIGATIONS.json gives each its title, its tier and what it rests on. -/
section
open Sys2Proof Sys2Proof.Machine

/-- A step runs the command at the front of the queue, with the queue's rest (assumption 1). -/
def Obligations.StepRunsFront : Prop :=
  ∀ (c : Instr) (rest : List Instr) (s : State), step { s with pending := c :: rest } = exec c { s with pending := rest }

/-- On an empty queue one tick of 4 ns passes (assumption 2): R347's advance of both counters. Where no product and no job waits for an
end and no buffer of EVR or SPR is full, nothing else changes. -/
def Obligations.EmptyQueueTicks : Prop :=
  ∀ s : State, s.pending = [] → s.dev.tb.slewing = false →
    ∃ t, step s = .next t ∧ t.pending = [] ∧
      (s.dev.domOn .net = true →
        t.dev.tb.main = (s.dev.tb.main + (4 * 2 ^ 32 + 4 * 2 ^ 32 * s.dev.tb.rate / 1000000000 : Int).toNat)
          % (2 ^ 48 * 1000000000 * 2 ^ 32) ∧
        t.dev.tb.fb = (s.dev.tb.fb + (s.dev.rd .TB_FBINC_HI_INT * 2 ^ 32 + s.dev.rd .TB_FBINC_LO_FRAC)) % 2 ^ 96) ∧
      (s.dev.domOn .net = false → t.dev.tb = s.dev.tb) ∧
      (s.dev.integ.prods = [] → s.dev.jobs = [] → s.dev.evr.isFull = false → s.dev.integ.spr.isFull = false →
        Unchanged [Part.tb, Part.lc] [] s t)

/-- The state right after reset (17, R401). -/
def Obligations.ResetState : Prop :=
  (∀ (f : Fld) (i j : Nat), State.reset.dev.rd f i j = (fldSpec f).reset) ∧
  State.reset.dev.st = .boot ∧ State.reset.dev.boot.stage = .powerGood ∧ State.reset.dev.jobs = [] ∧
  (∀ e : EvCode, ¬ State.reset.dev.evPending e) ∧
  (∀ a n, memReadAll State.reset.dram.mem a n = List.replicate n Config.dramUnlisted) ∧ State.reset.dram.poison = [] ∧
  State.reset.pending = [] ∧ State.reset.dev.out = []

/-- The forms hold after reset. -/
def Obligations.ResetForms : Prop := Inv State.reset

/-- Every step keeps the forms: no register ever holds a value wider than its field. -/
def Obligations.StepKeepsForms : Prop := ∀ s t : State, Inv s → step s = .next t → Inv t

/-- Every command completes in every state, whatever its operands: none is refused and none faults. -/
def Obligations.EveryCommandCompletes : Prop := ∀ (c : Instr) (s : State), ∃ t, exec c s = .next t

/-- R407: only POWER_GOOD leaves OFF, and INPUT_RESET_9V8 ends in OFF. -/
def Obligations.OnlyPowerGoodLeavesOff : Prop :=
  (∀ (c : Instr) (s t : State), s.dev.st = .off → c ≠ .powerGood → exec c s = .next t → t.dev.st = .off) ∧
  (∀ s : State, s.dev.st = .off → Gives .powerGood s fun t => t.dev.st = .boot) ∧
  (∀ s : State, Gives .inputReset9v8 s fun t => t.dev.st = .off)

/-- R304's second sentence: only the removal of the input leaves SHUTDOWN. -/
def Obligations.OnlySupplyLeavesShutdown : Prop :=
  (∀ (c : Instr) (s t : State), s.dev.st = .shutdown → c ≠ .powerOnReset → c ≠ .inputReset9v8 → c ≠ .overvoltageDisconnect →
    exec c s = .next t → t.dev.st = .shutdown) ∧
  (∀ s : State, s.dev.st = .shutdown →
    Gives .powerOnReset s (fun t => t.dev.st = .off) ∧ Gives .inputReset9v8 s (fun t => t.dev.st = .off) ∧
    Gives .overvoltageDisconnect s (fun t => t.dev.st = .off))

/-- R371: the resets and what they leave. -/
def Obligations.ResetsReturnTheModule : Prop :=
  (∀ s : State, Gives .powerOnReset s fun t =>
    t.dev.st = .off ∧ (∀ f i j, f ≠ .AON_STATE_STATE → t.dev.rd f i j = (fldSpec f).reset) ∧ t.dram = ⟨[], []⟩ ∧
      t.pending = s.pending) ∧
  (∀ s : State, s.dev.st ≠ .off → Gives .inputReset9v8 s fun t =>
    ResetTo .off 1 [Fld.AON_EVPEND_PEND, Fld.CR_LOG_WP_OFS, Fld.AON_PWR_WARN, Fld.AON_PWR_VMIN] s t ∧ t.dev.rd .AON_PWR_WARN = 0 ∧
      t.dev.rd .AON_PWR_VMIN = min (s.dev.rd .AON_PWR_VMIN) 9800 % 2 ^ 16 ∧ t.dev.pins.href = false ∧
      t.dev.pins.relaysOpen = false) ∧
  (∀ s : State, s.dev.st ≠ .off → Gives .overvoltageDisconnect s fun t =>
    ResetTo .off 1 [Fld.AON_EVPEND_PEND, Fld.CR_LOG_WP_OFS, Fld.AON_PWR_WARN] s t ∧ t.dev.rd .AON_PWR_WARN = 0 ∧
      t.dev.pins.href = false ∧ t.dev.pins.relaysOpen = false) ∧
  (∀ s : State, s.dev.flag .CR_PRES_DBG = true → s.dev.st ≠ .off → s.dev.st ≠ .shutdown → Gives .debugReset s fun t =>
    ResetTo .boot 4 [] s t ∧ t.dev.pins.href = s.dev.pins.href ∧ t.dev.nor = s.dev.nor) ∧
  (∀ (lvl : Lvl) (s : State), s.dev.allowed 0 0x10010 lvl true = true → s.dev.st ≠ .off → s.dev.st ≠ .shutdown →
    Gives (.crRestart lvl) s fun t =>
      ResetTo .boot (if s.dev.flag .CR_BOOTSEL_BACKUP then 3 else 2) [] s t ∧ t.dev.pins.href = s.dev.pins.href ∧
        t.dev.nor = s.dev.nor)

/-- R301 and R302. -/
def Obligations.SupplyWarningTakesEffect : Prop :=
  (∀ (mv : U16) (s : State), s.dev.st ≠ .off → s.dev.flag .AON_PWR_WARN = false → Gives (.supplyWarning mv) s fun t =>
    t.dev.rd .AON_PWR_WARN = 1 ∧ t.dev.rd .AON_PWR_SEEN = 1 ∧ t.dev.rd .AON_PWR_VMIN = min (s.dev.rd .AON_PWR_VMIN) mv.toNat % 2 ^ 16 ∧
      t.dev.rd .AB_PLIM_CUR = s.dev.rd .AB_PLIM_FLOOR % 2 ^ 10 ∧ t.dev.rd .VL_CTL_FREEZE = 1 ∧ t.dev.evPending Ev.PWR_WARN) ∧
  (∀ (lowest : U16) (s : State), s.dev.flag .AON_PWR_WARN = true → Gives (.supplyWarningClear lowest) s fun t =>
    t.dev.rd .AON_PWR_WARN = 0 ∧ t.dev.rd .AON_PWR_VMIN = min (s.dev.rd .AON_PWR_VMIN) lowest.toNat % 2 ^ 16 ∧
      t.dev.rd .AB_PLIM_CUR = max (s.dev.rd .AB_PLIM_FLOOR)
        (s.dev.rd .AB_PLIM_CFG - (if s.dev.flag .AB_STAT_THROTTLE then s.dev.aba.cut else 0)) % 2 ^ 10 ∧
      t.dev.rd .VL_CTL_FREEZE = 0 ∧ t.dev.pwr.warnSince = none ∧ t.dev.pwr.deferred = [] ∧ t.dev.evPending Ev.PWR_CLEAR)

/-- R299: demand and conversion. -/
def Obligations.SensorsConvertOnDemand : Prop :=
  (∀ s : State, s.dev.st = .safe ∨ s.dev.st = .shutdown ∨ (s.dev.st = .boot ∧ s.dev.boot.stage.num ≥ BootStage.firstPass.num) →
    Gives .hkTempDemand s fun t => t.dev.rd .AON_TDEM_BUSY = 0x3FF ∧ t.dev.temp.sample = true) ∧
  (∀ (lvl : Lvl) (mask : BitVec 10) (s : State), s.dev.Reaches lvl 0x400 → Gives (.tempDemand lvl mask) s fun t =>
    t.dev.rd .AON_TDEM_BUSY = (s.dev.rd .AON_TDEM_BUSY ||| mask.toNat) % 2 ^ 10) ∧
  (∀ (readings : List U16) (s : State), Gives (.tempConversionDone readings) s fun t =>
    t.dev.rd .AON_TDEM_BUSY = 0 ∧
    ∀ k (h : k < readings.length), k < 10 →
      (bitOf (s.dev.rd .AON_TDEM_BUSY) k = true → t.dev.rd .AON_TEMP_T k = (readings[k]).toNat ∧ t.dev.rd .AON_TEMP_VALID k = 1) ∧
      (bitOf (s.dev.rd .AON_TDEM_BUSY) k = false →
        t.dev.rd .AON_TEMP_T k = s.dev.rd .AON_TEMP_T k ∧ t.dev.rd .AON_TEMP_VALID k = s.dev.rd .AON_TEMP_VALID k))

/-- R304, R305 and R345: a confirmed cause takes effect at the end of its evaluation period (01, R24); then the record, then power-down. -/
def Obligations.ShutdownRecordThenPowerDown : Prop :=
  (∀ (atSend : Bool) (x : Shut) (e : Nat × Nat) (s : State), s.dev.st ≠ .off → s.dev.shut = some x → x.due = some e →
    Gives (.evaluationPeriodEnd atSend []) s fun t =>
      t.dev.st = .shutdown ∧ ∃ y, t.dev.shut = some y ∧ y.due = none ∧ y.written = x.written) ∧
  (∀ (x : Shut) (s : State), s.dev.shut = some x → x.written = false → x.due = none → Gives .shutdownRecordWritten s fun t =>
    t.dev.shut = some { x with written := true } ∧
    (s.dev.rd .CR_LOG_BASE_COUNT ≠ 0 →
      t.dev.nor.log.head? = some ⟨s.dev.rd .CR_LOG_BASE_SECT * 65536 + s.dev.rd .CR_LOG_WP_OFS, x.record⟩)) ∧
  (∀ s : State, s.dev.mayPowerDown = true → Gives .shutdownPowerDown s fun t =>
    t.dev.st = .shutdown ∧ t.dev.rd .AON_PDSTAT_ON = 1 ∧ t.dev.pins.href = false ∧ t.dev.pins.relaysOpen = false ∧
      (∀ f i j, keptInReset f = false → t.dev.rd f i j = (fldSpec f).reset) ∧ t.dram = ⟨[], []⟩) ∧
  (∀ s : State, s.dev.flag .XPP_CTL_SCEN = true → s.dev.st.idleToHold = true → Gives .speedCeilPeriod s fun t =>
    t.dev.pins.sceil = some (min
      (s.dev.rd .XPP_SCEIL_PERIOD * 250 * (5 * s.dev.rd .XPP_SCFS_FS + 90 * min (s.dev.rd .AB_CEIL_C) (s.dev.rd .XPP_SCFS_FS))
        / (100 * s.dev.rd .XPP_SCFS_FS))
      ((1000000000 - tns s.dev.now) / 4)))

/-- R289, R292 and R293. -/
def Obligations.EpochEndTakesEffect : Prop :=
  (∀ (pwr vin : U16) (s : State), s.dev.st.idleToHold = true → s.dev.runs .sv1 = true →
    (1024 ≤ s.dev.aba.lines ∨ s.dev.aba.since + 10000000 ≤ s.dev.now) → Gives (.epochEnd pwr vin) s fun t =>
    t.dev.rd .AB_EPOCH_N = (s.dev.rd .AB_EPOCH_N + 1) % 2 ^ 32 ∧ t.dev.rd .AB_PIN_PWR = pwr.toNat ∧
      t.dev.rd .AB_PIN_VIN = vin.toNat ∧ t.dev.rd .AON_TDEM_BUSY = 0x3FF ∧ t.dev.temp.sample = true ∧
      (s.dev.rd .AB_LADDER_STEP ≤ 6 →
        t.dev.rd .AB_LADDER_STEP ≤ 6 ∧ t.dev.rd .AB_LADDER_STEP ≤ s.dev.rd .AB_LADDER_STEP + 1 ∧
          s.dev.rd .AB_LADDER_STEP ≤ t.dev.rd .AB_LADDER_STEP + 1)) ∧
  (∀ (pwr vin : U16) (s : State),
    s.dev.st.idleToHold = false ∨ (s.dev.aba.lines < 1024 ∧ s.dev.now < s.dev.aba.since + 10000000) →
    Gives (.epochEnd pwr vin) s fun t => t = s)

/-- The boot timeline (16, Table 16-1; R377 to R382; 13, R320). -/
def Obligations.BootTimelineAdvances : Prop :=
  (∀ (mode sck : Byte) (s : State), s.dev.bootAt .powerGood = true → Gives (.crownHeaderRead mode sck) s fun t =>
    t.dev.bootAt .headerRead = true ∧ t.dev.pins.href = true ∧ t.dev.rd .CR_BOOTSEL_BACKUP = 0 ∧ t.dev.rd .CR_STAT_IMG ≤ 2 ∧
      (s.dev.flag .CR_BOOTSEL_BACKUP = false → s.dev.hdrCheck 0 = .ok → t.dev.rd .CR_STAT_IMG = 0)) ∧
  (∀ (primary backup : CrownContent) (k : Nat) (s : State), s.dev.bootAt .headerRead = true → s.dev.rd .CR_STAT_IMG < 2 →
    s.dev.imgCheck (s.dev.rd .CR_STAT_IMG) = (.ok, k) →
    NoRestart ((s.dev.regsOf (s.dev.rd .CR_STAT_IMG)).filter early ++ (if s.dev.rd .CR_STAT_IMG = 0 then primary else backup).net) →
    Gives (.crownFirstPass primary backup) s fun t =>
      t.dev.boot.stage = .firstPass ∧ t.dev.boot.content = some (if s.dev.rd .CR_STAT_IMG = 0 then primary else backup) ∧
        t.dev.rd .CR_STAT_IMG = s.dev.rd .CR_STAT_IMG ∧
        (t.dev.uncleared.isSome = true → t.dev.st = .safe) ∧ (t.dev.uncleared = none → t.dev.st = .boot)) ∧
  (∀ (eyes : List (Byte × Byte)) (s : State), s.dev.bootAt .firstPass = true →
    (∀ e ∈ eyes.take 40, s.dev.rd .MEM_EYEMIN_TAPS ≤ min e.1.toNat e.2.toNat) → Gives (.dramTraining eyes) s fun t =>
      t.dev.bootAt .dramTrained = true ∧ t.dev.rd .MEM_CH_STAT_STATE 0 = 2 ∧ t.dev.rd .MEM_CH_STAT_STATE 1 = 2) ∧
  (∀ s : State, s.dev.bootAt .dramTrained = true → Gives (.secondPass []) s fun t => t.dev.bootAt .secondPass = true) ∧
  (∀ (c : CrownContent) (s : State), s.dev.bootAt .secondPass = true → s.dev.boot.content = some c →
    contentBad ⟨s.dev.isA32, c, s.dev.regsOf (s.dev.rd .CR_STAT_IMG), settings c (s.dev.regsOf (s.dev.rd .CR_STAT_IMG))⟩ = none →
    Gives .contentCheck s fun t => t.dev.bootAt .contentChecked = true ∧ t.dev.boot.running = [.hk, .sv0, .sv1]) ∧
  (∀ (c : CrownContent) (s : State), s.dev.bootAt .contentChecked = true → s.dev.boot.content = some c →
    NoRestart ((s.dev.regsOf (s.dev.rd .CR_STAT_IMG)).filter later ++ c.ring) → Gives .engineRelease s fun t =>
      t.dev.bootAt .released = true ∧ (∀ e : Engine, t.dev.runs e = true ∨ ∃ n, e = .rk n ∧ 16 ≤ n) ∧
        t.dev.rd .RKC_ACTIVE_COUNT = 16 ∧ t.dev.ring.running = true) ∧
  (∀ s : State, s.dev.bootAt .released = true →
    NoRestart ((s.dev.regsOf (s.dev.rd .CR_STAT_IMG)).filter forDpCfg) → Gives .rodBuild s fun t =>
      t.dev.bootAt .rodsBuilt = true) ∧
  (∀ (c : CrownContent) (s : State), s.dev.bootAt .rodsBuilt = true → s.dev.boot.content = some c →
    NoRestart (c.cams.flatMap (fun x => x.2) ++ c.axes ++ c.abacus) → Gives .bootComplete s fun t =>
      t.dev.st = .idle ∧ t.dev.pins.ready = true ∧ t.dev.boot.stage = .done)

/-- Failures of the boot timeline. -/
def Obligations.BootFailures : Prop :=
  (∀ (primary backup : CrownContent) (s : State), s.dev.bootAt .headerRead = true → s.dev.rd .CR_STAT_IMG = 2 →
    Gives (.crownFirstPass primary backup) s fun t =>
      t.dev.st = .safe ∧ t.dev.evPending Ev.CROWN_INVALID ∧ t.dev.rd .CR_LOG_BASE_COUNT = 0 ∧ t.dev.boot.running = [.hk]) ∧
  (∀ (bad : List U16) (s : State), s.dev.bootAt .dramTrained = true →
    (∃ r ∈ s.dev.recs (s.dev.rd .CR_STAT_IMG), secondPassReads r.type = true ∧ r.type ∈ bad.map (·.toNat)) →
    Gives (.secondPass bad) s fun t => t.dev.st = .safe ∧ t.dev.rd .CR_STAT_FAILCHK = 6) ∧
  (∀ (c : CrownContent) (ty : Nat) (s : State), s.dev.bootAt .secondPass = true → s.dev.boot.content = some c →
    contentBad ⟨s.dev.isA32, c, s.dev.regsOf (s.dev.rd .CR_STAT_IMG), settings c (s.dev.regsOf (s.dev.rd .CR_STAT_IMG))⟩ = some ty →
    Gives .contentCheck s fun t =>
      (s.dev.rd .CR_STAT_IMG = 0 → t.dev.st = .boot ∧ t.dev.rd .CR_STAT_RSTCAUSE = 3 ∧ t.dev.rd .CR_BOOTSEL_BACKUP = 1 ∧
        t.dev.boot.stage = .powerGood) ∧
      (s.dev.rd .CR_STAT_IMG ≠ 0 → t.dev.st = .safe ∧ t.dev.evPending Ev.CROWN_INVALID)) ∧
  (∀ (eyes : List (Byte × Byte)) (s : State), s.dev.bootAt .firstPass = true →
    (∃ e ∈ eyes.take 40, min e.1.toNat e.2.toNat < s.dev.rd .MEM_EYEMIN_TAPS) → Gives (.dramTraining eyes) s fun t =>
      t.dev.evPending Ev.MEM_TRAIN_FAIL ∧
      (s.dev.shut = none → ∃ x, t.dev.shut = some x ∧ x.due = some (3, Ev.MEM_TRAIN_FAIL.code)) ∧
      ∀ atSend, Gives (.evaluationPeriodEnd atSend []) t fun u => (s.dev.shut = none → u.dev.st = .shutdown)) ∧
  (∀ s : State,
    (s.dev.bootAt .powerGood = false → ∀ m k, exec (.crownHeaderRead m k) s = .next s) ∧
    (s.dev.bootAt .headerRead = false → ∀ p b, exec (.crownFirstPass p b) s = .next s) ∧
    (s.dev.bootAt .dramTrained = false → ∀ b, exec (.secondPass b) s = .next s) ∧
    (s.dev.bootAt .secondPass = false → exec .contentCheck s = .next s) ∧
    (s.dev.bootAt .contentChecked = false → exec .engineRelease s = .next s) ∧
    (s.dev.bootAt .released = false → exec .rodBuild s = .next s) ∧
    (s.dev.bootAt .rodsBuilt = false → exec .bootComplete s = .next s))

/-- Peers and queries (14, R329 to R338). -/
def Obligations.PressProtocolService : Prop :=
  (∀ (h : XppHdr) (r : Role) (s : State), s.dev.Takes h .hello r → Gives (.hello h) s fun t =>
    t.dev.up r = true ∧ (r = .pc → t.dev.held .pcLost = false) ∧
      ∃ n, t.dev.out.head? = some (.xpp r n (.ack h.seq.toNat
        (le 4 Config.modid.toNat ++ le 4 s.dev.variantCode ++ le 4 (s.dev.rd .CR_BOOTCNT_N) ++ le 4 (s.dev.rd .FIRE_CPM_CPM)
          ++ le 4 (s.dev.rd .XPP_CTL_HBTO))))) ∧
  (∀ (h : XppHdr) (r : Role) (s : State), s.dev.Takes h .heartbeat r → Gives (.heartbeat h) s fun t => Unchanged [Part.xpp] [] s t) ∧
  (∀ (h : XppHdr) (seq : U32) (r : Role) (s : State), s.dev.Takes h (.noteResend seq) r → s.dev.keptGone r seq.toNat = false →
    s.dev.up r = true → (s.dev.peer r).kept.length ≤ 1024 → Gives (.noteResend h seq) s fun t => ∃ n, t.dev.out =
      (((s.dev.peer r).kept.reverse.filter (fun x => decide (seq.toNat ≤ x.1))).map (fun x => Output.xpp r x.1 x.2)).reverse
        ++ .xpp r n (.ack h.seq.toNat []) :: s.dev.out) ∧
  (∀ (h : XppHdr) (jn : U32) (j : Job) (r : Role) (s : State), s.dev.Takes h (.jobQuery jn) r → s.dev.job jn.toNat = some j →
    Gives (.jobQuery h jn) s (Sent r (.ackJob h.seq.toNat (s.dev.jobStatusData j)) s)) ∧
  (∀ (h : XppHdr) (addrs : List U32) (r : Role) (s : State), s.dev.Takes h (.regRead addrs) r →
    Gives (.regRead h addrs) s
      (Acked r h ((s.dev.receive ⟨h, .regRead addrs⟩).1.orderRead (addrs.map (·.toNat))).2 s)) ∧
  (∀ (role : Fin 3) (s : State), bitOf (s.dev.rd .XPP_PEER_UP) role.val = true → s.dev.silent role.val = true →
    Gives (.xppPeerLost role) s fun t =>
    bitOf (t.dev.rd .XPP_PEER_UP) role.val = false ∧ t.dev.evPending Ev.XPP_PEER_LOST ∧
      (role.val = 0 → s.dev.st.running = true → t.dev.held .pcLost = true)) ∧
  (∀ s : State, s.dev.domOn .net = true → Gives .statusPeriod s fun t =>
    ∀ r : Role, s.dev.up r = true → ∃ n, Output.xpp r n (.status s.dev.statusPayload) ∈ t.dev.out) ∧
  (∀ (port : Fin 3) (cause : BadCause) (s : State), s.dev.domOn .net = true → Gives (.xppMessageDiscard port cause) s fun t =>
    t.dev.rd .XPP_CNT_BAD = min (s.dev.rd .XPP_CNT_BAD + 1) (2 ^ (fldSpec .XPP_CNT_BAD).width - 1))

/-- Orders for the device state (01, Table 1-9; 14, Table 14-3). -/
def Obligations.StateOrdersTakeEffect : Prop :=
  (∀ (h : XppHdr) (jn : U32) (mode : Byte) (origin : BitVec 80) (j : Job) (e : Nat) (o : Int) (r : Role) (s : State),
    s.dev.Takes h (.start jn mode origin) r → s.dev.job jn.toNat = some j → j.st = .loaded → s.dev.freeEntry = some e →
    s.dev.startOrigin mode.toNat origin.toInt = some o → Gives (.start h jn mode origin) s fun t =>
      (s.dev.st = .idle → s.dev.rd .MEM_CTL_CUR = 0 → t.dev.st = .armed) ∧
      (s.dev.st = .idle → s.dev.rd .MEM_CTL_CUR ≠ 0 → t.dev.st = .idle ∧ t.dev.freqWait = true ∧ t.dev.rd .MEM_CTL_REQ = 0) ∧
      (s.dev.st ≠ .idle → t.dev.st = s.dev.st) ∧ t.dev.suppressAuto = false ∧ Acked r h [] s t) ∧
  (∀ (h : XppHdr) (r : Role) (s : State), s.dev.Takes h .stop r → Gives (.stop h) s fun t =>
    (s.dev.st = .printing → t.dev.st = .draining) ∧ (s.dev.st = .draining → t.dev.st = .draining ∧ Unchanged [Part.xpp, Part.out] [] s t) ∧
      (s.dev.st = .armed → t.dev.st = .armed ∨ t.dev.st = .idle) ∧
      (s.dev.st ≠ .draining → t.dev.suppressAuto = true) ∧ Acked r h [] s t) ∧
  (∀ (h : XppHdr) (r : Role) (s : State), s.dev.Takes h .hold r → Gives (.hold h) s fun t =>
    t.dev.st = .hold ∧ t.dev.held .xpp = true) ∧
  (∀ (h : XppHdr) (r : Role) (s : State), s.dev.Takes h .resume r → s.dev.freqWait = false → s.dev.onlyXpp = true →
    s.dev.skipping = false → Gives (.resume h) s fun t =>
      t.dev.held .xpp = false ∧
        (t.dev.st = .armed ∨ t.dev.st = .idle ∨ (t.dev.st = .hold ∧ t.dev.freqWait = true ∧ t.dev.rd .MEM_CTL_REQ = 0)) ∧
        Acked r h [] s t) ∧
  (∀ (h : XppHdr) (v : U32) (r : Role) (s : State), s.dev.Takes h (.speedLimit v) r → Gives (.speedLimit h v) s fun t =>
    t.dev.rd .XPP_VLIM_V = v.toNat ∧ Acked r h [] s t) ∧
  (∀ (h : XppHdr) (r : Role) (s : State), s.dev.Takes h .enterSafe r → Gives (.enterSafe h) s fun t =>
    t.dev.st = .safe ∧ t.dev.boot.running = [.hk, .sv0] ∧ t.dev.boot.safeBy = [.enterSafe] ∧ t.dev.lanes = [] ∧
      (∀ p, p ∈ safeDown → t.dev.domOn p = false) ∧ Acked r h [] s t) ∧
  (∀ (h : XppHdr) (r : Role) (s : State), s.dev.Takes h .restart r → Gives (.restart h) s fun t => ResetTo .boot 2 [] s t) ∧
  (∀ (h : XppHdr) (rec : LogRec) (r : Role) (s : State), s.dev.Takes h .shutdownAck r → s.dev.uncleared = some rec →
    s.dev.tj ≤ 98 * 16 → s.dev.td ≤ 93 * 16 → Gives (.shutdownAck h) s fun t =>
      t.dev.boot.safeBy = s.dev.boot.safeBy.filter (· != .record) ∧
        (s.dev.boot.safeBy.filter (· != .record) = [] → t.dev.st = .boot) ∧
        (s.dev.boot.safeBy.filter (· != .record) ≠ [] → t.dev.st = .safe) ∧ Acked r h [] s t)

/-- Orders for Reckoners, heads, axes, heaters and the queue (14, Table 14-3). -/
def Obligations.PressOrdersTakeEffect : Prop :=
  (∀ (h : XppHdr) (mask : U16) (r : Role) (s : State), s.dev.Takes h (.rkRelease mask) r → Gives (.rkRelease h mask) s fun t =>
    (∀ i, i < 16 → bitOf mask.toNat i = true → s.dev.mittened i = true → t.dev.mittened i = false) ∧ Acked r h [] s t) ∧
  (∀ (h : XppHdr) (mask : U64) (r : Role) (s : State), s.dev.Takes h (.headClear mask) r → Gives (.headClear h mask) s fun t =>
    (∀ i, i < 64 → bitOf mask.toNat i = true → t.dev.flag .HT_STAT_PLAUS i = false) ∧
      (∀ i, bitOf mask.toNat i = false → t.dev.rd .HT_STAT_PLAUS i = s.dev.rd .HT_STAT_PLAUS i) ∧ Acked r h [] s t) ∧
  (∀ (h : XppHdr) (a : Byte) (tgt : U32) (r : Role) (s : State), s.dev.Takes h (.axisTarget a tgt) r →
    s.dev.axAccepts a.toNat true = true → s.dev.groupOf a.toNat = none → Gives (.axisTarget h a tgt) s fun t =>
      t.dev.rd .AX_TGT_POS a.toNat = tgt.toNat ∧ Acked r h [] s t) ∧
  (∀ (h : XppHdr) (a : Byte) (r : Role) (s : State), s.dev.Takes h (.axisHome a) r → s.dev.homing a.toNat = false →
    s.dev.mayHome a.toNat = true → Gives (.axisHome h a) s fun t => t.dev.homing a.toNat = true ∧ Acked r h [] s t) ∧
  (∀ (h : XppHdr) (slot : Byte) (sp : U16) (en : Byte) (r : Role) (s : State), s.dev.Takes h (.heatSet slot sp en) r →
    Gives (.heatSet h slot sp en) s fun t =>
      t.dev.rd .HT_SP_SP slot.toNat = sp.toNat % 2 ^ (fldSpec .HT_SP_SP).width ∧ t.dev.rd .HT_CFG_EN slot.toNat = en.toNat ∧
        (∀ i, i ≠ slot.toNat → t.dev.rd .HT_SP_SP i = s.dev.rd .HT_SP_SP i ∧ t.dev.rd .HT_CFG_EN i = s.dev.rd .HT_CFG_EN i) ∧
        Acked r h [] s t) ∧
  (∀ (h : XppHdr) (jn : U32) (j : Job) (r : Role) (s : State), s.dev.Takes h (.jobCancel jn 0) r → s.dev.job jn.toNat = some j →
    Gives (.jobCancelFinish h jn) s fun t =>
      (j.st = .loaded ∨ j.st = .placed → t.dev.job jn.toNat = none ∧ Acked r h [] s t) ∧
      (j.st = .active → j.finishing = false → j.aborted = false →
        (∀ k, t.dev.job jn.toNat = some k → k.finishing = true) ∧ Acked r h [] s t)) ∧
  (∀ (h : XppHdr) (jn : U32) (j : Job) (r : Role) (s : State), s.dev.Takes h (.jobCancel jn 1) r → s.dev.job jn.toNat = some j →
    Gives (.jobCancelAbort h jn) s fun t =>
      (j.st = .loaded ∨ j.st = .placed → t.dev.job jn.toNat = none ∧ Acked r h [] s t) ∧
      (j.st = .active → j.finishing = false → j.aborted = false →
        (∀ k, t.dev.job jn.toNat = some k → k.aborted = true ∧ k.limit = some 0) ∧ Acked r h [] s t)) ∧
  (∀ (h : XppHdr) (jns : List U32) (r : Role) (s : State), s.dev.Takes h (.queueOrder jns) r →
    (jns.map (·.toNat)).Nodup → (∀ n, n ∈ jns.map (·.toNat) ↔ ∃ j ∈ s.dev.jobs, j.st = .loaded ∧ j.jn = n) →
    (s.dev.jobs.map (·.jn)).Nodup → Gives (.queueOrder h jns) s fun t =>
      t.dev.loaded.map (·.jn) = jns.map (·.toNat) ∧ Acked r h [] s t)

/-- NVM sessions (16, R389, R390, R392). The close that is refused keeps the session: the model's reading. -/
def Obligations.NvmSessions : Prop :=
  (∀ (h : XppHdr) (span : Byte) (r : Role) (s : State), s.dev.Takes h (.nvmOpen span) r → s.dev.present = true → s.dev.session = false →
    (s.dev.imgCheck (1 - span.toNat)).1 = .ok → Gives (.nvmOpen h span) s fun t =>
      t.dev.session = true ∧ t.dev.rd .CR_PRES_SPAN = span.toNat ∧ t.dev.evPending Ev.NVM_SESSION ∧ Acked r h [] s t) ∧
  (∀ (h : XppHdr) (ofs : U32) (n : U16) (r : Role) (s : State), s.dev.Takes h (.nvmErase ofs n) r → s.dev.present = true →
    s.dev.session = true → ofs.toNat % 65536 = 0 → s.dev.inSpan ofs.toNat (n.toNat * 65536) = true → Gives (.nvmErase h ofs n) s fun t =>
      (s.dev.rd .AON_PWR_WARN = 0 →
        ∀ a, Tab.get Config.norUnlisted t.dev.nor.cells a =
          if ofs.toNat ≤ a ∧ a < ofs.toNat + n.toNat * 65536 then 0xFF else Tab.get Config.norUnlisted s.dev.nor.cells a) ∧
      (s.dev.rd .AON_PWR_WARN ≠ 0 → t.dev.nor = s.dev.nor ∧ t.dev.pwr.deferred = s.dev.pwr.deferred ++ [.erase ofs.toNat n.toNat]) ∧
      Acked r h [] s t) ∧
  (∀ (h : XppHdr) (ofs : U32) (data : List Byte) (r : Role) (s : State), s.dev.Takes h (.nvmWrite ofs data) r →
    s.dev.present = true → s.dev.session = true →
    s.dev.inSpan ofs.toNat data.length = true → Gives (.nvmWrite h ofs data) s fun t =>
      (s.dev.rd .AON_PWR_WARN = 0 → t.dev.nor.cells = norProgram s.dev.nor.cells ofs.toNat data) ∧
      (s.dev.rd .AON_PWR_WARN ≠ 0 → t.dev.nor = s.dev.nor ∧ t.dev.pwr.deferred = s.dev.pwr.deferred ++ [.program ofs.toNat data]) ∧
      Acked r h [] s t) ∧
  (∀ (h : XppHdr) (ofs len : U32) (r : Role) (s : State), s.dev.Takes h (.nvmCrc ofs len) r → ofs.toNat + len.toNat ≤ 2 ^ 29 →
    Gives (.nvmCrc h ofs len) s fun t =>
      Unchanged [Part.xpp, Part.out] [] s t ∧ Acked r h (le 4 (crc32c (s.dev.norRead ofs.toNat len.toNat)).toNat) s t) ∧
  (∀ (h : XppHdr) (r : Role) (s : State), s.dev.Takes h .nvmClose r → s.dev.present = true → s.dev.session = true →
    Gives (.nvmClose h) s fun t =>
      let bad := s.dev.rd .CR_PRES_LOCK ≠ 0 ∧
        ((s.dev.hdr (s.dev.rd .CR_PRES_SPAN)).lock = false ∨ (s.dev.hdr (s.dev.rd .CR_PRES_SPAN)).imgver < s.dev.rd .CR_IMGVER_VER)
      (¬bad → t.dev.session = false ∧ t.dev.evPending Ev.NVM_SESSION ∧ Acked r h [] s t) ∧
      (bad → t.dev.session = true ∧ Refused r h .range s t)) ∧
  (∀ (h : XppHdr) (r : Role) (s : State), s.dev.present = false →
    (∀ span, s.dev.Takes h (.nvmOpen span) r → Gives (.nvmOpen h span) s fun t => Unchanged [Part.xpp, Part.out] [Fld.XPP_NCNT_NACK] s t ∧ Refused r h .presence s t) ∧
    (∀ ofs n, s.dev.Takes h (.nvmErase ofs n) r → Gives (.nvmErase h ofs n) s fun t => Unchanged [Part.xpp, Part.out] [Fld.XPP_NCNT_NACK] s t ∧ Refused r h .presence s t) ∧
    (∀ ofs data, s.dev.Takes h (.nvmWrite ofs data) r → Gives (.nvmWrite h ofs data) s fun t => Unchanged [Part.xpp, Part.out] [Fld.XPP_NCNT_NACK] s t ∧ Refused r h .presence s t) ∧
    (s.dev.Takes h .nvmClose r → Gives (.nvmClose h) s fun t => Unchanged [Part.xpp, Part.out] [Fld.XPP_NCNT_NACK] s t ∧ Refused r h .presence s t) ∧
    (s.dev.Takes h .debugEnable r → Gives (.debugEnable h) s fun t => Unchanged [Part.xpp, Part.out] [Fld.XPP_NCNT_NACK] s t ∧ Refused r h .presence s t) ∧
    (∀ l, s.dev.Takes h (.lockSet l) r → Gives (.lockSet h l) s fun t => Unchanged [Part.xpp, Part.out] [Fld.XPP_NCNT_NACK] s t ∧ Refused r h .presence s t) ∧
    (s.dev.Takes h .logErase r → Gives (.logErase h) s fun t => Unchanged [Part.xpp, Part.out] [Fld.XPP_NCNT_NACK] s t ∧ Refused r h .presence s t))

/-- The debug port, the lock, the log and PRESENCE# (16, R388 to R394). -/
def Obligations.NvmLockLogPresence : Prop :=
  (∀ (h : XppHdr) (r : Role) (s : State), s.dev.Takes h .debugEnable r → s.dev.present = true → Gives (.debugEnable h) s fun t =>
    (s.dev.rd .CR_PRES_LOCK = 0 → t.dev.rd .CR_PRES_DBG ≠ 0 ∧ (s.dev.rd .CR_PRES_DBG = 0 → t.dev.evPending Ev.DEBUG_ENABLED) ∧ Acked r h [] s t) ∧
    (s.dev.rd .CR_PRES_LOCK ≠ 0 → t.dev.rd .CR_PRES_DBG = s.dev.rd .CR_PRES_DBG ∧ Refused r h .state s t)) ∧
  (∀ (h : XppHdr) (r : Role) (s : State), s.dev.Takes h .debugDisable r → Gives (.debugDisable h) s fun t =>
    t.dev.rd .CR_PRES_DBG = 0 ∧ Unchanged [Part.xpp, Part.out] [Fld.CR_PRES_DBG] s t ∧ Acked r h [] s t) ∧
  (∀ (h : XppHdr) (l : Byte) (r : Role) (s : State), s.dev.Takes h (.lockSet l) r → s.dev.present = true → Gives (.lockSet h l) s fun t =>
    (∀ x, s.dev.boot.hdr = some x → t.dev.boot.hdr = some { x with lock := decide (l.toNat = 1) } ∧ t.dev.rd .CR_PRES_LOCK = l.toNat) ∧
      t.dev.evPending Ev.LOCK_CHANGED ∧ Acked r h [] s t) ∧
  (∀ (h : XppHdr) (index : U32) (n : Byte) (r : Role) (s : State), s.dev.Takes h (.logRead index n) r →
    index.toNat < s.dev.logRecs.length → Gives (.logRead h index n) s fun t =>
      Unchanged [Part.xpp, Part.out] [] s t ∧ Acked r h (((s.dev.logRecs.drop index.toNat).take n.toNat).flatMap (·.bytes)) s t) ∧
  (∀ (h : XppHdr) (r : Role) (s : State), s.dev.Takes h .logErase r → s.dev.present = true → Gives (.logErase h) s fun t =>
    (s.dev.uncleared = none → s.dev.rd .AON_PWR_WARN = 0 → t.dev.rd .CR_LOG_WP_OFS = 0 ∧ t.dev.logRecs = []) ∧
    (s.dev.uncleared = none → Acked r h [] s t) ∧
    (s.dev.uncleared ≠ none → t.dev.nor = s.dev.nor ∧ Refused r h .state s t)) ∧
  (∀ s : State, Gives .presenceAssert s fun t => t.dev.present = true ∧ Unchanged [] [Fld.CR_PRES_PRES] s t) ∧
  (∀ s : State, Gives .presenceLost s fun t =>
    t.dev.present = false ∧ t.dev.session = false ∧ t.dev.rd .CR_PRES_SPAN = 0 ∧ t.dev.nor = s.dev.nor ∧
      (∀ o ∈ t.dev.pwr.deferred, o.isLog = true) ∧ (s.dev.session = true → t.dev.evPending Ev.PRESENCE_LOST))

/-- Requests that are not carried out (14, R330 to R332). -/
def Obligations.RequestsNotCarriedOut : Prop :=
  (∀ (c : Instr) (x : XppIn) (r : Role) (n : Nack) (s : State), requestOf c = some x → (s.dev.receive x).2 = .got r →
    s.dev.refusal s.dev.st r x.req = some n → Gives c s fun t =>
      Unchanged [Part.xpp, Part.out] [Fld.XPP_NCNT_NACK] s t ∧ Refused r x.hdr n s t ∧
        (reqWhole x.req = false → n = .malformed) ∧ (reqWhole x.req = true → reqFrom x.req r = false → n = .source) ∧
        (n = .range → reqState x.req s.dev.st = true)) ∧
  (∀ (c : Instr) (x : XppIn) (r : Role) (s : State), requestOf c = some x → (s.dev.receive x).2 = .got r →
    s.dev.refusal s.dev.st r x.req = none → ((s.dev.shutDue.isSome || s.dev.holdDue) && reqOrdersState x.req) = true → Gives c s fun t =>
      Unchanged [Part.xpp, Part.out] [Fld.XPP_NCNT_NACK] s t ∧ Refused r x.hdr .precedence s t) ∧
  (∀ (c : Instr) (x : XppIn) (r : Role) (s : State), requestOf c = some x → (s.dev.receive x).2 = .got r →
    s.dev.refusal s.dev.st r x.req = none → ((s.dev.shutDue.isSome || s.dev.holdDue) && reqOrdersState x.req) = false →
    s.dev.inhibited x.req = true → Gives c s fun t =>
      Unchanged [Part.xpp, Part.out] [Fld.XPP_NCNT_NACK] s t ∧ Refused r x.hdr .inhibited s t) ∧
  (∀ (c : Instr) (x : XppIn) (r : Role) (s : State), requestOf c = some x → (s.dev.receive x).2 = .dup r →
    Gives c s fun t => Unchanged [Part.xpp, Part.trace, Part.evr, Part.out] [Fld.AON_EVPEND_PEND, Fld.AON_EVLOST_N, Fld.XPP_CNT_BAD, Fld.XPP_CNT_DUP] s t ∧
      (∀ m a, ((s.dev.receive x).1.peer r).accepted.find? (fun a => a.seq = x.hdr.seq.toNat) = some a → a.resp = some m →
        (s.dev.receive x).1.up r = true → ∃ k, t.dev.out.head? = some (.xpp r k m))) ∧
  (∀ (c : Instr) (x : XppIn) (s : State), requestOf c = some x → x.req.wf = false → s.dev.domOn .net = true → s.dev.noNet = false →
    Gives c s fun t => t.dev.st = s.dev.st ∧ t.dev.jobs = s.dev.jobs ∧
      t.dev.rd .XPP_CNT_BAD = min (s.dev.rd .XPP_CNT_BAD + 1) (2 ^ (fldSpec .XPP_CNT_BAD).width - 1))

/-- The end of an evaluation period (01, R24, Table 1-9; 14, R340, R341). -/
def Obligations.EvaluationPeriodEndTakesEffect : Prop :=
  (∀ (b : Bool) (reqs : List XppIn) (s : State), Gives (.evaluationPeriodEnd b reqs) s fun t =>
    (s.dev.st = .off → t = s) ∧ (s.dev.st ≠ .off → t.dev.holdSeen = 0)) ∧
  (∀ (b : Bool) (reqs : List XppIn) (s : State), (reqs = [] ∨ ∃ x, reqs = [x] ∧ reqOrdersState x.req = true) →
    s.dev.st.running = true → s.dev.shutDue = none → (s.dev.holdSeen ≠ 0 ∨ ∃ h : HoldBit, h ≠ .underrun ∧ s.dev.held h = true) →
    Gives (.evaluationPeriodEnd b reqs) s fun t => t.dev.st = .hold) ∧
  (∀ (b : Bool) (s : State), s.dev.shutDue = none → s.dev.holdSeen = 0 → s.dev.rd .AON_STATE_HOLDC = 0 → s.dev.st.running = true →
    Gives (.evaluationPeriodEnd b []) s fun t =>
      let e := s.dev.clearUnderrun.retireSent
      (s.dev.st = .armed → e.reachedFirst = true → t.dev.st = .printing) ∧
      (s.dev.st = .printing → e.bar0Busy = true → t.dev.st = .printing) ∧
      (s.dev.st = .printing → e.bar0Busy = false → t.dev.st = .draining) ∧
      (s.dev.st = .draining → e.firstUnstarted.isSome = true → t.dev.st = .printing) ∧
      (s.dev.st = .draining → e.firstUnstarted = none → e.allFired = true → t.dev.st = .idle))

/-- The discrete inputs (14, R343). -/
def Obligations.DiscreteInputs : Prop :=
  (∀ s : State, Gives .holdPinAssert s fun t =>
    t.dev.flag .XPP_DIN_HOLD = true ∧ t.dev.held .pin = true ∧ bitOf t.dev.holdSeen HoldBit.pin.num = true ∧
      (s.dev.flag .XPP_DIN_HOLD = false → s.dev.st ≠ .off → t.dev.evPending Ev.DIN_HOLD)) ∧
  (∀ s : State, Gives .holdPinRelease s fun t =>
    t.dev.flag .XPP_DIN_HOLD = false ∧ t.dev.held .pin = false ∧ t.dev.holdSeen = s.dev.holdSeen ∧
      (s.dev.flag .XPP_DIN_HOLD = true → s.dev.st ≠ .off → t.dev.evPending Ev.DIN_HOLD)) ∧
  (∀ s : State, Gives .inhibitAssert s fun t =>
    t.dev.flag .XPP_DIN_INH = true ∧ t.dev.held .inhibit = true ∧ bitOf t.dev.holdSeen HoldBit.inhibit.num = true ∧
      (s.dev.flag .XPP_DIN_INH = false → s.dev.st ≠ .off → t.dev.evPending Ev.DIN_INHIBIT) ∧
      ∀ a, a < 16 → (s.dev.ax a).prof.run ≠ .rest → s.dev.axOn a = true → s.dev.axIs a .fault = false →
        (s.dev.homing a = true → t.dev.homing a = false) ∧
        (s.dev.homing a = false → (s.dev.ax a).prof.run ≠ .maxStop → (t.dev.ax a).prof = (s.dev.ax a).prof.planStop (s.dev.kin a))) ∧
  (∀ s : State, Gives .inhibitRelease s fun t =>
    t.dev.flag .XPP_DIN_INH = false ∧ t.dev.held .inhibit = false ∧ t.dev.holdSeen = s.dev.holdSeen ∧
      (s.dev.flag .XPP_DIN_INH = true → s.dev.st ≠ .off → t.dev.evPending Ev.DIN_INHIBIT))

/-- Requests for absent resources (00, R6). -/
def Obligations.AbsentResourcesRefused : Prop :=
  ∀ (c : Instr) (x : XppIn) (r : Role) (s : State), requestOf c = some x → (s.dev.receive x).2 = .got r →
    reqWhole x.req = true → reqFrom x.req r = true → reqState x.req s.dev.st = true → s.dev.runs .sv0 = true → s.dev.namesAbsent x.req = true →
    Gives c s fun t => Unchanged [Part.xpp, Part.out] [Fld.XPP_NCNT_NACK] s t ∧ Refused r x.hdr .range s t

/-- An index within `TOL` (06, R144; d as R143 computes it). -/
def Obligations.IndexWithinTolerance : Prop :=
  (fldSpec .FIRE_IDXCFG_TOL).width = 4 ∧ (fldSpec .FIRE_IDXCFG_TOL).reset = 2 ∧
  ∀ (level : Bool) (s : State), s.dev.flag .FIRE_ENC_IDXEN = true → level ≠ s.dev.flag .FIRE_SPDSTAT_DIR → s.dev.flag .FIRE_IDXREF_HI_SET = true →
    let diff := pdiff s.dev.fire.cnt s.dev.xref
    let dev := diff - roundAway diff (s.dev.rd .FIRE_CPR_CPR) * s.dev.rd .FIRE_CPR_CPR
    dev.natAbs ≤ s.dev.rd .FIRE_IDXCFG_TOL → Gives (.encoderIndex level) s fun t =>
      t.dev.xref = s.dev.fire.cnt ∧
      t.dev.rd .FIRE_SLIPSUM_SUM = min (s.dev.rd .FIRE_SLIPSUM_SUM + dev.natAbs) (2 ^ (fldSpec .FIRE_SLIPSUM_SUM).width - 1) ∧
      t.dev.fire = { s.dev.fire with lastIdx := s.dev.fire.cnt, sentSince := [] } ∧
      Unchanged [Part.fire] [Fld.FIRE_IDXREF_LO_X, Fld.FIRE_IDXREF_HI_X, Fld.FIRE_IDXDEV_DEV, Fld.FIRE_SLIPSUM_SUM] s t

/-- Bulk connections and records (02, R27 to R29, R41 to R46). -/
def Obligations.BulkConnectionsAndRecords : Prop :=
  (∀ (conn : Fin 8) (h : List Byte) (s : State), s.dev.st.idleToHold = true →
    (∀ c ∈ s.dev.conns, c.idx ≠ conn.val) → Gives (.bulkConnection conn h) s fun t =>
      let h := fit 32 h
      let jn := fieldAt h 8 4
      let crcOk := (crc32c (h.take 28)).toNat = fieldAt h 28 4
      let srcOk := s.dev.rd .XPP_ID_ID 1 ≠ 0 ∧ fieldAt h 12 4 = s.dev.rd .XPP_ID_ID 1
      let cont := bitOf (fieldAt h 6 2) 0
      (crcOk → srcOk → s.dev.job jn = none → cont = false → jn ∉ s.dev.ended → s.dev.jobs.length < 16 →
        t.dev.job jn = some (Job.fresh jn s.dev.now) ∧ ⟨conn.val, jn, false, [], false⟩ ∈ t.dev.conns ∧ ∀ k, k ≠ jn → t.dev.job k = s.dev.job k) ∧
      (crcOk → srcOk → (s.dev.job jn).isSome = true → cont = true →
        t.dev.jobs = s.dev.jobs ∧ t.dev.conns = s.dev.conns ++ [⟨conn.val, jn, true, [], false⟩]) ∧
      (¬crcOk ∨ ¬srcOk ∨ (s.dev.job jn).isSome ≠ cont →
        t.dev.jobs = s.dev.jobs ∧ t.dev.conns = s.dev.conns ∧ t.dev.evPending Ev.BULK_CLOSED)) ∧
  (∀ (conn : Fin 8) (s : State), Gives (.bulkConnectionClose conn) s fun t =>
    t.dev.conns = s.dev.conns.filter (fun c => c.idx != conn.val) ∧ Unchanged [Part.conns] [] s t) ∧
  (∀ (conn : Fin 8) (bytes : List Byte) (c : Conn) (j j' : Job) (r : RawRec) (s : State), s.dev.st.idleToHold = true →
    s.dev.conns.find? (fun c => c.idx = conn.val) = some c → c.holes = [] → c.poison = false → readRecord bytes = some r → r.jn = c.jn →
    s.dev.job c.jn = some j → j.st = .receiving → j.heldAt r.seq = none → j.orderOk r (fieldAt r.payload 0 4) = true →
    s.dev.storeUsed + r.len ≤ s.dev.storeSize → r.type ≠ .job → r.type ≠ .product → r.type ≠ .endRec →
    Job.withContent { j with recvAt := s.dev.now } r = some j' → j'.stray = false →
    (∀ h ∈ j.held, h.type ≠ RecType.product.code) → j.endRec? = none → Gives (.ahnusRecord conn bytes false) s fun t =>
      t.dev.job c.jn = some { j' with held := j.held ++ [⟨r.seq, r.type.code, r.crc, r.len, 0⟩] } ∧ t.dev.conns = s.dev.conns) ∧
  (∀ (conn : Fin 8) (bytes : List Byte) (poison : Bool) (c : Conn) (s : State), s.dev.st.idleToHold = true →
    s.dev.conns.find? (fun c => c.idx = conn.val) = some c → Gives (.ahnusRecord conn bytes poison) s fun t =>
      (c.holes ≠ [] → t = s) ∧
      (poison = true ∨ c.poison = true ∨ readRecord bytes = none → t.dev.jobs = s.dev.jobs) ∧
      (∀ r, poison = false → c.poison = false → c.holes = [] → readRecord bytes = some r →
        (∀ j h, r.jn = c.jn → s.dev.job c.jn = some j → j.heldAt r.seq = some h → h.crc = r.crc →
          t.dev.job c.jn = some { j with recvAt := s.dev.now } ∧ Unchanged [Part.jobs] [] s t) ∧
        (r.jn ≠ c.jn → t.dev.jobs = s.dev.jobs ∧ t.dev.conns = s.dev.conns.filter (fun c => c.idx != conn.val) ∧
          t.dev.evPending Ev.BULK_CLOSED))) ∧
  (∀ (jn : U32) (j : Job) (s : State), s.dev.job jn.toNat = some j → j.st = .receiving → s.dev.st.idleToHold = true →
    s.dev.passed j.recvAt s.dev.recvTimeout = true → Gives (.jobRecvTimeout jn) s fun t => t.dev.job jn.toNat = none ∧ ∀ k, k ≠ jn.toNat → t.dev.job k = s.dev.job k)

/-- Placement (02, R50, R51; 06, R151; R423). -/
def Obligations.PlacementTakesEffect : Prop :=
  (∀ (s : State) (jn : Nat) (r : JobRec) (e : Nat), s.dev.st.idleToHold = true → (∀ p, s.dev.lastPlaced = some p → s.dev.rk.committed.elem p.jn = true) →
    s.dev.chainHead = some (jn, r) → s.dev.freeEntry = some e → (∃ j, s.dev.job jn = some j ∧ j.rec? = some r) → Gives .autoPlacement s fun t =>
      t.dev.rd .FIRE_PL_JN_JN e = jn % 2 ^ 32 ∧ t.dev.rd .FIRE_PL_LINES_L e = r.lines % 2 ^ 32 ∧ t.dev.rd .FIRE_PL_ORGH_VALID e = 1) ∧
  (∀ (s : State), s.dev.st.idleToHold = true → (s.dev.chainHead = none ∨ s.dev.freeEntry = none) → Gives .autoPlacement s fun t => t = s) ∧
  (∀ (s : State) (p : Pl), s.dev.st.idleToHold = true → s.dev.lastPlaced = some p →
    s.dev.fromF p.end' ≤ s.dev.fromF (s.dev.reserveOrigin p.pitch) →
    Gives .commitmentPoint s fun t => p.jn ∈ t.dev.rk.committed) ∧
  (∀ (lvl : Lvl) (e : Fin 4) (lines : U32) (p : Pl) (j : Job) (r : JobRec) (s : State), s.dev.Reaches lvl (0x600418 + 0x20 * e.val) →
    s.dev.pl e.val = some p → s.dev.job p.jn = some j → j.rec? = some r → Gives (.placementLinesLower lvl e lines) s fun t =>
      let good := lvl.val = 3 ∧ 0 < r.pitch ∧ lines.toNat % r.pitch = 0 ∧ lines.toNat < p.lines ∧ j.started * r.pitch ≤ lines.toNat
      (good → t.dev.rd .FIRE_PL_LINES_L e.val = lines.toNat) ∧ (¬good → t = s))

/-- Render work (03, R60 to R63, R70 to R78). -/
def Obligations.RenderWorkTakesEffect : Prop :=
  (∀ (seeds : List U32) (s : State), s.dev.st.idleToHold = true → s.dev.runs .sv0 = true →
    Gives (.workPost seeds) s fun t => t.dev.rd .RKC_ACTIVE_ACT = s.dev.ableMask % 2 ^ 16) ∧
  (∀ (rk : RkNo) (ring : Nat) (w : Work) (s : State), s.dev.flag .RKC_CTL_STEAL_EN = true → s.dev.rkActive rk.val = true →
    s.dev.busyRk rk.val = false → s.dev.halves rk.val < 2 → (∀ x ∈ s.dev.rk.work, ¬(x.ring = rk.val ∧ s.dev.canStart rk.val x = true)) →
    s.dev.fullest ((List.range 16).filter (fun r => (s.dev.stealable rk.val r).isSome)) = some ring → s.dev.stealable rk.val ring = some w →
    Gives (.workSteal rk) s fun t => ∃ x ∈ t.dev.rk.work, x.id = w.id ∧ x.kind = .render ∧ x.exec = some rk.val ∧ x.since = s.dev.now) ∧
  (∀ (rk : RkNo) (out : TileOut) (s : State),
    (∀ w, s.dev.execOf rk.val .render = some w → Gives (.bandColumnRendered rk out) s fun t => t.dev.rd .RKC_BUSY_CYC rk.val = (s.dev.finishWork rk.val w).rd .RKC_BUSY_CYC rk.val) ∧
    (s.dev.execOf rk.val .render = none → Gives (.bandColumnRendered rk out) s fun t => t = s) ∧
    (∀ w, s.dev.execOf rk.val .cache = some w → Gives (.cacheBuildDone rk out) s fun t => t.dev.rd .RKC_BUSY_CYC rk.val = (s.dev.finishWork rk.val w).rd .RKC_BUSY_CYC rk.val) ∧
    (s.dev.execOf rk.val .cache = none → Gives (.cacheBuildDone rk out) s fun t => t = s)) ∧
  (∀ (rk : RkNo) (wrong : List Sample) (s : State),
    (∀ w, s.dev.execOf rk.val .witness = some w → Gives (.witnessDone rk wrong) s fun t => t.dev.rd .RKC_BUSY_CYC rk.val = (s.dev.finishWork rk.val w).rd .RKC_BUSY_CYC rk.val) ∧
    (s.dev.execOf rk.val .witness = none → Gives (.witnessDone rk wrong) s fun t => t = s)) ∧
  (∀ (rk : RkNo) (out : TileOut) (w : Work) (s : State), s.dev.execOf rk.val .third = some w →
    (∀ x ∈ s.dev.rk.work, x.exec = some rk.val → x = w) → Gives (.thirdRenderDone rk out) s fun t =>
    let e := s.dev.finishWork rk.val w
    t.dev.rd .RKC_BUSY_CYC rk.val = e.rd .RKC_BUSY_CYC rk.val ∧
      (∀ tile j r x, e.tileOf w.id = some tile → e.job tile.id.jn = some j → j.rec? = some r → e.rk.wits.find? (fun x => x.id = tile.id) = some x →
        j.agree r tile.id tile.out.diff out.diff (e.inTile r tile) = true →
        t.dev.rd .RKC_STRIKE_LAST tile.witness = 1 ∧ t.dev.rd .RKC_STRIKE_TOTAL tile.witness = min 15 (s.dev.rd .RKC_STRIKE_TOTAL tile.witness + 1)))

/-- Traps, strikes and mittens (03, R57, R76 to R78). -/
def Obligations.ReckonerFailures : Prop :=
  (∀ (rk : RkNo) (cause : TrapCause) (s : State), s.dev.rkActive rk.val = true →
    (cause ≠ .fetch → Gives (.reckonerTrap rk cause true) s fun t => t.dev.rd .RKC_STRIKE_LAST rk.val = 2 ∧
      t.dev.rd .RKC_STRIKE_TOTAL rk.val = min 15 (s.dev.rd .RKC_STRIKE_TOTAL rk.val + 1)) ∧
    Gives (.reckonerTrap rk cause false) s fun t => t.dev.rd .RKC_STRIKE_LAST rk.val = 2 ∧
      t.dev.rd .RKC_STRIKE_TOTAL rk.val = min 15 (s.dev.rd .RKC_STRIKE_TOTAL rk.val + 1)) ∧
  (∀ (rk : RkNo) (w : Work) (s : State), s.dev.rkActive rk.val = true → s.dev.anyExec rk.val = some w →
    Gives (.reckonerTrap rk .fetch true) s fun t =>
    t.dev.boot.programs = (s.reloadRk rk.val).dev.boot.programs ∧
    t.dev.evPending Ev.RK_TRAP ∧ (∀ i, t.dev.rd .RKC_STRIKE_TOTAL i = s.dev.rd .RKC_STRIKE_TOTAL i) ∧
      ∃ x ∈ t.dev.rk.work, x.id = w.id ∧ x.exec = some rk.val ∧ x.since = s.dev.now) ∧
  (∀ (rk : RkNo) (w : Work) (s : State), s.dev.anyExec rk.val = some w →
    s.dev.passed w.since (1000 * s.dev.rd .RKC_CTL_WDOG) = true → Gives (.renderWatchdog rk) s fun t =>
    t.dev.rd .RKC_STRIKE_LAST rk.val = 3 ∧ t.dev.rd .RKC_STRIKE_TOTAL rk.val = min 15 (s.dev.rd .RKC_STRIKE_TOTAL rk.val + 1)) ∧
  (∀ (rk : RkNo) (t0 : Nat) (s : State), Tab.at s.dev.rk.strikes rk.val = some t0 → s.dev.passed t0 3600000000000 = true →
    Gives (.strikeExpiry rk) s fun t =>
    t.dev.rd .RKC_STRIKE_PENDING rk.val = 0 ∧ Tab.at t.dev.rk.strikes rk.val = none) ∧
  (∀ (lvl : Lvl) (v : U32) (s : State), s.dev.Reaches lvl 0x200008 → Gives (.rkcMittenWrite lvl v) s fun t =>
    ∀ i, i < 16 → bitOf v.toNat i = true → s.dev.mittened i = true → t.dev.mittened i = false)

/-- Bands, lines, rods read again, tables (04, R101 to R110; 05, R126). -/
def Obligations.DosePipelinesTakeEffect : Prop :=
  (∀ (s : State) (b : BandTiles) (rest : List BandTiles) (r : JobRec), s.dev.domOn .dose = true → s.dev.st.idleToHold = true → s.dev.pipes ≠ [] →
    (∀ i ∈ s.dev.pipes, (s.dev.dp i).band = none) → s.dev.reload = false → s.dev.dropStale.rk.handed = b :: rest →
    (s.dev.job b.jn).bind (·.rec?) = some r →
    (s.dev.dropStale.refreshLead.rd .RW_LEADTGT_COUNTS ≤ s.dev.dropStale.refreshLead.rd .RW_LEAD_COUNTS → Gives .doseBandStart s fun t =>
      ∀ i ∈ s.dev.pipes, t.dev.rd .RW_XSTAT_WAITTGT i = 1 ∧ (t.dev.dp i).band = none) ∧
    (s.dev.dropStale.refreshLead.rd .RW_LEAD_COUNTS < s.dev.dropStale.refreshLead.rd .RW_LEADTGT_COUNTS → s.dev.integ.heldSpoils.length < 224 →
      (∀ i ∈ s.dev.pipes, s.dev.posted i ≠ 0) → s.dev.needsReload r = false → Gives .doseBandStart s fun t =>
      ∀ i ∈ s.dev.pipes, t.dev.rd .RW_XSTAT_WAITTGT i = 0 ∧ ∃ x, (t.dev.dp i).band = some x ∧ x.jn = b.jn ∧ x.line = 16 * b.band ∧
        x.count = min 16 (r.lines - 16 * b.band) ∧ x.lines = [])) ∧
  (∀ (i : Pipe) (k : DoseChecks) (b : DoseBand) (t0 : BandTiles) (rest : List BandTiles) (j : Job) (r : JobRec) (s : State),
    (s.dev.dp i).band = some b → s.dev.rk.handed = t0 :: rest → s.dev.job b.jn = some j → j.rec? = some r →
    s.dev.mayDose i b (decide ((b.line + b.lines.length) % r.pitch = 0)) = true → Gives (.doseLine i k) s fun t =>
      (∃ x bs, (t.dev.dp i).band = some x ∧ x.jn = b.jn ∧ x.line = b.line ∧ x.count = b.count ∧ x.lines = b.lines ++ [bs]) ∧
      t.dev.rd .DP_CHECK_REDOSE i.val = (if (failedCheck k.first).isSome then min (s.dev.rd .DP_CHECK_REDOSE i.val + 1) (2 ^ (fldSpec .DP_CHECK_REDOSE).width - 1)
        else s.dev.rd .DP_CHECK_REDOSE i.val)) ∧
  (∀ (ch : BitVec 18) (mp : Bool) (i : Nat) (s : State), s.dev.ownerOf ch.toNat = some i → Gives (.rodRefetch ch mp) s fun t =>
    let kept := (s.dev.dp i).retained.reverse.find? (fun e => e.1 = ch.toNat - 4096 * s.dev.rd .DP_GEOM_SLOT0 i)
    (∀ e, kept = some e → t.dev.rd .ROD_ROD ch.toNat = e.2 % 2 ^ 32 ∧ t.dev.evPending Ev.ROD_REFETCH) ∧
    (kept = none → mp = false → s.dram.poisoned (s.dev.rodAddr i ch.toNat) 4 = false →
      t.dev.rd .ROD_ROD ch.toNat = leVal (memReadAll s.dram.mem (s.dev.rodAddr i ch.toNat) 4) % 2 ^ 32 ∧ t.dev.evPending Ev.ROD_REFETCH) ∧
    (kept = none → mp = true ∨ s.dram.poisoned (s.dev.rodAddr i ch.toNat) 4 = true → t.dev.rd .ROD_ROD ch.toNat = rodMasked ∧ t.dev.evPending Ev.ROD_LOST)) ∧
  (∀ (b : BandTiles) (rest : List BandTiles) (r : JobRec) (s : State), s.dev.reload = true → s.dev.rk.handed = b :: rest →
    (s.dev.job b.jn).bind (·.rec?) = some r → Gives .tableReload s fun t =>
      t.dev.curveSet = some r.curveSet ∧ t.dev.screenSet = some r.screenSet ∧ t.dev.reload = false)

/-- The update queues of the rods (04, R107 to R109). -/
def Obligations.RodQueuesTakeEffect : Prop :=
  (∀ (lvl : Lvl) (i : Pipe) (rod : U32) (s : State), s.dev.Reaches lvl (0x300020 + 0x1000 * i.val) → Gives (.rodEnqueue lvl i rod) s fun t =>
    (s.dev.flag .DP_RODQ_COMMIT i.val = false → (s.dev.dp i).queue.length < 4096 →
      (t.dev.dp i).queue = (s.dev.dp i).queue ++ [((s.dev.dp i).idx, rod.toNat)] ∧
      t.dev.rd .DP_RODQ_COUNT i.val = (s.dev.dp i).queue.length + 1) ∧
    (s.dev.flag .DP_RODQ_COMMIT i.val = true ∨ 4096 ≤ (s.dev.dp i).queue.length →
      t.dev.dose = s.dev.dose ∧ t.dev.rd .DP_ERR_QOVF i.val = 1 ∧ t.dev.evPending Ev.RODQ_OVF)) ∧
  (∀ (lvl : Lvl) (i : Pipe) (s : State), s.dev.Reaches lvl (0x300018 + 0x1000 * i.val) → Gives (.rodCommit lvl i) s fun t =>
    (s.dev.flag .DP_RODQ_RETAINED i.val = false → t.dev.rd .DP_RODQ_COMMIT i.val = 1) ∧
    (s.dev.flag .DP_RODQ_RETAINED i.val = true → t.dev.rd .DP_RODQ_COMMIT i.val = s.dev.rd .DP_RODQ_COMMIT i.val ∧ t.dev.rd .DP_ERR_CREF i.val = 1 ∧
      t.dev.evPending Ev.RODQ_COMMIT_REFUSED)) ∧
  (∀ (lvl : Lvl) (i : Pipe) (s : State), s.dev.Reaches lvl (0x300018 + 0x1000 * i.val) → Gives (.rodRelease lvl i) s fun t =>
    let es := (s.dev.loops.pend.filter (fun e => e.1 = i.val)).take (4096 - (s.dev.dp i).queue.length)
    t.dev.rd .DP_RODQ_RETAINED i.val = 0 ∧ (t.dev.dp i).retained = [] ∧
      (es = [] ∨ s.dev.flag .AON_PWR_WARN = true ∨ s.dev.flag .DP_RODQ_COMMIT i.val = true →
        (t.dev.dp i).queue = (s.dev.dp i).queue ∧ t.dev.rd .DP_RODQ_COMMIT i.val = s.dev.rd .DP_RODQ_COMMIT i.val) ∧
      (es ≠ [] → s.dev.flag .AON_PWR_WARN = false → s.dev.flag .DP_RODQ_COMMIT i.val = false → s.dev.runs .sv1 = true →
        s.dev.domOn .dose = true → (t.dev.dp i).queue = (s.dev.dp i).queue ++ es.map (·.2) ∧ t.dev.rd .DP_RODQ_COMMIT i.val = 1)) ∧
  (∀ (lvl : Lvl) (ch : BitVec 18) (rod : U32) (s : State), s.dev.Reaches lvl (0x400000 + 4 * ch.toNat) → lvl.val = 3 → Gives (.rodWindowWrite lvl ch rod) s fun t =>
    (s.dev.ownerOf ch.toNat = none → t.dev.rd .ROD_ROD ch.toNat = rod.toNat ∧ ∀ c, c ≠ ch.toNat → t.dev.rd .ROD_ROD c = s.dev.rd .ROD_ROD c) ∧
    (∀ i, s.dev.ownerOf ch.toNat = some i → (∀ c, t.dev.rd .ROD_ROD c = s.dev.rd .ROD_ROD c) ∧ t.dev.rd .DP_ERR_WWRITE i = 1 ∧
      t.dev.evPending Ev.ROD_WINDOW_IGNORED))

/-- Pages, slots and skips (05, R111 to R129). -/
def Obligations.RunwayTakesEffect : Prop :=
  (∀ (lvl : Lvl) (i : Pipe) (idx : BitVec 19) (pages : List U32) (s : State), s.dev.Reaches lvl (0x501004 + 64 * i.val) →
    (s.pagesFree pages = true → Gives (.plTailWrite lvl i idx pages) s fun t => t.dev.rd .RW_PL_TAIL_IDX i.val = idx.toNat) ∧
    (s.pagesFree pages = false → Gives (.plTailWrite lvl i idx pages) s fun t => t = s)) ∧
  (∀ (i : Pipe) (b : DoseBand) (a : Nat) (bs : List Byte) (s : State), (s.dev.dp i).band = some b → b.full = true → (s.dev.rw i).band = none →
    s.ringDesc (rq i) = some (a, bs) → s.dram.poisoned a 32 = false → s.dev.startSpace i ≤ s.dev.spaceFrom i (s.dev.nextStart i) →
    Gives (.slotStart i) s fun t => (t.dev.dp i).band = none ∧ (t.dev.rw i).band = some b ∧
      (t.dev.rw i).sseq = ((s.dev.rw i).sseq + 1) % 2 ^ 32 ∧
      ∃ x, (t.dev.rw i).slots = (s.dev.rw i).slots ++ [x] ∧ x.st = .filling ∧ x.jn = b.jn ∧ x.line = b.line ∧ x.sseq = (s.dev.rw i).sseq) ∧
  (∀ (i : Pipe) (st : XdcStream) (more : List XdcStream) (x : RSlot) (s : State), s.dev.openSlot i = some x → x.st = .filling →
    s.dev.halted (rq i) = false → x.stream = none → x.accepts st = true → s.dev.flag .RW_SKIP_CTL_ARM i.val = false →
    (RSlot.header { x with stored := st.stored.toNat, clen := st.bytes.length } i ++ st.bytes).length ≤ s.dev.spaceFrom i (x.page, x.ofs) →
    (s.slotWrite 6 i x.page x.ofs (s.dev.rw i).bad ((padWord (RSlot.header { x with stored := st.stored.toNat, clen := st.bytes.length } i
      ++ st.bytes)).take (s.dev.spaceFrom i (x.page, x.ofs)))).2 = none →
    Gives (.slotReady i (st :: more)) s fun t =>
      (t.dev.rw i).band = none ∧ t.dev.rd .DMA_RHEAD_IDX (rq i) = (x.desc + 1) % s.dev.ringSize (rq i) % 2 ^ 19 ∧
      ∃ y ∈ (t.dev.rw i).slots, y.sseq = x.sseq ∧ y.st = .ready ∧ y.jn = x.jn ∧ y.line = x.line ∧ y.stored = st.stored.toNat) ∧
  (∀ (i : Pipe) (k : SlotChecks) (x : RSlot) (rest : List RSlot) (s : State), (s.dev.rw i).slots = x :: rest → x.st = .ready →
    (∀ y ∈ rest, y.sseq ≠ x.sseq ∧ y.st ≠ .retired) → s.dev.slotDropped i x = true ∨ s.dev.fifoRoom i x = true →
    s.dev.flag .RW_SKIP_CTL_ARM i.val = false → Gives (.slotReadStart i k) s fun t => (t.dev.rw i).slots = rest ∧
      (t.dev.rw i).readSeq = (x.sseq + 1) % 2 ^ 32 ∧
      (∀ y more, rest = y :: more → t.dev.rd .RW_PL_RD_IDX i.val = y.page % 2 ^ (fldSpec .RW_PL_RD_IDX).width)) ∧
  (∀ (lvl : Lvl) (i : Pipe) (s : State), s.dev.allowed 0 (0x50102C + 64 * i.val) lvl.val true = true → s.dev.domOn .dose = true →
    ((∀ x ∈ (s.dev.rw i).slots, x.st ≠ .retired → x.jn = s.dev.rd .RW_SKIP_JN_JN i → s.dev.skipHi i ≤ x.line) →
      Gives (.skipArm lvl i) s fun t => ∀ x ∈ t.dev.fire.skips, x ≠ (i.val, s.dev.rd .RW_SKIP_JN_JN i, s.dev.rd .RW_SKIP_LINE_LINE i)) ∧
    (∀ x, (s.dev.rw i).slots = [x] → x.st ≠ .retired → x.jn = s.dev.rd .RW_SKIP_JN_JN i → x.line < s.dev.skipHi i →
      x.st ≠ .ready ∨ s.dev.skipHi i < x.line + x.count → Gives (.skipArm lvl i) s fun t => t.dev.flag .RW_SKIP_CTL_ARM i.val = true))

/-- The DMA rings (01, R16 to R19; 08, R214; 17, R404). -/
def Obligations.DmaRingsTakeEffect : Prop :=
  (∀ (lvl : Lvl) (r : RingNo) (idx : BitVec 19) (descs : List (List Byte)) (s : State), s.dev.Reaches lvl (0xF01010 + 32 * r.val) →
    Gives (.dmaTailWrite lvl r idx descs) s fun t => t.dev.rd .DMA_RTAIL_IDX r.val = idx.toNat ∧
      t.dev.rd .DMA_RHEAD_IDX r.val = s.dev.rd .DMA_RHEAD_IDX r.val ∧
      (r.val = 45 → t.dev.integ.spr.caps = s.dev.integ.spr.caps ++ descs.map (fun x => descLen (fit 32 x) / 32))) ∧
  (∀ (r : RingNo) (spec12 data : List Byte) (a : Nat) (bs : List Byte) (s : State), ownRow r.val = false → r.val < 46 →
    s.ringDesc r.val = some (a, bs) → s.dram.poisoned a 32 = false → s.dev.spanOk a 4 = true → s.bufferOk r.val (descBuf bs) (descLen bs) = true →
    Gives (.dmaDescriptorDone r spec12 data 0 false) s fun t =>
      t.dev.rd .DMA_RHEAD_IDX r.val = (s.dev.rd .DMA_RHEAD_IDX r.val + 1) % s.dev.ringSize r.val % 2 ^ 19 ∧
      bitOf (leVal (memReadAll t.dram.mem a 4)) 31 = false) ∧
  (∀ (r : RingNo) (spec12 data : List Byte) (a : Nat) (bs : List Byte) (x : XcDesc) (s : State), 46 ≤ r.val →
    s.dev.xpp.rings.find? (fun x => x.ring = r.val) = some x → s.ringDesc r.val = some (a, bs) → s.dram.poisoned a 32 = false →
    s.bufferOk r.val (descBuf bs) (descLen bs) = true → Gives (.dmaDescriptorDone r spec12 data 0 false) s fun t =>
      t.dev.rd .DMA_RHEAD_IDX r.val = (s.dev.rd .DMA_RHEAD_IDX r.val + 1) % s.dev.ringSize r.val % 2 ^ 19 ∧
      t.dev.xpp.rings = s.dev.xpp.rings.erase x) ∧
  (∀ (spec12 data : List Byte) (tries : Fin 16) (poison : Bool) (a : Nat) (bs : List Byte) (s : State), s.ringDesc 45 = some (a, bs) →
    s.dram.poisoned a 32 = false → s.bufferOk 45 (descBuf bs) (descLen bs) = true → tries.val ≤ s.dev.rd .DMA_CTL_RETRY →
    Gives (.dmaDescriptorDone 45 spec12 data tries poison) s fun t =>
      t.dev.integ.spr.tries = tries.val ∧ t.dev.integ.spr.bad = poison ∧ t.dram = s.dram ∧
      ∀ r, t.dev.rd .DMA_RHEAD_IDX r = s.dev.rd .DMA_RHEAD_IDX r) ∧
  (∀ (r : RingNo) (d0 : Nat × List Byte) (s : State), s.ringDesc r.val = some d0 → Gives (.dmaHalt r) s fun t =>
    t.dev.halted r.val = true ∧ t.dev.evPending Ev.DMA_HALT ∧ t.dev.rd .DMA_RHEAD_IDX r.val = s.dev.rd .DMA_RHEAD_IDX r.val) ∧
  (∀ (lvl : Lvl) (val : U32) (s : State), s.dev.Reaches lvl 0xF00008 → Gives (.dmaHaltClear lvl false val) s fun t =>
    ∀ k, k < 32 → bitOf (t.dev.rd .DMA_HALT_LO_HALT) k = (bitOf (s.dev.rd .DMA_HALT_LO_HALT) k && !bitOf val.toNat k)) ∧
  (∀ (lvl : Lvl) (val : U32) (s : State), s.dev.Reaches lvl 0xF0000C → Gives (.dmaHaltClear lvl true val) s fun t =>
    ∀ k, k < 16 → bitOf (t.dev.rd .DMA_HALT_HI_HALT) k = (bitOf (s.dev.rd .DMA_HALT_HI_HALT) k && !bitOf val.toNat k)) ∧
  (∀ (a : Nat) (bs : List Byte) (cap : Nat) (caps : List Nat) (s : State), s.ringDesc 44 = some (a, bs) → s.dev.evr.caps = cap :: caps →
    0 < cap → s.dev.evr.inBufs ≠ [] → s.dram.poisoned a 32 = false → s.bufferOk 44 (descBuf bs) (descLen bs) = true →
    s.dev.evr.isFull = true ∨ s.dev.evr.isOld s.dev.now 1000000 = true → Gives .evrBufferClose s fun t =>
      t.dev.evr.seq = (s.dev.evr.seq + min cap s.dev.evr.inBufs.length) % 2 ^ 32 ∧ t.dev.evr.caps = caps ∧
      t.dev.rd .DMA_RHEAD_IDX 44 = (s.dev.rd .DMA_RHEAD_IDX 44 + 1) % s.dev.ringSize 44 % 2 ^ 19) ∧
  (∀ (a : Nat) (bs : List Byte) (cap : Nat) (caps : List Nat) (s : State), s.ringDesc 45 = some (a, bs) → s.dev.integ.spr.caps = cap :: caps →
    0 < cap → s.dev.integ.spr.inBufs ≠ [] → s.dram.poisoned a 32 = false → s.bufferOk 45 (descBuf bs) (descLen bs) = true →
    s.dev.integ.spr.isFull = true ∨ s.dev.integ.spr.isOld s.dev.now (1000 * s.dev.rd .SP_SPRCFG_FLUSH) = true → Gives .sprFlush s fun t =>
      t.dev.integ.spr.seq = (s.dev.integ.spr.seq + min cap s.dev.integ.spr.inBufs.length) % 2 ^ 32 ∧ t.dev.integ.spr.caps = caps ∧
      t.dev.rd .DMA_RHEAD_IDX 45 = (s.dev.rd .DMA_RHEAD_IDX 45 + 1) % s.dev.ringSize 45 % 2 ^ 19)

/-- The encoder (06, R130 to R147). -/
def Obligations.WebEncoderTakesEffect : Prop :=
  (∀ (a b : Bool) (s : State), Gives (.encoderCount a b) s fun t =>
    let step := (quadIndex a b + 4 - quadIndex s.dev.fire.a s.dev.fire.b) % 4
    (step = 0 → t.dev.fire = { s.dev.fire with a := a, b := b } ∧ Unchanged [Part.fire] [] s t) ∧
    (step = 2 → t.dev.fire.cnt = s.dev.fire.cnt ∧ t.dev.rd .FIRE_STAT_ILLEGAL = 1 ∧
      t.dev.rd .FIRE_SLIPCNT_ILLEGAL = min (s.dev.rd .FIRE_SLIPCNT_ILLEGAL + 1) (2 ^ (fldSpec .FIRE_SLIPCNT_ILLEGAL).width - 1) ∧
      t.dev.rd .FIRE_SLIPSUM_SUM = min (s.dev.rd .FIRE_SLIPSUM_SUM + 2) (2 ^ (fldSpec .FIRE_SLIPSUM_SUM).width - 1) ∧ t.dev.evPending Ev.ENC_ILLEGAL) ∧
    (step = 1 ∨ step = 3 → t.dev.fire.travel = s.dev.fire.travel + 1 ∧
      t.dev.fire.cnt = (if (decide (step = 3) != s.dev.flag .FIRE_CTL_DIR) then s.dev.fire.cnt - 1 else s.dev.fire.cnt + 1))) ∧
  (∀ s : State, s.dev.spd ≠ 0 → s.dev.passed s.dev.fire.lastT (1000000 * s.dev.rd .FIRE_SPDCFG_STILL) = true →
    Gives .encStandstill s fun t =>
    t.dev.rd .FIRE_SPDSTAT_STATUS = 0 ∧ t.dev.rd .FIRE_ACCEL_A = 0 ∧ t.dev.held .reversal = false ∧ t.dev.rd .AON_STATE_STOPREQ = 0) ∧
  (∀ (level : Bool) (s : State), s.dev.flag .FIRE_ENC_IDXEN = true → level ≠ s.dev.flag .FIRE_SPDSTAT_DIR → Gives (.encoderIndex level) s fun t =>
    t.dev.xref = s.dev.fire.cnt ∧ (s.dev.flag .FIRE_IDXREF_HI_SET = false → t.dev.flag .FIRE_IDXREF_HI_SET = true) ∧
    (s.dev.flag .FIRE_IDXREF_HI_SET = true →
      let diff := pdiff s.dev.fire.cnt s.dev.xref
      let dev := diff - roundAway diff (s.dev.rd .FIRE_CPR_CPR) * s.dev.rd .FIRE_CPR_CPR
      t.dev.rd .FIRE_IDXDEV_DEV = satSigned 16 dev % 2 ^ 16 ∧
      (dev.natAbs ≤ s.dev.rd .FIRE_IDXCFG_TOL →
        t.dev.rd .FIRE_SLIPSUM_SUM = min (s.dev.rd .FIRE_SLIPSUM_SUM + dev.natAbs) (2 ^ (fldSpec .FIRE_SLIPSUM_SUM).width - 1) ∧
        t.dev.rd .FIRE_SLIPCNT_SLIPS = s.dev.rd .FIRE_SLIPCNT_SLIPS) ∧
      (s.dev.rd .FIRE_IDXCFG_TOL < dev.natAbs → t.dev.rd .FIRE_STAT_SLIP = 1 ∧
        t.dev.rd .FIRE_SLIPCNT_SLIPS = min (s.dev.rd .FIRE_SLIPCNT_SLIPS + 1) (2 ^ (fldSpec .FIRE_SLIPCNT_SLIPS).width - 1)))) ∧
  (∀ s : State, s.dev.flag .FIRE_ENC_IDXEN = true →
    s.dev.rd .FIRE_CPR_CPR + 16 * s.dev.rd .FIRE_IDXCFG_TOL + 16 ≤ (pdiff s.dev.fire.cnt s.dev.fire.lastIdx).natAbs → Gives .encNoindex s fun t =>
      t.dev.rd .FIRE_STAT_NOIDX = 1 ∧ t.dev.rd .FIRE_STAT_SLIP = 1 ∧ t.dev.xref = s.dev.xref ∧
      t.dev.rd .FIRE_SLIPCNT_SLIPS = min (s.dev.rd .FIRE_SLIPCNT_SLIPS + 1) (2 ^ (fldSpec .FIRE_SLIPCNT_SLIPS).width - 1)) ∧
  (∀ (which : EncInput) (s : State), s.dev.flag .FIRE_ENC_MODE = false → s.dev.flag .FIRE_ENC_LINECHK = true → Gives (.encLine which) s fun t =>
    t.dev.rd .FIRE_STAT_LINE = 1 ∧ t.dev.rd .FIRE_STAT_SLIPSTOP = 1 ∧ bitOf (t.dev.rd .AON_STATE_STOPREQ) StopBit.slip.num = true)

/-- Sending lines and predicting them again (06, R152 to R158). -/
def Obligations.SendPointsTakeEffect : Prop :=
  (∀ (bar : Pipe) (l : LineId) (again : Bool) (p : Pl) (r : JobRec) (heads : List SentHead) (s : State), s.dev.st.running = true →
    s.dev.flag .FIRE_CTL_EN = true → s.dev.nextLine bar.val = some (l, again) → s.dev.plOf l.jn = some p →
    (s.dev.job l.jn).bind (·.rec?) = some r →
    let start := r.pitch ≠ 0 ∧ l.line % r.pitch = 0 ∧ again = false
    let d := if start then s.dev.refreshSpeed.resumeHeads bar else s.dev.refreshSpeed
    let slots := (d.slotsOf bar).filter (fun x => !(d.lane x).isDark)
    let pn := r.firstPn + l.line / r.pitch
    d.sendHeads p l again slots = some heads →
    (s.dev.refreshSpeed.sendDue p l heads = false → Gives (.sendPoint bar) s
      (Unchanged [] [Fld.FIRE_SPEED_V, Fld.FIRE_SPDSTAT_DECAY, Fld.FIRE_SPDSTAT_MODE] s)) ∧
    (s.dev.refreshSpeed.sendDue p l heads = true → Gives (.sendPoint bar) s fun t =>
      (∀ x ∈ s.dev.slotsOf bar, ∀ f ∈ (t.dev.lane x).fifo, ¬(f.jn = l.jn ∧ f.line = l.line)) ∧
      ((∀ x ∈ d.slotsOf bar, d.notReady x l again = none) →
        (∀ h ∈ heads, ∃ k c n, Output.zl h.slot k (.fire l.jn l.line (s.dev.linkTime h.tfire) h.bead false false) c n ∈ t.dev.out) ∧
        (s.dev.lineSettled l = false → ¬(start ∧ bar.val = 0) → (∀ x ∈ d.slotsOf bar, (d.lane x).isDark = false) →
          (∀ x ∈ slots, (Tab.at s.dev.integ.tally x : List TallyEnt).length < 64) →
          ∀ h ∈ heads, ∃ e ∈ (Tab.at t.dev.integ.tally h.slot : List TallyEnt), e.jn = l.jn ∧ e.line = l.line)) ∧
      (start → bar.val = 0 → s.dev.prod p.jn pn = none → s.dev.integ.heldSpoils = [] → s.dev.bars ≠ [] →
        ∃ q ∈ t.dev.integ.prods, q.jn = p.jn ∧ q.pn = pn ∧ q.first = l.line ∧ q.last = l.line + r.pitch - 1))) ∧
  (∀ s : State, s.dev.valid = false → Gives .fireRepredict s fun t =>
    t.dev.fire = { s.dev.fire with sent := s.dev.fire.sent.filter (fun l => !l.heads.all (fun h => decide (h.tfire ≤ s.dev.now))) } ∧
      Unchanged [Part.fire, Part.integ] [Fld.FIRE_SPEED_V, Fld.FIRE_SPDSTAT_DECAY, Fld.FIRE_SPDSTAT_MODE] s t) ∧
  (∀ (l : SentLine) (p : Pl) (s : State), s.dev.valid = true → s.dev.fire.sent = [l] → l.late = false → s.dev.plOf l.jn = some p →
    l.heads.all (fun h => decide (h.tfire ≤ s.dev.now)) = false →
    (s.dev.refreshSpeed.newTimes l = none → s.dev.canArrive l (l.heads.map (·.tfire)) = true → Gives .fireRepredict s fun t =>
      t.dev.fire.sent = [] ∧ t.dev.fire.again = s.dev.fire.again ++ [⟨l.bar, l.jn, l.line, l.trim⟩]) ∧
    (∀ ts, s.dev.refreshSpeed.newTimes l = some ts → s.dev.overEighth p.pitch (maxChange (l.heads.map (·.tfire)) ts) = true →
      s.dev.canArrive l (l.heads.map (·.tfire) ++ ts) = true → Gives .fireRepredict s fun t =>
      t.dev.rd .FIRE_AMCNT_AMEND = min (s.dev.rd .FIRE_AMCNT_AMEND + 1) (2 ^ (fldSpec .FIRE_AMCNT_AMEND).width - 1) ∧
      t.dev.fire.sent = [{ l with heads := (l.heads.zip ts).map (fun x => { x.1 with tfire := x.2 }) }]))

/-- Lane states (07, R166 to R175, R194 to R197). -/
def Obligations.LaneStatesFollow : Prop :=
  (∀ (n : LaneNo) (s : State), s.dev.laneIs n .off = true → s.dev.flag .ZL_CFG_EN n = true → s.dev.domOn (if n.val < 32 then .za else .zb) = true →
    n.val < s.dev.nLanes → Gives (.laneEnable n) s fun t => t.dev.laneIs n .locking = true) ∧
  (∀ (n : LaneNo) (s : State), s.dev.laneIs n .locking = true → Gives (.blockLock n) s fun t =>
    t.dev.laneIs n .locked = true ∧ t.dev.rd .ZL_STAT_LOCK n = 1) ∧
  (∀ (n : LaneNo) (g : Fin 4) (s : State), s.dev.laneIs n .locked = true → Gives (.laneUp n g) s fun t =>
    t.dev.rd .ZL_STAT_FARGEN n = g.val ∧
    (g.val = s.dev.capGen n → t.dev.laneIs n .up = true ∧ t.dev.evPending Ev.ZL_UP) ∧
    (g.val ≠ s.dev.capGen n → t.dev.laneIs n .fault = true ∧ t.dev.evPending Ev.ZL_GEN_MISMATCH)) ∧
  (∀ (n : LaneNo) (s : State), s.dev.laneIs n .locked = true ∨ s.dev.laneRuns n = true → Gives (.lockLost n) s fun t =>
    t.dev.laneIs n .locking = true ∧ t.dev.rd .ZL_STAT_LOCK n = 0) ∧
  (∀ (n : LaneNo) (s : State), s.dev.laneIs n .locked = true ∨ s.dev.laneRuns n = true → s.dev.flag .ZL_STAT_LOOP n = false →
    s.dev.passed (s.dev.lane n).statusAt (100000 * s.dev.rd .ZL_CFG_STTO n) = true → Gives (.statusTimeout n) s fun t => t.dev.laneIs n .locking = true ∧ t.dev.rd .ZL_STAT_LOCK n = 0) ∧
  (∀ (lvl : Lvl) (n : LaneNo) (s : State), s.dev.Reaches lvl (lpctl n) → s.dev.laneRuns n = true → s.dev.laneIdle n = true →
    Gives (.txSleepRequest lvl n) s (fun t => t.dev.laneIs n .sleep = true ∧ t.dev.rd .ZL_LPCTL_CUR n = 1) ∧
    Gives (.rxSleepRequest lvl n) s (fun t => t.dev.laneIs n .sleep = true ∧ t.dev.rd .ZL_LPCTL_CUR n = 2) ∧
    Gives (.parkRequest lvl n) s (fun t => t.dev.laneIs n .park = true ∧ t.dev.rd .ZL_LPCTL_CUR n = 4)) ∧
  (∀ (n : LaneNo) (s : State), s.dev.laneIs n .sleep = true ∨ s.dev.laneIs n .park = true → Gives (.laneWake n) s fun t =>
    t.dev.laneIs n .up = true ∧ t.dev.rd .ZL_LPCTL_CUR n = 0 ∧ t.dev.evPending Ev.ZL_UP) ∧
  (∀ (lvl : Lvl) (n : LaneNo) (mode : Fin 4) (s : State), s.dev.Reaches lvl (0x700014 + 0x400 * n.val) → mode.val ≠ s.dev.rd .ZL_LOOP_MODE n →
    (mode.val = 0 → Gives (.loopModeWrite lvl n mode) s fun t => t.dev.rd .ZL_STAT_LOOP n = 0 ∧ t.dev.rd .ZL_LOOP_MODE n = 0 ∧
      (s.dev.laneIs n .off = false → s.dev.laneIs n .fault = false → t.dev.laneIs n .locking = true)) ∧
    (mode.val = 3 → s.dev.laneRuns n = false → s.dev.rd .ZL_LOOP_MODE n = 0 → Gives (.loopModeWrite lvl n mode) s fun t => t = s) ∧
    (mode.val ≠ 0 → s.dev.laneIdle n = true → mode.val ≠ 3 ∨ (s.dev.laneRuns n = true ∧ s.dev.rd .ZL_LOOP_MODE n = 0) →
      Gives (.loopModeWrite lvl n mode) s fun t => t.dev.rd .ZL_STAT_LOOP n = 1 ∧ t.dev.rd .ZL_LOOP_MODE n = mode.val) ∧
    (mode.val ≠ 0 → s.dev.laneIdle n = false → Gives (.loopModeWrite lvl n mode) s fun t => t = s))

/-- Frames on the lanes (07, R177 to R194, R198). -/
def Obligations.LaneFramesTakeEffect : Prop :=
  (∀ (n : LaneNo) (f : FifoLine) (s : State), s.dev.laneIs n .timed = true → s.dev.nextDose n = some f →
    Gives (.doseFrameSend n false) s (fun t => (∀ x ∈ (t.dev.lane n).fifo, x.jn = f.jn ∧ x.line = f.line → x.doseSent = true) ∧
      (t.dev.lane n).sent.take 2 = [⟨((s.dev.lane n).fseq + 1) % 256, .tally f.jn f.line f.tv⟩, ⟨(s.dev.lane n).fseq, .dose f.jn f.line f.bytes⟩]) ∧
    Gives (.doseFrameSend n true) s (fun t => ∀ x ∈ (t.dev.lane n).fifo, x.jn = f.jn ∧ x.line = f.line → x.withheld = 4)) ∧
  (∀ s : State, s.dev.runs .cc0 = true → Gives .heatPeriod s fun t => ∀ n, n < s.dev.nLanes → s.dev.laneRuns n = true →
    t.dev.rd .HT_STAT_DUTY n = (if s.dev.hen n then s.dev.htDuty n else 0) % 2 ^ 16) ∧
  (∀ (n : LaneNo) (f : StatusFrame) (s : State), s.dev.laneHears n = true → Gives (.statusFrame n f) s fun t =>
    t.dev.rd .ZL_HEAD_THERM n = f.therm.toNat ∧ t.dev.rd .ZL_HEAD_FLAGS n = f.flags.toNat ∧ t.dev.rd .ZL_STAT_HDPRES n = bit (bitOf f.flags.toNat 3)) ∧
  (∀ (n : LaneNo) (s : State), s.dev.laneRuns n = true → Gives (.beaconPeriod n) s fun t =>
    (t.dev.lane n).beaconNum = ((s.dev.lane n).beaconNum + 1) % 2 ^ 32 ∧ (t.dev.lane n).corr = 0) ∧
  (∀ (n : LaneNo) (f : EchoFrame) (s : State), s.dev.laneHears n = true →
    let hit := (Tab.at s.dev.integ.tally n).find? (fun e => decide (e.jn % 256 = f.jnLow.toNat) && decide (e.line = f.line.toNat))
    (hit = none → Gives (.echoFrame n f) s fun t => (t.dev.lane n).unmatched = (s.dev.lane n).unmatched + 1 ∧ t.dev.integ = s.dev.integ) ∧
    (∀ e, hit = some e → Gives (.echoFrame n f) s fun t => (t.dev.lane n).unmatched = (s.dev.lane n).unmatched ∧
      (t.dev.lane n).rxSeq = ((s.dev.lane n).rxSeq + 1) % 256 ∧
      t.dev.rd .ZL_ECHO_LATE n = (if f.entryPoisoned = false ∧ f.result.toNat = 3 then min (s.dev.rd .ZL_ECHO_LATE n + 1) 255 else s.dev.rd .ZL_ECHO_LATE n))) ∧
  (∀ (n : LaneNo) (jn line : U32) (e : TallyEnt) (s : State),
    (Tab.at s.dev.integ.tally n).find? (fun e => decide (e.jn = jn.toNat) && decide (e.line = line.toNat)) = some e →
    s.dev.rxSleeps n = false → s.dev.echoOver n e = true → Gives (.echoTimeout n jn line) s fun t =>
      t.dev.rd .ZL_ECHO_TIMEOUT n = min (s.dev.rd .ZL_ECHO_TIMEOUT n + 1) 255) ∧
  (∀ (n : LaneNo) (s : State), s.dev.laneHears n = true ∨ s.dev.laneIs n .locked = true → Gives (.rxFrameError n) s fun t =>
    (s.dev.laneRuns n = true → (t.dev.lane n).asked = true) ∧
    t.dev.rd .ZL_FERR_RXBAD n = min (s.dev.rd .ZL_FERR_RXBAD n + 1) 65535 ∧ (t.dev.lane n).rxSeq = ((s.dev.lane n).rxSeq + 1) % 256 ∧ t.dev.evPending Ev.ZL_FRAME_ERR) ∧
  (∀ (n : LaneNo) (t0 : Nat) (s : State), (s.dev.lane n).lossAt = some t0 → s.dev.passed t0 (1000000 * s.dev.rd .ZL_CTL_RECOV) = true → (s.dev.lane n).stopAsked = false → s.dev.laneIs n .timed = false →
    s.dev.lanePlaced n = true → Gives (.zlRecovStop n) s fun t => (t.dev.lane n).stopAsked = true ∧ bitOf (t.dev.rd .AON_STATE_STOPREQ) StopBit.laneRecovery.num = true) ∧
  (∀ (n : LaneNo) (g : Byte) (fw : U16) (p : Bool) (ser : U64) (s : State), s.dev.laneHears n = true → Gives (.mgmtResponse n (.ident g p fw ser)) s fun t =>
    (t.dev.lane n).ident = some (g.toNat + 256 * bit p, fw.toNat, ser.toNat)) ∧
  (∀ (lvl : Lvl) (n : LaneNo) (errors : U32) (s : State), s.dev.Reaches lvl (0x700014 + 0x400 * n.val) → Gives (.loopTest lvl n errors) s fun t =>
    t.dev.rd .ZL_LOOP_TEST n = 1 ∧ t.dev.rd .ZL_LOOPERR_BITS n = (if s.dev.flag .ZL_STAT_LOOP n then errors.toNat else 0))

/-- WASTE_MARK and Tally (08, R209, R212, R215, R216). -/
def Obligations.MarkAndTallyTakeEffect : Prop :=
  (∀ (jn pn : U32) (s : State), s.dev.rd .SP_WASTE_CTL_MODE = 0 → Gives (.markPoint jn pn false) s fun t => t = s) ∧
  (∀ (jn pn : U32) (p : Prod) (s : State), s.dev.rd .SP_WASTE_CTL_MODE ≠ 0 → s.dev.prod jn.toNat pn.toNat = some p → p.st ≠ .marked →
    (s.dev.atMark p = false → Gives (.markPoint jn pn false) s fun t => t = s) ∧
    (s.dev.atMark p = true → p.spoil = true ∨ p.st = .opened → Gives (.markPoint jn pn false) s fun t =>
      t.dev.integ.mark = true ∧
      t.dev.prod jn.toNat pn.toNat = some { p with st := .marked, unclosed := decide (p.st = .opened) } ∧
      (p.st = .opened → t.dev.rd .SP_STAT_EARLY = 1) ∧
      (s.dev.rd .SP_WASTE_CTL_MODE = 1 →
        t.dev.integ.pulseEnd = some (max (s.dev.integ.pulseEnd.getD 0) (s.dev.now + s.dev.rd .SP_WASTE_CTL_WIDTH * 100000))) ∧
      (s.dev.rd .SP_WASTE_CTL_MODE ≠ 1 →
        let e := p.to38 + s.dev.rd .SP_WASTE_OFS_COUNTS * 2 ^ 38
        t.dev.integ.gateEnd = some (max (s.dev.integ.gateEnd.getD e) e))) ∧
    (s.dev.atMark p = true → p.spoil = false → p.st ≠ .opened → Gives (.markPoint jn pn false) s fun t =>
      t.dev.prod jn.toNat pn.toNat = none ∧ t.dev.integ.mark = s.dev.integ.mark) ∧
    Gives (.markPoint jn pn true) s fun t => t.dev.rd .SP_STAT_PTPOI = 1) ∧
  (∀ s : State, s.dev.integ.mark = true → s.dev.markOver = true → Gives .wasteMarkEnd s fun t =>
    t.dev.integ.mark = false ∧ t.dev.integ.pulseEnd = none ∧ t.dev.integ.gateEnd = none ∧
    (∀ p ∈ t.dev.integ.prods, p.st = .marked → p.markEnded = true ∧ p.closureWritten = false)) ∧
  (∀ (lvl : Lvl) (s : State),
    let c := s.dev.rd .TALLY_CTX_CTX
    let st := BitVec.ofNat 32 (s.dev.rd .TALLY_VAL_STATE c)
    (s.dev.tallyOwned c = false →
      (∀ v : U32, s.dev.Reaches lvl 0x80004C → Gives (.tallyFold lvl v) s fun t =>
        t.dev.rd .TALLY_VAL_STATE c = (crcFeed 0xFFFFFFFF#32 (le 4 (s.dev.rd .TALLY_FOLD_V 0) ++ le 4 (s.dev.rd .TALLY_FOLD_V 1) ++ le 4 v.toNat)).toNat) ∧
      (∀ v : Byte, s.dev.Reaches lvl 0x800050 → Gives (.tallyInB lvl v) s fun t => t.dev.rd .TALLY_VAL_STATE c = (crcByte st v).toNat) ∧
      (∀ v : U16, s.dev.Reaches lvl 0x800054 → Gives (.tallyInH lvl v) s fun t => t.dev.rd .TALLY_VAL_STATE c = (crcFeed st (le 2 v.toNat)).toNat) ∧
      (∀ v : U32, s.dev.Reaches lvl 0x800058 → Gives (.tallyInW lvl v) s fun t => t.dev.rd .TALLY_VAL_STATE c = (crcFeed st (le 4 v.toNat)).toNat)) ∧
    (s.dev.tallyOwned c = true →
      let kept := fun t : State => t.dev.rd .SP_STAT_TOWN = 1 ∧ ∀ k, t.dev.rd .TALLY_VAL_STATE k = s.dev.rd .TALLY_VAL_STATE k
      (∀ v : U32, s.dev.Reaches lvl 0x80004C → Gives (.tallyFold lvl v) s kept) ∧
      (∀ v : Byte, s.dev.Reaches lvl 0x800050 → Gives (.tallyInB lvl v) s kept) ∧
      (∀ v : U16, s.dev.Reaches lvl 0x800054 → Gives (.tallyInH lvl v) s kept) ∧
      (∀ v : U32, s.dev.Reaches lvl 0x800058 → Gives (.tallyInW lvl v) s kept))) ∧
  (∀ (lvl : Lvl) (c : LaneNo) (v : U32) (s : State), s.dev.Reaches lvl (0x800200 + 4 * c.val) →
    (s.dev.tallyOwned c = false → Gives (.tallyValWrite lvl c v) s fun t => t.dev.rd .TALLY_VAL_STATE c = v.toNat) ∧
    (s.dev.tallyOwned c = true → Gives (.tallyValWrite lvl c v) s fun t => t.dev.rd .SP_STAT_TOWN = 1 ∧ t.dev.rd .TALLY_VAL_STATE c = s.dev.rd .TALLY_VAL_STATE c))

/-- Triggers, strobes, exposure sets and calibration of the camera ports (09, R223 to R228, R238). -/
def Obligations.VisionTriggersTakeEffect : Prop :=
  (∀ (lvl : Lvl) (p : Port) (hi : U16) (s : State), s.dev.Reaches lvl (visReg p 0x00C) →
    ((s.dev.vp p).trigQ.length < 8 → Gives (.triggerEnqueue lvl p hi) s fun t =>
      (t.dev.vp p).trigQ = (s.dev.vp p).trigQ ++ [(s.dev.vp p).trigLo + 2 ^ 32 * hi.toNat]) ∧
    (8 ≤ (s.dev.vp p).trigQ.length → Gives (.triggerEnqueue lvl p hi) s fun t =>
      t.dev.vis = s.dev.vis ∧ t.dev.rd .VIS_STAT_SKIP p = 1)) ∧
  (∀ (p : Port) (s : State) (pos : Nat) (rest : List Nat), s.dev.visOn p = true → (s.dev.vp p).trigQ = pos :: rest →
    0 ≤ pdiff s.dev.fire.pos (BitVec.ofNat 48 pos) →
    ((s.dev.vp p).headPast = false → s.dev.visBusy p = false → Gives (.cameraTrigger p) s fun t =>
      (t.dev.vp p).trigQ = rest ∧ (t.dev.vp p).trig = true ∧ (t.dev.vp p).nextId = ((s.dev.vp p).nextId + 1) % 2 ^ 32 ∧
      t.dev.rd .VIS_FRAME_FRAMEID p = (s.dev.vp p).nextId % 2 ^ 32 ∧ t.dev.rd .VIS_STAT_STATE p = 2 ∧
      ∃ f, (if (s.dev.vp p).cap.isSome then (t.dev.vp p).nextCap else (t.dev.vp p).cap) = some f ∧
        f.id = (s.dev.vp p).nextId ∧ f.pos = s.dev.fire.pos.toNat ∧ f.started = false) ∧
    ((s.dev.vp p).headPast = true ∨ s.dev.visBusy p = true → Gives (.cameraTrigger p) s fun t =>
      (t.dev.vp p).trigQ = rest ∧ (t.dev.vp p).nextId = (s.dev.vp p).nextId ∧ t.dev.rd .VIS_STAT_SKIP p = 1 ∧ t.dev.evPending Ev.CAM_TRIG_SKIP)) ∧
  (∀ (p : Port) (s : State), Gives (.triggerPulseEnd p) s (fun t => (t.dev.vp p).trig = false) ∧
    ((s.dev.vp p).strbPend = true → Gives (.strobeStart p) s fun t => (t.dev.vp p).strb = true ∧ (t.dev.vp p).strbPend = false) ∧
    Gives (.strobeEnd p) s fun t => (t.dev.vp p).strb = false) ∧
  (∀ (lvl : Lvl) (p : Port) (s : State), s.dev.Reaches lvl (visReg p 0x014) →
    (s.dev.flag .VIS_ESCTL_COMMIT p = true → Gives (.exposureCommit lvl p) s fun t => t = s) ∧
    (s.dev.flag .VIS_ESCTL_COMMIT p = false → Gives (.exposureCommit lvl p) s fun t =>
      let slot := s.dev.rd .VIS_ESCTL_SLOT p
      t.dev.rd .VIS_ESCTL_COMMIT p = 1 ∧ (t.dev.vp p).pend =
        some ⟨{ n := (s.dev.vp p).commits + 1, slot := slot, esid := s.dev.rd .VIS_ESA_ESID p slot, width := s.dev.rd .VIS_ESA_WIDTH p slot,
                ratio := s.dev.rd .VIS_ESB_RATIO p slot, i2c0 := s.dev.rd .VIS_ESB_I2C0 p slot, i2cn := s.dev.rd .VIS_ESB_I2CN p slot },
              false, if s.dev.rd .VIS_STAT_STATE p = 1 then .issuing else .waiting⟩)) ∧
  (∀ (p : Port) (s : State) (c : Commit), (s.dev.vp p).pend = some c → c.list = .issuing →
    Gives (.i2cListComplete p) s (fun t =>
      t.dev.out = (c.set.entries.map (s.dev.i2cWrite p)).reverse ++ s.dev.out ∧
      (t.dev.vp p).sensorAt = (s.dev.vp p).sensorAt ++ [(((s.dev.vp p).nextId + s.dev.rd .VIS_CFG_LAT p) % 2 ^ 32, c.set)] ∧
      (c.strobeIn = true → (t.dev.vp p).pend = none ∧ t.dev.rd .VIS_ESCTL_COMMIT p = 0) ∧
      (c.strobeIn = false → (t.dev.vp p).pend = some { c with list := .ended })) ∧
    ∀ entry : Fin 256, (entry.val ∉ c.set.entries → Gives (.camI2cFail p entry) s fun t => t = s) ∧
      (entry.val ∈ c.set.entries → Gives (.camI2cFail p entry) s fun t =>
      (t.dev.vp p).sensorAt = [] ∧ (t.dev.vp p).sensorLost = true ∧ t.dev.rd .VIS_STAT_I2C p = 1 ∧ t.dev.evPending Ev.CAM_I2C_FAIL)) ∧
  (∀ (lvl : Lvl) (p : Port) (s : State), s.dev.Reaches lvl (visReg p 0x084) → Gives (.calStart lvl p) s fun t => (t.dev.vp p).calPend = true) ∧
  (∀ (lvl : Lvl) (p : Port) (v : U32) (s : State), s.dev.Reaches lvl (visReg p 0x080) → Gives (.ffbaseWrite lvl p v) s fun t =>
    t.dev.rd .VIS_FFBASE_ADDR p = v.toNat % 2 ^ 28 ∧ (t.dev.vp p).ffPend = some (v.toNat % 2 ^ 28))

/-- Frames of the camera ports (09, R222, R230 to R237). -/
def Obligations.VisionFramesTakeEffect : Prop :=
  (∀ (p : Port) (pkt : CsiPkt) (s : State) (c : Cap), (s.dev.vp p).cap = some c → s.dev.visOn p = true →
    s.dev.rd .VIS_STAT_STATE p ≠ 4 → pkt.hdrErr.val ≠ 2 → pkt.vc.val = s.dev.rd .VIS_CFG_VC0 p →
    (pkt.dtype.toNat = 0 → c.started = false → Gives (.csiPacket p pkt) s fun t =>
      (t.dev.vp p).cap = some { c with started := true, seenAt := s.dev.now } ∧
      t.dev.rd .VIS_STAT_STATE p = (if (s.dev.vp p).nextCap.isSome then s.dev.rd .VIS_STAT_STATE p else 3)) ∧
    (pkt.dtype.toNat ≠ 0 → pkt.dtype.toNat = 0x2B + s.dev.rd .VIS_CFG_FMT p → s.dev.visAccepts p = true → c.started = true → c.dropped = false →
      (s.dev.visFull p pkt.full = false → s.dev.visStream p 0 = false → Gives (.csiPacket p pkt) s fun t =>
        ∃ c', (t.dev.vp p).cap = some c' ∧ c'.n0 = c.n0 + 1 ∧
          c'.lines0 = (c.lines0 ++ [((pkt.pixels.map BitVec.toNat) ++ List.replicate (s.dev.rd .VIS_GEOM_WIDTH p) 0).take (s.dev.rd .VIS_GEOM_WIDTH p)]).take
            (s.dev.rd .VIS_GEOM_HEIGHT p) ∧
          c'.flags.crcErr = (c.flags.crcErr || !pkt.crcOk) ∧
          c'.flags.geom = (c.flags.geom || decide (pkt.pixels.length ≠ s.dev.rd .VIS_GEOM_WIDTH p))) ∧
      (s.dev.visFull p pkt.full = true → Gives (.csiPacket p pkt) s fun t =>
        (t.dev.vp p).cap = some { c with dropped := true } ∧ t.dev.rd .VIS_STAT_DROP p = 1 ∧
        t.dev.rd .VIS_CNT_DROPS p = min (s.dev.rd .VIS_CNT_DROPS p + 1) 65535 ∧ t.dev.evPending Ev.CAM_FRAME_DROP))) ∧
  (∀ (p : Port) (s : State) (c : Cap), (s.dev.vp p).cap = some c → s.dev.visOn p = true → s.dev.rd .VIS_STAT_STATE p ≠ 4 →
    (c.started = true → Gives (.frameEnd p) s fun t =>
      (t.dev.vp p).cap.map (·.id) = (s.dev.vp p).nextCap.map (·.id) ∧ (t.dev.vp p).nextCap = none ∧ (t.dev.vp p).timeouts = 0 ∧
      t.dev.rd .VIS_STAT_STATE p = (if (s.dev.vp p).nextCap.isSome then 2 else 1) ∧
      (c.dropped = false → c.flags.crcErr = true → t.dev.rd .VIS_STAT_CRC p = 1) ∧
      (c.dropped = false → c.n0 ≠ s.dev.rd .VIS_GEOM_HEIGHT p → t.dev.rd .VIS_STAT_GEOM p = 1)) ∧
    (c.dropped = false → s.dev.visOver p c = true → Gives (.frameWatchdogTimeout p) s fun t =>
      (t.dev.vp p).cap = none ∧ t.dev.rd .VIS_STAT_STATE p = 4 ∧ t.dev.rd .VIS_STAT_TIMEOUT p = 1 ∧
      t.dev.rd .VIS_CNT_TIMEOUTS p = min (s.dev.rd .VIS_CNT_TIMEOUTS p + 1) 65535 ∧
      (t.dev.vp p).timeouts = ((s.dev.vp p).timeouts + 1) % 3 ∧
      ((s.dev.vp p).timeouts + 1 ≠ 3 → t.dev.evPending Ev.CAM_TIMEOUT) ∧ ((s.dev.vp p).timeouts + 1 = 3 → t.dev.evPending Ev.CAM_LINK))) ∧
  (∀ (p : Port) (s : State), s.dev.rd .VIS_STAT_STATE p = 4 → Gives (.camResetDone p) s fun t =>
    (t.dev.vp p).cap.map (·.id) = (s.dev.vp p).nextCap.map (·.id) ∧ (t.dev.vp p).nextCap = none ∧
    t.dev.rd .VIS_STAT_STATE p = (if (s.dev.vp p).nextCap.isSome then 2 else 1))

/-- The loops of VS (10, R243 to R261): the gap of a product on the one bar that VS has a report of; a gap that is not measured changes
nothing. -/
def Obligations.NozzleAndRegisterLoops : Prop :=
  (∀ (p : Port) (jn pn frame : U32) (marks : List GapBar) (s : State), (s.dev.numberOf jn.toNat pn.toNat).bind id = none →
    Gives (.gapMeasurement p jn pn frame marks) s fun t => t = s) ∧
  (∀ (p : Port) (jn pn frame : U32) (marks : List GapBar) (bar c : Nat) (plan : BrimPlan) (r : StartReport) (b : CamBuf) (s : State),
    s.dev.plan = some plan → s.dev.runs .vs = true → s.dev.numberOf jn.toNat pn.toNat = some (some c) →
    (s.dev.bars.map (·.bar)).filter (fun k => (s.dev.reportOf jn.toNat pn.toNat k).isSome) = [bar] →
    s.dev.reportOf jn.toNat pn.toNat bar = some r → s.dev.usableBuf p frame.toNat 1 (nth plan.win bar) = some b →
    s.dev.gapGood jn.toNat pn.toNat bar = true →
    let xs := s.dev.measureDashes p plan r b
    let f := s.dev.stripeFit xs
    f.ok = true →
    (∀ h : Nat, s.dev.flag .VL_CTL_NZEN = true → xs ≠ [] → (∀ x ∈ xs, dashSlot x = h) →
      let dref := s.dev.drefNext h xs
      let absent := (xs.filter (fun x => !dashPresent x dref)).length
      (xs.length < 4 * absent → Gives (.gapMeasurement p jn pn frame marks) s fun t =>
        t.dev.evPending Ev.NZ_HEAD_SUSPECT ∧ t.dev.loops.dref = s.dev.loops.dref ∧ ∀ ch, t.dev.nozzle ch = s.dev.nozzle ch) ∧
      (4 * absent ≤ xs.length → (xs.map (·.ch)).Nodup → Gives (.gapMeasurement p jn pn frame marks) s fun t =>
        (Tab.at t.dev.loops.dref h : Option Nat) = some dref ∧
        ∀ x ∈ xs,
          let rho : Int := if dref = 0 then 65536 else (dashDensity x * 65536 / dref : Nat)
          let n := (s.dev.nozzle x.ch.toNat).check (dashPresent x dref) rho (f.delta x.pos.toNat x.xc)
          (t.dev.nozzle x.ch.toNat).st = n.st ∧ (t.dev.nozzle x.ch.toNat).gain = n.gain ∧ (t.dev.nozzle x.ch.toNat).lat = n.lat)) ∧
    (∀ e dw : Int, s.dev.marksSeen p frame.toNat = true → s.dev.registers bar = true →
      decide (plan.markOfs + plan.markLines ≤ ((s.dev.job jn.toNat).bind (·.rec?)).elim 0 (·.brimLines)) = true →
      let seen := fun (k : Nat) => ((marks.find? (fun g => g.bar.val = k)).map (·.marks)).getD []
      offsets plan f bar (seen bar) (if s.dev.gapGood jn.toNat pn.toNat plan.refBar then seen plan.refBar else []) = some (e, dw) →
      Gives (.gapMeasurement p jn pn frame marks) s fun t =>
        let l := s.dev.barLoop bar
        let trim := ((s.dev.loops.trims.find? (fun x => x.1 = (jn.toNat, pn.toNat, bar))).map (·.2)).getD 0
        (t.dev.barLoop bar).e = l.e + (e - r.act * 1024 - l.e) / 4 ∧ (t.dev.barLoop bar).d = l.d + (dw - l.d - trim * 1024) / 4)) ∧
  (∀ (bar : Pipe) (s : State) (st : HandStep) (rest : List HandStep) (a jn pn line : Nat), (s.dev.barLoop bar).steps = st :: rest →
    s.dev.axisOf bar = some a → st.prod = some (jn, pn, line) → st.moving = false → s.dev.axAccepts a false = true → s.dev.mayMove bar jn line = true →
    Gives (.handoverStep bar) s fun t =>
      (t.dev.barLoop bar).steps = { st with moving := true } :: rest ∧ (t.dev.barLoop bar).discard = (s.dev.barLoop bar).discard ++ [(jn, pn - 1)] ∧
      t.dev.rd .AX_TGT_POS a = unsign 32 (s.dev.stepTarget a st.target) ∧ t.dev.evPending Ev.REG_STEP)

/-- The states of a bar axis (11, R266 to R273, Table 11-1). -/
def Obligations.AxisCommandsTakeEffect : Prop :=
  (∀ (lvl : Lvl) (a : AxisNo) (s : State), s.dev.Reaches lvl (0xA00048 + 0x80 * a.val) →
    (s.dev.mayHome a = true → Gives (.axHome lvl a) s fun t => t.dev.axIs a (if (s.dev.ax a).homeIn then .backoff else .seek) = true) ∧
    (s.dev.mayHome a = false → Gives (.axHome lvl a) s fun t => t = s) ∧
    (s.dev.axOn a = true → s.dev.axIs a .fault = false →
      (s.dev.homing a = true → Gives (.axStop lvl a) s fun t => t.dev.axIs a .unhomed = true ∧ t.dev.evPending Ev.AX_HOME_ABORT) ∧
      (s.dev.homing a = false → (s.dev.ax a).prof.run ≠ .maxStop → Gives (.axStop lvl a) s fun t =>
        (t.dev.ax a).prof = (s.dev.ax a).prof.planStop (s.dev.kin a))) ∧
    (s.dev.axIs a .fault = true → Gives (.axFclr lvl a) s fun t => t.dev.axIs a .unhomed = true)) ∧
  (∀ (a : AxisNo) (s : State), s.dev.axOn a = true →
    (s.dev.axIs a .seek = true → Gives (.homeInputChange a .active) s fun t => t.dev.axIs a .backoff = true ∧ t.dev.rd .AX_STAT_HOMESW a = 1) ∧
    (s.dev.axIs a .backoff = true → Gives (.homeInputChange a .inactive) s fun t => t.dev.axIs a .latch = true ∧ t.dev.rd .AX_STAT_HOMESW a = 0) ∧
    (s.dev.axIs a .latch = true → s.dev.rd .AX_CFG_FB a ≠ 2 → Gives (.homeInputChange a .active) s fun t =>
      t.dev.axIs a .homingSettle = true ∧ (t.dev.ax a).est = s.dev.srd .AX_HOMEPOS_POS a * 2 ^ 32) ∧
    (s.dev.axIs a .latch = true → s.dev.rd .AX_CFG_FB a = 2 → (s.dev.ax a).edge = true → Gives (.homeInputChange a .index) s fun t =>
      t.dev.axIs a .homingSettle = true ∧ (t.dev.ax a).est = s.dev.srd .AX_HOMEPOS_POS a * 2 ^ 32) ∧
    (∀ t₀ : Nat, s.dev.homing a = true → (s.dev.ax a).homeSince = some t₀ → t₀ + 1000000000 * s.dev.rd .AX_HOMECFG_HTO a ≤ s.dev.now →
      Gives (.homingTimeout a) s fun t => t.dev.axIs a .unhomed = true ∧ (t.dev.ax a).homeSince = none ∧ t.dev.evPending Ev.AX_HOME_ABORT) ∧
    (∀ t₀ : Nat, (s.dev.ax a).feSince = some t₀ → t₀ + 1000000 * s.dev.rd .AX_PLAUS_FETIME a ≤ s.dev.now → s.dev.axIs a .fault = false →
      (s.dev.homing a = false → Gives (.followingErrorFault a) s fun t =>
        t.dev.axIs a .fault = true ∧ (t.dev.ax a).prof.run = .rest ∧ (t.dev.ax a).prof.v = 0 ∧ (t.dev.ax a).prof.p = (s.dev.ax a).prof.p ∧
        (t.dev.barLoop (s.dev.axisBar a)).steps = [] ∧ t.dev.evPending Ev.AX_FAULT) ∧
      (s.dev.homing a = true → Gives (.followingErrorFault a) s fun t =>
        t.dev.axIs a .unhomed = true ∧ t.dev.evPending Ev.AX_HOME_ABORT ∧ t.dev.evPending Ev.AX_FAULT)) ∧
    (∀ t₀ : Nat, (s.dev.ax a).feSince = some t₀ → s.dev.now < t₀ + 1000000 * s.dev.rd .AX_PLAUS_FETIME a →
      Gives (.followingErrorFault a) s fun t => t = s) ∧
    (∀ high : Bool, s.dev.limIsHome a high = false →
      (s.dev.homing a = true → Gives (.limitTrip a high) s fun t => t.dev.latched a high = true ∧ t.dev.axIs a .unhomed = true ∧ t.dev.evPending Ev.AX_HOME_ABORT) ∧
      (s.dev.homing a = false → (s.dev.ax a).prof.toward high = true → Gives (.limitTrip a high) s fun t =>
        t.dev.latched a high = true ∧ (t.dev.ax a).prof = (s.dev.ax a).prof.planMaxStop (s.dev.kin a) ∧ t.dev.evPending Ev.AX_LIMIT) ∧
      (s.dev.homing a = false → (s.dev.ax a).prof.toward high = false → Gives (.limitTrip a high) s fun t =>
        t.dev.latched a high = true ∧ (t.dev.ax a).prof = (s.dev.ax a).prof)) ∧
    (∀ (high : Bool) (trip : Int), (if high then (s.dev.ax a).high.at? else (s.dev.ax a).low.at?) = some trip → s.dev.awayFrom a high trip = true →
      Gives (.limitLatchClear a high) s fun t => t.dev.latched a high = false)) ∧
  (∀ (lvl : Lvl) (a : AxisNo) (v : U32) (s : State), s.dev.Reaches lvl (0xA00028 + 0x80 * a.val) →
    (s.dev.axAccepts a false = false → Gives (.axTgtWrite lvl a v) s fun t => t.dev.rd .AX_TGT_POS a = v.toNat ∧ t.dev.axes = s.dev.axes) ∧
    (s.dev.axAccepts a false = true → s.dev.latched a true = false → s.dev.latched a false = false → (s.dev.ax a).prof.run ≠ .maxStop →
      Gives (.axTgtWrite lvl a v) s fun t => t.dev.rd .AX_TGT_POS a = v.toNat ∧
        (t.dev.ax a).prof = (s.dev.ax a).prof.planTo (s.dev.kin a)
          (clampInt (s.dev.srd .AX_SOFT_POS a 0) (s.dev.srd .AX_SOFT_POS a 1) v.toInt * 2 ^ 32)))

/-- Samples, axis ports and traces (11, R264 to R280, R288). -/
def Obligations.AxisSamplesTakeEffect : Prop :=
  (∀ s : State, Gives .axisSample s fun t => ∀ a, a < 16 → s.dev.axOn a = true →
    ((s.dev.ax a).prof.waiting = none → (t.dev.ax a).prof = (s.dev.ax a).prof.advance 50000) ∧ t.dev.rd .AX_CFG_CCOMMIT a = 0 ∧
    t.dev.rd .AX_CMDPOS_POS a = unsign 32 ((t.dev.ax a).prof.p / 2 ^ 32) ∧ t.dev.rd .AX_STAT_MOVING a = bit ((t.dev.ax a).prof.run != .rest) ∧
    (s.dev.flag .AX_CFG_CCOMMIT a = true → (t.dev.ax a).comp.coef = s.dev.axShadow a)) ∧
  (∀ (a : AxisNo) (qa qb : Bool) (s : State), s.dev.axOn a = true → s.dev.rd .AX_CFG_FB a = 2 → Gives (.axisFeedbackChange a (.quad qa qb)) s fun t =>
    (t.dev.ax a).qa = qa ∧ (t.dev.ax a).qb = qb ∧
    (t.dev.ax a).est = (s.dev.ax a).est + quadCount (s.dev.ax a).qa (s.dev.ax a).qb qa qb * (s.dev.rd .AX_QSCALE_SPC a * 2 ^ 24 : Nat)) ∧
  (∀ (a : AxisNo) (h : BitVec 3) (x y : Nat) (s : State), s.dev.axOn a = true → s.dev.rd .AX_CFG_FB a = 1 → hallSector (s.dev.ax a).hall = some x →
    hallSector h.toNat = some y →
    (y = (x + 1) % 6 → Gives (.axisFeedbackChange a (.hall h)) s fun t => (t.dev.ax a).hall = h.toNat ∧ (t.dev.ax a).est = sectorStart y (s.dev.ax a).prof.p ∧
      (t.dev.ax a).estAt = s.dev.now) ∧
    (x = (y + 1) % 6 → Gives (.axisFeedbackChange a (.hall h)) s fun t => (t.dev.ax a).hall = h.toNat ∧ (t.dev.ax a).est = sectorStart x (s.dev.ax a).prof.p ∧
      (t.dev.ax a).estAt = s.dev.now)) ∧
  (∀ s : State, s.dev.domOn .sup = true → Gives .axsyncPeriod s fun t => t.dev.pins.axsyncAt = some s.dev.now ∧
    ∀ p, p < s.dev.nAxes / 4 → (Tab.at t.dev.axp p : AxPort).fcnt = ((Tab.at s.dev.axp p : AxPort).fcnt + 1) % 256) ∧
  (∀ (p : Port) (f : ReturnFrame) (s : State), s.dev.domOn .sup = true → p.val < s.dev.nAxes / 4 →
    let ok := retCrcOk f && decide (f.fcnt.toNat = ((Tab.at s.dev.axp p.val : AxPort).fcnt + 255) % 256)
    (ok = true → Gives (.returnFrame p f) s fun t => ∀ k w, (w, k) ∈ (retStatus f).zipIdx → s.dev.axOn (4 * p + k) = true →
      (w.getLsbD 1 = true ∨ w.getLsbD 3 = true) →
      t.dev.axIs (4 * p + k) (if s.dev.homing (4 * p + k) then .unhomed else .fault) = true ∧ (t.dev.ax (4 * p + k)).fails = 0) ∧
    (ok = false → Gives (.returnFrame p f) s fun t =>
      t.dev.rd .AXP_ERR_RCRC p = min (s.dev.rd .AXP_ERR_RCRC p + 1) 65535 ∧ t.dev.evPending Ev.AXP_CRC)) ∧
  (∀ (lvl : Lvl) (a : AxisNo) (s : State), s.dev.Reaches lvl (0xA00000 + 0x80 * a.val) → Gives (.axCcommit lvl a) s fun t => t.dev.rd .AX_CFG_CCOMMIT a = 1) ∧
  (∀ (lvl : Lvl) (c : Fin 4) (s : State), s.dev.Reaches lvl (0xA0200C + 0x10 * c.val) →
    (s.dev.rd .TR_TRIG_MODE c ≠ 0 → Gives (.traceArm lvl c) s fun t => t.dev.rd .TR_STAT_STATE c = 1 ∧ t.dev.tr c = default) ∧
    (s.dev.rd .TR_TRIG_MODE c = 0 → Gives (.traceArm lvl c) s fun t => t.dev.rd .TR_STAT_STATE c = 2 ∧ t.dev.evPending Ev.TR_TRIGGERED))

/-- Heaters and head temperature limits (11, R280 to R287). -/
def Obligations.HeadTemperaturesTakeEffect : Prop :=
  (∀ (lvl : Lvl) (h : LaneNo) (s : State), s.dev.Reaches lvl (0xA01000 + 0x40 * h.val) → Gives (.htCcommit lvl h) s fun t => t.dev.rd .HT_CFG_CCOMMIT h = 1) ∧
  (∀ s : State, s.dev.runs .cc0 = true → Gives .heaterSample s fun t => ∀ h, h < s.dev.nLanes →
    (s.dev.flag .HT_CFG_EN h = false → (t.dev.ht h).enabled = false) ∧
    (s.dev.flag .HT_CFG_EN h = true → (t.dev.ht h).enabled = true ∧ t.dev.rd .HT_CFG_CCOMMIT h = 0 ∧
      (s.dev.flag .HT_CFG_CCOMMIT h = true → (t.dev.ht h).comp.coef = (List.range 7).map (fun i => s.dev.srd .HT_COEF_C h i)) ∧
      (s.dev.fresh h = true → 0 ≤ (t.dev.ht h).comp.out ∧ (t.dev.ht h).comp.out ≤ 65536))) ∧
  (∀ (h : LaneNo) (s : State), s.dev.guarded h = true → s.dev.fresh h = true →
    let T := s.dev.headT h
    let soft := (s.dev.ht h).soft.sample T (s.dev.headLimit h 192) (s.dev.headLimit h 192 - 32)
    let hard := (s.dev.ht h).hard.sample T (s.dev.headLimit h 194) (s.dev.headLimit h 194 - 32)
    Gives (.headTempSample h) s fun t =>
      t.dev.rd .HT_STAT_SOFT h = bit soft.on ∧ t.dev.rd .HT_STAT_HARD h = bit hard.on ∧ (t.dev.ht h).soft = soft ∧ (t.dev.ht h).hard = hard ∧
      ((s.dev.ht h).soft.on = false → soft.on = true → t.dev.evPending Ev.HEAD_SOFT) ∧
      ((s.dev.ht h).hard.on = false → hard.on = true → (t.dev.lane h).isDark = true ∧ t.dev.rd .HT_STAT_DARK h = 1 ∧
        bitOf (t.dev.rd .AON_STATE_STOPREQ) StopBit.headHard.num = true)) ∧
  (∀ (h : LaneNo) (s : State), s.dev.guarded h = true → s.dev.flag .HT_CFG_PLEN h = true → s.dev.plausDue h = true →
    s.dev.flag .HT_STAT_PLAUS h = false → Gives (.headPlaus h) s fun t =>
      t.dev.rd .HT_STAT_PLAUS h = 1 ∧ (t.dev.lane h).isDark = true ∧ t.dev.rd .HT_STAT_DARK h = 1 ∧
      bitOf (t.dev.rd .AON_STATE_STOPREQ) StopBit.headPlaus.num = true)

/-- The memory subsystem (13, R310 to R327). -/
def Obligations.MemoryTakesEffect : Prop :=
  (∀ (c : Chan) (idle : Bool) (s : State), s.dev.trained c = true → (s.dev.mch c).leave2x = false → s.dev.flag .MEM_CH_STAT_BAND2X c = false →
    Gives (.refreshInterval c idle) s fun t =>
      t.dev.rd .MEM_CH_STAT_OWED c = if idle = true ∨ 5 ≤ s.dev.rd .MEM_CH_STAT_OWED c + 1 then 0 else s.dev.rd .MEM_CH_STAT_OWED c + 1) ∧
  (∀ (c : Chan) (td : U16) (s : State), s.dev.trained c = true → Gives (.mr4Poll c td) s fun t =>
    let band := (s.dev.mch c).band.sample td.toInt 1360 1328
    t.dev.rd .MEM_TEMP_TD c = td.toNat ∧ (t.dev.mch c).band = band ∧
    ((s.dev.mch c).band.on = false → band.on = true → t.dev.rd .MEM_CH_STAT_BAND2X c = 1 ∧ t.dev.rd .MEM_CH_STAT_OWED c = 0 ∧ t.dev.evPending Ev.MEM_REF2X) ∧
    ((s.dev.mch c).band.on = true → band.on = false → t.dev.rd .MEM_CH_STAT_BAND2X c = 0 ∧ t.dev.evPending Ev.MEM_REF2X)) ∧
  (∀ s : State, s.dev.windowMayOpen = true → Gives .calWindowOpen s fun t =>
    t.dev.rd .MEM_CH_STAT_STATE 0 = 3 ∧ (t.dev.mch 0).window = some (s.dev.rd .MEM_CH_STAT_STEP 0)) ∧
  (∀ (rd wr : Byte) (l : Nat) (s : State), (s.dev.mch 0).window = some l →
    (Gives (.calWindowEnd rd wr false) s fun t => (t.dev.mch 0).window = none ∧ t.dev.rd .MEM_CH_STAT_STATE 0 = 2 ∧
      t.dev.rd .MEM_CALCNT_ABANDON 0 = min (s.dev.rd .MEM_CALCNT_ABANDON 0 + 1) 65535 ∧ t.dev.evPending Ev.MEM_CAL_ABANDON) ∧
    (l < 9 → Gives (.calWindowEnd rd wr true) s fun t => (t.dev.mch 0).window = none ∧ t.dev.rd .MEM_CH_STAT_STATE 0 = 2 ∧
      t.dev.rd .MEM_CH_STAT_STEP 0 = l + 1 ∧ t.dev.rd .MEM_EYE_RD 0 l = rd.toNat ∧ t.dev.rd .MEM_EYE_WR 0 l = wr.toNat) ∧
    (9 ≤ l → (s.dev.mch 0).again = none → Gives (.calWindowEnd rd wr true) s fun t => (t.dev.mch 0).window = none ∧
      t.dev.rd .MEM_CH_STAT_CALPEND 0 = 0 ∧ (t.dev.mch 0).run = false ∧ t.dev.evPending Ev.MEM_CAL_DONE)) ∧
  (∀ s : State, s.dev.flag .MEM_CH_STAT_CALPEND 0 = true → (s.dev.mch 0).window = none → (s.dev.mch 0).late = false →
    (s.dev.mch 0).waitSince + 1000000 * s.dev.rd .MEM_CALCFG_LATE < s.dev.now →
    Gives .memCalLate s fun t => (t.dev.mch 0).late = true ∧ t.dev.evPending Ev.MEM_CAL_LATE) ∧
  (∀ (eyes : List (Byte × Byte)) (s : State), wfEyes eyes = true → s.dev.trained 1 = true → Gives (.channelBRetrain eyes) s fun t =>
    t.dev.rd .MEM_CH_STAT_OWED 1 = 0 ∧ t.dev.rd .MEM_TEMP_TCAL 1 = s.dev.rd .MEM_TEMP_TD 1 % 2 ^ 16 ∧
    ∀ l e, (e, l) ∈ eyes.zipIdx → t.dev.rd .MEM_EYE_RD 1 l = e.1.toNat ∧ t.dev.rd .MEM_EYE_WR 1 l = e.2.toNat) ∧
  (∀ (us : Byte) (s : State), s.dev.rd .MEM_CTL_REQ ≠ s.dev.rd .MEM_CTL_CUR → s.dev.st.freqStates = true → (s.dev.mch 0).window = none →
    s.dev.trained 0 = true → Gives (.freqChange us) s fun t => t.dev.rd .MEM_CTL_CUR = s.dev.rd .MEM_CTL_REQ % 2 ∧
      t.dev.rd .MEM_CH_STAT_OWED 0 = 0 ∧ t.dev.rd .MEM_CH_STAT_OWED 1 = 0 ∧
      (s.dev.freqWait = true → s.dev.rd .MEM_CTL_REQ = 0 → t.dev.st = .armed)) ∧
  (∀ (addr : BitVec 36) (s : State), s.dev.flag .MEM_SCRUB_EN = true → chanOf addr.toNat = 1 → s.dev.addrOk addr.toNat = true → s.dev.trained 1 = true →
    s.dram.poison.elem (addr.toNat / 128) = false →
    Gives (.scrubRead addr .clean) s (fun t => t = s) ∧
    (∀ die, Gives (.scrubRead addr (.corrected die)) s fun t => t.dram = s.dram ∧
      t.dev.rd .MEM_CE_N 1 = min (s.dev.rd .MEM_CE_N 1 + 1) (2 ^ 32 - 1) ∧ t.dev.rd .MEM_ELOG_HI_DIE 1 = die.val ∧ t.dev.rd .MEM_ELOG_HI_UE 1 = 0) ∧
    Gives (.scrubRead addr .uncorrectable) s fun t => t.dram.mem = s.dram.mem ∧ t.dram.poison = (addr.toNat / 128) :: s.dram.poison ∧
      t.dev.rd .MEM_UE_N 1 = min (s.dev.rd .MEM_UE_N 1 + 1) 65535 ∧ t.dev.rd .MEM_ELOG_HI_UE 1 = 1 ∧ t.dev.evPending Ev.MEM_UE) ∧
  (∀ (c : Chan) (s : State), s.dev.trained c = true → Gives (.writeDrain c) s fun t =>
    t.dev.rd .MEM_WQ_LEVEL c = 16 ∧ t.dev.rd .MEM_WQ_HIGH c = max 48 (s.dev.rd .MEM_WQ_HIGH c) % 128 ∧ t.dev.rd .MEM_WQ_DRAINS c = (s.dev.rd .MEM_WQ_DRAINS c + 1) % 2 ^ 16)

/-- PTP and the switches of the timebase (15, R348 to R357). -/
def Obligations.PtpAndTimebase : Prop :=
  (∀ (port : Fin 3) (offset : U64) (delay : U32) (s : State), s.dev.ptpOn = true → s.dev.rd .PTP_CFG_ROLE ≠ 2 → port.val = s.dev.ptpPort →
    let near := decide (offset.toInt.natAbs ≤ if port.val = 2 then 5000 else 100)
    let far := decide ((if port.val = 2 then 20000 else 1000) < offset.toInt.natAbs)
    Gives (.ptpSync port offset delay) s fun t =>
      t.dev.rd .PTP_OFS_NS = satSigned 32 offset.toInt ∧ t.dev.rd .PTP_MPD_NS = delay.toNat ∧
      (s.dev.flag .PTP_STAT_LOCK = false → near = true → 15 ≤ s.dev.ptp.good → t.dev.rd .PTP_STAT_LOCK = 1 ∧ t.dev.evPending Ev.PTP_LOCK) ∧
      (s.dev.flag .PTP_STAT_LOCK = false → (near = false ∨ s.dev.ptp.good < 15) → t.dev.rd .PTP_STAT_LOCK = 0) ∧
      (s.dev.flag .PTP_STAT_LOCK = true → far = true → 3 ≤ s.dev.ptp.bad → t.dev.rd .PTP_STAT_LOCK = 0 ∧ t.dev.evPending Ev.PTP_UNLOCK) ∧
      (s.dev.flag .PTP_STAT_LOCK = true → (far = false ∨ s.dev.ptp.bad < 3) → t.dev.flag .PTP_STAT_LOCK = true)) ∧
  (∀ s : State, s.dev.ptpOn = true → s.dev.passed s.dev.ptp.syncAt s.dev.announceTime = true → Gives .announceTimeout s fun t => t.dev.ptp.master = none ∧ t.dev.rd .PTP_STAT_LOCK = 0 ∧
    (s.dev.flag .PTP_STAT_LOCK = true → t.dev.evPending Ev.PTP_UNLOCK)) ∧
  (∀ (port : Fin 3) (s : State), s.dev.ptpOn = true → s.dev.rd .PTP_CFG_ROLE ≠ 2 → port.val = s.dev.ptpPort →
    (∀ id : U64, s.dev.ptp.master ≠ some id.toNat → Gives (.ptpAnnounce port (.external id)) s fun t =>
      t.dev.ptp.master = some id.toNat ∧ t.dev.rd .PTP_STAT_LOCK = 0 ∧ t.dev.rd .PTP_STAT_PSTATE = 8 ∧
      t.dev.rd .PTP_STAT_GMCHG = min (s.dev.rd .PTP_STAT_GMCHG + 1) 65535) ∧
    Gives (.ptpAnnounce port .own) s fun t => t.dev.ptp.master = none ∧ t.dev.ptp.own = decide (s.dev.rd .PTP_CFG_ROLE = 1) ∧
      t.dev.rd .PTP_STAT_PSTATE = (if s.dev.rd .PTP_CFG_ROLE = 1 then 6 else 4)) ∧
  (∀ s : State, s.dev.ptpOn = true → (s.dev.rd .PTP_CFG_ROLE = 2 ∨ s.dev.ptp.own = true) → Gives .ptpSyncInterval s fun t =>
    t.dev.out = .ptp ⟨s.dev.ptpPort, s.dev.ptp.seq, s.dev.now⟩ :: s.dev.out ∧ t.dev.ptp.seq = (s.dev.ptp.seq + 1) % 65536 ∧ t.dev.rd .PTP_STAT_PSTATE = 6) ∧
  (∀ (t₀ : Nat) (s : State), s.dev.flag .TB_CTL_SRC = false → s.dev.flag .PTP_STAT_LOCK = false → s.dev.tb.unlockedAt = some t₀ →
    t₀ + 2000000000 ≤ s.dev.now → Gives .tbFallback s fun t =>
    t.dev.rd .TB_CTL_SRC = 1 ∧ t.dev.now = s.dev.now ∧ t.dev.rd .TB_FBINC_LO_FRAC = s.dev.mainInc % 2 ^ 32 ∧ t.dev.evPending Ev.TB_FALLBACK) ∧
  (∀ (t₀ : Nat) (s : State), s.dev.flag .TB_CTL_SRC = true → s.dev.flag .PTP_STAT_LOCK = true → s.dev.tb.lockedAt = some t₀ →
    t₀ + 1000000000 * s.dev.rd .TB_CTL_RELOCK ≤ s.dev.now →
    (s.dev.noStep = false → Gives .tbMain s fun t => t.dev.rd .TB_CTL_SRC = 0 ∧ (s.dev.tbDelta ≠ 0 → t.dev.evPending Ev.TB_STEP) ∧
      (s.dev.tbDelta = 0 → t.dev.evPending Ev.TB_MAIN)) ∧
    (s.dev.noStep = true → s.dev.tbDelta.natAbs ≤ 50 → Gives .tbMain s fun t => t.dev.rd .TB_CTL_SRC = 0 ∧ t.dev.evPending Ev.TB_MAIN) ∧
    (s.dev.noStep = true → 50 < s.dev.tbDelta.natAbs → s.dev.tbDelta.natAbs ≤ 1000000 → Gives .tbMain s fun t =>
      t.dev.tb.slewing = true ∧ t.dev.rd .TB_CTL_SRC = s.dev.rd .TB_CTL_SRC) ∧
    (s.dev.noStep = true → 1000000 < s.dev.tbDelta.natAbs → Gives .tbMain s fun t => t = s)) ∧
  (∀ s : State, s.dev.ptpOn = true →
    (s.dev.flag .PTP_CFG_MGFB = true → s.dev.ptpPort ≠ 2 → s.dev.ptp.served = false → s.dev.passed s.dev.ptp.servedAt 2000000000 = true →
      Gives .mgmtPtpFallback s fun t => t.dev.ptpPort = 2 ∧ t.dev.ptp.master = none) ∧
    (s.dev.ptpPort = 2 → s.dev.ptp.served = true → s.dev.passed s.dev.ptp.servedAt 10000000000 = true → Gives .mgmtPtpReturn s fun t => t.dev.rd .PTP_STAT_SRCPORT = 0 ∧ t.dev.ptp.master = none))

/-- The ring's frames that carry holds and status, and what their absence does (15, R359 to R362). -/
def Obligations.RingHoldsAndMembers : Prop :=
  (∀ (src hops : RingId) (rel : Bool) (cause : Byte) (seq : U16) (s : State), s.dev.ringOn = true → src.val ≠ s.dev.ringId →
    Gives (.ringHoldFrame src hops rel cause seq) s fun t =>
      (Tab.at t.dev.ring.orig src.val : Orig) = { (Tab.at s.dev.ring.orig src.val : Orig) with frames := !rel, heard := s.dev.now, down := false } ∧
      (rel = false → bitOf (t.dev.rd .RING_STAT_HOLDSRC) src.val = true ∧ t.dev.held .ring = true) ∧
      (rel = true → (Tab.at s.dev.ring.orig src.val : Orig).lost = false → bitOf (t.dev.rd .RING_STAT_HOLDSRC) src.val = false) ∧
      (∀ i : Nat, i < 8 → i ≠ src.val → (Tab.at s.dev.ring.orig i : Orig).down = false → (Tab.at t.dev.ring.orig i : Orig) = Tab.at s.dev.ring.orig i)) ∧
  (∀ (id : RingId) (s : State), s.dev.ringOn = true → s.dev.downPassed (Tab.at s.dev.ring.orig id.val : Orig).heard = true →
    Gives (.ringHoldOriginatorTimeout id) s fun t =>
    (Tab.at t.dev.ring.orig id.val : Orig) = { (Tab.at s.dev.ring.orig id.val : Orig) with frames := false } ∧
    ((Tab.at s.dev.ring.orig id.val : Orig).lost = false → (Tab.at s.dev.ring.orig id.val : Orig).down = false →
      bitOf (t.dev.rd .RING_STAT_HOLDSRC) id.val = false ∧ (s.dev.rd .RING_STAT_HOLDSRC = 2 ^ id.val → t.dev.held .ring = false))) ∧
  (∀ s : State, s.dev.ringOn = true → s.dev.localHold ≠ 0 → Gives .ringHoldSend s fun t =>
    t.dev.out = .ring ⟨s.dev.rd .RING_CFG_ID, 0, .hold false s.dev.localHold s.dev.ring.holdSeq⟩ :: s.dev.out ∧
    t.dev.ring.holdSeq = (s.dev.ring.holdSeq + 1) % 65536 ∧ t.dev.ring.announced = true) ∧
  (∀ (id : RingId) (m : Member) (s : State), s.dev.ringOn = true → Tab.at s.dev.ring.members id.val = some m → s.dev.downPassed m.at' = true →
    Gives (.ringMemberLost id) s fun t => Tab.at t.dev.ring.members id.val = (none : Option Member) ∧
      (s.dev.flag .RING_CFG_LOSTHOLD = true → s.dev.st.running = true →
        (Tab.at t.dev.ring.orig id.val : Orig) = { (Tab.at s.dev.ring.orig id.val : Orig) with lost := true } ∧
        bitOf (t.dev.rd .RING_STAT_HOLDSRC) id.val = true ∧ t.dev.held .ring = true ∧ t.dev.evPending Ev.RING_MEMBER_LOST)) ∧
  (∀ s : State, s.dev.ringOn = true → s.dev.flag .RING_STAT_UP = true → s.dev.downPassed s.dev.ring.frameAt = true → Gives .ringDown s fun t =>
    t.dev.rd .RING_STAT_UP = 0 ∧ t.dev.rd .RING_CNT_GAPS = min (s.dev.rd .RING_CNT_GAPS + 1) 65535 ∧
    (s.dev.flag .RING_CFG_DOWNHOLD = true → t.dev.evPending Ev.RING_DOWN ∧
      ∀ (i : Nat) (m : Member), i < 8 → Tab.at s.dev.ring.members i = some m → (Tab.at t.dev.ring.orig i : Orig).down = true)) ∧
  (∀ s : State, s.dev.ringOn = true → Gives .ringFrameCrcFail s fun t => t.dev.rd .RING_CNT_CRC = min (s.dev.rd .RING_CNT_CRC + 1) 65535) ∧
  (∀ (src hops : RingId) (foreign : Bool) (state holdc flags present requests : Byte) (sec : U32) (s : State), s.dev.ringOn = true →
    (src.val ≠ s.dev.ringId → Gives (.ringStatusFrame src hops foreign state holdc flags present requests sec) s fun t =>
      Tab.at t.dev.ring.members src.val = some ⟨present.toNat, requests.toNat, hops.val, s.dev.now⟩ ∧
      (Tab.at t.dev.ring.orig src.val : Orig) = { (Tab.at s.dev.ring.orig src.val : Orig) with lost := false, down := false }) ∧
    (src.val = s.dev.ringId → Gives (.ringStatusFrame src hops true state holdc flags present requests sec) s fun t =>
      t.dev.rd .RING_STAT_DUP = 1 ∧ t.dev.evPending Ev.RING_DUP)) ∧
  (∀ s : State, s.dev.ringOn = true → Gives .ringStatusSend s fun t => t.dev.out.head? = some (.ring ⟨s.dev.rd .RING_CFG_ID, 0,
    .status s.dev.st.code s.dev.localHold (s.dev.rd .PTP_STAT_LOCK + 2 * (1 - s.dev.rd .TB_CTL_SRC)) (groupMask s.dev.hasGroup) (groupMask s.dev.requests)
      (tsec s.dev.now)⟩))

/-- Time on the ring and the shared start epochs (15, R363 to R366). -/
def Obligations.RingTimeAndStarts : Prop :=
  (∀ (src hops : RingId) (second rt : U32) (s : State), s.dev.ringOn = true →
    (src.val = s.dev.ringId → ∀ t0 : Nat, s.dev.ring.pulseAt = some t0 → Gives (.ringPulseFrame src hops second rt) s fun t =>
      t.dev.rd .RING_RT_NS = (s.dev.now - t0) % 2 ^ 32 ∧ t.dev.ring.pulseAt = none) ∧
    (src.val ≠ s.dev.ringId → Gives (.ringPulseFrame src hops second rt) s fun t => ∃ n : Nat,
      n = t.dev.ringModules ∧ t.dev.rd .RING_RT_NS = rt.toNat ∧
      t.dev.rd .RING_PLS_O = satSigned 32 ((s.dev.now : Int) - s.dev.fullTime second.toNat 0 - (hops.val * rt.toNat / max 1 n : Nat)) ∧
      (s.dev.rd .RING_CFG_TTOL * 1000 < ((s.dev.now : Int) - s.dev.fullTime second.toNat 0 - (hops.val * rt.toNat / max 1 n : Nat)).natAbs →
        t.dev.evPending Ev.RING_TIME) ∧
      (hops.val + 1 < 8 → Output.ring ⟨src.val, hops.val + 1, .pulse second.toNat rt.toNat⟩ ∈ t.dev.out))) ∧
  (∀ s : State, s.dev.ringOn = true → s.dev.flag .RING_STAT_MASTER = true → Gives .pulseSend s fun t => t.dev.ring.pulseAt = some s.dev.now ∧
    t.dev.out = .ring ⟨s.dev.rd .RING_CFG_ID, 0, .pulse (tsec s.dev.now) (s.dev.rd .RING_RT_NS)⟩ :: s.dev.out) ∧
  (∀ s : State, s.dev.domOn .sup = true → Gives .countLatch s fun t => t.dev.ring.latchLo = s.dev.fire.cnt.toNat % 2 ^ 32 ∧
    t.dev.ring.latchHi = s.dev.fire.cnt.toNat / 2 ^ 32 ∧ t.dev.rd .RING_CL_S_S = tsec s.dev.now % 2 ^ 32) ∧
  (∀ (src hops group : RingId) (sec ns : U32) (s : State), s.dev.ringOn = true → src.val ≠ s.dev.ringId → s.dev.anyPend group.val = true →
    (s.dev.held .inhibit = false → (s.dev.now : Int) + 100000 ≤ s.dev.fullTime sec.toNat ns.toNat →
      Gives (.ringStartFrame src hops group sec ns) s fun t => Tab.at t.dev.ring.epochs group.val = some (s.dev.fullTime sec.toNat ns.toNat).toNat) ∧
    ((s.dev.held .inhibit = true ∨ s.dev.fullTime sec.toNat ns.toNat < (s.dev.now : Int) + 100000) →
      Gives (.ringStartFrame src hops group sec ns) s fun t => t.dev.anyPend group.val = false ∧
        Tab.at t.dev.ring.epochs group.val = (none : Option Nat) ∧ t.dev.evPending Ev.RING_START_REFUSED)) ∧
  (∀ (g : RingId) (s : State), s.dev.groupLate g.val = true → Gives (.groupStartTimeout g) s fun t =>
    t.dev.anyPend g.val = false ∧ Tab.at t.dev.ring.epochs g.val = (none : Option Nat) ∧ t.dev.evPending Ev.RING_START_REFUSED)

/-- The generic register accesses (16, R386; 17, R397, R398). -/
def Obligations.RegisterAccesses : Prop :=
  (∀ (lvl : Lvl) (addr : U32) (width : Byte) (w : Bool) (s : State), s.dev.allowed 0 addr.toNat lvl.val w = false →
    Gives (.invalidRegisterAccess lvl addr width w) s fun t => t.dev.rd .NOC_PV_VALID ≠ 0 ∧ t.dev.evPending Ev.NOC_PROT ∧
      (s.dev.flag .NOC_PV_VALID = false → t.dev.rd .NOC_PV_LVL = lvl.val ∧ t.dev.rd .NOC_PV_WR = bit w ∧ t.dev.rd .NOC_PV_SPACE = 0 ∧
        t.dev.rd .NOC_PV_VALID = 1) ∧
      (s.dev.flag .NOC_PV_VALID = true → ∀ f ∈ [Fld.NOC_PV_LVL, .NOC_PV_WR, .NOC_PV_SPACE, .NOC_PV_REGION, .NOC_PV_VALID, .NOC_PV_ADDR_ADDR],
        t.dev.rd f = s.dev.rd f)) ∧
  (∀ (lvl : Lvl) (addr : U32) (width : Byte) (w : Bool) (c : Nat) (s : State), s.dev.allowed 0 addr.toNat lvl.val w = true →
    ((width.toNat ≠ 4 ∨ addr.toNat % 4 ≠ 0) ∧ c = 1 ∨
      width.toNat = 4 ∧ addr.toNat % 4 = 0 ∧ (findReg addr.toNat = none ∧ c = 0 ∨
        ∃ r i j, findReg addr.toNat = some (r, i, j) ∧ s.dev.absent r i = false ∧ s.dev.domOn (domOf r i) = false ∧ c = 2)) →
    Gives (.invalidRegisterAccess lvl addr width w) s fun t => t.dev.rd .AON_BUSERR_VALID ≠ 0 ∧
      (s.dev.flag .AON_BUSERR_VALID = false → t.dev.rd .AON_BUSERR_LVL = lvl.val ∧ t.dev.rd .AON_BUSERR_WR = bit w ∧
        t.dev.rd .AON_BUSERR_CAUSE = c ∧ t.dev.rd .AON_BUSERR_VALID = 1 ∧ t.dev.rd .AON_BUSERR_ADDR_ADDR = addr.toNat) ∧
      (s.dev.flag .AON_BUSERR_VALID = true → t = s)) ∧
  (∀ (lvl : Lvl) (addr val : U32) (s : State),
    (s.dev.allowed 0 addr.toNat lvl.val true = false ∨ addr.toNat % 4 ≠ 0 ∨ findReg addr.toNat = none ∨
      ∃ r i j, findReg addr.toNat = some (r, i, j) ∧ (s.dev.absent r i = true ∨ s.dev.domOn (domOf r i) = false)) →
    Gives (.registerWrite lvl addr val) s fun t => exec (.invalidRegisterAccess lvl addr (BitVec.ofNat 8 4) true) s = .next t) ∧
  (∀ (lvl : Lvl) (addr val : U32) (r : RegInfo) (i j : Nat) (s : State), s.dev.allowed 0 addr.toNat lvl.val true = true → addr.toNat % 4 = 0 →
    findReg addr.toNat = some (r, i, j) → s.dev.absent r i = false → s.dev.domOn (domOf r i) = true →
    ((∀ f ∈ r.fields, (fldSpec f).acc = .ro ∨ (fldSpec f).acc = .rwp ∧ lvl.val ≠ 3) → Gives (.registerWrite lvl addr val) s fun t => t = s) ∧
    (∀ f ∈ [Fld.AON_IMASK_EN, .RW_SKIP_JN_JN, .RW_SKIP_LINE_LINE, .VIS_PARM_W, .TR_THR_THR, .XPP_EVMASK_MASK, .HT_SP_SP], r.fields = [f] →
      Gives (.registerWrite lvl addr val) s fun t => t.dev.rd f i j = bitsOf val.toNat (fldSpec f).lo (fldSpec f).width) ∧
    (lvl.val = 3 → ∀ f ∈ [Fld.CR_FWBASE_ADDR, .NOC_PR_BASE_BASE, .NOC_PR_LIM_LIM, .RKC_DEFCOST_COST, .RW_LEADREQ_COUNTS, .FIRE_CPR_CPR, .FIRE_LEAD_NS,
        .FIRE_GAP_COUNTS, .AX_SOFT_POS, .AX_COEF_C, .HT_COEF_C, .AB_AMAX_A, .XPP_ID_ID, .TB_XTAL_PPB, .DMA_CTL_RETRY], r.fields = [f] →
      Gives (.registerWrite lvl addr val) s fun t => t.dev.rd f i j = bitsOf val.toNat (fldSpec f).lo (fldSpec f).width) ∧
    (∀ f ∈ [Fld.AON_EVPEND_PEND, .AON_RIRQ_LO_RING, .AON_RIRQ_HI_RING, .DMA_HALT_LO_HALT, .DMA_HALT_HI_HALT], r.fields = [f] →
      Gives (.registerWrite lvl addr val) s fun t => ∀ b, b < (fldSpec f).width →
        bitOf (t.dev.rd f i 0) b = (bitOf (s.dev.rd f i 0) b && !bitOf val.toNat b)))

/-- Reads with an effect (17, R400): the latched words. -/
def Obligations.ReadsLatchTheOtherWords : Prop :=
  (∀ (lvl : Lvl) (s : State), s.dev.allowed 0 0x600028 lvl.val false = true → s.dev.domOn .sup = true → Gives (.fireCntLoRead lvl) s fun t =>
    t.dev.fire.latchCnt = s.dev.fire.cnt.toNat / 2 ^ 32 ∧ t.dev.fieldValue .FIRE_CNT_HI_C 0 0 = s.dev.fire.cnt.toNat / 2 ^ 32 ∧
    t = { s with dev := { s.dev with fire := { s.dev.fire with latchCnt := s.dev.fire.cnt.toNat / 2 ^ 32 } } }) ∧
  (∀ (lvl : Lvl) (s : State), s.dev.allowed 0 0x600030 lvl.val false = true → s.dev.domOn .sup = true → Gives (.firePosLoRead lvl) s fun t =>
    t.dev.fire.latchPos = s.dev.fire.pos.toNat / 2 ^ 32 ∧ t.dev.fieldValue .FIRE_POS_HI_F 0 0 = s.dev.fire.pos.toNat / 2 ^ 32 ∧
    t = { s with dev := { s.dev with fire := { s.dev.fire with latchPos := s.dev.fire.pos.toNat / 2 ^ 32 } } }) ∧
  (∀ (lvl : Lvl) (s : State), s.dev.allowed 0 0xD03004 lvl.val false = true → s.dev.domOn .net = true → Gives (.tbNowSRead lvl) s fun t =>
    t.dev.rd .TB_NOW_NS_NS = tns s.dev.now % 2 ^ 30 ∧ t.dev.rd .TB_NOW_SH_S = s.dev.now / 1000000000 / 2 ^ 32 % 2 ^ 16 ∧
    Unchanged [] [Fld.TB_NOW_NS_NS, Fld.TB_NOW_SH_S] s t) ∧
  (∀ (lvl : Lvl) (s : State), s.dev.allowed 0 0xE00010 lvl.val false = true → s.dev.domOn .sup = true → Gives (.ringClSRead lvl) s fun t =>
    t.dev.rd .RING_CL_LO_C = s.dev.ring.latchLo % 2 ^ 32 ∧ t.dev.rd .RING_CL_HI_C = s.dev.ring.latchHi % 2 ^ 16 ∧
    Unchanged [] [Fld.RING_CL_LO_C, Fld.RING_CL_HI_C] s t)

/-- The bytes that the commands of the rings store to (01, R16 to R18; 08, R214; 09, R233; 17, R404). -/
def Obligations.RingStores : Prop :=
  (∀ (r : RingNo) (spec12 data : List Byte) (tries : Fin 16) (poison : Bool) (s t : State), exec (.dmaDescriptorDone r spec12 data tries poison) s = .next t →
    KeepsOutside (AtDesc r.val s) s t) ∧
  (∀ (r : RingNo) (s t : State), exec (.dmaHalt r) s = .next t → KeepsOutside (fun k => ∃ a bs, s.ringDesc r.val = some (a, bs) ∧ InBytes (a + 24) 4 k) s t) ∧
  (∀ (lvl : Lvl) (r : RingNo) (idx : BitVec 19) (descs : List (List Byte)) (s t : State), exec (.dmaTailWrite lvl r idx descs) s = .next t →
    KeepsOutside (fun k => ∃ n, n < descs.length ∧ InBytes (s.dev.descAddr r.val (s.dev.rd .DMA_RTAIL_IDX r.val + n)) 32 k) s t) ∧
  (∀ s t : State, exec .evrBufferClose s = .next t → KeepsOutside (fun k => ∃ a bs, s.ringDesc 44 = some (a, bs) ∧
    (InBytes a 32 k ∨ InBytes (descBuf bs) (48 * min (s.dev.evr.caps.headD 0) s.dev.evr.inBufs.length) k)) s t) ∧
  (∀ s t : State, exec .sprFlush s = .next t → KeepsOutside (fun k => ∃ a bs, s.ringDesc 45 = some (a, bs) ∧
    (InBytes a 32 k ∨ InBytes (descBuf bs) (32 * min (s.dev.integ.spr.caps.headD 0) s.dev.integ.spr.inBufs.length) k)) s t) ∧
  (∀ (p : Port) (pkt : CsiPkt) (s t : State), exec (.csiPacket p pkt) s = .next t → Stores (AtDesc (40 + p.val)) s t) ∧
  (∀ (p : Port) (s t : State), (exec (.frameEnd p) s = .next t ∨ exec (.frameWatchdogTimeout p) s = .next t) → Stores (AtDesc (40 + p.val)) s t)

/-- The bytes that the runway, the release of Rods, the second pass, the scrubber and a register write store to (04, R109; 05; 12, R290;
13, R314; 16, R381). -/
def Obligations.RunwayStores : Prop :=
  (∀ (lvl : Lvl) (i : Pipe) (idx : BitVec 19) (pages : List U32) (s t : State), exec (.plTailWrite lvl i idx pages) s = .next t →
    KeepsOutside (fun k => ∃ n, n < pages.length ∧ InBytes (s.dev.plAddr i.val (s.dev.rd .RW_PL_TAIL_IDX i.val + n)) 4 k) s t) ∧
  (∀ (i : Pipe) (s t : State), exec (.slotStart i) s = .next t →
    Stores (fun u k => InPages s.dev.poolCount i.val (s.dev.nextStart i.val).1 u k ∨
      InBytes (s.dev.rd .AB_EBASE_ADDR * 256 + 2 ^ 22 * i.val + 64 * ((s.dev.rw i.val).sseq % 65536)) 64 k ∨
      InBytes (s.dev.descAddr (rq i.val) (s.dev.rd .DMA_RHEAD_IDX (rq i.val))) 32 k) s t) ∧
  (∀ (i : Pipe) (streams : List XdcStream) (s t : State), exec (.slotReady i streams) s = .next t →
    Stores (fun u k => (∃ x, s.dev.openSlot i.val = some x ∧
        (InPages s.dev.poolCount i.val x.page u k ∨ InBytes (s.dev.descAddr (rq i.val) x.desc) 32 k)) ∨
      ∃ y ∈ (s.dev.rw i.val).slots, InBytes (s.dev.descAddr (rq i.val) y.desc) 4 k) s t) ∧
  (∀ (i : Pipe) (checks : SlotChecks) (s t : State), exec (.slotReadStart i checks) s = .next t →
    KeepsOutside (fun k => ∃ x ∈ (s.dev.rw i.val).slots, InBytes (s.dev.descAddr (rq i.val) x.desc) 4 k) s t) ∧
  (∀ (lvl : Lvl) (i : Pipe) (s t : State), exec (.skipArm lvl i) s = .next t →
    KeepsOutside (fun k => ∃ x ∈ (s.dev.rw i.val).slots, InBytes (s.dev.descAddr (rq i.val) x.desc) 4 k) s t) ∧
  (∀ (lvl : Lvl) (i : Pipe) (s t : State), exec (.rodRelease lvl i) s = .next t →
    KeepsOutside (fun k => ∃ e ∈ (s.dev.dp i.val).retained, InBytes (s.dev.rodAddr i.val (4096 * s.dev.rd .DP_GEOM_SLOT0 i.val + e.1)) 4 k) s t) ∧
  (∀ (bad : List U16) (s t : State), exec (.secondPass bad) s = .next t →
    KeepsOutside (fun k => ∃ r ∈ s.dev.recs (s.dev.rd .CR_STAT_IMG), r.type ≤ 5 ∧ secondPassReads r.type = true ∧
      InBytes (s.dev.rd .CR_FWBASE_ADDR * 256 + 0x1000000 * (r.type - 2)) r.len k) s t) ∧
  (∀ (addr : BitVec 36) (outcome : ScrubOutcome) (s t : State), exec (.scrubRead addr outcome) s = .next t → t.dram.mem = s.dram.mem) ∧
  (∀ (lvl : Lvl) (addr val : U32) (s t : State), exec (.registerWrite lvl addr val) s = .next t →
    (∀ r i j, findReg addr.toNat = some (r, i, j) → r.fields.elem .CR_BOOTSEL_RESTART = true → r.fields.elem .RW_SKIP_CTL_ARM = false → DramKeptOrLost s t) ∧
    (∀ r i j, findReg addr.toNat = some (r, i, j) → r.fields.elem .CR_BOOTSEL_RESTART = false →
      KeepsOutside (fun k => r.fields.elem .RW_SKIP_CTL_ARM = true ∧ ∃ x ∈ (s.dev.rw i).slots, InBytes (s.dev.descAddr (rq i) x.desc) 4 k) s t) ∧
    (findReg addr.toNat = none → t.dram = s.dram))

/-- DRAM under the commands that store nothing in it, under those that may lose it, and under the steps of the boot. -/
def Obligations.OtherCommandsKeepMemory : Prop :=
  (∀ (c : Instr) (s t : State), storesNothing c = true → exec c s = .next t → t.dram = s.dram) ∧
  (∀ (h : XppHdr) (lvl : Lvl) (b : Bool) (reqs : List XppIn) (c : Instr) (s t : State),
    c ∈ [.powerOnReset, .inputReset9v8, .overvoltageDisconnect, .debugReset, .crRestart lvl, .restart h, .contentCheck, .shutdownPowerDown,
      .evaluationPeriodEnd b reqs] → exec c s = .next t → DramKeptOrLost s t) ∧
  (∀ (primary backup : CrownContent) (s t : State), (∀ img, Quiet ((s.dev.regsOf img).filter early ++ (if img = 0 then primary else backup).net)) →
    exec (.crownFirstPass primary backup) s = .next t → t.dram = s.dram) ∧
  (∀ (c : CrownContent) (s t : State), s.dev.boot.content = some c →
    (Quiet ((s.dev.regsOf (s.dev.rd .CR_STAT_IMG)).filter later ++ c.ring) → exec .engineRelease s = .next t → t.dram = s.dram) ∧
    (Quiet ((s.dev.regsOf (s.dev.rd .CR_STAT_IMG)).filter forDpCfg) → exec .rodBuild s = .next t →
      KeepsOutside (fun k => ∃ i h, i < 16 ∧ h ∈ c.heads ∧ InBytes (s.dev.rodAddr i (4096 * h.slot)) 16384 k) s t) ∧
    (Quiet (c.cams.flatMap (fun x => x.2) ++ c.axes ++ c.abacus) → exec .bootComplete s = .next t → t.dram = s.dram))

/-- What each command of the boot before the engines, the supply and the requests leaves as it was. -/
def Obligations.FramesOfPowerAndRequests : Prop :=
  (∀ (s t : State), exec .powerGood s = .next t → Unchanged [] [Fld.AON_STATE_STATE] s t) ∧
  (∀ (mv : U16) (s t : State), exec (.supplyWarning mv) s = .next t → Unchanged (eventParts ++ [Part.pwr]) (eventFields ++ [Fld.AON_PWR_WARN, Fld.AON_PWR_SEEN, Fld.AON_PWR_VMIN, Fld.VL_CTL_FREEZE, Fld.AB_PLIM_CUR]) s t) ∧
  (∀ (lowest : U16) (s t : State), exec (.supplyWarningClear lowest) s = .next t → Unchanged (eventParts ++ [Part.nor, Part.pwr, Part.dose, Part.loops, Part.aba]) (eventFields ++ [Fld.AON_PWR_WARN, Fld.AON_PWR_VMIN, Fld.CR_LOG_WP_OFS, Fld.DP_RODQ_COUNT, Fld.DP_RODQ_COMMIT, Fld.DP_ERR_QOVF, Fld.DP_ERR_CREF, Fld.VL_CTL_FREEZE, Fld.AB_PLIM_CUR]) s t) ∧
  (∀ (sfdpMode sfdpSck : Byte) (s t : State), exec (.crownHeaderRead sfdpMode sfdpSck) s = .next t → Unchanged [Part.boot, Part.pins] [Fld.CR_STAT_IMG, Fld.CR_STAT_FAILREC, Fld.CR_STAT_FAILCHK, Fld.CR_XSPI_MODE, Fld.CR_XSPI_SCK, Fld.CR_BOOTSEL_BACKUP, Fld.ZL_CTL_SPREAD] s t) ∧
  (∀ (eyes : List (Byte × Byte)) (s t : State), exec (.dramTraining eyes) s = .next t → Unchanged (eventParts ++ [Part.nor, Part.boot, Part.pwr, Part.shut]) (eventFields ++ [Fld.CR_LOG_WP_OFS, Fld.MEM_CH_STAT_STATE, Fld.MEM_EYE_RD, Fld.MEM_EYE_WR, Fld.MEM_EYE_STALE]) s t) ∧
  (∀ (bad : List U16) (s t : State), exec (.secondPass bad) s = .next t → Unchanged (eventParts ++ [Part.boot, Part.fire, Part.freqWait, Part.pins, Part.dram]) (rmwFields ++ eventFields ++ [Fld.AON_STATE_STATE, Fld.CR_STAT_FAILREC, Fld.CR_STAT_FAILCHK]) s t) ∧
  (∀ (h : XppHdr) (s t : State), exec (.hello h) s = .next t → Unchanged (eventParts ++ [Part.ring]) (requestFields ++ [Fld.AON_STATE_HOLDC, Fld.XPP_PEER_UP]) s t) ∧
  (∀ (h : XppHdr) (s t : State), exec (.heartbeat h) s = .next t → Unchanged eventParts requestFields s t) ∧
  (∀ (h : XppHdr) (seq : U32) (s t : State), exec (.noteResend h seq) s = .next t → Unchanged eventParts requestFields s t) ∧
  (∀ (h : XppHdr) (jn : U32) (mode : Byte) (origin : BitVec 80) (s t : State), exec (.start h jn mode origin) s = .next t → Unchanged (eventParts ++ [Part.jobs, Part.suppressAuto, Part.rk, Part.fire, Part.lanes, Part.loops, Part.freqWait, Part.pins]) (dueFields ++ requestFields ++ [Fld.AON_STATE_STATE, Fld.FIRE_PL_JN_JN, Fld.FIRE_PL_ORGF_FRAC, Fld.FIRE_PL_ORGL_INT, Fld.FIRE_PL_ORGH_INT, Fld.FIRE_PL_ORGH_VALID, Fld.FIRE_PL_PITF_FRAC, Fld.FIRE_PL_PITI_INT, Fld.FIRE_PL_LINES_L, Fld.MEM_CTL_REQ]) s t) ∧
  (∀ (h : XppHdr) (s t : State), exec (.stop h) s = .next t → Unchanged (spoilParts ++ [Part.jobs, Part.ended, Part.suppressAuto, Part.rk, Part.dose, Part.rwy, Part.fire, Part.lanes, Part.freqWait, Part.pins]) (dueFields ++ requestFields ++ [Fld.AON_STATE_STATE, Fld.RW_XSTAT_STOPPED, Fld.RW_SKIP_JN_JN, Fld.RW_SKIP_LINE_LINE, Fld.FIRE_PL_ORGH_VALID, Fld.FIRE_PL_LINES_L]) s t) ∧
  (∀ (h : XppHdr) (s t : State), exec (.hold h) s = .next t → Unchanged (spoilParts ++ [Part.holdSeen, Part.fire, Part.lanes, Part.freqWait, Part.ring, Part.pins]) (spoilFields ++ requestFields ++ [Fld.AON_STATE_STATE, Fld.AON_STATE_HOLDC, Fld.RW_SKIP_JN_JN, Fld.RW_SKIP_LINE_LINE]) s t) ∧
  (∀ (h : XppHdr) (s t : State), exec (.resume h) s = .next t → Unchanged (eventParts ++ [Part.holdSeen, Part.jobs, Part.ended, Part.rk, Part.fire, Part.lanes, Part.integ, Part.freqWait, Part.ring, Part.pins]) (requestFields ++ [Fld.AON_STATE_STATE, Fld.AON_STATE_HOLDC, Fld.FIRE_PL_ORGF_FRAC, Fld.FIRE_PL_ORGL_INT, Fld.FIRE_PL_ORGH_INT, Fld.MEM_CTL_REQ]) s t) ∧
  (∀ (h : XppHdr) (v : U32) (s t : State), exec (.speedLimit h v) s = .next t → Unchanged eventParts (requestFields ++ [Fld.XPP_VLIM_V]) s t) ∧
  (∀ (h : XppHdr) (s t : State), exec (.shutdownAck h) s = .next t → Unchanged (eventParts ++ [Part.nor, Part.boot, Part.pwr, Part.fire, Part.freqWait, Part.pins]) (requestFields ++ [Fld.AON_STATE_STATE, Fld.CR_LOG_WP_OFS]) s t) ∧
  (∀ (h : XppHdr) (mask : U16) (s t : State), exec (.rkRelease h mask) s = .next t → Unchanged (eventParts ++ [Part.boot, Part.rk]) (requestFields ++ [Fld.AON_PDSTAT_ON, Fld.RKC_MITTEN_MIT, Fld.RKC_STRIKE_PENDING]) s t) ∧
  (∀ (h : XppHdr) (mask : U64) (s t : State), exec (.headClear h mask) s = .next t → Unchanged (eventParts ++ [Part.lanes, Part.heat]) (requestFields ++ [Fld.HT_TEMP_TM, Fld.HT_STAT_PLAUS]) s t) ∧
  (∀ (h : XppHdr) (axis : Byte) (target : U32) (s t : State), exec (.axisTarget h axis target) s = .next t → Unchanged (eventParts ++ [Part.axes, Part.ring]) (requestFields ++ [Fld.AX_TGT_POS, Fld.AX_STAT_MOVING]) s t) ∧
  (∀ (h : XppHdr) (axis : Byte) (s t : State), exec (.axisHome h axis) s = .next t → Unchanged (eventParts ++ [Part.axes]) (requestFields ++ [Fld.AX_STAT_STATE, Fld.AX_STAT_MOVING]) s t) ∧
  (∀ (h : XppHdr) (slot : Byte) (sp : U16) (enable : Byte) (s t : State), exec (.heatSet h slot sp enable) s = .next t → Unchanged eventParts (requestFields ++ [Fld.HT_CFG_EN, Fld.HT_SP_SP]) s t) ∧
  (∀ (h : XppHdr) (jn : U32) (s t : State), exec (.jobCancelFinish h jn) s = .next t → Unchanged (spoilParts ++ [Part.jobs, Part.ended, Part.rk, Part.dose, Part.rwy, Part.fire, Part.lanes]) (spoilFields ++ dueFields ++ requestFields ++ [Fld.RW_XSTAT_STOPPED, Fld.RW_SKIP_JN_JN, Fld.RW_SKIP_LINE_LINE, Fld.FIRE_PL_ORGH_VALID, Fld.FIRE_PL_LINES_L]) s t) ∧
  (∀ (h : XppHdr) (jn : U32) (s t : State), exec (.jobCancelAbort h jn) s = .next t → Unchanged (spoilParts ++ [Part.jobs, Part.ended, Part.rk, Part.dose, Part.rwy, Part.fire, Part.lanes]) (spoilFields ++ dueFields ++ requestFields ++ [Fld.RW_XSTAT_STOPPED, Fld.RW_SKIP_JN_JN, Fld.RW_SKIP_LINE_LINE, Fld.FIRE_PL_ORGH_VALID, Fld.FIRE_PL_LINES_L]) s t) ∧
  (∀ (h : XppHdr) (jns : List U32) (s t : State), exec (.queueOrder h jns) s = .next t → Unchanged (eventParts ++ [Part.jobs]) requestFields s t) ∧
  (∀ (h : XppHdr) (jn : U32) (s t : State), exec (.jobQuery h jn) s = .next t → Unchanged eventParts requestFields s t) ∧
  (∀ (h : XppHdr) (addrs : List U32) (s t : State), exec (.regRead h addrs) s = .next t → Unchanged (eventParts ++ [Part.fire, Part.freeCtr]) (accessFields ++ [Fld.XPP_CNT_BAD, Fld.XPP_CNT_DUP, Fld.XPP_NCNT_NACK, Fld.TB_NOW_NS_NS, Fld.TB_NOW_SH_S, Fld.RING_CL_LO_C, Fld.RING_CL_HI_C]) s t) ∧
  (∀ (h : XppHdr) (span : Byte) (s t : State), exec (.nvmOpen h span) s = .next t → Unchanged eventParts (requestFields ++ [Fld.CR_PRES_SESSION, Fld.CR_PRES_SPAN]) s t) ∧
  (∀ (h : XppHdr) (ofs : U32) (sectors : U16) (s t : State), exec (.nvmErase h ofs sectors) s = .next t → Unchanged (eventParts ++ [Part.nor, Part.pwr]) (requestFields ++ [Fld.CR_LOG_WP_OFS]) s t) ∧
  (∀ (h : XppHdr) (ofs : U32) (data : List Byte) (s t : State), exec (.nvmWrite h ofs data) s = .next t → Unchanged (eventParts ++ [Part.nor, Part.pwr]) (requestFields ++ [Fld.CR_LOG_WP_OFS]) s t) ∧
  (∀ (h : XppHdr) (ofs len : U32) (s t : State), exec (.nvmCrc h ofs len) s = .next t → Unchanged eventParts requestFields s t) ∧
  (∀ (h : XppHdr) (s t : State), exec (.nvmClose h) s = .next t → Unchanged (eventParts ++ [Part.nor, Part.pwr]) (requestFields ++ [Fld.CR_PRES_SESSION, Fld.CR_PRES_SPAN, Fld.CR_LOG_WP_OFS]) s t) ∧
  (∀ (h : XppHdr) (s t : State), exec (.debugEnable h) s = .next t → Unchanged eventParts (requestFields ++ [Fld.CR_PRES_DBG]) s t) ∧
  (∀ (h : XppHdr) (s t : State), exec (.debugDisable h) s = .next t → Unchanged eventParts (requestFields ++ [Fld.CR_PRES_DBG]) s t) ∧
  (∀ (h : XppHdr) (lock : Byte) (s t : State), exec (.lockSet h lock) s = .next t → Unchanged (eventParts ++ [Part.nor, Part.boot, Part.pwr]) (requestFields ++ [Fld.CR_PRES_LOCK, Fld.CR_LOG_WP_OFS]) s t) ∧
  (∀ (h : XppHdr) (index : U32) (count : Byte) (s t : State), exec (.logRead h index count) s = .next t → Unchanged eventParts requestFields s t) ∧
  (∀ (h : XppHdr) (s t : State), exec (.logErase h) s = .next t → Unchanged (eventParts ++ [Part.nor, Part.pwr]) (requestFields ++ [Fld.CR_LOG_WP_OFS]) s t)

/-- What each command of the inputs, bulk connections and job records, placement and the Reckoners leaves as it was. -/
def Obligations.FramesOfInputsJobsAndReckoners : Prop :=
  (∀ (role : Fin 3) (s t : State), exec (.xppPeerLost role) s = .next t → Unchanged (eventParts ++ [Part.holdSeen]) (eventFields ++ [Fld.AON_STATE_HOLDC, Fld.XPP_PEER_UP]) s t) ∧
  (∀ (s t : State), exec .statusPeriod s = .next t → Unchanged [Part.xpp, Part.out] [] s t) ∧
  (∀ (s t : State), exec .holdPinAssert s = .next t → Unchanged (eventParts ++ [Part.holdSeen]) (eventFields ++ [Fld.AON_STATE_HOLDC, Fld.XPP_DIN_HOLD]) s t) ∧
  (∀ (s t : State), exec .holdPinRelease s = .next t → Unchanged (eventParts ++ [Part.ring]) (eventFields ++ [Fld.AON_STATE_HOLDC, Fld.XPP_DIN_HOLD]) s t) ∧
  (∀ (s t : State), exec .inhibitAssert s = .next t → Unchanged (eventParts ++ [Part.holdSeen, Part.axes]) (eventFields ++ [Fld.AON_STATE_HOLDC, Fld.AX_STAT_STATE, Fld.AX_STAT_MOVING, Fld.XPP_DIN_INH]) s t) ∧
  (∀ (s t : State), exec .inhibitRelease s = .next t → Unchanged (eventParts ++ [Part.ring]) (eventFields ++ [Fld.AON_STATE_HOLDC, Fld.XPP_DIN_INH]) s t) ∧
  (∀ (s t : State), exec .presenceAssert s = .next t → Unchanged [] [Fld.CR_PRES_PRES] s t) ∧
  (∀ (s t : State), exec .presenceLost s = .next t → Unchanged (eventParts ++ [Part.pwr]) (eventFields ++ [Fld.CR_PRES_PRES, Fld.CR_PRES_SESSION, Fld.CR_PRES_SPAN]) s t) ∧
  (∀ (conn : Fin 8) (hdr : List Byte) (s t : State), exec (.bulkConnection conn hdr) s = .next t → Unchanged (eventParts ++ [Part.jobs, Part.conns]) eventFields s t) ∧
  (∀ (conn : Fin 8) (s t : State), exec (.bulkConnectionClose conn) s = .next t → Unchanged [Part.conns] [] s t) ∧
  (∀ (conn : Fin 8) (bytes : List Byte) (poison : Bool) (s t : State), exec (.ahnusRecord conn bytes poison) s = .next t → Unchanged (spoilParts ++ [Part.jobs, Part.ended, Part.conns, Part.rk, Part.dose, Part.rwy, Part.fire, Part.lanes]) (eventFields ++ dueFields ++ [Fld.FIRE_PL_ORGH_VALID, Fld.FIRE_PL_LINES_L]) s t) ∧
  (∀ (jn : U32) (s t : State), exec (.jobRecvTimeout jn) s = .next t → Unchanged [Part.xpp, Part.jobs, Part.ended, Part.rk, Part.dose, Part.rwy, Part.lanes, Part.out] [] s t) ∧
  (∀ (s t : State), exec .commitmentPoint s = .next t → Unchanged [Part.xpp, Part.jobs, Part.rk, Part.fire, Part.loops, Part.out] (dueFields ++ [Fld.FIRE_PL_JN_JN, Fld.FIRE_PL_ORGF_FRAC, Fld.FIRE_PL_ORGL_INT, Fld.FIRE_PL_ORGH_INT, Fld.FIRE_PL_ORGH_VALID, Fld.FIRE_PL_PITF_FRAC, Fld.FIRE_PL_PITI_INT, Fld.FIRE_PL_LINES_L]) s t) ∧
  (∀ (s t : State), exec .autoPlacement s = .next t → Unchanged [Part.xpp, Part.jobs, Part.rk, Part.fire, Part.loops, Part.out] (dueFields ++ [Fld.FIRE_PL_JN_JN, Fld.FIRE_PL_ORGF_FRAC, Fld.FIRE_PL_ORGL_INT, Fld.FIRE_PL_ORGH_INT, Fld.FIRE_PL_ORGH_VALID, Fld.FIRE_PL_PITF_FRAC, Fld.FIRE_PL_PITI_INT, Fld.FIRE_PL_LINES_L]) s t) ∧
  (∀ (seeds : List U32) (s t : State), exec (.workPost seeds) s = .next t → Unchanged (spoilParts ++ [Part.rk, Part.freeCtr]) (spoilFields ++ eventFields ++ [Fld.RKC_ACTIVE_ACT, Fld.RKC_ACTIVE_COUNT, Fld.RKC_CMP_NOMAJ]) s t) ∧
  (∀ (rk : RkNo) (s t : State), exec (.workSteal rk) s = .next t → Unchanged [Part.rk] [] s t) ∧
  (∀ (rk : RkNo) (tile : TileOut) (s t : State), exec (.bandColumnRendered rk tile) s = .next t → Unchanged (spoilParts ++ [Part.jobs, Part.rk]) (spoilFields ++ eventFields ++ [Fld.RKC_CMP_MISMATCH, Fld.RKC_CMP_NOMAJ, Fld.RKC_BUSY_CYC]) s t) ∧
  (∀ (rk : RkNo) (wrong : List Sample) (s t : State), exec (.witnessDone rk wrong) s = .next t → Unchanged (spoilParts ++ [Part.jobs, Part.rk]) (spoilFields ++ eventFields ++ [Fld.RKC_CMP_MISMATCH, Fld.RKC_CMP_NOMAJ, Fld.RKC_BUSY_CYC]) s t) ∧
  (∀ (rk : RkNo) (tile : TileOut) (s t : State), exec (.thirdRenderDone rk tile) s = .next t → Unchanged (spoilParts ++ [Part.jobs, Part.rk]) (spoilFields ++ eventFields ++ [Fld.AON_PDSTAT_ON, Fld.RKC_ACTIVE_ACT, Fld.RKC_ACTIVE_COUNT, Fld.RKC_MITTEN_MIT, Fld.RKC_CMP_NOMAJ, Fld.RKC_STRIKE_TOTAL, Fld.RKC_STRIKE_LAST, Fld.RKC_STRIKE_PENDING, Fld.RKC_BUSY_CYC]) s t) ∧
  (∀ (rk : RkNo) (tile : TileOut) (s t : State), exec (.cacheBuildDone rk tile) s = .next t → Unchanged (spoilParts ++ [Part.jobs, Part.rk]) (spoilFields ++ eventFields ++ [Fld.RKC_CMP_MISMATCH, Fld.RKC_CMP_NOMAJ, Fld.RKC_BUSY_CYC]) s t) ∧
  (∀ (rk : RkNo) (cause : TrapCause) (poisoned : Bool) (s t : State), exec (.reckonerTrap rk cause poisoned) s = .next t → Unchanged (spoilParts ++ [Part.boot, Part.jobs, Part.rk]) (spoilFields ++ eventFields ++ [Fld.AON_PDSTAT_ON, Fld.RKC_ACTIVE_ACT, Fld.RKC_ACTIVE_COUNT, Fld.RKC_MITTEN_MIT, Fld.RKC_CMP_NOMAJ, Fld.RKC_STRIKE_TOTAL, Fld.RKC_STRIKE_LAST, Fld.RKC_STRIKE_PENDING, Fld.RKC_BUSY_CYC]) s t) ∧
  (∀ (rk : RkNo) (s t : State), exec (.renderWatchdog rk) s = .next t → Unchanged (spoilParts ++ [Part.jobs, Part.rk]) (spoilFields ++ eventFields ++ [Fld.AON_PDSTAT_ON, Fld.RKC_ACTIVE_ACT, Fld.RKC_ACTIVE_COUNT, Fld.RKC_MITTEN_MIT, Fld.RKC_CMP_NOMAJ, Fld.RKC_STRIKE_TOTAL, Fld.RKC_STRIKE_LAST, Fld.RKC_STRIKE_PENDING, Fld.RKC_BUSY_CYC]) s t) ∧
  (∀ (rk : RkNo) (s t : State), exec (.strikeExpiry rk) s = .next t → Unchanged [Part.rk] [Fld.RKC_STRIKE_PENDING] s t) ∧
  (∀ (lvl : Lvl) (val : U32) (s t : State), exec (.rkcMittenWrite lvl val) s = .next t → Unchanged (eventParts ++ [Part.boot, Part.rk]) (accessFields ++ [Fld.AON_PDSTAT_ON, Fld.RKC_MITTEN_MIT, Fld.RKC_STRIKE_PENDING]) s t)

/-- What each command of the dose pipelines, the runway and the DMA rings leaves as it was. -/
def Obligations.FramesOfDosingAndRings : Prop :=
  (∀ (s t : State), exec .doseBandStart s = .next t → Unchanged (eventParts ++ [Part.rk, Part.dose, Part.reload, Part.lvSince]) (eventFields ++ [Fld.RW_LEAD_COUNTS, Fld.RW_LEADBAR_BAR, Fld.RW_XCFG_EFF, Fld.RW_XSTAT_WAITSLOT, Fld.RW_XSTAT_WAITTGT, Fld.RW_BLEAD_COUNTS]) s t) ∧
  (∀ (i : Pipe) (checks : DoseChecks) (s t : State), exec (.doseLine i checks) s = .next t → Unchanged (spoilParts ++ [Part.rk, Part.dose]) (spoilFields ++ eventFields ++ [Fld.DP_SHIFT_NEXT, Fld.DP_SHIFT_CUR, Fld.DP_RODQ_COUNT, Fld.DP_RODQ_COMMIT, Fld.DP_RODQ_RETAINED, Fld.DP_RODV_VER, Fld.DP_CHECK_REDOSE, Fld.DP_CHECK_FAIL, Fld.DP_CHECK_POISON, Fld.DP_SHORT_SUM, Fld.DP_BRIM_PHASE_NEXT, Fld.DP_BRIM_PHASE_CUR, Fld.DP_BRIM_A_KIND, Fld.DP_BRIM_A_CODE, Fld.DP_BRIM_A_HEADS, Fld.DP_BRIM_A_OFS, Fld.DP_BRIM_B_X0, Fld.DP_BRIM_B_LINES, Fld.DP_BRIM_B_X1D, Fld.ROD_ROD, Fld.VL_CYCLE_PHASE, Fld.VL_CYCLE_CYCLES, Fld.VL_HAND_HCUR]) s t) ∧
  (∀ (ch : BitVec 18) (masterPoisoned : Bool) (s t : State), exec (.rodRefetch ch masterPoisoned) s = .next t → Unchanged eventParts (eventFields ++ [Fld.ROD_ROD]) s t) ∧
  (∀ (s t : State), exec .tableReload s = .next t → Unchanged [Part.curveSet, Part.screenSet, Part.reload] [Fld.DP_SCREEN_TW, Fld.DP_SCREEN_TH] s t) ∧
  (∀ (lvl : Lvl) (i : Pipe) (rod : U32) (s t : State), exec (.rodEnqueue lvl i rod) s = .next t → Unchanged (eventParts ++ [Part.dose, Part.loops]) (accessFields ++ [Fld.DP_RODQ_COUNT, Fld.DP_ERR_QOVF]) s t) ∧
  (∀ (lvl : Lvl) (i : Pipe) (s t : State), exec (.rodCommit lvl i) s = .next t → Unchanged eventParts (accessFields ++ [Fld.DP_RODQ_COMMIT, Fld.DP_ERR_CREF]) s t) ∧
  (∀ (lvl : Lvl) (i : Pipe) (s t : State), exec (.rodRelease lvl i) s = .next t → Unchanged (eventParts ++ [Part.dose, Part.rodMaster, Part.loops, Part.dram]) (rmwFields ++ accessFields ++ [Fld.DP_RODQ_COUNT, Fld.DP_RODQ_COMMIT, Fld.DP_RODQ_RETAINED, Fld.DP_ERR_QOVF, Fld.DP_ERR_CREF]) s t) ∧
  (∀ (lvl : Lvl) (ch : BitVec 18) (rod : U32) (s t : State), exec (.rodWindowWrite lvl ch rod) s = .next t → Unchanged eventParts (accessFields ++ [Fld.DP_ERR_WWRITE, Fld.ROD_ROD]) s t) ∧
  (∀ (lvl : Lvl) (i : Pipe) (idx : BitVec 19) (pages : List U32) (s t : State), exec (.plTailWrite lvl i idx pages) s = .next t → Unchanged (eventParts ++ [Part.rwy, Part.dram]) (accessFields ++ rmwFields ++ [Fld.RW_PL_TAIL_IDX, Fld.RW_XSTAT_STOPPED]) s t) ∧
  (∀ (i : Pipe) (s t : State), exec (.slotStart i) s = .next t → Unchanged (eventParts ++ [Part.dose, Part.rwy, Part.aba, Part.dram]) (rmwFields ++ eventFields ++ [Fld.RW_PL_WR_IDX, Fld.RW_XIN_BYTES, Fld.RW_XOUT_BYTES, Fld.DMA_HALT_LO_HALT, Fld.DMA_HALT_HI_HALT]) s t) ∧
  (∀ (i : Pipe) (streams : List XdcStream) (s t : State), exec (.slotReady i streams) s = .next t → Unchanged (spoilParts ++ [Part.rwy, Part.ratioHist, Part.fire, Part.dram]) (rmwFields ++ spoilFields ++ eventFields ++ [Fld.AON_RIRQ_LO_RING, Fld.AON_RIRQ_HI_RING, Fld.RW_LEAD_COUNTS, Fld.RW_LEADBAR_BAR, Fld.RW_RATIO_RATIO, Fld.RW_XCNT_REVERIFY, Fld.RW_XCNT_FAIL, Fld.RW_PL_WR_IDX, Fld.RW_PL_RD_IDX, Fld.RW_XSTAT_STOPPED, Fld.RW_XSTAT_STOPS, Fld.RW_XIN_BYTES, Fld.RW_XOUT_BYTES, Fld.RW_BLEAD_COUNTS, Fld.RW_SKIP_JN_JN, Fld.RW_SKIP_LINE_LINE, Fld.RW_SKIP_CTL_ARM, Fld.DMA_HALT_LO_HALT, Fld.DMA_HALT_HI_HALT, Fld.DMA_RHEAD_IDX]) s t) ∧
  (∀ (i : Pipe) (checks : SlotChecks) (s t : State), exec (.slotReadStart i checks) s = .next t → Unchanged (spoilParts ++ [Part.rwy, Part.fire, Part.lanes, Part.dram]) (rmwFields ++ spoilFields ++ eventFields ++ [Fld.RW_PL_RD_IDX, Fld.RW_SKIP_JN_JN, Fld.RW_SKIP_LINE_LINE, Fld.RW_SKIP_CTL_ARM, Fld.SP_STAT_DEC, Fld.TALLY_VAL_STATE]) s t) ∧
  (∀ (lvl : Lvl) (i : Pipe) (s t : State), exec (.skipArm lvl i) s = .next t → Unchanged (spoilParts ++ [Part.rwy, Part.fire, Part.lanes, Part.dram]) (rmwFields ++ accessFields ++ dueFields ++ [Fld.RW_PL_RD_IDX, Fld.RW_SKIP_JN_JN, Fld.RW_SKIP_LINE_LINE, Fld.RW_SKIP_CTL_ARM, Fld.SP_STAT_OVF, Fld.SP_PTAB_USED, Fld.SP_PTAB_HIGH, Fld.SP_GOOD_N, Fld.SP_SPOILED_N, Fld.SP_RECLOST_N, Fld.SP_RCNT_N]) s t) ∧
  (∀ (lvl : Lvl) (r : RingNo) (idx : BitVec 19) (descs : List (List Byte)) (s t : State), exec (.dmaTailWrite lvl r idx descs) s = .next t → Unchanged (eventParts ++ [Part.integ, Part.dram]) (accessFields ++ rmwFields ++ [Fld.DMA_RTAIL_IDX]) s t) ∧
  (∀ (r : RingNo) (spec12 data : List Byte) (tries : Fin 16) (poison : Bool) (s t : State), exec (.dmaDescriptorDone r spec12 data tries poison) s = .next t → Unchanged (eventParts ++ [Part.conns, Part.rk, Part.rwy, Part.integ, Part.vis, Part.dram]) (rmwFields ++ eventFields ++ [Fld.AON_RIRQ_LO_RING, Fld.AON_RIRQ_HI_RING, Fld.DMA_HALT_LO_HALT, Fld.DMA_HALT_HI_HALT, Fld.DMA_RHEAD_IDX]) s t) ∧
  (∀ (r : RingNo) (s t : State), exec (.dmaHalt r) s = .next t → Unchanged (eventParts ++ [Part.dram]) (rmwFields ++ eventFields ++ [Fld.DMA_HALT_LO_HALT, Fld.DMA_HALT_HI_HALT]) s t) ∧
  (∀ (lvl : Lvl) (hi : Bool) (val : U32) (s t : State), exec (.dmaHaltClear lvl hi val) s = .next t → Unchanged eventParts (accessFields ++ [Fld.DMA_HALT_LO_HALT, Fld.DMA_HALT_HI_HALT]) s t)

/-- What each command of the web encoder, the send points and the lanes leaves as it was. -/
def Obligations.FramesOfTheWebAndLanes : Prop :=
  (∀ (a b : Bool) (s t : State), exec (.encoderCount a b) s = .next t → Unchanged (spoilParts ++ [Part.holdSeen, Part.fire, Part.lanes]) (spoilFields ++ eventFields ++ [Fld.AON_STATE_HOLDC, Fld.AON_STATE_STOPREQ, Fld.FIRE_SPEED_V, Fld.FIRE_SPDSTAT_STATUS, Fld.FIRE_SPDSTAT_DIR, Fld.FIRE_SPDSTAT_DECAY, Fld.FIRE_SPDSTAT_MODE, Fld.FIRE_ACCEL_A, Fld.FIRE_SLIPSUM_SUM, Fld.FIRE_SLIPCNT_ILLEGAL, Fld.FIRE_STAT_REV, Fld.FIRE_STAT_ILLEGAL, Fld.FIRE_STAT_LATE, Fld.FIRE_AMCNT_AMEND, Fld.FIRE_AMCNT_LATE]) s t) ∧
  (∀ (level : Bool) (s t : State), exec (.encoderIndex level) s = .next t → Unchanged (spoilParts ++ [Part.fire]) (spoilFields ++ eventFields ++ [Fld.AON_STATE_STOPREQ, Fld.FIRE_IDXREF_LO_X, Fld.FIRE_IDXREF_HI_X, Fld.FIRE_IDXREF_HI_SET, Fld.FIRE_IDXDEV_DEV, Fld.FIRE_SLIPSUM_SUM, Fld.FIRE_SLIPCNT_SLIPS, Fld.FIRE_STAT_SLIP, Fld.FIRE_STAT_SLIPSTOP]) s t) ∧
  (∀ (s t : State), exec .encNoindex s = .next t → Unchanged (spoilParts ++ [Part.fire]) (spoilFields ++ eventFields ++ [Fld.AON_STATE_STOPREQ, Fld.FIRE_SLIPCNT_SLIPS, Fld.FIRE_STAT_SLIP, Fld.FIRE_STAT_NOIDX, Fld.FIRE_STAT_SLIPSTOP]) s t) ∧
  (∀ (which : EncInput) (s t : State), exec (.encLine which) s = .next t → Unchanged (spoilParts ++ [Part.fire]) (spoilFields ++ eventFields ++ [Fld.AON_STATE_STOPREQ, Fld.FIRE_STAT_LINE, Fld.FIRE_STAT_SLIPSTOP]) s t) ∧
  (∀ (s t : State), exec .encStandstill s = .next t → Unchanged (spoilParts ++ [Part.fire, Part.lanes, Part.ring]) (spoilFields ++ eventFields ++ [Fld.AON_STATE_HOLDC, Fld.AON_STATE_STOPREQ, Fld.FIRE_SPEED_V, Fld.FIRE_SPDSTAT_STATUS, Fld.FIRE_SPDSTAT_DECAY, Fld.FIRE_SPDSTAT_MODE, Fld.FIRE_ACCEL_A, Fld.FIRE_STAT_LATE, Fld.FIRE_AMCNT_LATE]) s t) ∧
  (∀ (bar : Pipe) (s t : State), exec (.sendPoint bar) s = .next t → Unchanged (spoilParts ++ [Part.holdSeen, Part.jobs, Part.ended, Part.rk, Part.fire, Part.lanes, Part.vis, Part.aba]) (spoilFields ++ eventFields ++ dueFields ++ [Fld.AON_STATE_HOLDC, Fld.RW_LEAD_COUNTS, Fld.RW_LEADBAR_BAR, Fld.RW_BLEAD_COUNTS, Fld.FIRE_SPEED_V, Fld.FIRE_SPDSTAT_DECAY, Fld.FIRE_SPDSTAT_MODE, Fld.FIRE_PL_ORGH_VALID, Fld.VIS_WIN_Y0, Fld.VIS_WIN_Y1, Fld.VIS_WIN_EN, Fld.VIS_STAT_SKIP, Fld.HT_STAT_DARK, Fld.AB_STAT_UNDERRUN]) s t) ∧
  (∀ (s t : State), exec .fireRepredict s = .next t → Unchanged (spoilParts ++ [Part.fire, Part.lanes]) (spoilFields ++ eventFields ++ [Fld.FIRE_SPEED_V, Fld.FIRE_SPDSTAT_DECAY, Fld.FIRE_SPDSTAT_MODE, Fld.FIRE_STAT_LATE, Fld.FIRE_AMCNT_AMEND, Fld.FIRE_AMCNT_LATE]) s t) ∧
  (∀ (lvl : Lvl) (e : Fin 4) (lines : U32) (s t : State), exec (.placementLinesLower lvl e lines) s = .next t → Unchanged (spoilParts ++ [Part.jobs, Part.ended, Part.rk, Part.rwy, Part.fire, Part.lanes]) (accessFields ++ dueFields ++ [Fld.FIRE_PL_ORGH_VALID, Fld.FIRE_PL_LINES_L]) s t) ∧
  (∀ (n : LaneNo) (s t : State), exec (.laneEnable n) s = .next t → Unchanged [Part.out] [Fld.ZL_STAT_STATE, Fld.ZL_STAT_LOSSES, Fld.ZL_TIMED_LO_TIMED, Fld.ZL_TIMED_HI_TIMED] s t) ∧
  (∀ (n : LaneNo) (s t : State), exec (.blockLock n) s = .next t → Unchanged [Part.lanes, Part.out] [Fld.ZL_STAT_STATE, Fld.ZL_STAT_LOCK, Fld.ZL_STAT_LOSSES, Fld.ZL_TIMED_LO_TIMED, Fld.ZL_TIMED_HI_TIMED] s t) ∧
  (∀ (n : LaneNo) (s t : State), exec (.lockLost n) s = .next t → Unchanged (spoilParts ++ [Part.jobs, Part.ended, Part.rk, Part.lanes]) (spoilFields ++ eventFields ++ [Fld.ZL_STAT_STATE, Fld.ZL_STAT_LOCK, Fld.ZL_STAT_FARLOCK, Fld.ZL_STAT_LOSSES, Fld.ZL_TIMED_LO_TIMED, Fld.ZL_TIMED_HI_TIMED]) s t) ∧
  (∀ (n : LaneNo) (farGen : Fin 4) (s t : State), exec (.laneUp n farGen) s = .next t → Unchanged (eventParts ++ [Part.lanes]) (eventFields ++ [Fld.ZL_STAT_STATE, Fld.ZL_STAT_FARLOCK, Fld.ZL_STAT_FARGEN, Fld.ZL_STAT_EEOK, Fld.ZL_STAT_LOSSES, Fld.ZL_EE_DONE, Fld.ZL_TIMED_LO_TIMED, Fld.ZL_TIMED_HI_TIMED, Fld.ZL_INC_LO_FRAC, Fld.ZL_INC_HI_INT]) s t) ∧
  (∀ (n : LaneNo) (s t : State), exec (.beaconPeriod n) s = .next t → Unchanged [Part.lanes, Part.out] [Fld.ZL_INC_LO_FRAC, Fld.ZL_INC_HI_INT] s t) ∧
  (∀ (n : LaneNo) (f : StatusFrame) (s t : State), exec (.statusFrame n f) s = .next t → Unchanged (spoilParts ++ [Part.jobs, Part.ended, Part.rk, Part.lanes, Part.heat, Part.freeCtr]) (spoilFields ++ eventFields ++ [Fld.ZL_STAT_STATE, Fld.ZL_STAT_LOCK, Fld.ZL_STAT_FARLOCK, Fld.ZL_STAT_HDPRES, Fld.ZL_STAT_LOSSES, Fld.ZL_LAT_DELAY, Fld.ZL_LAT_LAT, Fld.ZL_OFS_THETA, Fld.ZL_OFS_BEACON, Fld.ZL_FERR_RESENT, Fld.ZL_HEAD_THERM, Fld.ZL_HEAD_FLAGS, Fld.ZL_TIMED_LO_TIMED, Fld.ZL_TIMED_HI_TIMED, Fld.HT_TEMP_T]) s t) ∧
  (∀ (n : LaneNo) (s t : State), exec (.statusTimeout n) s = .next t → Unchanged (spoilParts ++ [Part.jobs, Part.ended, Part.rk, Part.lanes]) (spoilFields ++ eventFields ++ [Fld.ZL_STAT_STATE, Fld.ZL_STAT_LOCK, Fld.ZL_STAT_FARLOCK, Fld.ZL_STAT_LOSSES, Fld.ZL_TIMED_LO_TIMED, Fld.ZL_TIMED_HI_TIMED]) s t) ∧
  (∀ (n : LaneNo) (s t : State), exec (.zlRecovStop n) s = .next t → Unchanged (eventParts ++ [Part.lanes]) (eventFields ++ [Fld.AON_STATE_STOPREQ]) s t) ∧
  (∀ (n : LaneNo) (poison : Bool) (s t : State), exec (.doseFrameSend n poison) s = .next t → Unchanged (spoilParts ++ [Part.lanes]) (spoilFields ++ eventFields) s t) ∧
  (∀ (s t : State), exec .heatPeriod s = .next t → Unchanged [Part.lanes, Part.out] [Fld.HT_STAT_DUTY] s t) ∧
  (∀ (n : LaneNo) (f : EchoFrame) (s t : State), exec (.echoFrame n f) s = .next t → Unchanged (spoilParts ++ [Part.jobs, Part.ended, Part.rk, Part.lanes]) (spoilFields ++ eventFields ++ [Fld.ZL_ECHO_MISMATCH, Fld.ZL_ECHO_NODATA, Fld.ZL_ECHO_LATE]) s t) ∧
  (∀ (n : LaneNo) (jn line : U32) (s t : State), exec (.echoTimeout n jn line) s = .next t → Unchanged (spoilParts ++ [Part.jobs, Part.ended, Part.rk]) (spoilFields ++ eventFields ++ [Fld.ZL_ECHO_TIMEOUT]) s t) ∧
  (∀ (n : LaneNo) (s t : State), exec (.rxFrameError n) s = .next t → Unchanged (eventParts ++ [Part.lanes]) (eventFields ++ [Fld.ZL_FERR_RXBAD]) s t) ∧
  (∀ (n : LaneNo) (r : MgmtResp) (s t : State), exec (.mgmtResponse n r) s = .next t → Unchanged (spoilParts ++ [Part.jobs, Part.ended, Part.rk, Part.dose, Part.lanes]) (spoilFields ++ eventFields ++ [Fld.DP_RODQ_COUNT, Fld.DP_RODQ_COMMIT, Fld.DP_ERR_QOVF, Fld.DP_ERR_CREF, Fld.ZL_STAT_STATE, Fld.ZL_STAT_LOCK, Fld.ZL_STAT_FARLOCK, Fld.ZL_STAT_EEOK, Fld.ZL_STAT_LOSSES, Fld.ZL_EE_DONE, Fld.ZL_EE_CRCOK, Fld.ZL_EE_MATCH, Fld.ZL_EE_RANK, Fld.ZL_EE_NDEAD, Fld.ZL_TIMED_LO_TIMED, Fld.ZL_TIMED_HI_TIMED, Fld.AB_DROP_E]) s t) ∧
  (∀ (lvl : Lvl) (n : LaneNo) (s t : State), exec (.txSleepRequest lvl n) s = .next t → Unchanged (eventParts ++ [Part.lanes]) (accessFields ++ [Fld.ZL_STAT_STATE, Fld.ZL_STAT_LOCK, Fld.ZL_STAT_FARLOCK, Fld.ZL_STAT_LOSSES, Fld.ZL_LPCTL_TXS, Fld.ZL_LPCTL_RXS, Fld.ZL_LPCTL_PARK, Fld.ZL_LPCTL_CUR, Fld.ZL_TIMED_LO_TIMED, Fld.ZL_TIMED_HI_TIMED]) s t) ∧
  (∀ (lvl : Lvl) (n : LaneNo) (s t : State), exec (.rxSleepRequest lvl n) s = .next t → Unchanged (eventParts ++ [Part.lanes]) (accessFields ++ [Fld.ZL_STAT_STATE, Fld.ZL_STAT_LOCK, Fld.ZL_STAT_FARLOCK, Fld.ZL_STAT_LOSSES, Fld.ZL_LPCTL_TXS, Fld.ZL_LPCTL_RXS, Fld.ZL_LPCTL_PARK, Fld.ZL_LPCTL_CUR, Fld.ZL_TIMED_LO_TIMED, Fld.ZL_TIMED_HI_TIMED]) s t) ∧
  (∀ (lvl : Lvl) (n : LaneNo) (s t : State), exec (.parkRequest lvl n) s = .next t → Unchanged (eventParts ++ [Part.lanes]) (accessFields ++ [Fld.ZL_STAT_STATE, Fld.ZL_STAT_LOCK, Fld.ZL_STAT_FARLOCK, Fld.ZL_STAT_LOSSES, Fld.ZL_LPCTL_TXS, Fld.ZL_LPCTL_RXS, Fld.ZL_LPCTL_PARK, Fld.ZL_LPCTL_CUR, Fld.ZL_TIMED_LO_TIMED, Fld.ZL_TIMED_HI_TIMED]) s t) ∧
  (∀ (n : LaneNo) (s t : State), exec (.laneWake n) s = .next t → Unchanged (eventParts ++ [Part.lanes]) (eventFields ++ [Fld.ZL_STAT_STATE, Fld.ZL_STAT_LOCK, Fld.ZL_STAT_FARLOCK, Fld.ZL_STAT_EEOK, Fld.ZL_STAT_LOSSES, Fld.ZL_LPCTL_TXS, Fld.ZL_LPCTL_RXS, Fld.ZL_LPCTL_PARK, Fld.ZL_LPCTL_CUR, Fld.ZL_EE_DONE, Fld.ZL_TIMED_LO_TIMED, Fld.ZL_TIMED_HI_TIMED, Fld.ZL_INC_LO_FRAC, Fld.ZL_INC_HI_INT]) s t) ∧
  (∀ (lvl : Lvl) (n : LaneNo) (mode : Fin 4) (s t : State), exec (.loopModeWrite lvl n mode) s = .next t → Unchanged (spoilParts ++ [Part.jobs, Part.ended, Part.rk, Part.lanes]) (accessFields ++ spoilFields ++ [Fld.ZL_STAT_STATE, Fld.ZL_STAT_LOCK, Fld.ZL_STAT_FARLOCK, Fld.ZL_STAT_LOOP, Fld.ZL_STAT_LOSSES, Fld.ZL_LOOP_MODE, Fld.ZL_TIMED_LO_TIMED, Fld.ZL_TIMED_HI_TIMED]) s t) ∧
  (∀ (lvl : Lvl) (n : LaneNo) (errors : U32) (s t : State), exec (.loopTest lvl n errors) s = .next t → Unchanged (eventParts ++ [Part.lanes, Part.freeCtr]) (accessFields ++ [Fld.ZL_LOOP_TEST, Fld.ZL_LOOPERR_BITS]) s t)

/-- What each command of marks, the Tally unit and the cameras leaves as it was. -/
def Obligations.FramesOfMarksAndCameras : Prop :=
  (∀ (jn pn : U32) (poison : Bool) (s t : State), exec (.markPoint jn pn poison) s = .next t → Unchanged spoilParts (spoilFields ++ eventFields ++ [Fld.SP_STAT_EARLY, Fld.SP_STAT_PTPOI]) s t) ∧
  (∀ (s t : State), exec .wasteMarkEnd s = .next t → Unchanged [Part.integ] [Fld.SP_PTAB_USED, Fld.SP_PTAB_HIGH] s t) ∧
  (∀ (s t : State), exec .sprFlush s = .next t → Unchanged (eventParts ++ [Part.integ, Part.dram]) (rmwFields ++ eventFields ++ [Fld.AON_RIRQ_LO_RING, Fld.AON_RIRQ_HI_RING, Fld.DMA_HALT_LO_HALT, Fld.DMA_HALT_HI_HALT, Fld.DMA_RHEAD_IDX]) s t) ∧
  (∀ (lvl : Lvl) (v : U32) (s t : State), exec (.tallyFold lvl v) s = .next t → Unchanged eventParts (accessFields ++ [Fld.SP_STAT_TOWN, Fld.TALLY_FOLD_V, Fld.TALLY_VAL_STATE]) s t) ∧
  (∀ (lvl : Lvl) (v : Byte) (s t : State), exec (.tallyInB lvl v) s = .next t → Unchanged eventParts (accessFields ++ [Fld.SP_STAT_TOWN, Fld.TALLY_VAL_STATE]) s t) ∧
  (∀ (lvl : Lvl) (v : U16) (s t : State), exec (.tallyInH lvl v) s = .next t → Unchanged eventParts (accessFields ++ [Fld.SP_STAT_TOWN, Fld.TALLY_VAL_STATE]) s t) ∧
  (∀ (lvl : Lvl) (v : U32) (s t : State), exec (.tallyInW lvl v) s = .next t → Unchanged eventParts (accessFields ++ [Fld.SP_STAT_TOWN, Fld.TALLY_VAL_STATE]) s t) ∧
  (∀ (lvl : Lvl) (c : LaneNo) (v : U32) (s t : State), exec (.tallyValWrite lvl c v) s = .next t → Unchanged eventParts (accessFields ++ [Fld.SP_STAT_TOWN, Fld.TALLY_VAL_STATE]) s t) ∧
  (∀ (lvl : Lvl) (p : Port) (hi : U16) (s t : State), exec (.triggerEnqueue lvl p hi) s = .next t → Unchanged (eventParts ++ [Part.vis]) (accessFields ++ [Fld.VIS_STAT_SKIP]) s t) ∧
  (∀ (p : Port) (s t : State), exec (.cameraTrigger p) s = .next t → Unchanged (eventParts ++ [Part.vis, Part.freeCtr]) (eventFields ++ [Fld.VIS_ESCTL_COMMIT, Fld.VIS_ESCTL_CURSTR, Fld.VIS_ESCTL_CURSEN, Fld.VIS_CAL_ACTIVE, Fld.VIS_CAL_VER, Fld.VIS_STAT_STATE, Fld.VIS_STAT_SKIP, Fld.VIS_FRAME_FRAMEID]) s t) ∧
  (∀ (p : Port) (s t : State), exec (.triggerPulseEnd p) s = .next t → Unchanged [Part.vis] [] s t) ∧
  (∀ (p : Port) (s t : State), exec (.strobeStart p) s = .next t → Unchanged [Part.vis] [] s t) ∧
  (∀ (p : Port) (s t : State), exec (.strobeEnd p) s = .next t → Unchanged [Part.vis] [] s t) ∧
  (∀ (p : Port) (pkt : CsiPkt) (s t : State), exec (.csiPacket p pkt) s = .next t → Unchanged (eventParts ++ [Part.vis, Part.dram]) (rmwFields ++ eventFields ++ [Fld.AON_RIRQ_LO_RING, Fld.AON_RIRQ_HI_RING, Fld.VIS_STAT_STATE, Fld.VIS_STAT_DROP, Fld.VIS_STAT_NOBUF, Fld.VIS_CNT_DROPS, Fld.DMA_HALT_LO_HALT, Fld.DMA_HALT_HI_HALT, Fld.DMA_RHEAD_IDX]) s t) ∧
  (∀ (p : Port) (s t : State), exec (.frameEnd p) s = .next t → Unchanged (eventParts ++ [Part.vis, Part.freeCtr, Part.dram]) (rmwFields ++ eventFields ++ [Fld.AON_RIRQ_LO_RING, Fld.AON_RIRQ_HI_RING, Fld.VIS_STAT_STATE, Fld.VIS_STAT_CRC, Fld.VIS_STAT_NOBUF, Fld.VIS_STAT_GEOM, Fld.DMA_HALT_LO_HALT, Fld.DMA_HALT_HI_HALT, Fld.DMA_RHEAD_IDX]) s t) ∧
  (∀ (p : Port) (s t : State), exec (.frameWatchdogTimeout p) s = .next t → Unchanged (eventParts ++ [Part.vis, Part.dram]) (rmwFields ++ eventFields ++ [Fld.AON_RIRQ_LO_RING, Fld.AON_RIRQ_HI_RING, Fld.VIS_STAT_STATE, Fld.VIS_STAT_TIMEOUT, Fld.VIS_STAT_NOBUF, Fld.VIS_CNT_TIMEOUTS, Fld.DMA_HALT_LO_HALT, Fld.DMA_HALT_HI_HALT, Fld.DMA_RHEAD_IDX]) s t) ∧
  (∀ (p : Port) (s t : State), exec (.camResetDone p) s = .next t → Unchanged [Part.vis] [Fld.VIS_STAT_STATE] s t) ∧
  (∀ (lvl : Lvl) (p : Port) (s t : State), exec (.exposureCommit lvl p) s = .next t → Unchanged (eventParts ++ [Part.vis]) (accessFields ++ [Fld.VIS_ESCTL_COMMIT]) s t) ∧
  (∀ (p : Port) (s t : State), exec (.i2cListComplete p) s = .next t → Unchanged [Part.vis, Part.out] [Fld.VIS_ESCTL_COMMIT] s t) ∧
  (∀ (p : Port) (entry : Fin 256) (s t : State), exec (.camI2cFail p entry) s = .next t → Unchanged (eventParts ++ [Part.vis]) (eventFields ++ [Fld.VIS_ESCTL_COMMIT, Fld.VIS_STAT_I2C]) s t) ∧
  (∀ (lvl : Lvl) (p : Port) (s t : State), exec (.calStart lvl p) s = .next t → Unchanged (eventParts ++ [Part.vis]) accessFields s t) ∧
  (∀ (lvl : Lvl) (p : Port) (v : U32) (s t : State), exec (.ffbaseWrite lvl p v) s = .next t → Unchanged (eventParts ++ [Part.vis]) (accessFields ++ [Fld.VIS_FFBASE_ADDR]) s t)

/-- What each command of the nozzle register loops, the axes, the heat, the sensors and the planner leaves as it was. -/
def Obligations.FramesOfLoopsAxesAndHeat : Prop :=
  (∀ (p : Port) (jn pn frame : U32) (bars : List GapBar) (s t : State), exec (.gapMeasurement p jn pn frame bars) s = .next t → Unchanged (eventParts ++ [Part.dose, Part.loops]) (eventFields ++ [Fld.DP_SHIFT_NEXT, Fld.DP_RODQ_COUNT, Fld.DP_RODQ_COMMIT, Fld.DP_ERR_QOVF, Fld.DP_ERR_CREF, Fld.FIRE_TRIM_NEXT, Fld.VL_DEAD_N, Fld.VL_WEAK_N, Fld.VL_LAT_SH, Fld.VL_LAT_ACT, Fld.VL_DW_D]) s t) ∧
  (∀ (bar : Pipe) (s t : State), exec (.handoverStep bar) s = .next t → Unchanged (eventParts ++ [Part.loops, Part.axes]) (eventFields ++ [Fld.AX_TGT_POS, Fld.AX_STAT_MOVING]) s t) ∧
  (∀ (s t : State), exec .axsyncPeriod s = .next t → Unchanged [Part.axes, Part.axp, Part.ring, Part.pins, Part.out] [Fld.AX_TGT_POS, Fld.AX_STAT_MOVING] s t) ∧
  (∀ (s t : State), exec .axisSample s = .next t → Unchanged (eventParts ++ [Part.loops, Part.axes, Part.freeCtr]) (eventFields ++ [Fld.VL_HAND_HCUR, Fld.AX_CFG_CCOMMIT, Fld.AX_CMDPOS_POS, Fld.AX_EST_POS, Fld.AX_STAT_STATE, Fld.AX_STAT_MOVING, Fld.AX_STAT_SETTLED, Fld.AX_STAT_FE, Fld.TR_STAT_STATE, Fld.TR_STAT_TIDX]) s t) ∧
  (∀ (p : Port) (f : ReturnFrame) (s t : State), exec (.returnFrame p f) s = .next t → Unchanged (eventParts ++ [Part.loops, Part.axes]) (eventFields ++ [Fld.AX_STAT_STATE, Fld.AX_STAT_MOVING, Fld.AXP_ERR_RCRC, Fld.AXP_ERR_FAULT]) s t) ∧
  (∀ (a : AxisNo) (s t : State), exec (.followingErrorFault a) s = .next t → Unchanged (eventParts ++ [Part.loops, Part.axes]) (eventFields ++ [Fld.AX_STAT_STATE, Fld.AX_STAT_MOVING]) s t) ∧
  (∀ (a : AxisNo) (high : Bool) (s t : State), exec (.limitTrip a high) s = .next t → Unchanged (eventParts ++ [Part.axes]) (eventFields ++ [Fld.AX_STAT_STATE, Fld.AX_STAT_MOVING, Fld.AX_STAT_LATLO, Fld.AX_STAT_LATHI, Fld.AX_STAT_HOMESW]) s t) ∧
  (∀ (a : AxisNo) (high : Bool) (s t : State), exec (.limitLatchClear a high) s = .next t → Unchanged [Part.axes] [Fld.AX_STAT_LATLO, Fld.AX_STAT_LATHI] s t) ∧
  (∀ (a : AxisNo) (edge : HomeEdge) (s t : State), exec (.homeInputChange a edge) s = .next t → Unchanged [Part.axes] [Fld.AX_STAT_STATE, Fld.AX_STAT_MOVING, Fld.AX_STAT_HOMESW] s t) ∧
  (∀ (a : AxisNo) (s t : State), exec (.homingTimeout a) s = .next t → Unchanged (eventParts ++ [Part.axes]) (eventFields ++ [Fld.AX_STAT_STATE, Fld.AX_STAT_MOVING]) s t) ∧
  (∀ (lvl : Lvl) (a : AxisNo) (v : U32) (s t : State), exec (.axTgtWrite lvl a v) s = .next t → Unchanged (eventParts ++ [Part.axes]) (accessFields ++ [Fld.AX_TGT_POS, Fld.AX_STAT_MOVING]) s t) ∧
  (∀ (lvl : Lvl) (a : AxisNo) (s t : State), exec (.axHome lvl a) s = .next t → Unchanged (eventParts ++ [Part.axes]) (accessFields ++ [Fld.AX_STAT_STATE, Fld.AX_STAT_MOVING]) s t) ∧
  (∀ (lvl : Lvl) (a : AxisNo) (s t : State), exec (.axStop lvl a) s = .next t → Unchanged (eventParts ++ [Part.axes]) (accessFields ++ [Fld.AX_STAT_STATE, Fld.AX_STAT_MOVING]) s t) ∧
  (∀ (lvl : Lvl) (a : AxisNo) (s t : State), exec (.axFclr lvl a) s = .next t → Unchanged (eventParts ++ [Part.axes]) (accessFields ++ [Fld.AX_STAT_STATE]) s t) ∧
  (∀ (lvl : Lvl) (a : AxisNo) (s t : State), exec (.axCcommit lvl a) s = .next t → Unchanged eventParts (accessFields ++ [Fld.AX_CFG_CCOMMIT]) s t) ∧
  (∀ (lvl : Lvl) (h : LaneNo) (s t : State), exec (.htCcommit lvl h) s = .next t → Unchanged eventParts (accessFields ++ [Fld.HT_CFG_CCOMMIT]) s t) ∧
  (∀ (s t : State), exec .heaterSample s = .next t → Unchanged (eventParts ++ [Part.heat, Part.freeCtr]) (eventFields ++ [Fld.HT_CFG_CCOMMIT, Fld.HT_TEMP_TM, Fld.TR_STAT_STATE, Fld.TR_STAT_TIDX]) s t) ∧
  (∀ (h : LaneNo) (s t : State), exec (.headTempSample h) s = .next t → Unchanged (eventParts ++ [Part.lanes, Part.heat]) (eventFields ++ [Fld.AON_STATE_STOPREQ, Fld.HT_STAT_SOFT, Fld.HT_STAT_HARD, Fld.HT_STAT_DARK]) s t) ∧
  (∀ (h : LaneNo) (s t : State), exec (.headPlaus h) s = .next t → Unchanged (eventParts ++ [Part.lanes]) (eventFields ++ [Fld.AON_STATE_STOPREQ, Fld.HT_STAT_PLAUS, Fld.HT_STAT_DARK]) s t) ∧
  (∀ (lvl : Lvl) (c : Fin 4) (s t : State), exec (.traceArm lvl c) s = .next t → Unchanged eventParts (accessFields ++ [Fld.TR_STAT_STATE, Fld.TR_STAT_TIDX]) s t) ∧
  (∀ (pwr vin : U16) (s t : State), exec (.epochEnd pwr vin) s = .next t → Unchanged (spoilParts ++ [Part.rk, Part.heat, Part.aba, Part.temp, Part.ring]) (spoilFields ++ eventFields ++ [Fld.AON_STATE_HOLDC, Fld.AON_PDSTAT_ON, Fld.AON_TDEM_BUSY, Fld.RKC_ACTIVE_ACT, Fld.RKC_ACTIVE_COUNT, Fld.RKC_SHED_QUAD, Fld.RKC_CMP_NOMAJ, Fld.RKC_BUSY_CYC, Fld.RW_LEAD_COUNTS, Fld.RW_LEADBAR_BAR, Fld.RW_LEADREQ_COUNTS, Fld.RW_LEADTGT_COUNTS, Fld.RW_BLEAD_COUNTS, Fld.FIRE_SPEED_V, Fld.FIRE_SPDSTAT_DECAY, Fld.FIRE_SPDSTAT_MODE, Fld.AB_PLIM_CUR, Fld.AB_PIN_PWR, Fld.AB_PIN_VIN, Fld.AB_CEIL_C, Fld.AB_BIND_SRC, Fld.AB_BIND_BAR, Fld.AB_BIND_WIN, Fld.AB_LADDER_STEP, Fld.AB_LADDER_RCK, Fld.AB_STAT_OVER, Fld.AB_STAT_SHORT, Fld.AB_STAT_MODLIM, Fld.AB_EPOCH_N, Fld.AB_HPLIM_CUR]) s t) ∧
  (∀ (s t : State), exec .hkTempDemand s = .next t → Unchanged [Part.temp] [Fld.AON_TDEM_BUSY] s t) ∧
  (∀ (lvl : Lvl) (mask : BitVec 10) (s t : State), exec (.tempDemand lvl mask) s = .next t → Unchanged eventParts (accessFields ++ [Fld.AON_TDEM_BUSY]) s t) ∧
  (∀ (readings : List U16) (s t : State), exec (.tempConversionDone readings) s = .next t → Unchanged (eventParts ++ [Part.nor, Part.tb, Part.pwr, Part.shut, Part.temp]) (eventFields ++ [Fld.AON_TDEM_BUSY, Fld.AON_TEMP_T, Fld.AON_TEMP_VALID, Fld.CR_LOG_WP_OFS, Fld.AB_STAT_THROTTLE, Fld.AB_STAT_TWARN, Fld.TB_FBINC_LO_FRAC, Fld.TB_FBINC_HI_INT]) s t) ∧
  (∀ (s t : State), exec .shutdownRecordWritten s = .next t → Unchanged [Part.nor, Part.shut, Part.out] [Fld.CR_LOG_WP_OFS] s t) ∧
  (∀ (a : AxisNo) (f : Feedback) (s t : State), exec (.axisFeedbackChange a f) s = .next t → Unchanged [Part.axes] [] s t)

/-- What each command of the memory, the timebase, PTP, the sync ring and register accesses leaves as it was. -/
def Obligations.FramesOfMemoryTimeAndRing : Prop :=
  (∀ (s t : State), exec .speedCeilPeriod s = .next t → Unchanged [Part.pins] [] s t) ∧
  (∀ (c : Chan) (idle : Bool) (s t : State), exec (.refreshInterval c idle) s = .next t → Unchanged [Part.msub] [Fld.MEM_CH_STAT_OWED] s t) ∧
  (∀ (c : Chan) (td : U16) (s t : State), exec (.mr4Poll c td) s = .next t → Unchanged (eventParts ++ [Part.msub]) (eventFields ++ [Fld.MEM_CH_STAT_BAND2X, Fld.MEM_CH_STAT_OWED, Fld.MEM_CH_STAT_CALPEND, Fld.MEM_CH_STAT_STEP, Fld.MEM_TEMP_TD, Fld.MEM_TEMP_TCAL, Fld.MEM_EYE_STALE]) s t) ∧
  (∀ (s t : State), exec .calWindowOpen s = .next t → Unchanged [Part.msub] [Fld.MEM_CH_STAT_STATE] s t) ∧
  (∀ (rd wr : Byte) (done : Bool) (s t : State), exec (.calWindowEnd rd wr done) s = .next t → Unchanged (eventParts ++ [Part.msub]) (eventFields ++ [Fld.MEM_CH_STAT_STATE, Fld.MEM_CH_STAT_CALPEND, Fld.MEM_CH_STAT_STEP, Fld.MEM_CALCNT_RUNS, Fld.MEM_CALCNT_ABANDON, Fld.MEM_EYE_RD, Fld.MEM_EYE_WR, Fld.MEM_EYE_STALE]) s t) ∧
  (∀ (s t : State), exec .memCalLate s = .next t → Unchanged (eventParts ++ [Part.msub]) eventFields s t) ∧
  (∀ (eyes : List (Byte × Byte)) (s t : State), exec (.channelBRetrain eyes) s = .next t → Unchanged eventParts (eventFields ++ [Fld.MEM_CH_STAT_OWED, Fld.MEM_TEMP_TCAL, Fld.MEM_CALCNT_RUNS, Fld.MEM_EYE_RD, Fld.MEM_EYE_WR, Fld.MEM_EYE_STALE]) s t) ∧
  (∀ (us : Byte) (s t : State), exec (.freqChange us) s = .next t → Unchanged (eventParts ++ [Part.fire, Part.msub, Part.freqWait, Part.pins]) (eventFields ++ [Fld.AON_STATE_STATE, Fld.MEM_CTL_CUR, Fld.MEM_CH_STAT_OWED, Fld.MEM_CH_STAT_CALPEND, Fld.MEM_CH_STAT_STEP, Fld.MEM_TEMP_TCAL, Fld.MEM_EYE_STALE]) s t) ∧
  (∀ (addr : BitVec 36) (outcome : ScrubOutcome) (s t : State), exec (.scrubRead addr outcome) s = .next t → Unchanged (eventParts ++ [Part.msub, Part.dram]) (eventFields ++ [Fld.MEM_CE_N, Fld.MEM_UE_N, Fld.MEM_ELOG_LO_ADDR, Fld.MEM_ELOG_HI_ADDR, Fld.MEM_ELOG_HI_DIE, Fld.MEM_ELOG_HI_UE, Fld.MEM_ELOG_HI_VALID]) s t) ∧
  (∀ (c : Chan) (s t : State), exec (.writeDrain c) s = .next t → Unchanged [] [Fld.MEM_WQ_LEVEL, Fld.MEM_WQ_HIGH, Fld.MEM_WQ_DRAINS] s t) ∧
  (∀ (port : Fin 3) (offset : U64) (delay : U32) (s t : State), exec (.ptpSync port offset delay) s = .next t → Unchanged (eventParts ++ [Part.tb, Part.ptp, Part.freeCtr]) (eventFields ++ [Fld.TB_CTL_HOLDOVER, Fld.TB_RATE_PPB, Fld.PTP_STAT_PSTATE, Fld.PTP_STAT_LOCK, Fld.PTP_OFS_NS, Fld.PTP_MPD_NS]) s t) ∧
  (∀ (s t : State), exec .announceTimeout s = .next t → Unchanged (eventParts ++ [Part.tb, Part.ptp]) (eventFields ++ [Fld.TB_CTL_HOLDOVER, Fld.PTP_STAT_PSTATE, Fld.PTP_STAT_LOCK]) s t) ∧
  (∀ (s t : State), exec .tbFallback s = .next t → Unchanged (eventParts ++ [Part.tb]) (eventFields ++ [Fld.TB_CTL_SRC, Fld.TB_CTL_HOLDOVER, Fld.TB_FBINC_LO_FRAC, Fld.TB_FBINC_HI_INT]) s t) ∧
  (∀ (s t : State), exec .tbMain s = .next t → Unchanged (eventParts ++ [Part.tb]) (eventFields ++ [Fld.TB_CTL_SRC, Fld.TB_RATE_PPB]) s t) ∧
  (∀ (s t : State), exec .mgmtPtpFallback s = .next t → Unchanged (eventParts ++ [Part.tb, Part.ptp]) (eventFields ++ [Fld.TB_CTL_HOLDOVER, Fld.PTP_STAT_LOCK, Fld.PTP_STAT_SRCPORT, Fld.PTP_STAT_GMCHG]) s t) ∧
  (∀ (s t : State), exec .mgmtPtpReturn s = .next t → Unchanged (eventParts ++ [Part.tb, Part.ptp]) (eventFields ++ [Fld.TB_CTL_HOLDOVER, Fld.PTP_STAT_LOCK, Fld.PTP_STAT_SRCPORT, Fld.PTP_STAT_GMCHG]) s t) ∧
  (∀ (src hops : RingId) (rel : Bool) (cause : Byte) (seq : U16) (s t : State), exec (.ringHoldFrame src hops rel cause seq) s = .next t → Unchanged (eventParts ++ [Part.holdSeen, Part.ring]) (eventFields ++ [Fld.AON_STATE_HOLDC, Fld.RING_STAT_UP, Fld.RING_STAT_MASTER, Fld.RING_STAT_MID, Fld.RING_STAT_MEMBERS, Fld.RING_STAT_HOLDSRC, Fld.RING_CNT_GAPS]) s t) ∧
  (∀ (src hops : RingId) (group : RingId) (sec ns : U32) (s t : State), exec (.ringStartFrame src hops group sec ns) s = .next t → Unchanged (eventParts ++ [Part.holdSeen, Part.axes, Part.ring]) (eventFields ++ [Fld.AON_STATE_HOLDC, Fld.RING_STAT_UP, Fld.RING_STAT_MASTER, Fld.RING_STAT_MID, Fld.RING_STAT_MEMBERS, Fld.RING_STAT_HOLDSRC, Fld.RING_CNT_GAPS]) s t) ∧
  (∀ (src hops : RingId) (second rt : U32) (s t : State), exec (.ringPulseFrame src hops second rt) s = .next t → Unchanged (eventParts ++ [Part.holdSeen, Part.ring]) (eventFields ++ [Fld.AON_STATE_HOLDC, Fld.RING_STAT_UP, Fld.RING_STAT_MASTER, Fld.RING_STAT_MID, Fld.RING_STAT_MEMBERS, Fld.RING_STAT_HOLDSRC, Fld.RING_PLS_O, Fld.RING_RT_NS, Fld.RING_CNT_GAPS]) s t) ∧
  (∀ (src hops : RingId) (foreign : Bool) (state holdc flags present requests : Byte) (sec : U32) (s t : State), exec (.ringStatusFrame src hops foreign state holdc flags present requests sec) s = .next t → Unchanged (eventParts ++ [Part.holdSeen, Part.axes, Part.ring]) (eventFields ++ [Fld.AON_STATE_HOLDC, Fld.RING_STAT_UP, Fld.RING_STAT_MASTER, Fld.RING_STAT_MID, Fld.RING_STAT_MEMBERS, Fld.RING_STAT_HOLDSRC, Fld.RING_STAT_DUP, Fld.RING_CNT_GAPS]) s t) ∧
  (∀ (s t : State), exec .ringStatusSend s = .next t → Unchanged (eventParts ++ [Part.ring]) (eventFields ++ [Fld.RING_STAT_MASTER, Fld.RING_STAT_MID, Fld.RING_STAT_MEMBERS]) s t) ∧
  (∀ (s t : State), exec .ringHoldSend s = .next t → Unchanged [Part.ring, Part.out] [] s t) ∧
  (∀ (id : RingId) (s t : State), exec (.ringMemberLost id) s = .next t → Unchanged (eventParts ++ [Part.holdSeen, Part.ring]) (eventFields ++ [Fld.AON_STATE_HOLDC, Fld.RING_STAT_MASTER, Fld.RING_STAT_MID, Fld.RING_STAT_MEMBERS, Fld.RING_STAT_HOLDSRC]) s t) ∧
  (∀ (s t : State), exec .ringDown s = .next t → Unchanged (eventParts ++ [Part.holdSeen, Part.ring]) (eventFields ++ [Fld.AON_STATE_HOLDC, Fld.RING_STAT_UP, Fld.RING_STAT_HOLDSRC, Fld.RING_CNT_GAPS]) s t) ∧
  (∀ (s t : State), exec .pulseSend s = .next t → Unchanged [Part.ring, Part.out] [] s t) ∧
  (∀ (s t : State), exec .countLatch s = .next t → Unchanged [Part.ring] [Fld.RING_CL_S_S] s t) ∧
  (∀ (g : RingId) (s t : State), exec (.groupStartTimeout g) s = .next t → Unchanged (eventParts ++ [Part.axes, Part.ring]) eventFields s t) ∧
  (∀ (s t : State), exec .evrBufferClose s = .next t → Unchanged (eventParts ++ [Part.dram]) (rmwFields ++ eventFields ++ [Fld.AON_RIRQ_LO_RING, Fld.AON_RIRQ_HI_RING, Fld.DMA_HALT_LO_HALT, Fld.DMA_HALT_HI_HALT, Fld.DMA_RHEAD_IDX]) s t) ∧
  (∀ (lvl : Lvl) (addr : U32) (width : Byte) (write : Bool) (s t : State), exec (.invalidRegisterAccess lvl addr width write) s = .next t → Unchanged eventParts accessFields s t) ∧
  (∀ (id : RingId) (s t : State), exec (.ringHoldOriginatorTimeout id) s = .next t → Unchanged [Part.holdSeen, Part.xpp, Part.ring, Part.out] [Fld.AON_STATE_HOLDC, Fld.RING_STAT_HOLDSRC] s t) ∧
  (∀ (port : Fin 3) (best : BestMaster) (s t : State), exec (.ptpAnnounce port best) s = .next t → Unchanged (eventParts ++ [Part.tb, Part.ptp]) (eventFields ++ [Fld.TB_CTL_HOLDOVER, Fld.PTP_STAT_PSTATE, Fld.PTP_STAT_LOCK, Fld.PTP_STAT_GMCHG]) s t) ∧
  (∀ (s t : State), exec .ptpSyncInterval s = .next t → Unchanged [Part.ptp, Part.out] [Fld.PTP_STAT_PSTATE] s t) ∧
  (∀ (port : Fin 3) (cause : BadCause) (s t : State), exec (.xppMessageDiscard port cause) s = .next t → Unchanged eventParts (eventFields ++ [Fld.XPP_CNT_BAD]) s t) ∧
  (∀ (s t : State), exec .ringFrameCrcFail s = .next t → Unchanged [] [Fld.RING_CNT_CRC] s t)

end
end

