-- ==== Sys2Proof/Laws/Tab.lean ====
section
/-! SUPPORT. Sparse tables: what a read gives after a write, and that a write keeps the canonical form. -/
namespace Sys2Proof.Machine

variable {κ α : Type}

/-- An erased key reads as the default. -/
theorem Tab.get_erase_same [DecidableEq κ] (dflt : α) (t : Tab κ α) (k : κ) : Tab.get dflt (Tab.erase t k) k = dflt := by
  induction t with
  | nil => rfl
  | cons x t ih =>
    obtain ⟨k', v⟩ := x
    by_cases h : k' = k <;> simp [Tab.erase, Tab.get, h, ih]

/-- Other keys read as before an erasure. -/
theorem Tab.get_erase_ne [DecidableEq κ] (dflt : α) (t : Tab κ α) {k k' : κ} (h : k' ≠ k) :
    Tab.get dflt (Tab.erase t k) k' = Tab.get dflt t k' := by
  induction t with
  | nil => rfl
  | cons x t ih =>
    obtain ⟨a, v⟩ := x
    by_cases ha : a = k
    · subst ha; simp [Tab.erase, Tab.get, ih, Ne.symm h]
    · by_cases hb : a = k'
      · subst hb; simp [Tab.erase, Tab.get, h]
      · simp [Tab.erase, Tab.get, ha, hb, ih]

/-- A placed key reads as its value where the table does not list it. -/
theorem Tab.get_place_same [DecidableEq κ] (lt : κ → κ → Bool) (dflt : α) (t : Tab κ α) (k : κ) (v : α) (h : ∀ x ∈ t, x.1 ≠ k) :
    Tab.get dflt (Tab.place lt k v t) k = v := by
  induction t with
  | nil => simp [Tab.place, Tab.get]
  | cons x t ih =>
    obtain ⟨a, w⟩ := x
    have ha : a ≠ k := h (a, w) (by simp)
    by_cases hl : lt a k
    · simp [Tab.place, Tab.get, hl, ha]; exact ih (fun x hx => h x (by simp [hx]))
    · simp [Tab.place, Tab.get, hl]

/-- Other keys read as before a placement. -/
theorem Tab.get_place_ne [DecidableEq κ] (lt : κ → κ → Bool) (dflt : α) (t : Tab κ α) {k k' : κ} (v : α) (h : k' ≠ k) :
    Tab.get dflt (Tab.place lt k v t) k' = Tab.get dflt t k' := by
  induction t with
  | nil => simp [Tab.place, Tab.get, Ne.symm h]
  | cons x t ih =>
    obtain ⟨a, w⟩ := x
    by_cases hl : lt a k
    · by_cases ha : a = k'
      · subst ha; simp [Tab.place, Tab.get, hl]
      · simp [Tab.place, Tab.get, hl, ha, ih]
    · simp [Tab.place, Tab.get, hl, Ne.symm h]

/-- An erased key is not listed. -/
theorem Tab.erase_ne [DecidableEq κ] (t : Tab κ α) (k : κ) : ∀ x ∈ Tab.erase t k, x.1 ≠ k := by
  induction t with
  | nil => simp [Tab.erase]
  | cons x t ih =>
    obtain ⟨a, w⟩ := x
    by_cases ha : a = k
    · simpa [Tab.erase, ha] using ih
    · intro x hx
      simp [Tab.erase, ha] at hx
      rcases hx with rfl | hx
      · exact ha
      · exact ih x hx

/-- A written key reads as its value. -/
@[simp] theorem Tab.get_set_same [DecidableEq κ] [DecidableEq α] (lt : κ → κ → Bool) (dflt : α) (t : Tab κ α) (k : κ) (v : α) :
    Tab.get dflt (Tab.set lt dflt t k v) k = v := by
  unfold Tab.set
  split
  · next h => simp [Tab.get_erase_same, h]
  · exact Tab.get_place_same lt dflt _ k v (Tab.erase_ne t k)

/-- Other keys read as before a write. -/
theorem Tab.get_set_ne [DecidableEq κ] [DecidableEq α] (lt : κ → κ → Bool) (dflt dflt' : α) (t : Tab κ α) {k k' : κ} (v : α) (h : k' ≠ k) :
    Tab.get dflt' (Tab.set lt dflt t k v) k' = Tab.get dflt' t k' := by
  unfold Tab.set
  split
  · exact Tab.get_erase_ne dflt' t h
  · rw [Tab.get_place_ne lt dflt' _ v h, Tab.get_erase_ne dflt' t h]

/-! ### The canonical form -/

/-- A strict linear order, as the tables use one. -/
structure StrictOrder (lt : κ → κ → Bool) : Prop where
  trans : ∀ a b c, lt a b → lt b c → lt a c
  irrefl : ∀ a, lt a a = false
  total : ∀ a b, a ≠ b → lt a b = false → lt b a = true

/-- The Nat order is one. -/
theorem natLt_order : StrictOrder natLt where
  trans a b c := by simp [natLt]; omega
  irrefl a := by simp [natLt]
  total a b h := by simp [natLt]; omega

/-- Every entry of the table's tail lies above its head. -/
theorem Tab.rising_cons (lt : κ → κ → Bool) (ho : StrictOrder lt) (x : κ × α) (t : Tab κ α) :
    Tab.rising lt (x :: t) = true ↔ (∀ y ∈ t, lt x.1 y.1 = true) ∧ Tab.rising lt t = true := by
  induction t generalizing x with
  | nil => simp [Tab.rising]
  | cons y t ih =>
    obtain ⟨k, v⟩ := x
    obtain ⟨k', v'⟩ := y
    simp only [Tab.rising, Bool.and_eq_true]
    constructor
    · intro ⟨h1, h2⟩
      refine ⟨?_, h2⟩
      intro y hy
      simp only [List.mem_cons] at hy
      rcases hy with rfl | hy
      · exact h1
      · exact ho.trans _ _ _ h1 (((ih (k', v')).1 h2).1 y hy)
    · intro ⟨h1, h2⟩
      exact ⟨h1 (k', v') (by simp), h2⟩

/-- Where an erased table's entries come from. -/
theorem Tab.mem_erase [DecidableEq κ] (t : Tab κ α) (k : κ) (x : κ × α) : x ∈ Tab.erase t k ↔ x ∈ t ∧ x.1 ≠ k := by
  induction t with
  | nil => simp [Tab.erase]
  | cons y t ih =>
    obtain ⟨a, w⟩ := y
    by_cases ha : a = k
    · simp only [Tab.erase, ha, if_pos, ih, List.mem_cons]
      constructor
      · intro ⟨h1, h2⟩; exact ⟨Or.inr h1, h2⟩
      · intro ⟨h1, h2⟩
        rcases h1 with rfl | h1
        · exact absurd rfl h2
        · exact ⟨h1, h2⟩
    · simp only [Tab.erase, ha, if_false, List.mem_cons, ih]
      constructor
      · rintro (rfl | ⟨h1, h2⟩)
        · exact ⟨Or.inl rfl, ha⟩
        · exact ⟨Or.inr h1, h2⟩
      · rintro ⟨rfl | h1, h2⟩
        · exact Or.inl rfl
        · exact Or.inr ⟨h1, h2⟩

/-- Where a table's entries come from after a placement. -/
theorem Tab.mem_place (lt : κ → κ → Bool) (t : Tab κ α) (k : κ) (v : α) (x : κ × α) :
    x ∈ Tab.place lt k v t ↔ x = (k, v) ∨ x ∈ t := by
  induction t with
  | nil => simp [Tab.place]
  | cons y t ih =>
    obtain ⟨a, w⟩ := y
    by_cases hl : lt a k
    · simp only [Tab.place, hl, if_true, List.mem_cons, ih]
      exact or_left_comm
    · simp [Tab.place, hl]

/-- Erasing keeps the order. -/
theorem Tab.rising_erase [DecidableEq κ] (lt : κ → κ → Bool) (ho : StrictOrder lt) (t : Tab κ α) (k : κ) (h : Tab.rising lt t = true) :
    Tab.rising lt (Tab.erase t k) = true := by
  induction t with
  | nil => rfl
  | cons y t ih =>
    obtain ⟨a, w⟩ := y
    have h' := (Tab.rising_cons lt ho (a, w) t).1 h
    by_cases ha : a = k
    · simpa [Tab.erase, ha] using ih h'.2
    · simp only [Tab.erase, ha, if_false]
      refine (Tab.rising_cons lt ho _ _).2 ⟨?_, ih h'.2⟩
      intro x hx
      exact h'.1 x ((Tab.mem_erase t k x).1 hx).1

/-- Placing a key that is not listed keeps the order. -/
theorem Tab.rising_place (lt : κ → κ → Bool) (ho : StrictOrder lt) (t : Tab κ α) (k : κ) (v : α)
    (hk : ∀ x ∈ t, x.1 ≠ k) (h : Tab.rising lt t = true) : Tab.rising lt (Tab.place lt k v t) = true := by
  induction t with
  | nil => rfl
  | cons y t ih =>
    obtain ⟨a, w⟩ := y
    have h' := (Tab.rising_cons lt ho (a, w) t).1 h
    have ha : a ≠ k := hk (a, w) (by simp)
    by_cases hl : lt a k = true
    · simp only [Tab.place, hl, if_true]
      refine (Tab.rising_cons lt ho _ _).2 ⟨?_, ih (fun x hx => hk x (by simp [hx])) h'.2⟩
      intro x hx
      rcases (Tab.mem_place lt t k v x).1 hx with rfl | hx
      · exact hl
      · exact h'.1 x hx
    · simp only [Tab.place, hl]
      have hka : lt k a = true := ho.total a k ha (by simpa using hl)
      refine (Tab.rising_cons lt ho _ _).2 ⟨?_, h⟩
      intro x hx
      simp only [List.mem_cons] at hx
      rcases hx with rfl | hx
      · exact hka
      · exact ho.trans _ _ _ hka (h'.1 x hx)

/-- No entry holds its default, entry by entry. -/
theorem Tab.noDefault_iff [DecidableEq α] (dflt : κ → α) (t : Tab κ α) : Tab.noDefault dflt t = true ↔ ∀ x ∈ t, x.2 ≠ dflt x.1 := by
  induction t with
  | nil => simp [Tab.noDefault]
  | cons y t ih => obtain ⟨a, w⟩ := y; simp [Tab.noDefault, ih]

/-- A write keeps the canonical form. -/
theorem Tab.wf_set [DecidableEq κ] [DecidableEq α] (lt : κ → κ → Bool) (ho : StrictOrder lt) (dflt : κ → α) (t : Tab κ α) (k : κ) (v : α)
    (h : Tab.wf lt dflt t = true) : Tab.wf lt dflt (Tab.set lt (dflt k) t k v) = true := by
  simp only [Tab.wf, Bool.and_eq_true] at h ⊢
  have hn := (Tab.noDefault_iff dflt t).1 h.2
  have he := Tab.rising_erase lt ho t k h.1
  unfold Tab.set
  split
  · exact ⟨he, (Tab.noDefault_iff _ _).2 (fun x hx => hn x ((Tab.mem_erase t k x).1 hx).1)⟩
  · next hv =>
    refine ⟨Tab.rising_place lt ho _ k v (Tab.erase_ne t k) he, (Tab.noDefault_iff _ _).2 ?_⟩
    intro x hx
    rcases (Tab.mem_place lt _ k v x).1 hx with rfl | hx
    · exact hv
    · exact hn x ((Tab.mem_erase t k x).1 hx).1

/-- Leaving entries out keeps the canonical form. -/
theorem Tab.wf_filter [DecidableEq α] (lt : κ → κ → Bool) (ho : StrictOrder lt) (dflt : κ → α) (t : Tab κ α) (p : κ × α → Bool)
    (h : Tab.wf lt dflt t = true) : Tab.wf lt dflt (t.filter p) = true := by
  simp only [Tab.wf, Bool.and_eq_true] at h ⊢
  refine ⟨?_, (Tab.noDefault_iff _ _).2 (fun x hx => (Tab.noDefault_iff dflt t).1 h.2 x (List.mem_filter.1 hx).1)⟩
  have hr := h.1
  clear h
  induction t with
  | nil => rfl
  | cons y t ih =>
    have h' := (Tab.rising_cons lt ho y t).1 hr
    by_cases hp : p y = true
    · simp only [List.filter, hp]
      exact (Tab.rising_cons lt ho _ _).2 ⟨fun x hx => h'.1 x (List.mem_filter.1 hx).1, ih h'.2⟩
    · simp only [List.filter, hp]
      exact ih h'.2

/-- An array entry reads as it was put. -/
@[simp] theorem Tab.at_put_same [DecidableEq α] [Inhabited α] (t : Tab Nat α) (n : Nat) (v : α) : Tab.at (Tab.put t n v) n = v := by
  simp [Tab.at, Tab.put]

/-- Other array entries read as before. -/
theorem Tab.at_put_ne [DecidableEq α] [Inhabited α] (t : Tab Nat α) {n m : Nat} (v : α) (h : m ≠ n) : Tab.at (Tab.put t n v) m = Tab.at t m := by
  simp [Tab.at, Tab.put, Tab.get_set_ne, h]

/-- A changed array entry. -/
@[simp] theorem Tab.at_upd_same [DecidableEq α] [Inhabited α] (t : Tab Nat α) (n : Nat) (f : α → α) : Tab.at (Tab.upd t n f) n = f (Tab.at t n) := by
  simp [Tab.upd]

/-- Other array entries read as before a change. -/
theorem Tab.at_upd_ne [DecidableEq α] [Inhabited α] (t : Tab Nat α) {n m : Nat} (f : α → α) (h : m ≠ n) : Tab.at (Tab.upd t n f) m = Tab.at t m := by
  simp [Tab.upd, Tab.at_put_ne, h]

/-- Filtering keeps what a kept key reads as. -/
theorem Tab.get_filter [DecidableEq κ] (dflt : α) (t : Tab κ α) (p : κ → Bool) (k : κ) :
    Tab.get dflt (t.filter (fun e => p e.1)) k = if p k then Tab.get dflt t k else dflt := by
  induction t with
  | nil => simp [Tab.get]
  | cons y t ih =>
    obtain ⟨a, w⟩ := y
    by_cases ha : a = k
    · subst ha; by_cases hp : p a = true <;> simp [List.filter, Tab.get, hp, ih]
    · by_cases hp : p a = true <;> simp [List.filter, Tab.get, hp, ha, ih]

end Sys2Proof.Machine
end

