-- ==== Sys2Proof/Laws/State.lean ====
section
/-! SUPPORT. Reads after updates of the state: one lemma per field for the named updates, so that no proof unfolds a record
update. -/
namespace Sys2Proof.Machine

/-! ### Registers -/

/-- A register field after a write of a field. -/
@[simp] theorem Dev.rd_wr (d : Dev) (f g : Fld) (v i j k l : Nat) :
    (d.wr f v i j).rd g k l = if g = f ∧ k = i ∧ l = j then v % 2 ^ (fldSpec f).width else d.rd g k l := by
  by_cases h : g = f ∧ k = i ∧ l = j
  · obtain ⟨rfl, rfl, rfl⟩ := h
    simp [Dev.rd, Dev.wr]
  · have : (g, k, l) ≠ (f, i, j) := fun e => h (by simpa [Prod.mk.injEq] using e)
    simp only [Dev.rd, Dev.wr, if_neg h]
    exact Tab.get_set_ne regLt _ _ _ _ this

/-- Registers are those of the register table, whatever else of the block has changed. -/
theorem Dev.rd_congr {d e : Dev} (h : e.rf = d.rf) (f : Fld) (i j : Nat) : e.rd f i j = d.rd f i j := by
  simp [Dev.rd, h]

/-- A record update that keeps the register table keeps every register field. -/
@[simp] theorem Dev.rd_mk (d : Dev) variant' nor' tb' lc' boot' pwr' shut' holdSeen' xpp' jobs' ended' conns' suppressAuto' rk' dose' curveSet' screenSet' reload' rodMaster' rwy' lvSince' ratioHist' fire' lanes' integ' accounts' vis' loops' axes' axp' heat' trace' aba' temp' msub' freqWait' ptp' ring' evr' pins' out' freeCtr' (f : Fld) (i j : Nat) :
    (Dev.mk variant' (Dev.rf d) nor' tb' lc' boot' pwr' shut' holdSeen' xpp' jobs' ended' conns' suppressAuto' rk' dose' curveSet' screenSet' reload' rodMaster' rwy' lvSince' ratioHist' fire' lanes' integ' accounts' vis' loops' axes' axp' heat' trace' aba' temp' msub' freqWait' ptp' ring' evr' pins' out' freeCtr').rd f i j = d.rd f i j := rfl

/-! ### Writing a register changes nothing else -/

@[simp] theorem Dev.wr_variant (d : Dev) (f : Fld) (v i j : Nat) : (d.wr f v i j).variant = d.variant := rfl
@[simp] theorem Dev.wr_nor (d : Dev) (f : Fld) (v i j : Nat) : (d.wr f v i j).nor = d.nor := rfl
@[simp] theorem Dev.wr_tb (d : Dev) (f : Fld) (v i j : Nat) : (d.wr f v i j).tb = d.tb := rfl
@[simp] theorem Dev.wr_lc (d : Dev) (f : Fld) (v i j : Nat) : (d.wr f v i j).lc = d.lc := rfl
@[simp] theorem Dev.wr_boot (d : Dev) (f : Fld) (v i j : Nat) : (d.wr f v i j).boot = d.boot := rfl
@[simp] theorem Dev.wr_pwr (d : Dev) (f : Fld) (v i j : Nat) : (d.wr f v i j).pwr = d.pwr := rfl
@[simp] theorem Dev.wr_shut (d : Dev) (f : Fld) (v i j : Nat) : (d.wr f v i j).shut = d.shut := rfl
@[simp] theorem Dev.wr_holdSeen (d : Dev) (f : Fld) (v i j : Nat) : (d.wr f v i j).holdSeen = d.holdSeen := rfl
@[simp] theorem Dev.wr_xpp (d : Dev) (f : Fld) (v i j : Nat) : (d.wr f v i j).xpp = d.xpp := rfl
@[simp] theorem Dev.wr_jobs (d : Dev) (f : Fld) (v i j : Nat) : (d.wr f v i j).jobs = d.jobs := rfl
@[simp] theorem Dev.wr_ended (d : Dev) (f : Fld) (v i j : Nat) : (d.wr f v i j).ended = d.ended := rfl
@[simp] theorem Dev.wr_conns (d : Dev) (f : Fld) (v i j : Nat) : (d.wr f v i j).conns = d.conns := rfl
@[simp] theorem Dev.wr_suppressAuto (d : Dev) (f : Fld) (v i j : Nat) : (d.wr f v i j).suppressAuto = d.suppressAuto := rfl
@[simp] theorem Dev.wr_rk (d : Dev) (f : Fld) (v i j : Nat) : (d.wr f v i j).rk = d.rk := rfl
@[simp] theorem Dev.wr_dose (d : Dev) (f : Fld) (v i j : Nat) : (d.wr f v i j).dose = d.dose := rfl
@[simp] theorem Dev.wr_curveSet (d : Dev) (f : Fld) (v i j : Nat) : (d.wr f v i j).curveSet = d.curveSet := rfl
@[simp] theorem Dev.wr_screenSet (d : Dev) (f : Fld) (v i j : Nat) : (d.wr f v i j).screenSet = d.screenSet := rfl
@[simp] theorem Dev.wr_reload (d : Dev) (f : Fld) (v i j : Nat) : (d.wr f v i j).reload = d.reload := rfl
@[simp] theorem Dev.wr_rodMaster (d : Dev) (f : Fld) (v i j : Nat) : (d.wr f v i j).rodMaster = d.rodMaster := rfl
@[simp] theorem Dev.wr_rwy (d : Dev) (f : Fld) (v i j : Nat) : (d.wr f v i j).rwy = d.rwy := rfl
@[simp] theorem Dev.wr_lvSince (d : Dev) (f : Fld) (v i j : Nat) : (d.wr f v i j).lvSince = d.lvSince := rfl
@[simp] theorem Dev.wr_ratioHist (d : Dev) (f : Fld) (v i j : Nat) : (d.wr f v i j).ratioHist = d.ratioHist := rfl
@[simp] theorem Dev.wr_fire (d : Dev) (f : Fld) (v i j : Nat) : (d.wr f v i j).fire = d.fire := rfl
@[simp] theorem Dev.wr_lanes (d : Dev) (f : Fld) (v i j : Nat) : (d.wr f v i j).lanes = d.lanes := rfl
@[simp] theorem Dev.wr_integ (d : Dev) (f : Fld) (v i j : Nat) : (d.wr f v i j).integ = d.integ := rfl
@[simp] theorem Dev.wr_accounts (d : Dev) (f : Fld) (v i j : Nat) : (d.wr f v i j).accounts = d.accounts := rfl
@[simp] theorem Dev.wr_vis (d : Dev) (f : Fld) (v i j : Nat) : (d.wr f v i j).vis = d.vis := rfl
@[simp] theorem Dev.wr_loops (d : Dev) (f : Fld) (v i j : Nat) : (d.wr f v i j).loops = d.loops := rfl
@[simp] theorem Dev.wr_axes (d : Dev) (f : Fld) (v i j : Nat) : (d.wr f v i j).axes = d.axes := rfl
@[simp] theorem Dev.wr_axp (d : Dev) (f : Fld) (v i j : Nat) : (d.wr f v i j).axp = d.axp := rfl
@[simp] theorem Dev.wr_heat (d : Dev) (f : Fld) (v i j : Nat) : (d.wr f v i j).heat = d.heat := rfl
@[simp] theorem Dev.wr_trace (d : Dev) (f : Fld) (v i j : Nat) : (d.wr f v i j).trace = d.trace := rfl
@[simp] theorem Dev.wr_aba (d : Dev) (f : Fld) (v i j : Nat) : (d.wr f v i j).aba = d.aba := rfl
@[simp] theorem Dev.wr_temp (d : Dev) (f : Fld) (v i j : Nat) : (d.wr f v i j).temp = d.temp := rfl
@[simp] theorem Dev.wr_msub (d : Dev) (f : Fld) (v i j : Nat) : (d.wr f v i j).msub = d.msub := rfl
@[simp] theorem Dev.wr_freqWait (d : Dev) (f : Fld) (v i j : Nat) : (d.wr f v i j).freqWait = d.freqWait := rfl
@[simp] theorem Dev.wr_ptp (d : Dev) (f : Fld) (v i j : Nat) : (d.wr f v i j).ptp = d.ptp := rfl
@[simp] theorem Dev.wr_ring (d : Dev) (f : Fld) (v i j : Nat) : (d.wr f v i j).ring = d.ring := rfl
@[simp] theorem Dev.wr_evr (d : Dev) (f : Fld) (v i j : Nat) : (d.wr f v i j).evr = d.evr := rfl
@[simp] theorem Dev.wr_pins (d : Dev) (f : Fld) (v i j : Nat) : (d.wr f v i j).pins = d.pins := rfl
@[simp] theorem Dev.wr_out (d : Dev) (f : Fld) (v i j : Nat) : (d.wr f v i j).out = d.out := rfl
@[simp] theorem Dev.wr_freeCtr (d : Dev) (f : Fld) (v i j : Nat) : (d.wr f v i j).freeCtr = d.freeCtr := rfl

/-! ### The output record -/

@[simp] theorem Dev.emit_variant (d : Dev) (o : Output) : (d.emit o).variant = d.variant := rfl
@[simp] theorem Dev.emit_rf (d : Dev) (o : Output) : (d.emit o).rf = d.rf := rfl
@[simp] theorem Dev.emit_nor (d : Dev) (o : Output) : (d.emit o).nor = d.nor := rfl
@[simp] theorem Dev.emit_tb (d : Dev) (o : Output) : (d.emit o).tb = d.tb := rfl
@[simp] theorem Dev.emit_lc (d : Dev) (o : Output) : (d.emit o).lc = d.lc := rfl
@[simp] theorem Dev.emit_boot (d : Dev) (o : Output) : (d.emit o).boot = d.boot := rfl
@[simp] theorem Dev.emit_pwr (d : Dev) (o : Output) : (d.emit o).pwr = d.pwr := rfl
@[simp] theorem Dev.emit_shut (d : Dev) (o : Output) : (d.emit o).shut = d.shut := rfl
@[simp] theorem Dev.emit_holdSeen (d : Dev) (o : Output) : (d.emit o).holdSeen = d.holdSeen := rfl
@[simp] theorem Dev.emit_xpp (d : Dev) (o : Output) : (d.emit o).xpp = d.xpp := rfl
@[simp] theorem Dev.emit_jobs (d : Dev) (o : Output) : (d.emit o).jobs = d.jobs := rfl
@[simp] theorem Dev.emit_ended (d : Dev) (o : Output) : (d.emit o).ended = d.ended := rfl
@[simp] theorem Dev.emit_conns (d : Dev) (o : Output) : (d.emit o).conns = d.conns := rfl
@[simp] theorem Dev.emit_suppressAuto (d : Dev) (o : Output) : (d.emit o).suppressAuto = d.suppressAuto := rfl
@[simp] theorem Dev.emit_rk (d : Dev) (o : Output) : (d.emit o).rk = d.rk := rfl
@[simp] theorem Dev.emit_dose (d : Dev) (o : Output) : (d.emit o).dose = d.dose := rfl
@[simp] theorem Dev.emit_curveSet (d : Dev) (o : Output) : (d.emit o).curveSet = d.curveSet := rfl
@[simp] theorem Dev.emit_screenSet (d : Dev) (o : Output) : (d.emit o).screenSet = d.screenSet := rfl
@[simp] theorem Dev.emit_reload (d : Dev) (o : Output) : (d.emit o).reload = d.reload := rfl
@[simp] theorem Dev.emit_rodMaster (d : Dev) (o : Output) : (d.emit o).rodMaster = d.rodMaster := rfl
@[simp] theorem Dev.emit_rwy (d : Dev) (o : Output) : (d.emit o).rwy = d.rwy := rfl
@[simp] theorem Dev.emit_lvSince (d : Dev) (o : Output) : (d.emit o).lvSince = d.lvSince := rfl
@[simp] theorem Dev.emit_ratioHist (d : Dev) (o : Output) : (d.emit o).ratioHist = d.ratioHist := rfl
@[simp] theorem Dev.emit_fire (d : Dev) (o : Output) : (d.emit o).fire = d.fire := rfl
@[simp] theorem Dev.emit_lanes (d : Dev) (o : Output) : (d.emit o).lanes = d.lanes := rfl
@[simp] theorem Dev.emit_integ (d : Dev) (o : Output) : (d.emit o).integ = d.integ := rfl
@[simp] theorem Dev.emit_accounts (d : Dev) (o : Output) : (d.emit o).accounts = d.accounts := rfl
@[simp] theorem Dev.emit_vis (d : Dev) (o : Output) : (d.emit o).vis = d.vis := rfl
@[simp] theorem Dev.emit_loops (d : Dev) (o : Output) : (d.emit o).loops = d.loops := rfl
@[simp] theorem Dev.emit_axes (d : Dev) (o : Output) : (d.emit o).axes = d.axes := rfl
@[simp] theorem Dev.emit_axp (d : Dev) (o : Output) : (d.emit o).axp = d.axp := rfl
@[simp] theorem Dev.emit_heat (d : Dev) (o : Output) : (d.emit o).heat = d.heat := rfl
@[simp] theorem Dev.emit_trace (d : Dev) (o : Output) : (d.emit o).trace = d.trace := rfl
@[simp] theorem Dev.emit_aba (d : Dev) (o : Output) : (d.emit o).aba = d.aba := rfl
@[simp] theorem Dev.emit_temp (d : Dev) (o : Output) : (d.emit o).temp = d.temp := rfl
@[simp] theorem Dev.emit_msub (d : Dev) (o : Output) : (d.emit o).msub = d.msub := rfl
@[simp] theorem Dev.emit_freqWait (d : Dev) (o : Output) : (d.emit o).freqWait = d.freqWait := rfl
@[simp] theorem Dev.emit_ptp (d : Dev) (o : Output) : (d.emit o).ptp = d.ptp := rfl
@[simp] theorem Dev.emit_ring (d : Dev) (o : Output) : (d.emit o).ring = d.ring := rfl
@[simp] theorem Dev.emit_evr (d : Dev) (o : Output) : (d.emit o).evr = d.evr := rfl
@[simp] theorem Dev.emit_pins (d : Dev) (o : Output) : (d.emit o).pins = d.pins := rfl
@[simp] theorem Dev.emit_freeCtr (d : Dev) (o : Output) : (d.emit o).freeCtr = d.freeCtr := rfl
@[simp] theorem Dev.emit_rd (d : Dev) (o : Output) (f : Fld) (i j : Nat) : (d.emit o).rd f i j = d.rd f i j := rfl
@[simp] theorem Dev.emit_out (d : Dev) (o : Output) : (d.emit o).out = o :: d.out := rfl

/-! ### `Dev.updLane` -/

@[simp] theorem Dev.updLane_rd (d : Dev) (n : Nat) (f : Lane → Lane) (g : Fld) (i j : Nat) : (d.updLane n f).rd g i j = d.rd g i j := rfl
@[simp] theorem Dev.updLane_variant (d : Dev) (n : Nat) (f : Lane → Lane) : (d.updLane n f).variant = d.variant := rfl
@[simp] theorem Dev.updLane_rf (d : Dev) (n : Nat) (f : Lane → Lane) : (d.updLane n f).rf = d.rf := rfl
@[simp] theorem Dev.updLane_nor (d : Dev) (n : Nat) (f : Lane → Lane) : (d.updLane n f).nor = d.nor := rfl
@[simp] theorem Dev.updLane_tb (d : Dev) (n : Nat) (f : Lane → Lane) : (d.updLane n f).tb = d.tb := rfl
@[simp] theorem Dev.updLane_lc (d : Dev) (n : Nat) (f : Lane → Lane) : (d.updLane n f).lc = d.lc := rfl
@[simp] theorem Dev.updLane_boot (d : Dev) (n : Nat) (f : Lane → Lane) : (d.updLane n f).boot = d.boot := rfl
@[simp] theorem Dev.updLane_pwr (d : Dev) (n : Nat) (f : Lane → Lane) : (d.updLane n f).pwr = d.pwr := rfl
@[simp] theorem Dev.updLane_shut (d : Dev) (n : Nat) (f : Lane → Lane) : (d.updLane n f).shut = d.shut := rfl
@[simp] theorem Dev.updLane_holdSeen (d : Dev) (n : Nat) (f : Lane → Lane) : (d.updLane n f).holdSeen = d.holdSeen := rfl
@[simp] theorem Dev.updLane_xpp (d : Dev) (n : Nat) (f : Lane → Lane) : (d.updLane n f).xpp = d.xpp := rfl
@[simp] theorem Dev.updLane_jobs (d : Dev) (n : Nat) (f : Lane → Lane) : (d.updLane n f).jobs = d.jobs := rfl
@[simp] theorem Dev.updLane_ended (d : Dev) (n : Nat) (f : Lane → Lane) : (d.updLane n f).ended = d.ended := rfl
@[simp] theorem Dev.updLane_conns (d : Dev) (n : Nat) (f : Lane → Lane) : (d.updLane n f).conns = d.conns := rfl
@[simp] theorem Dev.updLane_suppressAuto (d : Dev) (n : Nat) (f : Lane → Lane) : (d.updLane n f).suppressAuto = d.suppressAuto := rfl
@[simp] theorem Dev.updLane_rk (d : Dev) (n : Nat) (f : Lane → Lane) : (d.updLane n f).rk = d.rk := rfl
@[simp] theorem Dev.updLane_dose (d : Dev) (n : Nat) (f : Lane → Lane) : (d.updLane n f).dose = d.dose := rfl
@[simp] theorem Dev.updLane_curveSet (d : Dev) (n : Nat) (f : Lane → Lane) : (d.updLane n f).curveSet = d.curveSet := rfl
@[simp] theorem Dev.updLane_screenSet (d : Dev) (n : Nat) (f : Lane → Lane) : (d.updLane n f).screenSet = d.screenSet := rfl
@[simp] theorem Dev.updLane_reload (d : Dev) (n : Nat) (f : Lane → Lane) : (d.updLane n f).reload = d.reload := rfl
@[simp] theorem Dev.updLane_rodMaster (d : Dev) (n : Nat) (f : Lane → Lane) : (d.updLane n f).rodMaster = d.rodMaster := rfl
@[simp] theorem Dev.updLane_rwy (d : Dev) (n : Nat) (f : Lane → Lane) : (d.updLane n f).rwy = d.rwy := rfl
@[simp] theorem Dev.updLane_lvSince (d : Dev) (n : Nat) (f : Lane → Lane) : (d.updLane n f).lvSince = d.lvSince := rfl
@[simp] theorem Dev.updLane_ratioHist (d : Dev) (n : Nat) (f : Lane → Lane) : (d.updLane n f).ratioHist = d.ratioHist := rfl
@[simp] theorem Dev.updLane_fire (d : Dev) (n : Nat) (f : Lane → Lane) : (d.updLane n f).fire = d.fire := rfl
@[simp] theorem Dev.updLane_integ (d : Dev) (n : Nat) (f : Lane → Lane) : (d.updLane n f).integ = d.integ := rfl
@[simp] theorem Dev.updLane_accounts (d : Dev) (n : Nat) (f : Lane → Lane) : (d.updLane n f).accounts = d.accounts := rfl
@[simp] theorem Dev.updLane_vis (d : Dev) (n : Nat) (f : Lane → Lane) : (d.updLane n f).vis = d.vis := rfl
@[simp] theorem Dev.updLane_loops (d : Dev) (n : Nat) (f : Lane → Lane) : (d.updLane n f).loops = d.loops := rfl
@[simp] theorem Dev.updLane_axes (d : Dev) (n : Nat) (f : Lane → Lane) : (d.updLane n f).axes = d.axes := rfl
@[simp] theorem Dev.updLane_axp (d : Dev) (n : Nat) (f : Lane → Lane) : (d.updLane n f).axp = d.axp := rfl
@[simp] theorem Dev.updLane_heat (d : Dev) (n : Nat) (f : Lane → Lane) : (d.updLane n f).heat = d.heat := rfl
@[simp] theorem Dev.updLane_trace (d : Dev) (n : Nat) (f : Lane → Lane) : (d.updLane n f).trace = d.trace := rfl
@[simp] theorem Dev.updLane_aba (d : Dev) (n : Nat) (f : Lane → Lane) : (d.updLane n f).aba = d.aba := rfl
@[simp] theorem Dev.updLane_temp (d : Dev) (n : Nat) (f : Lane → Lane) : (d.updLane n f).temp = d.temp := rfl
@[simp] theorem Dev.updLane_msub (d : Dev) (n : Nat) (f : Lane → Lane) : (d.updLane n f).msub = d.msub := rfl
@[simp] theorem Dev.updLane_freqWait (d : Dev) (n : Nat) (f : Lane → Lane) : (d.updLane n f).freqWait = d.freqWait := rfl
@[simp] theorem Dev.updLane_ptp (d : Dev) (n : Nat) (f : Lane → Lane) : (d.updLane n f).ptp = d.ptp := rfl
@[simp] theorem Dev.updLane_ring (d : Dev) (n : Nat) (f : Lane → Lane) : (d.updLane n f).ring = d.ring := rfl
@[simp] theorem Dev.updLane_evr (d : Dev) (n : Nat) (f : Lane → Lane) : (d.updLane n f).evr = d.evr := rfl
@[simp] theorem Dev.updLane_pins (d : Dev) (n : Nat) (f : Lane → Lane) : (d.updLane n f).pins = d.pins := rfl
@[simp] theorem Dev.updLane_out (d : Dev) (n : Nat) (f : Lane → Lane) : (d.updLane n f).out = d.out := rfl
@[simp] theorem Dev.updLane_freeCtr (d : Dev) (n : Nat) (f : Lane → Lane) : (d.updLane n f).freeCtr = d.freeCtr := rfl

/-! ### `Dev.updRw` -/

@[simp] theorem Dev.updRw_rd (d : Dev) (n : Nat) (f : Rwy → Rwy) (g : Fld) (i j : Nat) : (d.updRw n f).rd g i j = d.rd g i j := rfl
@[simp] theorem Dev.updRw_variant (d : Dev) (n : Nat) (f : Rwy → Rwy) : (d.updRw n f).variant = d.variant := rfl
@[simp] theorem Dev.updRw_rf (d : Dev) (n : Nat) (f : Rwy → Rwy) : (d.updRw n f).rf = d.rf := rfl
@[simp] theorem Dev.updRw_nor (d : Dev) (n : Nat) (f : Rwy → Rwy) : (d.updRw n f).nor = d.nor := rfl
@[simp] theorem Dev.updRw_tb (d : Dev) (n : Nat) (f : Rwy → Rwy) : (d.updRw n f).tb = d.tb := rfl
@[simp] theorem Dev.updRw_lc (d : Dev) (n : Nat) (f : Rwy → Rwy) : (d.updRw n f).lc = d.lc := rfl
@[simp] theorem Dev.updRw_boot (d : Dev) (n : Nat) (f : Rwy → Rwy) : (d.updRw n f).boot = d.boot := rfl
@[simp] theorem Dev.updRw_pwr (d : Dev) (n : Nat) (f : Rwy → Rwy) : (d.updRw n f).pwr = d.pwr := rfl
@[simp] theorem Dev.updRw_shut (d : Dev) (n : Nat) (f : Rwy → Rwy) : (d.updRw n f).shut = d.shut := rfl
@[simp] theorem Dev.updRw_holdSeen (d : Dev) (n : Nat) (f : Rwy → Rwy) : (d.updRw n f).holdSeen = d.holdSeen := rfl
@[simp] theorem Dev.updRw_xpp (d : Dev) (n : Nat) (f : Rwy → Rwy) : (d.updRw n f).xpp = d.xpp := rfl
@[simp] theorem Dev.updRw_jobs (d : Dev) (n : Nat) (f : Rwy → Rwy) : (d.updRw n f).jobs = d.jobs := rfl
@[simp] theorem Dev.updRw_ended (d : Dev) (n : Nat) (f : Rwy → Rwy) : (d.updRw n f).ended = d.ended := rfl
@[simp] theorem Dev.updRw_conns (d : Dev) (n : Nat) (f : Rwy → Rwy) : (d.updRw n f).conns = d.conns := rfl
@[simp] theorem Dev.updRw_suppressAuto (d : Dev) (n : Nat) (f : Rwy → Rwy) : (d.updRw n f).suppressAuto = d.suppressAuto := rfl
@[simp] theorem Dev.updRw_rk (d : Dev) (n : Nat) (f : Rwy → Rwy) : (d.updRw n f).rk = d.rk := rfl
@[simp] theorem Dev.updRw_dose (d : Dev) (n : Nat) (f : Rwy → Rwy) : (d.updRw n f).dose = d.dose := rfl
@[simp] theorem Dev.updRw_curveSet (d : Dev) (n : Nat) (f : Rwy → Rwy) : (d.updRw n f).curveSet = d.curveSet := rfl
@[simp] theorem Dev.updRw_screenSet (d : Dev) (n : Nat) (f : Rwy → Rwy) : (d.updRw n f).screenSet = d.screenSet := rfl
@[simp] theorem Dev.updRw_reload (d : Dev) (n : Nat) (f : Rwy → Rwy) : (d.updRw n f).reload = d.reload := rfl
@[simp] theorem Dev.updRw_rodMaster (d : Dev) (n : Nat) (f : Rwy → Rwy) : (d.updRw n f).rodMaster = d.rodMaster := rfl
@[simp] theorem Dev.updRw_lvSince (d : Dev) (n : Nat) (f : Rwy → Rwy) : (d.updRw n f).lvSince = d.lvSince := rfl
@[simp] theorem Dev.updRw_ratioHist (d : Dev) (n : Nat) (f : Rwy → Rwy) : (d.updRw n f).ratioHist = d.ratioHist := rfl
@[simp] theorem Dev.updRw_fire (d : Dev) (n : Nat) (f : Rwy → Rwy) : (d.updRw n f).fire = d.fire := rfl
@[simp] theorem Dev.updRw_lanes (d : Dev) (n : Nat) (f : Rwy → Rwy) : (d.updRw n f).lanes = d.lanes := rfl
@[simp] theorem Dev.updRw_integ (d : Dev) (n : Nat) (f : Rwy → Rwy) : (d.updRw n f).integ = d.integ := rfl
@[simp] theorem Dev.updRw_accounts (d : Dev) (n : Nat) (f : Rwy → Rwy) : (d.updRw n f).accounts = d.accounts := rfl
@[simp] theorem Dev.updRw_vis (d : Dev) (n : Nat) (f : Rwy → Rwy) : (d.updRw n f).vis = d.vis := rfl
@[simp] theorem Dev.updRw_loops (d : Dev) (n : Nat) (f : Rwy → Rwy) : (d.updRw n f).loops = d.loops := rfl
@[simp] theorem Dev.updRw_axes (d : Dev) (n : Nat) (f : Rwy → Rwy) : (d.updRw n f).axes = d.axes := rfl
@[simp] theorem Dev.updRw_axp (d : Dev) (n : Nat) (f : Rwy → Rwy) : (d.updRw n f).axp = d.axp := rfl
@[simp] theorem Dev.updRw_heat (d : Dev) (n : Nat) (f : Rwy → Rwy) : (d.updRw n f).heat = d.heat := rfl
@[simp] theorem Dev.updRw_trace (d : Dev) (n : Nat) (f : Rwy → Rwy) : (d.updRw n f).trace = d.trace := rfl
@[simp] theorem Dev.updRw_aba (d : Dev) (n : Nat) (f : Rwy → Rwy) : (d.updRw n f).aba = d.aba := rfl
@[simp] theorem Dev.updRw_temp (d : Dev) (n : Nat) (f : Rwy → Rwy) : (d.updRw n f).temp = d.temp := rfl
@[simp] theorem Dev.updRw_msub (d : Dev) (n : Nat) (f : Rwy → Rwy) : (d.updRw n f).msub = d.msub := rfl
@[simp] theorem Dev.updRw_freqWait (d : Dev) (n : Nat) (f : Rwy → Rwy) : (d.updRw n f).freqWait = d.freqWait := rfl
@[simp] theorem Dev.updRw_ptp (d : Dev) (n : Nat) (f : Rwy → Rwy) : (d.updRw n f).ptp = d.ptp := rfl
@[simp] theorem Dev.updRw_ring (d : Dev) (n : Nat) (f : Rwy → Rwy) : (d.updRw n f).ring = d.ring := rfl
@[simp] theorem Dev.updRw_evr (d : Dev) (n : Nat) (f : Rwy → Rwy) : (d.updRw n f).evr = d.evr := rfl
@[simp] theorem Dev.updRw_pins (d : Dev) (n : Nat) (f : Rwy → Rwy) : (d.updRw n f).pins = d.pins := rfl
@[simp] theorem Dev.updRw_out (d : Dev) (n : Nat) (f : Rwy → Rwy) : (d.updRw n f).out = d.out := rfl
@[simp] theorem Dev.updRw_freeCtr (d : Dev) (n : Nat) (f : Rwy → Rwy) : (d.updRw n f).freeCtr = d.freeCtr := rfl

/-! ### `Dev.updDp` -/

@[simp] theorem Dev.updDp_rd (d : Dev) (n : Nat) (f : Dose → Dose) (g : Fld) (i j : Nat) : (d.updDp n f).rd g i j = d.rd g i j := rfl
@[simp] theorem Dev.updDp_variant (d : Dev) (n : Nat) (f : Dose → Dose) : (d.updDp n f).variant = d.variant := rfl
@[simp] theorem Dev.updDp_rf (d : Dev) (n : Nat) (f : Dose → Dose) : (d.updDp n f).rf = d.rf := rfl
@[simp] theorem Dev.updDp_nor (d : Dev) (n : Nat) (f : Dose → Dose) : (d.updDp n f).nor = d.nor := rfl
@[simp] theorem Dev.updDp_tb (d : Dev) (n : Nat) (f : Dose → Dose) : (d.updDp n f).tb = d.tb := rfl
@[simp] theorem Dev.updDp_lc (d : Dev) (n : Nat) (f : Dose → Dose) : (d.updDp n f).lc = d.lc := rfl
@[simp] theorem Dev.updDp_boot (d : Dev) (n : Nat) (f : Dose → Dose) : (d.updDp n f).boot = d.boot := rfl
@[simp] theorem Dev.updDp_pwr (d : Dev) (n : Nat) (f : Dose → Dose) : (d.updDp n f).pwr = d.pwr := rfl
@[simp] theorem Dev.updDp_shut (d : Dev) (n : Nat) (f : Dose → Dose) : (d.updDp n f).shut = d.shut := rfl
@[simp] theorem Dev.updDp_holdSeen (d : Dev) (n : Nat) (f : Dose → Dose) : (d.updDp n f).holdSeen = d.holdSeen := rfl
@[simp] theorem Dev.updDp_xpp (d : Dev) (n : Nat) (f : Dose → Dose) : (d.updDp n f).xpp = d.xpp := rfl
@[simp] theorem Dev.updDp_jobs (d : Dev) (n : Nat) (f : Dose → Dose) : (d.updDp n f).jobs = d.jobs := rfl
@[simp] theorem Dev.updDp_ended (d : Dev) (n : Nat) (f : Dose → Dose) : (d.updDp n f).ended = d.ended := rfl
@[simp] theorem Dev.updDp_conns (d : Dev) (n : Nat) (f : Dose → Dose) : (d.updDp n f).conns = d.conns := rfl
@[simp] theorem Dev.updDp_suppressAuto (d : Dev) (n : Nat) (f : Dose → Dose) : (d.updDp n f).suppressAuto = d.suppressAuto := rfl
@[simp] theorem Dev.updDp_rk (d : Dev) (n : Nat) (f : Dose → Dose) : (d.updDp n f).rk = d.rk := rfl
@[simp] theorem Dev.updDp_curveSet (d : Dev) (n : Nat) (f : Dose → Dose) : (d.updDp n f).curveSet = d.curveSet := rfl
@[simp] theorem Dev.updDp_screenSet (d : Dev) (n : Nat) (f : Dose → Dose) : (d.updDp n f).screenSet = d.screenSet := rfl
@[simp] theorem Dev.updDp_reload (d : Dev) (n : Nat) (f : Dose → Dose) : (d.updDp n f).reload = d.reload := rfl
@[simp] theorem Dev.updDp_rodMaster (d : Dev) (n : Nat) (f : Dose → Dose) : (d.updDp n f).rodMaster = d.rodMaster := rfl
@[simp] theorem Dev.updDp_rwy (d : Dev) (n : Nat) (f : Dose → Dose) : (d.updDp n f).rwy = d.rwy := rfl
@[simp] theorem Dev.updDp_lvSince (d : Dev) (n : Nat) (f : Dose → Dose) : (d.updDp n f).lvSince = d.lvSince := rfl
@[simp] theorem Dev.updDp_ratioHist (d : Dev) (n : Nat) (f : Dose → Dose) : (d.updDp n f).ratioHist = d.ratioHist := rfl
@[simp] theorem Dev.updDp_fire (d : Dev) (n : Nat) (f : Dose → Dose) : (d.updDp n f).fire = d.fire := rfl
@[simp] theorem Dev.updDp_lanes (d : Dev) (n : Nat) (f : Dose → Dose) : (d.updDp n f).lanes = d.lanes := rfl
@[simp] theorem Dev.updDp_integ (d : Dev) (n : Nat) (f : Dose → Dose) : (d.updDp n f).integ = d.integ := rfl
@[simp] theorem Dev.updDp_accounts (d : Dev) (n : Nat) (f : Dose → Dose) : (d.updDp n f).accounts = d.accounts := rfl
@[simp] theorem Dev.updDp_vis (d : Dev) (n : Nat) (f : Dose → Dose) : (d.updDp n f).vis = d.vis := rfl
@[simp] theorem Dev.updDp_loops (d : Dev) (n : Nat) (f : Dose → Dose) : (d.updDp n f).loops = d.loops := rfl
@[simp] theorem Dev.updDp_axes (d : Dev) (n : Nat) (f : Dose → Dose) : (d.updDp n f).axes = d.axes := rfl
@[simp] theorem Dev.updDp_axp (d : Dev) (n : Nat) (f : Dose → Dose) : (d.updDp n f).axp = d.axp := rfl
@[simp] theorem Dev.updDp_heat (d : Dev) (n : Nat) (f : Dose → Dose) : (d.updDp n f).heat = d.heat := rfl
@[simp] theorem Dev.updDp_trace (d : Dev) (n : Nat) (f : Dose → Dose) : (d.updDp n f).trace = d.trace := rfl
@[simp] theorem Dev.updDp_aba (d : Dev) (n : Nat) (f : Dose → Dose) : (d.updDp n f).aba = d.aba := rfl
@[simp] theorem Dev.updDp_temp (d : Dev) (n : Nat) (f : Dose → Dose) : (d.updDp n f).temp = d.temp := rfl
@[simp] theorem Dev.updDp_msub (d : Dev) (n : Nat) (f : Dose → Dose) : (d.updDp n f).msub = d.msub := rfl
@[simp] theorem Dev.updDp_freqWait (d : Dev) (n : Nat) (f : Dose → Dose) : (d.updDp n f).freqWait = d.freqWait := rfl
@[simp] theorem Dev.updDp_ptp (d : Dev) (n : Nat) (f : Dose → Dose) : (d.updDp n f).ptp = d.ptp := rfl
@[simp] theorem Dev.updDp_ring (d : Dev) (n : Nat) (f : Dose → Dose) : (d.updDp n f).ring = d.ring := rfl
@[simp] theorem Dev.updDp_evr (d : Dev) (n : Nat) (f : Dose → Dose) : (d.updDp n f).evr = d.evr := rfl
@[simp] theorem Dev.updDp_pins (d : Dev) (n : Nat) (f : Dose → Dose) : (d.updDp n f).pins = d.pins := rfl
@[simp] theorem Dev.updDp_out (d : Dev) (n : Nat) (f : Dose → Dose) : (d.updDp n f).out = d.out := rfl
@[simp] theorem Dev.updDp_freeCtr (d : Dev) (n : Nat) (f : Dose → Dose) : (d.updDp n f).freeCtr = d.freeCtr := rfl

/-! ### `Dev.updRk` -/

@[simp] theorem Dev.updRk_rd (d : Dev) (f : Rk → Rk) (g : Fld) (i j : Nat) : (d.updRk f).rd g i j = d.rd g i j := rfl
@[simp] theorem Dev.updRk_variant (d : Dev) (f : Rk → Rk) : (d.updRk f).variant = d.variant := rfl
@[simp] theorem Dev.updRk_rf (d : Dev) (f : Rk → Rk) : (d.updRk f).rf = d.rf := rfl
@[simp] theorem Dev.updRk_nor (d : Dev) (f : Rk → Rk) : (d.updRk f).nor = d.nor := rfl
@[simp] theorem Dev.updRk_tb (d : Dev) (f : Rk → Rk) : (d.updRk f).tb = d.tb := rfl
@[simp] theorem Dev.updRk_lc (d : Dev) (f : Rk → Rk) : (d.updRk f).lc = d.lc := rfl
@[simp] theorem Dev.updRk_boot (d : Dev) (f : Rk → Rk) : (d.updRk f).boot = d.boot := rfl
@[simp] theorem Dev.updRk_pwr (d : Dev) (f : Rk → Rk) : (d.updRk f).pwr = d.pwr := rfl
@[simp] theorem Dev.updRk_shut (d : Dev) (f : Rk → Rk) : (d.updRk f).shut = d.shut := rfl
@[simp] theorem Dev.updRk_holdSeen (d : Dev) (f : Rk → Rk) : (d.updRk f).holdSeen = d.holdSeen := rfl
@[simp] theorem Dev.updRk_xpp (d : Dev) (f : Rk → Rk) : (d.updRk f).xpp = d.xpp := rfl
@[simp] theorem Dev.updRk_jobs (d : Dev) (f : Rk → Rk) : (d.updRk f).jobs = d.jobs := rfl
@[simp] theorem Dev.updRk_ended (d : Dev) (f : Rk → Rk) : (d.updRk f).ended = d.ended := rfl
@[simp] theorem Dev.updRk_conns (d : Dev) (f : Rk → Rk) : (d.updRk f).conns = d.conns := rfl
@[simp] theorem Dev.updRk_suppressAuto (d : Dev) (f : Rk → Rk) : (d.updRk f).suppressAuto = d.suppressAuto := rfl
@[simp] theorem Dev.updRk_dose (d : Dev) (f : Rk → Rk) : (d.updRk f).dose = d.dose := rfl
@[simp] theorem Dev.updRk_curveSet (d : Dev) (f : Rk → Rk) : (d.updRk f).curveSet = d.curveSet := rfl
@[simp] theorem Dev.updRk_screenSet (d : Dev) (f : Rk → Rk) : (d.updRk f).screenSet = d.screenSet := rfl
@[simp] theorem Dev.updRk_reload (d : Dev) (f : Rk → Rk) : (d.updRk f).reload = d.reload := rfl
@[simp] theorem Dev.updRk_rodMaster (d : Dev) (f : Rk → Rk) : (d.updRk f).rodMaster = d.rodMaster := rfl
@[simp] theorem Dev.updRk_rwy (d : Dev) (f : Rk → Rk) : (d.updRk f).rwy = d.rwy := rfl
@[simp] theorem Dev.updRk_lvSince (d : Dev) (f : Rk → Rk) : (d.updRk f).lvSince = d.lvSince := rfl
@[simp] theorem Dev.updRk_ratioHist (d : Dev) (f : Rk → Rk) : (d.updRk f).ratioHist = d.ratioHist := rfl
@[simp] theorem Dev.updRk_fire (d : Dev) (f : Rk → Rk) : (d.updRk f).fire = d.fire := rfl
@[simp] theorem Dev.updRk_lanes (d : Dev) (f : Rk → Rk) : (d.updRk f).lanes = d.lanes := rfl
@[simp] theorem Dev.updRk_integ (d : Dev) (f : Rk → Rk) : (d.updRk f).integ = d.integ := rfl
@[simp] theorem Dev.updRk_accounts (d : Dev) (f : Rk → Rk) : (d.updRk f).accounts = d.accounts := rfl
@[simp] theorem Dev.updRk_vis (d : Dev) (f : Rk → Rk) : (d.updRk f).vis = d.vis := rfl
@[simp] theorem Dev.updRk_loops (d : Dev) (f : Rk → Rk) : (d.updRk f).loops = d.loops := rfl
@[simp] theorem Dev.updRk_axes (d : Dev) (f : Rk → Rk) : (d.updRk f).axes = d.axes := rfl
@[simp] theorem Dev.updRk_axp (d : Dev) (f : Rk → Rk) : (d.updRk f).axp = d.axp := rfl
@[simp] theorem Dev.updRk_heat (d : Dev) (f : Rk → Rk) : (d.updRk f).heat = d.heat := rfl
@[simp] theorem Dev.updRk_trace (d : Dev) (f : Rk → Rk) : (d.updRk f).trace = d.trace := rfl
@[simp] theorem Dev.updRk_aba (d : Dev) (f : Rk → Rk) : (d.updRk f).aba = d.aba := rfl
@[simp] theorem Dev.updRk_temp (d : Dev) (f : Rk → Rk) : (d.updRk f).temp = d.temp := rfl
@[simp] theorem Dev.updRk_msub (d : Dev) (f : Rk → Rk) : (d.updRk f).msub = d.msub := rfl
@[simp] theorem Dev.updRk_freqWait (d : Dev) (f : Rk → Rk) : (d.updRk f).freqWait = d.freqWait := rfl
@[simp] theorem Dev.updRk_ptp (d : Dev) (f : Rk → Rk) : (d.updRk f).ptp = d.ptp := rfl
@[simp] theorem Dev.updRk_ring (d : Dev) (f : Rk → Rk) : (d.updRk f).ring = d.ring := rfl
@[simp] theorem Dev.updRk_evr (d : Dev) (f : Rk → Rk) : (d.updRk f).evr = d.evr := rfl
@[simp] theorem Dev.updRk_pins (d : Dev) (f : Rk → Rk) : (d.updRk f).pins = d.pins := rfl
@[simp] theorem Dev.updRk_out (d : Dev) (f : Rk → Rk) : (d.updRk f).out = d.out := rfl
@[simp] theorem Dev.updRk_freeCtr (d : Dev) (f : Rk → Rk) : (d.updRk f).freeCtr = d.freeCtr := rfl

/-! ### `Dev.updRing` -/

@[simp] theorem Dev.updRing_rd (d : Dev) (f : Ring → Ring) (g : Fld) (i j : Nat) : (d.updRing f).rd g i j = d.rd g i j := rfl
@[simp] theorem Dev.updRing_variant (d : Dev) (f : Ring → Ring) : (d.updRing f).variant = d.variant := rfl
@[simp] theorem Dev.updRing_rf (d : Dev) (f : Ring → Ring) : (d.updRing f).rf = d.rf := rfl
@[simp] theorem Dev.updRing_nor (d : Dev) (f : Ring → Ring) : (d.updRing f).nor = d.nor := rfl
@[simp] theorem Dev.updRing_tb (d : Dev) (f : Ring → Ring) : (d.updRing f).tb = d.tb := rfl
@[simp] theorem Dev.updRing_lc (d : Dev) (f : Ring → Ring) : (d.updRing f).lc = d.lc := rfl
@[simp] theorem Dev.updRing_boot (d : Dev) (f : Ring → Ring) : (d.updRing f).boot = d.boot := rfl
@[simp] theorem Dev.updRing_pwr (d : Dev) (f : Ring → Ring) : (d.updRing f).pwr = d.pwr := rfl
@[simp] theorem Dev.updRing_shut (d : Dev) (f : Ring → Ring) : (d.updRing f).shut = d.shut := rfl
@[simp] theorem Dev.updRing_holdSeen (d : Dev) (f : Ring → Ring) : (d.updRing f).holdSeen = d.holdSeen := rfl
@[simp] theorem Dev.updRing_xpp (d : Dev) (f : Ring → Ring) : (d.updRing f).xpp = d.xpp := rfl
@[simp] theorem Dev.updRing_jobs (d : Dev) (f : Ring → Ring) : (d.updRing f).jobs = d.jobs := rfl
@[simp] theorem Dev.updRing_ended (d : Dev) (f : Ring → Ring) : (d.updRing f).ended = d.ended := rfl
@[simp] theorem Dev.updRing_conns (d : Dev) (f : Ring → Ring) : (d.updRing f).conns = d.conns := rfl
@[simp] theorem Dev.updRing_suppressAuto (d : Dev) (f : Ring → Ring) : (d.updRing f).suppressAuto = d.suppressAuto := rfl
@[simp] theorem Dev.updRing_rk (d : Dev) (f : Ring → Ring) : (d.updRing f).rk = d.rk := rfl
@[simp] theorem Dev.updRing_dose (d : Dev) (f : Ring → Ring) : (d.updRing f).dose = d.dose := rfl
@[simp] theorem Dev.updRing_curveSet (d : Dev) (f : Ring → Ring) : (d.updRing f).curveSet = d.curveSet := rfl
@[simp] theorem Dev.updRing_screenSet (d : Dev) (f : Ring → Ring) : (d.updRing f).screenSet = d.screenSet := rfl
@[simp] theorem Dev.updRing_reload (d : Dev) (f : Ring → Ring) : (d.updRing f).reload = d.reload := rfl
@[simp] theorem Dev.updRing_rodMaster (d : Dev) (f : Ring → Ring) : (d.updRing f).rodMaster = d.rodMaster := rfl
@[simp] theorem Dev.updRing_rwy (d : Dev) (f : Ring → Ring) : (d.updRing f).rwy = d.rwy := rfl
@[simp] theorem Dev.updRing_lvSince (d : Dev) (f : Ring → Ring) : (d.updRing f).lvSince = d.lvSince := rfl
@[simp] theorem Dev.updRing_ratioHist (d : Dev) (f : Ring → Ring) : (d.updRing f).ratioHist = d.ratioHist := rfl
@[simp] theorem Dev.updRing_fire (d : Dev) (f : Ring → Ring) : (d.updRing f).fire = d.fire := rfl
@[simp] theorem Dev.updRing_lanes (d : Dev) (f : Ring → Ring) : (d.updRing f).lanes = d.lanes := rfl
@[simp] theorem Dev.updRing_integ (d : Dev) (f : Ring → Ring) : (d.updRing f).integ = d.integ := rfl
@[simp] theorem Dev.updRing_accounts (d : Dev) (f : Ring → Ring) : (d.updRing f).accounts = d.accounts := rfl
@[simp] theorem Dev.updRing_vis (d : Dev) (f : Ring → Ring) : (d.updRing f).vis = d.vis := rfl
@[simp] theorem Dev.updRing_loops (d : Dev) (f : Ring → Ring) : (d.updRing f).loops = d.loops := rfl
@[simp] theorem Dev.updRing_axes (d : Dev) (f : Ring → Ring) : (d.updRing f).axes = d.axes := rfl
@[simp] theorem Dev.updRing_axp (d : Dev) (f : Ring → Ring) : (d.updRing f).axp = d.axp := rfl
@[simp] theorem Dev.updRing_heat (d : Dev) (f : Ring → Ring) : (d.updRing f).heat = d.heat := rfl
@[simp] theorem Dev.updRing_trace (d : Dev) (f : Ring → Ring) : (d.updRing f).trace = d.trace := rfl
@[simp] theorem Dev.updRing_aba (d : Dev) (f : Ring → Ring) : (d.updRing f).aba = d.aba := rfl
@[simp] theorem Dev.updRing_temp (d : Dev) (f : Ring → Ring) : (d.updRing f).temp = d.temp := rfl
@[simp] theorem Dev.updRing_msub (d : Dev) (f : Ring → Ring) : (d.updRing f).msub = d.msub := rfl
@[simp] theorem Dev.updRing_freqWait (d : Dev) (f : Ring → Ring) : (d.updRing f).freqWait = d.freqWait := rfl
@[simp] theorem Dev.updRing_ptp (d : Dev) (f : Ring → Ring) : (d.updRing f).ptp = d.ptp := rfl
@[simp] theorem Dev.updRing_evr (d : Dev) (f : Ring → Ring) : (d.updRing f).evr = d.evr := rfl
@[simp] theorem Dev.updRing_pins (d : Dev) (f : Ring → Ring) : (d.updRing f).pins = d.pins := rfl
@[simp] theorem Dev.updRing_out (d : Dev) (f : Ring → Ring) : (d.updRing f).out = d.out := rfl
@[simp] theorem Dev.updRing_freeCtr (d : Dev) (f : Ring → Ring) : (d.updRing f).freeCtr = d.freeCtr := rfl

/-! ### `Dev.updPtp` -/

@[simp] theorem Dev.updPtp_rd (d : Dev) (f : Ptp → Ptp) (g : Fld) (i j : Nat) : (d.updPtp f).rd g i j = d.rd g i j := rfl
@[simp] theorem Dev.updPtp_variant (d : Dev) (f : Ptp → Ptp) : (d.updPtp f).variant = d.variant := rfl
@[simp] theorem Dev.updPtp_rf (d : Dev) (f : Ptp → Ptp) : (d.updPtp f).rf = d.rf := rfl
@[simp] theorem Dev.updPtp_nor (d : Dev) (f : Ptp → Ptp) : (d.updPtp f).nor = d.nor := rfl
@[simp] theorem Dev.updPtp_tb (d : Dev) (f : Ptp → Ptp) : (d.updPtp f).tb = d.tb := rfl
@[simp] theorem Dev.updPtp_lc (d : Dev) (f : Ptp → Ptp) : (d.updPtp f).lc = d.lc := rfl
@[simp] theorem Dev.updPtp_boot (d : Dev) (f : Ptp → Ptp) : (d.updPtp f).boot = d.boot := rfl
@[simp] theorem Dev.updPtp_pwr (d : Dev) (f : Ptp → Ptp) : (d.updPtp f).pwr = d.pwr := rfl
@[simp] theorem Dev.updPtp_shut (d : Dev) (f : Ptp → Ptp) : (d.updPtp f).shut = d.shut := rfl
@[simp] theorem Dev.updPtp_holdSeen (d : Dev) (f : Ptp → Ptp) : (d.updPtp f).holdSeen = d.holdSeen := rfl
@[simp] theorem Dev.updPtp_xpp (d : Dev) (f : Ptp → Ptp) : (d.updPtp f).xpp = d.xpp := rfl
@[simp] theorem Dev.updPtp_jobs (d : Dev) (f : Ptp → Ptp) : (d.updPtp f).jobs = d.jobs := rfl
@[simp] theorem Dev.updPtp_ended (d : Dev) (f : Ptp → Ptp) : (d.updPtp f).ended = d.ended := rfl
@[simp] theorem Dev.updPtp_conns (d : Dev) (f : Ptp → Ptp) : (d.updPtp f).conns = d.conns := rfl
@[simp] theorem Dev.updPtp_suppressAuto (d : Dev) (f : Ptp → Ptp) : (d.updPtp f).suppressAuto = d.suppressAuto := rfl
@[simp] theorem Dev.updPtp_rk (d : Dev) (f : Ptp → Ptp) : (d.updPtp f).rk = d.rk := rfl
@[simp] theorem Dev.updPtp_dose (d : Dev) (f : Ptp → Ptp) : (d.updPtp f).dose = d.dose := rfl
@[simp] theorem Dev.updPtp_curveSet (d : Dev) (f : Ptp → Ptp) : (d.updPtp f).curveSet = d.curveSet := rfl
@[simp] theorem Dev.updPtp_screenSet (d : Dev) (f : Ptp → Ptp) : (d.updPtp f).screenSet = d.screenSet := rfl
@[simp] theorem Dev.updPtp_reload (d : Dev) (f : Ptp → Ptp) : (d.updPtp f).reload = d.reload := rfl
@[simp] theorem Dev.updPtp_rodMaster (d : Dev) (f : Ptp → Ptp) : (d.updPtp f).rodMaster = d.rodMaster := rfl
@[simp] theorem Dev.updPtp_rwy (d : Dev) (f : Ptp → Ptp) : (d.updPtp f).rwy = d.rwy := rfl
@[simp] theorem Dev.updPtp_lvSince (d : Dev) (f : Ptp → Ptp) : (d.updPtp f).lvSince = d.lvSince := rfl
@[simp] theorem Dev.updPtp_ratioHist (d : Dev) (f : Ptp → Ptp) : (d.updPtp f).ratioHist = d.ratioHist := rfl
@[simp] theorem Dev.updPtp_fire (d : Dev) (f : Ptp → Ptp) : (d.updPtp f).fire = d.fire := rfl
@[simp] theorem Dev.updPtp_lanes (d : Dev) (f : Ptp → Ptp) : (d.updPtp f).lanes = d.lanes := rfl
@[simp] theorem Dev.updPtp_integ (d : Dev) (f : Ptp → Ptp) : (d.updPtp f).integ = d.integ := rfl
@[simp] theorem Dev.updPtp_accounts (d : Dev) (f : Ptp → Ptp) : (d.updPtp f).accounts = d.accounts := rfl
@[simp] theorem Dev.updPtp_vis (d : Dev) (f : Ptp → Ptp) : (d.updPtp f).vis = d.vis := rfl
@[simp] theorem Dev.updPtp_loops (d : Dev) (f : Ptp → Ptp) : (d.updPtp f).loops = d.loops := rfl
@[simp] theorem Dev.updPtp_axes (d : Dev) (f : Ptp → Ptp) : (d.updPtp f).axes = d.axes := rfl
@[simp] theorem Dev.updPtp_axp (d : Dev) (f : Ptp → Ptp) : (d.updPtp f).axp = d.axp := rfl
@[simp] theorem Dev.updPtp_heat (d : Dev) (f : Ptp → Ptp) : (d.updPtp f).heat = d.heat := rfl
@[simp] theorem Dev.updPtp_trace (d : Dev) (f : Ptp → Ptp) : (d.updPtp f).trace = d.trace := rfl
@[simp] theorem Dev.updPtp_aba (d : Dev) (f : Ptp → Ptp) : (d.updPtp f).aba = d.aba := rfl
@[simp] theorem Dev.updPtp_temp (d : Dev) (f : Ptp → Ptp) : (d.updPtp f).temp = d.temp := rfl
@[simp] theorem Dev.updPtp_msub (d : Dev) (f : Ptp → Ptp) : (d.updPtp f).msub = d.msub := rfl
@[simp] theorem Dev.updPtp_freqWait (d : Dev) (f : Ptp → Ptp) : (d.updPtp f).freqWait = d.freqWait := rfl
@[simp] theorem Dev.updPtp_ring (d : Dev) (f : Ptp → Ptp) : (d.updPtp f).ring = d.ring := rfl
@[simp] theorem Dev.updPtp_evr (d : Dev) (f : Ptp → Ptp) : (d.updPtp f).evr = d.evr := rfl
@[simp] theorem Dev.updPtp_pins (d : Dev) (f : Ptp → Ptp) : (d.updPtp f).pins = d.pins := rfl
@[simp] theorem Dev.updPtp_out (d : Dev) (f : Ptp → Ptp) : (d.updPtp f).out = d.out := rfl
@[simp] theorem Dev.updPtp_freeCtr (d : Dev) (f : Ptp → Ptp) : (d.updPtp f).freeCtr = d.freeCtr := rfl

/-! ### `Dev.updAba` -/

@[simp] theorem Dev.updAba_rd (d : Dev) (f : Aba → Aba) (g : Fld) (i j : Nat) : (d.updAba f).rd g i j = d.rd g i j := rfl
@[simp] theorem Dev.updAba_variant (d : Dev) (f : Aba → Aba) : (d.updAba f).variant = d.variant := rfl
@[simp] theorem Dev.updAba_rf (d : Dev) (f : Aba → Aba) : (d.updAba f).rf = d.rf := rfl
@[simp] theorem Dev.updAba_nor (d : Dev) (f : Aba → Aba) : (d.updAba f).nor = d.nor := rfl
@[simp] theorem Dev.updAba_tb (d : Dev) (f : Aba → Aba) : (d.updAba f).tb = d.tb := rfl
@[simp] theorem Dev.updAba_lc (d : Dev) (f : Aba → Aba) : (d.updAba f).lc = d.lc := rfl
@[simp] theorem Dev.updAba_boot (d : Dev) (f : Aba → Aba) : (d.updAba f).boot = d.boot := rfl
@[simp] theorem Dev.updAba_pwr (d : Dev) (f : Aba → Aba) : (d.updAba f).pwr = d.pwr := rfl
@[simp] theorem Dev.updAba_shut (d : Dev) (f : Aba → Aba) : (d.updAba f).shut = d.shut := rfl
@[simp] theorem Dev.updAba_holdSeen (d : Dev) (f : Aba → Aba) : (d.updAba f).holdSeen = d.holdSeen := rfl
@[simp] theorem Dev.updAba_xpp (d : Dev) (f : Aba → Aba) : (d.updAba f).xpp = d.xpp := rfl
@[simp] theorem Dev.updAba_jobs (d : Dev) (f : Aba → Aba) : (d.updAba f).jobs = d.jobs := rfl
@[simp] theorem Dev.updAba_ended (d : Dev) (f : Aba → Aba) : (d.updAba f).ended = d.ended := rfl
@[simp] theorem Dev.updAba_conns (d : Dev) (f : Aba → Aba) : (d.updAba f).conns = d.conns := rfl
@[simp] theorem Dev.updAba_suppressAuto (d : Dev) (f : Aba → Aba) : (d.updAba f).suppressAuto = d.suppressAuto := rfl
@[simp] theorem Dev.updAba_rk (d : Dev) (f : Aba → Aba) : (d.updAba f).rk = d.rk := rfl
@[simp] theorem Dev.updAba_dose (d : Dev) (f : Aba → Aba) : (d.updAba f).dose = d.dose := rfl
@[simp] theorem Dev.updAba_curveSet (d : Dev) (f : Aba → Aba) : (d.updAba f).curveSet = d.curveSet := rfl
@[simp] theorem Dev.updAba_screenSet (d : Dev) (f : Aba → Aba) : (d.updAba f).screenSet = d.screenSet := rfl
@[simp] theorem Dev.updAba_reload (d : Dev) (f : Aba → Aba) : (d.updAba f).reload = d.reload := rfl
@[simp] theorem Dev.updAba_rodMaster (d : Dev) (f : Aba → Aba) : (d.updAba f).rodMaster = d.rodMaster := rfl
@[simp] theorem Dev.updAba_rwy (d : Dev) (f : Aba → Aba) : (d.updAba f).rwy = d.rwy := rfl
@[simp] theorem Dev.updAba_lvSince (d : Dev) (f : Aba → Aba) : (d.updAba f).lvSince = d.lvSince := rfl
@[simp] theorem Dev.updAba_ratioHist (d : Dev) (f : Aba → Aba) : (d.updAba f).ratioHist = d.ratioHist := rfl
@[simp] theorem Dev.updAba_fire (d : Dev) (f : Aba → Aba) : (d.updAba f).fire = d.fire := rfl
@[simp] theorem Dev.updAba_lanes (d : Dev) (f : Aba → Aba) : (d.updAba f).lanes = d.lanes := rfl
@[simp] theorem Dev.updAba_integ (d : Dev) (f : Aba → Aba) : (d.updAba f).integ = d.integ := rfl
@[simp] theorem Dev.updAba_accounts (d : Dev) (f : Aba → Aba) : (d.updAba f).accounts = d.accounts := rfl
@[simp] theorem Dev.updAba_vis (d : Dev) (f : Aba → Aba) : (d.updAba f).vis = d.vis := rfl
@[simp] theorem Dev.updAba_loops (d : Dev) (f : Aba → Aba) : (d.updAba f).loops = d.loops := rfl
@[simp] theorem Dev.updAba_axes (d : Dev) (f : Aba → Aba) : (d.updAba f).axes = d.axes := rfl
@[simp] theorem Dev.updAba_axp (d : Dev) (f : Aba → Aba) : (d.updAba f).axp = d.axp := rfl
@[simp] theorem Dev.updAba_heat (d : Dev) (f : Aba → Aba) : (d.updAba f).heat = d.heat := rfl
@[simp] theorem Dev.updAba_trace (d : Dev) (f : Aba → Aba) : (d.updAba f).trace = d.trace := rfl
@[simp] theorem Dev.updAba_temp (d : Dev) (f : Aba → Aba) : (d.updAba f).temp = d.temp := rfl
@[simp] theorem Dev.updAba_msub (d : Dev) (f : Aba → Aba) : (d.updAba f).msub = d.msub := rfl
@[simp] theorem Dev.updAba_freqWait (d : Dev) (f : Aba → Aba) : (d.updAba f).freqWait = d.freqWait := rfl
@[simp] theorem Dev.updAba_ptp (d : Dev) (f : Aba → Aba) : (d.updAba f).ptp = d.ptp := rfl
@[simp] theorem Dev.updAba_ring (d : Dev) (f : Aba → Aba) : (d.updAba f).ring = d.ring := rfl
@[simp] theorem Dev.updAba_evr (d : Dev) (f : Aba → Aba) : (d.updAba f).evr = d.evr := rfl
@[simp] theorem Dev.updAba_pins (d : Dev) (f : Aba → Aba) : (d.updAba f).pins = d.pins := rfl
@[simp] theorem Dev.updAba_out (d : Dev) (f : Aba → Aba) : (d.updAba f).out = d.out := rfl
@[simp] theorem Dev.updAba_freeCtr (d : Dev) (f : Aba → Aba) : (d.updAba f).freeCtr = d.freeCtr := rfl

/-! ### `Dev.updAx` -/

@[simp] theorem Dev.updAx_rd (d : Dev) (n : Nat) (f : Axis → Axis) (g : Fld) (i j : Nat) : (d.updAx n f).rd g i j = d.rd g i j := rfl
@[simp] theorem Dev.updAx_variant (d : Dev) (n : Nat) (f : Axis → Axis) : (d.updAx n f).variant = d.variant := rfl
@[simp] theorem Dev.updAx_rf (d : Dev) (n : Nat) (f : Axis → Axis) : (d.updAx n f).rf = d.rf := rfl
@[simp] theorem Dev.updAx_nor (d : Dev) (n : Nat) (f : Axis → Axis) : (d.updAx n f).nor = d.nor := rfl
@[simp] theorem Dev.updAx_tb (d : Dev) (n : Nat) (f : Axis → Axis) : (d.updAx n f).tb = d.tb := rfl
@[simp] theorem Dev.updAx_lc (d : Dev) (n : Nat) (f : Axis → Axis) : (d.updAx n f).lc = d.lc := rfl
@[simp] theorem Dev.updAx_boot (d : Dev) (n : Nat) (f : Axis → Axis) : (d.updAx n f).boot = d.boot := rfl
@[simp] theorem Dev.updAx_pwr (d : Dev) (n : Nat) (f : Axis → Axis) : (d.updAx n f).pwr = d.pwr := rfl
@[simp] theorem Dev.updAx_shut (d : Dev) (n : Nat) (f : Axis → Axis) : (d.updAx n f).shut = d.shut := rfl
@[simp] theorem Dev.updAx_holdSeen (d : Dev) (n : Nat) (f : Axis → Axis) : (d.updAx n f).holdSeen = d.holdSeen := rfl
@[simp] theorem Dev.updAx_xpp (d : Dev) (n : Nat) (f : Axis → Axis) : (d.updAx n f).xpp = d.xpp := rfl
@[simp] theorem Dev.updAx_jobs (d : Dev) (n : Nat) (f : Axis → Axis) : (d.updAx n f).jobs = d.jobs := rfl
@[simp] theorem Dev.updAx_ended (d : Dev) (n : Nat) (f : Axis → Axis) : (d.updAx n f).ended = d.ended := rfl
@[simp] theorem Dev.updAx_conns (d : Dev) (n : Nat) (f : Axis → Axis) : (d.updAx n f).conns = d.conns := rfl
@[simp] theorem Dev.updAx_suppressAuto (d : Dev) (n : Nat) (f : Axis → Axis) : (d.updAx n f).suppressAuto = d.suppressAuto := rfl
@[simp] theorem Dev.updAx_rk (d : Dev) (n : Nat) (f : Axis → Axis) : (d.updAx n f).rk = d.rk := rfl
@[simp] theorem Dev.updAx_dose (d : Dev) (n : Nat) (f : Axis → Axis) : (d.updAx n f).dose = d.dose := rfl
@[simp] theorem Dev.updAx_curveSet (d : Dev) (n : Nat) (f : Axis → Axis) : (d.updAx n f).curveSet = d.curveSet := rfl
@[simp] theorem Dev.updAx_screenSet (d : Dev) (n : Nat) (f : Axis → Axis) : (d.updAx n f).screenSet = d.screenSet := rfl
@[simp] theorem Dev.updAx_reload (d : Dev) (n : Nat) (f : Axis → Axis) : (d.updAx n f).reload = d.reload := rfl
@[simp] theorem Dev.updAx_rodMaster (d : Dev) (n : Nat) (f : Axis → Axis) : (d.updAx n f).rodMaster = d.rodMaster := rfl
@[simp] theorem Dev.updAx_rwy (d : Dev) (n : Nat) (f : Axis → Axis) : (d.updAx n f).rwy = d.rwy := rfl
@[simp] theorem Dev.updAx_lvSince (d : Dev) (n : Nat) (f : Axis → Axis) : (d.updAx n f).lvSince = d.lvSince := rfl
@[simp] theorem Dev.updAx_ratioHist (d : Dev) (n : Nat) (f : Axis → Axis) : (d.updAx n f).ratioHist = d.ratioHist := rfl
@[simp] theorem Dev.updAx_fire (d : Dev) (n : Nat) (f : Axis → Axis) : (d.updAx n f).fire = d.fire := rfl
@[simp] theorem Dev.updAx_lanes (d : Dev) (n : Nat) (f : Axis → Axis) : (d.updAx n f).lanes = d.lanes := rfl
@[simp] theorem Dev.updAx_integ (d : Dev) (n : Nat) (f : Axis → Axis) : (d.updAx n f).integ = d.integ := rfl
@[simp] theorem Dev.updAx_accounts (d : Dev) (n : Nat) (f : Axis → Axis) : (d.updAx n f).accounts = d.accounts := rfl
@[simp] theorem Dev.updAx_vis (d : Dev) (n : Nat) (f : Axis → Axis) : (d.updAx n f).vis = d.vis := rfl
@[simp] theorem Dev.updAx_loops (d : Dev) (n : Nat) (f : Axis → Axis) : (d.updAx n f).loops = d.loops := rfl
@[simp] theorem Dev.updAx_axp (d : Dev) (n : Nat) (f : Axis → Axis) : (d.updAx n f).axp = d.axp := rfl
@[simp] theorem Dev.updAx_heat (d : Dev) (n : Nat) (f : Axis → Axis) : (d.updAx n f).heat = d.heat := rfl
@[simp] theorem Dev.updAx_trace (d : Dev) (n : Nat) (f : Axis → Axis) : (d.updAx n f).trace = d.trace := rfl
@[simp] theorem Dev.updAx_aba (d : Dev) (n : Nat) (f : Axis → Axis) : (d.updAx n f).aba = d.aba := rfl
@[simp] theorem Dev.updAx_temp (d : Dev) (n : Nat) (f : Axis → Axis) : (d.updAx n f).temp = d.temp := rfl
@[simp] theorem Dev.updAx_msub (d : Dev) (n : Nat) (f : Axis → Axis) : (d.updAx n f).msub = d.msub := rfl
@[simp] theorem Dev.updAx_freqWait (d : Dev) (n : Nat) (f : Axis → Axis) : (d.updAx n f).freqWait = d.freqWait := rfl
@[simp] theorem Dev.updAx_ptp (d : Dev) (n : Nat) (f : Axis → Axis) : (d.updAx n f).ptp = d.ptp := rfl
@[simp] theorem Dev.updAx_ring (d : Dev) (n : Nat) (f : Axis → Axis) : (d.updAx n f).ring = d.ring := rfl
@[simp] theorem Dev.updAx_evr (d : Dev) (n : Nat) (f : Axis → Axis) : (d.updAx n f).evr = d.evr := rfl
@[simp] theorem Dev.updAx_pins (d : Dev) (n : Nat) (f : Axis → Axis) : (d.updAx n f).pins = d.pins := rfl
@[simp] theorem Dev.updAx_out (d : Dev) (n : Nat) (f : Axis → Axis) : (d.updAx n f).out = d.out := rfl
@[simp] theorem Dev.updAx_freeCtr (d : Dev) (n : Nat) (f : Axis → Axis) : (d.updAx n f).freeCtr = d.freeCtr := rfl

/-! ### `Dev.updHt` -/

@[simp] theorem Dev.updHt_rd (d : Dev) (n : Nat) (f : Heat → Heat) (g : Fld) (i j : Nat) : (d.updHt n f).rd g i j = d.rd g i j := rfl
@[simp] theorem Dev.updHt_variant (d : Dev) (n : Nat) (f : Heat → Heat) : (d.updHt n f).variant = d.variant := rfl
@[simp] theorem Dev.updHt_rf (d : Dev) (n : Nat) (f : Heat → Heat) : (d.updHt n f).rf = d.rf := rfl
@[simp] theorem Dev.updHt_nor (d : Dev) (n : Nat) (f : Heat → Heat) : (d.updHt n f).nor = d.nor := rfl
@[simp] theorem Dev.updHt_tb (d : Dev) (n : Nat) (f : Heat → Heat) : (d.updHt n f).tb = d.tb := rfl
@[simp] theorem Dev.updHt_lc (d : Dev) (n : Nat) (f : Heat → Heat) : (d.updHt n f).lc = d.lc := rfl
@[simp] theorem Dev.updHt_boot (d : Dev) (n : Nat) (f : Heat → Heat) : (d.updHt n f).boot = d.boot := rfl
@[simp] theorem Dev.updHt_pwr (d : Dev) (n : Nat) (f : Heat → Heat) : (d.updHt n f).pwr = d.pwr := rfl
@[simp] theorem Dev.updHt_shut (d : Dev) (n : Nat) (f : Heat → Heat) : (d.updHt n f).shut = d.shut := rfl
@[simp] theorem Dev.updHt_holdSeen (d : Dev) (n : Nat) (f : Heat → Heat) : (d.updHt n f).holdSeen = d.holdSeen := rfl
@[simp] theorem Dev.updHt_xpp (d : Dev) (n : Nat) (f : Heat → Heat) : (d.updHt n f).xpp = d.xpp := rfl
@[simp] theorem Dev.updHt_jobs (d : Dev) (n : Nat) (f : Heat → Heat) : (d.updHt n f).jobs = d.jobs := rfl
@[simp] theorem Dev.updHt_ended (d : Dev) (n : Nat) (f : Heat → Heat) : (d.updHt n f).ended = d.ended := rfl
@[simp] theorem Dev.updHt_conns (d : Dev) (n : Nat) (f : Heat → Heat) : (d.updHt n f).conns = d.conns := rfl
@[simp] theorem Dev.updHt_suppressAuto (d : Dev) (n : Nat) (f : Heat → Heat) : (d.updHt n f).suppressAuto = d.suppressAuto := rfl
@[simp] theorem Dev.updHt_rk (d : Dev) (n : Nat) (f : Heat → Heat) : (d.updHt n f).rk = d.rk := rfl
@[simp] theorem Dev.updHt_dose (d : Dev) (n : Nat) (f : Heat → Heat) : (d.updHt n f).dose = d.dose := rfl
@[simp] theorem Dev.updHt_curveSet (d : Dev) (n : Nat) (f : Heat → Heat) : (d.updHt n f).curveSet = d.curveSet := rfl
@[simp] theorem Dev.updHt_screenSet (d : Dev) (n : Nat) (f : Heat → Heat) : (d.updHt n f).screenSet = d.screenSet := rfl
@[simp] theorem Dev.updHt_reload (d : Dev) (n : Nat) (f : Heat → Heat) : (d.updHt n f).reload = d.reload := rfl
@[simp] theorem Dev.updHt_rodMaster (d : Dev) (n : Nat) (f : Heat → Heat) : (d.updHt n f).rodMaster = d.rodMaster := rfl
@[simp] theorem Dev.updHt_rwy (d : Dev) (n : Nat) (f : Heat → Heat) : (d.updHt n f).rwy = d.rwy := rfl
@[simp] theorem Dev.updHt_lvSince (d : Dev) (n : Nat) (f : Heat → Heat) : (d.updHt n f).lvSince = d.lvSince := rfl
@[simp] theorem Dev.updHt_ratioHist (d : Dev) (n : Nat) (f : Heat → Heat) : (d.updHt n f).ratioHist = d.ratioHist := rfl
@[simp] theorem Dev.updHt_fire (d : Dev) (n : Nat) (f : Heat → Heat) : (d.updHt n f).fire = d.fire := rfl
@[simp] theorem Dev.updHt_lanes (d : Dev) (n : Nat) (f : Heat → Heat) : (d.updHt n f).lanes = d.lanes := rfl
@[simp] theorem Dev.updHt_integ (d : Dev) (n : Nat) (f : Heat → Heat) : (d.updHt n f).integ = d.integ := rfl
@[simp] theorem Dev.updHt_accounts (d : Dev) (n : Nat) (f : Heat → Heat) : (d.updHt n f).accounts = d.accounts := rfl
@[simp] theorem Dev.updHt_vis (d : Dev) (n : Nat) (f : Heat → Heat) : (d.updHt n f).vis = d.vis := rfl
@[simp] theorem Dev.updHt_loops (d : Dev) (n : Nat) (f : Heat → Heat) : (d.updHt n f).loops = d.loops := rfl
@[simp] theorem Dev.updHt_axes (d : Dev) (n : Nat) (f : Heat → Heat) : (d.updHt n f).axes = d.axes := rfl
@[simp] theorem Dev.updHt_axp (d : Dev) (n : Nat) (f : Heat → Heat) : (d.updHt n f).axp = d.axp := rfl
@[simp] theorem Dev.updHt_trace (d : Dev) (n : Nat) (f : Heat → Heat) : (d.updHt n f).trace = d.trace := rfl
@[simp] theorem Dev.updHt_aba (d : Dev) (n : Nat) (f : Heat → Heat) : (d.updHt n f).aba = d.aba := rfl
@[simp] theorem Dev.updHt_temp (d : Dev) (n : Nat) (f : Heat → Heat) : (d.updHt n f).temp = d.temp := rfl
@[simp] theorem Dev.updHt_msub (d : Dev) (n : Nat) (f : Heat → Heat) : (d.updHt n f).msub = d.msub := rfl
@[simp] theorem Dev.updHt_freqWait (d : Dev) (n : Nat) (f : Heat → Heat) : (d.updHt n f).freqWait = d.freqWait := rfl
@[simp] theorem Dev.updHt_ptp (d : Dev) (n : Nat) (f : Heat → Heat) : (d.updHt n f).ptp = d.ptp := rfl
@[simp] theorem Dev.updHt_ring (d : Dev) (n : Nat) (f : Heat → Heat) : (d.updHt n f).ring = d.ring := rfl
@[simp] theorem Dev.updHt_evr (d : Dev) (n : Nat) (f : Heat → Heat) : (d.updHt n f).evr = d.evr := rfl
@[simp] theorem Dev.updHt_pins (d : Dev) (n : Nat) (f : Heat → Heat) : (d.updHt n f).pins = d.pins := rfl
@[simp] theorem Dev.updHt_out (d : Dev) (n : Nat) (f : Heat → Heat) : (d.updHt n f).out = d.out := rfl
@[simp] theorem Dev.updHt_freeCtr (d : Dev) (n : Nat) (f : Heat → Heat) : (d.updHt n f).freeCtr = d.freeCtr := rfl

/-! ### `Dev.updTr` -/

@[simp] theorem Dev.updTr_rd (d : Dev) (n : Nat) (f : Trace → Trace) (g : Fld) (i j : Nat) : (d.updTr n f).rd g i j = d.rd g i j := rfl
@[simp] theorem Dev.updTr_variant (d : Dev) (n : Nat) (f : Trace → Trace) : (d.updTr n f).variant = d.variant := rfl
@[simp] theorem Dev.updTr_rf (d : Dev) (n : Nat) (f : Trace → Trace) : (d.updTr n f).rf = d.rf := rfl
@[simp] theorem Dev.updTr_nor (d : Dev) (n : Nat) (f : Trace → Trace) : (d.updTr n f).nor = d.nor := rfl
@[simp] theorem Dev.updTr_tb (d : Dev) (n : Nat) (f : Trace → Trace) : (d.updTr n f).tb = d.tb := rfl
@[simp] theorem Dev.updTr_lc (d : Dev) (n : Nat) (f : Trace → Trace) : (d.updTr n f).lc = d.lc := rfl
@[simp] theorem Dev.updTr_boot (d : Dev) (n : Nat) (f : Trace → Trace) : (d.updTr n f).boot = d.boot := rfl
@[simp] theorem Dev.updTr_pwr (d : Dev) (n : Nat) (f : Trace → Trace) : (d.updTr n f).pwr = d.pwr := rfl
@[simp] theorem Dev.updTr_shut (d : Dev) (n : Nat) (f : Trace → Trace) : (d.updTr n f).shut = d.shut := rfl
@[simp] theorem Dev.updTr_holdSeen (d : Dev) (n : Nat) (f : Trace → Trace) : (d.updTr n f).holdSeen = d.holdSeen := rfl
@[simp] theorem Dev.updTr_xpp (d : Dev) (n : Nat) (f : Trace → Trace) : (d.updTr n f).xpp = d.xpp := rfl
@[simp] theorem Dev.updTr_jobs (d : Dev) (n : Nat) (f : Trace → Trace) : (d.updTr n f).jobs = d.jobs := rfl
@[simp] theorem Dev.updTr_ended (d : Dev) (n : Nat) (f : Trace → Trace) : (d.updTr n f).ended = d.ended := rfl
@[simp] theorem Dev.updTr_conns (d : Dev) (n : Nat) (f : Trace → Trace) : (d.updTr n f).conns = d.conns := rfl
@[simp] theorem Dev.updTr_suppressAuto (d : Dev) (n : Nat) (f : Trace → Trace) : (d.updTr n f).suppressAuto = d.suppressAuto := rfl
@[simp] theorem Dev.updTr_rk (d : Dev) (n : Nat) (f : Trace → Trace) : (d.updTr n f).rk = d.rk := rfl
@[simp] theorem Dev.updTr_dose (d : Dev) (n : Nat) (f : Trace → Trace) : (d.updTr n f).dose = d.dose := rfl
@[simp] theorem Dev.updTr_curveSet (d : Dev) (n : Nat) (f : Trace → Trace) : (d.updTr n f).curveSet = d.curveSet := rfl
@[simp] theorem Dev.updTr_screenSet (d : Dev) (n : Nat) (f : Trace → Trace) : (d.updTr n f).screenSet = d.screenSet := rfl
@[simp] theorem Dev.updTr_reload (d : Dev) (n : Nat) (f : Trace → Trace) : (d.updTr n f).reload = d.reload := rfl
@[simp] theorem Dev.updTr_rodMaster (d : Dev) (n : Nat) (f : Trace → Trace) : (d.updTr n f).rodMaster = d.rodMaster := rfl
@[simp] theorem Dev.updTr_rwy (d : Dev) (n : Nat) (f : Trace → Trace) : (d.updTr n f).rwy = d.rwy := rfl
@[simp] theorem Dev.updTr_lvSince (d : Dev) (n : Nat) (f : Trace → Trace) : (d.updTr n f).lvSince = d.lvSince := rfl
@[simp] theorem Dev.updTr_ratioHist (d : Dev) (n : Nat) (f : Trace → Trace) : (d.updTr n f).ratioHist = d.ratioHist := rfl
@[simp] theorem Dev.updTr_fire (d : Dev) (n : Nat) (f : Trace → Trace) : (d.updTr n f).fire = d.fire := rfl
@[simp] theorem Dev.updTr_lanes (d : Dev) (n : Nat) (f : Trace → Trace) : (d.updTr n f).lanes = d.lanes := rfl
@[simp] theorem Dev.updTr_integ (d : Dev) (n : Nat) (f : Trace → Trace) : (d.updTr n f).integ = d.integ := rfl
@[simp] theorem Dev.updTr_accounts (d : Dev) (n : Nat) (f : Trace → Trace) : (d.updTr n f).accounts = d.accounts := rfl
@[simp] theorem Dev.updTr_vis (d : Dev) (n : Nat) (f : Trace → Trace) : (d.updTr n f).vis = d.vis := rfl
@[simp] theorem Dev.updTr_loops (d : Dev) (n : Nat) (f : Trace → Trace) : (d.updTr n f).loops = d.loops := rfl
@[simp] theorem Dev.updTr_axes (d : Dev) (n : Nat) (f : Trace → Trace) : (d.updTr n f).axes = d.axes := rfl
@[simp] theorem Dev.updTr_axp (d : Dev) (n : Nat) (f : Trace → Trace) : (d.updTr n f).axp = d.axp := rfl
@[simp] theorem Dev.updTr_heat (d : Dev) (n : Nat) (f : Trace → Trace) : (d.updTr n f).heat = d.heat := rfl
@[simp] theorem Dev.updTr_aba (d : Dev) (n : Nat) (f : Trace → Trace) : (d.updTr n f).aba = d.aba := rfl
@[simp] theorem Dev.updTr_temp (d : Dev) (n : Nat) (f : Trace → Trace) : (d.updTr n f).temp = d.temp := rfl
@[simp] theorem Dev.updTr_msub (d : Dev) (n : Nat) (f : Trace → Trace) : (d.updTr n f).msub = d.msub := rfl
@[simp] theorem Dev.updTr_freqWait (d : Dev) (n : Nat) (f : Trace → Trace) : (d.updTr n f).freqWait = d.freqWait := rfl
@[simp] theorem Dev.updTr_ptp (d : Dev) (n : Nat) (f : Trace → Trace) : (d.updTr n f).ptp = d.ptp := rfl
@[simp] theorem Dev.updTr_ring (d : Dev) (n : Nat) (f : Trace → Trace) : (d.updTr n f).ring = d.ring := rfl
@[simp] theorem Dev.updTr_evr (d : Dev) (n : Nat) (f : Trace → Trace) : (d.updTr n f).evr = d.evr := rfl
@[simp] theorem Dev.updTr_pins (d : Dev) (n : Nat) (f : Trace → Trace) : (d.updTr n f).pins = d.pins := rfl
@[simp] theorem Dev.updTr_out (d : Dev) (n : Nat) (f : Trace → Trace) : (d.updTr n f).out = d.out := rfl
@[simp] theorem Dev.updTr_freeCtr (d : Dev) (n : Nat) (f : Trace → Trace) : (d.updTr n f).freeCtr = d.freeCtr := rfl

/-! ### `Dev.updVp` -/

@[simp] theorem Dev.updVp_rd (d : Dev) (n : Nat) (f : Vis → Vis) (g : Fld) (i j : Nat) : (d.updVp n f).rd g i j = d.rd g i j := rfl
@[simp] theorem Dev.updVp_variant (d : Dev) (n : Nat) (f : Vis → Vis) : (d.updVp n f).variant = d.variant := rfl
@[simp] theorem Dev.updVp_rf (d : Dev) (n : Nat) (f : Vis → Vis) : (d.updVp n f).rf = d.rf := rfl
@[simp] theorem Dev.updVp_nor (d : Dev) (n : Nat) (f : Vis → Vis) : (d.updVp n f).nor = d.nor := rfl
@[simp] theorem Dev.updVp_tb (d : Dev) (n : Nat) (f : Vis → Vis) : (d.updVp n f).tb = d.tb := rfl
@[simp] theorem Dev.updVp_lc (d : Dev) (n : Nat) (f : Vis → Vis) : (d.updVp n f).lc = d.lc := rfl
@[simp] theorem Dev.updVp_boot (d : Dev) (n : Nat) (f : Vis → Vis) : (d.updVp n f).boot = d.boot := rfl
@[simp] theorem Dev.updVp_pwr (d : Dev) (n : Nat) (f : Vis → Vis) : (d.updVp n f).pwr = d.pwr := rfl
@[simp] theorem Dev.updVp_shut (d : Dev) (n : Nat) (f : Vis → Vis) : (d.updVp n f).shut = d.shut := rfl
@[simp] theorem Dev.updVp_holdSeen (d : Dev) (n : Nat) (f : Vis → Vis) : (d.updVp n f).holdSeen = d.holdSeen := rfl
@[simp] theorem Dev.updVp_xpp (d : Dev) (n : Nat) (f : Vis → Vis) : (d.updVp n f).xpp = d.xpp := rfl
@[simp] theorem Dev.updVp_jobs (d : Dev) (n : Nat) (f : Vis → Vis) : (d.updVp n f).jobs = d.jobs := rfl
@[simp] theorem Dev.updVp_ended (d : Dev) (n : Nat) (f : Vis → Vis) : (d.updVp n f).ended = d.ended := rfl
@[simp] theorem Dev.updVp_conns (d : Dev) (n : Nat) (f : Vis → Vis) : (d.updVp n f).conns = d.conns := rfl
@[simp] theorem Dev.updVp_suppressAuto (d : Dev) (n : Nat) (f : Vis → Vis) : (d.updVp n f).suppressAuto = d.suppressAuto := rfl
@[simp] theorem Dev.updVp_rk (d : Dev) (n : Nat) (f : Vis → Vis) : (d.updVp n f).rk = d.rk := rfl
@[simp] theorem Dev.updVp_dose (d : Dev) (n : Nat) (f : Vis → Vis) : (d.updVp n f).dose = d.dose := rfl
@[simp] theorem Dev.updVp_curveSet (d : Dev) (n : Nat) (f : Vis → Vis) : (d.updVp n f).curveSet = d.curveSet := rfl
@[simp] theorem Dev.updVp_screenSet (d : Dev) (n : Nat) (f : Vis → Vis) : (d.updVp n f).screenSet = d.screenSet := rfl
@[simp] theorem Dev.updVp_reload (d : Dev) (n : Nat) (f : Vis → Vis) : (d.updVp n f).reload = d.reload := rfl
@[simp] theorem Dev.updVp_rodMaster (d : Dev) (n : Nat) (f : Vis → Vis) : (d.updVp n f).rodMaster = d.rodMaster := rfl
@[simp] theorem Dev.updVp_rwy (d : Dev) (n : Nat) (f : Vis → Vis) : (d.updVp n f).rwy = d.rwy := rfl
@[simp] theorem Dev.updVp_lvSince (d : Dev) (n : Nat) (f : Vis → Vis) : (d.updVp n f).lvSince = d.lvSince := rfl
@[simp] theorem Dev.updVp_ratioHist (d : Dev) (n : Nat) (f : Vis → Vis) : (d.updVp n f).ratioHist = d.ratioHist := rfl
@[simp] theorem Dev.updVp_fire (d : Dev) (n : Nat) (f : Vis → Vis) : (d.updVp n f).fire = d.fire := rfl
@[simp] theorem Dev.updVp_lanes (d : Dev) (n : Nat) (f : Vis → Vis) : (d.updVp n f).lanes = d.lanes := rfl
@[simp] theorem Dev.updVp_integ (d : Dev) (n : Nat) (f : Vis → Vis) : (d.updVp n f).integ = d.integ := rfl
@[simp] theorem Dev.updVp_accounts (d : Dev) (n : Nat) (f : Vis → Vis) : (d.updVp n f).accounts = d.accounts := rfl
@[simp] theorem Dev.updVp_loops (d : Dev) (n : Nat) (f : Vis → Vis) : (d.updVp n f).loops = d.loops := rfl
@[simp] theorem Dev.updVp_axes (d : Dev) (n : Nat) (f : Vis → Vis) : (d.updVp n f).axes = d.axes := rfl
@[simp] theorem Dev.updVp_axp (d : Dev) (n : Nat) (f : Vis → Vis) : (d.updVp n f).axp = d.axp := rfl
@[simp] theorem Dev.updVp_heat (d : Dev) (n : Nat) (f : Vis → Vis) : (d.updVp n f).heat = d.heat := rfl
@[simp] theorem Dev.updVp_trace (d : Dev) (n : Nat) (f : Vis → Vis) : (d.updVp n f).trace = d.trace := rfl
@[simp] theorem Dev.updVp_aba (d : Dev) (n : Nat) (f : Vis → Vis) : (d.updVp n f).aba = d.aba := rfl
@[simp] theorem Dev.updVp_temp (d : Dev) (n : Nat) (f : Vis → Vis) : (d.updVp n f).temp = d.temp := rfl
@[simp] theorem Dev.updVp_msub (d : Dev) (n : Nat) (f : Vis → Vis) : (d.updVp n f).msub = d.msub := rfl
@[simp] theorem Dev.updVp_freqWait (d : Dev) (n : Nat) (f : Vis → Vis) : (d.updVp n f).freqWait = d.freqWait := rfl
@[simp] theorem Dev.updVp_ptp (d : Dev) (n : Nat) (f : Vis → Vis) : (d.updVp n f).ptp = d.ptp := rfl
@[simp] theorem Dev.updVp_ring (d : Dev) (n : Nat) (f : Vis → Vis) : (d.updVp n f).ring = d.ring := rfl
@[simp] theorem Dev.updVp_evr (d : Dev) (n : Nat) (f : Vis → Vis) : (d.updVp n f).evr = d.evr := rfl
@[simp] theorem Dev.updVp_pins (d : Dev) (n : Nat) (f : Vis → Vis) : (d.updVp n f).pins = d.pins := rfl
@[simp] theorem Dev.updVp_out (d : Dev) (n : Nat) (f : Vis → Vis) : (d.updVp n f).out = d.out := rfl
@[simp] theorem Dev.updVp_freeCtr (d : Dev) (n : Nat) (f : Vis → Vis) : (d.updVp n f).freeCtr = d.freeCtr := rfl

/-! ### `Dev.updMch` -/

@[simp] theorem Dev.updMch_rd (d : Dev) (n : Nat) (f : MemCh → MemCh) (g : Fld) (i j : Nat) : (d.updMch n f).rd g i j = d.rd g i j := rfl
@[simp] theorem Dev.updMch_variant (d : Dev) (n : Nat) (f : MemCh → MemCh) : (d.updMch n f).variant = d.variant := rfl
@[simp] theorem Dev.updMch_rf (d : Dev) (n : Nat) (f : MemCh → MemCh) : (d.updMch n f).rf = d.rf := rfl
@[simp] theorem Dev.updMch_nor (d : Dev) (n : Nat) (f : MemCh → MemCh) : (d.updMch n f).nor = d.nor := rfl
@[simp] theorem Dev.updMch_tb (d : Dev) (n : Nat) (f : MemCh → MemCh) : (d.updMch n f).tb = d.tb := rfl
@[simp] theorem Dev.updMch_lc (d : Dev) (n : Nat) (f : MemCh → MemCh) : (d.updMch n f).lc = d.lc := rfl
@[simp] theorem Dev.updMch_boot (d : Dev) (n : Nat) (f : MemCh → MemCh) : (d.updMch n f).boot = d.boot := rfl
@[simp] theorem Dev.updMch_pwr (d : Dev) (n : Nat) (f : MemCh → MemCh) : (d.updMch n f).pwr = d.pwr := rfl
@[simp] theorem Dev.updMch_shut (d : Dev) (n : Nat) (f : MemCh → MemCh) : (d.updMch n f).shut = d.shut := rfl
@[simp] theorem Dev.updMch_holdSeen (d : Dev) (n : Nat) (f : MemCh → MemCh) : (d.updMch n f).holdSeen = d.holdSeen := rfl
@[simp] theorem Dev.updMch_xpp (d : Dev) (n : Nat) (f : MemCh → MemCh) : (d.updMch n f).xpp = d.xpp := rfl
@[simp] theorem Dev.updMch_jobs (d : Dev) (n : Nat) (f : MemCh → MemCh) : (d.updMch n f).jobs = d.jobs := rfl
@[simp] theorem Dev.updMch_ended (d : Dev) (n : Nat) (f : MemCh → MemCh) : (d.updMch n f).ended = d.ended := rfl
@[simp] theorem Dev.updMch_conns (d : Dev) (n : Nat) (f : MemCh → MemCh) : (d.updMch n f).conns = d.conns := rfl
@[simp] theorem Dev.updMch_suppressAuto (d : Dev) (n : Nat) (f : MemCh → MemCh) : (d.updMch n f).suppressAuto = d.suppressAuto := rfl
@[simp] theorem Dev.updMch_rk (d : Dev) (n : Nat) (f : MemCh → MemCh) : (d.updMch n f).rk = d.rk := rfl
@[simp] theorem Dev.updMch_dose (d : Dev) (n : Nat) (f : MemCh → MemCh) : (d.updMch n f).dose = d.dose := rfl
@[simp] theorem Dev.updMch_curveSet (d : Dev) (n : Nat) (f : MemCh → MemCh) : (d.updMch n f).curveSet = d.curveSet := rfl
@[simp] theorem Dev.updMch_screenSet (d : Dev) (n : Nat) (f : MemCh → MemCh) : (d.updMch n f).screenSet = d.screenSet := rfl
@[simp] theorem Dev.updMch_reload (d : Dev) (n : Nat) (f : MemCh → MemCh) : (d.updMch n f).reload = d.reload := rfl
@[simp] theorem Dev.updMch_rodMaster (d : Dev) (n : Nat) (f : MemCh → MemCh) : (d.updMch n f).rodMaster = d.rodMaster := rfl
@[simp] theorem Dev.updMch_rwy (d : Dev) (n : Nat) (f : MemCh → MemCh) : (d.updMch n f).rwy = d.rwy := rfl
@[simp] theorem Dev.updMch_lvSince (d : Dev) (n : Nat) (f : MemCh → MemCh) : (d.updMch n f).lvSince = d.lvSince := rfl
@[simp] theorem Dev.updMch_ratioHist (d : Dev) (n : Nat) (f : MemCh → MemCh) : (d.updMch n f).ratioHist = d.ratioHist := rfl
@[simp] theorem Dev.updMch_fire (d : Dev) (n : Nat) (f : MemCh → MemCh) : (d.updMch n f).fire = d.fire := rfl
@[simp] theorem Dev.updMch_lanes (d : Dev) (n : Nat) (f : MemCh → MemCh) : (d.updMch n f).lanes = d.lanes := rfl
@[simp] theorem Dev.updMch_integ (d : Dev) (n : Nat) (f : MemCh → MemCh) : (d.updMch n f).integ = d.integ := rfl
@[simp] theorem Dev.updMch_accounts (d : Dev) (n : Nat) (f : MemCh → MemCh) : (d.updMch n f).accounts = d.accounts := rfl
@[simp] theorem Dev.updMch_vis (d : Dev) (n : Nat) (f : MemCh → MemCh) : (d.updMch n f).vis = d.vis := rfl
@[simp] theorem Dev.updMch_loops (d : Dev) (n : Nat) (f : MemCh → MemCh) : (d.updMch n f).loops = d.loops := rfl
@[simp] theorem Dev.updMch_axes (d : Dev) (n : Nat) (f : MemCh → MemCh) : (d.updMch n f).axes = d.axes := rfl
@[simp] theorem Dev.updMch_axp (d : Dev) (n : Nat) (f : MemCh → MemCh) : (d.updMch n f).axp = d.axp := rfl
@[simp] theorem Dev.updMch_heat (d : Dev) (n : Nat) (f : MemCh → MemCh) : (d.updMch n f).heat = d.heat := rfl
@[simp] theorem Dev.updMch_trace (d : Dev) (n : Nat) (f : MemCh → MemCh) : (d.updMch n f).trace = d.trace := rfl
@[simp] theorem Dev.updMch_aba (d : Dev) (n : Nat) (f : MemCh → MemCh) : (d.updMch n f).aba = d.aba := rfl
@[simp] theorem Dev.updMch_temp (d : Dev) (n : Nat) (f : MemCh → MemCh) : (d.updMch n f).temp = d.temp := rfl
@[simp] theorem Dev.updMch_freqWait (d : Dev) (n : Nat) (f : MemCh → MemCh) : (d.updMch n f).freqWait = d.freqWait := rfl
@[simp] theorem Dev.updMch_ptp (d : Dev) (n : Nat) (f : MemCh → MemCh) : (d.updMch n f).ptp = d.ptp := rfl
@[simp] theorem Dev.updMch_ring (d : Dev) (n : Nat) (f : MemCh → MemCh) : (d.updMch n f).ring = d.ring := rfl
@[simp] theorem Dev.updMch_evr (d : Dev) (n : Nat) (f : MemCh → MemCh) : (d.updMch n f).evr = d.evr := rfl
@[simp] theorem Dev.updMch_pins (d : Dev) (n : Nat) (f : MemCh → MemCh) : (d.updMch n f).pins = d.pins := rfl
@[simp] theorem Dev.updMch_out (d : Dev) (n : Nat) (f : MemCh → MemCh) : (d.updMch n f).out = d.out := rfl
@[simp] theorem Dev.updMch_freeCtr (d : Dev) (n : Nat) (f : MemCh → MemCh) : (d.updMch n f).freeCtr = d.freeCtr := rfl

/-! ### `Dev.updJob` -/

@[simp] theorem Dev.updJob_rd (d : Dev) (n : Nat) (f : Job → Job) (g : Fld) (i j : Nat) : (d.updJob n f).rd g i j = d.rd g i j := rfl
@[simp] theorem Dev.updJob_variant (d : Dev) (n : Nat) (f : Job → Job) : (d.updJob n f).variant = d.variant := rfl
@[simp] theorem Dev.updJob_rf (d : Dev) (n : Nat) (f : Job → Job) : (d.updJob n f).rf = d.rf := rfl
@[simp] theorem Dev.updJob_nor (d : Dev) (n : Nat) (f : Job → Job) : (d.updJob n f).nor = d.nor := rfl
@[simp] theorem Dev.updJob_tb (d : Dev) (n : Nat) (f : Job → Job) : (d.updJob n f).tb = d.tb := rfl
@[simp] theorem Dev.updJob_lc (d : Dev) (n : Nat) (f : Job → Job) : (d.updJob n f).lc = d.lc := rfl
@[simp] theorem Dev.updJob_boot (d : Dev) (n : Nat) (f : Job → Job) : (d.updJob n f).boot = d.boot := rfl
@[simp] theorem Dev.updJob_pwr (d : Dev) (n : Nat) (f : Job → Job) : (d.updJob n f).pwr = d.pwr := rfl
@[simp] theorem Dev.updJob_shut (d : Dev) (n : Nat) (f : Job → Job) : (d.updJob n f).shut = d.shut := rfl
@[simp] theorem Dev.updJob_holdSeen (d : Dev) (n : Nat) (f : Job → Job) : (d.updJob n f).holdSeen = d.holdSeen := rfl
@[simp] theorem Dev.updJob_xpp (d : Dev) (n : Nat) (f : Job → Job) : (d.updJob n f).xpp = d.xpp := rfl
@[simp] theorem Dev.updJob_ended (d : Dev) (n : Nat) (f : Job → Job) : (d.updJob n f).ended = d.ended := rfl
@[simp] theorem Dev.updJob_conns (d : Dev) (n : Nat) (f : Job → Job) : (d.updJob n f).conns = d.conns := rfl
@[simp] theorem Dev.updJob_suppressAuto (d : Dev) (n : Nat) (f : Job → Job) : (d.updJob n f).suppressAuto = d.suppressAuto := rfl
@[simp] theorem Dev.updJob_rk (d : Dev) (n : Nat) (f : Job → Job) : (d.updJob n f).rk = d.rk := rfl
@[simp] theorem Dev.updJob_dose (d : Dev) (n : Nat) (f : Job → Job) : (d.updJob n f).dose = d.dose := rfl
@[simp] theorem Dev.updJob_curveSet (d : Dev) (n : Nat) (f : Job → Job) : (d.updJob n f).curveSet = d.curveSet := rfl
@[simp] theorem Dev.updJob_screenSet (d : Dev) (n : Nat) (f : Job → Job) : (d.updJob n f).screenSet = d.screenSet := rfl
@[simp] theorem Dev.updJob_reload (d : Dev) (n : Nat) (f : Job → Job) : (d.updJob n f).reload = d.reload := rfl
@[simp] theorem Dev.updJob_rodMaster (d : Dev) (n : Nat) (f : Job → Job) : (d.updJob n f).rodMaster = d.rodMaster := rfl
@[simp] theorem Dev.updJob_rwy (d : Dev) (n : Nat) (f : Job → Job) : (d.updJob n f).rwy = d.rwy := rfl
@[simp] theorem Dev.updJob_lvSince (d : Dev) (n : Nat) (f : Job → Job) : (d.updJob n f).lvSince = d.lvSince := rfl
@[simp] theorem Dev.updJob_ratioHist (d : Dev) (n : Nat) (f : Job → Job) : (d.updJob n f).ratioHist = d.ratioHist := rfl
@[simp] theorem Dev.updJob_fire (d : Dev) (n : Nat) (f : Job → Job) : (d.updJob n f).fire = d.fire := rfl
@[simp] theorem Dev.updJob_lanes (d : Dev) (n : Nat) (f : Job → Job) : (d.updJob n f).lanes = d.lanes := rfl
@[simp] theorem Dev.updJob_integ (d : Dev) (n : Nat) (f : Job → Job) : (d.updJob n f).integ = d.integ := rfl
@[simp] theorem Dev.updJob_accounts (d : Dev) (n : Nat) (f : Job → Job) : (d.updJob n f).accounts = d.accounts := rfl
@[simp] theorem Dev.updJob_vis (d : Dev) (n : Nat) (f : Job → Job) : (d.updJob n f).vis = d.vis := rfl
@[simp] theorem Dev.updJob_loops (d : Dev) (n : Nat) (f : Job → Job) : (d.updJob n f).loops = d.loops := rfl
@[simp] theorem Dev.updJob_axes (d : Dev) (n : Nat) (f : Job → Job) : (d.updJob n f).axes = d.axes := rfl
@[simp] theorem Dev.updJob_axp (d : Dev) (n : Nat) (f : Job → Job) : (d.updJob n f).axp = d.axp := rfl
@[simp] theorem Dev.updJob_heat (d : Dev) (n : Nat) (f : Job → Job) : (d.updJob n f).heat = d.heat := rfl
@[simp] theorem Dev.updJob_trace (d : Dev) (n : Nat) (f : Job → Job) : (d.updJob n f).trace = d.trace := rfl
@[simp] theorem Dev.updJob_aba (d : Dev) (n : Nat) (f : Job → Job) : (d.updJob n f).aba = d.aba := rfl
@[simp] theorem Dev.updJob_temp (d : Dev) (n : Nat) (f : Job → Job) : (d.updJob n f).temp = d.temp := rfl
@[simp] theorem Dev.updJob_msub (d : Dev) (n : Nat) (f : Job → Job) : (d.updJob n f).msub = d.msub := rfl
@[simp] theorem Dev.updJob_freqWait (d : Dev) (n : Nat) (f : Job → Job) : (d.updJob n f).freqWait = d.freqWait := rfl
@[simp] theorem Dev.updJob_ptp (d : Dev) (n : Nat) (f : Job → Job) : (d.updJob n f).ptp = d.ptp := rfl
@[simp] theorem Dev.updJob_ring (d : Dev) (n : Nat) (f : Job → Job) : (d.updJob n f).ring = d.ring := rfl
@[simp] theorem Dev.updJob_evr (d : Dev) (n : Nat) (f : Job → Job) : (d.updJob n f).evr = d.evr := rfl
@[simp] theorem Dev.updJob_pins (d : Dev) (n : Nat) (f : Job → Job) : (d.updJob n f).pins = d.pins := rfl
@[simp] theorem Dev.updJob_out (d : Dev) (n : Nat) (f : Job → Job) : (d.updJob n f).out = d.out := rfl
@[simp] theorem Dev.updJob_freeCtr (d : Dev) (n : Nat) (f : Job → Job) : (d.updJob n f).freeCtr = d.freeCtr := rfl

/-! ### `Dev.updAccount` -/

@[simp] theorem Dev.updAccount_rd (d : Dev) (n : Nat) (f : Account → Account) (g : Fld) (i j : Nat) : (d.updAccount n f).rd g i j = d.rd g i j := rfl
@[simp] theorem Dev.updAccount_variant (d : Dev) (n : Nat) (f : Account → Account) : (d.updAccount n f).variant = d.variant := rfl
@[simp] theorem Dev.updAccount_rf (d : Dev) (n : Nat) (f : Account → Account) : (d.updAccount n f).rf = d.rf := rfl
@[simp] theorem Dev.updAccount_nor (d : Dev) (n : Nat) (f : Account → Account) : (d.updAccount n f).nor = d.nor := rfl
@[simp] theorem Dev.updAccount_tb (d : Dev) (n : Nat) (f : Account → Account) : (d.updAccount n f).tb = d.tb := rfl
@[simp] theorem Dev.updAccount_lc (d : Dev) (n : Nat) (f : Account → Account) : (d.updAccount n f).lc = d.lc := rfl
@[simp] theorem Dev.updAccount_boot (d : Dev) (n : Nat) (f : Account → Account) : (d.updAccount n f).boot = d.boot := rfl
@[simp] theorem Dev.updAccount_pwr (d : Dev) (n : Nat) (f : Account → Account) : (d.updAccount n f).pwr = d.pwr := rfl
@[simp] theorem Dev.updAccount_shut (d : Dev) (n : Nat) (f : Account → Account) : (d.updAccount n f).shut = d.shut := rfl
@[simp] theorem Dev.updAccount_holdSeen (d : Dev) (n : Nat) (f : Account → Account) : (d.updAccount n f).holdSeen = d.holdSeen := rfl
@[simp] theorem Dev.updAccount_xpp (d : Dev) (n : Nat) (f : Account → Account) : (d.updAccount n f).xpp = d.xpp := rfl
@[simp] theorem Dev.updAccount_jobs (d : Dev) (n : Nat) (f : Account → Account) : (d.updAccount n f).jobs = d.jobs := rfl
@[simp] theorem Dev.updAccount_ended (d : Dev) (n : Nat) (f : Account → Account) : (d.updAccount n f).ended = d.ended := rfl
@[simp] theorem Dev.updAccount_conns (d : Dev) (n : Nat) (f : Account → Account) : (d.updAccount n f).conns = d.conns := rfl
@[simp] theorem Dev.updAccount_suppressAuto (d : Dev) (n : Nat) (f : Account → Account) : (d.updAccount n f).suppressAuto = d.suppressAuto := rfl
@[simp] theorem Dev.updAccount_rk (d : Dev) (n : Nat) (f : Account → Account) : (d.updAccount n f).rk = d.rk := rfl
@[simp] theorem Dev.updAccount_dose (d : Dev) (n : Nat) (f : Account → Account) : (d.updAccount n f).dose = d.dose := rfl
@[simp] theorem Dev.updAccount_curveSet (d : Dev) (n : Nat) (f : Account → Account) : (d.updAccount n f).curveSet = d.curveSet := rfl
@[simp] theorem Dev.updAccount_screenSet (d : Dev) (n : Nat) (f : Account → Account) : (d.updAccount n f).screenSet = d.screenSet := rfl
@[simp] theorem Dev.updAccount_reload (d : Dev) (n : Nat) (f : Account → Account) : (d.updAccount n f).reload = d.reload := rfl
@[simp] theorem Dev.updAccount_rodMaster (d : Dev) (n : Nat) (f : Account → Account) : (d.updAccount n f).rodMaster = d.rodMaster := rfl
@[simp] theorem Dev.updAccount_rwy (d : Dev) (n : Nat) (f : Account → Account) : (d.updAccount n f).rwy = d.rwy := rfl
@[simp] theorem Dev.updAccount_lvSince (d : Dev) (n : Nat) (f : Account → Account) : (d.updAccount n f).lvSince = d.lvSince := rfl
@[simp] theorem Dev.updAccount_ratioHist (d : Dev) (n : Nat) (f : Account → Account) : (d.updAccount n f).ratioHist = d.ratioHist := rfl
@[simp] theorem Dev.updAccount_fire (d : Dev) (n : Nat) (f : Account → Account) : (d.updAccount n f).fire = d.fire := rfl
@[simp] theorem Dev.updAccount_lanes (d : Dev) (n : Nat) (f : Account → Account) : (d.updAccount n f).lanes = d.lanes := rfl
@[simp] theorem Dev.updAccount_integ (d : Dev) (n : Nat) (f : Account → Account) : (d.updAccount n f).integ = d.integ := rfl
@[simp] theorem Dev.updAccount_vis (d : Dev) (n : Nat) (f : Account → Account) : (d.updAccount n f).vis = d.vis := rfl
@[simp] theorem Dev.updAccount_loops (d : Dev) (n : Nat) (f : Account → Account) : (d.updAccount n f).loops = d.loops := rfl
@[simp] theorem Dev.updAccount_axes (d : Dev) (n : Nat) (f : Account → Account) : (d.updAccount n f).axes = d.axes := rfl
@[simp] theorem Dev.updAccount_axp (d : Dev) (n : Nat) (f : Account → Account) : (d.updAccount n f).axp = d.axp := rfl
@[simp] theorem Dev.updAccount_heat (d : Dev) (n : Nat) (f : Account → Account) : (d.updAccount n f).heat = d.heat := rfl
@[simp] theorem Dev.updAccount_trace (d : Dev) (n : Nat) (f : Account → Account) : (d.updAccount n f).trace = d.trace := rfl
@[simp] theorem Dev.updAccount_aba (d : Dev) (n : Nat) (f : Account → Account) : (d.updAccount n f).aba = d.aba := rfl
@[simp] theorem Dev.updAccount_temp (d : Dev) (n : Nat) (f : Account → Account) : (d.updAccount n f).temp = d.temp := rfl
@[simp] theorem Dev.updAccount_msub (d : Dev) (n : Nat) (f : Account → Account) : (d.updAccount n f).msub = d.msub := rfl
@[simp] theorem Dev.updAccount_freqWait (d : Dev) (n : Nat) (f : Account → Account) : (d.updAccount n f).freqWait = d.freqWait := rfl
@[simp] theorem Dev.updAccount_ptp (d : Dev) (n : Nat) (f : Account → Account) : (d.updAccount n f).ptp = d.ptp := rfl
@[simp] theorem Dev.updAccount_ring (d : Dev) (n : Nat) (f : Account → Account) : (d.updAccount n f).ring = d.ring := rfl
@[simp] theorem Dev.updAccount_evr (d : Dev) (n : Nat) (f : Account → Account) : (d.updAccount n f).evr = d.evr := rfl
@[simp] theorem Dev.updAccount_pins (d : Dev) (n : Nat) (f : Account → Account) : (d.updAccount n f).pins = d.pins := rfl
@[simp] theorem Dev.updAccount_out (d : Dev) (n : Nat) (f : Account → Account) : (d.updAccount n f).out = d.out := rfl
@[simp] theorem Dev.updAccount_freeCtr (d : Dev) (n : Nat) (f : Account → Account) : (d.updAccount n f).freeCtr = d.freeCtr := rfl

/-! ### `Dev.setPeer` -/

@[simp] theorem Dev.setPeer_rd (d : Dev) (n : Role) (f : Peer) (g : Fld) (i j : Nat) : (d.setPeer n f).rd g i j = d.rd g i j := rfl
@[simp] theorem Dev.setPeer_variant (d : Dev) (n : Role) (f : Peer) : (d.setPeer n f).variant = d.variant := rfl
@[simp] theorem Dev.setPeer_rf (d : Dev) (n : Role) (f : Peer) : (d.setPeer n f).rf = d.rf := rfl
@[simp] theorem Dev.setPeer_nor (d : Dev) (n : Role) (f : Peer) : (d.setPeer n f).nor = d.nor := rfl
@[simp] theorem Dev.setPeer_tb (d : Dev) (n : Role) (f : Peer) : (d.setPeer n f).tb = d.tb := rfl
@[simp] theorem Dev.setPeer_lc (d : Dev) (n : Role) (f : Peer) : (d.setPeer n f).lc = d.lc := rfl
@[simp] theorem Dev.setPeer_boot (d : Dev) (n : Role) (f : Peer) : (d.setPeer n f).boot = d.boot := rfl
@[simp] theorem Dev.setPeer_pwr (d : Dev) (n : Role) (f : Peer) : (d.setPeer n f).pwr = d.pwr := rfl
@[simp] theorem Dev.setPeer_shut (d : Dev) (n : Role) (f : Peer) : (d.setPeer n f).shut = d.shut := rfl
@[simp] theorem Dev.setPeer_holdSeen (d : Dev) (n : Role) (f : Peer) : (d.setPeer n f).holdSeen = d.holdSeen := rfl
@[simp] theorem Dev.setPeer_jobs (d : Dev) (n : Role) (f : Peer) : (d.setPeer n f).jobs = d.jobs := rfl
@[simp] theorem Dev.setPeer_ended (d : Dev) (n : Role) (f : Peer) : (d.setPeer n f).ended = d.ended := rfl
@[simp] theorem Dev.setPeer_conns (d : Dev) (n : Role) (f : Peer) : (d.setPeer n f).conns = d.conns := rfl
@[simp] theorem Dev.setPeer_suppressAuto (d : Dev) (n : Role) (f : Peer) : (d.setPeer n f).suppressAuto = d.suppressAuto := rfl
@[simp] theorem Dev.setPeer_rk (d : Dev) (n : Role) (f : Peer) : (d.setPeer n f).rk = d.rk := rfl
@[simp] theorem Dev.setPeer_dose (d : Dev) (n : Role) (f : Peer) : (d.setPeer n f).dose = d.dose := rfl
@[simp] theorem Dev.setPeer_curveSet (d : Dev) (n : Role) (f : Peer) : (d.setPeer n f).curveSet = d.curveSet := rfl
@[simp] theorem Dev.setPeer_screenSet (d : Dev) (n : Role) (f : Peer) : (d.setPeer n f).screenSet = d.screenSet := rfl
@[simp] theorem Dev.setPeer_reload (d : Dev) (n : Role) (f : Peer) : (d.setPeer n f).reload = d.reload := rfl
@[simp] theorem Dev.setPeer_rodMaster (d : Dev) (n : Role) (f : Peer) : (d.setPeer n f).rodMaster = d.rodMaster := rfl
@[simp] theorem Dev.setPeer_rwy (d : Dev) (n : Role) (f : Peer) : (d.setPeer n f).rwy = d.rwy := rfl
@[simp] theorem Dev.setPeer_lvSince (d : Dev) (n : Role) (f : Peer) : (d.setPeer n f).lvSince = d.lvSince := rfl
@[simp] theorem Dev.setPeer_ratioHist (d : Dev) (n : Role) (f : Peer) : (d.setPeer n f).ratioHist = d.ratioHist := rfl
@[simp] theorem Dev.setPeer_fire (d : Dev) (n : Role) (f : Peer) : (d.setPeer n f).fire = d.fire := rfl
@[simp] theorem Dev.setPeer_lanes (d : Dev) (n : Role) (f : Peer) : (d.setPeer n f).lanes = d.lanes := rfl
@[simp] theorem Dev.setPeer_integ (d : Dev) (n : Role) (f : Peer) : (d.setPeer n f).integ = d.integ := rfl
@[simp] theorem Dev.setPeer_accounts (d : Dev) (n : Role) (f : Peer) : (d.setPeer n f).accounts = d.accounts := rfl
@[simp] theorem Dev.setPeer_vis (d : Dev) (n : Role) (f : Peer) : (d.setPeer n f).vis = d.vis := rfl
@[simp] theorem Dev.setPeer_loops (d : Dev) (n : Role) (f : Peer) : (d.setPeer n f).loops = d.loops := rfl
@[simp] theorem Dev.setPeer_axes (d : Dev) (n : Role) (f : Peer) : (d.setPeer n f).axes = d.axes := rfl
@[simp] theorem Dev.setPeer_axp (d : Dev) (n : Role) (f : Peer) : (d.setPeer n f).axp = d.axp := rfl
@[simp] theorem Dev.setPeer_heat (d : Dev) (n : Role) (f : Peer) : (d.setPeer n f).heat = d.heat := rfl
@[simp] theorem Dev.setPeer_trace (d : Dev) (n : Role) (f : Peer) : (d.setPeer n f).trace = d.trace := rfl
@[simp] theorem Dev.setPeer_aba (d : Dev) (n : Role) (f : Peer) : (d.setPeer n f).aba = d.aba := rfl
@[simp] theorem Dev.setPeer_temp (d : Dev) (n : Role) (f : Peer) : (d.setPeer n f).temp = d.temp := rfl
@[simp] theorem Dev.setPeer_msub (d : Dev) (n : Role) (f : Peer) : (d.setPeer n f).msub = d.msub := rfl
@[simp] theorem Dev.setPeer_freqWait (d : Dev) (n : Role) (f : Peer) : (d.setPeer n f).freqWait = d.freqWait := rfl
@[simp] theorem Dev.setPeer_ptp (d : Dev) (n : Role) (f : Peer) : (d.setPeer n f).ptp = d.ptp := rfl
@[simp] theorem Dev.setPeer_ring (d : Dev) (n : Role) (f : Peer) : (d.setPeer n f).ring = d.ring := rfl
@[simp] theorem Dev.setPeer_evr (d : Dev) (n : Role) (f : Peer) : (d.setPeer n f).evr = d.evr := rfl
@[simp] theorem Dev.setPeer_pins (d : Dev) (n : Role) (f : Peer) : (d.setPeer n f).pins = d.pins := rfl
@[simp] theorem Dev.setPeer_out (d : Dev) (n : Role) (f : Peer) : (d.setPeer n f).out = d.out := rfl
@[simp] theorem Dev.setPeer_freeCtr (d : Dev) (n : Role) (f : Peer) : (d.setPeer n f).freeCtr = d.freeCtr := rfl

/-! ### The state -/

/-- A command whose meaning acts on the block alone. -/
theorem State.act_eq (s : State) (f : Dev → Dev) : s.act f = .next { s with dev := f s.dev } := rfl

/-- What such a command answers. -/
theorem State.act_next {s t : State} {f : Dev → Dev} (h : s.act f = .next t) : t = { s with dev := f s.dev } := by
  simpa [State.act, eq_comm] using h

/-- It leaves DRAM and the queue. -/
theorem State.act_keeps {s t : State} {f : Dev → Dev} (h : s.act f = .next t) : t.dram = s.dram ∧ t.pending = s.pending := by
  rw [State.act_next h]; exact ⟨rfl, rfl⟩

end Sys2Proof.Machine
end

