-- ==== Sys2Proof/Laws/Only.lean ====
section
/-! SUPPORT. What an operation of the block may change: `Only c r d e` says that `e` differs from `d` in the parts of the set
`c` and the register fields of the set `r` only (sets as bit masks), and that the register table and the NOR keep their canonical
forms. Frames and invariants of whole commands follow from one such lemma per operation. -/
namespace Sys2Proof.Machine

/-! ### Order of register keys -/

theorem Fld.idx_inj {f g : Fld} (h : f.ctorIdx = g.ctorIdx) : f = g := by
  have := congrArg Fld.ofNat h
  rwa [Fld.ofNat_ctorIdx, Fld.ofNat_ctorIdx] at this

theorem regLt_iff (a b : Fld × Nat × Nat) : regLt a b = true ↔ a.1.ctorIdx < b.1.ctorIdx ∨
    (a.1.ctorIdx = b.1.ctorIdx ∧ (a.2.1 < b.2.1 ∨ (a.2.1 = b.2.1 ∧ a.2.2 < b.2.2))) := by
  simp [regLt]

theorem regLt_order : StrictOrder regLt where
  irrefl := fun a => by simp [regLt]
  trans := fun a b c => by simp only [regLt_iff]; omega
  total := fun a b h hl => by
    rw [Bool.eq_false_iff, ne_eq, regLt_iff] at hl
    rw [regLt_iff]
    obtain ⟨f, i, j⟩ := a
    obtain ⟨g, k, l⟩ := b
    dsimp only at hl ⊢
    by_cases hf : f.ctorIdx = g.ctorIdx
    · have hfg := Fld.idx_inj hf
      subst hfg
      have : ¬ (i = k ∧ j = l) := fun e => h (by rw [e.1, e.2])
      omega
    · omega

/-! ### The relation -/

/-- The forms of the block that every operation keeps. -/
def Dev.Ok (d : Dev) : Prop := d.regsWf ∧ d.norWf

/-- `e` differs from `d` in the parts of `c` and the register fields of `r` only, and keeps the forms. -/
structure Dev.Only (c r : Nat) (d e : Dev) : Prop where
  parts : ∀ p : Part, c.testBit p.ctorIdx = false → p.sameDev d e
  regs : ∀ f : Fld, r.testBit f.ctorIdx = false → ∀ i j, e.rd f i j = d.rd f i j
  ok : d.Ok → e.Ok

theorem Part.sameDev_refl (p : Part) (d : Dev) : p.sameDev d d := by cases p <;> first | rfl | trivial

theorem Part.sameDev_trans (p : Part) {d e f : Dev} (h : p.sameDev d e) (h' : p.sameDev e f) : p.sameDev d f := by
  cases p <;> first | exact Eq.trans h' h | trivial

theorem Dev.Only.refl (c r : Nat) (d : Dev) : Dev.Only c r d d := ⟨fun p _ => p.sameDev_refl d, fun _ _ _ _ => rfl, id⟩

theorem Dev.Only.trans {c r : Nat} {d e f : Dev} (h : Dev.Only c r d e) (h' : Dev.Only c r e f) : Dev.Only c r d f :=
  ⟨fun p hp => p.sameDev_trans (h.parts p hp) (h'.parts p hp), fun f hf i j => (h'.regs f hf i j).trans (h.regs f hf i j),
    fun hd => h'.ok (h.ok hd)⟩

theorem testBit_of_sub {a b n : Nat} (h : a &&& b = a) (hb : b.testBit n = false) : a.testBit n = false := by
  rw [← h, Nat.testBit_and, hb, Bool.and_false]

theorem Dev.Only.mono {c r c' r' : Nat} {d e : Dev} (h : Dev.Only c r d e) (hc : c &&& c' = c) (hr : r &&& r' = r) :
    Dev.Only c' r' d e :=
  ⟨fun p hp => h.parts p (testBit_of_sub hc hp), fun f hf => h.regs f (testBit_of_sub hr hf), h.ok⟩

/-- A further operation. -/
theorem Dev.Only.step {c r c' r' : Nat} {d e f : Dev} (h' : Dev.Only c' r' e f) (hc : c' &&& c = c') (hr : r' &&& r = r')
    (h : Dev.Only c r d e) : Dev.Only c r d f := h.trans (h'.mono hc hr)

/-- An operation that keeps the register table and the NOR, and every part but one. -/
theorem Dev.Only.part (q : Part) {c r : Nat} {d e f : Dev} (hq : c.testBit q.ctorIdx = true) (hrf : f.rf = e.rf)
    (hnor : f.nor = e.nor) (hs : ∀ p : Part, p ≠ q → p.sameDev e f) (h : Dev.Only c r d e) : Dev.Only c r d f :=
  h.trans ⟨fun p hp => hs p (fun hpq => by rw [hpq, hq] at hp; cases hp), fun g _ i j => Dev.rd_congr hrf g i j,
    fun hd => by rw [Dev.Ok, Dev.regsWf, Dev.norWf, hrf, hnor]; exact hd⟩

/-- An operation that keeps the register table and the NOR. -/
theorem Dev.Only.rest {c r : Nat} {d e f : Dev} (hrf : f.rf = e.rf) (hnor : f.nor = e.nor)
    (hs : ∀ p : Part, c.testBit p.ctorIdx = true ∨ p.sameDev e f) (h : Dev.Only c r d e) : Dev.Only c r d f :=
  h.trans ⟨fun p hp => (hs p).resolve_left (by rw [hp]; decide), fun g _ i j => Dev.rd_congr hrf g i j,
    fun hd => by rw [Dev.Ok, Dev.regsWf, Dev.norWf, hrf, hnor]; exact hd⟩

theorem Dev.wr_ok (d : Dev) (f : Fld) (v i j : Nat) (h : d.Ok) : (d.wr f v i j).Ok := by
  obtain ⟨⟨hw, hb⟩, hn⟩ := h
  refine ⟨⟨Tab.wf_set regLt regLt_order (fun k => (fldSpec k.1).reset) d.rf (f, i, j) _ hw, ?_⟩, hn⟩
  intro x hx
  simp only [Dev.wr, Tab.set] at hx
  split at hx
  · exact hb x ((Tab.mem_erase _ _ _).1 hx).1
  · rcases (Tab.mem_place _ _ _ _ _).1 hx with rfl | hx
    · exact Nat.mod_lt _ (Nat.two_pow_pos _)
    · exact hb x ((Tab.mem_erase _ _ _).1 hx).1

/-- Writing a field. -/
theorem Dev.Only.wr {c r : Nat} {d e : Dev} (f : Fld) (v i j : Nat) (hf : r.testBit f.ctorIdx = true) (h : Dev.Only c r d e) :
    Dev.Only c r d (e.wr f v i j) :=
  h.trans ⟨fun p _ => by cases p <;> first | rfl | trivial,
    fun g hg k l => by
      have : g ≠ f := fun hgf => by rw [hgf, hf] at hg; cases hg
      simp [this],
    fun hd => Dev.wr_ok e f v i j hd⟩

theorem Dev.Only.setBit {c r : Nat} {d e : Dev} (f : Fld) (b i j : Nat) (hf : r.testBit f.ctorIdx = true)
    (h : Dev.Only c r d e) : Dev.Only c r d (e.setBit f b i j) := h.wr f _ i j hf

theorem Dev.Only.clrBit {c r : Nat} {d e : Dev} (f : Fld) (b i j : Nat) (hf : r.testBit f.ctorIdx = true)
    (h : Dev.Only c r d e) : Dev.Only c r d (e.clrBit f b i j) := h.wr f _ i j hf

theorem Dev.Only.addSat {c r : Nat} {d e : Dev} (f : Fld) (n i j : Nat) (hf : r.testBit f.ctorIdx = true)
    (h : Dev.Only c r d e) : Dev.Only c r d (e.addSat f n i j) := h.wr f _ i j hf

theorem Dev.Only.inc {c r : Nat} {d e : Dev} (f : Fld) (i j : Nat) (hf : r.testBit f.ctorIdx = true)
    (h : Dev.Only c r d e) : Dev.Only c r d (e.inc f i j) := h.wr f _ i j hf

theorem Dev.Only.incWrap {c r : Nat} {d e : Dev} (f : Fld) (i j : Nat) (hf : r.testBit f.ctorIdx = true)
    (h : Dev.Only c r d e) : Dev.Only c r d (e.incWrap f i j) := h.wr f _ i j hf

/-- A fold. -/
theorem Dev.Only.foldl {α : Type} {c r : Nat} {d e : Dev} {f : Dev → α → Dev} (l : List α)
    (hf : ∀ e x, Dev.Only c r d e → Dev.Only c r d (f e x)) (h : Dev.Only c r d e) : Dev.Only c r d (l.foldl f e) := by
  induction l generalizing e with
  | nil => exact h
  | cons x t ih => exact ih (hf e x h)

theorem Dev.Only.forEach {α : Type} {c r : Nat} {d e : Dev} {f : Dev → α → Dev} (l : List α)
    (hf : ∀ e x, Dev.Only c r d e → Dev.Only c r d (f e x)) (h : Dev.Only c r d e) : Dev.Only c r d (e.forEach l f) :=
  Dev.Only.foldl l hf h

/-- A fold that carries more than the block. -/
theorem Dev.Only.foldl_fst {α β : Type} {c r : Nat} {d : Dev} {e : Dev × β} {f : Dev × β → α → Dev × β} (l : List α)
    (hf : ∀ e x, Dev.Only c r d e.1 → Dev.Only c r d (f e x).1) (h : Dev.Only c r d e.1) : Dev.Only c r d (l.foldl f e).1 := by
  induction l generalizing e with
  | nil => exact h
  | cons x t ih => exact ih (hf e x h)

theorem Dev.Only.foldl_snd {α β : Type} {c r : Nat} {d : Dev} {e : β × Dev} {f : β × Dev → α → β × Dev} (l : List α)
    (hf : ∀ e x, Dev.Only c r d e.2 → Dev.Only c r d (f e x).2) (h : Dev.Only c r d e.2) : Dev.Only c r d (l.foldl f e).2 := by
  induction l generalizing e with
  | nil => exact h
  | cons x t ih => exact ih (hf e x h)

theorem Dev.Only.of_fst {α : Type} {c r : Nat} {d e : Dev} {x : α} {p : Dev × α} (hp : p = (e, x)) (h : Dev.Only c r d p.1) :
    Dev.Only c r d e := by subst hp; exact h

theorem Dev.Only.of_snd {α : Type} {c r : Nat} {d e : Dev} {x : α} {p : α × Dev} (hp : p = (x, e)) (h : Dev.Only c r d p.2) :
    Dev.Only c r d e := by subst hp; exact h

/-! ### Record updates -/

theorem Dev.Only.with_variant {c r : Nat} {d e : Dev} (x) (hq : c.testBit Part.variant.ctorIdx = true) (h : Dev.Only c r d e) :
    Dev.Only c r d { e with variant := x } := Dev.Only.part (e := e) .variant hq rfl rfl (fun p hp => by cases p <;> first | rfl | trivial) h
theorem Dev.Only.with_tb {c r : Nat} {d e : Dev} (x) (hq : c.testBit Part.tb.ctorIdx = true) (h : Dev.Only c r d e) :
    Dev.Only c r d { e with tb := x } := Dev.Only.part (e := e) .tb hq rfl rfl (fun p hp => by cases p <;> first | rfl | trivial) h
theorem Dev.Only.with_lc {c r : Nat} {d e : Dev} (x) (hq : c.testBit Part.lc.ctorIdx = true) (h : Dev.Only c r d e) :
    Dev.Only c r d { e with lc := x } := Dev.Only.part (e := e) .lc hq rfl rfl (fun p hp => by cases p <;> first | rfl | trivial) h
theorem Dev.Only.with_boot {c r : Nat} {d e : Dev} (x) (hq : c.testBit Part.boot.ctorIdx = true) (h : Dev.Only c r d e) :
    Dev.Only c r d { e with boot := x } := Dev.Only.part (e := e) .boot hq rfl rfl (fun p hp => by cases p <;> first | rfl | trivial) h
theorem Dev.Only.with_pwr {c r : Nat} {d e : Dev} (x) (hq : c.testBit Part.pwr.ctorIdx = true) (h : Dev.Only c r d e) :
    Dev.Only c r d { e with pwr := x } := Dev.Only.part (e := e) .pwr hq rfl rfl (fun p hp => by cases p <;> first | rfl | trivial) h
theorem Dev.Only.with_shut {c r : Nat} {d e : Dev} (x) (hq : c.testBit Part.shut.ctorIdx = true) (h : Dev.Only c r d e) :
    Dev.Only c r d { e with shut := x } := Dev.Only.part (e := e) .shut hq rfl rfl (fun p hp => by cases p <;> first | rfl | trivial) h
theorem Dev.Only.with_holdSeen {c r : Nat} {d e : Dev} (x) (hq : c.testBit Part.holdSeen.ctorIdx = true) (h : Dev.Only c r d e) :
    Dev.Only c r d { e with holdSeen := x } := Dev.Only.part (e := e) .holdSeen hq rfl rfl (fun p hp => by cases p <;> first | rfl | trivial) h
theorem Dev.Only.with_xpp {c r : Nat} {d e : Dev} (x) (hq : c.testBit Part.xpp.ctorIdx = true) (h : Dev.Only c r d e) :
    Dev.Only c r d { e with xpp := x } := Dev.Only.part (e := e) .xpp hq rfl rfl (fun p hp => by cases p <;> first | rfl | trivial) h
theorem Dev.Only.with_jobs {c r : Nat} {d e : Dev} (x) (hq : c.testBit Part.jobs.ctorIdx = true) (h : Dev.Only c r d e) :
    Dev.Only c r d { e with jobs := x } := Dev.Only.part (e := e) .jobs hq rfl rfl (fun p hp => by cases p <;> first | rfl | trivial) h
theorem Dev.Only.with_ended {c r : Nat} {d e : Dev} (x) (hq : c.testBit Part.ended.ctorIdx = true) (h : Dev.Only c r d e) :
    Dev.Only c r d { e with ended := x } := Dev.Only.part (e := e) .ended hq rfl rfl (fun p hp => by cases p <;> first | rfl | trivial) h
theorem Dev.Only.with_conns {c r : Nat} {d e : Dev} (x) (hq : c.testBit Part.conns.ctorIdx = true) (h : Dev.Only c r d e) :
    Dev.Only c r d { e with conns := x } := Dev.Only.part (e := e) .conns hq rfl rfl (fun p hp => by cases p <;> first | rfl | trivial) h
theorem Dev.Only.with_suppressAuto {c r : Nat} {d e : Dev} (x) (hq : c.testBit Part.suppressAuto.ctorIdx = true) (h : Dev.Only c r d e) :
    Dev.Only c r d { e with suppressAuto := x } := Dev.Only.part (e := e) .suppressAuto hq rfl rfl (fun p hp => by cases p <;> first | rfl | trivial) h
theorem Dev.Only.with_rk {c r : Nat} {d e : Dev} (x) (hq : c.testBit Part.rk.ctorIdx = true) (h : Dev.Only c r d e) :
    Dev.Only c r d { e with rk := x } := Dev.Only.part (e := e) .rk hq rfl rfl (fun p hp => by cases p <;> first | rfl | trivial) h
theorem Dev.Only.with_dose {c r : Nat} {d e : Dev} (x) (hq : c.testBit Part.dose.ctorIdx = true) (h : Dev.Only c r d e) :
    Dev.Only c r d { e with dose := x } := Dev.Only.part (e := e) .dose hq rfl rfl (fun p hp => by cases p <;> first | rfl | trivial) h
theorem Dev.Only.with_curveSet {c r : Nat} {d e : Dev} (x) (hq : c.testBit Part.curveSet.ctorIdx = true) (h : Dev.Only c r d e) :
    Dev.Only c r d { e with curveSet := x } := Dev.Only.part (e := e) .curveSet hq rfl rfl (fun p hp => by cases p <;> first | rfl | trivial) h
theorem Dev.Only.with_screenSet {c r : Nat} {d e : Dev} (x) (hq : c.testBit Part.screenSet.ctorIdx = true) (h : Dev.Only c r d e) :
    Dev.Only c r d { e with screenSet := x } := Dev.Only.part (e := e) .screenSet hq rfl rfl (fun p hp => by cases p <;> first | rfl | trivial) h
theorem Dev.Only.with_reload {c r : Nat} {d e : Dev} (x) (hq : c.testBit Part.reload.ctorIdx = true) (h : Dev.Only c r d e) :
    Dev.Only c r d { e with reload := x } := Dev.Only.part (e := e) .reload hq rfl rfl (fun p hp => by cases p <;> first | rfl | trivial) h
theorem Dev.Only.with_rodMaster {c r : Nat} {d e : Dev} (x) (hq : c.testBit Part.rodMaster.ctorIdx = true) (h : Dev.Only c r d e) :
    Dev.Only c r d { e with rodMaster := x } := Dev.Only.part (e := e) .rodMaster hq rfl rfl (fun p hp => by cases p <;> first | rfl | trivial) h
theorem Dev.Only.with_rwy {c r : Nat} {d e : Dev} (x) (hq : c.testBit Part.rwy.ctorIdx = true) (h : Dev.Only c r d e) :
    Dev.Only c r d { e with rwy := x } := Dev.Only.part (e := e) .rwy hq rfl rfl (fun p hp => by cases p <;> first | rfl | trivial) h
theorem Dev.Only.with_lvSince {c r : Nat} {d e : Dev} (x) (hq : c.testBit Part.lvSince.ctorIdx = true) (h : Dev.Only c r d e) :
    Dev.Only c r d { e with lvSince := x } := Dev.Only.part (e := e) .lvSince hq rfl rfl (fun p hp => by cases p <;> first | rfl | trivial) h
theorem Dev.Only.with_ratioHist {c r : Nat} {d e : Dev} (x) (hq : c.testBit Part.ratioHist.ctorIdx = true) (h : Dev.Only c r d e) :
    Dev.Only c r d { e with ratioHist := x } := Dev.Only.part (e := e) .ratioHist hq rfl rfl (fun p hp => by cases p <;> first | rfl | trivial) h
theorem Dev.Only.with_fire {c r : Nat} {d e : Dev} (x) (hq : c.testBit Part.fire.ctorIdx = true) (h : Dev.Only c r d e) :
    Dev.Only c r d { e with fire := x } := Dev.Only.part (e := e) .fire hq rfl rfl (fun p hp => by cases p <;> first | rfl | trivial) h
theorem Dev.Only.with_lanes {c r : Nat} {d e : Dev} (x) (hq : c.testBit Part.lanes.ctorIdx = true) (h : Dev.Only c r d e) :
    Dev.Only c r d { e with lanes := x } := Dev.Only.part (e := e) .lanes hq rfl rfl (fun p hp => by cases p <;> first | rfl | trivial) h
theorem Dev.Only.with_integ {c r : Nat} {d e : Dev} (x) (hq : c.testBit Part.integ.ctorIdx = true) (h : Dev.Only c r d e) :
    Dev.Only c r d { e with integ := x } := Dev.Only.part (e := e) .integ hq rfl rfl (fun p hp => by cases p <;> first | rfl | trivial) h
theorem Dev.Only.with_accounts {c r : Nat} {d e : Dev} (x) (hq : c.testBit Part.accounts.ctorIdx = true) (h : Dev.Only c r d e) :
    Dev.Only c r d { e with accounts := x } := Dev.Only.part (e := e) .accounts hq rfl rfl (fun p hp => by cases p <;> first | rfl | trivial) h
theorem Dev.Only.with_vis {c r : Nat} {d e : Dev} (x) (hq : c.testBit Part.vis.ctorIdx = true) (h : Dev.Only c r d e) :
    Dev.Only c r d { e with vis := x } := Dev.Only.part (e := e) .vis hq rfl rfl (fun p hp => by cases p <;> first | rfl | trivial) h
theorem Dev.Only.with_loops {c r : Nat} {d e : Dev} (x) (hq : c.testBit Part.loops.ctorIdx = true) (h : Dev.Only c r d e) :
    Dev.Only c r d { e with loops := x } := Dev.Only.part (e := e) .loops hq rfl rfl (fun p hp => by cases p <;> first | rfl | trivial) h
theorem Dev.Only.with_axes {c r : Nat} {d e : Dev} (x) (hq : c.testBit Part.axes.ctorIdx = true) (h : Dev.Only c r d e) :
    Dev.Only c r d { e with axes := x } := Dev.Only.part (e := e) .axes hq rfl rfl (fun p hp => by cases p <;> first | rfl | trivial) h
theorem Dev.Only.with_axp {c r : Nat} {d e : Dev} (x) (hq : c.testBit Part.axp.ctorIdx = true) (h : Dev.Only c r d e) :
    Dev.Only c r d { e with axp := x } := Dev.Only.part (e := e) .axp hq rfl rfl (fun p hp => by cases p <;> first | rfl | trivial) h
theorem Dev.Only.with_heat {c r : Nat} {d e : Dev} (x) (hq : c.testBit Part.heat.ctorIdx = true) (h : Dev.Only c r d e) :
    Dev.Only c r d { e with heat := x } := Dev.Only.part (e := e) .heat hq rfl rfl (fun p hp => by cases p <;> first | rfl | trivial) h
theorem Dev.Only.with_trace {c r : Nat} {d e : Dev} (x) (hq : c.testBit Part.trace.ctorIdx = true) (h : Dev.Only c r d e) :
    Dev.Only c r d { e with trace := x } := Dev.Only.part (e := e) .trace hq rfl rfl (fun p hp => by cases p <;> first | rfl | trivial) h
theorem Dev.Only.with_aba {c r : Nat} {d e : Dev} (x) (hq : c.testBit Part.aba.ctorIdx = true) (h : Dev.Only c r d e) :
    Dev.Only c r d { e with aba := x } := Dev.Only.part (e := e) .aba hq rfl rfl (fun p hp => by cases p <;> first | rfl | trivial) h
theorem Dev.Only.with_temp {c r : Nat} {d e : Dev} (x) (hq : c.testBit Part.temp.ctorIdx = true) (h : Dev.Only c r d e) :
    Dev.Only c r d { e with temp := x } := Dev.Only.part (e := e) .temp hq rfl rfl (fun p hp => by cases p <;> first | rfl | trivial) h
theorem Dev.Only.with_msub {c r : Nat} {d e : Dev} (x) (hq : c.testBit Part.msub.ctorIdx = true) (h : Dev.Only c r d e) :
    Dev.Only c r d { e with msub := x } := Dev.Only.part (e := e) .msub hq rfl rfl (fun p hp => by cases p <;> first | rfl | trivial) h
theorem Dev.Only.with_freqWait {c r : Nat} {d e : Dev} (x) (hq : c.testBit Part.freqWait.ctorIdx = true) (h : Dev.Only c r d e) :
    Dev.Only c r d { e with freqWait := x } := Dev.Only.part (e := e) .freqWait hq rfl rfl (fun p hp => by cases p <;> first | rfl | trivial) h
theorem Dev.Only.with_ptp {c r : Nat} {d e : Dev} (x) (hq : c.testBit Part.ptp.ctorIdx = true) (h : Dev.Only c r d e) :
    Dev.Only c r d { e with ptp := x } := Dev.Only.part (e := e) .ptp hq rfl rfl (fun p hp => by cases p <;> first | rfl | trivial) h
theorem Dev.Only.with_ring {c r : Nat} {d e : Dev} (x) (hq : c.testBit Part.ring.ctorIdx = true) (h : Dev.Only c r d e) :
    Dev.Only c r d { e with ring := x } := Dev.Only.part (e := e) .ring hq rfl rfl (fun p hp => by cases p <;> first | rfl | trivial) h
theorem Dev.Only.with_evr {c r : Nat} {d e : Dev} (x) (hq : c.testBit Part.evr.ctorIdx = true) (h : Dev.Only c r d e) :
    Dev.Only c r d { e with evr := x } := Dev.Only.part (e := e) .evr hq rfl rfl (fun p hp => by cases p <;> first | rfl | trivial) h
theorem Dev.Only.with_pins {c r : Nat} {d e : Dev} (x) (hq : c.testBit Part.pins.ctorIdx = true) (h : Dev.Only c r d e) :
    Dev.Only c r d { e with pins := x } := Dev.Only.part (e := e) .pins hq rfl rfl (fun p hp => by cases p <;> first | rfl | trivial) h
theorem Dev.Only.with_out {c r : Nat} {d e : Dev} (x) (hq : c.testBit Part.out.ctorIdx = true) (h : Dev.Only c r d e) :
    Dev.Only c r d { e with out := x } := Dev.Only.part (e := e) .out hq rfl rfl (fun p hp => by cases p <;> first | rfl | trivial) h
theorem Dev.Only.with_freeCtr {c r : Nat} {d e : Dev} (x) (hq : c.testBit Part.freeCtr.ctorIdx = true) (h : Dev.Only c r d e) :
    Dev.Only c r d { e with freeCtr := x } := Dev.Only.part (e := e) .freeCtr hq rfl rfl (fun p hp => by cases p <;> first | rfl | trivial) h
theorem Dev.Only.with_boot_evr {c r : Nat} {d e : Dev} (y0) (y1) (q0 : c.testBit Part.boot.ctorIdx = true) (q1 : c.testBit Part.evr.ctorIdx = true)
    (h : Dev.Only c r d e) : Dev.Only c r d { e with boot := y0, evr := y1 } :=
  Dev.Only.rest (e := e) rfl rfl (fun p => by cases p <;> first | exact Or.inr rfl | exact Or.inr trivial | exact Or.inl (by assumption)) h
theorem Dev.Only.with_fire_pins {c r : Nat} {d e : Dev} (y0) (y1) (q0 : c.testBit Part.fire.ctorIdx = true) (q1 : c.testBit Part.pins.ctorIdx = true)
    (h : Dev.Only c r d e) : Dev.Only c r d { e with fire := y0, pins := y1 } :=
  Dev.Only.rest (e := e) rfl rfl (fun p => by cases p <;> first | exact Or.inr rfl | exact Or.inr trivial | exact Or.inl (by assumption)) h
theorem Dev.Only.with_fire_loops {c r : Nat} {d e : Dev} (y0) (y1) (q0 : c.testBit Part.fire.ctorIdx = true) (q1 : c.testBit Part.loops.ctorIdx = true)
    (h : Dev.Only c r d e) : Dev.Only c r d { e with fire := y0, loops := y1 } :=
  Dev.Only.rest (e := e) rfl rfl (fun p => by cases p <;> first | exact Or.inr rfl | exact Or.inr trivial | exact Or.inl (by assumption)) h
theorem Dev.Only.with_jobs_accounts {c r : Nat} {d e : Dev} (y0) (y1) (q0 : c.testBit Part.jobs.ctorIdx = true) (q1 : c.testBit Part.accounts.ctorIdx = true)
    (h : Dev.Only c r d e) : Dev.Only c r d { e with jobs := y0, accounts := y1 } :=
  Dev.Only.rest (e := e) rfl rfl (fun p => by cases p <;> first | exact Or.inr rfl | exact Or.inr trivial | exact Or.inl (by assumption)) h
theorem Dev.Only.with_jobs_ended_rk {c r : Nat} {d e : Dev} (y0) (y1) (y2) (q0 : c.testBit Part.jobs.ctorIdx = true) (q1 : c.testBit Part.ended.ctorIdx = true) (q2 : c.testBit Part.rk.ctorIdx = true)
    (h : Dev.Only c r d e) : Dev.Only c r d { e with jobs := y0, ended := y1, rk := y2 } :=
  Dev.Only.rest (e := e) rfl rfl (fun p => by cases p <;> first | exact Or.inr rfl | exact Or.inr trivial | exact Or.inl (by assumption)) h
theorem Dev.Only.with_curveSet_screenSet_reload {c r : Nat} {d e : Dev} (y0) (y1) (y2) (q0 : c.testBit Part.curveSet.ctorIdx = true) (q1 : c.testBit Part.screenSet.ctorIdx = true) (q2 : c.testBit Part.reload.ctorIdx = true)
    (h : Dev.Only c r d e) : Dev.Only c r d { e with curveSet := y0, screenSet := y1, reload := y2 } :=
  Dev.Only.rest (e := e) rfl rfl (fun p => by cases p <;> first | exact Or.inr rfl | exact Or.inr trivial | exact Or.inl (by assumption)) h
theorem Dev.Only.with_fire_integ {c r : Nat} {d e : Dev} (y0) (y1) (q0 : c.testBit Part.fire.ctorIdx = true) (q1 : c.testBit Part.integ.ctorIdx = true)
    (h : Dev.Only c r d e) : Dev.Only c r d { e with fire := y0, integ := y1 } :=
  Dev.Only.rest (e := e) rfl rfl (fun p => by cases p <;> first | exact Or.inr rfl | exact Or.inr trivial | exact Or.inl (by assumption)) h
/-! ### Whole states -/

/-- `t` differs from `s` in the parts of `c` and the register fields of `r` only; DRAM keeps its form. -/
structure State.Only (c r : Nat) (s t : State) : Prop where
  dev : Dev.Only c r s.dev t.dev
  dram : c.testBit Part.dram.ctorIdx = false → t.dram = s.dram
  pending : t.pending = s.pending
  dramOk : s.dram.ok → t.dram.ok

theorem State.Only.refl (c r : Nat) (s : State) : State.Only c r s s := ⟨Dev.Only.refl c r s.dev, fun _ => rfl, rfl, id⟩

theorem State.Only.trans {c r : Nat} {s t u : State} (h : State.Only c r s t) (h' : State.Only c r t u) : State.Only c r s u :=
  ⟨h.dev.trans h'.dev, fun hc => (h'.dram hc).trans (h.dram hc), h'.pending.trans h.pending, fun hd => h'.dramOk (h.dramOk hd)⟩

theorem State.Only.mono {c r c' r' : Nat} {s t : State} (h : State.Only c r s t) (hc : c &&& c' = c) (hr : r &&& r' = r) :
    State.Only c' r' s t := ⟨h.dev.mono hc hr, fun hd => h.dram (testBit_of_sub hc hd), h.pending, h.dramOk⟩

theorem State.Only.step {c r c' r' : Nat} {s t u : State} (h' : State.Only c' r' t u) (hc : c' &&& c = c') (hr : r' &&& r = r')
    (h : State.Only c r s t) : State.Only c r s u := h.trans (h'.mono hc hr)

/-- The block of a state is changed. -/
theorem State.Only.mkDev {c r : Nat} {s t : State} {e : Dev} (h' : Dev.Only c r s.dev e) (h : State.Only c r s t) :
    State.Only c r s { t with dev := e } := ⟨h', h.dram, h.pending, h.dramOk⟩

theorem Dram.ok_empty : Dram.ok ⟨[], []⟩ := ⟨rfl, by simp, by simp, by simp⟩

/-- The block of a state is changed and DRAM loses its contents. -/
theorem State.Only.clear {c r : Nat} {s t : State} {e : Dev} (hc : c.testBit Part.dram.ctorIdx = true) (h' : Dev.Only c r s.dev e)
    (h : State.Only c r s t) : State.Only c r s { t with dev := e, dram := ⟨[], []⟩ } :=
  ⟨h', fun hd => (by rw [hc] at hd; cases hd), h.pending, fun _ => Dram.ok_empty⟩

/-- The block of a state is changed and DRAM keeps its form. -/
theorem State.Only.withDram {c r : Nat} {s : State} {e : Dev} {m : Dram} (hc : c.testBit Part.dram.ctorIdx = true)
    (hm : s.dram.ok → m.ok) (h' : Dev.Only c r s.dev e) : State.Only c r s { s with dev := e, dram := m } :=
  ⟨h', fun hd => (by rw [hc] at hd; cases hd), rfl, hm⟩

/-- A fold. -/
theorem State.Only.foldl {α : Type} {c r : Nat} {s t : State} {f : State → α → State} (l : List α)
    (hf : ∀ e x, State.Only c r s e → State.Only c r s (f e x)) (h : State.Only c r s t) : State.Only c r s (l.foldl f t) := by
  induction l generalizing t with
  | nil => exact h
  | cons x u ih => exact ih (hf t x h)

theorem State.Only.of_fst {α : Type} {c r : Nat} {s t : State} {x : α} {p : State × α} (hp : p = (t, x)) (h : State.Only c r s p.1) :
    State.Only c r s t := by subst hp; exact h

theorem State.Only.of_snd {α : Type} {c r : Nat} {s t : State} {x : α} {p : α × State} (hp : p = (x, t)) (h : State.Only c r s p.2) :
    State.Only c r s t := by subst hp; exact h

/-- Every next state that an outcome answers differs from `s` in the parts of `c` and the fields of `r` only. -/
structure Out.Only (c r : Nat) (s : State) (o : Out) : Prop where
  next' : ∀ t, o = .next t → State.Only c r s t

theorem Out.Only.next {c r : Nat} {s t : State} (h : State.Only c r s t) : Out.Only c r s (.next t) := by
  exact ⟨fun u hu => by cases hu; exact h⟩

theorem Out.Only.mono {c r c' r' : Nat} {s : State} {o : Out} (h : Out.Only c r s o) (hc : c &&& c' = c) (hr : r &&& r' = r) :
    Out.Only c' r' s o := ⟨fun t ht => (h.next' t ht).mono hc hr⟩

theorem Out.Only.act {c r : Nat} {s t : State} {f : Dev → Dev} (h' : Dev.Only c r s.dev (f t.dev)) (h : State.Only c r s t) :
    Out.Only c r s (t.act f) := Out.Only.next (State.Only.mkDev h' h)

theorem Dev.Only.of_snd2 {α β : Type} {c r : Nat} {d e : Dev} {x : α} {y : β} {p : α × β × Dev} (hp : p = (x, y, e))
    (h : Dev.Only c r d p.2.2) : Dev.Only c r d e := by subst hp; exact h


/-! ### Naming an intermediate block -/

theorem Dev.Only.have1 {c r : Nat} {d f : Dev} (e : Dev) (h : Dev.Only c r d e → Dev.Only c r d f) (he : Dev.Only c r d e) :
    Dev.Only c r d f := h he
theorem State.Only.have1 {c r : Nat} {s t : State} (u : State) (h : State.Only c r s u → State.Only c r s t)
    (hu : State.Only c r s u) : State.Only c r s t := h hu
theorem State.Only.have2 {c r : Nat} {s t : State} (e : Dev) (h : Dev.Only c r s.dev e → State.Only c r s t)
    (he : Dev.Only c r s.dev e) : State.Only c r s t := h he
theorem Out.Only.have1 {c r : Nat} {s : State} {o : Out} (u : State) (h : State.Only c r s u → Out.Only c r s o)
    (hu : State.Only c r s u) : Out.Only c r s o := h hu
theorem Out.Only.have2 {c r : Nat} {s : State} {o : Out} (e : Dev) (h : Dev.Only c r s.dev e → Out.Only c r s o)
    (he : Dev.Only c r s.dev e) : Out.Only c r s o := h he
theorem Dev.Only.fun1 {α β : Type} {c r : Nat} {d f : Dev} (_g : α → β) (h : Dev.Only c r d f) : Dev.Only c r d f := h
theorem State.Only.fun1 {α β : Type} {c r : Nat} {s t : State} (_g : α → β) (h : State.Only c r s t) : State.Only c r s t := h
theorem Out.Only.fun1 {α β : Type} {c r : Nat} {s : State} {o : Out} (_g : α → β) (h : Out.Only c r s o) : Out.Only c r s o := h

theorem Fld.all_bit (f : Fld) : Nat.testBit 0x1fffffffffffffffffffffffffffffffffffffffffffffffffffffffffffffffffffffffffffffffffffffffffffffffffffffffffffffffffffffffffffffffffffffffffffff f.ctorIdx = true := by cases f <;> rfl

end Sys2Proof.Machine
end

