-- ==== Sys2Proof/Laws/OnlyOps.lean ====
section
/-! SUPPORT. What each operation may change, operation by operation: the shared operations, spoiling, holding, placements and register accesses. Each lemma names the parts
and the register fields as bit masks over `Part` and `Fld`. -/
namespace Sys2Proof.Machine

-- One theorem at a time: checked side by side, their threads exceed the memory that the check allows.
set_option Elab.async false
-- The proofs of this file share one script, whose steps not every goal needs.
set_option linter.unusedTactic false
set_option linter.unreachableTactic false

/-! ### Ops -/

theorem Dev.free_only (x0 : Dev) (x1 : Nat) :
    Dev.Only 0x20000000000 0 x0 (Dev.free x0 x1).2 := by
  unfold Dev.free
  repeat' (first
    | exact rfl
    | with_reducible exact Dev.Only.refl _ _ _
    | with_reducible apply Dev.Only.with_freeCtr)

theorem Dev.domUp_only (x0 : Dev) (x1 : Dom) :
    Dev.Only 0 0x200000 x0 (Dev.domUp x0 x1) := by
  unfold Dev.domUp
  repeat' (first
    | exact rfl
    | with_reducible exact Dev.Only.refl _ _ _
    | with_reducible apply Dev.Only.setBit)

theorem Dev.emit_only (x0 : Dev) (x1 : Output) :
    Dev.Only 0x10000000000 0 x0 (Dev.emit x0 x1) := by
  unfold Dev.emit
  repeat' (first
    | exact rfl
    | with_reducible exact Dev.Only.refl _ _ _
    | with_reducible apply Dev.Only.with_out)

theorem Dev.setPeer_only (x0 : Dev) (x1 : Role) (x2 : Peer) :
    Dev.Only 0x100 0 x0 (Dev.setPeer x0 x1 x2) := by
  unfold Dev.setPeer
  repeat' (first
    | exact rfl
    | (extract_lets +onlyGivenNames x; clear_value x)
    | with_reducible exact Dev.Only.refl _ _ _
    | with_reducible apply Dev.Only.with_xpp)

theorem Dev.send_only (x0 : Dev) (x1 : Role) (x2 : XppMsg) :
    Dev.Only 0x10000000100 0 x0 (Dev.send x0 x1 x2) := by
  unfold Dev.send
  repeat' (first
    | exact rfl
    | (extract_lets +onlyGivenNames x; clear_value x)
    | with_reducible exact Dev.Only.refl _ _ _
    | with_reducible apply Dev.Only.step (Dev.emit_only _ _)
    | with_reducible apply Dev.Only.step (Dev.setPeer_only _ _ _)
    | split)

theorem Dev.sendAll_only (x0 : Dev) (x1 : XppMsg) :
    Dev.Only 0x10000000100 0 x0 (Dev.sendAll x0 x1) := by
  unfold Dev.sendAll
  repeat' (first
    | exact rfl
    | with_reducible exact Dev.Only.refl _ _ _
    | with_reducible apply Dev.Only.step (Dev.send_only _ _ _))

theorem Dev.sendStatus_only (x0 : Dev) :
    Dev.Only 0x10000000100 0 x0 (Dev.sendStatus x0) := by
  unfold Dev.sendStatus
  repeat' (first
    | exact rfl
    | with_reducible exact Dev.Only.refl _ _ _
    | with_reducible apply Dev.Only.step (Dev.sendAll_only _ _))

theorem Dev.forwardEvent_only (x0 : Dev) (x1 : EvCode) (x2 : List Byte) (x3 : Role) :
    Dev.Only 0x10000000100 0 x0 (Dev.forwardEvent x0 x1 x2 x3) := by
  unfold Dev.forwardEvent
  repeat' (first
    | exact rfl
    | with_reducible exact Dev.Only.refl _ _ _
    | with_reducible apply Dev.Only.step (Dev.send_only _ _ _)
    | split)

theorem Dev.traceNote_only (x0 : Dev) (x1 : Nat) :
    Dev.Only 0x80000000 0 x0 (Dev.traceNote x0 x1) := by
  unfold Dev.traceNote
  repeat' (first
    | with_reducible assumption
    | exact rfl
    | intro e
    | with_reducible exact Dev.Only.refl _ _ _
    | with_reducible apply Dev.Only.foldl
    | split
    | with_reducible apply Dev.Only.with_trace)

theorem Dev.raise_only (x0 : Dev) (x1 : EvCode) (x2 : optParam (List Byte) []) :
    Dev.Only 0x14080000100 0x8040 x0 (Dev.raise x0 x1 x2) := by
  unfold Dev.raise
  repeat' (first
    | with_reducible assumption
    | exact rfl
    | (extract_lets +onlyGivenNames x; first | (refine Dev.Only.have1 x (fun hx => ?_) ?_; clear_value x; rotate_left; subst x)  | (refine Dev.Only.have1 x.1 (fun hx => ?_) ?_; clear_value x; rotate_left; subst x) | (refine Dev.Only.have1 x.2 (fun hx => ?_) ?_; clear_value x; rotate_left; subst x) | (refine Dev.Only.fun1 x ?_; subst x; try dsimp -zeta only) | clear_value x)
    | with_reducible exact Dev.Only.refl _ _ _
    | with_reducible apply Dev.Only.step (Dev.traceNote_only _ _)
    | with_reducible apply Dev.Only.step (Dev.forwardEvent_only _ _ _ _)
    | with_reducible apply Dev.Only.setBit
    | with_reducible apply Dev.Only.inc
    | (with_reducible apply Dev.Only.of_fst; assumption)
    | split
    | with_reducible apply Dev.Only.with_evr)

theorem Dev.norErase_only (x0 : Dev) (x1 x2 : Nat) : Dev.Only 0x10000000002 0 x0 (x0.norErase x1 x2) := by
  unfold Dev.norErase
  refine Dev.Only.step (Dev.emit_only _ _) rfl rfl ?_
  refine ⟨fun p hp => ?_, fun f _ i j => rfl, fun hd => ⟨hd.1, ?_⟩⟩
  · cases p <;> first | rfl | trivial | cases hp
  · exact Tab.wf_filter natLt natLt_order _ _ _ hd.2

theorem norProgram_wf (cells : Tab Nat Byte) (a : Nat) (bs : List Byte) (h : Tab.wf natLt (fun _ => Config.norUnlisted) cells = true) :
    Tab.wf natLt (fun _ => Config.norUnlisted) (norProgram cells a bs) = true := by
  induction bs generalizing cells a with
  | nil => exact h
  | cons b t ih => exact ih _ _ (Tab.wf_set natLt natLt_order (fun _ => Config.norUnlisted) _ _ _ h)

/-- The NOR changes within its canonical form. -/
theorem Dev.Only.withNor {c r : Nat} {d e : Dev} (n : Nor) (hq : c.testBit Part.nor.ctorIdx = true)
    (hn : e.Ok → Tab.wf natLt (fun _ => Config.norUnlisted) n.cells = true) (h : Dev.Only c r d e) :
    Dev.Only c r d { e with nor := n } :=
  h.trans ⟨fun p hp => by
      cases p <;> first | rfl | trivial | (rw [hq] at hp; cases hp), fun f _ i j => rfl, fun hd => ⟨hd.1, hn hd⟩⟩

theorem Dev.logPut_only (x0 : Dev) (x1 : List Byte) : Dev.Only 0x10000000002 0x400000000000 x0 (x0.logPut x1) := by
  unfold Dev.logPut
  extract_lets +onlyGivenNames n
  split
  · exact Dev.Only.refl _ _ _
  · extract_lets +onlyGivenNames b o d1
    have h1 : Dev.Only 0x10000000002 0x400000000000 x0 d1 := by
      subst d1
      split
      · exact Dev.Only.step (Dev.norErase_only _ _ _) rfl rfl (Dev.Only.refl _ _ _)
      · exact Dev.Only.refl _ _ _
    clear_value d1
    refine Dev.Only.wr _ _ _ _ rfl ?_
    refine Dev.Only.step (Dev.emit_only _ _) rfl rfl ?_
    exact Dev.Only.withNor _ rfl (fun hd => hd.2) h1

theorem Dev.norDo_only (x0 : Dev) (x1 : NorOp) : Dev.Only 0x10000000002 0x400000000000 x0 (x0.norDo x1) := by
  unfold Dev.norDo
  split
  · exact Dev.Only.step (Dev.logPut_only _ _) rfl rfl (Dev.Only.refl _ _ _)
  · exact Dev.Only.step (Dev.norErase_only _ _ _) rfl rfl (Dev.Only.refl _ _ _)
  · refine Dev.Only.step (Dev.emit_only _ _) rfl rfl ?_
    exact Dev.Only.withNor _ rfl (fun hd => norProgram_wf _ _ _ hd.2) (Dev.Only.refl _ _ _)
  · refine Dev.Only.wr _ _ _ _ rfl ?_
    exact Dev.Only.step (Dev.norErase_only _ _ _) rfl rfl (Dev.Only.refl _ _ _)

theorem Dev.norStart_only (x0 : Dev) (x1 : NorOp) :
    Dev.Only 0x10000000022 0x400000000000 x0 (Dev.norStart x0 x1) := by
  unfold Dev.norStart
  repeat' (first
    | exact rfl
    | (extract_lets +onlyGivenNames x; clear_value x)
    | with_reducible exact Dev.Only.refl _ _ _
    | with_reducible apply Dev.Only.step (Dev.norDo_only _ _)
    | split
    | with_reducible apply Dev.Only.with_pwr)

theorem Dev.logWrite_only (x0 : Dev) (x1 : List Byte) :
    Dev.Only 0x10000000022 0x400000000000 x0 (Dev.logWrite x0 x1) := by
  unfold Dev.logWrite
  repeat' (first
    | exact rfl
    | with_reducible exact Dev.Only.refl _ _ _
    | with_reducible apply Dev.Only.step (Dev.norStart_only _ _))

theorem Dev.enter_only (x0 : Dev) (x1 : DState) :
    Dev.Only 0x18800400100 0x8 x0 (Dev.enter x0 x1) := by
  unfold Dev.enter
  repeat' (first
    | with_reducible assumption
    | exact rfl
    | (extract_lets +onlyGivenNames x; first | (refine Dev.Only.have1 x (fun hx => ?_) ?_; clear_value x; rotate_left; subst x) | clear_value x)
    | with_reducible exact Dev.Only.refl _ _ _
    | with_reducible apply Dev.Only.step (Dev.sendStatus_only _)
    | with_reducible apply Dev.Only.wr
    | split
    | with_reducible apply Dev.Only.with_fire_pins
    | with_reducible apply Dev.Only.with_freqWait)

theorem Dev.setHold_only (x0 : Dev) (x1 : HoldBit) (x2 : Bool) :
    Dev.Only 0x10000000100 0x10 x0 (Dev.setHold x0 x1 x2) := by
  unfold Dev.setHold
  repeat' (first
    | with_reducible assumption
    | exact rfl
    | (extract_lets +onlyGivenNames x; (refine Dev.Only.have1 x (fun hx => ?_) ?_; clear_value x; rotate_left; subst x))
    | with_reducible exact Dev.Only.refl _ _ _
    | with_reducible apply Dev.Only.step (Dev.sendStatus_only _)
    | with_reducible apply Dev.Only.setBit
    | with_reducible apply Dev.Only.clrBit
    | split)

theorem Dev.requestStop_only (x0 : Dev) (x1 : StopBit) :
    Dev.Only 0x14080000100 0x8060 x0 (Dev.requestStop x0 x1) := by
  unfold Dev.requestStop
  repeat' (first
    | with_reducible assumption
    | exact rfl
    | (extract_lets +onlyGivenNames x; first | (refine Dev.Only.have1 x (fun hx => ?_) ?_; clear_value x; rotate_left; subst x) | clear_value x)
    | with_reducible exact Dev.Only.refl _ _ _
    | with_reducible apply Dev.Only.step (Dev.raise_only _ _ _)
    | with_reducible apply Dev.Only.step (Dev.send_only _ _ _)
    | with_reducible apply Dev.Only.step (Dev.sendStatus_only _)
    | with_reducible apply Dev.Only.setBit
    | split)

theorem Dev.updJob_only (x0 : Dev) (x1 : Nat) (x2 : Job → Job) :
    Dev.Only 0x200 0 x0 (Dev.updJob x0 x1 x2) := by
  unfold Dev.updJob
  repeat' (first
    | exact rfl
    | with_reducible exact Dev.Only.refl _ _ _
    | with_reducible apply Dev.Only.with_jobs)

theorem Dev.updAccount_only (x0 : Dev) (x1 : Nat) (x2 : Account → Account) :
    Dev.Only 0x2000000 0 x0 (Dev.updAccount x0 x1 x2) := by
  unfold Dev.updAccount
  repeat' (first
    | exact rfl
    | with_reducible exact Dev.Only.refl _ _ _
    | with_reducible apply Dev.Only.with_accounts)

theorem Dev.sendJobStatus_only (x0 : Dev) (x1 : Nat) :
    Dev.Only 0x10000000100 0 x0 (Dev.sendJobStatus x0 x1) := by
  unfold Dev.sendJobStatus
  repeat' (first
    | exact rfl
    | with_reducible exact Dev.Only.refl _ _ _
    | with_reducible apply Dev.Only.step (Dev.send_only _ _ _)
    | split)

theorem Dev.setJobSt_only (x0 : Dev) (x1 : Nat) (x2 : JobState) :
    Dev.Only 0x10000000300 0 x0 (Dev.setJobSt x0 x1 x2) := by
  unfold Dev.setJobSt
  repeat' (first
    | exact rfl
    | with_reducible exact Dev.Only.refl _ _ _
    | with_reducible apply Dev.Only.step (Dev.sendJobStatus_only _ _)
    | with_reducible apply Dev.Only.step (Dev.updJob_only _ _ _))

theorem Dev.setDue_only (x0 : Dev) (x1 : Nat) (x2 : Option (Nat × Nat)) :
    Dev.Only 0x400000 0xc000000000000000000000000000000000000000000000000000 x0 (Dev.setDue x0 x1 x2) := by
  unfold Dev.setDue
  repeat' (first
    | with_reducible assumption
    | exact rfl
    | (extract_lets +onlyGivenNames x; first | (refine Dev.Only.have1 x (fun hx => ?_) ?_; clear_value x; rotate_left; subst x) | clear_value x)
    | with_reducible exact Dev.Only.refl _ _ _
    | with_reducible apply Dev.Only.wr
    | split
    | with_reducible apply Dev.Only.with_fire)

theorem Dev.updLane_only (x0 : Dev) (x1 : Nat) (x2 : Lane → Lane) :
    Dev.Only 0x800000 0 x0 (Dev.updLane x0 x1 x2) := by
  unfold Dev.updLane
  repeat' (first
    | exact rfl
    | with_reducible exact Dev.Only.refl _ _ _
    | with_reducible apply Dev.Only.with_lanes)

theorem Dev.updRw_only (x0 : Dev) (x1 : Nat) (x2 : Rwy → Rwy) :
    Dev.Only 0x80000 0 x0 (Dev.updRw x0 x1 x2) := by
  unfold Dev.updRw
  repeat' (first
    | exact rfl
    | with_reducible exact Dev.Only.refl _ _ _
    | with_reducible apply Dev.Only.with_rwy)

theorem Dev.updDp_only (x0 : Dev) (x1 : Nat) (x2 : Dose → Dose) :
    Dev.Only 0x4000 0 x0 (Dev.updDp x0 x1 x2) := by
  unfold Dev.updDp
  repeat' (first
    | exact rfl
    | with_reducible exact Dev.Only.refl _ _ _
    | with_reducible apply Dev.Only.with_dose)

theorem Dev.setMasterRod_only (x0 : Dev) (x1 : Nat) (x2 : Nat) :
    Dev.Only 0x40000 0 x0 (Dev.setMasterRod x0 x1 x2) := by
  unfold Dev.setMasterRod
  repeat' (first
    | exact rfl
    | with_reducible exact Dev.Only.refl _ _ _
    | with_reducible apply Dev.Only.with_rodMaster)

/-! ### Tick -/

theorem Dev.toMain_only (x0 : Dev) (x1 : Int) :
    Dev.Only 0x14080000104 0x8200000000000000000000000000000000000000000000000000000000000000000000000000000000000000000000000000000000000000000000000008040 x0 (Dev.toMain x0 x1) := by
  unfold Dev.toMain
  repeat' (first
    | with_reducible assumption
    | exact rfl
    | (extract_lets +onlyGivenNames x; first | (refine Dev.Only.have1 x (fun hx => ?_) ?_; clear_value x; rotate_left; subst x) | clear_value x)
    | with_reducible exact Dev.Only.refl _ _ _
    | with_reducible apply Dev.Only.step (Dev.raise_only _ _ _)
    | with_reducible apply Dev.Only.wr
    | with_reducible apply Dev.Only.with_tb)

theorem Dev.slewTick_only (x0 : Dev) :
    Dev.Only 0x14080000104 0x8200000000000000000000000000000000000000000000000000000000000000000000000000000000000000000000000000000000000000000000000008040 x0 (Dev.slewTick x0) := by
  unfold Dev.slewTick
  repeat' (first
    | with_reducible assumption
    | exact rfl
    | (extract_lets +onlyGivenNames x; first | (refine Dev.Only.have1 x (fun hx => ?_) ?_; clear_value x; rotate_left; subst x) | clear_value x)
    | with_reducible exact Dev.Only.refl _ _ _
    | with_reducible apply Dev.Only.step (Dev.toMain_only _ _)
    | split
    | with_reducible apply Dev.Only.with_tb)

theorem Dev.linkTick_only (x0 : Dev) :
    Dev.Only 0x8 0 x0 (Dev.linkTick x0) := by
  unfold Dev.linkTick
  repeat' (first
    | exact rfl
    | with_reducible exact Dev.Only.refl _ _ _
    | split
    | with_reducible apply Dev.Only.with_lc)

theorem Dev.timeTick_only (x0 : Dev) :
    Dev.Only 0x14080000104 0x8200000000000000000000000000000000000000000000000000000000000000000000000000000000000000000000000000000000000000000000000008040 x0 (Dev.timeTick x0) := by
  unfold Dev.timeTick
  repeat' (first
    | exact rfl
    | (extract_lets +onlyGivenNames x; clear_value x)
    | with_reducible exact Dev.Only.refl _ _ _
    | with_reducible apply Dev.Only.step (Dev.slewTick_only _)
    | with_reducible apply Dev.Only.with_tb)

theorem Dev.tick_only (x0 : Dev) :
    Dev.Only 0x1408000010c 0x8200000000000000000000000000000000000000000000000000000000000000000000000000000000000000000000000000000000000000000000000008040 x0 (Dev.tick x0) := by
  unfold Dev.tick
  repeat' (first
    | exact rfl
    | with_reducible exact Dev.Only.refl _ _ _
    | with_reducible apply Dev.Only.step (Dev.linkTick_only _)
    | with_reducible apply Dev.Only.step (Dev.timeTick_only _)
    | split)

/-! ### Spoil -/

theorem Dev.updProd_only (x0 : Dev) (x1 : Nat) (x2 : Nat) (x3 : Prod → Prod) :
    Dev.Only 0x1000000 0 x0 (Dev.updProd x0 x1 x2 x3) := by
  unfold Dev.updProd
  repeat' (first
    | exact rfl
    | (extract_lets +onlyGivenNames x; clear_value x)
    | with_reducible exact Dev.Only.refl _ _ _
    | with_reducible apply Dev.Only.with_integ)

theorem Dev.countPtab_only (x0 : Dev) :
    Dev.Only 0 0x3000000000000000000000000000000000000000000000000000000000000000000 x0 (Dev.countPtab x0) := by
  unfold Dev.countPtab
  repeat' (first
    | exact rfl
    | (extract_lets +onlyGivenNames x; clear_value x)
    | with_reducible exact Dev.Only.refl _ _ _
    | with_reducible apply Dev.Only.wr)

theorem Dev.freeProd_only (x0 : Dev) (x1 : Nat) (x2 : Nat) :
    Dev.Only 0x1000000 0x3000000000000000000000000000000000000000000000000000000000000000000 x0 (Dev.freeProd x0 x1 x2) := by
  unfold Dev.freeProd
  repeat' (first
    | exact rfl
    | (extract_lets +onlyGivenNames x; clear_value x)
    | with_reducible exact Dev.Only.refl _ _ _
    | with_reducible apply Dev.Only.step (Dev.countPtab_only _)
    | with_reducible apply Dev.Only.with_integ)

theorem Dev.writeRec_only (x0 : Dev) (x1 : SpRec) :
    Dev.Only 0x14083000100 0x10040000000000000000000000000000000000000000000000000000000000008040 x0 (Dev.writeRec x0 x1) := by
  unfold Dev.writeRec
  repeat' (first
    | with_reducible assumption
    | exact rfl
    | intro e
    | (extract_lets +onlyGivenNames x; first | (refine Dev.Only.have1 x (fun hx => ?_) ?_; clear_value x; rotate_left; subst x)  | (refine Dev.Only.have1 x.1 (fun hx => ?_) ?_; clear_value x; rotate_left; subst x) | (refine Dev.Only.have1 x.2 (fun hx => ?_) ?_; clear_value x; rotate_left; subst x) | (refine Dev.Only.fun1 x ?_; subst x; try dsimp -zeta only) | clear_value x)
    | with_reducible exact Dev.Only.refl _ _ _
    | with_reducible apply Dev.Only.step (Dev.updAccount_only _ _ _)
    | with_reducible apply Dev.Only.step (Dev.raise_only _ _ _)
    | with_reducible apply Dev.Only.forEach
    | with_reducible apply Dev.Only.wr
    | with_reducible apply Dev.Only.inc
    | (with_reducible apply Dev.Only.of_fst; assumption)
    | split
    | with_reducible apply Dev.Only.with_integ)

theorem Dev.writeRecsOf_only (x0 : Dev) (x1 : Nat) (x2 : Nat) :
    Dev.Only 0x14083000100 0x10040000000000000000000000000000000000000000000000000000000000008040 x0 (Dev.writeRecsOf x0 x1 x2) := by
  unfold Dev.writeRecsOf
  repeat' (first
    | with_reducible assumption
    | exact rfl
    | intro e
    | (extract_lets +onlyGivenNames x; first | (refine Dev.Only.have1 x (fun hx => ?_) ?_; clear_value x; rotate_left; subst x) | clear_value x)
    | with_reducible exact Dev.Only.refl _ _ _
    | with_reducible apply Dev.Only.step (Dev.writeRec_only _ _)
    | with_reducible apply Dev.Only.forEach
    | with_reducible apply Dev.Only.with_integ)

theorem Dev.unFirst_only (x0 : Dev) (x1 : Nat) (x2 : Nat) (x3 : Bool) :
    Dev.Only 0x1000000 0 x0 (Dev.unFirst x0 x1 x2 x3) := by
  unfold Dev.unFirst
  repeat' (first
    | with_reducible assumption
    | exact rfl
    | (extract_lets +onlyGivenNames x; first | (refine Dev.Only.have1 x (fun hx => ?_) ?_; clear_value x; rotate_left; subst x)  | (refine Dev.Only.have1 x.1 (fun hx => ?_) ?_; clear_value x; rotate_left; subst x) | (refine Dev.Only.have1 x.2 (fun hx => ?_) ?_; clear_value x; rotate_left; subst x) | (refine Dev.Only.fun1 x ?_; subst x; try dsimp -zeta only) | clear_value x)
    | with_reducible exact Dev.Only.refl _ _ _
    | split
    | with_reducible apply Dev.Only.with_integ)

theorem Dev.openRec_only (x0 : Dev) (x1 : Nat) (x2 : Nat) (x3 : Spoil) (x4 : Bool) (x5 : Bool) :
    Dev.Only 0x14083000100 0x10040000000000000000000000000000000000000000000000000000000000008040 x0 (Dev.openRec x0 x1 x2 x3 x4 x5) := by
  unfold Dev.openRec
  repeat' (first
    | with_reducible assumption
    | exact rfl
    | (extract_lets +onlyGivenNames x; first | (refine Dev.Only.have1 x (fun hx => ?_) ?_; clear_value x; rotate_left; subst x)  | (refine Dev.Only.have1 x.1 (fun hx => ?_) ?_; clear_value x; rotate_left; subst x) | (refine Dev.Only.have1 x.2 (fun hx => ?_) ?_; clear_value x; rotate_left; subst x) | (refine Dev.Only.fun1 x ?_; subst x; try dsimp -zeta only) | clear_value x)
    | with_reducible exact Dev.Only.refl _ _ _
    | with_reducible apply Dev.Only.step (Dev.unFirst_only _ _ _ _)
    | with_reducible apply Dev.Only.step (Dev.writeRec_only _ _)
    | (with_reducible apply Dev.Only.of_fst; assumption)
    | split
    | with_reducible apply Dev.Only.with_integ)

theorem Dev.tellClosed_only (x0 : Dev) (x1 : Prod) :
    Dev.Only 0x8000000 0 x0 (Dev.tellClosed x0 x1) := by
  unfold Dev.tellClosed
  repeat' (first
    | exact rfl
    | (extract_lets +onlyGivenNames x; clear_value x)
    | with_reducible exact Dev.Only.refl _ _ _
    | with_reducible apply Dev.Only.with_loops)

theorem Dev.closeProd_only (x0 : Dev) (x1 : Nat) (x2 : Nat) :
    Dev.Only 0x1408b000100 0x201f040000000000000000000000000000000000000000000000000000000000008040 x0 (Dev.closeProd x0 x1 x2) := by
  unfold Dev.closeProd
  repeat' (first
    | with_reducible assumption
    | exact rfl
    | (extract_lets +onlyGivenNames x; first | (refine Dev.Only.have1 x (fun hx => ?_) ?_; clear_value x; rotate_left; subst x)  | (refine Dev.Only.have1 x.1 (fun hx => ?_) ?_; clear_value x; rotate_left; subst x) | (refine Dev.Only.have1 x.2 (fun hx => ?_) ?_; clear_value x; rotate_left; subst x) | (refine Dev.Only.fun1 x ?_; subst x; try dsimp -zeta only) | clear_value x)
    | with_reducible exact Dev.Only.refl _ _ _
    | with_reducible apply Dev.Only.step (Dev.tellClosed_only _ _)
    | with_reducible apply Dev.Only.step (Dev.writeRecsOf_only _ _ _)
    | with_reducible apply Dev.Only.step (Dev.writeRec_only _ _)
    | with_reducible apply Dev.Only.step (Dev.updAccount_only _ _ _)
    | with_reducible apply Dev.Only.step (Dev.raise_only _ _ _)
    | with_reducible apply Dev.Only.step (Dev.sendAll_only _ _)
    | with_reducible apply Dev.Only.step (Dev.freeProd_only _ _ _)
    | with_reducible apply Dev.Only.step (Dev.updProd_only _ _ _ _)
    | with_reducible apply Dev.Only.incWrap
    | with_reducible apply Dev.Only.inc
    | (with_reducible apply Dev.Only.of_fst; assumption)
    | split)

theorem Dev.releaseTally_only (x0 : Dev) (x1 : Nat) (x2 : Nat) (x3 : Nat) :
    Dev.Only 0x1000000 0 x0 (Dev.releaseTally x0 x1 x2 x3) := by
  unfold Dev.releaseTally
  repeat' (first
    | exact rfl
    | (extract_lets +onlyGivenNames x; clear_value x)
    | with_reducible exact Dev.Only.refl _ _ _
    | with_reducible apply Dev.Only.with_integ)

theorem Dev.closeDue_only (x0 : Dev) :
    Dev.Only 0x1408b000100 0x201f040000000000000000000000000000000000000000000000000000000000008040 x0 (Dev.closeDue x0) := by
  unfold Dev.closeDue
  repeat' (first
    | with_reducible assumption
    | exact rfl
    | intro e
    | with_reducible exact Dev.Only.refl _ _ _
    | with_reducible apply Dev.Only.step (Dev.closeProd_only _ _ _)
    | with_reducible apply Dev.Only.forEach
    | split)

theorem Dev.applySpoil_only (x0 : Dev) (x1 : Prod) (x2 : Spoil) :
    Dev.Only 0x14083000100 0x10140000000000000000000000000000000000000000000000000000000000008040 x0 (Dev.applySpoil x0 x1 x2) := by
  unfold Dev.applySpoil
  repeat' (first
    | with_reducible assumption
    | exact rfl
    | (extract_lets +onlyGivenNames x; first | (refine Dev.Only.have1 x (fun hx => ?_) ?_; clear_value x; rotate_left; subst x)  | (refine Dev.Only.have1 x.1 (fun hx => ?_) ?_; clear_value x; rotate_left; subst x) | (refine Dev.Only.have1 x.2 (fun hx => ?_) ?_; clear_value x; rotate_left; subst x) | (refine Dev.Only.fun1 x ?_; subst x; try dsimp -zeta only) | clear_value x)
    | with_reducible exact Dev.Only.refl _ _ _
    | with_reducible apply Dev.Only.step (Dev.updProd_only _ _ _ _)
    | with_reducible apply Dev.Only.step (Dev.releaseTally_only _ _ _ _)
    | with_reducible apply Dev.Only.step (Dev.openRec_only _ _ _ _ _ _)
    | with_reducible apply Dev.Only.step (Dev.updAccount_only _ _ _)
    | with_reducible apply Dev.Only.step (Dev.raise_only _ _ _)
    | with_reducible apply Dev.Only.wr
    | split)

theorem Dev.spoilEntry_only (x0 : Dev) (x1 : Prod) (x2 : Spoil) :
    Dev.Only 0x1408b000100 0x201f140000000000000000000000000000000000000000000000000000000000008040 x0 (Dev.spoilEntry x0 x1 x2) := by
  unfold Dev.spoilEntry
  repeat' (first
    | with_reducible assumption
    | exact rfl
    | with_reducible exact Dev.Only.refl _ _ _
    | with_reducible apply Dev.Only.step (Dev.closeProd_only _ _ _)
    | with_reducible apply Dev.Only.step (Dev.applySpoil_only _ _ _)
    | split)

theorem Dev.holdSpoil_only (x0 : Dev) (x1 : Nat) (x2 : Nat) (x3 : Spoil) :
    Dev.Only 0x1000000 0 x0 (Dev.holdSpoil x0 x1 x2 x3) := by
  unfold Dev.holdSpoil
  repeat' (first
    | exact rfl
    | (extract_lets +onlyGivenNames x; first | (refine Dev.Only.fun1 x ?_; subst x; try dsimp -zeta only) | clear_value x)
    | with_reducible exact Dev.Only.refl _ _ _
    | with_reducible apply Dev.Only.with_integ)

theorem Dev.spoilProduct_only (x0 : Dev) (x1 : Nat) (x2 : Nat) (x3 : Spoil) :
    Dev.Only 0x1408b000100 0x201f140000000000000000000000000000000000000000000000000000000000008040 x0 (Dev.spoilProduct x0 x1 x2 x3) := by
  unfold Dev.spoilProduct
  repeat' (first
    | exact rfl
    | with_reducible exact Dev.Only.refl _ _ _
    | with_reducible apply Dev.Only.step (Dev.holdSpoil_only _ _ _ _)
    | with_reducible apply Dev.Only.step (Dev.spoilEntry_only _ _ _)
    | split)

theorem Dev.spoilLines_only (x0 : Dev) (x1 : SpReason) (x2 : Nat) (x3 : Nat) (x4 : Nat) (x5 : List Nat) (x6 : List Nat) :
    Dev.Only 0x1408b000100 0x201f140000000000000000000000000000000000000000000000000000000000008040 x0 (Dev.spoilLines x0 x1 x2 x3 x4 x5 x6) := by
  unfold Dev.spoilLines
  repeat' (first
    | with_reducible assumption
    | exact rfl
    | intro e
    | with_reducible exact Dev.Only.refl _ _ _
    | with_reducible apply Dev.Only.step (Dev.spoilProduct_only _ _ _ _)
    | with_reducible apply Dev.Only.forEach)

theorem Dev.spoilBarLine_only (x0 : Dev) (x1 : SpReason) (x2 : Nat) (x3 : Nat) (x4 : Nat) :
    Dev.Only 0x1408b000100 0x201f140000000000000000000000000000000000000000000000000000000000008040 x0 (Dev.spoilBarLine x0 x1 x2 x3 x4) := by
  unfold Dev.spoilBarLine
  repeat' (first
    | exact rfl
    | with_reducible exact Dev.Only.refl _ _ _
    | with_reducible apply Dev.Only.step (Dev.spoilLines_only _ _ _ _ _ _ _))

theorem Dev.spoilHeadLine_only (x0 : Dev) (x1 : SpReason) (x2 : Nat) (x3 : Nat) (x4 : Nat) (x5 : Nat) :
    Dev.Only 0x1408b000100 0x201f140000000000000000000000000000000000000000000000000000000000008040 x0 (Dev.spoilHeadLine x0 x1 x2 x3 x4 x5) := by
  unfold Dev.spoilHeadLine
  repeat' (first
    | exact rfl
    | with_reducible exact Dev.Only.refl _ _ _
    | with_reducible apply Dev.Only.step (Dev.spoilLines_only _ _ _ _ _ _ _))

theorem Dev.spoilWhole_only (x0 : Dev) (x1 : SpReason) (x2 : Nat) (x3 : Nat) (x4 : Nat) (x5 : Nat) :
    Dev.Only 0x1408b000100 0x201f140000000000000000000000000000000000000000000000000000000000008040 x0 (Dev.spoilWhole x0 x1 x2 x3 x4 x5) := by
  unfold Dev.spoilWhole
  repeat' (first
    | exact rfl
    | with_reducible exact Dev.Only.refl _ _ _
    | with_reducible apply Dev.Only.step (Dev.spoilProduct_only _ _ _ _))

theorem Dev.settleLine_only (x0 : Dev) (x1 : Nat) (x2 : Nat) (x3 : Nat) :
    Dev.Only 0x1408b000100 0x201f040000000000000000000000000000000000000000000000000000000000008040 x0 (Dev.settleLine x0 x1 x2 x3) := by
  unfold Dev.settleLine
  repeat' (first
    | exact rfl
    | with_reducible exact Dev.Only.refl _ _ _
    | with_reducible apply Dev.Only.step (Dev.closeProd_only _ _ _)
    | with_reducible apply Dev.Only.step (Dev.updProd_only _ _ _ _)
    | split)

theorem Dev.allocProd_only (x0 : Dev) (x1 : Nat) (x2 : Nat) (x3 : Nat) (x4 : Nat) (x5 : Int) (x6 : Int) :
    Dev.Only 0x1408b000300 0x201f140000000000000000000000000000000000000000000000000000000000008040 x0 (Dev.allocProd x0 x1 x2 x3 x4 x5 x6) := by
  unfold Dev.allocProd
  repeat' (first
    | with_reducible assumption
    | exact rfl
    | intro e
    | (extract_lets +onlyGivenNames x; first | (refine Dev.Only.have1 x (fun hx => ?_) ?_; clear_value x; rotate_left; subst x)  | (refine Dev.Only.have1 x.1 (fun hx => ?_) ?_; clear_value x; rotate_left; subst x) | (refine Dev.Only.have1 x.2 (fun hx => ?_) ?_; clear_value x; rotate_left; subst x) | (refine Dev.Only.fun1 x ?_; subst x; try dsimp -zeta only) | clear_value x)
    | with_reducible exact Dev.Only.refl _ _ _
    | with_reducible apply Dev.Only.step (Dev.countPtab_only _)
    | with_reducible apply Dev.Only.step (Dev.updJob_only _ _ _)
    | with_reducible apply Dev.Only.step (Dev.applySpoil_only _ _ _)
    | with_reducible apply Dev.Only.step (Dev.closeProd_only _ _ _)
    | with_reducible apply Dev.Only.forEach
    | (with_reducible apply Dev.Only.of_fst; assumption)
    | split
    | with_reducible apply Dev.Only.with_integ)

theorem Dev.retireSent_only (x0 : Dev) :
    Dev.Only 0x1400000 0 x0 (Dev.retireSent x0) := by
  unfold Dev.retireSent
  repeat' (first
    | with_reducible assumption
    | exact rfl
    | (extract_lets +onlyGivenNames x; first | (refine Dev.Only.have1 x (fun hx => ?_) ?_; clear_value x; rotate_left; subst x)  | (refine Dev.Only.have1 x.1 (fun hx => ?_) ?_; clear_value x; rotate_left; subst x) | (refine Dev.Only.have1 x.2 (fun hx => ?_) ?_; clear_value x; rotate_left; subst x) | (refine Dev.Only.fun1 x ?_; subst x; try dsimp -zeta only) | clear_value x)
    | with_reducible exact Dev.Only.refl _ _ _
    | split
    | with_reducible apply Dev.Only.with_fire_integ
    | with_reducible apply Dev.Only.with_integ)

theorem Dev.spoilInFlight_only (x0 : Dev) (x1 : SpReason) (x2 : Option Nat) :
    Dev.Only 0x1408b400100 0x201f140000000000000000000000000000000000000000000000000000000000008040 x0 (Dev.spoilInFlight x0 x1 x2) := by
  unfold Dev.spoilInFlight
  repeat' (first
    | with_reducible assumption
    | exact rfl
    | intro e
    | (extract_lets +onlyGivenNames x; (refine Dev.Only.have1 x (fun hx => ?_) ?_; clear_value x; rotate_left; subst x))
    | with_reducible exact Dev.Only.refl _ _ _
    | with_reducible apply Dev.Only.step (Dev.retireSent_only _)
    | with_reducible apply Dev.Only.step (Dev.spoilWhole_only _ _ _ _ _ _)
    | with_reducible apply Dev.Only.forEach)

/-! ### Hold -/

theorem Dev.ringSend_only (x0 : Dev) (x1 : RingPay) :
    Dev.Only 0x10000000000 0 x0 (Dev.ringSend x0 x1) := by
  unfold Dev.ringSend
  repeat' (first
    | exact rfl
    | with_reducible exact Dev.Only.refl _ _ _
    | with_reducible apply Dev.Only.step (Dev.emit_only _ _)
    | split)

theorem Dev.ringHold_only (x0 : Dev) (x1 : Bool) :
    Dev.Only 0x12000000000 0 x0 (Dev.ringHold x0 x1) := by
  unfold Dev.ringHold
  repeat' (first
    | with_reducible assumption
    | exact rfl
    | (extract_lets +onlyGivenNames x; first | (refine Dev.Only.have1 x (fun hx => ?_) ?_; clear_value x; rotate_left; subst x) | clear_value x)
    | with_reducible exact Dev.Only.refl _ _ _
    | with_reducible apply Dev.Only.step (Dev.ringSend_only _ _)
    | split
    | with_reducible apply Dev.Only.with_ring)

theorem Dev.holdCause_only (x0 : Dev) (x1 : HoldBit) :
    Dev.Only 0x10000000180 0x10 x0 (Dev.holdCause x0 x1) := by
  unfold Dev.holdCause
  repeat' (first
    | with_reducible assumption
    | exact rfl
    | (extract_lets +onlyGivenNames x; (refine Dev.Only.have1 x (fun hx => ?_) ?_; clear_value x; rotate_left; subst x))
    | with_reducible exact Dev.Only.refl _ _ _
    | with_reducible apply Dev.Only.step (Dev.setHold_only _ _ _)
    | with_reducible apply Dev.Only.with_holdSeen)

theorem Dev.clearHold_only (x0 : Dev) (x1 : HoldBit) :
    Dev.Only 0x12000000100 0x10 x0 (Dev.clearHold x0 x1) := by
  unfold Dev.clearHold
  repeat' (first
    | with_reducible assumption
    | exact rfl
    | (extract_lets +onlyGivenNames x; first | (refine Dev.Only.have1 x (fun hx => ?_) ?_; clear_value x; rotate_left; subst x) | clear_value x)
    | with_reducible exact Dev.Only.refl _ _ _
    | with_reducible apply Dev.Only.step (Dev.ringHold_only _ _)
    | with_reducible apply Dev.Only.step (Dev.setHold_only _ _ _)
    | split)

theorem Dev.zlSend_only (x0 : Dev) (x1 : Nat) (x2 : ZlFrame) :
    Dev.Only 0x10000800000 0 x0 (Dev.zlSend x0 x1 x2) := by
  unfold Dev.zlSend
  repeat' (first
    | with_reducible assumption
    | exact rfl
    | (extract_lets +onlyGivenNames x; first | (refine Dev.Only.have1 x (fun hx => ?_) ?_; clear_value x; rotate_left; subst x)  | (refine Dev.Only.have1 x.1 (fun hx => ?_) ?_; clear_value x; rotate_left; subst x) | (refine Dev.Only.have1 x.2 (fun hx => ?_) ?_; clear_value x; rotate_left; subst x) | (refine Dev.Only.fun1 x ?_; subst x; try dsimp -zeta only) | clear_value x)
    | with_reducible exact Dev.Only.refl _ _ _
    | with_reducible apply Dev.Only.step (Dev.updLane_only _ _ _)
    | with_reducible apply Dev.Only.step (Dev.emit_only _ _)
    | split)

theorem Dev.sendFire_only (x0 : Dev) (x1 : Nat) (x2 : Nat) (x3 : SentHead) (x4 : Bool) (x5 : Bool) :
    Dev.Only 0x10000800000 0 x0 (Dev.sendFire x0 x1 x2 x3 x4 x5) := by
  unfold Dev.sendFire
  repeat' (first
    | exact rfl
    | with_reducible exact Dev.Only.refl _ _ _
    | with_reducible apply Dev.Only.step (Dev.zlSend_only _ _ _))

theorem Dev.withdraw_only (x0 : Dev) (x1 : SentLine) :
    Dev.Only 0x10000c00000 0 x0 (Dev.withdraw x0 x1) := by
  unfold Dev.withdraw
  repeat' (first
    | with_reducible assumption
    | exact rfl
    | intro e
    | (extract_lets +onlyGivenNames x; first | (refine Dev.Only.have1 x (fun hx => ?_) ?_; clear_value x; rotate_left; subst x)  | (refine Dev.Only.have1 x.1 (fun hx => ?_) ?_; clear_value x; rotate_left; subst x) | (refine Dev.Only.have1 x.2 (fun hx => ?_) ?_; clear_value x; rotate_left; subst x) | (refine Dev.Only.fun1 x ?_; subst x; try dsimp -zeta only) | clear_value x)
    | with_reducible exact Dev.Only.refl _ _ _
    | with_reducible apply Dev.Only.step (Dev.sendFire_only _ _ _ _ _ _)
    | with_reducible apply Dev.Only.forEach
    | split
    | with_reducible apply Dev.Only.with_fire)

theorem Dev.stopFiring_only (x0 : Dev) :
    Dev.Only 0x10001c00000 0 x0 (Dev.stopFiring x0) := by
  unfold Dev.stopFiring
  repeat' (first
    | with_reducible assumption
    | exact rfl
    | intro e
    | (extract_lets +onlyGivenNames x; (refine Dev.Only.have1 x (fun hx => ?_) ?_; clear_value x; rotate_left; subst x))
    | with_reducible exact Dev.Only.refl _ _ _
    | with_reducible apply Dev.Only.step (Dev.retireSent_only _)
    | with_reducible apply Dev.Only.step (Dev.withdraw_only _ _)
    | with_reducible apply Dev.Only.forEach
    | split)

theorem Dev.loadSkip_only (x0 : Dev) (x1 : Nat) :
    Dev.Only 0 0xc000000000000000000000000000000000000 x0 (Dev.loadSkip x0 x1) := by
  unfold Dev.loadSkip
  repeat' (first
    | exact rfl
    | with_reducible exact Dev.Only.refl _ _ _
    | with_reducible apply Dev.Only.wr
    | split)

theorem Dev.orderSkips_only (x0 : Dev) :
    Dev.Only 0x400000 0xc000000000000000000000000000000000000 x0 (Dev.orderSkips x0) := by
  unfold Dev.orderSkips
  repeat' (first
    | with_reducible assumption
    | exact rfl
    | intro e
    | (extract_lets +onlyGivenNames x; first | (refine Dev.Only.have1 x (fun hx => ?_) ?_; clear_value x; rotate_left; subst x) | (refine Dev.Only.fun1 x ?_; subst x; try dsimp -zeta only) | clear_value x)
    | with_reducible exact Dev.Only.refl _ _ _
    | with_reducible apply Dev.Only.step (Dev.loadSkip_only _ _)
    | with_reducible apply Dev.Only.forEach
    | with_reducible apply Dev.Only.with_fire)

theorem Dev.enterHold_only (x0 : Dev) :
    Dev.Only 0x1e88bc00180 0x201f14000000000000000000000000000c000000000000000000000000000000008048 x0 (Dev.enterHold x0) := by
  unfold Dev.enterHold
  repeat' (first
    | with_reducible assumption
    | exact rfl
    | (extract_lets +onlyGivenNames x; first | (refine Dev.Only.have1 x (fun hx => ?_) ?_; clear_value x; rotate_left; subst x) | clear_value x)
    | with_reducible exact Dev.Only.refl _ _ _
    | with_reducible apply Dev.Only.step (Dev.enter_only _ _)
    | with_reducible apply Dev.Only.step (Dev.orderSkips_only _)
    | with_reducible apply Dev.Only.step (Dev.ringHold_only _ _)
    | with_reducible apply Dev.Only.step (Dev.spoilInFlight_only _ _ _)
    | with_reducible apply Dev.Only.step (Dev.stopFiring_only _)
    | split
    | with_reducible apply Dev.Only.with_holdSeen)

theorem Dev.shutdown_only (x0 : Dev) (x1 : Nat) (x2 : Nat) :
    Dev.Only 0x40 0 x0 (Dev.shutdown x0 x1 x2) := by
  unfold Dev.shutdown
  repeat' (first
    | with_reducible assumption
    | exact rfl
    | (extract_lets +onlyGivenNames x; first | (refine Dev.Only.have1 x (fun hx => ?_) ?_; clear_value x; rotate_left; subst x)  | (refine Dev.Only.have1 x.1 (fun hx => ?_) ?_; clear_value x; rotate_left; subst x) | (refine Dev.Only.have1 x.2 (fun hx => ?_) ?_; clear_value x; rotate_left; subst x) | (refine Dev.Only.fun1 x ?_; subst x; try dsimp -zeta only) | clear_value x)
    | with_reducible exact Dev.Only.refl _ _ _
    | (with_reducible apply Dev.Only.of_fst; assumption)
    | split
    | with_reducible apply Dev.Only.with_shut)

theorem Dev.enterShutdown_only (x0 : Dev) (x1 : Shut) (x2 : Nat) (x3 : Nat) :
    Dev.Only 0x1e88bc00140 0x201f140000000000000000000000000000000000000000000000000000000000008048 x0 (Dev.enterShutdown x0 x1 x2 x3) := by
  unfold Dev.enterShutdown
  repeat' (first
    | with_reducible assumption
    | exact rfl
    | (extract_lets +onlyGivenNames x; first | (refine Dev.Only.have1 x (fun hx => ?_) ?_; clear_value x; rotate_left; subst x)  | (refine Dev.Only.have1 x.1 (fun hx => ?_) ?_; clear_value x; rotate_left; subst x) | (refine Dev.Only.have1 x.2 (fun hx => ?_) ?_; clear_value x; rotate_left; subst x) | (refine Dev.Only.fun1 x ?_; subst x; try dsimp -zeta only) | clear_value x)
    | with_reducible exact Dev.Only.refl _ _ _
    | with_reducible apply Dev.Only.step (Dev.stopFiring_only _)
    | with_reducible apply Dev.Only.step (Dev.spoilInFlight_only _ _ _)
    | with_reducible apply Dev.Only.step (Dev.ringHold_only _ _)
    | with_reducible apply Dev.Only.step (Dev.enter_only _ _)
    | split
    | with_reducible apply Dev.Only.with_shut)

theorem Dev.raiseFatal_only (x0 : Dev) (x1 : Nat) (x2 : EvCode) (x3 : List Byte) :
    Dev.Only 0x14080000162 0x400000008040 x0 (Dev.raiseFatal x0 x1 x2 x3) := by
  unfold Dev.raiseFatal
  repeat' (first
    | exact rfl
    | with_reducible exact Dev.Only.refl _ _ _
    | with_reducible apply Dev.Only.step (Dev.logWrite_only _ _)
    | with_reducible apply Dev.Only.step (Dev.raise_only _ _ _)
    | with_reducible apply Dev.Only.step (Dev.shutdown_only _ _ _))

/-! ### Predict -/

theorem Dev.refreshSpeed_only (x0 : Dev) :
    Dev.Only 0 0xc8000000000000000000000000000000000000000000 x0 (Dev.refreshSpeed x0) := by
  unfold Dev.refreshSpeed
  repeat' (first
    | with_reducible assumption
    | exact rfl
    | (extract_lets +onlyGivenNames x; first | (refine Dev.Only.have1 x (fun hx => ?_) ?_; clear_value x; rotate_left; subst x) | clear_value x)
    | with_reducible exact Dev.Only.refl _ _ _
    | with_reducible apply Dev.Only.wr)

/-! ### Place -/

theorem Dev.trimCopy_only (x0 : Dev) (x1 : Nat) (x2 : Pl) (x3 : Nat) :
    Dev.Only 0x8400000 0x18000000000000000000000000000000000000000000000000 x0 (Dev.trimCopy x0 x1 x2 x3) := by
  unfold Dev.trimCopy
  repeat' (first
    | with_reducible assumption
    | exact rfl
    | (extract_lets +onlyGivenNames x; first | (refine Dev.Only.have1 x (fun hx => ?_) ?_; clear_value x; rotate_left; subst x) | clear_value x)
    | with_reducible exact Dev.Only.refl _ _ _
    | with_reducible apply Dev.Only.wr
    | split
    | with_reducible apply Dev.Only.with_fire_loops)

theorem Dev.moveDue_only (x0 : Dev) (x1 : Nat) (x2 : Option (Nat × Nat)) :
    Dev.Only 0x8400000 0xc018000000000000000000000000000000000000000000000000 x0 (Dev.moveDue x0 x1 x2) := by
  unfold Dev.moveDue
  repeat' (first
    | with_reducible assumption
    | exact rfl
    | (extract_lets +onlyGivenNames x; (refine Dev.Only.have1 x (fun hx => ?_) ?_; clear_value x; rotate_left; subst x))
    | with_reducible exact Dev.Only.refl _ _ _
    | with_reducible apply Dev.Only.step (Dev.setDue_only _ _ _)
    | with_reducible apply Dev.Only.step (Dev.trimCopy_only _ _ _ _)
    | split)

theorem Dev.passLines_only (x0 : Dev) (x1 : Nat) (x2 : Nat) (x3 : Nat) :
    Dev.Only 0x8400000 0xc018000000000000000000000000000000000000000000000000 x0 (Dev.passLines x0 x1 x2 x3) := by
  unfold Dev.passLines
  repeat' (first
    | with_reducible assumption
    | exact rfl
    | intro e
    | with_reducible exact Dev.Only.refl _ _ _
    | with_reducible apply Dev.Only.step (Dev.moveDue_only _ _ _)
    | with_reducible apply Dev.Only.forEach
    | (with_reducible apply Dev.Only.of_fst; assumption)
    | split)

theorem Dev.wrOrigin_only (x0 : Dev) (x1 : Nat) (x2 : Int) :
    Dev.Only 0 0x380000000000000000000000000000000000000000000000000 x0 (Dev.wrOrigin x0 x1 x2) := by
  unfold Dev.wrOrigin
  repeat' (first
    | exact rfl
    | (extract_lets +onlyGivenNames x; clear_value x)
    | with_reducible exact Dev.Only.refl _ _ _
    | with_reducible apply Dev.Only.wr)

theorem Dev.jobFirst_only (x0 : Dev) (x1 : Nat) :
    Dev.Only 0x200 0 x0 (Dev.jobFirst x0 x1) := by
  unfold Dev.jobFirst
  repeat' (first
    | exact rfl
    | with_reducible exact Dev.Only.refl _ _ _
    | with_reducible apply Dev.Only.with_jobs)

theorem Dev.place_only (x0 : Dev) (x1 : Nat) (x2 : Int) :
    Dev.Only 0x10008402300 0xffd8000000000000000000000000000000000000000000000000 x0 (Dev.place x0 x1 x2) := by
  unfold Dev.place
  repeat' (first
    | with_reducible assumption
    | exact rfl
    | intro e
    | (extract_lets +onlyGivenNames x; first | (refine Dev.Only.have1 x (fun hx => ?_) ?_; clear_value x; rotate_left; subst x)  | (refine Dev.Only.have1 x.1 (fun hx => ?_) ?_; clear_value x; rotate_left; subst x) | (refine Dev.Only.have1 x.2 (fun hx => ?_) ?_; clear_value x; rotate_left; subst x) | (refine Dev.Only.fun1 x ?_; subst x; try dsimp -zeta only) | clear_value x)
    | with_reducible exact Dev.Only.refl _ _ _
    | with_reducible apply Dev.Only.step (Dev.wrOrigin_only _ _ _)
    | with_reducible apply Dev.Only.step (Dev.moveDue_only _ _ _)
    | with_reducible apply Dev.Only.step (Dev.setJobSt_only _ _ _)
    | with_reducible apply Dev.Only.forEach
    | with_reducible apply Dev.Only.wr
    | (with_reducible apply Dev.Only.of_fst; assumption)
    | split
    | with_reducible apply Dev.Only.with_rk
    | with_reducible apply Dev.Only.with_fire)

theorem Dev.purgeRender_only (x0 : Dev) (x1 : Nat) (x2 : Bool) :
    Dev.Only 0x2000 0 x0 (Dev.purgeRender x0 x1 x2) := by
  unfold Dev.purgeRender
  repeat' (first
    | with_reducible assumption
    | exact rfl
    | (extract_lets +onlyGivenNames x; first | (refine Dev.Only.have1 x (fun hx => ?_) ?_; clear_value x; rotate_left; subst x)  | (refine Dev.Only.have1 x.1 (fun hx => ?_) ?_; clear_value x; rotate_left; subst x) | (refine Dev.Only.have1 x.2 (fun hx => ?_) ?_; clear_value x; rotate_left; subst x) | (refine Dev.Only.fun1 x ?_; subst x; try dsimp -zeta only) | clear_value x)
    | with_reducible exact Dev.Only.refl _ _ _
    | (with_reducible apply Dev.Only.of_fst; assumption)
    | split
    | with_reducible apply Dev.Only.with_rk)

theorem Dev.purge_only (x0 : Dev) (x1 : Nat) (x2 : optParam Bool true) :
    Dev.Only 0x886000 0 x0 (Dev.purge x0 x1 x2) := by
  unfold Dev.purge
  repeat' (first
    | with_reducible assumption
    | exact rfl
    | intro e
    | (extract_lets +onlyGivenNames x; first | (refine Dev.Only.have1 x (fun hx => ?_) ?_; clear_value x; rotate_left; subst x)  | (refine Dev.Only.have1 x.1 (fun hx => ?_) ?_; clear_value x; rotate_left; subst x) | (refine Dev.Only.have1 x.2 (fun hx => ?_) ?_; clear_value x; rotate_left; subst x) | (refine Dev.Only.fun1 x ?_; subst x; try dsimp -zeta only) | clear_value x)
    | with_reducible exact Dev.Only.refl _ _ _
    | with_reducible apply Dev.Only.step (Dev.purgeRender_only _ _ _)
    | with_reducible apply Dev.Only.step (Dev.updRw_only _ _ _)
    | with_reducible apply Dev.Only.step (Dev.updDp_only _ _ _)
    | with_reducible apply Dev.Only.step (Dev.updLane_only _ _ _)
    | with_reducible apply Dev.Only.forEach
    | split)

theorem Dev.endJob_only (x0 : Dev) (x1 : Nat) (x2 : JobState) (x3 : Nat) :
    Dev.Only 0x10000002700 0 x0 (Dev.endJob x0 x1 x2 x3) := by
  unfold Dev.endJob
  repeat' (first
    | with_reducible assumption
    | exact rfl
    | (extract_lets +onlyGivenNames x; first | (refine Dev.Only.have1 x (fun hx => ?_) ?_; clear_value x; rotate_left; subst x) | clear_value x)
    | with_reducible exact Dev.Only.refl _ _ _
    | with_reducible apply Dev.Only.step (Dev.setJobSt_only _ _ _)
    | with_reducible apply Dev.Only.step (Dev.updJob_only _ _ _)
    | with_reducible apply Dev.Only.with_jobs_ended_rk)

theorem Dev.maybeDone_only (x0 : Dev) (x1 : Nat) :
    Dev.Only 0x10000002700 0 x0 (Dev.maybeDone x0 x1) := by
  unfold Dev.maybeDone
  repeat' (first
    | with_reducible assumption
    | exact rfl
    | (extract_lets +onlyGivenNames x; first | (refine Dev.Only.have1 x (fun hx => ?_) ?_; clear_value x; rotate_left; subst x)  | (refine Dev.Only.have1 x.1 (fun hx => ?_) ?_; clear_value x; rotate_left; subst x) | (refine Dev.Only.have1 x.2 (fun hx => ?_) ?_; clear_value x; rotate_left; subst x) | (refine Dev.Only.fun1 x ?_; subst x; try dsimp -zeta only) | clear_value x)
    | with_reducible exact Dev.Only.refl _ _ _
    | with_reducible apply Dev.Only.step (Dev.endJob_only _ _ _ _)
    | (with_reducible apply Dev.Only.of_fst; assumption)
    | split)

theorem Dev.freeEntries_only (x0 : Dev) :
    Dev.Only 0x10001402700 0x400000000000000000000000000000000000000000000000000 x0 (Dev.freeEntries x0) := by
  unfold Dev.freeEntries
  repeat' (first
    | with_reducible assumption
    | exact rfl
    | intro e
    | (extract_lets +onlyGivenNames x; first | (refine Dev.Only.have1 x (fun hx => ?_) ?_; clear_value x; rotate_left; subst x)  | (refine Dev.Only.have1 x.1 (fun hx => ?_) ?_; clear_value x; rotate_left; subst x) | (refine Dev.Only.have1 x.2 (fun hx => ?_) ?_; clear_value x; rotate_left; subst x) | (refine Dev.Only.fun1 x ?_; subst x; try dsimp -zeta only) | clear_value x)
    | with_reducible exact Dev.Only.refl _ _ _
    | with_reducible apply Dev.Only.step (Dev.retireSent_only _)
    | with_reducible apply Dev.Only.step (Dev.maybeDone_only _ _)
    | with_reducible apply Dev.Only.forEach
    | with_reducible apply Dev.Only.wr
    | split
    | with_reducible apply Dev.Only.with_fire)

theorem Dev.dropLines_only (x0 : Dev) (x1 : Nat) (x2 : Nat) (x3 : Nat) :
    Dev.Only 0x10009402700 0xc418000000000000000000000000000000000000000000000000 x0 (Dev.dropLines x0 x1 x2 x3) := by
  unfold Dev.dropLines
  repeat' (first
    | with_reducible assumption
    | exact rfl
    | (extract_lets +onlyGivenNames x; first | (refine Dev.Only.have1 x (fun hx => ?_) ?_; clear_value x; rotate_left; subst x)  | (refine Dev.Only.have1 x.1 (fun hx => ?_) ?_; clear_value x; rotate_left; subst x) | (refine Dev.Only.have1 x.2 (fun hx => ?_) ?_; clear_value x; rotate_left; subst x) | (refine Dev.Only.fun1 x ?_; subst x; try dsimp -zeta only) | clear_value x)
    | with_reducible exact Dev.Only.refl _ _ _
    | with_reducible apply Dev.Only.step (Dev.freeEntries_only _)
    | with_reducible apply Dev.Only.step (Dev.passLines_only _ _ _ _)
    | split
    | with_reducible apply Dev.Only.with_fire)

theorem Dev.notPrinted_only (x0 : Dev) (x1 : Nat) (x2 : Nat) :
    Dev.Only 0x2000000 0 x0 (Dev.notPrinted x0 x1 x2) := by
  unfold Dev.notPrinted
  repeat' (first
    | exact rfl
    | with_reducible exact Dev.Only.refl _ _ _
    | with_reducible apply Dev.Only.step (Dev.updAccount_only _ _ _)
    | split)

theorem Dev.lowerLines_only (x0 : Dev) (x1 : Nat) (x2 : Nat) :
    Dev.Only 0x1000bc82700 0xe418000000000000000000000000000000000000000000000000 x0 (Dev.lowerLines x0 x1 x2) := by
  unfold Dev.lowerLines
  repeat' (first
    | with_reducible assumption
    | exact rfl
    | intro e
    | (extract_lets +onlyGivenNames x; first | (refine Dev.Only.have1 x (fun hx => ?_) ?_; clear_value x; rotate_left; subst x)  | (refine Dev.Only.have1 x.1 (fun hx => ?_) ?_; clear_value x; rotate_left; subst x) | (refine Dev.Only.have1 x.2 (fun hx => ?_) ?_; clear_value x; rotate_left; subst x) | (refine Dev.Only.fun1 x ?_; subst x; try dsimp -zeta only) | clear_value x)
    | with_reducible exact Dev.Only.refl _ _ _
    | with_reducible apply Dev.Only.step (Dev.notPrinted_only _ _ _)
    | with_reducible apply Dev.Only.step (Dev.updJob_only _ _ _)
    | with_reducible apply Dev.Only.step (Dev.updRw_only _ _ _)
    | with_reducible apply Dev.Only.step (Dev.updLane_only _ _ _)
    | with_reducible apply Dev.Only.step (Dev.dropLines_only _ _ _ _)
    | with_reducible apply Dev.Only.forEach
    | with_reducible apply Dev.Only.wr
    | (with_reducible apply Dev.Only.of_fst; assumption)
    | split)

theorem Dev.cutFront_only (x0 : Dev) (x1 : Nat) (x2 : Nat) :
    Dev.Only 0x2000 0 x0 (Dev.cutFront x0 x1 x2) := by
  unfold Dev.cutFront
  repeat' (first
    | with_reducible assumption
    | exact rfl
    | (extract_lets +onlyGivenNames x; first | (refine Dev.Only.have1 x (fun hx => ?_) ?_; clear_value x; rotate_left; subst x)  | (refine Dev.Only.have1 x.1 (fun hx => ?_) ?_; clear_value x; rotate_left; subst x) | (refine Dev.Only.have1 x.2 (fun hx => ?_) ?_; clear_value x; rotate_left; subst x) | (refine Dev.Only.fun1 x ?_; subst x; try dsimp -zeta only) | clear_value x)
    | with_reducible exact Dev.Only.refl _ _ _
    | split
    | with_reducible apply Dev.Only.with_rk)

theorem Dev.endAfter_only (x0 : Dev) (x1 : Nat) (x2 : Nat) :
    Dev.Only 0x1000bc82700 0xe418000000000000000000000000000000000000000000000000 x0 (Dev.endAfter x0 x1 x2) := by
  unfold Dev.endAfter
  repeat' (first
    | with_reducible assumption
    | exact rfl
    | (extract_lets +onlyGivenNames x; first | (refine Dev.Only.have1 x (fun hx => ?_) ?_; clear_value x; rotate_left; subst x)  | (refine Dev.Only.have1 x.1 (fun hx => ?_) ?_; clear_value x; rotate_left; subst x) | (refine Dev.Only.have1 x.2 (fun hx => ?_) ?_; clear_value x; rotate_left; subst x) | (refine Dev.Only.fun1 x ?_; subst x; try dsimp -zeta only) | clear_value x)
    | with_reducible exact Dev.Only.refl _ _ _
    | with_reducible apply Dev.Only.step (Dev.updJob_only _ _ _)
    | with_reducible apply Dev.Only.step (Dev.cutFront_only _ _ _)
    | with_reducible apply Dev.Only.step (Dev.lowerLines_only _ _ _)
    | with_reducible apply Dev.Only.step (Dev.notPrinted_only _ _ _)
    | (with_reducible apply Dev.Only.of_fst; assumption)
    | split)

/-! ### Bus -/

theorem Dev.protRefuse_only (x0 : Dev) (x1 : Nat) (x2 : Nat) (x3 : Nat) (x4 : Bool) :
    Dev.Only 0x14080000100 0xfc0000000008040 x0 (Dev.protRefuse x0 x1 x2 x3 x4) := by
  unfold Dev.protRefuse
  repeat' (first
    | with_reducible assumption
    | exact rfl
    | (extract_lets +onlyGivenNames x; (refine Dev.Only.have1 x (fun hx => ?_) ?_; clear_value x; rotate_left; subst x))
    | with_reducible exact Dev.Only.refl _ _ _
    | with_reducible apply Dev.Only.step (Dev.raise_only _ _ _)
    | with_reducible apply Dev.Only.wr
    | split)

theorem Dev.busError_only (x0 : Dev) (x1 : Nat) (x2 : Nat) (x3 : Nat) (x4 : Bool) :
    Dev.Only 0 0x1f0000 x0 (Dev.busError x0 x1 x2 x3 x4) := by
  unfold Dev.busError
  repeat' (first
    | exact rfl
    | with_reducible exact Dev.Only.refl _ _ _
    | with_reducible apply Dev.Only.wr
    | split)

theorem Dev.access_only {c r : Nat} {d e : Dev} {lvl a : Nat} {w : Bool} {k : RegInfo → Nat → Nat → Dev → Dev}
    (hk : ∀ q i j e, Dev.Only c r d e → Dev.Only c r d (k q i j e)) (hc : 0x14080000100 &&& c = 0x14080000100) (hr : 0xfc00000001f8040 &&& r = 0xfc00000001f8040)
    (h : Dev.Only c r d e) : Dev.Only c r d (e.access lvl a w k) := by
  unfold Dev.access
  split
  · exact Dev.Only.step (Dev.Only.mono (Dev.protRefuse_only _ _ _ _ _) rfl rfl) hc hr h
  · split
    · exact Dev.Only.step (Dev.Only.mono (Dev.busError_only _ _ _ _ _) rfl rfl) hc hr h
    · split
      · exact h
      · split
        · exact Dev.Only.step (Dev.Only.mono (Dev.busError_only _ _ _ _ _) rfl rfl) hc hr h
        · exact hk _ _ _ _ h

theorem Dev.ownWrite_only {c r : Nat} {d e : Dev} {lvl : Lvl} {a : Nat} {k : Dev → Dev}
    (hk : ∀ e, Dev.Only c r d e → Dev.Only c r d (k e)) (hc : 0x14080000100 &&& c = 0x14080000100) (hr : 0xfc00000001f8040 &&& r = 0xfc00000001f8040)
    (h : Dev.Only c r d e) : Dev.Only c r d (e.ownWrite lvl a k) :=
  Dev.access_only (fun _ _ _ e he => hk e he) hc hr h

theorem Dev.ownWriteP_only {c r : Nat} {d e : Dev} {lvl : Lvl} {a : Nat} {k : Dev → Dev}
    (hk : ∀ e, Dev.Only c r d e → Dev.Only c r d (k e)) (hc : 0x14080000100 &&& c = 0x14080000100) (hr : 0xfc00000001f8040 &&& r = 0xfc00000001f8040)
    (h : Dev.Only c r d e) : Dev.Only c r d (e.ownWriteP lvl a k) :=
  Dev.ownWrite_only (fun e he => by split <;> first | exact hk e he | exact he) hc hr h

theorem Dev.readLatch_only (x0 : Dev) (x1 : Nat) :
    Dev.Only 0x400000 0x1800000000006000000000000000000000000000000000000000000000000000000000000000000000000000000000000000000000000000000000000000000000000000000 x0 (Dev.readLatch x0 x1) := by
  unfold Dev.readLatch
  repeat' (first
    | exact rfl
    | (extract_lets +onlyGivenNames x; clear_value x)
    | with_reducible exact Dev.Only.refl _ _ _
    | with_reducible apply Dev.Only.wr
    | split
    | with_reducible apply Dev.Only.with_fire)

theorem Dev.readReg_only (x0 : Dev) (x1 : Nat) (x2 : Nat) :
    Dev.Only 0x14080400100 0x1800000000006000000000000000000000000000000000000000000000000000000000000000000000000000000000000000000000000000000000000000fc00000001f8040 x0 (Dev.readReg x0 x1 x2).2 := by
  unfold Dev.readReg
  repeat' (first
    | exact rfl
    | with_reducible exact Dev.Only.refl _ _ _
    | with_reducible apply Dev.Only.step (Dev.busError_only _ _ _ _ _)
    | with_reducible apply Dev.Only.step (Dev.protRefuse_only _ _ _ _ _)
    | with_reducible apply Dev.Only.step (Dev.readLatch_only _ _)
    | split)

theorem Dev.readWord_only (x0 : Dev) (x1 : Nat) (x2 : Nat) :
    Dev.Only 0x34080400100 0x1800000000006000000000000000000000000000000000000000000000000000000000000000000000000000000000000000000000000000000000000000fc00000001f8040 x0 (Dev.readWord x0 x1 x2).2 := by
  unfold Dev.readWord
  split
  · exact Dev.Only.mono (Dev.readReg_only _ _ _) rfl rfl
  · exact Dev.Only.step (Dev.free_only _ 32) rfl rfl (Dev.Only.mono (Dev.readReg_only _ _ _) rfl rfl)

theorem execFireCntLoRead_only (x0 : Lvl) (x1 : State) :
    Out.Only 0x14080400100 0x1800000000006000000000000000000000000000000000000000000000000000000000000000000000000000000000000000000000000000000000000000fc00000001f8040 x1 (execFireCntLoRead x0 x1) := by
  unfold execFireCntLoRead
  repeat' (first
    | exact rfl
    | with_reducible exact Dev.Only.refl _ _ _
    | with_reducible exact State.Only.refl _ _ _
    | with_reducible apply Out.Only.act
    | with_reducible apply Dev.Only.step (Dev.readReg_only _ _ _))

theorem execFirePosLoRead_only (x0 : Lvl) (x1 : State) :
    Out.Only 0x14080400100 0x1800000000006000000000000000000000000000000000000000000000000000000000000000000000000000000000000000000000000000000000000000fc00000001f8040 x1 (execFirePosLoRead x0 x1) := by
  unfold execFirePosLoRead
  repeat' (first
    | exact rfl
    | with_reducible exact Dev.Only.refl _ _ _
    | with_reducible exact State.Only.refl _ _ _
    | with_reducible apply Out.Only.act
    | with_reducible apply Dev.Only.step (Dev.readReg_only _ _ _))

theorem execTbNowSRead_only (x0 : Lvl) (x1 : State) :
    Out.Only 0x14080400100 0x1800000000006000000000000000000000000000000000000000000000000000000000000000000000000000000000000000000000000000000000000000fc00000001f8040 x1 (execTbNowSRead x0 x1) := by
  unfold execTbNowSRead
  repeat' (first
    | exact rfl
    | with_reducible exact Dev.Only.refl _ _ _
    | with_reducible exact State.Only.refl _ _ _
    | with_reducible apply Out.Only.act
    | with_reducible apply Dev.Only.step (Dev.readReg_only _ _ _))

theorem execRingClSRead_only (x0 : Lvl) (x1 : State) :
    Out.Only 0x14080400100 0x1800000000006000000000000000000000000000000000000000000000000000000000000000000000000000000000000000000000000000000000000000fc00000001f8040 x1 (execRingClSRead x0 x1) := by
  unfold execRingClSRead
  repeat' (first
    | exact rfl
    | with_reducible exact Dev.Only.refl _ _ _
    | with_reducible exact State.Only.refl _ _ _
    | with_reducible apply Out.Only.act
    | with_reducible apply Dev.Only.step (Dev.readReg_only _ _ _))

end Sys2Proof.Machine
end

