-- ==== Sys2Proof/Laws/OnlyPlace.lean ====
section
/-! SUPPORT. What each operation may change, operation by operation: jobs, memory, rendering and the witness. Each lemma names the parts
and the register fields as bit masks over `Part` and `Fld`. -/
namespace Sys2Proof.Machine

-- One theorem at a time: checked side by side, their threads exceed the memory that the check allows.
set_option Elab.async false
-- The proofs of this file share one script, whose steps not every goal needs.
set_option linter.unusedTactic false
set_option linter.unreachableTactic false

/-! ### Jobs -/

theorem Dev.autoPlace_only (x0 : Dev) :
    Dev.Only 0x10008402300 0xffd8000000000000000000000000000000000000000000000000 x0 (Dev.autoPlace x0) := by
  unfold Dev.autoPlace
  repeat' (first
    | with_reducible assumption
    | exact rfl
    | (extract_lets +onlyGivenNames x; first | (refine Dev.Only.have1 x (fun hx => ?_) ?_; clear_value x; rotate_left; subst x)  | (refine Dev.Only.have1 x.1 (fun hx => ?_) ?_; clear_value x; rotate_left; subst x) | (refine Dev.Only.have1 x.2 (fun hx => ?_) ?_; clear_value x; rotate_left; subst x) | (refine Dev.Only.fun1 x ?_; subst x; try dsimp -zeta only) | clear_value x)
    | with_reducible exact Dev.Only.refl _ _ _
    | with_reducible apply Dev.Only.step (Dev.place_only _ _ _)
    | (with_reducible apply Dev.Only.of_fst; assumption)
    | split)

theorem Dev.commit_only (x0 : Dev) :
    Dev.Only 0x10008402300 0xffd8000000000000000000000000000000000000000000000000 x0 (Dev.commit x0) := by
  unfold Dev.commit
  repeat' (first
    | with_reducible assumption
    | exact rfl
    | (extract_lets +onlyGivenNames x; first | (refine Dev.Only.have1 x (fun hx => ?_) ?_; clear_value x; rotate_left; subst x)  | (refine Dev.Only.have1 x.1 (fun hx => ?_) ?_; clear_value x; rotate_left; subst x) | (refine Dev.Only.have1 x.2 (fun hx => ?_) ?_; clear_value x; rotate_left; subst x) | (refine Dev.Only.fun1 x ?_; subst x; try dsimp -zeta only) | clear_value x)
    | with_reducible exact Dev.Only.refl _ _ _
    | with_reducible apply Dev.Only.step (Dev.place_only _ _ _)
    | with_reducible apply Dev.Only.step (Dev.autoPlace_only _)
    | (with_reducible apply Dev.Only.of_fst; assumption)
    | split
    | with_reducible apply Dev.Only.with_rk)

theorem execCommitmentPoint_only (x0 : State) :
    Out.Only 0x10008402300 0xffd8000000000000000000000000000000000000000000000000 x0 (execCommitmentPoint x0) := by
  unfold execCommitmentPoint
  repeat' (first
    | exact rfl
    | with_reducible exact Dev.Only.refl _ _ _
    | with_reducible exact State.Only.refl _ _ _
    | with_reducible apply Out.Only.act
    | with_reducible apply Dev.Only.step (Dev.commit_only _)
    | split)

theorem execAutoPlacement_only (x0 : State) :
    Out.Only 0x10008402300 0xffd8000000000000000000000000000000000000000000000000 x0 (execAutoPlacement x0) := by
  unfold execAutoPlacement
  repeat' (first
    | exact rfl
    | (extract_lets +onlyGivenNames x; clear_value x)
    | with_reducible exact Dev.Only.refl _ _ _
    | with_reducible exact State.Only.refl _ _ _
    | with_reducible apply Out.Only.act
    | with_reducible apply Dev.Only.step (Dev.autoPlace_only _)
    | split)

theorem execPlacementLinesLower_only (x0 : Lvl) (x1 : Fin 4) (x2 : U32) (x3 : State) :
    Out.Only 0x1408bc82700 0xe418000000000000000000000000000000000fc00000001f8040 x3 (execPlacementLinesLower x0 x1 x2 x3) := by
  unfold execPlacementLinesLower
  repeat' (first
    | with_reducible assumption
    | exact rfl
    | intro e
    | with_reducible exact Dev.Only.refl _ _ _
    | with_reducible exact State.Only.refl _ _ _
    | with_reducible apply Out.Only.act
    | with_reducible apply Dev.Only.step (Dev.lowerLines_only _ _ _)
    | with_reducible apply Dev.ownWriteP_only)

theorem Dev.finishJob_only (x0 : Dev) (x1 : Nat) :
    Dev.Only 0x1000bc82700 0xe418000000000000000000000000000000000000000000000000 x0 (Dev.finishJob x0 x1) := by
  unfold Dev.finishJob
  repeat' (first
    | with_reducible assumption
    | exact rfl
    | with_reducible exact Dev.Only.refl _ _ _
    | with_reducible apply Dev.Only.step (Dev.endAfter_only _ _ _)
    | split)

theorem Dev.endFailed_only (x0 : Dev) (x1 : Nat) (x2 : Nat) :
    Dev.Only 0x1408bc86700 0xe418000000000000000000000000000000000000000000008040 x0 (Dev.endFailed x0 x1 x2) := by
  unfold Dev.endFailed
  repeat' (first
    | with_reducible assumption
    | exact rfl
    | (extract_lets +onlyGivenNames x; first | (refine Dev.Only.have1 x (fun hx => ?_) ?_; clear_value x; rotate_left; subst x)  | (refine Dev.Only.have1 x.1 (fun hx => ?_) ?_; clear_value x; rotate_left; subst x) | (refine Dev.Only.have1 x.2 (fun hx => ?_) ?_; clear_value x; rotate_left; subst x) | (refine Dev.Only.fun1 x ?_; subst x; try dsimp -zeta only) | clear_value x)
    | with_reducible exact Dev.Only.refl _ _ _
    | with_reducible apply Dev.Only.step (Dev.raise_only _ _ _)
    | with_reducible apply Dev.Only.step (Dev.purge_only _ _ _)
    | with_reducible apply Dev.Only.step (Dev.endAfter_only _ _ _)
    | with_reducible apply Dev.Only.step (Dev.endJob_only _ _ _ _)
    | with_reducible apply Dev.Only.step (Dev.finishJob_only _ _)
    | (with_reducible apply Dev.Only.of_fst; assumption)
    | split)

theorem Dev.skipJob_only (x0 : Dev) (x1 : Nat) :
    Dev.Only 0x400000 0xc000000000000000000000000000000000000 x0 (Dev.skipJob x0 x1) := by
  unfold Dev.skipJob
  repeat' (first
    | with_reducible assumption
    | exact rfl
    | intro e
    | (extract_lets +onlyGivenNames x; first | (refine Dev.Only.have1 x (fun hx => ?_) ?_; clear_value x; rotate_left; subst x) | clear_value x)
    | with_reducible exact Dev.Only.refl _ _ _
    | with_reducible apply Dev.Only.step (Dev.loadSkip_only _ _)
    | with_reducible apply Dev.Only.forEach
    | with_reducible apply Dev.Only.with_fire)

theorem Dev.dropHeld_only (x0 : Dev) (x1 : Nat) :
    Dev.Only 0x1000000 0 x0 (Dev.dropHeld x0 x1) := by
  unfold Dev.dropHeld
  repeat' (first
    | exact rfl
    | (extract_lets +onlyGivenNames x; clear_value x)
    | with_reducible exact Dev.Only.refl _ _ _
    | with_reducible apply Dev.Only.with_integ)

theorem Dev.abortJob_only (x0 : Dev) (x1 : Nat) (x2 : Nat) :
    Dev.Only 0x1408bc86700 0x201f14000000000000c41800000000000c000000000000000000000000000000008040 x0 (Dev.abortJob x0 x1 x2) := by
  unfold Dev.abortJob
  repeat' (first
    | with_reducible assumption
    | exact rfl
    | intro e
    | (extract_lets +onlyGivenNames x; first | (refine Dev.Only.have1 x (fun hx => ?_) ?_; clear_value x; rotate_left; subst x)  | (refine Dev.Only.have1 x.1 (fun hx => ?_) ?_; clear_value x; rotate_left; subst x) | (refine Dev.Only.have1 x.2 (fun hx => ?_) ?_; clear_value x; rotate_left; subst x) | (refine Dev.Only.fun1 x ?_; subst x; try dsimp -zeta only) | clear_value x)
    | with_reducible exact Dev.Only.refl _ _ _
    | with_reducible apply Dev.Only.step (Dev.retireSent_only _)
    | with_reducible apply Dev.Only.step (Dev.withdraw_only _ _)
    | with_reducible apply Dev.Only.step (Dev.spoilInFlight_only _ _ _)
    | with_reducible apply Dev.Only.step (Dev.purge_only _ _ _)
    | with_reducible apply Dev.Only.step (Dev.notPrinted_only _ _ _)
    | with_reducible apply Dev.Only.step (Dev.updJob_only _ _ _)
    | with_reducible apply Dev.Only.step (Dev.maybeDone_only _ _)
    | with_reducible apply Dev.Only.step (Dev.dropHeld_only _ _)
    | with_reducible apply Dev.Only.step (Dev.dropLines_only _ _ _ _)
    | with_reducible apply Dev.Only.step (Dev.skipJob_only _ _)
    | with_reducible apply Dev.Only.forEach
    | split)

theorem Dev.cancelJob_only (x0 : Dev) (x1 : Nat) (x2 : Bool) :
    Dev.Only 0x1408bc86700 0x201f14000000000000e41800000000000c000000000000000000000000000000008040 x0 (Dev.cancelJob x0 x1 x2) := by
  unfold Dev.cancelJob
  repeat' (first
    | with_reducible assumption
    | exact rfl
    | (extract_lets +onlyGivenNames x; (refine Dev.Only.have1 x (fun hx => ?_) ?_; clear_value x; rotate_left; subst x))
    | with_reducible exact Dev.Only.refl _ _ _
    | with_reducible apply Dev.Only.step (Dev.abortJob_only _ _ _)
    | with_reducible apply Dev.Only.step (Dev.dropHeld_only _ _)
    | with_reducible apply Dev.Only.step (Dev.dropLines_only _ _ _ _)
    | with_reducible apply Dev.Only.step (Dev.endJob_only _ _ _ _)
    | with_reducible apply Dev.Only.step (Dev.finishJob_only _ _)
    | with_reducible apply Dev.Only.step (Dev.notPrinted_only _ _ _)
    | with_reducible apply Dev.Only.step (Dev.purge_only _ _)
    | with_reducible apply Dev.Only.step (Dev.skipJob_only _ _)
    | split)

theorem Dev.stopQueue_only (x0 : Dev) :
    Dev.Only 0x1000bc87700 0xe41800000000000c000000000000000000000000000000000000 x0 (Dev.stopQueue x0) := by
  unfold Dev.stopQueue
  repeat' (first
    | with_reducible assumption
    | exact rfl
    | intro e
    | (extract_lets +onlyGivenNames x; first | (refine Dev.Only.have1 x (fun hx => ?_) ?_; clear_value x; rotate_left; subst x)  | (refine Dev.Only.have1 x.1 (fun hx => ?_) ?_; clear_value x; rotate_left; subst x) | (refine Dev.Only.have1 x.2 (fun hx => ?_) ?_; clear_value x; rotate_left; subst x) | (refine Dev.Only.fun1 x ?_; subst x; try dsimp -zeta only) | clear_value x)
    | with_reducible exact Dev.Only.refl _ _ _
    | with_reducible apply Dev.Only.step (Dev.endAfter_only _ _ _)
    | with_reducible apply Dev.Only.step (Dev.purge_only _ _ _)
    | with_reducible apply Dev.Only.step (Dev.jobFirst_only _ _)
    | with_reducible apply Dev.Only.step (Dev.updJob_only _ _ _)
    | with_reducible apply Dev.Only.step (Dev.dropHeld_only _ _)
    | with_reducible apply Dev.Only.step (Dev.dropLines_only _ _ _ _)
    | with_reducible apply Dev.Only.step (Dev.skipJob_only _ _)
    | with_reducible apply Dev.Only.step (Dev.sendJobStatus_only _ _)
    | with_reducible apply Dev.Only.forEach
    | split
    | with_reducible apply Dev.Only.with_suppressAuto)

theorem Dev.shiftProds_only (x0 : Dev) (x1 : Nat) (x2 : Int) :
    Dev.Only 0x1000000 0 x0 (Dev.shiftProds x0 x1 x2) := by
  unfold Dev.shiftProds
  repeat' (first
    | with_reducible assumption
    | exact rfl
    | (extract_lets +onlyGivenNames x; first | (refine Dev.Only.have1 x (fun hx => ?_) ?_; clear_value x; rotate_left; subst x)  | (refine Dev.Only.have1 x.1 (fun hx => ?_) ?_; clear_value x; rotate_left; subst x) | (refine Dev.Only.have1 x.2 (fun hx => ?_) ?_; clear_value x; rotate_left; subst x) | (refine Dev.Only.fun1 x ?_; subst x; try dsimp -zeta only) | clear_value x)
    | with_reducible exact Dev.Only.refl _ _ _
    | split
    | with_reducible apply Dev.Only.with_integ)

theorem Dev.rePlace_only (x0 : Dev) :
    Dev.Only 0x1000000 0x380000000000000000000000000000000000000000000000000 x0 (Dev.rePlace x0).1 := by
  unfold Dev.rePlace
  repeat' (first
    | with_reducible assumption
    | exact rfl
    | intro e
    | (extract_lets +onlyGivenNames x; first | (refine Dev.Only.have1 x (fun hx => ?_) ?_; clear_value x; rotate_left; subst x)  | (refine Dev.Only.have1 x.1 (fun hx => ?_) ?_; clear_value x; rotate_left; subst x) | (refine Dev.Only.have1 x.2 (fun hx => ?_) ?_; clear_value x; rotate_left; subst x) | (refine Dev.Only.fun1 x ?_; subst x; try dsimp -zeta only) | clear_value x)
    | with_reducible exact Dev.Only.refl _ _ _
    | with_reducible apply Dev.Only.step (Dev.shiftProds_only _ _ _)
    | with_reducible apply Dev.Only.step (Dev.wrOrigin_only _ _ _)
    | with_reducible apply Dev.Only.forEach
    | (with_reducible apply Dev.Only.of_fst; assumption)
    | split)

theorem Dev.closeJobs_only (x0 : Dev) :
    Dev.Only 0x10000002700 0 x0 (Dev.closeJobs x0) := by
  unfold Dev.closeJobs
  repeat' (first
    | with_reducible assumption
    | exact rfl
    | intro e
    | with_reducible exact Dev.Only.refl _ _ _
    | with_reducible apply Dev.Only.step (Dev.maybeDone_only _ _)
    | with_reducible apply Dev.Only.forEach)

/-! ### Mem -/

theorem Dev.memLog_only (x0 : Dev) (x1 : Nat) (x2 : Nat) (x3 : Bool) :
    Dev.Only 0 0x1f000000000000000000000000000000000000000000000000000000000000000000000000000000000000000000000000000000000000000000000 x0 (Dev.memLog x0 x1 x2 x3) := by
  unfold Dev.memLog
  repeat' (first
    | exact rfl
    | (extract_lets +onlyGivenNames x; clear_value x)
    | with_reducible exact Dev.Only.refl _ _ _
    | with_reducible apply Dev.Only.wr)

theorem Dev.memCe_only (x0 : Dev) (x1 : Nat) (x2 : Nat) :
    Dev.Only 0x14480000100 0x1f200000000000000000000000000000000000000000000000000000000000000000000000000000000000000000000000000000000000000008040 x0 (Dev.memCe x0 x1 x2) := by
  unfold Dev.memCe
  repeat' (first
    | with_reducible assumption
    | exact rfl
    | (extract_lets +onlyGivenNames x; first | (refine Dev.Only.have1 x (fun hx => ?_) ?_; clear_value x; rotate_left; subst x) | clear_value x)
    | with_reducible exact Dev.Only.refl _ _ _
    | with_reducible apply Dev.Only.step (Dev.memLog_only _ _ _ _)
    | with_reducible apply Dev.Only.step (Dev.raise_only _ _ _)
    | with_reducible apply Dev.Only.inc
    | split
    | with_reducible apply Dev.Only.with_msub)

theorem Dev.memUe_only (x0 : Dev) (x1 : Nat) (x2 : Nat) :
    Dev.Only 0x14080000100 0x1f400000000000000000000000000000000000000000000000000000000000000000000000000000000000000000000000000000000000000008040 x0 (Dev.memUe x0 x1 x2) := by
  unfold Dev.memUe
  repeat' (first
    | exact rfl
    | (extract_lets +onlyGivenNames x; clear_value x)
    | with_reducible exact Dev.Only.refl _ _ _
    | with_reducible apply Dev.Only.step (Dev.memLog_only _ _ _ _)
    | with_reducible apply Dev.Only.step (Dev.raise_only _ _ _)
    | with_reducible apply Dev.Only.inc)

theorem Dev.countRmw_only (x0 : Dev) (x1 : List Nat) (x2 : Nat) (x3 : Nat) :
    Dev.Only 0 0x20800000000000000000000000000000000000000000000000000000000000000000000000000000000000000000000000000000000000000000000 x0 (Dev.countRmw x0 x1 x2 x3) := by
  unfold Dev.countRmw
  repeat' (first
    | with_reducible assumption
    | exact rfl
    | intro e
    | (extract_lets +onlyGivenNames x; (refine Dev.Only.have1 x (fun hx => ?_) ?_; clear_value x; rotate_left; subst x))
    | with_reducible exact Dev.Only.refl _ _ _
    | with_reducible apply Dev.Only.inc
    | with_reducible apply Dev.Only.incWrap
    | with_reducible apply Dev.Only.forEach
    | split)

theorem Dram.ok_poison {p : List Nat} (h : p.Nodup ∧ ∀ w ∈ p, w < 2 ^ 29) (a n : Nat) (bad : Bool) (w : Nat) (hw : w < 2 ^ 29) :
    (poisonWord a n bad p w).Nodup ∧ ∀ x ∈ poisonWord a n bad p w, x < 2 ^ 29 := by
  unfold poisonWord
  split
  · split
    · exact h
    · next hp =>
      refine ⟨List.nodup_cons.2 ⟨fun hm => hp (by simpa using hm), h.1⟩, ?_⟩
      intro x hx
      rcases List.mem_cons.1 hx with rfl | hx
      · exact hw
      · exact h.2 x hx
  · split
    · exact ⟨h.1.filter _, fun x hx => h.2 x (List.mem_filter.1 hx).1⟩
    · exact h

theorem Dram.ok_poisonAll (l : List Nat) (a n : Nat) (bad : Bool) (p : List Nat) (h : p.Nodup ∧ ∀ w ∈ p, w < 2 ^ 29)
    (hl : ∀ w ∈ l, w < 2 ^ 29) :
    (l.foldl (poisonWord a n bad) p).Nodup ∧ ∀ x ∈ l.foldl (poisonWord a n bad) p, x < 2 ^ 29 := by
  induction l generalizing p with
  | nil => exact h
  | cons w t ih =>
    exact ih _ (Dram.ok_poison h a n bad w (hl w (by simp))) (fun x hx => hl x (by simp [hx]))

theorem Dram.ok_bytes (m : Tab Nat Byte) (a : Nat) (bs : List Byte)
    (h : Tab.wf natLt (fun _ => Config.dramUnlisted) m = true ∧ ∀ x ∈ m, x.1 < 2 ^ 36) (ha : a + bs.length ≤ 2 ^ 36) :
    Tab.wf natLt (fun _ => Config.dramUnlisted) (memWriteAll m a bs) = true ∧ ∀ x ∈ memWriteAll m a bs, x.1 < 2 ^ 36 := by
  induction bs generalizing m a with
  | nil => exact h
  | cons b t ih =>
    simp only [List.length_cons] at ha
    refine ih _ _ ⟨Tab.wf_set natLt natLt_order (fun _ => Config.dramUnlisted) _ _ _ h.1, ?_⟩ (by omega)
    intro x hx
    simp only [memWrite, Tab.set] at hx
    split at hx
    · exact h.2 x ((Tab.mem_erase _ _ _).1 hx).1
    · rcases (Tab.mem_place _ _ _ _ _).1 hx with rfl | hx
      · show a < 2 ^ 36; omega
      · exact h.2 x ((Tab.mem_erase _ _ _).1 hx).1

theorem State.dramWrite_only (x0 : State) (x1 : Nat) (x2 : List Byte) (x3 : Bool) :
    State.Only 0x40000000000 0x20800000000000000000000000000000000000000000000000000000000000000000000000000000000000000000000000000000000000000000000 x0 (x0.dramWrite x1 x2 x3) := by
  unfold State.dramWrite
  split
  · exact State.Only.refl _ _ _
  · next hg =>
    simp only [Bool.or_eq_true, decide_eq_true_eq, Bool.not_eq_true', not_or, Bool.not_eq_false] at hg
    have hs := hg.2
    simp only [Dev.spanOk, Dev.addrOk, Bool.and_eq_true, decide_eq_true_eq] at hs
    have hb := hs.1.2.1
    have h0 : 0 < x2.length := List.length_pos_iff.2 hg.1
    refine ⟨Dev.Only.mono (Dev.countRmw_only _ _ _ _) rfl rfl, fun hd => (by cases hd), rfl, fun hd => ?_⟩
    have hm := Dram.ok_bytes x0.dram.mem x1 x2 ⟨hd.1, hd.2.1⟩ (by omega)
    have hp := Dram.ok_poisonAll (wordsOf x1 x2.length) x1 x2.length x3 x0.dram.poison ⟨hd.2.2.1, hd.2.2.2⟩ (by
      intro w hw
      simp only [wordsOf] at hw
      split at hw
      · cases hw
      · obtain ⟨k, hk, rfl⟩ := List.mem_map.1 hw
        have := List.mem_range.1 hk
        omega)
    exact ⟨hm.1, hm.2, hp.1, hp.2⟩

/-! ### Reckoners -/

theorem Dev.setActive_only (x0 : Dev) (x1 : Nat) :
    Dev.Only 0x14080000100 0xc000000000008040 x0 (Dev.setActive x0 x1) := by
  unfold Dev.setActive
  repeat' (first
    | with_reducible assumption
    | exact rfl
    | (extract_lets +onlyGivenNames x; first | (refine Dev.Only.have1 x (fun hx => ?_) ?_; clear_value x; rotate_left; subst x) | clear_value x)
    | with_reducible exact Dev.Only.refl _ _ _
    | with_reducible apply Dev.Only.step (Dev.raise_only _ _ _)
    | with_reducible apply Dev.Only.wr
    | split)

theorem Dev.powerQuad_only (x0 : Dev) (x1 : Nat) :
    Dev.Only 0 0x200000 x0 (Dev.powerQuad x0 x1) := by
  unfold Dev.powerQuad
  repeat' (first
    | exact rfl
    | (extract_lets +onlyGivenNames x; first | clear_value x | subst x)
    | with_reducible exact Dev.Only.refl _ _ _
    | with_reducible apply Dev.Only.step (Dev.domUp_only _ _)
    | with_reducible apply Dev.Only.clrBit
    | split)

theorem Dev.updRk_only (x0 : Dev) (x1 : Rk → Rk) :
    Dev.Only 0x2000 0 x0 (Dev.updRk x0 x1) := by
  unfold Dev.updRk
  repeat' (first
    | exact rfl
    | with_reducible exact Dev.Only.refl _ _ _
    | with_reducible apply Dev.Only.with_rk)

theorem Dev.startWork_only (x0 : Dev) (x1 : Nat) (x2 : Work) :
    Dev.Only 0x2000 0 x0 (Dev.startWork x0 x1 x2) := by
  unfold Dev.startWork
  repeat' (first
    | exact rfl
    | with_reducible exact Dev.Only.refl _ _ _
    | with_reducible apply Dev.Only.step (Dev.updRk_only _ _))

theorem Dev.startNext_only (x0 : Dev) (x1 : Nat) :
    Dev.Only 0x2000 0 x0 (Dev.startNext x0 x1) := by
  unfold Dev.startNext
  repeat' (first
    | exact rfl
    | with_reducible exact Dev.Only.refl _ _ _
    | with_reducible apply Dev.Only.step (Dev.startWork_only _ _ _)
    | split)

theorem Dev.startAll_only (x0 : Dev) :
    Dev.Only 0x2000 0 x0 (Dev.startAll x0) := by
  unfold Dev.startAll
  repeat' (first
    | with_reducible assumption
    | exact rfl
    | intro e
    | with_reducible exact Dev.Only.refl _ _ _
    | with_reducible apply Dev.Only.step (Dev.startNext_only _ _)
    | with_reducible apply Dev.Only.forEach)

theorem Dev.nameRenderer_only (x0 : Dev) (x1 : ColId) (x2 : Nat) :
    Dev.Only 0x2000 0 x0 (Dev.nameRenderer x0 x1 x2) := by
  unfold Dev.nameRenderer
  repeat' (first
    | exact rfl
    | with_reducible exact Dev.Only.refl _ _ _
    | with_reducible apply Dev.Only.step (Dev.updRk_only _ _))

theorem Dev.steal_only (x0 : Dev) (x1 : Nat) :
    Dev.Only 0x2000 0 x0 (Dev.steal x0 x1) := by
  unfold Dev.steal
  repeat' (first
    | exact rfl
    | with_reducible exact Dev.Only.refl _ _ _
    | with_reducible apply Dev.Only.step (Dev.nameRenderer_only _ _ _)
    | with_reducible apply Dev.Only.step (Dev.startWork_only _ _ _)
    | split)

theorem execWorkSteal_only (x0 : RkNo) (x1 : State) :
    Out.Only 0x2000 0 x1 (execWorkSteal x0 x1) := by
  unfold execWorkSteal
  repeat' (first
    | exact rfl
    | with_reducible exact Dev.Only.refl _ _ _
    | with_reducible exact State.Only.refl _ _ _
    | with_reducible apply Out.Only.act
    | with_reducible apply Dev.Only.step (Dev.steal_only _ _))

/-! ### Witness -/

theorem Dev.postWork_only (x0 : Dev) (x1 : Work) :
    Dev.Only 0x2000 0 x0 (Dev.postWork x0 x1) := by
  unfold Dev.postWork
  repeat' (first
    | exact rfl
    | with_reducible exact Dev.Only.refl _ _ _
    | with_reducible apply Dev.Only.step (Dev.updRk_only _ _))

theorem Dev.setSeed_only (x0 : Dev) (x1 : ColId) (x2 : Nat) :
    Dev.Only 0x2000 0 x0 (Dev.setSeed x0 x1 x2) := by
  unfold Dev.setSeed
  repeat' (first
    | with_reducible assumption
    | exact rfl
    | (extract_lets +onlyGivenNames x; first | (refine Dev.Only.have1 x (fun hx => ?_) ?_; clear_value x; rotate_left; subst x)  | (refine Dev.Only.have1 x.1 (fun hx => ?_) ?_; clear_value x; rotate_left; subst x) | (refine Dev.Only.have1 x.2 (fun hx => ?_) ?_; clear_value x; rotate_left; subst x) | (refine Dev.Only.fun1 x ?_; subst x; try dsimp -zeta only) | clear_value x)
    | with_reducible exact Dev.Only.refl _ _ _
    | with_reducible apply Dev.Only.step (Dev.updRk_only _ _)
    | (with_reducible apply Dev.Only.of_fst; assumption))

theorem Dev.postColumn_only (x0 : Dev) (x1 : ColId) (x2 : Bool) :
    Dev.Only 0x2000 0 x0 (Dev.postColumn x0 x1 x2) := by
  unfold Dev.postColumn
  repeat' (first
    | with_reducible assumption
    | exact rfl
    | (extract_lets +onlyGivenNames x; first | (refine Dev.Only.have1 x (fun hx => ?_) ?_; clear_value x; rotate_left; subst x)  | (refine Dev.Only.have1 x.1 (fun hx => ?_) ?_; clear_value x; rotate_left; subst x) | (refine Dev.Only.have1 x.2 (fun hx => ?_) ?_; clear_value x; rotate_left; subst x) | (refine Dev.Only.fun1 x ?_; subst x; try dsimp -zeta only) | clear_value x)
    | with_reducible exact Dev.Only.refl _ _ _
    | with_reducible apply Dev.Only.step (Dev.updRk_only _ _)
    | with_reducible apply Dev.Only.step (Dev.postWork_only _ _)
    | (with_reducible apply Dev.Only.of_fst; assumption)
    | split)

theorem Dev.drawColumn_only (x0 : Dev × List Nat) (x1 : ColId) (x2 : Bool) :
    Dev.Only 0x20000002000 0 x0.1 (Dev.drawColumn x0 x1 x2).1 := by
  unfold Dev.drawColumn
  repeat' (first
    | with_reducible assumption
    | exact rfl
    | with_reducible exact Dev.Only.refl _ _ _
    | with_reducible apply Dev.Only.step (Dev.postColumn_only _ _ _)
    | with_reducible apply Dev.Only.step (Dev.setSeed_only _ _ _)
    | with_reducible apply Dev.Only.step (Dev.free_only _ _)
    | (with_reducible apply Dev.Only.of_fst; assumption)
    | split)

theorem Dev.noneLeft_only (x0 : Dev) (x1 : Nat) (x2 : Work) :
    Dev.Only 0x14080002100 0x8040 x0 (Dev.noneLeft x0 x1 x2) := by
  unfold Dev.noneLeft
  repeat' (first
    | with_reducible assumption
    | exact rfl
    | (extract_lets +onlyGivenNames x; first | (refine Dev.Only.have1 x (fun hx => ?_) ?_; clear_value x; rotate_left; subst x)  | (refine Dev.Only.have1 x.1 (fun hx => ?_) ?_; clear_value x; rotate_left; subst x) | (refine Dev.Only.have1 x.2 (fun hx => ?_) ?_; clear_value x; rotate_left; subst x) | (refine Dev.Only.fun1 x ?_; subst x; try dsimp -zeta only) | clear_value x)
    | with_reducible exact Dev.Only.refl _ _ _
    | with_reducible apply Dev.Only.step (Dev.raise_only _ _ _)
    | with_reducible apply Dev.Only.step (Dev.updRk_only _ _)
    | (with_reducible apply Dev.Only.of_fst; assumption))

theorem Dev.assignWitness_only (x0 : Dev) (x1 : ColId) (x2 : Nat) (x3 : Nat) (x4 : Bool) (x5 : List Nat) :
    Dev.Only 0x14080002100 0x8040 x0 (Dev.assignWitness x0 x1 x2 x3 x4 x5) := by
  unfold Dev.assignWitness
  repeat' (first
    | with_reducible assumption
    | exact rfl
    | (extract_lets +onlyGivenNames x; first | (refine Dev.Only.have1 x (fun hx => ?_) ?_; clear_value x; rotate_left; subst x)  | (refine Dev.Only.have1 x.1 (fun hx => ?_) ?_; clear_value x; rotate_left; subst x) | (refine Dev.Only.have1 x.2 (fun hx => ?_) ?_; clear_value x; rotate_left; subst x) | (refine Dev.Only.fun1 x ?_; subst x; try dsimp -zeta only) | clear_value x)
    | with_reducible exact Dev.Only.refl _ _ _
    | with_reducible apply Dev.Only.step (Dev.updRk_only _ _)
    | with_reducible apply Dev.Only.step (Dev.noneLeft_only _ _ _)
    | with_reducible apply Dev.Only.step (Dev.postWork_only _ _)
    | (with_reducible apply Dev.Only.of_fst; assumption)
    | split)

theorem Dev.passTile_only (x0 : Dev) (x1 : ColId) :
    Dev.Only 0x2000 0 x0 (Dev.passTile x0 x1) := by
  unfold Dev.passTile
  repeat' (first
    | with_reducible assumption
    | exact rfl
    | (extract_lets +onlyGivenNames x; first | (refine Dev.Only.have1 x (fun hx => ?_) ?_; clear_value x; rotate_left; subst x)  | (refine Dev.Only.have1 x.1 (fun hx => ?_) ?_; clear_value x; rotate_left; subst x) | (refine Dev.Only.have1 x.2 (fun hx => ?_) ?_; clear_value x; rotate_left; subst x) | (refine Dev.Only.fun1 x ?_; subst x; try dsimp -zeta only) | clear_value x)
    | with_reducible exact Dev.Only.refl _ _ _
    | with_reducible apply Dev.Only.step (Dev.updRk_only _ _)
    | (with_reducible apply Dev.Only.of_fst; assumption)
    | split)

theorem Dev.noMajority_only (x0 : Dev) (x1 : TileRec) (x2 : Nat) :
    Dev.Only 0x1408b002100 0x201f140000000000000000000000000000000000000000000000400000000000008040 x0 (Dev.noMajority x0 x1 x2) := by
  unfold Dev.noMajority
  repeat' (first
    | with_reducible assumption
    | exact rfl
    | (extract_lets +onlyGivenNames x; (refine Dev.Only.have1 x (fun hx => ?_) ?_; clear_value x; rotate_left; subst x))
    | with_reducible exact Dev.Only.refl _ _ _
    | with_reducible apply Dev.Only.step (Dev.passTile_only _ _)
    | with_reducible apply Dev.Only.step (Dev.raise_only _ _ _)
    | with_reducible apply Dev.Only.step (Dev.spoilLines_only _ _ _ _ _ _ _)
    | with_reducible apply Dev.Only.step (Dev.updRk_only _ _)
    | with_reducible apply Dev.Only.inc
    | split)

theorem Dev.mismatch_only (x0 : Dev) (x1 : TileRec) :
    Dev.Only 0x1408b002100 0x201f140000000000000000000000000000000000000000000000600000000000008040 x0 (Dev.mismatch x0 x1) := by
  unfold Dev.mismatch
  repeat' (first
    | with_reducible assumption
    | exact rfl
    | (extract_lets +onlyGivenNames x; first | (refine Dev.Only.have1 x (fun hx => ?_) ?_; clear_value x; rotate_left; subst x)  | (refine Dev.Only.have1 x.1 (fun hx => ?_) ?_; clear_value x; rotate_left; subst x) | (refine Dev.Only.have1 x.2 (fun hx => ?_) ?_; clear_value x; rotate_left; subst x) | (refine Dev.Only.fun1 x ?_; subst x; try dsimp -zeta only) | clear_value x)
    | with_reducible exact Dev.Only.refl _ _ _
    | with_reducible apply Dev.Only.step (Dev.raise_only _ _ _)
    | with_reducible apply Dev.Only.step (Dev.postColumn_only _ _ _)
    | with_reducible apply Dev.Only.step (Dev.postWork_only _ _)
    | with_reducible apply Dev.Only.step (Dev.noMajority_only _ _ _)
    | with_reducible apply Dev.Only.inc
    | (with_reducible apply Dev.Only.of_fst; assumption)
    | split)

theorem Dev.compareTile_only (x0 : Dev) (x1 : ColId) :
    Dev.Only 0x1408b002100 0x201f140000000000000000000000000000000000000000000000600000000000008040 x0 (Dev.compareTile x0 x1) := by
  unfold Dev.compareTile
  repeat' (first
    | exact rfl
    | with_reducible exact Dev.Only.refl _ _ _
    | with_reducible apply Dev.Only.step (Dev.mismatch_only _ _)
    | with_reducible apply Dev.Only.step (Dev.passTile_only _ _)
    | split)

theorem Dev.requeue_only (x0 : Dev) (x1 : Nat) (x2 : Work) :
    Dev.Only 0x1408b002100 0x201f140000000000000000000000000000000000000000000000400000000000008040 x0 (Dev.requeue x0 x1 x2) := by
  unfold Dev.requeue
  repeat' (first
    | with_reducible assumption
    | exact rfl
    | (extract_lets +onlyGivenNames x; first | (refine Dev.Only.have1 x (fun hx => ?_) ?_; clear_value x; rotate_left; subst x)  | (refine Dev.Only.have1 x.1 (fun hx => ?_) ?_; clear_value x; rotate_left; subst x) | (refine Dev.Only.have1 x.2 (fun hx => ?_) ?_; clear_value x; rotate_left; subst x) | (refine Dev.Only.fun1 x ?_; subst x; try dsimp -zeta only) | clear_value x)
    | with_reducible exact Dev.Only.refl _ _ _
    | with_reducible apply Dev.Only.step (Dev.noneLeft_only _ _ _)
    | with_reducible apply Dev.Only.step (Dev.nameRenderer_only _ _ _)
    | with_reducible apply Dev.Only.step (Dev.postWork_only _ _)
    | with_reducible apply Dev.Only.step (Dev.assignWitness_only _ _ _ _ _ _)
    | with_reducible apply Dev.Only.step (Dev.noMajority_only _ _ _)
    | (with_reducible apply Dev.Only.of_fst; assumption)
    | split)

theorem Dev.addBusy_only (x0 : Dev) (x1 : Nat) (x2 : Work) :
    Dev.Only 0 0x4000000000000000000 x0 (Dev.addBusy x0 x1 x2) := by
  unfold Dev.addBusy
  repeat' (first
    | with_reducible assumption
    | exact rfl
    | (extract_lets +onlyGivenNames x; first | (refine Dev.Only.have1 x (fun hx => ?_) ?_; clear_value x; rotate_left; subst x)  | (refine Dev.Only.have1 x.1 (fun hx => ?_) ?_; clear_value x; rotate_left; subst x) | (refine Dev.Only.have1 x.2 (fun hx => ?_) ?_; clear_value x; rotate_left; subst x) | (refine Dev.Only.fun1 x ?_; subst x; try dsimp -zeta only) | clear_value x)
    | with_reducible exact Dev.Only.refl _ _ _
    | with_reducible apply Dev.Only.wr
    | split)

theorem Dev.requeueAll_only (x0 : Dev) (x1 : Nat) :
    Dev.Only 0x1408b002100 0x201f140000000000000000000000000000000000000000000004400000000000008040 x0 (Dev.requeueAll x0 x1) := by
  unfold Dev.requeueAll
  repeat' (first
    | with_reducible assumption
    | exact rfl
    | intro e
    | (extract_lets +onlyGivenNames x; first | (refine Dev.Only.have1 x (fun hx => ?_) ?_; clear_value x; rotate_left; subst x)  | (refine Dev.Only.have1 x.1 (fun hx => ?_) ?_; clear_value x; rotate_left; subst x) | (refine Dev.Only.have1 x.2 (fun hx => ?_) ?_; clear_value x; rotate_left; subst x) | (refine Dev.Only.fun1 x ?_; subst x; try dsimp -zeta only) | clear_value x)
    | with_reducible exact Dev.Only.refl _ _ _
    | with_reducible apply Dev.Only.step (Dev.addBusy_only _ _ _)
    | with_reducible apply Dev.Only.step (Dev.updRk_only _ _)
    | with_reducible apply Dev.Only.step (Dev.requeue_only _ _ _)
    | with_reducible apply Dev.Only.forEach
    | split)

theorem Dev.restartColumn_only (x0 : Dev) (x1 : TileRec) :
    Dev.Only 0x2000 0 x0 (Dev.restartColumn x0 x1) := by
  unfold Dev.restartColumn
  repeat' (first
    | with_reducible assumption
    | exact rfl
    | with_reducible exact Dev.Only.refl _ _ _
    | with_reducible apply Dev.Only.step (Dev.postColumn_only _ _ _)
    | split)

theorem Dev.mitten_only (x0 : Dev) (x1 : Nat) (x2 : Nat) :
    Dev.Only 0x1408b002100 0x201f14000000000000000000000000000000000000000000000441c000000000208040 x0 (Dev.mitten x0 x1 x2) := by
  unfold Dev.mitten
  repeat' (first
    | with_reducible assumption
    | exact rfl
    | intro e
    | (extract_lets +onlyGivenNames x; first | (refine Dev.Only.have1 x (fun hx => ?_) ?_; clear_value x; rotate_left; subst x) | clear_value x)
    | with_reducible exact Dev.Only.refl _ _ _
    | with_reducible apply Dev.Only.step (Dev.powerQuad_only _ _)
    | with_reducible apply Dev.Only.step (Dev.raise_only _ _ _)
    | with_reducible apply Dev.Only.step (Dev.requeueAll_only _ _)
    | with_reducible apply Dev.Only.step (Dev.restartColumn_only _ _)
    | with_reducible apply Dev.Only.step (Dev.setActive_only _ _)
    | with_reducible apply Dev.Only.setBit
    | with_reducible apply Dev.Only.forEach)

theorem Dev.strike_only (x0 : Dev) (x1 : Nat) (x2 : Nat) :
    Dev.Only 0x1408b002100 0x201f140000000000000000000000000000000000000000000007c1c000000000208040 x0 (Dev.strike x0 x1 x2) := by
  unfold Dev.strike
  repeat' (first
    | with_reducible assumption
    | exact rfl
    | (extract_lets +onlyGivenNames x; first | (refine Dev.Only.have1 x (fun hx => ?_) ?_; clear_value x; rotate_left; subst x) | clear_value x)
    | with_reducible exact Dev.Only.refl _ _ _
    | with_reducible apply Dev.Only.step (Dev.mitten_only _ _ _)
    | with_reducible apply Dev.Only.step (Dev.raise_only _ _ _)
    | with_reducible apply Dev.Only.step (Dev.updRk_only _ _)
    | with_reducible apply Dev.Only.wr
    | split)

theorem execStrikeExpiry_only (x0 : RkNo) (x1 : State) :
    Out.Only 0x2000 0x2000000000000000000 x1 (execStrikeExpiry x0 x1) := by
  unfold execStrikeExpiry
  repeat' (first
    | with_reducible assumption
    | exact rfl
    | (extract_lets +onlyGivenNames x; first | (refine Out.Only.have1 x (fun hx => ?_) ?_; clear_value x; rotate_left; subst x) | (refine Out.Only.have2 x (fun hx => ?_) ?_; clear_value x; rotate_left; subst x)  | (refine State.Only.have1 x (fun hx => ?_) ?_; clear_value x; rotate_left; subst x) | (refine State.Only.have2 x (fun hx => ?_) ?_; clear_value x; rotate_left; subst x) | (refine Dev.Only.have1 x (fun hx => ?_) ?_; clear_value x; rotate_left; subst x) | clear_value x)
    | with_reducible exact Dev.Only.refl _ _ _
    | with_reducible exact State.Only.refl _ _ _
    | (with_reducible apply State.Only.dev; with_reducible assumption)
    | with_reducible apply Out.Only.act
    | with_reducible apply Out.Only.next
    | with_reducible apply Dev.Only.step (Dev.updRk_only _ _)
    | with_reducible apply Dev.Only.wr
    | split
    | with_reducible apply State.Only.mkDev)

theorem Dev.releaseRk_only (x0 : Dev) (x1 : Nat) :
    Dev.Only 0x14080002100 0x2010000000000208040 x0 (Dev.releaseRk x0 x1) := by
  unfold Dev.releaseRk
  repeat' (first
    | with_reducible assumption
    | exact rfl
    | intro e
    | (extract_lets +onlyGivenNames x; (refine Dev.Only.have1 x (fun hx => ?_) ?_; clear_value x; rotate_left; subst x))
    | with_reducible exact Dev.Only.refl _ _ _
    | with_reducible apply Dev.Only.step (Dev.powerQuad_only _ _)
    | with_reducible apply Dev.Only.step (Dev.raise_only _ _ _)
    | with_reducible apply Dev.Only.step (Dev.updRk_only _ _)
    | with_reducible apply Dev.Only.wr
    | with_reducible apply Dev.Only.clrBit
    | with_reducible apply Dev.Only.forEach)

theorem State.reloadRk_only (x0 : State) (x1 : Nat) :
    State.Only 0x10 0 x0 (State.reloadRk x0 x1) := by
  unfold State.reloadRk
  repeat' (first
    | with_reducible assumption
    | exact rfl
    | (extract_lets +onlyGivenNames x; first | (refine State.Only.have1 x (fun hx => ?_) ?_; clear_value x; rotate_left; subst x) | (refine State.Only.have2 x (fun hx => ?_) ?_; clear_value x; rotate_left; subst x) | (refine State.Only.fun1 x ?_; subst x; try dsimp -zeta only) | (refine Dev.Only.have1 x (fun hx => ?_) ?_; clear_value x; rotate_left; subst x) | (refine Dev.Only.fun1 x ?_; subst x; try dsimp -zeta only) | clear_value x)
    | with_reducible exact Dev.Only.refl _ _ _
    | with_reducible exact State.Only.refl _ _ _
    | (with_reducible apply State.Only.dev; with_reducible assumption)
    | split
    | with_reducible apply Dev.Only.with_boot
    | with_reducible apply State.Only.mkDev)

theorem State.reloadFreed_only (x0 : State) (x1 : Dev) :
    State.Only 0x10 0 x0 (State.reloadFreed x0 x1) := by
  unfold State.reloadFreed
  repeat' (first
    | with_reducible assumption
    | exact rfl
    | intro e
    | with_reducible exact Dev.Only.refl _ _ _
    | with_reducible exact State.Only.refl _ _ _
    | (with_reducible apply State.Only.dev; with_reducible assumption)
    | with_reducible apply State.Only.step (State.reloadRk_only _ _)
    | with_reducible apply Dev.Only.foldl
    | with_reducible apply Dev.Only.foldl_fst
    | with_reducible apply Dev.Only.foldl_snd
    | with_reducible apply State.Only.foldl
    | split)

theorem execRkcMittenWrite_only (x0 : Lvl) (x1 : U32) (x2 : State) :
    Out.Only 0x14080002110 0x2010fc00000003f8040 x2 (execRkcMittenWrite x0 x1 x2) := by
  unfold execRkcMittenWrite
  repeat' (first
    | with_reducible assumption
    | exact rfl
    | intro e
    | (extract_lets +onlyGivenNames x; first | (refine Out.Only.have1 x (fun hx => ?_) ?_; clear_value x; rotate_left; subst x) | (refine Out.Only.have2 x (fun hx => ?_) ?_; clear_value x; rotate_left; subst x)  | (refine State.Only.have1 x (fun hx => ?_) ?_; clear_value x; rotate_left; subst x) | (refine State.Only.have2 x (fun hx => ?_) ?_; clear_value x; rotate_left; subst x) | (refine Dev.Only.have1 x (fun hx => ?_) ?_; clear_value x; rotate_left; subst x) | clear_value x)
    | with_reducible exact Dev.Only.refl _ _ _
    | with_reducible exact State.Only.refl _ _ _
    | (with_reducible apply State.Only.dev; with_reducible assumption)
    | with_reducible apply Out.Only.next
    | with_reducible apply State.Only.step (State.reloadFreed_only _ _)
    | with_reducible apply Dev.ownWrite_only
    | with_reducible apply Dev.Only.step (Dev.releaseRk_only _ _)
    | split
    | with_reducible apply State.Only.mkDev)

theorem Dev.rerender_only (x0 : Dev) (x1 : Nat) (x2 : TileRec) :
    Dev.Only 0x1408b002100 0x201f140000000000000000000000000000000000000000000000400000000000008040 x0 (Dev.rerender x0 x1 x2) := by
  unfold Dev.rerender
  repeat' (first
    | with_reducible assumption
    | exact rfl
    | (extract_lets +onlyGivenNames x; first | (refine Dev.Only.have1 x (fun hx => ?_) ?_; clear_value x; rotate_left; subst x)  | (refine Dev.Only.have1 x.1 (fun hx => ?_) ?_; clear_value x; rotate_left; subst x) | (refine Dev.Only.have1 x.2 (fun hx => ?_) ?_; clear_value x; rotate_left; subst x) | (refine Dev.Only.fun1 x ?_; subst x; try dsimp -zeta only) | clear_value x)
    | with_reducible exact Dev.Only.refl _ _ _
    | with_reducible apply Dev.Only.step (Dev.updRk_only _ _)
    | with_reducible apply Dev.Only.step (Dev.requeue_only _ _ _)
    | split)

theorem Dev.shedQuad_only (x0 : Dev) (x1 : Nat) :
    Dev.Only 0x1408b002100 0x201f14000000000000000000000000000000000000000000000442c000000000208040 x0 (Dev.shedQuad x0 x1) := by
  unfold Dev.shedQuad
  repeat' (first
    | with_reducible assumption
    | exact rfl
    | intro e
    | (extract_lets +onlyGivenNames x; first | (refine Dev.Only.have1 x (fun hx => ?_) ?_; clear_value x; rotate_left; subst x) | clear_value x)
    | with_reducible exact Dev.Only.refl _ _ _
    | with_reducible apply Dev.Only.step (Dev.powerQuad_only _ _)
    | with_reducible apply Dev.Only.step (Dev.requeueAll_only _ _)
    | with_reducible apply Dev.Only.step (Dev.rerender_only _ _ _)
    | with_reducible apply Dev.Only.step (Dev.setActive_only _ _)
    | with_reducible apply Dev.Only.step (Dev.startAll_only _)
    | with_reducible apply Dev.Only.setBit
    | with_reducible apply Dev.Only.forEach
    | split)

theorem Dev.restoreQuad_only (x0 : Dev) (x1 : Nat) :
    Dev.Only 0x14080002100 0x2c000000000208040 x0 (Dev.restoreQuad x0 x1) := by
  unfold Dev.restoreQuad
  repeat' (first
    | with_reducible assumption
    | exact rfl
    | (extract_lets +onlyGivenNames x; first | (refine Dev.Only.have1 x (fun hx => ?_) ?_; clear_value x; rotate_left; subst x) | clear_value x)
    | with_reducible exact Dev.Only.refl _ _ _
    | with_reducible apply Dev.Only.step (Dev.powerQuad_only _ _)
    | with_reducible apply Dev.Only.step (Dev.setActive_only _ _)
    | with_reducible apply Dev.Only.step (Dev.startAll_only _)
    | with_reducible apply Dev.Only.clrBit
    | split)

theorem Dev.normFront_only (x0 : Nat) (x1 : Dev) :
    Dev.Only 0x2000 0 x1 (Dev.normFront x0 x1) := by
  induction x0 generalizing x1 with
  | zero =>
    unfold Dev.normFront
    repeat' (first
      | exact rfl
      | (extract_lets +onlyGivenNames x; first | clear_value x | subst x)
      | with_reducible exact Dev.Only.refl _ _ _
      | with_reducible apply Dev.Only.step (Dev.updRk_only _ _)
      | split)
  | succ n ih =>
    unfold Dev.normFront
    repeat' (first
      | exact rfl
      | (extract_lets +onlyGivenNames x; first | clear_value x | subst x)
      | with_reducible apply Dev.Only.step (ih _)
      | with_reducible exact Dev.Only.refl _ _ _
      | with_reducible apply Dev.Only.step (Dev.updRk_only _ _)
      | split)

theorem Dev.postBand_only (x0 : Dev × List Nat) (x1 : Job) (x2 : JobRec) (x3 : Nat) :
    Dev.Only 0x20000002000 0 x0.1 (Dev.postBand x0 x1 x2 x3).1 := by
  unfold Dev.postBand
  repeat' (first
    | with_reducible assumption
    | exact rfl
    | intro e
    | (extract_lets +onlyGivenNames x; first | (refine Dev.Only.have1 x (fun hx => ?_) ?_; clear_value x; rotate_left; subst x)  | (refine Dev.Only.have1 x.1 (fun hx => ?_) ?_; clear_value x; rotate_left; subst x) | (refine Dev.Only.have1 x.2 (fun hx => ?_) ?_; clear_value x; rotate_left; subst x) | (refine Dev.Only.fun1 x ?_; subst x; try dsimp -zeta only) | clear_value x)
    | with_reducible exact Dev.Only.refl _ _ _
    | with_reducible apply Dev.Only.step (Dev.drawColumn_only _ _ _)
    | with_reducible apply Dev.Only.foldl
    | with_reducible apply Dev.Only.foldl_fst
    | with_reducible apply Dev.Only.foldl_snd
    | split)

theorem Dev.repost_only (x0 : Dev × List Nat) :
    Dev.Only 0x20000002000 0 x0.1 (Dev.repost x0).1 := by
  unfold Dev.repost
  repeat' (first
    | with_reducible assumption
    | exact rfl
    | intro e
    | with_reducible exact Dev.Only.refl _ _ _
    | with_reducible apply Dev.Only.step (Dev.postBand_only _ _ _ _)
    | with_reducible apply Dev.Only.foldl
    | with_reducible apply Dev.Only.foldl_fst
    | with_reducible apply Dev.Only.foldl_snd
    | (with_reducible apply Dev.Only.of_fst; assumption)
    | split)

theorem Dev.postStuck_only (x0 : Dev) :
    Dev.Only 0x1408b002100 0x201f140000000000000000000000000000000000000000000000400000000000008040 x0 (Dev.postStuck x0) := by
  unfold Dev.postStuck
  repeat' (first
    | with_reducible assumption
    | exact rfl
    | intro e
    | (extract_lets +onlyGivenNames x; first | (refine Dev.Only.have1 x (fun hx => ?_) ?_; clear_value x; rotate_left; subst x)  | (refine Dev.Only.have1 x.1 (fun hx => ?_) ?_; clear_value x; rotate_left; subst x) | (refine Dev.Only.have1 x.2 (fun hx => ?_) ?_; clear_value x; rotate_left; subst x) | (refine Dev.Only.fun1 x ?_; subst x; try dsimp -zeta only) | clear_value x)
    | with_reducible exact Dev.Only.refl _ _ _
    | with_reducible apply Dev.Only.step (Dev.requeue_only _ _ _)
    | with_reducible apply Dev.Only.step (Dev.updRk_only _ _)
    | with_reducible apply Dev.Only.forEach
    | split)

theorem Dev.postCache_only (x0 : Dev × List Nat) :
    Dev.Only 0x20000002000 0 x0.1 (Dev.postCache x0) := by
  unfold Dev.postCache
  repeat' (first
    | with_reducible assumption
    | exact rfl
    | (extract_lets +onlyGivenNames x; first | (refine Dev.Only.have1 x (fun hx => ?_) ?_; clear_value x; rotate_left; subst x)  | (refine Dev.Only.have1 x.1 (fun hx => ?_) ?_; clear_value x; rotate_left; subst x) | (refine Dev.Only.have1 x.2 (fun hx => ?_) ?_; clear_value x; rotate_left; subst x) | (refine Dev.Only.fun1 x ?_; subst x; try dsimp -zeta only) | clear_value x)
    | with_reducible exact Dev.Only.refl _ _ _
    | with_reducible apply Dev.Only.step (Dev.drawColumn_only _ _ _)
    | (with_reducible apply Dev.Only.of_fst; assumption)
    | split)

theorem Dev.reportContents_only (x0 : Dev) (x1 : Job) (x2 : JobRec) (x3 : Nat) :
    Dev.Only 0x14080000100 0x8040 x0 (Dev.reportContents x0 x1 x2 x3) := by
  unfold Dev.reportContents
  repeat' (first
    | with_reducible assumption
    | exact rfl
    | intro e
    | with_reducible exact Dev.Only.refl _ _ _
    | with_reducible apply Dev.Only.step (Dev.raise_only _ _ _)
    | with_reducible apply Dev.Only.forEach
    | (with_reducible apply Dev.Only.of_fst; assumption)
    | split)

theorem Dev.workPost_only (x0 : Dev) (x1 : List Nat) :
    Dev.Only 0x3408b002100 0x201f14000000000000000000000000000000000000000000000040c000000000008040 x0 (Dev.workPost x0 x1) := by
  unfold Dev.workPost
  repeat' (first
    | with_reducible assumption
    | exact rfl
    | (extract_lets +onlyGivenNames x; first | (refine Dev.Only.have1 x (fun hx => ?_) ?_; clear_value x; rotate_left; subst x)  | (refine Dev.Only.have1 x.1 (fun hx => ?_) ?_; clear_value x; rotate_left; subst x) | (refine Dev.Only.have1 x.2 (fun hx => ?_) ?_; clear_value x; rotate_left; subst x) | (refine Dev.Only.fun1 x ?_; subst x; try dsimp -zeta only) | clear_value x)
    | with_reducible exact Dev.Only.refl _ _ _
    | with_reducible apply Dev.Only.step (Dev.setActive_only _ _)
    | with_reducible apply Dev.Only.step (Dev.repost_only _)
    | with_reducible apply Dev.Only.step (Dev.postStuck_only _)
    | with_reducible apply Dev.Only.step (Dev.normFront_only _ _)
    | with_reducible apply Dev.Only.step (Dev.startAll_only _)
    | with_reducible apply Dev.Only.step (Dev.postCache_only _)
    | with_reducible apply Dev.Only.step (Dev.raise_only _ _ _)
    | with_reducible apply Dev.Only.step (Dev.updRk_only _ _)
    | with_reducible apply Dev.Only.step (Dev.postBand_only _ _ _ _)
    | with_reducible apply Dev.Only.step (Dev.reportContents_only _ _ _ _)
    | (with_reducible apply Dev.Only.of_fst; assumption)
    | split)

theorem execWorkPost_only (x0 : List U32) (x1 : State) :
    Out.Only 0x3408b002100 0x201f14000000000000000000000000000000000000000000000040c000000000008040 x1 (execWorkPost x0 x1) := by
  unfold execWorkPost
  repeat' (first
    | with_reducible assumption
    | exact rfl
    | with_reducible exact Dev.Only.refl _ _ _
    | with_reducible exact State.Only.refl _ _ _
    | (with_reducible apply State.Only.dev; with_reducible assumption)
    | with_reducible apply Out.Only.act
    | with_reducible apply Out.Only.next
    | with_reducible apply Dev.Only.step (Dev.workPost_only _ _)
    | split
    | with_reducible apply State.Only.mkDev)

theorem Dev.updateK_only (x0 : Dev) (x1 : Nat) :
    Dev.Only 0x2000 0 x0 (Dev.updateK x0 x1) := by
  unfold Dev.updateK
  repeat' (first
    | exact rfl
    | (extract_lets +onlyGivenNames x; clear_value x)
    | with_reducible exact Dev.Only.refl _ _ _
    | with_reducible apply Dev.Only.step (Dev.updRk_only _ _))

theorem Dev.handOne_only (x0 e : Dev) (h : x0.handOne = some e) : Dev.Only 0x2200 0 x0 e := by
  unfold Dev.handOne at h
  split at h
  · cases h
  · split at h
    · cases h
    · split at h
      · cases h
      · dsimp only at h
        split at h
        · cases h
          exact Dev.Only.step (Dev.updRk_only _ _) rfl rfl (Dev.Only.step (Dev.updJob_only _ _ _) rfl rfl
            (Dev.Only.step (Dev.updateK_only _ _) rfl rfl (Dev.Only.refl _ _ _)))
        · cases h

theorem Dev.handOver_only (x0 : Nat) (x1 : Dev) : Dev.Only 0x2200 0 x1 (Dev.handOver x0 x1) := by
  induction x0 generalizing x1 with
  | zero => exact Dev.Only.refl _ _ _
  | succ n ih =>
    unfold Dev.handOver
    split
    · next d' hd => exact Dev.Only.step (ih _) rfl rfl (Dev.Only.mono (Dev.handOne_only _ _ hd) rfl rfl)
    · exact Dev.Only.refl _ _ _

theorem Dev.finishWork_only (x0 : Dev) (x1 : Nat) (x2 : Work) :
    Dev.Only 0x2000 0x4000000000000000000 x0 (Dev.finishWork x0 x1 x2) := by
  unfold Dev.finishWork
  repeat' (first
    | with_reducible assumption
    | exact rfl
    | (extract_lets +onlyGivenNames x; first | (refine Dev.Only.have1 x (fun hx => ?_) ?_; clear_value x; rotate_left; subst x)  | (refine Dev.Only.have1 x.1 (fun hx => ?_) ?_; clear_value x; rotate_left; subst x) | (refine Dev.Only.have1 x.2 (fun hx => ?_) ?_; clear_value x; rotate_left; subst x) | (refine Dev.Only.fun1 x ?_; subst x; try dsimp -zeta only) | clear_value x)
    | with_reducible exact Dev.Only.refl _ _ _
    | with_reducible apply Dev.Only.step (Dev.addBusy_only _ _ _)
    | with_reducible apply Dev.Only.step (Dev.updRk_only _ _)
    | split)

theorem Dev.settleRk_only (x0 : Dev) :
    Dev.Only 0x2200 0 x0 (Dev.settleRk x0) := by
  unfold Dev.settleRk
  repeat' (first
    | exact rfl
    | with_reducible exact Dev.Only.refl _ _ _
    | with_reducible apply Dev.Only.step (Dev.handOver_only _ _)
    | with_reducible apply Dev.Only.step (Dev.startAll_only _))

theorem Dev.tileDone_only (x0 : Dev) (x1 : Nat) (x2 : WorkKind) (x3 : TileOut) :
    Dev.Only 0x1408b002300 0x201f140000000000000000000000000000000000000000000004600000000000008040 x0 (Dev.tileDone x0 x1 x2 x3) := by
  unfold Dev.tileDone
  repeat' (first
    | with_reducible assumption
    | exact rfl
    | (extract_lets +onlyGivenNames x; first | (refine Dev.Only.have1 x (fun hx => ?_) ?_; clear_value x; rotate_left; subst x)  | (refine Dev.Only.have1 x.1 (fun hx => ?_) ?_; clear_value x; rotate_left; subst x) | (refine Dev.Only.have1 x.2 (fun hx => ?_) ?_; clear_value x; rotate_left; subst x) | (refine Dev.Only.fun1 x ?_; subst x; try dsimp -zeta only) | clear_value x)
    | with_reducible exact Dev.Only.refl _ _ _
    | with_reducible apply Dev.Only.step (Dev.finishWork_only _ _ _)
    | with_reducible apply Dev.Only.step (Dev.settleRk_only _)
    | with_reducible apply Dev.Only.step (Dev.compareTile_only _ _)
    | with_reducible apply Dev.Only.step (Dev.updRk_only _ _)
    | (with_reducible apply Dev.Only.of_fst; assumption)
    | split)

theorem execBandColumnRendered_only (x0 : RkNo) (x1 : TileOut) (x2 : State) :
    Out.Only 0x1408b002300 0x201f140000000000000000000000000000000000000000000004600000000000008040 x2 (execBandColumnRendered x0 x1 x2) := by
  unfold execBandColumnRendered
  repeat' (first
    | exact rfl
    | with_reducible exact Dev.Only.refl _ _ _
    | with_reducible exact State.Only.refl _ _ _
    | with_reducible apply Out.Only.act
    | with_reducible apply Dev.Only.step (Dev.tileDone_only _ _ _ _))

theorem execCacheBuildDone_only (x0 : RkNo) (x1 : TileOut) (x2 : State) :
    Out.Only 0x1408b002300 0x201f140000000000000000000000000000000000000000000004600000000000008040 x2 (execCacheBuildDone x0 x1 x2) := by
  unfold execCacheBuildDone
  repeat' (first
    | exact rfl
    | with_reducible exact Dev.Only.refl _ _ _
    | with_reducible exact State.Only.refl _ _ _
    | with_reducible apply Out.Only.act
    | with_reducible apply Dev.Only.step (Dev.tileDone_only _ _ _ _))

theorem execWitnessDone_only (x0 : RkNo) (x1 : List Sample) (x2 : State) :
    Out.Only 0x1408b002300 0x201f140000000000000000000000000000000000000000000004600000000000008040 x2 (execWitnessDone x0 x1 x2) := by
  unfold execWitnessDone
  repeat' (first
    | with_reducible assumption
    | exact rfl
    | (extract_lets +onlyGivenNames x; (refine Dev.Only.have1 x (fun hx => ?_) ?_; clear_value x; rotate_left; subst x))
    | with_reducible exact Dev.Only.refl _ _ _
    | with_reducible exact State.Only.refl _ _ _
    | with_reducible apply Out.Only.act
    | with_reducible apply Dev.Only.step (Dev.compareTile_only _ _)
    | with_reducible apply Dev.Only.step (Dev.finishWork_only _ _ _)
    | with_reducible apply Dev.Only.step (Dev.settleRk_only _)
    | with_reducible apply Dev.Only.step (Dev.updRk_only _ _)
    | split)

theorem Dev.majority_only (x0 : Dev) (x1 : TileRec) (x2 : Nat) (x3 : TileOut) :
    Dev.Only 0x1408b002100 0x201f140000000000000000000000000000000000000000000007c1c000000000208040 x0 (Dev.majority x0 x1 x2 x3) := by
  unfold Dev.majority
  repeat' (first
    | with_reducible assumption
    | exact rfl
    | (extract_lets +onlyGivenNames x; first | (refine Dev.Only.have1 x (fun hx => ?_) ?_; clear_value x; rotate_left; subst x)  | (refine Dev.Only.have1 x.1 (fun hx => ?_) ?_; clear_value x; rotate_left; subst x) | (refine Dev.Only.have1 x.2 (fun hx => ?_) ?_; clear_value x; rotate_left; subst x) | (refine Dev.Only.fun1 x ?_; subst x; try dsimp -zeta only) | clear_value x)
    | with_reducible exact Dev.Only.refl _ _ _
    | with_reducible apply Dev.Only.step (Dev.strike_only _ _ _)
    | with_reducible apply Dev.Only.step (Dev.passTile_only _ _)
    | with_reducible apply Dev.Only.step (Dev.updRk_only _ _)
    | with_reducible apply Dev.Only.step (Dev.noMajority_only _ _ _)
    | (with_reducible apply Dev.Only.of_fst; assumption)
    | split)

theorem execThirdRenderDone_only (x0 : RkNo) (x1 : TileOut) (x2 : State) :
    Out.Only 0x1408b002300 0x201f140000000000000000000000000000000000000000000007c1c000000000208040 x2 (execThirdRenderDone x0 x1 x2) := by
  unfold execThirdRenderDone
  repeat' (first
    | with_reducible assumption
    | exact rfl
    | (extract_lets +onlyGivenNames x; (refine Dev.Only.have1 x (fun hx => ?_) ?_; clear_value x; rotate_left; subst x))
    | with_reducible exact Dev.Only.refl _ _ _
    | with_reducible exact State.Only.refl _ _ _
    | with_reducible apply Out.Only.act
    | with_reducible apply Dev.Only.step (Dev.finishWork_only _ _ _)
    | with_reducible apply Dev.Only.step (Dev.majority_only _ _ _ _)
    | with_reducible apply Dev.Only.step (Dev.settleRk_only _)
    | with_reducible apply Dev.Only.step (Dev.startAll_only _)
    | split)

theorem Dev.failWork_only (x0 : Dev) (x1 : Nat) (x2 : Nat) (x3 : Work) :
    Dev.Only 0x1408b002300 0x201f140000000000000000000000000000000000000000000007c1c000000000208040 x0 (Dev.failWork x0 x1 x2 x3) := by
  unfold Dev.failWork
  repeat' (first
    | with_reducible assumption
    | exact rfl
    | (extract_lets +onlyGivenNames x; first | (refine Dev.Only.have1 x (fun hx => ?_) ?_; clear_value x; rotate_left; subst x)  | (refine Dev.Only.have1 x.1 (fun hx => ?_) ?_; clear_value x; rotate_left; subst x) | (refine Dev.Only.have1 x.2 (fun hx => ?_) ?_; clear_value x; rotate_left; subst x) | (refine Dev.Only.fun1 x ?_; subst x; try dsimp -zeta only) | clear_value x)
    | with_reducible exact Dev.Only.refl _ _ _
    | with_reducible apply Dev.Only.step (Dev.strike_only _ _ _)
    | with_reducible apply Dev.Only.step (Dev.addBusy_only _ _ _)
    | with_reducible apply Dev.Only.step (Dev.updRk_only _ _)
    | with_reducible apply Dev.Only.step (Dev.settleRk_only _)
    | with_reducible apply Dev.Only.step (Dev.requeue_only _ _ _)
    | split)

theorem Dev.rkTrap_only (x0 : Dev) (x1 : Nat) (x2 : TrapCause) (x3 : Bool) :
    Dev.Only 0x1408b002300 0x201f140000000000000000000000000000000000000000000007c1c000000000208040 x0 (Dev.rkTrap x0 x1 x2 x3) := by
  unfold Dev.rkTrap
  repeat' (first
    | with_reducible assumption
    | exact rfl
    | (extract_lets +onlyGivenNames x; first | (refine Dev.Only.have1 x (fun hx => ?_) ?_; clear_value x; rotate_left; subst x)  | (refine Dev.Only.have1 x.1 (fun hx => ?_) ?_; clear_value x; rotate_left; subst x) | (refine Dev.Only.have1 x.2 (fun hx => ?_) ?_; clear_value x; rotate_left; subst x) | (refine Dev.Only.fun1 x ?_; subst x; try dsimp -zeta only) | clear_value x)
    | with_reducible exact Dev.Only.refl _ _ _
    | with_reducible apply Dev.Only.step (Dev.raise_only _ _ _)
    | with_reducible apply Dev.Only.step (Dev.settleRk_only _)
    | with_reducible apply Dev.Only.step (Dev.strike_only _ _ _)
    | with_reducible apply Dev.Only.step (Dev.updRk_only _ _)
    | with_reducible apply Dev.Only.step (Dev.addBusy_only _ _ _)
    | with_reducible apply Dev.Only.step (Dev.failWork_only _ _ _ _)
    | (with_reducible apply Dev.Only.of_fst; assumption)
    | split)

theorem execReckonerTrap_only (x0 : RkNo) (x1 : TrapCause) (x2 : Bool) (x3 : State) :
    Out.Only 0x1408b002310 0x201f140000000000000000000000000000000000000000000007c1c000000000208040 x3 (execReckonerTrap x0 x1 x2 x3) := by
  unfold execReckonerTrap
  repeat' (first
    | with_reducible assumption
    | exact rfl
    | (extract_lets +onlyGivenNames x; first | (refine Out.Only.have1 x (fun hx => ?_) ?_; clear_value x; rotate_left; subst x) | (refine Out.Only.have2 x (fun hx => ?_) ?_; clear_value x; rotate_left; subst x)  | (refine State.Only.have1 x (fun hx => ?_) ?_; clear_value x; rotate_left; subst x) | (refine State.Only.have2 x (fun hx => ?_) ?_; clear_value x; rotate_left; subst x) | (refine Dev.Only.have1 x (fun hx => ?_) ?_; clear_value x; rotate_left; subst x) | clear_value x)
    | with_reducible exact Dev.Only.refl _ _ _
    | with_reducible exact State.Only.refl _ _ _
    | (with_reducible apply State.Only.dev; with_reducible assumption)
    | with_reducible apply Out.Only.act
    | with_reducible apply Out.Only.next
    | with_reducible apply State.Only.step (State.reloadRk_only _ _)
    | with_reducible apply Dev.Only.step (Dev.rkTrap_only _ _ _ _)
    | split
    | with_reducible apply State.Only.mkDev)

theorem execRenderWatchdog_only (x0 : RkNo) (x1 : State) :
    Out.Only 0x1408b002300 0x201f140000000000000000000000000000000000000000000007c1c000000000208040 x1 (execRenderWatchdog x0 x1) := by
  unfold execRenderWatchdog
  repeat' (first
    | with_reducible assumption
    | exact rfl
    | with_reducible exact Dev.Only.refl _ _ _
    | with_reducible exact State.Only.refl _ _ _
    | (with_reducible apply State.Only.dev; with_reducible assumption)
    | with_reducible apply Out.Only.act
    | with_reducible apply Out.Only.next
    | with_reducible apply Dev.Only.step (Dev.failWork_only _ _ _ _)
    | (with_reducible apply Dev.Only.of_fst; assumption)
    | split
    | with_reducible apply State.Only.mkDev)

/-! ### Lead -/

theorem Dev.refreshLead_only (x0 : Dev) :
    Dev.Only 0 0x1000018000000000000000000000000000000 x0 (Dev.refreshLead x0) := by
  unfold Dev.refreshLead
  repeat' (first
    | with_reducible assumption
    | exact rfl
    | intro e
    | (extract_lets +onlyGivenNames x; first | (refine Dev.Only.have1 x (fun hx => ?_) ?_; clear_value x; rotate_left; subst x) | clear_value x)
    | with_reducible exact Dev.Only.refl _ _ _
    | with_reducible apply Dev.Only.wr
    | with_reducible apply Dev.Only.forEach)

theorem Dev.decideLevel_only (x0 : Dev) :
    Dev.Only 0x14080100100 0x200000000000000000000000000008040 x0 (Dev.decideLevel x0) := by
  unfold Dev.decideLevel
  repeat' (first
    | with_reducible assumption
    | exact rfl
    | (extract_lets +onlyGivenNames x; first | (refine Dev.Only.have1 x (fun hx => ?_) ?_; clear_value x; rotate_left; subst x) | clear_value x)
    | with_reducible exact Dev.Only.refl _ _ _
    | with_reducible apply Dev.Only.step (Dev.raise_only _ _ _)
    | with_reducible apply Dev.Only.wr
    | split
    | with_reducible apply Dev.Only.with_lvSince)

end Sys2Proof.Machine
end

