-- ==== Sys2Proof/Laws/OnlyFire.lean ====
section
/-! SUPPORT. What each operation may change, operation by operation: DMA, traces, axes, heat, encoder, plans and dosing. Each lemma names the parts
and the register fields as bit masks over `Part` and `Fld`. -/
namespace Sys2Proof.Machine

-- One theorem at a time: checked side by side, their threads exceed the memory that the check allows.
set_option Elab.async false
-- The proofs of this file share one script, whose steps not every goal needs.
set_option linter.unusedTactic false
set_option linter.unreachableTactic false

/-! ### Dma -/

theorem Dev.haltRing_only (x0 : Dev) (x1 : Nat) :
    Dev.Only 0x14080000100 0x30000000000000000000000000000000000000000000000000000000000000000000000000000000000000000000000000000000000000000000000000000000000000008040 x0 (Dev.haltRing x0 x1) := by
  unfold Dev.haltRing
  repeat' (first
    | with_reducible assumption
    | exact rfl
    | (extract_lets +onlyGivenNames x; (refine Dev.Only.have1 x (fun hx => ?_) ?_; clear_value x; rotate_left; subst x))
    | with_reducible exact Dev.Only.refl _ _ _
    | with_reducible apply Dev.Only.step (Dev.raise_only _ _ _)
    | with_reducible apply Dev.Only.setBit
    | split)

theorem Dev.ringIrq_only (x0 : Dev) (x1 : Nat) (x2 : Bool) :
    Dev.Only 0 0x180 x0 (Dev.ringIrq x0 x1 x2) := by
  unfold Dev.ringIrq
  repeat' (first
    | exact rfl
    | with_reducible exact Dev.Only.refl _ _ _
    | with_reducible apply Dev.Only.setBit
    | split)

theorem State.descDone_only (x0 : State) (x1 : Nat) (x2 : Nat) (x3 : List Byte) (x4 : List Byte) (x5 : Nat) (x6 : Nat) (x7 : Nat) (x8 : Nat) :
    State.Only 0x40000000000 0x800000000000000000000020800000000000000000000000000000000000000000000000000000000000000000000000000000000000000000000000000000000000000000180 x0 (State.descDone x0 x1 x2 x3 x4 x5 x6 x7 x8) := by
  unfold State.descDone
  repeat' (first
    | with_reducible assumption
    | exact rfl
    | (extract_lets +onlyGivenNames x; (refine State.Only.have1 x (fun hx => ?_) ?_; clear_value x; rotate_left; subst x))
    | with_reducible exact State.Only.refl _ _ _
    | with_reducible apply Dev.Only.step (Dev.ringIrq_only _ _ _)
    | with_reducible apply State.Only.step (State.dramWrite_only _ _ _ _)
    | with_reducible apply Dev.Only.wr
    | (with_reducible apply State.Only.dev; with_reducible assumption)
    | with_reducible apply State.Only.mkDev)

theorem State.descFail_only (x0 : State) (x1 : Nat) (x2 : Nat) :
    State.Only 0x54080000100 0x30000000000000000000020800000000000000000000000000000000000000000000000000000000000000000000000000000000000000000000000000000000000000008040 x0 (State.descFail x0 x1 x2) := by
  unfold State.descFail
  repeat' (first
    | with_reducible assumption
    | exact rfl
    | (extract_lets +onlyGivenNames x; (refine State.Only.have1 x (fun hx => ?_) ?_; clear_value x; rotate_left; subst x))
    | with_reducible exact State.Only.refl _ _ _
    | with_reducible apply Dev.Only.step (Dev.haltRing_only _ _)
    | with_reducible apply State.Only.step (State.dramWrite_only _ _ _ _)
    | (with_reducible apply State.Only.dev; with_reducible assumption)
    | with_reducible apply State.Only.mkDev)

theorem State.descMove_only (x0 : State) (x1 : Nat) (x2 : List Byte) (x3 : List Byte) (x4 : Bool) :
    State.Only 0x40000000000 0x20800000000000000000000000000000000000000000000000000000000000000000000000000000000000000000000000000000000000000000000 x0 (State.descMove x0 x1 x2 x3 x4).1 := by
  unfold State.descMove
  repeat' (first
    | exact rfl
    | (extract_lets +onlyGivenNames x; clear_value x)
    | with_reducible exact State.Only.refl _ _ _
    | with_reducible apply State.Only.step (State.dramWrite_only _ _ _ _)
    | split)

theorem Dev.workReported_only (x0 : Dev) (x1 : Nat) :
    Dev.Only 0x2000 0 x0 (Dev.workReported x0 x1) := by
  unfold Dev.workReported
  repeat' (first
    | with_reducible assumption
    | exact rfl
    | (extract_lets +onlyGivenNames x; first | (refine Dev.Only.have1 x (fun hx => ?_) ?_; clear_value x; rotate_left; subst x)  | (refine Dev.Only.have1 x.1 (fun hx => ?_) ?_; clear_value x; rotate_left; subst x) | (refine Dev.Only.have1 x.2 (fun hx => ?_) ?_; clear_value x; rotate_left; subst x) | (refine Dev.Only.fun1 x ?_; subst x; try dsimp -zeta only) | clear_value x)
    | with_reducible exact Dev.Only.refl _ _ _
    | (with_reducible apply Dev.Only.of_fst; assumption)
    | split
    | with_reducible apply Dev.Only.with_rk)

theorem Dev.ingest_only (x0 : Dev) (x1 : Nat) (x2 : List Byte) (x3 : Bool) :
    Dev.Only 0x800 0 x0 (Dev.ingest x0 x1 x2 x3) := by
  unfold Dev.ingest
  repeat' (first
    | with_reducible assumption
    | exact rfl
    | (extract_lets +onlyGivenNames x; first | (refine Dev.Only.have1 x (fun hx => ?_) ?_; clear_value x; rotate_left; subst x)  | (refine Dev.Only.have1 x.1 (fun hx => ?_) ?_; clear_value x; rotate_left; subst x) | (refine Dev.Only.have1 x.2 (fun hx => ?_) ?_; clear_value x; rotate_left; subst x) | (refine Dev.Only.fun1 x ?_; subst x; try dsimp -zeta only) | clear_value x)
    | with_reducible exact Dev.Only.refl _ _ _
    | split
    | with_reducible apply Dev.Only.with_conns)

theorem Dev.noteTries_only (x0 : Dev) (x1 : Nat) (x2 : Nat) (x3 : Bool) :
    Dev.Only 0x4005080000 0 x0 (Dev.noteTries x0 x1 x2 x3) := by
  unfold Dev.noteTries
  repeat' (first
    | with_reducible assumption
    | exact rfl
    | (extract_lets +onlyGivenNames x; first | (refine Dev.Only.have1 x (fun hx => ?_) ?_; clear_value x; rotate_left; subst x)  | (refine Dev.Only.have1 x.1 (fun hx => ?_) ?_; clear_value x; rotate_left; subst x) | (refine Dev.Only.have1 x.2 (fun hx => ?_) ?_; clear_value x; rotate_left; subst x) | (refine Dev.Only.fun1 x ?_; subst x; try dsimp -zeta only) | clear_value x)
    | with_reducible exact Dev.Only.refl _ _ _
    | with_reducible apply Dev.Only.step (Dev.updRw_only _ _ _)
    | split
    | with_reducible apply Dev.Only.with_vis
    | with_reducible apply Dev.Only.with_integ
    | with_reducible apply Dev.Only.with_evr)

theorem State.descProcess_only (x0 : State) (x1 : Nat) (x2 : List Byte) (x3 : List Byte) (x4 : Nat) (x5 : Bool) :
    State.Only 0x54085082900 0x8300000000000000000000208000000000000000000000000000000000000000000000000000000000000000000000000000000000000000000000000000000000000000081c0 x0 (State.descProcess x0 x1 x2 x3 x4 x5) := by
  unfold State.descProcess
  repeat' (first
    | with_reducible assumption
    | exact rfl
    | (extract_lets +onlyGivenNames x; first | (refine State.Only.have1 x (fun hx => ?_) ?_; clear_value x; rotate_left; subst x) | (refine State.Only.have2 x (fun hx => ?_) ?_; clear_value x; rotate_left; subst x) | (refine State.Only.fun1 x ?_; subst x; try dsimp -zeta only) | (refine Dev.Only.have1 x (fun hx => ?_) ?_; clear_value x; rotate_left; subst x) | (refine Dev.Only.fun1 x ?_; subst x; try dsimp -zeta only) | clear_value x)
    | with_reducible exact Dev.Only.refl _ _ _
    | with_reducible exact State.Only.refl _ _ _
    | (with_reducible apply State.Only.dev; with_reducible assumption)
    | with_reducible apply State.Only.step (State.descFail_only _ _ _)
    | with_reducible apply Dev.Only.step (Dev.noteTries_only _ _ _ _)
    | with_reducible apply State.Only.step (State.descMove_only _ _ _ _ _)
    | with_reducible apply State.Only.step (State.descDone_only _ _ _ _ _ _ _ _ _)
    | with_reducible apply Dev.Only.step (Dev.ingest_only _ _ _ _)
    | with_reducible apply Dev.Only.step (Dev.workReported_only _ _)
    | (with_reducible apply Dev.Only.of_fst; assumption)
    | (with_reducible apply Dev.Only.of_snd; assumption)
    | (with_reducible apply Dev.Only.of_snd2; assumption)
    | (with_reducible apply State.Only.of_fst; assumption)
    | (with_reducible apply State.Only.of_snd; assumption)
    | (with_reducible apply State.Only.dev; with_reducible apply State.Only.of_fst; assumption)
    | (with_reducible apply State.Only.dev; with_reducible apply State.Only.of_snd; assumption)
    | split
    | with_reducible apply State.Only.mkDev)

theorem State.xcProcess_only (x0 : State) (x1 : Nat) (x2 : List Byte) (x3 : Nat) (x4 : Bool) :
    State.Only 0x54085082900 0x8300000000000000000000208000000000000000000000000000000000000000000000000000000000000000000000000000000000000000000000000000000000000000081c0 x0 (State.xcProcess x0 x1 x2 x3 x4) := by
  unfold State.xcProcess
  repeat' (first
    | with_reducible assumption
    | exact rfl
    | (extract_lets +onlyGivenNames x; first | (refine State.Only.have1 x (fun hx => ?_) ?_; clear_value x; rotate_left; subst x) | (refine State.Only.have2 x (fun hx => ?_) ?_; clear_value x; rotate_left; subst x) | clear_value x)
    | with_reducible exact State.Only.refl _ _ _
    | with_reducible apply State.Only.step (State.descProcess_only _ _ _ _ _ _)
    | split
    | (with_reducible apply State.Only.dev; with_reducible assumption)
    | with_reducible apply State.Only.mkDev
    | with_reducible apply Dev.Only.with_xpp)

theorem execDmaDescriptorDone_only (x0 : RingNo) (x1 : List Byte) (x2 : List Byte) (x3 : Fin 16) (x4 : Bool) (x5 : State) :
    Out.Only 0x54085082900 0x8300000000000000000000208000000000000000000000000000000000000000000000000000000000000000000000000000000000000000000000000000000000000000081c0 x5 (execDmaDescriptorDone x0 x1 x2 x3 x4 x5) := by
  unfold execDmaDescriptorDone
  repeat' (first
    | with_reducible assumption
    | exact rfl
    | with_reducible exact Dev.Only.refl _ _ _
    | with_reducible exact State.Only.refl _ _ _
    | (with_reducible apply State.Only.dev; with_reducible assumption)
    | with_reducible apply Out.Only.next
    | with_reducible apply State.Only.step (State.xcProcess_only _ _ _ _ _)
    | with_reducible apply State.Only.step (State.descProcess_only _ _ _ _ _ _)
    | split
    | with_reducible apply State.Only.mkDev)

theorem execDmaHalt_only (x0 : RingNo) (x1 : State) :
    Out.Only 0x54080000100 0x30000000000000000000020800000000000000000000000000000000000000000000000000000000000000000000000000000000000000000000000000000000000000008040 x1 (execDmaHalt x0 x1) := by
  unfold execDmaHalt
  repeat' (first
    | exact rfl
    | with_reducible exact State.Only.refl _ _ _
    | with_reducible apply Out.Only.next
    | with_reducible apply State.Only.step (State.descFail_only _ _ _)
    | split)

theorem execDmaHaltClear_only (x0 : Lvl) (x1 : Bool) (x2 : U32) (x3 : State) :
    Out.Only 0x14080000100 0x30000000000000000000000000000000000000000000000000000000000000000000000000000000000000000000000000000000000000000000000000000fc00000001f8040 x3 (execDmaHaltClear x0 x1 x2 x3) := by
  unfold execDmaHaltClear
  repeat' (first
    | with_reducible assumption
    | exact rfl
    | intro e
    | with_reducible exact Dev.Only.refl _ _ _
    | with_reducible exact State.Only.refl _ _ _
    | with_reducible apply Out.Only.act
    | with_reducible apply Dev.ownWrite_only
    | with_reducible apply Dev.Only.wr
    | split)

theorem Dev.addBuffers_only (x0 : Dev) (x1 : Nat) (x2 : List Nat) :
    Dev.Only 0x4001000000 0 x0 (Dev.addBuffers x0 x1 x2) := by
  unfold Dev.addBuffers
  repeat' (first
    | exact rfl
    | (extract_lets +onlyGivenNames x; clear_value x)
    | with_reducible exact Dev.Only.refl _ _ _
    | split
    | with_reducible apply Dev.Only.with_evr
    | with_reducible apply Dev.Only.with_integ)

theorem State.fwWrite_only (x0 : State) (x1 : Nat) (x2 : Nat) (x3 : List Byte) :
    State.Only 0x54080000100 0x20800000000000000000000000000000000000000000000000000000000000000000000000000000000000000000000000000000fc0000000008040 x0 (State.fwWrite x0 x1 x2 x3) := by
  unfold State.fwWrite
  repeat' (first
    | exact rfl
    | with_reducible exact Dev.Only.refl _ _ _
    | with_reducible exact State.Only.refl _ _ _
    | with_reducible apply Dev.Only.step (Dev.protRefuse_only _ _ _ _ _)
    | with_reducible apply State.Only.step (State.dramWrite_only _ _ _ _)
    | split
    | with_reducible apply State.Only.mkDev)

theorem State.fwDescs_only (x0 : State) (x1 : Nat) (x2 : Nat) (x3 : Nat) (x4 : List (List Byte)) :
    State.Only 0x54080000100 0x20800000000000000000000000000000000000000000000000000000000000000000000000000000000000000000000000000000fc0000000008040 x0 (State.fwDescs x0 x1 x2 x3 x4) := by
  induction x4 generalizing x0 x1 x2 x3 with
  | nil => exact State.Only.refl _ _ _
  | cons y t ih => exact State.Only.step (ih _ _ _ _) rfl rfl (State.Only.mono (State.fwWrite_only _ _ _ _) rfl rfl)

theorem execDmaTailWrite_only (x0 : Lvl) (x1 : RingNo) (x2 : BitVec 19) (x3 : List (List Byte)) (x4 : State) :
    Out.Only 0x54081000100 0x1000000000000000000000020800000000000000000000000000000000000000000000000000000000000000000000000000000000000000000000000000000fc00000001f8040 x4 (execDmaTailWrite x0 x1 x2 x3 x4) := by
  unfold execDmaTailWrite
  extract_lets descs s1
  have h1 : State.Only 0x54081000100 0x1000000000000000000000020800000000000000000000000000000000000000000000000000000000000000000000000000000000000000000000000000000fc00000001f8040 x4 s1 := State.Only.mono (State.fwDescs_only _ _ _ _ _) rfl rfl
  clear_value s1
  refine Out.Only.act ?_ h1
  refine Dev.ownWrite_only (fun e he => ?_) rfl rfl h1.dev
  exact Dev.Only.step (Dev.addBuffers_only _ _ _) rfl rfl (Dev.Only.wr _ _ _ _ rfl he)

theorem State.closeBuf_only {c f : Nat} {α : Type} {s0 s : State} {r : Nat} {ring : BufRing α} {enc : Nat → α → List Byte}
    {head : Nat → List Byte} {put : BufRing α → Dev → Dev} (hp : ∀ b e, Dev.Only c f s0.dev e → Dev.Only c f s0.dev (put b e))
    (hc : 0x54080000100 &&& c = 0x54080000100) (hr : 0x8300000000000000000000208000000000000000000000000000000000000000000000000000000000000000000000000000000000000000000000000000000000000000081c0 &&& f = 0x8300000000000000000000208000000000000000000000000000000000000000000000000000000000000000000000000000000000000000000000000000000000000000081c0) (h : State.Only c f s0 s) : State.Only c f s0 (s.closeBuf r ring enc head put) := by
  unfold State.closeBuf
  split
  · extract_lets +onlyGivenNames now
    split
    · exact h
    · split
      · exact State.Only.step (State.Only.mono (State.descFail_only _ _ _) rfl rfl) hc hr h
      · extract_lets +onlyGivenNames data s1
        have h1 : State.Only c f s0 s1 := State.Only.step (State.Only.mono (State.dramWrite_only _ _ _ _) rfl rfl) hc hr h
        clear_value s1
        extract_lets +onlyGivenNames s2
        have h2 : State.Only c f s0 s2 := State.Only.step (State.Only.mono (State.descDone_only _ _ _ _ _ _ _ _ _) rfl rfl) hc hr h1
        clear_value s2
        exact State.Only.mkDev (hp _ _ h2.dev) h2
  · exact h

theorem State.closeEvr_only (x0 : State) :
    State.Only 0x54080000100 0x8300000000000000000000208000000000000000000000000000000000000000000000000000000000000000000000000000000000000000000000000000000000000000081c0 x0 (State.closeEvr x0) := by
  unfold State.closeEvr
  repeat' (first
    | with_reducible assumption
    | exact rfl
    | intro e
    | with_reducible exact State.Only.refl _ _ _
    | with_reducible apply State.closeBuf_only
    | with_reducible apply Dev.Only.with_evr)

theorem State.closeSpr_only (x0 : State) :
    State.Only 0x54081000100 0x8300000000000000000000208000000000000000000000000000000000000000000000000000000000000000000000000000000000000000000000000000000000000000081c0 x0 (State.closeSpr x0) := by
  unfold State.closeSpr
  repeat' (first
    | with_reducible assumption
    | exact rfl
    | intro e
    | (extract_lets +onlyGivenNames x; clear_value x)
    | with_reducible exact State.Only.refl _ _ _
    | with_reducible apply State.closeBuf_only
    | with_reducible apply Dev.Only.with_integ)

theorem execEvrBufferClose_only (x0 : State) :
    Out.Only 0x54080000100 0x8300000000000000000000208000000000000000000000000000000000000000000000000000000000000000000000000000000000000000000000000000000000000000081c0 x0 (execEvrBufferClose x0) := by
  unfold execEvrBufferClose
  repeat' (first
    | with_reducible assumption
    | exact rfl
    | with_reducible exact Dev.Only.refl _ _ _
    | with_reducible exact State.Only.refl _ _ _
    | (with_reducible apply State.Only.dev; with_reducible assumption)
    | with_reducible apply Out.Only.next
    | with_reducible apply State.Only.step (State.closeEvr_only _)
    | split
    | with_reducible apply State.Only.mkDev)

theorem execSprFlush_only (x0 : State) :
    Out.Only 0x54081000100 0x8300000000000000000000208000000000000000000000000000000000000000000000000000000000000000000000000000000000000000000000000000000000000000081c0 x0 (execSprFlush x0) := by
  unfold execSprFlush
  repeat' (first
    | with_reducible assumption
    | exact rfl
    | with_reducible exact Dev.Only.refl _ _ _
    | with_reducible exact State.Only.refl _ _ _
    | (with_reducible apply State.Only.dev; with_reducible assumption)
    | with_reducible apply Out.Only.next
    | with_reducible apply State.Only.step (State.closeSpr_only _)
    | split
    | with_reducible apply State.Only.mkDev)

theorem State.closeFull_only (x0 : State) :
    State.Only 0x54081000100 0x8300000000000000000000208000000000000000000000000000000000000000000000000000000000000000000000000000000000000000000000000000000000000000081c0 x0 (State.closeFull x0) := by
  unfold State.closeFull
  repeat' (first
    | with_reducible assumption
    | exact rfl
    | (extract_lets +onlyGivenNames x; first | (refine State.Only.have1 x (fun hx => ?_) ?_; clear_value x; rotate_left; subst x) | (refine State.Only.have2 x (fun hx => ?_) ?_; clear_value x; rotate_left; subst x) | (refine State.Only.fun1 x ?_; subst x; try dsimp -zeta only) | (refine Dev.Only.have1 x (fun hx => ?_) ?_; clear_value x; rotate_left; subst x) | (refine Dev.Only.fun1 x ?_; subst x; try dsimp -zeta only) | clear_value x)
    | with_reducible exact Dev.Only.refl _ _ _
    | with_reducible exact State.Only.refl _ _ _
    | (with_reducible apply State.Only.dev; with_reducible assumption)
    | with_reducible apply State.Only.step (State.closeEvr_only _)
    | with_reducible apply State.Only.step (State.closeSpr_only _)
    | split
    | with_reducible apply State.Only.mkDev)

/-! ### Idle -/

theorem Dev.tickEnd_only (x0 : Dev) :
    Dev.Only 0x1408b00270c 0x820000000000000000000000000000000000000000000000000000000201f040000000000000000000000000000000000000000000000000000000000008040 x0 (Dev.tickEnd x0) := by
  unfold Dev.tickEnd
  repeat' (first
    | with_reducible assumption
    | exact rfl
    | with_reducible exact Dev.Only.refl _ _ _
    | with_reducible apply Dev.Only.step (Dev.closeJobs_only _)
    | with_reducible apply Dev.Only.step (Dev.closeDue_only _)
    | with_reducible apply Dev.Only.step (Dev.tick_only _)
    | split)

theorem State.tick_only (x0 : State) :
    State.Only 0x5408b00270c 0x83000000000000820000002080000000000000000000000000000000000000000000000201f0400000000000000000000000000000000000000000000000000000000000081c0 x0 (State.tick x0) := by
  unfold State.tick
  repeat' (first
    | with_reducible assumption
    | exact rfl
    | (extract_lets +onlyGivenNames x; first | (refine State.Only.have1 x (fun hx => ?_) ?_; clear_value x; rotate_left; subst x) | (refine State.Only.have2 x (fun hx => ?_) ?_; clear_value x; rotate_left; subst x) | (refine State.Only.fun1 x ?_; subst x; try dsimp -zeta only) | (refine Dev.Only.have1 x (fun hx => ?_) ?_; clear_value x; rotate_left; subst x) | (refine Dev.Only.fun1 x ?_; subst x; try dsimp -zeta only) | clear_value x)
    | with_reducible exact Dev.Only.refl _ _ _
    | with_reducible exact State.Only.refl _ _ _
    | (with_reducible apply State.Only.dev; with_reducible assumption)
    | with_reducible apply State.Only.step (State.closeFull_only _)
    | with_reducible apply Dev.Only.step (Dev.tickEnd_only _)
    | split
    | with_reducible apply State.Only.mkDev)

/-! ### Trace -/

theorem Dev.updTr_only (x0 : Dev) (x1 : Nat) (x2 : Trace → Trace) :
    Dev.Only 0x80000000 0 x0 (Dev.updTr x0 x1 x2) := by
  unfold Dev.updTr
  repeat' (first
    | exact rfl
    | with_reducible exact Dev.Only.refl _ _ _
    | with_reducible apply Dev.Only.with_trace)

theorem Dev.trTrigger_only (x0 : Dev) (x1 : Nat) :
    Dev.Only 0x14080000100 0x3000000000000000000000000000000000000000000000000000000000000000000000000000000000000000000000000008040 x0 (Dev.trTrigger x0 x1) := by
  unfold Dev.trTrigger
  repeat' (first
    | with_reducible assumption
    | exact rfl
    | (extract_lets +onlyGivenNames x; (refine Dev.Only.have1 x (fun hx => ?_) ?_; clear_value x; rotate_left; subst x))
    | with_reducible exact Dev.Only.refl _ _ _
    | with_reducible apply Dev.Only.step (Dev.raise_only _ _ _)
    | with_reducible apply Dev.Only.step (Dev.updTr_only _ _ _)
    | with_reducible apply Dev.Only.wr)

theorem Dev.trSample_only (x0 : Dev) (x1 : Nat) (x2 : Int) :
    Dev.Only 0x14080000100 0x3000000000000000000000000000000000000000000000000000000000000000000000000000000000000000000000000008040 x0 (Dev.trSample x0 x1 x2) := by
  unfold Dev.trSample
  repeat' (first
    | with_reducible assumption
    | exact rfl
    | (extract_lets +onlyGivenNames x; first | (refine Dev.Only.have1 x (fun hx => ?_) ?_; clear_value x; rotate_left; subst x) | clear_value x)
    | with_reducible exact Dev.Only.refl _ _ _
    | with_reducible apply Dev.Only.step (Dev.trTrigger_only _ _)
    | with_reducible apply Dev.Only.step (Dev.updTr_only _ _ _)
    | with_reducible apply Dev.Only.wr
    | split)

theorem Dev.traceLoop_only (x0 : Dev) (x1 : Nat) (x2 : Nat → Option Int) :
    Dev.Only 0x34080000100 0x3000000000000000000000000000000000000000000000000000000000000000000000000000000000000000000000000008040 x0 (Dev.traceLoop x0 x1 x2) := by
  unfold Dev.traceLoop
  repeat' (first
    | with_reducible assumption
    | exact rfl
    | intro e
    | with_reducible exact Dev.Only.refl _ _ _
    | with_reducible apply Dev.Only.step (Dev.free_only _ _)
    | with_reducible apply Dev.Only.step (Dev.trSample_only _ _ _)
    | with_reducible apply Dev.Only.forEach
    | split)

theorem Dev.trArm_only (x0 : Dev) (x1 : Nat) :
    Dev.Only 0x14080000100 0x3000000000000000000000000000000000000000000000000000000000000000000000000000000000000000000000000008040 x0 (Dev.trArm x0 x1) := by
  unfold Dev.trArm
  repeat' (first
    | with_reducible assumption
    | exact rfl
    | (extract_lets +onlyGivenNames x; (refine Dev.Only.have1 x (fun hx => ?_) ?_; clear_value x; rotate_left; subst x))
    | with_reducible exact Dev.Only.refl _ _ _
    | with_reducible apply Dev.Only.step (Dev.trTrigger_only _ _)
    | with_reducible apply Dev.Only.step (Dev.updTr_only _ _ _)
    | with_reducible apply Dev.Only.wr
    | split)

theorem execTraceArm_only (x0 : Lvl) (x1 : Fin 4) (x2 : State) :
    Out.Only 0x14080000100 0x3000000000000000000000000000000000000000000000000000000000000000000000000000000000000000fc00000001f8040 x2 (execTraceArm x0 x1 x2) := by
  unfold execTraceArm
  repeat' (first
    | with_reducible assumption
    | exact rfl
    | intro e
    | with_reducible exact Dev.Only.refl _ _ _
    | with_reducible exact State.Only.refl _ _ _
    | with_reducible apply Out.Only.act
    | with_reducible apply Dev.ownWrite_only
    | with_reducible apply Dev.Only.step (Dev.trArm_only _ _))

/-! ### Handover -/

theorem Dev.updBar_only (x0 : Dev) (x1 : Nat) (x2 : BarLoop → BarLoop) :
    Dev.Only 0x8000000 0 x0 (Dev.updBar x0 x1 x2) := by
  unfold Dev.updBar
  repeat' (first
    | exact rfl
    | (extract_lets +onlyGivenNames x; clear_value x)
    | with_reducible exact Dev.Only.refl _ _ _
    | with_reducible apply Dev.Only.with_loops)

theorem Dev.handDone_only (x0 : Dev) (x1 : Nat) (x2 : HandStep) :
    Dev.Only 0x14088000100 0x80000000000000000000000000000000000000000000000000000000000000000000000000000000008040 x0 (Dev.handDone x0 x1 x2) := by
  unfold Dev.handDone
  repeat' (first
    | with_reducible assumption
    | exact rfl
    | (extract_lets +onlyGivenNames x; (refine Dev.Only.have1 x (fun hx => ?_) ?_; clear_value x; rotate_left; subst x))
    | with_reducible exact Dev.Only.refl _ _ _
    | with_reducible apply Dev.Only.step (Dev.raise_only _ _ _)
    | with_reducible apply Dev.Only.step (Dev.updBar_only _ _ _)
    | with_reducible apply Dev.Only.wr
    | split)

theorem Dev.dropSteps_only (x0 : Dev) (x1 : Nat) :
    Dev.Only 0x8000000 0 x0 (Dev.dropSteps x0 x1) := by
  unfold Dev.dropSteps
  repeat' (first
    | with_reducible assumption
    | exact rfl
    | (extract_lets +onlyGivenNames x; first | (refine Dev.Only.have1 x (fun hx => ?_) ?_; clear_value x; rotate_left; subst x)  | (refine Dev.Only.have1 x.1 (fun hx => ?_) ?_; clear_value x; rotate_left; subst x) | (refine Dev.Only.have1 x.2 (fun hx => ?_) ?_; clear_value x; rotate_left; subst x) | (refine Dev.Only.fun1 x ?_; subst x; try dsimp -zeta only) | clear_value x)
    | with_reducible exact Dev.Only.refl _ _ _
    | with_reducible apply Dev.Only.step (Dev.updBar_only _ _ _)
    | (with_reducible apply Dev.Only.of_fst; assumption)
    | split
    | with_reducible apply Dev.Only.with_loops)

theorem Dev.stepSample_only (x0 : Dev) (x1 : Nat) :
    Dev.Only 0x14088000100 0x80000000000000000000000000000000000000000000000000000000000000000000000000000000008040 x0 (Dev.stepSample x0 x1) := by
  unfold Dev.stepSample
  repeat' (first
    | exact rfl
    | with_reducible exact Dev.Only.refl _ _ _
    | with_reducible apply Dev.Only.step (Dev.handDone_only _ _ _)
    | with_reducible apply Dev.Only.step (Dev.updBar_only _ _ _)
    | split)

/-! ### Axes -/

theorem Dev.updAx_only (x0 : Dev) (x1 : Nat) (x2 : Axis → Axis) :
    Dev.Only 0x10000000 0 x0 (Dev.updAx x0 x1 x2) := by
  unfold Dev.updAx
  repeat' (first
    | exact rfl
    | with_reducible exact Dev.Only.refl _ _ _
    | with_reducible apply Dev.Only.with_axes)

theorem Dev.updProf_only (x0 : Dev) (x1 : Nat) (x2 : Prof → Prof) :
    Dev.Only 0x10000000 0x80000000000000000000000000000000000000000000000000000000000000000000000000000000000000000000000 x0 (Dev.updProf x0 x1 x2) := by
  unfold Dev.updProf
  repeat' (first
    | with_reducible assumption
    | exact rfl
    | (extract_lets +onlyGivenNames x; (refine Dev.Only.have1 x (fun hx => ?_) ?_; clear_value x; rotate_left; subst x))
    | with_reducible exact Dev.Only.refl _ _ _
    | with_reducible apply Dev.Only.step (Dev.updAx_only _ _ _)
    | with_reducible apply Dev.Only.wr)

theorem Dev.axTo_only (x0 : Dev) (x1 : Nat) (x2 : AxState) :
    Dev.Only 0 0x40000000000000000000000000000000000000000000000000000000000000000000000000000000000000000000000 x0 (Dev.axTo x0 x1 x2) := by
  unfold Dev.axTo
  repeat' (first
    | exact rfl
    | with_reducible exact Dev.Only.refl _ _ _
    | with_reducible apply Dev.Only.wr)

theorem Dev.setLatch_only (x0 : Dev) (x1 : Nat) (x2 : Bool) (x3 : Option Int) :
    Dev.Only 0x10000000 0x600000000000000000000000000000000000000000000000000000000000000000000000000000000000000000000000 x0 (Dev.setLatch x0 x1 x2 x3) := by
  unfold Dev.setLatch
  repeat' (first
    | exact rfl
    | with_reducible exact Dev.Only.refl _ _ _
    | with_reducible apply Dev.Only.step (Dev.updAx_only _ _ _)
    | with_reducible apply Dev.Only.wr
    | split)

theorem Dev.homeMove_only (x0 : Dev) (x1 : Nat) (x2 : Bool) (x3 : Nat) :
    Dev.Only 0x10000000 0x80000000000000000000000000000000000000000000000000000000000000000000000000000000000000000000000 x0 (Dev.homeMove x0 x1 x2 x3) := by
  unfold Dev.homeMove
  repeat' (first
    | exact rfl
    | with_reducible exact Dev.Only.refl _ _ _
    | with_reducible apply Dev.Only.step (Dev.updProf_only _ _ _)
    | split)

theorem Dev.axRun_only (x0 : Dev) (x1 : Nat) (x2 : Int) :
    Dev.Only 0x10000000 0x80000000000000000000000000000000000000000000000000000000000000000000000000000000000000000000000 x0 (Dev.axRun x0 x1 x2) := by
  unfold Dev.axRun
  repeat' (first
    | exact rfl
    | (extract_lets +onlyGivenNames x; clear_value x)
    | with_reducible exact Dev.Only.refl _ _ _
    | with_reducible apply Dev.Only.step (Dev.updAx_only _ _ _)
    | with_reducible apply Dev.Only.step (Dev.updProf_only _ _ _)
    | split)

theorem Dev.axTarget_only (x0 : Dev) (x1 : Nat) (x2 : Int) (x3 : Bool) :
    Dev.Only 0x10000000 0x80002000000000000000000000000000000000000000000000000000000000000000000000000000000000000000000 x0 (Dev.axTarget x0 x1 x2 x3) := by
  unfold Dev.axTarget
  repeat' (first
    | with_reducible assumption
    | exact rfl
    | (extract_lets +onlyGivenNames x; (refine Dev.Only.have1 x (fun hx => ?_) ?_; clear_value x; rotate_left; subst x))
    | with_reducible exact Dev.Only.refl _ _ _
    | with_reducible apply Dev.Only.step (Dev.axRun_only _ _ _)
    | with_reducible apply Dev.Only.wr
    | split)

theorem Dev.homeAbort_only (x0 : Dev) (x1 : Nat) (x2 : AbortCause) :
    Dev.Only 0x14090000100 0xc0000000000000000000000000000000000000000000000000000000000000000000000000000000000000000008040 x0 (Dev.homeAbort x0 x1 x2) := by
  unfold Dev.homeAbort
  repeat' (first
    | with_reducible assumption
    | exact rfl
    | (extract_lets +onlyGivenNames x; first | (refine Dev.Only.have1 x (fun hx => ?_) ?_; clear_value x; rotate_left; subst x)  | (refine Dev.Only.have1 x.1 (fun hx => ?_) ?_; clear_value x; rotate_left; subst x) | (refine Dev.Only.have1 x.2 (fun hx => ?_) ?_; clear_value x; rotate_left; subst x) | (refine Dev.Only.fun1 x ?_; subst x; try dsimp -zeta only) | clear_value x)
    | with_reducible exact Dev.Only.refl _ _ _
    | with_reducible apply Dev.Only.step (Dev.updProf_only _ _ _)
    | with_reducible apply Dev.Only.step (Dev.updAx_only _ _ _)
    | with_reducible apply Dev.Only.step (Dev.raise_only _ _ _)
    | with_reducible apply Dev.Only.step (Dev.axTo_only _ _ _)
    | split)

theorem Dev.axFault_only (x0 : Dev) (x1 : Nat) (x2 : Nat) :
    Dev.Only 0x14098000100 0xc0000000000000000000000000000000000000000000000000000000000000000000000000000000000000000008040 x0 (Dev.axFault x0 x1 x2) := by
  unfold Dev.axFault
  repeat' (first
    | with_reducible assumption
    | exact rfl
    | (extract_lets +onlyGivenNames x; first | (refine Dev.Only.have1 x (fun hx => ?_) ?_; clear_value x; rotate_left; subst x)  | (refine Dev.Only.have1 x.1 (fun hx => ?_) ?_; clear_value x; rotate_left; subst x) | (refine Dev.Only.have1 x.2 (fun hx => ?_) ?_; clear_value x; rotate_left; subst x) | (refine Dev.Only.fun1 x ?_; subst x; try dsimp -zeta only) | clear_value x)
    | with_reducible exact Dev.Only.refl _ _ _
    | with_reducible apply Dev.Only.step (Dev.updAx_only _ _ _)
    | with_reducible apply Dev.Only.step (Dev.homeAbort_only _ _ _)
    | with_reducible apply Dev.Only.step (Dev.dropSteps_only _ _)
    | with_reducible apply Dev.Only.step (Dev.axTo_only _ _ _)
    | with_reducible apply Dev.Only.step (Dev.updProf_only _ _ _)
    | with_reducible apply Dev.Only.step (Dev.raise_only _ _ _)
    | split)

theorem execFollowingErrorFault_only (x0 : AxisNo) (x1 : State) :
    Out.Only 0x14098000100 0xc0000000000000000000000000000000000000000000000000000000000000000000000000000000000000000008040 x1 (execFollowingErrorFault x0 x1) := by
  unfold execFollowingErrorFault
  repeat' (first
    | with_reducible assumption
    | exact rfl
    | with_reducible exact Dev.Only.refl _ _ _
    | with_reducible exact State.Only.refl _ _ _
    | (with_reducible apply State.Only.dev; with_reducible assumption)
    | with_reducible apply Out.Only.act
    | with_reducible apply Out.Only.next
    | with_reducible apply Dev.Only.step (Dev.axFault_only _ _ _)
    | split
    | with_reducible apply State.Only.mkDev)

theorem Dev.toBackoff_only (x0 : Dev) (x1 : Nat) :
    Dev.Only 0x10000000 0xc0000000000000000000000000000000000000000000000000000000000000000000000000000000000000000000000 x0 (Dev.toBackoff x0 x1) := by
  unfold Dev.toBackoff
  repeat' (first
    | with_reducible assumption
    | exact rfl
    | (extract_lets +onlyGivenNames x; (refine Dev.Only.have1 x (fun hx => ?_) ?_; clear_value x; rotate_left; subst x))
    | with_reducible exact Dev.Only.refl _ _ _
    | with_reducible apply Dev.Only.step (Dev.axTo_only _ _ _)
    | with_reducible apply Dev.Only.step (Dev.homeMove_only _ _ _ _))

theorem Dev.homeEdge_only (x0 : Dev) (x1 : Nat) :
    Dev.Only 0x10000000 0xc0000000000000000000000000000000000000000000000000000000000000000000000000000000000000000000000 x0 (Dev.homeEdge x0 x1) := by
  unfold Dev.homeEdge
  repeat' (first
    | with_reducible assumption
    | exact rfl
    | (extract_lets +onlyGivenNames x; first | (refine Dev.Only.have1 x (fun hx => ?_) ?_; clear_value x; rotate_left; subst x)  | (refine Dev.Only.have1 x.1 (fun hx => ?_) ?_; clear_value x; rotate_left; subst x) | (refine Dev.Only.have1 x.2 (fun hx => ?_) ?_; clear_value x; rotate_left; subst x) | (refine Dev.Only.fun1 x ?_; subst x; try dsimp -zeta only) | clear_value x)
    | with_reducible exact Dev.Only.refl _ _ _
    | with_reducible apply Dev.Only.step (Dev.updAx_only _ _ _)
    | with_reducible apply Dev.Only.step (Dev.axTo_only _ _ _)
    | with_reducible apply Dev.Only.step (Dev.updProf_only _ _ _)
    | split)

theorem Dev.homeActive_only (x0 : Dev) (x1 : Nat) :
    Dev.Only 0x10000000 0x8c0000000000000000000000000000000000000000000000000000000000000000000000000000000000000000000000 x0 (Dev.homeActive x0 x1) := by
  unfold Dev.homeActive
  repeat' (first
    | with_reducible assumption
    | exact rfl
    | (extract_lets +onlyGivenNames x; (refine Dev.Only.have1 x (fun hx => ?_) ?_; clear_value x; rotate_left; subst x))
    | with_reducible exact Dev.Only.refl _ _ _
    | with_reducible apply Dev.Only.step (Dev.homeEdge_only _ _)
    | with_reducible apply Dev.Only.step (Dev.toBackoff_only _ _)
    | with_reducible apply Dev.Only.step (Dev.updAx_only _ _ _)
    | with_reducible apply Dev.Only.wr
    | split)

theorem Dev.homeInactive_only (x0 : Dev) (x1 : Nat) :
    Dev.Only 0x10000000 0x8c0000000000000000000000000000000000000000000000000000000000000000000000000000000000000000000000 x0 (Dev.homeInactive x0 x1) := by
  unfold Dev.homeInactive
  repeat' (first
    | with_reducible assumption
    | exact rfl
    | (extract_lets +onlyGivenNames x; (refine Dev.Only.have1 x (fun hx => ?_) ?_; clear_value x; rotate_left; subst x))
    | with_reducible exact Dev.Only.refl _ _ _
    | with_reducible apply Dev.Only.step (Dev.axTo_only _ _ _)
    | with_reducible apply Dev.Only.step (Dev.homeMove_only _ _ _ _)
    | with_reducible apply Dev.Only.step (Dev.updAx_only _ _ _)
    | with_reducible apply Dev.Only.wr
    | split)

theorem Dev.homeIndex_only (x0 : Dev) (x1 : Nat) :
    Dev.Only 0x10000000 0xc0000000000000000000000000000000000000000000000000000000000000000000000000000000000000000000000 x0 (Dev.homeIndex x0 x1) := by
  unfold Dev.homeIndex
  repeat' (first
    | exact rfl
    | with_reducible exact Dev.Only.refl _ _ _
    | with_reducible apply Dev.Only.step (Dev.homeEdge_only _ _)
    | split)

theorem execHomeInputChange_only (x0 : AxisNo) (x1 : HomeEdge) (x2 : State) :
    Out.Only 0x10000000 0x8c0000000000000000000000000000000000000000000000000000000000000000000000000000000000000000000000 x2 (execHomeInputChange x0 x1 x2) := by
  unfold execHomeInputChange
  repeat' (first
    | exact rfl
    | with_reducible exact Dev.Only.refl _ _ _
    | with_reducible exact State.Only.refl _ _ _
    | with_reducible apply Out.Only.act
    | with_reducible apply Dev.Only.step (Dev.homeActive_only _ _)
    | with_reducible apply Dev.Only.step (Dev.homeInactive_only _ _)
    | with_reducible apply Dev.Only.step (Dev.homeIndex_only _ _)
    | split)

theorem Dev.axHome_only (x0 : Dev) (x1 : Nat) :
    Dev.Only 0x10000000 0xc0000000000000000000000000000000000000000000000000000000000000000000000000000000000000000000000 x0 (Dev.axHome x0 x1) := by
  unfold Dev.axHome
  repeat' (first
    | with_reducible assumption
    | exact rfl
    | (extract_lets +onlyGivenNames x; first | (refine Dev.Only.have1 x (fun hx => ?_) ?_; clear_value x; rotate_left; subst x)  | (refine Dev.Only.have1 x.1 (fun hx => ?_) ?_; clear_value x; rotate_left; subst x) | (refine Dev.Only.have1 x.2 (fun hx => ?_) ?_; clear_value x; rotate_left; subst x) | (refine Dev.Only.fun1 x ?_; subst x; try dsimp -zeta only) | clear_value x)
    | with_reducible exact Dev.Only.refl _ _ _
    | with_reducible apply Dev.Only.step (Dev.updAx_only _ _ _)
    | with_reducible apply Dev.Only.step (Dev.toBackoff_only _ _)
    | with_reducible apply Dev.Only.step (Dev.homeMove_only _ _ _ _)
    | with_reducible apply Dev.Only.step (Dev.axTo_only _ _ _)
    | split)

theorem execAxHome_only (x0 : Lvl) (x1 : AxisNo) (x2 : State) :
    Out.Only 0x14090000100 0xc0000000000000000000000000000000000000000000000000000000000000000000000000000000fc00000001f8040 x2 (execAxHome x0 x1 x2) := by
  unfold execAxHome
  repeat' (first
    | with_reducible assumption
    | exact rfl
    | intro e
    | with_reducible exact Dev.Only.refl _ _ _
    | with_reducible exact State.Only.refl _ _ _
    | with_reducible apply Out.Only.act
    | with_reducible apply Dev.Only.step (Dev.axHome_only _ _)
    | with_reducible apply Dev.ownWrite_only)

theorem Dev.axStop_only (x0 : Dev) (x1 : Nat) :
    Dev.Only 0x14090000100 0xc0000000000000000000000000000000000000000000000000000000000000000000000000000000000000000008040 x0 (Dev.axStop x0 x1) := by
  unfold Dev.axStop
  repeat' (first
    | exact rfl
    | with_reducible exact Dev.Only.refl _ _ _
    | with_reducible apply Dev.Only.step (Dev.homeAbort_only _ _ _)
    | with_reducible apply Dev.Only.step (Dev.updProf_only _ _ _)
    | split)

theorem execAxStop_only (x0 : Lvl) (x1 : AxisNo) (x2 : State) :
    Out.Only 0x14090000100 0xc0000000000000000000000000000000000000000000000000000000000000000000000000000000fc00000001f8040 x2 (execAxStop x0 x1 x2) := by
  unfold execAxStop
  repeat' (first
    | with_reducible assumption
    | exact rfl
    | intro e
    | with_reducible exact Dev.Only.refl _ _ _
    | with_reducible exact State.Only.refl _ _ _
    | with_reducible apply Out.Only.act
    | with_reducible apply Dev.Only.step (Dev.axStop_only _ _)
    | with_reducible apply Dev.ownWrite_only)

theorem Dev.axFclr_only (x0 : Dev) (x1 : Nat) :
    Dev.Only 0x10000000 0x40000000000000000000000000000000000000000000000000000000000000000000000000000000000000000000000 x0 (Dev.axFclr x0 x1) := by
  unfold Dev.axFclr
  repeat' (first
    | exact rfl
    | with_reducible exact Dev.Only.refl _ _ _
    | with_reducible apply Dev.Only.step (Dev.axTo_only _ _ _)
    | with_reducible apply Dev.Only.step (Dev.updAx_only _ _ _)
    | split)

theorem execAxFclr_only (x0 : Lvl) (x1 : AxisNo) (x2 : State) :
    Out.Only 0x14090000100 0x40000000000000000000000000000000000000000000000000000000000000000000000000000000fc00000001f8040 x2 (execAxFclr x0 x1 x2) := by
  unfold execAxFclr
  repeat' (first
    | with_reducible assumption
    | exact rfl
    | intro e
    | with_reducible exact Dev.Only.refl _ _ _
    | with_reducible exact State.Only.refl _ _ _
    | with_reducible apply Out.Only.act
    | with_reducible apply Dev.Only.step (Dev.axFclr_only _ _)
    | with_reducible apply Dev.ownWrite_only)

theorem execHomingTimeout_only (x0 : AxisNo) (x1 : State) :
    Out.Only 0x14090000100 0xc0000000000000000000000000000000000000000000000000000000000000000000000000000000000000000008040 x1 (execHomingTimeout x0 x1) := by
  unfold execHomingTimeout
  repeat' (first
    | with_reducible assumption
    | exact rfl
    | (extract_lets +onlyGivenNames x; first | (refine Out.Only.have1 x (fun hx => ?_) ?_; clear_value x; rotate_left; subst x) | (refine Out.Only.have2 x (fun hx => ?_) ?_; clear_value x; rotate_left; subst x)  | (refine State.Only.have1 x (fun hx => ?_) ?_; clear_value x; rotate_left; subst x) | (refine State.Only.have2 x (fun hx => ?_) ?_; clear_value x; rotate_left; subst x) | (refine Dev.Only.have1 x (fun hx => ?_) ?_; clear_value x; rotate_left; subst x) | clear_value x)
    | with_reducible exact Dev.Only.refl _ _ _
    | with_reducible exact State.Only.refl _ _ _
    | (with_reducible apply State.Only.dev; with_reducible assumption)
    | with_reducible apply Out.Only.act
    | with_reducible apply Out.Only.next
    | with_reducible apply Dev.Only.step (Dev.homeAbort_only _ _ _)
    | split
    | with_reducible apply State.Only.mkDev)

theorem execAxTgtWrite_only (x0 : Lvl) (x1 : AxisNo) (x2 : U32) (x3 : State) :
    Out.Only 0x14090000100 0x80002000000000000000000000000000000000000000000000000000000000000000000000000000fc00000001f8040 x3 (execAxTgtWrite x0 x1 x2 x3) := by
  unfold execAxTgtWrite
  repeat' (first
    | with_reducible assumption
    | exact rfl
    | intro e
    | with_reducible exact Dev.Only.refl _ _ _
    | with_reducible exact State.Only.refl _ _ _
    | with_reducible apply Out.Only.act
    | with_reducible apply Dev.Only.step (Dev.axTarget_only _ _ _ _)
    | with_reducible apply Dev.ownWrite_only)

theorem Dev.limitTrip_only (x0 : Dev) (x1 : Nat) (x2 : Bool) :
    Dev.Only 0x14090000100 0xec0000000000000000000000000000000000000000000000000000000000000000000000000000000000000000008040 x0 (Dev.limitTrip x0 x1 x2) := by
  unfold Dev.limitTrip
  repeat' (first
    | with_reducible assumption
    | exact rfl
    | (extract_lets +onlyGivenNames x; (refine Dev.Only.have1 x (fun hx => ?_) ?_; clear_value x; rotate_left; subst x))
    | with_reducible exact Dev.Only.refl _ _ _
    | with_reducible apply Dev.Only.step (Dev.homeAbort_only _ _ _)
    | with_reducible apply Dev.Only.step (Dev.homeActive_only _ _)
    | with_reducible apply Dev.Only.step (Dev.raise_only _ _ _)
    | with_reducible apply Dev.Only.step (Dev.setLatch_only _ _ _ _)
    | with_reducible apply Dev.Only.step (Dev.updAx_only _ _ _)
    | with_reducible apply Dev.Only.step (Dev.updProf_only _ _ _)
    | with_reducible apply Dev.Only.wr
    | split)

theorem execLimitTrip_only (x0 : AxisNo) (x1 : Bool) (x2 : State) :
    Out.Only 0x14090000100 0xec0000000000000000000000000000000000000000000000000000000000000000000000000000000000000000008040 x2 (execLimitTrip x0 x1 x2) := by
  unfold execLimitTrip
  repeat' (first
    | exact rfl
    | with_reducible exact Dev.Only.refl _ _ _
    | with_reducible exact State.Only.refl _ _ _
    | with_reducible apply Out.Only.act
    | with_reducible apply Dev.Only.step (Dev.limitTrip_only _ _ _))

theorem execLimitLatchClear_only (x0 : AxisNo) (x1 : Bool) (x2 : State) :
    Out.Only 0x10000000 0x600000000000000000000000000000000000000000000000000000000000000000000000000000000000000000000000 x2 (execLimitLatchClear x0 x1 x2) := by
  unfold execLimitLatchClear
  repeat' (first
    | exact rfl
    | with_reducible exact Dev.Only.refl _ _ _
    | with_reducible exact State.Only.refl _ _ _
    | with_reducible apply Out.Only.act
    | with_reducible apply Dev.Only.step (Dev.setLatch_only _ _ _ _)
    | split)

theorem Dev.hallChange_only (x0 : Dev) (x1 : Nat) (x2 : Nat) :
    Dev.Only 0x10000000 0 x0 (Dev.hallChange x0 x1 x2) := by
  unfold Dev.hallChange
  repeat' (first
    | with_reducible assumption
    | exact rfl
    | (extract_lets +onlyGivenNames x; first | (refine Dev.Only.have1 x (fun hx => ?_) ?_; clear_value x; rotate_left; subst x)  | (refine Dev.Only.have1 x.1 (fun hx => ?_) ?_; clear_value x; rotate_left; subst x) | (refine Dev.Only.have1 x.2 (fun hx => ?_) ?_; clear_value x; rotate_left; subst x) | (refine Dev.Only.fun1 x ?_; subst x; try dsimp -zeta only) | clear_value x)
    | with_reducible exact Dev.Only.refl _ _ _
    | with_reducible apply Dev.Only.step (Dev.updAx_only _ _ _)
    | (with_reducible apply Dev.Only.of_fst; assumption)
    | split)

theorem Dev.quadChange_only (x0 : Dev) (x1 : Nat) (x2 : Bool) (x3 : Bool) :
    Dev.Only 0x10000000 0 x0 (Dev.quadChange x0 x1 x2 x3) := by
  unfold Dev.quadChange
  repeat' (first
    | exact rfl
    | (extract_lets +onlyGivenNames x; clear_value x)
    | with_reducible exact Dev.Only.refl _ _ _
    | with_reducible apply Dev.Only.step (Dev.updAx_only _ _ _))

theorem execAxisFeedbackChange_only (x0 : AxisNo) (x1 : Feedback) (x2 : State) :
    Out.Only 0x10000000 0 x2 (execAxisFeedbackChange x0 x1 x2) := by
  unfold execAxisFeedbackChange
  repeat' (first
    | exact rfl
    | with_reducible exact Dev.Only.refl _ _ _
    | with_reducible exact State.Only.refl _ _ _
    | with_reducible apply Out.Only.act
    | with_reducible apply Dev.Only.step (Dev.hallChange_only _ _ _)
    | with_reducible apply Dev.Only.step (Dev.quadChange_only _ _ _ _)
    | split)

theorem execAxCcommit_only (x0 : Lvl) (x1 : AxisNo) (x2 : State) :
    Out.Only 0x14080000100 0x80000000000000000000000000000000000000000000000000000000000000000000000000fc00000001f8040 x2 (execAxCcommit x0 x1 x2) := by
  unfold execAxCcommit
  repeat' (first
    | with_reducible assumption
    | exact rfl
    | intro e
    | with_reducible exact Dev.Only.refl _ _ _
    | with_reducible exact State.Only.refl _ _ _
    | with_reducible apply Out.Only.act
    | with_reducible apply Dev.ownWrite_only
    | with_reducible apply Dev.Only.wr)

theorem Dev.axCoefs_only (x0 : Dev) (x1 : Nat) :
    Dev.Only 0x10000000 0x80000000000000000000000000000000000000000000000000000000000000000000000000000000000000000 x0 (Dev.axCoefs x0 x1) := by
  unfold Dev.axCoefs
  repeat' (first
    | exact rfl
    | with_reducible exact Dev.Only.refl _ _ _
    | with_reducible apply Dev.Only.step (Dev.updAx_only _ _ _)
    | with_reducible apply Dev.Only.wr
    | split)

theorem Dev.axEstimate_only (x0 : Dev) (x1 : Nat) :
    Dev.Only 0x10000000 0 x0 (Dev.axEstimate x0 x1) := by
  unfold Dev.axEstimate
  repeat' (first
    | with_reducible assumption
    | exact rfl
    | (extract_lets +onlyGivenNames x; first | (refine Dev.Only.have1 x (fun hx => ?_) ?_; clear_value x; rotate_left; subst x)  | (refine Dev.Only.have1 x.1 (fun hx => ?_) ?_; clear_value x; rotate_left; subst x) | (refine Dev.Only.have1 x.2 (fun hx => ?_) ?_; clear_value x; rotate_left; subst x) | (refine Dev.Only.fun1 x ?_; subst x; try dsimp -zeta only) | clear_value x)
    | with_reducible exact Dev.Only.refl _ _ _
    | with_reducible apply Dev.Only.step (Dev.updAx_only _ _ _)
    | (with_reducible apply Dev.Only.of_fst; assumption)
    | split)

theorem Dev.axResume_only (x0 : Dev) (x1 : Nat) :
    Dev.Only 0x10000000 0x80000000000000000000000000000000000000000000000000000000000000000000000000000000000000000000000 x0 (Dev.axResume x0 x1) := by
  unfold Dev.axResume
  repeat' (first
    | with_reducible assumption
    | exact rfl
    | (extract_lets +onlyGivenNames x; first | (refine Dev.Only.have1 x (fun hx => ?_) ?_; clear_value x; rotate_left; subst x)  | (refine Dev.Only.have1 x.1 (fun hx => ?_) ?_; clear_value x; rotate_left; subst x) | (refine Dev.Only.have1 x.2 (fun hx => ?_) ?_; clear_value x; rotate_left; subst x) | (refine Dev.Only.fun1 x ?_; subst x; try dsimp -zeta only) | clear_value x)
    | with_reducible exact Dev.Only.refl _ _ _
    | with_reducible apply Dev.Only.step (Dev.updAx_only _ _ _)
    | with_reducible apply Dev.Only.step (Dev.updProf_only _ _ _)
    | (with_reducible apply Dev.Only.of_fst; assumption)
    | split)

theorem Dev.axStatus_only (x0 : Dev) (x1 : Nat) :
    Dev.Only 0x10000000 0x118000c000000000000000000000000000000000000000000000000000000000000000000000000000000000000000000 x0 (Dev.axStatus x0 x1) := by
  unfold Dev.axStatus
  repeat' (first
    | with_reducible assumption
    | exact rfl
    | (extract_lets +onlyGivenNames x; first | (refine Dev.Only.have1 x (fun hx => ?_) ?_; clear_value x; rotate_left; subst x) | clear_value x)
    | with_reducible exact Dev.Only.refl _ _ _
    | with_reducible apply Dev.Only.step (Dev.updAx_only _ _ _)
    | with_reducible apply Dev.Only.wr)

theorem Dev.axSettle_only (x0 : Dev) (x1 : Nat) :
    Dev.Only 0x14090000100 0x40000000000000000000000000000000000000000000000000000000000000000000000000000000000000000008040 x0 (Dev.axSettle x0 x1) := by
  unfold Dev.axSettle
  repeat' (first
    | with_reducible assumption
    | exact rfl
    | (extract_lets +onlyGivenNames x; (refine Dev.Only.have1 x (fun hx => ?_) ?_; clear_value x; rotate_left; subst x))
    | with_reducible exact Dev.Only.refl _ _ _
    | with_reducible apply Dev.Only.step (Dev.axTo_only _ _ _)
    | with_reducible apply Dev.Only.step (Dev.raise_only _ _ _)
    | with_reducible apply Dev.Only.step (Dev.updAx_only _ _ _)
    | split)

theorem Dev.axSample_only (x0 : Dev) (x1 : Nat) :
    Dev.Only 0x34090000100 0x30000011c000c080000000000000000000000000000000000000000000000000000000000000000000000000000000000008040 x0 (Dev.axSample x0 x1) := by
  unfold Dev.axSample
  repeat' (first
    | with_reducible assumption
    | exact rfl
    | (extract_lets +onlyGivenNames x; first | (refine Dev.Only.have1 x (fun hx => ?_) ?_; clear_value x; rotate_left; subst x)  | (refine Dev.Only.have1 x.1 (fun hx => ?_) ?_; clear_value x; rotate_left; subst x) | (refine Dev.Only.have1 x.2 (fun hx => ?_) ?_; clear_value x; rotate_left; subst x) | (refine Dev.Only.fun1 x ?_; subst x; try dsimp -zeta only) | clear_value x)
    | with_reducible exact Dev.Only.refl _ _ _
    | with_reducible apply Dev.Only.step (Dev.axResume_only _ _)
    | with_reducible apply Dev.Only.step (Dev.updProf_only _ _ _)
    | with_reducible apply Dev.Only.step (Dev.axCoefs_only _ _)
    | with_reducible apply Dev.Only.step (Dev.axEstimate_only _ _)
    | with_reducible apply Dev.Only.step (Dev.updAx_only _ _ _)
    | with_reducible apply Dev.Only.step (Dev.axSettle_only _ _)
    | with_reducible apply Dev.Only.step (Dev.axStatus_only _ _)
    | with_reducible apply Dev.Only.step (Dev.traceLoop_only _ _ _)
    | split)

theorem execAxisSample_only (x0 : State) :
    Out.Only 0x34098000100 0x30000011c000c080080000000000000000000000000000000000000000000000000000000000000000000000000000000008040 x0 (execAxisSample x0) := by
  unfold execAxisSample
  repeat' (first
    | with_reducible assumption
    | exact rfl
    | intro e
    | with_reducible exact Dev.Only.refl _ _ _
    | with_reducible exact State.Only.refl _ _ _
    | with_reducible apply Out.Only.act
    | with_reducible apply Dev.Only.step (Dev.axSample_only _ _)
    | with_reducible apply Dev.Only.step (Dev.stepSample_only _ _)
    | with_reducible apply Dev.Only.forEach)

theorem Dev.sendAxFrame_only (x0 : Dev) (x1 : Nat) :
    Dev.Only 0x10020000000 0 x0 (Dev.sendAxFrame x0 x1) := by
  unfold Dev.sendAxFrame
  repeat' (first
    | with_reducible assumption
    | exact rfl
    | (extract_lets +onlyGivenNames x; first | (refine Dev.Only.have1 x (fun hx => ?_) ?_; clear_value x; rotate_left; subst x) | clear_value x)
    | with_reducible exact Dev.Only.refl _ _ _
    | with_reducible apply Dev.Only.step (Dev.emit_only _ _)
    | with_reducible apply Dev.Only.with_axp)

theorem Dev.startGroup_only (x0 : Dev) (x1 : Nat) :
    Dev.Only 0x2010000000 0x80002000000000000000000000000000000000000000000000000000000000000000000000000000000000000000000 x0 (Dev.startGroup x0 x1) := by
  unfold Dev.startGroup
  repeat' (first
    | with_reducible assumption
    | exact rfl
    | intro e
    | (extract_lets +onlyGivenNames x; first | (refine Dev.Only.have1 x (fun hx => ?_) ?_; clear_value x; rotate_left; subst x) | clear_value x)
    | with_reducible exact Dev.Only.refl _ _ _
    | with_reducible apply Dev.Only.step (Dev.axTarget_only _ _ _ _)
    | with_reducible apply Dev.Only.step (Dev.updAx_only _ _ _)
    | with_reducible apply Dev.Only.forEach
    | split
    | with_reducible apply Dev.Only.with_ring)

theorem Dev.startDue_only (x0 : Dev) :
    Dev.Only 0x2010000000 0x80002000000000000000000000000000000000000000000000000000000000000000000000000000000000000000000 x0 (Dev.startDue x0) := by
  unfold Dev.startDue
  repeat' (first
    | with_reducible assumption
    | exact rfl
    | intro e
    | with_reducible exact Dev.Only.refl _ _ _
    | with_reducible apply Dev.Only.step (Dev.startGroup_only _ _)
    | with_reducible apply Dev.Only.forEach
    | split)

theorem execAxsyncPeriod_only (x0 : State) :
    Out.Only 0x1a030000000 0x80002000000000000000000000000000000000000000000000000000000000000000000000000000000000000000000 x0 (execAxsyncPeriod x0) := by
  unfold execAxsyncPeriod
  repeat' (first
    | with_reducible assumption
    | exact rfl
    | intro e
    | (extract_lets +onlyGivenNames x; first | (refine Dev.Only.have1 x (fun hx => ?_) ?_; clear_value x; rotate_left; subst x) | clear_value x)
    | with_reducible exact Dev.Only.refl _ _ _
    | with_reducible exact State.Only.refl _ _ _
    | with_reducible apply Out.Only.act
    | with_reducible apply Dev.Only.step (Dev.sendAxFrame_only _ _)
    | with_reducible apply Dev.Only.step (Dev.startDue_only _)
    | with_reducible apply Dev.Only.forEach
    | split
    | with_reducible apply Dev.Only.with_pins)

theorem Dev.returnBad_only (x0 : Dev) (x1 : Nat) :
    Dev.Only 0x14098000100 0x40000000c0000000000000000000000000000000000000000000000000000000000000000000000000000000000000000008040 x0 (Dev.returnBad x0 x1) := by
  unfold Dev.returnBad
  repeat' (first
    | with_reducible assumption
    | exact rfl
    | intro e
    | (extract_lets +onlyGivenNames x; (refine Dev.Only.have1 x (fun hx => ?_) ?_; clear_value x; rotate_left; subst x))
    | with_reducible exact Dev.Only.refl _ _ _
    | with_reducible apply Dev.Only.step (Dev.axFault_only _ _ _)
    | with_reducible apply Dev.Only.step (Dev.raise_only _ _ _)
    | with_reducible apply Dev.Only.step (Dev.updAx_only _ _ _)
    | with_reducible apply Dev.Only.inc
    | with_reducible apply Dev.Only.forEach
    | split)

theorem Dev.returnGood_only (x0 : Dev) (x1 : Nat) (x2 : ReturnFrame) :
    Dev.Only 0x14098000100 0x80000000c0000000000000000000000000000000000000000000000000000000000000000000000000000000000000000008040 x0 (Dev.returnGood x0 x1 x2) := by
  unfold Dev.returnGood
  repeat' (first
    | with_reducible assumption
    | exact rfl
    | intro e
    | (extract_lets +onlyGivenNames x; first | (refine Dev.Only.have1 x (fun hx => ?_) ?_; clear_value x; rotate_left; subst x) | (refine Dev.Only.fun1 x ?_; subst x; try dsimp -zeta only) | clear_value x)
    | with_reducible exact Dev.Only.refl _ _ _
    | with_reducible apply Dev.Only.step (Dev.axFault_only _ _ _)
    | with_reducible apply Dev.Only.step (Dev.updAx_only _ _ _)
    | with_reducible apply Dev.Only.wr
    | with_reducible apply Dev.Only.forEach
    | split)

theorem execReturnFrame_only (x0 : Port) (x1 : ReturnFrame) (x2 : State) :
    Out.Only 0x14098000100 0xc0000000c0000000000000000000000000000000000000000000000000000000000000000000000000000000000000000008040 x2 (execReturnFrame x0 x1 x2) := by
  unfold execReturnFrame
  repeat' (first
    | exact rfl
    | with_reducible exact Dev.Only.refl _ _ _
    | with_reducible exact State.Only.refl _ _ _
    | with_reducible apply Out.Only.act
    | with_reducible apply Dev.Only.step (Dev.returnBad_only _ _)
    | with_reducible apply Dev.Only.step (Dev.returnGood_only _ _ _)
    | split)

/-! ### Heat -/

theorem Dev.updHt_only (x0 : Dev) (x1 : Nat) (x2 : Heat → Heat) :
    Dev.Only 0x40000000 0 x0 (Dev.updHt x0 x1 x2) := by
  unfold Dev.updHt
  repeat' (first
    | exact rfl
    | with_reducible exact Dev.Only.refl _ _ _
    | with_reducible apply Dev.Only.with_heat)

theorem Dev.thermReading_only (x0 : Dev) (x1 : Nat) (x2 : Nat) :
    Dev.Only 0x20040000000 0x80000000000000000000000000000000000000000000000000000000000000000000000000000000000000000000000000 x0 (Dev.thermReading x0 x1 x2) := by
  unfold Dev.thermReading
  repeat' (first
    | with_reducible assumption
    | exact rfl
    | (extract_lets +onlyGivenNames x; first | (refine Dev.Only.have1 x (fun hx => ?_) ?_; clear_value x; rotate_left; subst x)  | (refine Dev.Only.have1 x.1 (fun hx => ?_) ?_; clear_value x; rotate_left; subst x) | (refine Dev.Only.have1 x.2 (fun hx => ?_) ?_; clear_value x; rotate_left; subst x) | (refine Dev.Only.fun1 x ?_; subst x; try dsimp -zeta only) | clear_value x)
    | with_reducible exact Dev.Only.refl _ _ _
    | with_reducible apply Dev.Only.step (Dev.free_only _ _)
    | with_reducible apply Dev.Only.step (Dev.updHt_only _ _ _)
    | with_reducible apply Dev.Only.wr
    | (with_reducible apply Dev.Only.of_fst; assumption)
    | split)

theorem execHtCcommit_only (x0 : Lvl) (x1 : LaneNo) (x2 : State) :
    Out.Only 0x14080000100 0x10000000000000000000000000000000000000000000000000000000000000000000000000000000000fc00000001f8040 x2 (execHtCcommit x0 x1 x2) := by
  unfold execHtCcommit
  repeat' (first
    | with_reducible assumption
    | exact rfl
    | intro e
    | with_reducible exact Dev.Only.refl _ _ _
    | with_reducible exact State.Only.refl _ _ _
    | with_reducible apply Out.Only.act
    | with_reducible apply Dev.ownWrite_only
    | with_reducible apply Dev.Only.wr)

theorem Dev.htCoefs_only (x0 : Dev) (x1 : Nat) :
    Dev.Only 0x40000000 0x10000000000000000000000000000000000000000000000000000000000000000000000000000000000000000000000000 x0 (Dev.htCoefs x0 x1) := by
  unfold Dev.htCoefs
  repeat' (first
    | exact rfl
    | with_reducible exact Dev.Only.refl _ _ _
    | with_reducible apply Dev.Only.step (Dev.updHt_only _ _ _)
    | with_reducible apply Dev.Only.wr
    | split)

theorem Dev.htModel_only (x0 : Dev) (x1 : Nat) :
    Dev.Only 0x20040000000 0x100000000000000000000000000000000000000000000000000000000000000000000000000000000000000000000000000 x0 (Dev.htModel x0 x1) := by
  unfold Dev.htModel
  repeat' (first
    | exact rfl
    | with_reducible exact Dev.Only.refl _ _ _
    | with_reducible apply Dev.Only.step (Dev.free_only _ _)
    | with_reducible apply Dev.Only.step (Dev.updHt_only _ _ _)
    | with_reducible apply Dev.Only.wr
    | split)

theorem Dev.htModelSet_only (x0 : Dev) (x1 : Nat) :
    Dev.Only 0x40000000 0x100000000000000000000000000000000000000000000000000000000000000000000000000000000000000000000000000 x0 (Dev.htModelSet x0 x1) := by
  unfold Dev.htModelSet
  repeat' (first
    | exact rfl
    | (extract_lets +onlyGivenNames x; clear_value x)
    | with_reducible exact Dev.Only.refl _ _ _
    | with_reducible apply Dev.Only.step (Dev.updHt_only _ _ _)
    | with_reducible apply Dev.Only.wr)

theorem Dev.htSample_only (x0 : Dev) (x1 : Nat) :
    Dev.Only 0x340c0000100 0x3000110000000000000000000000000000000000000000000000000000000000000000000000000000000000000000000008040 x0 (Dev.htSample x0 x1) := by
  unfold Dev.htSample
  repeat' (first
    | with_reducible assumption
    | exact rfl
    | (extract_lets +onlyGivenNames x; first | (refine Dev.Only.have1 x (fun hx => ?_) ?_; clear_value x; rotate_left; subst x) | clear_value x)
    | with_reducible exact Dev.Only.refl _ _ _
    | with_reducible apply Dev.Only.step (Dev.htCoefs_only _ _)
    | with_reducible apply Dev.Only.step (Dev.htModel_only _ _)
    | with_reducible apply Dev.Only.step (Dev.htModelSet_only _ _)
    | with_reducible apply Dev.Only.step (Dev.traceLoop_only _ _ _)
    | with_reducible apply Dev.Only.step (Dev.updHt_only _ _ _)
    | split)

theorem execHeaterSample_only (x0 : State) :
    Out.Only 0x340c0000100 0x3000110000000000000000000000000000000000000000000000000000000000000000000000000000000000000000000008040 x0 (execHeaterSample x0) := by
  unfold execHeaterSample
  repeat' (first
    | with_reducible assumption
    | exact rfl
    | intro e
    | with_reducible exact Dev.Only.refl _ _ _
    | with_reducible exact State.Only.refl _ _ _
    | with_reducible apply Out.Only.act
    | with_reducible apply Dev.Only.step (Dev.htSample_only _ _)
    | with_reducible apply Dev.Only.step (Dev.updHt_only _ _ _)
    | with_reducible apply Dev.Only.forEach
    | split)

theorem Dev.darken_only (x0 : Dev) (x1 : Nat) (x2 : DarkBit) :
    Dev.Only 0x800000 0x1000000000000000000000000000000000000000000000000000000000000000000000000000000000000000000000000000 x0 (Dev.darken x0 x1 x2) := by
  unfold Dev.darken
  repeat' (first
    | with_reducible assumption
    | exact rfl
    | (extract_lets +onlyGivenNames x; first | (refine Dev.Only.have1 x (fun hx => ?_) ?_; clear_value x; rotate_left; subst x)  | (refine Dev.Only.have1 x.1 (fun hx => ?_) ?_; clear_value x; rotate_left; subst x) | (refine Dev.Only.have1 x.2 (fun hx => ?_) ?_; clear_value x; rotate_left; subst x) | (refine Dev.Only.fun1 x ?_; subst x; try dsimp -zeta only) | clear_value x)
    | with_reducible exact Dev.Only.refl _ _ _
    | with_reducible apply Dev.Only.step (Dev.updLane_only _ _ _)
    | with_reducible apply Dev.Only.wr
    | split)

theorem Dev.lighten_only (x0 : Dev) (x1 : Nat) (x2 : DarkBit) :
    Dev.Only 0x800000 0 x0 (Dev.lighten x0 x1 x2) := by
  unfold Dev.lighten
  repeat' (first
    | exact rfl
    | with_reducible exact Dev.Only.refl _ _ _
    | with_reducible apply Dev.Only.step (Dev.updLane_only _ _ _))

theorem Dev.softSample_only (x0 : Dev) (x1 : Nat) :
    Dev.Only 0x140c0000100 0x200000000000000000000000000000000000000000000000000000000000000000000000000000000000000000000008040 x0 (Dev.softSample x0 x1) := by
  unfold Dev.softSample
  repeat' (first
    | with_reducible assumption
    | exact rfl
    | (extract_lets +onlyGivenNames x; first | (refine Dev.Only.have1 x (fun hx => ?_) ?_; clear_value x; rotate_left; subst x) | clear_value x)
    | with_reducible exact Dev.Only.refl _ _ _
    | with_reducible apply Dev.Only.step (Dev.raise_only _ _ _)
    | with_reducible apply Dev.Only.step (Dev.updHt_only _ _ _)
    | with_reducible apply Dev.Only.wr
    | split)

theorem Dev.hardSample_only (x0 : Dev) (x1 : Nat) :
    Dev.Only 0x140c0800100 0x1400000000000000000000000000000000000000000000000000000000000000000000000000000000000000000000008060 x0 (Dev.hardSample x0 x1) := by
  unfold Dev.hardSample
  repeat' (first
    | with_reducible assumption
    | exact rfl
    | (extract_lets +onlyGivenNames x; first | (refine Dev.Only.have1 x (fun hx => ?_) ?_; clear_value x; rotate_left; subst x) | clear_value x)
    | with_reducible exact Dev.Only.refl _ _ _
    | with_reducible apply Dev.Only.step (Dev.darken_only _ _ _)
    | with_reducible apply Dev.Only.step (Dev.lighten_only _ _ _)
    | with_reducible apply Dev.Only.step (Dev.raise_only _ _ _)
    | with_reducible apply Dev.Only.step (Dev.requestStop_only _ _)
    | with_reducible apply Dev.Only.step (Dev.updHt_only _ _ _)
    | with_reducible apply Dev.Only.wr
    | split)

theorem Dev.plausSample_only (x0 : Dev) (x1 : Nat) :
    Dev.Only 0x40000000 0 x0 (Dev.plausSample x0 x1) := by
  unfold Dev.plausSample
  repeat' (first
    | with_reducible assumption
    | exact rfl
    | (extract_lets +onlyGivenNames x; first | (refine Dev.Only.have1 x (fun hx => ?_) ?_; clear_value x; rotate_left; subst x)  | (refine Dev.Only.have1 x.1 (fun hx => ?_) ?_; clear_value x; rotate_left; subst x) | (refine Dev.Only.have1 x.2 (fun hx => ?_) ?_; clear_value x; rotate_left; subst x) | (refine Dev.Only.fun1 x ?_; subst x; try dsimp -zeta only) | clear_value x)
    | with_reducible exact Dev.Only.refl _ _ _
    | with_reducible apply Dev.Only.step (Dev.updHt_only _ _ _)
    | split)

theorem execHeadTempSample_only (x0 : LaneNo) (x1 : State) :
    Out.Only 0x140c0800100 0x1600000000000000000000000000000000000000000000000000000000000000000000000000000000000000000000008060 x1 (execHeadTempSample x0 x1) := by
  unfold execHeadTempSample
  repeat' (first
    | exact rfl
    | with_reducible exact Dev.Only.refl _ _ _
    | with_reducible exact State.Only.refl _ _ _
    | with_reducible apply Out.Only.act
    | with_reducible apply Dev.Only.step (Dev.hardSample_only _ _)
    | with_reducible apply Dev.Only.step (Dev.plausSample_only _ _)
    | with_reducible apply Dev.Only.step (Dev.softSample_only _ _)
    | split)

theorem execHeadPlaus_only (x0 : LaneNo) (x1 : State) :
    Out.Only 0x14080800100 0x1800000000000000000000000000000000000000000000000000000000000000000000000000000000000000000000008060 x1 (execHeadPlaus x0 x1) := by
  unfold execHeadPlaus
  repeat' (first
    | with_reducible assumption
    | exact rfl
    | (extract_lets +onlyGivenNames x; first | (refine Out.Only.have1 x (fun hx => ?_) ?_; clear_value x; rotate_left; subst x) | (refine Out.Only.have2 x (fun hx => ?_) ?_; clear_value x; rotate_left; subst x)  | (refine State.Only.have1 x (fun hx => ?_) ?_; clear_value x; rotate_left; subst x) | (refine State.Only.have2 x (fun hx => ?_) ?_; clear_value x; rotate_left; subst x) | (refine Dev.Only.have1 x (fun hx => ?_) ?_; clear_value x; rotate_left; subst x) | clear_value x)
    | with_reducible exact Dev.Only.refl _ _ _
    | with_reducible exact State.Only.refl _ _ _
    | (with_reducible apply State.Only.dev; with_reducible assumption)
    | with_reducible apply Out.Only.act
    | with_reducible apply Out.Only.next
    | with_reducible apply Dev.Only.step (Dev.darken_only _ _ _)
    | with_reducible apply Dev.Only.step (Dev.raise_only _ _ _)
    | with_reducible apply Dev.Only.step (Dev.requestStop_only _ _)
    | with_reducible apply Dev.Only.wr
    | split
    | with_reducible apply State.Only.mkDev)

theorem Dev.clearPlaus_only (x0 : Dev) (x1 : Nat) :
    Dev.Only 0x140c0800100 0x900000000000000000000000000000000000000000000000000000000000000000000000000000000000000000000008040 x0 (Dev.clearPlaus x0 x1) := by
  unfold Dev.clearPlaus
  repeat' (first
    | with_reducible assumption
    | exact rfl
    | (extract_lets +onlyGivenNames x; first | (refine Dev.Only.have1 x (fun hx => ?_) ?_; clear_value x; rotate_left; subst x)  | (refine Dev.Only.have1 x.1 (fun hx => ?_) ?_; clear_value x; rotate_left; subst x) | (refine Dev.Only.have1 x.2 (fun hx => ?_) ?_; clear_value x; rotate_left; subst x) | (refine Dev.Only.fun1 x ?_; subst x; try dsimp -zeta only) | clear_value x)
    | with_reducible exact Dev.Only.refl _ _ _
    | with_reducible apply Dev.Only.step (Dev.htModelSet_only _ _)
    | with_reducible apply Dev.Only.step (Dev.updHt_only _ _ _)
    | with_reducible apply Dev.Only.step (Dev.raise_only _ _ _)
    | with_reducible apply Dev.Only.step (Dev.lighten_only _ _ _)
    | with_reducible apply Dev.Only.wr
    | split)

/-! ### Encoder -/

theorem Dev.putSent_only (x0 : Dev) (x1 : SentLine) (x2 : SentLine) :
    Dev.Only 0x400000 0 x0 (Dev.putSent x0 x1 x2) := by
  unfold Dev.putSent
  repeat' (first
    | exact rfl
    | (extract_lets +onlyGivenNames x; clear_value x)
    | with_reducible exact Dev.Only.refl _ _ _
    | with_reducible apply Dev.Only.with_fire)

theorem Dev.tallyTimes_only (x0 : Dev) (x1 : SentLine) :
    Dev.Only 0x1000000 0 x0 (Dev.tallyTimes x0 x1) := by
  unfold Dev.tallyTimes
  repeat' (first
    | with_reducible assumption
    | exact rfl
    | intro e
    | (extract_lets +onlyGivenNames x; clear_value x)
    | with_reducible exact Dev.Only.refl _ _ _
    | with_reducible apply Dev.Only.forEach
    | with_reducible apply Dev.Only.with_integ)

theorem Dev.amendLate_only (x0 : Dev) (x1 : SentLine) :
    Dev.Only 0x1408b400100 0x201f140000000000000002400000000000000000000000000000000000000000008040 x0 (Dev.amendLate x0 x1) := by
  unfold Dev.amendLate
  repeat' (first
    | with_reducible assumption
    | exact rfl
    | (extract_lets +onlyGivenNames x; (refine Dev.Only.have1 x (fun hx => ?_) ?_; clear_value x; rotate_left; subst x))
    | with_reducible exact Dev.Only.refl _ _ _
    | with_reducible apply Dev.Only.step (Dev.putSent_only _ _ _)
    | with_reducible apply Dev.Only.step (Dev.raise_only _ _ _)
    | with_reducible apply Dev.Only.step (Dev.spoilBarLine_only _ _ _ _ _)
    | with_reducible apply Dev.Only.wr
    | with_reducible apply Dev.Only.inc)

theorem Dev.withdrawOrLate_only (x0 : Dev) (x1 : SentLine) :
    Dev.Only 0x1408bc00100 0x201f140000000000000002400000000000000000000000000000000000000000008040 x0 (Dev.withdrawOrLate x0 x1) := by
  unfold Dev.withdrawOrLate
  repeat' (first
    | exact rfl
    | with_reducible exact Dev.Only.refl _ _ _
    | with_reducible apply Dev.Only.step (Dev.amendLate_only _ _)
    | with_reducible apply Dev.Only.step (Dev.withdraw_only _ _)
    | split)

theorem Dev.amend_only (x0 : Dev) (x1 : SentLine) (x2 : List Nat) (x3 : Int) :
    Dev.Only 0x14081c00100 0x1000000000000000000000000000000000000000000008040 x0 (Dev.amend x0 x1 x2 x3) := by
  unfold Dev.amend
  repeat' (first
    | with_reducible assumption
    | exact rfl
    | intro e
    | (extract_lets +onlyGivenNames x; first | (refine Dev.Only.have1 x (fun hx => ?_) ?_; clear_value x; rotate_left; subst x) | clear_value x)
    | with_reducible exact Dev.Only.refl _ _ _
    | with_reducible apply Dev.Only.step (Dev.putSent_only _ _ _)
    | with_reducible apply Dev.Only.step (Dev.raise_only _ _ _)
    | with_reducible apply Dev.Only.step (Dev.sendFire_only _ _ _ _ _ _)
    | with_reducible apply Dev.Only.step (Dev.tallyTimes_only _ _)
    | with_reducible apply Dev.Only.inc
    | with_reducible apply Dev.Only.forEach)

theorem Dev.predictLine_only (x0 : Dev) (x1 : SentLine) :
    Dev.Only 0x1408bc00100 0x201f140000000000000003400000000000000000000000000000000000000000008040 x0 (Dev.predictLine x0 x1) := by
  unfold Dev.predictLine
  repeat' (first
    | with_reducible assumption
    | exact rfl
    | (extract_lets +onlyGivenNames x; first | (refine Dev.Only.have1 x (fun hx => ?_) ?_; clear_value x; rotate_left; subst x)  | (refine Dev.Only.have1 x.1 (fun hx => ?_) ?_; clear_value x; rotate_left; subst x) | (refine Dev.Only.have1 x.2 (fun hx => ?_) ?_; clear_value x; rotate_left; subst x) | (refine Dev.Only.fun1 x ?_; subst x; try dsimp -zeta only) | clear_value x)
    | with_reducible exact Dev.Only.refl _ _ _
    | with_reducible apply Dev.Only.step (Dev.withdrawOrLate_only _ _)
    | with_reducible apply Dev.Only.step (Dev.amend_only _ _ _ _)
    | with_reducible apply Dev.Only.step (Dev.amendLate_only _ _)
    | (with_reducible apply Dev.Only.of_fst; assumption)
    | split)

theorem Dev.repredict_only (x0 : Dev) :
    Dev.Only 0x1408bc00100 0x201f1400000000000000034000c8000000000000000000000000000000000000008040 x0 (Dev.repredict x0) := by
  unfold Dev.repredict
  repeat' (first
    | with_reducible assumption
    | exact rfl
    | intro e
    | (extract_lets +onlyGivenNames x; (refine Dev.Only.have1 x (fun hx => ?_) ?_; clear_value x; rotate_left; subst x))
    | with_reducible exact Dev.Only.refl _ _ _
    | with_reducible apply Dev.Only.step (Dev.predictLine_only _ _)
    | with_reducible apply Dev.Only.step (Dev.refreshSpeed_only _)
    | with_reducible apply Dev.Only.step (Dev.retireSent_only _)
    | with_reducible apply Dev.Only.forEach
    | split)

theorem execFireRepredict_only (x0 : State) :
    Out.Only 0x1408bc00100 0x201f1400000000000000034000c8000000000000000000000000000000000000008040 x0 (execFireRepredict x0) := by
  unfold execFireRepredict
  repeat' (first
    | exact rfl
    | with_reducible exact Dev.Only.refl _ _ _
    | with_reducible exact State.Only.refl _ _ _
    | with_reducible apply Out.Only.act
    | with_reducible apply Dev.Only.step (Dev.repredict_only _))

theorem Dev.loseTimes_only (x0 : Dev) :
    Dev.Only 0x1408bc00100 0x201f140000000000000002400000000000000000000000000000000000000000008040 x0 (Dev.loseTimes x0) := by
  unfold Dev.loseTimes
  repeat' (first
    | with_reducible assumption
    | exact rfl
    | intro e
    | (extract_lets +onlyGivenNames x; (refine Dev.Only.have1 x (fun hx => ?_) ?_; clear_value x; rotate_left; subst x))
    | with_reducible exact Dev.Only.refl _ _ _
    | with_reducible apply Dev.Only.step (Dev.retireSent_only _)
    | with_reducible apply Dev.Only.step (Dev.withdrawOrLate_only _ _)
    | with_reducible apply Dev.Only.forEach)

theorem Dev.measure_only (x0 : Dev) (x1 : Bool) :
    Dev.Only 0x400000 0x1f8000000000000000000000000000000000000000000 x0 (Dev.measure x0 x1) := by
  unfold Dev.measure
  repeat' (first
    | exact rfl
    | (extract_lets +onlyGivenNames x; clear_value x)
    | with_reducible exact Dev.Only.refl _ _ _
    | with_reducible apply Dev.Only.step (Dev.refreshSpeed_only _)
    | with_reducible apply Dev.Only.wr
    | split
    | with_reducible apply Dev.Only.with_fire)

theorem Dev.reversal_only (x0 : Dev) :
    Dev.Only 0x1408bc00180 0x201f140000000000000000020000000000000000000000000000000000000000008070 x0 (Dev.reversal x0) := by
  unfold Dev.reversal
  repeat' (first
    | with_reducible assumption
    | exact rfl
    | (extract_lets +onlyGivenNames x; (refine Dev.Only.have1 x (fun hx => ?_) ?_; clear_value x; rotate_left; subst x))
    | with_reducible exact Dev.Only.refl _ _ _
    | with_reducible apply Dev.Only.step (Dev.holdCause_only _ _)
    | with_reducible apply Dev.Only.step (Dev.raise_only _ _ _)
    | with_reducible apply Dev.Only.step (Dev.requestStop_only _ _)
    | with_reducible apply Dev.Only.step (Dev.spoilInFlight_only _ _ _)
    | with_reducible apply Dev.Only.step (Dev.stopFiring_only _)
    | with_reducible apply Dev.Only.wr
    | split)

theorem Dev.followCount_only (x0 : Dev) :
    Dev.Only 0x1408bc00180 0x201f140000000000000000020000000000000000000000000000000000000000008070 x0 (Dev.followCount x0) := by
  unfold Dev.followCount
  repeat' (first
    | with_reducible assumption
    | exact rfl
    | (extract_lets +onlyGivenNames x; first | (refine Dev.Only.have1 x (fun hx => ?_) ?_; clear_value x; rotate_left; subst x) | clear_value x)
    | with_reducible exact Dev.Only.refl _ _ _
    | with_reducible apply Dev.Only.step (Dev.reversal_only _)
    | split
    | with_reducible apply Dev.Only.with_fire)

theorem Dev.count_only (x0 : Dev) (x1 : Bool) :
    Dev.Only 0x1408bc00180 0x201f1400000000000000034201f8000000000000000000000000000000000000008070 x0 (Dev.count x0 x1) := by
  unfold Dev.count
  repeat' (first
    | with_reducible assumption
    | exact rfl
    | (extract_lets +onlyGivenNames x; first | (refine Dev.Only.have1 x (fun hx => ?_) ?_; clear_value x; rotate_left; subst x) | clear_value x)
    | with_reducible exact Dev.Only.refl _ _ _
    | with_reducible apply Dev.Only.step (Dev.followCount_only _)
    | with_reducible apply Dev.Only.step (Dev.loseTimes_only _)
    | with_reducible apply Dev.Only.step (Dev.measure_only _ _)
    | with_reducible apply Dev.Only.step (Dev.repredict_only _)
    | split
    | with_reducible apply Dev.Only.with_fire)

theorem Dev.illegalCount_only (x0 : Dev) :
    Dev.Only 0x14080000100 0x114000000000000000000000000000000000000000008040 x0 (Dev.illegalCount x0) := by
  unfold Dev.illegalCount
  repeat' (first
    | with_reducible assumption
    | exact rfl
    | (extract_lets +onlyGivenNames x; (refine Dev.Only.have1 x (fun hx => ?_) ?_; clear_value x; rotate_left; subst x))
    | with_reducible exact Dev.Only.refl _ _ _
    | with_reducible apply Dev.Only.step (Dev.raise_only _ _ _)
    | with_reducible apply Dev.Only.wr
    | with_reducible apply Dev.Only.addSat
    | with_reducible apply Dev.Only.inc)

theorem Dev.encoder_only (x0 : Dev) (x1 : Bool) (x2 : Bool) :
    Dev.Only 0x1408bc00180 0x201f1400000000000000035341f8000000000000000000000000000000000000008070 x0 (Dev.encoder x0 x1 x2) := by
  unfold Dev.encoder
  repeat' (first
    | with_reducible assumption
    | exact rfl
    | (extract_lets +onlyGivenNames x; first | (refine Dev.Only.have1 x (fun hx => ?_) ?_; clear_value x; rotate_left; subst x) | clear_value x)
    | with_reducible exact Dev.Only.refl _ _ _
    | with_reducible apply Dev.Only.step (Dev.count_only _ _)
    | with_reducible apply Dev.Only.step (Dev.illegalCount_only _)
    | split
    | with_reducible apply Dev.Only.with_fire)

theorem execEncoderCount_only (x0 : Bool) (x1 : Bool) (x2 : State) :
    Out.Only 0x1408bc00180 0x201f1400000000000000035341f8000000000000000000000000000000000000008070 x2 (execEncoderCount x0 x1 x2) := by
  unfold execEncoderCount
  repeat' (first
    | exact rfl
    | with_reducible exact Dev.Only.refl _ _ _
    | with_reducible exact State.Only.refl _ _ _
    | with_reducible apply Out.Only.act
    | with_reducible apply Dev.Only.step (Dev.encoder_only _ _ _))

theorem Dev.standstill_only (x0 : Dev) :
    Dev.Only 0x1608bc00100 0x201f1400000000000000024001d8000000000000000000000000000000000000008070 x0 (Dev.standstill x0) := by
  unfold Dev.standstill
  repeat' (first
    | with_reducible assumption
    | exact rfl
    | (extract_lets +onlyGivenNames x; first | (refine Dev.Only.have1 x (fun hx => ?_) ?_; clear_value x; rotate_left; subst x) | clear_value x)
    | with_reducible exact Dev.Only.refl _ _ _
    | with_reducible apply Dev.Only.step (Dev.clearHold_only _ _)
    | with_reducible apply Dev.Only.step (Dev.loseTimes_only _)
    | with_reducible apply Dev.Only.step (Dev.raise_only _ _ _)
    | with_reducible apply Dev.Only.step (Dev.refreshSpeed_only _)
    | with_reducible apply Dev.Only.step (Dev.sendStatus_only _)
    | with_reducible apply Dev.Only.wr
    | split
    | with_reducible apply Dev.Only.with_fire)

theorem execEncStandstill_only (x0 : State) :
    Out.Only 0x1608bc00100 0x201f1400000000000000024001d8000000000000000000000000000000000000008070 x0 (execEncStandstill x0) := by
  unfold execEncStandstill
  repeat' (first
    | with_reducible assumption
    | exact rfl
    | with_reducible exact Dev.Only.refl _ _ _
    | with_reducible exact State.Only.refl _ _ _
    | (with_reducible apply State.Only.dev; with_reducible assumption)
    | with_reducible apply Out.Only.act
    | with_reducible apply Out.Only.next
    | with_reducible apply Dev.Only.step (Dev.standstill_only _)
    | split
    | with_reducible apply State.Only.mkDev)

theorem Dev.setXref_only (x0 : Dev) (x1 : Pos48) :
    Dev.Only 0 0x600000000000000000000000000000000000000000000 x0 (Dev.setXref x0 x1) := by
  unfold Dev.setXref
  repeat' (first
    | exact rfl
    | with_reducible exact Dev.Only.refl _ _ _
    | with_reducible apply Dev.Only.wr)

theorem Dev.spoilSlip_only (x0 : Dev) :
    Dev.Only 0x1408b000100 0x201f140000000000000000000000000000000000000000000000000000000000008040 x0 (Dev.spoilSlip x0) := by
  unfold Dev.spoilSlip
  repeat' (first
    | with_reducible assumption
    | exact rfl
    | intro e
    | with_reducible exact Dev.Only.refl _ _ _
    | with_reducible apply Dev.Only.step (Dev.spoilWhole_only _ _ _ _ _ _)
    | with_reducible apply Dev.Only.forEach)

theorem Dev.slipWindow_only (x0 : Dev) (x1 : Bool) :
    Dev.Only 0x14080400100 0x800000000000000000000000000000000000000000008060 x0 (Dev.slipWindow x0 x1) := by
  unfold Dev.slipWindow
  repeat' (first
    | with_reducible assumption
    | exact rfl
    | (extract_lets +onlyGivenNames x; first | (refine Dev.Only.have1 x (fun hx => ?_) ?_; clear_value x; rotate_left; subst x) | clear_value x)
    | with_reducible exact Dev.Only.refl _ _ _
    | with_reducible apply Dev.Only.step (Dev.raise_only _ _ _)
    | with_reducible apply Dev.Only.step (Dev.requestStop_only _ _)
    | with_reducible apply Dev.Only.wr
    | split
    | with_reducible apply Dev.Only.with_fire)

theorem Dev.goodIndex_only (x0 : Dev) :
    Dev.Only 0x400000 0 x0 (Dev.goodIndex x0) := by
  unfold Dev.goodIndex
  repeat' (first
    | exact rfl
    | (extract_lets +onlyGivenNames x; clear_value x)
    | with_reducible exact Dev.Only.refl _ _ _
    | with_reducible apply Dev.Only.with_fire)

theorem Dev.slip_only (x0 : Dev) (x1 : Int) :
    Dev.Only 0x1408b400100 0x201f140000000000000000848000000000000000000000000000000000000000008060 x0 (Dev.slip x0 x1) := by
  unfold Dev.slip
  repeat' (first
    | with_reducible assumption
    | exact rfl
    | (extract_lets +onlyGivenNames x; first | (refine Dev.Only.have1 x (fun hx => ?_) ?_; clear_value x; rotate_left; subst x)  | (refine Dev.Only.have1 x.1 (fun hx => ?_) ?_; clear_value x; rotate_left; subst x) | (refine Dev.Only.have1 x.2 (fun hx => ?_) ?_; clear_value x; rotate_left; subst x) | (refine Dev.Only.fun1 x ?_; subst x; try dsimp -zeta only) | clear_value x)
    | with_reducible exact Dev.Only.refl _ _ _
    | with_reducible apply Dev.Only.step (Dev.raise_only _ _ _)
    | with_reducible apply Dev.Only.step (Dev.slipWindow_only _ _)
    | with_reducible apply Dev.Only.step (Dev.goodIndex_only _)
    | with_reducible apply Dev.Only.step (Dev.spoilSlip_only _)
    | with_reducible apply Dev.Only.wr
    | with_reducible apply Dev.Only.inc
    | split)

theorem Dev.index_only (x0 : Dev) :
    Dev.Only 0x1408b400100 0x201f14000000000000000084de00000000000000000000000000000000000000008060 x0 (Dev.index x0) := by
  unfold Dev.index
  repeat' (first
    | with_reducible assumption
    | exact rfl
    | (extract_lets +onlyGivenNames x; first | (refine Dev.Only.have1 x (fun hx => ?_) ?_; clear_value x; rotate_left; subst x)  | (refine Dev.Only.have1 x.1 (fun hx => ?_) ?_; clear_value x; rotate_left; subst x) | (refine Dev.Only.have1 x.2 (fun hx => ?_) ?_; clear_value x; rotate_left; subst x) | (refine Dev.Only.fun1 x ?_; subst x; try dsimp -zeta only) | clear_value x)
    | with_reducible exact Dev.Only.refl _ _ _
    | with_reducible apply Dev.Only.step (Dev.goodIndex_only _)
    | with_reducible apply Dev.Only.step (Dev.setXref_only _ _)
    | with_reducible apply Dev.Only.step (Dev.slip_only _ _)
    | with_reducible apply Dev.Only.wr
    | with_reducible apply Dev.Only.addSat
    | split
    | with_reducible apply Dev.Only.with_fire)

theorem execEncoderIndex_only (x0 : Bool) (x1 : State) :
    Out.Only 0x1408b400100 0x201f14000000000000000084de00000000000000000000000000000000000000008060 x1 (execEncoderIndex x0 x1) := by
  unfold execEncoderIndex
  repeat' (first
    | exact rfl
    | with_reducible exact Dev.Only.refl _ _ _
    | with_reducible exact State.Only.refl _ _ _
    | with_reducible apply Out.Only.act
    | with_reducible apply Dev.Only.step (Dev.index_only _)
    | split)

theorem execEncNoindex_only (x0 : State) :
    Out.Only 0x1408b400100 0x201f1400000000000000008c8000000000000000000000000000000000000000008060 x0 (execEncNoindex x0) := by
  unfold execEncNoindex
  repeat' (first
    | with_reducible assumption
    | exact rfl
    | (extract_lets +onlyGivenNames x; first | (refine Out.Only.have1 x (fun hx => ?_) ?_; clear_value x; rotate_left; subst x) | (refine Out.Only.have2 x (fun hx => ?_) ?_; clear_value x; rotate_left; subst x)  | (refine State.Only.have1 x (fun hx => ?_) ?_; clear_value x; rotate_left; subst x) | (refine State.Only.have2 x (fun hx => ?_) ?_; clear_value x; rotate_left; subst x) | (refine Dev.Only.have1 x (fun hx => ?_) ?_; clear_value x; rotate_left; subst x) | clear_value x)
    | with_reducible exact Dev.Only.refl _ _ _
    | with_reducible exact State.Only.refl _ _ _
    | (with_reducible apply State.Only.dev; with_reducible assumption)
    | with_reducible apply Out.Only.act
    | with_reducible apply Out.Only.next
    | with_reducible apply Dev.Only.step (Dev.raise_only _ _ _)
    | with_reducible apply Dev.Only.step (Dev.slip_only _ _)
    | with_reducible apply Dev.Only.wr
    | split
    | with_reducible apply Dev.Only.with_fire
    | with_reducible apply State.Only.mkDev)

theorem execEncLine_only (x0 : EncInput) (x1 : State) :
    Out.Only 0x1408b400100 0x201f140000000000000000a00000000000000000000000000000000000000000008060 x1 (execEncLine x0 x1) := by
  unfold execEncLine
  repeat' (first
    | exact rfl
    | (extract_lets +onlyGivenNames x; clear_value x)
    | with_reducible exact Dev.Only.refl _ _ _
    | with_reducible exact State.Only.refl _ _ _
    | with_reducible apply Out.Only.act
    | with_reducible apply Dev.Only.step (Dev.raise_only _ _ _)
    | with_reducible apply Dev.Only.step (Dev.slipWindow_only _ _)
    | with_reducible apply Dev.Only.step (Dev.spoilSlip_only _)
    | with_reducible apply Dev.Only.wr
    | split)

/-! ### Plan -/

theorem Dev.putShift_only (x0 : Dev) (x1 : Nat) (x2 : Int) :
    Dev.Only 0x14080000100 0x400000000000000008040 x0 (Dev.putShift x0 x1 x2) := by
  unfold Dev.putShift
  repeat' (first
    | with_reducible assumption
    | exact rfl
    | (extract_lets +onlyGivenNames x; first | (refine Dev.Only.have1 x (fun hx => ?_) ?_; clear_value x; rotate_left; subst x) | clear_value x)
    | with_reducible exact Dev.Only.refl _ _ _
    | with_reducible apply Dev.Only.step (Dev.raise_only _ _ _)
    | with_reducible apply Dev.Only.wr
    | split)

theorem Dev.latUpdate_only (x0 : Dev) (x1 : Nat) :
    Dev.Only 0x14088000100 0x600000000000000000000000000000000000000000000000000000000000000000400000000000000008040 x0 (Dev.latUpdate x0 x1) := by
  unfold Dev.latUpdate
  repeat' (first
    | with_reducible assumption
    | exact rfl
    | (extract_lets +onlyGivenNames x; first | (refine Dev.Only.have1 x (fun hx => ?_) ?_; clear_value x; rotate_left; subst x) | clear_value x)
    | with_reducible exact Dev.Only.refl _ _ _
    | with_reducible apply Dev.Only.step (Dev.putShift_only _ _ _)
    | with_reducible apply Dev.Only.step (Dev.updBar_only _ _ _)
    | with_reducible apply Dev.Only.wr)

theorem Dev.planStep_only (x0 : Dev) (x1 : Nat) :
    Dev.Only 0x8000000 0x400000000000000000000 x0 (Dev.planStep x0 x1) := by
  unfold Dev.planStep
  repeat' (first
    | with_reducible assumption
    | exact rfl
    | (extract_lets +onlyGivenNames x; first | (refine Dev.Only.have1 x (fun hx => ?_) ?_; clear_value x; rotate_left; subst x) | clear_value x)
    | with_reducible exact Dev.Only.refl _ _ _
    | with_reducible apply Dev.Only.step (Dev.updBar_only _ _ _)
    | with_reducible apply Dev.Only.wr
    | split)

theorem Dev.stepTake_only (x0 : Dev) (x1 : Nat) (x2 : Nat) (x3 : Nat) (x4 : Nat) :
    Dev.Only 0x8000000 0x80000000000000000000000000000000000000000000000000000000000000000000000000000000000000 x0 (Dev.stepTake x0 x1 x2 x3 x4) := by
  unfold Dev.stepTake
  repeat' (first
    | with_reducible assumption
    | exact rfl
    | (extract_lets +onlyGivenNames x; (refine Dev.Only.have1 x (fun hx => ?_) ?_; clear_value x; rotate_left; subst x))
    | with_reducible exact Dev.Only.refl _ _ _
    | with_reducible apply Dev.Only.step (Dev.updBar_only _ _ _)
    | with_reducible apply Dev.Only.wr
    | split)

theorem Dev.planBar_only (x0 : Dev) (x1 : Nat) :
    Dev.Only 0x8000000 0x400000000000000000000 x0 (Dev.planBar x0 x1) := by
  unfold Dev.planBar
  repeat' (first
    | exact rfl
    | with_reducible exact Dev.Only.refl _ _ _
    | with_reducible apply Dev.Only.step (Dev.planStep_only _ _)
    | with_reducible apply Dev.Only.step (Dev.updBar_only _ _ _)
    | split)

theorem Dev.countStart_only (x0 : Dev) (x1 : Nat) (x2 : Nat) :
    Dev.Only 0x8000000 0x30000000000000000000000000000000000000000000000000000000000000000000000000000000000000 x0 (Dev.countStart x0 x1 x2) := by
  unfold Dev.countStart
  repeat' (first
    | with_reducible assumption
    | exact rfl
    | (extract_lets +onlyGivenNames x; first | (refine Dev.Only.have1 x (fun hx => ?_) ?_; clear_value x; rotate_left; subst x)  | (refine Dev.Only.have1 x.1 (fun hx => ?_) ?_; clear_value x; rotate_left; subst x) | (refine Dev.Only.have1 x.2 (fun hx => ?_) ?_; clear_value x; rotate_left; subst x) | (refine Dev.Only.fun1 x ?_; subst x; try dsimp -zeta only) | clear_value x)
    | with_reducible exact Dev.Only.refl _ _ _
    | with_reducible apply Dev.Only.wr
    | (with_reducible apply Dev.Only.of_fst; assumption)
    | split
    | with_reducible apply Dev.Only.with_loops)

theorem Dev.brimRow_only (x0 : Dev) (x1 : Nat) (x2 : Nat) (x3 : Nat) (x4 : Nat) (x5 : Nat) (x6 : Nat) (x7 : Nat) (x8 : Nat) (x9 : Nat) :
    Dev.Only 0 0x1fc0000000000000000000000000000 x0 (Dev.brimRow x0 x1 x2 x3 x4 x5 x6 x7 x8 x9) := by
  unfold Dev.brimRow
  repeat' (first
    | with_reducible assumption
    | exact rfl
    | (extract_lets +onlyGivenNames x; (refine Dev.Only.have1 x (fun hx => ?_) ?_; clear_value x; rotate_left; subst x))
    | with_reducible exact Dev.Only.refl _ _ _
    | with_reducible apply Dev.Only.wr)

theorem Dev.visRows_only (x0 : Dev) (x1 : Nat) (x2 : Nat) (x3 : Nat) (x4 : Nat) :
    Dev.Only 0x8000000 0x30000000000000000000000000000000000000000000000000000001fc4000000000000000000000000000 x0 (Dev.visRows x0 x1 x2 x3 x4) := by
  unfold Dev.visRows
  repeat' (first
    | with_reducible assumption
    | exact rfl
    | intro e
    | (extract_lets +onlyGivenNames x; first | (refine Dev.Only.have1 x (fun hx => ?_) ?_; clear_value x; rotate_left; subst x)  | (refine Dev.Only.have1 x.1 (fun hx => ?_) ?_; clear_value x; rotate_left; subst x) | (refine Dev.Only.have1 x.2 (fun hx => ?_) ?_; clear_value x; rotate_left; subst x) | (refine Dev.Only.fun1 x ?_; subst x; try dsimp -zeta only) | clear_value x)
    | with_reducible exact Dev.Only.refl _ _ _
    | with_reducible apply Dev.Only.step (Dev.countStart_only _ _ _)
    | with_reducible apply Dev.Only.step (Dev.brimRow_only _ _ _ _ _ _ _ _ _ _)
    | with_reducible apply Dev.Only.forEach
    | with_reducible apply Dev.Only.wr
    | (with_reducible apply Dev.Only.of_fst; assumption)
    | split)

/-! ### Dose -/

theorem Dev.rodRefetch_only (x0 : Dev) (x1 : Nat) (x2 : Nat) (x3 : Option Nat) :
    Dev.Only 0x14080000100 0x2000000000000000000000000008040 x0 (Dev.rodRefetch x0 x1 x2 x3) := by
  unfold Dev.rodRefetch
  repeat' (first
    | with_reducible assumption
    | exact rfl
    | with_reducible exact Dev.Only.refl _ _ _
    | with_reducible apply Dev.Only.step (Dev.raise_only _ _ _)
    | with_reducible apply Dev.Only.wr
    | (with_reducible apply Dev.Only.of_fst; assumption)
    | split)

theorem execRodRefetch_only (x0 : BitVec 18) (x1 : Bool) (x2 : State) :
    Out.Only 0x14080000100 0x2000000000000000000000000008040 x2 (execRodRefetch x0 x1 x2) := by
  unfold execRodRefetch
  repeat' (first
    | with_reducible assumption
    | exact rfl
    | with_reducible exact Dev.Only.refl _ _ _
    | with_reducible exact State.Only.refl _ _ _
    | (with_reducible apply State.Only.dev; with_reducible assumption)
    | with_reducible apply Out.Only.act
    | with_reducible apply Out.Only.next
    | with_reducible apply Dev.Only.step (Dev.rodRefetch_only _ _ _ _)
    | (with_reducible apply Dev.Only.of_fst; assumption)
    | split
    | with_reducible apply State.Only.mkDev)

theorem Dev.rodWindow_only (x0 : Dev) (x1 : Nat) (x2 : Nat) :
    Dev.Only 0x14080000100 0x2000800000000000000000000008040 x0 (Dev.rodWindow x0 x1 x2) := by
  unfold Dev.rodWindow
  repeat' (first
    | exact rfl
    | with_reducible exact Dev.Only.refl _ _ _
    | with_reducible apply Dev.Only.step (Dev.raise_only _ _ _)
    | with_reducible apply Dev.Only.wr
    | split)

theorem execRodWindowWrite_only (x0 : Lvl) (x1 : BitVec 18) (x2 : U32) (x3 : State) :
    Out.Only 0x14080000100 0x2000800000000000fc00000001f8040 x3 (execRodWindowWrite x0 x1 x2 x3) := by
  unfold execRodWindowWrite
  repeat' (first
    | with_reducible assumption
    | exact rfl
    | intro e
    | with_reducible exact Dev.Only.refl _ _ _
    | with_reducible exact State.Only.refl _ _ _
    | with_reducible apply Out.Only.act
    | with_reducible apply Dev.ownWriteP_only
    | with_reducible apply Dev.Only.step (Dev.rodWindow_only _ _ _))

theorem Dev.rodEnqueue_only (x0 : Dev) (x1 : Nat) (x2 : Nat) :
    Dev.Only 0x14088004100 0x1000800000000000000000008040 x0 (Dev.rodEnqueue x0 x1 x2) := by
  unfold Dev.rodEnqueue
  repeat' (first
    | with_reducible assumption
    | exact rfl
    | (extract_lets +onlyGivenNames x; first | (refine Dev.Only.have1 x (fun hx => ?_) ?_; clear_value x; rotate_left; subst x) | clear_value x)
    | with_reducible exact Dev.Only.refl _ _ _
    | with_reducible apply Dev.Only.step (Dev.raise_only _ _ _)
    | with_reducible apply Dev.Only.step (Dev.updDp_only _ _ _)
    | with_reducible apply Dev.Only.wr
    | split
    | with_reducible apply Dev.Only.with_loops)

theorem execRodEnqueue_only (x0 : Lvl) (x1 : Pipe) (x2 : U32) (x3 : State) :
    Out.Only 0x14088004100 0x1000800000000fc00000001f8040 x3 (execRodEnqueue x0 x1 x2 x3) := by
  unfold execRodEnqueue
  repeat' (first
    | with_reducible assumption
    | exact rfl
    | intro e
    | with_reducible exact Dev.Only.refl _ _ _
    | with_reducible exact State.Only.refl _ _ _
    | with_reducible apply Out.Only.act
    | with_reducible apply Dev.ownWrite_only
    | with_reducible apply Dev.Only.step (Dev.rodEnqueue_only _ _ _))

theorem Dev.rodCommit_only (x0 : Dev) (x1 : Nat) :
    Dev.Only 0x14080000100 0x2001000000000000000000008040 x0 (Dev.rodCommit x0 x1) := by
  unfold Dev.rodCommit
  repeat' (first
    | exact rfl
    | with_reducible exact Dev.Only.refl _ _ _
    | with_reducible apply Dev.Only.step (Dev.raise_only _ _ _)
    | with_reducible apply Dev.Only.wr
    | split)

theorem Dev.sv1Commit_only (x0 : Dev) (x1 : Nat) :
    Dev.Only 0x14088004100 0x3001800000000000000000008040 x0 (Dev.sv1Commit x0 x1) := by
  unfold Dev.sv1Commit
  repeat' (first
    | with_reducible assumption
    | exact rfl
    | intro e
    | (extract_lets +onlyGivenNames x; first | (refine Dev.Only.have1 x (fun hx => ?_) ?_; clear_value x; rotate_left; subst x)  | (refine Dev.Only.have1 x.1 (fun hx => ?_) ?_; clear_value x; rotate_left; subst x) | (refine Dev.Only.have1 x.2 (fun hx => ?_) ?_; clear_value x; rotate_left; subst x) | (refine Dev.Only.fun1 x ?_; subst x; try dsimp -zeta only) | clear_value x)
    | with_reducible exact Dev.Only.refl _ _ _
    | with_reducible apply Dev.Only.step (Dev.rodCommit_only _ _)
    | with_reducible apply Dev.Only.step (Dev.rodEnqueue_only _ _ _)
    | with_reducible apply Dev.Only.step (Dev.updDp_only _ _ _)
    | with_reducible apply Dev.Only.forEach
    | split)

theorem execRodCommit_only (x0 : Lvl) (x1 : Pipe) (x2 : State) :
    Out.Only 0x14080000100 0x2001000000000fc00000001f8040 x2 (execRodCommit x0 x1 x2) := by
  unfold execRodCommit
  repeat' (first
    | with_reducible assumption
    | exact rfl
    | intro e
    | with_reducible exact Dev.Only.refl _ _ _
    | with_reducible exact State.Only.refl _ _ _
    | with_reducible apply Out.Only.act
    | with_reducible apply Dev.ownWrite_only
    | with_reducible apply Dev.Only.step (Dev.rodCommit_only _ _))

theorem Dev.rodRelease_only (x0 : Dev) (x1 : Nat) :
    Dev.Only 0x14088044100 0x3005800000000000000000008040 x0 (Dev.rodRelease x0 x1) := by
  unfold Dev.rodRelease
  repeat' (first
    | with_reducible assumption
    | exact rfl
    | intro e
    | (extract_lets +onlyGivenNames x; first | (refine Dev.Only.have1 x (fun hx => ?_) ?_; clear_value x; rotate_left; subst x)  | (refine Dev.Only.have1 x.1 (fun hx => ?_) ?_; clear_value x; rotate_left; subst x) | (refine Dev.Only.have1 x.2 (fun hx => ?_) ?_; clear_value x; rotate_left; subst x) | (refine Dev.Only.fun1 x ?_; subst x; try dsimp -zeta only) | clear_value x)
    | with_reducible exact Dev.Only.refl _ _ _
    | with_reducible apply Dev.Only.step (Dev.setMasterRod_only _ _ _)
    | with_reducible apply Dev.Only.step (Dev.sv1Commit_only _ _)
    | with_reducible apply Dev.Only.step (Dev.updDp_only _ _ _)
    | with_reducible apply Dev.Only.forEach
    | with_reducible apply Dev.Only.wr
    | split)

theorem State.storeRods_only (x0 : State) (x1 : Nat) :
    State.Only 0x40000000000 0x20800000000000000000000000000000000000000000000000000000000000000000000000000000000000000000000000000000000000000000000 x0 (State.storeRods x0 x1) := by
  unfold State.storeRods
  repeat' (first
    | with_reducible assumption
    | exact rfl
    | intro e
    | with_reducible exact Dev.Only.refl _ _ _
    | with_reducible exact State.Only.refl _ _ _
    | (with_reducible apply State.Only.dev; with_reducible assumption)
    | with_reducible apply State.Only.step (State.dramWrite_only _ _ _ _)
    | with_reducible apply Dev.Only.foldl
    | with_reducible apply Dev.Only.foldl_fst
    | with_reducible apply Dev.Only.foldl_snd
    | with_reducible apply State.Only.foldl
    | split)

theorem execRodRelease_only (x0 : Lvl) (x1 : Pipe) (x2 : State) :
    Out.Only 0x54088044100 0x20800000000000000000000000000000000000000000000000000000000000000000000000000000000000000003005800000000fc00000001f8040 x2 (execRodRelease x0 x1 x2) := by
  unfold execRodRelease
  repeat' (first
    | with_reducible assumption
    | exact rfl
    | intro e
    | (extract_lets +onlyGivenNames x; first | (refine Out.Only.have1 x (fun hx => ?_) ?_; clear_value x; rotate_left; subst x) | (refine Out.Only.have2 x (fun hx => ?_) ?_; clear_value x; rotate_left; subst x)  | (refine State.Only.have1 x (fun hx => ?_) ?_; clear_value x; rotate_left; subst x) | (refine State.Only.have2 x (fun hx => ?_) ?_; clear_value x; rotate_left; subst x) | (refine Dev.Only.have1 x (fun hx => ?_) ?_; clear_value x; rotate_left; subst x) | clear_value x)
    | with_reducible exact Dev.Only.refl _ _ _
    | with_reducible exact State.Only.refl _ _ _
    | (with_reducible apply State.Only.dev; with_reducible assumption)
    | with_reducible apply Out.Only.act
    | with_reducible apply Out.Only.next
    | with_reducible apply State.Only.step (State.storeRods_only _ _)
    | with_reducible apply Dev.ownWrite_only
    | with_reducible apply Dev.Only.step (Dev.rodRelease_only _ _)
    | split
    | with_reducible apply State.Only.mkDev)

theorem Dev.applyQueue_only (x0 : Dev) (x1 : Nat) (x2 : Nat) (x3 : Nat) :
    Dev.Only 0x14080004100 0x2000025800000000000000000008040 x0 (Dev.applyQueue x0 x1 x2 x3) := by
  unfold Dev.applyQueue
  repeat' (first
    | with_reducible assumption
    | exact rfl
    | intro e
    | (extract_lets +onlyGivenNames x; first | (refine Dev.Only.have1 x (fun hx => ?_) ?_; clear_value x; rotate_left; subst x) | clear_value x)
    | with_reducible exact Dev.Only.refl _ _ _
    | with_reducible apply Dev.Only.step (Dev.raise_only _ _ _)
    | with_reducible apply Dev.Only.step (Dev.updDp_only _ _ _)
    | with_reducible apply Dev.Only.wr
    | with_reducible apply Dev.Only.incWrap
    | with_reducible apply Dev.Only.forEach
    | split)

theorem Dev.applyRods_only (x0 : Dev) (x1 : Nat) (x2 : Nat) (x3 : Nat) :
    Dev.Only 0x14080004100 0x2000025800000000000000000008040 x0 (Dev.applyRods x0 x1 x2 x3) := by
  unfold Dev.applyRods
  repeat' (first
    | exact rfl
    | with_reducible exact Dev.Only.refl _ _ _
    | with_reducible apply Dev.Only.step (Dev.applyQueue_only _ _ _ _)
    | split)

theorem Dev.countVer_only (x0 : Dev) (x1 : Nat) (x2 : Nat) (x3 : Nat) :
    Dev.Only 0x2000000 0 x0 (Dev.countVer x0 x1 x2 x3) := by
  unfold Dev.countVer
  repeat' (first
    | exact rfl
    | with_reducible exact Dev.Only.refl _ _ _
    | with_reducible apply Dev.Only.step (Dev.updAccount_only _ _ _))

theorem Dev.productStart_only (x0 : Dev) (x1 : Nat) (x2 : Nat) (x3 : Nat) (x4 : Nat) :
    Dev.Only 0x1408a004100 0xb0000000000000000000000000000000000000000000000000000003fcc025800c00000000000000008040 x0 (Dev.productStart x0 x1 x2 x3 x4) := by
  unfold Dev.productStart
  repeat' (first
    | with_reducible assumption
    | exact rfl
    | (extract_lets +onlyGivenNames x; first | (refine Dev.Only.have1 x (fun hx => ?_) ?_; clear_value x; rotate_left; subst x)  | (refine Dev.Only.have1 x.1 (fun hx => ?_) ?_; clear_value x; rotate_left; subst x) | (refine Dev.Only.have1 x.2 (fun hx => ?_) ?_; clear_value x; rotate_left; subst x) | (refine Dev.Only.fun1 x ?_; subst x; try dsimp -zeta only) | clear_value x)
    | with_reducible exact Dev.Only.refl _ _ _
    | with_reducible apply Dev.Only.step (Dev.visRows_only _ _ _ _ _)
    | with_reducible apply Dev.Only.step (Dev.updDp_only _ _ _)
    | with_reducible apply Dev.Only.step (Dev.applyRods_only _ _ _ _)
    | with_reducible apply Dev.Only.step (Dev.stepTake_only _ _ _ _ _)
    | with_reducible apply Dev.Only.step (Dev.planBar_only _ _)
    | with_reducible apply Dev.Only.step (Dev.countVer_only _ _ _ _)
    | with_reducible apply Dev.Only.wr
    | split
    | with_reducible apply Dev.Only.with_loops)

theorem Dev.dropStale_only (x0 : Dev) :
    Dev.Only 0x2000 0 x0 (Dev.dropStale x0) := by
  unfold Dev.dropStale
  repeat' (first
    | exact rfl
    | (extract_lets +onlyGivenNames x; clear_value x)
    | with_reducible exact Dev.Only.refl _ _ _
    | with_reducible apply Dev.Only.with_rk)

theorem Dev.startBand_only (x0 : Dev) (x1 : BandTiles) (x2 : JobRec) :
    Dev.Only 0x14080104100 0x180200000000000000000000000000008040 x0 (Dev.startBand x0 x1 x2) := by
  unfold Dev.startBand
  repeat' (first
    | with_reducible assumption
    | exact rfl
    | intro e
    | (extract_lets +onlyGivenNames x; first | (refine Dev.Only.have1 x (fun hx => ?_) ?_; clear_value x; rotate_left; subst x) | clear_value x)
    | with_reducible exact Dev.Only.refl _ _ _
    | with_reducible apply Dev.Only.step (Dev.decideLevel_only _)
    | with_reducible apply Dev.Only.step (Dev.updDp_only _ _ _)
    | with_reducible apply Dev.Only.wr
    | with_reducible apply Dev.Only.forEach)

theorem Dev.waitSlots_only (x0 : Dev) (x1 : List Nat) :
    Dev.Only 0x14080000100 0x80000000000000000000000000000008040 x0 (Dev.waitSlots x0 x1) := by
  unfold Dev.waitSlots
  repeat' (first
    | with_reducible assumption
    | exact rfl
    | intro e
    | (extract_lets +onlyGivenNames x; (refine Dev.Only.have1 x (fun hx => ?_) ?_; clear_value x; rotate_left; subst x))
    | with_reducible exact Dev.Only.refl _ _ _
    | with_reducible apply Dev.Only.step (Dev.raise_only _ _ _)
    | with_reducible apply Dev.Only.wr
    | with_reducible apply Dev.Only.forEach
    | split)

theorem Dev.doseBandStart_only (x0 : Dev) :
    Dev.Only 0x14080126100 0x1180218000000000000000000000000008040 x0 (Dev.doseBandStart x0) := by
  unfold Dev.doseBandStart
  repeat' (first
    | with_reducible assumption
    | exact rfl
    | intro e
    | (extract_lets +onlyGivenNames x; first | (refine Dev.Only.have1 x (fun hx => ?_) ?_; clear_value x; rotate_left; subst x) | clear_value x)
    | with_reducible exact Dev.Only.refl _ _ _
    | with_reducible apply Dev.Only.step (Dev.dropStale_only _)
    | with_reducible apply Dev.Only.step (Dev.refreshLead_only _)
    | with_reducible apply Dev.Only.step (Dev.startBand_only _ _ _)
    | with_reducible apply Dev.Only.step (Dev.waitSlots_only _ _)
    | with_reducible apply Dev.Only.wr
    | with_reducible apply Dev.Only.forEach
    | split
    | with_reducible apply Dev.Only.with_reload)

theorem execDoseBandStart_only (x0 : State) :
    Out.Only 0x14080126100 0x1180218000000000000000000000000008040 x0 (execDoseBandStart x0) := by
  unfold execDoseBandStart
  repeat' (first
    | exact rfl
    | with_reducible exact Dev.Only.refl _ _ _
    | with_reducible exact State.Only.refl _ _ _
    | with_reducible apply Out.Only.act
    | with_reducible apply Dev.Only.step (Dev.doseBandStart_only _)
    | split)

theorem Dev.loadTables_only (x0 : Dev) (x1 : Nat) (x2 : Nat) :
    Dev.Only 0x38000 0xc000000000000000000000 x0 (Dev.loadTables x0 x1 x2) := by
  unfold Dev.loadTables
  repeat' (first
    | with_reducible assumption
    | exact rfl
    | intro e
    | (extract_lets +onlyGivenNames x; (refine Dev.Only.have1 x (fun hx => ?_) ?_; clear_value x; rotate_left; subst x))
    | with_reducible exact Dev.Only.refl _ _ _
    | with_reducible apply Dev.Only.wr
    | with_reducible apply Dev.Only.forEach
    | split
    | with_reducible apply Dev.Only.with_curveSet_screenSet_reload)

theorem execTableReload_only (x0 : State) :
    Out.Only 0x38000 0xc000000000000000000000 x0 (execTableReload x0) := by
  unfold execTableReload
  repeat' (first
    | exact rfl
    | with_reducible exact Dev.Only.refl _ _ _
    | with_reducible exact State.Only.refl _ _ _
    | with_reducible apply Out.Only.act
    | with_reducible apply Dev.Only.step (Dev.loadTables_only _ _ _)
    | split
    | with_reducible apply Dev.Only.with_reload)

theorem Dev.doseOut_only (x0 : Dev) (x1 : LineCtx) (x2 : Nat) (x3 : DoseChecks) :
    Dev.Only 0x1408b000100 0x201f140000000000000000000000000000000000000380000000000000000000008040 x0 (Dev.doseOut x0 x1 x2 x3).2.2 := by
  unfold Dev.doseOut
  repeat' (first
    | with_reducible assumption
    | exact rfl
    | (extract_lets +onlyGivenNames x; first | (refine Dev.Only.have1 x (fun hx => ?_) ?_; clear_value x; rotate_left; subst x)  | (refine Dev.Only.have1 x.1 (fun hx => ?_) ?_; clear_value x; rotate_left; subst x) | (refine Dev.Only.have1 x.2 (fun hx => ?_) ?_; clear_value x; rotate_left; subst x) | (refine Dev.Only.fun1 x ?_; subst x; try dsimp -zeta only) | clear_value x)
    | with_reducible exact Dev.Only.refl _ _ _
    | with_reducible apply Dev.Only.step (Dev.raise_only _ _ _)
    | with_reducible apply Dev.Only.step (Dev.spoilBarLine_only _ _ _ _ _)
    | with_reducible apply Dev.Only.inc
    | (with_reducible apply Dev.Only.of_fst; assumption)
    | split)

theorem Dev.shortEnd_only (x0 : Dev) (x1 : Nat) (x2 : Nat) (x3 : Nat) :
    Dev.Only 0x14082000100 0x400000000000000000000008040 x0 (Dev.shortEnd x0 x1 x2 x3) := by
  unfold Dev.shortEnd
  repeat' (first
    | with_reducible assumption
    | exact rfl
    | (extract_lets +onlyGivenNames x; first | (refine Dev.Only.have1 x (fun hx => ?_) ?_; clear_value x; rotate_left; subst x) | clear_value x)
    | with_reducible exact Dev.Only.refl _ _ _
    | with_reducible apply Dev.Only.step (Dev.raise_only _ _ _)
    | with_reducible apply Dev.Only.step (Dev.updAccount_only _ _ _)
    | with_reducible apply Dev.Only.wr
    | split)

theorem Dev.freeTiles_only (x0 : Dev) (x1 : Nat) :
    Dev.Only 0x2000 0 x0 (Dev.freeTiles x0 x1) := by
  unfold Dev.freeTiles
  repeat' (first
    | with_reducible assumption
    | exact rfl
    | (extract_lets +onlyGivenNames x; first | (refine Dev.Only.have1 x (fun hx => ?_) ?_; clear_value x; rotate_left; subst x)  | (refine Dev.Only.have1 x.1 (fun hx => ?_) ?_; clear_value x; rotate_left; subst x) | (refine Dev.Only.have1 x.2 (fun hx => ?_) ?_; clear_value x; rotate_left; subst x) | (refine Dev.Only.fun1 x ?_; subst x; try dsimp -zeta only) | clear_value x)
    | with_reducible exact Dev.Only.refl _ _ _
    | with_reducible apply Dev.Only.step (Dev.startAll_only _)
    | (with_reducible apply Dev.Only.of_fst; assumption)
    | split
    | with_reducible apply Dev.Only.with_rk)

theorem Dev.doseLine_only (x0 : Dev) (x1 : Nat) (x2 : DoseChecks) :
    Dev.Only 0x1408b006100 0xb000000000000000201f140000000000000000000000000000000003fcc7a5800c00000000000000008040 x0 (Dev.doseLine x0 x1 x2) := by
  unfold Dev.doseLine
  repeat' (first
    | with_reducible assumption
    | exact rfl
    | (extract_lets +onlyGivenNames x; first | (refine Dev.Only.have1 x (fun hx => ?_) ?_; clear_value x; rotate_left; subst x)  | (refine Dev.Only.have1 x.1 (fun hx => ?_) ?_; clear_value x; rotate_left; subst x) | (refine Dev.Only.have1 x.2 (fun hx => ?_) ?_; clear_value x; rotate_left; subst x) | (refine Dev.Only.fun1 x ?_; subst x; try dsimp -zeta only) | clear_value x)
    | with_reducible exact Dev.Only.refl _ _ _
    | with_reducible apply Dev.Only.step (Dev.productStart_only _ _ _ _ _)
    | with_reducible apply Dev.Only.step (Dev.doseOut_only _ _ _ _)
    | with_reducible apply Dev.Only.step (Dev.updDp_only _ _ _)
    | with_reducible apply Dev.Only.step (Dev.shortEnd_only _ _ _ _)
    | with_reducible apply Dev.Only.step (Dev.freeTiles_only _ _)
    | (with_reducible apply Dev.Only.of_fst; assumption)
    | (with_reducible apply Dev.Only.of_snd; assumption)
    | (with_reducible apply Dev.Only.of_snd2; assumption)
    | split)

theorem execDoseLine_only (x0 : Pipe) (x1 : DoseChecks) (x2 : State) :
    Out.Only 0x1408b006100 0xb000000000000000201f140000000000000000000000000000000003fcc7a5800c00000000000000008040 x2 (execDoseLine x0 x1 x2) := by
  unfold execDoseLine
  repeat' (first
    | exact rfl
    | with_reducible exact Dev.Only.refl _ _ _
    | with_reducible exact State.Only.refl _ _ _
    | with_reducible apply Out.Only.act
    | with_reducible apply Dev.Only.step (Dev.doseLine_only _ _ _))

end Sys2Proof.Machine
end

