-- ==== Sys2Proof/Laws/OnlyLanes.lean ====
section
/-! SUPPORT. What each operation may change, operation by operation: vision, firing, Abacus, Ahnus, rods, lanes, time and supply. Each lemma names the parts
and the register fields as bit masks over `Part` and `Fld`. -/
namespace Sys2Proof.Machine

-- One theorem at a time: checked side by side, their threads exceed the memory that the check allows.
set_option Elab.async false
-- The proofs of this file share one script, whose steps not every goal needs.
set_option linter.unusedTactic false
set_option linter.unreachableTactic false

/-! ### Vision -/

theorem Dev.updVp_only (x0 : Dev) (x1 : Nat) (x2 : Vis → Vis) :
    Dev.Only 0x4000000 0 x0 (Dev.updVp x0 x1 x2) := by
  unfold Dev.updVp
  repeat' (first
    | exact rfl
    | with_reducible exact Dev.Only.refl _ _ _
    | with_reducible apply Dev.Only.with_vis)

theorem Dev.visHead_only (x0 : Dev) (x1 : Nat) :
    Dev.Only 0x4000000 0 x0 (Dev.visHead x0 x1) := by
  unfold Dev.visHead
  repeat' (first
    | exact rfl
    | with_reducible exact Dev.Only.refl _ _ _
    | with_reducible apply Dev.Only.step (Dev.updVp_only _ _ _))

theorem Dev.visPop_only (x0 : Dev) (x1 : Nat) :
    Dev.Only 0x4000000 0 x0 (Dev.visPop x0 x1) := by
  unfold Dev.visPop
  repeat' (first
    | exact rfl
    | with_reducible exact Dev.Only.refl _ _ _
    | with_reducible apply Dev.Only.step (Dev.updVp_only _ _ _)
    | with_reducible apply Dev.Only.step (Dev.visHead_only _ _))

theorem Dev.visEnqueue_only (x0 : Dev) (x1 : Nat) (x2 : Nat) :
    Dev.Only 0x4000000 0x1000000000000000000000000000000000000000000000000000000000000000000000000000000000 x0 (Dev.visEnqueue x0 x1 x2) := by
  unfold Dev.visEnqueue
  repeat' (first
    | with_reducible assumption
    | exact rfl
    | (extract_lets +onlyGivenNames x; first | (refine Dev.Only.have1 x (fun hx => ?_) ?_; clear_value x; rotate_left; subst x) | clear_value x)
    | with_reducible exact Dev.Only.refl _ _ _
    | with_reducible apply Dev.Only.step (Dev.updVp_only _ _ _)
    | with_reducible apply Dev.Only.step (Dev.visHead_only _ _)
    | with_reducible apply Dev.Only.wr
    | split)

theorem execTriggerEnqueue_only (x0 : Lvl) (x1 : Port) (x2 : U16) (x3 : State) :
    Out.Only 0x14084000100 0x1000000000000000000000000000000000000000000000000000000000000000000fc00000001f8040 x3 (execTriggerEnqueue x0 x1 x2 x3) := by
  unfold execTriggerEnqueue
  repeat' (first
    | with_reducible assumption
    | exact rfl
    | intro e
    | with_reducible exact Dev.Only.refl _ _ _
    | with_reducible exact State.Only.refl _ _ _
    | with_reducible apply Out.Only.act
    | with_reducible apply Dev.ownWrite_only
    | with_reducible apply Dev.Only.step (Dev.visEnqueue_only _ _ _))

theorem Dev.visCommitEnd_only (x0 : Dev) (x1 : Nat) :
    Dev.Only 0x4000000 0x1000000000000000000000000000000000000000000000000000000000000000000000000000 x0 (Dev.visCommitEnd x0 x1) := by
  unfold Dev.visCommitEnd
  repeat' (first
    | exact rfl
    | with_reducible exact Dev.Only.refl _ _ _
    | with_reducible apply Dev.Only.step (Dev.updVp_only _ _ _)
    | with_reducible apply Dev.Only.wr
    | split)

theorem Dev.visBlank_only (x0 : Dev) (x1 : Nat) :
    Dev.Only 0x4000000 0 x0 (Dev.visBlank x0 x1) := by
  unfold Dev.visBlank
  repeat' (first
    | with_reducible assumption
    | exact rfl
    | (extract_lets +onlyGivenNames x; first | (refine Dev.Only.have1 x (fun hx => ?_) ?_; clear_value x; rotate_left; subst x)  | (refine Dev.Only.have1 x.1 (fun hx => ?_) ?_; clear_value x; rotate_left; subst x) | (refine Dev.Only.have1 x.2 (fun hx => ?_) ?_; clear_value x; rotate_left; subst x) | (refine Dev.Only.fun1 x ?_; subst x; try dsimp -zeta only) | clear_value x)
    | with_reducible exact Dev.Only.refl _ _ _
    | with_reducible apply Dev.Only.step (Dev.updVp_only _ _ _)
    | (with_reducible apply Dev.Only.of_fst; assumption)
    | split)

theorem Dev.visCommit_only (x0 : Dev) (x1 : Nat) :
    Dev.Only 0x4000000 0x1000000000000000000000000000000000000000000000000000000000000000000000000000 x0 (Dev.visCommit x0 x1) := by
  unfold Dev.visCommit
  repeat' (first
    | with_reducible assumption
    | exact rfl
    | (extract_lets +onlyGivenNames x; first | (refine Dev.Only.have1 x (fun hx => ?_) ?_; clear_value x; rotate_left; subst x) | clear_value x)
    | with_reducible exact Dev.Only.refl _ _ _
    | with_reducible apply Dev.Only.step (Dev.updVp_only _ _ _)
    | with_reducible apply Dev.Only.step (Dev.visBlank_only _ _)
    | with_reducible apply Dev.Only.wr
    | split)

theorem execExposureCommit_only (x0 : Lvl) (x1 : Port) (x2 : State) :
    Out.Only 0x14084000100 0x1000000000000000000000000000000000000000000000000000000000000fc00000001f8040 x2 (execExposureCommit x0 x1 x2) := by
  unfold execExposureCommit
  repeat' (first
    | with_reducible assumption
    | exact rfl
    | intro e
    | with_reducible exact Dev.Only.refl _ _ _
    | with_reducible exact State.Only.refl _ _ _
    | with_reducible apply Out.Only.act
    | with_reducible apply Dev.ownWrite_only
    | with_reducible apply Dev.Only.step (Dev.visCommit_only _ _))

theorem Dev.visI2c_only (x0 : Dev) (x1 : Nat) (x2 : List Nat) :
    Dev.Only 0x10000000000 0 x0 (Dev.visI2c x0 x1 x2) := by
  unfold Dev.visI2c
  repeat' (first
    | with_reducible assumption
    | exact rfl
    | intro e
    | with_reducible exact Dev.Only.refl _ _ _
    | with_reducible apply Dev.Only.step (Dev.emit_only _ _)
    | with_reducible apply Dev.Only.forEach
    | split)

theorem execI2cListComplete_only (x0 : Port) (x1 : State) :
    Out.Only 0x10004000000 0x1000000000000000000000000000000000000000000000000000000000000000000000000000 x1 (execI2cListComplete x0 x1) := by
  unfold execI2cListComplete
  repeat' (first
    | with_reducible assumption
    | exact rfl
    | (extract_lets +onlyGivenNames x; first | (refine Out.Only.have1 x (fun hx => ?_) ?_; clear_value x; rotate_left; subst x) | (refine Out.Only.have2 x (fun hx => ?_) ?_; clear_value x; rotate_left; subst x)  | (refine State.Only.have1 x (fun hx => ?_) ?_; clear_value x; rotate_left; subst x) | (refine State.Only.have2 x (fun hx => ?_) ?_; clear_value x; rotate_left; subst x) | (refine Dev.Only.have1 x (fun hx => ?_) ?_; clear_value x; rotate_left; subst x) | clear_value x)
    | with_reducible exact Dev.Only.refl _ _ _
    | with_reducible exact State.Only.refl _ _ _
    | (with_reducible apply State.Only.dev; with_reducible assumption)
    | with_reducible apply Out.Only.act
    | with_reducible apply Out.Only.next
    | with_reducible apply Dev.Only.step (Dev.visI2c_only _ _ _)
    | with_reducible apply Dev.Only.step (Dev.updVp_only _ _ _)
    | with_reducible apply Dev.Only.step (Dev.visCommitEnd_only _ _)
    | (with_reducible apply Dev.Only.of_fst; assumption)
    | split
    | with_reducible apply State.Only.mkDev)

theorem execCamI2cFail_only (x0 : Port) (x1 : Fin 256) (x2 : State) :
    Out.Only 0x14084000100 0x4000001000000000000000000000000000000000000000000000000000000000000000000000008040 x2 (execCamI2cFail x0 x1 x2) := by
  unfold execCamI2cFail
  repeat' (first
    | with_reducible assumption
    | exact rfl
    | (extract_lets +onlyGivenNames x; first | (refine Out.Only.have1 x (fun hx => ?_) ?_; clear_value x; rotate_left; subst x) | (refine Out.Only.have2 x (fun hx => ?_) ?_; clear_value x; rotate_left; subst x)  | (refine State.Only.have1 x (fun hx => ?_) ?_; clear_value x; rotate_left; subst x) | (refine State.Only.have2 x (fun hx => ?_) ?_; clear_value x; rotate_left; subst x) | (refine Dev.Only.have1 x (fun hx => ?_) ?_; clear_value x; rotate_left; subst x) | clear_value x)
    | with_reducible exact Dev.Only.refl _ _ _
    | with_reducible exact State.Only.refl _ _ _
    | (with_reducible apply State.Only.dev; with_reducible assumption)
    | with_reducible apply Out.Only.act
    | with_reducible apply Out.Only.next
    | with_reducible apply Dev.Only.step (Dev.visI2c_only _ _ _)
    | with_reducible apply Dev.Only.step (Dev.updVp_only _ _ _)
    | with_reducible apply Dev.Only.step (Dev.raise_only _ _ _)
    | with_reducible apply Dev.Only.step (Dev.visCommitEnd_only _ _)
    | with_reducible apply Dev.Only.wr
    | (with_reducible apply Dev.Only.of_fst; assumption)
    | split
    | with_reducible apply State.Only.mkDev)

theorem Dev.visParts_only (x0 : Dev) (x1 : Nat) (x2 : Nat) :
    Dev.Only 0x4000000 0x1000000000000000000000000000000000000000000000000000000000000000000000000000 x0 (Dev.visParts x0 x1 x2) := by
  unfold Dev.visParts
  repeat' (first
    | with_reducible assumption
    | exact rfl
    | (extract_lets +onlyGivenNames x; first | (refine Dev.Only.have1 x (fun hx => ?_) ?_; clear_value x; rotate_left; subst x)  | (refine Dev.Only.have1 x.1 (fun hx => ?_) ?_; clear_value x; rotate_left; subst x) | (refine Dev.Only.have1 x.2 (fun hx => ?_) ?_; clear_value x; rotate_left; subst x) | (refine Dev.Only.fun1 x ?_; subst x; try dsimp -zeta only) | clear_value x)
    | with_reducible exact Dev.Only.refl _ _ _
    | with_reducible apply Dev.Only.step (Dev.updVp_only _ _ _)
    | with_reducible apply Dev.Only.step (Dev.visCommitEnd_only _ _)
    | (with_reducible apply Dev.Only.of_fst; assumption))

theorem Dev.visCal_only (x0 : Dev) (x1 : Nat) :
    Dev.Only 0x14084000100 0x180000000000000000000000000000000000000000000000000000000000000000000000000008040 x0 (Dev.visCal x0 x1) := by
  unfold Dev.visCal
  repeat' (first
    | with_reducible assumption
    | exact rfl
    | (extract_lets +onlyGivenNames x; (refine Dev.Only.have1 x (fun hx => ?_) ?_; clear_value x; rotate_left; subst x))
    | with_reducible exact Dev.Only.refl _ _ _
    | with_reducible apply Dev.Only.step (Dev.raise_only _ _ _)
    | with_reducible apply Dev.Only.step (Dev.updVp_only _ _ _)
    | with_reducible apply Dev.Only.wr
    | with_reducible apply Dev.Only.incWrap
    | split)

theorem execCalStart_only (x0 : Lvl) (x1 : Port) (x2 : State) :
    Out.Only 0x14084000100 0xfc00000001f8040 x2 (execCalStart x0 x1 x2) := by
  unfold execCalStart
  repeat' (first
    | with_reducible assumption
    | exact rfl
    | intro e
    | with_reducible exact Dev.Only.refl _ _ _
    | with_reducible exact State.Only.refl _ _ _
    | with_reducible apply Out.Only.act
    | with_reducible apply Dev.ownWrite_only
    | with_reducible apply Dev.Only.step (Dev.updVp_only _ _ _))

theorem Dev.visFfbase_only (x0 : Dev) (x1 : Nat) (x2 : Nat) :
    Dev.Only 0x4000000 0x20000000000000000000000000000000000000000000000000000000000000000000000000000000 x0 (Dev.visFfbase x0 x1 x2) := by
  unfold Dev.visFfbase
  repeat' (first
    | exact rfl
    | with_reducible exact Dev.Only.refl _ _ _
    | with_reducible apply Dev.Only.step (Dev.updVp_only _ _ _)
    | with_reducible apply Dev.Only.wr)

theorem execFfbaseWrite_only (x0 : Lvl) (x1 : Port) (x2 : U32) (x3 : State) :
    Out.Only 0x14084000100 0x20000000000000000000000000000000000000000000000000000000000000000fc00000001f8040 x3 (execFfbaseWrite x0 x1 x2 x3) := by
  unfold execFfbaseWrite
  repeat' (first
    | with_reducible assumption
    | exact rfl
    | intro e
    | with_reducible exact Dev.Only.refl _ _ _
    | with_reducible exact State.Only.refl _ _ _
    | with_reducible apply Out.Only.act
    | with_reducible apply Dev.ownWrite_only
    | with_reducible apply Dev.Only.step (Dev.visFfbase_only _ _ _))

theorem Dev.visSkip_only (x0 : Dev) (x1 : Nat) (x2 : Nat) :
    Dev.Only 0x14084000100 0x1000000000000000000000000000000000000000000000000000000000000000000000000000008040 x0 (Dev.visSkip x0 x1 x2) := by
  unfold Dev.visSkip
  repeat' (first
    | exact rfl
    | with_reducible exact Dev.Only.refl _ _ _
    | with_reducible apply Dev.Only.step (Dev.raise_only _ _ _)
    | with_reducible apply Dev.Only.step (Dev.visPop_only _ _)
    | with_reducible apply Dev.Only.wr)

theorem Dev.visRatio_only (x0 : Dev) (x1 : Nat) :
    Dev.Only 0x20000000000 0 x0 (Dev.visRatio x0 x1).2 := by
  unfold Dev.visRatio
  repeat' (first
    | exact rfl
    | with_reducible exact Dev.Only.refl _ _ _
    | with_reducible apply Dev.Only.step (Dev.free_only _ _)
    | split)

theorem Dev.visTrigger_only (x0 : Dev) (x1 : Nat) :
    Dev.Only 0x34084000100 0x20380007000000000000000000000000000000000000000000000000000000000000000000000008040 x0 (Dev.visTrigger x0 x1) := by
  unfold Dev.visTrigger
  repeat' (first
    | with_reducible assumption
    | exact rfl
    | (extract_lets +onlyGivenNames x; first | (refine Dev.Only.have1 x (fun hx => ?_) ?_; clear_value x; rotate_left; subst x) | clear_value x)
    | with_reducible exact Dev.Only.refl _ _ _
    | with_reducible apply Dev.Only.step (Dev.updVp_only _ _ _)
    | with_reducible apply Dev.Only.step (Dev.visCal_only _ _)
    | with_reducible apply Dev.Only.step (Dev.visParts_only _ _ _)
    | with_reducible apply Dev.Only.step (Dev.visPop_only _ _)
    | with_reducible apply Dev.Only.step (Dev.visRatio_only _ _)
    | with_reducible apply Dev.Only.wr)

theorem execCameraTrigger_only (x0 : Port) (x1 : State) :
    Out.Only 0x34084000100 0x21380007000000000000000000000000000000000000000000000000000000000000000000000008040 x1 (execCameraTrigger x0 x1) := by
  unfold execCameraTrigger
  repeat' (first
    | exact rfl
    | (extract_lets +onlyGivenNames x; clear_value x)
    | with_reducible exact Dev.Only.refl _ _ _
    | with_reducible exact State.Only.refl _ _ _
    | with_reducible apply Out.Only.act
    | with_reducible apply Dev.Only.step (Dev.visSkip_only _ _ _)
    | with_reducible apply Dev.Only.step (Dev.visTrigger_only _ _)
    | split)

theorem execTriggerPulseEnd_only (x0 : Port) (x1 : State) :
    Out.Only 0x4000000 0 x1 (execTriggerPulseEnd x0 x1) := by
  unfold execTriggerPulseEnd
  repeat' (first
    | exact rfl
    | with_reducible exact Dev.Only.refl _ _ _
    | with_reducible exact State.Only.refl _ _ _
    | with_reducible apply Out.Only.act
    | with_reducible apply Dev.Only.step (Dev.updVp_only _ _ _))

theorem execStrobeStart_only (x0 : Port) (x1 : State) :
    Out.Only 0x4000000 0 x1 (execStrobeStart x0 x1) := by
  unfold execStrobeStart
  repeat' (first
    | exact rfl
    | with_reducible exact Dev.Only.refl _ _ _
    | with_reducible exact State.Only.refl _ _ _
    | with_reducible apply Out.Only.act
    | with_reducible apply Dev.Only.step (Dev.updVp_only _ _ _))

theorem execStrobeEnd_only (x0 : Port) (x1 : State) :
    Out.Only 0x4000000 0 x1 (execStrobeEnd x0 x1) := by
  unfold execStrobeEnd
  repeat' (first
    | exact rfl
    | with_reducible exact Dev.Only.refl _ _ _
    | with_reducible exact State.Only.refl _ _ _
    | with_reducible apply Out.Only.act
    | with_reducible apply Dev.Only.step (Dev.updVp_only _ _ _))

theorem State.camPut_only (x0 : State) (x1 : Nat) (x2 : CamBuf) :
    State.Only 0x54084000100 0x8300000000000000000000208000000000000000000000000000000000000000000000000000000000000000000000000000000000000000000000000000000000000000081c0 x0 (State.camPut x0 x1 x2).2 := by
  unfold State.camPut
  repeat' (first
    | with_reducible assumption
    | exact rfl
    | (extract_lets +onlyGivenNames x; first | (refine State.Only.have1 x (fun hx => ?_) ?_; clear_value x; rotate_left; subst x) | (refine State.Only.have2 x (fun hx => ?_) ?_; clear_value x; rotate_left; subst x) | (refine State.Only.fun1 x ?_; subst x; try dsimp -zeta only) | (refine Dev.Only.have1 x (fun hx => ?_) ?_; clear_value x; rotate_left; subst x) | (refine Dev.Only.fun1 x ?_; subst x; try dsimp -zeta only) | clear_value x)
    | with_reducible exact Dev.Only.refl _ _ _
    | with_reducible exact State.Only.refl _ _ _
    | (with_reducible apply State.Only.dev; with_reducible assumption)
    | with_reducible apply State.Only.step (State.descFail_only _ _ _)
    | with_reducible apply State.Only.step (State.dramWrite_only _ _ _ _)
    | with_reducible apply State.Only.step (State.descDone_only _ _ _ _ _ _ _ _ _)
    | with_reducible apply Dev.Only.step (Dev.updVp_only _ _ _)
    | (with_reducible apply Dev.Only.of_fst; assumption)
    | split
    | with_reducible apply State.Only.mkDev)

theorem Dev.camNobuf_only (x0 : Dev) (x1 : Nat) (x2 : Nat) (x3 : Nat) :
    Dev.Only 0x14080000100 0x8000000000000000000000000000000000000000000000000000000000000000000000000000008040 x0 (Dev.camNobuf x0 x1 x2 x3) := by
  unfold Dev.camNobuf
  repeat' (first
    | exact rfl
    | with_reducible exact Dev.Only.refl _ _ _
    | with_reducible apply Dev.Only.step (Dev.raise_only _ _ _)
    | with_reducible apply Dev.Only.wr)

theorem State.updVp_only (x0 : State) (x1 : Nat) (x2 : Vis → Vis) :
    State.Only 0x4000000 0 x0 (State.updVp x0 x1 x2) := by
  unfold State.updVp
  repeat' (first
    | exact rfl
    | with_reducible exact Dev.Only.refl _ _ _
    | with_reducible exact State.Only.refl _ _ _
    | with_reducible apply Dev.Only.step (Dev.updVp_only _ _ _)
    | with_reducible apply State.Only.mkDev)

theorem State.camPutAll_only (x0 : State) (x1 : Nat) (x2 : List CamBuf) :
    State.Only 0x54084000100 0x8300000000000000000000208000000000000000000000000000000000080000000000000000000000000000000000000000000000000000000000000000000000000000081c0 x0 (State.camPutAll x0 x1 x2) := by
  induction x2 generalizing x0 x1 with
  | nil => exact State.Only.refl _ _ _
  | cons y t ih =>
    unfold State.camPutAll
    have h1 : State.Only 0x54084000100 0x8300000000000000000000208000000000000000000000000000000000080000000000000000000000000000000000000000000000000000000000000000000000000000081c0 x0 (x0.camPut x1 y).2 := State.Only.mono (State.camPut_only _ _ _) rfl rfl
    split
    · next s h => rw [h] at h1; exact State.Only.step (ih _ _) rfl rfl h1
    · next s h =>
      rw [h] at h1
      exact State.Only.mkDev (Dev.Only.step (Dev.updVp_only _ _ _) rfl rfl (Dev.Only.step (Dev.camNobuf_only _ _ _ _) rfl rfl h1.dev)) h1

theorem State.s0Write_only (x0 : State) (x1 : Nat) (x2 : Frame3) (x3 : Nat) (x4 : Bool) (x5 : Nat) (x6 : Cap) :
    State.Only 0x54084000100 0x8300000000000000000000208000000000000000000000000000000000080000000000000000000000000000000000000000000000000000000000000000000000000000081c0 x0 (State.s0Write x0 x1 x2 x3 x4 x5 x6).1 := by
  induction x5 generalizing x0 x1 x2 x3 x4 x6 with
  | zero => exact State.Only.refl _ _ _
  | succ n ih =>
    have hb : ∀ s : State, State.Only 0x54084000100 0x8300000000000000000000208000000000000000000000000000000000080000000000000000000000000000000000000000000000000000000000000000000000000000081c0 x0 s → State.Only 0x54084000100 0x8300000000000000000000208000000000000000000000000000000000080000000000000000000000000000000000000000000000000000000000000000000000000000081c0 x0 { s with dev := s.dev.camNobuf x1 0 x6.id } :=
      fun s hs => State.Only.mkDev (Dev.Only.step (Dev.camNobuf_only _ _ _ _) rfl rfl hs.dev) hs
    unfold State.s0Write
    split
    · exact State.Only.refl _ _ _
    · extract_lets row room m data
      split
      · exact hb _ (State.Only.refl _ _ _)
      · split
        · exact State.Only.refl _ _ _
        · have h1 : State.Only 0x54084000100 0x8300000000000000000000208000000000000000000000000000000000080000000000000000000000000000000000000000000000000000000000000000000000000000081c0 x0 (x0.camPut x1 (x6.buf 0 0 m x6.s0Next (x0.dev.rd .VIS_GEOM_WIDTH x1) data)).2 :=
            State.Only.mono (State.camPut_only _ _ _) rfl rfl
          split
          · next s h => rw [h] at h1; exact State.Only.step (ih _ _ _ _ _ _) rfl rfl h1
          · next s h => rw [h] at h1; exact hb _ h1

theorem State.s0Abort_only (x0 : State) (x1 : Nat) (x2 : Cap) :
    State.Only 0x54084000100 0x8300000000000000000000208000000000000000000000000000000000080000000000000000000000000000000000000000000000000000000000000000000000000000081c0 x0 (State.s0Abort x0 x1 x2) := by
  unfold State.s0Abort
  repeat' (first
    | exact rfl
    | (extract_lets +onlyGivenNames x; clear_value x)
    | with_reducible exact State.Only.refl _ _ _
    | with_reducible apply State.Only.step (State.camPutAll_only _ _ _)
    | split)

theorem Dev.visFill_only (x0 : Dev) (x1 : Nat) :
    Dev.Only 0x4000000 0 x0 (Dev.visFill x0 x1) := by
  unfold Dev.visFill
  repeat' (first
    | exact rfl
    | (extract_lets +onlyGivenNames x; clear_value x)
    | with_reducible exact Dev.Only.refl _ _ _
    | with_reducible apply Dev.Only.step (Dev.updVp_only _ _ _))

theorem Dev.setCap_only (x0 : Dev) (x1 : Nat) (x2 : Option Cap) :
    Dev.Only 0x4000000 0 x0 (Dev.setCap x0 x1 x2) := by
  unfold Dev.setCap
  repeat' (first
    | exact rfl
    | with_reducible exact Dev.Only.refl _ _ _
    | with_reducible apply Dev.Only.step (Dev.updVp_only _ _ _))

theorem State.visDrop_only (x0 : State) (x1 : Nat) (x2 : Cap) :
    State.Only 0x54084000100 0x8300000000000000000000208000000000000000000000000000000000484000000000000000000000000000000000000000000000000000000000000000000000000000081c0 x0 (State.visDrop x0 x1 x2) := by
  unfold State.visDrop
  repeat' (first
    | with_reducible assumption
    | exact rfl
    | (extract_lets +onlyGivenNames x; first | (refine State.Only.have1 x (fun hx => ?_) ?_; clear_value x; rotate_left; subst x) | (refine State.Only.have2 x (fun hx => ?_) ?_; clear_value x; rotate_left; subst x))
    | with_reducible exact State.Only.refl _ _ _
    | with_reducible apply Dev.Only.step (Dev.raise_only _ _ _)
    | with_reducible apply Dev.Only.step (Dev.setCap_only _ _ _)
    | with_reducible apply State.Only.step (State.s0Abort_only _ _ _)
    | with_reducible apply Dev.Only.wr
    | with_reducible apply Dev.Only.inc
    | (with_reducible apply State.Only.dev; with_reducible assumption)
    | with_reducible apply State.Only.mkDev)

theorem State.visS0_only (x0 : State) (x1 : Nat) (x2 : Cap) :
    State.Only 0x54084000100 0x8300000000000000000000208000000000000000000000000000000000080000000000000000000000000000000000000000000000000000000000000000000000000000081c0 x0 (State.visS0 x0 x1 x2) := by
  unfold State.visS0
  repeat' (first
    | with_reducible assumption
    | exact rfl
    | (extract_lets +onlyGivenNames x; first | (refine State.Only.have1 x (fun hx => ?_) ?_; clear_value x; rotate_left; subst x) | (refine State.Only.have2 x (fun hx => ?_) ?_; clear_value x; rotate_left; subst x) | (refine State.Only.fun1 x ?_; subst x; try dsimp -zeta only) | (refine Dev.Only.have1 x (fun hx => ?_) ?_; clear_value x; rotate_left; subst x) | (refine Dev.Only.fun1 x ?_; subst x; try dsimp -zeta only) | clear_value x)
    | with_reducible exact Dev.Only.refl _ _ _
    | with_reducible exact State.Only.refl _ _ _
    | (with_reducible apply State.Only.dev; with_reducible assumption)
    | with_reducible apply Dev.Only.step (Dev.setCap_only _ _ _)
    | with_reducible apply State.Only.step (State.s0Write_only _ _ _ _ _ _ _)
    | (with_reducible apply Dev.Only.of_fst; assumption)
    | (with_reducible apply Dev.Only.of_snd; assumption)
    | (with_reducible apply Dev.Only.of_snd2; assumption)
    | (with_reducible apply State.Only.of_fst; assumption)
    | (with_reducible apply State.Only.of_snd; assumption)
    | (with_reducible apply State.Only.dev; with_reducible apply State.Only.of_fst; assumption)
    | (with_reducible apply State.Only.dev; with_reducible apply State.Only.of_snd; assumption)
    | split
    | with_reducible apply State.Only.mkDev)

theorem State.visPacket_only (x0 : State) (x1 : Nat) (x2 : CsiPkt) (x3 : Cap) :
    State.Only 0x54084000100 0x8300000000000000000000208000000000000000000000000000000000486000000000000000000000000000000000000000000000000000000000000000000000000000081c0 x0 (State.visPacket x0 x1 x2 x3) := by
  unfold State.visPacket
  repeat' (first
    | with_reducible assumption
    | exact rfl
    | (extract_lets +onlyGivenNames x; first | (refine State.Only.have1 x (fun hx => ?_) ?_; clear_value x; rotate_left; subst x) | (refine State.Only.have2 x (fun hx => ?_) ?_; clear_value x; rotate_left; subst x) | (refine State.Only.fun1 x ?_; subst x; try dsimp -zeta only) | (refine Dev.Only.have1 x (fun hx => ?_) ?_; clear_value x; rotate_left; subst x) | (refine Dev.Only.fun1 x ?_; subst x; try dsimp -zeta only) | clear_value x)
    | with_reducible exact Dev.Only.refl _ _ _
    | with_reducible exact State.Only.refl _ _ _
    | (with_reducible apply State.Only.dev; with_reducible assumption)
    | with_reducible apply Dev.Only.step (Dev.setCap_only _ _ _)
    | with_reducible apply State.Only.step (State.visDrop_only _ _ _)
    | with_reducible apply Dev.Only.step (Dev.visFill_only _ _)
    | with_reducible apply State.Only.step (State.visS0_only _ _ _)
    | with_reducible apply Dev.Only.wr
    | split
    | with_reducible apply State.Only.mkDev)

theorem execCsiPacket_only (x0 : Port) (x1 : CsiPkt) (x2 : State) :
    Out.Only 0x54084000100 0x8300000000000000000000208000000000000000000000000000000000486000000000000000000000000000000000000000000000000000000000000000000000000000081c0 x2 (execCsiPacket x0 x1 x2) := by
  unfold execCsiPacket
  repeat' (first
    | with_reducible assumption
    | exact rfl
    | with_reducible exact Dev.Only.refl _ _ _
    | with_reducible exact State.Only.refl _ _ _
    | (with_reducible apply State.Only.dev; with_reducible assumption)
    | with_reducible apply Out.Only.next
    | with_reducible apply State.Only.step (State.visPacket_only _ _ _ _)
    | (with_reducible apply Dev.Only.of_fst; assumption)
    | split
    | with_reducible apply State.Only.mkDev)

theorem Dev.visNext_only (x0 : Dev) (x1 : Nat) :
    Dev.Only 0x4000000 0x200000000000000000000000000000000000000000000000000000000000000000000000000000000 x0 (Dev.visNext x0 x1) := by
  unfold Dev.visNext
  repeat' (first
    | with_reducible assumption
    | exact rfl
    | (extract_lets +onlyGivenNames x; first | (refine Dev.Only.have1 x (fun hx => ?_) ?_; clear_value x; rotate_left; subst x) | clear_value x)
    | with_reducible exact Dev.Only.refl _ _ _
    | with_reducible apply Dev.Only.step (Dev.updVp_only _ _ _)
    | with_reducible apply Dev.Only.step (Dev.visBlank_only _ _)
    | with_reducible apply Dev.Only.wr)

theorem State.s3Buf_only (x0 : State) (x1 : Nat) (x2 : Frame3) (x3 : Cap) :
    State.Only 0x20000000000 0 x0 (State.s3Buf x0 x1 x2 x3).2 := by
  unfold State.s3Buf
  repeat' (first
    | exact rfl
    | (extract_lets +onlyGivenNames x; clear_value x)
    | with_reducible exact Dev.Only.refl _ _ _
    | with_reducible exact State.Only.refl _ _ _
    | with_reducible apply Dev.Only.step (Dev.free_only _ _)
    | split
    | (with_reducible apply Dev.Only.of_snd; assumption)
    | with_reducible apply State.Only.mkDev)

theorem Dev.visFlags_only (x0 : Dev) (x1 : Nat) (x2 : Cap) :
    Dev.Only 0x14080000100 0x12000000000000000000000000000000000000000000000000000000000000000000000000000008040 x0 (Dev.visFlags x0 x1 x2) := by
  unfold Dev.visFlags
  repeat' (first
    | with_reducible assumption
    | exact rfl
    | (extract_lets +onlyGivenNames x; (refine Dev.Only.have1 x (fun hx => ?_) ?_; clear_value x; rotate_left; subst x))
    | with_reducible exact Dev.Only.refl _ _ _
    | with_reducible apply Dev.Only.step (Dev.raise_only _ _ _)
    | with_reducible apply Dev.Only.wr
    | split)

theorem State.visOutputs_only (x0 : State) (x1 : Nat) (x2 : Cap) :
    State.Only 0x74084000100 0x8300000000000000000000208000000000000000000000000000000000080000000000000000000000000000000000000000000000000000000000000000000000000000081c0 x0 (State.visOutputs x0 x1 x2) := by
  unfold State.visOutputs
  repeat' (first
    | with_reducible assumption
    | exact rfl
    | (extract_lets +onlyGivenNames x; first | (refine State.Only.have1 x (fun hx => ?_) ?_; clear_value x; rotate_left; subst x) | (refine State.Only.have2 x (fun hx => ?_) ?_; clear_value x; rotate_left; subst x) | (refine State.Only.fun1 x ?_; subst x; try dsimp -zeta only) | (refine Dev.Only.have1 x (fun hx => ?_) ?_; clear_value x; rotate_left; subst x) | (refine Dev.Only.fun1 x ?_; subst x; try dsimp -zeta only) | clear_value x)
    | with_reducible exact Dev.Only.refl _ _ _
    | with_reducible exact State.Only.refl _ _ _
    | (with_reducible apply State.Only.dev; with_reducible assumption)
    | with_reducible apply State.Only.step (State.s0Write_only _ _ _ _ _ _ _)
    | with_reducible apply State.Only.step (State.updVp_only _ _ _)
    | with_reducible apply State.Only.step (State.camPutAll_only _ _ _)
    | with_reducible apply State.Only.step (State.s3Buf_only _ _ _ _)
    | (with_reducible apply Dev.Only.of_fst; assumption)
    | (with_reducible apply Dev.Only.of_snd; assumption)
    | (with_reducible apply Dev.Only.of_snd2; assumption)
    | (with_reducible apply State.Only.of_fst; assumption)
    | (with_reducible apply State.Only.of_snd; assumption)
    | (with_reducible apply State.Only.dev; with_reducible apply State.Only.of_fst; assumption)
    | (with_reducible apply State.Only.dev; with_reducible apply State.Only.of_snd; assumption)
    | split
    | with_reducible apply State.Only.mkDev)

theorem State.visEnd_only (x0 : State) (x1 : Nat) (x2 : Cap) :
    State.Only 0x74084000100 0x83000000000000000000002080000000000000000000000000000000001a0000000000000000000000000000000000000000000000000000000000000000000000000000081c0 x0 (State.visEnd x0 x1 x2) := by
  unfold State.visEnd
  repeat' (first
    | with_reducible assumption
    | exact rfl
    | (extract_lets +onlyGivenNames x; first | (refine State.Only.have1 x (fun hx => ?_) ?_; clear_value x; rotate_left; subst x) | clear_value x)
    | with_reducible exact Dev.Only.refl _ _ _
    | with_reducible exact State.Only.refl _ _ _
    | with_reducible apply Dev.Only.step (Dev.visFlags_only _ _ _)
    | with_reducible apply State.Only.step (State.updVp_only _ _ _)
    | with_reducible apply State.Only.step (State.visOutputs_only _ _ _)
    | with_reducible apply State.Only.mkDev)

theorem execFrameEnd_only (x0 : Port) (x1 : State) :
    Out.Only 0x74084000100 0x83000000000000000000002080000000000000000000000000000000001a2000000000000000000000000000000000000000000000000000000000000000000000000000081c0 x1 (execFrameEnd x0 x1) := by
  unfold execFrameEnd
  repeat' (first
    | with_reducible assumption
    | exact rfl
    | (extract_lets +onlyGivenNames x; (refine Out.Only.have1 x (fun hx => ?_) ?_; clear_value x; rotate_left; subst x))
    | with_reducible exact State.Only.refl _ _ _
    | with_reducible apply Out.Only.next
    | with_reducible apply Dev.Only.step (Dev.visNext_only _ _)
    | with_reducible apply State.Only.step (State.updVp_only _ _ _)
    | with_reducible apply State.Only.step (State.visEnd_only _ _ _)
    | split
    | (with_reducible apply State.Only.dev; with_reducible assumption)
    | with_reducible apply State.Only.mkDev)

theorem State.visTimeout_only (x0 : State) (x1 : Nat) (x2 : Cap) :
    State.Only 0x54084000100 0x830000000000000000000020800000000000000000000000000000000088a000000000000000000000000000000000000000000000000000000000000000000000000000081c0 x0 (State.visTimeout x0 x1 x2) := by
  unfold State.visTimeout
  repeat' (first
    | with_reducible assumption
    | exact rfl
    | (extract_lets +onlyGivenNames x; first | (refine State.Only.have1 x (fun hx => ?_) ?_; clear_value x; rotate_left; subst x) | (refine State.Only.have2 x (fun hx => ?_) ?_; clear_value x; rotate_left; subst x) | clear_value x)
    | with_reducible exact State.Only.refl _ _ _
    | with_reducible apply Dev.Only.step (Dev.raise_only _ _ _)
    | with_reducible apply Dev.Only.step (Dev.updVp_only _ _ _)
    | with_reducible apply State.Only.step (State.s0Abort_only _ _ _)
    | with_reducible apply Dev.Only.wr
    | with_reducible apply Dev.Only.inc
    | split
    | (with_reducible apply State.Only.dev; with_reducible assumption)
    | with_reducible apply State.Only.mkDev)

theorem execFrameWatchdogTimeout_only (x0 : Port) (x1 : State) :
    Out.Only 0x54084000100 0x830000000000000000000020800000000000000000000000000000000088a000000000000000000000000000000000000000000000000000000000000000000000000000081c0 x1 (execFrameWatchdogTimeout x0 x1) := by
  unfold execFrameWatchdogTimeout
  repeat' (first
    | with_reducible assumption
    | exact rfl
    | (extract_lets +onlyGivenNames x; first | (refine Out.Only.have1 x (fun hx => ?_) ?_; clear_value x; rotate_left; subst x) | (refine Out.Only.have2 x (fun hx => ?_) ?_; clear_value x; rotate_left; subst x)  | (refine State.Only.have1 x (fun hx => ?_) ?_; clear_value x; rotate_left; subst x) | (refine State.Only.have2 x (fun hx => ?_) ?_; clear_value x; rotate_left; subst x) | (refine Dev.Only.have1 x (fun hx => ?_) ?_; clear_value x; rotate_left; subst x) | clear_value x)
    | with_reducible exact Dev.Only.refl _ _ _
    | with_reducible exact State.Only.refl _ _ _
    | (with_reducible apply State.Only.dev; with_reducible assumption)
    | with_reducible apply Out.Only.next
    | with_reducible apply Dev.Only.step (Dev.visNext_only _ _)
    | with_reducible apply State.Only.step (State.visTimeout_only _ _ _)
    | (with_reducible apply Dev.Only.of_fst; assumption)
    | split
    | with_reducible apply State.Only.mkDev)

theorem execCamResetDone_only (x0 : Port) (x1 : State) :
    Out.Only 0x4000000 0x200000000000000000000000000000000000000000000000000000000000000000000000000000000 x1 (execCamResetDone x0 x1) := by
  unfold execCamResetDone
  repeat' (first
    | exact rfl
    | with_reducible exact Dev.Only.refl _ _ _
    | with_reducible exact State.Only.refl _ _ _
    | with_reducible apply Out.Only.act
    | with_reducible apply Dev.Only.step (Dev.visNext_only _ _)
    | split)

theorem Dev.visEnable_only (x0 : Dev) (x1 : Nat) :
    Dev.Only 0x4000000 0x200000000000000000000000000000000000000000000000000000000000000000000000000000000 x0 (Dev.visEnable x0 x1) := by
  unfold Dev.visEnable
  repeat' (first
    | exact rfl
    | with_reducible exact Dev.Only.refl _ _ _
    | with_reducible apply Dev.Only.step (Dev.updVp_only _ _ _)
    | with_reducible apply Dev.Only.step (Dev.visBlank_only _ _)
    | with_reducible apply Dev.Only.wr
    | split)

/-! ### Firing -/

theorem Dev.countEnergy_only (x0 : Dev) (x1 : Nat) (x2 : Nat) (x3 : Nat) (x4 : List Nat) :
    Dev.Only 0x100000000 0 x0 (Dev.countEnergy x0 x1 x2 x3 x4) := by
  unfold Dev.countEnergy
  repeat' (first
    | exact rfl
    | (extract_lets +onlyGivenNames x; clear_value x)
    | with_reducible exact Dev.Only.refl _ _ _
    | split
    | with_reducible apply Dev.Only.with_aba)

theorem Dev.spoilUnconfirmed_only (x0 : Dev) (x1 : Nat) :
    Dev.Only 0x1408b002700 0x201f140000000000000000000000000000000000000000000000000000000000008040 x0 (Dev.spoilUnconfirmed x0 x1) := by
  unfold Dev.spoilUnconfirmed
  repeat' (first
    | with_reducible assumption
    | exact rfl
    | intro e
    | (extract_lets +onlyGivenNames x; first | (refine Dev.Only.have1 x (fun hx => ?_) ?_; clear_value x; rotate_left; subst x) | clear_value x)
    | with_reducible exact Dev.Only.refl _ _ _
    | with_reducible apply Dev.Only.step (Dev.maybeDone_only _ _)
    | with_reducible apply Dev.Only.step (Dev.spoilHeadLine_only _ _ _ _ _ _)
    | with_reducible apply Dev.Only.forEach
    | with_reducible apply Dev.Only.with_integ)

theorem Dev.laneLoss_only (x0 : Dev) (x1 : Nat) (x2 : Nat) :
    Dev.Only 0x1408b802700 0x201f140000000000000000000000000000000000000000000000000000000000008040 x0 (Dev.laneLoss x0 x1 x2) := by
  unfold Dev.laneLoss
  repeat' (first
    | with_reducible assumption
    | exact rfl
    | (extract_lets +onlyGivenNames x; (refine Dev.Only.have1 x (fun hx => ?_) ?_; clear_value x; rotate_left; subst x))
    | with_reducible exact Dev.Only.refl _ _ _
    | with_reducible apply Dev.Only.step (Dev.raise_only _ _ _)
    | with_reducible apply Dev.Only.step (Dev.spoilUnconfirmed_only _ _)
    | with_reducible apply Dev.Only.step (Dev.updLane_only _ _ _)
    | split)

theorem Dev.lateLane_only (x0 : Dev) (x1 : Nat) :
    Dev.Only 0x1408b802700 0x201f140000000000000000000000000000000000000000000000000000000000008040 x0 (Dev.lateLane x0 x1) := by
  unfold Dev.lateLane
  repeat' (first
    | with_reducible assumption
    | exact rfl
    | with_reducible exact Dev.Only.refl _ _ _
    | with_reducible apply Dev.Only.step (Dev.laneLoss_only _ _ _)
    | split)

theorem Dev.resumeHeads_only (x0 : Dev) (x1 : Nat) :
    Dev.Only 0x800000 0x1000000000000000000000000000000000000000000000000000000000000000000000000000000000000000000000000000 x0 (Dev.resumeHeads x0 x1) := by
  unfold Dev.resumeHeads
  repeat' (first
    | with_reducible assumption
    | exact rfl
    | intro e
    | with_reducible exact Dev.Only.refl _ _ _
    | with_reducible apply Dev.Only.step (Dev.updLane_only _ _ _)
    | with_reducible apply Dev.Only.wr
    | with_reducible apply Dev.Only.forEach
    | split)

theorem Dev.spoilDark_only (x0 : Dev) (x1 : Nat) (x2 : Nat) (x3 : Nat) :
    Dev.Only 0x1408b000100 0x201f140000000000000000000000000000000000000000000000000000000000008040 x0 (Dev.spoilDark x0 x1 x2 x3) := by
  unfold Dev.spoilDark
  repeat' (first
    | with_reducible assumption
    | exact rfl
    | intro e
    | with_reducible exact Dev.Only.refl _ _ _
    | with_reducible apply Dev.Only.step (Dev.spoilHeadLine_only _ _ _ _ _ _)
    | with_reducible apply Dev.Only.forEach
    | split)

theorem Dev.setWindow_only (x0 : Dev) (x1 : BrimPlan) (x2 : Nat) (x3 : Nat) :
    Dev.Only 0 0x1c000000000000000000000000000000000000000000000000000000000000000000000000000000 x0 (Dev.setWindow x0 x1 x2 x3) := by
  unfold Dev.setWindow
  repeat' (first
    | with_reducible assumption
    | exact rfl
    | intro e
    | (extract_lets +onlyGivenNames x; first | (refine Dev.Only.have1 x (fun hx => ?_) ?_; clear_value x; rotate_left; subst x)  | (refine Dev.Only.have1 x.1 (fun hx => ?_) ?_; clear_value x; rotate_left; subst x) | (refine Dev.Only.have1 x.2 (fun hx => ?_) ?_; clear_value x; rotate_left; subst x) | (refine Dev.Only.fun1 x ?_; subst x; try dsimp -zeta only) | clear_value x)
    | with_reducible exact Dev.Only.refl _ _ _
    | with_reducible apply Dev.Only.foldl
    | with_reducible apply Dev.Only.foldl_fst
    | with_reducible apply Dev.Only.foldl_snd
    | with_reducible apply Dev.Only.wr
    | (with_reducible apply Dev.Only.of_fst; assumption)
    | split)

theorem Dev.aimPort_only (x0 : Dev) (x1 : BrimPlan) (x2 : Pl) (x3 : Nat) (x4 : Nat) :
    Dev.Only 0x4000000 0x101c000000000000000000000000000000000000000000000000000000000000000000000000000000 x0 (Dev.aimPort x0 x1 x2 x3 x4) := by
  unfold Dev.aimPort
  repeat' (first
    | with_reducible assumption
    | exact rfl
    | intro e
    | (extract_lets +onlyGivenNames x; first | (refine Dev.Only.have1 x (fun hx => ?_) ?_; clear_value x; rotate_left; subst x)  | (refine Dev.Only.have1 x.1 (fun hx => ?_) ?_; clear_value x; rotate_left; subst x) | (refine Dev.Only.have1 x.2 (fun hx => ?_) ?_; clear_value x; rotate_left; subst x) | (refine Dev.Only.fun1 x ?_; subst x; try dsimp -zeta only) | clear_value x)
    | with_reducible exact Dev.Only.refl _ _ _
    | with_reducible apply Dev.Only.step (Dev.setWindow_only _ _ _ _)
    | with_reducible apply Dev.Only.step (Dev.visEnqueue_only _ _ _)
    | with_reducible apply Dev.Only.step (Dev.updVp_only _ _ _)
    | with_reducible apply Dev.Only.forEach
    | split)

theorem Dev.aimGap_only (x0 : Dev) (x1 : Pl) (x2 : JobRec) (x3 : Nat) :
    Dev.Only 0x4000000 0x101c000000000000000000000000000000000000000000000000000000000000000000000000000000 x0 (Dev.aimGap x0 x1 x2 x3) := by
  unfold Dev.aimGap
  repeat' (first
    | with_reducible assumption
    | exact rfl
    | intro e
    | with_reducible exact Dev.Only.refl _ _ _
    | with_reducible apply Dev.Only.step (Dev.aimPort_only _ _ _ _ _)
    | with_reducible apply Dev.Only.forEach
    | (with_reducible apply Dev.Only.of_fst; assumption)
    | split)

theorem Dev.startProduct_only (x0 : Dev) (x1 : Pl) (x2 : JobRec) (x3 : Nat) :
    Dev.Only 0x1408f000300 0x101c00000000201f140000000000000000000000000000000000000000000000000000000000008040 x0 (Dev.startProduct x0 x1 x2 x3) := by
  unfold Dev.startProduct
  repeat' (first
    | with_reducible assumption
    | exact rfl
    | (extract_lets +onlyGivenNames x; first | (refine Dev.Only.have1 x (fun hx => ?_) ?_; clear_value x; rotate_left; subst x)  | (refine Dev.Only.have1 x.1 (fun hx => ?_) ?_; clear_value x; rotate_left; subst x) | (refine Dev.Only.have1 x.2 (fun hx => ?_) ?_; clear_value x; rotate_left; subst x) | (refine Dev.Only.fun1 x ?_; subst x; try dsimp -zeta only) | clear_value x)
    | with_reducible exact Dev.Only.refl _ _ _
    | with_reducible apply Dev.Only.step (Dev.allocProd_only _ _ _ _ _ _ _)
    | with_reducible apply Dev.Only.step (Dev.setJobSt_only _ _ _)
    | with_reducible apply Dev.Only.step (Dev.aimGap_only _ _ _ _)
    | split)

theorem Dev.tallyRoom_only (x0 : Dev) (x1 : Nat) (x2 : Nat) :
    Dev.Only 0x1408b000100 0x201f140000000000000000000000000000000000000000000000000000000000008040 x0 (Dev.tallyRoom x0 x1 x2) := by
  unfold Dev.tallyRoom
  repeat' (first
    | with_reducible assumption
    | exact rfl
    | (extract_lets +onlyGivenNames x; first | (refine Dev.Only.have1 x (fun hx => ?_) ?_; clear_value x; rotate_left; subst x)  | (refine Dev.Only.have1 x.1 (fun hx => ?_) ?_; clear_value x; rotate_left; subst x) | (refine Dev.Only.have1 x.2 (fun hx => ?_) ?_; clear_value x; rotate_left; subst x) | (refine Dev.Only.fun1 x ?_; subst x; try dsimp -zeta only) | clear_value x)
    | with_reducible exact Dev.Only.refl _ _ _
    | with_reducible apply Dev.Only.step (Dev.spoilHeadLine_only _ _ _ _ _ _)
    | (with_reducible apply Dev.Only.of_fst; assumption)
    | split
    | with_reducible apply Dev.Only.with_integ)

theorem Dev.tallyEntry_only (x0 : Dev) (x1 : LineId) (x2 : SentHead) :
    Dev.Only 0x1408b000100 0x201f140000000000000000000000000000000000000000000000000000000000008040 x0 (Dev.tallyEntry x0 x1 x2) := by
  unfold Dev.tallyEntry
  repeat' (first
    | with_reducible assumption
    | exact rfl
    | (extract_lets +onlyGivenNames x; first | (refine Dev.Only.have1 x (fun hx => ?_) ?_; clear_value x; rotate_left; subst x)  | (refine Dev.Only.have1 x.1 (fun hx => ?_) ?_; clear_value x; rotate_left; subst x) | (refine Dev.Only.have1 x.2 (fun hx => ?_) ?_; clear_value x; rotate_left; subst x) | (refine Dev.Only.fun1 x ?_; subst x; try dsimp -zeta only) | clear_value x)
    | with_reducible exact Dev.Only.refl _ _ _
    | with_reducible apply Dev.Only.step (Dev.tallyRoom_only _ _ _)
    | (with_reducible apply Dev.Only.of_fst; assumption)
    | split
    | with_reducible apply Dev.Only.with_integ)

theorem Dev.fireLine_only (x0 : Dev) (x1 : LineId) (x2 : List SentHead) :
    Dev.Only 0x1418bc00100 0x201f140000000000000000000000000000000000000000000000000000000000008040 x0 (Dev.fireLine x0 x1 x2) := by
  unfold Dev.fireLine
  repeat' (first
    | with_reducible assumption
    | exact rfl
    | intro e
    | (extract_lets +onlyGivenNames x; first | (refine Dev.Only.have1 x (fun hx => ?_) ?_; clear_value x; rotate_left; subst x)  | (refine Dev.Only.have1 x.1 (fun hx => ?_) ?_; clear_value x; rotate_left; subst x) | (refine Dev.Only.have1 x.2 (fun hx => ?_) ?_; clear_value x; rotate_left; subst x) | (refine Dev.Only.fun1 x ?_; subst x; try dsimp -zeta only) | clear_value x)
    | with_reducible exact Dev.Only.refl _ _ _
    | with_reducible apply Dev.Only.step (Dev.tallyEntry_only _ _ _)
    | with_reducible apply Dev.Only.step (Dev.sendFire_only _ _ _ _ _ _)
    | with_reducible apply Dev.Only.step (Dev.countEnergy_only _ _ _ _ _)
    | with_reducible apply Dev.Only.forEach
    | (with_reducible apply Dev.Only.of_fst; assumption)
    | split
    | with_reducible apply Dev.Only.with_fire)

theorem Dev.underrun_only (x0 : Dev) (x1 : Nat) (x2 : Nat) (x3 : Nat) :
    Dev.Only 0x14080000180 0x40000000000000000000000000000000000000000000000000000000000000000000000000000000000000000000000000000000008050 x0 (Dev.underrun x0 x1 x2 x3) := by
  unfold Dev.underrun
  repeat' (first
    | with_reducible assumption
    | exact rfl
    | (extract_lets +onlyGivenNames x; (refine Dev.Only.have1 x (fun hx => ?_) ?_; clear_value x; rotate_left; subst x))
    | with_reducible exact Dev.Only.refl _ _ _
    | with_reducible apply Dev.Only.step (Dev.holdCause_only _ _)
    | with_reducible apply Dev.Only.step (Dev.raise_only _ _ _)
    | with_reducible apply Dev.Only.wr
    | split)

theorem Dev.spoilUnready_only (x0 : Dev) (x1 : LineId) (x2 : List NotReady) :
    Dev.Only 0x1408b802780 0x4000000000000000000000000000000000000000201f140000000000000000000000000000000000000000000000000000000000008050 x0 (Dev.spoilUnready x0 x1 x2) := by
  unfold Dev.spoilUnready
  repeat' (first
    | with_reducible assumption
    | exact rfl
    | intro e
    | (extract_lets +onlyGivenNames x; first | (refine Dev.Only.have1 x (fun hx => ?_) ?_; clear_value x; rotate_left; subst x)  | (refine Dev.Only.have1 x.1 (fun hx => ?_) ?_; clear_value x; rotate_left; subst x) | (refine Dev.Only.have1 x.2 (fun hx => ?_) ?_; clear_value x; rotate_left; subst x) | (refine Dev.Only.fun1 x ?_; subst x; try dsimp -zeta only) | clear_value x)
    | with_reducible exact Dev.Only.refl _ _ _
    | with_reducible apply Dev.Only.step (Dev.spoilBarLine_only _ _ _ _ _)
    | with_reducible apply Dev.Only.step (Dev.lateLane_only _ _)
    | with_reducible apply Dev.Only.step (Dev.underrun_only _ _ _ _)
    | with_reducible apply Dev.Only.forEach
    | (with_reducible apply Dev.Only.of_fst; assumption)
    | split)

theorem Dev.pastLine_only (x0 : Dev) (x1 : LineId) (x2 : Bool) :
    Dev.Only 0x8c00000 0xc018000000000000000000000000000000000000000000000000 x0 (Dev.pastLine x0 x1 x2) := by
  unfold Dev.pastLine
  repeat' (first
    | with_reducible assumption
    | exact rfl
    | intro e
    | (extract_lets +onlyGivenNames x; first | (refine Dev.Only.have1 x (fun hx => ?_) ?_; clear_value x; rotate_left; subst x)  | (refine Dev.Only.have1 x.1 (fun hx => ?_) ?_; clear_value x; rotate_left; subst x) | (refine Dev.Only.have1 x.2 (fun hx => ?_) ?_; clear_value x; rotate_left; subst x) | (refine Dev.Only.fun1 x ?_; subst x; try dsimp -zeta only) | clear_value x)
    | with_reducible exact Dev.Only.refl _ _ _
    | with_reducible apply Dev.Only.step (Dev.updLane_only _ _ _)
    | with_reducible apply Dev.Only.step (Dev.moveDue_only _ _ _)
    | with_reducible apply Dev.Only.forEach
    | split
    | with_reducible apply Dev.Only.with_fire)

theorem Dev.noteFirst_only (x0 : Dev) (x1 : Pl) (x2 : LineId) :
    Dev.Only 0x400000 0 x0 (Dev.noteFirst x0 x1 x2) := by
  unfold Dev.noteFirst
  repeat' (first
    | with_reducible assumption
    | exact rfl
    | (extract_lets +onlyGivenNames x; first | (refine Dev.Only.have1 x (fun hx => ?_) ?_; clear_value x; rotate_left; subst x)  | (refine Dev.Only.have1 x.1 (fun hx => ?_) ?_; clear_value x; rotate_left; subst x) | (refine Dev.Only.have1 x.2 (fun hx => ?_) ?_; clear_value x; rotate_left; subst x) | (refine Dev.Only.fun1 x ?_; subst x; try dsimp -zeta only) | clear_value x)
    | with_reducible exact Dev.Only.refl _ _ _
    | split
    | with_reducible apply Dev.Only.with_fire)

theorem Dev.sendLine_only (x0 : Dev) (x1 : LineId) (x2 : Bool) (x3 : List SentHead) :
    Dev.Only 0x1418bc02780 0x4000000000000000000000000000000000000000201f14000000000000c418000000000001000018000000000000000000000000008050 x0 (Dev.sendLine x0 x1 x2 x3) := by
  unfold Dev.sendLine
  repeat' (first
    | with_reducible assumption
    | exact rfl
    | (extract_lets +onlyGivenNames x; first | (refine Dev.Only.have1 x (fun hx => ?_) ?_; clear_value x; rotate_left; subst x)  | (refine Dev.Only.have1 x.1 (fun hx => ?_) ?_; clear_value x; rotate_left; subst x) | (refine Dev.Only.have1 x.2 (fun hx => ?_) ?_; clear_value x; rotate_left; subst x) | (refine Dev.Only.fun1 x ?_; subst x; try dsimp -zeta only) | clear_value x)
    | with_reducible exact Dev.Only.refl _ _ _
    | with_reducible apply Dev.Only.step (Dev.spoilDark_only _ _ _ _)
    | with_reducible apply Dev.Only.step (Dev.fireLine_only _ _ _)
    | with_reducible apply Dev.Only.step (Dev.spoilUnready_only _ _ _)
    | with_reducible apply Dev.Only.step (Dev.freeEntries_only _)
    | with_reducible apply Dev.Only.step (Dev.pastLine_only _ _ _)
    | with_reducible apply Dev.Only.step (Dev.refreshLead_only _)
    | split)

theorem Dev.sendPoint_only (x0 : Dev) (x1 : Nat) :
    Dev.Only 0x1418fc02780 0x4000000000100000000000000000101c00000000201f14000000000000c4180000c8000001000018000000000000000000000000008050 x0 (Dev.sendPoint x0 x1) := by
  unfold Dev.sendPoint
  repeat' (first
    | with_reducible assumption
    | exact rfl
    | (extract_lets +onlyGivenNames x; first | (refine Dev.Only.have1 x (fun hx => ?_) ?_; clear_value x; rotate_left; subst x)  | (refine Dev.Only.have1 x.1 (fun hx => ?_) ?_; clear_value x; rotate_left; subst x) | (refine Dev.Only.have1 x.2 (fun hx => ?_) ?_; clear_value x; rotate_left; subst x) | (refine Dev.Only.fun1 x ?_; subst x; try dsimp -zeta only) | clear_value x)
    | with_reducible exact Dev.Only.refl _ _ _
    | with_reducible apply Dev.Only.step (Dev.refreshSpeed_only _)
    | with_reducible apply Dev.Only.step (Dev.resumeHeads_only _ _)
    | with_reducible apply Dev.Only.step (Dev.startProduct_only _ _ _ _)
    | with_reducible apply Dev.Only.step (Dev.sendLine_only _ _ _ _)
    | with_reducible apply Dev.Only.step (Dev.noteFirst_only _ _ _)
    | (with_reducible apply Dev.Only.of_fst; assumption)
    | split)

theorem execSendPoint_only (x0 : Pipe) (x1 : State) :
    Out.Only 0x1418fc02780 0x4000000000100000000000000000101c00000000201f14000000000000c4180000c8000001000018000000000000000000000000008050 x1 (execSendPoint x0 x1) := by
  unfold execSendPoint
  repeat' (first
    | exact rfl
    | with_reducible exact Dev.Only.refl _ _ _
    | with_reducible exact State.Only.refl _ _ _
    | with_reducible apply Out.Only.act
    | with_reducible apply Dev.Only.step (Dev.sendPoint_only _ _)
    | split)

/-! ### Abacus -/

theorem Dev.updAba_only (x0 : Dev) (x1 : Aba → Aba) :
    Dev.Only 0x100000000 0 x0 (Dev.updAba x0 x1) := by
  unfold Dev.updAba
  repeat' (first
    | exact rfl
    | with_reducible exact Dev.Only.refl _ _ _
    | with_reducible apply Dev.Only.with_aba)

theorem Dev.setPlim_only (x0 : Dev) :
    Dev.Only 0 0x10000000000000000000000000000000000000000000000000000000000000000000000000000000000000000000000000000000000 x0 (Dev.setPlim x0) := by
  unfold Dev.setPlim
  repeat' (first
    | exact rfl
    | with_reducible exact Dev.Only.refl _ _ _
    | with_reducible apply Dev.Only.wr)

theorem Dev.throttleStep_only (x0 : Dev) :
    Dev.Only 0x100000000 0x10000000000000000000000000000000000000000000000000000000000000000000000000000000000000000000000000000000000 x0 (Dev.throttleStep x0) := by
  unfold Dev.throttleStep
  repeat' (first
    | with_reducible assumption
    | exact rfl
    | (extract_lets +onlyGivenNames x; (refine Dev.Only.have1 x (fun hx => ?_) ?_; clear_value x; rotate_left; subst x))
    | with_reducible exact Dev.Only.refl _ _ _
    | with_reducible apply Dev.Only.step (Dev.setPlim_only _)
    | with_reducible apply Dev.Only.step (Dev.updAba_only _ _)
    | split)

theorem Dev.shedTo_only (x0 : Dev) (x1 : Nat) :
    Dev.Only 0x1408b002100 0x201f14000000000000000000000000000000000000000000000442c000000000208040 x0 (Dev.shedTo x0 x1) := by
  unfold Dev.shedTo
  repeat' (first
    | with_reducible assumption
    | exact rfl
    | intro e
    | with_reducible exact Dev.Only.refl _ _ _
    | with_reducible apply Dev.Only.step (Dev.restoreQuad_only _ _)
    | with_reducible apply Dev.Only.step (Dev.shedQuad_only _ _)
    | with_reducible apply Dev.Only.forEach
    | split)

theorem Dev.ladder_only (x0 : Dev) (x1 : Nat) :
    Dev.Only 0x1418b002100 0x8180000000000000000000000000000000000000201f14000000000000000000000000000000000000000000000442c000000000208040 x0 (Dev.ladder x0 x1) := by
  unfold Dev.ladder
  repeat' (first
    | with_reducible assumption
    | exact rfl
    | (extract_lets +onlyGivenNames x; first | (refine Dev.Only.have1 x (fun hx => ?_) ?_; clear_value x; rotate_left; subst x) | clear_value x)
    | with_reducible exact Dev.Only.refl _ _ _
    | with_reducible apply Dev.Only.step (Dev.raise_only _ _ _)
    | with_reducible apply Dev.Only.step (Dev.shedTo_only _ _)
    | with_reducible apply Dev.Only.step (Dev.updAba_only _ _)
    | with_reducible apply Dev.Only.wr
    | split)

theorem Dev.firePower_only (x0 : Dev) :
    Dev.Only 0x140000000 0 x0 (Dev.firePower x0) := by
  unfold Dev.firePower
  repeat' (first
    | with_reducible assumption
    | exact rfl
    | intro e
    | (extract_lets +onlyGivenNames x; first | (refine Dev.Only.have1 x (fun hx => ?_) ?_; clear_value x; rotate_left; subst x) | clear_value x)
    | with_reducible exact Dev.Only.refl _ _ _
    | with_reducible apply Dev.Only.step (Dev.updAba_only _ _)
    | with_reducible apply Dev.Only.step (Dev.updHt_only _ _ _)
    | with_reducible apply Dev.Only.forEach)

theorem Dev.hpStep_only (x0 : Dev) (x1 : Nat) :
    Dev.Only 0x14180000100 0x800000000000000000000000000000000000000000000000000000000000000000000000000000000000000000000000000000000008040 x0 (Dev.hpStep x0 x1) := by
  unfold Dev.hpStep
  repeat' (first
    | with_reducible assumption
    | exact rfl
    | (extract_lets +onlyGivenNames x; first | (refine Dev.Only.have1 x (fun hx => ?_) ?_; clear_value x; rotate_left; subst x) | clear_value x)
    | with_reducible exact Dev.Only.refl _ _ _
    | with_reducible apply Dev.Only.step (Dev.raise_only _ _ _)
    | with_reducible apply Dev.Only.step (Dev.updAba_only _ _)
    | with_reducible apply Dev.Only.wr
    | split)

theorem Dev.setLeads_only (x0 : Dev) :
    Dev.Only 0 0x60000000000000000000000000000000 x0 (Dev.setLeads x0) := by
  unfold Dev.setLeads
  repeat' (first
    | exact rfl
    | (extract_lets +onlyGivenNames x; clear_value x)
    | with_reducible exact Dev.Only.refl _ _ _
    | with_reducible apply Dev.Only.wr)

theorem Dev.overCheck_only (x0 : Dev) :
    Dev.Only 0x14180000100 0x10000000000000000000000000000000000000000000000000000000000000000000000000000000000000000000000000000000008040 x0 (Dev.overCheck x0) := by
  unfold Dev.overCheck
  repeat' (first
    | with_reducible assumption
    | exact rfl
    | (extract_lets +onlyGivenNames x; (refine Dev.Only.have1 x (fun hx => ?_) ?_; clear_value x; rotate_left; subst x))
    | with_reducible exact Dev.Only.refl _ _ _
    | with_reducible apply Dev.Only.step (Dev.raise_only _ _ _)
    | with_reducible apply Dev.Only.step (Dev.updAba_only _ _)
    | with_reducible apply Dev.Only.wr
    | split)

theorem Dev.shortCheck_only (x0 : Dev) (x1 : List Lim) (x2 : Nat) :
    Dev.Only 0x14180000100 0x20000000000000000000000000000000000000000000000000000000000000000000000000000000000000000000000000000000008040 x0 (Dev.shortCheck x0 x1 x2) := by
  unfold Dev.shortCheck
  repeat' (first
    | with_reducible assumption
    | exact rfl
    | (extract_lets +onlyGivenNames x; first | (refine Dev.Only.have1 x (fun hx => ?_) ?_; clear_value x; rotate_left; subst x) | clear_value x)
    | with_reducible exact Dev.Only.refl _ _ _
    | with_reducible apply Dev.Only.step (Dev.raise_only _ _ _)
    | with_reducible apply Dev.Only.step (Dev.updAba_only _ _)
    | with_reducible apply Dev.Only.wr
    | split)

theorem Dev.ceiling_only (x0 : Dev) :
    Dev.Only 0x14180000100 0x30780000000000000000000000000000000000000000000000000000000000000000000000000000000000000000000000000000008040 x0 (Dev.ceiling x0) := by
  unfold Dev.ceiling
  repeat' (first
    | with_reducible assumption
    | exact rfl
    | (extract_lets +onlyGivenNames x; first | (refine Dev.Only.have1 x (fun hx => ?_) ?_; clear_value x; rotate_left; subst x) | clear_value x)
    | with_reducible exact Dev.Only.refl _ _ _
    | with_reducible apply Dev.Only.step (Dev.overCheck_only _)
    | with_reducible apply Dev.Only.step (Dev.send_only _ _ _)
    | with_reducible apply Dev.Only.step (Dev.shortCheck_only _ _ _)
    | with_reducible apply Dev.Only.step (Dev.updAba_only _ _)
    | with_reducible apply Dev.Only.wr
    | split)

theorem Dev.clearUnderrun_only (x0 : Dev) :
    Dev.Only 0x12000000100 0x1000018000000000000000000000000000010 x0 (Dev.clearUnderrun x0) := by
  unfold Dev.clearUnderrun
  repeat' (first
    | with_reducible assumption
    | exact rfl
    | (extract_lets +onlyGivenNames x; (refine Dev.Only.have1 x (fun hx => ?_) ?_; clear_value x; rotate_left; subst x))
    | with_reducible exact Dev.Only.refl _ _ _
    | with_reducible apply Dev.Only.step (Dev.clearHold_only _ _)
    | with_reducible apply Dev.Only.step (Dev.refreshLead_only _)
    | split)

theorem Dev.demand_only (x0 : Dev) (x1 : Nat) :
    Dev.Only 0 0x800000 x0 (Dev.demand x0 x1) := by
  unfold Dev.demand
  repeat' (first
    | exact rfl
    | with_reducible exact Dev.Only.refl _ _ _
    | with_reducible apply Dev.Only.wr)

theorem Dev.demandAll_only (x0 : Dev) :
    Dev.Only 0x200000000 0x800000 x0 (Dev.demandAll x0) := by
  unfold Dev.demandAll
  repeat' (first
    | with_reducible assumption
    | exact rfl
    | (extract_lets +onlyGivenNames x; first | (refine Dev.Only.have1 x (fun hx => ?_) ?_; clear_value x; rotate_left; subst x) | clear_value x)
    | with_reducible exact Dev.Only.refl _ _ _
    | with_reducible apply Dev.Only.step (Dev.demand_only _ _)
    | with_reducible apply Dev.Only.with_temp)

theorem Dev.epoch_only (x0 : Dev) (x1 : Nat) (x2 : Nat) :
    Dev.Only 0x163cb002100 0x9b1ff000000000000000000000000000000000000201f1400000000000000000000c800000100007800000000000442c000000000a08050 x0 (Dev.epoch x0 x1 x2) := by
  unfold Dev.epoch
  repeat' (first
    | with_reducible assumption
    | exact rfl
    | intro e
    | (extract_lets +onlyGivenNames x; (refine Dev.Only.have1 x (fun hx => ?_) ?_; clear_value x; rotate_left; subst x))
    | with_reducible exact Dev.Only.refl _ _ _
    | with_reducible apply Dev.Only.step (Dev.ceiling_only _)
    | with_reducible apply Dev.Only.step (Dev.clearUnderrun_only _)
    | with_reducible apply Dev.Only.step (Dev.demandAll_only _)
    | with_reducible apply Dev.Only.step (Dev.firePower_only _)
    | with_reducible apply Dev.Only.step (Dev.hpStep_only _ _)
    | with_reducible apply Dev.Only.step (Dev.ladder_only _ _)
    | with_reducible apply Dev.Only.step (Dev.refreshLead_only _)
    | with_reducible apply Dev.Only.step (Dev.refreshSpeed_only _)
    | with_reducible apply Dev.Only.step (Dev.setLeads_only _)
    | with_reducible apply Dev.Only.step (Dev.throttleStep_only _)
    | with_reducible apply Dev.Only.wr
    | with_reducible apply Dev.Only.incWrap
    | with_reducible apply Dev.Only.forEach)

theorem execEpochEnd_only (x0 : U16) (x1 : U16) (x2 : State) :
    Out.Only 0x163cb002100 0x9b1ff000000000000000000000000000000000000201f1400000000000000000000c800000100007800000000000442c000000000a08050 x2 (execEpochEnd x0 x1 x2) := by
  unfold execEpochEnd
  repeat' (first
    | with_reducible assumption
    | exact rfl
    | with_reducible exact Dev.Only.refl _ _ _
    | with_reducible exact State.Only.refl _ _ _
    | (with_reducible apply State.Only.dev; with_reducible assumption)
    | with_reducible apply Out.Only.act
    | with_reducible apply Out.Only.next
    | with_reducible apply Dev.Only.step (Dev.epoch_only _ _ _)
    | split
    | with_reducible apply State.Only.mkDev)

/-! ### Ahnus -/

theorem Dev.sendRejected_only (x0 : Dev) (x1 : Nat) (x2 : Nat) :
    Dev.Only 0x10000000100 0 x0 (Dev.sendRejected x0 x1 x2) := by
  unfold Dev.sendRejected
  repeat' (first
    | exact rfl
    | (extract_lets +onlyGivenNames x; clear_value x)
    | with_reducible exact Dev.Only.refl _ _ _
    | with_reducible apply Dev.Only.step (Dev.send_only _ _ _))

theorem Dev.reportRecord_only (x0 : Dev) (x1 : Nat) (x2 : Nat) :
    Dev.Only 0x10000000100 0 x0 (Dev.reportRecord x0 x1 x2) := by
  unfold Dev.reportRecord
  repeat' (first
    | exact rfl
    | (extract_lets +onlyGivenNames x; clear_value x)
    | with_reducible exact Dev.Only.refl _ _ _
    | with_reducible apply Dev.Only.step (Dev.send_only _ _ _)
    | split)

theorem Dev.rejectJob_only (x0 : Dev) (x1 : Nat) (x2 : Nat) :
    Dev.Only 0x10000886700 0 x0 (Dev.rejectJob x0 x1 x2) := by
  unfold Dev.rejectJob
  repeat' (first
    | exact rfl
    | with_reducible exact Dev.Only.refl _ _ _
    | with_reducible apply Dev.Only.step (Dev.endJob_only _ _ _ _)
    | with_reducible apply Dev.Only.step (Dev.purge_only _ _))

theorem Dev.badRecord_only (x0 : Dev) (x1 : Job) (x2 : Nat) (x3 : Nat) :
    Dev.Only 0x14080886700 0x8040 x0 (Dev.badRecord x0 x1 x2 x3) := by
  unfold Dev.badRecord
  repeat' (first
    | exact rfl
    | with_reducible exact Dev.Only.refl _ _ _
    | with_reducible apply Dev.Only.step (Dev.raise_only _ _ _)
    | with_reducible apply Dev.Only.step (Dev.rejectJob_only _ _ _)
    | with_reducible apply Dev.Only.step (Dev.reportRecord_only _ _ _)
    | split)

theorem Dev.checkWaste_only (x0 : Dev) (x1 : Nat) (x2 : JobRec) :
    Dev.Only 0x14080000100 0x8040 x0 (Dev.checkWaste x0 x1 x2) := by
  unfold Dev.checkWaste
  repeat' (first
    | exact rfl
    | with_reducible exact Dev.Only.refl _ _ _
    | with_reducible apply Dev.Only.step (Dev.raise_only _ _ _)
    | split)

theorem Dev.loadJob_only (x0 : Dev) (x1 : Nat) (x2 : JobRec) :
    Dev.Only 0x14082000300 0x8040 x0 (Dev.loadJob x0 x1 x2) := by
  unfold Dev.loadJob
  repeat' (first
    | with_reducible assumption
    | exact rfl
    | (extract_lets +onlyGivenNames x; first | (refine Dev.Only.have1 x (fun hx => ?_) ?_; clear_value x; rotate_left; subst x) | clear_value x)
    | with_reducible exact Dev.Only.refl _ _ _
    | with_reducible apply Dev.Only.step (Dev.checkWaste_only _ _ _)
    | with_reducible apply Dev.Only.step (Dev.setJobSt_only _ _ _)
    | with_reducible apply Dev.Only.with_jobs_accounts)

theorem Dev.tryLoad_only (x0 : Dev) (x1 : Nat) :
    Dev.Only 0x14082886700 0x8040 x0 (Dev.tryLoad x0 x1) := by
  unfold Dev.tryLoad
  repeat' (first
    | exact rfl
    | (extract_lets +onlyGivenNames x; first | clear_value x | subst x)
    | with_reducible exact Dev.Only.refl _ _ _
    | with_reducible apply Dev.Only.step (Dev.loadJob_only _ _ _)
    | with_reducible apply Dev.Only.step (Dev.rejectJob_only _ _ _)
    | split)

theorem Dev.checkEnd_only (x0 : Dev) (x1 : Nat) :
    Dev.Only 0x1408bc86700 0xe418000000000000000000000000000000000000000000008040 x0 (Dev.checkEnd x0 x1) := by
  unfold Dev.checkEnd
  repeat' (first
    | with_reducible assumption
    | exact rfl
    | (extract_lets +onlyGivenNames x; (refine Dev.Only.have1 x (fun hx => ?_) ?_; clear_value x; rotate_left; subst x))
    | with_reducible exact Dev.Only.refl _ _ _
    | with_reducible apply Dev.Only.step (Dev.endFailed_only _ _ _)
    | with_reducible apply Dev.Only.step (Dev.rejectJob_only _ _ _)
    | with_reducible apply Dev.Only.step (Dev.updJob_only _ _ _)
    | split)

theorem Dev.keepRecord_only (x0 : Dev) (x1 : Job) (x2 : RawRec) (x3 : Nat) :
    Dev.Only 0x1408bc86700 0xe418000000000000000000000000000000000000000000008040 x0 (Dev.keepRecord x0 x1 x2 x3) := by
  unfold Dev.keepRecord
  repeat' (first
    | with_reducible assumption
    | exact rfl
    | (extract_lets +onlyGivenNames x; first | (refine Dev.Only.have1 x (fun hx => ?_) ?_; clear_value x; rotate_left; subst x) | clear_value x)
    | with_reducible exact Dev.Only.refl _ _ _
    | with_reducible apply Dev.Only.step (Dev.checkEnd_only _ _)
    | with_reducible apply Dev.Only.step (Dev.tryLoad_only _ _)
    | with_reducible apply Dev.Only.step (Dev.updJob_only _ _ _))

theorem Dev.lateProduct_only (x0 : Dev) (x1 : Job) (x2 : Job) (x3 : JobRec) (x4 : RawRec) (x5 : ProdRec) :
    Dev.Only 0x1408bc86700 0xe418000000000000000000000000000000000000000000008040 x0 (Dev.lateProduct x0 x1 x2 x3 x4 x5) := by
  unfold Dev.lateProduct
  repeat' (first
    | with_reducible assumption
    | exact rfl
    | intro e
    | (extract_lets +onlyGivenNames x; first | (refine Dev.Only.have1 x (fun hx => ?_) ?_; clear_value x; rotate_left; subst x) | clear_value x)
    | with_reducible exact Dev.Only.refl _ _ _
    | with_reducible apply Dev.Only.step (Dev.badRecord_only _ _ _ _)
    | with_reducible apply Dev.Only.step (Dev.keepRecord_only _ _ _ _)
    | with_reducible apply Dev.Only.step (Dev.raise_only _ _ _)
    | with_reducible apply Dev.Only.step (Dev.rejectJob_only _ _ _)
    | with_reducible apply Dev.Only.forEach
    | split)

theorem Dev.newRecord_only (x0 : Dev) (x1 : Job) (x2 : RawRec) :
    Dev.Only 0x1408bc86700 0xe418000000000000000000000000000000000000000000008040 x0 (Dev.newRecord x0 x1 x2) := by
  unfold Dev.newRecord
  repeat' (first
    | exact rfl
    | (extract_lets +onlyGivenNames x; clear_value x)
    | with_reducible exact Dev.Only.refl _ _ _
    | with_reducible apply Dev.Only.step (Dev.badRecord_only _ _ _ _)
    | with_reducible apply Dev.Only.step (Dev.keepRecord_only _ _ _ _)
    | with_reducible apply Dev.Only.step (Dev.lateProduct_only _ _ _ _ _ _)
    | with_reducible apply Dev.Only.step (Dev.rejectJob_only _ _ _)
    | with_reducible apply Dev.Only.step (Dev.reportRecord_only _ _ _)
    | split)

theorem Dev.takeRecord_only (x0 : Dev) (x1 : Job) (x2 : RawRec) :
    Dev.Only 0x1408bc86700 0xe418000000000000000000000000000000000000000000008040 x0 (Dev.takeRecord x0 x1 x2) := by
  unfold Dev.takeRecord
  repeat' (first
    | with_reducible assumption
    | exact rfl
    | (extract_lets +onlyGivenNames x; first | (refine Dev.Only.have1 x (fun hx => ?_) ?_; clear_value x; rotate_left; subst x)  | (refine Dev.Only.have1 x.1 (fun hx => ?_) ?_; clear_value x; rotate_left; subst x) | (refine Dev.Only.have1 x.2 (fun hx => ?_) ?_; clear_value x; rotate_left; subst x) | (refine Dev.Only.fun1 x ?_; subst x; try dsimp -zeta only) | clear_value x)
    | with_reducible exact Dev.Only.refl _ _ _
    | with_reducible apply Dev.Only.step (Dev.updJob_only _ _ _)
    | with_reducible apply Dev.Only.step (Dev.badRecord_only _ _ _ _)
    | with_reducible apply Dev.Only.step (Dev.newRecord_only _ _ _)
    | (with_reducible apply Dev.Only.of_fst; assumption)
    | split)

theorem Dev.closeConn_only (x0 : Dev) (x1 : Nat) :
    Dev.Only 0x10000000800 0 x0 (Dev.closeConn x0 x1) := by
  unfold Dev.closeConn
  repeat' (first
    | exact rfl
    | with_reducible exact Dev.Only.refl _ _ _
    | with_reducible apply Dev.Only.step (Dev.emit_only _ _)
    | with_reducible apply Dev.Only.with_conns)

theorem Dev.closeBulk_only (x0 : Dev) (x1 : Nat) (x2 : Nat) (x3 : Nat) :
    Dev.Only 0x14080000900 0x8040 x0 (Dev.closeBulk x0 x1 x2 x3) := by
  unfold Dev.closeBulk
  repeat' (first
    | exact rfl
    | with_reducible exact Dev.Only.refl _ _ _
    | with_reducible apply Dev.Only.step (Dev.closeConn_only _ _)
    | with_reducible apply Dev.Only.step (Dev.raise_only _ _ _))

theorem Dev.ahnusRecord_only (x0 : Dev) (x1 : Nat) (x2 : List Byte) (x3 : Bool) :
    Dev.Only 0x1408bc86f00 0xe418000000000000000000000000000000000000000000008040 x0 (Dev.ahnusRecord x0 x1 x2 x3) := by
  unfold Dev.ahnusRecord
  repeat' (first
    | with_reducible assumption
    | exact rfl
    | (extract_lets +onlyGivenNames x; first | (refine Dev.Only.have1 x (fun hx => ?_) ?_; clear_value x; rotate_left; subst x)  | (refine Dev.Only.have1 x.1 (fun hx => ?_) ?_; clear_value x; rotate_left; subst x) | (refine Dev.Only.have1 x.2 (fun hx => ?_) ?_; clear_value x; rotate_left; subst x) | (refine Dev.Only.fun1 x ?_; subst x; try dsimp -zeta only) | clear_value x)
    | with_reducible exact Dev.Only.refl _ _ _
    | with_reducible apply Dev.Only.step (Dev.reportRecord_only _ _ _)
    | with_reducible apply Dev.Only.step (Dev.closeBulk_only _ _ _ _)
    | with_reducible apply Dev.Only.step (Dev.takeRecord_only _ _ _)
    | (with_reducible apply Dev.Only.of_fst; assumption)
    | split
    | with_reducible apply Dev.Only.with_conns)

theorem execAhnusRecord_only (x0 : Fin 8) (x1 : List Byte) (x2 : Bool) (x3 : State) :
    Out.Only 0x1408bc86f00 0xe418000000000000000000000000000000000000000000008040 x3 (execAhnusRecord x0 x1 x2 x3) := by
  unfold execAhnusRecord
  repeat' (first
    | exact rfl
    | with_reducible exact Dev.Only.refl _ _ _
    | with_reducible exact State.Only.refl _ _ _
    | with_reducible apply Out.Only.act
    | with_reducible apply Dev.Only.step (Dev.ahnusRecord_only _ _ _ _)
    | split)

theorem Dev.bulkHeader_only (x0 : Dev) (x1 : Nat) (x2 : List Byte) :
    Dev.Only 0x14080000b00 0x8040 x0 (Dev.bulkHeader x0 x1 x2) := by
  unfold Dev.bulkHeader
  repeat' (first
    | with_reducible assumption
    | exact rfl
    | (extract_lets +onlyGivenNames x; first | (refine Dev.Only.have1 x (fun hx => ?_) ?_; clear_value x; rotate_left; subst x)  | (refine Dev.Only.have1 x.1 (fun hx => ?_) ?_; clear_value x; rotate_left; subst x) | (refine Dev.Only.have1 x.2 (fun hx => ?_) ?_; clear_value x; rotate_left; subst x) | (refine Dev.Only.fun1 x ?_; subst x; try dsimp -zeta only) | clear_value x)
    | with_reducible exact Dev.Only.refl _ _ _
    | with_reducible apply Dev.Only.step (Dev.closeBulk_only _ _ _ _)
    | with_reducible apply Dev.Only.step (Dev.sendRejected_only _ _ _)
    | with_reducible apply Dev.Only.step (Dev.closeConn_only _ _)
    | with_reducible apply Dev.Only.step (Dev.sendJobStatus_only _ _)
    | split
    | with_reducible apply Dev.Only.with_jobs
    | with_reducible apply Dev.Only.with_conns)

theorem execBulkConnection_only (x0 : Fin 8) (x1 : List Byte) (x2 : State) :
    Out.Only 0x14080000b00 0x8040 x2 (execBulkConnection x0 x1 x2) := by
  unfold execBulkConnection
  repeat' (first
    | with_reducible assumption
    | exact rfl
    | with_reducible exact Dev.Only.refl _ _ _
    | with_reducible exact State.Only.refl _ _ _
    | (with_reducible apply State.Only.dev; with_reducible assumption)
    | with_reducible apply Out.Only.act
    | with_reducible apply Out.Only.next
    | with_reducible apply Dev.Only.step (Dev.bulkHeader_only _ _ _)
    | split
    | with_reducible apply State.Only.mkDev)

theorem execBulkConnectionClose_only (x0 : Fin 8) (x1 : State) :
    Out.Only 0x800 0 x1 (execBulkConnectionClose x0 x1) := by
  unfold execBulkConnectionClose
  repeat' (first
    | exact rfl
    | with_reducible exact Dev.Only.refl _ _ _
    | with_reducible exact State.Only.refl _ _ _
    | with_reducible apply Out.Only.act
    | with_reducible apply Dev.Only.with_conns)

theorem execJobRecvTimeout_only (x0 : U32) (x1 : State) :
    Out.Only 0x10000886700 0 x1 (execJobRecvTimeout x0 x1) := by
  unfold execJobRecvTimeout
  repeat' (first
    | with_reducible assumption
    | exact rfl
    | with_reducible exact Dev.Only.refl _ _ _
    | with_reducible exact State.Only.refl _ _ _
    | (with_reducible apply State.Only.dev; with_reducible assumption)
    | with_reducible apply Out.Only.act
    | with_reducible apply Out.Only.next
    | with_reducible apply Dev.Only.step (Dev.rejectJob_only _ _ _)
    | (with_reducible apply Dev.Only.of_fst; assumption)
    | split
    | with_reducible apply State.Only.mkDev)

/-! ### Rods -/

theorem Dev.buildRods_only (x0 : Dev) (x1 : Nat) :
    Dev.Only 0x40000 0x2000000000000000000000000000000 x0 (Dev.buildRods x0 x1) := by
  unfold Dev.buildRods
  repeat' (first
    | with_reducible assumption
    | exact rfl
    | intro e
    | with_reducible exact Dev.Only.refl _ _ _
    | with_reducible apply Dev.Only.step (Dev.setMasterRod_only _ _ _)
    | with_reducible apply Dev.Only.wr
    | with_reducible apply Dev.Only.forEach
    | split)

theorem State.storeBuilt_only (x0 : State) (x1 : Nat) :
    State.Only 0x40000000000 0x20800000000000000000000000000000000000000000000000000000000000000000000000000000000000000000000000000000000000000000000 x0 (State.storeBuilt x0 x1) := by
  unfold State.storeBuilt
  repeat' (first
    | with_reducible assumption
    | exact rfl
    | with_reducible exact Dev.Only.refl _ _ _
    | with_reducible exact State.Only.refl _ _ _
    | (with_reducible apply State.Only.dev; with_reducible assumption)
    | with_reducible apply State.Only.step (State.dramWrite_only _ _ _ _)
    | (with_reducible apply Dev.Only.of_fst; assumption)
    | split
    | with_reducible apply State.Only.mkDev)

theorem Dev.clearNozzles_only (x0 : Dev) (x1 : Nat) :
    Dev.Only 0x8000000 0 x0 (Dev.clearNozzles x0 x1) := by
  unfold Dev.clearNozzles
  repeat' (first
    | exact rfl
    | (extract_lets +onlyGivenNames x; clear_value x)
    | with_reducible exact Dev.Only.refl _ _ _
    | with_reducible apply Dev.Only.with_loops)

theorem Dev.pendRods_only (x0 : Dev) (x1 : List (Nat × Nat × Nat)) :
    Dev.Only 0x8000000 0 x0 (Dev.pendRods x0 x1) := by
  unfold Dev.pendRods
  repeat' (first
    | with_reducible assumption
    | exact rfl
    | intro e
    | (extract_lets +onlyGivenNames x; first | (refine Dev.Only.have1 x (fun hx => ?_) ?_; clear_value x; rotate_left; subst x)  | (refine Dev.Only.have1 x.1 (fun hx => ?_) ?_; clear_value x; rotate_left; subst x) | (refine Dev.Only.have1 x.2 (fun hx => ?_) ?_; clear_value x; rotate_left; subst x) | (refine Dev.Only.fun1 x ?_; subst x; try dsimp -zeta only) | clear_value x)
    | with_reducible exact Dev.Only.refl _ _ _
    | with_reducible apply Dev.Only.foldl
    | with_reducible apply Dev.Only.foldl_fst
    | with_reducible apply Dev.Only.foldl_snd
    | split
    | with_reducible apply Dev.Only.with_loops)

theorem Dev.rebuildRods_only (x0 : Dev) (x1 : Nat) :
    Dev.Only 0x14088004100 0x3001800000000000000000008040 x0 (Dev.rebuildRods x0 x1) := by
  unfold Dev.rebuildRods
  repeat' (first
    | with_reducible assumption
    | exact rfl
    | (extract_lets +onlyGivenNames x; first | (refine Dev.Only.have1 x (fun hx => ?_) ?_; clear_value x; rotate_left; subst x)  | (refine Dev.Only.have1 x.1 (fun hx => ?_) ?_; clear_value x; rotate_left; subst x) | (refine Dev.Only.have1 x.2 (fun hx => ?_) ?_; clear_value x; rotate_left; subst x) | (refine Dev.Only.fun1 x ?_; subst x; try dsimp -zeta only) | clear_value x)
    | with_reducible exact Dev.Only.refl _ _ _
    | with_reducible apply Dev.Only.step (Dev.sv1Commit_only _ _)
    | with_reducible apply Dev.Only.step (Dev.clearNozzles_only _ _)
    | with_reducible apply Dev.Only.step (Dev.pendRods_only _ _)
    | (with_reducible apply Dev.Only.of_fst; assumption)
    | split)

theorem Dev.loadDrops_only (x0 : Dev) (x1 : Nat) :
    Dev.Only 0 0x2000000000000000000000000000000000000000000000000000000000000000000000000000000000000000000000000000000000000000 x0 (Dev.loadDrops x0 x1) := by
  unfold Dev.loadDrops
  repeat' (first
    | with_reducible assumption
    | exact rfl
    | intro e
    | with_reducible exact Dev.Only.refl _ _ _
    | with_reducible apply Dev.Only.wr
    | with_reducible apply Dev.Only.forEach)

/-! ### Zanlink -/

theorem Dev.setTimed_only (x0 : Dev) (x1 : Nat) (x2 : Bool) : Dev.Only 0 0x300000000000000000000000000000000000000000000000000000000000000 x0 (x0.setTimed x1 x2) := by
  unfold Dev.setTimed
  split <;> split <;> first | exact Dev.Only.setBit _ _ _ _ rfl (Dev.Only.refl _ _ _) | exact Dev.Only.clrBit _ _ _ _ rfl (Dev.Only.refl _ _ _)

theorem Dev.laneTo_only (x0 : Dev) (x1 : Nat) (x2 : LaneSt) :
    Dev.Only 0 0x300000010200000000000000000000000000000000000000000000000000000 x0 (Dev.laneTo x0 x1 x2) := by
  unfold Dev.laneTo
  repeat' (first
    | with_reducible assumption
    | exact rfl
    | (extract_lets +onlyGivenNames x; (refine Dev.Only.have1 x (fun hx => ?_) ?_; clear_value x; rotate_left; subst x))
    | with_reducible exact Dev.Only.refl _ _ _
    | with_reducible apply Dev.Only.step (Dev.setTimed_only _ _ _)
    | with_reducible apply Dev.Only.wr
    | with_reducible apply Dev.Only.inc
    | split)

theorem Dev.sendIdle_only (x0 : Dev) (x1 : Nat) (x2 : Nat) :
    Dev.Only 0x10000000000 0 x0 (Dev.sendIdle x0 x1 x2) := by
  unfold Dev.sendIdle
  repeat' (first
    | with_reducible assumption
    | exact rfl
    | with_reducible exact Dev.Only.refl _ _ _
    | with_reducible apply Dev.Only.step (Dev.emit_only _ _)
    | split)

theorem Dev.sendMgmt_only (x0 : Dev) (x1 : Nat) (x2 : Nat) (x3 : Nat) (x4 : List Byte) :
    Dev.Only 0x10000800000 0 x0 (Dev.sendMgmt x0 x1 x2 x3 x4) := by
  unfold Dev.sendMgmt
  repeat' (first
    | with_reducible assumption
    | exact rfl
    | (extract_lets +onlyGivenNames x; first | (refine Dev.Only.have1 x (fun hx => ?_) ?_; clear_value x; rotate_left; subst x)  | (refine Dev.Only.have1 x.1 (fun hx => ?_) ?_; clear_value x; rotate_left; subst x) | (refine Dev.Only.have1 x.2 (fun hx => ?_) ?_; clear_value x; rotate_left; subst x) | (refine Dev.Only.fun1 x ?_; subst x; try dsimp -zeta only) | clear_value x)
    | with_reducible exact Dev.Only.refl _ _ _
    | with_reducible apply Dev.Only.step (Dev.updLane_only _ _ _)
    | with_reducible apply Dev.Only.step (Dev.zlSend_only _ _ _)
    | split)

theorem Dev.sendEeRead_only (x0 : Dev) (x1 : Nat) (x2 : Nat) (x3 : Nat) :
    Dev.Only 0x10000800000 0 x0 (Dev.sendEeRead x0 x1 x2 x3) := by
  unfold Dev.sendEeRead
  repeat' (first
    | with_reducible assumption
    | exact rfl
    | with_reducible exact Dev.Only.refl _ _ _
    | with_reducible apply Dev.Only.step (Dev.sendMgmt_only _ _ _ _ _)
    | split)

theorem Dev.dropLock_only (x0 : Dev) (x1 : Nat) :
    Dev.Only 0 0xc00000000000000000000000000000000000000000000000000000 x0 (Dev.dropLock x0 x1) := by
  unfold Dev.dropLock
  repeat' (first
    | with_reducible assumption
    | exact rfl
    | with_reducible exact Dev.Only.refl _ _ _
    | with_reducible apply Dev.Only.wr
    | split)

theorem Dev.loseLane_only (x0 : Dev) (x1 : Nat) (x2 : Nat) (x3 : LaneSt) :
    Dev.Only 0x1408b802700 0x201f140300000010e00000000000000000000000000000000000000000000000008040 x0 (Dev.loseLane x0 x1 x2 x3) := by
  unfold Dev.loseLane
  repeat' (first
    | with_reducible assumption
    | exact rfl
    | (extract_lets +onlyGivenNames x; first | (refine Dev.Only.have1 x (fun hx => ?_) ?_; clear_value x; rotate_left; subst x)  | (refine Dev.Only.have1 x.1 (fun hx => ?_) ?_; clear_value x; rotate_left; subst x) | (refine Dev.Only.have1 x.2 (fun hx => ?_) ?_; clear_value x; rotate_left; subst x) | (refine Dev.Only.fun1 x ?_; subst x; try dsimp -zeta only) | clear_value x)
    | with_reducible exact Dev.Only.refl _ _ _
    | with_reducible apply Dev.Only.step (Dev.laneTo_only _ _ _)
    | with_reducible apply Dev.Only.step (Dev.dropLock_only _ _)
    | with_reducible apply Dev.Only.step (Dev.updLane_only _ _ _)
    | with_reducible apply Dev.Only.step (Dev.laneLoss_only _ _ _)
    | split)

theorem execLockLost_only (x0 : LaneNo) (x1 : State) :
    Out.Only 0x1408b802700 0x201f140300000010e00000000000000000000000000000000000000000000000008040 x1 (execLockLost x0 x1) := by
  unfold execLockLost
  repeat' (first
    | with_reducible assumption
    | exact rfl
    | with_reducible exact Dev.Only.refl _ _ _
    | with_reducible exact State.Only.refl _ _ _
    | (with_reducible apply State.Only.dev; with_reducible assumption)
    | with_reducible apply Out.Only.act
    | with_reducible apply Out.Only.next
    | with_reducible apply Dev.Only.step (Dev.loseLane_only _ _ _ _)
    | with_reducible apply Dev.Only.step (Dev.dropLock_only _ _)
    | split
    | with_reducible apply State.Only.mkDev)

theorem execStatusTimeout_only (x0 : LaneNo) (x1 : State) :
    Out.Only 0x1408b802700 0x201f140300000010e00000000000000000000000000000000000000000000000008040 x1 (execStatusTimeout x0 x1) := by
  unfold execStatusTimeout
  repeat' (first
    | with_reducible assumption
    | exact rfl
    | with_reducible exact Dev.Only.refl _ _ _
    | with_reducible exact State.Only.refl _ _ _
    | (with_reducible apply State.Only.dev; with_reducible assumption)
    | with_reducible apply Out.Only.act
    | with_reducible apply Out.Only.next
    | with_reducible apply Dev.Only.step (Dev.loseLane_only _ _ _ _)
    | split
    | with_reducible apply State.Only.mkDev)

theorem Dev.hrefOff_only (x0 : Dev) :
    Dev.Only 0x1c08b802700 0x201f140300000010e00000000000000000000000000000000000000000000000008040 x0 (Dev.hrefOff x0) := by
  unfold Dev.hrefOff
  repeat' (first
    | with_reducible assumption
    | exact rfl
    | intro e
    | (extract_lets +onlyGivenNames x; first | (refine Dev.Only.have1 x (fun hx => ?_) ?_; clear_value x; rotate_left; subst x) | clear_value x)
    | with_reducible exact Dev.Only.refl _ _ _
    | with_reducible apply Dev.Only.step (Dev.loseLane_only _ _ _ _)
    | with_reducible apply Dev.Only.forEach
    | split
    | with_reducible apply Dev.Only.with_pins)

theorem execZlRecovStop_only (x0 : LaneNo) (x1 : State) :
    Out.Only 0x14080800100 0x8060 x1 (execZlRecovStop x0 x1) := by
  unfold execZlRecovStop
  repeat' (first
    | with_reducible assumption
    | exact rfl
    | (extract_lets +onlyGivenNames x; first | (refine Out.Only.have1 x (fun hx => ?_) ?_; clear_value x; rotate_left; subst x) | (refine Out.Only.have2 x (fun hx => ?_) ?_; clear_value x; rotate_left; subst x)  | (refine State.Only.have1 x (fun hx => ?_) ?_; clear_value x; rotate_left; subst x) | (refine State.Only.have2 x (fun hx => ?_) ?_; clear_value x; rotate_left; subst x) | (refine Dev.Only.have1 x (fun hx => ?_) ?_; clear_value x; rotate_left; subst x) | clear_value x)
    | with_reducible exact Dev.Only.refl _ _ _
    | with_reducible exact State.Only.refl _ _ _
    | (with_reducible apply State.Only.dev; with_reducible assumption)
    | with_reducible apply Out.Only.act
    | with_reducible apply Out.Only.next
    | with_reducible apply Dev.Only.step (Dev.requestStop_only _ _)
    | with_reducible apply Dev.Only.step (Dev.raise_only _ _ _)
    | with_reducible apply Dev.Only.step (Dev.updLane_only _ _ _)
    | split
    | with_reducible apply State.Only.mkDev)

theorem Dev.sendBeacon_only (x0 : Dev) (x1 : Nat) :
    Dev.Only 0x10000800000 0 x0 (Dev.sendBeacon x0 x1) := by
  unfold Dev.sendBeacon
  repeat' (first
    | with_reducible assumption
    | exact rfl
    | (extract_lets +onlyGivenNames x; first | (refine Dev.Only.have1 x (fun hx => ?_) ?_; clear_value x; rotate_left; subst x)  | (refine Dev.Only.have1 x.1 (fun hx => ?_) ?_; clear_value x; rotate_left; subst x) | (refine Dev.Only.have1 x.2 (fun hx => ?_) ?_; clear_value x; rotate_left; subst x) | (refine Dev.Only.fun1 x ?_; subst x; try dsimp -zeta only) | clear_value x)
    | with_reducible exact Dev.Only.refl _ _ _
    | with_reducible apply Dev.Only.step (Dev.zlSend_only _ _ _)
    | with_reducible apply Dev.Only.step (Dev.updLane_only _ _ _)
    | (with_reducible apply Dev.Only.of_fst; assumption))

theorem Dev.setLinkInc_only (x0 : Dev) :
    Dev.Only 0 0xc00000000000000000000000000000000000000000000000000000000000000 x0 (Dev.setLinkInc x0) := by
  unfold Dev.setLinkInc
  repeat' (first
    | with_reducible assumption
    | exact rfl
    | (extract_lets +onlyGivenNames x; first | (refine Dev.Only.have1 x (fun hx => ?_) ?_; clear_value x; rotate_left; subst x)  | (refine Dev.Only.have1 x.1 (fun hx => ?_) ?_; clear_value x; rotate_left; subst x) | (refine Dev.Only.have1 x.2 (fun hx => ?_) ?_; clear_value x; rotate_left; subst x) | (refine Dev.Only.fun1 x ?_; subst x; try dsimp -zeta only) | clear_value x)
    | with_reducible exact Dev.Only.refl _ _ _
    | with_reducible apply Dev.Only.wr
    | split)

theorem execBeaconPeriod_only (x0 : LaneNo) (x1 : State) :
    Out.Only 0x10000800000 0xc00000000000000000000000000000000000000000000000000000000000000 x1 (execBeaconPeriod x0 x1) := by
  unfold execBeaconPeriod
  repeat' (first
    | exact rfl
    | with_reducible exact Dev.Only.refl _ _ _
    | with_reducible exact State.Only.refl _ _ _
    | with_reducible apply Out.Only.act
    | with_reducible apply Dev.Only.step (Dev.sendBeacon_only _ _)
    | with_reducible apply Dev.Only.step (Dev.setLinkInc_only _)
    | split)

theorem execLaneEnable_only (x0 : LaneNo) (x1 : State) :
    Out.Only 0x10000000000 0x300000010200000000000000000000000000000000000000000000000000000 x1 (execLaneEnable x0 x1) := by
  unfold execLaneEnable
  repeat' (first
    | exact rfl
    | with_reducible exact Dev.Only.refl _ _ _
    | with_reducible exact State.Only.refl _ _ _
    | with_reducible apply Out.Only.act
    | with_reducible apply Dev.Only.step (Dev.laneTo_only _ _ _)
    | with_reducible apply Dev.Only.step (Dev.sendIdle_only _ _ _)
    | split)

theorem execBlockLock_only (x0 : LaneNo) (x1 : State) :
    Out.Only 0x10000800000 0x300000010600000000000000000000000000000000000000000000000000000 x1 (execBlockLock x0 x1) := by
  unfold execBlockLock
  repeat' (first
    | with_reducible assumption
    | exact rfl
    | (extract_lets +onlyGivenNames x; first | (refine Out.Only.have1 x (fun hx => ?_) ?_; clear_value x; rotate_left; subst x) | (refine Out.Only.have2 x (fun hx => ?_) ?_; clear_value x; rotate_left; subst x)  | (refine State.Only.have1 x (fun hx => ?_) ?_; clear_value x; rotate_left; subst x) | (refine State.Only.have2 x (fun hx => ?_) ?_; clear_value x; rotate_left; subst x) | (refine Dev.Only.have1 x (fun hx => ?_) ?_; clear_value x; rotate_left; subst x) | clear_value x)
    | with_reducible exact Dev.Only.refl _ _ _
    | with_reducible exact State.Only.refl _ _ _
    | (with_reducible apply State.Only.dev; with_reducible assumption)
    | with_reducible apply Out.Only.act
    | with_reducible apply Out.Only.next
    | with_reducible apply Dev.Only.step (Dev.sendIdle_only _ _ _)
    | with_reducible apply Dev.Only.step (Dev.updLane_only _ _ _)
    | with_reducible apply Dev.Only.step (Dev.laneTo_only _ _ _)
    | with_reducible apply Dev.Only.wr
    | split
    | with_reducible apply State.Only.mkDev)

theorem Dev.readHead_only (x0 : Dev) (x1 : Nat) :
    Dev.Only 0x10000800000 0x1000008000000000000000000000000000000000000000000000000000000 x0 (Dev.readHead x0 x1) := by
  unfold Dev.readHead
  repeat' (first
    | with_reducible assumption
    | exact rfl
    | intro e
    | (extract_lets +onlyGivenNames x; first | (refine Dev.Only.have1 x (fun hx => ?_) ?_; clear_value x; rotate_left; subst x)  | (refine Dev.Only.have1 x.1 (fun hx => ?_) ?_; clear_value x; rotate_left; subst x) | (refine Dev.Only.have1 x.2 (fun hx => ?_) ?_; clear_value x; rotate_left; subst x) | (refine Dev.Only.fun1 x ?_; subst x; try dsimp -zeta only) | clear_value x)
    | with_reducible exact Dev.Only.refl _ _ _
    | with_reducible apply Dev.Only.step (Dev.updLane_only _ _ _)
    | with_reducible apply Dev.Only.step (Dev.sendEeRead_only _ _ _ _)
    | with_reducible apply Dev.Only.forEach
    | with_reducible apply Dev.Only.wr
    | split)

theorem Dev.enterUp_only (x0 : Dev) (x1 : Nat) (x2 : Bool) :
    Dev.Only 0x14080800100 0xf01000018200000000000000000000000000000000000000000000000008040 x0 (Dev.enterUp x0 x1 x2) := by
  unfold Dev.enterUp
  repeat' (first
    | with_reducible assumption
    | exact rfl
    | (extract_lets +onlyGivenNames x; first | (refine Dev.Only.have1 x (fun hx => ?_) ?_; clear_value x; rotate_left; subst x)  | (refine Dev.Only.have1 x.1 (fun hx => ?_) ?_; clear_value x; rotate_left; subst x) | (refine Dev.Only.have1 x.2 (fun hx => ?_) ?_; clear_value x; rotate_left; subst x) | (refine Dev.Only.fun1 x ?_; subst x; try dsimp -zeta only) | clear_value x)
    | with_reducible exact Dev.Only.refl _ _ _
    | with_reducible apply Dev.Only.step (Dev.updLane_only _ _ _)
    | with_reducible apply Dev.Only.step (Dev.sendIdle_only _ _ _)
    | with_reducible apply Dev.Only.step (Dev.laneTo_only _ _ _)
    | with_reducible apply Dev.Only.step (Dev.raise_only _ _ _)
    | with_reducible apply Dev.Only.step (Dev.sendMgmt_only _ _ _ _ _)
    | with_reducible apply Dev.Only.step (Dev.sendBeacon_only _ _)
    | with_reducible apply Dev.Only.step (Dev.setLinkInc_only _)
    | with_reducible apply Dev.Only.step (Dev.sendEeRead_only _ _ _ _)
    | with_reducible apply Dev.Only.step (Dev.readHead_only _ _)
    | split)

theorem execLaneUp_only (x0 : LaneNo) (x1 : Fin 4) (x2 : State) :
    Out.Only 0x14080800100 0xf01000019a00000000000000000000000000000000000000000000000008040 x2 (execLaneUp x0 x1 x2) := by
  unfold execLaneUp
  repeat' (first
    | with_reducible assumption
    | exact rfl
    | (extract_lets +onlyGivenNames x; first | (refine Out.Only.have1 x (fun hx => ?_) ?_; clear_value x; rotate_left; subst x) | (refine Out.Only.have2 x (fun hx => ?_) ?_; clear_value x; rotate_left; subst x)  | (refine State.Only.have1 x (fun hx => ?_) ?_; clear_value x; rotate_left; subst x) | (refine State.Only.have2 x (fun hx => ?_) ?_; clear_value x; rotate_left; subst x) | (refine Dev.Only.have1 x (fun hx => ?_) ?_; clear_value x; rotate_left; subst x) | clear_value x)
    | with_reducible exact Dev.Only.refl _ _ _
    | with_reducible exact State.Only.refl _ _ _
    | (with_reducible apply State.Only.dev; with_reducible assumption)
    | with_reducible apply Out.Only.act
    | with_reducible apply Out.Only.next
    | with_reducible apply Dev.Only.step (Dev.enterUp_only _ _ _)
    | with_reducible apply Dev.Only.step (Dev.raise_only _ _ _)
    | with_reducible apply Dev.Only.step (Dev.laneTo_only _ _ _)
    | with_reducible apply Dev.Only.wr
    | split
    | with_reducible apply State.Only.mkDev)

theorem Dev.headValid_only (x0 : Dev) (x1 : Nat) :
    Dev.Only 0x14088804100 0x2000000000000000000000000000000000000000000000000000000008000000000000000000000000003001800000000000000000008040 x0 (Dev.headValid x0 x1) := by
  unfold Dev.headValid
  repeat' (first
    | with_reducible assumption
    | exact rfl
    | (extract_lets +onlyGivenNames x; first | (refine Dev.Only.have1 x (fun hx => ?_) ?_; clear_value x; rotate_left; subst x)  | (refine Dev.Only.have1 x.1 (fun hx => ?_) ?_; clear_value x; rotate_left; subst x) | (refine Dev.Only.have1 x.2 (fun hx => ?_) ?_; clear_value x; rotate_left; subst x) | (refine Dev.Only.fun1 x ?_; subst x; try dsimp -zeta only) | clear_value x)
    | with_reducible exact Dev.Only.refl _ _ _
    | with_reducible apply Dev.Only.step (Dev.updLane_only _ _ _)
    | with_reducible apply Dev.Only.step (Dev.loadDrops_only _ _)
    | with_reducible apply Dev.Only.step (Dev.raise_only _ _ _)
    | with_reducible apply Dev.Only.step (Dev.rebuildRods_only _ _)
    | with_reducible apply Dev.Only.wr
    | split)

theorem Dev.headRead_only (x0 : Dev) (x1 : Nat) :
    Dev.Only 0x1408b806700 0x200000000000000000000000000000000000000000201f14031f000018e00000000000000000000000003001800000000000000000008040 x0 (Dev.headRead x0 x1) := by
  unfold Dev.headRead
  repeat' (first
    | with_reducible assumption
    | exact rfl
    | (extract_lets +onlyGivenNames x; first | (refine Dev.Only.have1 x (fun hx => ?_) ?_; clear_value x; rotate_left; subst x)  | (refine Dev.Only.have1 x.1 (fun hx => ?_) ?_; clear_value x; rotate_left; subst x) | (refine Dev.Only.have1 x.2 (fun hx => ?_) ?_; clear_value x; rotate_left; subst x) | (refine Dev.Only.fun1 x ?_; subst x; try dsimp -zeta only) | clear_value x)
    | with_reducible exact Dev.Only.refl _ _ _
    | with_reducible apply Dev.Only.step (Dev.headValid_only _ _)
    | with_reducible apply Dev.Only.step (Dev.updLane_only _ _ _)
    | with_reducible apply Dev.Only.step (Dev.raise_only _ _ _)
    | with_reducible apply Dev.Only.step (Dev.loseLane_only _ _ _ _)
    | with_reducible apply Dev.Only.wr
    | (with_reducible apply Dev.Only.of_fst; assumption)
    | split)

theorem Dev.eeRead_only (x0 : Dev) (x1 : Nat) (x2 : Nat) (x3 : List Byte) :
    Dev.Only 0x1408b806700 0x200000000000000000000000000000000000000000201f14031f000018e00000000000000000000000003001800000000000000000008040 x0 (Dev.eeRead x0 x1 x2 x3) := by
  unfold Dev.eeRead
  repeat' (first
    | with_reducible assumption
    | exact rfl
    | (extract_lets +onlyGivenNames x; first | (refine Dev.Only.have1 x (fun hx => ?_) ?_; clear_value x; rotate_left; subst x) | clear_value x)
    | with_reducible exact Dev.Only.refl _ _ _
    | with_reducible apply Dev.Only.step (Dev.headRead_only _ _)
    | with_reducible apply Dev.Only.step (Dev.readHead_only _ _)
    | with_reducible apply Dev.Only.step (Dev.updLane_only _ _ _)
    | split)

theorem Dev.rxFrame_only (x0 : Dev) (x1 : Nat) :
    Dev.Only 0x800000 0 x0 (Dev.rxFrame x0 x1) := by
  unfold Dev.rxFrame
  repeat' (first
    | with_reducible assumption
    | exact rfl
    | (extract_lets +onlyGivenNames x; first | (refine Dev.Only.have1 x (fun hx => ?_) ?_; clear_value x; rotate_left; subst x)  | (refine Dev.Only.have1 x.1 (fun hx => ?_) ?_; clear_value x; rotate_left; subst x) | (refine Dev.Only.have1 x.2 (fun hx => ?_) ?_; clear_value x; rotate_left; subst x) | (refine Dev.Only.fun1 x ?_; subst x; try dsimp -zeta only) | clear_value x)
    | with_reducible exact Dev.Only.refl _ _ _
    | with_reducible apply Dev.Only.step (Dev.updLane_only _ _ _)
    | split)

theorem execMgmtResponse_only (x0 : LaneNo) (x1 : MgmtResp) (x2 : State) :
    Out.Only 0x1408b806700 0x200000000000000000000000000000000000000000201f14031f000018e00000000000000000000000003001800000000000000000008040 x2 (execMgmtResponse x0 x1 x2) := by
  unfold execMgmtResponse
  repeat' (first
    | with_reducible assumption
    | exact rfl
    | (extract_lets +onlyGivenNames x; first | (refine Out.Only.have1 x (fun hx => ?_) ?_; clear_value x; rotate_left; subst x) | (refine Out.Only.have2 x (fun hx => ?_) ?_; clear_value x; rotate_left; subst x)  | (refine State.Only.have1 x (fun hx => ?_) ?_; clear_value x; rotate_left; subst x) | (refine State.Only.have2 x (fun hx => ?_) ?_; clear_value x; rotate_left; subst x) | (refine Dev.Only.have1 x (fun hx => ?_) ?_; clear_value x; rotate_left; subst x) | clear_value x)
    | with_reducible exact Dev.Only.refl _ _ _
    | with_reducible exact State.Only.refl _ _ _
    | (with_reducible apply State.Only.dev; with_reducible assumption)
    | with_reducible apply Out.Only.act
    | with_reducible apply Out.Only.next
    | with_reducible apply Dev.Only.step (Dev.rxFrame_only _ _)
    | with_reducible apply Dev.Only.step (Dev.updLane_only _ _ _)
    | with_reducible apply Dev.Only.step (Dev.eeRead_only _ _ _ _)
    | (with_reducible apply Dev.Only.of_fst; assumption)
    | split
    | with_reducible apply State.Only.mkDev)

theorem Dev.exchange_only (x0 : Dev) (x1 : Nat) (x2 : Nat) (x3 : Int) (x4 : Int) :
    Dev.Only 0x1408b802700 0x201f1403000001f0e00000000000000000000000000000000000000000000000008040 x0 (Dev.exchange x0 x1 x2 x3 x4) := by
  unfold Dev.exchange
  repeat' (first
    | with_reducible assumption
    | exact rfl
    | (extract_lets +onlyGivenNames x; first | (refine Dev.Only.have1 x (fun hx => ?_) ?_; clear_value x; rotate_left; subst x) | clear_value x)
    | with_reducible exact Dev.Only.refl _ _ _
    | with_reducible apply Dev.Only.step (Dev.laneTo_only _ _ _)
    | with_reducible apply Dev.Only.step (Dev.loseLane_only _ _ _ _)
    | with_reducible apply Dev.Only.step (Dev.raise_only _ _ _)
    | with_reducible apply Dev.Only.step (Dev.setTimed_only _ _ _)
    | with_reducible apply Dev.Only.step (Dev.updLane_only _ _ _)
    | with_reducible apply Dev.Only.wr
    | split)

theorem Dev.answerBeacon_only (x0 : Dev) (x1 : Nat) (x2 : StatusFrame) :
    Dev.Only 0x1408b802700 0x201f1403000001f0e00000000000000000000000000000000000000000000000008040 x0 (Dev.answerBeacon x0 x1 x2) := by
  unfold Dev.answerBeacon
  repeat' (first
    | with_reducible assumption
    | exact rfl
    | (extract_lets +onlyGivenNames x; first | (refine Dev.Only.have1 x (fun hx => ?_) ?_; clear_value x; rotate_left; subst x) | clear_value x)
    | with_reducible exact Dev.Only.refl _ _ _
    | with_reducible apply Dev.Only.step (Dev.exchange_only _ _ _ _ _)
    | with_reducible apply Dev.Only.step (Dev.updLane_only _ _ _)
    | split)

theorem Dev.resend_only (x0 : Dev) (x1 : Nat) (x2 : Nat) :
    Dev.Only 0x14080800100 0x20000000000000000000000000000000000000000000000000000008040 x0 (Dev.resend x0 x1 x2) := by
  unfold Dev.resend
  repeat' (first
    | with_reducible assumption
    | exact rfl
    | intro e
    | (extract_lets +onlyGivenNames x; first | (refine Dev.Only.have1 x (fun hx => ?_) ?_; clear_value x; rotate_left; subst x) | clear_value x)
    | with_reducible exact Dev.Only.refl _ _ _
    | with_reducible apply Dev.Only.step (Dev.raise_only _ _ _)
    | with_reducible apply Dev.Only.step (Dev.zlSend_only _ _ _)
    | with_reducible apply Dev.Only.addSat
    | with_reducible apply Dev.Only.forEach
    | split)

theorem Dev.statusFrame_only (x0 : Dev) (x1 : Nat) (x2 : StatusFrame) :
    Dev.Only 0x340cb802700 0x8000000000000000000000000000201f140300c201f4e00000000000000000000000000000000000000000000000008040 x0 (Dev.statusFrame x0 x1 x2) := by
  unfold Dev.statusFrame
  repeat' (first
    | with_reducible assumption
    | exact rfl
    | (extract_lets +onlyGivenNames x; first | (refine Dev.Only.have1 x (fun hx => ?_) ?_; clear_value x; rotate_left; subst x)  | (refine Dev.Only.have1 x.1 (fun hx => ?_) ?_; clear_value x; rotate_left; subst x) | (refine Dev.Only.have1 x.2 (fun hx => ?_) ?_; clear_value x; rotate_left; subst x) | (refine Dev.Only.fun1 x ?_; subst x; try dsimp -zeta only) | clear_value x)
    | with_reducible exact Dev.Only.refl _ _ _
    | with_reducible apply Dev.Only.step (Dev.updLane_only _ _ _)
    | with_reducible apply Dev.Only.step (Dev.rxFrame_only _ _)
    | with_reducible apply Dev.Only.step (Dev.thermReading_only _ _ _)
    | with_reducible apply Dev.Only.step (Dev.raise_only _ _ _)
    | with_reducible apply Dev.Only.step (Dev.resend_only _ _ _)
    | with_reducible apply Dev.Only.step (Dev.answerBeacon_only _ _ _)
    | with_reducible apply Dev.Only.wr
    | split)

theorem execStatusFrame_only (x0 : LaneNo) (x1 : StatusFrame) (x2 : State) :
    Out.Only 0x340cb802700 0x8000000000000000000000000000201f140300c201f4e00000000000000000000000000000000000000000000000008040 x2 (execStatusFrame x0 x1 x2) := by
  unfold execStatusFrame
  repeat' (first
    | with_reducible assumption
    | exact rfl
    | with_reducible exact Dev.Only.refl _ _ _
    | with_reducible exact State.Only.refl _ _ _
    | (with_reducible apply State.Only.dev; with_reducible assumption)
    | with_reducible apply Out.Only.act
    | with_reducible apply Out.Only.next
    | with_reducible apply Dev.Only.step (Dev.statusFrame_only _ _ _)
    | split
    | with_reducible apply State.Only.mkDev)

theorem execRxFrameError_only (x0 : LaneNo) (x1 : State) :
    Out.Only 0x14080800100 0x10000000000000000000000000000000000000000000000000000008040 x1 (execRxFrameError x0 x1) := by
  unfold execRxFrameError
  repeat' (first
    | with_reducible assumption
    | exact rfl
    | (extract_lets +onlyGivenNames x; first | (refine Out.Only.have1 x (fun hx => ?_) ?_; clear_value x; rotate_left; subst x) | (refine Out.Only.have2 x (fun hx => ?_) ?_; clear_value x; rotate_left; subst x)  | (refine State.Only.have1 x (fun hx => ?_) ?_; clear_value x; rotate_left; subst x) | (refine State.Only.have2 x (fun hx => ?_) ?_; clear_value x; rotate_left; subst x) | (refine Dev.Only.have1 x (fun hx => ?_) ?_; clear_value x; rotate_left; subst x) | clear_value x)
    | with_reducible exact Dev.Only.refl _ _ _
    | with_reducible exact State.Only.refl _ _ _
    | (with_reducible apply State.Only.dev; with_reducible assumption)
    | with_reducible apply Out.Only.act
    | with_reducible apply Out.Only.next
    | with_reducible apply Dev.Only.step (Dev.updLane_only _ _ _)
    | with_reducible apply Dev.Only.step (Dev.raise_only _ _ _)
    | with_reducible apply Dev.Only.step (Dev.sendMgmt_only _ _ _ _ _)
    | with_reducible apply Dev.Only.inc
    | split
    | with_reducible apply State.Only.mkDev)

theorem Dev.markFifo_only (x0 : Dev) (x1 : Nat) (x2 : FifoLine) (x3 : FifoLine → FifoLine) :
    Dev.Only 0x800000 0 x0 (Dev.markFifo x0 x1 x2 x3) := by
  unfold Dev.markFifo
  repeat' (first
    | exact rfl
    | with_reducible exact Dev.Only.refl _ _ _
    | with_reducible apply Dev.Only.step (Dev.updLane_only _ _ _))

theorem execDoseFrameSend_only (x0 : LaneNo) (x1 : Bool) (x2 : State) :
    Out.Only 0x1408b800100 0x201f140000000000000000000000000000000000000000000000000000000000008040 x2 (execDoseFrameSend x0 x1 x2) := by
  unfold execDoseFrameSend
  repeat' (first
    | exact rfl
    | (extract_lets +onlyGivenNames x; clear_value x)
    | with_reducible exact Dev.Only.refl _ _ _
    | with_reducible exact State.Only.refl _ _ _
    | with_reducible apply Out.Only.act
    | with_reducible apply Dev.Only.step (Dev.markFifo_only _ _ _ _)
    | with_reducible apply Dev.Only.step (Dev.spoilBarLine_only _ _ _ _ _)
    | with_reducible apply Dev.Only.step (Dev.zlSend_only _ _ _)
    | split)

theorem Dev.sendHeat_only (x0 : Dev) (x1 : Nat) :
    Dev.Only 0x10000800000 0x4000000000000000000000000000000000000000000000000000000000000000000000000000000000000000000000000000 x0 (Dev.sendHeat x0 x1) := by
  unfold Dev.sendHeat
  repeat' (first
    | with_reducible assumption
    | exact rfl
    | (extract_lets +onlyGivenNames x; first | (refine Dev.Only.have1 x (fun hx => ?_) ?_; clear_value x; rotate_left; subst x) | clear_value x)
    | with_reducible exact Dev.Only.refl _ _ _
    | with_reducible apply Dev.Only.step (Dev.updLane_only _ _ _)
    | with_reducible apply Dev.Only.step (Dev.zlSend_only _ _ _)
    | with_reducible apply Dev.Only.wr)

theorem execHeatPeriod_only (x0 : State) :
    Out.Only 0x10000800000 0x4000000000000000000000000000000000000000000000000000000000000000000000000000000000000000000000000000 x0 (execHeatPeriod x0) := by
  unfold execHeatPeriod
  repeat' (first
    | with_reducible assumption
    | exact rfl
    | intro e
    | with_reducible exact Dev.Only.refl _ _ _
    | with_reducible exact State.Only.refl _ _ _
    | with_reducible apply Out.Only.act
    | with_reducible apply Dev.Only.step (Dev.sendHeat_only _ _)
    | with_reducible apply Dev.Only.forEach
    | split)

theorem Dev.dropTally_only (x0 : Dev) (x1 : Nat) (x2 : TallyEnt) :
    Dev.Only 0x1000000 0 x0 (Dev.dropTally x0 x1 x2) := by
  unfold Dev.dropTally
  repeat' (first
    | exact rfl
    | (extract_lets +onlyGivenNames x; clear_value x)
    | with_reducible exact Dev.Only.refl _ _ _
    | with_reducible apply Dev.Only.with_integ)

theorem Dev.confirm_only (x0 : Dev) (x1 : Nat) (x2 : TallyEnt) :
    Dev.Only 0x1408b000100 0x201f040000000000000000000000000000000000000000000000000000000000008040 x0 (Dev.confirm x0 x1 x2) := by
  unfold Dev.confirm
  repeat' (first
    | exact rfl
    | (extract_lets +onlyGivenNames x; clear_value x)
    | with_reducible exact Dev.Only.refl _ _ _
    | with_reducible apply Dev.Only.step (Dev.settleLine_only _ _ _ _)
    | split)

theorem Dev.echoFail_only {c r : Nat} {d e : Dev} {n : Nat} {t : TallyEnt} {res : Nat} {f : Fld} {sp : SpReason}
    (hc : 0x1408b000100 &&& c = 0x1408b000100) (hr : 0x201f140000000000000000000000000000000000000000000000000000000000008040 &&& r = 0x201f140000000000000000000000000000000000000000000000000000000000008040) (hf : r.testBit f.ctorIdx = true) (h : Dev.Only c r d e) :
    Dev.Only c r d (e.echoFail n t res f sp) := by
  unfold Dev.echoFail
  exact Dev.Only.step (Dev.Only.mono (Dev.spoilHeadLine_only _ _ _ _ _ _) rfl rfl) hc hr
    (Dev.Only.step (Dev.Only.mono (Dev.raise_only _ _ _) rfl rfl) hc hr (h.inc _ _ _ hf))

theorem Dev.settleEcho_only (x0 : Dev) (x1 : Nat) (x2 : TallyEnt) (x3 : EchoFrame) :
    Dev.Only 0x1408b000100 0x201f140000340000000000000000000000000000000000000000000000000000008040 x0 (Dev.settleEcho x0 x1 x2 x3) := by
  unfold Dev.settleEcho
  repeat' (first
    | exact rfl
    | (extract_lets +onlyGivenNames x; clear_value x)
    | with_reducible exact Dev.Only.refl _ _ _
    | with_reducible apply Dev.Only.step (Dev.confirm_only _ _ _)
    | with_reducible apply Dev.echoFail_only
    | with_reducible apply Dev.Only.step (Dev.spoilHeadLine_only _ _ _ _ _ _)
    | split)

theorem execEchoFrame_only (x0 : LaneNo) (x1 : EchoFrame) (x2 : State) :
    Out.Only 0x1408b802700 0x201f140000340000000000000000000000000000000000000000000000000000008040 x2 (execEchoFrame x0 x1 x2) := by
  unfold execEchoFrame
  repeat' (first
    | with_reducible assumption
    | exact rfl
    | (extract_lets +onlyGivenNames x; first | (refine Out.Only.have1 x (fun hx => ?_) ?_; clear_value x; rotate_left; subst x) | (refine Out.Only.have2 x (fun hx => ?_) ?_; clear_value x; rotate_left; subst x)  | (refine State.Only.have1 x (fun hx => ?_) ?_; clear_value x; rotate_left; subst x) | (refine State.Only.have2 x (fun hx => ?_) ?_; clear_value x; rotate_left; subst x) | (refine Dev.Only.have1 x (fun hx => ?_) ?_; clear_value x; rotate_left; subst x) | clear_value x)
    | with_reducible exact Dev.Only.refl _ _ _
    | with_reducible exact State.Only.refl _ _ _
    | (with_reducible apply State.Only.dev; with_reducible assumption)
    | with_reducible apply Out.Only.act
    | with_reducible apply Out.Only.next
    | with_reducible apply Dev.Only.step (Dev.rxFrame_only _ _)
    | with_reducible apply Dev.Only.step (Dev.updLane_only _ _ _)
    | with_reducible apply Dev.Only.step (Dev.maybeDone_only _ _)
    | with_reducible apply Dev.Only.step (Dev.settleEcho_only _ _ _ _)
    | with_reducible apply Dev.Only.step (Dev.dropTally_only _ _ _)
    | (with_reducible apply Dev.Only.of_fst; assumption)
    | split
    | with_reducible apply State.Only.mkDev)

theorem execEchoTimeout_only (x0 : LaneNo) (x1 : U32) (x2 : U32) (x3 : State) :
    Out.Only 0x1408b002700 0x201f140000080000000000000000000000000000000000000000000000000000008040 x3 (execEchoTimeout x0 x1 x2 x3) := by
  unfold execEchoTimeout
  repeat' (first
    | with_reducible assumption
    | exact rfl
    | intro e
    | (extract_lets +onlyGivenNames x; first | (refine Out.Only.have1 x (fun hx => ?_) ?_; clear_value x; rotate_left; subst x) | (refine Out.Only.have2 x (fun hx => ?_) ?_; clear_value x; rotate_left; subst x)  | (refine State.Only.have1 x (fun hx => ?_) ?_; clear_value x; rotate_left; subst x) | (refine State.Only.have2 x (fun hx => ?_) ?_; clear_value x; rotate_left; subst x) | (refine Dev.Only.have1 x (fun hx => ?_) ?_; clear_value x; rotate_left; subst x) | clear_value x)
    | with_reducible exact Dev.Only.refl _ _ _
    | with_reducible exact State.Only.refl _ _ _
    | (with_reducible apply State.Only.dev; with_reducible assumption)
    | with_reducible apply Out.Only.act
    | with_reducible apply Out.Only.next
    | with_reducible apply Dev.Only.step (Dev.maybeDone_only _ _)
    | with_reducible apply Dev.echoFail_only
    | with_reducible apply Dev.Only.step (Dev.dropTally_only _ _ _)
    | (with_reducible apply Dev.Only.of_fst; assumption)
    | split
    | with_reducible apply State.Only.mkDev)

theorem Dev.enterSleep_only (x0 : Dev) (x1 : Nat) (x2 : Bool) (x3 : Bool) :
    Dev.Only 0x10000800000 0x300001610200000000000000000000000000000000000000000000000000000 x0 (Dev.enterSleep x0 x1 x2 x3) := by
  unfold Dev.enterSleep
  repeat' (first
    | with_reducible assumption
    | exact rfl
    | (extract_lets +onlyGivenNames x; first | (refine Dev.Only.have1 x (fun hx => ?_) ?_; clear_value x; rotate_left; subst x)  | (refine Dev.Only.have1 x.1 (fun hx => ?_) ?_; clear_value x; rotate_left; subst x) | (refine Dev.Only.have1 x.2 (fun hx => ?_) ?_; clear_value x; rotate_left; subst x) | (refine Dev.Only.fun1 x ?_; subst x; try dsimp -zeta only) | clear_value x)
    | with_reducible exact Dev.Only.refl _ _ _
    | with_reducible apply Dev.Only.step (Dev.sendMgmt_only _ _ _ _ _)
    | with_reducible apply Dev.Only.step (Dev.sendIdle_only _ _ _)
    | with_reducible apply Dev.Only.step (Dev.laneTo_only _ _ _)
    | with_reducible apply Dev.Only.wr
    | split)

theorem Dev.enterPark_only (x0 : Dev) (x1 : Nat) :
    Dev.Only 0x10000800000 0x300001810e00000000000000000000000000000000000000000000000000000 x0 (Dev.enterPark x0 x1) := by
  unfold Dev.enterPark
  repeat' (first
    | with_reducible assumption
    | exact rfl
    | (extract_lets +onlyGivenNames x; first | (refine Dev.Only.have1 x (fun hx => ?_) ?_; clear_value x; rotate_left; subst x)  | (refine Dev.Only.have1 x.1 (fun hx => ?_) ?_; clear_value x; rotate_left; subst x) | (refine Dev.Only.have1 x.2 (fun hx => ?_) ?_; clear_value x; rotate_left; subst x) | (refine Dev.Only.fun1 x ?_; subst x; try dsimp -zeta only) | clear_value x)
    | with_reducible exact Dev.Only.refl _ _ _
    | with_reducible apply Dev.Only.step (Dev.dropLock_only _ _)
    | with_reducible apply Dev.Only.step (Dev.sendIdle_only _ _ _)
    | with_reducible apply Dev.Only.step (Dev.sendMgmt_only _ _ _ _ _)
    | with_reducible apply Dev.Only.step (Dev.laneTo_only _ _ _)
    | with_reducible apply Dev.Only.wr
    | split)

theorem Dev.lpRequest_only (x0 : Dev) (x1 : Nat) (x2 : Bool) (x3 : Bool) (x4 : Bool) :
    Dev.Only 0x10000800000 0x300001e10e00000000000000000000000000000000000000000000000000000 x0 (Dev.lpRequest x0 x1 x2 x3 x4) := by
  unfold Dev.lpRequest
  repeat' (first
    | exact rfl
    | with_reducible exact Dev.Only.refl _ _ _
    | with_reducible apply Dev.Only.step (Dev.enterPark_only _ _)
    | with_reducible apply Dev.Only.step (Dev.enterSleep_only _ _ _ _)
    | split)

theorem execTxSleepRequest_only (x0 : Lvl) (x1 : LaneNo) (x2 : State) :
    Out.Only 0x14080800100 0x300001e10e00000000000000000000000000000000000000fc00000001f8040 x2 (execTxSleepRequest x0 x1 x2) := by
  unfold execTxSleepRequest
  repeat' (first
    | with_reducible assumption
    | exact rfl
    | intro e
    | with_reducible exact Dev.Only.refl _ _ _
    | with_reducible exact State.Only.refl _ _ _
    | with_reducible apply Out.Only.act
    | with_reducible apply Dev.Only.step (Dev.lpRequest_only _ _ _ _ _)
    | with_reducible apply Dev.ownWrite_only)

theorem execRxSleepRequest_only (x0 : Lvl) (x1 : LaneNo) (x2 : State) :
    Out.Only 0x14080800100 0x300001e10e00000000000000000000000000000000000000fc00000001f8040 x2 (execRxSleepRequest x0 x1 x2) := by
  unfold execRxSleepRequest
  repeat' (first
    | with_reducible assumption
    | exact rfl
    | intro e
    | with_reducible exact Dev.Only.refl _ _ _
    | with_reducible exact State.Only.refl _ _ _
    | with_reducible apply Out.Only.act
    | with_reducible apply Dev.Only.step (Dev.lpRequest_only _ _ _ _ _)
    | with_reducible apply Dev.ownWrite_only)

theorem execParkRequest_only (x0 : Lvl) (x1 : LaneNo) (x2 : State) :
    Out.Only 0x14080800100 0x300001e10e00000000000000000000000000000000000000fc00000001f8040 x2 (execParkRequest x0 x1 x2) := by
  unfold execParkRequest
  repeat' (first
    | with_reducible assumption
    | exact rfl
    | intro e
    | with_reducible exact Dev.Only.refl _ _ _
    | with_reducible exact State.Only.refl _ _ _
    | with_reducible apply Out.Only.act
    | with_reducible apply Dev.Only.step (Dev.lpRequest_only _ _ _ _ _)
    | with_reducible apply Dev.ownWrite_only)

theorem Dev.askWake_only (x0 : Dev) (x1 : Nat) :
    Dev.Only 0x10000800000 0 x0 (Dev.askWake x0 x1) := by
  unfold Dev.askWake
  repeat' (first
    | with_reducible assumption
    | exact rfl
    | (extract_lets +onlyGivenNames x; first | (refine Dev.Only.have1 x (fun hx => ?_) ?_; clear_value x; rotate_left; subst x)  | (refine Dev.Only.have1 x.1 (fun hx => ?_) ?_; clear_value x; rotate_left; subst x) | (refine Dev.Only.have1 x.2 (fun hx => ?_) ?_; clear_value x; rotate_left; subst x) | (refine Dev.Only.fun1 x ?_; subst x; try dsimp -zeta only) | clear_value x)
    | with_reducible exact Dev.Only.refl _ _ _
    | with_reducible apply Dev.Only.step (Dev.sendIdle_only _ _ _)
    | with_reducible apply Dev.Only.step (Dev.sendMgmt_only _ _ _ _ _)
    | split)

theorem execLaneWake_only (x0 : LaneNo) (x1 : State) :
    Out.Only 0x14080800100 0xf01001e18e00000000000000000000000000000000000000000000000008040 x1 (execLaneWake x0 x1) := by
  unfold execLaneWake
  repeat' (first
    | with_reducible assumption
    | exact rfl
    | (extract_lets +onlyGivenNames x; first | (refine Out.Only.have1 x (fun hx => ?_) ?_; clear_value x; rotate_left; subst x) | (refine Out.Only.have2 x (fun hx => ?_) ?_; clear_value x; rotate_left; subst x)  | (refine State.Only.have1 x (fun hx => ?_) ?_; clear_value x; rotate_left; subst x) | (refine State.Only.have2 x (fun hx => ?_) ?_; clear_value x; rotate_left; subst x) | (refine Dev.Only.have1 x (fun hx => ?_) ?_; clear_value x; rotate_left; subst x) | clear_value x)
    | with_reducible exact Dev.Only.refl _ _ _
    | with_reducible exact State.Only.refl _ _ _
    | (with_reducible apply State.Only.dev; with_reducible assumption)
    | with_reducible apply Out.Only.act
    | with_reducible apply Out.Only.next
    | with_reducible apply Dev.Only.step (Dev.enterUp_only _ _ _)
    | with_reducible apply Dev.Only.wr
    | split
    | with_reducible apply State.Only.mkDev)

theorem Dev.leaveLoop_only (x0 : Dev) (x1 : Nat) :
    Dev.Only 0x1408b802700 0x201f140300002012e00000000000000000000000000000000000000000000000008040 x0 (Dev.leaveLoop x0 x1) := by
  unfold Dev.leaveLoop
  repeat' (first
    | with_reducible assumption
    | exact rfl
    | (extract_lets +onlyGivenNames x; first | (refine Dev.Only.have1 x (fun hx => ?_) ?_; clear_value x; rotate_left; subst x)  | (refine Dev.Only.have1 x.1 (fun hx => ?_) ?_; clear_value x; rotate_left; subst x) | (refine Dev.Only.have1 x.2 (fun hx => ?_) ?_; clear_value x; rotate_left; subst x) | (refine Dev.Only.fun1 x ?_; subst x; try dsimp -zeta only) | clear_value x)
    | with_reducible exact Dev.Only.refl _ _ _
    | with_reducible apply Dev.Only.step (Dev.sendMgmt_only _ _ _ _ _)
    | with_reducible apply Dev.Only.step (Dev.loseLane_only _ _ _ _)
    | with_reducible apply Dev.Only.wr
    | split)

theorem Dev.enterLoop_only (x0 : Dev) (x1 : Nat) (x2 : Nat) :
    Dev.Only 0x10000800000 0x2002000000000000000000000000000000000000000000000000000000 x0 (Dev.enterLoop x0 x1 x2) := by
  unfold Dev.enterLoop
  repeat' (first
    | with_reducible assumption
    | exact rfl
    | (extract_lets +onlyGivenNames x; first | (refine Dev.Only.have1 x (fun hx => ?_) ?_; clear_value x; rotate_left; subst x)  | (refine Dev.Only.have1 x.1 (fun hx => ?_) ?_; clear_value x; rotate_left; subst x) | (refine Dev.Only.have1 x.2 (fun hx => ?_) ?_; clear_value x; rotate_left; subst x) | (refine Dev.Only.fun1 x ?_; subst x; try dsimp -zeta only) | clear_value x)
    | with_reducible exact Dev.Only.refl _ _ _
    | with_reducible apply Dev.Only.step (Dev.sendMgmt_only _ _ _ _ _)
    | with_reducible apply Dev.Only.wr
    | split)

theorem Dev.loopMode_only (x0 : Dev) (x1 : Nat) (x2 : Nat) :
    Dev.Only 0x1408b802700 0x201f140300002012e00000000000000000000000000000000000000000000000008040 x0 (Dev.loopMode x0 x1 x2) := by
  unfold Dev.loopMode
  repeat' (first
    | with_reducible assumption
    | exact rfl
    | with_reducible exact Dev.Only.refl _ _ _
    | with_reducible apply Dev.Only.step (Dev.leaveLoop_only _ _)
    | with_reducible apply Dev.Only.step (Dev.enterLoop_only _ _ _)
    | split)

theorem execLoopModeWrite_only (x0 : Lvl) (x1 : LaneNo) (x2 : Fin 4) (x3 : State) :
    Out.Only 0x1408b802700 0x201f140300002012e00000000000000000000000000000000000000fc00000001f8040 x3 (execLoopModeWrite x0 x1 x2 x3) := by
  unfold execLoopModeWrite
  repeat' (first
    | with_reducible assumption
    | exact rfl
    | intro e
    | with_reducible exact Dev.Only.refl _ _ _
    | with_reducible exact State.Only.refl _ _ _
    | with_reducible apply Out.Only.act
    | with_reducible apply Dev.Only.step (Dev.loopMode_only _ _ _)
    | with_reducible apply Dev.ownWrite_only)

theorem Dev.loopTest_only (x0 : Dev) (x1 : Nat) (x2 : Nat) :
    Dev.Only 0x30000800000 0xc000000000000000000000000000000000000000000000000000000000 x0 (Dev.loopTest x0 x1 x2) := by
  unfold Dev.loopTest
  repeat' (first
    | with_reducible assumption
    | exact rfl
    | (extract_lets +onlyGivenNames x; first | (refine Dev.Only.have1 x (fun hx => ?_) ?_; clear_value x; rotate_left; subst x)  | (refine Dev.Only.have1 x.1 (fun hx => ?_) ?_; clear_value x; rotate_left; subst x) | (refine Dev.Only.have1 x.2 (fun hx => ?_) ?_; clear_value x; rotate_left; subst x) | (refine Dev.Only.fun1 x ?_; subst x; try dsimp -zeta only) | clear_value x)
    | with_reducible exact Dev.Only.refl _ _ _
    | with_reducible apply Dev.Only.step (Dev.free_only _ _)
    | with_reducible apply Dev.Only.step (Dev.sendMgmt_only _ _ _ _ _)
    | with_reducible apply Dev.Only.wr
    | with_reducible apply Dev.Only.addSat
    | (with_reducible apply Dev.Only.of_fst; assumption)
    | split)

theorem execLoopTest_only (x0 : Lvl) (x1 : LaneNo) (x2 : U32) (x3 : State) :
    Out.Only 0x34080800100 0xc000000000000000000000000000000000000000000fc00000001f8040 x3 (execLoopTest x0 x1 x2 x3) := by
  unfold execLoopTest
  repeat' (first
    | with_reducible assumption
    | exact rfl
    | intro e
    | with_reducible exact Dev.Only.refl _ _ _
    | with_reducible exact State.Only.refl _ _ _
    | with_reducible apply Out.Only.act
    | with_reducible apply Dev.Only.step (Dev.loopTest_only _ _ _)
    | with_reducible apply Dev.ownWrite_only)

/-! ### Time -/

theorem Dev.updPtp_only (x0 : Dev) (x1 : Ptp → Ptp) :
    Dev.Only 0x1000000000 0 x0 (Dev.updPtp x0 x1) := by
  unfold Dev.updPtp
  repeat' (first
    | exact rfl
    | with_reducible exact Dev.Only.refl _ _ _
    | with_reducible apply Dev.Only.with_ptp)

theorem Dev.ptpUnlock_only (x0 : Dev) (x1 : Nat) :
    Dev.Only 0x15080000104 0x2000000400000000000000000000000000000000000000000000000000000000000000000000000000000000000000000000000000000000000000000000000008040 x0 (Dev.ptpUnlock x0 x1) := by
  unfold Dev.ptpUnlock
  repeat' (first
    | with_reducible assumption
    | exact rfl
    | (extract_lets +onlyGivenNames x; first | (refine Dev.Only.have1 x (fun hx => ?_) ?_; clear_value x; rotate_left; subst x) | clear_value x)
    | with_reducible exact Dev.Only.refl _ _ _
    | with_reducible apply Dev.Only.step (Dev.raise_only _ _ _)
    | with_reducible apply Dev.Only.step (Dev.updPtp_only _ _)
    | with_reducible apply Dev.Only.wr
    | split
    | with_reducible apply Dev.Only.with_tb)

theorem Dev.ptpLock_only (x0 : Dev) (x1 : Int) :
    Dev.Only 0x14080000104 0x3000000400000000000000000000000000000000000000000000000000000000000000000000000000000000000000000000000000000000000000000000000008040 x0 (Dev.ptpLock x0 x1) := by
  unfold Dev.ptpLock
  repeat' (first
    | with_reducible assumption
    | exact rfl
    | (extract_lets +onlyGivenNames x; first | (refine Dev.Only.have1 x (fun hx => ?_) ?_; clear_value x; rotate_left; subst x) | clear_value x)
    | with_reducible exact Dev.Only.refl _ _ _
    | with_reducible apply Dev.Only.step (Dev.raise_only _ _ _)
    | with_reducible apply Dev.Only.wr
    | with_reducible apply Dev.Only.with_tb)

theorem Dev.servoRate_only (x0 : Dev) :
    Dev.Only 0x21000000004 0x8000000000000000000000000000000000000000000000000000000000000000000000000000000000000000000000000000000000000000000000000000000 x0 (Dev.servoRate x0) := by
  unfold Dev.servoRate
  repeat' (first
    | with_reducible assumption
    | exact rfl
    | (extract_lets +onlyGivenNames x; first | (refine Dev.Only.have1 x (fun hx => ?_) ?_; clear_value x; rotate_left; subst x) | clear_value x)
    | with_reducible exact Dev.Only.refl _ _ _
    | with_reducible apply Dev.Only.step (Dev.free_only _ _)
    | with_reducible apply Dev.Only.step (Dev.updPtp_only _ _)
    | with_reducible apply Dev.Only.wr
    | split
    | (with_reducible apply Dev.Only.of_snd; assumption)
    | with_reducible apply Dev.Only.with_tb)

theorem Dev.stepMain_only (x0 : Dev) (x1 : Int) :
    Dev.Only 0x4 0 x0 (Dev.stepMain x0 x1) := by
  unfold Dev.stepMain
  repeat' (first
    | exact rfl
    | (extract_lets +onlyGivenNames x; clear_value x)
    | with_reducible exact Dev.Only.refl _ _ _
    | split
    | with_reducible apply Dev.Only.with_tb)

theorem Dev.ptpSync_only (x0 : Dev) (x1 : Nat) (x2 : Int) (x3 : Nat) :
    Dev.Only 0x35080000104 0x33000008400000000000000000000000000000000000000000000000000000000000000000000000000000000000000000000000000000000000000000000000008040 x0 (Dev.ptpSync x0 x1 x2 x3) := by
  unfold Dev.ptpSync
  repeat' (first
    | with_reducible assumption
    | exact rfl
    | (extract_lets +onlyGivenNames x; first | (refine Dev.Only.have1 x (fun hx => ?_) ?_; clear_value x; rotate_left; subst x) | subst x)
    | with_reducible exact Dev.Only.refl _ _ _
    | with_reducible apply Dev.Only.step (Dev.ptpLock_only _ _)
    | with_reducible apply Dev.Only.step (Dev.ptpUnlock_only _ _)
    | with_reducible apply Dev.Only.step (Dev.servoRate_only _)
    | with_reducible apply Dev.Only.step (Dev.stepMain_only _ _)
    | with_reducible apply Dev.Only.step (Dev.updPtp_only _ _)
    | with_reducible apply Dev.Only.wr
    | split)

theorem execPtpSync_only (x0 : Fin 3) (x1 : U64) (x2 : U32) (x3 : State) :
    Out.Only 0x35080000104 0x33000008400000000000000000000000000000000000000000000000000000000000000000000000000000000000000000000000000000000000000000000000008040 x3 (execPtpSync x0 x1 x2 x3) := by
  unfold execPtpSync
  repeat' (first
    | exact rfl
    | with_reducible exact Dev.Only.refl _ _ _
    | with_reducible exact State.Only.refl _ _ _
    | with_reducible apply Out.Only.act
    | with_reducible apply Dev.Only.step (Dev.ptpSync_only _ _ _ _))

theorem Dev.setServed_only (x0 : Dev) (x1 : Bool) :
    Dev.Only 0x1000000000 0 x0 (Dev.setServed x0 x1) := by
  unfold Dev.setServed
  repeat' (first
    | with_reducible assumption
    | exact rfl
    | (extract_lets +onlyGivenNames x; first | (refine Dev.Only.have1 x (fun hx => ?_) ?_; clear_value x; rotate_left; subst x)  | (refine Dev.Only.have1 x.1 (fun hx => ?_) ?_; clear_value x; rotate_left; subst x) | (refine Dev.Only.have1 x.2 (fun hx => ?_) ?_; clear_value x; rotate_left; subst x) | (refine Dev.Only.fun1 x ?_; subst x; try dsimp -zeta only) | clear_value x)
    | with_reducible exact Dev.Only.refl _ _ _
    | with_reducible apply Dev.Only.step (Dev.updPtp_only _ _)
    | split)

theorem execAnnounceTimeout_only (x0 : State) :
    Out.Only 0x15080000104 0x3000000400000000000000000000000000000000000000000000000000000000000000000000000000000000000000000000000000000000000000000000000008040 x0 (execAnnounceTimeout x0) := by
  unfold execAnnounceTimeout
  repeat' (first
    | with_reducible assumption
    | exact rfl
    | (extract_lets +onlyGivenNames x; first | (refine Out.Only.have1 x (fun hx => ?_) ?_; clear_value x; rotate_left; subst x) | (refine Out.Only.have2 x (fun hx => ?_) ?_; clear_value x; rotate_left; subst x)  | (refine State.Only.have1 x (fun hx => ?_) ?_; clear_value x; rotate_left; subst x) | (refine State.Only.have2 x (fun hx => ?_) ?_; clear_value x; rotate_left; subst x) | (refine Dev.Only.have1 x (fun hx => ?_) ?_; clear_value x; rotate_left; subst x) | clear_value x)
    | with_reducible exact Dev.Only.refl _ _ _
    | with_reducible exact State.Only.refl _ _ _
    | (with_reducible apply State.Only.dev; with_reducible assumption)
    | with_reducible apply Out.Only.act
    | with_reducible apply Out.Only.next
    | with_reducible apply Dev.Only.step (Dev.updPtp_only _ _)
    | with_reducible apply Dev.Only.step (Dev.ptpUnlock_only _ _)
    | with_reducible apply Dev.Only.step (Dev.setServed_only _ _)
    | with_reducible apply Dev.Only.wr
    | split
    | with_reducible apply State.Only.mkDev)

theorem Dev.setMaster_only (x0 : Dev) (x1 : Option Nat) :
    Dev.Only 0x15080000104 0xa000000400000000000000000000000000000000000000000000000000000000000000000000000000000000000000000000000000000000000000000000000008040 x0 (Dev.setMaster x0 x1) := by
  unfold Dev.setMaster
  repeat' (first
    | exact rfl
    | with_reducible exact Dev.Only.refl _ _ _
    | with_reducible apply Dev.Only.step (Dev.ptpUnlock_only _ _)
    | with_reducible apply Dev.Only.step (Dev.updPtp_only _ _)
    | with_reducible apply Dev.Only.inc
    | split)

theorem Dev.ptpAnnounce_only (x0 : Dev) (x1 : Nat) (x2 : BestMaster) :
    Dev.Only 0x15080000104 0xb000000400000000000000000000000000000000000000000000000000000000000000000000000000000000000000000000000000000000000000000000000008040 x0 (Dev.ptpAnnounce x0 x1 x2) := by
  unfold Dev.ptpAnnounce
  repeat' (first
    | with_reducible assumption
    | exact rfl
    | (extract_lets +onlyGivenNames x; first | (refine Dev.Only.have1 x (fun hx => ?_) ?_; clear_value x; rotate_left; subst x)  | (refine Dev.Only.have1 x.1 (fun hx => ?_) ?_; clear_value x; rotate_left; subst x) | (refine Dev.Only.have1 x.2 (fun hx => ?_) ?_; clear_value x; rotate_left; subst x) | (refine Dev.Only.fun1 x ?_; subst x; try dsimp -zeta only) | clear_value x)
    | with_reducible exact Dev.Only.refl _ _ _
    | with_reducible apply Dev.Only.step (Dev.setServed_only _ _)
    | with_reducible apply Dev.Only.step (Dev.updPtp_only _ _)
    | with_reducible apply Dev.Only.step (Dev.setMaster_only _ _)
    | with_reducible apply Dev.Only.wr
    | (with_reducible apply Dev.Only.of_fst; assumption)
    | split)

theorem execPtpAnnounce_only (x0 : Fin 3) (x1 : BestMaster) (x2 : State) :
    Out.Only 0x15080000104 0xb000000400000000000000000000000000000000000000000000000000000000000000000000000000000000000000000000000000000000000000000000000008040 x2 (execPtpAnnounce x0 x1 x2) := by
  unfold execPtpAnnounce
  repeat' (first
    | exact rfl
    | with_reducible exact Dev.Only.refl _ _ _
    | with_reducible exact State.Only.refl _ _ _
    | with_reducible apply Out.Only.act
    | with_reducible apply Dev.Only.step (Dev.ptpAnnounce_only _ _ _))

theorem execPtpSyncInterval_only (x0 : State) :
    Out.Only 0x11000000000 0x1000000000000000000000000000000000000000000000000000000000000000000000000000000000000000000000000000000000000000000000000000000000000 x0 (execPtpSyncInterval x0) := by
  unfold execPtpSyncInterval
  repeat' (first
    | with_reducible assumption
    | exact rfl
    | (extract_lets +onlyGivenNames x; (refine Dev.Only.have1 x (fun hx => ?_) ?_; clear_value x; rotate_left; subst x))
    | with_reducible exact Dev.Only.refl _ _ _
    | with_reducible exact State.Only.refl _ _ _
    | with_reducible apply Out.Only.act
    | with_reducible apply Dev.Only.step (Dev.emit_only _ _)
    | with_reducible apply Dev.Only.step (Dev.updPtp_only _ _)
    | with_reducible apply Dev.Only.wr
    | split)

theorem execTbFallback_only (x0 : State) :
    Out.Only 0x14080000104 0x30600000000000000000000000000000000000000000000000000000000000000000000000000000000000000000000000000000000000000000000000008040 x0 (execTbFallback x0) := by
  unfold execTbFallback
  repeat' (first
    | with_reducible assumption
    | exact rfl
    | (extract_lets +onlyGivenNames x; first | (refine Out.Only.have1 x (fun hx => ?_) ?_; clear_value x; rotate_left; subst x) | (refine Out.Only.have2 x (fun hx => ?_) ?_; clear_value x; rotate_left; subst x)  | (refine State.Only.have1 x (fun hx => ?_) ?_; clear_value x; rotate_left; subst x) | (refine State.Only.have2 x (fun hx => ?_) ?_; clear_value x; rotate_left; subst x) | (refine Dev.Only.have1 x (fun hx => ?_) ?_; clear_value x; rotate_left; subst x) | clear_value x)
    | with_reducible exact Dev.Only.refl _ _ _
    | with_reducible exact State.Only.refl _ _ _
    | (with_reducible apply State.Only.dev; with_reducible assumption)
    | with_reducible apply Out.Only.act
    | with_reducible apply Out.Only.next
    | with_reducible apply Dev.Only.step (Dev.raise_only _ _ _)
    | with_reducible apply Dev.Only.wr
    | split
    | with_reducible apply Dev.Only.with_tb
    | with_reducible apply State.Only.mkDev)

theorem Dev.tbMain_only (x0 : Dev) :
    Dev.Only 0x14080000104 0x8200000000000000000000000000000000000000000000000000000000000000000000000000000000000000000000000000000000000000000000000008040 x0 (Dev.tbMain x0) := by
  unfold Dev.tbMain
  repeat' (first
    | with_reducible assumption
    | exact rfl
    | (extract_lets +onlyGivenNames x; first | (refine Dev.Only.have1 x (fun hx => ?_) ?_; clear_value x; rotate_left; subst x) | clear_value x)
    | with_reducible exact Dev.Only.refl _ _ _
    | with_reducible apply Dev.Only.step (Dev.raise_only _ _ _)
    | with_reducible apply Dev.Only.step (Dev.toMain_only _ _)
    | split
    | with_reducible apply Dev.Only.with_tb)

theorem execTbMain_only (x0 : State) :
    Out.Only 0x14080000104 0x8200000000000000000000000000000000000000000000000000000000000000000000000000000000000000000000000000000000000000000000000008040 x0 (execTbMain x0) := by
  unfold execTbMain
  repeat' (first
    | with_reducible assumption
    | exact rfl
    | with_reducible exact Dev.Only.refl _ _ _
    | with_reducible exact State.Only.refl _ _ _
    | (with_reducible apply State.Only.dev; with_reducible assumption)
    | with_reducible apply Out.Only.act
    | with_reducible apply Out.Only.next
    | with_reducible apply Dev.Only.step (Dev.tbMain_only _)
    | split
    | with_reducible apply State.Only.mkDev)

theorem execMgmtPtpFallback_only (x0 : State) :
    Out.Only 0x15080000104 0xe000000400000000000000000000000000000000000000000000000000000000000000000000000000000000000000000000000000000000000000000000000008040 x0 (execMgmtPtpFallback x0) := by
  unfold execMgmtPtpFallback
  repeat' (first
    | with_reducible assumption
    | exact rfl
    | with_reducible exact Dev.Only.refl _ _ _
    | with_reducible exact State.Only.refl _ _ _
    | (with_reducible apply State.Only.dev; with_reducible assumption)
    | with_reducible apply Out.Only.act
    | with_reducible apply Out.Only.next
    | with_reducible apply Dev.Only.step (Dev.setMaster_only _ _)
    | with_reducible apply Dev.Only.wr
    | split
    | with_reducible apply State.Only.mkDev)

theorem execMgmtPtpReturn_only (x0 : State) :
    Out.Only 0x15080000104 0xe000000400000000000000000000000000000000000000000000000000000000000000000000000000000000000000000000000000000000000000000000000008040 x0 (execMgmtPtpReturn x0) := by
  unfold execMgmtPtpReturn
  repeat' (first
    | with_reducible assumption
    | exact rfl
    | with_reducible exact Dev.Only.refl _ _ _
    | with_reducible exact State.Only.refl _ _ _
    | (with_reducible apply State.Only.dev; with_reducible assumption)
    | with_reducible apply Out.Only.act
    | with_reducible apply Out.Only.next
    | with_reducible apply Dev.Only.step (Dev.setMaster_only _ _)
    | with_reducible apply Dev.Only.wr
    | split
    | with_reducible apply State.Only.mkDev)

theorem Dev.compensate_only (x0 : Dev) :
    Dev.Only 0x4 0x30000000000000000000000000000000000000000000000000000000000000000000000000000000000000000000000000000000000000000000000000000000 x0 (Dev.compensate x0) := by
  unfold Dev.compensate
  repeat' (first
    | with_reducible assumption
    | exact rfl
    | (extract_lets +onlyGivenNames x; first | (refine Dev.Only.have1 x (fun hx => ?_) ?_; clear_value x; rotate_left; subst x) | clear_value x)
    | with_reducible exact Dev.Only.refl _ _ _
    | with_reducible apply Dev.Only.wr
    | split
    | with_reducible apply Dev.Only.with_tb)

/-! ### Power -/

theorem Dev.rd_filter (d : Dev) (p : Fld → Bool) (f : Fld) (i j : Nat) :
    Dev.rd { d with rf := d.rf.filter (fun e => p e.1.1) } f i j = if p f then d.rd f i j else (fldSpec f).reset :=
  Tab.get_filter (fldSpec f).reset d.rf (fun k => p k.1) (f, i, j)

theorem keptInReset_keeps (f : Fld) (h : Nat.testBit 0x1fffffffffffffffffffffffffffffffffffffffffffffffffffffffffffffffffffffffffffffffbfffffffffffffffffffffffffffffffffffffffffffffffff000000a00000 f.ctorIdx = false) : keptInReset f = true := by
  revert h
  cases f <;> decide

theorem Dev.resetDomains_only (x0 : Dev) : Dev.Only 0xfffffffffc 0x1fffffffffffffffffffffffffffffffffffffffffffffffffffffffffffffffffffffffffffffffbfffffffffffffffffffffffffffffffffffffffffffffffff000000a00000 x0 x0.resetDomains := by
  unfold Dev.resetDomains
  refine Dev.Only.wr _ _ _ _ rfl (Dev.Only.wr _ _ _ _ rfl ?_)
  refine ⟨fun p hp => by cases p <;> first | rfl | trivial | exact absurd hp (by decide), fun f hf i j => ?_, fun hd => ?_⟩
  · have := Dev.rd_filter x0 keptInReset f i j
    rw [if_pos (keptInReset_keeps f hf)] at this
    exact this
  · exact ⟨⟨Tab.wf_filter regLt regLt_order _ _ _ hd.1.1, fun x hx => hd.1.2 x (List.mem_filter.1 hx).1⟩, hd.2⟩

theorem Dev.keepInputs_only (x0 : Dev) (x1 : Dev) :
    Dev.Only 0 0x30000000000000000000000000000000000000000000000000000000000000000000000000000000000000000000000000000000000000000000000000010 x0 (Dev.keepInputs x0 x1) := by
  unfold Dev.keepInputs
  repeat' (first
    | exact rfl
    | (extract_lets +onlyGivenNames x; clear_value x)
    | with_reducible exact Dev.Only.refl _ _ _
    | with_reducible apply Dev.Only.wr)

theorem Dev.newBoot_only (x0 : Dev) :
    Dev.Only 0x4000000010 0xb0022008020 x0 (Dev.newBoot x0) := by
  unfold Dev.newBoot
  repeat' (first
    | with_reducible assumption
    | exact rfl
    | intro e
    | (extract_lets +onlyGivenNames x; first | (refine Dev.Only.have1 x (fun hx => ?_) ?_; clear_value x; rotate_left; subst x) | clear_value x)
    | with_reducible exact Dev.Only.refl _ _ _
    | with_reducible apply Dev.Only.wr
    | with_reducible apply Dev.Only.forEach
    | with_reducible apply Dev.Only.with_boot_evr)

theorem Dev.moduleReset_only (x0 : Dev) (x1 : Nat) (x2 : DState) :
    Dev.Only 0xfffffffffc 0x1fffffffffffffffffffffffffffffffffffffffffffffffffffffffffffffffffffffffffffffffbfffffffffffffffffffffffffffffffffffffffffffffffff0b0122a08038 x0 (Dev.moduleReset x0 x1 x2) := by
  unfold Dev.moduleReset
  repeat' (first
    | with_reducible assumption
    | exact rfl
    | (extract_lets +onlyGivenNames x; (refine Dev.Only.have1 x (fun hx => ?_) ?_; clear_value x; rotate_left; subst x))
    | with_reducible exact Dev.Only.refl _ _ _
    | with_reducible apply Dev.Only.step (Dev.keepInputs_only _ _)
    | with_reducible apply Dev.Only.step (Dev.newBoot_only _)
    | with_reducible apply Dev.Only.step (Dev.resetDomains_only _)
    | with_reducible apply Dev.Only.wr)

theorem State.moduleReset_only (x0 : State) (x1 : Nat) (x2 : DState) :
    State.Only 0x4fffffffffc 0x1fffffffffffffffffffffffffffffffffffffffffffffffffffffffffffffffffffffffffffffffbfffffffffffffffffffffffffffffffffffffffffffffffff0b0122a08038 x0 (State.moduleReset x0 x1 x2) := by
  unfold State.moduleReset
  repeat' (first
    | exact rfl
    | with_reducible exact Dev.Only.refl _ _ _
    | with_reducible exact State.Only.refl _ _ _
    | with_reducible apply Dev.Only.step (Dev.moduleReset_only _ _ _)
    | with_reducible apply State.Only.clear)

theorem execDebugReset_only (x0 : State) :
    Out.Only 0x4fffffffffc 0x1fffffffffffffffffffffffffffffffffffffffffffffffffffffffffffffffffffffffffffffffbfffffffffffffffffffffffffffffffffffffffffffffffff0b0122a08038 x0 (execDebugReset x0) := by
  unfold execDebugReset
  repeat' (first
    | exact rfl
    | with_reducible exact State.Only.refl _ _ _
    | with_reducible apply Out.Only.next
    | with_reducible apply State.Only.step (State.moduleReset_only _ _ _)
    | split)

theorem State.restartWrite_only (x0 : State) :
    State.Only 0x4fffffffffc 0x1fffffffffffffffffffffffffffffffffffffffffffffffffffffffffffffffffffffffffffffffbfffffffffffffffffffffffffffffffffffffffffffffffff0b0122a08038 x0 (State.restartWrite x0) := by
  unfold State.restartWrite
  repeat' (first
    | exact rfl
    | with_reducible exact State.Only.refl _ _ _
    | with_reducible apply State.Only.step (State.moduleReset_only _ _ _)
    | split)

theorem execCrRestart_only (x0 : Lvl) (x1 : State) :
    Out.Only 0x5fffffffffc 0x1fffffffffffffffffffffffffffffffffffffffffffffffffffffffffffffffffffffffffffffffbfffffffffffffffffffffffffffffffffffffffffffffffff0b0122a08078 x1 (execCrRestart x0 x1) := by
  unfold execCrRestart
  repeat' (first
    | exact rfl
    | with_reducible exact Dev.Only.refl _ _ _
    | with_reducible exact State.Only.refl _ _ _
    | with_reducible apply Out.Only.next
    | with_reducible apply Dev.Only.step (Dev.protRefuse_only _ _ _ _ _)
    | with_reducible apply State.Only.step (State.restartWrite_only _)
    | split
    | with_reducible apply State.Only.mkDev)

theorem execPowerGood_only (x0 : State) :
    Out.Only 0 0x8 x0 (execPowerGood x0) := by
  unfold execPowerGood
  repeat' (first
    | exact rfl
    | with_reducible exact Dev.Only.refl _ _ _
    | with_reducible exact State.Only.refl _ _ _
    | with_reducible apply Out.Only.act
    | with_reducible apply Dev.Only.wr
    | split)

theorem Dev.cutRecord_only (x0 : Dev) :
    Dev.Only 0x10000000002 0x400000000000 x0 (Dev.cutRecord x0) := by
  unfold Dev.cutRecord
  repeat' (first
    | with_reducible assumption
    | exact rfl
    | with_reducible exact Dev.Only.refl _ _ _
    | with_reducible apply Dev.Only.step (Dev.logPut_only _ _)
    | (with_reducible apply Dev.Only.of_fst; assumption)
    | split)

theorem execPowerOnReset_only (x0 : State) : Out.Only 0x5fffffffffe 0x1fffffffffffffffffffffffffffffffffffffffffffffffffffffffffffffffffffffffffffffffffffffffffffffffffffffffffffffffffffffffffffffffffffffffffffff x0 (execPowerOnReset x0) := by
  unfold execPowerOnReset
  extract_lets d r
  have hv : d.variant = x0.dev.variant ∧ d.freeCtr = x0.dev.freeCtr :=
    ⟨(Dev.cutRecord_only x0.dev).parts .variant rfl, (Dev.cutRecord_only x0.dev).parts .freeCtr rfl⟩
  refine Out.Only.next (State.Only.clear rfl (Dev.Only.wr _ _ _ _ rfl ?_) (State.Only.refl _ _ _))
  refine ⟨fun p hp => by cases p <;> first | exact hv.1 | exact hv.2 | trivial | exact absurd hp (by decide),
    fun f hf => (by rw [Fld.all_bit] at hf; cases hf), fun hd => ?_⟩
  have hn : d.Ok := by
    subst d
    exact (Dev.cutRecord_only _).ok hd
  exact ⟨⟨rfl, fun x hx => by cases hx⟩, hn.2⟩

theorem State.railsOff_only (x0 : State) :
    State.Only 0x5fffffffffe 0x1fffffffffffffffffffffffffffffffffffffffffffffffffffffffffffffffffffffffffffffffbfffffffffffffffffffffffffffffffffffffffffffffffff4b0126a08078 x0 (State.railsOff x0) := by
  unfold State.railsOff
  repeat' (first
    | with_reducible assumption
    | exact rfl
    | (extract_lets +onlyGivenNames x; first | (refine State.Only.have2 x (fun hx => ?_) ?_; clear_value x; rotate_left; subst x) | clear_value x)
    | with_reducible exact Dev.Only.refl _ _ _
    | with_reducible exact State.Only.refl _ _ _
    | with_reducible apply Dev.Only.step (Dev.cutRecord_only _)
    | with_reducible apply Dev.Only.step (Dev.spoilInFlight_only _ _ _)
    | with_reducible apply Dev.Only.step (Dev.stopFiring_only _)
    | with_reducible apply State.Only.step (State.moduleReset_only _ _ _)
    | with_reducible apply Dev.Only.wr
    | split
    | with_reducible apply State.Only.mkDev
    | with_reducible apply Dev.Only.with_pins
    | with_reducible apply Dev.Only.with_pwr)

theorem execInputReset9v8_only (x0 : State) :
    Out.Only 0x5fffffffffe 0x1fffffffffffffffffffffffffffffffffffffffffffffffffffffffffffffffffffffffffffffffbfffffffffffffffffffffffffffffffffffffffffffffffff4b0136a08078 x0 (execInputReset9v8 x0) := by
  unfold execInputReset9v8
  repeat' (first
    | exact rfl
    | with_reducible exact Dev.Only.refl _ _ _
    | with_reducible exact State.Only.refl _ _ _
    | with_reducible apply Out.Only.next
    | with_reducible apply State.Only.step (State.railsOff_only _)
    | with_reducible apply Dev.Only.wr
    | with_reducible apply State.Only.mkDev)

theorem execOvervoltageDisconnect_only (x0 : State) :
    Out.Only 0x5fffffffffe 0x1fffffffffffffffffffffffffffffffffffffffffffffffffffffffffffffffffffffffffffffffbfffffffffffffffffffffffffffffffffffffffffffffffff4b0126a08078 x0 (execOvervoltageDisconnect x0) := by
  unfold execOvervoltageDisconnect
  repeat' (first
    | exact rfl
    | with_reducible exact State.Only.refl _ _ _
    | with_reducible apply Out.Only.next
    | with_reducible apply State.Only.step (State.railsOff_only _))

theorem execSupplyWarning_only (x0 : U16) (x1 : State) :
    Out.Only 0x14080000120 0x1000000000000000000000200000000000000000000000000000000000000000000000000000000000000000000000000001c008040 x1 (execSupplyWarning x0 x1) := by
  unfold execSupplyWarning
  repeat' (first
    | with_reducible assumption
    | exact rfl
    | (extract_lets +onlyGivenNames x; first | (refine Dev.Only.have1 x (fun hx => ?_) ?_; clear_value x; rotate_left; subst x) | clear_value x)
    | with_reducible exact Dev.Only.refl _ _ _
    | with_reducible exact State.Only.refl _ _ _
    | with_reducible apply Out.Only.act
    | with_reducible apply Dev.Only.step (Dev.raise_only _ _ _)
    | with_reducible apply Dev.Only.step (Dev.setPlim_only _)
    | with_reducible apply Dev.Only.wr
    | split
    | with_reducible apply Dev.Only.with_pwr)

theorem Dev.clearWarning_only (x0 : Dev) (x1 : Nat) :
    Dev.Only 0x14188004122 0x10000000000000000000002000000000000000000000000000000000000000000000000000000003001800000000000400014008040 x0 (Dev.clearWarning x0 x1) := by
  unfold Dev.clearWarning
  repeat' (first
    | with_reducible assumption
    | exact rfl
    | intro e
    | (extract_lets +onlyGivenNames x; first | (refine Dev.Only.have1 x (fun hx => ?_) ?_; clear_value x; rotate_left; subst x)  | (refine Dev.Only.have1 x.1 (fun hx => ?_) ?_; clear_value x; rotate_left; subst x) | (refine Dev.Only.have1 x.2 (fun hx => ?_) ?_; clear_value x; rotate_left; subst x) | (refine Dev.Only.fun1 x ?_; subst x; try dsimp -zeta only) | clear_value x)
    | with_reducible exact Dev.Only.refl _ _ _
    | with_reducible apply Dev.Only.step (Dev.updAba_only _ _)
    | with_reducible apply Dev.Only.step (Dev.raise_only _ _ _)
    | with_reducible apply Dev.Only.step (Dev.setPlim_only _)
    | with_reducible apply Dev.Only.step (Dev.logPut_only _ _)
    | with_reducible apply Dev.Only.step (Dev.norDo_only _ _)
    | with_reducible apply Dev.Only.step (Dev.sv1Commit_only _ _)
    | with_reducible apply Dev.Only.forEach
    | with_reducible apply Dev.Only.wr
    | split
    | with_reducible apply Dev.Only.with_pwr)

theorem execSupplyWarningClear_only (x0 : U16) (x1 : State) :
    Out.Only 0x14188004122 0x10000000000000000000002000000000000000000000000000000000000000000000000000000003001800000000000400014008040 x1 (execSupplyWarningClear x0 x1) := by
  unfold execSupplyWarningClear
  repeat' (first
    | exact rfl
    | with_reducible exact Dev.Only.refl _ _ _
    | with_reducible exact State.Only.refl _ _ _
    | with_reducible apply Out.Only.act
    | with_reducible apply Dev.Only.step (Dev.clearWarning_only _ _)
    | split)

theorem execHkTempDemand_only (x0 : State) :
    Out.Only 0x200000000 0x800000 x0 (execHkTempDemand x0) := by
  unfold execHkTempDemand
  repeat' (first
    | exact rfl
    | with_reducible exact Dev.Only.refl _ _ _
    | with_reducible exact State.Only.refl _ _ _
    | with_reducible apply Out.Only.act
    | with_reducible apply Dev.Only.step (Dev.demandAll_only _)
    | split)

theorem execTempDemand_only (x0 : Lvl) (x1 : BitVec 10) (x2 : State) :
    Out.Only 0x14080000100 0xfc00000009f8040 x2 (execTempDemand x0 x1 x2) := by
  unfold execTempDemand
  repeat' (first
    | with_reducible assumption
    | exact rfl
    | intro e
    | with_reducible exact Dev.Only.refl _ _ _
    | with_reducible exact State.Only.refl _ _ _
    | with_reducible apply Out.Only.act
    | with_reducible apply Dev.Only.step (Dev.demand_only _ _)
    | with_reducible apply Dev.ownWrite_only)

theorem Dev.sampleTj_only (x0 : Dev) :
    Dev.Only 0x14280000100 0xc000000000000000000000000000000000000000000000000000000000000000000000000000000000000000000000000000000008040 x0 (Dev.sampleTj x0) := by
  unfold Dev.sampleTj
  repeat' (first
    | with_reducible assumption
    | exact rfl
    | (extract_lets +onlyGivenNames x; first | (refine Dev.Only.have1 x (fun hx => ?_) ?_; clear_value x; rotate_left; subst x) | clear_value x)
    | with_reducible exact Dev.Only.refl _ _ _
    | with_reducible apply Dev.Only.step (Dev.raise_only _ _ _)
    | with_reducible apply Dev.Only.wr
    | split
    | with_reducible apply Dev.Only.with_temp)

theorem Dev.heatShutdown_only (x0 : Dev) (x1 : Nat) (x2 : Thr) (x3 : Thr) :
    Dev.Only 0x14080000162 0x400000008040 x0 (Dev.heatShutdown x0 x1 x2 x3) := by
  unfold Dev.heatShutdown
  repeat' (first
    | exact rfl
    | with_reducible exact Dev.Only.refl _ _ _
    | with_reducible apply Dev.Only.step (Dev.raiseFatal_only _ _ _ _)
    | split)

theorem Dev.sampleTemp_only (x0 : Dev) :
    Dev.Only 0x14280000162 0xc000000000000000000000000000000000000000000000000000000000000000000000000000000000000000000000000400000008040 x0 (Dev.sampleTemp x0) := by
  unfold Dev.sampleTemp
  repeat' (first
    | with_reducible assumption
    | exact rfl
    | (extract_lets +onlyGivenNames x; first | (refine Dev.Only.have1 x (fun hx => ?_) ?_; clear_value x; rotate_left; subst x) | clear_value x)
    | with_reducible exact Dev.Only.refl _ _ _
    | with_reducible apply Dev.Only.step (Dev.heatShutdown_only _ _ _ _)
    | with_reducible apply Dev.Only.step (Dev.sampleTj_only _)
    | with_reducible apply Dev.Only.with_temp)

theorem Dev.converted_only (x0 : Dev) (x1 : List U16) :
    Dev.Only 0x14280000166 0x3000000000000000000c000000000000000000000000000000000000000000000000000000000000000000000000000000000000000000000000400003808040 x0 (Dev.converted x0 x1) := by
  unfold Dev.converted
  repeat' (first
    | with_reducible assumption
    | exact rfl
    | intro e
    | (extract_lets +onlyGivenNames x; first | (refine Dev.Only.have1 x (fun hx => ?_) ?_; clear_value x; rotate_left; subst x) | clear_value x)
    | with_reducible exact Dev.Only.refl _ _ _
    | with_reducible apply Dev.Only.step (Dev.compensate_only _)
    | with_reducible apply Dev.Only.step (Dev.sampleTemp_only _)
    | with_reducible apply Dev.Only.wr
    | with_reducible apply Dev.Only.forEach
    | split)

theorem execTempConversionDone_only (x0 : List U16) (x1 : State) :
    Out.Only 0x14280000166 0x3000000000000000000c000000000000000000000000000000000000000000000000000000000000000000000000000000000000000000000000400003808040 x1 (execTempConversionDone x0 x1) := by
  unfold execTempConversionDone
  repeat' (first
    | with_reducible assumption
    | exact rfl
    | with_reducible exact Dev.Only.refl _ _ _
    | with_reducible exact State.Only.refl _ _ _
    | (with_reducible apply State.Only.dev; with_reducible assumption)
    | with_reducible apply Out.Only.act
    | with_reducible apply Out.Only.next
    | with_reducible apply Dev.Only.step (Dev.converted_only _ _)
    | split)

theorem execShutdownRecordWritten_only (x0 : State) :
    Out.Only 0x10000000042 0x400000000000 x0 (execShutdownRecordWritten x0) := by
  unfold execShutdownRecordWritten
  repeat' (first
    | with_reducible assumption
    | exact rfl
    | (extract_lets +onlyGivenNames x; first | (refine Out.Only.have1 x (fun hx => ?_) ?_; clear_value x; rotate_left; subst x) | (refine Out.Only.have2 x (fun hx => ?_) ?_; clear_value x; rotate_left; subst x)  | (refine State.Only.have1 x (fun hx => ?_) ?_; clear_value x; rotate_left; subst x) | (refine State.Only.have2 x (fun hx => ?_) ?_; clear_value x; rotate_left; subst x) | (refine Dev.Only.have1 x (fun hx => ?_) ?_; clear_value x; rotate_left; subst x) | clear_value x)
    | with_reducible exact Dev.Only.refl _ _ _
    | with_reducible exact State.Only.refl _ _ _
    | (with_reducible apply State.Only.dev; with_reducible assumption)
    | with_reducible apply Out.Only.act
    | with_reducible apply Out.Only.next
    | with_reducible apply Dev.Only.step (Dev.logPut_only _ _)
    | (with_reducible apply Dev.Only.of_fst; assumption)
    | split
    | with_reducible apply Dev.Only.with_shut
    | with_reducible apply State.Only.mkDev)

theorem execShutdownPowerDown_only (x0 : State) :
    Out.Only 0x4fffffffffc 0x1fffffffffffffffffffffffffffffffffffffffffffffffffffffffffffffffffffffffffffffffbfffffffffffffffffffffffffffffffffffffffffffffffff000000a00000 x0 (execShutdownPowerDown x0) := by
  unfold execShutdownPowerDown
  repeat' (first
    | with_reducible assumption
    | exact rfl
    | (extract_lets +onlyGivenNames x; first | (refine Out.Only.have2 x (fun hx => ?_) ?_; clear_value x; rotate_left; subst x) | clear_value x)
    | with_reducible exact Dev.Only.refl _ _ _
    | with_reducible exact State.Only.refl _ _ _
    | with_reducible apply Out.Only.next
    | with_reducible apply Dev.Only.step (Dev.resetDomains_only _)
    | split
    | with_reducible apply State.Only.clear
    | with_reducible apply Dev.Only.with_pins)

theorem execSpeedCeilPeriod_only (x0 : State) :
    Out.Only 0x8000000000 0 x0 (execSpeedCeilPeriod x0) := by
  unfold execSpeedCeilPeriod
  repeat' (first
    | exact rfl
    | (extract_lets +onlyGivenNames x; clear_value x)
    | with_reducible exact Dev.Only.refl _ _ _
    | with_reducible exact State.Only.refl _ _ _
    | with_reducible apply Out.Only.act
    | split
    | with_reducible apply Dev.Only.with_pins)

end Sys2Proof.Machine
end

