-- ==== Sys2Proof/Laws/OnlyVision.lean ====
section
/-! SUPPORT. What each operation may change, operation by operation: Tally, runway, register writes, Crown, ring, memory, boot, loops and marks. Each lemma names the parts
and the register fields as bit masks over `Part` and `Fld`. -/
namespace Sys2Proof.Machine

-- One theorem at a time: checked side by side, their threads exceed the memory that the check allows.
set_option Elab.async false
-- The proofs of this file share one script, whose steps not every goal needs.
set_option linter.unusedTactic false
set_option linter.unreachableTactic false

/-! ### Header -/

theorem Dev.startHref_only (x0 : Dev) :
    Dev.Only 0x8000000000 0x40000000000000000000000000000000000000000000000000000000000000 x0 (Dev.startHref x0) := by
  unfold Dev.startHref
  repeat' (first
    | exact rfl
    | (extract_lets +onlyGivenNames x; clear_value x)
    | with_reducible exact Dev.Only.refl _ _ _
    | with_reducible apply Dev.Only.wr
    | split
    | with_reducible apply Dev.Only.with_pins)

/-! ### Tally -/

theorem Dev.tallyPut_only (x0 : Dev) (x1 : Nat) (x2 : U32 → U32) :
    Dev.Only 0x14080000100 0x4000200000000000000000000000000000000000000000000000000000000000008040 x0 (Dev.tallyPut x0 x1 x2) := by
  unfold Dev.tallyPut
  repeat' (first
    | exact rfl
    | with_reducible exact Dev.Only.refl _ _ _
    | with_reducible apply Dev.Only.step (Dev.raise_only _ _ _)
    | with_reducible apply Dev.Only.wr
    | split)

theorem Dev.tallyFold_only (x0 : Dev) (x1 : Nat) :
    Dev.Only 0x14080000100 0x4100200000000000000000000000000000000000000000000000000000000000008040 x0 (Dev.tallyFold x0 x1) := by
  unfold Dev.tallyFold
  repeat' (first
    | with_reducible assumption
    | exact rfl
    | (extract_lets +onlyGivenNames x; (refine Dev.Only.have1 x (fun hx => ?_) ?_; clear_value x; rotate_left; subst x))
    | with_reducible exact Dev.Only.refl _ _ _
    | with_reducible apply Dev.Only.step (Dev.tallyPut_only _ _ _)
    | with_reducible apply Dev.Only.wr)

theorem Dev.tallyFeed_only (x0 : Dev) (x1 : List Byte) :
    Dev.Only 0x14080000100 0x4000200000000000000000000000000000000000000000000000000000000000008040 x0 (Dev.tallyFeed x0 x1) := by
  unfold Dev.tallyFeed
  repeat' (first
    | exact rfl
    | with_reducible exact Dev.Only.refl _ _ _
    | with_reducible apply Dev.Only.step (Dev.tallyPut_only _ _ _))

theorem execTallyFold_only (x0 : Lvl) (x1 : U32) (x2 : State) :
    Out.Only 0x14080000100 0x4100200000000000000000000000000000000000000000000000000fc00000001f8040 x2 (execTallyFold x0 x1 x2) := by
  unfold execTallyFold
  repeat' (first
    | with_reducible assumption
    | exact rfl
    | intro e
    | with_reducible exact Dev.Only.refl _ _ _
    | with_reducible exact State.Only.refl _ _ _
    | with_reducible apply Out.Only.act
    | with_reducible apply Dev.ownWrite_only
    | with_reducible apply Dev.Only.step (Dev.tallyFold_only _ _))

theorem execTallyInB_only (x0 : Lvl) (x1 : Byte) (x2 : State) :
    Out.Only 0x14080000100 0x4000200000000000000000000000000000000000000000000000000fc00000001f8040 x2 (execTallyInB x0 x1 x2) := by
  unfold execTallyInB
  repeat' (first
    | with_reducible assumption
    | exact rfl
    | intro e
    | with_reducible exact Dev.Only.refl _ _ _
    | with_reducible exact State.Only.refl _ _ _
    | with_reducible apply Out.Only.act
    | with_reducible apply Dev.ownWrite_only
    | with_reducible apply Dev.Only.step (Dev.tallyFeed_only _ _))

theorem execTallyInH_only (x0 : Lvl) (x1 : U16) (x2 : State) :
    Out.Only 0x14080000100 0x4000200000000000000000000000000000000000000000000000000fc00000001f8040 x2 (execTallyInH x0 x1 x2) := by
  unfold execTallyInH
  repeat' (first
    | with_reducible assumption
    | exact rfl
    | intro e
    | with_reducible exact Dev.Only.refl _ _ _
    | with_reducible exact State.Only.refl _ _ _
    | with_reducible apply Out.Only.act
    | with_reducible apply Dev.ownWrite_only
    | with_reducible apply Dev.Only.step (Dev.tallyFeed_only _ _))

theorem execTallyInW_only (x0 : Lvl) (x1 : U32) (x2 : State) :
    Out.Only 0x14080000100 0x4000200000000000000000000000000000000000000000000000000fc00000001f8040 x2 (execTallyInW x0 x1 x2) := by
  unfold execTallyInW
  repeat' (first
    | with_reducible assumption
    | exact rfl
    | intro e
    | with_reducible exact Dev.Only.refl _ _ _
    | with_reducible exact State.Only.refl _ _ _
    | with_reducible apply Out.Only.act
    | with_reducible apply Dev.ownWrite_only
    | with_reducible apply Dev.Only.step (Dev.tallyFeed_only _ _))

theorem execTallyValWrite_only (x0 : Lvl) (x1 : LaneNo) (x2 : U32) (x3 : State) :
    Out.Only 0x14080000100 0x4000200000000000000000000000000000000000000000000000000fc00000001f8040 x3 (execTallyValWrite x0 x1 x2 x3) := by
  unfold execTallyValWrite
  repeat' (first
    | with_reducible assumption
    | exact rfl
    | intro e
    | with_reducible exact Dev.Only.refl _ _ _
    | with_reducible exact State.Only.refl _ _ _
    | with_reducible apply Out.Only.act
    | with_reducible apply Dev.ownWrite_only
    | with_reducible apply Dev.Only.step (Dev.tallyPut_only _ _ _))

/-! ### Runway -/

theorem State.slotWrite_only (x0 : Nat) (x1 : State) (x2 : Nat) (x3 : Nat) (x4 : Nat) (x5 : Bool) (x6 : List Byte) :
    State.Only 0x40000000000 0x20800000000000000000000000000000000000000000000000000000000000000000000000000000000000000000000000000000000000000000000 x1 (State.slotWrite x0 x1 x2 x3 x4 x5 x6).1 := by
  induction x0 generalizing x1 x2 x3 x4 x5 x6 with
  | zero => exact State.Only.refl _ _ _
  | succ n ih =>
    unfold State.slotWrite
    split
    · exact State.Only.refl _ _ _
    · split
      · exact ih _ _ _ _ _ _
      · split
        · exact State.Only.refl _ _ _
        · exact State.Only.step (ih _ _ _ _ _ _) rfl rfl (State.Only.mono (State.dramWrite_only _ _ _ _) rfl rfl)

theorem Dev.setWrite_only (x0 : Dev) (x1 : Nat) (x2 : Nat × Nat) (x3 : Nat) :
    Dev.Only 0x80000 0x10000000000000000000000000000000000 x0 (Dev.setWrite x0 x1 x2 x3) := by
  unfold Dev.setWrite
  repeat' (first
    | with_reducible assumption
    | exact rfl
    | (extract_lets +onlyGivenNames x; first | (refine Dev.Only.have1 x (fun hx => ?_) ?_; clear_value x; rotate_left; subst x)  | (refine Dev.Only.have1 x.1 (fun hx => ?_) ?_; clear_value x; rotate_left; subst x) | (refine Dev.Only.have1 x.2 (fun hx => ?_) ?_; clear_value x; rotate_left; subst x) | (refine Dev.Only.fun1 x ?_; subst x; try dsimp -zeta only) | clear_value x)
    | with_reducible exact Dev.Only.refl _ _ _
    | with_reducible apply Dev.Only.step (Dev.updRw_only _ _ _)
    | with_reducible apply Dev.Only.wr
    | split)

theorem Dev.putSlot_only (x0 : Dev) (x1 : Nat) (x2 : RSlot) :
    Dev.Only 0x80000 0 x0 (Dev.putSlot x0 x1 x2) := by
  unfold Dev.putSlot
  repeat' (first
    | exact rfl
    | with_reducible exact Dev.Only.refl _ _ _
    | with_reducible apply Dev.Only.step (Dev.updRw_only _ _ _))

theorem State.energyRecord_only (x0 : State) (x1 : Nat) (x2 : RSlot) :
    State.Only 0x40100000000 0x20800000000000000000000000000000000000000000000000000000000000000000000000000000000000000000000000000000000000000000000 x0 (State.energyRecord x0 x1 x2) := by
  unfold State.energyRecord
  repeat' (first
    | with_reducible assumption
    | exact rfl
    | (extract_lets +onlyGivenNames x; first | (refine State.Only.have1 x (fun hx => ?_) ?_; clear_value x; rotate_left; subst x) | (refine State.Only.have2 x (fun hx => ?_) ?_; clear_value x; rotate_left; subst x) | (refine State.Only.fun1 x ?_; subst x; try dsimp -zeta only) | (refine Dev.Only.have1 x (fun hx => ?_) ?_; clear_value x; rotate_left; subst x) | (refine Dev.Only.fun1 x ?_; subst x; try dsimp -zeta only) | clear_value x)
    | with_reducible exact Dev.Only.refl _ _ _
    | with_reducible exact State.Only.refl _ _ _
    | (with_reducible apply State.Only.dev; with_reducible assumption)
    | with_reducible apply State.Only.step (State.dramWrite_only _ _ _ _)
    | split
    | with_reducible apply Dev.Only.with_aba
    | with_reducible apply State.Only.mkDev)

theorem State.pageBad_only (x0 : State) (x1 : Nat) (x2 : Nat) (x3 : Nat) :
    State.Only 0x54080000100 0x30000000000000000000020800000000000000000000000000000000000000000000000000000000000000000000000000000000000000000000000000000000000000008040 x0 (State.pageBad x0 x1 x2 x3) := by
  unfold State.pageBad
  repeat' (first
    | with_reducible assumption
    | exact rfl
    | (extract_lets +onlyGivenNames x; (refine State.Only.have1 x (fun hx => ?_) ?_; clear_value x; rotate_left; subst x))
    | with_reducible exact State.Only.refl _ _ _
    | with_reducible apply Dev.Only.step (Dev.raise_only _ _ _)
    | with_reducible apply State.Only.step (State.descFail_only _ _ _)
    | (with_reducible apply State.Only.dev; with_reducible assumption)
    | with_reducible apply State.Only.mkDev)

theorem State.slotBegun_only (x0 : State × Option Nat) (x1 : Nat) (x2 : RSlot) :
    State.Only 0x54180000100 0x30000000000000000000020800000000000000000000000000000000000000000000000000000000000000000000000000000000000000000000000000000000000000008040 x0.1 (State.slotBegun x0 x1 x2) := by
  unfold State.slotBegun
  repeat' (first
    | with_reducible assumption
    | exact rfl
    | (extract_lets +onlyGivenNames x; first | (refine State.Only.have1 x (fun hx => ?_) ?_; clear_value x; rotate_left; subst x) | (refine State.Only.have2 x (fun hx => ?_) ?_; clear_value x; rotate_left; subst x) | (refine State.Only.fun1 x ?_; subst x; try dsimp -zeta only) | (refine Dev.Only.have1 x (fun hx => ?_) ?_; clear_value x; rotate_left; subst x) | (refine Dev.Only.fun1 x ?_; subst x; try dsimp -zeta only) | clear_value x)
    | with_reducible exact Dev.Only.refl _ _ _
    | with_reducible exact State.Only.refl _ _ _
    | (with_reducible apply State.Only.dev; with_reducible assumption)
    | with_reducible apply State.Only.step (State.energyRecord_only _ _ _)
    | with_reducible apply State.Only.step (State.pageBad_only _ _ _ _)
    | (with_reducible apply Dev.Only.of_fst; assumption)
    | (with_reducible apply Dev.Only.of_snd; assumption)
    | (with_reducible apply Dev.Only.of_snd2; assumption)
    | (with_reducible apply State.Only.of_fst; assumption)
    | (with_reducible apply State.Only.of_snd; assumption)
    | (with_reducible apply State.Only.dev; with_reducible apply State.Only.of_fst; assumption)
    | (with_reducible apply State.Only.dev; with_reducible apply State.Only.of_snd; assumption)
    | split
    | with_reducible apply State.Only.mkDev)

theorem State.slotStart_only (x0 : State) (x1 : Nat) :
    State.Only 0x54180084100 0x30000000000000000000020800000000000000000000000000000000000000000000000000000000000000000000000000000000c10000000000000000000000000000008040 x0 (State.slotStart x0 x1) := by
  unfold State.slotStart
  repeat' (first
    | with_reducible assumption
    | exact rfl
    | (extract_lets +onlyGivenNames x; first | (refine State.Only.have1 x (fun hx => ?_) ?_; clear_value x; rotate_left; subst x) | (refine State.Only.have2 x (fun hx => ?_) ?_; clear_value x; rotate_left; subst x) | (refine State.Only.fun1 x ?_; subst x; try dsimp -zeta only) | (refine Dev.Only.have1 x (fun hx => ?_) ?_; clear_value x; rotate_left; subst x) | (refine Dev.Only.fun1 x ?_; subst x; try dsimp -zeta only) | clear_value x)
    | with_reducible exact Dev.Only.refl _ _ _
    | with_reducible exact State.Only.refl _ _ _
    | (with_reducible apply State.Only.dev; with_reducible assumption)
    | with_reducible apply State.Only.step (State.descFail_only _ _ _)
    | with_reducible apply Dev.Only.step (Dev.updDp_only _ _ _)
    | with_reducible apply Dev.Only.step (Dev.updRw_only _ _ _)
    | with_reducible apply Dev.Only.step (Dev.setWrite_only _ _ _ _)
    | with_reducible apply State.Only.step (State.slotBegun_only _ _ _)
    | with_reducible apply State.Only.step (State.slotWrite_only _ _ _ _ _ _ _)
    | with_reducible apply Dev.Only.wr
    | (with_reducible apply Dev.Only.of_fst; assumption)
    | (with_reducible apply Dev.Only.of_snd; assumption)
    | (with_reducible apply Dev.Only.of_snd2; assumption)
    | (with_reducible apply State.Only.of_fst; assumption)
    | (with_reducible apply State.Only.of_snd; assumption)
    | (with_reducible apply State.Only.dev; with_reducible apply State.Only.of_fst; assumption)
    | (with_reducible apply State.Only.dev; with_reducible apply State.Only.of_snd; assumption)
    | split
    | with_reducible apply State.Only.mkDev)

theorem execSlotStart_only (x0 : Pipe) (x1 : State) :
    Out.Only 0x54180084100 0x30000000000000000000020800000000000000000000000000000000000000000000000000000000000000000000000000000000c10000000000000000000000000000008040 x1 (execSlotStart x0 x1) := by
  unfold execSlotStart
  repeat' (first
    | exact rfl
    | with_reducible exact State.Only.refl _ _ _
    | with_reducible apply Out.Only.next
    | with_reducible apply State.Only.step (State.slotStart_only _ _))

theorem State.retire_only (x0 : State) (x1 : Nat) (x2 : RSlot) :
    State.Only 0x40000080000 0x20800000000000000000000000000000000000000000000000000000000000000000000000000000000020000000000000000000000000000000000 x0 (State.retire x0 x1 x2) := by
  unfold State.retire
  repeat' (first
    | with_reducible assumption
    | exact rfl
    | (extract_lets +onlyGivenNames x; first | (refine State.Only.have1 x (fun hx => ?_) ?_; clear_value x; rotate_left; subst x) | (refine State.Only.have2 x (fun hx => ?_) ?_; clear_value x; rotate_left; subst x) | (refine State.Only.fun1 x ?_; subst x; try dsimp -zeta only) | (refine Dev.Only.have1 x (fun hx => ?_) ?_; clear_value x; rotate_left; subst x) | (refine Dev.Only.fun1 x ?_; subst x; try dsimp -zeta only) | clear_value x)
    | with_reducible exact Dev.Only.refl _ _ _
    | with_reducible exact State.Only.refl _ _ _
    | (with_reducible apply State.Only.dev; with_reducible assumption)
    | with_reducible apply State.Only.step (State.dramWrite_only _ _ _ _)
    | with_reducible apply Dev.Only.step (Dev.putSlot_only _ _ _)
    | with_reducible apply Dev.Only.step (Dev.updRw_only _ _ _)
    | with_reducible apply Dev.Only.wr
    | (with_reducible apply Dev.Only.of_fst; assumption)
    | split
    | with_reducible apply State.Only.mkDev)

theorem State.retireCovered_only (x0 : State) (x1 : Nat) (x2 : Nat) (x3 : Nat) :
    State.Only 0x40000080000 0x20800000000000000000000000000000000000000000000000000000000000000000000000000000000020000000000000000000000000000000000 x0 (State.retireCovered x0 x1 x2 x3) := by
  unfold State.retireCovered
  repeat' (first
    | with_reducible assumption
    | exact rfl
    | intro e
    | with_reducible exact State.Only.refl _ _ _
    | with_reducible apply State.Only.step (State.retire_only _ _ _)
    | with_reducible apply State.Only.foldl)

theorem State.skipStep_only (x0 : State) (x1 : Nat) :
    State.Only 0x40000480000 0x2080000000000000000000000000000000000000000000000000000000000000000000000000000001c020000000000000000000000000000000000 x0 (State.skipStep x0 x1) := by
  unfold State.skipStep
  repeat' (first
    | with_reducible assumption
    | exact rfl
    | (extract_lets +onlyGivenNames x; first | (refine State.Only.have1 x (fun hx => ?_) ?_; clear_value x; rotate_left; subst x) | (refine State.Only.have2 x (fun hx => ?_) ?_; clear_value x; rotate_left; subst x) | (refine State.Only.fun1 x ?_; subst x; try dsimp -zeta only) | (refine Dev.Only.have1 x (fun hx => ?_) ?_; clear_value x; rotate_left; subst x) | (refine Dev.Only.fun1 x ?_; subst x; try dsimp -zeta only) | clear_value x)
    | with_reducible exact Dev.Only.refl _ _ _
    | with_reducible exact State.Only.refl _ _ _
    | (with_reducible apply State.Only.dev; with_reducible assumption)
    | with_reducible apply State.Only.step (State.retireCovered_only _ _ _ _)
    | with_reducible apply Dev.Only.step (Dev.loadSkip_only _ _)
    | with_reducible apply Dev.Only.wr
    | split
    | with_reducible apply Dev.Only.with_fire
    | with_reducible apply State.Only.mkDev)

theorem Dev.giveUpSlot_only (x0 : Dev) (x1 : Nat) (x2 : RSlot) (x3 : List Byte) :
    Dev.Only 0x1408b000100 0x201f140000000000000000000000000000002000000000000000000000000000008040 x0 (Dev.giveUpSlot x0 x1 x2 x3).2.2 := by
  unfold Dev.giveUpSlot
  repeat' (first
    | with_reducible assumption
    | exact rfl
    | (extract_lets +onlyGivenNames x; first | (refine Dev.Only.have1 x (fun hx => ?_) ?_; clear_value x; rotate_left; subst x)  | (refine Dev.Only.have1 x.1 (fun hx => ?_) ?_; clear_value x; rotate_left; subst x) | (refine Dev.Only.have1 x.2 (fun hx => ?_) ?_; clear_value x; rotate_left; subst x) | (refine Dev.Only.fun1 x ?_; subst x; try dsimp -zeta only) | clear_value x)
    | with_reducible exact Dev.Only.refl _ _ _
    | with_reducible apply Dev.Only.step (Dev.spoilLines_only _ _ _ _ _ _ _)
    | with_reducible apply Dev.Only.step (Dev.raise_only _ _ _)
    | with_reducible apply Dev.Only.inc
    | split)

theorem Dev.compress_only (x0 : Dev) (x1 : Nat) (x2 : RSlot) (x3 : List XdcStream) :
    Dev.Only 0x1408b000100 0x201f140000000000000000000000000000003000000000000000000000000000008040 x0 (Dev.compress x0 x1 x2 x3).2.2 := by
  unfold Dev.compress
  repeat' (first
    | with_reducible assumption
    | exact rfl
    | (extract_lets +onlyGivenNames x; first | (refine Dev.Only.have1 x (fun hx => ?_) ?_; clear_value x; rotate_left; subst x)  | (refine Dev.Only.have1 x.1 (fun hx => ?_) ?_; clear_value x; rotate_left; subst x) | (refine Dev.Only.have1 x.2 (fun hx => ?_) ?_; clear_value x; rotate_left; subst x) | (refine Dev.Only.fun1 x ?_; subst x; try dsimp -zeta only) | clear_value x)
    | with_reducible exact Dev.Only.refl _ _ _
    | with_reducible apply Dev.Only.step (Dev.raise_only _ _ _)
    | with_reducible apply Dev.Only.step (Dev.giveUpSlot_only _ _ _ _)
    | with_reducible apply Dev.Only.inc
    | (with_reducible apply Dev.Only.of_fst; assumption)
    | split)

theorem Dev.stopXdc_only (x0 : Dev) (x1 : Nat) (x2 : RSlot) (x3 : List Byte) (x4 : Nat) :
    Dev.Only 0x14080080100 0xe40000000000000000000000000000008040 x0 (Dev.stopXdc x0 x1 x2 x3 x4) := by
  unfold Dev.stopXdc
  repeat' (first
    | with_reducible assumption
    | exact rfl
    | (extract_lets +onlyGivenNames x; first | (refine Dev.Only.have1 x (fun hx => ?_) ?_; clear_value x; rotate_left; subst x)  | (refine Dev.Only.have1 x.1 (fun hx => ?_) ?_; clear_value x; rotate_left; subst x) | (refine Dev.Only.have1 x.2 (fun hx => ?_) ?_; clear_value x; rotate_left; subst x) | (refine Dev.Only.fun1 x ?_; subst x; try dsimp -zeta only) | clear_value x)
    | with_reducible exact Dev.Only.refl _ _ _
    | with_reducible apply Dev.Only.step (Dev.putSlot_only _ _ _)
    | with_reducible apply Dev.Only.step (Dev.raise_only _ _ _)
    | with_reducible apply Dev.Only.wr
    | with_reducible apply Dev.Only.inc
    | split)

theorem Dev.countRatio_only (x0 : Dev) (x1 : Nat) (x2 : Nat) :
    Dev.Only 0x200000 0x800000000000000000000000000000000 x0 (Dev.countRatio x0 x1 x2) := by
  unfold Dev.countRatio
  repeat' (first
    | with_reducible assumption
    | exact rfl
    | (extract_lets +onlyGivenNames x; first | (refine Dev.Only.have1 x (fun hx => ?_) ?_; clear_value x; rotate_left; subst x) | clear_value x)
    | with_reducible exact Dev.Only.refl _ _ _
    | with_reducible apply Dev.Only.wr
    | with_reducible apply Dev.Only.with_ratioHist)

theorem State.slotComplete_only (x0 : State) (x1 : Nat) (x2 : RSlot) (x3 : List Byte) :
    State.Only 0x40000280000 0x800000000000000000000020800000000000000000000000000000000000000000000000000000000000000000000000000000001c10818000000000000000000000000000180 x0 (State.slotComplete x0 x1 x2 x3) := by
  unfold State.slotComplete
  repeat' (first
    | with_reducible assumption
    | exact rfl
    | (extract_lets +onlyGivenNames x; first | (refine State.Only.have1 x (fun hx => ?_) ?_; clear_value x; rotate_left; subst x) | (refine State.Only.have2 x (fun hx => ?_) ?_; clear_value x; rotate_left; subst x) | (refine State.Only.fun1 x ?_; subst x; try dsimp -zeta only) | (refine Dev.Only.have1 x (fun hx => ?_) ?_; clear_value x; rotate_left; subst x) | (refine Dev.Only.fun1 x ?_; subst x; try dsimp -zeta only) | clear_value x)
    | with_reducible exact Dev.Only.refl _ _ _
    | with_reducible exact State.Only.refl _ _ _
    | (with_reducible apply State.Only.dev; with_reducible assumption)
    | with_reducible apply State.Only.step (State.dramWrite_only _ _ _ _)
    | with_reducible apply Dev.Only.step (Dev.setWrite_only _ _ _ _)
    | with_reducible apply Dev.Only.step (Dev.updRw_only _ _ _)
    | with_reducible apply Dev.Only.step (Dev.putSlot_only _ _ _)
    | with_reducible apply Dev.Only.step (Dev.countRatio_only _ _ _)
    | with_reducible apply Dev.Only.step (Dev.ringIrq_only _ _ _)
    | with_reducible apply Dev.Only.step (Dev.refreshLead_only _)
    | with_reducible apply Dev.Only.wr
    | split
    | with_reducible apply State.Only.mkDev)

theorem State.slotWritten_only (x0 : State × Option Nat) (x1 : Nat) (x2 : RSlot) (x3 : List Byte) (x4 : Nat) :
    State.Only 0x54080280100 0x830000000000000000000020800000000000000000000000000000000000000000000000000000000000000000000000000000001e508180000000000000000000000000081c0 x0.1 (State.slotWritten x0 x1 x2 x3 x4) := by
  unfold State.slotWritten
  repeat' (first
    | with_reducible assumption
    | exact rfl
    | (extract_lets +onlyGivenNames x; first | (refine State.Only.have1 x (fun hx => ?_) ?_; clear_value x; rotate_left; subst x) | (refine State.Only.have2 x (fun hx => ?_) ?_; clear_value x; rotate_left; subst x) | (refine State.Only.fun1 x ?_; subst x; try dsimp -zeta only) | (refine Dev.Only.have1 x (fun hx => ?_) ?_; clear_value x; rotate_left; subst x) | (refine Dev.Only.fun1 x ?_; subst x; try dsimp -zeta only) | clear_value x)
    | with_reducible exact Dev.Only.refl _ _ _
    | with_reducible exact State.Only.refl _ _ _
    | (with_reducible apply State.Only.dev; with_reducible assumption)
    | with_reducible apply State.Only.step (State.pageBad_only _ _ _ _)
    | with_reducible apply Dev.Only.step (Dev.putSlot_only _ _ _)
    | with_reducible apply Dev.Only.step (Dev.stopXdc_only _ _ _ _ _)
    | with_reducible apply Dev.Only.step (Dev.setWrite_only _ _ _ _)
    | with_reducible apply State.Only.step (State.slotComplete_only _ _ _ _)
    | (with_reducible apply Dev.Only.of_fst; assumption)
    | (with_reducible apply Dev.Only.of_snd; assumption)
    | (with_reducible apply Dev.Only.of_snd2; assumption)
    | (with_reducible apply State.Only.of_fst; assumption)
    | (with_reducible apply State.Only.of_snd; assumption)
    | (with_reducible apply State.Only.dev; with_reducible apply State.Only.of_fst; assumption)
    | (with_reducible apply State.Only.dev; with_reducible apply State.Only.of_snd; assumption)
    | split
    | with_reducible apply State.Only.mkDev)

theorem State.slotStore_only (x0 : State) (x1 : Nat) (x2 : RSlot) (x3 : List Byte) :
    State.Only 0x54080280100 0x830000000000000000000020800000000000000000000000000000000000000000000000000000000000000000000000000000001e508180000000000000000000000000081c0 x0 (State.slotStore x0 x1 x2 x3) := by
  unfold State.slotStore
  repeat' (first
    | with_reducible assumption
    | exact rfl
    | (extract_lets +onlyGivenNames x; first | (refine State.Only.have1 x (fun hx => ?_) ?_; clear_value x; rotate_left; subst x) | (refine State.Only.have2 x (fun hx => ?_) ?_; clear_value x; rotate_left; subst x) | (refine State.Only.fun1 x ?_; subst x; try dsimp -zeta only) | (refine Dev.Only.have1 x (fun hx => ?_) ?_; clear_value x; rotate_left; subst x) | (refine Dev.Only.fun1 x ?_; subst x; try dsimp -zeta only) | clear_value x)
    | with_reducible exact Dev.Only.refl _ _ _
    | with_reducible exact State.Only.refl _ _ _
    | (with_reducible apply State.Only.dev; with_reducible assumption)
    | with_reducible apply State.Only.step (State.slotWritten_only _ _ _ _ _)
    | with_reducible apply State.Only.step (State.slotWrite_only _ _ _ _ _ _ _)
    | (with_reducible apply Dev.Only.of_fst; assumption)
    | (with_reducible apply Dev.Only.of_snd; assumption)
    | (with_reducible apply Dev.Only.of_snd2; assumption)
    | (with_reducible apply State.Only.of_fst; assumption)
    | (with_reducible apply State.Only.of_snd; assumption)
    | (with_reducible apply State.Only.dev; with_reducible apply State.Only.of_fst; assumption)
    | (with_reducible apply State.Only.dev; with_reducible apply State.Only.of_snd; assumption)
    | split
    | with_reducible apply State.Only.mkDev)

theorem State.slotReady_only (x0 : State) (x1 : Nat) (x2 : List XdcStream) :
    State.Only 0x5408b280100 0x83000000000000000000002080000000000000000000000000000000000000000000000201f140000000000000000000000000001e538180000000000000000000000000081c0 x0 (State.slotReady x0 x1 x2) := by
  unfold State.slotReady
  split
  · exact State.Only.refl _ _ _
  · split
    · exact State.Only.refl _ _ _
    · split
      · exact State.Only.mono (State.slotStore_only _ _ _ _) rfl rfl
      · next x _ _ _ _ =>
        exact State.Only.step (State.slotStore_only _ _ _ _) rfl rfl (State.Only.mkDev
          (Dev.Only.mono (Dev.compress_only x0.dev x1 x x2) rfl rfl) (State.Only.refl _ _ _))

theorem execSlotReady_only (x0 : Pipe) (x1 : List XdcStream) (x2 : State) :
    Out.Only 0x5408b680100 0x83000000000000000000002080000000000000000000000000000000000000000000000201f14000000000000000000000000001de738180000000000000000000000000081c0 x2 (execSlotReady x0 x1 x2) := by
  unfold execSlotReady
  repeat' (first
    | with_reducible assumption
    | exact rfl
    | with_reducible exact Dev.Only.refl _ _ _
    | with_reducible exact State.Only.refl _ _ _
    | (with_reducible apply State.Only.dev; with_reducible assumption)
    | with_reducible apply Out.Only.next
    | with_reducible apply State.Only.step (State.skipStep_only _ _)
    | with_reducible apply State.Only.step (State.slotReady_only _ _ _)
    | split)

theorem Dev.plTail_only (x0 : Dev) (x1 : Nat) (x2 : Nat) :
    Dev.Only 0x80000 0x48000000000000000000000000000000000 x0 (Dev.plTail x0 x1 x2) := by
  unfold Dev.plTail
  repeat' (first
    | with_reducible assumption
    | exact rfl
    | (extract_lets +onlyGivenNames x; (refine Dev.Only.have1 x (fun hx => ?_) ?_; clear_value x; rotate_left; subst x))
    | with_reducible exact Dev.Only.refl _ _ _
    | with_reducible apply Dev.Only.step (Dev.putSlot_only _ _ _)
    | with_reducible apply Dev.Only.wr
    | split)

theorem State.plWrite_only (x0 : State) (x1 : Nat) (x2 : Nat) (x3 : List U32) :
    State.Only 0x40000000000 0x20800000000000000000000000000000000000000000000000000000000000000000000000000000000000000000000000000000000000000000000 x0 (State.plWrite x0 x1 x2 x3) := by
  induction x3 generalizing x0 x1 x2 with
  | nil => exact State.Only.refl _ _ _
  | cons y t ih => exact State.Only.step (ih _ _ _) rfl rfl (State.Only.mono (State.dramWrite_only _ _ _ _) rfl rfl)

theorem execPlTailWrite_only (x0 : Lvl) (x1 : Pipe) (x2 : BitVec 19) (x3 : List U32) (x4 : State) :
    Out.Only 0x54080080100 0x20800000000000000000000000000000000000000000000000000000000000000000000000000000000048000000000000000000fc00000001f8040 x4 (execPlTailWrite x0 x1 x2 x3 x4) := by
  unfold execPlTailWrite
  repeat' (first
    | with_reducible assumption
    | exact rfl
    | intro e
    | (extract_lets +onlyGivenNames x; first | (refine Out.Only.have1 x (fun hx => ?_) ?_; clear_value x; rotate_left; subst x) | (refine Out.Only.have2 x (fun hx => ?_) ?_; clear_value x; rotate_left; subst x)  | (refine State.Only.have1 x (fun hx => ?_) ?_; clear_value x; rotate_left; subst x) | (refine State.Only.have2 x (fun hx => ?_) ?_; clear_value x; rotate_left; subst x) | (refine Dev.Only.have1 x (fun hx => ?_) ?_; clear_value x; rotate_left; subst x) | clear_value x)
    | with_reducible exact Dev.Only.refl _ _ _
    | with_reducible exact State.Only.refl _ _ _
    | (with_reducible apply State.Only.dev; with_reducible assumption)
    | with_reducible apply Out.Only.act
    | with_reducible apply Out.Only.next
    | with_reducible apply State.Only.step (State.plWrite_only _ _ _ _)
    | with_reducible apply Dev.ownWrite_only
    | with_reducible apply Dev.Only.step (Dev.plTail_only _ _ _)
    | split
    | with_reducible apply State.Only.mkDev)

theorem Dev.foldBoth_only (x0 : Dev) (x1 : Nat) (x2 : Nat) (x3 : Nat) (x4 : List Byte) (x5 : List Byte) :
    Dev.Only 0x1000000 0x4000000000000000000000000000000000000000000000000000000000000000000000 x0 (Dev.foldBoth x0 x1 x2 x3 x4 x5).1 := by
  unfold Dev.foldBoth
  repeat' (first
    | with_reducible assumption
    | exact rfl
    | (extract_lets +onlyGivenNames x; first | (refine Dev.Only.have1 x (fun hx => ?_) ?_; clear_value x; rotate_left; subst x)  | (refine Dev.Only.have1 x.1 (fun hx => ?_) ?_; clear_value x; rotate_left; subst x) | (refine Dev.Only.have1 x.2 (fun hx => ?_) ?_; clear_value x; rotate_left; subst x) | (refine Dev.Only.fun1 x ?_; subst x; try dsimp -zeta only) | clear_value x)
    | with_reducible exact Dev.Only.refl _ _ _
    | with_reducible apply Dev.Only.wr
    | split
    | with_reducible apply Dev.Only.with_integ)

theorem Dev.fifoPut_only (x0 : Dev) (x1 : Nat) (x2 : FifoLine) :
    Dev.Only 0x800000 0 x0 (Dev.fifoPut x0 x1 x2) := by
  unfold Dev.fifoPut
  repeat' (first
    | with_reducible assumption
    | exact rfl
    | (extract_lets +onlyGivenNames x; first | (refine Dev.Only.have1 x (fun hx => ?_) ?_; clear_value x; rotate_left; subst x)  | (refine Dev.Only.have1 x.1 (fun hx => ?_) ?_; clear_value x; rotate_left; subst x) | (refine Dev.Only.have1 x.2 (fun hx => ?_) ?_; clear_value x; rotate_left; subst x) | (refine Dev.Only.fun1 x ?_; subst x; try dsimp -zeta only) | clear_value x)
    | with_reducible exact Dev.Only.refl _ _ _
    | with_reducible apply Dev.Only.step (Dev.updLane_only _ _ _)
    | split)

theorem Dev.passHead_only (x0 : Dev) (x1 : Nat) (x2 : Nat) (x3 : Nat) (x4 : Nat) (x5 : Nat) (x6 : Nat) (x7 : List Byte) (x8 : List Byte) :
    Dev.Only 0x1408b800100 0x601f540000000000000000000000000000000000000000000000000000000000008040 x0 (Dev.passHead x0 x1 x2 x3 x4 x5 x6 x7 x8) := by
  unfold Dev.passHead
  repeat' (first
    | with_reducible assumption
    | exact rfl
    | (extract_lets +onlyGivenNames x; first | (refine Dev.Only.have1 x (fun hx => ?_) ?_; clear_value x; rotate_left; subst x)  | (refine Dev.Only.have1 x.1 (fun hx => ?_) ?_; clear_value x; rotate_left; subst x) | (refine Dev.Only.have1 x.2 (fun hx => ?_) ?_; clear_value x; rotate_left; subst x) | (refine Dev.Only.fun1 x ?_; subst x; try dsimp -zeta only) | clear_value x)
    | with_reducible exact Dev.Only.refl _ _ _
    | with_reducible apply Dev.Only.step (Dev.foldBoth_only _ _ _ _ _ _)
    | with_reducible apply Dev.Only.step (Dev.spoilBarLine_only _ _ _ _ _)
    | with_reducible apply Dev.Only.step (Dev.raise_only _ _ _)
    | with_reducible apply Dev.Only.step (Dev.fifoPut_only _ _ _)
    | with_reducible apply Dev.Only.wr
    | (with_reducible apply Dev.Only.of_fst; assumption)
    | split)

theorem Dev.passLine_only (x0 : Dev) (x1 : Nat) (x2 : RSlot) (x3 : SlotRead) (x4 : Nat) :
    Dev.Only 0x1408b800100 0x601f540000000000000000000000000000000000000000000000000000000000008040 x0 (Dev.passLine x0 x1 x2 x3 x4) := by
  unfold Dev.passLine
  repeat' (first
    | with_reducible assumption
    | exact rfl
    | intro e
    | (extract_lets +onlyGivenNames x; first | (refine Dev.Only.have1 x (fun hx => ?_) ?_; clear_value x; rotate_left; subst x)  | (refine Dev.Only.have1 x.1 (fun hx => ?_) ?_; clear_value x; rotate_left; subst x) | (refine Dev.Only.have1 x.2 (fun hx => ?_) ?_; clear_value x; rotate_left; subst x) | (refine Dev.Only.fun1 x ?_; subst x; try dsimp -zeta only) | clear_value x)
    | with_reducible exact Dev.Only.refl _ _ _
    | with_reducible apply Dev.Only.step (Dev.spoilBarLine_only _ _ _ _ _)
    | with_reducible apply Dev.Only.step (Dev.passHead_only _ _ _ _ _ _ _ _ _)
    | with_reducible apply Dev.Only.forEach
    | (with_reducible apply Dev.Only.of_fst; assumption)
    | split)

theorem State.slotRead_only (x0 : State) (x1 : Nat) (x2 : SlotChecks) :
    State.Only 0x5408b880100 0x2080000000000000000000000000000000000000000000000601f540000000000000000000000000000020000000000000000000000000000008040 x0 (State.slotRead x0 x1 x2) := by
  unfold State.slotRead
  repeat' (first
    | with_reducible assumption
    | exact rfl
    | intro e
    | (extract_lets +onlyGivenNames x; first | (refine State.Only.have1 x (fun hx => ?_) ?_; clear_value x; rotate_left; subst x) | (refine State.Only.have2 x (fun hx => ?_) ?_; clear_value x; rotate_left; subst x) | (refine State.Only.fun1 x ?_; subst x; try dsimp -zeta only) | (refine Dev.Only.have1 x (fun hx => ?_) ?_; clear_value x; rotate_left; subst x) | (refine Dev.Only.fun1 x ?_; subst x; try dsimp -zeta only) | clear_value x)
    | with_reducible exact Dev.Only.refl _ _ _
    | with_reducible exact State.Only.refl _ _ _
    | (with_reducible apply State.Only.dev; with_reducible assumption)
    | with_reducible apply State.Only.step (State.retire_only _ _ _)
    | with_reducible apply Dev.Only.step (Dev.raise_only _ _ _)
    | with_reducible apply Dev.Only.step (Dev.passLine_only _ _ _ _ _)
    | with_reducible apply Dev.Only.forEach
    | (with_reducible apply Dev.Only.of_fst; assumption)
    | split
    | with_reducible apply State.Only.mkDev)

theorem execSlotReadStart_only (x0 : Pipe) (x1 : SlotChecks) (x2 : State) :
    Out.Only 0x5408bc80100 0x2080000000000000000000000000000000000000000000000601f54000000000000000000000000001c020000000000000000000000000000008040 x2 (execSlotReadStart x0 x1 x2) := by
  unfold execSlotReadStart
  repeat' (first
    | with_reducible assumption
    | exact rfl
    | with_reducible exact Dev.Only.refl _ _ _
    | with_reducible exact State.Only.refl _ _ _
    | (with_reducible apply State.Only.dev; with_reducible assumption)
    | with_reducible apply Out.Only.next
    | with_reducible apply State.Only.step (State.skipStep_only _ _)
    | with_reducible apply State.Only.step (State.slotRead_only _ _ _)
    | split)

theorem Dev.settleDropped_only (x0 : Dev) (x1 : Nat) (x2 : Nat) (x3 : Nat) (x4 : Nat) :
    Dev.Only 0x1408b000100 0x201f040000000000000000000000000000000000000000000000000000000000008040 x0 (Dev.settleDropped x0 x1 x2 x3 x4) := by
  unfold Dev.settleDropped
  repeat' (first
    | with_reducible assumption
    | exact rfl
    | intro e
    | with_reducible exact Dev.Only.refl _ _ _
    | with_reducible apply Dev.Only.step (Dev.closeProd_only _ _ _)
    | with_reducible apply Dev.Only.step (Dev.updProd_only _ _ _ _)
    | with_reducible apply Dev.Only.forEach)

theorem Dev.dropFifo_only (x0 : Dev) (x1 : Nat) (x2 : Nat) (x3 : Nat) :
    Dev.Only 0x800000 0 x0 (Dev.dropFifo x0 x1 x2 x3) := by
  unfold Dev.dropFifo
  repeat' (first
    | with_reducible assumption
    | exact rfl
    | intro e
    | (extract_lets +onlyGivenNames x; first | (refine Dev.Only.have1 x (fun hx => ?_) ?_; clear_value x; rotate_left; subst x)  | (refine Dev.Only.have1 x.1 (fun hx => ?_) ?_; clear_value x; rotate_left; subst x) | (refine Dev.Only.have1 x.2 (fun hx => ?_) ?_; clear_value x; rotate_left; subst x) | (refine Dev.Only.fun1 x ?_; subst x; try dsimp -zeta only) | clear_value x)
    | with_reducible exact Dev.Only.refl _ _ _
    | with_reducible apply Dev.Only.step (Dev.updLane_only _ _ _)
    | with_reducible apply Dev.Only.forEach
    | split)

theorem Dev.dropBarLines_only (x0 : Dev) (x1 : Nat) (x2 : Nat) (x3 : Nat) :
    Dev.Only 0x1408bc00100 0x201f04000000000000c018000000000000000000000000000000000000000000008040 x0 (Dev.dropBarLines x0 x1 x2 x3) := by
  unfold Dev.dropBarLines
  repeat' (first
    | with_reducible assumption
    | exact rfl
    | intro e
    | (extract_lets +onlyGivenNames x; first | (refine Dev.Only.have1 x (fun hx => ?_) ?_; clear_value x; rotate_left; subst x)  | (refine Dev.Only.have1 x.1 (fun hx => ?_) ?_; clear_value x; rotate_left; subst x) | (refine Dev.Only.have1 x.2 (fun hx => ?_) ?_; clear_value x; rotate_left; subst x) | (refine Dev.Only.fun1 x ?_; subst x; try dsimp -zeta only) | clear_value x)
    | with_reducible exact Dev.Only.refl _ _ _
    | with_reducible apply Dev.Only.step (Dev.dropFifo_only _ _ _ _)
    | with_reducible apply Dev.Only.step (Dev.settleLine_only _ _ _ _)
    | with_reducible apply Dev.Only.step (Dev.settleDropped_only _ _ _ _ _)
    | with_reducible apply Dev.Only.step (Dev.moveDue_only _ _ _)
    | with_reducible apply Dev.Only.forEach
    | (with_reducible apply Dev.Only.of_fst; assumption)
    | split
    | with_reducible apply Dev.Only.with_fire)

theorem State.skip_only (x0 : State) (x1 : Nat) :
    State.Only 0x5408bc80100 0x2080000000000000000000000000000000000000000000000201f04000000000000c01800000000001c020000000000000000000000000000008040 x0 (State.skip x0 x1) := by
  unfold State.skip
  repeat' (first
    | with_reducible assumption
    | exact rfl
    | (extract_lets +onlyGivenNames x; first | (refine State.Only.have1 x (fun hx => ?_) ?_; clear_value x; rotate_left; subst x) | (refine State.Only.have2 x (fun hx => ?_) ?_; clear_value x; rotate_left; subst x) | (refine State.Only.fun1 x ?_; subst x; try dsimp -zeta only) | (refine Dev.Only.have1 x (fun hx => ?_) ?_; clear_value x; rotate_left; subst x) | (refine Dev.Only.fun1 x ?_; subst x; try dsimp -zeta only) | clear_value x)
    | with_reducible exact Dev.Only.refl _ _ _
    | with_reducible exact State.Only.refl _ _ _
    | (with_reducible apply State.Only.dev; with_reducible assumption)
    | with_reducible apply State.Only.step (State.skipStep_only _ _)
    | with_reducible apply Dev.Only.step (Dev.dropBarLines_only _ _ _ _)
    | with_reducible apply Dev.Only.wr
    | split
    | with_reducible apply State.Only.mkDev)

theorem execSkipArm_only (x0 : Lvl) (x1 : Pipe) (x2 : State) :
    Out.Only 0x5408bc80100 0x2080000000000000000000000000000000000000000000000201f04000000000000c01800000000001c020000000000000000000fc00000001f8040 x2 (execSkipArm x0 x1 x2) := by
  unfold execSkipArm
  repeat' (first
    | exact rfl
    | intro e
    | (extract_lets +onlyGivenNames x; clear_value x)
    | with_reducible exact Dev.Only.refl _ _ _
    | with_reducible exact State.Only.refl _ _ _
    | with_reducible apply Out.Only.act
    | with_reducible apply Out.Only.next
    | with_reducible apply Dev.ownWrite_only
    | with_reducible apply State.Only.step (State.skip_only _ _)
    | split
    | assumption)

/-! ### Regs -/

theorem Dev.storePl_only (x0 : Dev) (x1 : Fld) (x2 : Nat) (x3 : Nat) :
    Dev.Only 0x1000bc82700 0x1fffffffffffffffffffffffffffffffffffffffffffffffffffffffffffffffffffffffffffffffffffffffffffffffffffffffffffffffffffffffffffffffffffffffffffff x0 (Dev.storePl x0 x1 x2 x3) := by
  unfold Dev.storePl
  repeat' (first
    | with_reducible assumption
    | exact rfl
    | intro e
    | (extract_lets +onlyGivenNames x; first | (refine Dev.Only.have1 x (fun hx => ?_) ?_; clear_value x; rotate_left; subst x)  | (refine Dev.Only.have1 x.1 (fun hx => ?_) ?_; clear_value x; rotate_left; subst x) | (refine Dev.Only.have1 x.2 (fun hx => ?_) ?_; clear_value x; rotate_left; subst x) | (refine Dev.Only.fun1 x ?_; subst x; try dsimp -zeta only) | clear_value x)
    | with_reducible exact Dev.Only.refl _ _ _
    | with_reducible apply Dev.Only.step (Dev.lowerLines_only _ _ _)
    | with_reducible apply Dev.Only.step (Dev.moveDue_only _ _ _)
    | with_reducible apply Dev.Only.forEach
    | with_reducible apply Dev.Only.wr
    | exact Fld.all_bit _
    | split
    | with_reducible apply Dev.Only.with_fire)

theorem Dev.laneDisable_only (x0 : Dev) (x1 : Nat) :
    Dev.Only 0x1408b802700 0x201f140300000010e00000000000000000000000000000000000000000000000008040 x0 (Dev.laneDisable x0 x1) := by
  unfold Dev.laneDisable
  repeat' (first
    | exact rfl
    | with_reducible exact Dev.Only.refl _ _ _
    | with_reducible apply Dev.Only.step (Dev.loseLane_only _ _ _ _))

theorem Dev.hrefEnable_only (x0 : Dev) :
    Dev.Only 0x1c08b802700 0x201f140340000010e00000000000000000000000000000000000000000000000008040 x0 (Dev.hrefEnable x0) := by
  unfold Dev.hrefEnable
  repeat' (first
    | with_reducible assumption
    | exact rfl
    | with_reducible exact Dev.Only.refl _ _ _
    | with_reducible apply Dev.Only.step (Dev.startHref_only _)
    | with_reducible apply Dev.Only.step (Dev.hrefOff_only _)
    | split)

theorem Dev.relays_only (x0 : Dev) :
    Dev.Only 0x8000000000 0 x0 (Dev.relays x0) := by
  unfold Dev.relays
  repeat' (first
    | exact rfl
    | (extract_lets +onlyGivenNames x; clear_value x)
    | with_reducible exact Dev.Only.refl _ _ _
    | with_reducible apply Dev.Only.with_pins)

theorem Dev.loopTestFree_only (x0 : Dev) (x1 : Nat) :
    Dev.Only 0x30000800000 0xc000000000000000000000000000000000000000000000000000000000 x0 (Dev.loopTestFree x0 x1) := by
  unfold Dev.loopTestFree
  repeat' (first
    | exact rfl
    | with_reducible exact Dev.Only.refl _ _ _
    | with_reducible apply Dev.Only.step (Dev.free_only _ _)
    | with_reducible apply Dev.Only.step (Dev.loopTest_only _ _ _))

theorem Dev.storeField_only (x0 : Dev) (x1 : Fld) (x2 : Nat) (x3 : Nat) (x4 : Nat) :
    Dev.Only 0x3c09fc82700 0x1fffffffffffffffffffffffffffffffffffffffffffffffffffffffffffffffffffffffffffffffffffffffffffffffffffffffffffffffffffffffffffffffffffffffffffff x0 (Dev.storeField x0 x1 x2 x3 x4) := by
  unfold Dev.storeField
  repeat' (first
    | with_reducible assumption
    | exact rfl
    | (extract_lets +onlyGivenNames x; first | (refine Dev.Only.have1 x (fun hx => ?_) ?_; clear_value x; rotate_left; subst x)  | (refine Dev.Only.have1 x.1 (fun hx => ?_) ?_; clear_value x; rotate_left; subst x) | (refine Dev.Only.have1 x.2 (fun hx => ?_) ?_; clear_value x; rotate_left; subst x) | (refine Dev.Only.fun1 x ?_; subst x; try dsimp -zeta only) | clear_value x)
    | with_reducible exact Dev.Only.refl _ _ _
    | with_reducible apply Dev.Only.step (Dev.storePl_only _ _ _ _)
    | with_reducible apply Dev.Only.step (Dev.rodWindow_only _ _ _)
    | with_reducible apply Dev.Only.step (Dev.axTarget_only _ _ _ _)
    | with_reducible apply Dev.Only.step (Dev.tallyPut_only _ _ _)
    | with_reducible apply Dev.Only.step (Dev.plTail_only _ _ _)
    | with_reducible apply Dev.Only.step (Dev.rodCommit_only _ _)
    | with_reducible apply Dev.Only.step (Dev.visCommit_only _ _)
    | with_reducible apply Dev.Only.step (Dev.visFfbase_only _ _ _)
    | with_reducible apply Dev.Only.step (Dev.loopMode_only _ _ _)
    | with_reducible apply Dev.Only.step (Dev.loopTestFree_only _ _)
    | with_reducible apply Dev.Only.step (Dev.laneDisable_only _ _)
    | with_reducible apply Dev.Only.step (Dev.hrefEnable_only _)
    | with_reducible apply Dev.Only.step (Dev.visEnable_only _ _)
    | with_reducible apply Dev.Only.step (Dev.setPlim_only _)
    | with_reducible apply Dev.Only.step (Dev.relays_only _)
    | with_reducible apply Dev.Only.wr
    | (with_reducible apply Dev.Only.of_fst; assumption)
    | exact Fld.all_bit _
    | split)

theorem Dev.clearField_only (x0 : Dev) (x1 : Fld) (x2 : Nat) (x3 : Nat) :
    Dev.Only 0x14080002100 0x1fffffffffffffffffffffffffffffffffffffffffffffffffffffffffffffffffffffffffffffffffffffffffffffffffffffffffffffffffffffffffffffffffffffffffffff x0 (Dev.clearField x0 x1 x2 x3) := by
  unfold Dev.clearField
  repeat' (first
    | exact rfl
    | exact Fld.all_bit _
    | with_reducible exact Dev.Only.refl _ _ _
    | with_reducible apply Dev.Only.step (Dev.releaseRk_only _ _)
    | with_reducible apply Dev.Only.wr
    | split)

theorem Dev.actField_only (x0 : Dev) (x1 : Fld) (x2 : Nat) (x3 : Nat) :
    Dev.Only 0x1409c044100 0x1fffffffffffffffffffffffffffffffffffffffffffffffffffffffffffffffffffffffffffffffffffffffffffffffffffffffffffffffffffffffffffffffffffffffffffff x0 (Dev.actField x0 x1 x2 x3) := by
  unfold Dev.actField
  repeat' (first
    | exact rfl
    | with_reducible exact Dev.Only.refl _ _ _
    | with_reducible apply Dev.Only.step (Dev.axFclr_only _ _)
    | with_reducible apply Dev.Only.step (Dev.axHome_only _ _)
    | with_reducible apply Dev.Only.step (Dev.axStop_only _ _)
    | with_reducible apply Dev.Only.step (Dev.demand_only _ _)
    | with_reducible apply Dev.Only.step (Dev.rodEnqueue_only _ _ _)
    | with_reducible apply Dev.Only.step (Dev.rodRelease_only _ _)
    | with_reducible apply Dev.Only.step (Dev.tallyFeed_only _ _)
    | with_reducible apply Dev.Only.step (Dev.tallyFold_only _ _)
    | with_reducible apply Dev.Only.step (Dev.trArm_only _ _)
    | with_reducible apply Dev.Only.step (Dev.updDp_only _ _ _)
    | with_reducible apply Dev.Only.step (Dev.updVp_only _ _ _)
    | with_reducible apply Dev.Only.step (Dev.visEnqueue_only _ _ _)
    | with_reducible apply Dev.Only.wr
    | split)

theorem Dev.writeField_only (x0 : Dev) (x1 : Nat) (x2 : Nat) (x3 : Fld) (x4 : Nat) (x5 : Nat) :
    Dev.Only 0x3c09fcc6700 0x1fffffffffffffffffffffffffffffffffffffffffffffffffffffffffffffffffffffffffffffffffffffffffffffffffffffffffffffffffffffffffffffffffffffffffffff x0 (Dev.writeField x0 x1 x2 x3 x4 x5) := by
  unfold Dev.writeField
  repeat' (first
    | exact rfl
    | (extract_lets +onlyGivenNames x; clear_value x)
    | with_reducible exact Dev.Only.refl _ _ _
    | with_reducible apply Dev.Only.step (Dev.actField_only _ _ _ _)
    | with_reducible apply Dev.Only.step (Dev.clearField_only _ _ _ _)
    | with_reducible apply Dev.Only.step (Dev.storeField_only _ _ _ _ _)
    | split)

theorem Dev.lpWrite_only (x0 : Dev) (x1 : Nat) (x2 : Nat) :
    Dev.Only 0x10000800000 0x300001e10e00000000000000000000000000000000000000000000000000000 x0 (Dev.lpWrite x0 x1 x2) := by
  unfold Dev.lpWrite
  repeat' (first
    | exact rfl
    | with_reducible exact Dev.Only.refl _ _ _
    | with_reducible apply Dev.Only.step (Dev.askWake_only _ _)
    | with_reducible apply Dev.Only.step (Dev.lpRequest_only _ _ _ _ _)
    | split)

theorem Dev.writeWord_only (x0 : Dev) (x1 : Nat) (x2 : Nat) (x3 : RegInfo) (x4 : Nat) (x5 : Nat) :
    Dev.Only 0x3c09fcc6700 0x1fffffffffffffffffffffffffffffffffffffffffffffffffffffffffffffffffffffffffffffffffffffffffffffffffffffffffffffffffffffffffffffffffffffffffffff x0 (Dev.writeWord x0 x1 x2 x3 x4 x5) := by
  unfold Dev.writeWord
  repeat' (first
    | with_reducible assumption
    | exact rfl
    | intro e
    | (extract_lets +onlyGivenNames x; (refine Dev.Only.have1 x (fun hx => ?_) ?_; clear_value x; rotate_left; subst x))
    | with_reducible exact Dev.Only.refl _ _ _
    | with_reducible apply Dev.Only.step (Dev.lpWrite_only _ _ _)
    | with_reducible apply Dev.Only.step (Dev.writeField_only _ _ _ _ _ _)
    | with_reducible apply Dev.Only.forEach
    | split)

theorem State.writeActs_only (x0 : State) (x1 : Dev) (x2 : Nat) (x3 : RegInfo) (x4 : Nat) :
    State.Only 0x5fffffffffc 0x1fffffffffffffffffffffffffffffffffffffffffffffffffffffffffffffffffffffffffffffffbfffffffffffffffffffffffffffffffffffffffffffffffff0b0122a08078 x0 (State.writeActs x0 x1 x2 x3 x4) := by
  unfold State.writeActs
  repeat' (first
    | with_reducible assumption
    | exact rfl
    | (extract_lets +onlyGivenNames x; first | (refine State.Only.have1 x (fun hx => ?_) ?_; clear_value x; rotate_left; subst x) | (refine State.Only.have2 x (fun hx => ?_) ?_; clear_value x; rotate_left; subst x) | (refine State.Only.fun1 x ?_; subst x; try dsimp -zeta only) | (refine Dev.Only.have1 x (fun hx => ?_) ?_; clear_value x; rotate_left; subst x) | (refine Dev.Only.fun1 x ?_; subst x; try dsimp -zeta only) | clear_value x)
    | with_reducible exact Dev.Only.refl _ _ _
    | with_reducible exact State.Only.refl _ _ _
    | (with_reducible apply State.Only.dev; with_reducible assumption)
    | with_reducible apply Dev.Only.step (Dev.addBuffers_only _ _ _)
    | with_reducible apply State.Only.step (State.reloadFreed_only _ _)
    | with_reducible apply State.Only.step (State.skip_only _ _)
    | with_reducible apply State.Only.step (State.restartWrite_only _)
    | split
    | with_reducible apply State.Only.mkDev)

theorem State.regWrite_only (x0 : State) (x1 : Nat) (x2 : Nat) (x3 : Nat) :
    State.Only 0x7fffffffffc 0x1fffffffffffffffffffffffffffffffffffffffffffffffffffffffffffffffffffffffffffffffffffffffffffffffffffffffffffffffffffffffffffffffffffffffffffff x0 (State.regWrite x0 x1 x2 x3) := by
  unfold State.regWrite
  repeat' (first
    | with_reducible assumption
    | exact rfl
    | (extract_lets +onlyGivenNames x; first | (refine State.Only.have1 x (fun hx => ?_) ?_; clear_value x; rotate_left; subst x) | (refine State.Only.have2 x (fun hx => ?_) ?_; clear_value x; rotate_left; subst x) | (refine State.Only.fun1 x ?_; subst x; try dsimp -zeta only) | (refine Dev.Only.have1 x (fun hx => ?_) ?_; clear_value x; rotate_left; subst x) | (refine Dev.Only.fun1 x ?_; subst x; try dsimp -zeta only) | clear_value x)
    | with_reducible exact Dev.Only.refl _ _ _
    | with_reducible exact State.Only.refl _ _ _
    | (with_reducible apply State.Only.dev; with_reducible assumption)
    | with_reducible apply Dev.Only.step (Dev.protRefuse_only _ _ _ _ _)
    | with_reducible apply Dev.Only.step (Dev.busError_only _ _ _ _ _)
    | with_reducible apply State.Only.step (State.writeActs_only _ _ _ _ _)
    | with_reducible apply Dev.Only.step (Dev.writeWord_only _ _ _ _ _ _)
    | (with_reducible apply Dev.Only.of_fst; assumption)
    | split
    | with_reducible apply State.Only.mkDev)

theorem execRegisterWrite_only (x0 : Lvl) (x1 : U32) (x2 : U32) (x3 : State) :
    Out.Only 0x7fffffffffc 0x1fffffffffffffffffffffffffffffffffffffffffffffffffffffffffffffffffffffffffffffffffffffffffffffffffffffffffffffffffffffffffffffffffffffffffffff x3 (execRegisterWrite x0 x1 x2 x3) := by
  unfold execRegisterWrite
  repeat' (first
    | exact rfl
    | with_reducible exact State.Only.refl _ _ _
    | with_reducible apply Out.Only.next
    | with_reducible apply State.Only.step (State.regWrite_only _ _ _ _))

theorem Dev.invalidAccess_only (x0 : Dev) (x1 : Nat) (x2 : Nat) (x3 : Nat) (x4 : Bool) :
    Dev.Only 0x14080000100 0xfc00000001f8040 x0 (Dev.invalidAccess x0 x1 x2 x3 x4) := by
  unfold Dev.invalidAccess
  repeat' (first
    | exact rfl
    | with_reducible exact Dev.Only.refl _ _ _
    | with_reducible apply Dev.Only.step (Dev.busError_only _ _ _ _ _)
    | with_reducible apply Dev.Only.step (Dev.protRefuse_only _ _ _ _ _)
    | split)

theorem execInvalidRegisterAccess_only (x0 : Lvl) (x1 : U32) (x2 : Byte) (x3 : Bool) (x4 : State) :
    Out.Only 0x14080000100 0xfc00000001f8040 x4 (execInvalidRegisterAccess x0 x1 x2 x3 x4) := by
  unfold execInvalidRegisterAccess
  repeat' (first
    | exact rfl
    | with_reducible exact Dev.Only.refl _ _ _
    | with_reducible exact State.Only.refl _ _ _
    | with_reducible apply Out.Only.act
    | with_reducible apply Dev.Only.step (Dev.invalidAccess_only _ _ _ _ _))

/-! ### Crown -/

theorem State.applyRegs_only (x0 : State) (x1 : List (Nat × Nat)) :
    State.Only 0x7fffffffffc 0x1fffffffffffffffffffffffffffffffffffffffffffffffffffffffffffffffffffffffffffffffffffffffffffffffffffffffffffffffffffffffffffffffffffffffffffff x0 (State.applyRegs x0 x1) := by
  unfold State.applyRegs
  repeat' (first
    | with_reducible assumption
    | exact rfl
    | intro e
    | with_reducible exact State.Only.refl _ _ _
    | with_reducible apply State.Only.step (State.regWrite_only _ _ _ _)
    | with_reducible apply State.Only.foldl
    | split)

/-! ### Ring -/

theorem Dev.updRing_only (x0 : Dev) (x1 : Ring → Ring) :
    Dev.Only 0x2000000000 0 x0 (Dev.updRing x0 x1) := by
  unfold Dev.updRing
  repeat' (first
    | exact rfl
    | with_reducible exact Dev.Only.refl _ _ _
    | with_reducible apply Dev.Only.with_ring)

theorem Dev.ringMaster_only (x0 : Dev) :
    Dev.Only 0x16080000100 0x2c000000000000000000000000000000000000000000000000000000000000000000000000000000000000000000000000000000000000000000000000000000000008040 x0 (Dev.ringMaster x0) := by
  unfold Dev.ringMaster
  repeat' (first
    | with_reducible assumption
    | exact rfl
    | (extract_lets +onlyGivenNames x; first | (refine Dev.Only.have1 x (fun hx => ?_) ?_; clear_value x; rotate_left; subst x) | clear_value x)
    | with_reducible exact Dev.Only.refl _ _ _
    | with_reducible apply Dev.Only.step (Dev.raise_only _ _ _)
    | with_reducible apply Dev.Only.step (Dev.updRing_only _ _)
    | with_reducible apply Dev.Only.wr
    | split)

theorem Dev.updOrig_only (x0 : Dev) (x1 : Nat) (x2 : Orig → Orig) :
    Dev.Only 0x12000000180 0x40000000000000000000000000000000000000000000000000000000000000000000000000000000000000000000000000000000000000000000000000000000000000010 x0 (Dev.updOrig x0 x1 x2) := by
  unfold Dev.updOrig
  repeat' (first
    | with_reducible assumption
    | exact rfl
    | (extract_lets +onlyGivenNames x; first | (refine Dev.Only.have1 x (fun hx => ?_) ?_; clear_value x; rotate_left; subst x) | clear_value x)
    | with_reducible exact Dev.Only.refl _ _ _
    | with_reducible apply Dev.Only.step (Dev.holdCause_only _ _)
    | with_reducible apply Dev.Only.step (Dev.setHold_only _ _ _)
    | with_reducible apply Dev.Only.step (Dev.updRing_only _ _)
    | with_reducible apply Dev.Only.wr
    | split)

theorem Dev.ringAlive_only (x0 : Dev) :
    Dev.Only 0x16080000180 0x406e000000000000000000000000000000000000000000000000000000000000000000000000000000000000000000000000000000000000000000000000000000000008050 x0 (Dev.ringAlive x0) := by
  unfold Dev.ringAlive
  repeat' (first
    | with_reducible assumption
    | exact rfl
    | intro e
    | (extract_lets +onlyGivenNames x; (refine Dev.Only.have1 x (fun hx => ?_) ?_; clear_value x; rotate_left; subst x))
    | with_reducible exact Dev.Only.refl _ _ _
    | with_reducible apply Dev.Only.step (Dev.raise_only _ _ _)
    | with_reducible apply Dev.Only.step (Dev.ringMaster_only _)
    | with_reducible apply Dev.Only.step (Dev.updOrig_only _ _ _)
    | with_reducible apply Dev.Only.step (Dev.updRing_only _ _)
    | with_reducible apply Dev.Only.wr
    | with_reducible apply Dev.Only.inc
    | with_reducible apply Dev.Only.forEach
    | split)

theorem Dev.ringFrame_only {c r : Nat} {d e : Dev} {src hops : Nat} {pay : RingPay} {k : Dev → Dev}
    (hk : ∀ e, Dev.Only c r d e → Dev.Only c r d (k e)) (hc : 0x16080000180 &&& c = 0x16080000180) (hr : 0x406e000000000000000000000000000000000000000000000000000000000000000000000000000000000000000000000000000000000000000000000000000000000008050 &&& r = 0x406e000000000000000000000000000000000000000000000000000000000000000000000000000000000000000000000000000000000000000000000000000000000008050)
    (h : Dev.Only c r d e) : Dev.Only c r d (e.ringFrame src hops pay k) := by
  unfold Dev.ringFrame
  split
  · exact h
  · extract_lets +onlyGivenNames x
    have hx : Dev.Only c r d x := Dev.Only.step (Dev.Only.mono (Dev.ringAlive_only _) rfl rfl) hc hr h
    clear_value x
    extract_lets +onlyGivenNames y
    have hy : Dev.Only c r d y := by
      subst y
      split
      · exact hx
      · exact Dev.Only.step (Dev.Only.mono (Dev.emit_only _ _) rfl rfl) hc hr hx
    exact hk _ hy

theorem execRingHoldFrame_only (x0 : RingId) (x1 : RingId) (x2 : Bool) (x3 : Byte) (x4 : U16) (x5 : State) :
    Out.Only 0x16080000180 0x406e000000000000000000000000000000000000000000000000000000000000000000000000000000000000000000000000000000000000000000000000000000000008050 x5 (execRingHoldFrame x0 x1 x2 x3 x4 x5) := by
  unfold execRingHoldFrame
  repeat' (first
    | with_reducible assumption
    | exact rfl
    | intro e
    | (extract_lets +onlyGivenNames x; first | (refine Out.Only.have1 x (fun hx => ?_) ?_; clear_value x; rotate_left; subst x) | (refine Out.Only.have2 x (fun hx => ?_) ?_; clear_value x; rotate_left; subst x)  | (refine State.Only.have1 x (fun hx => ?_) ?_; clear_value x; rotate_left; subst x) | (refine State.Only.have2 x (fun hx => ?_) ?_; clear_value x; rotate_left; subst x) | (refine Dev.Only.have1 x (fun hx => ?_) ?_; clear_value x; rotate_left; subst x) | clear_value x)
    | with_reducible exact Dev.Only.refl _ _ _
    | with_reducible exact State.Only.refl _ _ _
    | (with_reducible apply State.Only.dev; with_reducible assumption)
    | with_reducible apply Out.Only.act
    | with_reducible apply Out.Only.next
    | with_reducible apply Dev.ringFrame_only
    | with_reducible apply Dev.Only.step (Dev.updOrig_only _ _ _)
    | split
    | with_reducible apply State.Only.mkDev)

theorem execRingHoldOriginatorTimeout_only (x0 : RingId) (x1 : State) :
    Out.Only 0x12000000180 0x40000000000000000000000000000000000000000000000000000000000000000000000000000000000000000000000000000000000000000000000000000000000000010 x1 (execRingHoldOriginatorTimeout x0 x1) := by
  unfold execRingHoldOriginatorTimeout
  repeat' (first
    | with_reducible assumption
    | exact rfl
    | (extract_lets +onlyGivenNames x; first | (refine Out.Only.have1 x (fun hx => ?_) ?_; clear_value x; rotate_left; subst x) | (refine Out.Only.have2 x (fun hx => ?_) ?_; clear_value x; rotate_left; subst x)  | (refine State.Only.have1 x (fun hx => ?_) ?_; clear_value x; rotate_left; subst x) | (refine State.Only.have2 x (fun hx => ?_) ?_; clear_value x; rotate_left; subst x) | (refine Dev.Only.have1 x (fun hx => ?_) ?_; clear_value x; rotate_left; subst x) | clear_value x)
    | with_reducible exact Dev.Only.refl _ _ _
    | with_reducible exact State.Only.refl _ _ _
    | (with_reducible apply State.Only.dev; with_reducible assumption)
    | with_reducible apply Out.Only.act
    | with_reducible apply Out.Only.next
    | with_reducible apply Dev.Only.step (Dev.updOrig_only _ _ _)
    | split
    | with_reducible apply State.Only.mkDev)

theorem execRingHoldSend_only (x0 : State) :
    Out.Only 0x12000000000 0 x0 (execRingHoldSend x0) := by
  unfold execRingHoldSend
  repeat' (first
    | exact rfl
    | with_reducible exact Dev.Only.refl _ _ _
    | with_reducible exact State.Only.refl _ _ _
    | with_reducible apply Out.Only.act
    | with_reducible apply Dev.Only.step (Dev.ringHold_only _ _)
    | split)

theorem execRingMemberLost_only (x0 : RingId) (x1 : State) :
    Out.Only 0x16080000180 0x6c000000000000000000000000000000000000000000000000000000000000000000000000000000000000000000000000000000000000000000000000000000000008050 x1 (execRingMemberLost x0 x1) := by
  unfold execRingMemberLost
  repeat' (first
    | with_reducible assumption
    | exact rfl
    | (extract_lets +onlyGivenNames x; first | (refine Out.Only.have1 x (fun hx => ?_) ?_; clear_value x; rotate_left; subst x) | (refine Out.Only.have2 x (fun hx => ?_) ?_; clear_value x; rotate_left; subst x)  | (refine State.Only.have1 x (fun hx => ?_) ?_; clear_value x; rotate_left; subst x) | (refine State.Only.have2 x (fun hx => ?_) ?_; clear_value x; rotate_left; subst x) | (refine Dev.Only.have1 x (fun hx => ?_) ?_; clear_value x; rotate_left; subst x) | clear_value x)
    | with_reducible exact Dev.Only.refl _ _ _
    | with_reducible exact State.Only.refl _ _ _
    | (with_reducible apply State.Only.dev; with_reducible assumption)
    | with_reducible apply Out.Only.act
    | with_reducible apply Out.Only.next
    | with_reducible apply Dev.Only.step (Dev.ringMaster_only _)
    | with_reducible apply Dev.Only.step (Dev.updRing_only _ _)
    | with_reducible apply Dev.Only.step (Dev.raise_only _ _ _)
    | with_reducible apply Dev.Only.step (Dev.updOrig_only _ _ _)
    | split
    | with_reducible apply State.Only.mkDev)

theorem execRingDown_only (x0 : State) :
    Out.Only 0x16080000180 0x4042000000000000000000000000000000000000000000000000000000000000000000000000000000000000000000000000000000000000000000000000000000000008050 x0 (execRingDown x0) := by
  unfold execRingDown
  repeat' (first
    | with_reducible assumption
    | exact rfl
    | intro e
    | (extract_lets +onlyGivenNames x; first | (refine Out.Only.have1 x (fun hx => ?_) ?_; clear_value x; rotate_left; subst x) | (refine Out.Only.have2 x (fun hx => ?_) ?_; clear_value x; rotate_left; subst x)  | (refine State.Only.have1 x (fun hx => ?_) ?_; clear_value x; rotate_left; subst x) | (refine State.Only.have2 x (fun hx => ?_) ?_; clear_value x; rotate_left; subst x) | (refine Dev.Only.have1 x (fun hx => ?_) ?_; clear_value x; rotate_left; subst x) | clear_value x)
    | with_reducible exact Dev.Only.refl _ _ _
    | with_reducible exact State.Only.refl _ _ _
    | (with_reducible apply State.Only.dev; with_reducible assumption)
    | with_reducible apply Out.Only.act
    | with_reducible apply Out.Only.next
    | with_reducible apply Dev.Only.step (Dev.raise_only _ _ _)
    | with_reducible apply Dev.Only.step (Dev.updOrig_only _ _ _)
    | with_reducible apply Dev.Only.forEach
    | with_reducible apply Dev.Only.wr
    | with_reducible apply Dev.Only.inc
    | split
    | with_reducible apply State.Only.mkDev)

theorem execRingFrameCrcFail_only (x0 : State) :
    Out.Only 0 0x2000000000000000000000000000000000000000000000000000000000000000000000000000000000000000000000000000000000000000000000000000000000000000000 x0 (execRingFrameCrcFail x0) := by
  unfold execRingFrameCrcFail
  repeat' (first
    | exact rfl
    | with_reducible exact Dev.Only.refl _ _ _
    | with_reducible exact State.Only.refl _ _ _
    | with_reducible apply Out.Only.act
    | with_reducible apply Dev.Only.inc
    | split)

theorem Dev.ringPulse_only (x0 : Dev) (x1 : Nat) (x2 : Nat) (x3 : Nat) (x4 : Nat) :
    Dev.Only 0x16080000100 0x300000000000000000000000000000000000000000000000000000000000000000000000000000000000000000000000000000000000000000000000000000000000008040 x0 (Dev.ringPulse x0 x1 x2 x3 x4) := by
  unfold Dev.ringPulse
  repeat' (first
    | with_reducible assumption
    | exact rfl
    | (extract_lets +onlyGivenNames x; first | (refine Dev.Only.have1 x (fun hx => ?_) ?_; clear_value x; rotate_left; subst x) | clear_value x)
    | with_reducible exact Dev.Only.refl _ _ _
    | with_reducible apply Dev.Only.step (Dev.raise_only _ _ _)
    | with_reducible apply Dev.Only.step (Dev.updRing_only _ _)
    | with_reducible apply Dev.Only.wr
    | split)

theorem execRingPulseFrame_only (x0 : RingId) (x1 : RingId) (x2 : U32) (x3 : U32) (x4 : State) :
    Out.Only 0x16080000180 0x436e000000000000000000000000000000000000000000000000000000000000000000000000000000000000000000000000000000000000000000000000000000000008050 x4 (execRingPulseFrame x0 x1 x2 x3 x4) := by
  unfold execRingPulseFrame
  repeat' (first
    | with_reducible assumption
    | exact rfl
    | intro e
    | with_reducible exact Dev.Only.refl _ _ _
    | with_reducible exact State.Only.refl _ _ _
    | with_reducible apply Out.Only.act
    | with_reducible apply Dev.ringFrame_only
    | with_reducible apply Dev.Only.step (Dev.ringPulse_only _ _ _ _ _))

theorem execPulseSend_only (x0 : State) :
    Out.Only 0x12000000000 0 x0 (execPulseSend x0) := by
  unfold execPulseSend
  repeat' (first
    | exact rfl
    | with_reducible exact Dev.Only.refl _ _ _
    | with_reducible exact State.Only.refl _ _ _
    | with_reducible apply Out.Only.act
    | with_reducible apply Dev.Only.step (Dev.ringSend_only _ _)
    | with_reducible apply Dev.Only.step (Dev.updRing_only _ _)
    | split)

theorem execCountLatch_only (x0 : State) :
    Out.Only 0x2000000000 0x400000000000000000000000000000000000000000000000000000000000000000000000000000000000000000000000000000000000000000000000000000000000000000 x0 (execCountLatch x0) := by
  unfold execCountLatch
  repeat' (first
    | exact rfl
    | with_reducible exact Dev.Only.refl _ _ _
    | with_reducible exact State.Only.refl _ _ _
    | with_reducible apply Out.Only.act
    | with_reducible apply Dev.Only.step (Dev.updRing_only _ _)
    | with_reducible apply Dev.Only.wr
    | split)

theorem Dev.dropGroup_only (x0 : Dev) (x1 : Nat) (x2 : Nat) :
    Dev.Only 0x16090000100 0x8040 x0 (Dev.dropGroup x0 x1 x2) := by
  unfold Dev.dropGroup
  repeat' (first
    | with_reducible assumption
    | exact rfl
    | intro e
    | (extract_lets +onlyGivenNames x; (refine Dev.Only.have1 x (fun hx => ?_) ?_; clear_value x; rotate_left; subst x))
    | with_reducible exact Dev.Only.refl _ _ _
    | with_reducible apply Dev.Only.step (Dev.raise_only _ _ _)
    | with_reducible apply Dev.Only.step (Dev.updAx_only _ _ _)
    | with_reducible apply Dev.Only.step (Dev.updRing_only _ _)
    | with_reducible apply Dev.Only.forEach)

theorem Dev.groupStart_only (x0 : Dev) (x1 : Nat) (x2 : Int) :
    Dev.Only 0x16090000100 0x8040 x0 (Dev.groupStart x0 x1 x2) := by
  unfold Dev.groupStart
  repeat' (first
    | exact rfl
    | with_reducible exact Dev.Only.refl _ _ _
    | with_reducible apply Dev.Only.step (Dev.dropGroup_only _ _ _)
    | with_reducible apply Dev.Only.step (Dev.updRing_only _ _)
    | split)

theorem Dev.masterGroups_only (x0 : Dev) :
    Dev.Only 0x16090000100 0x8040 x0 (Dev.masterGroups x0) := by
  unfold Dev.masterGroups
  repeat' (first
    | with_reducible assumption
    | exact rfl
    | intro e
    | (extract_lets +onlyGivenNames x; first | (refine Dev.Only.have1 x (fun hx => ?_) ?_; clear_value x; rotate_left; subst x) | clear_value x)
    | with_reducible exact Dev.Only.refl _ _ _
    | with_reducible apply Dev.Only.step (Dev.groupStart_only _ _ _)
    | with_reducible apply Dev.Only.step (Dev.ringSend_only _ _)
    | with_reducible apply Dev.Only.step (Dev.updRing_only _ _)
    | with_reducible apply Dev.Only.forEach
    | split)

theorem Dev.groupTarget_only (x0 : Dev) (x1 : Nat) :
    Dev.Only 0x16090000100 0x8040 x0 (Dev.groupTarget x0 x1) := by
  unfold Dev.groupTarget
  repeat' (first
    | exact rfl
    | with_reducible exact Dev.Only.refl _ _ _
    | with_reducible apply Dev.Only.step (Dev.masterGroups_only _)
    | with_reducible apply Dev.Only.step (Dev.updRing_only _ _)
    | split)

theorem execRingStartFrame_only (x0 : RingId) (x1 : RingId) (x2 : RingId) (x3 : U32) (x4 : U32) (x5 : State) :
    Out.Only 0x16090000180 0x406e000000000000000000000000000000000000000000000000000000000000000000000000000000000000000000000000000000000000000000000000000000000008050 x5 (execRingStartFrame x0 x1 x2 x3 x4 x5) := by
  unfold execRingStartFrame
  repeat' (first
    | with_reducible assumption
    | exact rfl
    | intro e
    | with_reducible exact Dev.Only.refl _ _ _
    | with_reducible exact State.Only.refl _ _ _
    | with_reducible apply Out.Only.act
    | with_reducible apply Dev.Only.step (Dev.groupStart_only _ _ _)
    | with_reducible apply Dev.ringFrame_only
    | split)

theorem execGroupStartTimeout_only (x0 : RingId) (x1 : State) :
    Out.Only 0x16090000100 0x8040 x1 (execGroupStartTimeout x0 x1) := by
  unfold execGroupStartTimeout
  repeat' (first
    | with_reducible assumption
    | exact rfl
    | with_reducible exact Dev.Only.refl _ _ _
    | with_reducible exact State.Only.refl _ _ _
    | (with_reducible apply State.Only.dev; with_reducible assumption)
    | with_reducible apply Out.Only.act
    | with_reducible apply Out.Only.next
    | with_reducible apply Dev.Only.step (Dev.dropGroup_only _ _ _)
    | split
    | with_reducible apply State.Only.mkDev)

theorem Dev.ringStatus_only (x0 : Dev) (x1 : Nat) (x2 : Nat) (x3 : Nat) (x4 : Nat) :
    Dev.Only 0x16090000180 0x6c000000000000000000000000000000000000000000000000000000000000000000000000000000000000000000000000000000000000000000000000000000000008050 x0 (Dev.ringStatus x0 x1 x2 x3 x4) := by
  unfold Dev.ringStatus
  repeat' (first
    | with_reducible assumption
    | exact rfl
    | (extract_lets +onlyGivenNames x; first | (refine Dev.Only.have1 x (fun hx => ?_) ?_; clear_value x; rotate_left; subst x) | clear_value x)
    | with_reducible exact Dev.Only.refl _ _ _
    | with_reducible apply Dev.Only.step (Dev.masterGroups_only _)
    | with_reducible apply Dev.Only.step (Dev.ringMaster_only _)
    | with_reducible apply Dev.Only.step (Dev.updOrig_only _ _ _)
    | with_reducible apply Dev.Only.step (Dev.updRing_only _ _)
    | split)

theorem execRingStatusFrame_only (x0 : RingId) (x1 : RingId) (x2 : Bool) (x3 : Byte) (x4 : Byte) (x5 : Byte) (x6 : Byte) (x7 : Byte) (x8 : U32) (x9 : State) :
    Out.Only 0x16090000180 0x40ee000000000000000000000000000000000000000000000000000000000000000000000000000000000000000000000000000000000000000000000000000000000008050 x9 (execRingStatusFrame x0 x1 x2 x3 x4 x5 x6 x7 x8 x9) := by
  unfold execRingStatusFrame
  repeat' (first
    | with_reducible assumption
    | exact rfl
    | intro e
    | with_reducible exact Dev.Only.refl _ _ _
    | with_reducible exact State.Only.refl _ _ _
    | with_reducible apply Out.Only.act
    | with_reducible apply Dev.Only.step (Dev.raise_only _ _ _)
    | with_reducible apply Dev.ringFrame_only
    | with_reducible apply Dev.Only.step (Dev.ringMaster_only _)
    | with_reducible apply Dev.Only.step (Dev.ringStatus_only _ _ _ _ _)
    | with_reducible apply Dev.Only.wr
    | split)

theorem execRingStatusSend_only (x0 : State) :
    Out.Only 0x16080000100 0x2c000000000000000000000000000000000000000000000000000000000000000000000000000000000000000000000000000000000000000000000000000000000008040 x0 (execRingStatusSend x0) := by
  unfold execRingStatusSend
  repeat' (first
    | exact rfl
    | with_reducible exact Dev.Only.refl _ _ _
    | with_reducible exact State.Only.refl _ _ _
    | with_reducible apply Out.Only.act
    | with_reducible apply Dev.Only.step (Dev.ringMaster_only _)
    | with_reducible apply Dev.Only.step (Dev.ringSend_only _ _))

/-! ### Memory -/

theorem Dev.updMch_only (x0 : Dev) (x1 : Nat) (x2 : MemCh → MemCh) :
    Dev.Only 0x400000000 0 x0 (Dev.updMch x0 x1 x2) := by
  unfold Dev.updMch
  repeat' (first
    | exact rfl
    | with_reducible exact Dev.Only.refl _ _ _
    | with_reducible apply Dev.Only.with_msub)

theorem Dev.refreshInterval_only (x0 : Dev) (x1 : Nat) (x2 : Bool) :
    Dev.Only 0x400000000 0x2000000000000000000000000000000000000000000000000000000000000000000000000000000000000000000000000000000000000000000 x0 (Dev.refreshInterval x0 x1 x2) := by
  unfold Dev.refreshInterval
  repeat' (first
    | exact rfl
    | (extract_lets +onlyGivenNames x; clear_value x)
    | with_reducible exact Dev.Only.refl _ _ _
    | with_reducible apply Dev.Only.step (Dev.updMch_only _ _ _)
    | with_reducible apply Dev.Only.wr
    | split)

theorem execRefreshInterval_only (x0 : Chan) (x1 : Bool) (x2 : State) :
    Out.Only 0x400000000 0x2000000000000000000000000000000000000000000000000000000000000000000000000000000000000000000000000000000000000000000 x2 (execRefreshInterval x0 x1 x2) := by
  unfold execRefreshInterval
  repeat' (first
    | exact rfl
    | with_reducible exact Dev.Only.refl _ _ _
    | with_reducible exact State.Only.refl _ _ _
    | with_reducible apply Out.Only.act
    | with_reducible apply Dev.Only.step (Dev.refreshInterval_only _ _ _))

theorem Dev.startRun_only (x0 : Dev) :
    Dev.Only 0x400000000 0x40000c000000000000000000000000000000000000000000000000000000000000000000000000000000000000000000000000000000000000000000 x0 (Dev.startRun x0) := by
  unfold Dev.startRun
  repeat' (first
    | with_reducible assumption
    | exact rfl
    | intro e
    | (extract_lets +onlyGivenNames x; (refine Dev.Only.have1 x (fun hx => ?_) ?_; clear_value x; rotate_left; subst x))
    | with_reducible exact Dev.Only.refl _ _ _
    | with_reducible apply Dev.Only.step (Dev.updMch_only _ _ _)
    | with_reducible apply Dev.Only.wr
    | with_reducible apply Dev.Only.forEach)

theorem Dev.pendRun_only (x0 : Dev) (x1 : Nat) :
    Dev.Only 0x400000000 0x40002c000000000000000000000000000000000000000000000000000000000000000000000000000000000000000000000000000000000000000000 x0 (Dev.pendRun x0 x1) := by
  unfold Dev.pendRun
  repeat' (first
    | with_reducible assumption
    | exact rfl
    | (extract_lets +onlyGivenNames x; (refine Dev.Only.have1 x (fun hx => ?_) ?_; clear_value x; rotate_left; subst x))
    | with_reducible exact Dev.Only.refl _ _ _
    | with_reducible apply Dev.Only.step (Dev.startRun_only _)
    | with_reducible apply Dev.Only.step (Dev.updMch_only _ _ _)
    | with_reducible apply Dev.Only.wr
    | split)

theorem Dev.sampleBand_only (x0 : Dev) (x1 : Nat) :
    Dev.Only 0x14480000100 0x3000000000000000000000000000000000000000000000000000000000000000000000000000000000000000000000000000000000000008040 x0 (Dev.sampleBand x0 x1) := by
  unfold Dev.sampleBand
  repeat' (first
    | with_reducible assumption
    | exact rfl
    | (extract_lets +onlyGivenNames x; first | (refine Dev.Only.have1 x (fun hx => ?_) ?_; clear_value x; rotate_left; subst x) | clear_value x)
    | with_reducible exact Dev.Only.refl _ _ _
    | with_reducible apply Dev.Only.step (Dev.raise_only _ _ _)
    | with_reducible apply Dev.Only.step (Dev.updMch_only _ _ _)
    | with_reducible apply Dev.Only.wr
    | split)

theorem Dev.sampleMoved_only (x0 : Dev) (x1 : Nat) :
    Dev.Only 0x400000000 0x40002c000000000000000000000000000000000000000000000000000000000000000000000000000000000000000000000000000000000000000000 x0 (Dev.sampleMoved x0 x1) := by
  unfold Dev.sampleMoved
  repeat' (first
    | exact rfl
    | with_reducible exact Dev.Only.refl _ _ _
    | with_reducible apply Dev.Only.step (Dev.pendRun_only _ _)
    | with_reducible apply Dev.Only.step (Dev.updMch_only _ _ _)
    | split)

theorem Dev.mr4Poll_only (x0 : Dev) (x1 : Nat) (x2 : Nat) :
    Dev.Only 0x14480000100 0x40003f000000000000000000000000000000000000000000000000000000000000000000000000000000000000000000000000000000000000008040 x0 (Dev.mr4Poll x0 x1 x2) := by
  unfold Dev.mr4Poll
  repeat' (first
    | with_reducible assumption
    | exact rfl
    | (extract_lets +onlyGivenNames x; (refine Dev.Only.have1 x (fun hx => ?_) ?_; clear_value x; rotate_left; subst x))
    | with_reducible exact Dev.Only.refl _ _ _
    | with_reducible apply Dev.Only.step (Dev.sampleBand_only _ _)
    | with_reducible apply Dev.Only.step (Dev.sampleMoved_only _ _)
    | with_reducible apply Dev.Only.wr
    | split)

theorem execMr4Poll_only (x0 : Chan) (x1 : U16) (x2 : State) :
    Out.Only 0x14480000100 0x40003f000000000000000000000000000000000000000000000000000000000000000000000000000000000000000000000000000000000000008040 x2 (execMr4Poll x0 x1 x2) := by
  unfold execMr4Poll
  repeat' (first
    | exact rfl
    | with_reducible exact Dev.Only.refl _ _ _
    | with_reducible exact State.Only.refl _ _ _
    | with_reducible apply Out.Only.act
    | with_reducible apply Dev.Only.step (Dev.mr4Poll_only _ _ _))

theorem execCalWindowOpen_only (x0 : State) :
    Out.Only 0x400000000 0x800000000000000000000000000000000000000000000000000000000000000000000000000000000000000000000000000000000000000000 x0 (execCalWindowOpen x0) := by
  unfold execCalWindowOpen
  repeat' (first
    | exact rfl
    | with_reducible exact Dev.Only.refl _ _ _
    | with_reducible exact State.Only.refl _ _ _
    | with_reducible apply Out.Only.act
    | with_reducible apply Dev.Only.step (Dev.updMch_only _ _ _)
    | with_reducible apply Dev.Only.wr
    | split)

theorem Dev.setEye_only (x0 : Dev) (x1 : Nat) (x2 : Nat) (x3 : Nat) (x4 : Nat) :
    Dev.Only 0x14080000100 0x700000000000000000000000000000000000000000000000000000000000000000000000000000000000000000000000000000000000000000008040 x0 (Dev.setEye x0 x1 x2 x3 x4) := by
  unfold Dev.setEye
  repeat' (first
    | with_reducible assumption
    | exact rfl
    | (extract_lets +onlyGivenNames x; (refine Dev.Only.have1 x (fun hx => ?_) ?_; clear_value x; rotate_left; subst x))
    | with_reducible exact Dev.Only.refl _ _ _
    | with_reducible apply Dev.Only.step (Dev.raise_only _ _ _)
    | with_reducible apply Dev.Only.wr
    | split)

theorem Dev.stepDone_only (x0 : Dev) (x1 : Nat) :
    Dev.Only 0x14480000100 0x44000c000000000000000000000000000000000000000000000000000000000000000000000000000000000000000000000000000000000000008040 x0 (Dev.stepDone x0 x1) := by
  unfold Dev.stepDone
  repeat' (first
    | with_reducible assumption
    | exact rfl
    | (extract_lets +onlyGivenNames x; first | (refine Dev.Only.have1 x (fun hx => ?_) ?_; clear_value x; rotate_left; subst x) | clear_value x)
    | with_reducible exact Dev.Only.refl _ _ _
    | with_reducible apply Dev.Only.step (Dev.raise_only _ _ _)
    | with_reducible apply Dev.Only.step (Dev.startRun_only _)
    | with_reducible apply Dev.Only.step (Dev.updMch_only _ _ _)
    | with_reducible apply Dev.Only.wr
    | with_reducible apply Dev.Only.incWrap
    | split)

theorem Dev.calWindowEnd_only (x0 : Dev) (x1 : Nat) (x2 : Nat) (x3 : Bool) :
    Dev.Only 0x14480000100 0x7c000c800000000000000000000000000000000000000000000000000000000000000000000000000000000000000000000000000000000000008040 x0 (Dev.calWindowEnd x0 x1 x2 x3) := by
  unfold Dev.calWindowEnd
  repeat' (first
    | with_reducible assumption
    | exact rfl
    | (extract_lets +onlyGivenNames x; (refine Dev.Only.have1 x (fun hx => ?_) ?_; clear_value x; rotate_left; subst x))
    | with_reducible exact Dev.Only.refl _ _ _
    | with_reducible apply Dev.Only.step (Dev.raise_only _ _ _)
    | with_reducible apply Dev.Only.step (Dev.setEye_only _ _ _ _ _)
    | with_reducible apply Dev.Only.step (Dev.stepDone_only _ _)
    | with_reducible apply Dev.Only.step (Dev.updMch_only _ _ _)
    | with_reducible apply Dev.Only.wr
    | with_reducible apply Dev.Only.inc
    | split)

theorem execCalWindowEnd_only (x0 : Byte) (x1 : Byte) (x2 : Bool) (x3 : State) :
    Out.Only 0x14480000100 0x7c000c800000000000000000000000000000000000000000000000000000000000000000000000000000000000000000000000000000000000008040 x3 (execCalWindowEnd x0 x1 x2 x3) := by
  unfold execCalWindowEnd
  repeat' (first
    | exact rfl
    | with_reducible exact Dev.Only.refl _ _ _
    | with_reducible exact State.Only.refl _ _ _
    | with_reducible apply Out.Only.act
    | with_reducible apply Dev.Only.step (Dev.calWindowEnd_only _ _ _ _))

theorem execMemCalLate_only (x0 : State) :
    Out.Only 0x14480000100 0x8040 x0 (execMemCalLate x0) := by
  unfold execMemCalLate
  repeat' (first
    | with_reducible assumption
    | exact rfl
    | (extract_lets +onlyGivenNames x; first | (refine Out.Only.have1 x (fun hx => ?_) ?_; clear_value x; rotate_left; subst x) | (refine Out.Only.have2 x (fun hx => ?_) ?_; clear_value x; rotate_left; subst x)  | (refine State.Only.have1 x (fun hx => ?_) ?_; clear_value x; rotate_left; subst x) | (refine State.Only.have2 x (fun hx => ?_) ?_; clear_value x; rotate_left; subst x) | (refine Dev.Only.have1 x (fun hx => ?_) ?_; clear_value x; rotate_left; subst x) | clear_value x)
    | with_reducible exact Dev.Only.refl _ _ _
    | with_reducible exact State.Only.refl _ _ _
    | (with_reducible apply State.Only.dev; with_reducible assumption)
    | with_reducible apply Out.Only.act
    | with_reducible apply Out.Only.next
    | with_reducible apply Dev.Only.step (Dev.raise_only _ _ _)
    | with_reducible apply Dev.Only.step (Dev.updMch_only _ _ _)
    | split
    | with_reducible apply State.Only.mkDev)

theorem Dev.retrainB_only (x0 : Dev) (x1 : List (Byte × Byte)) :
    Dev.Only 0x14080000100 0x740022000000000000000000000000000000000000000000000000000000000000000000000000000000000000000000000000000000000000008040 x0 (Dev.retrainB x0 x1) := by
  unfold Dev.retrainB
  repeat' (first
    | with_reducible assumption
    | exact rfl
    | intro e
    | (extract_lets +onlyGivenNames x; (refine Dev.Only.have1 x (fun hx => ?_) ?_; clear_value x; rotate_left; subst x))
    | with_reducible exact Dev.Only.refl _ _ _
    | with_reducible apply Dev.Only.step (Dev.setEye_only _ _ _ _ _)
    | with_reducible apply Dev.Only.wr
    | with_reducible apply Dev.Only.incWrap
    | with_reducible apply Dev.Only.forEach
    | split)

theorem execChannelBRetrain_only (x0 : List (Byte × Byte)) (x1 : State) :
    Out.Only 0x14080000100 0x740022000000000000000000000000000000000000000000000000000000000000000000000000000000000000000000000000000000000000008040 x1 (execChannelBRetrain x0 x1) := by
  unfold execChannelBRetrain
  repeat' (first
    | with_reducible assumption
    | exact rfl
    | with_reducible exact Dev.Only.refl _ _ _
    | with_reducible exact State.Only.refl _ _ _
    | (with_reducible apply State.Only.dev; with_reducible assumption)
    | with_reducible apply Out.Only.act
    | with_reducible apply Out.Only.next
    | with_reducible apply Dev.Only.step (Dev.retrainB_only _ _)
    | split)

theorem Dev.freqChange_only (x0 : Dev) (x1 : Nat) :
    Dev.Only 0x1cc80400100 0x40002e008000000000000000000000000000000000000000000000000000000000000000000000000000000000000000000000000000000000008048 x0 (Dev.freqChange x0 x1) := by
  unfold Dev.freqChange
  repeat' (first
    | with_reducible assumption
    | exact rfl
    | (extract_lets +onlyGivenNames x; first | (refine Dev.Only.have1 x (fun hx => ?_) ?_; clear_value x; rotate_left; subst x) | clear_value x)
    | with_reducible exact Dev.Only.refl _ _ _
    | with_reducible apply Dev.Only.step (Dev.enter_only _ _)
    | with_reducible apply Dev.Only.step (Dev.pendRun_only _ _)
    | with_reducible apply Dev.Only.step (Dev.raise_only _ _ _)
    | with_reducible apply Dev.Only.step (Dev.updMch_only _ _ _)
    | with_reducible apply Dev.Only.wr
    | split
    | with_reducible apply Dev.Only.with_freqWait)

theorem execFreqChange_only (x0 : Byte) (x1 : State) :
    Out.Only 0x1cc80400100 0x40002e008000000000000000000000000000000000000000000000000000000000000000000000000000000000000000000000000000000000008048 x1 (execFreqChange x0 x1) := by
  unfold execFreqChange
  repeat' (first
    | exact rfl
    | with_reducible exact Dev.Only.refl _ _ _
    | with_reducible exact State.Only.refl _ _ _
    | with_reducible apply Out.Only.act
    | with_reducible apply Dev.Only.step (Dev.freqChange_only _ _))

theorem execScrubRead_only (x0 : BitVec 36) (x1 : ScrubOutcome) (x2 : State) : Out.Only 0x54480000100 0x1f600000000000000000000000000000000000000000000000000000000000000000000000000000000000000000000000000000000000000008040 x2 (execScrubRead x0 x1 x2) := by
  unfold execScrubRead
  dsimp only
  have h : State.Only 0x54480000100 0x1f600000000000000000000000000000000000000000000000000000000000000000000000000000000000000000000000000000000000000008040 x2 x2 := State.Only.refl _ _ _
  have hu (n m : Nat) : Dev.Only 0x54480000100 0x1f600000000000000000000000000000000000000000000000000000000000000000000000000000000000000000000000000000000000000008040 x2.dev (x2.dev.memUe n m) :=
    Dev.Only.step (Dev.memUe_only _ _ _) rfl rfl (Dev.Only.refl _ _ _)
  have he (n m : Nat) : Dev.Only 0x54480000100 0x1f600000000000000000000000000000000000000000000000000000000000000000000000000000000000000000000000000000000000000008040 x2.dev (x2.dev.memCe n m) :=
    Dev.Only.step (Dev.memCe_only _ _ _) rfl rfl (Dev.Only.refl _ _ _)
  split
  · exact Out.Only.next h
  · split
    · exact Out.Only.next (State.Only.mkDev (hu _ _) h)
    · next hn =>
      split
      · exact Out.Only.next h
      · exact Out.Only.next (State.Only.mkDev (he _ _) h)
      · refine Out.Only.next (State.Only.withDram rfl (fun hd => ⟨hd.1, hd.2.1, ?_, ?_⟩) (hu (x0.toNat / 128 * 128) 15))
        · exact List.nodup_cons.2 ⟨fun hm => hn (by simpa using hm), hd.2.2.1⟩
        · intro x hx
          rcases List.mem_cons.1 hx with rfl | hx
          · have := x0.isLt
            omega
          · exact hd.2.2.2 x hx

theorem execWriteDrain_only (x0 : Chan) (x1 : State) :
    Out.Only 0 0x1c0000000000000000000000000000000000000000000000000000000000000000000000000000000000000000000000000000000000000000000 x1 (execWriteDrain x0 x1) := by
  unfold execWriteDrain
  repeat' (first
    | exact rfl
    | with_reducible exact Dev.Only.refl _ _ _
    | with_reducible exact State.Only.refl _ _ _
    | with_reducible apply Out.Only.act
    | with_reducible apply Dev.Only.wr
    | with_reducible apply Dev.Only.incWrap
    | split)

/-! ### Boot -/

theorem Dev.stepTo_only (x0 : Dev) (x1 : BootStage) :
    Dev.Only 0x10 0 x0 (Dev.stepTo x0 x1) := by
  unfold Dev.stepTo
  repeat' (first
    | exact rfl
    | (extract_lets +onlyGivenNames x; clear_value x)
    | with_reducible exact Dev.Only.refl _ _ _
    | with_reducible apply Dev.Only.with_boot)

theorem Dev.bootSafe_only (x0 : Dev) (x1 : SafeCause) :
    Dev.Only 0x18800400110 0x8 x0 (Dev.bootSafe x0 x1) := by
  unfold Dev.bootSafe
  repeat' (first
    | with_reducible assumption
    | exact rfl
    | (extract_lets +onlyGivenNames x; first | (refine Dev.Only.have1 x (fun hx => ?_) ?_; clear_value x; rotate_left; subst x) | clear_value x)
    | with_reducible exact Dev.Only.refl _ _ _
    | with_reducible apply Dev.Only.step (Dev.enter_only _ _)
    | with_reducible apply Dev.Only.with_boot)

theorem Dev.bootFail_only (x0 : Dev) (x1 : Nat) (x2 : Nat) :
    Dev.Only 0 0xc0000000 x0 (Dev.bootFail x0 x1 x2) := by
  unfold Dev.bootFail
  repeat' (first
    | exact rfl
    | with_reducible exact Dev.Only.refl _ _ _
    | with_reducible apply Dev.Only.wr)

theorem Dev.crownInvalid_only (x0 : Dev) (x1 : Nat) (x2 : Nat) :
    Dev.Only 0x1c880400110 0xc0008048 x0 (Dev.crownInvalid x0 x1 x2) := by
  unfold Dev.crownInvalid
  repeat' (first
    | exact rfl
    | with_reducible exact Dev.Only.refl _ _ _
    | with_reducible apply Dev.Only.step (Dev.bootFail_only _ _ _)
    | with_reducible apply Dev.Only.step (Dev.bootSafe_only _ _)
    | with_reducible apply Dev.Only.step (Dev.raise_only _ _ _))

theorem Dev.pickImage_only (x0 : Dev) :
    Dev.Only 0 0x20c0000000 x0 (Dev.pickImage x0).2 := by
  unfold Dev.pickImage
  repeat' (first
    | with_reducible assumption
    | exact rfl
    | (extract_lets +onlyGivenNames x; first | (refine Dev.Only.have1 x (fun hx => ?_) ?_; clear_value x; rotate_left; subst x) | clear_value x)
    | with_reducible exact Dev.Only.refl _ _ _
    | with_reducible apply Dev.Only.step (Dev.bootFail_only _ _ _)
    | with_reducible apply Dev.Only.wr
    | split
    | (with_reducible apply Dev.Only.of_snd; assumption))

theorem Dev.headerRead_only (x0 : Dev) (x1 : Nat) (x2 : Nat) :
    Dev.Only 0x8000000010 0x400000000000000000000000000000000000000000000000000038e0000000 x0 (Dev.headerRead x0 x1 x2) := by
  unfold Dev.headerRead
  repeat' (first
    | with_reducible assumption
    | exact rfl
    | (extract_lets +onlyGivenNames x; first | (refine Dev.Only.have1 x (fun hx => ?_) ?_; clear_value x; rotate_left; subst x) | clear_value x)
    | with_reducible exact Dev.Only.refl _ _ _
    | with_reducible apply Dev.Only.step (Dev.pickImage_only _)
    | with_reducible apply Dev.Only.step (Dev.startHref_only _)
    | with_reducible apply Dev.Only.wr
    | split
    | (with_reducible apply Dev.Only.of_snd; assumption)
    | with_reducible apply Dev.Only.with_boot)

theorem execCrownHeaderRead_only (x0 : Byte) (x1 : Byte) (x2 : State) :
    Out.Only 0x8000000010 0x400000000000000000000000000000000000000000000000000038e0000000 x2 (execCrownHeaderRead x0 x1 x2) := by
  unfold execCrownHeaderRead
  repeat' (first
    | exact rfl
    | with_reducible exact Dev.Only.refl _ _ _
    | with_reducible exact State.Only.refl _ _ _
    | with_reducible apply Out.Only.act
    | with_reducible apply Dev.Only.step (Dev.headerRead_only _ _ _)
    | with_reducible apply Dev.Only.step (Dev.stepTo_only _ _)
    | split)

theorem Dev.firstPass_only (x0 : Dev) :
    Dev.Only 0 0xc0000000 x0 (Dev.firstPass x0).2 := by
  unfold Dev.firstPass
  repeat' (first
    | with_reducible assumption
    | exact rfl
    | (extract_lets +onlyGivenNames x; first | (refine Dev.Only.have1 x (fun hx => ?_) ?_; clear_value x; rotate_left; subst x) | clear_value x)
    | with_reducible exact Dev.Only.refl _ _ _
    | with_reducible apply Dev.Only.step (Dev.bootFail_only _ _ _)
    | split)

theorem Dev.openLog_only (x0 : Dev) (x1 : CrownContent) :
    Dev.Only 0 0x700000000000 x0 (Dev.openLog x0 x1) := by
  unfold Dev.openLog
  repeat' (first
    | with_reducible assumption
    | exact rfl
    | (extract_lets +onlyGivenNames x; first | (refine Dev.Only.have1 x (fun hx => ?_) ?_; clear_value x; rotate_left; subst x) | clear_value x)
    | with_reducible exact Dev.Only.refl _ _ _
    | with_reducible apply Dev.Only.wr
    | split)

theorem Dev.bootRecord_only (x0 : Dev) (x1 : Nat) (x2 : Nat) :
    Dev.Only 0x14080000122 0x400400008040 x0 (Dev.bootRecord x0 x1 x2) := by
  unfold Dev.bootRecord
  repeat' (first
    | exact rfl
    | (extract_lets +onlyGivenNames x; clear_value x)
    | with_reducible exact Dev.Only.refl _ _ _
    | with_reducible apply Dev.Only.step (Dev.logWrite_only _ _)
    | with_reducible apply Dev.Only.step (Dev.raise_only _ _ _)
    | with_reducible apply Dev.Only.wr)

theorem Dev.powerEarly_only (x0 : Dev) :
    Dev.Only 0 0x200000 x0 (Dev.powerEarly x0) := by
  unfold Dev.powerEarly
  repeat' (first
    | exact rfl
    | with_reducible exact Dev.Only.refl _ _ _
    | with_reducible apply Dev.Only.step (Dev.domUp_only _ _))

theorem Dev.linksUp_only (x0 : Dev) :
    Dev.Only 0 0x4000000000000000000000000000000000000000000000000000000000000000000000000000000000000000000000000000000000000000000000000 x0 (Dev.linksUp x0) := by
  unfold Dev.linksUp
  repeat' (first
    | with_reducible assumption
    | exact rfl
    | intro e
    | with_reducible exact Dev.Only.refl _ _ _
    | with_reducible apply Dev.Only.wr
    | with_reducible apply Dev.Only.forEach
    | split)

theorem Dev.useImage_only (x0 : Dev) (x1 : Nat) (x2 : CrownContent) :
    Dev.Only 0x14080000132 0x740620008040 x0 (Dev.useImage x0 x1 x2) := by
  unfold Dev.useImage
  repeat' (first
    | with_reducible assumption
    | exact rfl
    | (extract_lets +onlyGivenNames x; first | (refine Dev.Only.have1 x (fun hx => ?_) ?_; clear_value x; rotate_left; subst x) | clear_value x)
    | with_reducible exact Dev.Only.refl _ _ _
    | with_reducible apply Dev.Only.step (Dev.bootRecord_only _ _ _)
    | with_reducible apply Dev.Only.step (Dev.openLog_only _ _)
    | with_reducible apply Dev.Only.wr
    | with_reducible apply Dev.Only.with_boot)

theorem State.firstPassOk_only (x0 : State) (x1 : Nat) (x2 : CrownContent) :
    State.Only 0x7fffffffffe 0x1fffffffffffffffffffffffffffffffffffffffffffffffffffffffffffffffffffffffffffffffffffffffffffffffffffffffffffffffffffffffffffffffffffffffffffff x0 (State.firstPassOk x0 x1 x2) := by
  unfold State.firstPassOk
  repeat' (first
    | with_reducible assumption
    | exact rfl
    | (extract_lets +onlyGivenNames x; first | (refine State.Only.have1 x (fun hx => ?_) ?_; clear_value x; rotate_left; subst x) | clear_value x)
    | with_reducible exact Dev.Only.refl _ _ _
    | with_reducible exact State.Only.refl _ _ _
    | with_reducible apply Dev.Only.step (Dev.bootSafe_only _ _)
    | with_reducible apply Dev.Only.step (Dev.linksUp_only _)
    | with_reducible apply Dev.Only.step (Dev.useImage_only _ _ _)
    | with_reducible apply State.Only.step (State.applyRegs_only _ _)
    | split
    | (with_reducible apply State.Only.dev; with_reducible assumption)
    | with_reducible apply State.Only.mkDev)

theorem State.crownFirstPass_only (x0 : State) (x1 : CrownContent) (x2 : CrownContent) :
    State.Only 0x7fffffffffe 0x1fffffffffffffffffffffffffffffffffffffffffffffffffffffffffffffffffffffffffffffffffffffffffffffffffffffffffffffffffffffffffffffffffffffffffffff x0 (State.crownFirstPass x0 x1 x2) := by
  unfold State.crownFirstPass
  repeat' (first
    | with_reducible assumption
    | exact rfl
    | (extract_lets +onlyGivenNames x; (refine State.Only.have2 x (fun hx => ?_) ?_; clear_value x; rotate_left; subst x))
    | with_reducible exact Dev.Only.refl _ _ _
    | with_reducible exact State.Only.refl _ _ _
    | with_reducible apply Dev.Only.step (Dev.crownInvalid_only _ _ _)
    | with_reducible apply Dev.Only.step (Dev.firstPass_only _)
    | with_reducible apply Dev.Only.step (Dev.powerEarly_only _)
    | with_reducible apply Dev.Only.step (Dev.stepTo_only _ _)
    | with_reducible apply State.Only.step (State.firstPassOk_only _ _ _)
    | with_reducible apply Dev.Only.wr
    | split
    | (with_reducible apply Dev.Only.of_snd; assumption)
    | with_reducible apply State.Only.mkDev)

theorem execCrownFirstPass_only (x0 : CrownContent) (x1 : CrownContent) (x2 : State) :
    Out.Only 0x7fffffffffe 0x1fffffffffffffffffffffffffffffffffffffffffffffffffffffffffffffffffffffffffffffffffffffffffffffffffffffffffffffffffffffffffffffffffffffffffffff x2 (execCrownFirstPass x0 x1 x2) := by
  unfold execCrownFirstPass
  repeat' (first
    | exact rfl
    | with_reducible exact State.Only.refl _ _ _
    | with_reducible apply Out.Only.next
    | with_reducible apply State.Only.step (State.crownFirstPass_only _ _ _)
    | split)

theorem Dev.train_only (x0 : Dev) (x1 : List (Byte × Byte)) :
    Dev.Only 0x14080000172 0x700000800000000000000000000000000000000000000000000000000000000000000000000000000000000000000000000000000000400000008040 x0 (Dev.train x0 x1) := by
  unfold Dev.train
  repeat' (first
    | with_reducible assumption
    | exact rfl
    | intro e
    | (extract_lets +onlyGivenNames x; (refine Dev.Only.have1 x (fun hx => ?_) ?_; clear_value x; rotate_left; subst x))
    | with_reducible exact Dev.Only.refl _ _ _
    | with_reducible apply Dev.Only.step (Dev.raiseFatal_only _ _ _ _)
    | with_reducible apply Dev.Only.step (Dev.stepTo_only _ _)
    | with_reducible apply Dev.Only.wr
    | with_reducible apply Dev.Only.forEach
    | split)

theorem execDramTraining_only (x0 : List (Byte × Byte)) (x1 : State) :
    Out.Only 0x14080000172 0x700000800000000000000000000000000000000000000000000000000000000000000000000000000000000000000000000000000000400000008040 x1 (execDramTraining x0 x1) := by
  unfold execDramTraining
  repeat' (first
    | with_reducible assumption
    | exact rfl
    | with_reducible exact Dev.Only.refl _ _ _
    | with_reducible exact State.Only.refl _ _ _
    | (with_reducible apply State.Only.dev; with_reducible assumption)
    | with_reducible apply Out.Only.act
    | with_reducible apply Out.Only.next
    | with_reducible apply Dev.Only.step (Dev.train_only _ _)
    | split
    | with_reducible apply State.Only.mkDev)

theorem State.loadFw_only (x0 : State) (x1 : Nat) (x2 : CrownRec) :
    State.Only 0x40000000010 0x20800000000000000000000000000000000000000000000000000000000000000000000000000000000000000000000000000000000000000000000 x0 (State.loadFw x0 x1 x2) := by
  unfold State.loadFw
  repeat' (first
    | with_reducible assumption
    | exact rfl
    | (extract_lets +onlyGivenNames x; first | (refine State.Only.have1 x (fun hx => ?_) ?_; clear_value x; rotate_left; subst x) | (refine State.Only.have2 x (fun hx => ?_) ?_; clear_value x; rotate_left; subst x) | clear_value x)
    | with_reducible exact State.Only.refl _ _ _
    | with_reducible apply State.Only.step (State.dramWrite_only _ _ _ _)
    | (with_reducible apply State.Only.dev; with_reducible assumption)
    | with_reducible apply State.Only.mkDev
    | with_reducible apply Dev.Only.with_boot)

theorem State.secondPass_only (x0 : State) (x1 : List Nat) :
    State.Only 0x5c880400110 0x208000000000000000000000000000000000000000000000000000000000000000000000000000000000000000000000000000000000000c0008048 x0 (State.secondPass x0 x1) := by
  unfold State.secondPass
  repeat' (first
    | with_reducible assumption
    | exact rfl
    | intro e
    | (extract_lets +onlyGivenNames x; first | (refine State.Only.have1 x (fun hx => ?_) ?_; clear_value x; rotate_left; subst x) | (refine State.Only.have2 x (fun hx => ?_) ?_; clear_value x; rotate_left; subst x) | (refine State.Only.fun1 x ?_; subst x; try dsimp -zeta only) | (refine Dev.Only.have1 x (fun hx => ?_) ?_; clear_value x; rotate_left; subst x) | (refine Dev.Only.fun1 x ?_; subst x; try dsimp -zeta only) | clear_value x)
    | with_reducible exact Dev.Only.refl _ _ _
    | with_reducible exact State.Only.refl _ _ _
    | (with_reducible apply State.Only.dev; with_reducible assumption)
    | with_reducible apply Dev.Only.step (Dev.crownInvalid_only _ _ _)
    | with_reducible apply State.Only.step (State.loadFw_only _ _ _)
    | with_reducible apply Dev.Only.step (Dev.stepTo_only _ _)
    | with_reducible apply Dev.Only.foldl
    | with_reducible apply Dev.Only.foldl_fst
    | with_reducible apply Dev.Only.foldl_snd
    | with_reducible apply State.Only.foldl
    | (with_reducible apply Dev.Only.of_fst; assumption)
    | split
    | with_reducible apply State.Only.mkDev)

theorem execSecondPass_only (x0 : List U16) (x1 : State) :
    Out.Only 0x5c880400110 0x208000000000000000000000000000000000000000000000000000000000000000000000000000000000000000000000000000000000000c0008048 x1 (execSecondPass x0 x1) := by
  unfold execSecondPass
  repeat' (first
    | exact rfl
    | with_reducible exact State.Only.refl _ _ _
    | with_reducible apply Out.Only.next
    | with_reducible apply State.Only.step (State.secondPass_only _ _)
    | split)

theorem Dev.setRegions_only (x0 : Dev) :
    Dev.Only 0 0x3f000000000000 x0 (Dev.setRegions x0) := by
  unfold Dev.setRegions
  repeat' (first
    | with_reducible assumption
    | exact rfl
    | intro e
    | (extract_lets +onlyGivenNames x; (refine Dev.Only.have1 x (fun hx => ?_) ?_; clear_value x; rotate_left; subst x))
    | with_reducible exact Dev.Only.refl _ _ _
    | with_reducible apply Dev.Only.wr
    | with_reducible apply Dev.Only.forEach
    | split)

theorem State.contentCheck_only (x0 : State) :
    State.Only 0x5fffffffffc 0x1fffffffffffffffffffffffffffffffffffffffffffffffffffffffffffffffffffffffffffffffbfffffffffffffffffffffffffffffffffffffffffffffffff0b21e2a08078 x0 (State.contentCheck x0) := by
  unfold State.contentCheck
  repeat' (first
    | with_reducible assumption
    | exact rfl
    | (extract_lets +onlyGivenNames x; first | (refine State.Only.have2 x (fun hx => ?_) ?_; clear_value x; rotate_left; subst x) | clear_value x)
    | with_reducible exact Dev.Only.refl _ _ _
    | with_reducible exact State.Only.refl _ _ _
    | with_reducible apply Dev.Only.step (Dev.bootFail_only _ _ _)
    | with_reducible apply Dev.Only.step (Dev.crownInvalid_only _ _ _)
    | with_reducible apply Dev.Only.step (Dev.raise_only _ _ _)
    | with_reducible apply Dev.Only.step (Dev.setRegions_only _)
    | with_reducible apply Dev.Only.step (Dev.stepTo_only _ _)
    | with_reducible apply State.Only.step (State.moduleReset_only _ _ _)
    | with_reducible apply Dev.Only.wr
    | split
    | with_reducible apply State.Only.mkDev
    | with_reducible apply Dev.Only.with_boot)

theorem execContentCheck_only (x0 : State) :
    Out.Only 0x5fffffffffc 0x1fffffffffffffffffffffffffffffffffffffffffffffffffffffffffffffffffffffffffffffffbfffffffffffffffffffffffffffffffffffffffffffffffff0b21e2a08078 x0 (execContentCheck x0) := by
  unfold execContentCheck
  repeat' (first
    | exact rfl
    | with_reducible exact State.Only.refl _ _ _
    | with_reducible apply Out.Only.next
    | with_reducible apply State.Only.step (State.contentCheck_only _)
    | split)

theorem Dev.powerLate_only (x0 : Dev) (x1 : List (Nat × Nat)) :
    Dev.Only 0 0x200000 x0 (Dev.powerLate x0 x1) := by
  unfold Dev.powerLate
  repeat' (first
    | with_reducible assumption
    | exact rfl
    | (extract_lets +onlyGivenNames x; first | (refine Dev.Only.have1 x (fun hx => ?_) ?_; clear_value x; rotate_left; subst x) | clear_value x)
    | with_reducible exact Dev.Only.refl _ _ _
    | with_reducible apply Dev.Only.step (Dev.domUp_only _ _)
    | split)

theorem Dev.putGeometry_only (x0 : Dev) (x1 : CrownContent) :
    Dev.Only 0 0x140000000000000000000001000000000000024000000400000000000000000000380000000000000000000 x0 (Dev.putGeometry x0 x1) := by
  unfold Dev.putGeometry
  repeat' (first
    | with_reducible assumption
    | exact rfl
    | intro e
    | (extract_lets +onlyGivenNames x; first | (refine Dev.Only.have1 x (fun hx => ?_) ?_; clear_value x; rotate_left; subst x) | (refine Dev.Only.fun1 x ?_; subst x; try dsimp -zeta only))
    | with_reducible exact Dev.Only.refl _ _ _
    | with_reducible apply Dev.Only.wr
    | with_reducible apply Dev.Only.forEach
    | split)

theorem Dev.putHeads_only (x0 : Dev) (x1 : CrownContent) :
    Dev.Only 0 0x20000000000000000000000000000000000000000000030000000000000000000000000000000000000000000000000000 x0 (Dev.putHeads x0 x1) := by
  unfold Dev.putHeads
  repeat' (first
    | with_reducible assumption
    | exact rfl
    | intro e
    | with_reducible exact Dev.Only.refl _ _ _
    | with_reducible apply Dev.Only.wr
    | with_reducible apply Dev.Only.forEach
    | split)

theorem Dev.release_only (x0 : Dev) :
    Dev.Only 0x1e080000110 0x2c00000000000000000000000000000000000000000000000000200000000000000000000000000000000000000000000000000000000000000000000c000000000008040 x0 (Dev.release x0) := by
  unfold Dev.release
  repeat' (first
    | with_reducible assumption
    | exact rfl
    | (extract_lets +onlyGivenNames x; first | (refine Dev.Only.have1 x (fun hx => ?_) ?_; clear_value x; rotate_left; subst x) | clear_value x)
    | with_reducible exact Dev.Only.refl _ _ _
    | with_reducible apply Dev.Only.step (Dev.relays_only _)
    | with_reducible apply Dev.Only.step (Dev.ringMaster_only _)
    | with_reducible apply Dev.Only.step (Dev.setActive_only _ _)
    | with_reducible apply Dev.Only.wr
    | with_reducible apply Dev.Only.with_boot
    | with_reducible apply Dev.Only.with_ring)

theorem State.afterRelease_only (x0 : State) :
    State.Only 0x1e080000110 0x2c00000000000000000000000000000000000000000000000000200000000000000000000000000000000000000000000000000000000000000000000c000000000008040 x0 (State.afterRelease x0) := by
  unfold State.afterRelease
  repeat' (first
    | exact rfl
    | with_reducible exact Dev.Only.refl _ _ _
    | with_reducible exact State.Only.refl _ _ _
    | with_reducible apply Dev.Only.step (Dev.release_only _)
    | with_reducible apply Dev.Only.step (Dev.stepTo_only _ _)
    | split
    | with_reducible apply State.Only.mkDev)

theorem State.engineRelease_only (x0 : State) :
    State.Only 0x7fffffffffc 0x1fffffffffffffffffffffffffffffffffffffffffffffffffffffffffffffffffffffffffffffffffffffffffffffffffffffffffffffffffffffffffffffffffffffffffffff x0 (State.engineRelease x0) := by
  unfold State.engineRelease
  repeat' (first
    | with_reducible assumption
    | exact rfl
    | (extract_lets +onlyGivenNames x; first | (refine State.Only.have1 x (fun hx => ?_) ?_; clear_value x; rotate_left; subst x) | (refine State.Only.have2 x (fun hx => ?_) ?_; clear_value x; rotate_left; subst x) | clear_value x)
    | with_reducible exact Dev.Only.refl _ _ _
    | with_reducible exact State.Only.refl _ _ _
    | with_reducible apply Dev.Only.step (Dev.powerLate_only _ _)
    | with_reducible apply Dev.Only.step (Dev.putGeometry_only _ _)
    | with_reducible apply Dev.Only.step (Dev.putHeads_only _ _)
    | with_reducible apply State.Only.step (State.afterRelease_only _)
    | with_reducible apply State.Only.step (State.applyRegs_only _ _)
    | split
    | with_reducible apply State.Only.mkDev)

theorem execEngineRelease_only (x0 : State) :
    Out.Only 0x7fffffffffc 0x1fffffffffffffffffffffffffffffffffffffffffffffffffffffffffffffffffffffffffffffffffffffffffffffffffffffffffffffffffffffffffffffffffffffffffffff x0 (execEngineRelease x0) := by
  unfold execEngineRelease
  repeat' (first
    | exact rfl
    | with_reducible exact State.Only.refl _ _ _
    | with_reducible apply Out.Only.next
    | with_reducible apply State.Only.step (State.engineRelease_only _)
    | split)

theorem State.afterRods_only (x0 : State) :
    State.Only 0x10 0 x0 (State.afterRods x0) := by
  unfold State.afterRods
  repeat' (first
    | exact rfl
    | with_reducible exact Dev.Only.refl _ _ _
    | with_reducible exact State.Only.refl _ _ _
    | with_reducible apply Dev.Only.step (Dev.stepTo_only _ _)
    | split
    | with_reducible apply State.Only.mkDev)

theorem State.rodBuild_only (x0 : State) :
    State.Only 0x7fffffffffc 0x1fffffffffffffffffffffffffffffffffffffffffffffffffffffffffffffffffffffffffffffffffffffffffffffffffffffffffffffffffffffffffffffffffffffffffffff x0 (State.rodBuild x0) := by
  unfold State.rodBuild
  repeat' (first
    | with_reducible assumption
    | exact rfl
    | intro e
    | (extract_lets +onlyGivenNames x; first | (refine State.Only.have1 x (fun hx => ?_) ?_; clear_value x; rotate_left; subst x) | (refine State.Only.have2 x (fun hx => ?_) ?_; clear_value x; rotate_left; subst x) | (refine State.Only.fun1 x ?_; subst x; try dsimp -zeta only) | (refine Dev.Only.have1 x (fun hx => ?_) ?_; clear_value x; rotate_left; subst x) | (refine Dev.Only.fun1 x ?_; subst x; try dsimp -zeta only) | clear_value x)
    | with_reducible exact Dev.Only.refl _ _ _
    | with_reducible exact State.Only.refl _ _ _
    | (with_reducible apply State.Only.dev; with_reducible assumption)
    | with_reducible apply Dev.Only.step (Dev.buildRods_only _ _)
    | with_reducible apply State.Only.step (State.storeBuilt_only _ _)
    | with_reducible apply State.Only.step (State.applyRegs_only _ _)
    | with_reducible apply State.Only.step (State.afterRods_only _)
    | with_reducible apply Dev.Only.foldl
    | with_reducible apply Dev.Only.foldl_fst
    | with_reducible apply Dev.Only.foldl_snd
    | with_reducible apply State.Only.foldl
    | with_reducible apply Dev.Only.forEach
    | split
    | with_reducible apply State.Only.mkDev)

theorem execRodBuild_only (x0 : State) :
    Out.Only 0x7fffffffffc 0x1fffffffffffffffffffffffffffffffffffffffffffffffffffffffffffffffffffffffffffffffffffffffffffffffffffffffffffffffffffffffffffffffffffffffffffff x0 (execRodBuild x0) := by
  unfold execRodBuild
  repeat' (first
    | exact rfl
    | with_reducible exact State.Only.refl _ _ _
    | with_reducible apply Out.Only.next
    | with_reducible apply State.Only.step (State.rodBuild_only _)
    | split)

theorem State.afterBoot_only (x0 : State) :
    State.Only 0x18800400110 0x10000000000000000000000000000000000000000000000000000000000000000000000000000000000000000000000000000000008 x0 (State.afterBoot x0) := by
  unfold State.afterBoot
  repeat' (first
    | exact rfl
    | with_reducible exact Dev.Only.refl _ _ _
    | with_reducible exact State.Only.refl _ _ _
    | with_reducible apply Dev.Only.step (Dev.enter_only _ _)
    | with_reducible apply Dev.Only.step (Dev.setPlim_only _)
    | with_reducible apply Dev.Only.step (Dev.stepTo_only _ _)
    | split
    | with_reducible apply State.Only.mkDev)

theorem State.bootComplete_only (x0 : State) :
    State.Only 0x7fffffffffc 0x1fffffffffffffffffffffffffffffffffffffffffffffffffffffffffffffffffffffffffffffffffffffffffffffffffffffffffffffffffffffffffffffffffffffffffffff x0 (State.bootComplete x0) := by
  unfold State.bootComplete
  repeat' (first
    | with_reducible assumption
    | exact rfl
    | (extract_lets +onlyGivenNames x; first | (refine State.Only.have1 x (fun hx => ?_) ?_; clear_value x; rotate_left; subst x) | clear_value x)
    | with_reducible exact Dev.Only.refl _ _ _
    | with_reducible exact State.Only.refl _ _ _
    | with_reducible apply Dev.Only.step (Dev.loadTables_only _ _ _)
    | with_reducible apply State.Only.step (State.afterBoot_only _)
    | with_reducible apply State.Only.step (State.applyRegs_only _ _)
    | split
    | with_reducible apply State.Only.mkDev)

theorem execBootComplete_only (x0 : State) :
    Out.Only 0x7fffffffffc 0x1fffffffffffffffffffffffffffffffffffffffffffffffffffffffffffffffffffffffffffffffffffffffffffffffffffffffffffffffffffffffffffffffffffffffffffff x0 (execBootComplete x0) := by
  unfold execBootComplete
  repeat' (first
    | exact rfl
    | with_reducible exact State.Only.refl _ _ _
    | with_reducible apply Out.Only.next
    | with_reducible apply State.Only.step (State.bootComplete_only _)
    | split)

/-! ### Loops -/

theorem Dev.setNozzle_only (x0 : Dev) (x1 : Nat) (x2 : Nozzle) :
    Dev.Only 0x8000000 0 x0 (Dev.setNozzle x0 x1 x2) := by
  unfold Dev.setNozzle
  repeat' (first
    | exact rfl
    | (extract_lets +onlyGivenNames x; clear_value x)
    | with_reducible exact Dev.Only.refl _ _ _
    | with_reducible apply Dev.Only.with_loops)

theorem Dev.rodEntry_only (x0 : Dev) (x1 : Nat) (x2 : Nozzle) :
    Dev.Only 0x8000000 0 x0 (Dev.rodEntry x0 x1 x2) := by
  unfold Dev.rodEntry
  repeat' (first
    | exact rfl
    | with_reducible exact Dev.Only.refl _ _ _
    | with_reducible apply Dev.Only.step (Dev.pendRods_only _ _)
    | split)

theorem Dev.nozzleEvent_only (x0 : Dev) (x1 : Nat) (x2 : Nozzle) (x3 : Nozzle) :
    Dev.Only 0x14080000100 0x8040 x0 (Dev.nozzleEvent x0 x1 x2 x3) := by
  unfold Dev.nozzleEvent
  repeat' (first
    | exact rfl
    | with_reducible exact Dev.Only.refl _ _ _
    | with_reducible apply Dev.Only.step (Dev.raise_only _ _ _)
    | split)

theorem Dev.reclass_only (x0 : Dev) (x1 : Nat) (x2 : Nat) :
    Dev.Only 0x8000000 0 x0 (Dev.reclass x0 x1 x2) := by
  unfold Dev.reclass
  repeat' (first
    | exact rfl
    | (extract_lets +onlyGivenNames x; clear_value x)
    | with_reducible exact Dev.Only.refl _ _ _
    | with_reducible apply Dev.Only.step (Dev.rodEntry_only _ _ _)
    | with_reducible apply Dev.Only.step (Dev.setNozzle_only _ _ _)
    | split)

theorem Dev.checkDash_only (x0 : Dev) (x1 : Fit) (x2 : Nat) (x3 : Dash) :
    Dev.Only 0x14088000100 0x8040 x0 (Dev.checkDash x0 x1 x2 x3) := by
  unfold Dev.checkDash
  repeat' (first
    | with_reducible assumption
    | exact rfl
    | (extract_lets +onlyGivenNames x; first | (refine Dev.Only.have1 x (fun hx => ?_) ?_; clear_value x; rotate_left; subst x)  | (refine Dev.Only.have1 x.1 (fun hx => ?_) ?_; clear_value x; rotate_left; subst x) | (refine Dev.Only.have1 x.2 (fun hx => ?_) ?_; clear_value x; rotate_left; subst x) | (refine Dev.Only.fun1 x ?_; subst x; try dsimp -zeta only) | clear_value x)
    | with_reducible exact Dev.Only.refl _ _ _
    | with_reducible apply Dev.Only.step (Dev.nozzleEvent_only _ _ _ _)
    | with_reducible apply Dev.Only.step (Dev.setNozzle_only _ _ _)
    | with_reducible apply Dev.Only.step (Dev.rodEntry_only _ _ _)
    | split)

theorem Dev.checkHead_only (x0 : Dev) (x1 : Fit) (x2 : Nat) (x3 : List Dash) :
    Dev.Only 0x14088000100 0x8040 x0 (Dev.checkHead x0 x1 x2 x3) := by
  unfold Dev.checkHead
  repeat' (first
    | with_reducible assumption
    | exact rfl
    | intro e
    | (extract_lets +onlyGivenNames x; first | (refine Dev.Only.have1 x (fun hx => ?_) ?_; clear_value x; rotate_left; subst x) | clear_value x)
    | with_reducible exact Dev.Only.refl _ _ _
    | with_reducible apply Dev.Only.step (Dev.checkDash_only _ _ _ _)
    | with_reducible apply Dev.Only.step (Dev.raise_only _ _ _)
    | with_reducible apply Dev.Only.step (Dev.reclass_only _ _ _)
    | with_reducible apply Dev.Only.forEach
    | split
    | with_reducible apply Dev.Only.with_loops)

theorem Dev.nozzleLoop_only (x0 : Dev) (x1 : Fit) (x2 : List Dash) :
    Dev.Only 0x14088000100 0xc000000000000000000000000000000000000000000000000000000000000000000000000000000008040 x0 (Dev.nozzleLoop x0 x1 x2) := by
  unfold Dev.nozzleLoop
  repeat' (first
    | with_reducible assumption
    | exact rfl
    | intro e
    | (extract_lets +onlyGivenNames x; first | (refine Dev.Only.have1 x (fun hx => ?_) ?_; clear_value x; rotate_left; subst x)  | (refine Dev.Only.have1 x.1 (fun hx => ?_) ?_; clear_value x; rotate_left; subst x) | (refine Dev.Only.have1 x.2 (fun hx => ?_) ?_; clear_value x; rotate_left; subst x) | (refine Dev.Only.fun1 x ?_; subst x; try dsimp -zeta only) | clear_value x)
    | with_reducible exact Dev.Only.refl _ _ _
    | with_reducible apply Dev.Only.step (Dev.checkHead_only _ _ _ _)
    | with_reducible apply Dev.Only.forEach
    | with_reducible apply Dev.Only.wr
    | split)

theorem Dev.trimTarget_only (x0 : Dev) (x1 : Nat) :
    Dev.Only 0x14080000100 0x800000000000000000000000000000000000008000000000000000000000000000000000000000000008040 x0 (Dev.trimTarget x0 x1) := by
  unfold Dev.trimTarget
  repeat' (first
    | with_reducible assumption
    | exact rfl
    | (extract_lets +onlyGivenNames x; first | (refine Dev.Only.have1 x (fun hx => ?_) ?_; clear_value x; rotate_left; subst x) | clear_value x)
    | with_reducible exact Dev.Only.refl _ _ _
    | with_reducible apply Dev.Only.step (Dev.raise_only _ _ _)
    | with_reducible apply Dev.Only.wr
    | split)

theorem Dev.registerLoop_only (x0 : Dev) (x1 : Nat) (x2 : Int) (x3 : Int) (x4 : Int) (x5 : Int) :
    Dev.Only 0x14088000100 0xe00000000000000000000000000000000000008000000000000000000000000000400000000000000008040 x0 (Dev.registerLoop x0 x1 x2 x3 x4 x5) := by
  unfold Dev.registerLoop
  repeat' (first
    | with_reducible assumption
    | exact rfl
    | (extract_lets +onlyGivenNames x; (refine Dev.Only.have1 x (fun hx => ?_) ?_; clear_value x; rotate_left; subst x))
    | with_reducible exact Dev.Only.refl _ _ _
    | with_reducible apply Dev.Only.step (Dev.latUpdate_only _ _)
    | with_reducible apply Dev.Only.step (Dev.planBar_only _ _)
    | with_reducible apply Dev.Only.step (Dev.trimTarget_only _ _)
    | with_reducible apply Dev.Only.step (Dev.updBar_only _ _ _))

theorem Dev.measureStripe_only (x0 : Dev) (x1 : Nat) (x2 : Nat) (x3 : Fit) (x4 : List Dash) :
    Dev.Only 0x14088000100 0xc000000000000000000000000000000000000000000000000000000000000000000000000000000008040 x0 (Dev.measureStripe x0 x1 x2 x3 x4) := by
  unfold Dev.measureStripe
  repeat' (first
    | with_reducible assumption
    | exact rfl
    | (extract_lets +onlyGivenNames x; first | (refine Dev.Only.have1 x (fun hx => ?_) ?_; clear_value x; rotate_left; subst x)  | (refine Dev.Only.have1 x.1 (fun hx => ?_) ?_; clear_value x; rotate_left; subst x) | (refine Dev.Only.have1 x.2 (fun hx => ?_) ?_; clear_value x; rotate_left; subst x) | (refine Dev.Only.fun1 x ?_; subst x; try dsimp -zeta only) | clear_value x)
    | with_reducible exact Dev.Only.refl _ _ _
    | with_reducible apply Dev.Only.step (Dev.nozzleLoop_only _ _ _)
    | split
    | with_reducible apply Dev.Only.with_loops)

theorem Dev.gapBar_only (x0 : Dev) (x1 : Nat) (x2 : Nat) (x3 : Nat) (x4 : Nat) (x5 : BrimPlan) (x6 : List Mark) (x7 : List Mark) (x8 : Nat) :
    Dev.Only 0x14088000100 0xe0c000000000000000000000000000000000008000000000000000000000000000400000000000000008040 x0 (Dev.gapBar x0 x1 x2 x3 x4 x5 x6 x7 x8) := by
  unfold Dev.gapBar
  repeat' (first
    | with_reducible assumption
    | exact rfl
    | (extract_lets +onlyGivenNames x; first | (refine Dev.Only.have1 x (fun hx => ?_) ?_; clear_value x; rotate_left; subst x)  | (refine Dev.Only.have1 x.1 (fun hx => ?_) ?_; clear_value x; rotate_left; subst x) | (refine Dev.Only.have1 x.2 (fun hx => ?_) ?_; clear_value x; rotate_left; subst x) | (refine Dev.Only.fun1 x ?_; subst x; try dsimp -zeta only) | clear_value x)
    | with_reducible exact Dev.Only.refl _ _ _
    | with_reducible apply Dev.Only.step (Dev.measureStripe_only _ _ _ _ _)
    | with_reducible apply Dev.Only.step (Dev.registerLoop_only _ _ _ _ _ _)
    | (with_reducible apply Dev.Only.of_fst; assumption)
    | split)

theorem Dev.trimReports_only (x0 : Dev) (x1 : Nat) (x2 : Nat) :
    Dev.Only 0x8000000 0 x0 (Dev.trimReports x0 x1 x2) := by
  unfold Dev.trimReports
  repeat' (first
    | with_reducible assumption
    | exact rfl
    | (extract_lets +onlyGivenNames x; first | (refine Dev.Only.have1 x (fun hx => ?_) ?_; clear_value x; rotate_left; subst x)  | (refine Dev.Only.have1 x.1 (fun hx => ?_) ?_; clear_value x; rotate_left; subst x) | (refine Dev.Only.have1 x.2 (fun hx => ?_) ?_; clear_value x; rotate_left; subst x) | (refine Dev.Only.fun1 x ?_; subst x; try dsimp -zeta only) | clear_value x)
    | with_reducible exact Dev.Only.refl _ _ _
    | split
    | with_reducible apply Dev.Only.with_loops)

theorem Dev.measureGap_only (x0 : Dev) (x1 : Nat) (x2 : Nat) (x3 : Nat) (x4 : Nat) (x5 : BrimPlan) (x6 : List GapBar) :
    Dev.Only 0x14088004100 0xe0c000000000000000000000000000000000008000000000000000000003001800400000000000000008040 x0 (Dev.measureGap x0 x1 x2 x3 x4 x5 x6) := by
  unfold Dev.measureGap
  repeat' (first
    | with_reducible assumption
    | exact rfl
    | intro e
    | (extract_lets +onlyGivenNames x; first | (refine Dev.Only.have1 x (fun hx => ?_) ?_; clear_value x; rotate_left; subst x)  | (refine Dev.Only.have1 x.1 (fun hx => ?_) ?_; clear_value x; rotate_left; subst x) | (refine Dev.Only.have1 x.2 (fun hx => ?_) ?_; clear_value x; rotate_left; subst x) | (refine Dev.Only.fun1 x ?_; subst x; try dsimp -zeta only) | clear_value x)
    | with_reducible exact Dev.Only.refl _ _ _
    | with_reducible apply Dev.Only.step (Dev.gapBar_only _ _ _ _ _ _ _ _ _)
    | with_reducible apply Dev.Only.step (Dev.trimReports_only _ _ _)
    | with_reducible apply Dev.Only.step (Dev.sv1Commit_only _ _)
    | with_reducible apply Dev.Only.forEach
    | split)

theorem execGapMeasurement_only (x0 : Port) (x1 : U32) (x2 : U32) (x3 : U32) (x4 : List GapBar) (x5 : State) :
    Out.Only 0x14088004100 0xe0c000000000000000000000000000000000008000000000000000000003001800400000000000000008040 x5 (execGapMeasurement x0 x1 x2 x3 x4 x5) := by
  unfold execGapMeasurement
  repeat' (first
    | with_reducible assumption
    | exact rfl
    | with_reducible exact Dev.Only.refl _ _ _
    | with_reducible exact State.Only.refl _ _ _
    | (with_reducible apply State.Only.dev; with_reducible assumption)
    | with_reducible apply Out.Only.act
    | with_reducible apply Out.Only.next
    | with_reducible apply Dev.Only.step (Dev.measureGap_only _ _ _ _ _ _ _)
    | (with_reducible apply Dev.Only.of_fst; assumption)
    | split
    | with_reducible apply State.Only.mkDev)

theorem Dev.handStep_only (x0 : Dev) (x1 : Nat) :
    Dev.Only 0x14098000100 0x80002000000000000000000000000000000000000000000000000000000000000000000000000000000000000008040 x0 (Dev.handStep x0 x1) := by
  unfold Dev.handStep
  repeat' (first
    | with_reducible assumption
    | exact rfl
    | (extract_lets +onlyGivenNames x; (refine Dev.Only.have1 x (fun hx => ?_) ?_; clear_value x; rotate_left; subst x))
    | with_reducible exact Dev.Only.refl _ _ _
    | with_reducible apply Dev.Only.step (Dev.axTarget_only _ _ _ _)
    | with_reducible apply Dev.Only.step (Dev.raise_only _ _ _)
    | with_reducible apply Dev.Only.step (Dev.updBar_only _ _ _)
    | split)

theorem execHandoverStep_only (x0 : Pipe) (x1 : State) :
    Out.Only 0x14098000100 0x80002000000000000000000000000000000000000000000000000000000000000000000000000000000000000008040 x1 (execHandoverStep x0 x1) := by
  unfold execHandoverStep
  repeat' (first
    | exact rfl
    | with_reducible exact Dev.Only.refl _ _ _
    | with_reducible exact State.Only.refl _ _ _
    | with_reducible apply Out.Only.act
    | with_reducible apply Dev.Only.step (Dev.handStep_only _ _))

/-! ### Mark -/

theorem Dev.assertMark_only (x0 : Dev) (x1 : Prod) :
    Dev.Only 0x1000000 0 x0 (Dev.assertMark x0 x1) := by
  unfold Dev.assertMark
  repeat' (first
    | exact rfl
    | (extract_lets +onlyGivenNames x; clear_value x)
    | with_reducible exact Dev.Only.refl _ _ _
    | split
    | with_reducible apply Dev.Only.with_integ)

theorem Dev.markProduct_only (x0 : Dev) (x1 : Prod) :
    Dev.Only 0x14083000100 0x100c0000000000000000000000000000000000000000000000000000000000008040 x0 (Dev.markProduct x0 x1) := by
  unfold Dev.markProduct
  repeat' (first
    | with_reducible assumption
    | exact rfl
    | (extract_lets +onlyGivenNames x; first | (refine Dev.Only.have1 x (fun hx => ?_) ?_; clear_value x; rotate_left; subst x)  | (refine Dev.Only.have1 x.1 (fun hx => ?_) ?_; clear_value x; rotate_left; subst x) | (refine Dev.Only.have1 x.2 (fun hx => ?_) ?_; clear_value x; rotate_left; subst x) | (refine Dev.Only.fun1 x ?_; subst x; try dsimp -zeta only) | clear_value x)
    | with_reducible exact Dev.Only.refl _ _ _
    | with_reducible apply Dev.Only.step (Dev.assertMark_only _ _)
    | with_reducible apply Dev.Only.step (Dev.writeRec_only _ _)
    | with_reducible apply Dev.Only.step (Dev.updAccount_only _ _ _)
    | with_reducible apply Dev.Only.step (Dev.updProd_only _ _ _ _)
    | with_reducible apply Dev.Only.wr
    | split)

theorem Dev.poisonEntry_only (x0 : Dev) (x1 : Prod) :
    Dev.Only 0x1408b000100 0x201f940000000000000000000000000000000000000000000000000000000000008040 x0 (Dev.poisonEntry x0 x1) := by
  unfold Dev.poisonEntry
  repeat' (first
    | with_reducible assumption
    | exact rfl
    | (extract_lets +onlyGivenNames x; first | (refine Dev.Only.have1 x (fun hx => ?_) ?_; clear_value x; rotate_left; subst x)  | (refine Dev.Only.have1 x.1 (fun hx => ?_) ?_; clear_value x; rotate_left; subst x) | (refine Dev.Only.have1 x.2 (fun hx => ?_) ?_; clear_value x; rotate_left; subst x) | (refine Dev.Only.fun1 x ?_; subst x; try dsimp -zeta only) | clear_value x)
    | with_reducible exact Dev.Only.refl _ _ _
    | with_reducible apply Dev.Only.step (Dev.raise_only _ _ _)
    | with_reducible apply Dev.Only.step (Dev.updProd_only _ _ _ _)
    | with_reducible apply Dev.Only.step (Dev.spoilWhole_only _ _ _ _ _ _)
    | with_reducible apply Dev.Only.wr
    | split)

theorem Dev.markPoint_only (x0 : Dev) (x1 : Nat) (x2 : Nat) (x3 : Bool) :
    Dev.Only 0x1408b000100 0x201f9c0000000000000000000000000000000000000000000000000000000000008040 x0 (Dev.markPoint x0 x1 x2 x3) := by
  unfold Dev.markPoint
  repeat' (first
    | with_reducible assumption
    | exact rfl
    | (extract_lets +onlyGivenNames x; first | (refine Dev.Only.have1 x (fun hx => ?_) ?_; clear_value x; rotate_left; subst x)  | (refine Dev.Only.have1 x.1 (fun hx => ?_) ?_; clear_value x; rotate_left; subst x) | (refine Dev.Only.have1 x.2 (fun hx => ?_) ?_; clear_value x; rotate_left; subst x) | (refine Dev.Only.fun1 x ?_; subst x; try dsimp -zeta only) | clear_value x)
    | with_reducible exact Dev.Only.refl _ _ _
    | with_reducible apply Dev.Only.step (Dev.poisonEntry_only _ _)
    | with_reducible apply Dev.Only.step (Dev.markProduct_only _ _)
    | with_reducible apply Dev.Only.step (Dev.freeProd_only _ _ _)
    | (with_reducible apply Dev.Only.of_fst; assumption)
    | split)

theorem execMarkPoint_only (x0 : U32) (x1 : U32) (x2 : Bool) (x3 : State) :
    Out.Only 0x1408b000100 0x201f9c0000000000000000000000000000000000000000000000000000000000008040 x3 (execMarkPoint x0 x1 x2 x3) := by
  unfold execMarkPoint
  repeat' (first
    | exact rfl
    | with_reducible exact Dev.Only.refl _ _ _
    | with_reducible exact State.Only.refl _ _ _
    | with_reducible apply Out.Only.act
    | with_reducible apply Dev.Only.step (Dev.markPoint_only _ _ _ _))

theorem Dev.markEnd_only (x0 : Dev) :
    Dev.Only 0x1000000 0x3000000000000000000000000000000000000000000000000000000000000000000 x0 (Dev.markEnd x0) := by
  unfold Dev.markEnd
  repeat' (first
    | with_reducible assumption
    | exact rfl
    | (extract_lets +onlyGivenNames x; first | (refine Dev.Only.have1 x (fun hx => ?_) ?_; clear_value x; rotate_left; subst x)  | (refine Dev.Only.have1 x.1 (fun hx => ?_) ?_; clear_value x; rotate_left; subst x) | (refine Dev.Only.have1 x.2 (fun hx => ?_) ?_; clear_value x; rotate_left; subst x) | (refine Dev.Only.fun1 x ?_; subst x; try dsimp -zeta only) | clear_value x)
    | with_reducible exact Dev.Only.refl _ _ _
    | with_reducible apply Dev.Only.step (Dev.countPtab_only _)
    | split
    | with_reducible apply Dev.Only.with_integ)

theorem execWasteMarkEnd_only (x0 : State) :
    Out.Only 0x1000000 0x3000000000000000000000000000000000000000000000000000000000000000000 x0 (execWasteMarkEnd x0) := by
  unfold execWasteMarkEnd
  repeat' (first
    | exact rfl
    | with_reducible exact Dev.Only.refl _ _ _
    | with_reducible exact State.Only.refl _ _ _
    | with_reducible apply Out.Only.act
    | with_reducible apply Dev.Only.step (Dev.markEnd_only _))

end Sys2Proof.Machine
end

