-- ==== Sys2Proof/Laws/OnlyPress.lean ====
section
/-! SUPPORT. What each operation may change, operation by operation: press protocol and arbitration windows. Each lemma names the parts
and the register fields as bit masks over `Part` and `Fld`. -/
namespace Sys2Proof.Machine

-- One theorem at a time: checked side by side, their threads exceed the memory that the check allows.
set_option Elab.async false
-- The proofs of this file share one script, whose steps not every goal needs.
set_option linter.unusedTactic false
set_option linter.unreachableTactic false

/-! ### Xpp -/

theorem Dev.discard_only (x0 : Dev) (x1 : Nat) (x2 : BadCause) :
    Dev.Only 0x14080000100 0x800000000000000000000000000000000000000000000000000000000000000000000000000000000000000000000000000000000000000000000008040 x0 (Dev.discard x0 x1 x2) := by
  unfold Dev.discard
  repeat' (first
    | with_reducible assumption
    | exact rfl
    | (extract_lets +onlyGivenNames x; first | (refine Dev.Only.have1 x (fun hx => ?_) ?_; clear_value x; rotate_left; subst x) | (refine Dev.Only.fun1 x ?_; subst x; try dsimp -zeta only) | clear_value x)
    | with_reducible exact Dev.Only.refl _ _ _
    | with_reducible apply Dev.Only.step (Dev.raise_only _ _ _)
    | with_reducible apply Dev.Only.inc
    | split
    | with_reducible apply Dev.Only.with_xpp)

theorem execXppMessageDiscard_only (x0 : Fin 3) (x1 : BadCause) (x2 : State) :
    Out.Only 0x14080000100 0x800000000000000000000000000000000000000000000000000000000000000000000000000000000000000000000000000000000000000000000008040 x2 (execXppMessageDiscard x0 x1 x2) := by
  unfold execXppMessageDiscard
  repeat' (first
    | exact rfl
    | with_reducible exact Dev.Only.refl _ _ _
    | with_reducible exact State.Only.refl _ _ _
    | with_reducible apply Out.Only.act
    | with_reducible apply Dev.Only.step (Dev.discard_only _ _ _)
    | split)

theorem Dev.toRing_only (x0 : Dev) (x1 : Role) (x2 : XppHdr) :
    Dev.Only 0x100 0 x0 (Dev.toRing x0 x1 x2) := by
  unfold Dev.toRing
  repeat' (first
    | exact rfl
    | (extract_lets +onlyGivenNames x; clear_value x)
    | with_reducible exact Dev.Only.refl _ _ _
    | split
    | with_reducible apply Dev.Only.with_xpp)

theorem Dev.taken_only (x0 : Dev) (x1 : Role) (x2 : XppHdr) (x3 : Bool) :
    Dev.Only 0x100 0 x0 (Dev.taken x0 x1 x2 x3) := by
  unfold Dev.taken
  repeat' (first
    | with_reducible assumption
    | exact rfl
    | (extract_lets +onlyGivenNames x; first | (refine Dev.Only.have1 x (fun hx => ?_) ?_; clear_value x; rotate_left; subst x)  | (refine Dev.Only.have1 x.1 (fun hx => ?_) ?_; clear_value x; rotate_left; subst x) | (refine Dev.Only.have1 x.2 (fun hx => ?_) ?_; clear_value x; rotate_left; subst x) | (refine Dev.Only.fun1 x ?_; subst x; try dsimp -zeta only) | clear_value x)
    | with_reducible exact Dev.Only.refl _ _ _
    | with_reducible apply Dev.Only.step (Dev.toRing_only _ _ _)
    | with_reducible apply Dev.Only.step (Dev.setPeer_only _ _ _)
    | split)

theorem Dev.sequence_only (x0 : Dev) (x1 : Role) (x2 : XppIn) :
    Dev.Only 0x14080000100 0x1800000000000000000000000000000000000000000000000000000000000000000000000000000000000000000000000000000000000000000000008040 x0 (Dev.sequence x0 x1 x2).1 := by
  unfold Dev.sequence
  repeat' (first
    | exact rfl
    | (extract_lets +onlyGivenNames x; clear_value x)
    | with_reducible exact Dev.Only.refl _ _ _
    | with_reducible apply Dev.Only.step (Dev.discard_only _ _ _)
    | with_reducible apply Dev.Only.step (Dev.taken_only _ _ _ _)
    | with_reducible apply Dev.Only.inc
    | split)

theorem Dev.receive_only (x0 : Dev) (x1 : XppIn) :
    Dev.Only 0x14080000100 0x1800000000000000000000000000000000000000000000000000000000000000000000000000000000000000000000000000000000000000000000008040 x0 (Dev.receive x0 x1).1 := by
  unfold Dev.receive
  repeat' (first
    | with_reducible assumption
    | exact rfl
    | with_reducible exact Dev.Only.refl _ _ _
    | with_reducible apply Dev.Only.step (Dev.discard_only _ _ _)
    | with_reducible apply Dev.Only.step (Dev.sequence_only _ _ _)
    | (with_reducible apply Dev.Only.of_fst; assumption)
    | split)

theorem Dev.answer_only (x0 : Dev) (x1 : Role) (x2 : Nat) (x3 : XppMsg) :
    Dev.Only 0x10000000100 0x2000000000000000000000000000000000000000000000000000000000000000000000000000000000000000000000000000000000000000000000000000 x0 (Dev.answer x0 x1 x2 x3) := by
  unfold Dev.answer
  repeat' (first
    | with_reducible assumption
    | exact rfl
    | (extract_lets +onlyGivenNames x; first | (refine Dev.Only.have1 x (fun hx => ?_) ?_; clear_value x; rotate_left; subst x) | (refine Dev.Only.fun1 x ?_; subst x; try dsimp -zeta only) | clear_value x)
    | with_reducible exact Dev.Only.refl _ _ _
    | with_reducible apply Dev.Only.step (Dev.send_only _ _ _)
    | with_reducible apply Dev.Only.step (Dev.setPeer_only _ _ _)
    | with_reducible apply Dev.Only.inc
    | split)

theorem Dev.refuse_only (x0 : Dev) (x1 : Role) (x2 : XppIn) (x3 : Nack) :
    Dev.Only 0x10000000100 0x2000000000000000000000000000000000000000000000000000000000000000000000000000000000000000000000000000000000000000000000000000 x0 (Dev.refuse x0 x1 x2 x3) := by
  unfold Dev.refuse
  repeat' (first
    | exact rfl
    | with_reducible exact Dev.Only.refl _ _ _
    | with_reducible apply Dev.Only.step (Dev.answer_only _ _ _ _))

theorem Dev.answerDup_only (x0 : Dev) (x1 : Role) (x2 : Nat) :
    Dev.Only 0x10000000100 0 x0 (Dev.answerDup x0 x1 x2) := by
  unfold Dev.answerDup
  repeat' (first
    | exact rfl
    | with_reducible exact Dev.Only.refl _ _ _
    | with_reducible apply Dev.Only.step (Dev.send_only _ _ _)
    | split)

theorem Dev.resendKept_only (x0 : Dev) (x1 : Role) (x2 : Nat) :
    Dev.Only 0x10000000000 0 x0 (Dev.resendKept x0 x1 x2) := by
  unfold Dev.resendKept
  repeat' (first
    | with_reducible assumption
    | exact rfl
    | intro e
    | with_reducible exact Dev.Only.refl _ _ _
    | with_reducible apply Dev.Only.step (Dev.emit_only _ _)
    | with_reducible apply Dev.Only.forEach
    | split)

theorem Dev.helloFrom_only (x0 : Dev) (x1 : Role) (x2 : XppHdr) :
    Dev.Only 0x16080000100 0x100000000000000000000000000000000000000000000000000000000000000000000000000000000000000000000000000000000000000000000008050 x0 (Dev.helloFrom x0 x1 x2).1 := by
  unfold Dev.helloFrom
  repeat' (first
    | with_reducible assumption
    | exact rfl
    | (extract_lets +onlyGivenNames x; first | (refine Dev.Only.have1 x (fun hx => ?_) ?_; clear_value x; rotate_left; subst x)  | (refine Dev.Only.have1 x.1 (fun hx => ?_) ?_; clear_value x; rotate_left; subst x) | (refine Dev.Only.have1 x.2 (fun hx => ?_) ?_; clear_value x; rotate_left; subst x) | (refine Dev.Only.fun1 x ?_; subst x; try dsimp -zeta only) | clear_value x)
    | with_reducible exact Dev.Only.refl _ _ _
    | with_reducible apply Dev.Only.step (Dev.raise_only _ _ _)
    | with_reducible apply Dev.Only.step (Dev.clearHold_only _ _)
    | with_reducible apply Dev.Only.setBit
    | split)

theorem execXppPeerLost_only (x0 : Fin 3) (x1 : State) :
    Out.Only 0x14080000180 0x100000000000000000000000000000000000000000000000000000000000000000000000000000000000000000000000000000000000000000000008050 x1 (execXppPeerLost x0 x1) := by
  unfold execXppPeerLost
  repeat' (first
    | with_reducible assumption
    | exact rfl
    | (extract_lets +onlyGivenNames x; first | (refine Out.Only.have1 x (fun hx => ?_) ?_; clear_value x; rotate_left; subst x) | (refine Out.Only.have2 x (fun hx => ?_) ?_; clear_value x; rotate_left; subst x)  | (refine State.Only.have1 x (fun hx => ?_) ?_; clear_value x; rotate_left; subst x) | (refine State.Only.have2 x (fun hx => ?_) ?_; clear_value x; rotate_left; subst x) | (refine Dev.Only.have1 x (fun hx => ?_) ?_; clear_value x; rotate_left; subst x) | clear_value x)
    | with_reducible exact Dev.Only.refl _ _ _
    | with_reducible exact State.Only.refl _ _ _
    | (with_reducible apply State.Only.dev; with_reducible assumption)
    | with_reducible apply Out.Only.act
    | with_reducible apply Out.Only.next
    | with_reducible apply Dev.Only.step (Dev.raise_only _ _ _)
    | with_reducible apply Dev.Only.step (Dev.holdCause_only _ _)
    | with_reducible apply Dev.Only.clrBit
    | split
    | with_reducible apply State.Only.mkDev)

theorem execStatusPeriod_only (x0 : State) :
    Out.Only 0x10000000100 0 x0 (execStatusPeriod x0) := by
  unfold execStatusPeriod
  repeat' (first
    | exact rfl
    | with_reducible exact Dev.Only.refl _ _ _
    | with_reducible exact State.Only.refl _ _ _
    | with_reducible apply Out.Only.act
    | with_reducible apply Dev.Only.step (Dev.sendStatus_only _)
    | split)

/-! ### Nvm -/

theorem Dev.sessionGate_only {c r : Nat} {d e : Dev} {k : Dev → Dev × Option Nack}
    (hk : ∀ e, Dev.Only c r d e → Dev.Only c r d (k e).1) (hc : 0 &&& c = 0) (hr : 0 &&& r = 0) (h : Dev.Only c r d e) :
    Dev.Only c r d (e.sessionGate k).1 := by
  have _ := hc
  have _ := hr
  unfold Dev.sessionGate
  split
  · exact h
  · split
    · exact h
    · exact hk e h

theorem Dev.presenceGate_only {c r : Nat} {d e : Dev} {k : Dev → Dev × Option Nack}
    (hk : ∀ e, Dev.Only c r d e → Dev.Only c r d (k e).1) (hc : 0 &&& c = 0) (hr : 0 &&& r = 0) (h : Dev.Only c r d e) :
    Dev.Only c r d (e.presenceGate k).1 := by
  have _ := hc
  have _ := hr
  unfold Dev.presenceGate
  split
  · exact h
  · exact hk e h

theorem Dev.nvmOpen_only (x0 : Dev) (x1 : Nat) :
    Dev.Only 0x14080000100 0x30000008040 x0 (Dev.nvmOpen x0 x1).1 := by
  unfold Dev.nvmOpen
  repeat' (first
    | with_reducible assumption
    | exact rfl
    | intro e
    | with_reducible exact Dev.Only.refl _ _ _
    | with_reducible apply Dev.presenceGate_only
    | with_reducible apply Dev.Only.step (Dev.raise_only _ _ _)
    | with_reducible apply Dev.Only.wr
    | split)

theorem Dev.nvmErase_only (x0 : Dev) (x1 : Nat) (x2 : Nat) :
    Dev.Only 0x10000000022 0x400000000000 x0 (Dev.nvmErase x0 x1 x2).1 := by
  unfold Dev.nvmErase
  repeat' (first
    | with_reducible assumption
    | exact rfl
    | intro e
    | with_reducible exact Dev.Only.refl _ _ _
    | with_reducible apply Dev.Only.step (Dev.norStart_only _ _)
    | with_reducible apply Dev.sessionGate_only
    | split)

theorem Dev.nvmWrite_only (x0 : Dev) (x1 : Nat) (x2 : List Byte) :
    Dev.Only 0x10000000022 0x400000000000 x0 (Dev.nvmWrite x0 x1 x2).1 := by
  unfold Dev.nvmWrite
  repeat' (first
    | with_reducible assumption
    | exact rfl
    | intro e
    | with_reducible exact Dev.Only.refl _ _ _
    | with_reducible apply Dev.Only.step (Dev.norStart_only _ _)
    | with_reducible apply Dev.sessionGate_only
    | split)

theorem Dev.nvmClose_only (x0 : Dev) :
    Dev.Only 0x14080000122 0x430000008040 x0 (Dev.nvmClose x0).1 := by
  unfold Dev.nvmClose
  repeat' (first
    | with_reducible assumption
    | exact rfl
    | intro e
    | (extract_lets +onlyGivenNames x; clear_value x)
    | with_reducible exact Dev.Only.refl _ _ _
    | with_reducible apply Dev.Only.step (Dev.norStart_only _ _)
    | with_reducible apply Dev.Only.step (Dev.raise_only _ _ _)
    | with_reducible apply Dev.sessionGate_only
    | with_reducible apply Dev.Only.wr
    | split)

theorem Dev.debugEnable_only (x0 : Dev) :
    Dev.Only 0x14080000100 0x80000008040 x0 (Dev.debugEnable x0).1 := by
  unfold Dev.debugEnable
  repeat' (first
    | with_reducible assumption
    | exact rfl
    | intro e
    | with_reducible exact Dev.Only.refl _ _ _
    | with_reducible apply Dev.presenceGate_only
    | with_reducible apply Dev.Only.step (Dev.raise_only _ _ _)
    | with_reducible apply Dev.Only.wr
    | split)

theorem Dev.rewriteHeader_only (x0 : Dev) (x1 : Nat) (x2 : Nat) :
    Dev.Only 0x10000000022 0x400000000000 x0 (Dev.rewriteHeader x0 x1 x2) := by
  unfold Dev.rewriteHeader
  repeat' (first
    | exact rfl
    | (extract_lets +onlyGivenNames x; clear_value x)
    | with_reducible exact Dev.Only.refl _ _ _
    | with_reducible apply Dev.Only.step (Dev.norStart_only _ _))

theorem Dev.lockSet_only (x0 : Dev) (x1 : Nat) :
    Dev.Only 0x14080000132 0x440000008040 x0 (Dev.lockSet x0 x1).1 := by
  unfold Dev.lockSet
  repeat' (first
    | with_reducible assumption
    | exact rfl
    | intro e
    | (extract_lets +onlyGivenNames x; first | (refine Dev.Only.have1 x (fun hx => ?_) ?_; clear_value x; rotate_left; subst x) | clear_value x)
    | with_reducible exact Dev.Only.refl _ _ _
    | with_reducible apply Dev.presenceGate_only
    | with_reducible apply Dev.Only.step (Dev.raise_only _ _ _)
    | with_reducible apply Dev.Only.step (Dev.rewriteHeader_only _ _ _)
    | with_reducible apply Dev.Only.wr
    | split
    | with_reducible apply Dev.Only.with_boot)

theorem Dev.logErase_only (x0 : Dev) :
    Dev.Only 0x10000000022 0x400000000000 x0 (Dev.logErase x0).1 := by
  unfold Dev.logErase
  repeat' (first
    | with_reducible assumption
    | exact rfl
    | intro e
    | with_reducible exact Dev.Only.refl _ _ _
    | with_reducible apply Dev.Only.step (Dev.norStart_only _ _)
    | with_reducible apply Dev.presenceGate_only
    | split)

theorem execPresenceAssert_only (x0 : State) :
    Out.Only 0 0x8000000000 x0 (execPresenceAssert x0) := by
  unfold execPresenceAssert
  repeat' (first
    | exact rfl
    | with_reducible exact Dev.Only.refl _ _ _
    | with_reducible exact State.Only.refl _ _ _
    | with_reducible apply Out.Only.act
    | with_reducible apply Dev.Only.wr)

theorem execPresenceLost_only (x0 : State) :
    Out.Only 0x14080000120 0x38000008040 x0 (execPresenceLost x0) := by
  unfold execPresenceLost
  repeat' (first
    | with_reducible assumption
    | exact rfl
    | (extract_lets +onlyGivenNames x; first | (refine Dev.Only.have1 x (fun hx => ?_) ?_; clear_value x; rotate_left; subst x) | clear_value x)
    | with_reducible exact Dev.Only.refl _ _ _
    | with_reducible exact State.Only.refl _ _ _
    | with_reducible apply Out.Only.act
    | with_reducible apply Dev.Only.step (Dev.raise_only _ _ _)
    | with_reducible apply Dev.Only.wr
    | split
    | with_reducible apply Dev.Only.with_pwr)

/-! ### Orders -/

theorem Done.of_only {c r : Nat} {d : Dev} {x : Dev × Option Nack} (h : Dev.Only c r d x.1) : Dev.Only c r d (Done.of x).1 := by
  unfold Done.of
  split <;> exact h

theorem Dev.wakeLanes_only (x0 : Dev) :
    Dev.Only 0x10000800000 0 x0 (Dev.wakeLanes x0) := by
  unfold Dev.wakeLanes
  repeat' (first
    | with_reducible assumption
    | exact rfl
    | intro e
    | with_reducible exact Dev.Only.refl _ _ _
    | with_reducible apply Dev.Only.step (Dev.askWake_only _ _)
    | with_reducible apply Dev.Only.forEach)

theorem Dev.arm_only (x0 : Dev) :
    Dev.Only 0x18800400100 0x4000000000000000000000000000000000000000000000000000000000000000000000000000000000000000000000000000000000000008 x0 (Dev.arm x0) := by
  unfold Dev.arm
  repeat' (first
    | with_reducible assumption
    | exact rfl
    | (extract_lets +onlyGivenNames x; (refine Dev.Only.have1 x (fun hx => ?_) ?_; clear_value x; rotate_left; subst x))
    | with_reducible exact Dev.Only.refl _ _ _
    | with_reducible apply Dev.Only.step (Dev.enter_only _ _)
    | with_reducible apply Dev.Only.wr
    | split
    | with_reducible apply Dev.Only.with_freqWait)

theorem Dev.orderStart_only (x0 : Dev) (x1 : Nat) (x2 : Nat) (x3 : Int) :
    Dev.Only 0x18808c03300 0x400000000000000000000000000000000000000000000000000000000000ffd8000000000000000000000000000000000000000000000008 x0 (Dev.orderStart x0 x1 x2 x3).1 := by
  unfold Dev.orderStart
  repeat' (first
    | with_reducible assumption
    | exact rfl
    | (extract_lets +onlyGivenNames x; (refine Dev.Only.have1 x (fun hx => ?_) ?_; clear_value x; rotate_left; subst x))
    | with_reducible exact Dev.Only.refl _ _ _
    | with_reducible apply Dev.Only.step (Dev.arm_only _)
    | with_reducible apply Dev.Only.step (Dev.jobFirst_only _ _)
    | with_reducible apply Dev.Only.step (Dev.place_only _ _ _)
    | with_reducible apply Dev.Only.step (Dev.wakeLanes_only _)
    | split
    | with_reducible apply Dev.Only.with_suppressAuto)

theorem Dev.orderStop_only (x0 : Dev) :
    Dev.Only 0x1880bc87700 0xe41800000000000c000000000000000000000000000000000008 x0 (Dev.orderStop x0).1 := by
  unfold Dev.orderStop
  repeat' (first
    | with_reducible assumption
    | exact rfl
    | (extract_lets +onlyGivenNames x; (refine Dev.Only.have1 x (fun hx => ?_) ?_; clear_value x; rotate_left; subst x))
    | with_reducible exact Dev.Only.refl _ _ _
    | with_reducible apply Dev.Only.step (Dev.enter_only _ _)
    | with_reducible apply Dev.Only.step (Dev.stopQueue_only _)
    | split)

theorem Dev.orderHold_only (x0 : Dev) :
    Dev.Only 0x10000000180 0x10 x0 (Dev.orderHold x0).1 := by
  unfold Dev.orderHold
  repeat' (first
    | exact rfl
    | with_reducible exact Dev.Only.refl _ _ _
    | with_reducible apply Dev.Only.step (Dev.holdCause_only _ _))

theorem Dev.orderResume_only (x0 : Dev) :
    Dev.Only 0x1a801c02780 0x4000000000000000000000000000000000000000000000000000000000000380000000000000000000000000000000000000000000000018 x0 (Dev.orderResume x0).1 := by
  unfold Dev.orderResume
  repeat' (first
    | with_reducible assumption
    | exact rfl
    | (extract_lets +onlyGivenNames x; first | (refine Dev.Only.have1 x (fun hx => ?_) ?_; clear_value x; rotate_left; subst x)  | (refine Dev.Only.have1 x.1 (fun hx => ?_) ?_; clear_value x; rotate_left; subst x) | (refine Dev.Only.have1 x.2 (fun hx => ?_) ?_; clear_value x; rotate_left; subst x) | (refine Dev.Only.fun1 x ?_; subst x; try dsimp -zeta only) | clear_value x)
    | with_reducible exact Dev.Only.refl _ _ _
    | with_reducible apply Dev.Only.step (Dev.clearHold_only _ _)
    | with_reducible apply Dev.Only.step (Dev.rePlace_only _)
    | with_reducible apply Dev.Only.step (Dev.wakeLanes_only _)
    | with_reducible apply Dev.Only.step (Dev.closeJobs_only _)
    | with_reducible apply Dev.Only.step (Dev.arm_only _)
    | with_reducible apply Dev.Only.step (Dev.enter_only _ _)
    | (with_reducible apply Dev.Only.of_fst; assumption)
    | split
    | with_reducible apply Dev.Only.with_holdSeen)

theorem Dev.Ok.filter {d : Dev} (p : (Fld × Nat × Nat) × Nat → Bool) (h : d.Ok) : Dev.Ok { d with rf := d.rf.filter p } :=
  ⟨⟨Tab.wf_filter regLt regLt_order _ _ _ h.1.1, fun x hx => h.1.2 x (List.mem_filter.1 hx).1⟩, h.2⟩

theorem Dev.powerDown_only (x0 : Dev) (x1 : List Dom) : Dev.Only 0x48bc000 0x1fffffffffffffffffffffffffffffffffffffffffffffffffffffffffffffffffffffffffffffffffffffffffffffffffffffffffffffffffffffffffffffffffffffffffffff x0 (x0.powerDown x1) := by
  unfold Dev.powerDown
  extract_lets +onlyGivenNames a
  have ha : Dev.Only 0x48bc000 0x1fffffffffffffffffffffffffffffffffffffffffffffffffffffffffffffffffffffffffffffffffffffffffffffffffffffffffffffffffffffffffffffffffffffffffffff x0 a :=
    ⟨fun p _ => by cases p <;> first | rfl | trivial, fun f hf => (by rw [Fld.all_bit] at hf; cases hf), fun hd => hd.filter _⟩
  clear_value a
  extract_lets +onlyGivenNames b
  have hb : Dev.Only 0x48bc000 0x1fffffffffffffffffffffffffffffffffffffffffffffffffffffffffffffffffffffffffffffffffffffffffffffffffffffffffffffffffffffffffffffffffffffffffffff x0 b := by
    subst b
    exact Dev.Only.forEach _ (fun e x he => Dev.Only.clrBit _ _ _ _ rfl he) ha
  clear_value b
  refine Dev.Only.rest (e := b) rfl rfl ?_ hb
  intro p
  cases p <;> first | exact Or.inl rfl | exact Or.inr rfl | exact Or.inr trivial

theorem safeDown_keeps (f : Fld) (h : Nat.testBit 0x3fffffffffffffdfe0000fbfffffffff000000000000001ffffffffffffffffff8000000000000200000 f.ctorIdx = false) :
    (!safeDown.elem (fldSpec f).dom || keptInReset f) = true := by
  revert h
  cases f <;> decide

theorem Dev.rd_domsOff (e : Dev) (l : List Dom) (f : Fld) (i j : Nat) (hx : f ≠ .AON_PDSTAT_ON) :
    (e.forEach l (fun d p => d.clrBit .AON_PDSTAT_ON p.bit)).rd f i j = e.rd f i j := by
  induction l generalizing e with
  | nil => rfl
  | cons x t ih =>
    refine (ih _).trans ?_
    simp [Dev.clrBit, hx]

theorem Dev.powerDown_safe_only (d : Dev) : Dev.Only 0x48bc000 0x3fffffffffffffdfe0000fbfffffffff000000000000001ffffffffffffffffff8000000000000200000 d (d.powerDown safeDown) := by
  have h := Dev.powerDown_only d safeDown
  refine ⟨h.parts, fun f hf i j => ?_, h.ok⟩
  have hx : f ≠ .AON_PDSTAT_ON := fun hfe => by rw [hfe] at hf; revert hf; decide
  have he := Dev.rd_filter d (fun f => !safeDown.elem (fldSpec f).dom || keptInReset f) f i j
  rw [if_pos (safeDown_keeps f hf)] at he
  exact (Dev.rd_domsOff _ _ f i j hx).trans he

theorem Dev.orderSafe_only (x0 : Dev) : Dev.Only 0x18804cbc110 0x3fffffffffffffdfe0000fbfffffffff000000000000001ffffffffffffffffff8000000000000200008 x0 (Dev.orderSafe x0).1 := by
  unfold Dev.orderSafe
  extract_lets +onlyGivenNames a
  have ha : Dev.Only 0x18804cbc110 0x3fffffffffffffdfe0000fbfffffffff000000000000001ffffffffffffffffff8000000000000200008 x0 a := Dev.Only.mono (Dev.powerDown_safe_only x0) rfl rfl
  clear_value a
  exact Dev.Only.step (Dev.enter_only _ _) rfl rfl (Dev.Only.with_boot (e := a) _ rfl ha)

theorem Dev.orderShutdownAck_only (x0 : Dev) (x1 : Role) :
    Dev.Only 0x18800400132 0x400000000008 x0 (Dev.orderShutdownAck x0 x1).1 := by
  unfold Dev.orderShutdownAck
  repeat' (first
    | with_reducible assumption
    | exact rfl
    | (extract_lets +onlyGivenNames x; first | (refine Dev.Only.have1 x (fun hx => ?_) ?_; clear_value x; rotate_left; subst x) | clear_value x)
    | with_reducible exact Dev.Only.refl _ _ _
    | with_reducible apply Dev.Only.step (Dev.enter_only _ _)
    | with_reducible apply Dev.Only.step (Dev.logWrite_only _ _)
    | split
    | with_reducible apply Dev.Only.with_boot)

theorem Dev.orderTarget_only (x0 : Dev) (x1 : Nat) (x2 : Int) :
    Dev.Only 0x16090000100 0x80002000000000000000000000000000000000000000000000000000000000000000000000000000000000000008040 x0 (Dev.orderTarget x0 x1 x2).1 := by
  unfold Dev.orderTarget
  repeat' (first
    | exact rfl
    | (extract_lets +onlyGivenNames x; clear_value x)
    | with_reducible exact Dev.Only.refl _ _ _
    | with_reducible apply Dev.Only.step (Dev.axTarget_only _ _ _ _)
    | with_reducible apply Dev.Only.step (Dev.groupTarget_only _ _)
    | with_reducible apply Dev.Only.step (Dev.updAx_only _ _ _)
    | split)

theorem Dev.orderHome_only (x0 : Dev) (x1 : Nat) :
    Dev.Only 0x10000000 0xc0000000000000000000000000000000000000000000000000000000000000000000000000000000000000000000000 x0 (Dev.orderHome x0 x1).1 := by
  unfold Dev.orderHome
  repeat' (first
    | exact rfl
    | with_reducible exact Dev.Only.refl _ _ _
    | with_reducible apply Dev.Only.step (Dev.axHome_only _ _)
    | split)

theorem Dev.orderHeat_only (x0 : Dev) (x1 : Nat) (x2 : Nat) (x3 : Nat) :
    Dev.Only 0 0x44000000000000000000000000000000000000000000000000000000000000000000000000000000000000000000000000 x0 (Dev.orderHeat x0 x1 x2 x3).1 := by
  unfold Dev.orderHeat
  repeat' (first
    | exact rfl
    | with_reducible exact Dev.Only.refl _ _ _
    | with_reducible apply Dev.Only.wr)

theorem Dev.orderHeadClear_only (x0 : Dev) (x1 : Nat) :
    Dev.Only 0x140c0800100 0x900000000000000000000000000000000000000000000000000000000000000000000000000000000000000000000008040 x0 (Dev.orderHeadClear x0 x1).1 := by
  unfold Dev.orderHeadClear
  repeat' (first
    | with_reducible assumption
    | exact rfl
    | intro e
    | with_reducible exact Dev.Only.refl _ _ _
    | with_reducible apply Dev.Only.step (Dev.clearPlaus_only _ _)
    | with_reducible apply Dev.Only.forEach)

theorem Dev.orderCancel_only (x0 : Dev) (x1 : Nat) (x2 : Bool) :
    Dev.Only 0x1408bc86700 0x201f14000000000000e41800000000000c000000000000000000000000000000008040 x0 (Dev.orderCancel x0 x1 x2).1 := by
  unfold Dev.orderCancel
  repeat' (first
    | with_reducible assumption
    | exact rfl
    | (extract_lets +onlyGivenNames x; first | (refine Dev.Only.have1 x (fun hx => ?_) ?_; clear_value x; rotate_left; subst x)  | (refine Dev.Only.have1 x.1 (fun hx => ?_) ?_; clear_value x; rotate_left; subst x) | (refine Dev.Only.have1 x.2 (fun hx => ?_) ?_; clear_value x; rotate_left; subst x) | (refine Dev.Only.fun1 x ?_; subst x; try dsimp -zeta only) | clear_value x)
    | with_reducible exact Dev.Only.refl _ _ _
    | with_reducible apply Dev.Only.step (Dev.cancelJob_only _ _ _)
    | with_reducible apply Dev.Only.step (Dev.updJob_only _ _ _)
    | (with_reducible apply Dev.Only.of_fst; assumption)
    | split)

theorem Dev.orderQueue_only (x0 : Dev) (x1 : List Nat) :
    Dev.Only 0x200 0 x0 (Dev.orderQueue x0 x1).1 := by
  unfold Dev.orderQueue
  repeat' (first
    | exact rfl
    | (extract_lets +onlyGivenNames x; clear_value x)
    | with_reducible exact Dev.Only.refl _ _ _
    | split
    | with_reducible apply Dev.Only.with_jobs)

theorem Dev.orderQuery_only (x0 : Dev) (x1 : Nat) :
    Dev.Only 0 0 x0 (Dev.orderQuery x0 x1).1 := by
  unfold Dev.orderQuery
  repeat' (first
    | with_reducible exact Dev.Only.refl _ _ _
    | split)

theorem Dev.orderRead_only (x0 : Dev) (x1 : List Nat) :
    Dev.Only 0x34080400100 0x1800000000006000000000000000000000000000000000000000000000000000000000000000000000000000000000000000000000000000000000000000fc00000001f8040 x0 (Dev.orderRead x0 x1).1 := by
  induction x1 generalizing x0 with
  | nil =>
    unfold Dev.orderRead
    repeat' (first
      | exact rfl
      | with_reducible exact Dev.Only.refl _ _ _
      | with_reducible apply Dev.Only.step (Dev.readWord_only _ _ _)
      | split
      | (with_reducible apply Dev.Only.of_fst; assumption)
      | (with_reducible apply Dev.Only.of_snd; assumption))
  | cons y t ih =>
    unfold Dev.orderRead
    repeat' (first
      | exact rfl
      | with_reducible apply Dev.Only.step (ih _)
      | with_reducible exact Dev.Only.refl _ _ _
      | with_reducible apply Dev.Only.step (Dev.readWord_only _ _ _)
      | split
      | (with_reducible apply Dev.Only.of_fst; assumption)
      | (with_reducible apply Dev.Only.of_snd; assumption))

theorem dataOr_only (x0 : Dev) (x1 : Option (List Byte)) :
    Dev.Only 0 0 x0 (dataOr x0 x1).1 := by
  unfold dataOr
  repeat' (first
    | with_reducible exact Dev.Only.refl _ _ _
    | split)

theorem Dev.carry_only (x0 : Dev) (x1 : Role) (x2 : XppIn) :
    Dev.Only 0x3e8dfcbf7b2 0x18000000000060003000000000040000000000009440c00020000003fffffffffffffffff140fbfffffffffffd800000000001ffffffffffffffffffa010fc04f00003f8058 x0 (Dev.carry x0 x1 x2).1 := by
  unfold Dev.carry
  repeat' (first
    | exact rfl
    | with_reducible exact Dev.Only.refl _ _ _
    | with_reducible apply Done.of_only
    | with_reducible apply Dev.Only.step (Dev.debugEnable_only _)
    | with_reducible apply Dev.Only.step (Dev.helloFrom_only _ _ _)
    | with_reducible apply Dev.Only.step (Dev.lockSet_only _ _)
    | with_reducible apply Dev.Only.step (Dev.logErase_only _)
    | with_reducible apply Dev.Only.step (Dev.nvmClose_only _)
    | with_reducible apply Dev.Only.step (Dev.nvmErase_only _ _ _)
    | with_reducible apply Dev.Only.step (Dev.nvmOpen_only _ _)
    | with_reducible apply Dev.Only.step (Dev.nvmWrite_only _ _ _)
    | with_reducible apply Dev.Only.step (Dev.orderCancel_only _ _ _)
    | with_reducible apply Dev.Only.step (Dev.orderHeadClear_only _ _)
    | with_reducible apply Dev.Only.step (Dev.orderHeat_only _ _ _ _)
    | with_reducible apply Dev.Only.step (Dev.orderHold_only _)
    | with_reducible apply Dev.Only.step (Dev.orderHome_only _ _)
    | with_reducible apply Dev.Only.step (Dev.orderQuery_only _ _)
    | with_reducible apply Dev.Only.step (Dev.orderQueue_only _ _)
    | with_reducible apply Dev.Only.step (Dev.orderRead_only _ _)
    | with_reducible apply Dev.Only.step (Dev.orderResume_only _)
    | with_reducible apply Dev.Only.step (Dev.orderSafe_only _)
    | with_reducible apply Dev.Only.step (Dev.orderShutdownAck_only _ _)
    | with_reducible apply Dev.Only.step (Dev.orderStart_only _ _ _ _)
    | with_reducible apply Dev.Only.step (Dev.orderStop_only _)
    | with_reducible apply Dev.Only.step (Dev.orderTarget_only _ _ _)
    | with_reducible apply Dev.Only.step (Dev.releaseRk_only _ _)
    | with_reducible apply Dev.Only.step (dataOr_only _ _)
    | with_reducible apply Dev.Only.wr
    | split)

theorem Dev.reply_only (x0 : Dev) (x1 : Role) (x2 : Nat) (x3 : Done) :
    Dev.Only 0x10000000100 0x2000000000000000000000000000000000000000000000000000000000000000000000000000000000000000000000000000000000000000000000000000 x0 (Dev.reply x0 x1 x2 x3) := by
  unfold Dev.reply
  repeat' (first
    | exact rfl
    | with_reducible exact Dev.Only.refl _ _ _
    | with_reducible apply Dev.Only.step (Dev.answer_only _ _ _ _)
    | split)

theorem Dev.carryOut_only (x0 : Dev) (x1 : Role) (x2 : XppIn) :
    Dev.Only 0x3e8dfcbf7b2 0x18000000000060023000000000040000000000009440c00020000003fffffffffffffffff140fbfffffffffffd800000000001ffffffffffffffffffa010fc04f00003f8058 x0 (Dev.carryOut x0 x1 x2) := by
  unfold Dev.carryOut
  repeat' (first
    | with_reducible assumption
    | exact rfl
    | (extract_lets +onlyGivenNames x; (refine Dev.Only.have1 x (fun hx => ?_) ?_; clear_value x; rotate_left; subst x))
    | with_reducible exact Dev.Only.refl _ _ _
    | with_reducible apply Dev.Only.step (Dev.carry_only _ _ _)
    | with_reducible apply Dev.Only.step (Dev.reply_only _ _ _ _)
    | with_reducible apply Dev.Only.step (Dev.resendKept_only _ _ _)
    | split
    | (with_reducible apply Dev.Only.of_fst; assumption))

theorem State.carryOut_only (x0 : State) (x1 : Role) (x2 : XppIn) :
    State.Only 0x7fffffffffe 0x1fffffffffffffffffffffffffffffffffffffffffffffffffffffffffffffffffffffffffffffffbfffffffffffffffffffffffffffffffffffffffffffffffff4f0122bf8078 x0 (State.carryOut x0 x1 x2) := by
  unfold State.carryOut
  repeat' (first
    | with_reducible assumption
    | exact rfl
    | (extract_lets +onlyGivenNames x; first | (refine State.Only.have1 x (fun hx => ?_) ?_; clear_value x; rotate_left; subst x) | (refine State.Only.have2 x (fun hx => ?_) ?_; clear_value x; rotate_left; subst x) | (refine State.Only.fun1 x ?_; subst x; try dsimp -zeta only) | (refine Dev.Only.have1 x (fun hx => ?_) ?_; clear_value x; rotate_left; subst x) | (refine Dev.Only.fun1 x ?_; subst x; try dsimp -zeta only) | clear_value x)
    | with_reducible exact Dev.Only.refl _ _ _
    | with_reducible exact State.Only.refl _ _ _
    | (with_reducible apply State.Only.dev; with_reducible assumption)
    | with_reducible apply Dev.Only.step (Dev.carryOut_only _ _ _)
    | with_reducible apply State.Only.step (State.moduleReset_only _ _ _)
    | with_reducible apply State.Only.step (State.reloadFreed_only _ _)
    | (with_reducible apply Dev.Only.of_fst; assumption)
    | split
    | with_reducible apply State.Only.mkDev)

/-! ### Press -/

theorem Dev.progress_only (x0 : Dev) :
    Dev.Only 0x18801402700 0x8 x0 (Dev.progress x0) := by
  unfold Dev.progress
  repeat' (first
    | with_reducible assumption
    | exact rfl
    | (extract_lets +onlyGivenNames x; first | (refine Dev.Only.have1 x (fun hx => ?_) ?_; clear_value x; rotate_left; subst x)  | (refine Dev.Only.have1 x.1 (fun hx => ?_) ?_; clear_value x; rotate_left; subst x) | (refine Dev.Only.have1 x.2 (fun hx => ?_) ?_; clear_value x; rotate_left; subst x) | (refine Dev.Only.fun1 x ?_; subst x; try dsimp -zeta only) | clear_value x)
    | with_reducible exact Dev.Only.refl _ _ _
    | with_reducible apply Dev.Only.step (Dev.retireSent_only _)
    | with_reducible apply Dev.Only.step (Dev.enter_only _ _)
    | with_reducible apply Dev.Only.step (Dev.closeJobs_only _)
    | (with_reducible apply Dev.Only.of_fst; assumption)
    | split)

theorem Dev.stateEvents_only (x0 : Dev) :
    Dev.Only 0x1e88bc027c0 0x201f14000000000000000000000000000c000000000000000000000000000000008048 x0 (Dev.stateEvents x0).1 := by
  unfold Dev.stateEvents
  repeat' (first
    | with_reducible assumption
    | exact rfl
    | with_reducible exact Dev.Only.refl _ _ _
    | with_reducible apply Dev.Only.step (Dev.enterShutdown_only _ _ _ _)
    | with_reducible apply Dev.Only.step (Dev.enterHold_only _)
    | with_reducible apply Dev.Only.step (Dev.progress_only _)
    | (with_reducible apply Dev.Only.of_fst; assumption)
    | split)

theorem Dev.holdOrdered_only (x0 : Dev) :
    Dev.Only 0x1e88bc00180 0x201f14000000000000000000000000000c000000000000000000000000000000008048 x0 (Dev.holdOrdered x0) := by
  unfold Dev.holdOrdered
  repeat' (first
    | exact rfl
    | with_reducible exact Dev.Only.refl _ _ _
    | with_reducible apply Dev.Only.step (Dev.enterHold_only _)
    | split)

theorem Dev.logConflict_only (x0 : Dev) (x1 : Live) (x2 : Live) :
    Dev.Only 0x14080000100 0x4000000000000000000000000000000000000000000000000000000000000000000000000000000000000000000000000000000000000000000000008040 x0 (Dev.logConflict x0 x1 x2) := by
  unfold Dev.logConflict
  repeat' (first
    | exact rfl
    | with_reducible exact Dev.Only.refl _ _ _
    | with_reducible apply Dev.Only.step (Dev.raise_only _ _ _)
    | with_reducible apply Dev.Only.inc)

theorem Dev.settle_only (x0 : Dev) (x1 : List Live) :
    Dev.Only 0x14080000100 0x6000000000000000000000000000000000000000000000000000000000000000000000000000000000000000000000000000000000000000000000008040 x0 (Dev.settle x0 x1).1 := by
  unfold Dev.settle
  repeat' (first
    | with_reducible assumption
    | exact rfl
    | intro e
    | (extract_lets +onlyGivenNames x; first | (refine Dev.Only.have1 x (fun hx => ?_) ?_; clear_value x; rotate_left; subst x) | clear_value x)
    | with_reducible exact Dev.Only.refl _ _ _
    | with_reducible apply Dev.Only.step (Dev.logConflict_only _ _ _)
    | with_reducible apply Dev.Only.step (Dev.refuse_only _ _ _ _)
    | with_reducible apply Dev.Only.forEach)

theorem Dev.refuseBy_only (x0 : Dev) (x1 : Dev → Live → Option Nack) (x2 : List Live) :
    Dev.Only 0x10000000100 0x2000000000000000000000000000000000000000000000000000000000000000000000000000000000000000000000000000000000000000000000000000 x0 (Dev.refuseBy x0 x1 x2).1 := by
  induction x2 generalizing x0 x1 with
  | nil =>
    unfold Dev.refuseBy
    repeat' (first
      | exact rfl
      | with_reducible exact Dev.Only.refl _ _ _
      | with_reducible apply Dev.Only.step (Dev.refuse_only _ _ _ _)
      | split
      | (with_reducible apply Dev.Only.of_fst; assumption))
  | cons y t ih =>
    unfold Dev.refuseBy
    repeat' (first
      | exact rfl
      | with_reducible apply Dev.Only.step (ih _ _)
      | with_reducible exact Dev.Only.refl _ _ _
      | with_reducible apply Dev.Only.step (Dev.refuse_only _ _ _ _)
      | split
      | (with_reducible apply Dev.Only.of_fst; assumption))

theorem Dev.receiveAll_only (x0 : Dev) (x1 : List XppIn) :
    Dev.Only 0x14080000100 0x1800000000000000000000000000000000000000000000000000000000000000000000000000000000000000000000000000000000000000000000008040 x0 (Dev.receiveAll x0 x1).1 := by
  induction x1 generalizing x0 with
  | nil =>
    unfold Dev.receiveAll
    repeat' (first
      | exact rfl
      | with_reducible exact Dev.Only.refl _ _ _
      | with_reducible apply Dev.Only.step (Dev.receive_only _ _)
      | split
      | (with_reducible apply Dev.Only.of_fst; assumption))
  | cons y t ih =>
    unfold Dev.receiveAll
    repeat' (first
      | exact rfl
      | with_reducible apply Dev.Only.step (ih _)
      | with_reducible exact Dev.Only.refl _ _ _
      | with_reducible apply Dev.Only.step (Dev.receive_only _ _)
      | split
      | (with_reducible apply Dev.Only.of_fst; assumption))

theorem State.carryLive_only (x0 : State) (x1 : Live) :
    State.Only 0x7fffffffffe 0x1fffffffffffffffffffffffffffffffffffffffffffffffffffffffffffffffffffffffffffffffbfffffffffffffffffffffffffffffffffffffffffffffffff4f0122bf8078 x0 (State.carryLive x0 x1) := by
  unfold State.carryLive
  repeat' (first
    | exact rfl
    | with_reducible exact Dev.Only.refl _ _ _
    | with_reducible exact State.Only.refl _ _ _
    | with_reducible apply Dev.Only.step (Dev.refuse_only _ _ _ _)
    | with_reducible apply State.Only.step (State.carryOut_only _ _ _)
    | split
    | with_reducible apply State.Only.mkDev)

theorem State.window_only (x0 : State) (x1 : List XppIn) :
    State.Only 0x7fffffffffe 0x1fffffffffffffffffffffffffffffffffffffffffffffffffffffffffffffffffffffffffffffffbfffffffffffffffffffffffffffffffffffffffffffffffff4f0122bf8078 x0 (State.window x0 x1) := by
  unfold State.window
  repeat' (first
    | with_reducible assumption
    | exact rfl
    | intro e
    | (extract_lets +onlyGivenNames x; first | (refine State.Only.have1 x (fun hx => ?_) ?_; clear_value x; rotate_left; subst x) | (refine State.Only.have2 x (fun hx => ?_) ?_; clear_value x; rotate_left; subst x) | clear_value x)
    | with_reducible exact Dev.Only.refl _ _ _
    | with_reducible exact State.Only.refl _ _ _
    | with_reducible apply Dev.Only.step (Dev.answerDup_only _ _ _)
    | with_reducible apply Dev.Only.step (Dev.clearUnderrun_only _)
    | with_reducible apply Dev.Only.step (Dev.freeEntries_only _)
    | with_reducible apply Dev.Only.step (Dev.holdOrdered_only _)
    | with_reducible apply Dev.Only.step (Dev.receiveAll_only _ _)
    | with_reducible apply Dev.Only.step (Dev.refuseBy_only _ _ _)
    | with_reducible apply Dev.Only.step (Dev.settle_only _ _)
    | with_reducible apply Dev.Only.step (Dev.stateEvents_only _)
    | with_reducible apply State.Only.step (State.carryLive_only _ _)
    | with_reducible apply Dev.Only.forEach
    | with_reducible apply State.Only.foldl
    | split
    | (with_reducible apply Dev.Only.of_fst; assumption)
    | (with_reducible apply State.Only.dev; with_reducible assumption)
    | with_reducible apply State.Only.mkDev
    | with_reducible apply Dev.Only.with_holdSeen)

theorem execEvaluationPeriodEnd_only (x0 : Bool) (x1 : List XppIn) (x2 : State) :
    Out.Only 0x7fffffffffe 0x1fffffffffffffffffffffffffffffffffffffffffffffffffffffffffffffffffffffffffffffffbfffffffffffffffffffffffffffffffffffffffffffffffff4f0122bf8078 x2 (execEvaluationPeriodEnd x0 x1 x2) := by
  unfold execEvaluationPeriodEnd
  repeat' (first
    | with_reducible assumption
    | exact rfl
    | with_reducible exact Dev.Only.refl _ _ _
    | with_reducible exact State.Only.refl _ _ _
    | (with_reducible apply State.Only.dev; with_reducible assumption)
    | with_reducible apply Out.Only.next
    | with_reducible apply State.Only.step (State.window_only _ _)
    | split
    | with_reducible apply State.Only.mkDev)

theorem State.request_only (x0 : State) (x1 : XppIn) :
    State.Only 0x7fffffffffe 0x1fffffffffffffffffffffffffffffffffffffffffffffffffffffffffffffffffffffffffffffffbfffffffffffffffffffffffffffffffffffffffffffffffff4f0122bf8078 x0 (State.request x0 x1) := by
  unfold State.request
  repeat' (first
    | with_reducible assumption
    | exact rfl
    | (extract_lets +onlyGivenNames x; first | (refine State.Only.have1 x (fun hx => ?_) ?_; clear_value x; rotate_left; subst x) | (refine State.Only.have2 x (fun hx => ?_) ?_; clear_value x; rotate_left; subst x) | (refine State.Only.fun1 x ?_; subst x; try dsimp -zeta only) | (refine Dev.Only.have1 x (fun hx => ?_) ?_; clear_value x; rotate_left; subst x) | (refine Dev.Only.fun1 x ?_; subst x; try dsimp -zeta only) | clear_value x)
    | with_reducible exact Dev.Only.refl _ _ _
    | with_reducible exact State.Only.refl _ _ _
    | (with_reducible apply State.Only.dev; with_reducible assumption)
    | with_reducible apply Dev.Only.step (Dev.receive_only _ _)
    | with_reducible apply Dev.Only.step (Dev.answerDup_only _ _ _)
    | with_reducible apply Dev.Only.step (Dev.refuse_only _ _ _ _)
    | with_reducible apply State.Only.step (State.carryOut_only _ _ _)
    | with_reducible apply Dev.Only.step (Dev.holdOrdered_only _)
    | (with_reducible apply Dev.Only.of_fst; assumption)
    | (with_reducible apply Dev.Only.of_snd; assumption)
    | split
    | with_reducible apply State.Only.mkDev)

/-- A request alone in its window changes what its reception and its answer change, and what carrying it out changes. -/
theorem State.request_keeps {c r : Nat} (s : State) (x : XppIn) (hc : 0x14080000100 &&& c = 0x14080000100) (hr : 0x3800000000000000000000000000000000000000000000000000000000000000000000000000000000000000000000000000000000000000000000008040 &&& r = 0x3800000000000000000000000000000000000000000000000000000000000000000000000000000000000000000000000000000000000000000000008040)
    (hn : x.req ≠ .restart) (hb : ∀ m, x.req = .rkRelease m → 0x10 &&& c = 0x10)
    (hh : x.req = .hold → ∀ d, Dev.Only c r d (Dev.holdOrdered d))
    (hk : ∀ d k, Dev.Only c r d (Dev.carry d k x).1) : State.Only c r s (s.request x) := by
  have h0 := State.Only.refl c r s
  unfold State.request
  have hrec : Dev.Only c r s.dev (s.dev.receive x).1 := Dev.Only.mono (Dev.Only.mono (Dev.receive_only _ _) rfl rfl) hc hr
  generalize s.dev.receive x = p at hrec
  obtain ⟨d, got⟩ := p
  dsimp only at hrec ⊢
  have href (r' : Role) (n : Nack) : State.Only c r s { s with dev := d.refuse r' x n } :=
    State.Only.mkDev (Dev.Only.step (Dev.Only.mono (Dev.refuse_only _ _ _ _) rfl rfl) hc hr hrec) h0
  split
  · exact State.Only.mkDev hrec h0
  · exact State.Only.mkDev (Dev.Only.step (Dev.Only.mono (Dev.answerDup_only _ _ _) rfl rfl) hc hr hrec) h0
  · next k =>
    split
    · exact href _ _
    · split
      · exact href _ _
      · split
        · exact href _ _
        · have hcarry : Dev.Only c r s.dev (d.carryOut k x) := by
            have h1 := hrec.trans (hk d k)
            unfold Dev.carryOut
            generalize d.carry k x = q at h1
            obtain ⟨e, o⟩ := q
            dsimp only at h1 ⊢
            have h2 : Dev.Only c r s.dev (e.reply k x.hdr.seq.toNat o) :=
              Dev.Only.step (Dev.Only.mono (Dev.reply_only _ _ _ _) rfl rfl) hc hr h1
            split
            · exact Dev.Only.step (Dev.Only.mono (Dev.resendKept_only _ _ _) rfl rfl) hc hr h2
            · exact h2
          have hst : State.Only c r s (State.carryOut { s with dev := d } k x) := by
            have h3 : State.Only c r s { s with dev := d.carryOut k x } := State.Only.mkDev (t := s) hcarry h0
            unfold State.carryOut
            dsimp only
            split
            · next hq => exact absurd hq hn
            · next m hq =>
              exact State.Only.step (State.Only.mono (State.reloadFreed_only _ _) rfl rfl) (hb m hq) (Nat.zero_and r) h3
            · exact h3
          split
          · next hq => exact State.Only.mkDev (hst.dev.trans (hh hq _)) hst
          · exact hst

theorem State.req_only {c r : Nat} (s : State) (h : XppHdr) (q : XppReq) (hc : 0x14080000100 &&& c = 0x14080000100) (hr : 0x3800000000000000000000000000000000000000000000000000000000000000000000000000000000000000000000000000000000000000000000008040 &&& r = 0x3800000000000000000000000000000000000000000000000000000000000000000000000000000000000000000000000000000000000000000000008040)
    (hn : q ≠ .restart) (hb : ∀ m, q = .rkRelease m → 0x10 &&& c = 0x10) (hh : q = .hold → ∀ d, Dev.Only c r d (Dev.holdOrdered d))
    (hk : ∀ d k h, Dev.Only c r d (Dev.carry d k ⟨h, q⟩).1) : Out.Only c r s (s.req h q) :=
  Out.Only.next (State.request_keeps s ⟨h, q⟩ hc hr hn hb hh (fun d k => hk d k h))

theorem execHello_only (x0 : XppHdr) (x1 : State) :
    Out.Only 0x16080000100 0x3900000000000000000000000000000000000000000000000000000000000000000000000000000000000000000000000000000000000000000000008050 x1 (execHello x0 x1) :=
  State.req_only _ _ _ rfl rfl (fun h => by cases h) (fun _ h => by cases h) (fun h => by cases h) (fun _ _ _ => Dev.Only.mono (Dev.helloFrom_only _ _ _) rfl rfl)

theorem execHeartbeat_only (x0 : XppHdr) (x1 : State) :
    Out.Only 0x14080000100 0x3800000000000000000000000000000000000000000000000000000000000000000000000000000000000000000000000000000000000000000000008040 x1 (execHeartbeat x0 x1) :=
  State.req_only _ _ _ rfl rfl (fun h => by cases h) (fun _ h => by cases h) (fun h => by cases h) (fun _ _ _ => Dev.Only.refl _ _ _)

theorem execNoteResend_only (x0 : XppHdr) (x1 : U32) (x2 : State) :
    Out.Only 0x14080000100 0x3800000000000000000000000000000000000000000000000000000000000000000000000000000000000000000000000000000000000000000000008040 x2 (execNoteResend x0 x1 x2) :=
  State.req_only _ _ _ rfl rfl (fun h => by cases h) (fun _ h => by cases h) (fun h => by cases h) (fun _ _ _ => by simp only [Dev.carry]; split <;> exact Dev.Only.refl _ _ _)

theorem execStart_only (x0 : XppHdr) (x1 : U32) (x2 : Byte) (x3 : BitVec 80) (x4 : State) :
    Out.Only 0x1c888c03300 0x380000000000400000000000000000000000000000000000000000000000000000000000ffd8000000000000000000000000000000000000000000008048 x4 (execStart x0 x1 x2 x3 x4) :=
  State.req_only _ _ _ rfl rfl (fun h => by cases h) (fun _ h => by cases h) (fun h => by cases h) (fun _ _ _ => Dev.Only.mono (Dev.orderStart_only _ _ _ _) rfl rfl)

theorem execStop_only (x0 : XppHdr) (x1 : State) :
    Out.Only 0x1c88bc87700 0x380000000000000000000000000000000000000000000000000000000000000000000000e41800000000000c040000000000000000000000000000008048 x1 (execStop x0 x1) :=
  State.req_only _ _ _ rfl rfl (fun h => by cases h) (fun _ h => by cases h) (fun h => by cases h) (fun _ _ _ => Dev.Only.mono (Dev.orderStop_only _) rfl rfl)

theorem execHold_only (x0 : XppHdr) (x1 : State) :
    Out.Only 0x1e88bc00180 0x380000000000000000000000000000000000000000000000000000201f14000000000000000000000000000c000000000000000000000000000000008058 x1 (execHold x0 x1) :=
  State.req_only _ _ _ rfl rfl (fun h => by cases h) (fun _ h => by cases h) (fun _ d => Dev.Only.mono (Dev.holdOrdered_only d) rfl rfl) (fun _ _ _ => Dev.Only.mono (Dev.orderHold_only _) rfl rfl)

theorem execResume_only (x0 : XppHdr) (x1 : State) :
    Out.Only 0x1e881c02780 0x3800000000004000000000000000000000000000000000000000000000000000000000000380000000000000000000000000000000000000000000008058 x1 (execResume x0 x1) :=
  State.req_only _ _ _ rfl rfl (fun h => by cases h) (fun _ h => by cases h) (fun h => by cases h) (fun _ _ _ => Dev.Only.mono (Dev.orderResume_only _) rfl rfl)

theorem execSpeedLimit_only (x0 : XppHdr) (x1 : U32) (x2 : State) :
    Out.Only 0x14080000100 0x3a00000000000000000000000000000000000000000000000000000000000000000000000000000000000000000000000000000000000000000000008040 x2 (execSpeedLimit x0 x1 x2) :=
  State.req_only _ _ _ rfl rfl (fun h => by cases h) (fun _ h => by cases h) (fun h => by cases h) (fun _ _ _ => (Dev.Only.refl _ _ _).wr _ _ _ _ rfl)

theorem execEnterSafe_only (x0 : XppHdr) (x1 : State) :
    Out.Only 0x1c884cbc110 0x38000000000000000000000000000000000000003fffffffffffffdfe0000fbfffffffff000000000000001ffffffffffffffffff8000000000000208048 x1 (execEnterSafe x0 x1) :=
  State.req_only _ _ _ rfl rfl (fun h => by cases h) (fun _ h => by cases h) (fun h => by cases h) (fun _ _ _ => Dev.Only.mono (Dev.orderSafe_only _) rfl rfl)

theorem execRestart_only (x0 : XppHdr) (x1 : State) :
    Out.Only 0x7fffffffffe 0x1fffffffffffffffffffffffffffffffffffffffffffffffffffffffffffffffffffffffffffffffbfffffffffffffffffffffffffffffffffffffffffffffffff4f0122bf8078 x1 (execRestart x0 x1) := by
  unfold execRestart State.req
  refine Out.Only.next ?_
  unfold State.request
  have h0 := State.Only.refl 0x7fffffffffe 0x1fffffffffffffffffffffffffffffffffffffffffffffffffffffffffffffffffffffffffffffffbfffffffffffffffffffffffffffffffffffffffffffffffff4f0122bf8078 x1
  have hrec : Dev.Only 0x7fffffffffe 0x1fffffffffffffffffffffffffffffffffffffffffffffffffffffffffffffffffffffffffffffffbfffffffffffffffffffffffffffffffffffffffffffffffff4f0122bf8078 x1.dev (x1.dev.receive ⟨x0, .restart⟩).1 := Dev.Only.mono (Dev.receive_only _ _) rfl rfl
  generalize x1.dev.receive ⟨x0, .restart⟩ = p at hrec
  obtain ⟨d, got⟩ := p
  dsimp only at hrec ⊢
  have h1 := State.Only.mkDev hrec h0
  have href (r' : Role) (n : Nack) : State.Only 0x7fffffffffe 0x1fffffffffffffffffffffffffffffffffffffffffffffffffffffffffffffffffffffffffffffffbfffffffffffffffffffffffffffffffffffffffffffffffff4f0122bf8078 x1 { x1 with dev := d.refuse r' ⟨x0, .restart⟩ n } :=
    State.Only.mkDev (Dev.Only.step (Dev.refuse_only _ _ _ _) rfl rfl hrec) h0
  split
  · exact h1
  · exact State.Only.mkDev (Dev.Only.step (Dev.answerDup_only _ _ _) rfl rfl hrec) h0
  · split
    · exact href _ _
    · split
      · exact href _ _
      · split
        · exact href _ _
        · rw [if_neg (by intro h; cases h)]
          exact State.Only.step (State.carryOut_only _ _ _) rfl rfl h1

theorem execShutdownAck_only (x0 : XppHdr) (x1 : State) :
    Out.Only 0x1c880400132 0x3800000000000000000000000000000000000000000000000000000000000000000000000000000000000000000000000000000000000000400000008048 x1 (execShutdownAck x0 x1) :=
  State.req_only _ _ _ rfl rfl (fun h => by cases h) (fun _ h => by cases h) (fun h => by cases h) (fun _ _ _ => Dev.Only.mono (Dev.orderShutdownAck_only _ _) rfl rfl)

theorem execRkRelease_only (x0 : XppHdr) (x1 : U16) (x2 : State) :
    Out.Only 0x14080002110 0x3800000000000000000000000000000000000000000000000000000000000000000000000000000000000000000000000000000002010000000000208040 x2 (execRkRelease x0 x1 x2) :=
  State.req_only _ _ _ rfl rfl (fun h => by cases h) (fun _ _ => rfl) (fun h => by cases h) (fun _ _ _ => Dev.Only.mono (Dev.releaseRk_only _ _) rfl rfl)

theorem execHeadClear_only (x0 : XppHdr) (x1 : U64) (x2 : State) :
    Out.Only 0x140c0800100 0x3800000000000000000000000900000000000000000000000000000000000000000000000000000000000000000000000000000000000000000000008040 x2 (execHeadClear x0 x1 x2) :=
  State.req_only _ _ _ rfl rfl (fun h => by cases h) (fun _ h => by cases h) (fun h => by cases h) (fun _ _ _ => Dev.Only.mono (Dev.orderHeadClear_only _ _) rfl rfl)

theorem execAxisTarget_only (x0 : XppHdr) (x1 : Byte) (x2 : U32) (x3 : State) :
    Out.Only 0x16090000100 0x3800000000000000000000000000080002000000000000000000000000000000000000000000000000000000000000000000000000000000000000008040 x3 (execAxisTarget x0 x1 x2 x3) :=
  State.req_only _ _ _ rfl rfl (fun h => by cases h) (fun _ h => by cases h) (fun h => by cases h) (fun _ _ _ => Dev.Only.mono (Dev.orderTarget_only _ _ _) rfl rfl)

theorem execAxisHome_only (x0 : XppHdr) (x1 : Byte) (x2 : State) :
    Out.Only 0x14090000100 0x38000000000000000000000000000c0000000000000000000000000000000000000000000000000000000000000000000000000000000000000000008040 x2 (execAxisHome x0 x1 x2) :=
  State.req_only _ _ _ rfl rfl (fun h => by cases h) (fun _ h => by cases h) (fun h => by cases h) (fun _ _ _ => Dev.Only.mono (Dev.orderHome_only _ _) rfl rfl)

theorem execHeatSet_only (x0 : XppHdr) (x1 : Byte) (x2 : U16) (x3 : Byte) (x4 : State) :
    Out.Only 0x14080000100 0x3800000000000000000000000044000000000000000000000000000000000000000000000000000000000000000000000000000000000000000000008040 x4 (execHeatSet x0 x1 x2 x3 x4) :=
  State.req_only _ _ _ rfl rfl (fun h => by cases h) (fun _ h => by cases h) (fun h => by cases h) (fun _ _ _ => Dev.Only.mono (Dev.orderHeat_only _ _ _ _) rfl rfl)

theorem execJobCancelFinish_only (x0 : XppHdr) (x1 : U32) (x2 : State) :
    Out.Only 0x1408bc86700 0x380000000000000000000000000000000000000000000000000000201f14000000000000e41800000000000c040000000000000000000000000000008040 x2 (execJobCancelFinish x0 x1 x2) :=
  State.req_only _ _ _ rfl rfl (fun h => by cases h) (fun _ h => by cases h) (fun h => by cases h) (fun _ _ _ => Dev.Only.mono (Dev.orderCancel_only _ _ _) rfl rfl)

theorem execJobCancelAbort_only (x0 : XppHdr) (x1 : U32) (x2 : State) :
    Out.Only 0x1408bc86700 0x380000000000000000000000000000000000000000000000000000201f14000000000000e41800000000000c040000000000000000000000000000008040 x2 (execJobCancelAbort x0 x1 x2) :=
  State.req_only _ _ _ rfl rfl (fun h => by cases h) (fun _ h => by cases h) (fun h => by cases h) (fun _ _ _ => Dev.Only.mono (Dev.orderCancel_only _ _ _) rfl rfl)

theorem execQueueOrder_only (x0 : XppHdr) (x1 : List U32) (x2 : State) :
    Out.Only 0x14080000300 0x3800000000000000000000000000000000000000000000000000000000000000000000000000000000000000000000000000000000000000000000008040 x2 (execQueueOrder x0 x1 x2) :=
  State.req_only _ _ _ rfl rfl (fun h => by cases h) (fun _ h => by cases h) (fun h => by cases h) (fun _ _ _ => Dev.Only.mono (Dev.orderQueue_only _ _) rfl rfl)

theorem execJobQuery_only (x0 : XppHdr) (x1 : U32) (x2 : State) :
    Out.Only 0x14080000100 0x3800000000000000000000000000000000000000000000000000000000000000000000000000000000000000000000000000000000000000000000008040 x2 (execJobQuery x0 x1 x2) :=
  State.req_only _ _ _ rfl rfl (fun h => by cases h) (fun _ h => by cases h) (fun h => by cases h) (fun _ _ _ => Dev.Only.mono (Dev.orderQuery_only _ _) rfl rfl)

theorem execRegRead_only (x0 : XppHdr) (x1 : List U32) (x2 : State) :
    Out.Only 0x34080400100 0x1800000000006003800000000000000000000000000000000000000000000000000000000000000000000000000000000000000000000000000000000000fc00000001f8040 x2 (execRegRead x0 x1 x2) :=
  State.req_only _ _ _ rfl rfl (fun h => by cases h) (fun _ h => by cases h) (fun h => by cases h) (fun _ _ _ => Dev.Only.mono (Dev.orderRead_only _ _) rfl rfl)

theorem execNvmOpen_only (x0 : XppHdr) (x1 : Byte) (x2 : State) :
    Out.Only 0x14080000100 0x3800000000000000000000000000000000000000000000000000000000000000000000000000000000000000000000000000000000000000030000008040 x2 (execNvmOpen x0 x1 x2) :=
  State.req_only _ _ _ rfl rfl (fun h => by cases h) (fun _ h => by cases h) (fun h => by cases h) (fun _ _ _ => Done.of_only (Dev.Only.mono (Dev.nvmOpen_only _ _) rfl rfl))

theorem execNvmErase_only (x0 : XppHdr) (x1 : U32) (x2 : U16) (x3 : State) :
    Out.Only 0x14080000122 0x3800000000000000000000000000000000000000000000000000000000000000000000000000000000000000000000000000000000000000400000008040 x3 (execNvmErase x0 x1 x2 x3) :=
  State.req_only _ _ _ rfl rfl (fun h => by cases h) (fun _ h => by cases h) (fun h => by cases h) (fun _ _ _ => Done.of_only (Dev.Only.mono (Dev.nvmErase_only _ _ _) rfl rfl))

theorem execNvmWrite_only (x0 : XppHdr) (x1 : U32) (x2 : List Byte) (x3 : State) :
    Out.Only 0x14080000122 0x3800000000000000000000000000000000000000000000000000000000000000000000000000000000000000000000000000000000000000400000008040 x3 (execNvmWrite x0 x1 x2 x3) :=
  State.req_only _ _ _ rfl rfl (fun h => by cases h) (fun _ h => by cases h) (fun h => by cases h) (fun _ _ _ => Done.of_only (Dev.Only.mono (Dev.nvmWrite_only _ _ _) rfl rfl))

theorem execNvmCrc_only (x0 : XppHdr) (x1 : U32) (x2 : U32) (x3 : State) :
    Out.Only 0x14080000100 0x3800000000000000000000000000000000000000000000000000000000000000000000000000000000000000000000000000000000000000000000008040 x3 (execNvmCrc x0 x1 x2 x3) :=
  State.req_only _ _ _ rfl rfl (fun h => by cases h) (fun _ h => by cases h) (fun h => by cases h) (fun _ _ _ => by simp only [Dev.carry, dataOr]; split <;> exact Dev.Only.refl _ _ _)

theorem execNvmClose_only (x0 : XppHdr) (x1 : State) :
    Out.Only 0x14080000122 0x3800000000000000000000000000000000000000000000000000000000000000000000000000000000000000000000000000000000000000430000008040 x1 (execNvmClose x0 x1) :=
  State.req_only _ _ _ rfl rfl (fun h => by cases h) (fun _ h => by cases h) (fun h => by cases h) (fun _ _ _ => Done.of_only (Dev.Only.mono (Dev.nvmClose_only _) rfl rfl))

theorem execDebugEnable_only (x0 : XppHdr) (x1 : State) :
    Out.Only 0x14080000100 0x3800000000000000000000000000000000000000000000000000000000000000000000000000000000000000000000000000000000000000080000008040 x1 (execDebugEnable x0 x1) :=
  State.req_only _ _ _ rfl rfl (fun h => by cases h) (fun _ h => by cases h) (fun h => by cases h) (fun _ _ _ => Done.of_only (Dev.Only.mono (Dev.debugEnable_only _) rfl rfl))

theorem execDebugDisable_only (x0 : XppHdr) (x1 : State) :
    Out.Only 0x14080000100 0x3800000000000000000000000000000000000000000000000000000000000000000000000000000000000000000000000000000000000000080000008040 x1 (execDebugDisable x0 x1) :=
  State.req_only _ _ _ rfl rfl (fun h => by cases h) (fun _ h => by cases h) (fun h => by cases h) (fun _ _ _ => (Dev.Only.refl _ _ _).wr _ _ _ _ rfl)

theorem execLockSet_only (x0 : XppHdr) (x1 : Byte) (x2 : State) :
    Out.Only 0x14080000132 0x3800000000000000000000000000000000000000000000000000000000000000000000000000000000000000000000000000000000000000440000008040 x2 (execLockSet x0 x1 x2) :=
  State.req_only _ _ _ rfl rfl (fun h => by cases h) (fun _ h => by cases h) (fun h => by cases h) (fun _ _ _ => Done.of_only (Dev.Only.mono (Dev.lockSet_only _ _) rfl rfl))

theorem execLogRead_only (x0 : XppHdr) (x1 : U32) (x2 : Byte) (x3 : State) :
    Out.Only 0x14080000100 0x3800000000000000000000000000000000000000000000000000000000000000000000000000000000000000000000000000000000000000000000008040 x3 (execLogRead x0 x1 x2 x3) :=
  State.req_only _ _ _ rfl rfl (fun h => by cases h) (fun _ h => by cases h) (fun h => by cases h) (fun _ _ _ => by simp only [Dev.carry, dataOr]; split <;> exact Dev.Only.refl _ _ _)

theorem execLogErase_only (x0 : XppHdr) (x1 : State) :
    Out.Only 0x14080000122 0x3800000000000000000000000000000000000000000000000000000000000000000000000000000000000000000000000000000000000000400000008040 x1 (execLogErase x0 x1) :=
  State.req_only _ _ _ rfl rfl (fun h => by cases h) (fun _ h => by cases h) (fun h => by cases h) (fun _ _ _ => Done.of_only (Dev.Only.mono (Dev.logErase_only _) rfl rfl))

theorem Dev.dinChange_only {c r : Nat} {d e : Dev} {f : Fld} {v : EvCode} {on : Bool} (hc : 0x14080000100 &&& c = 0x14080000100) (hr : 0x8040 &&& r = 0x8040)
    (hf : r.testBit f.ctorIdx = true) (h : Dev.Only c r d e) : Dev.Only c r d (e.dinChange f v on) := by
  unfold Dev.dinChange
  split
  · exact h
  · extract_lets x
    have hx : Dev.Only c r d x := h.wr _ _ _ _ hf
    clear_value x
    split
    · exact hx
    · exact Dev.Only.step (Dev.Only.mono (Dev.raise_only _ _ _) rfl rfl) hc hr hx

theorem execHoldPinAssert_only (x0 : State) :
    Out.Only 0x14080000180 0x10000000000000000000000000000000000000000000000000000000000000000000000000000000000000000000000000000000000000000000000008050 x0 (execHoldPinAssert x0) := by
  unfold execHoldPinAssert
  repeat' (first
    | exact rfl
    | with_reducible exact Dev.Only.refl _ _ _
    | with_reducible exact State.Only.refl _ _ _
    | with_reducible apply Out.Only.act
    | with_reducible apply Dev.dinChange_only
    | with_reducible apply Dev.Only.step (Dev.holdCause_only _ _))

theorem execHoldPinRelease_only (x0 : State) :
    Out.Only 0x16080000100 0x10000000000000000000000000000000000000000000000000000000000000000000000000000000000000000000000000000000000000000000000008050 x0 (execHoldPinRelease x0) := by
  unfold execHoldPinRelease
  repeat' (first
    | exact rfl
    | with_reducible exact Dev.Only.refl _ _ _
    | with_reducible exact State.Only.refl _ _ _
    | with_reducible apply Out.Only.act
    | with_reducible apply Dev.Only.step (Dev.clearHold_only _ _)
    | with_reducible apply Dev.dinChange_only)

theorem execInhibitAssert_only (x0 : State) :
    Out.Only 0x14090000180 0x200000000000000000000000000000c0000000000000000000000000000000000000000000000000000000000000000000000000000000000000000008050 x0 (execInhibitAssert x0) := by
  unfold execInhibitAssert
  repeat' (first
    | with_reducible assumption
    | exact rfl
    | intro e
    | (extract_lets +onlyGivenNames x; (refine Dev.Only.have1 x (fun hx => ?_) ?_; clear_value x; rotate_left; subst x))
    | with_reducible exact Dev.Only.refl _ _ _
    | with_reducible exact State.Only.refl _ _ _
    | with_reducible apply Out.Only.act
    | with_reducible apply Dev.Only.step (Dev.axStop_only _ _)
    | with_reducible apply Dev.dinChange_only
    | with_reducible apply Dev.Only.step (Dev.holdCause_only _ _)
    | with_reducible apply Dev.Only.forEach)

theorem execInhibitRelease_only (x0 : State) :
    Out.Only 0x16080000100 0x20000000000000000000000000000000000000000000000000000000000000000000000000000000000000000000000000000000000000000000000008050 x0 (execInhibitRelease x0) := by
  unfold execInhibitRelease
  repeat' (first
    | exact rfl
    | with_reducible exact Dev.Only.refl _ _ _
    | with_reducible exact State.Only.refl _ _ _
    | with_reducible apply Out.Only.act
    | with_reducible apply Dev.Only.step (Dev.clearHold_only _ _)
    | with_reducible apply Dev.dinChange_only)

end Sys2Proof.Machine
end

