-- ==== Sys2Proof/Laws/OnlyExec.lean ====
section
/-! SUPPORT. What each command may change: one lemma over `exec` for all commands, and its reading in lists of parts and
register fields. -/
namespace Sys2Proof.Machine

-- One theorem at a time: checked side by side, their threads exceed the memory that the check allows.
set_option Elab.async false
-- The proofs of this file share one script, whose steps not every goal needs.
set_option linter.unusedTactic false
set_option linter.unreachableTactic false

/-- The parts a command may change, as a bit mask over `Part`. -/
def cmdParts (i : Instr) : Nat :=
  match i with
  | .powerGood => 0
  | .powerOnReset => 0x5fffffffffe
  | .inputReset9v8 => 0x5fffffffffe
  | .overvoltageDisconnect => 0x5fffffffffe
  | .supplyWarning _ => 0x14080000120
  | .supplyWarningClear _ => 0x14188004122
  | .debugReset => 0x4fffffffffc
  | .crRestart _ => 0x5fffffffffc
  | .crownHeaderRead _ _ => 0x8000000010
  | .crownFirstPass _ _ => 0x7fffffffffe
  | .dramTraining _ => 0x14080000172
  | .secondPass _ => 0x5c880400110
  | .contentCheck => 0x5fffffffffc
  | .engineRelease => 0x7fffffffffc
  | .rodBuild => 0x7fffffffffc
  | .bootComplete => 0x7fffffffffc
  | .hello _ => 0x16080000100
  | .heartbeat _ => 0x14080000100
  | .noteResend _ _ => 0x14080000100
  | .start _ _ _ _ => 0x1c888c03300
  | .stop _ => 0x1c88bc87700
  | .hold _ => 0x1e88bc00180
  | .resume _ => 0x1e881c02780
  | .speedLimit _ _ => 0x14080000100
  | .enterSafe _ => 0x1c884cbc110
  | .restart _ => 0x7fffffffffe
  | .shutdownAck _ => 0x1c880400132
  | .rkRelease _ _ => 0x14080002110
  | .headClear _ _ => 0x140c0800100
  | .axisTarget _ _ _ => 0x16090000100
  | .axisHome _ _ => 0x14090000100
  | .heatSet _ _ _ _ => 0x14080000100
  | .jobCancelFinish _ _ => 0x1408bc86700
  | .jobCancelAbort _ _ => 0x1408bc86700
  | .queueOrder _ _ => 0x14080000300
  | .jobQuery _ _ => 0x14080000100
  | .regRead _ _ => 0x34080400100
  | .nvmOpen _ _ => 0x14080000100
  | .nvmErase _ _ _ => 0x14080000122
  | .nvmWrite _ _ _ => 0x14080000122
  | .nvmCrc _ _ _ => 0x14080000100
  | .nvmClose _ => 0x14080000122
  | .debugEnable _ => 0x14080000100
  | .debugDisable _ => 0x14080000100
  | .lockSet _ _ => 0x14080000132
  | .logRead _ _ _ => 0x14080000100
  | .logErase _ => 0x14080000122
  | .evaluationPeriodEnd _ _ => 0x7fffffffffe
  | .xppPeerLost _ => 0x14080000180
  | .statusPeriod => 0x10000000100
  | .holdPinAssert => 0x14080000180
  | .holdPinRelease => 0x16080000100
  | .inhibitAssert => 0x14090000180
  | .inhibitRelease => 0x16080000100
  | .presenceAssert => 0
  | .presenceLost => 0x14080000120
  | .bulkConnection _ _ => 0x14080000b00
  | .bulkConnectionClose _ => 0x800
  | .ahnusRecord _ _ _ => 0x1408bc86f00
  | .jobRecvTimeout _ => 0x10000886700
  | .commitmentPoint => 0x10008402300
  | .autoPlacement => 0x10008402300
  | .workPost _ => 0x3408b002100
  | .workSteal _ => 0x2000
  | .bandColumnRendered _ _ => 0x1408b002300
  | .witnessDone _ _ => 0x1408b002300
  | .thirdRenderDone _ _ => 0x1408b002300
  | .cacheBuildDone _ _ => 0x1408b002300
  | .reckonerTrap _ _ _ => 0x1408b002310
  | .renderWatchdog _ => 0x1408b002300
  | .strikeExpiry _ => 0x2000
  | .rkcMittenWrite _ _ => 0x14080002110
  | .doseBandStart => 0x14080126100
  | .doseLine _ _ => 0x1408b006100
  | .rodRefetch _ _ => 0x14080000100
  | .tableReload => 0x38000
  | .rodEnqueue _ _ _ => 0x14088004100
  | .rodCommit _ _ => 0x14080000100
  | .rodRelease _ _ => 0x54088044100
  | .rodWindowWrite _ _ _ => 0x14080000100
  | .plTailWrite _ _ _ _ => 0x54080080100
  | .slotStart _ => 0x54180084100
  | .slotReady _ _ => 0x5408b680100
  | .slotReadStart _ _ => 0x5408bc80100
  | .skipArm _ _ => 0x5408bc80100
  | .dmaTailWrite _ _ _ _ => 0x54081000100
  | .dmaDescriptorDone _ _ _ _ _ => 0x54085082900
  | .dmaHalt _ => 0x54080000100
  | .dmaHaltClear _ _ _ => 0x14080000100
  | .encoderCount _ _ => 0x1408bc00180
  | .encoderIndex _ => 0x1408b400100
  | .encNoindex => 0x1408b400100
  | .encLine _ => 0x1408b400100
  | .encStandstill => 0x1608bc00100
  | .sendPoint _ => 0x1418fc02780
  | .fireRepredict => 0x1408bc00100
  | .placementLinesLower _ _ _ => 0x1408bc82700
  | .laneEnable _ => 0x10000000000
  | .blockLock _ => 0x10000800000
  | .lockLost _ => 0x1408b802700
  | .laneUp _ _ => 0x14080800100
  | .beaconPeriod _ => 0x10000800000
  | .statusFrame _ _ => 0x340cb802700
  | .statusTimeout _ => 0x1408b802700
  | .zlRecovStop _ => 0x14080800100
  | .doseFrameSend _ _ => 0x1408b800100
  | .heatPeriod => 0x10000800000
  | .echoFrame _ _ => 0x1408b802700
  | .echoTimeout _ _ _ => 0x1408b002700
  | .rxFrameError _ => 0x14080800100
  | .mgmtResponse _ _ => 0x1408b806700
  | .txSleepRequest _ _ => 0x14080800100
  | .rxSleepRequest _ _ => 0x14080800100
  | .parkRequest _ _ => 0x14080800100
  | .laneWake _ => 0x14080800100
  | .loopModeWrite _ _ _ => 0x1408b802700
  | .loopTest _ _ _ => 0x34080800100
  | .markPoint _ _ _ => 0x1408b000100
  | .wasteMarkEnd => 0x1000000
  | .sprFlush => 0x54081000100
  | .tallyFold _ _ => 0x14080000100
  | .tallyInB _ _ => 0x14080000100
  | .tallyInH _ _ => 0x14080000100
  | .tallyInW _ _ => 0x14080000100
  | .tallyValWrite _ _ _ => 0x14080000100
  | .triggerEnqueue _ _ _ => 0x14084000100
  | .cameraTrigger _ => 0x34084000100
  | .triggerPulseEnd _ => 0x4000000
  | .strobeStart _ => 0x4000000
  | .strobeEnd _ => 0x4000000
  | .csiPacket _ _ => 0x54084000100
  | .frameEnd _ => 0x74084000100
  | .frameWatchdogTimeout _ => 0x54084000100
  | .camResetDone _ => 0x4000000
  | .exposureCommit _ _ => 0x14084000100
  | .i2cListComplete _ => 0x10004000000
  | .camI2cFail _ _ => 0x14084000100
  | .calStart _ _ => 0x14084000100
  | .ffbaseWrite _ _ _ => 0x14084000100
  | .gapMeasurement _ _ _ _ _ => 0x14088004100
  | .handoverStep _ => 0x14098000100
  | .axsyncPeriod => 0x1a030000000
  | .axisSample => 0x34098000100
  | .returnFrame _ _ => 0x14098000100
  | .followingErrorFault _ => 0x14098000100
  | .limitTrip _ _ => 0x14090000100
  | .limitLatchClear _ _ => 0x10000000
  | .homeInputChange _ _ => 0x10000000
  | .homingTimeout _ => 0x14090000100
  | .axTgtWrite _ _ _ => 0x14090000100
  | .axHome _ _ => 0x14090000100
  | .axStop _ _ => 0x14090000100
  | .axFclr _ _ => 0x14090000100
  | .axCcommit _ _ => 0x14080000100
  | .htCcommit _ _ => 0x14080000100
  | .heaterSample => 0x340c0000100
  | .headTempSample _ => 0x140c0800100
  | .headPlaus _ => 0x14080800100
  | .traceArm _ _ => 0x14080000100
  | .epochEnd _ _ => 0x163cb002100
  | .hkTempDemand => 0x200000000
  | .tempDemand _ _ => 0x14080000100
  | .tempConversionDone _ => 0x14280000166
  | .shutdownRecordWritten => 0x10000000042
  | .shutdownPowerDown => 0x4fffffffffc
  | .speedCeilPeriod => 0x8000000000
  | .refreshInterval _ _ => 0x400000000
  | .mr4Poll _ _ => 0x14480000100
  | .calWindowOpen => 0x400000000
  | .calWindowEnd _ _ _ => 0x14480000100
  | .memCalLate => 0x14480000100
  | .channelBRetrain _ => 0x14080000100
  | .freqChange _ => 0x1cc80400100
  | .scrubRead _ _ => 0x54480000100
  | .writeDrain _ => 0
  | .ptpSync _ _ _ => 0x35080000104
  | .announceTimeout => 0x15080000104
  | .tbFallback => 0x14080000104
  | .tbMain => 0x14080000104
  | .mgmtPtpFallback => 0x15080000104
  | .mgmtPtpReturn => 0x15080000104
  | .ringHoldFrame _ _ _ _ _ => 0x16080000180
  | .ringStartFrame _ _ _ _ _ => 0x16090000180
  | .ringPulseFrame _ _ _ _ => 0x16080000180
  | .ringStatusFrame _ _ _ _ _ _ _ _ _ => 0x16090000180
  | .ringStatusSend => 0x16080000100
  | .ringHoldSend => 0x12000000000
  | .ringMemberLost _ => 0x16080000180
  | .ringDown => 0x16080000180
  | .pulseSend => 0x12000000000
  | .countLatch => 0x2000000000
  | .groupStartTimeout _ => 0x16090000100
  | .evrBufferClose => 0x54080000100
  | .registerWrite _ _ _ => 0x7fffffffffc
  | .invalidRegisterAccess _ _ _ _ => 0x14080000100
  | .fireCntLoRead _ => 0x14080400100
  | .firePosLoRead _ => 0x14080400100
  | .tbNowSRead _ => 0x14080400100
  | .ringClSRead _ => 0x14080400100
  | .ringHoldOriginatorTimeout _ => 0x12000000180
  | .axisFeedbackChange _ _ => 0x10000000
  | .ptpAnnounce _ _ => 0x15080000104
  | .ptpSyncInterval => 0x11000000000
  | .xppMessageDiscard _ _ => 0x14080000100
  | .ringFrameCrcFail => 0

/-- The register fields a command may change, as a bit mask over `Fld`. -/
def cmdFields (i : Instr) : Nat :=
  match i with
  | .powerGood => 0x8
  | .powerOnReset => 0x1fffffffffffffffffffffffffffffffffffffffffffffffffffffffffffffffffffffffffffffffffffffffffffffffffffffffffffffffffffffffffffffffffffffffffffff
  | .inputReset9v8 => 0x1fffffffffffffffffffffffffffffffffffffffffffffffffffffffffffffffffffffffffffffffbfffffffffffffffffffffffffffffffffffffffffffffffff4b0136a08078
  | .overvoltageDisconnect => 0x1fffffffffffffffffffffffffffffffffffffffffffffffffffffffffffffffffffffffffffffffbfffffffffffffffffffffffffffffffffffffffffffffffff4b0126a08078
  | .supplyWarning _ => 0x1000000000000000000000200000000000000000000000000000000000000000000000000000000000000000000000000001c008040
  | .supplyWarningClear _ => 0x10000000000000000000002000000000000000000000000000000000000000000000000000000003001800000000000400014008040
  | .debugReset => 0x1fffffffffffffffffffffffffffffffffffffffffffffffffffffffffffffffffffffffffffffffbfffffffffffffffffffffffffffffffffffffffffffffffff0b0122a08038
  | .crRestart _ => 0x1fffffffffffffffffffffffffffffffffffffffffffffffffffffffffffffffffffffffffffffffbfffffffffffffffffffffffffffffffffffffffffffffffff0b0122a08078
  | .crownHeaderRead _ _ => 0x400000000000000000000000000000000000000000000000000038e0000000
  | .crownFirstPass _ _ => 0x1fffffffffffffffffffffffffffffffffffffffffffffffffffffffffffffffffffffffffffffffffffffffffffffffffffffffffffffffffffffffffffffffffffffffffffff
  | .dramTraining _ => 0x700000800000000000000000000000000000000000000000000000000000000000000000000000000000000000000000000000000000400000008040
  | .secondPass _ => 0x208000000000000000000000000000000000000000000000000000000000000000000000000000000000000000000000000000000000000c0008048
  | .contentCheck => 0x1fffffffffffffffffffffffffffffffffffffffffffffffffffffffffffffffffffffffffffffffbfffffffffffffffffffffffffffffffffffffffffffffffff0b21e2a08078
  | .engineRelease => 0x1fffffffffffffffffffffffffffffffffffffffffffffffffffffffffffffffffffffffffffffffffffffffffffffffffffffffffffffffffffffffffffffffffffffffffffff
  | .rodBuild => 0x1fffffffffffffffffffffffffffffffffffffffffffffffffffffffffffffffffffffffffffffffffffffffffffffffffffffffffffffffffffffffffffffffffffffffffffff
  | .bootComplete => 0x1fffffffffffffffffffffffffffffffffffffffffffffffffffffffffffffffffffffffffffffffffffffffffffffffffffffffffffffffffffffffffffffffffffffffffffff
  | .hello _ => 0x3900000000000000000000000000000000000000000000000000000000000000000000000000000000000000000000000000000000000000000000008050
  | .heartbeat _ => 0x3800000000000000000000000000000000000000000000000000000000000000000000000000000000000000000000000000000000000000000000008040
  | .noteResend _ _ => 0x3800000000000000000000000000000000000000000000000000000000000000000000000000000000000000000000000000000000000000000000008040
  | .start _ _ _ _ => 0x380000000000400000000000000000000000000000000000000000000000000000000000ffd8000000000000000000000000000000000000000000008048
  | .stop _ => 0x380000000000000000000000000000000000000000000000000000000000000000000000e41800000000000c040000000000000000000000000000008048
  | .hold _ => 0x380000000000000000000000000000000000000000000000000000201f14000000000000000000000000000c000000000000000000000000000000008058
  | .resume _ => 0x3800000000004000000000000000000000000000000000000000000000000000000000000380000000000000000000000000000000000000000000008058
  | .speedLimit _ _ => 0x3a00000000000000000000000000000000000000000000000000000000000000000000000000000000000000000000000000000000000000000000008040
  | .enterSafe _ => 0x38000000000000000000000000000000000000003fffffffffffffdfe0000fbfffffffff000000000000001ffffffffffffffffff8000000000000208048
  | .restart _ => 0x1fffffffffffffffffffffffffffffffffffffffffffffffffffffffffffffffffffffffffffffffbfffffffffffffffffffffffffffffffffffffffffffffffff4f0122bf8078
  | .shutdownAck _ => 0x3800000000000000000000000000000000000000000000000000000000000000000000000000000000000000000000000000000000000000400000008048
  | .rkRelease _ _ => 0x3800000000000000000000000000000000000000000000000000000000000000000000000000000000000000000000000000000002010000000000208040
  | .headClear _ _ => 0x3800000000000000000000000900000000000000000000000000000000000000000000000000000000000000000000000000000000000000000000008040
  | .axisTarget _ _ _ => 0x3800000000000000000000000000080002000000000000000000000000000000000000000000000000000000000000000000000000000000000000008040
  | .axisHome _ _ => 0x38000000000000000000000000000c0000000000000000000000000000000000000000000000000000000000000000000000000000000000000000008040
  | .heatSet _ _ _ _ => 0x3800000000000000000000000044000000000000000000000000000000000000000000000000000000000000000000000000000000000000000000008040
  | .jobCancelFinish _ _ => 0x380000000000000000000000000000000000000000000000000000201f14000000000000e41800000000000c040000000000000000000000000000008040
  | .jobCancelAbort _ _ => 0x380000000000000000000000000000000000000000000000000000201f14000000000000e41800000000000c040000000000000000000000000000008040
  | .queueOrder _ _ => 0x3800000000000000000000000000000000000000000000000000000000000000000000000000000000000000000000000000000000000000000000008040
  | .jobQuery _ _ => 0x3800000000000000000000000000000000000000000000000000000000000000000000000000000000000000000000000000000000000000000000008040
  | .regRead _ _ => 0x1800000000006003800000000000000000000000000000000000000000000000000000000000000000000000000000000000000000000000000000000000fc00000001f8040
  | .nvmOpen _ _ => 0x3800000000000000000000000000000000000000000000000000000000000000000000000000000000000000000000000000000000000000030000008040
  | .nvmErase _ _ _ => 0x3800000000000000000000000000000000000000000000000000000000000000000000000000000000000000000000000000000000000000400000008040
  | .nvmWrite _ _ _ => 0x3800000000000000000000000000000000000000000000000000000000000000000000000000000000000000000000000000000000000000400000008040
  | .nvmCrc _ _ _ => 0x3800000000000000000000000000000000000000000000000000000000000000000000000000000000000000000000000000000000000000000000008040
  | .nvmClose _ => 0x3800000000000000000000000000000000000000000000000000000000000000000000000000000000000000000000000000000000000000430000008040
  | .debugEnable _ => 0x3800000000000000000000000000000000000000000000000000000000000000000000000000000000000000000000000000000000000000080000008040
  | .debugDisable _ => 0x3800000000000000000000000000000000000000000000000000000000000000000000000000000000000000000000000000000000000000080000008040
  | .lockSet _ _ => 0x3800000000000000000000000000000000000000000000000000000000000000000000000000000000000000000000000000000000000000440000008040
  | .logRead _ _ _ => 0x3800000000000000000000000000000000000000000000000000000000000000000000000000000000000000000000000000000000000000000000008040
  | .logErase _ => 0x3800000000000000000000000000000000000000000000000000000000000000000000000000000000000000000000000000000000000000400000008040
  | .evaluationPeriodEnd _ _ => 0x1fffffffffffffffffffffffffffffffffffffffffffffffffffffffffffffffffffffffffffffffbfffffffffffffffffffffffffffffffffffffffffffffffff4f0122bf8078
  | .xppPeerLost _ => 0x100000000000000000000000000000000000000000000000000000000000000000000000000000000000000000000000000000000000000000000008050
  | .statusPeriod => 0
  | .holdPinAssert => 0x10000000000000000000000000000000000000000000000000000000000000000000000000000000000000000000000000000000000000000000000008050
  | .holdPinRelease => 0x10000000000000000000000000000000000000000000000000000000000000000000000000000000000000000000000000000000000000000000000008050
  | .inhibitAssert => 0x200000000000000000000000000000c0000000000000000000000000000000000000000000000000000000000000000000000000000000000000000008050
  | .inhibitRelease => 0x20000000000000000000000000000000000000000000000000000000000000000000000000000000000000000000000000000000000000000000000008050
  | .presenceAssert => 0x8000000000
  | .presenceLost => 0x38000008040
  | .bulkConnection _ _ => 0x8040
  | .bulkConnectionClose _ => 0
  | .ahnusRecord _ _ _ => 0xe418000000000000000000000000000000000000000000008040
  | .jobRecvTimeout _ => 0
  | .commitmentPoint => 0xffd8000000000000000000000000000000000000000000000000
  | .autoPlacement => 0xffd8000000000000000000000000000000000000000000000000
  | .workPost _ => 0x201f14000000000000000000000000000000000000000000000040c000000000008040
  | .workSteal _ => 0
  | .bandColumnRendered _ _ => 0x201f140000000000000000000000000000000000000000000004600000000000008040
  | .witnessDone _ _ => 0x201f140000000000000000000000000000000000000000000004600000000000008040
  | .thirdRenderDone _ _ => 0x201f140000000000000000000000000000000000000000000007c1c000000000208040
  | .cacheBuildDone _ _ => 0x201f140000000000000000000000000000000000000000000004600000000000008040
  | .reckonerTrap _ _ _ => 0x201f140000000000000000000000000000000000000000000007c1c000000000208040
  | .renderWatchdog _ => 0x201f140000000000000000000000000000000000000000000007c1c000000000208040
  | .strikeExpiry _ => 0x2000000000000000000
  | .rkcMittenWrite _ _ => 0x2010fc00000003f8040
  | .doseBandStart => 0x1180218000000000000000000000000008040
  | .doseLine _ _ => 0xb000000000000000201f140000000000000000000000000000000003fcc7a5800c00000000000000008040
  | .rodRefetch _ _ => 0x2000000000000000000000000008040
  | .tableReload => 0xc000000000000000000000
  | .rodEnqueue _ _ _ => 0x1000800000000fc00000001f8040
  | .rodCommit _ _ => 0x2001000000000fc00000001f8040
  | .rodRelease _ _ => 0x20800000000000000000000000000000000000000000000000000000000000000000000000000000000000000003005800000000fc00000001f8040
  | .rodWindowWrite _ _ _ => 0x2000800000000000fc00000001f8040
  | .plTailWrite _ _ _ _ => 0x20800000000000000000000000000000000000000000000000000000000000000000000000000000000048000000000000000000fc00000001f8040
  | .slotStart _ => 0x30000000000000000000020800000000000000000000000000000000000000000000000000000000000000000000000000000000c10000000000000000000000000000008040
  | .slotReady _ _ => 0x83000000000000000000002080000000000000000000000000000000000000000000000201f14000000000000000000000000001de738180000000000000000000000000081c0
  | .slotReadStart _ _ => 0x2080000000000000000000000000000000000000000000000601f54000000000000000000000000001c020000000000000000000000000000008040
  | .skipArm _ _ => 0x2080000000000000000000000000000000000000000000000201f04000000000000c01800000000001c020000000000000000000fc00000001f8040
  | .dmaTailWrite _ _ _ _ => 0x1000000000000000000000020800000000000000000000000000000000000000000000000000000000000000000000000000000000000000000000000000000fc00000001f8040
  | .dmaDescriptorDone _ _ _ _ _ => 0x8300000000000000000000208000000000000000000000000000000000000000000000000000000000000000000000000000000000000000000000000000000000000000081c0
  | .dmaHalt _ => 0x30000000000000000000020800000000000000000000000000000000000000000000000000000000000000000000000000000000000000000000000000000000000000008040
  | .dmaHaltClear _ _ _ => 0x30000000000000000000000000000000000000000000000000000000000000000000000000000000000000000000000000000000000000000000000000000fc00000001f8040
  | .encoderCount _ _ => 0x201f1400000000000000035341f8000000000000000000000000000000000000008070
  | .encoderIndex _ => 0x201f14000000000000000084de00000000000000000000000000000000000000008060
  | .encNoindex => 0x201f1400000000000000008c8000000000000000000000000000000000000000008060
  | .encLine _ => 0x201f140000000000000000a00000000000000000000000000000000000000000008060
  | .encStandstill => 0x201f1400000000000000024001d8000000000000000000000000000000000000008070
  | .sendPoint _ => 0x4000000000100000000000000000101c00000000201f14000000000000c4180000c8000001000018000000000000000000000000008050
  | .fireRepredict => 0x201f1400000000000000034000c8000000000000000000000000000000000000008040
  | .placementLinesLower _ _ _ => 0xe418000000000000000000000000000000000fc00000001f8040
  | .laneEnable _ => 0x300000010200000000000000000000000000000000000000000000000000000
  | .blockLock _ => 0x300000010600000000000000000000000000000000000000000000000000000
  | .lockLost _ => 0x201f140300000010e00000000000000000000000000000000000000000000000008040
  | .laneUp _ _ => 0xf01000019a00000000000000000000000000000000000000000000000008040
  | .beaconPeriod _ => 0xc00000000000000000000000000000000000000000000000000000000000000
  | .statusFrame _ _ => 0x8000000000000000000000000000201f140300c201f4e00000000000000000000000000000000000000000000000008040
  | .statusTimeout _ => 0x201f140300000010e00000000000000000000000000000000000000000000000008040
  | .zlRecovStop _ => 0x8060
  | .doseFrameSend _ _ => 0x201f140000000000000000000000000000000000000000000000000000000000008040
  | .heatPeriod => 0x4000000000000000000000000000000000000000000000000000000000000000000000000000000000000000000000000000
  | .echoFrame _ _ => 0x201f140000340000000000000000000000000000000000000000000000000000008040
  | .echoTimeout _ _ _ => 0x201f140000080000000000000000000000000000000000000000000000000000008040
  | .rxFrameError _ => 0x10000000000000000000000000000000000000000000000000000008040
  | .mgmtResponse _ _ => 0x200000000000000000000000000000000000000000201f14031f000018e00000000000000000000000003001800000000000000000008040
  | .txSleepRequest _ _ => 0x300001e10e00000000000000000000000000000000000000fc00000001f8040
  | .rxSleepRequest _ _ => 0x300001e10e00000000000000000000000000000000000000fc00000001f8040
  | .parkRequest _ _ => 0x300001e10e00000000000000000000000000000000000000fc00000001f8040
  | .laneWake _ => 0xf01001e18e00000000000000000000000000000000000000000000000008040
  | .loopModeWrite _ _ _ => 0x201f140300002012e00000000000000000000000000000000000000fc00000001f8040
  | .loopTest _ _ _ => 0xc000000000000000000000000000000000000000000fc00000001f8040
  | .markPoint _ _ _ => 0x201f9c0000000000000000000000000000000000000000000000000000000000008040
  | .wasteMarkEnd => 0x3000000000000000000000000000000000000000000000000000000000000000000
  | .sprFlush => 0x8300000000000000000000208000000000000000000000000000000000000000000000000000000000000000000000000000000000000000000000000000000000000000081c0
  | .tallyFold _ _ => 0x4100200000000000000000000000000000000000000000000000000fc00000001f8040
  | .tallyInB _ _ => 0x4000200000000000000000000000000000000000000000000000000fc00000001f8040
  | .tallyInH _ _ => 0x4000200000000000000000000000000000000000000000000000000fc00000001f8040
  | .tallyInW _ _ => 0x4000200000000000000000000000000000000000000000000000000fc00000001f8040
  | .tallyValWrite _ _ _ => 0x4000200000000000000000000000000000000000000000000000000fc00000001f8040
  | .triggerEnqueue _ _ _ => 0x1000000000000000000000000000000000000000000000000000000000000000000fc00000001f8040
  | .cameraTrigger _ => 0x21380007000000000000000000000000000000000000000000000000000000000000000000000008040
  | .triggerPulseEnd _ => 0
  | .strobeStart _ => 0
  | .strobeEnd _ => 0
  | .csiPacket _ _ => 0x8300000000000000000000208000000000000000000000000000000000486000000000000000000000000000000000000000000000000000000000000000000000000000081c0
  | .frameEnd _ => 0x83000000000000000000002080000000000000000000000000000000001a2000000000000000000000000000000000000000000000000000000000000000000000000000081c0
  | .frameWatchdogTimeout _ => 0x830000000000000000000020800000000000000000000000000000000088a000000000000000000000000000000000000000000000000000000000000000000000000000081c0
  | .camResetDone _ => 0x200000000000000000000000000000000000000000000000000000000000000000000000000000000
  | .exposureCommit _ _ => 0x1000000000000000000000000000000000000000000000000000000000000fc00000001f8040
  | .i2cListComplete _ => 0x1000000000000000000000000000000000000000000000000000000000000000000000000000
  | .camI2cFail _ _ => 0x4000001000000000000000000000000000000000000000000000000000000000000000000000008040
  | .calStart _ _ => 0xfc00000001f8040
  | .ffbaseWrite _ _ _ => 0x20000000000000000000000000000000000000000000000000000000000000000fc00000001f8040
  | .gapMeasurement _ _ _ _ _ => 0xe0c000000000000000000000000000000000008000000000000000000003001800400000000000000008040
  | .handoverStep _ => 0x80002000000000000000000000000000000000000000000000000000000000000000000000000000000000000008040
  | .axsyncPeriod => 0x80002000000000000000000000000000000000000000000000000000000000000000000000000000000000000000000
  | .axisSample => 0x30000011c000c080080000000000000000000000000000000000000000000000000000000000000000000000000000000008040
  | .returnFrame _ _ => 0xc0000000c0000000000000000000000000000000000000000000000000000000000000000000000000000000000000000008040
  | .followingErrorFault _ => 0xc0000000000000000000000000000000000000000000000000000000000000000000000000000000000000000008040
  | .limitTrip _ _ => 0xec0000000000000000000000000000000000000000000000000000000000000000000000000000000000000000008040
  | .limitLatchClear _ _ => 0x600000000000000000000000000000000000000000000000000000000000000000000000000000000000000000000000
  | .homeInputChange _ _ => 0x8c0000000000000000000000000000000000000000000000000000000000000000000000000000000000000000000000
  | .homingTimeout _ => 0xc0000000000000000000000000000000000000000000000000000000000000000000000000000000000000000008040
  | .axTgtWrite _ _ _ => 0x80002000000000000000000000000000000000000000000000000000000000000000000000000000fc00000001f8040
  | .axHome _ _ => 0xc0000000000000000000000000000000000000000000000000000000000000000000000000000000fc00000001f8040
  | .axStop _ _ => 0xc0000000000000000000000000000000000000000000000000000000000000000000000000000000fc00000001f8040
  | .axFclr _ _ => 0x40000000000000000000000000000000000000000000000000000000000000000000000000000000fc00000001f8040
  | .axCcommit _ _ => 0x80000000000000000000000000000000000000000000000000000000000000000000000000fc00000001f8040
  | .htCcommit _ _ => 0x10000000000000000000000000000000000000000000000000000000000000000000000000000000000fc00000001f8040
  | .heaterSample => 0x3000110000000000000000000000000000000000000000000000000000000000000000000000000000000000000000000008040
  | .headTempSample _ => 0x1600000000000000000000000000000000000000000000000000000000000000000000000000000000000000000000008060
  | .headPlaus _ => 0x1800000000000000000000000000000000000000000000000000000000000000000000000000000000000000000000008060
  | .traceArm _ _ => 0x3000000000000000000000000000000000000000000000000000000000000000000000000000000000000000fc00000001f8040
  | .epochEnd _ _ => 0x9b1ff000000000000000000000000000000000000201f1400000000000000000000c800000100007800000000000442c000000000a08050
  | .hkTempDemand => 0x800000
  | .tempDemand _ _ => 0xfc00000009f8040
  | .tempConversionDone _ => 0x3000000000000000000c000000000000000000000000000000000000000000000000000000000000000000000000000000000000000000000000400003808040
  | .shutdownRecordWritten => 0x400000000000
  | .shutdownPowerDown => 0x1fffffffffffffffffffffffffffffffffffffffffffffffffffffffffffffffffffffffffffffffbfffffffffffffffffffffffffffffffffffffffffffffffff000000a00000
  | .speedCeilPeriod => 0
  | .refreshInterval _ _ => 0x2000000000000000000000000000000000000000000000000000000000000000000000000000000000000000000000000000000000000000000
  | .mr4Poll _ _ => 0x40003f000000000000000000000000000000000000000000000000000000000000000000000000000000000000000000000000000000000000008040
  | .calWindowOpen => 0x800000000000000000000000000000000000000000000000000000000000000000000000000000000000000000000000000000000000000000
  | .calWindowEnd _ _ _ => 0x7c000c800000000000000000000000000000000000000000000000000000000000000000000000000000000000000000000000000000000000008040
  | .memCalLate => 0x8040
  | .channelBRetrain _ => 0x740022000000000000000000000000000000000000000000000000000000000000000000000000000000000000000000000000000000000000008040
  | .freqChange _ => 0x40002e008000000000000000000000000000000000000000000000000000000000000000000000000000000000000000000000000000000000008048
  | .scrubRead _ _ => 0x1f600000000000000000000000000000000000000000000000000000000000000000000000000000000000000000000000000000000000000008040
  | .writeDrain _ => 0x1c0000000000000000000000000000000000000000000000000000000000000000000000000000000000000000000000000000000000000000000
  | .ptpSync _ _ _ => 0x33000008400000000000000000000000000000000000000000000000000000000000000000000000000000000000000000000000000000000000000000000000008040
  | .announceTimeout => 0x3000000400000000000000000000000000000000000000000000000000000000000000000000000000000000000000000000000000000000000000000000000008040
  | .tbFallback => 0x30600000000000000000000000000000000000000000000000000000000000000000000000000000000000000000000000000000000000000000000000008040
  | .tbMain => 0x8200000000000000000000000000000000000000000000000000000000000000000000000000000000000000000000000000000000000000000000000008040
  | .mgmtPtpFallback => 0xe000000400000000000000000000000000000000000000000000000000000000000000000000000000000000000000000000000000000000000000000000000008040
  | .mgmtPtpReturn => 0xe000000400000000000000000000000000000000000000000000000000000000000000000000000000000000000000000000000000000000000000000000000008040
  | .ringHoldFrame _ _ _ _ _ => 0x406e000000000000000000000000000000000000000000000000000000000000000000000000000000000000000000000000000000000000000000000000000000000008050
  | .ringStartFrame _ _ _ _ _ => 0x406e000000000000000000000000000000000000000000000000000000000000000000000000000000000000000000000000000000000000000000000000000000000008050
  | .ringPulseFrame _ _ _ _ => 0x436e000000000000000000000000000000000000000000000000000000000000000000000000000000000000000000000000000000000000000000000000000000000008050
  | .ringStatusFrame _ _ _ _ _ _ _ _ _ => 0x40ee000000000000000000000000000000000000000000000000000000000000000000000000000000000000000000000000000000000000000000000000000000000008050
  | .ringStatusSend => 0x2c000000000000000000000000000000000000000000000000000000000000000000000000000000000000000000000000000000000000000000000000000000000008040
  | .ringHoldSend => 0
  | .ringMemberLost _ => 0x6c000000000000000000000000000000000000000000000000000000000000000000000000000000000000000000000000000000000000000000000000000000000008050
  | .ringDown => 0x4042000000000000000000000000000000000000000000000000000000000000000000000000000000000000000000000000000000000000000000000000000000000008050
  | .pulseSend => 0
  | .countLatch => 0x400000000000000000000000000000000000000000000000000000000000000000000000000000000000000000000000000000000000000000000000000000000000000000
  | .groupStartTimeout _ => 0x8040
  | .evrBufferClose => 0x8300000000000000000000208000000000000000000000000000000000000000000000000000000000000000000000000000000000000000000000000000000000000000081c0
  | .registerWrite _ _ _ => 0x1fffffffffffffffffffffffffffffffffffffffffffffffffffffffffffffffffffffffffffffffffffffffffffffffffffffffffffffffffffffffffffffffffffffffffffff
  | .invalidRegisterAccess _ _ _ _ => 0xfc00000001f8040
  | .fireCntLoRead _ => 0x1800000000006000000000000000000000000000000000000000000000000000000000000000000000000000000000000000000000000000000000000000fc00000001f8040
  | .firePosLoRead _ => 0x1800000000006000000000000000000000000000000000000000000000000000000000000000000000000000000000000000000000000000000000000000fc00000001f8040
  | .tbNowSRead _ => 0x1800000000006000000000000000000000000000000000000000000000000000000000000000000000000000000000000000000000000000000000000000fc00000001f8040
  | .ringClSRead _ => 0x1800000000006000000000000000000000000000000000000000000000000000000000000000000000000000000000000000000000000000000000000000fc00000001f8040
  | .ringHoldOriginatorTimeout _ => 0x40000000000000000000000000000000000000000000000000000000000000000000000000000000000000000000000000000000000000000000000000000000000000010
  | .axisFeedbackChange _ _ => 0
  | .ptpAnnounce _ _ => 0xb000000400000000000000000000000000000000000000000000000000000000000000000000000000000000000000000000000000000000000000000000000008040
  | .ptpSyncInterval => 0x1000000000000000000000000000000000000000000000000000000000000000000000000000000000000000000000000000000000000000000000000000000000000
  | .xppMessageDiscard _ _ => 0x800000000000000000000000000000000000000000000000000000000000000000000000000000000000000000000000000000000000000000000008040
  | .ringFrameCrcFail => 0x2000000000000000000000000000000000000000000000000000000000000000000000000000000000000000000000000000000000000000000000000000000000000000000

/-- A command changes nothing but its parts and its register fields, and keeps the forms. -/
theorem exec_only (i : Instr) (s t : State) (h : exec i s = .next t) : State.Only (cmdParts i) (cmdFields i) s t := by
  cases i with
  | powerGood => exact (execPowerGood_only _).next' t h
  | powerOnReset => exact (execPowerOnReset_only _).next' t h
  | inputReset9v8 => exact (execInputReset9v8_only _).next' t h
  | overvoltageDisconnect => exact (execOvervoltageDisconnect_only _).next' t h
  | supplyWarning _ => exact (execSupplyWarning_only _ _).next' t h
  | supplyWarningClear _ => exact (execSupplyWarningClear_only _ _).next' t h
  | debugReset => exact (execDebugReset_only _).next' t h
  | crRestart _ => exact (execCrRestart_only _ _).next' t h
  | crownHeaderRead _ _ => exact (execCrownHeaderRead_only _ _ _).next' t h
  | crownFirstPass _ _ => exact (execCrownFirstPass_only _ _ _).next' t h
  | dramTraining _ => exact (execDramTraining_only _ _).next' t h
  | secondPass _ => exact (execSecondPass_only _ _).next' t h
  | contentCheck => exact (execContentCheck_only _).next' t h
  | engineRelease => exact (execEngineRelease_only _).next' t h
  | rodBuild => exact (execRodBuild_only _).next' t h
  | bootComplete => exact (execBootComplete_only _).next' t h
  | hello _ => exact (execHello_only _ _).next' t h
  | heartbeat _ => exact (execHeartbeat_only _ _).next' t h
  | noteResend _ _ => exact (execNoteResend_only _ _ _).next' t h
  | start _ _ _ _ => exact (execStart_only _ _ _ _ _).next' t h
  | stop _ => exact (execStop_only _ _).next' t h
  | hold _ => exact (execHold_only _ _).next' t h
  | resume _ => exact (execResume_only _ _).next' t h
  | speedLimit _ _ => exact (execSpeedLimit_only _ _ _).next' t h
  | enterSafe _ => exact (execEnterSafe_only _ _).next' t h
  | restart _ => exact (execRestart_only _ _).next' t h
  | shutdownAck _ => exact (execShutdownAck_only _ _).next' t h
  | rkRelease _ _ => exact (execRkRelease_only _ _ _).next' t h
  | headClear _ _ => exact (execHeadClear_only _ _ _).next' t h
  | axisTarget _ _ _ => exact (execAxisTarget_only _ _ _ _).next' t h
  | axisHome _ _ => exact (execAxisHome_only _ _ _).next' t h
  | heatSet _ _ _ _ => exact (execHeatSet_only _ _ _ _ _).next' t h
  | jobCancelFinish _ _ => exact (execJobCancelFinish_only _ _ _).next' t h
  | jobCancelAbort _ _ => exact (execJobCancelAbort_only _ _ _).next' t h
  | queueOrder _ _ => exact (execQueueOrder_only _ _ _).next' t h
  | jobQuery _ _ => exact (execJobQuery_only _ _ _).next' t h
  | regRead _ _ => exact (execRegRead_only _ _ _).next' t h
  | nvmOpen _ _ => exact (execNvmOpen_only _ _ _).next' t h
  | nvmErase _ _ _ => exact (execNvmErase_only _ _ _ _).next' t h
  | nvmWrite _ _ _ => exact (execNvmWrite_only _ _ _ _).next' t h
  | nvmCrc _ _ _ => exact (execNvmCrc_only _ _ _ _).next' t h
  | nvmClose _ => exact (execNvmClose_only _ _).next' t h
  | debugEnable _ => exact (execDebugEnable_only _ _).next' t h
  | debugDisable _ => exact (execDebugDisable_only _ _).next' t h
  | lockSet _ _ => exact (execLockSet_only _ _ _).next' t h
  | logRead _ _ _ => exact (execLogRead_only _ _ _ _).next' t h
  | logErase _ => exact (execLogErase_only _ _).next' t h
  | evaluationPeriodEnd a reqs => exact (execEvaluationPeriodEnd_only a reqs s).next' t h
  | xppPeerLost _ => exact (execXppPeerLost_only _ _).next' t h
  | statusPeriod => exact (execStatusPeriod_only _).next' t h
  | holdPinAssert => exact (execHoldPinAssert_only _).next' t h
  | holdPinRelease => exact (execHoldPinRelease_only _).next' t h
  | inhibitAssert => exact (execInhibitAssert_only _).next' t h
  | inhibitRelease => exact (execInhibitRelease_only _).next' t h
  | presenceAssert => exact (execPresenceAssert_only _).next' t h
  | presenceLost => exact (execPresenceLost_only _).next' t h
  | bulkConnection _ _ => exact (execBulkConnection_only _ _ _).next' t h
  | bulkConnectionClose _ => exact (execBulkConnectionClose_only _ _).next' t h
  | ahnusRecord _ _ _ => exact (execAhnusRecord_only _ _ _ _).next' t h
  | jobRecvTimeout _ => exact (execJobRecvTimeout_only _ _).next' t h
  | commitmentPoint => exact (execCommitmentPoint_only _).next' t h
  | autoPlacement => exact (execAutoPlacement_only _).next' t h
  | workPost _ => exact (execWorkPost_only _ _).next' t h
  | workSteal _ => exact (execWorkSteal_only _ _).next' t h
  | bandColumnRendered _ _ => exact (execBandColumnRendered_only _ _ _).next' t h
  | witnessDone _ _ => exact (execWitnessDone_only _ _ _).next' t h
  | thirdRenderDone _ _ => exact (execThirdRenderDone_only _ _ _).next' t h
  | cacheBuildDone _ _ => exact (execCacheBuildDone_only _ _ _).next' t h
  | reckonerTrap _ _ _ => exact (execReckonerTrap_only _ _ _ _).next' t h
  | renderWatchdog _ => exact (execRenderWatchdog_only _ _).next' t h
  | strikeExpiry _ => exact (execStrikeExpiry_only _ _).next' t h
  | rkcMittenWrite _ _ => exact (execRkcMittenWrite_only _ _ _).next' t h
  | doseBandStart => exact (execDoseBandStart_only _).next' t h
  | doseLine _ _ => exact (execDoseLine_only _ _ _).next' t h
  | rodRefetch _ _ => exact (execRodRefetch_only _ _ _).next' t h
  | tableReload => exact (execTableReload_only _).next' t h
  | rodEnqueue _ _ _ => exact (execRodEnqueue_only _ _ _ _).next' t h
  | rodCommit _ _ => exact (execRodCommit_only _ _ _).next' t h
  | rodRelease _ _ => exact (execRodRelease_only _ _ _).next' t h
  | rodWindowWrite _ _ _ => exact (execRodWindowWrite_only _ _ _ _).next' t h
  | plTailWrite _ _ _ _ => exact (execPlTailWrite_only _ _ _ _ _).next' t h
  | slotStart _ => exact (execSlotStart_only _ _).next' t h
  | slotReady _ _ => exact (execSlotReady_only _ _ _).next' t h
  | slotReadStart _ _ => exact (execSlotReadStart_only _ _ _).next' t h
  | skipArm _ _ => exact (execSkipArm_only _ _ _).next' t h
  | dmaTailWrite _ _ _ _ => exact (execDmaTailWrite_only _ _ _ _ _).next' t h
  | dmaDescriptorDone _ _ _ _ _ => exact (execDmaDescriptorDone_only _ _ _ _ _ _).next' t h
  | dmaHalt _ => exact (execDmaHalt_only _ _).next' t h
  | dmaHaltClear _ _ _ => exact (execDmaHaltClear_only _ _ _ _).next' t h
  | encoderCount _ _ => exact (execEncoderCount_only _ _ _).next' t h
  | encoderIndex _ => exact (execEncoderIndex_only _ _).next' t h
  | encNoindex => exact (execEncNoindex_only _).next' t h
  | encLine _ => exact (execEncLine_only _ _).next' t h
  | encStandstill => exact (execEncStandstill_only _).next' t h
  | sendPoint _ => exact (execSendPoint_only _ _).next' t h
  | fireRepredict => exact (execFireRepredict_only _).next' t h
  | placementLinesLower _ _ _ => exact (execPlacementLinesLower_only _ _ _ _).next' t h
  | laneEnable _ => exact (execLaneEnable_only _ _).next' t h
  | blockLock _ => exact (execBlockLock_only _ _).next' t h
  | lockLost _ => exact (execLockLost_only _ _).next' t h
  | laneUp _ _ => exact (execLaneUp_only _ _ _).next' t h
  | beaconPeriod _ => exact (execBeaconPeriod_only _ _).next' t h
  | statusFrame _ _ => exact (execStatusFrame_only _ _ _).next' t h
  | statusTimeout _ => exact (execStatusTimeout_only _ _).next' t h
  | zlRecovStop _ => exact (execZlRecovStop_only _ _).next' t h
  | doseFrameSend _ _ => exact (execDoseFrameSend_only _ _ _).next' t h
  | heatPeriod => exact (execHeatPeriod_only _).next' t h
  | echoFrame _ _ => exact (execEchoFrame_only _ _ _).next' t h
  | echoTimeout _ _ _ => exact (execEchoTimeout_only _ _ _ _).next' t h
  | rxFrameError _ => exact (execRxFrameError_only _ _).next' t h
  | mgmtResponse _ _ => exact (execMgmtResponse_only _ _ _).next' t h
  | txSleepRequest _ _ => exact (execTxSleepRequest_only _ _ _).next' t h
  | rxSleepRequest _ _ => exact (execRxSleepRequest_only _ _ _).next' t h
  | parkRequest _ _ => exact (execParkRequest_only _ _ _).next' t h
  | laneWake _ => exact (execLaneWake_only _ _).next' t h
  | loopModeWrite _ _ _ => exact (execLoopModeWrite_only _ _ _ _).next' t h
  | loopTest _ _ _ => exact (execLoopTest_only _ _ _ _).next' t h
  | markPoint _ _ _ => exact (execMarkPoint_only _ _ _ _).next' t h
  | wasteMarkEnd => exact (execWasteMarkEnd_only _).next' t h
  | sprFlush => exact (execSprFlush_only _).next' t h
  | tallyFold _ _ => exact (execTallyFold_only _ _ _).next' t h
  | tallyInB _ _ => exact (execTallyInB_only _ _ _).next' t h
  | tallyInH _ _ => exact (execTallyInH_only _ _ _).next' t h
  | tallyInW _ _ => exact (execTallyInW_only _ _ _).next' t h
  | tallyValWrite _ _ _ => exact (execTallyValWrite_only _ _ _ _).next' t h
  | triggerEnqueue _ _ _ => exact (execTriggerEnqueue_only _ _ _ _).next' t h
  | cameraTrigger _ => exact (execCameraTrigger_only _ _).next' t h
  | triggerPulseEnd _ => exact (execTriggerPulseEnd_only _ _).next' t h
  | strobeStart _ => exact (execStrobeStart_only _ _).next' t h
  | strobeEnd _ => exact (execStrobeEnd_only _ _).next' t h
  | csiPacket _ _ => exact (execCsiPacket_only _ _ _).next' t h
  | frameEnd _ => exact (execFrameEnd_only _ _).next' t h
  | frameWatchdogTimeout _ => exact (execFrameWatchdogTimeout_only _ _).next' t h
  | camResetDone _ => exact (execCamResetDone_only _ _).next' t h
  | exposureCommit _ _ => exact (execExposureCommit_only _ _ _).next' t h
  | i2cListComplete _ => exact (execI2cListComplete_only _ _).next' t h
  | camI2cFail _ _ => exact (execCamI2cFail_only _ _ _).next' t h
  | calStart _ _ => exact (execCalStart_only _ _ _).next' t h
  | ffbaseWrite _ _ _ => exact (execFfbaseWrite_only _ _ _ _).next' t h
  | gapMeasurement _ _ _ _ _ => exact (execGapMeasurement_only _ _ _ _ _ _).next' t h
  | handoverStep _ => exact (execHandoverStep_only _ _).next' t h
  | axsyncPeriod => exact (execAxsyncPeriod_only _).next' t h
  | axisSample => exact (execAxisSample_only _).next' t h
  | returnFrame _ _ => exact (execReturnFrame_only _ _ _).next' t h
  | followingErrorFault _ => exact (execFollowingErrorFault_only _ _).next' t h
  | limitTrip _ _ => exact (execLimitTrip_only _ _ _).next' t h
  | limitLatchClear _ _ => exact (execLimitLatchClear_only _ _ _).next' t h
  | homeInputChange _ _ => exact (execHomeInputChange_only _ _ _).next' t h
  | homingTimeout _ => exact (execHomingTimeout_only _ _).next' t h
  | axTgtWrite _ _ _ => exact (execAxTgtWrite_only _ _ _ _).next' t h
  | axHome _ _ => exact (execAxHome_only _ _ _).next' t h
  | axStop _ _ => exact (execAxStop_only _ _ _).next' t h
  | axFclr _ _ => exact (execAxFclr_only _ _ _).next' t h
  | axCcommit _ _ => exact (execAxCcommit_only _ _ _).next' t h
  | htCcommit _ _ => exact (execHtCcommit_only _ _ _).next' t h
  | heaterSample => exact (execHeaterSample_only _).next' t h
  | headTempSample _ => exact (execHeadTempSample_only _ _).next' t h
  | headPlaus _ => exact (execHeadPlaus_only _ _).next' t h
  | traceArm _ _ => exact (execTraceArm_only _ _ _).next' t h
  | epochEnd _ _ => exact (execEpochEnd_only _ _ _).next' t h
  | hkTempDemand => exact (execHkTempDemand_only _).next' t h
  | tempDemand _ _ => exact (execTempDemand_only _ _ _).next' t h
  | tempConversionDone _ => exact (execTempConversionDone_only _ _).next' t h
  | shutdownRecordWritten => exact (execShutdownRecordWritten_only _).next' t h
  | shutdownPowerDown => exact (execShutdownPowerDown_only _).next' t h
  | speedCeilPeriod => exact (execSpeedCeilPeriod_only _).next' t h
  | refreshInterval _ _ => exact (execRefreshInterval_only _ _ _).next' t h
  | mr4Poll _ _ => exact (execMr4Poll_only _ _ _).next' t h
  | calWindowOpen => exact (execCalWindowOpen_only _).next' t h
  | calWindowEnd _ _ _ => exact (execCalWindowEnd_only _ _ _ _).next' t h
  | memCalLate => exact (execMemCalLate_only _).next' t h
  | channelBRetrain _ => exact (execChannelBRetrain_only _ _).next' t h
  | freqChange _ => exact (execFreqChange_only _ _).next' t h
  | scrubRead _ _ => exact (execScrubRead_only _ _ _).next' t h
  | writeDrain _ => exact (execWriteDrain_only _ _).next' t h
  | ptpSync _ _ _ => exact (execPtpSync_only _ _ _ _).next' t h
  | announceTimeout => exact (execAnnounceTimeout_only _).next' t h
  | tbFallback => exact (execTbFallback_only _).next' t h
  | tbMain => exact (execTbMain_only _).next' t h
  | mgmtPtpFallback => exact (execMgmtPtpFallback_only _).next' t h
  | mgmtPtpReturn => exact (execMgmtPtpReturn_only _).next' t h
  | ringHoldFrame _ _ _ _ _ => exact (execRingHoldFrame_only _ _ _ _ _ _).next' t h
  | ringStartFrame _ _ _ _ _ => exact (execRingStartFrame_only _ _ _ _ _ _).next' t h
  | ringPulseFrame _ _ _ _ => exact (execRingPulseFrame_only _ _ _ _ _).next' t h
  | ringStatusFrame _ _ _ _ _ _ _ _ _ => exact (execRingStatusFrame_only _ _ _ _ _ _ _ _ _ _).next' t h
  | ringStatusSend => exact (execRingStatusSend_only _).next' t h
  | ringHoldSend => exact (execRingHoldSend_only _).next' t h
  | ringMemberLost _ => exact (execRingMemberLost_only _ _).next' t h
  | ringDown => exact (execRingDown_only _).next' t h
  | pulseSend => exact (execPulseSend_only _).next' t h
  | countLatch => exact (execCountLatch_only _).next' t h
  | groupStartTimeout _ => exact (execGroupStartTimeout_only _ _).next' t h
  | evrBufferClose => exact (execEvrBufferClose_only _).next' t h
  | registerWrite _ _ _ => exact (execRegisterWrite_only _ _ _ _).next' t h
  | invalidRegisterAccess _ _ _ _ => exact (execInvalidRegisterAccess_only _ _ _ _ _).next' t h
  | fireCntLoRead _ => exact (execFireCntLoRead_only _ _).next' t h
  | firePosLoRead _ => exact (execFirePosLoRead_only _ _).next' t h
  | tbNowSRead _ => exact (execTbNowSRead_only _ _).next' t h
  | ringClSRead _ => exact (execRingClSRead_only _ _).next' t h
  | ringHoldOriginatorTimeout _ => exact (execRingHoldOriginatorTimeout_only _ _).next' t h
  | axisFeedbackChange _ _ => exact (execAxisFeedbackChange_only _ _ _).next' t h
  | ptpAnnounce _ _ => exact (execPtpAnnounce_only _ _ _).next' t h
  | ptpSyncInterval => exact (execPtpSyncInterval_only _).next' t h
  | xppMessageDiscard _ _ => exact (execXppMessageDiscard_only _ _ _).next' t h
  | ringFrameCrcFail => exact (execRingFrameCrcFail_only _).next' t h

/-! ### Sets as lists -/

/-- A list of parts as a mask. -/
def partsMask (ps : List Part) : Nat := ps.foldr (fun p m => 2 ^ p.ctorIdx ||| m) 0
/-- A list of fields as a mask. -/
def fieldsMask (fs : List Fld) : Nat := fs.foldr (fun f m => 2 ^ f.ctorIdx ||| m) 0

theorem Part.idx_inj {p q : Part} (h : p.ctorIdx = q.ctorIdx) : p = q := by
  have := congrArg Part.ofNat h
  rwa [Part.ofNat_ctorIdx, Part.ofNat_ctorIdx] at this

theorem partsMask_not {ps : List Part} {p : Part} (h : p ∉ ps) : (partsMask ps).testBit p.ctorIdx = false := by
  induction ps with
  | nil => simp [partsMask]
  | cons q t ih =>
    simp only [List.mem_cons, not_or] at h
    have := ih h.2
    simp only [partsMask, List.foldr_cons, Nat.testBit_or, Nat.testBit_two_pow, Bool.or_eq_false_iff, decide_eq_false_iff_not] at this ⊢
    exact ⟨fun e => h.1 (Part.idx_inj e.symm), this⟩

theorem fieldsMask_not {fs : List Fld} {f : Fld} (h : f ∉ fs) : (fieldsMask fs).testBit f.ctorIdx = false := by
  induction fs with
  | nil => simp [fieldsMask]
  | cons q t ih =>
    simp only [List.mem_cons, not_or] at h
    have := ih h.2
    simp only [fieldsMask, List.foldr_cons, Nat.testBit_or, Nat.testBit_two_pow, Bool.or_eq_false_iff, decide_eq_false_iff_not] at this ⊢
    exact ⟨fun e => h.1 (Fld.idx_inj e.symm), this⟩

/-- The relation in lists. -/
theorem State.Only.unchanged {c r : Nat} {s t : State} {ps : List Part} {fs : List Fld} (h : State.Only c r s t)
    (hp : c &&& partsMask ps = c) (hf : r &&& fieldsMask fs = r) : Unchanged ps fs s t := by
  have h' := h.mono hp hf
  refine ⟨fun p hm => ?_, fun f hm i j => h'.dev.regs f (fieldsMask_not hm) i j, h'.pending⟩
  have hb := partsMask_not hm
  unfold Part.same
  split
  · next hd => rw [hd] at hb; exact h'.dram hb
  · exact h'.dev.parts p hb

end Sys2Proof.Machine
end

