-- ==== Sys2Proof/Laws/Ops.lean ====
section
/-! SUPPORT. What the shared operations give: reads after raising an event, sending, entering a device state, setting hold causes; an
event raised is pending. -/
namespace Sys2Proof.Machine

/-- A register field that an operation does not name reads as before. -/
theorem Dev.Only.rd {c r : Nat} {d e : Dev} (h : Dev.Only c r d e) (f : Fld) (i j : Nat) (hf : r.testBit f.ctorIdx = false) :
    e.rd f i j = d.rd f i j := h.regs f hf i j

/-! ### Bits of numbers -/

@[simp] theorem bitOf_withBit (n b k : Nat) : bitOf (withBit n b) k = (bitOf n k || decide (k = b)) := by
  simp only [bitOf, withBit, Nat.testBit_or, Nat.testBit_two_pow]
  by_cases h : b = k <;> simp [h, eq_comm]

theorem bitOf_mod (n w k : Nat) (h : k < w) : bitOf (n % 2 ^ w) k = bitOf n k := by
  simp [bitOf, Nat.testBit_mod_two_pow, h]

theorem testBit_withoutBit (n b k : Nat) : (withoutBit n b).testBit k = (n.testBit k && decide (k ≠ b)) := by
  induction b generalizing n k with
  | zero =>
    unfold withoutBit
    rw [Nat.testBit_zero]
    split
    · next h =>
      simp only [decide_eq_true_eq] at h
      cases k with
      | zero => simp [Nat.testBit_zero]; omega
      | succ k =>
        rw [Nat.testBit_succ, Nat.testBit_succ]
        have : (n - 2 ^ 0) / 2 = n / 2 := by omega
        rw [this]
        simp
    · next h =>
      cases k with
      | zero => simp [Nat.testBit_zero]; simp at h; exact h
      | succ k => simp
  | succ b ih =>
    have hs : withoutBit n (b + 1) = 2 * withoutBit (n / 2) b + n % 2 := by
      unfold withoutBit
      rw [Nat.testBit_succ]
      split
      · next h =>
        have := Nat.ge_two_pow_of_testBit h
        have h2 : 2 ^ (b + 1) = 2 * 2 ^ b := by rw [Nat.pow_succ, Nat.mul_comm]
        omega
      · omega
    rw [hs]
    cases k with
    | zero => simp [Nat.testBit_zero]
    | succ k =>
      rw [Nat.testBit_succ, Nat.testBit_succ]
      have : (2 * withoutBit (n / 2) b + n % 2) / 2 = withoutBit (n / 2) b := by omega
      rw [this, ih]
      simp

@[simp] theorem bitOf_withoutBit (n b k : Nat) : bitOf (withoutBit n b) k = (bitOf n k && decide (k ≠ b)) := testBit_withoutBit n b k


/-! ### `Dev.raise` -/

@[simp] theorem Dev.raise_variant (d : Dev) (e : EvCode) (x : List Byte) : (d.raise e x).variant = d.variant := (Dev.raise_only d e x).parts .variant rfl
@[simp] theorem Dev.raise_nor (d : Dev) (e : EvCode) (x : List Byte) : (d.raise e x).nor = d.nor := (Dev.raise_only d e x).parts .nor rfl
@[simp] theorem Dev.raise_tb (d : Dev) (e : EvCode) (x : List Byte) : (d.raise e x).tb = d.tb := (Dev.raise_only d e x).parts .tb rfl
@[simp] theorem Dev.raise_lc (d : Dev) (e : EvCode) (x : List Byte) : (d.raise e x).lc = d.lc := (Dev.raise_only d e x).parts .lc rfl
@[simp] theorem Dev.raise_boot (d : Dev) (e : EvCode) (x : List Byte) : (d.raise e x).boot = d.boot := (Dev.raise_only d e x).parts .boot rfl
@[simp] theorem Dev.raise_pwr (d : Dev) (e : EvCode) (x : List Byte) : (d.raise e x).pwr = d.pwr := (Dev.raise_only d e x).parts .pwr rfl
@[simp] theorem Dev.raise_shut (d : Dev) (e : EvCode) (x : List Byte) : (d.raise e x).shut = d.shut := (Dev.raise_only d e x).parts .shut rfl
@[simp] theorem Dev.raise_holdSeen (d : Dev) (e : EvCode) (x : List Byte) : (d.raise e x).holdSeen = d.holdSeen := (Dev.raise_only d e x).parts .holdSeen rfl
@[simp] theorem Dev.raise_jobs (d : Dev) (e : EvCode) (x : List Byte) : (d.raise e x).jobs = d.jobs := (Dev.raise_only d e x).parts .jobs rfl
@[simp] theorem Dev.raise_ended (d : Dev) (e : EvCode) (x : List Byte) : (d.raise e x).ended = d.ended := (Dev.raise_only d e x).parts .ended rfl
@[simp] theorem Dev.raise_conns (d : Dev) (e : EvCode) (x : List Byte) : (d.raise e x).conns = d.conns := (Dev.raise_only d e x).parts .conns rfl
@[simp] theorem Dev.raise_suppressAuto (d : Dev) (e : EvCode) (x : List Byte) : (d.raise e x).suppressAuto = d.suppressAuto := (Dev.raise_only d e x).parts .suppressAuto rfl
@[simp] theorem Dev.raise_rk (d : Dev) (e : EvCode) (x : List Byte) : (d.raise e x).rk = d.rk := (Dev.raise_only d e x).parts .rk rfl
@[simp] theorem Dev.raise_dose (d : Dev) (e : EvCode) (x : List Byte) : (d.raise e x).dose = d.dose := (Dev.raise_only d e x).parts .dose rfl
@[simp] theorem Dev.raise_curveSet (d : Dev) (e : EvCode) (x : List Byte) : (d.raise e x).curveSet = d.curveSet := (Dev.raise_only d e x).parts .curveSet rfl
@[simp] theorem Dev.raise_screenSet (d : Dev) (e : EvCode) (x : List Byte) : (d.raise e x).screenSet = d.screenSet := (Dev.raise_only d e x).parts .screenSet rfl
@[simp] theorem Dev.raise_reload (d : Dev) (e : EvCode) (x : List Byte) : (d.raise e x).reload = d.reload := (Dev.raise_only d e x).parts .reload rfl
@[simp] theorem Dev.raise_rodMaster (d : Dev) (e : EvCode) (x : List Byte) : (d.raise e x).rodMaster = d.rodMaster := (Dev.raise_only d e x).parts .rodMaster rfl
@[simp] theorem Dev.raise_rwy (d : Dev) (e : EvCode) (x : List Byte) : (d.raise e x).rwy = d.rwy := (Dev.raise_only d e x).parts .rwy rfl
@[simp] theorem Dev.raise_lvSince (d : Dev) (e : EvCode) (x : List Byte) : (d.raise e x).lvSince = d.lvSince := (Dev.raise_only d e x).parts .lvSince rfl
@[simp] theorem Dev.raise_ratioHist (d : Dev) (e : EvCode) (x : List Byte) : (d.raise e x).ratioHist = d.ratioHist := (Dev.raise_only d e x).parts .ratioHist rfl
@[simp] theorem Dev.raise_fire (d : Dev) (e : EvCode) (x : List Byte) : (d.raise e x).fire = d.fire := (Dev.raise_only d e x).parts .fire rfl
@[simp] theorem Dev.raise_lanes (d : Dev) (e : EvCode) (x : List Byte) : (d.raise e x).lanes = d.lanes := (Dev.raise_only d e x).parts .lanes rfl
@[simp] theorem Dev.raise_integ (d : Dev) (e : EvCode) (x : List Byte) : (d.raise e x).integ = d.integ := (Dev.raise_only d e x).parts .integ rfl
@[simp] theorem Dev.raise_accounts (d : Dev) (e : EvCode) (x : List Byte) : (d.raise e x).accounts = d.accounts := (Dev.raise_only d e x).parts .accounts rfl
@[simp] theorem Dev.raise_vis (d : Dev) (e : EvCode) (x : List Byte) : (d.raise e x).vis = d.vis := (Dev.raise_only d e x).parts .vis rfl
@[simp] theorem Dev.raise_loops (d : Dev) (e : EvCode) (x : List Byte) : (d.raise e x).loops = d.loops := (Dev.raise_only d e x).parts .loops rfl
@[simp] theorem Dev.raise_axes (d : Dev) (e : EvCode) (x : List Byte) : (d.raise e x).axes = d.axes := (Dev.raise_only d e x).parts .axes rfl
@[simp] theorem Dev.raise_axp (d : Dev) (e : EvCode) (x : List Byte) : (d.raise e x).axp = d.axp := (Dev.raise_only d e x).parts .axp rfl
@[simp] theorem Dev.raise_heat (d : Dev) (e : EvCode) (x : List Byte) : (d.raise e x).heat = d.heat := (Dev.raise_only d e x).parts .heat rfl
@[simp] theorem Dev.raise_aba (d : Dev) (e : EvCode) (x : List Byte) : (d.raise e x).aba = d.aba := (Dev.raise_only d e x).parts .aba rfl
@[simp] theorem Dev.raise_temp (d : Dev) (e : EvCode) (x : List Byte) : (d.raise e x).temp = d.temp := (Dev.raise_only d e x).parts .temp rfl
@[simp] theorem Dev.raise_msub (d : Dev) (e : EvCode) (x : List Byte) : (d.raise e x).msub = d.msub := (Dev.raise_only d e x).parts .msub rfl
@[simp] theorem Dev.raise_freqWait (d : Dev) (e : EvCode) (x : List Byte) : (d.raise e x).freqWait = d.freqWait := (Dev.raise_only d e x).parts .freqWait rfl
@[simp] theorem Dev.raise_ptp (d : Dev) (e : EvCode) (x : List Byte) : (d.raise e x).ptp = d.ptp := (Dev.raise_only d e x).parts .ptp rfl
@[simp] theorem Dev.raise_ring (d : Dev) (e : EvCode) (x : List Byte) : (d.raise e x).ring = d.ring := (Dev.raise_only d e x).parts .ring rfl
@[simp] theorem Dev.raise_pins (d : Dev) (e : EvCode) (x : List Byte) : (d.raise e x).pins = d.pins := (Dev.raise_only d e x).parts .pins rfl
@[simp] theorem Dev.raise_freeCtr (d : Dev) (e : EvCode) (x : List Byte) : (d.raise e x).freeCtr = d.freeCtr := (Dev.raise_only d e x).parts .freeCtr rfl

@[simp] theorem Dev.raise_rd (d : Dev) (e : EvCode) (x : List Byte) (f : Fld) (i j : Nat) (h0 : f ≠ .AON_EVPEND_PEND) (h1 : f ≠ .AON_EVLOST_N) : (d.raise e x).rd f i j = d.rd f i j :=
  (Dev.raise_only d e x).regs f ((fieldsMask_not (fs := [.AON_EVPEND_PEND, .AON_EVLOST_N]) (by simp [h0, h1]))) i j

/-! ### `Dev.send` -/

@[simp] theorem Dev.send_variant (d : Dev) (r : Role) (m : XppMsg) : (d.send r m).variant = d.variant := (Dev.send_only d r m).parts .variant rfl
@[simp] theorem Dev.send_nor (d : Dev) (r : Role) (m : XppMsg) : (d.send r m).nor = d.nor := (Dev.send_only d r m).parts .nor rfl
@[simp] theorem Dev.send_tb (d : Dev) (r : Role) (m : XppMsg) : (d.send r m).tb = d.tb := (Dev.send_only d r m).parts .tb rfl
@[simp] theorem Dev.send_lc (d : Dev) (r : Role) (m : XppMsg) : (d.send r m).lc = d.lc := (Dev.send_only d r m).parts .lc rfl
@[simp] theorem Dev.send_boot (d : Dev) (r : Role) (m : XppMsg) : (d.send r m).boot = d.boot := (Dev.send_only d r m).parts .boot rfl
@[simp] theorem Dev.send_pwr (d : Dev) (r : Role) (m : XppMsg) : (d.send r m).pwr = d.pwr := (Dev.send_only d r m).parts .pwr rfl
@[simp] theorem Dev.send_shut (d : Dev) (r : Role) (m : XppMsg) : (d.send r m).shut = d.shut := (Dev.send_only d r m).parts .shut rfl
@[simp] theorem Dev.send_holdSeen (d : Dev) (r : Role) (m : XppMsg) : (d.send r m).holdSeen = d.holdSeen := (Dev.send_only d r m).parts .holdSeen rfl
@[simp] theorem Dev.send_jobs (d : Dev) (r : Role) (m : XppMsg) : (d.send r m).jobs = d.jobs := (Dev.send_only d r m).parts .jobs rfl
@[simp] theorem Dev.send_ended (d : Dev) (r : Role) (m : XppMsg) : (d.send r m).ended = d.ended := (Dev.send_only d r m).parts .ended rfl
@[simp] theorem Dev.send_conns (d : Dev) (r : Role) (m : XppMsg) : (d.send r m).conns = d.conns := (Dev.send_only d r m).parts .conns rfl
@[simp] theorem Dev.send_suppressAuto (d : Dev) (r : Role) (m : XppMsg) : (d.send r m).suppressAuto = d.suppressAuto := (Dev.send_only d r m).parts .suppressAuto rfl
@[simp] theorem Dev.send_rk (d : Dev) (r : Role) (m : XppMsg) : (d.send r m).rk = d.rk := (Dev.send_only d r m).parts .rk rfl
@[simp] theorem Dev.send_dose (d : Dev) (r : Role) (m : XppMsg) : (d.send r m).dose = d.dose := (Dev.send_only d r m).parts .dose rfl
@[simp] theorem Dev.send_curveSet (d : Dev) (r : Role) (m : XppMsg) : (d.send r m).curveSet = d.curveSet := (Dev.send_only d r m).parts .curveSet rfl
@[simp] theorem Dev.send_screenSet (d : Dev) (r : Role) (m : XppMsg) : (d.send r m).screenSet = d.screenSet := (Dev.send_only d r m).parts .screenSet rfl
@[simp] theorem Dev.send_reload (d : Dev) (r : Role) (m : XppMsg) : (d.send r m).reload = d.reload := (Dev.send_only d r m).parts .reload rfl
@[simp] theorem Dev.send_rodMaster (d : Dev) (r : Role) (m : XppMsg) : (d.send r m).rodMaster = d.rodMaster := (Dev.send_only d r m).parts .rodMaster rfl
@[simp] theorem Dev.send_rwy (d : Dev) (r : Role) (m : XppMsg) : (d.send r m).rwy = d.rwy := (Dev.send_only d r m).parts .rwy rfl
@[simp] theorem Dev.send_lvSince (d : Dev) (r : Role) (m : XppMsg) : (d.send r m).lvSince = d.lvSince := (Dev.send_only d r m).parts .lvSince rfl
@[simp] theorem Dev.send_ratioHist (d : Dev) (r : Role) (m : XppMsg) : (d.send r m).ratioHist = d.ratioHist := (Dev.send_only d r m).parts .ratioHist rfl
@[simp] theorem Dev.send_fire (d : Dev) (r : Role) (m : XppMsg) : (d.send r m).fire = d.fire := (Dev.send_only d r m).parts .fire rfl
@[simp] theorem Dev.send_lanes (d : Dev) (r : Role) (m : XppMsg) : (d.send r m).lanes = d.lanes := (Dev.send_only d r m).parts .lanes rfl
@[simp] theorem Dev.send_integ (d : Dev) (r : Role) (m : XppMsg) : (d.send r m).integ = d.integ := (Dev.send_only d r m).parts .integ rfl
@[simp] theorem Dev.send_accounts (d : Dev) (r : Role) (m : XppMsg) : (d.send r m).accounts = d.accounts := (Dev.send_only d r m).parts .accounts rfl
@[simp] theorem Dev.send_vis (d : Dev) (r : Role) (m : XppMsg) : (d.send r m).vis = d.vis := (Dev.send_only d r m).parts .vis rfl
@[simp] theorem Dev.send_loops (d : Dev) (r : Role) (m : XppMsg) : (d.send r m).loops = d.loops := (Dev.send_only d r m).parts .loops rfl
@[simp] theorem Dev.send_axes (d : Dev) (r : Role) (m : XppMsg) : (d.send r m).axes = d.axes := (Dev.send_only d r m).parts .axes rfl
@[simp] theorem Dev.send_axp (d : Dev) (r : Role) (m : XppMsg) : (d.send r m).axp = d.axp := (Dev.send_only d r m).parts .axp rfl
@[simp] theorem Dev.send_heat (d : Dev) (r : Role) (m : XppMsg) : (d.send r m).heat = d.heat := (Dev.send_only d r m).parts .heat rfl
@[simp] theorem Dev.send_trace (d : Dev) (r : Role) (m : XppMsg) : (d.send r m).trace = d.trace := (Dev.send_only d r m).parts .trace rfl
@[simp] theorem Dev.send_aba (d : Dev) (r : Role) (m : XppMsg) : (d.send r m).aba = d.aba := (Dev.send_only d r m).parts .aba rfl
@[simp] theorem Dev.send_temp (d : Dev) (r : Role) (m : XppMsg) : (d.send r m).temp = d.temp := (Dev.send_only d r m).parts .temp rfl
@[simp] theorem Dev.send_msub (d : Dev) (r : Role) (m : XppMsg) : (d.send r m).msub = d.msub := (Dev.send_only d r m).parts .msub rfl
@[simp] theorem Dev.send_freqWait (d : Dev) (r : Role) (m : XppMsg) : (d.send r m).freqWait = d.freqWait := (Dev.send_only d r m).parts .freqWait rfl
@[simp] theorem Dev.send_ptp (d : Dev) (r : Role) (m : XppMsg) : (d.send r m).ptp = d.ptp := (Dev.send_only d r m).parts .ptp rfl
@[simp] theorem Dev.send_ring (d : Dev) (r : Role) (m : XppMsg) : (d.send r m).ring = d.ring := (Dev.send_only d r m).parts .ring rfl
@[simp] theorem Dev.send_evr (d : Dev) (r : Role) (m : XppMsg) : (d.send r m).evr = d.evr := (Dev.send_only d r m).parts .evr rfl
@[simp] theorem Dev.send_pins (d : Dev) (r : Role) (m : XppMsg) : (d.send r m).pins = d.pins := (Dev.send_only d r m).parts .pins rfl
@[simp] theorem Dev.send_freeCtr (d : Dev) (r : Role) (m : XppMsg) : (d.send r m).freeCtr = d.freeCtr := (Dev.send_only d r m).parts .freeCtr rfl

@[simp] theorem Dev.send_rd (d : Dev) (r : Role) (m : XppMsg) (f : Fld) (i j : Nat)  : (d.send r m).rd f i j = d.rd f i j :=
  (Dev.send_only d r m).regs f (by simp) i j

/-! ### `Dev.sendStatus` -/

@[simp] theorem Dev.sendStatus_variant (d : Dev) : (d.sendStatus).variant = d.variant := (Dev.sendStatus_only d).parts .variant rfl
@[simp] theorem Dev.sendStatus_nor (d : Dev) : (d.sendStatus).nor = d.nor := (Dev.sendStatus_only d).parts .nor rfl
@[simp] theorem Dev.sendStatus_tb (d : Dev) : (d.sendStatus).tb = d.tb := (Dev.sendStatus_only d).parts .tb rfl
@[simp] theorem Dev.sendStatus_lc (d : Dev) : (d.sendStatus).lc = d.lc := (Dev.sendStatus_only d).parts .lc rfl
@[simp] theorem Dev.sendStatus_boot (d : Dev) : (d.sendStatus).boot = d.boot := (Dev.sendStatus_only d).parts .boot rfl
@[simp] theorem Dev.sendStatus_pwr (d : Dev) : (d.sendStatus).pwr = d.pwr := (Dev.sendStatus_only d).parts .pwr rfl
@[simp] theorem Dev.sendStatus_shut (d : Dev) : (d.sendStatus).shut = d.shut := (Dev.sendStatus_only d).parts .shut rfl
@[simp] theorem Dev.sendStatus_holdSeen (d : Dev) : (d.sendStatus).holdSeen = d.holdSeen := (Dev.sendStatus_only d).parts .holdSeen rfl
@[simp] theorem Dev.sendStatus_jobs (d : Dev) : (d.sendStatus).jobs = d.jobs := (Dev.sendStatus_only d).parts .jobs rfl
@[simp] theorem Dev.sendStatus_ended (d : Dev) : (d.sendStatus).ended = d.ended := (Dev.sendStatus_only d).parts .ended rfl
@[simp] theorem Dev.sendStatus_conns (d : Dev) : (d.sendStatus).conns = d.conns := (Dev.sendStatus_only d).parts .conns rfl
@[simp] theorem Dev.sendStatus_suppressAuto (d : Dev) : (d.sendStatus).suppressAuto = d.suppressAuto := (Dev.sendStatus_only d).parts .suppressAuto rfl
@[simp] theorem Dev.sendStatus_rk (d : Dev) : (d.sendStatus).rk = d.rk := (Dev.sendStatus_only d).parts .rk rfl
@[simp] theorem Dev.sendStatus_dose (d : Dev) : (d.sendStatus).dose = d.dose := (Dev.sendStatus_only d).parts .dose rfl
@[simp] theorem Dev.sendStatus_curveSet (d : Dev) : (d.sendStatus).curveSet = d.curveSet := (Dev.sendStatus_only d).parts .curveSet rfl
@[simp] theorem Dev.sendStatus_screenSet (d : Dev) : (d.sendStatus).screenSet = d.screenSet := (Dev.sendStatus_only d).parts .screenSet rfl
@[simp] theorem Dev.sendStatus_reload (d : Dev) : (d.sendStatus).reload = d.reload := (Dev.sendStatus_only d).parts .reload rfl
@[simp] theorem Dev.sendStatus_rodMaster (d : Dev) : (d.sendStatus).rodMaster = d.rodMaster := (Dev.sendStatus_only d).parts .rodMaster rfl
@[simp] theorem Dev.sendStatus_rwy (d : Dev) : (d.sendStatus).rwy = d.rwy := (Dev.sendStatus_only d).parts .rwy rfl
@[simp] theorem Dev.sendStatus_lvSince (d : Dev) : (d.sendStatus).lvSince = d.lvSince := (Dev.sendStatus_only d).parts .lvSince rfl
@[simp] theorem Dev.sendStatus_ratioHist (d : Dev) : (d.sendStatus).ratioHist = d.ratioHist := (Dev.sendStatus_only d).parts .ratioHist rfl
@[simp] theorem Dev.sendStatus_fire (d : Dev) : (d.sendStatus).fire = d.fire := (Dev.sendStatus_only d).parts .fire rfl
@[simp] theorem Dev.sendStatus_lanes (d : Dev) : (d.sendStatus).lanes = d.lanes := (Dev.sendStatus_only d).parts .lanes rfl
@[simp] theorem Dev.sendStatus_integ (d : Dev) : (d.sendStatus).integ = d.integ := (Dev.sendStatus_only d).parts .integ rfl
@[simp] theorem Dev.sendStatus_accounts (d : Dev) : (d.sendStatus).accounts = d.accounts := (Dev.sendStatus_only d).parts .accounts rfl
@[simp] theorem Dev.sendStatus_vis (d : Dev) : (d.sendStatus).vis = d.vis := (Dev.sendStatus_only d).parts .vis rfl
@[simp] theorem Dev.sendStatus_loops (d : Dev) : (d.sendStatus).loops = d.loops := (Dev.sendStatus_only d).parts .loops rfl
@[simp] theorem Dev.sendStatus_axes (d : Dev) : (d.sendStatus).axes = d.axes := (Dev.sendStatus_only d).parts .axes rfl
@[simp] theorem Dev.sendStatus_axp (d : Dev) : (d.sendStatus).axp = d.axp := (Dev.sendStatus_only d).parts .axp rfl
@[simp] theorem Dev.sendStatus_heat (d : Dev) : (d.sendStatus).heat = d.heat := (Dev.sendStatus_only d).parts .heat rfl
@[simp] theorem Dev.sendStatus_trace (d : Dev) : (d.sendStatus).trace = d.trace := (Dev.sendStatus_only d).parts .trace rfl
@[simp] theorem Dev.sendStatus_aba (d : Dev) : (d.sendStatus).aba = d.aba := (Dev.sendStatus_only d).parts .aba rfl
@[simp] theorem Dev.sendStatus_temp (d : Dev) : (d.sendStatus).temp = d.temp := (Dev.sendStatus_only d).parts .temp rfl
@[simp] theorem Dev.sendStatus_msub (d : Dev) : (d.sendStatus).msub = d.msub := (Dev.sendStatus_only d).parts .msub rfl
@[simp] theorem Dev.sendStatus_freqWait (d : Dev) : (d.sendStatus).freqWait = d.freqWait := (Dev.sendStatus_only d).parts .freqWait rfl
@[simp] theorem Dev.sendStatus_ptp (d : Dev) : (d.sendStatus).ptp = d.ptp := (Dev.sendStatus_only d).parts .ptp rfl
@[simp] theorem Dev.sendStatus_ring (d : Dev) : (d.sendStatus).ring = d.ring := (Dev.sendStatus_only d).parts .ring rfl
@[simp] theorem Dev.sendStatus_evr (d : Dev) : (d.sendStatus).evr = d.evr := (Dev.sendStatus_only d).parts .evr rfl
@[simp] theorem Dev.sendStatus_pins (d : Dev) : (d.sendStatus).pins = d.pins := (Dev.sendStatus_only d).parts .pins rfl
@[simp] theorem Dev.sendStatus_freeCtr (d : Dev) : (d.sendStatus).freeCtr = d.freeCtr := (Dev.sendStatus_only d).parts .freeCtr rfl

@[simp] theorem Dev.sendStatus_rd (d : Dev) (f : Fld) (i j : Nat)  : (d.sendStatus).rd f i j = d.rd f i j :=
  (Dev.sendStatus_only d).regs f (by simp) i j

/-! ### `Dev.setHold` -/

@[simp] theorem Dev.setHold_variant (d : Dev) (h : HoldBit) (v : Bool) : (d.setHold h v).variant = d.variant := (Dev.setHold_only d h v).parts .variant rfl
@[simp] theorem Dev.setHold_nor (d : Dev) (h : HoldBit) (v : Bool) : (d.setHold h v).nor = d.nor := (Dev.setHold_only d h v).parts .nor rfl
@[simp] theorem Dev.setHold_tb (d : Dev) (h : HoldBit) (v : Bool) : (d.setHold h v).tb = d.tb := (Dev.setHold_only d h v).parts .tb rfl
@[simp] theorem Dev.setHold_lc (d : Dev) (h : HoldBit) (v : Bool) : (d.setHold h v).lc = d.lc := (Dev.setHold_only d h v).parts .lc rfl
@[simp] theorem Dev.setHold_boot (d : Dev) (h : HoldBit) (v : Bool) : (d.setHold h v).boot = d.boot := (Dev.setHold_only d h v).parts .boot rfl
@[simp] theorem Dev.setHold_pwr (d : Dev) (h : HoldBit) (v : Bool) : (d.setHold h v).pwr = d.pwr := (Dev.setHold_only d h v).parts .pwr rfl
@[simp] theorem Dev.setHold_shut (d : Dev) (h : HoldBit) (v : Bool) : (d.setHold h v).shut = d.shut := (Dev.setHold_only d h v).parts .shut rfl
@[simp] theorem Dev.setHold_holdSeen (d : Dev) (h : HoldBit) (v : Bool) : (d.setHold h v).holdSeen = d.holdSeen := (Dev.setHold_only d h v).parts .holdSeen rfl
@[simp] theorem Dev.setHold_jobs (d : Dev) (h : HoldBit) (v : Bool) : (d.setHold h v).jobs = d.jobs := (Dev.setHold_only d h v).parts .jobs rfl
@[simp] theorem Dev.setHold_ended (d : Dev) (h : HoldBit) (v : Bool) : (d.setHold h v).ended = d.ended := (Dev.setHold_only d h v).parts .ended rfl
@[simp] theorem Dev.setHold_conns (d : Dev) (h : HoldBit) (v : Bool) : (d.setHold h v).conns = d.conns := (Dev.setHold_only d h v).parts .conns rfl
@[simp] theorem Dev.setHold_suppressAuto (d : Dev) (h : HoldBit) (v : Bool) : (d.setHold h v).suppressAuto = d.suppressAuto := (Dev.setHold_only d h v).parts .suppressAuto rfl
@[simp] theorem Dev.setHold_rk (d : Dev) (h : HoldBit) (v : Bool) : (d.setHold h v).rk = d.rk := (Dev.setHold_only d h v).parts .rk rfl
@[simp] theorem Dev.setHold_dose (d : Dev) (h : HoldBit) (v : Bool) : (d.setHold h v).dose = d.dose := (Dev.setHold_only d h v).parts .dose rfl
@[simp] theorem Dev.setHold_curveSet (d : Dev) (h : HoldBit) (v : Bool) : (d.setHold h v).curveSet = d.curveSet := (Dev.setHold_only d h v).parts .curveSet rfl
@[simp] theorem Dev.setHold_screenSet (d : Dev) (h : HoldBit) (v : Bool) : (d.setHold h v).screenSet = d.screenSet := (Dev.setHold_only d h v).parts .screenSet rfl
@[simp] theorem Dev.setHold_reload (d : Dev) (h : HoldBit) (v : Bool) : (d.setHold h v).reload = d.reload := (Dev.setHold_only d h v).parts .reload rfl
@[simp] theorem Dev.setHold_rodMaster (d : Dev) (h : HoldBit) (v : Bool) : (d.setHold h v).rodMaster = d.rodMaster := (Dev.setHold_only d h v).parts .rodMaster rfl
@[simp] theorem Dev.setHold_rwy (d : Dev) (h : HoldBit) (v : Bool) : (d.setHold h v).rwy = d.rwy := (Dev.setHold_only d h v).parts .rwy rfl
@[simp] theorem Dev.setHold_lvSince (d : Dev) (h : HoldBit) (v : Bool) : (d.setHold h v).lvSince = d.lvSince := (Dev.setHold_only d h v).parts .lvSince rfl
@[simp] theorem Dev.setHold_ratioHist (d : Dev) (h : HoldBit) (v : Bool) : (d.setHold h v).ratioHist = d.ratioHist := (Dev.setHold_only d h v).parts .ratioHist rfl
@[simp] theorem Dev.setHold_fire (d : Dev) (h : HoldBit) (v : Bool) : (d.setHold h v).fire = d.fire := (Dev.setHold_only d h v).parts .fire rfl
@[simp] theorem Dev.setHold_lanes (d : Dev) (h : HoldBit) (v : Bool) : (d.setHold h v).lanes = d.lanes := (Dev.setHold_only d h v).parts .lanes rfl
@[simp] theorem Dev.setHold_integ (d : Dev) (h : HoldBit) (v : Bool) : (d.setHold h v).integ = d.integ := (Dev.setHold_only d h v).parts .integ rfl
@[simp] theorem Dev.setHold_accounts (d : Dev) (h : HoldBit) (v : Bool) : (d.setHold h v).accounts = d.accounts := (Dev.setHold_only d h v).parts .accounts rfl
@[simp] theorem Dev.setHold_vis (d : Dev) (h : HoldBit) (v : Bool) : (d.setHold h v).vis = d.vis := (Dev.setHold_only d h v).parts .vis rfl
@[simp] theorem Dev.setHold_loops (d : Dev) (h : HoldBit) (v : Bool) : (d.setHold h v).loops = d.loops := (Dev.setHold_only d h v).parts .loops rfl
@[simp] theorem Dev.setHold_axes (d : Dev) (h : HoldBit) (v : Bool) : (d.setHold h v).axes = d.axes := (Dev.setHold_only d h v).parts .axes rfl
@[simp] theorem Dev.setHold_axp (d : Dev) (h : HoldBit) (v : Bool) : (d.setHold h v).axp = d.axp := (Dev.setHold_only d h v).parts .axp rfl
@[simp] theorem Dev.setHold_heat (d : Dev) (h : HoldBit) (v : Bool) : (d.setHold h v).heat = d.heat := (Dev.setHold_only d h v).parts .heat rfl
@[simp] theorem Dev.setHold_trace (d : Dev) (h : HoldBit) (v : Bool) : (d.setHold h v).trace = d.trace := (Dev.setHold_only d h v).parts .trace rfl
@[simp] theorem Dev.setHold_aba (d : Dev) (h : HoldBit) (v : Bool) : (d.setHold h v).aba = d.aba := (Dev.setHold_only d h v).parts .aba rfl
@[simp] theorem Dev.setHold_temp (d : Dev) (h : HoldBit) (v : Bool) : (d.setHold h v).temp = d.temp := (Dev.setHold_only d h v).parts .temp rfl
@[simp] theorem Dev.setHold_msub (d : Dev) (h : HoldBit) (v : Bool) : (d.setHold h v).msub = d.msub := (Dev.setHold_only d h v).parts .msub rfl
@[simp] theorem Dev.setHold_freqWait (d : Dev) (h : HoldBit) (v : Bool) : (d.setHold h v).freqWait = d.freqWait := (Dev.setHold_only d h v).parts .freqWait rfl
@[simp] theorem Dev.setHold_ptp (d : Dev) (h : HoldBit) (v : Bool) : (d.setHold h v).ptp = d.ptp := (Dev.setHold_only d h v).parts .ptp rfl
@[simp] theorem Dev.setHold_ring (d : Dev) (h : HoldBit) (v : Bool) : (d.setHold h v).ring = d.ring := (Dev.setHold_only d h v).parts .ring rfl
@[simp] theorem Dev.setHold_evr (d : Dev) (h : HoldBit) (v : Bool) : (d.setHold h v).evr = d.evr := (Dev.setHold_only d h v).parts .evr rfl
@[simp] theorem Dev.setHold_pins (d : Dev) (h : HoldBit) (v : Bool) : (d.setHold h v).pins = d.pins := (Dev.setHold_only d h v).parts .pins rfl
@[simp] theorem Dev.setHold_freeCtr (d : Dev) (h : HoldBit) (v : Bool) : (d.setHold h v).freeCtr = d.freeCtr := (Dev.setHold_only d h v).parts .freeCtr rfl

@[simp] theorem Dev.setHold_rd (d : Dev) (h : HoldBit) (v : Bool) (f : Fld) (i j : Nat) (h0 : f ≠ .AON_STATE_HOLDC) : (d.setHold h v).rd f i j = d.rd f i j :=
  (Dev.setHold_only d h v).regs f ((fieldsMask_not (fs := [.AON_STATE_HOLDC]) (by simp [h0]))) i j

/-! ### `Dev.enter` -/

@[simp] theorem Dev.enter_variant (d : Dev) (s : DState) : (d.enter s).variant = d.variant := (Dev.enter_only d s).parts .variant rfl
@[simp] theorem Dev.enter_nor (d : Dev) (s : DState) : (d.enter s).nor = d.nor := (Dev.enter_only d s).parts .nor rfl
@[simp] theorem Dev.enter_tb (d : Dev) (s : DState) : (d.enter s).tb = d.tb := (Dev.enter_only d s).parts .tb rfl
@[simp] theorem Dev.enter_lc (d : Dev) (s : DState) : (d.enter s).lc = d.lc := (Dev.enter_only d s).parts .lc rfl
@[simp] theorem Dev.enter_boot (d : Dev) (s : DState) : (d.enter s).boot = d.boot := (Dev.enter_only d s).parts .boot rfl
@[simp] theorem Dev.enter_pwr (d : Dev) (s : DState) : (d.enter s).pwr = d.pwr := (Dev.enter_only d s).parts .pwr rfl
@[simp] theorem Dev.enter_shut (d : Dev) (s : DState) : (d.enter s).shut = d.shut := (Dev.enter_only d s).parts .shut rfl
@[simp] theorem Dev.enter_holdSeen (d : Dev) (s : DState) : (d.enter s).holdSeen = d.holdSeen := (Dev.enter_only d s).parts .holdSeen rfl
@[simp] theorem Dev.enter_jobs (d : Dev) (s : DState) : (d.enter s).jobs = d.jobs := (Dev.enter_only d s).parts .jobs rfl
@[simp] theorem Dev.enter_ended (d : Dev) (s : DState) : (d.enter s).ended = d.ended := (Dev.enter_only d s).parts .ended rfl
@[simp] theorem Dev.enter_conns (d : Dev) (s : DState) : (d.enter s).conns = d.conns := (Dev.enter_only d s).parts .conns rfl
@[simp] theorem Dev.enter_suppressAuto (d : Dev) (s : DState) : (d.enter s).suppressAuto = d.suppressAuto := (Dev.enter_only d s).parts .suppressAuto rfl
@[simp] theorem Dev.enter_rk (d : Dev) (s : DState) : (d.enter s).rk = d.rk := (Dev.enter_only d s).parts .rk rfl
@[simp] theorem Dev.enter_dose (d : Dev) (s : DState) : (d.enter s).dose = d.dose := (Dev.enter_only d s).parts .dose rfl
@[simp] theorem Dev.enter_curveSet (d : Dev) (s : DState) : (d.enter s).curveSet = d.curveSet := (Dev.enter_only d s).parts .curveSet rfl
@[simp] theorem Dev.enter_screenSet (d : Dev) (s : DState) : (d.enter s).screenSet = d.screenSet := (Dev.enter_only d s).parts .screenSet rfl
@[simp] theorem Dev.enter_reload (d : Dev) (s : DState) : (d.enter s).reload = d.reload := (Dev.enter_only d s).parts .reload rfl
@[simp] theorem Dev.enter_rodMaster (d : Dev) (s : DState) : (d.enter s).rodMaster = d.rodMaster := (Dev.enter_only d s).parts .rodMaster rfl
@[simp] theorem Dev.enter_rwy (d : Dev) (s : DState) : (d.enter s).rwy = d.rwy := (Dev.enter_only d s).parts .rwy rfl
@[simp] theorem Dev.enter_lvSince (d : Dev) (s : DState) : (d.enter s).lvSince = d.lvSince := (Dev.enter_only d s).parts .lvSince rfl
@[simp] theorem Dev.enter_ratioHist (d : Dev) (s : DState) : (d.enter s).ratioHist = d.ratioHist := (Dev.enter_only d s).parts .ratioHist rfl
@[simp] theorem Dev.enter_lanes (d : Dev) (s : DState) : (d.enter s).lanes = d.lanes := (Dev.enter_only d s).parts .lanes rfl
@[simp] theorem Dev.enter_integ (d : Dev) (s : DState) : (d.enter s).integ = d.integ := (Dev.enter_only d s).parts .integ rfl
@[simp] theorem Dev.enter_accounts (d : Dev) (s : DState) : (d.enter s).accounts = d.accounts := (Dev.enter_only d s).parts .accounts rfl
@[simp] theorem Dev.enter_vis (d : Dev) (s : DState) : (d.enter s).vis = d.vis := (Dev.enter_only d s).parts .vis rfl
@[simp] theorem Dev.enter_loops (d : Dev) (s : DState) : (d.enter s).loops = d.loops := (Dev.enter_only d s).parts .loops rfl
@[simp] theorem Dev.enter_axes (d : Dev) (s : DState) : (d.enter s).axes = d.axes := (Dev.enter_only d s).parts .axes rfl
@[simp] theorem Dev.enter_axp (d : Dev) (s : DState) : (d.enter s).axp = d.axp := (Dev.enter_only d s).parts .axp rfl
@[simp] theorem Dev.enter_heat (d : Dev) (s : DState) : (d.enter s).heat = d.heat := (Dev.enter_only d s).parts .heat rfl
@[simp] theorem Dev.enter_trace (d : Dev) (s : DState) : (d.enter s).trace = d.trace := (Dev.enter_only d s).parts .trace rfl
@[simp] theorem Dev.enter_aba (d : Dev) (s : DState) : (d.enter s).aba = d.aba := (Dev.enter_only d s).parts .aba rfl
@[simp] theorem Dev.enter_temp (d : Dev) (s : DState) : (d.enter s).temp = d.temp := (Dev.enter_only d s).parts .temp rfl
@[simp] theorem Dev.enter_msub (d : Dev) (s : DState) : (d.enter s).msub = d.msub := (Dev.enter_only d s).parts .msub rfl
@[simp] theorem Dev.enter_ptp (d : Dev) (s : DState) : (d.enter s).ptp = d.ptp := (Dev.enter_only d s).parts .ptp rfl
@[simp] theorem Dev.enter_ring (d : Dev) (s : DState) : (d.enter s).ring = d.ring := (Dev.enter_only d s).parts .ring rfl
@[simp] theorem Dev.enter_evr (d : Dev) (s : DState) : (d.enter s).evr = d.evr := (Dev.enter_only d s).parts .evr rfl
@[simp] theorem Dev.enter_freeCtr (d : Dev) (s : DState) : (d.enter s).freeCtr = d.freeCtr := (Dev.enter_only d s).parts .freeCtr rfl

@[simp] theorem Dev.enter_rd (d : Dev) (s : DState) (f : Fld) (i j : Nat) (h0 : f ≠ .AON_STATE_STATE) : (d.enter s).rd f i j = d.rd f i j :=
  (Dev.enter_only d s).regs f ((fieldsMask_not (fs := [.AON_STATE_STATE]) (by simp [h0]))) i j

/-! ### `Dev.requestStop` -/

@[simp] theorem Dev.requestStop_variant (d : Dev) (b : StopBit) : (d.requestStop b).variant = d.variant := (Dev.requestStop_only d b).parts .variant rfl
@[simp] theorem Dev.requestStop_nor (d : Dev) (b : StopBit) : (d.requestStop b).nor = d.nor := (Dev.requestStop_only d b).parts .nor rfl
@[simp] theorem Dev.requestStop_tb (d : Dev) (b : StopBit) : (d.requestStop b).tb = d.tb := (Dev.requestStop_only d b).parts .tb rfl
@[simp] theorem Dev.requestStop_lc (d : Dev) (b : StopBit) : (d.requestStop b).lc = d.lc := (Dev.requestStop_only d b).parts .lc rfl
@[simp] theorem Dev.requestStop_boot (d : Dev) (b : StopBit) : (d.requestStop b).boot = d.boot := (Dev.requestStop_only d b).parts .boot rfl
@[simp] theorem Dev.requestStop_pwr (d : Dev) (b : StopBit) : (d.requestStop b).pwr = d.pwr := (Dev.requestStop_only d b).parts .pwr rfl
@[simp] theorem Dev.requestStop_shut (d : Dev) (b : StopBit) : (d.requestStop b).shut = d.shut := (Dev.requestStop_only d b).parts .shut rfl
@[simp] theorem Dev.requestStop_holdSeen (d : Dev) (b : StopBit) : (d.requestStop b).holdSeen = d.holdSeen := (Dev.requestStop_only d b).parts .holdSeen rfl
@[simp] theorem Dev.requestStop_jobs (d : Dev) (b : StopBit) : (d.requestStop b).jobs = d.jobs := (Dev.requestStop_only d b).parts .jobs rfl
@[simp] theorem Dev.requestStop_ended (d : Dev) (b : StopBit) : (d.requestStop b).ended = d.ended := (Dev.requestStop_only d b).parts .ended rfl
@[simp] theorem Dev.requestStop_conns (d : Dev) (b : StopBit) : (d.requestStop b).conns = d.conns := (Dev.requestStop_only d b).parts .conns rfl
@[simp] theorem Dev.requestStop_suppressAuto (d : Dev) (b : StopBit) : (d.requestStop b).suppressAuto = d.suppressAuto := (Dev.requestStop_only d b).parts .suppressAuto rfl
@[simp] theorem Dev.requestStop_rk (d : Dev) (b : StopBit) : (d.requestStop b).rk = d.rk := (Dev.requestStop_only d b).parts .rk rfl
@[simp] theorem Dev.requestStop_dose (d : Dev) (b : StopBit) : (d.requestStop b).dose = d.dose := (Dev.requestStop_only d b).parts .dose rfl
@[simp] theorem Dev.requestStop_curveSet (d : Dev) (b : StopBit) : (d.requestStop b).curveSet = d.curveSet := (Dev.requestStop_only d b).parts .curveSet rfl
@[simp] theorem Dev.requestStop_screenSet (d : Dev) (b : StopBit) : (d.requestStop b).screenSet = d.screenSet := (Dev.requestStop_only d b).parts .screenSet rfl
@[simp] theorem Dev.requestStop_reload (d : Dev) (b : StopBit) : (d.requestStop b).reload = d.reload := (Dev.requestStop_only d b).parts .reload rfl
@[simp] theorem Dev.requestStop_rodMaster (d : Dev) (b : StopBit) : (d.requestStop b).rodMaster = d.rodMaster := (Dev.requestStop_only d b).parts .rodMaster rfl
@[simp] theorem Dev.requestStop_rwy (d : Dev) (b : StopBit) : (d.requestStop b).rwy = d.rwy := (Dev.requestStop_only d b).parts .rwy rfl
@[simp] theorem Dev.requestStop_lvSince (d : Dev) (b : StopBit) : (d.requestStop b).lvSince = d.lvSince := (Dev.requestStop_only d b).parts .lvSince rfl
@[simp] theorem Dev.requestStop_ratioHist (d : Dev) (b : StopBit) : (d.requestStop b).ratioHist = d.ratioHist := (Dev.requestStop_only d b).parts .ratioHist rfl
@[simp] theorem Dev.requestStop_fire (d : Dev) (b : StopBit) : (d.requestStop b).fire = d.fire := (Dev.requestStop_only d b).parts .fire rfl
@[simp] theorem Dev.requestStop_lanes (d : Dev) (b : StopBit) : (d.requestStop b).lanes = d.lanes := (Dev.requestStop_only d b).parts .lanes rfl
@[simp] theorem Dev.requestStop_integ (d : Dev) (b : StopBit) : (d.requestStop b).integ = d.integ := (Dev.requestStop_only d b).parts .integ rfl
@[simp] theorem Dev.requestStop_accounts (d : Dev) (b : StopBit) : (d.requestStop b).accounts = d.accounts := (Dev.requestStop_only d b).parts .accounts rfl
@[simp] theorem Dev.requestStop_vis (d : Dev) (b : StopBit) : (d.requestStop b).vis = d.vis := (Dev.requestStop_only d b).parts .vis rfl
@[simp] theorem Dev.requestStop_loops (d : Dev) (b : StopBit) : (d.requestStop b).loops = d.loops := (Dev.requestStop_only d b).parts .loops rfl
@[simp] theorem Dev.requestStop_axes (d : Dev) (b : StopBit) : (d.requestStop b).axes = d.axes := (Dev.requestStop_only d b).parts .axes rfl
@[simp] theorem Dev.requestStop_axp (d : Dev) (b : StopBit) : (d.requestStop b).axp = d.axp := (Dev.requestStop_only d b).parts .axp rfl
@[simp] theorem Dev.requestStop_heat (d : Dev) (b : StopBit) : (d.requestStop b).heat = d.heat := (Dev.requestStop_only d b).parts .heat rfl
@[simp] theorem Dev.requestStop_aba (d : Dev) (b : StopBit) : (d.requestStop b).aba = d.aba := (Dev.requestStop_only d b).parts .aba rfl
@[simp] theorem Dev.requestStop_temp (d : Dev) (b : StopBit) : (d.requestStop b).temp = d.temp := (Dev.requestStop_only d b).parts .temp rfl
@[simp] theorem Dev.requestStop_msub (d : Dev) (b : StopBit) : (d.requestStop b).msub = d.msub := (Dev.requestStop_only d b).parts .msub rfl
@[simp] theorem Dev.requestStop_freqWait (d : Dev) (b : StopBit) : (d.requestStop b).freqWait = d.freqWait := (Dev.requestStop_only d b).parts .freqWait rfl
@[simp] theorem Dev.requestStop_ptp (d : Dev) (b : StopBit) : (d.requestStop b).ptp = d.ptp := (Dev.requestStop_only d b).parts .ptp rfl
@[simp] theorem Dev.requestStop_ring (d : Dev) (b : StopBit) : (d.requestStop b).ring = d.ring := (Dev.requestStop_only d b).parts .ring rfl
@[simp] theorem Dev.requestStop_pins (d : Dev) (b : StopBit) : (d.requestStop b).pins = d.pins := (Dev.requestStop_only d b).parts .pins rfl
@[simp] theorem Dev.requestStop_freeCtr (d : Dev) (b : StopBit) : (d.requestStop b).freeCtr = d.freeCtr := (Dev.requestStop_only d b).parts .freeCtr rfl

@[simp] theorem Dev.requestStop_rd (d : Dev) (b : StopBit) (f : Fld) (i j : Nat) (h0 : f ≠ .AON_STATE_STOPREQ) (h1 : f ≠ .AON_EVPEND_PEND) (h2 : f ≠ .AON_EVLOST_N) : (d.requestStop b).rd f i j = d.rd f i j :=
  (Dev.requestStop_only d b).regs f ((fieldsMask_not (fs := [.AON_STATE_STOPREQ, .AON_EVPEND_PEND, .AON_EVLOST_N]) (by simp [h0, h1, h2]))) i j

/-! ### `Dev.sendJobStatus` -/

@[simp] theorem Dev.sendJobStatus_variant (d : Dev) (jn : Nat) : (d.sendJobStatus jn).variant = d.variant := (Dev.sendJobStatus_only d jn).parts .variant rfl
@[simp] theorem Dev.sendJobStatus_nor (d : Dev) (jn : Nat) : (d.sendJobStatus jn).nor = d.nor := (Dev.sendJobStatus_only d jn).parts .nor rfl
@[simp] theorem Dev.sendJobStatus_tb (d : Dev) (jn : Nat) : (d.sendJobStatus jn).tb = d.tb := (Dev.sendJobStatus_only d jn).parts .tb rfl
@[simp] theorem Dev.sendJobStatus_lc (d : Dev) (jn : Nat) : (d.sendJobStatus jn).lc = d.lc := (Dev.sendJobStatus_only d jn).parts .lc rfl
@[simp] theorem Dev.sendJobStatus_boot (d : Dev) (jn : Nat) : (d.sendJobStatus jn).boot = d.boot := (Dev.sendJobStatus_only d jn).parts .boot rfl
@[simp] theorem Dev.sendJobStatus_pwr (d : Dev) (jn : Nat) : (d.sendJobStatus jn).pwr = d.pwr := (Dev.sendJobStatus_only d jn).parts .pwr rfl
@[simp] theorem Dev.sendJobStatus_shut (d : Dev) (jn : Nat) : (d.sendJobStatus jn).shut = d.shut := (Dev.sendJobStatus_only d jn).parts .shut rfl
@[simp] theorem Dev.sendJobStatus_holdSeen (d : Dev) (jn : Nat) : (d.sendJobStatus jn).holdSeen = d.holdSeen := (Dev.sendJobStatus_only d jn).parts .holdSeen rfl
@[simp] theorem Dev.sendJobStatus_jobs (d : Dev) (jn : Nat) : (d.sendJobStatus jn).jobs = d.jobs := (Dev.sendJobStatus_only d jn).parts .jobs rfl
@[simp] theorem Dev.sendJobStatus_ended (d : Dev) (jn : Nat) : (d.sendJobStatus jn).ended = d.ended := (Dev.sendJobStatus_only d jn).parts .ended rfl
@[simp] theorem Dev.sendJobStatus_conns (d : Dev) (jn : Nat) : (d.sendJobStatus jn).conns = d.conns := (Dev.sendJobStatus_only d jn).parts .conns rfl
@[simp] theorem Dev.sendJobStatus_suppressAuto (d : Dev) (jn : Nat) : (d.sendJobStatus jn).suppressAuto = d.suppressAuto := (Dev.sendJobStatus_only d jn).parts .suppressAuto rfl
@[simp] theorem Dev.sendJobStatus_rk (d : Dev) (jn : Nat) : (d.sendJobStatus jn).rk = d.rk := (Dev.sendJobStatus_only d jn).parts .rk rfl
@[simp] theorem Dev.sendJobStatus_dose (d : Dev) (jn : Nat) : (d.sendJobStatus jn).dose = d.dose := (Dev.sendJobStatus_only d jn).parts .dose rfl
@[simp] theorem Dev.sendJobStatus_curveSet (d : Dev) (jn : Nat) : (d.sendJobStatus jn).curveSet = d.curveSet := (Dev.sendJobStatus_only d jn).parts .curveSet rfl
@[simp] theorem Dev.sendJobStatus_screenSet (d : Dev) (jn : Nat) : (d.sendJobStatus jn).screenSet = d.screenSet := (Dev.sendJobStatus_only d jn).parts .screenSet rfl
@[simp] theorem Dev.sendJobStatus_reload (d : Dev) (jn : Nat) : (d.sendJobStatus jn).reload = d.reload := (Dev.sendJobStatus_only d jn).parts .reload rfl
@[simp] theorem Dev.sendJobStatus_rodMaster (d : Dev) (jn : Nat) : (d.sendJobStatus jn).rodMaster = d.rodMaster := (Dev.sendJobStatus_only d jn).parts .rodMaster rfl
@[simp] theorem Dev.sendJobStatus_rwy (d : Dev) (jn : Nat) : (d.sendJobStatus jn).rwy = d.rwy := (Dev.sendJobStatus_only d jn).parts .rwy rfl
@[simp] theorem Dev.sendJobStatus_lvSince (d : Dev) (jn : Nat) : (d.sendJobStatus jn).lvSince = d.lvSince := (Dev.sendJobStatus_only d jn).parts .lvSince rfl
@[simp] theorem Dev.sendJobStatus_ratioHist (d : Dev) (jn : Nat) : (d.sendJobStatus jn).ratioHist = d.ratioHist := (Dev.sendJobStatus_only d jn).parts .ratioHist rfl
@[simp] theorem Dev.sendJobStatus_fire (d : Dev) (jn : Nat) : (d.sendJobStatus jn).fire = d.fire := (Dev.sendJobStatus_only d jn).parts .fire rfl
@[simp] theorem Dev.sendJobStatus_lanes (d : Dev) (jn : Nat) : (d.sendJobStatus jn).lanes = d.lanes := (Dev.sendJobStatus_only d jn).parts .lanes rfl
@[simp] theorem Dev.sendJobStatus_integ (d : Dev) (jn : Nat) : (d.sendJobStatus jn).integ = d.integ := (Dev.sendJobStatus_only d jn).parts .integ rfl
@[simp] theorem Dev.sendJobStatus_accounts (d : Dev) (jn : Nat) : (d.sendJobStatus jn).accounts = d.accounts := (Dev.sendJobStatus_only d jn).parts .accounts rfl
@[simp] theorem Dev.sendJobStatus_vis (d : Dev) (jn : Nat) : (d.sendJobStatus jn).vis = d.vis := (Dev.sendJobStatus_only d jn).parts .vis rfl
@[simp] theorem Dev.sendJobStatus_loops (d : Dev) (jn : Nat) : (d.sendJobStatus jn).loops = d.loops := (Dev.sendJobStatus_only d jn).parts .loops rfl
@[simp] theorem Dev.sendJobStatus_axes (d : Dev) (jn : Nat) : (d.sendJobStatus jn).axes = d.axes := (Dev.sendJobStatus_only d jn).parts .axes rfl
@[simp] theorem Dev.sendJobStatus_axp (d : Dev) (jn : Nat) : (d.sendJobStatus jn).axp = d.axp := (Dev.sendJobStatus_only d jn).parts .axp rfl
@[simp] theorem Dev.sendJobStatus_heat (d : Dev) (jn : Nat) : (d.sendJobStatus jn).heat = d.heat := (Dev.sendJobStatus_only d jn).parts .heat rfl
@[simp] theorem Dev.sendJobStatus_trace (d : Dev) (jn : Nat) : (d.sendJobStatus jn).trace = d.trace := (Dev.sendJobStatus_only d jn).parts .trace rfl
@[simp] theorem Dev.sendJobStatus_aba (d : Dev) (jn : Nat) : (d.sendJobStatus jn).aba = d.aba := (Dev.sendJobStatus_only d jn).parts .aba rfl
@[simp] theorem Dev.sendJobStatus_temp (d : Dev) (jn : Nat) : (d.sendJobStatus jn).temp = d.temp := (Dev.sendJobStatus_only d jn).parts .temp rfl
@[simp] theorem Dev.sendJobStatus_msub (d : Dev) (jn : Nat) : (d.sendJobStatus jn).msub = d.msub := (Dev.sendJobStatus_only d jn).parts .msub rfl
@[simp] theorem Dev.sendJobStatus_freqWait (d : Dev) (jn : Nat) : (d.sendJobStatus jn).freqWait = d.freqWait := (Dev.sendJobStatus_only d jn).parts .freqWait rfl
@[simp] theorem Dev.sendJobStatus_ptp (d : Dev) (jn : Nat) : (d.sendJobStatus jn).ptp = d.ptp := (Dev.sendJobStatus_only d jn).parts .ptp rfl
@[simp] theorem Dev.sendJobStatus_ring (d : Dev) (jn : Nat) : (d.sendJobStatus jn).ring = d.ring := (Dev.sendJobStatus_only d jn).parts .ring rfl
@[simp] theorem Dev.sendJobStatus_evr (d : Dev) (jn : Nat) : (d.sendJobStatus jn).evr = d.evr := (Dev.sendJobStatus_only d jn).parts .evr rfl
@[simp] theorem Dev.sendJobStatus_pins (d : Dev) (jn : Nat) : (d.sendJobStatus jn).pins = d.pins := (Dev.sendJobStatus_only d jn).parts .pins rfl
@[simp] theorem Dev.sendJobStatus_freeCtr (d : Dev) (jn : Nat) : (d.sendJobStatus jn).freeCtr = d.freeCtr := (Dev.sendJobStatus_only d jn).parts .freeCtr rfl

@[simp] theorem Dev.sendJobStatus_rd (d : Dev) (jn : Nat) (f : Fld) (i j : Nat)  : (d.sendJobStatus jn).rd f i j = d.rd f i j :=
  (Dev.sendJobStatus_only d jn).regs f (by simp) i j

/-! ### What raising an event does -/

/-- After its pending bit is set, raising an event changes no register but the count of lost entries. -/
theorem Dev.raise_after (d : Dev) (e : EvCode) (x : List Byte) :
    Dev.Only 0x14080000100 0x8000 (d.setBit .AON_EVPEND_PEND e.sub e.cls.idx) (d.raise e x) := by
  unfold Dev.raise
  extract_lets +onlyGivenNames y
  have hy : Dev.Only 0x14080000100 0x8000 (d.setBit .AON_EVPEND_PEND e.sub e.cls.idx) y :=
    Dev.Only.mono (Dev.traceNote_only _ _) rfl rfl
  clear_value y
  generalize y.evr.push 64 y.now ⟨e.code, y.now, x, y.evr.lost⟩ = q
  obtain ⟨ring, lost⟩ := q
  dsimp only
  refine Dev.Only.step (Dev.forwardEvent_only _ _ _ _) rfl rfl (Dev.Only.step (Dev.forwardEvent_only _ _ _ _) rfl rfl
    (Dev.Only.step (Dev.forwardEvent_only _ _ _ _) rfl rfl ?_))
  split
  · exact Dev.Only.inc _ _ _ rfl (Dev.Only.with_evr (e := y) _ rfl hy)
  · exact Dev.Only.with_evr (e := y) _ rfl hy

/-- The pending bits after an event. -/
theorem Dev.raise_pend (d : Dev) (e : EvCode) (x : List Byte) (k j : Nat) :
    (d.raise e x).rd .AON_EVPEND_PEND k j =
      if k = e.cls.idx ∧ j = 0 then withBit (d.rd .AON_EVPEND_PEND e.cls.idx) e.sub % 2 ^ 16 else d.rd .AON_EVPEND_PEND k j := by
  rw [(Dev.raise_after d e x).regs .AON_EVPEND_PEND rfl]
  simp only [Dev.setBit, Dev.rd_wr, true_and]
  rfl

/-- An event raised is pending. -/
theorem Dev.raise_pending (d : Dev) (e : EvCode) (x : List Byte) (h : e.sub < 16) : (d.raise e x).evPending e := by
  unfold Dev.evPending
  rw [Dev.raise_pend, if_pos ⟨rfl, rfl⟩, bitOf_mod _ _ _ h, bitOf_withBit]
  simp

/-- An event that was pending stays so when another is raised. -/
theorem Dev.raise_pending_of (d : Dev) (e e' : EvCode) (x : List Byte) (h : e.sub < 16) (hp : d.evPending e) :
    (d.raise e' x).evPending e := by
  unfold Dev.evPending at hp ⊢
  rw [Dev.raise_pend]
  split
  · next hk => rw [bitOf_mod _ _ _ h, bitOf_withBit, ← hk.1, hp, Bool.true_or]
  · exact hp

/-- Pending events are those of `AON_EVPEND`. -/
theorem Dev.evPending_congr {d e : Dev} (ev : EvCode) (h : ∀ k, e.rd .AON_EVPEND_PEND k = d.rd .AON_EVPEND_PEND k)
    (hp : d.evPending ev) : e.evPending ev := by
  unfold Dev.evPending at hp ⊢
  rw [h, hp]

/-- An operation that does not write `AON_EVPEND` keeps what is pending. -/
theorem Dev.Only.evPending {c r : Nat} {d e : Dev} (h : Dev.Only c r d e) (ev : EvCode)
    (hf : r.testBit Fld.AON_EVPEND_PEND.ctorIdx = false) (hp : d.evPending ev) : e.evPending ev :=
  Dev.evPending_congr ev (fun k => h.regs .AON_EVPEND_PEND hf k 0) hp

/-! ### Meanings over `act` -/

theorem gives_act {s : State} {c : Instr} {f : Dev → Dev} {p : State → Prop} (h : exec c s = s.act f) (hp : p { s with dev := f s.dev }) :
    Gives c s p := ⟨_, h, hp⟩

theorem gives_next {s t : State} {c : Instr} {p : State → Prop} (h : exec c s = .next t) (hp : p t) : Gives c s p := ⟨t, h, hp⟩

end Sys2Proof.Machine
end

