-- ==== Sys2Proof/Laws/Support.lean ====
section
/-! SUPPORT. What the shared operations do to registers and answers: lemmas that the proofs of the statements cite instead of unfolding them. -/
namespace Sys2Proof.Machine
set_option exponentiation.threshold 600

theorem Dev.Only.keep {c r : Nat} {d e : Dev} (h : Dev.Only c r d e) (fs : List Fld) (hr : r &&& fieldsMask fs = r) {f : Fld} (hf : f ∉ fs)
    (i j : Nat) : e.rd f i j = d.rd f i j := (h.mono (c' := c) (Nat.and_self c) hr).regs f (fieldsMask_not hf) i j

theorem next_inj {s t : State} (h : (Host.Outcome.next s : Out) = .next t) : s = t := by cases h; rfl

theorem ownWrite_reaches {d : Dev} {lvl : Lvl} {a : Nat} (h : d.Reaches lvl a) (k : Dev → Dev) : d.ownWrite lvl a k = k d := by
  obtain ⟨ha, r, i, j, hf, hab, hd⟩ := h
  unfold Dev.ownWrite Dev.access
  simp [ha, hf, hab, hd]

@[simp] theorem rd_mk (x0 : Variant) (x1 : Tab (Fld × Nat × Nat) Nat) (x2 : Nor) (x3 : Tb) (x4 : Nat) (x5 : Boot) (x6 : Pwr) (x7 : Option Shut) (x8 : Nat) (x9 : Xpp) (x10 : List Job) (x11 : List Nat) (x12 : List Conn) (x13 : Bool) (x14 : Rk) (x15 : Tab Nat Dose) (x16 : Option Nat) (x17 : Option Nat) (x18 : Bool) (x19 : Tab Nat Nat) (x20 : Tab Nat Rwy) (x21 : Nat) (x22 : List (Nat × Nat)) (x23 : Fire) (x24 : Tab Nat Lane) (x25 : Integ) (x26 : Tab Nat (Option Account)) (x27 : Tab Nat Vis) (x28 : Loops) (x29 : Tab Nat Axis) (x30 : Tab Nat AxPort) (x31 : Tab Nat Heat) (x32 : Tab Nat Trace) (x33 : Aba) (x34 : Temp) (x35 : Tab Nat MemCh) (x36 : Bool) (x37 : Ptp) (x38 : Ring) (x39 : BufRing EvEntry) (x40 : Pins) (x41 : List Output) (x42 : Nat) (f : Fld) (i j : Nat) :
    (Dev.mk x0 x1 x2 x3 x4 x5 x6 x7 x8 x9 x10 x11 x12 x13 x14 x15 x16 x17 x18 x19 x20 x21 x22 x23 x24 x25 x26 x27 x28 x29 x30 x31 x32 x33 x34 x35 x36 x37 x38 x39 x40 x41 x42).rd f i j = Tab.get (fldSpec f).reset x1 (f, i, j) := rfl

@[simp] theorem get_rf (d : Dev) (f : Fld) (i j : Nat) : Tab.get (fldSpec f).reset d.rf (f, i, j) = d.rd f i j := rfl

theorem forEach_only {α : Type} {c r : Nat} (l : List α) (d : Dev) (f : Dev → α → Dev) (h : ∀ d x, Dev.Only c r d (f d x)) :
    Dev.Only c r d (d.forEach l f) := Dev.Only.forEach _ (fun _ x hd => hd.trans (h _ x)) (Dev.Only.refl _ _ _)

theorem memReadAll_nil (n a : Nat) : memReadAll [] a n = List.replicate n Config.dramUnlisted := by
  induction n generalizing a with
  | zero => rfl
  | succ n ih => simp [memReadAll, ih, memRead, Tab.get, List.replicate_succ]

theorem rd_reset (f : Fld) (i j : Nat) : Dev.reset.rd f i j = (fldSpec f).reset := rfl

theorem sendIf_pins (b : Bool) (x : Dev) : (if b then x.sendStatus else x).pins = x.pins := by split <;> simp

theorem sendIf_rd (b : Bool) (x : Dev) (f i j) : (if b then x.sendStatus else x).rd f i j = x.rd f i j := by split <;> simp

theorem wr_st (d : Dev) (s : DState) : DState.ofCode ((d.wr .AON_STATE_STATE s.code).rd .AON_STATE_STATE) = s := by
  rw [Dev.rd_wr, if_pos ⟨rfl, rfl, rfl⟩]; cases s <;> rfl

theorem enter_st (d : Dev) (s : DState) : (d.enter s).st = s := by
  unfold Dev.st Dev.enter
  dsimp only
  rw [sendIf_rd]
  refine Eq.trans ?_ (wr_st d s)
  cases s <;> rfl

/-- The device state has not changed. -/
def Kst (d e : Dev) : Prop := e.rd .AON_STATE_STATE = d.rd .AON_STATE_STATE

theorem Kst.refl (d : Dev) : Kst d d := rfl

theorem Kst.trans {d e f : Dev} (h : Kst d e) (h' : Kst e f) : Kst d f := Eq.trans h' h

theorem Kst.st {d e : Dev} (h : Kst d e) : e.st = d.st := by unfold Dev.st; rw [h]

theorem Kst.of {c r : Nat} {d e : Dev} (h : Dev.Only c r d e) (hr : r.testBit 3 = false) : Kst d e := h.regs .AON_STATE_STATE hr 0 0

def Frozen (d : Dev) : Prop := d.st = .off ∨ d.st = .shutdown

theorem Frozen.congr {d e : Dev} (h : Frozen d) (k : Kst d e) : Frozen e := by unfold Frozen; rw [k.st]; exact h

abbrev ALLBUT : Nat := 0x17f8081fc0ffffc09c84fb8308001e5e7001ffe3ff807e0ffff3fff141f1fe7fff9fbfffef3ffff3e000fe12fffffcfe00007ffffe06c5e3ff785fff37fa1d3fff806008ffc1c0

theorem allbut_bit (f : Fld) (h : (fldSpec f).acc ≠ .ro) : Nat.testBit ALLBUT f.ctorIdx = true := by
  cases f <;> first | rfl | exact absurd rfl h

theorem storeField_but (x0 : Dev) (x1 : Fld) (x2 x3 x4 : Nat) (h : (fldSpec x1).acc ≠ .ro) :
    Dev.Only 0x7ffffffffff ALLBUT x0 (Dev.storeField x0 x1 x2 x3 x4) := by
  have hb := allbut_bit x1 h
  unfold Dev.storeField
  have hpl : Dev.Only 0x7ffffffffff ALLBUT x0 (x0.storePl x1 x2 x4) := by
    unfold Dev.storePl
    repeat' (first
      | with_reducible assumption
      | exact rfl
      | intro e
      | (extract_lets +onlyGivenNames x; first | (refine Dev.Only.have1 x (fun hx => ?_) ?_; clear_value x; rotate_left; subst x) | clear_value x)
      | with_reducible exact Dev.Only.refl _ _ _
      | with_reducible apply Dev.Only.step (Dev.lowerLines_only _ _ _)
      | with_reducible apply Dev.Only.step (Dev.moveDue_only _ _ _)
      | with_reducible apply Dev.Only.wr
      | with_reducible apply Dev.Only.forEach
      | split
      | with_reducible apply Dev.Only.with_fire)
  repeat' (first
    | with_reducible assumption
    | exact rfl
    | exact allbut_bit _ h
    | (extract_lets +onlyGivenNames x; first | (refine Dev.Only.have1 x (fun hx => ?_) ?_; clear_value x; rotate_left; subst x) | clear_value x)
    | with_reducible exact Dev.Only.refl _ _ _
    | with_reducible apply Dev.Only.step (Dev.axTarget_only _ _ _ _)
    | with_reducible apply Dev.Only.step (Dev.hrefEnable_only _)
    | with_reducible apply Dev.Only.step (Dev.laneDisable_only _ _)
    | with_reducible apply Dev.Only.step (Dev.loopMode_only _ _ _)
    | with_reducible apply Dev.Only.step (Dev.loopTestFree_only _ _)
    | with_reducible apply Dev.Only.step (Dev.plTail_only _ _ _)
    | with_reducible apply Dev.Only.step (Dev.relays_only _)
    | with_reducible apply Dev.Only.step (Dev.rodCommit_only _ _)
    | with_reducible apply Dev.Only.step (Dev.rodWindow_only _ _ _)
    | with_reducible apply Dev.Only.step (Dev.setPlim_only _)
    | with_reducible apply Dev.Only.step (Dev.tallyPut_only _ _ _)
    | with_reducible apply Dev.Only.step (Dev.visCommit_only _ _)
    | with_reducible apply Dev.Only.step (Dev.visEnable_only _ _)
    | with_reducible apply Dev.Only.step (Dev.visFfbase_only _ _ _)
    | with_reducible apply Dev.Only.wr
    | split)

theorem writeField_but (d : Dev) (lvl v : Nat) (f : Fld) (i j : Nat) : Dev.Only 0x7ffffffffff ALLBUT d (d.writeField lvl v f i j) := by
  unfold Dev.writeField
  extract_lets spec x
  split
  · exact Dev.Only.refl _ _ _
  · next h => exact storeField_but d f i j x (by rw [show (fldSpec f).acc = _ from h]; simp)
  · next h =>
    split
    · exact storeField_but d f i j x (by rw [show (fldSpec f).acc = _ from h]; simp)
    · exact Dev.Only.refl _ _ _
  · next h =>
    have hf : (fldSpec f).acc ≠ .ro := by rw [show (fldSpec f).acc = _ from h]; simp
    split
    · exact Dev.Only.refl _ _ _
    · unfold Dev.clearField
      split
      · exact (Dev.releaseRk_only _ _).mono rfl rfl
      · exact Dev.Only.wr _ _ _ _ (allbut_bit _ hf) (Dev.Only.refl _ _ _)
  · next h =>
    have hf : (fldSpec f).acc ≠ .ro := by rw [show (fldSpec f).acc = _ from h]; simp
    unfold Dev.actField
    repeat' (first
      | exact rfl
      | exact allbut_bit _ hf
      | with_reducible exact Dev.Only.refl _ _ _
      | with_reducible apply Dev.Only.step (Dev.demand_only _ _)
      | with_reducible apply Dev.Only.step (Dev.rodRelease_only _ _)
      | with_reducible apply Dev.Only.step (Dev.updDp_only _ _ _)
      | with_reducible apply Dev.Only.step (Dev.rodEnqueue_only _ _ _)
      | with_reducible apply Dev.Only.step (Dev.tallyFold_only _ _)
      | with_reducible apply Dev.Only.step (Dev.tallyFeed_only _ _)
      | with_reducible apply Dev.Only.step (Dev.updVp_only _ _ _)
      | with_reducible apply Dev.Only.step (Dev.visEnqueue_only _ _ _)
      | with_reducible apply Dev.Only.step (Dev.axHome_only _ _)
      | with_reducible apply Dev.Only.step (Dev.axStop_only _ _)
      | with_reducible apply Dev.Only.step (Dev.axFclr_only _ _)
      | with_reducible apply Dev.Only.step (Dev.trArm_only _ _)
      | with_reducible apply Dev.Only.wr
      | split)

theorem writeWord_but (d : Dev) (lvl v : Nat) (r : RegInfo) (i j : Nat) : Dev.Only 0x7ffffffffff ALLBUT d (d.writeWord lvl v r i j) := by
  unfold Dev.writeWord
  extract_lets e
  have h : Dev.Only 0x7ffffffffff ALLBUT d e := forEach_only _ _ _ (fun d f => writeField_but d lvl v f i j)
  split
  · exact h.trans ((Dev.lpWrite_only _ _ _).mono rfl rfl)
  · exact h

theorem writeWord_kst (d : Dev) (lvl v : Nat) (r : RegInfo) (i j : Nat) : Kst d (d.writeWord lvl v r i j) :=
  Kst.of (writeWord_but d lvl v r i j) rfl

theorem forEach_kst {α : Type} (l : List α) (d : Dev) (f : Dev → α → Dev) (h : ∀ d x, Kst d (f d x)) : Kst d (d.forEach l f) := by
  unfold Dev.forEach
  induction l generalizing d with
  | nil => exact rfl
  | cons x t ih => exact Kst.trans (h d x) (ih _)

/-- The boot is as before, but for the code of the engines. -/
def BootKept (d e : Dev) : Prop := ∃ p, e.boot = { d.boot with programs := p }

theorem BootKept.of {d e : Dev} (h : e.boot = d.boot) : BootKept d e := ⟨d.boot.programs, h⟩

theorem BootKept.trans {d e f : Dev} (h : BootKept d e) (h' : BootKept e f) : BootKept d f := by
  obtain ⟨p, hp⟩ := h
  obtain ⟨q, hq⟩ := h'
  exact ⟨q, by rw [hq, hp]⟩

/-- Loading the code of Reckoners again changes nothing else. -/
theorem reloadFreed_boot (s : State) (was : Dev) : BootKept s.dev (s.reloadFreed was).dev := by
  unfold State.reloadFreed
  generalize (List.range 16).filter _ = l
  induction l generalizing s with
  | nil => exact BootKept.of rfl
  | cons i t ih => exact BootKept.trans ⟨_, rfl⟩ (ih (s.reloadRk i))

/-- A register write that restarts nothing keeps the boot but for the code of the engines, the device state and the other read-only
registers. -/
theorem regWrite_but (s : State) (lvl a v : Nat) (h : ∀ r i j, findReg a = some (r, i, j) → r.fields.elem .CR_BOOTSEL_RESTART = false) :
    Dev.Only 0x7ffffffffff ALLBUT s.dev (s.regWrite lvl a v).dev ∧ BootKept s.dev (s.regWrite lvl a v).dev := by
  unfold State.regWrite
  extract_lets d
  split
  · exact ⟨(Dev.protRefuse_only d 0 a lvl true).mono rfl rfl, .of ((Dev.protRefuse_only d 0 a lvl true).parts .boot rfl)⟩
  · split
    · exact ⟨(Dev.busError_only d a lvl 1 true).mono rfl rfl, .of ((Dev.busError_only d a lvl 1 true).parts .boot rfl)⟩
    · split
      · exact ⟨(Dev.busError_only d a lvl 0 true).mono rfl rfl, .of ((Dev.busError_only d a lvl 0 true).parts .boot rfl)⟩
      · split
        · exact ⟨Dev.Only.refl _ _ _, .of rfl⟩
        · split
          · exact ⟨(Dev.busError_only d a lvl 2 true).mono rfl rfl, .of ((Dev.busError_only d a lvl 2 true).parts .boot rfl)⟩
          · next r i j hf _ _ =>
            have hw := writeWord_but d lvl v r i j
            have hb := (Dev.writeWord_only d lvl v r i j).parts .boot rfl
            have hn := h r i j hf
            generalize d.writeWord lvl v r i j = e at hw hb
            unfold State.writeActs
            split
            · exact ⟨hw.trans ((Dev.addBuffers_only _ _ _).mono rfl rfl), .of (((Dev.addBuffers_only _ _ _).parts .boot rfl).trans hb)⟩
            · split
              · exact ⟨hw.trans ((State.reloadFreed_only (State.mk e s.dram s.pending) d).dev.mono rfl rfl),
                  (BootKept.of hb).trans (reloadFreed_boot (State.mk e s.dram s.pending) d)⟩
              · split
                · exact ⟨hw.trans ((State.skip_only (State.mk e s.dram s.pending) i).dev.mono rfl rfl),
                    .of (((State.skip_only (State.mk e s.dram s.pending) i).dev.parts .boot rfl).trans hb)⟩
                · rw [hn, Bool.false_and]
                  exact ⟨hw, .of hb⟩

theorem mayRestart_frozen {d : Dev} (h : Frozen d) : d.mayRestart = false := by
  unfold Dev.mayRestart; rcases h with h | h <;> rw [h] <;> rfl

theorem restartWrite_frozen (s : State) (h : Frozen s.dev) : s.restartWrite = s := by
  unfold State.restartWrite; rw [mayRestart_frozen h]; rfl

theorem writeActs_kst (s : State) (was : Dev) (v : Nat) (r : RegInfo) (i : Nat) (h : Frozen s.dev) :
    Kst s.dev (s.writeActs was v r i).dev := by
  unfold State.writeActs
  split
  · exact Kst.of (Dev.addBuffers_only _ _ _) rfl
  · split
    · exact Kst.of (State.reloadFreed_only _ _).dev rfl
    · split
      · exact Kst.of (State.skip_only _ _).dev rfl
      · split
        · rw [restartWrite_frozen s h]; exact rfl
        · exact rfl

theorem prot_kst (d : Dev) (sp a l : Nat) (w : Bool) : Kst d (d.protRefuse sp a l w) := Kst.of (Dev.protRefuse_only d sp a l w) rfl

theorem bus_kst (d : Dev) (a l c : Nat) (w : Bool) : Kst d (d.busError a l c w) := Kst.of (Dev.busError_only d a l c w) rfl

theorem regWrite_kst (s : State) (lvl a v : Nat) (h : Frozen s.dev) : Kst s.dev (s.regWrite lvl a v).dev := by
  unfold State.regWrite
  extract_lets d
  split
  · exact prot_kst d _ _ _ _
  · split
    · exact bus_kst d _ _ _ _
    · split
      · exact bus_kst d _ _ _ _
      · split
        · exact rfl
        · split
          · exact bus_kst d _ _ _ _
          · next r i j _ _ _ =>
            have hw := writeWord_kst d lvl v r i j
            exact Kst.trans hw (writeActs_kst _ _ _ _ _ (h.congr hw))

theorem refusal_state (d : Dev) (was : DState) (r : Role) (q : XppReq) (h : reqState q was = false) :
    ∃ n, d.refusal was r q = some n := by
  unfold Dev.refusal
  rw [h]
  split
  · exact ⟨_, rfl⟩
  · split
    · exact ⟨_, rfl⟩
    · exact ⟨.state, by simp⟩

theorem request_kst (s : State) (x : XppIn) (hq : ∀ d : Dev, Frozen d → reqState x.req d.st = false) (h : Frozen s.dev) :
    Kst s.dev (s.request x).dev := by
  unfold State.request
  have hr : Kst s.dev (s.dev.receive x).1 := Kst.of (Dev.receive_only _ _) rfl
  generalize s.dev.receive x = p at hr
  obtain ⟨d, got⟩ := p
  dsimp only at hr ⊢
  split
  · exact hr
  · exact Kst.trans hr (Kst.of (Dev.answerDup_only _ _ _) rfl)
  · next r =>
    obtain ⟨n, hn⟩ := refusal_state d d.st r x.req (hq d (h.congr hr))
    rw [hn]
    exact Kst.trans hr (Kst.of (Dev.refuse_only _ _ _ _) rfl)

theorem bootAt_frozen {d : Dev} (h : Frozen d) (b : BootStage) : d.bootAt b = false := by
  unfold Dev.bootAt; rcases h with h | h <;> simp [h]

theorem carry_kst (d : Dev) (r : Role) (x : XppIn) (h : reqState x.req .shutdown = true) : Kst d (d.carry r x).1 := by
  obtain ⟨hd, q⟩ := x
  cases q <;> first
    | (simp [reqState, DState.running, DState.idleToHold] at h; done)
    | (unfold Dev.carry; exact Kst.of (Dev.helloFrom_only _ _ _) rfl)
    | (unfold Dev.carry; exact rfl)
    | (unfold Dev.carry; simp only; split <;> exact rfl)
    | (unfold Dev.carry; exact Kst.of (Dev.orderQueue_only _ _) rfl)
    | (unfold Dev.carry; exact Kst.of (Dev.orderQuery_only _ _) rfl)
    | (unfold Dev.carry; exact Kst.of (Dev.orderRead_only _ _) rfl)
    | (unfold Dev.carry; exact Kst.of (Dev.orderCancel_only _ _ _) rfl)
    | (unfold Dev.carry dataOr; simp only; split <;> exact rfl)

theorem carryOut_kst (s : State) (r : Role) (x : XppIn) (h : reqState x.req .shutdown = true) : Kst s.dev (s.carryOut r x).dev := by
  have hne : x.req ≠ .restart := fun e => by rw [e] at h; cases h
  have hk : Kst s.dev (s.dev.carryOut r x) := by
    unfold Dev.carryOut
    have hc := carry_kst s.dev r x h
    generalize s.dev.carry r x = p at hc
    obtain ⟨d, o⟩ := p
    dsimp only at hc ⊢
    split
    · exact Kst.trans (Kst.trans hc (Kst.of (Dev.reply_only _ _ _ _) rfl)) (Kst.of (Dev.resendKept_only _ _ _) rfl)
    · exact Kst.trans hc (Kst.of (Dev.reply_only _ _ _ _) rfl)
  unfold State.carryOut
  dsimp only
  split
  · next hx => exact absurd hx hne
  · exact Kst.trans hk (Kst.of (State.reloadFreed_only (State.mk (s.dev.carryOut r x) s.dram s.pending) s.dev).dev rfl)
  · exact hk

theorem carryLive_kst (s : State) (a : Live) (h : s.dev.st = .shutdown) : Kst s.dev (s.carryLive a).dev := by
  unfold State.carryLive
  split
  · exact rfl
  · rw [h]
    split
    · next hq => exact carryOut_kst _ _ _ hq
    · exact Kst.of (Dev.refuse_only _ _ _ _) rfl

theorem foldLive_kst (l : List Live) (s : State) (h : s.dev.st = .shutdown) : Kst s.dev (l.foldl State.carryLive s).dev := by
  induction l generalizing s with
  | nil => exact rfl
  | cons a t ih =>
    have h1 := carryLive_kst s a h
    exact Kst.trans h1 (ih _ (by rw [h1.st, h]))

theorem heatShutdown_kst (d : Dev) (c : Nat) (a b : Thr) (h : Frozen d) : Kst d (d.heatShutdown c a b) := by
  unfold Dev.heatShutdown
  rw [mayRestart_frozen h]
  simp only [Bool.and_false]; exact rfl

theorem converted_kst (d : Dev) (l : List U16) (h : Frozen d) : Kst d (d.converted l) := by
  unfold Dev.converted
  extract_lets busy d1 d2 d3
  have h3 : Kst d d3 := by
    have h1 : Kst d d1 := forEach_kst _ _ _ (fun d r => by split <;> simp [Kst])
    have h2 : Kst d1 d2 := by simp [Kst, d2]
    have h3 : Kst d2 d3 := by
      show Kst d2 (if _ then _ else _)
      split
      · exact Kst.of (Dev.compensate_only _) rfl
      · exact rfl
    exact Kst.trans (Kst.trans h1 h2) h3
  split
  · unfold Dev.sampleTemp
    extract_lets e0 e was e1 tj td tm e2
    have hs : Kst e e.sampleTj := Kst.of (Dev.sampleTj_only e) rfl
    have he : Kst d e2 := Kst.trans h3 hs
    have hf := h.congr he
    have := heatShutdown_kst e2 1 was.tjShut tj hf
    exact Kst.trans he (Kst.trans this (heatShutdown_kst _ _ _ _ (hf.congr this)))
  · exact h3

theorem freqChange_kst (d : Dev) (us : Nat) (h : Frozen d) : Kst d (d.freqChange us) := by
  unfold Dev.freqChange
  have : d.st.freqStates = false := by rcases h with h | h <;> rw [h] <;> rfl
  rw [if_pos (by simp [this])]; exact rfl

theorem window_st (s : State) (reqs : List XppIn) (h : s.dev.st = .shutdown) : (s.window reqs).dev.st = .shutdown := by
  have hst : ∀ {e : Dev}, Kst s.dev e → e.st = .shutdown := fun k => by rw [k.st, h]
  have hev : ∀ d : Dev, d.st = .shutdown → d.stateEvents.1.st = .shutdown := by
    intro d hd
    unfold Dev.stateEvents
    split
    · unfold Dev.enterShutdown; exact enter_st _ _
    · have hr : d.holdDue = false := by unfold Dev.holdDue; rw [hd]; rfl
      rw [hr]
      simp only [Bool.false_eq_true, if_false]
      unfold Dev.progress
      have h2 : d.retireSent.st = .shutdown := by rw [(Kst.of (Dev.retireSent_only d) rfl).st, hd]
      simp only [h2]
  unfold State.window
  extract_lets was d
  have hd : Kst s.dev d := by show Kst s.dev (if _ then _ else _); split <;> first | exact rfl | exact Kst.of (Dev.clearUnderrun_only _) rfl
  have hr : Kst d (d.receiveAll reqs).1 := Kst.of (Dev.receiveAll_only _ _) rfl
  generalize d.receiveAll reqs = p at hr
  obtain ⟨d1, live1, dups⟩ := p
  dsimp only at hr ⊢
  have k1 := Kst.trans hd hr
  clear_value d
  clear hd hr
  have hr := Kst.of (Dev.refuseBy_only d1 (fun d a => d.refusal was a.1 a.2.req) live1) rfl
  generalize d1.refuseBy (fun d a => d.refusal was a.1 a.2.req) live1 = p at hr
  obtain ⟨d2, live2⟩ := p
  dsimp only at hr ⊢
  have k2 := Kst.trans k1 hr
  have hr := hev d2 (hst k2)
  generalize d2.stateEvents = p at hr
  obtain ⟨d3, taken⟩ := p
  dsimp only at hr ⊢
  have k3 : d3.st = .shutdown := hr
  generalize (fun (_ : Dev) (a : Live) => if taken && reqOrdersState a.2.req then some Nack.precedence else none) = f1
  have hr := Kst.of (Dev.refuseBy_only d3 f1 live2) rfl
  generalize d3.refuseBy f1 live2 = p at hr
  obtain ⟨d4, live4⟩ := p
  dsimp only at hr ⊢
  have k4 := hr.st.trans k3
  generalize (fun (d : Dev) (a : Live) => if d.inhibited a.2.req then some Nack.inhibited else none) = f2
  have hr := Kst.of (Dev.refuseBy_only d4 f2 live4) rfl
  generalize d4.refuseBy f2 live4 = p at hr
  obtain ⟨d5, live5⟩ := p
  dsimp only at hr ⊢
  have k5 := hr.st.trans k4
  have hr := Kst.of (Dev.settle_only d5 live5) rfl
  generalize d5.settle live5 = p at hr
  obtain ⟨d6, live6⟩ := p
  dsimp only at hr ⊢
  have k6 := hr.st.trans k5
  have hl := foldLive_kst live6 { s with dev := d6 } k6
  generalize live6.foldl State.carryLive { s with dev := d6 } = s7 at hl
  have k7 : s7.dev.st = .shutdown := hl.st.trans k6
  have hh : s7.dev.holdOrdered = s7.dev := by unfold Dev.holdOrdered; rw [k7]; rfl
  rw [hh]
  have k8 := (Kst.of (Dev.freeEntries_only s7.dev) rfl : Kst s7.dev s7.dev.freeEntries).st.trans k7
  exact (forEach_kst dups _ (fun d x => d.answerDup x.1 x.2) (fun d x => Kst.of (Dev.answerDup_only _ _ _) rfl)).st.trans k8

theorem frozen_kst (c : Instr) (s t : State) (h : Frozen s.dev) (hg : c ≠ .powerGood)
    (h1 : s.dev.st = .shutdown → c ≠ .powerOnReset ∧ c ≠ .inputReset9v8 ∧ c ≠ .overvoltageDisconnect) (he : exec c s = .next t) :
    t.dev.st = s.dev.st := by
  have hb := bootAt_frozen h
  have hm := mayRestart_frozen h
  cases c with
  | powerGood => exact absurd rfl hg
  | powerOnReset =>
    rcases h with h | h
    · cases next_inj he; rw [h]; rfl
    · exact absurd rfl (h1 h).1
  | inputReset9v8 =>
    rcases h with h | h
    · have := next_inj he
      subst this
      have hw : (s.dev.wr .AON_PWR_VMIN (min (s.dev.rd .AON_PWR_VMIN) 9800)).st = .off := by
        unfold Dev.st at h ⊢; simp [h]
      unfold State.railsOff
      rw [if_pos hw, h]; exact hw
    · exact absurd rfl (h1 h).2.1
  | overvoltageDisconnect =>
    rcases h with h | h
    · have := next_inj he
      subst this
      unfold State.railsOff
      rw [if_pos h]
    · exact absurd rfl (h1 h).2.2
  | debugReset =>
    have := next_inj he
    rw [← this, hm]; simp
  | crRestart lvl =>
    have := next_inj he
    rw [← this]
    split
    · rw [restartWrite_frozen s h]
    · exact (Kst.of (Dev.protRefuse_only _ _ _ _ _) rfl).st
  | crownFirstPass p b => have := next_inj he; rw [← this, hb]; rfl
  | dramTraining e =>
    rw [← next_inj he]
    simp only [hb]; rfl
  | secondPass b => have := next_inj he; rw [← this, hb]; rfl
  | contentCheck => have := next_inj he; rw [← this, hb]; rfl
  | engineRelease => have := next_inj he; rw [← this, hb]; rfl
  | rodBuild => have := next_inj he; rw [← this, hb]; rfl
  | bootComplete => have := next_inj he; rw [← this, hb]; rfl
  | start hd jn m o =>
    rw [← next_inj he]
    exact (request_kst s _ (fun d hd => by rcases hd with hd | hd <;> rw [hd] <;> rfl) h).st
  | stop hd =>
    rw [← next_inj he]
    exact (request_kst s _ (fun d hd => by rcases hd with hd | hd <;> rw [hd] <;> rfl) h).st
  | hold hd =>
    rw [← next_inj he]
    exact (request_kst s _ (fun d hd => by rcases hd with hd | hd <;> rw [hd] <;> rfl) h).st
  | resume hd =>
    rw [← next_inj he]
    exact (request_kst s _ (fun d hd => by rcases hd with hd | hd <;> rw [hd] <;> rfl) h).st
  | enterSafe hd =>
    rw [← next_inj he]
    exact (request_kst s _ (fun d hd => by rcases hd with hd | hd <;> rw [hd] <;> rfl) h).st
  | restart hd =>
    rw [← next_inj he]
    exact (request_kst s _ (fun d hd => by rcases hd with hd | hd <;> rw [hd] <;> rfl) h).st
  | shutdownAck hd =>
    rw [← next_inj he]
    exact (request_kst s _ (fun d hd => by rcases hd with hd | hd <;> rw [hd] <;> rfl) h).st
  | evaluationPeriodEnd a reqs =>
    rw [← next_inj he]
    split
    · rfl
    · next hn => rw [h.resolve_left hn]; exact window_st s reqs (h.resolve_left hn)
  | tempConversionDone l =>
    rw [← next_inj he]; exact (converted_kst _ _ h).st
  | freqChange us => rw [← next_inj he]; exact (freqChange_kst _ _ h).st
  | registerWrite l a v => rw [← next_inj he]; exact (regWrite_kst _ _ _ _ h).st
  | _ => exact (Kst.of (exec_only _ s t he).dev (by simp only [cmdFields]; rfl)).st

theorem mr_pending (u : State) (c : Nat) (st : DState) : (u.moduleReset c st).pending = u.pending := by unfold State.moduleReset; rfl

theorem mr_dram (u : State) (c : Nat) (st : DState) : (u.moduleReset c st).dram = ⟨[], []⟩ := by unfold State.moduleReset; rfl

theorem mr_dev (u : State) (c : Nat) (st : DState) : (u.moduleReset c st).dev = u.dev.moduleReset c st := by unfold State.moduleReset; rfl

theorem wr_same (d : Dev) (f : Fld) (v i j : Nat) (p : Part) : p.sameDev d (d.wr f v i j) := by
  cases p <;> first | rfl | trivial

theorem mr_keep (d : Dev) (c : Nat) (st : DState) (p : Part) (h : p ≠ .boot) (h' : p ≠ .evr) :
    p.sameDev d.resetDomains (d.moduleReset c st) := by
  have h2 := (Dev.keepInputs_only d.resetDomains.newBoot d).parts p (Nat.zero_testBit _)
  have h1 := (Dev.newBoot_only d.resetDomains).parts p (by cases p <;> first | rfl | exact absurd rfl h | exact absurd rfl h')
  exact Part.sameDev_trans p h1 (Part.sameDev_trans p h2 (Part.sameDev_trans p (wr_same _ _ _ _ _ p) (wr_same _ _ _ _ _ p)))

theorem resetDomains_jobs (d : Dev) : d.resetDomains.jobs = [] := by unfold Dev.resetDomains; rfl

theorem resetDomains_lanes (d : Dev) : d.resetDomains.lanes = [] := by unfold Dev.resetDomains; rfl

theorem resetDomains_pins (d : Dev) : d.resetDomains.pins = ⟨false, d.pins.href, false, none, none⟩ := by unfold Dev.resetDomains; rfl

theorem newBoot_stage (d : Dev) : d.newBoot.boot.stage = .powerGood := by unfold Dev.newBoot; rfl

theorem newBoot_rd (d : Dev) (f : Fld) (i j : Nat) (h : f ≠ .AON_TEMP_VALID) :
    d.newBoot.rd f i j = ((((((d.wr .AON_STATE_STOPREQ 0).wr .AON_EVLOST_N 0).wr .CR_STAT_IMG 2).wr .CR_PRES_SESSION 0).wr .CR_PRES_SPAN 0).wr .CR_PRES_DBG 0).rd f i j := by
  have hy : (d.forEach (List.range 10) (fun d s => d.wr .AON_TEMP_VALID 0 s)).rd f i j = d.rd f i j :=
    (Dev.Only.forEach (c := 0) (r := fieldsMask [.AON_TEMP_VALID]) _ (fun _ _ h => Dev.Only.wr _ _ _ _ rfl h) (Dev.Only.refl _ _ _)).regs f
      (fieldsMask_not (by simp [h])) i j
  unfold Dev.newBoot
  generalize d.forEach (List.range 10) (fun d s => d.wr .AON_TEMP_VALID 0 s) = y at hy ⊢
  refine Eq.trans (b := ((((((y.wr .AON_STATE_STOPREQ 0).wr .AON_EVLOST_N 0).wr .CR_STAT_IMG 2).wr .CR_PRES_SESSION 0).wr .CR_PRES_SPAN 0).wr .CR_PRES_DBG 0).rd f i j) rfl ?_
  simp only [Dev.rd_wr, hy]

theorem resetDomains_rd (d : Dev) (f : Fld) (i j : Nat) (h1 : f ≠ .AON_PDSTAT_ON) (h2 : f ≠ .AON_TDEM_BUSY) :
    d.resetDomains.rd f i j = if keptInReset f then d.rd f i j else (fldSpec f).reset := by
  unfold Dev.resetDomains
  simp only [Dev.rd_wr]
  rw [if_neg (fun h => h2 h.1), if_neg (fun h => h1 h.1)]
  exact Dev.rd_filter d keptInReset f i j

abbrev bootFs : List Fld := [.AON_STATE_STOPREQ, .AON_EVLOST_N, .AON_TEMP_VALID, .CR_STAT_IMG, .CR_PRES_SESSION, .CR_PRES_SPAN, .CR_PRES_DBG]

abbrev inFs : List Fld := [.AON_STATE_HOLDC, .XPP_DIN_HOLD, .XPP_DIN_INH]

theorem newBoot_keep (d : Dev) {f : Fld} (hf : f ∉ bootFs) (i j : Nat) : d.newBoot.rd f i j = d.rd f i j :=
  (Dev.newBoot_only d).keep bootFs rfl hf i j

theorem keepInputs_keep (d o : Dev) {f : Fld} (hf : f ∉ inFs) (i j : Nat) : (d.keepInputs o).rd f i j = d.rd f i j :=
  (Dev.keepInputs_only d o).keep inFs rfl hf i j

theorem moduleReset_rd (d : Dev) (c : Nat) (st : DState) (f : Fld) (i j : Nat) (h : f ∉ bootFs) (h' : f ∉ inFs)
    (h1 : f ≠ .AON_STATE_STATE) (h2 : f ≠ .CR_STAT_RSTCAUSE) :
    (d.moduleReset c st).rd f i j = d.resetDomains.rd f i j := by
  unfold Dev.moduleReset
  simp only [Dev.rd_wr]
  rw [if_neg (fun h => h1 h.1), if_neg (fun h => h2 h.1), keepInputs_keep _ _ h', newBoot_keep _ h]

theorem forTemp (d : Dev) (n k : Nat) :
    (d.forEach (List.range n) (fun d s => d.wr .AON_TEMP_VALID 0 s)).rd .AON_TEMP_VALID k = if k < n then 0 else d.rd .AON_TEMP_VALID k := by
  unfold Dev.forEach
  induction n with
  | zero => simp
  | succ n ih =>
    rw [List.range_succ, List.foldl_append]
    simp only [List.foldl_cons, List.foldl_nil, Dev.rd_wr, ih]
    by_cases h : k = n
    · subst h; simp
    · simp [h]; split <;> split <;> first | rfl | omega

theorem newBoot_valid (d : Dev) (k : Nat) (h : k < 10) : d.newBoot.rd .AON_TEMP_VALID k = 0 := by
  have this : (d.forEach (List.range 10) (fun d s => d.wr .AON_TEMP_VALID 0 s)).rd .AON_TEMP_VALID k = 0 := by rw [forTemp, if_pos h]
  unfold Dev.newBoot
  generalize d.forEach (List.range 10) (fun d s => d.wr .AON_TEMP_VALID 0 s) = y at this ⊢
  refine Eq.trans ?_ this
  exact (by simp : ((((((y.wr .AON_STATE_STOPREQ 0).wr .AON_EVLOST_N 0).wr .CR_STAT_IMG 2).wr .CR_PRES_SESSION 0).wr .CR_PRES_SPAN 0).wr .CR_PRES_DBG 0).rd .AON_TEMP_VALID k = y.rd .AON_TEMP_VALID k)

theorem resetTo (s t : State) (cause : Nat) (st : DState) (hc : cause < 8) (fs : List Fld) (u : State)
    (hu : ∀ f, keptInReset f = true → f ∉ fs → f ∉ bootFs → ∀ i j, u.dev.rd f i j = s.dev.rd f i j)
    (h1 : u.dev.rd .XPP_DIN_HOLD = s.dev.rd .XPP_DIN_HOLD) (h2 : u.dev.rd .XPP_DIN_INH = s.dev.rd .XPP_DIN_INH)
    (hp : u.pending = s.pending) (ht : t = u.moduleReset cause st) : ResetTo st cause fs s t := by
  subst ht
  have hst : ∀ x : DState, DState.ofCode (x.code % 2 ^ 4) = x := by intro x; cases x <;> rfl
  unfold ResetTo
  refine ⟨?_, ?_, ?_, ?_, ?_, ?_, ?_, ?_, ?_, ?_, ?_, ?_, ?_, ?_, ?_, ?_⟩
  rotate_right
  · rw [mr_pending, hp]
  · simp only [State.moduleReset, Dev.moduleReset, Dev.st, Dev.rd_wr]
    exact hst st
  · simp only [State.moduleReset, Dev.moduleReset, Dev.rd_wr]
    exact Nat.mod_eq_of_lt (show cause < 2 ^ 4 by omega)
  · intro f i j hk hf1 hf2
    have hb : f ∉ bootFs := by
      intro hm
      simp only [bootFs, List.mem_cons, List.not_mem_nil, or_false] at hm
      rcases hm with rfl | rfl | rfl | rfl | rfl | rfl | rfl <;> (revert hk; decide)
    have hi : f ∉ inFs := by
      intro hm
      simp only [inFs, List.mem_cons, List.not_mem_nil, or_false] at hm
      rcases hm with rfl | rfl | rfl
      · revert hk; decide
      · exact hf1 rfl
      · exact hf2 rfl
    rw [show (u.moduleReset cause st).dev = u.dev.moduleReset cause st from rfl,
      moduleReset_rd _ _ _ f i j hb hi (fun h => by subst h; revert hk; decide) (fun h => by subst h; revert hk; decide),
      resetDomains_rd _ _ _ _ (fun h => by subst h; revert hk; decide) (fun h => by subst h; revert hk; decide), hk]
    rfl
  · rw [← h1]; simp only [State.moduleReset, Dev.moduleReset, Dev.keepInputs, Dev.rd_wr]; rfl
  · rw [← h2]; simp only [State.moduleReset, Dev.moduleReset, Dev.keepInputs, Dev.rd_wr]; rfl
  · intro f i j hk hf hm
    simp only [List.mem_cons, List.not_mem_nil, or_false, not_or] at hm
    have hb : f ∉ bootFs := by simp [bootFs, hm]
    have hi : f ∉ inFs := by
      simp only [inFs, List.mem_cons, List.not_mem_nil, or_false, not_or]
      refine ⟨hm.2.1, ?_, ?_⟩ <;> (intro h; subst h; revert hk; decide)
    rw [show (u.moduleReset cause st).dev = u.dev.moduleReset cause st from rfl,
      moduleReset_rd _ _ _ f i j hb hi hm.1 (by simp [hm]), resetDomains_rd _ _ _ _ (by simp [hm]) (by simp [hm]), hk]
    exact hu f hk hf hb i j
  · intro k hk
    simp only [State.moduleReset, Dev.moduleReset, Dev.rd_wr]
    exact (keepInputs_keep _ _ (by decide) k 0).trans (newBoot_valid _ k hk)
  · rw [show (u.moduleReset cause st).dev = u.dev.moduleReset cause st from rfl,
      moduleReset_rd _ _ _ _ _ _ (by decide) (by decide) (by decide) (by decide)]
    simp only [Dev.resetDomains, Dev.rd_wr]; rfl
  · simp only [State.moduleReset, Dev.moduleReset, Dev.rd_wr]
    refine (keepInputs_keep _ _ (by decide) 0 0).trans ?_
    rw [newBoot_rd _ _ _ _ (by decide)]
    simp
  · simp only [State.moduleReset, Dev.moduleReset, Dev.rd_wr]
    refine (keepInputs_keep _ _ (by decide) 0 0).trans ?_
    rw [newBoot_rd _ _ _ _ (by decide)]
    simp
  · simp only [State.moduleReset, Dev.moduleReset, Dev.rd_wr]
    refine (keepInputs_keep _ _ (by decide) 0 0).trans ?_
    rw [newBoot_rd _ _ _ _ (by decide)]
    simp
  · rw [mr_dev]
    have h1 := (Dev.keepInputs_only u.dev.resetDomains.newBoot u.dev).parts .boot rfl
    have h2 : (u.dev.moduleReset cause st).boot = (u.dev.resetDomains.newBoot.keepInputs u.dev).boot := by
      unfold Dev.moduleReset
      exact (Part.sameDev_trans .boot (wr_same _ _ _ _ _ .boot) (wr_same _ _ _ _ _ .boot) : _)
    rw [h2, h1, newBoot_stage]
  · rw [mr_dev]; exact (mr_keep u.dev cause st .jobs (by decide) (by decide)).trans (resetDomains_jobs _)
  · rw [mr_dev]; exact (mr_keep u.dev cause st .lanes (by decide) (by decide)).trans (resetDomains_lanes _)
  · exact mr_dram _ _ _

theorem setPlim_rd (d : Dev) (f : Fld) (i j : Nat) (h : f ≠ .AB_PLIM_CUR) : d.setPlim.rd f i j = d.rd f i j := by
  unfold Dev.setPlim; simp [h]

theorem supply_deferred (l : List NorOp) (d : Dev) : (d.forEach l Dev.norDo).pwr = d.pwr := by
  unfold Dev.forEach
  induction l generalizing d with
  | nil => rfl
  | cons x t ih => exact (ih _).trans ((Dev.norDo_only d x).parts .pwr rfl)

theorem rf_rd (d e : Dev) (h : e.rf = d.rf) (f : Fld) (i j : Nat) : e.rd f i j = d.rd f i j := by simp only [Dev.rd, h]

theorem conv_each (rs : List U16) (busy n : Nat) (d : Dev) (k : Nat) :
    ((d.forEach (rs.zipIdx n) (fun d r =>
      if bitOf busy r.2 then (d.wr .AON_TEMP_T r.1.toNat r.2).wr .AON_TEMP_VALID 1 r.2 else d)).rd .AON_TEMP_T k =
        if h : n ≤ k ∧ k - n < rs.length ∧ bitOf busy k = true then (rs[k - n]'h.2.1).toNat else d.rd .AON_TEMP_T k) ∧
    ((d.forEach (rs.zipIdx n) (fun d r =>
      if bitOf busy r.2 then (d.wr .AON_TEMP_T r.1.toNat r.2).wr .AON_TEMP_VALID 1 r.2 else d)).rd .AON_TEMP_VALID k =
        if n ≤ k ∧ k - n < rs.length ∧ bitOf busy k = true then 1 else d.rd .AON_TEMP_VALID k) := by
  induction rs generalizing n d with
  | nil => simp [Dev.forEach]
  | cons x t ih =>
    have e : ∀ d' : Dev, d'.forEach ((x :: t).zipIdx n) (fun d r =>
        if bitOf busy r.2 then (d.wr .AON_TEMP_T r.1.toNat r.2).wr .AON_TEMP_VALID 1 r.2 else d) =
        (if bitOf busy n then (d'.wr .AON_TEMP_T x.toNat n).wr .AON_TEMP_VALID 1 n else d').forEach (t.zipIdx (n + 1)) (fun d r =>
          if bitOf busy r.2 then (d.wr .AON_TEMP_T r.1.toNat r.2).wr .AON_TEMP_VALID 1 r.2 else d) := fun _ => rfl
    rw [e, (ih (n + 1) _).1, (ih (n + 1) _).2]
    have hx : x.toNat % 2 ^ (fldSpec Fld.AON_TEMP_T).width = x.toNat := Nat.mod_eq_of_lt (show _ < 2 ^ 16 from x.isLt)
    by_cases hk : k = n
    · subst hk
      have n1 : ¬ (k + 1 ≤ k ∧ k - (k + 1) < t.length ∧ bitOf busy k = true) := fun h => by omega
      rw [dif_neg n1, if_neg n1]
      by_cases hb : bitOf busy k = true
      · rw [if_pos hb, dif_pos ⟨Nat.le_refl _, by simp, hb⟩, if_pos ⟨Nat.le_refl _, by simp, hb⟩]
        simp [hx]; (first | done | rfl | decide | omega)
      · rw [if_neg hb, dif_neg (fun h => hb h.2.2), if_neg (fun h => hb h.2.2)]
        exact ⟨rfl, rfl⟩
    · have e1 : (if bitOf busy n then (d.wr .AON_TEMP_T x.toNat n).wr .AON_TEMP_VALID 1 n else d).rd .AON_TEMP_T k = d.rd .AON_TEMP_T k := by
        split <;> simp [hk]
      have e2 : (if bitOf busy n then (d.wr .AON_TEMP_T x.toNat n).wr .AON_TEMP_VALID 1 n else d).rd .AON_TEMP_VALID k = d.rd .AON_TEMP_VALID k := by
        split <;> simp [hk]
      rw [e1, e2]
      by_cases hc : n + 1 ≤ k ∧ k - (n + 1) < t.length ∧ bitOf busy k = true
      · have hc' : n ≤ k ∧ k - n < (x :: t).length ∧ bitOf busy k = true := ⟨by omega, by simp; omega, hc.2.2⟩
        rw [dif_pos hc, dif_pos hc', if_pos hc, if_pos hc']
        have : k - n = (k - (n + 1)) + 1 := by omega
        refine ⟨?_, rfl⟩
        congr 1
        simp only [this, List.getElem_cons_succ]
      · have hc' : ¬ (n ≤ k ∧ k - n < (x :: t).length ∧ bitOf busy k = true) := by
          intro hh; apply hc; refine ⟨by omega, ?_, hh.2.2⟩
          have := hh.2.1; simp at this; omega
        rw [dif_neg hc, dif_neg hc', if_neg hc, if_neg hc']
        exact ⟨rfl, rfl⟩

theorem or1023 (n : Nat) : (n ||| 1023) % 1024 = 1023 := by
    apply Nat.eq_of_testBit_eq; intro i
    rw [show (1024 : Nat) = 2 ^ 10 from rfl, Nat.testBit_mod_two_pow, show (1023 : Nat) = 2 ^ 10 - 1 from rfl, Nat.testBit_or, Nat.testBit_two_pow_sub_one]
    by_cases h : i < 10 <;> simp [h]

theorem shed_step (l : List Nat) (step : Nat) (d : Dev) (f : Fld) (hf : f ∈ [Fld.AB_LADDER_STEP, .AB_EPOCH_N]) (i j) :
    (d.forEach l (fun d q => if (shedOn step).elem q then d.shedQuad q else d.restoreQuad q)).rd f i j = d.rd f i j := by
  unfold Dev.forEach
  induction l generalizing d with
  | nil => rfl
  | cons q t ih =>
    refine (ih _).trans ?_
    simp only [List.mem_cons, List.not_mem_nil, or_false] at hf
    rcases hf with rfl | rfl <;> dsimp only <;> split
    · exact (Dev.shedQuad_only d q).rd _ _ _ rfl
    · exact (Dev.restoreQuad_only d q).rd _ _ _ rfl
    · exact (Dev.shedQuad_only d q).rd _ _ _ rfl
    · exact (Dev.restoreQuad_only d q).rd _ _ _ rfl

theorem ladder_bound (o u p l ph : Nat) (h : o ≤ 6) : (ladderNext o u p l ph).1 ≤ 6 ∧ (ladderNext o u p l ph).1 ≤ o + 1 ∧ o ≤ (ladderNext o u p l ph).1 + 1 := by
  unfold ladderNext
  split
  · simp; omega
  · split
    · split <;> simp <;> omega
    · simp; omega

theorem ladder_step (d : Dev) (pwr : Nat) (h : d.rd .AB_LADDER_STEP ≤ 6) :
    (d.ladder pwr).rd .AB_LADDER_STEP ≤ 6 ∧ (d.ladder pwr).rd .AB_LADDER_STEP ≤ d.rd .AB_LADDER_STEP + 1 ∧
      d.rd .AB_LADDER_STEP ≤ (d.ladder pwr).rd .AB_LADDER_STEP + 1 := by
  have hb := ladder_bound (d.rd .AB_LADDER_STEP) d.aba.under pwr (d.rd .AB_PLIM_CUR) (d.rd .AB_MSLOPE_PHYST) h
  unfold Dev.ladder
  extract_lets old
  have hb' : (ladderNext old d.aba.under pwr (d.rd .AB_PLIM_CUR) (d.rd .AB_MSLOPE_PHYST)).1 ≤ 6 ∧ _ := hb
  revert hb hb'
  cases ladderNext old d.aba.under pwr (d.rd .AB_PLIM_CUR) (d.rd .AB_MSLOPE_PHYST) with
  | mk step under =>
  intro hb0 hb
  clear hb0
  simp -zeta only
  extract_lets vmod d1 d2
  have h1 : d1.rd .AB_LADDER_STEP = d.rd .AB_LADDER_STEP := by simp [d1, Dev.updAba]
  have h2 : d2.rd .AB_LADDER_STEP = step := by
    refine (shed_step _ _ _ _ (by decide) _ _).trans ?_
    simp
    exact Nat.mod_eq_of_lt (show step < 2 ^ 3 by omega)
  split
  · rw [h1]; omega
  · rw [((by simp [h2] : (d2.raise Ev.AB_STEP (le 1 step ++ le 2 pwr ++ le 2 (d2.rd .AB_PLIM_CUR))).rd .AB_LADDER_STEP = step))]
    exact hb

theorem enter_ready (d : Dev) (s : DState) : (d.enter s).pins.ready = s.readyHigh := by
  unfold Dev.enter
  dsimp only
  rw [sendIf_pins]
  cases s <;> rfl

theorem toRing_form (d : Dev) (r : Role) (h : XppHdr) : ∃ x, d.toRing r h = { d with xpp := x } := by
  unfold Dev.toRing
  split
  · exact ⟨d.xpp, rfl⟩
  · exact ⟨_, rfl⟩

theorem taken_form (d : Dev) (r : Role) (h : XppHdr) (b : Bool) : ∃ x, d.taken r h b = { d with xpp := x } := by
  unfold Dev.taken
  dsimp only
  obtain ⟨x, hx⟩ := toRing_form (d.setPeer r { (d.peer r) with ref := some h.seq.toNat, accepted := (⟨h.seq.toNat, .none⟩ :: (if b then [] else (d.peer r).accepted)).take 64, heard := d.now }) r h
  exact ⟨x, hx⟩

theorem receive_got {d : Dev} {x : XppIn} {r : Role} (h : (d.receive x).2 = .got r) : ∃ y, (d.receive x).1 = { d with xpp := y } := by
  unfold Dev.receive at h ⊢
  split at h
  · cases h
  · next hn =>
    rw [if_neg hn]
    split at h
    · cases h
    next hw =>
    rw [if_neg hw]
    cases hr : d.roleOf x.hdr with
    | none => rw [hr] at h; cases h
    | some r' =>
      rw [hr] at h
      dsimp only at h ⊢
      unfold Dev.sequence at h ⊢
      dsimp only at h ⊢
      by_cases hq : x.req = .hello
      · rw [if_pos hq] at h ⊢
        dsimp only
        split
        · exact taken_form _ _ _ _
        · exact ⟨d.xpp, rfl⟩
      · rw [if_neg hq] at h ⊢
        cases hp : (d.peer r').ref with
        | none => rw [hp] at h; cases h
        | some ref =>
          rw [hp] at h
          dsimp only at h ⊢
          split
          · exact taken_form _ _ _ _
          · next hs =>
            rw [if_neg hs] at h
            split at h <;> cases h

theorem takes_form {s : State} {h : XppHdr} {q : XppReq} {r : Role} (ht : s.dev.Takes h q r) :
    ∃ y, s.dev.receive ⟨h, q⟩ = ({ s.dev with xpp := y }, .got r) ∧
      s.request ⟨h, q⟩ = (if q = .hold then
        { (State.mk { s.dev with xpp := y } s.dram s.pending).carryOut r ⟨h, q⟩ with
          dev := ((State.mk { s.dev with xpp := y } s.dram s.pending).carryOut r ⟨h, q⟩).dev.holdOrdered }
        else (State.mk { s.dev with xpp := y } s.dram s.pending).carryOut r ⟨h, q⟩) := by
  obtain ⟨h1, h2, h3, h4⟩ := ht
  obtain ⟨y, hy⟩ := receive_got h1
  have hr : s.dev.receive ⟨h, q⟩ = ({ s.dev with xpp := y }, .got r) := Prod.ext hy h1
  refine ⟨y, hr, ?_⟩
  unfold State.request
  rw [hr]
  dsimp only
  have e1 : Dev.refusal { s.dev with xpp := y } (Dev.st { s.dev with xpp := y }) r q = s.dev.refusal s.dev.st r q := rfl
  have e2 : Dev.inhibited { s.dev with xpp := y } q = s.dev.inhibited q := by cases q <;> rfl
  have e3 : (((Dev.shutDue { s.dev with xpp := y }).isSome || Dev.holdDue { s.dev with xpp := y }) && reqOrdersState q) = false := h4
  rw [e1, h2]
  dsimp only
  rw [e3, e2, h3]
  simp only [Bool.false_eq_true, if_false]

theorem takes_req {s : State} {h : XppHdr} {q : XppReq} {r : Role} (ht : s.dev.Takes h q r) (hq : q ≠ .hold) (hn : q ≠ .restart)
    (hm : ∀ m, q ≠ .rkRelease m) :
    ∃ y, s.dev.receive ⟨h, q⟩ = ({ s.dev with xpp := y }, .got r) ∧
      s.request ⟨h, q⟩ = { s with dev := Dev.carryOut { s.dev with xpp := y } r ⟨h, q⟩ } := by
  obtain ⟨y, h1, h2⟩ := takes_form ht
  refine ⟨y, h1, ?_⟩
  rw [h2, if_neg hq]
  unfold State.carryOut
  dsimp only
  split
  · exact absurd rfl hn
  · next m => exact absurd rfl (hm m)
  · rfl

theorem carryOut_plain {d : Dev} {r : Role} {x : XppIn} (hq : ∀ n, x.req ≠ .noteResend n) :
    d.carryOut r x = (d.carry r x).1.reply r x.hdr.seq.toNat (d.carry r x).2 := by
  unfold Dev.carryOut
  generalize d.carry r x = p
  obtain ⟨e, o⟩ := p
  dsimp only
  split
  · next hx => exact absurd (by assumption) (hq _)
  · rfl

theorem send_head (d : Dev) (r : Role) (m : XppMsg) (h : d.up r = true) : ∃ n, (d.send r m).out.head? = some (.xpp r n m) := by
  unfold Dev.send
  rw [if_pos h]
  exact ⟨_, rfl⟩

theorem answer_head (d : Dev) (r : Role) (seq : Nat) (m : XppMsg) (hm : ∀ a b, m ≠ .nack a b) (h : d.up r = true) :
    ∃ n, (d.answer r seq m).out.head? = some (.xpp r n m) := by
  unfold Dev.answer
  dsimp only
  cases m with
  | nack a b => exact absurd rfl (hm a b)
  | _ => exact send_head _ _ _ h

theorem up_of {d e : Dev} (h : e.rd .XPP_PEER_UP = d.rd .XPP_PEER_UP) (r : Role) : e.up r = d.up r := by unfold Dev.up; rw [h]

theorem bitOf_withBit_mod (n b w : Nat) (h : b < w) : bitOf (withBit n b % 2 ^ w) b = true := by
  rw [bitOf_mod _ _ _ h, bitOf_withBit]; simp

theorem bitOf_withoutBit_mod (n b w : Nat) (h : b < w) : bitOf (withoutBit n b % 2 ^ w) b = false := by
  rw [bitOf_mod _ _ _ h, bitOf_withoutBit]; simp

theorem setHold_held (d : Dev) (h : HoldBit) (v : Bool) : (d.setHold h v).held h = v := by
  unfold Dev.setHold
  split
  · assumption
  · dsimp only
    unfold Dev.held
    rw [Dev.sendStatus_rd]
    cases v
    · simp only [Bool.false_eq_true, if_false, Dev.clrBit, Dev.rd_wr, and_self, if_true]
      exact bitOf_withoutBit_mod _ _ 8 (by cases h <;> decide)
    · simp only [if_true, Dev.setBit, Dev.rd_wr, and_self]
      exact bitOf_withBit_mod _ _ 8 (by cases h <;> decide)

theorem setHold_other (d : Dev) (h k : HoldBit) (v : Bool) (hk : k ≠ h) : (d.setHold h v).held k = d.held k := by
  unfold Dev.setHold
  split
  · rfl
  · dsimp only
    unfold Dev.held
    rw [Dev.sendStatus_rd]
    have hne : k.num ≠ h.num := by cases h <;> cases k <;> first | exact absurd rfl hk | decide
    have hlt : k.num < 8 := by cases k <;> decide
    cases v
    · simp only [Bool.false_eq_true, if_false, Dev.clrBit, Dev.rd_wr, and_self, if_true]
      rw [show (fldSpec Fld.AON_STATE_HOLDC).width = 8 from rfl, bitOf_mod _ _ _ hlt, bitOf_withoutBit]; simp [hne]
    · simp only [if_true, Dev.setBit, Dev.rd_wr, and_self]
      rw [show (fldSpec Fld.AON_STATE_HOLDC).width = 8 from rfl, bitOf_mod _ _ _ hlt, bitOf_withBit]; simp [hne]

theorem holdCause_held (d : Dev) (h : HoldBit) : (d.holdCause h).held h = true := setHold_held d h true

theorem clearHold_held (d : Dev) (h : HoldBit) : (d.clearHold h).held h = false := by
  unfold Dev.clearHold
  dsimp only
  split
  · unfold Dev.held; rw [(Dev.ringHold_only _ _).rd _ _ _ rfl]; exact setHold_held d h false
  · exact setHold_held d h false

theorem sendAll_mem (d : Dev) (r : Role) (m : XppMsg) (h : d.up r = true) : ∃ n, Output.xpp r n m ∈ (d.sendAll m).out := by
  have up1 : ∀ (d : Dev) r', (d.send r' m).up r = d.up r := fun d r' => up_of (by rw [Dev.send_rd]) r
  have mono : ∀ (d : Dev) (r' : Role) (o : Output), o ∈ d.out → o ∈ (d.send r' m).out := by
    intro d r' o ho
    unfold Dev.send
    split
    · exact List.mem_cons_of_mem _ ho
    · exact ho
  have hit : ∀ d : Dev, d.up r = true → ∃ n, Output.xpp r n m ∈ (d.send r m).out := by
    intro d hd
    obtain ⟨n, hn⟩ := send_head d r m hd
    refine ⟨n, ?_⟩
    cases ho : (d.send r m).out with
    | nil => rw [ho] at hn; cases hn
    | cons a t => rw [ho] at hn; simp at hn; simp [hn]
  unfold Dev.sendAll
  cases r with
  | pc => obtain ⟨n, hn⟩ := hit d h; exact ⟨n, mono _ _ _ (mono _ _ _ hn)⟩
  | js => obtain ⟨n, hn⟩ := hit (d.send .pc m) (by rw [up1]; exact h); exact ⟨n, mono _ _ _ hn⟩
  | mt => exact hit ((d.send .pc m).send .js m) (by rw [up1, up1]; exact h)

theorem peer_setPeer (d : Dev) (r : Role) (p : Peer) : (d.setPeer r p).peer r = p := by
  unfold Dev.peer Dev.setPeer; exact Tab.at_put_same _ _ _

theorem toRing_peer (d : Dev) (r r' : Role) (h : XppHdr) : (d.toRing r h).peer r' = d.peer r' := by
  unfold Dev.toRing; split <;> rfl

theorem taken_kept (d : Dev) (r : Role) (h : XppHdr) (b : Bool) :
    ((d.taken r h b).peer r).kept = (d.peer r).kept ∧ ((d.taken r h b).peer r).gone = (d.peer r).gone := by
  unfold Dev.taken
  dsimp only
  rw [toRing_peer, peer_setPeer]
  exact ⟨rfl, rfl⟩

theorem receive_kept {d : Dev} {x : XppIn} {r : Role} (h : (d.receive x).2 = .got r) :
    ((d.receive x).1.peer r).kept = (d.peer r).kept ∧ ((d.receive x).1.peer r).gone = (d.peer r).gone := by
  unfold Dev.receive at h ⊢
  split at h
  · cases h
  · next hn =>
    rw [if_neg hn]
    split at h
    · cases h
    next hw =>
    rw [if_neg hw]
    cases hr : d.roleOf x.hdr with
    | none => rw [hr] at h; cases h
    | some r' =>
      rw [hr] at h
      dsimp only at h ⊢
      unfold Dev.sequence at h ⊢
      dsimp only at h ⊢
      by_cases hq : x.req = .hello
      · rw [if_pos hq] at h ⊢
        dsimp only at h ⊢
        cases h
        split
        · exact taken_kept _ _ _ _
        · exact ⟨rfl, rfl⟩
      · rw [if_neg hq] at h ⊢
        cases hp : (d.peer r').ref with
        | none => rw [hp] at h; cases h
        | some ref =>
          rw [hp] at h
          dsimp only at h ⊢
          split
          · next hs => rw [if_pos hs] at h; cases h; exact taken_kept _ _ _ _
          · next hs =>
            rw [if_neg hs] at h
            split at h <;> cases h

theorem takes_gives {c : Instr} {h : XppHdr} {q : XppReq} {r : Role} {s : State} {p : State → Prop}
    (hc : exec c s = .next (s.request ⟨h, q⟩)) (ht : s.dev.Takes h q r) (hq : q ≠ .hold) (hn : q ≠ .restart)
    (hm : ∀ m, q ≠ .rkRelease m) (hr : ∀ n, q ≠ .noteResend n)
    (H : ∀ d e o, Dev.Only (partsMask [.xpp]) 0 s.dev d → (∃ y, d = { s.dev with xpp := y }) → d.carry r ⟨h, q⟩ = (e, o) → p { s with dev := e.reply r h.seq.toNat o }) : Gives c s p := by
  obtain ⟨y, h1, h2⟩ := takes_req ht hq hn hm
  refine gives_next hc ?_
  rw [h2, carryOut_plain hr]
  exact H { s.dev with xpp := y } _ _ (Dev.Only.with_xpp _ rfl (Dev.Only.refl _ _ _)) ⟨y, rfl⟩ rfl

theorem acked_reply {r : Role} {h : XppHdr} {s : State} {e : Dev} (hu : e.rd .XPP_PEER_UP = s.dev.rd .XPP_PEER_UP) (data : List Byte) :
    Acked r h data s { s with dev := e.reply r h.seq.toNat (.ack data) } := by
  intro hs
  exact answer_head e r _ _ (by simp) (by rw [up_of hu]; exact hs)

theorem reply_rd (e : Dev) (r : Role) (n : Nat) (o : Done) (f : Fld) (i j : Nat) (hf : f ≠ .XPP_NCNT_NACK) : (e.reply r n o).rd f i j = e.rd f i j :=
  (Dev.reply_only e r n o).keep [.XPP_NCNT_NACK] rfl (by simp [hf]) i j

theorem reply_st (e : Dev) (r : Role) (n : Nat) (o : Done) : (e.reply r n o).st = e.st := by unfold Dev.st; rw [reply_rd _ _ _ _ _ _ _ (by decide)]

theorem reply_part (e : Dev) (r : Role) (n : Nat) (o : Done) (p : Part) (h : p ≠ .xpp) (h' : p ≠ .out) : p.sameDev e (e.reply r n o) :=
  (Dev.reply_only e r n o).parts p (by cases p <;> first | rfl | exact absurd rfl h | exact absurd rfl h')

theorem refusal_none {d : Dev} {was : DState} {r : Role} {q : XppReq} (h : d.refusal was r q = none) :
    reqWhole q = true ∧ reqFrom q r = true ∧ reqState q was = true ∧ d.reqRange q = true := by
  unfold Dev.refusal at h
  split at h
  · cases h
  · split at h
    · cases h
    · split at h
      · cases h
      · split at h
        · cases h
        · next h1 h2 h3 h4 => simp at h1 h2 h3 h4; exact ⟨h1, h2.1, h3.1, h4⟩

theorem ack_only (e : Dev) (r : Role) (n : Nat) (data : List Byte) : Dev.Only 0x10000000100 0 e (e.reply r n (.ack data)) := by
  show Dev.Only _ _ e (e.answer r n (.ack n data))
  unfold Dev.answer
  dsimp only
  refine Dev.Only.trans ?_ ((Dev.send_only _ _ _).mono (c' := 0x10000000100) (r' := 0) rfl rfl)
  exact (Dev.setPeer_only _ _ _).mono rfl rfl

theorem ack_keep {s : State} {e : Dev} {ps : List Part} {fs : List Fld} (r : Role) (n : Nat) (data : List Byte)
    (h : Dev.Only (partsMask ps) (fieldsMask fs) s.dev e) (h1 : (0x10000000100 : Nat) &&& partsMask ps = 0x10000000100) :
    Unchanged ps fs s { s with dev := e.reply r n (.ack data) } := by
  refine State.Only.unchanged (c := partsMask ps) (r := fieldsMask fs) ⟨h.trans ((ack_only e r n data).mono h1 (Nat.zero_and _)), fun _ => rfl, rfl, id⟩ ?_ ?_
  · exact Nat.and_self _
  · exact Nat.and_self _

theorem refused_reply {r : Role} {h : XppHdr} {s : State} {e : Dev} (hu : e.rd .XPP_PEER_UP = s.dev.rd .XPP_PEER_UP) (n : Nack) :
    Refused r h n s { s with dev := e.reply r h.seq.toNat (.nack n) } := by
  intro hs
  have key : ∀ (d : Dev) (q : Nat) (c : Nat), d.up r = true → ∃ n, (d.answer r q (.nack q c)).out.head? = some (.xpp r n (.nack q c)) := by
    intro d q c hd
    unfold Dev.answer
    dsimp only
    refine send_head _ _ _ ?_
    split
    · exact (up_of (by unfold Dev.inc Dev.addSat; rw [Dev.rd_wr, if_neg (by simp)]; rfl) r).trans hd
    · exact hd
  exact key e _ _ (by rw [up_of hu]; exact hs)

theorem reply_keep {s : State} {e : Dev} {ps : List Part} {fs : List Fld} (r : Role) (n : Nat) (o : Done)
    (h : Dev.Only (partsMask ps) (fieldsMask fs) s.dev e) (h1 : (0x10000000100 : Nat) &&& partsMask ps = 0x10000000100) (h2 : fieldsMask [.XPP_NCNT_NACK] &&& fieldsMask fs = fieldsMask [.XPP_NCNT_NACK]) :
    Unchanged ps fs s { s with dev := e.reply r n o } := by
  refine State.Only.unchanged (c := partsMask ps) (r := fieldsMask fs) ⟨h.trans ((Dev.reply_only e r n o).mono h1 h2), fun _ => rfl, rfl, id⟩ ?_ ?_
  · exact Nat.and_self _
  · exact Nat.and_self _

theorem fold_all {α : Type} (l : List α) (g : Dev → α → Dev) (P : Dev → α → Prop) (h1 : ∀ d x, P (g d x) x) (h2 : ∀ d x y, P d y → P (g d x) y) (d : Dev) :
    ∀ x, (x ∈ l ∨ P d x) → P (d.forEach l g) x := by
  unfold Dev.forEach
  induction l generalizing d with
  | nil => intro x hx; rcases hx with h | h; cases h; exact h
  | cons a t ih =>
    intro x hx
    refine ih _ x ?_
    rcases hx with h | h
    · cases h with
      | head => exact Or.inr (h1 _ _)
      | tail _ h => exact Or.inl h
    · exact Or.inr (h2 _ _ _ h)

theorem fold_keep {α β : Type} (l : List α) (g : Dev → α → Dev) (P : Dev → β) (h : ∀ d x, x ∈ l → P (g d x) = P d) (d : Dev) : P (d.forEach l g) = P d := by
  unfold Dev.forEach
  induction l generalizing d with
  | nil => rfl
  | cons a t ih => exact (ih (fun d x hx => h d x (List.mem_cons_of_mem _ hx)) _).trans (h d a (List.mem_cons_self ..))

theorem flag_false {d : Dev} {f : Fld} {i j : Nat} (h : d.rd f i j = 0) : d.flag f i j = false := by unfold Dev.flag; rw [h]; rfl

theorem flag_true {d : Dev} {f : Fld} {i j : Nat} (h : d.rd f i j ≠ 0) : d.flag f i j = true := by unfold Dev.flag; simpa using h

theorem norStart_now (d : Dev) (o : NorOp) (h : d.rd .AON_PWR_WARN = 0) : d.norStart o = d.norDo o := by
  unfold Dev.norStart Dev.flag; rw [h]; rfl

theorem norStart_defer (d : Dev) (o : NorOp) (h : d.rd .AON_PWR_WARN ≠ 0) : d.norStart o = { d with pwr := { d.pwr with deferred := d.pwr.deferred ++ [o] } } := by
  unfold Dev.norStart Dev.flag; rw [if_pos (by simpa using h)]

theorem enterHold_st (d : Dev) : d.enterHold.st = .hold := by unfold Dev.enterHold; exact enter_st _ _

def JobsAll (φ : Nat → Bool → Prop) (d : Dev) : Prop := ∀ j ∈ d.jobs, φ j.jn j.finishing

theorem JobsAll.congr {φ} {d e : Dev} (h : JobsAll φ d) (he : e.jobs = d.jobs) : JobsAll φ e := by unfold JobsAll; rw [he]; exact h

theorem JobsAll.of {φ} {c r : Nat} {d e : Dev} (h : JobsAll φ d) (ho : Dev.Only c r d e) (hc : c.testBit (Part.ctorIdx .jobs) = false) : JobsAll φ e := h.congr (ho.parts .jobs hc)

theorem JobsAll.updJob {φ} {d : Dev} (h : JobsAll φ d) (n : Nat) (f : Job → Job) (hf : ∀ j, (f j).jn = j.jn) (hg : ∀ j, φ j.jn j.finishing → φ j.jn (f j).finishing) : JobsAll φ (d.updJob n f) := by
  intro j hj
  unfold Dev.updJob at hj
  obtain ⟨k, hk, rfl⟩ := List.mem_map.mp hj
  split
  · rw [hf]; exact hg k (h k hk)
  · exact h k hk

theorem JobsAll.forEach {φ} {α : Type} (l : List α) (f : Dev → α → Dev) (hf : ∀ d x, JobsAll φ d → JobsAll φ (f d x)) {d : Dev} (h : JobsAll φ d) : JobsAll φ (d.forEach l f) := by
  unfold Dev.forEach
  induction l generalizing d with
  | nil => exact h
  | cons a t ih => exact ih (hf _ _ h)

theorem endJob_jobs (d : Dev) (n : Nat) (st : JobState) (re : Nat) : (d.endJob n st re).jobs =
    ((d.updJob n (fun j => { j with reason := re })).updJob n (fun j => { j with st := st })).jobs.filter (fun j => j.jn != n) := by
  unfold Dev.endJob
  dsimp only
  have : ((d.updJob n (fun j => { j with reason := re })).setJobSt n st).jobs = ((d.updJob n (fun j => { j with reason := re })).updJob n (fun j => { j with st := st })).jobs :=
    (Dev.sendJobStatus_only ((d.updJob n (fun j => { j with reason := re })).updJob n (fun j => { j with st := st })) n).parts .jobs rfl
  rw [this]

theorem JobsAll.endJob {φ} {d : Dev} (h : JobsAll φ d) (n : Nat) (st : JobState) (re : Nat) : JobsAll φ (d.endJob n st re) := by
  intro j hj
  rw [endJob_jobs] at hj
  have hj := (List.mem_filter.mp hj).1
  exact JobsAll.updJob (JobsAll.updJob h n (fun j => { j with reason := re }) (fun _ => rfl) (fun _ h => h)) n (fun j => { j with st := st }) (fun _ => rfl) (fun _ h => h) j hj

theorem endJob_gone (d : Dev) (n : Nat) (st : JobState) (re : Nat) : JobsAll (fun m _ => m ≠ n) (d.endJob n st re) := by
  intro j hj
  rw [endJob_jobs] at hj
  simpa using (List.mem_filter.mp hj).2

theorem JobsAll.maybeDone {φ} {d : Dev} (h : JobsAll φ d) (n : Nat) : JobsAll φ (d.maybeDone n) := by
  unfold Dev.maybeDone
  split
  · dsimp only
    split
    · split
      · exact h.endJob _ _ _
      · split
        · exact h
        · exact h.endJob _ _ _
    · exact h
  · exact h

theorem JobsAll.dropLines {φ} {d : Dev} (h : JobsAll φ d) (n lo hi : Nat) : JobsAll φ (d.dropLines n lo hi) := by
  unfold Dev.dropLines Dev.freeEntries
  dsimp only
  have h0 : JobsAll φ ({ d with fire := { d.fire with
      again := d.fire.again.filter (fun l => !(l.jn = n && decide (lo ≤ l.line) && decide (l.line < hi))),
      dropped := d.fire.dropped ++ [(255, n, lo, hi)] } } : Dev) := h
  have h1 := JobsAll.of h0 (Dev.passLines_only _ n lo hi) rfl
  have h2 := JobsAll.of h1 (Dev.retireSent_only _) rfl
  refine JobsAll.forEach _ _ (fun d x h => ?_) h2
  split
  · have h3 : JobsAll φ ({ (d.wr .FIRE_PL_ORGH_VALID 0 x.e) with fire := { (d.wr .FIRE_PL_ORGH_VALID 0 x.e).fire with
        order := (d.wr .FIRE_PL_ORGH_VALID 0 x.e).fire.order.filter (· != x.e),
        dropped := (d.wr .FIRE_PL_ORGH_VALID 0 x.e).fire.dropped.filter (fun y => y.2.1 != x.jn) } } : Dev) := h
    exact JobsAll.maybeDone h3 x.jn
  · exact h

theorem JobsAll.updRw {φ} {d : Dev} (h : JobsAll φ d) (i : Nat) (f : Rwy → Rwy) : JobsAll φ (d.updRw i f) := JobsAll.of h (Dev.updRw_only d i f) rfl

theorem JobsAll.slots {φ} {d : Dev} (h : JobsAll φ d) (f : Rwy → Rwy) :
    JobsAll φ (d.forEach (List.range 16) (fun d i => d.updRw i f)) :=
  JobsAll.forEach (List.range 16) _ (fun _ x h => JobsAll.updRw h x f) h

theorem JobsAll.fifos {φ} {d : Dev} (h : JobsAll φ d) (f : Lane → Lane) :
    JobsAll φ (d.forEach (List.range 64) (fun d n => d.updLane n f)) :=
  JobsAll.forEach (List.range 64) _ (fun d x h => JobsAll.of h (Dev.updLane_only d x f) rfl) h

theorem JobsAll.lowered {φ} {d : Dev} (h : JobsAll φ d) (n e lines m k : Nat) : JobsAll φ (((d.wr .FIRE_PL_LINES_L lines e).updJob n (fun j => { j with limit := some (min m (j.limit.getD m)) })).notPrinted n k) := by
  have h0 : JobsAll φ (d.wr .FIRE_PL_LINES_L lines e) := h
  generalize d.wr .FIRE_PL_LINES_L lines e = d0 at h0
  have h1 := JobsAll.updJob h0 n (fun j => { j with limit := some (min m (j.limit.getD m)) }) (fun _ => rfl) (fun _ h => h)
  generalize d0.updJob n (fun j => { j with limit := some (min m (j.limit.getD m)) }) = d1 at h1
  exact JobsAll.of h1 (Dev.notPrinted_only d1 n k) rfl

theorem JobsAll.lowerLines {φ} {d : Dev} (h : JobsAll φ d) (e l : Nat) : JobsAll φ (d.lowerLines e l) := by
  unfold Dev.lowerLines
  split
  · exact h
  · split
    · exact h
    · split
      · exact h
      · split
        · exact h
        · exact JobsAll.dropLines (JobsAll.fifos (JobsAll.slots (JobsAll.lowered h _ _ _ _ _) _) _) _ _ _

theorem JobsAll.endAfter {φ} {d : Dev} (h : JobsAll φ d) (n l : Nat) : JobsAll φ (d.endAfter n l) := by
  unfold Dev.endAfter
  dsimp only
  have h1 := JobsAll.updJob h n (fun j => { j with limit := some (min l (j.limit.getD l)) }) (fun _ => rfl) (fun _ h => h)
  have h2 := JobsAll.of h1 (Dev.cutFront_only _ n (l * Dev.pitchOf (d.updJob n (fun j => { j with limit := some (min l (j.limit.getD l)) })) n)) rfl
  split
  · exact h2.lowerLines _ _
  · exact h2.of (Dev.notPrinted_only _ _ _) rfl

theorem gone_job {d : Dev} {n : Nat} (h : JobsAll (fun m _ => m ≠ n) d) : d.job n = none := by
  unfold Dev.job
  rw [List.find?_eq_none]
  intro j hj
  simpa using h j hj

theorem dropAll_gone {d : Dev} {n : Nat} (h : JobsAll (fun m _ => m ≠ n) d) : JobsAll (fun m _ => m ≠ n) (((d.skipJob n).dropLines n 0 (2 ^ 32)).dropHeld n) :=
  JobsAll.of (JobsAll.dropLines (JobsAll.of h (Dev.skipJob_only _ _) rfl) _ _ _) (Dev.dropHeld_only _ _) rfl

theorem reply_jobs (e : Dev) (r : Role) (n : Nat) (o : Done) : (e.reply r n o).jobs = e.jobs := (reply_part e r n o .jobs (by decide) (by decide))

theorem job_congr {d e : Dev} (h : e.jobs = d.jobs) (n : Nat) : e.job n = d.job n := by unfold Dev.job; rw [h]

theorem gives_fn {s : State} {c : Instr} {f : Dev → Dev} {p : State → Prop} (h : exec c s = s.act f) {g : Dev} (hg : f s.dev = g) (hp : p { s with dev := g }) : Gives c s p := by
  refine gives_act h ?_; rw [hg]; exact hp

theorem reaches_act {c : Instr} {lvl : Lvl} {a : Nat} {s : State} {k : Dev → Dev} {p : State → Prop} (h : s.dev.Reaches lvl a)
    (hc : exec c s = s.act (·.ownWrite lvl a k)) (hp : p { s with dev := k s.dev }) : Gives c s p := by
  refine gives_next (t := { s with dev := k s.dev }) ?_ hp
  rw [hc]; unfold State.act; dsimp only; rw [ownWrite_reaches h]

def relStep (d : Dev) (i : Nat) : Dev :=
    let d := (d.clrBit .RKC_MITTEN_MIT i).updRk (fun k => { k with strikes := Tab.put k.strikes i none })
    ((d.wr .RKC_STRIKE_PENDING 0 i).powerQuad (i / 4)).raise Ev.RK_RELEASED (le 1 i)

theorem relStep_mit (d : Dev) (i k : Nat) : (relStep d i).rd .RKC_MITTEN_MIT = (d.clrBit .RKC_MITTEN_MIT i).rd .RKC_MITTEN_MIT := by
  unfold relStep
  dsimp only
  rw [(Dev.raise_only _ _ _).rd _ _ _ rfl, (Dev.powerQuad_only _ _).rd _ _ _ rfl]
  rw [Dev.rd_wr, if_neg (by simp)]
  rfl

theorem clr_mit (d : Dev) (i k : Nat) : bitOf ((d.clrBit .RKC_MITTEN_MIT i).rd .RKC_MITTEN_MIT) k = true → bitOf (d.rd .RKC_MITTEN_MIT) k = true ∧ k ≠ i := by
  simp only [Dev.clrBit, Dev.rd_wr, and_self, if_true]
  intro h
  unfold bitOf at h
  rw [Nat.testBit_mod_two_pow, Bool.and_eq_true] at h
  rw [testBit_withoutBit] at h
  simp at h
  exact ⟨h.2.1, h.2.2⟩

theorem release_mit (d : Dev) (m i : Nat) (hi : i < 16) (hb : bitOf m i = true) (hm : d.mittened i = true) : (d.releaseRk m).mittened i = false := by
  have := fold_all ((List.range 16).filter (fun i => bitOf m i && d.mittened i)) relStep (fun d i => d.mittened i = false) ?_ ?_ d i (Or.inl ?_)
  · exact this
  · intro d x
    cases h : (relStep d x).mittened x
    · rfl
    · unfold Dev.mittened at h; rw [relStep_mit _ _ x] at h; exact absurd rfl (clr_mit _ _ _ h).2
  · intro d x y hy
    cases h : (relStep d x).mittened y
    · rfl
    · unfold Dev.mittened at h hy; rw [relStep_mit _ _ x] at h; rw [(clr_mit _ _ _ h).1] at hy; cases hy
  · simp [hi, hb, hm]

theorem rd_wr_self (d : Dev) (f : Fld) (v i j : Nat) (h : v < 2 ^ (fldSpec f).width) : (d.wr f v i j).rd f i j = v := by
  rw [Dev.rd_wr, if_pos ⟨rfl, rfl, rfl⟩]; exact Nat.mod_eq_of_lt h

theorem dp_congr {d e : Dev} (h : e.dose = d.dose) (i : Nat) : e.dp i = d.dp i := by unfold Dev.dp; rw [h]

theorem rw_congr {d e : Dev} (h : e.rwy = d.rwy) (i : Nat) : e.rw i = d.rw i := by unfold Dev.rw; rw [h]

@[simp] theorem updDp_dp (d : Dev) (i : Nat) (f : Dose → Dose) : (d.updDp i f).dp i = f (d.dp i) := by simp [Dev.updDp, Dev.dp]

theorem updDp_ne (d : Dev) {i k : Nat} (f : Dose → Dose) (h : k ≠ i) : (d.updDp i f).dp k = d.dp k := by simp [Dev.updDp, Dev.dp, Tab.at_upd_ne _ _ h]

@[simp] theorem updRw_rw (d : Dev) (i : Nat) (f : Rwy → Rwy) : (d.updRw i f).rw i = f (d.rw i) := by simp [Dev.updRw, Dev.rw]

@[simp] theorem updDp_rd (d : Dev) (i : Nat) (g : Dose → Dose) (f a b) : (d.updDp i g).rd f a b = d.rd f a b := rfl

@[simp] theorem updRw_rd (d : Dev) (i : Nat) (g : Rwy → Rwy) (f a b) : (d.updRw i g).rd f a b = d.rd f a b := rfl

@[simp] theorem wr_dp (d : Dev) (f : Fld) (v i j k : Nat) : (d.wr f v i j).dp k = d.dp k := rfl

@[simp] theorem wr_rw (d : Dev) (f : Fld) (v i j k : Nat) : (d.wr f v i j).rw k = d.rw k := rfl

@[simp] theorem updRw_dp (d : Dev) (i : Nat) (g : Rwy → Rwy) (k) : (d.updRw i g).dp k = d.dp k := rfl

@[simp] theorem updDp_rw (d : Dev) (i : Nat) (g : Dose → Dose) (k) : (d.updDp i g).rw k = d.rw k := rfl

theorem fold_keep' {α β : Type} (l : List α) (g : Dev → α → Dev) (P : Dev → β) (d : Dev) (h : ∀ d x, P (g d x) = P d) : P (d.forEach l g) = P d :=
  fold_keep l g P (fun d x _ => h d x) d

theorem inc_rd (d : Dev) (f : Fld) (i j : Nat) : (d.inc f i j).rd f i j = min (d.rd f i j + 1) (2 ^ (fldSpec f).width - 1) := by
  unfold Dev.inc Dev.addSat
  refine rd_wr_self _ _ _ _ _ ?_
  have : 0 < 2 ^ (fldSpec f).width := Nat.pos_of_ne_zero (by simp)
  omega

theorem regionHolds_congr {d e : Dev} (h : ∀ f, f ∈ [Fld.NOC_PR_ATTR_EN, .NOC_PR_ATTR_SPACE, .NOC_PR_BASE_BASE, .NOC_PR_LIM_LIM, .NOC_PR_ATTR_WLVL, .NOC_PR_ATTR_RLVL, .AON_PDSTAT_ON] → ∀ i j, e.rd f i j = d.rd f i j)
    (sp a l : Nat) (w : Bool) : e.allowed sp a l w = d.allowed sp a l w := by
  have hx : e.regionHolds sp a = d.regionHolds sp a := by
    funext i
    unfold Dev.regionHolds Dev.flag
    rw [h .NOC_PR_ATTR_EN (by simp), h .NOC_PR_ATTR_SPACE (by simp), h .NOC_PR_BASE_BASE (by simp), h .NOC_PR_LIM_LIM (by simp)]
  unfold Dev.allowed Dev.region
  rw [hx]
  split
  · rw [h .NOC_PR_ATTR_WLVL (by simp), h .NOC_PR_ATTR_RLVL (by simp)]
  · rfl

theorem reaches_of {d e : Dev} {c r : Nat} (h : Dev.Only c r d e) (hr : r &&& fieldsMask [Fld.NOC_PR_ATTR_EN, .NOC_PR_ATTR_SPACE, .NOC_PR_BASE_BASE, .NOC_PR_LIM_LIM, .NOC_PR_ATTR_WLVL, .NOC_PR_ATTR_RLVL, .AON_PDSTAT_ON] = 0)
    (hv : c.testBit Part.variant.ctorIdx = false) {l : Lvl} {a : Nat} (hR : d.Reaches l a) : e.Reaches l a := by
  obtain ⟨ha, x, i, j, hf, hab, hd⟩ := hR
  have hk : ∀ f, f ∈ [Fld.NOC_PR_ATTR_EN, .NOC_PR_ATTR_SPACE, .NOC_PR_BASE_BASE, .NOC_PR_LIM_LIM, .NOC_PR_ATTR_WLVL, .NOC_PR_ATTR_RLVL, .AON_PDSTAT_ON] → ∀ i j, e.rd f i j = d.rd f i j := by
    intro f hf i j
    refine h.regs f ?_ i j
    have : (fieldsMask [Fld.NOC_PR_ATTR_EN, .NOC_PR_ATTR_SPACE, .NOC_PR_BASE_BASE, .NOC_PR_LIM_LIM, .NOC_PR_ATTR_WLVL, .NOC_PR_ATTR_RLVL, .AON_PDSTAT_ON]).testBit f.ctorIdx = true := by
      simp only [List.mem_cons, List.not_mem_nil, or_false] at hf
      rcases hf with rfl | rfl | rfl | rfl | rfl | rfl | rfl <;> decide
    have h2 := congrArg (fun n => Nat.testBit n f.ctorIdx) hr
    simp only [Nat.testBit_and, this, Bool.and_true, Nat.zero_testBit] at h2
    exact h2
  refine ⟨by rw [regionHolds_congr hk]; exact ha, x, i, j, hf, ?_, ?_⟩
  · unfold Dev.absent Dev.isA32 at hab ⊢; rw [show e.variant = d.variant from h.parts .variant hv]; exact hab
  · unfold Dev.domOn at hd ⊢; rw [hk .AON_PDSTAT_ON (by simp)]; exact hd

theorem memRead_write_same (m : Tab Nat Byte) (a : Nat) (b : Byte) : memRead (memWrite m a b) a = b := by unfold memRead memWrite; exact Tab.get_set_same _ _ _ _ _

theorem memRead_write_ne (m : Tab Nat Byte) {a k : Nat} (b : Byte) (h : k ≠ a) : memRead (memWrite m a b) k = memRead m k := by unfold memRead memWrite; exact Tab.get_set_ne _ _ _ _ _ h

theorem memRead_writeAll_out (m : Tab Nat Byte) (a : Nat) (bs : List Byte) (k : Nat) (h : k < a ∨ a + bs.length ≤ k) : memRead (memWriteAll m a bs) k = memRead m k := by
  induction bs generalizing m a with
  | nil => rfl
  | cons b t ih =>
    rw [memWriteAll, ih _ _ (by simp at h; omega), memRead_write_ne _ _ (by simp at h; omega)]

theorem memReadAll_writeAll (m : Tab Nat Byte) (a : Nat) (bs : List Byte) : memReadAll (memWriteAll m a bs) a bs.length = bs := by
  induction bs generalizing m a with
  | nil => rfl
  | cons b t ih =>
    rw [memWriteAll, List.length_cons, memReadAll, ih, memRead_writeAll_out _ _ _ _ (by omega), memRead_write_same]

theorem le_length (n v : Nat) : (le n v).length = n := by
  induction n generalizing v with
  | zero => rfl
  | succ n ih => simp [le, ih]

theorem leVal_le (n v : Nat) : leVal (le n v) = v % 256 ^ n := by
  induction n generalizing v with
  | zero => simp [le, leVal, Nat.mod_one]
  | succ n ih =>
    rw [le, leVal, ih]
    simp only [toByte, BitVec.toNat_ofNat]
    have h2 : v % (256 * 256 ^ n) = v % 256 + 256 * (v / 256 % 256 ^ n) := Nat.mod_mul
    rw [show 256 ^ (n + 1) = 256 * 256 ^ n from Nat.pow_succ', h2]
    have : v % 256 % 2 ^ 8 = v % 256 := Nat.mod_eq_of_lt (Nat.mod_lt _ (by decide))
    rw [this]

theorem dramWrite_reads (s : State) (a : Nat) (bs : List Byte) (bad : Bool) (hb : bs ≠ []) (hs : s.dev.spanOk a bs.length = true) :
    memReadAll (s.dramWrite a bs bad).dram.mem a bs.length = bs := by
  unfold State.dramWrite
  rw [if_neg (by simp [hb, hs])]
  exact memReadAll_writeAll _ _ _

theorem forEach_each {β : Type} (l : List Nat) (g : Dev → Nat → Dev) (P : Dev → Nat → Prop) (h1 : ∀ d x, P (g d x) x) (h2 : ∀ d x y, P d y → P (g d x) y)
    (d : Dev) : ∀ i ∈ l, P (d.forEach l g) i := fun i hi => fold_all l g P h1 h2 d i (Or.inl hi)

theorem lane_congr {d e : Dev} (h : e.lanes = d.lanes) (n : Nat) : e.lane n = d.lane n := by unfold Dev.lane; rw [h]

theorem updLane_lane (d : Dev) (n : Nat) (f : Lane → Lane) : (d.updLane n f).lane n = f (d.lane n) := by unfold Dev.lane Dev.updLane; exact Tab.at_upd_same _ _ _

theorem updLane_rd (d : Dev) (n : Nat) (g : Lane → Lane) (f : Fld) (i j : Nat) : (d.updLane n g).rd f i j = d.rd f i j := rfl

theorem wr_lane (d : Dev) (f : Fld) (v i j n : Nat) : (d.wr f v i j).lane n = d.lane n := rfl

theorem fold_inv {α : Type} (l : List α) (g : Dev → α → Dev) (Q : Dev → Prop) (P : Dev → α → Prop) (hq : ∀ d x, Q d → Q (g d x)) (h1 : ∀ d x, Q d → P (g d x) x)
    (h2 : ∀ d x y, Q d → P d y → P (g d x) y) (d : Dev) (h : Q d) : ∀ x, (x ∈ l ∨ P d x) → P (d.forEach l g) x := by
  unfold Dev.forEach
  induction l generalizing d with
  | nil => intro x hx; rcases hx with h | h; cases h; exact h
  | cons a t ih =>
    intro x hx
    refine ih _ (hq d a h) x ?_
    rcases hx with hx | hx
    · rcases List.mem_cons.1 hx with rfl | hx
      · exact Or.inr (h1 d x h)
      · exact Or.inl hx
    · exact Or.inr (h2 d a x h hx)

theorem vp_congr {d e : Dev} (h : e.vis = d.vis) (p : Nat) : e.vp p = d.vp p := by unfold Dev.vp; rw [h]

theorem updVp_vp (d : Dev) (p : Nat) (f : Vis → Vis) : (d.updVp p f).vp p = f (d.vp p) := by unfold Dev.vp Dev.updVp; exact Tab.at_upd_same _ _ _

theorem updVp_rd (d : Dev) (p : Nat) (g : Vis → Vis) (f : Fld) (i j : Nat) : (d.updVp p g).rd f i j = d.rd f i j := rfl

theorem wr_vp (d : Dev) (f : Fld) (v i j p : Nat) : (d.wr f v i j).vp p = d.vp p := rfl

theorem raise_vp (d : Dev) (e : EvCode) (bs : List Byte) (p : Nat) : (d.raise e bs).vp p = d.vp p := vp_congr ((Dev.raise_only d e bs).parts .vis rfl) p

theorem axIs_of {d : Dev} {a : Nat} {x : AxState} (h : d.rd .AX_STAT_STATE a = x.code) : d.axIs a x = true := by unfold Dev.axIs; simpa using h

theorem axIs_rd {d e : Dev} (a : Nat) (x : AxState) (h : e.rd .AX_STAT_STATE a = d.rd .AX_STAT_STATE a) : e.axIs a x = d.axIs a x := by unfold Dev.axIs; rw [h]

theorem axIs_code {d : Dev} {a : Nat} {x : AxState} (h : d.axIs a x = true) : d.rd .AX_STAT_STATE a = x.code := by unfold Dev.axIs at h; simpa using h

theorem axTo_is (d : Dev) (a : Nat) (x : AxState) : (d.axTo a x).axIs a x = true := axIs_of (by unfold Dev.axTo; exact rd_wr_self _ _ _ _ _ (by cases x <;> decide))

theorem ax_congr {d e : Dev} (h : e.axes = d.axes) (a : Nat) : e.ax a = d.ax a := by unfold Dev.ax; rw [h]

theorem updAx_ax (d : Dev) (a : Nat) (f : Axis → Axis) : (d.updAx a f).ax a = f (d.ax a) := by unfold Dev.ax Dev.updAx; exact Tab.at_upd_same _ _ _

theorem updAx_ne (d : Dev) {a k : Nat} (f : Axis → Axis) (h : k ≠ a) : (d.updAx a f).ax k = d.ax k := by unfold Dev.ax Dev.updAx; exact Tab.at_upd_ne _ _ h

theorem updAx_rd (d : Dev) (a : Nat) (g : Axis → Axis) (f : Fld) (i j : Nat) : (d.updAx a g).rd f i j = d.rd f i j := rfl

theorem wr_ax (d : Dev) (f : Fld) (v i j a : Nat) : (d.wr f v i j).ax a = d.ax a := rfl

theorem axTo_ax (d : Dev) (a k : Nat) (x : AxState) : (d.axTo a x).ax k = d.ax k := rfl

theorem updProf_ax (d : Dev) (a : Nat) (f : Prof → Prof) : (d.updProf a f).ax a = { d.ax a with prof := f (d.ax a).prof } := by
  unfold Dev.updProf; dsimp only; rw [wr_ax, updAx_ax]

theorem raise_ax (d : Dev) (e : EvCode) (bs : List Byte) (a : Nat) : (d.raise e bs).ax a = d.ax a := ax_congr ((Dev.raise_only d e bs).parts .axes rfl) a

theorem bit_lt (b : Bool) : bit b < 2 ^ 1 := by cases b <;> decide

theorem reqStop_set (d : Dev) (b : StopBit) : bitOf ((d.requestStop b).rd .AON_STATE_STOPREQ) b.num = true := by
  unfold Dev.requestStop
  dsimp only
  have h : bitOf ((d.setBit .AON_STATE_STOPREQ b.num).rd .AON_STATE_STOPREQ) b.num = true := by
    unfold Dev.setBit
    rw [Dev.rd_wr, if_pos ⟨rfl, rfl, rfl⟩]
    exact bitOf_withBit_mod _ _ _ (by cases b <;> decide)
  generalize d.setBit .AON_STATE_STOPREQ b.num = e at h ⊢
  split
  · rw [(Dev.raise_only _ _ _).rd _ _ _ rfl, (Dev.send_only _ _ _).rd _ _ _ (Nat.zero_testBit _)]; exact h
  · rw [(Dev.sendStatus_only _).rd _ _ _ (Nat.zero_testBit _), (Dev.raise_only _ _ _).rd _ _ _ rfl, (Dev.send_only _ _ _).rd _ _ _ (Nat.zero_testBit _)]; exact h

theorem fwd_mem (d : Dev) (e : EvCode) (bs : List Byte) (r : Role) (o : Output) (ho : o ∈ d.out) : o ∈ (d.forwardEvent e bs r).out := by
  unfold Dev.forwardEvent
  split
  · unfold Dev.send
    split
    · exact List.mem_cons_of_mem _ ho
    · exact ho
  · exact ho

theorem raise_mem (d : Dev) (e : EvCode) (bs : List Byte) (o : Output) (ho : o ∈ d.out) : o ∈ (d.raise e bs).out := by
  have h1 : ((d.setBit .AON_EVPEND_PEND e.sub e.cls.idx).traceNote e.code).out = d.out := (Dev.traceNote_only (d.setBit .AON_EVPEND_PEND e.sub e.cls.idx) e.code).parts .out rfl
  rw [← h1] at ho
  unfold Dev.raise
  dsimp only
  generalize Dev.traceNote _ _ = d1 at ho ⊢
  generalize BufRing.push _ _ _ _ = p
  obtain ⟨ring, lost⟩ := p
  refine fwd_mem _ _ _ _ _ (fwd_mem _ _ _ _ _ (fwd_mem _ _ _ _ _ ?_))
  cases lost
  · exact ho
  · exact ho

end Sys2Proof.Machine
end

