-- ==== Sys2Proof/Laws/Bytes.lean ====
section
/-! SUPPORT. What the operations do to the bytes of DRAM. -/
namespace Sys2Proof.Machine

-- One theorem at a time: checked side by side, their threads exceed the memory that the check allows.
set_option Elab.async false
set_option exponentiation.threshold 600

theorem KeepsOutside.refl (P : Nat → Prop) (s t : State) (h : t.dram.mem = s.dram.mem) : KeepsOutside P s t := fun a _ => by rw [h]

theorem KeepsOutside.trans {P : Nat → Prop} {s t u : State} (h : KeepsOutside P s t) (k : KeepsOutside P t u) : KeepsOutside P s u := fun a ha => (k a ha).trans (h a ha)

theorem KeepsOutside.mono {P Q : Nat → Prop} {s t : State} (h : KeepsOutside P s t) (hq : ∀ a, P a → Q a) : KeepsOutside Q s t := fun a ha => h a (fun hp => ha (hq a hp))

theorem dramWrite_keeps (s : State) (a : Nat) (bs : List Byte) (bad : Bool) : KeepsOutside (InBytes a bs.length) s (s.dramWrite a bs bad) := by
  intro k hk
  unfold State.dramWrite
  split
  · rfl
  · refine memRead_writeAll_out _ _ _ _ ?_
    unfold InBytes at hk
    omega

theorem memReadAll_length (m : Tab Nat Byte) (a n : Nat) : (memReadAll m a n).length = n := by
  induction n generalizing a with
  | zero => rfl
  | succ n ih => unfold memReadAll; rw [List.length_cons, ih]

theorem doneWords_length (spec12 : List Byte) (x y : Nat) (h : spec12.length = 12) : (spec12 ++ le 4 x ++ le 4 y).length = 20 := by
  simp [le_length, h]

theorem descDone_keeps (s : State) (r a : Nat) (bs spec12 : List Byte) (st tr mv crcv : Nat) (h : spec12.length = 12) :
    KeepsOutside (InBytes a 32) s (s.descDone r a bs spec12 st tr mv crcv) := by
  unfold State.descDone
  dsimp only
  refine KeepsOutside.trans (KeepsOutside.mono (dramWrite_keeps s (a + 12) _ false) ?_) (KeepsOutside.trans (KeepsOutside.mono (dramWrite_keeps _ a (le 4 (withoutBit (fieldAt bs 0 4) 31)) false) ?_) (KeepsOutside.refl _ _ _ rfl))
  · intro k hk; rw [doneWords_length _ _ _ h] at hk; unfold InBytes at hk ⊢; omega
  · intro k hk; rw [le_length] at hk; unfold InBytes at hk ⊢; omega

theorem descFail_keeps (s : State) (r a : Nat) : KeepsOutside (InBytes (a + 24) 4) s (s.descFail r a) := by
  unfold State.descFail
  dsimp only
  refine KeepsOutside.trans (KeepsOutside.mono (dramWrite_keeps s (a + 24) _ false) ?_) (KeepsOutside.refl _ _ _ rfl)
  intro k hk; rw [le_length] at hk; exact hk

theorem ringDesc_form {s : State} {r a : Nat} {bs : List Byte} (h : s.ringDesc r = some (a, bs)) : a = s.dev.descAddr r (s.dev.rd .DMA_RHEAD_IDX r) ∧ bs.length = 32 := by
  unfold State.ringDesc at h
  split at h
  · cases h
  · dsimp only at h
    split at h
    · cases h; exact ⟨rfl, memReadAll_length _ _ _⟩
    · cases h

theorem descMove_keeps (s : State) (r : Nat) (bs data : List Byte) (poison : Bool) : KeepsOutside (InBytes (descBuf bs) (descLen bs)) s (s.descMove r bs data poison).1 := by
  unfold State.descMove
  dsimp only
  split
  · exact KeepsOutside.refl _ _ _ rfl
  · refine KeepsOutside.mono (dramWrite_keeps _ _ _ _) ?_
    intro k hk
    unfold InBytes at hk ⊢
    rw [List.length_take] at hk
    omega

theorem doneBytes_length (d : Dev) (r : Nat) (bs spec12 : List Byte) (h : spec12.length = 12) (hb : bs.length = 32) : (d.doneBytes r bs spec12).length = 12 := by
  unfold Dev.doneBytes
  split
  · rw [List.length_append, List.length_take, List.length_drop, le_length, hb]; rfl
  · exact h

theorem keeps_dev {P : Nat → Prop} {s u : State} (h : KeepsOutside P s u) (d : Dev) : KeepsOutside P s ⟨d, u.dram, u.pending⟩ := h

theorem descProcess_keeps (s : State) (r : Nat) (spec12 data : List Byte) (tries : Nat) (poison : Bool) (h : spec12.length = 12) :
    KeepsOutside (AtDesc r s) s (s.descProcess r spec12 data tries poison) := by
  unfold State.descProcess
  split
  · exact KeepsOutside.refl _ _ _ rfl
  · next a bs hd =>
    split
    · refine KeepsOutside.mono (descFail_keeps _ _ _) (fun k hk => ⟨a, bs, hd, Or.inl ?_⟩)
      unfold InBytes at hk ⊢; omega
    · split
      · exact KeepsOutside.refl _ _ _ rfl
      · have hm := descMove_keeps s r bs data poison
        generalize s.descMove r bs data poison = p at hm
        obtain ⟨u, moved, bad⟩ := p
        dsimp only at hm ⊢
        refine keeps_dev (u := u.descDone r a bs _ _ _ _ _) ?_ _
        exact KeepsOutside.trans (KeepsOutside.mono hm (fun k hk => ⟨a, bs, hd, Or.inr hk⟩))
          (KeepsOutside.mono (descDone_keeps u r a bs _ _ _ _ _ (doneBytes_length _ _ _ _ h (ringDesc_form hd).2)) (fun k hk => ⟨a, bs, hd, Or.inl hk⟩))

theorem xcBytes_length (x : XcDesc) : x.bytes.length = 12 := by unfold XcDesc.bytes; simp [le_length]

theorem xcProcess_keeps (s : State) (r : Nat) (data : List Byte) (tries : Nat) (poison : Bool) : KeepsOutside (AtDesc r s) s (s.xcProcess r data tries poison) := by
  unfold State.xcProcess
  split
  · exact KeepsOutside.refl _ _ _ rfl
  · next x hx =>
    dsimp only
    have h := descProcess_keeps s r x.bytes data tries poison (xcBytes_length x)
    split
    · exact h
    · exact KeepsOutside.trans h (KeepsOutside.refl _ _ _ rfl)

theorem ev_length (e : EvEntry) (n : Nat) : (e.bytes n).length = 48 := by unfold EvEntry.bytes; simp [le_length]

theorem sp_length (r : SpRec) : r.bytes.length = 32 := by unfold SpRec.bytes; simp [le_length]

theorem flat_length {α : Type} (l : List α) (f : α → List Byte) (n : Nat) (h : ∀ x, (f x).length = n) : ((l.map f).flatten).length = n * l.length := by
  induction l with
  | nil => rfl
  | cons x l ih => rw [List.map_cons, List.flatten_cons, List.length_append, ih, h, List.length_cons, Nat.mul_succ]; omega

theorem closeBuf_keeps {α : Type} (s : State) (r : Nat) (ring : BufRing α) (enc : Nat → α → List Byte) (head : Nat → List Byte) (put : BufRing α → Dev → Dev) (size : Nat)
    (he : ∀ n x, (enc n x).length = size) (hh : ∀ n, (head n).length = 12) :
    KeepsOutside (fun k => ∃ a bs, s.ringDesc r = some (a, bs) ∧ (InBytes a 32 k ∨ InBytes (descBuf bs) (size * min (ring.caps.headD 0) ring.inBufs.length) k)) s
      (s.closeBuf r ring enc head put) := by
  unfold State.closeBuf
  split
  · next a bs cap caps hd hc =>
    dsimp only
    split
    · exact KeepsOutside.refl _ _ _ rfl
    · split
      · refine KeepsOutside.mono (descFail_keeps _ _ _) (fun k hk => ⟨a, bs, hd, Or.inl ?_⟩)
        unfold InBytes at hk ⊢; omega
      · have hl : ((((ring.inBufs.take cap).zip (List.range (ring.inBufs.take cap).length)).map (fun x => enc (ring.seq + x.2) x.1.2)).flatten).length =
            size * min cap ring.inBufs.length := by
          rw [flat_length _ _ size (fun x => he _ _)]
          simp
        generalize ((((ring.inBufs.take cap).zip (List.range (ring.inBufs.take cap).length)).map (fun x => enc (ring.seq + x.2) x.1.2)).flatten) = data at hl
        refine KeepsOutside.trans (KeepsOutside.mono (dramWrite_keeps s (descBuf bs) data ring.bad) (fun k hk => ⟨a, bs, hd, Or.inr ?_⟩)) ?_
        · rw [hc]; rw [hl] at hk; exact hk
        · exact keeps_dev (u := State.descDone _ r a bs _ _ _ _ _)
            (KeepsOutside.mono (descDone_keeps _ r a bs (head (ring.inBufs.take cap).length) _ _ _ _ (hh _)) (fun k hk => ⟨a, bs, hd, Or.inl hk⟩)) _
  · exact KeepsOutside.refl _ _ _ rfl

theorem act_mem (s : State) (f : Dev → Dev) {t : State} (h : s.act f = .next t) : t.dram.mem = s.dram.mem := by
  unfold State.act at h; cases h; rfl

theorem fwWrite_keeps (s : State) (lvl a : Nat) (bs : List Byte) : KeepsOutside (InBytes a bs.length) s (s.fwWrite lvl a bs) := by
  unfold State.fwWrite
  split
  · exact dramWrite_keeps _ _ _ _
  · exact KeepsOutside.refl _ _ _ rfl

theorem descAddr_congr {d e : Dev} (h : ∀ f ∈ placeFields, ∀ i, e.rd f i = d.rd f i) (r n : Nat) : e.descAddr r n = d.descAddr r n := by
  unfold Dev.descAddr Dev.ringSize
  rw [h .DMA_RBASE_HI_ADDR (by decide), h .DMA_RBASE_LO_ADDR (by decide), h .DMA_RCFG_SIZE (by decide)]

theorem place_of {c r : Nat} {d e : Dev} (h : Dev.Only c r d e) (hr : r &&& fieldsMask placeFields = 0) : ∀ f ∈ placeFields, ∀ i, e.rd f i = d.rd f i := by
  intro f hf i
  refine h.rd _ _ _ ?_
  have hb : (fieldsMask placeFields).testBit f.ctorIdx = true := by revert f; decide
  cases hc : r.testBit f.ctorIdx with
  | false => rfl
  | true => exact absurd ((congrArg (Nat.testBit · f.ctorIdx) hr).symm.trans (by rw [Nat.testBit_and, hc, hb])) (by simp)

theorem fwWrite_place (s : State) (lvl a : Nat) (bs : List Byte) : ∀ f ∈ placeFields, ∀ i, (s.fwWrite lvl a bs).dev.rd f i = s.dev.rd f i :=
  place_of (State.fwWrite_only s lvl a bs).dev (by decide)

theorem fwDescs_keeps (lvl r : Nat) (descs : List (List Byte)) (hd : ∀ x ∈ descs, x.length = 32) : ∀ (s : State) (idx : Nat),
    KeepsOutside (fun k => ∃ n, n < descs.length ∧ InBytes (s.dev.descAddr r (idx + n)) 32 k) s (s.fwDescs lvl r idx descs) := by
  induction descs with
  | nil => intro s idx; exact KeepsOutside.refl _ _ _ rfl
  | cons x l ih =>
    intro s idx
    unfold State.fwDescs
    refine KeepsOutside.trans (KeepsOutside.mono (fwWrite_keeps s lvl (s.dev.descAddr r idx) x) (fun k hk => ⟨0, by simp, ?_⟩)) (KeepsOutside.mono (ih (fun y hy => hd y (List.mem_cons_of_mem _ hy)) _ (idx + 1)) ?_)
    · rw [hd x (List.mem_cons_self ..)] at hk; exact hk
    · rintro k ⟨n, hn, hk⟩
      refine ⟨n + 1, by simp; omega, ?_⟩
      rw [descAddr_congr (fwWrite_place s lvl _ x)] at hk
      rw [show idx + (n + 1) = idx + 1 + n from by omega]; exact hk

theorem Stores.trans {P : State → Nat → Prop} {s t u : State} (h : Stores P s t) (k : Stores P t u) : Stores P s u := by
  induction h with
  | none h1 h2 => exact .more (KeepsOutside.mono h1 (fun _ h => h.elim)) h2 k
  | more h1 h2 _ ih => exact .more h1 h2 (ih k)

theorem Stores.refl (P : State → Nat → Prop) (s : State) : Stores P s s := .none (fun _ _ => rfl) (fun _ _ _ => rfl)

theorem Stores.one {P : State → Nat → Prop} {s t : State} (h : KeepsOutside (P s) s t) (k : ∀ f ∈ placeFields, ∀ i, t.dev.rd f i = s.dev.rd f i) : Stores P s t :=
  .more h k (Stores.refl P t)

theorem Stores.dev {P : State → Nat → Prop} {s t : State} (h : t.dram.mem = s.dram.mem) (k : ∀ f ∈ placeFields, ∀ i, t.dev.rd f i = s.dev.rd f i) : Stores P s t :=
  .none (fun _ _ => by rw [h]) k

theorem camBytes_length (b : CamBuf) : b.spec12.length = 12 := by unfold CamBuf.spec12; simp [le_length]

theorem camPut_stores (s : State) (p : Nat) (b : CamBuf) : Stores (AtDesc (40 + p)) s (s.camPut p b).2 := by
  refine Stores.one ?_ (place_of (State.camPut_only s p b).dev (by decide))
  unfold State.camPut
  split
  · exact KeepsOutside.refl _ _ _ rfl
  · next a bs hd =>
    split
    · refine KeepsOutside.mono (descFail_keeps _ _ _) (fun k hk => ⟨a, bs, hd, Or.inl ?_⟩)
      unfold InBytes at hk ⊢; omega
    · dsimp only
      refine keeps_dev (u := State.descDone _ (40 + p) a bs _ _ _ _ _) ?_ _
      refine KeepsOutside.trans (KeepsOutside.mono (dramWrite_keeps _ _ _ _) (fun k hk => ⟨a, bs, hd, Or.inr ?_⟩)) (KeepsOutside.mono (descDone_keeps _ _ a bs b.spec12 _ _ _ _ (camBytes_length b)) (fun k hk => ⟨a, bs, hd, Or.inl hk⟩))
      unfold InBytes at hk ⊢
      rw [List.length_take] at hk
      omega

theorem nobuf_place (d : Dev) (p st fr : Nat) : ∀ f ∈ placeFields, ∀ i, (d.camNobuf p st fr).rd f i = d.rd f i := place_of (Dev.camNobuf_only d p st fr) (by decide)

theorem camPutAll_stores (p : Nat) (l : List CamBuf) : ∀ s : State, Stores (AtDesc (40 + p)) s (s.camPutAll p l) := by
  induction l with
  | nil => intro s; exact Stores.refl _ _
  | cons b t ih =>
    intro s
    unfold State.camPutAll
    have h := camPut_stores s p b
    generalize s.camPut p b = q at h
    obtain ⟨ok, u⟩ := q
    cases ok
    · refine h.trans (Stores.dev rfl (fun f hf i => ?_))
      exact (updVp_rd _ _ _ _ _ _).trans (nobuf_place _ _ _ _ f hf i)
    · exact h.trans (ih u)

theorem nobuf_stores (P : State → Nat → Prop) (s : State) (p st fr : Nat) : Stores P s { s with dev := s.dev.camNobuf p st fr } := Stores.dev rfl (nobuf_place _ _ _ _)

theorem s0Write_stores (p : Nat) (f : Frame3) (avail : Nat) (all : Bool) (fuel : Nat) : ∀ (s : State) (c : Cap), Stores (AtDesc (40 + p)) s (s.s0Write p f avail all fuel c).1 := by
  induction fuel with
  | zero => intro s c; exact Stores.refl _ _
  | succ n ih =>
    intro s c
    unfold State.s0Write
    split
    · exact Stores.refl _ _
    · dsimp only
      split
      · exact nobuf_stores _ _ _ _ _
      · split
        · exact Stores.refl _ _
        · generalize Cap.buf _ _ _ _ _ _ _ = b
          have h := camPut_stores s p b
          generalize s.camPut p b = q at h
          obtain ⟨ok, u⟩ := q
          cases ok
          · exact h.trans (nobuf_stores _ _ _ _ _)
          · exact h.trans (ih u _)

theorem s0Abort_stores (s : State) (p : Nat) (c : Cap) : Stores (AtDesc (40 + p)) s (s.s0Abort p c) := by
  unfold State.s0Abort
  split
  · exact camPutAll_stores _ _ _
  · exact Stores.refl _ _

theorem setCap_place (d : Dev) (p : Nat) (c : Option Cap) : ∀ f ∈ placeFields, ∀ i, (d.setCap p c).rd f i = d.rd f i := place_of (Dev.setCap_only d p c) (by decide)

theorem visS0_stores (s : State) (p : Nat) (c : Cap) : Stores (AtDesc (40 + p)) s (s.visS0 p c) := by
  unfold State.visS0
  dsimp only
  generalize ({ c with flags := _ } : Cap) = c
  split
  · exact Stores.dev rfl (setCap_place _ _ _)
  · have h := s0Write_stores p (s.isp p c) (s.dev.s0Avail p c) false 8192 s c
    generalize s.s0Write p (s.isp p c) (s.dev.s0Avail p c) false 8192 c = q at h ⊢
    obtain ⟨u, c'⟩ := q
    exact h.trans (Stores.dev rfl (setCap_place _ _ _))

theorem visDrop_stores (s : State) (p : Nat) (c : Cap) : Stores (AtDesc (40 + p)) s (s.visDrop p c) := by
  refine (s0Abort_stores s p c).trans (Stores.dev rfl ?_)
  unfold State.visDrop
  dsimp only
  generalize s.s0Abort p c = u
  intro f hf i
  rw [place_of (Dev.raise_only _ _ _) (by decide) f hf, setCap_place _ _ _ f hf]
  have h1 : f ≠ .VIS_CNT_DROPS := by intro h; rw [h] at hf; revert hf; decide
  have h2 : f ≠ .VIS_STAT_DROP := by intro h; rw [h] at hf; revert hf; decide
  unfold Dev.inc Dev.addSat
  rw [Dev.rd_wr, if_neg (by simp [h1]), Dev.rd_wr, if_neg (by simp [h2])]

theorem visPacket_stores (s : State) (p : Nat) (pkt : CsiPkt) (c : Cap) : Stores (AtDesc (40 + p)) s (s.visPacket p pkt c) := by
  unfold State.visPacket
  dsimp only
  split
  · exact Stores.refl _ _
  · split
    · split
      · refine Stores.dev rfl (fun f hf i => ?_)
        dsimp only
        have h2 : f ≠ .VIS_STAT_STATE := by intro h; rw [h] at hf; revert hf; decide
        split
        · exact setCap_place _ _ _ f hf i
        · rw [Dev.rd_wr, if_neg (by simp [h2])]; exact setCap_place _ _ _ f hf i
      · exact Stores.refl _ _
    · split
      · exact Stores.refl _ _
      · split
        · exact visDrop_stores _ _ _
        · refine Stores.trans (t := { s with dev := s.dev.visFill p }) (Stores.dev rfl (place_of (Dev.visFill_only s.dev p) (by decide))) (visS0_stores _ _ _)

theorem vpS_stores (s : State) (p : Nat) (f : Vis → Vis) (P : State → Nat → Prop) : Stores P s (s.updVp p f) := Stores.dev rfl (fun _ _ _ => rfl)

theorem visOutputs_stores (s : State) (p : Nat) (c : Cap) : Stores (AtDesc (40 + p)) s (s.visOutputs p c) := by
  unfold State.visOutputs
  dsimp only
  generalize s.isp p c = f
  generalize hu : (if s.dev.visStream p 0 = true then _ else _ : State × Cap) = uc
  have h0 : Stores (AtDesc (40 + p)) s uc.1 := by
    rw [← hu]
    split
    · exact s0Write_stores _ _ _ _ _ _ _
    · exact Stores.refl _ _
  clear hu
  obtain ⟨u, c⟩ := uc
  dsimp only at h0 ⊢
  refine h0.trans ?_
  split
  · exact ((camPutAll_stores _ _ _).trans (camPutAll_stores _ _ _)).trans (vpS_stores _ _ _ _)
  · generalize u.s1Bufs p f c = l1
    have h3 : Stores (AtDesc (40 + p)) u (u.s3Buf p f c).2 := by
      unfold State.s3Buf
      dsimp only
      split
      · exact Stores.dev rfl (fun _ _ _ => rfl)
      · exact Stores.refl _ _
    generalize u.s3Buf p f c = q at h3 ⊢
    obtain ⟨l3, w⟩ := q
    dsimp only at h3 ⊢
    refine h3.trans ?_
    have hh : ∀ (l2 : List CamBuf) (w : State), Stores (AtDesc (40 + p)) w (((w.camPutAll p l1).camPutAll p l2).camPutAll p l3) := fun l2 w =>
      ((camPutAll_stores p l1 w).trans (camPutAll_stores p l2 _)).trans (camPutAll_stores p l3 _)
    split
    · exact (vpS_stores _ _ _ _).trans (hh _ _)
    · exact (hh _ _).trans (vpS_stores _ _ _ _)

theorem visEnd_stores (s : State) (p : Nat) (c : Cap) : Stores (AtDesc (40 + p)) s (s.visEnd p c) := by
  unfold State.visEnd
  dsimp only
  generalize hc : ({ c with flags := _, lines0 := _, lines1 := _ } : Cap) = c'
  have h1 : Stores (AtDesc (40 + p)) s { s with dev := s.dev.visFlags p c' } := Stores.dev rfl (place_of (Dev.visFlags_only s.dev p c') (by decide))
  exact h1.trans ((visOutputs_stores _ p _).trans (vpS_stores _ p _ _))

theorem visTimeout_stores (s : State) (p : Nat) (c : Cap) : Stores (AtDesc (40 + p)) s (s.visTimeout p c) := by
  refine (s0Abort_stores s p c).trans (Stores.dev rfl ?_)
  unfold State.visTimeout
  dsimp only
  generalize s.s0Abort p c = u
  intro f hf i
  have h1 : f ≠ .VIS_STAT_STATE := by intro h; rw [h] at hf; revert hf; decide
  have h2 : f ≠ .VIS_CNT_TIMEOUTS := by intro h; rw [h] at hf; revert hf; decide
  have h3 : f ≠ .VIS_STAT_TIMEOUT := by intro h; rw [h] at hf; revert hf; decide
  have hb : ∀ (d : Dev) g, (Dev.updVp (((d.wr .VIS_STAT_TIMEOUT 1 p).inc .VIS_CNT_TIMEOUTS p).wr .VIS_STAT_STATE 4 p) p g).rd f i = d.rd f i := by
    intro d g
    unfold Dev.inc Dev.addSat
    rw [updVp_rd, Dev.rd_wr, if_neg (by simp [h1]), Dev.rd_wr, if_neg (by simp [h2]), Dev.rd_wr, if_neg (by simp [h3])]
  split
  · rw [place_of (Dev.raise_only _ _ _) (by decide) f hf, place_of (Dev.raise_only _ _ _) (by decide) f hf, hb]
  · rw [place_of (Dev.raise_only _ _ _) (by decide) f hf, hb]

theorem visNext_place (d : Dev) (p : Nat) : ∀ f ∈ placeFields, ∀ i, (d.visNext p).rd f i = d.rd f i := place_of (Dev.visNext_only d p) (by decide)

end Sys2Proof.Machine
end

