-- ==== Sys2Proof/Laws/EffectsMachine.lean ====
section
/-! SUPPORT. What the operations of axes, heat, memory, time, ring and register accesses do. -/
namespace Sys2Proof.Machine

-- One theorem at a time: checked side by side, their threads exceed the memory that the check allows.
set_option Elab.async false
set_option exponentiation.threshold 600

/-! ### Axes -/

theorem homing_rd {d e : Dev} (a : Nat) (h : e.rd .AX_STAT_STATE a = d.rd .AX_STAT_STATE a) : e.homing a = d.homing a := by
  unfold Dev.homing Dev.axIs; rw [h]

theorem homeMove_is (d : Dev) (a : Nat) (u : Bool) (v : Nat) (x : AxState) : (d.homeMove a u v).axIs a x = d.axIs a x := axIs_rd a x ((Dev.homeMove_only _ _ _ _).rd _ _ _ (by decide))

theorem toBackoff_is (d : Dev) (a : Nat) : (d.toBackoff a).axIs a .backoff = true := by
  unfold Dev.toBackoff; dsimp only; rw [homeMove_is]; exact axTo_is _ _ _

theorem homeAbort_is (d : Dev) (a : Nat) (c : AbortCause) : (d.homeAbort a c).axIs a .unhomed = true ∧ (d.homeAbort a c).evPending Ev.AX_HOME_ABORT := by
  unfold Dev.homeAbort; dsimp only
  refine ⟨?_, Dev.raise_pending _ _ _ (by decide)⟩
  rw [axIs_rd a .unhomed ((Dev.raise_only _ _ _).rd _ _ _ rfl)]
  exact axTo_is _ _ _

theorem homeEdge_is (d : Dev) (a : Nat) : (d.homeEdge a).axIs a .homingSettle = true ∧ ((d.homeEdge a).ax a).est = d.srd .AX_HOMEPOS_POS a * 2 ^ 32 := by
  unfold Dev.homeEdge; dsimp only
  refine ⟨axTo_is _ _ _, ?_⟩
  rw [axTo_ax, updProf_ax, updAx_ax]

theorem setLatch_st (d : Dev) (a : Nat) (high : Bool) (p : Option Int) : (d.setLatch a high p).latched a high = p.isSome ∧ ((d.setLatch a high p).ax a).prof = (d.ax a).prof := by
  unfold Dev.setLatch Dev.latched Dev.flag
  cases high
  · rw [if_neg (by simp), if_neg (by simp), updAx_rd, updAx_ax, rd_wr_self _ _ _ _ _ (bit_lt _)]
    exact ⟨by cases p <;> rfl, rfl⟩
  · rw [if_pos rfl, if_pos rfl, updAx_rd, updAx_ax, rd_wr_self _ _ _ _ _ (bit_lt _)]
    exact ⟨by cases p <;> rfl, rfl⟩

theorem latched_of {c r : Nat} {d e : Dev} (h : Dev.Only c r d e) (h1 : r.testBit (Fld.ctorIdx .AX_STAT_LATHI) = false) (h2 : r.testBit (Fld.ctorIdx .AX_STAT_LATLO) = false)
    (a : Nat) (high : Bool) : e.latched a high = d.latched a high := by
  unfold Dev.latched Dev.flag; rw [h.rd _ _ _ h1, h.rd _ _ _ h2]

/-! ### Dosing and runway -/

/-- What axis k has is the same. -/
def AxAt (k : Nat) (d e : Dev) : Prop :=
  e.ax k = d.ax k ∧ ∀ f, f ∈ [Fld.AX_CFG_CCOMMIT, .AX_CMDPOS_POS, .AX_STAT_MOVING, .AX_STAT_STATE] → ∀ j, e.rd f k j = d.rd f k j

theorem AxAt.refl (k : Nat) (d : Dev) : AxAt k d d := ⟨rfl, fun _ _ _ => rfl⟩

theorem AxAt.trans {k : Nat} {d e f : Dev} (h : AxAt k d e) (h' : AxAt k e f) : AxAt k d f := ⟨h'.1.trans h.1, fun f hf j => (h'.2 f hf j).trans (h.2 f hf j)⟩

theorem AxAt.of {c r : Nat} {d e : Dev} (k : Nat) (h : Dev.Only c r d e) (hc : c.testBit (Part.ctorIdx .axes) = false)
    (hr : r &&& fieldsMask [Fld.AX_CFG_CCOMMIT, .AX_CMDPOS_POS, .AX_STAT_MOVING, .AX_STAT_STATE] = 0) : AxAt k d e := by
  refine ⟨ax_congr (h.parts .axes hc) k, fun f hf j => h.regs f ?_ k j⟩
  have h2 := congrArg (fun n => Nat.testBit n f.ctorIdx) hr
  have : (fieldsMask [Fld.AX_CFG_CCOMMIT, .AX_CMDPOS_POS, .AX_STAT_MOVING, .AX_STAT_STATE]).testBit f.ctorIdx = true := by
    simp only [List.mem_cons, List.not_mem_nil, or_false] at hf
    rcases hf with rfl | rfl | rfl | rfl <;> decide
  simp only [Nat.testBit_and, this, Bool.and_true, Nat.zero_testBit] at h2
  exact h2

theorem AxAt.wr {k a : Nat} (d : Dev) (f : Fld) (v j : Nat) (h : k ≠ a) : AxAt k d (d.wr f v a j) :=
  ⟨rfl, fun g _ j' => by rw [Dev.rd_wr, if_neg (fun x => h x.2.1)]⟩

theorem AxAt.upd {k a : Nat} (d : Dev) (f : Axis → Axis) (h : k ≠ a) : AxAt k d (d.updAx a f) := ⟨updAx_ne d f h, fun _ _ _ => rfl⟩

theorem AxAt.prof {k a : Nat} (d : Dev) (f : Prof → Prof) (h : k ≠ a) : AxAt k d (d.updProf a f) := by
  unfold Dev.updProf; exact (AxAt.upd d _ h).trans (AxAt.wr _ _ _ _ h)

theorem AxAt.raise {k : Nat} (d : Dev) (e : EvCode) (bs : List Byte) : AxAt k d (d.raise e bs) := AxAt.of k (Dev.raise_only d e bs) rfl rfl

theorem axCoefs_at {k a : Nat} (d : Dev) (h : k ≠ a) : AxAt k d (d.axCoefs a) := by
  unfold Dev.axCoefs; split
  · exact (AxAt.wr d _ _ _ h).trans (AxAt.upd _ _ h)
  · exact AxAt.refl _ _

theorem axEstimate_at {k a : Nat} (d : Dev) (h : k ≠ a) : AxAt k d (d.axEstimate a) := by
  unfold Dev.axEstimate; split
  · exact AxAt.upd d _ h
  · exact AxAt.upd d _ h
  · exact AxAt.refl _ _

theorem axStatus_at {k a : Nat} (d : Dev) (h : k ≠ a) : AxAt k d (d.axStatus a) := by
  unfold Dev.axStatus; dsimp only
  exact (AxAt.wr d _ _ _ h).trans ((AxAt.wr _ _ _ _ h).trans ((AxAt.wr _ _ _ _ h).trans ((AxAt.wr _ _ _ _ h).trans ((AxAt.wr _ _ _ _ h).trans (AxAt.upd _ _ h)))))

theorem axSettle_at {k a : Nat} (d : Dev) (h : k ≠ a) : AxAt k d (d.axSettle a) := by
  unfold Dev.axSettle; split
  · exact AxAt.refl _ _
  · split
    · exact AxAt.upd d _ h
    · dsimp only
      split
      · exact AxAt.upd d _ h
      · exact (AxAt.upd d _ h).trans ((AxAt.wr _ _ _ _ h).trans (AxAt.raise _ _ _))

theorem axResume_at {k a : Nat} (d : Dev) (h : k ≠ a) : AxAt k d (d.axResume a) := by
  unfold Dev.axResume; split
  · dsimp only
    split
    · exact AxAt.upd d _ h
    · exact (AxAt.upd d _ h).trans (AxAt.prof _ _ h)
  · exact AxAt.refl _ _

theorem axSample_at {k a : Nat} (d : Dev) (h : k ≠ a) : AxAt k d (d.axSample a) := by
  unfold Dev.axSample; dsimp only
  refine AxAt.trans ?_ (AxAt.of k (Dev.traceLoop_only _ _ _) rfl rfl)
  refine AxAt.trans ?_ (axSettle_at _ h)
  refine AxAt.trans ?_ (axStatus_at _ h)
  have h1 : AxAt k d ((((d.axCoefs a).updProf a (·.advance 50000)).axResume a).axEstimate a) :=
    (axCoefs_at d h).trans ((AxAt.prof _ _ h).trans ((axResume_at _ h).trans (axEstimate_at _ h)))
  split
  · exact h1
  · refine AxAt.trans ?_ (AxAt.upd _ _ h)
    refine AxAt.trans ?_ (AxAt.upd _ _ h)
    exact h1

/-- What a sample leaves of its axis. -/
def Sampled (s e : Dev) (a : Nat) : Prop :=
  ((s.ax a).prof.waiting = none → (e.ax a).prof = (s.ax a).prof.advance 50000) ∧ e.rd .AX_CFG_CCOMMIT a = 0 ∧
  e.rd .AX_CMDPOS_POS a = unsign 32 ((e.ax a).prof.p / 2 ^ 32) ∧ e.rd .AX_STAT_MOVING a = bit ((e.ax a).prof.run != .rest) ∧
  (s.flag .AX_CFG_CCOMMIT a = true → (e.ax a).comp.coef = s.axShadow a)

theorem Sampled.congr {s d e : Dev} {a : Nat} (h : Sampled s d a) (k : AxAt a d e) : Sampled s e a := by
  obtain ⟨h1, h2, h3, h4, h5⟩ := h
  refine ⟨by rw [k.1]; exact h1, (k.2 _ (by simp) 0).trans h2, ?_, ?_, by rw [k.1]; exact h5⟩
  · rw [k.2 .AX_CMDPOS_POS (by simp), k.1]; exact h3
  · rw [k.2 .AX_STAT_MOVING (by simp), k.1]; exact h4

theorem axCoefs_own (d : Dev) (a : Nat) : ((d.axCoefs a).ax a).prof = (d.ax a).prof ∧ (d.axCoefs a).rd .AX_CFG_CCOMMIT a = 0 ∧
    (d.flag .AX_CFG_CCOMMIT a = true → ((d.axCoefs a).ax a).comp.coef = d.axShadow a) ∧ (d.axCoefs a).kin a = d.kin a := by
  unfold Dev.axCoefs
  split
  · next h =>
    refine ⟨by rw [updAx_ax]; rfl, by rw [updAx_rd]; exact rd_wr_self _ _ _ _ _ (by decide), fun _ => by rw [updAx_ax], ?_⟩
    unfold Dev.kin; simp [Dev.rd_wr]
  · next h => exact ⟨rfl, by unfold Dev.flag at h; simpa using h, fun h' => absurd h' h, rfl⟩

theorem axSettle_ax (d : Dev) (a : Nat) : ((d.axSettle a).ax a).prof = (d.ax a).prof ∧ ((d.axSettle a).ax a).comp = (d.ax a).comp := by
  unfold Dev.axSettle; split
  · exact ⟨rfl, rfl⟩
  · split
    · rw [updAx_ax]; exact ⟨rfl, rfl⟩
    · dsimp only
      split
      · rw [updAx_ax]; exact ⟨rfl, rfl⟩
      · rw [raise_ax, axTo_ax, updAx_ax]; exact ⟨rfl, rfl⟩

theorem axEstimate_ax (d : Dev) (a : Nat) : ((d.axEstimate a).ax a).prof = (d.ax a).prof ∧ ((d.axEstimate a).ax a).comp = (d.ax a).comp := by
  unfold Dev.axEstimate; split
  · rw [updAx_ax]; exact ⟨rfl, rfl⟩
  · rw [updAx_ax]; exact ⟨rfl, rfl⟩
  · exact ⟨rfl, rfl⟩

theorem axStatus_own (d : Dev) (a : Nat) : ((d.axStatus a).ax a).prof = (d.ax a).prof ∧ ((d.axStatus a).ax a).comp = (d.ax a).comp ∧
    (d.axStatus a).rd .AX_CMDPOS_POS a = unsign 32 ((d.ax a).prof.p / 2 ^ 32) ∧ (d.axStatus a).rd .AX_STAT_MOVING a = bit ((d.ax a).prof.run != .rest) ∧
    (d.axStatus a).rd .AX_CFG_CCOMMIT a = d.rd .AX_CFG_CCOMMIT a := by
  unfold Dev.axStatus; dsimp only
  have hw : ∀ x, unsign 32 x < 2 ^ 32 := fun x => by unfold unsign; exact BitVec.isLt _
  refine ⟨by rw [updAx_ax]; rfl, by rw [updAx_ax]; rfl, ?_, ?_, ?_⟩
  · rw [updAx_rd, Dev.rd_wr, if_neg (by simp), Dev.rd_wr, if_neg (by simp), Dev.rd_wr, if_neg (by simp), Dev.rd_wr, if_neg (by simp)]
    exact rd_wr_self _ _ _ _ _ (hw _)
  · rw [updAx_rd, Dev.rd_wr, if_neg (by simp)]
    exact rd_wr_self _ _ _ _ _ (bit_lt _)
  · rw [updAx_rd]; simp [Dev.rd_wr]

theorem axResume_ax (d : Dev) (a : Nat) : ((d.ax a).prof.waiting = none → (d.axResume a) = d) ∧ ((d.axResume a).ax a).comp = (d.ax a).comp := by
  unfold Dev.axResume
  refine ⟨fun h => ?_, ?_⟩
  · rw [h]; split
    · next hc => cases hc
    · rfl
  · split
    · dsimp only
      split
      · rw [updAx_ax]
      · rw [updProf_ax, updAx_ax]
    · rfl

theorem advance_waiting (x : Prof) (n : Nat) : (x.advance n).waiting = x.waiting := by
  unfold Prof.advance
  split
  · rfl
  · dsimp only; split <;> rfl

theorem axSample_own (d : Dev) (a : Nat) : Sampled d (d.axSample a) a := by
  unfold Dev.axSample; dsimp only
  refine Sampled.congr ?_ (AxAt.of a (Dev.traceLoop_only _ _ _) rfl rfl)
  obtain ⟨c1, c2, c3, c4⟩ := axCoefs_own d a
  generalize hd1 : Dev.updProf (d.axCoefs a) a _ = d1
  have h0 : (d1.ax a).prof = (d.ax a).prof.advance 50000 ∧ d1.rd .AX_CFG_CCOMMIT a = 0 ∧ (d.flag .AX_CFG_CCOMMIT a = true → (d1.ax a).comp.coef = d.axShadow a) := by
    rw [← hd1, updProf_ax]
    dsimp only
    refine ⟨by rw [c1], ?_, c3⟩
    rw [(Dev.updProf_only _ _ _).rd _ _ _ (by decide)]; exact c2
  clear hd1 c1 c2 c3 c4
  have h1 : ((d.ax a).prof.waiting = none → ((d1.axResume a).ax a).prof = (d.ax a).prof.advance 50000) ∧ (d1.axResume a).rd .AX_CFG_CCOMMIT a = 0 ∧
      (d.flag .AX_CFG_CCOMMIT a = true → ((d1.axResume a).ax a).comp.coef = d.axShadow a) := by
    obtain ⟨r1, r2⟩ := axResume_ax d1 a
    refine ⟨fun hw => ?_, ((Dev.axResume_only _ _).rd _ _ _ rfl).trans h0.2.1, fun hc => by rw [r2]; exact h0.2.2 hc⟩
    rw [r1 (by rw [h0.1, advance_waiting]; exact hw)]; exact h0.1
  clear h0
  generalize d1.axResume a = d1 at h1 ⊢
  have e1 := axEstimate_ax d1 a
  have e2 : (d1.axEstimate a).rd .AX_CFG_CCOMMIT a = 0 := ((Dev.axEstimate_only _ _).rd _ _ _ (Nat.zero_testBit _)).trans h1.2.1
  generalize d1.axEstimate a = d2 at e1 e2 ⊢
  generalize hd3 : (if d2.axIs a .fault = true then d2 else _ : Dev) = d3
  have h3 : (d3.ax a).prof = (d2.ax a).prof ∧ d3.rd .AX_CFG_CCOMMIT a = d2.rd .AX_CFG_CCOMMIT a ∧ (d3.ax a).comp.coef = (d2.ax a).comp.coef := by
    rw [← hd3]
    split
    · exact ⟨rfl, rfl, rfl⟩
    · rw [updAx_ax, updAx_ax]; exact ⟨rfl, rfl, rfl⟩
  clear hd3
  obtain ⟨k1, k2, k3, k4, k5⟩ := axStatus_own d3 a
  obtain ⟨s1, s2⟩ := axSettle_ax (d3.axStatus a) a
  refine ⟨fun hw => ?_, ?_, ?_, ?_, fun hc => ?_⟩
  · rw [s1, k1, h3.1, e1.1]; exact h1.1 hw
  · rw [(Dev.axSettle_only _ _).rd _ _ _ rfl, k5, h3.2.1]; exact e2
  · rw [(Dev.axSettle_only _ _).rd _ _ _ rfl, k3, s1, k1]
  · rw [(Dev.axSettle_only _ _).rd _ _ _ rfl, k4, s1, k1]
  · rw [s2, k2, h3.2.2, e1.2]; exact h1.2.2 hc

theorem samples (l : List Nat) (hn : l.Nodup) (s d : Dev) (hk : ∀ i j, d.rd .AX_KIN_LIM i j = s.rd .AX_KIN_LIM i j) (hc : ∀ i j, d.rd .AX_COEF_C i j = s.rd .AX_COEF_C i j)
    (ha : ∀ a ∈ l, d.ax a = s.ax a ∧ d.rd .AX_CFG_CCOMMIT a = s.rd .AX_CFG_CCOMMIT a) :
    (∀ a ∈ l, Sampled s (l.foldl Dev.axSample d) a) ∧ ∀ k, k ∉ l → AxAt k d (l.foldl Dev.axSample d) := by
  induction l generalizing d with
  | nil => exact ⟨fun _ h => absurd h (by simp), fun k _ => AxAt.refl _ _⟩
  | cons x t ih =>
    rw [List.nodup_cons] at hn
    have ho := Dev.axSample_only d x
    obtain ⟨i1, i2⟩ := ih hn.2 (d.axSample x) (fun i j => (ho.regs _ rfl i j).trans (hk i j)) (fun i j => (ho.regs _ rfl i j).trans (hc i j)) (fun a h => by
      have hne : a ≠ x := fun e => hn.1 (e ▸ h)
      obtain ⟨g1, g2⟩ := ha a (List.mem_cons_of_mem _ h)
      have := axSample_at d hne
      exact ⟨this.1.trans g1, (this.2 _ (by simp) 0).trans g2⟩)
    rw [List.foldl_cons]
    refine ⟨fun a h => ?_, fun k hk' => ?_⟩
    · rcases List.mem_cons.mp h with rfl | h
      · refine Sampled.congr ?_ (i2 a hn.1)
        obtain ⟨g1, g2⟩ := ha a (List.mem_cons_self ..)
        obtain ⟨p1, p2, p3, p4, p5⟩ := axSample_own d a
        have hsh : d.axShadow a = s.axShadow a := by unfold Dev.axShadow Dev.srd; simp only [hc]
        refine ⟨fun hw => by rw [p1 (by rw [g1]; exact hw), g1], p2, p3, p4, fun h => ?_⟩
        rw [← hsh]; exact p5 (by unfold Dev.flag at h ⊢; rw [g2]; exact h)
      · exact i1 a h
    · rw [List.mem_cons, not_or] at hk'
      exact (axSample_at d hk'.1).trans (i2 k hk'.2)

theorem axOn_of {c r : Nat} {d e : Dev} (h : Dev.Only c r d e) (hb : c.testBit (Part.ctorIdx .boot) = false) (hv : c.testBit (Part.ctorIdx .variant) = false)
    (h1 : r.testBit (Fld.ctorIdx .AX_CFG_EN) = false) (a : Nat) : e.axOn a = d.axOn a := by
  unfold Dev.axOn Dev.nAxes Dev.isA32 Dev.flag Dev.runs
  rw [h.rd _ _ _ h1, show e.variant = d.variant from h.parts .variant hv, show e.boot = d.boot from h.parts .boot hb]

theorem homeAbort_at {k a : Nat} (d : Dev) (c : AbortCause) (h : k ≠ a) : AxAt k d (d.homeAbort a c) := by
  unfold Dev.homeAbort; dsimp only
  refine AxAt.trans ?_ (AxAt.raise _ _ _)
  exact (AxAt.prof d _ h).trans ((AxAt.upd _ _ h).trans (AxAt.wr _ _ _ _ h))

theorem axFault_at {k a : Nat} (d : Dev) (c : Nat) (h : k ≠ a) : AxAt k d (d.axFault a c) := by
  unfold Dev.axFault; split
  · exact AxAt.refl _ _
  · dsimp only
    refine AxAt.trans ?_ (AxAt.raise _ _ _)
    split
    · exact (homeAbort_at d _ h).trans (AxAt.upd _ _ h)
    · exact (AxAt.prof _ _ h).trans ((AxAt.wr _ _ _ _ h).trans (AxAt.of k (Dev.dropSteps_only _ _) rfl rfl))

/-- What a fault leaves of an axis in use: a homing one is UNHOMED (Table 11-1). -/
theorem axFault_own (d : Dev) (a c : Nat) (hon : d.axOn a = true) : (d.axFault a c).axIs a (if d.homing a then .unhomed else .fault) = true ∧
    ((d.ax a).fails = 0 → ((d.axFault a c).ax a).fails = 0) := by
  unfold Dev.axFault
  by_cases hf : d.axIs a .fault = true
  · have hh : d.homing a = false := by
      unfold Dev.homing Dev.axIs at *
      rw [decide_eq_true_eq] at hf
      rw [hf]; rfl
    rw [if_pos (by rw [hf]; simp), hh]; exact ⟨hf, fun h => h⟩
  · rw [if_neg (by rw [hon]; simpa using hf)]
    dsimp only
    by_cases hh : d.homing a = true
    · rw [if_pos hh, if_pos hh]
      refine ⟨?_, fun _ => by rw [raise_ax, updAx_ax]⟩
      rw [axIs_rd a .unhomed ((Dev.raise_only _ _ _).rd _ _ _ rfl), axIs_rd a .unhomed (updAx_rd _ _ _ _ _ _)]
      exact (homeAbort_is d a .fault).1
    · rw [if_neg hh, if_neg hh]
      refine ⟨?_, fun h => ?_⟩
      · rw [axIs_rd a .fault ((Dev.raise_only _ _ _).rd _ _ _ rfl), axIs_rd a .fault ((Dev.dropSteps_only _ _).rd _ _ _ (Nat.zero_testBit _))]
        unfold Dev.axTo; exact axIs_of (rd_wr_self _ _ _ _ _ (by decide))
      · rw [raise_ax, ax_congr ((Dev.dropSteps_only _ _).parts .axes rfl), axTo_ax, updProf_ax]; exact h

/-- The share of one status word in a good return frame. -/
def retOne (p : Nat) (d : Dev) (x : U16 × Nat) : Dev :=
  let d := d.updAx (4 * p + x.2) (fun y => { y with fails := 0 })
  if x.1.getLsbD 1 || x.1.getLsbD 3 then d.axFault (4 * p + x.2) 2 else d

theorem retOne_at {k p : Nat} (d : Dev) (x : U16 × Nat) (h : k ≠ 4 * p + x.2) : AxAt k d (retOne p d x) := by
  unfold retOne; dsimp only; split
  · exact (AxAt.upd d _ h).trans (axFault_at _ _ h)
  · exact AxAt.upd d _ h

theorem retOne_on (d : Dev) (p : Nat) (x : U16 × Nat) (k : Nat) : (retOne p d x).axOn k = d.axOn k := by
  unfold retOne; dsimp only; split
  · rw [axOn_of (Dev.axFault_only _ _ _) rfl rfl rfl]; rfl
  · rfl

theorem rets (p : Nat) (l : List (U16 × Nat)) (hn : (l.map (·.2)).Nodup) (d : Dev) :
    (∀ x ∈ l, d.axOn (4 * p + x.2) = true → (x.1.getLsbD 1 = true ∨ x.1.getLsbD 3 = true) →
      (l.foldl (retOne p) d).axIs (4 * p + x.2) (if d.homing (4 * p + x.2) then .unhomed else .fault) = true ∧ ((l.foldl (retOne p) d).ax (4 * p + x.2)).fails = 0) ∧
    ∀ k, (∀ x ∈ l, k ≠ 4 * p + x.2) → AxAt k d (l.foldl (retOne p) d) := by
  induction l generalizing d with
  | nil => exact ⟨fun _ h => absurd h (by simp), fun k _ => AxAt.refl _ _⟩
  | cons y t ih =>
    rw [List.map_cons, List.nodup_cons] at hn
    obtain ⟨i1, i2⟩ := ih hn.2 (retOne p d y)
    rw [List.foldl_cons]
    refine ⟨fun x hx hon hb => ?_, fun k hk => ?_⟩
    · rcases List.mem_cons.mp hx with rfl | hx
      · have h1 : AxAt (4 * p + x.2) (retOne p d x) (t.foldl (retOne p) (retOne p d x)) := i2 _ (fun z hz e => hn.1 (List.mem_map.mpr ⟨z, hz, by omega⟩))
        have h2 : (retOne p d x).axIs (4 * p + x.2) (if d.homing (4 * p + x.2) then .unhomed else .fault) = true ∧ ((retOne p d x).ax (4 * p + x.2)).fails = 0 := by
          unfold retOne; dsimp only
          rw [if_pos (by rcases hb with h | h <;> simp [h])]
          have := axFault_own (d.updAx (4 * p + x.2) (fun y => { y with fails := 0 })) (4 * p + x.2) 2 hon
          rw [updAx_ax, homing_rd (4 * p + x.2) (updAx_rd d _ _ _ _ _)] at this
          exact ⟨this.1, this.2 rfl⟩
        refine ⟨?_, ?_⟩
        · rw [axIs_rd _ _ (h1.2 .AX_STAT_STATE (by simp) 0)]; exact h2.1
        · rw [h1.1]; exact h2.2
      · have hne : 4 * p + x.2 ≠ 4 * p + y.2 := fun e => hn.1 (List.mem_map.mpr ⟨x, hx, by omega⟩)
        have h := i1 x hx (by rw [retOne_on]; exact hon) hb
        rw [homing_rd _ ((retOne_at d y hne).2 .AX_STAT_STATE (by simp) 0)] at h
        exact h
    · exact (retOne_at d y (hk y (List.mem_cons_self ..))).trans (i2 k (fun x hx => hk x (List.mem_cons_of_mem _ hx)))

theorem updTr_tr (d : Dev) (c : Nat) (g : Trace → Trace) : (d.updTr c g).tr c = g (d.tr c) := by unfold Dev.tr Dev.updTr; exact Tab.at_upd_same _ _ _

theorem updTr_rd (d : Dev) (c : Nat) (g : Trace → Trace) (f : Fld) (i j : Nat) : (d.updTr c g).rd f i j = d.rd f i j := rfl

theorem sends (l : List Nat) (hn : l.Nodup) (d : Dev) : (d.forEach l Dev.sendAxFrame).pins = d.pins ∧
    (∀ p ∈ l, (Tab.at (d.forEach l Dev.sendAxFrame).axp p : AxPort).fcnt = ((Tab.at d.axp p : AxPort).fcnt + 1) % 256) ∧
    ∀ p, p ∉ l → (Tab.at (d.forEach l Dev.sendAxFrame).axp p : AxPort) = Tab.at d.axp p := by
  unfold Dev.forEach
  induction l generalizing d with
  | nil => exact ⟨rfl, fun _ h => absurd h (by simp), fun _ _ => rfl⟩
  | cons x t ih =>
    rw [List.nodup_cons] at hn
    obtain ⟨i1, i2, i3⟩ := ih hn.2 (d.sendAxFrame x)
    rw [List.foldl_cons]
    have ho : ∀ p, p ≠ x → (Tab.at (d.sendAxFrame x).axp p : AxPort) = Tab.at d.axp p := fun p h => by
      unfold Dev.sendAxFrame; dsimp only; exact Tab.at_put_ne _ _ h
    refine ⟨i1.trans rfl, fun p hp => ?_, fun p hp => ?_⟩
    · rcases List.mem_cons.mp hp with rfl | h
      · rw [i3 p hn.1]
        unfold Dev.sendAxFrame; dsimp only; rw [Tab.at_put_same]; first | done | rfl
      · rw [i2 p h, ho p (fun e => hn.1 (e ▸ h))]
    · rw [List.mem_cons, not_or] at hp
      rw [i3 p hp.2, ho p hp.1]

theorem homeAbort_pend (d : Dev) (a : Nat) (c : AbortCause) (ev : EvCode) (hs : ev.sub < 16) (h : d.evPending ev) : (d.homeAbort a c).evPending ev := by
  unfold Dev.homeAbort; dsimp only
  refine Dev.raise_pending_of _ _ _ _ hs ?_
  refine (Dev.Only.wr (c := 0) (r := fieldsMask [.AX_STAT_STATE]) _ _ _ _ rfl (Dev.Only.refl _ _ _) : Dev.Only _ _ _ (Dev.axTo _ _ _)).evPending _ rfl ?_
  refine (Dev.updAx_only _ _ _).evPending _ (Nat.zero_testBit _) ?_
  exact (Dev.updProf_only _ _ _).evPending _ (by decide) h

theorem axFault_pend (d : Dev) (a c : Nat) (ev : EvCode) (hs : ev.sub < 16) (h : d.evPending ev) : (d.axFault a c).evPending ev := by
  unfold Dev.axFault; split
  · exact h
  · dsimp only
    refine Dev.raise_pending_of _ _ _ _ hs ?_
    split
    · exact (Dev.updAx_only _ _ _).evPending _ (Nat.zero_testBit _) (homeAbort_pend _ _ _ _ hs h)
    · refine (Dev.dropSteps_only _ _).evPending _ (Nat.zero_testBit _) ?_
      refine (Dev.Only.wr (c := 0) (r := fieldsMask [.AX_STAT_STATE]) _ _ _ _ rfl (Dev.Only.refl _ _ _) : Dev.Only _ _ _ (Dev.axTo _ _ _)).evPending _ rfl ?_
      exact (Dev.updProf_only _ _ _).evPending _ (by decide) h

theorem returnBad_st (d : Dev) (p : Nat) : (d.returnBad p).rd .AXP_ERR_RCRC p = min (d.rd .AXP_ERR_RCRC p + 1) 65535 ∧ (d.returnBad p).evPending Ev.AXP_CRC := by
  unfold Dev.returnBad
  dsimp only
  generalize hd1 : Dev.raise _ Ev.AXP_CRC _ = d1
  have h1 : d1.rd .AXP_ERR_RCRC p = min (d.rd .AXP_ERR_RCRC p + 1) 65535 ∧ d1.evPending Ev.AXP_CRC := by
    rw [← hd1]
    exact ⟨((Dev.raise_only _ _ _).rd _ _ _ rfl).trans (inc_rd _ _ _ _), Dev.raise_pending _ _ _ (by decide)⟩
  clear hd1
  unfold Dev.forEach
  generalize ((List.range 4).map (· + 4 * p)) = l
  induction l generalizing d1 with
  | nil => exact h1
  | cons x t ih =>
    rw [List.foldl_cons]
    refine ih _ ?_
    split
    · exact ⟨((Dev.axFault_only _ _ _).rd _ _ _ rfl).trans h1.1, axFault_pend _ _ _ _ (by decide) h1.2⟩
    · exact h1

theorem fb_fn {d e : Dev} {b : Bool} {x : Dev} (h : b = true) (hx : x = e) : (if (!b) = true then d else x) = e := by
  rw [if_neg (by rw [h]; simp)]; exact hx

/-! ### Rings, DMA and events -/

theorem ht_congr {d e : Dev} (h : e.heat = d.heat) (a : Nat) : e.ht a = d.ht a := by unfold Dev.ht; rw [h]

theorem updHt_ht (d : Dev) (a : Nat) (f : Heat → Heat) : (d.updHt a f).ht a = f (d.ht a) := by unfold Dev.ht Dev.updHt; exact Tab.at_upd_same _ _ _

theorem updHt_ne (d : Dev) {a k : Nat} (f : Heat → Heat) (h : k ≠ a) : (d.updHt a f).ht k = d.ht k := by unfold Dev.ht Dev.updHt; exact Tab.at_upd_ne _ _ h

theorem updHt_rd (d : Dev) (a : Nat) (g : Heat → Heat) (f : Fld) (i j : Nat) : (d.updHt a g).rd f i j = d.rd f i j := rfl

theorem wr_ht (d : Dev) (f : Fld) (v i j a : Nat) : (d.wr f v i j).ht a = d.ht a := rfl

/-- What heater loop k has is the same. -/
def HtAt (k : Nat) (d e : Dev) : Prop := e.ht k = d.ht k ∧ e.rd .HT_CFG_CCOMMIT k = d.rd .HT_CFG_CCOMMIT k

theorem HtAt.refl (k : Nat) (d : Dev) : HtAt k d d := ⟨rfl, rfl⟩

theorem HtAt.trans {k : Nat} {d e f : Dev} (h : HtAt k d e) (h' : HtAt k e f) : HtAt k d f := ⟨h'.1.trans h.1, h'.2.trans h.2⟩

theorem HtAt.of {c r : Nat} {d e : Dev} (k : Nat) (h : Dev.Only c r d e) (hc : c.testBit (Part.ctorIdx .heat) = false)
    (hr : r.testBit (Fld.ctorIdx .HT_CFG_CCOMMIT) = false) : HtAt k d e := ⟨ht_congr (h.parts .heat hc) k, h.rd _ _ _ hr⟩

theorem HtAt.wr {k a : Nat} (d : Dev) (f : Fld) (v j : Nat) (h : k ≠ a) : HtAt k d (d.wr f v a j) := ⟨rfl, by rw [Dev.rd_wr, if_neg (fun x => h x.2.1)]⟩

theorem HtAt.upd {k a : Nat} (d : Dev) (f : Heat → Heat) (h : k ≠ a) : HtAt k d (d.updHt a f) := ⟨updHt_ne d f h, rfl⟩

theorem htCoefs_at {k a : Nat} (d : Dev) (h : k ≠ a) : HtAt k d (d.htCoefs a) := by
  unfold Dev.htCoefs; split
  · exact (HtAt.wr d _ _ _ h).trans (HtAt.upd _ _ h)
  · exact HtAt.refl _ _

theorem htModel_form (d : Dev) (a : Nat) : ∃ (d1 : Dev) (tm : Int), d1.heat = d.heat ∧ (∀ f i j, d1.rd f i j = d.rd f i j) ∧
    d.htModel a = (d1.updHt a (fun x => { x with tm := tm })).wr .HT_TEMP_TM (satSigned 16 (tm / 2 ^ 12)) a := by
  unfold Dev.htModel
  cases d.modelStep a with
  | some tm => exact ⟨d, tm, rfl, fun _ _ _ => rfl, rfl⟩
  | none => exact ⟨(d.free 32).2, signed 32 (d.free 32).1, rfl, fun _ _ _ => rfl, rfl⟩

theorem htModel_at {k a : Nat} (d : Dev) (h : k ≠ a) : HtAt k d (d.htModel a) := by
  obtain ⟨d1, tm, h1, h2, h3⟩ := htModel_form d a
  rw [h3]
  have h4 : HtAt k d d1 := ⟨ht_congr h1 k, h2 _ _ _⟩
  exact h4.trans ((HtAt.upd _ _ h).trans (HtAt.wr _ _ _ _ h))

theorem htModelSet_at {k a : Nat} (d : Dev) (h : k ≠ a) : HtAt k d (d.htModelSet a) := by
  unfold Dev.htModelSet; dsimp only; exact (HtAt.upd _ _ h).trans (HtAt.wr _ _ _ _ h)

theorem htSample_at {k a : Nat} (d : Dev) (h : k ≠ a) : HtAt k d (d.htSample a) := by
  unfold Dev.htSample; dsimp only
  refine HtAt.trans ?_ (HtAt.of k (Dev.traceLoop_only _ _ _) rfl rfl)
  refine HtAt.trans ?_ (htModel_at _ h)
  generalize hd1 : (if ((d.htCoefs a).ht a).enabled = true then d.htCoefs a else (d.htCoefs a).htModelSet a) = d1
  have h1 : HtAt k d d1 := by
    rw [← hd1]
    refine (htCoefs_at d h).trans ?_
    split
    · exact HtAt.refl _ _
    · exact htModelSet_at _ h
  split
  · exact h1.trans (HtAt.upd _ _ h)
  · exact h1

/-- What a sample leaves of a heater loop in use. -/
def HtSampled (s e : Dev) (h : Nat) : Prop :=
  (e.ht h).enabled = true ∧ e.rd .HT_CFG_CCOMMIT h = 0 ∧
  (s.flag .HT_CFG_CCOMMIT h = true → (e.ht h).comp.coef = (List.range 7).map (fun i => s.srd .HT_COEF_C h i)) ∧
  (s.fresh h = true → 0 ≤ (e.ht h).comp.out ∧ (e.ht h).comp.out ≤ 65536)

theorem HtSampled.congr {s d e : Dev} {a : Nat} (h : HtSampled s d a) (k : HtAt a d e) : HtSampled s e a := by
  obtain ⟨h1, h2, h3, h4⟩ := h
  exact ⟨by rw [k.1]; exact h1, k.2.trans h2, by rw [k.1]; exact h3, by rw [k.1]; exact h4⟩

theorem htCoefs_own (d : Dev) (a : Nat) : (d.htCoefs a).rd .HT_CFG_CCOMMIT a = 0 ∧ ((d.htCoefs a).ht a).readAt = (d.ht a).readAt ∧
    (d.flag .HT_CFG_CCOMMIT a = true → ((d.htCoefs a).ht a).comp.coef = (List.range 7).map (fun i => d.srd .HT_COEF_C a i)) := by
  unfold Dev.htCoefs
  split
  · next h => exact ⟨by rw [updHt_rd]; exact rd_wr_self _ _ _ _ _ (by decide), by rw [updHt_ht]; rfl, fun _ => by rw [updHt_ht]⟩
  · next h => exact ⟨by unfold Dev.flag at h; simpa using h, rfl, fun h' => absurd h' h⟩

theorem clamp_range (x : Int) : 0 ≤ clampInt 0 65536 x ∧ clampInt 0 65536 x ≤ 65536 := by unfold clampInt; omega

theorem htModel_own (d : Dev) (a : Nat) : ((d.htModel a).ht a).comp = (d.ht a).comp ∧ ((d.htModel a).ht a).enabled = (d.ht a).enabled ∧
    (d.htModel a).rd .HT_CFG_CCOMMIT a = d.rd .HT_CFG_CCOMMIT a := by
  obtain ⟨d1, tm, h1, h2, h3⟩ := htModel_form d a
  refine ⟨?_, ?_, (Dev.htModel_only _ _).rd _ _ _ rfl⟩
  · rw [h3, wr_ht, updHt_ht, ht_congr h1]
  · rw [h3, wr_ht, updHt_ht, ht_congr h1]

theorem fresh_congr {d e : Dev} (a : Nat) (h : (e.ht a).readAt = (d.ht a).readAt) (ht : e.tb = d.tb) (hs : e.rd .TB_CTL_SRC = d.rd .TB_CTL_SRC) :
    e.fresh a = d.fresh a := by
  unfold Dev.fresh Dev.now Dev.nowFrac Dev.flag; rw [h, ht, hs]

theorem htSample_own (d : Dev) (a : Nat) : HtSampled d (d.htSample a) a := by
  unfold Dev.htSample; dsimp only
  refine HtSampled.congr ?_ (HtAt.of a (Dev.traceLoop_only _ _ _) rfl rfl)
  obtain ⟨c1, c2, c3⟩ := htCoefs_own d a
  have c4 : (d.htCoefs a).tb = d.tb := (Dev.htCoefs_only _ _).parts .tb (by decide)
  have c5 : (d.htCoefs a).rd .TB_CTL_SRC = d.rd .TB_CTL_SRC := (Dev.htCoefs_only _ _).rd _ _ _ (by decide)
  generalize d.htCoefs a = d1 at c1 c2 c3 c4 c5 ⊢
  generalize hd2 : (if (d1.ht a).enabled = true then d1 else d1.htModelSet a) = d2
  have h2 : (d2.ht a).enabled = true ∧ d2.rd .HT_CFG_CCOMMIT a = 0 ∧ (d2.ht a).comp = (d1.ht a).comp ∧ d2.fresh a = d.fresh a := by
    rw [← hd2]
    split
    · next h => exact ⟨h, c1, rfl, fresh_congr a c2 c4 c5⟩
    · refine ⟨?_, ((Dev.htModelSet_only _ _).rd _ _ _ (by decide)).trans c1, ?_, ?_⟩
      · unfold Dev.htModelSet; dsimp only; rw [wr_ht, updHt_ht]
      · unfold Dev.htModelSet; dsimp only; rw [wr_ht, updHt_ht]
      · refine fresh_congr a ?_ c4 (((Dev.htModelSet_only _ _).rd _ _ _ (by decide)).trans c5)
        unfold Dev.htModelSet; dsimp only; rw [wr_ht, updHt_ht]; exact c2
  clear hd2
  obtain ⟨e1, e2, e3, e4⟩ := h2
  generalize hd3 : (if d2.fresh a = true then _ else d2 : Dev) = d3
  have h3 : (d3.ht a).enabled = true ∧ d3.rd .HT_CFG_CCOMMIT a = 0 ∧ (d3.ht a).comp.coef = (d1.ht a).comp.coef ∧ (d.fresh a = true → 0 ≤ (d3.ht a).comp.out ∧ (d3.ht a).comp.out ≤ 65536) := by
    rw [← hd3]
    split
    · rw [updHt_ht]
      refine ⟨e1, e2, by rw [← e3]; rfl, fun _ => ?_⟩
      exact clamp_range _
    · next hn => exact ⟨e1, e2, by rw [e3], fun h => absurd (e4.trans h) hn⟩
  clear hd3
  obtain ⟨m1, m2, m3⟩ := htModel_own d3 a
  exact ⟨m2.trans h3.1, m3.trans h3.2.1, fun h => by rw [m1, h3.2.2.1]; exact c3 h, fun h => by rw [m1]; exact h3.2.2.2 h⟩

/-- The share of one head slot in a heater sample. -/
def htOne (d : Dev) (h : Nat) : Dev := if d.flag .HT_CFG_EN h then d.htSample h else d.updHt h (fun x => { x with enabled := false })

theorem htOne_only (d : Dev) (h : Nat) : Dev.Only (partsMask [.xpp, .heat, .trace, .evr, .out, .freeCtr])
    (fieldsMask [.AON_EVPEND_PEND, .AON_EVLOST_N, .HT_CFG_CCOMMIT, .HT_TEMP_TM, .TR_STAT_STATE, .TR_STAT_TIDX]) d (htOne d h) := by
  unfold htOne; split
  · exact (Dev.htSample_only d h).mono rfl rfl
  · exact (Dev.updHt_only d h _).mono rfl rfl

theorem htOne_at {k a : Nat} (d : Dev) (h : k ≠ a) : HtAt k d (htOne d a) := by
  unfold htOne; split
  · exact htSample_at d h
  · exact HtAt.upd d _ h

theorem heats (l : List Nat) (hn : l.Nodup) (s d : Dev) (he : ∀ i, d.rd .HT_CFG_EN i = s.rd .HT_CFG_EN i) (hc : ∀ i j, d.rd .HT_COEF_C i j = s.rd .HT_COEF_C i j)
    (htb : d.tb = s.tb) (hts : d.rd .TB_CTL_SRC = s.rd .TB_CTL_SRC) (ha : ∀ a ∈ l, HtAt a s d) :
    (∀ a ∈ l, (s.flag .HT_CFG_EN a = false → ((l.foldl htOne d).ht a).enabled = false) ∧ (s.flag .HT_CFG_EN a = true → HtSampled s (l.foldl htOne d) a)) ∧
    ∀ k, k ∉ l → HtAt k d (l.foldl htOne d) := by
  induction l generalizing d with
  | nil => exact ⟨fun _ h => absurd h (by simp), fun k _ => HtAt.refl _ _⟩
  | cons x t ih =>
    rw [List.nodup_cons] at hn
    have ho := htOne_only d x
    obtain ⟨i1, i2⟩ := ih hn.2 (htOne d x) (fun i => (ho.regs _ rfl i 0).trans (he i)) (fun i j => (ho.regs _ rfl i j).trans (hc i j)) ((ho.parts .tb rfl).trans htb) ((ho.rd _ _ _ rfl).trans hts)
      (fun a h => (ha a (List.mem_cons_of_mem _ h)).trans (htOne_at d (fun e => hn.1 (e ▸ h))))
    rw [List.foldl_cons]
    refine ⟨fun a h => ?_, fun k hk' => ?_⟩
    · rcases List.mem_cons.mp h with rfl | h
      · have g := ha a (List.mem_cons_self ..)
        have hf : d.flag .HT_CFG_EN a = s.flag .HT_CFG_EN a := by unfold Dev.flag; rw [he]
        refine ⟨fun h0 => ?_, fun h1 => ?_⟩
        · rw [(i2 a hn.1).1]
          unfold htOne; rw [if_neg (by rw [hf, h0]; simp), updHt_ht]
        · refine HtSampled.congr ?_ (i2 a hn.1)
          have := htSample_own d a
          have hx : htOne d a = d.htSample a := by unfold htOne; exact if_pos (by rw [hf, h1])
          rw [hx]
          obtain ⟨p1, p2, p3, p4⟩ := this
          refine ⟨p1, p2, fun hcc => ?_, fun hfr => p4 ((fresh_congr a (by rw [g.1]) htb hts).trans hfr)⟩
          rw [p3 (by unfold Dev.flag at hcc ⊢; rw [g.2]; exact hcc)]
          refine List.map_congr_left (fun i _ => ?_)
          unfold Dev.srd; rw [hc]
      · exact i1 a h
    · rw [List.mem_cons, not_or] at hk'
      exact (htOne_at d hk'.1).trans (i2 k hk'.2)

theorem stop_pend (d : Dev) (b : StopBit) (ev : EvCode) (hs : ev.sub < 16) (h : d.evPending ev) : (d.requestStop b).evPending ev := by
  unfold Dev.requestStop; dsimp only
  have h1 : (((d.setBit .AON_STATE_STOPREQ b.num).send .pc (.stopReq ((d.setBit .AON_STATE_STOPREQ b.num).rd .AON_STATE_STOPREQ))).evPending ev) := by
    refine (Dev.send_only _ _ _).evPending _ (Nat.zero_testBit _) ?_
    refine (Dev.Only.wr (c := 0) (r := fieldsMask [.AON_STATE_STOPREQ]) _ _ _ _ rfl (Dev.Only.refl _ _ _) : Dev.Only _ _ _ (Dev.setBit _ _ _ _ _)).evPending _ rfl h
  split
  · exact Dev.raise_pending_of _ _ _ _ hs h1
  · exact (Dev.sendStatus_only _).evPending _ (Nat.zero_testBit _) (Dev.raise_pending_of _ _ _ _ hs h1)

theorem lane_of {c r : Nat} {d e : Dev} (h : Dev.Only c r d e) (hc : c.testBit (Part.ctorIdx .lanes) = false) (n : Nat) : e.lane n = d.lane n := lane_congr (h.parts .lanes hc) n

theorem raise_ht (d : Dev) (e : EvCode) (bs : List Byte) (a : Nat) : (d.raise e bs).ht a = d.ht a := ht_congr ((Dev.raise_only d e bs).parts .heat rfl) a

theorem darken_st (d : Dev) (h : Nat) (c : DarkBit) : ((d.darken h c).lane h).isDark = true ∧ (d.darken h c).rd .HT_STAT_DARK h = 1 := by
  unfold Dev.darken
  refine ⟨?_, rd_wr_self _ _ _ _ _ (by decide)⟩
  rw [wr_lane, updLane_lane]
  unfold Lane.isDark
  dsimp only
  have : withBit (d.lane h).dark c.num ≠ 0 := by
    intro e
    have := bitOf_withBit (d.lane h).dark c.num c.num
    rw [e] at this
    simp [bitOf] at this
  simp [this]

/-! ### Heat and Abacus -/

theorem mch_congr {d e : Dev} (h : e.msub = d.msub) (a : Nat) : e.mch a = d.mch a := by unfold Dev.mch; rw [h]

theorem updMch_mch (d : Dev) (a : Nat) (f : MemCh → MemCh) : (d.updMch a f).mch a = f (d.mch a) := by unfold Dev.mch Dev.updMch; exact Tab.at_upd_same _ _ _

theorem updMch_rd (d : Dev) (a : Nat) (g : MemCh → MemCh) (f : Fld) (i j : Nat) : (d.updMch a g).rd f i j = d.rd f i j := rfl

theorem wr_mch (d : Dev) (f : Fld) (v i j a : Nat) : (d.wr f v i j).mch a = d.mch a := rfl

theorem raise_mch (d : Dev) (e : EvCode) (bs : List Byte) (a : Nat) : (d.raise e bs).mch a = d.mch a := mch_congr ((Dev.raise_only d e bs).parts .msub rfl) a

theorem wrp {d : Dev} {f : Fld} {v i j : Nat} {ev : EvCode} (hf : f ≠ .AON_EVPEND_PEND) (h : d.evPending ev) : (d.wr f v i j).evPending ev :=
  Dev.evPending_congr _ (fun k => by rw [Dev.rd_wr, if_neg (fun x => hf x.1.symm)]) h

theorem setEye_st (d : Dev) (c l rd wr : Nat) (h1 : rd < 256) (h2 : wr < 256) : (d.setEye c l rd wr).rd .MEM_EYE_RD c l = rd ∧ (d.setEye c l rd wr).rd .MEM_EYE_WR c l = wr ∧
    ∀ k, k ≠ l → (d.setEye c l rd wr).rd .MEM_EYE_RD c k = d.rd .MEM_EYE_RD c k ∧ (d.setEye c l rd wr).rd .MEM_EYE_WR c k = d.rd .MEM_EYE_WR c k := by
  unfold Dev.setEye
  dsimp only
  generalize hd1 : Dev.wr _ .MEM_EYE_STALE _ _ _ = d1
  have k : d1.rd .MEM_EYE_RD c l = rd ∧ d1.rd .MEM_EYE_WR c l = wr ∧ ∀ k, k ≠ l → d1.rd .MEM_EYE_RD c k = d.rd .MEM_EYE_RD c k ∧ d1.rd .MEM_EYE_WR c k = d.rd .MEM_EYE_WR c k := by
    rw [← hd1]
    refine ⟨?_, ?_, fun k hk => ⟨?_, ?_⟩⟩
    · rw [Dev.rd_wr, if_neg (by simp), Dev.rd_wr, if_neg (by simp)]; exact rd_wr_self _ _ _ _ _ h1
    · rw [Dev.rd_wr, if_neg (by simp)]; exact rd_wr_self _ _ _ _ _ h2
    · rw [Dev.rd_wr, if_neg (by simp), Dev.rd_wr, if_neg (by simp), Dev.rd_wr, if_neg (fun x => hk x.2.2)]
    · rw [Dev.rd_wr, if_neg (by simp), Dev.rd_wr, if_neg (fun x => hk x.2.2), Dev.rd_wr, if_neg (by simp)]
  split
  · have hr : ∀ f i j, f ∉ [Fld.AON_EVPEND_PEND, .AON_EVLOST_N] → (d1.raise Ev.MEM_EYE_LOW (le 1 c ++ le 1 l ++ le 1 rd ++ le 1 wr)).rd f i j = d1.rd f i j := fun f i j hf =>
      (Dev.raise_only d1 _ _).keep [Fld.AON_EVPEND_PEND, .AON_EVLOST_N] (by decide) hf i j
    refine ⟨(hr _ _ _ (by decide)).trans k.1, (hr _ _ _ (by decide)).trans k.2.1, fun m hm => ⟨(hr _ _ _ (by decide)).trans (k.2.2 m hm).1, (hr _ _ _ (by decide)).trans (k.2.2 m hm).2⟩⟩
  · exact k

theorem eyes_st (l : List ((Byte × Byte) × Nat)) (hn : (l.map (·.2)).Nodup) (d : Dev) :
    (∀ x ∈ l, (d.forEach l (fun d e => d.setEye 1 e.2 e.1.1.toNat e.1.2.toNat)).rd .MEM_EYE_RD 1 x.2 = x.1.1.toNat ∧
      (d.forEach l (fun d e => d.setEye 1 e.2 e.1.1.toNat e.1.2.toNat)).rd .MEM_EYE_WR 1 x.2 = x.1.2.toNat) ∧
    ∀ k, (∀ x ∈ l, k ≠ x.2) → (d.forEach l (fun d e => d.setEye 1 e.2 e.1.1.toNat e.1.2.toNat)).rd .MEM_EYE_RD 1 k = d.rd .MEM_EYE_RD 1 k ∧
      (d.forEach l (fun d e => d.setEye 1 e.2 e.1.1.toNat e.1.2.toNat)).rd .MEM_EYE_WR 1 k = d.rd .MEM_EYE_WR 1 k := by
  unfold Dev.forEach
  induction l generalizing d with
  | nil => exact ⟨fun _ h => absurd h (by simp), fun _ _ => ⟨rfl, rfl⟩⟩
  | cons y t ih =>
    rw [List.map_cons, List.nodup_cons] at hn
    obtain ⟨i1, i2⟩ := ih hn.2 (d.setEye 1 y.2 y.1.1.toNat y.1.2.toNat)
    obtain ⟨e1, e2, e3⟩ := setEye_st d 1 y.2 y.1.1.toNat y.1.2.toNat (BitVec.isLt _) (BitVec.isLt _)
    rw [List.foldl_cons]
    refine ⟨fun x hx => ?_, fun k hk => ?_⟩
    · rcases List.mem_cons.mp hx with rfl | hx
      · have := i2 x.2 (fun z hz e => hn.1 (List.mem_map.mpr ⟨z, hz, e.symm⟩))
        exact ⟨this.1.trans e1, this.2.trans e2⟩
      · exact i1 x hx
    · have h1 := i2 k (fun z hz => hk z (List.mem_cons_of_mem _ hz))
      have h2 := e3 k (hk y (List.mem_cons_self ..))
      exact ⟨h1.1.trans h2.1, h1.2.trans h2.2⟩

theorem sampleMoved_st (d : Dev) (td : Nat) : ((d.sampleMoved td).mch 0).band = (d.mch 0).band ∧ (∀ ev, d.evPending ev → (d.sampleMoved td).evPending ev) := by
  refine ⟨?_, fun ev h => (Dev.sampleMoved_only _ _).evPending _ rfl h⟩
  have hrun : ∀ e : Dev, ((e.startRun).mch 0).band = (e.mch 0).band := by
    intro e
    unfold Dev.startRun
    dsimp only
    have : ∀ (l : List Nat) (x : Dev), (x.forEach l (fun d l => d.wr .MEM_EYE_STALE 1 0 l)).mch 0 = x.mch 0 := fun l x => fold_keep' l _ (fun d => d.mch 0) x (fun _ _ => rfl)
    rw [this, updMch_mch]; rfl
  unfold Dev.sampleMoved
  split
  · split
    · unfold Dev.pendRun
      dsimp only
      split
      · rw [updMch_mch, updMch_mch]; rfl
      · rw [hrun, updMch_mch]; rfl
    · rw [updMch_mch]
  · rw [updMch_mch]

theorem sampleBand_st (d : Dev) (c : Nat) (band : Thr) (hb : band = (d.mch c).band.sample (d.srd .MEM_TEMP_TD c) 1360 1328) :
    ((d.sampleBand c).mch c).band = band ∧
    ((d.mch c).band.on = false → band.on = true → (d.sampleBand c).rd .MEM_CH_STAT_BAND2X c = 1 ∧ (d.sampleBand c).rd .MEM_CH_STAT_OWED c = 0 ∧ (d.sampleBand c).evPending Ev.MEM_REF2X) ∧
    ((d.mch c).band.on = true → band.on = false → (d.sampleBand c).rd .MEM_CH_STAT_BAND2X c = 0 ∧ (d.sampleBand c).evPending Ev.MEM_REF2X) := by
  unfold Dev.sampleBand
  dsimp only
  rw [← hb]
  split
  · next h =>
    have hon : (d.mch c).band.on = false ∧ band.on = true := by simpa using h
    refine ⟨?_, fun _ _ => ⟨?_, rd_wr_self _ _ _ _ _ (by decide), wrp (by decide) (Dev.raise_pending _ _ _ (by decide))⟩, fun x _ => absurd (hon.1.symm.trans x) (by decide)⟩
    · rw [wr_mch, raise_mch, wr_mch, updMch_mch]
    · rw [Dev.rd_wr, if_neg (by simp), (Dev.raise_only _ _ _).rd _ _ _ rfl]; exact rd_wr_self _ _ _ _ _ (by decide)
  · next h =>
    split
    · next h2 =>
      have hon : (d.mch c).band.on = true ∧ band.on = false := by simpa using h2
      refine ⟨?_, fun x _ => absurd (hon.1.symm.trans x) (by decide), fun _ _ => ⟨?_, Dev.raise_pending _ _ _ (by decide)⟩⟩
      · rw [raise_mch, updMch_mch, wr_mch, updMch_mch]
      · rw [(Dev.raise_only _ _ _).rd _ _ _ rfl, updMch_rd]; exact rd_wr_self _ _ _ _ _ (by decide)
    · next h2 =>
      refine ⟨by rw [updMch_mch], fun a b => absurd (by rw [a, b]; rfl) h, fun a b => absurd (by rw [a, b]; rfl) h2⟩

theorem memLog_st (d : Dev) (a die : Nat) (ue : Bool) (hd : die < 16) : (d.memLog a die ue).rd .MEM_ELOG_HI_DIE (chanOf a) = die ∧ (d.memLog a die ue).rd .MEM_ELOG_HI_UE (chanOf a) = bit ue := by
  unfold Dev.memLog
  dsimp only
  refine ⟨?_, ?_⟩
  · rw [Dev.rd_wr, if_neg (by simp), Dev.rd_wr, if_neg (by simp)]; exact rd_wr_self _ _ _ _ _ hd
  · rw [Dev.rd_wr, if_neg (by simp)]; exact rd_wr_self _ _ _ _ _ (bit_lt _)

theorem memCe_st (d : Dev) (a die : Nat) (hd : die < 16) : (d.memCe a die).rd .MEM_CE_N (chanOf a) = min (d.rd .MEM_CE_N (chanOf a) + 1) (2 ^ 32 - 1) ∧
    (d.memCe a die).rd .MEM_ELOG_HI_DIE (chanOf a) = die ∧ (d.memCe a die).rd .MEM_ELOG_HI_UE (chanOf a) = 0 := by
  unfold Dev.memCe
  dsimp only
  generalize hd1 : (d.inc .MEM_CE_N (chanOf a)).memLog a die false = d1
  have k : d1.rd .MEM_CE_N (chanOf a) = min (d.rd .MEM_CE_N (chanOf a) + 1) (2 ^ 32 - 1) ∧ d1.rd .MEM_ELOG_HI_DIE (chanOf a) = die ∧ d1.rd .MEM_ELOG_HI_UE (chanOf a) = 0 := by
    rw [← hd1]
    refine ⟨?_, memLog_st _ a die false hd⟩
    rw [(Dev.memLog_only _ _ _ _).rd _ _ _ (by decide), inc_rd]; rfl
  clear hd1
  have hr : ∀ (x : Dev) e bs, x.rd .MEM_CE_N (chanOf a) = d1.rd .MEM_CE_N (chanOf a) → x.rd .MEM_ELOG_HI_DIE (chanOf a) = d1.rd .MEM_ELOG_HI_DIE (chanOf a) →
      x.rd .MEM_ELOG_HI_UE (chanOf a) = d1.rd .MEM_ELOG_HI_UE (chanOf a) → (x.raise e bs).rd .MEM_CE_N (chanOf a) = min (d.rd .MEM_CE_N (chanOf a) + 1) (2 ^ 32 - 1) ∧
      (x.raise e bs).rd .MEM_ELOG_HI_DIE (chanOf a) = die ∧ (x.raise e bs).rd .MEM_ELOG_HI_UE (chanOf a) = 0 := fun x e bs a1 a2 a3 =>
    ⟨((Dev.raise_only _ _ _).rd _ _ _ rfl).trans (a1.trans k.1), ((Dev.raise_only _ _ _).rd _ _ _ rfl).trans (a2.trans k.2.1), ((Dev.raise_only _ _ _).rd _ _ _ rfl).trans (a3.trans k.2.2)⟩
  split
  · split
    · exact k
    · exact hr _ _ _ rfl rfl rfl
  · exact hr _ _ _ rfl rfl rfl

/-! ### Trace and temperature -/

theorem updPtp_rd (d : Dev) (g : Ptp → Ptp) (f : Fld) (i j : Nat) : (d.updPtp g).rd f i j = d.rd f i j := rfl

theorem unlock_st (d : Dev) (c : Nat) : (d.ptpUnlock c).rd .PTP_STAT_LOCK = 0 ∧ (d.flag .PTP_STAT_LOCK = true → (d.ptpUnlock c).evPending Ev.PTP_UNLOCK) ∧
    (d.ptpUnlock c).ptp.master = d.ptp.master ∧ (d.ptpUnlock c).ptp.own = d.ptp.own := by
  unfold Dev.ptpUnlock
  split
  · next h =>
    have h' : d.flag .PTP_STAT_LOCK = false := by simpa using h
    refine ⟨?_, fun h2 => absurd (h'.symm.trans h2) (by decide), rfl, rfl⟩
    unfold Dev.flag at h'; simpa using h'
  · dsimp only
    generalize hd1 : ({ (Dev.updPtp _ _) with tb := _ } : Dev) = d1
    have k : d1.rd .PTP_STAT_LOCK = 0 ∧ d1.ptp.master = d.ptp.master ∧ d1.ptp.own = d.ptp.own := by
      rw [← hd1]
      exact ⟨(show Dev.rd (Dev.wr d .PTP_STAT_LOCK 0) .PTP_STAT_LOCK = 0 from rd_wr_self _ _ _ _ _ (by decide)), rfl, rfl⟩
    clear hd1
    generalize hd2 : (if d1.flag .TB_CTL_SRC = true then d1 else d1.wr .TB_CTL_HOLDOVER 1) = d2
    have k2 : d2.rd .PTP_STAT_LOCK = 0 ∧ d2.ptp = d1.ptp := by
      rw [← hd2]; split
      · exact ⟨k.1, rfl⟩
      · exact ⟨by rw [Dev.rd_wr, if_neg (by simp)]; exact k.1, rfl⟩
    clear hd2
    have hp : ∀ bs, (d2.raise Ev.PTP_UNLOCK bs).ptp = d2.ptp := fun bs => (Dev.raise_only _ _ _).parts .ptp rfl
    refine ⟨((Dev.raise_only _ _ _).rd _ _ _ rfl).trans k2.1, fun _ => Dev.raise_pending _ _ _ (by decide), ?_, ?_⟩
    · rw [hp, k2.2]; exact k.2.1
    · rw [hp, k2.2]; exact k.2.2

theorem servo_st (d : Dev) (o : Int) : ((d.servoRate).stepMain o).ptp.good = d.ptp.good ∧ ((d.servoRate).stepMain o).ptp.bad = d.ptp.bad := by
  have h1 : (d.servoRate).ptp.good = d.ptp.good ∧ (d.servoRate).ptp.bad = d.ptp.bad := by
    unfold Dev.servoRate
    dsimp only
    generalize hx : Dev.updPtp _ _ = x
    have hx1 : x.ptp.good = d.ptp.good ∧ x.ptp.bad = d.ptp.bad := by rw [← hx]; exact ⟨rfl, rfl⟩
    split <;> exact hx1
  have h2 : ((d.servoRate).stepMain o).ptp = (d.servoRate).ptp := (Dev.stepMain_only _ _).parts .ptp (by decide)
  rw [h2]; exact h1

theorem ptpOn_near (g : Nat) (b : Bool) : (16 ≤ (if b = true then min 16 (g + 1) else 0)) ↔ (b = true ∧ 15 ≤ g) := by cases b <;> simp <;> omega

theorem ptpOn_far (g : Nat) (b : Bool) : (4 ≤ (if b = true then min 4 (g + 1) else 0)) ↔ (b = true ∧ 3 ≤ g) := by cases b <;> simp <;> omega

theorem setMaster_st (d : Dev) (m : Option Nat) : (d.setMaster m).ptp.master = m ∧ (d.ptp.master ≠ m → (d.setMaster m).rd .PTP_STAT_LOCK = 0 ∧
    (d.setMaster m).rd .PTP_STAT_GMCHG = min (d.rd .PTP_STAT_GMCHG + 1) 65535) := by
  unfold Dev.setMaster
  split
  · next h => exact ⟨h, fun h' => absurd h h'⟩
  · obtain ⟨u1, u2, u3, u4⟩ := unlock_st ((d.updPtp (fun p => { p with master := m, good := 0, bad := 0 })).inc .PTP_STAT_GMCHG) 2
    refine ⟨u3.trans rfl, fun _ => ⟨u1, ?_⟩⟩
    rw [(Dev.ptpUnlock_only _ _).rd _ _ _ rfl, inc_rd, updPtp_rd]; rfl

theorem toMain_st (d : Dev) (x : Int) : (d.toMain x).rd .TB_CTL_SRC = 0 ∧ (d.toMain x).evPending Ev.TB_MAIN := by
  unfold Dev.toMain
  dsimp only
  refine ⟨((Dev.raise_only _ _ _).rd _ _ _ rfl).trans ?_, Dev.raise_pending _ _ _ (by decide)⟩
  rw [Dev.rd_wr, if_neg (by simp)]; exact rd_wr_self _ _ _ _ _ (by decide)

/-! ### Time and ring -/

def RMO (d e : Dev) : Prop := e.ring.members = d.ring.members ∧ e.ring.orig = d.ring.orig ∧ e.ring.running = d.ring.running ∧ e.ring.pulseAt = d.ring.pulseAt

theorem RMO.refl (d : Dev) : RMO d d := ⟨rfl, rfl, rfl, rfl⟩

theorem RMO.trans {d e f : Dev} (h : RMO d e) (k : RMO e f) : RMO d f :=
  ⟨k.1.trans h.1, k.2.1.trans h.2.1, k.2.2.1.trans h.2.2.1, k.2.2.2.trans h.2.2.2⟩

theorem RMO.of {c r : Nat} {d e : Dev} (h : Dev.Only c r d e) (hc : c.testBit (Part.ctorIdx .ring) = false) : RMO d e := by
  have := h.parts .ring hc
  have h' : e.ring = d.ring := this
  unfold RMO; rw [h']; exact ⟨rfl, rfl, rfl, rfl⟩

theorem RMO.forEach {α : Type} (l : List α) (f : Dev → α → Dev) (h : ∀ d x, RMO d (f d x)) (d : Dev) : RMO d (d.forEach l f) := by
  unfold Dev.forEach
  induction l generalizing d with
  | nil => exact RMO.refl d
  | cons x l ih => rw [List.foldl_cons]; exact (h d x).trans (ih _)

theorem ringMaster_mo (d : Dev) : RMO d d.ringMaster := by
  unfold Dev.ringMaster
  split
  · exact RMO.refl d
  · dsimp only
    split
    · split
      · exact ⟨rfl, rfl, rfl, rfl⟩
      · refine RMO.trans ?_ (RMO.of (Dev.raise_only _ _ _) rfl)
        exact ⟨rfl, rfl, rfl, rfl⟩
    · exact ⟨rfl, rfl, rfl, rfl⟩

theorem updPend_mo (d : Dev) (x : Nat) : RMO d (d.updAx x (fun x => { x with pend := none })) := RMO.of (Dev.updAx_only _ _ _) rfl

theorem dropGroup_mo (d : Dev) (g c : Nat) : RMO d (d.dropGroup g c) := by
  unfold Dev.dropGroup
  dsimp only
  have h := RMO.forEach (d.groupAxes g) _ updPend_mo d
  generalize d.forEach (d.groupAxes g) _ = d1 at h ⊢
  refine RMO.trans h (RMO.trans ?_ (RMO.of (Dev.raise_only _ _ _) rfl))
  exact ⟨rfl, rfl, rfl, rfl⟩

theorem groupStart_mo (d : Dev) (g : Nat) (e : Int) : RMO d (d.groupStart g e) := by
  unfold Dev.groupStart
  split
  · exact RMO.refl d
  · split
    · exact dropGroup_mo _ _ _
    · split
      · exact dropGroup_mo _ _ _
      · exact ⟨rfl, rfl, rfl, rfl⟩

theorem masterGroups_mo (d : Dev) : RMO d d.masterGroups := by
  unfold Dev.masterGroups
  split
  · exact RMO.refl d
  · refine RMO.forEach _ _ (fun d g => ?_) d
    split
    · exact ⟨rfl, rfl, rfl, rfl⟩
    · split
      · exact RMO.refl d
      · dsimp only
        refine RMO.trans (RMO.trans ?_ (RMO.of (Dev.ringSend_only _ _) rfl)) (groupStart_mo _ _ _)
        exact ⟨rfl, rfl, rfl, rfl⟩

def osrc (d : Dev) (id : Nat) (o : Orig) : Nat :=
  if o.frames || o.lost || o.down then withBit (d.rd .RING_STAT_HOLDSRC) id else withoutBit (d.rd .RING_STAT_HOLDSRC) id

def ofin (d : Dev) (src : Nat) : Dev := if src = 0 then d.setHold .ring false else if d.held .ring then d else d.holdCause .ring

theorem updOrig_eq (d : Dev) (id : Nat) (f : Orig → Orig) : d.updOrig id f =
    ofin ((d.updRing (fun r => { r with orig := Tab.put r.orig id (f (Tab.at d.ring.orig id)) })).wr .RING_STAT_HOLDSRC
      (osrc d id (f (Tab.at d.ring.orig id)))) (osrc d id (f (Tab.at d.ring.orig id))) := rfl

theorem ofin_only (d : Dev) (src : Nat) : Dev.Only (partsMask [.holdSeen, .xpp, .out]) (fieldsMask [.AON_STATE_HOLDC]) d (ofin d src) := by
  unfold ofin
  split
  · exact (Dev.setHold_only _ _ _).mono rfl rfl
  · split
    · exact Dev.Only.refl _ _ _
    · exact (Dev.holdCause_only _ _).mono rfl rfl

theorem ofin_held (d : Dev) (src : Nat) : (ofin d src).held .ring = decide (src ≠ 0) ∧ (∀ h, h ≠ .ring → (ofin d src).held h = d.held h) := by
  unfold ofin
  split
  · next h0 => exact ⟨by rw [setHold_held, h0]; rfl, fun h hne => setHold_other _ _ _ _ hne⟩
  · next h0 =>
    split
    · next hh => exact ⟨by rw [hh]; simp [h0], fun _ _ => rfl⟩
    · exact ⟨by rw [holdCause_held]; simp [h0], fun h hne => setHold_other _ _ _ _ hne⟩

theorem updOrig_st (d : Dev) (id : Nat) (f : Orig → Orig) (hid : id < 8) :
    (Tab.at (d.updOrig id f).ring.orig id : Orig) = f (Tab.at d.ring.orig id) ∧
    (∀ i, i ≠ id → (Tab.at (d.updOrig id f).ring.orig i : Orig) = Tab.at d.ring.orig i) ∧
    (d.updOrig id f).ring.members = d.ring.members ∧ (d.updOrig id f).ring.running = d.ring.running ∧
    (d.updOrig id f).ring.pulseAt = d.ring.pulseAt ∧
    bitOf ((d.updOrig id f).rd .RING_STAT_HOLDSRC) id = ((f (Tab.at d.ring.orig id)).frames || (f (Tab.at d.ring.orig id)).lost || (f (Tab.at d.ring.orig id)).down) ∧
    ((d.updOrig id f).held .ring = decide (osrc d id (f (Tab.at d.ring.orig id)) ≠ 0)) ∧
    (∀ h, h ≠ .ring → (d.updOrig id f).held h = d.held h) := by
  rw [updOrig_eq]
  generalize f (Tab.at d.ring.orig id) = o
  generalize hs : osrc d id o = src
  generalize hd1 : Dev.wr _ Fld.RING_STAT_HOLDSRC _ _ _ = d1
  have k : d1.ring.orig = Tab.put d.ring.orig id o ∧ d1.ring.members = d.ring.members ∧ d1.ring.running = d.ring.running ∧ d1.ring.pulseAt = d.ring.pulseAt ∧
      d1.rd .RING_STAT_HOLDSRC = src % 2 ^ 8 ∧ (∀ h, d1.held h = d.held h) := by
    rw [← hd1]
    refine ⟨rfl, rfl, rfl, rfl, ?_, fun h => ?_⟩
    · rw [Dev.rd_wr, if_pos ⟨rfl, rfl, rfl⟩]; rfl
    · unfold Dev.held; rw [Dev.rd_wr, if_neg (by simp)]; rfl
  clear hd1
  obtain ⟨k1, k2, k3, k4, k5, k6⟩ := k
  have er : (ofin d1 src).ring = d1.ring := (ofin_only d1 src).parts .ring rfl
  have es : (ofin d1 src).rd .RING_STAT_HOLDSRC = d1.rd .RING_STAT_HOLDSRC := (ofin_only d1 src).rd _ _ _ rfl
  obtain ⟨h1, h2⟩ := ofin_held d1 src
  refine ⟨?_, fun i hi => ?_, ?_, ?_, ?_, ?_, h1, fun h hne => (h2 h hne).trans (k6 h)⟩
  · rw [er, k1]; exact Tab.at_put_same _ _ _
  · rw [er, k1]; exact Tab.at_put_ne _ _ hi
  · rw [er, k2]
  · rw [er, k3]
  · rw [er, k4]
  · rw [es, k5, ← hs]
    unfold osrc
    split
    · next h => rw [bitOf_withBit_mod _ _ _ hid, h]
    · next h => rw [bitOf_withoutBit_mod _ _ _ hid]; simpa using h

def undown (o : Orig) : Orig := { o with down := false }

/-- After a good frame no originator stands for the ring being down; the rest is as it was. -/
def AliveAt (d e : Dev) (n : Nat) : Prop := e.ring.members = d.ring.members ∧ e.ring.running = d.ring.running ∧ e.ring.pulseAt = d.ring.pulseAt ∧
  (∀ i, i < n → (Tab.at e.ring.orig i : Orig) = undown (Tab.at d.ring.orig i)) ∧ (∀ i, n ≤ i → (Tab.at e.ring.orig i : Orig) = Tab.at d.ring.orig i) ∧
  (∀ h, h ≠ .ring → e.held h = d.held h)

theorem aliveLoop (n : Nat) (hn : n ≤ 8) (d : Dev) : AliveAt d (d.forEach (List.range n) (fun d i =>
    if (Tab.at d.ring.orig i : Orig).down then d.updOrig i (fun o => { o with down := false }) else d)) n := by
  induction n with
  | zero => exact ⟨rfl, rfl, rfl, fun i hi => absurd hi (Nat.not_lt_zero _), fun _ _ => rfl, fun _ _ => rfl⟩
  | succ n ih =>
    unfold Dev.forEach at ih ⊢
    rw [List.range_succ, List.foldl_append, List.foldl_cons, List.foldl_nil]
    have ih := ih (by omega)
    generalize List.foldl _ d (List.range n) = e at ih ⊢
    obtain ⟨a1, a2, a3, a4, a5, a6⟩ := ih
    split
    · obtain ⟨b1, b2, b3, b4, b5, -, -, b8⟩ := updOrig_st e n (fun o => { o with down := false }) (by omega)
      refine ⟨b3.trans a1, b4.trans a2, b5.trans a3, fun i hi => ?_, fun i hi => ?_, fun h hne => (b8 h hne).trans (a6 h hne)⟩
      · by_cases hin : i = n
        · rw [hin, b1, a5 n (Nat.le_refl n)]; rfl
        · rw [b2 i hin]; exact a4 i (by omega)
      · rw [b2 i (by omega)]; exact a5 i (by omega)
    · next hd =>
      refine ⟨a1, a2, a3, fun i hi => ?_, fun i hi => a5 i (by omega), a6⟩
      by_cases hin : i = n
      · rw [hin, a5 n (Nat.le_refl n)]
        rw [a5 n (Nat.le_refl n)] at hd
        unfold undown
        cases ho : (Tab.at d.ring.orig n : Orig) with
        | mk f l w => rw [ho] at hd; dsimp only at hd ⊢; simp only [Bool.not_eq_true] at hd; rw [hd]
      · exact a4 i (by omega)

theorem held_of {c r : Nat} {d e : Dev} (h : Dev.Only c r d e) (hr : r.testBit (Fld.ctorIdx .AON_STATE_HOLDC) = false) (b : HoldBit) : e.held b = d.held b := by
  unfold Dev.held; rw [h.rd _ _ _ hr]

theorem alive_st (d : Dev) : AliveAt d d.ringAlive 8 := by
  unfold Dev.ringAlive
  dsimp only
  generalize hd1 : Dev.updRing (if (d.flag .RING_STAT_UP && decide (d.ring.frameAt + 1000000 < d.now)) = true then d.inc .RING_CNT_GAPS else d) _ = d1
  have k : d1.ring.members = d.ring.members ∧ d1.ring.running = d.ring.running ∧ d1.ring.pulseAt = d.ring.pulseAt ∧ d1.ring.orig = d.ring.orig ∧ (∀ h, d1.held h = d.held h) := by
    rw [← hd1]
    split
    · exact ⟨rfl, rfl, rfl, rfl, fun h => held_of (Dev.Only.inc .RING_CNT_GAPS 0 0 rfl (Dev.Only.refl 0 (fieldsMask [.RING_CNT_GAPS]) d)) rfl h⟩
    · exact ⟨rfl, rfl, rfl, rfl, fun h => rfl⟩
  clear hd1
  obtain ⟨k1, k2, k3, k4, k5⟩ := k
  have ha := aliveLoop 8 (by decide) d1
  generalize d1.forEach (List.range 8) _ = d2 at ha ⊢
  obtain ⟨a1, a2, a3, a4, a5, a6⟩ := ha
  have base : AliveAt d d2 8 := ⟨a1.trans k1, a2.trans k2, a3.trans k3, fun i hi => by rw [a4 i hi, k4], fun i hi => by rw [a5 i hi, k4], fun h hne => (a6 h hne).trans (k5 h)⟩
  split
  · exact base
  · obtain ⟨c1, c2, c3, c4, c5, c6⟩ := base
    have hm := ringMaster_mo (d2.wr .RING_STAT_UP 1)
    have hr := RMO.of (Dev.raise_only (d2.wr .RING_STAT_UP 1).ringMaster Ev.RING_UP (le 1 (Dev.rd (d2.wr .RING_STAT_UP 1).ringMaster .RING_STAT_MEMBERS))) rfl
    have ht := hm.trans hr
    refine ⟨ht.1.trans c1, ht.2.2.1.trans c2, ht.2.2.2.trans c3, fun i hi => ?_, fun i hi => ?_, fun h hne => ?_⟩
    · rw [ht.2.1]; exact c4 i hi
    · rw [ht.2.1]; exact c5 i hi
    · rw [held_of (Dev.raise_only _ _ _) rfl, held_of (Dev.ringMaster_only _) rfl]
      refine Eq.trans ?_ (c6 h hne)
      unfold Dev.held; rw [Dev.rd_wr, if_neg (by simp)]

theorem frame_st (d : Dev) (src hops : Nat) (pay : RingPay) (k : Dev → Dev) (hon : d.ringOn = true) : ∃ e, d.ringFrame src hops pay k = k e ∧ AliveAt d e 8 ∧
    Dev.Only (partsMask [.holdSeen, .xpp, .trace, .ring, .evr, .out]) (fieldsMask [.AON_STATE_HOLDC, .AON_EVPEND_PEND, .AON_EVLOST_N, .RING_STAT_UP, .RING_STAT_MASTER, .RING_STAT_MID, .RING_STAT_MEMBERS, .RING_STAT_HOLDSRC, .RING_CNT_GAPS]) d e ∧
    (src ≠ d.ringId → hops + 1 < 8 → Output.ring ⟨src, hops + 1, pay⟩ ∈ e.out) := by
  unfold Dev.ringFrame
  rw [if_neg (by rw [hon]; simp)]
  dsimp only
  have ho := Dev.ringAlive_only d
  have ha := alive_st d
  have hid : d.ringAlive.ringId = d.ringId := ho.rd _ _ _ rfl
  rw [hid]
  generalize d.ringAlive = d1 at ho ha ⊢
  refine ⟨_, rfl, ?_, ?_, fun h1 h2 => ?_⟩
  · split
    · exact ha
    · exact ha
  · split
    · exact ho.mono rfl rfl
    · exact (ho.mono rfl rfl).trans ((Dev.emit_only _ _).mono rfl rfl)
  · rw [if_neg (by simp [h1]; omega)]
    exact List.mem_cons_self ..

theorem bitOf_zero (k : Nat) : bitOf 0 k = false := by simp [bitOf]


theorem mem_put (t : Tab Nat (Option Member)) (n : Nat) (v : Option Member) : Tab.at (Tab.put t n v) n = v := Tab.at_put_same t n v

theorem ep_put (t : Tab Nat (Option Nat)) (n : Nat) (v : Option Nat) : Tab.at (Tab.put t n v) n = v := Tab.at_put_same t n v

theorem anyPend_congr {d e : Dev} (h : e.boot = d.boot) (k : e.axes = d.axes) (g : Nat) : e.anyPend g = d.anyPend g := by
  unfold Dev.anyPend Dev.groupAxes Dev.ax; rw [h, k]

theorem dropGroup_st (d : Dev) (g c : Nat) : (d.dropGroup g c).anyPend g = false ∧ Tab.at (d.dropGroup g c).ring.epochs g = (none : Option Nat) ∧
    (d.dropGroup g c).evPending Ev.RING_START_REFUSED := by
  unfold Dev.dropGroup
  dsimp only
  have h1 : ∀ (l : List Nat) (d : Dev) (a : Nat), (a ∈ l ∨ (d.ax a).pend = none) → ((d.forEach l (fun d a => d.updAx a (fun x => { x with pend := none }))).ax a).pend = none := by
    intro l
    induction l with
    | nil => intro d a h; rcases h with h | h
             · cases h
             · exact h
    | cons x l ih =>
      intro d a h
      unfold Dev.forEach at ih ⊢
      rw [List.foldl_cons]
      refine ih _ _ ?_
      by_cases hx : a = x
      · right; rw [hx, updAx_ax]
      · rcases h with h | h
        · rcases List.mem_cons.1 h with h | h
          · exact absurd h hx
          · exact Or.inl h
        · right; rw [updAx_ne _ _ hx]; exact h
  have hl := h1 (d.groupAxes g) d
  have hb : (d.forEach (d.groupAxes g) (fun d a => d.updAx a (fun x => { x with pend := none }))).boot = d.boot :=
    (forEach_only _ _ _ (fun d x => (Dev.updAx_only d x _)) : Dev.Only _ _ d (d.forEach (d.groupAxes g) _)).parts .boot rfl
  generalize d.forEach (d.groupAxes g) _ = d1 at hl hb ⊢
  have hr := Dev.raise_only (d1.updRing (fun r => { r with epochs := Tab.put r.epochs g none })) Ev.RING_START_REFUSED (le 1 g ++ le 1 c)
  refine ⟨?_, ?_, Dev.raise_pending _ _ _ (by decide)⟩
  · rw [anyPend_congr (hr.parts .boot rfl) (hr.parts .axes rfl)]
    show d1.anyPend g = false
    unfold Dev.anyPend
    rw [show d1.groupAxes g = d.groupAxes g from by unfold Dev.groupAxes; rw [hb]]
    rw [List.any_eq_false]
    intro a ha
    rw [hl a (Or.inl ha)]; simp
  · rw [show (Dev.raise _ _ _).ring = _ from hr.parts .ring rfl]
    exact ep_put d1.ring.epochs g none

theorem fullTime_congr {d e : Dev} (h : e.now = d.now) (a b : Nat) : e.fullTime a b = d.fullTime a b := by unfold Dev.fullTime; rw [h]

theorem satSigned_lt (o : Int) : satSigned 32 o < 2 ^ 32 := by unfold satSigned unsign; exact BitVec.isLt _

/-! ### Register accesses -/

theorem prot_st (d : Dev) (a lvl : Nat) (w : Bool) (hl : lvl < 4) : (d.protRefuse 0 a lvl w).rd .NOC_PV_VALID ≠ 0 ∧ (d.protRefuse 0 a lvl w).evPending Ev.NOC_PROT ∧
    (d.flag .NOC_PV_VALID = false → (d.protRefuse 0 a lvl w).rd .NOC_PV_LVL = lvl ∧ (d.protRefuse 0 a lvl w).rd .NOC_PV_WR = bit w ∧
      (d.protRefuse 0 a lvl w).rd .NOC_PV_SPACE = 0 ∧ (d.protRefuse 0 a lvl w).rd .NOC_PV_VALID = 1) ∧
    (d.flag .NOC_PV_VALID = true → ∀ f ∈ [Fld.NOC_PV_LVL, .NOC_PV_WR, .NOC_PV_SPACE, .NOC_PV_REGION, .NOC_PV_VALID, .NOC_PV_ADDR_ADDR],
      (d.protRefuse 0 a lvl w).rd f = d.rd f) := by
  unfold Dev.protRefuse
  dsimp only
  have hr : ∀ (e : Dev) (bs : List Byte) (f : Fld), f ∈ [Fld.NOC_PV_LVL, .NOC_PV_WR, .NOC_PV_SPACE, .NOC_PV_REGION, .NOC_PV_VALID, .NOC_PV_ADDR_ADDR] →
      ∀ i j, (e.raise Ev.NOC_PROT bs).rd f i j = e.rd f i j := by
    intro e bs f hf i j
    simp only [List.mem_cons, List.not_mem_nil, or_false] at hf
    rcases hf with h | h | h | h | h | h <;> subst h <;> exact (Dev.raise_only _ _ _).rd _ _ _ rfl
  by_cases hv : d.flag .NOC_PV_VALID = true
  · rw [if_pos hv]
    refine ⟨?_, Dev.raise_pending _ _ _ (by decide), fun h => absurd (hv.symm.trans h) (by decide), fun _ f hf => ?_⟩
    · rw [hr _ _ _ (by decide)]; unfold Dev.flag at hv; simpa using hv
    · exact hr _ _ _ hf 0 0
  · rw [if_neg hv]
    refine ⟨?_, Dev.raise_pending _ _ _ (by decide), fun _ => ⟨?_, ?_, ?_, ?_⟩, fun h => absurd h hv⟩
    · rw [hr _ _ _ (by decide), Dev.rd_wr, if_neg (by simp), rd_wr_self _ _ _ _ _ (by decide)]; decide
    · rw [hr _ _ _ (by decide)]
      simp only [Dev.rd_wr, reduceCtorEq, false_and, if_false, and_self, if_true]
      exact Nat.mod_eq_of_lt hl
    · rw [hr _ _ _ (by decide)]
      simp only [Dev.rd_wr, reduceCtorEq, false_and, if_false, and_self, if_true]
      exact Nat.mod_eq_of_lt (bit_lt w)
    · rw [hr _ _ _ (by decide)]
      simp only [Dev.rd_wr, reduceCtorEq, false_and, if_false, and_self, if_true]
      rfl
    · rw [hr _ _ _ (by decide)]
      simp only [Dev.rd_wr, reduceCtorEq, false_and, if_false, and_self, if_true]
      rfl

theorem bus_st (s : State) (a lvl c : Nat) (w : Bool) (hl : lvl < 4) (hc : c < 4) (ha : a < 2 ^ 32) : (s.dev.busError a lvl c w).rd .AON_BUSERR_VALID ≠ 0 ∧
    (s.dev.flag .AON_BUSERR_VALID = false → (s.dev.busError a lvl c w).rd .AON_BUSERR_LVL = lvl ∧ (s.dev.busError a lvl c w).rd .AON_BUSERR_WR = bit w ∧
      (s.dev.busError a lvl c w).rd .AON_BUSERR_CAUSE = c ∧ (s.dev.busError a lvl c w).rd .AON_BUSERR_VALID = 1 ∧ (s.dev.busError a lvl c w).rd .AON_BUSERR_ADDR_ADDR = a) ∧
    (s.dev.flag .AON_BUSERR_VALID = true → ({ s with dev := s.dev.busError a lvl c w } : State) = s) := by
  unfold Dev.busError
  by_cases hv : s.dev.flag .AON_BUSERR_VALID = true
  · rw [if_pos hv]
    refine ⟨?_, fun h => absurd (hv.symm.trans h) (by decide), fun _ => rfl⟩
    unfold Dev.flag at hv; simpa using hv
  · rw [if_neg hv]
    refine ⟨?_, fun _ => ⟨?_, ?_, ?_, ?_, ?_⟩, fun h => absurd h hv⟩
    · rw [Dev.rd_wr, if_neg (by simp), rd_wr_self _ _ _ _ _ (by decide)]; decide
    all_goals simp only [Dev.rd_wr, reduceCtorEq, false_and, if_false, and_self, if_true]
    · exact Nat.mod_eq_of_lt hl
    · exact Nat.mod_eq_of_lt (bit_lt w)
    · exact Nat.mod_eq_of_lt hc
    · rfl
    · exact Nat.mod_eq_of_lt ha

theorem invalid_st (d : Dev) (lvl a width : Nat) (w : Bool) (c : Nat) (h : d.allowed 0 a lvl w = true)
    (hc : (width ≠ 4 ∨ a % 4 ≠ 0) ∧ c = 1 ∨ width = 4 ∧ a % 4 = 0 ∧ (findReg a = none ∧ c = 0 ∨
      ∃ r i j, findReg a = some (r, i, j) ∧ d.absent r i = false ∧ d.domOn (domOf r i) = false ∧ c = 2)) :
    d.invalidAccess lvl a width w = d.busError a lvl c w ∧ c < 4 := by
  unfold Dev.invalidAccess
  rw [if_neg (by rw [h]; simp)]
  rcases hc with ⟨h1, rfl⟩ | ⟨h1, h2, ⟨h3, rfl⟩ | ⟨r, i, j, h3, h4, h5, rfl⟩⟩
  · rw [if_pos (by rcases h1 with h | h <;> simp [h])]; exact ⟨rfl, by decide⟩
  · rw [if_neg (by simp [h1, h2]), h3]; exact ⟨rfl, by decide⟩
  · rw [if_neg (by simp [h1, h2]), h3]
    dsimp only
    rw [if_neg (by rw [h4, h5]; simp)]; exact ⟨rfl, by decide⟩

theorem writeField_id (d : Dev) (lvl v : Nat) (f : Fld) (i j : Nat) (h : (fldSpec f).acc = .ro ∨ (fldSpec f).acc = .rwp ∧ lvl ≠ 3) : d.writeField lvl v f i j = d := by
  unfold Dev.writeField
  dsimp only
  rcases h with h | ⟨h, hl⟩
  · rw [h]
  · rw [h]; dsimp only; rw [if_neg hl]

theorem elem_false {f : Fld} {l : List Fld} (h : f ∉ l) : l.elem f = false := by
  cases hb : l.elem f with
  | false => rfl
  | true => exact absurd (List.elem_iff.1 hb) h

theorem regWrite_on {s : State} {lvl a v : Nat} {r : RegInfo} {i j : Nat} (h1 : s.dev.allowed 0 a lvl true = true) (h2 : a % 4 = 0) (h3 : findReg a = some (r, i, j))
    (h4 : s.dev.absent r i = false) (h5 : s.dev.domOn (domOf r i) = true) :
    s.regWrite lvl a v = ({ s with dev := s.dev.writeWord lvl v r i j } : State).writeActs s.dev v r i := by
  unfold State.regWrite
  dsimp only
  rw [if_neg (by rw [h1]; simp), if_neg (by rw [h2]; simp), h3]
  dsimp only
  rw [if_neg (by rw [h4]; simp), if_neg (by rw [h5]; simp)]

theorem word_one (d : Dev) (lvl v : Nat) (r : RegInfo) (i j : Nat) (f : Fld) (hr : r.fields = [f]) (hz : f ≠ .ZL_LPCTL_PARK) : d.writeWord lvl v r i j = d.writeField lvl v f i j := by
  unfold Dev.writeWord
  dsimp only
  rw [hr, elem_false (by simpa using Ne.symm hz)]
  rfl

theorem acts_none (s : State) (was : Dev) (v : Nat) (r : RegInfo) (i : Nat) (h1 : Fld.DMA_RTAIL_IDX ∉ r.fields) (h2 : Fld.RW_SKIP_CTL_ARM ∉ r.fields) (h3 : Fld.CR_BOOTSEL_RESTART ∉ r.fields)
    (h4 : Fld.RKC_MITTEN_MIT ∉ r.fields) : s.writeActs was v r i = s := by
  unfold State.writeActs
  rw [elem_false h1, elem_false h2, elem_false h3, elem_false h4]
  simp

theorem bits_lt (v lo w : Nat) : bitsOf v lo w < 2 ^ w := Nat.mod_lt _ (Nat.two_pow_pos w)

theorem testBit_sub_and (a x b : Nat) : Nat.testBit (a - (a &&& x)) b = (Nat.testBit a b && !Nat.testBit x b) := by
  have h : a - (a &&& x) = a ^^^ (a &&& x) := by
    have : ∀ (a x : Nat), (a &&& x) + (a ^^^ (a &&& x)) = a := by
      intro a
      induction a using Nat.strongRecOn with
      | _ a ih =>
        intro x
        by_cases h0 : a = 0
        · subst h0; simp
        · have i2 := ih (a / 2) (by omega) (x / 2)
          have e1 : (a &&& x) / 2 = a / 2 &&& x / 2 := Nat.and_div_two
          have e2 : (a ^^^ (a &&& x)) / 2 = a / 2 ^^^ (a / 2 &&& x / 2) := by rw [Nat.xor_div_two, e1]
          have m1 : (a &&& x) % 2 = (a % 2 &&& x % 2) := Nat.and_mod_two_pow (n := 1)
          have m2 : (a ^^^ (a &&& x)) % 2 = (a % 2 ^^^ (a % 2 &&& x % 2)) := by
            have := Nat.xor_mod_two_pow (a := a) (b := a &&& x) (n := 1)
            rw [Nat.pow_one] at this
            rw [this, m1]
          have ha : a % 2 = 0 ∨ a % 2 = 1 := by omega
          have hx : x % 2 = 0 ∨ x % 2 = 1 := by omega
          have m3 : (a &&& x) % 2 + (a ^^^ (a &&& x)) % 2 = a % 2 := by
            rw [m2, m1]; rcases ha with h | h <;> rcases hx with h' | h' <;> rw [h, h'] <;> rfl
          have d1 := Nat.div_add_mod (a &&& x) 2
          have d2 := Nat.div_add_mod (a ^^^ (a &&& x)) 2
          have d3 := Nat.div_add_mod a 2
          rw [e1] at d1; rw [e2] at d2
          omega
    have := this a x
    omega
  rw [h, Nat.testBit_xor, Nat.testBit_and]
  cases Nat.testBit a b <;> cases Nat.testBit x b <;> rfl

theorem readReg_on {d : Dev} {lvl a : Nat} {r : RegInfo} {i j : Nat} (h1 : d.allowed 0 a lvl false = true) (h2 : a % 4 = 0) (h3 : findReg a = some (r, i, j))
    (h4 : d.absent r i = false) (h5 : d.domOn (domOf r i) = true) : (d.readReg lvl a).2 = d.readLatch a := by
  unfold Dev.readReg
  rw [if_neg (by rw [h1]; simp), if_neg (by rw [h2]; simp), h3]
  dsimp only
  rw [if_neg (by rw [h4]; simp), if_neg (by rw [h5]; simp)]

theorem absent_low (d : Dev) (r : RegInfo) (h1 : r.ofLane = false) (h2 : r.addr ≠ 0x710008) (h3 : r.dom ≠ .vis) (h4 : r.addr < 0xA00000 ∨ 0xA01000 ≤ r.addr) (h5 : r.addr ≠ 0x600200) (h6 : r.addr ≠ 0x400000) :
    d.absent r 0 = false := by
  unfold Dev.absent
  rw [h1]
  have : (decide (0xA00000 ≤ r.addr) && decide (r.addr < 0xA01000)) = false := by
    rcases h4 with h | h
    · have : ¬ 0xA00000 ≤ r.addr := by omega
      rw [decide_eq_false this]; rfl
    · have : ¬ r.addr < 0xA01000 := by omega
      rw [decide_eq_false this]; simp
  rw [this, decide_eq_false h2, decide_eq_false h3, decide_eq_false h5, decide_eq_false h6]
  simp

/-! ### Stores of the runway -/

theorem plAddr_congr {d e : Dev} (h : ∀ f ∈ placeFields, ∀ i, e.rd f i = d.rd f i) (i n : Nat) : e.plAddr i n = d.plAddr i n := by
  unfold Dev.plAddr; rw [h .RW_PL_BASE_ADDR (by decide)]

theorem write_place (s : State) (a : Nat) (bs : List Byte) (b : Bool) : ∀ f ∈ placeFields, ∀ i, (s.dramWrite a bs b).dev.rd f i = s.dev.rd f i :=
  place_of (State.dramWrite_only s a bs b).dev (by decide)

theorem plWrite_keeps (i : Nat) (pages : List U32) : ∀ (s : State) (idx : Nat),
    KeepsOutside (fun k => ∃ n, n < pages.length ∧ InBytes (s.dev.plAddr i (idx + n)) 4 k) s (s.plWrite i idx pages) := by
  induction pages with
  | nil => intro s idx; exact KeepsOutside.refl _ _ _ rfl
  | cons x l ih =>
    intro s idx
    unfold State.plWrite
    refine KeepsOutside.trans (KeepsOutside.mono (dramWrite_keeps s (s.dev.plAddr i idx) (le 4 (x.toNat % plSize)) false) (fun k hk => ⟨0, by simp, ?_⟩)) (KeepsOutside.mono (ih _ (idx + 1)) ?_)
    · rw [le_length] at hk; exact hk
    · rintro k ⟨n, hn, hk⟩
      refine ⟨n + 1, by simp; omega, ?_⟩
      rw [plAddr_congr (write_place s _ _ false)] at hk
      rw [show idx + (n + 1) = idx + 1 + n from by omega]; exact hk

theorem Stores.mono {P Q : State → Nat → Prop} {s t : State} (h : Stores P s t) (hp : ∀ u k, P u k → Q u k) : Stores Q s t := by
  induction h with
  | none h1 h2 => exact .none h1 h2
  | more h1 h2 _ ih => exact .more (KeepsOutside.mono h1 (fun k => hp _ k)) h2 ih

theorem dramWrite_nil (s : State) (a : Nat) (b : Bool) : s.dramWrite a [] b = s := by unfold State.dramWrite; rw [if_pos (by simp)]

theorem dramWrite_pool (s : State) (a : Nat) (bs : List Byte) (b : Bool) : (s.dramWrite a bs b).dev.poolCount = s.dev.poolCount := by
  unfold Dev.poolCount Dev.isA32
  rw [show (s.dramWrite a bs b).dev.variant = s.dev.variant from (State.dramWrite_only s a bs b).dev.parts .variant rfl]

theorem slotWrite_stores (pool i : Nat) (fuel : Nat) : ∀ (s : State) (page ofs : Nat) (bad : Bool) (bs : List Byte), s.dev.poolCount = pool →
    Stores (fun u k => ∃ n, n < fuel ∧ u.pageNo i (page + n) < pool ∧ k / 65536 = u.pageNo i (page + n)) s (s.slotWrite fuel i page ofs bad bs).1 := by
  induction fuel with
  | zero => intro s page ofs bad bs _; exact Stores.refl _ _
  | succ m ih =>
    intro s page ofs bad bs hs
    have shift : ∀ s page ofs bs, s.dev.poolCount = pool → Stores (fun u k => ∃ n, n < m + 1 ∧ u.pageNo i (page + n) < pool ∧ k / 65536 = u.pageNo i (page + n)) s (State.slotWrite m s i (page + 1) ofs bad bs).1 := by
      intro s page ofs bs hs
      refine Stores.mono (ih s (page + 1) ofs bad bs hs) ?_
      rintro u k ⟨n, hn, h1, h2⟩
      exact ⟨n + 1, by omega, by rw [show page + (n + 1) = page + 1 + n from by omega]; exact h1, by rw [show page + (n + 1) = page + 1 + n from by omega]; exact h2⟩
    unfold State.slotWrite
    split
    · exact Stores.refl _ _
    · split
      · exact shift _ _ _ _ hs
      · split
        · exact Stores.refl _ _
        · next hp =>
          dsimp only
          refine Stores.trans (Stores.one ?_ (write_place s (s.slotAddr i page ofs) (bs.take (65536 - ofs)) bad)) (shift _ _ _ _ ((dramWrite_pool _ _ _ _).trans hs))
          by_cases ho : ofs < 65536
          · refine KeepsOutside.mono (dramWrite_keeps _ _ _ _) (fun k hk => ⟨0, by omega, by simpa [hs] using hp, ?_⟩)
            unfold InBytes State.slotAddr at hk
            rw [List.length_take, Nat.div_eq_of_lt ho, Nat.mod_eq_of_lt ho] at hk
            rw [Nat.add_zero] at hk ⊢
            omega
          · rw [show 65536 - ofs = 0 from by omega, List.take_zero, dramWrite_nil]
            exact KeepsOutside.refl _ _ _ rfl

theorem slotWrite6 (s : State) (i page ofs : Nat) (bad : Bool) (bs : List Byte) : Stores (InPages s.dev.poolCount i page) s (s.slotWrite 6 i page ofs bad bs).1 := slotWrite_stores _ i 6 s page ofs bad bs rfl

theorem flatLe (l : List Nat) : (l.flatMap (le 4)).length = 4 * l.length := by
  induction l with
  | nil => rfl
  | cons x l ih => rw [List.flatMap_cons, List.length_append, ih, le_length, List.length_cons]; omega

theorem energyRecord_keeps (s : State) (i : Nat) (x : RSlot) :
    KeepsOutside (InBytes (s.dev.rd .AB_EBASE_ADDR * 256 + 2 ^ 22 * i + 64 * (x.sseq % 65536)) 64) s (s.energyRecord i x) := by
  unfold State.energyRecord
  dsimp only
  refine keeps_dev ?_ _
  split
  · refine KeepsOutside.mono (dramWrite_keeps s _ _ false) ?_
    intro k hk
    simp only [List.length_append, le_length, flatLe, List.length_map, List.length_range] at hk
    exact hk
  · exact KeepsOutside.refl _ _ _ rfl

theorem pageBad_keeps (s : State) (i desc page : Nat) : KeepsOutside (InBytes (s.dev.descAddr (rq i) desc) 32) s (s.pageBad i desc page) := by
  have h : KeepsOutside (InBytes (s.dev.descAddr (rq i) desc) 32) s (s.descFail (rq i) (s.dev.descAddr (rq i) desc)) := by
    refine KeepsOutside.mono (descFail_keeps s (rq i) (s.dev.descAddr (rq i) desc)) ?_
    intro k hk; unfold InBytes at hk ⊢; omega
  unfold State.pageBad
  dsimp only
  generalize s.descFail (rq i) (s.dev.descAddr (rq i) desc) = u at h ⊢
  exact keeps_dev h _

theorem retire_keeps (s : State) (i : Nat) (x : RSlot) : KeepsOutside (InBytes (s.dev.descAddr (rq i) x.desc) 4) s (s.retire i x) := by
  have h := dramWrite_keeps s (s.dev.descAddr (rq i) x.desc) (le 4 (withoutBit (leVal (memReadAll s.dram.mem (s.dev.descAddr (rq i) x.desc) 4)) 31)) false
  rw [le_length] at h
  unfold State.retire
  dsimp only
  generalize s.dramWrite _ _ _ = u at h ⊢
  exact keeps_dev h _

theorem retire_place (s : State) (i : Nat) (x : RSlot) : ∀ f ∈ placeFields, ∀ j, (s.retire i x).dev.rd f j = s.dev.rd f j := place_of (State.retire_only s i x).dev (by decide)

theorem retireAll_keeps (i : Nat) (l : List RSlot) : ∀ s : State, KeepsOutside (fun k => ∃ x ∈ l, InBytes (s.dev.descAddr (rq i) x.desc) 4 k) s (l.foldl (fun s x => s.retire i x) s) := by
  induction l with
  | nil => intro s; exact KeepsOutside.refl _ _ _ rfl
  | cons x l ih =>
    intro s
    rw [List.foldl_cons]
    refine KeepsOutside.trans (KeepsOutside.mono (retire_keeps s i x) (fun k hk => ⟨x, List.mem_cons_self .., hk⟩)) (KeepsOutside.mono (ih _) ?_)
    rintro k ⟨y, hy, hk⟩
    rw [descAddr_congr (retire_place s i x)] at hk
    exact ⟨y, List.mem_cons_of_mem _ hy, hk⟩

theorem retireCovered_keeps (s : State) (i jn hi : Nat) : KeepsOutside (fun k => ∃ x ∈ (s.dev.rw i).slots, InBytes (s.dev.descAddr (rq i) x.desc) 4 k) s (s.retireCovered i jn hi) := by
  unfold State.retireCovered
  refine KeepsOutside.mono (retireAll_keeps _ _ _) ?_
  rintro k ⟨x, hx, hk⟩
  exact ⟨x, (List.mem_filter.1 hx).1, hk⟩

theorem skipStep_keeps (s : State) (i : Nat) : KeepsOutside (fun k => ∃ x ∈ (s.dev.rw i).slots, InBytes (s.dev.descAddr (rq i) x.desc) 4 k) s (s.skipStep i) := by
  unfold State.skipStep
  split
  · exact KeepsOutside.refl _ _ _ rfl
  · dsimp only
    have h := retireCovered_keeps s i (s.dev.rd .RW_SKIP_JN_JN i) (s.dev.skipHi i)
    generalize s.retireCovered i (s.dev.rd .RW_SKIP_JN_JN i) (s.dev.skipHi i) = u at h ⊢
    split
    · exact h
    · exact keeps_dev h _

theorem skip_keeps (s : State) (i : Nat) : KeepsOutside (fun k => ∃ x ∈ (s.dev.rw i).slots, InBytes (s.dev.descAddr (rq i) x.desc) 4 k) s (s.skip i) := by
  unfold State.skip
  have h0 : (∀ f ∈ placeFields, ∀ j, (s.dev.wr .RW_SKIP_CTL_ARM 1 i).rd f j = s.dev.rd f j) ∧ (s.dev.wr .RW_SKIP_CTL_ARM 1 i).rwy = s.dev.rwy := by
    refine ⟨fun f hf j => ?_, rfl⟩
    have h2 : f ≠ .RW_SKIP_CTL_ARM := by intro h; rw [h] at hf; revert hf; decide
    rw [Dev.rd_wr, if_neg (by simp [h2])]
  generalize s.dev.wr .RW_SKIP_CTL_ARM 1 i = e at h0 ⊢
  have ho := Dev.dropBarLines_only e i (s.dev.rd .RW_SKIP_JN_JN i) (s.dev.skipHi i)
  generalize e.dropBarLines i (s.dev.rd .RW_SKIP_JN_JN i) (s.dev.skipHi i) = d at ho ⊢
  have h := skipStep_keeps (State.mk d s.dram s.pending) i
  refine KeepsOutside.mono h ?_
  rintro k ⟨x, hx, hk⟩
  refine ⟨x, ?_, ?_⟩
  · have : d.rwy = s.dev.rwy := (ho.parts .rwy rfl).trans h0.2
    rw [rw_congr this] at hx; exact hx
  · rw [descAddr_congr (fun f hf j => (place_of ho (by decide) f hf j).trans (h0.1 f hf j))] at hk; exact hk

theorem slotComplete_keeps (s : State) (i : Nat) (x : RSlot) (bytes : List Byte) (hs : (x.spec12 i).length = 12) :
    KeepsOutside (InBytes (s.dev.descAddr (rq i) x.desc) 32) s (s.slotComplete i x bytes) := by
  unfold State.slotComplete
  dsimp only
  refine KeepsOutside.mono (keeps_dev (dramWrite_keeps s _ _ false) _) ?_
  intro k hk
  unfold InBytes at hk ⊢
  simp only [List.length_append, le_length, hs] at hk
  omega

theorem spec12_length (x : RSlot) (i : Nat) : (x.spec12 i).length = 12 := by unfold RSlot.spec12; simp [le_length]

theorem slotStart_stores (s : State) (i : Nat) : Stores (fun u k => InPages s.dev.poolCount i (s.dev.nextStart i).1 u k ∨
      InBytes (s.dev.rd .AB_EBASE_ADDR * 256 + 2 ^ 22 * i + 64 * ((s.dev.rw i).sseq % 65536)) 64 k ∨
      InBytes (s.dev.descAddr (rq i) (s.dev.rd .DMA_RHEAD_IDX (rq i))) 32 k) s (s.slotStart i) := by
  unfold State.slotStart
  split
  · next b a bs hb hd =>
    dsimp only
    split
    · exact Stores.refl _ _
    · split
      · obtain ⟨ha, -⟩ := ringDesc_form hd
        refine Stores.one ?_ (place_of (State.descFail_only s (rq i) a).dev (by decide))
        refine KeepsOutside.mono (descFail_keeps s (rq i) a) (fun k hk => Or.inr (Or.inr ?_))
        rw [← ha]; unfold InBytes at hk ⊢; omega
      · generalize hx : s.dev.newSlot i b (s.dev.nextStart i) = x
        have x1 : x.sseq = (s.dev.rw i).sseq := by rw [← hx]; rfl
        have x2 : x.desc = s.dev.rd .DMA_RHEAD_IDX (rq i) := by rw [← hx]; rfl
        clear hx
        generalize hd1 : Dev.setWrite _ i (s.dev.nextStart i) _ = d1
        have k1 : (∀ f ∈ placeFields, ∀ j, d1.rd f j = s.dev.rd f j) ∧ d1.rd .AB_EBASE_ADDR = s.dev.rd .AB_EBASE_ADDR := by
          rw [← hd1]
          constructor
          · intro f hf j
            have h1 : f ≠ .RW_XIN_BYTES := by intro h; rw [h] at hf; revert hf; decide
            have h2 : f ≠ .RW_XOUT_BYTES := by intro h; rw [h] at hf; revert hf; decide
            rw [place_of (Dev.setWrite_only _ _ _ _) (by decide) f hf, Dev.rd_wr, if_neg (by simp [h2]), Dev.rd_wr, if_neg (by simp [h1])]
            rfl
          · rw [(Dev.setWrite_only _ _ _ _).rd _ _ _ rfl, Dev.rd_wr, if_neg (by simp), Dev.rd_wr, if_neg (by simp)]; rfl
        have kp : d1.poolCount = s.dev.poolCount := by
          unfold Dev.poolCount Dev.isA32
          rw [show d1.variant = s.dev.variant from by rw [← hd1, show ∀ e : Dev, (e.setWrite i (s.dev.nextStart i) (min 64 (s.dev.spaceFrom i (s.dev.nextStart i)))).variant = e.variant from
              fun e => (Dev.setWrite_only e i _ _).parts .variant rfl, Dev.wr_variant, Dev.wr_variant, Dev.updRw_variant, Dev.updDp_variant]]
        clear hd1
        generalize (padWord (x.header i)).take _ = hb
        have h2 := slotWrite6 (State.mk d1 s.dram s.pending) i (s.dev.nextStart i).1 (s.dev.nextStart i).2 false hb
        have o2 := (State.slotWrite_only 6 (State.mk d1 s.dram s.pending) i (s.dev.nextStart i).1 (s.dev.nextStart i).2 false hb).dev
        generalize State.slotWrite 6 (State.mk d1 s.dram s.pending) i (s.dev.nextStart i).1 (s.dev.nextStart i).2 false hb = q at h2 o2 ⊢
        obtain ⟨u, bad⟩ := q
        unfold State.slotBegun
        dsimp only at h2 o2 ⊢
        have h1 : Stores (fun u k => InPages s.dev.poolCount i (s.dev.nextStart i).1 u k ∨
            InBytes (s.dev.rd .AB_EBASE_ADDR * 256 + 2 ^ 22 * i + 64 * ((s.dev.rw i).sseq % 65536)) 64 k ∨
            InBytes (s.dev.descAddr (rq i) (s.dev.rd .DMA_RHEAD_IDX (rq i))) 32 k) s (State.mk d1 s.dram s.pending) := Stores.dev rfl k1.1
        have h3 := h1.trans (Stores.mono h2 (fun u k hk => Or.inl (kp ▸ hk)))
        have e1 := energyRecord_keeps u i x
        have e2 := (State.energyRecord_only u i x).dev
        have eb : u.dev.rd .AB_EBASE_ADDR = s.dev.rd .AB_EBASE_ADDR := (o2.rd _ _ _ rfl).trans k1.2
        rw [eb, x1] at e1
        have h4 := h3.trans (Stores.one (KeepsOutside.mono e1 (fun k hk => Or.inr (Or.inl hk))) (place_of e2 (by decide)))
        have pl : ∀ f ∈ placeFields, ∀ j, (u.energyRecord i x).dev.rd f j = s.dev.rd f j := fun f hf j =>
          (place_of e2 (by decide) f hf j).trans ((place_of o2 (by decide) f hf j).trans (k1.1 f hf j))
        generalize u.energyRecord i x = w at h4 pl ⊢
        cases bad with
        | none => exact h4
        | some pg =>
          have f1 := pageBad_keeps w i x.desc pg
          rw [descAddr_congr pl, x2] at f1
          rw [x2]
          exact h4.trans (Stores.one (KeepsOutside.mono f1 (fun k hk => Or.inr (Or.inr hk))) (place_of (State.pageBad_only w i _ pg).dev (by decide)))
  · exact Stores.refl _ _

theorem stores_mk {P : State → Nat → Prop} {u : State} (d : Dev) (h : ∀ f ∈ placeFields, ∀ i, d.rd f i = u.dev.rd f i) : Stores P u ⟨d, u.dram, u.pending⟩ := .none (fun _ _ => rfl) h

theorem slotStore_stores (s : State) (i : Nat) (x : RSlot) (stream : List Byte) :
    Stores (fun u k => InPages s.dev.poolCount i x.page u k ∨ InBytes (s.dev.descAddr (rq i) x.desc) 32 k) s (s.slotStore i x stream) := by
  show Stores (fun u k => InPages s.dev.poolCount i ({ x with clen := stream.length, stream := some stream } : RSlot).page u k ∨
    InBytes (s.dev.descAddr (rq i) ({ x with clen := stream.length, stream := some stream } : RSlot).desc) 32 k) s (s.slotStore i x stream)
  unfold State.slotStore
  generalize ({ x with clen := stream.length, stream := some stream } : RSlot) = y
  dsimp only
  generalize s.dev.spaceFrom i (y.page, y.ofs) = avail
  generalize (padWord (y.header i ++ stream)).take avail = bytes
  have h2 := slotWrite6 s i y.page y.ofs (s.dev.rw i).bad bytes
  have o2 := (State.slotWrite_only 6 s i y.page y.ofs (s.dev.rw i).bad bytes).dev
  generalize State.slotWrite 6 s i y.page y.ofs (s.dev.rw i).bad bytes = q at h2 o2 ⊢
  obtain ⟨u, bad⟩ := q
  unfold State.slotWritten
  dsimp only at h2 o2 ⊢
  have h3 : Stores (fun u k => InPages s.dev.poolCount i y.page u k ∨ InBytes (s.dev.descAddr (rq i) y.desc) 32 k) s u := Stores.mono h2 (fun u k hk => Or.inl hk)
  have pl := place_of o2 (by decide)
  cases bad with
  | some pg =>
    dsimp only
    generalize hw : State.mk (u.dev.putSlot i { y with clen := 0 }) u.dram u.pending = w
    have hw1 : Stores (fun u k => InPages s.dev.poolCount i y.page u k ∨ InBytes (s.dev.descAddr (rq i) y.desc) 32 k) u w := by
      rw [← hw]; exact Stores.dev rfl (fun _ _ _ => rfl)
    have hw2 : ∀ f ∈ placeFields, ∀ j, w.dev.rd f j = s.dev.rd f j := by rw [← hw]; exact pl
    have f1 := pageBad_keeps w i y.desc pg
    rw [descAddr_congr hw2] at f1
    exact (h3.trans hw1).trans (Stores.one (KeepsOutside.mono f1 (fun k hk => Or.inr hk)) (place_of (State.pageBad_only w i _ pg).dev (by decide)))
  | none =>
    dsimp only
    split
    · have pv := place_of (Dev.setWrite_only u.dev i (y.page, y.ofs) avail) (by decide)
      have po := place_of (Dev.stopXdc_only (u.dev.setWrite i (y.page, y.ofs) avail) i y stream avail) (by decide)
      exact h3.trans (stores_mk _ (fun f hf j => (po f hf j).trans (pv f hf j)))
    · have f1 := slotComplete_keeps u i y (y.header i ++ stream) (spec12_length y i)
      rw [descAddr_congr pl] at f1
      exact h3.trans (Stores.one (KeepsOutside.mono f1 (fun k hk => Or.inr hk)) (place_of (State.slotComplete_only u i y _).dev (by decide)))

theorem compress_slot (d : Dev) (i : Nat) (x : RSlot) (l : List XdcStream) : (d.compress i x l).1.page = x.page ∧ (d.compress i x l).1.desc = x.desc := by
  unfold Dev.compress
  dsimp only
  split
  · exact ⟨rfl, rfl⟩
  · split
    · split <;> exact ⟨rfl, rfl⟩
    · exact ⟨rfl, rfl⟩

theorem loadFw_keeps (s : State) (img : Nat) (r : CrownRec) : KeepsOutside (InBytes (s.dev.rd .CR_FWBASE_ADDR * 256 + 0x1000000 * (r.type - 2)) r.len) s (s.loadFw img r) := by
  have h := dramWrite_keeps s (s.dev.rd .CR_FWBASE_ADDR * 256 + 0x1000000 * (r.type - 2)) (s.dev.norRead (spanBase img + r.ofs) r.len) false
  rw [show (s.dev.norRead (spanBase img + r.ofs) r.len).length = r.len from by unfold Dev.norRead; simp] at h
  unfold State.loadFw
  dsimp only
  generalize s.dramWrite _ _ _ = u at h ⊢
  exact keeps_dev h _

theorem loadAll_keeps (img : Nat) (l : List CrownRec) : ∀ s : State,
    KeepsOutside (fun k => ∃ r ∈ l, InBytes (s.dev.rd .CR_FWBASE_ADDR * 256 + 0x1000000 * (r.type - 2)) r.len k) s (l.foldl (fun s r => s.loadFw img r) s) := by
  induction l with
  | nil => intro s; exact KeepsOutside.refl _ _ _ rfl
  | cons x l ih =>
    intro s
    rw [List.foldl_cons]
    refine KeepsOutside.trans (KeepsOutside.mono (loadFw_keeps s img x) (fun k hk => ⟨x, List.mem_cons_self .., hk⟩)) (KeepsOutside.mono (ih _) ?_)
    rintro k ⟨r, hr, hk⟩
    rw [(State.loadFw_only s img x).dev.rd _ _ _ rfl] at hk
    exact ⟨r, List.mem_cons_of_mem _ hr, hk⟩

theorem secondPass_keeps (s : State) (bad : List Nat) : KeepsOutside (fun k => ∃ r ∈ s.dev.recs (s.dev.rd .CR_STAT_IMG), r.type ≤ 5 ∧ secondPassReads r.type = true ∧
      InBytes (s.dev.rd .CR_FWBASE_ADDR * 256 + 0x1000000 * (r.type - 2)) r.len k) s (s.secondPass bad) := by
  unfold State.secondPass
  dsimp only
  split
  · exact KeepsOutside.refl _ _ _ rfl
  · have h := loadAll_keeps (s.dev.rd .CR_STAT_IMG) (((s.dev.recs (s.dev.rd .CR_STAT_IMG)).filter (fun r => secondPassReads r.type)).filter (fun r => decide (r.type ≤ 5))) s
    generalize List.foldl _ s _ = u at h ⊢
    refine KeepsOutside.mono (keeps_dev h _) ?_
    rintro k ⟨r, hr, hk⟩
    rw [List.mem_filter, List.mem_filter] at hr
    exact ⟨r, hr.1.1, by simpa using hr.2, hr.1.2, hk⟩

theorem restartWrite_dram (s : State) : DramKeptOrLost s s.restartWrite := by
  unfold State.restartWrite
  split
  · exact Or.inr (mr_dram _ _ _)
  · exact Or.inl rfl

theorem findIn_mem (a : Nat) (l : List RegInfo) {r : RegInfo} {i j : Nat} (h : findIn a l = some (r, i, j)) : r ∈ l := by
  induction l with
  | nil => cases h
  | cons x l ih =>
    unfold findIn at h
    split at h
    · split at h
      · cases h; exact List.mem_cons_self ..
      · exact List.mem_cons_of_mem _ (ih h)
    · exact List.mem_cons_of_mem _ (ih h)

theorem findReg_mem {a : Nat} {r : RegInfo} {i j : Nat} (h : findReg a = some (r, i, j)) : ∃ b ∈ blocks, r ∈ b.2.2 := by
  unfold findReg at h
  split at h
  · next b1 b2 regs hb => exact ⟨_, List.mem_of_find?_eq_some hb, findIn_mem _ _ h⟩
  · cases h

theorem skipOnly : ∀ b ∈ blocks, ∀ r ∈ b.2.2, r.fields.elem .RW_SKIP_CTL_ARM = true → r.fields = [.RW_SKIP_CTL_ARM] := by decide

theorem skipReg {a : Nat} {r : RegInfo} {i j : Nat} (h : findReg a = some (r, i, j)) (hs : r.fields.elem .RW_SKIP_CTL_ARM = true) : r.fields = [.RW_SKIP_CTL_ARM] := by
  obtain ⟨b, hb, hr⟩ := findReg_mem h
  exact skipOnly b hb r hr hs

theorem writeWord_skip (d : Dev) (lvl v : Nat) (r : RegInfo) (i j : Nat) (h : r.fields = [.RW_SKIP_CTL_ARM]) :
    (∀ f ∈ placeFields, ∀ k, (d.writeWord lvl v r i j).rd f k = d.rd f k) ∧ (d.writeWord lvl v r i j).rwy = d.rwy := by
  have h1 : d.writeWord lvl v r i j = d ∨ d.writeWord lvl v r i j = d.wr .RW_SKIP_CTL_ARM 0 i := by
    rw [word_one d lvl v r i j _ h (by simp)]
    show (if bitsOf v 0 1 = 0 then d.wr .RW_SKIP_CTL_ARM 0 i else d) = d ∨ (if bitsOf v 0 1 = 0 then d.wr .RW_SKIP_CTL_ARM 0 i else d) = d.wr .RW_SKIP_CTL_ARM 0 i
    split
    · exact Or.inr rfl
    · exact Or.inl rfl
  rcases h1 with h1 | h1 <;> rw [h1]
  · exact ⟨fun _ _ _ => rfl, rfl⟩
  · refine ⟨fun f hf k => ?_, rfl⟩
    have h2 : f ≠ .RW_SKIP_CTL_ARM := by intro h; rw [h] at hf; revert hf; decide
    rw [Dev.rd_wr, if_neg (by simp [h2])]

theorem reloadFreed_dram (s : State) (was : Dev) : (s.reloadFreed was).dram = s.dram := by
  unfold State.reloadFreed
  generalize List.filter _ _ = l
  induction l generalizing s with
  | nil => rfl
  | cons x t ih => rw [List.foldl_cons, ih]; rfl

theorem writeActs_skip (s : State) (was : Dev) (v : Nat) (r : RegInfo) (i : Nat) (h : r.fields = [.RW_SKIP_CTL_ARM]) :
    s.writeActs was v r i = if bitOf v 0 then s.skip i else s := by
  unfold State.writeActs
  rw [h]
  rw [if_neg (by decide), if_neg (by decide)]
  rw [show (List.elem Fld.RW_SKIP_CTL_ARM [Fld.RW_SKIP_CTL_ARM] && bitOf v 0) = bitOf v 0 from rfl]
  split
  · rfl
  · rw [if_neg (by intro h; cases h)]

theorem writeActs_noskip (s : State) (was : Dev) (v : Nat) (r : RegInfo) (i : Nat) (hr : r.fields.elem .CR_BOOTSEL_RESTART = false)
    (hs : r.fields.elem .RW_SKIP_CTL_ARM = false) : (s.writeActs was v r i).dram = s.dram := by
  unfold State.writeActs
  split
  · rfl
  · split
    · exact reloadFreed_dram _ _
    · rw [hs, hr, Bool.false_and, Bool.false_and, if_neg (by decide), if_neg (by decide)]

theorem writeActs_restart (s : State) (e was : Dev) (v : Nat) (r : RegInfo) (i : Nat) (hs : r.fields.elem .RW_SKIP_CTL_ARM = false) :
    DramKeptOrLost s (({ s with dev := e } : State).writeActs was v r i) := by
  unfold State.writeActs
  split
  · exact Or.inl rfl
  · split
    · exact Or.inl (reloadFreed_dram _ _)
    · rw [hs, Bool.false_and, if_neg (by decide)]
      split
      · exact restartWrite_dram (State.mk e s.dram s.pending)
      · exact Or.inl rfl

theorem writeActs_keeps (s : State) (e was : Dev) (v : Nat) (r : RegInfo) (i : Nat) (hr : r.fields.elem .CR_BOOTSEL_RESTART = false)
    (hf : r.fields.elem .RW_SKIP_CTL_ARM = true → r.fields = [.RW_SKIP_CTL_ARM])
    (he : r.fields.elem .RW_SKIP_CTL_ARM = true → (∀ f ∈ placeFields, ∀ j, e.rd f j = s.dev.rd f j) ∧ e.rwy = s.dev.rwy) :
    KeepsOutside (fun k => r.fields.elem .RW_SKIP_CTL_ARM = true ∧ ∃ x ∈ (s.dev.rw i).slots, InBytes (s.dev.descAddr (rq i) x.desc) 4 k) s
        (({ s with dev := e } : State).writeActs was v r i) ∧
      (r.fields.elem .RW_SKIP_CTL_ARM = false → (({ s with dev := e } : State).writeActs was v r i).dram = s.dram) := by
  by_cases hs : r.fields.elem .RW_SKIP_CTL_ARM = true
  · refine ⟨?_, fun h => by rw [hs] at h; cases h⟩
    obtain ⟨h1, h2⟩ := he hs
    rw [writeActs_skip _ was v r i (hf hs)]
    split
    · refine KeepsOutside.mono (skip_keeps (State.mk e s.dram s.pending) i) ?_
      rintro k ⟨x, hx, hk⟩
      rw [rw_congr h2] at hx
      rw [descAddr_congr h1] at hk
      exact ⟨hs, x, hx, hk⟩
    · exact KeepsOutside.refl _ _ _ rfl
  · have hs' : r.fields.elem .RW_SKIP_CTL_ARM = false := by simpa using hs
    have hd := writeActs_noskip { s with dev := e } was v r i hr hs'
    exact ⟨KeepsOutside.refl _ _ _ (by rw [hd]), fun _ => hd⟩

theorem regWrite_dram (s : State) (lvl a v : Nat) :
    (∀ r i j, findReg a = some (r, i, j) → r.fields.elem .CR_BOOTSEL_RESTART = true → r.fields.elem .RW_SKIP_CTL_ARM = false → DramKeptOrLost s (s.regWrite lvl a v)) ∧
    (∀ r i j, findReg a = some (r, i, j) → r.fields.elem .CR_BOOTSEL_RESTART = false →
      KeepsOutside (fun k => r.fields.elem .RW_SKIP_CTL_ARM = true ∧ ∃ x ∈ (s.dev.rw i).slots, InBytes (s.dev.descAddr (rq i) x.desc) 4 k) s (s.regWrite lvl a v) ∧
      (r.fields.elem .RW_SKIP_CTL_ARM = false → (s.regWrite lvl a v).dram = s.dram)) ∧
    (findReg a = none → (s.regWrite lvl a v).dram = s.dram) := by
  unfold State.regWrite
  dsimp only
  split
  · exact ⟨fun _ _ _ _ _ _ => Or.inl rfl, fun _ _ _ _ _ => ⟨KeepsOutside.refl _ _ _ rfl, fun _ => rfl⟩, fun _ => rfl⟩
  · split
    · exact ⟨fun _ _ _ _ _ _ => Or.inl rfl, fun _ _ _ _ _ => ⟨KeepsOutside.refl _ _ _ rfl, fun _ => rfl⟩, fun _ => rfl⟩
    · split
      · exact ⟨fun _ _ _ _ _ _ => Or.inl rfl, fun _ _ _ _ _ => ⟨KeepsOutside.refl _ _ _ rfl, fun _ => rfl⟩, fun _ => rfl⟩
      · next r i j hf =>
        split
        · exact ⟨fun _ _ _ _ _ _ => Or.inl rfl, fun _ _ _ _ _ => ⟨KeepsOutside.refl _ _ _ rfl, fun _ => rfl⟩, fun _ => rfl⟩
        · split
          · exact ⟨fun _ _ _ _ _ _ => Or.inl rfl, fun _ _ _ _ _ => ⟨KeepsOutside.refl _ _ _ rfl, fun _ => rfl⟩, fun _ => rfl⟩
          · refine ⟨fun r' i' j' h hr hs => ?_, fun r' i' j' h hr => ?_, fun h => by rw [h] at hf; cases hf⟩
            · rw [h] at hf; cases hf
              exact writeActs_restart s (s.dev.writeWord lvl v r i j) s.dev v r i hs
            · rw [h] at hf; cases hf
              exact writeActs_keeps s (s.dev.writeWord lvl v r i j) s.dev v r i hr
                (fun hs => skipReg h hs) (fun hs => writeWord_skip s.dev lvl v r i j (skipReg h hs))

theorem slotRead_keeps (s : State) (i : Nat) (k : SlotChecks) :
    KeepsOutside (fun a => ∃ x rest, (s.dev.rw i).slots = x :: rest ∧ InBytes (s.dev.descAddr (rq i) x.desc) 4 a) s (s.slotRead i k) := by
  unfold State.slotRead
  split
  · exact KeepsOutside.refl _ _ _ rfl
  · next x rest hx =>
    dsimp only
    split
    · exact KeepsOutside.refl _ _ _ rfl
    · split
      · exact KeepsOutside.mono (retire_keeps s i x) (fun a ha => ⟨x, rest, hx, ha⟩)
      · split
        · exact KeepsOutside.refl _ _ _ rfl
        · have key : ∀ d2 : Dev, (∀ f ∈ placeFields, ∀ j, d2.rd f j = s.dev.rd f j) →
              KeepsOutside (fun a => ∃ x rest, (s.dev.rw i).slots = x :: rest ∧ InBytes (s.dev.descAddr (rq i) x.desc) 4 a) s ((State.mk d2 s.dram s.pending).retire i x) := by
            intro d2 p2
            have f1 := retire_keeps (State.mk d2 s.dram s.pending) i x
            rw [show (State.mk d2 s.dram s.pending).dev = d2 from rfl, descAddr_congr p2] at f1
            intro a ha
            exact f1 a (fun hk => ha ⟨x, rest, hx, hk⟩)
          refine key _ (fun f hf j => ?_)
          refine (place_of (forEach_only (List.range x.count) _ _ (fun d l => Dev.passLine_only d i x (s.readSlot i x k) l)) (by decide) f hf j).trans ?_
          split
          · exact place_of (Dev.raise_only _ _ _) (by decide) f hf j
          · rfl

theorem dkl_trans {s t u : State} (h : DramKeptOrLost s t) (k : DramKeptOrLost t u) : DramKeptOrLost s u := by
  rcases k with k | k
  · rcases h with h | h
    · exact Or.inl (k.trans h)
    · exact Or.inr (k.trans h)
  · exact Or.inr k

theorem carryOut_dkl (s : State) (r : Role) (x : XppIn) : DramKeptOrLost s (s.carryOut r x) := by
  unfold State.carryOut
  dsimp only
  split
  · exact Or.inr (mr_dram _ _ _)
  · exact Or.inl (reloadFreed_dram _ _)
  · exact Or.inl rfl

theorem carryLive_dkl (s : State) (a : Live) : DramKeptOrLost s (s.carryLive a) := by
  unfold State.carryLive
  split
  · exact Or.inl rfl
  · split
    · exact carryOut_dkl _ _ _
    · exact Or.inl rfl

theorem foldLive_dkl (l : List Live) : ∀ s : State, DramKeptOrLost s (l.foldl State.carryLive s) := by
  induction l with
  | nil => intro s; exact Or.inl rfl
  | cons a t ih => intro s; rw [List.foldl_cons]; exact dkl_trans (carryLive_dkl s a) (ih _)

theorem window_dkl (s : State) (reqs : List XppIn) : DramKeptOrLost s (s.window reqs) := by
  unfold State.window
  dsimp only
  generalize (if s.dev.st.idleToHold then s.dev.clearUnderrun else s.dev) = d
  generalize d.receiveAll reqs = p
  obtain ⟨d1, live1, dups⟩ := p
  dsimp only
  generalize d1.refuseBy _ live1 = p
  obtain ⟨d2, live2⟩ := p
  dsimp only
  generalize d2.stateEvents = p
  obtain ⟨d3, taken⟩ := p
  dsimp only
  generalize d3.refuseBy _ live2 = p
  obtain ⟨d4, live4⟩ := p
  dsimp only
  generalize d4.refuseBy _ live4 = p
  obtain ⟨d5, live5⟩ := p
  dsimp only
  generalize d5.settle live5 = p
  obtain ⟨d6, live6⟩ := p
  dsimp only
  have h := foldLive_dkl live6 (State.mk d6 s.dram s.pending)
  generalize List.foldl State.carryLive (State.mk d6 s.dram s.pending) live6 = u at h ⊢
  exact h

theorem request_dkl (s : State) (x : XppIn) : DramKeptOrLost s (s.request x) := by
  unfold State.request
  generalize s.dev.receive x = p
  obtain ⟨d, got⟩ := p
  dsimp only
  cases got with
  | none => exact Or.inl rfl
  | dup r => exact Or.inl rfl
  | got r =>
    dsimp only
    split
    · exact Or.inl rfl
    · split
      · exact Or.inl rfl
      · split
        · exact Or.inl rfl
        · have h := carryOut_dkl (State.mk d s.dram s.pending) r x
          generalize (State.mk d s.dram s.pending).carryOut r x = u at h ⊢
          split
          · exact h
          · exact h

theorem railsOff_dkl (s : State) : DramKeptOrLost s s.railsOff := by
  unfold State.railsOff
  split
  · exact Or.inl rfl
  · exact Or.inr (mr_dram _ _ _)

theorem applyRegs_dram (l : List (Nat × Nat)) (s : State) (h : Quiet l) : (s.applyRegs l).dram = s.dram := by
  unfold State.applyRegs
  generalize s.dev.boot.stage = b
  obtain ⟨h1, h2⟩ := h
  induction l generalizing s with
  | nil => rfl
  | cons e t ih =>
    rw [List.foldl_cons]
    refine (ih _ (fun y hy => h1 y (List.mem_cons_of_mem _ hy)) (fun y hy => h2 y (List.mem_cons_of_mem _ hy))).trans ?_
    split
    · obtain ⟨-, q2, q3⟩ := regWrite_dram s 3 e.1 e.2
      cases hf : findReg e.1 with
      | none => exact q3 hf
      | some x =>
        obtain ⟨r, i, j⟩ := x
        exact (q2 r i j hf (h1 e (List.mem_cons_self ..) r i j hf)).2 (h2 e (List.mem_cons_self ..) r i j hf)
    · rfl

theorem regsOf_nor' {d e : Dev} (h : e.nor = d.nor) (i : Nat) : e.regsOf i = d.regsOf i := by
  have h1 : ∀ a, e.norByte a = d.norByte a := fun a => by unfold Dev.norByte; rw [h]
  have h2 : ∀ a n, e.norRead a n = d.norRead a n := fun a n => by unfold Dev.norRead; simp only [h1]
  have h3 : ∀ a b c, e.readRec a b c = d.readRec a b c := fun a b c => by unfold Dev.readRec; simp only [h2]
  have h4 : ∀ n i a b, e.readRecs i n a b = d.readRecs i n a b := by
    intro n i; induction n with
    | zero => intro a b; rfl
    | succ n ih => intro a b; unfold Dev.readRecs; simp only [h3, ih]
  unfold Dev.regsOf Dev.recs Dev.hdr
  simp only [h2, h4]

theorem firstPassOk_dram (s : State) (img : Nat) (c : CrownContent) (hq : Quiet ((s.dev.regsOf img).filter early ++ c.net)) : (s.firstPassOk img c).dram = s.dram := by
  unfold State.firstPassOk
  dsimp only
  have ha := applyRegs_dram ((s.dev.regsOf img).filter early ++ c.net) (State.mk (s.dev.useImage img c) s.dram s.pending) hq
  generalize (State.mk (s.dev.useImage img c) s.dram s.pending).applyRegs ((s.dev.regsOf img).filter early ++ c.net) = u at ha ⊢
  split
  · exact ha
  · exact ha

end Sys2Proof.Machine
end

