-- ==== Sys2Proof/Laws/EffectsModule.lean ====
section
/-! SUPPORT. What the operations of power, resets, NVM, XPP and jobs do. -/
namespace Sys2Proof.Machine

-- One theorem at a time: checked side by side, their threads exceed the memory that the check allows.
set_option Elab.async false
set_option exponentiation.threshold 600

/-! ### Resets and protection -/

theorem bootAt_of {d e : Dev} {b : BootStage} (k : Kst d e) (h : e.boot.stage = b) (hb : d.st = .boot) : e.bootAt b = true := by
  unfold Dev.bootAt; rw [k.st, hb, h]; simp

theorem bootAt_step {d e : Dev} {b : BootStage} (k : Kst d e) (hb : d.st = .boot) : (e.stepTo b).bootAt b = true := bootAt_of k rfl hb

theorem stepTo_boot (e : Dev) (b : BootStage) : (e.stepTo b).boot = { e.boot with stage := b } := rfl

theorem bootAt_iff {d : Dev} {b : BootStage} (h : d.bootAt b = true) : d.st = .boot ∧ d.boot.stage = b := by
  simpa [Dev.bootAt] using h

theorem applyRegs_but (l : List (Nat × Nat)) (s : State) (h : NoRestart l) :
    Dev.Only 0x7ffffffffff ALLBUT s.dev (s.applyRegs l).dev ∧ BootKept s.dev (s.applyRegs l).dev := by
  unfold State.applyRegs
  have key : ∀ (l : List (Nat × Nat)) (b : BootStage) (x : State), NoRestart l → x.dev.boot.stage = b →
      Dev.Only 0x7ffffffffff ALLBUT x.dev (l.foldl (fun x e => if x.dev.boot.stage = b then x.regWrite 3 e.1 e.2 else x) x).dev ∧
        BootKept x.dev (l.foldl (fun x e => if x.dev.boot.stage = b then x.regWrite 3 e.1 e.2 else x) x).dev := by
    intro l
    induction l with
    | nil => intro b x _ _; exact ⟨Dev.Only.refl _ _ _, BootKept.of rfl⟩
    | cons e t ih =>
      intro b x hn hx
      rw [List.foldl_cons, if_pos hx]
      obtain ⟨h1, h2⟩ := regWrite_but x 3 e.1 e.2 (hn e (List.mem_cons_self ..))
      obtain ⟨h3, h4⟩ := ih b (x.regWrite 3 e.1 e.2) (fun y hy => hn y (List.mem_cons_of_mem _ hy))
        (by obtain ⟨p, hp⟩ := h2; rw [hp]; exact hx)
      exact ⟨h1.trans h3, h2.trans h4⟩
  exact key l _ s h rfl

theorem stepTo_rd (d : Dev) (b : BootStage) (f : Fld) (i j : Nat) : (d.stepTo b).rd f i j = d.rd f i j := rfl

theorem regsOf_nor {d e : Dev} (h : e.nor = d.nor) (i : Nat) : e.regsOf i = d.regsOf i := by
  have h1 : ∀ a, e.norByte a = d.norByte a := fun a => by unfold Dev.norByte; rw [h]
  have h2 : ∀ a n, e.norRead a n = d.norRead a n := fun a n => by unfold Dev.norRead; simp only [h1]
  have h3 : ∀ a b c, e.readRec a b c = d.readRec a b c := fun a b c => by unfold Dev.readRec; simp only [h2]
  have h4 : ∀ n i a b, e.readRecs i n a b = d.readRecs i n a b := by
    intro n i; induction n with
    | zero => intro a b; rfl
    | succ n ih => intro a b; unfold Dev.readRecs; simp only [h3, ih]
  unfold Dev.regsOf Dev.recs Dev.hdr
  simp only [h2, h4]

theorem crownInvalid_st (d : Dev) (c t : Nat) : (d.crownInvalid c t).st = .safe ∧ (d.crownInvalid c t).evPending Ev.CROWN_INVALID ∧
    (d.crownInvalid c t).boot.running = [.hk] := by
  unfold Dev.crownInvalid
  have h1 : ((d.bootFail c t).raise Ev.CROWN_INVALID (le 2 t ++ le 1 c)).evPending Ev.CROWN_INVALID := Dev.raise_pending _ _ _ (by decide)
  generalize ((d.bootFail c t).raise Ev.CROWN_INVALID (le 2 t ++ le 1 c)) = e at h1
  unfold Dev.bootSafe
  refine ⟨enter_st _ _, ?_, ?_⟩
  · refine (Dev.enter_only _ _).evPending _ rfl ?_
    exact h1
  · rw [Dev.enter_boot]

/-- A confirmed shutdown cause waits for the end of its period; the state stands until then. -/
theorem shutdown_st (d : Dev) (c e : Nat) (h : d.st ≠ .off) (h' : d.st ≠ .shutdown) (hs : d.shut = none) :
    (d.shutdown c e).st = d.st ∧ (d.shutdown c e).shut = some { due := some (c, e), record := [], since := d.now, written := false } := by
  unfold Dev.shutdown
  split
  · contradiction
  · contradiction
  · rw [hs]; exact ⟨rfl, rfl⟩

theorem now_of {d e : Dev} (h : e.tb = d.tb) (hr : e.rd .TB_CTL_SRC = d.rd .TB_CTL_SRC) : e.now = d.now := by unfold Dev.now Dev.nowFrac Dev.flag; rw [h, hr]

theorem shutDue_congr {d e : Dev} (h : e.shut = d.shut) : e.shutDue = d.shutDue := by unfold Dev.shutDue; rw [h]

theorem shutdown_some (d : Dev) (c e : Nat) (h : d.st ≠ .off) (h' : d.st ≠ .shutdown) : ∃ x, (d.shutdown c e).shut = some x := by
  unfold Dev.shutdown
  split
  · contradiction
  · contradiction
  · cases hs : d.shut with
    | some x => exact ⟨x, hs⟩
    | none => exact ⟨_, rfl⟩

theorem raiseFatal_st (d : Dev) (c : Nat) (e : EvCode) (x : List Byte) (h : d.st ≠ .off) (h' : d.st ≠ .shutdown) (hs : d.shut = none) :
    (d.raiseFatal c e x).st = d.st ∧
      (d.raiseFatal c e x).shut = some { due := some (c, if c = 3 then e.code else 0), record := [], since := d.now, written := false } := by
  unfold Dev.raiseFatal
  have h1 : Kst d ((d.raise e x).logWrite (d.fatalRec e.code x)) := Kst.trans (Kst.of (Dev.raise_only _ _ _) rfl) (Kst.of (Dev.logWrite_only _ _) rfl)
  have h2 : ((d.raise e x).logWrite (d.fatalRec e.code x)).shut = none :=
    ((Dev.logWrite_only _ _).parts .shut rfl).trans (((Dev.raise_only _ _ _).parts .shut rfl).trans hs)
  have h3 : ((d.raise e x).logWrite (d.fatalRec e.code x)).now = d.now := by
    have a1 := now_of ((Dev.raise_only d e x).parts .tb rfl) ((Dev.raise_only d e x).rd _ _ _ rfl)
    have o2 := Dev.logWrite_only (d.raise e x) (d.fatalRec e.code x)
    rw [now_of (o2.parts .tb rfl) (o2.rd _ _ _ rfl), a1]
  generalize (d.raise e x).logWrite (d.fatalRec e.code x) = f at h1 h2 h3
  have := shutdown_st f c (if c = 3 then e.code else 0) (by rw [h1.st]; exact h) (by rw [h1.st]; exact h') h2
  rw [h1.st, h3] at this
  exact this

/-! ### Register operations -/

theorem arm_cases (d : Dev) :
    (d.rd .MEM_CTL_CUR = 0 → d.arm.st = .armed) ∧
    (d.rd .MEM_CTL_CUR ≠ 0 → d.arm.st = d.st ∧ d.arm.freqWait = true ∧ d.arm.rd .MEM_CTL_REQ = 0) := by
  unfold Dev.arm
  refine ⟨fun h => ?_, fun h => ?_⟩
  · rw [if_pos h]; exact enter_st _ _
  · rw [if_neg h]
    refine ⟨?_, rfl, ?_⟩
    · unfold Dev.st; simp
    · simp

theorem carryOut_hold (s : State) (h : XppHdr) (r : Role) : (s.carryOut r ⟨h, .hold⟩) = { s with dev := (s.dev.holdCause .xpp).reply r h.seq.toNat Done.ok } := by
  rfl

theorem start_end {s : State} {h : XppHdr} {r : Role} {x e' : Dev} {o' : Done} (hxs : x.st = s.dev.st) (k2 : x.rd .MEM_CTL_CUR = s.dev.rd .MEM_CTL_CUR)
    (k3 : x.rd .XPP_PEER_UP = s.dev.rd .XPP_PEER_UP) (k4 : x.suppressAuto = false)
    (hx : (if x.st = .idle then x.arm else x, Done.ok) = (e', o')) (t : State) (ht : t = { s with dev := e'.reply r h.seq.toNat o' }) :
      (s.dev.st = .idle → s.dev.rd .MEM_CTL_CUR = 0 → t.dev.st = .armed) ∧
      (s.dev.st = .idle → s.dev.rd .MEM_CTL_CUR ≠ 0 → t.dev.st = .idle ∧ t.dev.freqWait = true ∧ t.dev.rd .MEM_CTL_REQ = 0) ∧
      (s.dev.st ≠ .idle → t.dev.st = s.dev.st) ∧ t.dev.suppressAuto = false ∧ Acked r h [] s t := by
  subst ht
  have ha : ∀ b : Bool, (if b then x.arm else x).suppressAuto = false := by
    intro b; split
    · exact ((Dev.arm_only x).parts .suppressAuto rfl).trans k4
    · exact k4
  have hup : ∀ b : Bool, (if b then x.arm else x).rd .XPP_PEER_UP = s.dev.rd .XPP_PEER_UP := by
    intro b; split
    · exact ((Dev.arm_only x).rd _ _ _ rfl).trans k3
    · exact k3
  rw [hxs] at hx
  cases hx
  have ha' := ha (decide (s.dev.st = .idle))
  have hup' := hup (decide (s.dev.st = .idle))
  simp only [decide_eq_true_eq] at ha' hup'
  refine ⟨?_, ?_, ?_, ?_, acked_reply hup' []⟩
  · intro hi hm
    rw [reply_st, if_pos hi]; exact (arm_cases x).1 (k2.trans hm)
  · intro hi hm
    obtain ⟨m1, m2, m3⟩ := (arm_cases x).2 (by rw [k2]; exact hm)
    dsimp only
    rw [reply_st, reply_rd _ _ _ _ _ _ _ (by decide), if_pos hi]
    refine ⟨by rw [m1, hxs, hi], ?_, m3⟩
    exact (reply_part x.arm r _ _ .freqWait (by decide) (by decide)).trans m2
  · intro hi
    rw [reply_st, if_neg hi, hxs]
  · exact (reply_part _ r _ _ .suppressAuto (by decide) (by decide)).trans ha'

def resumed (q : Dev × Bool) : Dev := (if q.2 then q.1.wakeLanes.arm else q.1.wakeLanes.enter .idle).closeJobs

theorem orderResume_eq (d : Dev) (hf : d.freqWait = false) (hx : d.onlyXpp = true) (hs : d.skipping = false) :
    d.orderResume = (resumed (Dev.clearHold ({ d with holdSeen := 0 } : Dev) .xpp).rePlace, Done.ok) := by
  unfold Dev.orderResume
  rw [if_neg (by rw [hf]; decide), if_neg (by rw [hx, hs]; simp)]
  rfl

theorem pdFold (l : List Dom) (d : Dev) :
    (∀ f i j, f ≠ .AON_PDSTAT_ON → (d.forEach l (fun d p => d.clrBit .AON_PDSTAT_ON p.bit)).rd f i j = d.rd f i j) ∧
    (∀ p : Dom, (p ∈ l ∨ d.domOn p = false) → (d.forEach l (fun d p => d.clrBit .AON_PDSTAT_ON p.bit)).domOn p = false) := by
  unfold Dev.forEach
  induction l generalizing d with
  | nil => exact ⟨fun _ _ _ _ => rfl, fun p hp => by rcases hp with h | h; cases h; exact h⟩
  | cons a t ih =>
    have h1 : ∀ f i j, f ≠ .AON_PDSTAT_ON → (d.clrBit .AON_PDSTAT_ON a.bit).rd f i j = d.rd f i j := by
      intro f i j hf
      simp only [Dev.clrBit, Dev.rd_wr]
      rw [if_neg (fun h => hf h.1)]
    refine ⟨fun f i j hf => ((ih _).1 f i j hf).trans (h1 f i j hf), fun p hp => (ih _).2 p ?_⟩
    by_cases hpt : p ∈ t
    · exact Or.inl hpt
    · refine Or.inr ?_
      unfold Dev.domOn
      simp only [Dev.clrBit, Dev.rd_wr, and_self, if_true]
      rw [bitOf_mod _ _ _ (show p.bit < (fldSpec Fld.AON_PDSTAT_ON).width by cases p <;> decide), bitOf_withoutBit]
      rcases hp with h | h
      · have : p = a := by
          cases h with
          | head => rfl
          | tail _ h => exact absurd h hpt
        subst this; simp
      · unfold Dev.domOn at h; rw [h]; rfl

theorem powerDown_rd (d : Dev) (f : Fld) (h : f ≠ .AON_PDSTAT_ON ∧ (¬ safeDown.elem (fldSpec f).dom = true)) (i j : Nat) : (d.powerDown safeDown).rd f i j = d.rd f i j := by
  have e := (pdFold safeDown { d with rf := d.rf.filter (fun e => (fun g => !safeDown.elem (fldSpec g).dom || keptInReset g) e.1.1) }).1 f i j h.1
  refine Eq.trans (Eq.trans (show _ = _ from ?_) e) ?_
  · unfold Dev.powerDown; rfl
  · rw [Dev.rd_filter d (fun g => !safeDown.elem (fldSpec g).dom || keptInReset g) f i j, if_pos]
    have : safeDown.elem (fldSpec f).dom = false := by simpa using h.2
    rw [this]; rfl

theorem powerDown_off (d : Dev) (p : Dom) (h : p ∈ safeDown) : (d.powerDown safeDown).domOn p = false := by
  have e := (pdFold safeDown { d with rf := d.rf.filter (fun e => (fun g => !safeDown.elem (fldSpec g).dom || keptInReset g) e.1.1) }).2 p (Or.inl h)
  refine Eq.trans (show _ = _ from ?_) e
  unfold Dev.powerDown; rfl

theorem reply_job (e : Dev) (r : Role) (k : Nat) (o : Done) (n : Nat) : (e.reply r k o).job n = e.job n := job_congr (reply_jobs e r k o) n

theorem cancel_loaded {d : Dev} {n : Nat} {j : Job} (hj : d.job n = some j) (h : j.st = .loaded ∨ j.st = .placed) (b : Bool) : (d.cancelJob n b).job n = none := by
  unfold Dev.cancelJob
  rw [hj]
  dsimp only
  rcases h with h | h <;> rw [h] <;> dsimp only
  · exact gone_job (endJob_gone _ _ _ _)
  · exact gone_job (dropAll_gone (endJob_gone _ _ _ _))

theorem cancel_abort {d : Dev} {n : Nat} {j : Job} (hj : d.job n = some j) (h : j.st = .active) : d.cancelJob n true = d.abortJob n j.started := by
  unfold Dev.cancelJob
  rw [hj]
  dsimp only
  rw [h]
  dsimp only
  rw [if_pos rfl]

theorem cancel_finish {d : Dev} {n : Nat} {j : Job} (hj : d.job n = some j) (h : j.st = .active) (hall : JobsAll (fun m f => m = n → f = true) d) :
    JobsAll (fun m f => m = n → f = true) (d.cancelJob n false) := by
  unfold Dev.cancelJob
  rw [hj]
  dsimp only
  rw [h]
  dsimp only
  rw [if_neg (by decide)]
  exact hall.endAfter _ _

theorem updJob_find (d : Dev) (n : Nat) (f : Job → Job) (hf : ∀ j, (f j).jn = j.jn) (j : Job) (h : d.job n = some j) : (d.updJob n f).job n = some (f j) := by
  unfold Dev.job Dev.updJob at *
  dsimp only
  rw [List.find?_map]
  have : ((fun j => decide (j.jn = n)) ∘ fun j => if j.jn = n then f j else j) = (fun j : Job => decide (j.jn = n)) := by
    funext k
    simp only [Function.comp]
    split
    · rw [hf]
    · rfl
  rw [this, h]
  have hn : j.jn = n := by simpa using List.find?_some h
  simp [hn]

theorem clearPlaus_self (d : Dev) (h : Nat) : (d.clearPlaus h).flag .HT_STAT_PLAUS h = false := by
  unfold Dev.clearPlaus
  split
  · unfold Dev.flag
    dsimp only
    rw [(Dev.raise_only _ _ _).rd _ _ _ rfl, (Dev.lighten_only _ _ _).rd _ _ _ rfl, (Dev.htModelSet_only _ _).rd _ _ _ rfl, (Dev.updHt_only _ _ _).rd _ _ _ rfl]
    simp [Dev.rd_wr]
  · next hn => simpa using hn

theorem clearPlaus_other (d : Dev) (h k : Nat) (hk : k ≠ h) : (d.clearPlaus h).rd .HT_STAT_PLAUS k = d.rd .HT_STAT_PLAUS k := by
  unfold Dev.clearPlaus
  split
  · dsimp only
    rw [(Dev.raise_only _ _ _).rd _ _ _ rfl, (Dev.lighten_only _ _ _).rd _ _ _ rfl, (Dev.htModelSet_only _ _).rd _ _ _ rfl, (Dev.updHt_only _ _ _).rd _ _ _ rfl]
    rw [Dev.rd_wr, if_neg (fun h => hk h.2.1)]
  · rfl

theorem unsign_toInt (t : BitVec 32) : unsign 32 t.toInt = t.toNat := by
  unfold unsign; rw [BitVec.ofInt_toInt]

theorem axTarget_pos (d : Dev) (a : Nat) (t : BitVec 32) (b : Bool) : (d.axTarget a t.toInt b).rd .AX_TGT_POS a = t.toNat := by
  unfold Dev.axTarget
  dsimp only
  have h0 : (d.wr .AX_TGT_POS (unsign 32 t.toInt) a).rd .AX_TGT_POS a = t.toNat := by
    rw [Dev.rd_wr, if_pos ⟨rfl, rfl, rfl⟩, unsign_toInt]
    exact Nat.mod_eq_of_lt t.isLt
  split
  · rw [(Dev.axRun_only _ _ _).rd _ _ _ rfl]; exact h0
  · exact h0

theorem axHome_homing (d : Dev) (a : Nat) (h : d.mayHome a = true) : (d.axHome a).homing a = true := by
  unfold Dev.axHome
  rw [h]
  simp only [Bool.not_true, Bool.false_eq_true, if_false]
  have st : ∀ (d : Dev) (x : AxState), (d.axTo a x).rd .AX_STAT_STATE a = x.code := by
    intro d x; unfold Dev.axTo; rw [Dev.rd_wr, if_pos ⟨rfl, rfl, rfl⟩]; cases x <;> rfl
  split
  · unfold Dev.toBackoff Dev.homing Dev.axIs
    dsimp only
    rw [(Dev.homeMove_only _ _ _ _).rd _ _ _ rfl, st]; rfl
  · unfold Dev.homing Dev.axIs
    rw [(Dev.homeMove_only _ _ _ _).rd _ _ _ rfl, st]; rfl

theorem job_of {d : Dev} (hn : (d.jobs.map (·.jn)).Nodup) {j : Job} (hj : j ∈ d.jobs) : d.job j.jn = some j := by
  unfold Dev.job
  generalize d.jobs = l at hn hj
  induction l with
  | nil => cases hj
  | cons a t ih =>
    rw [List.map_cons, List.nodup_cons] at hn
    rw [List.find?_cons]
    cases hj with
    | head => simp
    | tail _ hj =>
      have : a.jn ≠ j.jn := fun h => hn.1 (h ▸ List.mem_map.mpr ⟨j, hj, rfl⟩)
      simp [this]
      simpa using ih hn.2 hj

theorem nodup_sub_perm {l m : List Nat} (hl : l.Nodup) (hm : m.Nodup) (h : ∀ x, x ∈ l ↔ x ∈ m) : l.length = m.length :=
  ((List.perm_ext_iff_of_nodup hl hm).mpr h).length_eq

theorem eraseDups_nodup (l : List Nat) (h : l.Nodup) : l.eraseDups = l := by
  induction l with
  | nil => rfl
  | cons a t ih =>
    rw [List.nodup_cons] at h
    rw [List.eraseDups_cons]
    have : t.filter (fun b => !b == a) = t := by
      rw [List.filter_eq_self]
      intro b hb
      have : b ≠ a := fun hc => h.1 (hc ▸ hb)
      simp [this]
    rw [this, ih h.2]

theorem queue_eq (d : Dev) (ns : List Nat) (hn : (d.jobs.map (·.jn)).Nodup) (hd : ns.Nodup) (h : ∀ n, n ∈ ns ↔ ∃ j ∈ d.jobs, j.st = .loaded ∧ j.jn = n) :
    d.orderQueue ns = (({ d with jobs := d.jobs.filter (fun j => j.st != .loaded) ++ ns.filterMap d.job } : Dev), Done.ok) := by
  unfold Dev.orderQueue
  have hl : ns.length = d.loaded.length := by
    have : (d.loaded.map (·.jn)).Nodup := by
      unfold Dev.loaded
      exact List.Nodup.sublist (List.Sublist.map _ (List.filter_sublist ..)) hn
    rw [nodup_sub_perm hd this]
    · simp
    · intro x
      rw [h]
      unfold Dev.loaded
      simp [and_assoc]
  rw [if_neg, if_neg]
  · rw [eraseDups_nodup _ hd]
    simp [hl]
    intro x hx
    obtain ⟨j, h1, h2, h3⟩ := (h x).mp hx
    exact ⟨j, by unfold Dev.loaded; simp [h1, h2], h3⟩
  · simp
    intro x hx
    obtain ⟨j, h1, h2, h3⟩ := (h x).mp hx
    rw [← h3, job_of hn h1]; simp

theorem queue_loaded (d : Dev) (ns : List Nat) (hn : (d.jobs.map (·.jn)).Nodup) (h : ∀ n, n ∈ ns ↔ ∃ j ∈ d.jobs, j.st = .loaded ∧ j.jn = n) :
    ((d.jobs.filter (fun j => j.st != .loaded) ++ ns.filterMap d.job).filter (fun j => decide (j.st = .loaded))).map (·.jn) = ns := by
  rw [List.filter_append]
  have h1 : (d.jobs.filter (fun j => j.st != .loaded)).filter (fun j => decide (j.st = .loaded)) = [] := by
    rw [List.filter_filter, List.filter_eq_nil_iff]
    intro j _ hc
    simp at hc
  rw [h1, List.nil_append]
  have hall : ∀ n ∈ ns, ∃ j, d.job n = some j ∧ j.st = .loaded ∧ j.jn = n := by
    intro n hn'
    obtain ⟨j, h1, h2, h3⟩ := (h n).mp hn'
    exact ⟨j, by rw [← h3]; exact job_of hn h1, h2, h3⟩
  clear h h1
  induction ns with
  | nil => rfl
  | cons a t ih =>
    obtain ⟨j, h1, h2, h3⟩ := hall a (List.mem_cons_self ..)
    rw [List.filterMap_cons, h1]
    simp only
    rw [List.filter_cons, if_pos (by simp [h2]), List.map_cons, ih (fun n hn => hall n (List.mem_cons_of_mem _ hn)), h3]

/-! ### NVM sessions and the log -/

theorem norRead_congr {d e : Dev} (h : e.nor = d.nor) (a n : Nat) : e.norRead a n = d.norRead a n := by
  unfold Dev.norRead Dev.norByte; rw [h]

theorem readRecs_congr {d e : Dev} (h : e.nor = d.nor) (img n ofs left : Nat) : e.readRecs img n ofs left = d.readRecs img n ofs left := by
  induction n generalizing ofs left with
  | zero => rfl
  | succ n ih =>
    have hr : e.readRec img ofs left = d.readRec img ofs left := by
      unfold Dev.readRec; simp only [norRead_congr h]
    unfold Dev.readRecs
    rw [hr]
    simp only [ih]

theorem imgCheck_congr {d e : Dev} (h : e.nor = d.nor) (hv : e.variantCode = d.variantCode) (n : Nat) : e.imgCheck n = d.imgCheck n := by
  unfold Dev.imgCheck Dev.hdrCheck Dev.recCheck Dev.hdr
  simp only [norRead_congr h, readRecs_congr h, hv]

theorem nvmOpen_eq (d : Dev) (n : Nat) (hp : d.present = true) (hs : d.session = false) (hi : (d.imgCheck (1 - n)).1 = .ok) :
    d.nvmOpen n = (((d.wr .CR_PRES_SESSION 1).wr .CR_PRES_SPAN n).raise Ev.NVM_SESSION (le 1 n ++ le 1 1), none) := by
  unfold Dev.nvmOpen Dev.presenceGate
  rw [hp, if_neg (by simp)]
  simp only [hs, hi]
  rfl

theorem nvmErase_eq (d : Dev) (o n : Nat) (hp : d.present = true) (hs : d.session = true) (h1 : o % 65536 = 0) (h2 : d.inSpan o (n * 65536) = true) :
    d.nvmErase o n = (d.norStart (.erase o n), none) := by
  unfold Dev.nvmErase Dev.sessionGate
  rw [hp, if_neg (by simp), hs, if_neg (by simp)]
  simp [h1, h2]

theorem nvmWrite_eq (d : Dev) (o : Nat) (b : List Byte) (hp : d.present = true) (hs : d.session = true) (h2 : d.inSpan o b.length = true) :
    d.nvmWrite o b = (d.norStart (.program o b), none) := by
  unfold Dev.nvmWrite Dev.sessionGate
  rw [hp, if_neg (by simp), hs, if_neg (by simp)]
  simp [h2]

theorem nvmClose_eq (d : Dev) (hp : d.present = true) (hs : d.session = true) :
    d.nvmClose = if d.rd .CR_PRES_LOCK ≠ 0 ∧ ((d.hdr (d.rd .CR_PRES_SPAN)).lock = false ∨ (d.hdr (d.rd .CR_PRES_SPAN)).imgver < d.rd .CR_IMGVER_VER)
      then (d.norStart (.erase (spanBase (d.rd .CR_PRES_SPAN)) 1), some .range)
      else (((d.wr .CR_PRES_SESSION 0).wr .CR_PRES_SPAN 0).raise Ev.NVM_SESSION (le 1 (d.rd .CR_PRES_SPAN) ++ le 1 0), none) := by
  unfold Dev.nvmClose Dev.sessionGate
  rw [hp, if_neg (by simp), hs, if_neg (by simp)]
  dsimp only
  unfold Dev.flag
  congr 1
  simp

def lostBase (d : Dev) : Dev := { (((d.wr .CR_PRES_PRES 0).wr .CR_PRES_SESSION 0).wr .CR_PRES_SPAN 0) with pwr := { d.pwr with deferred := d.pwr.deferred.filter NorOp.isLog } }

def lostDev (d : Dev) : Dev :=
    match d.interrupted with
    | some t => (lostBase d).raise Ev.PRESENCE_LOST (le 2 t)
    | none => lostBase d

theorem lostBase_rd (d : Dev) : (lostBase d).rd .CR_PRES_PRES = 0 ∧ (lostBase d).rd .CR_PRES_SESSION = 0 ∧ (lostBase d).rd .CR_PRES_SPAN = 0 := by
  have hrf : (lostBase d).rf = (((d.wr .CR_PRES_PRES 0).wr .CR_PRES_SESSION 0).wr .CR_PRES_SPAN 0).rf := rfl
  refine ⟨?_, ?_, ?_⟩ <;> rw [rf_rd _ _ hrf] <;> simp [Dev.rd_wr]

theorem lostDev_all (d : Dev) : (lostDev d).present = false ∧ (lostDev d).session = false ∧ (lostDev d).rd .CR_PRES_SPAN = 0 ∧ (lostDev d).nor = d.nor ∧
    (∀ o ∈ (lostDev d).pwr.deferred, o.isLog = true) ∧ (d.session = true → (lostDev d).evPending Ev.PRESENCE_LOST) := by
  have h0 := lostBase_rd d
  have hn : (lostBase d).nor = d.nor := rfl
  have hp : (lostBase d).pwr.deferred = d.pwr.deferred.filter NorOp.isLog := rfl
  have hi : d.session = true → d.interrupted = some 0x60 := by
    intro h; unfold Dev.interrupted; rw [h]; rfl
  unfold lostDev
  generalize lostBase d = z at h0 hn hp
  cases hx : d.interrupted with
  | none =>
    dsimp only
    refine ⟨flag_false h0.1, flag_false h0.2.1, h0.2.2, hn, fun o ho => ?_, fun h => ?_⟩
    · rw [hp] at ho; exact (List.mem_filter.mp ho).2
    · rw [hi h] at hx; cases hx
  | some n =>
    dsimp only
    refine ⟨flag_false (((Dev.raise_only _ _ _).rd _ _ _ rfl).trans h0.1), flag_false (((Dev.raise_only _ _ _).rd _ _ _ rfl).trans h0.2.1), ((Dev.raise_only _ _ _).rd _ _ _ rfl).trans h0.2.2,
      ((Dev.raise_only _ _ _).parts .nor rfl).trans hn, fun o ho => ?_, fun h => Dev.raise_pending _ _ _ (by decide)⟩
    rw [((Dev.raise_only _ _ _).parts .pwr rfl), hp] at ho
    exact (List.mem_filter.mp ho).2

/-! ### XPP -/

theorem request_next {c : Instr} {x : XppIn} {s : State} (h : requestOf c = some x) : exec c s = .next (s.request x) := by
  cases c <;> simp only [requestOf, Option.some.injEq, reduceCtorEq] at h <;> subst h <;> rfl

theorem refusal_order {d : Dev} {was : DState} {r : Role} {q : XppReq} {n : Nack} (h : d.refusal was r q = some n) :
    (reqWhole q = false → n = .malformed) ∧ (reqWhole q = true → reqFrom q r = false → n = .source) ∧ (n = .range → reqState q was = true) := by
  unfold Dev.refusal at h
  split at h
  · next h1 =>
    cases h
    exact ⟨fun _ => rfl, fun hw => absurd hw (by simpa using h1), fun hn => (by cases hn)⟩
  · next h1 =>
    have hw : reqWhole q = true := by simpa using h1
    refine ⟨fun h0 => (by rw [hw] at h0; cases h0), ?_⟩
    split at h
    · cases h; exact ⟨fun _ _ => rfl, fun hn => (by cases hn)⟩
    · next h2 =>
      simp only [Bool.or_eq_true, Bool.not_eq_true', not_or, Bool.not_eq_false] at h2
      refine ⟨fun _ hf => (by rw [h2.1] at hf; cases hf), fun hn => ?_⟩
      subst hn
      split at h
      · cases h
      · next h3 =>
        simp only [Bool.or_eq_true, Bool.not_eq_true', not_or, Bool.not_eq_false] at h3
        exact h3.1

theorem refuseBy_mem (why : Dev → Live → Option Nack) (l : List Live) (d : Dev) : ∀ a ∈ (d.refuseBy why l).2, a ∈ l ∧ ∃ e, why e a = none := by
  induction l generalizing d with
  | nil => intro a ha; cases ha
  | cons b t ih =>
    intro a ha
    unfold Dev.refuseBy at ha
    cases hw : why d b with
    | some n => rw [hw] at ha; have := ih _ a ha; exact ⟨List.mem_cons_of_mem _ this.1, this.2⟩
    | none =>
      rw [hw] at ha
      dsimp only at ha
      cases ha with
      | head => exact ⟨List.mem_cons_self .., _, hw⟩
      | tail _ ha => have := ih _ a ha; exact ⟨List.mem_cons_of_mem _ this.1, this.2⟩

theorem receiveAll_mem (l : List XppIn) (d : Dev) : ∀ a ∈ (d.receiveAll l).2.1, a.2 ∈ l := by
  induction l generalizing d with
  | nil => intro a ha; cases ha
  | cons b t ih =>
    intro a ha
    unfold Dev.receiveAll at ha
    dsimp only at ha
    split at ha
    · exact List.mem_cons_of_mem _ (ih _ a ha)
    · exact List.mem_cons_of_mem _ (ih _ a ha)
    · cases ha with
      | head => exact List.mem_cons_self ..
      | tail _ ha => exact List.mem_cons_of_mem _ (ih _ a ha)

def causes (d : Dev) : Prop := d.holdSeen ≠ 0 ∨ ∃ h : HoldBit, h ≠ .underrun ∧ d.held h = true

theorem causes.of {c r : Nat} {d e : Dev} (h : causes d) (ho : Dev.Only c r d e) (h1 : c.testBit (Part.ctorIdx .holdSeen) = false) (h2 : r.testBit (Fld.ctorIdx .AON_STATE_HOLDC) = false) : causes e := by
  rcases h with h | ⟨b, hb, hh⟩
  · left; rw [ho.parts .holdSeen h1]; exact h
  · right; refine ⟨b, hb, ?_⟩; unfold Dev.held; rw [ho.rd _ _ _ h2]; exact hh

theorem clearHold_other (d : Dev) (h k : HoldBit) (hk : k ≠ h) : (d.clearHold h).held k = d.held k := by
  unfold Dev.clearHold
  dsimp only
  split
  · unfold Dev.held; rw [(Dev.ringHold_only _ _).rd _ _ _ rfl]; exact setHold_other d h k false hk
  · exact setHold_other d h k false hk

theorem causes.clearUnderrun {d : Dev} (h : causes d) : causes d.clearUnderrun := by
  have h1 := h.of (Dev.refreshLead_only d) rfl rfl
  unfold Dev.clearUnderrun
  dsimp only
  split
  · rcases h1 with h | ⟨b, hb, hh⟩
    · left; rw [(Dev.clearHold_only _ _).parts .holdSeen rfl]; exact h
    · right; exact ⟨b, hb, (clearHold_other _ _ _ hb).trans hh⟩
  · exact h1

theorem causes_ne {d : Dev} (h : causes d) : (d.rd .AON_STATE_HOLDC ||| d.holdSeen) ≠ 0 := by
  intro h0
  rw [Nat.or_eq_zero_iff] at h0
  rcases h with h | ⟨b, _, hh⟩
  · exact h h0.2
  · unfold Dev.held at hh; rw [h0.1] at hh; simp [bitOf] at hh

theorem holdDue_of {d : Dev} (hr : d.st.running = true) (h : causes d) : d.holdDue = true := by
  unfold Dev.holdDue
  rw [hr]; simpa using causes_ne h

theorem stateEvents_hold {d : Dev} (hs : d.shutDue = none) (hr : d.st.running = true) (h : causes d) : d.stateEvents = (d.enterHold, true) := by
  unfold Dev.stateEvents
  rw [hs]
  exact if_pos (holdDue_of hr h)

theorem tail_st (d : Dev) (dups : List (Role × Nat)) : ((d.freeEntries).forEach dups (fun d x => d.answerDup x.1 x.2)).st = d.st := by
  refine (fold_keep dups (fun d x => d.answerDup x.1 x.2) (fun d => d.st) ?_ _).trans (Kst.of (Dev.freeEntries_only d) rfl).st
  intro d x _; exact (Kst.of (Dev.answerDup_only d _ _) rfl).st

theorem holdOrdered_hold (d : Dev) (h : d.st = .hold) : d.holdOrdered = d := by
  unfold Dev.holdOrdered
  rw [h]; rfl

theorem holdSeen_st (d : Dev) (n : Nat) : Dev.st { d with holdSeen := n } = d.st := rfl

theorem window_eq (s : State) (reqs : List XppIn) (hr : s.dev.st.idleToHold = true) :
    s.window reqs =
     (let x := s.dev.clearUnderrun.receiveAll reqs
      let y := x.1.refuseBy (fun d a => d.refusal s.dev.st a.1 a.2.req) x.2.1
      let z := y.1.stateEvents
      let u := z.1.refuseBy (fun _ a => if z.2 && reqOrdersState a.2.req then some .precedence else none) y.2
      let v := u.1.refuseBy (fun d a => if d.inhibited a.2.req then some .inhibited else none) u.2
      let w := v.1.settle v.2
      let s := w.2.foldl State.carryLive { s with dev := w.1 }
      let d := (s.dev.holdOrdered.freeEntries).forEach x.2.2 (fun d x => d.answerDup x.1 x.2)
      { s with dev := { d with holdSeen := 0 } }) := by
  unfold State.window
  dsimp only
  rw [if_pos hr]

theorem window_hold (s : State) (reqs : List XppIn) (hx : ∀ x ∈ reqs, reqOrdersState x.req = true) (hr : s.dev.st.running = true) (hc : causes s.dev)
    (hd : s.dev.shutDue = none) : (s.window reqs).dev.st = .hold := by
  rw [window_eq s reqs (by revert hr; cases s.dev.st <;> decide)]
  dsimp only
  rw [holdSeen_st]
  have hst0 : s.dev.clearUnderrun.st = s.dev.st := (Kst.of (Dev.clearUnderrun_only _) rfl).st
  have hc0 := hc.clearUnderrun
  have hd0 : s.dev.clearUnderrun.shutDue = none := (shutDue_congr ((Dev.clearUnderrun_only _).parts .shut rfl)).trans hd
  generalize s.dev.clearUnderrun = d0 at hst0 hc0 hd0
  have hm := receiveAll_mem reqs d0
  have hst1 : (d0.receiveAll reqs).1.st = s.dev.st := ((Kst.of (Dev.receiveAll_only d0 reqs) rfl).st).trans hst0
  have hc1 := hc0.of (Dev.receiveAll_only d0 reqs) rfl rfl
  have hd1 : (d0.receiveAll reqs).1.shutDue = none := (shutDue_congr ((Dev.receiveAll_only d0 reqs).parts .shut rfl)).trans hd0
  generalize d0.receiveAll reqs = x at hm hst1 hc1 hd1
  have hm2 := refuseBy_mem (fun d a => d.refusal s.dev.st a.1 a.2.req) x.2.1 x.1
  have hst2 : (x.1.refuseBy (fun d a => d.refusal s.dev.st a.1 a.2.req) x.2.1).1.st = s.dev.st := ((Kst.of (Dev.refuseBy_only _ _ _) rfl).st).trans hst1
  have hc2 := hc1.of (Dev.refuseBy_only x.1 (fun d a => d.refusal s.dev.st a.1 a.2.req) x.2.1) rfl rfl
  have hd2 : (x.1.refuseBy (fun d a => d.refusal s.dev.st a.1 a.2.req) x.2.1).1.shutDue = none := (shutDue_congr ((Dev.refuseBy_only _ _ _).parts .shut rfl)).trans hd1
  generalize x.1.refuseBy (fun d a => d.refusal s.dev.st a.1 a.2.req) x.2.1 = y at hm2 hst2 hc2 hd2
  rw [stateEvents_hold hd2 (by rw [hst2]; exact hr) hc2]
  dsimp only
  have hst3 := enterHold_st y.1
  generalize y.1.enterHold = z at hst3
  have hm3 := refuseBy_mem (fun (_ : Dev) (a : Live) => if true && reqOrdersState a.2.req then some Nack.precedence else none) y.2 z
  have hst4 : (z.refuseBy (fun (_ : Dev) (a : Live) => if true && reqOrdersState a.2.req then some Nack.precedence else none) y.2).1.st = .hold := ((Kst.of (Dev.refuseBy_only _ _ _) rfl).st).trans hst3
  generalize z.refuseBy (fun (_ : Dev) (a : Live) => if true && reqOrdersState a.2.req then some Nack.precedence else none) y.2 = u at hm3 hst4
  have hu : u.2 = [] := by
    apply List.eq_nil_iff_forall_not_mem.mpr
    intro a ha
    obtain ⟨h1, e, h2⟩ := hm3 a ha
    have := hx _ (hm _ (hm2 _ h1).1)
    rw [this] at h2
    cases h2
  obtain ⟨u1, u2⟩ := u
  dsimp only at hu hst4
  subst hu
  show ((Dev.freeEntries (Dev.holdOrdered u1)).forEach _ _).st = _
  rw [tail_st, holdOrdered_hold _ hst4]
  exact hst4

theorem noCause_clear (d : Dev) (h : d.rd .AON_STATE_HOLDC = 0) (h' : d.holdSeen = 0) : d.clearUnderrun.rd .AON_STATE_HOLDC = 0 ∧ d.clearUnderrun.holdSeen = 0 := by
  have h1 : d.refreshLead.rd .AON_STATE_HOLDC = 0 := ((Dev.refreshLead_only d).rd _ _ _ rfl).trans h
  have h2 : d.refreshLead.holdSeen = 0 := ((Dev.refreshLead_only d).parts .holdSeen rfl).trans h'
  unfold Dev.clearUnderrun
  dsimp only
  rw [if_neg]
  · exact ⟨h1, h2⟩
  · unfold Dev.held; rw [h1]; simp [bitOf]

theorem progress_holdc (d : Dev) : d.progress.rd .AON_STATE_HOLDC = d.rd .AON_STATE_HOLDC := (Dev.progress_only d).rd _ _ _ rfl

theorem progress_st (d : Dev) : (d.st = .armed → d.retireSent.reachedFirst = true → d.progress.st = .printing) ∧
      (d.st = .printing → d.retireSent.bar0Busy = true → d.progress.st = .printing) ∧
      (d.st = .printing → d.retireSent.bar0Busy = false → d.progress.st = .draining) ∧
      (d.st = .draining → d.retireSent.firstUnstarted.isSome = true → d.progress.st = .printing) ∧
      (d.st = .draining → d.retireSent.firstUnstarted = none → d.retireSent.allFired = true → d.progress.st = .idle) := by
  have hs : d.retireSent.st = d.st := (Kst.of (Dev.retireSent_only d) rfl).st
  unfold Dev.progress
  dsimp only
  generalize d.retireSent = e at hs
  rw [← hs]
  refine ⟨fun a b => ?_, fun a b => ?_, fun a b => ?_, fun a b => ?_, fun a b c => ?_⟩
  · rw [a]; dsimp only; rw [if_pos b]; exact enter_st _ _
  · rw [a]; dsimp only; rw [if_pos b]; exact a
  · rw [a]; dsimp only; rw [if_neg (by rw [b]; simp)]; exact enter_st _ _
  · rw [a]; dsimp only; rw [if_pos b]; exact enter_st _ _
  · rw [a]; dsimp only; rw [if_neg (by rw [b]; simp), if_pos c, (Kst.of (Dev.closeJobs_only _) rfl).st]; exact enter_st _ _

theorem dinChange_rd (d : Dev) (f : Fld) (e : EvCode) (on : Bool) (hf : f = .XPP_DIN_HOLD ∨ f = .XPP_DIN_INH) (he : e.sub < 16) :
    (d.dinChange f e on).flag f = on ∧ (d.flag f ≠ on → d.st ≠ .off → (d.dinChange f e on).evPending e) ∧ (d.dinChange f e on).holdSeen = d.holdSeen := by
  have hb : ∀ d : Dev, (d.wr f (bit on)).flag f = on := by
    intro d
    unfold Dev.flag
    rw [Dev.rd_wr, if_pos ⟨rfl, rfl, rfl⟩]
    rcases hf with rfl | rfl <;> cases on <;> decide
  have hr : ∀ (d : Dev) x, (d.raise e x).flag f = d.flag f := by
    intro d x
    unfold Dev.flag
    rcases hf with rfl | rfl <;> rw [(Dev.raise_only _ _ _).rd _ _ _ rfl]
  have hh : ∀ (d : Dev) x, (d.raise e x).holdSeen = d.holdSeen := fun d x => (Dev.raise_only _ _ _).parts .holdSeen rfl
  unfold Dev.dinChange
  by_cases hd : d.flag f = on
  · rw [if_pos hd]; exact ⟨hd, fun h => absurd hd h, rfl⟩
  · rw [if_neg hd]
    dsimp only
    have hst : (d.wr f (bit on)).st = d.st := by
      unfold Dev.st; rcases hf with rfl | rfl <;> simp [Dev.rd_wr]
    by_cases ho : (d.wr f (bit on)).st = .off
    · rw [if_pos ho]; exact ⟨hb d, fun _ h => absurd (hst ▸ ho) h, rfl⟩
    · rw [if_neg ho]; exact ⟨(hr _ _).trans (hb d), fun _ _ => Dev.raise_pending _ _ _ he, hh _ _⟩

theorem axStop_pending (d : Dev) (a : Nat) (e : EvCode) (he : e.sub < 16) (h : d.evPending e) : (d.axStop a).evPending e := by
  unfold Dev.axStop
  split
  · exact h
  · split
    · unfold Dev.homeAbort
      refine Dev.raise_pending_of _ _ _ _ he ?_
      unfold Dev.evPending
      rw [(Dev.axTo_only _ _ _).rd _ _ _ rfl, (Dev.updAx_only _ _ _).rd _ _ _ rfl, (Dev.updProf_only _ _ _).rd _ _ _ rfl]; exact h
    · split
      · exact h
      · unfold Dev.evPending; rw [(Dev.updProf_only _ _ _).rd _ _ _ rfl]; exact h

/-! ### Absent resources; an index within tolerance -/

theorem xref_set (d : Dev) (x : Pos48) : (d.setXref x).xref = x := by
  unfold Dev.setXref Dev.xref
  rw [Dev.rd_wr, if_neg (by simp), Dev.rd_wr, if_pos ⟨rfl, rfl, rfl⟩, Dev.rd_wr, if_pos ⟨rfl, rfl, rfl⟩]
  have h1 : (fldSpec .FIRE_IDXREF_LO_X).width = 32 := rfl
  have h2 : (fldSpec .FIRE_IDXREF_HI_X).width = 16 := rfl
  rw [h1, h2]
  apply BitVec.eq_of_toNat_eq
  rw [BitVec.toNat_ofNat]
  have := x.isLt
  omega

theorem xref_congr {d e : Dev} (h1 : e.rd .FIRE_IDXREF_LO_X = d.rd .FIRE_IDXREF_LO_X) (h2 : e.rd .FIRE_IDXREF_HI_X = d.rd .FIRE_IDXREF_HI_X) : e.xref = d.xref := by
  unfold Dev.xref; rw [h1, h2]

theorem refusal_absent {d : Dev} {was : DState} {r : Role} {q : XppReq} (h1 : reqWhole q = true) (h2 : reqFrom q r = true)
    (h3 : reqState q was = true) (h4 : d.runs .sv0 = true) (h5 : d.namesAbsent q = true) : d.refusal was r q = some .range := by
  have hm : reqModule q = false := by cases q <;> first | rfl | cases h5
  have hr : d.reqRange q = false := by
    cases q <;> first | cases h5 | (simp only [Dev.namesAbsent, decide_eq_true_eq] at h5; simp only [Dev.reqRange, Bool.and_eq_false_iff, decide_eq_false_iff_not, Nat.not_lt]; first | exact h5 | exact Or.inl h5)
  unfold Dev.refusal
  rw [h1, h2, h3, h4, hm, hr]
  rfl

/-! ### Jobs and placement -/

theorem closeBulk_all (d : Dev) (conn jn c : Nat) (hc : ∀ x ∈ d.conns, x.idx ≠ conn) :
    (d.closeBulk conn jn c).jobs = d.jobs ∧ (d.closeBulk conn jn c).conns = d.conns ∧ (d.closeBulk conn jn c).evPending Ev.BULK_CLOSED := by
  unfold Dev.closeBulk
  refine ⟨(Dev.raise_only _ _ _).parts .jobs rfl, ((Dev.raise_only _ _ _).parts .conns rfl).trans ?_, Dev.raise_pending _ _ _ (by decide)⟩
  show d.conns.filter (fun c => c.idx != conn) = d.conns
  rw [List.filter_eq_self]
  intro a ha
  simpa using hc a ha

theorem find_map_filter (l : List Job) (n k : Nat) (hk : k ≠ n) (f : Job → Job) (hf : ∀ a, (f a).jn = a.jn) (hn : ∀ a, a.jn ≠ n → f a = a) :
    ((l.map f).filter (fun j => j.jn != n)).find? (fun j => decide (j.jn = k)) = l.find? (fun j => decide (j.jn = k)) := by
  induction l with
  | nil => rfl
  | cons a t ih =>
    rw [List.map_cons, List.filter_cons, List.find?_cons]
    by_cases ha : a.jn = n
    · rw [if_neg (by rw [hf, ha]; simp), ih]
      have : decide (a.jn = k) = false := by rw [ha]; simpa using fun h => hk h.symm
      rw [this]
    · rw [if_pos (by rw [hf]; simpa using ha), List.find?_cons, hn a ha, ih]

theorem rejectJob_other (d : Dev) (n re : Nat) : (d.rejectJob n re).job n = none ∧ ∀ k, k ≠ n → (d.rejectJob n re).job k = d.job k := by
  unfold Dev.rejectJob
  refine ⟨gone_job (endJob_gone _ _ _ _), fun k hk => ?_⟩
  unfold Dev.job
  rw [endJob_jobs]
  have hp : (d.purge n).jobs = d.jobs := (Dev.purge_only d n).parts .jobs rfl
  unfold Dev.updJob
  dsimp only
  rw [hp, List.map_map]
  refine find_map_filter _ n k hk _ (fun a => ?_) (fun a ha => ?_)
  · simp only [Function.comp]
    by_cases h : a.jn = n <;> simp [h]
  · simp [ha]

theorem place_rd (d : Dev) (jn : Nat) (o : Int) (e : Nat) (r : JobRec) (he : d.freeEntry = some e) (hr : (d.job jn).bind (·.rec?) = some r) :
    (d.place jn o).rd .FIRE_PL_JN_JN e = jn % 2 ^ 32 ∧ (d.place jn o).rd .FIRE_PL_LINES_L e = r.lines % 2 ^ 32 ∧ (d.place jn o).rd .FIRE_PL_ORGH_VALID e = 1 := by
  have hs : ∀ (d : Dev) st f, (fieldsMask [.FIRE_PL_JN_JN, .FIRE_PL_LINES_L, .FIRE_PL_ORGH_VALID]).testBit f.ctorIdx = true → (d.setJobSt jn st).rd f e = d.rd f e := fun d st f _ => (Dev.setJobSt_only d jn st).rd f _ _ (Nat.zero_testBit _)
  have hb : ∀ (d : Dev) f, f ∈ [Fld.FIRE_PL_JN_JN, .FIRE_PL_LINES_L, .FIRE_PL_ORGH_VALID] → (d.forEach d.bars (fun d b => if (d.due b.bar).isNone then d.moveDue b.bar (d.seek b.bar jn 0) else d)).rd f e = d.rd f e := by
    intro d f hf
    refine fold_keep _ _ (fun d => d.rd f e) ?_ d
    intro d x _
    split
    · refine (Dev.moveDue_only d _ _).rd f _ _ ?_
      simp at hf
      rcases hf with rfl | rfl | rfl <;> rfl
    · rfl
  unfold Dev.place
  rw [he, hr]
  dsimp only
  refine ⟨?_, ?_, ?_⟩
  · rw [hs _ _ _ (by decide), hb _ _ (by simp)]
    simp [Dev.wrOrigin, Dev.rd_wr]
    first | rfl | decide
  · rw [hs _ _ _ (by decide), hb _ _ (by simp)]
    simp [Dev.wrOrigin, Dev.rd_wr]
    first | rfl | decide
  · rw [hs _ _ _ (by decide), hb _ _ (by simp)]
    simp [Dev.wrOrigin, Dev.rd_wr]
    first | rfl | decide

theorem place_committed (d : Dev) (jn : Nat) (o : Int) : (d.place jn o).rk.committed = d.rk.committed := by
  unfold Dev.place
  split
  · next e r he hr =>
    dsimp only
    have hs : ∀ (d : Dev) st, (d.setJobSt jn st).rk = d.rk := fun d st => (Dev.setJobSt_only d jn st).parts .rk rfl
    have hb : ∀ (d : Dev), (d.forEach d.bars (fun d b => if (d.due b.bar).isNone then d.moveDue b.bar (d.seek b.bar jn 0) else d)).rk = d.rk := by
      intro d
      refine fold_keep _ _ (fun d => d.rk) ?_ d
      intro d x _
      split
      · exact (Dev.moveDue_only d _ _).parts .rk rfl
      · rfl
    rw [hs, hb]
    rfl
  · rfl

theorem autoPlace_committed (d : Dev) : d.autoPlace.rk.committed = d.rk.committed := by
  unfold Dev.autoPlace
  split
  · split
    · rfl
    · exact place_committed _ _ _
  · rfl

theorem dropLines_lines (d : Dev) (n lo hi e : Nat) : (d.dropLines n lo hi).rd .FIRE_PL_LINES_L e = d.rd .FIRE_PL_LINES_L e := (Dev.dropLines_only d n lo hi).rd _ _ _ rfl

def lowered (d : Dev) (e lines n pit : Nat) : Dev := ((d.wr .FIRE_PL_LINES_L lines e).updJob n (fun j => { j with limit := some (min (lines / pit) (j.limit.getD (lines / pit))) })).notPrinted n (lines / pit)

theorem lowered_lines (d : Dev) (e lines n pit : Nat) (h : lines < 2 ^ 32) : (lowered d e lines n pit).rd .FIRE_PL_LINES_L e = lines := by
  unfold lowered
  rw [(Dev.notPrinted_only _ _ _).rd _ _ _ rfl]
  show (d.wr .FIRE_PL_LINES_L lines e).rd .FIRE_PL_LINES_L e = lines
  rw [Dev.rd_wr, if_pos ⟨rfl, rfl, rfl⟩]; exact Nat.mod_eq_of_lt h

theorem lowerLines_eq (d : Dev) (e lines : Nat) (p : Pl) (j : Job) (r : JobRec) (hp : d.pl e = some p) (hj : d.job p.jn = some j) (hr : j.rec? = some r) :
    d.lowerLines e lines = if 0 < r.pitch ∧ lines % r.pitch = 0 ∧ lines < p.lines ∧ j.started * r.pitch ≤ lines then
      (((lowered d e lines p.jn r.pitch).forEach (List.range 16) (fun d i =>
            d.updRw i (fun w => w.giveUp (fun s => decide (s.jn = p.jn) && decide (lines ≤ s.line))))).forEach (List.range 64) (fun d n =>
            d.updLane n (fun l => { l with fifo := l.fifo.filter (fun f => !(decide (f.jn = p.jn) && decide (lines ≤ f.line))) }))).dropLines p.jn lines (2 ^ 32)
      else d := by
  unfold Dev.lowerLines
  rw [hp]; dsimp only; rw [hj]; dsimp only; rw [hr]; dsimp only
  by_cases h : 0 < r.pitch ∧ lines % r.pitch = 0 ∧ lines < p.lines ∧ j.started * r.pitch ≤ lines
  · rw [if_pos h, if_neg]
    · rfl
    · obtain ⟨h1, h2, h3, h4⟩ := h
      simp only [Bool.or_eq_true, decide_eq_true_eq, bne_iff_ne]
      omega
  · rw [if_neg h, if_pos]
    simp only [Bool.or_eq_true, decide_eq_true_eq, bne_iff_ne]
    omega

theorem setActive_act (d : Dev) (m : Nat) : (d.setActive m).rd .RKC_ACTIVE_ACT = m % 2 ^ 16 := by
  have hk : ∀ (b : Bool) (d : Dev) (e : EvCode) x, (if b then d.raise e x else d).rd .RKC_ACTIVE_ACT = d.rd .RKC_ACTIVE_ACT := by
    intro b d e x; cases b
    · rfl
    · exact (Dev.raise_only _ _ _).rd _ _ _ rfl
  unfold Dev.setActive
  dsimp only
  rw [hk, hk]
  simp [Dev.rd_wr]
  rfl

theorem workPost_act (d : Dev) (seeds : List Nat) : (d.workPost seeds).rd .RKC_ACTIVE_ACT = d.ableMask % 2 ^ 16 := by
  unfold Dev.workPost
  dsimp only
  have h0 := setActive_act d d.ableMask
  generalize d.setActive d.ableMask = e at h0
  have hs : ∀ (e : Dev), e.rd .RKC_ACTIVE_ACT = d.ableMask % 2 ^ 16 → e.startAll.rd .RKC_ACTIVE_ACT = d.ableMask % 2 ^ 16 := fun e h => ((Dev.startAll_only e).rd _ _ _ rfl).trans h
  have hp : ∀ (x : Dev × List Nat), x.1.rd .RKC_ACTIVE_ACT = d.ableMask % 2 ^ 16 → (Dev.postCache x).rd .RKC_ACTIVE_ACT = d.ableMask % 2 ^ 16 := fun x h => ((Dev.postCache_only x).rd _ _ _ rfl).trans h
  split
  · exact h0
  · have hx : (Dev.repost (e.postStuck, seeds)).1.rd .RKC_ACTIVE_ACT = d.ableMask % 2 ^ 16 :=
      ((Dev.repost_only _).rd _ _ _ rfl).trans (((Dev.postStuck_only _).rd _ _ _ rfl).trans h0)
    generalize Dev.repost (e.postStuck, seeds) = x at hx
    have h1 : (Dev.normFront 5 x.1).rd .RKC_ACTIVE_ACT = d.ableMask % 2 ^ 16 := ((Dev.normFront_only _ _).rd _ _ _ rfl).trans hx
    generalize Dev.normFront 5 x.1 = f at h1
    split
    · exact hs _ (hp _ h1)
    · split
      · exact h1
      · split
        · exact h1
        · split
          · exact hs _ (hp _ h1)
          · split
            · refine hs _ (hp _ (((Dev.updRk_only _ _).rd _ _ _ rfl).trans ?_))
              split
              · exact h1
              · exact ((Dev.raise_only _ _ _).rd _ _ _ rfl).trans h1
            · refine hs _ (((Dev.normFront_only _ _).rd _ _ _ rfl).trans (((Dev.updRk_only _ _).rd _ _ _ rfl).trans (((Dev.postBand_only _ _ _ _).rd _ _ _ rfl).trans ?_)))
              exact ((Dev.reportContents_only _ _ _ _).rd _ _ _ rfl).trans h1

theorem tileDone_busy (d : Dev) (i : Nat) (k : WorkKind) (o : TileOut) (w : Work) (h : d.execOf i k = some w) : (d.tileDone i k o).rd .RKC_BUSY_CYC i = (d.finishWork i w).rd .RKC_BUSY_CYC i := by
  unfold Dev.tileDone
  rw [h]
  dsimp only
  rw [(Dev.settleRk_only _).rd _ _ _ rfl, (Dev.compareTile_only _ _).rd _ _ _ rfl, (Dev.updRk_only _ _).rd _ _ _ rfl]

theorem tileDone_none (d : Dev) (i : Nat) (k : WorkKind) (o : TileOut) (h : d.execOf i k = none) : d.tileDone i k o = d := by
  unfold Dev.tileDone; rw [h]

theorem steal_eq (d : Dev) (i ring : Nat) (w : Work) (h1 : d.flag .RKC_CTL_STEAL_EN = true) (h2 : d.rkActive i = true) (h3 : d.busyRk i = false) (h4 : d.halves i < 2)
    (h5 : ∀ x ∈ d.rk.work, ¬(x.ring = i ∧ d.canStart i x = true)) (h6 : d.fullest ((List.range 16).filter (fun r => (d.stealable i r).isSome)) = some ring) (h7 : d.stealable i ring = some w) :
    d.steal i = (d.startWork i w).nameRenderer w.id i := by
  have h5' : d.rk.work.any (fun w => decide (w.ring = i) && d.canStart i w) = false := by
    rw [List.any_eq_false]; intro x hx; have := h5 x hx; simpa using this
  unfold Dev.steal
  rw [h1, h2, h3, h5', h6, if_neg (by simp; omega)]
  dsimp only
  rw [h7]

def strikeBase (d : Dev) (i c : Nat) : Dev :=
  (((d.wr .RKC_STRIKE_TOTAL (min 15 (d.rd .RKC_STRIKE_TOTAL i + 1)) i).wr .RKC_STRIKE_LAST c i).raise Ev.RK_STRIKE (le 1 i ++ le 1 c)).updRk
    (fun k => { k with strikes := Tab.put k.strikes i (some (((d.wr .RKC_STRIKE_TOTAL (min 15 (d.rd .RKC_STRIKE_TOTAL i + 1)) i).wr .RKC_STRIKE_LAST c i).raise Ev.RK_STRIKE (le 1 i ++ le 1 c)).now) })

def strikeEnd (e : Dev) (i w : Nat) : Option Nat → Dev
  | some t => if e.now < t + w then (e.wr .RKC_STRIKE_PENDING 0 i).mitten i t else e.wr .RKC_STRIKE_PENDING 1 i
  | none => e.wr .RKC_STRIKE_PENDING 1 i

theorem strike_eq (d : Dev) (i c : Nat) : ∃ o, d.strike i c = strikeEnd (strikeBase d i c) i 3600000000000 o := ⟨Tab.at (((d.wr .RKC_STRIKE_TOTAL (min 15 (d.rd .RKC_STRIKE_TOTAL i + 1)) i).wr .RKC_STRIKE_LAST c i).raise Ev.RK_STRIKE (le 1 i ++ le 1 c)).rk.strikes i, by
  unfold Dev.strike strikeEnd
  dsimp only
  generalize Tab.at (((d.wr .RKC_STRIKE_TOTAL (min 15 (d.rd .RKC_STRIKE_TOTAL i + 1)) i).wr .RKC_STRIKE_LAST c i).raise Ev.RK_STRIKE (le 1 i ++ le 1 c)).rk.strikes i = o
  generalize (3600000000000 : Nat) = w
  cases o <;> rfl⟩

theorem strikeEnd_rd (e : Dev) (i w : Nat) (o : Option Nat) : (strikeEnd e i w o).rd .RKC_STRIKE_LAST i = e.rd .RKC_STRIKE_LAST i ∧ (strikeEnd e i w o).rd .RKC_STRIKE_TOTAL i = e.rd .RKC_STRIKE_TOTAL i := by
  unfold strikeEnd
  cases o with
  | none => exact ⟨by rw [Dev.rd_wr, if_neg (by simp)], by rw [Dev.rd_wr, if_neg (by simp)]⟩
  | some t =>
    dsimp only
    split
    · exact ⟨by rw [(Dev.mitten_only _ _ _).rd _ _ _ rfl, Dev.rd_wr, if_neg (by simp)], by rw [(Dev.mitten_only _ _ _).rd _ _ _ rfl, Dev.rd_wr, if_neg (by simp)]⟩
    · exact ⟨by rw [Dev.rd_wr, if_neg (by simp)], by rw [Dev.rd_wr, if_neg (by simp)]⟩

theorem strike_fields (d : Dev) (i c : Nat) (hc : c < 4) : (d.strike i c).rd .RKC_STRIKE_LAST i = c ∧ (d.strike i c).rd .RKC_STRIKE_TOTAL i = min 15 (d.rd .RKC_STRIKE_TOTAL i + 1) := by
  obtain ⟨o, ho⟩ := strike_eq d i c
  rw [ho, (strikeEnd_rd _ _ _ _).1, (strikeEnd_rd _ _ _ _).2]
  unfold strikeBase
  refine ⟨?_, ?_⟩
  · rw [(Dev.updRk_only _ _).rd _ _ _ rfl, (Dev.raise_only _ _ _).rd _ _ _ rfl, Dev.rd_wr, if_pos ⟨rfl, rfl, rfl⟩]; exact Nat.mod_eq_of_lt hc
  · rw [(Dev.updRk_only _ _).rd _ _ _ rfl, (Dev.raise_only _ _ _).rd _ _ _ rfl, Dev.rd_wr, if_neg (by simp), Dev.rd_wr, if_pos ⟨rfl, rfl, rfl⟩]; exact Nat.mod_eq_of_lt (show _ < 2 ^ 4 by omega)

theorem failWork_fields (d : Dev) (i c : Nat) (w : Work) (hc : c < 4) : (d.failWork i c w).rd .RKC_STRIKE_LAST i = c ∧ (d.failWork i c w).rd .RKC_STRIKE_TOTAL i = min 15 (d.rd .RKC_STRIKE_TOTAL i + 1) := by
  unfold Dev.failWork
  dsimp only
  have := strike_fields ((d.updRk (fun k => { k with work := k.work.filter (· ≠ w) })).addBusy i w) i c hc
  rw [(Dev.addBusy_only _ _ _).rd .RKC_STRIKE_TOTAL _ _ rfl, (Dev.updRk_only _ _).rd .RKC_STRIKE_TOTAL _ _ rfl] at this
  generalize ((d.updRk (fun k => { k with work := k.work.filter (· ≠ w) })).addBusy i w).strike i c = e at this
  refine ⟨?_, ?_⟩
  · rw [(Dev.settleRk_only _).rd _ _ _ rfl, (Dev.requeue_only _ _ _).rd _ _ _ rfl]; exact this.1
  · rw [(Dev.settleRk_only _).rd _ _ _ rfl, (Dev.requeue_only _ _ _).rd _ _ _ rfl]; exact this.2

theorem finish_rd (d : Dev) (i : Nat) (w : Work) (f : Fld) (hf : f ≠ .RKC_BUSY_CYC) (k : Nat) : (d.finishWork i w).rd f k = d.rd f k := by
  unfold Dev.finishWork Dev.addBusy
  extract_lets
  rw [Dev.rd_wr, if_neg (fun h => hf h.1)]; rfl

end Sys2Proof.Machine
end

