-- ==== Sys2Proof/Laws/EffectsPrint.lean ====
section
/-! SUPPORT. What the operations of Reckoners, dosing, firing, lanes and marks do. -/
namespace Sys2Proof.Machine

-- One theorem at a time: checked side by side, their threads exceed the memory that the check allows.
set_option Elab.async false
set_option exponentiation.threshold 600

/-! ### Reckoners -/

theorem shortEnd_dose (d : Dev) (i jn pn : Nat) : (d.shortEnd i jn pn).dose = d.dose := (Dev.shortEnd_only d i jn pn).parts .dose rfl

theorem lineEnd (d : Dev) (i jn pn k : Nat) (a b : Bool) (f : Fld) (hf : f ≠ .DP_SHORT_SUM) (hf1 : f ≠ .AON_EVPEND_PEND) (hf2 : f ≠ .AON_EVLOST_N) (x y : Nat) :
    (let e := if a then d.shortEnd i jn pn else d
     if b then e.freeTiles k else e).dose = d.dose ∧
    (let e := if a then d.shortEnd i jn pn else d
     if b then e.freeTiles k else e).rd f x y = d.rd f x y := by
  dsimp only
  have h1 : (if a then d.shortEnd i jn pn else d).dose = d.dose ∧ (if a then d.shortEnd i jn pn else d).rd f x y = d.rd f x y := by
    split
    · exact ⟨shortEnd_dose _ _ _ _, (Dev.shortEnd_only d i jn pn).keep [.AON_EVPEND_PEND, .AON_EVLOST_N, .DP_SHORT_SUM] (by decide) (by simp [hf, hf1, hf2]) _ _⟩
    · exact ⟨rfl, rfl⟩
  generalize (if a then d.shortEnd i jn pn else d) = e at h1 ⊢
  split
  · exact ⟨((Dev.freeTiles_only e k).parts .dose rfl).trans h1.1, ((Dev.freeTiles_only e k).regs f (Nat.zero_testBit _) _ _).trans h1.2⟩
  · exact h1

theorem doseOut_redose (d : Dev) (c : LineCtx) (jn : Nat) (k : DoseChecks) :
    (d.doseOut c jn k).2.2.dose = d.dose ∧
    (d.doseOut c jn k).2.2.rd .DP_CHECK_REDOSE c.g.pipe =
      (if (failedCheck k.first).isSome then min (d.rd .DP_CHECK_REDOSE c.g.pipe + 1) (2 ^ (fldSpec .DP_CHECK_REDOSE).width - 1) else d.rd .DP_CHECK_REDOSE c.g.pipe) := by
  refine ⟨(Dev.doseOut_only d c jn k).parts .dose rfl, ?_⟩
  have hw : (fldSpec .DP_CHECK_REDOSE).width = 16 := rfl
  have hinc : ∀ (d : Dev) i, (d.inc .DP_CHECK_REDOSE i).rd .DP_CHECK_REDOSE i = min (d.rd .DP_CHECK_REDOSE i + 1) (2 ^ (fldSpec .DP_CHECK_REDOSE).width - 1) := by
    intro d i
    unfold Dev.inc Dev.addSat
    rw [Dev.rd_wr, if_pos ⟨rfl, rfl, rfl⟩]
    exact Nat.mod_eq_of_lt (by rw [hw]; omega)
  have hk : ∀ (d : Dev) f i e bs r b n, f = Fld.DP_CHECK_FAIL ∨ f = Fld.DP_CHECK_POISON →
      ((((d.inc f i).raise e bs).spoilBarLine r b jn n).rd .DP_CHECK_REDOSE i) = d.rd .DP_CHECK_REDOSE i := by
    intro d f i e bs r b n h
    rw [(Dev.spoilBarLine_only _ _ _ _ _).rd _ _ _ rfl, (Dev.raise_only _ _ _).rd _ _ _ rfl]
    unfold Dev.inc Dev.addSat
    rw [Dev.rd_wr, if_neg (by rcases h with rfl | rfl <;> simp)]
  unfold Dev.doseOut
  dsimp only
  have h3 : ∀ (d1 d2 : Dev) (p : Prop) [Decidable p] (x y : List Byte × Nat), d1.rd .DP_CHECK_REDOSE c.g.pipe = d2.rd .DP_CHECK_REDOSE c.g.pipe →
      (if p then ((x.1, x.2, d1) : List Byte × Nat × Dev) else (y.1, y.2, d1)).2.2.rd .DP_CHECK_REDOSE c.g.pipe = d2.rd .DP_CHECK_REDOSE c.g.pipe := by
    intro d1 d2 p _ x y h; split <;> exact h
  refine (h3 _ _ _ (_, 0) (Dev.dosedLine _ _) rfl).trans ?_
  have key : ∀ (d : Dev) (o1 o2 : Option Nat), (match o2 with
      | some p => ((d.inc .DP_CHECK_POISON c.g.pipe).raise Ev.DP_POISON (le 1 c.g.pipe ++ le 4 jn ++ le 4 c.n ++ le 1 p)).spoilBarLine .poison c.g.bar jn c.n
      | none => d).rd .DP_CHECK_REDOSE c.g.pipe = d.rd .DP_CHECK_REDOSE c.g.pipe := by
    intro d _ o2; cases o2
    · rfl
    · exact hk _ _ _ _ _ _ _ _ (Or.inr rfl)
  refine (key _ none _).trans ?_
  have key2 : ∀ (d : Dev) (o2 : Option Nat), (match o2 with
      | some p => ((d.inc .DP_CHECK_FAIL c.g.pipe).raise Ev.DP_CHECK_FAIL (le 1 c.g.pipe ++ le 4 jn ++ le 4 c.n ++ le 1 p)).spoilBarLine .residue c.g.bar jn c.n
      | none => d).rd .DP_CHECK_REDOSE c.g.pipe = d.rd .DP_CHECK_REDOSE c.g.pipe := by
    intro d o2; cases o2
    · rfl
    · exact hk _ _ _ _ _ _ _ _ (Or.inl rfl)
  refine (key2 _ _).trans ?_
  cases failedCheck k.first with
  | none => rfl
  | some x =>
    dsimp only [Option.isSome_some, if_true]
    rw [(Dev.raise_only _ _ _).rd _ _ _ rfl]
    exact hinc d _

theorem pipes_congr {d e : Dev} (h : ∀ f i j, f ∉ [Fld.RW_LEAD_COUNTS, .RW_LEADBAR_BAR, .RW_BLEAD_COUNTS, .RW_XSTAT_WAITTGT] → e.rd f i j = d.rd f i j) : e.pipes = d.pipes := by
  unfold Dev.pipes
  congr 1
  funext i
  simp only [Dev.flag]
  repeat rw [h _ _ _ (by decide)]

theorem pipeGeom_pipe (d : Dev) (i : Nat) : (d.pipeGeom i).pipe = i := by
  unfold Dev.pipeGeom
  dsimp only
  split <;> rfl

/-- What the choice of a band start has seen: nothing that matters has changed. -/
theorem bandStart_eq (d : Dev) (b : BandTiles) (rest : List BandTiles) (r : JobRec) (hp : d.pipes ≠ []) (hb : ∀ i ∈ d.pipes, (d.dp i).band = none)
    (hr : d.reload = false) (hh : d.dropStale.rk.handed = b :: rest) (hj : (d.job b.jn).bind (·.rec?) = some r) :
    ∃ e, e = d.dropStale.refreshLead ∧ e.pipes = d.pipes ∧ e.dose = d.dose ∧ d.doseBandStart =
      (if e.rd .RW_LEADTGT_COUNTS ≤ e.rd .RW_LEAD_COUNTS then e.forEach e.pipes (fun d i => d.wr .RW_XSTAT_WAITTGT 1 i)
        else
          let d := e.forEach e.pipes (fun d i => d.wr .RW_XSTAT_WAITTGT 0 i)
          let none' := d.pipes.filter (fun i => d.posted i = 0)
          if 224 ≤ d.integ.heldSpoils.length then d
          else if none' ≠ [] then d.waitSlots none'
          else if d.needsReload r then { d with reload := true }
          else d.startBand b r) := by
  have hr0 : ∀ (d : Dev) f i j, f ∉ [Fld.RW_LEAD_COUNTS, .RW_LEADBAR_BAR, .RW_BLEAD_COUNTS] → d.dropStale.refreshLead.rd f i j = d.rd f i j := by
    intro d f i j h
    refine ((Dev.refreshLead_only _).keep [.RW_LEAD_COUNTS, .RW_LEADBAR_BAR, .RW_BLEAD_COUNTS] (by decide) h _ _).trans ?_
    exact (Dev.dropStale_only _).rd _ _ _ (Nat.zero_testBit _)
  refine ⟨d.dropStale.refreshLead, rfl, ?_, ?_, ?_⟩
  · exact pipes_congr (fun f i j h => hr0 d f i j (fun hm => h (by simp at hm ⊢; rcases hm with h | h | h <;> simp [h])))
  · exact ((Dev.refreshLead_only _).parts .dose rfl).trans ((Dev.dropStale_only _).parts .dose rfl)
  · unfold Dev.doseBandStart
    rw [if_neg]
    · dsimp only
      rw [hh]
      dsimp only
      have : d.dropStale.job b.jn = d.job b.jn := job_congr ((Dev.dropStale_only _).parts .jobs rfl) _
      rw [this, hj]
    · simp only [hr, Bool.or_false, Bool.or_eq_true, decide_eq_true_eq, hp, false_or]
      rw [List.any_eq_true]
      rintro ⟨i, hi, hs⟩
      rw [hb i hi] at hs; cases hs

theorem waitTgt (d : Dev) (l : List Nat) (v : Nat) (hv : v < 2) : (∀ i ∈ l, (d.forEach l (fun d i => d.wr .RW_XSTAT_WAITTGT v i)).rd .RW_XSTAT_WAITTGT i = v) ∧
    Dev.Only 0 (fieldsMask [.RW_XSTAT_WAITTGT]) d (d.forEach l (fun d i => d.wr .RW_XSTAT_WAITTGT v i)) := by
  refine ⟨forEach_each (β := Nat) l _ (fun d i => d.rd .RW_XSTAT_WAITTGT i = v) (fun d x => ?_) (fun d x y h => ?_) d, forEach_only l d _ (fun d x => Dev.Only.wr _ _ _ _ rfl (Dev.Only.refl _ _ _))⟩
  · exact rd_wr_self _ _ _ _ _ hv
  · by_cases h' : y = x
    · subst h'; exact rd_wr_self _ _ _ _ _ hv
    · rw [Dev.rd_wr, if_neg (by simp [h'])]; exact h

theorem startBand_all (d : Dev) (b : BandTiles) (r : JobRec) (hw : ∀ i ∈ d.pipes, d.rd .RW_XSTAT_WAITTGT i = 0) :
    ∀ i ∈ d.pipes, (d.startBand b r).rd .RW_XSTAT_WAITTGT i = 0 ∧ ∃ x, ((d.startBand b r).dp i).band = some x ∧ x.jn = b.jn ∧ x.line = 16 * b.band ∧
        x.count = min 16 (r.lines - 16 * b.band) ∧ x.lines = [] := by
  unfold Dev.startBand
  dsimp only
  have hp : d.decideLevel.pipes = d.pipes := by
    unfold Dev.pipes Dev.flag
    simp only [(Dev.decideLevel_only d).rd .DP_CFG_EN _ _ rfl]
  rw [hp]
  intro i hi
  refine forEach_each (β := Nat) d.pipes _ (fun e i => e.rd .RW_XSTAT_WAITTGT i = 0 ∧ ∃ x, (e.dp i).band = some x ∧ x.jn = b.jn ∧ x.line = 16 * b.band ∧
        x.count = min 16 (r.lines - 16 * b.band) ∧ x.lines = []) ?_ ?_ _ i hi
  · intro e x
    exact ⟨rd_wr_self _ _ _ _ _ (by decide), ⟨b.jn, 16 * b.band, min 16 (r.lines - 16 * b.band), [], e.rd .DP_RODV_VER x, 0, 0⟩, by rw [wr_dp, wr_dp, updDp_dp], rfl, rfl, rfl, rfl⟩
  · intro e x y ⟨h1, z, h2, h3⟩
    by_cases h' : y = x
    · cases h'
      exact ⟨rd_wr_self _ _ _ _ _ (by decide), ⟨b.jn, 16 * b.band, min 16 (r.lines - 16 * b.band), [], e.rd .DP_RODV_VER x, 0, 0⟩, by rw [wr_dp, wr_dp, updDp_dp], rfl, rfl, rfl, rfl⟩
    · refine ⟨?_, z, by rw [wr_dp, wr_dp, updDp_ne _ _ h']; exact h2, h3⟩
      rw [Dev.rd_wr, if_neg (by simp [h']), Dev.rd_wr, if_neg (by simp)]; exact h1

theorem region_congr {d e : Dev} {c r : Nat} (h : Dev.Only c r d e) (hr : r &&& fieldsMask [.MEM_UE_PPW, .MEM_RMW_N] = r) (sp a : Nat) : e.region sp a = d.region sp a := by
  have hx : e.regionHolds sp a = d.regionHolds sp a := by
    funext i
    unfold Dev.regionHolds Dev.flag
    simp only [h.keep [.MEM_UE_PPW, .MEM_RMW_N] hr (f := .NOC_PR_ATTR_SPACE) (by decide), h.keep [.MEM_UE_PPW, .MEM_RMW_N] hr (f := .NOC_PR_ATTR_EN) (by decide),
      h.keep [.MEM_UE_PPW, .MEM_RMW_N] hr (f := .NOC_PR_BASE_BASE) (by decide), h.keep [.MEM_UE_PPW, .MEM_RMW_N] hr (f := .NOC_PR_LIM_LIM) (by decide)]
  unfold Dev.region
  rw [hx]

theorem allowed_congr {d e : Dev} {c r : Nat} (h : Dev.Only c r d e) (hr : r &&& fieldsMask [.MEM_UE_PPW, .MEM_RMW_N] = r) (sp a l : Nat) (w : Bool) : e.allowed sp a l w = d.allowed sp a l w := by
  unfold Dev.allowed
  rw [region_congr h hr]
  simp only [h.keep [.MEM_UE_PPW, .MEM_RMW_N] hr (f := .NOC_PR_ATTR_WLVL) (by decide), h.keep [.MEM_UE_PPW, .MEM_RMW_N] hr (f := .NOC_PR_ATTR_RLVL) (by decide)]

theorem reaches_congr {d e : Dev} {c r : Nat} (h : Dev.Only c r d e) (hr : r &&& fieldsMask [.MEM_UE_PPW, .MEM_RMW_N] = r) (hv : c.testBit Part.variant.ctorIdx = false) {l : Lvl} {a : Nat}
    (hR : d.Reaches l a) : e.Reaches l a := by
  obtain ⟨ha, x, i, j, hf, hab, hd⟩ := hR
  refine ⟨by rw [allowed_congr h hr]; exact ha, x, i, j, hf, ?_, ?_⟩
  · unfold Dev.absent Dev.isA32 at hab ⊢; rw [show e.variant = d.variant from h.parts .variant hv]; exact hab
  · unfold Dev.domOn at hd ⊢; rw [h.keep [.MEM_UE_PPW, .MEM_RMW_N] hr (f := .AON_PDSTAT_ON) (by decide)]; exact hd

theorem plTail_rd (d : Dev) (i idx : Nat) : (d.plTail i idx).rd .RW_PL_TAIL_IDX i = idx % 2 ^ 19 := by
  unfold Dev.plTail
  dsimp only
  split
  · split
    · rw [Dev.rd_wr, if_neg (by simp)]
      show ((d.wr _ _ _).rd _ _ _) = _
      rw [Dev.rd_wr, if_pos ⟨rfl, rfl, rfl⟩]; rfl
    · rw [Dev.rd_wr, if_pos ⟨rfl, rfl, rfl⟩]; rfl
  · rw [Dev.rd_wr, if_pos ⟨rfl, rfl, rfl⟩]; rfl

theorem setWrite_dp (d : Dev) (i : Nat) (start : Nat × Nat) (n k : Nat) : (d.setWrite i start n).dp k = d.dp k := by
  unfold Dev.setWrite
  split <;> rfl

theorem setWrite_rw (d : Dev) (i : Nat) (start : Nat × Nat) (n : Nat) : ∃ o, (d.setWrite i start n).rw i = { d.rw i with ofs := o } := by
  unfold Dev.setWrite
  split
  · exact ⟨(d.rw i).ofs, rfl⟩
  · exact ⟨_, updRw_rw _ _ _⟩

theorem slotStart_eq (s : State) (i : Nat) (b : DoseBand) (a : Nat) (bs : List Byte) (hb : (s.dev.dp i).band = some b) (hf : b.full = true) (hw : (s.dev.rw i).band = none)
    (hr : s.ringDesc (rq i) = some (a, bs)) (hp : s.dram.poisoned a 32 = false) (hs : s.dev.startSpace i ≤ s.dev.spaceFrom i (s.dev.nextStart i)) :
    ((s.slotStart i).dev.dp i).band = none ∧ ((s.slotStart i).dev.rw i).band = some b ∧ ((s.slotStart i).dev.rw i).sseq = ((s.dev.rw i).sseq + 1) % 2 ^ 32 ∧
    ((s.slotStart i).dev.rw i).slots = (s.dev.rw i).slots ++ [s.dev.newSlot i b (s.dev.nextStart i)] := by
  unfold State.slotStart
  rw [hb, hr]
  dsimp only
  rw [if_neg (by rw [hf, hw]; simpa using hs), if_neg (by rw [hp]; simp)]
  generalize hx : s.dev.newSlot i b (s.dev.nextStart i) = x
  generalize hdd : Dev.setWrite _ i (s.dev.nextStart i) _ = d1
  have hdp : (d1.dp i).band = none ∧ (d1.rw i).band = some b ∧ (d1.rw i).sseq = ((s.dev.rw i).sseq + 1) % 2 ^ 32 ∧ (d1.rw i).slots = (s.dev.rw i).slots ++ [x] := by
    rw [← hdd]
    obtain ⟨o, ho⟩ := setWrite_rw (Dev.wr (Dev.wr _ .RW_XIN_BYTES 0 i) .RW_XOUT_BYTES _ i) i (s.dev.nextStart i) _
    rw [setWrite_dp, ho, wr_dp, wr_dp, updRw_dp, updDp_dp, wr_rw, wr_rw, updRw_rw]
    exact ⟨rfl, rfl, rfl, rfl⟩
  generalize (padWord (x.header i)).take _ = bytes
  have hslot := State.slotWrite_only 6 { s with dev := d1 } i (s.dev.nextStart i).1 (s.dev.nextStart i).2 false bytes
  generalize State.slotWrite 6 { s with dev := d1 } i (s.dev.nextStart i).1 (s.dev.nextStart i).2 false bytes = w at hslot ⊢
  obtain ⟨w, bad⟩ := w
  unfold State.slotBegun
  dsimp only at hslot ⊢
  have hen := State.energyRecord_only w i x
  generalize w.energyRecord i x = v at hen ⊢
  have h1 : v.dev.dose = d1.dose := (hen.dev.parts .dose rfl).trans (hslot.dev.parts .dose rfl)
  have h2 : v.dev.rwy = d1.rwy := (hen.dev.parts .rwy rfl).trans (hslot.dev.parts .rwy rfl)
  cases bad with
  | none => dsimp only; rw [dp_congr h1, rw_congr h2]; exact hdp
  | some p =>
    dsimp only
    rw [dp_congr (((State.pageBad_only v i x.desc p).dev.parts .dose rfl).trans h1), rw_congr (((State.pageBad_only v i x.desc p).dev.parts .rwy rfl).trans h2)]
    exact hdp

theorem setWrite_slots (d : Dev) (i : Nat) (start : Nat × Nat) (n : Nat) : ((d.setWrite i start n).rw i).slots = (d.rw i).slots := by
  obtain ⟨o, ho⟩ := setWrite_rw d i start n
  rw [ho]

theorem slotComplete_eq (s : State) (i : Nat) (x : RSlot) (bytes : List Byte) (hx : ∃ y ∈ (s.dev.rw i).slots, y.sseq = x.sseq) :
    let t := s.slotComplete i x bytes
    (t.dev.rw i).band = none ∧ t.dev.rd .DMA_RHEAD_IDX (rq i) = (x.desc + 1) % s.dev.ringSize (rq i) % 2 ^ 19 ∧
      ∃ y ∈ (t.dev.rw i).slots, y = { x with st := .ready, stream := none } := by
  unfold State.slotComplete
  dsimp only
  generalize hw : State.dramWrite _ _ _ = u
  have hu : s.dev.rwy = u.dev.rwy ∧ ∀ r, u.dev.rd .DMA_RCFG_SIZE r = s.dev.rd .DMA_RCFG_SIZE r := by
    rw [← hw]
    exact ⟨((State.dramWrite_only _ _ _ _).dev.parts .rwy rfl).symm, fun r => (State.dramWrite_only _ _ _ _).dev.rd _ _ _ rfl⟩
  clear hw
  have hrw : u.dev.rw i = s.dev.rw i := rw_congr hu.1.symm i
  generalize hsw : u.dev.setWrite i _ _ = v
  have hv : (v.rw i).slots = (s.dev.rw i).slots ∧ ∀ r, v.rd .DMA_RCFG_SIZE r = s.dev.rd .DMA_RCFG_SIZE r := by
    rw [← hsw]
    exact ⟨(setWrite_slots _ _ _ _).trans (congrArg _ hrw), fun r => ((Dev.setWrite_only _ _ _ _).rd _ _ _ rfl).trans (hu.2 r)⟩
  clear hsw
  generalize hg : ((v.putSlot i _).updRw i _) = g
  have hgr : (g.rw i).slots = (s.dev.rw i).slots.map (fun y => if y.sseq = x.sseq then { x with st := .ready, stream := none } else y) ∧ (g.rw i).band = none := by
    rw [← hg]
    unfold Dev.putSlot
    rw [updRw_rw, updRw_rw, ← hv.1]
    exact ⟨rfl, rfl⟩
  have hgs : g.rd .DMA_RCFG_SIZE (rq i) = s.dev.rd .DMA_RCFG_SIZE (rq i) := by
    rw [← hg]
    unfold Dev.putSlot
    rw [updRw_rd, updRw_rd, hv.2]
  clear hg
  generalize hh : Dev.countRatio _ _ _ = h
  have hhr : h.rwy = g.rwy := by rw [← hh]; exact (Dev.countRatio_only _ _ _).parts .rwy rfl
  have hhs : h.rd .DMA_RCFG_SIZE (rq i) = g.rd .DMA_RCFG_SIZE (rq i) := by
    rw [← hh, (Dev.countRatio_only _ _ _).rd _ _ _ rfl, Dev.rd_wr, if_neg (by simp), Dev.rd_wr, if_neg (by simp)]
  have hhz : h.ringSize (rq i) = s.dev.ringSize (rq i) := by unfold Dev.ringSize; rw [hhs, hgs]
  have hf : ∀ (d : Dev) b, ((d.ringIrq (rq i) b).refreshLead).rwy = d.rwy ∧ ((d.ringIrq (rq i) b).refreshLead).rd .DMA_RHEAD_IDX (rq i) = d.rd .DMA_RHEAD_IDX (rq i) := fun d b =>
    ⟨((Dev.refreshLead_only _).parts .rwy rfl).trans ((Dev.ringIrq_only _ _ _).parts .rwy rfl), ((Dev.refreshLead_only _).rd _ _ _ rfl).trans ((Dev.ringIrq_only _ _ _).rd _ _ _ rfl)⟩
  rw [rw_congr (hf _ _).1, (hf _ _).2, wr_rw, rw_congr hhr, hgr.1, hgr.2, hhz]
  refine ⟨rfl, ?_, ?_⟩
  · rw [Dev.rd_wr, if_pos ⟨rfl, rfl, rfl⟩]; rfl
  · obtain ⟨y, hy, hys⟩ := hx
    exact ⟨_, List.mem_map.2 ⟨y, hy, if_pos hys⟩, rfl⟩

theorem find_mem {α : Type} {l : List α} {p : α → Bool} {x : α} (h : l.find? p = some x) : x ∈ l := List.mem_of_find?_eq_some h

theorem retire_eq (s : State) (i : Nat) (x : RSlot) :
    let l := dropRetired ((s.dev.rw i).slots.map (fun y => if y.sseq = x.sseq then { x with st := .retired } else y)) (s.dev.rw i).readSeq
    ((s.retire i x).dev.rw i).slots = l.1 ∧ ((s.retire i x).dev.rw i).readSeq = l.2 ∧ ∀ e, s.dev.evPending e → (s.retire i x).dev.evPending e := by
  have he := State.retire_only s i x
  have h : ∀ (d : Dev) (g : Rwy → Rwy) (v : Nat), ((d.updRw i g).wr .RW_PL_RD_IDX v i).rw i = g (d.rw i) := fun d g v => by rw [wr_rw, updRw_rw]
  have hp : ∀ d : Dev, (d.putSlot i { x with st := .retired }).rw i =
      { d.rw i with slots := (d.rw i).slots.map (fun y => if y.sseq = x.sseq then { x with st := .retired } else y) } := fun d => by
    unfold Dev.putSlot; rw [updRw_rw]
  have key : (s.retire i x).dev.rw i = (fun r : Rwy => { r with slots := (dropRetired r.slots r.readSeq).1, readSeq := (dropRetired r.slots r.readSeq).2 })
      { s.dev.rw i with slots := (s.dev.rw i).slots.map (fun y => if y.sseq = x.sseq then { x with st := .retired } else y) } := by
    unfold State.retire
    dsimp only
    rw [h, hp, rw_congr ((State.dramWrite_only s _ _ false).dev.parts .rwy rfl)]
  refine ⟨?_, ?_, fun e h => he.dev.evPending e rfl h⟩
  · rw [key]
  · rw [key]

/-! ### Verification and Abacus of the Reckoners -/

theorem ringIrq_head (d : Dev) (r : Nat) (b : Bool) (k : Nat) : (d.ringIrq r b).rd .DMA_RHEAD_IDX k = d.rd .DMA_RHEAD_IDX k := (Dev.ringIrq_only _ _ _).rd _ _ _ rfl

theorem descDone_eq (s : State) (r a : Nat) (bs spec12 : List Byte) (st tr mv cr : Nat) :
    (s.descDone r a bs spec12 st tr mv cr).dev.rd .DMA_RHEAD_IDX r = (s.dev.rd .DMA_RHEAD_IDX r + 1) % s.dev.ringSize r % 2 ^ 19 ∧
    (s.dev.spanOk a 4 = true → bitOf (leVal (memReadAll (s.descDone r a bs spec12 st tr mv cr).dram.mem a 4)) 31 = false) := by
  unfold State.descDone
  dsimp only
  have h1 := State.dramWrite_only s (a + 12) (spec12 ++ le 4 (doneWord st tr mv) ++ le 4 cr) false
  generalize State.dramWrite s (a + 12) _ = u at h1 ⊢
  have h2 := State.dramWrite_only u a (le 4 (withoutBit (fieldAt bs 0 4) 31)) false
  constructor
  · rw [ringIrq_head, Dev.rd_wr, if_pos ⟨rfl, rfl, rfl⟩]
    unfold Dev.ringSize
    rw [h2.dev.rd _ _ _ rfl, h1.dev.rd _ _ _ rfl, h2.dev.rd _ _ _ rfl, h1.dev.rd _ _ _ rfl]
    rfl
  · intro hs
    have hs' : u.dev.spanOk a 4 = true := by
      unfold Dev.spanOk Dev.addrOk Dev.isA32 at hs ⊢
      rw [show u.dev.variant = s.dev.variant from h1.dev.parts .variant rfl]; exact hs
    have := dramWrite_reads u a (le 4 (withoutBit (fieldAt bs 0 4) 31)) false (by simp [le]) (by rw [le_length]; exact hs')
    rw [le_length] at this
    rw [this, leVal_le]
    unfold bitOf
    rw [show (256 : Nat) ^ 4 = 2 ^ 32 from rfl, Nat.testBit_mod_two_pow, testBit_withoutBit]
    simp

theorem bufClose_eq {α : Type} (s : State) (r : Nat) (ring : BufRing α) (enc : Nat → α → List Byte) (head : Nat → List Byte) (put : BufRing α → Dev → Dev)
    (a : Nat) (bs : List Byte) (cap : Nat) (caps : List Nat) (h1 : s.ringDesc r = some (a, bs)) (h2 : ring.caps = cap :: caps) (h3 : 0 < cap) (h4 : ring.inBufs ≠ [])
    (h5 : s.dram.poisoned a 32 = false) (h6 : s.bufferOk r (descBuf bs) (descLen bs) = true) :
    ∃ (b : BufRing α) (u : State), s.closeBuf r ring enc head put = { u with dev := put b u.dev } ∧ b.seq = (ring.seq + min cap ring.inBufs.length) % 2 ^ 32 ∧ b.caps = caps ∧
      b.tries = 0 ∧ b.bad = false ∧ u.dev.rd .DMA_RHEAD_IDX r = (s.dev.rd .DMA_RHEAD_IDX r + 1) % s.dev.ringSize r % 2 ^ 19 := by
  unfold State.closeBuf
  rw [h1, h2]
  dsimp only
  rw [if_neg, if_neg (by rw [h5, h6]; simp)]
  · have hw := State.dramWrite_only s (descBuf bs) ((((ring.inBufs.take cap).zip (List.range (ring.inBufs.take cap).length)).map (fun x => enc (ring.seq + x.2) x.1.2)).flatten) ring.bad
    refine ⟨_, _, rfl, ?_, ?_, ?_, ?_, ?_⟩
    · unfold BufRing.refill; dsimp only; rw [List.length_take]
    · rfl
    · rfl
    · rfl
    · refine (descDone_eq _ _ _ _ _ _ _ _ _).1.trans ?_
      unfold Dev.ringSize
      rw [hw.dev.rd _ _ _ rfl, hw.dev.rd _ _ _ rfl]
  · rw [List.length_take]
    have : ring.inBufs.length ≠ 0 := by simpa using h4
    omega

theorem halt_set (d : Dev) (r : Nat) (hr : r < 48) : (d.haltRing r).halted r = true ∧ (d.haltRing r).evPending Ev.DMA_HALT := by
  unfold Dev.haltRing
  dsimp only
  refine ⟨?_, Dev.raise_pending _ _ _ (by decide)⟩
  unfold Dev.halted
  rw [(Dev.raise_only _ _ _).rd _ _ _ rfl, (Dev.raise_only _ _ _).rd _ _ _ rfl]
  by_cases h : r < 32
  · rw [if_pos h, if_pos h]
    unfold Dev.setBit
    rw [Dev.rd_wr, if_pos ⟨rfl, rfl, rfl⟩]
    exact bitOf_withBit_mod _ _ _ h
  · rw [if_neg h, if_neg h]
    unfold Dev.setBit
    rw [Dev.rd_wr, if_pos ⟨rfl, rfl, rfl⟩]
    exact bitOf_withBit_mod _ _ _ (show r - 32 < 16 by omega)

theorem fail_eq (s : State) (r a : Nat) (hr : r < 48) : (s.descFail r a).dev.halted r = true ∧ (s.descFail r a).dev.evPending Ev.DMA_HALT ∧
    ∀ k, (s.descFail r a).dev.rd .DMA_RHEAD_IDX k = s.dev.rd .DMA_RHEAD_IDX k := by
  have hk := fun k => (State.descFail_only s r a).dev.rd .DMA_RHEAD_IDX k 0 rfl
  have h : ∃ d : Dev, (s.descFail r a).dev = d.haltRing r := ⟨_, rfl⟩
  obtain ⟨d, h⟩ := h
  refine ⟨?_, ?_, hk⟩
  · rw [h]; exact (halt_set _ r hr).1
  · rw [h]; exact (halt_set _ r hr).2

theorem clearBits (x v w k : Nat) (hv : v < 2 ^ w) (hk : k < w) (e : Nat) (he : e = 2 ^ w - 1) : bitOf ((x &&& (e - v)) % 2 ^ w) k = (bitOf x k && !bitOf v k) := by
  unfold bitOf
  rw [Nat.testBit_mod_two_pow, Nat.testBit_and, he, show 2 ^ w - 1 - v = 2 ^ w - (v + 1) by omega, Nat.testBit_two_pow_sub_succ hv]
  simp [hk]

/-! ### Web encoder and firing -/

def Fk (d e : Dev) : Prop := e.fire.cnt = d.fire.cnt ∧ e.fire.travel = d.fire.travel

theorem Fk.refl (d : Dev) : Fk d d := ⟨rfl, rfl⟩

theorem Fk.trans {d e f : Dev} (h : Fk d e) (h' : Fk e f) : Fk d f := ⟨h'.1.trans h.1, h'.2.trans h.2⟩

theorem Fk.of {c r : Nat} {d e : Dev} (h : Dev.Only c r d e) (hc : c.testBit Part.fire.ctorIdx = false) : Fk d e := by
  have := h.parts .fire hc
  unfold Fk; rw [show e.fire = d.fire from this]; exact ⟨rfl, rfl⟩

theorem Fk.fold {α : Type} (l : List α) (f : Dev → α → Dev) (h : ∀ d x, Fk d (f d x)) (d : Dev) : Fk d (d.forEach l f) := by
  unfold Dev.forEach
  induction l generalizing d with
  | nil => exact Fk.refl d
  | cons a t ih => exact (h d a).trans (ih _)

theorem withdraw_fk (d : Dev) (l : SentLine) : Fk d (d.withdraw l) := by
  unfold Dev.withdraw
  exact Fk.trans (Fk.fold _ (fun d h => d.sendFire l.jn l.line h true true) (fun d x => Fk.of (Dev.sendFire_only _ _ _ _ _ _) rfl) d) ⟨rfl, rfl⟩

theorem amendLate_fk (d : Dev) (l : SentLine) : Fk d (d.amendLate l) := by
  unfold Dev.amendLate
  dsimp only
  refine Fk.trans ?_ (Fk.of (Dev.spoilBarLine_only _ _ _ _ _) rfl)
  refine Fk.trans ?_ (Fk.of (Dev.raise_only _ _ _) rfl)
  exact ⟨rfl, rfl⟩

theorem amend_fk (d : Dev) (l : SentLine) (ts : List Nat) (c : Int) : Fk d (d.amend l ts c) := by
  unfold Dev.amend
  dsimp only
  refine Fk.trans ?_ (Fk.of (Dev.raise_only _ _ _) rfl)
  have h : ∀ e : Dev, Fk e (e.inc .FIRE_AMCNT_AMEND) := fun e => ⟨rfl, rfl⟩
  refine Fk.trans ?_ (h _)
  refine Fk.trans ?_ (Fk.of (Dev.tallyTimes_only _ _) rfl)
  exact Fk.trans (Fk.fold _ (fun d h => d.sendFire l.jn l.line h true false) (fun d x => Fk.of (Dev.sendFire_only _ _ _ _ _ _) rfl) d) ⟨rfl, rfl⟩

theorem wol_fk (d : Dev) (l : SentLine) : Fk d (d.withdrawOrLate l) := by
  unfold Dev.withdrawOrLate; split
  · exact withdraw_fk _ _
  · exact amendLate_fk _ _

theorem predictLine_fk (d : Dev) (l : SentLine) : Fk d (d.predictLine l) := by
  unfold Dev.predictLine
  split
  · exact Fk.refl _
  · split
    · exact wol_fk _ _
    · dsimp only
      split
      · exact Fk.refl _
      · split
        · exact amend_fk _ _ _ _
        · exact amendLate_fk _ _

theorem retireSent_fk (d : Dev) : Fk d d.retireSent := ⟨rfl, rfl⟩

theorem repredict_fk (d : Dev) : Fk d d.repredict := by
  unfold Dev.repredict
  dsimp only
  have h : Fk d d.retireSent.refreshSpeed := (retireSent_fk d).trans (Fk.of (Dev.refreshSpeed_only _) (Nat.zero_testBit _))
  split
  · exact h.trans (Fk.fold _ _ predictLine_fk _)
  · exact h

theorem loseTimes_fk (d : Dev) : Fk d d.loseTimes := by
  unfold Dev.loseTimes
  exact (retireSent_fk d).trans (Fk.fold _ _ wol_fk _)

theorem stopFiring_fk (d : Dev) : Fk d d.stopFiring := by
  unfold Dev.stopFiring
  refine (retireSent_fk d).trans (Fk.fold _ _ (fun d l => ?_) _)
  split
  · exact withdraw_fk _ _
  · exact Fk.refl _

theorem spoilInFlight_fk (d : Dev) (r : SpReason) (j : Option Nat) : Fk d (d.spoilInFlight r j) := by
  unfold Dev.spoilInFlight
  exact (retireSent_fk d).trans (Fk.fold _ _ (fun d p => Fk.of (Dev.spoilWhole_only _ _ _ _ _ _) rfl) _)

theorem reversal_fk (d : Dev) : Fk d d.reversal := by
  unfold Dev.reversal
  dsimp only
  refine Fk.trans ?_ (Fk.of (Dev.holdCause_only _ _) rfl)
  refine Fk.trans ?_ (Fk.of (Dev.requestStop_only _ _) rfl)
  have h : Fk d ((d.wr .FIRE_STAT_REV 1).raise Ev.WEB_REVERSAL d.cAndF) := Fk.trans (e := d.wr .FIRE_STAT_REV 1) ⟨rfl, rfl⟩ (Fk.of (Dev.raise_only _ _ _) rfl)
  split
  · exact h.trans ((stopFiring_fk _).trans (spoilInFlight_fk _ _ _))
  · exact h

theorem followCount_fk (d : Dev) : Fk d d.followCount := by
  unfold Dev.followCount
  dsimp only
  have h : Fk d (if 0 < pdiff d.fire.cnt d.fire.pos then { d with fire := { d.fire with pos := d.fire.cnt } } else d) := by split <;> exact ⟨rfl, rfl⟩
  generalize (if 0 < pdiff d.fire.cnt d.fire.pos then { d with fire := { d.fire with pos := d.fire.cnt } } else d) = e at h ⊢
  split
  · exact h.trans ⟨rfl, rfl⟩
  · split
    · exact h
    · exact h.trans (Fk.trans (e := { e with fire := { e.fire with disarmed := true } }) ⟨rfl, rfl⟩ (reversal_fk _))

theorem measure_fk (d : Dev) (b : Bool) : Fk d (d.measure b) := by
  unfold Dev.measure
  dsimp only
  refine Fk.trans ?_ (Fk.of (Dev.refreshSpeed_only _) (Nat.zero_testBit _))
  exact ⟨rfl, rfl⟩

theorem count_fk (d : Dev) (b : Bool) : (d.count b).fire.cnt = (if b then d.fire.cnt - 1 else d.fire.cnt + 1) ∧ (d.count b).fire.travel = d.fire.travel + 1 := by
  unfold Dev.count
  dsimp only
  generalize hg : Dev.mk _ _ _ _ _ _ _ _ _ _ _ _ _ _ _ _ _ _ _ _ _ _ _ _ _ _ _ _ _ _ _ _ _ _ _ _ _ _ _ _ _ _ _ = g
  have h0 : g.fire.cnt = (if b then d.fire.cnt - 1 else d.fire.cnt + 1) ∧ g.fire.travel = d.fire.travel + 1 := by rw [← hg]; exact ⟨rfl, rfl⟩
  have h1 : Fk g (if (d.spd = 2 && (g.measure b).spd = 3) = true then (g.measure b).loseTimes else g.measure b) := by
    split
    · exact (measure_fk _ _).trans (loseTimes_fk _)
    · exact measure_fk _ _
  have h2 := h1.trans ((followCount_fk _).trans (repredict_fk _))
  exact ⟨h2.1.trans h0.1, h2.2.trans h0.2⟩

theorem slip_keep (d : Dev) (b : Bool) (f : Fld) (i j : Nat) (h : f ∉ [Fld.AON_STATE_STOPREQ, .AON_EVPEND_PEND, .AON_EVLOST_N, .FIRE_STAT_SLIPSTOP, .SP_STAT_OVF, .SP_STAT_LATE, .SP_PTAB_USED, .SP_PTAB_HIGH, .SP_GOOD_N, .SP_SPOILED_N, .SP_RECLOST_N, .SP_RCNT_N]) :
    ((d.spoilSlip.goodIndex).slipWindow b).rd f i j = d.rd f i j := by
  refine ((Dev.slipWindow_only _ b).keep [Fld.AON_STATE_STOPREQ, .AON_EVPEND_PEND, .AON_EVLOST_N, .FIRE_STAT_SLIPSTOP, .SP_STAT_OVF, .SP_STAT_LATE, .SP_PTAB_USED, .SP_PTAB_HIGH, .SP_GOOD_N, .SP_SPOILED_N, .SP_RECLOST_N, .SP_RCNT_N] rfl h _ _).trans ?_
  exact (Dev.spoilSlip_only d).keep [Fld.AON_STATE_STOPREQ, .AON_EVPEND_PEND, .AON_EVLOST_N, .FIRE_STAT_SLIPSTOP, .SP_STAT_OVF, .SP_STAT_LATE, .SP_PTAB_USED, .SP_PTAB_HIGH, .SP_GOOD_N, .SP_SPOILED_N, .SP_RECLOST_N, .SP_RCNT_N] rfl h _ _

theorem illegal_eq (d : Dev) : d.illegalCount.fire.cnt = d.fire.cnt ∧ d.illegalCount.rd .FIRE_STAT_ILLEGAL = 1 ∧
      d.illegalCount.rd .FIRE_SLIPCNT_ILLEGAL = min (d.rd .FIRE_SLIPCNT_ILLEGAL + 1) (2 ^ (fldSpec .FIRE_SLIPCNT_ILLEGAL).width - 1) ∧
      d.illegalCount.rd .FIRE_SLIPSUM_SUM = min (d.rd .FIRE_SLIPSUM_SUM + 2) (2 ^ (fldSpec .FIRE_SLIPSUM_SUM).width - 1) ∧ d.illegalCount.evPending Ev.ENC_ILLEGAL := by
  unfold Dev.illegalCount
  dsimp only
  refine ⟨?_, ?_, ?_, ?_, Dev.raise_pending _ _ _ (by decide)⟩
  · rw [show (Dev.raise _ _ _).fire = _ from (Dev.raise_only _ _ _).parts .fire rfl]; rfl
  · rw [(Dev.raise_only _ _ _).rd _ _ _ rfl]; exact rd_wr_self _ _ _ _ _ (by decide)
  · rw [(Dev.raise_only _ _ _).rd _ _ _ rfl, Dev.rd_wr, if_neg (by simp), inc_rd]
    unfold Dev.addSat
    rw [Dev.rd_wr, if_neg (by simp)]
  · rw [(Dev.raise_only _ _ _).rd _ _ _ rfl, Dev.rd_wr, if_neg (by simp)]
    unfold Dev.inc Dev.addSat
    rw [Dev.rd_wr, if_neg (by simp)]
    refine (rd_wr_self _ _ _ _ _ ?_)
    have : (fldSpec .FIRE_SLIPSUM_SUM).width = 32 := rfl
    rw [this]; omega

theorem enc_0 (d : Dev) (a b : Bool) (h : (quadIndex a b + 4 - quadIndex d.fire.a d.fire.b) % 4 = 0) : d.encoder a b = { d with fire := { d.fire with a := a, b := b } } := by
  unfold Dev.encoder; dsimp only; rw [h]; rfl

theorem enc_2 (d : Dev) (a b : Bool) (h : (quadIndex a b + 4 - quadIndex d.fire.a d.fire.b) % 4 = 2) : d.encoder a b = Dev.illegalCount { d with fire := { d.fire with a := a, b := b } } := by
  unfold Dev.encoder; dsimp only; rw [h]; rfl

theorem enc_1 (d : Dev) (a b : Bool) (n : Nat) (h : (quadIndex a b + 4 - quadIndex d.fire.a d.fire.b) % 4 = n) (hn : n = 1 ∨ n = 3) :
    ∃ e : Dev, e.fire.cnt = d.fire.cnt ∧ e.fire.travel = d.fire.travel ∧ d.encoder a b = e.count (decide (n = 3) != d.flag .FIRE_CTL_DIR) := by
  refine ⟨{ d with fire := { d.fire with a := a, b := b } }, rfl, rfl, ?_⟩
  unfold Dev.encoder; dsimp only; rw [h]
  rcases hn with rfl | rfl <;> rfl

theorem rd_fire (d : Dev) (x : Fire) (f : Fld) (i j : Nat) : Dev.rd { d with fire := x } f i j = d.rd f i j := rfl

theorem fifoGone (d : Dev) (l : List Nat) (jn line : Nat) : ∀ x ∈ l, ∀ f ∈ ((d.forEach l (fun d s =>
    d.updLane s (fun l => { l with fifo := l.fifo.filter (fun f => !(decide (f.jn = jn) && decide (f.line = line))) }))).lane x).fifo, ¬(f.jn = jn ∧ f.line = line) := by
  refine forEach_each (β := Nat) l _ (fun d x => ∀ f ∈ (d.lane x).fifo, ¬(f.jn = jn ∧ f.line = line)) (fun d x f hf => ?_) (fun d x y h f hf => ?_) d
  · unfold Dev.lane Dev.updLane at hf
    dsimp only at hf
    rw [Tab.at_upd_same] at hf
    simp at hf; exact fun h => hf.2.elim (· h.1) (· h.2)
  · by_cases h' : y = x
    · subst h'
      unfold Dev.lane Dev.updLane at hf
      dsimp only at hf
      rw [Tab.at_upd_same] at hf
      simp at hf; exact fun h => hf.2.elim (· h.1) (· h.2)
    · unfold Dev.lane Dev.updLane at hf
      dsimp only at hf
      rw [Tab.at_upd_ne _ _ h'] at hf
      exact h f hf

theorem slotsOf_congr {d e : Dev} (h : e.boot = d.boot) (n : Nat) : e.slotsOf n = d.slotsOf n := by unfold Dev.slotsOf Dev.bars; rw [h]

theorem pastLine_fifo (d : Dev) (l : LineId) (a : Bool) : ∀ x ∈ d.slotsOf l.bar, ∀ f ∈ (((d.pastLine l a).freeEntries).lane x).fifo, ¬(f.jn = l.jn ∧ f.line = l.line) := by
  intro x hx f hf
  rw [lane_congr ((Dev.freeEntries_only _).parts .lanes rfl)] at hf
  unfold Dev.pastLine at hf
  dsimp only at hf
  have := fifoGone d (d.slotsOf l.bar) l.jn l.line x hx f
  refine this ?_
  generalize Dev.forEach d (d.slotsOf l.bar) _ = e at hf
  split at hf
  · exact hf
  · rw [lane_congr ((Dev.moveDue_only _ _ _).parts .lanes rfl)] at hf; exact hf

theorem tallyEntry_tally (d : Dev) (l : LineId) (h : SentHead) (hs : d.lineSettled l = false) :
    ∃ e ∈ Tab.at (d.tallyEntry l h).integ.tally h.slot, e.jn = l.jn ∧ e.line = l.line := by
  unfold Dev.tallyEntry
  rw [if_neg (by simp [hs])]
  dsimp only
  rw [Tab.at_put_same]
  refine ⟨_, List.mem_append_right _ (List.mem_singleton.2 rfl), rfl, rfl⟩

theorem retire_one {d : Dev} {l : SentLine} (hs : d.fire.sent = [l]) (hf : d.hasFired l = false) (ha : l.heads.all (fun h => decide (h.tfire ≤ d.now)) = false) : d.retireSent = d := by
  unfold Dev.retireSent
  have h1 : d.fire.sent.filter (fun l => !l.heads.all (fun h => decide (h.tfire ≤ d.now))) = d.fire.sent := by rw [hs]; simp only [List.filter_cons, ha]; simp
  have h2 : d.fire.sent.filter d.hasFired = [] := by rw [hs]; simp only [List.filter_cons, hf]; simp
  dsimp only
  rw [h1, h2]
  simp only [List.any_nil, Bool.false_eq_true, if_false, List.map_id']

theorem one_line {s : State} {l : SentLine} {p : Pl} (hv : s.dev.valid = true) (hs : s.dev.fire.sent = [l]) (hla : l.late = false) (hp : s.dev.plOf l.jn = some p)
    (hx : s.dev.hasFired l = false) (hf : l.heads.all (fun h => decide (h.tfire ≤ s.dev.now)) = false) :
    s.dev.repredict = s.dev.refreshSpeed.predictLine l ∧ s.dev.refreshSpeed.plOf l.jn = some p ∧ (∀ ts, s.dev.refreshSpeed.canArrive l ts = s.dev.canArrive l ts) ∧
      ∀ a b, s.dev.refreshSpeed.overEighth a b = s.dev.overEighth a b := by
  have ho := Dev.refreshSpeed_only s.dev
  have hfi : s.dev.refreshSpeed.fire = s.dev.fire := ho.parts .fire (Nat.zero_testBit _)
  have hv' : s.dev.refreshSpeed.valid = true := by unfold Dev.valid at hv ⊢; rw [ho.rd _ _ _ rfl]; exact hv
  have hnow : s.dev.refreshSpeed.now = s.dev.now := by
    unfold Dev.now Dev.nowFrac Dev.flag
    rw [ho.rd _ _ _ rfl, show s.dev.refreshSpeed.tb = s.dev.tb from ho.parts .tb (Nat.zero_testBit _)]
  refine ⟨?_, ?_, fun ts => ?_, fun a b => ?_⟩
  · unfold Dev.repredict
    rw [retire_one hs hx hf]
    dsimp only
    rw [if_pos hv', hfi, hs]
    simp [hla, Dev.forEach]
  · rw [← hp]
    unfold Dev.plOf Dev.placements
    rw [hfi]
    have : s.dev.refreshSpeed.pl = s.dev.pl := by
      funext e
      unfold Dev.pl Dev.flag
      simp only [ho.rd .FIRE_PL_ORGH_VALID _ _ rfl, ho.rd .FIRE_PL_JN_JN _ _ rfl, ho.rd .FIRE_PL_ORGF_FRAC _ _ rfl, ho.rd .FIRE_PL_ORGL_INT _ _ rfl, ho.rd .FIRE_PL_ORGH_INT _ _ rfl,
        ho.rd .FIRE_PL_PITF_FRAC _ _ rfl, ho.rd .FIRE_PL_PITI_INT _ _ rfl, ho.rd .FIRE_PL_LINES_L _ _ rfl]
    rw [this]
  · unfold Dev.canArrive
    rw [hnow]
    simp only [ho.rd .ZL_LAT_LAT _ _ rfl]
  · unfold Dev.overEighth Dev.v20 Dev.vBound20 Dev.vRaw20
    rw [hfi, hnow, hv', hv]

/-! ### Lanes -/

theorem laneIs_of {d : Dev} {n : Nat} {s : LaneSt} (h : d.rd .ZL_STAT_STATE n = s.code) : d.laneIs n s = true := by unfold Dev.laneIs; simpa using h

theorem laneTo_st (d : Dev) (n : Nat) (s : LaneSt) : (d.laneTo n s).rd .ZL_STAT_STATE n = s.code := by
  unfold Dev.laneTo; exact rd_wr_self _ _ _ _ _ (by cases s <;> decide)

theorem laneTo_keep (d : Dev) (n : Nat) (s : LaneSt) (f : Fld) (i : Nat) (h : f ∉ [Fld.ZL_STAT_STATE, .ZL_STAT_LOSSES, .ZL_TIMED_LO_TIMED, .ZL_TIMED_HI_TIMED]) : (d.laneTo n s).rd f i = d.rd f i :=
  (Dev.laneTo_only d n s).keep [Fld.ZL_STAT_STATE, .ZL_STAT_LOSSES, .ZL_TIMED_LO_TIMED, .ZL_TIMED_HI_TIMED] (by decide) h i 0

theorem loseLane_st (d : Dev) (n c : Nat) (s : LaneSt) : (d.loseLane n c s).rd .ZL_STAT_STATE n = s.code ∧ (s = .locking ∨ s = .off → (d.loseLane n c s).rd .ZL_STAT_LOCK n = 0) := by
  unfold Dev.loseLane
  dsimp only
  generalize hd1 : (if (decide (s = LaneSt.locking) || decide (s = LaneSt.off)) = true then (d.laneTo n s).dropLock n else d.laneTo n s) = d1
  have h1 : d1.rd .ZL_STAT_STATE n = s.code ∧ (s = .locking ∨ s = .off → d1.rd .ZL_STAT_LOCK n = 0) := by
    rw [← hd1]; unfold Dev.dropLock; split
    · refine ⟨?_, fun _ => ?_⟩
      · rw [Dev.rd_wr, if_neg (by simp), Dev.rd_wr, if_neg (by simp)]; exact laneTo_st _ _ _
      · rw [Dev.rd_wr, if_neg (by simp)]; exact rd_wr_self _ _ _ _ _ (by decide)
    · next h => exact ⟨laneTo_st _ _ _, fun h' => absurd (by simpa using h') h⟩
  split
  · rw [(Dev.laneLoss_only _ _ _).rd _ _ _ rfl, (Dev.laneLoss_only _ _ _).rd _ _ _ rfl, updLane_rd, updLane_rd]; exact h1
  · rw [updLane_rd, updLane_rd]; exact h1

theorem enterUp_st (d : Dev) (n : Nat) (w : Bool) : (d.enterUp n w).rd .ZL_STAT_STATE n = 3 ∧ (d.enterUp n w).evPending Ev.ZL_UP := by
  unfold Dev.enterUp
  dsimp only
  generalize hd1 : Dev.raise _ Ev.ZL_UP _ = d1
  have h1 : d1.rd .ZL_STAT_STATE n = 3 ∧ d1.evPending Ev.ZL_UP := by
    rw [← hd1]
    refine ⟨?_, Dev.raise_pending _ _ _ (by decide)⟩
    rw [(Dev.raise_only _ _ _).rd _ _ _ rfl, updLane_rd, (Dev.sendIdle_only _ _ _).rd _ _ _ (Nat.zero_testBit _)]
    exact laneTo_st _ _ _
  clear hd1
  have h0 := Dev.setLinkInc_only d1
  have h2 : Dev.Only (partsMask [.lanes, .out]) 0 d1.setLinkInc ((d1.setLinkInc.sendBeacon n).sendMgmt n 1 0 []) :=
    Dev.Only.step (Dev.sendMgmt_only _ _ _ _ _) rfl rfl ((Dev.sendBeacon_only _ _).mono rfl rfl)
  generalize (d1.setLinkInc.sendBeacon n).sendMgmt n 1 0 [] = d2 at h2 ⊢
  have h3 : d2.rd .ZL_STAT_STATE n = 3 ∧ d2.evPending Ev.ZL_UP :=
    ⟨(h2.rd _ _ _ (Nat.zero_testBit _)).trans ((h0.rd _ _ _ rfl).trans h1.1), h2.evPending _ (Nat.zero_testBit _) (h0.evPending _ rfl h1.2)⟩
  split
  · exact ⟨((Dev.sendEeRead_only _ _ _ _).rd _ _ _ (Nat.zero_testBit _)).trans h3.1, (Dev.sendEeRead_only _ _ _ _).evPending _ (Nat.zero_testBit _) h3.2⟩
  · exact ⟨((Dev.readHead_only _ _).rd _ _ _ rfl).trans h3.1, (Dev.readHead_only _ _).evPending _ rfl h3.2⟩

theorem lpRequest_st (d : Dev) (n : Nat) (h1 : d.laneRuns n = true) (h2 : d.laneIdle n = true) :
    ((d.lpRequest n true false false).laneIs n .sleep = true ∧ (d.lpRequest n true false false).rd .ZL_LPCTL_CUR n = 1) ∧
    ((d.lpRequest n false true false).laneIs n .sleep = true ∧ (d.lpRequest n false true false).rd .ZL_LPCTL_CUR n = 2) ∧
    ((d.lpRequest n false false true).laneIs n .park = true ∧ (d.lpRequest n false false true).rd .ZL_LPCTL_CUR n = 4) := by
  unfold Dev.lpRequest
  rw [if_neg (by rw [h1, h2]; simp), if_neg (by simp), if_pos (by simp), if_neg (by rw [h1, h2]; simp), if_neg (by simp), if_pos (by simp), if_neg (by rw [h1, h2]; simp), if_pos rfl]
  unfold Dev.enterSleep Dev.enterPark
  refine ⟨⟨laneIs_of ?_, rd_wr_self _ _ _ _ _ (by decide)⟩, ⟨laneIs_of ?_, rd_wr_self _ _ _ _ _ (by decide)⟩, ⟨laneIs_of ?_, rd_wr_self _ _ _ _ _ (by decide)⟩⟩
  · rw [Dev.rd_wr, if_neg (by simp), Dev.rd_wr, if_neg (by simp), Dev.rd_wr, if_neg (by simp)]; exact laneTo_st _ _ _
  · rw [Dev.rd_wr, if_neg (by simp), Dev.rd_wr, if_neg (by simp), Dev.rd_wr, if_neg (by simp)]; exact laneTo_st _ _ _
  · rw [Dev.rd_wr, if_neg (by simp), Dev.rd_wr, if_neg (by simp)]; exact laneTo_st _ _ _

theorem leaveLoop_st (d : Dev) (n : Nat) : (d.leaveLoop n).rd .ZL_LOOP_MODE n = 0 ∧
    (d.rd .ZL_LOOP_MODE n ≠ 0 → (d.leaveLoop n).rd .ZL_STAT_LOOP n = 0 ∧
      (d.laneIs n .off = false → d.laneIs n .fault = false → (d.leaveLoop n).laneIs n .locking = true)) := by
  unfold Dev.leaveLoop
  dsimp only
  split
  · next h => exact ⟨h, fun h' => absurd h h'⟩
  · generalize hg : (if (decide (d.rd .ZL_LOOP_MODE n = 3) && d.laneRuns n) = true then d.sendMgmt n 3 0 [] else d) = g
    have hst : g.rd .ZL_STAT_STATE n = d.rd .ZL_STAT_STATE n := by
      rw [← hg]; split
      · exact (Dev.sendMgmt_only _ _ _ _ _).rd _ _ _ (Nat.zero_testBit _)
      · rfl
    have hx : ∀ x, ((g.wr .ZL_LOOP_MODE 0 n).wr .ZL_STAT_LOOP 0 n).laneIs n x = d.laneIs n x := by
      intro x; unfold Dev.laneIs; rw [Dev.rd_wr, if_neg (by simp), Dev.rd_wr, if_neg (by simp), hst]
    have h1 : ((g.wr .ZL_LOOP_MODE 0 n).wr .ZL_STAT_LOOP 0 n).rd .ZL_LOOP_MODE n = 0 := by
      rw [Dev.rd_wr, if_neg (by simp)]; exact rd_wr_self _ _ _ _ _ (by decide)
    have h2 : ((g.wr .ZL_LOOP_MODE 0 n).wr .ZL_STAT_LOOP 0 n).rd .ZL_STAT_LOOP n = 0 := rd_wr_self _ _ _ _ _ (by decide)
    clear hg
    split
    · next h =>
      rw [hx, hx] at h
      refine ⟨h1, fun _ => ⟨h2, fun h3 h4 => ?_⟩⟩
      rw [h3, h4] at h; cases h
    · refine ⟨?_, fun _ => ⟨?_, fun _ _ => laneIs_of (loseLane_st _ _ _ _).1⟩⟩
      · rw [(Dev.loseLane_only _ _ _ _).rd _ _ _ rfl]; exact h1
      · rw [(Dev.loseLane_only _ _ _ _).rd _ _ _ rfl]; exact h2

theorem enterLoop_st (d : Dev) (n mode : Nat) (hm : mode < 4) (h : mode ≠ 3 ∨ d.laneRuns n = true) :
    (d.enterLoop n mode).rd .ZL_STAT_LOOP n = 1 ∧ (d.enterLoop n mode).rd .ZL_LOOP_MODE n = mode := by
  unfold Dev.enterLoop
  dsimp only
  rw [if_neg (by rcases h with h | h <;> simp [h])]
  refine ⟨rd_wr_self _ _ _ _ _ (by decide), ?_⟩
  rw [Dev.rd_wr, if_neg (by simp)]; exact rd_wr_self _ _ _ _ _ hm

theorem zlSend_lane (d : Dev) (n : Nat) (f : ZlFrame) : (d.zlSend n f).lane n = { d.lane n with fseq := ((d.lane n).fseq + 1) % 256, sent := (⟨(d.lane n).fseq, f⟩ :: (d.lane n).sent).take 255 } := by
  unfold Dev.zlSend
  rw [updLane_lane]; rfl

theorem markFifo_lane (d : Dev) (n : Nat) (f : FifoLine) (g : FifoLine → FifoLine) : (d.markFifo n f g).lane n = { d.lane n with fifo := (d.lane n).fifo.map (fun x => if x.jn = f.jn ∧ x.line = f.line then g x else x) } := by
  unfold Dev.markFifo
  rw [updLane_lane]

theorem rxFrame_lane (d : Dev) (n : Nat) : (d.rxFrame n).lane n = { d.lane n with rxGood := (d.lane n).rxSeq, rxSeq := ((d.lane n).rxSeq + 1) % 256, asked := false } := by
  unfold Dev.rxFrame
  rw [updLane_lane]

theorem echoFail_late (d : Dev) (n : Nat) (e : TallyEnt) (r : Nat) (c : Fld) (p : SpReason) (hc : c ∈ [Fld.ZL_ECHO_MISMATCH, .ZL_ECHO_NODATA]) : (d.echoFail n e r c p).rd .ZL_ECHO_LATE n = d.rd .ZL_ECHO_LATE n := by
  unfold Dev.echoFail
  rw [(Dev.spoilHeadLine_only _ _ _ _ _ _).rd _ _ _ rfl, (Dev.raise_only _ _ _).rd _ _ _ rfl]
  unfold Dev.inc Dev.addSat
  rw [Dev.rd_wr, if_neg]
  simp at hc ⊢; rcases hc with rfl | rfl <;> decide

theorem echoLate (g : Dev) (n : Nat) (e : TallyEnt) (f : EchoFrame) : (g.settleEcho n e f).rd .ZL_ECHO_LATE n =
    (if f.entryPoisoned = false ∧ f.result.toNat = 3 then min (g.rd .ZL_ECHO_LATE n + 1) 255 else g.rd .ZL_ECHO_LATE n) := by
  unfold Dev.settleEcho
  dsimp only
  cases hp : f.entryPoisoned
  · simp only [Bool.false_eq_true, if_false, true_and]
    generalize f.result.toNat = r
    split
    · refine Eq.trans ?_ (if_neg (by decide)).symm
      split
      · exact (Dev.confirm_only _ _ _).rd _ _ _ rfl
      · exact echoFail_late _ _ _ _ _ _ (by decide)
    · refine Eq.trans ?_ (if_neg (by decide)).symm; exact echoFail_late _ _ _ _ _ _ (by decide)
    · refine Eq.trans ?_ (if_neg (by decide)).symm; exact echoFail_late _ _ _ _ _ _ (by decide)
    · refine Eq.trans ?_ (if_pos rfl).symm
      unfold Dev.echoFail
      rw [(Dev.spoilHeadLine_only _ _ _ _ _ _).rd _ _ _ rfl, (Dev.raise_only _ _ _).rd _ _ _ rfl, inc_rd]
      rfl
    · refine Eq.trans ?_ (if_neg (by assumption)).symm; exact echoFail_late _ _ _ _ _ _ (by decide)
  · simp only [if_true]
    rw [if_neg (by simp), (Dev.spoilHeadLine_only _ _ _ _ _ _).rd _ _ _ rfl]

/-! ### Lane links -/

theorem tallyPut_free {d : Dev} {c : Nat} (f : U32 → U32) (h : d.tallyOwned c = false) :
    (d.tallyPut c f).rd .TALLY_VAL_STATE c = (f (BitVec.ofNat 32 (d.rd .TALLY_VAL_STATE c))).toNat := by
  unfold Dev.tallyPut; rw [if_neg (by rw [h]; simp)]; exact rd_wr_self _ _ _ _ _ (BitVec.isLt _)

theorem tallyPut_own {d : Dev} {c : Nat} (f : U32 → U32) (h : d.tallyOwned c = true) :
    (d.tallyPut c f).rd .SP_STAT_TOWN = 1 ∧ ∀ k, (d.tallyPut c f).rd .TALLY_VAL_STATE k = d.rd .TALLY_VAL_STATE k := by
  unfold Dev.tallyPut; rw [if_pos h]
  refine ⟨((Dev.raise_only _ _ _).rd _ _ _ rfl).trans (rd_wr_self _ _ _ _ _ (by decide)), fun k => ((Dev.raise_only _ _ _).rd _ _ _ rfl).trans ?_⟩
  rw [Dev.rd_wr, if_neg (by simp)]

theorem foldV (d : Dev) (v : Nat) : (d.wr .TALLY_FOLD_V v 2).tallyOwned = d.tallyOwned ∧ (d.wr .TALLY_FOLD_V v 2).tallyCtx = d.rd .TALLY_CTX_CTX ∧
    (d.wr .TALLY_FOLD_V v 2).rd .TALLY_FOLD_V 0 = d.rd .TALLY_FOLD_V 0 ∧ (d.wr .TALLY_FOLD_V v 2).rd .TALLY_FOLD_V 1 = d.rd .TALLY_FOLD_V 1 ∧
    ∀ k, (d.wr .TALLY_FOLD_V v 2).rd .TALLY_VAL_STATE k = d.rd .TALLY_VAL_STATE k := by
  refine ⟨?_, ?_, ?_, ?_, fun k => ?_⟩
  · funext c
    unfold Dev.tallyOwned Dev.flag Dev.st
    rw [Dev.rd_wr, if_neg (by simp), Dev.rd_wr, if_neg (by simp)]
  · unfold Dev.tallyCtx; rw [Dev.rd_wr, if_neg (by simp)]
  all_goals rw [Dev.rd_wr, if_neg (by simp)]

theorem prod_upd {d : Dev} {jn pn : Nat} {p : Prod} (h : d.prod jn pn = some p) (f : Prod → Prod) (hf : (f p).jn = p.jn ∧ (f p).pn = p.pn)
    (hf' : ∀ q, (f q).jn = q.jn ∧ (f q).pn = q.pn) : (d.updProd jn pn f).prod jn pn = some (f p) := by
  unfold Dev.updProd Dev.prod at *
  dsimp only
  rw [List.find?_map]
  have hp := List.find?_some h
  simp only [Bool.and_eq_true, decide_eq_true_eq] at hp
  have hc : ((fun p : Prod => decide (p.jn = jn) && decide (p.pn = pn)) ∘ fun p => if p.jn = jn ∧ p.pn = pn then f p else p) =
      fun p : Prod => decide (p.jn = jn) && decide (p.pn = pn) := by
    funext q
    simp only [Function.comp]
    split
    · rw [(hf' q).1, (hf' q).2]
    · rfl
  rw [hc, h, Option.map_some, if_pos hp]

theorem prod_congr {d e : Dev} (h : e.integ.prods = d.integ.prods) (a b : Nat) : e.prod a b = d.prod a b := by unfold Dev.prod; rw [h]

/-- The mark output and the product table of two states agree. -/
def MarkEq (d e : Dev) : Prop :=
  e.integ.prods = d.integ.prods ∧ e.integ.mark = d.integ.mark ∧ e.integ.pulseEnd = d.integ.pulseEnd ∧ e.integ.gateEnd = d.integ.gateEnd

theorem MarkEq.of {c r : Nat} {d e : Dev} (h : Dev.Only c r d e) (hc : c.testBit (Part.ctorIdx .integ) = false) : MarkEq d e := by
  have : e.integ = d.integ := h.parts .integ hc
  unfold MarkEq; rw [this]; exact ⟨rfl, rfl, rfl, rfl⟩

theorem MarkEq.trans {d e f : Dev} (h : MarkEq d e) (h' : MarkEq e f) : MarkEq d f :=
  ⟨h'.1.trans h.1, h'.2.1.trans h.2.1, h'.2.2.1.trans h.2.2.1, h'.2.2.2.trans h.2.2.2⟩

theorem forEach_markEq {α : Type} (l : List α) (f : Dev → α → Dev) (h : ∀ d x, MarkEq d (f d x)) (d : Dev) : MarkEq d (d.forEach l f) := by
  unfold Dev.forEach
  induction l generalizing d with
  | nil => exact ⟨rfl, rfl, rfl, rfl⟩
  | cons x t ih => exact (h d x).trans (ih _)

theorem writeRec_mark (d : Dev) (r : SpRec) : MarkEq d (d.writeRec r) := by
  unfold Dev.writeRec
  generalize BufRing.push _ _ _ _ = p
  obtain ⟨ring, lost⟩ := p
  dsimp only
  generalize hd1 : ({ d with integ := { d.integ with spr := ring } } : Dev) = d1
  have h1 : MarkEq d d1 := by rw [← hd1]; exact ⟨rfl, rfl, rfl, rfl⟩
  clear hd1
  split
  · refine h1.trans ?_
    refine MarkEq.trans ?_ (MarkEq.of (Dev.raise_only _ _ _) rfl)
    refine MarkEq.trans (e := (d1.wr Fld.SP_STAT_OVF 1).inc Fld.SP_RECLOST_N) ⟨rfl, rfl, rfl, rfl⟩ ?_
    exact forEach_markEq _ _ (fun d x => MarkEq.of (Dev.updAccount_only _ _ _) rfl) _
  · exact h1

theorem markProduct_st (d : Dev) (p : Prod) {jn pn : Nat} (hj : p.jn = jn) (hn : p.pn = pn) (h : d.prod jn pn = some p) :
    (d.markProduct p).integ.mark = true ∧
    (d.markProduct p).prod jn pn = some { p with st := .marked, unclosed := decide (p.st = .opened) } ∧
    (p.st = .opened → (d.markProduct p).rd .SP_STAT_EARLY = 1) ∧
    (d.rd .SP_WASTE_CTL_MODE = 1 → (d.markProduct p).integ.pulseEnd = some (max (d.integ.pulseEnd.getD 0) (d.now + d.markWidth))) ∧
    (d.rd .SP_WASTE_CTL_MODE ≠ 1 → (d.markProduct p).integ.gateEnd =
      some (max (d.integ.gateEnd.getD (p.to38 + d.rd .SP_WASTE_OFS_COUNTS * 2 ^ 38)) (p.to38 + d.rd .SP_WASTE_OFS_COUNTS * 2 ^ 38))) := by
  unfold Dev.markProduct
  dsimp only
  have ha : (d.assertMark p).integ.mark = true ∧ (d.assertMark p).integ.prods = d.integ.prods ∧
      (d.rd .SP_WASTE_CTL_MODE = 1 → (d.assertMark p).integ.pulseEnd = some (max (d.integ.pulseEnd.getD 0) (d.now + d.markWidth))) ∧
      (d.rd .SP_WASTE_CTL_MODE ≠ 1 → (d.assertMark p).integ.gateEnd =
        some (max (d.integ.gateEnd.getD (p.to38 + d.rd .SP_WASTE_OFS_COUNTS * 2 ^ 38)) (p.to38 + d.rd .SP_WASTE_OFS_COUNTS * 2 ^ 38))) := by
    unfold Dev.assertMark
    dsimp only
    split
    · next hm => exact ⟨rfl, rfl, fun _ => rfl, fun hn => absurd hm hn⟩
    · next hm => exact ⟨rfl, rfl, fun hn => absurd hn hm, fun _ => rfl⟩
  have hw := writeRec_mark (d.assertMark p)
    { jn := p.jn, pn := p.pn, first := p.first, last := p.last, n := 0, time := (d.assertMark p).now, kind := 2,
      reason := if p.spoil then p.reason else 0, bar := 255, slot := 255, firstSp := false, late := false,
      unclosed := decide (p.st = .opened), lostB := false, lines := [] }
  generalize Dev.writeRec _ _ = d2 at hw ⊢
  generalize hd3 : (if decide (p.st = .opened) = true then Dev.wr _ _ _ _ _ else _ : Dev) = d3
  have h3 : MarkEq (d.assertMark p) d3 ∧ (p.st = .opened → d3.rd .SP_STAT_EARLY = 1) := by
    rw [← hd3]
    have hx : MarkEq d2 (d2.updAccount p.jn (fun a => { a with marked := a.marked + 1, unclosed := a.unclosed + bit (decide (p.st = .opened)) })) := MarkEq.of (Dev.updAccount_only _ _ _) rfl
    split
    · exact ⟨(hw.trans hx).trans ⟨rfl, rfl, rfl, rfl⟩, fun _ => rd_wr_self _ _ _ _ _ (by decide)⟩
    · next hn => exact ⟨hw.trans hx, fun h => absurd (by simpa using h) hn⟩
  clear hd3
  obtain ⟨⟨hp, hm, hpe, hge⟩, he⟩ := h3
  refine ⟨hm.trans ha.1, ?_, he, fun h => hpe.trans (ha.2.2.1 h), fun h => hge.trans (ha.2.2.2 h)⟩
  subst hj hn
  exact prod_upd ((prod_congr (hp.trans ha.2.1) _ _).trans h) (fun q : Prod => { q with st := .marked, unclosed := decide (p.st = .opened) }) ⟨rfl, rfl⟩ (fun q => ⟨rfl, rfl⟩)

theorem prod_ids {d : Dev} {jn pn : Nat} {p : Prod} (h : d.prod jn pn = some p) : p.jn = jn ∧ p.pn = pn := by
  have := List.find?_some h; simpa using this

/-! ### Marks and cameras -/

theorem visHead_vp (d : Dev) (p : Nat) : ∃ b, (d.visHead p).vp p = { d.vp p with headPast := b } := by
  unfold Dev.visHead; rw [updVp_vp]; split <;> exact ⟨_, rfl⟩

theorem visPop_vp (d : Dev) (p : Nat) : ∃ b, (d.visPop p).vp p = { d.vp p with headPast := b, trigQ := (d.vp p).trigQ.drop 1 } := by
  unfold Dev.visPop
  obtain ⟨b, hb⟩ := visHead_vp (d.updVp p (fun v => { v with trigQ := v.trigQ.drop 1 })) p
  rw [updVp_vp] at hb
  exact ⟨b, hb⟩

/-- The trigger queue, the frame numbering and the frames of a port are the same. -/
def VisKeep (v w : Vis) : Prop := w.trigQ = v.trigQ ∧ w.nextId = v.nextId ∧ w.cap = v.cap

theorem VisKeep.refl (v : Vis) : VisKeep v v := ⟨rfl, rfl, rfl⟩

theorem VisKeep.trans {u v w : Vis} (h : VisKeep u v) (h' : VisKeep v w) : VisKeep u w := ⟨h'.1.trans h.1, h'.2.1.trans h.2.1, h'.2.2.trans h.2.2⟩

theorem commitEnd_keep (d : Dev) (p : Nat) : VisKeep (d.vp p) ((d.visCommitEnd p).vp p) := by
  unfold Dev.visCommitEnd
  split
  · split
    · rw [wr_vp, updVp_vp]; exact ⟨rfl, rfl, rfl⟩
    · exact VisKeep.refl _
  · exact VisKeep.refl _

theorem parts_keep (d : Dev) (p id : Nat) : VisKeep (d.vp p) ((d.visParts p id).vp p) := by
  have h1 : ∀ v : Vis, VisKeep v (match v.pend with
      | some c => { v with strobe := some c.set, pend := some { c with strobeIn := true },
                           unknownTo := if c.list = ListSt.issuing then some ((id + d.visLat p - 1) % 2 ^ 32) else v.unknownTo }
      | none => v) := fun v => by split <;> exact ⟨rfl, rfl, rfl⟩
  have h2 : ∀ v : Vis, VisKeep v (if v.unknownTo.any (idLe id) then v else { v with unknownTo := none }) := fun v => by split <;> exact ⟨rfl, rfl, rfl⟩
  have h3 : ∀ v : Vis, VisKeep v (match (v.sensorAt.filter (fun (x : Nat × ExpSet) => idLe x.1 id)).getLast? with
      | some x => { v with sensor := some x.2, sensorLost := false, sensorAt := v.sensorAt.filter (fun (x : Nat × ExpSet) => !idLe x.1 id) }
      | none => v) := fun v => by split <;> exact ⟨rfl, rfl, rfl⟩
  unfold Dev.visParts
  dsimp only
  refine VisKeep.trans ?_ (commitEnd_keep _ _)
  rw [updVp_vp]
  exact ((h1 _).trans (h2 _)).trans (h3 _)

theorem cal_keep (d : Dev) (p : Nat) : VisKeep (d.vp p) ((d.visCal p).vp p) := by
  unfold Dev.visCal
  dsimp only
  have fin : ∀ d1 : Dev, VisKeep (d.vp p) (d1.vp p) →
      VisKeep (d.vp p) ((if (d1.vp p).calPend = true then (d1.updVp p (fun v => { v with calPend := false })).wr .VIS_CAL_ACTIVE 1 p else d1).vp p) := by
    intro d1 h1
    split
    · rw [wr_vp, updVp_vp]; exact h1.trans ⟨rfl, rfl, rfl⟩
    · exact h1
  cases (d.vp p).ffPend with
  | none => exact fin _ (VisKeep.refl _)
  | some a =>
    refine fin _ ?_
    have : VisKeep (d.vp p) (((d.updVp p (fun v => { v with ffPend := none, ffbase := a })).incWrap .VIS_CAL_VER p).vp p) := by
      unfold Dev.incWrap; rw [wr_vp, updVp_vp]; exact ⟨rfl, rfl, rfl⟩
    dsimp only
    split
    · rw [raise_vp, wr_vp]; exact this
    · exact this

theorem ratio_keep (d : Dev) (p : Nat) : ((d.visRatio p).2).vp p = d.vp p ∧ ((d.visRatio p).2).fire = d.fire := by
  unfold Dev.visRatio
  split
  · exact ⟨rfl, rfl⟩
  · split <;> exact ⟨rfl, rfl⟩

theorem trigger_st (d : Dev) (p pos : Nat) (rest : List Nat) (hq : (d.vp p).trigQ = pos :: rest) :
    ((d.visTrigger p).vp p).trigQ = rest ∧ ((d.visTrigger p).vp p).trig = true ∧ ((d.visTrigger p).vp p).nextId = ((d.vp p).nextId + 1) % 2 ^ 32 ∧
    (d.visTrigger p).rd .VIS_FRAME_FRAMEID p = (d.vp p).nextId % 2 ^ 32 ∧ (d.visTrigger p).rd .VIS_STAT_STATE p = 2 ∧
    ∃ f, (if (d.vp p).cap.isSome then ((d.visTrigger p).vp p).nextCap else ((d.visTrigger p).vp p).cap) = some f ∧
      f.id = (d.vp p).nextId ∧ f.pos = d.fire.pos.toNat ∧ f.started = false := by
  unfold Dev.visTrigger
  dsimp only
  have h1 : VisKeep { d.vp p with trigQ := rest } ((((d.visPop p).visParts p (d.vp p).nextId).visCal p).vp p) ∧
      (((d.visPop p).visParts p (d.vp p).nextId).visCal p).fire = d.fire := by
    refine ⟨VisKeep.trans ?_ ((parts_keep _ _ _).trans (cal_keep _ _)), ?_⟩
    · obtain ⟨b, hb⟩ := visPop_vp d p
      rw [hb, hq]
      exact ⟨rfl, rfl, rfl⟩
    · exact ((Dev.visCal_only _ _).parts .fire rfl).trans (((Dev.visParts_only _ _ _).parts .fire rfl).trans ((Dev.visPop_only _ _).parts .fire rfl))
  generalize ((d.visPop p).visParts p (d.vp p).nextId).visCal p = d1 at h1 ⊢
  have h2 := ratio_keep d1 p
  generalize d1.visRatio p = r at h2 ⊢
  obtain ⟨ratio, d2⟩ := r
  dsimp only at h2 ⊢
  rw [← h2.1] at h1
  have hpos : d2.fire.pos = d.fire.pos := by rw [h2.2, h1.2]
  have hf : (d2.visFrame p (d.vp p).nextId d2.fire.pos.toNat ratio).id = (d.vp p).nextId ∧ (d2.visFrame p (d.vp p).nextId d2.fire.pos.toNat ratio).pos = d.fire.pos.toNat ∧
      (d2.visFrame p (d.vp p).nextId d2.fire.pos.toNat ratio).started = false := by
    unfold Dev.visFrame; rw [hpos]; exact ⟨rfl, rfl, rfl⟩
  generalize d2.visFrame p (d.vp p).nextId d2.fire.pos.toNat ratio = f at hf ⊢
  obtain ⟨⟨k1, k2, k3⟩, -⟩ := h1
  refine ⟨?_, ?_, ?_, ?_, ?_, f, ?_, hf⟩
  · rw [wr_vp, wr_vp, wr_vp, wr_vp, updVp_vp]; split <;> exact k1
  · rw [wr_vp, wr_vp, wr_vp, wr_vp, updVp_vp]; split <;> rfl
  · rw [wr_vp, wr_vp, wr_vp, wr_vp, updVp_vp]; split <;> rfl
  · rw [Dev.rd_wr, if_neg (by simp), Dev.rd_wr, if_neg (by simp), Dev.rd_wr, if_neg (by simp), Dev.rd_wr, if_pos ⟨rfl, rfl, rfl⟩]; rfl
  · rw [Dev.rd_wr, if_neg (by simp), Dev.rd_wr, if_neg (by simp)]; exact rd_wr_self _ _ _ _ _ (by decide)
  · rw [wr_vp, wr_vp, wr_vp, wr_vp, updVp_vp, ← k3]
    split
    all_goals rfl

theorem i2c_out (d : Dev) (p : Nat) (l : List Nat) : (d.visI2c p l).out = (l.map (d.i2cWrite p)).reverse ++ d.out ∧ (d.visI2c p l).vp p = d.vp p ∧
    ∀ f i j, (d.visI2c p l).rd f i j = d.rd f i j := by
  have hc : ∀ (d e : Dev), (∀ f i j, e.rd f i j = d.rd f i j) → e.i2cWrite p = d.i2cWrite p := by
    intro d e h; funext x; unfold Dev.i2cWrite; simp only [h]
  unfold Dev.visI2c Dev.forEach
  induction l generalizing d with
  | nil => exact ⟨rfl, rfl, fun _ _ _ => rfl⟩
  | cons x t ih =>
    obtain ⟨h1, h2, h3⟩ := ih (d.emit (d.i2cWrite p x))
    refine ⟨?_, h2.trans rfl, fun f i j => (h3 f i j).trans rfl⟩
    rw [List.foldl_cons, h1, List.map_cons, List.reverse_cons, List.append_assoc, hc d _ (fun _ _ _ => rfl)]
    rfl

/-! ### Cameras: lists and frames -/

theorem visOp_vp {c r : Nat} {d e : Dev} (h : Dev.Only c r d e) (hc : c.testBit (Part.ctorIdx .vis) = false) (p : Nat) : e.vp p = d.vp p := vp_congr (h.parts .vis hc) p

theorem visBlank_st (d : Dev) (p : Nat) (hn : (d.vp p).nextCap = none) : ((d.visBlank p).vp p).cap.map (·.id) = (d.vp p).cap.map (·.id) ∧
    ((d.visBlank p).vp p).nextCap = none ∧ ((d.visBlank p).vp p).timeouts = (d.vp p).timeouts := by
  unfold Dev.visBlank
  split
  · split
    · dsimp only
      split
      · rw [updVp_vp, updVp_vp]
        refine ⟨?_, by rw [hn]; rfl, rfl⟩
        dsimp only
        rw [Option.map_map]; rfl
      · rw [updVp_vp]; exact ⟨rfl, hn, rfl⟩
    · exact ⟨rfl, hn, rfl⟩
  · exact ⟨rfl, hn, rfl⟩

theorem visNext_st (d : Dev) (p : Nat) : ((d.visNext p).vp p).cap.map (·.id) = (d.vp p).nextCap.map (·.id) ∧
    ((d.visNext p).vp p).nextCap = none ∧ ((d.visNext p).vp p).timeouts = (d.vp p).timeouts ∧
    (d.visNext p).rd .VIS_STAT_STATE p = (if (d.vp p).nextCap.isSome then 2 else 1) := by
  unfold Dev.visNext
  dsimp only
  have h : ((((d.updVp p (fun v => { v with cap := v.nextCap, nextCap := none })).wr .VIS_STAT_STATE (if (d.vp p).nextCap.isSome then 2 else 1) p).vp p)) =
      { d.vp p with cap := (d.vp p).nextCap, nextCap := none } := by rw [wr_vp, updVp_vp]
  obtain ⟨h1, h2, h3⟩ := visBlank_st ((d.updVp p (fun v => { v with cap := v.nextCap, nextCap := none })).wr .VIS_STAT_STATE (if (d.vp p).nextCap.isSome then 2 else 1) p) p (by rw [h])
  rw [h] at h1 h3
  refine ⟨h1, h2, h3, ?_⟩
  refine ((Dev.visBlank_only _ _).rd _ _ _ (Nat.zero_testBit _)).trans (rd_wr_self _ _ _ _ _ ?_)
  split <;> decide

theorem visOp_cap {c r : Nat} {d e : Dev} (h : Dev.Only c r d e) (hc : c.testBit (Part.ctorIdx .vis) = false) (p : Nat) : (e.vp p).nextCap = (d.vp p).nextCap := by
  rw [visOp_vp h hc p]

theorem updVp_cap (s : State) (p : Nat) (f : Vis → Vis) (h : ∀ v, (f v).nextCap = v.nextCap) : ((s.updVp p f).dev.vp p).nextCap = (s.dev.vp p).nextCap := by
  rw [show (s.updVp p f).dev.vp p = f (s.dev.vp p) from updVp_vp s.dev p f]; exact h _

theorem camPut_cap (s : State) (p : Nat) (b : CamBuf) : ((s.camPut p b).2.dev.vp p).nextCap = (s.dev.vp p).nextCap := by
  unfold State.camPut
  split
  · rfl
  · split
    · exact visOp_cap (State.descFail_only _ _ _).dev rfl p
    · dsimp only
      rw [updVp_vp]
      exact (visOp_cap (State.descDone_only _ _ _ _ _ _ _ _ _).dev rfl p).trans (visOp_cap (State.dramWrite_only _ _ _ _).dev rfl p)

theorem camPutAll_cap (p : Nat) (l : List CamBuf) : ∀ s : State, ((s.camPutAll p l).dev.vp p).nextCap = (s.dev.vp p).nextCap := by
  induction l with
  | nil => exact fun s => rfl
  | cons b t ih =>
    intro s
    have h := camPut_cap s p b
    unfold State.camPutAll
    generalize s.camPut p b = r at h ⊢
    obtain ⟨ok, u⟩ := r
    dsimp only at h
    cases ok
    case true => exact (ih _).trans h
    case false =>
      have hn := visOp_cap (Dev.camNobuf_only u.dev p b.stream b.frame) rfl p
      show (((u.dev.camNobuf p b.stream b.frame).updVp p _).vp p).nextCap = _
      rw [updVp_vp]
      dsimp only
      rw [hn, h]

theorem s0Write_cap (f : Frame3) (avail : Nat) (all : Bool) (p : Nat) : ∀ (fuel : Nat) (s : State) (c : Cap),
    ((s.s0Write p f avail all fuel c).1.dev.vp p).nextCap = (s.dev.vp p).nextCap := by
  intro fuel
  induction fuel with
  | zero => exact fun s c => rfl
  | succ n ih =>
    intro s c
    have h := camPut_cap s p
    unfold State.s0Write
    split
    · rfl
    · dsimp only
      split
      · exact visOp_cap (Dev.camNobuf_only _ _ _ _) rfl p
      · split
        · rfl
        · generalize hb : Cap.buf c _ _ _ _ _ _ = b
          replace h := h b
          generalize s.camPut p b = r at h ⊢
          obtain ⟨ok, u⟩ := r
          dsimp only at h
          cases ok
          case true => exact (ih _ _).trans h
          case false =>
            have hn := visOp_cap (Dev.camNobuf_only u.dev p 0 c.id) rfl p
            exact hn.trans h

theorem visOutputs_st (s : State) (p : Nat) (c : Cap) : ((s.visOutputs p c).dev.vp p).nextCap = (s.dev.vp p).nextCap := by
  unfold State.visOutputs
  dsimp only
  generalize hs1 : (if s.dev.visStream p 0 = true then _ else _ : State × Cap) = r1
  have h1 : (r1.1.dev.vp p).nextCap = (s.dev.vp p).nextCap := by
    rw [← hs1]; split
    · exact s0Write_cap _ _ _ _ _ _ _
    · rfl
  clear hs1
  obtain ⟨s1, c1⟩ := r1
  dsimp only at h1 ⊢
  refine Eq.trans ?_ h1
  have hu : ∀ (s : State) (f : Vis → Vis) (_ : ∀ v, (f v).nextCap = v.nextCap), ((s.updVp p f).dev.vp p).nextCap = (s.dev.vp p).nextCap := fun s f h => updVp_cap s p f h
  split
  · rw [hu _ _ (by intro v; rfl), camPutAll_cap, camPutAll_cap]
  · have h3 := visOp_cap (State.s3Buf_only s1 p (s.isp p c) c1).dev rfl p
    generalize s1.s3Buf p (s.isp p c) c1 = r at h3 ⊢
    obtain ⟨s3, s2⟩ := r
    dsimp only at h3 ⊢
    refine Eq.trans ?_ h3
    split
    · rw [camPutAll_cap, camPutAll_cap, camPutAll_cap, hu _ _ (by intro v; rfl)]
    · rw [hu _ _ (by intro v; rfl), camPutAll_cap, camPutAll_cap, camPutAll_cap]

theorem visFlags_st (d : Dev) (p : Nat) (c : Cap) : (c.flags.crcErr = true → (d.visFlags p c).rd .VIS_STAT_CRC p = 1) ∧ (c.flags.geom = true → (d.visFlags p c).rd .VIS_STAT_GEOM p = 1) := by
  unfold Dev.visFlags
  dsimp only
  refine ⟨fun h => ?_, fun h => ?_⟩
  · rw [if_pos h]
    have : (((d.wr .VIS_STAT_CRC 1 p).raise Ev.CAM_CRC (le 1 p ++ le 4 c.id)).rd .VIS_STAT_CRC p) = 1 :=
      ((Dev.raise_only _ _ _).rd _ _ _ rfl).trans (rd_wr_self _ _ _ _ _ (by decide))
    split
    · refine ((Dev.raise_only _ _ _).rd _ _ _ rfl).trans ?_
      rw [Dev.rd_wr, if_neg (by simp)]; exact this
    · exact this
  · rw [if_pos h]
    exact ((Dev.raise_only _ _ _).rd _ _ _ rfl).trans (rd_wr_self _ _ _ _ _ (by decide))

theorem visEnd_st (s : State) (p : Nat) (c : Cap) : ((s.visEnd p c).dev.vp p).nextCap = (s.dev.vp p).nextCap ∧ ((s.visEnd p c).dev.vp p).timeouts = 0 ∧
    (c.flags.crcErr = true → (s.visEnd p c).dev.rd .VIS_STAT_CRC p = 1) ∧ (c.n0 ≠ s.dev.rd .VIS_GEOM_HEIGHT p → (s.visEnd p c).dev.rd .VIS_STAT_GEOM p = 1) := by
  unfold State.visEnd
  dsimp only
  generalize hc : ({ c with flags := _, lines0 := _, lines1 := _ } : Cap) = c1
  have hf := visFlags_st s.dev p c1
  have k1 : c.flags.crcErr = true → c1.flags.crcErr = true := by rw [← hc]; exact id
  have k2 : c.n0 ≠ s.dev.rd .VIS_GEOM_HEIGHT p → c1.flags.geom = true := by
    rw [← hc]; intro h; simp [h]
  have hv := visOp_vp (Dev.visFlags_only s.dev p c1) rfl p
  generalize s.dev.visFlags p c1 = d1 at hf hv ⊢
  unfold State.updVp
  have ho := (State.visOutputs_only { s with dev := d1 } p c1).dev
  refine ⟨?_, ?_, fun h => ?_, fun h => ?_⟩
  · dsimp only; rw [updVp_vp]; dsimp only; rw [visOutputs_st]; exact congrArg (·.nextCap) hv
  · dsimp only; rw [updVp_vp]
  · exact (ho.rd _ _ _ rfl).trans (hf.1 (k1 h))
  · exact (ho.rd _ _ _ rfl).trans (hf.2 (k2 h))

/-! ### Nozzle health and loops -/

theorem nozzle_congr {d e : Dev} (h : e.loops.nozzles = d.loops.nozzles) (h' : e.rodMaster = d.rodMaster) (ch : Nat) : e.nozzle ch = d.nozzle ch := by
  unfold Dev.nozzle Dev.masterRod; rw [h, h']

/-- Two states have the same nozzle records, and the head references agree. -/
def NozEq (d e : Dev) : Prop := e.loops.nozzles = d.loops.nozzles ∧ e.rodMaster = d.rodMaster ∧ e.loops.dref = d.loops.dref

theorem NozEq.refl (d : Dev) : NozEq d d := ⟨rfl, rfl, rfl⟩

theorem NozEq.trans {d e f : Dev} (h : NozEq d e) (h' : NozEq e f) : NozEq d f := ⟨h'.1.trans h.1, h'.2.1.trans h.2.1, h'.2.2.trans h.2.2⟩

theorem NozEq.of {c r : Nat} {d e : Dev} (h : Dev.Only c r d e) (hc : c.testBit (Part.ctorIdx .loops) = false) (hr : c.testBit (Part.ctorIdx .rodMaster) = false) : NozEq d e := by
  have hl : e.loops = d.loops := h.parts .loops hc
  have hm : e.rodMaster = d.rodMaster := h.parts .rodMaster hr
  exact ⟨by rw [hl], hm, by rw [hl]⟩

theorem NozEq.nz {d e : Dev} (h : NozEq d e) (ch : Nat) : e.nozzle ch = d.nozzle ch := nozzle_congr h.1 h.2.1 ch

theorem setNozzle_nz (d : Dev) (ch : Nat) (n : Nozzle) (k : Nat) : (d.setNozzle ch n).nozzle k = if k = ch then n else d.nozzle k := by
  unfold Dev.setNozzle Dev.nozzle Dev.masterRod
  dsimp only
  split
  · next h => subst h; rw [Tab.at_put_same]; rfl
  · next h => rw [Tab.at_put_ne _ _ h]

theorem rodEntry_eq (d : Dev) (ch : Nat) (n : Nozzle) : NozEq d (d.rodEntry ch n) := by
  unfold Dev.rodEntry
  split
  · unfold Dev.pendRods; exact ⟨rfl, rfl, rfl⟩
  · exact NozEq.refl _

theorem event_eq (d : Dev) (ch : Nat) (a b : Nozzle) : NozEq d (d.nozzleEvent ch a b) := NozEq.of (Dev.nozzleEvent_only _ _ _ _) rfl rfl

/-- Two records agree but for the class and the age. -/
def SameRod (a b : Nozzle) : Prop := a.st = b.st ∧ a.gain = b.gain ∧ a.lat = b.lat

theorem check_masked (n : Nozzle) (h : n.st = 3) (p : Bool) (r x : Int) : n.check p r x = n := by unfold Nozzle.check; rw [if_pos h]

theorem aged_same (n o : Nozzle) : SameRod (n.aged o) n := ⟨rfl, rfl, rfl⟩

theorem SameRod.trans {a b c : Nozzle} (h : SameRod a b) (h' : SameRod b c) : SameRod a c := ⟨h.1.trans h'.1, h.2.1.trans h'.2.1, h.2.2.trans h'.2.2⟩

/-- The check of a dash, by its channel's record. -/
def dashCheck (f : Fit) (dref : Nat) (x : Dash) (n : Nozzle) : Nozzle :=
  n.check (dashPresent x dref) (if dref = 0 then 65536 else (dashDensity x * 65536 / dref : Nat)) (f.delta (dashPair x).1 (dashPair x).2)

theorem checkDash_nz (d : Dev) (f : Fit) (dref : Nat) (x : Dash) : (∀ k, k ≠ x.ch.toNat → (d.checkDash f dref x).nozzle k = d.nozzle k) ∧
    SameRod ((d.checkDash f dref x).nozzle x.ch.toNat) (dashCheck f dref x (d.nozzle x.ch.toNat)) ∧ (d.checkDash f dref x).loops.dref = d.loops.dref := by
  unfold Dev.checkDash
  dsimp only
  split
  · next h => exact ⟨fun _ _ => rfl, by unfold dashCheck; rw [check_masked _ h]; exact ⟨rfl, rfl, rfl⟩, rfl⟩
  · rw [show Nozzle.check (d.nozzle x.ch.toNat) _ _ _ = dashCheck f dref x (d.nozzle x.ch.toNat) from rfl]
    generalize hn : Nozzle.aged (dashCheck f dref x (d.nozzle x.ch.toNat)) _ = n
    have hs : SameRod n (dashCheck f dref x (d.nozzle x.ch.toNat)) := by rw [← hn]; exact aged_same _ _
    generalize hd2 : Dev.nozzleEvent _ _ _ _ = d2
    have h2 : NozEq (d.setNozzle x.ch.toNat n) d2 := by rw [← hd2]; exact event_eq _ _ _ _
    clear hd2
    have key : ∀ e, NozEq (d.setNozzle x.ch.toNat n) e → (∀ k, k ≠ x.ch.toNat → e.nozzle k = d.nozzle k) ∧ SameRod (e.nozzle x.ch.toNat) (dashCheck f dref x (d.nozzle x.ch.toNat)) ∧ e.loops.dref = d.loops.dref := by
      intro e he
      refine ⟨fun k hk => ?_, ?_, he.2.2⟩
      · rw [he.nz, setNozzle_nz, if_neg hk]
      · rw [he.nz, setNozzle_nz, if_pos rfl]; exact hs
    split
    · exact key _ (h2.trans (rodEntry_eq _ _ _))
    · exact key _ h2

theorem dashes_nz (l : List Dash) (d : Dev) (f : Fit) (dref : Nat) (hn : (l.map (·.ch)).Nodup) :
    (∀ k, (∀ x ∈ l, x.ch.toNat ≠ k) → (d.forEach l (fun d x => d.checkDash f dref x)).nozzle k = d.nozzle k) ∧
    (∀ x ∈ l, SameRod ((d.forEach l (fun d x => d.checkDash f dref x)).nozzle x.ch.toNat) (dashCheck f dref x (d.nozzle x.ch.toNat))) ∧
    (d.forEach l (fun d x => d.checkDash f dref x)).loops.dref = d.loops.dref := by
  unfold Dev.forEach
  induction l generalizing d with
  | nil => exact ⟨fun _ _ => rfl, fun _ h => absurd h (by simp), rfl⟩
  | cons y t ih =>
    rw [List.map_cons, List.nodup_cons] at hn
    obtain ⟨h1, h2, h3⟩ := ih (d.checkDash f dref y) hn.2
    obtain ⟨k1, k2, k3⟩ := checkDash_nz d f dref y
    refine ⟨fun k hk => ?_, fun x hx => ?_, h3.trans k3⟩
    · exact (h1 k (fun x hx => hk x (List.mem_cons_of_mem _ hx))).trans (k1 k (fun e => hk y (List.mem_cons_self ..) e.symm))
    · rcases List.mem_cons.mp hx with rfl | hx
      · rw [List.foldl_cons, h1 _ (fun z hz e => hn.1 (List.mem_map.mpr ⟨z, hz, BitVec.eq_of_toNat_eq e⟩))]
        exact k2
      · have hne : x.ch.toNat ≠ y.ch.toNat := fun e => hn.1 (List.mem_map.mpr ⟨x, hx, BitVec.eq_of_toNat_eq e⟩)
        have := h2 x hx
        rw [k1 _ hne] at this
        exact this

theorem reclass_nz (d : Dev) (slot j k : Nat) : SameRod ((d.reclass slot j).nozzle k) (d.nozzle k) ∧ (d.reclass slot j).loops.dref = d.loops.dref := by
  unfold Dev.reclass
  dsimp only
  split
  · exact ⟨⟨rfl, rfl, rfl⟩, rfl⟩
  · rw [(rodEntry_eq _ _ _).nz, setNozzle_nz]
    refine ⟨?_, (rodEntry_eq _ _ _).2.2⟩
    split
    · next h => subst h; exact ⟨rfl, rfl, rfl⟩
    · exact ⟨rfl, rfl, rfl⟩

theorem reclassAll_nz (l : List Nat) (d : Dev) (slot k : Nat) : SameRod ((d.forEach l (fun d j => d.reclass slot j)).nozzle k) (d.nozzle k) ∧
    (d.forEach l (fun d j => d.reclass slot j)).loops.dref = d.loops.dref := by
  unfold Dev.forEach
  induction l generalizing d with
  | nil => exact ⟨⟨rfl, rfl, rfl⟩, rfl⟩
  | cons y t ih =>
    obtain ⟨h1, h2⟩ := ih (d.reclass slot y)
    obtain ⟨k1, k2⟩ := reclass_nz d slot y k
    exact ⟨h1.trans k1, h2.trans k2⟩

theorem eraseDups_const (h : Nat) (l : List Nat) (hl : l ≠ []) (ha : ∀ x ∈ l, x = h) : l.eraseDups = [h] := by
  cases l with
  | nil => exact absurd rfl hl
  | cons a t =>
    rw [List.eraseDups_cons, ha a (List.mem_cons_self ..)]
    have : t.filter (fun b => !b == h) = [] := by
      rw [List.filter_eq_nil_iff]
      intro b hb
      rw [ha b (List.mem_cons_of_mem _ hb)]; simp
    rw [this]; rfl

theorem offsets_nil (p : BrimPlan) (f : Fit) (bar : Nat) (refs : List Mark) : offsets p f bar [] refs = none := by
  unfold offsets
  have : (List.range 4).filterMap (fun g => (markOf [] g).bind (fun m => (markOf refs g).map (fun r => (m, r)))) = [] := rfl
  rw [this]; rfl

theorem at_map_keep {α β : Type} [Inhabited α] (t : Tab Nat α) (g : α → α) (φ : α → β) (h : ∀ x, φ (g x) = φ x) (k : Nat) :
    φ (Tab.at (t.map (fun b => (b.1, g b.2))) k) = φ (Tab.at t k) := by
  unfold Tab.at
  induction t with
  | nil => rfl
  | cons x t ih =>
    rw [List.map_cons]
    unfold Tab.get
    split
    · exact h _
    · exact ih

theorem updBar_same (d : Dev) (k : Nat) (g : BarLoop → BarLoop) : (d.updBar k g).barLoop k = g (d.barLoop k) := by
  unfold Dev.updBar Dev.barLoop; exact Tab.at_upd_same _ _ _

end Sys2Proof.Machine
end

