-- ==== Sys2Proof/Tests/Slice0.lean ====
section
/-! SUPPORT. Tests of this row: ill-formed commands, which the checks of WellFormed.lean refuse; states and operands that meet the
hypotheses of every statement; single commands on small states, their results taken from the spec. -/
namespace Sys2Proof.Tests

-- One theorem at a time: checked side by side, their threads exceed the memory that the check allows.
set_option Elab.async false
open Sys2Proof Sys2Proof.Machine

/-! ### States -/

/-- The machine after reset, its block changed. -/
def on (f : Dev → Dev) : State := { State.reset with dev := f State.reset.dev }

/-- The block at a time in ns. -/
def atNs (ns : Nat) (d : Dev) : Dev := { d with tb := { d.tb with main := ns * 2 ^ 32, fb := ns * 2 ^ 32 } }

/-- Every engine. -/
def allRun : List Engine := [.hk, .sv0, .sv1, .cc0, .cc1, .vs] ++ (List.range 16).map Engine.rk

/-- The block in a device state with every domain powered, every engine running, a Crown content, and three peers that are UP. -/
def live (st : DState) (d : Dev) : Dev :=
  let d : Dev := { d with boot := { d.boot with stage := .done, running := allRun, content := some default } }
  let d := ((d.wr .AON_STATE_STATE st.code).wr .AON_PDSTAT_ON (2 ^ 32 - 1)).wr .XPP_PEER_UP 7
  let peer (d : Dev) (r : Role) : Dev := ((d.wr .XPP_ID_ID (r.idx + 1) r.idx).wr .XPP_IP_IP (r.idx + 1) r.idx).setPeer r { d.peer r with ref := some 0 }
  peer (peer (peer d .pc) .js) .mt

/-- A header from each peer. -/
def pc : XppHdr := ⟨1, 1, 1, false, 2, 0⟩
def js : XppHdr := ⟨2, 2, 1, false, 2, 0⟩
def mt : XppHdr := ⟨3, 3, 1, false, 2, 0⟩

/-- A Crown content that passes its checks: one bar of one head, the Brim plan at the low ends of Table 10-1. -/
def content : CrownContent :=
  { (default : CrownContent) with
    bars := [⟨0, 0, 1, 0⟩], abacus := [(0xB00008, 1), (0xB0000C, 1)],
    plan := { (default : BrimPlan) with lcode := 1, mcode := 1, markLines := 1, markStep := 256, hstep := 16 } }

/-- The records of an image, each with an empty payload: `TYPE` and the `CRC` of its 16 bytes (16, R376). -/
def imageRecs : List (Nat × Nat) :=
  [(1, 3833315922), (1, 3833315922), (1, 3833315922), (1, 3833315922), (2, 4152599201), (3, 93302623), (4, 3497222983), (5, 578776761),
   (6, 830934602), (7, 3280667572), (8, 2677203083), (9, 1839132021), (10, 2120650118), (11, 2355789944), (14, 3093438829), (16, 5367571)]

/-- The bytes of the records. -/
def recBytes : List Byte := imageRecs.flatMap (fun r => le 2 r.1 ++ le 2 1 ++ le 12 0 ++ le 4 r.2)

/-- The Crown header before them (16, R375): 16 records of 320 bytes at 65,536, both variants, its `SETCRC` and `CRC`. -/
def hdrBytes : List Byte :=
  le 4 0x4E575243 ++ le 2 1 ++ le 2 0 ++ le 4 1 ++ le 2 3 ++ le 2 16 ++ le 4 65536 ++ le 4 320 ++ le 4 238966790 ++ le 2 200 ++ le 30 0
    ++ le 4 3486795173

/-- The block with that image in the primary span, in blocks of 64 bytes. -/
def image (d : Dev) : Dev :=
  { d with nor := { d.nor with log := ⟨0, hdrBytes⟩ :: (List.range 5).map (fun k => ⟨65536 + 64 * k, (recBytes.drop (64 * k)).take 64⟩) } }

/-- The block at a step of the boot timeline. -/
def booting (b : BootStage) (d : Dev) : Dev :=
  (({ d with boot := { d.boot with stage := b, content := some content } } : Dev).wr .AON_STATE_STATE DState.boot.code).wr .CR_STAT_IMG 0

/-! ### Ill-formed commands are refused by their checks -/

theorem test_illformed_dramTraining : (Instr.dramTraining (List.replicate 39 (0, 0))).wf = false := by decide
theorem test_illformed_channelBRetrain : (Instr.channelBRetrain (List.replicate 11 (0, 0))).wf = false := by decide
theorem test_illformed_bulkConnection : (Instr.bulkConnection 0 (List.replicate 31 0)).wf = false := by decide
theorem test_illformed_dmaDescriptorDone : (Instr.dmaDescriptorDone 0 (List.replicate 13 0) [] 0 false).wf = false := by decide
theorem test_illformed_tempConversionDone : (Instr.tempConversionDone (List.replicate 9 0)).wf = false := by decide
theorem test_illformed_dmaTailWrite : (Instr.dmaTailWrite 3 0 0 [List.replicate 31 0]).wf = false := by decide
theorem test_illformed_workPost : (Instr.workPost (List.replicate 63 0)).wf = false := by decide
theorem test_illformed_regRead : (Instr.regRead pc (List.replicate 360 0)).wf = false := by decide +kernel
theorem test_illformed_queueOrder : (Instr.queueOrder pc (List.replicate 360 0)).wf = false := by decide +kernel
theorem test_illformed_nvmWrite : (Instr.nvmWrite pc 0 (List.replicate 1437 0)).wf = false := by decide +kernel
theorem test_illformed_evaluationPeriodEnd : (Instr.evaluationPeriodEnd false [⟨pc, .regRead (List.replicate 360 0)⟩]).wf = false := by decide +kernel
theorem test_illformed_csiPacket : (Instr.csiPacket 0 ⟨0, 0, 0, List.replicate 32768 0, true, [], false⟩).wf = false := by
  show decide ((List.replicate 32768 (0 : BitVec 14)).length ≤ 32767) = false
  rw [List.length_replicate]; rfl
theorem test_illformed_runs : ∃ t, exec (.tempConversionDone (List.replicate 9 0)) State.reset = .next t := ⟨_, rfl⟩
theorem test_wellformed_limits : (Instr.queueOrder pc (List.replicate 359 0)).wf = true ∧ (Instr.nvmWrite pc 0 (List.replicate 1436 0)).wf = true := by
  decide +kernel

/-! ### States and operands that meet the hypotheses of the statements -/

theorem meets_EmptyQueueTicks :
    (∃ s : State, s.pending = [] ∧ s.dev.tb.slewing = false ∧ s.dev.domOn .net = true ∧ s.dev.integ.prods = [] ∧ s.dev.jobs = [] ∧
      s.dev.evr.isFull = false ∧ s.dev.integ.spr.isFull = false) ∧
    (∃ s : State, s.pending = [] ∧ s.dev.tb.slewing = false ∧ s.dev.domOn .net = false) :=
  ⟨⟨on (live .idle), by decide +kernel⟩, ⟨State.reset, by decide +kernel⟩⟩

theorem meets_StepKeepsForms :
    ∃ s t : State, Inv s ∧ step s = .next t ∧ s.dev.rd .AON_PWR_VMIN = 2 ^ (fldSpec .AON_PWR_VMIN).width - 1 :=
  ⟨{ on (fun d => d.wr .AON_PWR_VMIN 65535) with pending := [.holdPinAssert] }, _,
    ⟨⟨by decide +kernel, by decide +kernel⟩, show Tab.wf _ _ _ = true by decide +kernel, by decide +kernel, by decide +kernel, by decide +kernel,
      by decide +kernel⟩,
    rfl, by decide +kernel⟩

theorem meets_OnlyPowerGoodLeavesOff :
    ∃ s t : State, s.dev.st = .off ∧ Instr.holdPinAssert ≠ .powerGood ∧ exec .holdPinAssert s = .next t :=
  ⟨on (·.wr .AON_STATE_STATE 0), _, by decide +kernel, by decide, rfl⟩

theorem meets_OnlySupplyLeavesShutdown :
    ∃ s t : State, s.dev.st = .shutdown ∧ Instr.powerGood ≠ .powerOnReset ∧ Instr.powerGood ≠ .inputReset9v8 ∧
      Instr.powerGood ≠ .overvoltageDisconnect ∧ exec .powerGood s = .next t :=
  ⟨on (live .shutdown), _, by decide +kernel, by decide, by decide, by decide, rfl⟩

theorem meets_ResetsReturnTheModule :
    (∃ s : State, s.dev.st ≠ .off) ∧ (∃ s : State, s.dev.flag .CR_PRES_DBG = true ∧ s.dev.st ≠ .off ∧ s.dev.st ≠ .shutdown) ∧
    (∃ (lvl : Lvl) (s : State), s.dev.allowed 0 0x10010 lvl true = true ∧ s.dev.st ≠ .off ∧ s.dev.st ≠ .shutdown) :=
  ⟨⟨on (live .hold), by decide +kernel⟩, ⟨on (fun d => (live .hold d).wr .CR_PRES_DBG 1), by decide +kernel⟩,
    ⟨3, on (live .hold), by decide +kernel⟩⟩

theorem meets_SupplyWarningTakesEffect :
    (∃ s : State, s.dev.st ≠ .off ∧ s.dev.flag .AON_PWR_WARN = false) ∧ (∃ s : State, s.dev.flag .AON_PWR_WARN = true) :=
  ⟨⟨on (live .idle), by decide +kernel⟩, ⟨on (fun d => (live .idle d).wr .AON_PWR_WARN 1), by decide +kernel⟩⟩

theorem meets_SensorsConvertOnDemand :
    (∃ s : State, s.dev.st = .boot ∧ s.dev.boot.stage.num ≥ BootStage.firstPass.num) ∧
    (∃ (lvl : Lvl) (s : State), s.dev.Reaches lvl 0x400) ∧
    (∃ (readings : List U16) (s : State), readings.length = 10 ∧ bitOf (s.dev.rd .AON_TDEM_BUSY) 9 = true ∧
      bitOf (s.dev.rd .AON_TDEM_BUSY) 0 = false) :=
  ⟨⟨on (booting .firstPass), by decide +kernel⟩,
    ⟨3, on (live .idle), by decide +kernel, _, _, _, rfl, by decide +kernel, by decide +kernel⟩,
    ⟨List.replicate 10 0xFFFF, on (·.wr .AON_TDEM_BUSY 0x200), by decide +kernel⟩⟩

theorem meets_ShutdownRecordThenPowerDown :
    (∃ (x : Shut) (e : Nat × Nat) (s : State), s.dev.st ≠ .off ∧ s.dev.shut = some x ∧ x.due = some e) ∧
    (∃ (x : Shut) (s : State), s.dev.shut = some x ∧ x.written = false ∧ x.due = none ∧ s.dev.rd .CR_LOG_BASE_COUNT ≠ 0) ∧
    (∃ s : State, s.dev.mayPowerDown = true) ∧
    (∃ s : State, s.dev.flag .XPP_CTL_SCEN = true ∧ s.dev.st.idleToHold = true) :=
  ⟨⟨⟨some (3, Ev.MEM_TRAIN_FAIL.code), [], 0, false⟩, (3, Ev.MEM_TRAIN_FAIL.code),
      on (fun d => { live .printing d with shut := some ⟨some (3, Ev.MEM_TRAIN_FAIL.code), [], 0, false⟩ }), by decide +kernel⟩,
    ⟨⟨none, [], 0, false⟩, on (fun d => { d.wr .CR_LOG_BASE_COUNT 1 with shut := some ⟨none, [], 0, false⟩ }), by decide +kernel⟩,
    ⟨on (fun d => { live .shutdown d with shut := some ⟨none, [], 0, true⟩ }), by decide +kernel⟩,
    ⟨on (fun d => (live .hold d).wr .XPP_CTL_SCEN 1), by decide +kernel⟩⟩

theorem meets_EpochEndTakesEffect :
    (∃ s : State, s.dev.st.idleToHold = true ∧ s.dev.runs .sv1 = true ∧ 1024 ≤ s.dev.aba.lines ∧ s.dev.rd .AB_LADDER_STEP ≤ 6) ∧
    (∃ s : State, s.dev.st.idleToHold = true ∧ s.dev.runs .sv1 = true ∧ s.dev.aba.since + 10000000 ≤ s.dev.now ∧
      s.dev.rd .AB_LADDER_STEP ≤ 6) ∧
    (∃ s : State, s.dev.st.idleToHold = false) ∧
    (∃ s : State, s.dev.st.idleToHold = true ∧ s.dev.aba.lines < 1024 ∧ s.dev.now < s.dev.aba.since + 10000000) :=
  ⟨⟨on (fun d => { (live .idle d).wr .AB_LADDER_STEP 6 with aba := { d.aba with lines := 1024 } }), by decide +kernel⟩,
    ⟨on (fun d => atNs 10000000 ((live .idle d).wr .AB_LADDER_STEP 6)), by decide +kernel⟩,
    ⟨on (live .safe), by decide +kernel⟩, ⟨on (live .printing), by decide +kernel⟩⟩

theorem image_hdr : (on (fun d => image (booting .headerRead d))).dev.hdrCheck 0 = .ok := by decide +kernel

theorem image_checks : (on (fun d => image (booting .headerRead d))).dev.imgCheck 0 = (.ok, 0) := by decide +kernel

theorem image_regs : (on (fun d => image (booting .headerRead d))).dev.regsOf 0 = [] := by decide +kernel

theorem noRestart_nil : NoRestart [] := fun _ h => by cases h

/-- Entries of the Abacus restart nothing. -/
theorem noRestart_abacus : NoRestart (([] : List (Nat × Nat)) ++ [] ++ [(0xB00008, 1), (0xB0000C, 1)]) := by
  intro e he r i j h
  have : e = (0xB00008, 1) ∨ e = (0xB0000C, 1) := by simpa using he
  rcases this with rfl | rfl <;> (cases h; decide)

theorem meets_BootTimelineAdvances :
    (∃ s : State, s.dev.bootAt .powerGood = true ∧ s.dev.flag .CR_BOOTSEL_BACKUP = false ∧ s.dev.hdrCheck 0 = .ok) ∧
    (∃ (k : Nat) (s : State), s.dev.bootAt .headerRead = true ∧ s.dev.rd .CR_STAT_IMG < 2 ∧
      s.dev.imgCheck (s.dev.rd .CR_STAT_IMG) = (.ok, k) ∧
      NoRestart ((s.dev.regsOf (s.dev.rd .CR_STAT_IMG)).filter early ++ content.net)) ∧
    (∃ (eyes : List (Byte × Byte)) (s : State), s.dev.bootAt .firstPass = true ∧ eyes.length = 40 ∧
      ∀ e ∈ eyes.take 40, s.dev.rd .MEM_EYEMIN_TAPS ≤ min e.1.toNat e.2.toNat) ∧
    (∃ s : State, s.dev.bootAt .dramTrained = true) ∧
    (∃ (c : CrownContent) (s : State), s.dev.bootAt .secondPass = true ∧ s.dev.boot.content = some c ∧
      contentBad ⟨s.dev.isA32, c, s.dev.regsOf (s.dev.rd .CR_STAT_IMG), settings c (s.dev.regsOf (s.dev.rd .CR_STAT_IMG))⟩ = none) ∧
    (∃ (c : CrownContent) (s : State), s.dev.bootAt .contentChecked = true ∧ s.dev.boot.content = some c ∧
      NoRestart ((s.dev.regsOf (s.dev.rd .CR_STAT_IMG)).filter later ++ c.ring)) ∧
    (∃ s : State, s.dev.bootAt .released = true ∧ NoRestart ((s.dev.regsOf (s.dev.rd .CR_STAT_IMG)).filter forDpCfg)) ∧
    (∃ (c : CrownContent) (s : State), s.dev.bootAt .rodsBuilt = true ∧ s.dev.boot.content = some c ∧
      NoRestart (c.cams.flatMap (fun x => x.2) ++ c.axes ++ c.abacus)) := by
  refine ⟨⟨on (fun d => image (booting .powerGood d)), by decide +kernel, by decide +kernel, by decide +kernel⟩,
    ⟨0, on (fun d => image (booting .headerRead d)), by decide +kernel, by decide +kernel, image_checks, ?_⟩,
    ⟨List.replicate 40 (255, 255), on (booting .firstPass), by decide +kernel, rfl,
      fun e he => by rw [List.eq_of_mem_replicate (List.mem_of_mem_take he)]; decide +kernel⟩, ⟨on (booting .dramTrained), by decide +kernel⟩,
    ⟨content, on (booting .secondPass), by decide +kernel⟩, ⟨content, on (booting .contentChecked), by decide +kernel, rfl, noRestart_nil⟩,
    ⟨on (booting .released), by decide +kernel, noRestart_nil⟩, ⟨content, on (booting .rodsBuilt), by decide +kernel, rfl, noRestart_abacus⟩⟩
  rw [show (on (fun d => image (booting .headerRead d))).dev.rd .CR_STAT_IMG = 0 by decide +kernel, image_regs]
  exact noRestart_nil

theorem meets_BootFailures :
    (∃ s : State, s.dev.bootAt .headerRead = true ∧ s.dev.rd .CR_STAT_IMG = 2) ∧
    (∃ (bad : List U16) (s : State), s.dev.bootAt .dramTrained = true ∧
      ∃ r ∈ s.dev.recs (s.dev.rd .CR_STAT_IMG), secondPassReads r.type = true ∧ r.type ∈ bad.map (·.toNat)) ∧
    (∃ (c : CrownContent) (ty : Nat) (s : State), s.dev.bootAt .secondPass = true ∧ s.dev.boot.content = some c ∧
      contentBad ⟨s.dev.isA32, c, s.dev.regsOf (s.dev.rd .CR_STAT_IMG), settings c (s.dev.regsOf (s.dev.rd .CR_STAT_IMG))⟩ = some ty ∧
      s.dev.rd .CR_STAT_IMG = 0) ∧
    (∃ (c : CrownContent) (ty : Nat) (s : State), s.dev.bootAt .secondPass = true ∧ s.dev.boot.content = some c ∧
      contentBad ⟨s.dev.isA32, c, s.dev.regsOf (s.dev.rd .CR_STAT_IMG), settings c (s.dev.regsOf (s.dev.rd .CR_STAT_IMG))⟩ = some ty ∧
      s.dev.rd .CR_STAT_IMG = 1) ∧
    (∃ (eyes : List (Byte × Byte)) (s : State), s.dev.bootAt .firstPass = true ∧ eyes.length = 40 ∧
      ∃ e ∈ eyes.take 40, min e.1.toNat e.2.toNat < s.dev.rd .MEM_EYEMIN_TAPS) ∧
    (∃ s : State, s.dev.bootAt .powerGood = false ∧ s.dev.bootAt .headerRead = false ∧ s.dev.bootAt .dramTrained = false ∧
      s.dev.bootAt .secondPass = false ∧ s.dev.bootAt .contentChecked = false ∧ s.dev.bootAt .released = false ∧
      s.dev.bootAt .rodsBuilt = false) :=
  ⟨⟨on (fun d => (booting .headerRead d).wr .CR_STAT_IMG 2), by decide +kernel⟩,
    ⟨[2], on (fun d => image (booting .dramTrained d)), by decide +kernel, by decide +kernel⟩,
    ⟨default, 6, on (fun d => { booting .secondPass d with boot := { (booting .secondPass d).boot with content := some default } }), by decide +kernel⟩,
    ⟨default, 6, on (fun d => ({ booting .secondPass d with boot := { (booting .secondPass d).boot with content := some default } } : Dev).wr .CR_STAT_IMG 1),
      by decide +kernel⟩,
    ⟨List.replicate 40 (0, 255), on (fun d => (booting .firstPass d).wr .MEM_EYEMIN_TAPS 1), by decide +kernel⟩,
    ⟨on (booting .firstPass), by decide +kernel⟩⟩

/-- A request reaches its effect: the check in one piece. -/
theorem takes_of {d : Dev} {h : XppHdr} {q : XppReq} {r : Role}
    (x : decide ((d.receive ⟨h, q⟩).2 = .got r ∧ d.refusal d.st r q = none ∧ d.inhibited q = false ∧
      ((d.shutDue.isSome || d.holdDue) && reqOrdersState q) = false) = true) : d.Takes h q r :=
  by unfold Dev.Takes; exact of_decide_eq_true x

/-- A job of one line in a state. -/
def aJob (st : JobState) (n : Nat) : Job := { (default : Job) with jn := n, st := st, rec? := some default }

/-- The block with jobs. -/
def withJobs (js : List Job) (d : Dev) : Dev := { d with jobs := js }

theorem meets_PressProtocolService :
    (∃ (h : XppHdr) (s : State), s.dev.Takes h .hello .pc) ∧ (∃ (h : XppHdr) (r : Role) (s : State), s.dev.Takes h .heartbeat r) ∧
    (∃ (h : XppHdr) (seq : U32) (r : Role) (s : State), s.dev.Takes h (.noteResend seq) r ∧ s.dev.keptGone r seq.toNat = false ∧
      s.dev.up r = true ∧ (s.dev.peer r).kept.length ≤ 1024) ∧
    (∃ (h : XppHdr) (jn : U32) (j : Job) (r : Role) (s : State), s.dev.Takes h (.jobQuery jn) r ∧ s.dev.job jn.toNat = some j) ∧
    (∃ (h : XppHdr) (addrs : List U32) (r : Role) (s : State), s.dev.Takes h (.regRead addrs) r ∧ (Instr.regRead h addrs).wf = true ∧
      addrs.length = 64) ∧
    (∃ (role : Fin 3) (s : State), bitOf (s.dev.rd .XPP_PEER_UP) role.val = true ∧ s.dev.silent role.val = true ∧ role.val = 0 ∧ s.dev.st.running = true) ∧
    (∃ (r : Role) (s : State), s.dev.domOn .net = true ∧ s.dev.up r = true) :=
  ⟨⟨pc, on (live .idle), takes_of (by decide +kernel)⟩, ⟨js, .js, on (live .boot), takes_of (by decide +kernel)⟩,
    ⟨mt, 0, .mt, on (live .safe), takes_of (by decide +kernel), by decide +kernel⟩,
    ⟨js, 7, aJob .loaded 7, .js, on (fun d => withJobs [aJob .loaded 7] (live .idle d)), takes_of (by decide +kernel), by decide +kernel⟩,
    ⟨mt, List.replicate 64 0, .mt, on (live .idle), takes_of (by decide +kernel), by decide +kernel⟩,
    ⟨0, on (fun d => atNs 1000000000000 (live .draining d)), by decide +kernel⟩, ⟨.js, on (live .idle), by decide +kernel⟩⟩

theorem meets_StateOrdersTakeEffect :
    (∃ (h : XppHdr) (jn : U32) (mode : Byte) (origin : BitVec 80) (j : Job) (e : Nat) (o : Int) (r : Role) (s : State),
      s.dev.Takes h (.start jn mode origin) r ∧ s.dev.job jn.toNat = some j ∧ j.st = .loaded ∧ s.dev.freeEntry = some e ∧
      s.dev.startOrigin mode.toNat origin.toInt = some o ∧ s.dev.st = .idle ∧ s.dev.rd .MEM_CTL_CUR = 0) ∧
    (∃ (h : XppHdr) (jn : U32) (mode : Byte) (origin : BitVec 80) (j : Job) (e : Nat) (o : Int) (r : Role) (s : State),
      s.dev.Takes h (.start jn mode origin) r ∧ s.dev.job jn.toNat = some j ∧ j.st = .loaded ∧ s.dev.freeEntry = some e ∧
      s.dev.startOrigin mode.toNat origin.toInt = some o ∧ s.dev.st = .idle ∧ s.dev.rd .MEM_CTL_CUR ≠ 0) ∧
    (∃ (h : XppHdr) (jn : U32) (mode : Byte) (origin : BitVec 80) (j : Job) (e : Nat) (o : Int) (r : Role) (s : State),
      s.dev.Takes h (.start jn mode origin) r ∧ s.dev.job jn.toNat = some j ∧ j.st = .loaded ∧ s.dev.freeEntry = some e ∧
      s.dev.startOrigin mode.toNat origin.toInt = some o ∧ s.dev.st ≠ .idle) ∧
    (∀ x, x = DState.armed ∨ x = .printing ∨ x = .draining → ∃ (h : XppHdr) (r : Role) (s : State), s.dev.Takes h .stop r ∧ s.dev.st = x) ∧
    (∃ (h : XppHdr) (r : Role) (s : State), s.dev.Takes h .hold r) ∧
    (∃ (h : XppHdr) (r : Role) (s : State), s.dev.Takes h .resume r ∧ s.dev.freqWait = false ∧ s.dev.onlyXpp = true ∧ s.dev.skipping = false) ∧
    (∃ (h : XppHdr) (v : U32) (r : Role) (s : State), s.dev.Takes h (.speedLimit v) r) ∧
    (∃ (h : XppHdr) (r : Role) (s : State), s.dev.Takes h .enterSafe r) ∧ (∃ (h : XppHdr) (r : Role) (s : State), s.dev.Takes h .restart r) ∧
    (∃ (h : XppHdr) (rec : LogRec) (r : Role) (s : State), s.dev.Takes h .shutdownAck r ∧ s.dev.uncleared = some rec ∧
      s.dev.tj ≤ 98 * 16 ∧ s.dev.td ≤ 93 * 16 ∧ s.dev.boot.safeBy.filter (· != .record) = []) ∧
    (∃ (h : XppHdr) (rec : LogRec) (r : Role) (s : State), s.dev.Takes h .shutdownAck r ∧ s.dev.uncleared = some rec ∧
      s.dev.tj ≤ 98 * 16 ∧ s.dev.td ≤ 93 * 16 ∧ s.dev.boot.safeBy.filter (· != .record) ≠ []) := by
  refine ⟨⟨pc, 7, 1, 0, aJob .loaded 7, 0, _, .pc, on (fun d => withJobs [aJob .loaded 7] (live .idle d)), takes_of (by decide +kernel),
      by decide +kernel, rfl, by decide +kernel, rfl, by decide +kernel⟩,
    ⟨pc, 7, 1, 0, aJob .loaded 7, 0, _, .pc, on (fun d => (withJobs [aJob .loaded 7] (live .idle d)).wr .MEM_CTL_CUR 1), takes_of (by decide +kernel),
      by decide +kernel, rfl, by decide +kernel, rfl, by decide +kernel⟩,
    ⟨pc, 7, 0, 0x3FFFFFFFFFFFFFFFFFFF, aJob .loaded 7, 0, 0x3FFFFFFFFFFFFFFFFFFF, .pc, on (fun d => withJobs [aJob .loaded 7] (live .printing d)), takes_of (by decide +kernel),
      by decide +kernel, rfl, by decide +kernel, by decide +kernel, by decide +kernel⟩, ?_, ⟨pc, .pc, on (live .armed), takes_of (by decide +kernel)⟩,
    ⟨pc, .pc, on (fun d => (live .hold d).wr .AON_STATE_HOLDC (2 ^ HoldBit.xpp.num)), takes_of (by decide +kernel), by decide +kernel⟩,
    ⟨mt, 0, .mt, on (live .idle), takes_of (by decide +kernel)⟩, ⟨mt, .mt, on (live .idle), takes_of (by decide +kernel)⟩,
    ⟨pc, .pc, on (live .safe), takes_of (by decide +kernel)⟩,
    ⟨pc, ⟨0, le 4 magicShutdown⟩, .pc, on (fun d => { (live .safe d).wr .CR_LOG_BASE_COUNT 1 with nor := { d.nor with log := [⟨0, le 4 magicShutdown⟩] } }),
      takes_of (by decide +kernel), by decide +kernel⟩,
    ⟨pc, ⟨0, le 4 magicShutdown⟩, .pc, on (fun d => { (live .safe d).wr .CR_LOG_BASE_COUNT 1 with
        nor := { d.nor with log := [⟨0, le 4 magicShutdown⟩] }, boot := { (live .safe d).boot with safeBy := [.record, .enterSafe] } }),
      takes_of (by decide +kernel), by decide +kernel⟩⟩
  rintro x (rfl | rfl | rfl)
  · exact ⟨pc, .pc, on (live .armed), takes_of (by decide +kernel), by decide +kernel⟩
  · exact ⟨pc, .pc, on (live .printing), takes_of (by decide +kernel), by decide +kernel⟩
  · exact ⟨pc, .pc, on (live .draining), takes_of (by decide +kernel), by decide +kernel⟩

/-- The block with axis 0 enabled and in a state. -/
def axis (x : AxState) (d : Dev) : Dev := ((live .idle d).wr .AX_CFG_EN 1).axTo 0 x

theorem meets_PressOrdersTakeEffect :
    (∃ (h : XppHdr) (mask : U16) (r : Role) (s : State), s.dev.Takes h (.rkRelease mask) r ∧ bitOf mask.toNat 15 = true ∧ s.dev.mittened 15 = true) ∧
    (∃ (h : XppHdr) (mask : U64) (r : Role) (s : State), s.dev.Takes h (.headClear mask) r ∧ bitOf mask.toNat 63 = true ∧ bitOf mask.toNat 0 = false) ∧
    (∃ (h : XppHdr) (a : Byte) (tgt : U32) (r : Role) (s : State), s.dev.Takes h (.axisTarget a tgt) r ∧ s.dev.axAccepts a.toNat true = true ∧
      s.dev.groupOf a.toNat = none) ∧
    (∃ (h : XppHdr) (a : Byte) (r : Role) (s : State), s.dev.Takes h (.axisHome a) r ∧ s.dev.homing a.toNat = false ∧ s.dev.mayHome a.toNat = true) ∧
    (∃ (h : XppHdr) (slot : Byte) (sp : U16) (en : Byte) (r : Role) (s : State), s.dev.Takes h (.heatSet slot sp en) r ∧ slot.toNat = 63) ∧
    (∀ x, x = JobState.loaded ∨ x = .placed ∨ x = .active → ∃ (h : XppHdr) (jn : U32) (j : Job) (r : Role) (s : State),
      s.dev.Takes h (.jobCancel jn 0) r ∧ s.dev.job jn.toNat = some j ∧ j.st = x ∧ j.finishing = false ∧ j.aborted = false) ∧
    (∀ x, x = JobState.loaded ∨ x = .placed ∨ x = .active → ∃ (h : XppHdr) (jn : U32) (j : Job) (r : Role) (s : State),
      s.dev.Takes h (.jobCancel jn 1) r ∧ s.dev.job jn.toNat = some j ∧ j.st = x ∧ j.finishing = false ∧ j.aborted = false) ∧
    (∃ (h : XppHdr) (jns : List U32) (r : Role) (s : State), s.dev.Takes h (.queueOrder jns) r ∧ (Instr.queueOrder h jns).wf = true ∧
      (jns.map (·.toNat)).Nodup ∧ (∀ n, n ∈ jns.map (·.toNat) ↔ ∃ j ∈ s.dev.jobs, j.st = .loaded ∧ j.jn = n) ∧ (s.dev.jobs.map (·.jn)).Nodup ∧
      jns.length = 2) := by
  refine ⟨⟨pc, 0x8000, .pc, on (fun d => (live .idle d).wr .RKC_MITTEN_MIT 0x8000), takes_of (by decide +kernel), by decide +kernel⟩,
    ⟨pc, 0x8000000000000000, .pc, on (live .idle), takes_of (by decide +kernel), by decide +kernel⟩,
    ⟨pc, 0, 5, .pc, on (axis .homed), takes_of (by decide +kernel), by decide +kernel⟩,
    ⟨pc, 0, .pc, on (axis .unhomed), takes_of (by decide +kernel), by decide +kernel⟩,
    ⟨pc, 63, 400, 1, .pc, on (live .idle), takes_of (by decide +kernel), by decide +kernel⟩, ?_, ?_,
    ⟨js, [9, 7], .js, on (fun d => withJobs [aJob .loaded 7, aJob .active 8, aJob .loaded 9] (live .idle d)), takes_of (by decide +kernel),
      by decide +kernel, by decide +kernel, ?_, by decide +kernel, rfl⟩⟩
  · rintro x (rfl | rfl | rfl)
    · exact ⟨js, 7, _, .js, on (fun d => withJobs [aJob .loaded 7] (live .idle d)), takes_of (by decide +kernel), rfl, rfl, rfl, rfl⟩
    · exact ⟨js, 7, _, .js, on (fun d => withJobs [aJob .placed 7] (live .idle d)), takes_of (by decide +kernel), rfl, rfl, rfl, rfl⟩
    · exact ⟨js, 7, _, .js, on (fun d => withJobs [aJob .active 7] (live .idle d)), takes_of (by decide +kernel), rfl, rfl, rfl, rfl⟩
  · rintro x (rfl | rfl | rfl)
    · exact ⟨js, 7, _, .js, on (fun d => withJobs [aJob .loaded 7] (live .idle d)), takes_of (by decide +kernel), rfl, rfl, rfl, rfl⟩
    · exact ⟨js, 7, _, .js, on (fun d => withJobs [aJob .placed 7] (live .idle d)), takes_of (by decide +kernel), rfl, rfl, rfl, rfl⟩
    · exact ⟨js, 7, _, .js, on (fun d => withJobs [aJob .active 7] (live .idle d)), takes_of (by decide +kernel), rfl, rfl, rfl, rfl⟩
  · intro n
    show n ∈ [9, 7] ↔ ∃ j ∈ [aJob .loaded 7, aJob .active 8, aJob .loaded 9], j.st = .loaded ∧ j.jn = n
    simp [aJob]
    omega

/-- The block in SAFE with PRESENCE# held and a session of the primary span. -/
def inSession (d : Dev) : Dev := (((live .safe d).wr .CR_PRES_PRES 1).wr .CR_PRES_SESSION 1).wr .CR_PRES_SPAN 0

/-- The checks of an image look at the NOR and the variant alone. -/
theorem norRead_congr {d e : Dev} (h : e.nor = d.nor) (a n : Nat) : e.norRead a n = d.norRead a n := by
  unfold Dev.norRead Dev.norByte
  rw [h]

theorem readRecs_congr {d e : Dev} (h : e.nor = d.nor) (img : Nat) : ∀ n ofs left : Nat, e.readRecs img n ofs left = d.readRecs img n ofs left
  | 0, _, _ => rfl
  | n + 1, ofs, left => by
    have hr : e.readRec img ofs left = d.readRec img ofs left := by
      unfold Dev.readRec
      simp only [norRead_congr h]
    unfold Dev.readRecs
    rw [hr]
    simp only [readRecs_congr h img n]

theorem imgCheck_congr {d e : Dev} (h : e.nor = d.nor) (hv : e.variantCode = d.variantCode) (img : Nat) :
    e.imgCheck img = d.imgCheck img := by
  have hh : e.hdr img = d.hdr img := by unfold Dev.hdr; rw [norRead_congr h]
  have hc : e.hdrCheck img = d.hdrCheck img := by unfold Dev.hdrCheck; rw [norRead_congr h, hv]
  unfold Dev.imgCheck Dev.recCheck
  simp only [hc, hh, readRecs_congr h]

theorem image_open : ((on (fun d => image ((live .safe d).wr .CR_PRES_PRES 1))).dev.imgCheck 0).1 = .ok := by
  rw [imgCheck_congr (d := (on (fun d => image (booting .headerRead d))).dev) (e := (on (fun d => image ((live .safe d).wr .CR_PRES_PRES 1))).dev) rfl (by decide +kernel) 0, image_checks]

theorem meets_NvmSessions :
    (∃ (h : XppHdr) (span : Byte) (r : Role) (s : State), s.dev.Takes h (.nvmOpen span) r ∧ s.dev.present = true ∧ s.dev.session = false ∧
      (s.dev.imgCheck (1 - span.toNat)).1 = .ok) ∧
    (∃ (h : XppHdr) (ofs : U32) (n : U16) (r : Role) (s : State), s.dev.Takes h (.nvmErase ofs n) r ∧ s.dev.present = true ∧
      s.dev.session = true ∧ ofs.toNat % 65536 = 0 ∧ s.dev.inSpan ofs.toNat (n.toNat * 65536) = true ∧ n.toNat = 480) ∧
    (∃ (h : XppHdr) (ofs : U32) (data : List Byte) (r : Role) (s : State), s.dev.Takes h (.nvmWrite ofs data) r ∧
      (Instr.nvmWrite h ofs data).wf = true ∧ s.dev.present = true ∧ s.dev.session = true ∧ s.dev.inSpan ofs.toNat data.length = true ∧
      data.length = 1024) ∧
    (∃ (h : XppHdr) (ofs len : U32) (r : Role) (s : State), s.dev.Takes h (.nvmCrc ofs len) r ∧ ofs.toNat + len.toNat = 2 ^ 29) ∧
    (∃ (h : XppHdr) (r : Role) (s : State), s.dev.Takes h .nvmClose r ∧ s.dev.present = true ∧ s.dev.session = true ∧ s.dev.rd .CR_PRES_LOCK = 0) ∧
    (∃ (h : XppHdr) (r : Role) (s : State), s.dev.Takes h .nvmClose r ∧ s.dev.present = true ∧ s.dev.session = true ∧
      s.dev.rd .CR_PRES_LOCK ≠ 0 ∧ (s.dev.hdr (s.dev.rd .CR_PRES_SPAN)).lock = false) ∧
    (∃ (h : XppHdr) (r : Role) (s : State), s.dev.present = false ∧ s.dev.Takes h (.nvmOpen 1) r ∧ s.dev.Takes h (.nvmErase 0 1) r ∧
      s.dev.Takes h .nvmClose r ∧ s.dev.Takes h .debugEnable r ∧ s.dev.Takes h (.lockSet 1) r ∧ s.dev.Takes h .logErase r) :=
  ⟨⟨mt, 1, .mt, on (fun d => image ((live .safe d).wr .CR_PRES_PRES 1)), takes_of (by decide +kernel), by decide +kernel, by decide +kernel, image_open⟩,
    ⟨mt, 0, 480, .mt, on inSession, takes_of (by decide +kernel), by decide +kernel⟩,
    ⟨mt, 31456256, List.replicate 1024 0, .mt, on inSession, takes_of (by decide +kernel), by decide +kernel⟩,
    ⟨mt, 0, 0x20000000, .mt, on (live .idle), takes_of (by decide +kernel), by decide +kernel⟩,
    ⟨mt, .mt, on inSession, takes_of (by decide +kernel), by decide +kernel⟩,
    ⟨mt, .mt, on (fun d => image ((inSession d).wr .CR_PRES_LOCK 1)), takes_of (by decide +kernel), by decide +kernel⟩,
    ⟨mt, .mt, on (live .idle), by decide +kernel, takes_of (by decide +kernel), takes_of (by decide +kernel), takes_of (by decide +kernel),
      takes_of (by decide +kernel), takes_of (by decide +kernel), takes_of (by decide +kernel)⟩⟩

theorem meets_NvmLockLogPresence :
    (∃ (h : XppHdr) (r : Role) (s : State), s.dev.Takes h .debugEnable r ∧ s.dev.present = true ∧ s.dev.rd .CR_PRES_LOCK = 0 ∧
      s.dev.rd .CR_PRES_DBG = 0) ∧
    (∃ (h : XppHdr) (r : Role) (s : State), s.dev.Takes h .debugEnable r ∧ s.dev.present = true ∧ s.dev.rd .CR_PRES_LOCK ≠ 0) ∧
    (∃ (h : XppHdr) (r : Role) (s : State), s.dev.Takes h .debugDisable r) ∧
    (∃ (h : XppHdr) (l : Byte) (r : Role) (x : CrownHdr) (s : State), s.dev.Takes h (.lockSet l) r ∧ s.dev.present = true ∧ s.dev.boot.hdr = some x) ∧
    (∃ (h : XppHdr) (index : U32) (n : Byte) (r : Role) (s : State), s.dev.Takes h (.logRead index n) r ∧ index.toNat + 1 = s.dev.logRecs.length ∧
      n.toNat = 16) ∧
    (∃ (h : XppHdr) (r : Role) (s : State), s.dev.Takes h .logErase r ∧ s.dev.present = true ∧ s.dev.uncleared = none ∧ s.dev.rd .AON_PWR_WARN = 0) ∧
    (∃ (h : XppHdr) (r : Role) (s : State), s.dev.Takes h .logErase r ∧ s.dev.present = true ∧ s.dev.uncleared ≠ none) ∧
    (∃ s : State, s.dev.session = true) :=
  ⟨⟨mt, .mt, on inSession, takes_of (by decide +kernel), by decide +kernel⟩,
    ⟨mt, .mt, on (fun d => (inSession d).wr .CR_PRES_LOCK 1), takes_of (by decide +kernel), by decide +kernel⟩,
    ⟨mt, .mt, on (live .idle), takes_of (by decide +kernel)⟩,
    ⟨mt, 1, .mt, default, on (fun d => { inSession d with boot := { (inSession d).boot with hdr := some default } }), takes_of (by decide +kernel),
      by decide +kernel⟩,
    ⟨mt, 0, 16, .mt, on (fun d => { (live .printing d).wr .CR_LOG_BASE_COUNT 1 with nor := { d.nor with log := [⟨0, le 4 magicFatal⟩] } }),
      takes_of (by decide +kernel), by decide +kernel⟩,
    ⟨mt, .mt, on inSession, takes_of (by decide +kernel), by decide +kernel⟩,
    ⟨mt, .mt, on (fun d => { (inSession d).wr .CR_LOG_BASE_COUNT 1 with nor := { d.nor with log := [⟨0, le 4 magicShutdown⟩] } }),
      takes_of (by decide +kernel), by decide +kernel⟩,
    ⟨on inSession, by decide +kernel⟩⟩

theorem meets_RequestsNotCarriedOut :
    (∃ (c : Instr) (x : XppIn) (r : Role) (s : State), requestOf c = some x ∧ (s.dev.receive x).2 = .got r ∧
      s.dev.refusal s.dev.st r x.req = some .malformed ∧ reqWhole x.req = false) ∧
    (∃ (c : Instr) (x : XppIn) (r : Role) (s : State), requestOf c = some x ∧ (s.dev.receive x).2 = .got r ∧
      s.dev.refusal s.dev.st r x.req = some .source ∧ reqWhole x.req = true ∧ reqFrom x.req r = false) ∧
    (∃ (c : Instr) (x : XppIn) (r : Role) (s : State), requestOf c = some x ∧ (s.dev.receive x).2 = .got r ∧
      s.dev.refusal s.dev.st r x.req = some .state) ∧
    (∃ (c : Instr) (x : XppIn) (r : Role) (s : State), requestOf c = some x ∧ (s.dev.receive x).2 = .got r ∧
      s.dev.refusal s.dev.st r x.req = some .range) ∧
    (∃ (c : Instr) (x : XppIn) (r : Role) (s : State), requestOf c = some x ∧ (s.dev.receive x).2 = .got r ∧
      s.dev.refusal s.dev.st r x.req = none ∧ ((s.dev.shutDue.isSome || s.dev.holdDue) && reqOrdersState x.req) = true) ∧
    (∃ (c : Instr) (x : XppIn) (r : Role) (s : State), requestOf c = some x ∧ (s.dev.receive x).2 = .got r ∧
      s.dev.refusal s.dev.st r x.req = none ∧ ((s.dev.shutDue.isSome || s.dev.holdDue) && reqOrdersState x.req) = false ∧
      s.dev.inhibited x.req = true) ∧
    (∃ (c : Instr) (x : XppIn) (s : State), requestOf c = some x ∧ x.req.wf = false ∧ s.dev.domOn .net = true ∧ s.dev.noNet = false) ∧
    (∃ (c : Instr) (x : XppIn) (r : Role) (s : State), requestOf c = some x ∧ (s.dev.receive x).2 = .dup r ∧
      ∃ m a, ((s.dev.receive x).1.peer r).accepted.find? (fun a => a.seq = x.hdr.seq.toNat) = some a ∧ a.resp = some m ∧
        (s.dev.receive x).1.up r = true) :=
  ⟨⟨.regRead mt (List.replicate 65 0), _, .mt, on (live .idle), rfl, by decide +kernel⟩,
    ⟨.stop js, _, .js, on (live .printing), rfl, by decide +kernel⟩, ⟨.stop pc, _, .pc, on (live .idle), rfl, by decide +kernel⟩,
    ⟨.axisHome pc 16, _, .pc, on (live .idle), rfl, by decide +kernel⟩,
    ⟨.stop pc, _, .pc, on (fun d => { live .armed d with holdSeen := 1 }), rfl, by decide +kernel⟩,
    ⟨.axisHome pc 15, _, .pc, on (fun d => (live .idle d).wr .AON_STATE_HOLDC (2 ^ HoldBit.inhibit.num)), rfl, by decide +kernel⟩,
    ⟨.regRead mt (List.replicate 360 0), _, on (live .idle), rfl, by decide +kernel⟩,
    ⟨.heartbeat pc, _, .pc, on (fun d => (live .idle d).setPeer .pc { (d.peer .pc) with ref := some 1, accepted := [⟨1, some (.ack 1 [])⟩] }), rfl,
      by decide +kernel, .ack 1 [], _, rfl, rfl, by decide +kernel⟩⟩

/-- One product of one line. -/
def oneLine : JobRec := { (default : JobRec) with products := 1, prodLines := 1 }

/-- A job of one product of one line placed at the origin in entry 0. -/
def placed (d : Dev) : Dev :=
  let d := (((d.wr .FIRE_PL_ORGH_VALID 1).wr .FIRE_PL_JN_JN 7).wr .FIRE_PL_PITI_INT 1).wr .FIRE_PL_LINES_L 1
  { withJobs [{ aJob .placed 7 with rec? := some oneLine }] d with
    fire := { d.fire with order := [0], barPitch := [(0, 2 ^ 32)] } }

theorem meets_EvaluationPeriodEndTakesEffect :
    (∃ (reqs : List XppIn) (s : State), s.dev.st ≠ .off ∧ reqs.length = 2) ∧
    (∃ (x : XppIn) (s : State), reqOrdersState x.req = true ∧ s.dev.st.running = true ∧ s.dev.shutDue = none ∧ s.dev.holdSeen ≠ 0) ∧
    (∃ s : State, s.dev.st.running = true ∧ s.dev.shutDue = none ∧ ∃ h : HoldBit, h ≠ .underrun ∧ s.dev.held h = true) ∧
    (∃ s : State, s.dev.holdSeen = 0 ∧ s.dev.rd .AON_STATE_HOLDC = 0 ∧ s.dev.st = .armed ∧ s.dev.clearUnderrun.retireSent.reachedFirst = true) ∧
    (∃ s : State, s.dev.holdSeen = 0 ∧ s.dev.rd .AON_STATE_HOLDC = 0 ∧ s.dev.st = .printing ∧ s.dev.clearUnderrun.retireSent.bar0Busy = true) ∧
    (∃ s : State, s.dev.holdSeen = 0 ∧ s.dev.rd .AON_STATE_HOLDC = 0 ∧ s.dev.st = .printing ∧ s.dev.clearUnderrun.retireSent.bar0Busy = false) ∧
    (∃ s : State, s.dev.holdSeen = 0 ∧ s.dev.rd .AON_STATE_HOLDC = 0 ∧ s.dev.st = .draining ∧
      s.dev.clearUnderrun.retireSent.firstUnstarted.isSome = true) ∧
    (∃ s : State, s.dev.holdSeen = 0 ∧ s.dev.rd .AON_STATE_HOLDC = 0 ∧ s.dev.st = .draining ∧
      s.dev.clearUnderrun.retireSent.firstUnstarted = none ∧ s.dev.clearUnderrun.retireSent.allFired = true) :=
  ⟨⟨[⟨pc, .stop⟩, ⟨mt, .heartbeat⟩], on (live .armed), by decide +kernel⟩,
    ⟨⟨pc, .stop⟩, on (fun d => { live .printing d with holdSeen := 1 }), by decide +kernel⟩,
    ⟨on (fun d => (live .printing d).wr .AON_STATE_HOLDC 1), by decide +kernel, rfl, .pin, by decide +kernel, by decide +kernel⟩,
    ⟨on (fun d => placed (live .armed d)), by decide +kernel⟩, ⟨on (fun d => (live .printing d).setDue 0 (some (7, 0))), by decide +kernel⟩,
    ⟨on (live .printing), by decide +kernel⟩, ⟨on (fun d => placed (live .draining d)), by decide +kernel⟩, ⟨on (live .draining), by decide +kernel⟩⟩

theorem meets_DiscreteInputs :
    (∃ s : State, s.dev.flag .XPP_DIN_HOLD = false ∧ s.dev.flag .XPP_DIN_INH = false ∧ s.dev.st ≠ .off) ∧
    (∃ s : State, s.dev.flag .XPP_DIN_HOLD = true ∧ s.dev.flag .XPP_DIN_INH = true ∧ s.dev.st ≠ .off) :=
  ⟨⟨on (live .idle), by decide +kernel⟩, ⟨on (fun d => ((live .idle d).wr .XPP_DIN_HOLD 1).wr .XPP_DIN_INH 1), by decide +kernel⟩⟩

theorem meets_AbsentResourcesRefused :
    ∀ c, c = Instr.axisTarget pc 16 0 ∨ c = .axisHome pc 16 ∨ c = .heatSet pc 64 0 0 → ∃ (x : XppIn) (r : Role) (s : State),
      requestOf c = some x ∧ (s.dev.receive x).2 = .got r ∧ reqWhole x.req = true ∧ reqFrom x.req r = true ∧
      reqState x.req s.dev.st = true ∧ s.dev.runs .sv0 = true ∧ s.dev.namesAbsent x.req = true := by
  rintro c (rfl | rfl | rfl)
  all_goals exact ⟨_, .pc, on (live .hold), rfl, by decide +kernel⟩

/-- On the A32, lane 32 is absent. -/
theorem meets_AbsentResourcesRefused_a32 : ∃ (x : XppIn) (r : Role) (s : State),
    requestOf (.headClear pc 0x100000000) = some x ∧ (s.dev.receive x).2 = .got r ∧ reqWhole x.req = true ∧ reqFrom x.req r = true ∧
      reqState x.req s.dev.st = true ∧ s.dev.runs .sv0 = true ∧ s.dev.namesAbsent x.req = true :=
  ⟨_, .pc, on (fun d => { live .hold d with variant := .a32 }), rfl, by decide +kernel⟩

theorem meets_IndexWithinTolerance : ∃ (level : Bool) (s : State), s.dev.flag .FIRE_ENC_IDXEN = true ∧ level ≠ s.dev.flag .FIRE_SPDSTAT_DIR ∧
    s.dev.flag .FIRE_IDXREF_HI_SET = true ∧
    (let diff := pdiff s.dev.fire.cnt s.dev.xref
     let dev := diff - roundAway diff (s.dev.rd .FIRE_CPR_CPR) * s.dev.rd .FIRE_CPR_CPR
     dev.natAbs = s.dev.rd .FIRE_IDXCFG_TOL) :=
  ⟨true, on (fun d => { ((((live .idle d).wr .FIRE_ENC_IDXEN 1).wr .FIRE_IDXREF_HI_SET 1).wr .FIRE_CPR_CPR 1000) with
    fire := { d.fire with cnt := 1002 } }), by decide +kernel⟩

/-- A bulk header (02, Table 2-1) for JN 7 of source 2, with its `CRC`: a new job, and the continuation of one. -/
def bulkNew : List Byte := le 8 0 ++ le 4 7 ++ le 4 2 ++ le 12 0 ++ le 4 2465623127
def bulkCont : List Byte := le 4 0 ++ le 2 0 ++ le 2 1 ++ le 4 7 ++ le 4 2 ++ le 12 0 ++ le 4 3471016675

/-- A PALETTE record of palette 1 without entries, JN 7, SEQ 1 (02, R25, Table 2-4), with its `CRC`. -/
def recPalette : List Byte := le 2 2 ++ le 2 1 ++ le 4 4 ++ le 4 7 ++ le 4 1 ++ le 4 1 ++ le 4 419687563

/-- A JOB record without payload, JN 7, SEQ 3 (02, R25), with its `CRC`. -/
def recSeq3 : List Byte := le 2 1 ++ le 2 1 ++ le 4 0 ++ le 4 7 ++ le 4 3 ++ le 4 2080394863

theorem meets_BulkConnectionsAndRecords :
    (∃ (conn : Fin 8) (h : List Byte) (s : State), wfBulk h = true ∧ s.dev.st.idleToHold = true ∧ (∀ c ∈ s.dev.conns, c.idx ≠ conn.val) ∧
      (crc32c (h.take 28)).toNat = fieldAt h 28 4 ∧ s.dev.rd .XPP_ID_ID 1 ≠ 0 ∧ fieldAt h 12 4 = s.dev.rd .XPP_ID_ID 1 ∧
      s.dev.job (fieldAt h 8 4) = none ∧ bitOf (fieldAt h 6 2) 0 = false ∧ fieldAt h 8 4 ∉ s.dev.ended ∧ s.dev.jobs.length = 15) ∧
    (∃ (conn : Fin 8) (h : List Byte) (s : State), wfBulk h = true ∧ s.dev.st.idleToHold = true ∧ (∀ c ∈ s.dev.conns, c.idx ≠ conn.val) ∧
      (crc32c (h.take 28)).toNat = fieldAt h 28 4 ∧ s.dev.rd .XPP_ID_ID 1 ≠ 0 ∧ fieldAt h 12 4 = s.dev.rd .XPP_ID_ID 1 ∧
      (s.dev.job (fieldAt h 8 4)).isSome = true ∧ bitOf (fieldAt h 6 2) 0 = true) ∧
    (∃ (conn : Fin 8) (h : List Byte) (s : State), wfBulk h = true ∧ s.dev.st.idleToHold = true ∧ (∀ c ∈ s.dev.conns, c.idx ≠ conn.val) ∧
      (crc32c (h.take 28)).toNat ≠ fieldAt h 28 4) ∧
    (∃ (conn : Fin 8) (bytes : List Byte) (c : Conn) (j j' : Job) (r : RawRec) (s : State), s.dev.st.idleToHold = true ∧
      s.dev.conns.find? (fun c => c.idx = conn.val) = some c ∧ c.holes = [] ∧ c.poison = false ∧ readRecord bytes = some r ∧ r.jn = c.jn ∧
      s.dev.job c.jn = some j ∧ j.st = .receiving ∧ j.heldAt r.seq = none ∧ j.orderOk r (fieldAt r.payload 0 4) = true ∧
      s.dev.storeUsed + r.len ≤ s.dev.storeSize ∧ r.type ≠ .job ∧ r.type ≠ .product ∧ r.type ≠ .endRec ∧
      Job.withContent { j with recvAt := s.dev.now } r = some j' ∧ j'.stray = false ∧ (∀ h ∈ j.held, h.type ≠ RecType.product.code) ∧
      j.endRec? = none) ∧
    (∃ (conn : Fin 8) (c : Conn) (s : State), s.dev.st.idleToHold = true ∧
      s.dev.conns.find? (fun c => c.idx = conn.val) = some c ∧ c.holes ≠ []) ∧
    (∃ (conn : Fin 8) (c : Conn) (s : State), s.dev.st.idleToHold = true ∧
      s.dev.conns.find? (fun c => c.idx = conn.val) = some c ∧ c.poison = true) ∧
    (∃ (conn : Fin 8) (bytes : List Byte) (c : Conn) (r : RawRec) (s : State), s.dev.st.idleToHold = true ∧
      s.dev.conns.find? (fun c => c.idx = conn.val) = some c ∧ c.poison = false ∧ c.holes = [] ∧ readRecord bytes = some r ∧ r.jn = c.jn ∧
      ∃ j h, s.dev.job c.jn = some j ∧ j.heldAt r.seq = some h ∧ h.crc = r.crc) ∧
    (∃ (conn : Fin 8) (bytes : List Byte) (c : Conn) (r : RawRec) (s : State), s.dev.st.idleToHold = true ∧
      s.dev.conns.find? (fun c => c.idx = conn.val) = some c ∧ c.poison = false ∧ c.holes = [] ∧ readRecord bytes = some r ∧ r.jn ≠ c.jn) ∧
    (∃ (jn : U32) (j : Job) (s : State), s.dev.job jn.toNat = some j ∧ j.st = .receiving ∧ s.dev.st.idleToHold = true ∧
      s.dev.passed j.recvAt s.dev.recvTimeout = true) :=
  ⟨⟨7, bulkNew, on (fun d => withJobs ((List.range 15).map (fun k => aJob .loaded (100 + k))) (live .idle d)), by decide +kernel⟩,
    ⟨7, bulkCont, on (fun d => withJobs [aJob .receiving 7] (live .hold d)), by decide +kernel⟩,
    ⟨0, List.replicate 32 0, on (live .idle), by decide +kernel⟩,
    ⟨0, recPalette, ⟨0, 7, false, [], false⟩, aJob .receiving 7, { aJob .receiving 7 with palette := some (1, []) },
      ⟨.palette, 7, 1, 419687563, 24, le 4 1⟩,
      on (fun d => { withJobs [aJob .receiving 7] (live .idle d) with
        conns := [⟨0, 7, false, [], false⟩], boot := { (live .idle d).boot with content := some { content with store := 24 } } }), by decide +kernel⟩,
    ⟨0, ⟨0, 7, false, [0], false⟩, on (fun d => { live .idle d with conns := [⟨0, 7, false, [0], false⟩] }), by decide +kernel⟩,
    ⟨0, ⟨0, 7, false, [], true⟩, on (fun d => { live .idle d with conns := [⟨0, 7, false, [], true⟩] }), by decide +kernel⟩,
    ⟨0, recSeq3, ⟨0, 7, false, [], false⟩, ⟨.job, 7, 3, 2080394863, 20, []⟩,
      on (fun d => { withJobs [{ aJob .receiving 7 with held := [⟨3, 1, 2080394863, 20, 0⟩] }] (live .idle d) with
        conns := [⟨0, 7, false, [], false⟩] }),
      by decide +kernel, by decide +kernel, by decide +kernel, by decide +kernel, by decide +kernel, rfl, _, _, rfl, rfl, rfl⟩,
    ⟨0, recSeq3, ⟨0, 8, false, [], false⟩, ⟨.job, 7, 3, 2080394863, 20, []⟩,
      on (fun d => { live .idle d with conns := [⟨0, 8, false, [], false⟩] }), by decide +kernel⟩,
    ⟨7, aJob .receiving 7, on (fun d => atNs 10000000000 (withJobs [aJob .receiving 7] (live .idle d))), by decide +kernel⟩⟩

/-- A LOADED job with `CHAIN` 1. -/
def chained (n : Nat) : Job := { aJob .loaded n with rec? := some { (default : JobRec) with products := 1, prodLines := 1, chain := true } }

theorem meets_PlacementTakesEffect :
    (∃ (s : State) (jn : Nat) (r : JobRec) (e : Nat), s.dev.st.idleToHold = true ∧ (∀ p, s.dev.lastPlaced = some p → s.dev.rk.committed.elem p.jn = true) ∧
      s.dev.chainHead = some (jn, r) ∧ s.dev.freeEntry = some e ∧ ∃ j, s.dev.job jn = some j ∧ j.rec? = some r) ∧
    (∃ s : State, s.dev.st.idleToHold = true ∧ s.dev.chainHead = none) ∧
    (∃ s : State, s.dev.st.idleToHold = true ∧ s.dev.freeEntry = none) ∧
    (∃ (s : State) (p : Pl), s.dev.st.idleToHold = true ∧ s.dev.lastPlaced = some p ∧
      s.dev.fromF p.end' ≤ s.dev.fromF (s.dev.reserveOrigin p.pitch)) ∧
    (∃ (lvl : Lvl) (e : Fin 4) (lines : U32) (p : Pl) (j : Job) (r : JobRec) (s : State), s.dev.Reaches lvl (0x600418 + 0x20 * e.val) ∧
      s.dev.pl e.val = some p ∧ s.dev.job p.jn = some j ∧ j.rec? = some r ∧
      lvl.val = 3 ∧ 0 < r.pitch ∧ lines.toNat % r.pitch = 0 ∧ lines.toNat < p.lines ∧ j.started * r.pitch ≤ lines.toNat) ∧
    (∃ (lvl : Lvl) (e : Fin 4) (lines : U32) (p : Pl) (j : Job) (r : JobRec) (s : State), s.dev.Reaches lvl (0x600418 + 0x20 * e.val) ∧
      s.dev.pl e.val = some p ∧ s.dev.job p.jn = some j ∧ j.rec? = some r ∧ ¬ lines.toNat < p.lines) :=
  ⟨⟨on (fun d => withJobs [chained 7] (live .idle d)), 7, _, 0, by decide +kernel,
      (fun p h => nomatch h),
      rfl, by decide +kernel, chained 7, rfl, rfl⟩,
    ⟨on (live .idle), by decide +kernel⟩,
    ⟨on (fun d => (((((live .idle d).wr .FIRE_PL_ORGH_VALID 1 0).wr .FIRE_PL_ORGH_VALID 1 1).wr .FIRE_PL_ORGH_VALID 1 2).wr .FIRE_PL_ORGH_VALID 1 3)),
      by decide +kernel⟩,
    ⟨on (fun d => (placed (live .idle d)).wr .RW_LEADREQ_COUNTS 1), ⟨0, 7, 0, 2 ^ 32, 1⟩, by decide +kernel⟩,
    ⟨3, 0, 0, ⟨0, 7, 0, 2 ^ 32, 1⟩, _, _, on (fun d => placed (live .idle d)), ⟨by decide +kernel, _, _, _, rfl, by decide +kernel, by decide +kernel⟩,
      by decide +kernel, rfl, rfl, by decide +kernel⟩,
    ⟨3, 0, 1, ⟨0, 7, 0, 2 ^ 32, 1⟩, _, _, on (fun d => placed (live .idle d)), ⟨by decide +kernel, _, _, _, rfl, by decide +kernel, by decide +kernel⟩,
      by decide +kernel, rfl, rfl, by decide +kernel⟩⟩

/-- Work of a kind on a ring, executed or not. -/
def aWork (k : WorkKind) (ring : Nat) (exec : Option Nat) : Work := { (default : Work) with id := ⟨7, none, 0, 0⟩, ring := ring, kind := k, wit := 9, exec := exec }

/-- The block with work for the Reckoners, all of them active. -/
def working (w : List Work) (d : Dev) : Dev :=
  let d := ((live .printing d).wr .RKC_ACTIVE_ACT 0xFFFF).wr .RKC_ACTIVE_COUNT 16
  { d.wr .RKC_CTL_STEAL_EN 1 with rk := { d.rk with work := w } }

/-- The block at a third render: the tile and its witness record stand, all renderings agree. -/
def third (d : Dev) : Dev :=
  let d := working [aWork .third 15 (some 15)] d
  { withJobs [{ aJob .active 7 with rec? := some { (default : JobRec) with products := 1, prodLines := 16 } }] d with
    rk := { d.rk with tiles := [{ (default : TileRec) with id := ⟨7, none, 0, 0⟩ }], wits := [{ (default : WitRec) with id := ⟨7, none, 0, 0⟩ }] } }

theorem meets_RenderWorkTakesEffect :
    (∃ (seeds : List U32) (s : State), seeds.length = 64 ∧ s.dev.st.idleToHold = true ∧ s.dev.runs .sv0 = true) ∧
    (∃ (rk : RkNo) (ring : Nat) (w : Work) (s : State), s.dev.flag .RKC_CTL_STEAL_EN = true ∧ s.dev.rkActive rk.val = true ∧
      s.dev.busyRk rk.val = false ∧ s.dev.halves rk.val < 2 ∧ (∀ x ∈ s.dev.rk.work, ¬(x.ring = rk.val ∧ s.dev.canStart rk.val x = true)) ∧
      s.dev.fullest ((List.range 16).filter (fun r => (s.dev.stealable rk.val r).isSome)) = some ring ∧ s.dev.stealable rk.val ring = some w) ∧
    (∀ k : WorkKind, ∃ (rk : RkNo) (s : State) (w : Work), s.dev.execOf rk.val k = some w) ∧
    (∀ k : WorkKind, ∃ (rk : RkNo) (s : State), s.dev.execOf rk.val k = none) ∧
    (∃ (rk : RkNo) (out : TileOut) (w : Work) (s : State), s.dev.execOf rk.val .third = some w ∧
      (∀ x ∈ s.dev.rk.work, x.exec = some rk.val → x = w) ∧ ∃ tile j r x,
      (s.dev.finishWork rk.val w).tileOf w.id = some tile ∧ (s.dev.finishWork rk.val w).job tile.id.jn = some j ∧ j.rec? = some r ∧
      (s.dev.finishWork rk.val w).rk.wits.find? (fun x => x.id = tile.id) = some x ∧
      j.agree r tile.id tile.out.diff out.diff ((s.dev.finishWork rk.val w).inTile r tile) = true) :=
  ⟨⟨List.replicate 64 0, on (live .printing), by decide +kernel⟩,
    ⟨15, 0, aWork .render 0 none, on (working [aWork .render 0 none]), by decide +kernel⟩,
    fun k => ⟨15, on (working [aWork k 15 (some 15)]), aWork k 15 (some 15), by cases k <;> decide +kernel⟩,
    fun k => ⟨0, on (working []), by cases k <;> decide +kernel⟩,
    ⟨15, ⟨[], []⟩, aWork .third 15 (some 15), on third, by decide +kernel, by decide +kernel, _, _, _, _, rfl, rfl, rfl, rfl, rfl⟩⟩

theorem meets_ReckonerFailures :
    (∃ (rk : RkNo) (cause : TrapCause) (s : State), s.dev.rkActive rk.val = true ∧ cause ≠ .fetch) ∧
    (∃ (rk : RkNo) (w : Work) (s : State), s.dev.rkActive rk.val = true ∧ s.dev.anyExec rk.val = some w) ∧
    (∃ (rk : RkNo) (w : Work) (s : State), s.dev.anyExec rk.val = some w ∧ s.dev.passed w.since (1000 * s.dev.rd .RKC_CTL_WDOG) = true) ∧
    (∃ (rk : RkNo) (t0 : Nat) (s : State), Tab.at s.dev.rk.strikes rk.val = some t0 ∧ s.dev.passed t0 3600000000000 = true) ∧
    (∃ (lvl : Lvl) (v : U32) (s : State), s.dev.Reaches lvl 0x200008 ∧ bitOf v.toNat 15 = true ∧ s.dev.mittened 15 = true) :=
  ⟨⟨15, .illegal, on (working []), by decide +kernel⟩,
    ⟨15, aWork .render 15 (some 15), on (working [aWork .render 15 (some 15)]), by decide +kernel⟩,
    ⟨15, aWork .render 15 (some 15), on (fun d => atNs (10 ^ 12) (working [aWork .render 15 (some 15)] d)), by decide +kernel⟩,
    ⟨15, 0, on (fun d => let d := atNs 3600000000000 (live .printing d); { d with rk := { d.rk with strikes := Tab.put d.rk.strikes 15 (some 0) } }),
      by decide +kernel⟩,
    ⟨3, 0xFFFF, on (fun d => (live .idle d).wr .RKC_MITTEN_MIT 0x8000), ⟨by decide +kernel, _, _, _, rfl, by decide +kernel, by decide +kernel⟩,
      by decide +kernel⟩⟩

/-- The block about to dose: pipeline 0 alone, a band of the placed job handed over. -/
def dosing (d : Dev) : Dev :=
  let d := (((placed (live .printing d)).wr .DP_CFG_EN 1).wr .DMA_RCFG_EN 1 24).wr .DMA_RTAIL_IDX 1 24
  { d with rk := { d.rk with handed := [⟨7, 0, [], []⟩] }, curveSet := some 0, screenSet := some 0 }

/-- The same with a band of one line in pipeline 0. -/
def inBand (d : Dev) : Dev := { dosing d with dose := [(0, { (default : Dose) with band := some ⟨7, 0, 1, [], 0, 0, 0⟩ })] }

/-- Channel 4,095 belongs to pipeline 0, whose head is slot 0. -/
def owned (d : Dev) : Dev := (((live .printing d).wr .DP_CFG_EN 1).wr .DP_GEOM_SLOT0 0).wr .DP_GEOM_HEADS 1

theorem meets_DosePipelinesTakeEffect :
    (∃ (s : State) (b : BandTiles) (rest : List BandTiles) (r : JobRec), s.dev.domOn .dose = true ∧ s.dev.st.idleToHold = true ∧ s.dev.pipes ≠ [] ∧
      (∀ i ∈ s.dev.pipes, (s.dev.dp i).band = none) ∧ s.dev.reload = false ∧ s.dev.dropStale.rk.handed = b :: rest ∧
      (s.dev.job b.jn).bind (·.rec?) = some r ∧
      s.dev.dropStale.refreshLead.rd .RW_LEADTGT_COUNTS ≤ s.dev.dropStale.refreshLead.rd .RW_LEAD_COUNTS) ∧
    (∃ (s : State) (b : BandTiles) (rest : List BandTiles) (r : JobRec), s.dev.domOn .dose = true ∧ s.dev.st.idleToHold = true ∧ s.dev.pipes ≠ [] ∧
      (∀ i ∈ s.dev.pipes, (s.dev.dp i).band = none) ∧ s.dev.reload = false ∧ s.dev.dropStale.rk.handed = b :: rest ∧
      (s.dev.job b.jn).bind (·.rec?) = some r ∧
      s.dev.dropStale.refreshLead.rd .RW_LEAD_COUNTS < s.dev.dropStale.refreshLead.rd .RW_LEADTGT_COUNTS ∧ s.dev.integ.heldSpoils.length < 224 ∧
      (∀ i ∈ s.dev.pipes, s.dev.posted i ≠ 0) ∧ s.dev.needsReload r = false) ∧
    (∃ (i : Pipe) (b : DoseBand) (t0 : BandTiles) (rest : List BandTiles) (j : Job) (r : JobRec) (s : State),
      (s.dev.dp i).band = some b ∧ s.dev.rk.handed = t0 :: rest ∧ s.dev.job b.jn = some j ∧ j.rec? = some r ∧
      s.dev.mayDose i b (decide ((b.line + b.lines.length) % r.pitch = 0)) = true) ∧
    (∃ (k l : DoseChecks), (failedCheck k.first).isSome = true ∧ (failedCheck l.first).isSome = false) ∧
    (∃ (ch : BitVec 18) (i : Nat) (e : Nat × Nat) (s : State), s.dev.ownerOf ch.toNat = some i ∧
      (s.dev.dp i).retained.reverse.find? (fun e => e.1 = ch.toNat - 4096 * s.dev.rd .DP_GEOM_SLOT0 i) = some e) ∧
    (∃ (ch : BitVec 18) (i : Nat) (s : State), s.dev.ownerOf ch.toNat = some i ∧
      (s.dev.dp i).retained.reverse.find? (fun e => e.1 = ch.toNat - 4096 * s.dev.rd .DP_GEOM_SLOT0 i) = none ∧
      s.dram.poisoned (s.dev.rodAddr i ch.toNat) 4 = false) ∧
    (∃ (ch : BitVec 18) (i : Nat) (s : State), s.dev.ownerOf ch.toNat = some i ∧
      (s.dev.dp i).retained.reverse.find? (fun e => e.1 = ch.toNat - 4096 * s.dev.rd .DP_GEOM_SLOT0 i) = none ∧
      s.dram.poisoned (s.dev.rodAddr i ch.toNat) 4 = true) ∧
    (∃ (b : BandTiles) (rest : List BandTiles) (r : JobRec) (s : State), s.dev.reload = true ∧ s.dev.rk.handed = b :: rest ∧
      (s.dev.job b.jn).bind (·.rec?) = some r) :=
  ⟨⟨on dosing, ⟨7, 0, [], []⟩, [], _, by decide +kernel, by decide +kernel, by decide +kernel, by decide +kernel, rfl, by decide +kernel, rfl,
      by decide +kernel⟩,
    ⟨on (fun d => ((dosing d).setDue 0 (some (7, 0))).wr .RW_LEADTGT_COUNTS 1), ⟨7, 0, [], []⟩, [], _, by decide +kernel, by decide +kernel, by decide +kernel,
      by decide +kernel, rfl, by decide +kernel, rfl, by decide +kernel, by decide +kernel, by decide +kernel, by decide +kernel⟩,
    ⟨0, ⟨7, 0, 1, [], 0, 0, 0⟩, _, _, _, _, on inBand, by decide +kernel, rfl, rfl, rfl, by decide +kernel⟩,
    ⟨⟨some 3, none, none⟩, ⟨some 0, none, none⟩, by decide⟩,
    ⟨4095, 0, (4095, 5), on (fun d => { owned d with dose := [(0, { (default : Dose) with retained := [(4095, 5)] })] }), by decide +kernel⟩,
    ⟨4095, 0, on owned, by decide +kernel⟩,
    ⟨4095, 0, let s := on owned; { s with dram := { s.dram with poison := [s.dev.rodAddr 0 4095 / 128] } }, by decide +kernel⟩, ⟨⟨7, 0, [], []⟩, [], _, on (fun d => { dosing d with reload := true }), rfl, rfl, rfl⟩⟩

theorem meets_RodQueuesTakeEffect :
    (∃ (lvl : Lvl) (i : Pipe) (s : State), s.dev.Reaches lvl (0x300020 + 0x1000 * i.val) ∧ s.dev.flag .DP_RODQ_COMMIT i.val = false ∧
      (s.dev.dp i).queue.length < 4096) ∧
    (∃ (lvl : Lvl) (i : Pipe) (s : State), s.dev.Reaches lvl (0x300020 + 0x1000 * i.val) ∧ s.dev.flag .DP_RODQ_COMMIT i.val = true) ∧
    (∃ (lvl : Lvl) (i : Pipe) (s : State), s.dev.Reaches lvl (0x300018 + 0x1000 * i.val) ∧ s.dev.flag .DP_RODQ_RETAINED i.val = false) ∧
    (∃ (lvl : Lvl) (i : Pipe) (s : State), s.dev.Reaches lvl (0x300018 + 0x1000 * i.val) ∧ s.dev.flag .DP_RODQ_RETAINED i.val = true) ∧
    (∃ (lvl : Lvl) (i : Pipe) (s : State), s.dev.Reaches lvl (0x300018 + 0x1000 * i.val) ∧
      (s.dev.loops.pend.filter (fun e => e.1 = i.val)).take (4096 - (s.dev.dp i).queue.length) ≠ [] ∧ s.dev.flag .AON_PWR_WARN = false ∧
      s.dev.flag .DP_RODQ_COMMIT i.val = false ∧ s.dev.runs .sv1 = true ∧ s.dev.domOn .dose = true) ∧
    (∃ (lvl : Lvl) (i : Pipe) (s : State), s.dev.Reaches lvl (0x300018 + 0x1000 * i.val) ∧ s.dev.flag .AON_PWR_WARN = true) ∧
    (∃ (lvl : Lvl) (ch : BitVec 18) (s : State), s.dev.Reaches lvl (0x400000 + 4 * ch.toNat) ∧ lvl.val = 3 ∧ s.dev.ownerOf ch.toNat = none) ∧
    (∃ (lvl : Lvl) (ch : BitVec 18) (i : Nat) (s : State), s.dev.Reaches lvl (0x400000 + 4 * ch.toNat) ∧ lvl.val = 3 ∧ s.dev.ownerOf ch.toNat = some i) :=
  ⟨⟨3, 15, on (live .idle), ⟨by decide +kernel, _, _, _, rfl, by decide +kernel, by decide +kernel⟩, by decide +kernel⟩,
    ⟨3, 0, on (fun d => (live .idle d).wr .DP_RODQ_COMMIT 1), ⟨by decide +kernel, _, _, _, rfl, by decide +kernel, by decide +kernel⟩, by decide +kernel⟩,
    ⟨3, 15, on (live .idle), ⟨by decide +kernel, _, _, _, rfl, by decide +kernel, by decide +kernel⟩, by decide +kernel⟩,
    ⟨3, 0, on (fun d => (live .idle d).wr .DP_RODQ_RETAINED 1), ⟨by decide +kernel, _, _, _, rfl, by decide +kernel, by decide +kernel⟩, by decide +kernel⟩,
    ⟨3, 0, on (fun d => { live .idle d with loops := { d.loops with pend := [(0, 5, 0)] } }),
      ⟨by decide +kernel, _, _, _, rfl, by decide +kernel, by decide +kernel⟩, by decide +kernel⟩,
    ⟨3, 0, on (fun d => (live .idle d).wr .AON_PWR_WARN 1), ⟨by decide +kernel, _, _, _, rfl, by decide +kernel, by decide +kernel⟩, by decide +kernel⟩,
    ⟨3, 262143, on (live .idle), ⟨by decide +kernel, _, _, _, rfl, by decide +kernel, by decide +kernel⟩, by decide +kernel⟩,
    ⟨3, 4095, 0, on owned, ⟨by decide +kernel, _, _, _, rfl, by decide +kernel, by decide +kernel⟩, by decide +kernel⟩⟩

/-- DRAM whose first descriptor is owned by the hardware. -/
def ownedDesc (s : State) : State := { s with dram := { s.dram with mem := [(3, 0x80)] } }

/-- A line of one head at 2 bits per nozzle, and its slot. -/
def plainLine : List Byte := List.replicate 1024 0
def aSlot (st : SlotSt) : RSlot := { (default : RSlot) with st := st, jn := 7, count := 1, heads := 1, width2 := true, lines := [plainLine] }

/-- The runway of pipeline 0 with one page, and slots. -/
def runway (xs : List RSlot) (d : Dev) : Dev :=
  { (dosing d).wr .RW_PL_TAIL_IDX 1 with rwy := [(0, { (default : Rwy) with slots := xs })] }

/-- A dosed band waits for the compressor of pipeline 0, one page of space left. -/
def dosed (d : Dev) : Dev :=
  { (runway [] d).wr .RW_CFG_START_PAGES 1 with dose := [(0, { (default : Dose) with band := some ⟨7, 0, 1, [plainLine], 0, 0, 0⟩ })] }

theorem meets_RunwayTakesEffect :
    (∃ (lvl : Lvl) (i : Pipe) (pages : List U32) (s : State), s.dev.Reaches lvl (0x501004 + 64 * i.val) ∧ s.pagesFree pages = true ∧ pages ≠ []) ∧
    (∃ (lvl : Lvl) (i : Pipe) (pages : List U32) (s : State), s.dev.Reaches lvl (0x501004 + 64 * i.val) ∧ s.pagesFree pages = false) ∧
    (∃ (i : Pipe) (b : DoseBand) (a : Nat) (bs : List Byte) (s : State), (s.dev.dp i).band = some b ∧ b.full = true ∧ (s.dev.rw i).band = none ∧
      s.ringDesc (rq i) = some (a, bs) ∧ s.dram.poisoned a 32 = false ∧ s.dev.startSpace i ≤ s.dev.spaceFrom i (s.dev.nextStart i)) ∧
    (∃ (i : Pipe) (st : XdcStream) (x : RSlot) (s : State), s.dev.openSlot i = some x ∧ x.st = .filling ∧
      s.dev.halted (rq i) = false ∧ x.stream = none ∧ x.accepts st = true ∧ s.dev.flag .RW_SKIP_CTL_ARM i.val = false ∧
      (RSlot.header { x with stored := st.stored.toNat, clen := st.bytes.length } i ++ st.bytes).length ≤ s.dev.spaceFrom i (x.page, x.ofs) ∧
      (s.slotWrite 6 i x.page x.ofs (s.dev.rw i).bad ((padWord (RSlot.header { x with stored := st.stored.toNat, clen := st.bytes.length } i
        ++ st.bytes)).take (s.dev.spaceFrom i (x.page, x.ofs)))).2 = none) ∧
    (∃ (i : Pipe) (x y : RSlot) (rest : List RSlot) (s : State), (s.dev.rw i).slots = x :: rest ∧ x.st = .ready ∧
      (∀ y ∈ rest, y.sseq ≠ x.sseq ∧ y.st ≠ .retired) ∧ s.dev.slotDropped i x = false ∧ s.dev.fifoRoom i x = true ∧
      s.dev.flag .RW_SKIP_CTL_ARM i.val = false ∧ rest = [y]) ∧
    (∃ (i : Pipe) (x : RSlot) (s : State), (s.dev.rw i).slots = [x] ∧ x.st = .ready ∧ s.dev.slotDropped i x = true ∧
      s.dev.flag .RW_SKIP_CTL_ARM i.val = false) ∧
    (∃ (lvl : Lvl) (i : Pipe) (x : RSlot) (s : State), s.dev.allowed 0 (0x50102C + 64 * i.val) lvl.val true = true ∧ s.dev.domOn .dose = true ∧
      (s.dev.rw i).slots = [x] ∧ x.st ≠ .retired ∧ x.jn = s.dev.rd .RW_SKIP_JN_JN i ∧ s.dev.skipHi i ≤ x.line) ∧
    (∃ (lvl : Lvl) (i : Pipe) (x : RSlot) (s : State), s.dev.allowed 0 (0x50102C + 64 * i.val) lvl.val true = true ∧ s.dev.domOn .dose = true ∧
      (s.dev.rw i).slots = [x] ∧ x.st ≠ .retired ∧ x.jn = s.dev.rd .RW_SKIP_JN_JN i ∧ x.line < s.dev.skipHi i ∧
      (x.st ≠ .ready ∨ s.dev.skipHi i < x.line + x.count)) := by
  refine ⟨⟨3, 15, [0, 1], on (live .idle), ⟨by decide +kernel, _, _, _, rfl, by decide +kernel, by decide +kernel⟩, by decide +kernel, by decide⟩,
    ⟨3, 15, [0, 0], on (live .idle), ⟨by decide +kernel, _, _, _, rfl, by decide +kernel, by decide +kernel⟩, by decide +kernel⟩,
    ⟨0, ⟨7, 0, 1, [plainLine], 0, 0, 0⟩, 0, memReadAll [(3, 0x80)] 0 32, ownedDesc (on dosed), by decide +kernel, by decide +kernel, by decide +kernel,
      by decide +kernel, by decide +kernel, by decide +kernel⟩,
    ⟨0, ⟨1, plainLine⟩, aSlot .filling, ownedDesc (on (runway [aSlot .filling])), rfl, rfl, by decide +kernel, rfl, by decide +kernel,
      by decide +kernel, by decide +kernel, by decide +kernel⟩,
    ⟨0, aSlot .ready, { aSlot .filling with sseq := 1 }, _, on (fun d => (runway [aSlot .ready, { aSlot .filling with sseq := 1 }] d).setDue 0 (some (7, 0))),
      rfl, rfl, by decide +kernel, by decide +kernel, by decide +kernel, by decide +kernel, rfl⟩,
    ⟨0, { aSlot .ready with gone := true }, on (runway [{ aSlot .ready with gone := true }]), rfl, rfl, by decide +kernel, by decide +kernel⟩,
    ⟨3, 0, { aSlot .filling with line := 5 }, on (fun d => ((runway [{ aSlot .filling with line := 5 }] d).wr .RW_SKIP_JN_JN 7).wr .RW_SKIP_LINE_LINE 5),
      by decide +kernel, by decide +kernel, rfl, by decide +kernel, by decide +kernel, by decide +kernel⟩,
    ⟨3, 0, aSlot .filling, on (fun d => ((runway [aSlot .filling] d).wr .RW_SKIP_JN_JN 7).wr .RW_SKIP_LINE_LINE 5),
      by decide +kernel, by decide +kernel, rfl, by decide +kernel, by decide +kernel, by decide +kernel, by decide +kernel⟩⟩

/-- One buffer of `n` entries posted in a ring, one entry in it. -/
def bufs {α : Type} [Inhabited α] (n : Nat) : BufRing α := ⟨[n], [(0, default)], [], 0, false, 0, false⟩

/-- The same, its buffer in channel B. -/
def ownedDescB (s : State) : State := { s with dram := { s.dram with mem := [(3, 0x80), (8, 8)] } }

/-- The block with ring `r` enabled, its one descriptor posted. -/
def ringOn (r : Nat) (d : Dev) : Dev := ((live .idle d).wr .DMA_RCFG_EN 1 r).wr .DMA_RTAIL_IDX 1 r

theorem meets_DmaRingsTakeEffect :
    (∃ (lvl : Lvl) (r : RingNo) (descs : List (List Byte)) (s : State), s.dev.Reaches lvl (0xF01010 + 32 * r.val) ∧ descs ≠ [] ∧ r.val = 45) ∧
    (∃ (r : RingNo) (spec12 : List Byte) (a : Nat) (bs : List Byte) (s : State), spec12.length = 12 ∧ ownRow r.val = false ∧ r.val < 46 ∧
      s.ringDesc r.val = some (a, bs) ∧ s.dram.poisoned a 32 = false ∧ s.dev.spanOk a 4 = true ∧
      s.bufferOk r.val (descBuf bs) (descLen bs) = true) ∧
    (∃ (r : RingNo) (a : Nat) (bs : List Byte) (x : XcDesc) (s : State), 46 ≤ r.val ∧
      s.dev.xpp.rings.find? (fun x => x.ring = r.val) = some x ∧ s.ringDesc r.val = some (a, bs) ∧ s.dram.poisoned a 32 = false ∧
      s.bufferOk r.val (descBuf bs) (descLen bs) = true) ∧
    (∃ (tries : Fin 16) (a : Nat) (bs : List Byte) (s : State), s.ringDesc 45 = some (a, bs) ∧
      s.dram.poisoned a 32 = false ∧ s.bufferOk 45 (descBuf bs) (descLen bs) = true ∧ tries.val = s.dev.rd .DMA_CTL_RETRY) ∧
    (∃ (r : RingNo) (d0 : Nat × List Byte) (s : State), s.ringDesc r.val = some d0) ∧
    (∃ (lvl : Lvl) (s : State), s.dev.Reaches lvl 0xF00008) ∧ (∃ (lvl : Lvl) (s : State), s.dev.Reaches lvl 0xF0000C) ∧
    (∃ (a : Nat) (bs : List Byte) (cap : Nat) (caps : List Nat) (s : State), s.ringDesc 44 = some (a, bs) ∧ s.dev.evr.caps = cap :: caps ∧
      0 < cap ∧ s.dev.evr.inBufs ≠ [] ∧ s.dram.poisoned a 32 = false ∧ s.bufferOk 44 (descBuf bs) (descLen bs) = true ∧ s.dev.evr.isFull = true) ∧
    (∃ (cap : Nat) (caps : List Nat) (s : State), s.dev.evr.caps = cap :: caps ∧ 0 < cap ∧ s.dev.evr.inBufs ≠ [] ∧ s.dev.evr.isFull = false ∧
      s.dev.evr.isOld s.dev.now 1000000 = true) ∧
    (∃ (a : Nat) (bs : List Byte) (cap : Nat) (caps : List Nat) (s : State), s.ringDesc 45 = some (a, bs) ∧ s.dev.integ.spr.caps = cap :: caps ∧
      0 < cap ∧ s.dev.integ.spr.inBufs ≠ [] ∧ s.dram.poisoned a 32 = false ∧ s.bufferOk 45 (descBuf bs) (descLen bs) = true ∧
      s.dev.integ.spr.isFull = true) ∧
    (∃ (cap : Nat) (caps : List Nat) (s : State), s.dev.integ.spr.caps = cap :: caps ∧ 0 < cap ∧ s.dev.integ.spr.inBufs ≠ [] ∧
      s.dev.integ.spr.isFull = false ∧ s.dev.integ.spr.isOld s.dev.now (1000 * s.dev.rd .SP_SPRCFG_FLUSH) = true) :=
  ⟨⟨3, 45, [List.replicate 32 0], on (live .idle), ⟨by decide +kernel, _, _, _, rfl, by decide +kernel, by decide +kernel⟩, by decide +kernel⟩,
    ⟨23, List.replicate 12 0, 0, memReadAll [(3, 0x80)] 0 32, ownedDesc (on (ringOn 23)), by decide +kernel⟩,
    ⟨46, 0, memReadAll [(3, 0x80), (8, 8)] 0 32, { (default : XcDesc) with ring := 46 },
      ownedDescB (on (fun d => { ringOn 46 d with xpp := { (ringOn 46 d).xpp with rings := [{ (default : XcDesc) with ring := 46 }] } })), by decide +kernel⟩,
    ⟨3, 0, memReadAll [(3, 0x80), (8, 8)] 0 32, ownedDescB (on (fun d => (ringOn 45 d).wr .DMA_CTL_RETRY 3)), by decide +kernel⟩,
    ⟨23, (0, memReadAll [(3, 0x80)] 0 32), ownedDesc (on (ringOn 23)), by decide +kernel⟩,
    ⟨3, on (live .idle), ⟨by decide +kernel, _, _, _, rfl, by decide +kernel, by decide +kernel⟩⟩,
    ⟨3, on (live .idle), ⟨by decide +kernel, _, _, _, rfl, by decide +kernel, by decide +kernel⟩⟩,
    ⟨0, memReadAll [(3, 0x80), (8, 8)] 0 32, 1, [], ownedDescB (on (fun d => { ringOn 44 d with evr := bufs 1 })), by decide +kernel⟩,
    ⟨2, [], on (fun d => { atNs 1000000 (ringOn 44 d) with evr := bufs 2 }), by decide +kernel⟩,
    ⟨0, memReadAll [(3, 0x80), (8, 8)] 0 32, 1, [], ownedDescB (on (fun d => { ringOn 45 d with integ := { d.integ with spr := bufs 1 } })), by decide +kernel⟩,
    ⟨2, [], on (fun d => { atNs 1000000000 (ringOn 45 d) with integ := { d.integ with spr := bufs 2 } }), by decide +kernel⟩⟩

/-- The encoder: a web that moves at a speed that is VALID, in predictive mode, counts one line apart. -/
def moving (d : Dev) : Dev :=
  { ((live .printing d).wr .FIRE_SPDSTAT_STATUS 2).wr .FIRE_CTL_EN 1 with
    fire := { d.fire with speedN := 100000, speedD := 1000000000 } }

theorem meets_WebEncoderTakesEffect :
    (∀ k, k < 4 → ∃ (a b : Bool) (s : State), (quadIndex a b + 4 - quadIndex s.dev.fire.a s.dev.fire.b) % 4 = k) ∧
    (∃ s : State, s.dev.spd ≠ 0) ∧
    (∃ (level : Bool) (s : State), s.dev.flag .FIRE_ENC_IDXEN = true ∧ level ≠ s.dev.flag .FIRE_SPDSTAT_DIR ∧ s.dev.flag .FIRE_IDXREF_HI_SET = false) ∧
    (∃ (level : Bool) (s : State), s.dev.flag .FIRE_ENC_IDXEN = true ∧ level ≠ s.dev.flag .FIRE_SPDSTAT_DIR ∧ s.dev.flag .FIRE_IDXREF_HI_SET = true ∧
      (let diff := pdiff s.dev.fire.cnt s.dev.xref
       (diff - roundAway diff (s.dev.rd .FIRE_CPR_CPR) * s.dev.rd .FIRE_CPR_CPR).natAbs = s.dev.rd .FIRE_IDXCFG_TOL + 1)) ∧
    (∃ s : State, s.dev.flag .FIRE_ENC_IDXEN = true ∧
      s.dev.rd .FIRE_CPR_CPR + 16 * s.dev.rd .FIRE_IDXCFG_TOL + 16 = (pdiff s.dev.fire.cnt s.dev.fire.lastIdx).natAbs) ∧
    (∃ s : State, s.dev.flag .FIRE_ENC_MODE = false ∧ s.dev.flag .FIRE_ENC_LINECHK = true) :=
  ⟨fun k hk => match k, hk with
      | 0, _ => ⟨false, false, State.reset, by decide +kernel⟩
      | 1, _ => ⟨true, false, State.reset, by decide +kernel⟩
      | 2, _ => ⟨true, true, State.reset, by decide +kernel⟩
      | 3, _ => ⟨false, true, State.reset, by decide +kernel⟩,
    ⟨on moving, by decide +kernel⟩, ⟨true, on (fun d => (live .idle d).wr .FIRE_ENC_IDXEN 1), by decide +kernel⟩,
    ⟨true, on (fun d => { ((((live .idle d).wr .FIRE_ENC_IDXEN 1).wr .FIRE_IDXREF_HI_SET 1).wr .FIRE_CPR_CPR 1000) with
      fire := { d.fire with cnt := 997 } }), by decide +kernel⟩,
    ⟨on (fun d => { ((live .idle d).wr .FIRE_ENC_IDXEN 1).wr .FIRE_CPR_CPR 1000 with fire := { d.fire with cnt := 1048 } }), by decide +kernel⟩,
    ⟨on (fun d => ((live .idle d).wr .FIRE_ENC_MODE 0).wr .FIRE_ENC_LINECHK 1), by decide +kernel⟩⟩

/-- A line of the placed job due on bar 0, its head's lane TIMED, its data in the output FIFO. -/
def sending (d : Dev) : Dev :=
  let d := placed ((live .printing d).wr .FIRE_CTL_EN 1)
  let d : Dev := { d with boot := { d.boot with content := some content } }
  ((d.setDue 0 (some (7, 0))).wr .ZL_STAT_STATE 4).updLane 0 (fun l => { l with fifo := [{ (default : FifoLine) with jn := 7, line := 0, doseSent := true }] })

/-- A product in the product table. -/
def aProd (st : ProdSt) (sp : Bool) : Prod := { (default : Prod) with jn := 7, pn := 0, st := st, spoil := sp }

/-- A line sent for bar 0. -/
def aSent (t : Nat) : SentLine := ⟨0, 7, 0, 0, [⟨0, t, 0, 0⟩], false⟩

theorem meets_SendPointsTakeEffect :
    (∃ (bar : Pipe) (l : LineId) (p : Pl) (r : JobRec) (heads : List SentHead) (s : State), s.dev.st.running = true ∧
      s.dev.flag .FIRE_CTL_EN = true ∧ s.dev.nextLine bar.val = some (l, false) ∧ s.dev.plOf l.jn = some p ∧
      (s.dev.job l.jn).bind (·.rec?) = some r ∧
      (let d := s.dev.refreshSpeed.resumeHeads bar
       let slots := (d.slotsOf bar).filter (fun x => !(d.lane x).isDark)
       r.pitch ≠ 0 ∧ l.line % r.pitch = 0 ∧ bar.val = 0 ∧ d.sendHeads p l false slots = some heads ∧ heads.length = 1 ∧
         s.dev.refreshSpeed.sendDue p l heads = true ∧ (∀ x ∈ d.slotsOf bar, d.notReady x l false = none) ∧
         s.dev.prod p.jn (r.firstPn + l.line / r.pitch) = none ∧ s.dev.integ.heldSpoils = [] ∧ s.dev.bars ≠ [])) ∧
    (∃ (bar : Pipe) (l : LineId) (p : Pl) (heads : List SentHead) (s : State), s.dev.st.running = true ∧
      s.dev.flag .FIRE_CTL_EN = true ∧ s.dev.nextLine bar.val = some (l, true) ∧ s.dev.plOf l.jn = some p ∧
      ((s.dev.job l.jn).bind (·.rec?)).isSome = true ∧
      (let d := s.dev.refreshSpeed
       let slots := (d.slotsOf bar).filter (fun x => !(d.lane x).isDark)
       d.sendHeads p l true slots = some heads ∧ heads.length = 1 ∧ d.sendDue p l heads = true ∧
         (∀ x ∈ d.slotsOf bar, d.notReady x l true = none ∧ (d.lane x).isDark = false) ∧ s.dev.lineSettled l = false ∧
         ∀ x ∈ slots, (Tab.at s.dev.integ.tally x : List TallyEnt).length < 64)) ∧
    (∃ (bar : Pipe) (l : LineId) (p : Pl) (r : JobRec) (heads : List SentHead) (s : State), s.dev.st.running = true ∧
      s.dev.flag .FIRE_CTL_EN = true ∧ s.dev.nextLine bar.val = some (l, false) ∧ s.dev.plOf l.jn = some p ∧
      (s.dev.job l.jn).bind (·.rec?) = some r ∧ r.pitch ≠ 0 ∧ l.line % r.pitch = 0 ∧
      (let d := s.dev.refreshSpeed.resumeHeads bar
       d.sendHeads p l false ((d.slotsOf bar).filter (fun x => !(d.lane x).isDark)) = some heads) ∧
      s.dev.refreshSpeed.sendDue p l heads = false) ∧
    (∃ s : State, s.dev.valid = false) ∧
    (∃ (l : SentLine) (p : Pl) (s : State), s.dev.valid = true ∧ s.dev.fire.sent = [l] ∧ l.late = false ∧ s.dev.plOf l.jn = some p ∧
      l.heads.all (fun h => decide (h.tfire ≤ s.dev.now)) = false ∧ s.dev.refreshSpeed.newTimes l = none ∧
      s.dev.canArrive l (l.heads.map (·.tfire)) = true) ∧
    (∃ (l : SentLine) (p : Pl) (ts : List Nat) (s : State), s.dev.valid = true ∧ s.dev.fire.sent = [l] ∧ l.late = false ∧
      s.dev.plOf l.jn = some p ∧ l.heads.all (fun h => decide (h.tfire ≤ s.dev.now)) = false ∧ s.dev.refreshSpeed.newTimes l = some ts ∧
      s.dev.overEighth p.pitch (maxChange (l.heads.map (·.tfire)) ts) = true ∧ s.dev.canArrive l (l.heads.map (·.tfire) ++ ts) = true) :=
  ⟨⟨0, ⟨0, 7, 0, 0⟩, ⟨0, 7, 0, 2 ^ 32, 1⟩, oneLine, [⟨0, 20000, 0, 0⟩], on sending, by decide +kernel⟩,
    ⟨0, ⟨0, 7, 0, 0⟩, ⟨0, 7, 0, 2 ^ 32, 1⟩, [⟨0, 20000, 0, 0⟩], on (fun d => { sending d with
        fire := { (sending d).fire with again := [⟨0, 7, 0, 0⟩] }, integ := { d.integ with prods := [aProd .opened false] } }), by decide +kernel⟩,
    ⟨0, ⟨0, 7, 0, 0⟩, ⟨0, 7, 0, 2 ^ 32, 1⟩, oneLine, [⟨0, 20000, 0, 0⟩],
      on (fun d => { sending d with fire := { (sending d).fire with pos := 0xFFFFFFFFFFFF } }), by decide +kernel⟩,
    ⟨on (live .idle), by decide +kernel⟩,
    ⟨aSent 5000000, ⟨0, 7, 0, 2 ^ 32, 1⟩, on (fun d => let d := (placed (live .printing d)).wr .FIRE_SPDSTAT_STATUS 2
      { d with fire := { d.fire with sent := [aSent 5000000], revDir := true } }), by decide +kernel⟩,
    ⟨aSent 5000000, ⟨0, 7, 0, 2 ^ 32, 1⟩, [9000000], on (fun d => let d := placed (moving d)
      { d with fire := { d.fire with sent := [aSent 5000000], speedN := 100000, speedD := 1000000000, lastT := 9000000 } }),
      by decide +kernel⟩⟩

/-- The block with lane `n` in a state. -/
def laneAt (n : Nat) (x : LaneSt) (d : Dev) : Dev := (live .idle d).wr .ZL_STAT_STATE x.code n

theorem meets_LaneStatesFollow :
    (∃ (n : LaneNo) (s : State), s.dev.laneIs n .off = true ∧ s.dev.flag .ZL_CFG_EN n = true ∧
      s.dev.domOn (if n.val < 32 then .za else .zb) = true ∧ n.val < s.dev.nLanes ∧ n.val = 63) ∧
    (∃ (n : LaneNo) (s : State), s.dev.laneIs n .locking = true) ∧
    (∃ (n : LaneNo) (g h : Fin 4) (s : State), s.dev.laneIs n .locked = true ∧ g.val = s.dev.capGen n ∧ h.val ≠ s.dev.capGen n) ∧
    (∃ (n : LaneNo) (s : State), s.dev.laneRuns n = true ∧ s.dev.flag .ZL_STAT_LOOP n = false ∧
      s.dev.passed (s.dev.lane n).statusAt (100000 * s.dev.rd .ZL_CFG_STTO n) = true) ∧
    (∃ (lvl : Lvl) (n : LaneNo) (s : State), s.dev.Reaches lvl (lpctl n) ∧ s.dev.laneRuns n = true ∧ s.dev.laneIdle n = true) ∧
    (∃ (n : LaneNo) (s : State), s.dev.laneIs n .sleep = true) ∧ (∃ (n : LaneNo) (s : State), s.dev.laneIs n .park = true) ∧
    (∃ (lvl : Lvl) (n : LaneNo) (s : State), s.dev.Reaches lvl (0x700014 + 0x400 * n.val) ∧ 0 ≠ s.dev.rd .ZL_LOOP_MODE n ∧
      s.dev.laneIs n .off = false ∧ s.dev.laneIs n .fault = false) ∧
    (∃ (lvl : Lvl) (n : LaneNo) (s : State), s.dev.Reaches lvl (0x700014 + 0x400 * n.val) ∧ 3 ≠ s.dev.rd .ZL_LOOP_MODE n ∧
      s.dev.laneRuns n = false ∧ s.dev.rd .ZL_LOOP_MODE n = 0) ∧
    (∃ (lvl : Lvl) (n : LaneNo) (mode : Fin 4) (s : State), s.dev.Reaches lvl (0x700014 + 0x400 * n.val) ∧ mode.val ≠ s.dev.rd .ZL_LOOP_MODE n ∧
      mode.val ≠ 0 ∧ s.dev.laneIdle n = true ∧ (mode.val ≠ 3 ∨ (s.dev.laneRuns n = true ∧ s.dev.rd .ZL_LOOP_MODE n = 0))) ∧
    (∃ (lvl : Lvl) (n : LaneNo) (mode : Fin 4) (s : State), s.dev.Reaches lvl (0x700014 + 0x400 * n.val) ∧ mode.val ≠ s.dev.rd .ZL_LOOP_MODE n ∧
      mode.val ≠ 0 ∧ s.dev.laneIdle n = false) :=
  ⟨⟨63, on (fun d => (live .idle d).wr .ZL_CFG_EN 1 63), by decide +kernel⟩, ⟨63, on (laneAt 63 .locking), by decide +kernel⟩,
    ⟨0, 2, 1, on (fun d => (laneAt 0 .locked d).wr .ZL_CFG_GEN 0), by decide +kernel⟩,
    ⟨63, on (fun d => atNs 1000000000000 (laneAt 63 .timed d)), by decide +kernel⟩,
    ⟨3, 63, on (laneAt 63 .timed), ⟨by decide +kernel, _, _, _, rfl, by decide +kernel, by decide +kernel⟩, by decide +kernel⟩,
    ⟨0, on (laneAt 0 .sleep), by decide +kernel⟩, ⟨0, on (laneAt 0 .park), by decide +kernel⟩,
    ⟨3, 63, on (fun d => (laneAt 63 .up d).wr .ZL_LOOP_MODE 1 63), ⟨by decide +kernel, _, _, _, rfl, by decide +kernel, by decide +kernel⟩, by decide +kernel⟩,
    ⟨3, 0, on (laneAt 0 .off), ⟨by decide +kernel, _, _, _, rfl, by decide +kernel, by decide +kernel⟩, by decide +kernel⟩,
    ⟨3, 0, 3, on (laneAt 0 .up), ⟨by decide +kernel, _, _, _, rfl, by decide +kernel, by decide +kernel⟩, by decide +kernel⟩,
    ⟨3, 0, 3, on (fun d => (laneAt 0 .up d).wr .HT_CFG_EN 1), ⟨by decide +kernel, _, _, _, rfl, by decide +kernel, by decide +kernel⟩, by decide +kernel⟩⟩

/-- A head-line in an output FIFO, its data not sent. -/
def aLine : FifoLine := { (default : FifoLine) with jn := 7, line := 0 }

/-- A Tally entry, and the ECHO frame that answers it. -/
def tallied (d : Dev) : Dev := { laneAt 0 .timed d with integ := { d.integ with tally := [(0, [⟨7, 0, 0, 0⟩])] } }
def echo (result : Byte) : EchoFrame := ⟨7, 0, 0, 0, result, 0, false⟩

theorem meets_LaneFramesTakeEffect :
    (∃ (n : LaneNo) (f : FifoLine) (s : State), s.dev.laneIs n .timed = true ∧ s.dev.nextDose n = some f) ∧
    (∃ s : State, s.dev.runs .cc0 = true ∧ s.dev.laneRuns 63 = true) ∧
    (∃ (n : LaneNo) (s : State), s.dev.laneHears n = true ∧ s.dev.laneRuns n = false) ∧
    (∃ (n : LaneNo) (f : EchoFrame) (s : State), s.dev.laneHears n = true ∧
      (Tab.at s.dev.integ.tally n).find? (fun e => decide (e.jn % 256 = f.jnLow.toNat) && decide (e.line = f.line.toNat)) = none) ∧
    (∃ (n : LaneNo) (f : EchoFrame) (e : TallyEnt) (s : State), s.dev.laneHears n = true ∧
      (Tab.at s.dev.integ.tally n).find? (fun e => decide (e.jn % 256 = f.jnLow.toNat) && decide (e.line = f.line.toNat)) = some e ∧
      f.entryPoisoned = false ∧ f.result.toNat = 3) ∧
    (∃ (n : LaneNo) (jn line : U32) (e : TallyEnt) (s : State),
      (Tab.at s.dev.integ.tally n).find? (fun e => decide (e.jn = jn.toNat) && decide (e.line = line.toNat)) = some e ∧
      s.dev.rxSleeps n = false ∧ s.dev.echoOver n e = true) ∧
    (∃ (n : LaneNo) (s : State), s.dev.laneIs n .locked = true ∧ s.dev.laneHears n = false) ∧
    (∃ (n : LaneNo) (t0 : Nat) (s : State), (s.dev.lane n).lossAt = some t0 ∧ s.dev.passed t0 (1000000 * s.dev.rd .ZL_CTL_RECOV) = true ∧
      (s.dev.lane n).stopAsked = false ∧ s.dev.laneIs n .timed = false ∧
      s.dev.lanePlaced n = true) ∧
    (∃ (lvl : Lvl) (n : LaneNo) (s : State), s.dev.Reaches lvl (0x700014 + 0x400 * n.val) ∧ s.dev.flag .ZL_STAT_LOOP n = true) :=
  ⟨⟨0, aLine, on (fun d => (sending d).wr .ZL_CFG_AHEAD 1 |>.updLane 0 (fun l => { l with fifo := [aLine] })),
      by decide +kernel⟩,
    ⟨on (laneAt 63 .up), by decide +kernel⟩, ⟨0, on (fun d => (laneAt 0 .sleep d).wr .ZL_LPCTL_CUR 1), by decide +kernel⟩, ⟨0, echo 0, on (laneAt 0 .timed), by decide +kernel⟩,
    ⟨0, echo 3, ⟨7, 0, 0, 0⟩, on tallied, by decide +kernel⟩, ⟨0, 7, 0, ⟨7, 0, 0, 0⟩, on (fun d => let d := tallied d; { d with lc := 10 ^ 30 }), by decide +kernel⟩,
    ⟨0, on (laneAt 0 .locked), by decide +kernel⟩,
    ⟨0, 0, on (fun d => atNs 1000000000000 (((sending d).wr .ZL_STAT_STATE 1).updLane 0 (fun l => { l with lossAt := some 0 }))), by decide +kernel⟩,
    ⟨3, 63, on (fun d => (live .idle d).wr .ZL_STAT_LOOP 1 63), ⟨by decide +kernel, _, _, _, rfl, by decide +kernel, by decide +kernel⟩,
      by decide +kernel⟩⟩

/-- The block with a product in the table, WASTE_MARK of mode `m` asserted. -/
def marking (m : Nat) (p : Prod) (d : Dev) : Dev := { (live .printing d).wr .SP_WASTE_CTL_MODE m with integ := { d.integ with prods := [p], mark := true } }

theorem meets_MarkAndTallyTakeEffect :
    (∃ s : State, s.dev.rd .SP_WASTE_CTL_MODE = 0) ∧
    (∃ (p : Prod) (s : State), s.dev.rd .SP_WASTE_CTL_MODE = 1 ∧ s.dev.prod (7 : U32).toNat (0 : U32).toNat = some p ∧ p.st ≠ .marked ∧
      s.dev.atMark p = true ∧ p.spoil = true) ∧
    (∃ (p : Prod) (s : State), s.dev.rd .SP_WASTE_CTL_MODE ≠ 0 ∧ s.dev.prod (7 : U32).toNat (0 : U32).toNat = some p ∧ p.st ≠ .marked ∧
      s.dev.atMark p = false) ∧
    (∃ (p : Prod) (s : State), s.dev.rd .SP_WASTE_CTL_MODE = 2 ∧ s.dev.prod (7 : U32).toNat (0 : U32).toNat = some p ∧
      s.dev.atMark p = true ∧ p.st = .opened) ∧
    (∃ (p : Prod) (s : State), s.dev.rd .SP_WASTE_CTL_MODE = 2 ∧ s.dev.prod (7 : U32).toNat (0 : U32).toNat = some p ∧
      s.dev.atMark p = true ∧ p.spoil = false ∧ p.st = .closed) ∧
    (∃ s : State, s.dev.integ.mark = true ∧ s.dev.markOver = true) ∧
    (∃ (lvl : Lvl) (s : State), s.dev.tallyOwned (s.dev.rd .TALLY_CTX_CTX) = false ∧ s.dev.Reaches lvl 0x80004C ∧ s.dev.Reaches lvl 0x800050 ∧
      s.dev.Reaches lvl 0x800054 ∧ s.dev.Reaches lvl 0x800058) ∧
    (∃ (lvl : Lvl) (s : State), s.dev.tallyOwned (s.dev.rd .TALLY_CTX_CTX) = true ∧ s.dev.Reaches lvl 0x80004C ∧ s.dev.Reaches lvl 0x800050 ∧
      s.dev.Reaches lvl 0x800054 ∧ s.dev.Reaches lvl 0x800058) ∧
    (∃ (lvl : Lvl) (c : LaneNo) (s : State), s.dev.Reaches lvl (0x800200 + 4 * c.val) ∧ s.dev.tallyOwned c = false) ∧
    (∃ (lvl : Lvl) (c : LaneNo) (s : State), s.dev.Reaches lvl (0x800200 + 4 * c.val) ∧ s.dev.tallyOwned c = true) := by
  refine ⟨⟨on (marking 0 (aProd .opened false)), by decide +kernel⟩, ⟨aProd .closed true, on (marking 1 (aProd .closed true)), by decide +kernel⟩,
    ⟨{ aProd .closed true with from38 := 2 ^ 60 }, on (marking 1 { aProd .closed true with from38 := 2 ^ 60 }), by decide +kernel⟩,
    ⟨aProd .opened false, on (marking 2 (aProd .opened false)), by decide +kernel⟩,
    ⟨aProd .closed false, on (marking 2 (aProd .closed false)), by decide +kernel⟩, ⟨on (marking 1 (aProd .opened false)), by decide +kernel⟩,
    ⟨3, on (live .printing), by decide +kernel, ?_, ?_, ?_, ?_⟩,
    ⟨3, on (fun d => ((live .printing d).wr .TALLY_CTX_CTX 63).wr .ZL_CFG_EN 1 63), by decide +kernel, ?_, ?_, ?_, ?_⟩,
    ⟨3, 63, on (live .printing), ?_, by decide +kernel⟩, ⟨3, 63, on (fun d => (live .hold d).wr .ZL_CFG_EN 1 63), ?_, by decide +kernel⟩⟩
  all_goals exact ⟨by decide +kernel, _, _, _, rfl, by decide +kernel, by decide +kernel⟩

/-- Camera port `p` enabled, in a state of Table 9-6. -/
def camera (p st : Nat) (v : Vis) (d : Dev) : Dev := { ((live .printing d).wr .VIS_CFG_EN 1 p).wr .VIS_STAT_STATE st p with vis := [(p, v)] }

theorem meets_VisionTriggersTakeEffect :
    (∃ (lvl : Lvl) (p : Port) (s : State), s.dev.Reaches lvl (visReg p 0x00C) ∧ (s.dev.vp p).trigQ.length = 7) ∧
    (∃ (lvl : Lvl) (p : Port) (s : State), s.dev.Reaches lvl (visReg p 0x00C) ∧ (s.dev.vp p).trigQ.length = 8) ∧
    (∃ (p : Port) (s : State) (pos : Nat) (rest : List Nat), s.dev.visOn p = true ∧ (s.dev.vp p).trigQ = pos :: rest ∧
      0 ≤ pdiff s.dev.fire.pos (BitVec.ofNat 48 pos) ∧ (s.dev.vp p).headPast = false ∧ s.dev.visBusy p = false) ∧
    (∃ (p : Port) (s : State) (pos : Nat) (rest : List Nat), s.dev.visOn p = true ∧ (s.dev.vp p).trigQ = pos :: rest ∧
      0 ≤ pdiff s.dev.fire.pos (BitVec.ofNat 48 pos) ∧ (s.dev.vp p).headPast = true) ∧
    (∃ (p : Port) (s : State), (s.dev.vp p).strbPend = true) ∧
    (∃ (lvl : Lvl) (p : Port) (s : State), s.dev.Reaches lvl (visReg p 0x014) ∧ s.dev.flag .VIS_ESCTL_COMMIT p = true) ∧
    (∃ (lvl : Lvl) (p : Port) (s : State), s.dev.Reaches lvl (visReg p 0x014) ∧ s.dev.flag .VIS_ESCTL_COMMIT p = false) ∧
    (∃ (p : Port) (s : State) (c : Commit), (s.dev.vp p).pend = some c ∧ c.list = .issuing ∧ c.strobeIn = true) ∧
    (∃ (p : Port) (s : State) (c : Commit), (s.dev.vp p).pend = some c ∧ c.list = .issuing ∧ c.strobeIn = false ∧
      (∃ entry : Fin 256, entry.val ∈ c.set.entries) ∧ ∃ entry : Fin 256, entry.val ∉ c.set.entries) ∧
    (∃ (lvl : Lvl) (p : Port) (s : State), s.dev.Reaches lvl (visReg p 0x084)) ∧ (∃ (lvl : Lvl) (p : Port) (s : State), s.dev.Reaches lvl (visReg p 0x080)) := by
  refine ⟨⟨3, 3, on (camera 3 1 { (default : Vis) with trigQ := List.replicate 7 0 }), ?_, by decide +kernel⟩,
    ⟨3, 3, on (camera 3 1 { (default : Vis) with trigQ := List.replicate 8 0 }), ?_, by decide +kernel⟩,
    ⟨3, on (camera 3 1 { (default : Vis) with trigQ := [0] }), 0, [], by decide +kernel⟩,
    ⟨3, on (camera 3 1 { (default : Vis) with trigQ := [0], headPast := true }), 0, [], by decide +kernel⟩,
    ⟨3, on (camera 3 1 { (default : Vis) with strbPend := true }), by decide +kernel⟩,
    ⟨3, 3, on (fun d => (live .idle d).wr .VIS_ESCTL_COMMIT 1 3), ?_, by decide +kernel⟩, ⟨3, 0, on (live .idle), ?_, by decide +kernel⟩,
    ⟨3, on (camera 3 1 { (default : Vis) with pend := some ⟨default, true, .issuing⟩ }), ⟨default, true, .issuing⟩, by decide +kernel⟩,
    ⟨0, on (camera 0 1 { (default : Vis) with pend := some ⟨{ (default : ExpSet) with i2c0 := 255, i2cn := 1 }, false, .issuing⟩ }),
      ⟨{ (default : ExpSet) with i2c0 := 255, i2cn := 1 }, false, .issuing⟩, by decide +kernel, by decide +kernel, by decide +kernel,
      ⟨255, by decide⟩, ⟨0, by decide⟩⟩,
    ⟨3, 3, on (live .idle), ?_⟩, ⟨3, 3, on (live .idle), ?_⟩⟩
  all_goals exact ⟨by decide +kernel, _, _, _, rfl, by decide +kernel, by decide +kernel⟩

/-- A capture. -/
def aCap (started : Bool) : Cap := { (default : Cap) with started := started }

theorem meets_VisionFramesTakeEffect :
    (∃ (p : Port) (pkt : CsiPkt) (s : State) (c : Cap), (s.dev.vp p).cap = some c ∧ s.dev.visOn p = true ∧
      s.dev.rd .VIS_STAT_STATE p ≠ 4 ∧ pkt.hdrErr.val ≠ 2 ∧ pkt.vc.val = s.dev.rd .VIS_CFG_VC0 p ∧ pkt.dtype.toNat = 0 ∧ c.started = false) ∧
    (∃ (p : Port) (pkt : CsiPkt) (s : State) (c : Cap), (s.dev.vp p).cap = some c ∧ s.dev.visOn p = true ∧
      s.dev.rd .VIS_STAT_STATE p ≠ 4 ∧ pkt.hdrErr.val ≠ 2 ∧ pkt.vc.val = s.dev.rd .VIS_CFG_VC0 p ∧ pkt.dtype.toNat ≠ 0 ∧
      pkt.dtype.toNat = 0x2B + s.dev.rd .VIS_CFG_FMT p ∧ s.dev.visAccepts p = true ∧ c.started = true ∧ c.dropped = false ∧ s.dev.visFull p pkt.full = false ∧
      s.dev.visStream p 0 = false) ∧
    (∃ (p : Port) (pkt : CsiPkt) (s : State) (c : Cap), (s.dev.vp p).cap = some c ∧ s.dev.visOn p = true ∧
      s.dev.rd .VIS_STAT_STATE p ≠ 4 ∧ pkt.hdrErr.val ≠ 2 ∧ pkt.vc.val = s.dev.rd .VIS_CFG_VC0 p ∧ pkt.dtype.toNat ≠ 0 ∧
      pkt.dtype.toNat = 0x2B + s.dev.rd .VIS_CFG_FMT p ∧ s.dev.visAccepts p = true ∧ c.started = true ∧ c.dropped = false ∧ s.dev.visFull p pkt.full = true) ∧
    (∃ (p : Port) (s : State) (c : Cap), (s.dev.vp p).cap = some c ∧ s.dev.visOn p = true ∧ s.dev.rd .VIS_STAT_STATE p ≠ 4 ∧ c.started = true ∧
      c.dropped = false ∧ c.flags.crcErr = true ∧ c.n0 ≠ s.dev.rd .VIS_GEOM_HEIGHT p) ∧
    (∃ (p : Port) (s : State) (c : Cap), (s.dev.vp p).cap = some c ∧ s.dev.visOn p = true ∧ s.dev.rd .VIS_STAT_STATE p ≠ 4 ∧
      c.dropped = false ∧ s.dev.visOver p c = true ∧ (s.dev.vp p).timeouts + 1 = 3) ∧
    (∃ (p : Port) (s : State), s.dev.rd .VIS_STAT_STATE p = 4) :=
  ⟨⟨3, ⟨0, 0, 0, [], true, [], false⟩, on (camera 3 2 { (default : Vis) with cap := some (aCap false) }), aCap false, by decide +kernel⟩,
    ⟨3, ⟨0, 0, 0x2B, [5], true, [], false⟩, on (camera 3 3 { (default : Vis) with cap := some (aCap true) }), aCap true, by decide +kernel⟩,
    ⟨3, ⟨0, 0, 0x2B, [5], true, [], true⟩, on (camera 3 3 { (default : Vis) with cap := some (aCap true), drain := [10 ^ 30, 10 ^ 30, 10 ^ 30, 10 ^ 30] }),
      aCap true, by decide +kernel⟩,
    ⟨0, on (fun d => (camera 0 3 { (default : Vis) with cap := some { aCap true with flags := { (default : FrameFlags) with crcErr := true } } } d).wr
        .VIS_GEOM_HEIGHT 1), { aCap true with flags := { (default : FrameFlags) with crcErr := true } }, by decide +kernel⟩,
    ⟨0, on (fun d => atNs (10 ^ 15) (camera 0 3 { (default : Vis) with cap := some (aCap true), timeouts := 2 } d)), aCap true, by decide +kernel⟩,
    ⟨3, on (camera 3 4 default), by decide +kernel⟩⟩

/-- A window of 12 columns whose dashes stand at the columns given, for a bar in the window of its number. -/
def stripe (bar : Nat) (at' : List Nat) : CamBuf :=
  { (default : CamBuf) with
    stream := 1, frame := 5, win := bar, width := 12, data := (List.range 12).flatMap (fun x => le 12 (if at'.elem x then 1 else 0)) }

/-- The Brim plan of that bar and its report of product 0 of job 7. -/
def gapPlan : BrimPlan := { content.plan with win := [0, 1] }
def gapReport (bar : Nat) : StartReport := ⟨7, 0, bar, 0, 0, [{ (default : BrimRow) with kind := 1, heads := 1 }], 0, 0⟩

/-- A good product whose gap camera 0 has seen on a bar of one head: its dashes 16 pitches apart, expected 4 pixels apart from pixel 1 on. -/
def gap (bar : Nat) (at' : List Nat) (d : Dev) : Dev :=
  let d := ((withJobs [{ aJob .active 7 with rec? := some { oneLine with brimLines := 100 } }] ((live .printing d).wr .VL_CTL_NZEN 1)).wr
    .DP_CFG_EN 1 bar |>.wr .DP_GEOM_SLOT0 0 bar).wr .DP_GEOM_HEADS 1 bar
  { d with
    boot := { d.boot with content := some { content with
      bars := [⟨0, 0, 1, 0⟩, ⟨1, 0, 1, 0⟩], plan := { content.plan with win := [0, 1] } } },
    vis := [(0, { (default : Vis) with lastUsable := [stripe bar at', { (default : CamBuf) with stream := 3, frame := 5 }] })],
    loops := { d.loops with
      closed := [(7, 0, [])], reports := [gapReport bar],
      numbered := [(7, 0, some 0)], nozzles := [(0, some (nozzleOfRod 0)), (16, some (nozzleOfRod 0)), (32, some (nozzleOfRod 0))]
      fits := [(bar, some ⟨2, 16, 1536, 256, 20480⟩)] } }

/-- Register marks of group 0. -/
def marks : List Mark := [⟨0, 0, 0, 1⟩]

theorem meets_NozzleAndRegisterLoops :
    (∃ (jn pn : U32) (s : State), (s.dev.numberOf jn.toNat pn.toNat).bind id = none) ∧
    (∃ (p : Port) (jn pn frame : U32) (bar c : Nat) (plan : BrimPlan) (r : StartReport) (b : CamBuf) (s : State),
      s.dev.plan = some plan ∧ s.dev.runs .vs = true ∧ s.dev.numberOf jn.toNat pn.toNat = some (some c) ∧
      (s.dev.bars.map (·.bar)).filter (fun k => (s.dev.reportOf jn.toNat pn.toNat k).isSome) = [bar] ∧
      s.dev.reportOf jn.toNat pn.toNat bar = some r ∧ s.dev.usableBuf p frame.toNat 1 (nth plan.win bar) = some b ∧
      s.dev.gapGood jn.toNat pn.toNat bar = true ∧ (s.dev.stripeFit (s.dev.measureDashes p plan r b)).ok = true ∧
      s.dev.flag .VL_CTL_NZEN = true ∧ s.dev.measureDashes p plan r b ≠ [] ∧ (∀ x ∈ s.dev.measureDashes p plan r b, dashSlot x = 0) ∧
      (s.dev.measureDashes p plan r b).length
        < 4 * ((s.dev.measureDashes p plan r b).filter (fun x => !dashPresent x (s.dev.drefNext 0 (s.dev.measureDashes p plan r b)))).length) ∧
    (∃ (p : Port) (jn pn frame : U32) (bar c : Nat) (plan : BrimPlan) (r : StartReport) (b : CamBuf) (s : State),
      s.dev.plan = some plan ∧ s.dev.runs .vs = true ∧ s.dev.numberOf jn.toNat pn.toNat = some (some c) ∧
      (s.dev.bars.map (·.bar)).filter (fun k => (s.dev.reportOf jn.toNat pn.toNat k).isSome) = [bar] ∧
      s.dev.reportOf jn.toNat pn.toNat bar = some r ∧ s.dev.usableBuf p frame.toNat 1 (nth plan.win bar) = some b ∧
      s.dev.gapGood jn.toNat pn.toNat bar = true ∧ (s.dev.stripeFit (s.dev.measureDashes p plan r b)).ok = true ∧
      s.dev.flag .VL_CTL_NZEN = true ∧ s.dev.measureDashes p plan r b ≠ [] ∧ (∀ x ∈ s.dev.measureDashes p plan r b, dashSlot x = 0) ∧
      4 * ((s.dev.measureDashes p plan r b).filter (fun x => !dashPresent x (s.dev.drefNext 0 (s.dev.measureDashes p plan r b)))).length
        ≤ (s.dev.measureDashes p plan r b).length ∧ ((s.dev.measureDashes p plan r b).map (·.ch)).Nodup) ∧
    (∃ (p : Port) (jn pn frame : U32) (bar c : Nat) (plan : BrimPlan) (r : StartReport) (b : CamBuf) (s : State),
      s.dev.plan = some plan ∧ s.dev.runs .vs = true ∧ s.dev.numberOf jn.toNat pn.toNat = some (some c) ∧
      (s.dev.bars.map (·.bar)).filter (fun k => (s.dev.reportOf jn.toNat pn.toNat k).isSome) = [bar] ∧
      s.dev.reportOf jn.toNat pn.toNat bar = some r ∧ s.dev.usableBuf p frame.toNat 1 (nth plan.win bar) = some b ∧
      s.dev.gapGood jn.toNat pn.toNat bar = true ∧ (s.dev.stripeFit (s.dev.measureDashes p plan r b)).ok = true ∧
      ∃ (ms : List GapBar) (e dw : Int), s.dev.marksSeen p frame.toNat = true ∧ s.dev.registers bar = true ∧
        decide (plan.markOfs + plan.markLines ≤ ((s.dev.job jn.toNat).bind (·.rec?)).elim 0 (·.brimLines)) = true ∧
        offsets plan (s.dev.stripeFit (s.dev.measureDashes p plan r b)) bar
          (((ms.find? (fun g => g.bar.val = bar)).map (·.marks)).getD [])
          (if s.dev.gapGood jn.toNat pn.toNat plan.refBar then ((ms.find? (fun g => g.bar.val = plan.refBar)).map (·.marks)).getD [] else [])
          = some (e, dw)) ∧
    (∃ (bar : Pipe) (s : State) (st : HandStep) (rest : List HandStep) (a jn pn line : Nat), (s.dev.barLoop bar).steps = st :: rest ∧
      s.dev.axisOf bar = some a ∧ st.prod = some (jn, pn, line) ∧ st.moving = false ∧ s.dev.axAccepts a false = true ∧ s.dev.mayMove bar jn line = true) :=
  ⟨⟨7, 1, on (gap 0 [1, 5]), by decide +kernel⟩,
    ⟨0, 7, 0, 5, 0, 0, gapPlan, gapReport 0, stripe 0 [1, 5], on (gap 0 [1, 5]), by decide +kernel⟩,
    ⟨0, 7, 0, 5, 0, 0, gapPlan, gapReport 0, stripe 0 [1, 5, 9], on (gap 0 [1, 5, 9]), by decide +kernel⟩,
    ⟨0, 7, 0, 5, 1, 0, gapPlan, gapReport 1, stripe 1 [1, 5, 9], on (gap 1 [1, 5, 9]), by decide +kernel, by decide +kernel, by decide +kernel,
      by decide +kernel, by decide +kernel, by decide +kernel, by decide +kernel, by decide +kernel, [⟨0, marks⟩, ⟨1, marks⟩], -(256 * 65536), 0,
      by decide +kernel⟩,
    ⟨0, on (fun d => { (placed (axis .homed d)).wr .VL_HAND_HGUARD 0 with loops := { d.loops with bars := [(0, { (default : BarLoop) with
        steps := [{ (default : HandStep) with prod := some (7, 1, 0), moving := false }] })] } }),
      { (default : HandStep) with prod := some (7, 1, 0), moving := false }, [], 0, 7, 1, 0, by decide +kernel⟩⟩

/-- The same with what the axis holds. -/
def axisIs (x : AxState) (a : Axis) (d : Dev) : Dev := { axis x d with axes := [(0, a)] }

/-- A profile that moves to the high side. -/
def upward : Prof := { (default : Prof) with v := 1, run := .toTarget }

theorem meets_AxisCommandsTakeEffect :
    (∃ (lvl : Lvl) (s : State), s.dev.Reaches lvl (0xA00048 + 0x80 * (0 : AxisNo).val) ∧ s.dev.mayHome 0 = true) ∧
    (∃ (lvl : Lvl) (s : State), s.dev.Reaches lvl (0xA00048 + 0x80 * (15 : AxisNo).val) ∧ s.dev.mayHome 15 = false) ∧
    (∃ (lvl : Lvl) (s : State), s.dev.Reaches lvl (0xA00048 + 0x80 * (0 : AxisNo).val) ∧ s.dev.axOn 0 = true ∧ s.dev.axIs 0 .fault = false ∧
      s.dev.homing 0 = true) ∧
    (∃ (lvl : Lvl) (s : State), s.dev.Reaches lvl (0xA00048 + 0x80 * (0 : AxisNo).val) ∧ s.dev.axOn 0 = true ∧ s.dev.axIs 0 .fault = false ∧
      s.dev.homing 0 = false ∧ (s.dev.ax 0).prof.run ≠ .maxStop) ∧
    (∃ (lvl : Lvl) (s : State), s.dev.Reaches lvl (0xA00048 + 0x80 * (0 : AxisNo).val) ∧ s.dev.axIs 0 .fault = true) ∧
    (∀ x, x = AxState.seek ∨ x = .backoff ∨ x = .latch → ∃ s : State, s.dev.axOn 0 = true ∧ s.dev.axIs 0 x = true ∧ s.dev.rd .AX_CFG_FB 0 ≠ 2 ∧
      s.dev.homing 0 = true) ∧
    (∃ s : State, s.dev.axOn 0 = true ∧ s.dev.axIs 0 .latch = true ∧ s.dev.rd .AX_CFG_FB 0 = 2 ∧ (s.dev.ax 0).edge = true) ∧
    (∃ (t₀ : Nat) (s : State), s.dev.axOn 0 = true ∧ s.dev.homing 0 = true ∧ (s.dev.ax 0).homeSince = some t₀ ∧
      t₀ + 1000000000 * s.dev.rd .AX_HOMECFG_HTO 0 ≤ s.dev.now) ∧
    (∀ x, x = AxState.homed ∨ x = .seek → ∃ (t₀ : Nat) (s : State), s.dev.axOn 0 = true ∧ (s.dev.ax 0).feSince = some t₀ ∧
      t₀ + 1000000 * s.dev.rd .AX_PLAUS_FETIME 0 ≤ s.dev.now ∧ s.dev.axIs 0 .fault = false ∧ s.dev.axIs 0 x = true) ∧
    (∃ (t₀ : Nat) (s : State), s.dev.axOn 0 = true ∧ (s.dev.ax 0).feSince = some t₀ ∧
      s.dev.now < t₀ + 1000000 * s.dev.rd .AX_PLAUS_FETIME 0) ∧
    (∃ s : State, s.dev.axOn 0 = true ∧ s.dev.limIsHome 0 true = false ∧ s.dev.homing 0 = true) ∧
    (∃ s : State, s.dev.axOn 0 = true ∧ s.dev.limIsHome 0 true = false ∧ s.dev.homing 0 = false ∧ (s.dev.ax 0).prof.toward true = true) ∧
    (∃ s : State, s.dev.axOn 0 = true ∧ s.dev.limIsHome 0 false = false ∧ s.dev.homing 0 = false ∧ (s.dev.ax 0).prof.toward false = false) ∧
    (∃ (trip : Int) (s : State), s.dev.axOn 0 = true ∧ (s.dev.ax 0).high.at? = some trip ∧ s.dev.awayFrom 0 true trip = true) ∧
    (∃ (lvl : Lvl) (s : State), s.dev.Reaches lvl (0xA00028 + 0x80 * (15 : AxisNo).val) ∧ s.dev.axAccepts 15 false = false) ∧
    (∃ (lvl : Lvl) (s : State), s.dev.Reaches lvl (0xA00028 + 0x80 * (0 : AxisNo).val) ∧ s.dev.axAccepts 0 false = true ∧ s.dev.latched 0 true = false ∧
      s.dev.latched 0 false = false ∧ (s.dev.ax 0).prof.run ≠ .maxStop) := by
  refine ⟨⟨3, on (axis .unhomed), ?_, by decide +kernel⟩, ⟨3, on (live .idle), ?_, by decide +kernel⟩, ⟨3, on (axis .seek), ?_, by decide +kernel⟩,
    ⟨3, on (axis .homed), ?_, by decide +kernel⟩, ⟨3, on (axis .fault), ?_, by decide +kernel⟩,
    fun x h => ⟨on (axis x), by rcases h with rfl | rfl | rfl <;> decide +kernel⟩,
    ⟨on (fun d => (axisIs .latch { (default : Axis) with edge := true } d).wr .AX_CFG_FB 2), by decide +kernel⟩,
    ⟨0, on (fun d => atNs (10 ^ 15) (axisIs .seek { (default : Axis) with homeSince := some 0 } d)), by decide +kernel⟩,
    fun x h => ⟨0, on (fun d => atNs (10 ^ 15) (axisIs x { (default : Axis) with feSince := some 0 } d)), by rcases h with rfl | rfl <;> decide +kernel⟩,
    ⟨0, on (fun d => (axisIs .homed { (default : Axis) with feSince := some 0 } d).wr .AX_PLAUS_FETIME 1), by decide +kernel⟩,
    ⟨on (axis .latch), by decide +kernel⟩,
    ⟨on (axisIs .homed { (default : Axis) with prof := upward }), by decide +kernel⟩,
    ⟨on (axisIs .homed { (default : Axis) with prof := upward }), by decide +kernel⟩,
    ⟨10 ^ 20, on (fun d => (axisIs .homed { (default : Axis) with high := ⟨some (10 ^ 20)⟩ } d).wr .AX_SCALE_PM 1), by decide +kernel⟩,
    ⟨3, on (live .idle), ?_, by decide +kernel⟩, ⟨3, on (axis .homed), ?_, by decide +kernel⟩⟩
  all_goals exact ⟨by decide +kernel, _, _, _, rfl, by decide +kernel, by decide +kernel⟩

theorem meets_AxisSamplesTakeEffect :
    (∃ s : State, s.dev.axOn 15 = true ∧ s.dev.flag .AX_CFG_CCOMMIT 15 = true) ∧
    (∃ s : State, s.dev.axOn 0 = true ∧ s.dev.rd .AX_CFG_FB 0 = 2) ∧
    (∃ (h : BitVec 3) (x y : Nat) (s : State), s.dev.axOn 0 = true ∧ s.dev.rd .AX_CFG_FB 0 = 1 ∧ hallSector (s.dev.ax 0).hall = some x ∧
      hallSector h.toNat = some y ∧ y = (x + 1) % 6 ∧ x = 5) ∧
    (∃ (h : BitVec 3) (x y : Nat) (s : State), s.dev.axOn 0 = true ∧ s.dev.rd .AX_CFG_FB 0 = 1 ∧ hallSector (s.dev.ax 0).hall = some x ∧
      hallSector h.toNat = some y ∧ x = (y + 1) % 6 ∧ x = 0) ∧
    (∃ s : State, s.dev.domOn .sup = true) ∧
    (∃ (p : Port) (f : ReturnFrame) (k : Nat) (w : U16) (s : State), s.dev.domOn .sup = true ∧ p.val < s.dev.nAxes / 4 ∧
      (retCrcOk f && decide (f.fcnt.toNat = ((Tab.at s.dev.axp p.val : AxPort).fcnt + 255) % 256)) = true ∧ (w, k) ∈ (retStatus f).zipIdx ∧
      s.dev.axOn (4 * p + k) = true ∧ w.getLsbD 3 = true) ∧
    (∃ (p : Port) (f : ReturnFrame) (s : State), s.dev.domOn .sup = true ∧ p.val < s.dev.nAxes / 4 ∧
      (retCrcOk f && decide (f.fcnt.toNat = ((Tab.at s.dev.axp p.val : AxPort).fcnt + 255) % 256)) = false) ∧
    (∃ (lvl : Lvl) (s : State), s.dev.Reaches lvl (0xA00000 + 0x80 * (15 : AxisNo).val)) ∧
    (∃ (lvl : Lvl) (s : State), s.dev.Reaches lvl (0xA0200C + 0x10 * (3 : Fin 4).val) ∧ s.dev.rd .TR_TRIG_MODE 3 = 0) ∧
    (∃ (lvl : Lvl) (s : State), s.dev.Reaches lvl (0xA0200C + 0x10 * (3 : Fin 4).val) ∧ s.dev.rd .TR_TRIG_MODE 3 ≠ 0) := by
  refine ⟨⟨on (fun d => ((live .idle d).wr .AX_CFG_EN 1 15).wr .AX_CFG_CCOMMIT 1 15), by decide +kernel⟩,
    ⟨on (fun d => (axis .homed d).wr .AX_CFG_FB 2), by decide +kernel⟩,
    ⟨1, 5, 0, on (fun d => (axisIs .homed { (default : Axis) with hall := 5 } d).wr .AX_CFG_FB 1), by decide +kernel⟩,
    ⟨5, 0, 5, on (fun d => (axisIs .homed { (default : Axis) with hall := 1 } d).wr .AX_CFG_FB 1), by decide +kernel⟩,
    ⟨on (live .idle), by decide +kernel⟩, ⟨0, ⟨255, 8, 0, 0, 0, 43515⟩, 0, 8, on (axis .homed), by decide +kernel⟩,
    ⟨3, ⟨254, 0, 0, 0, 0, 0⟩, on (live .idle), by decide +kernel⟩, ⟨3, on (live .idle), ?_⟩, ⟨3, on (fun d => (live .idle d).wr .TR_TRIG_MODE 0 3), ?_, by decide +kernel⟩,
    ⟨3, on (fun d => (live .idle d).wr .TR_TRIG_MODE 3 3), ?_, by decide +kernel⟩⟩
  all_goals exact ⟨by decide +kernel, _, _, _, rfl, by decide +kernel, by decide +kernel⟩

/-- Head 63 guarded, with what the model holds of it. -/
def heated (x : Heat) (d : Dev) : Dev :=
  { (((live .idle d).wr .ZL_CFG_EN 1 63).wr .HT_CFG_EN 1 63).updLane 63 (fun l => { l with memValid := true }) with heat := [(63, x)] }

theorem meets_HeadTemperaturesTakeEffect :
    (∃ (lvl : Lvl) (s : State), s.dev.Reaches lvl (0xA01000 + 0x40 * (63 : LaneNo).val)) ∧
    (∃ s : State, s.dev.runs .cc0 = true ∧ s.dev.flag .HT_CFG_EN 63 = false) ∧
    (∃ s : State, s.dev.runs .cc0 = true ∧ s.dev.flag .HT_CFG_EN 63 = true ∧ s.dev.flag .HT_CFG_CCOMMIT 63 = true ∧ s.dev.fresh 63 = true) ∧
    (∃ s : State, s.dev.guarded 63 = true ∧ s.dev.fresh 63 = true ∧ (s.dev.ht 63).soft.on = false ∧
      ((s.dev.ht 63).soft.sample (s.dev.headT 63) (s.dev.headLimit 63 192) (s.dev.headLimit 63 192 - 32)).on = true ∧ (s.dev.ht 63).hard.on = false ∧
      ((s.dev.ht 63).hard.sample (s.dev.headT 63) (s.dev.headLimit 63 194) (s.dev.headLimit 63 194 - 32)).on = true) ∧
    (∃ s : State, s.dev.guarded 63 = true ∧ s.dev.flag .HT_CFG_PLEN 63 = true ∧ s.dev.plausDue 63 = true ∧
      s.dev.flag .HT_STAT_PLAUS 63 = false) :=
  ⟨⟨3, on (live .idle), ⟨by decide +kernel, _, _, _, rfl, by decide +kernel, by decide +kernel⟩⟩, ⟨on (live .idle), by decide +kernel⟩,
    ⟨on (fun d => (heated { (default : Heat) with readAt := some 0 } d).wr .HT_CFG_CCOMMIT 1 63), by decide +kernel⟩,
    ⟨on (heated { (default : Heat) with readAt := some 0, t := 10 ^ 9, soft := ⟨2, 0, false⟩, hard := ⟨2, 0, false⟩ }), by decide +kernel⟩,
    ⟨on (fun d => atNs (10 ^ 15) ((heated { (default : Heat) with plausAt := some 0 } d).wr .HT_CFG_PLEN 1 63)), by decide +kernel⟩⟩

/-- Both channels trained, with what the model holds of channel A. -/
def memory (st : Nat) (x : MemCh) (d : Dev) : Dev :=
  { ((live .idle d).wr .MEM_CH_STAT_STATE st 0).wr .MEM_CH_STAT_STATE 2 1 with msub := [(0, x)] }

theorem meets_MemoryTakesEffect :
    (∃ s : State, s.dev.trained 0 = true ∧ (s.dev.mch 0).leave2x = false ∧ s.dev.flag .MEM_CH_STAT_BAND2X 0 = false) ∧
    (∃ (td : U16) (s : State), s.dev.trained 0 = true ∧ (s.dev.mch 0).band.on = false ∧ ((s.dev.mch 0).band.sample td.toInt 1360 1328).on = true) ∧
    (∃ (td : U16) (s : State), s.dev.trained 0 = true ∧ (s.dev.mch 0).band.on = true ∧ ((s.dev.mch 0).band.sample td.toInt 1360 1328).on = false) ∧
    (∃ s : State, s.dev.windowMayOpen = true) ∧
    (∃ (l : Nat) (s : State), (s.dev.mch 0).window = some l ∧ l = 8) ∧
    (∃ (l : Nat) (s : State), (s.dev.mch 0).window = some l ∧ l = 9 ∧ (s.dev.mch 0).again = none) ∧
    (∃ s : State, s.dev.flag .MEM_CH_STAT_CALPEND 0 = true ∧ (s.dev.mch 0).window = none ∧ (s.dev.mch 0).late = false ∧
      (s.dev.mch 0).waitSince + 1000000 * s.dev.rd .MEM_CALCFG_LATE < s.dev.now) ∧
    (∃ (eyes : List (Byte × Byte)) (s : State), wfEyes eyes = true ∧ s.dev.trained 1 = true) ∧
    (∃ s : State, s.dev.rd .MEM_CTL_REQ ≠ s.dev.rd .MEM_CTL_CUR ∧ s.dev.st.freqStates = true ∧ (s.dev.mch 0).window = none ∧ s.dev.trained 0 = true ∧
      s.dev.freqWait = true ∧ s.dev.rd .MEM_CTL_REQ = 0) ∧
    (∃ (addr : BitVec 36) (s : State), s.dev.flag .MEM_SCRUB_EN = true ∧ chanOf addr.toNat = 1 ∧ s.dev.addrOk addr.toNat = true ∧ s.dev.trained 1 = true ∧
      s.dram.poison.elem (addr.toNat / 128) = false) :=
  ⟨⟨on (memory 2 default), by decide +kernel⟩, ⟨1360, on (memory 2 { (default : MemCh) with band := ⟨2, 0, false⟩ }), by decide +kernel⟩,
    ⟨1328, on (memory 2 { (default : MemCh) with band := ⟨0, 2, true⟩ }), by decide +kernel⟩,
    ⟨on (fun d => (memory 2 default d).wr .MEM_CH_STAT_CALPEND 1), by decide +kernel⟩,
    ⟨8, on (memory 3 { (default : MemCh) with window := some 8 }), by decide +kernel⟩,
    ⟨9, on (memory 3 { (default : MemCh) with window := some 9 }), by decide +kernel⟩,
    ⟨on (fun d => atNs (10 ^ 15) ((memory 2 default d).wr .MEM_CH_STAT_CALPEND 1)), by decide +kernel⟩, ⟨List.replicate 10 (0, 255), on (memory 2 default), by decide +kernel⟩,
    ⟨on (fun d => { (memory 2 default d).wr .MEM_CTL_CUR 1 with freqWait := true }), by decide +kernel⟩,
    ⟨0xFFFFFFFFF, on (fun d => (memory 2 default d).wr .MEM_SCRUB_EN 1), by decide +kernel⟩⟩

/-- PTP on, LOCK and role as given. -/
def ptpIs (lock role : Nat) (x : Ptp) (d : Dev) : Dev :=
  { ((((live .idle d).wr .PTP_CFG_EN 1).wr .PTP_STAT_LOCK lock).wr .PTP_CFG_ROLE role).wr .PTP_CFG_PORT 0 with ptp := x }

/-- The fallback counter in force, PTP locked, `delta` ns between the counters. -/
def fellBack (delta : Nat) (d : Dev) : Dev :=
  { (ptpIs 1 0 default d).wr .TB_CTL_SRC 1 with
    tb := { d.tb with main := (10 ^ 12 + delta) * 2 ^ 32, fb := 10 ^ 12 * 2 ^ 32, lockedAt := some 0 } }

/-- The fallback counter in force, PTP locked for the time that `TB_CTL.RELOCK` asks. -/
def Relocked (s : State) : Prop :=
  s.dev.flag .TB_CTL_SRC = true ∧ s.dev.flag .PTP_STAT_LOCK = true ∧
    (s.dev.tb.lockedAt.any fun t => decide (t + 1000000000 * s.dev.rd .TB_CTL_RELOCK ≤ s.dev.now)) = true

theorem relocked {s : State} (h : (s.dev.flag .TB_CTL_SRC && s.dev.flag .PTP_STAT_LOCK &&
    s.dev.tb.lockedAt.any fun t => decide (t + 1000000000 * s.dev.rd .TB_CTL_RELOCK ≤ s.dev.now)) = true) : Relocked s := by
  simpa [Relocked, and_assoc] using h

theorem meets_PtpAndTimebase :
    (∃ (offset : U64) (s : State), s.dev.ptpOn = true ∧ s.dev.rd .PTP_CFG_ROLE ≠ 2 ∧ 0 = s.dev.ptpPort ∧ s.dev.flag .PTP_STAT_LOCK = false ∧
      offset.toInt.natAbs = 100 ∧ s.dev.ptp.good = 15) ∧
    (∃ s : State, s.dev.ptpOn = true ∧ s.dev.rd .PTP_CFG_ROLE ≠ 2 ∧ 0 = s.dev.ptpPort ∧ s.dev.flag .PTP_STAT_LOCK = false ∧ s.dev.ptp.good < 15) ∧
    (∃ (offset : U64) (s : State), s.dev.ptpOn = true ∧ s.dev.rd .PTP_CFG_ROLE ≠ 2 ∧ 0 = s.dev.ptpPort ∧ s.dev.flag .PTP_STAT_LOCK = true ∧
      offset.toInt.natAbs = 1001 ∧ s.dev.ptp.bad = 3) ∧
    (∃ s : State, s.dev.ptpOn = true ∧ s.dev.rd .PTP_CFG_ROLE ≠ 2 ∧ 0 = s.dev.ptpPort ∧ s.dev.flag .PTP_STAT_LOCK = true ∧ s.dev.ptp.bad < 3) ∧
    (∃ (id : U64) (s : State), s.dev.ptpOn = true ∧ s.dev.rd .PTP_CFG_ROLE = 1 ∧ 0 = s.dev.ptpPort ∧ s.dev.ptp.master ≠ some id.toNat) ∧
    (∃ s : State, s.dev.ptpOn = true ∧ s.dev.rd .PTP_CFG_ROLE = 2) ∧
    (∃ (t₀ : Nat) (s : State), s.dev.flag .TB_CTL_SRC = false ∧ s.dev.flag .PTP_STAT_LOCK = false ∧ s.dev.tb.unlockedAt = some t₀ ∧
      t₀ + 2000000000 ≤ s.dev.now) ∧
    (∃ s : State, s.dev.ptpOn = true ∧ s.dev.passed s.dev.ptp.syncAt s.dev.announceTime = true) ∧
    (∃ s : State, Relocked s ∧ s.dev.noStep = false ∧ s.dev.tbDelta ≠ 0) ∧
    (∃ s : State, Relocked s ∧ s.dev.noStep = false ∧ s.dev.tbDelta = 0) ∧
    (∃ s : State, Relocked s ∧ s.dev.noStep = true ∧ s.dev.tbDelta.natAbs = 50) ∧
    (∃ s : State, Relocked s ∧ s.dev.noStep = true ∧ s.dev.tbDelta.natAbs = 51) ∧
    (∃ s : State, Relocked s ∧ s.dev.noStep = true ∧ s.dev.tbDelta.natAbs = 1000000) ∧
    (∃ s : State, Relocked s ∧ s.dev.noStep = true ∧ s.dev.tbDelta.natAbs = 1000001) ∧
    (∃ s : State, s.dev.ptpOn = true ∧ s.dev.flag .PTP_CFG_MGFB = true ∧ s.dev.ptpPort ≠ 2 ∧ s.dev.ptp.served = false ∧
      s.dev.passed s.dev.ptp.servedAt 2000000000 = true) ∧
    (∃ s : State, s.dev.ptpOn = true ∧ s.dev.ptpPort = 2 ∧ s.dev.ptp.served = true ∧ s.dev.passed s.dev.ptp.servedAt 10000000000 = true) :=
  ⟨⟨100, on (ptpIs 0 0 { (default : Ptp) with good := 15 }), by decide +kernel⟩, ⟨on (ptpIs 0 0 { (default : Ptp) with good := 14 }), by decide +kernel⟩,
    ⟨1001, on (ptpIs 1 0 { (default : Ptp) with bad := 3 }), by decide +kernel⟩, ⟨on (ptpIs 1 0 { (default : Ptp) with bad := 2 }), by decide +kernel⟩,
    ⟨5, on (ptpIs 1 1 default), by decide +kernel⟩, ⟨on (ptpIs 0 2 default), by decide +kernel⟩,
    ⟨0, on (fun d => let d := atNs (10 ^ 12) ((ptpIs 0 0 default d).wr .TB_CTL_SRC 0); { d with tb := { d.tb with unlockedAt := some 0 } }), by decide +kernel⟩,
    ⟨on (fun d => atNs (10 ^ 15) (ptpIs 0 0 default d)), by decide +kernel⟩,
    ⟨on (fellBack 1), relocked (by decide +kernel), by decide +kernel⟩, ⟨on (fellBack 0), relocked (by decide +kernel), by decide +kernel⟩,
    ⟨on (fun d => (fellBack 50 d).wr .AX_STAT_MOVING 1), relocked (by decide +kernel), by decide +kernel⟩, ⟨on (fun d => (fellBack 51 d).wr .AX_STAT_MOVING 1), relocked (by decide +kernel), by decide +kernel⟩,
    ⟨on (fun d => (fellBack 1000000 d).wr .AX_STAT_MOVING 1), relocked (by decide +kernel), by decide +kernel⟩, ⟨on (fun d => (fellBack 1000001 d).wr .AX_STAT_MOVING 1 15), relocked (by decide +kernel), by decide +kernel⟩,
    ⟨on (fun d => atNs (10 ^ 12) ((ptpIs 0 0 { (default : Ptp) with served := false } d).wr .PTP_CFG_MGFB 1)), by decide +kernel⟩,
    ⟨on (fun d => atNs (10 ^ 12) ((ptpIs 0 0 { (default : Ptp) with served := true } d).wr .PTP_STAT_SRCPORT 2)), by decide +kernel⟩⟩

/-- A module of the ring with ID 7 and axis group 3 of axis 0. -/
def ringMember (x : Ring) (d : Dev) : Dev :=
  { ((axis .homed d).wr .RING_CFG_EN 1).wr .RING_CFG_ID 7 with
    ring := { x with running := true }, boot := { (live .idle d).boot with content := some { (default : CrownContent) with groups := [(3, [0])] } },
    axes := [(0, { (default : Axis) with pend := some default })] }

theorem meets_RingHoldsAndMembers :
    (∃ (src : RingId) (s : State), s.dev.ringOn = true ∧ src.val ≠ s.dev.ringId ∧ (Tab.at s.dev.ring.orig src.val : Orig).lost = false) ∧
    (∃ (id : RingId) (s : State), s.dev.ringOn = true ∧ s.dev.downPassed (Tab.at s.dev.ring.orig id.val : Orig).heard = true ∧
      (Tab.at s.dev.ring.orig id.val : Orig).lost = false ∧
      (Tab.at s.dev.ring.orig id.val : Orig).down = false ∧ s.dev.rd .RING_STAT_HOLDSRC = 2 ^ id.val) ∧
    (∃ s : State, s.dev.ringOn = true ∧ s.dev.localHold ≠ 0) ∧
    (∃ (id : RingId) (m : Member) (s : State), s.dev.ringOn = true ∧ Tab.at s.dev.ring.members id.val = some m ∧ s.dev.downPassed m.at' = true ∧
      s.dev.flag .RING_CFG_LOSTHOLD = true ∧ s.dev.st.running = true) ∧
    (∃ (m : Member) (s : State), s.dev.ringOn = true ∧ s.dev.flag .RING_STAT_UP = true ∧ s.dev.downPassed s.dev.ring.frameAt = true ∧ s.dev.flag .RING_CFG_DOWNHOLD = true ∧
      Tab.at s.dev.ring.members 6 = some m) ∧
    (∃ (src : RingId) (s : State), s.dev.ringOn = true ∧ src.val = s.dev.ringId) :=
  ⟨⟨0, on (ringMember default), by decide +kernel⟩, ⟨0, on (fun d => atNs (10 ^ 12) ((ringMember default d).wr .RING_STAT_HOLDSRC 1)), by decide +kernel⟩,
    ⟨on (fun d => (ringMember default d).wr .AON_STATE_HOLDC 1), by decide +kernel⟩,
    ⟨6, default, on (fun d => atNs (10 ^ 12) (((ringMember { (default : Ring) with members := [(6, some default)] } d).wr .RING_CFG_LOSTHOLD 1).wr
      .AON_STATE_STATE DState.printing.code)), by decide +kernel⟩,
    ⟨default, on (fun d => atNs (10 ^ 12) (((ringMember { (default : Ring) with members := [(6, some default)] } d).wr .RING_STAT_UP 1).wr .RING_CFG_DOWNHOLD 1)),
      by decide +kernel⟩,
    ⟨7, on (ringMember default), by decide +kernel⟩⟩

theorem meets_RingTimeAndStarts :
    (∃ (src : RingId) (t0 : Nat) (s : State), s.dev.ringOn = true ∧ src.val = s.dev.ringId ∧ s.dev.ring.pulseAt = some t0) ∧
    (∃ (src : RingId) (s : State), s.dev.ringOn = true ∧ src.val ≠ s.dev.ringId ∧ s.dev.rd .RING_CFG_TTOL * 1000 <
      ((s.dev.now : Int) - s.dev.fullTime (5 : U32).toNat 0 - (0 * (0 : U32).toNat / max 1 1 : Nat)).natAbs) ∧
    (∃ s : State, s.dev.ringOn = true ∧ s.dev.flag .RING_STAT_MASTER = true) ∧
    (∃ (src : RingId) (sec ns : U32) (s : State), s.dev.ringOn = true ∧ src.val ≠ s.dev.ringId ∧ s.dev.anyPend 3 = true ∧ s.dev.held .inhibit = false ∧
      (s.dev.now : Int) + 100000 = s.dev.fullTime sec.toNat ns.toNat) ∧
    (∃ (src : RingId) (sec ns : U32) (s : State), s.dev.ringOn = true ∧ src.val ≠ s.dev.ringId ∧ s.dev.anyPend 3 = true ∧
      s.dev.fullTime sec.toNat ns.toNat < (s.dev.now : Int) + 100000) ∧
    (∃ s : State, s.dev.ringOn = true ∧ 0 ≠ s.dev.ringId ∧ s.dev.anyPend 3 = true ∧ s.dev.held .inhibit = true) ∧
    (∃ (g : RingId) (s : State), s.dev.groupLate g.val = true) :=
  ⟨⟨7, 0, on (ringMember { (default : Ring) with pulseAt := some 0 }), by decide +kernel⟩, ⟨0, on (ringMember default), by decide +kernel⟩,
    ⟨on (fun d => (ringMember default d).wr .RING_STAT_MASTER 1), by decide +kernel⟩, ⟨0, 0, 100000, on (ringMember default), by decide +kernel⟩,
    ⟨0, 0, 99999, on (ringMember default), by decide +kernel⟩,
    ⟨on (fun d => (ringMember default d).wr .AON_STATE_HOLDC (2 ^ HoldBit.inhibit.num)), by decide +kernel⟩,
    ⟨3, on (fun d => atNs (10 ^ 15) (ringMember default d)), by decide +kernel⟩⟩

/-- A write of level 3 at the address reaches a register of the given fields, present and powered, in the live block. -/
def reaches (p : List Fld → Bool) (a : Nat) (s : State) : Bool :=
  s.dev.allowed 0 a 3 true && decide (a % 4 = 0) &&
    (findReg a).any fun x => p x.1.fields && !s.dev.absent x.1 x.2.1 && s.dev.domOn (domOf x.1 x.2.1)

theorem meets_RegisterAccesses :
    (State.reset.dev.allowed 0 0 0 false = false ∧ State.reset.dev.flag .NOC_PV_VALID = false ∧
      (on (fun d => d.wr .NOC_PV_VALID 1)).dev.flag .NOC_PV_VALID = true) ∧
    (State.reset.dev.allowed 0 0 3 false = true ∧ State.reset.dev.allowed 0 2 3 true = true ∧ State.reset.dev.flag .AON_BUSERR_VALID = false ∧
      (on (fun d => d.wr .AON_BUSERR_VALID 1)).dev.flag .AON_BUSERR_VALID = true) ∧
    (State.reset.dev.allowed 0 0xFFFFFFFC 3 true = true ∧ (findReg 0xFFFFFFFC).isNone = true) ∧
    (State.reset.dev.allowed 0 0x600028 3 true = true ∧ (findReg 0x600028).any (fun x => !State.reset.dev.absent x.1 x.2.1 &&
      !State.reset.dev.domOn (domOf x.1 x.2.1)) = true) ∧
    ((findReg 0xA00418).any (fun x => (on (fun d => { live .idle d with variant := .a32 })).dev.absent x.1 x.2.1) = true) ∧
    (reaches (fun fs => fs.all (fun f => decide ((fldSpec f).acc = .ro))) 0 (on (live .idle)) = true) ∧
    ([(Fld.AON_IMASK_EN, 0x120), (.RW_SKIP_JN_JN, 5247012), (.RW_SKIP_LINE_LINE, 5247016), (.VIS_PARM_W, 9438208), (.TR_THR_THR, 10493960),
      (.XPP_EVMASK_MASK, 13639720), (.HT_SP_SP, 10489860), (.CR_FWBASE_ADDR, 65568), (.NOC_PR_BASE_BASE, 0x100000), (.NOC_PR_LIM_LIM, 0x100004),
      (.RKC_DEFCOST_COST, 2097172), (.RW_LEADREQ_COUNTS, 5242892), (.FIRE_CPR_CPR, 6291464), (.FIRE_LEAD_NS, 6291480), (.FIRE_GAP_COUNTS, 6291484),
      (.AX_SOFT_POS, 10485784), (.AX_COEF_C, 10485856), (.HT_COEF_C, 10489872), (.AB_AMAX_A, 0xB00008), (.XPP_ID_ID, 13639684),
      (.TB_XTAL_PPB, 13643840), (.DMA_CTL_RETRY, 0xF00000), (.AON_EVPEND_PEND, 0x100), (.AON_RIRQ_LO_RING, 0x110), (.AON_RIRQ_HI_RING, 0x114),
      (.DMA_HALT_LO_HALT, 0xF00008), (.DMA_HALT_HI_HALT, 0xF0000C)].all
        (fun x => reaches (fun fs => decide (fs = [x.1])) x.2 (on (live .idle))) = true) := by decide +kernel

theorem meets_ReadsLatchTheOtherWords :
    ((on (live .idle)).dev.allowed 0 0x600028 3 false = true ∧ (on (live .idle)).dev.allowed 0 0x600030 3 false = true ∧
      (on (live .idle)).dev.allowed 0 0xE00010 3 false = true ∧ (on (live .idle)).dev.domOn .sup = true) ∧
    ((on (live .idle)).dev.allowed 0 0xD03004 3 false = true ∧ (on (live .idle)).dev.domOn .net = true) := by decide +kernel

/-! ### The hypothesis of the frames: each command gives a next state, here in the state after reset -/

/-- The command gives a next state. -/
def runs (c : Instr) (s : State) : Bool := match exec c s with | .next _ => true | _ => false

theorem meets_FramesOfPowerAndRequests :
    [.powerGood, .supplyWarning 0, .supplyWarningClear 0, .crownHeaderRead 0 0, .dramTraining (List.replicate 40 (0, 255)), .secondPass [],
      .hello pc, .heartbeat pc, .noteResend pc 0, .start pc 0 0 0, .stop pc, .hold pc, .resume pc, .speedLimit pc 0, .shutdownAck pc,
      .rkRelease pc 0, .headClear pc 0, .axisTarget pc 0 0, .axisHome pc 0, .heatSet pc 0 0 0, .jobCancelFinish pc 0, .jobCancelAbort pc 0,
      .queueOrder pc [], .jobQuery pc 0, .regRead pc [], .nvmOpen pc 0, .nvmErase pc 0 0, .nvmWrite pc 0 [], .nvmCrc pc 0 0, .nvmClose pc,
      .debugEnable pc, .debugDisable pc, .lockSet pc 0, .logRead pc 0 0, .logErase pc].all (runs · State.reset) = true := by
  decide +kernel

theorem meets_FramesOfInputsJobsAndReckoners :
    [.xppPeerLost 0, .statusPeriod, .holdPinAssert, .holdPinRelease, .inhibitAssert, .inhibitRelease, .presenceAssert, .presenceLost,
      .bulkConnection 0 (List.replicate 32 0), .bulkConnectionClose 0, .ahnusRecord 0 [] false, .jobRecvTimeout 0, .commitmentPoint,
      .autoPlacement, .workPost (List.replicate 64 0), .workSteal 0, .bandColumnRendered 0 default, .witnessDone 0 [], .thirdRenderDone 0 default,
      .cacheBuildDone 0 default, .reckonerTrap 0 .fetch false, .renderWatchdog 0, .strikeExpiry 0, .rkcMittenWrite 3 0].all (runs · State.reset) = true := by
  decide +kernel

theorem meets_FramesOfDosingAndRings :
    [.doseBandStart, .doseLine 0 ⟨none, none, none⟩, .rodRefetch 0 false, .tableReload, .rodEnqueue 3 0 0, .rodCommit 3 0, .rodRelease 3 0,
      .rodWindowWrite 3 0 0, .plTailWrite 3 0 0 [], .slotStart 0, .slotReady 0 [], .slotReadStart 0 ⟨true, true, true, true, none, []⟩,
      .skipArm 3 0, .dmaTailWrite 3 0 0 [], .dmaDescriptorDone 0 (List.replicate 12 0) [] 0 false, .dmaHalt 0, .dmaHaltClear 3 false 0].all (runs · State.reset) = true := by
  decide +kernel

theorem meets_FramesOfTheWebAndLanes :
    [.encoderCount false false, .encoderIndex false, .encNoindex, .encLine .a, .encStandstill, .sendPoint 0, .fireRepredict,
      .placementLinesLower 3 0 0, .laneEnable 0, .blockLock 0, .lockLost 0, .laneUp 0 0, .beaconPeriod 0,
      .statusFrame 0 ⟨0, 0, 0, 0, 0, 0, 0, 0, 0, 0⟩, .statusTimeout 0, .zlRecovStop 0, .doseFrameSend 0 false, .heatPeriod,
      .echoFrame 0 ⟨0, 0, 0, 0, 0, 0, false⟩, .echoTimeout 0 0 0, .rxFrameError 0, .mgmtResponse 0 (.eeRead 0 []), .txSleepRequest 3 0,
      .rxSleepRequest 3 0, .parkRequest 3 0, .laneWake 0, .loopModeWrite 3 0 0, .loopTest 3 0 0].all (runs · State.reset) = true := by
  decide +kernel

theorem meets_FramesOfMarksAndCameras :
    [.markPoint 0 0 false, .wasteMarkEnd, .sprFlush, .tallyFold 3 0, .tallyInB 3 0, .tallyInH 3 0, .tallyInW 3 0, .tallyValWrite 3 0 0,
      .triggerEnqueue 3 0 0, .cameraTrigger 0, .triggerPulseEnd 0, .strobeStart 0, .strobeEnd 0, .csiPacket 0 ⟨0, 0, 0, [], true, [], false⟩,
      .frameEnd 0, .frameWatchdogTimeout 0, .camResetDone 0, .exposureCommit 3 0, .i2cListComplete 0, .camI2cFail 0 0, .calStart 3 0,
      .ffbaseWrite 3 0 0].all (runs · State.reset) = true := by
  decide +kernel

theorem meets_FramesOfLoopsAxesAndHeat :
    [.gapMeasurement 0 0 0 0 [], .handoverStep 0, .axsyncPeriod, .axisSample, .returnFrame 0 ⟨0, 0, 0, 0, 0, 0⟩, .followingErrorFault 0,
      .limitTrip 0 false, .limitLatchClear 0 false, .homeInputChange 0 .active, .homingTimeout 0, .axTgtWrite 3 0 0, .axHome 3 0, .axStop 3 0,
      .axFclr 3 0, .axCcommit 3 0, .htCcommit 3 0, .heaterSample, .headTempSample 0, .headPlaus 0, .traceArm 3 0, .epochEnd 0 0, .hkTempDemand,
      .tempDemand 3 0, .tempConversionDone (List.replicate 10 0), .shutdownRecordWritten, .axisFeedbackChange 0 (.hall 0)].all (runs · State.reset) = true := by
  decide +kernel

theorem meets_FramesOfMemoryTimeAndRing :
    [.speedCeilPeriod, .refreshInterval 0 false, .mr4Poll 0 0, .calWindowOpen, .calWindowEnd 0 0 false, .memCalLate,
      .channelBRetrain (List.replicate 10 (0, 255)), .freqChange 0, .scrubRead 0 .clean, .writeDrain 0, .ptpSync 0 0 0, .announceTimeout,
      .tbFallback, .tbMain, .mgmtPtpFallback, .mgmtPtpReturn, .ringHoldFrame 0 0 false 0 0, .ringStartFrame 0 0 0 0 0, .ringPulseFrame 0 0 0 0,
      .ringStatusFrame 0 0 false 0 0 0 0 0 0, .ringStatusSend, .ringHoldSend, .ringMemberLost 0, .ringDown, .pulseSend, .countLatch,
      .groupStartTimeout 0, .evrBufferClose, .invalidRegisterAccess 3 0 0 false, .ringHoldOriginatorTimeout 0, .ptpAnnounce 0 .own,
      .ptpSyncInterval, .xppMessageDiscard 0 .crc, .ringFrameCrcFail].all (runs · State.reset) = true := by
  decide +kernel

theorem meets_RingStores :
    [.dmaDescriptorDone 0 (List.replicate 12 0) [] 0 false, .dmaHalt 0, .dmaTailWrite 3 0 0 [List.replicate 32 0], .evrBufferClose, .sprFlush,
      .csiPacket 0 ⟨0, 0, 0, [], true, [], false⟩, .frameEnd 0, .frameWatchdogTimeout 0].all (runs · (on (live .idle))) = true := by
  decide +kernel

theorem meets_RunwayStores :
    [.plTailWrite 3 0 0 [0], .slotStart 0, .slotReadStart 0 ⟨true, true, true, true, none, []⟩, .skipArm 3 0, .rodRelease 3 0, .secondPass [], .scrubRead 0 .clean].all
      (runs · (on (live .idle))) = true ∧
    (((on (fun d => { live .idle d with rwy := [(0, { d.rw 0 with slots := [default] })] })).dev.openSlot 0).isSome = true ∧
      runs (.slotReady 0 []) (on (fun d => { live .idle d with rwy := [(0, { d.rw 0 with slots := [default] })] })) = true) ∧
    (State.reset.dev.openSlot 0 = none ∧ runs (.slotReady 0 []) State.reset = true) ∧
    ((findReg 0x10010).any (fun x => x.1.fields.elem .CR_BOOTSEL_RESTART && !x.1.fields.elem .RW_SKIP_CTL_ARM) = true ∧
      runs (.registerWrite 3 0x10010 2) State.reset = true) ∧
    ((findReg 0x120).any (fun x => !x.1.fields.elem .CR_BOOTSEL_RESTART) = true ∧ runs (.registerWrite 3 0x120 0) State.reset = true) ∧
    ((findReg 0xFFFFFFFC).isNone = true ∧ runs (.registerWrite 3 0xFFFFFFFC 0) State.reset = true) := by
  decide +kernel

/-- A list of entries checked one by one. -/
def quietB (es : List (Nat × Nat)) : Bool :=
  es.all fun e => (findReg e.1).all fun x => !x.1.fields.elem .CR_BOOTSEL_RESTART && !x.1.fields.elem .RW_SKIP_CTL_ARM

theorem quiet_of (es : List (Nat × Nat)) (h : quietB es = true) : Quiet es := by
  constructor <;> intro e he r i j hf <;> have q := List.all_eq_true.mp h e he <;> simp [hf] at q <;> simp_all

/-- Both spans hold headers of no record. -/
def bare (d : Dev) : Dev :=
  { d with nor := { d.nor with log := [⟨0, List.replicate 64 0⟩, ⟨33554432, List.replicate 64 0⟩] },
           boot := { d.boot with content := some content } }

theorem regs_bare (n : Nat) : (on bare).dev.regsOf (n + 1) = (on bare).dev.regsOf 1 := by
  have h (k : Nat) : (on bare).dev.hdr (k + 1) = (on bare).dev.hdr 1 := rfl
  have n0 : ((on bare).dev.hdr 1).nrec = 0 := by decide +kernel
  simp only [Dev.regsOf, Dev.recs, h, n0]
  rfl

theorem quiet_bare (img : Nat) : Quiet (((on bare).dev.regsOf img).filter early ++ (if img = 0 then content else content).net) := by
  rw [ite_self]
  cases img with
  | zero => exact quiet_of _ (by decide +kernel)
  | succ n => rw [regs_bare]; exact quiet_of _ (by decide +kernel)

theorem meets_OtherCommandsKeepMemory :
    (storesNothing .powerGood = true ∧ runs .powerGood State.reset = true) ∧
    [.powerOnReset, .inputReset9v8, .overvoltageDisconnect, .debugReset, .crRestart 3, .restart pc, .contentCheck, .shutdownPowerDown,
      .evaluationPeriodEnd true []].all (runs · State.reset) = true ∧
    ((∀ img, Quiet (((on bare).dev.regsOf img).filter early ++ (if img = 0 then content else content).net)) ∧
      runs (.crownFirstPass content content) (on bare) = true) ∧
    (∃ s : State, s.dev.boot.content = some content ∧ Quiet ((s.dev.regsOf (s.dev.rd .CR_STAT_IMG)).filter later ++ content.ring) ∧
      Quiet ((s.dev.regsOf (s.dev.rd .CR_STAT_IMG)).filter forDpCfg) ∧
      Quiet (content.cams.flatMap (fun x => x.2) ++ content.axes ++ content.abacus) ∧
      [.engineRelease, .rodBuild, .bootComplete].all (runs · s) = true) :=
  ⟨by decide +kernel, by decide +kernel,
    ⟨quiet_bare, by decide +kernel⟩,
    ⟨on bare, by decide +kernel, quiet_of _ (by decide +kernel), quiet_of _ (by decide +kernel), quiet_of _ (by decide +kernel), by decide +kernel⟩⟩

/-! ### Values of the spec: its check values and its worked examples, Press E1 -/

/-- The check value of the CRC (02, R26), over the nine bytes "123456789". -/
theorem test_crc32c : crc32c ([0x31, 0x32, 0x33, 0x34, 0x35, 0x36, 0x37, 0x38, 0x39].map (BitVec.ofNat 8)) = 0xE3069283#32 := by decide +kernel

/-- The event codes of the example of 17. -/
theorem test_event_codes : Ev.HEAD_HOT.code = 0x4A21 ∧ Ev.ENC_SLIP.code = 0x2611 ∧ Ev.CROWN_FALLBACK.code = 0x2410 ∧ Ev.NZ_DEAD.code = 0x1902 ∧
    Ev.SHUTDOWN_TEMP.code = 0x8001 := by decide

/-- Bar 7 at E1: W nozzle 100 of head slot 56 is channel 229,476 (00); nozzle 1,000 of head 2 of bar 3 is channel 107,496 at position 9,144
and reads from q = 585,176 (04). -/
theorem test_channels :
    (⟨7, 7, 0, 8, 8, 24, 56⟩ : PipeGeom).chan 0 100 = 229476 ∧ (⟨3, 3, 0, 8, 8, 24, 24⟩ : PipeGeom).printable = 32600 ∧
    (⟨3, 3, 0, 8, 8, 24, 24⟩ : PipeGeom).chan 2 1000 = 107496 ∧ (⟨3, 3, 0, 8, 8, 24, 24⟩ : PipeGeom).pos 2 1000 = 9144 ∧
    (State.reset.dev.wr .DP_SHIFT_CUR 40 3).gatherPos ⟨⟨3, 3, 0, 8, 8, 24, 24⟩, default, default, 0, none, []⟩ 2 1000 = 585176 := by
  decide +kernel

/-- Stage 1 of the example of 04: gain 140 on 30,000 and 31,400. -/
theorem test_stage1 :
    let d := { State.reset.dev with curveSet := some 0, boot := { State.reset.dev.boot with content := some { content with
      curves := [(0, [[], [], [], [], [], [30000, 31400]])] } } }
    d.correct (5 * 2 ^ 24 + 140 * 2 ^ 16) 0 = 32813 ∧ d.correct (5 * 2 ^ 24 + 140 * 2 ^ 16) 1 = 34344 := by decide +kernel

/-- Code 5 of nozzle 1,000 stands in bits 2:0 of byte 375 of a head-line of 1,536 bytes (04). -/
theorem test_head_line :
    (packCodes 3 (List.replicate 1000 0 ++ [5]))[375]? = some 5#8 ∧ (packCodes 3 (List.replicate 1000 0 ++ [5])).length = 1536 := by decide +kernel

/-- Line 100,000 of bar 3 is lattice line 125,512, bead 5, at 1,870,538.387 counts to within 0.002, the rounding of the
manual's own arithmetic (06). -/
theorem test_fire_position :
    let p : Pl := ⟨0, 0x101, 1000000 * 2 ^ 32, 25400 * 8192 * 2 ^ 32 / (1200 * 25000), 0⟩
    p.q 45298819 100000 5 = 125512 * 64 + 5 ∧ (p.pos38 45298819 100000 5 * 1000 / 2 ^ 38 - 1870538387).natAbs ≤ 2 := by decide +kernel

/-- A slip of +9 counts after a revolution of 131,072 (06): the deviation, the count of slips, the reference and the event. -/
theorem test_encoderIndex_slip :
    let s := on fun d => (((({ live .printing d with fire := { d.fire with cnt := 131081 } } : Dev).wr .FIRE_ENC_IDXEN 1).wr .FIRE_CPR_CPR 131072).wr
      .FIRE_IDXREF_HI_SET 1).wr .FIRE_IDXCFG_TOL 2
    (match exec (.encoderIndex (!s.dev.flag .FIRE_SPDSTAT_DIR)) s with
      | .next t => (t.dev.srd .FIRE_IDXDEV_DEV, t.dev.rd .FIRE_SLIPCNT_SLIPS, t.dev.xref.toNat, bitOf (t.dev.rd .AON_EVPEND_PEND 1) 6)
      | _ => (0, 0, 0, false)) = (9, 1, 131081, true) := by decide +kernel

/-- The stop from 25 mm/s of the example of 11: 1.0 ms and 640 steps, at 51,200 steps per mm, 50 m/s^2 and 10^5 m/s^3. -/
theorem test_axis_stop :
    let k : Kin := ⟨2 ^ 62, 2560000000 * 2 ^ 32, 5120000000000, 0⟩
    phaseTime k (1280000 * 2 ^ 32) = 1000000 ∧ dStop k (1280000 * 2 ^ 32) = 640 * 2 ^ 32 := by decide +kernel

/-- The third sample at or above 55 degrees (11): the head goes dark, `HEAD_HOT` sets bit 10 of `AON_EVPEND[2]`, a stop is requested (17). -/
theorem test_headTempSample_hot :
    (match exec (.headTempSample 26) (on fun d => { ((((live .printing d).wr .ZL_CFG_EN 1 26).wr .HT_CFG_EN 1 26).updLane 26
        (fun l => { l with memValid := true, mem := List.replicate 194 0 ++ le 2 880 })) with
        heat := [(26, { (default : Heat) with readAt := some 0, t := 883 * 4096, hard := ⟨2, 0, false⟩ })] }) with
      | .next t => (t.dev.flag .HT_STAT_HARD 26, bitOf (t.dev.rd .AON_EVPEND_PEND 2) 10, t.dev.rd .AON_STATE_STOPREQ != 0, (t.dev.lane 26).isDark)
      | _ => (false, false, false, false)) = (true, true, true, true) := by decide +kernel

/-- The fan of speeds of 14: a ceiling of 819,200 of 1,048,576 counts/s over 1,000 us is high for 188,281 ticks. -/
theorem test_speedCeilPeriod :
    (match exec .speedCeilPeriod (on fun d => (((((live .printing d).wr .XPP_CTL_SCEN 1).wr .XPP_SCFS_FS 1048576).wr .XPP_SCEIL_PERIOD 1000).wr
        .AB_CEIL_C 819200)) with
      | .next t => t.dev.pins.sceil
      | _ => none) = some 188281 := by decide +kernel

/-- Commands run first in, first out. -/
theorem test_queue :
    (match step { State.reset with pending := [.powerGood, .powerOnReset] } with
      | .next t => (t.pending, t.dev.st)
      | _ => ([], .off)) = ([.powerOnReset], .boot) := by decide +kernel

/-- The variant's values in AON_ID.VARIANT and RW_POOL.COUNT (00, Table 0-1; 05, RW_POOL; 17, AON_ID). -/
theorem test_variant_values :
    ((on (fun d => { live .idle d with variant := .a32 })).dev.readReg 3 0x0).1 % 16 = 2 ∧
    ((on (live .idle)).dev.readReg 3 0x0).1 % 16 = 1 ∧
    ((on (fun d => { live .idle d with variant := .a32 })).dev.readReg 3 0x500000).1 = 0x38000 ∧
    ((on (live .idle)).dev.readReg 3 0x500000).1 = 0x78000 := by decide +kernel

/-- The reserved bits of AON_STATE are [7:4] and [31:24] (17, AON_STATE; 00, R8). -/
theorem test_reserved_bits : (findReg 4).map (fun x => x.1.reserved (2 ^ 32 - 1)) = some 0xFF0000F0 := by decide +kernel

end Sys2Proof.Tests
end

/-! A request that reception passes on and a check refuses (14, R330 to R332): what the refusal leaves unchanged and what it
answers. With it, the requests for absent resources (00, R6). -/
namespace Sys2Proof.Machine

/-- What reception of a request changes stands in the press protocol's own records, at which no check of the request looks. -/
theorem receive_got_keeps {d : Dev} {x : XppIn} {r : Role} (hg : (d.receive x).2 = .got r) :
    ∃ e, d.receive x = (e, .got r) ∧ Dev.Only (partsMask [Part.xpp]) 0 d e ∧ e.refusal e.st r x.req = d.refusal d.st r x.req := by
  obtain ⟨y, hy⟩ := receive_got hg
  exact ⟨{ d with xpp := y }, Prod.ext hy hg, Dev.Only.with_xpp y rfl (Dev.Only.refl _ _ d), rfl⟩

/-- A request alone in its window that a check refuses is answered NACK; nothing is carried out. -/
theorem request_of_refusal {s : State} {d : Dev} {x : XppIn} {r : Role} {n : Nack} (hr : s.dev.receive x = (d, .got r))
    (hn : d.refusal d.st r x.req = some n) : s.request x = { s with dev := d.reply r x.hdr.seq.toNat (.nack n) } := by
  unfold State.request
  simp only [hr, hn]
  rfl

/-- A NACK after reception changes the protocol's records, the outputs and the count of NACKs only. -/
theorem nack_unchanged {s : State} {d : Dev} (h : Dev.Only (partsMask [Part.xpp]) 0 s.dev d) (r : Role) (k : Nat) (n : Nack) :
    Unchanged [Part.xpp, Part.out] [Fld.XPP_NCNT_NACK] s { s with dev := d.reply r k (.nack n) } :=
  reply_keep r k (.nack n) (h.mono rfl (Nat.zero_and _)) rfl (Nat.and_self _)

/-- The row of a request that a check refuses. -/
theorem gives_refused {c : Instr} {x : XppIn} {r : Role} {n : Nack} {s : State} (hc : requestOf c = some x)
    (hg : (s.dev.receive x).2 = .got r) (hn : s.dev.refusal s.dev.st r x.req = some n) :
    Gives c s fun t => Unchanged [Part.xpp, Part.out] [Fld.XPP_NCNT_NACK] s t ∧ Refused r x.hdr n s t := by
  obtain ⟨d, hr, hd, hchk⟩ := receive_got_keeps hg
  have ht := request_of_refusal hr (hchk.trans hn)
  have hup : d.rd .XPP_PEER_UP = s.dev.rd .XPP_PEER_UP := hd.regs .XPP_PEER_UP (Nat.zero_testBit _) 0 0
  refine gives_next (request_next hc) ?_
  rw [ht]
  exact ⟨nack_unchanged hd r _ n, refused_reply hup n⟩

/-- Settles O24: the checks that go before RANGE pass, and the number of an absent resource is out of its field's range, so
the request is refused by that check (the order of the checks is assumption 58). -/
theorem absentResourcesRefused : Obligations.AbsentResourcesRefused := by
  unfold Obligations.AbsentResourcesRefused
  intro c x r s hc hg hwhole hfrom hstate hsv0 habsent
  exact gives_refused hc hg (refusal_absent hwhole hfrom hstate hsv0 habsent)

end Sys2Proof.Machine

/-! Steps of the queue, and that every command answers a next state (00, R24). -/
namespace Sys2Proof.Machine

/-- Settles O1: a step takes the front of the queue and runs it with the rest (assumption 1). -/
theorem stepRunsFront : Obligations.StepRunsFront := by
  unfold Obligations.StepRunsFront
  intro c rest s
  rfl

/-! ### Outcomes that are a next state

Most meanings answer `.next` outright; those that first look at the state do so on each of their branches. -/

/-- The outcome is a next state. -/
def Completes (o : Out) : Prop := ∃ t, o = .next t

theorem completes_next (t : State) : Completes (.next t) := ⟨t, rfl⟩

theorem completes_act (s : State) (f : Dev → Dev) : Completes (s.act f) := ⟨_, rfl⟩

theorem completes_ite {p : Prop} [Decidable p] {o o' : Out} (h : Completes o) (h' : Completes o') :
    Completes (if p then o else o') := by
  split
  · exact h
  · exact h'

theorem reckonerTrap_completes (rk : RkNo) (cause : TrapCause) (poisoned : Bool) (s : State) :
    Completes (execReckonerTrap rk cause poisoned s) := completes_ite (completes_act _ _) (completes_next s)

theorem rodRefetch_completes (ch : BitVec 18) (masterPoisoned : Bool) (s : State) :
    Completes (execRodRefetch ch masterPoisoned s) := by
  unfold execRodRefetch
  split
  · exact completes_next s
  · exact completes_act _ _

theorem plTailWrite_completes (lvl : Lvl) (i : Pipe) (idx : BitVec 19) (pages : List U32) (s : State) :
    Completes (execPlTailWrite lvl i idx pages s) := completes_ite (completes_next s) (completes_act _ _)

theorem skipArm_completes (lvl : Lvl) (i : Pipe) (s : State) : Completes (execSkipArm lvl i s) :=
  completes_ite (completes_next _) (completes_act _ _)

theorem dmaHalt_completes (r : RingNo) (s : State) : Completes (execDmaHalt r s) := by
  unfold execDmaHalt
  split
  · exact completes_next _
  · exact completes_next s

theorem csiPacket_completes (p : Port) (pkt : CsiPkt) (s : State) : Completes (execCsiPacket p pkt s) := by
  unfold execCsiPacket
  split
  · exact completes_next _
  · exact completes_next s

theorem frameEnd_completes (p : Port) (s : State) : Completes (execFrameEnd p s) := by
  unfold execFrameEnd
  split
  · exact completes_ite (completes_next _) (completes_next s)
  · exact completes_next s

theorem frameWatchdogTimeout_completes (p : Port) (s : State) : Completes (execFrameWatchdogTimeout p s) := by
  unfold execFrameWatchdogTimeout
  split
  · exact completes_ite (completes_next s) (completes_ite (completes_next _) (completes_next _))
  · exact completes_next s

theorem shutdownPowerDown_completes (s : State) : Completes (execShutdownPowerDown s) :=
  completes_ite (completes_next _) (completes_next s)

theorem scrubRead_completes (addr : BitVec 36) (outcome : ScrubOutcome) (s : State) : Completes (execScrubRead addr outcome s) := by
  refine completes_ite (completes_next s) (completes_ite (completes_next _) ?_)
  cases outcome with
  | clean => exact completes_next s
  | corrected die => exact completes_next _
  | uncorrectable => exact completes_next _

/-- Settles O6: the commands named are those whose meaning looks at the state before it answers; every other meaning is `.next` by
its definition. -/
theorem everyCommandCompletes : Obligations.EveryCommandCompletes := by
  unfold Obligations.EveryCommandCompletes
  intro c s
  cases c with
  | reckonerTrap rk cause poisoned => exact reckonerTrap_completes rk cause poisoned s
  | rodRefetch ch masterPoisoned => exact rodRefetch_completes ch masterPoisoned s
  | plTailWrite lvl i idx pages => exact plTailWrite_completes lvl i idx pages s
  | skipArm lvl i => exact skipArm_completes lvl i s
  | dmaHalt r => exact dmaHalt_completes r s
  | csiPacket p pkt => exact csiPacket_completes p pkt s
  | frameEnd p => exact frameEnd_completes p s
  | frameWatchdogTimeout p => exact frameWatchdogTimeout_completes p s
  | shutdownPowerDown => exact shutdownPowerDown_completes s
  | scrubRead addr outcome => exact scrubRead_completes addr outcome s
  | _ => exact completes_next _

end Sys2Proof.Machine

/-! Frames of the dose pipelines, the runway and the DMA rings, read off the masks that `exec_only` gives each command. -/
namespace Sys2Proof.Machine
-- The masks of register fields have a bit per field; they evaluate as powers of two up to the last field's number.
set_option exponentiation.threshold 600

/-- A command leaves as they were the parts and fields outside lists that cover its masks. -/
theorem exec_unchanged {c : Instr} {s t : State} {ps : List Part} {fs : List Fld} (h : exec c s = .next t)
    (hp : cmdParts c &&& partsMask ps = cmdParts c) (hf : cmdFields c &&& fieldsMask fs = cmdFields c) : Unchanged ps fs s t :=
  (exec_only c s t h).unchanged hp hf

/-- Settles O56: each clause's lists cover the masks of its command. -/
theorem framesOfDosingAndRings : Obligations.FramesOfDosingAndRings := by
  unfold Obligations.FramesOfDosingAndRings
  refine ⟨?_, ?_, ?_, ?_, ?_, ?_, ?_, ?_, ?_, ?_, ?_, ?_, ?_, ?_, ?_, ?_, ?_⟩ <;> intros <;> rename_i h
  all_goals exact exec_unchanged h (by simp only [cmdParts]; rfl) (by simp only [cmdFields]; rfl)

end Sys2Proof.Machine

/-! The end of an evaluation period (01, R24; 14, R340), and the shutdown sequence that it begins (12, R304, R305). -/
namespace Sys2Proof.Machine

/-! ### A period without messages -/

/-- The block as a period's end finds it: in IDLE to HOLD an underrun cause whose lead has returned has cleared. -/
def Dev.atPeriodEnd (d : Dev) : Dev := if d.st.idleToHold then d.clearUnderrun else d

theorem atPeriodEnd_shut (d : Dev) : d.atPeriodEnd.shut = d.shut := by
  unfold Dev.atPeriodEnd
  split
  · exact (Dev.clearUnderrun_only d).parts .shut rfl
  · rfl

theorem atPeriodEnd_of_running {d : Dev} (h : d.st.running = true) : d.atPeriodEnd = d.clearUnderrun :=
  if_pos (by revert h; cases d.st <;> decide)

theorem settle_nil (d : Dev) : d.settle [] = (d, []) := rfl

/-- With no messages only the state events, what a hold orders and the release of entries are left of a window. -/
theorem window_nil (s : State) :
    s.window [] = { s with dev := { s.dev.atPeriodEnd.stateEvents.1.holdOrdered.freeEntries with holdSeen := 0 } } := by
  unfold State.window Dev.atPeriodEnd
  simp only [Dev.receiveAll, Dev.refuseBy, settle_nil, List.foldl_nil, Dev.forEach]

theorem evaluationPeriodEnd_gives {b : Bool} {reqs : List XppIn} {s : State} {p : State → Prop} (h : s.dev.st ≠ .off)
    (hp : p (s.window reqs)) : Gives (.evaluationPeriodEnd b reqs) s p :=
  gives_next (t := s.window reqs) (congrArg Host.Outcome.next (if_neg h)) hp

theorem running_ne_off {d : DState} (h : d.running = true) : d ≠ .off := by
  rintro rfl
  cases h

theorem freeEntries_st (d : Dev) : d.freeEntries.st = d.st := (Kst.of (Dev.freeEntries_only d) rfl).st

theorem freeEntries_shut (d : Dev) : d.freeEntries.shut = d.shut := (Dev.freeEntries_only d).parts .shut rfl

/-! ### O22 -/

theorem window_holdSeen (s : State) (reqs : List XppIn) : (s.window reqs).dev.holdSeen = 0 := rfl

theorem evaluationPeriodEnd_off {s : State} (b : Bool) (reqs : List XppIn) (h : s.dev.st = .off) :
    exec (.evaluationPeriodEnd b reqs) s = .next s := congrArg Host.Outcome.next (if_pos h)

theorem stateEvents_progress {d : Dev} (hs : d.shutDue = none) (hc : d.rd .AON_STATE_HOLDC = 0) (hh : d.holdSeen = 0) :
    d.stateEvents = (d.progress, false) := by
  have hd : d.holdDue = false := by
    unfold Dev.holdDue
    rw [hc, hh]
    simp
  unfold Dev.stateEvents
  rw [hs]
  exact if_neg (by rw [hd]; decide)

theorem holdOrdered_noCause {d : Dev} (h : d.rd .AON_STATE_HOLDC = 0) : d.holdOrdered = d :=
  if_neg (by unfold Dev.held; rw [h]; simp [bitOf])

/-- With no shutdown due, no cause and no messages, the period's end makes the transitions of placement and firing alone. -/
theorem window_nil_progress {s : State} (hs : s.dev.shutDue = none) (hh : s.dev.holdSeen = 0) (hc : s.dev.rd .AON_STATE_HOLDC = 0)
    (hr : s.dev.st.running = true) : (s.window []).dev.st = s.dev.clearUnderrun.progress.st := by
  obtain ⟨hc0, hh0⟩ := noCause_clear s.dev hc hh
  have hs0 : s.dev.clearUnderrun.shutDue = none := (shutDue_congr ((Dev.clearUnderrun_only _).parts .shut rfl)).trans hs
  rw [window_nil, holdSeen_st, freeEntries_st, atPeriodEnd_of_running hr, stateEvents_progress hs0 hc0 hh0,
    holdOrdered_noCause ((progress_holdc _).trans hc0)]

/-- Settles O22: a hold cause of the period wins over every message that orders a state (`window_hold`); with none, the transitions
are those of `progress_st`. -/
theorem evaluationPeriodEndTakesEffect : Obligations.EvaluationPeriodEndTakesEffect := by
  unfold Obligations.EvaluationPeriodEndTakesEffect
  refine ⟨fun b reqs s => ?_, fun b reqs s hq hr hd hc => ?_, fun b s hd hh hc hr => ?_⟩
  · by_cases ho : s.dev.st = .off
    · exact gives_next (evaluationPeriodEnd_off b reqs ho) ⟨fun _ => rfl, fun h => absurd ho h⟩
    · exact evaluationPeriodEnd_gives ho ⟨fun h => absurd h ho, fun _ => window_holdSeen s reqs⟩
  · refine evaluationPeriodEnd_gives (running_ne_off hr) (window_hold s reqs ?_ hr hc hd)
    rcases hq with rfl | ⟨x, rfl, hx⟩
    · simp
    · simpa using hx
  · refine evaluationPeriodEnd_gives (running_ne_off hr) ?_
    have hst : s.dev.clearUnderrun.st = s.dev.st := (Kst.of (Dev.clearUnderrun_only s.dev) rfl).st
    have hp := progress_st s.dev.clearUnderrun
    rw [hst] at hp
    rw [window_nil_progress hd hh hc hr]
    exact hp

/-! ### O12 -/

theorem stateEvents_shutdown {d : Dev} {x : Shut} {e : Nat × Nat} (hs : d.shut = some x) (hd : x.due = some e) :
    d.stateEvents = (d.enterShutdown x e.1 e.2, true) := by
  have h : d.shutDue = some (x, e) := by simp [Dev.shutDue, hs, hd]
  unfold Dev.stateEvents
  rw [h]

theorem enterShutdown_st (d : Dev) (x : Shut) (cause event : Nat) : (d.enterShutdown x cause event).st = .shutdown := enter_st _ _

theorem enterShutdown_shut (d : Dev) (x : Shut) (cause event : Nat) :
    (d.enterShutdown x cause event).shut = some { x with due := none, record := d.shutdownRec cause event } :=
  (Dev.enter_only _ _).parts .shut rfl

theorem holdOrdered_of_not_running {d : Dev} (h : d.st.running = false) : d.holdOrdered = d := if_neg (by rw [h]; simp)

/-- A cause that is due is taken at the end of the period. -/
theorem window_nil_shutdown {s : State} {x : Shut} {e : Nat × Nat} (hs : s.dev.shut = some x) (hd : x.due = some e) :
    (s.window []).dev.st = .shutdown ∧ ∃ y, (s.window []).dev.shut = some y ∧ y.due = none ∧ y.written = x.written := by
  rw [window_nil, stateEvents_shutdown ((atPeriodEnd_shut _).trans hs) hd]
  have hst := enterShutdown_st s.dev.atPeriodEnd x e.1 e.2
  have hsh := enterShutdown_shut s.dev.atPeriodEnd x e.1 e.2
  generalize s.dev.atPeriodEnd.enterShutdown x e.1 e.2 = d at hst hsh
  generalize s.dev.atPeriodEnd.shutdownRec e.1 e.2 = bs at hsh
  rw [holdOrdered_of_not_running (by rw [hst]; rfl)]
  exact ⟨(freeEntries_st d).trans hst, _, (freeEntries_shut d).trans hsh, rfl, rfl⟩

/-- A record that is put into an event log stands at the write point, newest. -/
theorem logPut_head (d : Dev) (rec : List Byte) (h : d.rd .CR_LOG_BASE_COUNT ≠ 0) :
    (d.logPut rec).nor.log.head? = some ⟨d.rd .CR_LOG_BASE_SECT * 65536 + d.rd .CR_LOG_WP_OFS, rec⟩ := by
  unfold Dev.logPut
  rw [if_neg h]
  rfl

/-- SHUTDOWN_RECORD_WRITTEN of a record that waits for it. -/
theorem shutdownRecordWritten_exec {s : State} {x : Shut} (hs : s.dev.shut = some x) (hw : x.written = false) (hd : x.due = none) :
    exec .shutdownRecordWritten s =
      .next { s with dev := Dev.logPut { s.dev with shut := some { x with written := true } } x.record } := by
  show execShutdownRecordWritten s = _
  unfold execShutdownRecordWritten State.act
  simp [hs, hw, hd]

/-- SHUTDOWN_POWER_DOWN once it may come about: every domain but PD_AON at its reset state, HREF stopped, DRAM empty. -/
theorem shutdownPowerDown_exec {s : State} (h : s.dev.mayPowerDown = true) :
    exec .shutdownPowerDown s =
      .next { s with dev := { s.dev.resetDomains with pins := { s.dev.resetDomains.pins with href := false } }, dram := ⟨[], []⟩ } :=
  if_pos h

theorem resetDomains_pdstat (d : Dev) : d.resetDomains.rd .AON_PDSTAT_ON = 1 := by
  unfold Dev.resetDomains
  simp only [Dev.rd_wr]
  rfl

theorem resetDomains_st (d : Dev) : d.resetDomains.st = d.st := by
  unfold Dev.st
  rw [resetDomains_rd d .AON_STATE_STATE 0 0 (by decide) (by decide)]
  rfl

/-- A field outside PD_AON is at its Reset column once its domain is at its reset state. -/
theorem resetDomains_reset (d : Dev) {f : Fld} (i j : Nat) (h : keptInReset f = false) : d.resetDomains.rd f i j = (fldSpec f).reset := by
  rw [resetDomains_rd d f i j (fun hf => by subst hf; cases h) (fun hf => by subst hf; cases h), h]
  rfl

theorem mayPowerDown_st {d : Dev} (h : d.mayPowerDown = true) : d.st = .shutdown := by
  unfold Dev.mayPowerDown at h
  simp only [Bool.and_eq_true, decide_eq_true_eq] at h
  exact h.1.1

/-- Settles O12: the cause is taken at the period's end, its record put into the log, and the domains powered down, each by its
command; a period of SPEED_CEIL has the high time of `Dev.ceilHigh`. -/
theorem shutdownRecordThenPowerDown : Obligations.ShutdownRecordThenPowerDown := by
  unfold Obligations.ShutdownRecordThenPowerDown
  refine ⟨fun b x e s ho hs hd => ?_, fun x s hs hw hd => ?_, fun s hm => ?_, fun s he hi => ?_⟩
  · exact evaluationPeriodEnd_gives ho (window_nil_shutdown hs hd)
  · refine gives_next (shutdownRecordWritten_exec hs hw hd) ⟨(Dev.logPut_only _ _).parts .shut rfl, fun hc => ?_⟩
    exact logPut_head { s.dev with shut := some { x with written := true } } x.record hc
  · refine gives_next (shutdownPowerDown_exec hm) ⟨(resetDomains_st s.dev).trans (mayPowerDown_st hm), resetDomains_pdstat s.dev, rfl, ?_,
      fun f i j hf => resetDomains_reset s.dev i j hf, rfl⟩
    exact congrArg Pins.relaysOpen (resetDomains_pins s.dev)
  · refine gives_act rfl ?_
    rw [if_pos (by rw [he, hi]; rfl)]
    rfl

end Sys2Proof.Machine

/-! Requests that are not carried out (14, R330 to R332, R340): refused, overtaken, inhibited, repeated or discarded. -/
namespace Sys2Proof.Machine
set_option exponentiation.threshold 600

theorem Gives.imp {c : Instr} {s : State} {p q : State → Prop} (h : Gives c s p) (hpq : ∀ t, p t → q t) : Gives c s q := by
  obtain ⟨t, ht, hp⟩ := h
  exact ⟨t, ht, hpq t hp⟩

/-! ### A request that is received -/

/-- A state event of the period goes before the request (01, R24). -/
def Dev.overtakes (d : Dev) (q : XppReq) : Bool := (d.shutDue.isSome || d.holdDue) && reqOrdersState q

/-- What becomes of a request that is received and that its checks pass, but that is overtaken or inhibited. -/
def Dev.heldBack (d : Dev) (q : XppReq) : Option Nack :=
  if d.overtakes q then some .precedence else if d.inhibited q then some .inhibited else none

theorem heldBack_of_overtakes {d : Dev} {q : XppReq} (h : d.overtakes q = true) : d.heldBack q = some .precedence := if_pos h

theorem heldBack_of_inhibited {d : Dev} {q : XppReq} (h : d.overtakes q = false) (hi : d.inhibited q = true) :
    d.heldBack q = some .inhibited := by
  unfold Dev.heldBack
  rw [h, hi]
  rfl

/-- What holds a request back does not stand in the press protocol's own records, which are all that its reception changes. -/
theorem receive_got_heldBack {d : Dev} {x : XppIn} {r : Role} (hg : (d.receive x).2 = .got r) :
    ∃ e, d.receive x = (e, .got r) ∧ Dev.Only (partsMask [Part.xpp]) 0 d e ∧ e.refusal e.st r x.req = d.refusal d.st r x.req ∧
      e.heldBack x.req = d.heldBack x.req := by
  obtain ⟨y, hy⟩ := receive_got hg
  exact ⟨{ d with xpp := y }, Prod.ext hy hg, Dev.Only.with_xpp y rfl (Dev.Only.refl _ _ d), rfl, rfl⟩

/-- A request alone in its window that is overtaken or inhibited is answered NACK; nothing is carried out. -/
theorem request_of_heldBack {s : State} {d : Dev} {x : XppIn} {r : Role} {n : Nack} (hr : s.dev.receive x = (d, .got r))
    (hc : d.refusal d.st r x.req = none) (hn : d.heldBack x.req = some n) :
    s.request x = { s with dev := d.reply r x.hdr.seq.toNat (.nack n) } := by
  unfold State.request
  simp only [hr, hc]
  unfold Dev.heldBack Dev.overtakes at hn
  split at hn
  · next ho =>
    cases hn
    rw [if_pos ho]
    rfl
  · next ho =>
    split at hn
    · next hi =>
      cases hn
      rw [if_neg ho, if_pos hi]
      rfl
    · cases hn

/-- The row of a request that its checks pass, but that is overtaken or inhibited. -/
theorem gives_heldBack {c : Instr} {x : XppIn} {r : Role} {n : Nack} {s : State} (hq : requestOf c = some x)
    (hg : (s.dev.receive x).2 = .got r) (hc : s.dev.refusal s.dev.st r x.req = none) (hn : s.dev.heldBack x.req = some n) :
    Gives c s fun t => Unchanged [Part.xpp, Part.out] [Fld.XPP_NCNT_NACK] s t ∧ Refused r x.hdr n s t := by
  obtain ⟨d, hr, hd, hchk, hback⟩ := receive_got_heldBack hg
  have ht := request_of_heldBack hr (hchk.trans hc) (hback.trans hn)
  have hup : d.rd .XPP_PEER_UP = s.dev.rd .XPP_PEER_UP := hd.regs .XPP_PEER_UP (Nat.zero_testBit _) 0 0
  refine gives_next (request_next hq) ?_
  rw [ht]
  exact ⟨nack_unchanged hd r _ n, refused_reply hup n⟩

/-! ### A repeated message -/

theorem request_of_dup {s : State} {x : XppIn} {r : Role} (h : (s.dev.receive x).2 = .dup r) :
    s.request x = { s with dev := (s.dev.receive x).1.answerDup r x.hdr.seq.toNat } := by
  unfold State.request
  generalize s.dev.receive x = y at h
  obtain ⟨d, got⟩ := y
  subst h
  rfl

/-- A repeated message whose response is remembered is answered with it again. -/
theorem answerDup_eq {d : Dev} {r : Role} {seq : Nat} {a : Answered} {m : XppMsg}
    (ha : (d.peer r).accepted.find? (fun a => a.seq = seq) = some a) (hm : a.resp = some m) : d.answerDup r seq = d.send r m := by
  unfold Dev.answerDup
  simp only [ha, hm]

theorem receive_answerDup_unchanged (s : State) (x : XppIn) (r : Role) (seq : Nat) :
    Unchanged [Part.xpp, Part.trace, Part.evr, Part.out] [Fld.AON_EVPEND_PEND, Fld.AON_EVLOST_N, Fld.XPP_CNT_BAD, Fld.XPP_CNT_DUP] s
      { s with dev := (s.dev.receive x).1.answerDup r seq } :=
  State.Only.unchanged (State.Only.mkDev ((Dev.answerDup_only _ r seq).step rfl rfl (Dev.receive_only s.dev x)) (State.Only.refl _ _ s))
    rfl rfl

/-! ### A request that no payload holds -/

theorem receive_of_not_wf {d : Dev} {x : XppIn} (hw : x.req.wf = false) (hn : d.domOn .net = true) (hm : d.noNet = false) :
    d.receive x = (d.discard x.hdr.port.val .header, .none) := by
  unfold Dev.receive
  simp [hw, hn, hm]

theorem request_of_not_wf {s : State} {x : XppIn} (hw : x.req.wf = false) (hn : s.dev.domOn .net = true) (hm : s.dev.noNet = false) :
    s.request x = { s with dev := s.dev.discard x.hdr.port.val .header } := by
  unfold State.request
  rw [receive_of_not_wf hw hn hm]

/-- A message that is discarded is counted. -/
theorem discard_bad (d : Dev) (port : Nat) (c : BadCause) :
    (d.discard port c).rd .XPP_CNT_BAD = min (d.rd .XPP_CNT_BAD + 1) (2 ^ (fldSpec .XPP_CNT_BAD).width - 1) := by
  have hi := inc_rd d .XPP_CNT_BAD 0 0
  unfold Dev.discard
  dsimp only
  generalize d.inc .XPP_CNT_BAD = e at hi
  have hr : ∀ y bs, (Dev.raise { e with xpp := y } Ev.XPP_BAD bs).rd .XPP_CNT_BAD = e.rd .XPP_CNT_BAD := fun y bs =>
    Dev.raise_rd _ _ _ _ _ _ (by decide) (by decide)
  split
  · split
    · exact hi
    · exact (hr _ _).trans hi
  · exact (hr _ _).trans hi

/-- Settles O21: a row that its checks refuse (`gives_refused`), that a state event of the period or an input holds back
(`gives_heldBack`), that repeats a message or that no payload holds (assumption 57). -/
theorem requestsNotCarriedOut : Obligations.RequestsNotCarriedOut := by
  unfold Obligations.RequestsNotCarriedOut
  refine ⟨fun c x r n s hq hg hn => ?_, fun c x r s hq hg hc ho => ?_, fun c x r s hq hg hc ho hi => ?_, fun c x r s hq hd => ?_,
    fun c x s hq hw hnet hno => ?_⟩
  · exact (gives_refused hq hg hn).imp fun t ⟨hu, hr⟩ => ⟨hu, hr, refusal_order hn⟩
  · exact gives_heldBack hq hg hc (heldBack_of_overtakes ho)
  · exact gives_heldBack hq hg hc (heldBack_of_inhibited ho hi)
  · refine gives_next (request_next hq) ?_
    rw [request_of_dup hd]
    refine ⟨receive_answerDup_unchanged s x r _, fun m a ha hm hup => ?_⟩
    rw [answerDup_eq ha hm]
    exact send_head _ r m hup
  · refine gives_next (request_next hq) ?_
    rw [request_of_not_wf hw hnet hno]
    exact ⟨(Kst.of (Dev.discard_only _ _ _) rfl).st, (Dev.discard_only _ _ _).parts .jobs rfl, discard_bad _ _ _⟩

end Sys2Proof.Machine

/-! The orders of the device state that reach their effect (01, Table 1-9; 14, Table 14-3). -/
namespace Sys2Proof.Machine
set_option exponentiation.threshold 600

theorem Dev.Takes.allowed {d : Dev} {h : XppHdr} {q : XppReq} {r : Role} (ht : d.Takes h q r) : reqState q d.st = true := by
  obtain ⟨_, hc, _, _⟩ := ht
  obtain ⟨_, _, hs, _⟩ := refusal_none hc
  exact hs

theorem reply_suppressAuto (e : Dev) (r : Role) (n : Nat) (o : Done) : (e.reply r n o).suppressAuto = e.suppressAuto :=
  reply_part e r n o .suppressAuto (by decide) (by decide)

theorem reply_freqWait (e : Dev) (r : Role) (n : Nat) (o : Done) : (e.reply r n o).freqWait = e.freqWait :=
  reply_part e r n o .freqWait (by decide) (by decide)

theorem reply_boot (e : Dev) (r : Role) (n : Nat) (o : Done) : (e.reply r n o).boot = e.boot :=
  reply_part e r n o .boot (by decide) (by decide)

theorem reply_lanes (e : Dev) (r : Role) (n : Nat) (o : Done) : (e.reply r n o).lanes = e.lanes :=
  reply_part e r n o .lanes (by decide) (by decide)

theorem reply_held (e : Dev) (r : Role) (n : Nat) (o : Done) (b : HoldBit) : (e.reply r n o).held b = e.held b :=
  held_of (Dev.reply_only e r n o) rfl b

theorem reply_domOn (e : Dev) (r : Role) (n : Nat) (o : Done) (p : Dom) : (e.reply r n o).domOn p = e.domOn p := by
  unfold Dev.domOn
  rw [reply_rd e r n o .AON_PDSTAT_ON 0 0 (by decide)]

/-- What a request finds where only the press protocol's records have changed since its reception. -/
theorem up_of_only {c : Nat} {r : Nat} {d e : Dev} (h : Dev.Only c r d e) (hr : r.testBit (Fld.ctorIdx .XPP_PEER_UP) = false) :
    e.rd .XPP_PEER_UP = d.rd .XPP_PEER_UP := h.regs .XPP_PEER_UP hr 0 0

/-! ### START (R151) -/

/-- The block with a job placed at the head of the LOADED jobs. -/
def Dev.placedFirst (d : Dev) (jn : Nat) (o : Int) : Dev :=
  Dev.wakeLanes { (d.jobFirst jn).place jn o with suppressAuto := false }

theorem orderStart_eq {d : Dev} {jn mode e : Nat} {origin o : Int} {j : Job} (hj : d.job jn = some j) (hl : j.st = .loaded)
    (he : d.freeEntry = some e) (ho : d.startOrigin mode origin = some o) :
    d.orderStart jn mode origin =
      (if (d.placedFirst jn o).st = .idle then (d.placedFirst jn o).arm else d.placedFirst jn o, Done.ok) := by
  unfold Dev.orderStart
  simp only [hj, hl, he, ho]
  rfl

/-- The parts and register fields that placing a job may change. -/
abbrev placingParts : List Part := [.xpp, .jobs, .suppressAuto, .rk, .fire, .lanes, .loops, .out]

abbrev placingFields : List Fld :=
  dueFields ++ [.FIRE_PL_JN_JN, .FIRE_PL_ORGF_FRAC, .FIRE_PL_ORGL_INT, .FIRE_PL_ORGH_INT, .FIRE_PL_ORGH_VALID, .FIRE_PL_PITF_FRAC,
    .FIRE_PL_PITI_INT, .FIRE_PL_LINES_L]

theorem placedFirst_only (d : Dev) (jn : Nat) (o : Int) :
    Dev.Only (partsMask placingParts) (fieldsMask placingFields) d (d.placedFirst jn o) :=
  (Dev.wakeLanes_only _).step rfl rfl (Dev.Only.with_suppressAuto _ rfl
    ((Dev.place_only _ jn o).step rfl rfl ((Dev.jobFirst_only d jn).mono rfl rfl)))

theorem placedFirst_suppressAuto (d : Dev) (jn : Nat) (o : Int) : (d.placedFirst jn o).suppressAuto = false :=
  (Dev.wakeLanes_only _).parts .suppressAuto rfl

theorem start_gives {h : XppHdr} {jn : U32} {mode : Byte} {origin : BitVec 80} {j : Job} {e : Nat} {o : Int} {r : Role} {s : State}
    (ht : s.dev.Takes h (.start jn mode origin) r) (hj : s.dev.job jn.toNat = some j) (hl : j.st = .loaded)
    (he : s.dev.freeEntry = some e) (ho : s.dev.startOrigin mode.toNat origin.toInt = some o) :
    Gives (.start h jn mode origin) s fun t =>
      (s.dev.st = .idle → s.dev.rd .MEM_CTL_CUR = 0 → t.dev.st = .armed) ∧
      (s.dev.st = .idle → s.dev.rd .MEM_CTL_CUR ≠ 0 → t.dev.st = .idle ∧ t.dev.freqWait = true ∧ t.dev.rd .MEM_CTL_REQ = 0) ∧
      (s.dev.st ≠ .idle → t.dev.st = s.dev.st) ∧ t.dev.suppressAuto = false ∧ Acked r h [] s t := by
  refine takes_gives rfl ht (by simp) (by simp) (by simp) (by simp) fun d e' o' hd hy hc => ?_
  have hx := (placedFirst_only d jn.toNat o).step (Nat.and_self _) (Nat.and_self _) (hd.mono rfl (Nat.zero_and _))
  have hcarry : d.orderStart jn.toNat mode.toNat origin.toInt = (e', o') := hc
  rw [orderStart_eq (j := j) (e := e) (o := o) (by obtain ⟨y, rfl⟩ := hy; exact hj) hl (by obtain ⟨y, rfl⟩ := hy; exact he)
    (by obtain ⟨y, rfl⟩ := hy; exact ho)] at hcarry
  exact start_end (Kst.of hx rfl).st (hx.rd .MEM_CTL_CUR 0 0 rfl) (up_of_only hx rfl) (placedFirst_suppressAuto d jn.toNat o) hcarry _ rfl

/-! ### STOP (R424) -/

/-- Past its first write, no loop of a STOP changes whether automatic placement is suppressed. -/
theorem stopQueue_suppressAuto (d : Dev) : d.stopQueue.suppressAuto = true := by
  have h : Dev.Only 0x1000bc86700 0xe41800000000000c000000000000000000000000000000000000 { d with suppressAuto := true } d.stopQueue := by
    unfold Dev.stopQueue
    dsimp only
    refine Dev.Only.forEach _ (fun e p he => (Dev.sendJobStatus_only e p.jn).step rfl rfl he) ?_
    refine Dev.Only.forEach _ (fun e p he => (Dev.dropHeld_only _ p.jn).step rfl rfl
      ((Dev.dropLines_only _ p.jn 0 (2 ^ 32)).step rfl rfl ((Dev.skipJob_only e p.jn).step rfl rfl he))) ?_
    refine Dev.Only.forEach _ (fun e p he => (Dev.purge_only _ p.jn false).step rfl rfl
      ((Dev.jobFirst_only _ p.jn).step rfl rfl ((Dev.updJob_only e p.jn _).step rfl rfl he))) ?_
    exact Dev.Only.forEach _ (fun e p he => (Dev.endAfter_only e p.jn _).step rfl rfl he) (Dev.Only.refl _ _ _)
  exact h.parts .suppressAuto rfl

theorem stopQueue_st (d : Dev) : d.stopQueue.st = d.st := (Kst.of (Dev.stopQueue_only d) rfl).st

theorem orderStop_printing {d : Dev} (h : d.st = .printing) : d.orderStop = (d.stopQueue.enter .draining, .ok) := by
  unfold Dev.orderStop
  rw [h]

theorem orderStop_draining {d : Dev} (h : d.st = .draining) : d.orderStop = (d, .ok) := by
  unfold Dev.orderStop
  rw [h]

theorem orderStop_armed {d : Dev} (h : d.st = .armed) :
    d.orderStop = (if d.stopQueue.anyPlaced then d.stopQueue else d.stopQueue.enter .idle, .ok) := by
  unfold Dev.orderStop
  rw [h]

theorem stop_gives {h : XppHdr} {r : Role} {s : State} (ht : s.dev.Takes h .stop r) :
    Gives (.stop h) s fun t =>
      (s.dev.st = .printing → t.dev.st = .draining) ∧ (s.dev.st = .draining → t.dev.st = .draining ∧ Unchanged [Part.xpp, Part.out] [] s t) ∧
      (s.dev.st = .armed → t.dev.st = .armed ∨ t.dev.st = .idle) ∧
      (s.dev.st ≠ .draining → t.dev.suppressAuto = true) ∧ Acked r h [] s t := by
  have hrun : s.dev.st.running = true := ht.allowed
  refine takes_gives rfl ht (by simp) (by simp) (by simp) (by simp) fun d e o hd hy hc => ?_
  have hst : d.st = s.dev.st := (Kst.of hd rfl).st
  have hup : e.rd .XPP_PEER_UP = s.dev.rd .XPP_PEER_UP :=
    (up_of_only (by rw [show e = d.orderStop.1 from (congrArg Prod.fst hc).symm]; exact Dev.orderStop_only d) rfl).trans (up_of_only hd rfl)
  have hcarry : d.orderStop = (e, o) := hc
  dsimp only
  rw [reply_st, reply_suppressAuto]
  cases hs : s.dev.st with
  | printing =>
    rw [orderStop_printing (hst.trans hs)] at hcarry
    cases hcarry
    refine ⟨fun _ => enter_st _ _, nofun, nofun, fun _ => ?_, acked_reply hup []⟩
    exact ((Dev.enter_only _ _).parts .suppressAuto rfl).trans (stopQueue_suppressAuto d)
  | draining =>
    rw [orderStop_draining (hst.trans hs)] at hcarry
    cases hcarry
    exact ⟨nofun, fun _ => ⟨hst.trans hs, ack_keep r _ [] (hd.mono rfl rfl) rfl⟩, nofun, fun hn => absurd rfl hn, acked_reply hup []⟩
  | armed =>
    rw [orderStop_armed (hst.trans hs)] at hcarry
    cases hcarry
    refine ⟨nofun, nofun, fun _ => ?_, fun _ => ?_, acked_reply hup []⟩
    · split
      · exact Or.inl ((stopQueue_st d).trans (hst.trans hs))
      · exact Or.inr (enter_st _ _)
    · split
      · exact stopQueue_suppressAuto d
      · exact ((Dev.enter_only _ _).parts .suppressAuto rfl).trans (stopQueue_suppressAuto d)
  | _ => rw [hs] at hrun; cases hrun

/-! ### HOLD (R338) -/

theorem enterHold_held (d : Dev) (b : HoldBit) : d.enterHold.held b = d.held b := held_of (Dev.enterHold_only d) rfl b

/-- A hold that has been ordered takes a running device to HOLD. -/
theorem holdOrdered_st {d : Dev} (hs : reqState .hold d.st = true) (hx : d.held .xpp = true) :
    d.holdOrdered.st = .hold ∧ d.holdOrdered.held .xpp = true := by
  cases hr : d.st.running with
  | true =>
    rw [show d.holdOrdered = d.enterHold from if_pos (by rw [hr, hx]; rfl)]
    exact ⟨enterHold_st d, (enterHold_held d .xpp).trans hx⟩
  | false =>
    rw [holdOrdered_of_not_running hr]
    exact ⟨by simpa [reqState, hr] using hs, hx⟩

theorem hold_gives {h : XppHdr} {r : Role} {s : State} (ht : s.dev.Takes h .hold r) :
    Gives (.hold h) s fun t => t.dev.st = .hold ∧ t.dev.held .xpp = true := by
  obtain ⟨y, _, hreq⟩ := takes_form ht
  have hst : reqState .hold s.dev.st = true := ht.allowed
  refine gives_next (t := s.request ⟨h, .hold⟩) rfl ?_
  rw [hreq, if_pos rfl, carryOut_hold]
  dsimp only
  generalize hd : ({ s.dev with xpp := y } : Dev) = d
  have hds : d.st = s.dev.st := by subst hd; rfl
  have he : (((d.holdCause .xpp).reply r h.seq.toNat Done.ok)).st = s.dev.st := by
    rw [reply_st, (Kst.of (Dev.holdCause_only d .xpp) rfl).st, hds]
  exact holdOrdered_st (he ▸ hst) ((reply_held _ _ _ _ _).trans (holdCause_held d .xpp))

/-! ### RESUME (R163) -/

/-- Beside the device state and the request for the memory's rate, resuming changes no register. -/
theorem resumed_rd (q : Dev × Bool) (f : Fld) (i j : Nat) (hf : f ∉ [Fld.AON_STATE_STATE, Fld.MEM_CTL_REQ]) :
    (resumed q).rd f i j = q.1.rd f i j := by
  have hw : Dev.Only (partsMask [.xpp, .lanes, .out, .pins, .fire, .freqWait]) (fieldsMask [.AON_STATE_STATE, .MEM_CTL_REQ]) q.1
      (if q.2 then q.1.wakeLanes.arm else q.1.wakeLanes.enter .idle) := by
    have hl := (Dev.wakeLanes_only q.1).mono (c' := partsMask [.xpp, .lanes, .out, .pins, .fire, .freqWait])
      (r' := fieldsMask [.AON_STATE_STATE, .MEM_CTL_REQ]) rfl rfl
    split
    · exact (Dev.arm_only _).step rfl rfl hl
    · exact (Dev.enter_only _ _).step rfl rfl hl
  exact ((Dev.closeJobs_only _).rd f i j (Nat.zero_testBit _)).trans (hw.regs f (fieldsMask_not hf) i j)

theorem resumed_st {q : Dev × Bool} (h : q.1.st = .hold) :
    (resumed q).st = .armed ∨ (resumed q).st = .idle ∨
      ((resumed q).st = .hold ∧ (resumed q).freqWait = true ∧ (resumed q).rd .MEM_CTL_REQ = 0) := by
  have hst : ∀ e : Dev, e.closeJobs.st = e.st := fun e => (Kst.of (Dev.closeJobs_only e) rfl).st
  have hw : q.1.wakeLanes.st = .hold := (Kst.of (Dev.wakeLanes_only q.1) rfl).st.trans h
  obtain ⟨d, remains⟩ := q
  cases remains with
  | false => exact Or.inr (Or.inl ((hst _).trans (enter_st _ _)))
  | true =>
    obtain ⟨harmed, hwaits⟩ := arm_cases d.wakeLanes
    by_cases hc : d.wakeLanes.rd .MEM_CTL_CUR = 0
    · exact Or.inl ((hst _).trans (harmed hc))
    · obtain ⟨h1, h2, h3⟩ := hwaits hc
      exact Or.inr (Or.inr ⟨(hst _).trans (h1.trans hw), ((Dev.closeJobs_only _).parts .freqWait rfl).trans h2,
        ((Dev.closeJobs_only _).rd _ 0 0 rfl).trans h3⟩)

/-- The block at which RESUME places again what remains of its products: the XPP hold has cleared. -/
def Dev.unheld (d : Dev) : Dev × Bool := (Dev.clearHold { d with holdSeen := 0 } .xpp).rePlace

theorem unheld_only (d : Dev) :
    Dev.Only 0x12001000180 0x380000000000000000000000000000000000000000000000010 d d.unheld.1 :=
  (Dev.rePlace_only _).step rfl rfl ((Dev.clearHold_only _ _).step rfl rfl (Dev.Only.with_holdSeen 0 rfl (Dev.Only.refl _ _ d)))

theorem unheld_held (d : Dev) : d.unheld.1.held .xpp = false :=
  (held_of (Dev.rePlace_only _) rfl .xpp).trans (clearHold_held _ .xpp)

theorem resume_gives {h : XppHdr} {r : Role} {s : State} (ht : s.dev.Takes h .resume r) (hf : s.dev.freqWait = false)
    (hx : s.dev.onlyXpp = true) (hk : s.dev.skipping = false) :
    Gives (.resume h) s fun t =>
      t.dev.held .xpp = false ∧
        (t.dev.st = .armed ∨ t.dev.st = .idle ∨ (t.dev.st = .hold ∧ t.dev.freqWait = true ∧ t.dev.rd .MEM_CTL_REQ = 0)) ∧
        Acked r h [] s t := by
  have hhold : s.dev.st = .hold := of_decide_eq_true ht.allowed
  refine takes_gives rfl ht (by simp) (by simp) (by simp) (by simp) fun d e o hd hy hc => ?_
  obtain ⟨hfd, hxd, hkd⟩ : d.freqWait = false ∧ d.onlyXpp = true ∧ d.skipping = false := by
    obtain ⟨y, rfl⟩ := hy
    exact ⟨hf, hx, hk⟩
  have hcarry : (resumed d.unheld, Done.ok) = (e, o) := (orderResume_eq d hfd hxd hkd).symm.trans hc
  have hq : d.unheld.1.st = .hold := (Kst.of (unheld_only d) rfl).st.trans ((Kst.of hd rfl).st.trans hhold)
  have hup : (resumed d.unheld).rd .XPP_PEER_UP = s.dev.rd .XPP_PEER_UP := by
    rw [resumed_rd _ _ 0 0 (by decide), up_of_only (unheld_only d) rfl, up_of_only hd rfl]
  cases hcarry
  dsimp only
  rw [reply_held, reply_st, reply_freqWait, reply_rd _ _ _ _ _ _ _ (by decide)]
  refine ⟨?_, resumed_st hq, acked_reply hup []⟩
  unfold Dev.held
  rw [resumed_rd _ _ 0 0 (by decide)]
  exact unheld_held d

/-! ### SPEED_LIMIT (R338) -/

theorem speedLimit_gives {h : XppHdr} {v : U32} {r : Role} {s : State} (ht : s.dev.Takes h (.speedLimit v) r) :
    Gives (.speedLimit h v) s fun t => t.dev.rd .XPP_VLIM_V = v.toNat ∧ Acked r h [] s t := by
  refine takes_gives rfl ht (by simp) (by simp) (by simp) (by simp) fun d e o hd hy hc => ?_
  have hcarry : (d.wr .XPP_VLIM_V v.toNat, Done.ok) = (e, o) := hc
  cases hcarry
  refine ⟨(reply_rd _ _ _ _ _ _ _ (by decide)).trans (rd_wr_self d .XPP_VLIM_V _ 0 0 v.isLt), acked_reply ?_ []⟩
  exact (up_of_only (Dev.Only.wr (r := fieldsMask [.XPP_VLIM_V]) .XPP_VLIM_V _ 0 0 rfl (Dev.Only.refl 0 _ d)) rfl).trans (up_of_only hd rfl)

/-! ### ENTER_SAFE (R21) -/

theorem orderSafe_safe (d : Dev) :
    d.orderSafe.1.st = .safe ∧ d.orderSafe.1.boot.running = [.hk, .sv0] ∧ d.orderSafe.1.boot.safeBy = [.enterSafe] ∧
      d.orderSafe.1.lanes = [] ∧ ∀ p, p ∈ safeDown → d.orderSafe.1.domOn p = false := by
  unfold Dev.orderSafe
  dsimp only
  have henter := fun e : Dev => Dev.enter_only e .safe
  refine ⟨enter_st _ _, ?_, ?_, ?_, fun p hp => ?_⟩
  · rw [(henter _).parts .boot rfl]
  · rw [(henter _).parts .boot rfl]
  · rw [(henter _).parts .lanes rfl]
    rfl
  · unfold Dev.domOn
    rw [(henter _).rd .AON_PDSTAT_ON 0 0 rfl]
    exact powerDown_off d p hp

theorem enterSafe_gives {h : XppHdr} {r : Role} {s : State} (ht : s.dev.Takes h .enterSafe r) :
    Gives (.enterSafe h) s fun t =>
      t.dev.st = .safe ∧ t.dev.boot.running = [.hk, .sv0] ∧ t.dev.boot.safeBy = [.enterSafe] ∧ t.dev.lanes = [] ∧
        (∀ p, p ∈ safeDown → t.dev.domOn p = false) ∧ Acked r h [] s t := by
  refine takes_gives rfl ht (by simp) (by simp) (by simp) (by simp) fun d e o hd hy hc => ?_
  obtain ⟨hst, hrun, hby, hlanes, hdom⟩ := orderSafe_safe d
  have hup := up_of_only (Dev.orderSafe_only d) rfl
  have hcarry : (d.orderSafe.1, Done.ok) = (e, o) := hc
  generalize d.orderSafe.1 = x at hst hrun hby hlanes hdom hup hcarry
  cases hcarry
  dsimp only
  rw [reply_st, reply_boot, reply_lanes]
  exact ⟨hst, hrun, hby, hlanes, fun p hp => (reply_domOn _ _ _ _ p).trans (hdom p hp), acked_reply (hup.trans (up_of_only hd rfl)) []⟩

/-! ### RESTART (R21) -/

/-- RESTART is acknowledged, which changes no register; then every domain but PD_AON is reset. -/
theorem restart_request {h : XppHdr} {r : Role} {s : State} (ht : s.dev.Takes h .restart r) :
    ∃ e : Dev, (∀ f i j, e.rd f i j = s.dev.rd f i j) ∧
      s.request ⟨h, .restart⟩ = State.moduleReset { s with dev := e } 2 .boot := by
  obtain ⟨y, _, hreq⟩ := takes_form ht
  exact ⟨Dev.reply { s.dev with xpp := y } r h.seq.toNat Done.ok,
    fun f i j => (ack_only { s.dev with xpp := y } r h.seq.toNat []).regs f (Nat.zero_testBit _) i j, hreq⟩

theorem restart_gives {h : XppHdr} {r : Role} {s : State} (ht : s.dev.Takes h .restart r) :
    Gives (.restart h) s fun t => ResetTo .boot 2 [] s t := by
  obtain ⟨e, hrd, hreq⟩ := restart_request ht
  exact gives_next (t := s.request ⟨h, .restart⟩) rfl
    (resetTo s _ 2 .boot (by decide) [] { s with dev := e } (fun f _ _ _ i j => hrd f i j) (hrd _ 0 0) (hrd _ 0 0) rfl hreq)

/-! ### SHUTDOWN_ACK (R306) -/

/-- The block with the clear record written and the record no longer a cause of SAFE. -/
def Dev.recordCleared (d : Dev) (role : Role) (rec : LogRec) : Dev :=
  let e := d.logWrite (d.clearRec (if role = .pc then 0 else 1) rec)
  { e with boot := { e.boot with safeBy := e.boot.safeBy.filter (· != .record) } }

theorem orderShutdownAck_eq {d : Dev} {role : Role} {rec : LogRec} (hu : d.uncleared = some rec) (hj : d.tj ≤ 98 * 16) (hd : d.td ≤ 93 * 16) :
    d.orderShutdownAck role =
      (if (d.recordCleared role rec).boot.safeBy = [] then (d.recordCleared role rec).enter .boot else d.recordCleared role rec, .ok) := by
  unfold Dev.orderShutdownAck
  simp only [hu]
  rw [if_neg (by simp; omega)]
  rfl

theorem recordCleared_only (d : Dev) (role : Role) (rec : LogRec) :
    Dev.Only 0x10000000032 0x400000000000 d (d.recordCleared role rec) :=
  Dev.Only.with_boot _ rfl ((Dev.logWrite_only d _).mono rfl rfl)

theorem recordCleared_safeBy (d : Dev) (role : Role) (rec : LogRec) :
    (d.recordCleared role rec).boot.safeBy = d.boot.safeBy.filter (· != .record) := by
  unfold Dev.recordCleared
  dsimp only
  rw [(Dev.logWrite_only d _).parts .boot rfl]

theorem shutdownAck_gives {h : XppHdr} {rec : LogRec} {r : Role} {s : State} (ht : s.dev.Takes h .shutdownAck r)
    (hu : s.dev.uncleared = some rec) (hj : s.dev.tj ≤ 98 * 16) (htd : s.dev.td ≤ 93 * 16) :
    Gives (.shutdownAck h) s fun t =>
      t.dev.boot.safeBy = s.dev.boot.safeBy.filter (· != .record) ∧
        (s.dev.boot.safeBy.filter (· != .record) = [] → t.dev.st = .boot) ∧
        (s.dev.boot.safeBy.filter (· != .record) ≠ [] → t.dev.st = .safe) ∧ Acked r h [] s t := by
  have hsafe : s.dev.st = .safe := of_decide_eq_true ht.allowed
  refine takes_gives rfl ht (by simp) (by simp) (by simp) (by simp) fun d e o hd hy hc => ?_
  obtain ⟨hud, hjd, htdd⟩ : d.uncleared = some rec ∧ d.tj ≤ 98 * 16 ∧ d.td ≤ 93 * 16 := by
    obtain ⟨y, rfl⟩ := hy
    exact ⟨hu, hj, htd⟩
  have hboot : d.boot = s.dev.boot := hd.parts .boot rfl
  have hby := recordCleared_safeBy d r rec
  have hxst : (d.recordCleared r rec).st = .safe :=
    (Kst.of (recordCleared_only d r rec) rfl).st.trans ((Kst.of hd rfl).st.trans hsafe)
  have hxup := (up_of_only (recordCleared_only d r rec) rfl).trans (up_of_only hd rfl)
  have hcarry := (orderShutdownAck_eq (role := r) hud hjd htdd).symm.trans hc
  generalize d.recordCleared r rec = x at hby hxst hxup hcarry
  rw [hboot] at hby
  rw [hby] at hcarry
  by_cases hnil : s.dev.boot.safeBy.filter (· != .record) = []
  · rw [if_pos hnil] at hcarry
    cases hcarry
    dsimp only
    rw [reply_st, reply_boot, (Dev.enter_only x .boot).parts .boot rfl]
    exact ⟨hby, fun _ => enter_st x .boot, fun hn => absurd hnil hn, acked_reply ((up_of_only (Dev.enter_only x .boot) rfl).trans hxup) []⟩
  · rw [if_neg hnil] at hcarry
    cases hcarry
    dsimp only
    rw [reply_st, reply_boot]
    exact ⟨hby, fun hn => absurd hn hnil, fun _ => hxst, acked_reply hxup []⟩

/-- Settles O17: each order that is taken, one lemma per order. -/
theorem stateOrdersTakeEffect : Obligations.StateOrdersTakeEffect :=
  ⟨fun _ _ _ _ _ _ _ _ _ ht hj hl he ho => start_gives ht hj hl he ho, fun _ _ _ ht => stop_gives ht, fun _ _ _ ht => hold_gives ht,
    fun _ _ _ ht hf hx hk => resume_gives ht hf hx hk, fun _ _ _ _ ht => speedLimit_gives ht, fun _ _ _ ht => enterSafe_gives ht,
    fun _ _ _ ht => restart_gives ht, fun _ _ _ _ ht hu hj htd => shutdownAck_gives ht hu hj htd⟩

end Sys2Proof.Machine


/-! The DMA rings and the buffers of EVR and SPR (01, R16 to R19; 08, R214; 17, R404). -/
namespace Sys2Proof.Machine
set_option exponentiation.threshold 600

/-! ### Tail writes -/

theorem addBuffers_rd (d : Dev) (r : Nat) (lens : List Nat) (f : Fld) (i j : Nat) : (d.addBuffers r lens).rd f i j = d.rd f i j :=
  (Dev.addBuffers_only d r lens).regs f (Nat.zero_testBit _) i j

theorem addBuffers_spr (d : Dev) (lens : List Nat) :
    (d.addBuffers 45 lens).integ.spr.caps = d.integ.spr.caps ++ lens.map (· / 32) := rfl

/-- A tail write that reaches its register, whatever of its descriptors firmware could store. -/
theorem dmaTailWrite_exec {lvl : Lvl} {r : RingNo} {s : State} (idx : BitVec 19) (descs : List (List Byte))
    (hr : s.dev.Reaches lvl (0xF01010 + 32 * r.val)) :
    ∃ u : State, u.dev.integ = s.dev.integ ∧ (∀ k, u.dev.rd .DMA_RHEAD_IDX k = s.dev.rd .DMA_RHEAD_IDX k) ∧
      exec (.dmaTailWrite lvl r idx descs) s =
        .next { u with dev := (u.dev.wr .DMA_RTAIL_IDX idx.toNat r.val).addBuffers r.val ((descs.map (fit 32)).map descLen) } := by
  have hu := (State.fwDescs_only s lvl.val r.val (s.dev.rd .DMA_RTAIL_IDX r.val) (descs.map (fit 32))).dev
  refine ⟨_, hu.parts .integ rfl, fun k => hu.rd .DMA_RHEAD_IDX k 0 rfl, ?_⟩
  show execDmaTailWrite lvl r idx descs s = _
  unfold execDmaTailWrite State.act
  dsimp only
  rw [ownWrite_reaches (reaches_of hu rfl rfl hr)]

theorem dmaTailWrite_gives {lvl : Lvl} {r : RingNo} {s : State} (idx : BitVec 19) (descs : List (List Byte))
    (hr : s.dev.Reaches lvl (0xF01010 + 32 * r.val)) :
    Gives (.dmaTailWrite lvl r idx descs) s fun t => t.dev.rd .DMA_RTAIL_IDX r.val = idx.toNat ∧
      t.dev.rd .DMA_RHEAD_IDX r.val = s.dev.rd .DMA_RHEAD_IDX r.val ∧
      (r.val = 45 → t.dev.integ.spr.caps = s.dev.integ.spr.caps ++ descs.map (fun x => descLen (fit 32 x) / 32)) := by
  obtain ⟨u, hinteg, hhead, he⟩ := dmaTailWrite_exec idx descs hr
  refine gives_next he ⟨?_, ?_, fun h45 => ?_⟩
  · exact (addBuffers_rd _ _ _ _ _ _).trans (rd_wr_self u.dev .DMA_RTAIL_IDX _ _ 0 idx.isLt)
  · rw [addBuffers_rd, Dev.rd_wr, if_neg (by simp), hhead]
  · dsimp only
    rw [h45, addBuffers_spr, Dev.wr_integ, hinteg, List.map_map, List.map_map]
    rfl

/-! ### Completion -/

/-- A descriptor of a ring without a row of its own, processed at the first try: its data is moved and it completes. -/
theorem descProcess_completes {s : State} {r a : Nat} {bs : List Byte} (spec12 data : List Byte) (hd : s.ringDesc r = some (a, bs))
    (hp : s.dram.poisoned a 32 = false) (hb : s.bufferOk r (descBuf bs) (descLen bs) = true) (ho : ownRow r = false) :
    ∃ (out : List Byte) (st mv cr : Nat) (bad : Bool),
      let u := (s.descMove r bs data false).1.descDone r a bs out st 0 mv cr
      s.descProcess r spec12 data 0 false = { u with dev := (u.dev.workReported r).ingest r out bad } := by
  unfold State.descProcess
  rw [hd]
  dsimp only
  rw [if_neg (by simp [hp, hb]), if_neg (by simp [ho])]
  exact ⟨_, _, _, _, _, rfl⟩

/-- What completion leaves: the ring's index advanced, the descriptor's OWN 0, and the messages that wait for XCP and XCJ. -/
theorem descProcess_done {s : State} {r a : Nat} {bs : List Byte} (spec12 data : List Byte) (hd : s.ringDesc r = some (a, bs))
    (hp : s.dram.poisoned a 32 = false) (hb : s.bufferOk r (descBuf bs) (descLen bs) = true) (ho : ownRow r = false) :
    (s.descProcess r spec12 data 0 false).dev.rd .DMA_RHEAD_IDX r = (s.dev.rd .DMA_RHEAD_IDX r + 1) % s.dev.ringSize r % 2 ^ 19 ∧
      (s.dev.spanOk a 4 = true → bitOf (leVal (memReadAll (s.descProcess r spec12 data 0 false).dram.mem a 4)) 31 = false) ∧
      (s.descProcess r spec12 data 0 false).dev.xpp = s.dev.xpp := by
  obtain ⟨out, st, mv, cr, bad, he⟩ := descProcess_completes spec12 data hd hp hb ho
  rw [he]
  have hm := (State.descMove_only s r bs data false).dev
  generalize (s.descMove r bs data false).1 = v at hm
  obtain ⟨hhead, hown⟩ := descDone_eq v r a bs out st 0 mv cr
  have hdone := (State.descDone_only v r a bs out st 0 mv cr).dev
  generalize v.descDone r a bs out st 0 mv cr = u at hhead hown hdone
  have hend : ∀ e : Dev, Dev.Only (partsMask [.conns, .rk]) 0 e ((e.workReported r).ingest r out bad) := fun e =>
    (Dev.ingest_only _ r out bad).step rfl rfl ((Dev.workReported_only e r).mono rfl rfl)
  refine ⟨?_, fun hs => hown ?_, ?_⟩
  · have hsize : v.dev.ringSize r = s.dev.ringSize r := by
      unfold Dev.ringSize
      rw [hm.rd .DMA_RCFG_SIZE r 0 rfl]
    rw [(hend u.dev).rd .DMA_RHEAD_IDX r 0 (Nat.zero_testBit _), hhead, hsize, hm.rd .DMA_RHEAD_IDX r 0 rfl]
  · have hvar : v.dev.variant = s.dev.variant := hm.parts .variant rfl
    unfold Dev.spanOk Dev.addrOk Dev.isA32 at hs ⊢
    rw [hvar]
    exact hs
  · exact ((hend u.dev).parts .xpp rfl).trans ((hdone.parts .xpp rfl).trans (hm.parts .xpp rfl))

/-- The next index of a ring is never the index itself: a ring's size is even. -/
theorem ringNext_ne (d : Dev) (r h : Nat) : (h + 1) % d.ringSize r % 2 ^ 19 ≠ h := by
  intro he
  have hsize : 2 ∣ d.ringSize r := Dvd.intro_left (2 ^ (d.rd .DMA_RCFG_SIZE r + 3)) (by rw [Dev.ringSize, ← Nat.pow_succ])
  have hpar : (h + 1) % d.ringSize r % 2 ^ 19 % 2 = (h + 1) % 2 := by
    rw [Nat.mod_mod_of_dvd _ (by decide), Nat.mod_mod_of_dvd _ hsize]
  rw [he] at hpar
  omega

/-- A descriptor of XCP or XCJ that completes takes its message from the list of those that wait. -/
theorem xcProcess_done {s : State} {r a : Nat} {bs : List Byte} {x : XcDesc} (data : List Byte)
    (hx : s.dev.xpp.rings.find? (fun x => x.ring = r) = some x) (hd : s.ringDesc r = some (a, bs)) (hp : s.dram.poisoned a 32 = false)
    (hb : s.bufferOk r (descBuf bs) (descLen bs) = true) (ho : ownRow r = false) :
    (s.xcProcess r data 0 false).dev.rd .DMA_RHEAD_IDX r = (s.dev.rd .DMA_RHEAD_IDX r + 1) % s.dev.ringSize r % 2 ^ 19 ∧
      (s.xcProcess r data 0 false).dev.xpp.rings = s.dev.xpp.rings.erase x := by
  obtain ⟨hhead, _, hxpp⟩ := descProcess_done x.bytes data hd hp hb ho
  unfold State.xcProcess
  simp only [hx]
  generalize s.descProcess r x.bytes data 0 false = t at hhead hxpp
  rw [if_neg (by rw [hhead]; exact ringNext_ne _ _ _)]
  exact ⟨hhead, by rw [hxpp]⟩

theorem dmaDescriptorDone_gives {r : RingNo} {a : Nat} {bs : List Byte} {s : State} (spec12 data : List Byte) (ho : ownRow r.val = false)
    (hr : r.val < 46) (hd : s.ringDesc r.val = some (a, bs)) (hp : s.dram.poisoned a 32 = false) (hs : s.dev.spanOk a 4 = true)
    (hb : s.bufferOk r.val (descBuf bs) (descLen bs) = true) :
    Gives (.dmaDescriptorDone r spec12 data 0 false) s fun t =>
      t.dev.rd .DMA_RHEAD_IDX r.val = (s.dev.rd .DMA_RHEAD_IDX r.val + 1) % s.dev.ringSize r.val % 2 ^ 19 ∧
        bitOf (leVal (memReadAll t.dram.mem a 4)) 31 = false := by
  obtain ⟨hhead, hown, _⟩ := descProcess_done (fit 12 spec12) data hd hp hb ho
  exact gives_next (congrArg Host.Outcome.next (if_neg (by omega))) ⟨hhead, hown hs⟩

theorem dmaMessageDone_gives {r : RingNo} {a : Nat} {bs : List Byte} {x : XcDesc} {s : State} (spec12 data : List Byte) (hr : 46 ≤ r.val)
    (hx : s.dev.xpp.rings.find? (fun x => x.ring = r.val) = some x) (hd : s.ringDesc r.val = some (a, bs))
    (hp : s.dram.poisoned a 32 = false) (hb : s.bufferOk r.val (descBuf bs) (descLen bs) = true) :
    Gives (.dmaDescriptorDone r spec12 data 0 false) s fun t =>
      t.dev.rd .DMA_RHEAD_IDX r.val = (s.dev.rd .DMA_RHEAD_IDX r.val + 1) % s.dev.ringSize r.val % 2 ^ 19 ∧
        t.dev.xpp.rings = s.dev.xpp.rings.erase x := by
  have ho : ownRow r.val = false := by
    unfold ownRow
    simp
    omega
  exact gives_next (congrArg Host.Outcome.next (if_pos hr)) (xcProcess_done data hx hd hp hb ho)

/-- SPR completes its descriptors by SPR_FLUSH: here only the retries and poison of the buffer being filled are kept. -/
theorem descProcess_spr {s : State} {a tries : Nat} {bs : List Byte} (spec12 data : List Byte) (poison : Bool)
    (hd : s.ringDesc 45 = some (a, bs)) (hp : s.dram.poisoned a 32 = false) (hb : s.bufferOk 45 (descBuf bs) (descLen bs) = true)
    (ht : tries ≤ s.dev.rd .DMA_CTL_RETRY) :
    s.descProcess 45 spec12 data tries poison = { s with dev := s.dev.noteTries 45 tries poison } := by
  unfold State.descProcess
  rw [hd]
  dsimp only
  rw [if_neg (by simp [hp, hb]; omega), if_pos (by decide)]

theorem dmaSprTries_gives {tries : Fin 16} {poison : Bool} {a : Nat} {bs : List Byte} {s : State} (spec12 data : List Byte)
    (hd : s.ringDesc 45 = some (a, bs)) (hp : s.dram.poisoned a 32 = false) (hb : s.bufferOk 45 (descBuf bs) (descLen bs) = true)
    (ht : tries.val ≤ s.dev.rd .DMA_CTL_RETRY) :
    Gives (.dmaDescriptorDone 45 spec12 data tries poison) s fun t =>
      t.dev.integ.spr.tries = tries.val ∧ t.dev.integ.spr.bad = poison ∧ t.dram = s.dram ∧
        ∀ r, t.dev.rd .DMA_RHEAD_IDX r = s.dev.rd .DMA_RHEAD_IDX r := by
  refine gives_next (t := { s with dev := s.dev.noteTries 45 tries.val poison }) ?_ ⟨rfl, rfl, rfl, fun r => ?_⟩
  · exact congrArg Host.Outcome.next ((if_neg (by decide)).trans (descProcess_spr (fit 12 spec12) data poison hd hp hb ht))
  · exact (Dev.noteTries_only s.dev 45 tries.val poison).rd .DMA_RHEAD_IDX r 0 (Nat.zero_testBit _)

/-! ### Halts -/

theorem dmaHalt_gives {r : RingNo} {d0 : Nat × List Byte} {s : State} (hd : s.ringDesc r.val = some d0) :
    Gives (.dmaHalt r) s fun t =>
      t.dev.halted r.val = true ∧ t.dev.evPending Ev.DMA_HALT ∧ t.dev.rd .DMA_RHEAD_IDX r.val = s.dev.rd .DMA_RHEAD_IDX r.val := by
  obtain ⟨hh, he, hk⟩ := fail_eq s r.val d0.1 r.isLt
  refine gives_next (t := s.descFail r.val d0.1) ?_ ⟨hh, he, hk r.val⟩
  show execDmaHalt r s = _
  unfold execDmaHalt
  rw [hd]

theorem dmaHaltClear_lo_gives {lvl : Lvl} {s : State} (val : U32) (hr : s.dev.Reaches lvl 0xF00008) :
    Gives (.dmaHaltClear lvl false val) s fun t =>
      ∀ k, k < 32 → bitOf (t.dev.rd .DMA_HALT_LO_HALT) k = (bitOf (s.dev.rd .DMA_HALT_LO_HALT) k && !bitOf val.toNat k) := by
  refine reaches_act hr rfl fun k hk => ?_
  dsimp only
  rw [Dev.rd_wr, if_pos ⟨rfl, rfl, rfl⟩]
  exact clearBits _ _ 32 k val.isLt hk _ rfl

theorem dmaHaltClear_hi_gives {lvl : Lvl} {s : State} (val : U32) (hr : s.dev.Reaches lvl 0xF0000C) :
    Gives (.dmaHaltClear lvl true val) s fun t =>
      ∀ k, k < 16 → bitOf (t.dev.rd .DMA_HALT_HI_HALT) k = (bitOf (s.dev.rd .DMA_HALT_HI_HALT) k && !bitOf val.toNat k) := by
  refine reaches_act hr rfl fun k hk => ?_
  dsimp only
  rw [Dev.rd_wr, if_pos ⟨rfl, rfl, rfl⟩]
  exact (clearBits _ _ 16 k (Nat.mod_lt _ (by decide)) hk _ rfl).trans (by rw [bitOf_mod _ 16 k hk])

/-! ### Buffers of EVR and SPR -/

theorem evrBufferClose_gives {a : Nat} {bs : List Byte} {cap : Nat} {caps : List Nat} {s : State} (hd : s.ringDesc 44 = some (a, bs))
    (hc : s.dev.evr.caps = cap :: caps) (h0 : 0 < cap) (hne : s.dev.evr.inBufs ≠ []) (hp : s.dram.poisoned a 32 = false)
    (hb : s.bufferOk 44 (descBuf bs) (descLen bs) = true)
    (hdue : s.dev.evr.isFull = true ∨ s.dev.evr.isOld s.dev.now 1000000 = true) :
    Gives .evrBufferClose s fun t =>
      t.dev.evr.seq = (s.dev.evr.seq + min cap s.dev.evr.inBufs.length) % 2 ^ 32 ∧ t.dev.evr.caps = caps ∧
        t.dev.rd .DMA_RHEAD_IDX 44 = (s.dev.rd .DMA_RHEAD_IDX 44 + 1) % s.dev.ringSize 44 % 2 ^ 19 := by
  obtain ⟨b, u, he, hseq, hcaps, _, _, hhead⟩ := bufClose_eq s 44 s.dev.evr (fun n e => e.bytes (n % 2 ^ 32))
    (fun n => le 4 s.dev.evr.seq ++ le 2 n ++ le 6 0) (fun ring d => { d with evr := ring }) a bs cap caps hd hc h0 hne hp hb
  refine gives_next (congrArg Host.Outcome.next ((if_pos ?_).trans he)) ⟨hseq, hcaps, hhead⟩
  rw [Bool.or_eq_true]
  exact hdue

theorem sprFlush_gives {a : Nat} {bs : List Byte} {cap : Nat} {caps : List Nat} {s : State} (hd : s.ringDesc 45 = some (a, bs))
    (hc : s.dev.integ.spr.caps = cap :: caps) (h0 : 0 < cap) (hne : s.dev.integ.spr.inBufs ≠ []) (hp : s.dram.poisoned a 32 = false)
    (hb : s.bufferOk 45 (descBuf bs) (descLen bs) = true)
    (hdue : s.dev.integ.spr.isFull = true ∨ s.dev.integ.spr.isOld s.dev.now (1000 * s.dev.rd .SP_SPRCFG_FLUSH) = true) :
    Gives .sprFlush s fun t =>
      t.dev.integ.spr.seq = (s.dev.integ.spr.seq + min cap s.dev.integ.spr.inBufs.length) % 2 ^ 32 ∧ t.dev.integ.spr.caps = caps ∧
        t.dev.rd .DMA_RHEAD_IDX 45 = (s.dev.rd .DMA_RHEAD_IDX 45 + 1) % s.dev.ringSize 45 % 2 ^ 19 := by
  obtain ⟨b, u, he, hseq, hcaps, _, _, hhead⟩ := bufClose_eq s 45 s.dev.integ.spr (fun _ r => r.bytes)
    (fun n => le 4 s.dev.integ.spr.seq ++ le 2 n ++ le 6 0) (fun ring d => { d with integ := { d.integ with spr := ring } })
    a bs cap caps hd hc h0 hne hp hb
  refine gives_next (congrArg Host.Outcome.next ((if_pos ?_).trans he)) ⟨hseq, hcaps, hhead⟩
  rw [Bool.or_eq_true]
  exact hdue

/-- Settles O33: tail writes, completion with and without a row of its own, halts, and the two record buffers, one lemma each. -/
theorem dmaRingsTakeEffect : Obligations.DmaRingsTakeEffect :=
  ⟨fun _ _ idx descs _ hr => dmaTailWrite_gives idx descs hr,
    fun _ spec12 data _ _ _ ho hr hd hp hs hb => dmaDescriptorDone_gives spec12 data ho hr hd hp hs hb,
    fun _ spec12 data _ _ _ _ hr hx hd hp hb => dmaMessageDone_gives spec12 data hr hx hd hp hb,
    fun spec12 data _ _ _ _ _ hd hp hb ht => dmaSprTries_gives spec12 data hd hp hb ht,
    fun _ _ _ hd => dmaHalt_gives hd, fun _ val _ hr => dmaHaltClear_lo_gives val hr, fun _ val _ hr => dmaHaltClear_hi_gives val hr,
    fun _ _ _ _ _ hd hc h0 hne hp hb hdue => evrBufferClose_gives hd hc h0 hne hp hb hdue,
    fun _ _ _ _ _ hd hc h0 hne hp hb hdue => sprFlush_gives hd hc h0 hne hp hb hdue⟩

end Sys2Proof.Machine

/-! The reception of records over two jobs held under one JN (02, R29, R44; Table 2-13). `Dev.updJob` writes every job held under a JN, so
the time that a record renews makes copies of the first of them: the store in use grows before the record is weighed against it. -/

namespace Sys2Proof.Machine

/-! ### A record that the store no longer takes -/

theorem newRecord_of_overfull {d : Dev} {j : Job} {r : RawRec} (hst : j.st = .receiving) (hfull : d.storeSize < d.storeUsed + r.len) :
    d.newRecord j r = d.rejectJob j.jn 6 := by
  unfold Dev.newRecord
  rw [if_pos hfull, if_pos hst]

/-- The block once the record's time is the job's. -/
def Dev.renewed (d : Dev) (j : Job) : Dev := d.updJob j.jn fun _ => { j with recvAt := d.now }

theorem takeRecord_of_overfull {d : Dev} {j : Job} {r : RawRec} (hst : j.st = .receiving) (hnew : j.heldAt r.seq = none)
    (hord : j.orderOk r (fieldAt r.payload 0 4) = true) (hfull : (d.renewed j).storeSize < (d.renewed j).storeUsed + r.len) :
    d.takeRecord j r = (d.renewed j).rejectJob j.jn 6 := by
  unfold Dev.takeRecord
  dsimp only
  rw [show Job.heldAt { j with recvAt := d.now } r.seq = none from hnew]
  dsimp only
  rw [if_pos (show Job.orderOk { j with recvAt := d.now } r _ = true from hord)]
  exact newRecord_of_overfull hst hfull

theorem map_unpoisoned {c : Conn} (hp : c.poison = false) (l : List Conn) :
    l.map (fun x => if x = c then { x with poison := false } else x) = l := by
  refine List.map_id'' (fun x => ?_) l
  split
  · next h => subst h; cases x; cases hp; rfl
  · rfl

/-- A sound record on an open connection is the job's to take. -/
theorem ahnusRecord_of_sound {d : Dev} {conn : Nat} {bytes : List Byte} {c : Conn} {j : Job} {r : RawRec}
    (hc : d.conns.find? (fun c => c.idx = conn) = some c) (hh : c.holes = []) (hp : c.poison = false)
    (hr : readRecord bytes = some r) (hjn : r.jn = c.jn) (hj : d.job c.jn = some j) :
    d.ahnusRecord conn bytes false = d.takeRecord j r := by
  unfold Dev.ahnusRecord
  rw [hc]
  dsimp only
  rw [if_neg (by simp [hh]), map_unpoisoned hp, hp, Bool.or_false, if_neg (by decide), hr]
  dsimp only
  rw [if_neg (by simp [hjn]), show Dev.job { d with conns := d.conns } c.jn = some j from hj]

/-- With the store too small once the job's time is renewed, a sound new record of a RECEIVING job leaves no job under its JN. -/
theorem ahnusRecord_overfull_gives {conn : Fin 8} {bytes : List Byte} {c : Conn} {j : Job} {r : RawRec} {s : State}
    (hidle : s.dev.st.idleToHold = true) (hc : s.dev.conns.find? (fun c => c.idx = conn.val) = some c) (hh : c.holes = [])
    (hp : c.poison = false) (hr : readRecord bytes = some r) (hjn : r.jn = c.jn) (hj : s.dev.job c.jn = some j) (hst : j.st = .receiving)
    (hnew : j.heldAt r.seq = none) (hord : j.orderOk r (fieldAt r.payload 0 4) = true)
    (hfull : (s.dev.renewed j).storeSize < (s.dev.renewed j).storeUsed + r.len) :
    Gives (.ahnusRecord conn bytes false) s fun t => t.dev.job j.jn = none := by
  refine gives_act rfl ?_
  dsimp only
  rw [if_pos hidle, ahnusRecord_of_sound hc hh hp hr hjn hj, takeRecord_of_overfull hst hnew hord hfull]
  exact (rejectJob_other _ j.jn 6).1

theorem Gives.both {c : Instr} {s : State} {p q : State → Prop} (hp : Gives c s p) (hq : Gives c s q) : ∃ t, p t ∧ q t := by
  obtain ⟨t, ht, hpt⟩ := hp
  obtain ⟨u, hu, hqu⟩ := hq
  cases ht.symm.trans hu
  exact ⟨t, hpt, hqu⟩

/-! ### The counterexample -/

/-- A job RECEIVING under JN 7 with records held. -/
def twin (held : List Held) : Job := { (default : Job) with jn := 7, st := .receiving, held := held }

/-- A `JOB` record of 24 bytes, held. -/
def heldJobRec : Held := ⟨0, RecType.job.code, 0, 24, 0⟩

/-- The block in IDLE with a store of 48 bytes, connection 0 open for JN 7, and two jobs RECEIVING under JN 7: the first holds 24 bytes. -/
def twinJobs : State :=
  let d := State.reset.dev.wr .AON_STATE_STATE DState.idle.code
  { State.reset with dev := { d with jobs := [twin [heldJobRec], twin []], conns := [⟨0, 7, false, [], false⟩],
                                     boot := { d.boot with content := some { (default : CrownContent) with store := 48 } } } }

/-- A PALETTE record without entries, JN 7, SEQ 1 (02, R25, Table 2-4): 24 bytes with its `CRC`. -/
def paletteBytes : List Byte := le 2 2 ++ le 2 1 ++ le 4 4 ++ le 4 7 ++ le 4 1 ++ le 4 1 ++ le 4 419687563

/-- The record read. -/
def paletteRec : RawRec := ⟨.palette, 7, 1, 419687563, 24, le 4 1⟩

theorem readRecord_paletteBytes : readRecord paletteBytes = some paletteRec := by decide +kernel

/-- Before the record the store has room for it; once its time is the jobs', no longer. -/
theorem twinJobs_store : twinJobs.dev.storeUsed + paletteRec.len = twinJobs.dev.storeSize ∧
    (twinJobs.dev.renewed (twin [heldJobRec])).storeSize < (twinJobs.dev.renewed (twin [heldJobRec])).storeUsed + paletteRec.len := by
  decide +kernel

theorem twinJobs_idleToHold : twinJobs.dev.st.idleToHold = true := by decide +kernel

/-- Refutes O26: with two jobs held under one JN, a sound record that fits the store is not held. In `twinJobs` the first job of JN 7
holds 24 bytes and the second none, so a record of 24 bytes fits the store of 48; renewing the receive time copies the first job over the
second, the 24 bytes count twice, and the job is rejected with reason 6 (Table 2-13). -/
theorem not_bulkConnectionsAndRecords : ¬ Obligations.BulkConnectionsAndRecords := by
  unfold Obligations.BulkConnectionsAndRecords
  rintro ⟨-, -, hrecord, -⟩
  have hnew : (twin [heldJobRec]).heldAt paletteRec.seq = none := by decide +kernel
  have hord : (twin [heldJobRec]).orderOk paletteRec (fieldAt paletteRec.payload 0 4) = true := by decide +kernel
  have hheld := hrecord 0 paletteBytes ⟨0, 7, false, [], false⟩ (twin [heldJobRec])
    { twin [heldJobRec] with recvAt := twinJobs.dev.now, palette := some (1, []) } paletteRec twinJobs twinJobs_idleToHold rfl rfl rfl
    readRecord_paletteBytes rfl rfl rfl hnew hord twinJobs_store.1.le (by decide) (by decide) (by decide) (by decide +kernel) rfl
    (by decide) rfl
  have hlost := ahnusRecord_overfull_gives twinJobs_idleToHold (conn := 0) (c := ⟨0, 7, false, [], false⟩) rfl rfl rfl
    readRecord_paletteBytes rfl (j := twin [heldJobRec]) rfl rfl hnew hord twinJobs_store.2
  obtain ⟨t, ⟨hsome, -⟩, hnone⟩ := hheld.both hlost
  exact Option.some_ne_none _ (hsome.symm.trans hnone)

end Sys2Proof.Machine

/-! Automatic placement, the commitment point and the lowering of L (02, R50, R51; 06, R151, R423). -/
namespace Sys2Proof.Machine

/-! ### Automatic placement (R51) -/

/-- Where every placed job is past its commitment point, AUTO_PLACEMENT is the automatic placement. -/
theorem autoPlacement_exec {s : State} (hst : s.dev.st.idleToHold = true)
    (hpast : ∀ p, s.dev.lastPlaced = some p → s.dev.rk.committed.elem p.jn = true) :
    exec .autoPlacement s = .next { s with dev := s.dev.autoPlace } := by
  show execAutoPlacement s = _
  unfold execAutoPlacement State.act
  cases hl : s.dev.lastPlaced with
  | none => simp only [hl, hst, Bool.not_false, Bool.and_self, if_true]
  | some p => simp only [hl, hst, hpast p hl, Bool.not_true, Bool.not_false, Bool.and_self, if_true]

/-- Nothing to place, or nowhere. -/
theorem autoPlace_of_none {d : Dev} (h : d.chainHead = none ∨ d.freeEntry = none) : d.autoPlace = d := by
  unfold Dev.autoPlace
  split
  · next jn r hc =>
    have he : d.freeEntry = none := h.resolve_left (by rw [hc]; exact Option.some_ne_none _)
    rw [he]
    rfl
  · rfl

/-- The head of the chain stands in the free entry, with its JN and lines. -/
theorem autoPlace_rd {d : Dev} {jn e : Nat} {r : JobRec} {j : Job} (hc : d.chainHead = some (jn, r)) (he : d.freeEntry = some e)
    (hj : d.job jn = some j) (hr : j.rec? = some r) :
    d.autoPlace.rd .FIRE_PL_JN_JN e = jn % 2 ^ 32 ∧ d.autoPlace.rd .FIRE_PL_LINES_L e = r.lines % 2 ^ 32 ∧
      d.autoPlace.rd .FIRE_PL_ORGH_VALID e = 1 := by
  unfold Dev.autoPlace
  rw [hc, he]
  exact place_rd d jn _ e r he (by rw [hj]; exact hr)

theorem autoPlacement_places {s : State} {jn e : Nat} {r : JobRec} (hst : s.dev.st.idleToHold = true)
    (hpast : ∀ p, s.dev.lastPlaced = some p → s.dev.rk.committed.elem p.jn = true) (hc : s.dev.chainHead = some (jn, r))
    (he : s.dev.freeEntry = some e) (hj : ∃ j, s.dev.job jn = some j ∧ j.rec? = some r) :
    Gives .autoPlacement s fun t =>
      t.dev.rd .FIRE_PL_JN_JN e = jn % 2 ^ 32 ∧ t.dev.rd .FIRE_PL_LINES_L e = r.lines % 2 ^ 32 ∧ t.dev.rd .FIRE_PL_ORGH_VALID e = 1 := by
  obtain ⟨j, hj, hr⟩ := hj
  exact gives_next (autoPlacement_exec hst hpast) (autoPlace_rd hc he hj hr)

theorem autoPlacement_keeps {s : State} (h : s.dev.chainHead = none ∨ s.dev.freeEntry = none) : Gives .autoPlacement s fun t => t = s := by
  refine gives_next (t := s) ?_ rfl
  show execAutoPlacement s = _
  unfold execAutoPlacement State.act
  dsimp only
  rw [autoPlace_of_none h, ite_self]

/-! ### The commitment point (R50) -/

/-- Once the last placed job's end lies within the reserve, its JN is among the committed, whatever is placed after it. -/
theorem commit_of_reserve {d : Dev} {p : Pl} (hl : d.lastPlaced = some p) (hend : d.fromF p.end' ≤ d.fromF (d.reserveOrigin p.pitch)) :
    p.jn ∈ d.commit.rk.committed := by
  unfold Dev.commit
  rw [hl]
  simp only [if_pos hend]
  split
  · next h => exact List.mem_of_elem_eq_true h
  · split
    · split
      · rw [place_committed]
        exact List.mem_cons_self
      · rw [autoPlace_committed]
        exact List.mem_cons_self
    · exact List.mem_cons_self

theorem commitmentPoint_commits {s : State} {p : Pl} (hst : s.dev.st.idleToHold = true) (hl : s.dev.lastPlaced = some p)
    (hend : s.dev.fromF p.end' ≤ s.dev.fromF (s.dev.reserveOrigin p.pitch)) :
    Gives .commitmentPoint s fun t => p.jn ∈ t.dev.rk.committed := by
  refine gives_fn rfl (if_pos hst) ?_
  exact commit_of_reserve hl hend

/-! ### Lowering L (R423) -/

/-- R423's condition on a write of L: a lower L, at a product boundary not before the first product not started. -/
def Job.mayLower (j : Job) (r : JobRec) (p : Pl) (lines : Nat) : Prop :=
  0 < r.pitch ∧ lines % r.pitch = 0 ∧ lines < p.lines ∧ j.started * r.pitch ≤ lines

section
variable {d : Dev} {e lines : Nat} {p : Pl} {j : Job} {r : JobRec} (hp : d.pl e = some p) (hj : d.job p.jn = some j) (hr : j.rec? = some r)
include hp hj hr

theorem lowerLines_rd (hl : lines < 2 ^ 32) (h : j.mayLower r p lines) : (d.lowerLines e lines).rd .FIRE_PL_LINES_L e = lines := by
  rw [(lowerLines_eq d e lines p j r hp hj hr).trans (if_pos h), dropLines_lines]
  refine (fold_keep' _ _ (fun d => d.rd .FIRE_PL_LINES_L e) _ fun _ _ => Dev.updLane_rd ..).trans ?_
  refine (fold_keep' _ _ (fun d => d.rd .FIRE_PL_LINES_L e) _ fun _ _ => updRw_rd ..).trans ?_
  exact lowered_lines d e lines p.jn r.pitch hl

theorem lowerLines_of_not (h : ¬ j.mayLower r p lines) : d.lowerLines e lines = d :=
  (lowerLines_eq d e lines p j r hp hj hr).trans (if_neg h)

end

/-- A write of L that reaches the register acts at level 3 only. -/
theorem placementLinesLower_exec {lvl : Lvl} {e : Fin 4} {s : State} (lines : U32) (h : s.dev.Reaches lvl (0x600418 + 0x20 * e.val)) :
    exec (.placementLinesLower lvl e lines) s =
      .next { s with dev := if lvl.val = 3 then s.dev.lowerLines e lines.toNat else s.dev } :=
  congrArg (fun d : Dev => (Host.Outcome.next { s with dev := d } : Out))
    (ownWrite_reaches h fun d => if lvl.val = 3 then d.lowerLines e lines.toNat else d)

theorem placementLinesLower_lowers {lvl : Lvl} {e : Fin 4} {lines : U32} {p : Pl} {j : Job} {r : JobRec} {s : State}
    (h : s.dev.Reaches lvl (0x600418 + 0x20 * e.val)) (hp : s.dev.pl e.val = some p) (hj : s.dev.job p.jn = some j) (hr : j.rec? = some r) :
    Gives (.placementLinesLower lvl e lines) s fun t =>
      (lvl.val = 3 ∧ j.mayLower r p lines.toNat → t.dev.rd .FIRE_PL_LINES_L e.val = lines.toNat) ∧
        (¬(lvl.val = 3 ∧ j.mayLower r p lines.toNat) → t = s) := by
  refine gives_next (placementLinesLower_exec lines h) ⟨?_, fun hbad => ?_⟩
  · rintro ⟨hlvl, hmay⟩
    rw [if_pos hlvl]
    exact lowerLines_rd hp hj hr lines.isLt hmay
  · split
    · next hlvl => rw [lowerLines_of_not hp hj hr fun hmay => hbad ⟨hlvl, hmay⟩]
    · rfl

/-- Settles O27: automatic placement with a job to place and without, the commitment point, and the write of L, one lemma each. -/
theorem placementTakesEffect : Obligations.PlacementTakesEffect :=
  ⟨fun _ _ _ _ hst hpast hc he hj => autoPlacement_places hst hpast hc he hj, fun _ _ h => autoPlacement_keeps h,
    fun _ _ hst hl hend => commitmentPoint_commits hst hl hend,
    fun _ _ _ _ _ _ _ h hp hj hr => placementLinesLower_lowers h hp hj hr⟩

end Sys2Proof.Machine

/-! Frames of the inputs, bulk connections and job records, placement and the Reckoners, read off the masks that `exec_only` gives
each command. -/
namespace Sys2Proof.Machine
-- The masks of register fields evaluate as powers of two up to the last field's number.
set_option exponentiation.threshold 600

/-- Settles O55: the lists of parts and of fields in each clause cover the masks of its command. -/
theorem framesOfInputsJobsAndReckoners : Obligations.FramesOfInputsJobsAndReckoners := by
  unfold Obligations.FramesOfInputsJobsAndReckoners
  refine ⟨fun _ _ _ h => ?_, fun _ _ h => ?_, fun _ _ h => ?_, fun _ _ h => ?_, fun _ _ h => ?_, fun _ _ h => ?_, fun _ _ h => ?_,
    fun _ _ h => ?_, fun _ _ _ _ h => ?_, fun _ _ _ h => ?_, fun _ _ _ _ _ h => ?_, fun _ _ _ h => ?_, fun _ _ h => ?_, fun _ _ h => ?_,
    fun _ _ _ h => ?_, fun _ _ _ h => ?_, fun _ _ _ _ h => ?_, fun _ _ _ _ h => ?_, fun _ _ _ _ h => ?_, fun _ _ _ _ h => ?_,
    fun _ _ _ _ _ h => ?_, fun _ _ _ h => ?_, fun _ _ _ h => ?_, fun _ _ _ _ h => ?_⟩
  all_goals exact exec_unchanged h (by simp only [cmdParts]; rfl) (by simp only [cmdFields]; rfl)

end Sys2Proof.Machine

/-! Failures of the Reckoners (03, R57, R76 to R78): strikes by traps and by the watchdog, the code read again after a poisoned
instruction, the expiry of a strike and the release from the mitten. -/
namespace Sys2Proof.Machine
set_option exponentiation.threshold 600

/-! ### Strikes (R76) -/

/-- RKi has taken a strike of a cause: `RKC_STRIKE` names the cause and counts it, up to 15. -/
def Dev.Struck (d : Dev) (i cause : Nat) (e : Dev) : Prop :=
  e.rd .RKC_STRIKE_LAST i = cause ∧ e.rd .RKC_STRIKE_TOTAL i = min 15 (d.rd .RKC_STRIKE_TOTAL i + 1)

/-- An operation that keeps the count of strikes may stand before a strike. -/
theorem Dev.Struck.after {c r : Nat} {d d' e : Dev} {i cause : Nat} (h : d'.Struck i cause e) (ho : Dev.Only c r d d')
    (ht : r.testBit (Fld.ctorIdx .RKC_STRIKE_TOTAL) = false) : d.Struck i cause e := by
  obtain ⟨hlast, htotal⟩ := h
  exact ⟨hlast, htotal.trans (by rw [ho.rd .RKC_STRIKE_TOTAL i 0 ht])⟩

theorem strike_settled_struck (d : Dev) (i cause : Nat) (hc : cause < 4) : d.Struck i cause (d.strike i cause).settleRk := by
  obtain ⟨hlast, htotal⟩ := strike_fields d i cause hc
  have hs := Dev.settleRk_only (d.strike i cause)
  exact ⟨(hs.rd .RKC_STRIKE_LAST i 0 rfl).trans hlast, (hs.rd .RKC_STRIKE_TOTAL i 0 rfl).trans htotal⟩

theorem failWork_struck (d : Dev) (i cause : Nat) (w : Work) (hc : cause < 4) : d.Struck i cause (d.failWork i cause w) :=
  failWork_fields d i cause w hc

/-! ### Traps (R57, R76) -/

theorem reckonerTrap_exec {rk : RkNo} {s : State} (cause : TrapCause) (poisoned : Bool) (ha : s.dev.rkActive rk.val = true) :
    exec (.reckonerTrap rk cause poisoned) s =
      (if ownTrap cause poisoned then s.reloadRk rk.val else s).act (·.rkTrap rk.val cause poisoned) := by
  show execReckonerTrap rk cause poisoned s = _
  unfold execReckonerTrap
  exact if_pos ha

/-- Any trap but one on a poisoned instruction is a strike, with a descriptor in progress or without one. -/
theorem rkTrap_struck (d : Dev) (i : Nat) {cause : TrapCause} {poisoned : Bool} (h : ownTrap cause poisoned = false) :
    d.Struck i 2 (d.rkTrap i cause poisoned) := by
  unfold Dev.rkTrap
  rw [h]
  dsimp only
  split
  · exact (strike_settled_struck _ i 2 (by decide)).after (Dev.raise_only d _ _) rfl
  · next w _ => exact (failWork_struck _ i 2 w (by decide)).after (Dev.raise_only d _ _) rfl

theorem reckonerTrap_strikes {rk : RkNo} {cause : TrapCause} {poisoned : Bool} {s : State} (ha : s.dev.rkActive rk.val = true)
    (h : ownTrap cause poisoned = false) : Gives (.reckonerTrap rk cause poisoned) s fun t => s.dev.Struck rk.val 2 t.dev := by
  have hexec := reckonerTrap_exec cause poisoned ha
  rw [h, if_neg Bool.false_ne_true] at hexec
  refine gives_act hexec ?_
  dsimp only
  exact rkTrap_struck _ _ h

theorem ownTrap_of_not_fetch {cause : TrapCause} (h : cause ≠ .fetch) : ownTrap cause true = false := by
  simp [ownTrap, h]

theorem ownTrap_of_unpoisoned (cause : TrapCause) : ownTrap cause false = false := rfl

/-- The block in which a descriptor in progress has started again at a time. -/
def Dev.startAgain (d : Dev) (w : Work) (now : Nat) : Dev :=
  d.updRk fun k => { k with work := k.work.map fun x => if x = w then { x with since := now } else x }

theorem startAgain_only (d : Dev) (w : Work) (now : Nat) : Dev.Only (partsMask [.rk]) 0 d (d.startAgain w now) := Dev.updRk_only d _

theorem startAgain_mem {d : Dev} {w : Work} (now : Nat) (h : w ∈ d.rk.work) : { w with since := now } ∈ (d.startAgain w now).rk.work :=
  List.mem_map.2 ⟨w, h, if_pos rfl⟩

/-- The block after a trap of RKi on a poisoned instruction in descriptor `w`: the event, and the cycles spent. -/
def Dev.ownTrapped (d : Dev) (i : Nat) (w : Work) : Dev :=
  (d.raise Ev.RK_TRAP (le 1 i ++ le 1 (trapCode .fetch) ++ le 1 (bit true))).addBusy i w

/-- What such a trap may change before the descriptor starts again. -/
theorem ownTrapped_only (d : Dev) (i : Nat) (w : Work) :
    Dev.Only (partsMask [.xpp, .trace, .evr, .out]) (fieldsMask [.AON_EVPEND_PEND, .AON_EVLOST_N, .RKC_BUSY_CYC]) d (d.ownTrapped i w) :=
  (Dev.addBusy_only _ i w).step rfl rfl ((Dev.raise_only d _ _).mono rfl rfl)

theorem ownTrapped_pending (d : Dev) (i : Nat) (w : Work) : (d.ownTrapped i w).evPending Ev.RK_TRAP :=
  (Dev.addBusy_only _ i w).evPending _ rfl (Dev.raise_pending d _ _ (by decide))

/-- A trap on a poisoned instruction starts the descriptor in progress again. -/
theorem rkTrap_poisoned {d : Dev} {i : Nat} {w : Work} (hw : d.anyExec i = some w) :
    d.rkTrap i .fetch true = (d.ownTrapped i w).startAgain w d.now := by
  have hraised : ∀ x, (d.raise Ev.RK_TRAP x).anyExec i = some w := fun x => by
    unfold Dev.anyExec at hw ⊢
    rw [Dev.raise_rk, hw]
  have hnow : ∀ x, (d.raise Ev.RK_TRAP x).now = d.now := fun x => now_of (Dev.raise_tb d _ x) ((Dev.raise_only d _ x).rd .TB_CTL_SRC 0 0 rfl)
  unfold Dev.rkTrap
  rw [show ownTrap .fetch true = true from rfl]
  dsimp only
  rw [hraised, hnow]
  exact if_pos rfl

theorem restarted_work {d : Dev} {i : Nat} {w : Work} (hw : d.anyExec i = some w) :
    ∃ x ∈ ((d.ownTrapped i w).startAgain w d.now).rk.work, x.id = w.id ∧ x.exec = some i ∧ x.since = d.now := by
  have hmem : w ∈ (d.ownTrapped i w).rk.work := by
    rw [(ownTrapped_only d i w).parts .rk rfl]
    exact List.mem_of_find?_eq_some hw
  have hexec : decide (w.exec = some i) = true := List.find?_some (p := fun w : Work => decide (w.exec = some i)) hw
  exact ⟨_, startAgain_mem d.now hmem, rfl, of_decide_eq_true hexec, rfl⟩

theorem reckonerTrap_reloads {rk : RkNo} {w : Work} {s : State} (ha : s.dev.rkActive rk.val = true) (hw : s.dev.anyExec rk.val = some w) :
    Gives (.reckonerTrap rk .fetch true) s fun t =>
      t.dev.boot.programs = (s.reloadRk rk.val).dev.boot.programs ∧
      t.dev.evPending Ev.RK_TRAP ∧ (∀ i, t.dev.rd .RKC_STRIKE_TOTAL i = s.dev.rd .RKC_STRIKE_TOTAL i) ∧
        ∃ x ∈ t.dev.rk.work, x.id = w.id ∧ x.exec = some rk.val ∧ x.since = s.dev.now := by
  have hreload := (State.reloadRk_only s rk.val).dev
  have hwork : (s.reloadRk rk.val).dev.anyExec rk.val = some w := hw
  have hnow : (s.reloadRk rk.val).dev.now = s.dev.now := rfl
  have hexec := reckonerTrap_exec .fetch true ha
  rw [show ownTrap .fetch true = true from rfl, if_pos rfl] at hexec
  unfold State.act at hexec
  refine gives_next hexec ?_
  dsimp only
  rw [rkTrap_poisoned hwork, ← hnow]
  have honly := ownTrapped_only (s.reloadRk rk.val).dev rk.val w
  have hagain := startAgain_only ((s.reloadRk rk.val).dev.ownTrapped rk.val w) w (s.reloadRk rk.val).dev.now
  refine ⟨?_, hagain.evPending _ (Nat.zero_testBit _) (ownTrapped_pending _ _ _), fun i => ?_, restarted_work hwork⟩
  · rw [hagain.parts .boot rfl, honly.parts .boot rfl]
  · rw [hagain.rd .RKC_STRIKE_TOTAL i 0 (Nat.zero_testBit _), honly.rd .RKC_STRIKE_TOTAL i 0 rfl, hreload.rd .RKC_STRIKE_TOTAL i 0 rfl]

/-! ### The watchdog (R76), the expiry of a strike (R77) -/

theorem renderWatchdog_strikes {rk : RkNo} {w : Work} {s : State} (hw : s.dev.anyExec rk.val = some w)
    (hlong : s.dev.passed w.since (1000 * s.dev.rd .RKC_CTL_WDOG) = true) :
    Gives (.renderWatchdog rk) s fun t => s.dev.Struck rk.val 3 t.dev := by
  refine gives_next (t := { s with dev := s.dev.failWork rk.val 3 w }) ?_ (failWork_struck s.dev rk.val 3 w (by decide))
  show execRenderWatchdog rk s = _
  unfold execRenderWatchdog State.act
  dsimp only
  rw [hw]
  dsimp only
  rw [if_pos hlong]

/-- The block without RKi's last strike. -/
def Dev.strikeExpired (d : Dev) (i : Nat) : Dev :=
  (d.updRk fun k => { k with strikes := Tab.put k.strikes i none }).wr .RKC_STRIKE_PENDING 0 i

theorem strikeExpired_clear (d : Dev) (i : Nat) :
    (d.strikeExpired i).rd .RKC_STRIKE_PENDING i = 0 ∧ Tab.at (d.strikeExpired i).rk.strikes i = none :=
  ⟨rd_wr_self _ _ _ _ _ (by decide), Tab.at_put_same d.rk.strikes i none⟩

/-- STRIKE_EXPIRY of a strike that is an hour old. -/
theorem strikeExpiry_exec {rk : RkNo} {t0 : Nat} {s : State} (hstrike : Tab.at s.dev.rk.strikes rk.val = some t0)
    (hhour : s.dev.passed t0 3600000000000 = true) :
    exec (.strikeExpiry rk) s = .next { s with dev := s.dev.strikeExpired rk.val } := by
  have hdue : (Tab.at s.dev.rk.strikes rk.val : Option Nat).any (fun t => s.dev.passed t 3600000000000) = true := by
    rw [hstrike, Option.any_some, hhour]
  exact congrArg (fun d : Dev => (Host.Outcome.next { s with dev := d } : Out)) (if_pos hdue)

theorem strikeExpiry_clears {rk : RkNo} {t0 : Nat} {s : State} (hstrike : Tab.at s.dev.rk.strikes rk.val = some t0)
    (hhour : s.dev.passed t0 3600000000000 = true) :
    Gives (.strikeExpiry rk) s fun t => t.dev.rd .RKC_STRIKE_PENDING rk.val = 0 ∧ Tab.at t.dev.rk.strikes rk.val = none :=
  gives_next (strikeExpiry_exec hstrike hhour) (strikeExpired_clear s.dev rk.val)

/-! ### Release (R78) -/

theorem reloadFreed_mittened (s : State) (was : Dev) (i : Nat) : (s.reloadFreed was).dev.mittened i = s.dev.mittened i := by
  unfold Dev.mittened
  rw [(State.reloadFreed_only s was).dev.rd .RKC_MITTEN_MIT 0 0 (Nat.zero_testBit _)]

/-- A write of `RKC_MITTEN` that reaches it releases the Reckoners of its mask, whose code is loaded again. -/
theorem rkcMittenWrite_exec {lvl : Lvl} {s : State} (v : U32) (h : s.dev.Reaches lvl 0x200008) :
    exec (.rkcMittenWrite lvl v) s = .next (State.reloadFreed { s with dev := s.dev.releaseRk v.toNat } s.dev) :=
  congrArg (fun d : Dev => (Host.Outcome.next (State.reloadFreed { s with dev := d } s.dev) : Out)) (ownWrite_reaches h (·.releaseRk v.toNat))

theorem rkcMittenWrite_releases {lvl : Lvl} {v : U32} {s : State} (h : s.dev.Reaches lvl 0x200008) :
    Gives (.rkcMittenWrite lvl v) s fun t =>
      ∀ i, i < 16 → bitOf v.toNat i = true → s.dev.mittened i = true → t.dev.mittened i = false := by
  refine gives_next (rkcMittenWrite_exec v h) fun i hi hbit hmit => ?_
  rw [reloadFreed_mittened]
  exact release_mit s.dev v.toNat i hi hbit hmit

/-- Settles O29: traps that strike and those that do not, the watchdog, the expiry and the release, one lemma each. -/
theorem reckonerFailures : Obligations.ReckonerFailures :=
  ⟨fun _ cause _ ha => ⟨fun hc => reckonerTrap_strikes ha (ownTrap_of_not_fetch hc), reckonerTrap_strikes ha (ownTrap_of_unpoisoned cause)⟩,
    fun _ _ _ ha hw => reckonerTrap_reloads ha hw, fun _ _ _ hw hlong => renderWatchdog_strikes hw hlong,
    fun _ _ _ hstrike hhour => strikeExpiry_clears hstrike hhour, fun _ _ _ h => rkcMittenWrite_releases h⟩

end Sys2Proof.Machine

/-! The orders for Reckoners, heads, axes, heaters and the queue that reach their effect (14, Table 14-3; 03, R78; 11, R272, R273, R281,
R287; 02, R44, R46). -/
namespace Sys2Proof.Machine
set_option exponentiation.threshold 600

/-! ### A request that is taken and done -/

/-- The block once the press protocol has noted a reception. -/
def Dev.withXpp (d : Dev) (y : Xpp) : Dev := { d with xpp := y }

/-- The requests of which nothing is left to do once their order has been answered. -/
def endsAnswered : XppReq → Bool
  | .hold | .restart | .rkRelease _ | .noteResend _ => false
  | _ => true

/-- A request that is taken and whose order succeeds is carried out on the block with the reception noted, and acknowledged. -/
theorem request_done {h : XppHdr} {q : XppReq} {r : Role} {s : State} {f : Dev → Dev} (ht : s.dev.Takes h q r) (hq : endsAnswered q = true)
    (hcarry : ∀ y, (s.dev.withXpp y).carry r ⟨h, q⟩ = (f (s.dev.withXpp y), Done.ok))
    (hup : ∀ d : Dev, (f d).rd .XPP_PEER_UP = d.rd .XPP_PEER_UP) :
    ∃ y, s.request ⟨h, q⟩ = { s with dev := (f (s.dev.withXpp y)).reply r h.seq.toNat Done.ok } ∧
      Acked r h [] s (s.request ⟨h, q⟩) := by
  obtain ⟨y, _, hreq⟩ := takes_req ht (by rintro rfl; cases hq) (by rintro rfl; cases hq) (by rintro m rfl; cases hq)
  have hdone : s.request ⟨h, q⟩ = { s with dev := (f (s.dev.withXpp y)).reply r h.seq.toNat Done.ok } := by
    rw [hreq, carryOut_plain (by rintro n rfl; cases hq)]
    have := hcarry y
    unfold Dev.withXpp at this ⊢
    rw [this]
  refine ⟨y, hdone, ?_⟩
  rw [hdone]
  exact acked_reply (hup (s.dev.withXpp y)) []

/-! ### RK_RELEASE (R78) -/

/-- RK_RELEASE releases the Reckoners of its mask and is acknowledged; then their code is loaded again. -/
theorem rkRelease_request {h : XppHdr} {mask : U16} {r : Role} {s : State} (ht : s.dev.Takes h (.rkRelease mask) r) :
    ∃ y, s.request ⟨h, .rkRelease mask⟩ =
      State.reloadFreed { s with dev := ((s.dev.withXpp y).releaseRk mask.toNat).reply r h.seq.toNat Done.ok } (s.dev.withXpp y) := by
  obtain ⟨y, _, hreq⟩ := takes_form ht
  rw [if_neg (by simp)] at hreq
  exact ⟨y, hreq⟩

theorem Sent.of_out {r : Role} {m : XppMsg} {s t u : State} (h : Sent r m s t) (hout : u.dev.out = t.dev.out) : Sent r m s u := by
  unfold Sent at h ⊢
  rw [hout]
  exact h

theorem rkRelease_gives {h : XppHdr} {mask : U16} {r : Role} {s : State} (ht : s.dev.Takes h (.rkRelease mask) r) :
    Gives (.rkRelease h mask) s fun t =>
      (∀ i, i < 16 → bitOf mask.toNat i = true → s.dev.mittened i = true → t.dev.mittened i = false) ∧ Acked r h [] s t := by
  obtain ⟨y, hreq⟩ := rkRelease_request ht
  refine gives_next (t := s.request ⟨h, .rkRelease mask⟩) rfl ?_
  rw [hreq]
  refine ⟨fun i hi hbit hmit => ?_, ?_⟩
  · rw [reloadFreed_mittened]
    unfold Dev.mittened
    rw [reply_rd _ _ _ _ _ _ _ (by decide)]
    exact release_mit (s.dev.withXpp y) mask.toNat i hi hbit hmit
  · have hup := (Dev.releaseRk_only (s.dev.withXpp y) mask.toNat).rd .XPP_PEER_UP 0 0 rfl
    exact Sent.of_out (acked_reply (s := s) hup []) ((State.reloadFreed_only _ _).dev.parts .out rfl)

/-! ### HEAD_CLEAR (R287) -/

/-- Each head of the mask is cleared. -/
theorem orderHeadClear_clears (d : Dev) {mask i : Nat} (hi : i < 64) (hbit : bitOf mask i = true) :
    (d.orderHeadClear mask).1.flag .HT_STAT_PLAUS i = false := by
  refine fold_all _ Dev.clearPlaus (fun d i => d.flag .HT_STAT_PLAUS i = false) (fun d x => clearPlaus_self d x) (fun d x k hk => ?_) d i
    (Or.inl (List.mem_filter.2 ⟨List.mem_range.2 hi, hbit⟩))
  by_cases hkx : k = x
  · exact hkx ▸ clearPlaus_self d x
  · unfold Dev.flag at hk ⊢
    rw [clearPlaus_other d x k hkx, hk]

/-- A head outside the mask is left alone. -/
theorem orderHeadClear_keeps (d : Dev) {mask i : Nat} (hbit : bitOf mask i = false) :
    (d.orderHeadClear mask).1.rd .HT_STAT_PLAUS i = d.rd .HT_STAT_PLAUS i := by
  refine fold_keep _ Dev.clearPlaus (fun d => d.rd .HT_STAT_PLAUS i) (fun d x hx => clearPlaus_other d x i ?_) d
  rintro rfl
  exact Bool.false_ne_true (hbit.symm.trans (List.mem_filter.1 hx).2)

theorem headClear_gives {h : XppHdr} {mask : U64} {r : Role} {s : State} (ht : s.dev.Takes h (.headClear mask) r) :
    Gives (.headClear h mask) s fun t =>
      (∀ i, i < 64 → bitOf mask.toNat i = true → t.dev.flag .HT_STAT_PLAUS i = false) ∧
        (∀ i, bitOf mask.toNat i = false → t.dev.rd .HT_STAT_PLAUS i = s.dev.rd .HT_STAT_PLAUS i) ∧ Acked r h [] s t := by
  obtain ⟨y, hreq, hack⟩ := request_done (f := fun d => (d.orderHeadClear mask.toNat).1) ht rfl
    (fun _ => rfl) (fun d => up_of_only (Dev.orderHeadClear_only d _) rfl)
  refine gives_next (t := s.request ⟨h, .headClear mask⟩) rfl ⟨fun i hi hbit => ?_, fun i hbit => ?_, hack⟩
  · rw [hreq]
    unfold Dev.flag
    rw [reply_rd _ _ _ _ _ _ _ (by decide)]
    exact orderHeadClear_clears _ hi hbit
  · rw [hreq, reply_rd _ _ _ _ _ _ _ (by decide)]
    exact orderHeadClear_keeps _ hbit

/-! ### AXIS_TARGET (R273), AXIS_HOME (R272) -/

/-- An axis without a move group takes its target at once. -/
theorem orderTarget_ungrouped {d : Dev} {a : Nat} (t : Int) (hacc : d.axAccepts a true = true) (hg : d.groupOf a = none) :
    d.orderTarget a t = (d.axTarget a t true, .ok) := by
  unfold Dev.orderTarget
  rw [if_neg (by rw [hacc]; decide), hg]

theorem axisTarget_gives {h : XppHdr} {a : Byte} {tgt : U32} {r : Role} {s : State} (ht : s.dev.Takes h (.axisTarget a tgt) r)
    (hacc : s.dev.axAccepts a.toNat true = true) (hg : s.dev.groupOf a.toNat = none) :
    Gives (.axisTarget h a tgt) s fun t => t.dev.rd .AX_TGT_POS a.toNat = tgt.toNat ∧ Acked r h [] s t := by
  obtain ⟨y, hreq, hack⟩ := request_done (f := fun d => d.axTarget a.toNat tgt.toInt true) ht rfl
    (fun y => orderTarget_ungrouped (d := s.dev.withXpp y) tgt.toInt hacc hg) (fun d => up_of_only (Dev.axTarget_only d _ _ _) rfl)
  refine gives_next (t := s.request ⟨h, .axisTarget a tgt⟩) rfl ⟨?_, hack⟩
  rw [hreq, reply_rd _ _ _ _ _ _ _ (by decide)]
  exact axTarget_pos _ a.toNat tgt true

theorem orderHome_begins {d : Dev} {a : Nat} (hidle : d.homing a = false) (hmay : d.mayHome a = true) : d.orderHome a = (d.axHome a, .ok) := by
  unfold Dev.orderHome
  rw [if_neg (by rw [hidle]; decide), if_pos hmay]

theorem axisHome_gives {h : XppHdr} {a : Byte} {r : Role} {s : State} (ht : s.dev.Takes h (.axisHome a) r)
    (hidle : s.dev.homing a.toNat = false) (hmay : s.dev.mayHome a.toNat = true) :
    Gives (.axisHome h a) s fun t => t.dev.homing a.toNat = true ∧ Acked r h [] s t := by
  obtain ⟨y, hreq, hack⟩ := request_done (f := fun d => d.axHome a.toNat) ht rfl
    (fun y => orderHome_begins (d := s.dev.withXpp y) hidle hmay) (fun d => up_of_only (Dev.axHome_only d _) rfl)
  refine gives_next (t := s.request ⟨h, .axisHome a⟩) rfl ⟨?_, hack⟩
  rw [hreq]
  exact (homing_rd _ (reply_rd _ _ _ _ _ _ _ (by decide))).trans (axHome_homing _ a.toNat hmay)

/-! ### HEAT_SET (R281) -/

theorem orderHeat_sp (d : Dev) (k sp en i : Nat) :
    (d.orderHeat k sp en).1.rd .HT_SP_SP i = if i = k then sp % 2 ^ (fldSpec .HT_SP_SP).width else d.rd .HT_SP_SP i := by
  simp [Dev.orderHeat]

theorem orderHeat_en (d : Dev) (k sp en i : Nat) :
    (d.orderHeat k sp en).1.rd .HT_CFG_EN i = if i = k then en % 2 ^ (fldSpec .HT_CFG_EN).width else d.rd .HT_CFG_EN i := by
  simp [Dev.orderHeat]

theorem heatSet_gives {h : XppHdr} {slot : Byte} {sp : U16} {en : Byte} {r : Role} {s : State} (ht : s.dev.Takes h (.heatSet slot sp en) r) :
    Gives (.heatSet h slot sp en) s fun t =>
      t.dev.rd .HT_SP_SP slot.toNat = sp.toNat % 2 ^ (fldSpec .HT_SP_SP).width ∧ t.dev.rd .HT_CFG_EN slot.toNat = en.toNat ∧
        (∀ i, i ≠ slot.toNat → t.dev.rd .HT_SP_SP i = s.dev.rd .HT_SP_SP i ∧ t.dev.rd .HT_CFG_EN i = s.dev.rd .HT_CFG_EN i) ∧
        Acked r h [] s t := by
  have hen : en.toNat < 2 ^ (fldSpec .HT_CFG_EN).width := by
    obtain ⟨_, href, _, _⟩ := ht
    obtain ⟨_, _, _, hrange⟩ := refusal_none href
    exact Nat.lt_succ_of_le (of_decide_eq_true (Bool.and_eq_true_iff.1 hrange).2)
  obtain ⟨y, hreq, hack⟩ := request_done (f := fun d => (d.orderHeat slot.toNat sp.toNat en.toNat).1) ht rfl
    (fun _ => rfl) (fun d => up_of_only (Dev.orderHeat_only d _ _ _) rfl)
  have hsp : ∀ i, (s.request ⟨h, .heatSet slot sp en⟩).dev.rd .HT_SP_SP i =
      if i = slot.toNat then sp.toNat % 2 ^ (fldSpec .HT_SP_SP).width else s.dev.rd .HT_SP_SP i := fun i => by
    rw [hreq, reply_rd _ _ _ _ _ _ _ (by decide)]
    exact orderHeat_sp (s.dev.withXpp y) _ _ _ i
  have hcfg : ∀ i, (s.request ⟨h, .heatSet slot sp en⟩).dev.rd .HT_CFG_EN i =
      if i = slot.toNat then en.toNat % 2 ^ (fldSpec .HT_CFG_EN).width else s.dev.rd .HT_CFG_EN i := fun i => by
    rw [hreq, reply_rd _ _ _ _ _ _ _ (by decide)]
    exact orderHeat_en (s.dev.withXpp y) _ _ _ i
  refine gives_next (t := s.request ⟨h, .heatSet slot sp en⟩) rfl ⟨?_, ?_, fun i hi => ⟨?_, ?_⟩, hack⟩
  · exact (hsp _).trans (if_pos rfl)
  · exact ((hcfg _).trans (if_pos rfl)).trans (Nat.mod_eq_of_lt hen)
  · exact (hsp i).trans (if_neg hi)
  · exact (hcfg i).trans (if_neg hi)

/-! ### Jobs that leave the store, and none that join it -/

/-- Every job held is one of a list. -/
def JobsWithin (l : List Job) (d : Dev) : Prop := d.jobs ⊆ l

theorem JobsWithin.of {l : List Job} {c r : Nat} {d e : Dev} (h : JobsWithin l d) (ho : Dev.Only c r d e)
    (hc : c.testBit (Part.ctorIdx .jobs) = false) : JobsWithin l e := by
  unfold JobsWithin
  rw [ho.parts .jobs hc]
  exact h

/-- Ending the job of a JN changes none of the others. -/
theorem JobsWithin.endJob {l : List Job} {d : Dev} (h : JobsWithin l d) (n : Nat) (st : JobState) (reason : Nat) :
    JobsWithin l (d.endJob n st reason) := by
  intro j hj
  rw [endJob_jobs] at hj
  obtain ⟨hmem, hne⟩ := List.mem_filter.1 hj
  have hne : j.jn ≠ n := by simpa using hne
  obtain ⟨x, hx, rfl⟩ := List.mem_map.1 hmem
  obtain ⟨z, hz, rfl⟩ := List.mem_map.1 hx
  by_cases hzn : z.jn = n
  · simp [hzn] at hne
  · simpa [hzn] using h hz

theorem JobsWithin.maybeDone {l : List Job} {d : Dev} (h : JobsWithin l d) (n : Nat) : JobsWithin l (d.maybeDone n) := by
  unfold Dev.maybeDone
  split
  · dsimp only
    split
    · split
      · exact h.endJob _ _ _
      · split
        · exact h
        · exact h.endJob _ _ _
    · exact h
  · exact h

theorem JobsWithin.freeEntries {l : List Job} {d : Dev} (h : JobsWithin l d) : JobsWithin l d.freeEntries := by
  unfold Dev.freeEntries
  refine List.foldlRecOn _ _ (h.of (Dev.retireSent_only d) rfl) fun e he p _ => ?_
  split
  · exact JobsWithin.maybeDone (show JobsWithin l { (e.wr .FIRE_PL_ORGH_VALID 0 p.e) with fire := _ } from he) p.jn
  · exact he

theorem JobsWithin.dropLines {l : List Job} {d : Dev} (h : JobsWithin l d) (n lo hi : Nat) : JobsWithin l (d.dropLines n lo hi) := by
  unfold Dev.dropLines
  refine JobsWithin.freeEntries (JobsWithin.of ?_ (Dev.passLines_only _ n lo hi) rfl)
  exact h

/-! ### JOB_CANCEL (R46) -/

theorem mem_of_job {d : Dev} {n : Nat} {k : Job} (h : d.job n = some k) : k ∈ d.jobs ∧ k.jn = n :=
  ⟨List.mem_of_find?_eq_some h, by simpa using List.find?_some h⟩

/-- A job aborted: nothing of it is rendered any more. -/
def Job.abort (j : Job) : Job := { j with aborted := true, limit := some 0 }

/-- A job marked to finish. -/
def Job.finish (j : Job) : Job := { j with finishing := true }

/-- A job that its cancel has aborted renders nothing any more. -/
theorem abortJob_aborted {d : Dev} {n started : Nat} {k : Job} (h : (d.abortJob n started).job n = some k) :
    k.aborted = true ∧ k.limit = some 0 := by
  obtain ⟨hmem, hjn⟩ := mem_of_job h
  unfold Dev.abortJob at hmem
  dsimp only at hmem
  generalize Dev.purge _ n = e at hmem
  have hmarked : JobsWithin (e.updJob n Job.abort).jobs (e.updJob n Job.abort) := List.Subset.refl _
  have hwithin : JobsWithin (e.updJob n Job.abort).jobs
      (((((e.updJob n Job.abort).skipJob n).dropLines n 0 (2 ^ 32)).dropHeld n).maybeDone n) :=
    (((hmarked.of (Dev.skipJob_only _ n) rfl).dropLines n 0 (2 ^ 32)).of (Dev.dropHeld_only _ n) rfl).maybeDone n
  obtain ⟨x, -, rfl⟩ := List.mem_map.1 (hwithin hmem)
  by_cases hx : x.jn = n
  · rw [if_pos hx]
    exact ⟨rfl, rfl⟩
  · rw [if_neg hx] at hjn
    exact absurd hjn hx

/-- The block after the cancel of an ACTIVE job that no cancel has reached yet: FINISH marks the job first. -/
def Dev.cancelActive (d : Dev) (n : Nat) (abort : Bool) : Dev := (if abort then d else d.updJob n Job.finish).cancelJob n abort

theorem cancelActive_up (d : Dev) (n : Nat) (abort : Bool) : (d.cancelActive n abort).rd .XPP_PEER_UP = d.rd .XPP_PEER_UP := by
  unfold Dev.cancelActive
  rw [up_of_only (Dev.cancelJob_only _ n abort) rfl]
  cases abort <;> rfl

/-- A job that cancel FINISH leaves in the store is finishing. -/
theorem cancelActive_finishing {d : Dev} {n : Nat} {j k : Job} (hj : d.job n = some j) (hst : j.st = .active)
    (h : (d.cancelActive n false).job n = some k) : k.finishing = true := by
  have hmarked : JobsAll (fun m f => m = n → f = true) (d.updJob n Job.finish) := by
    intro x hx hxn
    obtain ⟨z, -, rfl⟩ := List.mem_map.1 hx
    by_cases hz : z.jn = n
    · rw [if_pos hz]
      rfl
    · rw [if_neg hz] at hxn
      exact absurd hxn hz
  obtain ⟨hmem, hjn⟩ := mem_of_job h
  exact cancel_finish (updJob_find d n Job.finish (fun _ => rfl) j hj) hst hmarked k hmem hjn

/-- A job that cancel ABORT leaves in the store renders nothing any more. -/
theorem cancelActive_aborted {d : Dev} {n : Nat} {j k : Job} (hj : d.job n = some j) (hst : j.st = .active)
    (h : (d.cancelActive n true).job n = some k) : k.aborted = true ∧ k.limit = some 0 := by
  have habort : d.cancelActive n true = d.abortJob n j.started := cancel_abort hj hst
  rw [habort] at h
  exact abortJob_aborted h

theorem orderCancel_waiting {d : Dev} {n : Nat} {j : Job} (hj : d.job n = some j) (hst : j.st = .loaded ∨ j.st = .placed) (abort : Bool) :
    d.orderCancel n abort = (d.cancelJob n abort, .ok) := by
  unfold Dev.orderCancel
  rw [hj]
  dsimp only
  rcases hst with hst | hst <;> rw [hst]

theorem orderCancel_active {d : Dev} {n : Nat} {j : Job} (hj : d.job n = some j) (hst : j.st = .active) (hf : j.finishing = false)
    (ha : j.aborted = false) (abort : Bool) :
    d.orderCancel n abort = (d.cancelActive n abort, .ok) := by
  unfold Dev.orderCancel
  rw [hj]
  dsimp only
  rw [hst, hf, ha]
  rfl

section
variable {h : XppHdr} {jn : U32} {mode : Byte} {j : Job} {r : Role} {s : State} (ht : s.dev.Takes h (.jobCancel jn mode) r)
  (hj : s.dev.job jn.toNat = some j)
include ht hj

/-- A cancel of a LOADED or PLACED job ends it at once. -/
theorem jobCancel_waiting (hst : j.st = .loaded ∨ j.st = .placed) :
    (s.request ⟨h, .jobCancel jn mode⟩).dev.job jn.toNat = none ∧ Acked r h [] s (s.request ⟨h, .jobCancel jn mode⟩) := by
  obtain ⟨y, hreq, hack⟩ := request_done (f := fun d => d.cancelJob jn.toNat (decide (mode.toNat = 1))) ht rfl
    (fun y => orderCancel_waiting (d := s.dev.withXpp y) hj hst _) (fun d => up_of_only (Dev.cancelJob_only d _ _) rfl)
  refine ⟨?_, hack⟩
  rw [hreq]
  exact (reply_job _ _ _ _ _).trans (cancel_loaded (d := s.dev.withXpp y) hj hst _)

/-- A cancel of an ACTIVE job that no cancel has reached yet. -/
theorem jobCancel_active (hst : j.st = .active) (hf : j.finishing = false) (ha : j.aborted = false) :
    ∃ y, (s.request ⟨h, .jobCancel jn mode⟩).dev.job jn.toNat =
        ((s.dev.withXpp y).cancelActive jn.toNat (decide (mode.toNat = 1))).job jn.toNat ∧
      Acked r h [] s (s.request ⟨h, .jobCancel jn mode⟩) := by
  obtain ⟨y, hreq, hack⟩ := request_done (f := fun d => d.cancelActive jn.toNat (decide (mode.toNat = 1))) ht rfl
    (fun y => orderCancel_active (d := s.dev.withXpp y) hj hst hf ha _) (fun d => cancelActive_up d _ _)
  refine ⟨y, ?_, hack⟩
  rw [hreq]
  exact reply_job _ _ _ _ _

end

theorem jobCancelFinish_gives {h : XppHdr} {jn : U32} {j : Job} {r : Role} {s : State} (ht : s.dev.Takes h (.jobCancel jn 0) r)
    (hj : s.dev.job jn.toNat = some j) :
    Gives (.jobCancelFinish h jn) s fun t =>
      (j.st = .loaded ∨ j.st = .placed → t.dev.job jn.toNat = none ∧ Acked r h [] s t) ∧
      (j.st = .active → j.finishing = false → j.aborted = false →
        (∀ k, t.dev.job jn.toNat = some k → k.finishing = true) ∧ Acked r h [] s t) := by
  refine gives_next (t := s.request ⟨h, .jobCancel jn 0⟩) rfl ⟨jobCancel_waiting ht hj, fun hst hf ha => ?_⟩
  obtain ⟨y, hjob, hack⟩ := jobCancel_active ht hj hst hf ha
  exact ⟨fun k hk => cancelActive_finishing (d := s.dev.withXpp y) hj hst (hjob.symm.trans hk), hack⟩

theorem jobCancelAbort_gives {h : XppHdr} {jn : U32} {j : Job} {r : Role} {s : State} (ht : s.dev.Takes h (.jobCancel jn 1) r)
    (hj : s.dev.job jn.toNat = some j) :
    Gives (.jobCancelAbort h jn) s fun t =>
      (j.st = .loaded ∨ j.st = .placed → t.dev.job jn.toNat = none ∧ Acked r h [] s t) ∧
      (j.st = .active → j.finishing = false → j.aborted = false →
        (∀ k, t.dev.job jn.toNat = some k → k.aborted = true ∧ k.limit = some 0) ∧ Acked r h [] s t) := by
  refine gives_next (t := s.request ⟨h, .jobCancel jn 1⟩) rfl ⟨jobCancel_waiting ht hj, fun hst hf ha => ?_⟩
  obtain ⟨y, hjob, hack⟩ := jobCancel_active ht hj hst hf ha
  exact ⟨fun k hk => cancelActive_aborted (d := s.dev.withXpp y) hj hst (hjob.symm.trans hk), hack⟩

/-! ### QUEUE_ORDER (R44) -/

theorem queueOrder_gives {h : XppHdr} {jns : List U32} {r : Role} {s : State} (ht : s.dev.Takes h (.queueOrder jns) r)
    (hnodup : (jns.map (·.toNat)).Nodup) (hall : ∀ n, n ∈ jns.map (·.toNat) ↔ ∃ j ∈ s.dev.jobs, j.st = .loaded ∧ j.jn = n)
    (hjobs : (s.dev.jobs.map (·.jn)).Nodup) :
    Gives (.queueOrder h jns) s fun t => t.dev.loaded.map (·.jn) = jns.map (·.toNat) ∧ Acked r h [] s t := by
  obtain ⟨y, hreq, hack⟩ := request_done
    (f := fun d => { d with jobs := d.jobs.filter (fun j => j.st != .loaded) ++ (jns.map (·.toNat)).filterMap d.job }) ht rfl
    (fun y => queue_eq (s.dev.withXpp y) _ hjobs hnodup hall) (fun _ => rfl)
  refine gives_next (t := s.request ⟨h, .queueOrder jns⟩) rfl ⟨?_, hack⟩
  rw [hreq]
  unfold Dev.loaded
  rw [reply_jobs]
  exact queue_loaded s.dev _ hjobs hall

/-- Settles O18: each order that is taken, one lemma per order. -/
theorem pressOrdersTakeEffect : Obligations.PressOrdersTakeEffect :=
  ⟨fun _ _ _ _ ht => rkRelease_gives ht, fun _ _ _ _ ht => headClear_gives ht, fun _ _ _ _ _ ht hacc hg => axisTarget_gives ht hacc hg,
    fun _ _ _ _ ht hidle hmay => axisHome_gives ht hidle hmay, fun _ _ _ _ _ _ ht => heatSet_gives ht,
    fun _ _ _ _ _ ht hj => jobCancelFinish_gives ht hj, fun _ _ _ _ _ ht hj => jobCancelAbort_gives ht hj,
    fun _ _ _ _ ht hnodup hall hjobs => queueOrder_gives ht hnodup hall hjobs⟩

end Sys2Proof.Machine

/-! Where the runway, the release of rods, the second pass, the scrubber and register writes store (04, R109; 05; 13, R314; 16, R381). -/
namespace Sys2Proof.Machine
set_option exponentiation.threshold 600

/-! ### Slots keep their descriptors -/

/-- Every slot of pipeline i in a block has the descriptor of one of its slots in a block before. -/
def Dev.SlotsFrom (i : Nat) (d e : Dev) : Prop := ∀ y ∈ (e.rw i).slots, ∃ x ∈ (d.rw i).slots, x.desc = y.desc

theorem Dev.SlotsFrom.refl (i : Nat) (d : Dev) : Dev.SlotsFrom i d d := fun y hy => ⟨y, hy, rfl⟩

theorem Dev.SlotsFrom.trans {i : Nat} {d e f : Dev} (h : Dev.SlotsFrom i d e) (k : Dev.SlotsFrom i e f) : Dev.SlotsFrom i d f := by
  intro z hz
  obtain ⟨y, hy, hyz⟩ := k z hz
  obtain ⟨x, hx, hxy⟩ := h y hy
  exact ⟨x, hx, hxy.trans hyz⟩

theorem Dev.SlotsFrom.of_slots {i : Nat} {d e : Dev} (h : (e.rw i).slots = (d.rw i).slots) : Dev.SlotsFrom i d e :=
  fun y hy => ⟨y, h ▸ hy, rfl⟩

theorem Dev.SlotsFrom.of_rwy {i : Nat} {d e : Dev} (h : e.rwy = d.rwy) : Dev.SlotsFrom i d e := .of_slots (congrArg _ (rw_congr h i))

theorem mem_putSlot {d : Dev} {i : Nat} {x y : RSlot} (h : y ∈ ((d.putSlot i x).rw i).slots) : y = x ∨ y ∈ (d.rw i).slots := by
  unfold Dev.putSlot at h
  rw [updRw_rw] at h
  obtain ⟨z, hz, rfl⟩ := List.mem_map.1 h
  split
  · exact Or.inl rfl
  · exact Or.inr hz

/-- A slot put in the place of another keeps the descriptors where its own is among them. -/
theorem putSlot_slotsFrom {d : Dev} {i : Nat} {x : RSlot} (hx : ∃ z ∈ (d.rw i).slots, z.desc = x.desc) : Dev.SlotsFrom i d (d.putSlot i x) := by
  intro y hy
  rcases mem_putSlot hy with rfl | hy
  · exact hx
  · exact ⟨y, hy, rfl⟩

theorem mem_of_mem_dropRetired {l : List RSlot} {q : Nat} {y : RSlot} (h : y ∈ (dropRetired l q).1) : y ∈ l := by
  induction l generalizing q with
  | nil => exact h
  | cons x l ih =>
    unfold dropRetired at h
    split at h
    · exact List.mem_cons_of_mem _ (ih h)
    · exact h

theorem retire_slotsFrom {s : State} {i : Nat} {x : RSlot} (hx : x ∈ (s.dev.rw i).slots) : Dev.SlotsFrom i s.dev (s.retire i x).dev := by
  intro y hy
  rw [(retire_eq s i x).1] at hy
  obtain ⟨z, hz, rfl⟩ := List.mem_map.1 (mem_of_mem_dropRetired hy)
  split
  · exact ⟨x, hx, rfl⟩
  · exact ⟨z, hz, rfl⟩

/-- A stop of the compressor changes the runway as far as it marks the slot. -/
theorem stopXdc_rwy (d : Dev) (i : Nat) (x : RSlot) (stream : List Byte) (avail : Nat) :
    (d.stopXdc i x stream avail).rwy = (d.putSlot i { x with st := .stopped, stops := x.stops + 1, clen := 0 }).rwy := by
  unfold Dev.stopXdc
  dsimp only
  split
  · rw [Dev.raise_rwy, Dev.raise_rwy]; rfl
  · rw [Dev.raise_rwy]; rfl

/-- What follows a slot that is put into its place READY leaves the slots of the runway as they are. -/
theorem slotComplete_slots (g : Dev) (i a b c e r : Nat) (irq : Bool) :
    ((((((((g.updRw i (fun x => { x with band := none, tries := 0, bad := false })).wr .RW_XOUT_BYTES a i).wr .RW_XIN_BYTES b i).countRatio b c).wr
      .DMA_RHEAD_IDX e r).ringIrq r irq).refreshLead).rw i).slots = (g.rw i).slots := by
  rw [rw_congr ((Dev.refreshLead_only _).parts .rwy rfl), rw_congr ((Dev.ringIrq_only _ _ _).parts .rwy rfl), wr_rw,
    rw_congr ((Dev.countRatio_only _ _ _).parts .rwy rfl), wr_rw, wr_rw, updRw_rw]

theorem slotComplete_slotsFrom {s : State} {i : Nat} {x : RSlot} (bytes : List Byte) (hx : ∃ z ∈ (s.dev.rw i).slots, z.desc = x.desc) :
    Dev.SlotsFrom i s.dev (s.slotComplete i x bytes).dev := by
  unfold State.slotComplete
  dsimp only
  generalize hw : State.dramWrite _ _ _ = u
  have hu : u.dev.rwy = s.dev.rwy := hw ▸ (State.dramWrite_only _ _ _ _).dev.parts .rwy rfl
  have hslots := (setWrite_slots u.dev i (x.page, x.ofs) bytes.length).trans (congrArg _ (rw_congr hu i))
  generalize u.dev.setWrite i (x.page, x.ofs) bytes.length = v at hslots ⊢
  have hput : Dev.SlotsFrom i v (v.putSlot i { x with st := .ready, stream := none }) := putSlot_slotsFrom (by rwa [hslots])
  generalize v.putSlot i _ = g at hput ⊢
  exact (Dev.SlotsFrom.of_slots hslots).trans (hput.trans (.of_slots (slotComplete_slots g i _ _ _ _ _ _)))

theorem slotWritten_slotsFrom {w : State × Option Nat} {i : Nat} {x : RSlot} (stream : List Byte) (avail : Nat)
    (hx : ∃ z ∈ (w.1.dev.rw i).slots, z.desc = x.desc) : Dev.SlotsFrom i w.1.dev (State.slotWritten w i x stream avail).dev := by
  obtain ⟨u, met⟩ := w
  unfold State.slotWritten
  dsimp only at hx ⊢
  cases met with
  | some p =>
    dsimp only
    have hput : Dev.SlotsFrom i u.dev (u.dev.putSlot i { x with clen := 0 }) := putSlot_slotsFrom hx
    generalize u.dev.putSlot i _ = d at hput ⊢
    exact hput.trans (.of_rwy ((State.pageBad_only _ _ _ _).dev.parts .rwy rfl))
  | none =>
    dsimp only
    split
    · have hslots := setWrite_slots u.dev i (x.page, x.ofs) avail
      generalize u.dev.setWrite i (x.page, x.ofs) avail = d at hslots ⊢
      refine (Dev.SlotsFrom.of_slots hslots).trans (.trans (putSlot_slotsFrom ?_) (.of_rwy (stopXdc_rwy d i x stream avail)))
      rwa [hslots]
    · exact slotComplete_slotsFrom _ hx

/-- A slot is stored in two steps: its bytes are written, which leaves the runway's record alone, and what they came to is noted. -/
theorem slotStore_steps (s : State) (i : Nat) (x : RSlot) (stream : List Byte) :
    ∃ y w avail, y.desc = x.desc ∧ w.1.dev.rwy = s.dev.rwy ∧ s.slotStore i x stream = State.slotWritten w i y stream avail :=
  ⟨{ x with clen := stream.length, stream := some stream }, _, _, rfl, (State.slotWrite_only _ _ _ _ _ _ _).dev.parts .rwy rfl, rfl⟩

theorem slotStore_slotsFrom {s : State} {i : Nat} {x : RSlot} (stream : List Byte) (hx : ∃ z ∈ (s.dev.rw i).slots, z.desc = x.desc) :
    Dev.SlotsFrom i s.dev (s.slotStore i x stream).dev := by
  obtain ⟨y, w, avail, hdesc, hrwy, hstore⟩ := slotStore_steps s i x stream
  rw [hstore]
  refine (Dev.SlotsFrom.of_rwy hrwy).trans (slotWritten_slotsFrom stream avail ?_)
  rwa [rw_congr hrwy, hdesc]

/-- The open slot's bytes go out with the slots keeping their descriptors (R121, R122). -/
theorem slotReady_slotsFrom (s : State) (i : Nat) (streams : List XdcStream) : Dev.SlotsFrom i s.dev (s.slotReady i streams).dev := by
  unfold State.slotReady
  split
  · exact .refl _ _
  · next x hx =>
    have hmem : x ∈ (s.dev.rw i).slots := List.mem_of_find?_eq_some hx
    split
    · exact .refl _ _
    · split
      · exact slotStore_slotsFrom _ ⟨x, hmem, rfl⟩
      · dsimp only
        have hslot := compress_slot s.dev i x streams
        have honly := (Dev.compress_only s.dev i x streams).parts .rwy rfl
        generalize s.dev.compress i x streams = q at hslot honly ⊢
        obtain ⟨y, stream, d⟩ := q
        refine (Dev.SlotsFrom.of_rwy honly).trans (slotStore_slotsFrom (s := { s with dev := d }) stream ⟨x, ?_, hslot.2.symm⟩)
        rwa [show State.dev { s with dev := d } = d from rfl, rw_congr honly]

/-- What the output stage passes on is no slot of the runway. -/
theorem slotRead_slotsFrom (s : State) (i : Nat) (k : SlotChecks) : Dev.SlotsFrom i s.dev (s.slotRead i k).dev := by
  unfold State.slotRead
  split
  · exact .refl _ _
  · next x rest hx =>
    have hmem : x ∈ (s.dev.rw i).slots := hx ▸ List.mem_cons_self ..
    dsimp only
    split
    · exact .refl _ _
    · split
      · exact retire_slotsFrom hmem
      · split
        · exact .refl _ _
        · generalize hpass : Dev.forEach _ _ _ = d
          have hrwy : d.rwy = s.dev.rwy := by
            rw [← hpass, (forEach_only (List.range x.count) _ _ (fun d l => Dev.passLine_only d i x (s.readSlot i x k) l)).parts .rwy rfl]
            split
            · exact Dev.raise_rwy _ _ _
            · rfl
          refine (Dev.SlotsFrom.of_rwy hrwy).trans (retire_slotsFrom (s := { s with dev := d }) ?_)
          rwa [show State.dev { s with dev := d } = d from rfl, rw_congr hrwy]


/-! ### The stores of each command -/

/-- An update of the block stores nothing. -/
theorem KeepsOutside.act {P : Nat → Prop} {s u t : State} {f : Dev → Dev} (h : KeepsOutside P s u) (ht : u.act f = .next t) : KeepsOutside P s t :=
  h.trans (.refl _ _ _ (act_mem u f ht))

theorem plTailWrite_keeps {lvl : Lvl} {i : Pipe} {idx : BitVec 19} {pages : List U32} {s t : State}
    (h : exec (.plTailWrite lvl i idx pages) s = .next t) :
    KeepsOutside (fun k => ∃ n, n < pages.length ∧ InBytes (s.dev.plAddr i.val (s.dev.rd .RW_PL_TAIL_IDX i.val + n)) 4 k) s t := by
  change execPlTailWrite lvl i idx pages s = .next t at h
  unfold execPlTailWrite at h
  split at h
  · cases next_inj h
    exact .refl _ _ _ rfl
  · dsimp only at h
    refine KeepsOutside.act ?_ h
    split
    · exact plWrite_keeps i.val pages s _
    · exact .refl _ _ _ rfl

theorem slotReady_stores (s : State) (i : Nat) (streams : List XdcStream) :
    Stores (fun u k => ∃ x, s.dev.openSlot i = some x ∧
      (InPages s.dev.poolCount i x.page u k ∨ InBytes (s.dev.descAddr (rq i) x.desc) 32 k)) s (s.slotReady i streams) := by
  unfold State.slotReady
  split
  · exact Stores.refl _ _
  · next x hx =>
    split
    · exact Stores.refl _ _
    · split
      · exact (slotStore_stores s i x _).mono fun u k hk => ⟨x, hx, hk⟩
      · dsimp only
        obtain ⟨hpage, hdesc⟩ := compress_slot s.dev i x streams
        have honly := Dev.compress_only s.dev i x streams
        generalize s.dev.compress i x streams = q at hpage hdesc honly ⊢
        obtain ⟨y, stream, d⟩ := q
        dsimp only at hpage hdesc honly ⊢
        have hplace := place_of honly (by decide)
        have hpool : d.poolCount = s.dev.poolCount := by
          unfold Dev.poolCount Dev.isA32
          rw [show d.variant = s.dev.variant from honly.parts .variant rfl]
        refine (stores_mk d hplace).trans ((slotStore_stores ⟨d, s.dram, s.pending⟩ i y stream).mono fun u k hk => ⟨x, hx, ?_⟩)
        rw [hpage, hdesc] at hk
        rwa [← hpool, ← descAddr_congr hplace]

/-- A skip that is armed stores to the descriptors that the slots had before the command. -/
theorem skipStep_keeps_from {s u : State} {i : Nat} (hslots : Dev.SlotsFrom i s.dev u.dev)
    (hplace : ∀ f ∈ placeFields, ∀ j, u.dev.rd f j = s.dev.rd f j) :
    KeepsOutside (fun k => ∃ x ∈ (s.dev.rw i).slots, InBytes (s.dev.descAddr (rq i) x.desc) 4 k) u (u.skipStep i) := by
  refine (skipStep_keeps u i).mono ?_
  rintro k ⟨y, hy, hk⟩
  obtain ⟨x, hx, hdesc⟩ := hslots y hy
  rw [descAddr_congr hplace, ← hdesc] at hk
  exact ⟨x, hx, hk⟩

theorem execSlotReady_stores {i : Pipe} {streams : List XdcStream} {s t : State} (h : exec (.slotReady i streams) s = .next t) :
    Stores (fun u k => (∃ x, s.dev.openSlot i.val = some x ∧
        (InPages s.dev.poolCount i.val x.page u k ∨ InBytes (s.dev.descAddr (rq i.val) x.desc) 32 k)) ∨
      ∃ y ∈ (s.dev.rw i.val).slots, InBytes (s.dev.descAddr (rq i.val) y.desc) 4 k) s t := by
  cases next_inj h
  have hskip := skipStep_keeps_from (slotReady_slotsFrom s i.val streams) (place_of (State.slotReady_only s i.val streams).dev (by decide))
  exact ((slotReady_stores s i.val streams).mono fun u k hk => Or.inl hk).trans
    (Stores.one (hskip.mono fun k hk => Or.inr hk) (place_of (State.skipStep_only _ _).dev (by decide)))

theorem slotReadStart_keeps {i : Pipe} {checks : SlotChecks} {s t : State} (h : exec (.slotReadStart i checks) s = .next t) :
    KeepsOutside (fun k => ∃ x ∈ (s.dev.rw i.val).slots, InBytes (s.dev.descAddr (rq i.val) x.desc) 4 k) s t := by
  cases next_inj h
  have hread : KeepsOutside (fun k => ∃ x ∈ (s.dev.rw i.val).slots, InBytes (s.dev.descAddr (rq i.val) x.desc) 4 k) s (s.slotRead i.val checks) := by
    refine (slotRead_keeps s i.val checks).mono ?_
    rintro k ⟨x, rest, hx, hk⟩
    exact ⟨x, hx ▸ List.mem_cons_self .., hk⟩
  exact hread.trans (skipStep_keeps_from (slotRead_slotsFrom s i.val checks) (place_of (State.slotRead_only s i.val checks).dev (by decide)))

theorem skipArm_keeps {lvl : Lvl} {i : Pipe} {s t : State} (h : exec (.skipArm lvl i) s = .next t) :
    KeepsOutside (fun k => ∃ x ∈ (s.dev.rw i.val).slots, InBytes (s.dev.descAddr (rq i.val) x.desc) 4 k) s t := by
  change execSkipArm lvl i s = .next t at h
  unfold execSkipArm at h
  dsimp only at h
  split at h
  · cases next_inj h
    exact skip_keeps s i.val
  · exact KeepsOutside.act (.refl _ _ _ rfl) h

/-- The address of a rod in the master copy follows `DP_RODM` and `DP_GEOM` alone (R106). -/
theorem rodAddr_of_only {c r : Nat} {d e : Dev} (h : Dev.Only c r d e) (hr : r &&& fieldsMask rmwFields = r) (i n : Nat) :
    e.rodAddr i (4096 * e.rd .DP_GEOM_SLOT0 i + n) = d.rodAddr i (4096 * d.rd .DP_GEOM_SLOT0 i + n) := by
  unfold Dev.rodAddr
  rw [h.keep rmwFields hr (by decide), h.keep rmwFields hr (by decide)]

/-- The words of retained entries go to their places in the master copy, whatever follows them. -/
theorem storeRods_fold_keeps (i : Nat) (es : List (Nat × Nat)) : ∀ s : State,
    KeepsOutside (fun k => ∃ e ∈ es, InBytes (s.dev.rodAddr i (4096 * s.dev.rd .DP_GEOM_SLOT0 i + e.1)) 4 k) s
      (es.foldl (fun s e => s.dramWrite (s.dev.rodAddr i (4096 * s.dev.rd .DP_GEOM_SLOT0 i + e.1)) (le 4 e.2)) s) := by
  induction es with
  | nil => exact fun s => .refl _ _ _ rfl
  | cons e es ih =>
    intro s
    rw [List.foldl_cons]
    have hone := dramWrite_keeps s (s.dev.rodAddr i (4096 * s.dev.rd .DP_GEOM_SLOT0 i + e.1)) (le 4 e.2) false
    rw [le_length] at hone
    refine (hone.mono fun k hk => ⟨e, List.mem_cons_self .., hk⟩).trans ((ih _).mono ?_)
    rintro k ⟨x, hx, hk⟩
    rw [rodAddr_of_only (State.dramWrite_only _ _ _ _).dev (by decide)] at hk
    exact ⟨x, List.mem_cons_of_mem _ hx, hk⟩

theorem rodRelease_keeps {lvl : Lvl} {i : Pipe} {s t : State} (h : exec (.rodRelease lvl i) s = .next t) :
    KeepsOutside (fun k => ∃ e ∈ (s.dev.dp i.val).retained,
      InBytes (s.dev.rodAddr i.val (4096 * s.dev.rd .DP_GEOM_SLOT0 i.val + e.1)) 4 k) s t := by
  change execRodRelease lvl i s = .next t at h
  unfold execRodRelease at h
  dsimp only at h
  refine KeepsOutside.act ?_ h
  split
  · exact storeRods_fold_keeps i.val _ s
  · exact .refl _ _ _ rfl

theorem execSecondPass_keeps {bad : List U16} {s t : State} (h : exec (.secondPass bad) s = .next t) :
    KeepsOutside (fun k => ∃ r ∈ s.dev.recs (s.dev.rd .CR_STAT_IMG), r.type ≤ 5 ∧ secondPassReads r.type = true ∧
      InBytes (s.dev.rd .CR_FWBASE_ADDR * 256 + 0x1000000 * (r.type - 2)) r.len k) s t := by
  cases next_inj h
  split
  · exact secondPass_keeps s _
  · exact .refl _ _ _ rfl

/-- A read of the scrubber changes which code words are poisoned at most (R314). -/
theorem scrubRead_mem {addr : BitVec 36} {outcome : ScrubOutcome} {s t : State} (h : exec (.scrubRead addr outcome) s = .next t) :
    t.dram.mem = s.dram.mem := by
  change execScrubRead addr outcome s = .next t at h
  unfold execScrubRead at h
  dsimp only at h
  split at h
  · rw [← next_inj h]
  · split at h
    · rw [← next_inj h]
    · cases outcome <;> rw [← next_inj h]

/-- Settles O52: where each command stores, one lemma per command. -/
theorem runwayStores : Obligations.RunwayStores := by
  refine ⟨fun _ _ _ _ _ _ h => plTailWrite_keeps h, fun i s t h => ?_, fun _ _ _ _ h => execSlotReady_stores h,
    fun _ _ _ _ h => slotReadStart_keeps h, fun _ _ _ _ h => skipArm_keeps h, fun _ _ _ _ h => rodRelease_keeps h,
    fun _ _ _ h => execSecondPass_keeps h, fun _ _ _ _ h => scrubRead_mem h, fun lvl addr val s t h => ?_⟩
  · rw [← next_inj h]
    exact slotStart_stores s i.val
  · rw [← next_inj h]
    obtain ⟨hrestart, hplain, hnone⟩ := regWrite_dram s lvl.val addr.toNat val.toNat
    exact ⟨hrestart, fun r i j hf hr => (hplain r i j hf hr).1, hnone⟩

end Sys2Proof.Machine

/-! The update queues of the rods and the window to the Rod table (04, R107 to R109; 10, R253, R254; 17, R398). -/
namespace Sys2Proof.Machine
set_option exponentiation.threshold 600

/-! ### A latch set with an event -/

/-- The block with the 1-bit latch `f` of pipeline i set and an event raised. -/
def Dev.latch (d : Dev) (f : Fld) (i : Nat) (e : EvCode) (x : List Byte) : Dev := (d.wr f 1 i).raise e x

theorem latch_set (d : Dev) (f : Fld) (i : Nat) (e : EvCode) (x : List Byte) (hf : f ∈ [Fld.DP_ERR_WWRITE, .DP_ERR_QOVF, .DP_ERR_CREF])
    (he : e.sub < 16) : (d.latch f i e x).rd f i = 1 ∧ (d.latch f i e x).evPending e := by
  have hpend : f ≠ .AON_EVPEND_PEND := by rintro rfl; revert hf; decide
  have hlost : f ≠ .AON_EVLOST_N := by rintro rfl; revert hf; decide
  have hwidth : 1 < 2 ^ (fldSpec f).width := by revert f; decide
  exact ⟨(Dev.raise_rd _ _ _ _ _ _ hpend hlost).trans (rd_wr_self _ _ _ _ _ hwidth), Dev.raise_pending _ _ _ he⟩

/-- A latch and an event leave every other field outside the event's own as it was. -/
theorem latch_rd (d : Dev) (f : Fld) (i : Nat) (e : EvCode) (x : List Byte) (g : Fld) (k : Nat) (hg : g ∉ [f, .AON_EVPEND_PEND, .AON_EVLOST_N]) :
    (d.latch f i e x).rd g k = d.rd g k := by
  simp only [List.mem_cons, List.not_mem_nil, or_false, not_or] at hg
  obtain ⟨hne, hpend, hlost⟩ := hg
  unfold Dev.latch
  rw [Dev.raise_rd _ _ _ _ _ _ hpend hlost, Dev.rd_wr, if_neg (by simp [hne])]

theorem latch_dose (d : Dev) (f : Fld) (i : Nat) (e : EvCode) (x : List Byte) : (d.latch f i e x).dose = d.dose := by
  unfold Dev.latch
  rw [Dev.raise_dose, Dev.wr_dose]

/-! ### Enqueue (R108) -/

/-- The queue of pipeline i takes a rod: it is open and has room. -/
def Dev.QueueTakes (d : Dev) (i : Nat) : Prop := d.flag .DP_RODQ_COMMIT i = false ∧ (d.dp i).queue.length < 4096

theorem rodEnqueue_of_takes {d : Dev} {i : Nat} (rod : Nat) (h : d.QueueTakes i) :
    (d.rodEnqueue i rod).dp i = { d.dp i with queue := (d.dp i).queue ++ [((d.dp i).idx, rod)] } ∧
      (d.rodEnqueue i rod).rd .DP_RODQ_COUNT i = (d.dp i).queue.length + 1 := by
  obtain ⟨hopen, hroom⟩ := h
  have hcount : (d.dp i).queue.length + 1 < 2 ^ (fldSpec .DP_RODQ_COUNT).width := Nat.lt_trans (Nat.succ_lt_succ hroom) (by decide)
  unfold Dev.rodEnqueue
  dsimp only
  rw [if_neg (by simpa [hopen] using hroom)]
  exact ⟨updDp_dp d i fun p => { p with queue := p.queue ++ [((d.dp i).idx, rod)] }, rd_wr_self _ _ _ _ _ hcount⟩

theorem rodEnqueue_of_refused {d : Dev} {i : Nat} (rod : Nat) (h : d.flag .DP_RODQ_COMMIT i = true ∨ 4096 ≤ (d.dp i).queue.length) :
    d.rodEnqueue i rod = d.latch .DP_ERR_QOVF i Ev.RODQ_OVF (le 1 i) := by
  unfold Dev.rodEnqueue
  dsimp only
  exact if_pos (by simpa using h)

theorem rodEnqueue_gives {lvl : Lvl} {i : Pipe} {s : State} (rod : U32) (hr : s.dev.Reaches lvl (0x300020 + 0x1000 * i.val)) :
    Gives (.rodEnqueue lvl i rod) s fun t =>
      (s.dev.flag .DP_RODQ_COMMIT i.val = false → (s.dev.dp i).queue.length < 4096 →
        (t.dev.dp i).queue = (s.dev.dp i).queue ++ [((s.dev.dp i).idx, rod.toNat)] ∧
          t.dev.rd .DP_RODQ_COUNT i.val = (s.dev.dp i).queue.length + 1) ∧
      (s.dev.flag .DP_RODQ_COMMIT i.val = true ∨ 4096 ≤ (s.dev.dp i).queue.length →
        t.dev.dose = s.dev.dose ∧ t.dev.rd .DP_ERR_QOVF i.val = 1 ∧ t.dev.evPending Ev.RODQ_OVF) := by
  refine reaches_act hr rfl ?_
  dsimp only
  refine ⟨fun hopen hroom => ?_, fun hrefused => ?_⟩
  · obtain ⟨hdp, hcount⟩ := rodEnqueue_of_takes rod.toNat ⟨hopen, hroom⟩
    exact ⟨congrArg Dose.queue hdp, hcount⟩
  · rw [rodEnqueue_of_refused rod.toNat hrefused]
    exact ⟨latch_dose _ _ _ _ _, latch_set _ _ _ _ _ (by decide) (by decide)⟩

/-! ### Commit (R109) -/

theorem rodCommit_of_free {d : Dev} {i : Nat} (h : d.flag .DP_RODQ_RETAINED i = false) : d.rodCommit i = d.wr .DP_RODQ_COMMIT 1 i := by
  unfold Dev.rodCommit
  rw [if_neg (by rw [h]; decide)]

theorem rodCommit_of_retained {d : Dev} {i : Nat} (h : d.flag .DP_RODQ_RETAINED i = true) :
    d.rodCommit i = d.latch .DP_ERR_CREF i Ev.RODQ_COMMIT_REFUSED (le 1 i ++ le 2 (d.dp i).queue.length) := by
  unfold Dev.rodCommit
  exact if_pos h

theorem rodCommit_gives {lvl : Lvl} {i : Pipe} {s : State} (hr : s.dev.Reaches lvl (0x300018 + 0x1000 * i.val)) :
    Gives (.rodCommit lvl i) s fun t =>
      (s.dev.flag .DP_RODQ_RETAINED i.val = false → t.dev.rd .DP_RODQ_COMMIT i.val = 1) ∧
      (s.dev.flag .DP_RODQ_RETAINED i.val = true → t.dev.rd .DP_RODQ_COMMIT i.val = s.dev.rd .DP_RODQ_COMMIT i.val ∧
        t.dev.rd .DP_ERR_CREF i.val = 1 ∧ t.dev.evPending Ev.RODQ_COMMIT_REFUSED) := by
  refine reaches_act hr rfl ?_
  dsimp only
  refine ⟨fun hfree => ?_, fun hretained => ?_⟩
  · rw [rodCommit_of_free hfree]
    exact rd_wr_self _ _ _ _ _ (by decide)
  · rw [rodCommit_of_retained hretained]
    exact ⟨latch_rd _ _ _ _ _ _ _ (by decide), latch_set _ _ _ _ _ (by decide) (by decide)⟩

/-! ### What SV1 enters and commits (R253, R254; assumption 66) -/

/-- The oldest update entries of VS for pipeline i that its queue has room for. -/
def Dev.entriesDue (d : Dev) (i : Nat) : List (Nat × Nat × Nat) :=
  (d.loops.pend.filter (fun e => e.1 = i)).take (4096 - (d.dp i).queue.length)

/-- SV1 writes an entry's channel into `IDX` and its rod into `DATA`. -/
def Dev.enterRod (i : Nat) (d : Dev) (e : Nat × Nat × Nat) : Dev := (d.updDp i (fun p => { p with idx := e.2.1 })).rodEnqueue i e.2.2

/-- SV1 leaves the queue of pipeline i as it is. -/
def Dev.sv1Waits (d : Dev) (i : Nat) : Prop :=
  d.entriesDue i = [] ∨ d.flag .AON_PWR_WARN = true ∨ d.flag .DP_RODQ_COMMIT i = true

theorem sv1Commit_of_waits {d : Dev} {i : Nat} (h : d.sv1Waits i) : d.sv1Commit i = d := by
  unfold Dev.sv1Commit
  dsimp only
  refine if_pos ?_
  rcases h with h | h | h
  · simp [show (d.loops.pend.filter (fun e => e.1 = i)).take (4096 - (d.dp i).queue.length) = [] from h]
  · simp [h]
  · simp [h]

theorem sv1Commit_of_due {d : Dev} {i : Nat} (hdue : d.entriesDue i ≠ []) (hwarn : d.flag .AON_PWR_WARN = false)
    (hopen : d.flag .DP_RODQ_COMMIT i = false) (hfree : d.flag .DP_RODQ_RETAINED i = false) (hruns : d.runs .sv1 = true)
    (hdom : d.domOn .dose = true) : d.sv1Commit i = (d.forEach (d.entriesDue i) (Dev.enterRod i)).rodCommit i := by
  unfold Dev.sv1Commit
  dsimp only
  refine if_neg ?_
  rw [hwarn, hopen, hfree, hruns, hdom]
  simpa [Dev.entriesDue] using hdue

theorem enterRod_only (i : Nat) (d : Dev) (e : Nat × Nat × Nat) : Dev.Only 0x14088004100 0x1000800000000000000000008040 d (Dev.enterRod i d e) :=
  Dev.Only.step (Dev.rodEnqueue_only _ _ _) rfl rfl (Dev.Only.mono (Dev.updDp_only _ _ _) rfl rfl)

theorem enterRod_queue {d : Dev} {i : Nat} (e : Nat × Nat × Nat) (h : d.QueueTakes i) :
    ((Dev.enterRod i d e).dp i).queue = (d.dp i).queue ++ [e.2] := by
  have htakes : (d.updDp i (fun p => { p with idx := e.2.1 })).QueueTakes i := by
    refine ⟨h.1, ?_⟩
    rw [updDp_dp]
    exact h.2
  unfold Dev.enterRod
  rw [(rodEnqueue_of_takes e.2.2 htakes).1, updDp_dp]

/-- Entries that the queue has room for follow those in it, in their order. -/
theorem enterRods_queue (i : Nat) (es : List (Nat × Nat × Nat)) : ∀ d : Dev, d.flag .DP_RODQ_COMMIT i = false →
    (d.dp i).queue.length + es.length ≤ 4096 → ((d.forEach es (Dev.enterRod i)).dp i).queue = (d.dp i).queue ++ es.map (·.2) := by
  induction es with
  | nil => exact fun d _ _ => (List.append_nil _).symm
  | cons e es ih =>
    intro d hopen hroom
    rw [List.length_cons] at hroom
    have hone := enterRod_queue e ⟨hopen, by omega⟩
    have hstays : (Dev.enterRod i d e).flag .DP_RODQ_COMMIT i = false := by
      unfold Dev.flag at hopen ⊢
      rwa [(enterRod_only i d e).rd _ _ _ rfl]
    calc ((d.forEach (e :: es) (Dev.enterRod i)).dp i).queue
        = (((Dev.enterRod i d e).forEach es (Dev.enterRod i)).dp i).queue := rfl
      _ = ((Dev.enterRod i d e).dp i).queue ++ es.map (·.2) := ih _ hstays (by rw [hone, List.length_append, List.length_singleton]; omega)
      _ = (d.dp i).queue ++ (e :: es).map (·.2) := by rw [hone, List.append_assoc]; rfl

theorem entriesDue_fit (d : Dev) (i : Nat) (h : d.entriesDue i ≠ []) : (d.dp i).queue.length + (d.entriesDue i).length ≤ 4096 := by
  have hpos := List.length_pos_of_ne_nil h
  unfold Dev.entriesDue at hpos ⊢
  rw [List.length_take] at hpos ⊢
  omega

theorem rodEnqueue_retained (d : Dev) (i rod : Nat) : ((d.rodEnqueue i rod).dp i).retained = (d.dp i).retained := by
  by_cases h : d.flag .DP_RODQ_COMMIT i = true ∨ 4096 ≤ (d.dp i).queue.length
  · rw [rodEnqueue_of_refused rod h, dp_congr (latch_dose _ _ _ _ _)]
  · rw [not_or, Bool.not_eq_true, Nat.not_le] at h
    rw [(rodEnqueue_of_takes rod h).1]

theorem rodCommit_dp (d : Dev) (i k : Nat) : (d.rodCommit i).dp k = d.dp k := dp_congr ((Dev.rodCommit_only d i).parts .dose rfl) k

/-- What SV1 enters and commits leaves the retained entries as they are. -/
theorem sv1Commit_retained (d : Dev) (i : Nat) : ((d.sv1Commit i).dp i).retained = (d.dp i).retained := by
  unfold Dev.sv1Commit
  dsimp only
  split
  · rfl
  · rw [rodCommit_dp]
    exact fold_keep' _ _ (fun d => (d.dp i).retained) d fun d e => by rw [rodEnqueue_retained, updDp_dp]

/-! ### Release (R109) -/

/-- The block once the retained entries of pipeline i are in the master copy and freed. -/
def Dev.released (d : Dev) (i : Nat) : Dev :=
  ((d.forEach (d.dp i).retained (fun e x => e.setMasterRod (4096 * d.rd .DP_GEOM_SLOT0 i + x.1) x.2)).updDp i
    (fun p => { p with retained := [] })).wr .DP_RODQ_RETAINED 0 i

theorem rodRelease_eq (d : Dev) (i : Nat) : d.rodRelease i = (d.released i).sv1Commit i := rfl

theorem released_only (d : Dev) (i : Nat) : Dev.Only (partsMask [.dose, .rodMaster]) (fieldsMask [.DP_RODQ_RETAINED]) d (d.released i) :=
  Dev.Only.wr _ _ _ _ rfl (Dev.Only.step (Dev.updDp_only _ _ _) rfl rfl
    (forEach_only _ _ _ fun _ _ => Dev.Only.mono (Dev.setMasterRod_only _ _ _) rfl rfl))

theorem released_dp (d : Dev) (i : Nat) : (d.released i).dp i = { d.dp i with retained := [] } := by
  unfold Dev.released
  rw [wr_dp, updDp_dp, dp_congr ((forEach_only _ d _ fun _ _ => Dev.setMasterRod_only _ _ _).parts .dose rfl)]

theorem released_retained (d : Dev) (i : Nat) : (d.released i).rd .DP_RODQ_RETAINED i = 0 := rd_wr_self _ _ _ _ _ (by decide)

theorem released_entriesDue (d : Dev) (i : Nat) : (d.released i).entriesDue i = d.entriesDue i := by
  unfold Dev.entriesDue
  rw [released_dp, show (d.released i).loops = d.loops from (released_only d i).parts .loops rfl]

theorem released_flag (d : Dev) (i : Nat) {f : Fld} (hf : f ≠ .DP_RODQ_RETAINED) (k : Nat) : (d.released i).flag f k = d.flag f k := by
  unfold Dev.flag
  rw [(released_only d i).keep [.DP_RODQ_RETAINED] (Nat.and_self _) (by simpa using hf)]

theorem rodRelease_frees (d : Dev) (i : Nat) : (d.rodRelease i).rd .DP_RODQ_RETAINED i = 0 ∧ ((d.rodRelease i).dp i).retained = [] := by
  rw [rodRelease_eq]
  refine ⟨?_, ?_⟩
  · rw [(Dev.sv1Commit_only _ i).rd _ _ _ rfl, released_retained]
  · rw [sv1Commit_retained, released_dp]

theorem rodRelease_of_waits {d : Dev} {i : Nat} (h : d.sv1Waits i) :
    ((d.rodRelease i).dp i).queue = (d.dp i).queue ∧ (d.rodRelease i).rd .DP_RODQ_COMMIT i = d.rd .DP_RODQ_COMMIT i := by
  have hwaits : (d.released i).sv1Waits i := by
    unfold Dev.sv1Waits at h ⊢
    rwa [released_entriesDue, released_flag d i (by decide), released_flag d i (by decide)]
  rw [rodRelease_eq, sv1Commit_of_waits hwaits, released_dp]
  exact ⟨rfl, (released_only d i).rd _ _ _ rfl⟩

theorem rodRelease_of_due {d : Dev} {i : Nat} (hdue : d.entriesDue i ≠ []) (hwarn : d.flag .AON_PWR_WARN = false)
    (hopen : d.flag .DP_RODQ_COMMIT i = false) (hruns : d.runs .sv1 = true) (hdom : d.domOn .dose = true) :
    ((d.rodRelease i).dp i).queue = (d.dp i).queue ++ (d.entriesDue i).map (·.2) ∧ (d.rodRelease i).rd .DP_RODQ_COMMIT i = 1 := by
  have hentries := released_entriesDue d i
  have hopen' := (released_flag d i (f := .DP_RODQ_COMMIT) (by decide) i).trans hopen
  have hwarn' := (released_flag d i (f := .AON_PWR_WARN) (by decide) 0).trans hwarn
  have hruns' : (d.released i).runs .sv1 = true := by
    unfold Dev.runs at hruns ⊢
    rwa [show (d.released i).boot = d.boot from (released_only d i).parts .boot rfl]
  have hdom' : (d.released i).domOn .dose = true := by
    unfold Dev.domOn at hdom ⊢
    rwa [(released_only d i).rd _ _ _ rfl]
  have hfree : ((d.released i).forEach ((d.released i).entriesDue i) (Dev.enterRod i)).flag .DP_RODQ_RETAINED i = false :=
    flag_false (((forEach_only _ _ _ (enterRod_only i)).rd _ _ _ rfl).trans (released_retained d i))
  rw [← hentries] at hdue
  rw [rodRelease_eq, sv1Commit_of_due hdue hwarn' hopen' (flag_false (released_retained d i)) hruns' hdom']
  refine ⟨?_, ?_⟩
  · rw [rodCommit_dp, enterRods_queue i _ _ hopen' (entriesDue_fit _ i hdue), hentries, released_dp]
  · rw [rodCommit_of_free hfree]
    exact rd_wr_self _ _ _ _ _ (by decide)

theorem act_ownWrite {lvl : Lvl} {a : Nat} {s : State} (h : s.dev.Reaches lvl a) (k : Dev → Dev) :
    s.act (·.ownWrite lvl a k) = .next { s with dev := k s.dev } := by
  unfold State.act
  dsimp only
  rw [ownWrite_reaches h]

/-- A release that reaches the register first stores the retained entries, which changes DRAM and its counters alone. -/
theorem rodRelease_exec {lvl : Lvl} {i : Pipe} {s : State} (hr : s.dev.Reaches lvl (0x300018 + 0x1000 * i.val)) :
    ∃ u : State, Dev.Only (partsMask [.dram]) (fieldsMask rmwFields) s.dev u.dev ∧
      exec (.rodRelease lvl i) s = .next { u with dev := u.dev.rodRelease i } := by
  have hstored : ∀ b : Bool, Dev.Only (partsMask [.dram]) (fieldsMask rmwFields) s.dev (if b then s.storeRods i else s).dev := by
    rintro (_ | _)
    · exact .refl _ _ _
    · exact (State.storeRods_only s i).dev.mono (by decide) (by decide)
  exact ⟨_, hstored (s.dev.allowed 0 (0x300018 + 0x1000 * i.val) lvl.val true && s.dev.domOn .dose),
    act_ownWrite (reaches_congr (hstored _) (by decide) rfl hr) (·.rodRelease i)⟩

theorem rodRelease_gives {lvl : Lvl} {i : Pipe} {s : State} (hr : s.dev.Reaches lvl (0x300018 + 0x1000 * i.val)) :
    Gives (.rodRelease lvl i) s fun t =>
      t.dev.rd .DP_RODQ_RETAINED i.val = 0 ∧ (t.dev.dp i).retained = [] ∧
      (s.dev.sv1Waits i → (t.dev.dp i).queue = (s.dev.dp i).queue ∧ t.dev.rd .DP_RODQ_COMMIT i.val = s.dev.rd .DP_RODQ_COMMIT i.val) ∧
      (s.dev.entriesDue i ≠ [] → s.dev.flag .AON_PWR_WARN = false → s.dev.flag .DP_RODQ_COMMIT i.val = false → s.dev.runs .sv1 = true →
        s.dev.domOn .dose = true →
        (t.dev.dp i).queue = (s.dev.dp i).queue ++ (s.dev.entriesDue i).map (·.2) ∧ t.dev.rd .DP_RODQ_COMMIT i.val = 1) := by
  obtain ⟨⟨d, m, q⟩, honly, hexec⟩ := rodRelease_exec hr
  dsimp only at honly hexec
  have hdp : d.dp i = s.dev.dp i := dp_congr (honly.parts .dose rfl) i
  have hrd : ∀ f k, f ∉ rmwFields → d.rd f k = s.dev.rd f k := fun f k hf => honly.keep rmwFields (Nat.and_self _) hf k 0
  have hflag : ∀ f k, f ∉ rmwFields → d.flag f k = s.dev.flag f k := fun f k hf => by unfold Dev.flag; rw [hrd f k hf]
  have hentries : d.entriesDue i = s.dev.entriesDue i := by
    unfold Dev.entriesDue
    rw [hdp, show d.loops = s.dev.loops from honly.parts .loops rfl]
  obtain ⟨hfield, hlist⟩ := rodRelease_frees d i
  refine gives_next hexec ⟨hfield, hlist, fun hwaits => ?_, fun hdue hwarn hopen hruns hdom => ?_⟩
  · have hwaits' : d.sv1Waits i := by
      unfold Dev.sv1Waits at hwaits ⊢
      rwa [hentries, hflag _ _ (by decide), hflag _ _ (by decide)]
    rw [← hdp, ← hrd .DP_RODQ_COMMIT i (by decide)]
    exact rodRelease_of_waits hwaits'
  · rw [← hentries] at hdue ⊢
    rw [← hdp]
    refine rodRelease_of_due hdue ((hflag _ _ (by decide)).trans hwarn) ((hflag _ _ (by decide)).trans hopen) ?_ ?_
    · unfold Dev.runs at hruns ⊢
      rwa [show d.boot = s.dev.boot from honly.parts .boot rfl]
    · unfold Dev.domOn at hdom ⊢
      rwa [hrd _ _ (by decide)]

/-! ### The window (R107) -/

theorem rodWindow_of_free {d : Dev} {ch : Nat} (rod : Nat) (h : d.ownerOf ch = none) : d.rodWindow ch rod = d.wr .ROD_ROD rod ch := by
  unfold Dev.rodWindow
  rw [h]

theorem rodWindow_of_owned {d : Dev} {ch i : Nat} (rod : Nat) (h : d.ownerOf ch = some i) :
    d.rodWindow ch rod = d.latch .DP_ERR_WWRITE i Ev.ROD_WINDOW_IGNORED (le 4 ch) := by
  unfold Dev.rodWindow
  rw [h]
  rfl

theorem rodWindowWrite_gives {lvl : Lvl} {ch : BitVec 18} {s : State} (rod : U32) (hr : s.dev.Reaches lvl (0x400000 + 4 * ch.toNat))
    (hl : lvl.val = 3) : Gives (.rodWindowWrite lvl ch rod) s fun t =>
      (s.dev.ownerOf ch.toNat = none → t.dev.rd .ROD_ROD ch.toNat = rod.toNat ∧ ∀ c, c ≠ ch.toNat → t.dev.rd .ROD_ROD c = s.dev.rd .ROD_ROD c) ∧
      (∀ i, s.dev.ownerOf ch.toNat = some i → (∀ c, t.dev.rd .ROD_ROD c = s.dev.rd .ROD_ROD c) ∧ t.dev.rd .DP_ERR_WWRITE i = 1 ∧
        t.dev.evPending Ev.ROD_WINDOW_IGNORED) := by
  refine reaches_act hr rfl ?_
  rw [if_pos hl]
  dsimp only
  refine ⟨fun hfree => ?_, fun i howned => ?_⟩
  · rw [rodWindow_of_free rod.toNat hfree]
    refine ⟨rd_wr_self _ _ _ _ _ rod.isLt, fun c hc => ?_⟩
    rw [Dev.rd_wr, if_neg (by simp [hc])]
  · rw [rodWindow_of_owned rod.toNat howned]
    exact ⟨fun c => latch_rd _ _ _ _ _ _ _ (by decide), latch_set _ _ _ _ _ (by decide) (by decide)⟩

/-- Settles O31: enqueue, commit, release and a write through the window, one lemma each. -/
theorem rodQueuesTakeEffect : Obligations.RodQueuesTakeEffect :=
  ⟨fun _ _ rod _ hr => rodEnqueue_gives rod hr, fun _ _ _ hr => rodCommit_gives hr, fun _ _ _ hr => rodRelease_gives hr,
    fun _ _ rod _ hr hl => rodWindowWrite_gives rod hr hl⟩

end Sys2Proof.Machine

/-! The dose pipelines: bands start, lines are dosed, poisoned rods are read again, tables are loaded (04, R101 to R106, R110; 05, R126;
08, R422). -/
namespace Sys2Proof.Machine
set_option exponentiation.threshold 600

/-! ### Bands (R101, R126) -/

/-- The fields in which the block changes before a band start is decided. -/
def bandFields : List Fld := [.RW_LEAD_COUNTS, .RW_LEADBAR_BAR, .RW_BLEAD_COUNTS, .RW_XSTAT_WAITTGT]

/-- The block as a band start weighs it, no pipeline waiting for the target of the lead. -/
def Dev.atBandStart (d : Dev) : Dev :=
  d.dropStale.refreshLead.forEach d.dropStale.refreshLead.pipes (fun d i => d.wr .RW_XSTAT_WAITTGT 0 i)

theorem atBandStart_only (d : Dev) : Dev.Only (partsMask [.rk]) (fieldsMask bandFields) d d.atBandStart :=
  Dev.Only.step (waitTgt _ _ 0 (by decide)).2 (by decide) (by decide)
    (Dev.Only.step (Dev.refreshLead_only _) (by decide) (by decide) (Dev.Only.mono (Dev.dropStale_only d) (by decide) (by decide)))

theorem atBandStart_pipes (d : Dev) : d.atBandStart.pipes = d.pipes :=
  pipes_congr fun _ i j hf => (atBandStart_only d).keep bandFields (Nat.and_self _) hf i j

theorem atBandStart_posted (d : Dev) (i : Nat) : d.atBandStart.posted i = d.posted i := by
  have hrd : ∀ f k, f ∉ bandFields → d.atBandStart.rd f k = d.rd f k := fun f k hf => (atBandStart_only d).keep bandFields (Nat.and_self _) hf k 0
  have hrw : d.atBandStart.rw i = d.rw i := rw_congr ((atBandStart_only d).parts .rwy rfl) i
  unfold Dev.posted Dev.ringLeft Dev.ringSize Dev.flag
  rw [hrw, hrd .DMA_RCFG_EN _ (by decide), hrd .DMA_RTAIL_IDX _ (by decide), hrd .DMA_RCFG_SIZE _ (by decide), hrd .DMA_RHEAD_IDX _ (by decide)]

theorem atBandStart_needsReload (d : Dev) (r : JobRec) : d.atBandStart.needsReload r = d.needsReload r := by
  have honly := atBandStart_only d
  unfold Dev.needsReload
  rw [show d.atBandStart.curveSet = d.curveSet from honly.parts .curveSet rfl,
    show d.atBandStart.screenSet = d.screenSet from honly.parts .screenSet rfl, show d.atBandStart.boot = d.boot from honly.parts .boot rfl]

theorem doseBandStart_exec {s : State} (hdom : s.dev.domOn .dose = true) (hst : s.dev.st.idleToHold = true) :
    exec .doseBandStart s = .next { s with dev := s.dev.doseBandStart } := by
  change execDoseBandStart s = _
  unfold execDoseBandStart State.act
  dsimp only
  rw [if_pos (by rw [hdom, hst]; rfl)]

section
variable {d : Dev} {b : BandTiles} {rest : List BandTiles} {r : JobRec} (hpipes : d.pipes ≠ []) (hfree : ∀ i ∈ d.pipes, (d.dp i).band = none)
  (hreload : d.reload = false) (hhanded : d.dropStale.rk.handed = b :: rest) (hrec : (d.job b.jn).bind (·.rec?) = some r)
include hpipes hfree hreload hhanded hrec

/-- With the lead at its target every pipeline waits. -/
theorem doseBandStart_waits (hlead : d.dropStale.refreshLead.rd .RW_LEADTGT_COUNTS ≤ d.dropStale.refreshLead.rd .RW_LEAD_COUNTS) :
    ∀ i ∈ d.pipes, d.doseBandStart.rd .RW_XSTAT_WAITTGT i = 1 ∧ (d.doseBandStart.dp i).band = none := by
  obtain ⟨e, rfl, hsame, hdose, hstart⟩ := bandStart_eq d b rest r hpipes hfree hreload hhanded hrec
  rw [hstart, if_pos hlead]
  obtain ⟨hall, honly⟩ := waitTgt d.dropStale.refreshLead d.dropStale.refreshLead.pipes 1 (by decide)
  intro i hi
  refine ⟨hall i (hsame ▸ hi), ?_⟩
  rw [dp_congr ((honly.parts .dose rfl).trans hdose)]
  exact hfree i hi

/-- With room in the lead, few held spoils, a descriptor for each pipeline and the tables in force, the band starts in every pipeline. -/
theorem doseBandStart_starts (hlead : d.dropStale.refreshLead.rd .RW_LEAD_COUNTS < d.dropStale.refreshLead.rd .RW_LEADTGT_COUNTS)
    (hheld : d.integ.heldSpoils.length < 224) (hposted : ∀ i ∈ d.pipes, d.posted i ≠ 0) (htables : d.needsReload r = false) :
    d.doseBandStart = d.atBandStart.startBand b r := by
  obtain ⟨e, rfl, hsame, hdose, hstart⟩ := bandStart_eq d b rest r hpipes hfree hreload hhanded hrec
  have hnone : d.atBandStart.pipes.filter (fun i => d.atBandStart.posted i = 0) = [] := by
    rw [atBandStart_pipes, List.filter_eq_nil_iff]
    intro i hi
    rw [atBandStart_posted]
    simpa using hposted i hi
  have hheld' : d.atBandStart.integ.heldSpoils.length < 224 := by
    rwa [show d.atBandStart.integ = d.integ from (atBandStart_only d).parts .integ rfl]
  have htables' : d.atBandStart.needsReload r = false := (atBandStart_needsReload d r).trans htables
  rw [hstart, if_neg (Nat.not_le.2 hlead)]
  change (if 224 ≤ d.atBandStart.integ.heldSpoils.length then d.atBandStart
    else if d.atBandStart.pipes.filter (fun i => d.atBandStart.posted i = 0) ≠ [] then _
    else if d.atBandStart.needsReload r then _ else d.atBandStart.startBand b r) = _
  rw [if_neg (Nat.not_le.2 hheld'), if_neg (not_not_intro hnone), if_neg (by rw [htables']; decide)]

end

/-- A band that starts has no line dosed and no pipeline waiting. -/
theorem startBand_atBandStart (d : Dev) (b : BandTiles) (r : JobRec) :
    ∀ i ∈ d.pipes, (d.atBandStart.startBand b r).rd .RW_XSTAT_WAITTGT i = 0 ∧ ∃ x, ((d.atBandStart.startBand b r).dp i).band = some x ∧ x.jn = b.jn ∧
      x.line = 16 * b.band ∧ x.count = min 16 (r.lines - 16 * b.band) ∧ x.lines = [] := by
  intro i hi
  refine startBand_all d.atBandStart b r (fun k hk => ?_) i ((atBandStart_pipes d).symm ▸ hi)
  refine (waitTgt _ _ 0 (by decide)).1 k ?_
  have hsame : d.dropStale.refreshLead.pipes = d.atBandStart.pipes :=
    (pipes_congr fun f i j hf => (waitTgt d.dropStale.refreshLead d.dropStale.refreshLead.pipes 0 (by decide)).2.keep [.RW_XSTAT_WAITTGT] (by decide)
      (fun h => hf (by simp at h; simp [h])) i j).symm
  rwa [hsame]

/-! ### Lines (R104, R105) -/

/-- What a product start notes in a band is its Rod versions. -/
theorem tagged_same (b : DoseBand) (n ver : Nat) :
    (b.tagged n ver).jn = b.jn ∧ (b.tagged n ver).line = b.line ∧ (b.tagged n ver).count = b.count ∧ (b.tagged n ver).lines = b.lines := by
  unfold DoseBand.tagged
  split
  · exact ⟨rfl, rfl, rfl, rfl⟩
  · split <;> exact ⟨rfl, rfl, rfl, rfl⟩

/-- Pipeline i's band has one line more than `b`, behind those dosed. -/
def Dev.OneLineMore (e : Dev) (i : Nat) (b : DoseBand) : Prop :=
  ∃ x bs, (e.dp i).band = some x ∧ x.jn = b.jn ∧ x.line = b.line ∧ x.count = b.count ∧ x.lines = b.lines ++ [bs]

/-- The redoses counted after a line whose first pass has failed or not (R105). -/
def redosed (k : DoseChecks) (n : Nat) : Nat :=
  if (failedCheck k.first).isSome then min (n + 1) (2 ^ (fldSpec .DP_CHECK_REDOSE).width - 1) else n

/-- A line's end, at a pitch or not and with the band full or not, leaves what the pipelines hold and the redoses as they are. -/
theorem lineTail_keeps (f : Dev) (i jn pn : Nat) (A B : Prop) [Decidable A] [Decidable B] :
    (if B then (if A then f.shortEnd i jn pn else f).freeTiles i else if A then f.shortEnd i jn pn else f).dose = f.dose ∧
    (if B then (if A then f.shortEnd i jn pn else f).freeTiles i else if A then f.shortEnd i jn pn else f).rd .DP_CHECK_REDOSE i =
      f.rd .DP_CHECK_REDOSE i := by
  simpa only [decide_eq_true_eq] using lineEnd f i jn pn i (decide A) (decide B) .DP_CHECK_REDOSE (by decide) (by decide) (by decide) i 0

theorem doseLine_effect {d : Dev} {i : Nat} (k : DoseChecks) {b : DoseBand} {t0 : BandTiles} {rest : List BandTiles} {j : Job} {r : JobRec}
    (hband : (d.dp i).band = some b) (hhanded : d.rk.handed = t0 :: rest) (hjob : d.job b.jn = some j) (hrec : j.rec? = some r)
    (hmay : d.mayDose i b (decide ((b.line + b.lines.length) % r.pitch = 0)) = true) :
    (d.doseLine i k).OneLineMore i b ∧ (d.doseLine i k).rd .DP_CHECK_REDOSE i = redosed k (d.rd .DP_CHECK_REDOSE i) := by
  unfold Dev.doseLine
  rw [hband, hhanded]
  dsimp only
  rw [hjob]
  dsimp only
  rw [hrec]
  dsimp only
  rw [if_neg (by rw [hmay]; decide)]
  generalize hn : b.line + b.lines.length = n
  generalize decide (n % r.pitch = 0) = start
  generalize he : (if start = true then d.productStart i b.jn (r.firstPn + n / r.pitch) n else d) = e
  have hredose : e.rd .DP_CHECK_REDOSE i = d.rd .DP_CHECK_REDOSE i := by
    rw [← he]
    split
    · exact (Dev.productStart_only _ _ _ _ _).rd _ _ _ rfl
    · rfl
  generalize hx : (if start = true then b.tagged n (e.rd .DP_RODV_VER i) else b) = x
  have hsame : x.jn = b.jn ∧ x.line = b.line ∧ x.count = b.count ∧ x.lines = b.lines := by
    rw [← hx]
    split
    · exact tagged_same _ _ _
    · exact ⟨rfl, rfl, rfl, rfl⟩
  obtain ⟨hjn, hline, hcount, hlines⟩ := hsame
  generalize hc : ({ g := e.pipeGeom i, job := j, jr := r, n := n, plane := _, tiles := t0.tiles } : LineCtx) = c
  have hout := (doseOut_redose e c x.jn k).2
  rw [show c.g.pipe = i from hc ▸ pipeGeom_pipe e i] at hout
  generalize e.doseOut c x.jn k = out at hout ⊢
  obtain ⟨hdose, hrd⟩ := lineTail_keeps (out.2.2.updDp i fun p => { p with band := some { x with lines := x.lines ++ [out.1] }, short := p.short + out.2.1 })
    i x.jn (r.firstPn + n / r.pitch) ((n + 1) % r.pitch = 0) (x.count ≤ x.lines.length + 1)
  refine ⟨⟨{ x with lines := x.lines ++ [out.1] }, out.1, ?_, hjn, hline, hcount, congrArg (· ++ [out.1]) hlines⟩, ?_⟩
  · rw [dp_congr hdose, updDp_dp]
  · rw [hrd, updDp_rd, hout, hredose]
    rfl

theorem doseLine_gives {i : Pipe} (k : DoseChecks) {b : DoseBand} {t0 : BandTiles} {rest : List BandTiles} {j : Job} {r : JobRec} {s : State}
    (hband : (s.dev.dp i).band = some b) (hhanded : s.dev.rk.handed = t0 :: rest) (hjob : s.dev.job b.jn = some j) (hrec : j.rec? = some r)
    (hmay : s.dev.mayDose i b (decide ((b.line + b.lines.length) % r.pitch = 0)) = true) :
    Gives (.doseLine i k) s fun t => t.dev.OneLineMore i b ∧ t.dev.rd .DP_CHECK_REDOSE i.val = redosed k (s.dev.rd .DP_CHECK_REDOSE i.val) :=
  gives_act (f := (·.doseLine i k)) rfl (doseLine_effect k hband hhanded hjob hrec hmay)

/-! ### Poisoned rods (R106) -/

/-- A rod set in the Rod table, and an event that says so. -/
theorem rodSet_raise (d : Dev) (v ch : Nat) (e : EvCode) (x : List Byte) (he : e.sub < 16) :
    ((d.wr .ROD_ROD v ch).raise e x).rd .ROD_ROD ch = v % 2 ^ 32 ∧ ((d.wr .ROD_ROD v ch).raise e x).evPending e := by
  refine ⟨?_, Dev.raise_pending _ _ _ he⟩
  rw [Dev.raise_rd _ _ _ _ _ _ (by decide) (by decide), Dev.rd_wr, if_pos ⟨rfl, rfl, rfl⟩]
  rfl

/-- The newest retained entry of pipeline i for a channel. -/
def Dev.keptRod (d : Dev) (i ch : Nat) : Option (Nat × Nat) :=
  (d.dp i).retained.reverse.find? (fun e => e.1 = ch - 4096 * d.rd .DP_GEOM_SLOT0 i)

theorem rodRefetch_of_kept {d : Dev} {i ch : Nat} {e : Nat × Nat} (word : Option Nat) (h : d.keptRod i ch = some e) :
    d.rodRefetch i ch word = (d.wr .ROD_ROD e.2 ch).raise Ev.ROD_REFETCH (le 4 ch ++ le 1 1) := by
  unfold Dev.keptRod at h
  unfold Dev.rodRefetch
  rw [h]

theorem rodRefetch_of_master {d : Dev} {i ch w : Nat} (h : d.keptRod i ch = none) :
    d.rodRefetch i ch (some w) = (d.wr .ROD_ROD w ch).raise Ev.ROD_REFETCH (le 4 ch ++ le 1 0) := by
  unfold Dev.keptRod at h
  unfold Dev.rodRefetch
  rw [h]

theorem rodRefetch_of_lost {d : Dev} {i ch : Nat} (h : d.keptRod i ch = none) :
    d.rodRefetch i ch none = (d.wr .ROD_ROD rodMasked ch).raise Ev.ROD_LOST (le 4 ch) := by
  unfold Dev.keptRod at h
  unfold Dev.rodRefetch
  rw [h]

theorem masterWord_of_sound {s : State} {i ch : Nat} (h : s.dram.poisoned (s.dev.rodAddr i ch) 4 = false) :
    s.masterWord i ch false = some (leVal (memReadAll s.dram.mem (s.dev.rodAddr i ch) 4)) := by
  unfold State.masterWord
  dsimp only
  rw [h]
  rfl

theorem masterWord_of_poisoned {s : State} {i ch : Nat} {mp : Bool} (h : mp = true ∨ s.dram.poisoned (s.dev.rodAddr i ch) 4 = true) :
    s.masterWord i ch mp = none := by
  unfold State.masterWord
  exact if_pos (by simpa using h)

theorem rodRefetch_exec {ch : BitVec 18} {i : Nat} {s : State} (mp : Bool) (howner : s.dev.ownerOf ch.toNat = some i) :
    exec (.rodRefetch ch mp) s = s.act (·.rodRefetch i ch.toNat (s.masterWord i ch.toNat mp)) := by
  change execRodRefetch ch mp s = _
  unfold execRodRefetch
  rw [howner]

theorem rodRefetch_gives {ch : BitVec 18} {mp : Bool} {i : Nat} {s : State} (howner : s.dev.ownerOf ch.toNat = some i) :
    Gives (.rodRefetch ch mp) s fun t =>
      (∀ e, s.dev.keptRod i ch.toNat = some e → t.dev.rd .ROD_ROD ch.toNat = e.2 % 2 ^ 32 ∧ t.dev.evPending Ev.ROD_REFETCH) ∧
      (s.dev.keptRod i ch.toNat = none → mp = false → s.dram.poisoned (s.dev.rodAddr i ch.toNat) 4 = false →
        t.dev.rd .ROD_ROD ch.toNat = leVal (memReadAll s.dram.mem (s.dev.rodAddr i ch.toNat) 4) % 2 ^ 32 ∧ t.dev.evPending Ev.ROD_REFETCH) ∧
      (s.dev.keptRod i ch.toNat = none → mp = true ∨ s.dram.poisoned (s.dev.rodAddr i ch.toNat) 4 = true →
        t.dev.rd .ROD_ROD ch.toNat = rodMasked ∧ t.dev.evPending Ev.ROD_LOST) := by
  refine gives_act (rodRefetch_exec mp howner) ?_
  dsimp only
  refine ⟨fun e hkept => ?_, fun hkept hread hsound => ?_, fun hkept hpoison => ?_⟩
  · rw [rodRefetch_of_kept _ hkept]
    exact rodSet_raise _ _ _ _ _ (by decide)
  · rw [hread, masterWord_of_sound hsound, rodRefetch_of_master hkept]
    exact rodSet_raise _ _ _ _ _ (by decide)
  · rw [masterWord_of_poisoned hpoison, rodRefetch_of_lost hkept]
    exact rodSet_raise _ _ _ _ _ (by decide)

/-! ### Tables (R110) -/

theorem loadTables_sets (d : Dev) (curves screens : Nat) :
    (d.loadTables curves screens).curveSet = some curves ∧ (d.loadTables curves screens).screenSet = some screens ∧
      (d.loadTables curves screens).reload = false := by
  have hkept : Dev.Only 0 (fieldsMask [.DP_SCREEN_TW, .DP_SCREEN_TH]) { d with curveSet := some curves, screenSet := some screens, reload := false }
      (d.loadTables curves screens) := by
    refine forEach_only _ _ _ fun e i => ?_
    split
    · exact Dev.Only.wr _ _ _ _ rfl (Dev.Only.wr _ _ _ _ rfl (.refl _ _ _))
    · exact .refl _ _ _
  exact ⟨hkept.parts .curveSet rfl, hkept.parts .screenSet rfl, hkept.parts .reload rfl⟩

theorem tableReload_gives {b : BandTiles} {rest : List BandTiles} {r : JobRec} {s : State} (hreload : s.dev.reload = true)
    (hhanded : s.dev.rk.handed = b :: rest) (hrec : (s.dev.job b.jn).bind (·.rec?) = some r) :
    Gives .tableReload s fun t => t.dev.curveSet = some r.curveSet ∧ t.dev.screenSet = some r.screenSet ∧ t.dev.reload = false := by
  refine gives_next (t := { s with dev := s.dev.loadTables r.curveSet r.screenSet }) ?_ (loadTables_sets _ _ _)
  change execTableReload s = _
  unfold execTableReload State.act
  dsimp only
  rw [if_neg (by rw [hreload]; decide), hhanded,
    show ((b :: rest).head?).bind (fun b => (s.dev.job b.jn).bind (·.rec?)) = some r from hrec]

/-- Settles O30: each clause from what the command does under its conditions: a band start decided over `atBandStart`, a line put behind those
dosed, a rod set from the first source that has it, and the tables of the job whose band is next. -/
theorem dosePipelinesTakeEffect : Obligations.DosePipelinesTakeEffect := by
  refine ⟨fun s b rest r hdom hst hpipes hfree hreload hhanded hrec => ⟨fun hlead => ?_, fun hlead hheld hposted htables => ?_⟩,
    fun i k b t0 rest j r s hband hhanded hjob hrec hmay => doseLine_gives k hband hhanded hjob hrec hmay,
    fun ch mp i s howner => rodRefetch_gives howner,
    fun b rest r s hreload hhanded hrec => tableReload_gives hreload hhanded hrec⟩
  · exact gives_next (doseBandStart_exec hdom hst) (doseBandStart_waits hpipes hfree hreload hhanded hrec hlead)
  · refine gives_next (doseBandStart_exec hdom hst) ?_
    dsimp only
    rw [doseBandStart_starts hpipes hfree hreload hhanded hrec hlead hheld hposted htables]
    exact startBand_atBandStart s.dev b r

end Sys2Proof.Machine

/-! The runway: page supply, slots started, made READY and read, and skips (05, R111 to R129; 06, R162). -/
namespace Sys2Proof.Machine
set_option exponentiation.threshold 600

/-! ### Flags, ring sizes and skips that stay -/

theorem flag_of_only {c r : Nat} {d e : Dev} (h : Dev.Only c r d e) {f : Fld} (hr : r.testBit f.ctorIdx = false) (i : Nat) :
    e.flag f i = d.flag f i := by
  unfold Dev.flag
  rw [h.regs f hr]

theorem ringSize_of_only {c r : Nat} {d e : Dev} (h : Dev.Only c r d e) (hr : r.testBit (Fld.ctorIdx .DMA_RCFG_SIZE) = false) (k : Nat) :
    e.ringSize k = d.ringSize k := by
  unfold Dev.ringSize
  rw [h.rd _ _ _ hr]

theorem skipStep_of_unarmed {s : State} {i : Nat} (h : s.dev.flag .RW_SKIP_CTL_ARM i = false) : s.skipStep i = s :=
  if_pos (by rw [h]; rfl)

/-! ### Page supply (R113, R123) -/

theorem plTailWrite_of_free {lvl : Lvl} {i : Pipe} {pages : List U32} {s : State} (idx : BitVec 19)
    (hr : s.dev.Reaches lvl (0x501004 + 64 * i.val)) (hfree : s.pagesFree pages = true) :
    Gives (.plTailWrite lvl i idx pages) s fun t => t.dev.rd .RW_PL_TAIL_IDX i.val = idx.toNat := by
  have hexec : exec (.plTailWrite lvl i idx pages) s =
      (s.plWrite i.val (s.dev.rd .RW_PL_TAIL_IDX i.val) pages).act (·.ownWrite lvl (0x501004 + 64 * i.val) (·.plTail i.val idx.toNat)) := by
    change execPlTailWrite lvl i idx pages s = _
    unfold execPlTailWrite
    dsimp only
    rw [if_neg (by rw [hfree]; decide), if_pos hr.1]
  have hreaches := reaches_of (State.plWrite_only s i.val (s.dev.rd .RW_PL_TAIL_IDX i.val) pages).dev rfl rfl hr
  exact gives_next (hexec.trans (act_ownWrite hreaches _)) ((plTail_rd _ _ _).trans (Nat.mod_eq_of_lt idx.isLt))

/-- Pages that a list has already, or that come twice, are not appended (assumption 60). -/
theorem plTailWrite_of_listed {lvl : Lvl} {i : Pipe} {idx : BitVec 19} {pages : List U32} {s : State} (hlisted : s.pagesFree pages = false) :
    exec (.plTailWrite lvl i idx pages) s = .next s := by
  change execPlTailWrite lvl i idx pages s = _
  exact if_pos (by rw [hlisted]; rfl)

/-! ### SLOT_READY (R121) -/

theorem compress_of_accepted {i : Nat} {x : RSlot} {st : XdcStream} (d : Dev) (more : List XdcStream) (h : x.accepts st = true) :
    d.compress i x (st :: more) = ({ x with stored := st.stored.toNat }, st.bytes, d) :=
  if_pos h

/-- A filling slot without a stream of its own is stored with the first stream that the comparison accepts. -/
theorem slotReady_of_accepted {s : State} {i : Nat} {x : RSlot} {st : XdcStream} (more : List XdcStream) (hopen : s.dev.openSlot i = some x)
    (hfilling : x.st = .filling) (hruns : s.dev.halted (rq i) = false) (hnew : x.stream = none) (hacc : x.accepts st = true) :
    s.slotReady i (st :: more) = s.slotStore i { x with stored := st.stored.toNat } st.bytes := by
  unfold State.slotReady
  rw [hopen]
  dsimp only
  rw [if_neg (by rw [hfilling, hruns]; decide)]
  split
  · next held =>
    rw [hnew] at held
    cases held
  · rw [compress_of_accepted _ _ hacc]

/-- The slot that holds a stream while it is written. -/
def RSlot.holding (x : RSlot) (stream : List Byte) : RSlot := { x with clen := stream.length, stream := some stream }

/-- A slot whose bytes fit the pages supplied, all of them in the pool, is complete once it is written. -/
theorem slotStore_of_fits {s : State} {i : Nat} {x : RSlot} {stream : List Byte}
    (hfits : ((x.holding stream).header i ++ stream).length ≤ s.dev.spaceFrom i (x.page, x.ofs))
    (hpages : (s.slotWrite 6 i x.page x.ofs (s.dev.rw i).bad
      ((padWord ((x.holding stream).header i ++ stream)).take (s.dev.spaceFrom i (x.page, x.ofs)))).2 = none) :
    ∃ u : State, Dev.Only (partsMask [.dram]) (fieldsMask rmwFields) s.dev u.dev ∧
      s.slotStore i x stream = u.slotComplete i (x.holding stream) ((x.holding stream).header i ++ stream) := by
  have hwritten := State.slotWrite_only 6 s i x.page x.ofs (s.dev.rw i).bad
    ((padWord ((x.holding stream).header i ++ stream)).take (s.dev.spaceFrom i (x.page, x.ofs)))
  change ∃ u : State, _ ∧ State.slotWritten (s.slotWrite 6 i x.page x.ofs (s.dev.rw i).bad
    ((padWord ((x.holding stream).header i ++ stream)).take (s.dev.spaceFrom i (x.page, x.ofs)))) i (x.holding stream) stream
    (s.dev.spaceFrom i (x.page, x.ofs)) = _
  generalize s.slotWrite 6 i x.page x.ofs (s.dev.rw i).bad _ = w at hpages hwritten ⊢
  refine ⟨w.1, hwritten.dev.mono (by decide) (by decide), ?_⟩
  unfold State.slotWritten
  rw [hpages]
  exact if_neg (Nat.not_lt.2 hfits)

theorem slotReady_gives {i : Pipe} {st : XdcStream} (more : List XdcStream) {x : RSlot} {s : State} (hopen : s.dev.openSlot i = some x)
    (hfilling : x.st = .filling) (hruns : s.dev.halted (rq i) = false) (hnew : x.stream = none) (hacc : x.accepts st = true)
    (harm : s.dev.flag .RW_SKIP_CTL_ARM i.val = false)
    (hfits : (RSlot.header { x with stored := st.stored.toNat, clen := st.bytes.length } i ++ st.bytes).length ≤ s.dev.spaceFrom i (x.page, x.ofs))
    (hpages : (s.slotWrite 6 i x.page x.ofs (s.dev.rw i).bad ((padWord (RSlot.header { x with stored := st.stored.toNat, clen := st.bytes.length } i
      ++ st.bytes)).take (s.dev.spaceFrom i (x.page, x.ofs)))).2 = none) :
    Gives (.slotReady i (st :: more)) s fun t =>
      (t.dev.rw i).band = none ∧ t.dev.rd .DMA_RHEAD_IDX (rq i) = (x.desc + 1) % s.dev.ringSize (rq i) % 2 ^ 19 ∧
      ∃ y ∈ (t.dev.rw i).slots, y.sseq = x.sseq ∧ y.st = .ready ∧ y.jn = x.jn ∧ y.line = x.line ∧ y.stored = st.stored.toNat := by
  have hready := slotReady_of_accepted more hopen hfilling hruns hnew hacc
  obtain ⟨u, hu, hstore⟩ := slotStore_of_fits (x := { x with stored := st.stored.toNat }) hfits hpages
  have hunarmed : (s.slotReady i (st :: more)).skipStep i = s.slotReady i (st :: more) :=
    skipStep_of_unarmed ((flag_of_only (State.slotReady_only s i (st :: more)).dev rfl i).trans harm)
  have hmem : x ∈ (u.dev.rw i).slots := by
    rw [rw_congr (hu.parts .rwy rfl)]
    exact List.mem_of_find?_eq_some hopen
  obtain ⟨hband, hhead, y, hy, rfl⟩ := slotComplete_eq u i (RSlot.holding { x with stored := st.stored.toNat } st.bytes) _ ⟨x, hmem, rfl⟩
  refine gives_next (t := (s.slotReady i (st :: more)).skipStep i) rfl ?_
  rw [hunarmed, hready, hstore]
  exact ⟨hband, hhead.trans (by rw [ringSize_of_only hu (by decide)]; rfl), _, hy, rfl, rfl, rfl, rfl, rfl⟩

/-! ### SLOT_READ_START (R116, R127) -/

theorem dropRetired_of_kept {l : List RSlot} (h : ∀ y ∈ l, y.st ≠ .retired) (q : Nat) : dropRetired l q = (l, q) := by
  cases l with
  | nil => rfl
  | cons y l => exact if_neg (h y (List.mem_cons_self ..))

/-- The page of the oldest slot left is where the pages in use begin. -/
theorem retire_readPage {s : State} {i : Nat} {x y : RSlot} {more : List RSlot} (h : ((s.retire i x).dev.rw i).slots = y :: more) :
    (s.retire i x).dev.rd .RW_PL_RD_IDX i = y.page % 2 ^ (fldSpec .RW_PL_RD_IDX).width := by
  unfold State.retire at h ⊢
  dsimp only at h ⊢
  rw [wr_rw] at h
  rw [Dev.rd_wr, if_pos ⟨rfl, rfl, rfl⟩, h]

/-- The oldest slot retired leaves the list to those behind it. -/
theorem retire_oldest {s : State} {i : Nat} {x : RSlot} {rest : List RSlot} (hslots : (s.dev.rw i).slots = x :: rest)
    (hrest : ∀ y ∈ rest, y.sseq ≠ x.sseq ∧ y.st ≠ .retired) :
    ((s.retire i x).dev.rw i).slots = rest ∧ ((s.retire i x).dev.rw i).readSeq = (x.sseq + 1) % 2 ^ 32 := by
  obtain ⟨hleft, hseq, -⟩ := retire_eq s i x
  have hmap : rest.map (fun y => if y.sseq = x.sseq then { x with st := .retired } else y) = rest :=
    (List.map_congr_left fun y hy => if_neg (hrest y hy).1).trans (List.map_id' rest)
  have hdrop : dropRetired ((x :: rest).map (fun y => if y.sseq = x.sseq then { x with st := .retired } else y)) (s.dev.rw i).readSeq =
      (rest, (x.sseq + 1) % 2 ^ 32) := by
    rw [List.map_cons, if_pos rfl, hmap]
    exact (if_pos rfl).trans (dropRetired_of_kept (fun y hy => (hrest y hy).2) _)
  rw [hslots, hdrop] at hleft hseq
  exact ⟨hleft, hseq⟩

/-- The oldest slot, READY, is retired once it is dropped or its lines are passed on, which leaves the runway's record alone. -/
theorem slotRead_retires {s : State} {i : Nat} {x : RSlot} {rest : List RSlot} (k : SlotChecks) (hslots : (s.dev.rw i).slots = x :: rest)
    (hready : x.st = .ready) (hgoes : s.dev.slotDropped i x = true ∨ s.dev.fifoRoom i x = true) :
    ∃ u : State, u.dev.rwy = s.dev.rwy ∧ s.slotRead i k = u.retire i x := by
  unfold State.slotRead
  rw [hslots]
  dsimp only
  rw [if_neg (not_not_intro hready)]
  split
  · exact ⟨s, rfl, rfl⟩
  · next hkept =>
    rw [if_neg (by rw [hgoes.resolve_left hkept]; decide)]
    refine ⟨_, ?_, rfl⟩
    refine ((forEach_only (List.range x.count) _ _ fun d l => Dev.passLine_only d i x (s.readSlot i x k) l).parts .rwy rfl).trans ?_
    split
    · exact Dev.raise_rwy _ _ _
    · rfl

theorem slotReadStart_gives {i : Pipe} (k : SlotChecks) {x : RSlot} {rest : List RSlot} {s : State} (hslots : (s.dev.rw i).slots = x :: rest)
    (hready : x.st = .ready) (hrest : ∀ y ∈ rest, y.sseq ≠ x.sseq ∧ y.st ≠ .retired)
    (hgoes : s.dev.slotDropped i x = true ∨ s.dev.fifoRoom i x = true) (harm : s.dev.flag .RW_SKIP_CTL_ARM i.val = false) :
    Gives (.slotReadStart i k) s fun t => (t.dev.rw i).slots = rest ∧ (t.dev.rw i).readSeq = (x.sseq + 1) % 2 ^ 32 ∧
      (∀ y more, rest = y :: more → t.dev.rd .RW_PL_RD_IDX i.val = y.page % 2 ^ (fldSpec .RW_PL_RD_IDX).width) := by
  obtain ⟨u, hrwy, hread⟩ := slotRead_retires k hslots hready hgoes
  have hunarmed : (s.slotRead i k).skipStep i = s.slotRead i k :=
    skipStep_of_unarmed ((flag_of_only (State.slotRead_only s i k).dev rfl i).trans harm)
  obtain ⟨hleft, hseq⟩ := retire_oldest ((congrArg Rwy.slots (rw_congr hrwy i)).trans hslots) hrest
  refine gives_next (t := (s.slotRead i k).skipStep i) rfl ?_
  rw [hunarmed, hread]
  exact ⟨hleft, hseq, fun y more hmore => retire_readPage (hleft.trans hmore)⟩

/-! ### Skips (R129) -/

theorem mem_retire {s : State} {i : Nat} {x y : RSlot} (h : y ∈ ((s.retire i x).dev.rw i).slots) : y.st = .retired ∨ y ∈ (s.dev.rw i).slots := by
  rw [(retire_eq s i x).1] at h
  obtain ⟨z, hz, rfl⟩ := List.mem_map.1 (mem_of_mem_dropRetired h)
  split
  · exact Or.inl rfl
  · exact Or.inr hz

theorem mem_retireAll {i : Nat} {y : RSlot} (l : List RSlot) : ∀ s : State, y ∈ ((l.foldl (fun s x => s.retire i x) s).dev.rw i).slots →
    y.st = .retired ∨ y ∈ (s.dev.rw i).slots := by
  induction l with
  | nil => exact fun _ h => Or.inr h
  | cons x l ih =>
    intro s h
    exact (ih _ h).elim Or.inl mem_retire

/-- No held line of job `jn` below `hi` is left in pipeline i's slots. -/
def Dev.NoneBelow (d : Dev) (i jn hi : Nat) : Prop := ∀ x ∈ (d.rw i).slots, x.st ≠ .retired → x.jn = jn → hi ≤ x.line

theorem noneBelow_retireCovered {s : State} {i jn hi : Nat} (h : s.dev.NoneBelow i jn hi) : (s.retireCovered i jn hi).dev.NoneBelow i jn hi :=
  fun y hy hheld => h y ((mem_retireAll _ s hy).resolve_left hheld) hheld

theorem loadSkip_fire (d : Dev) (i : Nat) : (d.loadSkip i).fire = d.fire := (Dev.loadSkip_only d i).parts .fire rfl

/-- An armed skip that has no line left below its bound leaves the skips that wait. -/
theorem skipStep_of_noneBelow {s : State} {i : Nat} (harm : s.dev.flag .RW_SKIP_CTL_ARM i = true)
    (hnone : s.dev.NoneBelow i (s.dev.rd .RW_SKIP_JN_JN i) (s.dev.skipHi i)) :
    ∀ x ∈ (s.skipStep i).dev.fire.skips, x ≠ (i, s.dev.rd .RW_SKIP_JN_JN i, s.dev.rd .RW_SKIP_LINE_LINE i) := by
  have hline := (State.retireCovered_only s i (s.dev.rd .RW_SKIP_JN_JN i) (s.dev.skipHi i)).dev.rd .RW_SKIP_LINE_LINE i 0 rfl
  have hleft := noneBelow_retireCovered hnone
  unfold State.skipStep
  rw [if_neg (by rw [harm]; decide)]
  dsimp only
  generalize s.retireCovered i _ _ = u at hline hleft ⊢
  rw [if_neg]
  · dsimp only
    rw [loadSkip_fire, hline]
    intro x hx
    simpa using (List.mem_filter.1 hx).2
  · intro hany
    obtain ⟨x, hx, hbelow⟩ := List.any_eq_true.1 hany
    simp only [Bool.and_eq_true, decide_eq_true_eq] at hbelow
    obtain ⟨⟨hheld, hjn⟩, hlt⟩ := hbelow
    exact Nat.not_lt.2 (hleft x hx hheld hjn) hlt

/-- An armed skip waits for a slot with a line below its bound that it does not cover wholly. -/
theorem skipStep_of_oneBelow {s : State} {i : Nat} {x : RSlot} (hslots : (s.dev.rw i).slots = [x]) (hheld : x.st ≠ .retired)
    (hjn : x.jn = s.dev.rd .RW_SKIP_JN_JN i) (hlt : x.line < s.dev.skipHi i) (hstays : x.st ≠ .ready ∨ s.dev.skipHi i < x.line + x.count)
    (harm : s.dev.flag .RW_SKIP_CTL_ARM i = true) : s.skipStep i = s := by
  have hcovered : s.retireCovered i (s.dev.rd .RW_SKIP_JN_JN i) (s.dev.skipHi i) = s := by
    have hfilter : [x].filter (fun x => decide (x.st = .ready) && decide (x.jn = s.dev.rd .RW_SKIP_JN_JN i) &&
        decide (x.line + x.count ≤ s.dev.skipHi i)) = [] := by
      rw [List.filter_eq_nil_iff]
      rintro y hy hcov
      rw [List.mem_singleton.1 hy] at hcov
      simp only [Bool.and_eq_true, decide_eq_true_eq] at hcov
      exact hstays.elim (· hcov.1.1) (Nat.not_lt.2 hcov.2)
    unfold State.retireCovered
    rw [hslots, hfilter]
    rfl
  unfold State.skipStep
  rw [if_neg (by rw [harm]; decide)]
  dsimp only
  rw [hcovered, hslots]
  exact if_pos (by simp [hheld, hjn, hlt])

/-- The block with the skip of pipeline i armed and the lines dropped that its bar has of it. -/
def Dev.skipArmed (d : Dev) (i : Nat) : Dev := (d.wr .RW_SKIP_CTL_ARM 1 i).dropBarLines i (d.rd .RW_SKIP_JN_JN i) (d.skipHi i)

theorem skipArmed_rwy (d : Dev) (i : Nat) : (d.skipArmed i).rwy = d.rwy := (Dev.dropBarLines_only _ _ _ _).parts .rwy rfl

theorem skipArmed_fields (d : Dev) (i : Nat) : (d.skipArmed i).rd .RW_SKIP_JN_JN i = d.rd .RW_SKIP_JN_JN i ∧
    (d.skipArmed i).rd .RW_SKIP_LINE_LINE i = d.rd .RW_SKIP_LINE_LINE i ∧ (d.skipArmed i).flag .RW_SKIP_CTL_ARM i = true := by
  have honly := Dev.dropBarLines_only (d.wr .RW_SKIP_CTL_ARM 1 i) i (d.rd .RW_SKIP_JN_JN i) (d.skipHi i)
  refine ⟨(honly.regs _ rfl i 0).trans ?_, (honly.regs _ rfl i 0).trans ?_, (flag_of_only honly rfl i).trans ?_⟩
  · rw [Dev.rd_wr, if_neg (by simp)]
  · rw [Dev.rd_wr, if_neg (by simp)]
  · exact flag_true (by rw [rd_wr_self _ _ _ _ _ (by decide)]; decide)

theorem skipArmed_hi (d : Dev) (i : Nat) : (d.skipArmed i).skipHi i = d.skipHi i := by
  unfold Dev.skipHi
  obtain ⟨-, hline, -⟩ := skipArmed_fields d i
  rw [hline]

theorem skipArm_exec {lvl : Lvl} {i : Pipe} {s : State} (hmay : s.dev.allowed 0 (0x50102C + 64 * i.val) lvl.val true = true)
    (hdom : s.dev.domOn .dose = true) : exec (.skipArm lvl i) s = .next (State.skipStep { s with dev := s.dev.skipArmed i } i) := by
  change execSkipArm lvl i s = _
  exact if_pos (by rw [hmay, hdom]; rfl)

theorem skipArm_ends {lvl : Lvl} {i : Pipe} {s : State} (hmay : s.dev.allowed 0 (0x50102C + 64 * i.val) lvl.val true = true)
    (hdom : s.dev.domOn .dose = true) (hnone : s.dev.NoneBelow i (s.dev.rd .RW_SKIP_JN_JN i) (s.dev.skipHi i)) :
    Gives (.skipArm lvl i) s fun t => ∀ x ∈ t.dev.fire.skips, x ≠ (i.val, s.dev.rd .RW_SKIP_JN_JN i, s.dev.rd .RW_SKIP_LINE_LINE i) := by
  obtain ⟨hjn, hline, harm⟩ := skipArmed_fields s.dev i
  refine gives_next (skipArm_exec hmay hdom) ?_
  rw [← hjn, ← hline]
  refine skipStep_of_noneBelow harm ?_
  dsimp only
  rw [hjn, skipArmed_hi]
  intro x hx
  rw [rw_congr (skipArmed_rwy s.dev i)] at hx
  exact hnone x hx

theorem skipArm_waits {lvl : Lvl} {i : Pipe} {x : RSlot} {s : State} (hmay : s.dev.allowed 0 (0x50102C + 64 * i.val) lvl.val true = true)
    (hdom : s.dev.domOn .dose = true) (hslots : (s.dev.rw i).slots = [x]) (hheld : x.st ≠ .retired) (hjn : x.jn = s.dev.rd .RW_SKIP_JN_JN i)
    (hlt : x.line < s.dev.skipHi i) (hstays : x.st ≠ .ready ∨ s.dev.skipHi i < x.line + x.count) :
    Gives (.skipArm lvl i) s fun t => t.dev.flag .RW_SKIP_CTL_ARM i.val = true := by
  obtain ⟨hsame, -, harm⟩ := skipArmed_fields s.dev i
  refine gives_next (skipArm_exec hmay hdom) ?_
  rw [skipStep_of_oneBelow (s := { s with dev := s.dev.skipArmed i }) (x := x) ?_ hheld (hjn.trans hsame.symm) ?_ ?_ harm]
  · exact harm
  · exact (congrArg Rwy.slots (rw_congr (skipArmed_rwy s.dev i) i)).trans hslots
  · exact (skipArmed_hi s.dev i).symm ▸ hlt
  · exact (skipArmed_hi s.dev i).symm ▸ hstays

/-- Settles O32: each clause from what the command does under its conditions; with no skip armed the step of the skips that follows SLOT_READY
and SLOT_READ_START does nothing, and an armed one ends or waits by the slots left below its bound. -/
theorem runwayTakesEffect : Obligations.RunwayTakesEffect :=
  ⟨fun _ _ idx _ s hr => ⟨plTailWrite_of_free idx hr, fun hlisted => gives_next (plTailWrite_of_listed hlisted) rfl⟩,
    fun i b a bs s hband hfull hidle hdesc hsound hspace => by
      obtain ⟨hdosed, hheld, hsseq, hslots⟩ := slotStart_eq s i b a bs hband hfull hidle hdesc hsound hspace
      exact gives_next (t := s.slotStart i) rfl ⟨hdosed, hheld, hsseq, _, hslots, rfl, rfl, rfl, rfl⟩,
    fun _ _ more _ _ => slotReady_gives more,
    fun _ k _ _ _ => slotReadStart_gives k,
    fun _ _ _ hmay hdom => ⟨skipArm_ends hmay hdom, fun _ => skipArm_waits hmay hdom⟩⟩

end Sys2Proof.Machine

/-! Frames of the web encoder, the send points and the lanes, read off the masks that `exec_only` gives each command. -/
namespace Sys2Proof.Machine
-- The masks of register fields evaluate as powers of two up to the last field's number.
set_option exponentiation.threshold 600

/-- Settles O57: in each clause the parts and fields listed cover the masks of its command. -/
theorem framesOfTheWebAndLanes : Obligations.FramesOfTheWebAndLanes := by
  unfold Obligations.FramesOfTheWebAndLanes
  refine ⟨fun _ _ _ _ h => ?_, fun _ _ _ h => ?_, fun _ _ h => ?_, fun _ _ _ h => ?_, fun _ _ h => ?_, fun _ _ _ h => ?_, fun _ _ h => ?_,
    fun _ _ _ _ _ h => ?_, fun _ _ _ h => ?_, fun _ _ _ h => ?_, fun _ _ _ h => ?_, fun _ _ _ _ h => ?_, fun _ _ _ h => ?_,
    fun _ _ _ _ h => ?_, fun _ _ _ h => ?_, fun _ _ _ h => ?_, fun _ _ _ _ h => ?_, fun _ _ h => ?_, fun _ _ _ _ h => ?_,
    fun _ _ _ _ _ h => ?_, fun _ _ _ h => ?_, fun _ _ _ _ h => ?_, fun _ _ _ _ h => ?_, fun _ _ _ _ h => ?_, fun _ _ _ _ h => ?_,
    fun _ _ _ h => ?_, fun _ _ _ _ _ h => ?_, fun _ _ _ _ _ h => ?_⟩
  all_goals exact exec_unchanged h (by simp only [cmdParts]; rfl) (by simp only [cmdFields]; rfl)

end Sys2Proof.Machine

/-! The index of the web encoder (06, R143 to R145): the first index, one within `TOL`, and one beyond it. -/
namespace Sys2Proof.Machine
set_option exponentiation.threshold 600

theorem addSat_rd (d : Dev) (f : Fld) (n i j : Nat) :
    (d.addSat f n i j).rd f i j = min (d.rd f i j + n) (2 ^ (fldSpec f).width - 1) := by
  refine rd_wr_self _ _ _ _ _ ?_
  have : 0 < 2 ^ (fldSpec f).width := Nat.two_pow_pos _
  omega

theorem addSat_rd_ne (d : Dev) {f g : Fld} (n i j k l : Nat) (h : g ≠ f) : (d.addSat f n i j).rd g k l = d.rd g k l :=
  (Dev.rd_wr _ _ _ _ _ _ _ _).trans (if_neg fun e => h e.1)

theorem inc_rd_ne (d : Dev) {f g : Fld} (i j k l : Nat) (h : g ≠ f) : (d.inc f i j).rd g k l = d.rd g k l := addSat_rd_ne d 1 i j k l h

/-- An index edge counts with `IDXEN` set, when it follows the direction of the last count (R143). -/
theorem encoderIndex_gives {level : Bool} {s : State} {p : State → Prop} (hen : s.dev.flag .FIRE_ENC_IDXEN = true)
    (hdir : level ≠ s.dev.flag .FIRE_SPDSTAT_DIR) (hp : p { s with dev := s.dev.index }) : Gives (.encoderIndex level) s p := by
  have hcounts : (s.dev.flag .FIRE_ENC_IDXEN && level != s.dev.flag .FIRE_SPDSTAT_DIR) = true := by simp [hen, hdir]
  refine gives_act rfl ?_
  rwa [if_pos hcounts]

theorem goodIndex_rd (d : Dev) (f : Fld) (i j : Nat) : d.goodIndex.rd f i j = d.rd f i j := rfl

/-- The count stands as the last index seen. -/
def Dev.indexSeen (d : Dev) : Dev := { d with fire := { d.fire with lastIdx := d.fire.cnt } }

/-- The reference follows an index after the first, and `DEV` names its deviation. -/
def Dev.indexNoted (d : Dev) : Dev := (d.indexSeen.setXref d.fire.cnt).wr .FIRE_IDXDEV_DEV (satSigned 16 d.indexDev)

theorem index_first {d : Dev} (hset : d.flag .FIRE_IDXREF_HI_SET = false) :
    d.index = ((d.indexSeen.setXref d.fire.cnt).wr .FIRE_IDXREF_HI_SET 1).goodIndex :=
  if_pos (show (!d.flag .FIRE_IDXREF_HI_SET) = true by rw [hset]; rfl)

theorem indexNoted_only (d : Dev) :
    Dev.Only (partsMask [.fire]) (fieldsMask [.FIRE_IDXREF_LO_X, .FIRE_IDXREF_HI_X, .FIRE_IDXDEV_DEV]) d d.indexNoted :=
  Dev.Only.wr _ _ _ _ rfl (Dev.Only.step (Dev.setXref_only _ _) rfl rfl (Dev.Only.with_fire _ rfl (Dev.Only.refl _ _ d)))

theorem indexNoted_xref (d : Dev) : d.indexNoted.xref = d.fire.cnt :=
  (xref_congr (by simp [Dev.indexNoted]) (by simp [Dev.indexNoted])).trans (xref_set d.indexSeen d.fire.cnt)

theorem indexNoted_dev (d : Dev) : d.indexNoted.rd .FIRE_IDXDEV_DEV = satSigned 16 d.indexDev % 2 ^ 16 :=
  (Dev.rd_wr _ _ _ _ _ _ _ _).trans (if_pos ⟨rfl, rfl, rfl⟩)

theorem index_later {d : Dev} (hset : d.flag .FIRE_IDXREF_HI_SET = true) :
    d.index = if d.indexDev.natAbs ≤ d.rd .FIRE_IDXCFG_TOL then (d.indexNoted.addSat .FIRE_SLIPSUM_SUM d.indexDev.natAbs).goodIndex
      else d.indexNoted.slip d.indexDev := by
  have htol : d.indexNoted.rd .FIRE_IDXCFG_TOL = d.rd .FIRE_IDXCFG_TOL := (indexNoted_only d).rd _ _ _ rfl
  rw [← htol]
  exact if_neg (show ¬(!d.flag .FIRE_IDXREF_HI_SET) = true by rw [hset]; decide)

/-- R144: within `TOL` the slip sum grows by the deviation. -/
theorem index_within {d : Dev} (hset : d.flag .FIRE_IDXREF_HI_SET = true) (htol : d.indexDev.natAbs ≤ d.rd .FIRE_IDXCFG_TOL) :
    d.index = (d.indexNoted.addSat .FIRE_SLIPSUM_SUM d.indexDev.natAbs).goodIndex := (index_later hset).trans (if_pos htol)

/-- R145: beyond `TOL` the index is a slip. -/
theorem index_beyond {d : Dev} (hset : d.flag .FIRE_IDXREF_HI_SET = true) (htol : d.rd .FIRE_IDXCFG_TOL < d.indexDev.natAbs) :
    d.index = d.indexNoted.slip d.indexDev := (index_later hset).trans (if_neg (by omega))

theorem within_slipsum (d : Dev) : (d.indexNoted.addSat .FIRE_SLIPSUM_SUM d.indexDev.natAbs).goodIndex.rd .FIRE_SLIPSUM_SUM =
    min (d.rd .FIRE_SLIPSUM_SUM + d.indexDev.natAbs) (2 ^ (fldSpec .FIRE_SLIPSUM_SUM).width - 1) := by
  have hsum : d.indexNoted.rd .FIRE_SLIPSUM_SUM = d.rd .FIRE_SLIPSUM_SUM := (indexNoted_only d).rd _ _ _ rfl
  rw [goodIndex_rd, addSat_rd, hsum]

theorem within_xref (d : Dev) : (d.indexNoted.addSat .FIRE_SLIPSUM_SUM d.indexDev.natAbs).goodIndex.xref = d.fire.cnt := by
  refine (xref_congr (d := d.indexNoted) ?_ ?_).trans (indexNoted_xref d) <;> rw [goodIndex_rd, addSat_rd_ne _ _ _ _ _ _ (by decide)]

/-- Settles O25: the block after such an index is that of `index_within`. -/
theorem indexWithinTolerance : Obligations.IndexWithinTolerance := by
  unfold Obligations.IndexWithinTolerance
  refine ⟨rfl, rfl, fun level s hen hdir hset htol => encoderIndex_gives hen hdir ?_⟩
  rw [index_within hset htol]
  have honly : Dev.Only (partsMask [.fire])
      (fieldsMask [.FIRE_IDXREF_LO_X, .FIRE_IDXREF_HI_X, .FIRE_IDXDEV_DEV, .FIRE_SLIPSUM_SUM]) s.dev
      (s.dev.indexNoted.addSat .FIRE_SLIPSUM_SUM s.dev.indexDev.natAbs).goodIndex :=
    Dev.Only.step (Dev.goodIndex_only _) rfl rfl (Dev.Only.addSat _ _ _ _ rfl ((indexNoted_only _).mono rfl rfl))
  exact ⟨within_xref _, within_slipsum _, rfl, (State.Only.mkDev honly (State.Only.refl _ _ s)).unchanged rfl
    ((Nat.and_self _).trans rfl)⟩

end Sys2Proof.Machine

/-! The web encoder's other commands (06, R131 to R147): counts, standstill, slips, a missing index and line faults. -/
namespace Sys2Proof.Machine
set_option exponentiation.threshold 600

/-! ### Slips (R145 to R147) -/

/-- What a slip at any count sets: `SLIP` and the count of slips. -/
theorem slip_counted (d : Dev) (dev : Int) : (d.slip dev).rd .FIRE_STAT_SLIP = 1 ∧
    (d.slip dev).rd .FIRE_SLIPCNT_SLIPS = min (d.rd .FIRE_SLIPCNT_SLIPS + 1) (2 ^ (fldSpec .FIRE_SLIPCNT_SLIPS).width - 1) := by
  unfold Dev.slip
  constructor
  · rw [slip_keep _ _ _ _ _ (by decide), Dev.raise_rd _ _ _ _ _ _ (by decide) (by decide), inc_rd_ne _ _ _ _ _ (by decide)]
    exact rd_wr_self _ _ _ _ _ (by decide)
  · rw [slip_keep _ _ _ _ _ (by decide), Dev.raise_rd _ _ _ _ _ _ (by decide) (by decide), inc_rd, Dev.rd_wr, if_neg (by decide)]

/-- A slip leaves the reference and the count where they are. -/
theorem slip_xref (d : Dev) (dev : Int) : (d.slip dev).xref = d.xref :=
  xref_congr ((Dev.slip_only d dev).rd _ _ _ rfl) ((Dev.slip_only d dev).rd _ _ _ rfl)

/-- By force, a slip's window requests a stop of the press controller. -/
theorem slipWindow_force (d : Dev) : (d.slipWindow true).rd .FIRE_STAT_SLIPSTOP = 1 ∧
    bitOf ((d.slipWindow true).rd .AON_STATE_STOPREQ) StopBit.slip.num = true := by
  unfold Dev.slipWindow
  extract_lets reach evs fire e
  rw [if_pos (show (true || decide (max 1 (e.rd .FIRE_IDXCFG_SLIPN) ≤ evs.length)) = true from rfl)]
  refine ⟨?_, reqStop_set _ _⟩
  rw [Dev.requestStop_rd _ _ _ _ _ (by decide) (by decide) (by decide), Dev.raise_rd _ _ _ _ _ _ (by decide) (by decide)]
  exact rd_wr_self _ _ _ _ _ (by decide)

/-! ### The index -/

theorem index_xref (d : Dev) : d.index.xref = d.fire.cnt := by
  cases hset : d.flag .FIRE_IDXREF_HI_SET with
  | false =>
    rw [index_first hset]
    refine (xref_congr (d := d.indexSeen.setXref d.fire.cnt) ?_ ?_).trans (xref_set _ _) <;>
      rw [goodIndex_rd, Dev.rd_wr, if_neg (by decide)]
  | true =>
    by_cases htol : d.indexDev.natAbs ≤ d.rd .FIRE_IDXCFG_TOL
    · rw [index_within hset htol, within_xref]
    · rw [index_beyond hset (by omega), slip_xref, indexNoted_xref]

theorem index_set {d : Dev} (hset : d.flag .FIRE_IDXREF_HI_SET = false) : d.index.flag .FIRE_IDXREF_HI_SET = true := by
  rw [index_first hset]
  refine flag_true ?_
  rw [goodIndex_rd, rd_wr_self _ _ _ _ _ (by decide)]
  decide

theorem index_dev {d : Dev} (hset : d.flag .FIRE_IDXREF_HI_SET = true) :
    d.index.rd .FIRE_IDXDEV_DEV = satSigned 16 d.indexDev % 2 ^ 16 := by
  rw [← indexNoted_dev]
  by_cases htol : d.indexDev.natAbs ≤ d.rd .FIRE_IDXCFG_TOL
  · rw [index_within hset htol, goodIndex_rd, addSat_rd_ne _ _ _ _ _ _ (by decide)]
  · rw [index_beyond hset (by omega)]
    exact (Dev.slip_only _ _).rd _ _ _ rfl

theorem within_slips (d : Dev) :
    (d.indexNoted.addSat .FIRE_SLIPSUM_SUM d.indexDev.natAbs).goodIndex.rd .FIRE_SLIPCNT_SLIPS = d.rd .FIRE_SLIPCNT_SLIPS := by
  rw [goodIndex_rd, addSat_rd_ne _ _ _ _ _ _ (by decide)]
  exact (indexNoted_only d).rd _ _ _ rfl

theorem beyond_slips (d : Dev) : (d.indexNoted.slip d.indexDev).rd .FIRE_STAT_SLIP = 1 ∧
    (d.indexNoted.slip d.indexDev).rd .FIRE_SLIPCNT_SLIPS =
      min (d.rd .FIRE_SLIPCNT_SLIPS + 1) (2 ^ (fldSpec .FIRE_SLIPCNT_SLIPS).width - 1) := by
  have hkeep : d.indexNoted.rd .FIRE_SLIPCNT_SLIPS = d.rd .FIRE_SLIPCNT_SLIPS := (indexNoted_only d).rd _ _ _ rfl
  rw [← hkeep]
  exact slip_counted _ _

/-! ### Standstill (R141) -/

/-- The stop requests made clear, with a STATUS where one stood. -/
def Dev.dropStops (d : Dev) : Dev := if d.rd .AON_STATE_STOPREQ = 0 then d else (d.wr .AON_STATE_STOPREQ 0).sendStatus

theorem dropStops_only (d : Dev) : Dev.Only (partsMask [.xpp, .out]) (fieldsMask [.AON_STATE_STOPREQ]) d d.dropStops := by
  unfold Dev.dropStops
  split
  · exact Dev.Only.refl _ _ d
  · exact Dev.Only.step (Dev.sendStatus_only _) rfl (Nat.zero_and _) (Dev.Only.wr _ _ _ _ rfl (Dev.Only.refl _ _ d))

theorem dropStops_stopreq (d : Dev) : d.dropStops.rd .AON_STATE_STOPREQ = 0 := by
  unfold Dev.dropStops
  split
  · assumption
  · rw [(Dev.sendStatus_only _).rd _ _ _ (Nat.zero_testBit _)]
    exact rd_wr_self _ _ _ _ _ (by decide)

/-- The speed registers of a web that stands still. -/
def Dev.stopped (d : Dev) : Dev := ((d.wr .FIRE_SPDSTAT_STATUS 0).wr .FIRE_ACCEL_A 0).refreshSpeed

theorem stopped_rd (d : Dev) : d.stopped.rd .FIRE_SPDSTAT_STATUS = 0 ∧ d.stopped.rd .FIRE_ACCEL_A = 0 := by
  unfold Dev.stopped
  rw [(Dev.refreshSpeed_only _).rd _ _ _ rfl, (Dev.refreshSpeed_only _).rd _ _ _ rfl]
  exact ⟨by rw [Dev.rd_wr, if_neg (by decide)]; exact rd_wr_self _ _ _ _ _ (by decide), rd_wr_self _ _ _ _ _ (by decide)⟩

/-- The timestamps of the counts are forgotten. -/
def Dev.timesGone (d : Dev) : Dev := { d with fire := { d.fire with times := [] } }

/-- The standstill is reported. -/
def Dev.stillReported (d : Dev) : Dev := d.stopped.timesGone.raise Ev.ENC_STANDSTILL d.stopped.timesGone.cAndF

theorem stillReported_rd (d : Dev) {f : Fld} (hpend : f ≠ .AON_EVPEND_PEND) (hlost : f ≠ .AON_EVLOST_N) :
    d.stillReported.rd f = d.stopped.rd f :=
  (Dev.raise_rd _ _ _ _ _ _ hpend hlost).trans (rd_fire _ _ _ _ _)

/-- What was sent is withdrawn where the status was VALID. -/
def Dev.stillWithdrawn (d : Dev) : Dev := if d.spd = 2 then d.stillReported.loseTimes else d.stillReported

theorem stillWithdrawn_rd (d : Dev) : d.stillWithdrawn.rd .FIRE_SPDSTAT_STATUS = 0 ∧ d.stillWithdrawn.rd .FIRE_ACCEL_A = 0 := by
  obtain ⟨hstatus, haccel⟩ := stopped_rd d
  rw [← stillReported_rd d (by decide) (by decide)] at hstatus haccel
  unfold Dev.stillWithdrawn
  split
  · rw [(Dev.loseTimes_only _).rd _ _ _ rfl, (Dev.loseTimes_only _).rd _ _ _ rfl]
    exact ⟨hstatus, haccel⟩
  · exact ⟨hstatus, haccel⟩

theorem standstill_eq {d : Dev} (h : d.spd ≠ 0) : d.standstill = (d.stillWithdrawn.clearHold .reversal).dropStops := by
  unfold Dev.stillWithdrawn Dev.stillReported Dev.timesGone Dev.stopped Dev.dropStops
  exact if_neg h

theorem standstill_clears {d : Dev} (h : d.spd ≠ 0) : d.standstill.rd .FIRE_SPDSTAT_STATUS = 0 ∧ d.standstill.rd .FIRE_ACCEL_A = 0 ∧
    d.standstill.held .reversal = false ∧ d.standstill.rd .AON_STATE_STOPREQ = 0 := by
  obtain ⟨hstatus, haccel⟩ := stillWithdrawn_rd d
  rw [standstill_eq h]
  refine ⟨?_, ?_, ?_, dropStops_stopreq _⟩
  · rw [(dropStops_only _).rd _ _ _ rfl, (Dev.clearHold_only _ _).rd _ _ _ rfl, hstatus]
  · rw [(dropStops_only _).rd _ _ _ rfl, (Dev.clearHold_only _ _).rd _ _ _ rfl, haccel]
  · unfold Dev.held
    rw [(dropStops_only _).rd _ _ _ rfl]
    exact clearHold_held _ .reversal

/-- ENC_STANDSTILL of a web that is not at a standstill, `STILL` after the last count. -/
theorem encStandstill_clears {s : State} (hspd : s.dev.spd ≠ 0)
    (hstill : s.dev.passed s.dev.fire.lastT (1000000 * s.dev.rd .FIRE_SPDCFG_STILL) = true) : Gives .encStandstill s fun t =>
    t.dev.rd .FIRE_SPDSTAT_STATUS = 0 ∧ t.dev.rd .FIRE_ACCEL_A = 0 ∧ t.dev.held .reversal = false ∧ t.dev.rd .AON_STATE_STOPREQ = 0 := by
  refine gives_act (show exec .encStandstill s = execEncStandstill s from rfl) ?_
  rw [if_pos hstill]
  exact standstill_clears hspd

/-! ### A missing index (R146) and line faults (R133) -/

/-- The block as a missing index is found, before its slip. -/
def Dev.indexMissed (d : Dev) : Dev :=
  (d.indexSeen.wr .FIRE_STAT_NOIDX 1).raise Ev.ENC_NOINDEX (le 8 d.fire.cnt.toNat ++ le 8 d.indexSeen.xref.toNat)

theorem indexMissed_rd (d : Dev) {f : Fld} (h : f ∉ [Fld.FIRE_STAT_NOIDX, .AON_EVPEND_PEND, .AON_EVLOST_N]) :
    d.indexMissed.rd f = d.rd f := by
  simp only [List.mem_cons, List.not_mem_nil, or_false, not_or] at h
  obtain ⟨hnoidx, hpend, hlost⟩ := h
  unfold Dev.indexMissed
  rw [Dev.raise_rd _ _ _ _ _ _ hpend hlost, Dev.rd_wr, if_neg fun e => hnoidx e.1]
  rfl

theorem indexMissed_noidx (d : Dev) : d.indexMissed.rd .FIRE_STAT_NOIDX = 1 := by
  unfold Dev.indexMissed
  rw [Dev.raise_rd _ _ _ _ _ _ (by decide) (by decide)]
  exact rd_wr_self _ _ _ _ _ (by decide)

theorem encNoindex_exec {s : State} (hen : s.dev.flag .FIRE_ENC_IDXEN = true)
    (hfar : s.dev.rd .FIRE_CPR_CPR + 16 * s.dev.rd .FIRE_IDXCFG_TOL + 16 ≤ (pdiff s.dev.fire.cnt s.dev.fire.lastIdx).natAbs) :
    exec .encNoindex s = .next { s with dev := s.dev.indexMissed.slip s.dev.indexMissed.indexDev } := by
  have hcounts : (s.dev.flag .FIRE_ENC_IDXEN && decide (s.dev.rd .FIRE_CPR_CPR + 16 * s.dev.rd .FIRE_IDXCFG_TOL + 16 ≤
      (pdiff s.dev.fire.cnt s.dev.fire.lastIdx).natAbs)) = true := by simp [hen, hfar]
  show execEncNoindex s = _
  unfold execEncNoindex State.act Dev.indexMissed Dev.indexSeen
  dsimp only
  rw [if_pos hcounts]

/-- ENC_NOINDEX once C has gone far enough past the last index. -/
theorem encNoindex_slips {s : State} (hen : s.dev.flag .FIRE_ENC_IDXEN = true)
    (hfar : s.dev.rd .FIRE_CPR_CPR + 16 * s.dev.rd .FIRE_IDXCFG_TOL + 16 ≤ (pdiff s.dev.fire.cnt s.dev.fire.lastIdx).natAbs) :
    Gives .encNoindex s fun t => t.dev.rd .FIRE_STAT_NOIDX = 1 ∧ t.dev.rd .FIRE_STAT_SLIP = 1 ∧ t.dev.xref = s.dev.xref ∧
      t.dev.rd .FIRE_SLIPCNT_SLIPS = min (s.dev.rd .FIRE_SLIPCNT_SLIPS + 1) (2 ^ (fldSpec .FIRE_SLIPCNT_SLIPS).width - 1) := by
  obtain ⟨hslip, hslips⟩ := slip_counted s.dev.indexMissed s.dev.indexMissed.indexDev
  rw [indexMissed_rd _ (by decide)] at hslips
  have hnoidx := ((Dev.slip_only s.dev.indexMissed s.dev.indexMissed.indexDev).rd .FIRE_STAT_NOIDX 0 0 rfl).trans (indexMissed_noidx _)
  have hxref := (slip_xref s.dev.indexMissed s.dev.indexMissed.indexDev).trans
    (xref_congr (indexMissed_rd _ (by decide)) (indexMissed_rd _ (by decide)))
  refine gives_next (encNoindex_exec hen hfar) ?_
  dsimp only
  exact ⟨hnoidx, hslip, hxref, hslips⟩

/-- A line fault in RS-422 mode with `LINECHK` 1 is flagged, and a stop requested (R133). -/
theorem encLine_faults {which : EncInput} {s : State} (hmode : s.dev.flag .FIRE_ENC_MODE = false)
    (hcheck : s.dev.flag .FIRE_ENC_LINECHK = true) : Gives (.encLine which) s fun t =>
    t.dev.rd .FIRE_STAT_LINE = 1 ∧ t.dev.rd .FIRE_STAT_SLIPSTOP = 1 ∧ bitOf (t.dev.rd .AON_STATE_STOPREQ) StopBit.slip.num = true := by
  have hruns : ¬(s.dev.flag .FIRE_ENC_MODE || !s.dev.flag .FIRE_ENC_LINECHK) = true := by simp [hmode, hcheck]
  refine gives_act (show exec (.encLine which) s = execEncLine which s from rfl) ?_
  dsimp only
  rw [if_neg hruns]
  refine ⟨?_, slipWindow_force _⟩
  rw [(Dev.slipWindow_only _ _).rd _ _ _ rfl, (Dev.spoilSlip_only _).rd _ _ _ rfl, Dev.raise_rd _ _ _ _ _ _ (by decide) (by decide)]
  exact rd_wr_self _ _ _ _ _ (by decide)

/-! ### Counts (R131) -/

/-- No change of A and B changes nothing else. -/
theorem encoder_same {a b : Bool} {s : State} (hstep : (quadIndex a b + 4 - quadIndex s.dev.fire.a s.dev.fire.b) % 4 = 0) :
    (s.dev.encoder a b).fire = { s.dev.fire with a := a, b := b } ∧ Unchanged [Part.fire] [] s { s with dev := s.dev.encoder a b } := by
  rw [enc_0 _ _ _ hstep]
  have honly : Dev.Only (partsMask [.fire]) 0 s.dev { s.dev with fire := { s.dev.fire with a := a, b := b } } :=
    Dev.Only.with_fire _ rfl (Dev.Only.refl _ _ _)
  exact ⟨rfl, (State.Only.mkDev honly (State.Only.refl _ _ s)).unchanged rfl (Nat.zero_and _)⟩

/-- Two steps at once are an illegal transition. -/
theorem encoder_illegal {a b : Bool} {d : Dev} (hstep : (quadIndex a b + 4 - quadIndex d.fire.a d.fire.b) % 4 = 2) :
    (d.encoder a b).fire.cnt = d.fire.cnt ∧ (d.encoder a b).rd .FIRE_STAT_ILLEGAL = 1 ∧
      (d.encoder a b).rd .FIRE_SLIPCNT_ILLEGAL = min (d.rd .FIRE_SLIPCNT_ILLEGAL + 1) (2 ^ (fldSpec .FIRE_SLIPCNT_ILLEGAL).width - 1) ∧
      (d.encoder a b).rd .FIRE_SLIPSUM_SUM = min (d.rd .FIRE_SLIPSUM_SUM + 2) (2 ^ (fldSpec .FIRE_SLIPSUM_SUM).width - 1) ∧
      (d.encoder a b).evPending Ev.ENC_ILLEGAL := by
  have h := illegal_eq { d with fire := { d.fire with a := a, b := b } }
  rw [enc_2 _ _ _ hstep]
  simpa only [rd_fire] using h

/-- One step counts, with `FIRE_CTL.DIR` turned. -/
theorem encoder_counts {a b : Bool} {d : Dev} {step : Nat} (hstep : (quadIndex a b + 4 - quadIndex d.fire.a d.fire.b) % 4 = step)
    (hone : step = 1 ∨ step = 3) : (d.encoder a b).fire.travel = d.fire.travel + 1 ∧
      (d.encoder a b).fire.cnt = (if (decide (step = 3) != d.flag .FIRE_CTL_DIR) then d.fire.cnt - 1 else d.fire.cnt + 1) := by
  obtain ⟨e, hcnt, htravel, heq⟩ := enc_1 d a b step hstep hone
  obtain ⟨hcnt', htravel'⟩ := count_fk e (decide (step = 3) != d.flag .FIRE_CTL_DIR)
  rw [heq, hcnt', htravel', hcnt, htravel]
  exact ⟨rfl, rfl⟩

/-- ENCODER_INDEX of an edge that counts. -/
theorem encoderIndex_follows {level : Bool} {s : State} (hen : s.dev.flag .FIRE_ENC_IDXEN = true)
    (hdir : level ≠ s.dev.flag .FIRE_SPDSTAT_DIR) : Gives (.encoderIndex level) s fun t =>
    t.dev.xref = s.dev.fire.cnt ∧ (s.dev.flag .FIRE_IDXREF_HI_SET = false → t.dev.flag .FIRE_IDXREF_HI_SET = true) ∧
    (s.dev.flag .FIRE_IDXREF_HI_SET = true →
      t.dev.rd .FIRE_IDXDEV_DEV = satSigned 16 s.dev.indexDev % 2 ^ 16 ∧
      (s.dev.indexDev.natAbs ≤ s.dev.rd .FIRE_IDXCFG_TOL →
        t.dev.rd .FIRE_SLIPSUM_SUM = min (s.dev.rd .FIRE_SLIPSUM_SUM + s.dev.indexDev.natAbs) (2 ^ (fldSpec .FIRE_SLIPSUM_SUM).width - 1) ∧
        t.dev.rd .FIRE_SLIPCNT_SLIPS = s.dev.rd .FIRE_SLIPCNT_SLIPS) ∧
      (s.dev.rd .FIRE_IDXCFG_TOL < s.dev.indexDev.natAbs → t.dev.rd .FIRE_STAT_SLIP = 1 ∧
        t.dev.rd .FIRE_SLIPCNT_SLIPS = min (s.dev.rd .FIRE_SLIPCNT_SLIPS + 1) (2 ^ (fldSpec .FIRE_SLIPCNT_SLIPS).width - 1))) := by
  refine encoderIndex_gives hen hdir ⟨index_xref _, index_set, fun hset => ⟨index_dev hset, fun htol => ?_, fun htol => ?_⟩⟩ <;> dsimp only
  · rw [index_within hset htol]
    exact ⟨within_slipsum _, within_slips _⟩
  · rw [index_beyond hset htol]
    exact beyond_slips _

/-- Settles O34: each command of the encoder by the lemma of its own; an index is first, within `TOL` or beyond it. -/
theorem webEncoderTakesEffect : Obligations.WebEncoderTakesEffect :=
  ⟨fun a b s => gives_next (t := { s with dev := s.dev.encoder a b }) rfl ⟨encoder_same, encoder_illegal, encoder_counts rfl⟩, fun _ => encStandstill_clears, fun _ _ => encoderIndex_follows, fun _ => encNoindex_slips,
    fun _ _ => encLine_faults⟩

end Sys2Proof.Machine

/-! What spoils and closures do to the product table, and that the record of outputs only grows (08, R203, R204, R213): one lemma for each
operation that a line's sending, its spoils and the end of its job run through. -/
namespace Sys2Proof.Machine
set_option exponentiation.threshold 600

/-! ### The record of outputs -/

/-- Every output of `d` stands in the record of `e`. -/
structure Dev.Emits (d e : Dev) : Prop where
  mem : ∀ o ∈ d.out, o ∈ e.out

theorem Dev.Emits.same {d e : Dev} (h : e.out = d.out) : d.Emits e := ⟨fun _ ho => h ▸ ho⟩

theorem Dev.Emits.refl (d : Dev) : d.Emits d := .same rfl

theorem Dev.Emits.trans {d e f : Dev} (h : d.Emits e) (h' : e.Emits f) : d.Emits f := ⟨fun o ho => h'.mem o (h.mem o ho)⟩

/-- What is emitted after a block with the record of `d`. -/
theorem Dev.Emits.base {d e f : Dev} (h : e.Emits f) (he : e.out = d.out) : d.Emits f := (Dev.Emits.same he).trans h

/-- An operation that does not write the record. -/
theorem Dev.Emits.of {c r : Nat} {d e : Dev} (h : Dev.Only c r d e) (hc : c.testBit Part.out.ctorIdx = false) : d.Emits e :=
  .same (h.parts .out hc)

theorem Dev.Emits.forEach {α : Type} {f : Dev → α → Dev} (hf : ∀ (d : Dev) x, d.Emits (f d x)) (l : List α) (d : Dev) :
    d.Emits (d.forEach l f) := by
  induction l generalizing d with
  | nil => exact .refl d
  | cons x t ih => exact (hf d x).trans (ih _)

/-! ### Operations that keep the product table -/

/-- The product table is as before, and the record of outputs has grown at most. -/
structure Dev.Records (d e : Dev) : Prop where
  emits : d.Emits e
  prods : e.integ.prods = d.integ.prods

theorem Dev.Records.same {d e : Dev} (h : e.out = d.out) (hp : e.integ.prods = d.integ.prods) : d.Records e := ⟨.same h, hp⟩

theorem Dev.Records.refl (d : Dev) : d.Records d := .same rfl rfl

theorem Dev.Records.trans {d e f : Dev} (h : d.Records e) (h' : e.Records f) : d.Records f :=
  ⟨h.emits.trans h'.emits, h'.prods.trans h.prods⟩

/-- What is recorded after a block with the outputs and products of `d`. -/
theorem Dev.Records.base {d e f : Dev} (h : e.Records f) (ho : e.out = d.out) (hp : e.integ.prods = d.integ.prods) : d.Records f :=
  (Dev.Records.same ho hp).trans h

theorem Dev.Records.of {c r : Nat} {d e : Dev} (h : Dev.Only c r d e) (hi : c.testBit Part.integ.ctorIdx = false) (ho : d.Emits e) :
    d.Records e := ⟨ho, congrArg Integ.prods (h.parts .integ hi)⟩

theorem Dev.Records.forEach {α : Type} {f : Dev → α → Dev} (hf : ∀ (d : Dev) x, d.Records (f d x)) (l : List α) (d : Dev) :
    d.Records (d.forEach l f) := by
  induction l generalizing d with
  | nil => exact .refl d
  | cons x t ih => exact (hf d x).trans (ih _)

theorem Dev.Records.wr (d : Dev) (f : Fld) (v i j : Nat) : d.Records (d.wr f v i j) := .same rfl rfl

theorem Dev.Records.raise (d : Dev) (e : EvCode) (x : List Byte) : d.Records (d.raise e x) :=
  .of (Dev.raise_only d e x) rfl ⟨raise_mem d e x⟩

theorem Dev.Records.send (d : Dev) (r : Role) (m : XppMsg) : d.Records (d.send r m) := by
  refine .of (Dev.send_only d r m) rfl ⟨fun o ho => ?_⟩
  unfold Dev.send
  split
  · exact List.mem_cons_of_mem _ ho
  · exact ho

theorem Dev.Records.sendAll (d : Dev) (m : XppMsg) : d.Records (d.sendAll m) :=
  ((Dev.Records.send _ _ _).trans (.send _ _ _)).trans (.send _ _ _)

theorem Dev.Records.sendFire (d : Dev) (jn line : Nat) (h : SentHead) (amend withdraw : Bool) :
    d.Records (d.sendFire jn line h amend withdraw) :=
  .of (Dev.sendFire_only _ _ _ _ _ _) rfl ⟨fun _ => List.mem_cons_of_mem _⟩

theorem Dev.Records.updAccount (d : Dev) (jn : Nat) (f : Account → Account) : d.Records (d.updAccount jn f) := .same rfl rfl

theorem Dev.Records.sendJobStatus (d : Dev) (jn : Nat) : d.Records (d.sendJobStatus jn) := by
  unfold Dev.sendJobStatus
  split
  · exact (Dev.Records.send _ _ _).trans (.send _ _ _)
  · exact .refl d

theorem Dev.Records.setJobSt (d : Dev) (jn : Nat) (st : JobState) : d.Records (d.setJobSt jn st) :=
  (Dev.Records.sendJobStatus (d.updJob jn fun j => { j with st := st }) jn).base rfl rfl

theorem Dev.Records.endJob (d : Dev) (jn : Nat) (st : JobState) (reason : Nat) : d.Records (d.endJob jn st reason) :=
  .of (Dev.endJob_only _ _ _ _) rfl ⟨(Dev.Records.setJobSt (d.updJob jn fun j => { j with reason := reason }) jn st).emits.mem⟩

theorem Dev.Records.maybeDone (d : Dev) (jn : Nat) : d.Records (d.maybeDone jn) := by
  unfold Dev.maybeDone
  split
  · dsimp only
    split
    · split
      · exact .endJob d jn _ _
      · split
        · exact .refl d
        · exact .endJob d jn _ _
    · exact .refl d
  · exact .refl d

theorem Dev.Records.writeRec (d : Dev) (r : SpRec) : d.Records (d.writeRec r) := by
  unfold Dev.writeRec
  generalize BufRing.push _ _ _ _ = q
  obtain ⟨ring, lost⟩ := q
  dsimp only
  split
  · refine .trans ?_ (.raise _ _ _)
    exact (Dev.Records.forEach (fun e (j : Job) => .updAccount e j.jn _) _ _).base rfl rfl
  · exact .same rfl rfl

theorem Dev.Records.writeRecsOf (d : Dev) (jn pn : Nat) : d.Records (d.writeRecsOf jn pn) := by
  unfold Dev.writeRecsOf
  exact (Dev.Records.forEach Dev.Records.writeRec _ _).base rfl rfl

theorem Dev.Records.unFirst (d : Dev) (jn pn : Nat) (firstSp : Bool) : d.Records (d.unFirst jn pn firstSp) := by
  unfold Dev.unFirst
  split <;> exact .same rfl rfl

theorem Dev.Records.openRec (d : Dev) (jn pn : Nat) (s : Spoil) (firstSp late : Bool) : d.Records (d.openRec jn pn s firstSp late) := by
  unfold Dev.openRec
  extract_lets +onlyGivenNames e same
  refine (Dev.Records.unFirst d jn pn firstSp).trans (show e.Records _ from ?_)
  clear_value e
  split
  · exact .same rfl rfl
  · extract_lets +onlyGivenNames integ e'
    have hroom : e.Records e' := by
      unfold e'
      split
      · split
        · exact .refl e
        · exact (Dev.Records.writeRec _ _).base rfl rfl
      · exact .refl e
    clear_value e'
    exact hroom.trans (.same rfl rfl)

/-! ### Spoils and closures -/

/-- What a spoil does to the entry of its product: it takes the spoil's lines at the spoil's time, and stays open. -/
structure Prod.TakesSpoil (s : Spoil) (f : Prod → Prod) : Prop where
  jn : ∀ q, (f q).jn = q.jn
  pn : ∀ q, (f q).pn = q.pn
  first : ∀ q, (f q).first = q.first
  last : ∀ q, (f q).last = q.last
  isClosed : ∀ q, (f q).isClosed = q.isClosed
  lastSp : ∀ q, (f q).lastSp = s.time / 4 + 1

/-- A spoil of an open product changes its entry and writes records. -/
theorem applySpoil_open (d : Dev) {p : Prod} (s : Spoil) (h : p.isClosed = false) :
    ∃ f, Prod.TakesSpoil s f ∧ (d.updProd p.jn p.pn f).Records (d.applySpoil p s) := by
  unfold Dev.applySpoil
  rw [if_neg (by rw [h]; decide)]
  extract_lets +onlyGivenNames isFirst earlier late e e1 e2
  refine ⟨_, ?_, (show e.Records _ from ?_)⟩
  · constructor <;> intro q <;> dsimp only <;> split <;> split <;> rfl
  · have h1 : e.Records e1 := by
      unfold e1
      split <;> exact .same rfl rfl
    have h2 : e.Records e2 := h1.trans (.openRec _ _ _ _ _ _)
    clear_value e2
    split
    · extract_lets +onlyGivenNames e3 e4
      refine h2.trans (Dev.Records.trans ?_ (.raise _ _ _))
      unfold e4
      split <;> exact .same rfl rfl
    · exact h2

/-- A closure that does not wait writes records, then frees the entry or marks it closed. -/
theorem closeProd_cases (d : Dev) (jn pn : Nat) : d.closeProd jn pn = d ∨ ∃ e, d.Records e ∧
    (d.closeProd jn pn = e.freeProd jn pn ∨
      ∃ f : Prod → Prod, (∀ q, (f q).jn = q.jn ∧ (f q).pn = q.pn) ∧ d.closeProd jn pn = e.updProd jn pn f) := by
  unfold Dev.closeProd
  split
  · exact .inl rfl
  · split
    · exact .inl rfl
    · next p _ _ =>
      extract_lets +onlyGivenNames reason e1 n e2 e3 e4 e5 e6 e
      have hnoted : d.Records e := by
        unfold e
        split
        · exact .refl d
        · have h1 : d.Records e1 := (Dev.Records.writeRecsOf d jn pn).trans (.same rfl rfl)
          have h3 : d.Records e3 := (h1.trans (.writeRec e1 _)).trans (.updAccount e2 jn _)
          split
          · have h5 : e3.Records e5 := (Dev.Records.wr e3 _ _ _ _).trans ((Dev.Records.wr _ _ _ _ _).trans (.updAccount e4 jn _))
            exact h3.trans (h5.trans ((Dev.Records.raise e5 _ _).trans (.sendAll e6 _)))
          · exact h3.trans (.same rfl rfl)
      clear_value e
      refine .inr ⟨e, hnoted, ?_⟩
      split <;> split
      · exact .inl rfl
      · refine .inr ⟨_, ?_, rfl⟩
        exact fun _ => ⟨rfl, rfl⟩
      · exact .inl rfl
      · refine .inr ⟨_, ?_, rfl⟩
        exact fun _ => ⟨rfl, rfl⟩

theorem closeProd_emits (d : Dev) (jn pn : Nat) : d.Emits (d.closeProd jn pn) := by
  rcases closeProd_cases d jn pn with h | ⟨e, hnoted, h | ⟨f, -, h⟩⟩ <;> rw [h]
  · exact .refl d
  · exact hnoted.emits.trans (.of (Dev.freeProd_only _ _ _) rfl)
  · exact hnoted.emits.trans (.same rfl)

theorem spoilEntry_emits (d : Dev) (p : Prod) (s : Spoil) : d.Emits (d.spoilEntry p s) := by
  refine Dev.Emits.trans ?_ (closeProd_emits _ _ _)
  cases hclosed : p.isClosed with
  | true =>
    unfold Dev.applySpoil
    rw [if_pos hclosed]
    exact .refl d
  | false =>
    obtain ⟨f, -, hrec⟩ := applySpoil_open d s hclosed
    exact ⟨fun o ho => hrec.emits.mem o ho⟩

theorem spoilProduct_emits (d : Dev) (jn pn : Nat) (s : Spoil) : d.Emits (d.spoilProduct jn pn s) := by
  unfold Dev.spoilProduct
  split
  · exact spoilEntry_emits d _ s
  · split
    · split
      · split
        · exact .of (Dev.holdSpoil_only _ _ _ _) rfl
        · exact .refl d
      · exact .refl d
    · exact .refl d

theorem spoilLines_emits (d : Dev) (reason : SpReason) (barField slot jn : Nat) (bars lines : List Nat) :
    d.Emits (d.spoilLines reason barField slot jn bars lines) := .forEach (fun _ _ => spoilProduct_emits _ _ _ _) _ d

theorem spoilHeadLine_emits (d : Dev) (reason : SpReason) (bar slot jn line : Nat) : d.Emits (d.spoilHeadLine reason bar slot jn line) :=
  spoilLines_emits d reason bar slot jn [bar] [line]

theorem freeEntries_emits (d : Dev) : d.Emits d.freeEntries := by
  refine (Dev.Emits.of (Dev.retireSent_only d) rfl).trans (.forEach (fun e p => ?_) _ _)
  dsimp only
  split
  · exact (Dev.Records.maybeDone _ _).emits.base rfl
  · exact .refl e

theorem tallyRoom_emits (d : Dev) (bar slot : Nat) : d.Emits (d.tallyRoom bar slot) := by
  unfold Dev.tallyRoom
  split
  · split
    · exact .refl d
    · exact (spoilHeadLine_emits _ _ _ _ _ _).base rfl
  · exact .refl d

theorem tallyEntry_emits (d : Dev) (l : LineId) (h : SentHead) : d.Emits (d.tallyEntry l h) := by
  unfold Dev.tallyEntry
  split
  · exact .refl d
  · extract_lets +onlyGivenNames old same tv integ e
    have hroom : d.Emits e := (tallyRoom_emits _ l.bar h.slot).base rfl
    clear_value e
    exact hroom.trans (.same rfl)

/-! ### An open entry of the product table -/

/-- A product's entry stands in the table with its first and last line, and is not closed. -/
def Dev.Holds (d : Dev) (jn pn first last : Nat) : Prop :=
  ∃ q, d.prod jn pn = some q ∧ q.first = first ∧ q.last = last ∧ q.isClosed = false

section
variable {jn pn first last : Nat}

theorem Dev.Holds.congr {d e : Dev} (h : d.Holds jn pn first last) (hp : e.integ.prods = d.integ.prods) : e.Holds jn pn first last := by
  obtain ⟨q, hq, hrest⟩ := h
  exact ⟨q, (prod_congr hp jn pn).trans hq, hrest⟩

theorem Dev.Holds.of {c r : Nat} {d e : Dev} (h : d.Holds jn pn first last) (ho : Dev.Only c r d e)
    (hc : c.testBit Part.integ.ctorIdx = false) : e.Holds jn pn first last := h.congr (congrArg Integ.prods (ho.parts .integ hc))

theorem Dev.Holds.forEach {α : Type} {f : Dev → α → Dev} (hf : ∀ (d : Dev) x, d.Holds jn pn first last → (f d x).Holds jn pn first last)
    (l : List α) {d : Dev} (h : d.Holds jn pn first last) : (d.forEach l f).Holds jn pn first last := by
  induction l generalizing d with
  | nil => exact h
  | cons x t ih => exact ih (hf d x h)

theorem prod_updProd_ne {d : Dev} {jn' pn' : Nat} {f : Prod → Prod} (hf : ∀ q, (f q).jn = q.jn ∧ (f q).pn = q.pn)
    (hne : ¬(jn' = jn ∧ pn' = pn)) : (d.updProd jn' pn' f).prod jn pn = d.prod jn pn := by
  unfold Dev.updProd Dev.prod
  dsimp only
  induction d.integ.prods with
  | nil => rfl
  | cons q t ih =>
    rw [List.map_cons]
    by_cases hq : q.jn = jn' ∧ q.pn = pn'
    · rw [if_pos hq, List.find?_cons_of_neg, List.find?_cons_of_neg, ih] <;> simp <;> grind
    · rw [if_neg hq, List.find?_cons, List.find?_cons, ih]

theorem prod_freeProd_ne {d : Dev} {jn' pn' : Nat} (hne : ¬(jn' = jn ∧ pn' = pn)) : (d.freeProd jn' pn').prod jn pn = d.prod jn pn := by
  unfold Dev.freeProd Dev.countPtab Dev.prod
  dsimp only
  rw [Dev.wr_integ, Dev.wr_integ, List.find?_filter]
  congr 1
  funext q
  grind

theorem prod_closeProd_ne {d : Dev} {jn' pn' : Nat} (hne : ¬(jn' = jn ∧ pn' = pn)) : (d.closeProd jn' pn').prod jn pn = d.prod jn pn := by
  rcases closeProd_cases d jn' pn' with h | ⟨e, hnoted, h | ⟨f, hf, h⟩⟩ <;> rw [h]
  · exact (prod_freeProd_ne hne).trans (prod_congr hnoted.prods jn pn)
  · exact (prod_updProd_ne hf hne).trans (prod_congr hnoted.prods jn pn)

/-- The closure of a product with a spoil of this tick waits (R204). -/
theorem closeProd_waits {d : Dev} {q : Prod} (hq : d.prod jn pn = some q) (hnow : q.lastSp = d.now / 4 + 1) : d.closeProd jn pn = d := by
  unfold Dev.closeProd Dev.spoilsNow
  rw [hq]
  simp [hnow]

theorem spoilEntry_prod_ne {d : Dev} {p : Prod} (s : Spoil) (hne : ¬(p.jn = jn ∧ p.pn = pn)) : (d.spoilEntry p s).prod jn pn = d.prod jn pn := by
  refine (prod_closeProd_ne hne).trans ?_
  cases hclosed : p.isClosed with
  | true =>
    unfold Dev.applySpoil
    rw [if_pos hclosed]
  | false =>
    obtain ⟨f, hf, hrec⟩ := applySpoil_open d s hclosed
    exact (prod_congr hrec.prods jn pn).trans (prod_updProd_ne (fun q => ⟨hf.jn q, hf.pn q⟩) hne)

/-- A spoil of an open product at this tick leaves it open: its closure waits for the next tick. -/
theorem Dev.Holds.spoilEntry {d : Dev} {q : Prod} {s : Spoil} (hq : d.prod jn pn = some q) (hopen : q.isClosed = false)
    (hnow : s.time = d.now) : (d.spoilEntry q s).Holds jn pn q.first q.last := by
  obtain ⟨rfl, rfl⟩ := prod_ids hq
  obtain ⟨f, hf, hrec⟩ := applySpoil_open d s hopen
  have hspoilt : (d.applySpoil q s).prod q.jn q.pn = some (f q) :=
    (prod_congr hrec.prods _ _).trans (prod_upd hq f ⟨hf.jn q, hf.pn q⟩ fun q => ⟨hf.jn q, hf.pn q⟩)
  have htick : (d.applySpoil q s).now = d.now :=
    now_of ((Dev.applySpoil_only d q s).parts .tb rfl) ((Dev.applySpoil_only d q s).rd _ _ _ rfl)
  unfold Dev.spoilEntry
  rw [closeProd_waits hspoilt ((hf.lastSp q).trans (by rw [htick, hnow]))]
  exact ⟨f q, hspoilt, hf.first q, hf.last q, (hf.isClosed q).trans hopen⟩

theorem Dev.Holds.spoilProduct {d : Dev} {s : Spoil} (jn' pn' : Nat) (hnow : s.time = d.now) (h : d.Holds jn pn first last) :
    (d.spoilProduct jn' pn' s).Holds jn pn first last := by
  obtain ⟨q, hq, rfl, rfl, hopen⟩ := h
  unfold Dev.spoilProduct
  split
  · next p hp =>
    obtain ⟨rfl, rfl⟩ := prod_ids hp
    by_cases hsame : p.jn = jn ∧ p.pn = pn
    · obtain ⟨rfl, rfl⟩ := hsame
      obtain rfl : p = q := Option.some.inj (hp.symm.trans hq)
      exact .spoilEntry hp hopen hnow
    · exact ⟨q, (spoilEntry_prod_ne s hsame).trans hq, rfl, rfl, hopen⟩
  · have hd : d.Holds jn pn q.first q.last := ⟨q, hq, rfl, rfl, hopen⟩
    split
    · split
      · split
        · exact hd.congr rfl
        · exact hd
      · exact hd
    · exact hd

theorem Dev.Holds.spoilLines {d : Dev} (reason : SpReason) (barField slot jn' : Nat) (bars lines : List Nat)
    (h : d.Holds jn pn first last) : (d.spoilLines reason barField slot jn' bars lines).Holds jn pn first last :=
  .forEach (fun _ _ he => he.spoilProduct _ _ rfl) _ h

/-- Sent lines that have been fired mark their products; the entries stand. -/
theorem Dev.Holds.retireSent {d : Dev} (h : d.Holds jn pn first last) : d.retireSent.Holds jn pn first last := by
  obtain ⟨q, hq, hfirst, hlast, hopen⟩ := h
  obtain ⟨mark, hmark, hprods⟩ : ∃ mark : Prod → Prod, (∀ p, mark p = p ∨ mark p = { p with fired := true }) ∧
      d.retireSent.integ.prods = d.integ.prods.map mark := ⟨_, fun p => by split <;> simp, rfl⟩
  have hkeys : (fun p : Prod => decide (p.jn = jn) && decide (p.pn = pn)) ∘ mark = fun p => decide (p.jn = jn) && decide (p.pn = pn) := by
    funext p
    rcases hmark p with h | h <;> simp [h]
  refine ⟨mark q, ?_, ?_⟩
  · unfold Dev.prod at hq ⊢
    rw [hprods, List.find?_map, hkeys, hq]
    rfl
  · rcases hmark q with h | h <;> rw [h] <;> exact ⟨hfirst, hlast, hopen⟩

theorem Dev.Holds.freeEntries {d : Dev} (h : d.Holds jn pn first last) : d.freeEntries.Holds jn pn first last := by
  refine .forEach (fun e p he => ?_) _ h.retireSent
  dsimp only
  split
  · exact he.congr (Dev.Records.maybeDone _ _).prods
  · exact he
end

end Sys2Proof.Machine

/-! A line at its send point (06, R155, R156; 08, R202, R211): the product that it starts, what its heads are sent and what their Tally
tables hold, and what it leaves. -/
namespace Sys2Proof.Machine
set_option exponentiation.threshold 600

/-! ### The entry of the product that a line starts -/

section
variable {jn pn first last : Nat}

theorem Dev.Holds.spoilDark {d : Dev} (bar jn' line : Nat) (h : d.Holds jn pn first last) :
    (d.spoilDark bar jn' line).Holds jn pn first last :=
  .forEach (fun _ _ he => .forEach (fun _ _ hg => hg.spoilLines _ _ _ _ _ _) _ he) _ h

theorem Dev.Holds.laneLoss {d : Dev} (n cause : Nat) (h : d.Holds jn pn first last) : (d.laneLoss n cause).Holds jn pn first last := by
  have hspoilt : (d.spoilUnconfirmed n).Holds jn pn first last := by
    unfold Dev.spoilUnconfirmed
    refine .forEach (fun _ _ he => he.of (Dev.maybeDone_only _ _) rfl) _ (.forEach (fun _ _ he => he.spoilLines _ _ _ _ _ _) _ ?_)
    exact h.congr rfl
  unfold Dev.laneLoss
  split
  · exact (hspoilt.of (Dev.updLane_only _ _ _) rfl).of (Dev.raise_only _ _ _) rfl
  · exact h

theorem Dev.Holds.lateLane {d : Dev} (n : Nat) (h : d.Holds jn pn first last) : (d.lateLane n).Holds jn pn first last := by
  unfold Dev.lateLane
  split
  · exact h.laneLoss n 1
  · exact h

theorem Dev.Holds.spoilUnready {d : Dev} (l : LineId) (why : List NotReady) (h : d.Holds jn pn first last) :
    (d.spoilUnready l why).Holds jn pn first last := by
  unfold Dev.spoilUnready
  extract_lets e1 e2
  have h1 : e1.Holds jn pn first last := by
    unfold e1
    split
    · exact (Dev.Holds.forEach (fun _ n he => he.lateLane n) _ h).spoilLines _ _ _ _ _ _
    · exact h
  have h2 : e2.Holds jn pn first last := by
    unfold e2
    split
    · exact h1.spoilLines _ _ _ _ _ _
    · exact h1
  split
  · exact h2.of (Dev.underrun_only _ _ _ _) rfl
  · exact h2

theorem Dev.Holds.tallyRoom {d : Dev} (bar slot : Nat) (h : d.Holds jn pn first last) : (d.tallyRoom bar slot).Holds jn pn first last := by
  unfold Dev.tallyRoom
  split
  · split
    · exact h
    · exact .spoilLines _ _ _ _ _ _ (h.congr rfl)
  · exact h

theorem Dev.Holds.tallyEntry {d : Dev} (l : LineId) (x : SentHead) (h : d.Holds jn pn first last) :
    (d.tallyEntry l x).Holds jn pn first last := by
  unfold Dev.tallyEntry
  split
  · exact h
  · extract_lets +onlyGivenNames old same tv integ e
    have hroom : e.Holds jn pn first last := Dev.Holds.tallyRoom l.bar x.slot (h.congr rfl)
    clear_value e
    exact hroom.congr rfl

theorem Dev.Holds.fireLine {d : Dev} (l : LineId) (heads : List SentHead) (h : d.Holds jn pn first last) :
    (d.fireLine l heads).Holds jn pn first last := by
  unfold Dev.fireLine
  extract_lets +onlyGivenNames e
  have hsent : e.Holds jn pn first last :=
    .forEach (fun _ x hg => (hg.of (Dev.sendFire_only _ _ _ _ _ _) rfl).tallyEntry l x) heads h
  clear_value e
  exact hsent.congr rfl

theorem Dev.Holds.sendLine {d : Dev} (l : LineId) (again : Bool) (heads : List SentHead) (h : d.Holds jn pn first last) :
    (d.sendLine l again heads).Holds jn pn first last := by
  unfold Dev.sendLine
  extract_lets +onlyGivenNames dark why sent past
  have hsent : sent.Holds jn pn first last := by
    unfold sent
    split
    · exact (h.spoilDark _ _ _).fireLine l heads
    · exact (h.spoilDark _ _ _).spoilUnready l why
  have hpast : past.Holds jn pn first last := (hsent.of (Dev.pastLine_only _ _ _) rfl).freeEntries
  split
  · exact hpast.of (Dev.refreshLead_only _) (Nat.zero_testBit _)
  · exact hpast
end

/-- A product with an unsettled line does not close (R203). -/
theorem closeProd_unsettled {d : Dev} {jn pn : Nat} {q : Prod} (hq : d.prod jn pn = some q) (hwhole : q.whole = false)
    (hsettled : q.settled = []) (hbars : d.bars ≠ []) : d.closeProd jn pn = d := by
  have hopen : d.allSettled q = false := by
    have := Nat.mul_pos (Nat.succ_pos (q.last - q.first)) (List.length_pos_iff.2 hbars)
    unfold Dev.allSettled
    rw [hwhole, hsettled]
    simp
    omega
  unfold Dev.closeProd
  rw [hq]
  simp [hopen]

/-- An entry allocated with no spoil held for it stands open in the product table (R202). -/
theorem allocProd_holds {d : Dev} {jn pn : Nat} (first last : Nat) (from38 to38 : Int) (hnew : d.prod jn pn = none)
    (hheld : d.integ.heldSpoils = []) (hbars : d.bars ≠ []) : (d.allocProd jn pn first last from38 to38).Holds jn pn first last := by
  unfold Dev.allocProd
  extract_lets +onlyGivenNames q isIt held integ e1 e2 e3
  have hnone : held = [] := by
    unfold held
    rw [hheld]
    rfl
  have he3 : e3 = e2 := by
    unfold e3
    rw [hnone]
    rfl
  have hq : e2.prod jn pn = some q := by
    unfold Dev.prod at hnew ⊢
    show List.find? _ (d.integ.prods ++ [q]) = _
    rw [List.find?_append, hnew]
    simp [q]
  rw [he3, closeProd_unsettled hq rfl rfl hbars]
  exact ⟨q, hq, rfl, rfl, rfl⟩

/-- Bar 0 starts a product for which no spoil is held (R202). -/
theorem startProduct_holds {d : Dev} {p : Pl} {r : JobRec} {line : Nat} (hnew : d.prod p.jn (r.firstPn + line / r.pitch) = none)
    (hheld : d.integ.heldSpoils = []) (hbars : d.bars ≠ []) :
    (d.startProduct p r line).Holds p.jn (r.firstPn + line / r.pitch) line (line + r.pitch - 1) := by
  unfold Dev.startProduct
  extract_lets +onlyGivenNames pn at0 e1 e2
  rw [if_neg (by unfold pn; rw [hnew]; decide)]
  have h1 : e1.Holds p.jn pn line (line + r.pitch - 1) := allocProd_holds _ _ _ _ hnew hheld hbars
  have h2 : e2.Holds p.jn pn line (line + r.pitch - 1) := by
    unfold e2
    split
    · exact h1.of (Dev.setJobSt_only _ _ _) rfl
    · exact h1
  exact h2.of (Dev.aimGap_only _ _ _ _) rfl

end Sys2Proof.Machine

/-! The send point of a bar's next line (06, R155, R156; 08, R202, R211): before it, and at it what the line's heads are sent, what their
Tally tables hold, the product that the line starts, and what leaves the output FIFOs. -/
namespace Sys2Proof.Machine
set_option exponentiation.threshold 600

/-! ### The send point in steps -/

/-- The line is a product's first and is sent for the first time. -/
abbrev StartsProduct (r : JobRec) (l : LineId) (again : Bool) : Prop := r.pitch ≠ 0 ∧ l.line % r.pitch = 0 ∧ again = false

/-- The block that a bar's next line finds: the speed is up to date, and at a product start heads have resumed. -/
def Dev.readied (d : Dev) (bar : Nat) (start : Prop) [Decidable start] : Dev :=
  if start then d.refreshSpeed.resumeHeads bar else d.refreshSpeed

/-- What a due line begins before it is sent: on bar 0 its product, and the position at which PRINTING begins. -/
def Dev.beginLine (d : Dev) (bar : Nat) (p : Pl) (r : JobRec) (l : LineId) (start : Prop) [Decidable start] : Dev :=
  (if start ∧ bar = 0 then d.startProduct p r l.line else d).noteFirst p l

/-- What follows a line that was sent or spoiled. -/
def Dev.finishLine (d : Dev) (l : LineId) (again : Bool) : Dev :=
  if l.bar = 0 then (d.pastLine l again).freeEntries.refreshLead else (d.pastLine l again).freeEntries

/-- A line is sent, or spoiled for what is not ready. -/
def Dev.sendOrSpoil (d : Dev) (l : LineId) (again : Bool) (heads : List SentHead) : Dev :=
  let why := (d.slotsOf l.bar).filterMap (fun s => d.notReady s l again)
  if why = [] then d.fireLine l heads else d.spoilUnready l why

theorem sendLine_eq (d : Dev) (l : LineId) (again : Bool) (heads : List SentHead) :
    d.sendLine l again heads = ((d.spoilDark l.bar l.jn l.line).sendOrSpoil l again heads).finishLine l again := rfl

/-- The least member by a key is the first of the list or one of the rest. -/
theorem foldl_least_mem {α : Type} (key : α → Nat) (x : α) (rest : List α) :
    rest.foldl (fun m y => if key y < key m then y else m) x ∈ x :: rest := by
  refine List.foldlRecOn rest _ (motive := fun y => y ∈ x :: rest) List.mem_cons_self fun y hy z hz => ?_
  split
  · exact List.mem_cons_of_mem _ hz
  · exact hy

/-- The next line of a bar is a line of that bar. -/
theorem nextLine_bar {d : Dev} {bar : Nat} {l : LineId} {again : Bool} (h : d.nextLine bar = some (l, again)) : l.bar = bar := by
  unfold Dev.nextLine at h
  extract_lets key at h
  clear_value key
  split at h
  · next x rest hlist =>
    have hl : rest.foldl (fun m y => if key y < key m then y else m) x = l := congrArg (·.1) (Option.some.inj h)
    have hmem := foldl_least_mem key x rest
    rw [hl, ← hlist] at hmem
    simpa using (List.mem_filter.1 hmem).2
  · obtain ⟨x, -, hx⟩ := Option.map_eq_some_iff.1 h
    cases hx
    rfl
/-- The head slots of a bar that are not dark. -/
def Dev.litSlots (d : Dev) (bar : Nat) : List Nat := (d.slotsOf bar).filter (fun x => !(d.lane x).isDark)

/-- A bar's next line has a placement and a job, and its heads have what they are sent. -/
structure Dev.SendsLine (d : Dev) (bar : Nat) (l : LineId) (again : Bool) (p : Pl) (r : JobRec) (heads : List SentHead) : Prop where
  next : d.nextLine bar = some (l, again)
  pl : d.plOf l.jn = some p
  job : (d.job l.jn).bind (·.rec?) = some r
  heads : (d.readied bar (StartsProduct r l again)).sendHeads p l again ((d.readied bar (StartsProduct r l again)).litSlots bar) = some heads

/-- The block that a due line is sent from: its product begun, its dark heads spoiled. -/
def Dev.begun (d : Dev) (bar : Nat) (p : Pl) (r : JobRec) (l : LineId) (again : Bool) : Dev :=
  ((d.readied bar (StartsProduct r l again)).beginLine bar p r l (StartsProduct r l again)).spoilDark l.bar l.jn l.line

section
variable {d : Dev} {bar : Nat} {l : LineId} {again : Bool} {p : Pl} {r : JobRec} {heads : List SentHead}

theorem sendPoint_eq (h : d.SendsLine bar l again p r heads) :
    d.sendPoint bar = if d.refreshSpeed.sendDue p l heads then ((d.begun bar p r l again).sendOrSpoil l again heads).finishLine l again
      else d.refreshSpeed := by
  obtain ⟨hnext, hpl, hjob, hheads⟩ := h
  have hstart : (r.pitch != 0 && decide (l.line % r.pitch = 0) && !again) = decide (StartsProduct r l again) := by
    by_cases hpitch : r.pitch = 0 <;> cases again <;> simp [StartsProduct, hpitch]
  unfold Dev.begun
  rw [← sendLine_eq]
  unfold Dev.readied Dev.litSlots at hheads
  unfold Dev.sendPoint Dev.beginLine Dev.readied
  rw [hnext]
  dsimp only
  rw [hpl, hjob]
  dsimp only
  simp only [hstart, decide_eq_true_eq, hheads, Bool.and_eq_true, Bool.not_eq_true']
  cases d.refreshSpeed.sendDue p l heads <;> simp
end

/-! ### What the steps leave -/

theorem readied_only (d : Dev) (bar : Nat) (start : Prop) [Decidable start] :
    Dev.Only (partsMask [.lanes]) (fieldsMask [.FIRE_SPEED_V, .FIRE_SPDSTAT_DECAY, .FIRE_SPDSTAT_MODE, .HT_STAT_DARK]) d (d.readied bar start) := by
  have hspeed := Dev.refreshSpeed_only d
  unfold Dev.readied
  split
  · exact .step (Dev.resumeHeads_only _ _) (by decide) (by decide) (hspeed.mono (by decide) (by decide))
  · exact hspeed.mono (by decide) (by decide)

/-- What a line begins, and the spoils of its dark heads, leave the lanes, the head slots and the time. -/
theorem begun_only (d : Dev) (bar : Nat) (p : Pl) (r : JobRec) (l : LineId) (again : Bool) :
    Dev.Only 0x1408f400300 0x101c00000000201f140000000000000000000000000000000000000000000000000000000000008040
      (d.readied bar (StartsProduct r l again)) (d.begun bar p r l again) := by
  unfold Dev.begun
  refine .step (Dev.spoilDark_only _ _ _ _) rfl rfl ?_
  unfold Dev.beginLine
  refine .step (Dev.noteFirst_only _ _ _) rfl rfl ?_
  split
  · exact (Dev.startProduct_only _ _ _ _).mono rfl rfl
  · exact .refl _ _ _

theorem linkTime_of {d e : Dev} (htb : e.tb = d.tb) (hlc : e.lc = d.lc) (hsrc : e.rd .TB_CTL_SRC = d.rd .TB_CTL_SRC) (t : Nat) :
    e.linkTime t = d.linkTime t := by
  unfold Dev.linkTime
  rw [now_of htb hsrc, hlc]

theorem linkTime_of_only {c r : Nat} {d e : Dev} (h : Dev.Only c r d e) (htb : c.testBit Part.tb.ctorIdx = false)
    (hlc : c.testBit Part.lc.ctorIdx = false) (hsrc : r.testBit Fld.TB_CTL_SRC.ctorIdx = false) (t : Nat) : e.linkTime t = d.linkTime t :=
  linkTime_of (h.parts .tb htb) (h.parts .lc hlc) (h.rd _ _ _ hsrc) t

theorem notReady_of {d e : Dev} (hlanes : e.lanes = d.lanes) (hstate : ∀ n, e.rd .ZL_STAT_STATE n = d.rd .ZL_STAT_STATE n) (slot : Nat)
    (l : LineId) (again : Bool) : e.notReady slot l again = d.notReady slot l again := by
  unfold Dev.notReady Dev.fifoLine Dev.timed
  rw [lane_congr hlanes, hstate]

theorem lineSettled_of {d e : Dev} (h : e.integ.prods = d.integ.prods) (l : LineId) : e.lineSettled l = d.lineSettled l := by
  unfold Dev.lineSettled
  rw [h]

/-- A block with no dark head on the bar has nothing to spoil there. -/
theorem spoilDark_none {d : Dev} {bar : Nat} (h : ∀ x ∈ d.slotsOf bar, (d.lane x).isDark = false) (jn line : Nat) :
    d.spoilDark bar jn line = d := by
  have hnone : (d.slotsOf bar).filter (fun s => (d.lane s).isDark) = [] := List.filter_eq_nil_iff.2 fun x hx => by rw [h x hx]; decide
  unfold Dev.spoilDark
  rw [hnone]
  rfl

/-- Each head of a line is that of a slot asked for. -/
theorem sendHeads_slot {d : Dev} {p : Pl} {l : LineId} {again : Bool} {slots : List Nat} {heads : List SentHead}
    (h : d.sendHeads p l again slots = some heads) : ∀ x ∈ heads, x.slot ∈ slots := by
  unfold Dev.sendHeads at h
  extract_lets one hs at h
  split at h
  · intro x hx
    rw [← Option.some.inj h] at hx
    obtain ⟨y, hy, rfl⟩ := List.mem_filterMap.1 hx
    obtain ⟨slot, hslot, hone⟩ := List.mem_map.1 hy
    obtain ⟨t, -, rfl⟩ := Option.map_eq_some_iff.1 hone
    exact hslot
  · cases h

/-! ### The heads of a line -/

/-- A fold that keeps `Q` on its list, and does for each member what later members keep. -/
theorem forEach_inv {α : Type} {l : List α} {g : Dev → α → Dev} {Q : Dev → Prop} {P : Dev → α → Prop}
    (hstep : ∀ d, ∀ x ∈ l, Q d → Q (g d x) ∧ P (g d x) x ∧ ∀ y, P d y → P (g d x) y) {d : Dev} (h : Q d) :
    ∀ x ∈ l, P (d.forEach l g) x := by
  suffices hall : ∀ l' ⊆ l, ∀ d, Q d → ∀ x, x ∈ l' ∨ P d x → P (d.forEach l' g) x from
    fun x hx => hall l (fun _ hy => hy) d h x (.inl hx)
  intro l' hsub
  induction l' with
  | nil => exact fun d _ x hx => hx.resolve_left List.not_mem_nil
  | cons a t ih =>
    intro d hd x hx
    obtain ⟨hQ, ha, hkeep⟩ := hstep d a (hsub List.mem_cons_self) hd
    refine ih (fun _ hy => hsub (List.mem_cons_of_mem _ hy)) _ hQ x ?_
    rcases hx with hx | hx
    · rcases List.mem_cons.1 hx with rfl | hx
      · exact .inr ha
      · exact .inl hx
    · exact .inr (hkeep x hx)

/-- A line's frames stand in the record of outputs, each with its head's time and bead (R155). -/
theorem fireLine_sends (d : Dev) (l : LineId) (heads : List SentHead) : ∀ h ∈ heads, ∃ k c n,
    Output.zl h.slot k (.fire l.jn l.line (d.linkTime h.tfire) h.bead false false) c n ∈ (d.fireLine l heads).out := by
  refine forEach_inv (g := fun e h => (e.sendFire l.jn l.line h false false).tallyEntry l h)
    (Q := fun e => ∀ t, e.linkTime t = d.linkTime t)
    (P := fun e h => ∃ k c n, Output.zl h.slot k (.fire l.jn l.line (d.linkTime h.tfire) h.bead false false) c n ∈ e.out)
    (fun e h _ hlink => ?_) (fun _ => rfl)
  have hgrow := (Dev.Records.sendFire e l.jn l.line h false false).emits.trans (tallyEntry_emits _ l h)
  refine ⟨fun t => ?_, ?_, fun y ⟨k, c, n, hy⟩ => ⟨k, c, n, hgrow.mem _ hy⟩⟩
  · rw [linkTime_of_only (Dev.tallyEntry_only _ _ _) rfl rfl rfl, linkTime_of_only (Dev.sendFire_only _ _ _ _ _ _) rfl rfl (Nat.zero_testBit _),
      hlink]
  · have hsent : ∃ k c n, Output.zl h.slot k (.fire l.jn l.line (e.linkTime h.tfire) h.bead false false) c n ∈
        (e.sendFire l.jn l.line h false false).out := ⟨_, _, _, List.mem_cons_self⟩
    obtain ⟨k, c, n, hmem⟩ := hsent
    exact ⟨k, c, n, (tallyEntry_emits _ l h).mem _ (hlink h.tfire ▸ hmem)⟩

/-- A Tally table with room gives up no entry. -/
theorem tallyRoom_free {d : Dev} {slot : Nat} (bar : Nat) (h : (Tab.at d.integ.tally slot : List TallyEnt).length < 64) :
    d.tallyRoom bar slot = d := by
  unfold Dev.tallyRoom
  split
  · next e rest htab =>
    rw [htab, List.length_cons] at h
    rw [if_pos (by omega)]
  · rfl

/-- The entries of a head's Tally table that are those of other lines. -/
def Dev.otherTally (d : Dev) (l : LineId) (slot : Nat) : List TallyEnt :=
  (Tab.at d.integ.tally slot : List TallyEnt).filter (fun t => !(decide (t.jn = l.jn) && decide (t.line = l.line)))

/-- A head-line's entry in a table with room comes after those of other lines. -/
theorem tallyEntry_room {d : Dev} {l : LineId} {h : SentHead} (hopen : d.lineSettled l = false) (hroom : (d.otherTally l h.slot).length < 64) :
    ∃ t : TallyEnt, t.jn = l.jn ∧ t.line = l.line ∧ (d.tallyEntry l h).integ.prods = d.integ.prods ∧
      Tab.at (d.tallyEntry l h).integ.tally h.slot = d.otherTally l h.slot ++ [t] ∧
      ∀ x ≠ h.slot, Tab.at (d.tallyEntry l h).integ.tally x = Tab.at d.integ.tally x := by
  unfold Dev.tallyEntry
  rw [if_neg (by simp [hopen])]
  extract_lets +onlyGivenNames old same tv integ e
  have hkept : Tab.at (Tab.put d.integ.tally h.slot (old.filter (fun t => !same t))) h.slot = d.otherTally l h.slot := Tab.at_put_same _ _ _
  have he : e = { d with integ := { integ with tally := Tab.put integ.tally h.slot (old.filter (fun t => !same t)) } } :=
    tallyRoom_free _ (by rw [hkept]; exact hroom)
  refine ⟨⟨l.jn, l.line, tv, e.linkTime h.tfire⟩, rfl, rfl, by rw [he], ?_, fun x hx => ?_⟩
  · rw [he]
    exact (Tab.at_put_same _ _ _).trans (by rw [hkept])
  · rw [he]
    exact (Tab.at_put_ne _ _ hx).trans (Tab.at_put_ne _ _ hx)

/-- The entries of other lines stay. -/
theorem otherTally_tallyEntry {d : Dev} {l : LineId} {h : SentHead} (hopen : d.lineSettled l = false)
    (hroom : (d.otherTally l h.slot).length < 64) (x : Nat) : (d.tallyEntry l h).otherTally l x = d.otherTally l x := by
  obtain ⟨t, hjn, hline, -, hself, hothers⟩ := tallyEntry_room hopen hroom
  by_cases hx : x = h.slot
  · subst hx
    unfold Dev.otherTally at hself ⊢
    rw [hself, List.filter_append, List.filter_filter]
    simp [hjn, hline]
  · unfold Dev.otherTally
    rw [hothers x hx]

/-- Each head of an unsettled line has an entry for it in its Tally table, where the tables have room (R211). -/
theorem fireLine_tally {d : Dev} {l : LineId} {heads : List SentHead} (hopen : d.lineSettled l = false)
    (hroom : ∀ h ∈ heads, (Tab.at d.integ.tally h.slot : List TallyEnt).length < 64) :
    ∀ h ∈ heads, ∃ e ∈ (Tab.at (d.fireLine l heads).integ.tally h.slot : List TallyEnt), e.jn = l.jn ∧ e.line = l.line := by
  refine forEach_inv (g := fun e h => (e.sendFire l.jn l.line h false false).tallyEntry l h)
    (Q := fun e => e.lineSettled l = false ∧ ∀ h ∈ heads, (e.otherTally l h.slot).length < 64)
    (P := fun e h => ∃ t ∈ (Tab.at e.integ.tally h.slot : List TallyEnt), t.jn = l.jn ∧ t.line = l.line)
    (fun e h hh hQ => ?_) ⟨hopen, fun h hh => (List.length_filter_le _ _).trans_lt (hroom h hh)⟩
  have hopen' : (e.sendFire l.jn l.line h false false).lineSettled l = false := hQ.1
  have hroom' : ((e.sendFire l.jn l.line h false false).otherTally l h.slot).length < 64 := hQ.2 h hh
  have hmine := tallyEntry_tally _ l h hopen'
  obtain ⟨-, -, -, hprods, -, hothers⟩ := tallyEntry_room hopen' hroom'
  refine ⟨⟨(lineSettled_of hprods l).trans hopen', fun y hy => ?_⟩, hmine, fun y hy => ?_⟩
  · rw [otherTally_tallyEntry hopen' hroom']
    exact hQ.2 y hy
  · by_cases hslot : y.slot = h.slot
    · rw [hslot]
      exact hmine
    · rw [hothers _ hslot]
      exact hy

/-! ### What a line leaves -/

theorem finishLine_emits (d : Dev) (l : LineId) (again : Bool) : d.Emits (d.finishLine l again) := by
  have hpast : d.Emits (d.pastLine l again).freeEntries := (Dev.Emits.of (Dev.pastLine_only _ _ _) rfl).trans (freeEntries_emits _)
  unfold Dev.finishLine
  split
  · exact hpast.trans (.of (Dev.refreshLead_only _) (Nat.zero_testBit _))
  · exact hpast

/-- The entries freed after a line leave the Tally tables. -/
theorem freeEntries_tally (d : Dev) : d.freeEntries.integ.tally = d.integ.tally := by
  refine fold_keep' d.retireSent.placements _ (fun e => e.integ.tally) d.retireSent fun e p => ?_
  dsimp only
  split
  · exact congrArg Integ.tally ((Dev.maybeDone_only _ _).parts .integ rfl)
  · rfl

theorem finishLine_tally (d : Dev) (l : LineId) (again : Bool) : (d.finishLine l again).integ.tally = d.integ.tally := by
  have hpast : (d.pastLine l again).freeEntries.integ.tally = d.integ.tally :=
    (freeEntries_tally _).trans (congrArg Integ.tally ((Dev.pastLine_only _ _ _).parts .integ rfl))
  unfold Dev.finishLine
  split
  · exact (congrArg Integ.tally ((Dev.refreshLead_only _).parts .integ (Nat.zero_testBit _))).trans hpast
  · exact hpast

/-- The line has left the output FIFOs of the bar's heads. -/
theorem finishLine_fifo (d : Dev) (l : LineId) (again : Bool) :
    ∀ x ∈ d.slotsOf l.bar, ∀ f ∈ ((d.finishLine l again).lane x).fifo, ¬(f.jn = l.jn ∧ f.line = l.line) := by
  intro x hx
  unfold Dev.finishLine
  split
  · rw [lane_congr ((Dev.refreshLead_only _).parts .lanes (Nat.zero_testBit _))]
    exact pastLine_fifo d l again x hx
  · exact pastLine_fifo d l again x hx

theorem sendOrSpoil_boot (d : Dev) (l : LineId) (again : Bool) (heads : List SentHead) : (d.sendOrSpoil l again heads).boot = d.boot := by
  unfold Dev.sendOrSpoil
  dsimp only
  split
  · exact (Dev.fireLine_only _ _ _).parts .boot rfl
  · exact (Dev.spoilUnready_only _ _ _).parts .boot rfl

theorem sendOrSpoil_ready {d : Dev} {l : LineId} {again : Bool} (h : ∀ x ∈ d.slotsOf l.bar, d.notReady x l again = none)
    (heads : List SentHead) : d.sendOrSpoil l again heads = d.fireLine l heads :=
  if_pos (List.filterMap_eq_nil_iff.2 h)

end Sys2Proof.Machine

/-! The clauses of the send point and of a new prediction (06, R155 to R158; 08, R202, R211), assembled. -/
namespace Sys2Proof.Machine
set_option exponentiation.threshold 600

/-! ### At the send point -/

section
variable {d : Dev} {bar : Nat} {l : LineId} {again : Bool} {p : Pl} {r : JobRec} {heads : List SentHead}

theorem readied_boot (d : Dev) (bar : Nat) (start : Prop) [Decidable start] : (d.readied bar start).boot = d.boot :=
  (readied_only d bar start).parts .boot (by decide)

theorem readied_integ (d : Dev) (bar : Nat) (start : Prop) [Decidable start] : (d.readied bar start).integ = d.integ :=
  (readied_only d bar start).parts .integ (by decide)

/-- What a line begins changes nothing of its readiness. -/
theorem begun_notReady (d : Dev) (bar : Nat) (p : Pl) (r : JobRec) (l : LineId) (again : Bool) (slot : Nat) :
    (d.begun bar p r l again).notReady slot l again = (d.readied bar (StartsProduct r l again)).notReady slot l again :=
  notReady_of ((begun_only d bar p r l again).parts .lanes rfl) (fun _ => (begun_only d bar p r l again).rd _ _ _ rfl) slot l again

theorem begun_slotsOf (d : Dev) (bar : Nat) (p : Pl) (r : JobRec) (l : LineId) (again : Bool) :
    (d.begun bar p r l again).slotsOf bar = (d.readied bar (StartsProduct r l again)).slotsOf bar :=
  slotsOf_congr ((begun_only d bar p r l again).parts .boot rfl) bar

theorem begun_linkTime (d : Dev) (bar : Nat) (p : Pl) (r : JobRec) (l : LineId) (again : Bool) (t : Nat) :
    (d.begun bar p r l again).linkTime t = d.linkTime t :=
  (linkTime_of_only (begun_only d bar p r l again) rfl rfl rfl t).trans
    (linkTime_of_only (readied_only d bar _) (by decide) (by decide) (by decide) t)

/-- A line that starts no product, on a bar with no dark head, finds the tables as they stand. -/
theorem begun_integ (hbar : l.bar = bar) (hno : ¬(StartsProduct r l again ∧ bar = 0))
    (hlit : ∀ x ∈ (d.readied bar (StartsProduct r l again)).slotsOf bar, ((d.readied bar (StartsProduct r l again)).lane x).isDark = false) :
    (d.begun bar p r l again).integ = d.integ := by
  subst hbar
  have hbegin := Dev.noteFirst_only (d.readied l.bar (StartsProduct r l again)) p l
  unfold Dev.begun Dev.beginLine
  rw [if_neg hno, spoilDark_none]
  · exact (hbegin.parts .integ rfl).trans (readied_integ _ _ _)
  · intro x hx
    rw [slotsOf_congr (hbegin.parts .boot rfl)] at hx
    rw [lane_congr (hbegin.parts .lanes rfl)]
    exact hlit x hx

/-- A due line leaves the output FIFOs of its bar. -/
theorem sendPoint_fifo (h : d.SendsLine bar l again p r heads) (hdue : d.refreshSpeed.sendDue p l heads = true) :
    ∀ x ∈ d.slotsOf bar, ∀ f ∈ ((d.sendPoint bar).lane x).fifo, ¬(f.jn = l.jn ∧ f.line = l.line) := by
  have hslots : ((d.begun bar p r l again).sendOrSpoil l again heads).slotsOf l.bar = d.slotsOf bar := by
    rw [nextLine_bar h.next, slotsOf_congr (sendOrSpoil_boot _ _ _ _), begun_slotsOf, slotsOf_congr (readied_boot _ _ _)]
  rw [sendPoint_eq h, if_pos hdue, ← hslots]
  exact finishLine_fifo _ l again

/-- A due line that is ready on its bar is sent. -/
theorem sendPoint_ready (h : d.SendsLine bar l again p r heads) (hdue : d.refreshSpeed.sendDue p l heads = true)
    (hready : ∀ x ∈ (d.readied bar (StartsProduct r l again)).slotsOf bar, (d.readied bar (StartsProduct r l again)).notReady x l again = none) :
    d.sendPoint bar = ((d.begun bar p r l again).fireLine l heads).finishLine l again := by
  rw [sendPoint_eq h, if_pos hdue, sendOrSpoil_ready]
  intro x hx
  rw [nextLine_bar h.next, begun_slotsOf] at hx
  rw [begun_notReady]
  exact hready x hx

theorem sendPoint_sends (h : d.SendsLine bar l again p r heads) (hdue : d.refreshSpeed.sendDue p l heads = true)
    (hready : ∀ x ∈ (d.readied bar (StartsProduct r l again)).slotsOf bar, (d.readied bar (StartsProduct r l again)).notReady x l again = none) :
    ∀ x ∈ heads, ∃ k c n, Output.zl x.slot k (.fire l.jn l.line (d.linkTime x.tfire) x.bead false false) c n ∈ (d.sendPoint bar).out := by
  intro x hx
  obtain ⟨k, c, n, hsent⟩ := fireLine_sends (d.begun bar p r l again) l heads x hx
  rw [sendPoint_ready h hdue hready]
  rw [begun_linkTime] at hsent
  exact ⟨k, c, n, (finishLine_emits _ l again).mem _ hsent⟩

theorem sendPoint_tally (h : d.SendsLine bar l again p r heads) (hdue : d.refreshSpeed.sendDue p l heads = true)
    (hready : ∀ x ∈ (d.readied bar (StartsProduct r l again)).slotsOf bar, (d.readied bar (StartsProduct r l again)).notReady x l again = none)
    (hopen : d.lineSettled l = false) (hno : ¬(StartsProduct r l again ∧ bar = 0))
    (hlit : ∀ x ∈ (d.readied bar (StartsProduct r l again)).slotsOf bar, ((d.readied bar (StartsProduct r l again)).lane x).isDark = false)
    (hroom : ∀ x ∈ (d.readied bar (StartsProduct r l again)).litSlots bar, (Tab.at d.integ.tally x : List TallyEnt).length < 64) :
    ∀ x ∈ heads, ∃ e ∈ (Tab.at (d.sendPoint bar).integ.tally x.slot : List TallyEnt), e.jn = l.jn ∧ e.line = l.line := by
  have hinteg : (d.begun bar p r l again).integ = d.integ := begun_integ (nextLine_bar h.next) hno hlit
  rw [sendPoint_ready h hdue hready, finishLine_tally]
  refine fireLine_tally ((lineSettled_of (congrArg Integ.prods hinteg) l).trans hopen) fun x hx => ?_
  rw [hinteg]
  exact hroom x.slot (sendHeads_slot h.heads x hx)

/-- The product that a due line of bar 0 starts stands in the product table. -/
theorem sendPoint_product (h : d.SendsLine bar l again p r heads) (hdue : d.refreshSpeed.sendDue p l heads = true)
    (hstart : StartsProduct r l again) (hbar : bar = 0) (hnew : d.prod p.jn (r.firstPn + l.line / r.pitch) = none)
    (hheld : d.integ.heldSpoils = []) (hbars : d.bars ≠ []) :
    (d.sendPoint bar).Holds p.jn (r.firstPn + l.line / r.pitch) l.line (l.line + r.pitch - 1) := by
  have hinteg := readied_integ d bar (StartsProduct r l again)
  have hboot : (d.readied bar (StartsProduct r l again)).bars = d.bars := by
    unfold Dev.bars
    rw [readied_boot]
  have hstarted := startProduct_holds (d := d.readied bar (StartsProduct r l again)) (p := p) (r := r) (line := l.line)
    ((prod_congr (congrArg Integ.prods hinteg) _ _).trans hnew) (by rw [hinteg]; exact hheld) (by rw [hboot]; exact hbars)
  have hbegun : ((d.readied bar (StartsProduct r l again)).beginLine bar p r l (StartsProduct r l again)).Holds p.jn
      (r.firstPn + l.line / r.pitch) l.line (l.line + r.pitch - 1) := by
    unfold Dev.beginLine
    rw [if_pos ⟨hstart, hbar⟩]
    exact hstarted.of (Dev.noteFirst_only _ _ _) rfl
  rw [sendPoint_eq h, if_pos hdue, Dev.begun, ← sendLine_eq]
  exact hbegun.sendLine l again heads
end

/-! ### A new prediction -/

/-- The register fields that a prediction reads. -/
def predictionFields : List Fld :=
  [.FIRE_SPDSTAT_STATUS, .FIRE_ACCEL_A, .TB_CTL_SRC, .ZL_LAT_LAT, .FIRE_PL_ORGH_VALID, .FIRE_PL_JN_JN, .FIRE_PL_ORGF_FRAC, .FIRE_PL_ORGL_INT,
    .FIRE_PL_ORGH_INT, .FIRE_PL_PITF_FRAC, .FIRE_PL_PITI_INT, .FIRE_PL_LINES_L]

/-- What a prediction reads is the same in two blocks. -/
structure Dev.PredictsAs (d e : Dev) : Prop where
  fire : e.fire = d.fire
  tb : e.tb = d.tb
  regs : ∀ f ∈ predictionFields, ∀ i, e.rd f i = d.rd f i

section
variable {d e : Dev}

theorem Dev.PredictsAs.refreshSpeed (h : d.PredictsAs e) : d.PredictsAs e.refreshSpeed := by
  have ho := Dev.refreshSpeed_only e
  refine ⟨(ho.parts .fire (Nat.zero_testBit _)).trans h.fire, (ho.parts .tb (Nat.zero_testBit _)).trans h.tb, fun f hf i => ?_⟩
  have hne : f ∉ [Fld.FIRE_SPEED_V, .FIRE_SPDSTAT_DECAY, .FIRE_SPDSTAT_MODE] := (by decide : ∀ f ∈ predictionFields, f ∉ _) f hf
  exact (ho.keep _ (by decide) hne i 0).trans (h.regs f hf i)

theorem Dev.PredictsAs.now (h : d.PredictsAs e) : e.now = d.now := now_of h.tb (h.regs _ (by decide) 0)

theorem Dev.PredictsAs.valid (h : d.PredictsAs e) : e.valid = d.valid := by
  unfold Dev.valid
  rw [h.regs _ (by decide)]

theorem Dev.PredictsAs.v20 (h : d.PredictsAs e) : e.v20 = d.v20 := by
  unfold Dev.v20 Dev.vBound20 Dev.vRaw20
  rw [h.valid, h.now, h.fire]

theorem Dev.PredictsAs.newTimes (h : d.PredictsAs e) (l : SentLine) : e.newTimes l = d.newTimes l := by
  unfold Dev.newTimes Dev.tfirePred Dev.srd
  rw [h.v20, h.fire, h.regs _ (by decide)]

theorem Dev.PredictsAs.overEighth (h : d.PredictsAs e) (pitch : Nat) (change : Int) : e.overEighth pitch change = d.overEighth pitch change := by
  unfold Dev.overEighth
  rw [h.v20]

theorem Dev.PredictsAs.canArrive (h : d.PredictsAs e) (l : SentLine) (times : List Nat) : e.canArrive l times = d.canArrive l times := by
  unfold Dev.canArrive
  simp only [h.now, h.regs .ZL_LAT_LAT (by decide)]

theorem Dev.PredictsAs.plOf (h : d.PredictsAs e) (jn : Nat) : e.plOf jn = d.plOf jn := by
  have hpl : e.pl = d.pl := by
    funext n
    unfold Dev.pl Dev.flag
    simp only [h.regs .FIRE_PL_ORGH_VALID (by decide), h.regs .FIRE_PL_JN_JN (by decide), h.regs .FIRE_PL_ORGF_FRAC (by decide),
      h.regs .FIRE_PL_ORGL_INT (by decide), h.regs .FIRE_PL_ORGH_INT (by decide), h.regs .FIRE_PL_PITF_FRAC (by decide),
      h.regs .FIRE_PL_PITI_INT (by decide), h.regs .FIRE_PL_LINES_L (by decide)]
  unfold Dev.plOf Dev.placements
  rw [hpl, h.fire]
end

/-- Sent lines that no head waits for leave the list; the rest of the firing state stays. -/
theorem retireSent_fire (d : Dev) : d.retireSent.fire =
    { d.fire with sent := d.fire.sent.filter (fun l => !l.heads.all (fun h => decide (h.tfire ≤ d.now))) } := rfl

/-- A block that is not VALID predicts nothing (R157). -/
theorem repredict_invalid {d : Dev} (h : d.valid = false) : d.repredict = d.retireSent.refreshSpeed := by
  have hvalid : d.retireSent.refreshSpeed.valid = false :=
    (Dev.PredictsAs.refreshSpeed (d := d.retireSent) ⟨rfl, rfl, fun _ _ _ => rfl⟩).valid.trans h
  unfold Dev.repredict
  simp [hvalid]

/-- The one line that is sent, with a head still to fire, is predicted again in a block that reads as before. -/
theorem repredict_one {d : Dev} {l : SentLine} (hvalid : d.valid = true) (hsent : d.fire.sent = [l]) (hlate : l.late = false)
    (hwaits : l.heads.all (fun h => decide (h.tfire ≤ d.now)) = false) :
    d.repredict = d.retireSent.refreshSpeed.predictLine l ∧ d.PredictsAs d.retireSent.refreshSpeed := by
  have hfire : d.retireSent.fire = d.fire := by
    rw [retireSent_fire, hsent, List.filter_singleton, hwaits]
    exact congrArg (fun x => { d.fire with sent := x }) hsent.symm
  have hsame : d.PredictsAs d.retireSent.refreshSpeed := Dev.PredictsAs.refreshSpeed ⟨hfire, rfl, fun _ _ _ => rfl⟩
  refine ⟨?_, hsame⟩
  unfold Dev.repredict
  dsimp only
  rw [hsame.valid, if_pos hvalid, hsame.fire, hsent, List.filter_singleton, hlate]
  rfl

theorem forEach_sendFire_fire (d : Dev) (jn line : Nat) (amend withdraw : Bool) (heads : List SentHead) :
    (d.forEach heads (fun d h => d.sendFire jn line h amend withdraw)).fire = d.fire :=
  fold_keep' heads _ (fun e => e.fire) d fun _ _ => (Dev.sendFire_only _ _ _ _ _ _).parts .fire rfl

/-- A withdrawn line leaves the list of sent lines and waits to be sent again (R157). -/
theorem withdraw_fire (d : Dev) (l : SentLine) : (d.withdraw l).fire.sent = d.fire.sent.filter (· != l) ∧
    (d.withdraw l).fire.again = d.fire.again ++ [⟨l.bar, l.jn, l.line, l.trim⟩] := by
  unfold Dev.withdraw
  extract_lets +onlyGivenNames e
  have he : e.fire = d.fire := forEach_sendFire_fire _ _ _ _ _ _
  clear_value e
  dsimp only
  rw [he]
  exact ⟨rfl, rfl⟩

/-- An amended line is counted, and stands in the list of sent lines with its new times (R157). -/
theorem amend_fire (d : Dev) (l : SentLine) (ts : List Nat) (change : Int) :
    (d.amend l ts change).rd .FIRE_AMCNT_AMEND = min (d.rd .FIRE_AMCNT_AMEND + 1) (2 ^ (fldSpec .FIRE_AMCNT_AMEND).width - 1) ∧
      (d.amend l ts change).fire.sent = d.fire.sent.map (fun x => if x = l then
        { l with heads := (l.heads.zip ts).map (fun x => { x.1 with tfire := x.2 }) } else x) := by
  unfold Dev.amend
  extract_lets heads e g
  have hefire : e.fire = d.fire := forEach_sendFire_fire _ _ _ _ _ _
  have heamend : e.rd .FIRE_AMCNT_AMEND = d.rd .FIRE_AMCNT_AMEND :=
    fold_keep' heads _ (fun e => e.rd .FIRE_AMCNT_AMEND) d fun _ _ => (Dev.sendFire_only _ _ _ _ _ _).rd _ _ _ (Nat.zero_testBit _)
  clear_value e
  have htimes := Dev.tallyTimes_only (e.putSent l { l with heads := heads }) { l with heads := heads }
  constructor
  · rw [(Dev.raise_only _ _ _).rd _ _ _ rfl]
    unfold g
    rw [inc_rd, htimes.rd _ _ _ (Nat.zero_testBit _)]
    exact congrArg (fun n => min (n + 1) _) heamend
  · have hfire : (Dev.raise g Ev.FIRE_AMEND (le 1 l.bar ++ le 4 l.jn ++ le 4 l.line ++ le 4 (unsign 32 change))).fire =
        (e.putSent l { l with heads := heads }).fire :=
      ((Dev.raise_only _ _ _).parts .fire rfl).trans (htimes.parts .fire rfl)
    rw [hfire]
    unfold Dev.putSent
    rw [hefire]

/-! ### The commands -/

/-- SEND_POINT while lines may fire answers with the block that the bar's line leaves. -/
theorem gives_sendPoint {bar : Pipe} {s : State} {P : State → Prop} (hrun : s.dev.st.running = true) (hfire : s.dev.flag .FIRE_CTL_EN = true)
    (h : P { s with dev := s.dev.sendPoint bar.val }) : Gives (.sendPoint bar) s P := by
  refine gives_act (show exec (.sendPoint bar) s = execSendPoint bar s from rfl) ?_
  rw [if_pos (by rw [hrun, hfire]; rfl)]
  exact h

/-- A predicted line that has lost a fire time is withdrawn where the withdrawal can arrive. -/
theorem predictLine_withdraw {d : Dev} {l : SentLine} {p : Pl} (hpl : d.plOf l.jn = some p) (hlost : d.newTimes l = none)
    (harrive : d.canArrive l (l.heads.map (·.tfire)) = true) : d.predictLine l = d.withdraw l := by
  unfold Dev.predictLine
  rw [hpl]
  dsimp only
  rw [hlost]
  exact if_pos harrive

/-- A predicted line whose times change by more than an eighth of a line is amended where that can arrive. -/
theorem predictLine_amend {d : Dev} {l : SentLine} {p : Pl} {ts : List Nat} (hpl : d.plOf l.jn = some p) (hnew : d.newTimes l = some ts)
    (hover : d.overEighth p.pitch (maxChange (l.heads.map (·.tfire)) ts) = true)
    (harrive : d.canArrive l (l.heads.map (·.tfire) ++ ts) = true) :
    d.predictLine l = d.amend l ts (maxChange (l.heads.map (·.tfire)) ts) := by
  unfold Dev.predictLine
  rw [hpl]
  dsimp only
  rw [hnew]
  dsimp only
  rw [if_neg (by rw [hover]; decide), if_pos harrive]

/-- Settles O35: the send point of a line whose heads have fire times is the line's beginning, its sending and its end; a new prediction of
the one sent line is that line's withdrawal or amendment. -/
theorem sendPointsTakeEffect : Obligations.SendPointsTakeEffect := by
  refine ⟨fun bar l again p r heads s hrun hfire hnext hpl hjob => ?_, fun s hvalid => ?_, fun l p s hvalid hsent hlate hpl hwaits => ?_⟩
  · intro start d slots pn hheads
    have h : s.dev.SendsLine bar.val l again p r heads := ⟨hnext, hpl, hjob, hheads⟩
    refine ⟨fun hdue => gives_sendPoint hrun hfire ?_, fun hdue => gives_sendPoint hrun hfire ⟨sendPoint_fifo h hdue, fun hready =>
      ⟨sendPoint_sends h hdue hready, fun hopen hno hlit hroom => sendPoint_tally h hdue hready hopen hno hlit hroom⟩, ?_⟩⟩
    · rw [sendPoint_eq h, if_neg (by rw [hdue]; decide)]
      exact (State.Only.mkDev (Dev.refreshSpeed_only s.dev) (State.Only.refl _ _ s)).unchanged (Nat.zero_and _) (by decide)
    · intro hstart hbar hnew hheld hbars
      obtain ⟨q, hq, hfirst, hlast, -⟩ := sendPoint_product h hdue hstart hbar hnew hheld hbars
      obtain ⟨hjn, hpn⟩ := prod_ids hq
      exact ⟨q, List.mem_of_find?_eq_some hq, hjn, hpn, hfirst, hlast⟩
  · refine gives_act (show exec .fireRepredict s = s.act Dev.repredict from rfl) ?_
    have honly : Dev.Only 0x1400000 0xc8000000000000000000000000000000000000000000 s.dev s.dev.retireSent.refreshSpeed :=
      .step (Dev.refreshSpeed_only _) (Nat.zero_and _) rfl ((Dev.retireSent_only s.dev).mono rfl (Nat.zero_and _))
    rw [repredict_invalid hvalid]
    refine ⟨?_, (State.Only.mkDev honly (State.Only.refl _ _ s)).unchanged (by decide) (by decide)⟩
    exact ((Dev.refreshSpeed_only s.dev.retireSent).parts .fire (Nat.zero_testBit _)).trans (retireSent_fire s.dev)
  · obtain ⟨hone, hsame⟩ := repredict_one hvalid hsent hlate hwaits
    have hspeed : s.dev.PredictsAs s.dev.refreshSpeed := Dev.PredictsAs.refreshSpeed ⟨rfl, rfl, fun _ _ _ => rfl⟩
    have hpl' := (hsame.plOf l.jn).trans hpl
    have htimes : s.dev.retireSent.refreshSpeed.newTimes l = s.dev.refreshSpeed.newTimes l :=
      (hsame.newTimes l).trans (hspeed.newTimes l).symm
    refine ⟨fun hlost harrive => ?_, fun ts hnew hover harrive => ?_⟩ <;>
      refine gives_act (show exec .fireRepredict s = s.act Dev.repredict from rfl) ?_ <;> dsimp only <;> rw [hone]
    · obtain ⟨hgone, hagain⟩ := withdraw_fire s.dev.retireSent.refreshSpeed l
      rw [predictLine_withdraw hpl' (htimes.trans hlost) ((hsame.canArrive l _).trans harrive), hgone, hagain, hsame.fire, hsent]
      exact ⟨by simp, rfl⟩
    · obtain ⟨hcount, hamended⟩ := amend_fire s.dev.retireSent.refreshSpeed l ts (maxChange (l.heads.map (·.tfire)) ts)
      have hcounter : s.dev.retireSent.refreshSpeed.rd .FIRE_AMCNT_AMEND = s.dev.rd .FIRE_AMCNT_AMEND :=
        (Dev.refreshSpeed_only _).rd _ _ _ rfl
      rw [predictLine_amend hpl' (htimes.trans hnew) ((hsame.overEighth _ _).trans hover) ((hsame.canArrive l _).trans harrive), hcount,
        hamended, hsame.fire, hsent, hcounter]
      exact ⟨rfl, by simp⟩

end Sys2Proof.Machine

/-! The states of the head lanes (07, R171, R175, R194 to R196): bring-up, losses, low power and loops. -/
namespace Sys2Proof.Machine
set_option exponentiation.threshold 600

/-! ### Reads of a lane's state -/

/-- A register field after a write of another. -/
theorem rd_wr_other (d : Dev) {f g : Fld} (v i j k l : Nat) (h : g ≠ f) : (d.wr f v i j).rd g k l = d.rd g k l :=
  (Dev.rd_wr _ _ _ _ _ _ _ _).trans (if_neg fun e => h e.1)

theorem laneIs_congr {d e : Dev} {n : Nat} (h : e.rd .ZL_STAT_STATE n = d.rd .ZL_STAT_STATE n) (x : LaneSt) : e.laneIs n x = d.laneIs n x := by
  unfold Dev.laneIs
  rw [h]

theorem laneRuns_congr {d e : Dev} {n : Nat} (h : e.rd .ZL_STAT_STATE n = d.rd .ZL_STAT_STATE n) : e.laneRuns n = d.laneRuns n := by
  unfold Dev.laneRuns
  rw [laneIs_congr h, laneIs_congr h]

theorem laneTo_is (d : Dev) (n : Nat) (x : LaneSt) : (d.laneTo n x).laneIs n x = true := laneIs_of (laneTo_st d n x)

/-! ### Bring-up and losses (R171, R175) -/

theorem laneEnable_gives {n : LaneNo} {s : State} (hoff : s.dev.laneIs n .off = true) (hen : s.dev.flag .ZL_CFG_EN n = true)
    (hon : s.dev.domOn (if n.val < 32 then .za else .zb) = true) (hn : n.val < s.dev.nLanes) :
    Gives (.laneEnable n) s fun t => t.dev.laneIs n .locking = true := by
  refine gives_act (show exec (.laneEnable n) s = execLaneEnable n s from rfl) ?_
  have hopen : (s.dev.laneIs n .off && s.dev.flag .ZL_CFG_EN n && s.dev.domOn (if n.val < 32 then .za else .zb) &&
      decide (n.val < s.dev.nLanes)) = true := by
    rw [hoff, hen, hon, decide_eq_true hn]
    rfl
  rw [if_pos hopen]
  exact (laneIs_congr ((Dev.sendIdle_only _ _ _).rd _ _ _ (Nat.zero_testBit _)) _).trans (laneTo_is _ _ _)

theorem blockLock_gives {n : LaneNo} {s : State} (h : s.dev.laneIs n .locking = true) :
    Gives (.blockLock n) s fun t => t.dev.laneIs n .locked = true ∧ t.dev.rd .ZL_STAT_LOCK n = 1 := by
  refine gives_act (show exec (.blockLock n) s = execBlockLock n s from rfl) ?_
  rw [if_pos h]
  refine ⟨(laneIs_congr ?_ _).trans (laneTo_is s.dev n .locked), ?_⟩ <;>
    rw [(Dev.sendIdle_only _ _ _).rd _ _ _ (Nat.zero_testBit _), Dev.updLane_rd]
  · exact rd_wr_other _ _ _ _ _ _ (by decide)
  · exact rd_wr_self _ _ _ _ _ (by decide)

/-- What LANE_UP shows of the far side. -/
def Dev.farSeen (d : Dev) (n g : Nat) : Dev := (d.wr .ZL_STAT_FARGEN g n).wr .ZL_STAT_FARLOCK 1 n

theorem farSeen_gen (d : Dev) (n : Nat) (g : Fin 4) : (d.farSeen n g).rd .ZL_STAT_FARGEN n = g :=
  (rd_wr_other _ _ _ _ _ _ (by decide)).trans (rd_wr_self _ _ _ _ _ g.isLt)

theorem farSeen_capGen (d : Dev) (n g : Nat) : (d.farSeen n g).capGen n = d.capGen n := by simp [Dev.capGen, Dev.farSeen, Dev.flag]

theorem enterUp_is (d : Dev) (n : Nat) (wake : Bool) : (d.enterUp n wake).laneIs n .up = true ∧ (d.enterUp n wake).evPending Ev.ZL_UP :=
  ⟨laneIs_of (enterUp_st d n wake).1, (enterUp_st d n wake).2⟩

/-- A far generation that differs from the lane's leaves it at fault, the event pending. -/
theorem genMismatch_is (d : Dev) (n : Nat) (bs : List Byte) : ((d.laneTo n .fault).raise Ev.ZL_GEN_MISMATCH bs).laneIs n .fault = true ∧
    ((d.laneTo n .fault).raise Ev.ZL_GEN_MISMATCH bs).evPending Ev.ZL_GEN_MISMATCH ∧
    ((d.laneTo n .fault).raise Ev.ZL_GEN_MISMATCH bs).rd .ZL_STAT_FARGEN n = d.rd .ZL_STAT_FARGEN n := by
  refine ⟨(laneIs_congr ?_ _).trans (laneTo_is d n .fault), Dev.raise_pending _ _ _ (by decide), ?_⟩ <;>
    rw [Dev.raise_rd _ _ _ _ _ _ (by decide) (by decide)]
  exact laneTo_keep _ _ _ _ _ (by decide)

/-- LANE_UP of a LOCKED lane shows the far side, and brings the lane up or to FAULT by its generation. -/
theorem laneUp_exec {n : LaneNo} {g : Fin 4} {s : State} (h : s.dev.laneIs n .locked = true) :
    exec (.laneUp n g) s = s.act fun _ => if g.val = (s.dev.farSeen n g).capGen n then (s.dev.farSeen n g).enterUp n false
      else ((s.dev.farSeen n g).laneTo n .fault).raise Ev.ZL_GEN_MISMATCH (le 1 n ++ le 1 g) := by
  have hlocked : ¬(!s.dev.laneIs n .locked) = true := by rw [h]; decide
  change execLaneUp n g s = _
  unfold execLaneUp State.act
  dsimp only
  rw [if_neg hlocked]
  rfl

theorem laneUp_gives {n : LaneNo} {g : Fin 4} {s : State} (h : s.dev.laneIs n .locked = true) :
    Gives (.laneUp n g) s fun t => t.dev.rd .ZL_STAT_FARGEN n = g.val ∧
      (g.val = s.dev.capGen n → t.dev.laneIs n .up = true ∧ t.dev.evPending Ev.ZL_UP) ∧
      (g.val ≠ s.dev.capGen n → t.dev.laneIs n .fault = true ∧ t.dev.evPending Ev.ZL_GEN_MISMATCH) := by
  refine gives_act (laneUp_exec h) ?_
  dsimp only
  rw [← farSeen_capGen s.dev n g]
  have hgen := farSeen_gen s.dev n g
  generalize s.dev.farSeen n g = d at hgen ⊢
  by_cases hg : g.val = d.capGen n
  · rw [if_pos hg]
    exact ⟨((Dev.enterUp_only _ _ _).rd _ _ _ rfl).trans hgen, fun _ => enterUp_is d n false, fun hne => absurd hg hne⟩
  · obtain ⟨hfault, hpending, hkeep⟩ := genMismatch_is d n (le 1 n ++ le 1 g)
    rw [if_neg hg]
    exact ⟨hkeep.trans hgen, fun heq => absurd heq hg, fun _ => ⟨hfault, hpending⟩⟩

/-- A loss takes a lane back to LOCKING, its lock gone. -/
theorem loseLane_locking (d : Dev) (n c : Nat) :
    (d.loseLane n c .locking).laneIs n .locking = true ∧ (d.loseLane n c .locking).rd .ZL_STAT_LOCK n = 0 :=
  ⟨laneIs_of (loseLane_st d n c .locking).1, (loseLane_st d n c .locking).2 (.inl rfl)⟩

theorem lockLost_gives {n : LaneNo} {s : State} (h : s.dev.laneIs n .locked = true ∨ s.dev.laneRuns n = true) :
    Gives (.lockLost n) s fun t => t.dev.laneIs n .locking = true ∧ t.dev.rd .ZL_STAT_LOCK n = 0 := by
  refine gives_act (show exec (.lockLost n) s = execLockLost n s from rfl) ?_
  rw [if_pos ((Bool.or_eq_true _ _).mpr h)]
  exact loseLane_locking s.dev n 1

theorem statusTimeout_gives {n : LaneNo} {s : State} (h : s.dev.laneIs n .locked = true ∨ s.dev.laneRuns n = true)
    (hloop : s.dev.flag .ZL_STAT_LOOP n = false)
    (hover : s.dev.passed (s.dev.lane n).statusAt (100000 * s.dev.rd .ZL_CFG_STTO n) = true) :
    Gives (.statusTimeout n) s fun t => t.dev.laneIs n .locking = true ∧ t.dev.rd .ZL_STAT_LOCK n = 0 := by
  have hlost : ((s.dev.laneIs n .locked || s.dev.laneRuns n) && !s.dev.flag .ZL_STAT_LOOP n
      && s.dev.passed (s.dev.lane n).statusAt (100000 * s.dev.rd .ZL_CFG_STTO n)) = true := by
    rw [hloop, hover, (Bool.or_eq_true _ _).mpr h]
    rfl
  refine gives_act (show exec (.statusTimeout n) s = execStatusTimeout n s from rfl) ?_
  rw [if_pos hlost]
  exact loseLane_locking s.dev n 2

/-! ### Wake (R196) -/

theorem laneWake_gives {n : LaneNo} {s : State} (h : s.dev.laneIs n .sleep = true ∨ s.dev.laneIs n .park = true) :
    Gives (.laneWake n) s fun t => t.dev.laneIs n .up = true ∧ t.dev.rd .ZL_LPCTL_CUR n = 0 ∧ t.dev.evPending Ev.ZL_UP := by
  refine gives_act (show exec (.laneWake n) s = execLaneWake n s from rfl) ?_
  dsimp only
  rw [if_pos ((Bool.or_eq_true _ _).mpr h)]
  obtain ⟨hup, hpending⟩ := enterUp_is _ n true
  refine ⟨hup, ((Dev.enterUp_only _ _ _).rd .ZL_LPCTL_CUR _ _ rfl).trans ?_, hpending⟩
  simp

/-! ### Loops (R194) -/

theorem loopMode_zero {d : Dev} {n : Nat} (h : d.rd .ZL_LOOP_MODE n ≠ 0) : d.loopMode n 0 = d.leaveLoop n :=
  (if_neg h.symm).trans (if_pos rfl)

theorem loopMode_idle {d : Dev} {n mode : Nat} (hnew : mode ≠ d.rd .ZL_LOOP_MODE n) (hmode : mode ≠ 0) (hidle : d.laneIdle n = true) :
    d.loopMode n mode = (d.leaveLoop n).enterLoop n mode :=
  (if_neg hnew).trans ((if_neg hmode).trans (if_pos hidle))

theorem loopMode_busy {d : Dev} {n mode : Nat} (hmode : mode ≠ 0) (hbusy : d.laneIdle n = false) : d.loopMode n mode = d := by
  unfold Dev.loopMode
  simp [hmode, hbusy]

/-- A lane in no loop has none to leave. -/
theorem leaveLoop_none {d : Dev} {n : Nat} (h : d.rd .ZL_LOOP_MODE n = 0) : d.leaveLoop n = d := if_pos h

/-- The far-end loop takes a running lane. -/
theorem loopMode_far_stopped {d : Dev} {n : Nat} (hloop : d.rd .ZL_LOOP_MODE n = 0) (hstop : d.laneRuns n = false) : d.loopMode n 3 = d := by
  cases hidle : d.laneIdle n with
  | false => exact loopMode_busy (by decide) hidle
  | true =>
    rw [loopMode_idle (by rw [hloop]; decide) (by decide) hidle, leaveLoop_none hloop]
    exact if_pos (by rw [hstop]; rfl)

/-- An idle lane enters the loop asked for; the far-end loop asks for a running lane in no loop. -/
theorem loopMode_enters {d : Dev} {n : Nat} {mode : Fin 4} (hnew : mode.val ≠ d.rd .ZL_LOOP_MODE n) (hmode : mode.val ≠ 0)
    (hidle : d.laneIdle n = true) (hfar : mode.val ≠ 3 ∨ (d.laneRuns n = true ∧ d.rd .ZL_LOOP_MODE n = 0)) :
    (d.loopMode n mode).rd .ZL_STAT_LOOP n = 1 ∧ (d.loopMode n mode).rd .ZL_LOOP_MODE n = mode := by
  rw [loopMode_idle hnew hmode hidle]
  refine enterLoop_st _ _ _ mode.isLt (hfar.imp_right ?_)
  rintro ⟨hruns, hnone⟩
  rwa [leaveLoop_none hnone]

theorem loopModeWrite_gives {lvl : Lvl} {n : LaneNo} {mode : Fin 4} {s : State} {p : State → Prop}
    (hr : s.dev.Reaches lvl (0x700014 + 0x400 * n.val)) (hp : p { s with dev := s.dev.loopMode n mode }) :
    Gives (.loopModeWrite lvl n mode) s p := reaches_act hr rfl hp

theorem loopModeWrite_keeps {lvl : Lvl} {n : LaneNo} {mode : Fin 4} {s : State} (hr : s.dev.Reaches lvl (0x700014 + 0x400 * n.val))
    (hkeep : s.dev.loopMode n mode = s.dev) : Gives (.loopModeWrite lvl n mode) s fun t => t = s := by
  refine loopModeWrite_gives hr ?_
  rw [hkeep]

/-- Settles O36: each command is one move of the lane, and the moves' own lemmas say where it ends. -/
theorem laneStatesFollow : Obligations.LaneStatesFollow := by
  refine ⟨fun _ _ => laneEnable_gives, fun _ _ => blockLock_gives, fun _ _ _ => laneUp_gives,
    fun _ _ => lockLost_gives, fun _ _ => statusTimeout_gives, fun lvl n s hr hruns hidle => ?_, fun _ _ => laneWake_gives,
    fun lvl n mode s hr hnew => ⟨fun hzero => ?_, fun hthree hstop hnone => ?_, fun hmode hidle hfar => ?_, fun hmode hbusy => ?_⟩⟩
  · obtain ⟨htx, hrx, hpark⟩ := lpRequest_st s.dev n hruns hidle
    exact ⟨reaches_act hr rfl htx, reaches_act hr rfl hrx, reaches_act hr rfl hpark⟩
  · rw [hzero] at hnew
    refine loopModeWrite_gives hr ?_
    obtain ⟨hmode, hleft⟩ := leaveLoop_st s.dev n
    rw [hzero, loopMode_zero hnew.symm]
    exact ⟨(hleft hnew.symm).1, hmode, (hleft hnew.symm).2⟩
  · refine loopModeWrite_keeps hr ?_
    rw [hthree]
    exact loopMode_far_stopped hnone hstop
  · exact loopModeWrite_gives hr (loopMode_enters hnew hmode hidle hfar)
  · exact loopModeWrite_keeps hr (loopMode_busy hmode hbusy)

end Sys2Proof.Machine

/-! Frames on the head lanes (07, R177 to R194, R198): frames sent and received, their errors, lane recovery and test frames. -/
namespace Sys2Proof.Machine
set_option exponentiation.threshold 600

/-! ### A lane after a send -/

theorem sendMgmt_lane (d : Dev) (n op p16 : Nat) (data : List Byte) : (d.sendMgmt n op p16 data).lane n =
    { d.lane n with
      fseq := ((d.lane n).fseq + 1) % 256
      sent := (⟨(d.lane n).fseq, .mgmt op (d.lane n).tag 0 p16 data⟩ :: (d.lane n).sent).take 255
      tag := ((d.lane n).tag + 1) % 256 } := by
  unfold Dev.sendMgmt
  rw [updLane_lane, zlSend_lane]

/-- A BEACON is the next of its lane and carries the correction away (R183, R185). -/
theorem sendBeacon_lane (d : Dev) (n : Nat) :
    ((d.sendBeacon n).lane n).beaconNum = ((d.lane n).beaconNum + 1) % 2 ^ 32 ∧ ((d.sendBeacon n).lane n).corr = 0 := by
  unfold Dev.sendBeacon
  dsimp only
  rw [updLane_lane]
  exact ⟨rfl, rfl⟩

theorem beaconPeriod_gives {n : LaneNo} {s : State} (h : s.dev.laneRuns n = true) : Gives (.beaconPeriod n) s fun t =>
    (t.dev.lane n).beaconNum = ((s.dev.lane n).beaconNum + 1) % 2 ^ 32 ∧ (t.dev.lane n).corr = 0 := by
  refine gives_act (show exec (.beaconPeriod n) s = execBeaconPeriod n s from rfl) ?_
  rw [if_pos h, ← lane_of (Dev.setLinkInc_only s.dev) rfl n]
  exact sendBeacon_lane s.dev.setLinkInc n

/-! ### Dose frames (R177) -/

/-- The entries of a head-line in the output FIFO are those marked. -/
theorem markFifo_marks {d : Dev} {n : Nat} {f : FifoLine} {g : FifoLine → FifoLine} {q : FifoLine → Prop} (hq : ∀ x, q (g x)) :
    ∀ x ∈ ((d.markFifo n f g).lane n).fifo, x.jn = f.jn ∧ x.line = f.line → q x := by
  rw [markFifo_lane]
  refine List.forall_mem_map.mpr fun x _ hx => ?_
  by_cases hkey : x.jn = f.jn ∧ x.line = f.line
  · rw [if_pos hkey]
    exact hq x
  · rw [if_neg hkey] at hx
    exact absurd hx hkey

/-- DOSE_FRAME_SEND of a TIMED lane with a head-line to send (R177; 08, Table 8-4). -/
theorem doseFrameSend_exec {n : LaneNo} {f : FifoLine} {s : State} (htimed : s.dev.laneIs n .timed = true)
    (hnext : s.dev.nextDose n = some f) (poison : Bool) : exec (.doseFrameSend n poison) s = s.act fun d =>
      if poison then
        (d.markFifo n f (fun x => { x with withheld := SpReason.poison.code })).spoilBarLine .poison ((d.barOf n).getD 0) f.jn f.line
      else ((d.zlSend n (.dose f.jn f.line f.bytes)).zlSend n (.tally f.jn f.line f.tv)).markFifo n f (fun x => { x with doseSent := true }) := by
  change execDoseFrameSend n poison s = _
  unfold execDoseFrameSend State.act
  dsimp only
  rw [if_pos htimed, hnext]

theorem doseFrameSend_sends {n : LaneNo} {f : FifoLine} {s : State} (htimed : s.dev.laneIs n .timed = true)
    (hnext : s.dev.nextDose n = some f) : Gives (.doseFrameSend n false) s fun t =>
      (∀ x ∈ (t.dev.lane n).fifo, x.jn = f.jn ∧ x.line = f.line → x.doseSent = true) ∧
      (t.dev.lane n).sent.take 2 =
        [⟨((s.dev.lane n).fseq + 1) % 256, .tally f.jn f.line f.tv⟩, ⟨(s.dev.lane n).fseq, .dose f.jn f.line f.bytes⟩] := by
  refine gives_act (doseFrameSend_exec htimed hnext false) ⟨markFifo_marks fun _ => rfl, ?_⟩
  dsimp only
  rw [if_neg Bool.false_ne_true, markFifo_lane, zlSend_lane, zlSend_lane]
  rfl

theorem doseFrameSend_withholds {n : LaneNo} {f : FifoLine} {s : State} (htimed : s.dev.laneIs n .timed = true)
    (hnext : s.dev.nextDose n = some f) : Gives (.doseFrameSend n true) s fun t =>
      ∀ x ∈ (t.dev.lane n).fifo, x.jn = f.jn ∧ x.line = f.line → x.withheld = 4 := by
  refine gives_act (doseFrameSend_exec htimed hnext true) ?_
  dsimp only
  rw [if_pos rfl, lane_of (Dev.spoilBarLine_only _ _ _ _ _) rfl]
  exact markFifo_marks fun _ => rfl

/-! ### HEAT frames (R189) -/

theorem hen_congr {d e : Dev} {n : Nat} (hen : e.rd .HT_CFG_EN n = d.rd .HT_CFG_EN n) (hpl : e.rd .HT_STAT_PLAUS n = d.rd .HT_STAT_PLAUS n) :
    e.hen n = d.hen n := by
  unfold Dev.hen Dev.flag
  rw [hen, hpl]

theorem htDuty_congr {d e : Dev} (h : e.heat = d.heat) (n : Nat) : e.htDuty n = d.htDuty n := by
  unfold Dev.htDuty Dev.ht
  rw [h]

/-- The duty that a lane's HEAT frame carries. -/
def Dev.heatDuty (d : Dev) (n : Nat) : Nat := if d.hen n then d.htDuty n else 0

theorem sendHeat_heatDuty (d : Dev) (x n : Nat) : (d.sendHeat x).heatDuty n = d.heatDuty n := by
  have h := Dev.sendHeat_only d x
  unfold Dev.heatDuty
  rw [hen_congr (h.rd _ _ _ rfl) (h.rd _ _ _ rfl), htDuty_congr (h.parts .heat rfl)]

theorem sendHeat_duty (d : Dev) (x n : Nat) :
    (d.sendHeat x).rd .HT_STAT_DUTY n = if n = x then d.heatDuty x % 2 ^ 16 else d.rd .HT_STAT_DUTY n := by
  unfold Dev.sendHeat
  dsimp only
  rw [Dev.updLane_rd, (Dev.zlSend_only _ _ _).rd _ _ _ (Nat.zero_testBit _), Dev.rd_wr]
  simp only [true_and, and_true]
  rfl

/-- A fold of HEAT frames shows each lane's duty. -/
theorem sendHeats_duty (d : Dev) (l : List Nat) : ∀ n ∈ l, (d.forEach l Dev.sendHeat).rd .HT_STAT_DUTY n = d.heatDuty n % 2 ^ 16 := by
  refine forEach_inv (Q := fun e => ∀ n, e.heatDuty n = d.heatDuty n) (P := fun e n => e.rd .HT_STAT_DUTY n = d.heatDuty n % 2 ^ 16)
    (fun e x _ he => ⟨fun n => (sendHeat_heatDuty e x n).trans (he n), ?_, fun n hn => ?_⟩) fun _ => rfl
  · rw [sendHeat_duty, if_pos rfl, he]
  · rw [sendHeat_duty]
    split
    · next h => rw [he, h]
    · exact hn

theorem heatPeriod_gives {s : State} (h : s.dev.runs .cc0 = true) : Gives .heatPeriod s fun t =>
    ∀ n, n < s.dev.nLanes → s.dev.laneRuns n = true → t.dev.rd .HT_STAT_DUTY n = (if s.dev.hen n then s.dev.htDuty n else 0) % 2 ^ 16 := by
  refine gives_act (show exec .heatPeriod s = execHeatPeriod s from rfl) fun n hn hruns => ?_
  dsimp only
  rw [if_pos h]
  exact sendHeats_duty s.dev _ n (List.mem_filter.mpr ⟨List.mem_range.mpr hn, hruns⟩)

/-! ### STATUS frames (R185) -/

/-- What a STATUS frame writes before it is acted on. -/
def Dev.statusShown (d : Dev) (n : Nat) (f : StatusFrame) : Dev :=
  ((((d.updLane n (fun l => { l with statusAt := d.now })).rxFrame n).wr .ZL_HEAD_THERM f.therm.toNat n).wr .ZL_HEAD_FLAGS f.flags.toNat n).wr
    .ZL_STAT_HDPRES (bit (bitOf f.flags.toNat 3)) n

/-- A STATUS frame shows the head's reading and flags, and what it is acted on by then writes none of them. -/
theorem statusFrame_after (d : Dev) (n : Nat) (f : StatusFrame) :
    Dev.Only 0x340cb802700 0x8000000000000000000000000000201f1403000201f0e00000000000000000000000000000000000000000000000008040
      (d.statusShown n f) (d.statusFrame n f) := by
  unfold Dev.statusFrame
  extract_lets flags was seen shown read warned resent
  have hread : Dev.Only 0x340cb802700 0x8000000000000000000000000000201f1403000201f0e00000000000000000000000000000000000000000000000008040
      (d.statusShown n f) read := (Dev.thermReading_only _ _ _).mono rfl rfl
  have hwarned := show Dev.Only _ _ (d.statusShown n f) warned from by
    unfold warned
    split
    · exact .step (Dev.raise_only _ _ _) rfl rfl hread
    · exact hread
  refine .step (Dev.answerBeacon_only _ _ _) rfl rfl ?_
  unfold resent
  split
  · exact .step (Dev.resend_only _ _ _) rfl rfl hwarned
  · exact hwarned

theorem statusFrame_gives {n : LaneNo} {f : StatusFrame} {s : State} (h : s.dev.laneHears n = true) : Gives (.statusFrame n f) s fun t =>
    t.dev.rd .ZL_HEAD_THERM n = f.therm.toNat ∧ t.dev.rd .ZL_HEAD_FLAGS n = f.flags.toNat ∧
      t.dev.rd .ZL_STAT_HDPRES n = bit (bitOf f.flags.toNat 3) := by
  refine gives_act (show exec (.statusFrame n f) s = execStatusFrame n f s from rfl) ?_
  rw [if_pos h]
  have honly := statusFrame_after s.dev n f
  refine ⟨(honly.rd _ _ _ rfl).trans ?_, (honly.rd _ _ _ rfl).trans ?_, (honly.rd _ _ _ rfl).trans ?_⟩ <;> unfold Dev.statusShown
  · rw [rd_wr_other _ _ _ _ _ _ (by decide), rd_wr_other _ _ _ _ _ _ (by decide)]
    exact rd_wr_self _ _ _ _ _ f.therm.isLt
  · rw [rd_wr_other _ _ _ _ _ _ (by decide)]
    exact rd_wr_self _ _ _ _ _ f.flags.isLt
  · exact rd_wr_self _ _ _ _ _ (bit_lt _)

/-! ### ECHO frames (R182) -/

/-- The entry of the Tally table that an ECHO frame answers. -/
def Dev.echoEntry (d : Dev) (n : Nat) (f : EchoFrame) : Option TallyEnt :=
  (Tab.at d.integ.tally n).find? (fun e => decide (e.jn % 256 = f.jnLow.toNat) && decide (e.line = f.line.toNat))

/-- An ECHO frame is a good frame, and settles the entry it answers. -/
theorem echoFrame_exec {n : LaneNo} {f : EchoFrame} {s : State} (h : s.dev.laneHears n = true) :
    exec (.echoFrame n f) s = s.act fun d =>
      match d.echoEntry n f with
      | none => (d.rxFrame n).updLane n (fun l => { l with unmatched := l.unmatched + 1 })
      | some e => (((d.rxFrame n).dropTally n e).settleEcho n e f).maybeDone e.jn := by
  have hhears : ¬(!s.dev.laneHears n) = true := by rw [h]; decide
  change execEchoFrame n f s = _
  unfold execEchoFrame State.act
  dsimp only
  rw [if_neg hhears]
  rfl

theorem echoFrame_unmatched {n : LaneNo} {f : EchoFrame} {s : State} (h : s.dev.laneHears n = true) (hnone : s.dev.echoEntry n f = none) :
    Gives (.echoFrame n f) s fun t => (t.dev.lane n).unmatched = (s.dev.lane n).unmatched + 1 ∧ t.dev.integ = s.dev.integ := by
  refine gives_act (echoFrame_exec h) ?_
  dsimp only
  rw [hnone]
  dsimp only
  rw [updLane_lane, rxFrame_lane]
  exact ⟨rfl, rfl⟩

theorem echoFrame_matched {n : LaneNo} {f : EchoFrame} {e : TallyEnt} {s : State} (h : s.dev.laneHears n = true)
    (hsome : s.dev.echoEntry n f = some e) : Gives (.echoFrame n f) s fun t =>
      (t.dev.lane n).unmatched = (s.dev.lane n).unmatched ∧ (t.dev.lane n).rxSeq = ((s.dev.lane n).rxSeq + 1) % 256 ∧
      t.dev.rd .ZL_ECHO_LATE n =
        (if f.entryPoisoned = false ∧ f.result.toNat = 3 then min (s.dev.rd .ZL_ECHO_LATE n + 1) 255 else s.dev.rd .ZL_ECHO_LATE n) := by
  refine gives_act (echoFrame_exec h) ?_
  dsimp only
  rw [hsome]
  dsimp only
  have hlane : ((((s.dev.rxFrame n).dropTally n e).settleEcho n e f).maybeDone e.jn).lane n = (s.dev.rxFrame n).lane n := by
    rw [lane_of (Dev.maybeDone_only _ _) rfl, lane_of (Dev.settleEcho_only _ _ _ _) rfl, lane_of (Dev.dropTally_only _ _ _) rfl]
  have hlate : ((s.dev.rxFrame n).dropTally n e).rd .ZL_ECHO_LATE n = s.dev.rd .ZL_ECHO_LATE n := rfl
  rw [hlane, rxFrame_lane, (Dev.maybeDone_only _ _).rd _ _ _ (Nat.zero_testBit _), echoLate, hlate]
  exact ⟨rfl, rfl, rfl⟩

/-- ECHO_TIMEOUT of an entry whose time is over counts it, unless the direction toward the module sleeps (R195). -/
theorem echoTimeout_gives {n : LaneNo} {jn line : U32} {e : TallyEnt} {s : State}
    (hentry : (Tab.at s.dev.integ.tally n).find? (fun e => decide (e.jn = jn.toNat) && decide (e.line = line.toNat)) = some e)
    (hawake : s.dev.rxSleeps n = false) (hover : s.dev.echoOver n e = true) : Gives (.echoTimeout n jn line) s fun t =>
      t.dev.rd .ZL_ECHO_TIMEOUT n = min (s.dev.rd .ZL_ECHO_TIMEOUT n + 1) 255 := by
  have hhears : ¬s.dev.rxSleeps n = true := by rw [hawake]; decide
  refine gives_act (show exec (.echoTimeout n jn line) s = execEchoTimeout n jn line s from rfl) ?_
  dsimp only
  rw [if_neg hhears, hentry]
  dsimp only
  rw [if_pos hover, (Dev.maybeDone_only _ _).rd _ _ _ (Nat.zero_testBit _)]
  unfold Dev.echoFail
  rw [(Dev.spoilHeadLine_only _ _ _ _ _ _).rd _ _ _ rfl, (Dev.raise_only _ _ _).rd _ _ _ rfl, inc_rd]
  rfl

/-! ### Frame errors and recovery (R173, R191, R198) -/

/-- A bad frame is counted, and the frame that follows is expected. -/
def Dev.badFrame (d : Dev) (n : Nat) : Dev :=
  ((d.inc .ZL_FERR_RXBAD n).updLane n (fun l => { l with rxSeq := (l.rxSeq + 1) % 256 })).raise Ev.ZL_FRAME_ERR
    (le 1 n ++ le 1 1 ++ le 1 (d.lane n).rxSeq)

theorem badFrame_lane (d : Dev) (n : Nat) : (d.badFrame n).lane n = { d.lane n with rxSeq := ((d.lane n).rxSeq + 1) % 256 } := by
  unfold Dev.badFrame
  rw [lane_of (Dev.raise_only _ _ _) rfl, updLane_lane]
  rfl

theorem badFrame_count (d : Dev) (n : Nat) : (d.badFrame n).rd .ZL_FERR_RXBAD n = min (d.rd .ZL_FERR_RXBAD n + 1) 65535 := by
  unfold Dev.badFrame
  rw [Dev.raise_rd _ _ _ _ _ _ (by decide) (by decide), Dev.updLane_rd, inc_rd]
  rfl

theorem badFrame_runs (d : Dev) (n : Nat) : (d.badFrame n).laneRuns n = d.laneRuns n := by
  refine laneRuns_congr ?_
  unfold Dev.badFrame
  rw [Dev.raise_rd _ _ _ _ _ _ (by decide) (by decide), Dev.updLane_rd, inc_rd_ne _ _ _ _ _ (by decide)]

theorem badFrame_pending (d : Dev) (n : Nat) : (d.badFrame n).evPending Ev.ZL_FRAME_ERR := Dev.raise_pending _ _ _ (by decide)

/-- A frame error where frames are received is counted; a running lane asks for a RESEND. -/
theorem rxFrameError_exec {n : LaneNo} {s : State} (h : s.dev.laneHears n = true ∨ s.dev.laneIs n .locked = true) :
    exec (.rxFrameError n) s = s.act fun d => if (d.badFrame n).laneRuns n
      then ((d.badFrame n).updLane n (fun l => { l with asked := true })).sendMgmt n 7 (d.lane n).rxGood [] else d.badFrame n := by
  have hheard : ¬(!s.dev.laneHears n && !s.dev.laneIs n .locked) = true := by rcases h with h | h <;> simp [h]
  change execRxFrameError n s = _
  unfold execRxFrameError State.act
  dsimp only
  rw [if_neg hheard]
  rfl

theorem rxFrameError_gives {n : LaneNo} {s : State} (h : s.dev.laneHears n = true ∨ s.dev.laneIs n .locked = true) :
    Gives (.rxFrameError n) s fun t => (s.dev.laneRuns n = true → (t.dev.lane n).asked = true) ∧
      t.dev.rd .ZL_FERR_RXBAD n = min (s.dev.rd .ZL_FERR_RXBAD n + 1) 65535 ∧ (t.dev.lane n).rxSeq = ((s.dev.lane n).rxSeq + 1) % 256 ∧
      t.dev.evPending Ev.ZL_FRAME_ERR := by
  refine gives_act (rxFrameError_exec h) ?_
  dsimp only
  rw [badFrame_runs]
  by_cases hruns : s.dev.laneRuns n = true
  · have hsend := Dev.sendMgmt_only ((s.dev.badFrame n).updLane n (fun l => { l with asked := true })) n 7 (s.dev.lane n).rxGood []
    have hpending := (Dev.updLane_only (s.dev.badFrame n) n (fun l => { l with asked := true })).evPending _ (Nat.zero_testBit _)
      (badFrame_pending s.dev n)
    rw [if_pos hruns, sendMgmt_lane, updLane_lane, badFrame_lane, hsend.rd _ _ _ (Nat.zero_testBit _), Dev.updLane_rd, badFrame_count]
    exact ⟨fun _ => rfl, rfl, rfl, hsend.evPending _ (Nat.zero_testBit _) hpending⟩
  · rw [if_neg hruns, badFrame_lane, badFrame_count]
    exact ⟨fun h => absurd h hruns, rfl, rfl, badFrame_pending s.dev n⟩

theorem zlRecovStop_gives {n : LaneNo} {t0 : Nat} {s : State} (hloss : (s.dev.lane n).lossAt = some t0)
    (hover : s.dev.passed t0 (1000000 * s.dev.rd .ZL_CTL_RECOV) = true) (hnew : (s.dev.lane n).stopAsked = false)
    (hlost : s.dev.laneIs n .timed = false) (hplaced : s.dev.lanePlaced n = true) : Gives (.zlRecovStop n) s fun t =>
      (t.dev.lane n).stopAsked = true ∧ bitOf (t.dev.rd .AON_STATE_STOPREQ) StopBit.laneRecovery.num = true := by
  have hdue : ((s.dev.lane n).lossAt.any (fun t => s.dev.passed t (1000000 * s.dev.rd .ZL_CTL_RECOV)) && !(s.dev.lane n).stopAsked &&
      !s.dev.laneIs n .timed && s.dev.lanePlaced n) = true := by
    rw [hloss, hnew, hlost, hplaced, Option.any_some, hover]
    rfl
  refine gives_act (show exec (.zlRecovStop n) s = execZlRecovStop n s from rfl) ?_
  dsimp only
  rw [if_pos hdue]
  refine ⟨?_, reqStop_set _ _⟩
  rw [lane_of (Dev.requestStop_only _ _) rfl, lane_of (Dev.raise_only _ _ _) rfl, updLane_lane]

/-! ### Identity and test frames (R192, R194) -/

theorem mgmtIdent_gives {n : LaneNo} {g : Byte} {fw : U16} {present : Bool} {ser : U64} {s : State} (h : s.dev.laneHears n = true) :
    Gives (.mgmtResponse n (.ident g present fw ser)) s fun t =>
      (t.dev.lane n).ident = some (g.toNat + 256 * bit present, fw.toNat, ser.toNat) := by
  have hhears : ¬(!s.dev.laneHears n) = true := by rw [h]; decide
  refine gives_act (show exec (.mgmtResponse n (.ident g present fw ser)) s = execMgmtResponse n (.ident g present fw ser) s from rfl) ?_
  dsimp only
  rw [if_neg hhears, updLane_lane]

/-- The count of a loop test's errors: those of this test in a loop, none outside. -/
theorem loopTest_st (d : Dev) (n : Nat) (errors : U32) : (d.loopTest n errors.toNat).rd .ZL_LOOP_TEST n = 1 ∧
    (d.loopTest n errors.toNat).rd .ZL_LOOPERR_BITS n = if d.flag .ZL_STAT_LOOP n then errors.toNat else 0 := by
  unfold Dev.loopTest
  extract_lets e
  have htest : e.rd .ZL_LOOP_TEST n = 1 := (rd_wr_other _ _ _ _ _ _ (by decide)).trans (rd_wr_self _ _ _ _ _ (by decide))
  have hbits : e.rd .ZL_LOOPERR_BITS n = 0 := rd_wr_self _ _ _ _ _ (by decide)
  have hloop : e.flag .ZL_STAT_LOOP n = d.flag .ZL_STAT_LOOP n := by simp [e, Dev.flag]
  rw [hloop]
  clear_value e
  by_cases h : d.flag .ZL_STAT_LOOP n = true
  · have hsend := Dev.sendMgmt_only (e.free 31).2 n 8 0 (prbs31 256 (max 1 (e.free 31).1))
    rw [if_pos h, if_pos h]
    refine ⟨?_, ?_⟩
    · rw [addSat_rd_ne _ _ _ _ _ _ (by decide), hsend.rd _ _ _ (Nat.zero_testBit _)]
      exact htest
    · rw [addSat_rd, hsend.rd _ _ _ (Nat.zero_testBit _)]
      change min (e.rd .ZL_LOOPERR_BITS n + errors.toNat) (2 ^ 32 - 1) = errors.toNat
      have := errors.isLt
      omega
  · rw [if_neg h, if_neg h]
    exact ⟨htest, hbits⟩

/-- Settles O37: each command's own lemma says what its frame does. -/
theorem laneFramesTakeEffect : Obligations.LaneFramesTakeEffect :=
  ⟨fun _ _ _ htimed hnext => ⟨doseFrameSend_sends htimed hnext, doseFrameSend_withholds htimed hnext⟩,
    fun _ => heatPeriod_gives, fun _ _ _ => statusFrame_gives, fun _ _ => beaconPeriod_gives,
    fun _ _ _ hhears => ⟨echoFrame_unmatched hhears, fun _ => echoFrame_matched hhears⟩,
    fun _ _ _ _ _ => echoTimeout_gives, fun _ _ => rxFrameError_gives, fun _ _ _ => zlRecovStop_gives,
    fun _ _ _ _ _ _ => mgmtIdent_gives, fun _ n errors s hr => reaches_act hr rfl (loopTest_st s.dev n errors)⟩

end Sys2Proof.Machine

/-! Frames of marks, the Tally unit and the cameras, read off the masks that `exec_only` gives each command. -/
namespace Sys2Proof.Machine
-- The masks of register fields evaluate as powers of two up to the last field's number.
set_option exponentiation.threshold 600

/-- Settles O58: in each clause the parts and fields listed cover the masks of its command. -/
theorem framesOfMarksAndCameras : Obligations.FramesOfMarksAndCameras := by
  unfold Obligations.FramesOfMarksAndCameras
  refine ⟨fun _ _ _ _ _ h => ?_, fun _ _ h => ?_, fun _ _ h => ?_, fun _ _ _ _ h => ?_, fun _ _ _ _ h => ?_, fun _ _ _ _ h => ?_,
    fun _ _ _ _ h => ?_, fun _ _ _ _ _ h => ?_, fun _ _ _ _ _ h => ?_, fun _ _ _ h => ?_, fun _ _ _ h => ?_, fun _ _ _ h => ?_,
    fun _ _ _ h => ?_, fun _ _ _ _ h => ?_, fun _ _ _ h => ?_, fun _ _ _ h => ?_, fun _ _ _ h => ?_, fun _ _ _ _ h => ?_,
    fun _ _ _ h => ?_, fun _ _ _ _ h => ?_, fun _ _ _ _ h => ?_, fun _ _ _ _ _ h => ?_⟩
  all_goals exact exec_unchanged h (by simp only [cmdParts]; rfl) (by simp only [cmdFields]; rfl)

end Sys2Proof.Machine

/-! WASTE_MARK and the contexts of the Tally unit (08, R209, R212, R215, R216). -/
namespace Sys2Proof.Machine
set_option exponentiation.threshold 600

/-! ### MARK_POINT (R215, R216) -/

theorem markPoint_exec (jn pn : U32) (poison : Bool) (s : State) :
    exec (.markPoint jn pn poison) s = s.act (·.markPoint jn.toNat pn.toNat poison) := rfl

section
variable {d : Dev} {jn pn : Nat} {p : Prod}

theorem markPoint_off (h : d.rd .SP_WASTE_CTL_MODE = 0) (jn pn : Nat) : d.markPoint jn pn false = d := by
  unfold Dev.markPoint
  split
  · rfl
  · split
    · rfl
    · exact if_pos (by simp [h])

/-- A sound entry that is not marked yet is marked or freed at its mark point (Table 8-2). -/
theorem markPoint_sound (hp : d.prod jn pn = some p) (hmode : d.rd .SP_WASTE_CTL_MODE ≠ 0) (hst : p.st ≠ .marked) :
    d.markPoint jn pn false =
      if d.atMark p = true then if (p.spoil || decide (p.st = .opened)) = true then d.markProduct p else d.freeProd jn pn else d := by
  unfold Dev.markPoint
  cases hat : d.atMark p <;> simp [hp, hmode, hst, hat]

theorem markPoint_before (hp : d.prod jn pn = some p) (hmode : d.rd .SP_WASTE_CTL_MODE ≠ 0) (hst : p.st ≠ .marked)
    (hat : d.atMark p = false) : d.markPoint jn pn false = d := by
  rw [markPoint_sound hp hmode hst, if_neg (by rw [hat]; decide)]

theorem markPoint_marks (hp : d.prod jn pn = some p) (hmode : d.rd .SP_WASTE_CTL_MODE ≠ 0) (hst : p.st ≠ .marked)
    (hat : d.atMark p = true) (hwaste : p.spoil = true ∨ p.st = .opened) : d.markPoint jn pn false = d.markProduct p := by
  rw [markPoint_sound hp hmode hst, if_pos hat, if_pos (by rcases hwaste with h | h <;> simp [h])]

theorem markPoint_frees (hp : d.prod jn pn = some p) (hmode : d.rd .SP_WASTE_CTL_MODE ≠ 0) (hst : p.st ≠ .marked)
    (hat : d.atMark p = true) (hgood : p.spoil = false) (hclosed : p.st ≠ .opened) : d.markPoint jn pn false = d.freeProd jn pn := by
  rw [markPoint_sound hp hmode hst, if_pos hat, if_neg (by simp [hgood, hclosed])]

theorem countPtab_integ (d : Dev) : d.countPtab.integ = d.integ := (Dev.countPtab_only d).parts .integ rfl

theorem prod_freeProd (d : Dev) (jn pn : Nat) : (d.freeProd jn pn).prod jn pn = none := by
  unfold Dev.freeProd Dev.prod
  rw [countPtab_integ]
  refine List.find?_eq_none.2 fun q hq hkey => ?_
  have hkept := (List.mem_filter.1 hq).2
  rw [hkey] at hkept
  cases hkept

theorem freeProd_mark (d : Dev) (jn pn : Nat) : (d.freeProd jn pn).integ.mark = d.integ.mark := by
  unfold Dev.freeProd
  rw [countPtab_integ]

theorem poisonEntry_shows (d : Dev) (p : Prod) : (d.poisonEntry p).rd .SP_STAT_PTPOI = 1 := by
  unfold Dev.poisonEntry
  extract_lets entry e
  have hset : e.rd .SP_STAT_PTPOI = 1 :=
    (Dev.raise_rd _ _ _ _ _ _ (by decide) (by decide)).trans (rd_wr_self _ _ _ _ _ (by decide))
  clear_value e
  split
  · exact hset
  · exact ((Dev.spoilWhole_only _ _ _ _ _ _).rd _ _ _ rfl).trans hset

/-- An entry read with poison is shown, whatever its mark point has in store for it. -/
theorem markPoint_poisoned (hp : d.prod jn pn = some p) (hst : p.st ≠ .marked) : (d.markPoint jn pn true).rd .SP_STAT_PTPOI = 1 := by
  have hshown := poisonEntry_shows d p
  unfold Dev.markPoint
  rw [hp]
  dsimp only
  rw [if_neg hst, if_pos rfl]
  split
  · exact hshown
  · split
    · exact hshown
    · split
      · exact ((Dev.markProduct_only _ _).rd _ _ _ rfl).trans hshown
      · exact ((Dev.freeProd_only _ _ _).rd _ _ _ rfl).trans hshown

end

/-! ### WASTE_MARK_END (R215) -/

theorem wasteMarkEnd_gives {s : State} (hmark : s.dev.integ.mark = true) (hover : s.dev.markOver = true) : Gives .wasteMarkEnd s fun t =>
    t.dev.integ.mark = false ∧ t.dev.integ.pulseEnd = none ∧ t.dev.integ.gateEnd = none ∧
      ∀ p ∈ t.dev.integ.prods, p.st = .marked → p.markEnded = true ∧ p.closureWritten = false := by
  refine gives_act (show exec .wasteMarkEnd s = execWasteMarkEnd s from rfl) ?_
  unfold Dev.markEnd
  rw [if_neg (by simp [hmark, hover]), countPtab_integ]
  refine ⟨rfl, rfl, rfl, fun p hp hst => ?_⟩
  obtain ⟨hended, hkept⟩ := List.mem_filter.1 hp
  obtain ⟨q, -, rfl⟩ := List.mem_map.1 hended
  by_cases hq : q.st = .marked
  · rw [if_pos hq] at hkept ⊢
    simpa [hq] using hkept
  · rw [if_neg hq] at hst
    exact absurd hst hq

/-! ### The Tally unit (R209, R212) -/

theorem tallyOwned_congr {d e : Dev} {c : Nat} (hen : e.rd .ZL_CFG_EN c = d.rd .ZL_CFG_EN c)
    (hst : e.rd .AON_STATE_STATE = d.rd .AON_STATE_STATE) : e.tallyOwned c = d.tallyOwned c := by
  unfold Dev.tallyOwned Dev.flag Dev.st
  rw [hen, hst]

/-- The write of the third value leaves the context selected and its owner. -/
theorem tallyFold_eq (d : Dev) (v : Nat) : ∃ e : Dev, d.tallyFold v =
      e.tallyPut (d.rd .TALLY_CTX_CTX) (fun _ => foldState (d.rd .TALLY_FOLD_V 0) (d.rd .TALLY_FOLD_V 1) v) ∧
    e.tallyOwned (d.rd .TALLY_CTX_CTX) = d.tallyOwned (d.rd .TALLY_CTX_CTX) ∧ ∀ k, e.rd .TALLY_VAL_STATE k = d.rd .TALLY_VAL_STATE k := by
  have hkept {f : Fld} (h : f ≠ .TALLY_FOLD_V) (k : Nat) : (d.wr .TALLY_FOLD_V v 2).rd f k = d.rd f k := rd_wr_other _ _ _ _ _ _ h
  refine ⟨d.wr .TALLY_FOLD_V v 2, ?_, tallyOwned_congr (hkept (by decide) _) (hkept (by decide) _), hkept (by decide)⟩
  simp [Dev.tallyFold, Dev.tallyCtx]

theorem tallyFold_free {d : Dev} (v : Nat) (h : d.tallyOwned (d.rd .TALLY_CTX_CTX) = false) :
    (d.tallyFold v).rd .TALLY_VAL_STATE (d.rd .TALLY_CTX_CTX) = (foldState (d.rd .TALLY_FOLD_V 0) (d.rd .TALLY_FOLD_V 1) v).toNat := by
  obtain ⟨e, hfold, howner, -⟩ := tallyFold_eq d v
  rw [hfold]
  exact tallyPut_free _ (howner.trans h)

theorem tallyFold_owned {d : Dev} (v : Nat) (h : d.tallyOwned (d.rd .TALLY_CTX_CTX) = true) :
    (d.tallyFold v).rd .SP_STAT_TOWN = 1 ∧ ∀ k, (d.tallyFold v).rd .TALLY_VAL_STATE k = d.rd .TALLY_VAL_STATE k := by
  obtain ⟨e, hfold, howner, hval⟩ := tallyFold_eq d v
  rw [hfold]
  obtain ⟨htown, hkept⟩ := tallyPut_own (fun _ => foldState (d.rd .TALLY_FOLD_V 0) (d.rd .TALLY_FOLD_V 1) v) (howner.trans h)
  exact ⟨htown, fun k => (hkept k).trans (hval k)⟩

theorem tallyFeed_free {d : Dev} (bs : List Byte) (h : d.tallyOwned (d.rd .TALLY_CTX_CTX) = false) :
    (d.tallyFeed bs).rd .TALLY_VAL_STATE (d.rd .TALLY_CTX_CTX) =
      (crcFeed (BitVec.ofNat 32 (d.rd .TALLY_VAL_STATE (d.rd .TALLY_CTX_CTX))) bs).toNat := tallyPut_free _ h

theorem tallyFeed_owned {d : Dev} (bs : List Byte) (h : d.tallyOwned (d.rd .TALLY_CTX_CTX) = true) :
    (d.tallyFeed bs).rd .SP_STAT_TOWN = 1 ∧ ∀ k, (d.tallyFeed bs).rd .TALLY_VAL_STATE k = d.rd .TALLY_VAL_STATE k := tallyPut_own _ h

/-- Settles O38: MARK_POINT before the mark point and at it, the end of the mark, and the contexts that the output stage owns and those that
it does not, one lemma each. -/
theorem markAndTallyTakeEffect : Obligations.MarkAndTallyTakeEffect := by
  refine ⟨fun jn pn s hoff => gives_fn (markPoint_exec _ _ _ _) (markPoint_off hoff _ _) rfl,
    fun jn pn p s hmode hp hst => ⟨fun hat => ?_, fun hat hwaste => ?_, fun hat hgood hclosed => ?_,
      gives_act (markPoint_exec _ _ _ _) (markPoint_poisoned hp hst)⟩, fun _ => wasteMarkEnd_gives,
    fun lvl s => ⟨fun hfree => ?_, fun howned => ?_⟩, fun lvl c v s hr => ⟨fun hfree => ?_, fun howned => ?_⟩⟩
  · exact gives_fn (markPoint_exec _ _ _ _) (markPoint_before hp hmode hst hat) rfl
  · obtain ⟨hjn, hpn⟩ := prod_ids hp
    exact gives_fn (markPoint_exec _ _ _ _) (markPoint_marks hp hmode hst hat hwaste) (markProduct_st s.dev p hjn hpn hp)
  · exact gives_fn (markPoint_exec _ _ _ _) (markPoint_frees hp hmode hst hat hgood hclosed) ⟨prod_freeProd _ _ _, freeProd_mark _ _ _⟩
  · exact ⟨fun v hr => reaches_act hr rfl (tallyFold_free v.toNat hfree), fun v hr => reaches_act hr rfl (tallyFeed_free [v] hfree),
      fun v hr => reaches_act hr rfl (tallyFeed_free (le 2 v.toNat) hfree), fun v hr => reaches_act hr rfl (tallyFeed_free (le 4 v.toNat) hfree)⟩
  · exact ⟨fun v hr => reaches_act hr rfl (tallyFold_owned v.toNat howned), fun v hr => reaches_act hr rfl (tallyFeed_owned [v] howned),
      fun v hr => reaches_act hr rfl (tallyFeed_owned (le 2 v.toNat) howned),
      fun v hr => reaches_act hr rfl (tallyFeed_owned (le 4 v.toNat) howned)⟩
  · exact reaches_act hr rfl (tallyPut_free _ hfree)
  · obtain ⟨htown, hkept⟩ := tallyPut_own (fun _ => v) howned
    exact reaches_act hr rfl ⟨htown, hkept _⟩

end Sys2Proof.Machine

/-! Head heaters and head temperature limits (11, R280 to R287; 08, R207). -/
namespace Sys2Proof.Machine
set_option exponentiation.threshold 600

/-! ### HEATER_SAMPLE (R280, R281) -/

theorem heaterSample_gives {s : State} (hrun : s.dev.runs .cc0 = true) : Gives .heaterSample s fun t => ∀ h, h < s.dev.nLanes →
    (s.dev.flag .HT_CFG_EN h = false → (t.dev.ht h).enabled = false) ∧ (s.dev.flag .HT_CFG_EN h = true → HtSampled s.dev t.dev h) := by
  refine gives_fn (show exec .heaterSample s = execHeaterSample s from rfl) (fb_fn hrun rfl) fun h hh => ?_
  have hall := (heats (List.range s.dev.nLanes) List.nodup_range s.dev s.dev (fun _ => rfl) (fun _ _ => rfl) rfl rfl fun _ _ => HtAt.refl _ _).1
  exact hall h (List.mem_range.2 hh)

/-! ### HEAD_TEMP_SAMPLE (R283 to R285) -/

/-- The soft limit's threshold of head h after a sample: 2 degrees of hysteresis (R284, R285). -/
def Dev.softNext (d : Dev) (h : Nat) : Thr := (d.ht h).soft.sample (d.headT h) (d.headLimit h 192) (d.headLimit h 192 - 32)

/-- The hard limit's threshold of head h after a sample. -/
def Dev.hardNext (d : Dev) (h : Nat) : Thr := (d.ht h).hard.sample (d.headT h) (d.headLimit h 194) (d.headLimit h 194 - 32)

theorem softSample_ht (d : Dev) (h : Nat) : (d.softSample h).ht h = { d.ht h with soft := d.softNext h } := by
  unfold Dev.softSample
  dsimp only
  split
  · rw [raise_ht, wr_ht, updHt_ht]
    rfl
  · rw [wr_ht, updHt_ht]
    rfl

theorem softSample_shows (d : Dev) (h : Nat) : (d.softSample h).rd .HT_STAT_SOFT h = bit (d.softNext h).on := by
  unfold Dev.softSample
  dsimp only
  split
  · exact (Dev.raise_rd _ _ _ _ _ _ (by decide) (by decide)).trans (rd_wr_self _ _ _ _ _ (bit_lt _))
  · exact rd_wr_self _ _ _ _ _ (bit_lt _)

theorem softSample_raises {d : Dev} {h : Nat} (hwas : (d.ht h).soft.on = false) (hon : (d.softNext h).on = true) :
    (d.softSample h).evPending Ev.HEAD_SOFT := by
  unfold Dev.softSample
  dsimp only
  rw [if_pos (by rw [hwas]; exact hon)]
  exact Dev.raise_pending _ _ _ (by decide)

/-- The soft limit's sample leaves what the hard limit's sample reads. -/
theorem softSample_hardNext (d : Dev) (h : Nat) : (d.softSample h).hardNext h = d.hardNext h := by
  unfold Dev.hardNext Dev.headT Dev.headLimit Dev.headField
  rw [softSample_ht, lane_of (Dev.softSample_only d h) rfl]

/-- The block with the hard limit's sample taken and shown, before it is acted on. -/
def Dev.hardShown (d : Dev) (h : Nat) : Dev := (d.updHt h (fun x => { x with hard := d.hardNext h })).wr .HT_STAT_HARD (bit (d.hardNext h).on) h

theorem hardSample_eq (d : Dev) (h : Nat) : d.hardSample h =
    if (!(d.ht h).hard.on && (d.hardNext h).on) = true then
      (((d.hardShown h).darken h .hard).raise Ev.HEAD_HOT (le 1 h ++ le 2 (unsign 16 ((d.hardShown h).headT h)))).requestStop .headHard
    else if ((d.ht h).hard.on && !(d.hardNext h).on) = true then ((d.hardShown h).lighten h .hard).raise Ev.HEAD_CLEAR (le 1 h ++ le 1 1)
    else d.hardShown h := rfl

/-- What the hard limit's sample does on a crossing writes no threshold and not what is shown of it. -/
theorem hardSample_after (d : Dev) (h : Nat) : Dev.Only (partsMask [.xpp, .lanes, .trace, .evr, .out])
    (fieldsMask [.AON_EVPEND_PEND, .AON_EVLOST_N, .AON_STATE_STOPREQ, .HT_STAT_DARK]) (d.hardShown h) (d.hardSample h) := by
  rw [hardSample_eq]
  split
  · exact .step (Dev.requestStop_only _ _) rfl rfl (.step (Dev.raise_only _ _ _) rfl rfl ((Dev.darken_only _ _ _).mono rfl rfl))
  · split
    · exact .step (Dev.raise_only _ _ _) rfl rfl ((Dev.lighten_only _ _ _).mono rfl rfl)
    · exact .refl _ _ _

theorem hardSample_ht (d : Dev) (h : Nat) : (d.hardSample h).ht h = { d.ht h with hard := d.hardNext h } := by
  rw [ht_congr ((hardSample_after d h).parts .heat rfl)]
  unfold Dev.hardShown
  rw [wr_ht, updHt_ht]

theorem hardSample_shows (d : Dev) (h : Nat) : (d.hardSample h).rd .HT_STAT_HARD h = bit (d.hardNext h).on :=
  ((hardSample_after d h).rd _ _ _ rfl).trans (rd_wr_self _ _ _ _ _ (bit_lt _))

theorem hardSample_pending {d : Dev} (h : Nat) {ev : EvCode} (hs : ev.sub < 16) (hp : d.evPending ev) : (d.hardSample h).evPending ev := by
  have hshown : (d.hardShown h).evPending ev := wrp (by decide) hp
  rw [hardSample_eq]
  split
  · exact stop_pend _ _ _ hs (Dev.raise_pending_of _ _ _ _ hs ((Dev.darken_only _ _ _).evPending _ rfl hshown))
  · split
    · exact Dev.raise_pending_of _ _ _ _ hs ((Dev.lighten_only _ _ _).evPending _ (Nat.zero_testBit _) hshown)
    · exact hshown

/-- A head that has gone dark, with a stop requested for it. -/
def Dev.DarkAndStopped (d : Dev) (h : Nat) (b : StopBit) : Prop :=
  (d.lane h).isDark = true ∧ d.rd .HT_STAT_DARK h = 1 ∧ bitOf (d.rd .AON_STATE_STOPREQ) b.num = true

theorem darken_requestStop (d : Dev) (h : Nat) (c : DarkBit) (e : EvCode) (bs : List Byte) (b : StopBit) :
    (((d.darken h c).raise e bs).requestStop b).DarkAndStopped h b := by
  obtain ⟨hdark, hshown⟩ := darken_st d h c
  refine ⟨?_, ?_, reqStop_set _ _⟩
  · rw [lane_of (Dev.requestStop_only _ _) rfl, lane_of (Dev.raise_only _ _ _) rfl]
    exact hdark
  · rw [(Dev.requestStop_only _ _).rd _ _ _ rfl, Dev.raise_rd _ _ _ _ _ _ (by decide) (by decide)]
    exact hshown

theorem hardSample_crossed {d : Dev} {h : Nat} (hwas : (d.ht h).hard.on = false) (hon : (d.hardNext h).on = true) :
    (d.hardSample h).DarkAndStopped h .headHard := by
  rw [hardSample_eq, if_pos (by rw [hwas, hon]; rfl)]
  exact darken_requestStop _ _ _ _ _ _

theorem plausSample_ht (d : Dev) (h : Nat) : ((d.plausSample h).ht h).soft = (d.ht h).soft ∧ ((d.plausSample h).ht h).hard = (d.ht h).hard := by
  unfold Dev.plausSample
  dsimp only
  rw [updHt_ht]
  exact ⟨rfl, rfl⟩

theorem headTempSample_gives {h : LaneNo} {s : State} (hguard : s.dev.guarded h = true) (hfresh : s.dev.fresh h = true) :
    Gives (.headTempSample h) s fun t =>
      t.dev.rd .HT_STAT_SOFT h = bit (s.dev.softNext h).on ∧ t.dev.rd .HT_STAT_HARD h = bit (s.dev.hardNext h).on ∧
        (t.dev.ht h).soft = s.dev.softNext h ∧ (t.dev.ht h).hard = s.dev.hardNext h ∧
        ((s.dev.ht h).soft.on = false → (s.dev.softNext h).on = true → t.dev.evPending Ev.HEAD_SOFT) ∧
        ((s.dev.ht h).hard.on = false → (s.dev.hardNext h).on = true → t.dev.DarkAndStopped h .headHard) := by
  refine gives_fn (show exec (.headTempSample h) s = execHeadTempSample h s from rfl) (if_pos (by rw [hguard, hfresh]; rfl)) ?_
  have hsoft := softSample_ht s.dev h
  have hhard := hardSample_ht (s.dev.softSample h) h
  have hnext := softSample_hardNext s.dev h
  obtain ⟨hsame, hsame'⟩ := plausSample_ht ((s.dev.softSample h).hardSample h) h
  rw [hhard] at hsame hsame'
  refine ⟨?_, ?_, ?_, hsame'.trans hnext, fun hwas hon => ?_, fun hwas hon => ?_⟩
  · exact ((Dev.hardSample_only _ _).rd _ _ _ rfl).trans (softSample_shows s.dev h)
  · exact (hardSample_shows _ _).trans (by rw [hnext])
  · exact hsame.trans (by rw [hsoft])
  · exact hardSample_pending _ (by decide) (softSample_raises hwas hon)
  · exact hardSample_crossed (by rw [hsoft]; exact hwas) (by rw [hnext]; exact hon)

/-! ### HEAD_PLAUS (R287) -/

theorem headPlaus_gives {h : LaneNo} {s : State} (hguard : s.dev.guarded h = true) (hon : s.dev.flag .HT_CFG_PLEN h = true)
    (hdue : s.dev.plausDue h = true) (hnew : s.dev.flag .HT_STAT_PLAUS h = false) : Gives (.headPlaus h) s fun t =>
      t.dev.rd .HT_STAT_PLAUS h = 1 ∧ t.dev.DarkAndStopped h .headPlaus := by
  refine gives_fn (show exec (.headPlaus h) s = execHeadPlaus h s from rfl) (if_pos (by rw [hguard, hon, hdue, hnew]; rfl)) ?_
  refine ⟨?_, darken_requestStop _ _ _ _ _ _⟩
  rw [(Dev.requestStop_only _ _).rd _ _ _ rfl, Dev.raise_rd _ _ _ _ _ _ (by decide) (by decide), (Dev.darken_only _ _ _).rd _ _ _ rfl]
  exact rd_wr_self _ _ _ _ _ (by decide)

/-- Settles O44: a commit, the heaters' sample, the sample of the limits, and the plausibility latch, one lemma each. -/
theorem headTemperaturesTakeEffect : Obligations.HeadTemperaturesTakeEffect :=
  ⟨fun _ _ _ hr => reaches_act hr rfl (rd_wr_self _ _ _ _ _ (by decide)), fun _ => heaterSample_gives,
    fun _ _ => headTempSample_gives, fun _ _ => headPlaus_gives⟩

end Sys2Proof.Machine

/-! Triggers, strobes, exposure sets and calibration of the camera ports (09, R223 to R228, R238). -/
namespace Sys2Proof.Machine
set_option exponentiation.threshold 600

/-! ### The trigger queue (R223, R224) -/

theorem visHead_trigQ (d : Dev) (p : Nat) : ((d.visHead p).vp p).trigQ = (d.vp p).trigQ := by
  obtain ⟨b, hb⟩ := visHead_vp d p
  rw [hb]

theorem visEnqueue_appends {d : Dev} {p : Nat} (hi : Nat) (hroom : (d.vp p).trigQ.length < 8) :
    ((d.visEnqueue p hi).vp p).trigQ = (d.vp p).trigQ ++ [(d.vp p).trigLo + 2 ^ 32 * hi] := by
  unfold Dev.visEnqueue
  dsimp only
  rw [if_neg (by omega)]
  split
  · rw [visHead_trigQ, updVp_vp]
  · rw [updVp_vp]

theorem visEnqueue_of_full {d : Dev} {p : Nat} (hi : Nat) (hfull : 8 ≤ (d.vp p).trigQ.length) : d.visEnqueue p hi = d.wr .VIS_STAT_SKIP 1 p :=
  if_pos hfull

theorem visSkip_takes {d : Dev} {p pos : Nat} {rest : List Nat} (hq : (d.vp p).trigQ = pos :: rest) :
    ((d.visSkip p pos).vp p).trigQ = rest ∧ ((d.visSkip p pos).vp p).nextId = (d.vp p).nextId ∧ (d.visSkip p pos).rd .VIS_STAT_SKIP p = 1 ∧
      (d.visSkip p pos).evPending Ev.CAM_TRIG_SKIP := by
  have hvp : (d.visSkip p pos).vp p = (d.visPop p).vp p := by
    unfold Dev.visSkip
    rw [raise_vp, wr_vp]
  obtain ⟨b, hpop⟩ := visPop_vp d p
  rw [hvp, hpop, hq]
  exact ⟨rfl, rfl, (Dev.raise_rd _ _ _ _ _ _ (by decide) (by decide)).trans (rd_wr_self _ _ _ _ _ (by decide)),
    Dev.raise_pending _ _ _ (by decide)⟩

/-- The command at a port that is on, once F has reached the first position of the queue. -/
theorem cameraTrigger_gives {p : Port} {s : State} {pos : Nat} {rest : List Nat} {d : Dev} {P : State → Prop} (hon : s.dev.visOn p = true)
    (hq : (s.dev.vp p).trigQ = pos :: rest) (hreached : 0 ≤ pdiff s.dev.fire.pos (BitVec.ofNat 48 pos))
    (hd : (if ((s.dev.vp p).headPast || s.dev.visBusy p) = true then s.dev.visSkip p pos else s.dev.visTrigger p) = d)
    (hp : P { s with dev := d }) : Gives (.cameraTrigger p) s P := by
  refine gives_fn (show exec (.cameraTrigger p) s = execCameraTrigger p s from rfl) ?_ hp
  dsimp only
  rw [hq]
  dsimp only
  rw [if_neg (by simp [hon]; omega)]
  exact hd

/-! ### Exposure sets (R226 to R228) -/

theorem visBlank_issues {d : Dev} {p : Nat} {c : Commit} (hpend : (d.vp p).pend = some c) (hwaits : c.list = .waiting) :
    ((d.visBlank p).vp p).pend = some { c with list := .issuing } := by
  unfold Dev.visBlank
  rw [hpend]
  dsimp only
  rw [if_pos hwaits]
  split
  · rw [updVp_vp, updVp_vp]
  · rw [updVp_vp]

/-- The exposure set that a commit of port p takes from the slot selected. -/
def Dev.committedSet (d : Dev) (p : Nat) : ExpSet :=
  { n := (d.vp p).commits + 1, slot := d.rd .VIS_ESCTL_SLOT p, esid := d.rd .VIS_ESA_ESID p (d.rd .VIS_ESCTL_SLOT p),
    width := d.rd .VIS_ESA_WIDTH p (d.rd .VIS_ESCTL_SLOT p), ratio := d.rd .VIS_ESB_RATIO p (d.rd .VIS_ESCTL_SLOT p),
    i2c0 := d.rd .VIS_ESB_I2C0 p (d.rd .VIS_ESCTL_SLOT p), i2cn := d.rd .VIS_ESB_I2CN p (d.rd .VIS_ESCTL_SLOT p) }

/-- The block with that set committed and its list not yet issued. -/
def Dev.withCommit (d : Dev) (p : Nat) : Dev :=
  (d.wr .VIS_ESCTL_COMMIT 1 p).updVp p (fun v => { v with commits := v.commits + 1, pend := some ⟨d.committedSet p, false, .waiting⟩ })

theorem withCommit_pend (d : Dev) (p : Nat) : ((d.withCommit p).vp p).pend = some ⟨d.committedSet p, false, .waiting⟩ := by
  unfold Dev.withCommit
  rw [updVp_vp]

theorem withCommit_commit (d : Dev) (p : Nat) : (d.withCommit p).rd .VIS_ESCTL_COMMIT p = 1 := by
  unfold Dev.withCommit
  rw [updVp_rd]
  exact rd_wr_self _ _ _ _ _ (by decide)

theorem visCommit_of_busy {d : Dev} {p : Nat} (hbusy : d.flag .VIS_ESCTL_COMMIT p = true) : d.visCommit p = d := if_pos hbusy

theorem visCommit_of_free {d : Dev} {p : Nat} (hfree : d.flag .VIS_ESCTL_COMMIT p = false) :
    d.visCommit p = if d.rd .VIS_STAT_STATE p = 1 then (d.withCommit p).visBlank p else d.withCommit p := by
  have hstate : (d.withCommit p).rd .VIS_STAT_STATE p = d.rd .VIS_STAT_STATE p := by
    unfold Dev.withCommit
    rw [updVp_rd]
    exact rd_wr_other _ _ _ _ _ _ (by decide)
  rw [← hstate]
  exact if_neg (by rw [hfree]; decide)

theorem visCommit_takes {d : Dev} {p : Nat} (hfree : d.flag .VIS_ESCTL_COMMIT p = false) : (d.visCommit p).rd .VIS_ESCTL_COMMIT p = 1 ∧
    ((d.visCommit p).vp p).pend = some ⟨d.committedSet p, false, if d.rd .VIS_STAT_STATE p = 1 then .issuing else .waiting⟩ := by
  rw [visCommit_of_free hfree]
  split
  · exact ⟨((Dev.visBlank_only _ _).rd _ _ _ (Nat.zero_testBit _)).trans (withCommit_commit d p), visBlank_issues (withCommit_pend d p) rfl⟩
  · exact ⟨withCommit_commit d p, withCommit_pend d p⟩

theorem visCommitEnd_sensor (d : Dev) (p : Nat) :
    ((d.visCommitEnd p).vp p).sensorAt = (d.vp p).sensorAt ∧ ((d.visCommitEnd p).vp p).sensorLost = (d.vp p).sensorLost := by
  unfold Dev.visCommitEnd
  split
  · split
    · rw [wr_vp, updVp_vp]
      exact ⟨rfl, rfl⟩
    · exact ⟨rfl, rfl⟩
  · exact ⟨rfl, rfl⟩

theorem visCommitEnd_of_over {d : Dev} {p : Nat} {c : Commit} (hpend : (d.vp p).pend = some c) (hstrobe : c.strobeIn = true)
    (hended : c.list = .ended) : d.visCommitEnd p = (d.updVp p (fun v => { v with pend := none })).wr .VIS_ESCTL_COMMIT 0 p := by
  unfold Dev.visCommitEnd
  rw [hpend]
  exact if_pos (by simp [hstrobe, hended])

theorem visCommitEnd_of_strobe_due {d : Dev} {p : Nat} {c : Commit} (hpend : (d.vp p).pend = some c) (hstrobe : c.strobeIn = false) :
    d.visCommitEnd p = d := by
  unfold Dev.visCommitEnd
  rw [hpend]
  exact if_neg (by simp [hstrobe])

/-- The block with the writes of a commit's list put out and the list ended: the sensor part takes force L frames after the last frame
triggered. -/
def Dev.listDone (d : Dev) (p : Nat) (c : Commit) : Dev :=
  (d.visI2c p c.set.entries).updVp p (fun v =>
    { v with pend := some { c with list := .ended },
             sensorAt := v.sensorAt ++ [((v.nextId + (d.visI2c p c.set.entries).visLat p - 1) % 2 ^ 32, c.set)] })

theorem listDone_vp (d : Dev) (p : Nat) (c : Commit) : (d.listDone p c).vp p =
    { d.vp p with pend := some { c with list := .ended },
                  sensorAt := (d.vp p).sensorAt ++ [(((d.vp p).nextId + d.rd .VIS_CFG_LAT p) % 2 ^ 32, c.set)] } := by
  obtain ⟨-, hvp, hrd⟩ := i2c_out d p c.set.entries
  unfold Dev.listDone Dev.visLat
  rw [updVp_vp, hvp, hrd]
  rfl

theorem listDone_out (d : Dev) (p : Nat) (c : Commit) : (d.listDone p c).out = (c.set.entries.map (d.i2cWrite p)).reverse ++ d.out :=
  (i2c_out d p c.set.entries).1

theorem i2cListComplete_gives {p : Port} {s : State} {c : Commit} (hpend : (s.dev.vp p).pend = some c) (hlist : c.list = .issuing) :
    Gives (.i2cListComplete p) s fun t =>
      t.dev.out = (c.set.entries.map (s.dev.i2cWrite p)).reverse ++ s.dev.out ∧
      (t.dev.vp p).sensorAt = (s.dev.vp p).sensorAt ++ [(((s.dev.vp p).nextId + s.dev.rd .VIS_CFG_LAT p) % 2 ^ 32, c.set)] ∧
      (c.strobeIn = true → (t.dev.vp p).pend = none ∧ t.dev.rd .VIS_ESCTL_COMMIT p = 0) ∧
      (c.strobeIn = false → (t.dev.vp p).pend = some { c with list := .ended }) := by
  have hended : ((s.dev.listDone p c).vp p).pend = some { c with list := .ended } := by rw [listDone_vp]
  refine gives_fn (g := (s.dev.listDone p c).visCommitEnd p)
    (show exec (.i2cListComplete p) s = execI2cListComplete p s from rfl) ?_ ⟨?_, ?_, fun hstrobe => ?_, fun hstrobe => ?_⟩
  · dsimp only
    rw [hpend]
    exact if_pos hlist
  · exact ((Dev.visCommitEnd_only _ _).parts .out rfl).trans (listDone_out _ _ _)
  · exact (visCommitEnd_sensor _ _).1.trans (by rw [listDone_vp])
  · dsimp only
    rw [visCommitEnd_of_over hended hstrobe rfl, wr_vp, updVp_vp]
    exact ⟨rfl, rd_wr_self _ _ _ _ _ (by decide)⟩
  · dsimp only
    rw [visCommitEnd_of_strobe_due hended hstrobe, hended]

theorem camI2cFail_other {p : Port} {entry : Fin 256} {s : State} {c : Commit} (hpend : (s.dev.vp p).pend = some c)
    (hentry : entry.val ∉ c.set.entries) : Gives (.camI2cFail p entry) s fun t => t = s := by
  refine gives_fn (g := s.dev) (show exec (.camI2cFail p entry) s = execCamI2cFail p entry s from rfl) ?_ rfl
  dsimp only
  rw [hpend]
  exact if_neg (by simp [hentry])

/-- The block with the writes of a commit's list put out up to the failed entry and its repeats. -/
def Dev.listTried (d : Dev) (p : Nat) (c : Commit) (entry : Nat) : Dev :=
  d.visI2c p (c.set.entries.takeWhile (· != entry) ++ List.replicate (d.rd .VIS_I2CDEV_RETRY p + 1) entry)

/-- The block with that list stopped: the sensor part is unknown, the failure is shown and reported. -/
def Dev.listFailed (d : Dev) (p : Nat) (c : Commit) (entry : Nat) : Dev :=
  (((d.listTried p c entry).updVp p (fun v => { v with pend := some { c with list := .ended }, sensorAt := [], sensorLost := true })).wr
    .VIS_STAT_I2C 1 p).raise Ev.CAM_I2C_FAIL (le 1 p ++ le 1 c.set.slot ++ le 1 entry)

theorem listFailed_sensor (d : Dev) (p : Nat) (c : Commit) (entry : Nat) :
    ((d.listFailed p c entry).vp p).sensorAt = [] ∧ ((d.listFailed p c entry).vp p).sensorLost = true := by
  unfold Dev.listFailed
  rw [raise_vp, wr_vp, updVp_vp]
  exact ⟨rfl, rfl⟩

theorem listFailed_shows (d : Dev) (p : Nat) (c : Commit) (entry : Nat) :
    (d.listFailed p c entry).rd .VIS_STAT_I2C p = 1 ∧ (d.listFailed p c entry).evPending Ev.CAM_I2C_FAIL :=
  ⟨(Dev.raise_rd _ _ _ _ _ _ (by decide) (by decide)).trans (rd_wr_self _ _ _ _ _ (by decide)), Dev.raise_pending _ _ _ (by decide)⟩

theorem camI2cFail_own {p : Port} {entry : Fin 256} {s : State} {c : Commit} (hpend : (s.dev.vp p).pend = some c) (hlist : c.list = .issuing)
    (hentry : entry.val ∈ c.set.entries) : Gives (.camI2cFail p entry) s fun t =>
      (t.dev.vp p).sensorAt = [] ∧ (t.dev.vp p).sensorLost = true ∧ t.dev.rd .VIS_STAT_I2C p = 1 ∧ t.dev.evPending Ev.CAM_I2C_FAIL := by
  refine gives_fn (g := (s.dev.listFailed p c entry).visCommitEnd p)
    (show exec (.camI2cFail p entry) s = execCamI2cFail p entry s from rfl) ?_ ?_
  · dsimp only
    rw [hpend]
    exact if_pos (by simp [hlist, hentry])
  · obtain ⟨hsame, hsame'⟩ := visCommitEnd_sensor (s.dev.listFailed p c entry) p
    obtain ⟨hunknown, hlost⟩ := listFailed_sensor s.dev p c entry
    obtain ⟨hshown, hpending⟩ := listFailed_shows s.dev p c entry
    have hend := Dev.visCommitEnd_only (s.dev.listFailed p c entry) p
    dsimp only
    rw [hsame, hsame', hend.rd _ _ _ rfl]
    exact ⟨hunknown, hlost, hshown, hend.evPending _ rfl hpending⟩

/-! ### Calibration (R238) -/

theorem visFfbase_waits (d : Dev) (p v : Nat) :
    (d.visFfbase p v).rd .VIS_FFBASE_ADDR p = v % 2 ^ 28 ∧ ((d.visFfbase p v).vp p).ffPend = some (v % 2 ^ 28) := by
  unfold Dev.visFfbase
  rw [updVp_vp, Dev.updVp_rd, Dev.rd_wr, if_pos ⟨rfl, rfl, rfl⟩]
  exact ⟨rfl, rfl⟩

/-- Settles O39: the trigger queue, the trigger and its skip, the outputs, the commit, the list's end and its failure, and what waits for the
next trigger, one lemma each. -/
theorem visionTriggersTakeEffect : Obligations.VisionTriggersTakeEffect := by
  refine ⟨fun lvl p hi s hr => ⟨fun hroom => reaches_act hr rfl (visEnqueue_appends _ hroom), fun hfull => reaches_act hr rfl ?_⟩,
    fun p s pos rest hon hq hreached => ⟨fun hfirst hidle => cameraTrigger_gives hon hq hreached (if_neg (by simp [hfirst, hidle])) ?_,
      fun hlate => cameraTrigger_gives hon hq hreached (if_pos (by simpa using hlate)) ?_⟩,
    fun p s => ⟨gives_act (show exec (.triggerPulseEnd p) s = execTriggerPulseEnd p s from rfl) ?_,
      fun hpend => gives_act (show exec (.strobeStart p) s = execStrobeStart p s from rfl) ?_,
      gives_act (show exec (.strobeEnd p) s = execStrobeEnd p s from rfl) ?_⟩,
    fun lvl p s hr => ⟨fun hbusy => reaches_act hr rfl ?_, fun hfree => reaches_act hr rfl (visCommit_takes hfree)⟩,
    fun p s c hpend hlist => ⟨i2cListComplete_gives hpend hlist, fun entry => ⟨camI2cFail_other hpend, camI2cFail_own hpend hlist⟩⟩,
    fun lvl p s hr => reaches_act hr rfl ?_, fun lvl p v s hr => reaches_act hr rfl (visFfbase_waits _ _ _)⟩
  · rw [visEnqueue_of_full _ hfull]
    exact ⟨rfl, rd_wr_self _ _ _ _ _ (by decide)⟩
  · exact trigger_st s.dev p pos rest hq
  · dsimp only
    exact visSkip_takes hq
  · dsimp only
    rw [updVp_vp]
  · dsimp only
    rw [updVp_vp, if_pos hpend]
    exact ⟨rfl, rfl⟩
  · dsimp only
    rw [updVp_vp]
  · rw [visCommit_of_busy hbusy]
  · dsimp only
    rw [updVp_vp]

end Sys2Proof.Machine

/-! Frames of the camera ports, the watchdog and the reset (09, R221, R222, R230, R233 to R237). -/
namespace Sys2Proof.Machine
set_option exponentiation.threshold 600

/-! ### What writing a port's streams leaves (R233) -/

/-- Port w is v but for what writing stream buffers notes: the streams lost, the retries and the poison of the buffer being filled. -/
def Vis.Streamed (v w : Vis) : Prop := ∃ lost tries bad, w = { v with lost := lost, tries := tries, bad := bad }

theorem Vis.Streamed.refl (v : Vis) : v.Streamed v := ⟨_, _, _, rfl⟩

theorem Vis.Streamed.trans {u v w : Vis} (h : u.Streamed v) (h' : v.Streamed w) : u.Streamed w := by
  obtain ⟨_, _, _, rfl⟩ := h
  obtain ⟨lost, tries, bad, rfl⟩ := h'
  exact ⟨lost, tries, bad, rfl⟩

/-- An operation that does not write the camera ports. -/
theorem Vis.Streamed.of_only {c r : Nat} {d e : Dev} (h : Dev.Only c r d e) (hc : c.testBit (Part.ctorIdx .vis) = false) (p : Nat) :
    (d.vp p).Streamed (e.vp p) := by
  rw [visOp_vp h hc]
  exact .refl _

theorem camPut_streamed (s : State) (p : Nat) (b : CamBuf) : (s.dev.vp p).Streamed ((s.camPut p b).2.dev.vp p) := by
  unfold State.camPut
  split
  · exact .refl _
  · split
    · exact .of_only (State.descFail_only _ _ _).dev rfl p
    · dsimp only
      rw [updVp_vp, visOp_vp (State.descDone_only _ _ _ _ _ _ _ _ _).dev rfl, visOp_vp (State.dramWrite_only _ _ _ _).dev rfl]
      exact ⟨_, _, _, rfl⟩

theorem camPutAll_streamed (p : Nat) (l : List CamBuf) (s : State) : (s.dev.vp p).Streamed ((s.camPutAll p l).dev.vp p) := by
  induction l generalizing s with
  | nil => exact .refl _
  | cons b t ih =>
    have hput := camPut_streamed s p b
    unfold State.camPutAll
    generalize s.camPut p b = r at hput ⊢
    obtain ⟨ok, u⟩ := r
    cases ok
    case true => exact hput.trans (ih u)
    case false =>
      dsimp only
      rw [updVp_vp, visOp_vp (Dev.camNobuf_only _ _ _ _) rfl]
      exact hput.trans ⟨_, _, _, rfl⟩

theorem s0Abort_streamed (s : State) (p : Nat) (c : Cap) : (s.dev.vp p).Streamed ((s.s0Abort p c).dev.vp p) := by
  unfold State.s0Abort
  split
  · exact camPutAll_streamed p _ s
  · exact .refl _

theorem s0Abort_timeouts (s : State) (p : Nat) (c : Cap) : ((s.s0Abort p c).dev.vp p).timeouts = (s.dev.vp p).timeouts := by
  obtain ⟨_, _, _, h⟩ := s0Abort_streamed s p c
  rw [h]

/-! ### Packets (R221, R222, R235) -/

theorem setCap_vp (d : Dev) (p : Nat) (c : Option Cap) : (d.setCap p c).vp p = { d.vp p with cap := c } := updVp_vp d p _

theorem csiPacket_exec {p : Port} {pkt : CsiPkt} {s : State} {c : Cap} (hcap : (s.dev.vp p).cap = some c) (hon : s.dev.visOn p = true)
    (hst : s.dev.rd .VIS_STAT_STATE p ≠ 4) : exec (.csiPacket p pkt) s = .next (s.visPacket p pkt c) := by
  change execCsiPacket p pkt s = _
  unfold execCsiPacket
  rw [hcap]
  dsimp only
  rw [if_pos (by simp [hon, hst])]

section
variable {s : State} {p : Nat} {pkt : CsiPkt} {c : Cap}

/-- The frame start's effect: the frame has started, and the port reads it out unless a frame was triggered meanwhile. -/
def Dev.frameStart (d : Dev) (p : Nat) (c : Cap) : Dev :=
  if ((d.vp p).nextCap).isSome then d.setCap p (some { c with started := true, seenAt := d.now })
  else (d.setCap p (some { c with started := true, seenAt := d.now })).wr .VIS_STAT_STATE 3 p

theorem frameStart_gives (d : Dev) (p : Nat) (c : Cap) :
    ((d.frameStart p c).vp p).cap = some { c with started := true, seenAt := d.now } ∧
      (d.frameStart p c).rd .VIS_STAT_STATE p = if (d.vp p).nextCap.isSome then d.rd .VIS_STAT_STATE p else 3 := by
  unfold Dev.frameStart
  split
  · rw [setCap_vp]
    exact ⟨rfl, rfl⟩
  · rw [wr_vp, setCap_vp]
    exact ⟨rfl, rd_wr_self _ _ _ _ _ (by decide)⟩

theorem visPacket_start (hhdr : pkt.hdrErr.val ≠ 2) (hmain : pkt.vc.val = s.dev.rd .VIS_CFG_VC0 p) (htype : pkt.dtype.toNat = 0)
    (hnew : c.started = false) : s.visPacket p pkt c = { s with dev := s.dev.frameStart p c } := by
  unfold State.visPacket Dev.frameStart
  dsimp only
  rw [if_neg (by simp [hhdr, hmain]), if_pos htype, if_pos (by simp [hmain, hnew]), setCap_vp]

/-- A line packet of the main channel that the port takes: a full buffer drops the frame, else the line is added. -/
theorem visPacket_line (hhdr : pkt.hdrErr.val ≠ 2) (hmain : pkt.vc.val = s.dev.rd .VIS_CFG_VC0 p) (hdata : pkt.dtype.toNat ≠ 0)
    (htype : pkt.dtype.toNat = 0x2B + s.dev.rd .VIS_CFG_FMT p) (haccepts : s.dev.visAccepts p = true) (hstarted : c.started = true)
    (hkept : c.dropped = false) : s.visPacket p pkt c = if s.dev.visFull p pkt.full = true then s.visDrop p c else
      State.visS0 { s with dev := s.dev.visFill p } p ((s.dev.visFill p).visLine p false pkt c) := by
  unfold State.visPacket
  dsimp only
  rw [if_neg (by simp [hhdr, hmain]), if_neg hdata, if_neg (by simp [haccepts, htype, Dev.visType, hstarted, hkept]), hmain]
  simp only [decide_true, Bool.not_true]

/-- A line that no S0 buffer takes changes the frame being received only, whose map words may flag it. -/
theorem visS0_cap (hoff : s.dev.visStream p 0 = false) (c : Cap) : ∃ poison, ((s.visS0 p c).dev.vp p).cap =
    some { c with flags := { c.flags with poison := poison } } := by
  unfold State.visS0
  dsimp only
  rw [if_pos (by rw [hoff]; rfl), setCap_vp]
  exact ⟨_, rfl⟩

/-- A line of the main readout as the frame takes it: cut or filled to the width, its faults noted. -/
theorem visLine_main (d : Dev) (p : Nat) (pkt : CsiPkt) (c : Cap) :
    (d.visLine p false pkt c).n0 = c.n0 + 1 ∧
      (d.visLine p false pkt c).lines0 = (c.lines0 ++ [((pkt.pixels.map BitVec.toNat) ++
        List.replicate (d.rd .VIS_GEOM_WIDTH p) 0).take (d.rd .VIS_GEOM_WIDTH p)]).take (d.rd .VIS_GEOM_HEIGHT p) ∧
      (d.visLine p false pkt c).flags.crcErr = (c.flags.crcErr || !pkt.crcOk) ∧
      (d.visLine p false pkt c).flags.geom = (c.flags.geom || decide (pkt.pixels.length ≠ d.rd .VIS_GEOM_WIDTH p)) := ⟨rfl, rfl, rfl, rfl⟩

theorem line_adds (hoff : s.dev.visStream p 0 = false) :
    ∃ c', ((State.visS0 { s with dev := s.dev.visFill p } p ((s.dev.visFill p).visLine p false pkt c)).dev.vp p).cap = some c' ∧
      c'.n0 = c.n0 + 1 ∧
      c'.lines0 = (c.lines0 ++ [((pkt.pixels.map BitVec.toNat) ++ List.replicate (s.dev.rd .VIS_GEOM_WIDTH p) 0).take
        (s.dev.rd .VIS_GEOM_WIDTH p)]).take (s.dev.rd .VIS_GEOM_HEIGHT p) ∧
      c'.flags.crcErr = (c.flags.crcErr || !pkt.crcOk) ∧
      c'.flags.geom = (c.flags.geom || decide (pkt.pixels.length ≠ s.dev.rd .VIS_GEOM_WIDTH p)) := by
  have hrd (f : Fld) : (s.dev.visFill p).rd f p = s.dev.rd f p := (Dev.visFill_only _ _).rd _ _ _ (Nat.zero_testBit _)
  have hoff' : Dev.visStream (s.dev.visFill p) p 0 = false := by
    unfold Dev.visStream at hoff ⊢
    rw [hrd, hoff]
  obtain ⟨poison, hcap⟩ := visS0_cap (s := { s with dev := s.dev.visFill p }) hoff' ((s.dev.visFill p).visLine p false pkt c)
  obtain ⟨hn, hlines, hcrc, hgeom⟩ := visLine_main (s.dev.visFill p) p pkt c
  rw [hrd, hrd] at hlines
  rw [hrd] at hgeom
  exact ⟨_, hcap, hn, hlines, hcrc, hgeom⟩

end

/-- The block with the frame c of port p dropped, shown and counted but not yet reported. -/
def Dev.frameDropped (d : Dev) (p : Nat) (c : Cap) : Dev :=
  ((d.wr .VIS_STAT_DROP 1 p).inc .VIS_CNT_DROPS p).setCap p (some { c with dropped := true })

theorem frameDropped_gives (d : Dev) (p : Nat) (c : Cap) : ((d.frameDropped p c).vp p).cap = some { c with dropped := true } ∧
    (d.frameDropped p c).rd .VIS_STAT_DROP p = 1 ∧ (d.frameDropped p c).rd .VIS_CNT_DROPS p = min (d.rd .VIS_CNT_DROPS p + 1) 65535 := by
  unfold Dev.frameDropped
  rw [setCap_vp]
  refine ⟨rfl, ?_, ?_⟩ <;> unfold Dev.setCap <;> rw [updVp_rd]
  · rw [inc_rd_ne _ _ _ _ _ (by decide)]
    exact rd_wr_self _ _ _ _ _ (by decide)
  · rw [inc_rd, rd_wr_other _ _ _ _ _ _ (by decide)]
    rfl

theorem visDrop_dev (s : State) (p : Nat) (c : Cap) :
    (s.visDrop p c).dev = ((s.s0Abort p c).dev.frameDropped p c).raise Ev.CAM_FRAME_DROP (le 1 p ++ le 4 c.id ++ le 2 c.n0) := by
  unfold State.visDrop Dev.frameDropped
  rfl

theorem visDrop_drops (s : State) (p : Nat) (c : Cap) : ((s.visDrop p c).dev.vp p).cap = some { c with dropped := true } ∧
    (s.visDrop p c).dev.rd .VIS_STAT_DROP p = 1 ∧
    (s.visDrop p c).dev.rd .VIS_CNT_DROPS p = min (s.dev.rd .VIS_CNT_DROPS p + 1) 65535 ∧ (s.visDrop p c).dev.evPending Ev.CAM_FRAME_DROP := by
  obtain ⟨hcap, hshown, hcounted⟩ := frameDropped_gives (s.s0Abort p c).dev p c
  rw [(State.s0Abort_only s p c).dev.rd _ _ _ rfl] at hcounted
  rw [visDrop_dev, raise_vp, Dev.raise_rd _ _ _ _ _ _ (by decide) (by decide), Dev.raise_rd _ _ _ _ _ _ (by decide) (by decide)]
  exact ⟨hcap, hshown, hcounted, Dev.raise_pending _ _ _ (by decide)⟩

/-! ### The frame end (R222, R230) -/

/-- The frame c of port p ended: a dropped one has no outputs and reports nothing. -/
def State.frameOver (s : State) (p : Nat) (c : Cap) : State :=
  if c.dropped then s.updVp p (fun v => { v with timeouts := 0 }) else s.visEnd p c

theorem frameOver_port (s : State) (p : Nat) (c : Cap) :
    ((s.frameOver p c).dev.vp p).nextCap = (s.dev.vp p).nextCap ∧ ((s.frameOver p c).dev.vp p).timeouts = 0 := by
  unfold State.frameOver
  split
  · unfold State.updVp
    dsimp only
    rw [updVp_vp]
    exact ⟨rfl, rfl⟩
  · obtain ⟨hnext, htimeouts, -, -⟩ := visEnd_st s p c
    exact ⟨hnext, htimeouts⟩

theorem frameOver_reports {s : State} {p : Nat} {c : Cap} (hkept : c.dropped = false) :
    (c.flags.crcErr = true → (s.frameOver p c).dev.rd .VIS_STAT_CRC p = 1) ∧
      (c.n0 ≠ s.dev.rd .VIS_GEOM_HEIGHT p → (s.frameOver p c).dev.rd .VIS_STAT_GEOM p = 1) := by
  unfold State.frameOver
  rw [if_neg (by simp [hkept])]
  exact (visEnd_st s p c).2.2

theorem frameEnd_exec {p : Port} {s : State} {c : Cap} (hcap : (s.dev.vp p).cap = some c) (hon : s.dev.visOn p = true)
    (hst : s.dev.rd .VIS_STAT_STATE p ≠ 4) (hstarted : c.started = true) :
    exec (.frameEnd p) s = .next { s.frameOver p c with dev := (s.frameOver p c).dev.visNext p } := by
  change execFrameEnd p s = _
  unfold execFrameEnd
  rw [hcap]
  dsimp only
  rw [if_pos (by simp [hon, hst, hstarted])]
  rfl

theorem frameEnd_gives {p : Port} {s : State} {c : Cap} (hcap : (s.dev.vp p).cap = some c) (hon : s.dev.visOn p = true)
    (hst : s.dev.rd .VIS_STAT_STATE p ≠ 4) (hstarted : c.started = true) : Gives (.frameEnd p) s fun t =>
      (t.dev.vp p).cap.map (·.id) = (s.dev.vp p).nextCap.map (·.id) ∧ (t.dev.vp p).nextCap = none ∧ (t.dev.vp p).timeouts = 0 ∧
      t.dev.rd .VIS_STAT_STATE p = (if (s.dev.vp p).nextCap.isSome then 2 else 1) ∧
      (c.dropped = false → c.flags.crcErr = true → t.dev.rd .VIS_STAT_CRC p = 1) ∧
      (c.dropped = false → c.n0 ≠ s.dev.rd .VIS_GEOM_HEIGHT p → t.dev.rd .VIS_STAT_GEOM p = 1) := by
  refine gives_next (frameEnd_exec hcap hon hst hstarted) ?_
  obtain ⟨hnext, htimeouts⟩ := frameOver_port s p c
  obtain ⟨hcap', hnext', htimeouts', hstate⟩ := visNext_st (s.frameOver p c).dev p
  rw [hnext] at hcap' hstate
  have hkeeps := Dev.visNext_only (s.frameOver p c).dev p
  exact ⟨hcap', hnext', htimeouts'.trans htimeouts, hstate,
    fun hkept hcrc => (hkeeps.rd _ _ _ rfl).trans ((frameOver_reports hkept).1 hcrc),
    fun hkept hrows => (hkeeps.rd _ _ _ rfl).trans ((frameOver_reports hkept).2 hrows)⟩

/-! ### The watchdog and the reset (R237) -/

/-- The block with the frame of port p aborted and the port reset, the timeout counted but not yet reported. -/
def Dev.frameAborted (d : Dev) (p : Nat) : Dev :=
  (((d.wr .VIS_STAT_TIMEOUT 1 p).inc .VIS_CNT_TIMEOUTS p).wr .VIS_STAT_STATE 4 p).updVp p
    (fun v => { v with cap := none, timeouts := ((d.vp p).timeouts + 1) % 3 })

theorem frameAborted_gives (d : Dev) (p : Nat) : ((d.frameAborted p).vp p).cap = none ∧
    ((d.frameAborted p).vp p).timeouts = ((d.vp p).timeouts + 1) % 3 ∧ (d.frameAborted p).rd .VIS_STAT_STATE p = 4 ∧
    (d.frameAborted p).rd .VIS_STAT_TIMEOUT p = 1 ∧
    (d.frameAborted p).rd .VIS_CNT_TIMEOUTS p = min (d.rd .VIS_CNT_TIMEOUTS p + 1) 65535 := by
  unfold Dev.frameAborted
  rw [updVp_vp]
  refine ⟨rfl, rfl, ?_, ?_, ?_⟩ <;> rw [updVp_rd]
  · exact rd_wr_self _ _ _ _ _ (by decide)
  · rw [rd_wr_other _ _ _ _ _ _ (by decide), inc_rd_ne _ _ _ _ _ (by decide)]
    exact rd_wr_self _ _ _ _ _ (by decide)
  · rw [rd_wr_other _ _ _ _ _ _ (by decide), inc_rd, rd_wr_other _ _ _ _ _ _ (by decide)]
    rfl

/-- The timeout is reported, and with the third in a row the link's failure. -/
theorem visTimeout_eq (s : State) (p : Nat) (c : Cap) : ∃ cause, (s.visTimeout p c).dev =
    if (s.dev.vp p).timeouts + 1 = 3 then (((s.s0Abort p c).dev.frameAborted p).raise Ev.CAM_TIMEOUT cause).raise Ev.CAM_LINK (le 1 p)
    else ((s.s0Abort p c).dev.frameAborted p).raise Ev.CAM_TIMEOUT cause := by
  rw [← s0Abort_timeouts s p c]
  exact ⟨_, rfl⟩

/-- Reporting the timeout leaves the port and its registers. -/
theorem visTimeout_after (s : State) (p : Nat) (c : Cap) : Dev.Only (partsMask eventParts) (fieldsMask eventFields)
    ((s.s0Abort p c).dev.frameAborted p) (s.visTimeout p c).dev := by
  obtain ⟨cause, heq⟩ := visTimeout_eq s p c
  rw [heq]
  split
  · exact .step (Dev.raise_only _ _ _) rfl rfl ((Dev.raise_only _ _ _).mono rfl rfl)
  · exact (Dev.raise_only _ _ _).mono rfl rfl

theorem visTimeout_reports (s : State) (p : Nat) (c : Cap) :
    ((s.dev.vp p).timeouts + 1 ≠ 3 → (s.visTimeout p c).dev.evPending Ev.CAM_TIMEOUT) ∧
      ((s.dev.vp p).timeouts + 1 = 3 → (s.visTimeout p c).dev.evPending Ev.CAM_LINK) := by
  obtain ⟨cause, heq⟩ := visTimeout_eq s p c
  rw [heq]
  refine ⟨fun hmore => ?_, fun hthird => ?_⟩
  · rw [if_neg hmore]
    exact Dev.raise_pending _ _ _ (by decide)
  · rw [if_pos hthird]
    exact Dev.raise_pending _ _ _ (by decide)

theorem frameWatchdogTimeout_exec {p : Port} {s : State} {c : Cap} (hcap : (s.dev.vp p).cap = some c) (hon : s.dev.visOn p = true)
    (hst : s.dev.rd .VIS_STAT_STATE p ≠ 4) (hkept : c.dropped = false) (hover : s.dev.visOver p c = true) :
    exec (.frameWatchdogTimeout p) s = .next (s.visTimeout p c) := by
  change execFrameWatchdogTimeout p s = _
  unfold execFrameWatchdogTimeout
  rw [hcap]
  dsimp only
  rw [if_neg (by simp [hon, hst, hover]), if_neg (by simp [hkept])]

theorem frameWatchdogTimeout_gives {p : Port} {s : State} {c : Cap} (hcap : (s.dev.vp p).cap = some c) (hon : s.dev.visOn p = true)
    (hst : s.dev.rd .VIS_STAT_STATE p ≠ 4) (hkept : c.dropped = false) (hover : s.dev.visOver p c = true) :
    Gives (.frameWatchdogTimeout p) s fun t =>
      (t.dev.vp p).cap = none ∧ t.dev.rd .VIS_STAT_STATE p = 4 ∧ t.dev.rd .VIS_STAT_TIMEOUT p = 1 ∧
      t.dev.rd .VIS_CNT_TIMEOUTS p = min (s.dev.rd .VIS_CNT_TIMEOUTS p + 1) 65535 ∧
      (t.dev.vp p).timeouts = ((s.dev.vp p).timeouts + 1) % 3 ∧
      ((s.dev.vp p).timeouts + 1 ≠ 3 → t.dev.evPending Ev.CAM_TIMEOUT) ∧
      ((s.dev.vp p).timeouts + 1 = 3 → t.dev.evPending Ev.CAM_LINK) := by
  refine gives_next (frameWatchdogTimeout_exec hcap hon hst hkept hover) ?_
  have hcount := (State.s0Abort_only s p c).dev.rd .VIS_CNT_TIMEOUTS p 0 rfl
  obtain ⟨hgone, htimeouts, hstate, hshown, hcounted⟩ := frameAborted_gives (s.s0Abort p c).dev p
  rw [s0Abort_timeouts] at htimeouts
  rw [hcount] at hcounted
  have hafter := visTimeout_after s p c
  have hvp := visOp_vp hafter rfl p
  exact ⟨by rw [hvp, hgone], (hafter.rd _ _ _ rfl).trans hstate, (hafter.rd _ _ _ rfl).trans hshown, (hafter.rd _ _ _ rfl).trans hcounted,
    by rw [hvp, htimeouts], visTimeout_reports s p c⟩

theorem camResetDone_gives {p : Port} {s : State} (hreset : s.dev.rd .VIS_STAT_STATE p = 4) : Gives (.camResetDone p) s fun t =>
    (t.dev.vp p).cap.map (·.id) = (s.dev.vp p).nextCap.map (·.id) ∧ (t.dev.vp p).nextCap = none ∧
    t.dev.rd .VIS_STAT_STATE p = (if (s.dev.vp p).nextCap.isSome then 2 else 1) := by
  refine gives_fn (show exec (.camResetDone p) s = execCamResetDone p s from rfl) (if_pos hreset) ?_
  obtain ⟨hcap, hnext, -, hstate⟩ := visNext_st s.dev p
  exact ⟨hcap, hnext, hstate⟩

/-- Settles O40: the frame start, a line taken and a line at a full buffer, the frame end, the watchdog and the end of the reset, one lemma
each. -/
theorem visionFramesTakeEffect : Obligations.VisionFramesTakeEffect := by
  refine ⟨fun p pkt s c hcap hon hst hhdr hmain => ⟨fun htype hnew => gives_next (csiPacket_exec hcap hon hst) ?_,
      fun hdata htype haccepts hstarted hkept => ⟨fun hroom hoff => gives_next (csiPacket_exec hcap hon hst) ?_,
        fun hfull => gives_next (csiPacket_exec hcap hon hst) ?_⟩⟩,
    fun p s c hcap hon hst => ⟨frameEnd_gives hcap hon hst, frameWatchdogTimeout_gives hcap hon hst⟩, fun _ _ => camResetDone_gives⟩
  · rw [visPacket_start hhdr hmain htype hnew]
    exact frameStart_gives s.dev p c
  · rw [visPacket_line hhdr hmain hdata htype haccepts hstarted hkept, if_neg (by simp [hroom])]
    exact line_adds hoff
  · rw [visPacket_line hhdr hmain hdata htype haccepts hstarted hkept, if_pos hfull]
    exact visDrop_drops s p c

end Sys2Proof.Machine

/-! Frames of the nozzle and register loops, the axes, the heat, the sensors and the planner, read off the masks that `exec_only` gives
each command. -/
namespace Sys2Proof.Machine
-- The masks of register fields evaluate as powers of two up to the last field's number.
set_option exponentiation.threshold 600

/-- Settles O59: in each clause the parts and fields listed cover the masks of its command. -/
theorem framesOfLoopsAxesAndHeat : Obligations.FramesOfLoopsAxesAndHeat := by
  unfold Obligations.FramesOfLoopsAxesAndHeat
  refine ⟨fun _ _ _ _ _ _ _ h => ?_, fun _ _ _ h => ?_, fun _ _ h => ?_, fun _ _ h => ?_, fun _ _ _ _ h => ?_, fun _ _ _ h => ?_,
    fun _ _ _ _ h => ?_, fun _ _ _ _ h => ?_, fun _ _ _ _ h => ?_, fun _ _ _ h => ?_, fun _ _ _ _ _ h => ?_, fun _ _ _ _ h => ?_,
    fun _ _ _ _ h => ?_, fun _ _ _ _ h => ?_, fun _ _ _ _ h => ?_, fun _ _ _ _ h => ?_, fun _ _ h => ?_, fun _ _ _ h => ?_,
    fun _ _ _ h => ?_, fun _ _ _ _ h => ?_, fun _ _ _ _ h => ?_, fun _ _ h => ?_, fun _ _ _ _ h => ?_, fun _ _ _ h => ?_,
    fun _ _ h => ?_, fun _ _ _ _ h => ?_⟩
  all_goals exact exec_unchanged h (by simp only [cmdParts]; rfl) (by simp only [cmdFields]; rfl)

end Sys2Proof.Machine

/-! The loops of VS over a gap (10, R243 to R261): the one bar reported is measured, its head suspect or checked, its marks taken into the
register loop. The move of a hand-over step (R259). -/
namespace Sys2Proof.Machine
set_option exponentiation.threshold 600

/-! ### What follows the checks of a stripe -/

/-- Nozzle records, references and pending events of `d` stand in `e`. -/
structure Dev.ChecksStand (d e : Dev) : Prop where
  nozzles : NozEq d e
  pending : ∀ ev : EvCode, ev.sub < 16 → d.evPending ev → e.evPending ev

/-- The filtered offsets of each bar in `d` stand in `e`. -/
structure Dev.OffsetsStand (d e : Dev) : Prop where
  across : ∀ k, (e.barLoop k).e = (d.barLoop k).e
  down : ∀ k, (e.barLoop k).d = (d.barLoop k).d

/-- What VS plans from its measurements changes neither these nor the reports. -/
structure Dev.Plans (d e : Dev) : Prop extends Dev.ChecksStand d e, Dev.OffsetsStand d e where
  reports : e.loops.reports = d.loops.reports

theorem Dev.ChecksStand.trans {d e f : Dev} (h : d.ChecksStand e) (h' : e.ChecksStand f) : d.ChecksStand f :=
  ⟨h.nozzles.trans h'.nozzles, fun ev hs hp => h'.pending ev hs (h.pending ev hs hp)⟩

theorem Dev.OffsetsStand.trans {d e f : Dev} (h : d.OffsetsStand e) (h' : e.OffsetsStand f) : d.OffsetsStand f :=
  ⟨fun k => (h'.across k).trans (h.across k), fun k => (h'.down k).trans (h.down k)⟩

theorem Dev.Plans.refl (d : Dev) : d.Plans d :=
  { nozzles := NozEq.refl d, pending := fun _ _ hp => hp, across := fun _ => rfl, down := fun _ => rfl, reports := rfl }

theorem Dev.Plans.trans {d e f : Dev} (h : d.Plans e) (h' : e.Plans f) : d.Plans f :=
  { h.toChecksStand.trans h'.toChecksStand, h.toOffsetsStand.trans h'.toOffsetsStand with reports := h'.reports.trans h.reports }

theorem Dev.Plans.raise {d e : Dev} (h : d.Plans e) (ev : EvCode) (x : List Byte) : d.Plans (e.raise ev x) :=
  have hloops : (e.raise ev x).loops = e.loops := (Dev.raise_only e ev x).parts .loops rfl
  have hbar (k : Nat) : (e.raise ev x).barLoop k = e.barLoop k := by unfold Dev.barLoop; rw [hloops]
  h.trans
    { nozzles := NozEq.of (Dev.raise_only e ev x) rfl rfl
      pending := fun _ hs hp => Dev.raise_pending_of _ _ _ _ hs hp
      across := fun k => by rw [hbar]
      down := fun k => by rw [hbar]
      reports := by rw [hloops] }

theorem Dev.Plans.wr {d e : Dev} (h : d.Plans e) {f : Fld} {v i j : Nat} (hf : f ≠ .AON_EVPEND_PEND) : d.Plans (e.wr f v i j) :=
  h.trans { Dev.Plans.refl e with pending := fun _ _ hp => wrp hf hp }

theorem Dev.Plans.updDp {d e : Dev} (h : d.Plans e) {i : Nat} {g : Dose → Dose} : d.Plans (e.updDp i g) := { h with }

theorem Dev.Plans.withPend {d e : Dev} (h : d.Plans e) {es : List (Nat × Nat × Nat)} :
    d.Plans { e with loops := { e.loops with pend := es } } := { h with }

theorem Dev.ChecksStand.updBar (d : Dev) (k : Nat) (g : BarLoop → BarLoop) : d.ChecksStand (d.updBar k g) :=
  ⟨⟨rfl, rfl, rfl⟩, fun _ _ hp => hp⟩

theorem updBar_keeps {α : Type} (d : Dev) (k : Nat) (g : BarLoop → BarLoop) (φ : BarLoop → α) (hg : ∀ l, φ (g l) = φ l) (j : Nat) :
    φ ((d.updBar k g).barLoop j) = φ (d.barLoop j) := by
  by_cases hj : j = k
  · subst hj
    rw [updBar_same, hg]
  · exact congrArg φ (Tab.at_upd_ne d.loops.bars g hj)

theorem Dev.Plans.updBar {d e : Dev} (h : d.Plans e) {k : Nat} {g : BarLoop → BarLoop} (he : ∀ l, (g l).e = l.e) (hd : ∀ l, (g l).d = l.d) :
    d.Plans (e.updBar k g) :=
  h.trans { Dev.ChecksStand.updBar e k g with across := updBar_keeps e k g (·.e) he, down := updBar_keeps e k g (·.d) hd, reports := rfl }

theorem Dev.Plans.forEach {α : Type} (l : List α) (f : Dev → α → Dev) (h : ∀ (d : Dev) (x : α), d.Plans (f d x)) :
    ∀ d : Dev, d.Plans (d.forEach l f) := by
  induction l with
  | nil => exact Dev.Plans.refl
  | cons x l ih => exact fun d => (h d x).trans (ih (f d x))

/-! ### The register loop (R257 to R260) -/

theorem putShift_plans (d : Dev) (bar : Nat) (sh : Int) : d.Plans (d.putShift bar sh) := by
  unfold Dev.putShift
  extract_lets d' v
  have hd' : d.Plans d' := by
    unfold d'
    split
    · exact .raise (.refl d) _ _
    · exact .refl d
  split
  · exact .wr hd' (by decide)
  · exact hd'

theorem latUpdate_plans (d : Dev) (bar : Nat) : d.Plans (d.latUpdate bar) := by
  unfold Dev.latUpdate
  dsimp only
  refine .trans ?_ (putShift_plans _ _ _)
  exact .updBar (.wr (.wr (.refl d) (by decide)) (by decide)) (fun _ => rfl) fun _ => rfl

theorem planStep_plans (d : Dev) (bar : Nat) : d.Plans (d.planStep bar) := by
  unfold Dev.planStep
  dsimp only
  split
  · split
    · exact .refl d
    · split
      · exact .refl d
      · refine .wr ?_ (by decide)
        exact .updBar (.refl d) (fun _ => rfl) fun _ => rfl
  · exact .refl d

theorem planBar_plans (d : Dev) (bar : Nat) : d.Plans (d.planBar bar) := by
  unfold Dev.planBar
  split
  · exact .refl d
  · split
    · exact .updBar (.refl d) (fun _ => rfl) fun _ => rfl
    · exact planStep_plans d bar

theorem trimTarget_plans (d : Dev) (bar : Nat) : d.Plans (d.trimTarget bar) := by
  unfold Dev.trimTarget
  extract_lets dk want d₁ d₂ v
  have hd₁ : d.Plans d₁ := Dev.Plans.wr (f := .VL_DW_D) (.refl d) (by decide)
  have hd₂ : d.Plans d₂ := by
    unfold d₂
    split
    · exact .raise hd₁ _ _
    · exact hd₁
  split
  · exact .wr hd₂ (by decide)
  · exact hd₂

/-- The filters of a bar take what the marks of a gap show, less the actuator's and the trim's part (R257, R260). -/
def BarLoop.take (l : BarLoop) (e dw act trim : Int) : BarLoop :=
  { l with e := l.e + (e - act * 1024 - l.e) / 4, d := l.d + (dw - l.d - trim * 1024) / 4 }

/-- The register loop filters the offsets, and plans from there. -/
theorem registerLoop_plans (d : Dev) (bar : Nat) (e dw act trim : Int) :
    (d.updBar bar (·.take e dw act trim)).Plans (d.registerLoop bar e dw act trim) :=
  ((latUpdate_plans _ bar).trans (planBar_plans _ bar)).trans (trimTarget_plans _ bar)

theorem registerLoop_checksStand (d : Dev) (bar : Nat) (e dw act trim : Int) : d.ChecksStand (d.registerLoop bar e dw act trim) :=
  (Dev.ChecksStand.updBar d bar _).trans (registerLoop_plans d bar e dw act trim).toChecksStand

/-! ### The end of a measurement -/

theorem enterRod_plans (i : Nat) (d : Dev) (e : Nat × Nat × Nat) : d.Plans (Dev.enterRod i d e) := by
  unfold Dev.enterRod Dev.rodEnqueue
  dsimp only
  split
  · exact .raise (.wr (.updDp (.refl d)) (by decide)) _ _
  · exact .withPend (.wr (.updDp (.updDp (.refl d))) (by decide))

theorem rodCommit_plans (d : Dev) (i : Nat) : d.Plans (d.rodCommit i) := by
  unfold Dev.rodCommit
  split
  · exact .raise (.wr (.refl d) (by decide)) _ _
  · exact .wr (.refl d) (by decide)

theorem sv1Commit_plans (d : Dev) (i : Nat) : d.Plans (d.sv1Commit i) := by
  unfold Dev.sv1Commit
  dsimp only
  split
  · exact .refl d
  · exact (Dev.Plans.forEach _ _ (enterRod_plans i) d).trans (rodCommit_plans _ i)

theorem trimReports_checksStand (d : Dev) (jn pn : Nat) : d.ChecksStand (d.trimReports jn pn) := ⟨⟨rfl, rfl, rfl⟩, fun _ _ hp => hp⟩

/-- The loop of a bar with the discarded measurements of products that are still reported. -/
def BarLoop.stillReported (reports : List StartReport) (l : BarLoop) : BarLoop :=
  { l with discard := l.discard.filter (fun x => reports.any (fun r => decide (r.jn = x.1) && decide (r.pn = x.2))) }

theorem trimReports_bars (d : Dev) (jn pn : Nat) : (d.trimReports jn pn).loops.bars =
    d.loops.bars.map (fun b => (b.1, b.2.stillReported (d.trimReports jn pn).loops.reports)) := rfl

theorem trimReports_offsetsStand (d : Dev) (jn pn : Nat) : d.OffsetsStand (d.trimReports jn pn) := by
  constructor <;> intro k <;> unfold Dev.barLoop <;> rw [trimReports_bars]
  · exact at_map_keep d.loops.bars (.stillReported _) (·.e) (fun _ => rfl) k
  · exact at_map_keep d.loops.bars (.stillReported _) (·.d) (fun _ => rfl) k

/-- VS drops what it no longer needs, and SV1 commits what the checks have changed (R242, R253). -/
def Dev.endGap (d : Dev) (jn pn : Nat) (is : List Nat) : Dev := (d.trimReports jn pn).forEach is Dev.sv1Commit

theorem endGap_checksStand (d : Dev) (jn pn : Nat) (is : List Nat) : d.ChecksStand (d.endGap jn pn is) :=
  (trimReports_checksStand d jn pn).trans (Dev.Plans.forEach is _ sv1Commit_plans _).toChecksStand

theorem endGap_offsetsStand (d : Dev) (jn pn : Nat) (is : List Nat) : d.OffsetsStand (d.endGap jn pn is) :=
  (trimReports_offsetsStand d jn pn).trans (Dev.Plans.forEach is _ sv1Commit_plans _).toOffsetsStand

/-! ### The nozzle loop leaves the register loop's own state -/

/-- What the register loop and the search for reports read of the loops' state. -/
def Dev.regView (d : Dev) : Tab Nat BarLoop × List StartReport × List ((Nat × Nat × Nat) × Int) :=
  (d.loops.bars, d.loops.reports, d.loops.trims)

theorem regView_of {c r : Nat} {d e : Dev} (h : Dev.Only c r d e) (hc : c.testBit (Part.ctorIdx .loops) = false) : e.regView = d.regView := by
  have hl : e.loops = d.loops := h.parts .loops hc
  unfold Dev.regView
  rw [hl]

theorem rodEntry_regView (d : Dev) (ch : Nat) (n : Nozzle) : (d.rodEntry ch n).regView = d.regView := by
  unfold Dev.rodEntry
  split <;> rfl

theorem checkDash_regView (f : Fit) (dref : Nat) (d : Dev) (x : Dash) : (d.checkDash f dref x).regView = d.regView := by
  have hevent (ch : Nat) (a b : Nozzle) : ((d.setNozzle ch a).nozzleEvent ch b a).regView = d.regView :=
    (regView_of (Dev.nozzleEvent_only (d.setNozzle ch a) ch b a) rfl).trans rfl
  unfold Dev.checkDash
  extract_lets ch old rho n d'
  split
  · rfl
  · split
    · exact (rodEntry_regView _ _ _).trans (hevent _ _ _)
    · exact hevent _ _ _

theorem reclass_regView (slot : Nat) (d : Dev) (j : Nat) : (d.reclass slot j).regView = d.regView := by
  unfold Dev.reclass
  dsimp only
  split
  · rfl
  · exact rodEntry_regView _ _ _

theorem checkHead_regView (f : Fit) (d : Dev) (slot : Nat) (xs : List Dash) : (d.checkHead f slot xs).regView = d.regView := by
  unfold Dev.checkHead
  dsimp only
  split
  · exact regView_of (Dev.raise_only _ _ _) rfl
  · exact (fold_keep' _ _ Dev.regView _ (reclass_regView slot)).trans (fold_keep' _ _ Dev.regView _ (checkDash_regView f _))

theorem nozzleLoop_regView (d : Dev) (f : Fit) (xs : List Dash) : (d.nozzleLoop f xs).regView = d.regView := by
  unfold Dev.nozzleLoop
  split
  · rfl
  · exact fold_keep' (xs.map dashSlot).eraseDups _ Dev.regView d fun d h => checkHead_regView f d h (dashesOf xs h)

theorem measureStripe_regView (d : Dev) (p bar : Nat) (f : Fit) (xs : List Dash) : (d.measureStripe p bar f xs).regView = d.regView := by
  have hloop : (if d.flag .VL_CTL_NZEN then d.nozzleLoop f xs else d).regView = d.regView := by
    split
    · exact nozzleLoop_regView d f xs
    · rfl
  unfold Dev.measureStripe
  dsimp only
  split
  · exact hloop
  · exact hloop

theorem measureStripe_reports (d : Dev) (p bar : Nat) (f : Fit) (xs : List Dash) : (d.measureStripe p bar f xs).loops.reports = d.loops.reports :=
  congrArg (·.2.1) (measureStripe_regView d p bar f xs)

theorem measureStripe_barLoop (d : Dev) (p bar : Nat) (f : Fit) (xs : List Dash) (k : Nat) :
    (d.measureStripe p bar f xs).barLoop k = d.barLoop k :=
  congrArg (fun v : Tab Nat BarLoop × _ => Tab.at v.1 k) (measureStripe_regView d p bar f xs)

theorem measureStripe_trims (d : Dev) (p bar : Nat) (f : Fit) (xs : List Dash) : (d.measureStripe p bar f xs).loops.trims = d.loops.trims :=
  congrArg (·.2.2) (measureStripe_regView d p bar f xs)

/-! ### A stripe of one head (R247, R248) -/

theorem checkHead_suspect {d : Dev} {f : Fit} {slot : Nat} {xs : List Dash}
    (h : xs.length < 4 * (xs.filter (fun x => !dashPresent x (d.drefNext slot xs))).length) :
    (d.checkHead f slot xs).evPending Ev.NZ_HEAD_SUSPECT ∧ NozEq d (d.checkHead f slot xs) := by
  unfold Dev.checkHead
  dsimp only
  rw [if_pos h]
  exact ⟨Dev.raise_pending _ _ _ (by decide), NozEq.of (Dev.raise_only _ _ _) rfl rfl⟩

theorem checkHead_good {d : Dev} {f : Fit} {slot : Nat} {xs : List Dash}
    (h : 4 * (xs.filter (fun x => !dashPresent x (d.drefNext slot xs))).length ≤ xs.length) (hnodup : (xs.map (·.ch)).Nodup) :
    (Tab.at (d.checkHead f slot xs).loops.dref slot : Option Nat) = some (d.drefNext slot xs) ∧
      ∀ x ∈ xs, SameRod ((d.checkHead f slot xs).nozzle x.ch.toNat) (dashCheck f (d.drefNext slot xs) x (d.nozzle x.ch.toNat)) := by
  unfold Dev.checkHead
  dsimp only
  rw [if_neg (Nat.not_lt.mpr h)]
  generalize hd' : ({ d with loops := { d.loops with dref := _ } } : Dev) = d'
  have hdref : (Tab.at d'.loops.dref slot : Option Nat) = some (d.drefNext slot xs) := by
    rw [← hd']
    exact Tab.at_put_same d.loops.dref slot (some (d.drefNext slot xs))
  have hnoz (ch : Nat) : d'.nozzle ch = d.nozzle ch := by
    rw [← hd']
    exact nozzle_congr rfl rfl ch
  obtain ⟨-, hchecked, hkept⟩ := dashes_nz xs d' f (d.drefNext slot xs) hnodup
  refine ⟨?_, fun x hx => ?_⟩
  · rw [(reclassAll_nz _ _ slot 0).2, hkept, hdref]
  · rw [← hnoz]
    exact (reclassAll_nz _ _ slot _).1.trans (hchecked x hx)

theorem nozzleLoop_oneHead {d : Dev} {f : Fit} {xs : List Dash} {h : Nat} (hok : f.ok = true) (hne : xs ≠ [])
    (hhead : ∀ x ∈ xs, dashSlot x = h) : (d.checkHead f h xs).ChecksStand (d.nozzleLoop f xs) := by
  have hslots : (xs.map dashSlot).eraseDups = [h] :=
    eraseDups_const h _ (by simpa using hne) fun y hy => by
      obtain ⟨x, hx, rfl⟩ := List.mem_map.mp hy
      exact hhead x hx
  have hdashes : dashesOf xs h = xs := List.filter_eq_self.mpr fun x hx => decide_eq_true (hhead x hx)
  unfold Dev.nozzleLoop
  dsimp only
  rw [if_neg (by rw [hok]; decide), hslots, show ∀ g : Dev → Nat → Dev, d.forEach [h] g = g d h from fun _ => rfl, hdashes]
  exact (Dev.Plans.wr (.wr (.refl _) (by decide)) (by decide)).toChecksStand

theorem measureStripe_oneHead {d : Dev} {p bar : Nat} {f : Fit} {xs : List Dash} {h : Nat} (hen : d.flag .VL_CTL_NZEN = true)
    (hok : f.ok = true) (hne : xs ≠ []) (hhead : ∀ x ∈ xs, dashSlot x = h) :
    (d.checkHead f h xs).ChecksStand (d.measureStripe p bar f xs) := by
  unfold Dev.measureStripe
  dsimp only
  rw [if_pos hen, if_pos hok]
  exact (nozzleLoop_oneHead hok hne hhead).trans ⟨⟨rfl, rfl, rfl⟩, fun _ _ hp => hp⟩

/-! ### A bar's part of a gap (R245, R256) -/

/-- The gap of a product is measured on a bar: the report and the camera's buffer that VS holds for it, and a product good there. -/
structure Dev.GapSeen (d : Dev) (p jn pn frame : Nat) (plan : BrimPlan) (bar : Nat) (r : StartReport) (b : CamBuf) : Prop where
  report : d.reportOf jn pn bar = some r
  buffer : d.usableBuf p frame 1 (nth plan.win bar) = some b
  good : d.gapGood jn pn bar = true

/-- The fit of the dashes that a port sees of a report. -/
def Dev.gapFit (d : Dev) (p : Nat) (plan : BrimPlan) (r : StartReport) (b : CamBuf) : Fit := d.stripeFit (d.measureDashes p plan r b)

/-- The block with the stripe of a bar measured and checked. -/
def Dev.stripeDone (d : Dev) (p bar : Nat) (plan : BrimPlan) (r : StartReport) (b : CamBuf) : Dev :=
  d.measureStripe p bar (d.gapFit p plan r b) (d.measureDashes p plan r b)

/-- The trim in force for a product's gap on a bar. -/
def Dev.gapTrim (d : Dev) (jn pn bar : Nat) : Int := ((d.loops.trims.find? (fun t => t.1 = (jn, pn, bar))).map (·.2)).getD 0

/-- The gap shows the register marks in full. -/
def Dev.marksFit (d : Dev) (plan : BrimPlan) (jn : Nat) : Bool :=
  decide (plan.markOfs + plan.markLines ≤ ((d.job jn).bind (·.rec?)).elim 0 (·.brimLines))

/-- The register loop is in use for a bar, and a frame shows it the marks of a product's gap. -/
def Dev.marksUsed (d : Dev) (p jn frame : Nat) (plan : BrimPlan) (bar : Nat) : Prop :=
  d.registers bar = true ∧ d.marksSeen p frame = true ∧ d.marksFit plan jn = true

/-- The offsets that the marks of a gap show, where they show any, go into the register loop. -/
def Dev.takeMarks (d : Dev) (p jn pn frame : Nat) (plan : BrimPlan) (bar : Nat) (act : Int) (f : Fit) (seen : Option (Int × Int)) : Dev :=
  match seen with
  | some (e, dw) =>
    if d.registers bar && d.marksSeen p frame && f.ok && d.marksFit plan jn then d.registerLoop bar e dw act (d.gapTrim jn pn bar) else d
  | none => d

section
variable {d : Dev} {p jn pn frame : Nat} {plan : BrimPlan} {bar : Nat}

theorem takeMarks_cases (d : Dev) (p jn pn frame : Nat) (plan : BrimPlan) (bar : Nat) (act : Int) (f : Fit) (seen : Option (Int × Int)) :
    d.takeMarks p jn pn frame plan bar act f seen = d ∨
      ∃ e dw trim, d.takeMarks p jn pn frame plan bar act f seen = d.registerLoop bar e dw act trim := by
  unfold Dev.takeMarks
  split
  · split
    · exact .inr ⟨_, _, _, rfl⟩
    · exact .inl rfl
  · exact .inl rfl

theorem takeMarks_used {act e dw : Int} {f : Fit} (hok : f.ok = true) (h : d.marksUsed p jn frame plan bar) :
    d.takeMarks p jn pn frame plan bar act f (some (e, dw)) = d.registerLoop bar e dw act (d.gapTrim jn pn bar) := by
  obtain ⟨hreg, hseen, hfit⟩ := h
  unfold Dev.takeMarks
  dsimp only
  rw [if_pos (by rw [hreg, hseen, hok, hfit]; rfl)]

variable {refs mine : List Mark} {r : StartReport} {b : CamBuf}

theorem gapBar_unreported (h : d.reportOf jn pn bar = none) : d.gapBar p jn pn frame plan refs mine bar = d := by
  unfold Dev.gapBar
  rw [h]

/-- A bar's part is its stripe, then its marks. -/
theorem gapBar_seen (h : d.GapSeen p jn pn frame plan bar r b) : d.gapBar p jn pn frame plan refs mine bar =
    (d.stripeDone p bar plan r b).takeMarks p jn pn frame plan bar r.act (d.gapFit p plan r b)
      (offsets plan (d.gapFit p plan r b) bar mine refs) := by
  unfold Dev.gapBar
  rw [h.report, h.buffer]
  dsimp only
  rw [if_neg (by rw [h.good]; decide)]
  rfl

theorem gapBar_checksStand (h : d.GapSeen p jn pn frame plan bar r b) :
    (d.stripeDone p bar plan r b).ChecksStand (d.gapBar p jn pn frame plan refs mine bar) := by
  rw [gapBar_seen h]
  obtain hc | ⟨e, dw, trim, hc⟩ := takeMarks_cases (d.stripeDone p bar plan r b) p jn pn frame plan bar r.act (d.gapFit p plan r b)
    (offsets plan (d.gapFit p plan r b) bar mine refs)
  · rw [hc]
    exact (Dev.Plans.refl _).toChecksStand
  · rw [hc]
    exact registerLoop_checksStand _ _ _ _ _ _

theorem gapBar_reports (h : d.GapSeen p jn pn frame plan bar r b) : (d.gapBar p jn pn frame plan refs mine bar).loops.reports = d.loops.reports := by
  have hstripe : (d.stripeDone p bar plan r b).loops.reports = d.loops.reports := measureStripe_reports _ _ _ _ _
  rw [gapBar_seen h]
  obtain hc | ⟨e, dw, trim, hc⟩ := takeMarks_cases (d.stripeDone p bar plan r b) p jn pn frame plan bar r.act (d.gapFit p plan r b)
    (offsets plan (d.gapFit p plan r b) bar mine refs)
  · rw [hc, hstripe]
  · rw [hc, (registerLoop_plans _ _ _ _ _ _).reports]
    exact hstripe

/-- The stripe's checks leave what the register loop's conditions read. -/
theorem stripeDone_marksUsed (h : d.marksUsed p jn frame plan bar) : (d.stripeDone p bar plan r b).marksUsed p jn frame plan bar := by
  obtain ⟨hreg, hseen, hfit⟩ := h
  have honly := Dev.measureStripe_only d p bar (d.gapFit p plan r b) (d.measureDashes p plan r b)
  have hplan : (d.stripeDone p bar plan r b).plan = d.plan :=
    congrArg (fun x : Boot => x.content.map fun c : CrownContent => c.plan) (honly.parts .boot rfl)
  have hvis : (d.stripeDone p bar plan r b).vis = d.vis := honly.parts .vis rfl
  have hen : (d.stripeDone p bar plan r b).flag .VL_CTL_REGEN = d.flag .VL_CTL_REGEN := flag_of_only honly rfl 0
  have hjob : (d.stripeDone p bar plan r b).job jn = d.job jn := job_congr (honly.parts .jobs rfl) jn
  refine ⟨?_, ?_, ?_⟩
  · unfold Dev.registers at hreg ⊢
    rwa [hen, hplan]
  · unfold Dev.marksSeen Dev.usableBuf at hseen ⊢
    rwa [hvis]
  · unfold Dev.marksFit at hfit ⊢
    rwa [hjob]

/-- With the register loop in use and the marks seen, a bar's part goes through the register loop. -/
theorem gapBar_registers {e dw : Int} (h : d.GapSeen p jn pn frame plan bar r b) (hok : (d.gapFit p plan r b).ok = true)
    (hmarks : d.marksUsed p jn frame plan bar) (hofs : offsets plan (d.gapFit p plan r b) bar mine refs = some (e, dw)) :
    d.gapBar p jn pn frame plan refs mine bar = (d.stripeDone p bar plan r b).registerLoop bar e dw r.act (d.gapTrim jn pn bar) := by
  have htrim : (d.stripeDone p bar plan r b).gapTrim jn pn bar = d.gapTrim jn pn bar := by
    unfold Dev.gapTrim Dev.stripeDone
    rw [measureStripe_trims]
  rw [gapBar_seen h, hofs, takeMarks_used hok (stripeDone_marksUsed hmarks), htrim]

end

/-! ### The gap of a product reported on one bar -/

/-- Bars without a report are passed over. -/
theorem forEach_reported {jn pn : Nat} (R : List StartReport) (g : Dev → Nat → Dev)
    (hskip : ∀ (d : Dev) (k : Nat), d.reportOf jn pn k = none → g d k = d) (ks : List Nat) (bar : Nat) : ∀ d : Dev, d.loops.reports = R →
    (g d bar).loops.reports = R → ks.filter (fun k => (d.reportOf jn pn k).isSome) = [bar] → d.forEach ks g = g d bar := by
  have hreports {d e : Dev} (h : e.loops.reports = d.loops.reports) (k : Nat) : e.reportOf jn pn k = d.reportOf jn pn k := by
    unfold Dev.reportOf
    rw [h]
  have hnone (ks : List Nat) : ∀ d : Dev, (∀ k ∈ ks, d.reportOf jn pn k = none) → d.forEach ks g = d := by
    induction ks with
    | nil => exact fun _ _ => rfl
    | cons k ks ih =>
      intro d hd
      show (g d k).forEach ks g = d
      rw [hskip d k (hd k (List.mem_cons_self ..))]
      exact ih d fun j hj => hd j (List.mem_cons_of_mem _ hj)
  induction ks with
  | nil => exact fun _ _ _ h => absurd h (by simp)
  | cons k ks ih =>
    intro d hR hR' hone
    show (g d k).forEach ks g = g d bar
    cases hk : d.reportOf jn pn k with
    | none =>
      rw [hskip d k hk]
      rw [List.filter_cons_of_neg (by rw [hk]; decide)] at hone
      exact ih d hR hR' hone
    | some r =>
      rw [List.filter_cons_of_pos (by rw [hk]; rfl)] at hone
      obtain ⟨rfl, hrest⟩ := List.cons.inj hone
      refine hnone ks (g d k) fun j hj => ?_
      rw [hreports (hR'.trans hR.symm)]
      simpa using List.filter_eq_nil_iff.mp hrest j hj

/-- The marks of a bar in a frame. -/
def marksOn (marks : List GapBar) (bar : Nat) : List Mark := ((marks.find? (fun g => g.bar.val = bar)).map (·.marks)).getD []

/-- The marks of the reference bar, where the product is good there too. -/
def Dev.refMarks (d : Dev) (jn pn : Nat) (plan : BrimPlan) (marks : List GapBar) : List Mark :=
  if d.gapGood jn pn plan.refBar then marksOn marks plan.refBar else []

/-- The one bar's part of a measurement. -/
def Dev.oneBar (d : Dev) (p jn pn frame : Nat) (plan : BrimPlan) (marks : List GapBar) (bar : Nat) : Dev :=
  d.gapBar p jn pn frame plan (d.refMarks jn pn plan marks) (marksOn marks bar) bar

theorem measureGap_oneBar {d : Dev} {p jn pn frame : Nat} {plan : BrimPlan} {marks : List GapBar} {bar : Nat} {r : StartReport} {b : CamBuf}
    (hone : (d.bars.map (·.bar)).filter (fun k => (d.reportOf jn pn k).isSome) = [bar]) (h : d.GapSeen p jn pn frame plan bar r b) :
    (d.oneBar p jn pn frame plan marks bar).ChecksStand (d.measureGap p jn pn frame plan marks) ∧
      (d.oneBar p jn pn frame plan marks bar).OffsetsStand (d.measureGap p jn pn frame plan marks) := by
  have hbars : d.forEach (d.bars.map (·.bar)) (fun e k => e.gapBar p jn pn frame plan (d.refMarks jn pn plan marks) (marksOn marks k) k) =
      d.oneBar p jn pn frame plan marks bar :=
    forEach_reported d.loops.reports _ (fun _ _ hk => gapBar_unreported hk) _ bar d rfl (gapBar_reports h) hone
  have hgap : d.measureGap p jn pn frame plan marks =
      (d.oneBar p jn pn frame plan marks bar).endGap jn pn (d.oneBar p jn pn frame plan marks bar).pipes := by
    rw [← hbars]
    rfl
  rw [hgap]
  exact ⟨endGap_checksStand _ _ _ _, endGap_offsetsStand _ _ _ _⟩

/-! ### GAP_MEASUREMENT -/

theorem gapMeasurement_unmeasured {p : Port} {jn pn frame : U32} {marks : List GapBar} {s : State}
    (h : (s.dev.numberOf jn.toNat pn.toNat).bind id = none) : Gives (.gapMeasurement p jn pn frame marks) s fun t => t = s := by
  refine gives_fn (show exec (.gapMeasurement p jn pn frame marks) s = execGapMeasurement p jn pn frame marks s from rfl) (g := s.dev) ?_ rfl
  split
  · next hn => rw [hn] at h; cases h
  · rfl

/-- With the report of one bar, a measurement is that bar's part and the end of the gap. -/
theorem gapMeasurement_gives {p : Port} {jn pn frame : U32} {marks : List GapBar} {bar c : Nat} {plan : BrimPlan} {r : StartReport} {b : CamBuf}
    {s : State} {P : State → Prop} (hplan : s.dev.plan = some plan) (hruns : s.dev.runs .vs = true)
    (hnum : s.dev.numberOf jn.toNat pn.toNat = some (some c))
    (hone : (s.dev.bars.map (·.bar)).filter (fun k => (s.dev.reportOf jn.toNat pn.toNat k).isSome) = [bar])
    (h : s.dev.GapSeen p jn.toNat pn.toNat frame.toNat plan bar r b)
    (hP : ∀ e : Dev, (s.dev.oneBar p jn.toNat pn.toNat frame.toNat plan marks bar).ChecksStand e →
      (s.dev.oneBar p jn.toNat pn.toNat frame.toNat plan marks bar).OffsetsStand e → P { s with dev := e }) :
    Gives (.gapMeasurement p jn pn frame marks) s P := by
  obtain ⟨hchecks, hoffsets⟩ := measureGap_oneBar (marks := marks) hone h
  refine gives_fn (show exec (.gapMeasurement p jn pn frame marks) s = execGapMeasurement p jn pn frame marks s from rfl) ?_ (hP _ hchecks hoffsets)
  rw [hplan, hnum]
  exact if_pos hruns

section
variable {d : Dev} {p jn pn frame : Nat} {plan : BrimPlan} {marks : List GapBar} {bar : Nat} {r : StartReport} {b : CamBuf}

theorem oneBar_oneHead {h : Nat} (hg : d.GapSeen p jn pn frame plan bar r b) (hok : (d.gapFit p plan r b).ok = true)
    (hen : d.flag .VL_CTL_NZEN = true) (hne : d.measureDashes p plan r b ≠ []) (hhead : ∀ x ∈ d.measureDashes p plan r b, dashSlot x = h) :
    (d.checkHead (d.gapFit p plan r b) h (d.measureDashes p plan r b)).ChecksStand (d.oneBar p jn pn frame plan marks bar) :=
  (measureStripe_oneHead hen hok hne hhead).trans (gapBar_checksStand hg)

theorem oneBar_offsets {e dw : Int} (hg : d.GapSeen p jn pn frame plan bar r b) (hok : (d.gapFit p plan r b).ok = true)
    (hmarks : d.marksUsed p jn frame plan bar)
    (hofs : offsets plan (d.gapFit p plan r b) bar (marksOn marks bar) (d.refMarks jn pn plan marks) = some (e, dw)) :
    ((d.oneBar p jn pn frame plan marks bar).barLoop bar).e = ((d.barLoop bar).take e dw r.act (d.gapTrim jn pn bar)).e ∧
      ((d.oneBar p jn pn frame plan marks bar).barLoop bar).d = ((d.barLoop bar).take e dw r.act (d.gapTrim jn pn bar)).d := by
  have hbar : (d.stripeDone p bar plan r b).barLoop bar = d.barLoop bar := measureStripe_barLoop _ _ _ _ _ _
  unfold Dev.oneBar
  rw [gapBar_registers hg hok hmarks hofs, (registerLoop_plans _ _ _ _ _ _).across, (registerLoop_plans _ _ _ _ _ _).down, updBar_same, hbar]
  exact ⟨rfl, rfl⟩

end

/-! ### HANDOVER_STEP (R259) -/

theorem axTarget_shows (d : Dev) (a : Nat) (x : Int) (fromPc : Bool) : (d.axTarget a x fromPc).rd .AX_TGT_POS a = unsign 32 x := by
  have hwritten : (d.wr .AX_TGT_POS (unsign 32 x) a).rd .AX_TGT_POS a = unsign 32 x := rd_wr_self _ _ _ _ _ (BitVec.isLt _)
  unfold Dev.axTarget
  dsimp only
  split
  · exact ((Dev.axRun_only _ _ _).rd _ _ _ rfl).trans hwritten
  · exact hwritten

theorem handStep_begins {d : Dev} {bar : Nat} {st : HandStep} {rest : List HandStep} {a jn pn line : Nat} (hsteps : (d.barLoop bar).steps = st :: rest)
    (haxis : d.axisOf bar = some a) (hprod : st.prod = some (jn, pn, line)) (hrest : st.moving = false) (haccepts : d.axAccepts a false = true)
    (hmay : d.mayMove bar jn line = true) : d.handStep bar =
      ((d.updBar bar (fun l => { l with steps := { st with moving := true } :: rest, discard := l.discard ++ [(jn, pn - 1)] })).axTarget a
        (d.stepTarget a st.target) false).raise Ev.REG_STEP (le 1 bar ++ le 2 (unsign 16 st.s) ++ le 4 pn) := by
  unfold Dev.handStep
  rw [hsteps, haxis]
  dsimp only
  rw [hprod]
  dsimp only
  rw [if_neg (by rw [hrest, haccepts, hmay]; decide)]
  rfl

theorem handoverStep_gives {bar : Pipe} {s : State} {st : HandStep} {rest : List HandStep} {a jn pn line : Nat}
    (hsteps : (s.dev.barLoop bar).steps = st :: rest) (haxis : s.dev.axisOf bar = some a) (hprod : st.prod = some (jn, pn, line))
    (hrest : st.moving = false) (haccepts : s.dev.axAccepts a false = true) (hmay : s.dev.mayMove bar jn line = true) :
    Gives (.handoverStep bar) s fun t =>
      (t.dev.barLoop bar).steps = { st with moving := true } :: rest ∧ (t.dev.barLoop bar).discard = (s.dev.barLoop bar).discard ++ [(jn, pn - 1)] ∧
      t.dev.rd .AX_TGT_POS a = unsign 32 (s.dev.stepTarget a st.target) ∧ t.dev.evPending Ev.REG_STEP := by
  refine gives_fn (show exec (.handoverStep bar) s = execHandoverStep bar s from rfl)
    (handStep_begins hsteps haxis hprod hrest haccepts hmay) ?_
  dsimp only
  generalize hd : s.dev.updBar bar _ = d
  have hbar : d.barLoop bar = { s.dev.barLoop bar with
      steps := { st with moving := true } :: rest, discard := (s.dev.barLoop bar).discard ++ [(jn, pn - 1)] } := by
    rw [← hd, updBar_same]
  have hkept (ev : EvCode) (x : Int) (bs : List Byte) : ((d.axTarget a x false).raise ev bs).barLoop bar = d.barLoop bar :=
    congrArg (fun l : Loops => Tab.at l.bars bar) (((Dev.raise_only _ ev bs).parts .loops rfl).trans ((Dev.axTarget_only d a x false).parts .loops rfl))
  rw [hkept, hbar]
  exact ⟨rfl, rfl, (Dev.raise_rd _ _ _ _ _ _ (by decide) (by decide)).trans (axTarget_shows _ _ _ _), Dev.raise_pending _ _ _ (by decide)⟩

/-- Settles O41: a gap that is not measured; the stripe of one head, suspect or checked; the marks of the bar; and the hand-over step. -/
theorem nozzleAndRegisterLoops : Obligations.NozzleAndRegisterLoops := by
  unfold Obligations.NozzleAndRegisterLoops
  refine ⟨fun p jn pn frame marks s => gapMeasurement_unmeasured, ?_, fun bar s st rest a jn pn line => handoverStep_gives⟩
  intro p jn pn frame marks bar c plan r b s hplan hruns hnum hone hreport hbuffer hgood xs f hok
  have hseen : s.dev.GapSeen p jn.toNat pn.toNat frame.toNat plan bar r b := ⟨hreport, hbuffer, hgood⟩
  refine ⟨fun h hen hne hhead => ?_, fun e dw hmarks hreg hfit hofs => ?_⟩
  · have hchecked := oneBar_oneHead (marks := marks) hseen hok hen hne hhead
    refine ⟨fun habsent => ?_, fun habsent hnodup => ?_⟩
    · obtain ⟨hpending, hsame⟩ := checkHead_suspect (f := f) habsent
      refine gapMeasurement_gives hplan hruns hnum hone hseen fun t ht _ => ?_
      have hstands := hsame.trans (hchecked.trans ht).nozzles
      exact ⟨(hchecked.trans ht).pending _ (by decide) hpending, hstands.2.2, hstands.nz⟩
    · obtain ⟨hdref, hrods⟩ := checkHead_good (f := f) habsent hnodup
      refine gapMeasurement_gives hplan hruns hnum hone hseen fun t ht _ => ?_
      have hstands := (hchecked.trans ht).nozzles
      refine ⟨(congrArg (Tab.at · h) hstands.2.2).trans hdref, fun x hx => ?_⟩
      dsimp only
      rw [hstands.nz]
      exact hrods x hx
  · obtain ⟨hacross, hdown⟩ := oneBar_offsets hseen hok ⟨hreg, hmarks, hfit⟩ hofs
    exact gapMeasurement_gives hplan hruns hnum hone hseen fun t _ ht => ⟨(ht.across bar).trans hacross, (ht.down bar).trans hdown⟩

end Sys2Proof.Machine

/-! Frames of the boot before the engines, the supply and the requests, and of the memory, the timebase, PTP, the ring and register
accesses, read off the masks that `exec_only` gives each command. -/
namespace Sys2Proof.Machine
-- The masks of register fields evaluate as powers of two up to the last field's number.
set_option exponentiation.threshold 600

/-- Settles O54: each clause's lists cover the masks of its command. -/
theorem framesOfPowerAndRequests : Obligations.FramesOfPowerAndRequests := by
  unfold Obligations.FramesOfPowerAndRequests
  and_intros <;> intros <;> rename_i h
  all_goals exact exec_unchanged h (by simp only [cmdParts]; rfl) (by simp only [cmdFields]; rfl)

/-- Settles O60: each clause's lists cover the masks of its command. -/
theorem framesOfMemoryTimeAndRing : Obligations.FramesOfMemoryTimeAndRing := by
  unfold Obligations.FramesOfMemoryTimeAndRing
  and_intros <;> intros <;> rename_i h
  all_goals exact exec_unchanged h (by simp only [cmdParts]; rfl) (by simp only [cmdFields]; rfl)

end Sys2Proof.Machine

/-! The canonical forms (17, R398; 13, R307; 16, R374): every step keeps them, because each operation keeps the forms of what it may
change (`Dev.Only`, `State.Only`). -/
namespace Sys2Proof.Machine

/-- What may change within the masks of an operation keeps the forms. -/
theorem State.Only.inv {c r : Nat} {s t : State} (h : State.Only c r s t) (hs : Inv s) : Inv t := by
  obtain ⟨hregs, hnor, hdram⟩ := hs
  obtain ⟨hregs', hnor'⟩ := h.dev.ok ⟨hregs, hnor⟩
  exact ⟨hregs', hnor', h.dramOk hdram⟩

/-- Settles O5: a step is a command of the queue or a tick, and both change the state within masks. -/
theorem stepKeepsForms : Obligations.StepKeepsForms := by
  unfold Obligations.StepKeepsForms
  intro s t hs h
  unfold step at h
  split at h
  · exact (exec_only _ _ _ h).inv hs
  · cases next_inj h
    exact (State.tick_only s).inv hs

end Sys2Proof.Machine

/-! The states that only the supply leaves (12, R304; 18, R407). -/
namespace Sys2Proof.Machine

/-- The disconnection and the reset at 9.8 V leave the module in OFF (R303, R408). -/
theorem railsOff_st (s : State) : s.railsOff.dev.st = .off := by
  unfold State.railsOff
  split
  · assumption
  · exact wr_st _ _

theorem powerOnReset_off (s : State) : Gives .powerOnReset s fun t => t.dev.st = .off :=
  gives_next rfl (wr_st _ _)

theorem inputReset9v8_off (s : State) : Gives .inputReset9v8 s fun t => t.dev.st = .off :=
  gives_next rfl (railsOff_st _)

theorem overvoltageDisconnect_off (s : State) : Gives .overvoltageDisconnect s fun t => t.dev.st = .off :=
  gives_next rfl (railsOff_st _)

/-- Settles O7: in OFF no command but POWER_GOOD writes the state (`frozen_kst`). -/
theorem onlyPowerGoodLeavesOff : Obligations.OnlyPowerGoodLeavesOff := by
  unfold Obligations.OnlyPowerGoodLeavesOff
  refine ⟨fun c s t hoff hc h => ?_, fun s hoff => ?_, inputReset9v8_off⟩
  · exact (frozen_kst c s t (.inl hoff) hc (fun hshut => absurd (hoff.symm.trans hshut) (by decide)) h).trans hoff
  · refine gives_fn (g := s.dev.wr .AON_STATE_STATE DState.boot.code) rfl (if_pos hoff) (wr_st _ _)

/-- Settles O8: in SHUTDOWN no command but those that remove the input writes the state (`frozen_kst`). -/
theorem onlySupplyLeavesShutdown : Obligations.OnlySupplyLeavesShutdown := by
  unfold Obligations.OnlySupplyLeavesShutdown
  refine ⟨fun c s t hshut hpor hreset hover h => ?_, fun s _ => ⟨powerOnReset_off s, inputReset9v8_off s, overvoltageDisconnect_off s⟩⟩
  by_cases hc : c = .powerGood
  · subst hc
    have hkeep : s.dev.st ≠ .off := by rw [hshut]; decide
    cases next_inj h
    dsimp only
    rwa [if_neg hkeep]
  · exact (frozen_kst c s t (.inr hshut) hc (fun _ => ⟨hpor, hreset, hover⟩) h).trans hshut

end Sys2Proof.Machine

/-! DRAM under the commands that store nothing, under those that may lose it, and under the steps of the boot (13, R307; 16, R371, R381,
R382). -/
namespace Sys2Proof.Machine
set_option exponentiation.threshold 600

/-- The masks of the commands that store nothing leave DRAM out. -/
theorem storesNothing_dram (c : Instr) : (!storesNothing c || !(cmdParts c).testBit Part.dram.ctorIdx) = true := by
  cases c <;> simp only [cmdParts] <;> rfl

theorem storesNothing_keeps {c : Instr} {s t : State} (hc : storesNothing c = true) (h : exec c s = .next t) : t.dram = s.dram :=
  (exec_only c s t h).dram (by simpa [hc] using storesNothing_dram c)

/-! ### Resets, restarts and the end of an evaluation period -/

theorem debugReset_dkl {s t : State} (h : exec .debugReset s = .next t) : DramKeptOrLost s t := by
  cases next_inj h
  split
  · exact .inr (mr_dram _ _ _)
  · exact .inl rfl

theorem crRestart_dkl {lvl : Lvl} {s t : State} (h : exec (.crRestart lvl) s = .next t) : DramKeptOrLost s t := by
  cases next_inj h
  split
  · exact restartWrite_dram s
  · exact .inl rfl

theorem contentCheck_dkl (s : State) : DramKeptOrLost s s.contentCheck := by
  unfold State.contentCheck
  dsimp only
  split
  · exact .inl rfl
  · split
    · exact .inl rfl
    · split
      · exact .inr (mr_dram _ _ _)
      · exact .inl rfl

theorem execContentCheck_dkl {s t : State} (h : exec .contentCheck s = .next t) : DramKeptOrLost s t := by
  cases next_inj h
  split
  · exact contentCheck_dkl s
  · exact .inl rfl

theorem shutdownPowerDown_dkl {s t : State} (h : exec .shutdownPowerDown s = .next t) : DramKeptOrLost s t := by
  change execShutdownPowerDown s = .next t at h
  unfold execShutdownPowerDown at h
  split at h
  · cases next_inj h
    exact .inr rfl
  · cases next_inj h
    exact .inl rfl

theorem evaluationPeriodEnd_dkl {b : Bool} {reqs : List XppIn} {s t : State} (h : exec (.evaluationPeriodEnd b reqs) s = .next t) :
    DramKeptOrLost s t := by
  cases next_inj h
  split
  · exact .inl rfl
  · exact window_dkl s reqs

/-! ### Steps of the boot -/

/-- The first pass leaves the NOR, from which the entries come. -/
theorem firstPass_regsOf (d : Dev) (img n : Nat) : ((d.firstPass.2.wr .CR_STAT_IMG n).powerEarly.stepTo .firstPass).regsOf img = d.regsOf img :=
  regsOf_nor (((Dev.stepTo_only (d.firstPass.2.wr .CR_STAT_IMG n).powerEarly _).parts .nor rfl).trans
    (((Dev.powerEarly_only (d.firstPass.2.wr .CR_STAT_IMG n)).parts .nor rfl).trans ((Dev.firstPass_only d).parts .nor rfl))) img

theorem crownFirstPass_dram {primary backup : CrownContent} {s t : State}
    (hq : ∀ img, Quiet ((s.dev.regsOf img).filter early ++ (if img = 0 then primary else backup).net))
    (h : exec (.crownFirstPass primary backup) s = .next t) : t.dram = s.dram := by
  cases next_inj h
  split
  · unfold State.crownFirstPass
    dsimp only
    split
    · rfl
    · refine firstPassOk_dram _ _ _ ?_
      dsimp only
      rw [firstPass_regsOf]
      exact hq _
  · rfl

theorem engineRelease_dram {c : CrownContent} {s t : State} (hc : s.dev.boot.content = some c)
    (hq : Quiet ((s.dev.regsOf (s.dev.rd .CR_STAT_IMG)).filter later ++ c.ring)) (h : exec .engineRelease s = .next t) :
    t.dram = s.dram := by
  cases next_inj h
  split
  · unfold State.engineRelease
    rw [hc]
    exact ((State.afterRelease_only _).dram rfl).trans (applyRegs_dram _ _ hq)
  · rfl

theorem bootComplete_dram {c : CrownContent} {s t : State} (hc : s.dev.boot.content = some c)
    (hq : Quiet (c.cams.flatMap (fun x => x.2) ++ c.axes ++ c.abacus)) (h : exec .bootComplete s = .next t) : t.dram = s.dram := by
  cases next_inj h
  split
  · unfold State.bootComplete
    rw [hc]
    exact ((State.afterBoot_only _).dram rfl).trans (applyRegs_dram _ _ hq)
  · rfl

/-! ### The master copy of the rods -/

/-- The bytes of the master copy of the heads' rods (04, R106). -/
def Dev.inMasterOf (d : Dev) (heads : List HeadCfg) (k : Nat) : Prop :=
  ∃ i h, i < 16 ∧ h ∈ heads ∧ InBytes (d.rodAddr i (4096 * h.slot)) 16384 k

/-- The master copy stands where `DP_RODM` and `DP_GEOM` say. -/
theorem inMasterOf_of_only {c r : Nat} {d e : Dev} (h : Dev.Only c r d e) (h1 : r.testBit (Fld.ctorIdx .DP_RODM_ADDR) = false)
    (h2 : r.testBit (Fld.ctorIdx .DP_GEOM_SLOT0) = false) (heads : List HeadCfg) : e.inMasterOf heads = d.inMasterOf heads := by
  unfold Dev.inMasterOf Dev.rodAddr
  simp only [h.rd _ _ _ h1, h.rd _ _ _ h2]

theorem builtRods_bytes (d : Dev) (h : HeadCfg) : ((d.builtRods h).flatMap (le 4)).length = 16384 := by
  rw [flatLe]
  simp [Dev.builtRods]

/-- A slot's rods go to its place in the master copy of the pipeline that serves it. -/
theorem storeBuilt_keeps (s : State) (h : HeadCfg) : KeepsOutside (s.dev.inMasterOf [h]) s (s.storeBuilt h.slot) := by
  unfold State.storeBuilt
  split
  · next x i _ hi =>
    have hw := dramWrite_keeps s (s.dev.rodAddr i (4096 * h.slot)) ((s.dev.builtRods x).flatMap (le 4)) false
    rw [builtRods_bytes] at hw
    exact hw.mono fun k hk => ⟨i, h, List.mem_range.mp (List.mem_of_find?_eq_some hi), List.mem_cons_self .., hk⟩
  · exact .refl _ _ _ rfl

theorem storeBuilt_fold_keeps (heads : List HeadCfg) : ∀ s : State,
    KeepsOutside (s.dev.inMasterOf heads) s (heads.foldl (fun s h => s.storeBuilt h.slot) s) := by
  induction heads with
  | nil => exact fun s => .refl _ _ _ rfl
  | cons h hs ih =>
    intro s
    rw [List.foldl_cons]
    refine ((storeBuilt_keeps s h).mono ?_).trans ((ih _).mono ?_)
    · rintro k ⟨i, x, hi, hx, hk⟩
      exact ⟨i, x, hi, List.mem_cons.mpr (.inl (List.mem_singleton.mp hx)), hk⟩
    · rw [inMasterOf_of_only (State.storeBuilt_only s h.slot).dev rfl rfl]
      rintro k ⟨i, x, hi, hx, hk⟩
      exact ⟨i, x, hi, List.mem_cons_of_mem _ hx, hk⟩

/-- The rods are built in the block, then stored; the entries for `DP_CFG` and the step itself store nothing. -/
theorem rodBuild_keeps {c : CrownContent} {s t : State} (hc : s.dev.boot.content = some c)
    (hq : Quiet ((s.dev.regsOf (s.dev.rd .CR_STAT_IMG)).filter forDpCfg)) (h : exec .rodBuild s = .next t) :
    KeepsOutside (s.dev.inMasterOf c.heads) s t := by
  cases next_inj h
  split
  · unfold State.rodBuild
    dsimp only
    rw [hc]
    dsimp only [Option.map_some, Option.getD_some]
    have hbuilt := forEach_only c.heads s.dev (fun d (h : HeadCfg) => d.buildRods h.slot) fun d h => Dev.buildRods_only d h.slot
    generalize Dev.forEach _ _ _ = d at hbuilt ⊢
    have hkeeps := storeBuilt_fold_keeps c.heads { s with dev := d }
    have hstored : State.Only 0x40000000000 (fieldsMask rmwFields) { s with dev := d } (c.heads.foldl (fun s h => s.storeBuilt h.slot) { s with dev := d }) :=
      State.Only.foldl _ (fun u h hu => hu.trans ((State.storeBuilt_only u h.slot).mono rfl rfl)) (.refl _ _ _)
    generalize List.foldl _ _ _ = u at hkeeps hstored ⊢
    have hregs : u.dev.regsOf (u.dev.rd .CR_STAT_IMG) = s.dev.regsOf (s.dev.rd .CR_STAT_IMG) := by
      rw [(hstored.dev.rd .CR_STAT_IMG 0 0 rfl).trans (hbuilt.rd .CR_STAT_IMG 0 0 rfl)]
      exact regsOf_nor ((hstored.dev.parts .nor rfl).trans (hbuilt.parts .nor rfl)) _
    have hdram : (u.applyRegs ((u.dev.regsOf (u.dev.rd .CR_STAT_IMG)).filter forDpCfg)).afterRods.dram = u.dram :=
      ((State.afterRods_only _).dram rfl).trans (applyRegs_dram _ _ (hregs ▸ hq))
    have hplace := inMasterOf_of_only hbuilt rfl rfl c.heads
    intro a ha
    rw [hdram]
    exact hkeeps a (by rwa [hplace])
  · exact .refl _ _ _ rfl

/-- Settles O53: the commands that store nothing by their masks, the others one lemma each. -/
theorem otherCommandsKeepMemory : Obligations.OtherCommandsKeepMemory := by
  unfold Obligations.OtherCommandsKeepMemory
  refine ⟨fun c s t hc h => storesNothing_keeps hc h, fun x lvl b reqs c s t hc h => ?_, fun primary backup s t hq h => crownFirstPass_dram hq h,
    fun c s t hc => ⟨fun hq h => engineRelease_dram hc hq h, fun hq h => rodBuild_keeps hc hq h, fun hq h => bootComplete_dram hc hq h⟩⟩
  simp only [List.mem_cons, List.not_mem_nil, or_false] at hc
  rcases hc with rfl | rfl | rfl | rfl | rfl | rfl | rfl | rfl | rfl
  · cases next_inj h
    exact .inr rfl
  · cases next_inj h
    exact railsOff_dkl _
  · cases next_inj h
    exact railsOff_dkl s
  · exact debugReset_dkl h
  · exact crRestart_dkl h
  · cases next_inj h
    exact request_dkl s _
  · exact execContentCheck_dkl h
  · exact shutdownPowerDown_dkl h
  · exact evaluationPeriodEnd_dkl h

end Sys2Proof.Machine

/-! The state after reset (17, R401; 16, R371) and the tick on an empty queue (assumption 2; 15, R347). -/
namespace Sys2Proof.Machine

/-- Settles O3: every register reads its Reset column, so no event bit is set; nothing else is listed. -/
theorem resetState : Obligations.ResetState := by
  unfold Obligations.ResetState
  refine ⟨rd_reset, rfl, rfl, rfl, fun e => ?_, fun a n => memReadAll_nil n a, rfl, rfl, rfl⟩
  change ¬ bitOf 0 e.sub = true
  rw [bitOf_zero]
  decide

/-- Settles O4: tables that list nothing are in their canonical forms. -/
theorem resetForms : Obligations.ResetForms := by
  unfold Obligations.ResetForms
  exact ⟨⟨rfl, fun x hx => absurd hx List.not_mem_nil⟩, rfl, Dram.ok_empty⟩

/-! ### One tick -/

theorem slewTick_still {d : Dev} (h : d.tb.slewing = false) : d.slewTick = d := if_pos (by rw [h]; rfl)

/-- Both counters advance and wrap, and nothing else does, while no slew is in progress (R347). -/
theorem timeTick_still {d : Dev} (h : d.tb.slewing = false) :
    d.timeTick = { d with tb := { d.tb with
      main := (d.tb.main + d.mainInc) % (2 ^ 48 * 1000000000 * 2 ^ 32), fb := (d.tb.fb + d.fbInc) % 2 ^ 96 } } :=
  slewTick_still h

/-- What closes at the end of a tick leaves the timebase. -/
theorem stateTick_tb (s : State) : s.tick.dev.tb = (if s.dev.domOn .net then s.dev.timeTick else s.dev).tb :=
  calc s.tick.dev.tb = s.dev.tickEnd.tb := (State.closeFull_only _).dev.parts .tb rfl
    _ = s.dev.tick.closeDue.tb := (Dev.closeJobs_only _).parts .tb rfl
    _ = s.dev.tick.tb := (Dev.closeDue_only _).parts .tb rfl
    _ = _ := (Dev.linkTick_only _).parts .tb rfl

theorem tick_still_only {d : Dev} (h : d.tb.slewing = false) : Dev.Only (partsMask [.tb, .lc]) 0 d d.tick := by
  have htime : Dev.Only (partsMask [.tb, .lc]) 0 d (if d.domOn .net then d.timeTick else d) := by
    split
    · rw [timeTick_still h]
      exact .with_tb _ rfl (.refl _ _ d)
    · exact .refl _ _ d
  exact (Dev.linkTick_only _).step rfl rfl htime

/-- With no product and no job held and no full buffer the tick of the time is all of it. -/
theorem stateTick_idle {s : State} (hprods : s.dev.tick.integ.prods = []) (hjobs : s.dev.tick.jobs = [])
    (hevr : s.dev.tick.evr.isFull = false) (hspr : s.dev.tick.integ.spr.isFull = false) : s.tick = { s with dev := s.dev.tick } := by
  have hdue : s.dev.tick.closeDue = s.dev.tick := by
    unfold Dev.closeDue
    rw [hprods]
    rfl
  have hend : s.dev.tickEnd = s.dev.tick := by
    unfold Dev.tickEnd Dev.closeJobs
    rw [hdue, hjobs]
    rfl
  unfold State.tick State.closeFull
  simp [hend, hevr, hspr]

/-- Settles O2: a step on an empty queue is the tick. -/
theorem emptyQueueTicks : Obligations.EmptyQueueTicks := by
  unfold Obligations.EmptyQueueTicks
  intro s hempty hslew
  have hstep : step s = .next s.tick := by
    unfold step
    rw [hempty]
  have hpending : s.tick.pending = [] := (State.tick_only s).pending.trans hempty
  refine ⟨s.tick, hstep, hpending, fun hnet => ?_, fun hnet => ?_, fun hprods hjobs hevr hspr => ?_⟩
  · rw [stateTick_tb, if_pos hnet, timeTick_still hslew]
    exact ⟨rfl, rfl⟩
  · rw [stateTick_tb, if_neg (by rw [hnet]; decide)]
  · have honly := tick_still_only hslew
    have hinteg : s.dev.tick.integ = s.dev.integ := honly.parts .integ rfl
    have htick := stateTick_idle (s := s) (by rw [hinteg, hprods]) ((honly.parts .jobs rfl).trans hjobs)
      ((congrArg (·.isFull) (honly.parts .evr rfl)).trans hevr) (by rw [hinteg, hspr])
    rw [htick]
    exact (State.Only.mkDev honly (.refl _ _ s)).unchanged rfl rfl

end Sys2Proof.Machine

/-! Bar axes, axis ports and traces: what the axis commands and the samples do (O42, O43). -/
namespace Sys2Proof.Machine
set_option exponentiation.threshold 600

/-! ### Facts about one axis -/

/-- A command that leaves the device leaves the state. -/
theorem State.with_same {s : State} {d : Dev} (h : d = s.dev) : { s with dev := d } = s := by rw [h]

theorem axIs_false {d : Dev} {a : Nat} {x y : AxState} (h : d.axIs a x = true) (hne : x.code ≠ y.code) : d.axIs a y = false := by
  unfold Dev.axIs; rw [axIs_code h]; exact decide_eq_false hne

theorem fault_not_homing {d : Dev} {a : Nat} (h : d.homing a = true) : d.axIs a .fault = false := by
  cases hf : d.axIs a .fault
  · rfl
  · unfold Dev.homing at h
    rw [axIs_false hf (by decide), axIs_false hf (by decide), axIs_false hf (by decide), axIs_false hf (by decide)] at h
    cases h

theorem kin_of {c r : Nat} {d e : Dev} (h : Dev.Only c r d e) (hr : r.testBit (Fld.ctorIdx .AX_KIN_LIM) = false) (a : Nat) : e.kin a = d.kin a := by
  unfold Dev.kin; rw [h.rd _ _ _ hr, h.rd _ _ _ hr, h.rd _ _ _ hr, h.rd _ _ _ hr]

theorem not_barred {d : Dev} {a : Nat} (hhigh : d.latched a true = false) (hlow : d.latched a false = false) (up : Bool) : d.barred a up = false := by
  unfold Dev.barred; cases up
  · rw [hlow]; rfl
  · rw [hhigh]; rfl

/-! ### Homing and the axis commands -/

theorem axHome_state {d : Dev} {a : Nat} (h : d.mayHome a = true) :
    (d.axHome a).axIs a (if (d.ax a).homeIn then .backoff else .seek) = true := by
  unfold Dev.axHome
  dsimp only
  rw [h, updAx_ax]
  cases hin : (d.ax a).homeIn
  · exact (homeMove_is _ _ _ _ _).trans (axTo_is _ _ _)
  · exact toBackoff_is _ _

theorem axHome_refused {d : Dev} {a : Nat} (h : d.mayHome a = false) : d.axHome a = d := by
  unfold Dev.axHome; rw [h]; rfl

theorem axStop_homing {d : Dev} {a : Nat} (hon : d.axOn a = true) (h : d.homing a = true) : d.axStop a = d.homeAbort a .stop := by
  unfold Dev.axStop
  rw [if_neg (by rw [hon, fault_not_homing h]; decide), if_pos h]

theorem axStop_moving {d : Dev} {a : Nat} (hon : d.axOn a = true) (hf : d.axIs a .fault = false) (h : d.homing a = false)
    (hrun : (d.ax a).prof.run ≠ .maxStop) : d.axStop a = d.updProf a (·.planStop (d.kin a)) := by
  unfold Dev.axStop
  rw [if_neg (by rw [hon, hf]; decide), if_neg (by rw [h]; decide), if_neg hrun]

theorem axFclr_unhomed {d : Dev} {a : Nat} (h : d.axIs a .fault = true) : (d.axFclr a).axIs a .unhomed = true := by
  unfold Dev.axFclr; rw [h]; exact axTo_is d a .unhomed

/-! ### The home switch -/

/-- HOME shows its level; the axis stays in its state until the level is acted on. -/
def Dev.homeShown (d : Dev) (a : Nat) (b : Bool) : Dev := (d.updAx a (fun x => { x with homeIn := b })).wr .AX_STAT_HOMESW (bit b) a

theorem homeShown_is (d : Dev) (a : Nat) (b : Bool) (x : AxState) : (d.homeShown a b).axIs a x = d.axIs a x :=
  axIs_rd a x (by unfold Dev.homeShown; rw [Dev.rd_wr, if_neg (by simp)]; rfl)

theorem homeShown_homesw (d : Dev) (a : Nat) (b : Bool) : (d.homeShown a b).rd .AX_STAT_HOMESW a = bit b := rd_wr_self _ _ _ _ _ (bit_lt b)

theorem homeActive_seek {d : Dev} {a : Nat} (h : d.axIs a .seek = true) :
    (d.homeActive a).axIs a .backoff = true ∧ (d.homeActive a).rd .AX_STAT_HOMESW a = 1 := by
  have heq : d.homeActive a = (d.homeShown a true).toBackoff a := if_pos ((homeShown_is d a true .seek).trans h)
  rw [heq]
  exact ⟨toBackoff_is _ _, ((Dev.toBackoff_only _ _).rd _ _ _ (by decide)).trans (homeShown_homesw d a true)⟩

theorem homeActive_latch {d : Dev} {a : Nat} (h : d.axIs a .latch = true) (hfb : d.rd .AX_CFG_FB a ≠ 2) :
    d.homeActive a = (d.homeShown a true).homeEdge a := by
  have hseek : (d.homeShown a true).axIs a .seek = false := (homeShown_is d a true .seek).trans (axIs_false h (by decide))
  have hlatch : (d.homeShown a true).axIs a .latch = true := (homeShown_is d a true .latch).trans h
  have hfb' : (d.homeShown a true).rd .AX_CFG_FB a ≠ 2 := by
    unfold Dev.homeShown; rw [Dev.rd_wr, if_neg (by simp)]; exact hfb
  change (if (d.homeShown a true).axIs a .seek = true then _ else if (d.homeShown a true).axIs a .latch = true then _ else _ : Dev) = _
  rw [hseek, hlatch]
  exact if_neg hfb'

theorem homeInactive_backoff {d : Dev} {a : Nat} (h : d.axIs a .backoff = true) :
    (d.homeInactive a).axIs a .latch = true ∧ (d.homeInactive a).rd .AX_STAT_HOMESW a = 0 := by
  have heq : d.homeInactive a = (((d.homeShown a false).updAx a (fun x => { x with edge := false })).axTo a .latch).homeMove a
      ((((d.homeShown a false).updAx a (fun x => { x with edge := false })).axTo a .latch).hdir a)
      ((((d.homeShown a false).updAx a (fun x => { x with edge := false })).axTo a .latch).rd .AX_HOMECFG_VLATCH a * 16) :=
    if_pos ((homeShown_is d a false .backoff).trans h)
  rw [heq]
  refine ⟨(homeMove_is _ _ _ _ _).trans (axTo_is _ _ _), ((Dev.homeMove_only _ _ _ _).rd _ _ _ (by decide)).trans ?_⟩
  exact ((Dev.axTo_only _ _ _).rd _ _ _ (by decide)).trans (homeShown_homesw d a false)

theorem homeIndex_latch {d : Dev} {a : Nat} (h : d.axIs a .latch = true) (hfb : d.rd .AX_CFG_FB a = 2) (hedge : (d.ax a).edge = true) :
    d.homeIndex a = d.homeEdge a := by
  unfold Dev.homeIndex; rw [h, hfb, hedge]; rfl

theorem homeInputChange_gives {a : AxisNo} {s : State} {edge : HomeEdge} {p : State → Prop} (hon : s.dev.axOn a = true)
    (hp : p { s with dev := match edge with | .active => s.dev.homeActive a | .inactive => s.dev.homeInactive a | .index => s.dev.homeIndex a }) :
    Gives (.homeInputChange a edge) s p :=
  gives_fn (show exec (.homeInputChange a edge) s = execHomeInputChange a edge s from rfl) (fb_fn hon rfl) hp

/-! ### Timeouts, following errors and limits -/

theorem homeAbort_homeSince (d : Dev) (a : Nat) (c : AbortCause) : ((d.homeAbort a c).ax a).homeSince = none := by
  unfold Dev.homeAbort; dsimp only; rw [raise_ax, axTo_ax, updAx_ax]

theorem homingTimeout_gives {a : AxisNo} {s : State} {t₀ : Nat} (hon : s.dev.axOn a = true) (h : s.dev.homing a = true)
    (hsince : (s.dev.ax a).homeSince = some t₀) (hdue : t₀ + 1000000000 * s.dev.rd .AX_HOMECFG_HTO a ≤ s.dev.now) :
    Gives (.homingTimeout a) s fun t => t.dev.axIs a .unhomed = true ∧ (t.dev.ax a).homeSince = none ∧ t.dev.evPending Ev.AX_HOME_ABORT := by
  refine gives_fn (show exec (.homingTimeout a) s = execHomingTimeout a s from rfl) (g := s.dev.homeAbort a .timeout) ?_ ?_
  · dsimp only
    rw [if_pos (by rw [hon, h, hsince]; simpa using hdue)]
  · exact ⟨(homeAbort_is s.dev a .timeout).1, homeAbort_homeSince s.dev a .timeout, (homeAbort_is s.dev a .timeout).2⟩

theorem dropSteps_steps (d : Dev) (bar : Nat) : ((d.dropSteps bar).barLoop bar).steps = [] := by
  unfold Dev.dropSteps
  dsimp only
  have hempty : ((d.updBar bar (fun l => { l with steps := [] })).barLoop bar).steps = [] := by rw [updBar_same]
  split
  next h => exact h
  · split
    · split
      · rw [updBar_same]
        exact hempty
      · exact hempty
    · exact hempty

theorem axFault_holds {d : Dev} {a : Nat} (hon : d.axOn a = true) (hf : d.axIs a .fault = false) (h : d.homing a = false) (c : Nat) :
    d.axFault a c = (((d.updProf a Prof.freeze).axTo a .fault).dropSteps (d.axisBar a)).raise Ev.AX_FAULT (le 1 a ++ le 1 c) := by
  unfold Dev.axFault
  rw [if_neg (by rw [hon, hf]; decide), if_neg (by rw [h]; decide)]

theorem axFault_raises {d : Dev} {a : Nat} (hon : d.axOn a = true) (hf : d.axIs a .fault = false) (c : Nat) : (d.axFault a c).evPending Ev.AX_FAULT := by
  unfold Dev.axFault
  rw [if_neg (by rw [hon, hf]; decide)]
  exact Dev.raise_pending _ _ _ (by decide)

theorem axFault_homing {d : Dev} {a : Nat} (hon : d.axOn a = true) (h : d.homing a = true) (c : Nat) : (d.axFault a c).evPending Ev.AX_HOME_ABORT := by
  unfold Dev.axFault
  rw [if_neg (by rw [hon, fault_not_homing h]; decide), if_pos h]
  refine Dev.raise_pending_of _ _ _ _ (by decide) ?_
  exact (Dev.updAx_only _ _ _).evPending _ (Nat.zero_testBit _) (homeAbort_is d a .fault).2

theorem followingErrorFault_due {a : AxisNo} {s : State} {t₀ : Nat} {p : State → Prop} (hsince : (s.dev.ax a).feSince = some t₀)
    (hdue : t₀ + 1000000 * s.dev.rd .AX_PLAUS_FETIME a ≤ s.dev.now) (hp : p { s with dev := s.dev.axFault a 1 }) : Gives (.followingErrorFault a) s p := by
  refine gives_fn (show exec (.followingErrorFault a) s = execFollowingErrorFault a s from rfl) ?_ hp
  rw [if_pos (by rw [hsince]; simpa using hdue)]

theorem followingErrorFault_early {a : AxisNo} {s : State} {t₀ : Nat} (hsince : (s.dev.ax a).feSince = some t₀)
    (hnot : s.dev.now < t₀ + 1000000 * s.dev.rd .AX_PLAUS_FETIME a) : Gives (.followingErrorFault a) s fun t => t = s := by
  refine gives_fn (show exec (.followingErrorFault a) s = execFollowingErrorFault a s from rfl) (g := s.dev) ?_ rfl
  rw [if_neg (by rw [hsince]; simpa using hnot)]

/-- A limit that is not the home switch latches where it trips. -/
theorem limitTrip_latches {d : Dev} {a : Nat} {high : Bool} (hon : d.axOn a = true) (hhome : d.limIsHome a high = false) :
    d.limitTrip a high =
      if (d.setLatch a high (some (d.ax a).prof.p)).homing a then (d.setLatch a high (some (d.ax a).prof.p)).homeAbort a .limit
      else if ((d.setLatch a high (some (d.ax a).prof.p)).ax a).prof.toward high then
        ((d.setLatch a high (some (d.ax a).prof.p)).updProf a (·.planMaxStop ((d.setLatch a high (some (d.ax a).prof.p)).kin a))).raise Ev.AX_LIMIT
          (le 1 a ++ le 1 (bit high))
      else d.setLatch a high (some (d.ax a).prof.p) := by
  unfold Dev.limitTrip
  rw [if_neg (by rw [hon]; decide), if_neg (by rw [hhome, Bool.and_false]; decide)]
  simp only [hhome, Bool.false_eq_true, if_false]

theorem limitTrip_gives {a : AxisNo} {s : State} {high : Bool} (hon : s.dev.axOn a = true) (hhome : s.dev.limIsHome a high = false) :
    (s.dev.homing a = true → Gives (.limitTrip a high) s fun t => t.dev.latched a high = true ∧ t.dev.axIs a .unhomed = true ∧ t.dev.evPending Ev.AX_HOME_ABORT) ∧
    (s.dev.homing a = false → (s.dev.ax a).prof.toward high = true → Gives (.limitTrip a high) s fun t =>
      t.dev.latched a high = true ∧ (t.dev.ax a).prof = (s.dev.ax a).prof.planMaxStop (s.dev.kin a) ∧ t.dev.evPending Ev.AX_LIMIT) ∧
    (s.dev.homing a = false → (s.dev.ax a).prof.toward high = false → Gives (.limitTrip a high) s fun t =>
      t.dev.latched a high = true ∧ (t.dev.ax a).prof = (s.dev.ax a).prof) := by
  have hexec : exec (.limitTrip a high) s = s.act (·.limitTrip a high) := rfl
  have heq := limitTrip_latches hon hhome
  obtain ⟨hlatch, hprof⟩ := setLatch_st s.dev a high (some (s.dev.ax a).prof.p)
  have honly := Dev.setLatch_only s.dev a high (some (s.dev.ax a).prof.p)
  have hhoming : (s.dev.setLatch a high (some (s.dev.ax a).prof.p)).homing a = s.dev.homing a := homing_rd _ (honly.rd _ _ _ (by decide))
  have hkin : (s.dev.setLatch a high (some (s.dev.ax a).prof.p)).kin a = s.dev.kin a := kin_of honly (by decide) a
  rw [hhoming, hprof, hkin] at heq
  generalize s.dev.setLatch a high (some (s.dev.ax a).prof.p) = e at heq hlatch hprof
  refine ⟨fun h => ?_, fun h htoward => ?_, fun h htoward => ?_⟩
  · refine gives_fn hexec (heq.trans (if_pos h)) ⟨?_, (homeAbort_is e a .limit).1, (homeAbort_is e a .limit).2⟩
    exact (latched_of (Dev.homeAbort_only e a .limit) (by decide) (by decide) _ _).trans hlatch
  · rw [if_neg (by rw [h]; decide), if_pos htoward] at heq
    have hstop : (e.updProf a (·.planMaxStop (s.dev.kin a))).latched a high = true :=
      (latched_of (Dev.updProf_only e a _) (by decide) (by decide) a high).trans hlatch
    have hplan : ((e.updProf a (·.planMaxStop (s.dev.kin a))).ax a).prof = (s.dev.ax a).prof.planMaxStop (s.dev.kin a) := by rw [updProf_ax, hprof]
    generalize e.updProf a (·.planMaxStop (s.dev.kin a)) = u at heq hstop hplan
    refine gives_fn hexec heq ⟨?_, ?_, ?_⟩ <;> dsimp only
    · exact (latched_of (Dev.raise_only u _ _) (by decide) (by decide) a high).trans hstop
    · rw [raise_ax]
      exact hplan
    · exact Dev.raise_pending u Ev.AX_LIMIT (le 1 a ++ le 1 (bit high)) (by decide)
  · rw [if_neg (by rw [h]; decide), if_neg (by rw [htoward]; decide)] at heq
    exact gives_fn hexec heq ⟨hlatch, hprof⟩

theorem limitLatchClear_gives {a : AxisNo} {s : State} {high : Bool} {trip : Int} (hon : s.dev.axOn a = true)
    (htrip : (if high then (s.dev.ax a).high.at? else (s.dev.ax a).low.at?) = some trip) (haway : s.dev.awayFrom a high trip = true) :
    Gives (.limitLatchClear a high) s fun t => t.dev.latched a high = false := by
  refine gives_fn (show exec (.limitLatchClear a high) s = execLimitLatchClear a high s from rfl) (g := s.dev.setLatch a high none) ?_ (setLatch_st _ _ _ _).1
  rw [htrip]
  dsimp only
  rw [if_pos (by rw [hon, haway]; decide)]

/-! ### Targets -/

/-- The target as written, before the axis replans. -/
def Dev.targetHeld (d : Dev) (a : Nat) (t : Int) : Dev := d.wr .AX_TGT_POS (unsign 32 t) a

theorem targetHeld_only (d : Dev) (a : Nat) (t : Int) : Dev.Only 0 (fieldsMask [.AX_TGT_POS]) d (d.targetHeld a t) :=
  Dev.Only.wr _ _ _ _ (by decide) (Dev.Only.refl _ _ _)

theorem targetHeld_accepts (d : Dev) (a : Nat) (t : Int) (b : Bool) : (d.targetHeld a t).axAccepts a b = d.axAccepts a b := by
  have hstate : ∀ x, (d.targetHeld a t).axIs a x = d.axIs a x := fun x => axIs_rd a x ((targetHeld_only d a t).rd _ _ _ (by decide))
  unfold Dev.axAccepts
  rw [axOn_of (targetHeld_only d a t) (by decide) (by decide) (by decide), hstate, hstate]

theorem axTarget_refused {d : Dev} {a : Nat} {t : Int} {b : Bool} (h : d.axAccepts a b = false) : d.axTarget a t b = d.targetHeld a t :=
  if_neg (by rw [show (d.wr .AX_TGT_POS (unsign 32 t) a).axAccepts a b = false from (targetHeld_accepts d a t b).trans h]; decide)

theorem axTarget_runs {d : Dev} {a : Nat} {t : Int} {b : Bool} (h : d.axAccepts a b = true) : d.axTarget a t b = (d.targetHeld a t).axRun a t :=
  if_pos ((targetHeld_accepts d a t b).trans h)

theorem axRun_plans {d : Dev} {a : Nat} {t : Int} (hhigh : d.latched a true = false) (hlow : d.latched a false = false) (hrun : (d.ax a).prof.run ≠ .maxStop) :
    ((d.axRun a t).ax a).prof = (d.ax a).prof.planTo (d.kin a) (d.clipTarget a t) := by
  unfold Dev.axRun
  dsimp only
  rw [not_barred hhigh hlow, if_neg (by simp), if_neg hrun, updProf_ax]

theorem axTarget_plans {d : Dev} {a : Nat} {t : Int} {b : Bool} (h : d.axAccepts a b = true) (hhigh : d.latched a true = false)
    (hlow : d.latched a false = false) (hrun : (d.ax a).prof.run ≠ .maxStop) :
    ((d.axTarget a t b).ax a).prof = (d.ax a).prof.planTo (d.kin a) (d.clipTarget a t) := by
  have honly := targetHeld_only d a t
  have hlatch : ∀ high, (d.targetHeld a t).latched a high = d.latched a high := latched_of honly (by decide) (by decide) a
  have hclip : (d.targetHeld a t).clipTarget a t = d.clipTarget a t := by
    unfold Dev.clipTarget Dev.srd; rw [honly.rd _ _ _ (by decide), honly.rd _ _ _ (by decide)]
  rw [axTarget_runs h, axRun_plans ((hlatch true).trans hhigh) ((hlatch false).trans hlow) hrun, hclip, kin_of honly (by decide)]
  rfl

/-- Settles O42: each axis command over the state that Table 11-1 names for it. -/
theorem axisCommandsTakeEffect : Obligations.AxisCommandsTakeEffect := by
  unfold Obligations.AxisCommandsTakeEffect
  refine ⟨?_, ?_, ?_⟩
  · intro lvl a s hR
    refine ⟨fun h => reaches_act hR rfl (axHome_state h), fun h => reaches_act hR rfl (State.with_same (axHome_refused h)), fun hon hf => ⟨fun h => ?_, fun h hrun => ?_⟩,
      fun h => reaches_act hR rfl (axFclr_unhomed h)⟩
    · refine reaches_act hR rfl ?_
      dsimp only
      rw [axStop_homing hon h]
      exact homeAbort_is _ _ _
    · refine reaches_act hR rfl ?_
      dsimp only
      rw [axStop_moving hon hf h hrun, updProf_ax]
  · intro a s hon
    refine ⟨fun h => homeInputChange_gives hon (homeActive_seek h), fun h => homeInputChange_gives hon (homeInactive_backoff h), fun h hfb => ?_, fun h hfb hedge => ?_,
      fun t₀ h hsince hdue => homingTimeout_gives hon h hsince hdue, fun t₀ hsince hdue hf => ⟨fun h => ?_, fun h => ?_⟩,
      fun t₀ => followingErrorFault_early, fun high => limitTrip_gives hon, fun high trip => limitLatchClear_gives hon⟩
    · refine homeInputChange_gives hon ?_
      dsimp only
      rw [homeActive_latch h hfb]
      obtain ⟨hsettle, hest⟩ := homeEdge_is (s.dev.homeShown a true) a
      refine ⟨hsettle, hest.trans ?_⟩
      unfold Dev.srd Dev.homeShown
      rw [Dev.rd_wr, if_neg (by simp)]
      rfl
    · refine homeInputChange_gives hon ?_
      dsimp only
      rw [homeIndex_latch h hfb hedge]
      exact homeEdge_is _ _
    · refine followingErrorFault_due hsince hdue ?_
      have hprof : ((s.dev.axFault a 1).ax a).prof = (s.dev.ax a).prof.freeze := by
        rw [axFault_holds hon hf h, raise_ax, ax_congr ((Dev.dropSteps_only _ _).parts .axes (by decide)), axTo_ax, updProf_ax]
      have hstate := (axFault_own s.dev a 1 hon).1
      rw [h] at hstate
      refine ⟨hstate, congrArg Prof.run hprof, congrArg Prof.v hprof, (congrArg Prof.p hprof).trans rfl, ?_, axFault_raises hon hf 1⟩
      dsimp only
      rw [axFault_holds hon hf h]
      exact (congrArg (fun l : Loops => (Tab.at l.bars (s.dev.axisBar a) : BarLoop).steps) ((Dev.raise_only _ _ _).parts .loops (by decide))).trans (dropSteps_steps _ _)
    · have hstate := (axFault_own s.dev a 1 hon).1
      rw [h] at hstate
      exact followingErrorFault_due hsince hdue ⟨hstate, axFault_homing hon h 1, axFault_raises hon hf 1⟩
  · intro lvl a v s hR
    refine ⟨fun h => reaches_act hR rfl ⟨axTarget_pos _ _ _ _, ?_⟩, fun h hhigh hlow hrun => reaches_act hR rfl ⟨axTarget_pos _ _ _ _, axTarget_plans h hhigh hlow hrun⟩⟩
    dsimp only
    rw [axTarget_refused h]
    rfl

/-! ### Feedback -/

theorem quadChange_gives {a : AxisNo} {qa qb : Bool} {s : State} (hon : s.dev.axOn a = true) (hfb : s.dev.rd .AX_CFG_FB a = 2) :
    Gives (.axisFeedbackChange a (.quad qa qb)) s fun t => (t.dev.ax a).qa = qa ∧ (t.dev.ax a).qb = qb ∧
      (t.dev.ax a).est = (s.dev.ax a).est + quadCount (s.dev.ax a).qa (s.dev.ax a).qb qa qb * (s.dev.rd .AX_QSCALE_SPC a * 2 ^ 24 : Nat) := by
  refine gives_fn (show exec (.axisFeedbackChange a (.quad qa qb)) s = execAxisFeedbackChange a (.quad qa qb) s from rfl) (g := s.dev.quadChange a qa qb)
    (fb_fn hon ?_) ?_
  · rw [hfb]
    rfl
  · dsimp only
    unfold Dev.quadChange
    dsimp only
    rw [updAx_ax]
    exact ⟨rfl, rfl, rfl⟩

theorem hallFeedback_gives {a : AxisNo} {h : BitVec 3} {s : State} {p : State → Prop} (hon : s.dev.axOn a = true) (hfb : s.dev.rd .AX_CFG_FB a = 1)
    (hp : p { s with dev := s.dev.hallChange a h.toNat }) : Gives (.axisFeedbackChange a (.hall h)) s p :=
  gives_fn (show exec (.axisFeedbackChange a (.hall h)) s = execAxisFeedbackChange a (.hall h) s from rfl) (fb_fn hon (by rw [hfb]; rfl)) hp

theorem hallChange_up {d : Dev} {a h x y : Nat} (hx : hallSector (d.ax a).hall = some x) (hy : hallSector h = some y) (hstep : y = (x + 1) % 6) :
    ((d.hallChange a h).ax a).hall = h ∧ ((d.hallChange a h).ax a).est = sectorStart y (d.ax a).prof.p ∧ ((d.hallChange a h).ax a).estAt = d.now := by
  unfold Dev.hallChange
  simp only [hx, hy]
  rw [if_pos hstep, updAx_ax]
  exact ⟨rfl, rfl, rfl⟩

theorem hallChange_down {d : Dev} {a h x y : Nat} (hx : hallSector (d.ax a).hall = some x) (hy : hallSector h = some y) (hstep : x = (y + 1) % 6) :
    ((d.hallChange a h).ax a).hall = h ∧ ((d.hallChange a h).ax a).est = sectorStart x (d.ax a).prof.p ∧ ((d.hallChange a h).ax a).estAt = d.now := by
  have hnot : ¬ y = (x + 1) % 6 := by omega
  unfold Dev.hallChange
  simp only [hx, hy]
  rw [if_neg hnot, if_pos hstep, updAx_ax]
  exact ⟨rfl, rfl, rfl⟩

/-! ### Samples, frames and traces -/

theorem axesOn_nodup (d : Dev) : d.axesOn.Nodup := List.nodup_range.filter _

theorem mem_axesOn {d : Dev} {a : Nat} (ha : a < 16) (hon : d.axOn a = true) : a ∈ d.axesOn :=
  List.mem_filter.mpr ⟨List.mem_range.mpr ha, hon⟩

theorem axisSample_gives (s : State) : Gives .axisSample s fun t => ∀ a, a < 16 → s.dev.axOn a = true → Sampled s.dev t.dev a := by
  refine gives_act (show exec .axisSample s = execAxisSample s from rfl) fun a ha hon => ?_
  have hsampled := (samples s.dev.axesOn (axesOn_nodup _) s.dev s.dev (fun _ _ => rfl) (fun _ _ => rfl) (fun _ _ => ⟨rfl, rfl⟩)).1 a (mem_axesOn ha hon)
  exact hsampled.congr (AxAt.of a (forEach_only _ _ _ Dev.stepSample_only) (by decide) (by decide))

theorem axsyncPeriod_gives {s : State} (hon : s.dev.domOn .sup = true) : Gives .axsyncPeriod s fun t => t.dev.pins.axsyncAt = some s.dev.now ∧
    ∀ p, p < s.dev.nAxes / 4 → (Tab.at t.dev.axp p : AxPort).fcnt = ((Tab.at s.dev.axp p : AxPort).fcnt + 1) % 256 := by
  have hdue : ∀ d : Dev, d.startDue.pins = d.pins ∧ d.startDue.axp = d.axp :=
    fun d => ⟨(Dev.startDue_only d).parts .pins (by decide), (Dev.startDue_only d).parts .axp (by decide)⟩
  refine gives_fn (show exec .axsyncPeriod s = execAxsyncPeriod s from rfl) (fb_fn hon rfl) ?_
  dsimp only
  generalize hd : ({ s.dev with pins := { s.dev.pins with axsyncAt := some s.dev.now } } : Dev) = d
  have hn : d.startDue.nAxes = s.dev.nAxes := by
    unfold Dev.nAxes Dev.isA32
    rw [show d.startDue.variant = d.variant from (Dev.startDue_only d).parts .variant (by decide), ← hd]
  obtain ⟨hpins, haxp⟩ := hdue d
  obtain ⟨hsent, hcount, _⟩ := sends (List.range (d.nAxes / 4)) List.nodup_range d.startDue
  refine ⟨?_, fun p hp => ?_⟩
  · rw [hsent, hpins, ← hd]
  · rw [hcount p (List.mem_range.mpr (by rw [← hd]; exact hp)), haxp, ← hd]

theorem returnGood_rets {d : Dev} {p : Nat} {f : ReturnFrame} : ∃ v, d.returnGood p f = (retStatus f).zipIdx.foldl (retOne p) (d.wr .AXP_ERR_FAULT v p) := ⟨_, rfl⟩

theorem returnFrame_good {p : Port} {f : ReturnFrame} {s : State} (hon : s.dev.domOn .sup = true) (hport : p.val < s.dev.nAxes / 4)
    (hok : (retCrcOk f && decide (f.fcnt.toNat = ((Tab.at s.dev.axp p.val : AxPort).fcnt + 255) % 256)) = true) :
    Gives (.returnFrame p f) s fun t => ∀ k w, (w, k) ∈ (retStatus f).zipIdx → s.dev.axOn (4 * p + k) = true →
      (w.getLsbD 1 = true ∨ w.getLsbD 3 = true) →
      t.dev.axIs (4 * p + k) (if s.dev.homing (4 * p + k) then .unhomed else .fault) = true ∧ (t.dev.ax (4 * p + k)).fails = 0 := by
  refine gives_fn (show exec (.returnFrame p f) s = execReturnFrame p f s from rfl) (g := s.dev.returnGood p f) ?_ ?_
  · rw [if_neg (by rw [hon]; simpa using hport), if_pos (by simpa using hok)]
  · intro k w hmem haxis hbad
    obtain ⟨v, hform⟩ := returnGood_rets (d := s.dev) (p := p) (f := f)
    have hw : Dev.Only 0 (fieldsMask [.AXP_ERR_FAULT]) s.dev (s.dev.wr .AXP_ERR_FAULT v p) := Dev.Only.wr _ _ _ _ (by decide) (Dev.Only.refl _ _ _)
    have hslots : ((retStatus f).zipIdx.map (·.2)).Nodup := by
      rw [show (retStatus f).zipIdx.map (·.2) = [0, 1, 2, 3] from rfl]; decide
    dsimp only
    rw [hform]
    have hone := (rets p _ hslots (s.dev.wr .AXP_ERR_FAULT v p)).1 (w, k) hmem ((axOn_of hw (by decide) (by decide) (by decide) _).trans haxis) hbad
    rw [homing_rd _ (hw.rd _ _ _ (by decide))] at hone
    exact hone

theorem returnFrame_bad {p : Port} {f : ReturnFrame} {s : State} (hon : s.dev.domOn .sup = true) (hport : p.val < s.dev.nAxes / 4)
    (hbad : (retCrcOk f && decide (f.fcnt.toNat = ((Tab.at s.dev.axp p.val : AxPort).fcnt + 255) % 256)) = false) :
    Gives (.returnFrame p f) s fun t =>
      t.dev.rd .AXP_ERR_RCRC p = min (s.dev.rd .AXP_ERR_RCRC p + 1) 65535 ∧ t.dev.evPending Ev.AXP_CRC := by
  refine gives_fn (show exec (.returnFrame p f) s = execReturnFrame p f s from rfl) (g := s.dev.returnBad p) ?_ ?_
  · rw [if_neg (by rw [hon]; simpa using hport), if_neg (by rw [hbad]; decide)]
  · dsimp only
    exact returnBad_st s.dev p

theorem trArm_waits {d : Dev} {c : Nat} (h : d.rd .TR_TRIG_MODE c ≠ 0) : (d.trArm c).rd .TR_STAT_STATE c = 1 ∧ (d.trArm c).tr c = default := by
  have hmode : ((d.wr .TR_STAT_STATE 1 c).updTr c (fun _ => default)).rd .TR_TRIG_MODE c ≠ 0 := by
    rw [updTr_rd, Dev.rd_wr, if_neg (by simp)]; exact h
  have heq : d.trArm c = (d.wr .TR_STAT_STATE 1 c).updTr c (fun _ => default) := if_neg hmode
  rw [heq, updTr_tr, updTr_rd]
  exact ⟨rd_wr_self _ _ _ _ _ (by decide), rfl⟩

theorem trTrigger_st (d : Dev) (c : Nat) : (d.trTrigger c).rd .TR_STAT_STATE c = 2 ∧ (d.trTrigger c).evPending Ev.TR_TRIGGERED := by
  unfold Dev.trTrigger
  dsimp only
  refine ⟨?_, Dev.raise_pending _ _ _ (by decide)⟩
  rw [(Dev.raise_only _ _ _).rd _ _ _ (by decide), updTr_rd, Dev.rd_wr, if_neg (by simp)]
  exact rd_wr_self _ _ _ _ _ (by decide)

theorem trArm_triggers {d : Dev} {c : Nat} (h : d.rd .TR_TRIG_MODE c = 0) : (d.trArm c).rd .TR_STAT_STATE c = 2 ∧ (d.trArm c).evPending Ev.TR_TRIGGERED := by
  have hmode : ((d.wr .TR_STAT_STATE 1 c).updTr c (fun _ => default)).rd .TR_TRIG_MODE c = 0 := by
    rw [updTr_rd, Dev.rd_wr, if_neg (by simp)]; exact h
  have heq : d.trArm c = ((d.wr .TR_STAT_STATE 1 c).updTr c (fun _ => default)).trTrigger c := if_pos hmode
  rw [heq]
  exact trTrigger_st _ _

/-- Settles O43: the 20 kHz sample, the two kinds of feedback, the frames out and in, the commit and the trace channel. -/
theorem axisSamplesTakeEffect : Obligations.AxisSamplesTakeEffect := by
  unfold Obligations.AxisSamplesTakeEffect
  refine ⟨axisSample_gives, fun a qa qb s => quadChange_gives, ?_, fun s => axsyncPeriod_gives, fun p f s hon hport => ⟨returnFrame_good hon hport, returnFrame_bad hon hport⟩,
    fun lvl a s hR => reaches_act hR rfl (rd_wr_self _ _ _ _ _ (by decide)),
    fun lvl c s hR => ⟨fun h => reaches_act hR rfl (trArm_waits h), fun h => reaches_act hR rfl (trArm_triggers h)⟩⟩
  intro a h x y s hon hfb hx hy
  exact ⟨fun hstep => hallFeedback_gives hon hfb (hallChange_up hx hy hstep),
    fun hstep => hallFeedback_gives hon hfb (hallChange_down hx hy hstep)⟩

end Sys2Proof.Machine

/-! The supply: resets and their causes, the warning, the sensors, the end of an epoch (O9, O10, O11, O13). -/
namespace Sys2Proof.Machine
set_option exponentiation.threshold 600

/-! ### Resets (16, R371) -/

/-- What the failing rails may change of the registers before the reset. -/
def railFields : List Fld := [.AON_EVPEND_PEND, .CR_LOG_WP_OFS, .AON_PWR_WARN, .AON_EVLOST_N] ++ spoilFields

/-- The device that resets when the rails fail: nothing fires, products in flight are spoiled, no warning stands, the pins are released. -/
def Dev.railsDown (d : Dev) : Dev :=
  let d := (d.stopFiring.spoilInFlight .power none).cutRecord
  let d : Dev := ({ d with pwr := { d.pwr with warnSince := none, deferred := [] } }).wr .AON_PWR_WARN 0
  { d with pins := { d.pins with href := false, relaysOpen := false } }

theorem railsOff_resets {s : State} (h : s.dev.st ≠ .off) : s.railsOff = ({ s with dev := s.dev.railsDown }).moduleReset 1 .off := if_neg h

theorem railsDown_only (d : Dev) : Dev.Only 0x5fffffffffe (fieldsMask railFields) d d.railsDown := by
  unfold Dev.railsDown
  dsimp only
  refine Dev.Only.with_pins _ (by decide) (Dev.Only.wr _ _ _ _ (by decide) (Dev.Only.with_pwr _ (by decide) ?_))
  refine Dev.Only.trans ?_ ((Dev.cutRecord_only _).mono (by decide) (by decide))
  exact ((Dev.stopFiring_only d).mono (by decide) (by decide)).trans ((Dev.spoilInFlight_only _ _ _).mono (by decide) (by decide))

theorem railsDown_warn (d : Dev) : d.railsDown.rd .AON_PWR_WARN = 0 := by
  unfold Dev.railsDown
  exact (rf_rd _ _ rfl _ _ _).trans (rd_wr_self _ .AON_PWR_WARN 0 0 0 (by decide))

theorem kept_not_spoil {f : Fld} (h : keptInReset f = true) : f ∉ spoilFields := by
  intro hm
  simp only [spoilFields, List.mem_cons, List.not_mem_nil, or_false] at hm
  rcases hm with rfl | rfl | rfl | rfl | rfl | rfl | rfl | rfl <;> exact absurd h (by decide)

theorem railsDown_kept (d : Dev) {f : Fld} (h : keptInReset f = true) (hf : f ∉ [Fld.AON_EVPEND_PEND, .CR_LOG_WP_OFS, .AON_PWR_WARN]) (hb : f ∉ bootFs) (i j : Nat) :
    d.railsDown.rd f i j = d.rd f i j := by
  refine (railsDown_only d).regs f (fieldsMask_not fun hm => ?_) i j
  rcases List.mem_append.mp hm with hm | hm
  · simp only [List.mem_cons, List.not_mem_nil, or_false] at hm hf
    rcases hm with rfl | rfl | rfl | rfl
    · exact hf (.inl rfl)
    · exact hf (.inr (.inl rfl))
    · exact hf (.inr (.inr rfl))
    · exact hb (by decide)
  · exact kept_not_spoil h hm

theorem moduleReset_kept (d : Dev) (cause : Nat) (st : DState) {f : Fld} (hk : keptInReset f = true) (hb : f ∉ bootFs) (hi : f ∉ inFs)
    (hst : f ≠ .AON_STATE_STATE) (hc : f ≠ .CR_STAT_RSTCAUSE) (hpd : f ≠ .AON_PDSTAT_ON) (hbusy : f ≠ .AON_TDEM_BUSY) (i j : Nat) :
    (d.moduleReset cause st).rd f i j = d.rd f i j := by
  rw [moduleReset_rd d cause st f i j hb hi hst hc, resetDomains_rd d f i j hpd hbusy, if_pos hk]

theorem moduleReset_pins (d : Dev) (cause : Nat) (st : DState) : (d.moduleReset cause st).pins = ⟨false, d.pins.href, false, none, none⟩ :=
  (mr_keep d cause st .pins (by decide) (by decide)).trans (resetDomains_pins d)

theorem moduleReset_nor (d : Dev) (cause : Nat) (st : DState) : (d.moduleReset cause st).nor = d.nor := by
  refine (mr_keep d cause st .nor (by decide) (by decide)).trans ?_
  unfold Dev.resetDomains
  rfl

theorem railsOff_resetTo {s u : State} {fs : List Fld} (h : u.dev.st ≠ .off) (hp : u.pending = s.pending)
    (hfs : ∀ f ∈ [Fld.AON_EVPEND_PEND, .CR_LOG_WP_OFS, .AON_PWR_WARN], f ∈ fs) (hkeep : ∀ f i j, f ∉ fs → u.dev.rd f i j = s.dev.rd f i j)
    (hhold : Fld.XPP_DIN_HOLD ∉ fs) (hinh : Fld.XPP_DIN_INH ∉ fs) :
    ResetTo .off 1 fs s u.railsOff ∧ u.railsOff.dev.rd .AON_PWR_WARN = 0 ∧ u.railsOff.dev.pins.href = false ∧ u.railsOff.dev.pins.relaysOpen = false := by
  rw [railsOff_resets h]
  refine ⟨resetTo s _ 1 .off (by decide) fs { u with dev := u.dev.railsDown } (fun f hk hf hb i j => ?_) ?_ ?_ hp rfl, ?_, ?_, ?_⟩
  · exact (railsDown_kept u.dev hk (fun hm => hf (hfs f hm)) hb i j).trans (hkeep f i j hf)
  · exact ((railsDown_only u.dev).rd _ _ _ (by decide)).trans (hkeep _ 0 0 hhold)
  · exact ((railsDown_only u.dev).rd _ _ _ (by decide)).trans (hkeep _ 0 0 hinh)
  · rw [mr_dev, moduleReset_kept _ _ _ (by decide) (by decide) (by decide) (by decide) (by decide) (by decide) (by decide)]
    exact railsDown_warn u.dev
  · rw [mr_dev, moduleReset_pins]
    rfl
  · rw [mr_dev, moduleReset_pins]

theorem railsOff_vmin {u : State} (h : u.dev.st ≠ .off) : u.railsOff.dev.rd .AON_PWR_VMIN = u.dev.rd .AON_PWR_VMIN := by
  rw [railsOff_resets h, mr_dev, moduleReset_kept _ _ _ (by decide) (by decide) (by decide) (by decide) (by decide) (by decide) (by decide)]
  exact railsDown_kept u.dev (by decide) (by decide) (by decide) 0 0

theorem powerOnReset_gives (s : State) : Gives .powerOnReset s fun t =>
    t.dev.st = .off ∧ (∀ f i j, f ≠ .AON_STATE_STATE → t.dev.rd f i j = (fldSpec f).reset) ∧ t.dram = ⟨[], []⟩ ∧ t.pending = s.pending := by
  refine gives_next rfl ⟨wr_st _ _, fun f i j hf => ?_, rfl, rfl⟩
  dsimp only
  rw [Dev.rd_wr, if_neg (fun h => hf h.1)]
  exact (rf_rd Dev.reset _ rfl f i j).trans (rd_reset f i j)

theorem inputReset9v8_gives {s : State} (h : s.dev.st ≠ .off) : Gives .inputReset9v8 s fun t =>
    ResetTo .off 1 [Fld.AON_EVPEND_PEND, Fld.CR_LOG_WP_OFS, Fld.AON_PWR_WARN, Fld.AON_PWR_VMIN] s t ∧ t.dev.rd .AON_PWR_WARN = 0 ∧
      t.dev.rd .AON_PWR_VMIN = min (s.dev.rd .AON_PWR_VMIN) 9800 % 2 ^ 16 ∧ t.dev.pins.href = false ∧ t.dev.pins.relaysOpen = false := by
  refine gives_next (t := State.railsOff { s with dev := s.dev.wr .AON_PWR_VMIN (min (s.dev.rd .AON_PWR_VMIN) 9800) }) rfl ?_
  generalize hu : ({ s with dev := s.dev.wr .AON_PWR_VMIN (min (s.dev.rd .AON_PWR_VMIN) 9800) } : State) = u
  have hst : u.dev.st ≠ .off := by
    rw [← hu]
    unfold Dev.st
    rw [Dev.rd_wr, if_neg (by decide)]
    exact h
  have hvmin : u.dev.rd .AON_PWR_VMIN = min (s.dev.rd .AON_PWR_VMIN) 9800 % 2 ^ 16 := by
    rw [← hu]
    exact (Dev.rd_wr _ _ _ _ _ _ _ _).trans (if_pos ⟨rfl, rfl, rfl⟩)
  obtain ⟨hreset, hwarn, hhref, hrelays⟩ := railsOff_resetTo (s := s) (u := u) (fs := [Fld.AON_EVPEND_PEND, Fld.CR_LOG_WP_OFS, Fld.AON_PWR_WARN, Fld.AON_PWR_VMIN])
    hst (by rw [← hu]) (by decide) (fun f i j hf => by
      rw [← hu]
      exact (Dev.rd_wr _ _ _ _ _ _ _ _).trans (if_neg (fun hc => hf (by rw [hc.1]; decide)))) (by decide) (by decide)
  exact ⟨hreset, hwarn, (railsOff_vmin hst).trans hvmin, hhref, hrelays⟩

theorem overvoltageDisconnect_gives {s : State} (h : s.dev.st ≠ .off) : Gives .overvoltageDisconnect s fun t =>
    ResetTo .off 1 [Fld.AON_EVPEND_PEND, Fld.CR_LOG_WP_OFS, Fld.AON_PWR_WARN] s t ∧ t.dev.rd .AON_PWR_WARN = 0 ∧
      t.dev.pins.href = false ∧ t.dev.pins.relaysOpen = false :=
  gives_next rfl (railsOff_resetTo h rfl (fun _ hm => hm) (fun _ _ _ _ => rfl) (by decide) (by decide))

theorem moduleReset_resetTo (s : State) {cause : Nat} (h : cause < 8) :
    ResetTo .boot cause [] s (s.moduleReset cause .boot) ∧ (s.moduleReset cause .boot).dev.pins.href = s.dev.pins.href ∧
      (s.moduleReset cause .boot).dev.nor = s.dev.nor := by
  refine ⟨resetTo s _ cause .boot h [] s (fun _ _ _ _ _ _ => rfl) rfl rfl rfl rfl, ?_, ?_⟩
  · rw [mr_dev, moduleReset_pins]
  · rw [mr_dev, moduleReset_nor]

theorem mayRestart_of {d : Dev} (hoff : d.st ≠ .off) (hshut : d.st ≠ .shutdown) : d.mayRestart = true := by
  unfold Dev.mayRestart
  simp [hoff, hshut]

/-- Settles O9: one lemma for the rails that fail, one for a reset that leads to BOOT. -/
theorem resetsReturnTheModule : Obligations.ResetsReturnTheModule := by
  unfold Obligations.ResetsReturnTheModule
  refine ⟨powerOnReset_gives, fun s => inputReset9v8_gives, fun s => overvoltageDisconnect_gives, fun s hdbg hoff hshut => ?_, fun lvl s hallowed hoff hshut => ?_⟩
  · refine gives_next (t := s.moduleReset 4 .boot) ?_ (moduleReset_resetTo s (by decide))
    exact congrArg Host.Outcome.next (if_pos (by rw [hdbg, mayRestart_of hoff hshut]; rfl))
  · have hrestart : s.restartWrite = s.moduleReset (if s.dev.flag .CR_BOOTSEL_BACKUP then 3 else 2) .boot := if_pos (mayRestart_of hoff hshut)
    refine gives_next (t := s.moduleReset (if s.dev.flag .CR_BOOTSEL_BACKUP then 3 else 2) .boot) ?_ (moduleReset_resetTo s (by split <;> decide))
    rw [← hrestart]
    exact congrArg Host.Outcome.next (if_pos hallowed)

/-! ### Supply warning (12, R301, R302) -/

theorem plim_warned {d : Dev} (h : d.flag .AON_PWR_WARN = true) : d.setPlim.rd .AB_PLIM_CUR = d.rd .AB_PLIM_FLOOR % 2 ^ 10 := by
  unfold Dev.setPlim Dev.plim
  rw [h, Dev.rd_wr, if_pos ⟨rfl, rfl, rfl⟩]
  rfl

theorem plim_unwarned {d : Dev} (h : d.flag .AON_PWR_WARN = false) :
    d.setPlim.rd .AB_PLIM_CUR = max (d.rd .AB_PLIM_FLOOR) (d.rd .AB_PLIM_CFG - d.aba.cut) % 2 ^ 10 := by
  unfold Dev.setPlim Dev.plim
  rw [h, Dev.rd_wr, if_pos ⟨rfl, rfl, rfl⟩]
  rfl

theorem supplyWarning_gives {mv : U16} {s : State} (hoff : s.dev.st ≠ .off) (hwarn : s.dev.flag .AON_PWR_WARN = false) :
    Gives (.supplyWarning mv) s fun t =>
      t.dev.rd .AON_PWR_WARN = 1 ∧ t.dev.rd .AON_PWR_SEEN = 1 ∧ t.dev.rd .AON_PWR_VMIN = min (s.dev.rd .AON_PWR_VMIN) mv.toNat % 2 ^ 16 ∧
        t.dev.rd .AB_PLIM_CUR = s.dev.rd .AB_PLIM_FLOOR % 2 ^ 10 ∧ t.dev.rd .VL_CTL_FREEZE = 1 ∧ t.dev.evPending Ev.PWR_WARN := by
  refine gives_fn (show exec (.supplyWarning mv) s = execSupplyWarning mv s from rfl)
    (if_neg (by rw [hwarn, decide_eq_false hoff]; decide)) ?_
  dsimp only
  generalize hd : ((s.dev.wr .AON_PWR_WARN 1).wr .AON_PWR_SEEN 1).wr .AON_PWR_VMIN (min (s.dev.rd .AON_PWR_VMIN) mv.toNat) = d
  have hset : d.rd .AON_PWR_WARN = 1 ∧ d.rd .AON_PWR_SEEN = 1 ∧ d.rd .AON_PWR_VMIN = min (s.dev.rd .AON_PWR_VMIN) mv.toNat % 2 ^ 16 ∧
      d.rd .AB_PLIM_FLOOR = s.dev.rd .AB_PLIM_FLOOR := by
    rw [← hd]
    refine ⟨?_, ?_, (Dev.rd_wr _ _ _ _ _ _ _ _).trans (if_pos ⟨rfl, rfl, rfl⟩), ?_⟩
    · rw [Dev.rd_wr, if_neg (by decide), Dev.rd_wr, if_neg (by decide)]
      exact rd_wr_self _ _ _ _ _ (by decide)
    · rw [Dev.rd_wr, if_neg (by decide)]
      exact rd_wr_self _ _ _ _ _ (by decide)
    · rw [Dev.rd_wr, if_neg (by decide), Dev.rd_wr, if_neg (by decide), Dev.rd_wr, if_neg (by decide)]
  generalize hv : ({ d with pwr := { d.pwr with vin := mv.toNat, warnSince := some d.now } } : Dev) = e
  have he : ∀ f, e.rd f = d.rd f := fun f => by
    rw [← hv]
    rfl
  obtain ⟨hw, hseen, hvmin, hfloor⟩ := hset
  have hread : ∀ f, f ≠ .AB_PLIM_CUR → f ≠ .VL_CTL_FREEZE → f ≠ .AON_EVPEND_PEND → f ≠ .AON_EVLOST_N →
      ((e.setPlim.wr .VL_CTL_FREEZE 1).raise Ev.PWR_WARN (le 2 mv.toNat)).rd f = d.rd f := fun f h1 h2 h3 h4 => by
    rw [Dev.raise_rd _ _ _ _ _ _ h3 h4, Dev.rd_wr, if_neg (fun hc => h2 hc.1), setPlim_rd _ _ _ _ h1, he]
  refine ⟨(hread _ (by decide) (by decide) (by decide) (by decide)).trans hw, (hread _ (by decide) (by decide) (by decide) (by decide)).trans hseen,
    (hread _ (by decide) (by decide) (by decide) (by decide)).trans hvmin, ?_, ?_, Dev.raise_pending _ _ _ (by decide)⟩
  · rw [Dev.raise_rd _ _ _ _ _ _ (by decide) (by decide), Dev.rd_wr, if_neg (by decide), plim_warned (flag_true (by rw [he, hw]; decide)), he, hfloor]
  · rw [Dev.raise_rd _ _ _ _ _ _ (by decide) (by decide)]
    exact rd_wr_self _ _ _ _ _ (by decide)

/-- The device that has P_lim restored and the rods free, before the record and the deferred work. -/
def Dev.warningOver (d : Dev) (lowest : Nat) : Dev :=
  let d := (d.wr .AON_PWR_WARN 0).wr .AON_PWR_VMIN (min (d.rd .AON_PWR_VMIN) lowest)
  let d := { d with pwr := { d.pwr with warnSince := none, deferred := [] } }
  let d := if d.flag .AB_STAT_THROTTLE then d else d.updAba (fun a => { a with cut := 0, plimRise := 0 })
  d.setPlim.wr .VL_CTL_FREEZE 0

/-- The record, the deferred operations and the rods that SV1 commits. -/
def Dev.catchUp (d : Dev) (rec : List Byte) (later : List NorOp) (pipes : List Nat) : Dev :=
  ((d.logPut rec).forEach later Dev.norDo).forEach pipes Dev.sv1Commit

theorem clearWarning_eq (d : Dev) (lowest : Nat) : ∃ (x rec : List Byte) (later : List NorOp) (pipes : List Nat),
    d.clearWarning lowest = ((d.warningOver lowest).raise Ev.PWR_CLEAR x).catchUp rec later pipes := ⟨_, _, _, _, rfl⟩

theorem catchUp_only (d : Dev) (rec : List Byte) (later : List NorOp) (pipes : List Nat) :
    Dev.Only (partsMask [.nor, .out, .xpp, .dose, .loops, .trace, .evr])
      (fieldsMask [.CR_LOG_WP_OFS, .AON_EVPEND_PEND, .AON_EVLOST_N, .DP_RODQ_COUNT, .DP_RODQ_COMMIT, .DP_ERR_QOVF, .DP_ERR_CREF]) d (d.catchUp rec later pipes) := by
  unfold Dev.catchUp
  refine Dev.Only.trans ?_ (forEach_only _ _ _ fun d i => (Dev.sv1Commit_only d i).mono rfl rfl)
  exact ((Dev.logPut_only d rec).mono rfl rfl).trans (forEach_only _ _ _ fun d o => (Dev.norDo_only d o).mono rfl rfl)

theorem catchUp_pending {d : Dev} {ev : EvCode} (hs : ev.sub < 16) (h : d.evPending ev) (rec : List Byte) (later : List NorOp) (pipes : List Nat) :
    (d.catchUp rec later pipes).evPending ev := by
  unfold Dev.catchUp
  refine (Dev.Plans.forEach pipes _ sv1Commit_plans _).pending ev hs ?_
  exact (forEach_only _ _ _ Dev.norDo_only).evPending ev (by decide) ((Dev.logPut_only d rec).evPending ev (by decide) h)

theorem warningOver_st (d : Dev) (lowest : Nat) :
    (d.warningOver lowest).rd .AON_PWR_WARN = 0 ∧ (d.warningOver lowest).rd .AON_PWR_VMIN = min (d.rd .AON_PWR_VMIN) lowest % 2 ^ 16 ∧
    (d.warningOver lowest).rd .AB_PLIM_CUR =
      max (d.rd .AB_PLIM_FLOOR) (d.rd .AB_PLIM_CFG - (if d.flag .AB_STAT_THROTTLE then d.aba.cut else 0)) % 2 ^ 10 ∧
    (d.warningOver lowest).rd .VL_CTL_FREEZE = 0 ∧ (d.warningOver lowest).pwr.warnSince = none ∧ (d.warningOver lowest).pwr.deferred = [] := by
  unfold Dev.warningOver
  dsimp only
  generalize hc : (d.wr .AON_PWR_WARN 0).wr .AON_PWR_VMIN (min (d.rd .AON_PWR_VMIN) lowest) = c
  have hcw : c.rd .AON_PWR_WARN = 0 ∧ c.rd .AON_PWR_VMIN = min (d.rd .AON_PWR_VMIN) lowest % 2 ^ 16 ∧ c.rd .AB_PLIM_FLOOR = d.rd .AB_PLIM_FLOOR ∧
      c.rd .AB_PLIM_CFG = d.rd .AB_PLIM_CFG ∧ c.rd .AB_STAT_THROTTLE = d.rd .AB_STAT_THROTTLE ∧ c.aba = d.aba := by
    rw [← hc]
    have hother : ∀ f : Fld, f ≠ .AON_PWR_WARN → f ≠ .AON_PWR_VMIN →
        ((d.wr .AON_PWR_WARN 0).wr .AON_PWR_VMIN (min (d.rd .AON_PWR_VMIN) lowest)).rd f = d.rd f := fun f h1 h2 => by
      rw [Dev.rd_wr, if_neg (fun h => h2 h.1), Dev.rd_wr, if_neg (fun h => h1 h.1)]
    refine ⟨?_, (Dev.rd_wr _ _ _ _ _ _ _ _).trans (if_pos ⟨rfl, rfl, rfl⟩), hother _ (by decide) (by decide), hother _ (by decide) (by decide),
      hother _ (by decide) (by decide), rfl⟩
    rw [Dev.rd_wr, if_neg (by decide)]
    exact rd_wr_self _ _ _ _ _ (by decide)
  obtain ⟨hwarn, hvmin, hfloor, hcfg, hthr, haba⟩ := hcw
  generalize hp : ({ c with pwr := { c.pwr with warnSince := none, deferred := [] } } : Dev) = p
  have hpread : ∀ f, p.rd f = c.rd f := fun f => by
    rw [← hp]
    rfl
  have hpaba : p.aba = d.aba := by
    rw [← hp]
    exact haba
  have hppwr : p.pwr.warnSince = none ∧ p.pwr.deferred = [] := by
    rw [← hp]
    exact ⟨rfl, rfl⟩
  have hflag : p.flag .AB_STAT_THROTTLE = d.flag .AB_STAT_THROTTLE := by
    unfold Dev.flag
    rw [hpread, hthr]
  generalize hq : (if p.flag .AB_STAT_THROTTLE = true then p else p.updAba _ : Dev) = q
  have hqread : ∀ f, q.rd f = p.rd f := fun f => by
    rw [← hq]
    split <;> rfl
  have hqcut : q.aba.cut = if d.flag .AB_STAT_THROTTLE then d.aba.cut else 0 := by
    rw [← hq, hflag]
    split
    · rw [hpaba]
    · rfl
  have hqpwr : q.pwr = p.pwr := by
    rw [← hq]
    split <;> rfl
  have hread : ∀ f, f ≠ .AB_PLIM_CUR → f ≠ .VL_CTL_FREEZE → (q.setPlim.wr .VL_CTL_FREEZE 0).rd f = c.rd f := fun f h1 h2 => by
    rw [Dev.rd_wr, if_neg (fun h => h2 h.1), setPlim_rd _ _ _ _ h1, hqread, hpread]
  refine ⟨(hread _ (by decide) (by decide)).trans hwarn, (hread _ (by decide) (by decide)).trans hvmin, ?_, rd_wr_self _ _ _ _ _ (by decide), ?_, ?_⟩
  · rw [Dev.rd_wr, if_neg (by decide), plim_unwarned (flag_false (by rw [hqread, hpread, hwarn])), hqread, hqread, hpread, hpread, hfloor, hcfg, hqcut]
  · exact (congrArg Pwr.warnSince hqpwr).trans hppwr.1
  · exact (congrArg Pwr.deferred hqpwr).trans hppwr.2

theorem supplyWarningClear_gives {lowest : U16} {s : State} (hwarn : s.dev.flag .AON_PWR_WARN = true) : Gives (.supplyWarningClear lowest) s fun t =>
    t.dev.rd .AON_PWR_WARN = 0 ∧ t.dev.rd .AON_PWR_VMIN = min (s.dev.rd .AON_PWR_VMIN) lowest.toNat % 2 ^ 16 ∧
      t.dev.rd .AB_PLIM_CUR = max (s.dev.rd .AB_PLIM_FLOOR)
        (s.dev.rd .AB_PLIM_CFG - (if s.dev.flag .AB_STAT_THROTTLE then s.dev.aba.cut else 0)) % 2 ^ 10 ∧
      t.dev.rd .VL_CTL_FREEZE = 0 ∧ t.dev.pwr.warnSince = none ∧ t.dev.pwr.deferred = [] ∧ t.dev.evPending Ev.PWR_CLEAR := by
  obtain ⟨x, rec, later, pipes, heq⟩ := clearWarning_eq s.dev lowest.toNat
  refine gives_fn (show exec (.supplyWarningClear lowest) s = execSupplyWarningClear lowest s from rfl) ((if_pos hwarn).trans heq) ?_
  obtain ⟨hw, hvmin, hplim, hfreeze, hsince, hdeferred⟩ := warningOver_st s.dev lowest.toNat
  generalize s.dev.warningOver lowest.toNat = d at hw hvmin hplim hfreeze hsince hdeferred
  have honly := (Dev.raise_only d Ev.PWR_CLEAR x).mono (c' := partsMask [.nor, .out, .xpp, .dose, .loops, .trace, .evr])
    (r' := fieldsMask [.CR_LOG_WP_OFS, .AON_EVPEND_PEND, .AON_EVLOST_N, .DP_RODQ_COUNT, .DP_RODQ_COMMIT, .DP_ERR_QOVF, .DP_ERR_CREF]) rfl rfl
  have hall := honly.trans (catchUp_only _ rec later pipes)
  have hpwr : (((d.raise Ev.PWR_CLEAR x).catchUp rec later pipes)).pwr = d.pwr := hall.parts .pwr (by decide)
  dsimp only
  exact ⟨(hall.rd _ _ _ (by decide)).trans hw, (hall.rd _ _ _ (by decide)).trans hvmin, (hall.rd _ _ _ (by decide)).trans hplim,
    (hall.rd _ _ _ (by decide)).trans hfreeze, (congrArg Pwr.warnSince hpwr).trans hsince, (congrArg Pwr.deferred hpwr).trans hdeferred,
    catchUp_pending (by decide) (Dev.raise_pending d _ x (by decide)) rec later pipes⟩

/-- Settles O10. -/
theorem supplyWarningTakesEffect : Obligations.SupplyWarningTakesEffect := by
  unfold Obligations.SupplyWarningTakesEffect
  exact ⟨fun mv s => supplyWarning_gives, fun lowest s => supplyWarningClear_gives⟩

/-! ### Sensors (12, R299) -/

theorem demandAll_st (d : Dev) : d.demandAll.rd .AON_TDEM_BUSY = 0x3FF ∧ d.demandAll.temp.sample = true := by
  refine ⟨?_, rfl⟩
  change (d.demand 0x3FF).rd .AON_TDEM_BUSY = 0x3FF
  unfold Dev.demand
  rw [Dev.rd_wr, if_pos ⟨rfl, rfl, rfl⟩]
  exact or1023 _

theorem hkDemands_of {d : Dev} (h : d.st = .safe ∨ d.st = .shutdown ∨ (d.st = .boot ∧ d.boot.stage.num ≥ BootStage.firstPass.num)) : d.hkDemands = true := by
  unfold Dev.hkDemands
  rcases h with h | h | ⟨h, hstage⟩
  · rw [h]
  · rw [h]
  · rw [h]
    exact decide_eq_true hstage

/-- The skews and the thresholds that follow the readings leave the sensors' registers. -/
theorem afterReadings_rd {f : Fld} (hf : f ∈ [Fld.AON_TDEM_BUSY, .AON_TEMP_T, .AON_TEMP_VALID]) (d : Dev) (b : Bool) (i j : Nat) :
    (if (if b then d.compensate else d).temp.sample then (if b then d.compensate else d).sampleTemp else (if b then d.compensate else d)).rd f i j = d.rd f i j := by
  have hsample : ∀ e : Dev, e.sampleTemp.rd f i j = e.rd f i j := fun e => by
    simp only [List.mem_cons, List.not_mem_nil, or_false] at hf
    rcases hf with rfl | rfl | rfl <;> exact (Dev.sampleTemp_only e).rd _ _ _ (by decide)
  have hskew : ∀ e : Dev, e.compensate.rd f i j = e.rd f i j := fun e => by
    simp only [List.mem_cons, List.not_mem_nil, or_false] at hf
    rcases hf with rfl | rfl | rfl <;> exact (Dev.compensate_only e).rd _ _ _ (by decide)
  have hb : (if b then d.compensate else d).rd f i j = d.rd f i j := by
    split
    · exact hskew d
    · rfl
  generalize (if b then d.compensate else d) = e at hb
  split
  · exact (hsample e).trans hb
  · exact hb

theorem converted_rd {f : Fld} (hf : f ∈ [Fld.AON_TDEM_BUSY, .AON_TEMP_T, .AON_TEMP_VALID]) (d : Dev) (readings : List U16) (i j : Nat) :
    (d.converted readings).rd f i j = ((d.forEach (readings.zipIdx) (fun e r =>
      if bitOf (d.rd .AON_TDEM_BUSY) r.2 then (e.wr .AON_TEMP_T r.1.toNat r.2).wr .AON_TEMP_VALID 1 r.2 else e)).wr .AON_TDEM_BUSY 0).rd f i j :=
  afterReadings_rd hf _ _ i j

theorem tempConversionDone_gives (readings : List U16) (s : State) : Gives (.tempConversionDone readings) s fun t =>
    t.dev.rd .AON_TDEM_BUSY = 0 ∧
    ∀ k (h : k < readings.length), k < 10 →
      (bitOf (s.dev.rd .AON_TDEM_BUSY) k = true → t.dev.rd .AON_TEMP_T k = (readings[k]).toNat ∧ t.dev.rd .AON_TEMP_VALID k = 1) ∧
      (bitOf (s.dev.rd .AON_TDEM_BUSY) k = false →
        t.dev.rd .AON_TEMP_T k = s.dev.rd .AON_TEMP_T k ∧ t.dev.rd .AON_TEMP_VALID k = s.dev.rd .AON_TEMP_VALID k) := by
  refine gives_act (show exec (.tempConversionDone readings) s = s.act (·.converted (readings.take 10)) from rfl) ?_
  dsimp only
  refine ⟨(converted_rd (by decide) _ _ _ _).trans (rd_wr_self _ _ _ _ _ (by decide)), fun k h hk => ?_⟩
  obtain ⟨htemp, hvalid⟩ := conv_each (readings.take 10) (s.dev.rd .AON_TDEM_BUSY) 0 s.dev k
  have hlen : k < (readings.take 10).length := by rw [List.length_take]; omega
  rw [converted_rd (by decide), converted_rd (by decide), Dev.rd_wr, Dev.rd_wr, if_neg (by simp), if_neg (by simp), htemp, hvalid]
  refine ⟨fun hbusy => ?_, fun hidle => ?_⟩
  · rw [dif_pos ⟨Nat.zero_le k, by simpa using hlen, hbusy⟩, if_pos ⟨Nat.zero_le k, by simpa using hlen, hbusy⟩]
    exact ⟨by simp, rfl⟩
  · rw [dif_neg (fun hc => by rw [hidle] at hc; exact absurd hc.2.2 (by decide)), if_neg (fun hc => by rw [hidle] at hc; exact absurd hc.2.2 (by decide))]
    exact ⟨rfl, rfl⟩

/-- Settles O11. -/
theorem sensorsConvertOnDemand : Obligations.SensorsConvertOnDemand := by
  unfold Obligations.SensorsConvertOnDemand
  refine ⟨fun s h => gives_fn (show exec .hkTempDemand s = execHkTempDemand s from rfl) (if_pos (hkDemands_of h)) (demandAll_st s.dev), fun lvl mask s hR => ?_,
    tempConversionDone_gives⟩
  exact reaches_act hR rfl ((Dev.rd_wr _ _ _ _ _ _ _ _).trans (if_pos ⟨rfl, rfl, rfl⟩))

/-! ### The end of an epoch (12, R289, R292, R293) -/

/-- Every field but those listed. -/
def fieldsBut (fs : List Fld) : Nat := (2 ^ 599 - 1) ^^^ fieldsMask fs

/-- What an epoch shows of its means and its count. -/
def epochFields : List Fld := [.AB_EPOCH_N, .AB_PIN_PWR, .AB_PIN_VIN]

/-- The count and the means of an epoch. -/
def Dev.epochShown (d : Dev) (pwr vin : Nat) : Dev := ((d.incWrap .AB_EPOCH_N).wr .AB_PIN_PWR pwr).wr .AB_PIN_VIN vin

/-- What precedes the ladder. -/
def Dev.epochMeasured (d : Dev) : Dev := d.refreshSpeed.refreshLead.firePower.throttleStep

/-- What follows the ladder, up to the demand. -/
def Dev.epochLimited (d : Dev) : Dev := ((d.forEach (d.bars.map (·.bar)) Dev.hpStep).setLeads.ceiling).clearUnderrun

theorem epoch_eq (d : Dev) (pwr vin : Nat) : d.epoch pwr vin = (((d.epochShown pwr vin).epochMeasured.ladder pwr).epochLimited).demandAll := rfl

theorem epochMeasured_only (d : Dev) : Dev.Only (2 ^ 599 - 1) (fieldsBut (.AB_LADDER_STEP :: epochFields)) d d.epochMeasured :=
  ((((Dev.refreshSpeed_only d).mono rfl rfl).trans ((Dev.refreshLead_only _).mono rfl rfl)).trans ((Dev.firePower_only _).mono rfl rfl)).trans
    ((Dev.throttleStep_only _).mono rfl rfl)

theorem epochLimited_only (d : Dev) : Dev.Only (2 ^ 599 - 1) (fieldsBut (.AB_LADDER_STEP :: epochFields)) d d.epochLimited :=
  (((forEach_only _ d _ fun e k => (Dev.hpStep_only e k).mono rfl rfl).trans ((Dev.setLeads_only _).mono rfl rfl)).trans ((Dev.ceiling_only _).mono rfl rfl)).trans
    ((Dev.clearUnderrun_only _).mono rfl rfl)

theorem epochShown_rd (d : Dev) (pwr vin : U16) : (d.epochShown pwr.toNat vin.toNat).rd .AB_EPOCH_N = (d.rd .AB_EPOCH_N + 1) % 2 ^ 32 ∧
    (d.epochShown pwr.toNat vin.toNat).rd .AB_PIN_PWR = pwr.toNat ∧ (d.epochShown pwr.toNat vin.toNat).rd .AB_PIN_VIN = vin.toNat ∧
    (d.epochShown pwr.toNat vin.toNat).rd .AB_LADDER_STEP = d.rd .AB_LADDER_STEP := by
  unfold Dev.epochShown Dev.incWrap
  refine ⟨?_, ?_, rd_wr_self _ _ _ _ _ vin.isLt, ?_⟩
  · rw [Dev.rd_wr, if_neg (by decide), Dev.rd_wr, if_neg (by decide), Dev.rd_wr, if_pos ⟨rfl, rfl, rfl⟩]
    rfl
  · rw [Dev.rd_wr, if_neg (by decide)]
    exact rd_wr_self _ _ _ _ _ pwr.isLt
  · rw [Dev.rd_wr, if_neg (by decide), Dev.rd_wr, if_neg (by decide), Dev.rd_wr, if_neg (by decide)]

theorem epoch_shows (d : Dev) (pwr vin : U16) : (d.epoch pwr.toNat vin.toNat).rd .AB_EPOCH_N = (d.rd .AB_EPOCH_N + 1) % 2 ^ 32 ∧
    (d.epoch pwr.toNat vin.toNat).rd .AB_PIN_PWR = pwr.toNat ∧ (d.epoch pwr.toNat vin.toNat).rd .AB_PIN_VIN = vin.toNat := by
  obtain ⟨hcount, hpwr, hvin, _⟩ := epochShown_rd d pwr vin
  rw [epoch_eq]
  generalize d.epochShown pwr.toNat vin.toNat = e at hcount hpwr hvin
  have hall : Dev.Only (2 ^ 599 - 1) (fieldsBut epochFields) e (((e.epochMeasured.ladder pwr.toNat).epochLimited).demandAll) :=
    (((epochMeasured_only e).mono rfl rfl).trans ((Dev.ladder_only _ _).mono rfl rfl)).trans
      (((epochLimited_only _).mono rfl rfl).trans ((Dev.demandAll_only _).mono rfl rfl))
  exact ⟨(hall.rd _ _ _ (by decide)).trans hcount, (hall.rd _ _ _ (by decide)).trans hpwr, (hall.rd _ _ _ (by decide)).trans hvin⟩

theorem epoch_step (d : Dev) (pwr vin : U16) (h : d.rd .AB_LADDER_STEP ≤ 6) : (d.epoch pwr.toNat vin.toNat).rd .AB_LADDER_STEP ≤ 6 ∧
    (d.epoch pwr.toNat vin.toNat).rd .AB_LADDER_STEP ≤ d.rd .AB_LADDER_STEP + 1 ∧
    d.rd .AB_LADDER_STEP ≤ (d.epoch pwr.toNat vin.toNat).rd .AB_LADDER_STEP + 1 := by
  obtain ⟨_, _, _, hshown⟩ := epochShown_rd d pwr vin
  rw [epoch_eq]
  generalize d.epochShown pwr.toNat vin.toNat = e at hshown
  have hbefore : e.epochMeasured.rd .AB_LADDER_STEP = d.rd .AB_LADDER_STEP := ((epochMeasured_only e).rd _ _ _ (by decide)).trans hshown
  have hafter : ((e.epochMeasured.ladder pwr.toNat).epochLimited.demandAll).rd .AB_LADDER_STEP = (e.epochMeasured.ladder pwr.toNat).rd .AB_LADDER_STEP :=
    ((Dev.demandAll_only _).rd _ _ _ (by decide)).trans ((epochLimited_only _).rd _ _ _ (by decide))
  rw [hafter, ← hbefore]
  exact ladder_step _ _ (by rw [hbefore]; exact h)

theorem epochOver_of {d : Dev} (h : 1024 ≤ d.aba.lines ∨ d.aba.since + 10000000 ≤ d.now) : d.epochOver = true := by
  unfold Dev.epochOver Dev.passed
  simpa using h

theorem epochOver_not {d : Dev} (h : d.aba.lines < 1024 ∧ d.now < d.aba.since + 10000000) : d.epochOver = false := by
  unfold Dev.epochOver Dev.passed
  simpa using h

/-- Settles O13. -/
theorem epochEndTakesEffect : Obligations.EpochEndTakesEffect := by
  unfold Obligations.EpochEndTakesEffect
  refine ⟨fun pwr vin s hst hrun hover => ?_, fun pwr vin s hnot => ?_⟩
  · refine gives_fn (show exec (.epochEnd pwr vin) s = execEpochEnd pwr vin s from rfl) (if_pos (by rw [hst, hrun, epochOver_of hover]; rfl)) ?_
    obtain ⟨hcount, hpwr, hvin⟩ := epoch_shows s.dev pwr vin
    obtain ⟨hbusy, hsample⟩ := demandAll_st (((s.dev.epochShown pwr.toNat vin.toNat).epochMeasured.ladder pwr.toNat).epochLimited)
    exact ⟨hcount, hpwr, hvin, hbusy, hsample, epoch_step s.dev pwr vin⟩
  · refine gives_fn (show exec (.epochEnd pwr vin) s = execEpochEnd pwr vin s from rfl) (g := s.dev) (if_neg ?_) rfl
    rcases hnot with h | h
    · rw [h]
      simp
    · rw [epochOver_not h]
      simp

end Sys2Proof.Machine

/-! The boot timeline: each step after the one before it, and the boots that cannot go on (O14, O15). -/
namespace Sys2Proof.Machine
set_option exponentiation.threshold 600

/-! ### The Crown header read -/

theorem bootFail_only (d : Dev) (c t : Nat) : Dev.Only 0 (fieldsMask [.CR_STAT_FAILREC, .CR_STAT_FAILCHK]) d (d.bootFail c t) :=
  Dev.Only.wr _ _ _ _ (by decide) (Dev.Only.wr _ _ _ _ (by decide) (Dev.Only.refl _ _ _))

/-- The choice between the primary image and the backup, with the restart for the backup image used up. -/
def Dev.firstHeader (d : Dev) : Nat × Dev :=
  if d.flag .CR_BOOTSEL_BACKUP then (1, d.wr .CR_BOOTSEL_BACKUP 0)
  else match d.hdrCheck 0 with
    | .ok => (0, d.wr .CR_BOOTSEL_BACKUP 0)
    | c => (1, (d.wr .CR_BOOTSEL_BACKUP 0).bootFail c.code 0)

/-- The backup image stands where its header passes. -/
def lastHeader (p : Nat × Dev) : Nat × Dev :=
  if p.1 = 0 then (0, p.2)
  else match p.2.hdrCheck 1 with
    | .ok => (1, p.2)
    | c => (2, p.2.bootFail c.code 0)

theorem pickImage_eq (d : Dev) : d.pickImage = lastHeader d.firstHeader := rfl

theorem bootFail_backup {d : Dev} (h : d.rd .CR_BOOTSEL_BACKUP = 0) (c : Nat) : (d.bootFail c 0).rd .CR_BOOTSEL_BACKUP = 0 :=
  ((bootFail_only d c 0).rd _ _ _ (by decide)).trans h

theorem firstHeader_st (d : Dev) : d.firstHeader.2.rd .CR_BOOTSEL_BACKUP = 0 ∧
    (d.flag .CR_BOOTSEL_BACKUP = false → d.hdrCheck 0 = .ok → d.firstHeader.1 = 0) := by
  have hzero : (d.wr .CR_BOOTSEL_BACKUP 0).rd .CR_BOOTSEL_BACKUP = 0 := rd_wr_self _ _ _ _ _ (by decide)
  unfold Dev.firstHeader
  generalize d.wr .CR_BOOTSEL_BACKUP 0 = e at hzero
  split
  next hb => exact ⟨hzero, fun hf => by rw [hf] at hb; cases hb⟩
  · split
    · exact ⟨hzero, fun _ _ => rfl⟩
    next hcheck => exact ⟨bootFail_backup hzero _, fun _ hok => absurd hok hcheck⟩

theorem lastHeader_st {p : Nat × Dev} (h : p.2.rd .CR_BOOTSEL_BACKUP = 0) : (lastHeader p).1 ≤ 2 ∧ (lastHeader p).2.rd .CR_BOOTSEL_BACKUP = 0 ∧
    (p.1 = 0 → (lastHeader p).1 = 0) := by
  unfold lastHeader
  split
  · exact ⟨Nat.zero_le 2, h, fun _ => rfl⟩
  next hp =>
    split
    · exact ⟨by omega, h, fun h0 => absurd h0 hp⟩
    · exact ⟨Nat.le_refl 2, bootFail_backup h _, fun h0 => absurd h0 hp⟩

/-- The image is one of the two or none, and the restart for the backup image is used up. -/
theorem pickImage_st (d : Dev) : d.pickImage.1 ≤ 2 ∧ d.pickImage.2.rd .CR_BOOTSEL_BACKUP = 0 ∧
    (d.flag .CR_BOOTSEL_BACKUP = false → d.hdrCheck 0 = .ok → d.pickImage.1 = 0) := by
  obtain ⟨hbackup, hfirst⟩ := firstHeader_st d
  obtain ⟨hle, hlast, hzero⟩ := lastHeader_st hbackup
  rw [pickImage_eq]
  exact ⟨hle, hlast, fun hf hc => hzero (hfirst hf hc)⟩

theorem startHref_href (d : Dev) : d.startHref.pins.href = true := by
  unfold Dev.startHref
  split
  next h => exact h
  · rfl

theorem headerRead_st (d : Dev) (mode sck : Nat) : (d.headerRead mode sck).pins.href = true ∧ (d.headerRead mode sck).rd .CR_BOOTSEL_BACKUP = 0 ∧
    (d.headerRead mode sck).rd .CR_STAT_IMG = d.pickImage.1 := by
  obtain ⟨himg, hbackup, _⟩ := pickImage_st d
  unfold Dev.headerRead
  generalize d.pickImage = q at himg hbackup
  obtain ⟨img, p⟩ := q
  dsimp only at himg hbackup ⊢
  generalize hh : (p.wr .CR_STAT_IMG img).startHref = e
  have hhref : e.pins.href = true := by
    rw [← hh]
    exact startHref_href _
  have hb : e.rd .CR_BOOTSEL_BACKUP = 0 := by
    rw [← hh, (Dev.startHref_only _).rd _ _ _ (by decide), Dev.rd_wr, if_neg (by decide)]
    exact hbackup
  have hi : e.rd .CR_STAT_IMG = img := by
    rw [← hh, (Dev.startHref_only _).rd _ _ _ (by decide)]
    exact rd_wr_self _ _ _ _ _ (Nat.lt_of_le_of_lt himg (by decide))
  split
  · exact ⟨hhref, hb, hi⟩
  · refine ⟨hhref, ?_, ?_⟩
    · exact (rf_rd _ _ rfl _ _ _).trans ((by simp [Dev.rd_wr] : _ = e.rd .CR_BOOTSEL_BACKUP).trans hb)
    · exact (rf_rd _ _ rfl _ _ _).trans ((by simp [Dev.rd_wr] : _ = e.rd .CR_STAT_IMG).trans hi)

theorem crownHeaderRead_gives {mode sck : Byte} {s : State} (h : s.dev.bootAt .powerGood = true) : Gives (.crownHeaderRead mode sck) s fun t =>
    t.dev.bootAt .headerRead = true ∧ t.dev.pins.href = true ∧ t.dev.rd .CR_BOOTSEL_BACKUP = 0 ∧ t.dev.rd .CR_STAT_IMG ≤ 2 ∧
      (s.dev.flag .CR_BOOTSEL_BACKUP = false → s.dev.hdrCheck 0 = .ok → t.dev.rd .CR_STAT_IMG = 0) := by
  refine gives_fn (show exec (.crownHeaderRead mode sck) s = execCrownHeaderRead mode sck s from rfl) (if_pos h) ?_
  have hkept : Kst s.dev (s.dev.headerRead mode.toNat sck.toNat) := Kst.of (Dev.headerRead_only _ _ _) (by decide)
  obtain ⟨hhref, hbackup, himg⟩ := headerRead_st s.dev mode.toNat sck.toNat
  obtain ⟨hle, _, hpick⟩ := pickImage_st s.dev
  exact ⟨bootAt_step hkept (bootAt_iff h).1, hhref, hbackup, himg.trans_le hle, fun hf hc => himg.trans (hpick hf hc)⟩

/-! ### The first pass -/

theorem firstPass_passes {d : Dev} {k : Nat} (h : d.rd .CR_STAT_IMG < 2) (hok : d.imgCheck (d.rd .CR_STAT_IMG) = (.ok, k)) :
    d.firstPass = (d.rd .CR_STAT_IMG, d) := by
  unfold Dev.firstPass
  dsimp only
  rw [if_neg (by omega), hok]

theorem firstPass_none {d : Dev} (h : d.rd .CR_STAT_IMG = 2) : d.firstPass = (2, d) := by
  unfold Dev.firstPass
  dsimp only
  rw [if_pos (by omega)]

theorem useImage_st (d : Dev) (c : CrownContent) {img : Nat} (h : img < 2) : (d.useImage img c).boot.content = some c ∧
    (d.useImage img c).boot.stage = d.boot.stage ∧ (d.useImage img c).rd .CR_STAT_IMG = img ∧ Kst d (d.useImage img c) := by
  refine ⟨?_, ?_, ?_, Kst.of (Dev.useImage_only d img c) (by decide)⟩ <;> unfold Dev.useImage <;> dsimp only
  · rw [show (Dev.bootRecord _ _ _).boot = _ from (Dev.bootRecord_only _ _ _).parts .boot (by decide), show (Dev.openLog _ _).boot = _ from (Dev.openLog_only _ _).parts .boot (by decide)]
    rfl
  · rw [show (Dev.bootRecord _ _ _).boot = _ from (Dev.bootRecord_only _ _ _).parts .boot (by decide), show (Dev.openLog _ _).boot = _ from (Dev.openLog_only _ _).parts .boot (by decide)]
    rfl
  · rw [(Dev.bootRecord_only _ _ _).rd _ _ _ (by decide), (Dev.openLog_only _ _).rd _ _ _ (by decide), Dev.rd_wr, if_neg (by decide), Dev.rd_wr, if_neg (by decide)]
    exact rd_wr_self _ _ _ _ _ (Nat.lt_trans h (by decide))

theorem uncleared_only {c r : Nat} {d e : Dev} (h : Dev.Only c r d e) (hn : c.testBit (Part.ctorIdx .nor) = false)
    (hs : r.testBit (Fld.ctorIdx .CR_LOG_BASE_SECT) = false) (hc : r.testBit (Fld.ctorIdx .CR_LOG_BASE_COUNT) = false) : e.uncleared = d.uncleared := by
  have hnor : e.nor = d.nor := h.parts .nor hn
  unfold Dev.uncleared Dev.logRecs Dev.logArea
  rw [hnor, h.rd _ _ _ hs, h.rd _ _ _ hc]

theorem bootSafe_st (d : Dev) (why : SafeCause) : (d.bootSafe why).st = .safe ∧ (d.bootSafe why).boot.stage = d.boot.stage ∧
    (d.bootSafe why).boot.content = d.boot.content ∧ (d.bootSafe why).rd .CR_STAT_IMG = d.rd .CR_STAT_IMG ∧ (d.bootSafe why).uncleared = d.uncleared := by
  refine ⟨enter_st _ _, ?_, ?_, (Dev.bootSafe_only d why).rd _ _ _ (by decide), uncleared_only (Dev.bootSafe_only d why) (by decide) (by decide) (by decide)⟩ <;>
    unfold Dev.bootSafe <;> dsimp only <;> rw [Dev.enter_boot]

/-- An entry list that does not restart the module keeps the state, the stage and the content. -/
theorem applyRegs_kept {es : List (Nat × Nat)} {s : State} (h : NoRestart es) : Kst s.dev (s.applyRegs es).dev ∧
    (s.applyRegs es).dev.boot.stage = s.dev.boot.stage ∧ (s.applyRegs es).dev.boot.content = s.dev.boot.content ∧
    (s.applyRegs es).dev.rd .CR_STAT_IMG = s.dev.rd .CR_STAT_IMG := by
  obtain ⟨honly, p, hboot⟩ := applyRegs_but es s h
  exact ⟨Kst.of honly (by decide), by rw [hboot], by rw [hboot], honly.rd _ _ _ (by decide)⟩

/-- The device after the entries of the 300 ms step: SAFE where a shutdown record stands uncleared. -/
def State.recordSafe (s : State) : State :=
  if s.dev.boot.stage = .firstPass && s.dev.uncleared.isSome then { s with dev := s.dev.bootSafe .record } else s

theorem recordSafe_st {s : State} (hb : s.dev.st = .boot) (hstage : s.dev.boot.stage = .firstPass) : s.recordSafe.dev.boot.stage = .firstPass ∧
    s.recordSafe.dev.boot.content = s.dev.boot.content ∧ s.recordSafe.dev.rd .CR_STAT_IMG = s.dev.rd .CR_STAT_IMG ∧
    (s.recordSafe.dev.uncleared.isSome = true → s.recordSafe.dev.st = .safe) ∧ (s.recordSafe.dev.uncleared = none → s.recordSafe.dev.st = .boot) := by
  cases hu : s.dev.uncleared.isSome with
  | true =>
    have heq : s.recordSafe = { s with dev := s.dev.bootSafe .record } := if_pos (by rw [hstage, hu]; decide)
    obtain ⟨bst, bstage, bcontent, bimg, bunc⟩ := bootSafe_st s.dev .record
    rw [heq]
    refine ⟨bstage.trans hstage, bcontent, bimg, fun _ => bst, fun hnone => ?_⟩
    rw [← bunc, hnone] at hu
    cases hu
  | false =>
    have heq : s.recordSafe = s := if_neg (by rw [hu]; simp)
    rw [heq]
    exact ⟨hstage, rfl, rfl, fun hsome => absurd (hsome.symm.trans hu) (by decide), fun _ => hb⟩

theorem firstPassOk_eq (s : State) (img : Nat) (c : CrownContent) (u : State)
    (hu : u = ({ s with dev := s.dev.useImage img c }).applyRegs ((s.dev.regsOf img).filter early ++ c.net)) :
    s.firstPassOk img c = State.recordSafe { u with dev := u.dev.linksUp } := by rw [hu]; rfl

theorem firstPassOk_st {s : State} {img : Nat} {c : CrownContent} (himg : img < 2) (hb : s.dev.st = .boot) (hstage : s.dev.boot.stage = .firstPass)
    (hn : NoRestart ((s.dev.regsOf img).filter early ++ c.net)) :
    (s.firstPassOk img c).dev.boot.stage = .firstPass ∧ (s.firstPassOk img c).dev.boot.content = some c ∧ (s.firstPassOk img c).dev.rd .CR_STAT_IMG = img ∧
      ((s.firstPassOk img c).dev.uncleared.isSome = true → (s.firstPassOk img c).dev.st = .safe) ∧
      ((s.firstPassOk img c).dev.uncleared = none → (s.firstPassOk img c).dev.st = .boot) := by
  obtain ⟨hcontent, hstage', himg', hkst⟩ := useImage_st s.dev c himg
  obtain ⟨akst, astage, acontent, aimg⟩ := applyRegs_kept (s := { s with dev := s.dev.useImage img c }) hn
  dsimp only at akst astage acontent aimg
  have heq := firstPassOk_eq s img c _ rfl
  generalize ({ s with dev := s.dev.useImage img c } : State).applyRegs ((s.dev.regsOf img).filter early ++ c.net) = u at akst astage acontent aimg heq
  have hlinks := Dev.linksUp_only u.dev
  have lboot : u.dev.linksUp.boot = u.dev.boot := hlinks.parts .boot (by decide)
  have lst : u.dev.linksUp.st = .boot := ((hkst.trans akst).trans (Kst.of hlinks (by decide))).st.trans hb
  have lstage : u.dev.linksUp.boot.stage = .firstPass := by
    rw [lboot, astage]
    exact hstage'.trans hstage
  obtain ⟨rstage, rcontent, rimg, rsafe, rboot⟩ := recordSafe_st (s := { u with dev := u.dev.linksUp }) lst lstage
  rw [heq]
  exact ⟨rstage, rcontent.trans ((congrArg Boot.content lboot).trans (acontent.trans hcontent)),
    rimg.trans ((hlinks.rd _ _ _ (by decide)).trans (aimg.trans himg')), rsafe, rboot⟩

theorem crownFirstPass_gives {primary backup : CrownContent} {k : Nat} {s : State} (h : s.dev.bootAt .headerRead = true) (himg : s.dev.rd .CR_STAT_IMG < 2)
    (hok : s.dev.imgCheck (s.dev.rd .CR_STAT_IMG) = (.ok, k))
    (hn : NoRestart ((s.dev.regsOf (s.dev.rd .CR_STAT_IMG)).filter early ++ (if s.dev.rd .CR_STAT_IMG = 0 then primary else backup).net)) :
    Gives (.crownFirstPass primary backup) s fun t =>
      t.dev.boot.stage = .firstPass ∧ t.dev.boot.content = some (if s.dev.rd .CR_STAT_IMG = 0 then primary else backup) ∧
        t.dev.rd .CR_STAT_IMG = s.dev.rd .CR_STAT_IMG ∧
        (t.dev.uncleared.isSome = true → t.dev.st = .safe) ∧ (t.dev.uncleared = none → t.dev.st = .boot) := by
  refine gives_next (t := s.crownFirstPass primary backup) (congrArg Host.Outcome.next (if_pos h)) ?_
  have hregs := firstPass_regsOf s.dev (s.dev.rd .CR_STAT_IMG) (s.dev.rd .CR_STAT_IMG)
  unfold State.crownFirstPass
  rw [firstPass_passes himg hok] at hregs ⊢
  dsimp only at hregs ⊢
  rw [if_neg (by omega)]
  have hup : Kst s.dev ((s.dev.wr .CR_STAT_IMG (s.dev.rd .CR_STAT_IMG)).powerEarly.stepTo .firstPass) :=
    Kst.of (((Dev.Only.wr .CR_STAT_IMG (s.dev.rd .CR_STAT_IMG) 0 0 (by decide) (Dev.Only.refl 0x10 (0x200000 ||| fieldsMask [.CR_STAT_IMG]) s.dev)).trans
      ((Dev.powerEarly_only _).mono rfl rfl)).trans ((Dev.stepTo_only _ _).mono rfl rfl)) (by decide)
  refine firstPassOk_st himg ((hup.st).trans (bootAt_iff h).1) rfl ?_
  dsimp only
  rw [hregs]
  exact hn

/-! ### DRAM training -/

/-- The eyes of the training as the registers show them. -/
def Dev.eyesShown (d : Dev) (eyes : List (Byte × Byte)) : Dev :=
  d.forEach (eyes.zipIdx) (fun d e =>
    let (c, point, l) := eyePlace e.2
    if point = d.rd .MEM_CTL_CUR then ((d.wr .MEM_EYE_RD e.1.1.toNat c l).wr .MEM_EYE_WR e.1.2.toNat c l).wr .MEM_EYE_STALE 0 c l
    else d)

theorem eyesShown_only (d : Dev) (eyes : List (Byte × Byte)) : Dev.Only 0 (fieldsMask [.MEM_EYE_RD, .MEM_EYE_WR, .MEM_EYE_STALE]) d (d.eyesShown eyes) := by
  refine forEach_only _ _ _ fun e x => ?_
  dsimp only
  split
  · exact Dev.Only.wr _ _ _ _ (by decide) (Dev.Only.wr _ _ _ _ (by decide) (Dev.Only.wr _ _ _ _ (by decide) (Dev.Only.refl _ _ _)))
  · exact Dev.Only.refl _ _ _

/-- The first eye below EYEMIN. -/
def Dev.weakEye (d : Dev) (eyes : List (Byte × Byte)) : Option ((Byte × Byte) × Nat) :=
  eyes.zipIdx.find? (fun e => decide (min e.1.1.toNat e.1.2.toNat < d.rd .MEM_EYEMIN_TAPS))

theorem weakEye_none {d : Dev} {eyes : List (Byte × Byte)} (h : ∀ e ∈ eyes, d.rd .MEM_EYEMIN_TAPS ≤ min e.1.toNat e.2.toNat) : d.weakEye eyes = none := by
  unfold Dev.weakEye
  rw [List.find?_eq_none]
  intro e he
  have := h e.1 (List.fst_mem_of_mem_zipIdx he)
  simpa using this

theorem weakEye_some {d : Dev} {eyes : List (Byte × Byte)} (h : ∃ e ∈ eyes, min e.1.toNat e.2.toNat < d.rd .MEM_EYEMIN_TAPS) :
    ∃ x, d.weakEye eyes = some x := by
  obtain ⟨e, he, hlow⟩ := h
  obtain ⟨n, hn, hget⟩ := List.getElem_of_mem he
  refine Option.isSome_iff_exists.mp ?_
  unfold Dev.weakEye
  rw [List.find?_isSome]
  exact ⟨(e, n), List.mk_mem_zipIdx_iff_getElem?.mpr (by rw [List.getElem?_eq_getElem hn, hget]), decide_eq_true hlow⟩

/-- What `MEM_TRAIN_FAIL` says of eye n: channel, lane, point. -/
def eyeData (n : Nat) : List Byte := le 1 (eyePlace n).1 ++ le 1 (eyePlace n).2.2 ++ le 1 (eyePlace n).2.1

theorem train_eq (d : Dev) (eyes : List (Byte × Byte)) : d.train eyes =
    match (d.eyesShown eyes).weakEye eyes with
    | some e => (d.eyesShown eyes).raiseFatal 3 Ev.MEM_TRAIN_FAIL (eyeData e.2)
    | none => (((d.eyesShown eyes).wr .MEM_CH_STAT_STATE 2 0).wr .MEM_CH_STAT_STATE 2 1).stepTo .dramTrained := rfl

theorem eyesShown_weakEye (d : Dev) (eyes l : List (Byte × Byte)) : (d.eyesShown eyes).weakEye l = d.weakEye l := by
  unfold Dev.weakEye
  rw [(eyesShown_only d eyes).rd _ _ _ (by decide)]

theorem train_ready {d : Dev} {eyes : List (Byte × Byte)} (h : d.weakEye eyes = none) :
    d.train eyes = (((d.eyesShown eyes).wr .MEM_CH_STAT_STATE 2 0).wr .MEM_CH_STAT_STATE 2 1).stepTo .dramTrained := by
  rw [train_eq, eyesShown_weakEye, h]

theorem train_fails {d : Dev} {eyes : List (Byte × Byte)} {x : (Byte × Byte) × Nat} (h : d.weakEye eyes = some x) :
    d.train eyes = (d.eyesShown eyes).raiseFatal 3 Ev.MEM_TRAIN_FAIL (eyeData x.2) := by
  rw [train_eq, eyesShown_weakEye, h]

theorem dramTraining_gives {eyes : List (Byte × Byte)} {s : State} (h : s.dev.bootAt .firstPass = true)
    (heyes : ∀ e ∈ eyes.take 40, s.dev.rd .MEM_EYEMIN_TAPS ≤ min e.1.toNat e.2.toNat) : Gives (.dramTraining eyes) s fun t =>
      t.dev.bootAt .dramTrained = true ∧ t.dev.rd .MEM_CH_STAT_STATE 0 = 2 ∧ t.dev.rd .MEM_CH_STAT_STATE 1 = 2 := by
  refine gives_fn (show exec (.dramTraining eyes) s = execDramTraining eyes s from rfl) ((if_pos h).trans (train_ready (weakEye_none heyes))) ?_
  have hkept : Kst s.dev (((s.dev.eyesShown (eyes.take 40)).wr .MEM_CH_STAT_STATE 2 0).wr .MEM_CH_STAT_STATE 2 1) :=
    Kst.of (Dev.Only.wr _ _ _ _ (by decide) (Dev.Only.wr _ _ _ _ (by decide)
      ((eyesShown_only s.dev (eyes.take 40)).mono (c' := 0) (r' := fieldsMask [.MEM_EYE_RD, .MEM_EYE_WR, .MEM_EYE_STALE, .MEM_CH_STAT_STATE]) rfl rfl))) (by decide)
  refine ⟨bootAt_step hkept (bootAt_iff h).1, ?_, ?_⟩
  · dsimp only
    rw [stepTo_rd, Dev.rd_wr, if_neg (by decide)]
    exact rd_wr_self _ _ _ _ _ (by decide)
  · exact rd_wr_self _ .MEM_CH_STAT_STATE 2 1 0 (by decide)

/-! ### Second pass and content check -/

theorem loadFw_fold_only (l : List CrownRec) (img : Nat) (s : State) :
    Dev.Only (partsMask [.boot, .dram]) (fieldsMask rmwFields) s.dev (l.foldl (fun s r => s.loadFw img r) s).dev :=
  (State.Only.foldl (c := partsMask [.boot, .dram]) (r := fieldsMask rmwFields) l (fun u r hu => hu.trans ((State.loadFw_only u img r).mono rfl rfl)) (.refl _ _ s)).dev

theorem secondPass_gives {s : State} (h : s.dev.bootAt .dramTrained = true) : Gives (.secondPass []) s fun t => t.dev.bootAt .secondPass = true := by
  refine gives_next (t := s.secondPass []) (congrArg Host.Outcome.next (if_pos h)) ?_
  have hnone : ∀ l : List CrownRec, l.find? (fun r => ([] : List Nat).elem r.type) = none := fun l => List.find?_eq_none.mpr (fun _ _ => by simp)
  unfold State.secondPass
  dsimp only
  rw [hnone]
  dsimp only
  exact bootAt_step (Kst.of (loadFw_fold_only _ _ s) (by decide)) (bootAt_iff h).1

/-- The device with HK, SV0 and SV1 running. -/
def Dev.svReleased (d : Dev) : Dev := { d with boot := { d.boot with running := [.hk, .sv0, .sv1] } }

/-- What the content check leads to by the record type that breaks a rule. -/
def State.contentResult (s : State) : Option Nat → State
  | none => { s with dev := s.dev.svReleased.setRegions.stepTo .contentChecked }
  | some t =>
    if s.dev.rd .CR_STAT_IMG = 0 then
      State.moduleReset { s with dev := (((s.dev.svReleased.bootFail CrownChk.content.code t).raise Ev.CROWN_FALLBACK
        (le 2 t ++ le 1 CrownChk.content.code)).wr .CR_BOOTSEL_BACKUP 1) } 3 .boot
    else { s with dev := s.dev.svReleased.crownInvalid CrownChk.content.code t }

theorem contentResult_primary {s : State} {t : Nat} (h : s.dev.rd .CR_STAT_IMG = 0) : s.contentResult (some t) =
    State.moduleReset { s with dev := (((s.dev.svReleased.bootFail CrownChk.content.code t).raise Ev.CROWN_FALLBACK
      (le 2 t ++ le 1 CrownChk.content.code)).wr .CR_BOOTSEL_BACKUP 1) } 3 .boot := if_pos h

theorem contentResult_backup {s : State} {t : Nat} (h : s.dev.rd .CR_STAT_IMG ≠ 0) :
    s.contentResult (some t) = { s with dev := s.dev.svReleased.crownInvalid CrownChk.content.code t } := if_neg h

theorem contentCheck_gives {c : CrownContent} {s : State} {bad : Option Nat} {p : State → Prop} (h : s.dev.bootAt .secondPass = true)
    (hc : s.dev.boot.content = some c)
    (hbad : contentBad ⟨s.dev.isA32, c, s.dev.regsOf (s.dev.rd .CR_STAT_IMG), settings c (s.dev.regsOf (s.dev.rd .CR_STAT_IMG))⟩ = bad)
    (hp : p (s.contentResult bad)) : Gives .contentCheck s p := by
  have heq : s.contentCheck = match s.dev.svReleased.boot.content with
      | none => s
      | some c => s.contentResult
          (contentBad ⟨s.dev.isA32, c, s.dev.regsOf (s.dev.rd .CR_STAT_IMG), settings c (s.dev.regsOf (s.dev.rd .CR_STAT_IMG))⟩) := by
    unfold State.contentCheck State.contentResult
    rfl
  rw [show s.dev.svReleased.boot.content = some c from hc] at heq
  dsimp only at heq
  rw [hbad] at heq
  exact gives_next (t := s.contentResult bad) ((congrArg Host.Outcome.next (if_pos h)).trans (congrArg Host.Outcome.next heq)) hp

theorem contentCheck_passes {c : CrownContent} {s : State} (h : s.dev.bootAt .secondPass = true) (hc : s.dev.boot.content = some c)
    (hok : contentBad ⟨s.dev.isA32, c, s.dev.regsOf (s.dev.rd .CR_STAT_IMG), settings c (s.dev.regsOf (s.dev.rd .CR_STAT_IMG))⟩ = none) :
    Gives .contentCheck s fun t => t.dev.bootAt .contentChecked = true ∧ t.dev.boot.running = [.hk, .sv0, .sv1] := by
  refine contentCheck_gives h hc hok ⟨bootAt_step (Kst.of (Dev.setRegions_only s.dev.svReleased) (by decide)) (bootAt_iff h).1, ?_⟩
  have hboot : s.dev.svReleased.setRegions.boot = s.dev.svReleased.boot := (Dev.setRegions_only s.dev.svReleased).parts .boot (by decide)
  dsimp only [State.contentResult]
  rw [stepTo_boot, hboot]
  rfl

/-! ### Release of the engines, rods, completion -/

theorem ringMaster_running (d : Dev) : d.ringMaster.ring.running = d.ring.running := by
  unfold Dev.ringMaster
  split
  · rfl
  · dsimp only
    split
    · split
      · rfl
      · rw [show (Dev.raise _ _ _).ring = _ from (Dev.raise_only _ _ _).parts .ring (by decide)]
        rfl
    · rfl

theorem setActive_count (d : Dev) : (d.setActive 0xFFFF).rd .RKC_ACTIVE_COUNT = 16 := by
  have hn : popcount 16 0xFFFF = 16 := by decide
  unfold Dev.setActive
  dsimp only
  rw [hn, if_neg (by simp), if_neg (by simp)]
  exact rd_wr_self _ _ _ _ _ (by decide)

/-- The engines that run after the release. -/
def allEngines : List Engine := [.hk, .sv0, .sv1, .cc0, .cc1, .vs] ++ (List.range 16).map Engine.rk

theorem allEngines_has (e : Engine) : allEngines.elem e = true ∨ ∃ n, e = .rk n ∧ 16 ≤ n := by
  cases e with
  | rk n =>
    rcases Nat.lt_or_ge n 16 with h | h
    · exact .inl (List.elem_iff.mpr (List.mem_append.mpr (.inr (List.mem_map.mpr ⟨n, List.mem_range.mpr h, rfl⟩))))
    · exact .inr ⟨n, rfl, h⟩
  | _ => exact .inl rfl

theorem release_st (d : Dev) : d.release.boot = { d.boot with running := allEngines } ∧ d.release.rd .RKC_ACTIVE_COUNT = 16 ∧ d.release.ring.running = true := by
  unfold Dev.release
  dsimp only
  generalize ha : ({ d with boot := { d.boot with running := [.hk, .sv0, .sv1, .cc0, .cc1, .vs] ++ (List.range 16).map Engine.rk } } : Dev).setActive 0xFFFF = a
  have hboot : a.boot = { d.boot with running := allEngines } := by
    rw [← ha]
    exact (Dev.setActive_only _ _).parts .boot (by decide)
  have hcount : a.rd .RKC_ACTIVE_COUNT = 16 := by
    rw [← ha]
    exact setActive_count _
  generalize hr : ({ a with ring := { a.ring with running := true } } : Dev) = r
  have hrun : r.ring.running = true := by rw [← hr]
  have hrboot : r.boot = a.boot := by rw [← hr]
  have hrcount : r.rd .RKC_ACTIVE_COUNT = 16 := by
    rw [← hr]
    exact hcount
  refine ⟨((Dev.ringMaster_only _).parts .boot (by decide)).trans (hrboot.trans hboot), ?_, (ringMaster_running _).trans hrun⟩
  rw [(Dev.ringMaster_only _).rd _ _ _ (by decide), (Dev.relays_only _).rd _ _ _ (by decide), Dev.rd_wr, if_neg (by decide)]
  exact hrcount

/-- The registers of the press that the 1.2 s step sets before its entries. -/
theorem pressSet_only (d : Dev) (all : List (Nat × Nat)) (c : CrownContent) :
    Dev.Only 0 (0x200000 ||| 0x140000000000000000000001000000000000024000000400000000000000000000380000000000000000000 |||
      0x20000000000000000000000000000000000000000000030000000000000000000000000000000000000000000000000000) d (((d.powerLate all).putGeometry c).putHeads c) :=
  (((Dev.powerLate_only d all).mono rfl rfl).trans ((Dev.putGeometry_only _ c).mono rfl rfl)).trans ((Dev.putHeads_only _ c).mono rfl rfl)

theorem engineRelease_gives {c : CrownContent} {s : State} (h : s.dev.bootAt .contentChecked = true) (hc : s.dev.boot.content = some c)
    (hn : NoRestart ((s.dev.regsOf (s.dev.rd .CR_STAT_IMG)).filter later ++ c.ring)) : Gives .engineRelease s fun t =>
      t.dev.bootAt .released = true ∧ (∀ e : Engine, t.dev.runs e = true ∨ ∃ n, e = .rk n ∧ 16 ≤ n) ∧
        t.dev.rd .RKC_ACTIVE_COUNT = 16 ∧ t.dev.ring.running = true := by
  obtain ⟨hst, hstage⟩ := bootAt_iff h
  refine gives_next (t := s.engineRelease) (congrArg Host.Outcome.next (if_pos h)) ?_
  unfold State.engineRelease
  rw [hc]
  dsimp only
  have hset := pressSet_only s.dev (settings c (s.dev.regsOf (s.dev.rd .CR_STAT_IMG))) c
  generalize Dev.putHeads _ c = d at hset
  obtain ⟨akst, astage, _, _⟩ := applyRegs_kept (s := { s with dev := d }) hn
  generalize State.applyRegs _ _ = u at akst astage
  have ustage : u.dev.boot.stage = .contentChecked := astage.trans ((congrArg Boot.stage (hset.parts .boot (by decide))).trans hstage)
  have ust : u.dev.st = .boot := ((Kst.of hset (by decide)).trans akst).st.trans hst
  obtain ⟨rboot, rcount, rring⟩ := release_st u.dev
  unfold State.afterRelease
  rw [if_pos ustage]
  refine ⟨bootAt_step (Kst.of (Dev.release_only u.dev) (by decide)) ust, fun e => ?_, rcount, rring⟩
  unfold Dev.runs
  dsimp only
  rw [stepTo_boot, rboot]
  exact allEngines_has e

theorem rodBuild_gives {s : State} (h : s.dev.bootAt .released = true) (hn : NoRestart ((s.dev.regsOf (s.dev.rd .CR_STAT_IMG)).filter forDpCfg)) :
    Gives .rodBuild s fun t => t.dev.bootAt .rodsBuilt = true := by
  obtain ⟨hst, hstage⟩ := bootAt_iff h
  refine gives_next (t := s.rodBuild) (congrArg Host.Outcome.next (if_pos h)) ?_
  unfold State.rodBuild
  dsimp only
  generalize (s.dev.boot.content.map (·.heads)).getD [] = heads
  have hbuilt := forEach_only heads s.dev (fun d (h : HeadCfg) => d.buildRods h.slot) fun d h => Dev.buildRods_only d h.slot
  generalize Dev.forEach _ _ _ = d at hbuilt ⊢
  have hstored : State.Only (partsMask [.dram]) (fieldsMask rmwFields) { s with dev := d } (heads.foldl (fun s h => s.storeBuilt h.slot) { s with dev := d }) :=
    State.Only.foldl _ (fun u h hu => hu.trans ((State.storeBuilt_only u h.slot).mono rfl rfl)) (.refl _ _ _)
  generalize List.foldl _ _ _ = u at hstored ⊢
  have hregs : u.dev.regsOf (u.dev.rd .CR_STAT_IMG) = s.dev.regsOf (s.dev.rd .CR_STAT_IMG) := by
    rw [(hstored.dev.rd .CR_STAT_IMG 0 0 (by decide)).trans (hbuilt.rd .CR_STAT_IMG 0 0 (by decide))]
    exact regsOf_nor ((hstored.dev.parts .nor (by decide)).trans (hbuilt.parts .nor (by decide))) _
  rw [hregs]
  obtain ⟨akst, astage, _, _⟩ := applyRegs_kept (s := u) hn
  generalize State.applyRegs _ _ = v at akst astage
  have vstage : v.dev.boot.stage = .released :=
    astage.trans ((congrArg Boot.stage (hstored.dev.parts .boot (by decide))).trans ((congrArg Boot.stage (hbuilt.parts .boot (by decide))).trans hstage))
  unfold State.afterRods
  rw [if_pos vstage]
  exact bootAt_step (((Kst.of hbuilt (by decide)).trans (Kst.of hstored.dev (by decide))).trans akst) hst

theorem bootComplete_gives {c : CrownContent} {s : State} (h : s.dev.bootAt .rodsBuilt = true) (hc : s.dev.boot.content = some c)
    (hn : NoRestart (c.cams.flatMap (fun x => x.2) ++ c.axes ++ c.abacus)) : Gives .bootComplete s fun t =>
      t.dev.st = .idle ∧ t.dev.pins.ready = true ∧ t.dev.boot.stage = .done := by
  refine gives_next (t := s.bootComplete) (congrArg Host.Outcome.next (if_pos h)) ?_
  unfold State.bootComplete
  rw [hc]
  dsimp only
  have htables := Dev.loadTables_only s.dev (leastSet c.curves) (leastSet c.screens)
  generalize s.dev.loadTables _ _ = d at htables
  obtain ⟨_, astage, _, _⟩ := applyRegs_kept (s := { s with dev := d }) hn
  generalize State.applyRegs _ _ = u at astage
  have ustage : u.dev.boot.stage = .rodsBuilt := astage.trans ((congrArg Boot.stage (htables.parts .boot (by decide))).trans (bootAt_iff h).2)
  unfold State.afterBoot
  rw [if_pos ustage]
  refine ⟨enter_st _ _, enter_ready _ _, ?_⟩
  dsimp only
  rw [Dev.enter_boot]
  rfl

/-- Settles O14: one lemma for each step of Table 16-1. -/
theorem bootTimelineAdvances : Obligations.BootTimelineAdvances := by
  unfold Obligations.BootTimelineAdvances
  exact ⟨fun mode sck s => crownHeaderRead_gives, fun primary backup k s => crownFirstPass_gives, fun eyes s => dramTraining_gives, fun s => secondPass_gives,
    fun c s => contentCheck_passes, fun c s => engineRelease_gives, fun s => rodBuild_gives, fun c s => bootComplete_gives⟩

/-! ### Failures -/

theorem crownInvalid_rd (d : Dev) (c t : Nat) : (d.crownInvalid c t).rd .CR_LOG_BASE_COUNT = d.rd .CR_LOG_BASE_COUNT ∧ (d.crownInvalid c t).rd .CR_STAT_FAILCHK = c % 2 ^ 4 := by
  refine ⟨(Dev.crownInvalid_only d c t).rd _ _ _ (by decide), ?_⟩
  unfold Dev.crownInvalid
  rw [(Dev.bootSafe_only _ _).rd _ _ _ (by decide), (Dev.raise_only _ _ _).rd _ _ _ (by decide)]
  exact (Dev.rd_wr _ _ _ _ _ _ _ _).trans (if_pos ⟨rfl, rfl, rfl⟩)

theorem crownFirstPass_invalid {primary backup : CrownContent} {s : State} (h : s.dev.bootAt .headerRead = true) (himg : s.dev.rd .CR_STAT_IMG = 2) :
    Gives (.crownFirstPass primary backup) s fun t =>
      t.dev.st = .safe ∧ t.dev.evPending Ev.CROWN_INVALID ∧ t.dev.rd .CR_LOG_BASE_COUNT = 0 ∧ t.dev.boot.running = [.hk] := by
  refine gives_next (t := s.crownFirstPass primary backup) (congrArg Host.Outcome.next (if_pos h)) ?_
  unfold State.crownFirstPass
  rw [firstPass_none himg]
  dsimp only
  rw [if_pos rfl]
  generalize hd : ((((s.dev.wr .CR_STAT_IMG 2).powerEarly.stepTo .firstPass).wr .CR_LOG_BASE_COUNT 0).wr .CR_LOG_BASE_SECT 0).wr .CR_BOOTCNT_N 0xFFFFFFFF = d
  have hcount : (d.wr .CR_PRES_LOCK 0).rd .CR_LOG_BASE_COUNT = 0 := by
    rw [← hd, Dev.rd_wr, if_neg (by decide), Dev.rd_wr, if_neg (by decide), Dev.rd_wr, if_neg (by decide)]
    exact rd_wr_self _ _ _ _ _ (by decide)
  obtain ⟨hst, hev, hrun⟩ := crownInvalid_st (d.wr .CR_PRES_LOCK 0) ((d.wr .CR_PRES_LOCK 0).rd .CR_STAT_FAILCHK) ((d.wr .CR_PRES_LOCK 0).rd .CR_STAT_FAILREC)
  have hlog := (crownInvalid_rd (d.wr .CR_PRES_LOCK 0) ((d.wr .CR_PRES_LOCK 0).rd .CR_STAT_FAILCHK) ((d.wr .CR_PRES_LOCK 0).rd .CR_STAT_FAILREC)).1.trans hcount
  dsimp only
  generalize (d.wr .CR_PRES_LOCK 0).crownInvalid ((d.wr .CR_PRES_LOCK 0).rd .CR_STAT_FAILCHK) ((d.wr .CR_PRES_LOCK 0).rd .CR_STAT_FAILREC) = e at hst hev hrun hlog
  exact ⟨hst, hev, hlog, hrun⟩

theorem secondPass_fails {bad : List U16} {s : State} (h : s.dev.bootAt .dramTrained = true)
    (hbad : ∃ r ∈ s.dev.recs (s.dev.rd .CR_STAT_IMG), secondPassReads r.type = true ∧ r.type ∈ bad.map (·.toNat)) :
    Gives (.secondPass bad) s fun t => t.dev.st = .safe ∧ t.dev.rd .CR_STAT_FAILCHK = 6 := by
  refine gives_next (t := s.secondPass (bad.map (·.toNat))) (congrArg Host.Outcome.next (if_pos h)) ?_
  obtain ⟨r, hr, hreads, hin⟩ := hbad
  obtain ⟨x, hx⟩ : ∃ x, ((s.dev.recs (s.dev.rd .CR_STAT_IMG)).filter (fun r => secondPassReads r.type)).find? (fun r => (bad.map (·.toNat)).elem r.type) = some x :=
    Option.isSome_iff_exists.mp (List.find?_isSome.mpr ⟨r, List.mem_filter.mpr ⟨hr, hreads⟩, List.elem_iff.mpr hin⟩)
  unfold State.secondPass
  dsimp only
  rw [hx]
  have hst := (crownInvalid_st s.dev CrownChk.second.code x.type).1
  have hchk := (crownInvalid_rd s.dev CrownChk.second.code x.type).2
  dsimp only
  generalize s.dev.crownInvalid CrownChk.second.code x.type = e at hst hchk
  exact ⟨hst, hchk⟩

theorem contentCheck_fails {c : CrownContent} {ty : Nat} {s : State} (h : s.dev.bootAt .secondPass = true) (hc : s.dev.boot.content = some c)
    (hbad : contentBad ⟨s.dev.isA32, c, s.dev.regsOf (s.dev.rd .CR_STAT_IMG), settings c (s.dev.regsOf (s.dev.rd .CR_STAT_IMG))⟩ = some ty) :
    Gives .contentCheck s fun t =>
      (s.dev.rd .CR_STAT_IMG = 0 → t.dev.st = .boot ∧ t.dev.rd .CR_STAT_RSTCAUSE = 3 ∧ t.dev.rd .CR_BOOTSEL_BACKUP = 1 ∧
        t.dev.boot.stage = .powerGood) ∧
      (s.dev.rd .CR_STAT_IMG ≠ 0 → t.dev.st = .safe ∧ t.dev.evPending Ev.CROWN_INVALID) := by
  refine contentCheck_gives h hc hbad ⟨fun himg => ?_, fun himg => ?_⟩
  · rw [contentResult_primary himg]
    generalize Dev.raise _ Ev.CROWN_FALLBACK _ = d
    obtain ⟨hst, hcause, _, _, _, hkept, _, _, _, _, _, hstage, _⟩ := (moduleReset_resetTo { s with dev := d.wr .CR_BOOTSEL_BACKUP 1 } (cause := 3) (by decide)).1
    exact ⟨hst, hcause, (hkept .CR_BOOTSEL_BACKUP 0 0 (by decide) (by decide) (by decide)).trans (rd_wr_self _ _ _ _ _ (by decide)), hstage⟩
  · rw [contentResult_backup himg]
    obtain ⟨hst, hev, _⟩ := crownInvalid_st s.dev.svReleased CrownChk.content.code ty
    dsimp only
    generalize s.dev.svReleased.crownInvalid CrownChk.content.code ty = e at hst hev
    exact ⟨hst, hev⟩

theorem raiseFatal_pending (d : Dev) (c : Nat) (e : EvCode) (x : List Byte) (h : e.sub < 16) : (d.raiseFatal c e x).evPending e := by
  unfold Dev.raiseFatal
  have hraised := (Dev.logWrite_only (d.raise e x) (d.fatalRec e.code x)).evPending e (by decide) (Dev.raise_pending d e x h)
  generalize (d.raise e x).logWrite (d.fatalRec e.code x) = f at hraised
  exact (Dev.shutdown_only f c _).evPending e (by decide) hraised

theorem dramTraining_fails {eyes : List (Byte × Byte)} {s : State} (h : s.dev.bootAt .firstPass = true)
    (hlow : ∃ e ∈ eyes.take 40, min e.1.toNat e.2.toNat < s.dev.rd .MEM_EYEMIN_TAPS) : Gives (.dramTraining eyes) s fun t =>
      t.dev.evPending Ev.MEM_TRAIN_FAIL ∧
      (s.dev.shut = none → ∃ x, t.dev.shut = some x ∧ x.due = some (3, Ev.MEM_TRAIN_FAIL.code)) ∧
      ∀ atSend, Gives (.evaluationPeriodEnd atSend []) t fun u => (s.dev.shut = none → u.dev.st = .shutdown) := by
  obtain ⟨x, hx⟩ := weakEye_some hlow
  refine gives_fn (show exec (.dramTraining eyes) s = execDramTraining eyes s from rfl) ((if_pos h).trans (train_fails hx)) ?_
  generalize eyeData x.2 = data
  have hshown := eyesShown_only s.dev (eyes.take 40)
  have hst : (s.dev.eyesShown (eyes.take 40)).st = .boot := (Kst.of hshown (by decide)).st.trans (bootAt_iff h).1
  have hshut : (s.dev.eyesShown (eyes.take 40)).shut = s.dev.shut := hshown.parts .shut (by decide)
  generalize s.dev.eyesShown (eyes.take 40) = d at hst hshut
  have hoff : (d.raiseFatal 3 Ev.MEM_TRAIN_FAIL data).st ≠ .off := by
    rw [(Kst.of (Dev.raiseFatal_only d 3 Ev.MEM_TRAIN_FAIL data) (by decide)).st, hst]
    decide
  have hdue : s.dev.shut = none → (d.raiseFatal 3 Ev.MEM_TRAIN_FAIL data).shut = some { due := some (3, Ev.MEM_TRAIN_FAIL.code), record := [], since := d.now, written := false } :=
    fun hnone => (raiseFatal_st d 3 Ev.MEM_TRAIN_FAIL data (by rw [hst]; decide) (by rw [hst]; decide) (hshut.trans hnone)).2
  have hraised := raiseFatal_pending d 3 Ev.MEM_TRAIN_FAIL data (by decide)
  generalize d.raiseFatal 3 Ev.MEM_TRAIN_FAIL data = e at hoff hdue hraised
  refine ⟨hraised, fun hnone => ⟨_, hdue hnone, rfl⟩, fun atSend => ?_⟩
  exact evaluationPeriodEnd_gives hoff fun hnone => (window_nil_shutdown (hdue hnone) rfl).1

/-- A step of the boot out of its turn leaves the state. -/
theorem outOfTurn {s t : State} {b : Bool} (h : b = false) : (Host.Outcome.next (if b then t else s) : Out) = .next s := by rw [h]; rfl

/-- Settles O15. -/
theorem bootFailures : Obligations.BootFailures := by
  unfold Obligations.BootFailures
  refine ⟨fun primary backup s => crownFirstPass_invalid, fun bad s => secondPass_fails, fun c ty s => contentCheck_fails, fun eyes s => dramTraining_fails, fun s =>
    ⟨fun h m k => ?_, fun h p b => outOfTurn h, fun h b => outOfTurn h, outOfTurn, outOfTurn, outOfTurn, outOfTurn⟩⟩
  exact congrArg Host.Outcome.next (State.with_same (if_neg (by rw [h]; decide)))

end Sys2Proof.Machine

/-! Crown and NVM operations: sessions, the debug port, the lock, the event log and PRESENCE# (O19, O20). -/
namespace Sys2Proof.Machine
set_option exponentiation.threshold 600

/-! ### What a request of Table 16-6 finds after its reception -/

theorem flag_only {c r : Nat} {d e : Dev} (h : Dev.Only c r d e) {f : Fld} (hf : r.testBit f.ctorIdx = false) (i j : Nat) : e.flag f i j = d.flag f i j := by
  unfold Dev.flag
  rw [h.rd f i j hf]

theorem present_only {c r : Nat} {d e : Dev} (h : Dev.Only c r d e) (hf : r.testBit (Fld.ctorIdx .CR_PRES_PRES) = false) : e.present = d.present := flag_only h hf 0 0

theorem session_only {c r : Nat} {d e : Dev} (h : Dev.Only c r d e) (hf : r.testBit (Fld.ctorIdx .CR_PRES_SESSION) = false) : e.session = d.session := flag_only h hf 0 0

theorem inSpan_only {c r : Nat} {d e : Dev} (h : Dev.Only c r d e) (hf : r.testBit (Fld.ctorIdx .CR_PRES_SPAN) = false) (ofs len : Nat) :
    e.inSpan ofs len = d.inSpan ofs len := by
  unfold Dev.inSpan
  rw [h.rd _ _ _ hf]

theorem reply_pending {e : Dev} {ev : EvCode} (h : e.evPending ev) (r : Role) (n : Nat) (o : Done) : (e.reply r n o).evPending ev :=
  (Dev.reply_only e r n o).evPending ev (by decide) h

theorem reply_nor (e : Dev) (r : Role) (n : Nat) (o : Done) : (e.reply r n o).nor = e.nor := reply_part e r n o .nor (by decide) (by decide)

theorem reply_pwr (e : Dev) (r : Role) (n : Nat) (o : Done) : (e.reply r n o).pwr = e.pwr := reply_part e r n o .pwr (by decide) (by decide)

theorem reply_session (e : Dev) (r : Role) (n : Nat) (o : Done) : (e.reply r n o).session = e.session := session_only (Dev.reply_only e r n o) (by decide)

/-! ### Sessions -/

theorem variantCode_congr {d e : Dev} (h : e.variant = d.variant) : e.variantCode = d.variantCode := by
  unfold Dev.variantCode Dev.isA32
  rw [h]

theorem nvmOpen_gives {h : XppHdr} {span : Byte} {r : Role} {s : State} (ht : s.dev.Takes h (.nvmOpen span) r) (hp : s.dev.present = true)
    (hs : s.dev.session = false) (hi : (s.dev.imgCheck (1 - span.toNat)).1 = .ok) : Gives (.nvmOpen h span) s fun t =>
      t.dev.session = true ∧ t.dev.rd .CR_PRES_SPAN = span.toNat ∧ t.dev.evPending Ev.NVM_SESSION ∧ Acked r h [] s t := by
  obtain ⟨_, hcheck, _, _⟩ := id ht
  obtain ⟨_, _, _, hrange⟩ := refusal_none hcheck
  have hspan : span.toNat ≤ 1 := of_decide_eq_true hrange
  refine takes_gives rfl ht (by simp) (by simp) (by simp) (by simp) fun d e o hd hy hc => ?_
  have hok : (d.imgCheck (1 - span.toNat)).1 = .ok := by
    rw [imgCheck_congr (d := s.dev) (hd.parts .nor (by decide)) (variantCode_congr (hd.parts .variant (by decide)))]
    exact hi
  have hcarry : Done.of (d.nvmOpen span.toNat) = (e, o) := hc
  rw [nvmOpen_eq d span.toNat ((present_only hd (Nat.zero_testBit _)).trans hp) ((session_only hd (Nat.zero_testBit _)).trans hs) hok] at hcarry
  cases hcarry
  generalize he : (d.wr .CR_PRES_SESSION 1).wr .CR_PRES_SPAN span.toNat = e
  have hopen : e.rd .CR_PRES_SESSION = 1 ∧ e.rd .CR_PRES_SPAN = span.toNat ∧ e.rd .XPP_PEER_UP = s.dev.rd .XPP_PEER_UP := by
    rw [← he]
    refine ⟨?_, rd_wr_self _ _ _ _ _ (Nat.lt_of_le_of_lt hspan (by decide)), ?_⟩
    · rw [Dev.rd_wr, if_neg (by decide)]
      exact rd_wr_self _ _ _ _ _ (by decide)
    · rw [Dev.rd_wr, if_neg (by decide), Dev.rd_wr, if_neg (by decide)]
      exact up_of_only hd (Nat.zero_testBit _)
  obtain ⟨hsession, hspan', hup⟩ := hopen
  have hraise := Dev.raise_only e Ev.NVM_SESSION (le 1 span.toNat ++ le 1 1)
  have hpend := Dev.raise_pending e Ev.NVM_SESSION (le 1 span.toNat ++ le 1 1) (by decide)
  generalize e.raise Ev.NVM_SESSION (le 1 span.toNat ++ le 1 1) = f at hraise hpend
  refine ⟨?_, ?_, reply_pending hpend _ _ _, acked_reply ((up_of_only hraise (by decide)).trans hup) []⟩
  · dsimp only
    rw [reply_session]
    exact flag_true (by rw [hraise.rd _ _ _ (by decide), hsession]; decide)
  · dsimp only
    rw [reply_rd _ _ _ _ _ _ _ (by decide), hraise.rd _ _ _ (by decide)]
    exact hspan'

/-- A NOR operation of a session: now, or deferred under a supply warning, and answered. -/
theorem norStart_acked {d : Dev} {s : State} {r : Role} {h : XppHdr} (o : NorOp) (hd : Dev.Only (partsMask [.xpp]) 0 s.dev d) :
    (s.dev.rd .AON_PWR_WARN = 0 → ((d.norStart o).reply r h.seq.toNat Done.ok).nor = (d.norDo o).nor) ∧
    (s.dev.rd .AON_PWR_WARN ≠ 0 → ((d.norStart o).reply r h.seq.toNat Done.ok).nor = s.dev.nor ∧
      ((d.norStart o).reply r h.seq.toNat Done.ok).pwr.deferred = s.dev.pwr.deferred ++ [o]) ∧
    Acked r h [] s { s with dev := (d.norStart o).reply r h.seq.toNat Done.ok } := by
  have hwarn : d.rd .AON_PWR_WARN = s.dev.rd .AON_PWR_WARN := hd.rd _ _ _ (Nat.zero_testBit _)
  refine ⟨fun hw => ?_, fun hw => ?_, acked_reply ((up_of_only (Dev.norStart_only d o) (by decide)).trans (up_of_only hd (Nat.zero_testBit _))) []⟩
  · rw [reply_nor, norStart_now d o (hwarn.trans hw)]
  · rw [reply_nor, reply_pwr, norStart_defer d o (by rw [hwarn]; exact hw)]
    have hnor : d.nor = s.dev.nor := hd.parts .nor (by decide)
    have hpwr : d.pwr = s.dev.pwr := hd.parts .pwr (by decide)
    exact ⟨hnor, by dsimp only; rw [hpwr]⟩

theorem norErase_cells (d : Dev) (ofs n a : Nat) : Tab.get Config.norUnlisted (d.norErase ofs n).nor.cells a =
    if ofs ≤ a ∧ a < ofs + n * 65536 then 0xFF else Tab.get Config.norUnlisted d.nor.cells a := by
  refine (Tab.get_filter Config.norUnlisted d.nor.cells (fun a => decide (a < ofs) || decide (ofs + n * 65536 ≤ a)) a).trans ?_
  by_cases hin : ofs ≤ a ∧ a < ofs + n * 65536
  · rw [if_pos hin, if_neg (by simp; omega)]
    rfl
  · rw [if_neg hin, if_pos (by simp; omega)]

theorem nvmErase_gives {h : XppHdr} {ofs : U32} {n : U16} {r : Role} {s : State} (ht : s.dev.Takes h (.nvmErase ofs n) r) (hp : s.dev.present = true)
    (hs : s.dev.session = true) (halign : ofs.toNat % 65536 = 0) (hin : s.dev.inSpan ofs.toNat (n.toNat * 65536) = true) : Gives (.nvmErase h ofs n) s fun t =>
      (s.dev.rd .AON_PWR_WARN = 0 →
        ∀ a, Tab.get Config.norUnlisted t.dev.nor.cells a =
          if ofs.toNat ≤ a ∧ a < ofs.toNat + n.toNat * 65536 then 0xFF else Tab.get Config.norUnlisted s.dev.nor.cells a) ∧
      (s.dev.rd .AON_PWR_WARN ≠ 0 → t.dev.nor = s.dev.nor ∧ t.dev.pwr.deferred = s.dev.pwr.deferred ++ [.erase ofs.toNat n.toNat]) ∧
      Acked r h [] s t := by
  refine takes_gives rfl ht (by simp) (by simp) (by simp) (by simp) fun d e o hd _ hc => ?_
  have hcarry : Done.of (d.nvmErase ofs.toNat n.toNat) = (e, o) := hc
  rw [nvmErase_eq d ofs.toNat n.toNat ((present_only hd (Nat.zero_testBit _)).trans hp) ((session_only hd (Nat.zero_testBit _)).trans hs) halign
    ((inSpan_only hd (Nat.zero_testBit _) _ _).trans hin)] at hcarry
  cases hcarry
  obtain ⟨hnow, hdefer, hack⟩ := norStart_acked (r := r) (h := h) (.erase ofs.toNat n.toNat) hd
  refine ⟨fun hw a => ?_, hdefer, hack⟩
  have hnor : d.nor = s.dev.nor := hd.parts .nor (by decide)
  dsimp only
  rw [hnow hw, show d.norDo (.erase ofs.toNat n.toNat) = d.norErase ofs.toNat n.toNat from rfl, norErase_cells, hnor]

theorem nvmWrite_gives {h : XppHdr} {ofs : U32} {data : List Byte} {r : Role} {s : State} (ht : s.dev.Takes h (.nvmWrite ofs data) r)
    (hp : s.dev.present = true) (hs : s.dev.session = true) (hin : s.dev.inSpan ofs.toNat data.length = true) : Gives (.nvmWrite h ofs data) s fun t =>
      (s.dev.rd .AON_PWR_WARN = 0 → t.dev.nor.cells = norProgram s.dev.nor.cells ofs.toNat data) ∧
      (s.dev.rd .AON_PWR_WARN ≠ 0 → t.dev.nor = s.dev.nor ∧ t.dev.pwr.deferred = s.dev.pwr.deferred ++ [.program ofs.toNat data]) ∧
      Acked r h [] s t := by
  refine takes_gives rfl ht (by simp) (by simp) (by simp) (by simp) fun d e o hd _ hc => ?_
  have hcarry : Done.of (d.nvmWrite ofs.toNat data) = (e, o) := hc
  rw [nvmWrite_eq d ofs.toNat data ((present_only hd (Nat.zero_testBit _)).trans hp) ((session_only hd (Nat.zero_testBit _)).trans hs)
    ((inSpan_only hd (Nat.zero_testBit _) _ _).trans hin)] at hcarry
  cases hcarry
  obtain ⟨hnow, hdefer, hack⟩ := norStart_acked (r := r) (h := h) (.program ofs.toNat data) hd
  refine ⟨fun hw => ?_, hdefer, hack⟩
  have hnor : d.nor = s.dev.nor := hd.parts .nor (by decide)
  dsimp only
  rw [hnow hw, ← hnor]
  rfl

theorem nvmCrc_gives {h : XppHdr} {ofs len : U32} {r : Role} {s : State} (ht : s.dev.Takes h (.nvmCrc ofs len) r) (hin : ofs.toNat + len.toNat ≤ 2 ^ 29) :
    Gives (.nvmCrc h ofs len) s fun t =>
      Unchanged [Part.xpp, Part.out] [] s t ∧ Acked r h (le 4 (crc32c (s.dev.norRead ofs.toNat len.toNat)).toNat) s t := by
  refine takes_gives rfl ht (by simp) (by simp) (by simp) (by simp) fun d e o hd _ hc => ?_
  have hcarry : dataOr d (d.nvmCrc ofs.toNat len.toNat) = (e, o) := hc
  rw [show d.nvmCrc ofs.toNat len.toNat = some (le 4 (crc32c (d.norRead ofs.toNat len.toNat)).toNat) from if_pos hin,
    norRead_congr (d := s.dev) (hd.parts .nor (by decide))] at hcarry
  cases hcarry
  exact ⟨ack_keep r _ _ (hd.mono rfl rfl) rfl, acked_reply (up_of_only hd (Nat.zero_testBit _)) _⟩

/-- With the lock in force, the header of the session's span lacks LOCK or has a lower IMGVER (R392). -/
def Dev.closeBad (d : Dev) : Prop :=
  d.rd .CR_PRES_LOCK ≠ 0 ∧ ((d.hdr (d.rd .CR_PRES_SPAN)).lock = false ∨ (d.hdr (d.rd .CR_PRES_SPAN)).imgver < d.rd .CR_IMGVER_VER)

theorem closeBad_received {s : State} {d : Dev} (hd : Dev.Only (partsMask [.xpp]) 0 s.dev d) : d.closeBad ↔ s.dev.closeBad := by
  unfold Dev.closeBad Dev.hdr
  rw [norRead_congr (d := s.dev) (hd.parts .nor (by decide)), hd.rd _ _ _ (Nat.zero_testBit _), hd.rd _ _ _ (Nat.zero_testBit _), hd.rd _ _ _ (Nat.zero_testBit _)]

theorem nvmClose_closes {d : Dev} (hp : d.present = true) (hs : d.session = true) (hb : ¬d.closeBad) :
    d.nvmClose = (((d.wr .CR_PRES_SESSION 0).wr .CR_PRES_SPAN 0).raise Ev.NVM_SESSION (le 1 (d.rd .CR_PRES_SPAN) ++ le 1 0), none) :=
  (nvmClose_eq d hp hs).trans (if_neg hb)

theorem nvmClose_refused {d : Dev} (hp : d.present = true) (hs : d.session = true) (hb : d.closeBad) :
    d.nvmClose = (d.norStart (.erase (spanBase (d.rd .CR_PRES_SPAN)) 1), some .range) :=
  (nvmClose_eq d hp hs).trans (if_pos hb)

theorem nvmClose_gives {h : XppHdr} {r : Role} {s : State} (ht : s.dev.Takes h .nvmClose r) (hp : s.dev.present = true) (hs : s.dev.session = true) :
    Gives (.nvmClose h) s fun t =>
      (¬s.dev.closeBad → t.dev.session = false ∧ t.dev.evPending Ev.NVM_SESSION ∧ Acked r h [] s t) ∧
      (s.dev.closeBad → t.dev.session = true ∧ Refused r h .range s t) := by
  refine takes_gives rfl ht (by simp) (by simp) (by simp) (by simp) fun d e o hd _ hc => ?_
  have hcarry : Done.of d.nvmClose = (e, o) := hc
  have hsession : d.session = true := (session_only hd (Nat.zero_testBit _)).trans hs
  have hup : d.rd .XPP_PEER_UP = s.dev.rd .XPP_PEER_UP := up_of_only hd (Nat.zero_testBit _)
  have hpresent : d.present = true := (present_only hd (Nat.zero_testBit _)).trans hp
  refine ⟨fun hok => ?_, fun hbad => ?_⟩
  · rw [nvmClose_closes hpresent hsession (fun hb => hok ((closeBad_received hd).mp hb))] at hcarry
    cases hcarry
    generalize he : (d.wr .CR_PRES_SESSION 0).wr .CR_PRES_SPAN 0 = e
    have hclosed : e.rd .CR_PRES_SESSION = 0 ∧ e.rd .XPP_PEER_UP = s.dev.rd .XPP_PEER_UP := by
      rw [← he]
      refine ⟨?_, ?_⟩
      · rw [Dev.rd_wr, if_neg (by decide)]
        exact rd_wr_self _ _ _ _ _ (by decide)
      · rw [Dev.rd_wr, if_neg (by decide), Dev.rd_wr, if_neg (by decide)]
        exact hup
    generalize le 1 (d.rd .CR_PRES_SPAN) ++ le 1 0 = data
    have hraise := Dev.raise_only e Ev.NVM_SESSION data
    have hpend := Dev.raise_pending e Ev.NVM_SESSION data (by decide)
    generalize e.raise Ev.NVM_SESSION data = f at hraise hpend
    refine ⟨?_, reply_pending hpend _ _ _, acked_reply ((up_of_only hraise (by decide)).trans hclosed.2) []⟩
    dsimp only
    rw [reply_session]
    exact flag_false ((hraise.rd _ _ _ (by decide)).trans hclosed.1)
  · rw [nvmClose_refused hpresent hsession ((closeBad_received hd).mpr hbad)] at hcarry
    cases hcarry
    generalize NorOp.erase (spanBase (d.rd .CR_PRES_SPAN)) 1 = op
    have hstart := Dev.norStart_only d op
    generalize d.norStart op = f at hstart
    refine ⟨?_, refused_reply ((up_of_only hstart (by decide)).trans hup) _⟩
    dsimp only
    rw [reply_session, session_only hstart (by decide)]
    exact hsession

/-! ### Without PRESENCE# -/

theorem absentPresence_gives {c : Instr} {h : XppHdr} {q : XppReq} {r : Role} {s : State} (hc : exec c s = .next (s.request ⟨h, q⟩)) (ht : s.dev.Takes h q r)
    (hq : q ≠ .hold) (hn : q ≠ .restart) (hm : ∀ m, q ≠ .rkRelease m) (hr : ∀ n, q ≠ .noteResend n) (hp : s.dev.present = false)
    (hcarry : ∀ d : Dev, d.present = false → d.carry r ⟨h, q⟩ = (d, .nack .presence)) :
    Gives c s fun t => Unchanged [Part.xpp, Part.out] [Fld.XPP_NCNT_NACK] s t ∧ Refused r h .presence s t := by
  refine takes_gives hc ht hq hn hm hr fun d e o hd _ hcar => ?_
  rw [hcarry d ((present_only hd (Nat.zero_testBit _)).trans hp)] at hcar
  cases hcar
  exact ⟨nack_unchanged hd r _ _, refused_reply (up_of_only hd (Nat.zero_testBit _)) _⟩

theorem presenceGate_absent {d : Dev} (h : d.present = false) (k : Dev → Dev × Option Nack) : d.presenceGate k = (d, some .presence) := by
  unfold Dev.presenceGate
  rw [h]
  rfl

theorem sessionGate_absent {d : Dev} (h : d.present = false) (k : Dev → Dev × Option Nack) : d.sessionGate k = (d, some .presence) := by
  unfold Dev.sessionGate
  rw [h]
  rfl

/-- Settles O19: the session's operations each by their equation, and the gate that PRESENCE# closes. -/
theorem nvmSessions : Obligations.NvmSessions := by
  unfold Obligations.NvmSessions
  refine ⟨fun h span r s => nvmOpen_gives, fun h ofs n r s => nvmErase_gives, fun h ofs data r s => nvmWrite_gives, fun h ofs len r s => nvmCrc_gives,
    fun h r s => nvmClose_gives, fun h r s hp => ⟨fun span ht => ?_, fun ofs n ht => ?_, fun ofs data ht => ?_, fun ht => ?_, fun ht => ?_, fun l ht => ?_, fun ht => ?_⟩⟩
  · exact absentPresence_gives rfl ht (by simp) (by simp) (by simp) (by simp) hp fun d hd => congrArg Done.of (presenceGate_absent hd _)
  · exact absentPresence_gives rfl ht (by simp) (by simp) (by simp) (by simp) hp fun d hd => congrArg Done.of (sessionGate_absent hd _)
  · exact absentPresence_gives rfl ht (by simp) (by simp) (by simp) (by simp) hp fun d hd => congrArg Done.of (sessionGate_absent hd _)
  · exact absentPresence_gives rfl ht (by simp) (by simp) (by simp) (by simp) hp fun d hd => congrArg Done.of (sessionGate_absent hd _)
  · exact absentPresence_gives rfl ht (by simp) (by simp) (by simp) (by simp) hp fun d hd => congrArg Done.of (presenceGate_absent hd _)
  · exact absentPresence_gives rfl ht (by simp) (by simp) (by simp) (by simp) hp fun d hd => congrArg Done.of (presenceGate_absent hd _)
  · exact absentPresence_gives rfl ht (by simp) (by simp) (by simp) (by simp) hp fun d hd => congrArg Done.of (presenceGate_absent hd _)

/-! ### The debug port and the lock -/

theorem presenceGate_present {d : Dev} (h : d.present = true) (k : Dev → Dev × Option Nack) : d.presenceGate k = k d := by
  unfold Dev.presenceGate
  rw [h]
  rfl

theorem debugEnable_locked {d : Dev} (h : d.present = true) (hl : d.rd .CR_PRES_LOCK ≠ 0) : d.debugEnable = (d, some .state) :=
  (presenceGate_present h _).trans (if_pos (flag_true hl))

theorem debugEnable_enabled {d : Dev} (h : d.present = true) (hl : d.rd .CR_PRES_LOCK = 0) (hg : d.rd .CR_PRES_DBG ≠ 0) : d.debugEnable = (d, none) :=
  (presenceGate_present h _).trans ((if_neg (by rw [flag_false hl]; decide)).trans (if_pos (flag_true hg)))

theorem debugEnable_enables {d : Dev} (h : d.present = true) (hl : d.rd .CR_PRES_LOCK = 0) (hg : d.rd .CR_PRES_DBG = 0) :
    d.debugEnable = ((d.wr .CR_PRES_DBG 1).raise Ev.DEBUG_ENABLED, none) :=
  (presenceGate_present h _).trans ((if_neg (by rw [flag_false hl]; decide)).trans (if_neg (by rw [flag_false hg]; decide)))

theorem debugEnable_gives {h : XppHdr} {r : Role} {s : State} (ht : s.dev.Takes h .debugEnable r) (hp : s.dev.present = true) :
    Gives (.debugEnable h) s fun t =>
      (s.dev.rd .CR_PRES_LOCK = 0 → t.dev.rd .CR_PRES_DBG ≠ 0 ∧ (s.dev.rd .CR_PRES_DBG = 0 → t.dev.evPending Ev.DEBUG_ENABLED) ∧ Acked r h [] s t) ∧
      (s.dev.rd .CR_PRES_LOCK ≠ 0 → t.dev.rd .CR_PRES_DBG = s.dev.rd .CR_PRES_DBG ∧ Refused r h .state s t) := by
  refine takes_gives rfl ht (by simp) (by simp) (by simp) (by simp) fun d e o hd _ hc => ?_
  have hcarry : Done.of d.debugEnable = (e, o) := hc
  have hp' : d.present = true := (present_only hd (Nat.zero_testBit _)).trans hp
  have hlock : d.rd .CR_PRES_LOCK = s.dev.rd .CR_PRES_LOCK := hd.rd _ _ _ (Nat.zero_testBit _)
  have hdbg : d.rd .CR_PRES_DBG = s.dev.rd .CR_PRES_DBG := hd.rd _ _ _ (Nat.zero_testBit _)
  have hup : d.rd .XPP_PEER_UP = s.dev.rd .XPP_PEER_UP := up_of_only hd (Nat.zero_testBit _)
  dsimp only
  rw [reply_rd _ _ _ _ _ _ _ (by decide)]
  refine ⟨fun hl => ?_, fun hl => ?_⟩
  · by_cases hg : s.dev.rd .CR_PRES_DBG = 0
    · rw [debugEnable_enables hp' (hlock.trans hl) (hdbg.trans hg)] at hcarry
      cases hcarry
      have hset : (d.wr .CR_PRES_DBG 1).rd .CR_PRES_DBG = 1 := rd_wr_self _ _ _ _ _ (by decide)
      have hup' : (d.wr .CR_PRES_DBG 1).rd .XPP_PEER_UP = s.dev.rd .XPP_PEER_UP := by
        rw [Dev.rd_wr, if_neg (by decide)]
        exact hup
      generalize d.wr .CR_PRES_DBG 1 = f at hset hup'
      have hraise := Dev.raise_only f Ev.DEBUG_ENABLED []
      have hpend := Dev.raise_pending f Ev.DEBUG_ENABLED [] (by decide)
      generalize f.raise Ev.DEBUG_ENABLED = g at hraise hpend
      refine ⟨?_, fun _ => reply_pending hpend _ _ _, acked_reply ((up_of_only hraise (by decide)).trans hup') []⟩
      rw [hraise.rd _ _ _ (by decide), hset]
      decide
    · rw [debugEnable_enabled hp' (hlock.trans hl) (by rw [hdbg]; exact hg)] at hcarry
      cases hcarry
      exact ⟨by rw [hdbg]; exact hg, fun h0 => absurd h0 hg, acked_reply hup []⟩
  · rw [debugEnable_locked hp' (by rw [hlock]; exact hl)] at hcarry
    cases hcarry
    exact ⟨hdbg, refused_reply hup _⟩

theorem debugDisable_gives {h : XppHdr} {r : Role} {s : State} (ht : s.dev.Takes h .debugDisable r) : Gives (.debugDisable h) s fun t =>
    t.dev.rd .CR_PRES_DBG = 0 ∧ Unchanged [Part.xpp, Part.out] [Fld.CR_PRES_DBG] s t ∧ Acked r h [] s t := by
  refine takes_gives rfl ht (by simp) (by simp) (by simp) (by simp) fun d e o hd _ hc => ?_
  have hcarry : (d.wr .CR_PRES_DBG 0, Done.ok) = (e, o) := hc
  cases hcarry
  have hset : (d.wr .CR_PRES_DBG 0).rd .CR_PRES_DBG = 0 := rd_wr_self _ _ _ _ _ (by decide)
  have honly : Dev.Only (partsMask [.xpp, .out]) (fieldsMask [.CR_PRES_DBG]) s.dev (d.wr .CR_PRES_DBG 0) :=
    Dev.Only.wr _ _ _ _ (by decide) (hd.mono rfl (Nat.zero_and _))
  generalize d.wr .CR_PRES_DBG 0 = f at hset honly
  exact ⟨(reply_rd _ _ _ _ _ _ _ (by decide)).trans hset, ack_keep r _ [] honly rfl, acked_reply (up_of_only honly (by decide)) []⟩

/-- The header in use with another LOCK, where there is one. -/
def Dev.lockUsed (d : Dev) (lock : Nat) : Dev :=
  match d.boot.hdr with
  | some h => ({ d with boot := { d.boot with hdr := some { h with lock := decide (lock = 1) } } }).wr .CR_PRES_LOCK lock
  | none => d

theorem lockSet_eq {d : Dev} (h : d.present = true) (lock : Nat) :
    d.lockSet lock = ((((d.rewriteHeader 1 lock).rewriteHeader 0 lock).lockUsed lock).raise Ev.LOCK_CHANGED (le 1 lock), none) :=
  presenceGate_present h _

theorem lockUsed_st {d : Dev} {x : CrownHdr} {lock : Nat} (h : d.boot.hdr = some x) (hl : lock ≤ 1) :
    (d.lockUsed lock).boot.hdr = some { x with lock := decide (lock = 1) } ∧ (d.lockUsed lock).rd .CR_PRES_LOCK = lock := by
  unfold Dev.lockUsed
  rw [h]
  exact ⟨rfl, rd_wr_self _ _ _ _ _ (Nat.lt_of_le_of_lt hl (by decide))⟩

theorem lockUsed_only (d : Dev) (lock : Nat) : Dev.Only (partsMask [.boot]) (fieldsMask [.CR_PRES_LOCK]) d (d.lockUsed lock) := by
  unfold Dev.lockUsed
  split
  · exact Dev.Only.wr _ _ _ _ (by decide) (Dev.Only.with_boot _ (by decide) (Dev.Only.refl _ _ _))
  · exact Dev.Only.refl _ _ _

theorem lockSet_gives {h : XppHdr} {l : Byte} {r : Role} {s : State} (ht : s.dev.Takes h (.lockSet l) r) (hp : s.dev.present = true) :
    Gives (.lockSet h l) s fun t =>
      (∀ x, s.dev.boot.hdr = some x → t.dev.boot.hdr = some { x with lock := decide (l.toNat = 1) } ∧ t.dev.rd .CR_PRES_LOCK = l.toNat) ∧
        t.dev.evPending Ev.LOCK_CHANGED ∧ Acked r h [] s t := by
  obtain ⟨_, hcheck, _, _⟩ := id ht
  obtain ⟨_, _, _, hrange⟩ := refusal_none hcheck
  have hl : l.toNat ≤ 1 := of_decide_eq_true hrange
  refine takes_gives rfl ht (by simp) (by simp) (by simp) (by simp) fun d e o hd _ hc => ?_
  have hcarry : Done.of (d.lockSet l.toNat) = (e, o) := hc
  rw [lockSet_eq ((present_only hd (Nat.zero_testBit _)).trans hp)] at hcarry
  cases hcarry
  have hwritten := (Dev.rewriteHeader_only d 1 l.toNat).trans (Dev.rewriteHeader_only _ 0 l.toNat)
  generalize (d.rewriteHeader 1 l.toNat).rewriteHeader 0 l.toNat = w at hwritten
  have hboot : w.boot = s.dev.boot := (hwritten.parts .boot (by decide)).trans (hd.parts .boot (by decide))
  have hup : w.rd .XPP_PEER_UP = s.dev.rd .XPP_PEER_UP := (up_of_only hwritten (by decide)).trans (up_of_only hd (Nat.zero_testBit _))
  have hused := lockUsed_only w l.toNat
  have hset : ∀ x, s.dev.boot.hdr = some x → (w.lockUsed l.toNat).boot.hdr = some { x with lock := decide (l.toNat = 1) } ∧ (w.lockUsed l.toNat).rd .CR_PRES_LOCK = l.toNat :=
    fun x hx => lockUsed_st (by rw [hboot]; exact hx) hl
  generalize w.lockUsed l.toNat = u at hused hset
  have hraise := Dev.raise_only u Ev.LOCK_CHANGED (le 1 l.toNat)
  have hpend := Dev.raise_pending u Ev.LOCK_CHANGED (le 1 l.toNat) (by decide)
  generalize u.raise Ev.LOCK_CHANGED (le 1 l.toNat) = f at hraise hpend
  refine ⟨fun x hx => ?_, reply_pending hpend _ _ _, acked_reply ((up_of_only hraise (by decide)).trans ((up_of_only hused (by decide)).trans hup)) []⟩
  have hfboot : f.boot = u.boot := hraise.parts .boot (by decide)
  dsimp only
  rw [reply_boot, reply_rd _ _ _ _ _ _ _ (by decide), hfboot, hraise.rd _ _ _ (by decide)]
  exact hset x hx

/-! ### The event log and PRESENCE# -/

theorem logRecs_only {c r : Nat} {d e : Dev} (h : Dev.Only c r d e) (hn : c.testBit (Part.ctorIdx .nor) = false)
    (hs : r.testBit (Fld.ctorIdx .CR_LOG_BASE_SECT) = false) (hc : r.testBit (Fld.ctorIdx .CR_LOG_BASE_COUNT) = false) : e.logRecs = d.logRecs := by
  have hnor : e.nor = d.nor := h.parts .nor hn
  unfold Dev.logRecs Dev.logArea
  rw [hnor, h.rd _ _ _ hs, h.rd _ _ _ hc]

theorem logRead_gives {h : XppHdr} {index : U32} {n : Byte} {r : Role} {s : State} (ht : s.dev.Takes h (.logRead index n) r)
    (hin : index.toNat < s.dev.logRecs.length) : Gives (.logRead h index n) s fun t =>
      Unchanged [Part.xpp, Part.out] [] s t ∧ Acked r h (((s.dev.logRecs.drop index.toNat).take n.toNat).flatMap (·.bytes)) s t := by
  refine takes_gives rfl ht (by simp) (by simp) (by simp) (by simp) fun d e o hd _ hc => ?_
  have hcarry : dataOr d (d.logRead index.toNat n.toNat) = (e, o) := hc
  have hrecs : d.logRecs = s.dev.logRecs := logRecs_only hd (by decide) (Nat.zero_testBit _) (Nat.zero_testBit _)
  unfold Dev.logRead at hcarry
  rw [hrecs, if_pos hin] at hcarry
  cases hcarry
  exact ⟨ack_keep r _ _ (hd.mono rfl rfl) rfl, acked_reply (up_of_only hd (Nat.zero_testBit _)) _⟩

theorem logErase_eq {d : Dev} (h : d.present = true) : d.logErase = if d.uncleared.isSome then (d, some .state) else (d.norStart .logErase, none) :=
  presenceGate_present h _

/-- The area of the log holds no record once its sectors are erased. -/
theorem logErased_st (d : Dev) : (d.norDo .logErase).rd .CR_LOG_WP_OFS = 0 ∧ (d.norDo .logErase).logRecs = [] := by
  have heq : d.norDo .logErase = (d.norErase d.logArea.1 (d.rd .CR_LOG_BASE_COUNT)).wr .CR_LOG_WP_OFS 0 := rfl
  have harea : (d.norDo .logErase).logArea = d.logArea := by
    unfold Dev.logArea
    rw [(Dev.norDo_only d .logErase).rd _ _ _ (by decide), (Dev.norDo_only d .logErase).rd _ _ _ (by decide)]
  have hlog : (d.norDo .logErase).nor.log =
      d.nor.log.filter (fun r => decide (r.ofs < d.logArea.1) || decide (d.logArea.1 + d.rd .CR_LOG_BASE_COUNT * 65536 ≤ r.ofs)) := rfl
  have hlen : d.logArea.2 = d.rd .CR_LOG_BASE_COUNT * 65536 := rfl
  refine ⟨?_, ?_⟩
  · rw [heq]
    exact rd_wr_self _ _ _ _ _ (by decide)
  · unfold Dev.logRecs
    rw [harea, hlog, List.filter_filter, List.filter_eq_nil_iff]
    intro x _
    simp only [Bool.and_eq_true, Bool.or_eq_true, decide_eq_true_eq, hlen]
    omega

theorem logErase_gives {h : XppHdr} {r : Role} {s : State} (ht : s.dev.Takes h .logErase r) (hp : s.dev.present = true) : Gives (.logErase h) s fun t =>
    (s.dev.uncleared = none → s.dev.rd .AON_PWR_WARN = 0 → t.dev.rd .CR_LOG_WP_OFS = 0 ∧ t.dev.logRecs = []) ∧
    (s.dev.uncleared = none → Acked r h [] s t) ∧
    (s.dev.uncleared ≠ none → t.dev.nor = s.dev.nor ∧ Refused r h .state s t) := by
  refine takes_gives rfl ht (by simp) (by simp) (by simp) (by simp) fun d e o hd _ hc => ?_
  have hcarry : Done.of d.logErase = (e, o) := hc
  have hunc : d.uncleared = s.dev.uncleared := uncleared_only hd (by decide) (Nat.zero_testBit _) (Nat.zero_testBit _)
  have hnor : d.nor = s.dev.nor := hd.parts .nor (by decide)
  rw [logErase_eq ((present_only hd (Nat.zero_testBit _)).trans hp), hunc] at hcarry
  cases hu : s.dev.uncleared with
  | none =>
    rw [hu] at hcarry
    cases hcarry
    obtain ⟨_, _, hack⟩ := norStart_acked (r := r) (h := h) .logErase hd
    refine ⟨fun _ hw => ?_, fun _ => hack, fun hne => absurd rfl hne⟩
    obtain ⟨hwp, hrecs⟩ := logErased_st d
    dsimp only
    rw [norStart_now d .logErase ((hd.rd _ _ _ (Nat.zero_testBit _)).trans hw)]
    generalize d.norDo .logErase = f at hwp hrecs
    exact ⟨(reply_rd _ _ _ _ _ _ _ (by decide)).trans hwp, (logRecs_only (Dev.reply_only f r _ _) (by decide) (by decide) (by decide)).trans hrecs⟩
  | some x =>
    rw [hu] at hcarry
    cases hcarry
    exact ⟨nofun, nofun, fun _ => ⟨(reply_nor _ _ _ _).trans hnor, refused_reply (up_of_only hd (Nat.zero_testBit _)) _⟩⟩

theorem presenceAssert_gives (s : State) : Gives .presenceAssert s fun t => t.dev.present = true ∧ Unchanged [] [Fld.CR_PRES_PRES] s t := by
  have hexec : exec .presenceAssert s = .next { s with dev := s.dev.wr .CR_PRES_PRES 1 } := rfl
  exact gives_next hexec ⟨flag_true (by rw [rd_wr_self _ _ _ _ _ (by decide)]; decide), exec_unchanged hexec (by simp only [cmdParts]; rfl) (by simp only [cmdFields]; rfl)⟩

/-- Settles O20. -/
theorem nvmLockLogPresence : Obligations.NvmLockLogPresence := by
  unfold Obligations.NvmLockLogPresence
  exact ⟨fun h r s => debugEnable_gives, fun h r s => debugDisable_gives, fun h l r s => lockSet_gives, fun h index n r s => logRead_gives,
    fun h r s => logErase_gives, presenceAssert_gives, fun s => gives_act (f := lostDev) rfl (lostDev_all s.dev)⟩

end Sys2Proof.Machine

/-! Proofs: the reads that latch the other words of a value (O50) and the discrete inputs (O23). -/
namespace Sys2Proof.Machine

set_option exponentiation.threshold 600

/-! ### Reads that latch -/

/-- A register read that no region refuses, of a register that is present and powered, takes the latch of its address. -/
theorem latchingRead_gives {c : Instr} {lvl : Lvl} {a : Nat} {r : RegInfo} {s : State} {p : State → Prop}
    (hexec : exec c s = s.act fun d => (d.readReg lvl.val a).2) (hallowed : s.dev.allowed 0 a lvl.val false = true) (haligned : a % 4 = 0)
    (hreg : findReg a = some (r, 0, 0)) (hpresent : s.dev.absent r 0 = false) (hon : s.dev.domOn (domOf r 0) = true)
    (hp : p { s with dev := s.dev.readLatch a }) : Gives c s p :=
  gives_fn hexec (readReg_on hallowed haligned hreg hpresent hon) hp

theorem fireCntLoRead_gives {lvl : Lvl} {s : State} (hallowed : s.dev.allowed 0 0x600028 lvl.val false = true) (hon : s.dev.domOn .sup = true) :
    Gives (.fireCntLoRead lvl) s fun t =>
      t.dev.fire.latchCnt = s.dev.fire.cnt.toNat / 2 ^ 32 ∧ t.dev.fieldValue .FIRE_CNT_HI_C 0 0 = s.dev.fire.cnt.toNat / 2 ^ 32 ∧
      t = { s with dev := { s.dev with fire := { s.dev.fire with latchCnt := s.dev.fire.cnt.toNat / 2 ^ 32 } } } :=
  latchingRead_gives rfl hallowed rfl rfl (absent_low s.dev _ rfl (by decide) (by decide) (by decide) (by decide) (by decide)) hon ⟨rfl, rfl, rfl⟩

theorem firePosLoRead_gives {lvl : Lvl} {s : State} (hallowed : s.dev.allowed 0 0x600030 lvl.val false = true) (hon : s.dev.domOn .sup = true) :
    Gives (.firePosLoRead lvl) s fun t =>
      t.dev.fire.latchPos = s.dev.fire.pos.toNat / 2 ^ 32 ∧ t.dev.fieldValue .FIRE_POS_HI_F 0 0 = s.dev.fire.pos.toNat / 2 ^ 32 ∧
      t = { s with dev := { s.dev with fire := { s.dev.fire with latchPos := s.dev.fire.pos.toNat / 2 ^ 32 } } } :=
  latchingRead_gives rfl hallowed rfl rfl (absent_low s.dev _ rfl (by decide) (by decide) (by decide) (by decide) (by decide)) hon ⟨rfl, rfl, rfl⟩

/-- Two fields that a read latches read what they were given. -/
theorem wr_wr_rd (d : Dev) {f g : Fld} (hne : f ≠ g) (x y : Nat) :
    ((d.wr f x).wr g y).rd f = x % 2 ^ (fldSpec f).width ∧ ((d.wr f x).wr g y).rd g = y % 2 ^ (fldSpec g).width := by
  refine ⟨?_, (Dev.rd_wr ..).trans (if_pos ⟨rfl, rfl, rfl⟩)⟩
  rw [Dev.rd_wr, if_neg (fun h => hne h.1)]
  exact (Dev.rd_wr ..).trans (if_pos ⟨rfl, rfl, rfl⟩)

theorem tbNowSRead_gives {lvl : Lvl} {s : State} (hallowed : s.dev.allowed 0 0xD03004 lvl.val false = true) (hon : s.dev.domOn .net = true) :
    Gives (.tbNowSRead lvl) s fun t =>
      t.dev.rd .TB_NOW_NS_NS = tns s.dev.now % 2 ^ 30 ∧ t.dev.rd .TB_NOW_SH_S = s.dev.now / 1000000000 / 2 ^ 32 % 2 ^ 16 ∧
      Unchanged [] [Fld.TB_NOW_NS_NS, Fld.TB_NOW_SH_S] s t := by
  obtain ⟨hns, hsh⟩ := wr_wr_rd s.dev (f := .TB_NOW_NS_NS) (g := .TB_NOW_SH_S) (by decide) (tns s.dev.now) (s.dev.now / 1000000000 / 2 ^ 32)
  refine latchingRead_gives rfl hallowed rfl rfl (absent_low s.dev _ rfl (by decide) (by decide) (by decide) (by decide) (by decide)) hon
    ⟨hns, hsh, (State.Only.mkDev (c := 0) (r := fieldsMask [.TB_NOW_NS_NS, .TB_NOW_SH_S]) ?_ (State.Only.refl _ _ s)).unchanged rfl rfl⟩
  exact ((Dev.Only.refl _ _ s.dev).wr .TB_NOW_NS_NS _ 0 0 (by decide)).wr .TB_NOW_SH_S _ 0 0 (by decide)

theorem ringClSRead_gives {lvl : Lvl} {s : State} (hallowed : s.dev.allowed 0 0xE00010 lvl.val false = true) (hon : s.dev.domOn .sup = true) :
    Gives (.ringClSRead lvl) s fun t =>
      t.dev.rd .RING_CL_LO_C = s.dev.ring.latchLo % 2 ^ 32 ∧ t.dev.rd .RING_CL_HI_C = s.dev.ring.latchHi % 2 ^ 16 ∧
      Unchanged [] [Fld.RING_CL_LO_C, Fld.RING_CL_HI_C] s t := by
  obtain ⟨hlo, hhi⟩ := wr_wr_rd s.dev (f := .RING_CL_LO_C) (g := .RING_CL_HI_C) (by decide) s.dev.ring.latchLo s.dev.ring.latchHi
  refine latchingRead_gives rfl hallowed rfl rfl (absent_low s.dev _ rfl (by decide) (by decide) (by decide) (by decide) (by decide)) hon
    ⟨hlo, hhi, (State.Only.mkDev (c := 0) (r := fieldsMask [.RING_CL_LO_C, .RING_CL_HI_C]) ?_ (State.Only.refl _ _ s)).unchanged rfl rfl⟩
  exact ((Dev.Only.refl _ _ s.dev).wr .RING_CL_LO_C _ 0 0 (by decide)).wr .RING_CL_HI_C _ 0 0 (by decide)

/-- Settles O50: each of the four reads takes the latch of its address and nothing else. -/
theorem readsLatchTheOtherWords : Obligations.ReadsLatchTheOtherWords := by
  unfold Obligations.ReadsLatchTheOtherWords
  exact ⟨fun _ _ => fireCntLoRead_gives, fun _ _ => firePosLoRead_gives, fun _ _ => tbNowSRead_gives, fun _ _ => ringClSRead_gives⟩

/-! ### HOLD# and INHIBIT# -/

theorem holdCause_seen (d : Dev) (h : HoldBit) : bitOf (d.holdCause h).holdSeen h.num = true := by
  unfold Dev.holdCause
  dsimp only
  rw [bitOf_withBit]
  simp

/-- An input that becomes active: its field, its hold cause for the period, and its event when it changed outside OFF. -/
theorem inputAsserted (d : Dev) {f : Fld} {e : EvCode} (h : HoldBit) (hf : f = .XPP_DIN_HOLD ∨ f = .XPP_DIN_INH) (he : e.sub < 16) :
    ((d.dinChange f e true).holdCause h).flag f = true ∧ ((d.dinChange f e true).holdCause h).held h = true ∧
      bitOf ((d.dinChange f e true).holdCause h).holdSeen h.num = true ∧
      (d.flag f = false → d.st ≠ .off → ((d.dinChange f e true).holdCause h).evPending e) := by
  obtain ⟨hflag, hpend, _⟩ := dinChange_rd d f e true hf he
  have honly := Dev.holdCause_only (d.dinChange f e true) h
  refine ⟨?_, holdCause_held _ h, holdCause_seen _ h, fun hwas hoff => ?_⟩
  · rcases hf with rfl | rfl <;> exact (flag_only honly (by decide) 0 0).trans hflag
  · exact honly.evPending e (by decide) (hpend (by rw [hwas]; decide) hoff)

/-- An input that is released: its field and its hold cause clear; what the period remembers stays. -/
theorem inputReleased (d : Dev) {f : Fld} {e : EvCode} (h : HoldBit) (hf : f = .XPP_DIN_HOLD ∨ f = .XPP_DIN_INH) (he : e.sub < 16) :
    ((d.dinChange f e false).clearHold h).flag f = false ∧ ((d.dinChange f e false).clearHold h).held h = false ∧
      ((d.dinChange f e false).clearHold h).holdSeen = d.holdSeen ∧
      (d.flag f = true → d.st ≠ .off → ((d.dinChange f e false).clearHold h).evPending e) := by
  obtain ⟨hflag, hpend, hseen⟩ := dinChange_rd d f e false hf he
  have honly := Dev.clearHold_only (d.dinChange f e false) h
  refine ⟨?_, clearHold_held _ h, (honly.parts .holdSeen (by decide)).trans hseen, fun hwas hoff => ?_⟩
  · rcases hf with rfl | rfl <;> exact (flag_only honly (by decide) 0 0).trans hflag
  · exact honly.evPending e (by decide) (hpend (by rw [hwas]; decide) hoff)

/-! ### The stop of the moving axes -/

theorem axStop_at {k a : Nat} (d : Dev) (h : k ≠ a) : AxAt k d (d.axStop a) := by
  unfold Dev.axStop
  split
  · exact AxAt.refl _ _
  split
  · exact homeAbort_at d _ h
  split
  · exact AxAt.refl _ _
  · exact AxAt.prof d _ h

theorem axStops_at {k : Nat} {l : List Nat} (hk : k ∉ l) (d : Dev) : AxAt k d (d.forEach l Dev.axStop) := by
  induction l generalizing d with
  | nil => exact AxAt.refl _ _
  | cons a t ih =>
    rw [List.mem_cons, not_or] at hk
    exact (axStop_at d hk.1).trans (ih hk.2 _)

theorem axStops_pending {d : Dev} (l : List Nat) {ev : EvCode} (hs : ev.sub < 16) (h : d.evPending ev) : (d.forEach l Dev.axStop).evPending ev := by
  induction l generalizing d with
  | nil => exact h
  | cons a t ih => exact ih (axStop_pending d a ev hs h)

theorem axIs_at {k : Nat} {d e : Dev} (h : AxAt k d e) (x : AxState) : e.axIs k x = d.axIs k x := axIs_rd k x (h.2 .AX_STAT_STATE (by decide) 0)

theorem homing_at {k : Nat} {d e : Dev} (h : AxAt k d e) : e.homing k = d.homing k := by
  unfold Dev.homing
  rw [axIs_at h, axIs_at h, axIs_at h, axIs_at h]

theorem homing_unhomed {d : Dev} {a : Nat} (h : d.axIs a .unhomed = true) : d.homing a = false := by
  unfold Dev.homing
  rw [axIs_false h (by decide), axIs_false h (by decide), axIs_false h (by decide), axIs_false h (by decide)]
  rfl

/-- What INHIBIT# does to one moving axis: a homing one ends its homing, another one plans a stop. -/
theorem axStop_inhibits {d : Dev} {a : Nat} (hon : d.axOn a = true) (hfault : d.axIs a .fault = false) :
    (d.homing a = true → (d.axStop a).homing a = false) ∧
    (d.homing a = false → (d.ax a).prof.run ≠ .maxStop → ((d.axStop a).ax a).prof = (d.ax a).prof.planStop (d.kin a)) := by
  refine ⟨fun h => ?_, fun h hrun => ?_⟩
  · rw [axStop_homing hon h]
    exact homing_unhomed (homeAbort_is d a .stop).1
  · rw [axStop_moving hon hfault h hrun, updProf_ax]

/-- Every axis of a list without repetition is stopped, from what it had at the start. -/
theorem axStops_inhibit {d : Dev} {l : List Nat} {a : Nat} (ha : a ∈ l) (hl : l.Nodup) (hon : d.axOn a = true) (hfault : d.axIs a .fault = false) :
    (d.homing a = true → (d.forEach l Dev.axStop).homing a = false) ∧
    (d.homing a = false → (d.ax a).prof.run ≠ .maxStop → ((d.forEach l Dev.axStop).ax a).prof = (d.ax a).prof.planStop (d.kin a)) := by
  obtain ⟨before, after, rfl⟩ := List.append_of_mem ha
  rw [List.nodup_append] at hl
  obtain ⟨_, hafter, hdisjoint⟩ := hl
  rw [show d.forEach (before ++ a :: after) Dev.axStop = (((d.forEach before Dev.axStop).axStop a).forEach after Dev.axStop) from List.foldl_append]
  have hat := axStops_at (k := a) (fun h => hdisjoint a h a (by simp) rfl) d
  have hfirst := forEach_only before d Dev.axStop Dev.axStop_only
  generalize d.forEach before Dev.axStop = e at hat hfirst
  have hlast := axStops_at (k := a) (List.nodup_cons.mp hafter).1 (e.axStop a)
  obtain ⟨hhome, hstop⟩ := axStop_inhibits ((axOn_of hfirst (by decide) (by decide) (by decide) a).trans hon) ((axIs_at hat .fault).trans hfault)
  rw [homing_at hat, hat.1, kin_of hfirst (by decide)] at *
  exact ⟨fun h => (homing_at hlast).trans (hhome h), fun h hrun => (congrArg Axis.prof hlast.1).trans (hstop h hrun)⟩

theorem inhibitAssert_gives (s : State) : Gives .inhibitAssert s fun t =>
    t.dev.flag .XPP_DIN_INH = true ∧ t.dev.held .inhibit = true ∧ bitOf t.dev.holdSeen HoldBit.inhibit.num = true ∧
      (s.dev.flag .XPP_DIN_INH = false → s.dev.st ≠ .off → t.dev.evPending Ev.DIN_INHIBIT) ∧
      ∀ a, a < 16 → (s.dev.ax a).prof.run ≠ .rest → s.dev.axOn a = true → s.dev.axIs a .fault = false →
        (s.dev.homing a = true → t.dev.homing a = false) ∧
        (s.dev.homing a = false → (s.dev.ax a).prof.run ≠ .maxStop → (t.dev.ax a).prof = (s.dev.ax a).prof.planStop (s.dev.kin a)) := by
  obtain ⟨hflag, hheld, hseen, hpend⟩ := inputAsserted s.dev (f := .XPP_DIN_INH) (e := Ev.DIN_INHIBIT) .inhibit (.inr rfl) (by decide)
  have hin := (Dev.dinChange_only (c := 0x14080000100) (r := 0x8040 ||| fieldsMask [.XPP_DIN_INH]) (f := .XPP_DIN_INH) (v := Ev.DIN_INHIBIT) (on := true)
    (by decide) (by decide) (by decide) (Dev.Only.refl _ _ s.dev))
  have honly := (hin.mono (c' := 0x14080000180) (r' := 0x8050 ||| fieldsMask [.XPP_DIN_INH]) rfl rfl).trans
    ((Dev.holdCause_only (s.dev.dinChange .XPP_DIN_INH Ev.DIN_INHIBIT true) .inhibit).mono rfl rfl)
  refine gives_act (f := fun d => ((d.dinChange .XPP_DIN_INH Ev.DIN_INHIBIT true).holdCause .inhibit).forEach
    ((d.dinChange .XPP_DIN_INH Ev.DIN_INHIBIT true).holdCause .inhibit).movingAxes Dev.axStop) rfl ?_
  dsimp only
  generalize (s.dev.dinChange .XPP_DIN_INH Ev.DIN_INHIBIT true).holdCause .inhibit = e at hflag hheld hseen hpend honly
  have hstops := forEach_only e.movingAxes e Dev.axStop Dev.axStop_only
  refine ⟨(flag_only hstops (by decide) 0 0).trans hflag, (held_of hstops (by decide) .inhibit).trans hheld, ?_, fun hwas hoff => ?_, fun a ha hmoves hon hfault => ?_⟩
  · rw [show (e.forEach e.movingAxes Dev.axStop).holdSeen = e.holdSeen from hstops.parts .holdSeen (by decide)]
    exact hseen
  · exact axStops_pending _ (by decide) (hpend hwas hoff)
  · have hat : AxAt a s.dev e := AxAt.of a honly (by decide) (by decide)
    rw [← hat.1] at hmoves
    have hmem : a ∈ e.movingAxes := List.mem_filter.mpr ⟨List.mem_range.mpr ha, by simpa using hmoves⟩
    have hstop := axStops_inhibit hmem (List.nodup_range.filter _) ((axOn_of honly (by decide) (by decide) (by decide) a).trans hon) ((axIs_at hat .fault).trans hfault)
    rw [homing_at hat, hat.1, kin_of honly (by decide)] at hstop
    exact hstop

/-- Settles O23: the two inputs set and clear their hold causes, and INHIBIT# stops each moving axis from where it stands. -/
theorem discreteInputs : Obligations.DiscreteInputs := by
  unfold Obligations.DiscreteInputs
  exact ⟨fun s => gives_act (f := fun d => (d.dinChange .XPP_DIN_HOLD Ev.DIN_HOLD true).holdCause .pin) rfl (inputAsserted s.dev (e := Ev.DIN_HOLD) .pin (.inl rfl) (by decide)),
    fun s => gives_act (f := fun d => (d.dinChange .XPP_DIN_HOLD Ev.DIN_HOLD false).clearHold .pin) rfl (inputReleased s.dev (e := Ev.DIN_HOLD) .pin (.inl rfl) (by decide)), inhibitAssert_gives,
    fun s => gives_act (f := fun d => (d.dinChange .XPP_DIN_INH Ev.DIN_INHIBIT false).clearHold .inhibit) rfl (inputReleased s.dev (e := Ev.DIN_INHIBIT) .inhibit (.inr rfl) (by decide))⟩

end Sys2Proof.Machine

/-! Proofs: the generic register accesses (O49). -/
namespace Sys2Proof.Machine

set_option exponentiation.threshold 600

/-! ### Refused and invalid accesses -/

theorem invalidRegisterAccess_refused {lvl : Lvl} {addr : U32} {width : Byte} {w : Bool} {s : State} (h : s.dev.allowed 0 addr.toNat lvl.val w = false) :
    Gives (.invalidRegisterAccess lvl addr width w) s fun t => t.dev.rd .NOC_PV_VALID ≠ 0 ∧ t.dev.evPending Ev.NOC_PROT ∧
      (s.dev.flag .NOC_PV_VALID = false → t.dev.rd .NOC_PV_LVL = lvl.val ∧ t.dev.rd .NOC_PV_WR = bit w ∧ t.dev.rd .NOC_PV_SPACE = 0 ∧
        t.dev.rd .NOC_PV_VALID = 1) ∧
      (s.dev.flag .NOC_PV_VALID = true → ∀ f ∈ [Fld.NOC_PV_LVL, .NOC_PV_WR, .NOC_PV_SPACE, .NOC_PV_REGION, .NOC_PV_VALID, .NOC_PV_ADDR_ADDR],
        t.dev.rd f = s.dev.rd f) :=
  gives_fn (f := (·.invalidAccess lvl.val addr.toNat width.toNat w)) rfl (if_pos (by rw [h]; rfl)) (prot_st s.dev addr.toNat lvl.val w lvl.isLt)

theorem invalidRegisterAccess_invalid {lvl : Lvl} {addr : U32} {width : Byte} {w : Bool} {c : Nat} {s : State} (h : s.dev.allowed 0 addr.toNat lvl.val w = true)
    (hc : (width.toNat ≠ 4 ∨ addr.toNat % 4 ≠ 0) ∧ c = 1 ∨ width.toNat = 4 ∧ addr.toNat % 4 = 0 ∧ (findReg addr.toNat = none ∧ c = 0 ∨
      ∃ r i j, findReg addr.toNat = some (r, i, j) ∧ s.dev.absent r i = false ∧ s.dev.domOn (domOf r i) = false ∧ c = 2)) :
    Gives (.invalidRegisterAccess lvl addr width w) s fun t => t.dev.rd .AON_BUSERR_VALID ≠ 0 ∧
      (s.dev.flag .AON_BUSERR_VALID = false → t.dev.rd .AON_BUSERR_LVL = lvl.val ∧ t.dev.rd .AON_BUSERR_WR = bit w ∧
        t.dev.rd .AON_BUSERR_CAUSE = c ∧ t.dev.rd .AON_BUSERR_VALID = 1 ∧ t.dev.rd .AON_BUSERR_ADDR_ADDR = addr.toNat) ∧
      (s.dev.flag .AON_BUSERR_VALID = true → t = s) := by
  obtain ⟨heq, hcause⟩ := invalid_st s.dev lvl.val addr.toNat width.toNat w c h hc
  exact gives_fn (f := (·.invalidAccess lvl.val addr.toNat width.toNat w)) rfl heq (bus_st s addr.toNat lvl.val c w lvl.isLt hcause addr.isLt)

/-- A word write that is refused, invalid or of a register that the variant lacks does what the access alone does. -/
theorem regWrite_invalid {s : State} {lvl a v : Nat}
    (h : s.dev.allowed 0 a lvl true = false ∨ a % 4 ≠ 0 ∨ findReg a = none ∨
      ∃ r i j, findReg a = some (r, i, j) ∧ (s.dev.absent r i = true ∨ s.dev.domOn (domOf r i) = false)) :
    s.regWrite lvl a v = { s with dev := s.dev.invalidAccess lvl a 4 true } := by
  unfold State.regWrite Dev.invalidAccess
  dsimp only
  by_cases hallowed : s.dev.allowed 0 a lvl true = true
  case neg => rw [if_pos (by simpa using hallowed), if_pos (by simpa using hallowed)]
  rw [if_neg (by rw [hallowed]; decide)]
  by_cases haligned : a % 4 = 0
  case neg => rw [if_pos (by simpa using haligned), if_neg (by rw [hallowed]; decide), if_pos (by simpa using haligned)]
  rw [if_neg (by simpa using haligned), if_neg (by rw [hallowed]; decide), if_neg (by simpa using haligned)]
  rcases h with h | h | h | ⟨r, i, j, h, hgone⟩
  · exact absurd (hallowed.symm.trans h) (by decide)
  · exact absurd haligned h
  · rw [h]
  · rw [h]
    dsimp only
    by_cases habsent : s.dev.absent r i = true
    · rw [if_pos habsent, if_pos (by rw [habsent]; rfl)]
    · have hoff : s.dev.domOn (domOf r i) = false := hgone.resolve_left habsent
      rw [if_neg habsent, if_pos (by rw [hoff]; rfl), if_neg (by rw [hoff]; simpa using habsent)]

theorem registerWrite_invalid {lvl : Lvl} {addr val : U32} {s : State}
    (h : s.dev.allowed 0 addr.toNat lvl.val true = false ∨ addr.toNat % 4 ≠ 0 ∨ findReg addr.toNat = none ∨
      ∃ r i j, findReg addr.toNat = some (r, i, j) ∧ (s.dev.absent r i = true ∨ s.dev.domOn (domOf r i) = false)) :
    Gives (.registerWrite lvl addr val) s fun t => exec (.invalidRegisterAccess lvl addr (BitVec.ofNat 8 4) true) s = .next t :=
  ⟨_, rfl, congrArg Host.Outcome.next (regWrite_invalid h).symm⟩

/-! ### Writes that reach their register -/

section
variable {lvl : Lvl} {addr val : U32} {r : RegInfo} {i j : Nat} {s : State}

/-- The registers whose writes act beyond the block: none of their fields stands in r. -/
def RegInfo.quiet (r : RegInfo) : Prop :=
  ∀ f ∈ [Fld.DMA_RTAIL_IDX, .RW_SKIP_CTL_ARM, .CR_BOOTSEL_RESTART, .RKC_MITTEN_MIT, .ZL_LPCTL_PARK], f ∉ r.fields

theorem quiet_one {f : Fld} (h : r.fields = [f]) (hf : f ∉ [Fld.DMA_RTAIL_IDX, .RW_SKIP_CTL_ARM, .CR_BOOTSEL_RESTART, .RKC_MITTEN_MIT, .ZL_LPCTL_PARK]) : r.quiet := by
  intro g hg hmem
  rw [h, List.mem_singleton] at hmem
  exact hf (hmem ▸ hg)

/-- A write that reaches a quiet register does what its fields do. -/
theorem registerWrite_quiet {p : State → Prop} (hallowed : s.dev.allowed 0 addr.toNat lvl.val true = true) (haligned : addr.toNat % 4 = 0)
    (hreg : findReg addr.toNat = some (r, i, j)) (hpresent : s.dev.absent r i = false) (hon : s.dev.domOn (domOf r i) = true) (hr : r.quiet)
    (hp : p { s with dev := s.dev.writeWord lvl.val val.toNat r i j }) : Gives (.registerWrite lvl addr val) s p := by
  refine ⟨s.regWrite lvl.val addr.toNat val.toNat, rfl, ?_⟩
  rw [regWrite_on hallowed haligned hreg hpresent hon,
    acts_none _ _ _ _ _ (hr _ (by decide)) (hr _ (by decide)) (hr _ (by decide)) (hr _ (by decide))]
  exact hp

/-- No field of r takes a value from level `lvl`. -/
def RegInfo.locked (r : RegInfo) (lvl : Nat) : Prop := ∀ f ∈ r.fields, (fldSpec f).acc = .ro ∨ (fldSpec f).acc = .rwp ∧ lvl ≠ 3

theorem quiet_of_locked (h : r.locked lvl.val) : r.quiet := by
  intro f hf hmem
  have hacc : ¬((fldSpec f).acc = .ro ∨ (fldSpec f).acc = .rwp) := by
    simp only [List.mem_cons, List.not_mem_nil, or_false] at hf
    rcases hf with rfl | rfl | rfl | rfl | rfl <;> decide
  exact hacc ((h f hmem).imp_right And.left)

theorem writeWord_locked {n v : Nat} (d : Dev) (hr : r.quiet) (h : r.locked n) : d.writeWord n v r i j = d := by
  unfold Dev.writeWord
  dsimp only
  rw [elem_false (hr .ZL_LPCTL_PARK (by decide)), if_neg (by decide)]
  exact fold_keep r.fields _ id (fun d f hf => writeField_id d n v f i j (h f hf)) d

/-- The RW and RWP fields that the obligation lists. -/
def plainFields : List Fld :=
  [.AON_IMASK_EN, .RW_SKIP_JN_JN, .RW_SKIP_LINE_LINE, .VIS_PARM_W, .TR_THR_THR, .XPP_EVMASK_MASK, .HT_SP_SP, .CR_FWBASE_ADDR, .NOC_PR_BASE_BASE,
    .NOC_PR_LIM_LIM, .RKC_DEFCOST_COST, .RW_LEADREQ_COUNTS, .FIRE_CPR_CPR, .FIRE_LEAD_NS, .FIRE_GAP_COUNTS, .AX_SOFT_POS, .AX_COEF_C, .HT_COEF_C,
    .AB_AMAX_A, .XPP_ID_ID, .TB_XTAL_PPB, .DMA_CTL_RETRY]

theorem storeField_plain {f : Fld} (h : f ∈ plainFields) (d : Dev) (x : Nat) : d.storeField f i j x = d.wr f x i j := by
  unfold plainFields at h
  simp only [List.mem_cons, List.not_mem_nil, or_false] at h
  rcases h with rfl | rfl | rfl | rfl | rfl | rfl | rfl | rfl | rfl | rfl | rfl | rfl | rfl | rfl | rfl | rfl | rfl | rfl | rfl | rfl | rfl | rfl <;> rfl

theorem writeField_stores {f : Fld} {n : Nat} (h : (fldSpec f).acc = .rw ∨ (fldSpec f).acc = .rwp ∧ n = 3) (d : Dev) (v : Nat) :
    d.writeField n v f i j = d.storeField f i j (bitsOf v (fldSpec f).lo (fldSpec f).width) := by
  unfold Dev.writeField
  dsimp only
  rcases h with h | ⟨h, hl⟩
  · rw [h]
  · rw [h]
    exact if_pos hl

theorem registerWrite_stores {f : Fld} (hallowed : s.dev.allowed 0 addr.toNat lvl.val true = true) (haligned : addr.toNat % 4 = 0)
    (hreg : findReg addr.toNat = some (r, i, j)) (hpresent : s.dev.absent r i = false) (hon : s.dev.domOn (domOf r i) = true)
    (hplain : f ∈ plainFields) (hacc : (fldSpec f).acc = .rw ∨ (fldSpec f).acc = .rwp ∧ lvl.val = 3) (hr : r.fields = [f]) :
    Gives (.registerWrite lvl addr val) s fun t => t.dev.rd f i j = bitsOf val.toNat (fldSpec f).lo (fldSpec f).width := by
  have hquiet : f ∉ [Fld.DMA_RTAIL_IDX, .RW_SKIP_CTL_ARM, .CR_BOOTSEL_RESTART, .RKC_MITTEN_MIT, .ZL_LPCTL_PARK] := by
    have hall : ∀ g ∈ plainFields, g ∉ [Fld.DMA_RTAIL_IDX, .RW_SKIP_CTL_ARM, .CR_BOOTSEL_RESTART, .RKC_MITTEN_MIT, .ZL_LPCTL_PARK] := by decide
    exact hall f hplain
  refine registerWrite_quiet hallowed haligned hreg hpresent hon (quiet_one hr hquiet) ?_
  dsimp only
  rw [word_one _ _ _ _ _ _ f hr (fun h => hquiet (by rw [h]; decide)), writeField_stores hacc, storeField_plain hplain]
  exact rd_wr_self _ _ _ _ _ (bits_lt _ _ _)

/-- The W1C fields that the obligation lists. -/
def clearedFields : List Fld := [.AON_EVPEND_PEND, .AON_RIRQ_LO_RING, .AON_RIRQ_HI_RING, .DMA_HALT_LO_HALT, .DMA_HALT_HI_HALT]

/-- Ones written to a W1C field clear its bits; zeroes leave them. -/
theorem writeField_clears {f : Fld} (h : f ∈ clearedFields) (d : Dev) (n v : Nat) {b : Nat} (hb : b < (fldSpec f).width) :
    bitOf ((d.writeField n v f i j).rd f i 0) b = (bitOf (d.rd f i 0) b && !bitOf v b) := by
  have hspec : (fldSpec f).acc = .w1c ∧ (fldSpec f).lo = 0 ∧ f ≠ .RKC_MITTEN_MIT := by
    have hall : ∀ g ∈ clearedFields, (fldSpec g).acc = .w1c ∧ (fldSpec g).lo = 0 ∧ g ≠ .RKC_MITTEN_MIT := by decide
    exact hall f h
  obtain ⟨hacc, hlo, hne⟩ := hspec
  have hclear : ∀ x, d.clearField f i x = d.wr f (d.rd f i - (d.rd f i &&& x)) i := by
    intro x
    unfold Dev.clearField
    split
    · exact absurd rfl hne
    · rfl
  have hbit : bitOf (bitsOf v 0 (fldSpec f).width) b = bitOf v b := by
    unfold bitsOf
    rw [bitOf_mod _ _ _ hb, Nat.pow_zero, Nat.div_one]
  unfold Dev.writeField
  dsimp only
  rw [hacc, hlo]
  dsimp only
  by_cases hzero : bitsOf v 0 (fldSpec f).width = 0
  · rw [if_pos hzero, ← hbit, hzero, bitOf_zero]
    simp
  · rw [if_neg hzero, hclear, Dev.rd_wr, if_pos ⟨rfl, rfl, rfl⟩, bitOf_mod _ _ _ hb, ← hbit]
    exact testBit_sub_and _ _ _

theorem registerWrite_clears {f : Fld} (hallowed : s.dev.allowed 0 addr.toNat lvl.val true = true) (haligned : addr.toNat % 4 = 0)
    (hreg : findReg addr.toNat = some (r, i, j)) (hpresent : s.dev.absent r i = false) (hon : s.dev.domOn (domOf r i) = true)
    (hf : f ∈ clearedFields) (hr : r.fields = [f]) :
    Gives (.registerWrite lvl addr val) s fun t => ∀ b, b < (fldSpec f).width →
      bitOf (t.dev.rd f i 0) b = (bitOf (s.dev.rd f i 0) b && !bitOf val.toNat b) := by
  have hquiet : f ∉ [Fld.DMA_RTAIL_IDX, .RW_SKIP_CTL_ARM, .CR_BOOTSEL_RESTART, .RKC_MITTEN_MIT, .ZL_LPCTL_PARK] := by
    have hall : ∀ g ∈ clearedFields, g ∉ [Fld.DMA_RTAIL_IDX, .RW_SKIP_CTL_ARM, .CR_BOOTSEL_RESTART, .RKC_MITTEN_MIT, .ZL_LPCTL_PARK] := by decide
    exact hall f hf
  refine registerWrite_quiet hallowed haligned hreg hpresent hon (quiet_one hr hquiet) fun b hb => ?_
  dsimp only
  rw [word_one _ _ _ _ _ _ f hr (fun h => hquiet (by rw [h]; decide))]
  exact writeField_clears hf s.dev lvl.val val.toNat hb

end

/-- Settles O49: refused and invalid accesses are latched, and a write that reaches its register stores or clears by its access type. -/
theorem registerAccesses : Obligations.RegisterAccesses := by
  unfold Obligations.RegisterAccesses
  refine ⟨fun lvl addr width w s => invalidRegisterAccess_refused, fun lvl addr width w c s => invalidRegisterAccess_invalid,
    fun lvl addr val s => registerWrite_invalid, fun lvl addr val r i j s hallowed haligned hreg hpresent hon => ⟨fun hlocked => ?_, fun f hf hr => ?_,
      fun hlevel f hf hr => ?_, fun f hf hr => registerWrite_clears hallowed haligned hreg hpresent hon hf hr⟩⟩
  · have hquiet : r.quiet := quiet_of_locked hlocked
    refine registerWrite_quiet hallowed haligned hreg hpresent hon hquiet ?_
    rw [writeWord_locked s.dev hquiet hlocked]
  · have hall : ∀ g ∈ [Fld.AON_IMASK_EN, .RW_SKIP_JN_JN, .RW_SKIP_LINE_LINE, .VIS_PARM_W, .TR_THR_THR, .XPP_EVMASK_MASK, .HT_SP_SP],
        g ∈ plainFields ∧ (fldSpec g).acc = .rw := by decide
    exact registerWrite_stores hallowed haligned hreg hpresent hon (hall f hf).1 (.inl (hall f hf).2) hr
  · have hall : ∀ g ∈ [Fld.CR_FWBASE_ADDR, .NOC_PR_BASE_BASE, .NOC_PR_LIM_LIM, .RKC_DEFCOST_COST, .RW_LEADREQ_COUNTS, .FIRE_CPR_CPR, .FIRE_LEAD_NS,
        .FIRE_GAP_COUNTS, .AX_SOFT_POS, .AX_COEF_C, .HT_COEF_C, .AB_AMAX_A, .XPP_ID_ID, .TB_XTAL_PPB, .DMA_CTL_RETRY],
        g ∈ plainFields ∧ (fldSpec g).acc = .rwp := by decide
    exact registerWrite_stores hallowed haligned hreg hpresent hon (hall f hf).1 (.inr ⟨(hall f hf).2, hlevel⟩) hr

end Sys2Proof.Machine

/-! Proofs: the memory subsystem (O45). -/
namespace Sys2Proof.Machine

set_option exponentiation.threshold 600

/-! ### Refresh and die temperature -/

theorem refreshInterval_gives {c : Chan} {idle : Bool} {s : State} (htrained : s.dev.trained c = true) (hleave : (s.dev.mch c).leave2x = false)
    (hband : s.dev.flag .MEM_CH_STAT_BAND2X c = false) : Gives (.refreshInterval c idle) s fun t =>
      t.dev.rd .MEM_CH_STAT_OWED c = if idle = true ∨ 5 ≤ s.dev.rd .MEM_CH_STAT_OWED c + 1 then 0 else s.dev.rd .MEM_CH_STAT_OWED c + 1 := by
  refine gives_act (f := (·.refreshInterval c idle)) rfl ?_
  dsimp only
  unfold Dev.refreshInterval
  rw [if_neg (by rw [htrained]; decide), if_neg (by rw [hleave]; decide), if_neg (by rw [hband]; decide)]
  dsimp only
  generalize s.dev.rd .MEM_CH_STAT_OWED c + 1 = owed
  by_cases hissue : idle = true ∨ 5 ≤ owed
  · rw [if_pos hissue, if_pos (by simpa using hissue)]
    exact rd_wr_self _ _ _ _ _ (by decide)
  · rw [if_neg hissue, if_neg (by simpa using hissue)]
    rw [not_or, Nat.not_le] at hissue
    exact rd_wr_self _ _ _ _ _ (Nat.lt_trans hissue.2 (by decide))

theorem srd_temp (d : Dev) (c : Nat) (td : U16) : (d.wr .MEM_TEMP_TD td.toNat c).srd .MEM_TEMP_TD c = td.toInt := by
  unfold Dev.srd
  rw [rd_wr_self _ _ _ _ _ td.isLt]
  exact congrArg BitVec.toInt (BitVec.ofNat_toNat 16 td |>.trans (BitVec.setWidth_eq td))

/-- What a sample for the 2x band shows; a sample for the recalibration trigger leaves it. -/
def BandShown (c : Nat) (was : Thr) (band : Thr) (d : Dev) : Prop :=
  (d.mch c).band = band ∧
  (was.on = false → band.on = true → d.rd .MEM_CH_STAT_BAND2X c = 1 ∧ d.rd .MEM_CH_STAT_OWED c = 0 ∧ d.evPending Ev.MEM_REF2X) ∧
  (was.on = true → band.on = false → d.rd .MEM_CH_STAT_BAND2X c = 0 ∧ d.evPending Ev.MEM_REF2X)

theorem bandShown_moved {was band : Thr} {d : Dev} (h : BandShown 0 was band d) (td : Nat) : BandShown 0 was band (d.sampleMoved td) := by
  obtain ⟨hband, henter, hleave⟩ := h
  obtain ⟨hkeeps, hpend⟩ := sampleMoved_st d td
  have honly := Dev.sampleMoved_only d td
  refine ⟨hkeeps.trans hband, fun hoff hon => ?_, fun hon hoff => ?_⟩
  · obtain ⟨h2x, howed, hev⟩ := henter hoff hon
    exact ⟨(honly.rd _ _ _ (by decide)).trans h2x, (honly.rd _ _ _ (by decide)).trans howed, hpend _ hev⟩
  · exact ⟨(honly.rd _ _ _ (by decide)).trans (hleave hon hoff).1, hpend _ (hleave hon hoff).2⟩

theorem mr4Poll_gives {c : Chan} {td : U16} {s : State} (htrained : s.dev.trained c = true) : Gives (.mr4Poll c td) s fun t =>
    let band := (s.dev.mch c).band.sample td.toInt 1360 1328
    t.dev.rd .MEM_TEMP_TD c = td.toNat ∧ (t.dev.mch c).band = band ∧
    ((s.dev.mch c).band.on = false → band.on = true → t.dev.rd .MEM_CH_STAT_BAND2X c = 1 ∧ t.dev.rd .MEM_CH_STAT_OWED c = 0 ∧ t.dev.evPending Ev.MEM_REF2X) ∧
    ((s.dev.mch c).band.on = true → band.on = false → t.dev.rd .MEM_CH_STAT_BAND2X c = 0 ∧ t.dev.evPending Ev.MEM_REF2X) := by
  refine gives_act (f := (·.mr4Poll c td.toNat)) rfl ?_
  dsimp only
  unfold Dev.mr4Poll
  rw [if_neg (by rw [htrained]; decide)]
  dsimp only
  have htemp : ((s.dev.wr .MEM_TEMP_TD td.toNat c).sampleBand c).rd .MEM_TEMP_TD c = td.toNat :=
    ((Dev.sampleBand_only _ _).rd _ _ _ (by decide)).trans (rd_wr_self _ _ _ _ _ td.isLt)
  have hshown : BandShown c (s.dev.mch c).band ((s.dev.mch c).band.sample td.toInt 1360 1328) ((s.dev.wr .MEM_TEMP_TD td.toNat c).sampleBand c) :=
    sampleBand_st (s.dev.wr .MEM_TEMP_TD td.toNat c) c _ (by rw [srd_temp, wr_mch])
  generalize (s.dev.wr .MEM_TEMP_TD td.toNat c).sampleBand c = e at htemp hshown
  by_cases hc : c.val = 0
  · rw [if_pos hc]
    rw [hc] at htemp hshown ⊢
    exact ⟨((Dev.sampleMoved_only _ _).rd _ _ _ (by decide)).trans htemp, bandShown_moved hshown td.toNat⟩
  · rw [if_neg hc]
    exact ⟨htemp, hshown⟩

/-! ### Calibration windows -/

theorem calWindowOpen_gives {s : State} (h : s.dev.windowMayOpen = true) : Gives .calWindowOpen s fun t =>
    t.dev.rd .MEM_CH_STAT_STATE 0 = 3 ∧ (t.dev.mch 0).window = some (s.dev.rd .MEM_CH_STAT_STEP 0) := by
  refine gives_fn (show exec .calWindowOpen s = execCalWindowOpen s from rfl) (if_pos h) ?_
  dsimp only
  rw [updMch_rd, updMch_mch]
  exact ⟨rd_wr_self s.dev .MEM_CH_STAT_STATE 3 0 0 (by decide), rfl⟩

/-- A window of channel A ends, before its step is judged. -/
def Dev.windowClosed (d : Dev) : Dev :=
  (d.wr .MEM_CH_STAT_STATE 2 0).updMch 0 (fun m => { m with window := none, winEnd := d.now, waitSince := d.now })

theorem calWindowEnd_eq {d : Dev} {l : Nat} (h : (d.mch 0).window = some l) (rd wr : Nat) (done : Bool) :
    d.calWindowEnd rd wr done = if done then (d.windowClosed.setEye 0 l rd wr).stepDone l
      else (d.windowClosed.inc .MEM_CALCNT_ABANDON 0).raise Ev.MEM_CAL_ABANDON (le 1 l) := by
  unfold Dev.calWindowEnd
  rw [h]
  rfl

/-- The window is closed and the channel active again; `again` names the sample that waits for a new run. -/
def WindowOver (again : Option Nat) (d : Dev) : Prop := (d.mch 0).window = none ∧ d.rd .MEM_CH_STAT_STATE 0 = 2 ∧ (d.mch 0).again = again

theorem windowClosed_over (d : Dev) : WindowOver (d.mch 0).again d.windowClosed := by
  unfold WindowOver Dev.windowClosed
  rw [updMch_mch, updMch_rd]
  exact ⟨rfl, rd_wr_self d .MEM_CH_STAT_STATE 2 0 0 (by decide), rfl⟩

theorem windowClosed_rd (d : Dev) {f : Fld} (h : f ≠ .MEM_CH_STAT_STATE) (i j : Nat) : d.windowClosed.rd f i j = d.rd f i j :=
  rd_wr_other d 2 0 0 i j h

theorem WindowOver.of_only {again : Option Nat} {c r : Nat} {d e : Dev} (h : WindowOver again d) (ho : Dev.Only c r d e)
    (hc : c.testBit (Part.ctorIdx .msub) = false) (hr : r.testBit (Fld.ctorIdx .MEM_CH_STAT_STATE) = false) : WindowOver again e := by
  unfold WindowOver
  rw [mch_congr (ho.parts .msub hc), ho.rd _ _ _ hr]
  exact h

theorem calWindowEnd_abandons {rd wr : Byte} {l : Nat} {s : State} (h : (s.dev.mch 0).window = some l) :
    Gives (.calWindowEnd rd wr false) s fun t => (t.dev.mch 0).window = none ∧ t.dev.rd .MEM_CH_STAT_STATE 0 = 2 ∧
      t.dev.rd .MEM_CALCNT_ABANDON 0 = min (s.dev.rd .MEM_CALCNT_ABANDON 0 + 1) 65535 ∧ t.dev.evPending Ev.MEM_CAL_ABANDON := by
  refine gives_fn (f := (·.calWindowEnd rd.toNat wr.toNat false)) rfl ((calWindowEnd_eq h _ _ _).trans (if_neg (by decide))) ?_
  have hcount : (s.dev.windowClosed.inc .MEM_CALCNT_ABANDON 0).rd .MEM_CALCNT_ABANDON 0 = min (s.dev.rd .MEM_CALCNT_ABANDON 0 + 1) 65535 := by
    rw [inc_rd, windowClosed_rd _ (by decide)]
    rfl
  have hover := (windowClosed_over s.dev).of_only
    ((Dev.Only.refl 0 (fieldsMask [.MEM_CALCNT_ABANDON]) _).wr .MEM_CALCNT_ABANDON (min (s.dev.windowClosed.rd .MEM_CALCNT_ABANDON 0 + 1) 65535) 0 0 (by decide)) (by decide) (by decide)
  change WindowOver _ (s.dev.windowClosed.inc .MEM_CALCNT_ABANDON 0) at hover
  generalize s.dev.windowClosed.inc .MEM_CALCNT_ABANDON 0 = e at hcount hover
  have hraise := Dev.raise_only e Ev.MEM_CAL_ABANDON (le 1 l)
  have hpend := Dev.raise_pending e Ev.MEM_CAL_ABANDON (le 1 l) (by decide)
  obtain ⟨hwindow, hstate, _⟩ := hover.of_only hraise (by decide) (by decide)
  exact ⟨hwindow, hstate, (hraise.rd _ _ _ (by decide)).trans hcount, hpend⟩

theorem calWindowEnd_steps {rd wr : Byte} {l : Nat} {s : State} (h : (s.dev.mch 0).window = some l) (hl : l < 9) :
    Gives (.calWindowEnd rd wr true) s fun t => (t.dev.mch 0).window = none ∧ t.dev.rd .MEM_CH_STAT_STATE 0 = 2 ∧
      t.dev.rd .MEM_CH_STAT_STEP 0 = l + 1 ∧ t.dev.rd .MEM_EYE_RD 0 l = rd.toNat ∧ t.dev.rd .MEM_EYE_WR 0 l = wr.toNat := by
  refine gives_fn (f := (·.calWindowEnd rd.toNat wr.toNat true)) rfl ((calWindowEnd_eq h _ _ _).trans (if_pos rfl)) ?_
  obtain ⟨hrd, hwr, _⟩ := setEye_st s.dev.windowClosed 0 l rd.toNat wr.toNat rd.isLt wr.isLt
  have hover := (windowClosed_over s.dev).of_only (Dev.setEye_only s.dev.windowClosed 0 l rd.toNat wr.toNat) (by decide) (by decide)
  generalize s.dev.windowClosed.setEye 0 l rd.toNat wr.toNat = e at hrd hwr hover
  unfold Dev.stepDone
  rw [if_pos hl]
  obtain ⟨hwindow, hstate, _⟩ := hover
  exact ⟨hwindow, (rd_wr_other _ _ _ _ _ _ (by decide)).trans hstate, rd_wr_self _ _ _ _ _ (Nat.lt_trans (Nat.succ_lt_succ hl) (by decide)),
    (rd_wr_other _ _ _ _ _ _ (by decide)).trans hrd, (rd_wr_other _ _ _ _ _ _ (by decide)).trans hwr⟩

/-- The end of a run in the registers. -/
def Dev.runCounted (d : Dev) : Dev := ((d.wr .MEM_CH_STAT_CALPEND 0 0).wr .MEM_CH_STAT_STEP 0 0).incWrap .MEM_CALCNT_RUNS 0

/-- The end of a run, with its event. -/
def Dev.runDone (d : Dev) : Dev :=
  d.runCounted.raise Ev.MEM_CAL_DONE (le 1 0 ++ le 1 d.runCounted.leastEye ++ le 2 (d.runCounted.rd .MEM_TEMP_TCAL 0))

theorem runCounted_only (d : Dev) : Dev.Only 0 (fieldsMask [.MEM_CH_STAT_CALPEND, .MEM_CH_STAT_STEP, .MEM_CALCNT_RUNS]) d d.runCounted :=
  (((Dev.Only.refl _ _ d).wr .MEM_CH_STAT_CALPEND 0 0 0 (by decide)).wr .MEM_CH_STAT_STEP 0 0 0 (by decide)).wr .MEM_CALCNT_RUNS _ 0 0 (by decide)

theorem runCounted_rd (d : Dev) : d.runCounted.rd .MEM_CH_STAT_CALPEND 0 = 0 := by
  unfold Dev.runCounted Dev.incWrap
  rw [rd_wr_other _ _ _ _ _ _ (by decide), rd_wr_other _ _ _ _ _ _ (by decide)]
  exact rd_wr_self d .MEM_CH_STAT_CALPEND 0 0 0 (by decide)

theorem runDone_is {again : Option Nat} {d : Dev} (h : WindowOver again d) :
    WindowOver again d.runDone ∧ d.runDone.rd .MEM_CH_STAT_CALPEND 0 = 0 ∧ d.runDone.evPending Ev.MEM_CAL_DONE := by
  unfold Dev.runDone
  have hover := h.of_only (runCounted_only d) (by decide) (by decide)
  have hpend := runCounted_rd d
  generalize d.runCounted = e at hover hpend
  generalize le 1 0 ++ le 1 e.leastEye ++ le 2 (e.rd .MEM_TEMP_TCAL 0) = data
  have hraise := Dev.raise_only e Ev.MEM_CAL_DONE data
  exact ⟨hover.of_only hraise (by decide) (by decide), (hraise.rd _ _ _ (by decide)).trans hpend, Dev.raise_pending e _ data (by decide)⟩

theorem stepDone_ends {d : Dev} {l : Nat} (hl : 9 ≤ l) (h : WindowOver none d) :
    d.stepDone l = d.runDone.updMch 0 (fun m => { m with run := false, again := none }) := by
  obtain ⟨⟨_, _, hagain⟩, _⟩ := runDone_is h
  unfold Dev.stepDone
  rw [if_neg (Nat.not_lt.mpr hl)]
  refine if_neg ?_
  show ¬((d.runDone.mch 0).again.isSome = true)
  rw [hagain]
  decide

theorem calWindowEnd_ends {rd wr : Byte} {l : Nat} {s : State} (h : (s.dev.mch 0).window = some l) (hl : 9 ≤ l) (hagain : (s.dev.mch 0).again = none) :
    Gives (.calWindowEnd rd wr true) s fun t => (t.dev.mch 0).window = none ∧ t.dev.rd .MEM_CH_STAT_CALPEND 0 = 0 ∧ (t.dev.mch 0).run = false ∧
      t.dev.evPending Ev.MEM_CAL_DONE := by
  have hclosed := windowClosed_over s.dev
  rw [hagain] at hclosed
  have hover := hclosed.of_only (Dev.setEye_only s.dev.windowClosed 0 l rd.toNat wr.toNat) (by decide) (by decide)
  have hend : s.dev.calWindowEnd rd.toNat wr.toNat true =
      (s.dev.windowClosed.setEye 0 l rd.toNat wr.toNat).runDone.updMch 0 (fun m => { m with run := false, again := none }) := by
    rw [calWindowEnd_eq h, if_pos rfl, stepDone_ends hl hover]
  refine gives_fn (f := (·.calWindowEnd rd.toNat wr.toNat true)) rfl hend ?_
  dsimp only
  obtain ⟨⟨hwindow, _⟩, hrun, hpend⟩ := runDone_is hover
  generalize (s.dev.windowClosed.setEye 0 l rd.toNat wr.toNat).runDone = e at hwindow hrun hpend
  rw [updMch_mch, updMch_rd]
  exact ⟨hwindow, hrun, rfl, (Dev.updMch_only e 0 _).evPending _ (Nat.zero_testBit _) hpend⟩

theorem memCalLate_gives {s : State} (hpend : s.dev.flag .MEM_CH_STAT_CALPEND 0 = true) (hwindow : (s.dev.mch 0).window = none)
    (hlate : (s.dev.mch 0).late = false) (hwait : (s.dev.mch 0).waitSince + 1000000 * s.dev.rd .MEM_CALCFG_LATE < s.dev.now) :
    Gives .memCalLate s fun t => (t.dev.mch 0).late = true ∧ t.dev.evPending Ev.MEM_CAL_LATE := by
  have hdue : s.dev.passed ((s.dev.mch 0).waitSince + 1) (1000000 * s.dev.rd .MEM_CALCFG_LATE) = true := decide_eq_true (by omega)
  refine gives_fn (show exec .memCalLate s = execMemCalLate s from rfl)
    (if_pos (show (s.dev.flag .MEM_CH_STAT_CALPEND 0 && (s.dev.mch 0).window.isNone && !(s.dev.mch 0).late && _) = true from ?_)) ?_
  · rw [hpend, hwindow, hlate, hdue]
    rfl
  · refine ⟨?_, Dev.raise_pending _ _ _ (by decide)⟩
    dsimp only
    rw [raise_mch, updMch_mch]

/-! ### Retraining pauses of channel B -/

theorem zipIdx_nodup {α : Type} (l : List α) (n : Nat) : ((l.zipIdx n).map (·.2)).Nodup := by
  rw [List.zipIdx_map_snd]
  exact List.nodup_range'

theorem channelBRetrain_gives {eyes : List (Byte × Byte)} {s : State} (hwf : wfEyes eyes = true) (htrained : s.dev.trained 1 = true) :
    Gives (.channelBRetrain eyes) s fun t =>
      t.dev.rd .MEM_CH_STAT_OWED 1 = 0 ∧ t.dev.rd .MEM_TEMP_TCAL 1 = s.dev.rd .MEM_TEMP_TD 1 % 2 ^ 16 ∧
      ∀ l e, (e, l) ∈ eyes.zipIdx → t.dev.rd .MEM_EYE_RD 1 l = e.1.toNat ∧ t.dev.rd .MEM_EYE_WR 1 l = e.2.toNat := by
  have htake : eyes.take 10 = eyes := List.take_of_length_le (Nat.le_of_eq (by unfold wfEyes at hwf; simpa using hwf))
  refine gives_fn (f := fun d => d.retrainB (eyes.take 10)) rfl (if_neg (by rw [htrained]; decide)) ?_
  dsimp only
  rw [htake]
  have howed : (((s.dev.wr .MEM_CH_STAT_OWED 0 1).wr .MEM_TEMP_TCAL (s.dev.rd .MEM_TEMP_TD 1) 1).incWrap .MEM_CALCNT_RUNS 1).rd .MEM_CH_STAT_OWED 1 = 0 :=
    (rd_wr_other _ _ _ _ _ _ (by decide)).trans ((rd_wr_other _ _ _ _ _ _ (by decide)).trans (rd_wr_self _ _ _ _ _ (by decide)))
  have htcal : (((s.dev.wr .MEM_CH_STAT_OWED 0 1).wr .MEM_TEMP_TCAL (s.dev.rd .MEM_TEMP_TD 1) 1).incWrap .MEM_CALCNT_RUNS 1).rd .MEM_TEMP_TCAL 1 =
      s.dev.rd .MEM_TEMP_TD 1 % 2 ^ 16 :=
    (rd_wr_other _ _ _ _ _ _ (by decide)).trans ((Dev.rd_wr ..).trans (if_pos ⟨rfl, rfl, rfl⟩))
  generalize ((s.dev.wr .MEM_CH_STAT_OWED 0 1).wr .MEM_TEMP_TCAL (s.dev.rd .MEM_TEMP_TD 1) 1).incWrap .MEM_CALCNT_RUNS 1 = d at howed htcal
  have hkeep := forEach_only eyes.zipIdx d (fun d e => d.setEye 1 e.2 e.1.1.toNat e.1.2.toNat) (fun d e => Dev.setEye_only d 1 e.2 e.1.1.toNat e.1.2.toNat)
  exact ⟨(hkeep.rd _ _ _ (by decide)).trans howed, (hkeep.rd _ _ _ (by decide)).trans htcal,
    fun l e he => (eyes_st eyes.zipIdx (zipIdx_nodup eyes 0) d).1 (e, l) he⟩

/-! ### Operating points -/

/-- The operating point changes: the registers, TCAL of the other point, and the event. -/
def Dev.repoint (d : Dev) (us : Nat) : Dev :=
  let old := d.rd .MEM_TEMP_TCAL 0
  let d := (d.wr .MEM_CH_STAT_OWED 0 0).wr .MEM_CH_STAT_OWED 0 1
  let d := d.wr .MEM_CTL_CUR (d.rd .MEM_CTL_REQ)
  let d := (d.wr .MEM_TEMP_TCAL (d.mch 0).tcalOther 0).updMch 0 (fun m => { m with tcalOther := old, moved := 0 })
  d.raise Ev.MEM_FREQ (le 1 (d.rd .MEM_CTL_CUR) ++ le 1 us)

/-- A run starts where the new point's TCAL lies far from the reading. -/
def Dev.recheckTemp (d : Dev) : Dev := if d.movedFar then d.pendRun (d.rd .MEM_TEMP_TD 0) else d

/-- A start or resume that waited for the point enters ARMED. -/
def Dev.armWaiting (d : Dev) : Dev := if d.freqWait && d.rd .MEM_CTL_CUR = 0 then Dev.enter { d with freqWait := false } .armed else d

theorem freqChange_eq {d : Dev} (us : Nat) (hreq : d.rd .MEM_CTL_REQ ≠ d.rd .MEM_CTL_CUR) (hst : d.st.freqStates = true)
    (hwindow : (d.mch 0).window = none) (htrained : d.trained 0 = true) : d.freqChange us = (d.repoint us).recheckTemp.armWaiting := by
  refine if_neg ?_
  rw [hst, hwindow, htrained]
  simpa using hreq

theorem repoint_is (d : Dev) (us : Nat) : (d.repoint us).rd .MEM_CTL_CUR = d.rd .MEM_CTL_REQ % 2 ∧ (d.repoint us).rd .MEM_CH_STAT_OWED 0 = 0 ∧
    (d.repoint us).rd .MEM_CH_STAT_OWED 1 = 0 ∧ (d.repoint us).freqWait = d.freqWait := by
  unfold Dev.repoint
  dsimp only
  have hreq : ((d.wr .MEM_CH_STAT_OWED 0 0).wr .MEM_CH_STAT_OWED 0 1).rd .MEM_CTL_REQ = d.rd .MEM_CTL_REQ :=
    (rd_wr_other _ _ _ _ _ _ (by decide)).trans (rd_wr_other _ _ _ _ _ _ (by decide))
  have howedA : ((d.wr .MEM_CH_STAT_OWED 0 0).wr .MEM_CH_STAT_OWED 0 1).rd .MEM_CH_STAT_OWED 0 = 0 :=
    (Dev.rd_wr ..).trans ((if_neg (by decide)).trans (rd_wr_self _ _ _ _ _ (by decide)))
  have howedB : ((d.wr .MEM_CH_STAT_OWED 0 0).wr .MEM_CH_STAT_OWED 0 1).rd .MEM_CH_STAT_OWED 1 = 0 := rd_wr_self _ _ _ _ _ (by decide)
  have hwait : ((d.wr .MEM_CH_STAT_OWED 0 0).wr .MEM_CH_STAT_OWED 0 1).freqWait = d.freqWait := rfl
  generalize (d.wr .MEM_CH_STAT_OWED 0 0).wr .MEM_CH_STAT_OWED 0 1 = e at hreq howedA howedB hwait
  refine ⟨?_, ?_, ?_, ((Dev.raise_only _ _ _).parts .freqWait (by decide)).trans hwait⟩
  · rw [(Dev.raise_only _ _ _).rd _ _ _ (by decide), updMch_rd, rd_wr_other _ _ _ _ _ _ (by decide), Dev.rd_wr, if_pos ⟨rfl, rfl, rfl⟩, hreq]
    rfl
  · rw [(Dev.raise_only _ _ _).rd _ _ _ (by decide), updMch_rd, rd_wr_other _ _ _ _ _ _ (by decide), rd_wr_other _ _ _ _ _ _ (by decide)]
    exact howedA
  · rw [(Dev.raise_only _ _ _).rd _ _ _ (by decide), updMch_rd, rd_wr_other _ _ _ _ _ _ (by decide), rd_wr_other _ _ _ _ _ _ (by decide)]
    exact howedB

theorem recheckTemp_only (d : Dev) : Dev.Only (partsMask [.msub]) (fieldsMask [.MEM_TEMP_TCAL, .MEM_CH_STAT_CALPEND, .MEM_CH_STAT_STEP, .MEM_EYE_STALE]) d d.recheckTemp := by
  unfold Dev.recheckTemp
  split
  · exact (Dev.pendRun_only _ _).mono rfl rfl
  · exact Dev.Only.refl _ _ _

theorem armWaiting_only (d : Dev) : Dev.Only (0x18800400100 ||| partsMask [.freqWait]) 0x8 d d.armWaiting := by
  unfold Dev.armWaiting
  split
  · exact ((Dev.Only.refl _ _ d).with_freqWait (c := 0x18800400100 ||| partsMask [.freqWait]) (r := 0x8) false (by decide)).trans ((Dev.enter_only _ _).mono rfl rfl)
  · exact Dev.Only.refl _ _ _

theorem armWaiting_arms {d : Dev} (hwait : d.freqWait = true) (hcur : d.rd .MEM_CTL_CUR = 0) : d.armWaiting.st = .armed := by
  unfold Dev.armWaiting
  rw [if_pos (by rw [hwait, hcur]; rfl)]
  exact enter_st _ _

theorem freqChange_gives {us : Byte} {s : State} (hreq : s.dev.rd .MEM_CTL_REQ ≠ s.dev.rd .MEM_CTL_CUR) (hst : s.dev.st.freqStates = true)
    (hwindow : (s.dev.mch 0).window = none) (htrained : s.dev.trained 0 = true) : Gives (.freqChange us) s fun t =>
      t.dev.rd .MEM_CTL_CUR = s.dev.rd .MEM_CTL_REQ % 2 ∧ t.dev.rd .MEM_CH_STAT_OWED 0 = 0 ∧ t.dev.rd .MEM_CH_STAT_OWED 1 = 0 ∧
      (s.dev.freqWait = true → s.dev.rd .MEM_CTL_REQ = 0 → t.dev.st = .armed) := by
  refine gives_fn (f := (·.freqChange us.toNat)) rfl (freqChange_eq us.toNat hreq hst hwindow htrained) ?_
  dsimp only
  obtain ⟨hcur, howedA, howedB, hwait⟩ := repoint_is s.dev us.toNat
  generalize s.dev.repoint us.toNat = d at hcur howedA howedB hwait
  have hcheck := recheckTemp_only d
  rw [← hcheck.rd .MEM_CTL_CUR _ _ (by decide)] at hcur
  rw [← hcheck.rd .MEM_CH_STAT_OWED _ _ (by decide)] at howedA howedB
  rw [← show d.recheckTemp.freqWait = d.freqWait from hcheck.parts .freqWait (by decide)] at hwait
  generalize d.recheckTemp = e at hcur howedA howedB hwait
  have harm := armWaiting_only e
  exact ⟨(harm.rd _ _ _ (by decide)).trans hcur, (harm.rd _ _ _ (by decide)).trans howedA, (harm.rd _ _ _ (by decide)).trans howedB,
    fun hw hz => armWaiting_arms (hwait.trans hw) (hcur.trans (by rw [hz]))⟩

/-! ### Scrubbing and the write queue -/

/-- The code word of an address lies in its channel. -/
theorem chanOf_word (a : Nat) : chanOf (a / 128 * 128) = chanOf a := by
  unfold chanOf
  omega

theorem memUe_is (d : Dev) (a die : Nat) : (d.memUe a die).rd .MEM_UE_N (chanOf a) = min (d.rd .MEM_UE_N (chanOf a) + 1) 65535 ∧
    (d.memUe a die).rd .MEM_ELOG_HI_UE (chanOf a) = 1 ∧ (d.memUe a die).evPending Ev.MEM_UE := by
  unfold Dev.memUe
  dsimp only
  have hcount : ((d.inc .MEM_UE_N (chanOf a)).memLog a die true).rd .MEM_UE_N (chanOf a) = min (d.rd .MEM_UE_N (chanOf a) + 1) 65535 :=
    ((Dev.memLog_only _ a die true).rd .MEM_UE_N _ 0 (by decide)).trans (inc_rd d .MEM_UE_N (chanOf a) 0)
  have hue : ((d.inc .MEM_UE_N (chanOf a)).memLog a die true).rd .MEM_ELOG_HI_UE (chanOf a) = 1 := by
    unfold Dev.memLog
    exact (rd_wr_other _ _ _ _ _ _ (by decide)).trans (rd_wr_self _ _ _ _ _ (by decide))
  generalize (d.inc .MEM_UE_N (chanOf a)).memLog a die true = e at hcount hue
  have hraise := Dev.raise_only e Ev.MEM_UE (le 1 (chanOf a) ++ le 8 a ++ le 1 die)
  exact ⟨(hraise.rd _ _ _ (by decide)).trans hcount, (hraise.rd _ _ _ (by decide)).trans hue, Dev.raise_pending e _ _ (by decide)⟩

/-- A scrub read of a good word of channel B does what its outcome says. -/
theorem scrubRead_outcome {addr : BitVec 36} {s : State} {o : ScrubOutcome} {t : State} {p : State → Prop} (hen : s.dev.flag .MEM_SCRUB_EN = true)
    (hchan : chanOf addr.toNat = 1) (hok : s.dev.addrOk addr.toNat = true) (htrained : s.dev.trained 1 = true)
    (hgood : s.dram.poison.elem (addr.toNat / 128) = false)
    (ht : t = match o with
      | .clean => s
      | .corrected die => { s with dev := s.dev.memCe (addr.toNat / 128 * 128) die }
      | .uncorrectable => { s with dev := s.dev.memUe (addr.toNat / 128 * 128) 15, dram := { s.dram with poison := (addr.toNat / 128) :: s.dram.poison } })
    (hp : p t) : Gives (.scrubRead addr o) s p := by
  refine ⟨t, ?_, hp⟩
  show execScrubRead addr o s = .next t
  unfold execScrubRead
  dsimp only
  rw [if_neg (by rw [hen, hchan, hok, htrained]; decide), if_neg (by rw [hgood]; decide), ht]
  cases o <;> rfl

theorem scrubRead_gives {addr : BitVec 36} {s : State} (hen : s.dev.flag .MEM_SCRUB_EN = true) (hchan : chanOf addr.toNat = 1)
    (hok : s.dev.addrOk addr.toNat = true) (htrained : s.dev.trained 1 = true) (hgood : s.dram.poison.elem (addr.toNat / 128) = false) :
    Gives (.scrubRead addr .clean) s (fun t => t = s) ∧
    (∀ die, Gives (.scrubRead addr (.corrected die)) s fun t => t.dram = s.dram ∧
      t.dev.rd .MEM_CE_N 1 = min (s.dev.rd .MEM_CE_N 1 + 1) (2 ^ 32 - 1) ∧ t.dev.rd .MEM_ELOG_HI_DIE 1 = die.val ∧ t.dev.rd .MEM_ELOG_HI_UE 1 = 0) ∧
    Gives (.scrubRead addr .uncorrectable) s fun t => t.dram.mem = s.dram.mem ∧ t.dram.poison = (addr.toNat / 128) :: s.dram.poison ∧
      t.dev.rd .MEM_UE_N 1 = min (s.dev.rd .MEM_UE_N 1 + 1) 65535 ∧ t.dev.rd .MEM_ELOG_HI_UE 1 = 1 ∧ t.dev.evPending Ev.MEM_UE := by
  have hword : chanOf (addr.toNat / 128 * 128) = 1 := (chanOf_word _).trans hchan
  refine ⟨scrubRead_outcome hen hchan hok htrained hgood rfl rfl, fun die => ?_, ?_⟩
  · obtain ⟨hcount, hdie, hue⟩ := memCe_st s.dev (addr.toNat / 128 * 128) die.val (Nat.lt_trans die.isLt (by decide))
    rw [hword] at hcount hdie hue
    exact scrubRead_outcome hen hchan hok htrained hgood rfl ⟨rfl, hcount, hdie, hue⟩
  · obtain ⟨hcount, hue, hpend⟩ := memUe_is s.dev (addr.toNat / 128 * 128) 15
    rw [hword] at hcount hue
    exact scrubRead_outcome hen hchan hok htrained hgood rfl ⟨rfl, rfl, hcount, hue, hpend⟩

theorem writeDrain_gives {c : Chan} {s : State} (htrained : s.dev.trained c = true) : Gives (.writeDrain c) s fun t =>
    t.dev.rd .MEM_WQ_LEVEL c = 16 ∧ t.dev.rd .MEM_WQ_HIGH c = max 48 (s.dev.rd .MEM_WQ_HIGH c) % 128 ∧
      t.dev.rd .MEM_WQ_DRAINS c = (s.dev.rd .MEM_WQ_DRAINS c + 1) % 2 ^ 16 := by
  refine gives_fn (show exec (.writeDrain c) s = execWriteDrain c s from rfl) (if_pos htrained) ?_
  dsimp only
  unfold Dev.incWrap
  refine ⟨?_, ?_, ?_⟩
  · exact (rd_wr_other _ _ _ _ _ _ (by decide)).trans ((rd_wr_other _ _ _ _ _ _ (by decide)).trans (rd_wr_self _ _ _ _ _ (by decide)))
  · exact (rd_wr_other _ _ _ _ _ _ (by decide)).trans ((Dev.rd_wr ..).trans (if_pos ⟨rfl, rfl, rfl⟩))
  · rw [Dev.rd_wr, if_pos ⟨rfl, rfl, rfl⟩, rd_wr_other _ _ _ _ _ _ (by decide), rd_wr_other _ _ _ _ _ _ (by decide)]
    rfl

/-- Settles O45: each command of the memory subsystem under the conditions that its chapter gives. -/
theorem memoryTakesEffect : Obligations.MemoryTakesEffect := by
  unfold Obligations.MemoryTakesEffect
  exact ⟨fun _ _ _ => refreshInterval_gives, fun _ _ _ => mr4Poll_gives, fun _ => calWindowOpen_gives,
    fun _ _ _ _ h => ⟨calWindowEnd_abandons h, calWindowEnd_steps h, calWindowEnd_ends h⟩, fun _ => memCalLate_gives, fun _ _ => channelBRetrain_gives,
    fun _ _ => freqChange_gives, fun _ _ => scrubRead_gives, fun _ _ => writeDrain_gives⟩

end Sys2Proof.Machine

/-! Proofs: PTP and the timebase (O46). -/
namespace Sys2Proof.Machine

set_option exponentiation.threshold 600

/-! ### A Sync message -/

/-- A Sync is shown and counted as near or far. -/
def Dev.syncCounted (d : Dev) (offset : Int) (delay : Nat) (near far : Bool) : Dev :=
  ((d.wr .PTP_OFS_NS (satSigned 32 offset)).wr .PTP_MPD_NS delay).updPtp (fun p =>
    { p with good := if near = true then min 16 (p.good + 1) else 0, bad := if far = true then min 4 (p.bad + 1) else 0, syncAt := d.now })

/-- The servo locks or unlocks by its counts. -/
def Dev.syncJudged (d : Dev) (offset : Int) : Dev :=
  if !d.flag .PTP_STAT_LOCK && decide (16 ≤ d.ptp.good) then d.ptpLock offset
  else if d.flag .PTP_STAT_LOCK && decide (4 ≤ d.ptp.bad) then d.ptpUnlock 1
  else d

theorem syncNow (d : Dev) (x y : Nat) : ((d.wr .PTP_OFS_NS x).wr .PTP_MPD_NS y).now = d.now :=
  now_of rfl ((rd_wr_other _ _ _ _ _ _ (by decide)).trans (rd_wr_other _ _ _ _ _ _ (by decide)))

theorem ptpSync_eq {d : Dev} {port : Nat} (hon : d.ptpOn = true) (hrole : d.rd .PTP_CFG_ROLE ≠ 2) (hport : port = d.ptpPort) (offset : Int) (delay : Nat) :
    d.ptpSync port offset delay = ((d.syncCounted offset delay (decide (offset.natAbs ≤ if port = 2 then 5000 else 100))
      (decide ((if port = 2 then 20000 else 1000) < offset.natAbs))).servoRate.stepMain offset).syncJudged offset := by
  unfold Dev.ptpSync
  rw [if_neg (by rw [hon]; simpa [hport] using hrole)]
  unfold Dev.syncCounted
  dsimp only
  rw [syncNow]
  simp only [decide_eq_true_eq]
  rfl

/-- What a Sync shows before the servo is judged. -/
theorem syncCounted_is (d : Dev) {offset : Int} {delay : Nat} (hdelay : delay < 2 ^ 32) (near far : Bool) :
    let e := ((d.syncCounted offset delay near far).servoRate.stepMain offset)
    e.rd .PTP_OFS_NS = satSigned 32 offset ∧ e.rd .PTP_MPD_NS = delay ∧ e.flag .PTP_STAT_LOCK = d.flag .PTP_STAT_LOCK ∧
      (16 ≤ e.ptp.good ↔ near = true ∧ 15 ≤ d.ptp.good) ∧ (4 ≤ e.ptp.bad ↔ far = true ∧ 3 ≤ d.ptp.bad) := by
  have hofs : (d.syncCounted offset delay near far).rd .PTP_OFS_NS = satSigned 32 offset :=
    (rd_wr_other _ _ _ _ _ _ (by decide)).trans (rd_wr_self d .PTP_OFS_NS _ 0 0 (satSigned_lt offset))
  have hmpd : (d.syncCounted offset delay near far).rd .PTP_MPD_NS = delay := rd_wr_self (d.wr .PTP_OFS_NS (satSigned 32 offset)) .PTP_MPD_NS _ 0 0 hdelay
  have hlock : (d.syncCounted offset delay near far).rd .PTP_STAT_LOCK = d.rd .PTP_STAT_LOCK :=
    (rd_wr_other _ _ _ _ _ _ (by decide)).trans (rd_wr_other d _ _ _ _ _ (by decide))
  have hgood : (d.syncCounted offset delay near far).ptp.good = if near = true then min 16 (d.ptp.good + 1) else 0 := rfl
  have hbad : (d.syncCounted offset delay near far).ptp.bad = if far = true then min 4 (d.ptp.bad + 1) else 0 := rfl
  generalize d.syncCounted offset delay near far = e at hofs hmpd hlock hgood hbad
  have hservo := Dev.servoRate_only e
  have hstep := Dev.stepMain_only e.servoRate offset
  obtain ⟨hgood', hbad'⟩ := servo_st e offset
  dsimp only
  rw [hgood', hbad', hgood, hbad, ptpOn_near, ptpOn_far]
  refine ⟨?_, ?_, ?_, Iff.rfl, Iff.rfl⟩
  · rw [hstep.rd _ _ _ (by decide), hservo.rd _ _ _ (by decide), hofs]
  · rw [hstep.rd _ _ _ (by decide), hservo.rd _ _ _ (by decide), hmpd]
  · unfold Dev.flag
    rw [hstep.rd _ _ _ (by decide), hservo.rd _ _ _ (by decide), hlock]

/-- The registers that ptpLock writes, before its event. -/
def Dev.locked (d : Dev) : Dev :=
  let d := ((d.wr .PTP_STAT_LOCK 1).wr .TB_CTL_HOLDOVER 0).wr .PTP_STAT_PSTATE 9
  { d with tb := { d.tb with unlockedAt := none, lockedAt := some d.now } }

theorem locked_rd (d : Dev) : d.locked.rd .PTP_STAT_LOCK = 1 := by
  have hlock : (((d.wr .PTP_STAT_LOCK 1).wr .TB_CTL_HOLDOVER 0).wr .PTP_STAT_PSTATE 9).rd .PTP_STAT_LOCK = 1 := by
    rw [rd_wr_other _ _ _ _ _ _ (by decide), rd_wr_other _ _ _ _ _ _ (by decide)]
    exact rd_wr_self d .PTP_STAT_LOCK 1 0 0 (by decide)
  exact hlock

theorem ptpLock_is (d : Dev) (offset : Int) : (d.ptpLock offset).rd .PTP_STAT_LOCK = 1 ∧ (d.ptpLock offset).evPending Ev.PTP_LOCK := by
  have heq : d.ptpLock offset = d.locked.raise Ev.PTP_LOCK (le 1 d.locked.ptpPort ++ le 4 (satSigned 32 offset)) := rfl
  rw [heq]
  exact ⟨((Dev.raise_only _ _ _).rd _ _ _ (by decide)).trans (locked_rd d), Dev.raise_pending _ _ _ (by decide)⟩

/-- The judgement keeps every register but those of the lock and the event queue. -/
theorem syncJudged_keeps (d : Dev) (offset : Int) :
    (d.syncJudged offset).rd .PTP_OFS_NS = d.rd .PTP_OFS_NS ∧ (d.syncJudged offset).rd .PTP_MPD_NS = d.rd .PTP_MPD_NS := by
  unfold Dev.syncJudged
  split
  · exact ⟨(Dev.ptpLock_only _ _).rd _ _ _ (by decide), (Dev.ptpLock_only _ _).rd _ _ _ (by decide)⟩
  split
  · exact ⟨(Dev.ptpUnlock_only _ _).rd _ _ _ (by decide), (Dev.ptpUnlock_only _ _).rd _ _ _ (by decide)⟩
  · exact ⟨rfl, rfl⟩

theorem flag_rd {d : Dev} {f : Fld} {i j : Nat} (h : d.flag f i j = false) : d.rd f i j = 0 := by
  unfold Dev.flag at h
  simpa using h

/-- The servo is judged by its lock and its counts. -/
theorem syncJudged_lock (d : Dev) (offset : Int) :
    (d.flag .PTP_STAT_LOCK = false → 16 ≤ d.ptp.good → (d.syncJudged offset).rd .PTP_STAT_LOCK = 1 ∧ (d.syncJudged offset).evPending Ev.PTP_LOCK) ∧
    (d.flag .PTP_STAT_LOCK = false → ¬16 ≤ d.ptp.good → (d.syncJudged offset).rd .PTP_STAT_LOCK = 0) ∧
    (d.flag .PTP_STAT_LOCK = true → 4 ≤ d.ptp.bad → (d.syncJudged offset).rd .PTP_STAT_LOCK = 0 ∧ (d.syncJudged offset).evPending Ev.PTP_UNLOCK) ∧
    (d.flag .PTP_STAT_LOCK = true → ¬4 ≤ d.ptp.bad → (d.syncJudged offset).flag .PTP_STAT_LOCK = true) := by
  unfold Dev.syncJudged
  refine ⟨fun h hgood => ?_, fun h hgood => ?_, fun h hbad => ?_, fun h hbad => ?_⟩
  · rw [if_pos (by rw [h, decide_eq_true hgood]; rfl)]
    exact ptpLock_is d offset
  · rw [if_neg (by rw [decide_eq_false hgood]; simp), if_neg (by rw [h]; simp)]
    exact flag_rd h
  · rw [if_neg (by rw [h]; simp), if_pos (by rw [h, decide_eq_true hbad]; rfl)]
    obtain ⟨hlock, hpend, _⟩ := unlock_st d 1
    exact ⟨hlock, hpend h⟩
  · rw [if_neg (by rw [h]; simp), if_neg (by rw [decide_eq_false hbad]; simp)]
    exact h

theorem ptpSync_gives {port : Fin 3} {offset : U64} {delay : U32} {s : State} (hon : s.dev.ptpOn = true) (hrole : s.dev.rd .PTP_CFG_ROLE ≠ 2)
    (hport : port.val = s.dev.ptpPort) :
    let near := decide (offset.toInt.natAbs ≤ if port.val = 2 then 5000 else 100)
    let far := decide ((if port.val = 2 then 20000 else 1000) < offset.toInt.natAbs)
    Gives (.ptpSync port offset delay) s fun t =>
      t.dev.rd .PTP_OFS_NS = satSigned 32 offset.toInt ∧ t.dev.rd .PTP_MPD_NS = delay.toNat ∧
      (s.dev.flag .PTP_STAT_LOCK = false → near = true → 15 ≤ s.dev.ptp.good → t.dev.rd .PTP_STAT_LOCK = 1 ∧ t.dev.evPending Ev.PTP_LOCK) ∧
      (s.dev.flag .PTP_STAT_LOCK = false → (near = false ∨ s.dev.ptp.good < 15) → t.dev.rd .PTP_STAT_LOCK = 0) ∧
      (s.dev.flag .PTP_STAT_LOCK = true → far = true → 3 ≤ s.dev.ptp.bad → t.dev.rd .PTP_STAT_LOCK = 0 ∧ t.dev.evPending Ev.PTP_UNLOCK) ∧
      (s.dev.flag .PTP_STAT_LOCK = true → (far = false ∨ s.dev.ptp.bad < 3) → t.dev.flag .PTP_STAT_LOCK = true) := by
  intro near far
  refine gives_fn (f := (·.ptpSync port.val offset.toInt delay.toNat)) rfl (ptpSync_eq hon hrole hport offset.toInt delay.toNat) ?_
  dsimp only
  obtain ⟨hofs, hmpd, hlock, hgood, hbad⟩ := syncCounted_is s.dev (offset := offset.toInt) delay.isLt near far
  generalize (s.dev.syncCounted offset.toInt delay.toNat near far).servoRate.stepMain offset.toInt = e at hofs hmpd hlock hgood hbad
  obtain ⟨hlocks, hunlocked, hunlocks, hlocked⟩ := syncJudged_lock e offset.toInt
  obtain ⟨hkeepOfs, hkeepMpd⟩ := syncJudged_keeps e offset.toInt
  rw [hlock, hgood] at hlocks hunlocked
  rw [hlock, hbad] at hunlocks hlocked
  refine ⟨hkeepOfs.trans hofs, hkeepMpd.trans hmpd, fun h hn hg => hlocks h ⟨hn, hg⟩, fun h hn => hunlocked h (fun ⟨hnear, hg⟩ => ?_),
    fun h hf hb => hunlocks h ⟨hf, hb⟩, fun h hf => hlocked h (fun ⟨hfar, hb⟩ => ?_)⟩
  · exact hn.elim (fun hno => absurd (hno.symm.trans hnear) (by decide)) (fun hlt => absurd hg (Nat.not_le.mpr hlt))
  · exact hf.elim (fun hno => absurd (hno.symm.trans hfar) (by decide)) (fun hlt => absurd hb (Nat.not_le.mpr hlt))

/-! ### The master -/

/-- No master is left; the selected port shows that it has none. -/
def Dev.noMaster (d : Dev) : Dev :=
  let d := (d.ptpUnlock 3).updPtp (fun p => { p with master := none })
  let d := if d.onSelected then d.setServed false else d
  if d.ptp.own then d else d.wr .PTP_STAT_PSTATE 4

theorem setServed_keeps (d : Dev) (on : Bool) : (d.setServed on).ptp.master = d.ptp.master ∧ (∀ f i j, (d.setServed on).rd f i j = d.rd f i j) ∧
    (d.setServed on).domOn = d.domOn := by
  unfold Dev.setServed
  split
  · exact ⟨rfl, fun _ _ _ => rfl, rfl⟩
  · exact ⟨rfl, fun _ _ _ => rfl, rfl⟩

theorem announceTimeout_gives {s : State} (hon : s.dev.ptpOn = true) (hdue : s.dev.passed s.dev.ptp.syncAt s.dev.announceTime = true) :
    Gives .announceTimeout s fun t => t.dev.ptp.master = none ∧ t.dev.rd .PTP_STAT_LOCK = 0 ∧
      (s.dev.flag .PTP_STAT_LOCK = true → t.dev.evPending Ev.PTP_UNLOCK) := by
  refine gives_fn (g := s.dev.noMaster) (show exec .announceTimeout s = execAnnounceTimeout s from rfl) (if_pos (by rw [hon, hdue]; rfl)) ?_
  dsimp only
  unfold Dev.noMaster
  dsimp only
  obtain ⟨hlock, hpend, _⟩ := unlock_st s.dev 3
  generalize s.dev.ptpUnlock 3 = e at hlock hpend
  have hshown : ∀ x : Dev, x.ptp.master = none → (∀ f i j, x.rd f i j = e.rd f i j) →
      (if x.ptp.own then x else x.wr .PTP_STAT_PSTATE 4).ptp.master = none ∧ (if x.ptp.own then x else x.wr .PTP_STAT_PSTATE 4).rd .PTP_STAT_LOCK = 0 ∧
      (s.dev.flag .PTP_STAT_LOCK = true → (if x.ptp.own then x else x.wr .PTP_STAT_PSTATE 4).evPending Ev.PTP_UNLOCK) := by
    intro x hmaster hrd
    have hx : s.dev.flag .PTP_STAT_LOCK = true → x.evPending Ev.PTP_UNLOCK := fun h => Dev.evPending_congr _ (fun k => hrd _ _ _) (hpend h)
    split
    · exact ⟨hmaster, (hrd _ _ _).trans hlock, hx⟩
    · exact ⟨hmaster, (rd_wr_other _ _ _ _ _ _ (by decide)).trans ((hrd _ _ _).trans hlock), fun h => wrp (by decide) (hx h)⟩
  split
  · obtain ⟨hmaster, hrd, _⟩ := setServed_keeps (e.updPtp (fun p => { p with master := none })) false
    exact hshown _ (hmaster.trans rfl) (fun f i j => (hrd f i j).trans (updPtp_rd e _ f i j))
  · exact hshown _ rfl (fun f i j => updPtp_rd e _ f i j)

/-- An Announce on the port in use, once the selected port shows whether it has a master. -/
def Dev.announced (d : Dev) (best : BestMaster) : Dev :=
  match best with
  | .external id =>
    let d := (d.setMaster (some id.toNat)).updPtp (fun p => { p with own := false })
    if d.flag .PTP_STAT_LOCK then d else d.wr .PTP_STAT_PSTATE 8
  | .own =>
    let d := d.setMaster none
    let master := decide (d.rd .PTP_CFG_ROLE = 1)
    (d.updPtp (fun p => { p with own := master })).wr .PTP_STAT_PSTATE (if master then 6 else 4)

/-- The selected port shows whether it has a master. -/
def Dev.portServed (d : Dev) (port : Nat) (best : BestMaster) : Dev :=
  if d.ptpOn && port = d.rd .PTP_CFG_PORT then d.setServed (bestExternal best) else d

theorem portServed_keeps (d : Dev) (port : Nat) (best : BestMaster) :
    (d.portServed port best).ptp.master = d.ptp.master ∧ ∀ f i j, (d.portServed port best).rd f i j = d.rd f i j := by
  unfold Dev.portServed
  split
  · exact ⟨(setServed_keeps d _).1, (setServed_keeps d _).2.1⟩
  · exact ⟨rfl, fun _ _ _ => rfl⟩

theorem ptpOn_congr {d e : Dev} (h : ∀ f i j, e.rd f i j = d.rd f i j) : e.ptpOn = d.ptpOn := by
  unfold Dev.ptpOn Dev.flag Dev.domOn
  rw [h, h]

theorem ptpPort_congr {d e : Dev} (h : ∀ f i j, e.rd f i j = d.rd f i j) : e.ptpPort = d.ptpPort := by
  unfold Dev.ptpPort
  rw [h, h]

theorem ptpAnnounce_eq {d : Dev} {port : Nat} (hon : d.ptpOn = true) (hrole : d.rd .PTP_CFG_ROLE ≠ 2) (hport : port = d.ptpPort) (best : BestMaster) :
    d.ptpAnnounce port best = (d.portServed port best).announced best := by
  obtain ⟨_, hrd⟩ := portServed_keeps d port best
  refine if_neg ?_
  show ¬((!(d.portServed port best).ptpOn || decide ((d.portServed port best).rd .PTP_CFG_ROLE = 2) || port != (d.portServed port best).ptpPort) = true)
  rw [ptpOn_congr hrd, ptpPort_congr hrd, hrd, hon, hport]
  simpa using hrole

theorem announced_external {d : Dev} {id : U64} (h : d.ptp.master ≠ some id.toNat) :
    (d.announced (.external id)).ptp.master = some id.toNat ∧ (d.announced (.external id)).rd .PTP_STAT_LOCK = 0 ∧
      (d.announced (.external id)).rd .PTP_STAT_PSTATE = 8 ∧ (d.announced (.external id)).rd .PTP_STAT_GMCHG = min (d.rd .PTP_STAT_GMCHG + 1) 65535 := by
  unfold Dev.announced
  dsimp only
  obtain ⟨hmaster, hchange⟩ := setMaster_st d (some id.toNat)
  obtain ⟨hlock, hcount⟩ := hchange h
  generalize d.setMaster (some id.toNat) = e at hmaster hlock hcount
  have hflag : (e.updPtp (fun p => { p with own := false })).flag .PTP_STAT_LOCK = false := by
    unfold Dev.flag
    rw [updPtp_rd, hlock]
    rfl
  rw [if_neg (by rw [hflag]; decide)]
  exact ⟨hmaster, (rd_wr_other _ _ _ _ _ _ (by decide)).trans hlock, rd_wr_self _ .PTP_STAT_PSTATE 8 0 0 (by decide),
    (rd_wr_other _ _ _ _ _ _ (by decide)).trans hcount⟩

theorem announced_own (d : Dev) : (d.announced .own).ptp.master = none ∧ (d.announced .own).ptp.own = decide (d.rd .PTP_CFG_ROLE = 1) ∧
    (d.announced .own).rd .PTP_STAT_PSTATE = if d.rd .PTP_CFG_ROLE = 1 then 6 else 4 := by
  unfold Dev.announced
  dsimp only
  have hrole := (Dev.setMaster_only d none).rd .PTP_CFG_ROLE 0 0 (by decide)
  have hmaster := (setMaster_st d none).1
  generalize d.setMaster none = e at hrole hmaster
  rw [hrole]
  refine ⟨hmaster, rfl, (rd_wr_self _ .PTP_STAT_PSTATE _ 0 0 ?_).trans ?_⟩
  · split <;> decide
  · by_cases h : d.rd .PTP_CFG_ROLE = 1
    · rw [if_pos h, if_pos (decide_eq_true h)]
    · rw [if_neg h, if_neg (by rw [decide_eq_false h]; decide)]

theorem ptpAnnounce_gives {port : Fin 3} {s : State} (hon : s.dev.ptpOn = true) (hrole : s.dev.rd .PTP_CFG_ROLE ≠ 2) (hport : port.val = s.dev.ptpPort) :
    (∀ id : U64, s.dev.ptp.master ≠ some id.toNat → Gives (.ptpAnnounce port (.external id)) s fun t =>
      t.dev.ptp.master = some id.toNat ∧ t.dev.rd .PTP_STAT_LOCK = 0 ∧ t.dev.rd .PTP_STAT_PSTATE = 8 ∧
      t.dev.rd .PTP_STAT_GMCHG = min (s.dev.rd .PTP_STAT_GMCHG + 1) 65535) ∧
    Gives (.ptpAnnounce port .own) s fun t => t.dev.ptp.master = none ∧ t.dev.ptp.own = decide (s.dev.rd .PTP_CFG_ROLE = 1) ∧
      t.dev.rd .PTP_STAT_PSTATE = (if s.dev.rd .PTP_CFG_ROLE = 1 then 6 else 4) := by
  refine ⟨fun id hid => ?_, ?_⟩
  · obtain ⟨hmaster, hrd⟩ := portServed_keeps s.dev port.val (.external id)
    have h := announced_external (d := s.dev.portServed port.val (.external id)) (id := id) (by rw [hmaster]; exact hid)
    rw [hrd] at h
    exact gives_fn (f := (·.ptpAnnounce port.val (.external id))) rfl (ptpAnnounce_eq hon hrole hport _) h
  · obtain ⟨_, hrd⟩ := portServed_keeps s.dev port.val .own
    have h := announced_own (s.dev.portServed port.val .own)
    rw [hrd] at h
    exact gives_fn (f := (·.ptpAnnounce port.val .own)) rfl (ptpAnnounce_eq hon hrole hport _) h

theorem ptpSyncInterval_gives {s : State} (hon : s.dev.ptpOn = true) (hmaster : s.dev.rd .PTP_CFG_ROLE = 2 ∨ s.dev.ptp.own = true) :
    Gives .ptpSyncInterval s fun t =>
      t.dev.out = .ptp ⟨s.dev.ptpPort, s.dev.ptp.seq, s.dev.now⟩ :: s.dev.out ∧ t.dev.ptp.seq = (s.dev.ptp.seq + 1) % 65536 ∧
      t.dev.rd .PTP_STAT_PSTATE = 6 := by
  refine gives_fn (show exec .ptpSyncInterval s = execPtpSyncInterval s from rfl) (if_pos (by rw [hon]; simpa using hmaster)) ⟨rfl, rfl, ?_⟩
  exact rd_wr_self (s.dev.emit (.ptp ⟨s.dev.ptpPort, s.dev.ptp.seq, s.dev.now⟩)) .PTP_STAT_PSTATE 6 0 0 (by decide)

/-! ### The switches of the timebase -/

/-- The fallback counter goes on from the main clock, before its event. -/
def Dev.onFallback (d : Dev) : Dev :=
  let inc := d.mainInc
  let d := { d with tb := { d.tb with fb := d.tb.main } }
  let d := (d.wr .TB_FBINC_HI_INT (inc / 2 ^ 32)).wr .TB_FBINC_LO_FRAC (inc % 2 ^ 32)
  (d.wr .TB_CTL_SRC 1).wr .TB_CTL_HOLDOVER 0

theorem onFallback_is {d : Dev} (hmain : d.flag .TB_CTL_SRC = false) :
    d.onFallback.rd .TB_CTL_SRC = 1 ∧ d.onFallback.now = d.now ∧ d.onFallback.rd .TB_FBINC_LO_FRAC = d.mainInc % 2 ^ 32 := by
  have hsrc : d.onFallback.rd .TB_CTL_SRC = 1 := by
    unfold Dev.onFallback
    dsimp only
    rw [rd_wr_other _ _ _ _ _ _ (by decide)]
    exact rd_wr_self _ .TB_CTL_SRC 1 0 0 (by decide)
  refine ⟨hsrc, ?_, ?_⟩
  · unfold Dev.now Dev.nowFrac
    rw [if_pos (flag_true (by rw [hsrc]; decide)), hmain, if_neg (by decide)]
    rfl
  · unfold Dev.onFallback
    dsimp only
    rw [rd_wr_other _ _ _ _ _ _ (by decide), rd_wr_other _ _ _ _ _ _ (by decide)]
    exact rd_wr_self _ .TB_FBINC_LO_FRAC _ 0 0 (Nat.mod_lt _ (by decide))

theorem tbFallback_gives {t₀ : Nat} {s : State} (hmain : s.dev.flag .TB_CTL_SRC = false) (hunlocked : s.dev.flag .PTP_STAT_LOCK = false)
    (hsince : s.dev.tb.unlockedAt = some t₀) (hdue : t₀ + 2000000000 ≤ s.dev.now) : Gives .tbFallback s fun t =>
      t.dev.rd .TB_CTL_SRC = 1 ∧ t.dev.now = s.dev.now ∧ t.dev.rd .TB_FBINC_LO_FRAC = s.dev.mainInc % 2 ^ 32 ∧ t.dev.evPending Ev.TB_FALLBACK := by
  have hpassed : s.dev.passed t₀ 2000000000 = true := decide_eq_true hdue
  refine gives_fn (g := s.dev.onFallback.raise Ev.TB_FALLBACK (le 4 (unsign 32 s.dev.onFallback.tb.rate)))
    (show exec .tbFallback s = execTbFallback s from rfl) (if_neg ?_) ?_
  · rw [hmain, hunlocked, hsince, Option.any_some, hpassed]
    decide
  · dsimp only
    obtain ⟨hsrc, hnow, hinc⟩ := onFallback_is hmain
    generalize s.dev.onFallback = e at hsrc hnow hinc
    have hraise := Dev.raise_only e Ev.TB_FALLBACK (le 4 (unsign 32 e.tb.rate))
    exact ⟨(hraise.rd _ _ _ (by decide)).trans hsrc, (now_of (hraise.parts .tb (by decide)) (hraise.rd _ _ _ (by decide))).trans hnow,
      (hraise.rd _ _ _ (by decide)).trans hinc, Dev.raise_pending e _ _ (by decide)⟩

/-- The main clock returns after `RELOCK` seconds of lock. -/
theorem tbMain_due {t₀ : Nat} {s : State} {g : Dev} {p : State → Prop} (hlocked : s.dev.tb.lockedAt = some t₀)
    (hdue : t₀ + 1000000000 * s.dev.rd .TB_CTL_RELOCK ≤ s.dev.now) (hg : s.dev.tbMain = g) (hp : p { s with dev := g }) : Gives .tbMain s p := by
  have hpassed : s.dev.passed t₀ (1000000000 * s.dev.rd .TB_CTL_RELOCK) = true := decide_eq_true hdue
  refine gives_fn (show exec .tbMain s = execTbMain s from rfl) ?_ hp
  rw [hlocked, Option.any_some, if_pos hpassed]
  exact hg

/-- The four ways of the return (R350). -/
theorem tbMain_cases {d : Dev} (hfb : d.flag .TB_CTL_SRC = true) (hlock : d.flag .PTP_STAT_LOCK = true) :
    (d.noStep = false → d.tbMain = if d.tbDelta = 0 then d.toMain d.tbDelta else (d.toMain d.tbDelta).raise Ev.TB_STEP (le 8 (unsign 64 d.tbDelta))) ∧
    (d.noStep = true → d.tbDelta.natAbs ≤ 50 → d.tbMain = d.toMain d.tbDelta) ∧
    (d.noStep = true → 50 < d.tbDelta.natAbs → d.tbDelta.natAbs ≤ 1000000 → d.tbMain = { d with tb := { d.tb with slewing := true } }) ∧
    (d.noStep = true → 1000000 < d.tbDelta.natAbs → d.tbMain = d) := by
  unfold Dev.tbMain
  rw [if_neg (by rw [hfb, hlock]; decide)]
  dsimp only
  refine ⟨fun h => ?_, fun h hnear => ?_, fun h hfar hslew => ?_, fun h hfar => ?_⟩
  · rw [if_pos (by rw [h]; rfl)]
  · rw [if_neg (by rw [h]; decide), if_pos hnear]
  · rw [if_neg (by rw [h]; decide), if_neg (Nat.not_le.mpr hfar), if_pos hslew]
  · rw [if_neg (by rw [h]; decide), if_neg (by omega), if_neg (by omega)]

theorem tbMain_gives {t₀ : Nat} {s : State} (hfb : s.dev.flag .TB_CTL_SRC = true) (hlock : s.dev.flag .PTP_STAT_LOCK = true)
    (hlocked : s.dev.tb.lockedAt = some t₀) (hdue : t₀ + 1000000000 * s.dev.rd .TB_CTL_RELOCK ≤ s.dev.now) :
    (s.dev.noStep = false → Gives .tbMain s fun t => t.dev.rd .TB_CTL_SRC = 0 ∧ (s.dev.tbDelta ≠ 0 → t.dev.evPending Ev.TB_STEP) ∧
      (s.dev.tbDelta = 0 → t.dev.evPending Ev.TB_MAIN)) ∧
    (s.dev.noStep = true → s.dev.tbDelta.natAbs ≤ 50 → Gives .tbMain s fun t => t.dev.rd .TB_CTL_SRC = 0 ∧ t.dev.evPending Ev.TB_MAIN) ∧
    (s.dev.noStep = true → 50 < s.dev.tbDelta.natAbs → s.dev.tbDelta.natAbs ≤ 1000000 → Gives .tbMain s fun t =>
      t.dev.tb.slewing = true ∧ t.dev.rd .TB_CTL_SRC = s.dev.rd .TB_CTL_SRC) ∧
    (s.dev.noStep = true → 1000000 < s.dev.tbDelta.natAbs → Gives .tbMain s fun t => t = s) := by
  obtain ⟨hstep, hnear, hslew, hwait⟩ := tbMain_cases hfb hlock
  obtain ⟨hsrc, hpend⟩ := toMain_st s.dev s.dev.tbDelta
  refine ⟨fun h => ?_, fun h hn => tbMain_due hlocked hdue (hnear h hn) ⟨hsrc, hpend⟩, fun h hf hs => tbMain_due hlocked hdue (hslew h hf hs) ⟨rfl, rfl⟩,
    fun h hf => tbMain_due hlocked hdue (hwait h hf) rfl⟩
  by_cases hdelta : s.dev.tbDelta = 0
  · exact tbMain_due hlocked hdue ((hstep h).trans (if_pos hdelta)) ⟨hsrc, fun hne => absurd hdelta hne, fun _ => hpend⟩
  · refine tbMain_due hlocked hdue ((hstep h).trans (if_neg hdelta)) ?_
    dsimp only
    generalize le 8 (unsign 64 s.dev.tbDelta) = data
    generalize s.dev.toMain s.dev.tbDelta = e at hsrc
    exact ⟨((Dev.raise_only e _ data).rd _ _ _ (by decide)).trans hsrc, fun _ => Dev.raise_pending e _ data (by decide), fun h0 => absurd h0 hdelta⟩

/-! ### The port in use -/

theorem mgmtPtp_gives {s : State} (hon : s.dev.ptpOn = true) :
    (s.dev.flag .PTP_CFG_MGFB = true → s.dev.ptpPort ≠ 2 → s.dev.ptp.served = false → s.dev.passed s.dev.ptp.servedAt 2000000000 = true →
      Gives .mgmtPtpFallback s fun t => t.dev.ptpPort = 2 ∧ t.dev.ptp.master = none) ∧
    (s.dev.ptpPort = 2 → s.dev.ptp.served = true → s.dev.passed s.dev.ptp.servedAt 10000000000 = true →
      Gives .mgmtPtpReturn s fun t => t.dev.rd .PTP_STAT_SRCPORT = 0 ∧ t.dev.ptp.master = none) := by
  have hmaster := (setMaster_st s.dev none).1
  refine ⟨fun hmgfb hport hserved hdue => ?_, fun hport hserved hdue => ?_⟩
  · refine gives_fn (show exec .mgmtPtpFallback s = execMgmtPtpFallback s from rfl) (if_pos (by rw [hon, hmgfb, hserved, hdue]; simpa using hport)) ⟨if_pos ?_, hmaster⟩
    exact rd_wr_self (s.dev.setMaster none) .PTP_STAT_SRCPORT 2 0 0 (by decide)
  · refine gives_fn (show exec .mgmtPtpReturn s = execMgmtPtpReturn s from rfl) (if_pos (by rw [hon, hport, hserved, hdue]; decide)) ⟨?_, hmaster⟩
    exact rd_wr_self (s.dev.setMaster none) .PTP_STAT_SRCPORT 0 0 0 (by decide)

/-- Settles O46: a Sync and an Announce on the port in use, the absence of both, and the two switches of the timebase. -/
theorem ptpAndTimebase : Obligations.PtpAndTimebase := by
  unfold Obligations.PtpAndTimebase
  exact ⟨fun _ _ _ _ => ptpSync_gives, fun _ => announceTimeout_gives, fun _ _ => ptpAnnounce_gives, fun _ => ptpSyncInterval_gives,
    fun _ _ => tbFallback_gives, fun _ _ => tbMain_gives, fun _ => mgmtPtp_gives⟩

end Sys2Proof.Machine

/-! Proofs: the sync ring (O47, O48). -/
namespace Sys2Proof.Machine

set_option exponentiation.threshold 600

/-! ### A good frame -/

/-- What a good frame leaves before it is acted on: the ring is alive, and the frame is forwarded. -/
def FrameHeard (d e : Dev) (src hops : Nat) (pay : RingPay) : Prop :=
  AliveAt d e 8 ∧
  Dev.Only (partsMask [.holdSeen, .xpp, .trace, .ring, .evr, .out])
    (fieldsMask [.AON_STATE_HOLDC, .AON_EVPEND_PEND, .AON_EVLOST_N, .RING_STAT_UP, .RING_STAT_MASTER, .RING_STAT_MID, .RING_STAT_MEMBERS,
      .RING_STAT_HOLDSRC, .RING_CNT_GAPS]) d e ∧
  (src ≠ d.ringId → hops + 1 < 8 → Output.ring ⟨src, hops + 1, pay⟩ ∈ e.out)

theorem ringFrame_gives {c : Instr} {s : State} {src hops : Nat} {pay : RingPay} {k : Dev → Dev} {p : State → Prop}
    (hexec : exec c s = s.act (·.ringFrame src hops pay k)) (hon : s.dev.ringOn = true)
    (hp : ∀ e, FrameHeard s.dev e src hops pay → p { s with dev := k e }) : Gives c s p := by
  obtain ⟨e, heq, halive, honly, hout⟩ := frame_st s.dev src hops pay k hon
  exact gives_fn hexec heq (hp e ⟨halive, honly, hout⟩)

section
variable {d e : Dev} {src hops : Nat} {pay : RingPay} (h : FrameHeard d e src hops pay)
include h

theorem FrameHeard.ringId : e.ringId = d.ringId := h.2.1.rd _ _ _ (by decide)

theorem FrameHeard.now : e.now = d.now := now_of (h.2.1.parts .tb (by decide)) (h.2.1.rd _ _ _ (by decide))

theorem FrameHeard.orig {i : Nat} (hi : i < 8) : (Tab.at e.ring.orig i : Orig) = { (Tab.at d.ring.orig i : Orig) with down := false } := h.1.2.2.2.1 i hi

end

/-! ### Originators -/

/-- An originator that stands makes its bit of HOLDSRC and the ring hold cause 1. -/
theorem updOrig_stands {d : Dev} {id : Nat} {f : Orig → Orig} (hid : id < 8)
    (h : ((f (Tab.at d.ring.orig id)).frames || (f (Tab.at d.ring.orig id)).lost || (f (Tab.at d.ring.orig id)).down) = true) :
    bitOf ((d.updOrig id f).rd .RING_STAT_HOLDSRC) id = true ∧ (d.updOrig id f).held .ring = true := by
  obtain ⟨_, _, _, _, _, hbit, hheld, _⟩ := updOrig_st d id f hid
  refine ⟨hbit.trans h, hheld.trans (decide_eq_true fun hzero => ?_)⟩
  unfold osrc at hzero
  rw [if_pos h] at hzero
  have hset := bitOf_withBit (d.rd .RING_STAT_HOLDSRC) id id
  rw [hzero, bitOf_zero] at hset
  simp at hset

theorem ringHoldFrame_gives {src hops : RingId} {rel : Bool} {cause : Byte} {seq : U16} {s : State} (hon : s.dev.ringOn = true) (hsrc : src.val ≠ s.dev.ringId) :
    Gives (.ringHoldFrame src hops rel cause seq) s fun t =>
      (Tab.at t.dev.ring.orig src.val : Orig) = { (Tab.at s.dev.ring.orig src.val : Orig) with frames := !rel, heard := s.dev.now, down := false } ∧
      (rel = false → bitOf (t.dev.rd .RING_STAT_HOLDSRC) src.val = true ∧ t.dev.held .ring = true) ∧
      (rel = true → (Tab.at s.dev.ring.orig src.val : Orig).lost = false → bitOf (t.dev.rd .RING_STAT_HOLDSRC) src.val = false) ∧
      (∀ i : Nat, i < 8 → i ≠ src.val → (Tab.at s.dev.ring.orig i : Orig).down = false → (Tab.at t.dev.ring.orig i : Orig) = Tab.at s.dev.ring.orig i) := by
  refine ringFrame_gives rfl hon fun e he => ?_
  dsimp only
  rw [he.ringId, if_neg hsrc, he.now]
  have horig := he.orig src.isLt
  obtain ⟨hown, hothers, _, _, _, hbit, _, _⟩ := updOrig_st e src.val (fun o => { o with frames := !rel, heard := s.dev.now }) src.isLt
  dsimp only at hown hbit
  refine ⟨hown.trans (by rw [horig]), fun hr => updOrig_stands src.isLt (by rw [hr]; rfl), fun hr hlost => hbit.trans ?_, fun i hi hne hdown => (hothers i hne).trans ?_⟩
  · rw [horig, hr, hlost]
    rfl
  · rw [he.orig hi, ← hdown]

theorem ringHoldOriginatorTimeout_gives {id : RingId} {s : State} (hon : s.dev.ringOn = true)
    (hdue : s.dev.downPassed (Tab.at s.dev.ring.orig id.val : Orig).heard = true) : Gives (.ringHoldOriginatorTimeout id) s fun t =>
    (Tab.at t.dev.ring.orig id.val : Orig) = { (Tab.at s.dev.ring.orig id.val : Orig) with frames := false } ∧
    ((Tab.at s.dev.ring.orig id.val : Orig).lost = false → (Tab.at s.dev.ring.orig id.val : Orig).down = false →
      bitOf (t.dev.rd .RING_STAT_HOLDSRC) id.val = false ∧ (s.dev.rd .RING_STAT_HOLDSRC = 2 ^ id.val → t.dev.held .ring = false)) := by
  refine gives_fn (show exec (.ringHoldOriginatorTimeout id) s = execRingHoldOriginatorTimeout id s from rfl) (if_pos (by rw [hon, hdue]; rfl)) ?_
  dsimp only
  obtain ⟨hown, _, _, _, _, hbit, hheld, _⟩ := updOrig_st s.dev id.val (fun o => { o with frames := false }) id.isLt
  dsimp only at hown hbit hheld
  refine ⟨hown, fun hlost hdown => ⟨hbit.trans (by rw [hlost, hdown]; rfl), fun hlast => hheld.trans ?_⟩⟩
  unfold osrc
  rw [if_neg (by rw [hlost, hdown]; simp), hlast]
  unfold withoutBit
  rw [if_pos Nat.testBit_two_pow_self, Nat.sub_self]
  rfl

theorem ringHoldSend_gives {s : State} (hon : s.dev.ringOn = true) (hheld : s.dev.localHold ≠ 0) : Gives .ringHoldSend s fun t =>
    t.dev.out = .ring ⟨s.dev.rd .RING_CFG_ID, 0, .hold false s.dev.localHold s.dev.ring.holdSeq⟩ :: s.dev.out ∧
    t.dev.ring.holdSeq = (s.dev.ring.holdSeq + 1) % 65536 ∧ t.dev.ring.announced = true := by
  have hsend : ∀ pay, s.dev.ringSend pay = s.dev.emit (.ring ⟨s.dev.rd .RING_CFG_ID, 0, pay⟩) := fun pay => if_pos hon
  have hhold : s.dev.ringHold false = { s.dev.emit (.ring ⟨s.dev.rd .RING_CFG_ID, 0, .hold false s.dev.localHold s.dev.ring.holdSeq⟩) with
      ring := { s.dev.ring with holdSeq := (s.dev.ring.holdSeq + 1) % 65536, announced := true } } := by
    unfold Dev.ringHold
    rw [if_pos hon, hsend]
    rfl
  refine gives_fn (show exec .ringHoldSend s = execRingHoldSend s from rfl) ((if_pos (by simpa using hheld)).trans hhold) ⟨rfl, rfl, rfl⟩

/-! ### Members -/

theorem ringMemberLost_gives {id : RingId} {m : Member} {s : State} (hon : s.dev.ringOn = true) (hm : Tab.at s.dev.ring.members id.val = some m)
    (hdue : s.dev.downPassed m.at' = true) : Gives (.ringMemberLost id) s fun t => Tab.at t.dev.ring.members id.val = (none : Option Member) ∧
      (s.dev.flag .RING_CFG_LOSTHOLD = true → s.dev.st.running = true →
        (Tab.at t.dev.ring.orig id.val : Orig) = { (Tab.at s.dev.ring.orig id.val : Orig) with lost := true } ∧
        bitOf (t.dev.rd .RING_STAT_HOLDSRC) id.val = true ∧ t.dev.held .ring = true ∧ t.dev.evPending Ev.RING_MEMBER_LOST) := by
  refine gives_fn (show exec (.ringMemberLost id) s = execRingMemberLost id s from rfl) (if_neg (by rw [hon, hm, Option.any_some, hdue]; decide)) ?_
  dsimp only
  have hmo := ringMaster_mo (s.dev.updRing (fun r => { r with members := Tab.put r.members id.val none }))
  have honly := Dev.ringMaster_only (s.dev.updRing (fun r => { r with members := Tab.put r.members id.val none }))
  have hflag : (s.dev.updRing (fun r => { r with members := Tab.put r.members id.val none })).ringMaster.flag .RING_CFG_LOSTHOLD = s.dev.flag .RING_CFG_LOSTHOLD :=
    flag_only honly (by decide) 0 0
  have hst : (s.dev.updRing (fun r => { r with members := Tab.put r.members id.val none })).ringMaster.st = s.dev.st := (Kst.of honly (by decide)).st
  obtain ⟨hmembers, horig, _⟩ := hmo
  replace hmembers : Tab.at (s.dev.updRing (fun r => { r with members := Tab.put r.members id.val none })).ringMaster.ring.members id.val = (none : Option Member) := by
    rw [hmembers]
    exact mem_put s.dev.ring.members id.val none
  generalize (s.dev.updRing (fun r => { r with members := Tab.put r.members id.val none })).ringMaster = e at hmembers horig hflag hst
  change e.ring.orig = s.dev.ring.orig at horig
  rw [hflag, hst]
  by_cases hstands : (s.dev.flag .RING_CFG_LOSTHOLD && s.dev.st.running) = true
  · rw [if_pos hstands]
    obtain ⟨hown, _, hkeeps, _⟩ := updOrig_st e id.val (fun o => { o with lost := true }) id.isLt
    obtain ⟨hbit, hheld⟩ := updOrig_stands (d := e) (f := fun o => { o with lost := true }) id.isLt (by simp)
    generalize e.updOrig id.val (fun o => { o with lost := true }) = g at hown hkeeps hbit hheld
    have hraise := Dev.raise_only g Ev.RING_MEMBER_LOST (le 1 id.val)
    have hring : (g.raise Ev.RING_MEMBER_LOST (le 1 id.val)).ring = g.ring := hraise.parts .ring (by decide)
    rw [hring]
    refine ⟨by rw [hkeeps]; exact hmembers, fun _ _ => ⟨by rw [hown, horig], ?_, (held_of hraise (by decide) .ring).trans hheld, Dev.raise_pending g _ _ (by decide)⟩⟩
    rw [hraise.rd _ _ _ (by decide)]
    exact hbit
  · rw [if_neg hstands]
    exact ⟨hmembers, fun hl hr => absurd (by rw [hl, hr]; rfl) hstands⟩

theorem ringOthers_of {d : Dev} {i : Nat} {m : Member} (hi : i < 8) (h : Tab.at d.ring.members i = some m) : i ∈ d.ringOthers.map (·.1) := by
  unfold Dev.ringOthers
  refine List.mem_map.mpr ⟨(i, m), List.mem_filterMap.mpr ⟨i, List.mem_range.mpr hi, ?_⟩, rfl⟩
  rw [h]
  rfl

theorem ringOthers_lt {d : Dev} {i : Nat} (h : i ∈ d.ringOthers.map (·.1)) : i < 8 := by
  unfold Dev.ringOthers at h
  obtain ⟨⟨k, m⟩, hmem, rfl⟩ := List.mem_map.mp h
  obtain ⟨n, hn, hsome⟩ := List.mem_filterMap.mp hmem
  obtain ⟨x, _, hx⟩ := Option.map_eq_some_iff.mp hsome
  cases hx
  exact List.mem_range.mp hn

/-- Every member of a list stands as an originator for the ring being down. -/
theorem downOrigs_stand {d : Dev} {l : List Nat} (hl : ∀ i ∈ l, i < 8) :
    ∀ i ∈ l, (Tab.at (d.forEach l (fun d i => d.updOrig i (fun o => { o with down := true }))).ring.orig i : Orig).down = true := by
  refine forEach_inv (Q := fun _ => True) (P := fun d i => (Tab.at d.ring.orig i : Orig).down = true) (fun e x hx _ => ?_) trivial
  obtain ⟨hown, hothers, _⟩ := updOrig_st e x (fun o => { o with down := true }) (hl x hx)
  refine ⟨trivial, by rw [hown], fun y hy => ?_⟩
  by_cases hyx : y = x
  · rw [hyx, hown]
  · rw [hothers y hyx]
    exact hy

/-- The input is down: not UP, and a gap counted. -/
def Dev.ringGap (d : Dev) : Dev := (d.wr .RING_STAT_UP 0).inc .RING_CNT_GAPS

/-- With DOWNHOLD, every member stands as an originator while the input is down. -/
def Dev.gapHolds (d : Dev) : Dev :=
  if d.flag .RING_CFG_DOWNHOLD then
    (d.forEach (d.ringOthers.map (·.1)) (fun d i => d.updOrig i (fun o => { o with down := true }))).raise Ev.RING_DOWN
  else d

theorem ringGap_is (d : Dev) : d.ringGap.rd .RING_STAT_UP = 0 ∧ d.ringGap.rd .RING_CNT_GAPS = min (d.rd .RING_CNT_GAPS + 1) 65535 ∧
    d.ringGap.flag .RING_CFG_DOWNHOLD = d.flag .RING_CFG_DOWNHOLD ∧ d.ringGap.ring = d.ring := by
  unfold Dev.ringGap
  refine ⟨?_, ?_, ?_, rfl⟩
  · rw [inc_rd_ne _ _ _ _ _ (by decide)]
    exact rd_wr_self d .RING_STAT_UP 0 0 0 (by decide)
  · rw [inc_rd, rd_wr_other _ _ _ _ _ _ (by decide)]
    rfl
  · unfold Dev.flag
    rw [inc_rd_ne _ _ _ _ _ (by decide), rd_wr_other _ _ _ _ _ _ (by decide)]

theorem ringDown_gives {s : State} (hon : s.dev.ringOn = true) (hup : s.dev.flag .RING_STAT_UP = true) (hdue : s.dev.downPassed s.dev.ring.frameAt = true) :
    Gives .ringDown s fun t =>
    t.dev.rd .RING_STAT_UP = 0 ∧ t.dev.rd .RING_CNT_GAPS = min (s.dev.rd .RING_CNT_GAPS + 1) 65535 ∧
    (s.dev.flag .RING_CFG_DOWNHOLD = true → t.dev.evPending Ev.RING_DOWN ∧
      ∀ (i : Nat) (m : Member), i < 8 → Tab.at s.dev.ring.members i = some m → (Tab.at t.dev.ring.orig i : Orig).down = true) := by
  refine gives_fn (f := fun d => if !d.ringOn || !d.flag .RING_STAT_UP || !d.downPassed d.ring.frameAt then d else d.ringGap.gapHolds)
    (g := s.dev.ringGap.gapHolds) rfl (if_neg (by rw [hon, hup, hdue]; decide)) ?_
  dsimp only
  unfold Dev.gapHolds
  obtain ⟨hnotUp, hgaps, hflag, hring⟩ := ringGap_is s.dev
  generalize s.dev.ringGap = e at hnotUp hgaps hflag hring
  rw [hflag]
  by_cases hhold : s.dev.flag .RING_CFG_DOWNHOLD = true
  · rw [if_pos hhold]
    have hloop := forEach_only (e.ringOthers.map (·.1)) e (fun d i => d.updOrig i (fun o => { o with down := true })) (fun d i => Dev.updOrig_only d i _)
    have hstand := downOrigs_stand (d := e) (l := e.ringOthers.map (·.1)) (fun i hi => ringOthers_lt hi)
    have hmember : ∀ (i : Nat) (m : Member), i < 8 → Tab.at s.dev.ring.members i = some m → i ∈ e.ringOthers.map (·.1) :=
      fun i m hi hm => ringOthers_of hi (by rw [hring]; exact hm)
    generalize e.forEach (e.ringOthers.map (·.1)) (fun d i => d.updOrig i (fun o => { o with down := true })) = g at hloop hstand
    have hraise := Dev.raise_only g Ev.RING_DOWN []
    have hkeeps : (g.raise Ev.RING_DOWN []).ring = g.ring := hraise.parts .ring (by decide)
    rw [hkeeps]
    exact ⟨(hraise.rd _ _ _ (by decide)).trans ((hloop.rd _ _ _ (by decide)).trans hnotUp), (hraise.rd _ _ _ (by decide)).trans ((hloop.rd _ _ _ (by decide)).trans hgaps),
      fun _ => ⟨Dev.raise_pending g _ _ (by decide), fun i m hi hm => hstand i (hmember i m hi hm)⟩⟩
  · rw [if_neg hhold]
    exact ⟨hnotUp, hgaps, fun h => absurd h hhold⟩

theorem ringFrameCrcFail_gives {s : State} (hon : s.dev.ringOn = true) :
    Gives .ringFrameCrcFail s fun t => t.dev.rd .RING_CNT_CRC = min (s.dev.rd .RING_CNT_CRC + 1) 65535 :=
  gives_fn (show exec .ringFrameCrcFail s = execRingFrameCrcFail s from rfl) (if_pos hon) (inc_rd s.dev .RING_CNT_CRC 0 0)

/-! ### STATUS frames -/

/-- A member is seen, and its loss ends. -/
def Dev.memberSeen (d : Dev) (src : Nat) (m : Member) : Dev :=
  let d := d.updRing (fun r => { r with members := Tab.put r.members src (some m) })
  if (Tab.at d.ring.orig src : Orig).lost then d.updOrig src (fun o => { o with lost := false }) else d

theorem memberSeen_is {d : Dev} {src : Nat} (hsrc : src < 8) (m : Member) : Tab.at (d.memberSeen src m).ring.members src = some m ∧
    (Tab.at (d.memberSeen src m).ring.orig src : Orig) = { (Tab.at d.ring.orig src : Orig) with lost := false } := by
  unfold Dev.memberSeen
  dsimp only
  have hmembers : Tab.at (d.updRing (fun r => { r with members := Tab.put r.members src (some m) })).ring.members src = some m := mem_put d.ring.members src (some m)
  have horig : (d.updRing (fun r => { r with members := Tab.put r.members src (some m) })).ring.orig = d.ring.orig := rfl
  generalize d.updRing (fun r => { r with members := Tab.put r.members src (some m) }) = e at hmembers horig
  rw [← horig]
  split
  · obtain ⟨hown, _, hkeeps, _⟩ := updOrig_st e src (fun o => { o with lost := false }) hsrc
    rw [hkeeps, hown]
    exact ⟨hmembers, rfl⟩
  · next hlost =>
    refine ⟨hmembers, ?_⟩
    generalize (Tab.at e.ring.orig src : Orig) = o at hlost
    cases o
    simp only [Bool.not_eq_true] at hlost
    rw [hlost]

theorem ringStatus_is {d : Dev} {src : Nat} (hsrc : src < 8) (hops present requests : Nat) :
    Tab.at (d.ringStatus src hops present requests).ring.members src = some ⟨present, requests, hops, d.now⟩ ∧
    (Tab.at (d.ringStatus src hops present requests).ring.orig src : Orig) = { (Tab.at d.ring.orig src : Orig) with lost := false } := by
  have heq : d.ringStatus src hops present requests = (d.memberSeen src ⟨present, requests, hops, d.now⟩).ringMaster.masterGroups := rfl
  rw [heq]
  obtain ⟨hmembers, horig⟩ := memberSeen_is (d := d) hsrc ⟨present, requests, hops, d.now⟩
  generalize d.memberSeen src ⟨present, requests, hops, d.now⟩ = e at hmembers horig
  obtain ⟨hm, ho, _⟩ := (ringMaster_mo e).trans (masterGroups_mo e.ringMaster)
  rw [hm, ho]
  exact ⟨hmembers, horig⟩

theorem ringStatusFrame_member {src hops : RingId} {foreign : Bool} {state holdc flags present requests : Byte} {sec : U32} {s : State}
    (hon : s.dev.ringOn = true) (hsrc : src.val ≠ s.dev.ringId) : Gives (.ringStatusFrame src hops foreign state holdc flags present requests sec) s fun t =>
      Tab.at t.dev.ring.members src.val = some ⟨present.toNat, requests.toNat, hops.val, s.dev.now⟩ ∧
      (Tab.at t.dev.ring.orig src.val : Orig) = { (Tab.at s.dev.ring.orig src.val : Orig) with lost := false, down := false } := by
  refine ringFrame_gives rfl hon fun e he => ?_
  dsimp only
  rw [he.ringId, if_neg hsrc]
  obtain ⟨hmembers, horig⟩ := ringStatus_is (d := e) src.isLt hops.val present.toNat requests.toNat
  rw [he.now] at hmembers
  exact ⟨hmembers, by rw [horig, he.orig src.isLt]⟩

theorem ringStatusFrame_duplicate {src hops : RingId} {state holdc flags present requests : Byte} {sec : U32} {s : State}
    (hon : s.dev.ringOn = true) (hsrc : src.val = s.dev.ringId) : Gives (.ringStatusFrame src hops true state holdc flags present requests sec) s fun t =>
      t.dev.rd .RING_STAT_DUP = 1 ∧ t.dev.evPending Ev.RING_DUP := by
  refine ringFrame_gives rfl hon fun e he => ?_
  dsimp only
  rw [he.ringId, if_pos hsrc, if_pos rfl]
  have hdup : (e.wr .RING_STAT_DUP 1).ringMaster.rd .RING_STAT_DUP = 1 :=
    ((Dev.ringMaster_only _).rd _ _ _ (by decide)).trans (rd_wr_self e .RING_STAT_DUP 1 0 0 (by decide))
  generalize (e.wr .RING_STAT_DUP 1).ringMaster = g at hdup
  exact ⟨((Dev.raise_only g _ _).rd _ _ _ (by decide)).trans hdup, Dev.raise_pending g _ _ (by decide)⟩

theorem ringOn_kept {d e : Dev} (hen : e.flag .RING_CFG_EN = d.flag .RING_CFG_EN) (hrun : e.ring.running = d.ring.running) : e.ringOn = d.ringOn := by
  unfold Dev.ringOn
  rw [hen, hrun]

theorem ringStatusSend_gives {s : State} (hon : s.dev.ringOn = true) : Gives .ringStatusSend s fun t =>
    t.dev.out.head? = some (.ring ⟨s.dev.rd .RING_CFG_ID, 0,
      .status s.dev.st.code s.dev.localHold (s.dev.rd .PTP_STAT_LOCK + 2 * (1 - s.dev.rd .TB_CTL_SRC)) (groupMask s.dev.hasGroup) (groupMask s.dev.requests)
        (tsec s.dev.now)⟩) := by
  have honly := Dev.ringMaster_only s.dev
  have hstill : s.dev.ringMaster.ringOn = true := (ringOn_kept (flag_only honly (by decide) 0 0) (ringMaster_mo s.dev).2.2.1).trans hon
  refine gives_fn (show exec .ringStatusSend s = execRingStatusSend s from rfl) (if_pos hstill) ?_
  dsimp only
  rw [honly.rd .RING_CFG_ID 0 0 (by decide)]
  rfl

/-- Settles O47: HOLD and STATUS frames, what their absence does, and what the module sends. -/
theorem ringHoldsAndMembers : Obligations.RingHoldsAndMembers := by
  unfold Obligations.RingHoldsAndMembers
  exact ⟨fun _ _ _ _ _ _ => ringHoldFrame_gives, fun _ _ => ringHoldOriginatorTimeout_gives, fun _ => ringHoldSend_gives, fun _ _ _ => ringMemberLost_gives,
    fun _ => ringDown_gives, fun _ => ringFrameCrcFail_gives, fun _ _ _ _ _ _ _ _ _ _ hon => ⟨ringStatusFrame_member hon, ringStatusFrame_duplicate hon⟩,
    fun _ => ringStatusSend_gives⟩

/-! ### Pulses and the count latch -/

theorem ringPulseFrame_own {src hops : RingId} {second rt : U32} {t0 : Nat} {s : State} (hon : s.dev.ringOn = true) (hsrc : src.val = s.dev.ringId)
    (hsent : s.dev.ring.pulseAt = some t0) : Gives (.ringPulseFrame src hops second rt) s fun t =>
      t.dev.rd .RING_RT_NS = (s.dev.now - t0) % 2 ^ 32 ∧ t.dev.ring.pulseAt = none := by
  refine ringFrame_gives rfl hon fun e he => ?_
  have hpulse : e.ring.pulseAt = some t0 := he.1.2.2.1.trans hsent
  have heq : e.ringPulse src.val hops.val second.toNat rt.toNat = (e.wr .RING_RT_NS (e.now - t0)).updRing (fun r => { r with pulseAt := none }) := by
    unfold Dev.ringPulse
    rw [if_pos (hsrc.trans he.ringId.symm), hpulse]
  dsimp only
  rw [heq, he.now]
  exact ⟨(Dev.rd_wr ..).trans (if_pos ⟨rfl, rfl, rfl⟩), rfl⟩

/-- The offset that another module's PULSE gives (R363). -/
def Dev.pulseOffset (d : Dev) (second hops rt modules : Nat) : Int := (d.now : Int) - d.fullTime second 0 - (hops * rt / max 1 modules : Nat)

/-- Another module's PULSE: the round trip and the offset, before the event. -/
def Dev.pulseShown (d : Dev) (second hops rt : Nat) : Dev :=
  (d.wr .RING_RT_NS rt).wr .RING_PLS_O (satSigned 32 (d.pulseOffset second hops rt d.ringModules))

theorem ringPulse_other {d : Dev} {src : Nat} (h : src ≠ d.ringId) (hops second rt : Nat) : d.ringPulse src hops second rt =
    if d.rd .RING_CFG_TTOL * 1000 < (d.pulseOffset second hops rt d.ringModules).natAbs then
      (d.pulseShown second hops rt).raise Ev.RING_TIME (le 4 (satSigned 32 (d.pulseOffset second hops rt d.ringModules)))
    else d.pulseShown second hops rt := by
  unfold Dev.ringPulse
  rw [if_neg h]
  dsimp only
  have httol : ((d.wr .RING_RT_NS rt).wr .RING_PLS_O (satSigned 32 (d.pulseOffset second hops rt d.ringModules))).rd .RING_CFG_TTOL = d.rd .RING_CFG_TTOL :=
    (rd_wr_other _ _ _ _ _ _ (by decide)).trans (rd_wr_other _ _ _ _ _ _ (by decide))
  unfold Dev.pulseShown Dev.pulseOffset
  unfold Dev.pulseOffset at httol
  rw [httol]

theorem pulseShown_is (d : Dev) (second hops : Nat) {rt : Nat} (hrt : rt < 2 ^ 32) : (d.pulseShown second hops rt).rd .RING_RT_NS = rt ∧
    (d.pulseShown second hops rt).rd .RING_PLS_O = satSigned 32 (d.pulseOffset second hops rt d.ringModules) ∧
    (d.pulseShown second hops rt).ringModules = d.ringModules ∧ (d.pulseShown second hops rt).out = d.out := by
  unfold Dev.pulseShown
  refine ⟨?_, rd_wr_self _ .RING_PLS_O _ 0 0 (satSigned_lt _), ?_, rfl⟩
  · rw [rd_wr_other _ _ _ _ _ _ (by decide)]
    exact rd_wr_self d .RING_RT_NS rt 0 0 hrt
  · unfold Dev.ringModules
    rw [rd_wr_other _ _ _ _ _ _ (by decide), rd_wr_other _ _ _ _ _ _ (by decide)]

theorem ringPulse_shows {d : Dev} {src : Nat} (h : src ≠ d.ringId) (hops second : Nat) {rt : Nat} (hrt : rt < 2 ^ 32) :
    let e := d.ringPulse src hops second rt
    e.ringModules = d.ringModules ∧ e.rd .RING_RT_NS = rt ∧ e.rd .RING_PLS_O = satSigned 32 (d.pulseOffset second hops rt d.ringModules) ∧
      (d.rd .RING_CFG_TTOL * 1000 < (d.pulseOffset second hops rt d.ringModules).natAbs → e.evPending Ev.RING_TIME) ∧ ∀ o ∈ d.out, o ∈ e.out := by
  dsimp only
  rw [ringPulse_other h]
  obtain ⟨hround, hofs, hmodules, hout⟩ := pulseShown_is d second hops hrt
  generalize d.pulseShown second hops rt = e at hround hofs hmodules hout
  generalize d.pulseOffset second hops rt d.ringModules = ofs at hofs ⊢
  split
  · have hraise := Dev.raise_only e Ev.RING_TIME (le 4 (satSigned 32 ofs))
    refine ⟨?_, (hraise.rd _ _ _ (by decide)).trans hround, (hraise.rd _ _ _ (by decide)).trans hofs, fun _ => Dev.raise_pending e _ _ (by decide),
      fun o ho => raise_mem e _ _ o (by rw [hout]; exact ho)⟩
    unfold Dev.ringModules at hmodules ⊢
    rw [hraise.rd _ _ _ (by decide)]
    exact hmodules
  · next hsmall => exact ⟨hmodules, hround, hofs, fun hlarge => absurd hlarge hsmall, fun o ho => by rw [hout]; exact ho⟩

theorem ringPulseFrame_other {src hops : RingId} {second rt : U32} {s : State} (hon : s.dev.ringOn = true) (hsrc : src.val ≠ s.dev.ringId) :
    Gives (.ringPulseFrame src hops second rt) s fun t => ∃ n : Nat,
      n = t.dev.ringModules ∧ t.dev.rd .RING_RT_NS = rt.toNat ∧
      t.dev.rd .RING_PLS_O = satSigned 32 ((s.dev.now : Int) - s.dev.fullTime second.toNat 0 - (hops.val * rt.toNat / max 1 n : Nat)) ∧
      (s.dev.rd .RING_CFG_TTOL * 1000 < ((s.dev.now : Int) - s.dev.fullTime second.toNat 0 - (hops.val * rt.toNat / max 1 n : Nat)).natAbs →
        t.dev.evPending Ev.RING_TIME) ∧
      (hops.val + 1 < 8 → Output.ring ⟨src.val, hops.val + 1, .pulse second.toNat rt.toNat⟩ ∈ t.dev.out) := by
  refine ringFrame_gives rfl hon fun e he => ?_
  dsimp only
  obtain ⟨hmodules, hround, hofs, hpend, hout⟩ := ringPulse_shows (fun h => hsrc (h.trans he.ringId)) hops.val second.toNat rt.isLt
  rw [he.2.1.rd .RING_CFG_TTOL 0 0 (by decide)] at hpend
  unfold Dev.pulseOffset at hofs hpend
  rw [fullTime_congr he.now, he.now] at hofs hpend
  exact ⟨e.ringModules, hmodules.symm, hround, hofs, hpend, fun hhops => hout _ (he.2.2 hsrc hhops)⟩

theorem pulseSend_gives {s : State} (hon : s.dev.ringOn = true) (hmaster : s.dev.flag .RING_STAT_MASTER = true) : Gives .pulseSend s fun t =>
    t.dev.ring.pulseAt = some s.dev.now ∧ t.dev.out = .ring ⟨s.dev.rd .RING_CFG_ID, 0, .pulse (tsec s.dev.now) (s.dev.rd .RING_RT_NS)⟩ :: s.dev.out := by
  have hsend : ∀ pay, s.dev.ringSend pay = s.dev.emit (.ring ⟨s.dev.rd .RING_CFG_ID, 0, pay⟩) := fun pay => if_pos hon
  refine gives_fn (show exec .pulseSend s = execPulseSend s from rfl) (if_pos (by rw [hon, hmaster]; rfl)) ?_
  dsimp only
  rw [hsend]
  exact ⟨rfl, rfl⟩

theorem countLatch_gives {s : State} (hon : s.dev.domOn .sup = true) : Gives .countLatch s fun t => t.dev.ring.latchLo = s.dev.fire.cnt.toNat % 2 ^ 32 ∧
    t.dev.ring.latchHi = s.dev.fire.cnt.toNat / 2 ^ 32 ∧ t.dev.rd .RING_CL_S_S = tsec s.dev.now % 2 ^ 32 :=
  gives_fn (show exec .countLatch s = execCountLatch s from rfl) (if_pos hon) ⟨rfl, rfl, (Dev.rd_wr ..).trans (if_pos ⟨rfl, rfl, rfl⟩)⟩

/-! ### Shared starts -/

section
variable {src hops group : RingId} {sec ns : U32} {s : State}

/-- A START of another module reaches the group: what the group does on the state that the frame leaves. -/
theorem ringStartFrame_reaches {p : State → Prop} (hon : s.dev.ringOn = true) (hsrc : src.val ≠ s.dev.ringId) (hpend : s.dev.anyPend group.val = true)
    (hp : ∀ e : Dev, e.anyPend group.val = true → e.held .inhibit = s.dev.held .inhibit → e.now = s.dev.now →
      p { s with dev := e.groupStart group.val (s.dev.fullTime sec.toNat ns.toNat) }) : Gives (.ringStartFrame src hops group sec ns) s p := by
  refine ringFrame_gives rfl hon fun e he => ?_
  rw [he.ringId, if_neg hsrc, fullTime_congr he.now]
  refine hp e ?_ (he.1.2.2.2.2.2 .inhibit (by decide)) he.now
  rw [anyPend_congr (he.2.1.parts .boot (by decide)) (he.2.1.parts .axes (by decide))]
  exact hpend

/-- The epoch of a START that is in time and not inhibited is the group's. -/
theorem groupStart_accepts {d : Dev} {g : Nat} {epoch : Int} (hany : d.anyPend g = true) (hfree : d.held .inhibit = false) (hahead : (d.now : Int) + 100000 ≤ epoch) :
    Tab.at (d.groupStart g epoch).ring.epochs g = some epoch.toNat := by
  unfold Dev.groupStart
  rw [if_neg (by rw [hany]; decide), if_neg (by rw [hfree]; decide), if_neg (Int.not_lt.mpr hahead)]
  exact ep_put d.ring.epochs g (some epoch.toNat)

/-- A START that is inhibited or too late drops the group. -/
theorem groupStart_drops {d : Dev} {g : Nat} {epoch : Int} (hany : d.anyPend g = true) (hbad : d.held .inhibit = true ∨ epoch < (d.now : Int) + 100000) :
    ∃ cause, d.groupStart g epoch = d.dropGroup g cause := by
  unfold Dev.groupStart
  rw [if_neg (by rw [hany]; decide)]
  by_cases hinhibit : d.held .inhibit = true
  · exact ⟨2, if_pos hinhibit⟩
  · exact ⟨1, (if_neg hinhibit).trans (if_pos (hbad.resolve_left hinhibit))⟩

theorem ringStartFrame_accepts (hon : s.dev.ringOn = true) (hsrc : src.val ≠ s.dev.ringId) (hpend : s.dev.anyPend group.val = true)
    (hfree : s.dev.held .inhibit = false) (hahead : (s.dev.now : Int) + 100000 ≤ s.dev.fullTime sec.toNat ns.toNat) :
    Gives (.ringStartFrame src hops group sec ns) s fun t => Tab.at t.dev.ring.epochs group.val = some (s.dev.fullTime sec.toNat ns.toNat).toNat :=
  ringStartFrame_reaches hon hsrc hpend fun e hany hheld hnow => groupStart_accepts hany (hheld.trans hfree) (by rw [hnow]; exact hahead)

theorem ringStartFrame_drops (hon : s.dev.ringOn = true) (hsrc : src.val ≠ s.dev.ringId) (hpend : s.dev.anyPend group.val = true)
    (hbad : s.dev.held .inhibit = true ∨ s.dev.fullTime sec.toNat ns.toNat < (s.dev.now : Int) + 100000) :
    Gives (.ringStartFrame src hops group sec ns) s fun t => t.dev.anyPend group.val = false ∧
      Tab.at t.dev.ring.epochs group.val = (none : Option Nat) ∧ t.dev.evPending Ev.RING_START_REFUSED := by
  refine ringStartFrame_reaches hon hsrc hpend fun e hany hheld hnow => ?_
  dsimp only
  obtain ⟨cause, heq⟩ := groupStart_drops (g := group.val) (epoch := s.dev.fullTime sec.toNat ns.toNat) hany (by rw [hheld, hnow]; exact hbad)
  rw [heq]
  exact dropGroup_st e group.val cause

end

theorem groupStartTimeout_gives {g : RingId} {s : State} (hlate : s.dev.groupLate g.val = true) : Gives (.groupStartTimeout g) s fun t =>
    t.dev.anyPend g.val = false ∧ Tab.at t.dev.ring.epochs g.val = (none : Option Nat) ∧ t.dev.evPending Ev.RING_START_REFUSED := by
  refine gives_fn (g := s.dev.dropGroup g.val 3) (show exec (.groupStartTimeout g) s = execGroupStartTimeout g s from rfl) (if_pos hlate) ?_
  dsimp only
  exact dropGroup_st s.dev g.val 3

/-- Settles O48: pulses, the count latch and the starts of groups. -/
theorem ringTimeAndStarts : Obligations.RingTimeAndStarts := by
  unfold Obligations.RingTimeAndStarts
  exact ⟨fun _ _ _ _ _ hon => ⟨fun hsrc _ => ringPulseFrame_own hon hsrc, ringPulseFrame_other hon⟩, fun _ => pulseSend_gives, fun _ => countLatch_gives,
    fun _ _ _ _ _ _ hon hsrc hpend => ⟨ringStartFrame_accepts hon hsrc hpend, ringStartFrame_drops hon hsrc hpend⟩, fun _ _ => groupStartTimeout_gives⟩

end Sys2Proof.Machine

/-! Proofs: the service requests of the press protocol (O16). -/
namespace Sys2Proof.Machine

set_option exponentiation.threshold 600

/-! ### HELLO and HEARTBEAT -/

/-- The peer is UP, with its event where it was not. -/
def Dev.peerUp (d : Dev) (r : Role) (h : XppHdr) : Dev :=
  if d.up r then d else (d.setBit .XPP_PEER_UP r.idx).raise Ev.XPP_PEER_UP (le 1 r.idx ++ le 4 h.ip.toNat ++ le 1 h.port.val)

/-- The hold for a lost press controller clears when it is back. -/
def Dev.controllerBack (d : Dev) (r : Role) : Dev := if r = .pc && d.held .pcLost then d.clearHold .pcLost else d

/-- The data of the ACK of HELLO (R335). -/
def Dev.helloData (d : Dev) : List Byte :=
  le 4 Config.modid.toNat ++ le 4 d.variantCode ++ le 4 (d.rd .CR_BOOTCNT_N) ++ le 4 (d.rd .FIRE_CPM_CPM) ++ le 4 (d.rd .XPP_CTL_HBTO)

theorem helloFrom_eq (d : Dev) (r : Role) (h : XppHdr) :
    d.helloFrom r h = ((d.peerUp r h).controllerBack r, ((d.peerUp r h).controllerBack r).helloData) := rfl

theorem idx_lt (r : Role) : r.idx < 3 := by cases r <;> decide

theorem peerUp_up (d : Dev) (r : Role) (h : XppHdr) : (d.peerUp r h).up r = true := by
  unfold Dev.peerUp
  split
  · assumption
  · unfold Dev.up
    rw [(Dev.raise_only _ _ _).rd _ _ _ (by decide)]
    unfold Dev.setBit
    rw [Dev.rd_wr, if_pos ⟨rfl, rfl, rfl⟩]
    exact bitOf_withBit_mod _ _ _ (idx_lt r)

theorem peerUp_only (d : Dev) (r : Role) (h : XppHdr) : Dev.Only 0x14080000100 (0x8040 ||| fieldsMask [.XPP_PEER_UP]) d (d.peerUp r h) := by
  unfold Dev.peerUp Dev.setBit
  split
  · exact Dev.Only.refl _ _ _
  · exact ((Dev.Only.refl _ _ d).wr .XPP_PEER_UP _ 0 0 (by decide)).trans ((Dev.raise_only _ _ _).mono rfl rfl)

theorem controllerBack_only (d : Dev) (r : Role) : Dev.Only (partsMask [.xpp, .ring, .out]) (fieldsMask [.AON_STATE_HOLDC]) d (d.controllerBack r) := by
  unfold Dev.controllerBack
  split
  · exact (Dev.clearHold_only _ _).mono rfl rfl
  · exact Dev.Only.refl _ _ _

theorem controllerBack_frees (d : Dev) : (d.controllerBack .pc).held .pcLost = false := by
  unfold Dev.controllerBack
  split
  · exact clearHold_held _ _
  · next h => simpa using h

theorem helloData_congr {d e : Dev} {c r : Nat} (h : Dev.Only c r d e) (hv : c.testBit (Part.ctorIdx .variant) = false)
    (h1 : r.testBit (Fld.ctorIdx .CR_BOOTCNT_N) = false) (h2 : r.testBit (Fld.ctorIdx .FIRE_CPM_CPM) = false)
    (h3 : r.testBit (Fld.ctorIdx .XPP_CTL_HBTO) = false) : e.helloData = d.helloData := by
  unfold Dev.helloData
  rw [variantCode_congr (h.parts .variant hv), h.rd _ _ _ h1, h.rd _ _ _ h2, h.rd _ _ _ h3]

theorem hello_gives {h : XppHdr} {r : Role} {s : State} (ht : s.dev.Takes h .hello r) : Gives (.hello h) s fun t =>
    t.dev.up r = true ∧ (r = .pc → t.dev.held .pcLost = false) ∧
      ∃ n, t.dev.out.head? = some (.xpp r n (.ack h.seq.toNat
        (le 4 Config.modid.toNat ++ le 4 s.dev.variantCode ++ le 4 (s.dev.rd .CR_BOOTCNT_N) ++ le 4 (s.dev.rd .FIRE_CPM_CPM)
          ++ le 4 (s.dev.rd .XPP_CTL_HBTO)))) := by
  refine takes_gives rfl ht (by simp) (by simp) (by simp) (by simp) fun d e o hd _ hc => ?_
  have hcarry : ((d.helloFrom r h).1, Done.ack (d.helloFrom r h).2) = (e, o) := hc
  rw [helloFrom_eq] at hcarry
  cases hcarry
  have hup := peerUp_up d r h
  have hfirst := peerUp_only d r h
  generalize d.peerUp r h = e at hup hfirst
  have hback := controllerBack_only e r
  have hfree : r = .pc → (e.controllerBack r).held .pcLost = false := fun hr => by rw [hr]; exact controllerBack_frees e
  generalize e.controllerBack r = f at hback hfree
  have hdata : f.helloData = s.dev.helloData :=
    (helloData_congr hback (by decide) (by decide) (by decide) (by decide)).trans ((helloData_congr hfirst (by decide) (by decide) (by decide) (by decide)).trans
      (helloData_congr hd (by decide) (Nat.zero_testBit _) (Nat.zero_testBit _) (Nat.zero_testBit _)))
  have hstill : f.up r = true := (up_of (hback.rd _ _ _ (by decide)) r).trans hup
  refine ⟨(up_of (reply_rd f r _ _ _ _ _ (by decide)) r).trans hstill, fun hr => ?_, ?_⟩
  · dsimp only
    exact (held_of (Dev.reply_only f r _ _) (by decide) .pcLost).trans (hfree hr)
  · rw [hdata]
    exact answer_head f r h.seq.toNat (.ack h.seq.toNat s.dev.helloData) (by simp) hstill

theorem heartbeat_gives {h : XppHdr} {r : Role} {s : State} (ht : s.dev.Takes h .heartbeat r) :
    Gives (.heartbeat h) s fun t => Unchanged [Part.xpp] [] s t := by
  refine takes_gives rfl ht (by simp) (by simp) (by simp) (by simp) fun d e o hd _ hc => ?_
  have hcarry : (d, Done.silent) = (e, o) := hc
  cases hcarry
  exact (State.Only.mkDev hd (State.Only.refl _ _ s)).unchanged rfl rfl

/-! ### Kept messages -/

theorem emits_out {α : Type} (f : α → Output) (l : List α) (d : Dev) : (d.forEach l (fun d x => d.emit (f x))).out = (l.map f).reverse ++ d.out := by
  induction l generalizing d with
  | nil => rfl
  | cons a t ih =>
    refine (ih (d.emit (f a))).trans ?_
    rw [List.map_cons, List.reverse_cons, List.append_assoc]
    rfl

/-- An ACK is the newest output and leaves the messages kept. -/
theorem ack_keeps {d : Dev} {r : Role} (seq : Nat) (data : List Byte) (hup : d.up r = true) (hlen : (d.peer r).kept.length ≤ 1024) :
    ((d.answer r seq (.ack seq data)).peer r).kept = (d.peer r).kept ∧ (d.answer r seq (.ack seq data)).up r = true ∧
      ∃ n, (d.answer r seq (.ack seq data)).out = .xpp r n (.ack seq data) :: d.out := by
  unfold Dev.answer
  dsimp only
  generalize hp : ({ d.peer r with accepted := (d.peer r).accepted.map (fun a => if a.seq = seq then { a with resp := some (.ack seq data) } else a) } : Peer) = p
  have hkept : p.kept = (d.peer r).kept := by rw [← hp]
  have hup' : (d.setPeer r p).up r = true := hup
  unfold Dev.send
  rw [if_pos hup']
  refine ⟨?_, hup, _, rfl⟩
  show (((d.setPeer r p).setPeer r _).peer r).kept = _
  rw [peer_setPeer, peer_setPeer]
  exact (List.take_of_length_le (by rw [hkept]; exact hlen)).trans hkept

theorem noteResend_gives {h : XppHdr} {seq : U32} {r : Role} {s : State} (ht : s.dev.Takes h (.noteResend seq) r) (hkeeps : s.dev.keptGone r seq.toNat = false)
    (hup : s.dev.up r = true) (hlen : (s.dev.peer r).kept.length ≤ 1024) : Gives (.noteResend h seq) s fun t => ∃ n, t.dev.out =
      (((s.dev.peer r).kept.reverse.filter (fun x => decide (seq.toNat ≤ x.1))).map (fun x => Output.xpp r x.1 x.2)).reverse
        ++ .xpp r n (.ack h.seq.toNat []) :: s.dev.out := by
  obtain ⟨y, hreceive, hrequest⟩ := takes_req ht (by simp) (by simp) (by simp)
  obtain ⟨hkept, hgone⟩ := receive_kept ht.1
  rw [hreceive] at hkept hgone
  refine gives_next (t := { s with dev := Dev.carryOut { s.dev with xpp := y } r ⟨h, .noteResend seq⟩ }) (congrArg Host.Outcome.next hrequest) ?_
  have hout : Dev.out { s.dev with xpp := y } = s.dev.out := rfl
  have hup' : Dev.up { s.dev with xpp := y } r = true := hup
  dsimp only at hkept hgone ⊢
  generalize ({ s.dev with xpp := y } : Dev) = d at hkept hgone hout hup'
  have hstill : d.keptGone r seq.toNat = false := by
    unfold Dev.keptGone at hkeeps ⊢
    rw [hgone]
    exact hkeeps
  have hcarry : d.carry r ⟨h, .noteResend seq⟩ = (d, .ok) := if_neg (by rw [hstill]; decide)
  have heq : d.carryOut r ⟨h, .noteResend seq⟩ = (d.answer r h.seq.toNat (.ack h.seq.toNat [])).resendKept r seq.toNat := by
    unfold Dev.carryOut
    rw [hcarry]
    rfl
  obtain ⟨hafter, hupAfter, n, hsent⟩ := ack_keeps h.seq.toNat [] hup' (by rw [hkept]; exact hlen)
  rw [heq]
  generalize d.answer r h.seq.toNat (.ack h.seq.toNat []) = e at hafter hupAfter hsent
  unfold Dev.resendKept
  rw [if_pos hupAfter, emits_out (fun x : Nat × XppMsg => Output.xpp r x.1 x.2), hafter, hkept, hsent, hout]
  exact ⟨n, rfl⟩

/-! ### Queries -/

theorem jobQuery_gives {h : XppHdr} {jn : U32} {j : Job} {r : Role} {s : State} (ht : s.dev.Takes h (.jobQuery jn) r) (hj : s.dev.job jn.toNat = some j) :
    Gives (.jobQuery h jn) s (Sent r (.ackJob h.seq.toNat (s.dev.jobStatusData j)) s) := by
  refine takes_gives rfl ht (by simp) (by simp) (by simp) (by simp) fun d e o hd hy hc hup => ?_
  have hjob : d.job jn.toNat = some j := by
    obtain ⟨y, rfl⟩ := hy
    exact hj
  have hdata : d.jobStatusData j = s.dev.jobStatusData j := by
    obtain ⟨y, rfl⟩ := hy
    rfl
  have hquery : d.orderQuery jn.toNat = (d, .ackJob (d.jobStatusData j)) := by
    unfold Dev.orderQuery
    rw [hjob]
  have hcarry : d.orderQuery jn.toNat = (e, o) := hc
  rw [hquery] at hcarry
  cases hcarry
  rw [← hdata]
  exact answer_head d r h.seq.toNat (.ackJob h.seq.toNat (d.jobStatusData j)) (by simp) ((up_of (up_of_only hd (Nat.zero_testBit _)) r).trans hup)

theorem regRead_gives {h : XppHdr} {addrs : List U32} {r : Role} {s : State} (ht : s.dev.Takes h (.regRead addrs) r) :
    Gives (.regRead h addrs) s (Acked r h ((s.dev.receive ⟨h, .regRead addrs⟩).1.orderRead (addrs.map (·.toNat))).2 s) := by
  obtain ⟨y, hreceive, hrequest⟩ := takes_req ht (by simp) (by simp) (by simp)
  rw [hreceive]
  refine gives_next (t := { s with dev := Dev.carryOut { s.dev with xpp := y } r ⟨h, .regRead addrs⟩ }) (congrArg Host.Outcome.next hrequest) ?_
  have hup : Dev.rd { s.dev with xpp := y } .XPP_PEER_UP = s.dev.rd .XPP_PEER_UP := rfl
  dsimp only
  generalize ({ s.dev with xpp := y } : Dev) = d at hup
  have hcarry : d.carry r ⟨h, .regRead addrs⟩ = ((d.orderRead (addrs.map (·.toNat))).1, .ack (d.orderRead (addrs.map (·.toNat))).2) := rfl
  rw [carryOut_plain (by simp), hcarry]
  have hread := Dev.orderRead_only d (addrs.map (·.toNat))
  generalize d.orderRead (addrs.map (·.toNat)) = read at hread
  exact acked_reply ((hread.rd _ _ _ (by decide)).trans hup) read.2

/-! ### A lost peer, STATUS and discarded messages -/

theorem xppPeerLost_gives {role : Fin 3} {s : State} (hup : bitOf (s.dev.rd .XPP_PEER_UP) role.val = true) (hsilent : s.dev.silent role.val = true) :
    Gives (.xppPeerLost role) s fun t => bitOf (t.dev.rd .XPP_PEER_UP) role.val = false ∧ t.dev.evPending Ev.XPP_PEER_LOST ∧
      (role.val = 0 → s.dev.st.running = true → t.dev.held .pcLost = true) := by
  refine gives_fn (show exec (.xppPeerLost role) s = execXppPeerLost role s from rfl) (if_neg (by rw [hup, hsilent]; decide)) ?_
  dsimp only
  have hdown : bitOf (((s.dev.clrBit .XPP_PEER_UP role.val).raise Ev.XPP_PEER_LOST (le 1 role.val)).rd .XPP_PEER_UP) role.val = false := by
    rw [(Dev.raise_only _ _ _).rd _ _ _ (by decide)]
    unfold Dev.clrBit
    rw [Dev.rd_wr, if_pos ⟨rfl, rfl, rfl⟩]
    exact bitOf_withoutBit_mod _ _ _ role.isLt
  have hpend := Dev.raise_pending (s.dev.clrBit .XPP_PEER_UP role.val) Ev.XPP_PEER_LOST (le 1 role.val) (by decide)
  have hst : ((s.dev.clrBit .XPP_PEER_UP role.val).raise Ev.XPP_PEER_LOST (le 1 role.val)).st = s.dev.st := by
    rw [(Kst.of (Dev.raise_only _ _ _) (by decide)).st]
    unfold Dev.st Dev.clrBit
    rw [rd_wr_other _ _ _ _ _ _ (by decide)]
  generalize (s.dev.clrBit .XPP_PEER_UP role.val).raise Ev.XPP_PEER_LOST (le 1 role.val) = e at hdown hpend hst
  rw [hst]
  split
  · have hhold := Dev.holdCause_only e .pcLost
    refine ⟨?_, hhold.evPending _ (by decide) hpend, fun _ _ => holdCause_held e .pcLost⟩
    rw [hhold.rd _ _ _ (by decide)]
    exact hdown
  · next hother => exact ⟨hdown, hpend, fun hr hrun => absurd (by rw [hr, hrun]; rfl) hother⟩

theorem statusPeriod_gives {s : State} (hon : s.dev.domOn .net = true) : Gives .statusPeriod s fun t =>
    ∀ r : Role, s.dev.up r = true → ∃ n, Output.xpp r n (.status s.dev.statusPayload) ∈ t.dev.out :=
  gives_fn (show exec .statusPeriod s = execStatusPeriod s from rfl) (if_pos hon) fun r hr => sendAll_mem s.dev r (.status s.dev.statusPayload) hr

theorem xppMessageDiscard_gives {port : Fin 3} {cause : BadCause} {s : State} (hon : s.dev.domOn .net = true) :
    Gives (.xppMessageDiscard port cause) s fun t => t.dev.rd .XPP_CNT_BAD = min (s.dev.rd .XPP_CNT_BAD + 1) (2 ^ (fldSpec .XPP_CNT_BAD).width - 1) :=
  gives_fn (show exec (.xppMessageDiscard port cause) s = execXppMessageDiscard port cause s from rfl) (if_pos hon) (discard_bad s.dev port.val cause)

/-- Settles O16: each service request that is taken is answered from the state it finds; a lost peer, STATUS and discarded messages. -/
theorem pressProtocolService : Obligations.PressProtocolService := by
  unfold Obligations.PressProtocolService
  exact ⟨fun _ _ _ => hello_gives, fun _ _ _ => heartbeat_gives, fun _ _ _ _ => noteResend_gives, fun _ _ _ _ _ => jobQuery_gives, fun _ _ _ _ => regRead_gives,
    fun _ _ => xppPeerLost_gives, fun _ => statusPeriod_gives, fun _ _ _ => xppMessageDiscard_gives⟩

end Sys2Proof.Machine
